-- ==== Sys2Proof/Word.lean ====
section
/-! DEFINITION. The words of the device: 32-bit registers, bytes, 64-bit network time. Only types stand here;
the arithmetic on them is in Machine/Bits.lean and Machine/Nt.lean. -/
namespace Sys2Proof

/-- A set-up register of BAR0 (R10, R550): 32 bits. -/
abbrev Reg := BitVec 32

/-- One byte of a host buffer, a frame or a submission entry. -/
abbrev Byte := BitVec 8

/-- Network time (R38): an unsigned 64-bit count of 2^-30 s; all arithmetic on it is modular. -/
abbrev NT := BitVec 64

/-- The phase accumulator of R43: NT in the high 64 bits, 32 fraction bits below. -/
abbrev Acc96 := BitVec 96

/-- A register field named by BAR0 offset, lowest bit and width. -/
abbrev Fld := Nat × Nat × Nat

/-- A sparse table: index and value, indexes strictly rising, no entry equal to the table's default. -/
abbrev Tab (α : Type) := List (Nat × α)

end Sys2Proof
end

