-- ==== Sys2Proof/Machine/TypesC.lean ====
section
/-! DEFINITION. The parts of State of the fleet: leases (R12-R28), the track graph and its reservations (R173-R207),
tasks and transactions (R208-R249), control loops (R250-R284) and filter slots (R145-R172). Lengths in mm unless a rule
gives cm; records keep the fields of the tables they come from. -/
namespace Sys2Proof.Machine

/-! ### Leases -/

/-- Lease states (R20), in the order of their codes. -/
inductive LeaseState where
  | unknown | admitting | active | suspect | dead | zombie | released
deriving DecidableEq, Repr

/-- The code of a lease state (R20). -/
def LeaseState.code : LeaseState → Nat
  | .unknown => 0 | .admitting => 1 | .active => 2 | .suspect => 3 | .dead => 4 | .zombie => 5 | .released => 6

/-- A report block (R328). -/
structure Report where
  steer : Nat
  disagree : Bool
  stopped : Bool
  cause : Nat
  repT : Nat
  task : Option Nat
  tver : Nat
  mark : Nat
  routeVer : Nat
  sGrant : Nat
  applied : List Nat
  vMeas : Int
  vLocal : Int
  kappa : Int
  cfgVer : Nat
  unauth : Nat
  snapId : Nat
deriving DecidableEq, Repr

/-- The lease of a slot. `uid` is the robot bound to it (R13), `tRep` its report interval in units of 100 ms, `rx` the
receipt of its last counted report (for ADMITTING, the admission), `from_` the state a ZOMBIE came from, `zRx` the
receipt of its latest zombie frame. -/
structure Lease where
  st : LeaseState := .unknown
  epoch : Nat := 0
  cls : Nat := 0
  parked : Bool := false
  unplaced : Bool := false
  uid : Nat := 0
  bound : Bool := false
  keyIdx : Nat := 0
  tRep : Nat := 2
  area : Nat × Nat × Nat := (0, 0, 0)
  handle : Option Nat := none
  since : NT := 0
  rx : NT := 0
  reported : Bool := false
  report : Option Report := none
  repRx : NT := 0
  from_ : LeaseState := .unknown
  zRx : NT := 0
  stopped : Bool := false
  cfgVer : Nat := 0
  confirmed : Bool := false
  unsynced : Bool := false
  /-- Widening of the admission area of a zombie re-admission, cm (R24). -/
  padded : Nat := 0
  /-- When the last `ADMIT` `OFFER` or `CONFIRM` was queued (R331). -/
  sentAt : NT := 0
  /-- Epochs of earlier leases of the slot since BOOT, each with the UID it was given to, newest first (R24, log entry 106). -/
  olds : List (Nat × Nat) := []
deriving DecidableEq, Repr

/-! ### Track graph -/

/-- A node (R173). -/
structure NodeRec where
  id : Nat
  type_ : Nat
  noHold : Bool
  e : Int
  n : Int
  u : Int
  zone : Nat
deriving DecidableEq, Repr

/-- A segment (R174): `len` and `hw` in cm, points in mm (`U` in cm). -/
structure SegRec where
  id : Nat
  clear : Nat
  dir : Nat
  nodeA : Nat
  nodeB : Nat
  len : Nat
  hw : Nat
  vlim : Nat
  zone : Nat
  pts : List (Int × Int × Int)
deriving DecidableEq, Repr

/-- A link between two segments (R177, R178), held once: `kind` 0 derived, 1 coupled. -/
structure LinkRec where
  a : Nat
  b : Nat
  kind : Nat
  minDist : Nat
  aLo : Nat
  aHi : Nat
  bLo : Nat
  bHi : Nat
deriving DecidableEq, Repr

/-- A graph (R173, R174, R177). -/
structure Graph where
  id : Nat := 0
  nodes : List NodeRec := []
  segs : List SegRec := []
  links : List LinkRec := []
deriving DecidableEq, Repr

/-- A load in progress (R181): its command and its image; `granted` once its leave runs. -/
structure GraphLoad where
  handle : Nat
  image : List Byte
  granted : Bool := false
deriving DecidableEq, Repr

/-- A patch (R182-R184): its command and `BASE_VER`, its transaction (0 until validation ends), its items (operation and record), the
graph after the change, the segments it deletes and those it restricts; `far` when its command was on the partner (R502). -/
structure Patch where
  handle : Nat
  ver : Nat := 0
  txn : Nat := 0
  items : List (Nat × List Byte)
  applyAt : Option NT
  graph : Graph := {}
  dels : List Nat := []
  chgs : List Nat := []
  far : Bool := false
deriving DecidableEq, Repr

/-- Kinds of reservation (R185), in the order of their codes. -/
inductive Kind where
  | firm | offered | spec | envelope
deriving DecidableEq, Repr

/-- A reservation (R185): `w`, `lo`, `hi` in cm; windows in full NT, `step` the full slotframe number. -/
structure Resv where
  seg : Nat
  kind : Kind
  openEnd : Bool := false
  frozen : Bool := false
  robot : Nat
  epoch : Nat
  w : Nat
  tin : NT
  tout : NT
  lo : Nat
  hi : Nat
  txn : Nat := 0
  staged : Bool := false
  uOld : Bool := false
  uNew : Bool := false
  host : Bool := false
  step : Nat := 0
  /-- The transaction whose `RELEASE` will remove the entry (R225). -/
  relBy : Nat := 0
deriving DecidableEq, Repr

/-- A route (R189, R212): its task and version, the approach length, and the segments with their directions (true =
from `NODE_B` to `NODE_A`). -/
structure Route where
  task : Nat := 0
  tver : Nat := 0
  approach : Int := 0
  hops : List (Nat × Bool) := []
deriving DecidableEq, Repr

/-- The projection of a robot (R189): route coordinate, cross-track offset, speed along the tangent, grade, observation
time, and the position and horizontal speed it came from. -/
structure Proj where
  s : Int
  e : Int
  v : Int
  grade : Nat
  tObs : NT
  pe : Int
  pn : Int
  speed : Nat
deriving DecidableEq, Repr

/-- A state of motion along a route (R272): position in nm, speed in nm/s, acceleration in nm/s². -/
structure Kin where
  s : Int
  v : Int
  a : Int := 0
deriving DecidableEq, Repr

/-- A planned step (R195): its slotframe number, the states at its ends, the speed in mm/s that its profile goes to and the limits it
does so under (mm/s², mm/s³); `brk` is `BRK_LAT` in a braking profile (R276), else 0, and `off` the ns into the step at which `k0` stands;
the ms the robot has been at rest at its end, and the coordinate in mm to which it still has to drive back (R275); `handed` once it went
to a transaction. -/
structure PlanStep where
  sf : Nat
  k0 : Kin
  k1 : Kin
  goal : Int := 0
  acc : Nat := 1
  jerk : Nat := 1
  brk : Nat := 0
  off : Nat := 0
  rest : Nat := 0
  back : Option Int := none
  handed : Bool := false
deriving DecidableEq, Repr

/-- What the Trellis holds of a robot (R189, R195, R203). -/
structure TrlRobot where
  route : Option Route := none
  proj : Option Proj := none
  /-- The last grade other than NONE of the lease (R30). -/
  grade : Option Nat := none
  /-- End of the granted route: the reference position at the end of the latest FIRM or OFFERED step (R189). -/
  sGrant : Option Int := none
  clashed : Bool := false
  clashTxn : Bool := false
  offRoute : Bool := false
  offTxn : Bool := false
  deviated : Bool := false
  /-- How the last projected record was judged (R190): 0 on plan, 1 DEVIATED, 2 OFF_ROUTE; `none` before the first on a route. -/
  judged : Option Nat := none
  blocked : Bool := false
  /-- The coordinate in mm of a target behind `s_hold` to which the robot drives back (R275). -/
  back : Option Int := none
  plan : List PlanStep := []
  deps : List (Nat × Nat) := []
  replan : Bool := false
  /-- Figures of the latest evaluation (R203): `v_e`, `L_fwd` cm, `W`, along-route length cm, NT, grade used. -/
  ve : Nat := 0
  lfwd : Nat := 0
  w : Nat := 0
  envLen : Nat := 0
  evalAt : NT := 0
  gradeUsed : Nat := 0
deriving DecidableEq, Repr

/-- A footprint to be installed with a graph (R28). -/
structure Footprint where
  slot : Nat
  graphId : Nat
  ents : List (Nat × Nat × Nat × Nat)
deriving DecidableEq, Repr

/-- The Trellis (R173-R207). -/
structure Trl where
  graph : Option Graph := none
  ver : Nat := 0
  load : Option GraphLoad := none
  /-- Patches in flight, in submission order (R182). -/
  patches : List Patch := []
  resv : List Resv := []
  /-- The hot cache (R180): the segments whose check views it holds, the last used first. -/
  cache : List Nat := []
  /-- The pairs of robots in conflict at the last planning epoch (R193). -/
  clashes : List (Nat × Nat) := []
  /-- A patch applied at a slotframe boundary whose planning epoch is still to request the full re-plan (R202). -/
  replanDue : Bool := false
  robots : Tab TrlRobot := []
  pendingFp : List Footprint := []
  /-- The full re-plan waits for leave, or its leave runs. -/
  replanAsked : Bool := false
  replanGranted : Bool := false
  high : Bool := false
  /-- Boundary of the last planning epoch, whether its hand-off is still to come, and whether its work is unfinished. -/
  epoch : NT := 0
  handOffDue : Bool := false
  unfinished : Bool := false
  taskChange : Bool := false
deriving DecidableEq, Repr

/-! ### Tasks -/

/-- Task states (R211), in the order of their codes. -/
inductive TaskState where
  | empty | open_ | pending | held | orphaned | done | withdrawn
deriving DecidableEq, Repr

/-- The code of a task state. -/
def TaskState.code : TaskState → Nat
  | .empty => 0 | .open_ => 1 | .pending => 2 | .held => 3 | .orphaned => 4 | .done => 5 | .withdrawn => 6

/-- A work span (R209). -/
structure Span where
  lo : Nat
  hi : Nat
  code : Nat
  vWork : Nat
deriving DecidableEq, Repr

/-- A holder generation (R244). -/
structure Gen where
  slot : Nat
  current : Bool := true
  late : Bool := false
  endedDead : Bool := false
  epoch : Nat
  s : Nat
  m : Nat
  credit : Nat := 0
deriving DecidableEq, Repr

/-- A task (R209-R214). `was` is the state a PENDING task came from. -/
structure Task where
  st : TaskState := .empty
  was : TaskState := .empty
  prio : Nat := 0
  mask : Nat := 0
  hops : List (Nat × Bool) := []
  spans : List Span := []
  v : Nat := 0
  a : Nat := 0
  j : Nat := 0
  start : Nat := 0
  ref : Nat := 0
  tver : Nat := 0
  holder : Option Nat := none
  pin : Option Nat := none
  forbid : List Nat := []
  gens : List Gen := []
deriving DecidableEq, Repr

/-! ### Transactions -/

/-- An action of a transaction (R222); `bad` is one whose encoding breaks it. -/
inductive Action where
  | reserve (seg robot w lo hi tin tout : Nat) (openEnd : Bool)
  | release (seg robot tfrom tto : Nat)
  | taskSet (task robot state start : Nat)
  | setpoint (loop : Nat) (value : Int) (rate : Nat)
  | loopMode (loop op set steer blend : Nat)
  | frame (dest lanes addr len : Nat)
  | benchEntry (addr value mask : Nat)
  | axisMove (axis : Nat) (p : List Byte)
  | bad
deriving DecidableEq, Repr

/-- A record of an offer (R231): kind, and its fields as the 12 octets from octet 4 on; `loop` and `task` for R234. -/
structure ORec where
  kind : Nat
  key : Nat
  a : Nat := 0
  b : Nat := 0
  c : Nat := 0
  d : Nat := 0
deriving DecidableEq, Repr

/-- A participant (R221, R234, R235): its records, what it has done, and when the next re-offer is due. -/
structure Part where
  slot : Nat
  epoch : Nat
  recs : List ORec
  confirmed : Bool := false
  ended : Bool := false
  reofferAt : Option NT := none
  reofferApply : Option NT := none
  unsyncedAt : Option NT := none
  reoffered : Bool := false
deriving DecidableEq, Repr

/-- Phases of a transaction: waiting to be validated, validated (staged), offered, past its cut-off and listed, past it
and off the list, committed, applied. -/
inductive TxPhase where
  | waiting | staged | offered | listed | failed | committed | applied
deriving DecidableEq, Repr

/-- A task change that a transaction makes at its apply time (R208, R222): task, new state code, new holder, start mark, route,
approach length, whether it opens a generation. -/
structure TaskChange where
  task : Nat
  state : Nat
  robot : Nat
  start : Nat
  approach : Int := 0
  hops : List (Nat × Bool) := []
  /-- The steps in which the robot comes to rest on the new route (R276). -/
  stop : List PlanStep := []
  /-- Where it then still has to drive back to (R275). -/
  back : Option Int := none
deriving DecidableEq, Repr

/-- A transaction in flight. `host` counts it against the 256 of R224; `step` marks the step transaction; `done` the
command it answers (with `doneAt`); `stopSafe` by R223; `overs` the robots whose overshoot was refused (R276). -/
structure Txn where
  id : Nat := 0
  handle : Option Nat := none
  doneAt : Bool := true
  host : Bool := false
  step : Bool := false
  round : Bool := false
  phase : TxPhase := .waiting
  acts : List Action := []
  payloads : List (List Byte) := []
  graft : Bool := false
  fromLast : Bool := false
  applyAt : Option NT := none
  cNt : NT := 0
  parts : List Part := []
  tasks : List TaskChange := []
  stopSafe : Bool := false
  grants : List (Nat × Option Int) := []
  overs : List Nat := []
  behind : List Nat := []
  stuck : List Nat := []
  /-- The transaction of an `AXIS_MOVE` command, which completes when its move ends (R300). -/
  move : Bool := false
  received : NT := 0
  /-- Commands merged into its round (R218). -/
  also : List Nat := []
deriving DecidableEq, Repr

/-- A commit list (R229): its beacon and the ids in order. -/
structure CommitList where
  c : NT
  ids : List Nat
deriving DecidableEq, Repr

/-- An assignment of a round (R217), with its cost. -/
structure Assign where
  task : Nat
  slot : Nat
  cost : Nat
  prio : Nat
  pinned : Bool := false
deriving DecidableEq, Repr

/-- An allotment round that runs (R217, R218): the commands it answers, whether it is automatic, its cost table as (task, slot,
cost), and the assignments before the swaps. -/
structure Round where
  handles : List Nat
  auto : Bool
  startAt : NT
  costs : List (Nat × Nat × Nat)
  pairs : List Assign
deriving DecidableEq, Repr

/-- The transaction and task unit (R208-R249). -/
structure Txu where
  leases : Tab Lease := []
  tasks : Tab Task := []
  txns : List Txn := []
  nextId : Nat := 1
  /-- Lists given to Rootstock for a beacon to come. -/
  lists : List CommitList := []
  round : Option Round := none
  /-- The last `CFG_VER` given (R331, R332). -/
  lastCfg : Nat := 0
deriving DecidableEq, Repr

/-! ### Control loops and profiles -/

/-- Loop states (R259), in the order of their codes. -/
inductive LoopState where
  | open_ | closed | handover | held
deriving DecidableEq, Repr

/-- The code of a loop state. -/
def LoopState.code : LoopState → Nat
  | .open_ => 0 | .closed => 1 | .handover => 2 | .held => 3

/-- A loop slot (R250-R263). Reals are IEEE 754 binary32 bit patterns. `from_` is the state a HELD slot came from; `ref`, `rate` and `refNow`
the reference of R261, its rate and where the ramp stands, in tenths of its unit; `lastRec` the last set-point sent. -/
structure LoopSlot where
  st : LoopState := .open_
  from_ : LoopState := .open_
  i : Nat := 0
  d : Nat := 0
  ePrev : Nat := 0
  u : Nat := 0
  ff : Nat := 0
  steer : Bool := false
  want : Bool := false
  sat : Bool := false
  misses : Nat := 0
  ref : Int := 0
  rate : Nat := 1
  refNow : Int := 0
  /-- The transaction of the handover in progress, and the mode it goes to (R269). -/
  hoTxn : Nat := 0
deriving DecidableEq, Repr

/-- A set-point sent to a robot (R265). -/
structure SetPt where
  t : NT
  v : Int
  k : Int
deriving DecidableEq, Repr

/-- The marks of a robot's latest target (R284). -/
structure PrfRobot where
  behind : Bool := false
  refused : Bool := false
deriving DecidableEq, Repr

/-- The control engine and the profile generator (R250-R284). -/
structure Ctl where
  loops : Tab LoopSlot := []
  margin : Nat := 0xFFFF
  sent : Tab (List SetPt) := []
  prf : Tab PrfRobot := []
  /-- NT from which the set-points of a robot have been zero (R165). -/
  zeroSince : Tab NT := []
deriving DecidableEq, Repr

/-! ### Fleet RTK -/

/-- Filter slot states (R150), in the order of their codes. -/
inductive FrkState where
  | empty | waiting | running | frozen
deriving DecidableEq, Repr

/-- The code of a filter slot state. -/
def FrkState.code : FrkState → Nat
  | .empty => 0 | .waiting => 1 | .running => 2 | .frozen => 3

/-- A position record (R159). -/
structure PosRec where
  slot : Nat
  pub : Nat
  comp : Nat
  snapPos : Bool
  skipped : Bool
  epoch : Nat
  nsat : Nat
  nfix : Nat
  namb : Nat
  ratio : Nat
  tObs : NT
  e : Int
  n : Int
  u : Int
  ve : Int
  vn : Int
  vu : Int
  sdE : Nat
  sdN : Nat
  sdU : Nat
  prot : Nat
  baseSeq : Nat
  noPos : Bool
  part : Bool
  reinit : Bool
  latency : Nat
  x : Int
  y : Int
  z : Int
  tPub : NT
deriving DecidableEq, Repr

/-- A signal of a satellite: system, satellite number, signal ID. -/
abbrev SigKey := Nat × Nat × Nat

/-- A cell of a `RAW_OBS` frame (R147): its signal, whether the half cycle is unresolved, C/N0 in dB-Hz (20 and 51 stand for what lies
beyond them), `LOCK_ID`, and pseudorange and phase-range in 2^-27 ms where they are valid. -/
structure RawCell where
  key : SigKey
  half : Bool
  cn0 : Nat
  lock : Nat
  pr : Option Int
  cp : Option Int
deriving DecidableEq, Repr

/-- A base record that passed R88 (R149, R152): its signal, pseudorange in 0.1 mm, carrier phase in 2^-24 cycle, elevation and azimuth
of its satellite in thousandths of a degree, and Doppler in mHz. -/
structure BaseCell where
  key : SigKey
  pr : Nat
  cp : Int
  elev : Int
  az : Int
  dop : Int
deriving DecidableEq, Repr

/-- A double-difference ambiguity (R152): signal ID, satellite, reference satellite. -/
structure AmbId where
  sig : Nat
  sat : Nat × Nat
  ref : Nat × Nat
deriving DecidableEq, Repr

/-- The float state of a filter (R153): baseline in um and velocity in um/s, ECEF; the ambiguities in 2^-20 cycle; and the covariance
of all of them, in this order, in products of these units. -/
structure FltState where
  pos : Int × Int × Int
  vel : Int × Int × Int
  ambs : List (AmbId × Int)
  cov : List (List Int)
deriving DecidableEq, Repr, Inhabited

/-- A double difference (R152): code and carrier in um where both sides are valid, corrected; the line of sight of the satellite less
that of the reference, ECEF in 2^-40; and the standard deviations of code and carrier of the two, um. -/
structure DDiff where
  id : AmbId
  code : Option Int
  car : Option Int
  dir : Int × Int × Int
  sdCode : Nat × Nat
  sdCar : Nat × Nat
deriving DecidableEq, Repr

/-- Fixed ambiguities (R154) of one signal ID: satellites whose ambiguities differ by the whole numbers that stand beside them. -/
abbrev FixSet := List (SigKey × Int)

/-- What a float update takes (R153): the state carried over, if any, and the ticks since its epoch; the acceleration noises in mm/s²;
the double differences; and the fixes held as constraints. -/
structure FltIn where
  prior : Option FltState
  dt : Nat
  accH : Nat
  accV : Nat
  dds : List DDiff
  held : List FixSet
deriving DecidableEq, Repr

/-- The filter of a slot (R153, R154): its float state, its fixes, `LOCK_ID` of each signal whose carrier the last processed epoch used,
the last accepted ratio, and `T_OBS` of that epoch. -/
structure Filt where
  flt : Option FltState := none
  fixes : List FixSet := []
  locks : List (SigKey × Nat) := []
  ratio : Nat := 0
  lastProc : Option NT := none
deriving DecidableEq, Repr

/-- An accepted epoch waiting for an engine, or in service on one (R152, R163), with the robot's cells and the base records of its grid
instant; `five` when 5 of its satellites share a signal with the base (R150); `late` once it has waited 1.00 ms (R165). `kept` is the
filter a full reset found it in service with: it ends with that one, and leaves nothing to the slot. -/
structure FrkEpoch where
  slot : Nat
  tObs : NT
  rx : NT
  at_ : NT
  odo : Int
  eng : Option Nat := none
  five : Bool := false
  late : Bool := false
  grid : NT := 0
  cells : List RawCell := []
  base : List BaseCell := []
  baseSeq : Nat := 0
  basePos : Int × Int × Int := (0, 0, 0)
  kept : Option Filt := none
deriving DecidableEq, Repr

/-- A rover profile (R151). `mask` none = `GNS_SIG_EN`. -/
structure RoverProfile where
  antH : Nat := 0
  accH : Nat := 1000
  accV : Nat := 200
  mask : Option Nat := none
  fixMode : Nat := 1
deriving DecidableEq, Repr

/-- A reset being waited on (R167). -/
structure RtkReset where
  handle : Nat
  scope : Nat
  wait : Nat
  until_ : NT
  nextProg : NT
  applied : Bool := false
deriving DecidableEq, Repr

/-- A large search of a slot (R156): asked, granted, running on an engine, found. -/
inductive Search where
  | none_ | asked | granted | running (eng : Nat) (since : NT) (dropped : Bool) | found
deriving DecidableEq, Repr

/-- A large search's float state, the signals whose continuity has held since, and the two best results once found: for each ambiguity
the integer of the best and of the second-best vector (R156). -/
structure Hunt where
  flt : FltState
  ids : List AmbId
  keys : List SigKey
  found : List (AmbId × Int × Int) := []
deriving DecidableEq, Repr

/-- A filter slot (R145, R151-R168). -/
structure FrkSlot where
  st : FrkState := .empty
  prof : RoverProfile := {}
  /-- A profile stored for the next admission (R151). -/
  profNext : Option RoverProfile := none
  newest : Option NT := none
  rec_ : Option PosRec := none
  /-- The latest record with a position, and the latest that was published while the receiver was not SUSPECT (R131). -/
  pos : Option PosRec := none
  aid : Option PosRec := none
  skipped : Bool := false
  /-- The slot's previous epoch was processed (R165). -/
  prevDone : Bool := false
  /-- The lease has ended while an epoch is in service; the slot is FROZEN once that one is done (R168). -/
  freezing : Bool := false
  filt : Filt := {}
  odoRun : Nat := 0
  reset : Option RtkReset := none
  search : Search := .none_
  hunt : Option Hunt := none
  noLeaveAt : Option NT := none
  /-- The last 64 `RAW_OBS` sets (R132), newest first. -/
  obs : List (NT × List RawCell) := []
  /-- Square of the horizontal speed of the last FIXED record, mm²/s² (R170). -/
  fixSpeed2 : Nat := 0
deriving DecidableEq, Repr

/-- The fleet RTK array (R145-R172). -/
structure Frk where
  slots : Tab FrkSlot := []
  queue : List FrkEpoch := []
  retired : List Nat := []
  overload : Bool := false
  /-- NT of the latest wait above 0.50 ms. -/
  lastWait : NT := 0
  /-- Records since the last message of the position buffer (R161). -/
  posSince : Nat := 0
deriving DecidableEq, Repr

/-! ### Snapshots -/

/-- Where a snapshot came from (R129-R139): a robot, the local check of R120, a host command with its index. -/
inductive SnapFrom where
  | robot (slot epoch : Nat)
  | local_
  | host (handle idx : Nat)
deriving DecidableEq, Repr

/-- A snapshot being assembled (R130). -/
structure SnapAsm where
  slot : Nat
  epoch : Nat
  id : Nat
  t0 : NT
  cold : Bool
  requested : Bool
  first : NT
  pieces : List (Nat × List Byte)
deriving DecidableEq, Repr

/-- A complete snapshot (R127, R130, R137, R139): its time and the bound on its error in us, `FC_OFS` in 10 Hz, its 1,023 octets of
samples, whether the search is aided, and an aid position that came with it (ECEF, 0.1 mm). -/
structure Snap where
  src : SnapFrom
  t0 : NT
  units : Nat
  tUnc : Nat
  fcOfs : Int
  bits : List Byte
  aided : Bool
  aid : Option (Int × Int × Int)
deriving DecidableEq, Repr

/-- A correlation peak of a snapshot (R131): code delay in ps below the code period, Doppler in Hz, and level in 0.01 dB. -/
structure Peak where
  delay : Nat
  dop : Int
  level : Int
deriving DecidableEq, Repr

/-- What waits for capacity (R136): the recheck of a SUSPECT receiver, a snapshot that the device or the host has taken, an audit. -/
inductive Demand where
  | recheck (slot : Nat) | snap (x : Snap) | audit (slot : Nat)
deriving DecidableEq, Repr

/-- A batch (R137): open until it closes; then it asks leave; then it runs. -/
structure Batch where
  id : Nat
  opened : NT
  snaps : List Snap
  closed : Bool := false
  running : Bool := false
deriving DecidableEq, Repr

/-- A pending submission (R139, R140). -/
structure SnapCmd where
  handle : Nat
  mode : Nat
  robot : Nat
  count : Nat
  tStart : NT
  taken : Nat := 0
  results : Nat := 0
  noLeave : Nat := 0
deriving DecidableEq, Repr

/-- A snapshot position (R133): its NT, the site-frame position in mm and the ECEF one in 0.1 mm. -/
structure SnapPos where
  t : NT
  e : Int
  n : Int
  u : Int
  x : Int
  y : Int
  z : Int
deriving DecidableEq, Repr

/-- The receiver state of a robot (R134): 0 UNCHECKED, 1 TRUSTED, 2 SUSPECT; `result` is how its last snapshot ended, in the codes of
R140. -/
structure Rover where
  rx : Nat := 0
  verdict : Nat := 0
  run : Nat := 0
  at_ : Option NT := none
  asked : Option NT := none
  wantSnap : Bool := false
  audited : Option NT := none
  pos : Option SnapPos := none
  result : Option Nat := none
deriving DecidableEq, Repr

/-- The snapshot service (R127-R144). -/
structure Snp where
  rovers : Tab Rover := []
  asm_ : List SnapAsm := []
  batches : List Batch := []
  cmds : List SnapCmd := []
  /-- Units asked for, with the NT of each (R136). -/
  asked : List (NT × Nat) := []
  demand : List Demand := []
  nextAudit : Nat := 0
  nextBatch : Nat := 0
  localAt : Option NT := none
  localPend : Bool := false
  localVerdict : Nat := 0
deriving DecidableEq, Repr

/-- A route entry (R332): hops are (`NODE`, `DL_SLOT`, `UL_SLOT`). -/
structure RouteEnt where
  dest : Nat
  nhops : Nat
  sleepy : Bool
  rebcast : Bool
  lane : Nat
  drift : Nat
  sleepN : Nat
  phase : Nat
  wake : Nat
  hops : List (Nat × Nat × Nat)
deriving DecidableEq, Repr

/-- A slot's last position record with the integers fixed in it and their `LOCK_ID`s (R502). -/
structure MirrorPos where
  rec_ : PosRec
  fixes : List FixSet
  locks : List (SigKey × Nat)
deriving DecidableEq, Repr

/-- What a frame of the pair link carries of the active unit's state (R501, R502): the parts that changed. -/
structure MirrorDelta where
  regs   : List (Nat × Nat) := []
  graph  : Option (Nat × Option Graph) := none
  leases : List (Nat × Lease) := []
  resv   : Option (List Resv) := none
  tasks  : List (Nat × Task) := []
  txns   : Option (List Txn × List CommitList) := none
  routes : Option (List RouteEnt) := none
  loops  : List (Nat × LoopSlot) := []
  sent   : List (Nat × List SetPt) := []
  patches : Option (List Patch) := none
  pos    : List MirrorPos := []
  fcnt   : Option Nat := none
  rovers : List (Nat × Rover) := []
deriving DecidableEq, Repr

end Sys2Proof.Machine
end

