-- ==== Sys2Proof/Syntax.lean ====
section
/-! DEFINITION. The commands of the block, one constructor per row of spec/opcode_table.json, and the types of their
operands. The block takes two kinds of command: operations of the host (a register write, a command of a ring) and
events (an edge, a frame, an instant that falls due). Conventions of the operands (log entries 2 and 3):
`dt` is the number of TIME cycles (R43, 4 ns) since the previous command took place; a row whose instant the device
itself fixes (a slot boundary, a deadline) has none, and moves the clock there. `h` is the handle (R376) of the live
ring command whose work the row is. `v` is the word written. `none` for a buffer stands for a PCI Express error (R370). -/
namespace Sys2Proof

/-- What is found when the ROM boots (R460, R461, R475, R476, R512): the images, as (subsystem, bank), that fail
verification, the diary regions that pass their test, the codes whose record fails its CRC at load, the DRAM ranks that train,
how many there are (1 or 2), the blocks each holds, and those of each that the device uses. -/
structure BootFacts where
  badImages : List (Nat × Nat) := []
  region0   : Bool := true
  region1   : Bool := true
  badRecs   : List Nat := []
  rank0     : Bool := true
  rank1     : Bool := true
  ranks     : Nat := 2
  blocks    : Nat := 28
  used0     : Nat := 0
  used1     : Nat := 0
deriving DecidableEq, Repr

/-- The supply groups whose excursions are distinguished (R431, R518). -/
inductive Rail where
  | core | saf | other
deriving DecidableEq, Repr

/-- The PLLs whose loss of lock is a fault source (R431). -/
inductive PllName where
  | core | corr | dram
deriving DecidableEq, Repr

/-- What a pair-link frame says of the partner (R500, R504), with the level of `PAIR_TOKEN_IN` and
whether `PAIR_ALIVE_IN` toggles. -/
structure PartnerFacts where
  big       : Bool := true
  stepping  : Nat := 0xA1
  unit      : Nat := 1
  pos       : Int × Int × Int := (0, 0, 0)
  baseSeq   : Nat := 0
  refAnt    : Nat := 0
  originSel : Nat := 0
  role      : Nat := 0
  timeReady : Bool := false
  token     : Bool := false
  alive     : Bool := true
deriving DecidableEq, Repr

/-- A queue word (R347) that holds data: `VALID` is 1. -/
structure QWord where
  data : Nat
  sop : Bool
  eop : Bool
  err : Bool := false
  type_ : Nat := 0
deriving DecidableEq, Repr

/-- A satellite in view of the base (R75-R78): its system and number, its elevation and azimuth in thousandths of a degree, whether
it has valid ephemeris and is healthy, and the signals it transmits. -/
structure SkySv where
  sys  : Nat
  svid : Nat
  elev : Int
  az   : Int := 0
  ok   : Bool
  sigs : List Nat
deriving DecidableEq, Repr

/-- What a tracking channel measures at an epoch (R86), before any correction the device makes; `twin` is the carrier phase of its
counterpart in the group under calibration, at the epoch of a swap (R79). -/
structure Meas where
  ant  : Nat
  sys  : Nat
  svid : Nat
  sig  : Nat
  half : Bool := true
  slip : Bool := false
  prOk : Bool := true
  cpOk : Bool := true
  pr   : Nat
  cp   : Int
  dop  : Int
  cn0  : Nat
  twin : Option Int := none
deriving DecidableEq, Repr

/-- The GPS-UTC offset of the navigation data (R39): present and next offset in s, whether a leap second is pending, and its GPS second. -/
structure UtcFacts where
  cur : Nat
  next : Nat
  pending : Bool
  at_ : Nat
deriving DecidableEq, Repr

/-- The clock term of a system in the single-point solution (R119): its satellites, the term in ns, and the offset to GPS in ns that
its navigation data broadcast, where decoded. -/
structure ClockTerm where
  sys : Nat
  nsat : Nat
  ns : Int
  cast : Option Int := none
deriving DecidableEq, Repr

/-- What the signals give the engine at an epoch (R84, R115-R119): the sky, the channels' measurements, the clock solution,
each port's noise floor (0.01 dB), the clock term of each system solved, the live position with its satellites, the fixed A-B
baseline, the GPS-UTC offset where a source decoded one at this epoch, the samples each port in use gives in the time of an automatic
capture and those a host capture took before it is cut short, in port order, and a PCI Express error of the stream's buffers. -/
structure SkyFacts where
  svs    : List SkySv := []
  meas   : List Meas := []
  bias   : Int := 0
  drift  : Int := 0
  ports  : List Int := []
  clocks : List ClockTerm := []
  live   : Option (Int × Int × Int) := none
  liveN  : Nat := 0
  base   : Option (Int × Int × Int) := none
  utc    : Option UtcFacts := none
  samples : List (List Byte) := []
  cut    : List (List Byte) := []
  werr   : Bool := false
deriving DecidableEq, Repr

/-- A satellite as the decoded navigation data place it at a snapshot's `T0` (R131): its signal of R127, position and velocity (ECEF,
0.1 mm and 0.1 mm/s), and clock in ps. -/
structure SnapSat where
  sig  : Nat
  svid : Nat
  pos  : Int × Int × Int
  vel  : Int × Int × Int := (0, 0, 0)
  clk  : Int := 0
deriving DecidableEq, Repr

/-- What a snapshot is judged with (R120, R131): the satellites, and for a local snapshot the pseudoranges in 0.1 mm that the tracking
channels of `REF_ANT` measure at its `T0`, by signal ID and satellite. -/
structure SnapFacts where
  sats  : List SnapSat := []
  chans : List (Nat × Nat × Nat) := []
deriving DecidableEq, Repr

/-- The commands and events of the block (opcode_table.json): one constructor per row, in the table's order. -/
inductive Instr where
  /-- POWER_ON (R26). Power is applied and the device enters BOOT with NT at 0 and both stop latches set. -/
  | powerOn (safFirst : Bool)
  /-- RST_N_ASSERT (R522). RST_N is held low for long enough, and every domain except AON is reset once any running power-fail writes have ended. -/
  | rstNAssert (dt lowNs : Nat)
  /-- RST_N_RELEASE (R475). RST_N is released or power is good, and the ROM starts the boot sequence. -/
  | rstNRelease (dt : Nat) (boot : BootFacts)
  /-- BOOT_END (R475). Boot completes, READY is set, the first beacon is sent and the device enters FLEET_STOP, STANDBY or SAFE. -/
  | bootEnd (dt : Nat)
  /-- SLOT_BOUNDARY (R21). At every 2 ms slot boundary the device judges lease timers and Rootstock judges its lease mirror. -/
  | slotBoundary
  /-- WHOLE_NT_SECOND (R49). At each whole NT second the time unit judges source loss and the holdover model. -/
  | wholeNtSecond (dac : Int)
  /-- TIME_MEASUREMENT (R49). A source offset measurement arrives and the time state machine is judged. -/
  | timeMeasurement (dt src : Nat) (offset : Int)
  /-- LOSS_TIME_EXPIRY (R49). No valid measurement arrives for LOSS_TIME, and the unit enters HOLDOVER or FREE_RUN. -/
  | lossTimeExpiry
  /-- REF_IN_LOSS (R46). REF_IN stops or drifts beyond 100 ppm, the TIME PLL holds, GNSS tracking stops and source 0x04 rises. -/
  | refInLoss (dt : Nat)
  /-- REF_IN_RETURN (R46). REF_IN returns, the PLL relocks and source 0x04 falls. -/
  | refInReturn (dt : Nat)
  /-- TIME_STEP (R54). At boundary S an accepted jump or an initial set steps NT by delta and shifts all held times. -/
  | timeStep
  /-- PPS_IN_EDGE (R47). A labelled PPS_IN edge yields a source measurement and a capture. -/
  | ppsInEdge (dt sub : Nat) (rising : Bool)
  /-- LEAP_SECOND (R39). The GPS-UTC offset in TIM_UTC takes its next value at TIM_LEAP_SEC. -/
  | leapSecond
  /-- TDC_RECALIBRATION (R44). Every 10 minutes one TDC unit is recalibrated while the spare stands in for it. -/
  | tdcRecalibration (ok : Bool)
  /-- TDC_COLD_CAL_DONE (R44). The cold-start calibration of all TDC units completes and TDC_CAL becomes 1. -/
  | tdcColdCalDone (dt : Nat)
  /-- PPS_PULSE (R56). PPS_OUT pulses at each period multiple plus the phase. -/
  | ppsPulse
  /-- PPS_EN_WRITE (R58). A write of 1 to TIM_PPS_CTRL.EN enables the pulse until reset. -/
  | ppsEnWrite (dt : Nat) (v : Reg)
  /-- PPS_CHANGE (R58). A pulse change takes effect at the first whole second at least 10 ms ahead, and TIME_SET_PPS completes. -/
  | ppsChange
  /-- TIME_CAPTURE_EDGE (R62). An edge on a capture input is timestamped, stored and, if the input is armed, reported. -/
  | timeCaptureEdge (dt input sub : Nat) (rising : Bool)
  /-- CAPTURE_START (R60). An armed capture window begins at T_START. -/
  | captureStart (input : Nat)
  /-- CAPTURE_END (R60). T_END passes, and the armed capture completes with DONE. -/
  | captureEnd (input : Nat)
  /-- TIM_CAPN_LO_READ (R62). A read of TIM_CAPn_LO latches _HI and _STAT of the same edge. -/
  | timCapnLoRead (n : Nat)
  /-- TIM_NT_LO_READ (R66). A read of TIM_NT_LO latches TIM_NT_HI. -/
  | timNtLoRead
  /-- BAR4_NT_READ (R389). A read of BAR4 offset 0 latches the high NT word. -/
  | bar4NtRead
  /-- OUTPUT_ARM (R63). A write of ARM arms a timed output, or sets LATE when T is less than 10 us away. -/
  | outputArm (dt n : Nat) (v : Reg)
  /-- OUTPUT_CANCEL (R63). A write of CANCEL disarms a timed output. -/
  | outputCancel (dt n : Nat) (v : Reg)
  /-- TIMED_OUTPUT_FIRE (R63). A timed output fires at its launch time and sets FIRED. -/
  | timedOutputFire (n : Nat)
  /-- SP_CLK_LOSS (R73). No SPn_CLK edge arrives for 1 us, CLK_OK clears, the port's channels drop and source 0x40 rises. -/
  | spClkLoss (dt p : Nat)
  /-- SP_CLK_RETURN (R73). SPn_CLK returns, and the port's channels restart with lock times at 0. -/
  | spClkReturn (dt p : Nat)
  /-- SP_CLK_CHECK (R72). Each sample clock is measured against TIME once per second, and COHERENT is updated. -/
  | spClkCheck (dt p : Nat) (ppb : Int) (toggled : Bool) (hist : List (Byte × Nat))
  /-- SP_STUCK (R73). A data bit of a port stays constant for 1 s, STUCK is set and source 0x42 rises. -/
  | spStuck (dt p : Nat)
  /-- FE_SPI_GO (R74). A write of GO in GNS_FE_CTRL starts a front-end SPI transfer. -/
  | feSpiGo (dt : Nat) (v : Reg)
  /-- FE_SPI_DONE (R74). A front-end SPI transfer ends and BUSY clears with the data in. -/
  | feSpiDone (dt : Nat) (v : Reg)
  /-- FE_SPI_TIMEOUT (R106). An FE_MISO transfer times out, and source 0x48 rises. -/
  | feSpiTimeout (dt : Nat)
  /-- GNSS_EPOCH (R84). At each epoch boundary the engine assigns channels and publishes the epoch's observables and outputs. -/
  | gnssEpoch (f : SkyFacts)
  /-- CALIBRATION_DUE (R79). INTERVAL passes, and the next group's calibration asks leave in the BIST class. -/
  | calibrationDue
  /-- CAL_NOW (R111). A write of CAL_NOW requests the calibration of the named group, or is ignored and counted in SKIPS. -/
  | calNow (dt : Nat) (v : Reg)
  /-- CALIBRATION_DONE (R79). The group's delay measurement ends, the results are applied, the group becomes the spare and the leave is returned. -/
  | calibrationDone (dt : Nat) (res : List (Int × Int))
  /-- GRP_RETIRE (R111). A write of RETIRE retires the named group under R80 and R81. -/
  | grpRetire (dt : Nat) (v : Reg)
  /-- CORRELATOR_PARITY_ERROR (R80). A correlator parity error retires its group and the spare takes over. -/
  | correlatorParityError (dt g : Nat)
  /-- CORR_RELOCK (R83). The CORR PLL relocks, and the channels reacquire with a GAP epoch. -/
  | corrRelock (dt : Nat)
  /-- SURVEY_PROGRESS (R92). Every 10 s a survey reports its running mean and deviation. -/
  | surveyProgress (werr : Bool)
  /-- SURVEY_TIMEOUT (R92). MAX_TIME passes before the survey converges, and it completes GNSS_SURVEY_TIMEOUT. -/
  | surveyTimeout
  /-- RAW_CAPTURE_START (R105). A raw capture begins at T_START. -/
  | rawCaptureStart
  /-- RAW_CAPTURE_DONE (R105). A raw capture reaches its duration and completes. -/
  | rawCaptureDone (samples : List (List Byte)) (werr : Bool)
  /-- LOCAL_SNAPSHOT (R120). Every 10 s while the station is SUSPECT a local snapshot of the G1 port is taken. -/
  | localSnapshot (samples : List Byte)
  /-- SNAPSHOT_PIECE (R130). A SNAPSHOT_PIECE frame is assembled into its snapshot. -/
  | snapshotPiece (dt : Nat)
  /-- SNAPSHOT_INCOMPLETE (R130). A snapshot not complete 1 s after its first piece is discarded and counted. -/
  | snapshotIncomplete
  /-- BATCH_CLOSE (R137). BATCH_WAIT passes, the batch closes and asks leave in the SNP class. -/
  | batchClose
  /-- SNAPSHOT_RESULT (R132). The correlation of a snapshot ends with a position and a verdict. -/
  | snapshotResult (dt : Nat) (f : SnapFacts) (werr : Bool)
  /-- AUDIT_REQUEST (R135). The audit period passes, and the next ACTIVE robot is asked for a snapshot. -/
  | auditRequest
  /-- RECHECK_REQUEST (R134). RECHECK_PERIOD passes for a SUSPECT receiver, and a snapshot is requested. -/
  | recheckRequest (rb : Nat)
  /-- RAW_OBS (R149). A RAW_OBS frame is accepted or discarded, and an accepted frame is queued for an engine. -/
  | rawObs (dt : Nat)
  /-- ENGINE_DISPATCH (R163). A free engine takes a queued rover epoch. -/
  | engineDispatch (dt : Nat)
  /-- POSITION_RECORD (R161). An engine finishes an epoch, and its position record is delivered to control, the Trellis and the host. -/
  | positionRecord (dt eng : Nat)
  /-- EPOCH_SKIP (R165). An epoch waits 1.00 ms for an engine, the array enters overload and skips one queued epoch. -/
  | epochSkip
  /-- OVERLOAD_END (R165). No epoch waits more than 0.50 ms for 10 s, and overload ends. -/
  | overloadEnd
  /-- LARGE_SEARCH_DONE (R156). A large search ends, and its result waits for the slot's next epoch. -/
  | largeSearchDone (dt eng : Nat)
  /-- LARGE_SEARCH_ABANDON (R156). A large search runs longer than LARGE_MS and is abandoned. -/
  | largeSearchAbandon (eng : Nat)
  /-- ENGINE_FAULT (R166). An uncorrectable ECC error or a lockstep mismatch retires an engine and raises source 0x50. -/
  | engineFault (dt eng : Nat)
  /-- FRK_RETIRE (R171). A write of RETIRE in FRK_ENG_CTRL retires an engine. -/
  | frkRetire (dt : Nat) (v : Reg)
  /-- RTK_RESET_PROGRESS (R167). Each second a waiting reset reports the published grade and PROT. -/
  | rtkResetProgress (rb : Nat)
  /-- RTK_RESET_TIMEOUT (R167). TIMEOUT passes, and the reset completes RTK_CONVERGE_TIMEOUT. -/
  | rtkResetTimeout (rb : Nat)
  /-- PLANNING_EPOCH (R194). At each slotframe boundary the Trellis renders envelopes, judges clashes, re-plans and extends the run-ahead. -/
  | planningEpoch (work : Nat) (served : Option Nat) (late : Bool)
  /-- HAND_OFF (R197). At B + 60 ms the planner hands steps within FIRM_H to the transaction and task unit. -/
  | handOff
  /-- PLAN_DEADLINE (R194). Work unfinished at B + 95 ms is abandoned, and source 0x63 rises. -/
  | planDeadline
  /-- GRAPH_LOAD_DONE (R181). A graph load finishes its checks and replaces the graph, or completes with an error. -/
  | graphLoadDone (dt : Nat)
  /-- PATCH_VALIDATION_END (R184). Patch validation ends, and the affected segments are marked pending. -/
  | patchValidationEnd (dt : Nat)
  /-- PATCH_APPLY (R184). At APPLY_AT the patch is applied or aborted. -/
  | patchApply
  /-- REPORT (R21). A REPORT block is taken in for lease, task, transaction and handover purposes. -/
  | report (dt : Nat)
  /-- LEASE_SUSPECT (R22). Age passes three report intervals, and the lease becomes SUSPECT with its entries frozen FIRM. -/
  | leaseSuspect (rb : Nat)
  /-- LEASE_DEAD (R23). Age passes LEASE_TIMEOUT, the lease becomes DEAD and directed stops are sent. -/
  | leaseDead (rb : Nat)
  /-- T_STOPPED (R23). At t_stopped a DEAD robot's reservations are replaced by its standing footprint. -/
  | tStopped (rb : Nat)
  /-- ADMIT_TIMEOUT (R21). An admission does not reach ACTIVE in time, and the lease is RELEASED with PARKED set. -/
  | admitTimeout (rb : Nat)
  /-- ZOMBIE_SILENCE (R21). No frame under the old epoch arrives for LEASE_TIMEOUT, and the lease returns to its earlier state. -/
  | zombieSilence (rb : Nat)
  /-- ADMIT_OFFER_REPEAT (R331). Every 500 ms during ADMITTING the ADMIT OFFER is repeated. -/
  | admitOfferRepeat (rb : Nat)
  /-- CONFIRM_REPEAT (R331). Every 200 ms the CONFIRM is repeated until a report shows CFG_VER. -/
  | confirmRepeat (rb : Nat)
  /-- CLAIM (R331). An ADMIT CLAIM in a join slot is reported to the host as an EVENT. -/
  | claim (dt : Nat)
  /-- CFG_ACK (R331). A CFG_ACK confirms a node's configuration version. -/
  | cfgAck (dt : Nat)
  /-- TXN_VALIDATION_END (R225). A transaction's validation ends, it takes an id, and its entries are staged. -/
  | txnValidationEnd (dt : Nat) (payloads : List (Option (List Byte)))
  /-- OFFER_DEADLINE (R228). C - OFFER_LEAD passes without a queued OFFER, and the transaction aborts ABORTED_DEADLINE. -/
  | offerDeadline
  /-- CUT_OFF (R228). At the cut-off the staged entries are re-checked, and the commit list is handed to Rootstock. -/
  | cutOff (late : Bool)
  /-- TXN_APPLY (R226). At T_APPLY the committed effects take place in the device. -/
  | txnApply
  /-- REOFFER (R235). An unconfirmed participant is re-offered after REOFFER_GAP. -/
  | reoffer
  /-- UNSYNCED (R236). A participant unconfirmed after CONFIRM_TIMEOUT is stopped and excluded from allotment. -/
  | unsynced
  /-- ROUND_MS_EXPIRY (R217). An allotment round reaches ROUND_MS, and its swaps stop. -/
  | roundMsExpiry (made : Nat)
  /-- ROBOT_PAIR_COMPUTATION (R262). A robot's loop pair is computed for its next set-point batch. -/
  | robotPairComputation (dt rb : Nat)
  /-- AXIS_LOOP_SAMPLE (R252). At each sample tick an axis loop computes its output. -/
  | axisLoopSample (dt axis : Nat) (cnt : Int)
  /-- DEADLINE_MISS (R263). A computation misses its deadline, the slot becomes HELD and source 0x70 rises. -/
  | deadlineMiss (dt loop : Nat)
  /-- LIMIT_TRIP (R294). A limit switch is qualified asserted, its latch is set and the axis stops if moving toward it. -/
  | limitTrip (dt axis : Nat) (neg : Bool)
  /-- LATCH_RELEASE (R295). A limit input stays qualified clear for REL_MS, and its latch clears. -/
  | latchRelease (dt axis : Nat) (neg : Bool)
  /-- HOME_EVENT (R305). The home reference is qualified asserted during the latch phase, and the position is set to OFFSET. -/
  | homeEvent (dt axis : Nat) (cnt : Int)
  /-- HOMING_PHASE_END (R305). A homing phase comes to rest, and the next phase starts or homing completes. -/
  | homingPhaseEnd (dt axis : Nat)
  /-- HOME_NOT_FOUND (R305). The search travels HOME_MAX steps without the reference, and homing fails. -/
  | homeNotFound (axis : Nat)
  /-- ENCODER_ERROR (R287). Both encoder phases change in one sample, and the axis stops hard into FAULT. -/
  | encoderError (dt axis : Nat)
  /-- TARGET_REACHED (R298). An axis move reaches its target, and the axis returns to IDLE. -/
  | targetReached (axis : Nat)
  /-- RAMP_STOP_END (R297). A ramp stop comes to rest, and the axis leaves STOPPING. -/
  | rampStopEnd (axis : Nat)
  /-- HEDGE_EDGE (R292). A velocity move comes to rest at the edge of the Hedge window and completes AXS_HEDGE. -/
  | hedgeEdge (dt axis : Nat)
  /-- STANDSTILL (R304). After IDLE_DELAY at rest the axis carries out IDLE_ACT. -/
  | standstill (axis : Nat)
  /-- EN_DELAY_END (R304). EN_DELAY passes, and the first step pulse of a move follows. -/
  | enDelayEnd (axis : Nat)
  /-- AXIS_ENABLE (R310). A write of ENABLE takes the axis out of DISABLED, or a write of 0 disables it. -/
  | axisEnable (dt axis : Nat) (v : Reg)
  /-- BEACON (R325). Rootstock places the safety beacon with its commit list in slot 0 of every lane. -/
  | beacon
  /-- ALL_STOP_REPEAT (R327). A fleet-wide ALL_STOP is repeated in the three slots after the pre-empted one. -/
  | allStopRepeat
  /-- FRAME_TRANSMIT (R317). A queued frame is launched in its slot, and acknowledged and retried where its type requires. -/
  | frameTransmit (lane : Nat) (sfd acked : Bool)
  /-- FRAME_RECEIVE (R338). `age` is the time in ticks since the `LNn_SFD` edge. A received PSDU is read from the transceiver and dropped, logged or delivered by order. -/
  | frameReceive (dt lane len age : Nat) (psdu : List Byte)
  /-- DATA_FRAME (R383). A received DATA frame is written as a record to the host buffer. -/
  | dataFrame (dt : Nat)
  /-- ROUTE_APPLY (R333). At APPLY_SF the route change takes effect, and MAC_ROUTE_SET completes. -/
  | routeApply
  /-- LANE_RETIRE_COMPLETE (R340). Every moved node has confirmed, or FORCE applies at APPLY_SF, and the lane retires. -/
  | laneRetireComplete
  /-- KEY_WRITE (R323). A write to a key word while VALID is 0 loads key material. -/
  | keyWrite (dt k w : Nat) (v : Reg)
  /-- MAC_SEND_DEADLINE (R344). A frame send reaches its deadline unsent or unacknowledged and completes MAC_SEND_EXPIRED. -/
  | macSendDeadline (h : Nat)
  /-- QUEUE_PUSH (R355). A producer pushes a word into a queue. -/
  | queuePush (dt q : Nat) (w : QWord) (words : Nat) (pop : Bool)
  /-- QUEUE_POP (R355). A consumer pops a word from a queue. -/
  | queuePop (dt q : Nat) (ecc : Bool)
  /-- SPILL_REFILL (R353). A spill queue's head refills from the middle, and a waiting pop returns. -/
  | spillRefill (dt q : Nat)
  /-- QUE_FLUSH (R356). A write of GO to QUE_FLUSH flushes a queue in FLEET_STOP or SAFE, or sets REFUSED. -/
  | queFlush (dt : Nat) (v : Reg)
  /-- QFC_MIN_ASSERT_EXPIRY (R360). A QFC pin's MIN_ASSERT passes with no selected queue HIGH, and the pin deasserts. -/
  | qfcMinAssertExpiry (p : Nat)
  /-- DIRECT_WRITE (R392). A direct write to a register without a row of its own is judged by the rule table and applied or ignored. -/
  | directWrite (dt off : Nat) (v : Reg)
  /-- BENCH_CHECK_DONE (R393). A Bench check ends, and the Bench is CHECKED or stays STAGED. -/
  | benchCheckDone (dt : Nat)
  /-- BENCH_CUT_OFF (R396). At T - 2 ms the apply is re-checked and shadow registers are loaded. -/
  | benchCutOff (domainDown parity : Bool)
  /-- BENCH_APPLY_STROBE (R397). At T each domain swaps its shadows into its live registers. -/
  | benchApplyStrobe
  /-- GOVERNOR_DECISION (R402). Every 10 us the governor computes free power and grants waiting requests that fit. -/
  | governorDecision (dt pmeas : Nat)
  /-- LEAVE_DEADLINE (R404). A request still waiting at its deadline is withdrawn, and its work ends NO_LEAVE. -/
  | leaveDeadline
  /-- LEAVE_DURATION_END (R405). A grant reaches its duration unreturned, is freed, and source 0x11 rises. -/
  | leaveDurationEnd
  /-- GOV_OVER_BUDGET (R408). Measured power exceeds the budget for 100 ms, OVER is set and source 0x10 rises. -/
  | govOverBudget (dt pmeas : Nat)
  /-- MONITOR_SELF_CHECK_FAIL (R408). A power monitor fails its self-check and is counted at its maximum rating. -/
  | monitorSelfCheckFail (dt grp pmeas : Nat)
  /-- MONITOR_RECALIBRATION (R510). Every 24 h one power-monitor group is recalibrated for 2 s. -/
  | monitorRecalibration (dt grp pmeas : Nat)
  /-- STOP_IN_FALL (R420). A STOP_IN low pulse drops both outputs and sets a latch, which starts the fleet stop. -/
  | stopInFall (dt : Nat) (chB : Bool) (lowPs : Nat)
  /-- STOP_DISCREPANCY (R421). One channel stays unlatched DISC_TIME after the other, and source 0xB2 rises. -/
  | stopDiscrepancy
  /-- STOP_INPUTS_CLEAN (R422). Both stop inputs stay high for 50 ms, and CLEAN is set. -/
  | stopInputsClean (dt : Nat)
  /-- SAF_STOP_CLR (R422). The release write clears both latches when its conditions hold, and is otherwise refused. -/
  | safStopClr (dt : Nat) (v : Reg)
  /-- DARK_PULSE (R423). A stop output is tested low for 200 us and read back. -/
  | darkPulse (ok : Bool)
  /-- RESUME_BOUNDARY (R426). At the slotframe boundary after an accepted resume, the run state becomes RUN. -/
  | resumeBoundary
  /-- SAFE_RELEASE_FIRST (R428). The first SAF_RELEASE write with STEP 0x5AFE opens the release sequence. -/
  | safeReleaseFirst (dt : Nat) (v : Reg)
  /-- SAFE_RELEASE_SECOND (R428). The second SAF_RELEASE write with STEP 0xA0E5 clears SAFE_FORCE when its conditions hold. -/
  | safeReleaseSecond (dt : Nat) (v : Reg)
  /-- SAFE_RELEASE_WINDOW_EXPIRY (R428). 1 s passes after the first write without the second, and the sequence is voided with a new nonce. -/
  | safeReleaseWindowExpiry
  /-- SAFE_RELEASE_BOUNDARY (R428). At the next slot boundary after a release the run state becomes FLEET_STOP or STANDBY. -/
  | safeReleaseBoundary
  /-- LOCKSTEP_MISMATCH (R414). Rootstock's lockstep cores disagree, the safe state is driven in hardware and Rootstock restarts. -/
  | lockstepMismatch (dt : Nat)
  /-- SAF_SRAM_UE (R414). An uncorrectable error in Rootstock's SRAM drives the safe state and a restart. -/
  | safSramUe (dt : Nat)
  /-- ROOTSTOCK_RESTART (R414). Rootstock finishes its restart and resumes beaconing with STOP. -/
  | rootstockRestart (dt : Nat)
  /-- PLANNING_HEARTBEAT (R417). A planning core writes its heartbeat to Rootstock. -/
  | planningHeartbeat (dt core : Nat)
  /-- PLAN_WATCHDOG (R417). A core misses two consecutive heartbeats, and source 0xB6 rises. -/
  | planWatchdog (dt : Nat)
  /-- FAULT_EVENT (R432). A fault source reports an event, which is recorded and counted and may make the source ACTIVE with its class reaction. -/
  | faultEvent (dt src : Nat)
  /-- FAULT_LEVEL_CLEAR (R432). The condition of a level source ends, and LEVEL_NOW becomes 0. -/
  | faultLevelClear (dt src : Nat)
  /-- WINDOW_EXPIRY (R432). No event is left in WINDOW, and a COUNTING source returns to IDLE. -/
  | windowExpiry (src : Nat)
  /-- QUIET_EXPIRY (R432). QUIET passes without event, and an ACTIVE source exits quietly to IDLE. -/
  | quietExpiry (src : Nat)
  /-- INJECTION_CHECK (R436). Every 1 ms a native injection feeds inverted check bits to the checker. -/
  | injectionCheck (src : Nat) (found : Bool)
  /-- FORCE_PULSE (R437). A METHOD 2 injection pulses the force bit once each 1 ms. -/
  | forcePulse (src : Nat)
  /-- FLT_FORCE_WRITE (R437). A write of FLT_FORCEm sets or clears force bits and makes or ends forced causes. -/
  | fltForceWrite (dt m : Nat) (v : Reg)
  /-- COLLECTOR_PARITY_ERROR (R439). A collector register fails parity, the safe state is driven, the configuration resets and 0xBA becomes ACTIVE. -/
  | collectorParityError (dt : Nat) (recOk : Bool)
  /-- FROZEN_IMAGE_PERSISTED (R456). The frozen black box is written to flash, and event 0x1304 is written. -/
  | frozenImagePersisted (dt : Nat)
  /-- BLACKBOX_THAW (R456). The persist is done, the run state is RUN and THAW_HOLD has passed, so the box thaws. -/
  | blackboxThaw (dt : Nat)
  /-- DIARY_SNAPSHOT (R459). Every 10 minutes of powered time a record snapshot asks leave. -/
  | diarySnapshot
  /-- DIARY_SNAPSHOT_DONE (R459). A record snapshot is written and marked current. -/
  | diarySnapshotDone (dt : Nat)
  /-- PERSIST_LATE (R459). No snapshot completes within 20 min, and source 0x25 rises. -/
  | persistLate
  /-- CAPTURE_PERSISTED (R459). A raw capture is written to its flash slot. -/
  | capturePersisted (dt slot : Nat)
  /-- PFW_N_QUALIFIED (R460). PFW_N is qualified low, flash work is suspended and the power-fail block is written. -/
  | pfwNQualified (dt recs : Nat)
  /-- PFW_N_RETURN (R521). PFW_N stays high for 10 ms with the rails in range, and suspended flash work resumes. -/
  | pfwNReturn (dt : Nat)
  /-- REGION_FAIL (R461). A diary region fails, and the diary goes on SINGLE or becomes DEAF. -/
  | regionFail (dt region cause code value : Nat)
  /-- DRY_CLEAR (R469). A write of the clear key empties records or the black box. -/
  | dryClear (dt : Nat) (v : Reg)
  /-- LW_CLR (R470). A write of LW_CLR clears the last-word registers and LW_NEXT. -/
  | lwClr (dt : Nat) (v : Reg)
  /-- CUTTING (R483). A CUTTING frame from a gateway delivers header or piece parts, or a need list. -/
  | cutting (dt : Nat)
  /-- NEED_LIST (R483). Every NEED_PERIOD during an air download a need list is sent to the gateway. -/
  | needList (dt : Nat)
  /-- HEADER_STORED (R480). With leave, an accepted header is written to sector 0 of the idle bank. -/
  | headerStored (dt : Nat) (ok : Bool)
  /-- SECTOR_COMMIT_DONE (R480). A body sector is erased, programmed and read back, and its journal bit is cleared. -/
  | sectorCommitDone (dt fails : Nat)
  /-- VERIFY_DONE (R484). The body hash is computed, and VERIFIED is set or the download ends. -/
  | verifyDone (dt : Nat) (sound : Bool)
  /-- ACTIVATION_PAUSE_START (R486). At its alignment point the pause begins and the new image is loaded. -/
  | activationPauseStart
  /-- ACTIVATION_PAUSE_END (R486). The new image starts, the pause ends and UPD_ACTIVATE completes. -/
  | activationPauseEnd (dt : Nat)
  /-- TRIAL_TIME_EXPIRY (R487). TRIAL_TIME passes without confirmation, and the subsystem reverts. -/
  | trialTimeExpiry
  /-- ALIVE_LOSS (R505). PAIR_ALIVE_IN stops toggling for ALIVE_TIMEOUT. -/
  | aliveLoss (dt : Nat)
  /-- PAIR_LINK_LOSS (R505). No pair-link frame arrives for LINK_TIMEOUT. -/
  | pairLinkLoss (dt : Nat)
  /-- TOKEN_TAKE (R498). PAIR_TOKEN_IN has been low for 1 ms, and the unit drives PAIR_TOKEN_OUT high. -/
  | tokenTake (dt : Nat)
  /-- TOKEN_CONFIRM (R498). 10 us after taking the token the unit samples again, and unit 1 yields on a conflict. -/
  | tokenConfirm (tin : Bool)
  /-- TOKEN_CONFLICT (R498). Both tokens stay high for more than 1 ms, and source 0x3B rises. -/
  | tokenConflict (dt : Nat)
  /-- PROMOTION (R506). The new active unit is promoted to RUN or FLEET_STOP from its mirrored state. -/
  | promotion (dt : Nat)
  /-- MIRROR_FRAME (R501). A mirror frame from the active unit is applied, or its loss sets OUT_OF_SYNC. -/
  | mirrorFrame (dt : Nat) (ok : Bool) (p : PartnerFacts) (lag : Nat) (d : Machine.MirrorDelta)
  /-- BULK_COPY_DONE (R501). The bulk copy ends, and the mirror moves toward SYNC. -/
  | bulkCopyDone (dt : Nat)
  /-- PAIR_LINK_UP (R501). The link has been up for 1 s, and OUT_OF_SYNC returns to JOINING. -/
  | pairLinkUp (dt : Nat) (p : PartnerFacts) (mib : Nat)
  /-- PLANNED_HANDOVER_STOP (R508). At S - 50 ms the active unit stops validating. -/
  | plannedHandoverStop (b : NT)
  /-- FINAL_DELTA (R508). At S - 40 ms the final delta is sent and the active unit drops its token. -/
  | finalDelta
  /-- PATROL_SCRUB_PASS (R511). A patrol scrub pass reads and corrects every word. -/
  | patrolScrubPass (dt : Nat)
  /-- DRAM_SCRUB_LATE (R515). A patrol pass is late by 25 %, and source 0x2D rises. -/
  | dramScrubLate (dt : Nat)
  /-- SCRUB_NOW (R511). A write of SCRUB_NOW starts a full scrub, which asks leave. -/
  | scrubNow (dt : Nat) (v : Reg)
  /-- MEM_RETIRE (R511). A write of RETIRE in MEM_CTRL starts the retirement of a rank. -/
  | memRetire (dt : Nat) (v : Reg)
  /-- DRAM_CE (R515). A corrected DRAM word is counted and may reach CE_LIMIT. -/
  | dramCe (dt r : Nat)
  /-- DRAM_UE (R512). An uncorrectable DRAM word is flagged to its consumer and source 0x29 rises. -/
  | dramUe (dt r addr : Nat)
  /-- RANK_MIGRATION_DONE (R511). Every block of the rank has moved, and the rank is retired. -/
  | rankMigrationDone (dt r : Nat)
  /-- FULL_SCRUB_DONE (R514). A full scrub ends, and event 0x0302 is written. -/
  | fullScrubDone (dt corrected : Nat)
  /-- RAIL_OUT_OF_RANGE (R518). A supply rail leaves its range, and source 0x08, 0x09 or 0x0A rises. -/
  | railOutOfRange (dt : Nat) (rail : Rail)
  /-- TEMPERATURE_THRESHOLD (R524). The junction passes 110 C or 118 C, and TEMP_WARN or TEMP_CRIT rises. -/
  | temperatureThreshold (dt sensor : Nat) (halfDeg : Int)
  /-- PLL_UNLOCK (R431). A PLL loses lock, and its level source rises. -/
  | pllUnlock (dt : Nat) (pll : PllName)
  /-- SAF_CLK_CHECK (R431). The SAF clock differs from TIME by more than 1 %, and the safe state is driven. -/
  | safClkCheck (dt : Nat) (ppm : Int)
  /-- SRAM_ECC_ERROR (R431). A main SRAM ECC error raises source 0x20 or 0x21. -/
  | sramEccError (dt : Nat) (uncorrectable : Bool)
  /-- SQ_TAIL (R371). A write of an SQ_TAIL doorbell makes new entries available, or stops the ring on a bad value. -/
  | sqTail (dt r : Nat) (v : Reg)
  /-- CQ_HEAD (R371). A write of a CQ_HEAD doorbell consumes completion entries, or sets BAD_HEAD. -/
  | cqHead (dt r : Nat) (v : Reg)
  /-- SUBMISSION_FETCH (R372). With room in the CQ, the device fetches an entry, judges it and writes ACCEPT. -/
  | submissionFetch (dt sq : Nat) (entry : Option (List Byte)) (sges sges2 : List (Nat × Nat))
  /-- HOLD_BUFFER_DRAIN (R374). A held PROGRESS or EVENT entry is written once its CQ has room. -/
  | holdBufferDrain (cq : Nat)
  /-- MSI_X_COALESCE (R375). COAL_US passes after the first unsignalled entry, and the MSI-X message is sent. -/
  | msiXCoalesce (cq : Nat)
  /-- HOST_SILENT (R384). No doorbell or heartbeat arrives for TIMEOUT, and source 0x7E rises. -/
  | hostSilent
  /-- HIF_HEARTBEAT (R384). A write of HIF_HEARTBEAT restarts the host watchdog. -/
  | hifHeartbeat (dt : Nat) (v : Reg)
  /-- LINK_DOWN (R367). The PCI Express link goes down, the host interface resets and source 0x7F rises. -/
  | linkDown (dt : Nat)
  /-- FUNCTION_LEVEL_RESET (R367). A Function Level Reset resets the host interface. -/
  | functionLevelReset (dt : Nat)
  /-- PE_PERST_N (R367). PE_PERST_N is asserted, and the host interface resets. -/
  | pePerstN (dt : Nat)
  /-- D3HOT_ENTRY (R367). Entry to D3hot resets the host interface. -/
  | d3hotEntry (dt : Nat)
  /-- HOST_RETURN (R367). The link is up, the function is in D0 and Bus Master Enable is set, so source 0x7F's level falls. -/
  | hostReturn (dt speed lanes : Nat)
  /-- SQ_EN_SET (R368). Setting EN of an SQ enables the ring, or records ERR. -/
  | sqEnSet (dt r : Nat) (v : Reg)
  /-- SQ_EN_CLEAR (R368). Clearing EN of an SQ stops fetching. -/
  | sqEnClear (dt r : Nat) (v : Reg)
  /-- CQ_EN_SET (R368). Setting EN of a CQ enables the ring with PHASE 1, or is refused. -/
  | cqEnSet (dt r : Nat) (v : Reg)
  /-- CQ_EN_CLEAR (R368). Clearing EN of a CQ disables it unless an enabled SQ names it. -/
  | cqEnClear (dt r : Nat) (v : Reg)
  /-- NOP (R379). Completes OK at once. -/
  | nop (h : Nat)
  /-- FENCE (R379). Completes when earlier commands in scope have completed, holding later commands of its SQ. -/
  | fence (h : Nat)
  /-- TIME_ACCEPT_JUMP (R54). Accepts a pending time jump to be stepped at the next slotframe boundary. -/
  | timeAcceptJump (h : Nat)
  /-- TIME_SET_PPS (R58). Sets the rate, width, phase and polarity of PPS_OUT. -/
  | timeSetPps (h : Nat)
  /-- TIME_CAPTURE_ARM (R60). Arms a capture input for a count and window. -/
  | timeCaptureArm (h : Nat)
  /-- GNSS_SURVEY_START (R92). Starts a survey-in of the base position. -/
  | gnssSurveyStart (h : Nat)
  /-- GNSS_SET_BASE (R93). Enters a base position and baseline. -/
  | gnssSetBase (h : Nat) (data : Option (List Byte))
  /-- GNSS_RAW_CAPTURE (R105). Requests a raw sample capture to a host buffer. -/
  | gnssRawCapture (h : Nat)
  /-- CORR_STREAM_CFG (R97). Opens, replaces or stops the RTCM output stream. -/
  | corrStreamCfg (h : Nat)
  /-- SNAP_SUBMIT (R139). Submits host snapshots for position, check or local capture. -/
  | snapSubmit (h : Nat) (data : Option (List Byte))
  /-- RTK_ADMIT_ROVER (R151). Loads the rover profile of a filter slot. -/
  | rtkAdmitRover (h : Nat)
  /-- RTK_RESET_ROVER (R167). Resets a filter slot's ambiguities or whole state and optionally waits for a grade. -/
  | rtkResetRover (h : Nat)
  /-- TRL_LOAD_GRAPH (R181). Requests replacement of the whole track graph. -/
  | trlLoadGraph (h : Nat) (data : Option (List Byte))
  /-- TRL_PATCH_GRAPH (R182). Submits a patch to the live graph as a local transaction. -/
  | trlPatchGraph (h : Nat) (data : Option (List Byte))
  /-- TRL_QUERY (R203). Returns a snapshot of graph records, reservations or an envelope report. -/
  | trlQuery (h : Nat) (werr : Bool)
  /-- TXN_SUBMIT (R224). Submits a transaction of up to 64 actions. -/
  | txnSubmit (h : Nat) (data : Option (List Byte))
  /-- TXN_CANCEL (R239). Aborts a transaction before its cut-off. -/
  | txnCancel (h : Nat)
  /-- TASK_ALLOT (R215). Defines tasks, pins, forbids and priorities, and optionally runs an allotment round. -/
  | taskAllot (h : Nat) (data : Option (List Byte)) (late : Bool)
  /-- TASK_WITHDRAW (R219). Withdraws a task or reads its definition and generation table. -/
  | taskWithdraw (h : Nat) (werr : Bool)
  /-- GRAFT (R242). Moves a task to another robot under its own lease. -/
  | graft (h : Nat)
  /-- LOOP_OPEN (R260). Opens a loop slot through a one-action transaction. -/
  | loopOpen (h : Nat)
  /-- LOOP_CLOSE (R260). Closes a loop slot on a gain set through a one-action transaction. -/
  | loopClose (h : Nat)
  /-- LOOP_HANDOVER (R260). Hands a robot between steering modes with a blend. -/
  | loopHandover (h : Nat)
  /-- AXIS_MOVE (R300). Submits a depot axis move as a local transaction. -/
  | axisMove (h : Nat)
  /-- AXIS_HOME (R305). Starts homing of a depot axis. -/
  | axisHome (h : Nat) (seen : Bool)
  /-- AXIS_STOP (R299). Ramp-stops, hard-stops or resets a depot axis. -/
  | axisStop (h : Nat)
  /-- MAC_FRAME_SEND (R344). Sends a DATA frame or a directed ALL_STOP. -/
  | macFrameSend (h : Nat) (data : Option (List Byte))
  /-- MAC_ROUTE_SET (R333). Sets, deletes or reads route entries. -/
  | macRouteSet (h : Nat) (data : Option (List Byte)) (werr : Bool)
  /-- MAC_LANE_RETIRE (R340). Retires or restores a lane. -/
  | macLaneRetire (h : Nat) (data : Option (List Byte))
  /-- ROBOT_ADMIT (R13). Admits a robot to a slot under a new lease epoch. -/
  | robotAdmit (h : Nat) (data : Option (List Byte))
  /-- ROBOT_RELEASE (R25). Releases a lease in mode PARKED or REMOVED. -/
  | robotRelease (h : Nat)
  /-- BENCH_STAGE (R391). Stages register entries on the Bench. -/
  | benchStage (h : Nat) (data : Option (List Byte))
  /-- BENCH_CHECK (R393). Starts a check of the staged set against the rule table. -/
  | benchCheck (h : Nat)
  /-- BENCH_APPLY (R395). Fixes the apply instant of a checked set. -/
  | benchApply (h : Nat)
  /-- BENCH_DISCARD (R399). Empties the staging area, or cancels an apply before its cut-off. -/
  | benchDiscard (h : Nat)
  /-- LEAVE_POLICY (R406). Writes the cap and priority of a leave class. -/
  | leavePolicy (h : Nat)
  /-- FLEET_STOP (R424). Decides a fleet stop. -/
  | fleetStop (h : Nat)
  /-- FLEET_RESUME_REQUEST (R426). Requests return from FLEET_STOP to RUN. -/
  | fleetResumeRequest (h : Nat)
  /-- FAULT_INJECT (R436). Injects native or forced faults into a source. -/
  | faultInject (h : Nat)
  /-- FAULT_CLEAR (R435). Clears one ACTIVE source, or all of them. -/
  | faultClear (h : Nat)
  /-- DIARY_READ (R463). Reads code records or a capture slot. -/
  | diaryRead (h : Nat) (werr : Bool)
  /-- BLACKBOX_FREEZE (R464). Freezes the black box with cause host. -/
  | blackboxFreeze (h : Nat)
  /-- BLACKBOX_READ (R464). Reads black-box entries. -/
  | blackboxRead (h : Nat) (werr : Bool)
  /-- UPD_HEADER (R478). Checks and accepts an image header, starting or joining a download. -/
  | updHeader (h : Nat) (data : Option (List Byte))
  /-- UPD_PIECES (R481). Delivers image pieces to the download in progress. -/
  | updPieces (h : Nat) (data : Option (List Byte))
  /-- UPD_VERIFY (R484). Starts verification of a complete download. -/
  | updVerify (h : Nat)
  /-- UPD_ACTIVATE (R485). Activates a verified image in trial. -/
  | updActivate (h : Nat) (ok : Bool)
  /-- UPD_CONFIRM (R487). Confirms a trial image and raises the rollback floor. -/
  | updConfirm (h : Nat)
  /-- UPD_STATUS (R491). Returns the update state of a subsystem. -/
  | updStatus (h : Nat)
  /-- PAIR_JOIN (R504). Sets the unit's pair role and starts mirroring. -/
  | pairJoin (h : Nat)
  /-- PAIR_TAKEOVER (R508). Requests a planned or forced takeover by the standby. -/
  | pairTakeover (h : Nat)
  /-- POWER_REMOVED (R26). Power is removed, the rails leave their range and the device enters run state OFF; loss of VDD_AON also clears the last-word registers. -/
  | powerRemoved (aonLost : Bool)
  /-- HOST_LOCAL_SNAPSHOT (R139). At T_START, and each 100 ms after it, a SNAP_SUBMIT in mode 3 takes one snapshot from the G1 port of REF_ANT and writes its record into BUF. -/
  | hostLocalSnapshot (h : Nat) (samples : List Byte) (werr : Bool)
  /-- MSIX_VECTOR_UNMASK (R375). A host write unmasks an MSI-X vector, and the message held pending for it is sent. -/
  | msixVectorUnmask (dt vec : Nat)
deriving DecidableEq, Repr

end Sys2Proof
end

