-- ==== Sys2Proof/Decode.lean ====
section
/-! DEFINITION. What a word spells. The command table of this block gives no row any bits (every row of
spec/opcode_table.json has an empty list of fields), so no word spells a command and the decoder refuses each one. -/
namespace Sys2Proof

/-- The command that a word of `nbits` bits spells: none, since the table gives no row bits (log entry 4). -/
def decodeTableWord (_nbits _w : Nat) : Option Instr := none

end Sys2Proof
end

