-- ==== Sys2Proof/Config.lean ====
section
/-! DEFINITION. What the spec leaves open and the model leaves free. -/
namespace Sys2Proof.Config

/-- The `n`-th open value (log entry 1): no body, so nothing about it can be proved. State counts how many have been
drawn, and each draw reads the next one. -/
opaque freeValue : Nat → BitVec 64

/-- The value of a field of an RTCM message, by its data field number, that R98 leaves to the standard and to the device (log entry
101). -/
opaque rtcmOpen : Nat → Nat

/-- The level of an output between its edges where the spec gives none, by the pin and the TIME cycle (log entry 108). -/
opaque pinOpen : Nat → Nat → Bool

/-- The float update of a rover filter (R152, R153): the arithmetic of the FP64 engines, which the spec describes by its states and
its inputs and not by its rounding (log entry 109). The ambiguities of the answer stand in the order of the carrier double differences
of the input. -/
opaque floatUpdate : Machine.FltIn → Machine.FltState

/-- The covariance that a reset of the ambiguities alone leaves, from what it was and `PR_SIGMA` (R167, log entry 109). -/
opaque widened : List (List Int) → Nat → List (List Int)

/-- The covariance of position and velocity with which a slot restarts at a takeover, from its mirrored record (R506, log entry 120). -/
opaque restartCov : Machine.PosRec → List (List Int)

/-- The differential troposphere of a satellite in um, from the height difference in mm and its elevation in thousandths of a degree
(R152, log entry 109). -/
opaque troposphere : Int → Int → Int

/-- The correlation of a snapshot (R131): the peaks of a satellite's signal, from the samples as levels of I and Q, `FC_OFS` in 10 Hz, the
signal ID and the satellite number. The codes are those of the systems' own documents (log entry 111). -/
opaque correlate : List (Int × Int) → Int → Nat → Nat → List Machine.Peak

/-- The level that a detected peak exceeds (R131), 0.01 dB. -/
opaque snapThreshold : Int

/-- Coarse-time navigation (R133): from each detected satellite's position (ECEF, 0.1 mm), clock in ps and code delay in ps, and the aid
position, the `T0` correction in ns, the position (ECEF, 0.1 mm) and its 95 % horizontal error in cm. -/
opaque coarseTime : List ((Int × Int × Int) × Int × Nat) → (Int × Int × Int) → Int × (Int × Int × Int) × Nat

/-- The decimation of a port's levels at 40.92 MS/s to the rover format (R120, R139): the levels of I and Q of the samples. -/
opaque decimate : List (Int × Int) → List (Int × Int)

/-- The curvature of a route, as its centreline points in um, at a coordinate in mm: 10^-9 m^-1, positive to the left (R255). The spec
gives a line of straight pieces no curvature (log entry 115). -/
opaque curvature : List (Int × Int) → Int → Int

end Sys2Proof.Config
end

