-- ==== Sys2Proof/Machine/Bits.lean ====
section
/-! DEFINITION. Bit fields, byte order and saturating counts: the helpers every register and record uses.
Every multi-byte quantity is little-endian (R9). -/
namespace Sys2Proof.Machine

/-- Bits `[lo+w-1:lo]` of a natural number. -/
def bits (v lo w : Nat) : Nat := (v >>> lo) % 2 ^ w

/-- `v` with bits `[lo+w-1:lo]` replaced by the low `w` bits of `x`. -/
def putBits (v lo w x : Nat) : Nat :=
  v - (bits v lo w) * 2 ^ lo + (x % 2 ^ w) * 2 ^ lo

/-- A field of a register. -/
def fieldOf (r : Reg) (lo w : Nat) : Nat := bits r.toNat lo w

/-- A register with one field replaced. -/
def withField (r : Reg) (lo w x : Nat) : Reg := BitVec.ofNat 32 (putBits r.toNat lo w x)

/-- Two's complement reading of a `w`-bit field. -/
def signed (w v : Nat) : Int := if v < 2 ^ (w - 1) then (v : Int) else (v : Int) - (2 ^ w : Nat)

/-- A signed number as a `w`-bit field. -/
def unsigned (w : Nat) (v : Int) : Nat := (v % ((2 ^ w : Nat) : Int)).toNat

/-- A signed number clamped to a `w`-bit two's complement field and encoded. -/
def satSigned (w : Nat) (v : Int) : Nat :=
  let m : Int := ((2 ^ (w - 1) : Nat) : Int)
  unsigned w (max (-m) (min v (m - 1)))

/-- One more, sticking at the top of a `w`-bit count ("saturating"). -/
def satInc (w n : Nat) : Nat := min (n + 1) (2 ^ w - 1)

/-- One more, wrapping in a `w`-bit count ("wrapping"). -/
def wrapInc (w n : Nat) : Nat := (n + 1) % 2 ^ w

/-- A natural number clamped into a `w`-bit field. -/
def sat (w n : Nat) : Nat := min n (2 ^ w - 1)

/-- Bit `k` of a natural number. -/
def bitAt (v k : Nat) : Bool := (v >>> k) % 2 = 1

/-- A Bool as a bit. -/
def b2n (b : Bool) : Nat := if b then 1 else 0

/-- Little-endian value of `n` bytes from position `i`; bytes beyond the end read as 0. -/
def leAt (b : List Byte) (i : Nat) : Nat → Nat
  | 0 => 0
  | n + 1 => (b.getD i 0).toNat + 256 * leAt b (i + 1) n

/-- The same, signed. -/
def leAtS (b : List Byte) (i n : Nat) : Int := signed (8 * n) (leAt b i n)

/-- `n` bytes of a value, least significant first. -/
def leBytes (v : Nat) : Nat → List Byte
  | 0 => []
  | n + 1 => BitVec.ofNat 8 (v % 256) :: leBytes (v / 256) n

/-- A slice of a byte list, padded with zero bytes to its length. -/
def slice (b : List Byte) (i n : Nat) : List Byte :=
  let t := (b.drop i).take n
  t ++ List.replicate (n - t.length) 0

/-- Are all bytes of a slice zero (reserved bytes, R7)? -/
def zeros (b : List Byte) (i n : Nat) : Bool := ((b.drop i).take n).all (· == 0)

/-- `w` bits of a value, the most significant first. -/
def msbFirst (w v : Nat) : List Nat := (List.range w).map fun k => bits v (w - 1 - k) 1

/-- Division rounding up. -/
def ceilDiv (a b : Nat) : Nat := (a + (b - 1)) / b

/-- Integer square root by the digit method, rounding down; `n` counts the digit pairs looked at. -/
def isqrtGo (v : Nat) : Nat → Nat → Nat
  | 0, r => r
  | k + 1, r =>
    let t := r + 2 ^ k
    isqrtGo v k (if t * t ≤ v then t else r)

/-- Integer square root of a number below 2^128, rounding down. -/
def isqrt (v : Nat) : Nat := isqrtGo v 64 0

/-- Integer square root, rounding up. -/
def isqrtUp (v : Nat) : Nat := let r := isqrt v; if r * r = v then r else r + 1

/-- Position of the first element that satisfies a test. -/
def firstIdx {α : Type} (p : α → Bool) (l : List α) : Option Nat := l.findIdx? p

/-- Replace the elements that satisfy a test. -/
def mapWhere {α : Type} (p : α → Bool) (f : α → α) (l : List α) : List α :=
  l.map fun x => if p x then f x else x

end Sys2Proof.Machine
end

