-- ==== Sys2Proof/Machine/Nt.lean ====
section
/-! DEFINITION. Network time arithmetic: ticks, the accumulator of R43, the slot scale of R42 and the
comparison and expansion of short NT (R40, R41). -/
namespace Sys2Proof.Machine

/-- Ticks in one second (R38). -/
def tickHz : Nat := 1073741824

/-- Milliseconds as whole ticks, rounded up so that no bound is shortened. -/
def msTicks (ms : Nat) : Nat := ceilDiv (ms * tickHz) 1000

/-- Microseconds as whole ticks, rounded up. -/
def usTicks (us : Nat) : Nat := ceilDiv (us * tickHz) 1000000

/-- A signed count of nanoseconds rounded to the nearest whole tick, halves away from zero (R54). -/
def nsTicks (ns : Int) : Int :=
  let a := ns.natAbs * tickHz
  let q := (2 * a + 1000000000) / 2000000000
  if ns < 0 then -(q : Int) else q

/-- TIME cycles in one second and in one millisecond (R43: 4 ns each). -/
def cycHz : Nat := 250000000
def cycMs : Nat := 250000

/-- Nominal increment of one TIME cycle, in units of 2^-32 tick (R43). -/
def nomInc : Nat := 0x44B82FA0A

/-- The signed difference of two NT values: positive when `a` is later (R38: modular). -/
def ntDiff (a b : NT) : Int := (a - b).toInt

/-- `a` is strictly later than `b`. -/
def ntAfter (a b : NT) : Bool := decide (0 < ntDiff a b)

/-- `a` is at or after `b`. -/
def ntReached (a b : NT) : Bool := decide (0 ≤ ntDiff a b)

/-- NT moved by a signed number of ticks. -/
def ntAdd (a : NT) (d : Int) : NT := a + BitVec.ofInt 64 d

/-- Ticks from `b` to `a`, 0 when `a` is earlier. -/
def ntSince (a b : NT) : Nat := (ntDiff a b).toNat

/-- Signed difference of two edges in units of 2^-38 s (R61). -/
def edgeDiff (a b : NT × Nat) : Int := ntDiff a.1 b.1 * 256 + ((a.2 : Int) - (b.2 : Int))

/-- Ticks that lie within `n` units, each `1/hz` s: the largest whole count that does not exceed them. -/
def fullTicks (n hz : Nat) : Nat := n * tickHz / hz

/-- First tick of slot `k` (R42). -/
def slotStart (k : Nat) : Nat := ceilDiv (k * 2147483648) 1000

/-- The slot that holds a tick (R42). -/
def slotOf (n : Nat) : Nat := n * 1000 / 2147483648

/-- Number of the slotframe that holds a tick (R42): 50 slots each. -/
def slotframeOf (n : Nat) : Nat := slotOf n / 50

/-- Slotframes in one turn of NT (R42). -/
def sfTurn : Nat := 40 * 2 ^ 32

/-- Slotframe `b` is `a` or a later one, counted through the wrap of NT (R42). -/
def sfReached (b a : Nat) : Bool := decide ((b + sfTurn - a % sfTurn) % sfTurn < sfTurn / 2)

/-- The slotframe after one. -/
def sfNext (a : Nat) : Nat := (a + 1) % sfTurn

/-- The slotframe `n` after one, and the later of two. -/
def sfAdd (a n : Nat) : Nat := (a + n) % sfTurn
def sfLater (a b : Nat) : Nat := if sfReached a b then a else b

/-- Slotframes from `a` on to `b`, where `b` is not before it. -/
def sfGap (a b : Nat) : Nat := (b + sfTurn - a % sfTurn) % sfTurn

/-- The first slot boundary strictly after `t`. -/
def nextSlot (t : NT) : NT := BitVec.ofNat 64 (slotStart (slotOf t.toNat + 1))

/-- The first slot boundary at or after `t`. -/
def slotAtOrAfter (t : NT) : NT :=
  if slotStart (slotOf t.toNat) = t.toNat then t else nextSlot t

/-- The first slotframe boundary strictly after `t`. -/
def nextSlotframe (t : NT) : NT := BitVec.ofNat 64 (slotStart (50 * (slotframeOf t.toNat + 1)))

/-- The first slotframe boundary at or after `t`. -/
def slotframeAtOrAfter (t : NT) : NT :=
  if slotStart (50 * slotframeOf t.toNat) = t.toNat then t else nextSlotframe t

/-- The first whole NT second strictly after `t`. -/
def nextSecond (t : NT) : NT := BitVec.ofNat 64 ((t.toNat / tickHz + 1) * tickHz)

/-- The first whole NT second at or after `t`. -/
def secondAtOrAfter (t : NT) : NT := BitVec.ofNat 64 (ceilDiv t.toNat tickHz * tickHz)

/-- The first multiple of `p` ticks strictly after `t`. -/
def nextMultiple (p : Nat) (t : NT) : NT := BitVec.ofNat 64 ((t.toNat / p + 1) * p)

/-- Is `t` the first tick of a slot? -/
def onSlot (t : NT) : Bool := slotStart (slotOf t.toNat) = t.toNat

/-- Is `t` the first tick of a slotframe? -/
def onSlotframe (t : NT) : Bool := slotStart (50 * slotframeOf t.toNat) = t.toNat

/-- Short NT (R40): the low 48 bits. -/
def shortNt (t : NT) : Nat := t.toNat % 2 ^ 48

/-- The 48-bit signed difference of two short NT values (R40). -/
def shortDiff (a b : Nat) : Int := signed 48 ((a + 2 ^ 48 - b % 2 ^ 48) % 2 ^ 48)

/-- A received short NT expanded against the present NT (R41). -/
def expandNt (now : NT) (s : Nat) : NT := ntAdd now (shortDiff s (shortNt now))

/-- NT of an accumulator. -/
def accNt (a : Acc96) : NT := (a >>> 32).truncate 64

/-- The accumulator after `n` TIME cycles with trim `trim` (R43). -/
def accStep (a : Acc96) (trim : Int) : Nat → Acc96
  | 0 => a
  | n + 1 => a + BitVec.ofInt 96 (((n + 1 : Nat) : Int) * ((nomInc : Int) + trim))

/-- TIME cycles until the accumulator first reaches NT `t`; 0 when it already has. -/
def cyclesTo (a : Acc96) (trim : Int) (t : NT) : Nat :=
  let gap : Int := ntDiff t (accNt a) * 4294967296 - ((a.toNat % 4294967296 : Nat) : Int)
  if gap ≤ 0 then 0 else ceilDiv gap.toNat ((nomInc : Int) + trim).toNat

/-- The first of some instants. -/
def firstNt : List NT → Option NT
  | [] => none
  | a :: l => match firstNt l with
    | some b => some (if ntAfter a b then b else a)
    | none => some a

end Sys2Proof.Machine
end

