-- ==== Sys2Proof/Machine/Tab.lean ====
section
/-! DEFINITION. Sparse tables in ONE canonical form: indexes strictly rising and no entry equal to what an
unlisted index reads as. The register file, the leases and every other numbered array of the device are held so. -/
namespace Sys2Proof.Machine

/-- Read an entry; an unlisted index reads as the default of that index. -/
def Tab.get {α : Type} (d : Nat → α) : Tab α → Nat → α
  | [], i => d i
  | (j, v) :: t, i => if j = i then v else Tab.get d t i

/-- Put an entry before the first larger index. -/
def Tab.ins {α : Type} (i : Nat) (v : α) : Tab α → Tab α
  | [] => [(i, v)]
  | (j, w) :: t => if i < j then (i, v) :: (j, w) :: t else (j, w) :: Tab.ins i v t

/-- Write an entry, keeping the canonical form: writing the default removes the entry. -/
def Tab.set {α : Type} [DecidableEq α] (d : Nat → α) (t : Tab α) (i : Nat) (v : α) : Tab α :=
  let r := t.filter fun p => p.1 != i
  if v = d i then r else Tab.ins i v r

/-- The canonical form: every index above the bound and rising, no entry at its default. -/
def Tab.wfFrom {α : Type} [DecidableEq α] (d : Nat → α) : Nat → Tab α → Bool
  | _, [] => true
  | lo, (j, v) :: t => decide (lo ≤ j) && decide (v ≠ d j) && Tab.wfFrom d (j + 1) t

/-- The canonical form of a whole table. -/
def Tab.wf {α : Type} [DecidableEq α] (d : Nat → α) (t : Tab α) : Bool := Tab.wfFrom d 0 t

/-- Change one entry. -/
def Tab.upd {α : Type} [DecidableEq α] (d : Nat → α) (t : Tab α) (i : Nat) (f : α → α) : Tab α :=
  Tab.set d t i (f (Tab.get d t i))

/-- Change every listed entry, keeping the canonical form. -/
def Tab.mapListed {α : Type} [DecidableEq α] (d : Nat → α) (f : Nat → α → α) (t : Tab α) : Tab α :=
  (t.map fun p => (p.1, f p.1 p.2)).filter fun p => decide (p.2 ≠ d p.1)

/-- The listed indexes whose entry satisfies a test. -/
def Tab.idxs {α : Type} (p : Nat → α → Bool) (t : Tab α) : List Nat :=
  (t.filter fun e => p e.1 e.2).map (·.1)

end Sys2Proof.Machine
end

