-- ==== Sys2Proof/Machine/RegRow.lean ====
section
/-! DEFINITION. The form of a row of the register field tables: where a field lies, how it is reached (R7, R550),
what it holds at reset and which values its chapter allows (R8, rules 0x0002 and 0x0003 of R394). -/
namespace Sys2Proof.Machine

/-- How a field is reached. -/
inductive Acc where
  | ro | rw | w1s | w1c | wo
deriving DecidableEq, Repr

/-- One field of one register, or of `count` registers `stride` bytes apart. `ok` says which values are legal, and
`rule` under which rule of R394 an illegal one fails: 2 = reserved encoding, 3 = out of range. -/
structure FRow where
  base : Nat
  stride : Nat := 4
  count : Nat := 1
  lo : Nat
  w : Nat
  acc : Acc := .rw
  rst : Nat → Nat := fun _ => 0
  rule : Nat := 3
  ok : Nat → Bool := fun _ => true
  /-- Reached only by direct writes (R551). -/
  direct : Bool := false

/-- A read-write field with any value legal. -/
def rwF (base lo w rst : Nat) : FRow := { base, lo, w, rst := fun _ => rst }

/-- A read-write field with a range. -/
def rwR (base lo w rst mn mx : Nat) : FRow :=
  { base, lo, w, rst := fun _ => rst, ok := fun v => decide (mn ≤ v ∧ v ≤ mx) }

/-- A read-write field with defined encodings 0 to `mx`. -/
def rwE (base lo w rst mx : Nat) : FRow :=
  { base, lo, w, rst := fun _ => rst, rule := 2, ok := fun v => decide (v ≤ mx) }

/-- A read-write signed field of magnitude at most `m`. -/
def rwS (base lo w m : Nat) : FRow :=
  { base, lo, w, ok := fun v => decide ((signed w v).natAbs ≤ m) }

/-- The same field in an array of registers. -/
def FRow.arr (r : FRow) (stride count : Nat) : FRow := { r with stride, count }

/-- The index at which a row covers an offset. -/
def FRow.at? (r : FRow) (off : Nat) : Option Nat :=
  if off < r.base then none
  else
    let d := off - r.base
    if d = 0 then some 0
    else if d % r.stride = 0 ∧ d / r.stride < r.count then some (d / r.stride) else none

end Sys2Proof.Machine
end

