-- ==== Sys2Proof/Machine/RegsA.lean ====
section
/-! DEFINITION. Register fields of the windows CLK, PAD, HIF, MEM, TIM, BEN, GOV, SAF, FLT, DRY and PAR, as R2, R47,
R50-R52, R58, R63, R67, R388, R411-R413, R443-R446, R453, R469, R516, R517 and R547-R549 give them, and the class of
every fault source (R387, R410, R431, R468, R515, R553 and the source tables of the other chapters). -/
namespace Sys2Proof.Machine

/-- Rows of `CLK`: no field of it is written (R69). -/
def rowsClk : List FRow := []

/-- Rows of `PAD` (R547-R549). -/
def rowsPad : List FRow := [
  rwE 0x1018 0 2 0 1, rwE 0x1018 2 2 0 1, rwE 0x1018 4 3 1 4, rwE 0x1018 8 3 1 3, rwE 0x1018 12 2 1 3,
  (rwE 0x1100 0 2 2 3).arr 4 6]

/-- Rows of `HIF` (R388); every one is reached by direct writes only (R551). -/
def rowsHif : List FRow := List.map (fun r => { r with direct := true }) [
  { (rwF 0x2014 0 16 0) with ok := fun v => decide (v = 0 ∨ (10 ≤ v ∧ v ≤ 60000)) },
  { (rwF 0x2018 0 32 0) with acc := .wo },
  (rwF 0x2020 0 5 0).arr 4 4, (rwF 0x2020 5 5 0).arr 4 4, (rwF 0x2020 10 5 0).arr 4 4, (rwF 0x2020 15 5 0).arr 4 4,
  (rwF 0x2020 20 5 0).arr 4 3, (rwF 0x2020 25 5 0).arr 4 3,
  rwF 0x2030 6 26 0, rwF 0x2034 0 32 0,
  rwR 0x2038 0 4 8 4 12, rwF 0x2038 8 6 0, rwF 0x2038 31 1 0, rwF 0x2040 0 32 0,
  (rwF 0x2100 0 32 0).arr 0x20 32, (rwF 0x2104 0 32 0).arr 0x20 32,
  (rwF 0x2108 0 4 4).arr 0x20 32, (rwF 0x2108 8 5 0).arr 0x20 32, (rwF 0x2108 16 1 0).arr 0x20 32,
  (rwF 0x2500 0 32 0).arr 0x20 32, (rwF 0x2504 0 32 0).arr 0x20 32,
  (rwF 0x2508 0 4 4).arr 0x20 32, (rwF 0x2508 7 1 0).arr 0x20 32, (rwF 0x2508 8 6 0).arr 0x20 32,
  (rwR 0x2508 16 8 1 1 255).arr 0x20 32, (rwR 0x2508 24 8 1 1 255).arr 0x20 32,
  { ((rwF 0x250C 15 1 0).arr 0x20 32) with acc := .w1c }]

/-- Rows of `MEM` (R517). -/
def rowsMem : List FRow := [
  rwR 0x3018 0 8 24 1 168, rwR 0x3018 8 8 64 1 255, rwF 0x3018 16 1 1,
  { (rwF 0x301C 0 1 0) with acc := .w1s }, { (rwF 0x301C 2 2 0) with acc := .w1s }]

/-- The pulse rates of R58: the divisors of 1,000 a 10-bit field can hold. -/
def ppsRates : List Nat := [1, 2, 4, 5, 8, 10, 20, 25, 40, 50, 100, 125, 200, 250, 500, 1000]

/-- Rows of `TIM` (R45, R47, R50-R52, R58, R63, R67). -/
def rowsTim : List FRow := [
  rwE 0x4020 0 2 0 2, rwF 0x4020 2 1 0,
  { (rwR 0x4024 0 16 1000 100 65535) with rule := 8 }, { (rwR 0x4024 16 16 10 1 1000) with rule := 8 },
  rwR 0x4028 0 16 50 5 1000, rwR 0x4028 16 8 10 1 255, rwR 0x4028 24 8 3 1 60,
  rwR 0x4034 0 16 100 1 65535, rwR 0x4034 16 16 100 1 65535,
  rwF 0x4038 0 24 1000,
  rwF 0x4048 0 8 0, rwF 0x4048 8 8 0, rwF 0x4048 16 1 0, rwF 0x4048 17 1 0, rwF 0x404C 0 32 0,
  rwR 0x4050 0 5 16 12 20, rwF 0x4050 5 1 0, rwF 0x4050 6 1 0, rwR 0x4050 8 4 9 4 15, rwR 0x4050 12 4 0 0 8,
  rwF 0x4050 16 16 0,
  rwF 0x4054 0 20 0x8000, rwF 0x4058 0 32 0,
  { (rwF 0x4060 0 10 1) with rule := 7, ok := fun v => ppsRates.contains v }, rwF 0x4060 10 1 0,
  { (rwF 0x4060 11 1 0) with acc := .w1s },
  rwR 0x4064 0 20 100000 1 500000, rwS 0x4068 0 20 500000,
  (rwF 0x4200 0 32 0).arr 0x10 4, (rwF 0x4204 0 32 0).arr 0x10 4,
  (rwF 0x4208 0 2 0).arr 0x10 4,
  { ((rwF 0x4208 2 1 0).arr 0x10 4) with acc := .w1s },
  { ((rwF 0x4208 3 1 0).arr 0x10 4) with acc := .wo, direct := true },
  { ((rwF 0x4208 4 1 0).arr 0x10 4) with acc := .w1c }, { ((rwF 0x4208 5 1 0).arr 0x10 4) with acc := .w1c },
  { ((rwF 0x4208 6 1 0).arr 0x10 4) with acc := .w1c },
  (rwR 0x4208 8 16 1 1 65535).arr 0x10 4,
  { ((rwF 0x420C 0 32 0).arr 0x10 4) with ok := fun v => decide (1000 ≤ v) }]

/-- Rows of `BEN` (R411): only the read index is written, and only directly (R551). -/
def rowsBen : List FRow := [{ (rwF 0xF024 0 9 0) with direct := true }]

/-- Reset words of `GOV_CLASSc` (R413). -/
def govClassReset : Nat → Nat × Nat
  | 0 => (2000, 4) | 1 => (2000, 6) | 2 => (1200, 5) | 3 => (1500, 2) | 4 => (1000, 1) | 5 => (1500, 3) | _ => (1000, 3)

/-- Rows of `GOV` (R412, R413). -/
def rowsGov : List FRow := [
  rwR 0x10014 0 16 0x4650 5000 22000,
  { ((rwR 0x10104 0 16 0 0 22000).arr 4 7) with rst := fun i => (govClassReset i).1 },
  { ((rwF 0x10104 16 3 0).arr 4 7) with rst := fun i => (govClassReset i).2 }]

/-- Rows of `SAF` (R443). -/
def rowsSaf : List FRow := [
  { (rwF 0x11014 0 32 0) with acc := .wo, direct := true },
  rwR 0x11018 0 8 10 1 60, rwR 0x11018 8 8 10 1 100, rwF 0x11018 16 1 0,
  { (rwF 0x1101C 0 32 0) with acc := .wo, direct := true }]

/-- What R431 and the other source tables say of a fault source: default class (0 = INFO, 1 = DEGRADE, 2 = FLEET_STOP,
3 = SAFE), floor, whether the class is fixed, and whether it is a level source. -/
structure SrcDef where
  cls : Nat
  floor : Nat := 0
  fixed : Bool := false
  level : Bool := false
deriving DecidableEq, Repr

/-- The sources that some chapter defines (R430). -/
def srcDef (n : Nat) : Option SrcDef :=
  match n with
  | 0x00 => some { cls := 3, level := true } | 0x01 => some { cls := 1, level := true }
  | 0x02 => some { cls := 2, level := true } | 0x03 => some { cls := 3, floor := 3, fixed := true }
  | 0x04 => some { cls := 2, level := true } | 0x05 => some { cls := 1 }
  | 0x06 => some { cls := 1, level := true } | 0x07 => some { cls := 1 }
  | 0x08 => some { cls := 3, level := true } | 0x09 => some { cls := 3, floor := 3, fixed := true, level := true }
  | 0x0A => some { cls := 2, level := true } | 0x0B => some { cls := 2, level := true }
  | 0x0C => some { cls := 1, level := true } | 0x0D => some { cls := 3, level := true }
  | 0x10 => some { cls := 1, level := true } | 0x11 => some { cls := 0 } | 0x12 => some { cls := 1 }
  | 0x13 => some { cls := 3 }
  | 0x20 => some { cls := 0 } | 0x21 => some { cls := 2 } | 0x22 => some { cls := 1 }
  | 0x23 => some { cls := 1, floor := 1 } | 0x24 => some { cls := 1, floor := 1 } | 0x25 => some { cls := 0 }
  | 0x26 => some { cls := 1 } | 0x27 => some { cls := 1, floor := 1 }
  | 0x28 => some { cls := 0 } | 0x29 => some { cls := 2, floor := 1 } | 0x2A => some { cls := 1 }
  | 0x2B => some { cls := 1 } | 0x2C => some { cls := 1 } | 0x2D => some { cls := 0 }
  | 0x38 => some { cls := 1 } | 0x39 => some { cls := 1 } | 0x3A => some { cls := 1 }
  | 0x3B => some { cls := 2, floor := 1 } | 0x3C => some { cls := 0 } | 0x3D => some { cls := 0 }
  | 0x40 => some { cls := 1, level := true } | 0x41 => some { cls := 1, level := true }
  | 0x42 => some { cls := 1, level := true } | 0x43 => some { cls := 1 }
  | 0x44 => some { cls := 1, level := true } | 0x45 => some { cls := 0, level := true }
  | 0x46 => some { cls := 1 } | 0x47 => some { cls := 0 } | 0x48 => some { cls := 1 } | 0x49 => some { cls := 1 }
  | 0x4A => some { cls := 0 } | 0x4B => some { cls := 1 } | 0x4C => some { cls := 1 } | 0x4D => some { cls := 1 }
  | 0x4E => some { cls := 1 } | 0x4F => some { cls := 0 }
  | 0x50 => some { cls := 1 } | 0x51 => some { cls := 1, level := true } | 0x52 => some { cls := 0 }
  | 0x53 => some { cls := 1 } | 0x54 => some { cls := 0 } | 0x55 => some { cls := 0 }
  | 0x60 => some { cls := 1 } | 0x61 => some { cls := 1 } | 0x62 => some { cls := 0 } | 0x63 => some { cls := 1 }
  | 0x64 => some { cls := 0 } | 0x65 => some { cls := 1 } | 0x66 => some { cls := 1 }
  | 0x68 => some { cls := 1 } | 0x69 => some { cls := 0 } | 0x6A => some { cls := 0 } | 0x6B => some { cls := 0 }
  | 0x6C => some { cls := 0 }
  | 0x70 => some { cls := 1 } | 0x71 => some { cls := 1 } | 0x72 => some { cls := 0 } | 0x73 => some { cls := 0 }
  | 0x74 => some { cls := 0 } | 0x75 => some { cls := 1 }
  | 0x7C => some { cls := 0 } | 0x7D => some { cls := 0 } | 0x7E => some { cls := 2, level := true }
  | 0x7F => some { cls := 2, level := true }
  | 0x80 => some { cls := 1 } | 0x81 => some { cls := 1 } | 0x82 => some { cls := 2 } | 0x83 => some { cls := 0 }
  | 0x84 => some { cls := 0 } | 0x85 => some { cls := 0 } | 0x86 => some { cls := 0 } | 0x87 => some { cls := 0 }
  | 0xA0 => some { cls := 1 } | 0xA1 => some { cls := 1 } | 0xA2 => some { cls := 0 } | 0xA3 => some { cls := 1 }
  | 0xA4 => some { cls := 1 } | 0xA5 => some { cls := 1 } | 0xA6 => some { cls := 0 }
  | 0xB0 => some { cls := 2, floor := 2, level := true } | 0xB1 => some { cls := 2, floor := 2, level := true }
  | 0xB2 => some { cls := 2, floor := 1 } | 0xB3 => some { cls := 3, floor := 2 } | 0xB4 => some { cls := 3, floor := 2 }
  | 0xB5 => some { cls := 3, floor := 3, fixed := true } | 0xB6 => some { cls := 3, floor := 2 }
  | 0xB7 => some { cls := 2, floor := 1 } | 0xB8 => some { cls := 1 }
  | 0xB9 => some { cls := 3, floor := 3, fixed := true } | 0xBA => some { cls := 3, floor := 3, fixed := true }
  | 0xBB => some { cls := 0 } | 0xBC => some { cls := 0 }
  | _ => none

/-- The definition of a source, or that of an INFO event source where no chapter defines it. -/
def srcDefD (n : Nat) : SrcDef := (srcDef n).getD { cls := 0 }

/-- R436: the sources with a hardware checker (ECC, parity, lockstep compare, CRC or PLL lock detector). DEDUCED from
what raises each source; the spec does not list the `NATIVE` bits. -/
def srcNative (n : Nat) : Bool :=
  [0x00, 0x01, 0x02, 0x13, 0x20, 0x21, 0x22, 0x23, 0x28, 0x29, 0x43, 0x50, 0xB5, 0xB9, 0xBA, 0xBB].contains n

/-- Rows of `FLT` (R437, R446). -/
def rowsFlt : List FRow := [
  (rwF 0x12080 0 32 0).arr 4 6,
  { ((rwE 0x12100 0 2 0 3).arr 8 192) with rst := fun i => (srcDefD i).cls },
  (rwF 0x12100 2 1 0).arr 8 192, (rwF 0x12100 3 1 0).arr 8 192,
  (rwR 0x12100 4 8 1 1 255).arr 8 192, (rwR 0x12100 12 12 1 1 4095).arr 8 192, (rwR 0x12100 24 8 60 1 236).arr 8 192]

/-- Reset edges of the diary classes (R453). -/
def dryEdges : Nat → List Nat
  | 0 => [1, 2, 3, 4, 5, 6, 7, 8, 10, 12, 16, 24, 32, 64, 128]
  | 1 => [100, 150, 200, 250, 300, 350, 400, 500, 600, 800, 1000, 1200, 1500, 2000, 3000]
  | 2 => [1, 2, 3, 4, 5, 7, 10, 15, 20, 30, 50, 75, 100, 300, 1000]
  | 3 => [1, 2, 3, 4, 5, 6, 7, 8, 9, 10, 11, 12, 13, 14, 15]
  | 4 => [1, 2, 3, 4, 5, 6, 7, 8, 9, 10, 11, 12, 13, 14, 15]
  | 5 => [10, 20, 30, 40, 50, 60, 80, 100, 120, 150, 200, 300, 500, 1000, 2000]
  | _ => [1, 2, 4, 8, 16, 32, 64, 128, 256, 512, 1024, 2048, 4096, 8192, 16384]

/-- Reset rate and burst of the diary classes 1-7 (R453). -/
def dryRate : Nat → Nat × Nat
  | 1 => (20, 40) | 2 => (20, 40) | 3 => (2, 10) | 4 => (10, 20) | 5 => (10, 20) | 6 => (1000, 2000) | _ => (10, 20)

/-- Rows of the edges of one diary class: word `m` holds `E(2m+1)` and `E(2m+2)` (R469). -/
def dryEdgeRows (c : Nat) : List FRow := [
  { base := 0x13104 + 0x40 * c, stride := 4, count := 8, lo := 0, w := 16, acc := if c = 0 then .ro else .rw,
    rst := fun m => (dryEdges c).getD (2 * m) 0 },
  { base := 0x13104 + 0x40 * c, stride := 4, count := 7, lo := 16, w := 16, acc := if c = 0 then .ro else .rw,
    rst := fun m => (dryEdges c).getD (2 * m + 1) 0 }]

/-- Rows of `DRY` (R452, R453, R469, R470). -/
def rowsDry : List FRow := [
  rwR 0x13014 0 8 6 1 255,
  { (rwF 0x1302C 0 32 0) with acc := .wo, direct := true },
  { (rwF 0x13080 31 1 0) with acc := .wo, direct := true },
  { ((rwR 0x13140 0 16 0 1 10000).arr 0x40 7) with rst := fun i => (dryRate (i + 1)).1 },
  { ((rwR 0x13140 16 16 0 1 65535).arr 0x40 7) with rst := fun i => (dryRate (i + 1)).2 }]
  ++ dryEdgeRows 0 ++ dryEdgeRows 1 ++ dryEdgeRows 2 ++ dryEdgeRows 3 ++ dryEdgeRows 4 ++ dryEdgeRows 5
  ++ dryEdgeRows 6 ++ dryEdgeRows 7

/-- Rows of `PAR` (R516). -/
def rowsPar : List FRow := [
  rwF 0x15014 0 1 0, rwF 0x15014 1 1 1, rwR 0x15014 8 10 100 10 1000,
  rwR 0x15018 0 8 10 2 50, rwR 0x15018 8 8 20 5 50]

end Sys2Proof.Machine
end

