-- ==== Sys2Proof/Machine/RegsB.lean ====
section
/-! DEFINITION. Register fields of the windows GNS, SNP, FRK, TRL, TXU, CTL, PRF, AXS, MAC, QUE and UPD, and the MSI-X table. -/
namespace Sys2Proof.Machine

/-- Rows of `SNP` (R143). -/
def rowsSnp : List FRow := [
  { (rwF 0x6014 0 16 60) with ok := fun v => decide (v = 0 ∨ (10 ≤ v ∧ v ≤ 3600)) }, rwR 0x6014 16 8 2 1 60,
  rwR 0x6014 24 8 3 1 20,
  rwR 0x6018 0 12 150 50 3000, rwR 0x6018 12 4 3 1 15, rwR 0x6018 16 4 5 4 15, rwR 0x6018 20 8 42 35 55,
  rwR 0x601C 0 8 100 10 250, rwR 0x601C 8 13 4000 500 5000, rwR 0x601C 21 11 180 10 2000]

/-- Rows of `FRK` (R171). `FRK_POSBUF_RD` is written by the host as it reads. -/
def rowsFrk : List FRow := [
  rwR 0x7014 0 8 30 15 100, rwR 0x7014 8 6 6 4 20, rwR 0x7014 16 6 16 8 40, rwR 0x7014 24 2 2 0 2,
  rwR 0x7018 0 8 30 5 100, rwR 0x7018 8 8 30 5 200, rwR 0x701C 0 8 50 30 100, rwR 0x701C 8 8 10 1 60,
  rwR 0x7020 0 11 60 10 2000, rwR 0x7020 16 8 25 5 100, rwR 0x7020 24 8 50 10 255,
  rwF 0x7024 0 1 0, (rwF 0x7028 0 32 0).arr 4 6,
  rwF 0x7040 6 26 0, rwF 0x7044 0 32 0, rwR 0x7048 0 5 6 6 16, rwF 0x7048 31 1 0, rwF 0x7050 0 32 0,
  rwR 0x7054 0 12 64 1 4095, rwF 0x7054 16 6 0, { (rwF 0x7068 0 8 0) with acc := .w1s }]

/-- Rows of `TRL` (R176, R206). -/
def rowsTrl : List FRow := [
  rwR 0x8014 0 8 30 10 100, rwR 0x8014 8 9 100 0 256, rwR 0x8018 0 16 50 10 500, rwR 0x8018 16 16 40 10 500,
  rwR 0x801C 0 16 500 100 2000, rwR 0x801C 16 8 10 4 32,
  rwR 0x8020 0 8 32 1 255, rwR 0x8020 8 8 60 20 90, rwR 0x8020 16 8 30 5 255, rwR 0x8020 24 8 30 1 255,
  { ((rwR 0x8100 0 12 0 0 1000).arr 4 16) with rst := fun c => if c = 0 then 50 else 0 },
  { ((rwR 0x8100 12 12 0 0 2000).arr 4 16) with rst := fun c => if c = 0 then 500 else 0 },
  { ((rwF 0x8100 24 1 0).arr 4 16) with rst := fun c => if c = 0 then 1 else 0 }]

/-- Rows of `TXU`: R15, R17, R19, R31, R248. -/
def rowsTxu : List FRow := [
  rwR 0x9010 0 12 200 50 4095, rwR 0x9010 12 12 1000 300 1500, rwR 0x9010 24 8 100 10 255, rwF 0x9014 0 1 1,
  { (rwR 0x9018 0 16 5 5 65535) with rule := 0x103 }, { (rwR 0x9018 16 16 30 30 65535) with rule := 0x103 },
  { (rwR 0x901C 0 16 100 100 65535) with rule := 0x103 }, { (rwR 0x901C 16 16 3000 3000 65535) with rule := 0x103 },
  rwR 0x9024 0 8 30 10 90, rwR 0x9024 8 8 100 20 255, rwR 0x9024 16 8 30 10 100,
  rwR 0x9028 0 8 4 0 16, rwF 0x9028 8 1 0, rwF 0x9028 9 1 0, rwR 0x9028 16 8 20 5 50,
  (rwF 0x9100 0 16 0).arr 0x20 16, (rwF 0x9100 16 16 0).arr 0x20 16, (rwF 0x9104 0 16 0).arr 0x20 16,
  (rwF 0x9104 16 16 0).arr 0x20 16, (rwF 0x9108 0 16 0).arr 0x20 16, (rwF 0x9108 16 16 0).arr 0x20 16,
  (rwF 0x910C 0 16 0).arr 0x20 16, (rwF 0x910C 16 16 0).arr 0x20 16, (rwF 0x9110 0 16 0).arr 0x20 16,
  (rwF 0x9110 16 1 0).arr 0x20 16, (rwF 0x9110 17 1 0).arr 0x20 16]

/-- Rows of `GNS` (R107, R109-R112, R142). -/
def rowsGns : List FRow := [
  { (rwR 0x5014 0 3 5 1 6) with rule := 2 }, rwR 0x5014 8 8 10 0 30, rwR 0x5014 16 8 30 20 45, rwF 0x5014 24 1 0,
  rwF 0x5018 0 16 0xFFFF,
  rwF 0x5060 0 1 1, rwR 0x5060 8 16 10 1 1440, rwR 0x5060 24 8 20 1 255,
  rwR 0x5064 0 4 0 0 12, { (rwF 0x5064 4 1 0) with acc := .w1s }, { (rwF 0x5064 5 1 0) with acc := .w1s },
  (rwF 0x5080 0 5 0).arr 0x10 6, (rwS 0x5080 8 24 2000000).arr 0x10 6, (rwR 0x5088 0 20 0 0 1000000).arr 0x10 6,
  rwR 0x5100 0 3 0 0 5, rwR 0x5100 8 6 0 8 32, { (rwF 0x5100 14 1 0) with acc := .w1s }, rwR 0x5100 16 4 9 4 15,
  rwF 0x5104 0 32 0,
  rwF 0x5110 0 8 10, rwR 0x5110 8 8 10 1 60, rwF 0x5110 16 12 0, rwF 0x5114 0 16 0xA539,
  rwF 0x514C 0 1 0, rwF 0x514C 1 1 1, rwR 0x514C 8 8 60 1 255,
  rwR 0x5150 0 8 10 1 100, rwR 0x5150 8 8 55 45 70, rwR 0x5150 16 8 6 4 20,
  rwR 0x5154 0 8 6 1 40, rwR 0x5154 8 8 15 0 60,
  rwF 0x5158 0 16 0x40, rwF 0x5158 16 16 0xA00,
  rwR 0x515C 0 8 15 5 40, rwR 0x515C 8 8 5 1 20, rwR 0x515C 16 8 5 4 12,
  rwR 0x5160 0 16 100 20 10000, rwR 0x5160 16 16 200 10 10000,
  rwR 0x5164 0 16 30 5 1000, rwR 0x5164 16 8 60 10 240,
  rwR 0x5168 0 8 3 1 10, rwR 0x5168 8 8 3 1 100, rwR 0x5168 16 8 30 5 255, rwR 0x5168 24 8 60 10 255]

/-- Rows of `UPD` (R494). -/
def rowsUpd : List FRow := [
  rwF 0x14014 0 12 144, rwR 0x14014 12 8 60 10 255, rwF 0x14014 20 8 0, rwF 0x14014 28 1 0]

/-- Rows of `CTL` (R280-R282). -/
def rowsCtl : List FRow := [
  rwR 0xA014 0 3 1 1 5, rwR 0xA014 8 8 30 10 100, rwR 0xA014 16 4 3 1 10, rwR 0xA014 20 4 4 1 15,
  rwR 0xA018 0 16 1000 0 10000, rwR 0xA01C 0 12 300 50 2000, rwR 0xA01C 12 12 100 10 2000, rwR 0xA01C 24 8 100 20 255,
  (rwF 0xA100 0 32 0).arr 4 256,
  (rwF 0xA500 0 5 0).arr 4 536, (rwF 0xA500 5 5 0).arr 4 536, (rwF 0xA500 10 1 0).arr 4 536,
  (rwF 0xA500 12 2 1).arr 4 24,
  { ((rwF 0xA500 18 1 0).arr 4 536) with acc := .w1c }, { ((rwF 0xA500 19 1 0).arr 4 536) with acc := .w1c }]

/-- Rows of `PRF` (R283). -/
def rowsPrf : List FRow := [rwR 0xB014 0 8 20 1 255, rwF 0xB014 8 8 20]

/-- Rows of `QUE` (R361). `QUE_FLUSH` and the clearing of `REFUSED` are reached by direct writes. -/
def rowsQue : List FRow := [
  { (rwF 0xE018 0 7 0) with acc := .wo, direct := true }, { (rwF 0xE018 8 1 0) with acc := .wo, direct := true },
  { (rwF 0xE01C 1 1 0) with acc := .w1c },
  (rwF 0xE100 0 1 0).arr 0x20 8, (rwF 0xE100 1 1 0).arr 0x20 8, (rwF 0xE100 8 8 0).arr 0x20 8,
  (rwF 0xE104 0 32 0).arr 0x20 8, (rwF 0xE108 0 32 0).arr 0x20 8, (rwF 0xE10C 0 32 0).arr 0x20 8,
  (rwF 0xE110 0 32 0).arr 0x20 8,
  (rwR 0xE800 0 5 8 4 16).arr 0x10 128, (rwF 0xE800 8 16 1).arr 0x10 128,
  (rwF 0xE804 0 16 64).arr 0x10 128, (rwF 0xE804 16 16 192).arr 0x10 128]

/-- Rows of `AXS` (R309-R311): axis `n` at 0x100 + 0x40`n`. `ENC_EN` and the encoder words exist on axes 0-15 only. -/
def rowsAxs : List FRow := List.map (fun (p : FRow × Nat) => { p.1 with stride := 0x40, count := p.2 }) [
  (rwF 0xC100 0 1 1, 24), (rwF 0xC100 1 2 0, 24), (rwF 0xC100 3 1 1, 16), (rwE 0xC100 4 2 1 2, 24), (rwF 0xC100 6 1 0, 24),
  (rwR 0xC100 8 8 20 10 255, 24), (rwR 0xC100 16 8 20 2 255, 24), (rwR 0xC100 24 8 10 1 255, 24),
  (rwF 0xC104 0 5 0, 24), (rwR 0xC104 8 10 10 1 500, 24), (rwR 0xC104 18 10 100 1 1000, 24),
  (rwR 0xC108 0 8 5 1 255, 24), (rwR 0xC108 8 16 10000 10 60000, 24),
  (rwR 0xC10C 0 21 10000 1 2000000, 24), (rwR 0xC110 0 32 100000 1 1000000000, 24),
  (rwF 0xC114 0 32 0, 24), (rwF 0xC118 0 32 1, 24), (rwR 0xC11C 0 32 0x10000 1 0xFFFFFFFF, 16),
  (rwR 0xC120 0 24 100 1 16777215, 24), (rwR 0xC120 24 8 50 1 255, 24), (rwR 0xC138 0 21 1000 1 2000000, 24)]

/-- Plan words of one lane (R319): `USE` of slots 0-2 is read-only. -/
def slotRows (n : Nat) : List FRow :=
  let b := 0xD800 + 0x100 * n
  let useRst : Nat → Nat := fun s => if s = 0 then 1 else if s ≤ 2 then 2 else if s ≤ 48 then 5 else if n = 0 then 4 else 5
  [{ base := b, count := 3, lo := 0, w := 4, acc := .ro, rst := useRst },
   { base := b + 12, count := 47, lo := 0, w := 4, rst := fun s => useRst (s + 3), rule := 2, ok := fun v => decide (v ≤ 7) },
   { base := b, count := 50, lo := 4, w := 9 }, { base := b, count := 50, lo := 13, w := 9 },
   { base := b, count := 50, lo := 22, w := 1 }, { base := b, count := 50, lo := 23, w := 1 }]

/-- Rows of `MAC` (R314, R319, R323, R346). -/
def rowsMac : List FRow := [
  rwF 0xD014 0 2 2, rwF 0xD018 0 32 0, rwF 0xD024 0 8 0, rwF 0xD024 8 8 0, rwF 0xD024 16 1 0, rwF 0xD024 17 1 0,
  (rwF 0xD100 0 1 0).arr 0x40 6, (rwR 0xD100 2 4 6 6 15).arr 0x40 6, (rwF 0xD100 6 1 0).arr 0x40 6,
  (rwF 0xD100 7 1 0).arr 0x40 6,
  (rwR 0xD108 0 12 168 1 4000).arr 0x40 6, (rwR 0xD108 12 12 96 1 2000).arr 0x40 6,
  (rwR 0xD10C 0 16 0x8235 1000 65535).arr 0x40 6, (rwR 0xD10C 16 16 200 1 390).arr 0x40 6,
  (rwR 0xD110 0 16 12000 0 40000).arr 0x40 6, (rwF 0xD110 16 16 2000).arr 0x40 6,
  (rwR 0xD300 0 4 0 0 8).arr 0x10 8, (rwF 0xD304 0 32 0).arr 0x10 8, (rwF 0xD308 0 32 0).arr 0x10 8,
  (rwF 0xD400 0 1 0).arr 0x20 16, (rwF 0xD400 1 1 0).arr 0x20 16,
  { ((rwF 0xD404 0 32 0).arr 0x20 16) with acc := .wo, direct := true },
  { ((rwF 0xD408 0 32 0).arr 0x20 16) with acc := .wo, direct := true },
  { ((rwF 0xD40C 0 32 0).arr 0x20 16) with acc := .wo, direct := true },
  { ((rwF 0xD410 0 32 0).arr 0x20 16) with acc := .wo, direct := true }]
  ++ slotRows 0 ++ slotRows 1 ++ slotRows 2 ++ slotRows 3 ++ slotRows 4 ++ slotRows 5

/-- The MSI-X table (R365, R375): address, data and the mask bit of each vector, masked at reset as the PCI Express
specification has it (PRESUMED, log entry 12). -/
def rowsMsix : List FRow := [
  (rwF 0x3E000 0 32 0).arr 16 64, (rwF 0x3E004 0 32 0).arr 16 64, (rwF 0x3E008 0 32 0).arr 16 64,
  (rwF 0x3E00C 0 1 1).arr 16 64]

end Sys2Proof.Machine
end

