-- ==== Sys2Proof/Machine/Regs.lean ====
section
/-! DEFINITION. The register file: which rows a window has, reset values composed from the fields (R550), and the
masks of the bits that can be written. -/
namespace Sys2Proof.Machine

/-- The field rows of a 4 KiB window, by block index (R10). -/
def rowsOf : Nat → List FRow
  | 0x01 => rowsPad | 0x02 => rowsHif | 0x03 => rowsMem | 0x04 => rowsTim | 0x05 => rowsGns | 0x06 => rowsSnp
  | 0x07 => rowsFrk | 0x08 => rowsTrl | 0x09 => rowsTxu | 0x0A => rowsCtl | 0x0B => rowsPrf | 0x0E => rowsQue
  | 0x0C => rowsAxs | 0x0D => rowsMac
  | 0x0F => rowsBen | 0x10 => rowsGov | 0x11 => rowsSaf | 0x12 => rowsFlt | 0x13 => rowsDry | 0x14 => rowsUpd | 0x15 => rowsPar
  | 0x3E => rowsMsix
  | _ => []

/-- The fields of one register, with the index of each in its array. -/
def fieldsAt (off : Nat) : List (FRow × Nat) :=
  (rowsOf (off / 4096)).filterMap fun r => (r.at? off).map fun i => (r, i)

/-- Reset value of a register: the composition of its fields' resets (chapter 19). -/
def resetReg (off : Nat) : Reg :=
  BitVec.ofNat 32 ((fieldsAt off).foldl (fun a p => a + (p.1.rst p.2 % 2 ^ p.1.w) * 2 ^ p.1.lo) 0)

/-- The bits of a register that some row of the given kinds covers. -/
def maskOf (off : Nat) (p : FRow → Bool) : Nat :=
  (fieldsAt off).foldl (fun a q => if p q.1 then a ||| ((2 ^ q.1.w - 1) * 2 ^ q.1.lo) else a) 0

/-- Bits that a staged entry may touch: RW and W1S fields not reached by direct writes only (R394 rule 0x0001, R551). -/
def stageMask (off : Nat) : Nat := maskOf off fun r => !r.direct && (r.acc == .rw || r.acc == .w1s)

/-- Bits that hold a stored RW value. -/
def rwMask (off : Nat) : Nat := maskOf off fun r => r.acc == .rw

/-- Is the offset a register of its window (reserved bits are those no row covers, R7)? -/
def knownReg (off : Nat) : Bool := !(fieldsAt off).isEmpty

end Sys2Proof.Machine
end

