-- ==== Sys2Proof/Machine/TypesA.lean ====
section
/-! DEFINITION. The parts of State that the chapters on time, the host interface, the stop path and faults, the diary,
the Bench and the governor, the pair, the DRAM and the pins give the device. Plain data throughout. -/
namespace Sys2Proof.Machine

/-- Run states (R26), in the order of `BLK_CTRL` of `SAF` (R443). -/
inductive RunState where
  | off | boot | standby | run | fleetStop | safe | updatePause
deriving DecidableEq, Repr

/-- Time states (R48). -/
inductive TimeState where
  | freeRun | acquiring | locked | holdover | jumpPending
deriving DecidableEq, Repr

/-- NT and the clocks beside it. `acc` is the accumulator of R43; `up` counts TIME cycles since power-on of `VDD_AON`
and is the time base of Rootstock's windows (R432) and of the operating time (R448); `trim` is `TIM_RATE_ADJ`, and
`slewLeft` the TIME cycles for which a slew still holds it (R52), and `hold` says that the last trim stays with no slew
running (HOLDOVER and JUMP_PENDING, R48). -/
structure Clock where
  acc  : Acc96 := 0
  up   : Nat := 0
  /-- `VDD_AON` is present. -/
  aon  : Bool := true
  trim : Int := 0
  slewLeft : Nat := 0
  hold : Bool := false
deriving DecidableEq, Repr

/-- The holdover model of R51. `lin` is the frequency part so far in 2^-30 of 0.01 ns, `lastAt` the NT up to which it
is summed, `forced` whether the frequency term is held at 50,000 ppb (R46). -/
structure HoldModel where
  start  : NT
  e0     : Nat
  lin    : Nat
  lastAt : NT
  forced : Bool
deriving DecidableEq, Repr

/-- A step that is certain and waits for its boundary (R49, R54): its size in ticks and the command it answers. -/
structure PendingStep where
  delta  : Int
  at_    : NT
  handle : Option Nat
deriving DecidableEq, Repr

/-- A pulse change waiting for its whole second (R58). -/
structure PpsChange where
  rate : Nat
  pol  : Nat
  width : Nat
  phase : Nat
  at_  : NT
  handle : Option Nat
deriving DecidableEq, Repr

/-- An armed capture (R60). -/
structure CapArm where
  handle : Nat
  edge   : Nat
  count  : Nat
  tStart : NT
  tEnd   : Option NT
  begun  : Bool
  made   : Nat
deriving DecidableEq, Repr

/-- A capture input (R62): the arm, the last edge, and whether an edge was lost. -/
structure CapInput where
  arm    : Option CapArm := none
  /-- Tick and 2^-38 s fraction of the last edge recorded. -/
  last   : Option (NT × Nat) := none
  lost   : Bool := false
  /-- The buffer of 16 records (R62): those of the arm that no `PROGRESS` entry carries yet, oldest first. -/
  buf    : List (List Byte) := []
  /-- NT, FRAC and FLAGS of the latest edge. -/
  nt     : NT := 0
  frac   : Nat := 0
  flags  : Nat := 0
  /-- The latch taken by a read of `_LO` (R62), of `_HI` and `_STAT`. -/
  latHi  : Nat := 0
  latStat : Nat := 0
deriving DecidableEq, Repr

/-- The time unit (R43-R69). -/
structure Tim where
  st        : TimeState := .freeRun
  ntValid   : Bool := false
  /-- `TIME_QUAL` as last judged in HOLDOVER (R51); in the other states it follows from the state (R48). -/
  qual      : Bool := false
  tdcCal    : Bool := false
  ppsQual   : Bool := false
  srcActive : Nat := 0
  everLocked : Bool := false
  /-- Latest measured offset, ns (R67). -/
  offset    : Int := 0
  /-- Rate of the slew in progress, ns/s (R52). -/
  slewRate  : Nat := 0
  lockCnt   : Nat := 0
  /-- NT of the last valid measurement. -/
  lastMeas  : NT := 0
  model     : Option HoldModel := none
  estErr    : Nat := 0
  /-- `TIM_PPSIN_SEC` written since the last edge (R47). -/
  labelled  : Bool := false
  step      : Option PendingStep := none
  /-- NT right after the latest step, and of the first beacon of the new timeline (R54). -/
  stepAt    : Option NT := none
  stepBeacon : Option NT := none
  ppsChange : Option PpsChange := none
  /-- The train in force: rate, polarity, width in us, phase in ns (R58). -/
  ppsRate   : Nat := 1
  ppsPol    : Nat := 0
  ppsWidth  : Nat := 100000
  ppsPhase  : Int := 0
  /-- NT of the last pulse placed on `PPS_OUT`. -/
  ppsLast   : Option NT := none
  /-- The whole NT second last judged (R49). -/
  secAt     : NT := 0
  /-- Next firing instant of each armed timed output (R63). -/
  outNext   : List (Option NT) := [none, none, none, none]
  ntHiLatch : Nat := 0
  bar4Latch : Nat := 0
deriving DecidableEq, Repr

/-- TDC units (R44, R69): the unit under recalibration next, units that failed, and whether the spare is taken. `since` is the
`up` at which the last reset ended (R57), and `calAt` that of the next recalibration. -/
structure Tdc where
  next   : Nat := 0
  since  : Nat := 0
  calAt  : Nat := 0
  failed : List Nat := []
  /-- Inputs left with `TDC_UNCAL` records until power cycle. -/
  uncal  : List Nat := []
deriving DecidableEq, Repr

/-- PLL locks and the reference (R69). -/
structure Pll where
  core : Bool := false
  corr : Bool := false
  time : Bool := false
  saf  : Bool := false
  dram : Bool := false
  pcie : Bool := false
  sgmii : Bool := false
  refOk : Bool := false
  hold : Bool := false
deriving DecidableEq, Repr

/-! ### Host interface -/

/-- Kinds of completion entry (R373). -/
inductive EntryKind where
  | accept | progress | done | event
deriving DecidableEq, Repr

/-- A completion entry (R373). `mid` is bytes 8-15, `result` bytes 16-31. -/
structure Entry where
  kind   : EntryKind
  lost   : Bool := false
  phase  : Bool := false
  op     : Nat := 0
  code   : Nat := 0
  handle : Nat := 0
  mid    : List Byte := []
  result : List Byte := []
deriving DecidableEq, Repr

/-- A submission ring (R368, R388). -/
structure Sq where
  err  : Nat := 0
  head : Nat := 0
  tail : Nat := 0
  /-- Next sequence number (R376). -/
  seq  : Nat := 1
deriving DecidableEq, Repr

/-- A completion ring (R368, R373-R375). `ring` holds the entries written and not yet consumed, oldest first; `hold`
is the hold buffer of R374; `unsig` counts the entries written since the last message. -/
structure Cq where
  head  : Nat := 0
  tail  : Nat := 0
  phase : Bool := false
  badHead : Bool := false
  lost  : Nat := 0
  lostFlag : Bool := false
  ring  : List Entry := []
  hold  : List Entry := []
  unsig : Nat := 0
  firstAt : NT := 0
deriving DecidableEq, Repr

/-- A live command (R376). `order` is the submission order (R372); `started` becomes true when its work begins;
`orphan` after a reset of the host interface (R367): its completions are discarded. -/
structure Live where
  handle : Nat
  sq     : Nat
  cq     : Nat
  tag    : Nat
  op     : Nat
  entry  : List Byte
  order  : Nat
  started : Bool := false
  openEnded : Bool := false
  orphan : Bool := false
deriving DecidableEq, Repr

/-- The host interface (R364-R389). -/
structure Hif where
  linkUp : Bool := false
  ready  : Bool := false
  bme    : Bool := false
  d0     : Bool := false
  speed  : Nat := 0
  lanes  : Nat := 0
  silent : Bool := false
  /-- `up` of the last doorbell or heartbeat (R384). -/
  fed    : Nat := 0
  sqs    : Tab Sq := []
  cqs    : Tab Cq := []
  live   : List Live := []
  nextOrder : Nat := 0
  /-- Resets of the interface so far, times 2^32: the model's own, added to the handles of R376 so that a command forgotten by the
  host (R367) is never mistaken for a later one. Entries carry the handle without it. -/
  gen    : Nat := 0
  /-- Next SQ of the round-robin (R372). -/
  rr     : Nat := 0
  /-- MSI-X pending bits (R375). -/
  msixPend : List Nat := []
deriving DecidableEq, Repr

/-! ### Stop path and faults -/

/-- A resume accepted and waiting for its boundary (R426); `State` holds every one that waits. -/
structure Resume where
  handle : Nat
  at_    : NT
deriving DecidableEq, Repr

/-- Fleet-wide stop being repeated (R327): cause, the decision, and for each lane the slot and number of its next
repeat. -/
structure StopBurst where
  cause : Nat
  at_   : NT
  lanes : List (Nat × Nat × Nat)
deriving DecidableEq, Repr

/-- Rootstock's copy of a lease (R416). -/
structure MirrorLease where
  st    : Nat := 0
  epoch : Nat := 0
  cls   : Nat := 0
  rx    : NT := 0
deriving DecidableEq, Repr

/-- Rootstock and the stop path (R414-R429, R442-R444). -/
structure Saf where
  run    : RunState := .boot
  /-- `RST_N` is released, and the boot sequence runs or has run. -/
  released : Bool := false
  inA    : Bool := false
  inB    : Bool := false
  latchA : Bool := true
  latchB : Bool := true
  safeForce : Bool := false
  clean  : Bool := false
  /-- `up` at which one channel latched alone (R421). -/
  loneAt : Option Nat := none
  dpFailA : Bool := false
  dpFailB : Bool := false
  /-- Which output the present or next dark pulse tests: false = A. -/
  dpNextB : Bool := false
  /-- A dark pulse is running (R423): whether its output read low in time, and whether a stop trip has voided it (R440). -/
  dpRun : Option (Bool × Bool) := none
  /-- `up` of the next edge of a dark pulse: the first test begins one `DP_PERIOD` after reset. -/
  dpAt : Nat := 2500000000
  nonce  : Nat := 0
  /-- `up` of the first release write. -/
  relAt  : Option Nat := none
  /-- The release is done and waits for the slot boundary. -/
  relDone : Bool := false
  resume : List Resume := []
  /-- A SAFE reaction taken in BOOT (R427): source and direct cause. -/
  bootSafe : Option (Nat × Bool) := none
  /-- The state an UPDATE_PAUSE came from. -/
  pausedFrom : Option RunState := none
  burst  : Option StopBurst := none
  /-- Heartbeats of the present epoch and consecutive misses of each planning core (R417). -/
  beats  : List Bool := [false, false, false, false]
  lastBeats : Nat := 0
  missed : List Nat := [0, 0, 0, 0]
  mirror : Tab MirrorLease := []
  /-- The slot boundary last judged. -/
  slotAt : NT := 0
  /-- Slot boundaries for which the mirror and the lease table have disagreed (R416). -/
  disagree : Nat := 0
  /-- Rootstock is restarting (R414): no beacon. -/
  restarting : Bool := false
  /-- The collector has been initialised (R429). -/
  initDone : Bool := false
  /-- `SAF_CAUSE`: source, validity and directness of the latest SAFE entry, and its NT (R443). -/
  safeCause : Option (Nat × Bool) := none
  causeNt : NT := 0
deriving DecidableEq, Repr

/-- States of a fault source (R432). -/
inductive SrcState where
  | idle | counting | active
deriving DecidableEq, Repr

/-- A fault source (R432, R447). `times` are the events inside the window, newest first; `quietAt` is when the quiet
period last began. Both are in `up` cycles, Rootstock's clock. -/
structure Src where
  st    : SrcState := .idle
  level : Bool := false
  /-- The condition itself holds, apart from a force bit. -/
  real  : Bool := false
  times : List Nat := []
  quietAt : Nat := 0
  recovery : Nat := 0
deriving DecidableEq, Repr

/-- An injection in progress (R436, R437). -/
structure Injection where
  handle : Nat
  source : Nat
  method : Nat
  count  : Nat
  /-- Checks made or pulses begun, and records they gave. -/
  done   : Nat := 0
  recs   : Nat := 0
  /-- `up` of the next check or edge, and whether a pulse is high. -/
  next   : Nat
  high   : Bool := false
deriving DecidableEq, Repr

/-- The fault collector (R430-R440, R445-R447). -/
structure Flt where
  srcs : Tab Src := []
  inj  : List Injection := []
  /-- Force bits held by a METHOD 2 pulse, beside `FLT_FORCEm`. -/
  pulse : List Nat := []
deriving DecidableEq, Repr

/-- What one command has still to settle before it ends: a fault occurrence (source, injected), a fleet stop with its
`ALL_STOP` cause, run-state cause and reason, or a safe-state entry with its source and whether it is direct. -/
inductive Todo where
  | fault (src : Nat) (inj : Bool)
  | stop (cause why reason : Nat)
  | safe (src : Nat) (direct : Bool)
deriving DecidableEq, Repr

/-! ### Field Diary -/

/-- NT and operating time of an occurrence (R448). -/
structure Stamp where
  nt : NT := 0
  pc : Nat := 0
  ps : Nat := 0
deriving DecidableEq, Repr

/-- A code record (R450). -/
structure Rec where
  valid : Bool := false
  satd  : Bool := false
  histReset : Bool := false
  badLoad : Bool := false
  count : Nat := 0
  drops : Nat := 0
  min_  : Nat := 0
  max_  : Nat := 0
  bins  : List Nat := []
  minAt : Stamp := {}
  maxAt : Stamp := {}
  first : Stamp := {}
  last  : Stamp := {}
  lastVal : Nat := 0
deriving DecidableEq, Repr

/-- A token bucket (R453): tokens spent, in 1/cycHz of a token, and the `up` at which it was last settled. -/
structure Bucket where
  spent : Nat := 0
  at_   : Nat := 0
deriving DecidableEq, Repr

/-- A black-box entry (R454). -/
structure BoxEntry where
  nt    : NT
  code  : Nat
  inj   : Bool := false
  forced : Bool := false
  value : Nat
  seq   : Nat
  pc    : Nat
  ps    : Nat
  detail : List Byte := []
deriving DecidableEq, Repr

/-- A last-word register (R462). -/
structure LastWord where
  code  : Nat
  value : Nat
  psec  : Nat
  seq   : Nat
  parErr : Bool := false
deriving DecidableEq, Repr

/-- A raw capture held for or in a flash slot (R126, R463). -/
structure Capture where
  trigger : Nat
  ports   : Nat
  /-- The blocks of R105, as the front-ends gave them. -/
  blocks  : List Byte
  at_     : Stamp
  /-- Being written to flash with leave, and written. -/
  writing : Bool := false
  persisted : Bool := false
deriving DecidableEq, Repr

/-- The Field Diary in on-chip memory (R448-R470). -/
structure Dry where
  sound0 : Bool := true
  sound1 : Bool := true
  recs   : Tab Rec := []
  buckets : Tab Bucket := []
  /-- Entries of the black box, newest first. -/
  box    : List BoxEntry := []
  seq    : Nat := 0
  frozen : Bool := false
  cause  : Nat := 0
  frozenAt : Nat := 0
  persisting : Bool := false
  /-- Commands waiting for the persist. -/
  waiters : List Nat := []
  lws    : Tab LastWord := []
  lwNext : Nat := 0
  lwSeq  : Nat := 0
  /-- The box as it froze, being persisted. -/
  img    : List BoxEntry := []
  /-- `up` of the last completed record snapshot, whether one asks leave or is being written, whether it is being
  written, and whether its lateness has been raised. -/
  snapAt : Nat := 0
  snapping : Bool := false
  snapRun : Bool := false
  late   : Bool := false
  caps   : Tab Capture := []
  /-- Power-fail writes are running or flash work is suspended (R460, R521). -/
  pfw    : Bool := false
  /-- A freeze asked for in this command, taken when its entries are in (R455). -/
  freezeReq : Option Nat := none
deriving DecidableEq, Repr

/-! ### Bench and governor -/

/-- States of the Bench (R390). -/
inductive BenchState where
  | empty | staged | checked | applying
deriving DecidableEq, Repr

/-- A staged entry (R391). -/
structure Staged where
  addr  : Nat
  value : Nat
  mask  : Nat
deriving DecidableEq, Repr

/-- A check in progress (R393): its command, the set it judges, and whether the staging area changed since it began (R390). -/
structure BenchCheck where
  handle : Nat
  ents   : List Staged
  stale  : Bool := false
deriving DecidableEq, Repr

/-- An apply in progress (R395). -/
structure BenchApply where
  handle : Nat
  mode   : Nat
  at_    : NT
  cut    : Bool
deriving DecidableEq, Repr

/-- The Potting Bench (R390-R400, R411). -/
structure Ben where
  st    : BenchState := .empty
  ents  : List Staged := []
  /-- Checks running, newest last. -/
  check : List BenchCheck := []
  apply_ : Option BenchApply := none
  /-- Loop slots held by a passing check (R257). -/
  held  : List Nat := []
  /-- Direct writes held during a planning pause (R392). -/
  heldWrites : List (Nat × Nat) := []
deriving DecidableEq, Repr

/-- What a leave is for (R403). -/
inductive Work where
  | snpBatch (id : Nat) | replan | graphLoad | largeSearch (slot : Nat) | scrub | migrate (rank : Nat)
  | flashHeader | flashSector (n : Nat) | diarySnapshot | persistCapture (slot : Nat) | bulkCopy | calib (grp : Nat)
deriving DecidableEq, Repr

/-- A request waiting for leave (R404). -/
structure LeaveReq where
  id    : Nat
  cls   : Nat
  mw    : Nat
  dur   : Nat
  asked : NT
  dead  : NT
  work  : Work
deriving DecidableEq, Repr

/-- A running grant (R405). -/
structure Grant where
  id    : Nat
  cls   : Nat
  mw    : Nat
  until_ : NT
  work  : Work
deriving DecidableEq, Repr

/-- The leave governor (R402-R408, R412). Powers in mW. -/
structure Gov where
  reqs   : List LeaveReq := []
  grants : List Grant := []
  nextId : Nat := 0
  /-- The highest 1 ms average of the last 10 ms (R402), with monitors counted at maximum rating (R408) in it. -/
  pmeas  : Nat := 0
  /-- Consumption is above the budget (R408), and the `up` since which every reading has been. -/
  overBudget : Bool := false
  overSince : Option Nat := none
  /-- Power groups counted at their maximum rating: those whose monitor failed, and the one under recalibration with the `up` at
  which its 2 s end. -/
  failed : List Nat := []
  recal  : Option (Nat × Nat) := none
  barrier : Bool := false
deriving DecidableEq, Repr

/-! ### Pair and DRAM -/

/-- Pair roles (R497) and mirror states (R501). -/
inductive Role where
  | none | active | standby
deriving DecidableEq, Repr
inductive Mirror where
  | alone | joining | sync | outOfSync
deriving DecidableEq, Repr

/-- A takeover in progress (R506, R508). -/
structure Takeover where
  mode   : Nat
  handle : Option Nat
  decided : NT
  toRun  : Bool
  promoted : Bool := false
deriving DecidableEq, Repr

/-- The pair unit (R496-R509, R516). -/
structure Par where
  role   : Role := .none
  mirror : Mirror := .alone
  token  : Bool := false
  tokenIn : Bool := false
  /-- `up` at which this unit took the token and awaits its confirmation. -/
  taking : Option Nat := none
  /-- `up` at which it last took the token. -/
  since  : Nat := 0
  aliveIn : Bool := false
  linkUp : Bool := false
  partner : PartnerFacts := {}
  /-- The mirror was in SYNC and this unit time-ready when the link was lost. -/
  wasSync : Bool := false
  /-- A `PAIR_JOIN` that waits: its command and the `up` it began at. -/
  join   : Option (Nat × Nat) := none
  /-- The bulk copy has ended and the first delta is awaited. -/
  bulkDone : Bool := false
  /-- The bulk copy: 0 none, 1 waiting for leave, 2 running; its size in MiB. -/
  bulk   : Nat := 0
  mib    : Nat := 0
  take   : Option Takeover := none
  /-- A planned handover on the outgoing unit (R508): its boundary S. -/
  hand   : Option NT := none
  offset : Int := 0
  takeNt : NT := 0
  lag    : Nat := 0
  /-- Sequence number of the last mirror frame applied. -/
  seq    : Nat := 0
deriving DecidableEq, Repr

/-- A DRAM rank (R511, R517). -/
structure Rank where
  present : Bool := false
  retired : Bool := false
  migrating : Bool := false
  ce  : Nat := 0
  ue  : Nat := 0
  used : Nat := 0
  blocks : Nat := 0
  /-- Cause of a retirement in progress (R514), and the powered hour that `ce` counts. -/
  cause : Nat := 0
  hour  : Nat := 0
deriving DecidableEq, Repr

/-- The DRAM controller (R511-R515, R517). -/
structure Mem where
  rank0 : Rank := {}
  rank1 : Rank := {}
  patrol : Bool := false
  /-- `up` at which the last patrol pass ended, and whether the one after it is known to be late (R511, R515). -/
  patrolAt : Nat := 0
  late : Bool := false
  scrub : Bool := false
  scrubWait : Bool := false
  ueAddr : Nat := 0
deriving DecidableEq, Repr

/-- Pins and sensors (R524, R547). -/
structure Pad where
  /-- Level class detected on banks 0-5. -/
  banks : List Nat := [0, 0, 0, 0, 0, 0]
  tj    : Int := 0
  tjIdx : Nat := 0
  /-- Levels of `TIME_OUTn` that a change of level holds (R63). -/
  timeOut : List Bool := [false, false, false, false]
deriving DecidableEq, Repr

end Sys2Proof.Machine
end

