-- ==== Sys2Proof/Machine/TypesB.lean ====
section
/-! DEFINITION. The parts of State of the depot axes (R285-R312) and of the radio (R313-R346). -/
namespace Sys2Proof.Machine

/-! ### Depot axes -/

/-- Axis states (R288). -/
inductive AxState where
  | disabled | idle | homing | moving | stopping | fault
deriving DecidableEq, Repr

/-- The move an axis runs (R300): mode 1 absolute, 2 relative, 3 velocity; the target in absolute steps; the command it
answers and the transaction it came by. -/
structure AxMove where
  handle : Option Nat
  txn    : Nat
  mmode  : Nat
  neg    : Bool
  target : Int
  v      : Nat
  a      : Nat
  j      : Nat
deriving DecidableEq, Repr

/-- A homing in progress (R305): phase 1 search, 2 back-off, 3 latch; `found` once the home event has happened. -/
structure Homing where
  handle : Nat
  ref    : Nat
  neg    : Bool
  vSearch : Nat
  vLatch : Nat
  backoff : Nat
  offset : Int
  max_   : Nat
  phase  : Nat
  found  : Bool := false
deriving DecidableEq, Repr

/-- A part of an axis's profile (R272, R297, R305): the change to `goal` steps/s within `acc` steps/s² and `jerk` steps/s³ (no jerk limit
where `jerk` is 0), then `hold` ns at that rate, or for good. -/
structure Leg where
  goal : Int
  acc  : Nat
  jerk : Nat := 0
  hold : Option Nat := none
deriving DecidableEq, Repr

/-- A depot axis. Positions are signed 32-bit step counts (R287). `en`, `short`, `dir` are its pins; `dir` is also the
direction of travel, true = negative. `endWith` is the status the move or homing completes with once a ramp is at rest;
`tripsP`, `tripsN` the trips inside the chatter window, in `up`; `restAt` the `up` since which it has been IDLE at rest; `waitEn` the wait
of `EN_DELAY`. -/
structure Axis where
  st      : AxState := .disabled
  en      : Bool := false
  short   : Bool := false
  dir     : Bool := false
  ref     : Bool := false
  pos     : Int := 0
  /-- Counts of the encoder, and what its position adds to them times `ENC_RATIO`, in 2^-16 step (R287, R305). -/
  encCnt  : Int := 0
  encOff  : Int := 0
  origin  : Int := 0
  latchP  : Bool := false
  latchN  : Bool := false
  inP     : Bool := false
  inN     : Bool := false
  inH     : Bool := false
  stand   : Bool := false
  chatter : Bool := false
  lastStop : Nat := 0
  tripsP  : List Nat := []
  tripsN  : List Nat := []
  move    : Option AxMove := none
  home    : Option Homing := none
  endWith : Option Nat := none
  restAt  : Nat := 0
  waitEn  : Bool := false
  /-- `up` at which `EN` last went high before a move (R304). -/
  enAt    : Nat := 0
  /-- The profile in motion, in units of 10^-6 step: its state at the `up` `kAt`, and its parts from there on. While they last, the
  position is theirs, and `pos` where they set out. -/
  k       : Kin := { s := 0, v := 0 }
  kAt     : Nat := 0
  legs    : List Leg := []
  /-- Loop correction (R302), 10^-6 step: worked off by the `up` `corAt`, and the rate since. -/
  off     : Int := 0
  cor     : Int := 0
  corAt   : Nat := 0
  /-- `TARGET_BEHIND` of the latest move (R283). -/
  behind  : Bool := false
  /-- Cause of FAULT, as `LAST_STOP` numbers it. -/
  faultBy : Nat := 0
deriving DecidableEq, Repr

end Sys2Proof.Machine
end

