-- ==== Sys2Proof/Machine/TypesD.lean ====
section
/-! DEFINITION. The parts of State of the radio MAC (R313-R346) and of the hardware queues (R347-R363). -/
namespace Sys2Proof.Machine

/-! ### Radio -/

/-- Lane states (R316), in the order of their codes. -/
inductive LaneState where
  | off | inService | retired | failed
deriving DecidableEq, Repr

/-- The code of a lane state. -/
def LaneState.code : LaneState → Nat
  | .off => 0 | .inService => 1 | .retired => 2 | .failed => 3

/-- A lane (R316, R318, R340): its state, consecutive transmissions without SFD and bad reads, the time to air of the latest pre-emption,
the last slot the base used on it, the slotframe of its last beacon or aborted beacon, and the first slotframe in which it beacons. `moving` is true while a retire
leaves its data slots to nodes that have not yet moved (R340). -/
structure Lane where
  st : LaneState := .off
  noSfd : Nat := 0
  badRd : Nat := 0
  toAir : Nat := 0
  lastSlot : Nat := 0
  beaconSf : Option Nat := none
  startSf : Option Nat := none
  moving : Bool := false
deriving DecidableEq, Repr

/-- A frame queued for the air. `prio` orders frames of slots 1 and 2 (R318), `pslot` sends it there; `txn` is the
transaction it belongs to (R352); `until_` a deadline, `from_` an earliest instant; `batch` the set-point
records of a batch, whose echo and time are filled in at launch (R330). -/
structure TxFrame where
  type_ : Nat
  dst : Nat
  epoch : Nat := 0
  body : List Byte := []
  lane : Nat
  key : Nat := 0
  pslot : Bool := false
  prio : Nat := 0
  txn : Nat := 0
  tries : Nat := 0
  handle : Option Nat := none
  from_ : NT := 0
  until_ : Option NT := none
  rx : Nat := 0xFFFF
  batch : List (Nat × List Byte) := []
  order : Nat := 0
deriving DecidableEq, Repr

/-- A route change on its way (R333, R340): its command, sets and deletes, the boundary it applies at, the nodes that
have not confirmed, and for a retire its lane and `FORCE`. -/
structure RouteChange where
  handle : Nat
  sets : List RouteEnt
  dels : List Nat
  applyAt : NT
  cfgVer : Nat
  waiting : List Nat
  retire : Option (Nat × Bool) := none
  applied : Bool := false
deriving DecidableEq, Repr

/-- A frame delivered by R338 to a consumer, waiting for it (R351): queue, lane, receipt, header and payload in clear, `DUP_HINT`, and
the NT of its SFD (R64). -/
structure RxItem where
  q : Nat
  lane : Nat
  rx : NT
  frame : List Byte
  dup : Bool
  sfd : NT := 0
deriving DecidableEq, Repr

/-- The radio MAC (R313-R346). -/
structure Mac where
  lanes : Tab Lane := []
  txq : List TxFrame := []
  order : Nat := 0
  inbox : List RxItem := []
  routes : List RouteEnt := []
  changes : List RouteChange := []
  fcnt : Nat := 0
  seen : Tab (List Nat) := []
  /-- Sends of the host in progress (R344) and their deadlines. -/
  sends : List (Nat × NT) := []
  keys : Tab Reg := []
  /-- Lanes are silent, but for stops, until this NT (R54). -/
  silentUntil : Option NT := none
  /-- Beacons still to carry `TIME_STEP`, and the step. -/
  stepBeacons : Nat := 0
  stepDelta : Int := 0
deriving DecidableEq, Repr

/-! ### Queues -/

/-- A hardware queue (R347-R357): the words held, oldest first; `begun` while the consumer is inside an item; `open_` whether
an item is open and `openN` its words pushed so far; `cut` while words are dropped until the next `SOP`; the capacity and
`CUT` in force while a change waits; with the spill organisation `head` and `tail` count the words in registers. -/
structure Queue where
  words : List QWord := []
  begun : Bool := false
  open_ : Bool := false
  openN : Nat := 0
  cut : Bool := false
  high : Bool := false
  full : Nat := 0
  flushCut : Nat := 0
  old : Option (Nat × Nat) := none
  head : Nat := 0
  tail : Nat := 0
deriving DecidableEq, Repr

/-- A flow-control pin (R360): its level before `POL`, and the `up` at which it last asserted. -/
structure Qfc where
  on : Bool := false
  at_ : Nat := 0
deriving DecidableEq, Repr

/-- The queue manager (R347-R363). -/
structure Que where
  queues : Tab Queue := []
  pins : Tab Qfc := []
  refused : Bool := false
  /-- A Bench apply has taken place since reset (R360). -/
  benched : Bool := false
deriving DecidableEq, Repr

end Sys2Proof.Machine
end

