-- ==== Sys2Proof/Machine/TypesE.lean ====
section
/-! DEFINITION. The parts of State of the GNSS engine (R70-R112), of the update engine (R471-R494), and what flash keeps
(R14, R28, R324, R448, R473, R497). -/
namespace Sys2Proof.Machine

/-- The persisted disposition of a slot (R28): 0 UNKNOWN, 1 RELEASED, 2 RELEASED with `PARKED` and a footprint, 3 live
(comes up `UNPLACED`); the epoch last issued (R14), the UID bound, and the footprint with its `GRAPH_ID`. -/
structure Disp where
  kind : Nat := 0
  epoch : Nat := 0
  uid : Nat := 0
  graphId : Nat := 0
  ents : List (Nat × Nat × Nat × Nat) := []
deriving DecidableEq, Repr

/-- What the diary's flash areas hold (R456, R458-R460): the current record snapshot, the two frozen images and the newest
power-fail block, each with the number of its write and its freeze cause, the record writes of later power-fail episodes, and the
persisted captures. -/
structure NvDry where
  snap  : Tab Rec := []
  seq   : Nat := 0
  img0  : Option (Nat × Nat × List BoxEntry) := none
  img1  : Option (Nat × Nat × List BoxEntry) := none
  pfw   : Option (Nat × Nat × List BoxEntry) := none
  pfwRecs : Tab Rec := []
  caps  : Tab Capture := []
deriving DecidableEq, Repr

/-- An image header (R477), in the fields that outlive its checks. -/
structure ImgHdr where
  sub : Nat := 0
  ver : Nat := 0
  sec : Nat := 0
  len : Nat := 0
  psize : Nat := 128
  count : Nat := 0
  hash : List Byte := []
  keySlot : Nat := 0
  revoke : Nat := 0
deriving DecidableEq, Repr

/-- What a bank holds (R471, R480): the header of its image, whether the image is whole, and the journal's `REJECTED`. -/
structure BankImg where
  hdr : ImgHdr := {}
  whole : Bool := true
  rejected : Bool := false
deriving DecidableEq, Repr

/-- A subsystem's entry of the selector record (R474). -/
structure Sel where
  bank : Nat := 0
  trial : Bool := false
  rejOther : Bool := false
  boots : Nat := 0
  ver : Nat := 0
deriving DecidableEq, Repr

/-- A download as its bank holds it (R480): the header in sector 0, the body sectors committed with their pieces, the journal's
`VERIFIED`, and the gateway from which it comes by air (DESIGN CHOICE, log entry 119: it outlives a loss of power). -/
structure FlashDl where
  hdr : ImgHdr
  bank : Nat
  sectors : List Nat := []
  pieces : List (Nat × List Byte) := []
  verified : Bool := false
  air : Option Nat := none
deriving DecidableEq, Repr

/-- The boot selector, the banks (listed as 2 `s` + bank), the rollback floors and the download of the flash devices (R473,
R474, R480, R482). -/
structure NvUpd where
  seq : Nat := 0
  sels : Tab Sel := []
  banks : Tab BankImg := []
  floors : Tab Nat := []
  dl : Option FlashDl := none
deriving DecidableEq, Repr

/-- An accepted header that waits to be written to sector 0 (R480): the commands it answers, and the gateway from which it came by air. -/
structure HdrWait where
  hdr : ImgHdr
  air : Option Nat := none
  handles : List Nat
  granted : Bool := false
deriving DecidableEq, Repr

/-- A header being assembled from its parts (R483), and a piece. -/
structure HdrAsm where
  tag : Nat
  parts : List (Nat × List Byte)
deriving DecidableEq, Repr
/-- A piece being assembled from `CUTTING` payloads (R483): its index, its CRC and its parts by number. -/
structure PieceAsm where
  idx : Nat
  crc : Nat
  parts : List (Nat × List Byte)
deriving DecidableEq, Repr

/-- An activation, or a revert, whose pause is to begin or runs (R485, R487): its command, the bank it goes to. -/
structure Activation where
  sub : Nat
  handle : Option Nat
  revert : Bool
  bank : Nat
  ver : Nat
  at_ : NT
deriving DecidableEq, Repr

/-- The persistent counters area and the other flash contents that outlive a power cycle (R28, R324, R448, R497). -/
structure Nv where
  disp : Tab Disp := []
  /-- First counter value of the block of 2^20 frames in use (R324). -/
  fcnt : Option Nat := none
  pcycle : Nat := 0
  dry    : NvDry := {}
  role : Role := .none
  upd : NvUpd := {}
deriving DecidableEq, Repr

/-- A tracking channel in use (R77, R78): what it tracks, when its continuous lock began (`none` while it acquires), and the
whole cycles that align its phase-range on the air (R102) and in RTCM messages (R98). -/
structure Chan where
  no   : Nat
  ant  : Nat
  sys  : Nat
  svid : Nat
  sig  : Nat
  lock : Option NT := none
  align : Option Int := none
  ralign : Option Int := none
deriving DecidableEq, Repr

/-- A sample port (R72, R73, R110, R116): `lost` from a clock loss to the return; `okSecs` and `togSecs` the seconds with a
coherent clock and with toggling bits still to come before its signals return; the sum and length (in 50 ms) of the noise
floors being learned. -/
structure Port where
  clkOk : Bool := false
  lost  : Bool := false
  coherent : Bool := false
  okSecs : Nat := 0
  stuck : Bool := false
  togSecs : Nat := 0
  occ   : Nat := 0
  sum   : Int := 0
  num   : Nat := 0
  learned : Option Int := none
  rise  : Int := 0
deriving DecidableEq, Repr

/-- A calibration (R79): its group, and whether it waits for leave (0), runs in parallel (1) or is measured (2). -/
structure Calib where
  grp   : Nat
  stage : Nat := 0
  start : NT := 0
deriving DecidableEq, Repr

/-- A position waiting for its epoch boundary (R90, R93): its command, kind (2 surveyed, 3 entered), and for an entered one
the antenna data, the baseline, and whether its plausibility waits for a solution. -/
structure Adoption where
  handle : Option Nat
  kind : Nat
  pos  : Int × Int × Int
  arp  : Option (Nat × Nat × List Byte) := none
  bl   : Option (Int × Int × Int) := none
  check : Bool := false
deriving DecidableEq, Repr

/-- A survey (R92). `used` counts 50 ms of used time; sums are over every used epoch and over the block in progress. -/
structure Survey where
  handle : Nat
  start  : NT
  minS   : Nat
  acc    : Nat
  maxS   : Nat
  out    : Bool
  used   : Nat := 0
  n      : Nat := 0
  sum    : Int × Int × Int := (0, 0, 0)
  bUsed  : Nat := 0
  bN     : Nat := 0
  bSum   : Int × Int × Int := (0, 0, 0)
  means  : List (Int × Int × Int) := []
  nsat   : Nat := 0
  nextAt : NT
deriving DecidableEq, Repr

/-- The RTCM stream (R97). -/
structure Stream where
  handle : Nat
  msm    : Nat
  div    : Nat
  arp    : Nat
  ant    : Nat
  len    : Nat
  nlen   : Nat
  off    : Nat := 0
  noff   : Nat := 0
deriving DecidableEq, Repr

/-- A raw capture of the host (R105). -/
structure RawCap where
  handle : Nat
  ports  : Nat
  ms     : Nat
  at_    : NT
  running : Bool := false
deriving DecidableEq, Repr

/-- An integrity machine (R121): its state, the last ten verdicts (true = WARN or FAIL), newest first, FAIL epochs in a row
while SUSPECT, entry to the state, and the last epochs with WARN or FAIL and with FAIL. -/
structure Integ where
  st    : Nat := 0
  hist  : List Bool := []
  fails : Nat := 0
  since : NT := 0
  badAt : NT := 0
  failAt : NT := 0
deriving DecidableEq, Repr

/-- A base epoch held for the fleet RTK array (R149): its tick, its records that pass R88, and the signals with `SLIP`. -/
structure HeldEpoch where
  t : NT
  cells : List BaseCell
  slips : List SigKey
deriving DecidableEq, Repr

/-- The offsets of a system's clock to that of the reference system in the NOMINAL station epochs of the last `XC_LEARN` minutes, newest
first (R119): the system, the reference system, the epoch's length in 50 ms, and the offset in ns. -/
abbrev XcLog := List (Nat × Nat × Nat × Int)

/-- The GNSS engine (R70-R126). -/
structure Gns where
  /-- 0 NO_CLOCK, 1 acquiring, 2 tracking. -/
  engine : Nat := 0
  ports  : Tab Port := []
  chans  : List Chan := []
  chShort : Bool := false
  spare  : Option Nat := some 12
  retired : List Nat := []
  calib  : Option Calib := none
  /-- The group of the next turn, and `up` at which it falls due. -/
  nextGrp : Nat := 0
  calFrom : Nat := 0
  /-- Code delay in ps and carrier-phase offset in 2^-24 cycle of each group and band (R79), listed as 3 `g` + band. -/
  delays : Tab (Int × Int) := []
  calCnt : Tab Nat := []
  swapped : List Nat := []
  /-- A front-end transfer that runs (R74): its chip select and its bit count. -/
  fe     : Option (Nat × Nat) := none
  /-- Position (R90): 0 NONE, 2 SURVEYED, 3 ENTERED; the antenna's data; the one waiting. -/
  base   : Nat := 0
  baseSeq : Nat := 0
  pos    : Int × Int × Int := (0, 0, 0)
  antHeight : Nat := 0
  antData : Nat × List Byte := (0, [])
  adopt  : Option Adoption := none
  adoptAt : Option NT := none
  /-- The plausibility check still to run (R93), and the live solution. -/
  unchecked : Bool := false
  live   : Option (Int × Int × Int) := none
  /-- Baseline (R94): 0 NONE, 1 SURVEYING, 2 VALID, 3 OUT_OF_RANGE. -/
  baseline : Nat := 0
  bl     : Int × Int × Int := (0, 0, 0)
  blSince : Option (NT × Int × Int × Int) := none
  refAnt : Nat := 0
  survey : Option Survey := none
  std    : Nat := 0
  /-- Epochs not published since the last published one, and since the last air set. -/
  gap    : Bool := false
  airGap : Bool := false
  airSets : Nat := 0
  clk    : Option (Int × Int) := none
  stream : Option Stream := none
  streamNext : Option Stream := none
  capture : Option RawCap := none
  capAt  : Option NT := none
  capNext : Nat := 0
  sigs   : Tab Integ := []
  sta    : Integ := {}
  floor  : Nat := 0
  /-- The last judged epoch held `FORCE_DENIED`. -/
  forced : Bool := false
  checks : Nat := 0
  taOk   : Bool := false
  xc     : XcLog := []
  held   : List HeldEpoch := []
  /-- The epoch tick last taken. -/
  epochAt : NT := 0
deriving DecidableEq, Repr

/-- The update engine (R479-R487), in what it does not keep in flash. `pause` is the subsystem whose activation pause runs and
`armed` the one whose pause is to begin; `hold` marks a boot hold, and `bad` the images that failed at this boot. `wait` is a
header that waits to be written; `failed` is a download that failed, and `ended` tells that the one in flash is no longer in
progress; `held` are pieces in DRAM, and `running` the body sectors whose leave runs. -/
structure Upd where
  pause : Option Nat := none
  armed : Option Nat := none
  pauseAt : NT := 0
  pauseUp : Nat := 0
  wait : Option HdrWait := none
  failed : Option ImgHdr := none
  ended : Bool := false
  held : List (Nat × List Byte) := []
  running : List Nat := []
  /-- `up` of the last piece received, and of the last need list. -/
  lastPiece : Nat := 0
  needAt : Nat := 0
  /-- The gateway to which a refusal owes a need list. -/
  needNow : Option Nat := none
  hasm : Option HdrAsm := none
  asm_ : List PieceAsm := []
  verify : Option Nat := none
  act : Option Activation := none
  /-- Subsystems whose trial has run out and whose revert waits. -/
  due : List Nat := []
  /-- What runs: the bank and the version of each subsystem. -/
  running_ : Tab (Nat × Nat) := []
  /-- `up` at which the trial of each subsystem began to count. -/
  since : Tab Nat := []
  /-- Length of the last activation pause of each subsystem, 0.1 ms. -/
  pauses : Tab Nat := []
  hold : Bool := false
  bad : List (Nat × Nat) := []
deriving DecidableEq, Repr

end Sys2Proof.Machine
end

