-- ==== Sys2Proof/Machine/State.lean ====
section
/-! DEFINITION. The state of the device, its faults and refusals, and the state right after reset. -/
namespace Sys2Proof.Machine

/-- Reasons to stop. Nothing in the spec halts the block, so no meaning raises one. -/
inductive Fault where
  /-- Raised by no meaning: a placeholder that keeps the type inhabited. Safe: nothing is claimed of it. -/
  | none_
deriving DecidableEq, Repr

/-- Reasons to refuse. -/
inductive Refusal where
  /-- Raised by the dispatch for a row whose meaning is not written. Safe: no claim is made of such a row. -/
  | notModelled (mnemonic : String)
deriving DecidableEq, Repr

/-- What left the device in the last command: the model's own record, emptied at the start of each. -/
inductive Out where
  /-- Bytes written to the host buffer `buf` (0 = D0, 1 = the second descriptor) of a command. -/
  | host (handle buf off : Nat) (bytes : List Byte)
  /-- An MSI-X message on a vector (R375). -/
  | msix (vec : Nat)
  /-- A frame put on air on a lane, as its type, destination and payload in clear; its octets are those of `radio`. -/
  | frame (lane type dst : Nat) (body : List Byte)
  /-- Octets sent on a lane's SPI port: command templates (R314), and after `LOAD_TX` a PSDU (R321). -/
  | radio (lane : Nat) (octets : List Byte)
  /-- A safety beacon on a lane (R325). -/
  | beacon (lane : Nat) (run : Bool) (ids : List Nat)
  /-- A fleet-wide stop on a lane (R327). -/
  | allStop (lane cause rep : Nat)
  /-- An SPI transfer on a front-end or tuning port. -/
  | spi (port : Nat) (bits : List Nat)
  /-- A pulse on a time pin, 0-3 = `TIME_OUTn`, 4 = `PPS_OUT`: its first edge, its width in ns and its active level (R58, R63). -/
  | pulse (pin : Nat) (at_ : NT) (ns : Nat) (high : Bool)
  /-- A lasting change of level on `TIME_OUTn` (R63). -/
  | level (pin : Nat) (at_ : NT) (high : Bool)
  /-- A pulse of 500 ns on `LNn_TXGO` (R64) and its rising edge. -/
  | txgo (lane : Nat) (at_ : NT)
  /-- A high pulse on a stop output while the rails rise (R520): the channel, true = B, and its length in ns. -/
  | stopPulse (chB : Bool) (ns : Nat)
  /-- What a pop of a queue returned: `none` is `VALID` = 0 and data 0 (R347, R355). -/
  | word (q : Nat) (w : Option QWord)
  /-- Bytes written to a circular host buffer: 0 the `DATA` buffer (R383) and 1 the position buffer (R161) at a host address, 2 the RTCM
  buffer and 3 the native buffer (R97) at an offset. -/
  | stream (which at_ : Nat) (bytes : List Byte)
  /-- A pair-link frame of mirror deltas (R501). -/
  | mirror (seq : Nat)
deriving DecidableEq, Repr

/-- Fuses (R2-R5, R477, R495). `keys` holds the slots programmed in [3:0] and those revoked in [7:4], `keyHash` the SHA-256 digest of
each slot's public key; slot 0 is programmed, and every digest is 0 (DESIGN CHOICE, log entry 38). Only the revocation of a key changes
a fuse (R488). -/
structure Fuse where
  /-- MB7-256 when true, MB7-64 when false. -/
  big : Bool := true
  dieId : List Nat := [0, 0, 0, 0]
  keys : Nat := 1
  keyHash : List (List Byte) := List.replicate 4 (List.replicate 32 0)
deriving DecidableEq, Repr

/-- The device: everything a command can read or change. -/
structure Dev where
  fuse : Fuse := {}
  clk  : Clock := {}
  tim  : Tim := {}
  tdc  : Tdc := {}
  pll  : Pll := {}
  caps : Tab CapInput := []
  /-- Set-up registers and counters of BAR0 by offset (R550); what is not listed stands at its reset value. -/
  regs : Tab Reg := []
  hif  : Hif := {}
  saf  : Saf := {}
  flt  : Flt := {}
  dry  : Dry := {}
  ben  : Ben := {}
  gov  : Gov := {}
  par  : Par := {}
  mem  : Mem := {}
  pad  : Pad := {}
  /-- Depot axes 0-23 (R285-R312). -/
  axes : Tab Axis := []
  /-- What flash keeps through a loss of power. -/
  nv   : Nv := {}
  gns  : Gns := {}
  snp  : Snp := {}
  frk  : Frk := {}
  trl  : Trl := {}
  txu  : Txu := {}
  ctl  : Ctl := {}
  mac  : Mac := {}
  que  : Que := {}
  upd  : Upd := {}
  /-- The model's own: free values drawn so far. -/
  free : Nat := 0
  /-- The model's own: what the running command has still to settle; empty between commands. -/
  todo : List Todo := []
  /-- The model's own: what left the device in the last command. -/
  out  : List Out := []
deriving DecidableEq, Repr

/-- The state: the device, and the commands that wait for it. -/
structure State extends Dev where
  /-- Commands waiting, first in, first out. -/
  pending : List Instr := []
deriving DecidableEq, Repr

/-- The device right after power-on: BOOT, NT 0, both stop latches set (R26, R49, R419). -/
def Dev.reset : Dev := {}

/-- The state right after power-on: no command waits. -/
def State.reset : State := { toDev := Dev.reset, pending := [] }

end Sys2Proof.Machine
end

