-- ==== Sys2Proof/Machine/Ops.lean ====
section
/-! DEFINITION. The named operations every meaning is built from: registers and their counters, the clock, free
values, completion entries and events of the host rings, and what is left to settle at the end of a command. -/
namespace Sys2Proof.Machine

/-! ### Registers -/

/-- Stored value of a register. -/
def Dev.reg (s : Dev) (off : Nat) : Reg := Tab.get resetReg s.regs off

/-- Store a register, keeping the canonical form. -/
def Dev.setReg (s : Dev) (off : Nat) (v : Reg) : Dev := { s with regs := Tab.set resetReg s.regs off v }

/-- A field of a register. -/
def Dev.fld (s : Dev) (f : Fld) : Nat := fieldOf (s.reg f.1) f.2.1 f.2.2

/-- Store one field. -/
def Dev.setFld (s : Dev) (f : Fld) (v : Nat) : Dev :=
  s.setReg f.1 (withField (s.reg f.1) f.2.1 f.2.2 v)

/-- Is a one-bit field set? -/
def Dev.flag (s : Dev) (f : Fld) : Bool := s.fld f = 1

/-- Count one more in a saturating field. -/
def Dev.cntSat (s : Dev) (f : Fld) : Dev := s.setFld f (satInc f.2.2 (s.fld f))

/-- Count one more in a wrapping field. -/
def Dev.cntWrap (s : Dev) (f : Fld) : Dev := s.setFld f (wrapInc f.2.2 (s.fld f))

/-- Count `n` more in a saturating field. -/
def Dev.cntSatN (s : Dev) (f : Fld) (n : Nat) : Dev := s.setFld f (sat f.2.2 (s.fld f + n))

/-! ### Time -/

/-- NT of a clock. -/
def Clock.nt (c : Clock) : NT := accNt c.acc

/-- NT now. -/
def Dev.nt (s : Dev) : NT := accNt s.clk.acc

/-- The instant of an edge `sub` units of 2^-38 s after the start of the present TIME cycle, as its tick and its fraction of a
tick in the same units (R44, R61). -/
def Dev.edgeAt (s : Dev) (sub : Nat) : NT × Nat :=
  let a := s.clk.acc.toNat / 2 ^ 24 + sub
  (BitVec.ofNat 64 (a / 256), a % 256)

/-- TIME cycles since power-on: the clock of Rootstock and of the operating time. -/
def Dev.up (s : Dev) : Nat := s.clk.up

/-- Powered seconds (R448). -/
def Dev.psec (s : Dev) : Nat := s.clk.up / cycHz

/-- A command begins: nothing has left the device yet. -/
def Dev.begin (s : Dev) : Dev := { s with out := [] }

/-- The clock `n` TIME cycles on (R43): the trim holds until the slew in progress is worked off (R52), or for as long as it is
held without a slew (R48). -/
def Clock.run (c : Clock) (n : Nat) : Clock :=
  if c.hold then { c with acc := accStep c.acc c.trim n, up := c.up + n }
  else
    let k := min n c.slewLeft
    { c with
      acc := accStep (accStep c.acc c.trim k) 0 (n - k)
      up := c.up + n
      slewLeft := c.slewLeft - k
      trim := if c.slewLeft ≤ n then 0 else c.trim }

/-- TIME cycles until NT first reaches `t`. -/
def Clock.cyclesTo (c : Clock) (t : NT) : Nat :=
  if c.hold then Machine.cyclesTo c.acc c.trim t
  else
  let k := Machine.cyclesTo c.acc c.trim t
  if k ≤ c.slewLeft then k
  else c.slewLeft + Machine.cyclesTo (accStep c.acc c.trim c.slewLeft) 0 t

/-- NT one TIME cycle ago. -/
def Clock.prevNt (c : Clock) : NT := accNt (c.acc - BitVec.ofInt 96 ((nomInc : Int) + c.trim))

/-- The next instant of a periodic row, `nxt` giving the first one strictly after an NT: one that falls in the present TIME cycle
is still due unless it is the one last judged, `last`. Rows that fall due at one instant therefore all take place at it. -/
def Dev.nextDue (s : Dev) (nxt : NT → NT) (last : NT) : NT :=
  let t := nxt s.clk.prevNt
  if ntReached s.clk.nt t && t != last then t else nxt s.clk.nt

/-- A command begins with the clocks at `c`. -/
def Dev.atClk (s : Dev) (c : Clock) : Dev := { s with out := [], clk := c }

/-- A command begins `n` TIME cycles after the previous one. -/
def Dev.tick (s : Dev) (n : Nat) : Dev := s.atClk (s.clk.run n)

/-- A command begins at NT `t`: the clock runs to the first TIME cycle at or after it, and stands if it has passed. -/
def Dev.tickTo (s : Dev) (t : NT) : Dev := s.tick (s.clk.cyclesTo t)

/-- A command begins at a given `up`. -/
def Dev.tickUp (s : Dev) (u : Nat) : Dev := s.tick (u - s.clk.up)

/-- Draw the next open value, `w` bits of it. -/
def Dev.draw (s : Dev) (w : Nat) : Nat × Dev :=
  ((Config.freeValue s.free).toNat % 2 ^ w, { s with free := s.free + 1 })

/-! ### What leaves the device -/

/-- Record an output of this command. -/
def Dev.emit (s : Dev) (o : Out) : Dev := { s with out := s.out ++ [o] }

/-- Leave something to settle at the end of this command. -/
def Dev.push (s : Dev) (t : Todo) : Dev := { s with todo := s.todo ++ [t] }

/-- Raise an event of a fault source (R432). -/
def Dev.raise (s : Dev) (src : Nat) : Dev := s.push (.fault src false)

/-- A fault source as the collector holds it. -/
def Dev.src (s : Dev) (n : Nat) : Src := Tab.get (fun _ => {}) s.flt.srcs n

/-- Replace the state of a fault source. -/
def Dev.setSrc (s : Dev) (n : Nat) (x : Src) : Dev :=
  { s with flt := { s.flt with srcs := Tab.set (fun _ => {}) s.flt.srcs n x } }

/-- Is a force bit of the source held (R437)? -/
def Dev.forced (s : Dev) (n : Nat) : Bool :=
  bitAt (s.reg (0x12080 + 4 * (n / 32))).toNat (n % 32) || s.flt.pulse.contains n

/-- The condition of a level source comes to hold: one event, unless its level already stands (R432). -/
def Dev.raiseLevel (s : Dev) (n : Nat) : Dev :=
  let x := s.src n
  let s := s.setSrc n { x with level := true, real := true }
  if x.level then s else s.raise n

/-- The condition of a level source ends; a held force bit keeps the level (R437). The quiet period begins anew. -/
def Dev.fallLevel (s : Dev) (n : Nat) : Dev :=
  let x := s.src n
  if !x.level then s
  else if s.forced n then s.setSrc n { x with real := false }
  else s.setSrc n { x with level := false, real := false, quietAt := s.clk.up }

/-! ### Completion rings (R368-R376) -/

/-- A submission ring. -/
def Dev.sq (s : Dev) (r : Nat) : Sq := Tab.get (fun _ => {}) s.hif.sqs r
def Dev.setSq (s : Dev) (r : Nat) (q : Sq) : Dev :=
  { s with hif := { s.hif with sqs := Tab.set (fun _ => {}) s.hif.sqs r q } }

/-- A completion ring. -/
def Dev.cq (s : Dev) (r : Nat) : Cq := Tab.get (fun _ => {}) s.hif.cqs r
def Dev.setCq (s : Dev) (r : Nat) (q : Cq) : Dev :=
  { s with hif := { s.hif with cqs := Tab.set (fun _ => {}) s.hif.cqs r q } }

/-- Ring configuration fields (R388). -/
def sqLog2 (r : Nat) : Fld := (0x2108 + 0x20 * r, 0, 4)
def sqCq (r : Nat) : Fld := (0x2108 + 0x20 * r, 8, 5)
def sqEn (r : Nat) : Fld := (0x2108 + 0x20 * r, 16, 1)
def cqLog2 (r : Nat) : Fld := (0x2508 + 0x20 * r, 0, 4)
def cqEn (r : Nat) : Fld := (0x2508 + 0x20 * r, 7, 1)
def cqVec (r : Nat) : Fld := (0x2508 + 0x20 * r, 8, 6)
def cqCoalN (r : Nat) : Fld := (0x2508 + 0x20 * r, 16, 8)
def cqCoalUs (r : Nat) : Fld := (0x2508 + 0x20 * r, 24, 8)

/-- Entries a ring holds (R368). -/
def Dev.cqSize (s : Dev) (r : Nat) : Nat := 2 ^ s.fld (cqLog2 r)
def Dev.sqSize (s : Dev) (r : Nat) : Nat := 2 ^ s.fld (sqLog2 r)

/-- Free slots of a completion ring. -/
def Dev.cqFree (s : Dev) (r : Nat) : Nat := s.cqSize r - (s.cq r).ring.length

/-- Live commands whose completions go to a ring: one slot each is held back for their `DONE` (R372). -/
def Dev.cqLive (s : Dev) (r : Nat) : Nat := (s.hif.live.filter fun l => l.cq == r && !l.orphan).length

/-- Send the message of a vector, or hold it pending while the vector is masked (R375). -/
def Dev.sendMsix (s : Dev) (v : Nat) : Dev :=
  if s.flag (0x3E00C + 16 * v, 0, 1) then
    { s with hif := { s.hif with msixPend := if s.hif.msixPend.contains v then s.hif.msixPend else v :: s.hif.msixPend } }
  else s.emit (.msix v)

/-- Count an entry toward the ring's message, and send it when `COAL_N` entries are unsignalled (R375). -/
def Dev.coalesce (s : Dev) (r : Nat) : Dev :=
  let q := s.cq r
  let n := q.unsig + 1
  if s.fld (cqCoalN r) ≤ n then (s.setCq r { q with unsig := 0 }).sendMsix (s.fld (cqVec r))
  else s.setCq r { q with unsig := n, firstAt := if q.unsig = 0 then s.nt else q.firstAt }

/-- Write one entry into the next slot of a ring (R373): the phase, the `LOST` mark, the tail's step and its wrap. -/
def Dev.cqWrite (s : Dev) (r : Nat) (e : Entry) : Dev :=
  let q := s.cq r
  let t := (q.tail + 1) % s.cqSize r
  (s.setCq r { q with
    ring := q.ring ++ [{ e with phase := q.phase, lost := q.lostFlag, handle := e.handle % 2 ^ 32 }]
    tail := t, phase := if t = 0 then !q.phase else q.phase, lostFlag := false }).coalesce r

/-- Discard an entry for a ring (R374, R382): counted in `LOST`, and marked in the next entry written. -/
def Dev.cqLose (s : Dev) (r : Nat) : Dev :=
  let q := s.cq r
  s.setCq r { q with lost := satInc 16 q.lost, lostFlag := true }

/-- Hand a `PROGRESS` or `EVENT` entry to a ring (R374): written where a slot is free beyond those held back, else held,
else discarded. The answer says whether it was discarded. An entry never overtakes one held before it. -/
def Dev.cqOffer (s : Dev) (r : Nat) (e : Entry) : Dev × Bool :=
  if !s.flag (cqEn r) then (s.cqLose r, true)
  else
    let q := s.cq r
    if q.hold.isEmpty && s.hif.bme && s.cqLive r < s.cqFree r then (s.cqWrite r e, false)
    else if (q.hold.filter fun x => x.kind != .done).length < 64 then
      (s.setCq r { q with hold := q.hold ++ [e] }, false)
    else (s.cqLose r, true)

/-- 16 result bytes. -/
def res16 (b : List Byte) : List Byte := slice b 0 16

/-- A `PROGRESS` or `EVENT` entry handed to the ring now would not find its hold buffer full (R374). -/
def Dev.cqTakes (s : Dev) (r : Nat) : Bool :=
  let q := s.cq r
  !s.flag (cqEn r) || (q.hold.isEmpty && s.hif.bme && s.cqLive r < s.cqFree r) || (q.hold.filter fun x => x.kind != .done).length < 64

/-- The CQ that receives a block's events (R382). -/
def Dev.evtCq (s : Dev) (code : Nat) : Nat :=
  let blk := code / 256
  s.fld (0x2020 + 4 * (blk / 6), 5 * (blk % 6), 5)

/-- An `EVENT` entry (R373). -/
def eventEntry (t : NT) (code : Nat) (res : List Byte) : Entry :=
  { kind := .event, code, mid := leBytes t.toNat 8, result := res16 res }

/-- Write an `EVENT`; a loss raises source 0x7D (R374, R382). -/
def Dev.event (s : Dev) (code : Nat) (res : List Byte) : Dev :=
  let (s, lost) := s.cqOffer (s.evtCq code) (eventEntry s.nt code res)
  if lost then s.raise 0x7D else s

/-- The live command of a handle. -/
def Dev.live? (s : Dev) (h : Nat) : Option Live := s.hif.live.find? fun l => l.handle == h

/-- Replace the live commands. -/
def Dev.setLive (s : Dev) (l : List Live) : Dev := { s with hif := { s.hif with live := l } }

/-- Can the ring of a command take or hold one more `PROGRESS` entry (R374)? -/
def Dev.takesEntry (s : Dev) (h : Nat) : Bool :=
  match s.live? h with
  | some l => l.orphan || s.cqTakes l.cq
  | none => true

/-- An entry of a command. -/
def cmdEntry (k : EntryKind) (l : Live) (code : Nat) (res : List Byte) : Entry :=
  { kind := k, op := l.op, code, handle := l.handle, mid := leBytes l.tag 8, result := res16 res }

/-- A `PROGRESS` entry of a live command. -/
def Dev.progress (s : Dev) (h code : Nat) (res : List Byte) : Dev :=
  match s.live? h with
  | some l =>
    if l.orphan then s
    else
      let (s, lost) := s.cqOffer l.cq (cmdEntry .progress l code res)
      if lost then s.raise 0x7D else s
  | none => s

/-- The command's `DONE` (R373, R374): it takes the slot held back for it, behind any held entry of the same command,
and the handle then names nothing (R376). After a reset of the host interface it is discarded (R367). -/
def Dev.doneRaw (s : Dev) (h code : Nat) (res : List Byte) : Dev :=
  match s.live? h with
  | some l =>
    let rest := s.hif.live.filter fun x => x.handle != h
    if l.orphan then s.setLive rest
    else
      let e := cmdEntry .done l code res
      let q := s.cq l.cq
      if q.hold.any fun x => x.handle == h && x.kind == .progress then
        s.setCq l.cq { q with hold := q.hold ++ [e] }
      else if s.flag (cqEn l.cq) then (s.setLive rest).cqWrite l.cq e
      else (s.setLive rest).cqLose l.cq
  | none => s

/-- Does a started `FENCE` wait for nothing more (R379)? `SCOPE` stands at byte 24 of the entry. -/
def fenceClear (live : List Live) (f : Live) : Bool :=
  f.started && f.op == 2 && live.all fun l =>
    !(l.order < f.order && !l.openEnded && l.orphan == f.orphan && (leAt f.entry 24 1 == 2 || l.sq == f.sq))

/-- Complete every fence whose wait is over (R379). -/
def Dev.settleFences : Nat → Dev → Dev
  | 0, s => s
  | n + 1, s =>
    match s.hif.live.find? (fenceClear s.hif.live) with
    | some f => Dev.settleFences n (s.doneRaw f.handle 0 [])
    | none => s

/-- Complete a command with a status (R373, R385). -/
def Dev.done (s : Dev) (h code : Nat) (res : List Byte) : Dev :=
  let s := s.doneRaw h code res
  s.settleFences s.hif.live.length

/-- Complete a command that may have none (a change made without one). -/
def Dev.doneOpt (s : Dev) (h : Option Nat) (code : Nat) (res : List Byte) : Dev :=
  match h with
  | some h => s.done h code res
  | none => s

/-- A general code as a refusal carries the offset of the offending field (R378); 0xFFFF_FFFF where no single field is. -/
def offsetRes (o : Option Nat) : List Byte := leBytes (o.getD 0xFFFFFFFF) 4

/-- Complete with a general code. -/
def Dev.refuse (s : Dev) (h code : Nat) (o : Option Nat) : Dev := s.done h code (offsetRes o)

/-- Status codes of R385. -/
def stOK : Nat := 0x0000
def stEmpty : Nat := 0x0001
def stBusy : Nat := 0x0010
def stNoLeave : Nat := 0x0011
def stBadDesc : Nat := 0x0020
def stBadLen : Nat := 0x0021
def stZero : Nat := 0x0022
def stDma : Nat := 0x0023
def stStopped : Nat := 0x0060
def stStale : Nat := 0x0061
def stSafe : Nat := 0x00F0

/-! ### The CORR clock -/

/-- A channel that starts anew: its lock time is 0 and its phase-range is aligned again. -/
def Chan.restart (c : Chan) : Chan := { c with lock := none, align := none, ralign := none }

/-- The CORR PLL loses its lock or its reference (R83): all channels stop. -/
def Dev.corrLost (s : Dev) : Dev :=
  { s with pll := { s.pll with corr := false }, gns := { s.gns with engine := 0 } }

/-- The CORR PLL locks again (R83). -/
def Dev.corrBack (s : Dev) : Dev :=
  { s with pll := { s.pll with corr := true }
           gns := { s.gns with engine := 1, chans := s.gns.chans.map Chan.restart, gap := true, airGap := true } }

/-! ### Starting a command of a ring -/

/-- A live command whose work can start: accepted and not started, with every earlier command of its own SQ started, the
order in which commands of one SQ start (R372), and no unfinished `FENCE` among them (R379). -/
def Dev.startable (s : Dev) (h op : Nat) : Option Live :=
  match s.live? h with
  | some l =>
    if l.op == op && !l.started &&
        !(s.hif.live.any fun f => (f.op == 2 || !f.started) && f.sq == l.sq && f.order < l.order && f.orphan == l.orphan)
    then some l else none
  | none => none

/-- Mark a command's work as begun. -/
def Dev.markStarted (s : Dev) (h : Nat) : Dev :=
  s.setLive (mapWhere (fun l => l.handle == h) (fun l => { l with started := true }) s.hif.live)

/-- Run a command's work if it can start; otherwise the row does not take place and nothing changes. -/
def Dev.command (s : Dev) (h op : Nat) (k : Live → Dev → Dev) : Dev :=
  match s.startable h op with
  | some l => k l (s.begin.markStarted h)
  | none => s

/-- The inline parameters of an entry (R369): `n` bytes at P+`o`. -/
def Live.p (l : Live) (o n : Nat) : Nat := leAt l.entry (24 + o) n
def Live.ps (l : Live) (o n : Nat) : Int := leAtS l.entry (24 + o) n

/-- Length of the data descriptor D0 (R370). -/
def Live.len (l : Live) : Nat := leAt l.entry 16 4

/-- An NT parameter. -/
def Live.pNt (l : Live) (o : Nat) : NT := BitVec.ofNat 64 (l.p o 8)

end Sys2Proof.Machine
end

