-- ==== Sys2Proof/Machine/Catalog.lean ====
section
/-! DEFINITION. The command catalogue (R380) as far as an entry alone decides: which parameter bytes a command has,
which encodings they may hold, its counts, its primary length, and orders 1 to 4 of R377 with the two rules of R11. -/
namespace Sys2Proof.Machine

/-- How a command uses D0 (R380). `data` carries the primary length; `optional` and `fixed` do not. -/
inductive D0Use where
  | none | data (exact : Option Nat) | optional | fixed
deriving DecidableEq, Repr

/-- One command of the catalogue: its parameters (offset in P, bytes), its counts (order 2), its use of D0, and the
second descriptor where it has one. -/
structure CatRow where
  fields : List (Nat × Nat)
  counts : List (Nat × Nat) := []
  d0 : D0Use := .none
  d2 : Option Nat := none

/-- The catalogue (R380). -/
def catalog : Nat → Option CatRow
  | 0x01 => some { fields := [] }
  | 0x02 => some { fields := [(0, 1)] }
  | 0x10 => some { fields := [(0, 8), (8, 4)] }
  | 0x11 => some { fields := [(0, 2), (2, 1), (4, 4), (8, 4)] }
  | 0x12 => some { fields := [(0, 8), (8, 8), (16, 2), (18, 1), (19, 1)], counts := [(16, 2)] }
  | 0x20 => some { fields := [(0, 4), (4, 4), (8, 4)], d0 := .optional }
  | 0x21 => some { fields := [], d0 := .data (some 128) }
  | 0x22 => some { fields := [(0, 8), (8, 1), (10, 2)], counts := [(8, 1)], d0 := .fixed }
  | 0x23 => some { fields := [(0, 1), (1, 1), (2, 2), (4, 2), (8, 16)], d0 := .data none, d2 := some 8 }
  | 0x28 => some { fields := [(0, 8), (8, 1), (9, 1), (10, 1), (16, 16)], counts := [(10, 1)], d0 := .data none,
                   d2 := some 16 }
  | 0x30 => some { fields := [(0, 2), (2, 2), (4, 2), (6, 2), (8, 1), (9, 1)] }
  | 0x31 => some { fields := [(0, 1), (1, 1), (2, 1), (4, 2)] }
  | 0x40 => some { fields := [], d0 := .data none }
  | 0x41 => some { fields := [(0, 8), (8, 2), (10, 2)], counts := [(10, 2)], d0 := .data none }
  | 0x42 => some { fields := [(0, 8), (8, 8), (16, 4), (20, 4), (24, 4), (28, 2), (30, 1), (31, 1)], d0 := .data none }
  | 0x51 => some { fields := [(0, 8), (8, 1), (9, 1)], counts := [(8, 1)], d0 := .data none }
  | 0x52 => some { fields := [(0, 4)] }
  | 0x58 => some { fields := [], d0 := .data none }
  | 0x59 => some { fields := [(0, 2), (2, 1)], d0 := .optional }
  | 0x5A => some { fields := [(0, 8), (8, 4), (12, 2), (14, 1), (15, 1)] }
  | 0x60 => some { fields := [(0, 8), (8, 2)] }
  | 0x61 => some { fields := [(0, 8), (8, 2), (10, 1)] }
  | 0x62 => some { fields := [(0, 8), (8, 2), (10, 1), (12, 2)] }
  | 0x68 => some { fields := [(0, 8), (8, 1), (16, 24)] }
  | 0x69 => some { fields := [(0, 4), (4, 4), (8, 4), (12, 4), (16, 4), (20, 1), (21, 1), (22, 1)] }
  | 0x6A => some { fields := [(0, 1), (1, 1)] }
  | 0x70 => some { fields := [(0, 4), (4, 2), (6, 1)], d0 := .data none }
  | 0x71 => some { fields := [(0, 1), (2, 2)], counts := [(2, 2)], d0 := .data none }
  | 0x72 => some { fields := [(0, 1), (1, 1), (2, 1), (4, 2)], d0 := .fixed }
  | 0x73 => some { fields := [], d0 := .data (some 64) }
  | 0x74 => some { fields := [(0, 1), (1, 1)] }
  | 0x80 => some { fields := [(0, 2)], counts := [(0, 2)], d0 := .data none }
  | 0x81 => some { fields := [] }
  | 0x82 => some { fields := [(0, 8), (8, 1)] }
  | 0x83 => some { fields := [] }
  | 0x88 => some { fields := [(0, 4), (4, 1), (5, 1)] }
  | 0x90 => some { fields := [(0, 4)] }
  | 0x91 => some { fields := [] }
  | 0x98 => some { fields := [(0, 1), (1, 1), (2, 2)], counts := [(2, 2)] }
  | 0x99 => some { fields := [(0, 1), (1, 1)] }
  | 0xA0 => some { fields := [(0, 2), (2, 2), (4, 1), (5, 1)], d0 := .data none }
  | 0xA1 => some { fields := [] }
  | 0xA2 => some { fields := [(0, 2), (2, 2)], counts := [(2, 2)], d0 := .data none }
  | 0xB0 => some { fields := [(0, 1)], d0 := .data (some 512) }
  | 0xB1 => some { fields := [(0, 2)], counts := [(0, 2)], d0 := .data none }
  | 0xB2 => some { fields := [(0, 1)] } | 0xB3 => some { fields := [(0, 1)] }
  | 0xB4 => some { fields := [(0, 1)] } | 0xB5 => some { fields := [(0, 1)] }
  | 0xC0 => some { fields := [(0, 1)] } | 0xC1 => some { fields := [(0, 1)] }
  | _ => none

/-- Of the checks of a list that fail, the lowest byte offset: the first offending field (R378). -/
def firstBad (l : List (Bool × Nat)) : Option Nat := ((l.filter fun p => !p.1).map (·.2)).min?

/-- The P bytes of an entry that a command lists. -/
def listed (c : CatRow) (o : Nat) : Bool := c.fields.any fun f => decide (f.1 ≤ o ∧ o < f.1 + f.2)

/-- The first reserved byte that is not 0 (R369): bytes 1-3, and the unlisted bytes of P. -/
def reservedBad (c : CatRow) (e : List Byte) : Option Nat :=
  let bad : Nat → Bool := fun o => (e.getD o 0) != 0
  ([1, 2, 3].find? bad).or
    (((List.range 40).find? fun o => !listed c o && bad (24 + o)).map (24 + ·))

/-- Judge one data descriptor at entry offset `o`, order 1 of R377 (R370). -/
def descBad (e : List Byte) (o : Nat) : Option Nat :=
  let sgl := bitAt (leAt e (o + 14) 1) 0
  let nsge := leAt e (o + 12) 2
  firstBad [(!sgl || leAt e o 8 % 16 == 0, o), (if sgl then nsge ≤ 4096 else nsge == 0, o + 12), (leAt e (o + 14) 1 < 2, o + 14),
    (leAt e (o + 15) 1 == 0, o + 15)]

/-- An empty scatter list of a data descriptor (R370), order 2 of R377. -/
def descZero (e : List Byte) (o : Nat) : Option Nat :=
  if bitAt (leAt e (o + 14) 1) 0 && leAt e (o + 12) 2 == 0 then some (o + 12) else none

/-- A `CORR_STREAM_CFG` that stops the stream (R97). -/
def streamStop (e : List Byte) : Bool := leAt e 24 1 == 0 && leAt e 26 2 == 0 && leAt e 28 2 == 0

/-- Encodings of `RTK_ADMIT_ROVER` (R151) and of `RTK_RESET_ROVER` (R167), of which `p o n` is `n` bytes at P+`o`. -/
def roverEnc (p : Nat → Nat → Nat) : List (Bool × Nat) :=
  [(p 0 2 ≠ 0, 24), (p 2 2 ≤ 2000, 26), (50 ≤ p 4 2 && p 4 2 ≤ 5000, 28), (10 ≤ p 6 2 && p 6 2 ≤ 2000, 30),
    (1 ≤ p 9 1 && p 9 1 ≤ 3, 33)]
def resetEnc (p : Nat → Nat → Nat) : List (Bool × Nat) :=
  [(p 1 1 == 1 || p 1 1 == 2, 25), (p 2 1 ≤ 2, 26), (p 2 1 == 0 || (1 ≤ p 4 2 && p 4 2 ≤ 600), 28)]

/-- Encodings of `MAC_FRAME_SEND` (R344), `MAC_ROUTE_SET` (R333) and `MAC_LANE_RETIRE` (R340). -/
def sendEnc (slots : Nat) (p : Nat → Nat → Nat) : List (Bool × Nat) :=
  [(10 ≤ p 0 4 && p 0 4 ≤ 600000, 24), (p 6 1 == 12 || (0x1000 ≤ p 4 2 && p 4 2 < 0x1000 + slots), 28),
    (p 6 1 == 12 || p 6 1 == 1, 30)]
def routeEnc (p : Nat → Nat → Nat) : List (Bool × Nat) := [(1 ≤ p 0 1 && p 0 1 ≤ 3, 24), (p 2 2 ≤ 512, 26)]
def retireEnc (p : Nat → Nat → Nat) : List (Bool × Nat) :=
  [(p 1 1 == 1 || p 1 1 == 2, 25), (p 2 1 ≤ 1, 26), (p 4 2 ≤ 512 && (p 1 1 == 1 || p 4 2 == 0), 28)]

/-- Encodings and ranges that a chapter refuses with `BAD_DESCRIPTOR` from the entry alone (order 1 of R377). -/
def encBad (big : Bool) (op : Nat) (e : List Byte) : Option Nat :=
  let p : Nat → Nat → Nat := fun o n => leAt e (24 + o) n
  let ps : Nat → Nat → Int := fun o n => leAtS e (24 + o) n
  let slots := if big then 256 else 64
  let loops := if big then 536 else 152
  let lanes := if big then 6 else 3
  match op with
  | 0x02 => firstBad [(p 0 1 == 1 || p 0 1 == 2, 24)]
  | 0x10 => firstBad [(1 ≤ p 8 4 && p 8 4 ≤ 1000000, 32)]
  | 0x11 => firstBad [(ppsRates.contains (p 0 2), 24), (p 2 1 ≤ 1, 26),
      (1 ≤ p 4 4 && p 4 4 ≤ 500000 / p 0 2, 28), ((ps 8 4).natAbs ≤ 500000, 32)]
  | 0x12 => firstBad [(p 18 1 ≤ 8, 42), (1 ≤ p 19 1 && p 19 1 ≤ 3, 43)]
  | 0x20 => firstBad [(60 ≤ p 0 4 && p 0 4 ≤ 86400, 24), (10 ≤ p 4 4 && p 4 4 ≤ 10000, 28),
      (p 8 4 == 0 || (p 0 4 ≤ p 8 4 && p 8 4 ≤ 172800), 32)]
  | 0x22 => firstBad [(p 8 1 < (if big then 64 else 8), 32), (p 10 2 ≤ 20, 34)]
  | 0x23 => firstBad [((List.range 4).all fun k => bits (p 0 1) (2 * k) 2 != 3, 24), (streamStop e || p 1 1 != 0, 25)]
  | 0x28 => firstBad [(1 ≤ p 8 1 && p 8 1 ≤ 3, 32), (p 8 1 != 2 || p 9 1 < slots, 33), (p 10 1 ≤ 16, 34)]
  | 0x30 => firstBad (roverEnc p ++ [(decide (p 8 1 < slots), 32)])
  | 0x31 => firstBad (resetEnc p ++ [(decide (p 0 1 < slots), 24)])
  | 0x41 => firstBad [(p 10 2 ≤ 256, 34)]
  | 0x42 => firstBad [(p 30 1 != 6 || (1 ≤ p 28 2 && p 28 2 ≤ 1000), 52), (1 ≤ p 30 1 && p 30 1 ≤ 6, 54), (1 ≤ p 31 1 && p 31 1 ≤ 15, 55)]
  | 0x51 => firstBad [(p 8 1 ≤ 64, 32), (p 9 1 ≤ 1, 33)]
  | 0x52 => firstBad [(p 0 4 < 2 ^ 24, 24)]
  | 0x60 => firstBad [(p 8 2 < loops, 32)]
  | 0x61 => firstBad [(p 8 2 < loops, 32)]
  | 0x62 => firstBad [(p 8 2 < loops, 32)]
  | 0x68 => firstBad [(p 8 1 < 24, 32)]
  | 0x69 => firstBad [(p 20 1 < 24, 44)]
  | 0x6A => firstBad [(p 0 1 < 24, 24)]
  | 0x70 => firstBad (sendEnc slots p)
  | 0x71 => firstBad (routeEnc p)
  | 0x72 => firstBad (retireEnc p ++ [(decide (p 0 1 < lanes), 24)])
  | 0x74 => firstBad [(p 0 1 < slots, 24), (p 1 1 == 1 || p 1 1 == 2, 25)]
  | 0x82 => firstBad [(p 8 1 == 1 || p 8 1 == 2, 32), (!(p 8 1 == 2 && p 0 8 ≠ 0), 24)]
  | 0x88 => firstBad [(p 0 4 ≤ 22000, 24), (1 ≤ p 4 1 && p 4 1 ≤ 7, 28), (p 5 1 ≤ 7, 29)]
  | 0x98 => firstBad [(p 0 1 ≤ 0xBF, 24), (p 1 1 == 1 || p 1 1 == 2, 25), (p 2 2 ≤ 1000, 26)]
  | 0x99 => firstBad [(p 1 1 ≤ 1, 25), (p 1 1 == 1 || p 0 1 ≤ 0xBF, 24)]
  | 0xA0 => firstBad [(p 4 1 == 1 || p 4 1 == 2, 28), (p 5 1 ≤ 3, 29),
      (p 4 1 == 2 || p 0 2 + p 2 2 ≤ 4096, 24)]
  | 0xA2 => firstBad [(p 0 2 + p 2 2 ≤ 8192, 24)]
  | 0xB0 => firstBad [(p 0 1 ≤ 1, 24)]
  | 0xB2 => firstBad [(1 ≤ p 0 1 && p 0 1 ≤ 5, 24)]
  | 0xB3 => firstBad [(1 ≤ p 0 1 && p 0 1 ≤ 5, 24)]
  | 0xB4 => firstBad [(1 ≤ p 0 1 && p 0 1 ≤ 5, 24)]
  | 0xB5 => firstBad [(1 ≤ p 0 1 && p 0 1 ≤ 5, 24)]
  | 0xC0 => firstBad [(p 0 1 == 1 || p 0 1 == 2, 24)]
  | 0xC1 => firstBad [(p 0 1 == 1 || p 0 1 == 2, 24)]
  | _ => none

/-- Does the command move data by D0 at all, and does D0's length decide order 3? `CORR_STREAM_CFG` that stops the
stream and a directed stop (R344) have no primary length. -/
def hasPrimary (op : Nat) (e : List Byte) (c : CatRow) : Bool :=
  match c.d0 with
  | .data _ => !(op == 0x23 && streamStop e) &&
               !(op == 0x70 && leAt e 30 1 == 1)
  | _ => false

/-- Counts whose zero is judged (order 2). A code count counts only with `SEL` = 1 (R463). -/
def countsOf (op : Nat) (e : List Byte) (c : CatRow) : List (Nat × Nat) :=
  if op = 0xA0 ∧ leAt e 28 1 = 1 then [(2, 2)] else c.counts

/-- The scatter list of a descriptor is read (R370). -/
def readsList (e : List Byte) (o : Nat) : Bool :=
  bitAt (leAt e (o + 14) 1) 0 && leAt e (o + 8) 4 != 0 && leAt e (o + 12) 2 != 0

/-- An element of a scatter list has a reserved byte that is not 0 (R7, R370): the refusal names no field of the entry, because
the list lies in neither the entry nor the data (DEDUCED, log entry 107). -/
def listBad (e : List Byte) (o : Nat) (l : List (Nat × Nat)) : Option Nat :=
  if readsList e o && l.any (fun x => x.2 != 0) then some 0xFFFFFFFF else none

/-- Orders 1 to 4 of R377 as an entry and its scatter lists (length and reserved bytes of each element) decide them: the status and
the offset of the field. DESIGN CHOICE (log entry 107): a command that takes no data leaves `D0` unread, so its reserved bits are
not judged there. -/
def judgeEntry (big : Bool) (e : List Byte) (sges sges2 : List (Nat × Nat)) : Option (Nat × Nat) :=
  let op := leAt e 0 1
  match catalog op with
  | none => some (stBadDesc, 0)
  | some c =>
    let usesD0 := c.d0 != .none
    let order1 : Option (Nat × Nat) :=
      ([reservedBad c e, if usesD0 then (descBad e 8).or (listBad e 8 sges) else none,
        c.d2.bind fun o => (descBad e (24 + o)).or (listBad e (24 + o) sges2), encBad big op e].filterMap id).min?.map fun o => (stBadDesc, o)
    let zero := ((countsOf op e c).filter fun f => leAt e (24 + f.1) f.2 == 0).map fun f => 24 + f.1
    let order2 : Option (Nat × Nat) :=
      ([if usesD0 then descZero e 8 else none, c.d2.bind fun o => descZero e (24 + o)].filterMap id ++ zero).min?.map
        fun o => (stZero, o)
    let len := leAt e 16 4
    let prim0 : Bool := (hasPrimary op e c && len == 0) || (op == 0x22 && leAt e 34 2 == 0)
    let sum (o : Nat) (l : List (Nat × Nat)) : Option (Nat × Nat) :=
      if bitAt (leAt e (o + 14) 1) 0 && leAt e (o + 8) 4 ≠ 0 && l.foldl (fun n x => n + x.1) 0 ≠ leAt e (o + 8) 4
      then some (stBadLen, o + 8) else none
    let order4 : Option (Nat × Nat) :=
      ((match c.d0 with
        | .data (some n) => if len ≠ n then some (stBadLen, 16) else none
        | _ => none) : Option (Nat × Nat)).or
      ((if usesD0 then sum 8 sges else none).or (c.d2.bind fun o => sum (24 + o) sges2))
    order1.or (order2.or (if prim0 then some (stEmpty, 0xFFFFFFFF) else order4))

/-- Open-ended commands (R380): a `FENCE` does not wait for them. -/
def openEnded (op : Nat) (e : List Byte) : Bool := op == 0x23 || (op == 0x12 && leAt e 32 8 == 0)

end Sys2Proof.Machine
end

