-- ==== Sys2Proof/Machine/Note.lean ====
section
/-! DEFINITION. One occurrence in the Field Diary (R449-R455, R462): its class, its token bucket, its code record and
its black-box entry; and the freeze of the black box. -/
namespace Sys2Proof.Machine

/-- Class of a diary code (R449); `none` for the reserved codes. -/
def codeClass (c : Nat) : Option Nat :=
  if c ≤ 0x0C9 then some 0
  else if c < 0x100 then none
  else if c ≤ 0x1FF then some 1
  else if c ≤ 0x2FF then some 2
  else if c ≤ 0x3FF then some 3
  else if c ≤ 0x410 then some 4
  else if 0x420 ≤ c ∧ c ≤ 0x42C then some 5
  else if c = 0x430 ∨ (0x440 ≤ c ∧ c ≤ 0x445) ∨ (0x450 ≤ c ∧ c ≤ 0x456) then some 6
  else none

/-- Edge `k` (1-15) of a class (R469). -/
def Dev.edge (s : Dev) (cls k : Nat) : Nat :=
  s.fld (0x13104 + 0x40 * cls + 4 * ((k - 1) / 2), 16 * ((k - 1) % 2), 16)

/-- The bin of a value (R452): the number of edges it reaches. -/
def Dev.bin (s : Dev) (cls v : Nat) : Nat :=
  ((List.range 15).filter fun k => decide (s.edge cls (k + 1) ≤ v)).length

/-- The diary's stamp now (R448). `DRY_PCYCLE` holds the power-cycle count. -/
def Dev.stamp (s : Dev) : Stamp := { nt := s.nt, pc := (s.reg 0x13018).toNat, ps := s.psec % 2 ^ 32 }

/-- Is the diary DEAF (R461)? -/
def Dev.deaf (s : Dev) : Bool := !s.dry.sound0 && !s.dry.sound1

/-- Tokens of a class per second and its burst (R453). -/
def dryRateF (c : Nat) : Fld := (0x13100 + 0x40 * c, 0, 16)
def dryBurstF (c : Nat) : Fld := (0x13100 + 0x40 * c, 16, 16)

/-- Judge the token bucket of a code (R453): whether the occurrence is granted, and the bucket afterwards. Class 0 has
none. -/
def Dev.bucket (s : Dev) (cls code : Nat) : Bool × Dev :=
  if cls = 0 then (true, s)
  else
    let b : Bucket := Tab.get (fun _ => {}) s.dry.buckets code
    let spent := b.spent - s.fld (dryRateF cls) * (s.up - b.at_)
    let ok := decide (spent + cycHz ≤ s.fld (dryBurstF cls) * cycHz)
    let b' : Bucket := { spent := if ok then spent + cycHz else spent, at_ := s.up }
    (ok, { s with dry := { s.dry with buckets := Tab.set (fun _ => {}) s.dry.buckets code b' } })

/-- One occurrence in a code record (R451, R452). -/
def Rec.occur (r : Rec) (t : Stamp) (v bin : Nat) (granted : Bool) : Rec :=
  let seen := r.valid || r.drops > 0
  let lower := !seen || v < r.min_
  let higher := !seen || r.max_ < v
  let r := { r with min_ := if lower then v else r.min_, minAt := if lower then t else r.minAt,
                    max_ := if higher then v else r.max_, maxAt := if higher then t else r.maxAt,
                    last := t, lastVal := v }
  if granted then
    let bs := if r.bins.isEmpty then List.replicate 16 0 else r.bins
    { r with
      count := satInc 32 r.count
      bins := bs.set bin (satInc 32 (bs.getD bin 0))
      first := if r.valid then r.first else t
      satd := r.satd || satInc 32 r.count == 2 ^ 32 - 1 || satInc 32 (bs.getD bin 0) == 2 ^ 32 - 1
      valid := true }
  else { r with drops := satInc 32 r.drops, satd := r.satd || satInc 32 r.drops == 2 ^ 32 - 1 }

/-- The code record of a code. -/
def Dev.rec_ (s : Dev) (c : Nat) : Rec := Tab.get (fun _ => {}) s.dry.recs c
def Dev.setRec (s : Dev) (c : Nat) (r : Rec) : Dev :=
  { s with dry := { s.dry with recs := Tab.set (fun _ => {}) s.dry.recs c r } }

/-- Number of black-box entries the ring holds (R454). -/
def boxSize : Nat := 8192

/-- Enter the black box, or count the entry missed while it is frozen (R454, R455). -/
def Dev.boxEntry (s : Dev) (code value : Nat) (inj forced : Bool) (detail : List Byte) : Dev :=
  if s.dry.frozen then s.cntSat (0x13024, 0, 16)
  else
    let seq := if s.dry.seq + 1 = 2 ^ 32 then 1 else s.dry.seq + 1
    let e : BoxEntry := { nt := s.nt, code, inj, forced, value, seq, pc := (s.reg 0x13018).toNat,
                          ps := s.psec % 2 ^ 32, detail }
    { s with dry := { s.dry with seq, box := (e :: s.dry.box).take boxSize } }

/-- Write the next last-word register (R462). -/
def Dev.lastWord (s : Dev) (code value : Nat) : Dev :=
  let w : LastWord := { code := code % 4096, value := value % 65536, psec := s.psec % 2 ^ 28, seq := s.dry.lwSeq % 8 }
  { s with dry := { s.dry with
      lws := Tab.set (fun _ => { code := 0, value := 0, psec := 0, seq := 8 }) s.dry.lws s.dry.lwNext w
      lwNext := (s.dry.lwNext + 1) % 8, lwSeq := (s.dry.lwSeq + 1) % 8 } }

/-- An occurrence of a code with its value (R451): `boxed` false for one that makes no entry of its own. -/
def Dev.occur (s : Dev) (code value : Nat) (inj forced boxed : Bool) (detail : List Byte) : Dev :=
  match codeClass code with
  | none => s
  | some cls =>
    let v := sat 16 value
    if s.deaf then (if cls = 0 then s.lastWord code v else s)
    else
      let (ok, s) := s.bucket cls code
      let s := s.setRec code ((s.rec_ code).occur s.stamp v (s.bin cls v) ok)
      if ok && boxed then s.boxEntry code v inj forced detail else s

/-- An occurrence that is no fault record. -/
def Dev.note (s : Dev) (code value : Nat) (detail : List Byte) : Dev := s.occur code value false false true detail

/-- A trigger of the freeze (R455): the first one of a command freezes the box when its entries are in; one that finds
the box frozen is recorded and counted, and changes nothing in it. -/
def Dev.freeze (s : Dev) (cause : Nat) : Dev :=
  if s.dry.frozen then (s.occur 0x0C6 cause false false false []).cntSat (0x13024, 16, 16)
  else if s.dry.freezeReq.isSome then s
  else { s with dry := { s.dry with freezeReq := some cause } }

/-- Take a freeze that was asked for (R455, R456): the box freezes, the freeze is recorded, event 0x1303 is written and
the persist begins. While DEAF there is no box to freeze. -/
def Dev.takeFreeze (s : Dev) : Dev :=
  match s.dry.freezeReq with
  | none => s
  | some c =>
    if s.deaf then { s with dry := { s.dry with freezeReq := none } }
    else
      let n := s.dry.box.length
      let s := { s with dry := { s.dry with freezeReq := none, frozen := true, cause := c, frozenAt := s.up,
                                            img := s.dry.box, persisting := true } }
      (s.occur 0x0C6 c false false false []).event 0x1303 (leBytes c 4 ++ leBytes n 2)

end Sys2Proof.Machine
end

