-- ==== Sys2Proof/Machine/Soft.lean ====
section
/-! DEFINITION. IEEE 754 binary32 in integers (R252): a value is its 32-bit pattern, and every operation rounds once, to
nearest, ties to even. -/
namespace Sys2Proof.Machine

/-- A binary32 bit pattern. -/
abbrev F32 := Nat

/-- Is a pattern finite? -/
def fFinite (a : F32) : Bool := bits a 23 8 != 255

/-- Sign of a pattern. -/
def fNeg (a : F32) : Bool := bitAt a 31

/-- The magnitude of a finite pattern as `n * 2^e`. -/
def fMag (a : F32) : Nat × Int :=
  let e := bits a 23 8
  if e = 0 then (bits a 0 23, -149) else (bits a 0 23 + 2 ^ 23, (e : Int) - 150)

/-- The infinity of a sign, which every operation here answers for a result that is not finite. -/
def fInf (neg : Bool) : F32 := 0x7F800000 + (if neg then 2 ^ 31 else 0)

/-- Half-even rounding of `n / 2^k`. -/
def halfEven (n k : Nat) : Nat :=
  let q := n / 2 ^ k
  let r := n % 2 ^ k
  if 2 * r < 2 ^ k then q else if 2 ^ k < 2 * r then q + 1 else q + q % 2

/-- The pattern nearest to `± n * 2^e`. -/
def fRound (neg : Bool) (n : Nat) (e : Int) : F32 :=
  let s := if neg then 2 ^ 31 else 0
  if n = 0 then s
  else
    let t : Int := max (e + (n.log2 : Int) - 23) (-149)
    let q := if t ≤ e then n * 2 ^ (e - t).toNat else halfEven n (t - e).toNat
    let b := (t + 149).toNat * 2 ^ 23 + q
    if 0x7F800000 ≤ b then fInf neg else s + b

/-- Negation. -/
def fNegate (a : F32) : F32 := if fNeg a then a - 2 ^ 31 else a + 2 ^ 31

/-- Sum. -/
def fAdd (a b : F32) : F32 :=
  if !fFinite a || !fFinite b then fInf (if fFinite a then fNeg b else fNeg a)
  else
    let (m, e) := fMag a
    let (n, f) := fMag b
    let g := min e f
    let x : Int := (m * 2 ^ (e - g).toNat : Nat)
    let y : Int := (n * 2 ^ (f - g).toNat : Nat)
    let z := (if fNeg a then -x else x) + (if fNeg b then -y else y)
    if z = 0 then (if fNeg a && fNeg b then 2 ^ 31 else 0) else fRound (decide (z < 0)) z.natAbs g

/-- Difference. -/
def fSub (a b : F32) : F32 := fAdd a (fNegate b)

/-- Product. -/
def fMul (a b : F32) : F32 :=
  let s := fNeg a != fNeg b
  if !fFinite a || !fFinite b then fInf s
  else fRound s ((fMag a).1 * (fMag b).1) ((fMag a).2 + (fMag b).2)

/-- Quotient; a division by zero is not finite. -/
def fDiv (a b : F32) : F32 :=
  let s := fNeg a != fNeg b
  if !fFinite a || !fFinite b || (fMag b).1 = 0 then fInf s
  else
    let n := (fMag a).1 * 2 ^ 64
    let q := n / (fMag b).1
    fRound s (2 * q + (if n % (fMag b).1 = 0 then 0 else 1)) ((fMag a).2 - (fMag b).2 - 65)

/-- Order of finite patterns; the two zeros are equal. -/
def fLe (a b : F32) : Bool :=
  let v : F32 → Int := fun x =>
    let n : Int := (x % 2 ^ 31 : Nat)
    if fNeg x then -n else n
  decide (v a ≤ v b)
def fLt (a b : F32) : Bool := !fLe b a
def fEq (a b : F32) : Bool := fLe a b && fLe b a
def fMax (a b : F32) : F32 := if fLe a b then b else a
def fMin (a b : F32) : F32 := if fLe a b then a else b

/-- Sign: -1, 0 or 1. -/
def fSign (a : F32) : Int := if a % 2 ^ 31 = 0 then 0 else if fNeg a then -1 else 1

/-- Magnitude. -/
def fAbs (a : F32) : F32 := a % 2 ^ 31

/-- The pattern nearest to a ratio. -/
def fOfRat (num : Int) (den : Nat) : F32 :=
  let n := num.natAbs * 2 ^ 64
  let q := n / den
  fRound (decide (num < 0)) (2 * q + (if n % den = 0 then 0 else 1)) (-65)

/-- A finite pattern times `k`, as the nearest integer, halves away from zero. -/
def fToInt (a : F32) (k : Nat) : Int :=
  let (m, e) := fMag a
  let v := if 0 ≤ e then m * k * 2 ^ e.toNat else (2 * m * k + 2 ^ (-e).toNat) / 2 ^ ((-e).toNat + 1)
  if fNeg a then -(v : Int) else v

/-- Largest `n` below `2^k` that satisfies a test that holds up to some bound and not beyond; 0 when none does. -/
def largest (p : Nat → Bool) : Nat → Nat → Nat
  | 0, n => n
  | k + 1, n => if p (n + 2 ^ k) then largest p k (n + 2 ^ k) else largest p k n

end Sys2Proof.Machine
end

