-- ==== Sys2Proof/Machine/Profile.lean ====
section
/-! DEFINITION. Jerk-limited speed curves (R272, R273): a state of motion in nm, nm/s and nm/s², its course under a constant jerk, and
the change of speed that ends at zero acceleration. Durations are whole nanoseconds, rounded down (DESIGN CHOICE, log entry 114). -/
namespace Sys2Proof.Machine

/-- One mm in nm. -/
def nmMm : Nat := 1000000

/-- A state of motion from whole mm and mm/s, without acceleration. -/
def Kin.at_ (s v : Int) : Kin := { s := s * nmMm, v := v * nmMm }

/-- Whole mm, rounded down and up, and whole mm/s to the nearest. -/
def Kin.sLo (k : Kin) : Int := k.s / nmMm
def Kin.sHi (k : Kin) : Int := -((-k.s) / nmMm)
def Kin.mmps (k : Kin) : Int := (2 * k.v + nmMm) / (2 * nmMm)

/-- The mirror image: the same motion with the direction of travel turned round. -/
def Kin.flip (k : Kin) : Kin := { s := -k.s, v := -k.v, a := -k.a }

/-- The course of `t` ns under the jerk `j` in nm/s³. -/
def Kin.run (k : Kin) (j : Int) (t : Nat) : Kin :=
  let u : Int := t
  { s := k.s + (6 * k.v * u * 1000000000000000000 + 3 * k.a * u * u * 1000000000 + j * u * u * u) / 6000000000000000000000000000
    v := k.v + (2 * k.a * u * 1000000000 + j * u * u) / 2000000000000000000
    a := k.a + j * u / 1000000000 }

/-- Nanoseconds that a change of `x` takes at `y` in the next lower derivative. -/
def nsFor (x y : Int) : Nat := (x * 1000000000 / max 1 y).toNat

/-- The parts of a change of speed to `goal` nm/s upward (R273): jerks and durations. `acc` and `jerk` are the limits in nm/s² and
nm/s³; the acceleration it starts with is taken to zero or beyond in the course of it. -/
def Kin.upPhases (k : Kin) (acc jerk goal : Int) : List (Int × Nat) :=
  let jerk := max 1 jerk
  let t0 : Nat := if acc < k.a then nsFor (k.a - acc) jerk else 0
  let k1 := k.run (-jerk) t0
  let a0 := min k1.a acc
  let gain := goal - k1.v
  let peak2 := (jerk * gain + a0 * a0 / 2).toNat
  let peak : Int := max a0 (min acc ((isqrtGo peak2 100 0 : Nat) : Int))
  let flat : Nat := if peak < acc then 0 else nsFor (gain - (2 * acc * acc - a0 * a0) / (2 * jerk)) acc
  [(-jerk, t0), (jerk, nsFor (peak - a0) jerk), (0, flat), (-jerk, nsFor (max 0 peak) jerk)]

/-- The speed at which the acceleration of a state is gone when it is taken off at once, nm/s. -/
def Kin.rest (k : Kin) (jerk : Int) : Int := k.v + k.a * (k.a.natAbs : Int) / (2 * max 1 jerk)

/-- Through phases for at most `t` ns: the state, and the time left when they have ended. -/
def Kin.through (k : Kin) : List (Int × Nat) → Nat → Kin × Option Nat
  | [], t => (k, some t)
  | (j, d) :: l, t => if t < d then (k.run j t, none) else Kin.through (k.run j d) l (t - d)

/-- A change of speed upward to `goal` for `t` ns, and at `goal` from its end on. -/
def Kin.climb (k : Kin) (acc jerk goal : Int) (t : Nat) : Kin :=
  match k.through (k.upPhases acc jerk goal) t with
  | (x, none) => x
  | (x, some r) => Kin.run { x with v := goal, a := 0 } 0 r

/-- `t` ns of the change of speed to `goal` (R273) within limits in mm/s² and mm/s³; `goal` in mm/s. -/
def Kin.toward (k : Kin) (acc jerk : Nat) (goal : Int) (t : Nat) : Kin :=
  let a : Int := acc * nmMm
  let j : Int := jerk * nmMm
  let g := goal * nmMm
  if k.rest j ≤ g then k.climb a j g t else (k.flip.climb a j (-g) t).flip

/-- Duration of phases. -/
def phasesNs (l : List (Int × Nat)) : Nat := l.foldl (fun n p => n + p.2) 0

/-- Duration of the change of speed to `goal`, ns. -/
def Kin.changeNs (k : Kin) (acc jerk : Nat) (goal : Int) : Nat :=
  let a : Int := acc * nmMm
  let j : Int := jerk * nmMm
  let g := goal * nmMm
  if k.rest j ≤ g then phasesNs (k.upPhases a j g) else phasesNs (k.flip.upPhases a j (-g))

/-- The state at the end of the change of speed to `goal`. -/
def Kin.changed (k : Kin) (acc jerk : Nat) (goal : Int) : Kin := k.toward acc jerk goal (k.changeNs acc jerk goal)

/-- One step of the plan, ns. -/
def stepNs : Nat := 100000000

/-- Course of the braking profile of R276 for `t` ns, forward: `acc` mm/s² is reached linearly in `lat` ms and held, to rest. -/
def Kin.brake (k : Kin) (acc lat t : Nat) : Kin :=
  let a : Int := acc * nmMm
  let j := max 1 (a * 1000 / max 1 lat)
  let t1 := nsFor (a + k.a) j
  let root : Int := isqrtGo (k.a * k.a + 2 * j * k.v).toNat 100 0
  let early := nsFor (root + k.a) j
  let x := k.run (-j) t1
  let stop := if early ≤ t1 then early else t1 + nsFor x.v a
  let at_ (u : Nat) : Kin := if u ≤ t1 then k.run (-j) u else Kin.run { x with a := -a } 0 (u - t1)
  if t < stop then at_ t else { at_ stop with v := 0, a := 0 }

/-- The state `ns` into a planned step. -/
def PlanStep.at_ (p : PlanStep) (ns : Nat) : Kin :=
  let t := ns - p.off
  if p.brk = 0 then p.k0.toward p.acc p.jerk p.goal t else p.k0.brake p.acc p.brk t

/-- Nanoseconds from the start of a slotframe to an instant in it. -/
def nsInto (sf : Nat) (t : NT) : Nat := ntSince t (BitVec.ofNat 64 (slotStart (50 * sf))) * 1000000000 / tickHz

/-- The planned state of a robot at `t`, where a step of its plan holds it. -/
def TrlRobot.kinAt (x : TrlRobot) (t : NT) : Option Kin :=
  let k := slotframeOf t.toNat
  (x.plan.find? fun q => q.sf == k).map fun q => q.at_ (nsInto k t)

/-- The reference of a robot at `t`: before the steps of its plan it stands where they set out, after them at the end of its grant. -/
def TrlRobot.refAt (x : TrlRobot) (t : NT) : Option Kin :=
  let wait := (x.plan.find? fun q => sfReached q.sf (slotframeOf t.toNat)).map fun q => { q.k0 with v := 0, a := 0 }
  ((x.kinAt t).or wait).or (x.sGrant.map fun g => Kin.at_ g 0)

/-! ### Profiles of the depot axes, in 10^-6 step -/

/-- Duration of a change of rate without a jerk limit (R297, R305), and its course of `t` ns. -/
def Kin.trapNs (k : Kin) (acc : Nat) (goal : Int) : Nat := nsFor (goal * nmMm - k.v).natAbs (acc * nmMm)
def Kin.trap (k : Kin) (acc : Nat) (goal : Int) (t : Nat) : Kin :=
  let g := goal * nmMm
  let n := k.trapNs acc goal
  let a : Int := acc * nmMm
  let x := Kin.run { k with a := if k.v ≤ g then a else -a } 0 (min t n)
  if t < n then x else Kin.run { x with v := g, a := 0 } 0 (t - n)

/-- Duration of a part's change of rate, and the part's course. -/
def Leg.changeNs (l : Leg) (k : Kin) : Nat := if l.jerk = 0 then k.trapNs l.acc l.goal else k.changeNs l.acc l.jerk l.goal
def Leg.course (l : Leg) (k : Kin) (t : Nat) : Kin := if l.jerk = 0 then k.trap l.acc l.goal t else k.toward l.acc l.jerk l.goal t

/-- The state `t` ns into a profile, and the parts not yet over. -/
def legsAt : List Leg → Kin → Nat → Kin × List Leg
  | [], k, _ => ({ k with v := 0, a := 0 }, [])
  | l :: r, k, t =>
    match l.hold with
    | none => (l.course k t, l :: r)
    | some h =>
      let n := l.changeNs k + h
      if t < n then (l.course k t, l :: r) else legsAt r (l.course k n) (t - n)

/-- When a profile is over; `none` for one that does not end. -/
def legsNs : List Leg → Kin → Option Nat
  | [], _ => some 0
  | l :: r, k =>
    match l.hold with
    | none => none
    | some h =>
      let n := l.changeNs k + h
      (legsNs r (l.course k n)).map (n + ·)

/-- The mirror image of a part. -/
def Leg.flip (l : Leg) : Leg := { l with goal := -l.goal }

/-- A move forward that ends at rest at `goal` (R272, R273), by the highest whole rate up to `v` from which that can be done. The first
part takes on this rate and holds it, the last one, under `acc'` and `jerk'`, comes to rest. -/
def reachLegs (k : Kin) (goal : Int) (v acc jerk acc' jerk' : Nat) : List Leg :=
  let go (g : Nat) : Leg := { goal := g, acc, jerk, hold := some 0 }
  let stop : Leg := { goal := 0, acc := acc', jerk := jerk', hold := some 0 }
  let at_ (g : Nat) : Kin := (go g).course k ((go g).changeNs k)
  let end_ (g : Nat) : Int := (stop.course (at_ g) (stop.changeNs (at_ g))).s
  let g := largest (fun g => decide (g ≤ v) && decide (end_ g ≤ goal)) 21 0
  if g = 0 then [stop] else [{ go g with hold := some (nsFor (goal - end_ g) (g * nmMm)) }, stop]

/-- A stop, and a wait at rest. -/
def haltLegs (acc jerk wait : Nat) : List Leg := [{ goal := 0, acc, jerk, hold := some wait }]

/-- A profile drawn in the direction `neg`; from motion the other way, or where `turn` says so, after a stop and a wait. -/
def drawLegs (k : Kin) (neg turn : Bool) (acc jerk wait : Nat) (draw : Kin → List Leg) : List Leg :=
  let way (k : Kin) : List Leg := if neg then (draw k.flip).map Leg.flip else draw k
  if turn || (if neg then decide (0 < k.v) else decide (k.v < 0)) then
    let halt := haltLegs acc jerk wait
    halt ++ way (legsAt halt k ((legsNs halt k).getD 0)).1
  else way k

/-- A move to `goal` 10^-6 step (R272, R273, R275), and whether its target is behind: it then stops, waits, and drives back. -/
def moveLegs (k : Kin) (goal : Int) (v acc jerk wait : Nat) : List Leg × Bool :=
  let rest := (k.changed acc jerk 0).s
  let neg := decide (goal < rest)
  let moving := k.v != 0 || k.a != 0
  let behind := moving && (if 0 < k.v || (k.v = 0 && 0 < k.a) then neg else decide (rest < goal))
  (drawLegs k neg behind acc jerk wait fun k => reachLegs k (if neg then -goal else goal) v acc jerk acc jerk, behind)

/-- A run at `v` (R292, R300, R305): without end, or to rest at an edge at `dec`. -/
def runLegs (k : Kin) (neg : Bool) (v acc jerk wait dec : Nat) (edge : Option Int) : List Leg :=
  drawLegs k neg false acc jerk wait fun k =>
    match edge with
    | none => [{ goal := v, acc, jerk }]
    | some e => reachLegs k (if neg then -e else e) v acc jerk dec 0

/-- Distance in 10^-6 step of a run from rest to rest at up to `v` within `dec` that takes `t` ns (R305). -/
def humpDist (v dec t : Nat) : Nat :=
  if 2 * v * 1000000000 ≤ dec * t then v * t / 1000 - v * v * nmMm / dec else dec * t * t / 4000000000000

/-- Nanoseconds after which a run from rest at `v`, reached within `dec`, has covered `d` steps (R305). -/
def runNs (v dec d : Nat) : Nat :=
  if 2 * dec * d ≤ v * v then isqrt (2 * d * 1000000000000000000 / max 1 dec)
  else (v * 1000000000) / max 1 dec + (2 * dec * d - v * v) * 1000000000 / max 1 (2 * dec * v)

end Sys2Proof.Machine
end

