-- ==== Sys2Proof/Machine/AxesOps.lean ====
section
/-! DEFINITION. Operations on depot axes (R285-R312): how a move ends, the hard and the ramp stop, and what the stop path
and the safe state do to all of them. -/
namespace Sys2Proof.Machine

def stAxsState : Nat := 0x0701
def stAxsPosLost : Nat := 0x0702
def stAxsHedge : Nat := 0x0703
def stAxsLatched : Nat := 0x0704
def stHomeLimit : Nat := 0x0705
def stHomeNotFound : Nat := 0x0706
def stAxsStopped : Nat := 0x0707
def stAxsFault : Nat := 0x0708

/-- Register fields of an axis (R309-R311). -/
def axF (n o lo w : Nat) : Fld := (0xC100 + 0x40 * n + o, lo, w)
def Dev.axMode (s : Dev) (n : Nat) : Nat := s.fld (axF n 0 1 2)
def Dev.axEnc (s : Dev) (n : Nat) : Bool := decide (n < 16) && s.flag (axF n 0 3 1)
def Dev.hedgeLo (s : Dev) (n : Nat) : Int := signed 32 (s.fld (axF n 0x14 0 32))
def Dev.hedgeHi (s : Dev) (n : Nat) : Int := signed 32 (s.fld (axF n 0x18 0 32))

/-- An axis. -/
def Dev.axis (s : Dev) (n : Nat) : Axis := Tab.get (fun _ => {}) s.axes n
def Dev.setAxis (s : Dev) (n : Nat) (a : Axis) : Dev := { s with axes := Tab.set (fun _ => {}) s.axes n a }

/-! ### The motion of an axis (R272, R286, R287, R302) -/

/-- Nanoseconds into the profile. -/
def Dev.axNs (s : Dev) (a : Axis) : Nat := 4 * (s.up - a.kAt)

/-- The profile of an axis `t` ns in. -/
def Axis.prof (a : Axis) (t : Nat) : Kin := (legsAt a.legs a.k t).1

/-- What the axis has done: its profile and the loop correction, by an `up`. -/
def Axis.kinAt (a : Axis) (up : Nat) : Kin :=
  let p := a.prof (4 * (up - a.kAt))
  { p with s := p.s + a.off + a.cor * (4 * (up - a.corAt) : Nat) / 1000000000, v := p.v + a.cor }
def Dev.axKin (s : Dev) (n : Nat) : Kin := (s.axis n).kinAt s.up

/-- Whole steps, to the nearest: a step is put out as the profile passes its middle (DESIGN CHOICE, log entry 116). -/
def Kin.steps (k : Kin) : Int := (2 * k.s + nmMm) / (2 * nmMm)

/-- The step count of an axis at an `up`, and now (R287). -/
def Axis.posAt (a : Axis) (up : Nat) : Int := if a.legs.isEmpty then a.pos else (a.kinAt up).steps
def Dev.axPos (s : Dev) (n : Nat) : Int := (s.axis n).posAt s.up

/-- The encoder's position in 2^-16 step, and in whole steps (R287). -/
def Dev.axEnc16 (s : Dev) (n : Nat) : Int :=
  let a := s.axis n
  a.encCnt * (s.fld (axF n 0x1C 0 32) : Nat) + a.encOff
def Dev.axEncPos (s : Dev) (n : Nat) : Int := s.axEnc16 n / 65536

/-- The direction of travel, true = negative: that of the rate, at rest that of the next part of the profile (R286). -/
def Axis.negAt (a : Axis) (up : Nat) : Bool :=
  let v := (a.kinAt up).v
  let next := ((legsAt a.legs a.k (4 * (up - a.kAt))).2.map (·.goal)).find? (· != 0)
  if v < 0 then true else if 0 < v then false else match next with | some g => decide (g < 0) | none => a.dir
def Dev.axNeg (s : Dev) (n : Nat) : Bool := let a := s.axis n; if a.legs.isEmpty then a.dir else a.negAt s.up

/-- The part of its profile that an axis is in, and those after it. -/
def Dev.axLeft (s : Dev) (n : Nat) : List Leg := let a := s.axis n; (legsAt a.legs a.k (s.axNs a)).2

/-- The `up` at which a profile that ends has ended. -/
def Axis.endUp (a : Axis) : Nat := match legsNs a.legs a.k with | some t => a.kAt + ceilDiv t 4 | none => a.kAt

/-- Has the profile ended? -/
def Dev.axOver (s : Dev) (n : Nat) : Bool := let a := s.axis n; (legsNs a.legs a.k).isSome && decide (a.endUp ≤ s.up)

/-- The step count, and the direction, as they stand. -/
def Dev.axSync (s : Dev) (n : Nat) : Dev := s.setAxis n { s.axis n with pos := s.axPos n, dir := s.axNeg n }

/-- An axis that puts out no more steps, at the step count it has. -/
def Axis.still (a : Axis) (pos : Int) : Axis := { a with pos, legs := [], k := { s := 0, v := 0 }, off := 0, cor := 0 }

/-- An axis on a profile from a state at an `up`, without correction. -/
def Axis.drive (a : Axis) (k : Kin) (up : Nat) (legs : List Leg) : Axis := { a with k, kAt := up, legs, off := 0, cor := 0, corAt := up }

/-- Rest at a count. -/
def Kin.still (pos : Int) : Kin := Kin.at_ pos 0

/-- Is the axis ramping to rest at `DEC_LIM` to the edge of its window (R288, R292)? -/
def Dev.axEdging (s : Dev) (n : Nat) : Bool :=
  (s.axis n).st == .moving && match s.axLeft n with | [l] => l.jerk == 0 && l.goal == 0 | _ => false

/-- Is the axis at rest (R288)? -/
def Axis.atRest (a : Axis) : Bool := a.st = .disabled || a.st = .idle || a.st = .fault

/-- The Hedge window in absolute steps (R292): none in SERVICE, relative to the origin in RECOVERY. -/
def Dev.hedge (s : Dev) (n : Nat) : Option (Int × Int) :=
  match s.axMode n with
  | 0 => none
  | 3 => some ((s.axis n).origin + s.hedgeLo n, (s.axis n).origin + s.hedgeHi n)
  | _ => some (s.hedgeLo n, s.hedgeHi n)

/-- Result bytes of a finished move or homing (R381): `pos` stands. -/
def axRes (txn : Option Nat) (a : Axis) : List Byte :=
  (match txn with
   | some t => leBytes t 3 ++ [0] ++ leBytes 0 4 ++ [0xFF]
   | none => leBytes 0 9) ++ leBytes a.lastStop 1 ++ [0, 0] ++ leBytes (unsigned 32 a.pos) 4

/-- The move or homing of an axis ends with a status: its command completes (R300, R305). -/
def Dev.axEnd (s : Dev) (n code : Nat) : Dev :=
  let a := s.axis n
  let s := s.setAxis n { a with move := none, home := none, endWith := none }
  match a.home, a.move with
  | some h, _ => s.done h.handle code (axRes none a)
  | none, some m => s.doneOpt m.handle code (axRes (some m.txn) a)
  | none, none => s

/-- A REFERENCED axis becomes LOST (R289, R308). -/
def Dev.axLose (s : Dev) (n : Nat) : Dev :=
  let a := s.axis n
  if a.ref then (s.setAxis n { a with ref := false }).raise 0xA6 else s

/-- A hard stop of a moving axis (R297, R289): no new pulse; the position is kept by the encoder or lost. The axis goes
to `dest`, and its move or homing completes with `code`. -/
def Dev.axHard (s : Dev) (n why code : Nat) (dest : AxState) : Dev :=
  let a := s.axis n
  let fault := dest == .fault
  let pos := if s.axEnc n then s.axEncPos n else s.axPos n
  let a' := { a.still pos with st := dest, lastStop := why, restAt := s.up, waitEn := false, dir := s.axNeg n,
                               en := if dest == .idle then a.en else false, short := if dest == .idle then a.short else false,
                               faultBy := if fault then why else a.faultBy }
  let s := s.setAxis n a'
  let s := if s.axEnc n then s else s.axLose n
  s.axEnd n code

/-- A ramp stop begins (R297): the axis passes through STOPPING, and completes with `code` at rest. A stop already
ramping goes on. -/
def Dev.axRamp (s : Dev) (n why code : Nat) : Dev :=
  let a := s.axis n
  if (a.st == .moving && !s.axEdging n) || a.st == .homing then
    let dec := s.fld (axF n 0x10 0 32)
    s.setAxis n { a.drive (s.axKin n) s.up (haltLegs dec 0 0) with
      st := .stopping, lastStop := why, endWith := some code, dir := s.axNeg n, waitEn := false }
  else s

/-- A stop-path trip or a hard cause of R298 on one axis: only an axis in motion stops. -/
def Dev.axTrip (s : Dev) (n why : Nat) : Dev :=
  if (s.axis n).atRest then s else s.axHard n why stAxsStopped .idle

/-- SAFE (R298, R427): every axis is stopped hard and is DISABLED with `EN` low. -/
def Dev.axSafe (s : Dev) (n : Nat) : Dev :=
  let a := s.axis n
  if a.atRest then s.setAxis n { a with st := .disabled, en := false, short := false }
  else s.axHard n 7 stAxsStopped .disabled

/-- All 24 axes. -/
def axisList : List Nat := List.range 24

/-- Every axis on a stop-path trip (R298, R420), on entry to FLEET_STOP, and on SAFE. -/
def Dev.axesTrip (s : Dev) : Dev := axisList.foldl (fun s n => s.axTrip n 6) s
def Dev.axesFleetStop (s : Dev) : Dev := axisList.foldl (fun s n => s.axRamp n 8 stAxsStopped) s
def Dev.axesSafe (s : Dev) : Dev := axisList.foldl (fun s n => s.axSafe n) s

/-- Is the axis travelling toward the switch (`neg` = LIMN)? -/
def Dev.axToward (s : Dev) (n : Nat) (neg : Bool) : Bool :=
  let st := (s.axis n).st
  (st == .moving || st == .homing || st == .stopping) && s.axNeg n == neg

/-- Is the switch the reference of a homing in progress (R306)? -/
def Axis.isRef (a : Axis) (neg : Bool) : Bool :=
  match a.home with
  | some h => h.ref = (if neg then 1 else 2)
  | none => false

/-- Trips still inside the chatter window (R296). -/
def Dev.chatTrips (s : Dev) (n : Nat) (l : List Nat) : List Nat :=
  l.filter fun t => decide (s.up ≤ t + s.fld (axF n 8 8 16) * cycMs)

end Sys2Proof.Machine
end

