-- ==== Sys2Proof/Machine/Gov.lean ====
section
/-! DEFINITION. The leave governor (R402-R408): requests, what fits, and one decision. What a grant starts or a refusal
ends is in Leave.lean. -/
namespace Sys2Proof.Machine

def fBudget : Fld := (0x10014, 0, 16)
def fCap (c : Nat) : Fld := (0x10100 + 4 * c, 0, 16)
def fPrio (c : Nat) : Fld := (0x10100 + 4 * c, 16, 3)

/-- Sum of running grants, mW (R402). -/
def Gov.granted (g : Gov) : Nat := g.grants.foldl (fun a x => a + x.mw) 0

/-- Running grants of one class. -/
def Gov.classSum (g : Gov) (c : Nat) : Nat := (g.grants.filter fun x => x.cls = c).foldl (fun a x => a + x.mw) 0

/-- `free` of R402 in hundredths of a mW. -/
def Dev.freePower (s : Dev) : Int :=
  100 * (s.fld fBudget : Int) - 105 * (s.gov.pmeas : Int) - 100 * (s.gov.granted : Int)

/-- Is a work a snapshot batch, or a group calibration (R407)? -/
def Work.isSnp : Work → Bool | .snpBatch _ => true | _ => false
def Work.isCalib : Work → Bool | .calib _ => true | _ => false

/-- Does a request fit now (R402), the shared FFT buffers counted (R407)? -/
def Dev.leaveFits (s : Dev) (r : LeaveReq) : Bool :=
  decide ((100 * r.mw : Int) ≤ s.freePower) && decide (s.gov.classSum r.cls + r.mw ≤ s.fld (fCap r.cls)) &&
  !(r.work.isSnp && s.gov.grants.any fun g => g.work.isCalib) &&
  !(r.work.isCalib && s.gov.grants.any fun g => g.work.isSnp)

/-- The order of waiting requests (R404): priority, then deadline, then arrival. -/
def Dev.leaveBefore (s : Dev) (a b : LeaveReq) : Bool :=
  let pa := s.fld (fPrio a.cls); let pb := s.fld (fPrio b.cls)
  if pa ≠ pb then pb < pa else if a.dead ≠ b.dead then ntAfter b.dead a.dead else a.id ≤ b.id

/-- Insert a request in order. -/
def Dev.leaveInsert (s : Dev) (r : LeaveReq) : List LeaveReq → List LeaveReq
  | [] => [r]
  | x :: t => if s.leaveBefore r x then r :: x :: t else x :: s.leaveInsert r t

/-- Waiting requests in their order. -/
def Dev.leaveOrder (s : Dev) : List LeaveReq := s.gov.reqs.foldr (fun r l => s.leaveInsert r l) []

/-- Has a request waited half of its time to deadline (R404)? -/
def Dev.leaveHalf (s : Dev) (r : LeaveReq) : Bool := decide (ntSince r.dead r.asked ≤ 2 * ntSince s.nt r.asked)

/-- Ask leave (R404). -/
def Dev.askLeave (s : Dev) (cls mw dur : Nat) (dead : NT) (w : Work) : Dev :=
  { s with gov := { s.gov with nextId := s.gov.nextId + 1
                               reqs := s.gov.reqs ++ [{ id := s.gov.nextId, cls, mw, dur, asked := s.nt, dead, work := w }] } }

/-- Is leave for a work running, or asked for? -/
def Dev.hasLeave (s : Dev) (w : Work) : Bool := s.gov.grants.any fun g => g.work == w
def Dev.asksLeave (s : Dev) (w : Work) : Bool := s.gov.reqs.any fun r => r.work == w

/-- The holder returns a leave (R405); a return after its end changes nothing. -/
def Dev.returnLeave (s : Dev) (w : Work) : Dev :=
  { s with gov := { s.gov with grants := s.gov.grants.filter fun g => g.work != w } }

/-- Withdraw a request that is no longer wanted. -/
def Dev.dropLeave (s : Dev) (w : Work) : Dev :=
  { s with gov := { s.gov with reqs := s.gov.reqs.filter fun r => r.work != w } }

/-- Grant one request (R402): counted, its wait recorded. -/
def Dev.grantLeave (s : Dev) (r : LeaveReq) : Dev :=
  let wait := ntSince s.nt r.asked * 1000 / tickHz
  let g : Grant := { id := r.id, cls := r.cls, mw := r.mw, until_ := ntAdd s.nt r.dur, work := r.work }
  let s := { s with gov := { s.gov with reqs := s.gov.reqs.filter (fun x => x.id != r.id), grants := s.gov.grants ++ [g] } }
  let s := s.cntWrap (0x10020, 0, 16)
  let s := s.setFld (0x10024, 16, 16) (max (s.fld (0x10024, 16, 16)) (sat 16 wait))
  s.note 0x452 wait []

/-- One decision (R402, R404): the ordered queue is scanned, every request that fits is granted, and the first request
that has waited half its time without fitting is a barrier. The answer lists the works granted. -/
def Dev.govScan : List LeaveReq → Dev → Dev × List Work
  | [], s => ({ s with gov := { s.gov with barrier := false } }, [])
  | r :: t, s =>
    if s.leaveFits r then
      let (s', ws) := Dev.govScan t (s.grantLeave r)
      (s', r.work :: ws)
    else if s.leaveHalf r then ({ s with gov := { s.gov with barrier := true } }, [])
    else Dev.govScan t s

/-- The power reading of a decision (R408): readings above the budget are timed, and one within it ends `OVER`. -/
def Dev.readPower (s : Dev) (pmeas : Nat) : Dev :=
  let s := { s with gov := { s.gov with pmeas, recal := s.gov.recal.filter fun r => decide (s.up < r.2) } }
  if 105 * pmeas ≤ 100 * s.fld fBudget then ({ s with gov := { s.gov with overBudget := false, overSince := none } }).fallLevel 0x10
  else { s with gov := { s.gov with overSince := some (s.gov.overSince.getD s.up) } }

end Sys2Proof.Machine
end

