-- ==== Sys2Proof/Machine/Geo.lean ====
section
/-! DEFINITION. Plane geometry of the track graph (R175, R177, R186, R189): portions of polylines, least distances as exact
fractions, zones, and the projection of a point. Internal coordinates are micrometres. -/
namespace Sys2Proof.Machine

/-- A point in the plane. -/
abbrev Pt := Int × Int

/-- A straight piece. -/
abbrev Piece := Pt × Pt

/-- A squared length as a fraction. -/
abbrev Sq2 := Nat × Nat

/-- Is one fraction smaller than or equal to another? -/
def Sq2.le (a b : Sq2) : Bool := decide (a.1 * b.2 ≤ b.1 * a.2)

/-- The smaller fraction. -/
def Sq2.min (a b : Sq2) : Sq2 := if Sq2.le a b then a else b

/-- Is the distance below `x` micrometres? -/
def Sq2.below (a : Sq2) (x : Nat) : Bool := decide (a.1 < x * x * a.2)

/-- Is the distance at most `x` micrometres? -/
def Sq2.within (a : Sq2) (x : Nat) : Bool := decide (a.1 ≤ x * x * a.2)

def ptSub (a b : Pt) : Pt := (a.1 - b.1, a.2 - b.2)
def ptDot (a b : Pt) : Int := a.1 * b.1 + a.2 * b.2
def ptCross (a b : Pt) : Int := a.1 * b.2 - a.2 * b.1
def ptNorm2 (a : Pt) : Nat := (ptDot a a).toNat
def ptLen (a : Pt) : Nat := isqrt (ptNorm2 a)

/-- Squared distance of a point from a piece. -/
def distPt (p : Pt) (q : Piece) : Sq2 :=
  let ab := ptSub q.2 q.1
  let ap := ptSub p q.1
  let t := ptDot ap ab
  let l := ptNorm2 ab
  if l = 0 ∨ t ≤ 0 then (ptNorm2 ap, 1)
  else if (l : Int) ≤ t then (ptNorm2 (ptSub p q.2), 1)
  else ((ptCross ab ap).natAbs ^ 2, l)

/-- Do two pieces cross? -/
def crosses (p q : Piece) : Bool :=
  let d1 := ptCross (ptSub p.2 p.1) (ptSub q.1 p.1)
  let d2 := ptCross (ptSub p.2 p.1) (ptSub q.2 p.1)
  let d3 := ptCross (ptSub q.2 q.1) (ptSub p.1 q.1)
  let d4 := ptCross (ptSub q.2 q.1) (ptSub p.2 q.1)
  decide (d1 * d2 < 0) && decide (d3 * d4 < 0)

/-- Squared distance of two pieces. -/
def distPiece (p q : Piece) : Sq2 :=
  if crosses p q then (0, 1)
  else Sq2.min (Sq2.min (distPt p.1 q) (distPt p.2 q)) (Sq2.min (distPt q.1 p) (distPt q.2 p))

/-- Pieces of a run of points. -/
def piecesOf : List Pt → List Piece
  | a :: b :: t => (a, b) :: piecesOf (b :: t)
  | _ => []

/-- Points of a segment in micrometres. -/
def SegRec.um (g : SegRec) : List Pt := g.pts.map fun p => (p.1 * 1000, p.2.1 * 1000)

/-- Horizontal length of a polyline, micrometres. -/
def polyLen (l : List Pt) : Nat := (piecesOf l).foldl (fun a p => a + ptLen (ptSub p.2 p.1)) 0

/-- The point at `d` of `n` along a piece. -/
def along (p : Piece) (d n : Nat) : Pt :=
  if n = 0 then p.1
  else (p.1.1 + (p.2.1 - p.1.1) * (d : Int) / (n : Int), p.1.2 + (p.2.2 - p.1.2) * (d : Int) / (n : Int))

/-- The part of a run of pieces between two along-track distances. -/
def cutPieces : List Piece → Nat → Nat → Nat → List Piece
  | [], _, _, _ => []
  | p :: t, at_, lo, hi =>
    let n := ptLen (ptSub p.2 p.1)
    if hi < at_ then []
    else if at_ + n < lo then cutPieces t (at_ + n) lo hi
    else
      let a := if at_ < lo then along p (lo - at_) n else p.1
      let b := if hi < at_ + n then along p (hi - at_) n else p.2
      (a, b) :: cutPieces t (at_ + n) lo hi

/-- A node of the graph. -/
def Graph.node? (g : Graph) (id : Nat) : Option NodeRec := g.nodes.find? fun n => n.id == id
def Graph.seg? (g : Graph) (id : Nat) : Option SegRec := g.segs.find? fun x => x.id == id
def NodeRec.um (n : NodeRec) : Pt := (n.e * 1000, n.n * 1000)

/-- The centreline portion between two along-track distances in micrometres; where `other` shares a node with the segment, a
straight piece joins the end to that node (R177). -/
def Graph.portionUm (g : Graph) (a : SegRec) (other : SegRec) (lo hi : Nat) : List Piece :=
  let shared : Nat → Bool := fun n => other.id != a.id && (n == other.nodeA || n == other.nodeB)
  let body := cutPieces (piecesOf a.um) 0 lo (if a.len * 10000 ≤ hi then 2 ^ 40 else hi)
  let pre : List Piece :=
    if lo = 0 && shared a.nodeA then
      match g.node? a.nodeA, a.um.head? with
      | some n, some p => [(n.um, p)]
      | _, _ => []
    else []
  let post : List Piece :=
    if a.len * 10000 ≤ hi && shared a.nodeB then
      match g.node? a.nodeB, a.um.getLast? with
      | some n, some p => [(p, n.um)]
      | _, _ => []
    else []
  pre ++ body ++ post

/-- The centreline portion [`lo`, `hi`] cm of a segment. -/
def Graph.portion (g : Graph) (a : SegRec) (other : SegRec) (lo hi : Nat) : List Piece :=
  g.portionUm a other (lo * 10000) (hi * 10000)

/-- Least squared distance of two runs of pieces; `none` where one is empty. -/
def distRuns (p q : List Piece) : Option Sq2 :=
  p.foldl (fun m x => q.foldl (fun m y =>
    let d := distPiece x y
    match m with | none => some d | some e => some (Sq2.min d e)) m) none

/-- Are the portions of two segments closer than `x` cm (R186)? -/
def Graph.closer (g : Graph) (a b : SegRec) (aLo aHi bLo bHi x : Nat) : Bool :=
  match distRuns (g.portion a b aLo aHi) (g.portion b a bLo bHi) with
  | some d => d.below (x * 10000)
  | none => false

/-- The smallest along-range of whole cm that holds every point of `a`'s centreline within `r` micrometres of the pieces `q`. A
centimetre of which only the end shared with the range comes so near is left out. -/
def Graph.nearRange (g : Graph) (a other : SegRec) (q : List Piece) (r : Nat) : Option (Nat × Nat) :=
  let hit (lo hi : Nat) : Bool :=
    match distRuns (g.portionUm a other lo hi) q with
    | some d => d.within r
    | none => false
  let ks := (List.range a.len).filter fun k => hit (10000 * k) (10000 * (k + 1))
  match ks.head?, ks.getLast? with
  | some lo, some hi =>
    some (if hit (10000 * lo) (10000 * lo + 9999) then lo else lo + 1, if hit (10000 * hi + 1) (10000 * (hi + 1)) then hi + 1 else hi)
  | _, _ => none

/-- The zone of `a` in its derived link with `b` (R177), with `r` in metres. -/
def Graph.zone (g : Graph) (a b : SegRec) (r : Nat) : Option (Nat × Nat) := g.nearRange a b (g.portion b a 0 b.len) (r * 1000000)

/-- The derived link of two segments, where they have one (R177, R178). -/
def Graph.derive? (g : Graph) (a b : SegRec) (r : Nat) : Option LinkRec :=
  match distRuns (g.portion a b 0 a.len) (g.portion b a 0 b.len), g.zone a b r, g.zone b a r with
  | some d, some (al, ah), some (bl, bh) =>
    some { a := a.id, b := b.id, kind := 0, minDist := sat 16 (isqrt (d.1 / d.2) / 10000), aLo := al, aHi := ah, bLo := bl,
           bHi := bh }
  | _, _, _ => none

/-- Derived links of a list of segments with each other. -/
def Graph.deriveAll (g : Graph) (r : Nat) : List SegRec → List LinkRec
  | [] => []
  | a :: t => (t.filterMap fun b => g.derive? a b r) ++ Graph.deriveAll g r t

/-- The nearest point of one piece to `p`: squared distance, distance along the piece in mm, cross-track offset in mm
(positive to the left), and the piece's direction. -/
structure Near where
  d2 : Sq2
  s  : Int
  e  : Int
  dir : Pt
deriving DecidableEq, Repr

/-- Nearest point on a piece whose start lies at route coordinate `at_` mm. Halves round down. -/
def nearPiece (p : Pt) (q : Piece) (at_ : Int) : Near :=
  let ab := ptSub q.2 q.1
  let ap := ptSub p q.1
  let t := ptDot ap ab
  let l := ptNorm2 ab
  let n := ptLen ab
  let tc := max 0 (min t (l : Int))
  let d2 := distPt p q
  let mag : Int := ((isqrt (d2.1 / d2.2) / 1000 : Nat) : Int)
  { d2, s := at_ + (if n = 0 then 0 else tc / ((n : Int) * 1000)), e := if ptCross ab ap < 0 then -mag else mag, dir := ab }

/-- The nearest of two. -/
def Near.best (a : Option Near) (b : Near) : Option Near :=
  match a with
  | none => some b
  | some x => if Sq2.le x.d2 b.d2 then some x else some b

/-- The nearest point of a segment to `p`, along its points in mm. -/
def SegRec.near (x : SegRec) (p : Pt) : Option Near :=
  ((piecesOf x.um).foldl (fun (acc : Option Near × Int) q =>
    (Near.best acc.1 (nearPiece p q acc.2), acc.2 + ((ptLen (ptSub q.2 q.1) / 1000 : Nat) : Int))) (none, 0)).1

/-- The segment whose points come nearest to `p`, and the distance along it in cm. -/
def Graph.nearSeg (g : Graph) (p : Pt) : Option (Nat × Nat) :=
  (g.segs.foldl (fun (m : Option (Near × SegRec)) x =>
    match x.near p, m with
    | none, _ => m
    | some n, none => some (n, x)
    | some n, some (b, _) => if Sq2.le b.d2 n.d2 then m else some (n, x)) none).map fun y =>
      (y.2.id, min y.2.len (y.1.s / 10).toNat)

end Sys2Proof.Machine
end

