-- ==== Sys2Proof/Machine/Ccm.lean ====
section
/-! DEFINITION. The protection of Irjan frames (R313, R322): AES-128, CCM* at security level 6, and the 32-bit FCS of IEEE 802.15.4. The
spec names these standards and does not restate them (PRESUMED, log entry 113). -/
namespace Sys2Proof.Machine

/-! ### AES-128 -/

/-- Twice an octet as a polynomial modulo x^8 + x^4 + x^3 + x + 1. -/
def gfTwice (a : Nat) : Nat := if 128 ≤ a then (2 * a) ^^^ 0x11B else 2 * a

/-- The substitution of octets as the standard tabulates it (the inverse of an octet under the affine map): 32 octets a word, that of 0
the lowest of the first. -/
def subTable : List Nat :=
  [0xc072a49cafa2d4adf04759fa7dc982ca76abd7fe2b670130c56f6bf27b777c63,
   0x75b227ebe28012079a059618c323c7041531d871f1e5a534ccf73f362693fdb7,
   0xcf584c4a39becb6a5bb1fc20ed00d153842fe329b3d63b52a05a6e1b1a2c8309,
   0xd2f3ff1021dab6bcf5389d928f40a351a89f3c507f02f94585334d43fbaaefd0,
   0xdb0b5ede14b8ee4688902a22dc4f816073195d643d7ea7c41744975fec130ccd,
   0x08ae7a65eaf4566ca94ed58d6d37c8e779e4959162acd3c25c2406490a3a32e0,
   0x9e1dc186b95735610ef6034866b53e708a8bbd4b1f74dde8c6b4a61c2e2578ba,
   0x16bb54b00f2d99416842e6bf0d89a18cdf2855cee9871e9b948ed9691198f8e1]
def subOctet (a : Nat) : Nat := bits (subTable.getD (a / 32) 0) (8 * (a % 32)) 8

def xorAll (a b : List Nat) : List Nat := List.zipWith (· ^^^ ·) a b

/-- The next round key, from the last one and the round constant. -/
def nextKey (k : List Nat) (rcon : Nat) : List Nat :=
  let w (i : Nat) : List Nat := (k.drop (4 * i)).take 4
  let t := ((w 3).drop 1 ++ (w 3).take 1).map subOctet
  let a := xorAll (w 0) (xorAll t [rcon, 0, 0, 0])
  let b := xorAll (w 1) a
  let c := xorAll (w 2) b
  a ++ b ++ c ++ xorAll (w 3) c

/-- The round keys: the key itself, and ten more. -/
def roundKeysGo : Nat → List Nat → Nat → List (List Nat)
  | 0, k, _ => [k]
  | n + 1, k, r => k :: roundKeysGo n (nextKey k r) (gfTwice r)
def roundKeys (k : List Nat) : List (List Nat) := roundKeysGo 10 k 1

/-- Substitution and the rotation of the rows of a state of 16 octets, columns first. -/
def subShift (b : List Nat) : List Nat := (List.range 16).map fun i => subOctet (b.getD ((i + 4 * (i % 4)) % 16) 0)

/-- The mixing of a column. -/
def mixColumn (b : List Nat) : List Nat :=
  (List.range 4).map fun i =>
    let a (k : Nat) : Nat := b.getD ((i + k) % 4) 0
    gfTwice (a 0) ^^^ gfTwice (a 1) ^^^ a 1 ^^^ a 2 ^^^ a 3
def mixColumns (b : List Nat) : List Nat := (List.range 4).flatMap fun c => mixColumn ((b.drop (4 * c)).take 4)

def aesGo : List (List Nat) → List Nat → List Nat
  | [], b => b
  | [k], b => xorAll (subShift b) k
  | k :: t, b => aesGo t (xorAll (mixColumns (subShift b)) k)

/-- One block under round keys. -/
def aesBlock (ks : List (List Nat)) (b : List Nat) : List Nat :=
  match ks with
  | [] => b
  | k :: t => aesGo t (xorAll b k)

/-! ### CCM* -/

/-- Octets in blocks of 16, the last one filled with zeros. -/
def blocks16Go : Nat → List Nat → List (List Nat)
  | 0, _ => []
  | n + 1, l => if l.isEmpty then [] else (List.range 16).map (fun i => l.getD i 0) :: blocks16Go n (l.drop 16)
def blocks16 (l : List Nat) : List (List Nat) := blocks16Go (l.length + 1) l

/-- Two octets, the high one first. -/
def be2 (n : Nat) : List Nat := [n / 256 % 256, n % 256]

/-- The keystream block of a counter value under a nonce of 13 octets. -/
def keystream (ks : List (List Nat)) (nonce : List Nat) (i : Nat) : List Nat := aesBlock ks (1 :: nonce ++ be2 i)

/-- The authentication field over associated data and a message, 8 octets before its encryption. -/
def cbcMac (ks : List (List Nat)) (nonce aad msg : List Nat) : List Nat :=
  let x0 := aesBlock ks (0x59 :: nonce ++ be2 msg.length)
  ((blocks16 (be2 aad.length ++ aad) ++ blocks16 msg).foldl (fun x b => aesBlock ks (xorAll x b)) x0).take 8

/-- A message under the keystream: the same operation encrypts and decrypts. -/
def ctrMode (ks : List (List Nat)) (nonce msg : List Nat) : List Nat :=
  xorAll msg ((List.range ((msg.length + 15) / 16)).flatMap fun i => keystream ks nonce (i + 1))

/-- The MIC of a message in clear. -/
def micOf (ks : List (List Nat)) (nonce aad msg : List Nat) : List Nat :=
  xorAll (cbcMac ks nonce aad msg) (keystream ks nonce 0)

def natOctets (l : List Byte) : List Nat := l.map BitVec.toNat
def natsToOctets (l : List Nat) : List Byte := l.map (BitVec.ofNat 8)

/-- A payload protected: its cipher text and the MIC. -/
def ccmSeal (key nonce aad msg : List Byte) : List Byte :=
  let ks := roundKeys (natOctets key)
  natsToOctets (ctrMode ks (natOctets nonce) (natOctets msg) ++ micOf ks (natOctets nonce) (natOctets aad) (natOctets msg))

/-- A protected payload in clear, where its MIC passes. -/
def ccmOpen (key nonce aad cipher mic : List Byte) : Option (List Byte) :=
  let ks := roundKeys (natOctets key)
  let msg := ctrMode ks (natOctets nonce) (natOctets cipher)
  if micOf ks (natOctets nonce) (natOctets aad) msg = natOctets mic then some (natsToOctets msg) else none

/-! ### FCS -/

/-- The 32-bit FCS, its least significant octet sent first. -/
def fcsBit (c : Nat) : Nat := if c % 2 = 1 then (c / 2) ^^^ 0xEDB88320 else c / 2
def fcs32 (l : List Byte) : Nat :=
  (l.foldl (fun c b => (List.range 8).foldl (fun c _ => fcsBit c) (c ^^^ b.toNat)) 0xFFFFFFFF) ^^^ 0xFFFFFFFF

end Sys2Proof.Machine
end

