-- ==== Sys2Proof/Machine/QueOps.lean ====
section
/-! DEFINITION. Operations on hardware queues (R347-R363): one push, one pop, flush, purge, watermarks and pins. -/
namespace Sys2Proof.Machine

/-- A queue. -/
def Dev.queue (s : Dev) (q : Nat) : Queue := Tab.get (fun _ => {}) s.que.queues q
def Dev.putQueue (s : Dev) (q : Nat) (x : Queue) : Dev :=
  { s with que := { s.que with queues := Tab.set (fun _ => {}) s.que.queues q x } }

/-- Configured capacity and `CUT` (R361), and those in force while a change waits. -/
def Dev.queCfg (s : Dev) (q : Nat) : Nat × Nat := (2 ^ s.fld (0xE800 + 0x10 * q, 0, 5), s.fld (0xE800 + 0x10 * q, 8, 16))
def Dev.queForce (s : Dev) (q : Nat) : Nat × Nat := (s.queue q).old.getD (s.queCfg q)

/-- Has the consumer begun the open item? -/
def Queue.openBegun (x : Queue) : Bool := x.open_ && x.begun && x.words.all fun w => !w.eop

/-- Words the consumer can see (R354): those of complete items, and those of the open item once `CUT` of it have come. -/
def Queue.visible (x : Queue) (cut : Nat) : Nat :=
  if !x.open_ || (cut ≠ 0 && decide (cut ≤ x.openN)) then x.words.length
  else x.words.length - min x.words.length (x.words.reverse.findIdx fun w => w.eop)

/-- The words of the item the consumer is in. -/
def beginItem : List QWord → List QWord
  | [] => []
  | w :: t => if w.eop then [w] else w :: beginItem t

/-- A flush (R356): the begun item stands, every other item is discarded; an open item discarded is cut and counted. -/
def Queue.flush (x : Queue) : Queue :=
  let keep := if x.begun then beginItem x.words else []
  let cutOpen := x.open_ && !x.openBegun
  { x with words := keep, head := min keep.length 8, tail := 0, open_ := x.open_ && !cutOpen, openN := if cutOpen then 0 else x.openN
           cut := x.cut || cutOpen, flushCut := if cutOpen then satInc 16 x.flushCut else x.flushCut }

/-- The items of a run of words, the last one perhaps open. -/
def itemsOf : List QWord → List QWord → List (List QWord)
  | [], [] => []
  | [], cur => [cur.reverse]
  | w :: t, cur => if w.eop then (w :: cur).reverse :: itemsOf t [] else itemsOf t (w :: cur)

/-- A purge (R357): every item not begun whose `SOP` word carries the id goes, whole; a matching open item is cut. -/
def Queue.purge (x : Queue) (id : Nat) : Queue :=
  let pre := if x.begun then beginItem x.words else []
  let rest := itemsOf (x.words.drop pre.length) []
  let hit : List QWord → Bool := fun it => match it with
    | w :: _ => w.sop && w.data % 0x1000000 == id
    | [] => false
  let cutOpen := x.open_ && !x.openBegun && (match rest.getLast? with | some it => hit it | none => false)
  let words := pre ++ (rest.filter fun it => !hit it).flatten
  { x with words, head := min words.length 8, open_ := x.open_ && !cutOpen, openN := if cutOpen then 0 else x.openN
           cut := x.cut || cutOpen, flushCut := if cutOpen then satInc 16 x.flushCut else x.flushCut }

/-- The level a pin function should have now (R360). -/
def Dev.qfcWants (s : Dev) (p : Nat) : Bool :=
  s.que.benched && s.flag (0xE100 + 0x20 * p, 1, 1) &&
    (List.range 128).any fun q => bitAt (s.reg (0xE104 + 0x20 * p + 4 * (q / 32))).toNat (q % 32) && (s.queue q).high

/-- Bring a pin up to date: it stays asserted for `MIN_ASSERT` (R360), but drops at once while `EN` = 0. -/
def Dev.updPin (s : Dev) (p : Nat) : Dev :=
  let x : Qfc := Tab.get (fun _ => {}) s.que.pins p
  let want := s.qfcWants p
  let y : Qfc :=
    if want && !x.on then { on := true, at_ := s.up }
    else if !want && x.on &&
        (!s.flag (0xE100 + 0x20 * p, 1, 1) || x.at_ + 250 * s.fld (0xE100 + 0x20 * p, 8, 8) ≤ s.up)
    then { x with on := false } else x
  { s with que := { s.que with pins := Tab.set (fun _ => {}) s.que.pins p y } }

/-- Every pin brought up to date. -/
def Dev.updPins (s : Dev) : Dev := (List.range 8).foldl (fun s p => s.updPin p) s

/-- End of a cycle of a queue: a waiting change takes force on an empty queue (R361), and `HIGH` is judged (R359). -/
def Dev.setQueue (s : Dev) (q : Nat) (x : Queue) : Dev :=
  let d := x.words.length
  let high := if s.fld (0xE804 + 0x10 * q, 16, 16) ≤ d then true
    else if d ≤ s.fld (0xE804 + 0x10 * q, 0, 16) then false else x.high
  (s.putQueue q { x with high, old := if d = 0 && !x.open_ then none else x.old }).updPins

/-- Flush a queue; purge a transaction from a queue. -/
def Dev.flushQueue (s : Dev) (q : Nat) : Dev := s.setQueue q (s.queue q).flush

/-- A flush requested for a queue also drops the radio items that the model holds for it (R351): frames of lane `n` waiting
under 8 + n, and under 16 + n in priority slots, and deliveries waiting for their consumer. `ALL_STOP` frames pass through no queue. -/
def Dev.flushWaiting (s : Dev) (q : Nat) : Dev :=
  let held : TxFrame → Bool := fun f => f.type_ != 1 && q == (if f.pslot then 16 else 8) + f.lane
  let s := s.flushQueue q
  { s with mac := { s.mac with txq := s.mac.txq.filter fun f => !held f, inbox := s.mac.inbox.filter fun x => x.q != q } }
def Dev.purgeQueue (s : Dev) (id q : Nat) : Dev := s.setQueue q ((s.queue q).purge id)

/-- Queues whose items carry transaction ids (R352). -/
def txnQueues : List Nat := [8, 9, 10, 11, 12, 13, 16, 17, 18, 19, 20, 21, 40, 41, 42]

/-- With the spill organisation, words move from the tail to the middle and from the middle to the head (R353). -/
def Queue.refill (x : Queue) : Queue :=
  let mid := x.words.length - x.head - x.tail
  let h := if mid = 0 then min (8 - x.head) x.tail else min (8 - x.head) mid
  if mid = 0 then { x with head := x.head + h, tail := x.tail - h }
  else { x with head := x.head + h, tail := if x.tail = 8 then 0 else x.tail }

/-- One word into a queue that has room for it (R348, R350, R356): words of a cut item are dropped until the next
`SOP`; the answer counts framing errors. -/
def Queue.take (x : Queue) (w : QWord) (spill : Bool) : Queue × Nat :=
  let push : Queue → QWord → Queue := fun x w =>
    { x with words := x.words ++ [w]
             head := if spill && x.words.length < 8 && x.tail = 0 then x.head + 1 else x.head
             tail := if spill && !(x.words.length < 8 && x.tail = 0) then x.tail + 1 else x.tail
             open_ := !w.eop, openN := if w.eop then 0 else (if w.sop then 1 else x.openN + 1) }
  if !w.sop && x.cut then (x, 0)
  else if !w.sop && !x.open_ then (x, 1)
  else if w.sop && x.open_ then
    if x.openBegun then
      let y := push x { data := 0, sop := false, eop := true, err := true, type_ := 0xF }
      (push { y with cut := false } w, 1)
    else
      let kept := x.words.take (x.words.length - min x.words.length (x.words.reverse.findIdx fun w => w.eop))
      (push { x with words := kept, cut := false, flushCut := satInc 16 x.flushCut, open_ := false } w, 1)
  else (push { x with cut := if w.sop then false else x.cut } w, 0)

/-- A pop (R354, R355): the oldest visible word, or none. -/
def Queue.pop (x : Queue) (cut : Nat) : Queue × Option QWord :=
  if x.visible cut = 0 then (x, none)
  else match x.words with
    | [] => (x, none)
    | w :: t => ({ x with words := t, begun := !w.eop, head := x.head - 1 }, some w)

end Sys2Proof.Machine
end

