-- ==== Sys2Proof/Machine/RadioOps.lean ====
section
/-! DEFINITION. Operations of the radio MAC: lanes and their timing (R315, R316), routes (R332), frames queued for the
air (R318, R321), stops (R326, R327), and what a lane's end drops (R356). -/
namespace Sys2Proof.Machine

/-! ### Limits of the part (R3, R4) -/

def Dev.nLanes (s : Dev) : Nat := if s.fuse.big then 6 else 3
def Dev.nSlots (s : Dev) : Nat := if s.fuse.big then 256 else 64
def Dev.nLoops (s : Dev) : Nat := if s.fuse.big then 536 else 152

/-! ### Lanes -/

/-- A lane. -/
def Dev.lane (s : Dev) (n : Nat) : Lane := Tab.get (fun _ => {}) s.mac.lanes n
def Dev.setLane (s : Dev) (n : Nat) (l : Lane) : Dev :=
  { s with mac := { s.mac with lanes := Tab.set (fun _ => {}) s.mac.lanes n l } }

/-- Register fields of a lane (R346). -/
def lnEn (n : Nat) : Fld := (0xD100 + 0x40 * n, 0, 1)
def lnSck (n : Nat) : Fld := (0xD100 + 0x40 * n, 2, 4)
def lnTPre (n : Nat) : Fld := (0xD108 + 0x40 * n, 0, 12)
def lnTTa (n : Nat) : Fld := (0xD108 + 0x40 * n, 12, 12)
def lnTOct (n : Nat) : Fld := (0xD10C + 0x40 * n, 0, 16)
def lnTAbort (n : Nat) : Fld := (0xD10C + 0x40 * n, 16, 16)
def lnTxDly (n : Nat) : Fld := (0xD110 + 0x40 * n, 0, 16)
def lnTSfd (n : Nat) : Fld := (0xD110 + 0x40 * n, 16, 16)

/-- Lanes in service. -/
def Dev.inService (s : Dev) : List Nat := (List.range s.nLanes).filter fun n => (s.lane n).st = .inService

/-- Beacon fit and exchange fit of a lane (R315), times in 0.1 ns. -/
def Dev.beaconFits (s : Dev) (n : Nat) : Bool :=
  decide (800000 + 10000 * s.fld (lnTPre n) + 102 * s.fld (lnTOct n) ≤ 20000000)
def Dev.exchangeFits (s : Dev) (n b : Nat) : Bool :=
  decide (800000 + 20000 * s.fld (lnTPre n) + 432 * s.fld (lnTOct n) + 10000 * s.fld (lnTTa n) ≤ b * 20000000)

/-- `BOND` of a lane as `MAC_LNn_STATUS` codes it (R315, R346): 3 where none fits. -/
def Dev.bond (s : Dev) (n : Nat) : Nat :=
  if s.exchangeFits n 1 then 0 else if s.exchangeFits n 2 then 1 else if s.exchangeFits n 4 then 2 else 3

/-- SPI time of `k` octets on a lane in ns (R346: `SCK` = 250 MHz / (2 (`SCK_DIV` + 1))). -/
def Dev.spiNs (s : Dev) (n k : Nat) : Nat := 64 * (s.fld (lnSck n) + 1) * k

/-- Octets of a command template (R314). -/
def Dev.cmdLen (s : Dev) (k : Nat) : Nat := s.fld (0xD300 + 0x10 * k, 0, 4)

/-- Time from the decision to the stop on air, ns (R327). -/
def Dev.stopToAir (s : Dev) (n : Nat) : Nat :=
  let ab := s.spiNs n (s.cmdLen 2)
  let all := s.spiNs n (s.cmdLen 2 + s.cmdLen 0 + 42)
  max (2000 + ab + 1000 * s.fld (lnTAbort n)) (2000 + all) + s.fld (lnTxDly n)

/-- A plan word's fields (R319). -/
def planF (n k lo w : Nat) : Fld := (0xD800 + 0x100 * n + 4 * k, lo, w)
def Dev.slotUse (s : Dev) (n k : Nat) : Nat := s.fld (planF n k 0 4)

/-- Run states in which beacons are sent by this unit (R26). -/
def Dev.beaconing (s : Dev) : Bool :=
  match s.saf.run with
  | .run | .fleetStop | .updatePause => true
  | .safe => !(s.par.role = .standby)
  | _ => false

/-- The lane engines transmit only while the unit holds the token, confirmed, and has held it for 100 us (R498). -/
def Dev.holdsToken (s : Dev) : Bool := s.par.token && s.par.taking.isNone && decide (s.par.since + 25000 ≤ s.clk.up)

/-! ### Routes -/

/-- The route entry of a node (R332). -/
def Dev.routeTo (s : Dev) (dest : Nat) : Option RouteEnt := s.mac.routes.find? fun r => r.dest == dest

/-- Set and delete route entries. -/
def setRoutes (old sets : List RouteEnt) (dels : List Nat) : List RouteEnt :=
  (old.filter fun r => !(sets.any fun x => x.dest == r.dest) && !dels.contains r.dest) ++ sets

/-- Header fields of a frame (R321). -/
def frType (f : List Byte) : Nat := leAt f 0 1 % 16
def frSec (f : List Byte) : Bool := bitAt (leAt f 0 1) 6
def frRep (f : List Byte) : Bool := bitAt (leAt f 0 1) 7
def frKey (f : List Byte) : Nat := leAt f 1 1 % 16
def frSrc (f : List Byte) : Nat := leAt f 4 2
def frEpoch (f : List Byte) : Nat := leAt f 6 2
def frLen (f : List Byte) : Nat := leAt f 8 2 % 512
def frCnt (f : List Byte) : Nat := leAt f 10 6

/-- Address of a robot slot (R12). -/
def robotAddr (i : Nat) : Nat := 0x1000 + i

/-! ### Frames -/

/-- Queue a frame for the air, in its order. -/
def Dev.queueFrame (s : Dev) (f : TxFrame) : Dev :=
  { s with mac := { s.mac with txq := s.mac.txq ++ [{ f with order := s.mac.order }], order := s.mac.order + 1 } }

/-- Queue a unicast frame on its route (R332); without a route it goes nowhere. -/
def Dev.queueTo (s : Dev) (dest : Nat) (f : TxFrame) : Dev :=
  match s.routeTo dest with
  | some r => s.queueFrame { f with dst := dest, lane := r.lane, rx := (r.hops.headD (dest, 0, 0)).1 }
  | none => s

/-- Queue a frame on every lane in service. -/
def Dev.queueAll (s : Dev) (f : TxFrame) : Dev :=
  s.inService.foldl (fun s n => s.queueFrame { f with lane := n }) s

/-- `ALL_STOP` payload (R326). -/
def stopBody (fleet : Bool) (rep cause : Nat) (t : NT) : List Byte :=
  leBytes (1 + 16 * b2n fleet + 64 * rep) 1 ++ leBytes cause 1 ++ leBytes (shortNt t) 6

/-- A directed stop (R326): in the priority slots from an instant on, on every lane in service, once, under the key of the robot's group
(R323). -/
def Dev.directedStop (s : Dev) (dst epoch cause : Nat) (from_ : NT) : Dev :=
  let key := (Tab.get (fun _ => ({} : Lease)) s.txu.leases (dst - 0x1000)).keyIdx
  s.queueAll { type_ := 1, dst, epoch, body := stopBody false 0 cause s.nt, lane := 0, key, pslot := true, prio := 0, from_ }

/-! ### Transmission (R313, R314, R317, R321, R322) -/

/-- Octets sent on a lane's SPI port; an empty template sends none. -/
def Dev.radio (s : Dev) (n : Nat) (octets : List Byte) : Dev := if octets.isEmpty then s else s.emit (.radio n octets)

/-- A command template (R314). -/
def Dev.template (s : Dev) (k : Nat) : List Byte :=
  (leBytes (s.reg (0xD304 + 0x10 * k)).toNat 4 ++ leBytes (s.reg (0xD308 + 0x10 * k)).toNat 4).take (min 8 (s.cmdLen k))

/-- The key of an index as octets, `W0` first; the nonce of an originator's frame (R322). -/
def Dev.keyOctets (s : Dev) (k : Nat) : List Byte :=
  (List.range 4).flatMap fun w => leBytes (Tab.get (fun _ => (0 : Reg)) s.mac.keys (4 * k + w)).toNat 4
def Dev.nonce (s : Dev) (src cnt : Nat) : List Byte := leBytes src 2 ++ leBytes cnt 6 ++ leBytes (s.reg 0xD018).toNat 4 ++ [6]

/-- The header of a frame of this unit under a frame counter (R321). -/
def TxFrame.header (f : TxFrame) (cnt : Nat) : List Byte :=
  leBytes (f.type_ + 16 + 64) 1 ++ leBytes (f.key + 16 * b2n (f.type_ == 5 && f.dst != 0xFFFF)) 1 ++ leBytes f.dst 2 ++ leBytes 1 2 ++
    leBytes f.epoch 2 ++ leBytes f.body.length 2 ++ leBytes cnt 6 ++ leBytes 1 2 ++ leBytes f.rx 2 ++ [1, 0]

/-- A PSDU with its FCS (R313). -/
def withFcs (b : List Byte) : List Byte := b ++ leBytes (fcs32 b) 4

/-- The PSDU of a frame under the next counter value (R321, R322). -/
def Dev.psdu (s : Dev) (f : TxFrame) : List Byte :=
  let h := f.header s.mac.fcnt
  withFcs (h ++ ccmSeal (s.keyOctets f.key) (s.nonce 1 s.mac.fcnt) (h.take 16) f.body)

/-- The frame counter's next value, with the block mark written to flash first (R324). -/
def Dev.takeFcnt (s : Dev) : Dev :=
  let c := s.mac.fcnt
  let mark := match s.nv.fcnt with
    | none => c
    | some m => if m + 0x100000 ≤ c then c else m
  { s with nv := { s.nv with fcnt := some mark }, mac := { s.mac with fcnt := (c + 1) % 2 ^ 48 } }

/-- One more frame protected and sent on a lane: `MAC_FCNT`, `MAC_STAT0` and the lane's `STAT1` (R324, R346). -/
def Dev.countSent (s : Dev) (n : Nat) : Dev := (s.takeFcnt.cntWrap (0xD030, 0, 16)).cntWrap (0xD118 + 0x40 * n, 0, 16)

/-- Load a frame, launch it with `LNn_TXGO` at an instant, and listen again (R313, R314, R64). -/
def Dev.launch (s : Dev) (n : Nat) (at_ : NT) (f : TxFrame) : Dev :=
  (((s.radio n (s.template 0 ++ s.psdu f)).emit (.txgo n at_)).countSent n).radio n (s.template 3)

/-- Launch instant of slot `k` on a lane (R317). -/
def Dev.launchAt (s : Dev) (n k : Nat) : NT :=
  ntAdd (BitVec.ofNat 64 (slotStart k + usTicks 40)) (-(nsTicks (s.fld (lnTxDly n))))

/-- The frame of a fleet-wide stop (R326, R327). -/
def stopFrame (rep cause : Nat) (t : NT) : TxFrame := { type_ := 1, dst := 0xFFFF, body := stopBody true rep cause t, lane := 0 }

/-- Drop every queued frame of a transaction, and purge it from the queues (R238, R357). -/
def Dev.purgeTxn (s : Dev) (id : Nat) : Dev :=
  if id = 0 then s
  else
    let s := { s with mac := { s.mac with txq := s.mac.txq.filter fun f => f.txn != id } }
    txnQueues.foldl (fun s q => s.purgeQueue id q) s

/-- What the end of a lane's service drops (R356): its frames, and the words of its three queues. -/
def Dev.dropLane (s : Dev) (n : Nat) : Dev :=
  let s := { s with mac := { s.mac with txq := s.mac.txq.filter fun f => f.lane != n } }
  [n, 8 + n, 16 + n].foldl (fun s q => s.flushQueue q) s

/-- A lane fails (R316). -/
def Dev.failLane (s : Dev) (n : Nat) : Dev :=
  ((s.setLane n { s.lane n with st := .failed, noSfd := 0, badRd := 0 }).dropLane n).raise 0x80

/-- Does a lane still owe the beacon of a slotframe: it beacons by then, and that beacon is neither sent nor aborted (R327)? -/
def Lane.owesBeacon (l : Lane) (sf : Nat) : Bool :=
  l.beaconSf != some sf && (match l.startSf with | some a => sfReached sf a | none => true)

/-- A lane comes into service (R314, R340): the `INIT` templates in order, and beaconing from the next slotframe. -/
def Dev.laneUp (s : Dev) (n : Nat) : Dev :=
  [4, 5, 6, 7].foldl (fun s k => s.radio n (s.template k)) (s.setLane n { st := .inService, startSf := some (sfNext (slotframeOf s.nt.toNat)) })

/-- A lane is put in service or out of it as its `EN` changes (R314, R316). -/
def Dev.laneEn (s : Dev) (n : Nat) (old new : Bool) : Dev :=
  if s.nLanes ≤ n || old == new then s
  else if new then s.laneUp n
  else (s.setLane n {}).dropLane n

/-! ### The fleet-wide stop on air -/

/-- The slot after the one in which a lane's `REPEAT` 0 ends on air, and slot 0 gives way to the beacon (R327). -/
def Dev.firstRepeat (s : Dev) (n : Nat) : Nat :=
  let ns := s.stopToAir n + 1000 * s.fld (lnTPre n) + 42 * s.fld (lnTOct n) / 10
  let k := slotOf (ntAdd s.nt (nsTicks ns)).toNat + 1
  if k % 50 = 0 then k + 1 else k

/-- One lane gives way to an `ALL_STOP` (R327): counted, bounded by 400 us. A beacon on air is aborted and its slotframe has
none. -/
def Dev.preemptLane (s : Dev) (cause n : Nat) : Dev :=
  let t := s.stopToAir n
  let l := s.lane n
  let sf := slotframeOf s.nt.toNat
  let s := s.setLane n { l with toAir := sat 16 (t / 1000), beaconSf := if slotOf s.nt.toNat % 50 = 0 then some sf else l.beaconSf }
  let go := ntAdd s.nt (nsTicks ((t : Int) - s.fld (lnTxDly n)))
  let s := ((s.radio n (s.template 2)).launch n go (stopFrame 0 cause s.nt)).emit (.allStop n cause 0)
  let s := (s.cntSat (0xD03C, 0, 16)).note (0x440 + n) (t / 1000) []
  if 400000 < t then s.raise 0x82 else s

/-- The burst of a fleet-wide stop (R327). -/
def Dev.setBurst (s : Dev) (b : Option StopBurst) : Dev := { s with saf := { s.saf with burst := b } }

/-- Pre-empt every lane in service with an `ALL_STOP` (R327); its repeats begin anew. -/
def Dev.preempt (s : Dev) (cause : Nat) : Dev :=
  let lanes := if s.holdsToken then s.inService else []
  let s := lanes.foldl (fun s n => s.preemptLane cause n) s
  s.setBurst (some { cause, at_ := s.nt, lanes := lanes.map fun n => (n, s.firstRepeat n, 1) })

end Sys2Proof.Machine
end

