-- ==== Sys2Proof/Machine/TrlOps.lean ====
section
/-! DEFINITION. Operations of the Trellis: leases and classes as it sees them, the conflict rule (R186), envelopes (R30,
R191, R192), projection (R189), prune (R198, R199) and what a robot holds. -/
namespace Sys2Proof.Machine

/-! ### Access -/

/-- The lease of a slot; what the Trellis holds of a robot. -/
def Dev.lease (s : Dev) (i : Nat) : Lease := Tab.get (fun _ => {}) s.txu.leases i
def Dev.setLease (s : Dev) (i : Nat) (l : Lease) : Dev :=
  { s with txu := { s.txu with leases := Tab.set (fun _ => {}) s.txu.leases i l } }
def Dev.rob (s : Dev) (i : Nat) : TrlRobot := Tab.get (fun _ => {}) s.trl.robots i
def Dev.setRob (s : Dev) (i : Nat) (r : TrlRobot) : Dev :=
  { s with trl := { s.trl with robots := Tab.set (fun _ => {}) s.trl.robots i r } }

/-- Replace the reservations; the high-water mark and source 0x65 follow (R188, R206). -/
def Dev.setResv (s : Dev) (l : List Resv) : Dev :=
  let n := l.length
  let s := { s with trl := { s.trl with resv := l } }
  let s := if s.fld (0x8038, 0, 23) < n then s.setFld (0x8038, 0, 23) (sat 23 n) else s
  let high := decide (9 * 4194304 ≤ 10 * n)
  if high && !s.trl.high then ({ s with trl := { s.trl with high } }).raise 0x65 else { s with trl := { s.trl with high } }

/-! ### The hot cache (R180) -/

/-- Check views the cache holds. -/
def Dev.cacheTop (s : Dev) : Nat := if s.fuse.big then 131072 else 65536

/-- Segments of a robot's route within its run-ahead: from where it is seen to the end of its latest planned step. -/
def Dev.aheadSegs (s : Dev) : List Nat :=
  s.trl.robots.flatMap fun p => match s.trl.graph, p.2.route, p.2.proj, p.2.plan.getLast? with
    | some g, some r, some q, some k =>
      let len (h : Nat × Bool) : Int := match g.seg? h.1 with | some x => ((10 * x.len : Nat) : Int) | none => 0
      (r.hops.foldl (fun (a : List Nat × Int) h =>
        (if decide (a.2 ≤ k.k1.s / 1000000) && decide (q.s ≤ a.2 + len h) then a.1 ++ [h.1] else a.1, a.2 + len h)) ([], 0)).1
    | _, _, _, _ => []

/-- Is a segment pinned: does it carry a FIRM, OFFERED or ENVELOPE entry, or lie ahead of a robot? -/
def Dev.pinned (s : Dev) (id : Nat) : Bool :=
  (s.trl.resv.any fun r => r.seg == id && r.kind != .spec) || s.aheadSegs.contains id

/-- One use of a segment's check view: a hit makes it the last used; a miss is counted and brings it in, and beyond the capacity the
view least recently used that is not pinned goes. -/
def Dev.useView (s : Dev) (id : Nat) : Dev :=
  let c := s.trl.cache
  if c.contains id then { s with trl := { s.trl with cache := id :: c.filter (· != id) } }
  else
    let s := s.cntWrap (0x804C, 0, 32)
    let c := id :: c
    let c := if c.length ≤ s.cacheTop then c
      else match c.reverse.find? fun x => x != id && !s.pinned x with
        | some x => c.filter (· != x)
        | none => c
    { s with trl := { s.trl with cache := c } }

/-- The check views that a test of entries uses (R187): those of each entry's segment and of every segment linked to it. -/
def Dev.useViews (s : Dev) (l : List Resv) : Dev :=
  match s.trl.graph with
  | none => s
  | some g => l.foldl (fun s r =>
      (r.seg :: g.links.filterMap fun x => if x.a = r.seg then some x.b else if x.b = r.seg then some x.a else none).foldl
        (fun s id => s.useView id) s) s

/-- Entries whose own `T_EXIT` has passed leave (R35). -/
def Dev.expire (s : Dev) : Dev :=
  let lapsed : Resv → Bool := fun r => !r.openEnd && ntReached s.nt r.tout
  if s.trl.resv.any lapsed then s.setResv (s.trl.resv.filter fun r => !lapsed r) else s

/-- Fields of a robot class (R15). -/
structure ClassRec where
  vMax : Nat
  vRev : Nat
  aMax : Nat
  aBrk : Nat
  jMax : Nat
  lat : Nat
  front : Nat
  rear : Nat
  hw : Nat
  reverse : Bool
  valid : Bool
deriving DecidableEq, Repr

def Dev.cls (s : Dev) (c : Nat) : ClassRec :=
  let b := 0x9100 + 0x20 * c
  { vMax := s.fld (b, 0, 16), vRev := s.fld (b, 16, 16), aMax := s.fld (b + 4, 0, 16), aBrk := max 1 (s.fld (b + 4, 16, 16)),
    jMax := max 1 (s.fld (b + 8, 0, 16)), lat := s.fld (b + 8, 16, 16), front := s.fld (b + 12, 0, 16),
    rear := s.fld (b + 12, 16, 16), hw := s.fld (b + 16, 0, 16), reverse := s.flag (b + 16, 16, 1),
    valid := s.flag (b + 16, 17, 1) }

/-- Quality margin in mm of a grade (R31). -/
def Dev.margin (s : Dev) (g : Nat) : Nat :=
  10 * (match g with
    | 4 => s.fld (0x9018, 0, 16) | 3 => s.fld (0x9018, 16, 16) | 2 => s.fld (0x901C, 0, 16) | _ => s.fld (0x901C, 16, 16))

/-- The margin of R30 for a projection: grade NONE takes that of the last grade, or `M_SNAP`. -/
def Dev.mq (s : Dev) (r : TrlRobot) (g : Nat) : Nat := s.margin (if g = 0 then r.grade.getD 1 else g)

/-! ### The conflict rule (R186) -/

/-- `D_CLEAR` and `T_CLEAR` of a clearance class (R176). -/
def Dev.dClear (s : Dev) (c : Nat) : Nat := s.fld (0x8100 + 4 * c, 0, 12)
def Dev.tClear (s : Dev) (c : Nat) : Nat := s.fld (0x8100 + 4 * c, 12, 12)

/-- `D_MAX` (R176). -/
def Dev.dMax (s : Dev) : Nat :=
  match s.trl.graph with
  | none => 0
  | some g => g.segs.foldl (fun m x => max m (s.dClear x.clear)) 0

/-- Is an entry WIDE (R179)? -/
def Dev.wide (s : Dev) (r : Resv) : Bool := decide (100 * s.fld (0x801C, 16, 8) ≤ 2 * r.w + s.dMax)

/-- Overlap in time with margin `t` ms (R186): an open end stands for a time later than any other. -/
def timeOverlap (a b : Resv) (t : Nat) : Bool :=
  let m : Int := (msTicks t : Nat)
  (b.openEnd || decide (ntDiff a.tin b.tout < m)) && (a.openEnd || decide (ntDiff b.tin a.tout < m))

/-- Two ranges overlap strictly. -/
def rangeMeets (a b c d : Nat) : Bool := decide (a < d) && decide (c < b)

/-- Overlap through a link: `x` the entry on `SEG_A`, `y` that on `SEG_B`. -/
def Dev.linkHit (_s : Dev) (g : Graph) (l : LinkRec) (x y : Resv) (d : Nat) : Bool :=
  rangeMeets x.lo x.hi l.aLo l.aHi && rangeMeets y.lo y.hi l.bLo l.bHi &&
    (l.kind = 1 ||
      (decide (l.minDist < x.w + y.w + d) &&
        (match g.seg? l.a, g.seg? l.b with
         | some a, some b => g.closer a b x.lo x.hi y.lo y.hi (x.w + y.w + d)
         | _, _ => false)))

/-- Do two entries conflict (R186)? -/
def Dev.conflicts (s : Dev) (x y : Resv) : Bool :=
  match s.trl.graph with
  | none => false
  | some g =>
    match g.seg? x.seg, g.seg? y.seg with
    | some a, some b =>
      let d := max (s.dClear a.clear) (s.dClear b.clear)
      let t := max (s.tClear a.clear) (s.tClear b.clear)
      x.robot != y.robot && timeOverlap x y t &&
        (if x.seg = y.seg then decide (x.lo < y.hi + d) && decide (y.lo < x.hi + d)
         else
           let ls := g.links.filter fun l => (l.a = x.seg && l.b = y.seg) || (l.a = y.seg && l.b = x.seg)
           let hit := ls.any fun l => if l.a = x.seg then s.linkHit g l x y d else s.linkHit g l y x d
           let wideHit := ls.isEmpty && (s.wide x || s.wide y) &&
             g.closer a b x.lo x.hi y.lo y.hi (x.w + y.w + d)
           hit || wideHit)
    | _, _ => false

/-! ### Rendering on the graph (R191) -/

/-- May a robot travel a segment in a direction (`rev` = B to A) by `DIR` (R174)? -/
def dirAllows (d : Nat) (rev : Bool) : Bool := d = 0 || (d = 1 && !rev) || (d = 2 && rev)

/-- Extent that runs on beyond a node for `r` cm (R191): onto every segment at the node but the one just left; `obey`
limits it to travel away from the node that `DIR` permits. -/
def Graph.spill (g : Graph) (obey : Bool) : Nat → Nat → Nat → Nat → List (Nat × Nat × Nat)
  | 0, _, _, _ => []
  | f + 1, node, from_, r =>
    if r = 0 then []
    else
      (g.segs.filter fun x => x.id != from_ && (x.nodeA == node || x.nodeB == node)).flatMap fun x =>
        let a := if x.nodeA = node && (!obey || dirAllows x.dir false) then
            (x.id, 0, min r x.len) :: Graph.spill g obey f x.nodeB x.id (r - x.len) else []
        let b := if x.nodeB = node && (!obey || dirAllows x.dir true) then
            (x.id, x.len - min r x.len, x.len) :: Graph.spill g obey f x.nodeA x.id (r - x.len) else []
        a ++ b

/-- One range per segment touched. -/
def mergeRanges : List (Nat × Nat × Nat) → List (Nat × Nat × Nat)
  | [] => []
  | (i, lo, hi) :: t =>
    let m := mergeRanges t
    match m.find? fun x => x.1 == i with
    | some (_, l, h) => (i, min lo l, max hi h) :: m.filter fun x => x.1 != i
    | none => (i, lo, hi) :: m

/-- Start and end nodes of a hop. -/
def SegRec.from_ (x : SegRec) (rev : Bool) : Nat := if rev then x.nodeB else x.nodeA
def SegRec.to_ (x : SegRec) (rev : Bool) : Nat := if rev then x.nodeA else x.nodeB

/-- Length of a run of hops in cm. -/
def Graph.hopsLen (g : Graph) (l : List (Nat × Bool)) : Nat :=
  l.foldl (fun a h => a + (match g.seg? h.1 with | some x => x.len | none => 0)) 0

/-- The ranges of a route between two route coordinates in cm. -/
def Graph.onRoute (g : Graph) : List (Nat × Bool) → Int → Int → Int → List (Nat × Nat × Nat)
  | [], _, _, _ => []
  | h :: t, at_, lo, hi =>
    match g.seg? h.1 with
    | none => Graph.onRoute g t at_ lo hi
    | some x =>
      let n : Int := x.len
      let a := max lo at_ - at_
      let b := min hi (at_ + n) - at_
      let here : List (Nat × Nat × Nat) :=
        if b < a then []
        else if h.2 then [(x.id, (n - b).toNat, (n - a).toNat)] else [(x.id, a.toNat, b.toNat)]
      here ++ Graph.onRoute g t (at_ + n) lo hi

/-- A route interval in cm rendered on the graph; `back` is true where the rear lies toward the route's end (reversing):
the end toward the direction of travel obeys `DIR`, the rear end none (R191). -/
def Graph.render (g : Graph) (hops : List (Nat × Bool)) (lo hi : Int) (back : Bool) : List (Nat × Nat × Nat) :=
  let n : Int := (g.hopsLen hops : Nat)
  let excess := (hi - n).toNat
  let under := (-lo).toNat
  let ends := match hops.getLast? with
    | some h => (match g.seg? h.1 with
      | some x => g.spill (!back) excess (x.to_ h.2) x.id excess
      | none => [])
    | none => []
  let starts := match hops.head? with
    | some h => (match g.seg? h.1 with
      | some x => g.spill back under (x.from_ h.2) x.id under
      | none => [])
    | none => []
  mergeRanges (g.onRoute hops 0 lo hi ++ ends ++ starts)

/-- An area [`lo`, `hi`] cm of a segment widened by `m` cm at each end. -/
def Graph.widen (g : Graph) (seg lo hi m : Nat) : List (Nat × Nat × Nat) :=
  match g.seg? seg with
  | none => []
  | some x =>
    mergeRanges ((x.id, lo - m, min (hi + m) x.len)
      :: (g.spill false (hi + m) x.nodeB x.id (hi + m - x.len) ++ g.spill false m x.nodeA x.id (m - lo)))

/-! ### The stopping envelope (R30) -/

/-- One second in the unit of the evaluation: 1/(1000 · 2^30) s. -/
def envQ : Nat := 1000 * tickHz

/-- What an evaluation yields: `v_e` and `L_fwd` as fractions (over `envQ` mm/s and over `2 a_brk envQ²` mm), and the rule's
own figures rounded up to mm/s and cm. -/
structure Env where
  ve : Nat
  num : Nat
  den : Nat
deriving DecidableEq, Repr

/-- Distance ahead of the route within which the highest speed limit counts, mm (R30). -/
def Graph.vLimAhead (g : Graph) (hops : List (Nat × Bool)) (s hi : Int) : Option Nat :=
  ((g.onRoute hops 0 (s / 10) (hi / 10)).filterMap fun x => (g.seg? x.1).map (·.vlim)).max?

/-- R30 at `t`: `bound` the class's speed bound and `vlim` the segments' one where they apply; `gap` = `s_grant − s_obs` in
mm where the cap applies. -/
def envEval (c : ClassRec) (mq v bound : Nat) (vlim gap : Option Nat) (dt : Nat) : Env :=
  let t := dt * 1000 + (300 + c.lat) * tickHz
  let acc := v * envQ + c.aMax * t
  let ve := min acc (envQ * (match vlim with | some l => min l bound | none => bound))
  let a := 2 * c.aBrk
  let brake := ve * ve
  let free := mq * a * envQ * envQ + ve * t * a + brake
  let num := match gap with
    | some gp => min free ((gp + mq) * a * envQ * envQ + ve * c.lat * tickHz * a + brake)
    | none => free
  { ve, num, den := a * envQ * envQ }

/-- A length of `n` mm plus `L_fwd`, in whole cm rounded up. -/
def Env.cm (x : Env) (n : Nat) : Nat := ceilDiv (n * x.den + x.num) (10 * x.den)

/-- End of the window of R32. -/
def Env.until_ (x : Env) (c : ClassRec) (t : NT) : NT :=
  ntAdd t ((ceilDiv ((500 + c.lat) * tickHz) 1000 + ceilDiv x.ve (1000 * c.aBrk) : Nat) : Int)

/-- The class's speed bound in the direction of travel (R30). -/
def ClassRec.bound (c : ClassRec) (back : Bool) : Nat := if back && c.reverse then c.vRev else c.vMax

/-- An ENVELOPE entry. -/
def envResv (s : Dev) (i w : Nat) (r : Nat × Nat × Nat) (tin tout : NT) (openEnd : Bool) : Resv :=
  { seg := r.1, kind := .envelope, openEnd, robot := i, epoch := (s.lease i).epoch, w, tin, tout := if openEnd then 0 else tout,
    lo := r.2.1, hi := r.2.2, frozen := openEnd && (s.lease i).st != .admitting && (s.lease i).st != .active
      || (s.lease i).st == .suspect || (s.lease i).st == .dead }

/-- The standing envelope of an admission (R191). -/
def Dev.areaEnvelope (s : Dev) (i : Nat) : List Resv :=
  match s.trl.graph with
  | none => []
  | some g =>
    let l := s.lease i
    let c := s.cls l.cls
    let m := ceilDiv (max c.front c.rear) 10 + l.padded
    let w := ceilDiv (c.hw + s.margin 2) 10
    (g.widen l.area.1 l.area.2.1 l.area.2.2 m).map fun r => envResv s i w r s.nt 0 true

/-- The evaluation of a robot on its route at `t` (R30): the envelope and whether it travels backward. -/
def Dev.evalRoute (s : Dev) (i : Nat) (p : Proj) (t : NT) : Option (Env × List (Nat × Nat × Nat) × Nat × Int × Int) :=
  match s.trl.graph, (s.rob i).route with
  | some g, some r =>
    let x := s.rob i
    let c := s.cls (s.lease i).cls
    let mq := s.mq x p.grade
    let back := decide (p.v < 0)
    let ahead : Int := match x.sGrant with
      | some sg => min (max sg p.s) (p.s + 50000)
      | none => p.s + 50000
    let vlim := if back then g.vLimAhead r.hops (p.s - 50000) p.s else g.vLimAhead r.hops p.s ahead
    let gap := x.sGrant.map fun sg => (sg - p.s).toNat
    let e := envEval c mq p.v.natAbs (c.bound back) vlim gap (ntSince t p.tObs)
    let fwd : Int := (e.cm (if back then c.rear else c.front) : Nat)
    let rear : Int := (ceilDiv ((if back then c.front else c.rear) + mq) 10 : Nat)
    let lo := if back then p.s / 10 - fwd else (p.s - 10 * rear) / 10
    let hi := if back then (p.s + 10 * rear + 9) / 10 else (p.s + 10 * fwd + 9) / 10
    let w := ceilDiv (c.hw + mq + p.e.natAbs) 10
    some (e, g.render r.hops lo hi back, w, lo, hi)
  | _, _ => none

/-- Ranges of the segments that come within `rho` mm of a point, in cm (R192). -/
def Graph.around (g : Graph) (p : Pt) (rho : Nat) : List (Nat × Nat × Nat) :=
  g.segs.filterMap fun x => (g.nearRange x x [(p, p)] (rho * 1000)).map fun v => (x.id, v)

/-- The area envelope of an OFF_ROUTE robot at `t` (R192). -/
def Dev.evalArea (s : Dev) (i : Nat) (p : Proj) (t : NT) : Option (Env × List (Nat × Nat × Nat) × Nat × Int × Int) :=
  s.trl.graph.map fun g =>
    let c := s.cls (s.lease i).cls
    let bound := if c.reverse then max c.vMax c.vRev else c.vMax
    let e := envEval c (s.mq (s.rob i) p.grade) p.speed bound none none (ntSince t p.tObs)
    let rho := 10 * e.cm (max c.front c.rear)
    (e, g.around (p.pe * 1000, p.pn * 1000) rho, ceilDiv (rho + c.hw) 10, 0, 0)

/-- Every other reservation than the robot's ENVELOPE set. -/
def dropEnv (l : List Resv) (i : Nat) : List Resv := l.filter fun r => !(r.robot = i && r.kind = .envelope)

/-- Replace the robot's ENVELOPE set in one step (R193). -/
def Dev.putEnv (s : Dev) (i : Nat) (es : List Resv) : Dev := (s.useViews es).setResv (dropEnv s.trl.resv i ++ es)

/-- Is the robot's ground to be rendered from a projection? -/
def Dev.projected (s : Dev) (i : Nat) : Option Proj :=
  if (s.lease i).st = .admitting then none else (s.rob i).proj

/-- Envelope maintenance of one robot at `t` (R191, R193); `standing` makes the footprint of R23. -/
def Dev.envelope (s : Dev) (i : Nat) (t : NT) (standing : Bool) : Dev :=
  match s.projected i with
  | none =>
    if (s.lease i).st = .admitting || standing then s.putEnv i (s.areaEnvelope i)
    else s
  | some p =>
    let x := s.rob i
    match (if x.offRoute then s.evalArea i p t else s.evalRoute i p t) with
    | none => s
    | some (e, rs, w, lo, hi) =>
      let c := s.cls (s.lease i).cls
      let s := s.setRob i { x with
        ve := ceilDiv e.ve envQ, lfwd := e.cm 0, w, envLen := (hi - lo).toNat, evalAt := t,
        gradeUsed := if p.grade = 0 then x.grade.getD 1 else p.grade }
      s.putEnv i (rs.map fun r => envResv s i w r t (e.until_ c t) standing)

/-! ### What a robot holds -/

/-- Does a reservation list hold an OFFERED entry of the robot (R25)? -/
def Dev.holdsOffered (s : Dev) (i : Nat) : Bool := s.trl.resv.any fun r => r.robot = i && r.kind = .offered

/-- One round over the dependences: a robot that depends on an affected one joins at the later of its first dependent step and that one's
join step, the earliest of those it could join at. -/
def growRound (deps : List (Nat × Nat × Nat)) (aff : List (Nat × Nat)) : List (Nat × Nat) :=
  deps.foldl (fun aff d =>
    match aff.find? fun a => a.1 = d.2.1 with
    | none => aff
    | some a =>
      let k := sfLater d.2.2 a.2
      match aff.find? fun b => b.1 = d.1 with
      | none => aff ++ [(d.1, k)]
      | some b => if sfReached k b.2 then aff else mapWhere (fun c => c.1 == d.1) (fun _ => (d.1, k)) aff) aff

/-- The affected set of a prune (R199): rounds until nothing is added; with `n` no smaller than the dependences it stops growing. -/
def growPrune (deps : List (Nat × Nat × Nat)) : Nat → List (Nat × Nat) → List (Nat × Nat)
  | 0, aff => aff
  | n + 1, aff => let more := growRound deps aff; if more = aff then aff else growPrune deps n more

/-- The dependences of every robot (R198): (`Y`, `X`, first step). -/
def Dev.deps (s : Dev) : List (Nat × Nat × Nat) :=
  s.trl.robots.flatMap fun p => p.2.deps.map fun d => (p.1, d.1, d.2)

/-- The step at which a SPECULATIVE entry stands: that of the plan, or for a `HOST` entry the slotframe in which its window
begins (DEDUCED, log entry 90). -/
def Resv.specStep (r : Resv) : Nat := if r.host then slotframeOf r.tin.toNat else r.step

/-- A robot's first SPECULATIVE step; without one the present slotframe. -/
def Dev.firstSpec (s : Dev) (i : Nat) : Nat :=
  match (s.trl.resv.filter fun r => r.robot = i && r.kind = .spec).map Resv.specStep with
  | [] => slotframeOf s.nt.toNat
  | k :: l => l.foldl (fun a b => if sfReached b a then a else b) k

end Sys2Proof.Machine
end

