-- ==== Sys2Proof/Machine/TxnOps.lean ====
section
/-! DEFINITION. Operations shared by transactions, tasks and Prune: aborts (R238), settlement (R234), the prune itself
(R199), full re-plans (R201), the end of a lease's part (R211, R234), and what a stop does to them (R194, R240). -/
namespace Sys2Proof.Machine

/-- Host transactions in flight (R224, R248): until `DONE`, which an `AXIS_MOVE` has at the end of its move (R300); a patch is one
(R182). -/
def Dev.inFlight (s : Dev) : Nat :=
  (s.txu.txns.filter fun (x : Txn) => x.host && x.handle.isSome).length + (s.trl.patches.filter fun p => !p.far).length +
    (s.axes.filter fun p => match p.2.move with | some m => m.handle.isSome | none => false).length

/-! ### Tasks -/

def Dev.task (s : Dev) (i : Nat) : Task := Tab.get (fun _ => {}) s.txu.tasks i
def Dev.setTask (s : Dev) (i : Nat) (t : Task) : Dev :=
  { s with txu := { s.txu with tasks := Tab.set (fun _ => {}) s.txu.tasks i t } }

/-- The next `TVER` (R212). -/
def nextVer (v : Nat) : Nat := if v = 0xFFFF then 1 else v + 1

/-- The task a slot holds (R249). -/
def Dev.taskOf (s : Dev) (slot : Nat) : Option Nat :=
  ((s.txu.tasks.filter fun p => p.2.st = .held && p.2.holder = some slot).head?).map (·.1)

/-- Is the slot named by a PENDING task's transaction as its new holder? -/
def Dev.pendingHolder (s : Dev) (slot : Nat) : Bool :=
  s.txu.txns.any fun t => t.phase != .applied && t.tasks.any fun c => c.state = 3 && c.robot = slot

/-- Length of [`a`, `b`] that a list of intervals covers, in mm: by the breakpoints of the intervals. -/
def coveredLen (ivs : List (Nat × Nat)) (a b : Nat) : Nat :=
  let cuts := (ivs.flatMap fun v => [v.1, v.2]).filter fun x => decide (a < x ∧ x < b)
  let pts := (a :: cuts ++ [b]).mergeSort
  (pts.zip pts.tail).foldl (fun n p => if ivs.any fun v => decide (v.1 ≤ p.1 ∧ p.2 ≤ v.2) then n + (p.2 - p.1) else n) 0

/-- Span metres that a list of intervals covers (R214). -/
def credited (spans : List Span) (ivs : List (Nat × Nat)) : Nat := spans.foldl (fun n x => n + coveredLen ivs x.lo x.hi) 0

/-- The intervals of a task's generations. -/
def Task.ivs (t : Task) : List (Nat × Nat) := t.gens.map fun g => (g.s, g.m)

/-- Raise the mark of generation `k` (R214): its credit grows by what no generation covered before. -/
def Task.raise (t : Task) (k m : Nat) : Task :=
  match t.gens[k]? with
  | none => t
  | some g =>
    let before := credited t.spans t.ivs
    let gens := t.gens.set k { g with m := max g.m m }
    let after := credited t.spans (gens.map fun g => (g.s, g.m))
    { t with gens := t.gens.set k { g with m := max g.m m, credit := g.credit + (after - before) } }

/-- A task loses its holder because the lease ended (R211). -/
def Task.orphan (t : Task) (dead : Bool) : Task :=
  { t with st := .orphaned, holder := none, gens := t.gens.map fun g => if g.current then { g with current := false, endedDead := dead } else g }

/-! ### Transactions -/

def Dev.txn? (s : Dev) (id : Nat) : Option Txn := if id = 0 then none else s.txu.txns.find? fun t => t.id == id
def Dev.setTxn (s : Dev) (t : Txn) : Dev :=
  { s with txu := { s.txu with txns := s.txu.txns.map fun x => if x.id = t.id ∧ x.handle = t.handle ∧ x.received = t.received then t else x } }

/-- Replace by id: ids of transactions in flight are distinct once validated. -/
def Dev.updTxn (s : Dev) (id : Nat) (f : Txn → Txn) : Dev :=
  if id = 0 then s else { s with txu := { s.txu with txns := mapWhere (fun t => t.id == id) f s.txu.txns } }

/-- Does an action make its transaction a fleet transaction (R221)? -/
def Action.fleet : Action → Bool
  | .taskSet .. => true
  | .setpoint l _ _ | .loopMode l _ _ _ _ => decide (24 ≤ l)
  | _ => false

/-- Is a transaction a fleet transaction? A step transaction is. -/
def Txn.fleet (t : Txn) : Bool := t.step || t.acts.any Action.fleet

/-- The instant of a transaction's cut-off. -/
def Txn.cutAt (t : Txn) : Option NT :=
  let ms : Int := -((msTicks 1 : Nat) : Int)
  if t.phase = .offered then some (ntAdd t.cNt ms)
  else if t.phase = .staged && !t.fleet then t.applyAt.map fun a => ntAdd a ms
  else none

/-- Is the cut-off of a transaction still to come (R239, R240), by the clock: at the instant itself it has passed. -/
def Txn.open_ (t : Txn) (now : NT) : Bool :=
  t.phase = .waiting || (match t.cutAt with | some a => ntAfter a now | none => false)

/-- `DONE` of a transaction (R381): id, participants confirmed and ended, index of a failing action. -/
def txnDone (t : Txn) (idx : Nat) : List Byte :=
  leBytes t.id 3 ++ [0] ++ leBytes ((t.parts.filter fun p => p.confirmed).length) 2 ++
    leBytes ((t.parts.filter fun p => !p.confirmed && p.ended).length) 2 ++ leBytes idx 1

/-- The `DONE` of the commands a transaction answers: those of a round carry no result (R218, R381). -/
def Dev.doneTxn (s : Dev) (t : Txn) (status idx : Nat) : Dev :=
  t.also.foldl (fun s h => s.done h status []) (s.doneOpt t.handle status (if t.round then [] else txnDone t idx))

/-- A `PROGRESS` entry of a transaction; a round has its own (R381). -/
def Dev.progressTxn (s : Dev) (t : Txn) (code : Nat) (res : List Byte) : Dev :=
  match t.handle with
  | some h => if t.round then s else s.progress h code res
  | none => s

/-- Complete the command of a transaction. -/
def Dev.finishTxn (s : Dev) (t : Txn) (status : Nat) (idx : Nat) : Dev :=
  (s.doneTxn t status idx).updTxn t.id fun t => { t with handle := none, host := false, also := [] }

/-- Tasks that a transaction made PENDING return (R211). -/
def Dev.unpend (s : Dev) (t : Txn) : Dev :=
  t.tasks.foldl (fun s c =>
    let k := s.task c.task
    if k.st = .pending then
      let s := s.setTask c.task { k with st := k.was }
      if k.was = .open_ || k.was = .orphaned then { s with trl := { s.trl with taskChange := true } } else s
    else s) s

/-- Drop a transaction from flight. -/
def Dev.dropTxn (s : Dev) (t : Txn) : Dev :=
  { s with txu := { s.txu with txns := s.txu.txns.filter fun x => !(x.id = t.id && x.received = t.received && x.handle = t.handle) } }

/-- Release marks of a transaction cleared: the old set stands. -/
def clearUnion (id : Nat) (l : List Resv) : List Resv :=
  l.map fun r =>
    let r := if r.relBy = id then { r with relBy := 0, uOld := false } else r
    if r.txn = id then { r with uNew := false } else r

/-- Abort (R238): staged entries leave at once, offered ones with the apply time (R35); tasks return from PENDING; queued
frames go whole. `count` is false for a refusal at validation. -/
def Dev.abortTxn (s : Dev) (t : Txn) (status : Nat) (idx : Nat) (count : Bool) : Dev :=
  let s := if count then s.cntSat (0x902C, 16, 16) else s
  let s := (s.unpend t).purgeTxn t.id
  let s := if t.id = 0 then s else
    s.setResv (clearUnion t.id (s.trl.resv.filter fun r => !(r.txn = t.id && r.staged)))
  let s := s.doneTxn t status idx
  if t.phase = .offered || t.phase = .listed then
    s.updTxn t.id fun t => { t with phase := .failed, handle := none, host := false, tasks := [], also := [] }
  else s.dropTxn t

/-- The command of a patch, and whether two patches are one; a mirrored patch (R502) has no command here. -/
def Patch.cmd (p : Patch) : Option Nat := if p.far then none else some p.handle
def Patch.is (p q : Patch) : Bool := p.handle == q.handle && p.far == q.far

/-- A patch ends without effect (R184, R239-R241): a local transaction that aborts. `count` is false for a refusal at validation. -/
def Dev.abortPatch (s : Dev) (p : Patch) (status idx : Nat) (count : Bool) : Dev :=
  let s := { s with trl := { s.trl with patches := s.trl.patches.filter fun (x : Patch) => !x.is p } }
  let s := if count then s.cntSat (0x902C, 16, 16) else s
  s.doneOpt p.cmd status (txnDone { id := p.txn } idx)

/-- Is a patch's cut-off still to come (R228: 1 ms before its apply time)? -/
def Patch.open_ (p : Patch) (t : NT) : Bool :=
  match p.applyAt with | some a => ntAfter (ntAdd a (-(msTicks 1 : Nat))) t | none => true

/-- End of the union and settlement (R234). -/
def Dev.settleTxn (s : Dev) (id : Nat) : Dev :=
  match s.txn? id with
  | none => s
  | some t =>
    if t.phase = .applied && t.parts.all fun p => p.confirmed || p.ended then
      let s := s.setResv (clearUnion id (s.trl.resv.filter fun r => !(r.relBy = id)))
      (s.doneTxn t stOK 0xFF).dropTxn t
    else s

/-- Settle every transaction that can be. -/
def Dev.settleTxns (s : Dev) : Dev := (s.txu.txns.map (·.id)).foldl (fun s id => s.settleTxn id) s

/-- A lease ends its part in every applied or committed transaction (R234). -/
def Dev.endParts (s : Dev) (slot : Nat) : Dev :=
  let f : Txn → Txn := fun t =>
    { t with parts := mapWhere (fun (p : Part) => p.slot == slot) (fun (p : Part) => { p with ended := p.ended || !p.confirmed }) t.parts }
  Dev.settleTxns { s with txu := { s.txu with txns := s.txu.txns.map f } }

/-- Uncommitted transactions of a participant abort (R241). -/
def Dev.abortParts (s : Dev) (slot status : Nat) : Dev :=
  (s.txu.txns.filter fun t => t.open_ s.nt &&
    (t.parts.any (fun p => p.slot = slot) || t.acts.any fun a => match a with
      | .taskSet _ r _ _ => r = slot
      | .setpoint l _ _ => 24 ≤ l && (l - 24) / 2 = slot
      | .loopMode l _ _ _ _ => 24 ≤ l && (l - 24) / 2 = slot
      | _ => false)).foldl (fun s t => s.abortTxn t status 0xFF true) s

/-! ### Full re-plan and Prune -/

/-- Every planned step not yet handed off is forgotten. -/
def Dev.dropPlans (s : Dev) : Dev :=
  let f : Nat → TrlRobot → TrlRobot := fun _ r => { r with plan := r.plan.filter (·.handed), deps := [] }
  { s with trl := { s.trl with robots := Tab.mapListed (fun _ => {}) f s.trl.robots } }

/-- The count and the time of a prune that removed `n` entries (R200, R206). -/
def Dev.countPrune (s : Dev) (n : Nat) : Dev :=
  let dur := 80 + ceilDiv (10 * n) 512
  let s := (s.cntWrap (0x8040, 0, 16)).note 0x450 dur []
  s.setFld (0x8040, 16, 16) (max (s.fld (0x8040, 16, 16)) (sat 16 dur))

/-- Transactions that own `STAGED` entries a prune reaches abort first (R199). -/
def Dev.abortOwners (s : Dev) (hit : Resv → Bool) : Dev :=
  let owners := ((s.trl.resv.filter fun r => hit r && r.staged).map (·.txn)).eraseDups
  owners.foldl (fun s id => match s.txn? id with
    | some t => s.abortTxn t 0x0501 0xFF true
    | none => s) s

/-- A prune of what `hit` names. -/
def Dev.pruneHit (s : Dev) (hit : Resv → Bool) : Dev :=
  let n := (s.trl.resv.filter hit).length
  let s := s.abortOwners hit
  (s.setResv (s.trl.resv.filter fun r => !hit r)).countPrune n

/-- Ask for a full re-plan (R199, R201): every SPECULATIVE entry goes, and leave is asked once. -/
def Dev.askReplan (s : Dev) : Dev :=
  let s := (s.pruneHit fun r => r.kind = .spec).dropPlans
  if s.trl.replanAsked then s
  else
    ({ s with trl := { s.trl with replanAsked := true } }).askLeave 2 (50 * s.fld (0x8020, 24, 8))
      (msTicks (s.fld (0x8020, 8, 8))) (ntAdd s.nt (msTicks (10 * s.fld (0x8020, 16, 8)))) .replan

/-- A prune of robots from given steps (R199): the dependents join, owning transactions abort first, the entries go. -/
def Dev.prune (s : Dev) (start : List (Nat × Nat)) : Dev :=
  let deps := s.deps
  let aff := growPrune deps (deps.length + 1) start
  let s := s.pruneHit fun r => r.kind = .spec && aff.any fun a => a.1 = r.robot && sfReached r.specStep a.2
  let s := aff.foldl (fun s a =>
    let x := s.rob a.1
    s.setRob a.1 { x with plan := x.plan.filter (fun p => p.handed || !sfReached p.sf a.2), replan := true
                          deps := x.deps.filter fun d => !sfReached d.2 a.2 }) s
  if s.fld (0x8020, 0, 8) < aff.length then s.askReplan else s

/-- Prune a robot from its first SPECULATIVE step. -/
def Dev.pruneAll (s : Dev) (i : Nat) : Dev := s.prune [(i, s.firstSpec i)]

/-- Stop entry (R194, R240): transactions that do not stand abort with their own status, then every SPECULATIVE entry
goes but the `STAGED` ones of transactions that stand. -/
def Dev.stopMotion (s : Dev) (safe : Bool) : Dev :=
  let s := (s.txu.txns.filter fun t => (safe || !t.stopSafe) && t.open_ s.nt).foldl
    (fun s t => s.abortTxn t (if safe then stSafe else stStopped) 0xFF true) s
  let s := if safe then (s.trl.patches.filter fun p => p.open_ s.nt).foldl (fun s p => s.abortPatch p stSafe 0xFF true) s else s
  (s.pruneHit fun r => r.kind = .spec && !r.staged).dropPlans

/-! ### A robot's tasks and loops at the end of its lease -/

/-- Tasks of a slot whose lease ended become ORPHANED (R211). -/
def Dev.orphanTasks (s : Dev) (slot : Nat) (dead : Bool) : Dev :=
  match s.taskOf slot with
  | none => s
  | some k =>
    let s := s.setTask k ((s.task k).orphan dead)
    { s with trl := { s.trl with taskChange := true } }

/-- A loop slot. -/
def Dev.loop (s : Dev) (n : Nat) : LoopSlot := Tab.get (fun _ => {}) s.ctl.loops n
def Dev.setLoop (s : Dev) (n : Nat) (l : LoopSlot) : Dev :=
  { s with ctl := { s.ctl with loops := Tab.set (fun _ => {}) s.ctl.loops n l } }

/-- A robot's loops opened with output 0 (R259); at an admission its references return to R261's. -/
def Dev.zeroLoops (s : Dev) (slot : Nat) (fresh : Bool) : Dev :=
  let z : LoopSlot → Int → LoopSlot := fun l r =>
    { l with st := .open_, i := 0, d := 0, u := 0, misses := 0, ref := if fresh then r else l.ref
             refNow := if fresh then 10 * r else l.refNow, steer := if fresh then false else l.steer }
  let s := s.setLoop (24 + 2 * slot) (z (s.loop (24 + 2 * slot)) 0)
  s.setLoop (25 + 2 * slot) (z (s.loop (25 + 2 * slot)) ((s.cls (s.lease slot).cls).vMax : Nat))

/-! ### Persisted dispositions (R14, R28) -/

/-- Write a slot's record: its disposition, epoch, UID, and for held ground the footprint. -/
def Dev.persist (s : Dev) (i : Nat) : Dev :=
  let l := s.lease i
  let old : Disp := Tab.get (fun _ => {}) s.nv.disp i
  let foot := (s.trl.resv.filter fun r => r.robot = i && r.kind = .envelope && r.openEnd).map fun r => (r.seg, r.lo, r.hi, r.w)
  let kind := match l.st with
    | .unknown => 0
    | .released => if l.unplaced then 3 else if l.parked then 2 else 1
    | .dead => if l.stopped then 2 else 3
    | _ => 3
  let pend := s.trl.pendingFp.find? fun f => f.slot == i
  let d : Disp := match pend with
    | some f => { kind, epoch := l.epoch, uid := l.uid, graphId := f.graphId, ents := f.ents }
    | none => { kind, epoch := l.epoch, uid := l.uid, graphId := (s.trl.graph.map (·.id)).getD old.graphId,
                ents := if kind = 2 then foot else [] }
  { s with nv := { s.nv with disp := Tab.set (fun _ => {}) s.nv.disp i d } }

/-- Set a lease and write its record. -/
def Dev.putLease (s : Dev) (i : Nat) (l : Lease) : Dev := (s.setLease i l).persist i

end Sys2Proof.Machine
end

