-- ==== Sys2Proof/Machine/FrkOps.lean ====
section
/-! DEFINITION. Operations on filter slots (R150, R167, R168) and on the receiver states of robots (R134). -/
namespace Sys2Proof.Machine

def Dev.frkSlot (s : Dev) (i : Nat) : FrkSlot := Tab.get (fun _ => {}) s.frk.slots i
def Dev.setFrkSlot (s : Dev) (i : Nat) (x : FrkSlot) : Dev :=
  { s with frk := { s.frk with slots := Tab.set (fun _ => {}) s.frk.slots i x } }

/-- A slot's last record (R159): with it the last position, and the last one published while the receiver was not SUSPECT (R131). -/
def FrkSlot.hold (x : FrkSlot) (r : PosRec) (suspect : Bool) : FrkSlot :=
  { x with rec_ := some r, pos := if r.noPos then x.pos else some r, aid := if r.noPos || suspect then x.aid else some r }

/-- The receiver of a robot. -/
def Dev.rover (s : Dev) (i : Nat) : Rover := Tab.get (fun _ => {}) s.snp.rovers i
def Dev.setRover (s : Dev) (i : Nat) (x : Rover) : Dev :=
  { s with snp := { s.snp with rovers := Tab.set (fun _ => {}) s.snp.rovers i x } }

/-- Epoch rate of the engine in Hz (R84, R109). -/
def rateHz (code : Nat) : Nat := [0, 1, 2, 4, 5, 10, 20, 0].getD code 0
def Dev.epochHz (s : Dev) : Nat := rateHz (s.fld (0x5014, 0, 3))

/-- A search whose slot resets is discarded; its leave is kept until the engine is free (R168). -/
def Search.discard : Search → Search
  | .running e t _ => .running e t true
  | _ => .none_

/-- Is an epoch of the slot in service? -/
def Dev.serving (s : Dev) (i : Nat) : Bool := s.frk.queue.any fun (q : FrkEpoch) => q.slot == i && q.eng.isSome

/-- A full reset (R150, R168): position, velocity, covariance and ambiguities go, and with them a large search. Queued epochs of the
slot stay queued, and one in service ends with the filter it was dispatched with (DEDUCED, log entry 109). -/
def Dev.frkReset (s : Dev) (i : Nat) (st : FrkState) : Dev :=
  let x := s.frkSlot i
  let s := if x.search = .asked then s.dropLeave (.largeSearch i) else if x.search = .granted then s.returnLeave (.largeSearch i) else s
  let keep : FrkEpoch → FrkEpoch := fun q => if q.slot = i && q.eng.isSome && q.kept.isNone then { q with kept := some x.filt } else q
  let s := { s with frk := { s.frk with queue := s.frk.queue.map keep } }
  s.setFrkSlot i { x with st, filt := {}, odoRun := 0, search := x.search.discard, hunt := none }

/-- A wait on a reset ends (R167). -/
def Dev.endReset (s : Dev) (i code : Nat) : Dev :=
  match (s.frkSlot i).reset with
  | some r => (s.setFrkSlot i { s.frkSlot i with reset := none }).done r.handle code []
  | none => s

/-- `LEASE_STALE`. -/
def Dev.staleReset (s : Dev) (i : Nat) : Dev := s.endReset i stStale

/-- The slot's lease ends (R150): a wait on a reset completes `LEASE_STALE`, nothing more is taken in, and the slot is FROZEN: at once,
or once its epoch in service is published (R168). -/
def Dev.frkFreeze (s : Dev) (i : Nat) : Dev :=
  let s := s.staleReset i
  let x := s.frkSlot i
  let s := { s with frk := { s.frk with queue := s.frk.queue.filter fun (q : FrkEpoch) => q.slot != i || q.eng.isSome } }
  if x.st = .waiting || x.st = .running then
    s.setFrkSlot i (if s.serving i then { x with freezing := true } else { x with st := .frozen })
  else s

/-- An epoch of the slot leaves service: a slot whose lease has ended freezes (R168). -/
def Dev.frkServed (s : Dev) (i : Nat) : Dev :=
  let x := s.frkSlot i
  if x.freezing && !s.serving i then s.setFrkSlot i { x with st := .frozen, freezing := false } else s

/-- The slot's lease enters ADMITTING (R149-R151): full reset, the rover profile stored for it is applied, and the newest accepted
`T_OBS` is forgotten. The last record stays readable; its position is no position of the new lease. -/
def Dev.frkAdmit (s : Dev) (i : Nat) : Dev :=
  let s := { s with frk := { s.frk with queue := s.frk.queue.filter fun (e : FrkEpoch) => e.slot != i } }
  let s := (s.staleReset i).frkReset i .waiting
  let x := s.frkSlot i
  let s := s.setFrkSlot i { x with prof := x.profNext.getD x.prof, profNext := none, newest := none, pos := none, aid := none
                                   skipped := false, prevDone := false, freezing := false, obs := [] }
  (s.setRover i {})

/-- `BASE_SEQ` changes at `t` (R150, R168): every slot resets once, and the queued epochs whose `T_OBS` precedes the change are
discarded as `NO_BASE`. -/
def Dev.frkRebase (s : Dev) (t : NT) : Dev :=
  let old (q : FrkEpoch) : Bool := q.eng.isNone && ntAfter t q.tObs
  let n := (s.frk.queue.filter old).length
  let s := { s with frk := { s.frk with queue := s.frk.queue.filter fun q => !old q } }
  let s := s.setFld (0x705C, 24, 8) (sat 8 (s.fld (0x705C, 24, 8) + n))
  (s.frk.slots.map (·.1)).foldl (fun s i =>
    match (s.frkSlot i).st with
    | .waiting | .running => s.frkReset i .waiting
    | .frozen => s.frkReset i .frozen
    | .empty => s) s

/-- Report rates of the leases that count against the rated load, per second (R164), but for one slot. -/
def Dev.ratedLoad (s : Dev) (except : Nat) : Nat :=
  s.txu.leases.foldl (fun n p =>
    let l := p.2
    if p.1 ≠ except ∧ (l.st = .admitting ∨ l.st = .active ∨ l.st = .suspect ∨ l.st = .dead) then n + 10 / l.tRep else n) 0

end Sys2Proof.Machine
end

