-- ==== Sys2Proof/Machine/CtlOps.lean ====
section
/-! DEFINITION. Loop slots: gain records (R256), the control law (R252), its limits (R254), opening and closing (R258),
and the braking figures of R273, R274 and R276. -/
namespace Sys2Proof.Machine

/-! ### Gain records and slot words (R256, R281, R282) -/

/-- Word `k` of a gain record, read through `rd`: 0 `KP`, 1 `KI`, 2 `KD`, 3 `TF`, 4 `KB`, 5 `U_MIN`, 6 `U_MAX`, 7 `RATE_MAX`. -/
def gainWord (rd : Nat → Reg) (g k : Nat) : F32 := (rd (0xA100 + 0x20 * g + 4 * k)).toNat

/-- Is a gain record valid (R256)? -/
def gainValid (rd : Nat → Reg) (g : Nat) : Bool :=
  let w := gainWord rd g
  (List.range 8).all (fun k => fFinite (w k)) && [0, 1, 2, 4, 7].all (fun k => fLe 0 (w k)) &&
    (fEq (w 2) 0 || fLt 0 (w 3)) && fLt (w 5) (w 6) && fLt 0 (w 7)

/-- The record of a set of a slot (0 = A, 1 = B), and the active set. -/
def loopRec (rd : Nat → Reg) (n set : Nat) : Nat := fieldOf (rd (0xA500 + 4 * n)) (5 * set) 5
def loopSet (rd : Nat → Reg) (n : Nat) : Nat := fieldOf (rd (0xA500 + 4 * n)) 10 1
def Dev.loopGain (s : Dev) (n k : Nat) : F32 := gainWord s.reg (loopRec s.reg n (loopSet s.reg n)) k

/-- `BUMP` and `MISSED` of a slot word. -/
def lpBump (n : Nat) : Fld := (0xA500 + 4 * n, 18, 1)
def lpMissed (n : Nat) : Fld := (0xA500 + 4 * n, 19, 1)

/-- Robot of a loop slot, and whether the slot is its longitudinal one (R250). -/
def loopRobot (n : Nat) : Option Nat := if 24 ≤ n then some ((n - 24) / 2) else none
def loopLon (n : Nat) : Bool := decide (24 ≤ n) && n % 2 = 1

/-- Sample period of a slot in s (R250, R281). -/
def Dev.loopTs (s : Dev) (n : Nat) : F32 :=
  match loopRobot n with
  | some i => fOfRat (s.lease i).tRep 10
  | none => fOfRat 1 (1000 * 2 ^ s.fld (0xA500 + 4 * n, 12, 2))

/-! ### The law (R252) and its limits (R254) -/

/-- A value held within a range. -/
def fClamp (lo hi v : F32) : F32 := fMax lo (fMin hi v)

/-- The rate limit (item 5): a decrease of magnitude that items 2 to 4 force is not limited. -/
def rateLimit (prev step v1 v2 : F32) : F32 :=
  let r := fClamp (fSub prev step) (fAdd prev step) v2
  if fLt (fAbs v2) (fAbs v1) && fLe (fAbs v2) (fAbs r) then v2 else r

/-- The chain of R254 on a slot: `inner` is what items 2 to 4 do. The record of an OPEN slot may be invalid (R256): it then limits
nothing (DEDUCED, log entry 37). -/
def Dev.limitOut (s : Dev) (n : Nat) (inner : F32 → F32) (prev v : F32) : F32 :=
  let ok := gainValid s.reg (loopRec s.reg n (loopSet s.reg n))
  let v1 := if ok then fClamp (s.loopGain n 5) (s.loopGain n 6) v else v
  let own : Option F32 := if ok then some (s.loopGain n 7) else none
  let rate : Option F32 := match loopRobot n with
    | some i =>
      let a := fOfRat (s.cls (s.lease i).cls).aMax 1000
      if loopLon n then some (match own with | some r => fMin r a | none => a) else own
    | none => own
  match rate with
  | some r => rateLimit prev (fMul r (s.loopTs n)) v1 (inner v1)
  | none => inner v1

/-- One computation of a CLOSED slot (R252): the new slot and its unlimited output. -/
def Dev.law (s : Dev) (n : Nat) (l : LoopSlot) (e ff : F32) (limit : F32 → F32) : LoopSlot × F32 :=
  let ts := s.loopTs n
  let k := s.loopGain n
  let p := fMul (k 0) e
  let d := fDiv (fAdd (fMul (k 3) l.d) (fMul (k 2) (fSub e l.ePrev))) (fAdd (k 3) ts)
  let v := fAdd (fAdd (fAdd ff p) l.i) d
  let u := limit v
  let ke := fMul (k 1) e
  let i := if n ≤ 15 then
      (if !fEq u v && fSign ke == fSign (fSub v u) then l.i else fAdd l.i (fMul (fMul ts (k 1)) e))
    else fAdd l.i (fMul ts (fAdd ke (fMul (k 4) (fSub u v))))
  ({ l with i, d, ePrev := e, u, ff, sat := !fEq u v }, v)

/-- Is every value of a slot finite (R253)? -/
def LoopSlot.finite (l : LoopSlot) : Bool := [l.i, l.d, l.ePrev, l.u, l.ff].all fFinite

/-- A slot opens (R258): the integrator absorbs the other terms and freezes. -/
def LoopSlot.opened (l : LoopSlot) : LoopSlot :=
  if l.st = .open_ then l else { l with st := .open_, i := fSub l.u l.ff, misses := 0 }

/-- A numeric fault (R253): the slot is open with its integrator at 0. -/
def Dev.numericFault (s : Dev) (n : Nat) (l : LoopSlot) (ff : F32) (limit : F32 → F32) : Dev :=
  let u := limit ff
  let l := { l with st := .open_, i := 0, d := 0, ePrev := 0, ff, u := if fFinite u then u else 0 }
  ((s.setLoop n l).cntSat (0xA024, 16, 16)).raise 0x75

/-- A slot closes on a set (R258): initialised from the last output, and a clamp that changes the integrator is a bump. -/
def Dev.closeLoop (s : Dev) (n set : Nat) (e ff : F32) (limit : F32 → F32) : Dev :=
  let s := s.setFld (0xA500 + 4 * n, 10, 1) set
  let l := s.loop n
  let kpe := fMul (s.loopGain n 0) e
  let base := fAdd ff kpe
  let i0 := fSub (fSub l.u ff) kpe
  let out := fAdd base i0
  let i := if fLt out (s.loopGain n 5) then fSub (s.loopGain n 5) base
    else if fLt (s.loopGain n 6) out then fSub (s.loopGain n 6) base else i0
  let l := { l with st := .closed, d := 0, ePrev := e, i, ff, misses := 0 }
  if !l.finite then s.numericFault n l ff limit
  else
    let s := s.setLoop n l
    if fEq i i0 then s else ((s.setFld (lpBump n) 1).cntSat (0xA020, 16, 16)).raise 0x73

/-- Bench-held slots (R257). -/
def Dev.benchHeld (s : Dev) (n : Nat) : Bool := s.ben.held.contains n

/-- SAFE (R264): every slot is open, its integrator and its output 0. -/
def Dev.loopsSafe (s : Dev) : Dev :=
  let f : Nat → LoopSlot → LoopSlot := fun _ l => { l with st := .open_, i := 0, d := 0, u := 0, misses := 0 }
  { s with ctl := { s.ctl with loops := Tab.mapListed (fun _ => {}) f s.ctl.loops } }

/-! ### Stopping distances (R273, R274, R276), mm and mm/s -/

/-- Does the comfortable stop from `v` end within `gap`? -/
def stopWithin (a j gap v : Nat) : Bool :=
  if a * a ≤ v * j then decide (v * v * j + v * a * a ≤ 2 * a * j * gap) else decide (v * v * v ≤ gap * gap * j)

/-- The distance of the comfortable stop, rounded up. -/
def stopDist (a j v : Nat) : Nat :=
  if a * a ≤ v * j then ceilDiv (v * v * j + v * a * a) (2 * a * j) else isqrtUp (ceilDiv (v * v * v) j)

/-- The distance of the braking profile of R276 from `v`, rounded up: `A_BRK` reached linearly in `BRK_LAT`, then held. -/
def brakeDist (a lat v : Nat) : Nat :=
  if 2000 * v ≤ a * lat then isqrtUp (ceilDiv (8 * v * v * v * lat) (9000 * a))
  else
    -- v t - a t^2/6 + (v - a t/2)^2/(2 a), t = lat ms, over 24 a 10^6
    let w := 2000 * v - a * lat
    ceilDiv (24000 * a * v * lat - 4 * a * a * lat * lat + 3 * w * w) (24000000 * a)

/-- The grant limit of R274: the largest whole mm/s whose stop ends within the gap. -/
def Dev.grantLimit (c : ClassRec) (braking : Bool) (gap : Nat) : Nat :=
  if gap = 0 then 0
  else largest (fun v => if braking then decide (brakeDist c.aBrk c.lat v ≤ gap) else stopWithin c.aMax c.jMax gap v) 15 0

/-- The profile generator's view of a robot. -/
def Dev.prf (s : Dev) (i : Nat) : PrfRobot := Tab.get (fun _ => {}) s.ctl.prf i
def Dev.setPrf (s : Dev) (i : Nat) (x : PrfRobot) : Dev :=
  { s with ctl := { s.ctl with prf := Tab.set (fun _ => {}) s.ctl.prf i x } }

/-! ### Limits of the longitudinal loop -/

/-- Smallest speed limit under the footprint at `sp` (item 3): the segments', the task's and the spans', mm/s. -/
def Dev.limitAt (s : Dev) (i : Nat) (sp : Int) (back : Bool) : Nat :=
  let c := s.cls (s.lease i).cls
  let top := if back then (if c.reverse then c.vRev else 0) else c.vMax
  match s.trl.graph, (s.rob i).route with
  | some g, some r =>
    let lo := sp - (if back then c.front else c.rear : Nat)
    let hi := sp + (if back then c.rear else c.front : Nat)
    let segs := (g.onRoute r.hops 0 (lo / 10) (hi / 10)).filterMap fun x => (g.seg? x.1).map (·.vlim)
    let k := s.task r.task
    let at_ : Int := r.approach
    let task := if at_ ≤ sp then [k.v] else []
    let spans := (k.spans.filter fun x => decide (lo ≤ at_ + x.hi) && decide (at_ + x.lo ≤ hi)).map (·.vWork)
    (segs ++ task ++ spans).foldl min top
  | _, _ => top

/-- Is the longitudinal output of a robot forced to 0 (R264, R21)? -/
def Dev.stoppedRobot (s : Dev) (i : Nat) : Bool :=
  let run := s.saf.run = .run || (s.saf.run = .updatePause && s.saf.pausedFrom = some .run)
  !run || s.saf.latchA || s.saf.latchB || (s.lease i).st != .active

/-- Items 2 to 4 of R254 for a robot with the cap `cap` (tenths of mm/s) and predicted coordinate `sp`, in m/s. The grant of a robot that
drives back lies behind it (DEDUCED, log entry 115). -/
def Dev.lonInner (s : Dev) (i : Nat) (cap : Int) (sp : Int) (v : F32) : F32 :=
  let back := fNeg v
  let x := s.rob i
  let gap := match x.sGrant with | some g => (if back then sp - g else g - sp).toNat | none => 0
  let lim := min (s.limitAt i sp back) (Dev.grantLimit (s.cls (s.lease i).cls) (s.prf i).refused gap)
  let m := fOfRat (min cap.toNat (10 * lim)) 10000
  if s.stoppedRobot i then 0 else fClamp (fNegate m) m v

/-- A reference moved toward its target by one sample of its ramp (R261), in tenths of its unit. -/
def rampRef (l : LoopSlot) (tenths : Nat) : LoopSlot :=
  let step : Int := (l.rate * tenths : Nat)
  let goal := 10 * l.ref
  { l with refNow := if l.refNow < goal then min goal (l.refNow + step) else max goal (l.refNow - step) }

end Sys2Proof.Machine
end

