-- ==== Sys2Proof/Machine/Settle.lean ====
section
/-! DEFINITION. What every command settles before it ends: fault occurrences and their reactions (R432, R433), the fleet
stop (R420, R424, R425), the safe state (R427) and the freeze of the black box (R455). -/
namespace Sys2Proof.Machine

/-! ### Run state (R26, R443) -/

/-- Codes of the run states. -/
def RunState.code : RunState → Nat
  | .off => 0 | .boot => 1 | .standby => 2 | .run => 3 | .fleetStop => 4 | .safe => 5 | .updatePause => 6

/-- A run-state change: its occurrence and event 0x1101 (R442). -/
def Dev.setRun (s : Dev) (r : RunState) (why reason : Nat) : Dev :=
  if s.saf.run = r then s
  else
    let old := s.saf.run.code
    let res := leBytes old 1 ++ leBytes r.code 1 ++ leBytes why 1 ++ [0] ++ leBytes reason 4
    let s := { s with saf := { s.saf with run := r, pausedFrom := if r = RunState.updatePause then some s.saf.run else none } }
    (s.note 0x0C0 (r.code * 256 + old) res).event 0x1101 res

/-- Resumes that still wait complete with what overtook them (R426). -/
def Dev.cancelResume (s : Dev) (code : Nat) : Dev :=
  let hs := s.saf.resume.map (·.handle)
  hs.foldl (fun s h => s.done h code []) { s with saf := { s.saf with resume := [] } }

/-- A fleet stop decided (R420, R424, R425): the lanes are pre-empted, the run state changes, axes ramp down and
uncommitted transactions end. Where the state is FLEET_STOP already it only overtakes a resume; a stop latch is put on air
again (R327). -/
def Dev.takeStop (s : Dev) (cause why reason : Nat) : Dev :=
  match s.saf.run with
  | .run | .updatePause =>
    ((((s.cancelResume stStopped).preempt cause).setRun .fleetStop why reason).axesFleetStop).stopMotion false
  | .fleetStop => if cause = 1 then (s.cancelResume stStopped).preempt 1 else s.cancelResume stStopped
  | .safe => if cause = 1 && s.beaconing then s.preempt 1 else s
  | _ => s

/-! ### The safe state -/

/-- A new nonce (R428): the spec gives no value. The sequence in progress is void. -/
def Dev.drawNonce (s : Dev) : Dev :=
  let (n, s) := s.draw 16
  { s with saf := { s.saf with nonce := n, relAt := none } }

/-- The hardware part of a SAFE reaction (R427). -/
def Dev.safeGate (s : Dev) : Dev :=
  ({ s with saf := { s.saf with safeForce := true } }).axesSafe

/-- `SAF_CAUSE` and its NT (R443). -/
def Dev.markSafe (s : Dev) (src : Nat) (direct : Bool) : Dev :=
  { s with saf := { s.saf with safeCause := some (src, direct), causeNt := s.nt, relDone := false } }

/-- Entry to SAFE (R427): everything the rule lists, on air where this unit beacons. -/
def Dev.enterSafe (s : Dev) (src : Nat) (direct : Bool) (why : Nat) : Dev :=
  let s := if s.beaconing then s.safeGate.preempt 4 else s.safeGate
  let s := (s.cancelResume stSafe).setRun .safe why 0
  let s := ((s.stopMotion true).loopsSafe).markSafe src direct
  let res := leBytes src 1 ++ leBytes (b2n direct) 1
  (((s.note 0x0C3 src res).event 0x1104 res).freeze 1).drawNonce

/-- A SAFE reaction (R427, R433, R440): in BOOT its hardware part alone; in SAFE a further cause is put on air again and
voids a release in progress; else the safe state is entered. -/
def Dev.takeSafe (s : Dev) (src : Nat) (direct : Bool) : Dev :=
  match s.saf.run with
  | .off => s
  | .boot =>
    let s := s.safeGate
    { s with saf := { s.saf with bootSafe := some (s.saf.bootSafe.getD (src, direct)) } }
  | .safe =>
    if s.saf.safeForce then
      let s := if s.beaconing then s.preempt 4 else s
      if s.saf.relAt.isSome then s.drawNonce else s
    else s.enterSafe src direct 3
  | _ => s.enterSafe src direct 3

/-! ### Fault sources (R432, R446) -/

/-- Fields of `FLT_SRCn_CFG`. -/
def srcCls (n : Nat) : Fld := (0x12100 + 8 * n, 0, 2)
def srcCountInj (n : Nat) : Fld := (0x12100 + 8 * n, 2, 1)
def srcWunit (n : Nat) : Fld := (0x12100 + 8 * n, 3, 1)
def srcN (n : Nat) : Fld := (0x12100 + 8 * n, 4, 8)
def srcWindow (n : Nat) : Fld := (0x12100 + 8 * n, 12, 12)
def srcQuiet (n : Nat) : Fld := (0x12100 + 8 * n, 24, 8)

/-- `WINDOW` in TIME cycles. -/
def Dev.windowCyc (s : Dev) (n : Nat) : Nat :=
  s.fld (srcWindow n) * (if s.flag (srcWunit n) then cycHz else cycMs)

/-- `QUIET` in TIME cycles (R446). -/
def Dev.quietCyc (s : Dev) (n : Nat) : Nat :=
  let q := s.fld (srcQuiet n)
  (if q ≤ 120 then q else 120 + 30 * (q - 120)) * cycHz

/-- Now, on the clock of the windows: it stands still in a pause of the safety island's firmware (R440). -/
def Dev.winNow (s : Dev) : Nat := if s.upd.pause = some 5 then s.upd.pauseUp else s.up

/-- Events still inside the window. -/
def Dev.inWindow (s : Dev) (n : Nat) (l : List Nat) : List Nat :=
  l.filter fun t => decide (s.winNow < t + s.windowCyc n)

/-- `FORCE_ACTIVE` (R437). -/
def Dev.forceActive (s : Dev) : Bool :=
  (List.range 6).any (fun m => s.reg (0x12080 + 4 * m) != 0) || s.flt.inj.any fun x => x.method == 2

/-- The causes of R414 enter the safe state through the hardware gate. -/
def directSrc (n : Nat) : Bool := [0x03, 0x09, 0xB5, 0xB9, 0xBA].contains n

/-- The record of a fault (R432, R442): counted, in the diary and the black box, and event 0x1201. The loss of that event
raises 0x7D, but for the record of 0x7D itself. -/
def Dev.recordFault (s : Dev) (n : Nat) (inj : Bool) : Dev :=
  let f := s.forceActive
  let x := s.src n
  let c := s.fld (srcCls n)
  let w := sat 8 x.times.length
  let s := s.cntWrap (0x12014, 0, 16)
  let s := if inj then s.cntSat (0x12014, 16, 16) else s
  let s := if f then s.cntSat (0x12018, 0, 16) else s
  let s := s.occur n w inj f true (leBytes c 1 ++ leBytes w 1 ++ leBytes x.recovery 2)
  let res := leBytes n 1 ++ leBytes c 1 ++ leBytes (b2n inj + 2 * b2n f) 1 ++ leBytes w 1 ++ leBytes x.recovery 2
  let (s, lost) := s.cqOffer (s.evtCq 0x1201) (eventEntry s.nt 0x1201 (res16 res))
  if lost && n != 0x7D then s.raise 0x7D else s

/-- The reaction of a class at entry to ACTIVE (R433). -/
def Dev.react (s : Dev) (n cls : Nat) : Dev :=
  match cls with
  | 2 => (s.freeze 3).push (.stop 3 3 0)
  | 3 => (s.freeze 2).push (.safe n (directSrc n))
  | _ => s

/-- What a parity error of the collector leaves of its configuration and states (R439). -/
def Dev.collectorReset (s : Dev) : Dev :=
  let s := (List.range 192).foldl (fun s n => s.setReg (0x12100 + 8 * n) (resetReg (0x12100 + 8 * n))) s
  { s with flt := { s.flt with srcs := Tab.mapListed (fun _ => {}) (fun _ (x : Src) => { x with st := .idle, times := [] }) s.flt.srcs } }

/-- One event of a source (R432): an injected one enters the window only with `COUNT_INJECTED` (R436). The hardware causes
of R414 drive the safe state at every event. -/
def Dev.takeFault (s : Dev) (n : Nat) (inj : Bool) : Dev :=
  let counted := !inj || s.flag (srcCountInj n)
  if !counted then s.recordFault n inj
  else if n = 0xBA then
    let s := s.collectorReset
    let s := s.setSrc n { s.src n with st := .active, times := [s.winNow], quietAt := s.up }
    (((s.recordFault n inj).freeze 2).push (.safe n true))
  else
    let x := s.src n
    let times := (s.inWindow n (s.winNow :: x.times)).take 255
    let enters := x.st != .active && decide (s.fld (srcN n) ≤ times.length)
    let st := if x.st == .active || enters then SrcState.active else .counting
    let s := (s.setSrc n { x with times, st, quietAt := s.up }).recordFault n inj
    if enters then s.react n (s.fld (srcCls n))
    else if directSrc n then s.push (.safe n true) else s

/-! ### The end of a command -/

/-- Settle one thing. -/
def Dev.settleOne (s : Dev) : Todo → Dev
  | .fault n inj => s.takeFault n inj
  | .stop c w r => s.takeStop c w r
  | .safe n d => s.takeSafe n d

/-- Settle all that is left, oldest first, and what that brings. -/
def Dev.settleAll : Nat → Dev → Dev
  | 0, s => { s with todo := [] }
  | k + 1, s =>
    match s.todo with
    | [] => s
    | t :: rest => Dev.settleAll k (({ s with todo := rest }).settleOne t)

/-- Settle, and then take a freeze that was asked for. -/
def settle (s : Dev) : Dev :=
  ((s.settleAll 4096).takeFreeze).settleAll 4096

/-- The outcome of a command: always a next state. What the command does to the device is `f`, and then the device settles; it
cannot see the queue. -/
def State.act (s : State) (f : Dev → Dev) : Host.Outcome State Fault Refusal :=
  .next { toDev := settle (f s.toDev), pending := s.pending }

end Sys2Proof.Machine
end

