-- ==== Sys2Proof/Machine/Axes.lean ====
section
/-! DEFINITION. Depot axes (R285-R312): stops, limits, homing, standstill, moves and the commands that need no transaction. The
step count is that of the profile (log entry 116); what the switches and the encoder do is operand (log entry 17). -/
namespace Sys2Proof.Machine

/-- LIMIT_TRIP (R293-R296, R306): a switch is qualified asserted. -/
def execLimitTrip (dt axis : Nat) (neg : Bool) (s : State) : Host.Outcome State Fault Refusal := s.act fun s =>
  let s := s.tick dt
  if 24 ≤ axis then s
  else
    let a := s.axis axis
    let a := { a with inP := a.inP || !neg, inN := a.inN || neg }
    if a.st == .homing && a.isRef neg then s.setAxis axis a
    else
      let ts := s.up :: s.chatTrips axis (if neg then a.tripsN else a.tripsP)
      let a := { a with latchP := a.latchP || !neg, latchN := a.latchN || neg
                        tripsP := if neg then a.tripsP else ts, tripsN := if neg then ts else a.tripsN }
      let chat := decide (s.fld (axF axis 8 0 8) < ts.length)
      let both := a.inP && a.inN
      let toward := s.axToward axis neg
      let homing := a.st == .homing
      let ramp := s.axMode axis = 0 && s.flag (axF axis 4 (if neg then 3 else 1) 1)
      let s := ((s.setAxis axis a).cntSat (axF axis 0x34 0 16)).raise 0xA0
      if both then (s.axHard axis 14 stAxsStopped .fault).raise 0xA5
      else if chat then
        let s := (s.axHard axis 10 stAxsStopped .fault).cntSat (axF axis 0x34 16 16);
        (s.setAxis axis { s.axis axis with chatter := true, faultBy := if neg then 26 else 10 }).raise 0xA1
      else if !toward then s
      else if homing then ((s.axHard axis 12 stHomeLimit .idle).axLose axis).raise 0xA2
      else if ramp then s.axRamp axis 4 stAxsStopped
      else s.axHard axis 3 stAxsStopped .idle

/-- LATCH_RELEASE (R295): the input has been qualified clear for `REL_MS`. -/
def execLatchRelease (dt axis : Nat) (neg : Bool) (s : State) : Host.Outcome State Fault Refusal := s.act fun s =>
  let s := s.tick dt
  if 24 ≤ axis then s
  else
    let a := s.axis axis
    s.setAxis axis (if neg then { a with latchN := false, inN := false } else { a with latchP := false, inP := false })

/-- The qualified level of a homing reference: `HOME`, `LIMN` or `LIMP`. -/
def Axis.level (a : Axis) (ref : Nat) (on : Bool) : Axis :=
  if ref = 0 then { a with inH := on } else if ref = 1 then { a with inN := on } else { a with inP := on }

/-- The wait before the first pulse (R286, R304): what is left of `EN_DELAY` since `EN` went high, and `DIR_SETUP` where the direction
changes, in TIME cycles. -/
def Dev.axWait (s : Dev) (n : Nat) (neg : Bool) : Nat :=
  let a := s.axis n
  max (a.enAt + s.fld (axF n 0 24 8) * cycMs - s.up) (if neg == a.dir then 0 else s.fld (axF n 0 16 8) * 25)

/-- Before the first pulse (R304): `SHORT` low and `EN` high, where they are not, and the wait of `EN_DELAY`. -/
def Dev.energise (s : Dev) (n : Nat) : Dev :=
  let a := s.axis n
  let on := a.en && !a.stand
  s.setAxis n { a with en := true, short := false, stand := false, enAt := if on then a.enAt else s.up
                       waitEn := a.waitEn || !on }

/-- Wait of a profile that turns round (R275, R286): `REV_DWELL`, and `DIR_SETUP` at least, ns. -/
def Dev.turnNs (s : Dev) (n : Nat) : Nat := max (s.fld (0xB014, 8, 8) * 10000000) (s.fld (axF n 0 16 8) * 100)

/-- The edge of the window ahead (R292), 10^-6 step. -/
def Dev.edgeAhead (s : Dev) (n : Nat) (neg : Bool) : Option Int :=
  (s.hedge n).map fun w => (if neg then w.1 else w.2) * nmMm

/-- Begin a phase of homing (R305) in a direction, or end it on a latched limit ahead (R295). In RECOVERY the window bounds it (R292). -/
def Dev.homePhase (s : Dev) (n : Nat) (h : Homing) (phase : Nat) : Dev :=
  let neg := if phase = 2 then !h.neg else h.neg
  let a := s.axis n
  if (if neg then a.latchN else a.latchP) then
    let s := s.setAxis n { a.still a.pos with home := some { h with phase }, st := .idle, restAt := if a.st == .homing then s.up else a.restAt }
    s.axEnd n stAxsLatched
  else
    let s := s.energise n
    let dec := s.fld (axF n 0x10 0 32)
    let k := Kin.still a.pos
    let legs := runLegs k neg (if phase = 1 then h.vSearch else h.vLatch) dec 0 0 dec (if s.axMode n = 3 then s.edgeAhead n neg else none)
    s.setAxis n { (s.axis n).drive k (s.up + s.axWait n neg) legs with home := some { h with phase }, dir := neg, st := .homing }

/-- HOME_EVENT (R305): in the latch phase the reference is qualified asserted. The step count at the first asserted sample, two sample
periods before, becomes `OFFSET`, and so does the encoder's, which has counted `cnt` since; the axis ramps to rest. -/
def execHomeEvent (dt axis : Nat) (cnt : Int) (s : State) : Host.Outcome State Fault Refusal := s.act fun s =>
  let s := s.tick dt
  let a := s.axis axis
  match a.home with
  | none => s
  | some h =>
    if a.st != .homing || h.phase ≠ 3 || h.found || s.up < a.kAt then s
    else
      let first := a.posAt (s.up - 2 * s.fld (axF axis 4 8 10) * 2500)
      let k := s.axKin axis
      let legs := haltLegs (s.fld (axF axis 0x10 0 32)) 0 0
      s.setAxis axis { (a.level h.ref true).drive { k with s := k.s + (h.offset - first) * nmMm } s.up legs with
        encCnt := if s.axEnc axis then cnt else a.encCnt, encOff := if s.axEnc axis then h.offset * 65536 else a.encOff
        ref := true, home := some { h with found := true } }

/-- Distance covered at the rest that ends phase 1 or 2 of a homing now, and what the phase asks of it (R305): the ramp of the search
begins before `HOME_MAX`, that of the back-off after `BACKOFF` steps at least. -/
def Dev.phaseRest (s : Dev) (n : Nat) (h : Homing) : Nat × Bool :=
  let dec := s.fld (axF n 0x10 0 32)
  let v := if h.phase = 1 then h.vSearch else h.vLatch
  let d := humpDist v dec (s.axNs (s.axis n))
  let ramp := d - min (d / 2) (v * v * nmMm / (2 * max 1 dec))
  (d, if h.phase = 1 then decide (ramp < h.max_ * nmMm) else decide (h.backoff * nmMm ≤ ramp))

/-- HOMING_PHASE_END (R305): a phase comes to rest; the next one begins, or homing completes. By then the reference has been qualified
asserted (search) or clear (back-off) for as long as the ramp and `BACKOFF` take, so that where the phase rests follows from its time. -/
def execHomingPhaseEnd (dt axis : Nat) (s : State) : Host.Outcome State Fault Refusal := s.act fun s =>
  let found : Bool := match (s.axis axis).home with | some h => h.found | none => false
  let s := if found then s.tickUp (s.axis axis).endUp else s.tick dt
  let a := s.axis axis
  match a.home with
  | none => s
  | some h =>
    if a.st != .homing || (h.phase = 3 && !h.found) then s
    else if h.phase = 3 then
      let s := s.setAxis axis { a.still (s.axPos axis) with st := .idle, ref := true, lastStop := 1, restAt := s.up }
      s.axEnd axis stOK
    else
      let (d, ok) := s.phaseRest axis h
      if !ok then s
      else
        let neg := if h.phase = 2 then !h.neg else h.neg
        let pos := if s.axOver axis then s.axPos axis else Kin.steps { a.k with s := a.k.s + (if neg then -(d : Int) else d) }
        let s := s.setAxis axis ((a.still pos).level h.ref (h.phase == 1))
        s.homePhase axis h (h.phase + 1)

/-- HOME_NOT_FOUND (R305): the search has travelled `HOME_MAX` steps; the axis ramps to rest and is LOST. -/
def execHomeNotFound (axis : Nat) (s : State) : Host.Outcome State Fault Refusal := s.act fun s =>
  let a := s.axis axis
  match a.home with
  | none => s.begin
  | some h =>
    if a.st != .homing || h.phase ≠ 1 then s.begin
    else
      let dec := s.fld (axF axis 0x10 0 32)
      let s := s.tickUp (a.kAt + ceilDiv (runNs h.vSearch dec h.max_) 4)
      let s := (s.setAxis axis { a.drive (s.axKin axis) s.up (haltLegs dec 0 0) with
        st := .stopping, endWith := some stHomeNotFound }).axLose axis
      s.raise 0xA2

/-- ENCODER_ERROR (R287): both phases changed in one sample. -/
def execEncoderError (dt axis : Nat) (s : State) : Host.Outcome State Fault Refusal := s.act fun s =>
  let s := s.tick dt
  if !s.axEnc axis then s
  else (s.axHard axis 13 stAxsStopped .fault).raise 0xA4

/-- TARGET_REACHED (R298, R300), when the profile of the move ends. -/
def execTargetReached (axis : Nat) (s : State) : Host.Outcome State Fault Refusal := s.act fun s =>
  let a := s.axis axis
  match a.move with
  | none => s.begin
  | some m =>
    if a.st != .moving || m.mmode = 3 then s.begin
    else
      let s := s.tickUp a.endUp
      let k := s.axKin axis
      let endK := Kin.steps { k with s := m.target * nmMm + k.s - (a.prof (s.axNs a)).s }
      let s := s.setAxis axis { a.still endK with st := .idle, lastStop := 1, restAt := s.up, dir := s.axNeg axis, waitEn := false }
      s.axEnd axis stOK

/-- RAMP_STOP_END (R297, R298): at rest the axis leaves STOPPING and its move or homing completes. -/
def execRampStopEnd (axis : Nat) (s : State) : Host.Outcome State Fault Refusal := s.act fun s =>
  let a := s.axis axis
  if a.st != .stopping then s.begin
  else
    let s := s.tickUp a.endUp
    let s := s.setAxis axis { a.still (s.axPos axis) with st := .idle, restAt := s.up }
    s.axEnd axis (a.endWith.getD stAxsStopped)

/-- HEDGE_EDGE (R292): a velocity move, or homing in RECOVERY, has come to rest at the edge of the window; a position that passed it
nevertheless is stopped hard. -/
def execHedgeEdge (dt axis : Nat) (s : State) : Host.Outcome State Fault Refusal := s.act fun s =>
  let s := s.tick dt
  let a := s.axis axis
  let homing := a.st == .homing && s.axMode axis = 3
  match s.hedge axis with
  | none => s
  | some (lo, hi) =>
    if !(a.st == .moving || a.st == .stopping || homing) then s
    else if s.axPos axis < lo ∨ hi < s.axPos axis then s.axHard axis 5 stAxsHedge .idle
    else if s.axOver axis && (homing || (a.st == .moving && match a.move with | some m => m.mmode == 3 | none => false)) then
      let s := s.setAxis axis { a.still (s.axPos axis) with st := .idle, lastStop := 5, restAt := s.up, dir := s.axNeg axis, waitEn := false }
      s.axEnd axis stAxsHedge
    else s

/-- STANDSTILL (R304): `IDLE_DELAY` after rest, `IDLE_ACT` is carried out. -/
def execStandstill (axis : Nat) (s : State) : Host.Outcome State Fault Refusal := s.act fun s =>
  let a := s.axis axis
  if a.st != .idle || a.stand || 24 ≤ axis then s.begin
  else
    let s := s.tickUp (a.restAt + s.fld (axF axis 0x20 24 8) * 10 * cycMs)
    let act := s.fld (axF axis 0 4 2)
    s.setAxis axis { a with stand := true, en := if act = 0 then a.en else false, short := decide (act = 2) }

/-- EN_DELAY_END (R304): the wait is over and the first pulse follows. -/
def execEnDelayEnd (axis : Nat) (s : State) : Host.Outcome State Fault Refusal := s.act fun s =>
  let a := s.axis axis
  if a.waitEn then
    let s := s.tickUp (a.enAt + s.fld (axF axis 0 24 8) * cycMs)
    s.setAxis axis { a with waitEn := false }
  else s.begin

/-- `ENABLE` written (R310): 1 takes an axis out of DISABLED, 0 stops it hard and disables it, and it is LOST (R289). -/
def Dev.axEnable (s : Dev) (n : Nat) (on : Bool) : Dev :=
  let a := s.axis n
  if on then (if a.st == .disabled then s.setAxis n { a with st := .idle, restAt := s.up, stand := false } else s)
  else
    let s := if a.atRest then s.setAxis n { a with st := .disabled, en := false, short := false, restAt := s.up }
             else s.axHard n 2 stAxsStopped .disabled
    s.axLose n

/-- The run state's answer to a motion command (R26): `none` where it is accepted. -/
def Dev.motionRefusal (s : Dev) : Option Nat :=
  match s.saf.run with
  | .run => none
  | .updatePause => none
  | .fleetStop => some stStopped
  | .safe => some stSafe
  | _ => some stBusy

/-- Is a motion command held until the end of a pause (R26)? -/
def Dev.motionHeld (s : Dev) : Bool := s.saf.run == .updatePause

/-- Is any stop input latched? -/
def Dev.stopLatched (s : Dev) : Bool := s.saf.latchA || s.saf.latchB

/-- AXIS_HOME (R305): `seen` is the qualified level of the reference at the start. -/
def execAxisHome (h : Nat) (seen : Bool) (s : State) : Host.Outcome State Fault Refusal := s.act fun s =>
  if s.motionHeld then s else
  s.command h 0x69 fun l s =>
    let n := l.p 20 1
    let vlim := s.fld (axF n 0xC 0 21)
    let ref := l.p 21 1
    let neg := l.p 22 1
    let bad := firstBad [(1 ≤ l.p 0 4 && l.p 0 4 < 2 ^ 31, 24), (1 ≤ l.p 4 4 && l.p 4 4 ≤ vlim, 28),
      (1 ≤ l.p 8 4 && l.p 8 4 ≤ vlim && l.p 8 4 ≤ l.p 4 4, 32), (1 ≤ l.p 12 4 && l.p 12 4 ≤ 1000000, 36),
      (ref ≤ 2, 45), (neg ≤ 1 && !(ref == 1 && neg == 0) && !(ref == 2 && neg == 1), 46)]
    let a := s.axis n
    match bad, s.motionRefusal with
    | some o, _ => s.refuse h stBadDesc (some o)
    | none, some c => s.refuse h c none
    | none, none =>
      if a.st != .idle then s.done h stAxsState (axRes none a)
      else if s.stopLatched then s.done h stAxsStopped (axRes none a)
      else
        let hm : Homing := { handle := h, ref, neg := decide (neg = 1), vSearch := l.p 4 4, vLatch := l.p 8 4,
                             backoff := l.p 12 4, offset := l.ps 16 4, max_ := l.p 0 4, phase := 1 }
        (s.setAxis n (a.level ref seen)).homePhase n hm (if seen then 2 else 1)

/-- Does the cause of FAULT still hold (R299)? -/
def Dev.axFaultHolds (s : Dev) (n : Nat) : Bool :=
  let a := s.axis n
  if a.faultBy = 10 then a.latchP
  else if a.faultBy = 26 then a.latchN
  else if a.faultBy = 14 then a.inP && a.inN
  else if a.faultBy = 9 then decide (s.fld (axF n 0x20 0 24) < (s.axPos n - s.axEncPos n).natAbs)
  else false

/-- AXIS_STOP (R299), in every run state. -/
def execAxisStop (h : Nat) (s : State) : Host.Outcome State Fault Refusal := s.act fun s =>
  s.command h 0x6A fun l s =>
    let n := l.p 0 1
    let a := s.axis n
    match l.p 1 1 with
    | 1 => (s.axRamp n 2 stAxsStopped).done h stOK []
    | 2 => (if a.atRest then s else s.axHard n 2 stAxsStopped .idle).done h stOK []
    | 3 =>
      if a.st != .fault then s.done h stAxsState []
      else if s.axFaultHolds n then s.done h stAxsFault []
      else (s.setAxis n { a with st := .idle, chatter := false, faultBy := 0, restAt := s.up, stand := false }).done h stOK []
    | _ => s.refuse h stBadDesc (some 25)

/-- Check a move (R301): the first condition that fails gives its status. -/
def Dev.moveCheck (s : Dev) (n mmode : Nat) (neg : Bool) (target : Int) : Option Nat :=
  let a := s.axis n
  let pos := s.axPos n
  let abs := if mmode = 2 then pos + target else target
  let negDir := if mmode = 3 then neg else decide (abs < pos)
  if a.st == .disabled || a.st == .homing || a.st == .fault then some stAxsState
  else if !a.ref && (mmode = 1 || s.axMode n ≠ 3) then some stAxsPosLost
  else if mmode ≠ 3 && (match s.hedge n with | some (lo, hi) => decide (abs < lo ∨ hi < abs) | none => false)
    then some stAxsHedge
  else if (if negDir then a.latchN else a.latchP) then some stAxsLatched
  else if s.stopLatched then some stAxsStopped
  else none

/-- A committed move starts at `T_APPLY` (R300, R301): checked again; it replaces a move that runs, from its rate and acceleration. A
target behind is counted and raised as for a robot (R275). -/
def Dev.moveStart (s : Dev) (n : Nat) (m : AxMove) : Dev × Option Nat :=
  let s := s.axSync n
  match s.moveCheck n m.mmode m.neg m.target with
  | some c => (s.doneOpt m.handle c (axRes (some m.txn) (s.axis n)), some c)
  | none =>
    let a := s.axis n
    let target := if m.mmode = 2 then a.pos + m.target else m.target
    let neg := if m.mmode = 3 then m.neg else decide (target < a.pos)
    let going := a.st == .moving || a.st == .stopping
    let k := if going then s.axKin n else Kin.still a.pos
    let s := if going then (s.setAxis n { a with lastStop := 2 }).axEnd n stAxsStopped else s
    let s := s.energise n
    let a := s.axis n
    let v := min m.v (if a.latchP || a.latchN then s.fld (axF n 0x38 0 21) else s.fld (axF n 0xC 0 21))
    let dec := s.fld (axF n 0x10 0 32)
    let (legs, behind) := if m.mmode = 3 then (runLegs k neg v m.a m.j (s.turnNs n) dec (s.edgeAhead n neg), false)
      else moveLegs k (target * nmMm) v m.a m.j (s.turnNs n)
    let way := if going then a.dir else neg
    let s := s.setAxis n { a.drive k (if going && a.kAt ≤ s.up then s.up else s.up + s.axWait n way) legs with
      st := .moving, dir := way, move := some { m with target, neg, v }, endWith := none, behind }
    (if behind then (s.cntSat (0xB018, 0, 16)).raise 0x74 else s, none)

end Sys2Proof.Machine
end

