-- ==== Sys2Proof/Machine/Diary.lean ====
section
/-! DEFINITION. The rows of the Field Diary (R448-R470): what it keeps in flash and loads at boot, the black box, its
clears and its reads. -/
namespace Sys2Proof.Machine

def stDeaf : Nat := 0x0B01
def stNoCapture : Nat := 0x0B02

/-! ### Records as bytes (R450) -/

/-- CRC-32C (Castagnoli), one bit, one byte, and a whole string. -/
def crcBit (c : Nat) : Nat := if c % 2 = 1 then (c / 2) ^^^ 0x82F63B78 else c / 2
def crcByte (c b : Nat) : Nat := (List.range 8).foldl (fun c _ => crcBit c) (c ^^^ b)
def crc32c (l : List Byte) : Nat := (l.foldl (fun c b => crcByte c b.toNat) 0xFFFFFFFF) ^^^ 0xFFFFFFFF

/-- `OT` (R448) and NT with it. -/
def Stamp.otBytes (t : Stamp) : List Byte := leBytes t.pc 4 ++ leBytes t.ps 4
def Stamp.bytes (t : Stamp) : List Byte := leBytes t.nt.toNat 8 ++ t.otBytes

/-- A code record of 160 bytes: one never seen reads as 0 but for its code, class and CRC. -/
def recBytes (code : Nat) (r : Rec) : List Byte :=
  let head := leBytes code 2 ++ leBytes ((codeClass code).getD 0) 1
  let body := if !r.valid then slice [] 0 153
    else
      leBytes (1 + 2 * b2n r.satd + 4 * b2n r.histReset + 8 * b2n r.badLoad) 1 ++ leBytes r.count 4 ++ leBytes r.drops 4 ++
      leBytes r.min_ 2 ++ leBytes r.max_ 2 ++ (List.range 16).flatMap (fun k => leBytes (r.bins.getD k 0) 4) ++
      r.minAt.bytes ++ r.maxAt.bytes ++ r.first.bytes ++ r.last.bytes ++ leBytes r.lastVal 2 ++ slice [] 0 10
  let b := head ++ body
  b ++ leBytes (crc32c b) 4

/-- A black-box entry of 32 bytes (R454). -/
def boxBytes (e : BoxEntry) : List Byte :=
  leBytes e.nt.toNat 8 ++ leBytes (e.code + 4096 * b2n e.inj + 8192 * b2n e.forced) 2 ++ leBytes e.value 2 ++
    leBytes e.seq 4 ++ leBytes e.pc 4 ++ leBytes e.ps 4 ++ slice e.detail 0 8

/-! ### Edges (R452) -/

/-- An edge of a class has changed: every bin of its codes is cleared, and marked. -/
def Dev.edgeChanged (s : Dev) (cls : Nat) : Dev :=
  ((List.range 0x460).filter fun c => codeClass c = some cls).foldl (fun s c =>
    s.setRec c { s.rec_ c with bins := [], histReset := true }) s

/-! ### Snapshots and captures in flash (R459) -/

/-- A whole 10 minutes of powered time. -/
def tenMin : Nat := 600 * cycHz

/-- Ask leave of the class UPD for a diary write (R459). -/
def Dev.askDiary (s : Dev) (w : Work) : Dev := s.askLeave 5 150 (3 * tickHz) (ntAdd s.nt ((300 * tickHz : Nat) : Int)) w

/-- DIARY_SNAPSHOT (R459, R461): every 10 minutes of powered time; while DEAF it raises 0x24 again instead. -/
def execDiarySnapshot (s : State) : Host.Outcome State Fault Refusal := s.act fun s =>
  let s := s.tickUp ((s.up / tenMin + 1) * tenMin)
  if s.deaf then s.raise 0x24
  else if s.dry.snapping then s
  else ({ s with dry := { s.dry with snapping := true } }).askDiary .diarySnapshot

/-- DIARY_SNAPSHOT_DONE (R459): every record is in the older snapshot, which is now current. -/
def execDiarySnapshotDone (dt : Nat) (s : State) : Host.Outcome State Fault Refusal := s.act fun s =>
  let s := s.tick dt
  if !s.dry.snapRun then s
  else
    let s := { s with dry := { s.dry with snapping := false, snapRun := false, snapAt := s.up, late := false }
                      nv := { s.nv with dry := { s.nv.dry with snap := s.dry.recs, pfwRecs := [] } } };
    (s.cntWrap (0x13020, 0, 16)).returnLeave .diarySnapshot

/-- PERSIST_LATE (R459): no snapshot has completed within 20 min of the previous one. -/
def execPersistLate (s : State) : Host.Outcome State Fault Refusal := s.act fun s =>
  if s.dry.late then s.begin
  else
    let s := s.tickUp (s.dry.snapAt + 2 * tenMin);
    ({ s with dry := { s.dry with late := true } }).raise 0x25

/-- CAPTURE_PERSISTED (R126, R459). -/
def execCapturePersisted (dt slot : Nat) (s : State) : Host.Outcome State Fault Refusal := s.act fun s =>
  let s := s.tick dt
  match s.dry.caps.find? fun p => p.1 == slot with
  | some (_, c) =>
    if !c.writing || s.dry.pfw then s
    else
      let c := { c with writing := false, persisted := true }
      let d : Nat → Capture := fun _ => { trigger := 0, ports := 0, blocks := [], at_ := {} }
      let s := { s with dry := { s.dry with caps := Tab.set d s.dry.caps slot c }
                        nv := { s.nv with dry := { s.nv.dry with caps := Tab.set d s.nv.dry.caps slot c } } }
      s.returnLeave (.persistCapture slot)
  | none => s

/-! ### The frozen box (R455, R456) -/

/-- Is image slot B the older of the two? -/
def NvDry.olderB (n : NvDry) : Bool :=
  match n.img0, n.img1 with
  | some (a, _), some (b, _) => decide (b < a)
  | some _, none => true
  | none, _ => false

/-- FROZEN_IMAGE_PERSISTED (R456): the frozen box is in the older image slot, and the freezes that waited complete. -/
def execFrozenImagePersisted (dt : Nat) (s : State) : Host.Outcome State Fault Refusal := s.act fun s =>
  let s := s.tick dt
  if !s.dry.persisting || s.dry.pfw then s
  else
    let n := s.nv.dry
    let b := n.olderB
    let img := some (n.seq, s.dry.cause, s.dry.img)
    let n := { n with seq := n.seq + 1, img0 := if b then n.img0 else img, img1 := if b then img else n.img1 }
    let hs := s.dry.waiters
    let s := { s with dry := { s.dry with persisting := false, waiters := [], img := [] }, nv := { s.nv with dry := n } }
    let s := s.event 0x1304 (leBytes (b2n b) 1)
    hs.foldl (fun s h => s.done h stOK []) s

/-- The box takes entries again. -/
def Dev.thaw (s : Dev) : Dev :=
  ({ s with dry := { s.dry with frozen := false, cause := 0 } }).event 0x1305 []

/-- BLACKBOX_THAW (R456). -/
def execBlackboxThaw (dt : Nat) (s : State) : Host.Outcome State Fault Refusal := s.act fun s =>
  let s := s.tick dt
  if s.dry.frozen && !s.dry.persisting && s.saf.run == .run &&
      decide (s.dry.frozenAt + 10 * cycHz * s.fld (0x13014, 0, 8) ≤ s.up) then s.thaw
  else s

/-! ### Power failure (R460, R465, R521) -/

/-- Records that differ from the last snapshot, in code order. -/
def Dev.changedRecs (s : Dev) : List (Nat × Rec) :=
  s.dry.recs.filter fun p => decide (Tab.get (fun _ => ({} : Rec)) s.nv.dry.snap p.1 ≠ p.2)

/-- PFW_N_QUALIFIED (R460, R465): source 0x0B, flash work suspended or abandoned, the power-fail block with the 62 newest
entries, and then as many of the changed records, in code order, as power lasts for. -/
def execPfwNQualified (dt recs : Nat) (s : State) : Host.Outcome State Fault Refusal := s.act fun s =>
  let s := s.tick dt
  let s := (s.raiseLevel 0x0B).settleAll 4096
  if s.dry.pfw || s.deaf then s
  else
    let n := s.nv.dry
    let n := if !s.dry.persisting then n else if n.olderB then { n with img1 := none } else { n with img0 := none }
    let more := (s.changedRecs.take recs).foldl (fun t p => Tab.set (fun _ => ({} : Rec)) t p.1 p.2) n.pfwRecs
    let n := { n with seq := n.seq + 1, pfw := some (n.seq, 6, s.dry.box.take 62), pfwRecs := more }
    let s := if s.dry.snapRun then (s.cntSat (0x13020, 16, 16)).returnLeave .diarySnapshot else s
    let s := if s.dry.snapRun then { s with dry := { s.dry with snapping := false, snapRun := false } } else s;
    { s with dry := { s.dry with pfw := true }, nv := { s.nv with dry := n } }

/-- PFW_N_RETURN (R521): suspended flash work goes on; the power-fail block stays. -/
def execPfwNReturn (dt : Nat) (s : State) : Host.Outcome State Fault Refusal := s.act fun s =>
  let s := s.tick dt;
  ({ s with dry := { s.dry with pfw := false } }).fallLevel 0x0B

/-- The load at boot (R460, R461): the snapshot, a record that fails its CRC emptied, the later record writes, and the newer of the newest frozen image and the
power-fail block, held frozen. -/
def loadDiary (n : NvDry) (d : Dry) (r0 r1 : Bool) (bad : List Nat) (up : Nat) : Dry :=
  let snap := bad.foldl (fun t c => Tab.set (fun _ => ({} : Rec)) t c { badLoad := true }) n.snap
  let recs := n.pfwRecs.foldl (fun t p => Tab.set (fun _ => ({} : Rec)) t p.1 p.2) snap
  let newer : Option (Nat × Nat × List BoxEntry) → Option (Nat × Nat × List BoxEntry) → Option (Nat × Nat × List BoxEntry) := fun a b =>
    match a, b with
    | some x, some y => if x.1 < y.1 then some y else some x
    | some x, none => some x
    | none, y => y
  let pick := newer (newer n.img0 n.img1) n.pfw
  let base : Dry := { sound0 := r0, sound1 := r1, lws := d.lws, lwNext := d.lwNext, lwSeq := d.lwSeq, caps := n.caps
                      snapAt := up, seq := d.seq }
  if !r0 && !r1 then base
  else
    match pick with
    | none => { base with recs }
    | some (_, cause, l) => { base with recs, box := l, frozen := true, frozenAt := up, cause }

/-! ### Regions (R461) -/

/-- REGION_FAIL (R461): the failure and the occurrence that met it go to the last-word registers, and the diary goes on
SINGLE or becomes DEAF. -/
def execRegionFail (dt region cause code value : Nat) (s : State) : Host.Outcome State Fault Refusal := s.act fun s =>
  let s := s.tick dt
  let sound := if region = 0 then s.dry.sound0 else s.dry.sound1
  if 2 ≤ region || !sound then s
  else
    let s := (s.lastWord 0x0C7 (256 * region + cause)).lastWord code value
    let s := { s with dry := { s.dry with sound0 := s.dry.sound0 && region != 0, sound1 := s.dry.sound1 && region != 1 } }
    let res := leBytes region 1 ++ leBytes cause 1
    let s := ((s.raise 0x23).event 0x1301 res).note 0x0C7 (256 * region + cause) res
    if !s.deaf then s
    else
      let hs := s.dry.waiters
      let s := { s with dry := { s.dry with recs := [], box := [], img := [], frozen := false, persisting := false
                                            waiters := [], snapping := false, snapRun := false } }
      let s := hs.foldl (fun s h => s.done h stDeaf []) s;
      (s.raise 0x24).event 0x1302 []

/-! ### Clears -/

/-- DRY_CLEAR (R465, R469): the key with a scope; clearing the box thaws it. -/
def execDryClear (dt : Nat) (v : Reg) (s : State) : Host.Outcome State Fault Refusal := s.act fun s =>
  let s := s.tick dt
  let n := v.toNat
  if n / 65536 ≠ 0xCEA5 || 3 < n % 65536 then s
  else
    let s := if bitAt n 0 then { s with dry := { s.dry with recs := [] } } else s
    if bitAt n 1 then
      let s := { s with dry := { s.dry with box := [] } };
      (if s.dry.frozen then s.thaw else s)
    else s

/-- LW_CLR (R470). -/
def execLwClr (dt : Nat) (v : Reg) (s : State) : Host.Outcome State Fault Refusal := s.act fun s =>
  let s := s.tick dt;
  (if fieldOf v 31 1 = 1 then { s with dry := { s.dry with lws := [], lwNext := 0 } } else s)

/-! ### Commands (R463, R464), in every run state -/

/-- Write to a command's buffer and complete, or end with a PCI Express error. -/
def Dev.reply (s : Dev) (h : Nat) (bytes : List Byte) (werr : Bool) (res : List Byte) : Dev :=
  if werr then s.refuse h stDma none else (s.emit (.host h 0 0 bytes)).done h stOK res

/-- DIARY_READ (R463). -/
def execDiaryRead (h : Nat) (werr : Bool) (s : State) : Host.Outcome State Fault Refusal := s.act fun s =>
  s.command h 0xA0 fun l s =>
    let first := l.p 0 2
    let n := l.p 2 2
    if l.p 4 1 = 1 then
      if l.len ≠ 160 * n then s.refuse h stBadLen (some 16)
      else if s.deaf then s.done h stDeaf []
      else
        let b := (List.range n).flatMap fun k => recBytes (first + k) (s.rec_ (first + k))
        s.reply h b werr (leBytes b.length 4)
    else if s.deaf then s.done h stDeaf []
    else
      let slot := l.p 5 1
      match s.dry.caps.find? fun p => p.1 == slot with
      | none => s.done h stNoCapture []
      | some (_, c) =>
        let b := leBytes slot 1 ++ leBytes c.trigger 1 ++ leBytes c.ports 1 ++ [0] ++ leBytes c.blocks.length 4 ++
          c.at_.bytes ++ slice [] 0 40 ++ c.blocks
        if l.len < b.length then s.refuse h stBadLen (some 16) else s.reply h b werr (leBytes b.length 4)

/-- BLACKBOX_FREEZE (R464): it completes when the persist is done. -/
def execBlackboxFreeze (h : Nat) (s : State) : Host.Outcome State Fault Refusal := s.act fun s =>
  s.command h 0xA1 fun _ s =>
    if s.deaf then s.done h stDeaf []
    else if s.dry.frozen then (s.freeze 5).done h stOK [0, 0, 0, 0, 1]
    else ({ s with dry := { s.dry with waiters := s.dry.waiters ++ [h] } }).freeze 5

/-- BLACKBOX_READ (R464): entries from the oldest, places beyond those held as 0. -/
def execBlackboxRead (h : Nat) (werr : Bool) (s : State) : Host.Outcome State Fault Refusal := s.act fun s =>
  s.command h 0xA2 fun l s =>
    let first := l.p 0 2
    let n := l.p 2 2
    if l.len ≠ 32 * n then s.refuse h stBadLen (some 16)
    else if s.deaf then s.done h stDeaf []
    else
      let held := s.dry.box.length
      let b := slice (((s.dry.box.reverse.drop first).take n).flatMap boxBytes) 0 (32 * n)
      s.reply h b werr (leBytes (min n (held - first)) 2 ++ leBytes held 2 ++ leBytes (b2n s.dry.frozen) 1 ++ leBytes s.dry.cause 1)

end Sys2Proof.Machine
end

