-- ==== Sys2Proof/Machine/Faults.lean ====
section
/-! DEFINITION. The rows of the fault collector (R430-R439) and of the clocks, rails and sensors whose sources R431 owns. -/
namespace Sys2Proof.Machine

/-! ### Sources -/

/-- An event of any source by its kind (R432); a source no chapter defines is never raised (R430). -/
def Dev.cause (s : Dev) (n : Nat) : Dev :=
  match srcDef n with
  | none => s
  | some d => if d.level then s.raiseLevel n else s.raise n

/-- FAULT_EVENT (R432). -/
def execFaultEvent (dt src : Nat) (s : State) : Host.Outcome State Fault Refusal := s.act fun s => (s.tick dt).cause src

/-- FAULT_LEVEL_CLEAR (R432): the condition of a level source ends; a PLL's means it has locked again (R431). -/
def execFaultLevelClear (dt src : Nat) (s : State) : Host.Outcome State Fault Refusal := s.act fun s =>
  let s := s.tick dt
  let s := { s with pll := { s.pll with core := s.pll.core || src == 0, dram := s.pll.dram || src == 2 } }
  let s := if src = 1 && !s.pll.corr && s.pll.refOk then s.corrBack else s
  s.fallLevel src

/-- WINDOW_EXPIRY (R432): the window passes the newest event of a COUNTING source. -/
def execWindowExpiry (src : Nat) (s : State) : Host.Outcome State Fault Refusal := s.act fun s =>
  let x := s.src src
  if x.st != .counting || s.upd.pause = some 5 then s.begin
  else
    let s := s.tickUp (x.times.headD 0 + s.windowCyc src)
    let times := s.inWindow src x.times
    s.setSrc src { x with times, st := if times.isEmpty then .idle else .counting }

/-- While no engine remains, 0x50 stays raised (R166). -/
def Dev.stays (s : Dev) (n : Nat) : Bool := n == 0x50 && (List.range 8).all s.frk.retired.contains

/-- QUIET_EXPIRY (R432): never for 0xB2, and for a level source only while its level is 0. -/
def execQuietExpiry (src : Nat) (s : State) : Host.Outcome State Fault Refusal := s.act fun s =>
  let x := s.src src
  if x.st != .active || src == 0xB2 || x.level || s.stays src then s.begin
  else
    let s := s.tickUp (x.quietAt + s.quietCyc src)
    let r := satInc 16 x.recovery
    let s := s.setSrc src { x with st := .idle, times := [], recovery := r }
    s.event 0x1202 (leBytes src 1 ++ [0, 0, 0] ++ leBytes r 2)

/-- FAULT_CLEAR of one source (R435): the answer says whether it is clear. -/
def Dev.clearSrc (s : Dev) (n : Nat) : Bool × Dev :=
  let x := s.src n
  if x.st != .active then (true, s)
  else if x.level || s.stays n || (n == 0xB2 && !(s.saf.inA && s.saf.inB)) then (false, s)
  else (true, s.setSrc n { x with st := .idle, times := [] })

/-- FAULT_CLEAR (R435), in every run state. -/
def execFaultClear (h : Nat) (s : State) : Host.Outcome State Fault Refusal := s.act fun s =>
  s.command h 0x99 fun l s =>
    if l.p 1 1 = 0 then
      let (ok, s) := s.clearSrc (l.p 0 1)
      s.done h (if ok then stOK else 0x0A02) []
    else
      let act := Tab.idxs (fun _ (x : Src) => x.st == .active) s.flt.srcs
      let (left, s) := act.foldl (fun (a : List Nat × Dev) n =>
        let (ok, s) := a.2.clearSrc n
        (if ok then a.1 else a.1 ++ [n], s)) ([], s)
      match left with
      | [] => s.done h stOK []
      | n :: _ => s.done h 0x0A02 (leBytes left.length 2 ++ leBytes n 1)

/-! ### Changes of configuration at a Bench apply (R433, R440) -/

/-- A source judged under a new configuration; `old` is the class before it. -/
def Dev.srcChanged (s : Dev) (n old : Nat) : Dev :=
  let x := s.src n
  let cls := s.fld (srcCls n)
  match x.st with
  | .idle => s
  | .active => if old < cls then s.react n cls else s
  | .counting =>
    let times := s.inWindow n x.times
    if times.isEmpty then s.setSrc n { x with times, st := .idle }
    else if s.fld (srcN n) ≤ times.length then
      (s.setSrc n { x with times, st := .active, quietAt := s.up }).react n cls
    else s.setSrc n { x with times }

/-! ### Injection and force bits (R436-R438) -/

/-- A force bit rises on a source: one event, or a level held. The answer counts the records it gives. -/
def Dev.forceUp (s : Dev) (n : Nat) : Nat × Dev :=
  match srcDef n with
  | none => (0, s)
  | some d =>
    let x := s.src n
    if d.level && x.level then (0, s)
    else (1, (s.setSrc n { x with level := d.level }).takeFault n false)

/-- A force bit falls: a level goes with it unless its condition holds. -/
def Dev.forceDown (s : Dev) (n : Nat) : Dev :=
  let x := s.src n
  if x.level && !x.real && !s.forced n then s.setSrc n { x with level := false, quietAt := s.up } else s

/-- New force bits of a word (R437). -/
def Dev.setForce (s : Dev) (m : Nat) (v : Reg) : Dev :=
  let src := fun k => 32 * m + k
  let before := (List.range 32).map fun k => s.forced (src k)
  let s := s.setReg (0x12080 + 4 * m) v
  (List.range 32).foldl (fun s k =>
    let b := before.getD k false
    let a := s.forced (src k)
    if a && !b then (s.forceUp (src k)).2 else if b && !a then s.forceDown (src k) else s) s

/-- FLT_FORCE_WRITE (R437). -/
def execFltForceWrite (dt m : Nat) (v : Reg) (s : State) : Host.Outcome State Fault Refusal := s.act fun s =>
  let s := s.tick dt;
  (if 6 ≤ m then s else s.setForce m v)

/-- FAULT_INJECT (R436-R438). -/
def execFaultInject (h : Nat) (s : State) : Host.Outcome State Fault Refusal := s.act fun s =>
  s.command h 0x98 fun l s =>
    let n := l.p 0 1
    let method := l.p 1 1
    let open_ := s.saf.run == .run || s.saf.run == .fleetStop || s.saf.run == .safe || s.saf.run == .updatePause
    if !open_ then s.refuse h stBusy none
    else if (srcDef n).isNone then s.done h 0x0A05 []
    else if method = 1 && !srcNative n then s.done h 0x0A03 []
    else if s.saf.run == .run && decide (2 ≤ s.fld (srcCls n)) && (method == 2 || s.flag (srcCountInj n)) then s.done h 0x0A04 []
    else { s with flt := { s.flt with inj := s.flt.inj ++
             [{ handle := h, source := n, method, count := l.p 2 2, next := s.up }] } }

/-- Replace or drop an injection. -/
def Dev.putInj (s : Dev) (x : Injection) (keep : Bool) : Dev :=
  let l := s.flt.inj
  { s with flt := { s.flt with inj := if keep then mapWhere (fun (y : Injection) => y.handle == x.handle) (fun _ => x) l
                                      else l.filter fun y => y.handle != x.handle } }

/-- The injection of a source and method that is in progress. -/
def Dev.inj? (s : Dev) (src method : Nat) : Option Injection :=
  s.flt.inj.find? fun x => x.source == src && x.method == method

/-- INJECTION_CHECK (R436): one check every 1 ms with inverted bits; `found`: the same check also detects a real error. -/
def execInjectionCheck (src : Nat) (found : Bool) (s : State) : Host.Outcome State Fault Refusal := s.act fun s =>
  match s.inj? src 1 with
  | none => s.begin
  | some x =>
    let s := (s.tickUp x.next).takeFault src true
    let s := if found then s.cause src else s
    let y := { x with done := x.done + 1, recs := x.recs + 1, next := x.next + cycMs }
    if y.count ≤ y.done then (s.putInj y false).done x.handle stOK (leBytes y.recs 2)
    else s.putInj y true

/-- FORCE_PULSE (R437): the next edge of a pulse train, 0.5 ms high and 0.5 ms low. The command completes when the last
pulse has given its record. -/
def execForcePulse (src : Nat) (s : State) : Host.Outcome State Fault Refusal := s.act fun s =>
  match s.inj? src 2 with
  | none => s.begin
  | some x =>
    let s := s.tickUp x.next
    if x.high then
      let s := { s with flt := { s.flt with pulse := s.flt.pulse.erase src } }
      let s := s.forceDown src
      s.putInj { x with high := false, next := x.next + cycMs / 2 } (decide (x.done < x.count))
    else
      let was := s.forced src
      let s := { s with flt := { s.flt with pulse := src :: s.flt.pulse } }
      let (n, s) := if was then (0, s) else s.forceUp src
      let y := { x with done := x.done + 1, recs := x.recs + n, high := true, next := x.next + cycMs / 2 }
      let s := s.putInj y true;
      (if y.count ≤ y.done then s.done x.handle stOK (leBytes (sat 16 y.recs) 2) else s)

/-- COLLECTOR_PARITY_ERROR (R439): 0xBA. `recOk` false: its record fails, and the last-word registers receive it. -/
def execCollectorParityError (dt : Nat) (recOk : Bool) (s : State) : Host.Outcome State Fault Refusal := s.act fun s =>
  let s := s.tick dt
  if recOk then s.raise 0xBA
  else
    let s := s.collectorReset
    let s := s.setSrc 0xBA { s.src 0xBA with st := .active, times := [s.up], quietAt := s.up };
    ((s.lastWord 0xBA 1).freeze 2).push (.safe 0xBA true)

/-! ### Clocks, rails, sensors, SRAM (R431, R518, R524) -/

/-- RAIL_OUT_OF_RANGE (R518). -/
def execRailOutOfRange (dt : Nat) (rail : Rail) (s : State) : Host.Outcome State Fault Refusal := s.act fun s =>
  (s.tick dt).raiseLevel (match rail with | .core => 0x08 | .saf => 0x09 | .other => 0x0A)

/-- TEMPERATURE_THRESHOLD (R524, R547): the hottest sensor reads a new value, and both thresholds are judged. -/
def execTemperatureThreshold (dt sensor : Nat) (halfDeg : Int) (s : State) : Host.Outcome State Fault Refusal := s.act fun s =>
  let s := s.tick dt
  let s := { s with pad := { s.pad with tj := halfDeg, tjIdx := sensor % 8 } }
  let s := if 220 ≤ halfDeg then s.raiseLevel 0x0C else s.fallLevel 0x0C;
  (if 236 ≤ halfDeg then s.raiseLevel 0x0D else s.fallLevel 0x0D)

/-- PLL_UNLOCK (R431). -/
def execPllUnlock (dt : Nat) (pll : PllName) (s : State) : Host.Outcome State Fault Refusal := s.act fun s =>
  let s := s.tick dt
  match pll with
  | .core => ({ s with pll := { s.pll with core := false } }).raiseLevel 0x00
  | .corr => s.corrLost.raiseLevel 0x01
  | .dram => ({ s with pll := { s.pll with dram := false } }).raiseLevel 0x02

/-- SAF_CLK_CHECK (R431): more than 1 % from the TIME clock. -/
def execSafClkCheck (dt : Nat) (ppm : Int) (s : State) : Host.Outcome State Fault Refusal := s.act fun s =>
  let s := s.tick dt;
  (if 10000 < ppm.natAbs then s.raise 0x03 else s)

/-- SRAM_ECC_ERROR (R431). -/
def execSramEccError (dt : Nat) (uncorrectable : Bool) (s : State) : Host.Outcome State Fault Refusal := s.act fun s =>
  (s.tick dt).raise (if uncorrectable then 0x21 else 0x20)

end Sys2Proof.Machine
end

