-- ==== Sys2Proof/Machine/LeaseOps.lean ====
section
/-! DEFINITION. The life of a lease (R12-R28): admission, its frames, the report that counts, SUSPECT, DEAD and the time
by which a silent robot has stopped, zombies, and release. -/
namespace Sys2Proof.Machine

/-- Length of the widest margin, cm: the SNAPSHOT_ONLY margin (R24). -/
def Dev.snapMargin (s : Dev) : Nat := s.fld (0x901C, 16, 16)

/-- The bytes of a route entry (R332). -/
def RouteEnt.bytes (r : RouteEnt) : List Byte :=
  leBytes r.dest 2 ++ leBytes (r.nhops + 4 * b2n r.sleepy + 8 * b2n r.rebcast) 1 ++ leBytes r.lane 1 ++ leBytes r.drift 1 ++
    [0] ++ leBytes r.sleepN 2 ++ leBytes r.phase 2 ++ [0, 0] ++ leBytes r.wake 4 ++
    slice (r.hops.flatMap fun h => leBytes h.1 2 ++ leBytes h.2.1 1 ++ leBytes h.2.2 1) 0 12 ++ [0, 0, 0, 0]

/-- An `ADMIT` `OFFER` (R331), in the priority slots under the group key. -/
def Dev.sendOffer (s : Dev) (i : Nat) : Dev :=
  let l := s.lease i
  let route := match s.routeTo (robotAddr i) with | some r => r.bytes | none => leBytes 0 32
  let body := leBytes (1 + 16) 1 ++ [0] ++ leBytes l.uid 8 ++ leBytes i 1 ++ leBytes (l.cls + 16 * l.keyIdx) 1 ++
    leBytes l.tRep 1 ++ [0] ++ leBytes (s.fld (0x9010, 12, 12)) 2 ++ leBytes (s.fld (0xA01C, 0, 12)) 2 ++
    leBytes (s.fld (0xA01C, 12, 12)) 2 ++ leBytes (s.fld (0xA01C, 24, 8)) 1 ++ [0] ++ leBytes l.cfgVer 2 ++ route
  let f : TxFrame := { type_ := 9, dst := 0xFFFF, epoch := l.epoch, body, lane := 0, key := l.keyIdx, pslot := true, prio := 2 }
  let s := match s.routeTo (robotAddr i) with
    | some r => s.queueFrame { f with lane := r.lane }
    | none => s.queueAll f
  s.setLease i { s.lease i with sentAt := s.nt }

/-- An `ADMIT` `CONFIRM` (R331). -/
def Dev.sendConfirm (s : Dev) (i : Nat) : Dev :=
  let l := s.lease i
  let body := leBytes (1 + 48) 1 ++ [0] ++ leBytes l.uid 8 ++ leBytes l.cfgVer 2
  let s := s.queueTo (robotAddr i) { type_ := 9, dst := 0, epoch := l.epoch, body, lane := 0, key := l.keyIdx, pslot := true, prio := 2 }
  s.setLease i { s.lease i with sentAt := s.nt }

/-- A slot enters ADMITTING under a new epoch (R14, R21): the epoch is written to flash first, the old lease's part in
transactions ends, its task is orphaned, its ground is replaced by the admission area in the same step. -/
def Dev.takeIn (s : Dev) (i : Nat) (l : Lease) : Dev :=
  let old := s.lease i
  let epoch := nextVer old.epoch
  let s := ((s.abortParts i 0x0501).orphanTasks i false).endParts i
  let s := s.frkAdmit i
  let cfg := (s.txu.lastCfg + 1) % 65536
  let s := { s with txu := { s.txu with lastCfg := cfg } }
  let olds := if old.epoch = 0 then [] else (old.epoch, old.uid) :: old.olds.filter fun e => e.1 != epoch
  let s := s.setLease i { l with st := .admitting, epoch, bound := true, olds, since := s.nt, rx := s.nt, cfgVer := cfg,
                                 parked := false, unplaced := false, reported := false, report := none, confirmed := false }
  let s := s.setRob i {}
  let s := { s with trl := { s.trl with pendingFp := s.trl.pendingFp.filter fun f => f.slot != i } }
  let s := (s.setResv (s.trl.resv.filter fun r => r.robot != i)).zeroLoops i true
  let s := (s.putEnv i (s.areaEnvelope i)).persist i
  s.sendOffer i

/-- A robot's reservations become FIRM and untouchable on SUSPECT (R22); transactions no longer own them (R202). -/
def Dev.freezeEntries (s : Dev) (i : Nat) : Dev :=
  s.setResv (s.trl.resv.map fun r =>
    if r.robot = i then
      (if r.kind = .spec || r.kind = .offered then { r with kind := .firm, frozen := true, staged := false } else { r with frozen := true })
    else r)

/-- Entry to SUSPECT (R22, R199, R241). -/
def Dev.toSuspect (s : Dev) (i : Nat) : Dev :=
  let s := s.freezeEntries i
  let s := s.abortParts i 0x0501
  let s := s.setLease i { s.lease i with st := .suspect }
  (s.pruneAll i).persist i

/-- `age` of a lease exceeds `ms` for the first time at this slot boundary (R21). -/
def Dev.ageBoundary (_ : Dev) (rx : NT) (ms : Nat) : NT := slotAtOrAfter (ntAdd rx (msTicks ms + 1 : Nat))

/-- Evaluation time of the standing footprint of a DEAD lease (R23). -/
def Dev.footAt (s : Dev) (i : Nat) : NT := ntAdd (s.lease i).rx (msTicks (s.fld (0x9010, 12, 12) + 200) : Nat)

/-- `t_stopped` (R23). Without a projection `v_e` is the class's bound. -/
def Dev.tStopped (s : Dev) (i : Nat) : NT :=
  let c := s.cls (s.lease i).cls
  let ve := match s.projected i with
    | some p => (match (if (s.rob i).offRoute then s.evalArea i p (s.footAt i) else s.evalRoute i p (s.footAt i)) with
      | some e => e.1.ve
      | none => envQ * c.vMax)
    | none => envQ * c.vMax
  ntAdd (s.footAt i) ((ceilDiv (c.lat * tickHz) 1000 + ceilDiv ve (1000 * c.aBrk) : Nat) : Int)

/-- Entry to DEAD (R23): three slotframes of directed stops, the task orphaned, open transactions without it. -/
def Dev.toDead (s : Dev) (i : Nat) : Dev :=
  let l := s.lease i
  let s := s.freezeEntries i
  let s := s.abortParts i 0x0501
  let s := s.setLease i { l with st := .dead, stopped := false, unsynced := false }
  let s := (s.orphanTasks i true).frkFreeze i
  let b := nextSlotframe s.nt
  let s := [b, nextSlotframe b, nextSlotframe (nextSlotframe b)].foldl (fun s t => s.directedStop (robotAddr i) l.epoch 5 t) s
  s.persist i

/-- The reservations of a DEAD lease are replaced by its standing footprint (R23), and it settles (R234). -/
def Dev.placeFoot (s : Dev) (i : Nat) : Dev :=
  let s := s.setLease i { s.lease i with stopped := true }
  let s := s.setResv (s.trl.resv.filter fun r => !(r.robot = i && r.kind != .envelope))
  let s := s.envelope i (s.footAt i) true
  let s := s.setResv (s.trl.resv.map fun r => if r.robot = i then { r with frozen := true } else r)
  (s.endParts i).persist i

/-- The UID of the robot that was given an epoch of a slot, where the device knows it (R24). -/
def Lease.uidOf (l : Lease) (epoch : Nat) : Option Nat :=
  if epoch = l.epoch then some l.uid else (l.olds.find? fun e => e.1 == epoch).map (·.2)

/-- The admission area of a zombie (R24): its last reported position on the nearest segment, else its last admission area (log
entry 106). -/
def Dev.zombieArea (s : Dev) (i : Nat) : Nat × Nat × Nat :=
  match s.trl.graph, (s.frkSlot i).pos with
  | some g, some p => (match g.nearSeg (p.e * 1000, p.n * 1000) with
    | some (x, k) => (x, k, k)
    | none => (s.lease i).area)
  | _, _ => (s.lease i).area

/-- A zombie frame (R21, R24): its telemetry is noted, a directed stop answers it, and the first of an episode is
reported. With `ZOMBIE_READMIT` the bound robot, and no other, is offered admission again. -/
def Dev.zombie (s : Dev) (i epoch type : Nat) : Dev :=
  let l := s.lease i
  let first := l.st != .zombie
  let s := s.note (0x300 + i) type []
  let s := s.setLease i { l with st := .zombie, from_ := if first then l.st else l.from_, zRx := s.nt }
  let s := s.persist i
  let s := if first then s.event 0x0901 (leBytes i 1 ++ [0] ++ leBytes epoch 2 ++ leBytes l.uid 4) else s
  let s := s.directedStop (robotAddr i) epoch 5 s.nt
  if s.flag (0x9014, 0, 1) && l.bound && l.uidOf epoch == some l.uid && s.trl.graph.isSome then
    s.takeIn i { l with area := s.zombieArea i, padded := s.snapMargin, handle := none }
  else s

/-- The receipt of a counted report (R21): timers, the diary, SUSPECT back to ACTIVE with its entries at the planner's control and
its envelope computed anew. -/
def Dev.countReport (s : Dev) (i : Nat) (rx : NT) (noted : Bool) : Dev :=
  let l := s.lease i
  let age := ntSince rx l.rx * 1000 / tickHz
  let s := if noted then s.note (0x100 + i) age [] else s
  let s := s.setLease i { l with rx, reported := true, st := if l.st = .suspect then .active else l.st }
  if l.st = .suspect then
    let s := s.setResv (s.trl.resv.map fun r => if r.robot = i then { r with frozen := false } else r);
    (s.envelope i s.nt false).persist i
  else s

/-- Receipt of the last report that counts for a lease at a boundary (R21): the latest counted one, or a later one that has arrived
and waits for its consumer. -/
def Dev.lastHeard (s : Dev) (i : Nat) : NT :=
  let l := s.lease i
  (s.mac.inbox.filter fun x => (x.q == 24 || x.q == 25) && (frType x.frame == 3 || frType x.frame == 4) &&
      frSrc x.frame == robotAddr i && frEpoch x.frame == l.epoch).foldl
    (fun t x => if ntAfter x.rx t then x.rx else t) l.rx

/-! ### Reports and late results -/

/-- Read a report block (R328). -/
def readReport (b : List Byte) : Report :=
  let w (o n : Nat) : Nat := leAt b o n
  { steer := bits (w 0 1) 4 2, disagree := bitAt (w 0 1) 6, stopped := bitAt (w 0 1) 7, cause := bits (w 1 1) 0 4, repT := w 2 6,
    task := if bitAt (w 8 2) 14 then some (bits (w 8 2) 0 14) else none, tver := w 10 2, mark := w 12 4, routeVer := w 16 2,
    sGrant := w 18 4, applied := [w 22 3, w 25 3, w 28 3, w 31 3], vMeas := leAtS b 34 2, vLocal := leAtS b 36 2,
    kappa := leAtS b 38 4, cfgVer := w 42 2, unauth := w 44 1, snapId := w 45 1 }

/-- The report block of a `REPORT` frame, or of a `RAW_OBS` frame that carries one (R328). -/
def frameReport (f : List Byte) : Option Report :=
  if frType f = 3 then some (readReport (slice f 22 46))
  else if frType f = 4 && frRep f then some (readReport (slice f (22 + (frLen f - 46)) 46))
  else none

/-- Where the intervals that hold `top` reach to, followed from one to the next. -/
def reachOf (l : List (Nat × Nat)) : Nat → Nat → Nat
  | 0, top => top
  | n + 1, top =>
    match l.find? fun v => decide (v.1 ≤ top ∧ top < v.2) with
    | some v => reachOf l n v.2
    | none => top

/-- The forward end of a slot's standing footprint on a task's route (R245), mm: the end of the connected ground of the nearest
one that ends at or beyond `m`. -/
def Dev.footEnd (s : Dev) (i : Nat) (k : Task) (m : Nat) : Option Nat :=
  match s.trl.graph with
  | none => none
  | some g =>
    let foot := s.trl.resv.filter fun r => r.robot = i && r.kind = .envelope && r.openEnd
    let ivs := k.hops.zipIdx.flatMap fun h =>
      match g.seg? h.1.1 with
      | none => []
      | some x =>
        let a := g.hopsLen (k.hops.take h.2)
        (foot.filter fun r => r.seg == x.id).map fun r =>
          if h.1.2 then (10 * (a + x.len - r.hi), 10 * (a + x.len - r.lo)) else (10 * (a + r.lo), 10 * (a + r.hi))
    ((ivs.map (·.2)).filter fun e => decide (m ≤ e)).min?.map fun e => reachOf ivs ivs.length e

/-- A late result (R245): the mark of a zombie for a closed generation of its slot and epoch, the latest of them (log entry 106). -/
def Dev.lateResult (s : Dev) (i epoch : Nat) (r : Report) : Dev :=
  match r.task with
  | none => s
  | some id =>
    let k := s.task id
    match (k.gens.zipIdx.filter fun (g : Gen × Nat) => g.1.slot == i && g.1.epoch == epoch && !g.1.current).getLast? with
    | none => s
    | some (g, n) =>
      match s.footEnd i k g.m with
      | none => s
      | some top =>
        let mark := min top r.mark
        if mark ≤ g.m then s
        else
          let k := k.raise n mark
          let s := s.setTask id { k with gens := k.gens.modify n fun (g : Gen) => { g with late := true } }
          (s.raise 0x69).event 0x0904 (leBytes id 2 ++ leBytes i 1 ++ [0] ++ leBytes mark 4)

/-- A zombie's `REPORT` or `RAW_OBS` frame (R24, R245): the late result it carries is taken while the footprint still stands, and
then the frame is handled as any zombie frame. -/
def Dev.zombieFrame (s : Dev) (i : Nat) (f : List Byte) : Dev :=
  let s := match frameReport f with
    | some r => s.lateResult i (frEpoch f) r
    | none => s
  s.zombie i (frEpoch f) (frType f)

/-- The end of a lease by release (R25): loops at zero, SPECULATIVE entries pruned, tasks orphaned, parts ended. -/
def Dev.endLease (s : Dev) (i : Nat) (l : Lease) : Dev :=
  let s := ((s.abortParts i 0x0501).pruneAll i).orphanTasks i false
  let s := (s.frkFreeze i).zeroLoops i false
  let s := s.setLease i { l with st := .released, handle := none, unsynced := false, unplaced := false }
  s.endParts i

end Sys2Proof.Machine
end

