-- ==== Sys2Proof/Machine/Plan.lean ====
section
/-! DEFINITION. The slot plan of a lane judged as a whole (R319, R320). -/
namespace Sys2Proof.Machine

/-- Owner code of a node (R319). -/
def nodeCode (addr : Nat) : Nat := if 0x2000 ≤ addr then 256 + (addr - 0x2000) else addr - 0x1000

/-- The transmitter of slot `k` in slotframes of parity `odd` (R319). -/
def planOwner (w : Nat) (odd : Bool) : Nat := if odd && bitAt w 22 then bits w 13 9 else bits w 4 9

/-- Is a slot given to `owner` for `use` in slotframes of a parity? -/
def planGives (words : List Nat) (use owner k : Nat) (odd : Bool) : Bool :=
  let w := words.getD k 0
  bits w 0 4 == use && planOwner w odd == owner

/-- In some slotframes. -/
def planSome (words : List Nat) (use owner k : Nat) : Bool :=
  planGives words use owner k false || planGives words use owner k true

/-- Are all the slots that a route names given to its nodes (R320)? Hop 1 of `DL_SLOT` 255 uses any base slot; a later
hop is sent by the relay before it. -/
def routeHasSlots (words : List Nat) : Bool → Nat → List (Nat × Nat × Nat) → Bool
  | _, _, [] => true
  | first, prev, (node, dl, ul) :: t =>
    (if first then dl == 255 || bits (words.getD dl 0) 0 4 == 5 else planSome words 7 (nodeCode prev) dl) &&
      planSome words 6 (nodeCode node) ul && routeHasSlots words false node t

/-- The relays that forward for a route, with their depths. -/
def routeRelays (r : RouteEnt) : List (Nat × Nat) :=
  (r.hops.dropLast.zipIdx).map fun h => (h.1.1, h.2 + 1)

/-- Slots between consecutive base downlink slots, round the slotframe: is a gap above 10? -/
def gapBad (words : List Nat) : Bool :=
  let ks := (List.range 50).filter fun k => bits (words.getD k 0) 0 4 == 5
  match ks with
  | [] => true
  | k0 :: _ => ((ks.zip (ks.tail ++ [k0 + 50])).any fun p => decide (11 < p.2 - p.1))

/-- `BONDED` against R315 or R320: `b` = slots of one data transmission. -/
def bondBad (words : List Nat) (b : Nat) : Bool :=
  (List.range 50).any fun k =>
    let w := words.getD k 0
    let v := words.getD (k - 1) 0
    bitAt w 23 && (k ≤ 4 || b == 1 || bits w 0 4 != bits v 0 4 || bits w 4 19 != bits v 4 19 ||
      (List.range b).all fun j => bitAt (words.getD (k - j) 0) 23)

/-- Does a lane's plan break R320 with these routes on it? -/
def planBad (nSlots b : Nat) (words : List Nat) (routes : List RouteEnt) : Bool :=
  let use : Nat → Nat := fun k => bits (words.getD k 0) 0 4
  let relays := routes.flatMap routeRelays
  let ownerBad : Nat → Bool := fun c => decide (c < 256 ∧ nSlots ≤ c)
  (relays.any fun r => (r.2 == 1 && use 3 != 3) || (r.2 == 2 && use 4 != 3)) ||
  ((List.range 50).any fun k =>
    let w := words.getD k 0
    decide (8 ≤ use k) || ((use k == 6 || use k == 7) && (ownerBad (bits w 4 9) || (bitAt w 22 && ownerBad (bits w 13 9))))) ||
  (routes.any fun r => !routeHasSlots words true 0 r.hops) ||
  (!routes.isEmpty && gapBad words) ||
  (relays.any fun r =>
    let has : Bool → Bool := fun odd => (List.range 50).any fun k => planGives words 7 (nodeCode r.1) k odd
    !(has false && has true)) ||
  bondBad words b

/-- The plan words of a lane as the registers hold them. -/
def Dev.planWords (s : Dev) (n : Nat) : List Nat :=
  (List.range 50).map fun k => (s.reg (0xD800 + 0x100 * n + 4 * k)).toNat

/-- Slots of one data transmission of a lane (R315). -/
def Dev.bondSlots (s : Dev) (n : Nat) : Nat := [1, 2, 4, 4].getD (s.bond n) 4

/-- Do the routes break the plan of a lane (R333)? -/
def Dev.routesBreak (s : Dev) (routes : List RouteEnt) (n : Nat) : Bool :=
  planBad s.nSlots (s.bondSlots n) (s.planWords n) (routes.filter fun r => r.lane == n)

/-- May an entry be sleepy (R336)? -/
def Dev.sleepyOk (s : Dev) (r : RouteEnt) : Bool :=
  !r.sleepy || 0x2000 ≤ r.dest ||
    (let l := Tab.get (fun _ => ({} : Lease)) s.txu.leases (r.dest - 0x1000)
     l.st = .unknown || (l.st = .released && l.parked))

end Sys2Proof.Machine
end

