-- ==== Sys2Proof/Machine/MacOps.lean ====
section
/-! DEFINITION. Choosing and launching a queued frame (R317, R318, R323, R334, R337), and judging a received one (R338). -/
namespace Sys2Proof.Machine

/-- `VALID` and `TX` of a key entry (R323). -/
def Dev.keyValid (s : Dev) (k : Nat) : Bool := s.flag (0xD400 + 0x20 * k, 0, 1)
def Dev.keyTx (s : Dev) (k : Nat) : Bool := s.keyValid k && s.flag (0xD400 + 0x20 * k, 1, 1)

/-! ### Sending -/

/-- Does a repeat of a fleet-wide stop take the slot (R327)? -/
def Dev.slotStopped (s : Dev) (n k : Nat) : Bool :=
  match s.saf.burst with
  | some b => b.lanes.any fun x => x.1 == n && x.2.1 ≤ k && k ≤ x.2.1 + (3 - x.2.2)
  | none => false

/-- Does one slot carry a frame (R315, R317), with its acknowledgement where it asks for one? -/
def Dev.oneSlot (s : Dev) (f : TxFrame) : Bool :=
  let n := f.lane
  let octets := 34 + (if f.type_ == 5 then 16 + 24 * f.batch.length else f.body.length)
  let ack := if f.rx == 0xFFFF then 0 else 10000 * (s.fld (lnTTa n) + s.fld (lnTPre n)) + 32 * s.fld (lnTOct n)
  decide (800000 + 10000 * s.fld (lnTPre n) + octets * s.fld (lnTOct n) + ack ≤ 20000000)

/-- A `ROUTE` of a transaction whose offer lead is short (R318): its commit beacon is at most one slotframe off (DESIGN CHOICE, log entry
113). -/
def Dev.shortLead (s : Dev) (f : TxFrame) (t : NT) : Bool :=
  f.type_ == 8 && s.txu.txns.any fun (x : Txn) => x.id == f.txn && decide (ntDiff x.cNt t ≤ ((msTicks 100 : Nat) : Int))

/-- May a frame go out in slot `k` of its lane? Priority frames use slots 1 and 2, offers those too; the rest the base
downlink slots of the plan. Only stops break the silence of a time step, and only stops need no transmit key. -/
def Dev.maySend (s : Dev) (f : TxFrame) (k : Nat) : Bool :=
  let n := f.lane
  let start : NT := BitVec.ofNat 64 (slotStart k)
  let p := k % 50
  let w := (s.reg (0xD800 + 0x100 * n + 4 * p)).toNat
  let stop := f.type_ == 1
  let prio := p == 1 || p == 2
  let data := 5 ≤ p - 0 && bits w 0 4 == 5 && !bitAt w 23 || ((p == 3 || p == 4) && bits w 0 4 == 5)
  let place := if prio then (f.pslot || f.type_ == 2 || s.shortLead f start) && (s.bond n == 0 || s.oneSlot f) else !f.pslot && data
  let route := s.routeTo f.dst
  let slotOk := match route with
    | some r => prio || f.pslot || (match r.hops.head? with | some h => h.2.1 == 255 || h.2.1 == p | none => true)
    | none => true
  let awake := match route with
    | some r => !r.sleepy || (k / 50) % r.sleepN == r.phase
    | none => true
  let moved := (s.lane n).moving && data && (match route with | some r => r.lane != n | none => false)
  place && slotOk && awake && !moved && !s.slotStopped n k && ntReached start f.from_ &&
    (stop || s.keyTx f.key) && (stop || s.upd.pause != some 3) &&
    (stop || match s.mac.silentUntil with | some t => ntReached start t | none => true) &&
    (match f.until_ with | some t => ntAfter t start | none => true)

/-- The next slot of a lane, and the frame it takes: the earliest of the next 100 slots in which a waiting frame may go,
and of those frames the first by priority and order. -/
def Dev.nextSend (s : Dev) (n : Nat) : Option (Nat × TxFrame) :=
  let fs := s.mac.txq.filter fun f => f.lane == n
  let k0 := slotOf s.nt.toNat
  ((List.range 100).map fun j => k0 + j).findSome? fun k =>
    if k ≤ (s.lane n).lastSlot && (s.lane n).lastSlot ≤ k0 + 4 then none
    else if ntAfter s.nt (s.launchAt n k) then none
    else
      match fs.filter fun f => s.maySend f k with
      | [] => none
      | f :: t => some (k, t.foldl (fun a b => if b.prio < a.prio || (b.prio == a.prio && b.order < a.order) then b else a) f)

/-- Slots that a transmission beginning in slot `k` fills: itself and the slots bonded to it (R315). -/
def Dev.lastOf (s : Dev) (n k : Nat) : Nat :=
  ((List.range 3).foldl (fun (a : Nat × Bool) j =>
    if a.2 && bitAt (s.reg (0xD800 + 0x100 * n + 4 * ((k + j + 1) % 50))).toNat 23 then (a.1 + 1, true) else (a.1, false))
    (k, true)).1

/-- The octets of a set-point batch at its launch (R330). -/
def Dev.batchBody (s : Dev) (f : TxFrame) (k : Nat) : List Byte :=
  let sent : NT := BitVec.ofNat 64 (slotStart k)
  let ent : Nat × List Byte → List Byte := fun e =>
    let l := Tab.get (fun _ => ({} : Lease)) s.txu.leases e.1
    let echo := match l.report with
      | some r => if l.reported && ntSince sent l.rx ≤ msTicks 100 then r.repT else 0
      | none => 0
    slice e.2 0 16 ++ leBytes echo 6 ++ leBytes (b2n (s.rover e.1).wantSnap) 1 ++ [0]
  leBytes 1 1 ++ leBytes f.batch.length 1 ++ leBytes (shortNt sent) 6 ++ List.replicate 8 0 ++ f.batch.flatMap ent

/-- Types that are retried (R334). -/
def retried (t : Nat) : Bool := [7, 8, 9, 10, 12].contains t

/-- A `CONFIG` frame (R331) repeats until its node confirms (R333). -/
def isConfig (f : TxFrame) : Bool := f.type_ == 9 && leAt f.body 0 1 / 16 == 4

/-- Remove a frame. -/
def Dev.dropFrame (s : Dev) (f : TxFrame) : Dev :=
  { s with mac := { s.mac with txq := s.mac.txq.filter fun x => x.order != f.order } }

/-- A send of the host ends (R344). -/
def Dev.sendDone (s : Dev) (h code retries : Nat) : Dev :=
  let s := { s with mac := { s.mac with sends := s.mac.sends.filter fun x => x.1 != h
                                        txq := s.mac.txq.filter fun f => f.handle != some h } }
  s.done h code (leBytes retries 1)

/-- A frame has been sent and needs nothing more: the host's send is complete when its last frame is. -/
def Dev.frameDone (s : Dev) (f : TxFrame) : Dev :=
  let s := s.dropFrame f
  match f.handle with
  | some h => if s.mac.txq.any fun x => x.handle == some h then s else s.sendDone h stOK f.tries
  | none => s

/-- Drop the frames of a lane whose deadline has passed (R345), and count them. -/
def Dev.dropLate (s : Dev) (n : Nat) : Dev :=
  let late : TxFrame → Bool := fun f =>
    f.lane == n && f.handle.isNone && (match f.until_ with | some t => ntReached s.nt t | none => false)
  let k := (s.mac.txq.filter late).length
  let s := { s with mac := { s.mac with txq := s.mac.txq.filter fun f => !late f } }
  (List.range k).foldl (fun s _ => (s.cntSat (0xD038, 16, 16)).raise 0x85) s

/-- What follows a transmission on air (R316, R334): the acknowledgement, the retry or the drop. -/
def Dev.afterSend (s : Dev) (f : TxFrame) (acked : Bool) : Dev :=
  let unicast := f.dst != 0xFFFF && f.type_ != 1 && f.type_ != 5
  let s := f.batch.foldl (fun s e => if (s.rover e.1).wantSnap then s.setRover e.1 { s.rover e.1 with wantSnap := false } else s) s
  if isConfig f then
    let s := s.dropFrame f
    if s.mac.changes.any fun c => !c.applied && c.waiting.contains f.dst && c.cfgVer == leAt f.body 10 2
    then s.queueFrame f else s
  else if !unicast || acked then s.frameDone f
  else if !retried f.type_ then s.dropFrame f
  else if f.tries < s.fld (0xD014, 0, 2) then
    { s with mac := { s.mac with txq := mapWhere (fun x => x.order == f.order) (fun x => { x with tries := x.tries + 1 }) s.mac.txq } }
  else
    let s := ((s.dropFrame f).cntSat (0xD038, 0, 16)).raise 0x84
    match f.handle with
    | some h => s.sendDone h 0x0804 f.tries
    | none => s

/-! ### Receiving -/

/-- Is a received frame well formed (R321, orders 2 of R338)? `n` is the length of the PSDU. -/
def frameOk (n : Nat) (f : List Byte) : Bool :=
  let t := frType f
  if t = 11 then n = 32 && leAt f 0 1 / 16 % 8 = 1 && frLen f = 6
  else
    t ≤ 12 && leAt f 0 1 / 16 % 4 = 1 && leAt f 1 1 < 32 && leAt f 8 2 < 512 && frLen f ≤ 366 && 1 ≤ leAt f 20 1 &&
      leAt f 20 1 ≤ 3 && leAt f 21 1 = 0 && (!frRep f || t = 4) && n = 22 + frLen f + (if frSec f then 8 else 0) + 4

/-- Types that only the base sends (R338). -/
def downlink (t : Nat) : Bool := [0, 1, 2, 5, 6, 8].contains t

/-- Is a frame an admission claim (R331)? -/
def isClaim (f : List Byte) : Bool :=
  frType f = 9 && !frSec f && frSrc f = 0xFFFF && frEpoch f = 0 && leAt f 22 1 / 16 = 2

/-- The robot slot of an address. -/
def Dev.robotOf (s : Dev) (a : Nat) : Option Nat :=
  if 0x1000 ≤ a ∧ a < 0x1000 + s.nSlots then some (a - 0x1000) else none

/-- Is an epoch older than the lease's (R20, R21, R336)? 0 never is; under a lease that is over, any epoch is. -/
def Dev.older (s : Dev) (i epoch : Nat) : Bool :=
  let l := Tab.get (fun _ => ({} : Lease)) s.txu.leases i
  epoch != 0 && (l.st = .dead || l.st = .zombie || l.st = .released)

/-- A frame counts as a report of a slot (R21). -/
def Dev.counts (s : Dev) (i epoch : Nat) : Bool :=
  let l := Tab.get (fun _ => ({} : Lease)) s.txu.leases i
  epoch != 0 && epoch == l.epoch && (l.st = .admitting || l.st = .active || l.st = .suspect)

/-- Remember a frame counter of an originator (R338); the answer says whether it was among the last 16. -/
def Dev.remember (s : Dev) (src cnt : Nat) : Bool × Dev :=
  let l := Tab.get (fun _ => []) s.mac.seen src
  (l.contains cnt, { s with mac := { s.mac with seen := Tab.set (fun _ => []) s.mac.seen src ((cnt :: l).take 16) } })

/-- Is a relay a gateway of `MAC_GATEWAY` (R346)? -/
def Dev.isGateway (s : Dev) (a : Nat) : Bool :=
  (s.flag (0xD024, 16, 1) && a == 0x2000 + s.fld (0xD024, 0, 8)) || (s.flag (0xD024, 17, 1) && a == 0x2000 + s.fld (0xD024, 8, 8))

/-- The consumers of a delivered frame, by the queue that leads to each (order 6 of R338). -/
def Dev.consumers (s : Dev) (f : List Byte) : List Nat :=
  match frType f with
  | 3 => [25]
  | 4 => if frRep f then [24, 25] else [24]
  | 7 => [26]
  | 9 => if frSec f then [25] else [28]
  | 10 => if s.isGateway (frSrc f) then [27] else []
  | 12 => [28]
  | _ => []

/-- Deliver a frame. -/
def Dev.deliver (s : Dev) (n : Nat) (sfd : NT) (f : List Byte) (dup : Bool) : Dev :=
  let items := (s.consumers f).map fun q => ({ q, lane := n, rx := s.nt, frame := f, dup, sfd } : RxItem)
  let s := { s with mac := { s.mac with inbox := s.mac.inbox ++ items } }
  let s := if dup && !items.isEmpty then s.cntSat (0xD034, 16, 16) else s
  match s.robotOf (frSrc f) with
  | some i =>
    if !(frType f = 3 || frType f = 4) && s.older i (frEpoch f) then s.zombie i (frEpoch f) (frType f) else s
  | none => s

/-- A standby takes only the receipt time of a frame that passed its MIC (R503). -/
def Dev.standbyReceipt (s : Dev) (f : List Byte) : Dev :=
  match s.robotOf (frSrc f) with
  | some i => if (frType f = 3 || frType f = 4) && s.counts i (frEpoch f) then s.countReport i s.nt true else s
  | none => s

/-- The slot in which a frame began whose SFD ended at `sfd` (R317). -/
def Dev.slotOfSfd (s : Dev) (n : Nat) (sfd : NT) : Nat := slotOf (ntAdd sfd (-(nsTicks (1000 * s.fld (lnTPre n))))).toNat

/-- A received frame in clear, header and payload, where it is authentic (order 4 of R338, R322, R323): a protected one under a valid key
whose MIC passes, an unprotected one only as an `ACK` or a `CLAIM`. -/
def Dev.openFrame (s : Dev) (f : List Byte) : Option (List Byte) :=
  let h := f.take 22
  let n := frLen f
  if frSec f then
    if s.keyValid (frKey f) then
      (ccmOpen (s.keyOctets (frKey f)) (s.nonce (frSrc f) (frCnt f)) (f.take 16) (slice f 22 n) (slice f (22 + n) 8)).map (h ++ ·)
    else none
  else if frType f = 11 || isClaim f then some (h ++ slice f 22 n) else none

/-- Orders 3 to 6 of R338. -/
def Dev.judgeFrame (s : Dev) (n : Nat) (sfd : NT) (f : List Byte) : Dev :=
  let src := frSrc f
  if src = 1 || src = 2 || downlink (frType f) then s
  else
    match s.openFrame f with
    | none =>
      let s := match s.robotOf src with | some i => s.note (0x300 + i) (frType f) [] | none => s
      (s.cntSat (0xD034, 0, 16)).raise 0x83
    | some c =>
      let (dup, s) := if frSec f then s.remember src (frCnt f) else (false, s)
      let join := isClaim f && s.slotUse n (s.slotOfSfd n sfd % 50) == 4
      if !(join || (s.routeTo src).isSome) then (s.cntSat (0xD03C, 16, 16)).raise 0x86
      else if s.saf.run = .standby then s.standbyReceipt c
      else s.deliver n sfd c dup

/-- A unicast frame to this unit is acknowledged in its slot (R317, R331, R334). `TOFS` is taken against a preamble that begins 40 us into
the slot (DEDUCED, log entry 113). -/
def Dev.sendAck (s : Dev) (n : Nat) (sfd : NT) (f : List Byte) : Dev :=
  let quiet := match s.mac.silentUntil with | some t => ntAfter t s.nt | none => false
  if frType f = 11 || leAt f 18 2 ≠ 1 || !s.beaconing || !s.holdsToken || quiet then s
  else
    let k := s.slotOfSfd n sfd
    let due := ntAdd (BitVec.ofNat 64 (slotStart k + usTicks 40)) (nsTicks (1000 * s.fld (lnTPre n)))
    let to_ := leAt f 16 2
    let body := leBytes (leAt f 10 4) 4 ++ leBytes (satSigned 16 (ntDiff sfd due)) 2
    let ack := leBytes (11 + 16) 1 ++ [0] ++ leBytes to_ 2 ++ leBytes 1 2 ++ [0, 0] ++ leBytes 6 2 ++ List.replicate 6 0 ++ leBytes 1 2 ++
      leBytes to_ 2 ++ [1, 0] ++ body
    let go := ntAdd sfd (nsTicks ((f.length * s.fld (lnTOct n) / 10 : Nat) + 1000 * s.fld (lnTTa n) - s.fld (lnTxDly n)))
    (((s.radio n (s.template 0 ++ withFcs ack)).emit (.txgo n go)).emit (.frame n 11 to_ body)).radio n (s.template 3)

end Sys2Proof.Machine
end

