-- ==== Sys2Proof/Machine/Geodesy.lean ====
section
/-! DEFINITION. Integer arithmetic for angles and positions: sines and directions in units of 2^-40, the WGS-84 ellipsoid of R160, and
the east-north-up axes at a point (R93, R94, R101, R160). The spec fixes no arithmetic for them: the roundings are log entry 98. -/
namespace Sys2Proof.Machine

/-- A position or a vector: ECEF, or east-north-up. -/
abbrev Vec3 := Int × Int × Int

/-- The unit of a direction. -/
def one40 : Int := 1099511627776

/-- Division to the nearest whole number, halves up; 0 by 0. -/
def nearest (a b : Int) : Int := (2 * a + b) / (2 * b)

/-- The product of two numbers in units of 2^-40. -/
def mul40 (a b : Int) : Int := nearest (a * b) one40

/-- Turn a vector (cosine, sine) by another. -/
def turnBy (a b : Int × Int) : Int × Int := (mul40 a.1 b.1 - mul40 a.2 b.2, mul40 a.1 b.2 + mul40 a.2 b.1)

/-- Half of the rotation (cosine, sine), for one of at most half a turn. -/
def halfTurn (a : Int × Int) : Int × Int :=
  let c : Int := isqrt ((one40 * (one40 + a.1)) / 2).toNat
  (c, if c = 0 then one40 else nearest (a.2 * one40) (2 * c))

/-- Cosine and sine of `a` in units of 2^-32 turn: one rotation for each of its bits, the highest (half a turn) first. -/
def cosSinGo (a : Nat) : Nat → Int × Int → Int × Int → Int × Int
  | 0, _, v => v
  | k + 1, r, v => cosSinGo a k (halfTurn r) (if bitAt a k then turnBy v r else v)
def cosSin (a : Nat) : Int × Int := cosSinGo a 32 (-one40, 0) (one40, 0)

/-- An angle in thousandths of a degree as 2^-32 turn. -/
def milliDeg (a : Int) : Nat := (nearest (a * 4294967296) 360000 % 4294967296).toNat

/-- The direction of a vector that points into the upper half plane, by its bits below half a turn, the highest first: the largest
angle that does not pass it. -/
def atan2Go (t : Int × Int) : Nat → Nat → Int × Int → Int × Int → Nat
  | 0, a, _, _ => a
  | k + 1, a, r, v =>
    let w := turnBy v r
    if 0 ≤ w.1 * t.2 - w.2 * t.1 then atan2Go t k (a + 2 ^ k) (halfTurn r) w else atan2Go t k a (halfTurn r) v

/-- The direction of a vector, in units of 2^-24 turn. -/
def atan2 (c s : Int) : Nat :=
  let low := s < 0 || (s = 0 && c < 0)
  let t : Int × Int := if low then (-c, -s) else (c, s)
  (if low then 2 ^ 23 else 0) + atan2Go t 23 0 (0, one40) (one40, 0)

/-! ### Vectors -/

/-- Squared length of a difference of two positions. -/
def dist2 (a b : Vec3) : Nat :=
  let d := (a.1 - b.1, a.2.1 - b.2.1, a.2.2 - b.2.2)
  (d.1 * d.1 + d.2.1 * d.2.1 + d.2.2 * d.2.2).toNat

def addPos (a b : Vec3) : Vec3 := (a.1 + b.1, a.2.1 + b.2.1, a.2.2 + b.2.2)
def subPos (a b : Vec3) : Vec3 := (a.1 - b.1, a.2.1 - b.2.1, a.2.2 - b.2.2)
def dot3 (a b : Vec3) : Int := a.1 * b.1 + a.2.1 * b.2.1 + a.2.2 * b.2.2
def scale3 (k : Int) (a : Vec3) : Vec3 := (k * a.1, k * a.2.1, k * a.2.2)

/-- Length, to the nearest whole unit below. -/
def len3 (a : Vec3) : Nat := isqrt (dist2 a (0, 0, 0))

/-- A vector of two components brought to unit length; (1, 0) for one of length 0. -/
def unit2 (a : Int × Int) : Int × Int :=
  let n : Int := isqrt (a.1 * a.1 + a.2 * a.2).toNat
  if n = 0 then (one40, 0) else (nearest (a.1 * one40) n, nearest (a.2 * one40) n)

/-! ### The ellipsoid -/

/-- The east, north and up axes at an ECEF position in 0.1 mm, in units of 2^-40, on WGS-84 (R160): the latitude by one step of
Bowring's formula. -/
def enuAxes (p : Vec3) : Vec3 × Vec3 × Vec3 :=
  let r : Int := isqrt (p.1 * p.1 + p.2.1 * p.2.1).toNat
  let l := unit2 (p.1, p.2.1)
  let b := unit2 (nearest (r * 996647189335253) 1000000000000000, p.2.2)
  let cube (x : Int) : Int := mul40 (mul40 x x) x
  let f := unit2 (r - nearest (426976727 * cube b.1) one40, p.2.2 + nearest (428413115 * cube b.2) one40)
  ((-l.2, l.1, 0),
   (-(mul40 f.2 l.1), -(mul40 f.2 l.2), f.1),
   (mul40 f.1 l.1, mul40 f.1 l.2, f.2))

/-- A vector east-north-up at a point, turned into ECEF, in its own unit. -/
def enuToEcef (p v : Vec3) : Vec3 :=
  let a := enuAxes p
  let w := addPos (addPos (scale3 v.1 a.1) (scale3 v.2.1 a.2.1)) (scale3 v.2.2 a.2.2)
  (nearest w.1 one40, nearest w.2.1 one40, nearest w.2.2 one40)

/-- An ECEF vector turned into east-north-up at a point, in its own unit. -/
def ecefToEnu (p v : Vec3) : Vec3 :=
  let a := enuAxes p
  (nearest (dot3 v a.1) one40, nearest (dot3 v a.2.1) one40, nearest (dot3 v a.2.2) one40)

/-- Line of sight to a satellite, east-north-up, from its elevation and azimuth in thousandths of a degree. -/
def sightEnu (elev az : Int) : Vec3 :=
  let e := cosSin (milliDeg elev)
  let a := cosSin (milliDeg az)
  (mul40 e.1 a.2, mul40 e.1 a.1, e.2)

end Sys2Proof.Machine
end

