-- ==== Sys2Proof/Machine/Rtcm.lean ====
section
/-! DEFINITION. RTCM 10403.3 as R98 has the Sprinkler write it: the transport frame, the MSM4 and MSM7 messages, 1005, 1006 and 1033.
Messages are bit strings, most significant bit first (R9's exception). The layout is the standard's (PRESUMED, log entry 101). -/
namespace Sys2Proof.Machine

/-! ### Bits and frames -/

/-- A signed field. -/
def msbSigned (w : Nat) (v : Int) : List Nat := msbFirst w (unsigned w v)

/-- The octets of a bit string, the last one filled with zeros. -/
def octetsOf : List Nat → List Byte
  | a :: b :: c :: d :: e :: f :: g :: h :: t =>
    BitVec.ofNat 8 (128 * a + 64 * b + 32 * c + 16 * d + 8 * e + 4 * f + 2 * g + h) :: octetsOf t
  | [] => []
  | l => [BitVec.ofNat 8 ((l.foldl (fun a b => 2 * a + b) 0) * 2 ^ (8 - l.length))]

/-- One bit of CRC-24Q, and the CRC of some octets. -/
def crc24Bit (c : Nat) : Nat := if bitAt c 23 then (2 * c) ^^^ 0x1864CFB else 2 * c
def crc24 (l : List Byte) : Nat :=
  l.foldl (fun c b => (List.range 8).foldl (fun c _ => crc24Bit c) (c ^^^ (b.toNat * 65536))) 0

/-- A transport frame (R98): the preamble 0xD3, six zero bits, the length of the message, the message and its CRC-24Q. -/
def rtcmFrame (msg : List Nat) : List Byte :=
  let b := octetsOf msg
  let f := [0xD3, BitVec.ofNat 8 (b.length / 256 % 4), BitVec.ofNat 8 (b.length % 256)] ++ b
  let c := crc24 f
  f ++ [BitVec.ofNat 8 (c / 65536), BitVec.ofNat 8 (c / 256 % 256), BitVec.ofNat 8 (c % 256)]

/-- A field that R98 leaves open. -/
def openField (df w : Nat) : List Nat := msbFirst w (Config.rtcmOpen df)

/-! ### MSM -/

/-- The MSM signal ID of a signal (R75, R98); none for B1C and B2a, to which RTCM 10403.3 assigns none. -/
def msmId (sig : Nat) : Option Nat :=
  ([some 2, some 31, some 16, some 23, some 2, some 23, some 15, some 8, some 2, none, none, some 14, some 8, some 2, some 16,
    some 23] : List (Option Nat)).getD sig none

/-- A cell: satellite and MSM signal ID; fine pseudorange and phase-range in the units of the message, `none` when invalid; lock
time in ms; the half-cycle ambiguity; C/N0 in 0.01 dB-Hz; the phase-range rate in 0.1 mm/s. -/
structure MsmCell where
  svid : Nat
  id   : Nat
  pr   : Option Int
  cp   : Option Int
  lock : Nat
  half : Bool
  cn0  : Nat
  rate : Int
deriving DecidableEq, Repr

/-- A satellite of a message: its rough range in 2^-10 ms and its cells, by ascending signal ID. -/
structure MsmSat where
  svid  : Nat
  rough : Int
  cells : List MsmCell
deriving DecidableEq, Repr

/-- The lock time indicators of MSM4 and MSM7 of a lock time in ms. -/
def lockInd (ms : Nat) : Nat := if ms < 32 then 0 else min 15 (Nat.log2 ms - 4)
def lockInd7 (ms : Nat) : Nat :=
  if ms < 64 then ms
  else let k := Nat.log2 ms - 5; if 21 ≤ k then 704 else ms / 2 ^ k + 32 * k

/-- A field of a cell, `none` reading as the most negative number of the field. -/
def msmField (w : Nat) (v : Option Int) : List Nat := match v with | some x => msbSigned w x | none => msbFirst w (2 ^ (w - 1))

/-- A signed value that its field cannot hold is invalid. -/
def fits (w : Nat) (v : Int) : Option Int := if v.natAbs < 2 ^ (w - 1) then some v else none

/-- The signals of some satellites, in order. -/
def msmSigs (l : List MsmSat) : List Nat :=
  (List.range 33).filter fun n => l.any fun x => x.cells.any fun c => c.id == n

/-- Some satellites split into messages (R98): a message holds no more than 64 pairs of a satellite and a signal. -/
def msmSplit : List MsmSat → List MsmSat → List (List MsmSat)
  | [], cur => if cur.isEmpty then [] else [cur]
  | x :: t, cur =>
    let next := cur ++ [x]
    if !cur.isEmpty && 64 < next.length * (msmSigs next).length then cur :: msmSplit t [x] else msmSplit t next

/-- A message's header data: type, station, epoch time in ms of its system's week, clock steering. -/
structure MsmHead where
  type_ : Nat
  station : Nat
  time : Nat
  steer : Nat
deriving DecidableEq, Repr

/-- An MSM4 or MSM7 message; `more` is the multiple-message bit. -/
def msmMsg (h : MsmHead) (more : Bool) (sats : List MsmSat) : List Nat :=
  let seven := h.type_ % 10 = 7
  let sigs := msmSigs sats
  let cells := sats.flatMap (·.cells)
  let mask (n : Nat) (p : Nat → Bool) : List Nat := (List.range n).map fun k => b2n (p (k + 1))
  let roughRate (x : MsmSat) : Int := match x.cells.head? with | some c => nearest c.rate 10000 | none => 0
  let fineRates : List (Option Int) := sats.flatMap fun x => x.cells.map fun c => fits 15 (c.rate - 10000 * roughRate x)
  msbFirst 12 h.type_ ++ msbFirst 12 h.station ++ msbFirst 30 h.time ++ [b2n more] ++ openField 409 3 ++ List.replicate 7 0 ++
    msbFirst 2 h.steer ++ openField 412 2 ++ openField 417 1 ++ openField 418 3 ++
    mask 64 (fun k => sats.any fun x => x.svid == k) ++ mask 32 (fun k => sigs.contains k) ++
    (sats.flatMap fun x => sigs.map fun n => b2n (x.cells.any fun c => c.id == n)) ++
    (sats.flatMap fun x => msbFirst 8 (if x.rough < 0 || 255 * 1024 ≤ x.rough then 255 else (x.rough / 1024).toNat)) ++
    (if seven then sats.flatMap fun _ => openField 1 4 else []) ++
    (sats.flatMap fun x => msbFirst 10 (x.rough % 1024).toNat) ++
    (if seven then sats.flatMap fun x => msmField 14 (fits 14 (roughRate x)) else []) ++
    (cells.flatMap fun c => msmField (if seven then 20 else 15) c.pr) ++
    (cells.flatMap fun c => msmField (if seven then 24 else 22) c.cp) ++
    (cells.flatMap fun c => if seven then msbFirst 10 (lockInd7 c.lock) else msbFirst 4 (lockInd c.lock)) ++
    (cells.map fun c => b2n c.half) ++
    (cells.flatMap fun c => if seven then msbFirst 10 (min 1023 (c.cn0 * 16 / 100)) else msbFirst 6 (min 63 (c.cn0 / 100))) ++
    (if seven then fineRates.flatMap (msmField 15) else [])

/-- The multiple-message bit (R98): 1 on every MSM but the last. -/
def msmAll : List (MsmHead × List MsmSat) → List (List Nat)
  | [] => []
  | [x] => [msmMsg x.1 false x.2]
  | x :: t => msmMsg x.1 true x.2 :: msmAll t

/-! ### Station messages -/

/-- 1005, or 1006 with the antenna height: the position in 0.1 mm, and whether the station serves GPS and Galileo. -/
def stationMsg (station year height : Nat) (gps gal : Bool) (p : Vec3) : List Nat :=
  msbFirst 12 (if height = 0 then 1005 else 1006) ++ msbFirst 12 station ++ msbFirst 6 year ++ [b2n gps, 0, b2n gal, 0] ++
    msbSigned 38 p.1 ++ [1, 0] ++ msbSigned 38 p.2.1 ++ openField 364 2 ++ msbSigned 38 p.2.2 ++
    (if height = 0 then [] else if 65535 < 10 * height then openField 28 16 else msbFirst 16 (10 * height))

/-- The octets of a text, and a counted string of a message. -/
def text (l : List Char) : List Byte := l.map fun c => BitVec.ofNat 8 c.toNat
def counted (l : List Byte) : List Nat := msbFirst 8 l.length ++ l.flatMap fun b => msbFirst 8 b.toNat

/-- A hexadecimal digit, and `n` of them, the highest first. -/
def hexDigit (d : Nat) : Char := if d < 10 then Char.ofNat (48 + d) else Char.ofNat (55 + d)
def hexText (v n : Nat) : List Char := (List.range n).map fun k => hexDigit (v / 16 ^ (n - 1 - k) % 16)

/-- A version (R477) as text: major, minor and build in decimal, with points between. -/
def verText (v : Nat) : List Char :=
  (Nat.toDigits 10 (v / 2 ^ 24)) ++ '.' :: (Nat.toDigits 10 (v / 2 ^ 16 % 256)) ++ '.' :: (Nat.toDigits 10 (v % 65536))

/-- 1033 (R98): the antenna's descriptor, setup ID and serial number, the receiver's type, its firmware and its serial number. -/
def receiverMsg (station setup : Nat) (desc serial : List Byte) (fw dieId : Nat) : List Nat :=
  msbFirst 12 1033 ++ msbFirst 12 station ++ counted desc ++ msbFirst 8 setup ++ counted serial ++
    counted (text "AHNALSOL MIRETH MB7".toList) ++ counted (text (verText fw)) ++ counted (text (hexText dieId 16))

end Sys2Proof.Machine
end

