-- ==== Sys2Proof/Machine/Time.lean ====
section
/-! DEFINITION. Network time (R38-R69): the time states and their measurements, slews and holdover, the pulse, the
captures and the timed outputs. The step itself (R54) touches every chapter and is in TimeStep.lean. -/
namespace Sys2Proof.Machine

/-! ### Fields -/

def fSrc : Fld := (0x4020, 0, 2)
def fPpsinEdge : Fld := (0x4020, 2, 1)
def fStepThresh : Fld := (0x4024, 0, 16)
def fSlewRate : Fld := (0x4024, 16, 16)
def fLockWindow : Fld := (0x4028, 0, 16)
def fLockTime : Fld := (0x4028, 16, 8)
def fLossTime : Fld := (0x4028, 24, 8)
def fHoldFreq : Fld := (0x4034, 0, 16)
def fHoldAging : Fld := (0x4034, 16, 16)
def fQualLimit : Fld := (0x4038, 0, 24)
def fPpsRate : Fld := (0x4060, 0, 10)
def fPpsPol : Fld := (0x4060, 10, 1)
def fPpsEn : Fld := (0x4060, 11, 1)
def fPpsWidth : Fld := (0x4064, 0, 20)
def fPpsPhase : Fld := (0x4068, 0, 20)
def fPpsinSec : Fld := (0x4058, 0, 32)
def fLeapSec : Fld := (0x404C, 0, 32)
def fOutCtrl (n : Nat) : Nat := 0x4208 + 0x10 * n
def fOutArm (n : Nat) : Fld := (fOutCtrl n, 2, 1)

/-- Status codes of the chapter (R386). -/
def stJumpRefused : Nat := 0x0101
def stTimeStepped : Nat := 0x0102
def stPpsFixed : Nat := 0x0103
def stWindowPast : Nat := 0x0104

/-- Codes of the time states (R48). -/
def TimeState.code : TimeState → Nat
  | .freeRun => 0 | .acquiring => 1 | .locked => 2 | .holdover => 3 | .jumpPending => 4

/-! ### Offsets, slews and the holdover model -/

/-- The remaining offset in ns (R48): all of it while an initial set waits, else what the slew has still to work off. -/
def Dev.remainNs (s : Dev) : Nat :=
  if s.tim.step.isSome then s.tim.offset.natAbs else ceilDiv (s.clk.slewLeft * s.tim.slewRate) cycHz

/-- Start the slew of an offset (R52): the trim at `SLEW_RATE` in its direction until it is worked off. -/
def Dev.slew (s : Dev) (off : Int) : Dev :=
  let rate := 10 * s.fld fSlewRate
  let t : Int := ((rate * nomInc / 1000000000 : Nat) : Int)
  let n := if rate = 0 then 0 else ceilDiv (off.natAbs * cycHz) rate
  { s with clk := { s.clk with trim := if n = 0 then 0 else if off < 0 then -t else t, slewLeft := n, hold := false }
           tim := { s.tim with slewRate := rate } }

/-- No slew and no trim: FREE_RUN, and from a step to the first measurement after it (R48). -/
def Dev.stopSlew (s : Dev) : Dev := { s with clk := { s.clk with trim := 0, slewLeft := 0, hold := false } }

/-- HOLDOVER and JUMP_PENDING (R48): the last trim stays, and no slew runs. -/
def Dev.holdTrim (s : Dev) : Dev := { s with clk := { s.clk with slewLeft := 0, hold := true } }

/-- The frequency term in 0.01 ppb: `HOLD_FREQ`, or 50,000 ppb while `REF_IN` is lost (R46, R51). -/
def Dev.holdF (s : Dev) (forced : Bool) : Nat := if forced then 5000000 else s.fld fHoldFreq

/-- The estimate of R51 scaled by 100 * 172,800 * 2^60, so that it is exact. -/
def Dev.estScaled (s : Dev) (m : HoldModel) : Nat :=
  let lin := m.lin + s.holdF m.forced * ntSince s.nt m.lastAt
  let tau := ntSince s.nt m.start
  (m.e0 * 100 * tickHz + lin) * 172800 * tickHz + s.fld fHoldAging * tau * tau

/-- Scale of `estScaled` per ns. -/
def estUnit : Nat := 100 * 172800 * tickHz * tickHz

/-- The model's frequency part summed up to now, with the term in force from now on (R46). -/
def Dev.rebase (s : Dev) (forced : Bool) : Dev :=
  match s.tim.model with
  | none => s
  | some m =>
    let m' := { m with lin := m.lin + s.holdF m.forced * ntSince s.nt m.lastAt, lastAt := s.nt, forced }
    { s with tim := { s.tim with model := some m' } }

/-- The model starts at entry to HOLDOVER or JUMP_PENDING from another state (R51). -/
def Dev.startModel (s : Dev) : Dev :=
  match s.tim.model with
  | some _ => s
  | none =>
    { s with tim := { s.tim with model := some { start := s.nt, e0 := s.tim.estErr, lin := 0, lastAt := s.nt,
                                                 forced := !s.pll.refOk } } }

/-- `TIME_QUAL` (R48): in ACQUIRING by the remaining offset at every instant, in HOLDOVER as the estimate was last judged. -/
def Dev.timeQual (s : Dev) : Bool :=
  match s.tim.st with
  | .freeRun | .jumpPending => false
  | .acquiring => decide (s.remainNs ≤ s.fld fQualLimit)
  | .locked => true
  | .holdover => s.tim.qual

/-- The estimate of R51 is judged, with `TIME_QUAL` in HOLDOVER and the level of source 0x06 (R553). `TIM_EST_ERR` shows it
rounded down to whole ns (DESIGN CHOICE, log entry 91); the comparison with `QUAL_LIMIT` is exact. -/
def Dev.judgeQual (s : Dev) : Dev :=
  let lim := s.fld fQualLimit
  match s.tim.st with
  | .freeRun => ({ s with tim := { s.tim with qual := false } }).fallLevel 0x06
  | .locked => ({ s with tim := { s.tim with qual := true } }).fallLevel 0x06
  | .acquiring => ({ s with tim := { s.tim with qual := s.timeQual } }).fallLevel 0x06
  | .holdover | .jumpPending =>
    match s.tim.model with
    | none => s
    | some m =>
      let e := s.estScaled m
      let beyond := decide (lim * estUnit < e)
      let s := { s with tim := { s.tim with estErr := min (e / estUnit) (2 ^ 32 - 1),
                                            qual := !beyond && decide (s.tim.st = TimeState.holdover) } }
      if beyond then s.raiseLevel 0x06 else s.fallLevel 0x06

/-- The model ends: outside HOLDOVER and JUMP_PENDING the estimate shown is the remaining offset (DESIGN CHOICE, log
entry 15: the spec gives it no value there). -/
def Dev.endModel (s : Dev) : Dev :=
  { s with tim := { s.tim with model := none, estErr := min s.remainNs (2 ^ 32 - 1) } }

/-- An offset in an event's result (R382): 8 bytes, signed ns. -/
def offRes (o : Int) : List Byte := leBytes (unsigned 64 o) 8

/-- Enter a time state. -/
def Dev.setTime (s : Dev) (t : TimeState) : Dev :=
  { s with tim := { s.tim with st := t, lockCnt := 0, everLocked := s.tim.everLocked || t == .locked } }

/-- The source is lost (R46, R47, R49): by silence for `LOSS_TIME`, or at once. A step that is certain stands. -/
def Dev.sourceLost (s : Dev) : Dev :=
  if s.tim.step.isSome then s
  else
    match s.tim.st with
    | .acquiring | .locked =>
      if s.tim.everLocked then ((s.holdTrim.startModel).setTime .holdover).judgeQual
      else (s.stopSlew.setTime .freeRun).judgeQual
    | .jumpPending => ((s.setTime .holdover).judgeQual).event 0x0402 (offRes s.tim.offset ++ [3])
    | _ => s

/-- Does a source give the measurements that count: the one `TIM_SRC` names, or the partner in STANDBY (R47, R499)? The active
unit of a pair never takes time from its standby (R55). -/
def Dev.sourceIn (s : Dev) (src : Nat) : Bool :=
  if s.saf.run = .standby then src == 2 else src == s.fld fSrc && !(src == 2 && s.par.role == .active)

/-- Judge a valid measurement against R49. -/
def Dev.judgeOffset (s : Dev) (off : Int) : Dev :=
  let thr : Nat := s.fld fStepThresh
  let win : Nat := s.fld fLockWindow
  let a := off.natAbs
  let inWin := decide (a ≤ win)
  match s.tim.st with
  | .freeRun | .holdover =>
    if !s.tim.ntValid then
      let s := { s.stopSlew with tim := { s.tim with step := some { delta := nsTicks off, at_ := nextSlotframe s.nt, handle := none } } }
      ((s.setTime .acquiring).endModel).judgeQual
    else if a ≤ thr then
      let s := (s.setTime .acquiring).slew off
      ({ s with tim := { s.tim with lockCnt := b2n inWin } }).endModel.judgeQual
    else (((s.holdTrim.startModel).setTime .jumpPending).judgeQual.raise 0x05).event 0x0401 (offRes off)
  | .acquiring =>
    if thr < a then (((s.holdTrim.startModel).setTime .jumpPending).judgeQual.raise 0x05).event 0x0401 (offRes off)
    else
      let n := if inWin then s.tim.lockCnt + 1 else 0
      let s := s.slew off
      if s.fld fLockTime ≤ n then (s.setTime .locked).endModel.judgeQual
      else ({ s with tim := { s.tim with lockCnt := n } }).endModel.judgeQual
  | .locked =>
    if thr < a then (((s.holdTrim.startModel).setTime .jumpPending).judgeQual.raise 0x05).event 0x0401 (offRes off)
    else if inWin then (s.slew off).endModel.judgeQual
    else ((s.setTime .acquiring).slew off).endModel.judgeQual
  | .jumpPending =>
    if thr < a then s.judgeQual
    else
      let s := (s.setTime .acquiring).slew off
      ({ s with tim := { s.tim with lockCnt := b2n inWin } }).endModel.judgeQual.event 0x0402 (offRes off ++ [1])

/-- A measurement of a source arrives (R47-R49). It is shown in `TIM_OFFSET`; it counts when it comes from the source in
use, while `REF_IN` is present, for GNSS while the station is NOMINAL, and while no step is certain. -/
def Dev.measure (s : Dev) (src : Nat) (off : Int) (nominal : Bool) : Dev :=
  if !s.sourceIn src then s
  else
    let s := { s with tim := { s.tim with offset := off } }
    if s.tim.step.isSome || !s.pll.refOk || (src == 0 && !nominal) then s
    else
      let s := { s with tim := { s.tim with lastMeas := s.nt, srcActive := src } }
      s.judgeOffset off

/-- Judge loss by silence (R49, R50). -/
def Dev.judgeLoss (s : Dev) : Dev :=
  if s.fld fLossTime * tickHz ≤ ntSince s.nt s.tim.lastMeas then s.sourceLost else s

/-- LOSS_TIME_EXPIRY (R49): at the whole second at or after `LOSS_TIME` without a valid measurement. -/
def execLossTimeExpiry (s : State) : Host.Outcome State Fault Refusal := s.act fun s =>
  match s.tim.st with
  | .acquiring | .locked | .jumpPending =>
    (s.tickTo (secondAtOrAfter (ntAdd s.tim.lastMeas ((s.fld fLossTime * tickHz : Nat) : Int)))).judgeLoss
  | _ => s.begin

/-- One update of the tuning DAC (R45): the loop asks a change of frequency, `ask` in 0.001 ppb, which is held to 1 ppb, turned into
codes by `GAIN` (0.001 ppb per LSB) and `SLOPE`, and held to the `DAC_BITS` of the code; the transfer is `PREFIX_BITS` zeros and
the code, most significant bit first. What the loop asks is an operand, as the spec gives no loop law (DESIGN CHOICE, log entry 92). -/
def Dev.steer (s : Dev) (ask : Int) : Dev :=
  let gain := s.fld (0x4050, 16, 16)
  let w := s.fld (0x4050, 0, 5)
  let on := s.flag (0x4050, 6, 1) && (s.tim.st == .acquiring || s.tim.st == .locked)
  if !on || gain = 0 then s
  else
    let n : Int := ((min ask.natAbs 1000 / gain : Nat) : Int)
    let d := if (decide (ask < 0)) != s.flag (0x4050, 5, 1) then -n else n
    let top : Int := ((2 ^ w : Nat) : Int) - 1
    let code := (max 0 (min ((s.fld (0x4054, 0, 20) : Int) + d) top)).toNat
    (s.setFld (0x4054, 0, 20) code).emit (.spi 16 (List.replicate (s.fld (0x4050, 12, 4)) 0 ++ msbFirst w code))

/-- WHOLE_NT_SECOND (R45, R49, R51, R56): loss and the holdover model are judged, the DAC is steered, and the pulse
becomes qualified when `EN` and `TDC_CAL` are both 1. -/
def execWholeNtSecond (dac : Int) (s : State) : Host.Outcome State Fault Refusal := s.act fun s =>
  let t := s.nextDue nextSecond s.tim.secAt
  let s := s.tickTo t
  let s := (({ s with tim := { s.tim with secAt := t } }).judgeLoss).judgeQual
  let s := s.steer dac;
  (if s.flag fPpsEn && s.tim.tdcCal then { s with tim := { s.tim with ppsQual := true } } else s)

/-! ### Leap second and TDC -/

/-- LEAP_SECOND (R39): at the announced second the offset takes its next value, in `TIM_UTC` only. -/
def execLeapSecond (s : State) : Host.Outcome State Fault Refusal := s.act fun s =>
  if !s.flag (0x4048, 16, 1) then s.begin
  else
    let sec := s.nt.toNat / tickHz
    let d := signed 32 ((s.fld fLeapSec + 2 ^ 32 - sec % 2 ^ 32) % 2 ^ 32)
    let s := s.tickTo (BitVec.ofInt 64 (((sec : Int) + max d 0) * (tickHz : Int)));
    (s.setFld (0x4048, 0, 8) (s.fld (0x4048, 8, 8))).setFld (0x4048, 16, 1) 0

/-- Ten minutes of TIME cycles (R44). -/
def tdcPeriod : Nat := 600 * cycHz

/-- TDC_COLD_CAL_DONE (R44, R57): the units calibrate for the first 2 s after a reset, so the row falls no earlier (DEDUCED, log
entry 93). -/
def execTdcColdCalDone (dt : Nat) (s : State) : Host.Outcome State Fault Refusal := s.act fun s =>
  let s := s.tick (max dt (s.tdc.since + 2 * cycHz - s.up));
  { s with tim := { s.tim with tdcCal := true }, tdc := { s.tdc with calAt := s.up + tdcPeriod } }

/-- TDC_RECALIBRATION (R44, R69): every 10 minutes one of the fifteen units in turn, the spare standing in. The first failure is
retired to the spare; a later one leaves its input uncalibrated until power cycle. -/
def execTdcRecalibration (ok : Bool) (s : State) : Host.Outcome State Fault Refusal := s.act fun s =>
  if !s.tim.tdcCal then s.begin
  else
  let s := s.tickUp s.tdc.calAt
  let u := s.tdc.next
  let s := { s with tdc := { s.tdc with next := (u + 1) % 15, calAt := s.tdc.calAt + tdcPeriod } }
  if ok || s.tdc.failed.contains u then s
  else
    let t := { s.tdc with failed := u :: s.tdc.failed, uncal := if s.tdc.failed.isEmpty then s.tdc.uncal else u :: s.tdc.uncal };
    ({ s with tdc := t }).raise 0x07

/-! ### The time pulse (R56-R59) -/

/-- The `k`-th pulse instant of the train in force: a multiple of its period, plus the phase. -/
def Dev.ppsAt (s : Dev) (k : Nat) : NT :=
  ntAdd (BitVec.ofNat 64 (ceilDiv (k * tickHz) s.tim.ppsRate)) (nsTicks s.tim.ppsPhase)

/-- The first pulse that does not lie before the present TIME cycle, and at least half a period after the last one (R59). -/
def Dev.nextPps (s : Dev) : NT :=
  let half := ceilDiv tickHz (2 * s.tim.ppsRate)
  let now := s.clk.prevNt + 1
  let base : NT := match s.tim.ppsLast with
    | some l => if ntAfter (ntAdd l half) now then ntAdd l half else now
    | none => now
  let k := ceilDiv ((ntAdd base (-(nsTicks s.tim.ppsPhase))).toNat * s.tim.ppsRate) tickHz
  let t := s.ppsAt k
  if ntReached t base then t else s.ppsAt (k + 1)

/-- PPS_PULSE (R56): qualified, the train goes on in every state. -/
def execPpsPulse (s : State) : Host.Outcome State Fault Refusal := s.act fun s =>
  if !s.tim.ppsQual || s.tim.ppsRate = 0 then s.begin
  else
    let t := s.nextPps
    let s := s.tickTo t;
    ({ s with tim := { s.tim with ppsLast := some t } }).emit (.pulse 4 t (1000 * s.tim.ppsWidth) (s.tim.ppsPol == 0))

/-- The first whole NT second at least 10 ms ahead (R58). -/
def Dev.ppsChangeAt (s : Dev) : NT := secondAtOrAfter (ntAdd s.nt (msTicks 10))

/-- PPS_CHANGE (R58): the new train takes over at its whole second, and the command completes. -/
def execPpsChange (s : State) : Host.Outcome State Fault Refusal := s.act fun s =>
  match s.tim.ppsChange with
  | none => s.begin
  | some c =>
    let s := s.tickTo c.at_
    let s := ((s.setFld fPpsRate c.rate).setFld fPpsPol c.pol).setFld fPpsWidth c.width
    let s := s.setFld fPpsPhase c.phase
    let s := { s with tim := { s.tim with ppsChange := none, ppsRate := c.rate, ppsPol := c.pol, ppsWidth := c.width,
                                          ppsPhase := signed 20 c.phase } }
    s.doneOpt c.handle stOK []

/-- TIME_SET_PPS (R58). Ranges are judged at the fetch; the polarity is fixed once the pulse is qualified. A second change
before the first takes hold finds the resource busy (DESIGN CHOICE, log entry 16). -/
def execTimeSetPps (h : Nat) (s : State) : Host.Outcome State Fault Refusal := s.act fun s =>
  s.command h 0x11 fun l s =>
    if s.tim.ppsQual && l.p 2 1 ≠ s.tim.ppsPol then s.done h stPpsFixed []
    else if (s.tim.ppsChange.bind (·.handle)).isSome then s.refuse h stBusy none
    else
      { s with tim := { s.tim with ppsChange := some {
          rate := l.p 0 2, pol := l.p 2 1, width := l.p 4 4, phase := l.p 8 4 % 2 ^ 20, at_ := s.ppsChangeAt,
          handle := some h } } }

/-! ### Captures (R60-R62) -/

/-- A capture input: 0-7 = `TIME_CAPn`, 8 = `PPS_IN`. -/
def Dev.cap (s : Dev) (n : Nat) : CapInput := Tab.get (fun _ => {}) s.caps n
def Dev.setCap (s : Dev) (n : Nat) (c : CapInput) : Dev := { s with caps := Tab.set (fun _ => {}) s.caps n c }

/-- A capture record (R61). -/
def capRecord (t : NT) (frac input flags seq : Nat) : List Byte :=
  leBytes t.toNat 8 ++ leBytes frac 1 ++ leBytes input 1 ++ leBytes flags 1 ++ [0] ++ leBytes seq 2 ++ [0, 0]

/-- Does an arm take this edge (R60)? -/
def CapArm.takes (a : CapArm) (rising : Bool) : Bool := if rising then bitAt a.edge 0 else bitAt a.edge 1

/-- Records leave the buffer of an input as `PROGRESS` entries while its ring can take or hold them (R62, R374), and an arm that
has made its `COUNT` completes once its last record is out (R60). That a record waits in the buffer while the hold buffer of the
ring is full is the model's choice (log entry 94): the spec does not say when the buffer empties. -/
def Dev.drainCap (s : Dev) (n : Nat) : Nat → Dev
  | 0 => s
  | k + 1 =>
    let c := s.cap n
    match c.arm with
    | none => s
    | some a =>
      match c.buf with
      | [] => if a.count ≤ a.made then (s.setCap n { c with arm := none }).done a.handle stOK [] else s
      | r :: rest =>
        if s.takesEntry a.handle then ((s.setCap n { c with buf := rest }).progress a.handle 1 r).drainCap n k else s

/-- The buffers of all inputs are emptied as far as their rings allow. -/
def Dev.drainCaps (s : Dev) : Dev := (s.caps.map (·.1)).foldl (fun s n => s.drainCap n 17) s

/-- An arm ends with a status (R60, R54): what its buffer holds goes out first. -/
def Dev.endCap (s : Dev) (n code : Nat) : Dev :=
  let c := s.cap n
  match c.arm with
  | none => s
  | some a =>
    (c.buf.foldl (fun s r => s.progress a.handle 1 r) (s.setCap n { c with arm := none, buf := [] })).done a.handle code []

/-- An edge on a capture input (R62), `sub` units of 2^-38 s into the present TIME cycle: lost when it comes closer than 100 ns
after the one before or finds the buffer full, else written to the input's registers and, in the window of an arm that takes it,
reported. An unarmed input records rising edges only. The one before is the last edge recorded, so a lost edge does not renew the
interval, and an input without fine resolution gives the start of the cycle (DESIGN CHOICE, log entry 94). -/
def Dev.captureEdge (s : Dev) (n sub : Nat) (rising : Bool) : Dev :=
  let c := s.cap n
  let uncal := !s.tim.tdcCal || s.tdc.uncal.contains n
  let e := s.edgeAt (if uncal then 0 else sub)
  let wanted := match c.arm with | some a => a.takes rising && a.made < a.count | none => rising
  let near := match c.last with | some l => decide (0 ≤ edgeDiff e l ∧ edgeDiff e l * 1000000000 < 100 * 2 ^ 38) | none => false
  let open_ := match c.arm with | some a => a.begun | none => false
  if !wanted then s
  else if near || (open_ && decide (16 ≤ c.buf.length)) then s.setCap n { c with lost := true }
  else
    let flags := b2n rising + 2 * b2n uncal + 4 * b2n c.lost + 8 * s.tim.st.code
    let c := { c with last := some e, lost := false, nt := e.1, frac := e.2, flags }
    match c.arm with
    | none => s.setCap n c
    | some a =>
      if !a.begun then s.setCap n c
      else
        let made := a.made + 1
        (s.setCap n { c with arm := some { a with made }, buf := c.buf ++ [capRecord e.1 e.2 n flags made] }).drainCap n 17

/-- TIME_CAPTURE_EDGE (R62). -/
def execTimeCaptureEdge (dt input sub : Nat) (rising : Bool) (s : State) : Host.Outcome State Fault Refusal := s.act fun s =>
  let s := s.tick dt;
  (if input < 9 then s.captureEdge input sub rising else s)

/-- PPS_IN_EDGE (R47, R62): a capture, and with a fresh label on the chosen edge a measurement of source 1: the label's second less
the instant of the edge, as its TDC unit resolves it, rounded down to whole ns (DESIGN CHOICE, log entry 95). -/
def execPpsInEdge (dt sub : Nat) (rising : Bool) (s : State) : Host.Outcome State Fault Refusal := s.act fun s =>
  let s := (s.tick dt).captureEdge 8 sub rising
  if rising == s.flag fPpsinEdge || !s.tim.labelled then s
  else
    let sec := s.nt.toNat / tickHz
    let d := signed 32 ((s.fld fPpsinSec + 2 ^ 32 - sec % 2 ^ 32) % 2 ^ 32)
    let mark := BitVec.ofInt 64 (((sec : Int) + d) * (tickHz : Int))
    let e := s.edgeAt (if !s.tim.tdcCal || s.tdc.uncal.contains 8 then 0 else sub)
    let off := edgeDiff (mark, 0) e * 1000000000 / ((256 * tickHz : Nat) : Int)
    let s := { s with tim := { s.tim with labelled := false } }
    s.measure 1 off true

/-- TIME_CAPTURE_ARM (R60). -/
def execTimeCaptureArm (h : Nat) (s : State) : Host.Outcome State Fault Refusal := s.act fun s =>
  s.command h 0x12 fun l s =>
    let n := l.p 18 1
    let tE : Option NT := if l.p 8 8 = 0 then none else some (l.pNt 8)
    if (s.cap n).arm.isSome then s.refuse h stBusy none
    else if (match tE with | some t => ntReached s.nt t | none => false) then s.done h stWindowPast []
    else
      let now := l.p 0 8 = 0 || ntReached s.nt (l.pNt 0)
      s.setCap n { s.cap n with arm := some { handle := h, edge := l.p 19 1, count := l.p 16 2, tStart := l.pNt 0,
                                              tEnd := tE, begun := now, made := 0 } }

/-- CAPTURE_START (R60). -/
def execCaptureStart (input : Nat) (s : State) : Host.Outcome State Fault Refusal := s.act fun s =>
  match (s.cap input).arm with
  | none => s.begin
  | some a =>
    if a.begun then s.begin
    else
      let s := s.tickTo a.tStart
      s.setCap input { s.cap input with arm := some { a with begun := true } }

/-- CAPTURE_END (R60). -/
def execCaptureEnd (input : Nat) (s : State) : Host.Outcome State Fault Refusal := s.act fun s =>
  match (s.cap input).arm with
  | none => s.begin
  | some (a : CapArm) =>
    match a.tEnd with
    | none => s.begin
    | some t =>
      let s := s.tickTo t;
      s.endCap input stOK

/-- TIM_CAPN_LO_READ (R62): the read latches `_HI` and `_STAT` of the same edge. The spec gives `_STAT` no bit positions: the model
puts `FRAC` in [7:0] and `FLAGS` in [15:8], as R61 orders them (DESIGN CHOICE, log entry 96). -/
def execTimCapnLoRead (n : Nat) (s : State) : Host.Outcome State Fault Refusal := s.act fun s =>
  let s := s.begin
  let c := s.cap n;
  (if n < 9 then s.setCap n { c with latHi := c.nt.toNat / 2 ^ 32, latStat := c.frac + 256 * c.flags } else s)

/-- TIM_NT_LO_READ (R66): the read latches `TIM_NT_HI`. -/
def execTimNtLoRead (s : State) : Host.Outcome State Fault Refusal := s.act fun s =>
  let s := s.begin;
  { s with tim := { s.tim with ntHiLatch := s.nt.toNat / 2 ^ 32 } }

/-! ### Timed outputs (R63) -/

/-- Launch time of output `n`. -/
def Dev.outT (s : Dev) (n : Nat) : NT :=
  BitVec.ofNat 64 ((s.reg (0x4200 + 0x10 * n)).toNat + 2 ^ 32 * (s.reg (0x4204 + 0x10 * n)).toNat)

/-- The settings and W1C bits of a write to `TIM_OUTn_CTRL`. -/
def Dev.outFields (s : Dev) (n : Nat) (v : Reg) : Dev :=
  let r := fOutCtrl n
  let s := (s.setFld (r, 0, 2) (fieldOf v 0 2)).setFld (r, 8, 16) (fieldOf v 8 16)
  [4, 5, 6].foldl (fun s b => if fieldOf v b 1 = 1 then s.setFld (r, b, 1) 0 else s) s

/-- Disarm an output (R63). -/
def Dev.outDisarm (s : Dev) (n : Nat) : Dev :=
  let s := s.setFld (fOutArm n) 0
  { s with tim := { s.tim with outNext := s.tim.outNext.set n none } }

/-- TIMED_OUTPUT_FIRE (R63): at its launch time, and in periodic mode again each period. -/
def execTimedOutputFire (n : Nat) (s : State) : Host.Outcome State Fault Refusal := s.act fun s =>
  if !s.flag (fOutArm n) then s.begin
  else
    let t := (s.tim.outNext.getD n none).getD (s.outT n)
    let s := (s.tickTo t).setFld (fOutCtrl n, 5, 1) 1
    let mode := s.fld (fOutCtrl n, 0, 2)
    let s := s.emit (if mode = 0 || mode = 3 then .pulse n t (4 * s.fld (fOutCtrl n, 8, 16)) true else .level n t (mode == 1))
    if mode = 3 then
      let nx := s.tim.outNext.set n (some (ntAdd t (((s.reg (0x420C + 0x10 * n)).toNat : Nat) : Int)));
      { s with tim := { s.tim with outNext := nx } }
    else
      let s := s.outDisarm n;
      (if mode = 0 then s else { s with pad := { s.pad with timeOut := s.pad.timeOut.set n (decide (mode = 1)) } })

/-- TIME_ACCEPT_JUMP (R54): refused in RUN and UPDATE_PAUSE, while an accepted step waits, with no jump pending (an initial set that
waits is none) or with another offset; else the step is certain at the next slotframe boundary. -/
def execTimeAcceptJump (h : Nat) (s : State) : Host.Outcome State Fault Refusal := s.act fun s =>
  s.command h 0x10 fun l s =>
    if s.saf.run = .run || s.saf.run = .updatePause then s.refuse h stBusy none
    else if (s.tim.step.bind (·.handle)).isSome then s.refuse h stBusy none
    else if s.tim.step.isSome || s.tim.st ≠ .jumpPending || l.p 8 4 < (s.tim.offset - l.ps 0 8).natAbs then s.done h stJumpRefused []
    else { s with tim := { s.tim with step := some { delta := nsTicks s.tim.offset, at_ := nextSlotframe s.nt,
                                                     handle := some h } } }

end Sys2Proof.Machine
end

