-- ==== Sys2Proof/Machine/GnsOps.lean ====
section
/-! DEFINITION. The GNSS engine's parts: signals and ports (R70-R75), channels and groups (R77-R81), the output filter (R88),
epochs (R84-R87), base positions (R90-R94), the integrity machine (R113-R122) and the packing of corrections (R101-R103). -/
namespace Sys2Proof.Machine

/-! ### Signals and ports -/

/-- System and band group of a signal (R75), and the source signal of a system (R76). -/
def sigSys (n : Nat) : Nat := if n ≤ 3 then 0 else if n ≤ 7 then 1 else if n ≤ 12 then 2 else 3
def sigGroup (n : Nat) : Nat :=
  if [0, 1, 4, 8, 9, 13].contains n then 1 else if [3, 5, 6, 10, 11, 15].contains n then 2 else 3
def sigSource (sys : Nat) : Nat := [0, 4, 8, 13].getD sys 0

/-- Carrier frequency of a signal in kHz, its cycles per ms (PRESUMED, log entry 18: the interface documents of the systems). -/
def sigKHz (n : Nat) : Nat :=
  [1575420, 1575420, 1227600, 1176450, 1575420, 1176450, 1207140, 1278750, 1561098, 1575420, 1176450, 1207140, 1268520,
   1575420, 1227600, 1176450].getD n 1575420

/-- Signal on a pilot (R75): no half-cycle ambiguity. -/
def sigPilot (n : Nat) : Bool := !([0, 8, 11, 12, 13].contains n)

/-- The sample port of an antenna and a signal (R70). -/
def portOf (ant sig : Nat) : Nat := 3 * ant + sigGroup sig - 1

def spEn (p : Nat) : Fld := (0x5080 + 0x10 * p, 0, 1)
def spFormat (p : Nat) : Fld := (0x5080 + 0x10 * p, 2, 1)
def spSwap (p : Nat) : Fld := (0x5080 + 0x10 * p, 3, 1)
def spInvQ (p : Nat) : Fld := (0x5080 + 0x10 * p, 4, 1)
/-- `FC_OFS` of a port (R110), Hz. -/
def Dev.fcOfs (s : Dev) (p : Nat) : Int := signed 24 (s.fld (0x5080 + 0x10 * p, 8, 24))
def Dev.nPorts (s : Dev) : Nat := if s.fuse.big then 6 else 3
def Dev.antB (s : Dev) : Bool := s.fuse.big
def Dev.port (s : Dev) (p : Nat) : Port := Tab.get (fun _ => {}) s.gns.ports p
def Dev.setPort (s : Dev) (p : Nat) (x : Port) : Dev :=
  { s with gns := { s.gns with ports := Tab.set (fun _ => {}) s.gns.ports p x } }

/-- The level of a 4-bit code (R71): two's complement, or offset binary. -/
def sampleLevel (offset : Bool) (raw : Nat) : Int := 2 * (if offset then (raw : Int) - 8 else signed 4 raw) + 1

/-- The levels I and Q of a sample as a port took it (R71, R105): I in [3:0] and Q in [7:4] before the buses are exchanged. -/
def Dev.sampleOf (s : Dev) (p : Nat) (b : Byte) : Int × Int :=
  let lv := sampleLevel (s.flag (spFormat p))
  let (i, q) := if s.flag (spSwap p) then (b.toNat / 16, b.toNat % 16) else (b.toNat % 16, b.toNat / 16)
  (lv i, if s.flag (spInvQ p) then -(lv q) else lv q)

/-- `HIGH_OCC` (R110): the fraction at level ±13 or ±15 of the I and Q values of a second's samples, given as counts of each octet;
rounded down (DESIGN CHOICE, log entry 99). -/
def Dev.highOcc (s : Dev) (p : Nat) (hist : List (Byte × Nat)) : Nat :=
  let high (v : Int) : Nat := b2n (decide (13 ≤ v.natAbs))
  let all := hist.foldl (fun a x => a + 2 * x.2) 0
  let n := hist.foldl (fun a x => let v := s.sampleOf p x.1; a + (high v.1 + high v.2) * x.2) 0
  if all = 0 then 0 else sat 16 (65536 * n / all)

/-- A port in use, one whose channels track, and one whose signals reach the outputs (R72, R73, R88). -/
def Dev.portUsed (s : Dev) (p : Nat) : Bool := decide (p < s.nPorts) && s.flag (spEn p)
def Dev.portRuns (s : Dev) (p : Nat) : Bool := s.portUsed p && (s.port p).clkOk
def Dev.portClean (s : Dev) (p : Nat) : Bool :=
  s.portRuns p && (s.port p).coherent && (s.port p).okSecs == 0 && !(s.port p).stuck

/-- Levels of the port sources: each holds while some port in use shows its condition (R106). `okSecs` is 10 from a measured
violation until the ratio is good again, so a clock not yet measured raises nothing. -/
def Dev.portLevels (s : Dev) : Dev :=
  let any (f : Port → Bool) : Bool := (List.range 6).any fun p => s.portUsed p && f (s.port p)
  let lv (s : Dev) (n : Nat) (b : Bool) : Dev := if b then s.raiseLevel n else s.fallLevel n
  lv (lv (lv s 0x40 (any fun (x : Port) => x.lost)) 0x41 (any fun (x : Port) => x.clkOk && !x.coherent && x.okSecs != 0))
    0x42 (any fun (x : Port) => x.stuck)

/-- The channels of a port drop (R73). -/
def Dev.dropPort (s : Dev) (p : Nat) : Dev :=
  { s with gns := { s.gns with chans := s.gns.chans.filter fun (c : Chan) => portOf c.ant c.sig != p } }

/-- A port's clock is lost (R73). -/
def Dev.loseClock (s : Dev) (p : Nat) : Dev :=
  ((s.setPort p { s.port p with clkOk := false, lost := true }).dropPort p).portLevels

/-- A port's `EN` changes: out of use it tracks nothing and shows nothing, but keeps what it learned. -/
def Dev.portEn (s : Dev) (p : Nat) : Dev :=
  let x := s.port p
  ((s.setPort p { sum := x.sum, num := x.num, learned := x.learned }).dropPort p).portLevels

/-! ### Groups (R77-R81) -/

/-- Does a group exist on the part (R77)? -/
def Dev.grpThere (s : Dev) (g : Nat) : Bool := decide (g ≤ 12) && (s.fuse.big || decide (g ≤ 5) || g == 12)

/-- Is a group tracking: there, sound, and neither the spare nor, once the spare has taken over, under calibration? -/
def Dev.grpServes (s : Dev) (g : Nat) : Bool :=
  let out := match s.gns.calib with
    | some c => if c.stage = 2 then some c.grp else s.gns.spare
    | none => s.gns.spare
  s.grpThere g && !s.gns.retired.contains g && out != some g

/-- Physical channels in service and free, lowest first. -/
def Dev.freeChans (s : Dev) : List Nat :=
  (List.range 416).filter fun n => s.grpServes (n / 32) && !(s.gns.chans.any fun (c : Chan) => c.no == n)

/-- The assignments of a group move to the same channels of another, as a restart or with their state. -/
def Dev.moveGrp (s : Dev) (a b : Nat) (restart : Bool) : Dev :=
  let f : Chan → Chan := fun c =>
    if c.no / 32 = a then
      let c := { c with no := 32 * b + c.no % 32 }
      if restart then c.restart else c
    else c
  { s with gns := { s.gns with chans := s.gns.chans.map f } }

/-- The assignments of a group are lost. -/
def Dev.dropGrp (s : Dev) (g : Nat) : Dev :=
  { s with gns := { s.gns with chans := s.gns.chans.filter fun (c : Chan) => c.no / 32 != g } }

/-- A calibration that waits or runs ends without a result. -/
def Dev.endCalib (s : Dev) : Dev :=
  match s.gns.calib with
  | some c => ((({ s with gns := { s.gns with calib := none } }).returnLeave (.calib c.grp)).dropLeave (.calib c.grp))
  | none => s

/-- A group retires (R80, R81): the spare takes over its assignments as a restart; under a calibration in progress the group
calibrated does, and with no spare left the assignments are lost. A calibration still in its parallel run has not swapped yet: the
spare, which runs as a copy, then keeps the assignments of the group calibrated (DEDUCED, log entry 100). -/
def Dev.retireGrp (s : Dev) (g : Nat) : Dev :=
  if !s.grpThere g || s.gns.retired.contains g then s
  else
    let sp := s.gns.spare
    let cal := s.gns.calib
    let s := { s with gns := { s.gns with retired := g :: s.gns.retired } }
    let s := match cal, sp with
      | some c, some p =>
        if c.stage = 2 then
          if g = c.grp then s else s.moveGrp g c.grp true
        else if g = p then s
        else if c.stage = 1 then
          if g = c.grp then s.moveGrp g p false else (s.moveGrp c.grp p false).moveGrp g c.grp true
        else s.moveGrp g p true
      | none, some p => if g = p then s else s.moveGrp g p true
      | _, none => s.dropGrp g
    let s := s.endCalib
    let s := { s with gns := { s.gns with spare := none } }
    (s.raise 0x43).raiseLevel 0x44

/-- The next group of the rotation at or after a number, cyclically (R79). -/
def Dev.nextTurn (s : Dev) (g : Nat) : Option Nat :=
  ((List.range 13).map fun k => (g + k) % 13).find? fun k => s.grpServes k

/-- A turn or a `CAL_NOW` that does not run (R81). -/
def Dev.calSkip (s : Dev) : Dev := s.cntSat (0x506C, 0, 16)

/-- Ask leave for a calibration (R79): class BIST, 400 mW, 3 s, wanted before the next turn. -/
def Dev.askCalib (s : Dev) (g : Nat) : Dev :=
  let iv := s.fld (0x5060, 8, 16)
  ({ s with gns := { s.gns with calib := some { grp := g } } }).askLeave 7 400 (3 * tickHz)
    (ntAdd s.nt ((60 * iv * tickHz : Nat) : Int)) (.calib g)

/-- A granted calibration starts in parallel with its group (R79). -/
def Dev.startCalib (s : Dev) (g : Nat) : Dev :=
  match s.gns.calib with
  | some c =>
    if c.grp = g && c.stage = 0 then
      { s with gns := { s.gns with calib := some { c with stage := 1, start := s.nt } } }
    else s.returnLeave (.calib g)
  | none => s.returnLeave (.calib g)

/-- The swap of R79 at an epoch boundary; the answer says whether it took place. -/
def Dev.calSwap (s : Dev) (t : NT) : Dev × Bool :=
  match s.gns.calib, s.gns.spare with
  | some c, some p =>
    if c.stage = 1 && decide (msTicks 200 ≤ ntSince t c.start) then
      let n := s.gns.chans.filter fun (x : Chan) => x.no / 32 = c.grp
      let s := s.moveGrp c.grp p false
      let swapped := n.map fun (x : Chan) => 32 * p + x.no % 32
      ({ s with gns := { s.gns with calib := some { c with stage := 2 }, swapped } }, true)
    else ({ s with gns := { s.gns with swapped := [] } }, false)
  | _, _ => ({ s with gns := { s.gns with swapped := [] } }, false)

/-! ### Channel assignment (R78) -/

/-- Satellites by descending elevation. -/
def insertSv (v : SkySv) : List SkySv → List SkySv
  | [] => [v]
  | x :: t => if x.elev < v.elev then v :: x :: t else x :: insertSv v t
def sortSvs (l : List SkySv) : List SkySv := l.foldl (fun a v => insertSv v a) []

/-- Is a signal enabled? -/
def Dev.sigOn (s : Dev) (n : Nat) : Bool := bitAt (s.reg 0x5018).toNat n

/-- `ELEV_MASK` in thousandths of a degree. -/
def Dev.elevMask (s : Dev) : Int := 1000 * (s.fld (0x5014, 8, 8) : Int)

/-- Candidates in their order (R78): (antenna, system, satellite, signal). -/
def Dev.candidates (s : Dev) (svs : List SkySv) : List (Nat × Nat × Nat × Nat) :=
  let up := sortSvs (svs.filter fun (v : SkySv) => decide (s.elevMask ≤ v.elev))
  let ants := if s.antB then [s.gns.refAnt, 1 - s.gns.refAnt] else [0]
  let of (ant : Nat) (src : Bool) : List (Nat × Nat × Nat × Nat) :=
    up.flatMap fun (v : SkySv) => ((List.range 16).filter fun n =>
      sigSys n = v.sys && v.sigs.contains n && decide ((n = sigSource v.sys) = src) && s.sigOn n &&
        s.portRuns (portOf ant n)).map fun n => (ant, v.sys, v.svid, n)
  ants.flatMap fun a => of a true ++ of a false

/-- Does a channel keep its assignment (R78)? -/
def Dev.keepsChan (s : Dev) (svs : List SkySv) (c : Chan) : Bool :=
  s.sigOn c.sig && s.portRuns (portOf c.ant c.sig) &&
    svs.any fun (v : SkySv) => v.sys = c.sys && v.svid = c.svid && v.sigs.contains c.sig && decide (s.elevMask - 2000 ≤ v.elev)

/-- Give free channels to candidates that have none, the lowest channel first (DESIGN CHOICE, log entry 19). -/
def fillChans : List (Nat × Nat × Nat × Nat) → List Nat → List Chan → List Chan × Bool
  | [], _, cs => (cs, false)
  | (a, y, v, g) :: t, free, cs =>
    if cs.any fun (c : Chan) => c.ant = a && c.sys = y && c.svid = v && c.sig = g then fillChans t free cs
    else match free with
      | [] => (cs, true)
      | n :: rest => fillChans t rest (cs ++ [{ no := n, ant := a, sys := y, svid := v, sig := g }])

/-- CHANNEL_ASSIGNMENT (R78). -/
def Dev.assign (s : Dev) (svs : List SkySv) : Dev :=
  let s := { s with gns := { s.gns with chans := s.gns.chans.filter (s.keepsChan svs) } }
  let r := fillChans (s.candidates svs) s.freeChans s.gns.chans
  let s := { s with gns := { s.gns with chans := r.1, chShort := r.2 } }
  if r.2 then s.raiseLevel 0x45 else s.fallLevel 0x45

/-! ### Epochs and records (R84-R88) -/

/-- The first epoch tick strictly after `t`, and the index of an epoch (R84). -/
def epochTick (f k : Nat) : NT := BitVec.ofNat 64 (ceilDiv (k * tickHz) f)
def epochIndex (f : Nat) (t : NT) : Nat := t.toNat * f / tickHz
def nextEpoch (f : Nat) (t : NT) : NT := epochTick f (epochIndex f t + 1)

/-- A signal's integrity machine. -/
def Dev.sig (s : Dev) (n : Nat) : Integ := Tab.get (fun _ => {}) s.gns.sigs n

/-- A channel's measurement at the epoch: its channel with the lock updated, and the values measured. -/
structure Obs where
  c : Chan
  m : Meas
  slip : Bool
deriving DecidableEq, Repr

/-- Code delay in ps and carrier-phase offset in 2^-24 cycle of a group in the band of a signal (R79). -/
def Dev.grpDelay (s : Dev) (g sig : Nat) : Int × Int := Tab.get (fun _ => (0, 0)) s.gns.delays (3 * g + sigGroup sig - 1)

/-- Pseudorange corrected for the port's and the group's delay (R87), 0.1 mm; a picosecond is 0.299792458 mm, to the nearest
(DESIGN CHOICE, log entry 20). -/
def Dev.prOf (s : Dev) (o : Obs) : Nat :=
  let ps : Int := (s.fld (0x5088 + 0x10 * portOf o.c.ant o.c.sig, 0, 20) : Int) + (s.grpDelay (o.c.no / 32) o.c.sig).1
  ((o.m.pr : Int) - (ps * 299792458 + 50000000) / 100000000).toNat

/-- Carrier phase corrected for the group's offset in its band (R79), 2^-24 cycle. -/
def Dev.cpOf (s : Dev) (o : Obs) : Int := o.m.cp - (s.grpDelay (o.c.no / 32) o.c.sig).2

/-- At a swap (R79): the carrier phases of a channel and of its counterpart in the group under calibration, each with its own offset
taken off, differ by more than 0.05 cycle. -/
def Dev.swapSlip (s : Dev) (c : Chan) (m : Meas) : Bool :=
  match s.gns.swapped.contains c.no, m.twin, s.gns.calib with
  | true, some q, some k =>
    let d := (m.cp - (s.grpDelay (c.no / 32) c.sig).2) - (q - (s.grpDelay k.grp c.sig).2)
    decide (16777216 < 20 * d.natAbs)
  | _, _, _ => false

/-- Take the measurements into the channels (R79, R86, R87): lock begins at the first one and again after a discontinuity. -/
def Dev.observe (s : Dev) (t : NT) (ms : List Meas) : Dev × List Obs :=
  let find (c : Chan) : Option Meas :=
    ms.find? fun (m : Meas) => m.ant = c.ant && m.sys = c.sys && m.svid = c.svid && m.sig = c.sig
  let slips (c : Chan) (m : Meas) : Bool := m.slip || s.swapSlip c m
  let step (c : Chan) : Chan :=
    match find c with
    | some m => if c.lock.isNone || slips c m then { c.restart with lock := some t } else c
    | none => c
  let chans := s.gns.chans.map step
  let obs := chans.filterMap fun (c : Chan) => (find c).map fun m => ({ c, m, slip := slips c m } : Obs)
  ({ s with gns := { s.gns with chans } }, obs)

/-- Is a carrier phase valid: the half cycle is resolved (R87)? -/
def Obs.cpOk (o : Obs) : Bool := o.m.cpOk && (o.m.half || sigPilot o.c.sig)

/-- Continuous lock in ms (R86). -/
def Obs.lockMs (o : Obs) (t : NT) : Nat := match o.c.lock with | some l => sat 32 (ntSince t l * 1000 / tickHz) | none => 0

/-- The output filter (R88). -/
def Dev.passes (s : Dev) (svs : List SkySv) (o : Obs) : Bool :=
  o.c.ant = s.gns.refAnt && o.m.prOk && o.cpOk && (s.sig o.c.sig).st ≠ 2 && s.portClean (portOf o.c.ant o.c.sig) &&
    (svs.any fun (v : SkySv) => v.sys = o.c.sys && v.svid = o.c.svid && v.ok && decide (s.elevMask ≤ v.elev)) &&
    decide (100 * s.fld (0x5014, 16, 8) ≤ o.m.cn0) && s.sigOn o.c.sig

/-- A native record (R86). -/
def Dev.obsBytes (s : Dev) (t : NT) (o : Obs) : List Byte :=
  let flags := b2n (o.m.half || sigPilot o.c.sig) + 2 * b2n o.slip + 4 * b2n o.m.prOk + 8 * b2n o.cpOk +
    16 * (s.sig o.c.sig).st + 64 * b2n (s.gns.swapped.contains o.c.no)
  leBytes (o.c.sys + 8 * o.c.ant) 1 ++ leBytes o.c.svid 1 ++ leBytes o.c.sig 1 ++ leBytes flags 1 ++
    leBytes (s.prOf o) 8 ++ leBytes (unsigned 64 (s.cpOf o)) 8 ++ leBytes (unsigned 32 o.m.dop) 4 ++ leBytes o.m.cn0 2 ++
    leBytes o.c.no 2 ++ leBytes (o.lockMs t) 4

/-- Published station state (R122), and `TIME_UNCERTAIN` (R85). -/
def Dev.station (s : Dev) : Nat := max s.gns.sta.st s.gns.floor
def Dev.timeUncertain (s : Dev) : Bool := s.tim.st = .jumpPending || !s.timeQual

/-- A native epoch (R85). -/
def Dev.epochBytes (s : Dev) (t : NT) (f : SkyFacts) (swap : Bool) (obs : List Obs) : List Byte :=
  let flags := b2n s.gns.gap + 2 * b2n s.timeUncertain + 4 * b2n (s.gns.base != 0) + 8 * b2n swap + 16 * s.station
  leBytes t.toNat 8 ++ leBytes (s.fld (0x5014, 0, 3)) 1 ++ leBytes flags 1 ++ leBytes obs.length 2 ++
    leBytes s.gns.baseSeq 1 ++ leBytes s.tim.st.code 1 ++ [0, 0] ++ leBytes (unsigned 32 f.bias) 4 ++
    leBytes (unsigned 32 f.drift) 4 ++ List.replicate 8 0 ++ obs.flatMap (s.obsBytes t)

/-! ### Base position (R90-R94) -/

/-- Farther than 50 m (R93)? Positions in 0.1 mm. -/
def implausible (a b : Int × Int × Int) : Bool := decide (500000 * 500000 < dist2 a b)

/-- Is a baseline in mm within 1.000-20.000 m (R93, R94)? -/
def baselineOk (b : Int × Int × Int) : Bool :=
  let d := dist2 b (0, 0, 0)
  decide (1000 * 1000 ≤ d) && decide (d ≤ 20000 * 20000)

/-- The number of an adoption (R90). -/
def Dev.bumpBase (s : Dev) (t : NT) : Dev :=
  ({ s with gns := { s.gns with baseSeq := if s.gns.baseSeq = 255 then 1 else s.gns.baseSeq + 1, held := [] } }).frkRebase t

/-- A position is adopted at an epoch boundary (R90, R93, R94). -/
def Dev.adoptBase (s : Dev) (t : NT) (a : Adoption) : Dev :=
  let s := s.bumpBase t
  let arp := a.arp.getD (s.gns.antHeight, s.gns.antData.1, s.gns.antData.2)
  let g := { s.gns with base := a.kind, pos := a.pos, antHeight := arp.1, antData := arp.2, adopt := none,
                        adoptAt := some t, unchecked := a.check, blSince := none }
  let g := match a.bl with
    | some b => { g with baseline := 2, bl := b }
    | none => if s.antB then { g with baseline := 1, bl := (0, 0, 0) } else g
  ({ s with gns := g }).doneOpt a.handle stOK []

/-- The automatic baseline of one epoch (R94): fixed and stable to 5 mm for 300 s. -/
def Dev.surveyBaseline (s : Dev) (t : NT) (b : Option (Int × Int × Int)) : Dev :=
  if s.gns.baseline != 1 then s
  else match b with
    | none => { s with gns := { s.gns with blSince := none } }
    | some x =>
      match s.gns.blSince with
      | some (t0, r) =>
        if 25 < dist2 x r then { s with gns := { s.gns with blSince := some (t, x) } }
        else if ntSince t t0 < 300 * tickHz then s
        else if baselineOk x then { s with gns := { s.gns with baseline := 2, bl := x, blSince := none } }
        else ({ s with gns := { s.gns with baseline := 3, blSince := none } }).raise 0x46
      | none => { s with gns := { s.gns with blSince := some (t, x) } }

/-- The ECEF position of an antenna's reference point (R94): antenna B's is antenna A's plus the baseline. -/
def Dev.antPos (s : Dev) (ant : Nat) : Vec3 :=
  if ant = 0 then s.gns.pos else addPos s.gns.pos (enuToEcef s.gns.pos (scale3 10 s.gns.bl))

/-- Mean of a sum of positions. -/
def meanPos (p : Int × Int × Int) (n : Nat) : Int × Int × Int :=
  if n = 0 then (0, 0, 0) else (p.1 / (n : Int), p.2.1 / (n : Int), p.2.2 / (n : Int))

/-- Deviation of a survey in mm (R92), from the means of its complete blocks: none until there are two. The sample deviation,
rounded up (DESIGN CHOICE, log entry 21). -/
def Survey.std (v : Survey) : Option Nat :=
  let k := v.means.length
  if k < 2 then none
  else
    let m := meanPos (v.means.foldl addPos (0, 0, 0)) k
    let ss := v.means.foldl (fun a x => a + dist2 x m) 0
    some (ceilDiv (isqrtUp (ceilDiv ss (k * (k - 1)))) 10)

/-- An epoch used by a survey: `w` is its length in 50 ms. -/
def Survey.use (v : Survey) (w : Nat) (p : Int × Int × Int) (nsat : Nat) : Survey :=
  let v := { v with used := v.used + w, n := v.n + 1, sum := addPos v.sum p, bUsed := v.bUsed + w, bN := v.bN + 1,
                    bSum := addPos v.bSum p, nsat }
  if 6000 ≤ v.bUsed then { v with means := v.means ++ [meanPos v.bSum v.bN], bUsed := 0, bN := 0, bSum := (0, 0, 0) } else v

/-- One epoch of a survey, and its end (R92). -/
def Dev.surveyEpoch (s : Dev) (t : NT) (w : Nat) (f : SkyFacts) : Dev :=
  match s.gns.survey with
  | none => s
  | some v =>
    let v := match f.live with
      | some p => if s.station = 0 then v.use w p f.liveN else v
      | none => v
    let std := v.std
    let s := { s with gns := { s.gns with survey := some v, std := std.getD 0xFFFFFFFF } }
    match std with
    | some d =>
      if 20 * v.minS ≤ v.used && d ≤ v.acc then
        let s := { s with gns := { s.gns with survey := none } }
        s.adoptBase t { handle := some v.handle, kind := 2, pos := meanPos v.sum v.n }
      else s
    | none => s

/-! ### Integrity (R113-R122) -/

/-- One step of the machine of R121 on the verdict of an epoch: 0 PASS or NONE, 1 WARN, 2 FAIL. -/
def Integ.step (x : Integ) (t : NT) (v suspN denyN clear denyClear : Nat) (force wasForced : Bool) : Integ :=
  let x := { x with hist := (decide (1 ≤ v) :: x.hist).take 10, badAt := if 1 ≤ v then t else x.badAt,
                    failAt := if v = 2 then t else x.failAt }
  let later (a b : NT) : NT := if ntAfter b a then b else a
  if force then (if x.st = 2 then x else { x with st := 2, since := t, fails := 0 })
  else match x.st with
    | 0 => if v = 2 || decide (suspN ≤ (x.hist.filter id).length) then { x with st := 1, since := t, fails := 0 } else x
    | 1 =>
      let fails := if v = 2 then x.fails + 1 else 0
      if denyN ≤ fails then { x with st := 2, since := t, fails := 0 }
      else if v = 0 && decide (clear * tickHz ≤ ntSince t (later x.since x.badAt)) then { x with st := 0, since := t, fails := 0 }
      else { x with fails }
    | _ =>
      if wasForced || (v != 2 && decide (denyClear * tickHz ≤ ntSince t (later x.since x.failAt))) then
        { x with st := 1, since := t, fails := 0 }
      else x

/-- Step a machine with the configured counts and times. -/
def Dev.stepInteg (s : Dev) (t : NT) (x : Integ) (v : Nat) : Integ :=
  x.step t v (s.fld (0x5168, 0, 8)) (s.fld (0x5168, 8, 8)) (s.fld (0x5168, 16, 8)) (s.fld (0x5168, 24, 8))
    (s.flag (0x514C, 0, 1)) s.gns.forced

/-- C/N0 check of a signal (R115), C/N0 in 0.01 dB-Hz. -/
def Dev.chkCn0 (s : Dev) (svs : List SkySv) (obs : List Obs) (n : Nat) : Nat :=
  let l := (obs.filter fun (o : Obs) => o.c.ant = s.gns.refAnt && o.c.sig = n &&
    svs.any fun (v : SkySv) => v.sys = o.c.sys && v.svid = o.c.svid && decide (20000 ≤ v.elev)).map (·.m.cn0)
  let k := l.length
  if k < s.fld (0x5150, 16, 8) then 0
  else
    let sum := l.foldl (· + ·) 0
    let sq := l.foldl (fun a x => a + x * x) 0
    let lim := 10 * s.fld (0x5150, 0, 8)
    b2n (decide (k * sq < sum * sum + lim * lim * k * k)) + b2n (l.any fun x => decide (100 * s.fld (0x5150, 8, 8) < x))

/-- Port check (R116). -/
def Dev.chkPort (s : Dev) (p : Nat) : Nat :=
  let x := s.port p
  if !(s.portRuns p && x.coherent && !x.stuck) then 0
  else
    let known := x.learned.isSome
    if known && decide (100 * (s.fld (0x5154, 8, 8) : Int) ≤ x.rise) then 2
    else if (known && decide (100 * (s.fld (0x5154, 0, 8) : Int) ≤ x.rise)) || x.occ < s.fld (0x5158, 0, 16) ||
        s.fld (0x5158, 16, 16) < x.occ then 1
    else 0

/-- Is the two-antenna check available (R117, R142)? -/
def Dev.twoAnt (s : Dev) : Bool := s.antB && s.gns.baseline == 2

/-- A phase in 2^-24 cycle wrapped to ±0.5 cycle. -/
def wrapCycle (v : Int) : Int := signed 24 (unsigned 24 v)

/-- Circular mean of the fractional parts of some phases, 2^-24 cycle (R117). -/
def circMean (l : List Int) : Int :=
  let v := l.foldl (fun (a : Int × Int) x => let d := cosSin (256 * unsigned 24 x); (a.1 + d.1, a.2 + d.2)) (0, 0)
  atan2 v.1 v.2

/-- Is the RMS of some residuals, once their common line bias is taken off, at most `lim` hundredths of a cycle (R117)? -/
def rmsWithin (lim : Nat) (l : List Int) : Bool :=
  let m := circMean l
  let sq := l.foldl (fun a x => let r := (wrapCycle (x - m)).natAbs; a + r * r) 0
  decide (10000 * sq ≤ l.length * (lim * 16777216) * (lim * 16777216))

/-- The A-B single differences of a signal's satellites whose signal is valid on both antennas without slip (R117), each with the
phase the geometric model gives it: the baseline projected on the line of sight, divided by the wavelength. 2^-24 cycle. -/
def Dev.singleDiffs (s : Dev) (svs : List SkySv) (obs : List Obs) (n : Nat) : List (Int × Int) :=
  let good (ant : Nat) : List Obs := obs.filter fun (o : Obs) => o.c.ant = ant && o.c.sig = n && o.cpOk && !o.slip
  let b := good 1
  (good 0).filterMap fun (o : Obs) =>
    (b.find? fun (q : Obs) => q.c.sys = o.c.sys && q.c.svid = o.c.svid).bind fun q =>
    (svs.find? fun (v : SkySv) => v.sys = o.c.sys && v.svid = o.c.svid).map fun v =>
      (s.cpOf o - s.cpOf q, nearest (dot3 s.gns.bl (sightEnu v.elev v.az) * (sigKHz n : Int) * 16777216) (299792458 * one40))

/-- Two-antenna check of a signal (R117). The common line bias is the circular mean of what each model leaves (DEDUCED, log entry
102). -/
def Dev.chkTa (s : Dev) (svs : List SkySv) (obs : List Obs) (n : Nat) : Nat :=
  let l := s.singleDiffs svs obs n
  if !s.twoAnt || l.length < s.fld (0x515C, 16, 8) then 0
  else if rmsWithin (s.fld (0x515C, 0, 8)) (l.map fun x => x.1 - x.2) then 0
  else if rmsWithin (s.fld (0x515C, 8, 8)) (l.map (·.1)) then 2 else 1

/-- Clock check (R118), in ps: the prediction is the previous epoch's while NT follows GNSS, else 0 with a wider limit. The
drift is predicted by the previous drift in both (DEDUCED, log entry 22). -/
def Dev.chkClk (s : Dev) (hz : Nat) (bias drift : Int) : Nat :=
  if !s.tim.ntValid then 0
  else
    let follows := s.fld fSrc = 0 && (s.tim.st = .locked || s.tim.st = .acquiring)
    let lim : Int := 1000 * (s.fld (0x5160, 0, 16) : Int)
    let dLim : Int := 100 * (s.fld (0x5160, 16, 16) : Int)
    let biasBad := if follows then
        match s.gns.clk with
        | some (b, d) => decide (lim < ((1000 * bias - (1000 * b + d / (hz : Int))).natAbs : Int))
        | none => false
      else decide (lim + 1000 * (s.tim.estErr : Int) < ((1000 * bias).natAbs : Int))
    let driftBad := match s.gns.clk with
      | some (_, d) => decide (dLim < ((drift - d).natAbs : Int))
      | none => false
    if biasBad then 2 else b2n driftBad

/-! The cross-constellation check (R119). -/

/-- The reference system: GPS, or otherwise the first in code order with at least 4 satellites. -/
def xcRef (l : List ClockTerm) : Option ClockTerm :=
  let solved (y : Nat) : Option ClockTerm := l.find? fun (x : ClockTerm) => x.sys == y && decide (4 ≤ x.nsat)
  (solved 0).or ((solved 1).or ((solved 2).or (solved 3)))

/-- `XC_LEARN` in units of 50 ms. -/
def Dev.xcLearn (s : Dev) : Nat := 1200 * s.fld (0x5164, 16, 8)

/-- The expected offset of a system to the reference system, as a sum and its weight: the offset broadcast in navigation data, which
is to GPS, or the mean over the last `XC_LEARN` minutes; `none` while these are still running. -/
def Dev.xcExpected (s : Dev) (ref x : ClockTerm) : Option (Int × Nat) :=
  match (if ref.sys = 0 then x.cast else none) with
  | some c => some (c, 1)
  | none =>
    let l := s.gns.xc.filter fun e => e.1 == x.sys && e.2.1 == ref.sys
    let w := l.foldl (fun a e => a + e.2.2.1) 0
    if w < s.xcLearn then none else some (l.foldl (fun a e => a + (e.2.2.1 : Int) * e.2.2.2) 0, w)

/-- Each system judged with its deviation from the expected offset, as a fraction; the reference system deviates by 0. Systems with
fewer than 4 satellites, and those with nothing to expect yet, are left out. -/
def Dev.xcDevs (s : Dev) (l : List ClockTerm) : List (Nat × Int × Nat) :=
  match xcRef l with
  | none => []
  | some r => (r.sys, 0, 1) :: (l.filter fun (x : ClockTerm) => x.sys != r.sys && decide (4 ≤ x.nsat)).filterMap fun x =>
      (s.xcExpected r x).map fun m => (x.sys, (x.ns - r.ns) * (m.2 : Int) - m.1, m.2)

/-- Verdicts of R119: that of a system, and of the station. -/
def Dev.chkXc (s : Dev) (devs : List (Nat × Int × Nat)) (sys : Nat) : Nat :=
  let lim : Int := s.fld (0x5164, 0, 16)
  let others := (devs.filter fun x => x.1 != sys).map (·.2)
  let agree := others.all fun a => others.all fun b =>
    decide (((a.1 * (b.2 : Int) - b.1 * (a.2 : Int)).natAbs : Int) ≤ lim * (a.2 : Int) * (b.2 : Int))
  match devs.find? fun x => x.1 == sys with
  | some (_, d) => b2n (decide (lim * (d.2 : Int) < (d.1.natAbs : Int)) && decide (3 ≤ devs.length) && agree)
  | none => 0
def Dev.chkXcSta (s : Dev) (devs : List (Nat × Int × Nat)) : Nat :=
  let lim : Int := s.fld (0x5164, 0, 16)
  b2n (devs.any fun x => decide (lim * (x.2.2 : Int) < (x.2.1.natAbs : Int)) && s.chkXc devs x.1 == 0)

/-- Drop from a log the epochs older than `n` units of 50 ms of the same pair of systems. -/
def xcTrim (n y r : Nat) : XcLog → Nat → XcLog
  | [], _ => []
  | e :: t, used =>
    if e.1 == y && e.2.1 == r then (if n ≤ used then xcTrim n y r t used else e :: xcTrim n y r t (used + e.2.2.1))
    else e :: xcTrim n y r t used

/-- A NOMINAL station epoch adds its offsets (R119); `w` is its length in 50 ms. -/
def Dev.learnXc (s : Dev) (w : Nat) (l : List ClockTerm) : Dev :=
  match xcRef l with
  | none => s
  | some r =>
    let add := (l.filter fun (x : ClockTerm) => x.sys != r.sys && decide (4 ≤ x.nsat)).foldl (fun (g : XcLog) x =>
      xcTrim s.xcLearn x.sys r.sys ((x.sys, r.sys, w, x.ns - r.ns) :: g) 0) s.gns.xc
    if s.station = 0 then { s with gns := { s.gns with xc := add } } else s

/-- Local snapshot check (R120): the verdict of the latest one, while the station is SUSPECT and none waits. -/
def Dev.chkLocal (s : Dev) : Nat := if s.station = 1 && !s.snp.localPend then s.snp.localVerdict else 0

/-- The noise floor of a port at an epoch (R116), 0.01 dB: the baseline is learned over 600 s in units of 50 ms. -/
def Dev.measurePort (s : Dev) (w p : Nat) (m : Int) : Dev :=
  let x := s.port p
  let good := s.portRuns p && x.coherent && s.station == 0
  let x := if x.learned.isNone && good then
      let x := { x with sum := x.sum + m * (w : Int), num := x.num + w }
      if 12000 ≤ x.num then { x with learned := some (x.sum / (x.num : Int)) } else x
    else x
  s.setPort p { x with rise := match x.learned with | some l => m - l | none => 0 }

/-- The floor of R122. -/
def Dev.judgeFloor (s : Dev) (svs : List SkySv) (obs : List Obs) : Nat :=
  let bad := (List.range 16).filter fun n => (s.sig n).st != 0
  let systems := (List.range 4).filter fun y => bad.any fun n => sigSys n == y
  let sats := ((obs.filter fun (o : Obs) => s.passes svs o && (s.sig o.c.sig).st == 0).map fun (o : Obs) => (o.c.sys, o.c.svid)).eraseDups
  if sats.length < 5 then 2 else if 2 ≤ systems.length then 1 else 0

/-! ### Corrections on air (R101-R103) -/

/-- Whole cycles that align a phase-range to the pseudorange (R98, R102). -/
def Dev.alignOf (s : Dev) (o : Obs) : Int :=
  nearest ((s.prOf o : Int) * (sigKHz o.c.sig : Int)) 2997924580 - nearest (s.cpOf o) 16777216

/-- Fine pseudorange and fine phase-range of an observation against a rough range in 2^-10 ms, in units of 2^-`e` ms (R98, R102). -/
def Dev.finePr (s : Dev) (rough : Int) (o : Obs) (e : Nat) : Int :=
  nearest ((s.prOf o : Int) * 2 ^ e) 2997924580 - rough * 2 ^ (e - 10)
def Dev.fineCp (s : Dev) (rough al : Int) (o : Obs) (e : Nat) : Int :=
  nearest ((s.cpOf o + al * 16777216) * 2 ^ e) (16777216 * (sigKHz o.c.sig : Int)) - rough * 2 ^ (e - 10)

/-- Half-cycle ambiguity unresolved. -/
def Obs.halfOpen (o : Obs) : Bool := !(o.m.half || sigPilot o.c.sig)

/-- The rough range of a satellite's observations (R102): the smallest pseudorange, to the nearest 2^-10 ms. -/
def Dev.roughOf (s : Dev) (obs : List Obs) : Int :=
  let prs := obs.map s.prOf
  nearest ((prs.foldl min (prs.headD 0) : Nat) * 1024) 2997924580

/-- A signal cell (R102) with the channel's alignment. Without one it is aligned to the pseudorange and its `LOCK` is 0. -/
def Dev.airCell (s : Dev) (t : NT) (rough : Int) (o : Obs) : Chan × Nat :=
  let al := o.c.align.getD (s.alignOf o)
  let lock := if o.c.align.isNone then 0 else lockInd (o.lockMs t)
  let cp := fits 24 (s.fineCp rough al o 31)
  let pr := fits 20 (s.finePr rough o 29)
  let enc (w : Nat) (v : Option Int) : Nat := match v with | some x => unsigned w x | none => 2 ^ (w - 1)
  ({ o.c with align := cp.map fun _ => al },
   o.c.sig + lock * 2 ^ 5 + b2n o.halfOpen * 2 ^ 9 + min 63 (o.m.cn0 / 100) * 2 ^ 10 + enc 20 pr * 2 ^ 16 + enc 24 cp * 2 ^ 36)

/-- A cell of an MSM4 or MSM7 (R98) with the channel's alignment; none for a signal without MSM signal ID. -/
def Dev.msmCell (s : Dev) (t : NT) (seven : Bool) (rough : Int) (o : Obs) : Option (Chan × MsmCell) :=
  (msmId o.c.sig).map fun id =>
    let al := o.c.ralign.getD (s.alignOf o)
    let cp := fits (if seven then 24 else 22) (s.fineCp rough al o (if seven then 31 else 29))
    let pr := fits (if seven then 20 else 15) (s.finePr rough o (if seven then 29 else 24))
    ({ o.c with ralign := cp.map fun _ => al },
     { svid := o.c.svid, id, pr, cp, lock := if o.c.ralign.isNone then 0 else o.lockMs t, half := o.halfOpen, cn0 := o.m.cn0,
       rate := nearest (-(o.m.dop * 299792458)) ((sigKHz o.c.sig : Int) * 100) })

/-- Insert a cell by its signal ID. -/
def insertCell (c : MsmCell) : List MsmCell → List MsmCell
  | [] => [c]
  | x :: t => if c.id < x.id then c :: x :: t else x :: insertCell c t

/-- A satellite of an MSM, with the channels it aligned; none where no signal of it has an MSM signal ID. -/
def Dev.msmSat (s : Dev) (t : NT) (seven : Bool) (obs : List Obs) : Option (MsmSat × List Chan) :=
  let rough := s.roughOf (obs.filter fun (o : Obs) => (msmId o.c.sig).isSome)
  match obs.filterMap (s.msmCell t seven rough) with
  | [] => none
  | (c, x) :: rest => some ({ svid := x.svid, rough, cells := ((c, x) :: rest).foldl (fun l y => insertCell y.2 l) [] }, ((c, x) :: rest).map (·.1))

/-- A satellite block (R102) and the channels it aligned. -/
def Dev.airSat (s : Dev) (t : NT) (obs : List Obs) : List Byte × Nat × List Chan :=
  let rough := s.roughOf obs
  let cells := (obs.take 15).map (s.airCell t rough)
  let o := obs.head?
  let sys := match o with | some o => o.c.sys | none => 0
  let svid := match o with | some o => o.c.svid | none => 0
  (leBytes (sys + 4 * svid + (unsigned 18 rough) * 256 + cells.length * 2 ^ 26) 4 ++ cells.flatMap fun c => leBytes c.2 8,
   cells.length, cells.map (·.1))

/-- Blocks packed into pieces of at most 352 octets (R103): `room` is what is left in the piece being filled. -/
def packPieces : List (List Byte × Nat) → Nat → List (List Byte × Nat) → List (List (List Byte × Nat))
  | [], _, cur => [cur.reverse]
  | b :: t, room, cur =>
    if b.1.length ≤ room then packPieces t (room - b.1.length) (b :: cur)
    else cur.reverse :: packPieces t (336 - b.1.length) [b]

/-- Insert an observation in the order of system, satellite, signal. -/
def insertObs (o : Obs) : List Obs → List Obs
  | [] => [o]
  | x :: t =>
    let key (o : Obs) : Nat := o.c.sys * 4096 + o.c.svid * 64 + o.c.sig
    if key o < key x then o :: x :: t else x :: insertObs o t

/-- Observations grouped by satellite; the list is in order. -/
def bySat : List Obs → List (List Obs)
  | [] => []
  | o :: t =>
    match bySat t with
    | (x :: g) :: r => if x.c.sys = o.c.sys && x.c.svid = o.c.svid then (o :: x :: g) :: r else [o] :: (x :: g) :: r
    | r => [o] :: r

end Sys2Proof.Machine
end

