-- ==== Sys2Proof/Machine/Lambda.lean ====
section
/-! DEFINITION. Integer ambiguity resolution by the LAMBDA method (R154-R156) over exact fractions: conditional variances, decorrelation,
the search for the two best integer vectors, and the bootstrapped success rate. What the rules leave to the method is log entry 110. -/
namespace Sys2Proof.Machine

/-- A mean with its covariance. -/
structure Gauss where
  x : List Rat
  p : List (List Rat)
deriving DecidableEq, Repr

def dotR (a b : List Rat) : Rat := (List.zipWith (· * ·) a b).foldl (· + ·) 0

/-- The `i`-th unit vector of `n` components. -/
def unitR (n i : Nat) : List Rat := (List.range n).map fun k => if k = i then 1 else 0

def Gauss.at_ (g : Gauss) (i : Nat) : Rat := g.x.getD i 0
def Gauss.cov (g : Gauss) (i j : Nat) : Rat := (g.p.getD i []).getD j 0

/-- The mean and covariance given that the combination `h` has the value `v`; a combination of no variance gives nothing new. -/
def Gauss.given (g : Gauss) (h : List Rat) (v : Rat) : Gauss :=
  let k := g.p.map (dotR h)
  let d := dotR h k
  if d ≤ 0 then g
  else
    { x := List.zipWith (fun a b => a - b * (dotR h g.x - v) / d) g.x k
      p := List.zipWith (fun row a => List.zipWith (fun q b => q - a * b / d) row k) g.p k }

/-- The mean and covariance of combinations. -/
def Gauss.combine (g : Gauss) (hs : List (List Rat)) : Gauss :=
  { x := hs.map fun h => dotR h g.x
    p := hs.map fun a => let k := g.p.map (dotR a); hs.map fun b => dotR b k }

/-- A level of a search: its variable, the conditional variance, and how every variable follows it. -/
structure Level where
  i : Nat
  d : Rat
  l : List Rat
deriving DecidableEq, Repr

/-- The variable of least variance among some. -/
def Gauss.least (g : Gauss) : List Nat → Option Nat
  | [] => none
  | i :: t => match g.least t with
    | some j => if g.cov j j < g.cov i i then some j else some i
    | none => some i

/-- The variables by conditional variance, the smallest first. -/
def Gauss.levels : Nat → Gauss → List Nat → List Level
  | 0, _, _ => []
  | n + 1, g, rem =>
    match g.least rem with
    | none => []
    | some i =>
      let d := g.cov i i
      let l := (List.range g.x.length).map fun j => if d ≤ 0 then 0 else g.cov j i / d
      { i, d, l } :: Gauss.levels n (g.given (unitR g.x.length i) (g.at_ i)) (rem.filter (· != i))

def Gauss.allLevels (g : Gauss) : List Level := g.levels g.x.length (List.range g.x.length)

/-- The integer nearest to a fraction, halves up. -/
def roundR (a : Rat) : Int := (a + 1 / 2).floor

/-! ### Decorrelation -/

/-- A decorrelated set: the transformed variables, and for each the column by which it enters the original ones. -/
structure Decor where
  g : Gauss
  cols : List (List Int)
deriving DecidableEq, Repr

/-- Take `m` times variable `i` off variable `j`. -/
def Decor.reduce (z : Decor) (i j : Nat) (m : Int) : Decor :=
  let n := z.g.x.length
  let h (k : Nat) : List Rat := if k = j then List.zipWith (fun a b => a - (m : Rat) * b) (unitR n j) (unitR n i) else unitR n k
  { g := z.g.combine ((List.range n).map h)
    cols := z.cols.set i (List.zipWith (fun a b => a + m * b) (z.cols.getD i []) (z.cols.getD j [])) }

/-- A pair whose covariance exceeds half the smaller variance, and the whole multiple that reduces it. -/
def Decor.next (z : Decor) : Option (Nat × Nat × Int) :=
  let n := z.g.x.length
  (List.range n).findSome? fun i => (List.range n).findSome? fun j =>
    let v := z.g.cov i i
    if i = j || v ≤ 0 then none
    else
      let m := roundR (z.g.cov i j / v)
      if m ≠ 0 && v < 2 * (if z.g.cov i j < 0 then -z.g.cov i j else z.g.cov i j) then some (i, j, m) else none

def Decor.run : Nat → Decor → Decor
  | 0, z => z
  | k + 1, z => match z.next with
    | some (i, j, m) => Decor.run k (z.reduce i j m)
    | none => z

/-- Integer transformations that decorrelate: pairs are reduced until none is left, or the bound on their number is reached. -/
def Gauss.decorrelate (g : Gauss) : Decor :=
  let n := g.x.length
  Decor.run (16 * n * n) { g, cols := (List.range n).map fun i => (List.range n).map fun k => if k = i then 1 else 0 }

/-! ### Search -/

/-- A point of the search tree: how many integers have been tried here, the conditional means, the residual so far, the integers
chosen, and the levels still to go. -/
structure SearchNode where
  k : Nat
  x : List Rat
  cost : Rat
  done : List (Nat × Int)
  rest : List Level
deriving DecidableEq, Repr

/-- The `k`-th nearest integer to `m`, the nearest being number 0. -/
def nthInt (m : Rat) (k : Nat) : Int :=
  let n := roundR m
  let up : Int := if (n : Rat) ≤ m then 1 else -1
  if k % 2 = 1 then n + up * ((k + 1) / 2 : Nat) else n - up * (k / 2 : Nat)

/-- Keep the two best of some candidates, best first. -/
def keepTwo (l : List (Rat × List (Nat × Int))) (c : Rat × List (Nat × Int)) : List (Rat × List (Nat × Int)) :=
  ((l.filter fun x => x.1 ≤ c.1) ++ c :: l.filter fun x => c.1 < x.1).take 2

/-- Depth first, each level from its nearest integer outward; a branch ends where it can better neither of the two best. The first
argument bounds the candidates visited. -/
def searchGo : Nat → List SearchNode → List (Rat × List (Nat × Int)) → List (Rat × List (Nat × Int))
  | 0, _, best => best
  | _ + 1, [], best => best
  | n + 1, f :: fs, best =>
    match f.rest with
    | [] => searchGo n fs best
    | lv :: rest =>
      let m := f.x.getD lv.i 0
      let z := nthInt m f.k
      let c := if lv.d ≤ 0 then f.cost else f.cost + (m - z) * (m - z) / lv.d
      let shut := (lv.d ≤ 0 && f.k != 0) || (match best with | [_, b] => b.1 ≤ c | _ => false)
      if shut then searchGo n fs best
      else
        let done := (lv.i, z) :: f.done
        let up := { f with k := f.k + 1 } :: fs
        if rest.isEmpty then searchGo n up (keepTwo best (c, done))
        else searchGo n ({ k := 0, x := List.zipWith (fun a l => a - l * (m - z)) f.x lv.l, cost := c, done, rest } :: up) best

/-- The two best integer vectors with their residuals, best first, within a number of candidate visits. -/
def Gauss.search (g : Gauss) (visits : Nat) : List (Rat × List Int) :=
  let z := g.decorrelate
  let n := g.x.length
  (searchGo visits [{ k := 0, x := z.g.x, cost := 0, done := [], rest := z.g.allLevels }] []).map fun b =>
    (b.1, (List.range n).map fun a => b.2.foldl (fun v e => v + e.2 * (z.cols.getD e.1 []).getD a 0) 0)

/-- The residual of an integer vector: its distance from the mean in the metric of the covariance, by conditional variances. -/
def Gauss.residual (g : Gauss) (v : List Int) : Rat :=
  (g.allLevels.foldl (fun (acc : List Rat × Rat) lv =>
    let m := acc.1.getD lv.i 0
    let e := m - (v.getD lv.i 0 : Int)
    (List.zipWith (fun a l => a - l * e) acc.1 lv.l, if lv.d ≤ 0 then acc.2 else acc.2 + e * e / lv.d)) (g.x, 0)).2

/-! ### Success rate (R156) -/

/-- The number of places kept of a probability: 2^-120. -/
def one120 : Int := 2 ^ 120

/-- The series of the error function for a square `q` in 2^-120, divided by its argument: `n` terms. -/
def erfSeries (q : Int) : Nat → Nat → Int → Int → Int
  | 0, _, _, acc => acc
  | n + 1, k, t, acc => erfSeries q n (k + 1) (-(t * q) / (one120 * ((k + 1 : Nat) : Int))) (acc + t / ((2 * k + 1 : Nat) : Int))

/-- The probability that a value of variance `d` rounds to its mean, in 2^-120. -/
def roundRate (d : Rat) : Int :=
  if d ≤ 0 then one120
  else
    let q := (one120 : Rat) / (8 * d)
    if (28 * one120 : Int) ≤ q.floor then one120
    else
      let z : Int := isqrtGo (q.floor * one120).toNat 130 0
      let e := erfSeries q.floor 160 0 one120 0 * z / one120
      min one120 (e * 11283791670955125738961589031 / 10000000000000000000000000000)

/-- The bootstrapped success rate, in 2^-120: the product over the decorrelated conditional variances. -/
def Gauss.success (g : Gauss) : Int :=
  (g.decorrelate.g.allLevels).foldl (fun a lv => a * roundRate lv.d / one120) one120

end Sys2Proof.Machine
end

