-- ==== Sys2Proof/Machine/RtkMath.lean ====
section
/-! DEFINITION. One rover epoch solved (R147, R152-R157): double differences, continuity, the float update, the ambiguities fixed and the
fixes tested, and the protection level. Ranges in um. Roundings and readings: log entries 109 and 110. -/
namespace Sys2Proof.Machine

/-! ### Ranges (R147, R152) -/

/-- Wavelength of a signal in um. -/
def waveUm (sig : Nat) : Rat := 299792458000 / ((sigKHz sig : Nat) : Rat)

/-- A rover range of 2^-27 ms (R147), a base carrier phase of 2^-24 cycle, and the range rate of a satellite in um/s from its Doppler
in mHz (R86). -/
def roverUm (v : Int) : Int := nearest (v * 299792458000) 134217728
def baseCpUm (sig : Nat) (cp : Int) : Int := nearest (cp * 299792458000) ((sigKHz sig : Nat) * 16777216)
def rateUm (sig : Nat) (dop : Int) : Int := -nearest (dop * 299792458) (sigKHz sig : Nat)

/-- What every difference of an epoch is corrected with (R152): antenna height in mm, `T_OBS` less its grid instant in ticks, the height
difference in mm, the base position, and the sigmas in um. -/
structure DdIn where
  antH : Nat
  off : Int
  dh : Int
  basePos : Vec3
  cpSig : Nat
  prSig : Nat
deriving DecidableEq, Repr

/-- A difference of rover and base on one signal. -/
structure SDiff where
  key : SigKey
  code : Option Int
  car : Option Int
  elev : Int
  dir : Vec3
  sdCode : Nat
  sdCar : Nat
deriving DecidableEq, Repr

/-- One such difference, corrected for the rover clock's offset by the satellite's range rate, for troposphere and for `ANT_H`; its
sigmas scaled by 1/sin(elevation). The rover's carrier counts while `HALF` is 0 (R153). -/
def sdiff (a : DdIn) (c : RawCell) (b : BaseCell) : SDiff :=
  let sig := c.key.2.2
  let sight := sightEnu b.elev b.az
  let up := sight.2.2
  let fix : Int := nearest (1000 * (a.antH : Int) * up) one40 - nearest (rateUm sig b.dop * a.off) tickHz - Config.troposphere a.dh b.elev
  let sd (n : Nat) : Nat := if up ≤ 0 then n else (nearest ((n : Int) * one40) up).toNat
  { key := c.key, elev := b.elev, dir := enuToEcef a.basePos sight
    code := c.pr.map fun v => roverUm v - 100 * (b.pr : Int) + fix
    car := if c.half then none else c.cp.map fun v => roverUm v - baseCpUm sig b.cp + fix
    sdCode := sd a.prSig, sdCar := sd a.cpSig }

/-- The reference satellite: the highest one with carrier on both sides. -/
def refOf (l : List SDiff) : Option SDiff :=
  (l.filter fun x => x.car.isSome).foldl (fun (m : Option SDiff) x => match m with
    | some r => if r.elev < x.elev then some x else m
    | none => some x) none

/-- The difference of two optional values. -/
def optSub (a b : Option Int) : Option Int := match a, b with | some x, some y => some (x - y) | _, _ => none

/-- The double differences of one signal ID (R152); without a reference satellite there is none. -/
def ddsOf (l : List SDiff) : List DDiff :=
  match refOf l with
  | none => []
  | some r => (l.filter fun x => x.key != r.key).filterMap fun x =>
    let code := optSub x.code r.code
    let car := optSub x.car r.car
    if code.isNone && car.isNone then none
    else some { id := { sig := x.key.2.2, sat := (x.key.1, x.key.2.1), ref := (r.key.1, r.key.2.1) }, code, car
                dir := subPos x.dir r.dir, sdCode := (x.sdCode, r.sdCode), sdCar := (x.sdCar, r.sdCar) }

/-- All double differences of a frame's cells against the base records, by ascending signal ID. -/
def allDds (a : DdIn) (cells : List RawCell) (base : List BaseCell) : List DDiff :=
  let sds := cells.filterMap fun c => (base.find? fun b => b.key == c.key).map (sdiff a c)
  (List.range 16).flatMap fun k => ddsOf (sds.filter fun x => x.key.2.2 == k)

/-- Satellites that take part in double differences, references included. -/
def ddSats (l : List DDiff) : Nat := ((l.flatMap fun d => [d.id.sat, d.id.ref]).eraseDups).length

/-- The two signals of an ambiguity. -/
def AmbId.key (a : AmbId) : SigKey := (a.sat.1, a.sat.2, a.sig)
def AmbId.refKey (a : AmbId) : SigKey := (a.ref.1, a.ref.2, a.sig)

/-! ### The float state -/

/-- A float state as a mean and covariance; ambiguities beyond those it names are 0. -/
def FltState.gauss (f : FltState) : Gauss :=
  let n := 6 + f.ambs.length
  let v : List Int := [f.pos.1, f.pos.2.1, f.pos.2.2, f.vel.1, f.vel.2.1, f.vel.2.2] ++ f.ambs.map (·.2)
  { x := v.map fun (a : Int) => (a : Rat)
    p := (List.range n).map fun i => (List.range n).map fun j => (((f.cov.getD i []).getD j 0 : Int) : Rat) }

/-- The components of a signal among the ambiguities of a state of `n` variables, relative to its reference satellite. -/
def keyRow (n : Nat) (ids : List AmbId) (k : SigKey) : Option (List Rat) :=
  if ids.any fun a => a.refKey == k then some (List.replicate n 0)
  else (ids.findIdx? fun a => a.key == k).map fun j => unitR n (6 + j)

/-- The row of an ambiguity between any two satellites of a state. -/
def ambRow (n : Nat) (ids : List AmbId) (a b : SigKey) : Option (List Rat) :=
  match keyRow n ids a, keyRow n ids b with
  | some x, some y => some (List.zipWith (· - ·) x y)
  | _, _ => none

/-- A state carried over to new ambiguities (R152, R153): a change of reference satellite transforms those whose signals have kept
continuity; the others are not carried. -/
def FltState.carry (f : FltState) (ids : List AmbId) (ok : SigKey → Bool) : FltState :=
  let g := f.gauss
  let n := g.x.length
  let old := f.ambs.map (·.1)
  let rows := ids.filterMap fun a => if ok a.key && ok a.refKey then (ambRow n old a.key a.refKey).map fun r => (a, r) else none
  let h := g.combine ((List.range 6).map (unitR n) ++ rows.map (·.2))
  let x (k : Nat) : Int := (h.at_ k).floor
  { pos := (x 0, x 1, x 2), vel := (x 3, x 4, x 5), ambs := rows.zipIdx.map fun r => (r.1.1, x (6 + r.2))
    cov := h.p.map fun r => r.map Rat.floor }

/-- The float update of an epoch, with the ambiguities it carries named in their order. -/
def floatStep (i : FltIn) : FltState :=
  let f := Config.floatUpdate i
  let ids := (i.dds.filter fun d => d.car.isSome).map (·.id)
  { f with ambs := ids.zipIdx.map fun a => (a.1, match f.ambs[a.2]? with | some v => v.2 | none => 0) }

/-! ### Fixes (R154, R155) -/

/-- Ambiguities fixed. -/
def fixCount (l : List FixSet) : Nat := l.foldl (fun n c => n + (c.length - 1)) 0

/-- The fixes whose signals have kept continuity. -/
def keepFixes (l : List FixSet) (ok : SigKey → Bool) : List FixSet :=
  (l.map fun c => c.filter fun e => ok e.1).filter fun c => 2 ≤ c.length

/-- Take in one ambiguity fixed at `v`. -/
def addFix (l : List FixSet) (a b : SigKey) (v : Int) : List FixSet :=
  let of_ (k : SigKey) : FixSet := (l.find? fun c => c.any fun e => e.1 == k).getD [(k, 0)]
  let at_ (c : FixSet) (k : SigKey) : Int := ((c.find? fun e => e.1 == k).map (·.2)).getD 0
  let ca := of_ a
  let cb := of_ b
  let d := v - at_ ca a + at_ cb b
  let rest := l.filter fun c => !(c.any fun e => e.1 == a || e.1 == b)
  if ca == cb then l else (cb ++ ca.map fun e => (e.1, e.2 + d)) :: rest

/-- The value a fix gives an ambiguity. -/
def fixedAt (l : List FixSet) (a b : SigKey) : Option Int :=
  (l.find? fun c => (c.any fun e => e.1 == a) && c.any fun e => e.1 == b).bind fun c =>
    match c.find? fun e => e.1 == a, c.find? fun e => e.1 == b with
    | some x, some y => some (x.2 - y.2)
    | _, _ => none

/-- The state given its fixes: each is a constraint on two of its signals. -/
def fixedGauss (g : Gauss) (ids : List AmbId) (l : List FixSet) : Gauss :=
  l.foldl (fun g c => match c with
    | [] => g
    | e :: t => t.foldl (fun g x => match ambRow g.x.length ids x.1 e.1 with
      | some h => g.given h (1048576 * (x.2 - e.2 : Int))
      | none => g) g) g

/-- Ambiguities not fixed: of those that fixes tie together, one stands for all. -/
def unfixed (ids : List AmbId) (l : List FixSet) : List AmbId :=
  ids.filter fun a => (fixedAt l a.key a.refKey).isNone &&
    match l.find? fun c => c.any fun e => e.1 == a.key with
    | some c => ((ids.map AmbId.key).find? fun k => c.any fun e => e.1 == k) == some a.key
    | none => true

/-- Ambiguities of a state in cycles, in the order asked for. -/
def ambGauss (g : Gauss) (ids want : List AmbId) : Gauss :=
  let h := g.combine (want.map fun a => (ambRow g.x.length ids a.key a.refKey).getD [])
  { x := h.x.map fun v => v / 1048576, p := h.p.map fun r => r.map fun v => v / (1048576 * 1048576) }

/-- The ratio of two residuals in tenths, saturating. -/
def ratio10 (best second : Rat) : Nat := if best ≤ 0 then 255 else min 255 (10 * second / best).floor.toNat

/-- Does a pair of residuals pass the ratio test (R154)? -/
def ratioOk (ratioMin : Nat) (best second : Rat) : Bool := decide ((ratioMin : Rat) * best ≤ 10 * second)

/-- The bounded search (R154) over a subset, the best-determined first: while a subset fails, the ambiguity of largest conditional
variance is dropped, down to `MIN_FIX` counted with those already fixed. -/
def resolve (g : Gauss) (ratioMin minFix have_ : Nat) : Nat → List Nat → Option (List (Nat × Int) × Nat)
  | 0, _ => none
  | n + 1, sub =>
    if sub.isEmpty || sub.length + have_ < minFix then none
    else
      match (g.combine (sub.map (unitR g.x.length))).search 4096 with
      | [a, b] => if ratioOk ratioMin a.1 b.1 then some (sub.zip a.2, ratio10 a.1 b.1)
                  else resolve g ratioMin minFix have_ n sub.dropLast
      | _ => resolve g ratioMin minFix have_ n sub.dropLast

/-- Values of chi-square, in thousandths, that a sum of 1 to 40 squares exceeds with probability 0.001 (R155). -/
def chiLimit : List Nat :=
  [10828, 13816, 16266, 18467, 20515, 22458, 24322, 26124, 27877, 29588, 31264, 32909, 34528, 36123, 37697, 39252, 40790, 42312, 43820, 45315] ++
  [46797, 48268, 49728, 51179, 52620, 54052, 55476, 56892, 58301, 59703, 61098, 62487, 63870, 65247, 66619, 67985, 69346, 70703, 72055, 73402]

/-- Residual of a signal's carrier in the fixed solution, cycles, before its whole number; 0 for the reference satellite. -/
def carResid (g : Gauss) (dds : List DDiff) (k : SigKey) : Rat :=
  match dds.find? fun d => d.id.key == k with
  | some d =>
    let pred := dotR [g.at_ 0, g.at_ 1, g.at_ 2] [(d.dir.1 : Int), (d.dir.2.1 : Int), (d.dir.2.2 : Int)] / (one40 : Int)
    (((d.car.getD 0 : Int) : Rat) + pred) / waveUm k.2.2
  | none => 0

/-- Variance of the carrier of a signal's double difference, cycle². -/
def carVar (dds : List DDiff) (k : SigKey) : Rat :=
  match dds.find? fun d => d.id.key == k with
  | some d => ((d.sdCar.1 * d.sdCar.1 + d.sdCar.2 * d.sdCar.2 : Nat) : Rat) / (waveUm k.2.2 * waveUm k.2.2)
  | none => 0

/-- The residual and the variance of every fix (R155). -/
def fixResids (g : Gauss) (dds : List DDiff) (l : List FixSet) : List (SigKey × Rat × Rat) :=
  l.flatMap fun c => match c with
    | [] => []
    | e :: t => t.map fun x => (x.1, carResid g dds x.1 - carResid g dds e.1 - ((x.2 - e.2 : Int) : Rat), carVar dds x.1 + carVar dds e.1)

/-- Signals whose fix is off by more than a quarter of a cycle. -/
def outliers (l : List (SigKey × Rat × Rat)) : List SigKey :=
  (l.filter fun r => decide (1 / 4 < r.2.1) || decide (r.2.1 < -1 / 4)).map (·.1)

/-- Do the residuals fail the chi-square test? -/
def chiFails (l : List (SigKey × Rat × Rat)) : Bool :=
  let sum : Rat := l.foldl (fun a r => if r.2.2 ≤ 0 then a else a + r.2.1 * r.2.1 / r.2.2) 0
  match chiLimit[l.length - 1]? with
  | some t => !l.isEmpty && decide ((t : Rat) / 1000 < sum)
  | none => false

/-! ### Grades (R157) -/

/-- Standard deviation, rounded up to whole um, of a combination of the position. -/
def sdOf (v : Rat) : Nat := isqrtUp v.ceil.toNat

/-- Covariance of the position along two directions in 2^-40. -/
def posCov (g : Gauss) (a b : Vec3) : Rat :=
  let row (v : Vec3) : List Rat := [((v.1 : Int) : Rat) / (one40 : Int), ((v.2.1 : Int) : Rat) / (one40 : Int), ((v.2.2 : Int) : Rat) / (one40 : Int)]
  let p3 := (List.range 3).map fun i => (List.range 3).map fun j => g.cov i j
  dotR (row a) (p3.map (dotR (row b)))

/-- `PROT` in um (R157): `K_PROT` / 10 of the deviation along the major axis of the horizontal covariance, and 1 ppm of the baseline. -/
def protUm (g : Gauss) (at_ : Vec3) (k : Nat) : Nat :=
  let ax := enuAxes at_
  let a := posCov g ax.1 ax.1
  let c := posCov g ax.2.1 ax.2.1
  let b := posCov g ax.1 ax.2.1
  let root : Nat := isqrtUp ((a - c) * (a - c) + 4 * b * b).ceil.toNat
  let major := sdOf ((a + c + (root : Rat)) / 2)
  let len := len3 ((g.at_ 0).floor, (g.at_ 1).floor, (g.at_ 2).floor)
  ceilDiv (k * major) 10 + ceilDiv len 1000000

/-! ### The epoch -/

/-- What an epoch gives: its satellites, those with code and with carrier differences, fixes and ambiguities, the fixed and the float
solution with their protection levels in um, whether R153 re-initialised and whether R155 dropped every fix, the filter it leaves, the
large search in progress as far as continuity has held, and the one it would ask for (R156). -/
structure Solved where
  nsat : Nat := 0
  ncode : Nat := 0
  ncar : Nat := 0
  nfix : Nat := 0
  namb : Nat := 0
  fixGauss : Gauss := { x := [], p := [] }
  floatGauss : Gauss := { x := [], p := [] }
  protFix : Nat := 0
  protFlt : Nat := 0
  reinit : Bool := false
  wrong : Bool := false
  filt : Filt := {}
  hunt : Option Hunt := none
  want : Option Hunt := none
deriving DecidableEq, Repr

/-- The result of a large search that has been found, on the ambiguities of the epoch whose continuity has held (R156): those it fixes
where it passes the ratio test against the epoch's float solution. -/
def applyHunt (h : Hunt) (g : Gauss) (ids want : List AmbId) (ratioMin : Nat) : Option (List (AmbId × Int) × Nat) :=
  let val (k : SigKey) : Option (Int × Int) :=
    if !h.keys.contains k then none
    else if h.found.any fun e => e.1.refKey == k then some (0, 0)
    else (h.found.find? fun e => e.1.key == k).map (·.2)
  let got := want.filterMap fun a => match val a.key, val a.refKey with
    | some x, some y => some (a, x.1 - y.1, x.2 - y.2)
    | _, _ => none
  if got.isEmpty then none
  else
    let m := ambGauss g ids (got.map (·.1))
    let best := m.residual (got.map (·.2.1))
    let second := m.residual (got.map (·.2.2))
    if ratioOk ratioMin best second then some (got.map fun x => (x.1, x.2.1), ratio10 best second) else none

/-- Cells under the slot's mask (R151). -/
def Dev.maskedCells (s : Dev) (i : Nat) (l : List RawCell) : List RawCell :=
  let mask := (s.frkSlot i).prof.mask.getD (s.reg 0x5018).toNat
  l.filter fun c => bitAt mask c.key.2.2

/-- Signals of a base epoch after `t` up to `u` that carry `SLIP`, of those still held (R153). -/
def Dev.slipsIn (s : Dev) (t u : NT) : List SigKey :=
  (s.gns.held.filter fun h => ntAfter h.t t && ntReached u h.t).flatMap (·.slips)

/-- The filter an epoch is solved with: its slot's, or the one a full reset found it in service with. -/
def Dev.filtOf (s : Dev) (q : FrkEpoch) : Filt := q.kept.getD (s.frkSlot q.slot).filt

/-- Origin of the site frame (R160), ECEF, 0.1 mm. -/
def Dev.siteOrigin (s : Dev) : Vec3 :=
  if s.flag (0x7024, 0, 1) then
    let at_ (o : Nat) : Int := signed 64 ((s.reg o).toNat + 4294967296 * (s.reg (o + 4)).toNat)
    (at_ 0x7028, at_ 0x7030, at_ 0x7038)
  else s.gns.pos

/-- Has continuity been kept on a signal since the slot's last processed epoch (R153)? -/
def Dev.keepsLock (s : Dev) (q : FrkEpoch) (cells : List RawCell) (k : SigKey) : Bool :=
  let x := s.filtOf q
  match x.lastProc, cells.find? fun c => c.key == k with
  | some t, some c =>
    decide (10 * ntSince q.tObs t ≤ 7 * (s.lease q.slot).tRep * tickHz) && x.locks.contains (k, c.lock) && !(s.slipsIn t q.grid).contains k
  | _, _ => false

/-- The input of the float update of an epoch (R152, R153). -/
def Dev.floatIn (s : Dev) (q : FrkEpoch) : FltIn :=
  let x := s.filtOf q
  let prof := (s.frkSlot q.slot).prof
  let cells := s.maskedCells q.slot q.cells
  let dh : Int := match x.flt with | some f => nearest (ecefToEnu q.basePos f.pos).2.2 1000 | none => 0
  let a : DdIn := { antH := prof.antH, off := ntDiff q.tObs q.grid, dh, basePos := q.basePos
                    cpSig := 100 * s.fld (0x7018, 0, 8), prSig := 10000 * s.fld (0x7018, 8, 8) }
  let dds := allDds a cells q.base
  let ids := (dds.filter fun d => d.car.isSome).map (·.id)
  { prior := x.flt.map fun f => f.carry ids (s.keepsLock q cells)
    dt := match x.lastProc with | some t => ntSince q.tObs t | none => 0
    accH := prof.accH, accV := prof.accV, dds
    held := keepFixes x.fixes fun k => s.keepsLock q cells k && ids.any fun a => a.key == k || a.refKey == k }

/-- Solve an epoch of a slot (R152-R157). -/
def Dev.solve (s : Dev) (q : FrkEpoch) : Solved :=
  let x := s.filtOf q
  let sl := s.frkSlot q.slot
  let cells := s.maskedCells q.slot q.cells
  let i := s.floatIn q
  let f := floatStep i
  let g := f.gauss
  let ids := f.ambs.map (·.1)
  let used (k : SigKey) : Bool := ids.any fun a => a.key == k || a.refKey == k
  let locks := (cells.filter fun c => used c.key).map fun c => (c.key, c.lock)
  let keep (k : SigKey) : Bool := s.keepsLock q cells k && used k
  let reinit := x.locks.any fun l => used l.1 && !keep l.1
  let ratioMin := s.fld (0x7014, 0, 8)
  let minFix := s.fld (0x7014, 8, 6)
  let dim := s.fld (0x7014, 16, 6)
  let hunt := if q.kept.isSome then none else sl.hunt.map fun h => { h with keys := h.keys.filter keep }
  let free := sl.prof.fixMode == 3
  -- a large search's result first (R156), then the bounded search (R154)
  let large : Option (List (AmbId × Int) × Nat) := match hunt with
    | some h => if free || sl.search != .found then none else applyHunt h (fixedGauss g ids i.held) ids (unfixed ids i.held) ratioMin
    | none => none
  let fix1 := match large with | some r => r.1.foldl (fun l e => addFix l e.1.key e.1.refKey e.2) i.held | none => i.held
  let want := unfixed ids fix1
  let m := ambGauss (fixedGauss g ids fix1) ids want
  let small := if free then none
    else resolve m ratioMin minFix (fixCount fix1) want.length ((m.allLevels.map (·.i)).take (dim - 1))
  let fix2 := match small with
    | some r => r.1.foldl (fun l e => match want[e.1]? with | some a => addFix l a.key a.refKey e.2 | none => l) fix1
    | none => fix1
  -- the fixes are tested (R155)
  let res := fixResids (fixedGauss g ids fix2) i.dds fix2
  let out := outliers res
  let wrong := decide (2 ≤ out.length) || chiFails res
  let fix3 := if wrong then [] else keepFixes fix2 fun k => !out.contains k
  let gf := fixedGauss g ids fix3
  let left := unfixed ids fix3
  let eager := decide (dim ≤ left.length) && !free &&
    decide (99 * one120 ≤ 100 * (ambGauss gf ids left).success)
  let prot (v : Gauss) : Nat := protUm v s.siteOrigin (s.fld (0x701C, 0, 8))
  { nsat := ddSats i.dds
    ncode := ddSats (i.dds.filter fun d => d.code.isSome), ncar := ddSats (i.dds.filter fun d => d.car.isSome)
    nfix := fixCount fix3, namb := ids.length, fixGauss := gf, floatGauss := g
    protFix := prot gf, protFlt := prot g, reinit, wrong
    filt := { flt := some f, fixes := if sl.prof.fixMode = 1 then fix3 else [], locks, lastProc := some q.tObs
              ratio := match small, large with | some r, _ => r.2 | none, some r => r.2 | none, none => x.ratio }
    hunt, want := if eager then some { flt := f, ids := left, keys := (left.flatMap fun a => [a.key, a.refKey]).eraseDups } else none }

/-- The two best integer vectors of a large search (R156), which has no candidate limit: the bound on the visits is one that no search
within `LARGE_MS` reaches. -/
def Hunt.solve (h : Hunt) : Hunt :=
  let m := ambGauss h.flt.gauss (h.flt.ambs.map (·.1)) h.ids
  match m.search (2 ^ 40) with
  | [a, b] => { h with found := (h.ids.zip (a.2.zip b.2)).map fun e => (e.1, e.2.1, e.2.2) }
  | _ => { h with found := [] }

end Sys2Proof.Machine
end

