-- ==== Sys2Proof/Machine/SnpOps.lean ====
section
/-! DEFINITION. Operations of the snapshot service: capacity and batches (R136, R137), the samples (R127), the search around the aid
position (R131), the comparison with the robot's own pseudoranges (R132), and the results (R133, R134, R140). -/
namespace Sys2Proof.Machine

/-- `SKIPPED`, `INCOMPLETE` and `CONFLICT` with source 0x4F (R141, R143). -/
def Dev.snpLost (s : Dev) (f : Fld) : Dev := (s.cntSat f).raise 0x4F
def snpSkipped : Fld := (0x6020, 16, 16)

/-! ### Capacity and batches (R136, R137) -/

/-- Units of the batches that wait or run, and of the snapshots being assembled. -/
def Batch.units (b : Batch) : Nat := b.snaps.foldl (fun a (x : Snap) => a + x.units) 0
def Dev.unitsPending (s : Dev) : Nat :=
  s.snp.batches.foldl (fun a b => a + b.units) 0 + s.snp.asm_.foldl (fun a (x : SnapAsm) => a + (if x.cold then 4 else 1)) 0

/-- Units asked for in the last second. -/
def Dev.unitsAsked (s : Dev) : Nat :=
  (s.snp.asked.filter fun x => decide (ntSince s.nt x.1 < tickHz)).foldl (fun a x => a + x.2) 0

/-- Is there room for `u` more units (R136)? -/
def Dev.unitsFit (s : Dev) (u : Nat) : Bool := decide (s.unitsAsked + s.unitsPending + u ≤ 64)

/-- Count units as asked for now. -/
def Dev.askUnits (s : Dev) (u : Nat) : Dev :=
  { s with snp := { s.snp with asked := (s.nt, u) :: s.snp.asked.filter fun x => decide (ntSince s.nt x.1 < tickHz) } }

/-- Close a batch and ask leave (R137): class SNP, 10 ms a unit and 5 ms, by the earliest `T0` plus `DEADLINE`. -/
def Dev.closeBatch (s : Dev) (b : Batch) : Dev :=
  let t0 := b.snaps.foldl (fun (m : NT) (x : Snap) => if ntAfter m x.t0 then x.t0 else m) (match b.snaps.head? with | some x => x.t0 | none => s.nt)
  let s := { s with snp := { s.snp with batches := mapWhere (fun (x : Batch) => x.id == b.id) (fun (x : Batch) => { x with closed := true }) s.snp.batches } }
  s.askLeave 1 (10 * s.fld (0x601C, 21, 11)) (msTicks (10 * b.units + 5)) (ntAdd t0 (msTicks (s.fld (0x601C, 8, 13)))) (.snpBatch b.id)

/-- A complete snapshot joins the open batch or opens the next one; 16 units close it (R137). -/
def Dev.joinBatch (s : Dev) (x : Snap) : Dev :=
  let fits (b : Batch) : Bool := !b.closed && decide (b.units + x.units ≤ 16)
  let open_ (s : Dev) : Dev :=
    { s with snp := { s.snp with batches := s.snp.batches ++ [{ id := s.snp.nextBatch, opened := s.nt, snaps := [x] }]
                                 nextBatch := s.snp.nextBatch + 1 } }
  match s.snp.batches.getLast? with
  | some b =>
    if fits b then
      let b' := { b with snaps := b.snaps ++ [x] }
      let s := { s with snp := { s.snp with batches := mapWhere (fun (y : Batch) => y.id == b.id) (fun _ => b') s.snp.batches } }
      if b'.units = 16 then s.closeBatch b' else s
    else open_ s
  | none => open_ s

/-- Ask a robot for a snapshot: the request travels in its set-point frames (R129). -/
def Dev.askSnap (s : Dev) (i : Nat) : Dev :=
  (s.setRover i { s.rover i with wantSnap := true }).askUnits 1

/-- The place of a demand in the order of R136, and its units. The unaided snapshots of ADMITTING robots come unrequested, are judged as
they arrive, and so stand before every demand; the device's own snapshots count with those of the host (DEDUCED, log entry 70). -/
def Demand.rank : Demand → Nat
  | .recheck _ => 2
  | .snap _ => 3
  | .audit _ => 4
def Demand.units : Demand → Nat
  | .snap x => x.units
  | _ => 1

/-- Does a demand still stand: the receiver is still SUSPECT under a live lease, the robot to audit still ACTIVE? -/
def Dev.wanted (s : Dev) (d : Demand) : Bool :=
  match d with
  | .recheck i => decide ((s.rover i).rx = 2) && ((s.lease i).st = .admitting || (s.lease i).st = .active || (s.lease i).st = .suspect)
  | .snap _ => true
  | .audit i => (s.lease i).st = .active

/-- Serve a demand. -/
def Dev.serve (s : Dev) (d : Demand) : Dev :=
  match d with
  | .recheck i => s.askSnap i
  | .snap x => (s.askUnits x.units).joinBatch x
  | .audit i =>
    let s := s.setRover i { s.rover i with audited := some s.nt };
    { s with snp := { s.snp with nextAudit := (i + 1) % s.nSlots } }.askSnap i

/-- Serve demands in their order while they fit (R136). -/
def Dev.serveGo : Nat → Dev → Dev
  | 0, s => s
  | n + 1, s =>
    let l := s.snp.demand
    match l.foldl (fun (m : Option Demand) d => match m with | some b => if d.rank < b.rank then some d else m | none => some d) none with
    | none => s
    | some d => if s.unitsFit d.units then (({ s with snp := { s.snp with demand := l.erase d } }).serve d).serveGo n else s

/-- The demands that still stand are served as far as capacity goes. -/
def Dev.serveDemand (s : Dev) : Dev :=
  let s := { s with snp := { s.snp with demand := s.snp.demand.filter s.wanted } }
  s.serveGo s.snp.demand.length

/-- A new demand, once. -/
def Dev.demand (s : Dev) (d : Demand) : Dev :=
  (if s.snp.demand.contains d then s else { s with snp := { s.snp with demand := s.snp.demand ++ [d] } }).serveDemand

/-! ### Samples (R127) -/

/-- Sample `n` of a snapshot: I and Q as +1 or -1. -/
def snapSample (b : List Byte) (n : Nat) : Int × Int :=
  let o := (b.getD (n / 4) 0).toNat
  let lv (k : Nat) : Int := if bitAt o k then 1 else -1
  (lv (2 * (n % 4)), lv (2 * (n % 4) + 1))
def snapSamples (b : List Byte) : List (Int × Int) := (List.range 4092).map (snapSample b)

/-- Samples packed into the 1,023 octets of a snapshot, by their signs. -/
def packSamples (l : List (Int × Int)) : List Byte :=
  (List.range 1023).map fun o => BitVec.ofNat 8 ((List.range 4).foldl (fun a j =>
    let v := l.getD (4 * o + j) (-1, -1)
    a + (b2n (decide (0 < v.1)) + 2 * b2n (decide (0 < v.2))) * 4 ^ j) 0)

/-- A snapshot from the G1 port of `REF_ANT` (R120, R139), decimated from the octets the port gave in 1 ms: NT is known, so `T_UNC` is
its least value, and the base is the aid where one is adopted (DESIGN CHOICE, log entry 112). -/
def Dev.localSnap (s : Dev) (src : SnapFrom) (samples : List Byte) : Snap :=
  let p := portOf s.gns.refAnt 0
  let aided := s.gns.base != 0
  { src, t0 := s.nt, units := if aided then 1 else 4, tUnc := 1, fcOfs := nearest (s.fcOfs p) 10
    bits := packSamples (Config.decimate (samples.map (s.sampleOf p))), aided, aid := if aided then some (s.antPos s.gns.refAnt) else none }

/-- A snapshot as a record (R139). -/
def Snap.record (x : Snap) : List Byte :=
  let a := x.aid.getD (0, 0, 0)
  leBytes x.t0.toNat 8 ++ leBytes x.tUnc 2 ++ leBytes (unsigned 16 x.fcOfs) 2 ++ leBytes (b2n x.aid.isSome) 1 ++ [0] ++
    leBytes (b2n x.aid.isSome) 2 ++ leBytes (unsigned 64 a.1) 8 ++ leBytes (unsigned 64 a.2.1) 8 ++ leBytes (unsigned 64 a.2.2) 8 ++
    List.replicate 8 0 ++ x.bits ++ [0]

/-! ### The search (R131) -/

/-- Code period of a signal in ps (PRESUMED, log entry 111). -/
def codePs (sig : Nat) : Nat := if sig = 4 then 4000000000 else if sig = 9 then 10000000000 else 1000000000

/-- A value wrapped to ± half a period. -/
def wrapHalf (v : Int) (p : Nat) : Int :=
  let r := v % (p : Int)
  if (p : Int) < 2 * r then r - p else r

/-- ECEF position of a point of the site frame's plane, mm (R160). -/
def Dev.sitePoint (s : Dev) (e n : Int) : Vec3 := addPos s.siteOrigin (enuToEcef s.siteOrigin (10 * e, 10 * n, 0))

/-- The centre of a robot's admission area. -/
def Dev.areaCentre (s : Dev) (i : Nat) : Option Vec3 :=
  let a := (s.lease i).area
  (s.trl.graph.bind fun g => g.seg? a.1).bind fun x =>
    let mid := 5000 * (a.2.1 + a.2.2)
    (cutPieces (piecesOf x.um) 0 mid mid).head?.map fun p => s.sitePoint (p.1.1 / 1000) (p.1.2 / 1000)

/-- The aid position of a snapshot (R131). A host's is the one it gave, or the base (DEDUCED, log entry 111). -/
def Dev.aidOf (s : Dev) (x : Snap) : Vec3 :=
  let base := s.antPos s.gns.refAnt
  match x.src with
  | .robot i _ =>
    match (s.frkSlot i).aid with
    | some r => (r.x, r.y, r.z)
    | none => (s.areaCentre i).getD base
  | _ => x.aid.getD base

/-- Is a satellite more than 5° above the horizon of a point? -/
def aboveFive (at_ pos : Vec3) : Bool :=
  let v := subPos pos at_
  decide ((cosSin (milliDeg 5000)).2 * len3 v < (ecefToEnu at_ v).2.2 * one40)

/-- Delay in ps and Doppler in Hz that a satellite's signal has at a point at rest. -/
def predictedAt (at_ : Vec3) (v : SnapSat) : Int × Int :=
  let d := subPos v.pos at_
  let r : Int := len3 d
  (nearest (r * 100000000) 299792458 - v.clk, if r = 0 then 0 else -nearest (dot3 d v.vel * 157542) (299792458 * r))

/-- A satellite of the search with what it found: the compared peak of a detected one, and whether another marks it `MULTI_PEAK`. -/
structure SnapHit where
  sat : SnapSat
  peak : Option Peak
  multi : Bool
deriving DecidableEq, Repr

/-- The search for one satellite: the compared peak is the highest in the aided window, or in the full code when unaided; any other peak of
the searched Doppler no more than 6 dB below it marks the satellite (DEDUCED, log entry 111). -/
def Snap.seek (x : Snap) (at_ : Vec3) (v : SnapSat) : SnapHit :=
  let (delay, dop) := predictedAt at_ v
  let all := (Config.correlate (snapSamples x.bits) x.fcOfs v.sig v.svid).filter fun (p : Peak) =>
    decide ((p.dop - dop).natAbs ≤ (if x.aided then 500 else 5000))
  let near := all.filter fun (p : Peak) =>
    !x.aided || decide ((wrapHalf ((p.delay : Int) - delay) (codePs v.sig)).natAbs ≤ 1000000 * (x.tUnc + 1))
  let top := near.foldl (fun (m : Option Peak) (p : Peak) => match m with
    | some q => if q.level < p.level then some p else m
    | none => some p) none
  match top with
  | some p =>
    if Config.snapThreshold < p.level then
      { sat := v, peak := some p, multi := (all.erase p).any fun (q : Peak) => decide (p.level - 600 ≤ q.level) }
    else { sat := v, peak := none, multi := false }
  | none => { sat := v, peak := none, multi := false }

/-- The search of a snapshot: every satellite of R127 above 5° at the aid position. -/
def Dev.search (s : Dev) (x : Snap) (sats : List SnapSat) : List SnapHit :=
  let at_ := s.aidOf x
  (sats.filter fun v => [0, 4, 9, 13].contains v.sig && aboveFive at_ v.pos).map (x.seek at_)

/-- Satellites detected. -/
def hitsOf (l : List SnapHit) : List SnapHit := l.filter fun h => h.peak.isSome

/-! ### The check (R132) -/

/-- Sets of a robot no more than 250 ms from `t`, the nearest first. -/
def Dev.obsNear (s : Dev) (i : Nat) (t : NT) : List (NT × List RawCell) :=
  let d (o : NT × List RawCell) : Nat := max (ntSince o.1 t) (ntSince t o.1)
  let near := (s.frkSlot i).obs.filter fun o => decide (d o ≤ fullTicks 250 1000)
  near.foldl (fun l o => (l.filter fun p => d p ≤ d o) ++ o :: l.filter fun p => d o < d p) []
def Dev.hasObs (s : Dev) (i : Nat) (t : NT) : Bool := !(s.obsNear i t).isEmpty

/-- A satellite's pseudorange in a set, 2^-27 ms, of the searched signal or else of the first that has one. -/
def setPr (v : SnapSat) (l : List RawCell) : Option Int :=
  let own := l.filter fun (c : RawCell) => c.key.1 == sigSys v.sig && c.key.2.1 == v.svid && c.pr.isSome
  (match own.find? fun (c : RawCell) => c.key.2.2 == v.sig with | some c => some c | none => own.head?).bind (·.pr)

/-- The pseudorange interpolated to `t`, in ps: along the two nearest sets that have one, or as the only one has it. -/
def prAt (v : SnapSat) (t : NT) (sets : List (NT × List RawCell)) : Option Int :=
  match sets.filterMap fun o => (setPr v o.2).map fun p => (o.1, p) with
  | a :: b :: _ =>
    let n := ntDiff b.1 a.1
    some (nearest ((a.2 * n + (b.2 - a.2) * ntDiff t a.1) * 1000000000) (134217728 * n))
  | [a] => some (nearest (a.2 * 1000000000) 134217728)
  | [] => none

/-- The median of some values, half the sum of the middle two of an even number. -/
def median (l : List Int) : Int :=
  let o := l.foldl (fun (a : List Int) x => (a.filter (· ≤ x)) ++ x :: a.filter (x < ·)) []
  let n := o.length
  if n = 0 then 0 else if n % 2 = 1 then o.getD (n / 2) 0 else (o.getD (n / 2 - 1) 0 + o.getD (n / 2) 0) / 2

/-- Is a residual in ps larger than `RES_LIM`? -/
def Dev.overRes (s : Dev) (ps : Int) : Bool := decide (s.fld (0x6018, 0, 12) * 1000000000000 < ps.natAbs * 299792458)

/-- `NCMP` and `NMIS` of a check snapshot: satellites detected and in the robot's sets, and those that mismatch, each counted once
(DEDUCED, log entry 111). -/
def Dev.compare (s : Dev) (i : Nat) (t : NT) (hits : List SnapHit) : Nat × Nat :=
  let sets := s.obsNear i t
  let both := hits.filterMap fun h => match h.peak, prAt h.sat t sets with
    | some p, some r => some (h, wrapHalf (r - p.delay) (codePs h.sat.sig))
    | _, _ => none
  let m := median (both.map (·.2))
  let off (h : SnapHit) : Bool := both.any fun b => b.1 == h && s.overRes (wrapHalf (b.2 - m) (codePs h.sat.sig))
  let strong (h : SnapHit) : Bool := match sets.head? with
    | some o => o.2.any fun (c : RawCell) => c.key.1 == sigSys h.sat.sig && c.key.2.1 == h.sat.svid && decide (s.fld (0x6018, 20, 8) ≤ c.cn0)
    | none => false
  (both.length, (hits.filter fun h => off h || h.multi || (h.peak.isNone && strong h)).length)

/-- The verdict of R132: 1 MATCH, 2 MISMATCH, 3 INCONCLUSIVE. -/
def Dev.snapVerdict (s : Dev) (ncmp nmis : Nat) : Nat :=
  if ncmp < s.fld (0x6018, 16, 4) then 3
  else if s.fld (0x6018, 12, 4) ≤ nmis || ncmp < 3 * nmis then 2 else 1

/-- Satellites whose delay disagrees with their tracking channel's by more than `RES_LIM` (R120). -/
def Dev.offChans (s : Dev) (hits : List SnapHit) (chans : List (Nat × Nat × Nat)) : Nat :=
  (hits.filter fun h => match h.peak, chans.find? fun c => c.1 == h.sat.sig && c.2.1 == h.sat.svid with
    | some p, some c => s.overRes (wrapHalf (nearest ((c.2.2 : Int) * 100000000) 299792458 - p.delay) (codePs h.sat.sig))
    | _, _ => false).length

/-- The position of R133: `DT`, the position, and `HERR`. -/
def Dev.coarse (s : Dev) (x : Snap) (hits : List SnapHit) : Int × Vec3 × Nat :=
  Config.coarseTime (hits.filterMap fun h => h.peak.map fun p => (h.sat.pos, h.sat.clk, p.delay)) (s.aidOf x)

/-! ### Receivers and submissions (R134, R140) -/

/-- The machine of R134 on a verdict. -/
def Dev.judgeRover (s : Dev) (i v nmis : Nat) : Dev :=
  let x := { s.rover i with verdict := v, at_ := some s.nt }
  match v with
  | 1 =>
    if x.rx = 2 then
      if s.fld (0x6014, 24, 8) ≤ x.run + 1 then
        let s := s.setRover i { x with rx := 1, run := 0 }
        if (s.frkSlot i).st = .running then s.frkReset i .waiting else s
      else s.setRover i { x with run := x.run + 1 }
    else s.setRover i { x with rx := 1 }
  | 2 =>
    if x.rx = 2 then s.setRover i { x with run := 0 }
    else ((s.setRover i { x with rx := 2, run := 0, asked := some s.nt }).raise 0x4E).event 0x0601 (leBytes i 1 ++ leBytes nmis 1)
  | _ => s.setRover i x

/-- What a result record of R140 says. -/
structure SnapRes where
  code : Nat
  verdict : Nat := 0
  ndet : Nat := 0
  ncmp : Nat := 0
  nmis : Nat := 0
  nmulti : Nat := 0
  dt : Int := 0
  pos : Vec3 := (0, 0, 0)
  herr : Nat := 0
deriving DecidableEq, Repr

def SnapRes.bytes (x : SnapRes) (idx : Nat) : List Byte :=
  leBytes idx 1 ++ leBytes x.code 1 ++ leBytes x.verdict 1 ++ leBytes x.ndet 1 ++ leBytes x.ncmp 1 ++ leBytes x.nmis 1 ++
    leBytes x.nmulti 1 ++ [0] ++ leBytes (unsigned 64 x.dt) 8 ++ leBytes (unsigned 64 x.pos.1) 8 ++ leBytes (unsigned 64 x.pos.2.1) 8 ++
    leBytes (unsigned 64 x.pos.2.2) 8 ++ leBytes x.herr 4 ++ [0, 0, 0, 0]

/-- A submission of the host. -/
def Dev.snapCmd (s : Dev) (h : Nat) : Option SnapCmd := s.snp.cmds.find? fun (c : SnapCmd) => c.handle == h
def Dev.setSnapCmd (s : Dev) (h : Nat) (c : Option SnapCmd) : Dev :=
  let rest := s.snp.cmds.filter fun (x : SnapCmd) => x.handle != h
  { s with snp := { s.snp with cmds := rest ++ c.toList } }

/-- One result of a submission (R140): written, announced, and `DONE` after the last. -/
def Dev.hostResult (s : Dev) (h idx : Nat) (x : SnapRes) (werr : Bool) : Dev :=
  match s.snapCmd h with
  | none => s
  | some c =>
    if werr then (s.setSnapCmd h none).refuse h stDma none
    else
      let s := (s.emit (.host h 1 (48 * idx) (x.bytes idx))).progress h 1 (leBytes idx 1)
      let c := { c with results := c.results + 1, noLeave := c.noLeave + b2n (x.code = 3) }
      if c.results = c.count then
        (s.setSnapCmd h none).done h (if c.noLeave = c.count then stNoLeave else stOK) []
      else s.setSnapCmd h (some c)

/-- One snapshot of a running batch is done (R120, R131-R134, R139, R140). -/
def Dev.snapDone (s : Dev) (x : Snap) (f : SnapFacts) (werr : Bool) : Dev :=
  let hits := s.search x f.sats
  let ndet := (hitsOf hits).length
  let enough := decide (5 ≤ ndet)
  let fix := s.coarse x hits
  match x.src with
  | .robot i epoch =>
    if (s.lease i).epoch ≠ epoch then s
    else
      let obs := s.hasObs i x.t0
      let (ncmp, nmis) := s.compare i x.t0 hits
      let site := ecefToEnu s.siteOrigin (subPos fix.2.1 s.siteOrigin)
      let r := { s.rover i with result := some (if !enough then 1 else if !obs then 2 else 0) }
      let s := s.setRover i (if enough then
          { r with pos := some { t := ntAdd x.t0 (nsTicks fix.1), e := nearest site.1 10, n := nearest site.2.1 10, u := nearest site.2.2 10
                                 x := fix.2.1.1, y := fix.2.1.2.1, z := fix.2.1.2.2 } }
        else r)
      if obs then s.judgeRover i (s.snapVerdict ncmp nmis) nmis else s
  | .local_ =>
    let bad := decide (2 ≤ (hits.filter (·.multi)).length) || decide (s.fld (0x6018, 12, 4) ≤ s.offChans hits f.chans)
    { s with snp := { s.snp with localPend := false, localVerdict := if bad then 2 else 0 } }
  | .host h idx =>
    match s.snapCmd h with
    | none => s
    | some c =>
      let obs := c.mode = 2 && s.hasObs c.robot x.t0
      let cmp := if obs then s.compare c.robot x.t0 hits else (0, 0)
      let code := if !enough then 1 else if c.mode = 2 && !obs then 2 else 0
      let r : SnapRes := { code, verdict := if obs then s.snapVerdict cmp.1 cmp.2 else 0, ndet, ncmp := cmp.1, nmis := cmp.2
                           nmulti := (hits.filter (·.multi)).length }
      s.hostResult h idx (if enough then { r with dt := fix.1, pos := fix.2.1, herr := fix.2.2 } else r) werr

/-- A snapshot ends without correlation (R130, R137): 3 `NO_LEAVE`, 4 `TIME_STEPPED`. -/
def Dev.snapEnds (s : Dev) (code : Nat) (x : Snap) : Dev :=
  let s := if code = 3 then s.raise 0x4F else s
  match x.src with
  | .robot i epoch =>
    let s := if (s.lease i).epoch = epoch then s.setRover i { s.rover i with result := some code } else s
    if code = 3 then s.cntSat snpSkipped else s
  | .local_ => { s with snp := { s.snp with localPend := false, localVerdict := 0 } }
  | .host h idx => s.hostResult h idx { code } false

end Sys2Proof.Machine
end

