-- ==== Sys2Proof/Machine/Leases.lean ====
section
/-! DEFINITION. The rows of leases (R12-R28, R331) and Rootstock's slot-boundary judgement (R416, R502). -/
namespace Sys2Proof.Machine

/-- Is a command that plans motion held by an activation pause (R26)? -/
def Dev.paused (s : Dev) : Bool := s.saf.run = .updatePause

/-- Run a command's work, unless a pause holds it: then nothing changes yet. -/
def Dev.fleetCommand (s : Dev) (h op : Nat) (k : Live → Dev → Dev) : Dev :=
  if s.paused then s else s.command h op k

/-- Take the first waiting frame of a kind. -/
def Dev.takeItem (s : Dev) (p : RxItem → Bool) : Option (RxItem × Dev) :=
  match s.mac.inbox.findIdx? p with
  | some k => s.mac.inbox[k]?.map fun x => (x, { s with mac := { s.mac with inbox := s.mac.inbox.eraseIdx k } })
  | none => none

/-! ### Slot boundaries -/

/-- The mirror's own judgement of one lease (R416): the rules of R21 from the receipt time, otherwise a copy. -/
def Dev.mirrorJudge (s : Dev) (i : Nat) (m : MirrorLease) : MirrorLease :=
  let l := s.lease i
  let live := l.st = .active || l.st = .suspect || l.st = .dead
  let copy : MirrorLease := { st := l.st.code, epoch := l.epoch, cls := l.cls, rx := l.rx }
  if live && m.epoch = l.epoch && (m.st = 2 || m.st = 3 || m.st = 4) then
    let age := ntSince s.nt (s.lastHeard i)
    let st := if m.st = 4 then 4
      else if msTicks (10 * s.fld (0x9010, 0, 12)) < age then 4
      else if msTicks (300 * l.tRep) < age then 3 else 2
    { copy with st }
  else copy

/-- SLOT_BOUNDARY (R21, R416, R502): Rootstock judges its mirror; a disagreement that outlasts two consecutive boundaries
raises 0xB7; the active unit of a pair sends the slot's deltas. -/
def execSlotBoundary (s : State) : Host.Outcome State Fault Refusal := s.act fun s =>
  let t := s.nextDue nextSlot s.saf.slotAt
  let s := (s.tickTo t).expire.serveDemand
  let s := { s with saf := { s.saf with slotAt := t } }
  let idx := s.txu.leases.map (·.1)
  let mir := idx.foldl (fun m i =>
    Tab.set (fun _ => {}) m i (s.mirrorJudge i (Tab.get (fun _ => {}) m i))) s.saf.mirror
  let bad := idx.any fun i => (Tab.get (fun _ => {}) mir i).st != (s.lease i).st.code
  let n : Nat := if bad then s.saf.disagree + 1 else 0
  let s := { s with saf := { s.saf with mirror := mir, disagree := n } }
  let s := if n = 3 then s.raise 0xB7 else s
  if s.par.role = .active && s.par.linkUp && (s.par.mirror = .sync || s.par.mirror = .joining) then
    ({ s with par := { s.par with seq := s.par.seq + 1 } }).emit (.mirror s.par.seq)
  else s

/-- LEASE_SUSPECT (R21, R22): ACTIVE, and `age` above 3 `T_rep` at a slot boundary. -/
def execLeaseSuspect (i : Nat) (s : State) : Host.Outcome State Fault Refusal := s.act fun s =>
  let l := s.lease i
  if l.st != .active then s.begin
  else (s.tickTo (s.ageBoundary (s.lastHeard i) (300 * l.tRep))).toSuspect i

/-- LEASE_DEAD (R21, R23): `age` above `LEASE_TIMEOUT` at a slot boundary. -/
def execLeaseDead (i : Nat) (s : State) : Host.Outcome State Fault Refusal := s.act fun s =>
  let l := s.lease i
  if l.st != .active && l.st != .suspect then s.begin
  else (s.tickTo (s.ageBoundary (s.lastHeard i) (10 * s.fld (0x9010, 0, 12)))).toDead i

/-- T_STOPPED (R23): the first slot boundary at or after `t_stopped`. A zombie of a DEAD lease keeps its ground so too. -/
def execTStopped (i : Nat) (s : State) : Host.Outcome State Fault Refusal := s.act fun s =>
  let l := s.lease i
  if l.stopped || !(l.st = .dead || (l.st = .zombie && l.from_ = .dead)) then s.begin
  else (s.tickTo (slotAtOrAfter (s.tStopped i))).placeFoot i

/-- ADMIT_TIMEOUT (R21): the lease is RELEASED with `PARKED`, its standing envelope kept. -/
def execAdmitTimeout (i : Nat) (s : State) : Host.Outcome State Fault Refusal := s.act fun s =>
  let l := s.lease i
  if l.st != .admitting then s.begin
  else
    let s := s.tickTo (slotAtOrAfter (ntAdd l.since (msTicks (100 * s.fld (0x9010, 24, 8)) : Nat)))
    let s := s.endLease i { l with parked := true }
    let s := s.setResv (s.trl.resv.map fun r => if r.robot = i then { r with frozen := true } else r);
    (s.persist i).doneOpt l.handle 0x050D []

/-- ZOMBIE_SILENCE (R21): no frame under the old epoch for `LEASE_TIMEOUT`; the state before ZOMBIE returns, and the end of the
episode is logged under the robot's zombie code with a free value (DESIGN CHOICE, log entry 105). -/
def execZombieSilence (i : Nat) (s : State) : Host.Outcome State Fault Refusal := s.act fun s =>
  let l := s.lease i
  if l.st != .zombie then s.begin
  else
    let s := s.tickTo (s.ageBoundary l.zRx (10 * s.fld (0x9010, 0, 12)))
    let (v, s) := s.draw 4
    (s.putLease i { l with st := l.from_ }).note (0x300 + i) v []

/-- ADMIT_OFFER_REPEAT (R331): every 500 ms until the first report under the new epoch. -/
def execAdmitOfferRepeat (i : Nat) (s : State) : Host.Outcome State Fault Refusal := s.act fun s =>
  let l := s.lease i
  if l.st != .admitting || l.reported then s.begin
  else (s.tickTo (ntAdd l.sentAt (msTicks 500 : Nat))).sendOffer i

/-- CONFIRM_REPEAT (R331): every 200 ms until a report shows the `CFG_VER`. -/
def execConfirmRepeat (i : Nat) (s : State) : Host.Outcome State Fault Refusal := s.act fun s =>
  let l := s.lease i
  if !(l.st = .active || l.st = .suspect) || l.confirmed then s.begin
  else (s.tickTo (ntAdd l.sentAt (msTicks 200 : Nat))).sendConfirm i

/-- CLAIM (R331): it reaches the host as an event and admits nothing. -/
def execClaim (dt : Nat) (s : State) : Host.Outcome State Fault Refusal := s.act fun s =>
  let s := s.tick dt
  match s.takeItem (fun x => x.q = 28 && frType x.frame = 9) with
  | none => s
  | some (x, s) =>
    s.event 0x0D01 (slice x.frame 24 8 ++ leBytes x.lane 1 ++ leBytes (s.slotOfSfd x.lane x.sfd % 50) 1)

/-- A node confirms a link configuration (R333): it waits no more. -/
def Dev.confirmCfg (s : Dev) (addr ver : Nat) : Dev :=
  let f : RouteChange → RouteChange := fun c =>
    if c.cfgVer = ver then { c with waiting := c.waiting.filter (· != addr) } else c
  { s with mac := { s.mac with changes := s.mac.changes.map f } }

/-- CFG_ACK (R331, R333). -/
def execCfgAck (dt : Nat) (s : State) : Host.Outcome State Fault Refusal := s.act fun s =>
  let s := s.tick dt
  match s.takeItem (fun x => x.q = 25 && frType x.frame = 9) with
  | none => s
  | some (x, s) => s.confirmCfg (frSrc x.frame) (leAt x.frame 32 2)

/-! ### Route entries (R332) -/

/-- `WAKE_LEAD` in us (R337): `SLEW_RATE` in units of 10 ns/s enters as ppm. -/
def Dev.wakeLead (s : Dev) (drift n : Nat) : Nat :=
  2 * (1000 * drift + 10 * s.fld (0x4024, 16, 16)) * n / 10000 + 100

/-- Read a route entry; `none` where it breaks R332, its lane's limits or the `WAKE_LEAD` limit of R333. -/
def Dev.parseRoute (s : Dev) (b : List Byte) : Option RouteEnt :=
  let nh := leAt b 2 1 % 4
  let hops := (List.range 3).map fun k => (leAt b (16 + 4 * k) 2, leAt b (18 + 4 * k) 1, leAt b (19 + 4 * k) 1)
  let r : RouteEnt := {
    dest := leAt b 0 2, nhops := nh, sleepy := bitAt (leAt b 2 1) 2, rebcast := bitAt (leAt b 2 1) 3, lane := leAt b 3 1,
    drift := leAt b 4 1, sleepN := leAt b 6 2, phase := leAt b 8 2, wake := 0, hops := hops.take nh }
  let node := (0x1000 ≤ r.dest && r.dest < 0x1000 + s.nSlots) || (0x2000 ≤ r.dest && r.dest ≤ 0x20FF)
  let relay := 0x2000 ≤ r.dest
  let last := ((r.hops.getLast?).map (·.1)).getD 0
  let ok := node && 1 ≤ nh && leAt b 2 1 < 16 && r.lane < s.nLanes && leAt b 5 1 = 0 && leAt b 10 2 = 0 && zeros b 28 4 &&
    last = r.dest && (hops.drop nh).all (fun h => h = (0, 0, 0)) && (!r.rebcast || relay) && (!relay || nh ≤ 2) &&
    (hops.take nh).all (fun h => (h.2.1 < 50 || h.2.1 = 255) && h.2.2 < 50) &&
    (!r.sleepy || (1 ≤ r.drift && r.drift ≤ 100 && 1 ≤ r.sleepN && r.sleepN ≤ 6000 && r.phase < r.sleepN &&
      s.wakeLead r.drift r.sleepN ≤ 100000))
  if ok then some { r with wake := if r.sleepy then s.wakeLead r.drift r.sleepN else 0 } else none

/-! ### The commands -/

/-- ROBOT_ADMIT (R13-R16, R21, R164, R181, R336), judged in the order of R377. The area must lie on its segment. -/
def execRobotAdmit (h : Nat) (data : Option (List Byte)) (s : State) : Host.Outcome State Fault Refusal := s.act fun s =>
  s.fleetCommand h 0x73 fun _ s =>
    match data with
    | none => s.refuse h stDma none
    | some b =>
      let uid := leAt b 0 8; let i := leAt b 8 1; let c := leAt b 9 1; let tr := leAt b 10 1; let key := leAt b 11 1
      let seg := leAt b 12 4; let lo := leAt b 16 2; let hi := leAt b 18 2
      let l := s.lease i
      let bad := firstBad [(i < s.nSlots, 72), (c < 16, 73), (tr == 1 || tr == 2, 74), (key < 16, 75), (seg < 2 ^ 20, 76),
        (lo ≤ hi, 80), (zeros b 20 12, 84)]
      let other := l.bound && l.uid != uid
      let held := l.st = .dead || l.st = .zombie || (l.st = .released && l.parked) || l.unplaced
      let sleepy := match s.routeTo (robotAddr i) with | some r => r.sleepy | none => false
      match bad with
      | some o => s.refuse h stBadDesc (some o)
      | none =>
        if s.saf.run = .standby || s.saf.run = .boot then s.refuse h stBusy none
        else if l.st = .admitting || l.st = .active || l.st = .suspect || (other && (held || sleepy)) then s.refuse h stBusy (some 72)
        else if !(s.cls c).valid then s.refuse h stBadDesc (some 73)
        else if s.epochHz < 10 / tr then s.refuse h stBadDesc (some 74)
        else
          match s.trl.graph with
          | none => s.done h 0x0401 []
          | some g =>
            match g.seg? seg with
            | none => s.refuse h stBadDesc (some 76)
            | some x =>
              if x.len < hi then s.refuse h stBadDesc (some 82)
              else if (if s.fuse.big then 1280 else 640) < s.ratedLoad i + 10 / tr then s.done h 0x0304 []
              else
                match s.parseRoute (slice b 32 32) with
                | none => s.done h 0x0802 []
                | some r =>
                  if r.dest != robotAddr i || (s.lane r.lane).st != .inService || r.sleepy ||
                      s.routesBreak (setRoutes s.mac.routes [r] []) r.lane then s.done h 0x0802 []
                  else
                    let s := { s with mac := { s.mac with routes := setRoutes s.mac.routes [r] [] } }
                    s.takeIn i { l with uid, cls := c, tRep := tr, keyIdx := key, area := (seg, lo, hi), padded := 0, handle := some h }

/-- ROBOT_RELEASE (R25), by the state of the slot. -/
def execRobotRelease (h : Nat) (s : State) : Host.Outcome State Fault Refusal := s.act fun s =>
  s.fleetCommand h 0x74 fun cmd s =>
    let i := cmd.p 0 1
    let park := cmd.p 1 1 == 1
    let l := s.lease i
    let gone : Dev → Dev := fun s => s.setResv (s.trl.resv.filter fun r => r.robot != i)
    if s.saf.run = .standby || s.saf.run = .boot then s.refuse h stBusy none
    else
      match l.st with
      | .unknown => s.refuse h stStale (some 24)
      | .admitting =>
        let s := s.endLease i { l with parked := park }
        let s := if park then s.setResv (s.trl.resv.map fun r => if r.robot = i then { r with frozen := true } else r)
          else gone s
        ((s.persist i).doneOpt l.handle stStale (offsetRes none)).done h stOK []
      | .active =>
        let still := match l.report with | some r => r.vMeas == 0 | none => false
        if !still || s.holdsOffered i then s.refuse h stBusy (some 24)
        else
          let s := s.endLease i { l with parked := park }
          let s := if park then
              let s := s.setResv (s.trl.resv.filter fun r => !(r.robot = i && r.kind != .envelope))
              let s := s.envelope i s.nt true
              s.setResv (s.trl.resv.map fun r => if r.robot = i then { r with frozen := true } else r)
            else gone s
          (s.persist i).done h stOK []
      | .suspect => s.refuse h stBusy (some 24)
      | .zombie => s.refuse h stBusy (some 24)
      | .dead =>
        if park || !l.stopped then s.refuse h stBusy (some 24)
        else ((gone (s.endLease i { l with parked := false })).persist i).done h stOK []
      | .released =>
        if l.unplaced then
          if park then s.refuse h stStale (some 24)
          else (s.putLease i { l with unplaced := false }).done h stOK []
        else if l.parked then
          if park then s.done h stOK []
          else
            let s := { s with trl := { s.trl with pendingFp := s.trl.pendingFp.filter fun f => f.slot != i } }
            ((gone (s.setLease i { l with parked := false })).persist i).done h stOK []
        else if park then s.refuse h stStale (some 24)
        else s.done h stOK []

end Sys2Proof.Machine
end

