-- ==== Sys2Proof/Machine/RtkOps.lean ====
section
/-! DEFINITION. The fleet RTK array's parts: what a `RAW_OBS` frame may hold (R146-R149), engines (R164-R166), grades
(R125, R157, R158), the projection of a position (R189, R190), and what a position does to its lease (R21). -/
namespace Sys2Proof.Machine

/-! ### RAW_OBS payloads -/

/-- A cell (R147) of a satellite with a rough range. -/
def rawCell (sys svid rough w : Nat) : RawCell :=
  let fine (lo n k : Nat) : Option Int :=
    if bits w lo n = 2 ^ (n - 1) then none else some ((rough * 524288 : Nat) + k * signed n (bits w lo n))
  { key := (sys, svid, bits w 0 5), half := bitAt w 5, cn0 := 20 + bits w 6 5, lock := bits w 11 3, pr := fine 14 14 64, cp := fine 28 20 1 }

/-- The cells of one satellite block; `none` where one has a reserved signal ID, or the payload ends. -/
def rawCells (b : List Byte) (sys svid rough : Nat) : Nat → Nat → Option (List RawCell)
  | 0, _ => some []
  | k + 1, o =>
    if b.length < o + 6 || 16 ≤ leAt b o 1 % 32 then none
    else (rawCells b sys svid rough k (o + 6)).map fun l => rawCell sys svid rough (leAt b o 6) :: l

/-- The satellite blocks of a payload from offset `o` (R147): the cells, and the offset where they end. -/
def rawBlocks (b : List Byte) : Nat → Nat → Option (List RawCell × Nat)
  | 0, o => some ([], o)
  | k + 1, o =>
    if b.length < o + 4 then none
    else
      let w := leAt b o 4
      let n := bits w 24 4
      if n = 0 || bits w 28 4 ≠ 0 || bits w 2 6 = 0 then none
      else
        match rawCells b (bits w 0 2) (bits w 2 6) (bits w 8 16) n (o + 4), rawBlocks b k (o + 4 + 6 * n) with
        | some c, some (l, e) => some (c ++ l, e)
        | _, _ => none

/-- A well-formed `RAW_OBS` payload (R146-R148): its cells, short `T_OBS` and odometry speed. -/
def parseRawObs (b : List Byte) : Option (List RawCell × Nat × Int) :=
  let nsat := leAt b 1 1
  let nsig := leAt b 2 1
  if leAt b 0 1 ≠ 1 || nsat = 0 || 32 < nsat || nsig = 0 || 40 < nsig || leAt b 3 1 ≠ 0 || 352 < b.length then none
  else
    match rawBlocks b nsat 12 with
    | some (cells, e) => if cells.length = nsig && e = b.length then some (cells, leAt b 4 6, leAtS b 10 2) else none
    | none => none

/-- The grid instant nearest to `t` of a report interval in units of 100 ms (R145). -/
def gridNear (tRep : Nat) (t : NT) : NT :=
  let f := 10 / tRep
  let a := epochTick f (epochIndex f t)
  let b := nextEpoch f t
  if ntSince t a ≤ ntSince b t then a else b

/-- Satellites of a frame that share a signal with a base epoch (R150), under the slot's mask (R151). -/
def Dev.sharedSats (s : Dev) (i : Nat) (cells : List RawCell) (base : List BaseCell) : Nat :=
  (((s.maskedCells i cells).filter fun c => base.any fun b => b.key == c.key).map fun c => (c.key.1, c.key.2.1)).eraseDups.length

/-! ### Engines -/

/-- Engines busy with an epoch or a search, and the lowest free one in service. -/
def Dev.engBusy (s : Dev) (e : Nat) : Bool :=
  s.frk.queue.any (fun (x : FrkEpoch) => x.eng == some e) ||
    s.frk.slots.any fun p => match p.2.search with | .running k _ _ => k == e | _ => false
def Dev.freeEng (s : Dev) : Option Nat := (List.range 8).find? fun e => !s.frk.retired.contains e && !s.engBusy e

/-- Large searches running. -/
def Dev.searches (s : Dev) : Nat :=
  (s.frk.slots.filter fun p => match p.2.search with | .running _ _ _ => true | _ => false).length

/-- Granted searches begin while fewer than `LARGE_MAX` run and an engine is free that no epoch waits for (R156). -/
def Dev.startSearches (s : Dev) : Dev :=
  (s.frk.slots.map (·.1)).foldl (fun s i =>
    let x := s.frkSlot i
    if x.search != .granted || s.frk.queue.any (fun (q : FrkEpoch) => q.eng.isNone) || s.fld (0x7014, 24, 2) ≤ s.searches then s
    else match s.freeEng with
      | some e => (s.setFrkSlot i { x with search := .running e s.nt false }).cntSat (0x7064, 0, 16)
      | none => s) s

/-- An epoch is skipped (R165). -/
def Dev.skipEpoch (s : Dev) (q : FrkEpoch) : Dev :=
  let s := { s with frk := { s.frk with queue := s.frk.queue.filter fun (x : FrkEpoch) => x != q } }
  ((s.setFrkSlot q.slot { s.frkSlot q.slot with skipped := true, prevDone := false }).frkServed q.slot).cntSat (0x7060, 0, 16)

/-- An engine retires (R166): what it works on is discarded. -/
def Dev.retireEng (s : Dev) (e : Nat) : Dev :=
  if 8 ≤ e || s.frk.retired.contains e then s
  else
    let s := { s with frk := { s.frk with retired := e :: s.frk.retired } }
    let s := (s.frk.queue.filter fun (q : FrkEpoch) => q.eng == some e).foldl (fun s q => s.skipEpoch q) s
    let s := (s.frk.slots.map (·.1)).foldl (fun s i =>
      let x := s.frkSlot i
      match x.search with
      | .running k _ _ =>
        if k = e then (s.setFrkSlot i { x with search := .none_, hunt := none, noLeaveAt := some s.nt }).returnLeave (.largeSearch i) else s
      | _ => s) s
    s.raise 0x50

/-- Has a robot stood still long enough for class 1 of R165? -/
def Dev.standsStill (s : Dev) (i : Nat) : Bool :=
  let z := match (s.ctl.zeroSince.find? fun p => p.1 == i).map (·.2) with
    | some t => decide (tickHz ≤ ntSince s.nt t)
    | none => false
  let v := match (s.frkSlot i).pos with
    | some r => decide (r.ve * r.ve + r.vn * r.vn ≤ 2500)
    | none => false
  z && v

/-- The queued epoch that R165 skips: waiting epochs are held in the order of their arrival. -/
def Dev.victim (s : Dev) : Option FrkEpoch :=
  let w := s.frk.queue.filter fun (q : FrkEpoch) => q.eng.isNone
  let c1 := w.find? fun q => (s.lease q.slot).st = .admitting || s.standsStill q.slot
  let c2 := w.find? fun q => (s.lease q.slot).tRep = 1 && (s.frkSlot q.slot).prevDone
  let pub (q : FrkEpoch) : NT := match (s.frkSlot q.slot).rec_ with | some r => r.tPub | none => 0
  let c3 := w.foldl (fun (m : Option FrkEpoch) q => match m with
    | some x => if ntAfter (pub q) (pub x) then some q else m
    | none => some q) none
  c1.or (c2.or c3)

/-! ### Grades (R125, R157) -/

/-- A snapshot position younger than `SNAP_AGE`. -/
def Dev.freshSnap (s : Dev) (i : Nat) : Bool :=
  match (s.rover i).pos with
  | some p => decide (ntSince s.nt p.t < s.fld (0x701C, 8, 8) * tickHz)
  | none => false

/-- The computed grade of a solution (R155, R157); the protection levels are in um. -/
def Dev.computedGrade (s : Dev) (i : Nat) (x : Solved) : Nat :=
  if (s.frkSlot i).prof.fixMode ≠ 3 && !x.wrong && s.fld (0x7014, 8, 6) ≤ x.nfix && x.protFix ≤ 50000 then 4
  else if 5 ≤ x.ncar && x.protFlt ≤ 300000 then 3
  else if 5 ≤ x.ncode && x.protFlt ≤ 1000000 then 2
  else if s.freshSnap i then 1 else 0

/-- The published grade (R125): the lower of the station's column and the receiver's. -/
def Dev.publishedGrade (s : Dev) (i g : Nat) : Nat :=
  let byStation := match s.station with
    | 0 => g
    | 1 => min g 3
    | _ => if 3 ≤ g then 2 else min g 1
  let bySus := if g = 0 then b2n (s.rover i).pos.isSome else 1
  if (s.rover i).rx ≠ 2 then byStation
  else if s.station = 0 then bySus else min byStation bySus

/-! ### Projection (R189, R190) -/

/-- The nearest point of a route to `p` between two route coordinates in mm; `at_` is where the first hop starts. -/
def Graph.nearRoute (g : Graph) (p : Pt) : List (Nat × Bool) → Int → Int → Int → Option Near → Option Near
  | [], _, _, _, m => m
  | h :: t, at_, lo, hi, m =>
    match g.seg? h.1 with
    | none => Graph.nearRoute g p t at_ lo hi m
    | some x =>
      let n : Int := (10 * x.len : Nat)
      let a := max 0 (lo - at_)
      let b := min n (hi - at_)
      let pts := if h.2 then x.um.reverse else x.um
      let ps := if b < a then [] else cutPieces (piecesOf pts) 0 (1000 * a).toNat (if b = n then 2 ^ 40 else (1000 * b).toNat)
      let r := ps.foldl (fun (acc : Option Near × Int) q =>
        (Near.best acc.1 (nearPiece p q acc.2), acc.2 + ((ptLen (ptSub q.2 q.1) / 1000 : Nat) : Int))) (m, at_ + a)
      Graph.nearRoute g p t (at_ + n) lo hi r.1

/-- Reference position of the planned profile at `t` (R190). -/
def TrlRobot.sPlan (x : TrlRobot) (t : NT) : Option Int := (x.refAt t).map Kin.sLo

/-- An incremental re-plan of a robot at the next planning epoch (R190). -/
def Dev.askIncr (s : Dev) (i : Nat) : Dev := s.setRob i { s.rob i with replan := true }

/-- Project a record with a position and judge it (R189, R190). A record without a route point in the window of its search is OFF_ROUTE,
and leaves the coordinate of the last projection. -/
def Dev.project (s : Dev) (i : Nat) (r : PosRec) : Dev :=
  let x := s.rob i
  let x := { x with grade := if r.pub = 0 then x.grade else some r.pub }
  match s.trl.graph, x.route with
  | some g, some rt =>
    let len : Int := (10 * g.hopsLen rt.hops : Nat)
    let lo : Int := match x.proj with | some p => p.s - 10000 | none => 0
    let hi : Int := match x.sGrant with | some e => e + 10000 | none => len
    let p : Pt := (r.e * 1000, r.n * 1000)
    let near := g.nearRoute p rt.hops 0 lo hi none
    let at_ (s e v : Int) : Proj := { s, e, v, grade := r.pub, tObs := r.tObs, pe := r.e, pn := r.n,
                                      speed := isqrtUp (r.ve * r.ve + r.vn * r.vn).toNat }
    let proj := match near with
      | some n =>
        let d := ptLen n.dir
        at_ n.s n.e (if d = 0 then 0 else (r.ve * n.dir.1 + r.vn * n.dir.2) / (d : Int))
      | none => (match x.proj with | some q => at_ q.s q.e q.v | none => at_ 0 0 0)
    let mq := s.margin (max 1 r.pub)
    let off := near.isNone || decide (10 * s.fld (0x801C, 0, 16) + mq < proj.e.natAbs)
    let along : Int := match x.sPlan r.tObs with | some q => proj.s - q | none => 0
    let dev := !off && (decide (10 * s.fld (0x8018, 0, 16) + mq < along.natAbs) || decide (10 * s.fld (0x8018, 16, 16) + mq < proj.e.natAbs))
    let first := x.judged.isNone || x.judged = some 0
    let s := s.setRob i { x with proj := some proj, offRoute := x.offRoute || off, deviated := dev,
                                 offTxn := if off && !x.offRoute then false else x.offTxn,
                                 judged := some (if off then 2 else b2n dev) }
    if off then
      ((s.pruneAll i).directedStop (robotAddr i) (s.lease i).epoch 7 s.nt).raise 0x61
    else if dev then
      let s := (s.pruneAll i).askIncr i
      if first then (s.event 0x0801 (leBytes i 1 ++ [0, 0, 0] ++ leBytes (unsigned 32 along) 4 ++
        leBytes (unsigned 32 proj.e) 4)).raise 0x62 else s
    else s
  | _, _ => s.setRob i x

/-! ### Admission (R21) -/

/-- Is a position inside the admission area? Its nearest point on the segment lies in the area's range, and it lies within
the segment's half width (DEDUCED, log entry 23). -/
def Dev.inAdmission (s : Dev) (i : Nat) (e n : Int) : Bool :=
  match s.trl.graph.bind fun g => g.seg? (s.lease i).area.1 with
  | none => false
  | some x =>
    let l := s.lease i
    match x.near (e * 1000, n * 1000) with
    | some m =>
      decide ((10 * l.area.2.1 : Nat) - (10 * l.padded : Nat) ≤ m.s) && decide (m.s ≤ (10 * (l.area.2.2 + l.padded) : Nat)) &&
        decide (m.e.natAbs ≤ 10 * x.hw)
    | none => false

/-- ADMISSION_CONFIRMED (R21): the lease becomes ACTIVE, its admission command completes and `CONFIRM` is sent. -/
def Dev.confirmAdmission (s : Dev) (i : Nat) (r : PosRec) : Dev :=
  let l := s.lease i
  if l.st = .admitting && l.reported && 3 ≤ r.pub && !r.noPos && s.inAdmission i r.e r.n then
    let s := (s.setLease i { l with st := .active, handle := none }).persist i
    let s := s.envelope i s.nt false
    (s.doneOpt l.handle stOK []).sendConfirm i
  else s

end Sys2Proof.Machine
end

