-- ==== Sys2Proof/Machine/Frk.lean ====
section
/-! DEFINITION. The rows of the fleet RTK array (R145-R172). -/
namespace Sys2Proof.Machine

def stSlotLive : Nat := 0x0301
def stSuperseded : Nat := 0x0302
def stConverge : Nat := 0x0303

/-- Count a discarded frame (R149) in its field of `FRK_STAT1`. -/
def Dev.discardObs (s : Dev) (lo : Nat) : Dev := s.cntSat (0x705C, lo, 8)

/-- Orders 2 to 7 of R149 on a counted frame. The bounds of orders 4 to 6 are exact: a difference passes while it is no longer than they
are. -/
def Dev.takeRawObs (s : Dev) (i : Nat) (rx : NT) (b : List Byte) : Dev :=
  match parseRawObs b with
  | none => s.discardObs 0
  | some (cells, short, odo) =>
    let x := s.frkSlot i
    let t := expandNt rx short
    let g := gridNear (s.lease i).tRep t
    let early := match s.tim.stepBeacon with | some a => ntAfter a t | none => false
    if match x.newest with | some n => !ntAfter t n | none => false then s.discardObs 8
    else if fullTicks 1 1000 < max (ntSince t g) (ntSince g t) then s.discardObs 16
    else if fullTicks 2 1000 < ntSince t rx || tickHz < ntSince rx t || early then s.discardObs 16
    else
      match s.gns.held.find? fun (e : HeldEpoch) => e.t == g && decide (ntSince s.nt e.t ≤ 2 * tickHz) with
      | none => (s.discardObs 24).raise 0x54
      | some e =>
        let five := decide (5 ≤ s.sharedSats i cells e.cells)
        let s := s.setFrkSlot i { x with newest := some t, obs := ((t, cells) :: x.obs).take 64
                                         st := if x.st = .waiting && five then .running else x.st }
        { s with frk := { s.frk with queue := s.frk.queue ++ [{
          slot := i, tObs := t, rx, at_ := s.nt, odo, five, grid := g, cells, base := e.cells, baseSeq := s.gns.baseSeq
          basePos := s.antPos s.gns.refAnt }] } }

/-- RAW_OBS (R21, R149): the frame counts for its lease, whatever the filter then does with it. -/
def execRawObs (dt : Nat) (s : State) : Host.Outcome State Fault Refusal := s.act fun s =>
  let s := s.tick dt
  match s.takeItem fun (x : RxItem) => x.q == 24 with
  | none => s
  | some (m, s) =>
    match s.robotOf (frSrc m.frame) with
    | none => s
    | some i =>
      let ep := frEpoch m.frame
      if s.older i ep then s.zombieFrame i m.frame
      else if !s.counts i ep then s
      else
        let n := frLen m.frame - (if frRep m.frame then 46 else 0);
        (s.countReport i m.rx true).takeRawObs i m.rx (slice m.frame 22 n)

/-- The filter after a reset of its ambiguities alone (R167). -/
def Filt.dropAmbs (f : Filt) (prSigma : Nat) : Filt :=
  { f with flt := f.flt.map fun (x : FltState) => { x with ambs := [], cov := Config.widened ((x.cov.take 6).map fun r => r.take 6) prSigma }
           fixes := [], locks := [], ratio := 0 }

/-- Apply a reset that waits, before the slot's next epoch (R167). -/
def Dev.applyReset (s : Dev) (i : Nat) : Dev :=
  match (s.frkSlot i).reset with
  | some r =>
    if r.applied then s
    else
      let s := if r.scope = 2 then s.frkReset i .waiting
        else s.setFrkSlot i { s.frkSlot i with filt := (s.frkSlot i).filt.dropAmbs (s.fld (0x7018, 8, 8)) }
      let s := s.setFrkSlot i { s.frkSlot i with reset := some { r with applied := true } }
      if r.wait = 0 then s.endReset i stOK else s
  | none => s

/-- ENGINE_DISPATCH (R152, R163): a free engine takes the epoch that has waited longest. -/
def execEngineDispatch (dt : Nat) (s : State) : Host.Outcome State Fault Refusal := s.act fun s =>
  let s := s.tick dt
  match s.frk.queue.find? (fun (q : FrkEpoch) => q.eng.isNone), s.freeEng with
  | some q, some e =>
    let s := s.applyReset q.slot
    { s with frk := { s.frk with
      queue := s.frk.queue.map (fun (x : FrkEpoch) => if x = q then { x with eng := some e } else x)
      lastWait := if fullTicks 500 1000000 < ntSince s.nt q.at_ then s.nt else s.frk.lastWait } }
  | _, _ => s

/-- EPOCH_SKIP (R165): the next waiting epoch reaches 1.00 ms and no engine is free; the array skips one queued epoch. -/
def execEpochSkip (s : State) : Host.Outcome State Fault Refusal := s.act fun s =>
  match s.frk.queue.find? (fun (q : FrkEpoch) => q.eng.isNone && !q.late), s.freeEng with
  | some q, none =>
    let s := s.tickTo (ntAdd q.at_ (msTicks 1))
    let was := s.frk.overload
    let s := { s with frk := { s.frk with overload := true, lastWait := s.nt
                                          queue := s.frk.queue.map fun (x : FrkEpoch) => if x = q then { x with late := true } else x } }
    let s := match s.victim with | some v => s.skipEpoch v | none => s;
    (if was then s else (s.raiseLevel 0x51).event 0x0701 (leBytes (s.fld (0x7060, 0, 16)) 4))
  | _, _ => s.begin

/-- OVERLOAD_END (R165). -/
def execOverloadEnd (s : State) : Host.Outcome State Fault Refusal := s.act fun s =>
  if !s.frk.overload then s.begin
  else
    let s := s.tickTo (ntAdd s.frk.lastWait ((10 * tickHz : Nat) : Int));
    ({ s with frk := { s.frk with overload := false } }).fallLevel 0x51

/-- A position record as 80 bytes (R159). -/
def PosRec.bytes (r : PosRec) : List Byte :=
  leBytes r.slot 1 ++ leBytes (r.pub + 8 * r.comp + 64 * b2n r.snapPos + 128 * b2n r.skipped) 1 ++ leBytes r.epoch 2 ++
    leBytes r.nsat 1 ++ leBytes r.nfix 1 ++ leBytes r.namb 1 ++ leBytes r.ratio 1 ++ leBytes r.tObs.toNat 8 ++
    leBytes (unsigned 32 r.e) 4 ++ leBytes (unsigned 32 r.n) 4 ++ leBytes (unsigned 32 r.u) 4 ++
    leBytes (satSigned 16 r.ve) 2 ++ leBytes (satSigned 16 r.vn) 2 ++ leBytes (satSigned 16 r.vu) 2 ++
    leBytes r.sdE 2 ++ leBytes r.sdN 2 ++ leBytes r.sdU 2 ++ leBytes r.prot 2 ++ leBytes r.baseSeq 1 ++
    leBytes (b2n r.noPos + 2 * b2n r.part + 4 * b2n r.reinit) 1 ++ leBytes r.latency 2 ++ [0, 0] ++
    leBytes (unsigned 64 r.x) 8 ++ leBytes (unsigned 64 r.y) 8 ++ leBytes (unsigned 64 r.z) 8 ++ leBytes r.tPub.toNat 8

/-- Host delivery (R161): the circular buffer of 80-byte records from `FRK_POSBUF_LO` and `_HI`, its counts and its message. -/
def Dev.posToHost (s : Dev) (r : PosRec) : Dev :=
  if !s.flag (0x7048, 31, 1) then s
  else
    let size := 2 ^ s.fld (0x7048, 0, 5)
    let wr := (s.reg 0x704C).toNat
    let used := (wr + 2 ^ 32 - (s.reg 0x7050).toNat) % 2 ^ 32
    let base := (s.reg 0x7040).toNat + 4294967296 * (s.reg 0x7044).toNat
    let s := if size ≤ used then s.cntSat (0x7060, 16, 16) else s
    let s := (s.emit (.stream 1 (base + 80 * (wr % size)) r.bytes)).setReg 0x704C (BitVec.ofNat 32 (wr + 1))
    let n := s.frk.posSince + 1
    if s.fld (0x7054, 0, 12) ≤ n then
      ({ s with frk := { s.frk with posSince := 0 } }).sendMsix (s.fld (0x7054, 16, 6))
    else { s with frk := { s.frk with posSince := n } }

/-- A coordinate of a solution, to the nearest whole unit. -/
def Gauss.int3 (g : Gauss) (i : Nat) : Vec3 := (roundR (g.at_ i), roundR (g.at_ (i + 1)), roundR (g.at_ (i + 2)))

/-- The solution a grade publishes (R157): the fixed one at FIXED, the float one otherwise. -/
def Solved.best (x : Solved) (comp : Nat) : Gauss := if comp = 4 then x.fixGauss else x.floatGauss

/-- East-north-up velocity in um/s. -/
def Dev.velOf (s : Dev) (g : Gauss) : Vec3 := ecefToEnu s.siteOrigin (g.int3 3)

/-- The record of a solved epoch (R157-R160). A snapshot position stands beside the velocity, the deviations and `PROT` of the solution
(DEDUCED, log entry 109). -/
def Dev.makeRecord (s : Dev) (q : FrkEpoch) (x : Solved) : PosRec :=
  let i := q.slot
  let comp := s.computedGrade i x
  let pub := s.publishedGrade i comp
  let snap := (s.rover i).rx = 2 || comp = 1
  let sp := (s.rover i).pos
  let noPos := (snap && sp.isNone) || (!snap && comp = 0)
  let base : PosRec :=
    { slot := i, pub, comp, snapPos := snap && sp.isSome, skipped := (s.frkSlot i).skipped, epoch := (s.lease i).epoch
      nsat := sat 8 x.nsat, nfix := sat 8 x.nfix, namb := sat 8 x.namb, ratio := x.filt.ratio, tObs := q.tObs
      e := 0, n := 0, u := 0, ve := 0, vn := 0, vu := 0, sdE := 0, sdN := 0, sdU := 0, prot := 0
      baseSeq := q.baseSeq, noPos, part := decide (x.nfix < x.namb), reinit := x.reinit
      latency := sat 16 (ntSince s.nt q.rx * 1000000 / tickHz), x := 0, y := 0, z := 0, tPub := s.nt }
  if noPos then base
  else
    let g := x.best comp
    let um (v : Int) : Int := nearest v 1000
    let v := s.velOf g
    let b := g.int3 0
    let p := addPos q.basePos (nearest b.1 100, nearest b.2.1 100, nearest b.2.2 100)
    let ax := enuAxes s.siteOrigin
    let sd (a : Vec3) : Nat := sat 16 (ceilDiv (sdOf (posCov g a a)) 1000)
    let site := ecefToEnu s.siteOrigin (subPos p s.siteOrigin)
    let at_ : PosRec :=
      { base with ve := um v.1, vn := um v.2.1, vu := um v.2.2, sdE := sd ax.1, sdN := sd ax.2.1, sdU := sd ax.2.2
                  prot := sat 16 (ceilDiv (if comp = 4 then x.protFix else x.protFlt) 10000) }
    match snap, sp with
    | true, some o => { at_ with e := o.e, n := o.n, u := o.u, x := o.x, y := o.y, z := o.z }
    | _, _ => { at_ with e := nearest site.1 10, n := nearest site.2.1 10, u := nearest site.2.2 10, x := p.1, y := p.2.1, z := p.2.2 }

/-- A wait on a reset that the record's grade ends (R167). -/
def Dev.resetReached (s : Dev) (i pub : Nat) : Dev :=
  match (s.frkSlot i).reset with
  | some r => if r.applied && ((r.wait = 1 && 3 ≤ pub) || (r.wait = 2 && pub = 4)) then s.endReset i stOK else s
  | none => s

/-- A request for a large search (R156). -/
def Dev.askSearch (s : Dev) (q : FrkEpoch) (want : Hunt) : Dev :=
  let x := s.frkSlot q.slot
  let quiet := match x.noLeaveAt with | some t => decide (tickHz ≤ ntSince s.nt t) | none => true
  if x.search = .none_ && 0 < s.fld (0x7014, 24, 2) && !s.frk.overload && quiet then
    (s.setFrkSlot q.slot { x with search := .asked, hunt := some want }).askLeave 3 (10 * s.fld (0x7020, 0, 11))
      (msTicks (s.fld (0x7020, 16, 8))) (ntAdd q.tObs (msTicks (10 * s.fld (0x7020, 24, 8)))) (.largeSearch q.slot)
  else s

/-- ODO_MISMATCH (R162): the fifth epoch in a row whose solved horizontal speed and odometry speed, in um/s, differ by more than 0.5 m/s;
an epoch that is not compared ends the row (DEDUCED, log entry 69). -/
def Dev.judgeOdo (s : Dev) (q : FrkEpoch) (r : PosRec) (x : Solved) : Dev :=
  let sl := s.frkSlot q.slot
  if q.odo = -32768 || r.pub < 3 then s.setFrkSlot q.slot { sl with odoRun := 0 }
  else
    let v := s.velOf (x.best r.comp)
    let v2 : Int := v.1 * v.1 + v.2.1 * v.2.1
    let odo : Int := 1000 * (q.odo.natAbs : Int)
    let off := decide ((odo + 500000) * (odo + 500000) < v2) || (decide (500000 < odo) && decide (v2 < (odo - 500000) * (odo - 500000)))
    let n := if off then sl.odoRun + 1 else 0
    let s := s.setFrkSlot q.slot { sl with odoRun := n }
    if n = 5 then (s.raise 0x55).note 0x455 q.slot [] else s

/-- A published record enters its slot: the last record, the last position, the filter the epoch leaves, and the large search. -/
def Dev.keepSolved (s : Dev) (q : FrkEpoch) (x : Solved) (r : PosRec) : Dev :=
  let sl := s.frkSlot q.slot
  let sl := { sl.hold r ((s.rover q.slot).rx == 2) with
    skipped := false, prevDone := true
    fixSpeed2 := if r.pub = 4 then (r.ve * r.ve + r.vn * r.vn).toNat else sl.fixSpeed2 }
  s.setFrkSlot q.slot (if q.kept.isSome then sl else
    { sl with st := if sl.st = .waiting && q.five then .running else sl.st, filt := x.filt
              search := if sl.search = .found then .none_ else sl.search, hunt := if sl.search = .found then none else x.hunt })

/-- POSITION_RECORD (R153-R162): the engine `eng` finishes its epoch; the record goes to the Trellis, the lease and the host in
the same step. -/
def execPositionRecord (dt eng : Nat) (s : State) : Host.Outcome State Fault Refusal := s.act fun s =>
  let s := s.tick dt
  match s.frk.queue.find? fun (q : FrkEpoch) => q.eng == some eng with
  | none => s
  | some q =>
    let i := q.slot
    let s := { s with frk := { s.frk with queue := s.frk.queue.filter fun (y : FrkEpoch) => y != q } }
    let old := s.frkSlot i
    let gap := match old.filt.lastProc with | some t => decide (10 * tickHz < ntSince q.tObs t) | none => false
    let s := if gap && q.kept.isNone then s.frkReset i (if old.st = .running then .waiting else old.st) else s
    let x := s.solve q
    let s := if x.wrong then (s.raise 0x53).note 0x454 i [] else s
    let r := s.makeRecord q x
    let lost := match old.rec_ with | some p => p.pub = 4 && p.epoch = r.epoch && r.pub < 4 && 2500 < old.fixSpeed2 | none => false
    let s := ((s.keepSolved q x r).setReg 0x7058 (s.reg 0x7058 + 1)).note (0x200 + i) r.prot []
    let s := s.note 0x453 r.latency []
    let s := if lost then s.raise 0x52 else s
    let s := s.posToHost r
    let s := if r.noPos then s else s.project i r
    let s := ((s.confirmAdmission i r).judgeOdo q r x).resetReached i r.pub
    let s := match q.kept, x.want with | none, some h => s.askSearch q h | _, _ => s;
    (s.frkServed i).startSearches

/-! ### Engines and searches -/

/-- The slot whose large search an engine runs. -/
def Dev.searchOn (s : Dev) (eng : Nat) : Option (Nat × NT × Bool) :=
  (s.frk.slots.find? fun p => match p.2.search with | .running e _ _ => e == eng | _ => false).bind fun p =>
    match p.2.search with | .running _ t d => some (p.1, t, d) | _ => none

/-- LARGE_SEARCH_DONE (R156): a found result waits for the slot's next epoch; one whose slot was reset is discarded. -/
def execLargeSearchDone (dt eng : Nat) (s : State) : Host.Outcome State Fault Refusal := s.act fun s =>
  let s := s.tick dt
  match s.searchOn eng with
  | some (i, _, dropped) =>
    let x := s.frkSlot i
    let s := s.setFrkSlot i (if dropped then { x with search := .none_ } else { x with search := .found, hunt := x.hunt.map Hunt.solve });
    (s.returnLeave (.largeSearch i)).startSearches
  | none => s

/-- LARGE_SEARCH_ABANDON (R156): after `LARGE_MS`. -/
def execLargeSearchAbandon (eng : Nat) (s : State) : Host.Outcome State Fault Refusal := s.act fun s =>
  match s.searchOn eng with
  | some (i, t, _) =>
    let s := s.tickTo (ntAdd t (msTicks (s.fld (0x7020, 16, 8))))
    let s := s.setFrkSlot i { s.frkSlot i with search := .none_, hunt := none };
    (s.returnLeave (.largeSearch i)).startSearches
  | none => s.begin

/-- ENGINE_FAULT (R166). -/
def execEngineFault (dt eng : Nat) (s : State) : Host.Outcome State Fault Refusal := s.act fun s => (s.tick dt).retireEng eng

/-! ### Resets and profiles -/

/-- RTK_RESET_PROGRESS (R167): every second of a wait. -/
def execRtkResetProgress (i : Nat) (s : State) : Host.Outcome State Fault Refusal := s.act fun s =>
  let x := s.frkSlot i
  match x.reset with
  | some r =>
    if r.wait = 0 then s.begin
    else
      let s := s.tickTo r.nextProg
      let s := s.setFrkSlot i { x with reset := some { r with nextProg := ntAdd r.nextProg (tickHz : Nat) } }
      let (g, p) := match x.rec_ with | some c => (c.pub, c.prot) | none => (0, 0)
      s.progress r.handle 1 (leBytes g 1 ++ [0] ++ leBytes p 2)
  | none => s.begin

/-- RTK_RESET_TIMEOUT (R167). -/
def execRtkResetTimeout (i : Nat) (s : State) : Host.Outcome State Fault Refusal := s.act fun s =>
  match (s.frkSlot i).reset with
  | some r => if r.wait = 0 then s.begin else (s.tickTo r.until_).endReset i stConverge
  | none => s.begin

/-- RTK_ADMIT_ROVER (R151). -/
def execRtkAdmitRover (h : Nat) (s : State) : Host.Outcome State Fault Refusal := s.act fun s =>
  s.command h 0x30 fun l s =>
    let i := l.p 8 1
    let mask := l.p 0 2
    let mode := l.p 9 1
    match firstBad (roverEnc l.p) with
    | some o => s.refuse h stBadDesc (some o)
    | none =>
      let prof : RoverProfile := { antH := l.p 2 2, accH := l.p 4 2, accV := l.p 6 2, mask := some mask, fixMode := mode }
      match (s.lease i).st with
      | .active | .suspect => s.done h stSlotLive []
      | .admitting =>
        let s := s.setFrkSlot i { s.frkSlot i with prof, profNext := none }
        (s.frkReset i .waiting).done h stOK []
      | _ => (s.setFrkSlot i { s.frkSlot i with profNext := some prof }).done h stOK []

/-- RTK_RESET_ROVER (R167): an epoch in service is discarded unpublished; a reset that waits is superseded. -/
def execRtkResetRover (h : Nat) (s : State) : Host.Outcome State Fault Refusal := s.act fun s =>
  s.command h 0x31 fun l s =>
    let i := l.p 0 1
    let wait := l.p 2 1
    match firstBad (resetEnc l.p) with
    | some o => s.refuse h stBadDesc (some o)
    | none =>
      match (s.lease i).st with
      | .admitting | .active | .suspect =>
        let s := s.endReset i stSuperseded
        let s := { s with frk := { s.frk with queue := s.frk.queue.filter fun (q : FrkEpoch) => !(q.slot == i && q.eng.isSome) } }
        s.setFrkSlot i { s.frkSlot i with reset := some {
          handle := h, scope := l.p 1 1, wait, until_ := ntAdd s.nt ((l.p 4 2 * tickHz : Nat) : Int)
          nextProg := ntAdd s.nt (tickHz : Nat) } }
      | _ => s.done h stStale (offsetRes none)

end Sys2Proof.Machine
end

