-- ==== Sys2Proof/Machine/HostIf.lean ====
section
/-! DEFINITION. The host interface (R364-R389): doorbells, the fetch and judging of submissions, rings coming and
going, the hold buffer, MSI-X, the host watchdog, the resets of the interface, `NOP`, `FENCE` and received data. -/
namespace Sys2Proof.Machine

/-- A doorbell or a heartbeat arrives (R384): the watchdog starts again and `HOST_SILENT` clears. -/
def Dev.feedHost (s : Dev) : Dev :=
  ({ s with hif := { s.hif with fed := s.up, silent := false } }).fallLevel 0x7E

/-- Write an `EVENT` to CQ 0 whatever the map says (R371). -/
def Dev.eventCq0 (s : Dev) (code : Nat) (res : List Byte) : Dev :=
  let (s, lost) := s.cqOffer 0 (eventEntry s.nt code res)
  if lost then s.raise 0x7D else s

/-- Stop a submission ring with an error (R371, R372): `EN` clears, `ERR` is recorded, source 0x7C, event 0x0201. -/
def Dev.ringError (s : Dev) (r err : Nat) : Dev :=
  let s := (s.setFld (sqEn r) 0).setSq r { s.sq r with err }
  ((s.cntSat (0x2044, 16, 16)).raise 0x7C).eventCq0 0x0201 (leBytes r 1 ++ leBytes err 1)

/-- SQ_TAIL (R371). -/
def execSqTail (dt r : Nat) (v : Reg) (s : State) : Host.Outcome State Fault Refusal := s.act fun s =>
  let s := (s.tick dt).feedHost
  if 32 ≤ r || !s.flag (sqEn r) then s
  else if s.sqSize r ≤ v.toNat then s.ringError r 3
  else s.setSq r { s.sq r with tail := v.toNat }

/-- CQ_HEAD (R371): consume entries up to the slot before the value, or refuse a value outside the written range. -/
def execCqHead (dt r : Nat) (v : Reg) (s : State) : Host.Outcome State Fault Refusal := s.act fun s =>
  let s := (s.tick dt).feedHost
  if 32 ≤ r || !s.flag (cqEn r) then s
  else
    let q := s.cq r
    let size := s.cqSize r
    let n := (v.toNat + size - q.head) % size
    if size ≤ v.toNat || q.ring.length < n then (s.setCq r { q with badHead := true }).raise 0x7C
    else s.setCq r { q with head := v.toNat, ring := q.ring.drop n }

/-- Can an entry of a submission ring be fetched now (R372)? -/
def Dev.fetchable (s : Dev) (r : Nat) : Bool :=
  s.hif.ready && s.hif.bme && s.flag (sqEn r) && (s.sq r).head != (s.sq r).tail &&
    s.flag (cqEn (s.fld (sqCq r))) && decide (2 + s.cqLive (s.fld (sqCq r)) ≤ s.cqFree (s.fld (sqCq r)))

/-- The ring whose turn it is: round-robin over those with an entry that can be fetched (R372). -/
def Dev.turn (s : Dev) : Option Nat :=
  ((List.range 32).map fun k => (s.hif.rr + k) % 32).find? fun r => s.fetchable r

/-- The next sequence number after `n` whose handle is not live (R376); `base` is what the ring's handles have above it. -/
def freeSeq (live : List Live) (base : Nat) : Nat → Nat → Nat
  | 0, n => n
  | k + 1, n =>
    if live.any fun l => l.handle == base + n
    then freeSeq live base k (if n + 1 = 0x1000000 then 1 else n + 1) else n

/-- The commands of boot hold (R476). -/
def holdOps : List Nat := [0x01, 0x02, 0xA0, 0xA2, 0xB0, 0xB1, 0xB2, 0xB3, 0xB4, 0xB5]

/-- Accept one entry (R372-R377): it takes a handle, its `ACCEPT` is written, and orders 1 to 4 of R377 judge it. During a
planned handover it ends with `PAIR_DEMOTED` (R508); in boot hold only those of R476 run. -/
def Dev.accept (s : Dev) (r : Nat) (e : List Byte) (sges sges2 : List (Nat × Nat)) : Dev :=
  let q := s.sq r
  let base := s.hif.gen * 2 ^ 32 + r * 0x1000000
  let seq := freeSeq s.hif.live base (s.hif.live.length + 1) q.seq
  let h := base + seq
  let op := leAt e 0 1
  let c := s.fld (sqCq r)
  let head := (q.head + 1) % s.sqSize r
  let l : Live := { handle := h, sq := r, cq := c, tag := leAt e 4 4, op, entry := slice e 0 64,
                    order := s.hif.nextOrder, openEnded := openEnded op e }
  let s := s.setSq r { q with head, seq := if seq + 1 = 0x1000000 then 1 else seq + 1 }
  let s := { s with hif := { s.hif with live := s.hif.live ++ [l], nextOrder := s.hif.nextOrder + 1,
                                        rr := (r + 1) % 32 } }
  let s := (s.cntWrap (0x2044, 0, 16)).cqWrite c
    { kind := .accept, op, handle := h, mid := leBytes l.tag 4 ++ leBytes head 2 ++ [0, 0], result := res16 [] }
  match judgeEntry s.fuse.big (slice e 0 64) sges sges2 with
  | none =>
    if s.par.hand.isSome then s.done h 0x0D07 []
    else if s.saf.run = .boot && !holdOps.contains op then s.refuse h stBusy none
    else s
  | some (code, o) => s.done h code (if code = stEmpty then [] else leBytes o 4)

/-- SUBMISSION_FETCH (R372). It takes place only for the ring whose turn it is. -/
def execSubmissionFetch (dt sq : Nat) (entry : Option (List Byte)) (sges sges2 : List (Nat × Nat)) (s : State) :
    Host.Outcome State Fault Refusal := s.act fun s =>
  let s := s.tick dt
  if s.turn != some sq then s
  else
    match entry with
    | none => s.ringError sq 4
    | some e => s.accept sq e sges sges2

/-- The oldest held entry of a ring is written once the ring has room; a `DONE` uses its own slot (R374). -/
def Dev.drainHold (s : Dev) (cq : Nat) : Dev :=
  let q := s.cq cq
  match q.hold with
  | [] => s
  | e :: rest =>
    if !s.flag (cqEn cq) || !s.hif.bme then s
    else if e.kind == .done then
      let s := (s.setLive (s.hif.live.filter fun x => x.handle != e.handle)).setCq cq { q with hold := rest }
      let s := s.cqWrite cq e
      s.settleFences s.hif.live.length
    else if s.cqLive cq < s.cqFree cq then (s.setCq cq { q with hold := rest }).cqWrite cq e
    else s

/-- HOLD_BUFFER_DRAIN (R374): records of captures that wait for the room follow. -/
def execHoldBufferDrain (cq : Nat) (s : State) : Host.Outcome State Fault Refusal := s.act fun s =>
  (s.begin.drainHold cq).drainCaps

/-- MSI_X_COALESCE (R375): `COAL_US` after the first entry not yet signalled, the message is sent. -/
def execMsiXCoalesce (cq : Nat) (s : State) : Host.Outcome State Fault Refusal := s.act fun s =>
  let q := s.cq cq
  if q.unsig = 0 then s.begin
  else
    let s := s.tickTo (ntAdd q.firstAt (usTicks (s.fld (cqCoalUs cq))));
    (s.setCq cq { s.cq cq with unsig := 0 }).sendMsix (s.fld (cqVec cq))

/-- MSIX_VECTOR_UNMASK (R375): the mask clears, and a message held pending is sent. -/
def execMsixVectorUnmask (dt vec : Nat) (s : State) : Host.Outcome State Fault Refusal := s.act fun s =>
  let s := s.tick dt
  if 64 ≤ vec then s
  else
    let s := s.setFld (0x3E00C + 16 * vec, 0, 1) 0
    if s.hif.msixPend.contains vec then
      ({ s with hif := { s.hif with msixPend := s.hif.msixPend.filter (· != vec) } }).emit (.msix vec)
    else s

/-- HOST_SILENT (R384): `TIMEOUT` ms after the last doorbell or heartbeat. -/
def execHostSilent (s : State) : Host.Outcome State Fault Refusal := s.act fun s =>
  let t := s.fld (0x2014, 0, 16)
  if t = 0 || s.hif.silent then s.begin
  else
    let s := s.tickUp (s.hif.fed + t * cycMs);
    ({ s with hif := { s.hif with silent := true } }).raiseLevel 0x7E

/-- HIF_HEARTBEAT (R384): any write restarts the watchdog. -/
def execHifHeartbeat (dt : Nat) (_v : Reg) (s : State) : Host.Outcome State Fault Refusal := s.act fun s =>
  (s.tick dt).feedHost

/-- The ring registers of one index back at their reset values (R367). -/
def Dev.resetRing (s : Dev) (r : Nat) : Dev :=
  let f : Dev → Nat → Dev := fun s o => s.setReg o (resetReg o)
  [0x2100, 0x2104, 0x2108, 0x2500, 0x2504, 0x2508].foldl (fun s o => f s (o + 0x20 * r)) s

/-- What every reset of the host interface does (R367). Commands accepted run on without a voice; those that read or
write host memory end with the hooks of their chapters (`hostLost`). -/
def Dev.resetHif (s : Dev) : Dev :=
  let s := (List.range 32).foldl (fun s r => s.resetRing r) s
  let s := (s.setFld (0x7048, 31, 1) 0).setFld (0x2038, 31, 1) 0
  let s := { s with hif := { s.hif with bme := false, sqs := [], cqs := [], gen := s.hif.gen + 1,
                                        live := s.hif.live.map (fun (l : Live) => { l with orphan := true }) } }
  s.raiseLevel 0x7F

/-- NOP (R379). -/
def execNop (h : Nat) (s : State) : Host.Outcome State Fault Refusal := s.act fun s =>
  s.command h 0x01 fun _ s => s.done h stOK []

/-- FENCE (R379): it completes as soon as nothing before it within its scope is live, and holds its own SQ until then. -/
def execFence (h : Nat) (s : State) : Host.Outcome State Fault Refusal := s.act fun s =>
  s.command h 0x02 fun _ s => s.settleFences s.hif.live.length

/-- BAR4_NT_READ (R389): the read latches the high word. -/
def execBar4NtRead (s : State) : Host.Outcome State Fault Refusal := s.act fun s =>
  let s := s.begin;
  { s with tim := { s.tim with bar4Latch := s.nt.toNat / 2 ^ 32 } }

/-- Enable of a submission ring (R368): the configuration of the word is written, and `EN` is judged with the cause in
`ERR`. DEDUCED, log entry 13: causes are judged in the order the rule names them. -/
def execSqEnSet (dt r : Nat) (v : Reg) (s : State) : Host.Outcome State Fault Refusal := s.act fun s =>
  let s := s.tick dt
  if 32 ≤ r || s.flag (sqEn r) || fieldOf v 16 1 = 0 then s
  else
    let s := (s.setFld (sqLog2 r) (fieldOf v 0 4)).setFld (sqCq r) (fieldOf v 8 5)
    let err :=
      if (s.reg (0x2100 + 0x20 * r)).toNat % 4096 ≠ 0 then 1
      else if s.fld (sqLog2 r) < 4 || 14 < s.fld (sqLog2 r) then 5
      else if !s.flag (cqEn (s.fld (sqCq r))) then 2
      else 0
    if err = 0 then (s.setFld (sqEn r) 1).setSq r { s.sq r with err := 0, head := 0, tail := 0 }
    else s.setSq r { s.sq r with err }

/-- SQ_EN_CLEAR (R368): fetching stops; commands already accepted run on. -/
def execSqEnClear (dt r : Nat) (v : Reg) (s : State) : Host.Outcome State Fault Refusal := s.act fun s =>
  let s := s.tick dt
  if 32 ≤ r || fieldOf v 16 1 = 1 then s else s.setFld (sqEn r) 0

/-- CQ_EN_SET (R368): the ring starts empty with `PHASE` 1, or `EN` stays 0. -/
def execCqEnSet (dt r : Nat) (v : Reg) (s : State) : Host.Outcome State Fault Refusal := s.act fun s =>
  let s := s.tick dt
  if 32 ≤ r || s.flag (cqEn r) || fieldOf v 7 1 = 0 then s
  else
    let keep (x old : Nat) : Nat := if x = 0 then old else x
    let s := (s.setFld (cqLog2 r) (fieldOf v 0 4)).setFld (cqVec r) (fieldOf v 8 6)
    let s := (s.setFld (cqCoalN r) (keep (fieldOf v 16 8) (s.fld (cqCoalN r)))).setFld (cqCoalUs r)
      (keep (fieldOf v 24 8) (s.fld (cqCoalUs r)))
    if (s.reg (0x2500 + 0x20 * r)).toNat % 4096 ≠ 0 || s.fld (cqLog2 r) < 4 || 14 < s.fld (cqLog2 r) then s
    else
      (s.setFld (cqEn r) 1).setCq r { s.cq r with
        head := 0, tail := 0, phase := true, ring := [], hold := [], unsig := 0 }

/-- CQ_EN_CLEAR (R368): ignored while an enabled SQ names the ring. -/
def execCqEnClear (dt r : Nat) (v : Reg) (s : State) : Host.Outcome State Fault Refusal := s.act fun s =>
  let s := s.tick dt
  if 32 ≤ r || fieldOf v 7 1 = 1 then s
  else if (List.range 32).any fun q => s.flag (sqEn q) && s.fld (sqCq q) = r then s
  else s.setFld (cqEn r) 0

/-- HOST_RETURN (R367): link up, D0 and Bus Master Enable, so the level of source 0x7F falls. -/
def execHostReturn (dt speed lanes : Nat) (s : State) : Host.Outcome State Fault Refusal := s.act fun s =>
  let s := s.tick dt
  let s := { s with hif := { s.hif with linkUp := true, d0 := true, bme := true, speed, lanes } }
  s.fallLevel 0x7F

end Sys2Proof.Machine
end

