-- ==== Sys2Proof/Machine/Gnss.lean ====
section
/-! DEFINITION. The rows of the GNSS reference engine and the Sprinkler (R70-R112) and of signal integrity (R113-R126). -/
namespace Sys2Proof.Machine

/-- Status codes of the chapter (R96). -/
def stBaseMismatch : Nat := 0x0201
def stSurveyTimeout : Nat := 0x0202
def stBaselineRange : Nat := 0x0203
def stSurveyAborted : Nat := 0x0204
def stCapPreempted : Nat := 0x0205
def stPortDisabled : Nat := 0x0206

/-! ### Sample ports -/

/-- SP_CLK_LOSS (R73). -/
def execSpClkLoss (dt p : Nat) (s : State) : Host.Outcome State Fault Refusal := s.act fun s =>
  let s := s.tick dt;
  (if s.portRuns p then s.loseClock p else s)

/-- SP_CLK_RETURN (R73): the clock is there again, or for the first time; channels restart as they are assigned. -/
def execSpClkReturn (dt p : Nat) (s : State) : Host.Outcome State Fault Refusal := s.act fun s =>
  let s := s.tick dt;
  (if s.portUsed p && !(s.port p).clkOk then (s.setPort p { s.port p with clkOk := true, lost := false }).portLevels else s)

/-- SP_CLK_CHECK (R72, R73, R110): a port's clock measured over a second, with its error in ppb, whether every data bit toggled, and
how often each octet was sampled on the active edge. The ten seconds begin with the check that sets `COHERENT`. -/
def execSpClkCheck (dt p : Nat) (ppb : Int) (toggled : Bool) (hist : List (Byte × Nat)) (s : State) : Host.Outcome State Fault Refusal :=
  s.act fun s =>
  let s := s.tick dt
  if !s.portRuns p then s
  else if 100000 < ppb.natAbs then s.loseClock p
  else
    let x := { s.port p with occ := s.highOcc p hist }
    let x := if 100 < ppb.natAbs then { x with coherent := false, okSecs := 10 }
      else if x.coherent then { x with okSecs := x.okSecs - 1 } else { x with coherent := true }
    let x := if !x.stuck then x
      else if !toggled then { x with togSecs := 10 }
      else { x with togSecs := x.togSecs - 1, stuck := decide (1 < x.togSecs) };
    (s.setPort p x).portLevels

/-- SP_STUCK (R73). -/
def execSpStuck (dt p : Nat) (s : State) : Host.Outcome State Fault Refusal := s.act fun s =>
  let s := s.tick dt;
  (if s.portRuns p then (s.setPort p { s.port p with stuck := true, togSecs := 10 }).portLevels else s)

/-- A front-end transfer (R74): its bits go out on the chip select, MSB first. One asked for while `BUSY`, or of a missing chip
select, is ignored; a running transfer keeps the chip select and the bit count it began with. -/
def Dev.feGo (s : Dev) : Dev :=
  let cs := s.fld (0x5100, 0, 3)
  let n := s.fld (0x5100, 8, 6)
  if s.gns.fe.isSome || s.nPorts ≤ cs then s
  else ({ s with gns := { s.gns with fe := some (cs, n) } }).emit (.spi cs (msbFirst n (s.reg 0x5104).toNat))

/-- FE_SPI_DONE (R74): `BUSY` clears with the data in, right-aligned. -/
def execFeSpiDone (dt : Nat) (v : Reg) (s : State) : Host.Outcome State Fault Refusal := s.act fun s =>
  let s := s.tick dt
  match s.gns.fe with
  | none => s
  | some (_, n) => ({ s with gns := { s.gns with fe := none } }).setReg 0x5104 (BitVec.ofNat 32 (bits v.toNat 0 n))

/-- FE_SPI_TIMEOUT (R106). -/
def execFeSpiTimeout (dt : Nat) (s : State) : Host.Outcome State Fault Refusal := s.act fun s =>
  let s := s.tick dt;
  (if s.gns.fe.isSome then ({ s with gns := { s.gns with fe := none } }).raise 0x48 else s)

/-! ### Calibration and retirement -/

/-- CALIBRATION_DUE (R79, R81): the next group's turn. A turn whose predecessor still waits for leave skips that one; one that
falls while a calibration runs is skipped itself. -/
def execCalibrationDue (s : State) : Host.Outcome State Fault Refusal := s.act fun s =>
  if !s.flag (0x5060, 0, 1) || s.gns.spare.isNone then s.begin
  else
    let s := s.tickUp (s.gns.calFrom + 60 * s.fld (0x5060, 8, 16) * cycHz)
    let s := { s with gns := { s.gns with calFrom := s.up } }
    match s.nextTurn s.gns.nextGrp with
    | none => s
    | some g =>
      let s := { s with gns := { s.gns with nextGrp := (g + 1) % 13 } }
      match s.gns.calib with
      | some c => if c.stage = 0 then (s.endCalib.calSkip).askCalib g else s.calSkip
      | none => s.askCalib g

/-- A write of `CAL_NOW` (R79, R81). -/
def Dev.calNow (s : Dev) (g : Nat) : Dev :=
  if s.gns.calib.isSome || s.gns.spare.isNone || !s.grpServes g then s.calSkip else s.askCalib g

/-- The results of a calibration written to a group (R79): a delay and a phase offset for each band. -/
def Dev.setDelays (s : Dev) (g : Nat) (res : List (Int × Int)) : Dev :=
  (List.range 3).foldl (fun s b =>
    { s with gns := { s.gns with delays := Tab.set (fun _ => (0, 0)) s.gns.delays (3 * g + b) (res.getD b (0, 0)) } }) s

/-- CALIBRATION_DONE (R79, R80): the group's code delay in ps against the factory value and its carrier-phase offset in 2^-24 cycle, in
each band. A code delay that moved by more than `DRIFT_LIMIT` is logged. Within ±2 ns in every band the group becomes the spare;
outside, it is retired. -/
def execCalibrationDone (dt : Nat) (res : List (Int × Int)) (s : State) : Host.Outcome State Fault Refusal := s.act fun s =>
  let s := s.tick dt
  match s.gns.calib with
  | some c =>
    if c.stage ≠ 2 then s
    else
      let g := c.grp
      let moved := (List.range 3).map fun b =>
        ((res.getD b (0, 0)).1 - (Tab.get (fun _ => (0, 0)) s.gns.delays (3 * g + b)).1).natAbs
      let most := moved.foldl max 0
      let s := s.setDelays g res
      let s := { s with gns := { s.gns with calCnt := Tab.upd (fun _ => 0) s.gns.calCnt g (fun n => wrapInc 8 n) } }
      let s := s.cntSat (0x506C, 16, 16)
      let s := if 10 * s.fld (0x5060, 24, 8) < most then s.note (0x420 + g) most [] else s
      if res.any fun x => decide (2000 < x.1.natAbs) then s.retireGrp g
      else { s.endCalib with gns := { s.endCalib.gns with spare := some g } }
  | none => s

/-- CORRELATOR_PARITY_ERROR (R80). -/
def execCorrelatorParityError (dt g : Nat) (s : State) : Host.Outcome State Fault Refusal := s.act fun s =>
  (s.tick dt).retireGrp g

/-- CORR_RELOCK (R83): channels reacquire with their locks at 0, and the next epoch carries `GAP`. -/
def execCorrRelock (dt : Nat) (s : State) : Host.Outcome State Fault Refusal := s.act fun s =>
  let s := s.tick dt;
  (if s.pll.refOk then s.corrBack.fallLevel 0x01 else s)

/-! ### The epoch -/

/-- The GPS-UTC offset of the navigation data (R39): it is in force until a host write comes after it. -/
def Dev.takeUtc (s : Dev) (u : Option UtcFacts) : Dev :=
  match u with
  | none => s
  | some x => (((((s.setFld (0x4048, 0, 8) x.cur).setFld (0x4048, 8, 8) x.next).setFld (0x4048, 16, 1) (b2n x.pending)).setFld
      (0x4048, 17, 1) 0).setFld fLeapSec x.at_)

/-- What takes hold at an epoch boundary: a position that waits (R90), `REF_ANT` (R95), a new stream (R97). -/
def Dev.epochBoundary (s : Dev) (t : NT) : Dev :=
  let s := match s.gns.adopt with | some a => s.adoptBase t a | none => s
  let r := s.fld (0x5014, 24, 1)
  let s := if r ≠ s.gns.refAnt then ({ s with gns := { s.gns with refAnt := r } }).bumpBase t else s
  match s.gns.streamNext with
  | none => s
  | some n =>
    let s := match s.gns.stream with
      | some o => s.done o.handle stOK (leBytes o.off 4 ++ leBytes o.noff 4)
      | none => s
    if n.msm = 0 && n.arp = 0 && n.ant = 0 then
      ({ s with gns := { s.gns with stream := none, streamNext := none } }).done n.handle stOK []
    else { s with gns := { s.gns with stream := some n, streamNext := none } }

/-- A published state changes (R123): event, diary, and the sources of R141. -/
def Dev.integChange (s : Dev) (subj old new checks : Nat) : Dev :=
  if old = new then s
  else
    let res := leBytes subj 1 ++ leBytes old 1 ++ leBytes new 1 ++ [0] ++ leBytes checks 4
    let s := (s.event 0x0501 res).note (if subj = 0xFF then 0x410 else 0x400 + subj) (new * 256 + old) res
    let k := if subj = 0xFF then 2 else 0
    if new = 2 then s.raise (0x4B + k) else if old = 0 && new = 1 then s.raise (0x4A + k) else s

/-- Samples a port gives in `num`/`den` ms (R70, R105). -/
def portSamples (p num den : Nat) : Nat := (if p % 3 = 0 then 40920 else 81840) * num / den

/-- The ports of a mask, in order. -/
def maskPorts (m : Nat) : List Nat := (List.range 6).filter fun p => bitAt m p

/-- Bytes a capture of some ports holds after `num`/`den` ms (R105). -/
def capBytes (ports num den : Nat) : Nat := (maskPorts ports).foldl (fun a p => a + 16 + portSamples p num den) 0

/-- The blocks of a capture (R105), in port order: port, rate code, NT of the first sample, sample count, and an octet for each sample
as received. `samples` are those of each port in turn. The places in the header and the rate codes (0 for 40.92 MS/s, 1 for
81.84 MS/s) are DESIGN CHOICE, log entry 103. -/
def capBlocks (ports : Nat) (t : NT) (num den : Nat) (samples : List (List Byte)) : List Byte :=
  ((maskPorts ports).zipIdx).flatMap fun x =>
    let n := portSamples x.1 num den
    leBytes x.1 1 ++ leBytes (if x.1 % 3 = 0 then 0 else 1) 1 ++ leBytes t.toNat 8 ++ leBytes n 4 ++ [0, 0] ++
      slice (samples.getD x.2 []) 0 n

/-- A host capture in progress is cut short (R105, R126): what it took is written, and its length returned. -/
def Dev.cutCapture (s : Dev) (t : NT) (samples : List (List Byte)) : Dev :=
  match s.gns.capture with
  | some c =>
    if !c.running then s
    else
      let n := 1000 * ntSince t c.at_
      let s := ({ s with gns := { s.gns with capture := none } }).emit (.host c.handle 0 0 (capBlocks c.ports c.at_ n tickHz samples))
      s.done c.handle stCapPreempted (leBytes (capBytes c.ports n tickHz) 4)
  | none => s

/-- AUTOMATIC_CAPTURE (R126): 2 ms from every port in use; the host's capture in progress is cut short; the first of the power cycle
goes to slot 0, the later ones rotate; the diary persists it. -/
def Dev.autoCapture (s : Dev) (t : NT) (trigger : Nat) (samples cut : List (List Byte)) : Dev :=
  let hold := 10 * s.fld (0x514C, 8, 8) * tickHz
  let due := match s.gns.capAt with | some t0 => decide (hold ≤ ntSince t t0) | none => true
  if !s.flag (0x514C, 1, 1) || !due then s
  else
    let s := s.cutCapture t cut
    let slot := s.gns.capNext
    let ports := ((List.range 6).filter s.portUsed).foldl (fun a p => a + 2 ^ p) 0
    let cap : Capture := { trigger, ports, blocks := capBlocks ports t 2 1 samples, at_ := s.stamp, writing := false }
    let s := { s with gns := { s.gns with capAt := some t, capNext := if slot = 3 then 1 else slot + 1 }
                      dry := { s.dry with caps := Tab.set (fun _ => { trigger := 0, ports := 0, blocks := [], at_ := {} }) s.dry.caps slot cap } }
    let s := s.note 0x430 slot (leBytes slot 1 ++ leBytes trigger 1)
    if s.asksLeave (.persistCapture slot) then s else s.askDiary (.persistCapture slot)

/-- A robot steers on its own corrections (R268). -/
def Dev.robotLocal (s : Dev) (i : Nat) : Bool := (s.loop (24 + 2 * i)).steer

/-- DEVICE_HANDOVER (R271): for each robot in ROBOT_LOCAL the device forms a transaction of its own, and an event. -/
def Dev.deviceHandover (s : Dev) : Dev :=
  ((List.range s.nSlots).filter s.robotLocal).foldl (fun s i =>
    let id := s.txu.nextId
    let t : Txn := { id, acts := [.loopMode (24 + 2 * i) 3 0 1 100], received := s.nt }
    let s := { s with txu := { s.txu with nextId := if id = 0xFFFFFF then 1 else id + 1, txns := s.txu.txns ++ [t] } }
    s.event 0x0A02 (leBytes i 1 ++ [0, 0, 0] ++ leBytes id 3)) s

/-- Verdicts of a signal (R115-R117, R119): per check. -/
def Dev.sigVerdicts (s : Dev) (f : SkyFacts) (devs : List (Nat × Int × Nat)) (obs : List Obs) (n : Nat) : Nat × Nat × Nat × Nat :=
  (s.chkCn0 f.svs obs n, s.chkPort (portOf s.gns.refAnt n), s.chkTa f.svs obs n, s.chkXc devs (sigSys n))

/-- INTEGRITY_JUDGEMENT of a published epoch (R113-R126). -/
def Dev.judgeEpoch (s : Dev) (t : NT) (hz : Nat) (f : SkyFacts) (obs : List Obs) : Dev :=
  let ids := List.range 16
  let devs := s.xcDevs f.clocks
  let vs := ids.map (s.sigVerdicts f devs obs)
  let clk := s.chkClk hz f.bias f.drift
  let xcs := s.chkXcSta devs
  let loc := s.chkLocal
  let worst (g : Nat × Nat × Nat × Nat → Nat) : Nat := vs.foldl (fun a v => max a (g v)) 0
  let checks := worst (·.1) + 4 * worst (·.2.1) + 16 * worst (·.2.2.1) + 64 * clk + 256 * max xcs (worst (·.2.2.2)) + 1024 * loc
  let old := ids.map fun n => (s.sig n).st
  let oldSta := s.station
  let sigs := (ids.zip vs).foldl (fun (tb : Tab Integ) p =>
    Tab.set (fun _ => {}) tb p.1 (s.stepInteg t (s.sig p.1) (max (max p.2.1 p.2.2.1) (max p.2.2.2.1 p.2.2.2.2)))) s.gns.sigs
  let sta := s.stepInteg t s.gns.sta (max clk (max xcs loc))
  let s := { s with gns := { s.gns with sigs, sta, checks, clk := some (f.bias, f.drift), taOk := s.twoAnt,
                                        forced := s.flag (0x514C, 0, 1) } }
  let s := { s with gns := { s.gns with floor := s.judgeFloor f.svs obs } }
  let news := ids.map fun n => (s.sig n).st
  let nowSta := s.station
  let s := (ids.zip (old.zip news)).foldl (fun s p => s.integChange p.1 p.2.1 p.2.2 checks) s
  let s := s.integChange 0xFF oldSta nowSta checks
  let s := if nowSta ≠ 0 && s.sourceIn 0 then s.sourceLost else s
  let s := if nowSta = 2 && oldSta ≠ 2 then s.deviceHandover else s
  let trig := ((ids.zip (old.zip news)).find? fun p => p.2.1 == 0 && p.2.2 == 1).map (·.1)
  match trig.or (if oldSta = 0 && nowSta = 1 then some 0xFF else none) with
  | some g => s.autoCapture t g f.samples f.cut
  | none => s

/-- The live solution of an epoch and the check it decides (R93). -/
def Dev.liveEpoch (s : Dev) (p : Option (Int × Int × Int)) : Dev :=
  let s := { s with gns := { s.gns with live := p } }
  match p with
  | some x =>
    if s.gns.unchecked then
      let s := { s with gns := { s.gns with unchecked := false } }
      if implausible x s.gns.pos then s.raise 0x49 else s
    else s
  | none => s

/-- The epoch time of an MSM in ms of its system's week (R98): NT counts from the start of a GPS week, BeiDou time is 14 s behind. -/
def msmTime (sys : Nat) (t : NT) : Nat :=
  let ms := t.toNat * 1000 / tickHz
  (ms + 604800000 - (if sys = 2 then 14000 else 0)) % 604800000

/-- The clock-steering indicator of an MSM (R98): 1 applied, 2 unknown, 0 none, judged in the order of the rule (DEDUCED, log entry
101). -/
def Dev.steerInd (s : Dev) : Nat :=
  if (s.tim.st = .acquiring || s.tim.st = .locked) && s.flag (0x4050, 6, 1) then 1 else if s.timeUncertain then 2 else 0

/-- The MSMs of an epoch (R98, R99), in the order of the systems: the passing cells of each system that the stream selects, split by
satellite; with the channels they aligned and the number of cells without MSM signal ID. A system with no cell has no message
(DESIGN CHOICE, log entry 101). -/
def Dev.rtcmMsms (s : Dev) (t : NT) (k : Nat) (st : Stream) (passing : List Obs) : List (MsmHead × List MsmSat) × List Chan × Nat :=
  if k % st.div ≠ 0 || s.station = 2 || s.gns.base = 0 then ([], [], 0)
  else
    let sets := ((List.range 4).zip [1070, 1090, 1120, 1110]).filterMap fun (x : Nat × Nat) =>
      let want := bits st.msm (2 * x.1) 2
      if want = 0 then none
      else
        let obs := (passing.filter fun (o : Obs) => o.c.sys = x.1).foldl (fun l o => insertObs o l) []
        let sats := (bySat obs).filterMap (s.msmSat t (want == 2))
        let head : MsmHead := { type_ := x.2 + (if want = 2 then 7 else 4), station := s.fld (0x5110, 16, 12), time := msmTime x.1 t, steer := s.steerInd }
        some ((msmSplit (sats.map (·.1)) []).map fun l => (head, l), sats.flatMap (·.2),
          (obs.filter fun (o : Obs) => (msmId o.c.sig).isNone).length)
    (sets.flatMap (·.1), sets.flatMap (·.2.1), sets.foldl (fun a x => a + x.2.2) 0)

/-- The GNSS firmware that runs (R98). -/
def Dev.gnssVer (s : Dev) : Nat := (Tab.get (fun _ => (0, 0)) s.upd.running_ 2).2

/-- The station messages of an epoch (R97-R99): 1005 or 1006, then 1033, on whole seconds. -/
def Dev.rtcmStation (s : Dev) (t : NT) (st : Stream) : List (List Nat) :=
  let due (p : Nat) : Bool := p != 0 && t.toNat % tickHz == 0 && t.toNat / tickHz % p == 0
  let id := s.fld (0x5110, 16, 12)
  let serves (y : Nat) : Bool := (List.range 16).any fun n => sigSys n == y && s.sigOn n
  let str (o : Nat) : List Byte := (slice s.gns.antData.2 o 32).takeWhile (· != 0)
  (if due st.arp && s.gns.base ≠ 0 then
    [stationMsg id (s.gns.antData.1 / 65536) s.gns.antHeight (serves 0) (serves 1) (s.antPos s.gns.refAnt)] else []) ++
  (if due st.ant then
    [receiverMsg id (s.gns.antData.1 % 65536) (str 0) (str 32) s.gnssVer (s.fuse.dieId.getD 0 0 + 2 ^ 32 * s.fuse.dieId.getD 1 0)] else [])

/-- Does an epoch produce output of a stream, or mark its withdrawal (R97, R99)? -/
def streamMarks (t : NT) (k : Nat) (st : Stream) : Bool :=
  let sec := t.toNat / tickHz
  let due (p : Nat) : Bool := p != 0 && t.toNat % tickHz == 0 && sec % p == 0
  (st.msm != 0 && k % st.div == 0) || due st.arp || due st.ant || st.nlen != 0

/-- Keep the alignments that channels took when an output was formed. -/
def Dev.keepAlign (s : Dev) (l : List Chan) (put : Chan → Chan → Chan) : Dev :=
  { s with gns := { s.gns with chans := s.gns.chans.map fun c => ((l.find? fun (x : Chan) => x.no == c.no).map (put c)).getD c } }

/-- RTCM_OUTPUT (R97-R99): the frames due, in their order, and the native epoch, at the write offsets of the circular buffers. -/
def Dev.rtcmEpoch (s : Dev) (t : NT) (k : Nat) (werr : Bool) (native : List Byte) (passing : List Obs) : Dev :=
  match s.gns.stream with
  | none => s
  | some st =>
    if !streamMarks t k st then s
    else if werr then ({ s with gns := { s.gns with stream := none } }).refuse st.handle stDma none
    else
      let (msms, aligned, left) := s.rtcmMsms t k st passing
      let frames := (msmAll msms ++ s.rtcmStation t st).map rtcmFrame
      let bytes := frames.flatten
      let s := s.setFld (0x5118, 0, 16) ((s.fld (0x5118, 0, 16) + frames.length) % 65536)
      let s := s.cntSatN (0x5118, 16, 16) left
      let s := s.keepAlign aligned fun c x => { c with ralign := x.ralign }
      let s := if bytes.isEmpty then s else s.emit (.stream 2 st.off bytes)
      let s := if st.nlen = 0 then s else s.emit (.stream 3 st.noff native)
      let st' := { st with off := (st.off + bytes.length) % st.len
                           noff := if st.nlen = 0 then 0 else (st.noff + native.length) % st.nlen }
      let s := { s with gns := { s.gns with stream := some st' } }
      s.progress st.handle 1 (leBytes st'.off 4 ++ leBytes st'.noff 4 ++ leBytes (shortNt t) 6 ++ leBytes s.station 1 ++
        leBytes s.gns.baseSeq 1)

/-- CORRECTION_SET (R100-R103): one frame per piece, broadcast on every lane. -/
def Dev.airSet (s : Dev) (t : NT) (k : Nat) (passing : List Obs) : Dev :=
  let div := s.fld (0x5110, 0, 8)
  if div = 0 || k % div ≠ 0 then s
  else
    let dnu := s.station = 2
    let air := (passing.filter fun (o : Obs) => bitAt (s.reg 0x5114).toNat o.c.sig).foldl (fun l o => insertObs o l) []
    let sats := if dnu then [] else (bySat air).map (s.airSat t)
    let recent := match s.gns.adoptAt with | some a => decide (ntSince t a < 10 * tickHz) | none => false
    let hasBase := s.gns.base ≠ 0 && (s.gns.airSets % max 1 (s.fld (0x5110, 8, 8)) = 0 || recent)
    let pieces := (packPieces (sats.map fun x => (x.1, x.2.1)) (if hasBase then 312 else 336) []).take 15
    let pos := s.antPos s.gns.refAnt
    let head (i : Nat) (blocks : List (List Byte × Nat)) : List Byte :=
      let b0 := hasBase && i == 0
      leBytes (1 + 16 * b2n dnu + 32 * b2n b0 + 64 * b2n s.gns.airGap + 128 * b2n s.timeUncertain) 1 ++
        leBytes (i + 16 * pieces.length) 1 ++ leBytes (shortNt t) 6 ++
        leBytes (s.fld (0x5110, 16, 12) + 4096 * s.station) 2 ++ leBytes s.gns.baseSeq 1 ++ leBytes blocks.length 1 ++
        leBytes (blocks.foldl (fun a b => a + b.2) 0) 2 ++ [0, 0] ++
        (if b0 then leBytes (unsigned 64 pos.1) 8 ++ leBytes (unsigned 64 pos.2.1) 8 ++ leBytes (unsigned 64 pos.2.2) 8 else []) ++
        blocks.flatMap (·.1)
    let s := s.keepAlign (sats.flatMap (·.2.2)) fun c x => { c with align := x.align }
    let s := { s with gns := { s.gns with airGap := false, airSets := s.gns.airSets + 1 } }
    (pieces.zip (List.range pieces.length)).foldl (fun s p =>
      s.queueAll { type_ := 6, dst := 0xFFFF, body := head p.2 p.1, lane := 0 }) s

/-- A record that passes R88, as the fleet RTK array holds it (R149, R152). -/
def Dev.baseCell (s : Dev) (svs : List SkySv) (o : Obs) : BaseCell :=
  let v := svs.find? fun (v : SkySv) => v.sys = o.c.sys && v.svid = o.c.svid
  { key := (o.c.sys, o.c.svid, o.c.sig), pr := s.prOf o, cp := s.cpOf o
    elev := match v with | some x => x.elev | none => 0, az := match v with | some x => x.az | none => 0, dop := o.m.dop }

/-- A published epoch: judged, then given to its consumers (R85-R103, R113-R126, R149). -/
def Dev.publish (s : Dev) (t : NT) (hz : Nat) (f : SkyFacts) (swap : Bool) (obs : List Obs) : Dev :=
  let k := epochIndex hz t
  let w := 20 / hz
  let s := ((f.ports.zip (List.range s.nPorts)).foldl (fun s p => s.measurePort w p.2 p.1) s).judgeEpoch t hz f obs
  let s := (((s.learnXc w f.clocks).liveEpoch f.live).surveyBaseline t f.base).surveyEpoch t w f
  let native := s.epochBytes t f swap obs
  let passing := obs.filter (s.passes f.svs)
  let s := (s.rtcmEpoch t k f.werr native passing).airSet t k passing
  let cells := passing.map (s.baseCell f.svs)
  let slips := (obs.filter fun (o : Obs) => o.c.ant = s.gns.refAnt && o.slip).map fun (o : Obs) => (o.c.sys, o.c.svid, o.c.sig)
  let keep := s.gns.held.filter fun (h : HeldEpoch) => decide (ntSince t h.t ≤ 2 * tickHz)
  { s with gns := { s.gns with engine := 2, gap := false, held := keep ++ [{ t, cells, slips }] } }

/-- GNSS_EPOCH (R84): the next epoch tick. While the firmware is paused, while the engine has no clock and before `NT_VALID`
no epoch is published (R83, R84, R89). -/
def execGnssEpoch (f : SkyFacts) (s : State) : Host.Outcome State Fault Refusal := s.act fun s =>
  let hz := s.epochHz
  if hz = 0 then s.begin
  else
    let t := s.nextDue (nextEpoch hz) s.gns.epochAt
    let s := s.tickTo t
    let s := { s with gns := { s.gns with epochAt := t } }
    let paused := s.upd.pause == some 2
    let s := if paused then s else (s.epochBoundary t).takeUtc f.utc
    let missed (s : Dev) : Dev :=
      let s := { s with gns := { s.gns with gap := true, airGap := true } }
      if s.gns.base ≠ 0 then s.raise 0x47 else s
    if paused || s.gns.engine = 0 then missed s
    else
      let (s, swap) := s.calSwap t
      let s := s.assign f.svs
      let (s, obs) := s.observe t f.meas
      if s.tim.ntValid then s.publish t hz f swap obs else missed s

/-! ### Surveys and base positions -/

/-- Run states in which the base may move (R91). -/
def Dev.baseMayMove (s : Dev) : Bool :=
  match s.saf.run with
  | .fleetStop | .safe | .standby | .boot => true
  | _ => false

/-- GNSS_SURVEY_START (R91, R92). -/
def execGnssSurveyStart (h : Nat) (s : State) : Host.Outcome State Fault Refusal := s.act fun s =>
  s.command h 0x20 fun l s =>
    if l.len ≠ 0 && l.len < 32 then s.refuse h stBadLen (some 16)
    else if !s.baseMayMove || s.gns.survey.isSome then s.refuse h stBusy none
    else
      let v : Survey := { handle := h, start := s.nt, minS := l.p 0 4, acc := l.p 4 4, maxS := l.p 8 4, out := l.len != 0,
                          nextAt := ntAdd s.nt ((10 * tickHz : Nat) : Int) }
      { s with gns := { s.gns with survey := some v, std := 0xFFFFFFFF } }

/-- SURVEY_PROGRESS (R92): every 10 s. -/
def execSurveyProgress (werr : Bool) (s : State) : Host.Outcome State Fault Refusal := s.act fun s =>
  match s.gns.survey with
  | none => s.begin
  | some v =>
    let s := s.tickTo v.nextAt
    if v.out && werr then ({ s with gns := { s.gns with survey := none } }).refuse v.handle stDma none
    else
      let m := meanPos v.sum v.n
      let s := if v.out then s.emit (.host v.handle 0 0 (leBytes (unsigned 64 m.1) 8 ++ leBytes (unsigned 64 m.2.1) 8 ++
          leBytes (unsigned 64 m.2.2) 8 ++ List.replicate 8 0)) else s
      let s := { s with gns := { s.gns with survey := some { v with nextAt := ntAdd v.nextAt ((10 * tickHz : Nat) : Int) } } }
      s.progress v.handle 1 (leBytes (v.used / 20) 4 ++ leBytes (v.std.getD 0xFFFFFFFF) 4 ++ leBytes v.nsat 1)

/-- SURVEY_TIMEOUT (R92). -/
def execSurveyTimeout (s : State) : Host.Outcome State Fault Refusal := s.act fun s =>
  match s.gns.survey with
  | some v =>
    if v.maxS = 0 then s.begin
    else
      let s := s.tickTo (ntAdd v.start ((v.maxS * tickHz : Nat) : Int));
      ({ s with gns := { s.gns with survey := none } }).done v.handle stSurveyTimeout []
  | none => s.begin

/-- GNSS_SET_BASE (R91, R93): it completes when the position is adopted. While one waits for its epoch boundary a further one is
refused (DESIGN CHOICE, log entry 104). A baseline on a part without antenna B is a field of an absent unit (R4). -/
def execGnssSetBase (h : Nat) (data : Option (List Byte)) (s : State) : Host.Outcome State Fault Refusal := s.act fun s =>
  s.command h 0x21 fun _ s =>
    match data with
    | none => s.refuse h stDma none
    | some b =>
      let pos := (leAtS b 0 8, leAtS b 8 8, leAtS b 16 8)
      let fl := leAt b 27 1
      let bl := (leAtS b 28 4, leAtS b 32 4, leAtS b 36 4)
      let ascii (o : Nat) : Bool := ((b.drop o).take 31).all (fun x => x.toNat < 128) && leAt b (o + 31) 1 == 0
      match firstBad [(leAt b 26 1 ≤ 63, 90), (fl < 4, 91), (!(bitAt fl 0) || s.antB, 91), (zeros b 42 6, 106), (ascii 48, 112), (ascii 80, 144),
          (zeros b 112 16, 176)] with
      | some o => s.refuse h stBadDesc (some o)
      | none =>
        if !s.baseMayMove || (s.gns.adopt.bind fun (a : Adoption) => a.handle).isSome then s.refuse h stBusy none
        else
          let force := bitAt fl 1
          let wrong := match s.gns.live with | some p => !force && implausible p pos | none => false
          if wrong then s.done h stBaseMismatch []
          else if bitAt fl 0 && !baselineOk bl then s.done h stBaselineRange []
          else
            let s := match s.gns.survey with
              | some v => ({ s with gns := { s.gns with survey := none } }).done v.handle stSurveyAborted []
              | none => s
            let a : Adoption := { handle := some h, kind := 3, pos, arp := some (leAt b 24 2, leAt b 40 2 + 65536 * leAt b 26 1, slice b 48 64),
                                  bl := if bitAt fl 0 then some bl else none, check := s.gns.live.isNone && !force }
            { s with gns := { s.gns with adopt := some a } }

/-! ### Streams and captures -/

/-- CORR_STREAM_CFG (R97): it takes over at the next epoch boundary. One that another overtakes before its boundary never had an
offset, and completes `OK` without one (DESIGN CHOICE, log entry 104). -/
def execCorrStreamCfg (h : Nat) (s : State) : Host.Outcome State Fault Refusal := s.act fun s =>
  s.command h 0x23 fun l s =>
    let stop := streamStop l.entry
    if !stop && l.len < 65536 then s.refuse h stBadLen (some 16)
    else
      let n : Stream := if stop then { handle := h, msm := 0, div := 1, arp := 0, ant := 0, len := 1, nlen := 0 }
        else { handle := h, msm := l.p 0 1, div := l.p 1 1, arp := l.p 2 2, ant := l.p 4 2, len := l.len, nlen := l.p 16 4 }
      let s := match s.gns.streamNext with | some o => s.done o.handle stOK [] | none => s
      { s with gns := { s.gns with streamNext := some n } }

/-- GNSS_RAW_CAPTURE (R105). -/
def execGnssRawCapture (h : Nat) (s : State) : Host.Outcome State Fault Refusal := s.act fun s =>
  s.command h 0x22 fun l s =>
    let ports := l.p 8 1
    let ms := l.p 10 2
    if l.len < capBytes ports ms 1 then s.refuse h stBadLen (some 16)
    else if (List.range 6).any fun p => bitAt ports p && !s.portUsed p then s.done h stPortDisabled []
    else if s.gns.capture.isSome then s.refuse h stBusy none
    else
      let t := l.pNt 0
      let now := t == 0 || ntReached s.nt t
      { s with gns := { s.gns with capture := some { handle := h, ports, ms, at_ := if now then s.nt else t, running := now } } }

/-- RAW_CAPTURE_START (R105). -/
def execRawCaptureStart (s : State) : Host.Outcome State Fault Refusal := s.act fun s =>
  match s.gns.capture with
  | some c =>
    if c.running then s.begin
    else
      let s := s.tickTo c.at_;
      { s with gns := { s.gns with capture := some { c with running := true } } }
  | none => s.begin

/-- RAW_CAPTURE_DONE (R105): the blocks, formed of what each selected port gave. -/
def execRawCaptureDone (samples : List (List Byte)) (werr : Bool) (s : State) : Host.Outcome State Fault Refusal := s.act fun s =>
  match s.gns.capture with
  | some c =>
    if !c.running then s.begin
    else
      let s := s.tickTo (ntAdd c.at_ (msTicks c.ms))
      let s := { s with gns := { s.gns with capture := none } }
      if werr then s.refuse c.handle stDma none
      else (s.emit (.host c.handle 0 0 (capBlocks c.ports c.at_ c.ms 1 samples))).done c.handle stOK (leBytes (capBytes c.ports c.ms 1) 4)
  | none => s.begin

end Sys2Proof.Machine
end

