-- ==== Sys2Proof/Machine/Snp.lean ====
section
/-! DEFINITION. The snapshot service (R127-R144): assembly, batches and their leave, verdicts and receiver states, audits,
rechecks and the host's submissions. -/
namespace Sys2Proof.Machine

/-! ### Batches (R137) -/

/-- BATCH_CLOSE (R137): `BATCH_WAIT` after the batch opened. -/
def execBatchClose (s : State) : Host.Outcome State Fault Refusal := s.act fun s =>
  match s.snp.batches.find? fun (b : Batch) => !b.closed with
  | some b => (s.tickTo (ntAdd b.opened (msTicks (s.fld (0x601C, 0, 8))))).closeBatch b
  | none => s.begin

/-! ### Assembly (R128-R130) -/

/-- A snapshot piece's header (R128). -/
def pieceOk (b : List Byte) : Bool :=
  leAt b 0 1 % 16 == 1 && decide (leAt b 0 1 < 64) && decide (leAt b 1 1 < 4) && leAt b 3 1 == 0 && leAt b 10 2 != 0 &&
    leAt b 14 2 == 0 && b.length == (if leAt b 1 1 = 3 then 271 else 272)

/-- Put an assembly in place of the one of its key. -/
def Dev.setAsm (s : Dev) (a : SnapAsm) (b : Option SnapAsm) : Dev :=
  let rest := s.snp.asm_.filter fun (x : SnapAsm) => !(x.slot == a.slot && x.epoch == a.epoch && x.id == a.id && x.t0 == a.t0)
  { s with snp := { s.snp with asm_ := rest ++ b.toList } }

/-- Has an assembly run out: 1 s since its first piece? -/
def SnapAsm.late (a : SnapAsm) (t : NT) : Bool := decide (tickHz < ntSince t a.first)

/-- The complete snapshot of four pieces; what their headers say of it is the first one's (R128). -/
def SnapAsm.whole (a : SnapAsm) (pieces : List (Nat × List Byte)) : Snap :=
  let part (k : Nat) : List Byte := match pieces.find? fun p => p.1 == k with | some p => slice p.2 16 (if k = 3 then 255 else 256) | none => []
  let h := match pieces.head? with | some p => p.2 | none => []
  { src := .robot a.slot a.epoch, t0 := a.t0, units := if a.cold then 4 else 1, tUnc := leAt h 10 2, fcOfs := leAtS h 12 2
    bits := part 0 ++ part 1 ++ part 2 ++ part 3, aided := !a.cold, aid := none }

/-- An assembly that is not complete in time is discarded and counted (R130). -/
def Dev.asmOver (s : Dev) (a : SnapAsm) : Dev := (s.setAsm a none).snpLost (0x6024, 0, 16)

/-- Take one piece of a slot (R130). -/
def Dev.takePiece (s : Dev) (i epoch : Nat) (b : List Byte) : Dev :=
  let t0 := expandNt s.nt (leAt b 4 6)
  let id := leAt b 2 1
  let k := leAt b 1 1
  let req := bitAt (leAt b 0 1) 4
  let cold := bitAt (leAt b 0 1) 5
  let units := if cold then 4 else 1
  let stepped := match s.tim.stepAt with | some a => ntAfter a t0 | none => false
  let s := (s.snp.asm_.filter fun (a : SnapAsm) => a.late s.nt).foldl Dev.asmOver s
  match s.snp.asm_.find? fun (x : SnapAsm) => x.slot == i && x.epoch == epoch && x.id == id && x.t0 == t0 with
  | none =>
    if stepped then s.setRover i { s.rover i with result := some 4 }
    else if !req && !s.unitsFit units then s.snpLost snpSkipped
    else
      let s := if req then s else s.askUnits units
      let a : SnapAsm := { slot := i, epoch, id, t0, cold, requested := req, first := s.nt, pieces := [(k, b)] }
      s.setAsm a (some a)
  | some a =>
    match a.pieces.find? fun p => p.1 == k with
    | some (_, old) => if old = b then s else (s.setAsm a none).snpLost (0x6024, 16, 16)
    | none =>
      let pieces := a.pieces ++ [(k, b)]
      if pieces.length < 4 then s.setAsm a (some { a with pieces })
      else ((s.setAsm a none).cntWrap (0x6020, 0, 16)).joinBatch (a.whole pieces)

/-- SNAPSHOT_PIECE (R130): only from a lease in ADMITTING, ACTIVE or SUSPECT under its epoch. -/
def execSnapshotPiece (dt : Nat) (s : State) : Host.Outcome State Fault Refusal := s.act fun s =>
  let s := s.tick dt
  match s.takeItem fun (x : RxItem) => x.q == 26 with
  | none => s
  | some (m, s) =>
    let b := slice m.frame 22 (frLen m.frame)
    match s.robotOf (frSrc m.frame) with
    | some i => (if s.counts i (frEpoch m.frame) && pieceOk b then s.takePiece i (frEpoch m.frame) b else s)
    | none => s

/-- SNAPSHOT_INCOMPLETE (R130): 1 s after its first piece; the assembly that began first runs out first. -/
def execSnapshotIncomplete (s : State) : Host.Outcome State Fault Refusal := s.act fun s =>
  match s.snp.asm_ with
  | a :: t =>
    let b := t.foldl (fun (m x : SnapAsm) => if ntAfter m.first x.first then x else m) a;
    (s.tickTo (ntAdd b.first (tickHz : Nat))).asmOver b
  | [] => s.begin

/-! ### Requests (R129, R134-R136) -/

/-- The next ACTIVE robot of the audit cycle (R135). -/
def Dev.nextAudited (s : Dev) : Option Nat :=
  ((List.range s.nSlots).map fun k => (s.snp.nextAudit + k) % s.nSlots).find? fun i => (s.lease i).st = .active

/-- AUDIT_REQUEST (R135): the next ACTIVE robot in slot order, a period after its last audit. One that finds no capacity waits for it
and keeps its place (R136). -/
def execAuditRequest (s : State) : Host.Outcome State Fault Refusal := s.act fun s =>
  let p := s.fld (0x6014, 0, 16)
  match s.nextAudited with
  | some i =>
    if p = 0 then s.begin
    else
      let s := match (s.rover i).audited with
        | some t => s.tickTo (ntAdd t ((p * tickHz : Nat) : Int))
        | none => s.begin;
      s.demand (.audit i)
  | none => s.begin

/-- RECHECK_REQUEST (R134): every `RECHECK_PERIOD` while the receiver is SUSPECT. -/
def execRecheckRequest (i : Nat) (s : State) : Host.Outcome State Fault Refusal := s.act fun s =>
  let x := s.rover i
  let live := (s.lease i).st = .admitting || (s.lease i).st = .active || (s.lease i).st = .suspect
  match x.asked with
  | some t =>
    if x.rx ≠ 2 || !live then s.begin
    else
      let s := s.tickTo (ntAdd t ((s.fld (0x6014, 16, 8) * tickHz : Nat) : Int));
      (s.setRover i { x with asked := some s.nt }).demand (.recheck i)
  | none => s.begin

/-- LOCAL_SNAPSHOT (R120): every 10 s while the station is SUSPECT. -/
def execLocalSnapshot (samples : List Byte) (s : State) : Host.Outcome State Fault Refusal := s.act fun s =>
  if s.station ≠ 1 then s.begin
  else
    let s := match s.snp.localAt with | some t => s.tickTo (ntAdd t ((10 * tickHz : Nat) : Int)) | none => s.begin
    let s := { s with snp := { s.snp with localAt := some s.nt, localPend := true, localVerdict := 0 } };
    s.demand (.snap (s.localSnap .local_ samples))

/-! ### Results (R131-R134, R140) -/

/-- SNAPSHOT_RESULT (R131): the next snapshot of the running batch; after its last the leave is returned. -/
def execSnapshotResult (dt : Nat) (f : SnapFacts) (werr : Bool) (s : State) : Host.Outcome State Fault Refusal := s.act fun s =>
  let s := s.tick dt
  match s.snp.batches.find? fun (b : Batch) => b.running with
  | none => s
  | some b =>
    match b.snaps with
    | [] => s
    | x :: rest =>
      let upd (l : List Batch) : List Batch :=
        if rest.isEmpty then l.filter fun (y : Batch) => y.id != b.id
        else mapWhere (fun (y : Batch) => y.id == b.id) (fun (y : Batch) => { y with snaps := rest }) l
      let s := { s with snp := { s.snp with batches := upd s.snp.batches } }
      let s := if rest.isEmpty then s.returnLeave (.snpBatch b.id) else s
      s.snapDone x f werr

/-- The deadline of a batch passes without leave (R137): every snapshot in it ends with `NO_LEAVE`. -/
def Dev.batchNoLeave (s : Dev) (id : Nat) : Dev :=
  match s.snp.batches.find? fun (b : Batch) => b.id == id with
  | none => s
  | some b =>
    let s := { s with snp := { s.snp with batches := s.snp.batches.filter fun (y : Batch) => y.id != id } }
    b.snaps.foldl (fun s x => s.snapEnds 3 x) s

/-- A granted batch runs. -/
def Dev.runBatch (s : Dev) (id : Nat) : Dev :=
  { s with snp := { s.snp with batches := mapWhere (fun (b : Batch) => b.id == id) (fun (b : Batch) => { b with running := true }) s.snp.batches } }

/-- A step of time (R54, R130): snapshots from before it are discarded, `TIME_STEPPED`. -/
def Dev.snapStepped (s : Dev) : Dev :=
  let all := s.snp.batches.flatMap (fun (b : Batch) => b.snaps) ++
    s.snp.demand.filterMap fun d => match d with | .snap x => some x | _ => none
  let part := s.snp.asm_
  let s := s.snp.batches.foldl (fun s (b : Batch) => (s.dropLeave (.snpBatch b.id)).returnLeave (.snpBatch b.id)) s
  let isSnap : Demand → Bool := fun d => match d with | .snap _ => true | _ => false
  let s := { s with snp := { s.snp with batches := [], asm_ := [], localPend := false, demand := s.snp.demand.filter fun d => !isSnap d } }
  let s := part.foldl (fun s (a : SnapAsm) => s.snapEnds 4 (a.whole a.pieces)) s
  all.foldl (fun s x => s.snapEnds 4 x) s

/-! ### Host submissions (R139) -/

/-- The first field of a record that R139 does not allow. -/
def snapRecBad (b : List Byte) : Option Nat :=
  firstBad [(leAt b 8 2 ≠ 0, 8), (leAt b 12 1 < 2, 12), (leAt b 13 1 == 0, 13), (leAt b 12 1 == 0 || leAt b 14 2 ≠ 0, 14), (zeros b 40 8, 40),
    (leAt b 1071 1 == 0, 1071)]

/-- A record of the host as a snapshot: unaided without `AID_VALID` or with a radius above 5,000 m. -/
def hostSnap (h k : Nat) (b : List Byte) : Snap :=
  let aided := leAt b 12 1 = 1 && leAt b 14 2 ≤ 5000
  { src := .host h k, t0 := BitVec.ofNat 64 (leAt b 0 8), units := if aided then 1 else 4, tUnc := leAt b 8 2, fcOfs := leAtS b 10 2
    bits := slice b 48 1023, aided, aid := if leAt b 12 1 = 1 then some (leAtS b 16 8, leAtS b 24 8, leAtS b 32 8) else none }

/-- SNAP_SUBMIT (R139). -/
def execSnapSubmit (h : Nat) (data : Option (List Byte)) (s : State) : Host.Outcome State Fault Refusal := s.act fun s =>
  s.command h 0x28 fun l s =>
    let mode := l.p 8 1
    let i := l.p 9 1
    let n := l.p 10 1
    let st := (s.lease i).st
    let live := st = .admitting || st = .active || st = .suspect || st = .dead
    let pidx := portOf s.gns.refAnt 0
    if l.len ≠ 1072 * n then s.refuse h stBadLen (some 16)
    else if l.p 24 4 < 48 * n then s.refuse h stBadLen (some 48)
    else if mode = 2 && !live then s.refuse h stStale (some 33)
    else if 4 ≤ s.snp.cmds.length then s.refuse h stBusy none
    else if mode = 3 && !s.portRuns pidx then s.done h 0x0207 []
    else
      let c : SnapCmd := { handle := h, mode, robot := i, count := n, tStart := if l.pNt 0 = 0 then nextSlotframe s.nt else l.pNt 0 }
      if mode = 3 then s.setSnapCmd h (some c)
      else
        match data with
        | none => s.refuse h stDma none
        | some b =>
          let rec_ (k : Nat) : List Byte := slice b (1072 * k) 1072
          match (List.range n).findSome? fun k => (snapRecBad (rec_ k)).map fun o => 64 + 1072 * k + o with
          | some o => s.refuse h stBadDesc (some o)
          | none =>
            let s := s.setSnapCmd h (some { c with taken := n })
            (List.range n).foldl (fun s k =>
              let x := hostSnap h k (rec_ k)
              let old := match s.tim.stepAt with | some a => ntAfter a x.t0 | none => false
              if old then s.snapEnds 4 x else s.demand (.snap x)) s

/-- HOST_LOCAL_SNAPSHOT (R139): one snapshot at `T_START` and each 100 ms after it, from the octets the port gives in 1 ms; its record
goes to `BUF`. -/
def execHostLocalSnapshot (h : Nat) (samples : List Byte) (werr : Bool) (s : State) : Host.Outcome State Fault Refusal := s.act fun s =>
  match s.snapCmd h with
  | none => s.begin
  | some c =>
    if c.mode ≠ 3 || c.count ≤ c.taken then s.begin
    else
      let s := s.tickTo (ntAdd c.tStart (msTicks (100 * c.taken)))
      if werr then (s.setSnapCmd h none).refuse h stDma none
      else
        let x := s.localSnap (.host h c.taken) samples
        let s := s.emit (.host h 0 (1072 * c.taken) x.record)
        let s := s.setSnapCmd h (some { c with taken := c.taken + 1 });
        s.demand (.snap x)

end Sys2Proof.Machine
end

