-- ==== Sys2Proof/Machine/Par.lean ====
section
/-! DEFINITION. Pair operation (R495-R509) and the DRAM (R511-R517). -/
namespace Sys2Proof.Machine

def stPairNotReady : Nat := 0x0D01
def stPairToken : Nat := 0x0D02
def stPairBase : Nat := 0x0D03
def stPairRole : Nat := 0x0D04
def stPairLink : Nat := 0x0D05
def stPairVariant : Nat := 0x0D06
def stPairDemoted : Nat := 0x0D07

/-! ### Roles and the mirror -/

def Role.code : Role → Nat | .none => 0 | .active => 1 | .standby => 2
def Mirror.code : Mirror → Nat | .alone => 0 | .joining => 1 | .sync => 2 | .outOfSync => 3

/-- Time-ready (R500). -/
def Dev.timeReady (s : Dev) : Bool := s.tim.st = .locked && decide (s.tim.offset.natAbs ≤ s.fld (0x15014, 8, 10))

/-- A join ends. -/
def Dev.endJoin (s : Dev) (code : Nat) : Dev :=
  match s.par.join with
  | some (h, _) => ({ s with par := { s.par with join := none } }).done h code []
  | none => s

/-- The mirror changes state (R501, R514); the first SYNC completes a join (R504). A bulk copy ends with JOINING, and its leave with it. -/
def Dev.setMirror (s : Dev) (m : Mirror) : Dev :=
  if s.par.mirror = m then s
  else
    let old := s.par.mirror
    let s := if old = .joining then (({ s with par := { s.par with bulk := 0 } }).dropLeave .bulkCopy).returnLeave .bulkCopy else s
    let s := ({ s with par := { s.par with mirror := m } }).event 0x1501 (leBytes old.code 1 ++ leBytes m.code 1)
    match m with
    | .outOfSync => s.raise 0x3A
    | .sync => s.endJoin stOK
    | _ => s

/-- The role is stored in the persistent counters area (R497). -/
def Dev.setRole (s : Dev) (r : Role) : Dev :=
  { s with par := { s.par with role := r }, nv := { s.nv with role := r } }

/-- Ask leave for the bulk copy (R501). -/
def Dev.askBulk (s : Dev) : Dev :=
  ({ s with par := { s.par with bulk := 1 } }).askLeave 6 1200 (msTicks (20 + 4 * s.par.mib)) (ntAdd s.nt ((10 * tickHz : Nat) : Int)) .bulkCopy

/-- The checks of a partner (R504), first refusal first. -/
def Dev.partnerBad (s : Dev) : Option Nat :=
  let p := s.par.partner
  if p.big != s.fuse.big || p.stepping ≠ 0xA1 || p.unit = s.fld (0x15014, 0, 1) then some stPairVariant
  else if p.pos != s.gns.pos || p.baseSeq ≠ s.gns.baseSeq || p.refAnt ≠ s.fld (0x5014, 24, 1) || p.originSel ≠ s.fld (0x7024, 0, 1) then
    some stPairBase
  else if p.role = s.par.role.code then some stPairRole
  else none

/-- Mirroring begins, or begins again, over a link that is up (R501, R504). -/
def Dev.startMirror (s : Dev) : Dev :=
  if s.par.role = .none || !s.par.linkUp || s.par.mirror = .sync || s.par.mirror = .joining then s
  else match s.partnerBad with
    | some code => s.endJoin code
    | none =>
      let s := ({ s with par := { s.par with bulkDone := false } }).setMirror .joining
      if s.par.role = .active then s.askBulk else s

/-- What is known of the partner. -/
def Dev.meet (s : Dev) (p : PartnerFacts) : Dev :=
  { s with par := { s.par with partner := p, tokenIn := p.token, aliveIn := p.alive } }

/-- PAIR_LINK_UP (R501): the link has been up for 1 s; `mib` is the size of a bulk copy. -/
def execPairLinkUp (dt : Nat) (p : PartnerFacts) (mib : Nat) (s : State) : Host.Outcome State Fault Refusal := s.act fun s =>
  let s := (s.tick dt).meet p;
  ({ s with par := { s.par with linkUp := true, mib } }).startMirror

/-- BULK_COPY_DONE (R501, R504). -/
def execBulkCopyDone (dt : Nat) (s : State) : Host.Outcome State Fault Refusal := s.act fun s =>
  let s := s.tick dt
  if s.par.mirror != .joining || (s.par.role = .active && s.par.bulk ≠ 2) then s
  else
    let s := ({ s with par := { s.par with bulkDone := true, bulk := 0 } }).returnLeave .bulkCopy;
    (match s.par.join with | some (h, _) => s.progress h 1 [] | none => s)

/-- Windows whose registers belong to one unit (R502). -/
def perUnit (off : Nat) : Bool := [0, 1, 2, 3, 4, 5, 6, 0x0C, 0x11, 0x12, 0x13, 0x14, 0x15].contains (off / 4096)

/-- The fixes of a slot as the partner mirrored them with its last record (R502). -/
def FrkSlot.mirrored (x : FrkSlot) (fixes : List FixSet) (locks : List (SigKey × Nat)) : FrkSlot :=
  { x with filt := { fixes, locks, lastProc := x.rec_.map (·.tObs) } }

/-- Apply a delta on the standby (R502); issued epochs go to its own flash. -/
def Dev.applyDelta (s : Dev) (d : MirrorDelta) : Dev :=
  let s := (d.regs.filter fun r => !perUnit r.1).foldl (fun s r => s.setReg r.1 (BitVec.ofNat 32 r.2)) s
  let s := match d.graph with | some (v, g) => { s with trl := { s.trl with ver := v, graph := g } } | none => s
  let s := d.leases.foldl (fun s l => s.putLease l.1 { l.2 with handle := none }) s
  let s := match d.resv with | some r => s.setResv r | none => s
  let s := d.tasks.foldl (fun s k => s.setTask k.1 k.2) s
  let own : Txn → Txn := fun t => { t with handle := none }
  let s := match d.patches with
    | some l => { s with trl := { s.trl with patches := l.map fun (p : Patch) => { p with far := true } } }
    | none => s
  let s := match d.txns with | some (t, l) => { s with txu := { s.txu with txns := t.map own, lists := l } } | none => s
  let s := match d.routes with | some r => { s with mac := { s.mac with routes := r } } | none => s
  let s := d.loops.foldl (fun s l => s.setLoop l.1 l.2) s
  let s := d.sent.foldl (fun s p => { s with ctl := { s.ctl with sent := Tab.set (fun _ => []) s.ctl.sent p.1 p.2 } }) s
  let s := d.pos.foldl (fun s (m : MirrorPos) =>
    let i := m.rec_.slot
    s.setFrkSlot i (((s.frkSlot i).hold m.rec_ ((s.rover i).rx == 2)).mirrored m.fixes m.locks)) s
  let s := match d.fcnt with | some n => { s with mac := { s.mac with fcnt := n }, nv := { s.nv with fcnt := some n } } | none => s
  d.rovers.foldl (fun s r => s.setRover r.1 r.2) s

/-- MIRROR_FRAME (R501, R502): a frame of the partner arrives in order, or one is lost. -/
def execMirrorFrame (dt : Nat) (ok : Bool) (p : PartnerFacts) (lag : Nat) (d : MirrorDelta) (s : State) :
    Host.Outcome State Fault Refusal := s.act fun s =>
  let s := (s.tick dt).meet p
  let live := s.par.mirror = .joining || s.par.mirror = .sync
  if !ok then (let s := s.cntSat (0x1501C, 16, 16); if live then s.setMirror .outOfSync else s)
  else if !live then s
  else
    let s : Dev := { s.cntWrap (0x1501C, 0, 16) with par := { s.par with lag := sat 16 lag, seq := s.par.seq + 1 } }
    let s := if s.par.role = .standby then s.applyDelta d else s;
    (if s.par.mirror = .joining && s.par.bulkDone then s.setMirror .sync else s)

/-! ### Takeover -/

/-- Judge an automatic takeover (R505); during an update pause it waits (R486). -/
def Dev.judgeTake (s : Dev) : Dev :=
  if s.par.role != .standby || !s.flag (0x15014, 1, 1) || s.par.aliveIn || s.par.linkUp || s.par.tokenIn || s.par.take.isSome ||
      s.saf.run != .standby then s
  else if s.par.wasSync then { s with par := { s.par with take := some { mode := 0, handle := none, decided := s.nt, toRun := true } } }
  else s.raise 0x3D

/-- ALIVE_LOSS (R505): `ALIVE_TIMEOUT` without a toggle. -/
def execAliveLoss (dt : Nat) (s : State) : Host.Outcome State Fault Refusal := s.act fun s =>
  let s := s.tick dt
  if !s.par.aliveIn then s
  else
    let s := { s with par := { s.par with aliveIn := false } };
    (if s.par.role = .none then s else (s.raise 0x39).judgeTake)

/-- PAIR_LINK_LOSS (R501, R505): `LINK_TIMEOUT` without a frame. A join that has waited 5 s for a link ends (R504). -/
def execPairLinkLoss (dt : Nat) (s : State) : Host.Outcome State Fault Refusal := s.act fun s =>
  let s := s.tick dt
  if s.par.linkUp then
    let was := s.par.mirror = .sync && s.timeReady
    let s := { s with par := { s.par with linkUp := false, wasSync := was } }
    if s.par.role = .none then s
    else
      let s := s.raise 0x38
      let s := if s.par.mirror = .sync || s.par.mirror = .joining then s.setMirror .outOfSync else s
      s.judgeTake
  else match s.par.join with
    | some (_, u) => (if u + 5 * cycHz ≤ s.up then s.endJoin stPairLink else s)
    | none => s

/-- Does the unit want the token (R497, R498, R505)? -/
def Dev.wantsToken (s : Dev) : Bool :=
  !s.par.token && (s.par.take.isSome ||
    (s.par.role != .standby && s.par.hand.isNone && s.saf.run != .off && s.saf.run != .boot && s.saf.run != .standby))

/-- TOKEN_TAKE (R498): `PAIR_TOKEN_IN` has been low for 1 ms. -/
def execTokenTake (dt : Nat) (s : State) : Host.Outcome State Fault Refusal := s.act fun s =>
  let s := s.tick dt
  let was := s.par.tokenIn
  let s := { s with par := { s.par with tokenIn := false } }
  let s := if was then s.judgeTake else s;
  (if s.wantsToken then { s with par := { s.par with token := true, taking := some s.up, since := s.up } } else s)

/-- TOKEN_CONFIRM (R498): 10 us later; `tin` is the partner's token then. -/
def execTokenConfirm (tin : Bool) (s : State) : Host.Outcome State Fault Refusal := s.act fun s =>
  match s.par.taking with
  | none => s.begin
  | some u =>
    let s := s.tickUp (u + 2500)
    let s := { s with par := { s.par with taking := none, tokenIn := tin } }
    if !tin then s
    else
      let keep := s.fld (0x15014, 0, 1) = 0
      let s := { s with par := { s.par with token := keep } };
      (s.cntSat (0x15020, 16, 16)).event 0x1503 [0]

/-- TOKEN_CONFLICT (R498): both tokens high for more than 1 ms. -/
def execTokenConflict (dt : Nat) (s : State) : Host.Outcome State Fault Refusal := s.act fun s =>
  let s := s.tick dt
  if !s.par.token then s
  else (({ s with par := { s.par with tokenIn := true } }).cntSat (0x15020, 16, 16)).raise 0x3B

/-- Patches across a takeover (R182, R507): those whose cut-off has passed stand, the others abort; each is reported. -/
def Dev.settlePatches (s : Dev) : Dev :=
  s.trl.patches.foldl (fun s (p : Patch) =>
    let cut := p.open_ s.nt
    let s := if cut then s.abortPatch p 0x0502 0xFF true else s
    s.event 0x1504 (leBytes p.txn 3 ++ [0] ++ leBytes (if cut then 0x0502 else stOK) 2)) s

/-- Transactions across a takeover (R507): committed ones stand, the others abort; each is reported (R514). -/
def Dev.settleTakeover (s : Dev) : Dev :=
  s.txu.txns.foldl (fun s (t : Txn) =>
    match t.phase with
    | .waiting | .staged | .offered => (s.abortTxn t 0x0502 0xFF true).event 0x1504 (leBytes t.id 3 ++ [0] ++ leBytes 0x0502 2)
    | .listed =>
      let s := s.updTxn t.id fun (x : Txn) => { x with phase := .committed }
      let s := s.setResv (s.trl.resv.map fun (r : Resv) => if r.txn = t.id && r.kind = .offered then { r with kind := .firm, staged := false } else r)
      s.event 0x1504 (leBytes t.id 3 ++ [0] ++ leBytes stOK 2)
    | .committed | .applied => s.event 0x1504 (leBytes t.id 3 ++ [0] ++ leBytes stOK 2)
    | .failed => s) s.settlePatches

/-- A slot restarts from its mirrored position, with its mirrored integers as fixes and every other ambiguity float (R506). -/
def Dev.restartFrk (s : Dev) (i : Nat) : Dev :=
  let x := s.frkSlot i
  let st := (s.lease i).st
  let vec (r : PosRec) : FltState :=
    let v := enuToEcef (r.x, r.y, r.z) (1000 * r.ve, 1000 * r.vn, 1000 * r.vu)
    { pos := (100 * (r.x - s.gns.pos.1), 100 * (r.y - s.gns.pos.2.1), 100 * (r.z - s.gns.pos.2.2)), vel := v, ambs := []
      cov := Config.restartCov r }
  let live := st = .admitting || st = .active || st = .suspect
  s.setFrkSlot i { x with st := if live then (if x.pos.isSome then .running else .waiting) else if x.rec_.isSome then .frozen else .empty
                          filt := { x.filt with flt := if live then x.pos.map vec else none } }

/-- PROMOTION (R506, R508): with the token confirmed. A latched stop keeps the unit from RUN (R26). -/
def execPromotion (dt : Nat) (s : State) : Host.Outcome State Fault Refusal := s.act fun s =>
  let s := s.tick dt
  match s.par.take with
  | some k =>
    if k.promoted || !s.holdsToken || s.saf.run != .standby then s
    else
      let sync := s.par.mirror = .sync || s.par.wasSync
      let run := k.toRun && sync && !s.saf.latchA && !s.saf.latchB
      let s := { s.setRole .active with par := { (s.setRole .active).par with take := some { k with promoted := true } } }
      let s := s.setRun (if run then .run else .fleetStop) (if k.mode = 0 then 3 else 1) 0
      let s := { s with mac := { s.mac with fcnt := (s.mac.fcnt + 0x100000) % 2 ^ 48 }, frk := { s.frk with queue := [] } }
      let s := (List.range s.nSlots).foldl Dev.restartFrk s
      let s := if k.mode = 1 && s.par.linkUp then (({ s with par := { s.par with bulkDone := false } }).setMirror .joining).askBulk
        else s.setMirror .alone
      s.settleTakeover.askReplan
  | none => s

/-- The first beacon after a promotion (R506, R514, R516). -/
def Dev.firstBeacon (s : Dev) : Dev :=
  match s.par.take with
  | some k =>
    if !k.promoted then s
    else
      let us := ntSince s.nt k.decided * 1000000 / tickHz
      let s := { s with par := { s.par with take := none, takeNt := s.nt } }
      let s := ((s.cntSat (0x15020, 0, 16)).raise 0x3C).event 0x1502 (leBytes k.mode 1 ++ [0, 0, 0] ++ leBytes us 4)
      s.doneOpt k.handle stOK []
  | none => s

/-- PLANNED_HANDOVER_STOP (R508): on the active unit, 50 ms before the boundary that the standby asked for. -/
def execPlannedHandoverStop (b : NT) (s : State) : Host.Outcome State Fault Refusal := s.act fun s =>
  if s.par.role != .active || !(s.saf.run = .run || s.saf.run = .fleetStop) || !onSlotframe b then s.begin
  else
    let s := s.tickTo (ntAdd b (-(msTicks 50 : Int)));
    { s with par := { s.par with hand := some b } }

/-- FINAL_DELTA (R508): 40 ms before it the final delta goes out, the token is dropped, live commands end, and the unit enters
STANDBY and JOINING. -/
def execFinalDelta (s : State) : Host.Outcome State Fault Refusal := s.act fun s =>
  match s.par.hand with
  | none => s.begin
  | some b =>
    let s := (s.tickTo (ntAdd b (-(msTicks 40 : Int)))).emit (.mirror s.par.seq)
    let s := ((s.hif.live.filter fun (l : Live) => !l.orphan).map (·.handle)).foldl (fun s h => s.done h stPairDemoted []) s
    let s := { s.setRole .standby with par := { (s.setRole .standby).par with hand := none, token := false, taking := none, bulkDone := false } }
    let s := { s with mac := { s.mac with txq := [] }, saf := { s.saf with burst := none, resume := [] } };
    (s.setRun .standby 1 0).setMirror .joining

/-- PAIR_JOIN (R504). -/
def execPairJoin (h : Nat) (s : State) : Host.Outcome State Fault Refusal := s.act fun s =>
  s.command h 0xC0 fun l s =>
    let want : Role := if l.p 0 1 = 1 then .active else .standby
    let leased := s.txu.leases.any fun p => p.2.st = .admitting || p.2.st = .active || p.2.st = .suspect || p.2.st = .dead
    let ok := if want = Role.active then s.saf.run = .run || s.saf.run = .fleetStop else s.saf.run = .fleetStop && !leased
    if s.par.role = want then s.done h stOK []
    else if !ok then s.done h stPairRole []
    else
      let s := (s.endJoin stPairRole).setRole want
      let s := { s with par := { s.par with join := some (h, s.up), mirror := .alone } }
      let s := if want = Role.standby then ({ s with par := { s.par with token := false, taking := none } }).setRun .standby 1 0 else s
      s.startMirror

/-- PAIR_TAKEOVER (R508): it completes at the first beacon. -/
def execPairTakeover (h : Nat) (s : State) : Host.Outcome State Fault Refusal := s.act fun s =>
  s.command h 0xC1 fun l s =>
    let mode := l.p 0 1
    if s.saf.run != .standby then s.done h stPairRole []
    else if s.par.take.isSome then s.refuse h stBusy none
    else if mode = 1 then
      if s.par.mirror != .sync || !s.timeReady then s.done h stPairNotReady []
      else { s with par := { s.par with take := some { mode, handle := some h, decided := s.nt, toRun := true } } }
    else if s.par.tokenIn then s.done h stPairToken []
    else { s with par := { s.par with take := some { mode, handle := some h, decided := s.nt, toRun := false } } }

/-! ### DRAM (R511-R517) -/

def Dev.rank (s : Dev) (r : Nat) : Rank := if r = 0 then s.mem.rank0 else s.mem.rank1
def Dev.setRank (s : Dev) (r : Nat) (x : Rank) : Dev :=
  if r = 0 then { s with mem := { s.mem with rank0 := x } } else { s with mem := { s.mem with rank1 := x } }

/-- Two seconds per GiB of blocks of 64 MiB, in ticks. -/
def scrubTicks (blocks : Nat) : Nat := ceilDiv (2 * blocks * tickHz) 16

/-- A full scrub asks leave (R511), unless one waits or runs. -/
def Dev.startScrub (s : Dev) : Dev :=
  if s.mem.scrub || s.mem.scrubWait then s
  else
    let n (x : Rank) : Nat := if x.present && !x.retired then x.blocks else 0
    ({ s with mem := { s.mem with scrubWait := true } }).askLeave 4 800 (scrubTicks (n s.mem.rank0 + n s.mem.rank1))
      (ntAdd s.nt ((60 * tickHz : Nat) : Int)) .scrub

/-- The retirement of a rank begins (R511), or finds no room. -/
def Dev.startRetire (s : Dev) (r cause : Nat) : Dev :=
  let x := s.rank r
  let y := s.rank (1 - r)
  if !x.present || x.retired || x.migrating then s
  else if !y.present || y.retired || y.migrating || y.blocks < y.used + x.used then s.raise 0x2C
  else (s.setRank r { x with migrating := true, cause }).askLeave 4 800 (scrubTicks x.used) (ntAdd s.nt ((60 * tickHz : Nat) : Int)) (.migrate r)

/-- PATROL_SCRUB_PASS (R511). -/
def execPatrolScrubPass (dt : Nat) (s : State) : Host.Outcome State Fault Refusal := s.act fun s =>
  let s := (s.tick dt).cntWrap (0x3030, 0, 16);
  { s with mem := { s.mem with patrolAt := s.up, late := false } }

/-- The `up` at which a patrol pass is late by 25 % of `PATROL_H` (R515). -/
def Dev.patrolLate (s : Dev) : Nat := s.mem.patrolAt + 4500 * s.fld (0x3018, 0, 8) * cycHz

/-- DRAM_SCRUB_LATE (R515): reported once a pass. -/
def execDramScrubLate (dt : Nat) (s : State) : Host.Outcome State Fault Refusal := s.act fun s =>
  let s := s.tick dt
  if !s.mem.patrol || s.mem.late || s.up < s.patrolLate then s
  else ({ s with mem := { s.mem with late := true } }).raise 0x2D

/-- DRAM_CE (R511): counted within the powered hour. -/
def execDramCe (dt r : Nat) (s : State) : Host.Outcome State Fault Refusal := s.act fun s =>
  let s := s.tick dt
  let x := s.rank r
  if 2 ≤ r || !x.present then s
  else
    let hour := s.psec / 3600
    let ce := satInc 16 (if x.hour = hour then x.ce else 0)
    let s := (s.setRank r { x with ce, hour }).raise 0x28
    if ce = s.fld (0x3018, 8, 8) then
      (let s := s.raise 0x2A; if s.flag (0x3018, 16, 1) then s.startRetire r 1 else s)
    else s

/-- DRAM_UE (R511, R512): its address is recorded, a full scrub asks leave, and the rank is retired with `AUTO_RETIRE`. -/
def execDramUe (dt r addr : Nat) (s : State) : Host.Outcome State Fault Refusal := s.act fun s =>
  let s := s.tick dt
  let x := s.rank r
  if 2 ≤ r || !x.present then s
  else
    let s := (s.setRank r { x with ue := satInc 8 x.ue }).raise 0x29
    let s := ({ s with mem := { s.mem with ueAddr := addr % 2 ^ 64 } }).startScrub;
    (if s.flag (0x3018, 16, 1) then s.startRetire r 2 else s)

/-- RANK_MIGRATION_DONE (R511): every block has moved, and the rank is retired until power-on. -/
def execRankMigrationDone (dt r : Nat) (s : State) : Host.Outcome State Fault Refusal := s.act fun s =>
  let s := s.tick dt
  let x := s.rank r
  if 2 ≤ r || !x.migrating || s.asksLeave (.migrate r) then s
  else
    let y := s.rank (1 - r)
    let s := (s.setRank r { x with migrating := false, retired := true, used := 0 }).setRank (1 - r) { y with used := y.used + x.used };
    ((s.returnLeave (.migrate r)).raise 0x2B).event 0x0301 (leBytes r 1 ++ leBytes x.cause 1)

/-- FULL_SCRUB_DONE (R514). -/
def execFullScrubDone (dt corrected : Nat) (s : State) : Host.Outcome State Fault Refusal := s.act fun s =>
  let s := s.tick dt
  if !s.mem.scrub then s
  else
    let s := (({ s with mem := { s.mem with scrub := false } }).returnLeave .scrub).cntSat (0x3030, 16, 16)
    s.event 0x0302 (leBytes corrected 4)

end Sys2Proof.Machine
end

