-- ==== Sys2Proof/Machine/RegsC.lean ====
section
/-! DEFINITION. The bits of BAR0 that are read-only (R7, R550): those a direct write leaves alone without breaking a rule
(R392), and which offsets are registers at all (R365). -/
namespace Sys2Proof.Machine

/-- Read-only bits: first register, stride, how many registers, and the bits. -/
def roRows : List (Nat × Nat × Nat × Nat) := [
  -- BLK_ID of every window and BLK_CTRL of SAF (R550)
  (0x0000, 0x1000, 22, 0xFFFF), (0x11004, 4, 1, 0xF),
  -- CLK (R2, R69) and PAD (R547)
  (0x0008, 4, 1, 0xFF017FFF), (0x0010, 4, 1, 0x1FF), (0x1010, 4, 1, 0xFFF), (0x1014, 4, 1, 0x1FFF),
  -- MEM (R517)
  (0x3010, 4, 1, 0xFF), (0x3014, 4, 1, 0xFFFF), (0x3020, 4, 2, 0x03FFFFFF), (0x3030, 4, 3, 0xFFFFFFFF),
  -- TIM (R67, R68, R62)
  (0x4008, 4, 1, 0x3FF), (0x402C, 4, 2, 0xFFFFFFFF), (0x403C, 4, 3, 0xFFFFFFFF),
  (0x4100, 0x10, 9, 0xFFFFFFFF), (0x4104, 0x10, 9, 0xFFFFFFFF), (0x4108, 0x10, 9, 0x3FFF),
  -- GNS (R107, R108, R110, R142)
  (0x5010, 4, 1, 0x01FFFFFF), (0x5020, 4, 6, 0xFFFFFFFF), (0x5038, 4, 4, 0xFFFFFFFF),
  (0x5068, 4, 1, 0x000F1FFF), (0x506C, 4, 1, 0xFFFFFFFF), (0x5084, 0x10, 6, 0x7FFFF), (0x51C0, 4, 13, 0xFFFFFF),
  (0x5100, 4, 1, 0x8000), (0x5118, 4, 1, 0xFFFFFFFF), (0x5140, 4, 1, 0x3F), (0x5144, 4, 1, 0xFFFFFFFF), (0x5148, 4, 1, 0xFFF),
  (0x5170, 4, 6, 0xFFFFFFFF),
  -- SNP (R143, R144) and FRK (R171, R172)
  (0x6010, 4, 1, 0xFFF), (0x6020, 4, 2, 0xFFFFFFFF), (0x6100, 4, 256, 0xFFFF00FF),
  (0x7010, 4, 1, 0x7FF), (0x704C, 4, 1, 0xFFFFFFFF), (0x7058, 4, 4, 0xFFFFFFFF), (0x7100, 4, 256, 0xFFFFFFFF),
  -- TRL (R206, R207)
  (0x8010, 4, 1, 0xF), (0x8024, 4, 1, 0xFFFFFFFF), (0x8028, 4, 1, 0xFFFF), (0x802C, 4, 1, 0x1FFFFF), (0x8030, 4, 1, 0xFFFFFF),
  (0x8034, 4, 2, 0x7FFFFF), (0x803C, 4, 1, 0x1FFFF), (0x8040, 4, 2, 0xFFFFFFFF), (0x8048, 4, 1, 0x3FFFF),
  (0x804C, 4, 1, 0xFFFFFFFF), (0x8050, 4, 1, 0xFFFF), (0x8200, 4, 256, 0xFFFFFF3F),
  -- TXU (R20, R248, R249)
  (0x9020, 4, 1, 0x1FFFF), (0x902C, 4, 2, 0xFFFFFFFF), (0x9034, 4, 1, 0x3FFFFFFF), (0x9038, 4, 1, 0xFFFFFF),
  (0x9400, 4, 256, 0xFFFF03FF), (0x9800, 4, 256, 0x00FFFFFF),
  -- CTL (R280, R281) and PRF (R283, R284)
  (0xA010, 4, 1, 0x7FF), (0xA020, 4, 2, 0xFFFFFFFF), (0xA028, 4, 1, 0xFFFF), (0xA500, 4, 536, 0x00730000),
  (0xB010, 4, 1, 0x3FFF), (0xB018, 4, 1, 0xFFFFFFFF), (0xB080, 4, 24, 0xF), (0xB100, 4, 256, 0xFFFF001F),
  -- AXS (R309, R312)
  (0xC010, 4, 1, 0xFFFFFF), (0xC124, 0x40, 24, 0xF7FF), (0xC128, 0x40, 24, 0xFFFFFFFF), (0xC12C, 0x40, 24, 0xFFFFFFFF),
  (0xC130, 0x40, 24, 0xFFFFFFFF), (0xC134, 0x40, 24, 0xFFFFFFFF),
  -- MAC (R346)
  (0xD010, 4, 1, 0x3FFF), (0xD01C, 4, 1, 0xFFFFFFFF), (0xD020, 4, 1, 0xFFFF), (0xD030, 4, 4, 0xFFFFFFFF),
  (0xD104, 0x40, 6, 0xFFFF000F), (0xD114, 0x40, 6, 0xFFFFFFFF), (0xD118, 0x40, 6, 0xFFFFFFFF),
  -- QUE (R361-R363)
  (0xE010, 4, 1, 0xFF01), (0xE014, 4, 1, 0xFFFFFF), (0xE01C, 4, 1, 1), (0xE020, 4, 2, 0xFFFFFFFF),
  (0xE808, 0x10, 128, 0x7FFFFF), (0xE80C, 0x10, 128, 0xFFFFFFFF),
  -- GOV (R412)
  (0x10010, 4, 1, 0x3FFFF), (0x10018, 4, 2, 0xFFFF), (0x10020, 4, 2, 0xFFFFFFFF),
  -- SAF (R443, R444) and FLT (R445, R447)
  (0x11010, 4, 1, 0x7FF), (0x11020, 4, 1, 0xFFFF), (0x11024, 4, 1, 0x3FF), (0x11028, 4, 3, 0xFFFFFFFF), (0x11034, 4, 1, 0xF),
  (0x11038, 4, 1, 0xFFFFFFFF),
  (0x12010, 4, 1, 0x1FFF), (0x12014, 4, 1, 0xFFFFFFFF), (0x12018, 4, 1, 0xFFFF), (0x12104, 8, 192, 0xFFFFFFFF),
  -- DRY (R462, R469, R470)
  (0x13010, 4, 1, 0x1FF), (0x13018, 4, 4, 0xFFFFFFFF), (0x13028, 4, 1, 0x3FFF), (0x13040, 8, 8, 0xFFFFFFFF),
  (0x13044, 8, 8, 0x87FFFFFF), (0x13080, 4, 1, 0x7FF), (0x13100, 4, 1, 0xFFFFFFFF),
  -- UPD (R495)
  (0x14010, 4, 1, 0x1FF), (0x14018, 4, 1, 0xFFFFFFFF), (0x1401C, 4, 1, 0xFFFFFF), (0x14020, 4, 12, 0xFFFFFFFF),
  (0x14050, 4, 1, 0xFF), (0x14054, 4, 3, 0xFFFFFFFF), (0x14108, 8, 5, 0xFFFFFF1F), (0x1410C, 8, 5, 0xFFFFFFFF),
  -- PAR (R516)
  (0x15010, 4, 1, 0x3FF), (0x1501C, 4, 5, 0xFFFFFFFF), (0x15030, 4, 1, 0xFFFF)]

/-- Does a row cover an offset? -/
def roCovers (off : Nat) (r : Nat × Nat × Nat × Nat) : Bool :=
  decide (r.1 ≤ off) && (off - r.1) % r.2.1 == 0 && decide ((off - r.1) / r.2.1 < r.2.2.1)

/-- The read-only bits of a register. -/
def roMask (off : Nat) : Nat := (roRows.filter (roCovers off)).foldl (fun a r => a ||| r.2.2.2) 0

/-- Is an offset a register? `BLK_CTRL` is one of every window (R550). -/
def isReg (off : Nat) : Bool :=
  knownReg off || roRows.any (roCovers off) || (decide (off < 0x16000) && off % 0x1000 == 4)

end Sys2Proof.Machine
end

