-- ==== Sys2Proof/Machine/Rules.lean ====
section
/-! DEFINITION. The rule table of the Bench (R394): what a set of entries breaks, judged on the registers as they would
stand after it. -/
namespace Sys2Proof.Machine

/-! ### The registers after a set -/

/-- Registers that belong only to resources the MB7-64 lacks (R4): lanes 3-5, ports 3-5, the A-B baseline (R94) and the
two-antenna check of antenna B (R117), loop slots from 152. -/
def fusedOff (big : Bool) (off : Nat) : Bool :=
  !big && ((0x5038 ≤ off && off < 0x5044) || (0x515C ≤ off && off < 0x5160) || (0xD1C0 ≤ off && off < 0xD280) || (0xDB00 ≤ off && off < 0xDE00) || (0x50B0 ≤ off && off < 0x50E0) ||
    (0xA500 + 4 * 152 ≤ off && off < 0xA500 + 4 * 536))

/-- A register under one entry: its RW bits under the mask take their value. A W1S bit whose reading the spec does not give (`CAL_NOW`,
`RETIRE`, R111) is not stored: it reads 0 (DESIGN CHOICE, log entry 105). -/
def Dev.entryValue (s : Dev) (e : Staged) : Reg :=
  let m := BitVec.ofNat 32 (rwMask e.addr &&& e.mask)
  (s.reg e.addr &&& ~~~m) ||| (BitVec.ofNat 32 e.value &&& m)

/-- The registers after a set, and nothing else changed. -/
def Dev.withEntries (s : Dev) (ents : List Staged) : Dev :=
  ents.foldl (fun s e => s.setReg e.addr (s.entryValue e)) s

/-- Does a set touch a field? -/
def touches (ents : List Staged) (f : Fld) : Bool :=
  ents.any fun e => e.addr == f.1 && bits e.mask f.2.1 f.2.2 != 0

/-- A broken rule: the index of its entry (0x3FF = none) and its number (R393, R411). -/
abbrev Broken := Nat × Nat

/-- Failures of a rule over some registers, laid on the first entry that touches one of them. -/
def broken (ents : List Staged) (rule : Nat) (at_ : Nat → Bool) (bad : Bool) : List Broken :=
  match ents.findIdx? fun e => at_ e.addr with
  | some i => if bad then [(i, rule)] else []
  | none => []

/-- Lies an offset in a range? -/
def within (lo n off : Nat) : Bool := decide (lo ≤ off ∧ off < lo + n)

/-! ### Rules of one entry (0x0001 to 0x0003, 0x0007, 0x0008, R31, R446) -/

/-- A field's own range: `LOG2_DEPTH` depends on the variant (R353), a class lies not below its floor (R446). -/
def Dev.fieldBad (s : Dev) (r : FRow) (i v : Nat) : Bool :=
  !r.ok v ||
  (r.base == 0xE800 && r.lo == 0 && (if s.fuse.big then decide (14 < v) else decide (v < 5))) ||
  (r.base == 0x12100 && r.lo == 0 && decide (v < (srcDefD i).floor))

/-- Rules of one entry, with the registers after the set in `t`. A direct write breaks rule 0x0001 only by a reserved bit
or a fused-off register (R392). -/
def Dev.entryRules (s t : Dev) (direct : Bool) (idx : Nat) (e : Staged) : List Broken :=
  let known := maskOf e.addr fun _ => true
  let fixedCls := within 0x12100 (8 * 192) e.addr && e.addr % 8 == 0 && (srcDefD ((e.addr - 0x12100) / 8)).fixed &&
    bits e.mask 0 2 != 0 && bits e.value 0 2 != fieldOf (s.reg e.addr) 0 2
  let one := fusedOff s.fuse.big e.addr || fixedCls ||
    (if direct then (e.value &&& e.mask) ||| (known ||| roMask e.addr) != known ||| roMask e.addr else e.mask ||| stageMask e.addr != stageMask e.addr)
  let fields := (fieldsAt e.addr).filterMap fun p =>
    let v := t.fld (e.addr, p.1.lo, p.1.w)
    if p.1.acc == .rw && !p.1.direct && bits e.mask p.1.lo p.1.w != 0 && t.fieldBad p.1 p.2 v then some (idx, p.1.rule) else none
  (if one then [(idx, 1)] else []) ++ fields

/-! ### Rules over several fields, fixed in hardware -/

/-- Axes (rules 0x0004, 0x0009, 0x000A, 0x0102, 0x0105). -/
def Dev.axisRules (s t : Dev) (ents : List Staged) : List Broken :=
  ((List.range 24).filter fun n => ents.any fun e => within (0xC100 + 0x40 * n) 0x40 e.addr).flatMap fun n =>
    let at_ := within (0xC100 + 0x40 * n) 0x40
    let lo := t.hedgeLo n
    let hi := t.hedgeHi n
    let vl := t.fld (axF n 0xC 0 21)
    let st := (s.axis n).st
    broken ents 4 at_ (decide (hi ≤ lo) || (t.axMode n == 3 && (decide (0 < lo) || decide (hi < 0)))) ++
    broken ents 9 at_ (decide (vl < t.fld (axF n 0x38 0 21))) ++
    broken ents 0xA at_ (decide (100000000 < 2 * vl * t.fld (axF n 0 8 8))) ++
    broken ents 0x102 at_ (decide (n < 16) && t.fld (axF n 0 3 1) == 0 && (s.loop n).st != .open_) ++
    broken ents 0x105 at_ (t.axMode n != s.axMode n && !(st == .disabled || st == .idle || st == .fault))

/-- Queues (rules 0x0003, 0x0005, 0x0105) and their store (0x0006). -/
def Dev.queueRules (s t : Dev) (ents : List Staged) : List Broken :=
  let one := ((List.range 128).filter fun q => ents.any fun e => within (0xE800 + 0x10 * q) 0x10 e.addr).flatMap fun q =>
    let at_ := within (0xE800 + 0x10 * q) 0x10
    let cap := (t.queCfg q).1
    let lo := t.fld (0xE804 + 0x10 * q, 0, 16)
    let hi := t.fld (0xE804 + 0x10 * q, 16, 16)
    broken ents 3 at_ (decide (cap < (t.queCfg q).2)) ++
    broken ents 5 at_ (!(decide (lo < hi) && decide (hi ≤ cap))) ++
    broken ents 0x105 at_ (decide (q ≤ 42) && t.queCfg q != s.queCfg q && s.saf.run != .fleetStop)
  let sum := (List.range 128).foldl (fun n q => n + max (s.queForce q).1 (t.queCfg q).1) 0
  let six := s.fuse.big && decide (262144 < sum) && ents.any fun e => within 0xE800 0x800 e.addr
  one ++ (if six then [(0x3FF, 6)] else [])

/-- Time (rules 0x0007, 0x0009, 0x000C). -/
def Dev.timeRules (s t : Dev) (ents : List Staged) : List Broken :=
  let rate := t.fld (0x4060, 0, 10)
  broken ents 7 (within 0x4060 8) (decide (rate ≠ 0 ∧ 500000 / rate < t.fld (0x4064, 0, 20)) ||
    (s.tim.ppsQual && t.fld (0x4060, 10, 1) != s.fld (0x4060, 10, 1))) ++
  broken ents 9 (fun o => o == 0x4028 || o == 0x4038) (decide (t.fld (0x4038, 0, 24) ≤ t.fld (0x4028, 0, 16))) ++
  broken ents 0xC (within 0x4050 4) (t.flag (0x4050, 6, 1) && t.fld (0x4050, 16, 16) == 0)

/-- Signals of a system, the source first (R75, R76). -/
def signalSystems : List (List Nat) := [[0, 1, 2, 3], [4, 5, 6, 7], [8, 9, 10, 11, 12], [13, 14, 15]]

/-- GNSS (rules 0x0009, 0x000D, 0x0104, 0x0105). -/
def Dev.gnssRules (s t : Dev) (ents : List Staged) : List Broken :=
  let en := t.fld (0x5018, 0, 16)
  let air := t.fld (0x5114, 0, 16)
  let hz := rateHz (t.fld (0x5014, 0, 3))
  let div := t.fld (0x5110, 0, 8)
  let need := s.txu.leases.foldl (fun m p =>
    if p.2.st = .admitting ∨ p.2.st = .active ∨ p.2.st = .suspect ∨ p.2.st = .dead then max m (10 / p.2.tRep) else m) 0
  let ant := t.fld (0x5014, 24, 1)
  let antBad := ant != s.fld (0x5014, 24, 1) && (s.saf.run != .fleetStop || s.gns.baseline != 2 || (ant == 1 && !s.fuse.big))
  let srcBad := signalSystems.any fun l => match l with
    | src :: rest => !bitAt en src && rest.any fun n => bitAt en n
    | [] => false
  broken ents 9 (within 0x5154 4) (decide (t.fld (0x5154, 8, 8) ≤ t.fld (0x5154, 0, 8))) ++
  broken ents 9 (within 0x5158 4) (decide (t.fld (0x5158, 16, 16) ≤ t.fld (0x5158, 0, 16))) ++
  broken ents 9 (within 0x515C 4) (decide (t.fld (0x515C, 0, 8) ≤ t.fld (0x515C, 8, 8))) ++
  broken ents 0xD (fun o => o == 0x5018) srcBad ++
  broken ents 0xD (fun o => o == 0x5018 || o == 0x5114) (en ||| air != en) ++
  broken ents 0xD (fun o => o == 0x5014 || o == 0x5110) (div != 0 && decide (5 * div < hz)) ++
  broken ents 0x104 (within 0x5014 4) (decide (hz < need)) ++
  broken ents 0x105 (within 0x5014 4) antBad

/-- The diary: edges ascend (R452, rule 0x0009), and the second-unit windows of sources (R446, rule 0x0003). -/
def Dev.diaryRules (t : Dev) (ents : List Staged) : List Broken :=
  ((List.range 8).flatMap fun c =>
    broken ents 9 (within (0x13104 + 0x40 * c) 0x20)
      ((List.range 14).any fun k => decide (t.edge c (k + 2) ≤ t.edge c (k + 1)))) ++
  (ents.filter fun e => within 0x12100 (8 * 192) e.addr && e.addr % 8 == 0).flatMap fun e =>
    broken ents 3 (fun o => o == e.addr) (t.flag (e.addr, 3, 1) && decide (3600 < t.fld (e.addr, 12, 12)))

/-- Lanes (rules 0x000B, 0x0101). `t` says which lanes are to be in service. -/
def Dev.laneRules (t : Dev) (ents : List Staged) : List Broken :=
  (List.range 6).flatMap fun n =>
    let regs : Nat → Bool := within (0xD100 + 0x40 * n) 0x14
    let plan : Nat → Bool := within (0xD800 + 0x100 * n) 0x100
    let on := decide (n < t.nLanes) && t.flag (lnEn n)
    let phy : Nat → Bool := fun o => regs o || within 0xD300 0x80 o
    if on then
      broken ents 0xB phy (!t.beaconFits n || t.bond n == 3 || decide (400000 < t.stopToAir n)) ++
      broken ents 0x101 (fun o => regs o || plan o) (t.routesBreak t.mac.routes n)
    else
      (ents.filter fun e => plan e.addr && bits e.mask 0 4 != 0 && 4 ≤ t.fld (e.addr, 0, 4)).flatMap fun e =>
        broken ents 0x101 (fun o => o == e.addr) true

/-! ### Firmware rules -/

/-- Loops (rule 0x0102): the active record of a slot that is not OPEN neither changes nor is invalid. -/
def Dev.loopRules (s t : Dev) (ents : List Staged) : List Broken :=
  s.ctl.loops.flatMap fun p =>
    let n := p.1
    if p.2.st = .open_ then []
    else
      let g := loopRec s.reg n (loopSet s.reg n)
      let word : Nat → Bool := fun o => o == 0xA500 + 4 * n
      let gain : Nat → Bool := within (0xA100 + 0x20 * g) 0x20
      broken ents 0x102 gain ((List.range 8).any fun k => gainWord s.reg g k != gainWord t.reg g k) ++
      broken ents 0x102 word (loopRec t.reg n (loopSet t.reg n) != g || loopSet t.reg n != loopSet s.reg n) ++
      broken ents 0x102 (fun o => word o || gain o) (!gainValid t.reg (loopRec t.reg n (loopSet t.reg n)))

/-- Is a class within the ranges of R15? -/
def classOk (c : ClassRec) : Bool :=
  1 ≤ c.vMax && c.vMax ≤ 10000 && (!c.reverse || c.vRev != 0) && 1 ≤ c.aMax && c.aMax ≤ 20000 && 1 ≤ c.aBrk && c.aBrk ≤ 20000 &&
    1 ≤ c.jMax && 1 ≤ c.lat && c.lat ≤ 1000 && 1 ≤ c.hw && c.hw ≤ 10000

/-- The raw words of a class. -/
def Dev.classWords (s : Dev) (c : Nat) : List Reg := (List.range 5).map fun k => s.reg (0x9100 + 0x20 * c + 4 * k)

/-- Robot classes and lease timing (rule 0x0103). The raw fields of a class are judged, so that a 0 is seen. -/
def Dev.leaseRules (s t : Dev) (ents : List Staged) : List Broken :=
  let live := s.txu.leases.filter fun p => p.2.st = .admitting || p.2.st = .active || p.2.st = .suspect || p.2.st = .dead
  let rep := live.foldl (fun m p => max m p.2.tRep) 0
  let lt := 10 * t.fld (0x9010, 0, 12)
  ((List.range 16).flatMap fun c =>
    let b := 0x9100 + 0x20 * c
    let zero := t.fld (b + 4, 16, 16) == 0 || t.fld (b + 8, 0, 16) == 0
    broken ents 0x103 (within b 0x14) ((t.classWords c != s.classWords c && live.any fun p => p.2.cls == c) ||
      ((t.cls c).valid && (zero || !classOk (t.cls c))))) ++
  broken ents 0x103 (within 0x9010 4) (decide (lt < t.fld (0x9010, 12, 12) + 500) || decide (lt ≤ 300 * rep))

/-- Changes tied to a state (rule 0x0105) beyond axes, queues and `REF_ANT`. -/
def Dev.stateRules (s t : Dev) (ents : List Staged) : List Broken :=
  let stop := s.saf.run = .fleetStop
  broken ents 0x105 (within 0x7024 0x1C)
    (!stop && (t.fld (0x7024, 0, 1) != s.fld (0x7024, 0, 1) || (List.range 6).any fun k => t.reg (0x7028 + 4 * k) != s.reg (0x7028 + 4 * k))) ++
  broken ents 0x105 (within 0xD018 4) (!stop && t.reg 0xD018 != s.reg 0xD018) ++
  broken ents 0x105 (within 0x801C 4) (s.trl.graph.isSome && t.fld (0x801C, 16, 8) != s.fld (0x801C, 16, 8))

/-- Firm horizon, link range and clearances (rule 0x0106). -/
def Dev.rangeRules (s t : Dev) (ents : List Staged) : List Broken :=
  let valid := ((List.range 16).map fun c => t.cls c).filter (·.valid)
  let firm := 100 * t.fld (0x8014, 0, 8)
  let more := if 40 < t.fld (0x9024, 0, 8) then 100 else 0
  let clsReg : Nat → Bool := within 0x9100 0x200
  let clear : Nat → Bool := within 0x8100 0x40
  let hw := valid.foldl (fun m c => max m c.hw) 0
  let dValid := (List.range 16).foldl (fun m c => if t.flag (0x8100 + 4 * c, 24, 1) then max m (t.dClear c) else m) 0
  broken ents 9 (fun o => o == 0x8014) (decide (t.fld (0x8014, 8, 9) ≤ t.fld (0x8014, 0, 8))) ++
  broken ents 0x106 (fun o => o == 0x8014 || o == 0x9024 || clsReg o)
    (valid.any fun c => decide (firm * c.aBrk ≤ (600 + c.lat + more) * c.aBrk + 1000 * c.vMax)) ++
  broken ents 0x106 (fun o => o == 0x801C || o == 0x8018 || o == 0x9018 || clsReg o || clear o)
    (decide (1000 * t.fld (0x801C, 16, 8) ≤ 2 * (hw + 10 * t.fld (0x8018, 16, 16) + 20 * t.fld (0x9018, 16, 16) + 10) + 10 * dValid)) ++
  (List.range 16).flatMap fun c =>
    let used := match s.trl.graph with | some g => g.segs.filter fun (x : SegRec) => x.clear == c | none => []
    let held := used.any fun (x : SegRec) => s.trl.resv.any fun (r : Resv) => r.seg == x.id
    broken ents 0x106 (fun o => o == 0x8100 + 4 * c)
      ((!used.isEmpty && s.flag (0x8100 + 4 * c, 24, 1) && !t.flag (0x8100 + 4 * c, 24, 1)) ||
       (held && (decide (t.dClear c < s.dClear c) || decide (t.tClear c < s.tClear c))))

/-- Registers carried by the `BENCH_ENTRY` actions of a transaction. -/
def Txn.benchAddrs (t : Txn) : List Nat := t.acts.filterMap fun a => match a with | .benchEntry o _ _ => some o | _ => none

/-- Rule 0x0107: a staged register that a validated, uncommitted transaction also carries; `but` is left out. -/
def Dev.txnRules (s : Dev) (ents : List Staged) (but : Nat) : List Broken :=
  let open_ := s.txu.txns.filter fun t => t.id != but && (t.phase = .staged || t.phase = .offered || t.phase = .listed)
  let addrs := open_.flatMap Txn.benchAddrs
  (ents.zipIdx.filter fun p => addrs.contains p.1.addr).map fun p => (p.2, 0x107)

/-- Registers under a firmware rule (R392, R394): their direct writes wait out a planning pause. -/
def firmwareReg (o : Nat) : Bool :=
  within 0xD800 0x600 o || within 0xD100 0x180 o || within 0xA100 0xC60 o || within 0xC100 0x600 o || within 0x9010 0x18 o ||
    within 0x9100 0x200 o || within 0x8014 0xC o || within 0x8100 0x40 o || within 0x7024 0x1C o || o == 0x5014 || o == 0xD018 ||
    within 0xE800 0x2B0 o

/-! ### The whole table -/

/-- Insert into a list ordered by entry, then by rule. -/
def insertBroken (b : Broken) : List Broken → List Broken
  | [] => [b]
  | x :: rest => if b.1 < x.1 || (b.1 == x.1 && b.2 ≤ x.2) then b :: x :: rest else x :: insertBroken b rest

/-- Order of R393: by entry, then by rule. -/
def brokenSort (l : List Broken) : List Broken :=
  l.foldr (fun b acc => insertBroken b acc) []

/-- Every rule a set breaks. `but` is the id of a transaction whose own entries are judged, else 0. -/
def Dev.judgeSet (s : Dev) (ents : List Staged) (direct : Bool) (but : Nat) : List Broken :=
  let t := s.withEntries ents
  let one := ents.zipIdx.flatMap fun p => s.entryRules t direct p.2 p.1
  brokenSort (one ++ s.axisRules t ents ++ s.queueRules t ents ++ s.timeRules t ents ++ s.gnssRules t ents ++ t.diaryRules ents ++
    t.laneRules ents ++ s.loopRules t ents ++ s.leaseRules t ents ++ s.stateRules t ents ++ s.rangeRules t ents ++
    (if direct then [] else s.txnRules ents but)).eraseDups

/-- Loop slots whose gain entries a set holds (R257). -/
def Dev.heldSlots (s : Dev) (ents : List Staged) : List Nat :=
  (List.range s.nLoops).filter fun n =>
    ents.any fun e => e.addr == 0xA500 + 4 * n ||
      [0, 1].any fun b => within (0xA100 + 0x20 * loopRec s.reg n b) 0x20 e.addr

/-- Merge an entry into a set (R391). -/
def mergeEntry (l : List Staged) (e : Staged) : List Staged :=
  if l.any fun x => x.addr == e.addr then
    mapWhere (fun (x : Staged) => x.addr == e.addr) (fun (x : Staged) =>
      { x with value := (x.value &&& (0xFFFFFFFF - e.mask)) ||| (e.value &&& e.mask), mask := x.mask ||| e.mask }) l
  else l ++ [e]

/-- May an entry of this offset be staged at all (R391)? -/
def addrStageable (e : Staged) : Bool := e.addr % 4 == 0 && decide (e.addr < 0x16000) && !within 0x2000 0x1000 e.addr
def stageable (e : Staged) : Bool := addrStageable e && e.mask != 0

/-- Up to eight broken rules for a `DONE` (R381), and for `BEN_FAILk` (R411). -/
def brokenRes (l : List Broken) : List Byte := (l.take 8).flatMap fun b => leBytes b.2 2

end Sys2Proof.Machine
end

