-- ==== Sys2Proof/Machine/Apply.lean ====
section
/-! DEFINITION. How a set of register values takes effect at one instant (R392, R397), whether it comes from the Bench,
from a transaction or from a direct write, and the rows of the direct writes. -/
namespace Sys2Proof.Machine

/-! ### What follows a change, window by window; `o` is the state before -/

/-- The bits a set writes as 1 in a field (W1S, W1C, WO). -/
def ones (ents : List Staged) (f : Fld) : Nat :=
  ents.foldl (fun a e => if e.addr = f.1 then bits (e.mask &&& e.value) f.2.1 f.2.2 else a) 0

/-- Entries that are not taken: `T` and `PERIOD` of an armed output (R63). -/
def Dev.dropArmed (s : Dev) (ents : List Staged) : List Staged :=
  ents.filter fun e => !((List.range 4).any fun n =>
    s.flag (fOutArm n) && [0x4200, 0x4204, 0x420C].contains (e.addr - 0x10 * n))

/-- An arm of a timed output (R63): ignored without `TDC_CAL`, and `LATE` when T is less than 10 us away. A periodic arm while
`PERIOD` stands at its reset value 0, outside its range, is ignored too (DESIGN CHOICE, log entry 97). -/
def Dev.outArm (s : Dev) (n : Nat) : Dev :=
  if !s.tim.tdcCal || (s.fld (fOutCtrl n, 0, 2) == 3 && s.reg (0x420C + 0x10 * n) == 0) then s
  else if ntDiff (s.outT n) s.nt < (usTicks 10 : Int) then s.setFld (fOutCtrl n, 4, 1) 1
  else
    let s := s.setFld (fOutArm n) 1
    { s with tim := { s.tim with outNext := s.tim.outNext.set n (some (s.outT n)) } }

/-- `TIM` (R39, R45-R63): a change of source through the Bench, the host as the source of the GPS-UTC offset, a fresh label, the
pulse, the timed outputs. -/
def Dev.applyTim (s o : Dev) (ents : List Staged) (bench : Bool) : Dev :=
  let s := if bench && o.fld fSrc != s.fld fSrc && s.tim.st == .locked then
    { s.setTime .acquiring with tim := { (s.setTime .acquiring).tim with lockCnt := 0 } } else s
  let s := if touches ents (0x4048, 0, 18) then s.setFld (0x4048, 17, 1) 1 else s
  let s := if touches ents fPpsinSec then { s with tim := { s.tim with labelled := true } } else s
  let pps := touches ents fPpsRate || touches ents fPpsPol || touches ents fPpsWidth || touches ents fPpsPhase
  let old := o.tim.ppsChange
  let pick := fun (f : Fld) (x : PpsChange → Nat) =>
    if touches ents f then s.fld f else match old with | some c => x c | none => s.fld f
  let change : PpsChange := {
    rate := pick fPpsRate (fun (c : PpsChange) => c.rate), pol := pick fPpsPol (fun (c : PpsChange) => c.pol)
    width := pick fPpsWidth (fun (c : PpsChange) => c.width), phase := pick fPpsPhase (fun (c : PpsChange) => c.phase)
    at_ := s.ppsChangeAt, handle := old.bind fun (c : PpsChange) => c.handle }
  let s := if pps then { s with tim := { s.tim with ppsChange := some change } } else s
  let s := if ones ents fPpsEn = 1 then s.setFld fPpsEn 1 else s
  (List.range 4).foldl (fun s n =>
    let r := fOutCtrl n
    let s := [4, 5, 6].foldl (fun s b => if ones ents (r, b, 1) = 1 then s.setFld (r, b, 1) 0 else s) s
    let s := if ones ents (r, 3, 1) = 1 then s.outDisarm n else s
    if ones ents (fOutArm n) = 1 then s.outArm n else s) s

/-- `AXS` (R291, R310): the recovery origin, and every write of `ENABLE`. -/
def Dev.applyAxs (s o : Dev) (ents : List Staged) : Dev :=
  axisList.foldl (fun s n =>
    let s := if s.axMode n = 3 && o.axMode n != 3 then s.setAxis n { s.axis n with origin := s.axPos n } else s
    if touches ents (axF n 0 0 1) then s.axEnable n (s.flag (axF n 0 0 1)) else s) s

/-- `GNS` (R72, R74, R79-R81): ports in and out of use, the rotation, and the commands in its registers. One write of both `CAL_NOW` and
`RETIRE` does them in that order, which the spec leaves open (DESIGN CHOICE, log entry 105). -/
def Dev.applyGns (s o : Dev) (ents : List Staged) : Dev :=
  let s := (List.range 6).foldl (fun s p => if o.fld (spEn p) != s.fld (spEn p) then s.portEn p else s) s
  let s := if !o.flag (0x5060, 0, 1) && s.flag (0x5060, 0, 1) then { s with gns := { s.gns with calFrom := s.up } } else s
  let s := if ones ents (0x5064, 4, 1) = 1 then s.calNow (s.fld (0x5064, 0, 4)) else s
  let s := if ones ents (0x5064, 5, 1) = 1 then s.retireGrp (s.fld (0x5064, 0, 4)) else s
  if ones ents (0x5100, 14, 1) = 1 then s.feGo else s

/-- `FRK` and `MEM` (R166, R511): retirements and a full scrub. -/
def Dev.applyFrkMem (s : Dev) (ents : List Staged) : Dev :=
  let eng := ones ents (0x7068, 0, 8)
  let s := (List.range 8).foldl (fun s e => if bitAt eng e then s.retireEng e else s) s
  let s := if ones ents (0x301C, 0, 1) = 1 then s.startScrub else s
  let r := ones ents (0x301C, 2, 2)
  let s := if bitAt r 0 then s.startRetire 0 3 else s
  if bitAt r 1 then s.startRetire 1 3 else s

/-- `MAC` (R314, R316) and `CTL` (R281): lanes in and out of service, flags cleared. -/
def Dev.applyMacCtl (s o : Dev) (ents : List Staged) : Dev :=
  let s := (List.range 6).foldl (fun s n => s.laneEn n (o.flag (lnEn n)) (s.flag (lnEn n))) s
  (ents.filter fun e => within 0xA500 (4 * 536) e.addr).foldl (fun s e =>
    let n := (e.addr - 0xA500) / 4
    let s := if ones [e] (e.addr, 18, 1) = 1 then s.setFld (lpBump n) 0 else s
    if ones [e] (e.addr, 19, 1) = 1 then s.setFld (lpMissed n) 0 else s) s

/-- `QUE` (R359-R361): a changed size waits for the queue to be empty; watermarks and pins act at once. -/
def Dev.applyQue (s o : Dev) (ents : List Staged) (bench : Bool) : Dev :=
  let s := if bench then { s with que := { s.que with benched := true } } else s
  let s := if ones ents (0xE01C, 1, 1) = 1 then { s with que := { s.que with refused := false } } else s
  let s := (List.range 128).foldl (fun s q =>
    if ents.any fun e => e.addr == 0xE800 + 0x10 * q || e.addr == 0xE804 + 0x10 * q then
      let x := s.queue q
      s.setQueue q (if o.queCfg q != s.queCfg q && x.old.isNone then { x with old := some (o.queForce q) } else x)
    else s) s
  s.updPins

/-- `FLT` and `DRY` (R432, R437, R452): sources judged again, force bits, edges. -/
def Dev.applyFltDry (s o : Dev) (ents : List Staged) : Dev :=
  let s := (List.range 6).foldl (fun s m =>
    if ents.any fun e => e.addr == 0x12080 + 4 * m then
      ({ s with regs := Tab.set resetReg s.regs (0x12080 + 4 * m) (o.reg (0x12080 + 4 * m)) }).setForce m (s.reg (0x12080 + 4 * m))
    else s) s
  let s := (List.range 192).foldl (fun s n =>
    if ents.any fun e => e.addr == 0x12100 + 8 * n || e.addr == 0x12104 + 8 * n then s.srcChanged n (o.fld (srcCls n)) else s) s
  (List.range 8).foldl (fun s c =>
    if (List.range 8).any fun m => o.reg (0x13104 + 0x40 * c + 4 * m) != s.reg (0x13104 + 0x40 * c + 4 * m) then s.edgeChanged c
    else s) s

/-- Every register of a set takes its value at this instant, and what follows from it (R392, R397). `bench`: the set came
by a strobe of the Bench or of a transaction, not by a direct write. -/
def Dev.applyEnts (o : Dev) (ents0 : List Staged) (bench : Bool) : Dev :=
  let ents := o.dropArmed ents0
  let s := o.withEntries ents
  let s := (s.applyTim o ents bench).applyAxs o ents
  let s := ((s.applyGns o ents).applyFrkMem ents).applyMacCtl o ents
  (s.applyQue o ents bench).applyFltDry o ents

/-! ### Direct writes (R392, R551) -/

/-- A direct write outside `HIF`, judged by the rule table and applied, or ignored and counted. -/
def Dev.judgeDirect (s : Dev) (off : Nat) (v : Reg) : Dev :=
  let e : Staged := { addr := off, value := v.toNat, mask := 0xFFFFFFFF }
  if (s.judgeSet [e] true 0).isEmpty then s.applyEnts [e] false
  else (s.cntSat (0xF020, 0, 16)).setReg 0xF034 (BitVec.ofNat 32 off)

/-- A direct write. During a planning pause one that a firmware rule covers is held until the pause ends (R392). -/
def Dev.directWrite (s : Dev) (off : Nat) (v : Reg) : Dev :=
  if s.upd.pause == some 1 && firmwareReg off then { s with ben := { s.ben with heldWrites := s.ben.heldWrites ++ [(off, v.toNat)] } }
  else s.judgeDirect off v

/-- The writes held during a pause are judged in their order. -/
def Dev.judgeHeld (s : Dev) : Dev :=
  let l := s.ben.heldWrites
  l.foldl (fun s p => s.judgeDirect p.1 (BitVec.ofNat 32 p.2)) { s with ben := { s.ben with heldWrites := [] } }

/-- Is a ring's base register locked by its `EN` (R368)? -/
def Dev.ringLocked (s : Dev) (off : Nat) : Bool :=
  (List.range 32).any fun r =>
    (s.flag (sqEn r) && within (0x2100 + 0x20 * r) 8 off) || (s.flag (cqEn r) && within (0x2500 + 0x20 * r) 8 off)

/-- A write to a register that is reached only by direct writes and has no row of its own: the settings of `HIF` (R388),
`BEN_RD_IDX` (R411) and the MSI-X table (R375). A field whose value is not legal stays (R8). -/
def Dev.plainWrite (s : Dev) (off : Nat) (v : Reg) : Dev :=
  let keep := (fieldsAt off).foldl (fun a p =>
    if p.1.acc == .rw && !p.1.ok (fieldOf v p.1.lo p.1.w) then a ||| (2 ^ p.1.w - 1) * 2 ^ p.1.lo else a) 0
  let e : Staged := { addr := off, value := v.toNat, mask := 0xFFFFFFFF - keep }
  let s := if s.ringLocked off then s else s.setReg off (s.entryValue e)
  if within 0x250C (0x20 * 32) off && (off - 0x250C) % 0x20 = 0 && bitAt v.toNat 15 then
    s.setCq ((off - 0x250C) / 0x20) { s.cq ((off - 0x250C) / 0x20) with badHead := false }
  else s

/-- Registers whose every write has a row of its own. -/
def ownRow (off : Nat) : Bool :=
  off == 0x2018 || off == 0x11014 || off == 0x1101C || off == 0x1302C || off == 0x13080 || off == 0xE018 ||
  within 0x12080 24 off || (within 0xD400 0x200 off && off % 0x20 != 0 && off % 0x20 ≤ 0x10) ||
  (within 0x2000 0x1000 off && (off == 0x2010 || within 0x2108 0x400 off && (off - 0x2108) % 0x20 = 0 ||
    within 0x2508 0x400 off && (off - 0x2508) % 0x20 = 0))

/-- DIRECT_WRITE (R392): a register without a row of its own. An offset that is no register ignores the write (R365). -/
def execDirectWrite (dt off : Nat) (v : Reg) (s : State) : Host.Outcome State Fault Refusal := s.act fun s =>
  let s := s.tick dt;
  (if off % 4 != 0 || ownRow off then s
    else if within 0x2000 0x1000 off || within 0xF000 0x1000 off || within 0x3E000 0x400 off then s.plainWrite off v
    else if !isReg off then s
    else s.directWrite off v)

/-- PPS_EN_WRITE (R58): `EN` stays set until reset. -/
def execPpsEnWrite (dt : Nat) (v : Reg) (s : State) : Host.Outcome State Fault Refusal := s.act fun s =>
  (s.tick dt).directWrite 0x4060 v

/-- OUTPUT_ARM (R63). -/
def execOutputArm (dt n : Nat) (v : Reg) (s : State) : Host.Outcome State Fault Refusal := s.act fun s =>
  let s := s.tick dt;
  (if 4 ≤ n then s else s.directWrite (fOutCtrl n) v)

/-- OUTPUT_CANCEL (R63, R551): `CANCEL` is no setting and is not judged by the table; the other fields of the word are. -/
def execOutputCancel (dt n : Nat) (v : Reg) (s : State) : Host.Outcome State Fault Refusal := s.act fun s =>
  let s := s.tick dt;
  (if 4 ≤ n || fieldOf v 3 1 = 0 then s
    else (s.outDisarm n).directWrite (fOutCtrl n) (withField (withField v 3 1 0) 2 1 0))

/-- FE_SPI_GO (R74). -/
def execFeSpiGo (dt : Nat) (v : Reg) (s : State) : Host.Outcome State Fault Refusal := s.act fun s => (s.tick dt).directWrite 0x5100 v

/-- CAL_NOW (R79, R81, R111). -/
def execCalNow (dt : Nat) (v : Reg) (s : State) : Host.Outcome State Fault Refusal := s.act fun s => (s.tick dt).directWrite 0x5064 v

/-- GRP_RETIRE (R80, R81, R111). -/
def execGrpRetire (dt : Nat) (v : Reg) (s : State) : Host.Outcome State Fault Refusal := s.act fun s => (s.tick dt).directWrite 0x5064 v

/-- FRK_RETIRE (R166, R171). -/
def execFrkRetire (dt : Nat) (v : Reg) (s : State) : Host.Outcome State Fault Refusal := s.act fun s => (s.tick dt).directWrite 0x7068 v

/-- SCRUB_NOW (R511). -/
def execScrubNow (dt : Nat) (v : Reg) (s : State) : Host.Outcome State Fault Refusal := s.act fun s => (s.tick dt).directWrite 0x301C v

/-- MEM_RETIRE (R511). -/
def execMemRetire (dt : Nat) (v : Reg) (s : State) : Host.Outcome State Fault Refusal := s.act fun s => (s.tick dt).directWrite 0x301C v

/-- AXIS_ENABLE (R310). -/
def execAxisEnable (dt axis : Nat) (v : Reg) (s : State) : Host.Outcome State Fault Refusal := s.act fun s =>
  let s := s.tick dt;
  (if 24 ≤ axis then s else s.directWrite (0xC100 + 0x40 * axis) v)

end Sys2Proof.Machine
end

