-- ==== Sys2Proof/Machine/Bench.lean ====
section
/-! DEFINITION. The Potting Bench (R390-R401): staging, checks, applies and their cut-off. -/
namespace Sys2Proof.Machine

/-- Status codes of R409. -/
def stBenchFailed : Nat := 0x0901
def stBenchNotChecked : Nat := 0x0902
def stBenchFull : Nat := 0x0903
def stBenchTime : Nat := 0x0904
def stBenchDown : Nat := 0x0905
def stBenchDiscarded : Nat := 0x0906
def stBenchLate : Nat := 0x0907

/-- Replace the Bench. -/
def Dev.setBen (s : Dev) (b : Ben) : Dev := { s with ben := b }

/-- The entries of a buffer (R391): `ADDR`, `VALUE`, `MASK` and a reserved word each. -/
def stagedOf (b : List Byte) : List Staged :=
  (List.range (b.length / 16)).map fun i =>
    { addr := leAt b (16 * i) 4, value := leAt b (16 * i + 4) 4, mask := leAt b (16 * i + 8) 4 }

/-- The first field of a buffer for which its entry cannot be staged, as the offset of its byte (R378, R391); reserved bytes are 0
(R7). -/
def stagedBad (b : List Byte) : Option Nat :=
  (stagedOf b).zipIdx.findSome? fun p =>
    (firstBad [(addrStageable p.1, 0), (p.1.mask != 0, 8), (zeros b (16 * p.2 + 12) 4, 12)]).map fun o => 64 + 16 * p.2 + o

/-- Checks that run judge a set that no longer stands (R390). -/
def staleChecks (l : List BenchCheck) : List BenchCheck := l.map fun c => { c with stale := true }

/-- The Bench returns to EMPTY: nothing staged, no hold. -/
def Dev.benchEmpty (s : Dev) : Dev :=
  s.setBen { s.ben with st := .empty, ents := [], check := staleChecks s.ben.check, apply_ := none, held := [] }

/-- BENCH_STAGE (R391). A check that runs judges the set it began with (R390). -/
def execBenchStage (h : Nat) (data : Option (List Byte)) (s : State) : Host.Outcome State Fault Refusal := s.act fun s =>
  s.command h 0x80 fun l s =>
    if l.len ≠ 16 * l.p 0 2 then s.refuse h stBadLen (some 16)
    else if s.ben.st = .applying then s.refuse h stBusy none
    else match data with
      | none => s.refuse h stDma none
      | some b =>
        match stagedBad b with
        | some o => s.refuse h stBadDesc (some o)
        | none =>
          let ents := (stagedOf b).foldl mergeEntry s.ben.ents
          if 512 < ents.length then s.done h stBenchFull []
          else (s.setBen { s.ben with ents, st := .staged, check := staleChecks s.ben.check }).done h stOK []

/-- BENCH_CHECK (R390, R393): the entries as they stand now. -/
def execBenchCheck (h : Nat) (s : State) : Host.Outcome State Fault Refusal := s.act fun s =>
  s.command h 0x81 fun _ s =>
    match s.ben.st with
    | .applying => s.refuse h stBusy none
    | .empty => s.done h stOK []
    | _ => s.setBen { s.ben with check := s.ben.check ++ [{ handle := h, ents := s.ben.ents }] }

/-- The registers `BEN_FAILk` (R411) and the count of failed checks. -/
def Dev.recordFails (s : Dev) (l : List Broken) : Dev :=
  let s := s.cntSat (0xF01C, 16, 16)
  (List.range 8).foldl (fun s k =>
    let w := match l[k]? with | some b => b.2 + 0x10000 * (b.1 % 1024) | none => 0
    s.setReg (0xF040 + 4 * k) (BitVec.ofNat 32 w)) s

/-- BENCH_CHECK_DONE (R390, R393): a passing check of a set that still stands makes the Bench CHECKED and holds its loop
slots (R257). -/
def execBenchCheckDone (dt : Nat) (s : State) : Host.Outcome State Fault Refusal := s.act fun s =>
  let s := s.tick dt
  match s.ben.check with
  | [] => s
  | c :: rest =>
    let s := s.setBen { s.ben with check := rest }
    let l := s.judgeSet c.ents false 0
    let same : Bool := !c.stale && s.ben.st != .empty && s.ben.st != .applying
    if l.isEmpty then
      let s := if same then s.setBen { s.ben with st := .checked, held := s.heldSlots c.ents } else s
      s.done c.handle stOK []
    else
      let s := if same then s.setBen { s.ben with st := .staged } else s;
      (s.recordFails l).done c.handle stBenchFailed (brokenRes l)

/-- Does a set need a slot boundary (R395)? -/
def needsSlot (ents : List Staged) : Bool :=
  ents.any fun e => within 0xD800 0x600 e.addr || within 0x4060 0xC e.addr

/-- The first slot boundary at least 2 ms ahead (R395). -/
def Dev.benchSlot (s : Dev) : NT := slotAtOrAfter (ntAdd s.nt (msTicks 2))

/-- Show the instant of an apply (R395): the NT of the first TIME cycle at or after `t`, as the clock now runs. -/
def Dev.showApply (s : Dev) (t : NT) : Dev :=
  let t := (s.clk.run (s.clk.cyclesTo t)).nt
  (s.setReg 0xF014 (BitVec.ofNat 32 (t.toNat % 2 ^ 32))).setReg 0xF018 (BitVec.ofNat 32 (t.toNat / 2 ^ 32))

/-- BENCH_APPLY (R390, R395). -/
def execBenchApply (h : Nat) (s : State) : Host.Outcome State Fault Refusal := s.act fun s =>
  s.command h 0x82 fun l s =>
    match s.ben.st with
    | .applying => s.refuse h stBusy none
    | .checked =>
      let mode := l.p 8 1
      let t := if mode = 2 then s.benchSlot else l.pNt 0
      let ahead := ntDiff t s.nt
      if mode ≠ 2 && (ahead < (msTicks 2 : Int) || ((60 * tickHz : Nat) : Int) < ahead || (needsSlot s.ben.ents && !onSlot t)) then
        s.done h stBenchTime []
      else (s.setBen { s.ben with st := .applying, apply_ := some { handle := h, mode, at_ := t, cut := false } }).showApply t
    | _ => s.done h stBenchNotChecked []

/-- An apply ends without effect: CHECKED with its entries kept, or STAGED. -/
def Dev.benchFail (s : Dev) (a : BenchApply) (st : BenchState) (code : Nat) (res : List Byte) : Dev :=
  (s.setBen { s.ben with st, apply_ := none }).done a.handle code res

/-- The registers as they will stand at `t`: `BENCH_ENTRY` actions committed for then count as applied (R396). -/
def Dev.withCommitted (s : Dev) (t : NT) : Dev :=
  let due := s.txu.txns.filter fun (x : Txn) => x.phase = .committed && (match x.applyAt with | some a => ntReached t a | none => false)
  s.withEntries (due.flatMap fun (x : Txn) => x.acts.filterMap fun a =>
    match a with | .benchEntry o v m => some { addr := o, value := v, mask := m } | _ => none)

/-- BENCH_CUT_OFF (R396, R401, R410): 2 ms before `T`. `domainDown`: the clock of a domain it touches is absent; `parity`:
a shadow register fails parity, which cancels the apply under a status the spec does not name (a free value, log entry 24). -/
def execBenchCutOff (domainDown parity : Bool) (s : State) : Host.Outcome State Fault Refusal := s.act fun s =>
  match s.ben.apply_ with
  | none => s.begin
  | some a =>
    if a.cut then s.begin
    else
      let s := s.tickTo (ntAdd a.at_ (-(msTicks 2 : Nat)))
      let refuse : Dev → Dev := fun s => s.cntSat (0xF020, 16, 16)
      if s.upd.pause == some 1 then
        if a.mode = 2 then s
        else (refuse s).benchFail a .checked stBenchTime []
      else
        let l := (s.withCommitted a.at_).judgeSet s.ben.ents false 0
        if !l.isEmpty then ((refuse s).recordFails l).benchFail a .staged stBenchFailed (brokenRes l)
        else if domainDown then (refuse s).benchFail a .checked stBenchDown []
        else if parity then
          let (code, s) := s.draw 16;
          ((refuse s).raise 0x13).benchFail a .checked code []
        else s.setBen { s.ben with apply_ := some { a with cut := true } }

/-- An apply in `MODE` 2 whose cut-off fell inside a pause takes its new instant when the pause ends (R401). -/
def Dev.benchAfterPause (s : Dev) : Dev :=
  match s.ben.apply_ with
  | some a =>
    if a.cut || a.mode ≠ 2 || ntAfter (ntAdd a.at_ (-(msTicks 2 : Nat))) s.nt then s
    else (s.setBen { s.ben with apply_ := some { a with at_ := s.benchSlot } }).showApply s.benchSlot
  | none => s

/-- BENCH_APPLY_STROBE (R395, R397, R398): at `T` every value acts. -/
def execBenchApplyStrobe (s : State) : Host.Outcome State Fault Refusal := s.act fun s =>
  match s.ben.apply_ with
  | none => s.begin
  | some a =>
    if !a.cut then s.begin
    else
      let s := s.tickTo a.at_
      let n := s.ben.ents.length
      let ents := s.ben.ents
      let s := ((s.benchEmpty).applyEnts ents true).cntWrap (0xF01C, 0, 16)
      let s := (s.showApply s.nt).note 0x0C8 n []
      s.done a.handle stOK (leBytes s.nt.toNat 8)

/-- Is an apply at or past its cut-off (R396)? In a pause of the planning firmware an apply of `MODE` 2 waits for a new one (R401). -/
def Dev.cutPassed (s : Dev) (a : BenchApply) : Bool :=
  a.cut || (ntReached s.nt (ntAdd a.at_ (-(msTicks 2 : Nat))) && !(a.mode == 2 && s.upd.pause == some 1))

/-- BENCH_DISCARD (R399). -/
def execBenchDiscard (h : Nat) (s : State) : Host.Outcome State Fault Refusal := s.act fun s =>
  s.command h 0x83 fun _ s =>
    match s.ben.apply_ with
    | none => s.benchEmpty.done h stOK []
    | some a =>
      if s.cutPassed a then s.done h stBenchLate []
      else (s.benchEmpty.done a.handle stBenchDiscarded []).done h stOK []

/-- A time step before the cut-off (R401). -/
def Dev.benchStepped (s : Dev) : Dev :=
  match s.ben.apply_ with
  | some a => if a.cut then s else s.benchFail a .checked stTimeStepped []
  | none => s

end Sys2Proof.Machine
end

