-- ==== Sys2Proof/Machine/Route.lean ====
section
/-! DEFINITION. Paths over the track graph (R217), the splice of a route (R212, R276) and the `ROUTE` frames that carry it
(R331). Costs are summed in whole microseconds, each segment rounded up; of equal paths the one found first stands (DESIGN
CHOICE, log entry 25). -/
namespace Sys2Proof.Machine

/-! ### Paths -/

/-- Time over `mm` of a segment in us (R217). -/
def SegRec.cost (x : SegRec) (vmax mm : Nat) : Nat := ceilDiv (mm * 1000000) (max 1 (min x.vlim vmax))

/-- The best way found to each node: its cost and the hops there, last first. -/
abbrev Ways := List (Nat × Nat × List (Nat × Bool))

/-- Offer a way to a node. -/
def Ways.offer (w : Ways) (node cost : Nat) (hops : List (Nat × Bool)) : Ways :=
  match w.find? fun x => x.1 == node with
  | some x => if cost < x.2.1 then mapWhere (fun y => y.1 == node) (fun _ => (node, cost, hops)) w else w
  | none => w ++ [(node, cost, hops)]

/-- One pass over every segment in the directions that `DIR` permits. -/
def Graph.relax (g : Graph) (vmax : Nat) (w : Ways) : Ways :=
  g.segs.foldl (fun w x =>
    [false, true].foldl (fun w rev =>
      match (if dirAllows x.dir rev then w.find? fun y => y.1 == x.from_ rev else none) with
      | some y => w.offer (x.to_ rev) (y.2.1 + x.cost vmax (10 * x.len)) ((x.id, rev) :: y.2.2)
      | none => w) w) w

/-- Least-cost ways from some starting nodes. -/
def Graph.ways (g : Graph) (vmax : Nat) : Nat → Ways → Ways
  | 0, w => w
  | n + 1, w =>
    let w' := g.relax vmax w
    if w' == w then w else Graph.ways g vmax n w'

/-- The hop of a route that holds a coordinate, with the coordinate at its start; before the route its first hop, beyond it
its last. -/
def Graph.hopAt (g : Graph) (sp : Int) : List (Nat × Bool) → Nat → Int → Option (Nat × Int)
  | [], _, _ => none
  | [_], k, at_ => some (k, at_)
  | h :: t, k, at_ =>
    let n : Int := match g.seg? h.1 with | some x => ((10 * x.len : Nat) : Int) | none => 0
    if sp < at_ + n then some (k, at_) else Graph.hopAt g sp t (k + 1) (at_ + n)

/-! ### Where a robot stands -/

/-- A robot's place: its segment and the distance from the segment's start, mm. -/
def Dev.place (s : Dev) (i : Nat) : Option (SegRec × Nat) :=
  match s.trl.graph with
  | none => none
  | some g =>
    match (s.rob i).route, (s.rob i).proj with
    | some r, some p =>
      match g.hopAt p.s r.hops 0 0 with
      | none => none
      | some (k, at_) =>
        match r.hops[k]?.bind fun h => (g.seg? h.1).map fun x => (x, h.2) with
        | some (x, rev) =>
          let d := min (p.s - at_).toNat (10 * x.len)
          some (x, if rev then 10 * x.len - d else d)
        | none => none
    | _, _ =>
      match (s.frkSlot i).pos, g.seg? (s.lease i).area.1 with
      | some q, some x =>
        (g.nearRoute (q.e * 1000, q.n * 1000) [(x.id, false)] 0 0 (10 * (x.len : Int)) none).map fun n =>
          (x, min n.s.toNat (10 * x.len))
      | _, _ => none

/-- Travel time from a robot's place to the mark of a task, in us (R217): `none` where it cannot be reached. -/
def Dev.travel (s : Dev) (i : Nat) (k : Task) (mark : Nat) : Option Nat :=
  let vmax := (s.cls (s.lease i).cls).vMax
  match s.trl.graph, s.place i with
  | some g, some (x, d) =>
    match g.hopAt (mark : Nat) k.hops 0 0 with
    | none => none
    | some (m, at_) =>
      match k.hops[m]?.bind fun h => (g.seg? h.1).map fun y => (y, h.2) with
      | none => none
      | some (y, rev) =>
        let along := ((mark : Int) - at_).toNat
        let here := if rev then 10 * x.len - d else d
        let direct : Option Nat := if x.id = y.id ∧ here ≤ along ∧ dirAllows x.dir rev then some (x.cost vmax (along - here)) else none
        let start : Ways := (if dirAllows x.dir false then [(x.nodeB, x.cost vmax (10 * x.len - d), [])] else []) ++
          (if dirAllows x.dir true then [(x.nodeA, x.cost vmax d, [])] else [])
        let far := ((g.ways vmax g.nodes.length (start.foldl (fun w a => Ways.offer w a.1 a.2.1 a.2.2) [])).find? fun w => w.1 == y.from_ rev).map
          fun w => w.2.1 + y.cost vmax along
        match direct, far with
        | some a, some b => some (min a b)
        | some a, none => some a
        | none, b => b
  | _, _ => none

/-- Cost of a pair in units of 0.1 s, saturating (R217); 65,535 is infinite. -/
def Dev.pairCost (s : Dev) (i task : Nat) : Nat :=
  let k := s.task task
  let mark := if k.st = .orphaned then (match k.gens.getLast? with | some g => g.m | none => k.start) else k.start
  if k.forbid.contains i || !bitAt k.mask (s.lease i).cls then 65535
  else match s.travel i k mark with
    | some us => min 65534 (ceilDiv us 100000)
    | none => 65535

/-! ### Splices -/

/-- A robot's planned state at an apply time (R212): where it stands if its last report shows zero speed, else by its committed
plan; beyond that plan it stands at the end of its grant. -/
def Dev.kinAtApply (s : Dev) (i : Nat) (t : NT) : Kin :=
  let x := s.rob i
  let here : Int := match x.proj with | some p => p.s | none => 0
  let still : Bool := match (s.lease i).report with | some r => r.vMeas == 0 | none => true
  if still then Kin.at_ here 0
  else (TrlRobot.kinAt { x with plan := x.plan.filter (·.handed) } t).getD (Kin.at_ (x.sGrant.getD here) 0)

/-- The steps in which a robot comes to rest from an apply time on (R273, R276), on its present route: the comfortable stop, or with
`brake` the braking profile of its class. -/
def Dev.stopGo (c : ClassRec) (brake : Bool) : Nat → Nat → Nat → Kin → List PlanStep
  | 0, _, _, _ => []
  | n + 1, sf, off, k =>
    if k.v = 0 && k.a = 0 then []
    else
      let q : PlanStep := { sf, k0 := k, k1 := k, off, handed := true, acc := if brake then c.aBrk else c.aMax, jerk := c.jMax
                            brk := if brake then max 1 c.lat else 0 }
      let q := { q with k1 := q.at_ stepNs }
      q :: Dev.stopGo c brake n (sfNext sf) 0 q.k1
def Dev.stopSteps (s : Dev) (i : Nat) (t : NT) (brake : Bool) : List PlanStep :=
  let sf := slotframeOf t.toNat
  let k := s.kinAtApply i t
  Dev.stopGo (s.cls (s.lease i).cls) (brake && decide (0 ≤ k.v)) 256 sf (nsInto sf t) k

/-- `s_hold` on the present route (R212): where those steps end. -/
def Dev.sHold (s : Dev) (i : Nat) (t : NT) (brake : Bool) : Int :=
  let k := match (s.stopSteps i t brake).getLast? with | some q => q.k1 | none => s.kinAtApply i t
  if 0 ≤ (s.kinAtApply i t).v then k.sHi else k.sLo

/-- The entries of a planned step (R195). -/
def Dev.stepEntries (s : Dev) (i : Nat) (q : PlanStep) : List Resv :=
  match s.trl.graph, (s.rob i).route, (s.rob i).proj with
  | some g, some r, some p =>
    let c := s.cls (s.lease i).cls
    let mq := s.mq (s.rob i) p.grade
    let back := decide (q.k1.s < q.k0.s) || (q.k1.s == q.k0.s && decide (q.k1.v < 0))
    let s0 := if back then q.k0.sHi else q.k0.sLo
    let s1 := if back then q.k1.sLo else q.k1.sHi
    let v1 := ceilDiv q.k1.v.natAbs nmMm
    let vlim := if back then g.vLimAhead r.hops (s1 - 50000) s1 else g.vLimAhead r.hops s1 (s1 + 50000)
    let e := envEval c mq v1 (c.bound back) vlim none (msTicks 100)
    let near : Int := ((if back then c.front else c.rear) + mq : Nat)
    let far : Int := (e.cm (if back then c.rear else c.front) : Nat)
    let lo := if back then s1 / 10 - far else (s0 - near) / 10
    let hi := if back then (s0 + near + 9) / 10 else (s1 + 10 * far + 9) / 10
    (g.render r.hops lo hi back).map fun x =>
      { seg := x.1, kind := .spec, robot := i, epoch := (s.lease i).epoch, w := ceilDiv (c.hw + mq) 10,
        tin := BitVec.ofNat 64 (slotStart (50 * q.sf)), tout := BitVec.ofNat 64 (slotStart (50 * (q.sf + 1))), lo := x.2.1, hi := x.2.2,
        step := q.sf }
  | _, _, _ => []

/-- A spliced route: its hops, the approach length, `s_hold` on it, and what the new route's coordinate is behind the old
one's; whether the mark lies behind `s_hold` (R275), and whether the robot then has no way to it. -/
structure Splice where
  hops : List (Nat × Bool)
  approach : Int
  hold : Int
  shift : Int
  cost : Nat
  behind : Bool := false
  stuck : Bool := false
deriving DecidableEq, Repr

/-- Continue from a hop onto a task (R212): along the task's own route where the hop lies on it no later than the mark, else by
the path of least cost to the hop of the mark. `at_` is the coordinate at the hop's start. A mark on the task's route behind
`hold` is reached in reverse by a class that may, else by a forward path; without one the robot stays (R275). -/
def Graph.onto (g : Graph) (c : ClassRec) (kept : List (Nat × Bool)) (at_ hold : Int) (k : Task) (mark : Nat) : Option Splice :=
  match kept.getLast?, g.hopAt (mark : Nat) k.hops 0 0 with
  | some last, some (m, am) =>
    let starts := (List.range (m + 1)).map fun j => (j, ((10 * g.hopsLen (k.hops.take j) : Nat) : Int))
    let own : Option (Nat × Int) := starts.find? fun (p : Nat × Int) => k.hops[p.1]? == some last
    let direct : Option Splice := own.map fun (p : Nat × Int) =>
      { hops := kept ++ k.hops.drop (p.1 + 1), approach := at_ - p.2, hold, shift := 0, cost := 0
        behind := decide ((mark : Int) < p.2 + (hold - at_)) }
    let path : Option Splice :=
      match g.seg? last.1, k.hops[m]?.bind fun h => (g.seg? h.1).map fun y => y.from_ h.2 with
      | some x, some target =>
        ((g.ways c.vMax g.nodes.length [(x.to_ last.2, 0, [])]).find? fun w => w.1 == target).map fun w =>
          let path := w.2.2.reverse
          let len : Int := ((10 * x.len + 10 * g.hopsLen path : Nat) : Int)
          { hops := kept ++ path ++ k.hops.drop m, approach := at_ + len - am, hold, shift := 0, cost := w.2.1 }
      | _, _ => none
    match direct with
    | some d =>
      if !d.behind || c.reverse then some d
      else match path with
        | some p => some { p with behind := true }
        | none => some { d with stuck := true }
    | none => path
  | _, _ => none

/-- The route that gives a robot a task (R212): its old route from its rear to `s_hold`, and on from there; for a robot
without a route, from its place on its segment in the direction of least cost. -/
def Dev.splice (s : Dev) (i : Nat) (k : Task) (mark : Nat) (t : NT) (brake : Bool) : Option Splice :=
  let c := s.cls (s.lease i).cls
  match s.trl.graph with
  | none => none
  | some g =>
    match (s.rob i).route, (s.rob i).proj with
    | some r, some p =>
      let hold := s.sHold i t brake
      match g.hopAt (p.s - ((c.rear + s.mq (s.rob i) p.grade : Nat) : Int)) r.hops 0 0, g.hopAt hold r.hops 0 0 with
      | some (k0, a0), some (k1, a1) =>
        let kept := (r.hops.take (max k0 k1 + 1)).drop (min k0 k1)
        (g.onto c kept (a1 - a0) (hold - a0) k mark).map fun (x : Splice) => { x with shift := a0 }
      | _, _ => none
    | _, _ =>
      match s.place i with
      | none => none
      | some (x, d) =>
        let go : Bool → Option Splice := fun rev =>
          let hold : Int := ((if rev then 10 * x.len - d else d : Nat) : Int)
          if dirAllows x.dir rev then (g.onto c [(x.id, rev)] 0 hold k mark).map fun (y : Splice) =>
            { y with cost := y.cost + x.cost c.vMax (10 * x.len - hold.toNat) }
          else none
        match go false, go true with
        | some a, some b => some (if b.cost < a.cost then b else a)
        | some a, none => some a
        | none, b => b

/-! ### ROUTE frames (R331) -/

/-- A route entry and a span as R209 lays them out. -/
def hopBytes (h : Nat × Bool) : List Byte := leBytes (h.1 % 2 ^ 20 + 2 ^ 20 * b2n h.2) 4
def Span.bytes (x : Span) : List Byte := leBytes x.lo 4 ++ leBytes x.hi 4 ++ leBytes x.code 2 ++ leBytes x.vWork 2 ++ leBytes 0 4

/-- A run of hops cut into pieces: the first has room for `a` entries, the others for `b`. -/
def cutHops : Nat → Nat → Nat → List (Nat × Bool) → List (List (Nat × Bool))
  | 0, _, _, _ => []
  | n + 1, a, b, l => if l.length ≤ a then [l] else l.take a :: cutHops n b b (l.drop a)

/-- The payloads that carry a route; `none` where it does not fit 15 pieces. A payload holds up to 366 octets (R321). -/
def routePayloads (task : Nat) (k : Task) (tver : Nat) (hops : List (Nat × Bool)) (approach : Int) : Option (List (List Byte)) :=
  let a := (350 - 16 * k.spans.length) / 4
  let pieces := cutHops (hops.length + 1) a 87 hops
  let firsts := pieces.foldl (fun (x : List Nat × Nat) p => (x.1 ++ [x.2], x.2 + p.length)) ([], 0)
  if 15 < pieces.length then none
  else some (pieces.zipIdx.map fun p =>
    leBytes 1 1 ++ leBytes (p.2 + 16 * pieces.length) 1 ++ leBytes task 2 ++ leBytes tver 2 ++ leBytes hops.length 2 ++
      leBytes (firsts.1.getD p.2 0) 2 ++ leBytes p.1.length 1 ++ leBytes (if p.2 = 0 then k.spans.length else 0) 1 ++
      leBytes (unsigned 32 approach) 4 ++ (if p.2 = 0 then k.spans.flatMap Span.bytes else []) ++ p.1.flatMap hopBytes)

/-- Queue the frames of a route to a robot under its group key. -/
def Dev.sendRoute (s : Dev) (txn i : Nat) (bodies : List (List Byte)) : Dev :=
  bodies.foldl (fun s b =>
    s.queueTo (robotAddr i) { type_ := 8, dst := 0, epoch := (s.lease i).epoch, body := b, lane := 0, key := (s.lease i).keyIdx,
                              prio := 3, txn }) s

end Sys2Proof.Machine
end

