-- ==== Sys2Proof/Machine/Predict.lean ====
section
/-! DEFINITION. What the loops of the control engine compare (R255, R266): the slot that carries a robot's next set-point, the robot
predicted forward to its apply time, and the errors and feed-forward terms. The arithmetic is log entry 115. -/
namespace Sys2Proof.Machine

/-! ### The batch of a robot (R266, R330) -/

/-- The batch frame of a route: its lane, its last relay and its first receiver. -/
def RouteEnt.batch (r : RouteEnt) : TxFrame :=
  let relays := r.hops.dropLast.map (·.1)
  { type_ := 5, dst := relays.getLast?.getD 0xFFFF, lane := r.lane, prio := 1, rx := relays.head?.getD 0xFFFF }

/-- `PACK_LEAD` in ticks (R280). -/
def Dev.packLead (s : Dev) : Nat := usTicks (10 * s.fld (0xA014, 8, 8))

/-- The first slot from an instant on in which the batch may go. -/
def Dev.firstHop (s : Dev) (r : RouteEnt) (t : NT) : Nat :=
  let k0 := slotOf (slotAtOrAfter t).toNat
  (((List.range 100).map (k0 + ·)).find? fun k => s.maySend r.batch k).getD k0

/-- The slot of the last hop: each relay passes the batch on in the next of its own slots that the route names. -/
def Dev.lastHop (s : Dev) (words : List Nat) : Nat → List (Nat × Nat × Nat) → Nat → Nat
  | prev, (node, dl, _) :: t, k =>
    let next := ((List.range 200).map (k + 1 + ·)).find? fun j =>
      j % 50 == dl && planGives words 7 (nodeCode prev) dl ((j / 50) % 2 == 1)
    Dev.lastHop s words node t (next.getD k)
  | _, [], k => k

/-- The slots of the first and the last hop of a robot's next batch from an instant on. -/
def Dev.batchSlots (s : Dev) (i : Nat) (t : NT) : Nat × Nat :=
  match s.routeTo (robotAddr i) with
  | some r =>
    let k := s.firstHop r t
    (k, match r.hops with | h :: rest => s.lastHop (s.planWords r.lane) h.1 rest k | [] => k)
  | none => let k := slotOf (slotAtOrAfter t).toNat; (k, k)

/-- `T_APPLY` of a record that reaches its robot in slot `k` (R266). -/
def Dev.setApply (s : Dev) (k : Nat) : NT := BitVec.ofNat 64 (slotStart (k + 1 + s.fld (0xA014, 0, 3)))

/-! ### Prediction (R255) -/

/-- A predicted robot: site position in nm, the direction its front points in, in units of 2^-40, and its speed in um/s, negative in
reverse. -/
structure Pose where
  e : Int
  n : Int
  dir : Int × Int
  v : Int
deriving DecidableEq, Repr

/-- One step of the unicycle, `ns` long: the speed moves toward `goal` um/s, and the direction of travel turns to the left by the
curvature `kap` (10^-6 m^-1), half of it before the way is made and half after. -/
def Pose.step (p : Pose) (aMax : Nat) (goal kap : Int) (ns : Nat) : Pose :=
  let dv : Int := aMax * 1000 * ns / 1000000000
  let v := if p.v < goal then min goal (p.v + dv) else max goal (p.v - dv)
  let way := (p.v + v) * ns / 2000000
  let half := nearest (kap * way.natAbs * one40) 2000000000000000
  let turn (d : Int × Int) : Int × Int := unit2 (d.1 - mul40 half d.2, d.2 + mul40 half d.1)
  let d := turn p.dir
  { e := p.e + mul40 way d.1, n := p.n + mul40 way d.2, dir := turn d, v }

/-- The set-point in force at an instant: the latest sent whose apply time has come. -/
def inForce (l : List SetPt) (t : NT) : Option SetPt := l.find? fun x => ntReached t x.t

/-- The unicycle from `t` on for `left` ticks, in steps of 2 ms. -/
def Pose.go (aMax : Nat) (sent : List SetPt) : Nat → Pose → NT → Nat → Pose
  | 0, p, _, _ => p
  | f + 1, p, t, left =>
    let d := min left (msTicks 2)
    if d = 0 then p
    else
      let (goal, kap) : Int × Int := match inForce sent t with | some x => (1000 * x.v, x.k) | none => (p.v, 0)
      Pose.go aMax sent f (p.step aMax goal kap (d * 1000000000 / tickHz)) (ntAdd t d) (left - d)

/-- The part of a robot's route in which a position is sought (R189). -/
def Dev.routeNear (s : Dev) (i : Nat) (p : Pt) : Option Near :=
  let x := s.rob i
  match s.trl.graph, x.route with
  | some g, some r =>
    let lo : Int := match x.proj with | some q => q.s - 10000 | none => 0
    let hi : Int := match x.sGrant with | some e => e + 10000 | none => (10 * g.hopsLen r.hops : Nat)
    g.nearRoute p r.hops 0 lo hi none
  | _, _ => none

/-- The robot's latest position carried forward to an instant (R255). -/
def Dev.predict (s : Dev) (i : Nat) (q : PosRec) (t : NT) : Pose :=
  let back : Bool := match (s.rob i).proj with | some p => decide (p.v < 0) | none => false
  let v : Int := isqrt (q.ve * q.ve + q.vn * q.vn).toNat
  let slow := decide (q.ve * q.ve + q.vn * q.vn < 10000)
  let way : Int × Int := match slow, s.routeNear i (q.e * 1000, q.n * 1000) with
    | true, some m => unit2 m.dir
    | _, _ => let u := unit2 (q.ve, q.vn); if back then (-u.1, -u.2) else u
  let left := ntSince t q.tObs
  Pose.go (s.cls (s.lease i).cls).aMax (Tab.get (fun _ => []) s.ctl.sent i) (left / msTicks 2 + 2)
    { e := q.e * nmMm, n := q.n * nmMm, dir := way, v := 1000 * (if back then -v else v) } q.tObs left

/-- The centreline points of a route. -/
def Graph.routePts (g : Graph) (hops : List (Nat × Bool)) : List Pt :=
  hops.flatMap fun h => match g.seg? h.1 with | some x => if h.2 then x.um.reverse else x.um | none => []

/-- What a pair of loops is given (R255): the predicted coordinate in mm, and errors and feed-forward terms in binary32. -/
structure PairIn where
  sp : Int := 0
  lonE : F32 := 0
  lonFf : F32 := 0
  latE : F32 := 0
  latFf : F32 := 0
deriving DecidableEq, Repr

/-- The inputs of a robot's loops at an apply time (R255, R272). A robot that reverses is seen in its direction of travel. Without a
position on a route there is no error and no feed-forward (DESIGN CHOICE, log entry 115). -/
def Dev.pairIn (s : Dev) (i : Nat) (t : NT) : PairIn :=
  let x := s.rob i
  match (s.frkSlot i).pos with
  | none => {}
  | some q =>
    let p := s.predict i q t
    match s.routeNear i (p.e / 1000, p.n / 1000) with
    | none => {}
    | some m =>
      let ref := (x.refAt t).getD (Kin.at_ m.s 0)
      let back := decide (p.v < 0) || (p.v == 0 && decide (ref.v < 0))
      let side : Int := if back then -1 else 1
      let tan := unit2 m.dir
      let psi := mul40 tan.1 p.dir.2 - mul40 tan.2 p.dir.1
      let look : Int := mul40 (s.fld (0xA018, 0, 16) * 1000 : Nat) psi
      let dRef := (s.loop (24 + 2 * i)).refNow * 100
      let kap := match s.trl.graph, x.route with
        | some g, some r => Config.curvature (g.routePts r.hops) m.s
        | _, _ => 0
      { sp := m.s, lonE := fOfRat (ref.s - m.s * nmMm) 1000000000, lonFf := fOfRat ref.v 1000000000
        latE := fOfRat (side * (dRef - 1000 * m.e) - look) 1000000, latFf := fOfRat (side * kap) 1000000000 }

/-- The step rate held within `V_LIMIT` (R254 item 6, R286). -/
def Dev.stepLimit (s : Dev) (n : Nat) (v : F32) : F32 :=
  let m := fOfRat (s.fld (axF n 0x0C 0 21)) 1
  fClamp (fNegate m) m v

/-- The profile of an axis as its loop sees it (R255): at rest, its position. -/
def Dev.axRef (s : Dev) (n : Nat) : Kin :=
  let a := s.axis n
  if a.legs.isEmpty then Kin.still a.pos else a.prof (s.axNs a)

/-- Error and feed-forward of an axis loop (R255). -/
def Dev.axIn (s : Dev) (n : Nat) : F32 × F32 :=
  let p := s.axRef n
  (fOfRat (p.s * 65536 - s.axEnc16 n * nmMm) (65536 * nmMm), fOfRat p.v nmMm)

/-- The limits of an axis loop (R254, R302): the direction changes only at zero rate. -/
def Dev.axLimit (s : Dev) (n : Nat) (prev v : F32) : F32 :=
  let u := s.stepLimit n (s.limitOut n (fun x => x) prev v)
  let rate := (s.axKin n).v
  if (s.axis n).st == .moving && ((decide (0 < rate) && fSign u == -1) || (decide (rate < 0) && fSign u == 1)) then 0 else u

/-- What a slot is given now, and its limits (R254, R255). -/
def Dev.loopIn (s : Dev) (n : Nat) : F32 × F32 × (F32 → F32) :=
  match loopRobot n with
  | none => let x := s.axIn n; (x.1, x.2, s.axLimit n (s.loop n).u)
  | some i =>
    let x := s.pairIn i (s.setApply (s.batchSlots i (ntAdd s.nt s.packLead)).2)
    if loopLon n then (x.lonE, x.lonFf, fun v => if s.stoppedRobot i then 0 else s.limitOut n (s.lonInner i (s.loop n).refNow x.sp) (s.loop n).u v)
    else (x.latE, x.latFf, s.limitOut n (fun v => v) (s.loop n).u)

end Sys2Proof.Machine
end

