-- ==== Sys2Proof/Machine/Control.lean ====
section
/-! DEFINITION. Computations of the control engine: robot pairs (R252-R266, R330), axis samples (R252, R290, R302), and missed deadlines
(R262, R263). -/
namespace Sys2Proof.Machine

/-! ### Set-points (R265, R266, R330) -/

/-- A record of a robot. -/
def Dev.setpointRec (s : Dev) (i : Nat) (held stopped : Bool) (p : SetPt) : List Byte :=
  let lat := s.loop (24 + 2 * i)
  leBytes i 1 ++ leBytes (b2n held + 2 * b2n stopped + 4 * b2n lat.steer + 8 * b2n (lat.st = .handover)) 1 ++ leBytes (s.lease i).epoch 2 ++
    leBytes (shortNt p.t) 6 ++ leBytes (satSigned 16 p.v) 2 ++ leBytes (satSigned 32 p.k) 4

/-- A record joins the batch of its path (R330): it replaces the robot's record of a batch not yet sent; 14 records fill one. -/
def Dev.queueRecord (s : Dev) (i : Nat) (b : List Byte) : Dev :=
  match s.routeTo (robotAddr i) with
  | none => s
  | some r =>
    let b0 := r.batch
    let same : TxFrame → Bool := fun f => f.type_ == 5 && f.lane == b0.lane && f.dst == b0.dst && f.rx == b0.rx
    let mine : TxFrame → Bool := fun f => same f && f.batch.any fun e => e.1 == i
    let room : TxFrame → Bool := fun f => same f && decide (f.batch.length < 14)
    let put (l : List TxFrame) : Dev := { s with mac := { s.mac with txq := l } }
    if s.mac.txq.any mine then
      put (mapWhere mine (fun f => { f with batch := mapWhere (fun e => e.1 == i) (fun _ => (i, b)) f.batch }) s.mac.txq)
    else match firstIdx room s.mac.txq with
      | some k => put (s.mac.txq.zipIdx.map fun p => if p.2 = k then { p.1 with batch := p.1.batch ++ [(i, b)] } else p.1)
      | none => s.queueFrame { b0 with batch := [(i, b)] }

/-- A set-point is sent for an apply time (R266); the last 16 are kept (R255), and since when the speed is
0 (R165). -/
def Dev.sendSetpoint (s : Dev) (i : Nat) (t : NT) (held stopped : Bool) (v kap : Int) : Dev :=
  let p : SetPt := { t, v, k := kap }
  let z : NT := Tab.get (fun _ => 0) s.ctl.zeroSince i
  let s := { s with ctl := { s.ctl with
    sent := Tab.set (fun _ => []) s.ctl.sent i ((p :: Tab.get (fun _ => []) s.ctl.sent i).take 16)
    zeroSince := Tab.set (fun _ => 0) s.ctl.zeroSince i (if v ≠ 0 then 0 else if z = 0 then s.nt else z) } }
  s.queueRecord i (s.setpointRec i held stopped p)

/-! ### Computations -/

/-- A slot leaves HELD at a computation on time (R259). -/
def LoopSlot.onTime (l : LoopSlot) : LoopSlot := if l.st = .held then { l with st := l.from_, misses := 0 } else { l with misses := 0 }

/-- One computation of a slot (R252, R253, R259). -/
def Dev.compute (s : Dev) (n : Nat) (e ff : F32) (limit : F32 → F32) : Dev :=
  let l := (s.loop n).onTime
  match l.st with
  | .open_ =>
    let v := fAdd ff l.i
    let u := limit v
    if [v, u].all fFinite then s.setLoop n { l with u, ff, sat := !fEq u v } else s.numericFault n l ff limit
  | _ =>
    let (x, v) := s.law n l e ff limit
    if x.finite && fFinite v then s.setLoop n x else s.numericFault n l ff limit

/-- Does a robot of this lease state get set-points (R21, R264)? -/
def Dev.getsSetpoints (s : Dev) (i : Nat) : Bool :=
  let l := s.lease i
  s.beaconing && (l.st = .admitting || l.st = .active || l.st = .suspect || l.st = .dead)

/-- ROBOT_PAIR_COMPUTATION (R252-R255, R261, R262, R264-R266), for the next batch that it is in time for. -/
def execRobotPairComputation (dt i : Nat) (s : State) : Host.Outcome State Fault Refusal := s.act fun s =>
  let s := s.tick dt
  let n := 24 + 2 * i
  if s.nSlots ≤ i || !s.getsSetpoints i || s.upd.pause = some 4 then s
  else
    let due := ntAdd s.nt s.packLead
    let (k1, k) := s.batchSlots i due
    let left := ntSince (BitVec.ofNat 64 (slotStart k1)) due * 1000000 / tickHz
    let s := { s with ctl := { s.ctl with margin := min s.ctl.margin (sat 16 left) } }
    let t := (s.lease i).tRep
    let s := s.setLoop n (rampRef (s.loop n) t)
    let s := s.setLoop (n + 1) (rampRef (s.loop (n + 1)) t)
    let at_ := s.setApply k
    let x := s.pairIn i at_
    let lat := s.loop n
    let lon := s.loop (n + 1)
    let stopped := s.stoppedRobot i
    let s := if s.saf.run = .safe then s.setLoop n { lat.onTime with u := 0 }
      else s.compute n x.latE x.latFf (s.limitOut n (fun v => v) lat.u)
    let s := if stopped then s.setLoop (n + 1) { lon.onTime with u := 0 }
      else s.compute (n + 1) x.lonE x.lonFf (s.limitOut (n + 1) (s.lonInner i lon.refNow x.sp) lon.u)
    s.sendSetpoint i at_ false stopped (fToInt (s.loop (n + 1)).u 1000) (fToInt (s.loop n).u 1000000)

/-- The correction that a loop's output makes of an axis's rate (R302): while the axis is MOVING and the slot is not OPEN (R288). -/
def Dev.axCorrect (s : Dev) (n : Nat) : Dev :=
  let a := s.axis n
  if a.legs.isEmpty then s
  else
    let off := a.off + a.cor * (4 * (s.up - a.corAt) : Nat) / 1000000000
    let on := a.st == .moving && n < 16 && (s.loop n).st != .open_ && decide (a.kAt ≤ s.up)
    s.setAxis n { a with off, cor := if on then fToInt (s.loop n).u nmMm - (s.axRef n).v else 0, corAt := s.up }

/-- AXIS_LOOP_SAMPLE (R252, R253, R287, R290, R302): `cnt` counts of the encoder since the last sample. -/
def execAxisLoopSample (dt axis : Nat) (cnt : Int) (s : State) : Host.Outcome State Fault Refusal := s.act fun s =>
  let s := s.tick dt
  if 24 ≤ axis then s
  else
    let a := s.axis axis
    let has := s.axEnc axis
    let s := if has then s.setAxis axis { a with encCnt := a.encCnt + cnt } else s
    if s.upd.pause = some 4 then s
    else
      let far := (s.axPos axis - s.axEncPos axis).natAbs
      let off := has && a.st != .disabled && decide (s.fld (axF axis 0x20 0 24) < far) && !(a.st = .fault && a.faultBy = 9)
      let s := if off then (s.axHard axis 9 stAxsStopped .fault).raise 0xA3 else s
      let (e, ff) := s.axIn axis
      (s.compute axis e ff (s.axLimit axis (s.loop axis).u)).axCorrect axis

/-! ### Missed deadlines (R263) -/

/-- A slot misses its computation: only a CLOSED slot becomes HELD (R259). -/
def Dev.missSlot (s : Dev) (n : Nat) : Dev :=
  let l := s.loop n
  let held := l.st = .closed
  (s.setLoop n { l with st := if held then .held else l.st, from_ := if held then l.st else l.from_, misses := l.misses + 1 }).setFld (lpMissed n) 1

/-- DEADLINE_MISS (R263): the computation of an axis slot, or of a robot's pair, whose record of the batch then repeats the last one. -/
def execDeadlineMiss (dt loop : Nat) (s : State) : Host.Outcome State Fault Refusal := s.act fun s =>
  let s := s.tick dt
  if s.nLoops ≤ loop || s.upd.pause = some 4 then s
  else match loopRobot loop with
  | none =>
    let s := ((s.missSlot loop).cntSat (0xA020, 0, 16)).raise 0x70
    if (s.loop loop).misses = s.fld (0xA014, 20, 4) then
      (if (s.axis loop).atRest then s else s.axHard loop 11 stAxsStopped .idle).raise 0x71
    else s
  | some i =>
    let n := 24 + 2 * i
    if !s.getsSetpoints i then s
    else
      let s := ((((s.missSlot n).missSlot (n + 1)).cntSat (0xA020, 0, 16)).raise 0x70)
      let top := s.fld (0xA014, 16, 4)
      let m := (s.loop (n + 1)).misses
      let s := if m = top then s.raise 0x71 else s
      let last : SetPt := ((Tab.get (fun _ => []) s.ctl.sent i).head?).getD { t := 0, v := 0, k := 0 }
      let stopped := s.stoppedRobot i
      s.sendSetpoint i (s.setApply (s.batchSlots i (ntAdd s.nt 1)).2) true stopped (if stopped || decide (top ≤ m) then 0 else last.v) last.k

end Sys2Proof.Machine
end

