-- ==== Sys2Proof/Machine/TxnVal.lean ====
section
/-! DEFINITION. Validation of a transaction (R221-R225, R260, R261): its actions read and judged, its records, staged
reservations, routes and task changes. -/
namespace Sys2Proof.Machine

/-! ### Status codes (R246, R279) -/

def stConflict : Nat := 0x0501
def stDeadline : Nat := 0x0502
def stCancelled : Nat := 0x0503
def stTooLate : Nat := 0x0504
def stCommitFull : Nat := 0x0505
def stBadAction : Nat := 0x0506
def stTxnUnknown : Nat := 0x0507
def stTaskUnknown : Nat := 0x0508
def stTaskState : Nat := 0x0509
def stTaskFull : Nat := 0x050A
def stRouteBad : Nat := 0x050B
def stGraftLimit : Nat := 0x050C
def stLoopOpen : Nat := 0x0601
def stLoopState : Nat := 0x0602
def stGainsBad : Nat := 0x0603
def stNoFeedback : Nat := 0x0604
def stNoCorr : Nat := 0x0605

/-! ### Actions (R222) -/

/-- An `AXIS_MOVE` parameter block (R300) is legal. -/
def moveBlockOk (p : List Byte) : Bool :=
  let m := leAt p 0 1
  decide (1 ≤ m ∧ m ≤ 3) && decide (leAt p 1 1 ≤ (if m = 3 then 1 else 0)) && zeros p 2 2 && zeros p 20 4 &&
    decide (1 ≤ leAt p 8 4 ∧ leAt p 8 4 ≤ 2000000) && decide (1 ≤ leAt p 12 4 ∧ leAt p 12 4 ≤ 1000000000) &&
    decide (1 ≤ leAt p 16 4 ∧ leAt p 16 4 ≤ 4000000000)

/-- The move a block describes. -/
def moveOf (p : List Byte) (handle : Option Nat) (txn : Nat) : AxMove :=
  { handle, txn, mmode := leAt p 0 1, neg := bitAt (leAt p 1 1) 0, target := leAtS p 4 4, v := leAt p 8 4, a := leAt p 12 4,
    j := leAt p 16 4 }

/-- Read one action of 32 bytes. -/
def parseAct (b : List Byte) : Action :=
  let w (o n : Nat) : Nat := leAt b o n
  let flags := w 1 1
  let plain : Bool := flags == 0 && zeros b 2 2
  match w 0 1 with
  | 1 => if decide (flags ≤ 1) && zeros b 2 2 && zeros b 9 1 && zeros b 28 4 && decide (w 4 4 < 2 ^ 20) then
      .reserve (w 4 4) (w 8 1) (w 10 2) (w 24 2) (w 26 2) (w 12 6) (w 18 6) (flags == 1) else .bad
  | 2 => if plain && zeros b 9 3 && zeros b 24 8 && decide (w 4 4 < 2 ^ 20) then .release (w 4 4) (w 8 1) (w 12 6) (w 18 6) else .bad
  | 3 => if plain && zeros b 12 20 && decide (w 4 2 < 2 ^ 14) then .taskSet (w 4 2) (w 6 1) (w 7 1) (w 8 4) else .bad
  | 4 => if plain && zeros b 6 2 && zeros b 16 16 && decide (w 4 2 < 2 ^ 10) then .setpoint (w 4 2) (leAtS b 8 4) (w 12 4) else .bad
  | 5 => if plain && zeros b 9 1 && zeros b 12 20 && decide (w 4 2 < 2 ^ 10) && decide (w 7 1 ≤ 1) && decide (w 8 1 ≤ 2) &&
      (w 6 1 == 3 || w 10 2 == 0) then
      .loopMode (w 4 2) (w 6 1) (w 7 1) (w 8 1) (w 10 2) else .bad
  | 6 => if plain && zeros b 7 1 && zeros b 18 14 && decide (w 6 1 < 64) && decide (w 16 2 ≤ 352) then
      .frame (w 4 2) (w 6 1) (w 8 8) (w 16 2) else .bad
  | 7 => if plain && zeros b 16 16 && stageable { addr := w 4 4, value := w 8 4, mask := w 12 4 } then
      .benchEntry (w 4 4) (w 8 4) (w 12 4) else .bad
  | 8 => if plain && zeros b 5 3 && decide (w 4 1 < 24) && moveBlockOk (slice b 8 24) then .axisMove (w 4 1) (slice b 8 24) else .bad
  | _ => .bad

/-- Is an action stop-safe (R223)? One that breaks R222 is judged at validation. -/
def Action.stopSafe : Action → Bool
  | .reserve .. | .release .. | .benchEntry .. | .frame .. | .bad => true
  | .taskSet _ _ st _ => st == 1 || st == 6
  | .setpoint l v _ => v == 0 && loopLon l
  | .loopMode _ op _ _ _ => op == 1
  | .axisMove .. => false

/-! ### Apply times (R226-R229) -/

/-- The commit beacon of an apply time on a slot boundary (R227). -/
def commitOf (t : NT) : NT := BitVec.ofNat 64 (slotStart (50 * ((slotOf t.toNat - 10) / 50)))

/-- The earliest apply time that a beacon serves: 20 ms after it. -/
def applyOf (c : NT) : NT := BitVec.ofNat 64 (slotStart (slotOf c.toNat + 10))

/-- Ids that the list of a beacon already holds: transactions, but for the first offer of a step transaction, which has its own place
(R229), and every re-offer. -/
def Dev.listLoad (s : Dev) (c : NT) : Nat :=
  ((s.txu.txns.filter fun (t : Txn) => ((!t.step && t.cNt == c && (t.phase = .staged || t.phase = .offered || t.phase = .listed) && t.fleet) ||
    t.parts.any fun (p : Part) => match p.reofferApply with | some a => commitOf a == c && !p.confirmed && !p.ended | none => false)).map
      fun (t : Txn) => t.id).eraseDups.length

/-- `OFFER_LEAD`, `CONFIRM_TIMEOUT`, `REOFFER_GAP` in ticks. -/
def Dev.offerLead (s : Dev) : Nat := msTicks (s.fld (0x9024, 0, 8))
def Dev.confirmTimeout (s : Dev) : Nat := msTicks (10 * s.fld (0x9024, 8, 8))
def Dev.reofferGap (s : Dev) : Nat := msTicks (10 * s.fld (0x9024, 16, 8))

/-- The earliest beacon that leaves `OFFER_LEAD` and has room (R228); the answer says whether a full list delayed it. -/
def Dev.pickBeacon (s : Dev) : Nat → NT → NT × Bool
  | 0, c => (c, true)
  | n + 1, c => if s.listLoad c < 15 then (c, false) else ((s.pickBeacon n (nextSlotframe c)).1, true)
def Dev.earliestBeacon (s : Dev) : NT × Bool := s.pickBeacon 600 (slotframeAtOrAfter (ntAdd s.nt (s.offerLead : Nat)))

/-! ### Records (R231) -/

/-- The 16 octets of a record. -/
def ORec.bytes (slot epoch : Nat) (r : ORec) : List Byte :=
  let head := leBytes slot 1 ++ leBytes r.kind 1 ++ leBytes epoch 2
  head ++ (match r.kind with
    | 1 => leBytes r.a 2 ++ leBytes r.b 4 ++ leBytes 0 6
    | 2 => leBytes r.key 2 ++ leBytes r.a 2 ++ leBytes r.b 1 ++ [0] ++ leBytes r.c 4 ++ leBytes 0 2
    | 3 => leBytes r.key 2 ++ leBytes r.a 4 ++ leBytes r.b 4 ++ leBytes 0 2
    | _ => leBytes r.key 2 ++ leBytes r.a 1 ++ leBytes r.b 1 ++ leBytes r.c 1 ++ [0] ++ leBytes r.d 2 ++ leBytes 0 4)

/-- Pack participants into frames of at most 21 records, one participant's records in one frame (R230). -/
def packParts : List (Nat × List Byte) → List Byte → Nat → List (List Byte × Nat)
  | [], cur, n => if n = 0 then [] else [(cur, n)]
  | (k, b) :: t, cur, n => if 21 < n + k then (cur, n) :: packParts t b k else packParts t (cur ++ b) (n + k)

/-- Queue the `OFFER` frames of some participants, by lane (R230, R318). -/
def Dev.sendOffers (s : Dev) (t : Txn) (parts : List Part) (apply_ : NT) (again : Bool) : Dev :=
  let c := commitOf apply_
  let head (n : Nat) : List Byte := leBytes (1 + 16 * b2n again) 1 ++ leBytes n 1 ++ leBytes t.id 3 ++ [0] ++
    leBytes (shortNt apply_) 6 ++ leBytes (slotframeOf c.toNat % 65536) 2 ++ leBytes 0 2
  (List.range 6).foldl (fun s lane =>
    let mine := parts.filter fun (p : Part) => match s.routeTo (robotAddr p.slot) with | some r => r.lane == lane | none => false
    let rows := mine.map fun (p : Part) => (p.recs.length, p.recs.flatMap (ORec.bytes p.slot p.epoch))
    (packParts rows [] 0).foldl (fun s f =>
      s.queueFrame { type_ := 2, dst := 0xFFFF, body := head f.2 ++ f.1, lane, prio := if t.step then 4 else 3, txn := t.id }) s) s

/-! ### Judging the actions -/

/-- A validation in progress: what it has made so far, and its first failure. -/
structure Val where
  s : Dev
  parts : List Part := []
  tasks : List TaskChange := []
  overs : List Nat := []
  behind : List Nat := []
  stuck : List Nat := []
  routes : List (Nat × List (List Byte)) := []
  pays : List (List Byte) := []
  /-- Entries staged. -/
  put : Nat := 0
  left : List (Option (List Byte)) := []
  /-- Entries are staged; in the first pass the actions are only checked. -/
  stage : Bool := false
  err : Option (Nat × Nat) := none

/-- A failure at an action. -/
def Val.fail (v : Val) (status idx : Nat) : Val := { v with err := some (status, idx) }

/-- A record for a robot, which makes it a participant. -/
def Val.rec_ (v : Val) (slot : Nat) (r : ORec) : Val :=
  if v.parts.any fun (p : Part) => p.slot == slot then
    { v with parts := mapWhere (fun (p : Part) => p.slot == slot) (fun (p : Part) => { p with recs := p.recs ++ [r] }) v.parts }
  else { v with parts := v.parts ++ [{ slot, epoch := (v.s.lease slot).epoch, recs := [r] }] }

/-- A `GRANT` record at `s_hold`. -/
def grantRec (ver : Nat) (hold : Int) : ORec := { kind := 1, key := 0, a := ver, b := unsigned 32 hold }

/-- Does a new entry conflict with one that is not its own robot's? -/
def Dev.clashes (s : Dev) (x : Resv) (p : Resv → Bool) : Bool := s.trl.resv.any fun r => p r && s.conflicts x r

/-- What stands against a new entry of a transaction: anything but a SPECULATIVE entry of the planner that no transaction
holds (R225 step 4). -/
def firmAgainst (r : Resv) : Bool := !(r.kind = .spec) || r.host || r.staged

/-- Insert a staged entry: planner entries in its way are pruned (R225 step 4). -/
def Dev.stageEntry (s : Dev) (x : Resv) : Dev :=
  let hit := (s.trl.resv.filter fun r => !firmAgainst r && s.conflicts x r).map fun r => (r.robot, r.step)
  let s := if hit.isEmpty then s else s.prune hit;
  (s.useViews [x]).setResv (s.trl.resv ++ [x])

/-- The overshoot's steps as entries of a transaction (R276): those in which the robot comes to rest from the apply time on. -/
def Dev.overshoot (s : Dev) (i txn : Nat) (t : NT) : List Resv :=
  (s.stopSteps i t false).flatMap fun q => (s.stepEntries i q).map fun e =>
    { e with txn, staged := true, uNew := true, tin := if q.off = 0 then e.tin else t }

/-- Stage the overshoot of a splice; the answer is false where it conflicts (R276). -/
def Dev.stageAll (s : Dev) (l : List Resv) : Option Dev :=
  if l.any fun x => s.clashes x firmAgainst then none else some (l.foldl (fun s x => s.stageEntry x) s)

/-- Give a task to a robot (R212, R216, R222, R242, R276). -/
def Val.give (v : Val) (t : Txn) (tA : NT) (idx task robot start : Nat) : Val :=
  let s := v.s
  let k := s.task task
  let start := if t.fromLast || (t.round && k.st = .orphaned) then (match k.gens.getLast? with | some g => g.m | none => start) else start
  let l := s.lease robot
  let old := if k.st = .held then k.holder else none
  let taken : Nat → Bool := fun x => t.acts.any fun a => match a with | .taskSet y _ _ _ => y == x | _ => false
  let many := (t.acts.filter fun a => match a with | .taskSet _ r 3 _ => r == robot | _ => false).length
  let free : TaskState → Bool := fun x => x = .open_ || x = .held || ((t.graft || t.round) && x = .orphaned)
  if l.st ≠ .active || l.unsynced || k.forbid.contains robot || !bitAt k.mask l.cls then v.fail stStale idx
  else if old.any fun h => (s.lease h).st != LeaseState.active then v.fail stBusy idx
  else if (s.txu.txns.any fun (x : Txn) => x.id != t.id && x.tasks.any fun c => c.state == 3 && c.robot == robot && (s.task c.task).st == TaskState.pending)
    then v.fail stTaskState idx
  else if !free k.st || (k.st = .held && k.holder = some robot) || 1 < many then v.fail stTaskState idx
  else if (match s.taskOf robot with | some x => !taken x | none => false) then v.fail stTaskState idx
  else if 8 ≤ k.gens.length then v.fail stGraftLimit idx
  else match s.trl.graph with
  | none => v.fail 0x0401 idx
  | some g =>
    if 10 * g.hopsLen k.hops < start then v.fail stBadAction idx
    else
      let tver := nextVer k.tver
      let tail := s.overshoot robot t.id tA
      let full := if v.stage then (if (s.rob robot).clashed && !tail.isEmpty then none else s.stageAll tail) else some s
      let passed := full.isNone
      match s.splice robot k start tA passed with
      | none => v.fail stRouteBad idx
      | some x =>
        match routePayloads task k tver x.hops x.approach with
        | none => v.fail stRouteBad idx
        | some bodies =>
          let s := full.getD s
          let s := s.setTask task { k with st := .pending, was := k.st }
          let shift (k : Kin) : Kin := { k with s := k.s - x.shift * nmMm }
          let back := if x.behind && ((s.cls l.cls).reverse || x.stuck) then some (x.approach + start) else none
          let stop := (s.stopSteps robot tA passed).map fun (q : PlanStep) => { q with k0 := shift q.k0, k1 := shift q.k1, back := back }
          let change : TaskChange := { task, state := 3, robot, start, approach := x.approach, hops := x.hops, stop, back }
          let overs := if passed then v.overs ++ [robot] else v.overs
          let behind := if x.behind then v.behind ++ [robot] else v.behind
          let stuck := if x.stuck then v.stuck ++ [robot] else v.stuck
          let routes := v.routes ++ [(robot, bodies)]
          let v : Val := { v with s := s, routes := routes, overs := overs, behind := behind, stuck := stuck, tasks := v.tasks ++ [change], put := if v.stage && !passed then v.put + tail.length else v.put }
          let v := (v.rec_ robot { kind := 2, key := task, a := tver, b := 3, c := start }).rec_ robot (grantRec tver x.hold)
          match old with
          | none => v
          | some h =>
            let gets := t.acts.any fun a => match a with | .taskSet _ r 3 _ => r == h | _ => false
            if gets then v
            else (Val.rec_ v h { kind := 2, key := task, a := k.tver, b := 1 }).rec_ h (grantRec k.tver (s.sHold h tA false))

/-- Take a task from its holder (R222): the record carries the `TVER` that the robot holds. -/
def Val.takeTask (v : Val) (tA : NT) (idx task robot st : Nat) : Val :=
  let k := v.s.task task
  if k.st ≠ .held || k.holder ≠ some robot then v.fail stTaskState idx
  else if (v.s.lease robot).st ≠ .active then v.fail stBusy idx
  else
    let v : Val := { v with tasks := v.tasks ++ [{ task, state := st, robot, start := 0 }] }
    (v.rec_ robot { kind := 2, key := task, a := k.tver, b := st }).rec_ robot (grantRec k.tver (v.s.sHold robot tA false))

/-- Judge a loop action (R260): the status, and whether it has an effect. -/
def Dev.loopJudge (s : Dev) (n op set steer blend : Nat) : Nat × Bool :=
  let l := s.loop n
  if s.nLoops ≤ n then (stBadAction, false)
  else match op with
  | 1 => (stOK, l.st != .open_)
  | 2 =>
    if 16 ≤ n && n < 24 then (stNoFeedback, false)
    else if s.benchHeld n then (stBusy, false)
    else if !gainValid s.reg (loopRec s.reg n set) then (stGainsBad, false)
    else match l.st with
      | .open_ => (stOK, true)
      | .handover => (stLoopState, false)
      | _ => if loopSet s.reg n = set then (stOK, false) else (stLoopOpen, false)
  | 3 =>
    let m := s.loop (n + 1)
    if n < 24 || n % 2 = 1 || blend < 20 || 500 < blend || !(steer = 1 || steer = 2) then (stBadAction, false)
    else if l.st = .handover || m.st = .handover then (stBusy, false)
    else if l.st ≠ .closed || m.st ≠ .closed then (stLoopState, false)
    else if l.steer = decide (steer = 2) then (stOK, false)
    else if steer = 2 && (s.station = 2 || s.fld (0x5110, 0, 8) = 0) then (stNoCorr, false)
    else (stOK, true)
  | _ => (stBadAction, false)

/-- Is the reference of a robot loop legal (R261)? -/
def Dev.refOk (s : Dev) (n : Nat) (value : Int) (rate : Nat) : Bool :=
  match loopRobot n with
  | none => false
  | some i =>
    if s.nLoops ≤ n then false
    else if loopLon n then decide (0 ≤ value ∧ value ≤ ((s.cls (s.lease i).cls).vMax : Int)) && decide (1 ≤ rate ∧ rate ≤ 20000)
    else decide (value.natAbs ≤ 5 * s.fld (0x8018, 16, 16)) && decide (1 ≤ rate ∧ rate ≤ 1000)

/-- A participant must hold a lease in ACTIVE for its loops to be commanded. -/
def Dev.canTake (s : Dev) (i : Nat) : Bool := (s.lease i).st = .active

/-- One action (R222-R225). -/
def Val.act (t : Txn) (tA : NT) (v : Val) (p : Action × Nat) : Val :=
  let s := v.s
  let idx := p.2
  if v.err.isSome then v
  else match p.1 with
  | .bad => v.fail stBadAction idx
  | .reserve seg robot w lo hi tin tout openEnd =>
    match s.trl.graph.bind fun g => g.seg? seg with
    | none => v.fail stBadAction idx
    | some x =>
      let tin := expandNt s.nt tin
      let tout := expandNt s.nt tout
      if s.nSlots ≤ robot || hi < lo || x.len < hi || (!openEnd && !ntAfter tout tin) then v.fail stBadAction idx
      else if (s.lease robot).st = .unknown || (s.lease robot).st = .released then v.fail stStale idx
      else if (s.rob robot).clashed then v.fail stConflict idx
      else if 4194304 - 65536 ≤ (s.trl.resv.filter fun r => !(r.kind = .envelope || r.frozen)).length then v.fail 0x0408 idx
      else
        let e : Resv := { seg, kind := .spec, openEnd, robot, epoch := (s.lease robot).epoch, w, tin, tout := if openEnd then 0 else tout, lo, hi,
                          txn := t.id, staged := true, uNew := true, host := true }
        if !v.stage then v else if s.clashes e firmAgainst then v.fail stConflict idx else { v with s := s.stageEntry e, put := v.put + 1 }
  | .release seg robot tfrom tto =>
    let a := expandNt s.nt tfrom
    let b := expandNt s.nt tto
    let part : Bool := t.acts.any fun x => match x with
      | .taskSet k r _ _ => r == robot || ((s.task k).st = .held && (s.task k).holder == some robot)
      | .setpoint n _ _ => loopRobot n == some robot
      | .loopMode n _ _ _ _ => loopRobot n == some robot
      | _ => false
    let hit : Resv → Bool := fun r => r.seg == seg && r.robot == robot && (r.kind = .firm || r.kind = .offered) && r.relBy == 0 &&
      !r.frozen && !r.openEnd && ntReached r.tin a && ntReached b r.tout
    let hits := s.trl.resv.filter hit
    if hits.isEmpty || (!part && hits.any fun r => !r.host) then v.fail stBadAction idx
    else { v with s := s.setResv (s.trl.resv.map fun r => if hit r then { r with relBy := t.id, uOld := true } else r) }
  | .taskSet task robot st start =>
    let k := s.task task
    if 16384 ≤ task || s.nSlots ≤ robot || !(st = 1 || st = 3 || st = 6) then v.fail stBadAction idx
    else if k.st = .empty then v.fail stTaskUnknown idx
    else if k.st = .pending then v.fail stConflict idx
    else if st = 3 then v.give t tA idx task robot start
    else v.takeTask tA idx task robot st
  | .setpoint n value rate =>
    match loopRobot n with
    | none => v.fail stBadAction idx
    | some i =>
      if !s.refOk n value rate then v.fail stBadAction idx
      else if !s.canTake i then v.fail stStale idx
      else v.rec_ i { kind := 3, key := n, a := unsigned 32 value, b := rate }
  | .loopMode n op set steer blend =>
    let (st, effect) := s.loopJudge n op set steer blend
    if st ≠ stOK then v.fail st idx
    else match loopRobot n with
      | none => v
      | some i =>
        if !s.canTake i then v.fail stStale idx
        else if effect then v.rec_ i { kind := 4, key := n, a := op, b := set, c := steer, d := blend }
        else v
  | .frame dest lanes _ len =>
    if len = 0 then { v with pays := v.pays ++ [[]], left := v.left.drop 1 }
    else if dest ≠ 0xFFFF && (s.routeTo dest).isNone then v.fail stBadAction idx
    else if lanes ≥ 2 ^ s.nLanes then v.fail stBadAction idx
    else match v.left with
      | some b :: rest => { v with pays := v.pays ++ [slice b 0 len], left := rest }
      | _ => v.fail stDma idx
  | .benchEntry .. => v
  | .axisMove n b =>
    let m := moveOf b none t.id
    match s.moveCheck n m.mmode m.neg m.target with
    | some c => v.fail c idx
    | none => v

/-- One action, and the bound on the records of a participant (R222). -/
def Val.judge (t : Txn) (tA : NT) (v : Val) (p : Action × Nat) : Val :=
  let w := Val.act t tA v p
  if w.err.isNone && w.parts.any (fun (x : Part) => decide (16 < x.recs.length)) then w.fail stBadAction p.2 else w

/-- The `BENCH_ENTRY` set of a transaction. -/
def Txn.benchSet (t : Txn) : List Staged :=
  (t.acts.filterMap fun a => match a with | .benchEntry o v m => some ({ addr := o, value := v, mask := m } : Staged) | _ => none).foldl
    mergeEntry []

/-- Does a `BENCH_ENTRY` meet a host set being applied, or an earlier uncommitted transaction (R400)? -/
def Dev.benchMeets (s : Dev) (t : Txn) : Bool :=
  let mine := t.benchSet.map fun e => e.addr
  let host := if s.ben.st = .applying then s.ben.ents.map fun e => e.addr else []
  let others := (s.txu.txns.filter fun (x : Txn) => x.id != t.id && (x.phase = .staged || x.phase = .offered || x.phase = .listed)).flatMap Txn.benchAddrs
  mine.any fun a => host.contains a || others.contains a

/-- Does another uncommitted transaction carry a record for the same robot and task or loop, or does it, or this one twice, change
the same task (R225 step 3)? -/
def Dev.recsMeet (s : Dev) (t : Txn) (v : Val) : Bool :=
  let open_ := s.txu.txns.filter fun (x : Txn) => x.id != t.id && !x.step && (x.phase = .staged || x.phase = .offered || x.phase = .listed)
  let keys : List Part → List (Nat × Nat × Nat) := fun ps =>
    ps.flatMap fun (p : Part) => p.recs.filterMap fun (r : ORec) =>
      if r.kind = 2 then some (p.slot, 0, r.key) else if r.kind = 1 then none else some (p.slot, 1, r.key)
  let mine := (keys v.parts).eraseDups
  let tasks := v.tasks.map fun (c : TaskChange) => c.task
  tasks.eraseDups.length != tasks.length ||
    open_.any fun (x : Txn) => (keys x.parts).any mine.contains || x.tasks.any fun (c : TaskChange) => tasks.contains c.task

end Sys2Proof.Machine
end

