-- ==== Sys2Proof/Machine/Txns.lean ====
section
/-! DEFINITION. Transactions (R220-R241): submission, validation, cut-off, commit at the beacon, apply time, re-offers. -/
namespace Sys2Proof.Machine

/-! ### Submission -/

/-- The slot boundary an apply time names is legal (R224). -/
def Dev.applyTimeOk (s : Dev) (t : NT) : Bool :=
  t == 0 || (onSlot t && decide (ntDiff t s.nt ≤ ((60 * tickHz : Nat) : Int)))

/-- What the run state answers to a transaction, stop-safe or not (R223). -/
def Dev.motionCode (s : Dev) (safe : Bool) : Nat :=
  match s.saf.run with
  | .run => stOK
  | .fleetStop => if safe then stOK else stStopped
  | .safe => stSafe
  | _ => stBusy

/-- Take a transaction into flight, by the run state (R223, R224). -/
def Dev.submitTxn (s : Dev) (h : Nat) (t : Txn) : Dev :=
  let safe := t.acts.all Action.stopSafe
  let code := s.motionCode safe
  if code ≠ stOK then s.refuse h code none
  else if 256 ≤ s.inFlight then s.refuse h stBusy none
  else
    let t := { t with handle := some h, host := true, stopSafe := safe, received := s.nt }
    { s with txu := { s.txu with txns := s.txu.txns ++ [t] } }

/-- The apply time of a command, 0 standing for the earliest feasible one. -/
def givenApply (t : NT) : Option NT := if t = 0 then none else some t

/-- TXN_SUBMIT (R222-R224). -/
def execTxnSubmit (h : Nat) (data : Option (List Byte)) (s : State) : Host.Outcome State Fault Refusal := s.act fun s =>
  s.fleetCommand h 0x51 fun l s =>
    match data with
    | none => s.refuse h stDma none
    | some b =>
      let n := l.p 8 1
      if !s.applyTimeOk (l.pNt 0) then s.refuse h stBadDesc (some 24)
      else if 64 < n then s.refuse h stBadDesc (some 32)
      else if 1 < l.p 9 1 then s.refuse h stBadDesc (some 33)
      else if l.len ≠ 32 * n then s.refuse h stBadLen (some 16)
      else s.submitTxn h { acts := (List.range n).map fun i => parseAct (slice b (32 * i) 32), applyAt := givenApply (l.pNt 0),
                           doneAt := l.p 9 1 = 1 }

/-- LOOP_OPEN (R260). -/
def execLoopOpen (h : Nat) (s : State) : Host.Outcome State Fault Refusal := s.act fun s =>
  s.fleetCommand h 0x60 fun l s =>
    if !s.applyTimeOk (l.pNt 0) then s.refuse h stBadDesc (some 24)
    else s.submitTxn h { acts := [.loopMode (l.p 8 2) 1 0 0 0], applyAt := givenApply (l.pNt 0) }

/-- LOOP_CLOSE (R260). -/
def execLoopClose (h : Nat) (s : State) : Host.Outcome State Fault Refusal := s.act fun s =>
  s.fleetCommand h 0x61 fun l s =>
    if !s.applyTimeOk (l.pNt 0) then s.refuse h stBadDesc (some 24)
    else if 1 < l.p 10 1 then s.refuse h stBadDesc (some 34)
    else s.submitTxn h { acts := [.loopMode (l.p 8 2) 2 (l.p 10 1) 0 0], applyAt := givenApply (l.pNt 0) }

/-- LOOP_HANDOVER (R260): `LOOP` is a lateral slot. -/
def execLoopHandover (h : Nat) (s : State) : Host.Outcome State Fault Refusal := s.act fun s =>
  s.fleetCommand h 0x62 fun l s =>
    let n := l.p 8 2
    if !s.applyTimeOk (l.pNt 0) then s.refuse h stBadDesc (some 24)
    else if n < 24 || n % 2 = 1 then s.refuse h stBadDesc (some 32)
    else if !(l.p 10 1 = 1 || l.p 10 1 = 2) then s.refuse h stBadDesc (some 34)
    else if l.p 12 2 < 20 || 500 < l.p 12 2 then s.refuse h stBadDesc (some 36)
    else s.submitTxn h { acts := [.loopMode n 3 0 (l.p 10 1) (l.p 12 2)], applyAt := givenApply (l.pNt 0) }

/-- AXIS_MOVE (R300): its command completes when the move ends. -/
def execAxisMove (h : Nat) (s : State) : Host.Outcome State Fault Refusal := s.act fun s =>
  s.fleetCommand h 0x68 fun l s =>
    let b := slice l.entry 40 24
    if !s.applyTimeOk (l.pNt 0) then s.refuse h stBadDesc (some 24)
    else if !moveBlockOk b then s.refuse h stBadDesc (some 40)
    else s.submitTxn h { acts := [.axisMove (l.p 8 1) b], applyAt := givenApply (l.pNt 0), move := true }

/-! ### Validation -/

/-- A transaction ends at validation: a conflict counts as an abort, a refusal does not (DEDUCED, log entry 29). -/
def Dev.refuseTxn (s : Dev) (t : Txn) (status idx : Nat) : Dev := s.abortTxn t status idx (status = stConflict || status = stDeadline)

/-- A failed judgement of the registers a transaction carries (R225 step 2, R400): the rules are in `DONE`. -/
def Dev.benchFailTxn (s : Dev) (t : Txn) (l : List Broken) : Dev :=
  let s := s.doneOpt t.handle 0x0901 (brokenRes l)
  let t := { t with handle := none }
  (s.updTxn t.id fun _ => t).abortTxn t 0x0901 0xFF true

/-- The result of a validated transaction (R381). -/
def validRes (id : Nat) (t : NT) : List Byte := leBytes id 3 ++ leBytes 0 5 ++ leBytes t.toNat 8

/-- The first `OFFER` is queued (R197, R228): staged entries become OFFERED. -/
def Dev.offerTxn (s : Dev) (t : Txn) (apply_ : NT) : Dev :=
  let s := s.sendOffers t t.parts apply_ false
  let s := s.setResv (s.trl.resv.map fun r => if r.txn = t.id && r.staged then { r with kind := .offered, staged := false } else r)
  s.updTxn t.id fun t => { t with phase := .offered }

/-- Choose the apply time (R226, R228): a status that ends the transaction, or the time, its beacon, and whether a full
list delayed it. -/
def Dev.chooseApply (s : Dev) (t : Txn) : Nat × NT × NT × Bool :=
  match t.applyAt with
  | some a =>
    let c := commitOf a
    if t.fleet then
      if ntAfter (ntAdd s.nt (s.offerLead : Nat)) c then (stDeadline, a, c, false)
      else if !t.step && 15 ≤ s.listLoad c then (stCommitFull, a, c, false)
      else (stOK, a, c, false)
    else if ntAfter s.nt (ntAdd a (-(msTicks 1 : Nat))) then (stDeadline, a, c, false)
    else (stOK, a, c, false)
  | none =>
    if t.fleet then
      let (c, late) := s.earliestBeacon
      (stOK, applyOf c, c, late)
    else
      let a := slotAtOrAfter (ntAdd s.nt (msTicks 1 : Nat))
      (stOK, a, commitOf a, false)

/-- Validation of one transaction (R225). -/
def Dev.validate (s : Dev) (t : Txn) (payloads : List (Option (List Byte))) : Dev :=
  let id := if t.id = 0 then s.txu.nextId else t.id
  let (code, tA, c, late) := s.chooseApply t
  let t1 : Txn := { t with id }
  let run (v : Val) : Val := t.acts.zipIdx.foldl (Val.judge t1 tA) v
  let v0 := run { s, left := payloads }
  let quiet : Bool := match t.acts with
    | [.loopMode n op set steer blend] => let j := s.loopJudge n op set steer blend; j.1 == stOK && !j.2
    | _ => false
  let bench := s.judgeSet t.benchSet false id
  match v0.err with
  | some (st, idx) => s.refuseTxn t st idx
  | none =>
    if quiet then (s.doneTxn t stOK 0xFF).dropTxn t
    else if !t.benchSet.isEmpty && s.benchMeets t1 then s.refuseTxn t stConflict 0xFF
    else if !t.benchSet.isEmpty && !bench.isEmpty then (s.doneOpt t.handle 0x0901 (brokenRes bench)).dropTxn t
    else if s.recsMeet t1 v0 then s.refuseTxn t stConflict 0xFF
    else if code ≠ stOK then s.refuseTxn t code 0xFF
    else
      let s1 := v0.parts.foldl (fun s (p : Part) => s.pruneAll p.slot) s
      let v := run { s := s1, left := payloads, stage := true }
      match v.err, decide ((v.s.trl.resv.filter fun r => r.txn = id && r.staged).length = v.put) with
      | some (st, idx), _ => s1.refuseTxn t st idx
      | none, false => s1.refuseTxn t stConflict 0xFF
      | none, true =>
        let t2 : Txn := { t1 with phase := .staged, applyAt := some tA, cNt := c, parts := v.parts, tasks := v.tasks,
                                  overs := v.overs, behind := v.behind, stuck := v.stuck, payloads := v.pays }
        let s := v.s
        let bump := if t.id = 0 then (if id = 0xFFFFFF then 1 else id + 1) else s.txu.nextId
        let swap : Txn → Txn := fun x => if x.id = t.id ∧ x.handle = t.handle ∧ x.received = t.received then t2 else x
        let s := { s with txu := { s.txu with nextId := bump, txns := s.txu.txns.map swap } }
        let s := v.overs.foldl (fun s i => (s.setPrf i { s.prf i with refused := true }).cntSat (0xB018, 16, 16)) s
        let s := s.progressTxn t 1 (validRes id tA)
        let s := v.routes.foldl (fun s r => s.sendRoute id r.1 r.2) s
        let s := if late then s.raise 0x6A else s
        if t2.fleet then s.offerTxn t2 tA else s

/-- TXN_VALIDATION_END (R225, R228): the oldest transaction that waits is validated; `payloads` are what its `FRAME` actions
fetched. -/
def execTxnValidationEnd (dt : Nat) (payloads : List (Option (List Byte))) (s : State) : Host.Outcome State Fault Refusal := s.act fun s =>
  let s := s.tick dt
  match if s.par.hand.isSome then none else s.txu.txns.find? fun (t : Txn) => t.phase = .waiting with
  | some t => s.validate t payloads
  | none => s

/-- OFFER_DEADLINE (R228): `C` − `OFFER_LEAD` passes while a transaction with a given apply time still waits. -/
def execOfferDeadline (s : State) : Host.Outcome State Fault Refusal := s.act fun s =>
  let due : List (Txn × NT) := s.txu.txns.filterMap fun (t : Txn) =>
    if t.phase = .waiting ∧ t.fleet then t.applyAt.map fun a => (t, ntAdd (commitOf a) (-(s.offerLead : Nat))) else none
  match firstNt (due.map (·.2)) with
  | none => s.begin
  | some at_ =>
    let s := s.tickTo at_;
    (due.filter fun p => p.2 == at_).foldl (fun s p => s.abortTxn p.1 stDeadline 0xFF true) s

/-! ### Cut-off and commit -/

/-- The re-check of a transaction (R226, R228, R260, R400): the status that ends it. -/
def Dev.recheck (s : Dev) (t : Txn) : Option Nat :=
  let mine := s.trl.resv.filter fun r => r.txn = t.id && (r.staged || r.kind = .offered)
  if mine.any fun x => s.clashes x fun r => r.kind = .envelope then some stConflict
  else if t.acts.any fun a => match a with
    | .loopMode n op set steer blend => (s.loopJudge n op set steer blend).1 != stOK
    | _ => false then some stConflict
  else if !t.benchSet.isEmpty && !(s.judgeSet t.benchSet false t.id).isEmpty then some 0x0901
  else none

/-- Instants at which re-offers are handed over. -/
def Txn.reCuts (t : Txn) : List NT :=
  t.parts.filterMap fun (p : Part) => p.reofferApply.map fun a => ntAdd (commitOf a) (-(msTicks 1 : Nat))

/-- CUT_OFF (R226, R228, R229, R415): every transaction whose cut-off this is is judged again, and the commit list goes to
Rootstock. `late`: it arrives there too late to be placed. -/
def execCutOff (late : Bool) (s : State) : Host.Outcome State Fault Refusal := s.act fun s =>
  match firstNt (s.txu.txns.flatMap fun (t : Txn) => t.cutAt.toList ++ t.reCuts) with
  | none => s.begin
  | some at_ =>
    let s := s.tickTo at_
    let due := s.txu.txns.filter fun (t : Txn) => t.cutAt == some at_
    let s := s.useViews (s.trl.resv.filter fun r => (r.staged || r.kind = .offered) && due.any fun (t : Txn) => t.id == r.txn)
    let again := s.txu.txns.filter fun (t : Txn) => t.reCuts.contains at_
    let s := due.foldl (fun s (t : Txn) =>
      match s.recheck t with
      | none => s.updTxn t.id fun t => { t with phase := .listed }
      | some 0x0901 => (s.benchFailTxn t (s.judgeSet t.benchSet false t.id)).raise 0x6C
      | some st => (s.abortTxn t st 0xFF true).raise 0x6C) s
    let passed := due.filter fun (t : Txn) => t.fleet && (match s.txn? t.id with | some x => x.phase = .listed | none => false)
    let ids := ((again ++ passed.filter (!·.step) ++ passed.filter (·.step)).map fun (t : Txn) => t.id).eraseDups
    let off : Txn → Txn := fun t => { t with parts := t.parts.map fun (p : Part) =>
      match p.reofferApply with
      | some a => if ntAdd (commitOf a) (-(msTicks 1 : Nat)) == at_ then { p with reofferApply := none } else p
      | none => p }
    let s := { s with txu := { s.txu with txns := s.txu.txns.map off } }
    if ids.isEmpty then s
    else if late || 16 < ids.length then s.raise 0xB8
    else { s with txu := { s.txu with lists := s.txu.lists ++ [{ c := ntAdd at_ (msTicks 1 : Nat), ids }] } }

/-- A transaction commits (R228): OFFERED entries become FIRM; a longitudinal set-point prunes its robot (R261). -/
def Dev.commitTxn (s : Dev) (t : Txn) : Dev :=
  let s := s.setResv (s.trl.resv.map fun r =>
    if r.txn = t.id && (r.kind = .offered || r.staged) then { r with kind := .firm, staged := false } else r)
  let s := s.cntWrap (0x902C, 0, 16)
  let s := s.progressTxn t 2 (leBytes t.id 3)
  let s := s.updTxn t.id fun t => { t with phase := .committed }
  let sf := match t.applyAt with | some a => sfNext (slotframeOf a.toNat) | none => 0
  let s := t.acts.foldl (fun s a => match a with
    | .setpoint n _ _ => if loopLon n then s.prune [((n - 24) / 2, sf)] else s
    | _ => s) s
  if t.doneAt then s else s.finishTxn t stOK 0xFF

/-- The `RUN` flag of a beacon (R26): 1 in RUN, and in an UPDATE_PAUSE entered from it. -/
def Dev.runBit (s : Dev) : Bool := s.saf.run == .run || (s.saf.run == .updatePause && s.saf.pausedFrom == some .run)

/-- The payload of a beacon (R325). -/
def Dev.beaconBody (s : Dev) (c : NT) (ids : List Nat) : List Byte :=
  let step := decide (0 < s.mac.stepBeacons)
  let d : Nat := if !step then 0
    else if s.mac.stepDelta.natAbs < 2 ^ 47 then unsigned 48 s.mac.stepDelta else 0x800000000000
  leBytes (1 + 16 * b2n s.runBit + 32 * b2n step) 1 ++ leBytes ids.length 1 ++ leBytes (shortNt c) 6 ++
    leBytes (slotframeOf c.toNat % 2 ^ 32) 4 ++ leBytes d 6 ++ leBytes (s.fld (0x4048, 0, 8)) 1 ++ [0] ++
    slice (ids.flatMap fun i => leBytes i 3) 0 48

/-- BEACON (R325, R228, R415, R327): slot 0 of a slotframe. A lane whose beacon a pre-emption took has none; while Rootstock
restarts there is none at all; in a pause of its firmware the hardware builds one with an empty list (R486). -/
def execBeacon (s : State) : Host.Outcome State Fault Refusal := s.act fun s =>
  let c : NT := BitVec.ofNat 64 (slotStart (50 * slotframeOf s.nt.toNat))
  let sf := slotframeOf c.toNat
  let fresh : Bool := decide (ntSince s.nt c ≤ usTicks 40) && s.inService.any fun n => (s.lane n).owesBeacon sf
  let s := s.tickTo (if fresh then c else nextSlotframe s.nt)
  let c : NT := BitVec.ofNat 64 (slotStart (50 * slotframeOf s.nt.toNat))
  let sf := slotframeOf c.toNat
  if !s.beaconing || !s.holdsToken then s
  else if s.saf.restarting || (match s.mac.silentUntil with | some u => ntAfter u c | none => false) then
    if s.inService.any fun n => (s.lane n).owesBeacon sf then s.raise 0x81 else s
  else
    let ids := if s.upd.pause = some 5 then [] else match s.txu.lists.find? fun (x : CommitList) => x.c == c with | some x => x.ids | none => []
    let body := s.beaconBody c ids
    let lanes := s.inService.filter fun n => (s.lane n).owesBeacon sf
    let s := lanes.foldl (fun s n =>
      let s := (s.launch n (s.launchAt n (50 * sf)) { type_ := 0, dst := 0xFFFF, body, lane := n }).emit (.frame n 0 0xFFFF body)
      (s.setLane n { s.lane n with beaconSf := some sf }).emit (.beacon n s.runBit ids)) s
    let s := { s with mac := { s.mac with stepBeacons := s.mac.stepBeacons - 1 }
                      txu := { s.txu with lists := s.txu.lists.filter fun (x : CommitList) => ntAfter x.c c } }
    let s := ids.foldl (fun s id => match s.txn? id with
      | some t => if t.phase = .listed then s.commitTxn t else s
      | none => s) s
    s.firstBeacon

/-! ### Apply time -/

/-- The `GRANT` a participant's records carry. -/
def Part.grant (p : Part) : Option Int := (p.recs.find? fun (r : ORec) => r.kind == 1).map fun r => signed 32 r.b

/-- A task change takes place (R211, R212, R243): one whose new holder's lease has ended by then is ORPHANED. -/
def Dev.changeTask (s : Dev) (c : TaskChange) (hold : Option Int) : Dev :=
  let k := s.task c.task
  let closed := k.gens.map fun (g : Gen) => { g with current := false }
  let tver := nextVer k.tver
  if c.state = 3 then
    let l := s.lease c.robot
    let held := l.st = .active || l.st = .suspect
    let g : Gen := { slot := c.robot, epoch := l.epoch, s := c.start, m := c.start, current := held, endedDead := l.st = .dead }
    if !held then
      let s := s.setTask c.task { k with st := .orphaned, tver, holder := none, gens := closed ++ [g] }
      { s with trl := { s.trl with taskChange := true } }
    else
      let s := s.setTask c.task { k with st := .held, tver, holder := some c.robot, gens := closed ++ [g] }
      s.setRob c.robot { s.rob c.robot with route := some { task := c.task, tver, approach := c.approach, hops := c.hops }
                                            proj := none, sGrant := hold, plan := c.stop, back := c.back, deps := [], deviated := false
                                            judged := none, blocked := false }
  else if c.state = 6 then s.setTask c.task { k with st := .withdrawn, tver, holder := none, gens := closed, pin := none, forbid := [] }
  else
    let s := s.setTask c.task { k with st := .open_, tver, holder := none, gens := closed }
    { s with trl := { s.trl with taskChange := true } }

/-- A loop action takes effect (R258, R259, R269, R270). -/
def Dev.loopAct (s : Dev) (id n op set steer : Nat) : Dev :=
  let l := s.loop n
  match op with
  | 1 =>
    let s := if l.st != .handover then s
      else
        let lat := n - (n % 2)
        let i := (lat - 24) / 2
        let slow : Bool := match (s.lease i).report, (Tab.get (fun _ => []) s.ctl.sent i).head? with
          | some r, some p => decide (r.vLocal < p.v)
          | _, _ => false
        [lat, lat + 1].foldl (fun s m => s.setLoop m { s.loop m with st := .closed, steer := slow, hoTxn := 0 }) s
    s.setLoop n (s.loop n).opened
  | 2 =>
    let (e, ff, _) := s.loopIn n
    s.closeLoop n set e ff fun v => ((s.setFld (0xA500 + 4 * n, 10, 1) set).loopIn n).2.2 v
  | _ =>
    [n, n + 1].foldl (fun s m => s.setLoop m { s.loop m with st := .handover, want := decide (steer = 2), hoTxn := id }) s

/-- The lanes a `FRAME` action names (R222): 0 stands for the node's lane, or every lane in service for a broadcast. -/
def Dev.frameLanes (s : Dev) (dest lanes : Nat) : List Nat :=
  if lanes = 0 then (match s.routeTo dest with | some r => [r.lane] | none => s.inService)
  else s.inService.filter fun n => bitAt lanes n

/-- The device's own effects of a transaction at its apply time (R226, R228). -/
def Dev.applyTxn (s : Dev) (t : Txn) : Dev :=
  let s := if t.benchSet.isEmpty then s else s.applyEnts t.benchSet true
  let s := t.tasks.foldl (fun s (c : TaskChange) =>
    s.changeTask c ((t.parts.find? fun (p : Part) => p.slot == c.robot).bind Part.grant)) s
  let s := (t.tasks.filter fun (c : TaskChange) => c.state = 3).foldl (fun s (c : TaskChange) =>
    s.setPrf c.robot { s.prf c.robot with behind := t.behind.contains c.robot, refused := t.overs.contains c.robot }) s
  let s := t.parts.foldl (fun s (p : Part) =>
    let x := s.rob p.slot
    let x := match p.grant with | some g => if t.step then x else { x with sGrant := some g } | none => x
    s.setRob p.slot { x with clashTxn := true, offTxn := true }) s
  let s := t.behind.foldl (fun s i =>
    let s := s.setRob i { s.rob i with blocked := (s.rob i).blocked || t.stuck.contains i }
    ((s.cntSat (0xB018, 0, 16)).raise 0x74).event 0x0B01 (leBytes i 1 ++ leBytes (b2n (t.overs.contains i)) 1)) s
  let go := t.acts.foldl (fun (p : Dev × List (List Byte)) a =>
    let (s, pays) := p
    match a with
    | .setpoint n v rate => (s.setLoop n { s.loop n with ref := v, rate }, pays)
    | .loopMode n op set steer _ => if (s.loopJudge n op set steer 100).2 then (s.loopAct t.id n op set steer, pays) else (s, pays)
    | .frame dest lanes _ len =>
      let b := pays.headD []
      let s := if len = 0 then s
        else (s.frameLanes dest lanes).foldl (fun s n =>
          let rx := match s.routeTo dest with | some r => (r.hops.headD (dest, 0, 0)).1 | none => 0xFFFF
          s.queueFrame { type_ := 12, dst := dest, body := b, lane := n, prio := 5, txn := t.id, rx }) s
      (s, pays.drop 1)
    | .axisMove n b =>
      let h := if t.move then t.handle else none
      let (s, bad) := s.moveStart n (moveOf b h t.id)
      let s := match bad with
        | some c => if t.move then s else s.event 0x0C01 (leBytes n 1 ++ [0] ++ leBytes c 2 ++ leBytes t.id 3)
        | none => s
      (s, pays)
    | _ => (s, pays)) (s, t.payloads)
  go.1

/-- What an offer that did not commit leaves at its apply time (R35, R228). -/
def Dev.expireOffer (s : Dev) (t : Txn) : Dev :=
  let s := s.setResv (clearUnion t.id (s.trl.resv.filter fun r => !(r.txn = t.id && (r.kind = .offered || r.staged))))
  let s := t.grants.foldl (fun s g =>
    let s := s.pruneAll g.1
    s.setRob g.1 { s.rob g.1 with sGrant := g.2, plan := [] }) s
  s.dropTxn t

/-- TXN_APPLY (R226, R228, R35): the next apply time that falls due. -/
def execTxnApply (s : State) : Host.Outcome State Fault Refusal := s.act fun s =>
  let open_ : Txn → Bool := fun t => t.phase = .listed || t.phase = .failed || t.phase = .committed
  match firstNt ((s.txu.txns.filter open_).filterMap fun (t : Txn) => t.applyAt) with
  | none => s.begin
  | some at_ =>
    let s := s.tickTo at_
    match s.txu.txns.find? fun (t : Txn) => open_ t && t.applyAt == some at_ with
    | none => s
    | some t =>
      if t.phase = .failed then s.expireOffer t
      else if t.phase = .listed && t.fleet then
        let s := (s.unpend t).cntSat (0x902C, 16, 16);
        (s.doneTxn t stDeadline 0xFF).expireOffer t
      else
        let s := if t.phase = .listed then s.commitTxn t else s
        let t := match s.txn? t.id with | some x => x | none => t
        let s := s.applyTxn t
        let gap : NT := ntAdd at_ (s.reofferGap : Nat)
        let late : NT := ntAdd at_ (s.confirmTimeout : Nat)
        let s := s.updTxn t.id fun t =>
          { t with phase := .applied, handle := if t.move then none else t.handle,
                   parts := t.parts.map fun (p : Part) => { p with reofferAt := some gap, unsyncedAt := some late } }
        s.settleTxn t.id

/-! ### Re-offers (R235, R236) -/

/-- Participants still waited for, with their transaction. -/
def Dev.unmet (s : Dev) : List (Txn × Part) :=
  (s.txu.txns.filter fun (t : Txn) => t.phase = .applied).flatMap fun (t : Txn) =>
    (t.parts.filter fun (p : Part) => !p.confirmed && !p.ended).map fun p => (t, p)

/-- Change one participant. -/
def Dev.updPart (s : Dev) (id slot : Nat) (f : Part → Part) : Dev :=
  s.updTxn id fun t => { t with parts := mapWhere (fun (p : Part) => p.slot == slot) f t.parts }

/-- Is a `GRANT` of a transaction superseded by a later committed one to the same robot (R235)? -/
def Dev.superseded (s : Dev) (t : Txn) (slot : Nat) : Bool :=
  ((s.txu.txns.dropWhile fun (x : Txn) => x.id != t.id).drop 1).any fun (x : Txn) =>
    (x.phase = .committed || x.phase = .applied) && x.parts.any fun (p : Part) => p.slot == slot && p.grant.isSome

/-- Is a version no older than another (R212: 1 follows 0xFFFF)? -/
def verReached (a b : Nat) : Bool := decide ((a + 65535 - b) % 65535 < 32768)

/-- Does a report show a state at least as far on as a record of a transaction (R234)? The record that takes a task away is met
once the report no longer shows the task (DEDUCED, log entry 34). -/
def Dev.recMet (s : Dev) (t : Txn) (i : Nat) (r : Report) (x : ORec) : Bool :=
  match x.kind with
  | 1 =>
    let now := match (s.rob i).route with | some v => v.tver | none => 0
    (r.routeVer == x.a && decide (signed 32 x.b ≤ (r.sGrant : Int))) || (r.routeVer != x.a && r.routeVer != 0 && r.routeVer == now)
  | 2 =>
    if x.b = 3 then r.task == some x.key && verReached r.tver x.a
    else r.task != some x.key
  | _ => s.txu.txns.any fun (y : Txn) =>
      (y.phase = .committed || y.phase = .applied) && ntAfter y.cNt t.cNt && r.applied.contains y.id &&
        y.parts.any fun (p : Part) => p.slot == i && p.recs.any fun (z : ORec) => decide (3 ≤ z.kind) && z.key == x.key

/-- Has a participant's latest report since the apply time met a record (R235)? -/
def Dev.hasMet (s : Dev) (t : Txn) (slot : Nat) (r : ORec) : Bool :=
  match (s.lease slot).report, t.applyAt with
  | some x, some a => ntAfter (s.lease slot).repRx a && s.recMet t slot x r
  | _, _ => false

/-- Offer a participant again (R235): its `ROUTE` frames first, and the records not yet met. One that is not ACTIVE is passed
over. -/
def Dev.reoffer (s : Dev) (t : Txn) (p : Part) : Dev :=
  let next : NT := ntAdd s.nt (s.reofferGap : Nat)
  if (s.lease p.slot).st ≠ .active then s.updPart t.id p.slot fun p => { p with reofferAt := some next }
  else
    let recs := p.recs.filter fun (r : ORec) => !(r.kind == 1 && s.superseded t p.slot) && !s.hasMet t p.slot r
    let (c, late) := s.earliestBeacon
    let s := if late then s.raise 0x6A else s
    let s := t.tasks.foldl (fun s (x : TaskChange) =>
      if x.state = 3 ∧ x.robot = p.slot then
        let k := s.task x.task
        match routePayloads x.task k k.tver x.hops x.approach with
        | some b => s.sendRoute t.id p.slot b
        | none => s
      else s) s
    let s := if recs.isEmpty then s else s.sendOffers t [{ p with recs }] (applyOf c) true
    let s := s.cntSat (0x9030, 0, 16)
    s.updPart t.id p.slot fun p => { p with reofferAt := some next, reofferApply := some (applyOf c), reoffered := true }

/-- REOFFER (R235): `REOFFER_GAP` after the apply time, or after the last re-offer. -/
def execReoffer (s : State) : Host.Outcome State Fault Refusal := s.act fun s =>
  match firstNt (s.unmet.filterMap fun (x : Txn × Part) => x.2.reofferAt) with
  | none => s.begin
  | some at_ =>
    let s := s.tickTo at_
    match s.unmet.find? fun (x : Txn × Part) => x.2.reofferAt == some at_ with
    | some x => s.reoffer x.1 x.2
    | none => s

/-- UNSYNCED (R236): `CONFIRM_TIMEOUT` after the apply time. -/
def execUnsynced (s : State) : Host.Outcome State Fault Refusal := s.act fun s =>
  match firstNt (s.unmet.filterMap fun (x : Txn × Part) => x.2.unsyncedAt) with
  | none => s.begin
  | some at_ =>
    let s := s.tickTo at_
    match s.unmet.find? fun (x : Txn × Part) => x.2.unsyncedAt == some at_ with
    | none => s
    | some (t, p) =>
      let l := s.lease p.slot
      let s := (s.updPart t.id p.slot fun p => { p with unsyncedAt := none }).setLease p.slot { l with unsynced := true }
      let s := if l.unsynced then s else s.cntSat (0x9030, 16, 16);
      (s.directedStop (robotAddr p.slot) l.epoch 8 s.nt).raise 0x68

/-- TXN_CANCEL (R239). -/
def execTxnCancel (h : Nat) (s : State) : Host.Outcome State Fault Refusal := s.act fun s =>
  s.command h 0x52 fun l s =>
    match s.txn? (l.p 0 4) with
    | none =>
      match s.trl.patches.find? fun (p : Patch) => p.txn != 0 && p.txn == l.p 0 4 with
      | some p => if p.open_ s.nt then (s.abortPatch p stCancelled 0xFF true).done h stOK [] else s.done h stTooLate []
      | none => s.done h stTxnUnknown []
    | some t =>
      if t.open_ s.nt then (s.abortTxn t stCancelled 0xFF true).done h stOK []
      else if t.phase = .failed then s.done h stTxnUnknown []
      else if t.phase = .applied && t.parts.all (fun p => p.confirmed || p.ended) then s.done h stTxnUnknown []
      else s.done h stTooLate []

end Sys2Proof.Machine
end

