-- ==== Sys2Proof/Machine/Graph.lean ====
section
/-! DEFINITION. The track graph (R173-R185): its records, the load of a whole graph, patches, and queries (R203). -/
namespace Sys2Proof.Machine

def stNoGraph : Nat := 0x0401
def stGraphInUse : Nat := 0x0402
def stGraphInvalid : Nat := 0x0403
def stGraphCapacity : Nat := 0x0404
def stSegReserved : Nat := 0x0405
def stPatchVersion : Nat := 0x0406
def stUnknownId : Nat := 0x0407

/-! ### Records (R173, R174, R178) -/

def readNode (b : List Byte) : NodeRec :=
  { id := bits (leAt b 0 4) 0 20, type_ := bits (leAt b 0 4) 21 3, noHold := bitAt (leAt b 0 4) 24, e := leAtS b 4 4, n := leAtS b 8 4,
    u := leAtS b 12 2, zone := leAt b 14 2 }

def readSeg (b : List Byte) : SegRec :=
  let w := leAt b 0 4
  { id := bits w 0 20, clear := bits w 20 4, dir := bits w 24 2, nodeA := bits (leAt b 4 4) 0 20, nodeB := bits (leAt b 8 4) 0 20,
    len := leAt b 12 2, hw := leAt b 14 2, vlim := leAt b 16 2, zone := leAt b 18 2
    pts := (List.range (bits w 26 5)).map fun k => (leAtS b (32 + 10 * k) 4, leAtS b (36 + 10 * k) 4, leAtS b (40 + 10 * k) 2) }

def readLink (b : List Byte) : LinkRec :=
  let w := leAt b 0 8
  { a := bits w 0 20, b := bits w 20 20, kind := bits w 40 2, minDist := bits w 42 16, aLo := leAt b 8 2, aHi := leAt b 10 2,
    bLo := leAt b 12 2, bHi := leAt b 14 2 }

/-- A node record written out. -/
def NodeRec.bytes (n : NodeRec) : List Byte :=
  leBytes (n.id + 2 ^ 20 + 2 ^ 21 * n.type_ + 2 ^ 24 * b2n n.noHold) 4 ++ leBytes (unsigned 32 n.e) 4 ++ leBytes (unsigned 32 n.n) 4 ++
    leBytes (unsigned 16 n.u) 2 ++ leBytes n.zone 2 ++ leBytes 0 16

/-- A segment record with the device's values (R174). -/
def SegRec.bytes (x : SegRec) (first n resv flags : Nat) : List Byte :=
  leBytes (x.id + 2 ^ 20 * x.clear + 2 ^ 24 * x.dir + 2 ^ 26 * x.pts.length) 4 ++ leBytes x.nodeA 4 ++ leBytes x.nodeB 4 ++
    leBytes x.len 2 ++ leBytes x.hw 2 ++ leBytes x.vlim 2 ++ leBytes x.zone 2 ++ leBytes 0 12 ++
    slice (x.pts.flatMap fun p => leBytes (unsigned 32 p.1) 4 ++ leBytes (unsigned 32 p.2.1) 4 ++ leBytes (unsigned 16 p.2.2) 2) 0 160 ++
    leBytes first 4 ++ leBytes n 2 ++ leBytes 0 2 ++ leBytes resv 4 ++ leBytes flags 1 ++ leBytes 0 51

/-- A reservation record (R185). -/
def Resv.bytes (r : Resv) : List Byte :=
  let kind := match r.kind with | .firm => 0 | .offered => 1 | .spec => 2 | .envelope => 3
  let plain : Bool := r.kind = .envelope || r.host
  leBytes (r.seg + 2 ^ 20 * kind + 2 ^ 22 * b2n r.openEnd + 2 ^ 23 * b2n r.frozen + 2 ^ 24 * r.robot) 4 ++ leBytes r.epoch 2 ++
    leBytes r.w 2 ++ leBytes (shortNt r.tin) 6 ++ leBytes (if r.openEnd then 0 else shortNt r.tout) 6 ++ leBytes r.lo 2 ++ leBytes r.hi 2 ++
    leBytes (r.txn % 2 ^ 24 + 2 ^ 24 * b2n (r.txn != 0) + 2 ^ 25 * b2n r.staged + 2 ^ 26 * b2n r.uOld + 2 ^ 27 * b2n r.uNew +
      2 ^ 28 * b2n r.host) 4 ++ leBytes (if plain then 0 else r.step % 65536) 2 ++ leBytes 0 2

/-! ### Well-formedness (R175, R178): what is wrong with a record, by the reasons of R181 -/

/-- The first of a list of tests that fails, with its reason. -/
def firstReason (l : List (Bool × Nat)) : Option Nat := (l.find? fun p => !p.1).map (·.2)

def nodeReason (b : List Byte) : Option Nat :=
  let w := leAt b 0 4
  firstReason [(bitAt w 20 && decide (bits w 21 3 ≤ 3) && bits w 25 7 == 0 && zeros b 16 16, 2)]

/-- The horizontal point of a polyline point or node, mm. -/
def flatPt (p : Int × Int × Int) : Pt := (p.1, p.2.1)

/-- Do consecutive points lie 10 cm apart, and does no piece turn by more than 90 degrees? -/
def ptsOk : List Pt → Bool
  | a :: b :: c :: t => decide (10000 ≤ ptNorm2 (ptSub b a)) && decide (0 ≤ ptDot (ptSub b a) (ptSub c b)) && ptsOk (b :: c :: t)
  | [a, b] => decide (10000 ≤ ptNorm2 (ptSub b a))
  | _ => true

/-- Does a point lie within 5 cm of a node? -/
def nearNode (n : Option NodeRec) (p : Option Pt) : Bool :=
  match n, p with
  | some n, some p => decide (ptNorm2 (ptSub p (n.e, n.n)) ≤ 2500)
  | _, _ => false

def Dev.segReason (s : Dev) (g : Graph) (b : List Byte) : Option Nat :=
  let x := readSeg b
  let npts := bits (leAt b 0 4) 26 5
  let pts := x.pts.map flatPt
  let um := polyLen x.um
  firstReason [
    (!bitAt (leAt b 0 4) 31 && decide (leAt b 4 4 < 2 ^ 20) && decide (leAt b 8 4 < 2 ^ 20) && zeros b 20 12 &&
      zeros b (32 + 10 * npts) (160 - 10 * npts) && zeros b 192 64, 2),
    (decide (2 ≤ npts ∧ npts ≤ 16) && ptsOk pts, 3),
    (decide (10 ≤ x.len ∧ x.len ≤ 5000) && decide (((x.len * 10000 : Nat) : Int) - (um : Int) ≤ 10000) &&
      decide ((um : Int) - ((x.len * 10000 : Nat) : Int) ≤ 10000), 4),
    (nearNode (g.node? x.nodeA) pts.head? && nearNode (g.node? x.nodeB) pts.getLast?, 5),
    (decide (10 ≤ x.hw ∧ x.hw ≤ 2000) && decide (1 ≤ x.vlim ∧ x.vlim ≤ 10000) && s.flag (0x8100 + 4 * x.clear, 24, 1), 6)]

def linkReason (g : Graph) (b : List Byte) : Option Nat :=
  let l := readLink b
  firstReason [(l.kind = 1 && l.minDist = 0 && bits (leAt b 0 8) 58 6 == 0, 2),
    ((match g.seg? l.a, g.seg? l.b with
      | some x, some y => l.a != l.b && decide (l.aLo ≤ l.aHi ∧ l.aHi ≤ x.len) && decide (l.bLo ≤ l.bHi ∧ l.bHi ≤ y.len)
      | _, _ => false), 7)]

/-- The box of points seen: least and largest `E` and `N`. -/
abbrev Box := Option (Int × Int × Int × Int)
def Box.add (x : Box) (p : Pt) : Box :=
  match x with
  | none => some (p.1, p.1, p.2, p.2)
  | some (a, b, c, d) => some (min a p.1, max b p.1, min c p.2, max d p.2)
def Box.ok : Box → Bool
  | none => true
  | some (a, b, c, d) => decide (b - a ≤ 16000000) && decide (d - c ≤ 16000000)

/-! ### Loading (R181) -/

/-- Records checked so far. -/
structure LoadAcc where
  g : Graph
  box : Box := none
  segs : Nat := 0

/-- Take one record (kind 0 node, 1 segment, 2 link), or say why not. -/
def Dev.loadRec (s : Dev) (a : LoadAcc) (k : Nat) (b : List Byte) : Except Nat LoadAcc :=
  match k with
  | 0 =>
    let n := readNode b
    let box := Box.add a.box (n.e, n.n)
    if (a.g.node? n.id).isSome then .error 1
    else match nodeReason b with
      | some r => .error r
      | none => if box.ok then .ok { a with g := { a.g with nodes := a.g.nodes ++ [n] }, box } else .error 8
  | 1 =>
    let x := readSeg b
    let box := (x.pts.map flatPt).foldl Box.add a.box
    if (a.g.seg? x.id).isSome then .error 1
    else match s.segReason a.g b with
      | some r => .error r
      | none => if box.ok then .ok { g := { a.g with segs := a.g.segs ++ [x] }, box, segs := a.segs + 1 } else .error 8
  | _ =>
    match linkReason a.g b with
    | some r => .error r
    | none => .ok { a with g := { a.g with links := a.g.links ++ [readLink b] } }

/-- Check records in order; a failure is the record's index, its reason, and the segments checked before it. -/
def Dev.loadGo (s : Dev) : List (Nat × List Byte) → Nat → LoadAcc → Except (Nat × Nat × Nat) LoadAcc
  | [], _, a => .ok a
  | p :: t, i, a =>
    match s.loadRec a p.1 p.2 with
    | .error r => .error (i, r, a.segs)
    | .ok a => Dev.loadGo s t (i + 1) a

/-- `LINK_RANGE`, m. -/
def Dev.linkRange (s : Dev) : Nat := s.fld (0x801C, 16, 8)

/-- A graph with its derived links (R177); the coupled ones stand first. -/
def Dev.derived (s : Dev) (g : Graph) : Graph :=
  { g with links := (g.links.filter fun l => l.kind = 1) ++ g.deriveAll s.linkRange g.segs }

/-- Do the tables hold the graph (R180)? Each link is stored twice. -/
def Graph.fits (g : Graph) : Bool :=
  decide (g.nodes.length ≤ 1048576) && decide (g.segs.length ≤ 1048576) && decide (2 * g.links.length ≤ 8388608)

/-- Records of an image. -/
def imageRecs (b : List Byte) : List (Nat × List Byte) :=
  let nn := leAt b 8 4
  let ns := leAt b 12 4
  let nl := leAt b 16 4
  (List.range nn).map (fun k => (0, slice b (64 + 32 * k) 32)) ++
    (List.range ns).map (fun k => (1, slice b (64 + 32 * nn + 256 * k) 256)) ++
    (List.range nl).map (fun k => (2, slice b (64 + 32 * nn + 256 * ns + 16 * k) 16))

/-- May a graph be replaced now? -/
def Dev.mayReplace (s : Dev) : Bool := s.saf.run = .fleetStop && s.trl.resv.isEmpty

/-- TRL_LOAD_GRAPH (R181): what refuses it at once; else it asks leave. -/
def execTrlLoadGraph (h : Nat) (data : Option (List Byte)) (s : State) : Host.Outcome State Fault Refusal := s.act fun s =>
  s.command h 0x40 fun l s =>
    match data with
    | none => s.refuse h stDma none
    | some b =>
      let nn := leAt b 8 4
      let ns := leAt b 12 4
      let nl := leAt b 16 4
      let has := bitAt (leAt b 1 1) 0
      if b.length < 64 || l.len ≠ b.length then s.refuse h stBadLen (some 16)
      else if leAt b 0 1 ≠ 1 then s.refuse h stBadDesc (some 64)
      else if 1 < leAt b 1 1 then s.refuse h stBadDesc (some 65)
      else if !zeros b 2 2 then s.refuse h stBadDesc (some 66)
      else if 1048576 < nn then s.refuse h stBadDesc (some 72)
      else if 1048576 < ns then s.refuse h stBadDesc (some 76)
      else if !has && nl ≠ 0 then s.refuse h stBadDesc (some 80)
      else if !zeros b 20 44 then s.refuse h stBadDesc (some 84)
      else if b.length ≠ 64 + 32 * nn + 256 * ns + 16 * nl then s.refuse h stBadLen (some 16)
      else if s.trl.load.isSome then s.refuse h stBusy none
      else if nn = 0 then s.refuse h stZero (some 72)
      else if ns = 0 then s.refuse h stZero (some 76)
      else if has && nl = 0 then s.refuse h stZero (some 80)
      else if !s.mayReplace then s.done h stGraphInUse []
      else
        ({ s with trl := { s.trl with load := some { handle := h, image := b } } }).askLeave 2 (50 * s.fld (0x8020, 24, 8))
          (msTicks 20 + usTicks (6 * ns)) (ntAdd s.nt (msTicks 1000 : Nat)) .graphLoad

/-- Pending footprints meet a new graph (R28, R181): installed, or discarded with `UNPLACED`. -/
def Dev.installFeet (s : Dev) (g : Graph) : Dev :=
  let fps := s.trl.pendingFp
  let s := { s with trl := { s.trl with pendingFp := [] } }
  fps.foldl (fun s f =>
    let l := s.lease f.slot
    if f.graphId = g.id && f.ents.all fun e => (g.seg? e.1).isSome then
      let es : List Resv := f.ents.map fun e =>
        { seg := e.1, kind := .envelope, openEnd := true, frozen := true, robot := f.slot, epoch := l.epoch, w := e.2.2.2, tin := s.nt,
          tout := 0, lo := e.2.1, hi := e.2.2.1 }
      ((s.useViews es).setResv (s.trl.resv ++ es)).persist f.slot
    else s.putLease f.slot { l with parked := false, unplaced := true }) s

/-- `PROGRESS` entries of a load: one after each 65,536 segments. -/
def Dev.loadProgress (s : Dev) (h n : Nat) : Dev :=
  (List.range (n / 65536)).foldl (fun s k => s.progress h 1 (leBytes (65536 * (k + 1)) 4)) s

/-- GRAPH_LOAD_DONE (R181): the load that has leave ends; the graph is replaced in one step, or stands. -/
def execGraphLoadDone (dt : Nat) (s : State) : Host.Outcome State Fault Refusal := s.act fun s =>
  let s := s.tick dt
  match s.trl.load with
  | none => s
  | some x =>
    if !x.granted then s
    else
      let s := ({ s with trl := { s.trl with load := none } }).returnLeave .graphLoad
      match s.loadGo (imageRecs x.image) 0 { g := { id := leAt x.image 4 4 } } with
      | .error (i, r, n) => (s.loadProgress x.handle n).done x.handle stGraphInvalid (leBytes i 4 ++ leBytes r 1)
      | .ok a =>
        let g := s.derived a.g
        let s := s.loadProgress x.handle a.segs
        if !g.fits then s.done x.handle stGraphCapacity []
        else if !s.mayReplace then s.done x.handle stGraphInUse []
        else
          let s := s.trl.patches.foldl (fun s p => s.abortPatch p stConflict 0xFF true) s
          let s := { s with trl := { s.trl with graph := some g, ver := 1, cache := [] } };
          (s.installFeet g).done x.handle stOK []

/-! ### Patches (R182-R184) -/

/-- Items of a patch from `o` on: operation and record; an unknown operation, or reserved bytes, at an offset. -/
def patchItems (b : List Byte) : Nat → Nat → Except Nat (List (Nat × List Byte) × Nat)
  | 0, o => .ok ([], o)
  | n + 1, o =>
    let op := leAt b o 1
    let len := if op ≤ 2 then 32 else if op ≤ 5 then 256 else 16
    if b.length < o + 8 then .ok ([], b.length + 1)
    else if op = 0 || 7 < op then .error o
    else if !zeros b (o + 1) 7 then .error (o + 1)
    else match patchItems b n (o + 8 + len) with
      | .error e => .error e
      | .ok (l, e) => .ok ((op, slice b (o + 8) len) :: l, e)

/-- One item on the graph, without judging records: `none` where it adds what is there or names what is not. -/
def Graph.edit (g : Graph) (p : Nat × List Byte) : Option Graph :=
  let b := p.2
  match p.1 with
  | 1 => let n := readNode b; if (g.node? n.id).isSome then none else some { g with nodes := g.nodes ++ [n] }
  | 2 => let n := readNode b; if (g.node? n.id).isNone then none else some { g with nodes := g.nodes.filter fun x => x.id != n.id }
  | 3 => let x := readSeg b; if (g.seg? x.id).isSome then none else some { g with segs := g.segs ++ [x] }
  | 4 => let x := readSeg b
         if (g.seg? x.id).isNone then none else some { g with segs := g.segs.map fun y => if y.id = x.id then x else y }
  | 5 => let x := readSeg b
         if (g.seg? x.id).isNone then none else some { g with segs := g.segs.filter fun y => y.id != x.id }
  | 6 => some { g with links := g.links ++ [readLink b] }
  | _ =>
    let l := readLink b
    let hit : LinkRec → Bool := fun x => x.kind = 1 && ((x.a = l.a && x.b = l.b) || (x.a = l.b && x.b = l.a))
    if l.kind ≠ 1 || !(g.links.any hit) then none else some { g with links := g.links.filter fun x => !hit x }

/-- All items; a failure is the index of the item. -/
def Graph.editAll (g : Graph) : List (Nat × List Byte) → Nat → Except Nat Graph
  | [], _ => .ok g
  | p :: t, i => match g.edit p with
    | none => .error i
    | some g => Graph.editAll g t (i + 1)

/-- Is an item's record well formed in the graph as it would stand (R183)? -/
def Dev.itemOk (s : Dev) (g : Graph) (p : Nat × List Byte) : Bool :=
  let b := p.2
  let linksOk (id : Nat) : Bool := (g.links.filter fun l => l.kind = 1 && (l.a = id || l.b = id)).all fun l =>
    match g.seg? l.a, g.seg? l.b with
    | some x, some y => decide (l.aHi ≤ x.len) && decide (l.bHi ≤ y.len)
    | _, _ => false
  match p.1 with
  | 1 => (nodeReason b).isNone
  | 2 => let n := readNode b; g.segs.all fun x => x.nodeA != n.id && x.nodeB != n.id
  | 3 | 4 => (s.segReason g b).isNone && linksOk (readSeg b).id
  | 5 => linksOk (readSeg b).id
  | 6 => (linkReason g b).isNone
  | _ => true

/-- The box of a whole graph. -/
def Graph.box (g : Graph) : Box :=
  g.segs.foldl (fun x y => (y.pts.map flatPt).foldl Box.add x) (g.nodes.foldl (fun x n => Box.add x (n.e, n.n)) none)

/-- May a segment that holds reservations be replaced so (R183)? -/
def Dev.changeOk (s : Dev) (old new : SegRec) : Bool :=
  decide (old.vlim ≤ new.vlim) && decide (s.dClear old.clear ≤ s.dClear new.clear) && decide (s.tClear old.clear ≤ s.tClear new.clear) &&
    new == { old with vlim := new.vlim, dir := new.dir, hw := new.hw, zone := new.zone, clear := new.clear }

/-- Reservations on a segment (R174). -/
def Dev.resvN (s : Dev) (id : Nat) : Nat := (s.trl.resv.filter fun r => r.seg == id).length

/-- Would R183 refuse an item for the reservations that its segment holds now? -/
def Dev.itemRefused (s : Dev) (g : Graph) (p : Nat × List Byte) : Bool :=
  let x := readSeg p.2
  match p.1, g.seg? x.id with
  | 5, some _ => s.resvN x.id != 0
  | 4, some old => s.resvN x.id != 0 && !s.changeOk old x
  | _, _ => false

/-- Does a replacement restrict a segment (R184): one that R183 may refuse, or that takes a direction, width or clearance away? -/
def Dev.restricts (s : Dev) (old new : SegRec) : Bool :=
  !s.changeOk old new || (new.dir != old.dir && new.dir != 0) || decide (new.hw < old.hw) ||
    decide (s.dClear old.clear < s.dClear new.clear) || decide (s.tClear old.clear < s.tClear new.clear)

/-- The segments that an item deletes, and those it restricts (R184): a coupled link restricts both of its segments (DEDUCED, log
entry 114). -/
def Dev.itemHits (s : Dev) (g : Graph) (p : Nat × List Byte) : List Nat × List Nat :=
  let x := readSeg p.2
  match p.1, g.seg? x.id with
  | 5, some _ => ([x.id], [])
  | 4, some old => ([], if s.restricts old x then [x.id] else [])
  | 6, _ => ([], [(readLink p.2).a, (readLink p.2).b])
  | _, _ => ([], [])

/-- The derived links after a change (R177, R184): those between untouched segments stand, those of every segment added or
replaced are derived again. -/
def Dev.rederive (s : Dev) (old new : Graph) : Graph :=
  let same : Nat → Bool := fun id => old.seg? id == new.seg? id
  let kept := old.links.filter fun l => l.kind = 0 && same l.a && same l.b
  let fresh := new.segs.zipIdx.flatMap fun p => (new.segs.drop (p.2 + 1)).filterMap fun y =>
    if same p.1.id && same y.id then none else new.derive? p.1 y s.linkRange
  { new with links := (new.links.filter fun l => l.kind = 1) ++ kept ++ fresh }

/-- TRL_PATCH_GRAPH (R182). -/
def execTrlPatchGraph (h : Nat) (data : Option (List Byte)) (s : State) : Host.Outcome State Fault Refusal := s.act fun s =>
  s.fleetCommand h 0x41 fun l s =>
    match data with
    | none => s.refuse h stDma none
    | some b =>
      let n := l.p 10 2
      if !s.applyTimeOk (l.pNt 0) then s.refuse h stBadDesc (some 24)
      else if 256 < n then s.refuse h stBadDesc (some 34)
      else match patchItems b n 0 with
      | .error o => s.refuse h stBadDesc (some (64 + o))
      | .ok (items, e) =>
        let code := s.motionCode true
        let p : Patch := { handle := h, ver := l.p 8 2, items, applyAt := givenApply (l.pNt 0) }
        if e ≠ l.len || b.length ≠ l.len then s.refuse h stBadLen (some 16)
        else if code ≠ stOK then s.refuse h code none
        else if 256 ≤ s.inFlight then s.refuse h stBusy none
        else if s.trl.graph.isNone then s.done h stNoGraph []
        else if p.ver ≠ s.trl.ver then s.done h stPatchVersion []
        else { s with trl := { s.trl with patches := s.trl.patches ++ [p] } }

/-- A patch in flight changes. -/
def Dev.setPatch (s : Dev) (p : Patch) : Dev :=
  { s with trl := { s.trl with patches := mapWhere (fun (x : Patch) => x.is p) (fun _ => p) s.trl.patches } }

/-- Validation of a patch on a graph (R183): a status that ends it with the index of an item, or the graph after it. -/
def Dev.patchCheck (s : Dev) (p : Patch) (g : Graph) : Except (Nat × Nat) Graph :=
  match g.editAll p.items 0 with
  | .error i => .error (stGraphInvalid, i)
  | .ok new =>
    let new := s.rederive g new
    match firstIdx (fun it => !s.itemOk new it) p.items, firstIdx (s.itemRefused g) p.items with
    | some i, _ => .error (stGraphInvalid, i)
    | none, some i => .error (stSegReserved, i)
    | none, none =>
      if !new.box.ok then .error (stGraphInvalid, 0xFF)
      else if !new.fits then .error (stGraphCapacity, 0xFF)
      else .ok new

/-- PATCH_VALIDATION_END (R183, R184): the oldest patch that waits is validated. -/
def execPatchValidationEnd (dt : Nat) (s : State) : Host.Outcome State Fault Refusal := s.act fun s =>
  let s := s.tick dt
  match if s.par.hand.isSome then none else s.trl.patches.find? fun (p : Patch) => p.txn == 0, s.trl.graph with
  | some p, some g =>
    if p.ver ≠ s.trl.ver then s.abortPatch p stPatchVersion 0xFF false
    else match s.patchCheck p g with
    | .error (st, i) => s.abortPatch p st i false
    | .ok new =>
      let hits := p.items.map (s.itemHits g)
      let id := s.txu.nextId
      let at_ := p.applyAt.getD (slotAtOrAfter (ntAdd s.nt (msTicks 10 : Nat)))
      if !ntAfter at_ s.nt then s.abortPatch p stDeadline 0xFF true
      else
        let p : Patch := { p with txn := id, applyAt := some at_, graph := new, dels := hits.flatMap (·.1), chgs := hits.flatMap (·.2) }
        let s := { s with txu := { s.txu with nextId := if id = 0xFFFFFF then 1 else id + 1 } };
        (s.setPatch p).progress p.handle 1 (validRes id at_)
  | _, _ => s

/-- A patch's instant has come (R184). One whose `BASE_VER` an earlier one has overtaken ends `TRL_PATCH_VERSION` (DEDUCED, log
entry 35). The answer says whether it took effect. -/
def Dev.applyPatch (s : Dev) (p : Patch) : Dev × Bool :=
  let g := s.trl.graph.getD {}
  if p.txn = 0 then (s.abortPatch p stDeadline 0xFF true, false)
  else if p.ver ≠ s.trl.ver then (s.abortPatch p stPatchVersion 0xFF true, false)
  else if p.items.any (s.itemRefused g) then (s.abortPatch p stConflict 0xFF true, false)
  else
    let ver := if s.trl.ver = 0xFFFF then 1 else s.trl.ver + 1
    let s := { s with trl := { s.trl with patches := s.trl.patches.filter fun (x : Patch) => !x.is p, graph := some p.graph, ver
                                          cache := s.trl.cache.filter fun id => !p.dels.contains id } };
    let s := s.cntWrap (0x902C, 0, 16)
    let s := match p.cmd with | some h => s.progress h 2 (leBytes p.txn 3) | none => s;
    (s.doneOpt p.cmd stOK (txnDone { id := p.txn } 0xFF), true)

/-- The patches due at an instant, in submission order; the answer says whether any took effect. -/
def Dev.applyDue (s : Dev) (t : NT) : Dev × Bool :=
  (s.trl.patches.filter fun (p : Patch) => p.applyAt == some t).foldl (fun a p => let x := a.1.applyPatch p; (x.1, a.2 || x.2)) (s, false)

/-- PATCH_APPLY (R184): the next apply time, or that of a patch whose validation has not ended. The full re-plan that follows is
requested at once, but at a boundary whose planning epoch is still to come after its envelopes (R202). -/
def execPatchApply (s : State) : Host.Outcome State Fault Refusal := s.act fun s =>
  match firstNt (s.trl.patches.filterMap fun (p : Patch) => p.applyAt) with
  | none => s.begin
  | some a =>
    let (s, hit) := (s.tickTo a).applyDue a
    if !hit then s
    else if s.beaconing && a == slotframeAtOrAfter a && a != s.trl.epoch then { s with trl := { s.trl with replanDue := true } }
    else s.askReplan

/-! ### Queries (R203) -/

/-- Does the window of an entry meet [`from`, `to`], `to` 0 standing for no end? -/
def Resv.meets (r : Resv) (from_ until_ : NT) : Bool :=
  timeOverlap r { r with tin := from_, tout := until_, openEnd := until_ == 0 } 0

/-- A segment record as a query shows it. Its place in the link table is by the order of the store (DESIGN CHOICE, log entry 36). -/
def Dev.segOut (s : Dev) (g : Graph) (x : SegRec) : List Byte :=
  let own : SegRec → Nat := fun y => (g.links.filter fun l => l.a == y.id || l.b == y.id).length
  let first := (g.segs.takeWhile fun y => y.id != x.id).foldl (fun n y => n + own y) 0
  let ready := s.trl.patches.filter fun (p : Patch) => p.txn != 0
  x.bytes first (own x) (s.resvN x.id) (b2n (s.trl.cache.contains x.id) + 2 * b2n (ready.any fun p => p.dels.contains x.id) +
    4 * b2n (ready.any fun p => p.chgs.contains x.id))

/-- The envelope report of a robot. -/
def Dev.envReport (s : Dev) (i : Nat) : List Byte :=
  let x := s.rob i
  let l := s.lease i
  let mine := s.trl.resv.filter fun r => r.robot = i
  let env := mine.filter fun r => r.kind = .envelope
  let frozen := mine.any (·.frozen)
  let wide := mine.any s.wide
  let (seg, d) := match s.place i with
    | some (y, d) => if x.proj.isSome then (y.id, d / 10) else (0, 0)
    | none => (0, 0)
  let e : Int := match x.proj with | some p => p.e / 10 | none => 0
  leBytes i 1 ++ leBytes (b2n x.clashed + 2 * b2n x.offRoute + 4 * b2n x.deviated + 8 * b2n frozen + 16 * b2n wide + 32 * x.gradeUsed) 1 ++
    leBytes l.epoch 2 ++ leBytes seg 4 ++ leBytes d 2 ++ leBytes (satSigned 16 e) 2 ++ leBytes (sat 16 x.ve) 2 ++ leBytes (sat 16 x.lfwd) 2 ++
    leBytes (sat 16 x.w) 2 ++ leBytes (sat 16 env.length) 2 ++ leBytes (shortNt x.evalAt) 6 ++ leBytes 0 6

/-- What a query finds: a status, the records, and their size. -/
def Dev.queryFind (s : Dev) (l : Live) (g : Graph) : Nat × List (List Byte) × Nat :=
  let id := l.p 24 4
  let pick (p : Resv → Bool) : List (List Byte) :=
    (s.trl.resv.filter fun r => p r && bitAt (l.p 31 1) (match r.kind with | .firm => 0 | .offered => 1 | .spec => 2 | .envelope => 3) &&
      r.meets (l.pNt 0) (l.pNt 8)).map Resv.bytes
  match l.p 30 1 with
  | 1 => match g.seg? id with
    | some x => (stOK, [s.segOut g x], 256)
    | none => (stUnknownId, [], 256)
  | 2 => match g.node? id with
    | some n => (stOK, [n.bytes], 32)
    | none => (stUnknownId, [], 32)
  | 3 => if (g.seg? id).isNone then (stUnknownId, [], 32) else (stOK, pick fun r => r.seg == id, 32)
  | 4 => if s.nSlots ≤ id then (stUnknownId, [], 32) else (stOK, pick fun r => r.robot == id, 32)
  | 5 => if s.nSlots ≤ id then (stUnknownId, [], 32) else (stOK, [s.envReport id], 32)
  | _ =>
    let near := (g.around (l.ps 16 4 * 1000, l.ps 20 4 * 1000) (1000 * l.p 28 2)).map (·.1)
    (stOK, pick fun r => near.contains r.seg, 32)

/-- TRL_QUERY (R203). -/
def execTrlQuery (h : Nat) (werr : Bool) (s : State) : Host.Outcome State Fault Refusal := s.act fun s =>
  s.command h 0x42 fun l s =>
    let q := l.p 30 1
    if q = 0 || 6 < q then s.refuse h stBadDesc (some 54)
    else if l.p 31 1 = 0 || 15 < l.p 31 1 then s.refuse h stBadDesc (some 55)
    else if q = 6 && (l.p 28 2 = 0 || 1000 < l.p 28 2) then s.refuse h stBadDesc (some 52)
    else match s.trl.graph with
    | none => s.done h stNoGraph []
    | some g =>
      let (st, recs, size) := s.queryFind l g
      if st ≠ stOK then s.done h st []
      else if werr then s.refuse h stDma none
      else
        let out := recs.take (l.len / size)
        let s := if out.isEmpty then s else s.emit (.host h 0 0 (out.flatMap id))
        s.done h stOK (leBytes out.length 4 ++ leBytes recs.length 4)

end Sys2Proof.Machine
end

