-- ==== Sys2Proof/Machine/Sha.lean ====
section
/-! DEFINITION. SHA-256 and SHA-512 (FIPS 180-4) over a string of bytes, as the image checks of R475 and R484 use them. Their
constants are computed from their definition: the first bits of the fractional parts of roots of primes. -/
namespace Sys2Proof.Machine

/-- What the two hashes differ in: the bits of a word, the rounds, and the distances of the rotations and shifts. -/
structure ShaKind where
  w : Nat
  rounds : Nat
  sched0 : List Nat × Nat
  sched1 : List Nat × Nat
  sum0 : List Nat
  sum1 : List Nat
deriving DecidableEq, Repr

def kind256 : ShaKind := { w := 32, rounds := 64, sched0 := ([7, 18], 3), sched1 := ([17, 19], 10), sum0 := [2, 13, 22], sum1 := [6, 11, 25] }
def kind512 : ShaKind := { w := 64, rounds := 80, sched0 := ([1, 8], 7), sched1 := ([19, 61], 6), sum0 := [28, 34, 39], sum1 := [14, 18, 41] }

/-- The largest number, `r` plus bits below `2 ^ b`, whose `k`-th power does not exceed `n`. -/
def rootFrom (k n : Nat) : Nat → Nat → Nat
  | 0, r => r
  | b + 1, r => rootFrom k n b (if (r + 2 ^ b) ^ k ≤ n then r + 2 ^ b else r)

/-- First `w` bits of the fractional part of the `k`-th root of `p`. -/
def rootFrac (w k p : Nat) : Nat := rootFrom k (p * 2 ^ (w * k)) (w + 5) 0 % 2 ^ w

/-- The primes below `n`. -/
def primesTo (n : Nat) : List Nat := (List.range n).filter fun p => 2 ≤ p && (List.range p).all fun d => d < 2 || p % d != 0

/-- The round constants: cube roots of the first primes. -/
def ShaKind.rootsK (z : ShaKind) : List Nat := ((primesTo 410).take z.rounds).map (rootFrac z.w 3)

/-- The initial chaining value: square roots of the first 8 primes. -/
def ShaKind.start (z : ShaKind) : List Nat := (primesTo 20).map (rootFrac z.w 2)

/-- Sums and rotations of words. -/
def ShaKind.add (z : ShaKind) (a b : Nat) : Nat := (a + b) % 2 ^ z.w
def ShaKind.rotr (z : ShaKind) (n a : Nat) : Nat := (a / 2 ^ n + a * 2 ^ (z.w - n)) % 2 ^ z.w

/-- The rotations of a word by each of some distances, added without carries to `y`. -/
def ShaKind.turns (z : ShaKind) (ds : List Nat) (y a : Nat) : Nat := ds.foldl (fun x d => x ^^^ z.rotr d a) y

/-- The next word of the message schedule, from the words so far, newest first. -/
def ShaKind.next (z : ShaKind) (w : List Nat) : Nat :=
  let mix (d : List Nat × Nat) (a : Nat) : Nat := z.turns d.1 (a / 2 ^ d.2) a
  [mix z.sched0 (w.getD 14 0), w.getD 6 0, mix z.sched1 (w.getD 1 0)].foldl z.add (w.getD 15 0)

/-- The message schedule, newest word first, with `n` words more. -/
def ShaKind.extend (z : ShaKind) : Nat → List Nat → List Nat
  | 0, w => w
  | n + 1, w => z.extend n (z.next w :: w)

/-- One round: the words of the state move on by one place, and two of them change. -/
def ShaKind.round (z : ShaKind) (v : List Nat) (kw : Nat × Nat) : List Nat :=
  let x (k : Nat) : Nat := v.getD k 0
  let choose := x 6 ^^^ (x 4 &&& (x 5 ^^^ x 6))
  let most := (x 0 &&& x 1) ||| (x 2 &&& (x 0 ||| x 1))
  let t := [choose, z.turns z.sum1 0 (x 4), kw.1, kw.2].foldl z.add (x 7)
  let top := [most, z.turns z.sum0 0 (x 0)].foldl z.add t
  ((top :: v).take 8).modify 4 (z.add t)

/-- A big-endian value in `n` bytes, and the value of bytes in big-endian order. -/
def beBytes (v n : Nat) : List Byte := (leBytes v n).reverse
def beAt (b : List Byte) (o n : Nat) : Nat := leAt (slice b o n).reverse 0 n

/-- One block of sixteen words. -/
def ShaKind.block (z : ShaKind) (v : List Nat) (b : List Byte) : List Nat :=
  let n := z.w / 8
  let first := (List.range 16).foldl (fun w k => beAt b (n * k) n :: w) []
  List.zipWith z.add v ((z.rootsK.zip (z.extend (z.rounds - 16) first).reverse).foldl z.round v)

/-- The message with its padding: a set bit, zeros, and the length in bits in two words. -/
def ShaKind.pad (z : ShaKind) (m : List Byte) : List Byte :=
  m ++ 0x80 :: List.replicate ((30 * z.w / 8 - 1 - m.length % (2 * z.w)) % (2 * z.w)) 0 ++ beBytes (8 * m.length) (z.w / 4)

/-- The chaining value after the first `n` blocks of a padded message. -/
def ShaKind.chain (z : ShaKind) (m : List Byte) : Nat → List Nat
  | 0 => z.start
  | n + 1 => z.block (z.chain m n) (slice m (2 * z.w * n) (2 * z.w))

/-- The hash of a message. -/
def ShaKind.hash (z : ShaKind) (m : List Byte) : List Byte :=
  (z.chain (z.pad m) ((z.pad m).length / (2 * z.w))).flatMap fun x => beBytes x (z.w / 8)

/-- SHA-256 of a message, 32 bytes, and SHA-512, 64 bytes. -/
def sha256 (m : List Byte) : List Byte := kind256.hash m
def sha512 (m : List Byte) : List Byte := kind512.hash m

end Sys2Proof.Machine
end

