-- ==== Sys2Proof/Machine/Ed25519.lean ====
section
/-! DEFINITION. Verification of an Ed25519 signature (RFC 8032), by which the ROM and the update engine judge image headers (R475,
R478): the field, the curve in extended coordinates, the decoding of points, and the group equation with its cofactor. -/
namespace Sys2Proof.Machine

/-- The field's prime and the order of the base point. -/
def edP : Nat := 2 ^ 255 - 19
def edL : Nat := 2 ^ 252 + 27742317777372353535851937790883648493

/-- Powers, negation and inverses in the field; `n` is at least the number of bits of the exponent. -/
def edPow (b : Nat) : Nat → Nat → Nat
  | 0, _ => 1
  | n + 1, e =>
    let r := edPow b n (e / 2)
    if e % 2 = 1 then r * r % edP * b % edP else r * r % edP
def edSub (a b : Nat) : Nat := (a + (edP - b % edP)) % edP
def edInv (a : Nat) : Nat := edPow a 255 (edP - 2)

/-- The curve's constant d = -121665/121666. -/
def edD : Nat := edSub 0 121665 * edInv 121666 % edP

/-- A point: X, Y, Z with x = X/Z and y = Y/Z, and T = XY/Z. -/
structure EdPoint where
  x : Nat := 0
  y : Nat := 1
  z : Nat := 1
  t : Nat := 0
deriving DecidableEq, Repr

/-- The complete addition of the twisted curve. -/
def EdPoint.add (p q : EdPoint) : EdPoint :=
  let minus := edSub p.y p.x * edSub q.y q.x % edP
  let plus := (p.y + p.x) * (q.y + q.x) % edP
  let tt := 2 * edD * p.t % edP * q.t % edP
  let zz := 2 * p.z * q.z % edP
  let e := edSub plus minus
  let f := edSub zz tt
  let g := (zz + tt) % edP
  let h := (plus + minus) % edP
  { x := e * f % edP, y := g * h % edP, z := f * g % edP, t := e * h % edP }

/-- A multiple of a point; `n` is at least the number of bits of the factor. -/
def EdPoint.times (p : EdPoint) : Nat → Nat → EdPoint
  | 0, _ => {}
  | n + 1, k =>
    let half := p.times n (k / 2)
    let d := half.add half
    if k % 2 = 1 then d.add p else d

/-- Are two points the same? -/
def EdPoint.same (p q : EdPoint) : Bool :=
  p.x * q.z % edP == q.x * p.z % edP && p.y * q.z % edP == q.y * p.z % edP

/-- The point of a y-coordinate and the low bit of x, if there is one. -/
def edFromY (y sign : Nat) : Option EdPoint :=
  let num := edSub (y * y % edP) 1
  let den := (edD * (y * y % edP) + 1) % edP
  let cube := den * den % edP * den % edP
  let r := num * cube % edP * edPow (num * (cube * cube % edP * den % edP) % edP) 255 ((edP - 5) / 8) % edP
  let sq := den * (r * r % edP) % edP
  let root : Option Nat :=
    if sq = num then some r
    else if sq = edSub 0 num then some (r * edPow 2 255 ((edP - 1) / 4) % edP)
    else none
  match root with
  | none => none
  | some x =>
    if edP ≤ y || (x = 0 && sign = 1) then none
    else
      let x := if x % 2 = sign then x else edSub 0 x
      some { x, y, z := 1, t := x * y % edP }

/-- The point that 32 bytes encode. -/
def edPoint (b : List Byte) : Option EdPoint :=
  let v := leAt b 0 32
  edFromY (v % 2 ^ 255) (v / 2 ^ 255 % 2)

/-- Does a signature of 64 bytes hold for a message under a public key of 32? -/
def edVerify (key msg sig : List Byte) : Bool :=
  let s := leAt sig 32 32
  let k := leAt (sha512 (slice sig 0 32 ++ slice key 0 32 ++ msg)) 0 64 % edL
  match edPoint sig, edPoint key, edFromY (4 * edInv 5 % edP) 0 with
  | some r, some a, some base =>
    decide (s < edL) && ((base.times 253 s).times 4 8).same ((r.add (a.times 253 k)).times 4 8)
  | _, _, _ => false

end Sys2Proof.Machine
end

