-- ==== Sys2Proof/Machine/UpdOps.lean ====
section
/-! DEFINITION. The update engine's shared operations (R471-R489): headers, pieces, the selector, what is in progress, and the
choice of images at boot. -/
namespace Sys2Proof.Machine

def stImgType : Nat := 0x0C01
def stImgUnit : Nat := 0x0C02
def stImgOther : Nat := 0x0C03
def stImgSig : Nat := 0x0C04
def stImgHash : Nat := 0x0C05
def stImgRollback : Nat := 0x0C06
def stImgGeom : Nat := 0x0C07
def stTrialPending : Nat := 0x0C08
def stNoDownload : Nat := 0x0C09
def stIncomplete : Nat := 0x0C0A
def stNotVerified : Nat := 0x0C0B

/-! ### Flash -/

def Dev.putUpd (s : Dev) (u : Upd) : Dev := { s with upd := u }
def Dev.putFlash (s : Dev) (n : NvUpd) : Dev := { s with nv := { s.nv with upd := n } }

/-- The selector entry of a subsystem; what a bank holds; a rollback floor. -/
def Dev.sel (s : Dev) (b : Nat) : Sel := Tab.get (fun _ => {}) s.nv.upd.sels b
def Dev.bank (s : Dev) (b k : Nat) : BankImg := Tab.get (fun _ => {}) s.nv.upd.banks (2 * b + k)
def Dev.setBank (s : Dev) (b k : Nat) (x : BankImg) : Dev :=
  s.putFlash { s.nv.upd with banks := Tab.set (fun _ => {}) s.nv.upd.banks (2 * b + k) x }
def Dev.floorOf (s : Dev) (b : Nat) : Nat := Tab.get (fun _ => 0) s.nv.upd.floors b

/-- Write a selector record (R474). -/
def Dev.setSel (s : Dev) (b : Nat) (x : Sel) : Dev :=
  let n := s.nv.upd
  s.putFlash { n with seq := (n.seq + 1) % 2 ^ 32, sels := Tab.set (fun _ => {}) n.sels b x }

/-- Bytes of a bank (R472). -/
def bankBytes (b : Nat) : Nat := 1048576 * (match b with | 1 => 16 | 2 => 8 | 3 => 4 | _ => 1)

/-- Is a fused key slot usable: programmed and not revoked? -/
def Dev.keyUsable (s : Dev) (k : Nat) : Bool := decide (k < 4) && bitAt s.fuse.keys k && !bitAt s.fuse.keys (4 + k)

/-! ### Headers -/

/-- Read an image header (R477). -/
def readHdr (b : List Byte) : ImgHdr :=
  { sub := leAt b 5 1, ver := leAt b 28 4, sec := leAt b 32 4, len := leAt b 36 4, psize := leAt b 40 2
    count := leAt b 44 4, hash := slice b 48 32, keySlot := leAt b 112 1, revoke := leAt b 113 1 }

/-- Bytes 0-3 of an image's hash name it on the wire (R481). -/
def ImgHdr.tag (h : ImgHdr) : Nat := leAt h.hash 0 4

/-- Same identity (R477). -/
def ImgHdr.same (a b : ImgHdr) : Bool := a.sub == b.sub && a.ver == b.ver && a.hash == b.hash

/-- Body sectors, pieces of one, and the pieces of sector `n`: the first and how many. -/
def ImgHdr.sectors (h : ImgHdr) : Nat := ceilDiv h.len 65536
def ImgHdr.per (h : ImgHdr) : Nat := 65536 / h.psize
def ImgHdr.piecesOf (h : ImgHdr) (n : Nat) : Nat × Nat := (n * h.per, min h.per (h.count - n * h.per))

/-- Is `PIECE_SIZE` a power of two from 128 to 4,096? -/
def pieceSizeOk (n : Nat) : Bool := [128, 256, 512, 1024, 2048, 4096].contains n

/-- Is a header signed by the key of its slot (R475, R477, R478)? The slot is programmed and not revoked, the digest of `PUBKEY` is the
slot's, and the signature covers bytes 0-447. -/
def Dev.hdrSigned (s : Dev) (b : List Byte) : Bool :=
  let k := leAt b 112 1
  s.keyUsable k && s.fuse.keyHash.getD k [] == sha256 (slice b 80 32) && edVerify (slice b 80 32) (slice b 0 448) (slice b 448 64)

/-- Orders 1 to 7 of R478: the status, and the byte it names where it is a general code. -/
def Dev.hdrBad (s : Dev) (b : List Byte) : Option (Nat × Option Nat) :=
  let h := readHdr b
  let die := (List.range 4).map fun k => leAt b (12 + 4 * k) 4
  let zero : Nat → Bool := fun o => leAt b o 1 == 0
  let res := ([6, 7, 42, 43] ++ (List.range 334).map (114 + ·)).filter fun o => !zero o
  let bad := res ++ (if 1 ≤ h.sub && h.sub ≤ 5 then [] else [5]) ++ (if leAt b 11 1 ≤ 1 then [] else [11])
  if leAt b 0 4 ≠ 0x4854524D || leAt b 4 1 ≠ 1 || leAt b 8 2 ≠ 0x0B70 || leAt b 10 1 ≠ 0xA then some (stImgType, none)
  else if leAt b 11 1 = 1 && die != s.fuse.dieId then some (stImgUnit, none)
  else if !s.hdrSigned b then some (stImgSig, none)
  else if h.sec < s.floorOf h.sub then some (stImgRollback, none)
  else match bad.min? with
    | some o => some (stBadDesc, some (64 + o))
    | none =>
      if h.count = 0 then some (stZero, some (64 + 44))
      else if !pieceSizeOk h.psize || h.count ≠ ceilDiv h.len h.psize || bankBytes h.sub < h.len + 65536 then some (stImgGeom, none)
      else none

/-! ### The download in progress -/

def FlashDl.complete (d : FlashDl) : Bool := (List.range d.hdr.sectors).all fun n => d.sectors.contains n

/-- The body as its bank holds it, `IMAGE_LEN` bytes. -/
def FlashDl.body (d : FlashDl) : List Byte :=
  slice ((List.range d.hdr.count).flatMap fun k => match d.pieces.find? fun p => p.1 == k with
    | some p => slice p.2 0 d.hdr.psize
    | none => List.replicate d.hdr.psize 0xFF) 0 d.hdr.len

/-- Pieces not yet committed. -/
def FlashDl.left (d : FlashDl) : Nat :=
  d.hdr.count - (d.sectors.map fun n => (d.hdr.piecesOf n).2).foldl (· + ·) 0

/-- The download in progress. -/
def Dev.download (s : Dev) : Option FlashDl := if s.upd.ended then none else s.nv.upd.dl
def Dev.setDownload (s : Dev) (d : Option FlashDl) : Dev := s.putFlash { s.nv.upd with dl := d }

/-- What ends with a download: a verification, its pieces in DRAM, its leaves. -/
def Dev.dropDownload (s : Dev) : Dev :=
  let v := s.upd.verify
  let isFlash : Work → Bool := fun w => match w with | .flashSector _ => true | _ => false
  let s := { s with gov := { s.gov with reqs := s.gov.reqs.filter fun r => !isFlash r.work
                                        grants := s.gov.grants.filter fun g => !isFlash g.work } }
  (s.putUpd { s.upd with held := [], running := [], asm_ := [], verify := none }).doneOpt v stNoDownload []

/-- A second flash failure (R480): the download is FAILED. -/
def Dev.failDownload (s : Dev) (h : ImgHdr) (flash : Nat) : Dev :=
  let s := s.dropDownload
  ((s.putUpd { s.upd with failed := some h, ended := true }).raise 0x27).event 0x1405 (leBytes h.sub 1 ++ leBytes flash 1)

/-- The identity that stands in the way, as `IMAGE_OTHER_IN_PROGRESS` reports it (R479). -/
def otherRes (h : ImgHdr) : List Byte := leBytes h.sub 1 ++ [0, 0, 0] ++ leBytes h.ver 4 ++ slice h.hash 0 8

/-- Orders 8 and 9 of R478 on a header: refused, or joining, or new. -/
inductive HdrVerdict where
  | refused (code : Nat) (res : List Byte)
  | joins
  | fresh
deriving DecidableEq, Repr

/-- Judge a header whose own fields are sound (R479). -/
def Dev.hdrVerdict (s : Dev) (h : ImgHdr) (preempt : Bool) : HdrVerdict :=
  let cur := (s.upd.wait.map (·.hdr)).or (s.download.map (·.hdr))
  let idle := s.fld (0x14014, 20, 8)
  let stale := s.upd.wait.isNone && decide (0 < idle) && decide (s.upd.lastPiece + idle * 3600 * cycHz ≤ s.up)
  if (s.sel h.sub).trial then .refused stTrialPending []
  else match cur with
    | none => .fresh
    | some c =>
      if c.same h then .joins
      else if (preempt && c.sub == h.sub && decide (c.ver < h.ver)) || stale then .fresh
      else .refused stImgOther (otherRes c)

/-- Accept a header: it joins, or it waits for leave to be written. A header that waited and is replaced completes as one that
another stands in the way of (DESIGN CHOICE, log entry 39). -/
def Dev.acceptHdr (s : Dev) (h : ImgHdr) (air : Option Nat) (cmd : Option Nat) (v : HdrVerdict) : Dev :=
  match v, s.upd.wait with
  | .joins, some w => s.putUpd { s.upd with wait := some { w with handles := w.handles ++ cmd.toList, air := air.or w.air } }
  | .joins, none =>
    let join : FlashDl → FlashDl := fun d => { d with air := air.or d.air };
    (s.setDownload (s.nv.upd.dl.map join)).doneOpt cmd stOK []
  | _, some w =>
    let s := s.putUpd { s.upd with wait := some { hdr := h, air, handles := cmd.toList, granted := w.granted } }
    w.handles.foldl (fun s x => s.done x stImgOther (otherRes h)) s
  | _, none =>
    (s.putUpd { s.upd with wait := some { hdr := h, air, handles := cmd.toList } }).askLeave 5 250 tickHz
      (ntAdd s.nt ((60 * tickHz : Nat) : Int)) .flashHeader

/-! ### Pieces -/

/-- Ask leave for every body sector whose pieces are all held (R480). -/
def Dev.askSectors (s : Dev) : Dev :=
  match s.download with
  | none => s
  | some d =>
    (List.range d.hdr.sectors).foldl (fun s n =>
      let (f, k) := d.hdr.piecesOf n
      let full := (List.range k).all fun j => s.upd.held.any fun p => p.1 == f + j
      if d.sectors.contains n || !full || s.asksLeave (.flashSector n) || s.upd.running.contains n then s
      else s.askLeave 5 250 tickHz (ntAdd s.nt ((60 * tickHz : Nat) : Int)) (.flashSector n)) s

/-- Results of R482. -/
inductive PieceRes where
  | new_ | dup | bad | stale | conflict
deriving DecidableEq, Repr

/-- Judge one piece (R482), and hold a new one. -/
def Dev.piece (s : Dev) (tag idx crc : Nat) (resOk : Bool) (b : List Byte) : PieceRes × Dev :=
  match s.download with
  | none => (.stale, s)
  | some d =>
    if tag ≠ d.hdr.tag then (.stale, s)
    else if d.hdr.count ≤ idx || !resOk || crc32c b ≠ crc then (.bad, s.cntSat (0x14058, 16, 16))
    else
      let s := s.putUpd { s.upd with lastPiece := s.up }
      match (s.upd.held ++ d.pieces).find? fun p => p.1 == idx with
      | some p => if p.2 == b then (.dup, s) else (.conflict, s.cntSat (0x1405C, 0, 16))
      | none => (.new_, (s.putUpd { s.upd with held := s.upd.held ++ [(idx, b)] }).cntWrap (0x14058, 0, 16))

/-! ### Parts that come by air (R483) -/

/-- Do two parts hold different bytes where they overlap? -/
def partsDiffer (p q : Nat × List Byte) : Bool :=
  let lo := max p.1 q.1
  let hi := min (p.1 + p.2.length) (q.1 + q.2.length)
  decide (lo < hi) && slice (p.2.drop (lo - p.1)) 0 (hi - lo) != slice (q.2.drop (lo - q.1)) 0 (hi - lo)

/-- Insert a part by its offset. -/
def insertPart (p : Nat × List Byte) : List (Nat × List Byte) → List (Nat × List Byte)
  | [] => [p]
  | q :: t => if p.1 ≤ q.1 then p :: q :: t else q :: insertPart p t

/-- The bytes from offset 0 on that a set of parts gives without a gap. -/
def joinParts (l : List (Nat × List Byte)) : List Byte :=
  (l.foldr insertPart []).foldl (fun acc p => if p.1 ≤ acc.length then acc ++ p.2.drop (acc.length - p.1) else acc) []

/-! ### Trials (R487) -/

/-- The selector goes back to the previous bank, and the trial bank is rejected. -/
def Dev.revertSel (s : Dev) (b cause : Nat) : Dev :=
  let x := s.sel b
  let t := s.bank b x.bank
  let s := s.setBank b x.bank { t with rejected := true }
  let s := s.setSel b { bank := 1 - x.bank, rejOther := true, ver := (s.bank b (1 - x.bank)).hdr.ver }
  s.event 0x1403 (leBytes b 1 ++ leBytes cause 1)

/-- The image of a subsystem's selected bank runs; a trial begins to count. -/
def Dev.runImage (s : Dev) (b : Nat) : Dev :=
  let x := s.sel b
  s.putUpd { s.upd with running_ := Tab.set (fun _ => (0, 0)) s.upd.running_ b (x.bank, x.ver)
                        since := Tab.set (fun _ => 0) s.upd.since b s.up }

/-- A revert that waits and can begin now (R487): not during another activation, and for the safety island only in FLEET_STOP. -/
def Dev.tryRevert (s : Dev) : Dev :=
  if s.upd.act.isSome || s.saf.run = .boot || s.saf.run = .off then s
  else match s.upd.due.find? fun b => b != 5 || s.saf.run = .fleetStop with
    | none => s
    | some b =>
      let s := s.putUpd { s.upd with due := s.upd.due.erase b }
      let s := s.revertSel b 2
      s.putUpd { s.upd with act := some { sub := b, handle := none, revert := true, bank := (s.sel b).bank, ver := (s.sel b).ver, at_ := s.nt }
                            armed := some b }

/-! ### Boot (R475, R476) -/

/-- Does the image of a bank verify (R475)? `bad` are images that fail as flash now reads. -/
def Dev.imageOk (s : Dev) (bad : List (Nat × Nat)) (b k : Nat) : Bool :=
  let d := s.nv.upd.dl.filter fun (d : FlashDl) => d.hdr.sub == b && d.bank == k
  let i := s.bank b k
  let h := match d with | some d => d.hdr | none => i.hdr
  let whole := match d with | some d => d.complete && sha256 d.body == d.hdr.hash | none => i.whole
  whole && !bad.contains (b, k) && decide (s.floorOf b ≤ h.sec) && s.keyUsable h.keySlot

/-- A download whose bank has been selected is one no longer: its bank holds a whole image (R489). -/
def Dev.settleDl (s : Dev) : Dev :=
  match s.nv.upd.dl with
  | some d =>
    if (s.sel d.hdr.sub).bank = d.bank then (s.setDownload none).setBank d.hdr.sub d.bank { hdr := d.hdr } else s
  | none => s

/-- The image a subsystem boots: trial boots counted, then the selected image, or the other bank's, or none (boot hold). -/
def Dev.bootImage (bad : List (Nat × Nat)) (s : Dev) (b : Nat) : Dev :=
  let x := s.sel b
  let s := if !x.trial then s else if x.boots = 3 then (s.revertSel b 1).raise 0x26 else s.setSel b { x with boots := x.boots + 1 }
  let x := s.sel b
  let k := 1 - x.bank
  if s.imageOk bad b x.bank then s.runImage b
  else if s.imageOk bad b k && !(s.bank b k).rejected then
    let h := match s.nv.upd.dl.filter fun (d : FlashDl) => d.hdr.sub == b && d.bank == k with
      | some d => d.hdr
      | none => (s.bank b k).hdr
    let s := s.setSel b { bank := k, rejOther := (s.bank b x.bank).rejected, ver := h.ver }
    ((s.raise 0x26).event 0x1403 (leBytes b 1 ++ [3])).settleDl.runImage b
  else s.putUpd { s.upd with hold := true }

/-- The ROM's work (R475, R476, R489): subsystem 5 first, then 4, 3, 1 and 2. A download whose header passes R478 goes on. -/
def Dev.bootImages (s : Dev) (bad : List (Nat × Nat)) : Dev :=
  let s := (s.putUpd { s.upd with hold := false, bad }).settleDl
  let s := [5, 4, 3, 1, 2].foldl (Dev.bootImage bad) s
  let keep := match s.nv.upd.dl with
    | some d => decide (s.floorOf d.hdr.sub ≤ d.hdr.sec) && s.keyUsable d.hdr.keySlot && !(s.sel d.hdr.sub).trial
    | none => true
  let s := if keep then s else s.putUpd { s.upd with ended := true }
  s.putUpd { s.upd with lastPiece := s.up, needAt := s.up }

end Sys2Proof.Machine
end

