-- ==== Sys2Proof/Machine/Leave.lean ====
section
/-! DEFINITION. The rows of the leave governor (R402-R408): what a grant starts, what ends without leave, and the power
monitors. -/
namespace Sys2Proof.Machine

/-- A holder begins its heavy work (R403). -/
def Dev.startWork (s : Dev) (w : Work) : Dev :=
  match w with
  | .snpBatch id => s.runBatch id
  | .replan => { s with trl := { s.trl with replanGranted := true } }
  | .graphLoad => { s with trl := { s.trl with load := s.trl.load.map fun (l : GraphLoad) => { l with granted := true } } }
  | .largeSearch i =>
    let x := s.frkSlot i
    if x.search = .asked then (s.setFrkSlot i { x with search := .granted }).startSearches else s.returnLeave w
  | .scrub => { s with mem := { s.mem with scrub := true, scrubWait := false } }
  | .migrate _ => s
  | .flashHeader => s.putUpd { s.upd with wait := s.upd.wait.map fun (x : HdrWait) => { x with granted := true } }
  | .flashSector n => s.putUpd { s.upd with running := s.upd.running ++ [n] }
  | .diarySnapshot => { s with dry := { s.dry with snapRun := true } }
  | .persistCapture k =>
    let mark : Nat → Capture → Capture := fun i c => if i = k then { c with writing := true } else c
    { s with dry := { s.dry with caps := s.dry.caps.map fun p => (p.1, mark p.1 p.2) } }
  | .bulkCopy => { s with par := { s.par with bulk := 2 } }
  | .calib g => s.startCalib g

/-- GOVERNOR_DECISION (R402, R404, R407): the power read, the queue scanned, the granted work begun. -/
def execGovernorDecision (dt pmeas : Nat) (s : State) : Host.Outcome State Fault Refusal := s.act fun s =>
  let s := (s.tick dt).readPower pmeas
  let (s, ws) := Dev.govScan s.leaveOrder s
  ws.foldl (fun s w => s.startWork w) s

/-- What a full re-plan without leave leaves (R201): the failure counted, source 0x64, and every robot with a route re-planned
in its turn. -/
def Dev.replanDeferred (s : Dev) : Dev :=
  let f : Nat → TrlRobot → TrlRobot := fun _ r => { r with replan := r.replan || r.route.isSome }
  let s := { s with trl := { s.trl with replanAsked := false, robots := Tab.mapListed (fun _ => {}) f s.trl.robots } }
  (s.cntSat (0x8044, 24, 8)).raise 0x64

/-- A work ends `NO_LEAVE`, or is asked for again where its chapter retries it (R404). -/
def Dev.noLeave (s : Dev) (w : Work) : Dev :=
  match w with
  | .snpBatch id => s.batchNoLeave id
  | .replan => s.replanDeferred
  | .graphLoad =>
    match s.trl.load with
    | some l => ({ s with trl := { s.trl with load := none } }).done l.handle stNoLeave []
    | none => s
  | .largeSearch i =>
    (s.setFrkSlot i { s.frkSlot i with search := .none_, hunt := none, noLeaveAt := some s.nt }).cntSat (0x7064, 16, 16)
  | .scrub => { s with mem := { s.mem with scrubWait := false } }
  | .migrate r => s.setRank r { s.rank r with migrating := false, cause := 0 }
  | .flashHeader =>
    match s.upd.wait with
    | some x => x.handles.foldl (fun s h => s.done h stNoLeave []) (s.putUpd { s.upd with wait := none })
    | none => s
  | .flashSector _ => s.askSectors
  | .diarySnapshot => s.askDiary .diarySnapshot
  | .persistCapture k => s.askDiary (.persistCapture k)
  | .bulkCopy => s.askBulk
  | .calib _ => s.endCalib.calSkip

/-- LEAVE_DEADLINE (R404): every request that stands at the earliest deadline is withdrawn. -/
def execLeaveDeadline (s : State) : Host.Outcome State Fault Refusal := s.act fun s =>
  match s.gov.reqs with
  | [] => s.begin
  | r :: t =>
    let d := t.foldl (fun (d : NT) (x : LeaveReq) => if ntAfter d x.dead then x.dead else d) r.dead
    let s := s.tickTo d
    let out := s.gov.reqs.filter fun (x : LeaveReq) => ntReached s.nt x.dead
    let s := { s with gov := { s.gov with reqs := s.gov.reqs.filter fun (x : LeaveReq) => !ntReached s.nt x.dead } }
    out.foldl (fun s (x : LeaveReq) => (s.cntSat (0x10020, 16, 16)).noLeave x.work) s

/-- LEAVE_DURATION_END (R405): a grant not returned in its time is freed, counted, and raises 0x11. Its work goes on. -/
def execLeaveDurationEnd (s : State) : Host.Outcome State Fault Refusal := s.act fun s =>
  match s.gov.grants with
  | [] => s.begin
  | g :: t =>
    let d := t.foldl (fun (d : NT) (x : Grant) => if ntAfter d x.until_ then x.until_ else d) g.until_
    let s := s.tickTo d
    let k := (s.gov.grants.filter fun (x : Grant) => ntReached s.nt x.until_).length
    let s := { s with gov := { s.gov with grants := s.gov.grants.filter fun (x : Grant) => !ntReached s.nt x.until_ } };
    (List.range k).foldl (fun s _ => (s.cntSat (0x10024, 0, 16)).raise 0x11) s

/-- GOV_OVER_BUDGET (R408): 1.05 times `P_meas` has exceeded the budget for 100 ms. -/
def execGovOverBudget (dt pmeas : Nat) (s : State) : Host.Outcome State Fault Refusal := s.act fun s =>
  let s := (s.tick dt).readPower pmeas
  if s.gov.overBudget || (match s.gov.overSince with | some t => decide (s.up < t + 100 * cycMs) | none => true) then s
  else (({ s with gov := { s.gov with overBudget := true } }).raiseLevel 0x10).event 0x1001 (leBytes pmeas 4)

/-- MONITOR_SELF_CHECK_FAIL (R408): its group counts at its maximum rating, which `pmeas` holds. -/
def execMonitorSelfCheckFail (dt grp pmeas : Nat) (s : State) : Host.Outcome State Fault Refusal := s.act fun s =>
  let s := s.tick dt
  if 8 ≤ grp then s
  else
    let l := s.gov.failed
    let s := { s with gov := { s.gov with failed := if l.contains grp then l else l ++ [grp] } };
    (s.readPower pmeas).raise 0x12

/-- MONITOR_RECALIBRATION (R408, R510): as a failed monitor for its 2 s, without a source. -/
def execMonitorRecalibration (dt grp pmeas : Nat) (s : State) : Host.Outcome State Fault Refusal := s.act fun s =>
  let s := s.tick dt
  if 8 ≤ grp then s
  else ({ s with gov := { s.gov with recal := some (grp, s.up + 2 * cycHz) } }).readPower pmeas

/-- LEAVE_POLICY (R406), in every run state: cap and priority of a class, from the next decision on. -/
def execLeavePolicy (h : Nat) (s : State) : Host.Outcome State Fault Refusal := s.act fun s =>
  s.command h 0x88 fun l s =>
    let c := l.p 4 1
    ((s.setFld (fCap c) (l.p 0 4)).setFld (fPrio c) (l.p 5 1)).done h stOK []

end Sys2Proof.Machine
end

