-- ==== Sys2Proof/Machine/MacRows.lean ====
section
/-! DEFINITION. The rows of the radio MAC (R313-R346) but for the beacon. -/
namespace Sys2Proof.Machine

/-! ### On air -/

/-- ALL_STOP_REPEAT (R327): the next repeat due, on every lane whose turn it is. A repeat gives way to the beacon of slot 0. -/
def execAllStopRepeat (s : State) : Host.Outcome State Fault Refusal := s.act fun s =>
  match s.saf.burst with
  | none => s.begin
  | some b =>
    match (b.lanes.map (·.2.1)).min? with
    | none => { s.begin with saf := { s.saf with burst := none } }
    | some k =>
      let s := s.tickTo (BitVec.ofNat 64 (slotStart k + usTicks 40))
      let due := b.lanes.filter fun x => x.2.1 = k && (s.lane x.1).st = .inService && s.holdsToken
      let s := due.foldl (fun s x =>
        let s := s.setLane x.1 { s.lane x.1 with lastSlot := k }
        (s.launch x.1 (s.launchAt x.1 k) (stopFrame x.2.2 b.cause b.at_)).emit (.allStop x.1 b.cause x.2.2)) s
      let next := if (k + 1) % 50 = 0 then k + 2 else k + 1
      let lanes := b.lanes.filterMap fun x =>
        if x.2.1 ≠ k then some x else if x.2.2 = 3 then none else some (x.1, next, x.2.2 + 1);
      { s with saf := { s.saf with burst := if lanes.isEmpty then none else some { b with lanes } } }

/-- Three transmissions without an SFD edge fail a lane (R316). -/
def Dev.checkSfd (s : Dev) (n : Nat) : Dev := if 3 ≤ (s.lane n).noSfd then s.failLane n else s

/-- FRAME_TRANSMIT (R315-R318, R323, R330, R334, R337). `sfd` is the `LNn_SFD` edge, `acked` the acknowledgement. -/
def execFrameTransmit (lane : Nat) (sfd acked : Bool) (s : State) : Host.Outcome State Fault Refusal := s.act fun s =>
  if (s.lane lane).st != .inService || !s.beaconing || !s.holdsToken then s.begin
  else
    let s := s.begin.dropLate lane
    match s.nextSend lane with
    | none => s
    | some (k, f) =>
      let s := { s with clk := s.clk.run (s.clk.cyclesTo (s.launchAt lane k)) }
      let f := if f.type_ = 5 then { f with body := s.batchBody f k } else f
      let s := s.launch lane (s.launchAt lane k) f
      let l := s.lane lane
      let s := s.setLane lane { l with lastSlot := s.lastOf lane k, noSfd := if sfd then 0 else l.noSfd + 1 }
      let s := if sfd then s.emit (.frame lane f.type_ f.dst f.body) else s.cntSat (0xD118 + 0x40 * lane, 16, 16)
      let s := s.afterSend f (sfd && acked)
      s.checkSfd lane

/-- FRAME_RECEIVE (R64, R316, R338): a PSDU of `len` octets is read `age` ticks after its `LNn_SFD` edge, which comes `T_SFD_RX` after the
end of the SFD (R313). -/
def execFrameReceive (dt lane len age : Nat) (psdu : List Byte) (s : State) : Host.Outcome State Fault Refusal := s.act fun s =>
  let s := s.tick dt
  let l := s.lane lane
  if l.st != .inService || s.saf.run = .boot || s.saf.run = .off then s
  else
    let s := (s.radio lane (s.template 1)).radio lane (s.template 3)
    if len < 4 || 511 < len then
      let s := s.setLane lane { l with badRd := l.badRd + 1 };
      (if l.badRd = 2 then s.failLane lane else s)
    else
      let s := (s.setLane lane { l with badRd := 0 }).cntWrap (0xD114 + 0x40 * lane, 0, 16)
      let f := slice psdu 0 len
      let sfd := ntAdd s.nt (-(age : Int) - nsTicks (s.fld (lnTSfd lane)))
      if fcs32 (f.take (len - 4)) ≠ leAt f (len - 4) 4 then s.cntSat (0xD114 + 0x40 * lane, 16, 16)
      else if !frameOk len f then s.cntSat (0xD030, 16, 16)
      else (s.sendAck lane sfd f).judgeFrame lane sfd f

/-- DATA_FRAME (R383): a record of the circular host buffer. -/
def execDataFrame (dt : Nat) (s : State) : Host.Outcome State Fault Refusal := s.act fun s =>
  let s := s.tick dt
  match s.takeItem (fun x => x.q = 28 && frType x.frame = 12) with
  | none => s
  | some (x, s) =>
    if !s.flag (0x2038, 31, 1) then s.cntSat (0x2048, 16, 16)
    else
      let wr := (s.reg 0x203C).toNat
      let full := decide (2 ^ s.fld (0x2038, 0, 4) ≤ (wr + 2 ^ 32 - (s.reg 0x2040).toNat) % 2 ^ 32)
      let s := if full then s.cntSat (0x2048, 0, 16) else s
      let rec_ := leBytes (frSrc x.frame) 2 ++ leBytes (frLen x.frame) 2 ++ leBytes (b2n x.dup) 1 ++ leBytes x.lane 1 ++
        leBytes 0 2 ++ leBytes x.sfd.toNat 8 ++ leBytes 0 16 ++ slice (x.frame.drop 22) 0 (frLen x.frame)
      let base := (s.reg 0x2030).toNat + 4294967296 * (s.reg 0x2034).toNat
      let s := s.emit (.stream 0 (base + 384 * (wr % 2 ^ s.fld (0x2038, 0, 4))) (slice rec_ 0 384));
      (s.setReg 0x203C (BitVec.ofNat 32 (wr + 1))).sendMsix (s.fld (0x2038, 8, 6))

/-- KEY_WRITE (R323): a word of a key, while its entry is not `VALID`. -/
def execKeyWrite (dt k w : Nat) (v : Reg) (s : State) : Host.Outcome State Fault Refusal := s.act fun s =>
  let s := s.tick dt
  if 16 ≤ k || 4 ≤ w || s.keyValid k then s
  else { s with mac := { s.mac with keys := Tab.set (fun _ => 0) s.mac.keys (4 * k + w) v } }

/-! ### Sends of the host -/

/-- MAC_FRAME_SEND (R344). -/
def execMacFrameSend (h : Nat) (data : Option (List Byte)) (s : State) : Host.Outcome State Fault Refusal := s.act fun s =>
  s.command h 0x70 fun cmd s =>
    let dead := cmd.p 0 4; let dest := cmd.p 4 2; let ty := cmd.p 6 1
    let robot := s.robotOf dest
    match firstBad (sendEnc s.nSlots cmd.p) with
    | some o => s.refuse h stBadDesc (some o)
    | none =>
      let until_ := ntAdd s.nt (msTicks dead : Nat)
      let epoch := match robot with | some i => (s.lease i).epoch | none => 0
      let key := match robot with | some i => (s.lease i).keyIdx | none => 0
      let open_ : Dev → Dev := fun s => { s with mac := { s.mac with sends := s.mac.sends ++ [(h, until_)] } }
      if ty = 1 then
        let f : TxFrame := { type_ := 1, dst := dest, epoch, body := stopBody false 0 9 s.nt, lane := 0, key, pslot := true
                             handle := some h, from_ := s.nt, until_ := some until_ }
        match s.routeTo dest with
        | some r => (open_ s).queueFrame { f with lane := r.lane }
        | none => s.done h 0x0803 []
      else if 352 < cmd.len then s.refuse h stBadLen (some 16)
      else
        match data with
        | none => s.refuse h stDma none
        | some b =>
          if !s.beaconing then s.refuse h stBusy none
          else
            let f : TxFrame := { type_ := 12, dst := dest, epoch, body := slice b 0 cmd.len, lane := 0, key
                                 handle := some h, prio := 5, until_ := some until_ }
            if dest = 0xFFFF then (open_ s).queueAll { f with key := 0 }
            else
              match s.routeTo dest with
              | some _ => (open_ s).queueTo dest f
              | none => s.done h 0x0803 []

/-- MAC_SEND_DEADLINE (R344). -/
def execMacSendDeadline (h : Nat) (s : State) : Host.Outcome State Fault Refusal := s.act fun s =>
  match s.mac.sends.find? fun x => x.1 == h with
  | none => s.begin
  | some (_, t) =>
    let tries := ((s.mac.txq.filter fun f => f.handle == some h).map (·.tries)).foldl max 0;
    (s.tickTo t).sendDone h 0x0804 tries

/-! ### Routes (R332, R333, R340) -/

/-- A `CONFIG` frame to a node (R331): its route entry, all zero where it is deleted. -/
def Dev.sendConfig (s : Dev) (c : RouteChange) (dest : Nat) : Dev :=
  let (uid, epoch, key) := match s.robotOf dest with
    | some i => ((s.lease i).uid, (s.lease i).epoch, (s.lease i).keyIdx)
    | none => (0, 0, 0)
  let route := match c.sets.find? fun r => r.dest == dest with | some r => r.bytes | none => leBytes 0 32
  let body := leBytes (1 + 64) 1 ++ [0] ++ leBytes uid 8 ++ leBytes c.cfgVer 2 ++
    leBytes (slotframeOf c.applyAt.toNat % 2 ^ 32) 4 ++ route
  s.queueTo dest { type_ := 9, dst := dest, epoch, body, lane := 0, key, pslot := true, prio := 2, until_ := some c.applyAt }

/-- Nodes that a change must reach: relays, and robots that hold a lease. -/
def Dev.mustConfirm (s : Dev) (dest : Nat) : Bool :=
  match s.robotOf dest with
  | some i => let st := (s.lease i).st; st = .admitting || st = .active || st = .suspect
  | none => 0x2000 ≤ dest && dest ≤ 0x20FF

/-- Begin a route change: `APPLY_SF` is the first slotframe boundary at least 1 s on. -/
def Dev.beginChange (s : Dev) (h : Nat) (sets : List RouteEnt) (dels : List Nat) (retire : Option (Nat × Bool)) : Dev :=
  let ver := (s.txu.lastCfg + 1) % 65536
  let s := { s with txu := { s.txu with lastCfg := ver } }
  let nodes := ((sets.map (·.dest)) ++ dels).eraseDups.filter fun d => s.mustConfirm d
  let c : RouteChange := { handle := h, sets, dels, applyAt := slotframeAtOrAfter (ntAdd s.nt tickHz), cfgVer := ver
                           waiting := nodes, retire }
  let s := { s with mac := { s.mac with changes := s.mac.changes ++ [c] } }
  nodes.foldl (fun s d => s.sendConfig c d) s

/-- The entries of a buffer; `none` where one breaks R332 or R336. -/
def Dev.parseRoutes (s : Dev) (b : List Byte) (n : Nat) : Option (List RouteEnt) :=
  (List.range n).mapM fun k => (s.parseRoute (slice b (32 * k) 32)).bind fun r => if s.sleepyOk r then some r else none

/-- Do the routes leave every lane they use within R320, and name lanes in service only? -/
def Dev.routesOk (s : Dev) (old sets : List RouteEnt) (dels : List Nat) : Bool :=
  let new := setRoutes old sets dels
  sets.all (fun r => (s.lane r.lane).st = .inService) && (List.range s.nLanes).all fun n => !s.routesBreak new n

/-- MAC_ROUTE_SET (R333). -/
def execMacRouteSet (h : Nat) (data : Option (List Byte)) (werr : Bool) (s : State) : Host.Outcome State Fault Refusal := s.act fun s =>
  s.command h 0x71 fun cmd s =>
    let op := cmd.p 0 1; let n := cmd.p 2 2
    match firstBad (routeEnc cmd.p) with
    | some o => s.refuse h stBadDesc (some o)
    | none =>
      if cmd.len ≠ 32 * n then s.refuse h stBadLen (some 16)
      else
        match data with
        | none => s.refuse h stDma none
        | some b =>
          let dests := (List.range n).map fun k => leAt b (32 * k) 2
          if op = 3 then
            match dests.mapM fun d => s.routeTo d with
            | none => s.done h 0x0803 []
            | some rs =>
              if werr then s.refuse h stDma none
              else (s.emit (.host h 0 0 (rs.flatMap RouteEnt.bytes))).done h stOK []
          else if op = 2 then
            if !(dests.all fun d => (s.routeTo d).isSome) then s.done h 0x0803 []
            else if !s.routesOk s.mac.routes [] dests then s.done h 0x0802 []
            else s.beginChange h [] dests none
          else
            match s.parseRoutes b n with
            | none => s.done h 0x0802 []
            | some rs => if s.routesOk s.mac.routes rs [] then s.beginChange h rs [] none else s.done h 0x0802 []

/-- The list of nodes unconfirmed (R381). -/
def unconfirmedRes (l : List Nat) : List Byte := leBytes l.length 2 ++ (l.take 6).flatMap fun a => leBytes a 2

/-- Switch to the routes of a change (R333): its repeats end, and the robots' configuration is the new one. -/
def Dev.switchRoutes (s : Dev) (c : RouteChange) : Dev :=
  let s := { s with mac := { s.mac with
    routes := setRoutes s.mac.routes c.sets c.dels
    changes := mapWhere (fun (x : RouteChange) => x.handle == c.handle) (fun (x : RouteChange) => { x with applied := true }) s.mac.changes
    txq := s.mac.txq.filter fun f => !(isConfig f && leAt f.body 10 2 == c.cfgVer) } }
  c.sets.foldl (fun s r => match s.robotOf r.dest with
    | some i => s.setLease i { s.lease i with cfgVer := c.cfgVer }
    | none => s) s

/-- ROUTE_APPLY (R333, R342): the earliest change still to apply. A retire's command waits for the lane. -/
def execRouteApply (s : State) : Host.Outcome State Fault Refusal := s.act fun s =>
  let pend := s.mac.changes.filter fun c => !c.applied
  match pend with
  | [] => s.begin
  | c0 :: t =>
    let c := t.foldl (fun a b => if ntAfter a.applyAt b.applyAt then b else a) c0
    let s := (s.tickTo c.applyAt).switchRoutes c
    if c.retire.isSome then s
    else
      let s := { s with mac := { s.mac with changes := s.mac.changes.filter fun x => x.handle != c.handle } }
      s.done c.handle stOK (unconfirmedRes c.waiting)

/-- Nodes of a retire that still keep the lane: those that have not confirmed and hold a lease, or are relays (R340). -/
def Dev.keepLane (s : Dev) (c : RouteChange) : List Nat := c.waiting.filter fun d => s.mustConfirm d

/-- LANE_RETIRE_COMPLETE (R340, R356). -/
def execLaneRetireComplete (s : State) : Host.Outcome State Fault Refusal := s.act fun s =>
  let s := s.begin
  let due : RouteChange → Bool := fun c => match c.retire with
    | some (_, force) => c.applied && (force || (s.keepLane c).isEmpty)
    | none => false
  match s.mac.changes.find? due with
  | some c =>
    let n := (c.retire.map (·.1)).getD 0
    let force := (c.retire.map (·.2)).getD false
    let left := s.keepLane c
    let s := { s with mac := { s.mac with changes := s.mac.changes.filter fun x => x.handle != c.handle } }
    let s := (s.setLane n { s.lane n with st := .retired, moving := false, noSfd := 0, badRd := 0 }).dropLane n
    let s := if force && !left.isEmpty then s.raise 0x87 else s
    s.done c.handle stOK (unconfirmedRes left)
  | none => s

/-- MAC_LANE_RETIRE (R340). -/
def execMacLaneRetire (h : Nat) (data : Option (List Byte)) (s : State) : Host.Outcome State Fault Refusal := s.act fun s =>
  s.command h 0x72 fun cmd s =>
    let n := cmd.p 0 1; let op := cmd.p 1 1; let force := cmd.p 2 1; let ne := cmd.p 4 2
    match firstBad (retireEnc cmd.p) with
    | some o => s.refuse h stBadDesc (some o)
    | none =>
      let l := s.lane n
      if op = 2 then
        if l.st != .retired && l.st != .failed then s.done h 0x0801 []
        else
          (s.laneUp n).done h stOK []
      else
        let users := (s.mac.routes.filter fun r => r.lane == n).map (·.dest)
        if cmd.len ≠ 32 * ne then s.refuse h stBadLen (some 16)
        else if l.st != .inService || l.moving then s.done h 0x0801 []
        else if ne = 0 && !users.isEmpty then s.refuse h stZero (some 28)
        else
          match (if ne = 0 then some [] else data) with
          | none => s.refuse h stDma none
          | some b =>
            match s.parseRoutes b ne with
            | none => s.done h 0x0802 []
            | some rs =>
              if rs.any (fun r => r.lane == n) || !(users.all fun d => rs.any fun r => r.dest == d) ||
                  !s.routesOk s.mac.routes rs [] then s.done h 0x0802 []
              else (s.setLane n { l with moving := true }).beginChange h rs [] (some (n, force == 1))

end Sys2Proof.Machine
end

