-- ==== Sys2Proof/Machine/Tasks.lean ====
section
/-! DEFINITION. Tasks (R208-R219): their definition, pins, forbids and priorities, the allotment round, withdrawal and
read-out; and grafts (R242-R244). -/
namespace Sys2Proof.Machine

/-! ### Reading a `TASK_ALLOT` buffer (R209, R215, R216) -/

/-- Why a buffer is refused: the status, and the offset of the field. -/
abbrev Bad := Nat × Option Nat

/-- A `BAD_DESCRIPTOR` at a byte of the data. -/
def badAt (o : Nat) : Bad := (stBadDesc, some (64 + o))

/-- Offsets of `n` definitions from `o` on, and the offset after them. -/
def defOffs (b : List Byte) : Nat → Nat → List Nat × Nat
  | 0, o => ([], o)
  | n + 1, o =>
    let (l, e) := defOffs b n (o + 64 + 4 * leAt b (o + 6) 2 + 16 * leAt b (o + 8) 1)
    (o :: l, e)

/-- Route entries and spans of a definition. -/
def readHops (b : List Byte) (o n : Nat) : List (Nat × Bool) :=
  (List.range n).map fun k => let w := leAt b (o + 4 * k) 4; (bits w 0 20, bitAt w 20)
def readSpans (b : List Byte) (o n : Nat) : List Span :=
  (List.range n).map fun k =>
    let p := o + 16 * k
    { lo := leAt b p 4, hi := leAt b (p + 4) 4, code := leAt b (p + 8) 2, vWork := leAt b (p + 10) 2 }

/-- Do consecutive hops meet, and does each obey its segment's `DIR` (R210)? -/
def Graph.hopsOk (g : Graph) : Option Nat → List (Nat × Bool) → Bool
  | _, [] => true
  | at_, h :: t =>
    match g.seg? h.1 with
    | none => false
    | some x => dirAllows x.dir h.2 && (match at_ with | some n => n == x.from_ h.2 | none => true) &&
        Graph.hopsOk g (some (x.to_ h.2)) t

/-- Are spans in ascending order, apart, and within a length (R210)? -/
def spansOk (len : Nat) : Nat → List Span → Bool
  | _, [] => true
  | lo, x :: t => decide (lo ≤ x.lo) && decide (x.lo ≤ x.hi) && decide (x.hi ≤ len) && spansOk len x.hi t

/-- A definition at `o`: what refuses it, or its task. A redefined task keeps its version, and its pin and forbids unless it was
over (R211, R216). -/
def Dev.readDef (s : Dev) (b : List Byte) (o : Nat) (old : Nat → Task) : Except Bad (Nat × Task) :=
  let w (i n : Nat) : Nat := leAt b (o + i) n
  let nseg := w 6 2
  let nspan := w 8 1
  let hops := readHops b (o + 64) nseg
  let so := o + 64 + 4 * nseg
  let spans := readSpans b so nspan
  let enc := firstBad [(decide (w 0 2 < 16384), 1), (decide (w 2 1 < 16), 2), (w 3 1 == 0, 3), (w 4 2 != 0, 4),
    (decide (nseg ≤ 1024), 6), (decide (nspan ≤ 16), 8), (w 9 1 == 0, 9), (decide (1 ≤ w 10 2 ∧ w 10 2 ≤ 10000), 10),
    (decide (1 ≤ w 12 2 ∧ w 12 2 ≤ 20000), 12), (w 14 2 != 0, 14), (zeros b (o + 24) 40, 24)]
  let hopBad := (List.range nseg).find? fun k => 2 ^ 21 ≤ w (64 + 4 * k) 4
  let spanBad := (List.range nspan).find? fun k =>
    let v := leAt b (so + 16 * k + 10) 2
    v == 0 || decide (10000 < v) || !zeros b (so + 16 * k + 12) 4
  match enc, hopBad, spanBad with
  | some x, _, _ => .error (badAt (o + x))
  | none, some k, _ => .error (badAt (o + 64 + 4 * k))
  | none, none, some k => .error (badAt (so + 16 * k + 10))
  | none, none, none =>
    if nseg = 0 then .error (stZero, some (64 + o + 6))
    else if nspan = 0 then .error (stZero, some (64 + o + 8))
    else
      let k := old (w 0 2)
      if k.st = .pending ∨ k.st = .held ∨ k.st = .orphaned then .error (stTaskState, none)
      else match s.trl.graph with
      | none => .error (0x0401, none)
      | some g =>
        let len := 10 * g.hopsLen hops
        if !g.hopsOk none hops || !spansOk len 0 spans || decide (len < w 16 4) then .error (stRouteBad, none)
        else
          let live : Bool := k.st = .open_
          .ok (w 0 2, { st := .open_, prio := w 2 1, mask := w 4 2, hops, spans, v := w 10 2, a := w 12 2, j := w 14 2,
                        start := w 16 4, ref := w 20 4, tver := k.tver, pin := if live then k.pin else none,
                        forbid := if live then k.forbid else [] })

/-- The definitions of a buffer, in order. -/
def Dev.readDefs (s : Dev) (b : List Byte) : List Nat → (Nat → Task) → Except Bad (List (Nat × Task))
  | [], _ => .ok []
  | o :: t, old =>
    match s.readDef b o old with
    | .error e => .error e
    | .ok p =>
      match Dev.readDefs s b t fun i => if i = p.1 then p.2 else old i with
      | .error e => .error e
      | .ok l => .ok (p :: l)

/-- A pin, forbid or priority record (R216): its section (1, 2, 3), task, slot, priority and `CLEAR`. -/
structure TaskRec where
  sec : Nat
  task : Nat
  slot : Nat
  prio : Nat
  clear : Bool
deriving DecidableEq, Repr

/-- `n` records of a section from `o` on. -/
def readRecs (b : List Byte) (sec o n : Nat) : List (Nat × TaskRec) :=
  (List.range n).map fun k =>
    let w := leAt b (o + 4 * k) 4
    (o + 4 * k, { sec, task := bits w 0 16, slot := bits w 16 8, prio := bits w 24 7, clear := bitAt w 31 })

/-- What refuses a record. -/
def Dev.recBad (s : Dev) (known : Nat → Bool) (p : Nat × TaskRec) : Option Bad :=
  if 16384 ≤ p.2.task then some (badAt (p.1 + 1))
  else if p.2.sec < 3 && decide (s.nSlots ≤ p.2.slot) then some (badAt (p.1 + 2))
  else if 15 < p.2.prio then some (badAt (p.1 + 3))
  else if !known p.2.task then some (stTaskUnknown, none)
  else none

/-- A record takes effect (R216). -/
def TaskRec.apply (r : TaskRec) (k : Task) : Task :=
  match r.sec with
  | 1 => { k with pin := if r.clear then none else some r.slot }
  | 2 => { k with forbid := if r.clear then k.forbid.filter (· != r.slot) else if k.forbid.contains r.slot then k.forbid else k.forbid ++ [r.slot] }
  | _ => { k with prio := r.prio }

/-- A whole buffer judged (R215): its definitions and its records. -/
def Dev.readAllot (s : Dev) (b : List Byte) : Except Bad (List (Nat × Task) × List TaskRec) :=
  let sec := leAt b 0 1
  let n (k : Nat) : Nat := leAt b (2 + 2 * k) 2
  let offs := defOffs b (n 0) 16
  let on (k : Nat) : Bool := bitAt sec k
  let top : Nat → Nat := fun k => [16384, 1024, 4096, 16384].getD k 0
  if sec = 0 || bits sec 4 3 != 0 then .error (badAt 0)
  else if leAt b 1 1 ≠ 0 then .error (badAt 1)
  else if !zeros b 10 6 then .error (badAt 10)
  else if b.length ≠ offs.2 + 4 * (n 1 + n 2 + n 3) then .error (stBadLen, some 16)
  else match (List.range 4).find? fun k => (on k && decide (top k < n k)) || (!on k && n k != 0) with
  | some k => .error (badAt (2 + 2 * k))
  | none =>
    match (List.range 4).find? fun k => on k && n k == 0 with
    | some k => .error (stZero, some (64 + 2 + 2 * k))
    | none =>
      match s.readDefs b offs.1 s.task with
      | .error e => .error e
      | .ok defs =>
        let recs := readRecs b 1 offs.2 (n 1) ++ readRecs b 2 (offs.2 + 4 * n 1) (n 2) ++
          readRecs b 3 (offs.2 + 4 * (n 1 + n 2)) (n 3)
        let known : Nat → Bool := fun k => (s.task k).st != .empty || defs.any fun d => d.1 == k
        match recs.findSome? (s.recBad known) with
        | some e => .error e
        | none => .ok (defs, recs.map (·.2))

/-! ### The allotment round (R217, R218) -/

/-- Does a robot take part in a round? -/
def Dev.inRound (s : Dev) (i : Nat) : Bool :=
  let l := s.lease i
  let x := s.rob i
  let moving := s.txu.tasks.any fun p => p.2.st = .pending && p.2.was = .held && p.2.holder == some i
  l.st = .active && (s.rover i).rx != 2 && (s.taskOf i).isNone && !moving && !s.pendingHolder i && !x.clashed && !x.offRoute && !l.unsynced

/-- The tasks of a round, by descending priority and ascending id; at most 1,024. -/
def Dev.roundTasks (s : Dev) : List (Nat × Task) :=
  let pool := s.txu.tasks.filter fun p => p.2.st = .open_ || (p.2.st = .orphaned && s.flag (0x9028, 9, 1))
  ((List.range 16).reverse.flatMap fun n => pool.filter fun p => p.2.prio == n).take 1024

/-- The finite pairs of least cost first by task and slot. -/
def bestPair : List (Nat × Nat × Nat) → Option (Nat × Nat × Nat)
  | [] => none
  | x :: t => match bestPair t with
    | some y => some (if y.2.2 < x.2.2 then y else x)
    | none => some x

/-- The greedy part within one priority (R217 item 2). -/
def greedy (prio : Nat) : Nat → List (Nat × Nat × Nat) → List Assign
  | 0, _ => []
  | n + 1, cs =>
    match bestPair cs with
    | none => []
    | some (k, r, c) => { task := k, slot := r, cost := c, prio } :: greedy prio n (cs.filter fun x => x.1 != k && x.2.1 != r)

/-- The pins (R217 item 1). -/
def takePins (costs : List (Nat × Nat × Nat)) : List (Nat × Task) → List Assign → List Assign
  | [], as => as
  | p :: t, as =>
    match p.2.pin.bind fun r => if as.any (fun (a : Assign) => a.slot == r) then none else costs.find? fun c => c.1 == p.1 && c.2.1 == r with
    | some c => takePins costs t (as ++ [{ task := p.1, slot := c.2.1, cost := c.2.2, prio := p.2.prio, pinned := true }])
    | none => takePins costs t as

/-- A round's costs and its assignments before the swaps. A task whose pin waits goes to no other robot (DEDUCED, log entry 30). -/
def Dev.startRound (s : Dev) (handles : List Nat) (auto : Bool) : Round :=
  let ts := s.roundTasks
  let rs := (List.range s.nSlots).filter s.inRound
  let costs := ts.flatMap fun p => rs.filterMap fun r =>
    let c := s.pairCost r p.1
    if c < 65535 then some (p.1, r, c) else none
  let pins := takePins costs ts []
  let free := ts.filter fun p => p.2.pin.isNone
  let pairs := (List.range 16).reverse.foldl (fun as n =>
    let cs := costs.filter fun c => (free.any fun p => p.1 == c.1 && p.2.prio == n) && !(as.any fun (a : Assign) => a.slot == c.2.1)
    as ++ greedy n free.length cs) pins
  { handles, auto, startAt := s.nt, costs, pairs }

/-- Cost of a pair in a table. -/
def costIn (costs : List (Nat × Nat × Nat)) (k r : Nat) : Nat :=
  match costs.find? fun c => c.1 == k && c.2.1 == r with | some c => c.2.2 | none => 65535

/-- Two assignments exchange their robots where that lowers the summed cost (R217 item 3). -/
def trySwap (costs : List (Nat × Nat × Nat)) (as : List Assign) (i j : Nat) : Option (List Assign) :=
  match as[i]?, as[j]? with
  | some a, some b =>
    let x := costIn costs a.task b.slot
    let y := costIn costs b.task a.slot
    if a.prio = b.prio ∧ !a.pinned ∧ !b.pinned ∧ x < 65535 ∧ y < 65535 ∧ x + y < a.cost + b.cost then
      some ((as.set i { a with slot := b.slot, cost := x }).set j { b with slot := a.slot, cost := y })
    else none
  | _, _ => none

/-- One pass; `left` is how many exchanges the time allows. -/
def swapPass (costs : List (Nat × Nat × Nat)) (as : List Assign) (left : Nat) : List Assign × Nat :=
  let n := as.length
  ((List.range n).flatMap fun i => (List.range n).filterMap fun j => if i < j then some (i, j) else none).foldl
    (fun (p : List Assign × Nat) ij =>
      if p.2 = 0 then p
      else match trySwap costs p.1 ij.1 ij.2 with
        | some as => (as, p.2 - 1)
        | none => p) (as, left)

/-- Up to `passes` passes, ending at one with no exchange. -/
def swaps (costs : List (Nat × Nat × Nat)) : Nat → List Assign → Nat → List Assign
  | 0, as, _ => as
  | n + 1, as, left =>
    let p := swapPass costs as left
    if p.2 = left then as else swaps costs n p.1 p.2

/-- A `PROGRESS` entry of a round (R381). -/
def Assign.bytes (a : Assign) (id : Nat) : List Byte :=
  leBytes a.task 2 ++ leBytes a.slot 1 ++ [0] ++ leBytes a.cost 2 ++ leBytes 0 2 ++ leBytes id 3

/-- A round ends with at most `n` exchanges made (R217, R218): its assignments are one transaction of the device. -/
def Dev.endRound (s : Dev) (r : Round) (n : Nat) : Dev :=
  let s := { s with txu := { s.txu with round := none } }
  let as := swaps r.costs (s.fld (0x9028, 0, 8)) r.pairs n
  let code := if s.saf.run = .updatePause then stOK else s.motionCode false
  if as.isEmpty then r.handles.foldl (fun s h => s.done h stOK []) s
  else if code ≠ stOK then r.handles.foldl (fun s h => s.refuse h code none) s
  else
    let id := s.txu.nextId
    let t : Txn := { id, handle := r.handles.head?, also := r.handles.drop 1, round := true, received := s.nt,
                     acts := as.map fun (a : Assign) => .taskSet a.task a.slot 3 (s.task a.task).start }
    let s := { s with txu := { s.txu with nextId := if id = 0xFFFFFF then 1 else id + 1, txns := s.txu.txns ++ [t] } }
    as.foldl (fun s (a : Assign) =>
      let s := r.handles.foldl (fun s h => s.progress h 3 (a.bytes id)) s
      if r.auto then s.event 0x0903 (a.bytes id) else s) s

/-- Exchanges without a bound of time. -/
def manySwaps : Nat := 2 ^ 24

/-- A round is asked for (R218): it joins one that runs; `late` is one that `ROUND_MS` will end. -/
def Dev.askRound (s : Dev) (h : Option Nat) (late : Bool) : Dev :=
  match s.txu.round with
  | some r => { s with txu := { s.txu with round := some { r with handles := r.handles ++ h.toList, auto := r.auto || h.isNone } } }
  | none =>
    let r := s.startRound h.toList h.isNone
    if late then { s with txu := { s.txu with round := some r } } else s.endRound r manySwaps

/-- ROUND_MS_EXPIRY (R217): the swaps stop after those already made. -/
def execRoundMsExpiry (made : Nat) (s : State) : Host.Outcome State Fault Refusal := s.act fun s =>
  match s.txu.round with
  | none => s.begin
  | some r => (s.tickTo (ntAdd r.startAt (msTicks (s.fld (0x9028, 16, 8)) : Nat))).endRound r made

/-! ### Commands -/

/-- What a `TASK_ALLOT` does (R215-R218), the whole or nothing. -/
def Dev.allot (s : Dev) (h : Nat) (b : List Byte) (late : Bool) : Dev :=
  let round := bitAt (leAt b 0 1) 7
  let code := if round then s.motionCode false else stOK
  match s.readAllot b with
  | .error e =>
    if code ≠ stOK && e.1 != stBadDesc && e.1 != stBadLen then s.refuse h code none
    else if e.1 < 0x100 then s.refuse h e.1 e.2 else s.done h e.1 []
  | .ok (defs, recs) =>
    if code ≠ stOK then s.refuse h code none
    else
      let s := defs.foldl (fun s p => s.setTask p.1 p.2) s
      let s := recs.foldl (fun s (r : TaskRec) => s.setTask r.task (r.apply (s.task r.task))) s
      let s := if defs.isEmpty then s else { s with trl := { s.trl with taskChange := true } }
      if round then s.askRound (some h) late else s.done h stOK []

/-- TASK_ALLOT (R215). Only a buffer that asks for a round is motion, and waits through an activation pause (DEDUCED, log
entry 31). -/
def execTaskAllot (h : Nat) (data : Option (List Byte)) (late : Bool) (s : State) : Host.Outcome State Fault Refusal := s.act fun s =>
  match data with
  | none => s.command h 0x58 fun _ s => s.refuse h stDma none
  | some b =>
    let go : Live → Dev → Dev := fun l s => if b.length ≠ l.len then s.refuse h stBadLen (some 16) else s.allot h b late
    if bitAt (leAt b 0 1) 7 then s.fleetCommand h 0x58 go else s.command h 0x58 go

/-- A generation entry (R244). -/
def Gen.bytes (g : Gen) : List Byte :=
  leBytes g.slot 1 ++ leBytes (b2n g.current + 2 * b2n g.late + 4 * b2n g.endedDead) 1 ++ leBytes g.epoch 2 ++ leBytes g.s 4 ++
    leBytes g.m 4 ++ leBytes g.credit 4

/-- The read-out of a task (R209, R219): its definition with the device's fields, then its generation table. -/
def Task.bytes (k : Task) (id : Nat) : List Byte :=
  leBytes id 2 ++ leBytes k.prio 1 ++ [0] ++ leBytes k.mask 2 ++ leBytes k.hops.length 2 ++ leBytes k.spans.length 1 ++ [0] ++
    leBytes k.v 2 ++ leBytes k.a 2 ++ leBytes k.j 2 ++ leBytes k.start 4 ++ leBytes k.ref 4 ++ leBytes k.st.code 1 ++
    leBytes k.gens.length 1 ++ leBytes k.tver 2 ++ leBytes (k.holder.getD 0) 1 ++ leBytes (k.pin.getD 0) 1 ++
    leBytes (b2n k.holder.isSome + 2 * b2n k.pin.isSome) 1 ++ [0] ++
    leBytes (k.forbid.foldl (fun n r => n + 2 ^ r) 0) 32 ++ k.hops.flatMap hopBytes ++ k.spans.flatMap Span.bytes ++
    k.gens.flatMap Gen.bytes

/-- TASK_WITHDRAW (R219). The read-out shows the task as the command finds it (DEDUCED, log entry 32). -/
def execTaskWithdraw (h : Nat) (werr : Bool) (s : State) : Host.Outcome State Fault Refusal := s.act fun s =>
  let go : Live → Dev → Dev := fun l s =>
    let id := l.p 0 2
    let mode := l.p 2 1
    let k := s.task id
    let out := k.bytes id
    if 16384 ≤ id then s.refuse h stBadDesc (some 25)
    else if !(mode = 1 || mode = 2) then s.refuse h stBadDesc (some 26)
    else if k.st ≠ .empty && l.len != 0 && decide (l.len < out.length) then s.refuse h stBadLen (some 16)
    else if k.st = .empty then s.done h stTaskUnknown []
    else if mode = 1 && k.st = .pending then s.refuse h stBusy none
    else if mode = 1 && (k.st = .done || k.st = .withdrawn) then s.done h stTaskState []
    else if l.len != 0 && werr then s.refuse h stDma none
    else
      let t : Txn := { handle := some h, acts := [.taskSet id (k.holder.getD 0) 6 0], stopSafe := true, received := s.nt }
      let code := s.motionCode true
      if mode = 1 && k.st = .held && code ≠ stOK then s.refuse h code none
      else
        let s := if l.len = 0 then s else s.emit (.host h 0 0 out)
        if mode = 2 then s.done h stOK []
        else if k.st = .held then { s with txu := { s.txu with txns := s.txu.txns ++ [t] } }
        else
          (s.setTask id { k with st := .withdrawn, holder := none, pin := none, forbid := []
                                 gens := k.gens.map fun (g : Gen) => { g with current := false } }).done h stOK []
  let held : Bool := match s.live? h with
    | some l => l.p 2 1 == 1 && (s.task (l.p 0 2)).st = .held
    | none => false
  if held then s.fleetCommand h 0x59 go else s.command h 0x59 go

/-- GRAFT (R242): what refuses it at once; the rest is judged as its transaction is validated. -/
def execGraft (h : Nat) (s : State) : Host.Outcome State Fault Refusal := s.act fun s =>
  s.fleetCommand h 0x5A fun l s =>
    let id := l.p 12 2
    let taker := l.p 14 1
    let last := l.p 15 1 = 1
    let k := s.task id
    let lease := s.lease taker
    let len := match s.trl.graph with | some g => 10 * g.hopsLen k.hops | none => 0
    let old : Bool := match k.holder with | some r => (s.lease r).st = .suspect | none => false
    if !s.applyTimeOk (l.pNt 0) then s.refuse h stBadDesc (some 24)
    else if 16384 ≤ id then s.refuse h stBadDesc (some 37)
    else if s.nSlots ≤ taker then s.refuse h stBadDesc (some 38)
    else if 1 < l.p 15 1 then s.refuse h stBadDesc (some 39)
    else if k.st ≠ .empty && !last && decide (len < l.p 8 4) then s.refuse h stBadDesc (some 32)
    else if s.motionCode false ≠ stOK then s.refuse h (s.motionCode false) none
    else if k.st = .held && old then s.refuse h stBusy none
    else if k.st = .empty then s.done h stTaskUnknown []
    else if !(k.st = .held || k.st = .orphaned) then s.done h stTaskState []
    else if lease.st ≠ .active || lease.unsynced || !bitAt k.mask lease.cls then s.refuse h stStale none
    else if (s.taskOf taker).isSome then s.done h stTaskState []
    else if 8 ≤ k.gens.length then s.done h stGraftLimit []
    else s.submitTxn h { acts := [.taskSet id taker 3 (l.p 8 4)], applyAt := givenApply (l.pNt 0), graft := true, fromLast := last }

end Sys2Proof.Machine
end

