-- ==== Sys2Proof/Machine/Planner.lean ====
section
/-! DEFINITION. The planning epoch (R191-R202): envelopes, clashes, planned steps with their dependences, the hand-off to a
step transaction (R197, R237) and the deadline. The profiles are those of Profile.lean, chosen once a step (log entry 114). -/
namespace Sys2Proof.Machine

/-! ### Envelopes and clashes (R191, R193) -/

/-- Is a robot's envelope kept up: a live lease, or one that is DEAD and has no standing footprint yet? -/
def Dev.keepsEnvelope (s : Dev) (i : Nat) : Bool :=
  let l := s.lease i
  l.st = .admitting || l.st = .active || l.st = .suspect ||
    ((l.st = .dead || (l.st = .zombie && l.from_ = .dead)) && !l.stopped)

/-- Pairs of robots of which an ENVELOPE entry of one conflicts with a FIRM or ENVELOPE entry of the other. -/
def Dev.clashPairs (s : Dev) : List (Nat × Nat) :=
  let hard := s.trl.resv.filter fun r => r.kind = .firm || r.kind = .envelope
  ((hard.filter fun r => r.kind = .envelope).flatMap fun x =>
    (hard.filter fun y => s.conflicts x y).map fun y => (min x.robot y.robot, max x.robot y.robot)).eraseDups

/-- Does any FIRM or ENVELOPE entry of a robot conflict with another robot's? -/
def Dev.inConflict (s : Dev) (i : Nat) : Bool :=
  let hard := s.trl.resv.filter fun r => r.kind = .firm || r.kind = .envelope
  (hard.filter fun r => r.robot = i).any fun x => hard.any fun y => s.conflicts x y

/-- `CLASHED` is judged (R32, R193). -/
def Dev.judgeClash (s : Dev) : Dev :=
  let pairs := s.clashPairs
  let fresh := pairs.filter fun p => !s.trl.clashes.contains p
  let s := { s with trl := { s.trl with clashes := pairs } }
  let robots := (pairs.flatMap fun p => [p.1, p.2]).eraseDups
  let s := robots.foldl (fun s i =>
    let x := s.rob i
    let s := if x.clashed then s else (s.setRob i { x with clashed := true, clashTxn := false }).pruneAll i
    s.directedStop (robotAddr i) (s.lease i).epoch 6 s.nt) s
  let s := fresh.foldl (fun s _ => s.raise 0x60) s
  (s.trl.robots.map (·.1)).foldl (fun s i =>
    let x := s.rob i
    let free := !s.inConflict i
    s.setRob i { x with clashed := x.clashed && !(free && x.clashTxn), offRoute := x.offRoute && !(free && x.offTxn) }) s

/-! ### Planned steps (R195, R198) -/

/-- Is a robot held back by a transaction that changes its task, route or loops (R237)? -/
def Dev.leftOut (s : Dev) (i : Nat) : Bool :=
  s.txu.txns.any fun (t : Txn) => !t.step && t.phase != .waiting && t.phase != .failed &&
    t.parts.any fun (p : Part) => p.slot == i && !p.confirmed && !p.ended

/-- May a robot be planned? Its route is that of a task it holds, or has done (DEDUCED, log entry 114). -/
def Dev.plannable (s : Dev) (i : Nat) : Bool :=
  let x := s.rob i
  let own : Bool := match x.route with
    | some r => let k := s.task r.task; k.holder == some i && k.tver == r.tver && (k.st = .held || k.st = .done)
    | none => false
  (s.lease i).st = .active && own && x.proj.isSome && !x.clashed && !x.offRoute && !s.leftOut i

/-- The planning order: by task priority, then by slot. -/
def Dev.planOrder (s : Dev) : List Nat :=
  let rs := (s.trl.robots.map (·.1)).filter s.plannable
  let prio : Nat → Nat := fun i => match (s.rob i).route with | some r => (s.task r.task).prio | none => 0
  (List.range 16).reverse.flatMap fun n => rs.filter fun i => prio i == n

/-- Does the footprint of a robot that holds at `sp` cover a node with `NO_HOLD`? -/
def Dev.coversNoHold (s : Dev) (i : Nat) (sp : Int) : Bool :=
  match s.trl.graph, (s.rob i).route with
  | some g, some r =>
    let c := s.cls (s.lease i).cls
    let no : Nat → Bool := fun id => match g.node? id with | some n => n.noHold | none => false
    (g.render r.hops ((sp - (c.rear : Nat)) / 10) ((sp + (c.front : Nat) + 9) / 10) false).any fun x =>
      match g.seg? x.1 with
      | some y => (x.2.1 == 0 && no y.nodeA) || (x.2.2 == y.len && no y.nodeB)
      | none => false
  | _, _ => false

/-- May a class travel a segment of a route so (R175): direction and width. -/
def ClassRec.mayTravel (c : ClassRec) (x : SegRec) (rev : Bool) : Bool := dirAllows x.dir rev && decide (c.hw ≤ 10 * x.hw)

/-- Where a speed binds on the way ahead (R272): coordinates in mm in the direction of travel, and the speed in mm/s from there on. The
front of the footprint meets a segment or a span; the end of the route, and the target of a robot that drives back, are stops. -/
def Dev.gates (s : Dev) (i : Nat) (here : Int) (target : Option Int) (rev : Bool) : List (Int × Nat) :=
  match s.trl.graph, (s.rob i).route with
  | some g, some r =>
    let c := s.cls (s.lease i).cls
    let lead : Int := (if rev then c.rear else c.front : Nat)
    let turn : Int → Int → Int × Int := fun a b => if rev then (-b, -a) else (a, b)
    let segs := (r.hops.foldl (fun (p : List (Int × Nat) × Int) h =>
      match g.seg? h.1 with
      | none => p
      | some x =>
        let q := turn p.2 (p.2 + (10 * x.len : Nat))
        (if here < q.2 then (q.1 - lead, if c.mayTravel x (h.2 != rev) then x.vlim else 0) :: p.1 else p.1, p.2 + (10 * x.len : Nat)))
      (([] : List (Int × Nat)), (0 : Int))).1
    let k := s.task r.task
    let spans := k.spans.map fun x => ((turn (r.approach + x.lo) (r.approach + x.hi)).1 - lead, x.vWork)
    let stop : Int := match target with | some t => if rev then -t else t | none => if rev then 0 else ((10 * g.hopsLen r.hops : Nat) : Int)
    segs ++ spans ++ (if rev then [] else [(r.approach, k.v)]) ++ [(stop, 0)]
  | _, _ => []

/-- Does a step from `k0` to `k1` toward `goal` mm/s, in the direction of travel, meet a gate in time? One already passed no longer
binds, but a stop does. -/
def gateOk (acc jerk : Nat) (k0 k1 : Kin) (goal : Nat) (q : Int × Nat) : Bool :=
  let p := q.1 * nmMm
  let v : Int := q.2 * nmMm
  let j : Int := jerk * nmMm
  if p < k0.s then q.2 != 0 || goal == 0
  else decide (max (k0.rest j) (goal * nmMm) ≤ v) ||
    (if k1.rest j ≤ v then decide (k1.s ≤ p) else decide ((k1.changed acc jerk q.2).s ≤ p))

/-- The speed cap of R261 at an instant, mm/s rounded up: on its ramp, and toward a set-point committed for a time before it. -/
def Dev.capAt (s : Dev) (i : Nat) (t : NT) : Nat :=
  let n := 25 + 2 * i
  let l := s.loop n
  let ramp (x goal : Int) (rate : Nat) (a b : NT) : Int :=
    let d : Int := if ntAfter b a then (10 * rate * ntSince b a / tickHz : Nat) else 0
    if x < goal then min goal (x + d) else max goal (x - d)
  let next := s.txu.txns.findSome? fun (t' : Txn) => match t'.applyAt with
    | some a => if (t'.phase = .committed || t'.phase = .listed) && ntReached t a then
        t'.acts.findSome? fun x => match x with | .setpoint m v r => if m = n then some (a, v, r) else none | _ => none
      else none
    | none => none
  let x := match next with
    | some (a, v, r) => ramp (ramp l.refNow (10 * l.ref) l.rate s.nt a) (10 * v) r a t
    | none => ramp l.refNow (10 * l.ref) l.rate s.nt t
  ceilDiv x.toNat 10

/-- What a planned step starts from: its slotframe, the state, the ms at rest, and where the robot still has to drive back to. -/
structure Start where
  sf : Nat
  k : Kin
  rest : Nat := 0
  back : Option Int := none
deriving DecidableEq, Repr

/-- The step after a step. -/
def PlanStep.next (q : PlanStep) : Start := { sf := sfNext q.sf, k := q.k1, rest := q.rest, back := q.back }

/-- How a robot goes on from a start (R275): whether in reverse, and whether it may gain speed at all. It waits `REV_DWELL` at rest
before it drives back, and within `TARGET_TOL` of its target it only comes to rest. -/
def Dev.heading (s : Dev) (i : Nat) (x : Start) : Bool × Bool :=
  let still : Bool := x.k.v == 0 && x.k.a == 0
  let near : Bool := match x.back with | some t => decide ((x.k.s - t * nmMm).natAbs ≤ s.fld (0xB014, 0, 8) * nmMm) | none => false
  let rev : Bool := decide (x.k.v < 0) || (still && x.back.isSome && (s.cls (s.lease i).cls).reverse && decide (10 * s.fld (0xB014, 8, 8) ≤ x.rest))
  (rev, rev == x.back.isSome && !near)

/-- The step from a start toward `goal` mm/s in its direction of travel, under the limits of R272. -/
def Dev.stepTo (s : Dev) (i : Nat) (x : Start) (rev : Bool) (goal : Nat) : PlanStep :=
  let c := s.cls (s.lease i).cls
  let r := (s.rob i).route
  let k := s.task (match r with | some r => r.task | none => 0)
  let within : Bool := match r with | some r => decide (r.approach * nmMm ≤ x.k.s) | none => false
  let q : PlanStep := { sf := x.sf, k0 := x.k, k1 := x.k, goal := if rev then -(goal : Int) else goal
                        acc := if within then min c.aMax k.a else c.aMax, jerk := if within then min c.jMax k.j else c.jMax }
  let k1 := q.at_ stepNs
  let still : Bool := k1.v == 0 && k1.a == 0
  let was : Bool := x.k.v == 0 && x.k.a == 0
  let rest := if !still then 0 else if was then x.rest + 100 else (stepNs - x.k.changeNs q.acc q.jerk 0) / 1000000
  let there : Bool := match x.back with | some t => decide ((k1.s - t * nmMm).natAbs ≤ s.fld (0xB014, 0, 8) * nmMm) | none => false
  { q with k1, rest, back := if still && there then none else x.back }

/-- Do limits and gates allow a goal (R272, R275)? -/
def Dev.goalOk (s : Dev) (i : Nat) (x : Start) (rev : Bool) (gates : List (Int × Nat)) (top goal : Nat) : Bool :=
  let q := s.stepTo i x rev goal
  let (k0, k1) := if rev then (q.k0.flip, q.k1.flip) else (q.k0, q.k1)
  decide (goal ≤ top) && gates.all (gateOk q.acc q.jerk k0 k1 goal)

/-- The fastest goal of a step (R195). -/
def Dev.fastest (s : Dev) (i : Nat) (x : Start) : Bool × Nat :=
  let (rev, go) := s.heading i x
  let here := if rev then x.k.flip.sLo else x.k.sLo
  let t (n : Nat) : NT := BitVec.ofNat 64 (slotStart (50 * (x.sf + n)))
  let top := min (s.limitAt i (if rev then x.k.sHi else x.k.sLo) rev) (min (s.capAt i (t 0)) (s.capAt i (t 1)))
  let gates := s.gates i here x.back rev
  (rev, if go then largest (s.goalOk i x rev gates top) 14 0 else 0)

/-- Does a patch in flight hold a segment back (R184)? -/
def Dev.heldSeg (s : Dev) (id : Nat) : Bool :=
  s.trl.patches.any fun (p : Patch) => p.txn != 0 && (p.dels.contains id || p.chgs.contains id)

/-- Robots whose entries stand against a step (R195). -/
def Dev.stepHits (s : Dev) (es : List Resv) : List Nat :=
  ((s.trl.resv.filter fun r => es.any fun e => s.conflicts e r).map (·.robot)).eraseDups

/-- May the entries of a step be made? -/
def Dev.stepFree (s : Dev) (es : List Resv) : Bool := !(es.any fun e => s.heldSeg e.seg) && (s.stepHits es).isEmpty

/-- One step of a robot (R195): the fastest profile, else the fastest of the slower ones that conflict with nothing, down to a hold; the
robots in the way of the fastest; and the entries of the fastest, whose check views are used. -/
def Dev.tryStep (s : Dev) (i : Nat) (x : Start) : Option (PlanStep × List Resv) × List Nat × List Resv :=
  let (rev, top) := s.fastest i x
  let make (g : Nat) : PlanStep × List Resv := let q := s.stepTo i x rev g; (q, s.stepEntries i q)
  let first := make top
  let why := s.stepHits first.2
  let pick := if s.stepFree first.2 then first else make (largest (fun g => decide (g < top) && s.stepFree (make g).2) 14 0)
  let still : Bool := pick.1.k1.v == 0 && pick.1.k1.a == 0
  (if s.stepFree pick.2 && !(still && s.coversNoHold i pick.1.k1.sLo) then some pick else none, why, first.2)

/-- Record what a step depends on (R198): beyond 16 robots, on every robot from its first step that is not firm. -/
def Dev.noteDeps (s : Dev) (i sf : Nat) (why : List Nat) : Dev :=
  let x := s.rob i
  let add := (why.eraseDups.filter fun j => j != i && !(x.deps.any fun d => d.1 = j)).map fun j => (j, sf)
  let deps := x.deps ++ add
  let all := ((List.range s.nSlots).filter (· != i)).map fun j => (j, s.firstSpec i)
  s.setRob i { x with deps := if 16 < deps.length then all else deps }

/-- SPECULATIVE entries held (R188). -/
def Dev.specCount (s : Dev) : Nat := (s.trl.resv.filter fun r => r.kind = .spec).length

/-- A robot that stays at `s_hold` because it has no way to its target (R275). -/
def Dev.staysBehind (s : Dev) (i : Nat) (x : Start) : Bool := x.back.isSome && !(s.cls (s.lease i).cls).reverse

/-- Plan up to `n` steps of a robot. -/
def Dev.planSteps (i : Nat) : Nat → Start → Dev → Dev
  | 0, _, s => s
  | n + 1, x, s =>
    let (pick, why, views) := s.tryStep i x
    let s := (s.useViews views).noteDeps i x.sf why
    match pick with
    | none => s.setRob i { s.rob i with blocked := true }
    | some (q, es) =>
      if 98304 < s.specCount + es.length then s.cntSat (0x8050, 0, 16)
      else
        let s := s.setResv (s.trl.resv ++ es)
        let r := s.rob i
        Dev.planSteps i n q.next (s.setRob i { r with plan := r.plan ++ [q], blocked := s.staysBehind i x })

/-- The handed steps of a DEVIATED robot drawn again from where it was seen (R190): as fast as the limits allow, and never ahead of
what they were (DESIGN CHOICE, log entry 114). -/
def Dev.redraw (s : Dev) (i : Nat) : Start → List PlanStep → List PlanStep
  | _, [] => []
  | x, q :: l =>
    let x := { x with sf := q.sf }
    let (rev, top) := s.fastest i x
    let ahead (p : PlanStep) : Int := if rev then -p.k1.s else p.k1.s
    let g := largest (fun g => decide (g ≤ top) && decide (ahead (s.stepTo i x rev g) ≤ ahead q)) 14 0
    let p := { s.stepTo i x rev g with handed := true }
    p :: Dev.redraw s i p.next l

/-- The plan a robot goes on from: what is past is dropped, and that of a DEVIATED robot is drawn again. -/
def Dev.livePlan (s : Dev) (i : Nat) (again : Bool) : Dev :=
  let x := s.rob i
  let b := s.trl.epoch
  let sf := slotframeOf b.toNat
  let past := x.plan.filter fun q => !sfReached q.sf sf
  let live := x.plan.filter fun q => sfReached q.sf sf
  let old := past.drop (past.length - 20)
  let back := match past.getLast? with | some q => q.back | none => x.back
  let live := match x.proj with
    | some p =>
      if again && x.deviated then
        let k := Kin.run (Kin.at_ p.s p.v) 0 (if ntAfter b p.tObs then ntSince b p.tObs * 1000000000 / tickHz else 0)
        s.redraw i { sf, k, back } live
      else live
    | none => live
  s.setRob i { x with plan := old ++ live, back }

/-- Where a robot's next step starts: after its plan, or where it stands, from the first slotframe that the next hand-off serves. -/
def Dev.startOf (s : Dev) (i : Nat) : Start :=
  let x := s.rob i
  let b := s.trl.epoch
  let c := slotframeAtOrAfter (ntAdd b ((msTicks 60 + s.offerLead : Nat) : Int))
  let sf := sfNext (slotframeOf c.toNat)
  match x.plan.getLast? with
  | some q => if sfReached q.sf (slotframeOf b.toNat) then q.next
    else { sf, k := s.kinAtApply i (BitVec.ofNat 64 (slotStart (50 * sf))), back := q.back }
  | none => { sf, k := s.kinAtApply i (BitVec.ofNat 64 (slotStart (50 * sf))), back := x.back }

/-- Plan a robot: one step more, or its whole run-ahead. -/
def Dev.planRobot (s : Dev) (i : Nat) (whole : Bool) : Dev :=
  let s := s.livePlan i whole
  let s := s.setRob i { s.rob i with replan := (s.rob i).replan && !whole }
  let x := s.startOf i
  let top := sfAdd (slotframeOf s.trl.epoch.toNat) (s.fld (0x8014, 8, 9))
  let room := if sfReached top x.sf then sfGap x.sf top + 1 else 0
  Dev.planSteps i (if whole then room else min 1 room) x s

/-- The planning of an epoch (R194, R201): re-plans first, then one step more for each robot, or a granted full re-plan in its place.
`served`: how many pieces of this work are done by the deadline, where not all are; what is left is done in the next epoch. -/
def Dev.planAll (s : Dev) (served : Option Nat) : Dev :=
  let order := s.planOrder
  let full := s.trl.replanGranted
  let again := (order.filter fun i => (s.rob i).replan).take (s.fld (0x8020, 0, 8))
  let work := again.map (fun i => (i, true)) ++ order.map fun i => (i, full)
  let n := served.getD work.length
  let s := (work.take n).foldl (fun s w => s.planRobot w.1 w.2) s
  let s := ((work.drop n).filter (·.2)).foldl (fun s w => s.askIncr w.1) s
  if full then ({ s with trl := { s.trl with replanAsked := false, replanGranted := false } }).returnLeave .replan else s

/-! ### The rows -/

/-- Does the Trellis plan (R194)? A pause of the planning firmware that begins in this epoch skips its planning (R486). -/
def Dev.plans (s : Dev) : Bool :=
  s.saf.run = .run || (s.saf.run = .updatePause && s.saf.pausedFrom = some .run && s.upd.pause != some 1)

/-- PLANNING_EPOCH (R191, R193-R196, R202, R218): `work` ms; `served`: the pieces of planning done by the deadline, where not all are;
`late`: an automatic round runs on to `ROUND_MS`. -/
def execPlanningEpoch (work : Nat) (served : Option Nat) (late : Bool) (s : State) : Host.Outcome State Fault Refusal := s.act fun s =>
  let c : NT := BitVec.ofNat 64 (slotStart (50 * slotframeOf s.nt.toNat))
  let fresh : Bool := c != s.trl.epoch && decide (ntSince s.nt c ≤ usTicks 40)
  let b := if fresh then c else nextSlotframe s.nt
  let s := s.tickTo b
  let s := { s with trl := { s.trl with epoch := b } }
  if !s.beaconing then s
  else
    let (s, patched) := s.expire.applyDue b
    let s := ((s.txu.leases.map (·.1)).filter s.keepsEnvelope).foldl (fun s i => s.envelope i b false) s
    let s := s.judgeClash
    let s := if patched || s.trl.replanDue then ({ s with trl := { s.trl with replanDue := false } }).askReplan else s
    if !s.plans || s.upd.armed = some 1 then { s with trl := { s.trl with handOffDue := s.plans, unfinished := false } }
    else
      let auto := s.trl.taskChange && s.flag (0x9028, 8, 1)
      let s := { s with trl := { s.trl with taskChange := false, handOffDue := true, unfinished := served.isSome } }
      let s := if auto then s.askRound none late else s
      let s := (s.planAll served).note 0x451 work []
      s.setFld (0x8044, 16, 8) (max (s.fld (0x8044, 16, 8)) (sat 8 work))

/-- The steps a hand-off takes of a robot (R197). -/
def Dev.handSteps (s : Dev) (i : Nat) : List PlanStep :=
  let top := sfAdd (slotframeOf s.trl.epoch.toNat) (s.fld (0x8014, 0, 8))
  (s.rob i).plan.filter fun q => !q.handed && sfReached top q.sf

/-- The reference position at the end of a step (R189), mm: rounded in the direction of travel. -/
def PlanStep.end_ (q : PlanStep) : Int := if q.k1.s < q.k0.s then q.k1.sLo else q.k1.sHi

/-- HAND_OFF (R197, R237), at `B` + 60 ms. -/
def execHandOff (s : State) : Host.Outcome State Fault Refusal := s.act fun s =>
  if !s.trl.handOffDue then s.begin
  else
    let s := s.tickTo (ntAdd s.trl.epoch (msTicks 60 : Nat))
    let s := { s with trl := { s.trl with handOffDue := false } }
    let robots := (s.trl.robots.map (·.1)).filter fun i => s.plannable i && !(s.handSteps i).isEmpty
    if !s.plans || robots.isEmpty then s
    else
      let id := s.txu.nextId
      let c := slotframeAtOrAfter (ntAdd s.nt (s.offerLead : Nat))
      let parts : List Part := robots.map fun i =>
        let ver := match (s.rob i).route with | some r => r.tver | none => 0
        let top := match (s.handSteps i).getLast? with | some q => q.end_ | none => 0
        { slot := i, epoch := (s.lease i).epoch, recs := [grantRec ver top] }
      let grants := robots.map fun i => (i, (s.rob i).sGrant)
      let t : Txn := { id, step := true, phase := .offered, applyAt := some (applyOf c), cNt := c, parts, grants, received := s.nt }
      let taken : Resv → Bool := fun r => r.kind = .spec && !r.host && !r.staged && robots.contains r.robot &&
        (s.handSteps r.robot).any fun q => q.sf == r.step
      let l := s.trl.resv.map fun r => if taken r then { r with kind := .offered, txn := id, uNew := true } else r
      let s := robots.foldl (fun s i =>
        let x := s.rob i
        let hs := s.handSteps i
        let top := hs.getLast?.map PlanStep.end_
        s.setRob i { x with sGrant := top.or x.sGrant, plan := x.plan.map fun q => if hs.contains q then { q with handed := true } else q }) s
      let s := { s with txu := { s.txu with nextId := if id = 0xFFFFFF then 1 else id + 1, txns := s.txu.txns ++ [t] } };
      (s.setResv l).sendOffers t parts (applyOf c) false

/-- PLAN_DEADLINE (R194), at `B` + 95 ms: work that is not done is abandoned. -/
def execPlanDeadline (s : State) : Host.Outcome State Fault Refusal := s.act fun s =>
  let s := s.tickTo (ntAdd s.trl.epoch (msTicks 95 : Nat))
  if !s.trl.unfinished then s
  else (({ s with trl := { s.trl with unfinished := false } }).cntSat (0x8044, 0, 16)).raise 0x63

end Sys2Proof.Machine
end

