-- ==== Sys2Proof/Machine/Queues.lean ====
section
/-! DEFINITION. The rows of the queue manager (R347-R363). -/
namespace Sys2Proof.Machine

/-- Is a queue in use on this part: one that some stream is assigned to (R351)? -/
def Dev.queueUsed (s : Dev) (q : Nat) : Bool :=
  let lane := [0, 8, 16].any fun b => b ≤ q && q < b + (if s.fuse.big then 6 else 3)
  lane || (24 ≤ q && q ≤ 29) || q = 32 || q = 33 || (40 ≤ q && q ≤ 42) || (48 ≤ q && q ≤ 63)

/-- QUEUE_PUSH (R349, R350, R355): a word arrives, `words` being the length of its item, and a pop may fall in the same
cycle. Both are judged on the depth at the start of the cycle; a lane receive engine drops a whole frame without room. -/
def execQueuePush (dt q : Nat) (w : QWord) (words : Nat) (pop : Bool) (s : State) : Host.Outcome State Fault Refusal := s.act fun s =>
  let s := s.tick dt
  if !s.queueUsed q then s
  else
    let x := s.queue q
    let (cap, cut) := s.queForce q
    let spill := !s.fuse.big
    let depth := x.words.length
    let x := if pop && spill && x.head = 0 then x.refill else x
    let (y, out) := if pop then x.pop cut else (x, none)
    let s := if pop then s.emit (.word q out) else s
    if q < 8 && w.sop && cap < depth + words then (s.setQueue q y).cntSat (0xE024, 0, 16)
    else if cap ≤ depth then s.setQueue q { y with full := satInc 16 y.full }
    else if spill && x.tail = 8 then (s.setQueue q y).cntSat (0xE024, 16, 16)
    else
      let (z, bad) := y.take w spill
      s.setQueue q z |>.cntSatN (0xE020, 0, 16) bad

/-- QUEUE_POP (R354, R355): a pop alone; with the spill organisation it waits for the refill of an empty head (R353).
`ecc`: the word's check finds an uncorrectable error (R350). -/
def execQueuePop (dt q : Nat) (ecc : Bool) (s : State) : Host.Outcome State Fault Refusal := s.act fun s =>
  let s := s.tick dt
  if !s.queueUsed q then s
  else
    let x := s.queue q
    let x := if !s.fuse.big && x.head = 0 then x.refill else x
    let (y, out) := x.pop (s.queForce q).2
    let s := s.setQueue q y
    match out with
    | none => s.emit (.word q none)
    | some w =>
      if ecc then ((s.emit (.word q (some { w with err := true }))).cntSat (0xE020, 16, 16)).raise 0x21
      else s.emit (.word q (some w))

/-- SPILL_REFILL (R353): one transfer between the registers and the middle, on the spill organisation only. -/
def execSpillRefill (dt q : Nat) (s : State) : Host.Outcome State Fault Refusal := s.act fun s =>
  let s := s.tick dt
  if s.fuse.big || !s.queueUsed q then s else s.setQueue q (s.queue q).refill

/-- QUE_FLUSH (R356, R362): carried out in FLEET_STOP and SAFE only, else `REFUSED` is set. -/
def execQueFlush (dt : Nat) (v : Reg) (s : State) : Host.Outcome State Fault Refusal := s.act fun s =>
  let s := s.tick dt
  if fieldOf v 8 1 = 0 then s
  else if s.saf.run = .fleetStop || s.saf.run = .safe then s.flushWaiting (fieldOf v 0 7)
  else { s with que := { s.que with refused := true } }

/-- QFC_MIN_ASSERT_EXPIRY (R360): `MIN_ASSERT` after the pin asserted. -/
def execQfcMinAssertExpiry (p : Nat) (s : State) : Host.Outcome State Fault Refusal := s.act fun s =>
  let x : Qfc := Tab.get (fun _ => {}) s.que.pins p
  if 8 ≤ p || !x.on then s.begin
  else
    let s := s.tickUp (x.at_ + 250 * s.fld (0xE100 + 0x20 * p, 8, 8))
    s.updPin p

end Sys2Proof.Machine
end

