-- ==== Sys2Proof/Machine/Report.lean ====
section
/-! DEFINITION. A `REPORT` block (R328) taken in: lease timers (R21), link configuration (R331), confirmation (R234-R236), the
task's mark (R213, R214), the late results of a zombie (R245), and handovers (R269, R270). -/
namespace Sys2Proof.Machine

/-! ### Marks -/

/-- A task is over (R211, R214): its holder's mark has reached the end of its last span. -/
def Dev.taskDone (s : Dev) (id : Nat) : Dev :=
  let k := s.task id
  let got := credited k.spans k.ivs
  let all := k.spans.foldl (fun n (x : Span) => n + (x.hi - x.lo)) 0
  let s := s.setTask id { k with st := .done, holder := none, pin := none, forbid := []
                                 gens := k.gens.map fun (g : Gen) => { g with current := false } }
  ({ s with trl := { s.trl with taskChange := true } }).event 0x0902 (leBytes id 2 ++ leBytes 0 2 ++ leBytes got 4 ++ leBytes (all - got) 4)

/-- The point beyond which a robot's mark is clamped (R213): its projected position in task coordinate, plus `m_q`. -/
def Dev.markLimit (s : Dev) (i id : Nat) : Option Nat :=
  match (s.rob i).route, (s.rob i).proj with
  | some r, some p => if r.task = id then some (p.s - r.approach + ((s.mq (s.rob i) p.grade : Nat) : Int)).toNat else none
  | _, _ => none

/-- A holder's mark (R213, R214). Without a projection it is taken as it comes (DEDUCED, log entry 33). -/
def Dev.takeMark (s : Dev) (i : Nat) (r : Report) : Dev :=
  match r.task with
  | none => s
  | some id =>
    let k := s.task id
    let at_ := k.gens.length - 1
    let m0 := match k.gens.getLast? with | some g => g.m | none => 0
    if k.st ≠ .held || k.holder ≠ some i || k.tver ≠ r.tver || decide (r.mark ≤ m0) then s
    else
      let top := s.markLimit i id
      let beyond : Bool := match top with | some x => decide (x < r.mark) | none => false
      let mark := match top with | some x => min x r.mark | none => r.mark
      let s := if beyond then s.raise 0x6B else s
      if mark ≤ m0 then s
      else
        let s := s.setTask id (k.raise at_ mark)
        let last := match k.spans.getLast? with | some x => x.hi | none => 0
        if last ≤ mark then s.taskDone id else s

/-! ### Confirmation -/

/-- Does a report confirm a participant (R234)? -/
def Dev.confirms (s : Dev) (t : Txn) (p : Part) (r : Report) : Bool :=
  r.applied.contains t.id || p.recs.all (s.recMet t p.slot r)

/-- A report received at `rx` against the transactions its robot is waited for in (R234-R236): those it confirms; the first
that does not confirm brings the first re-offer. -/
def Dev.confirmParts (s : Dev) (i : Nat) (rx : NT) (r : Report) : Dev :=
  let mine := s.unmet.filter fun (x : Txn × Part) =>
    x.2.slot == i && (match x.1.applyAt with | some a => ntAfter rx a | none => false)
  let yes := mine.filter fun (x : Txn × Part) => s.confirms x.1 x.2 r
  let no := mine.filter fun (x : Txn × Part) => !s.confirms x.1 x.2 r && !x.2.reoffered &&
    (match x.1.applyAt with | some a => ntAfter rx (ntAdd a (msTicks 10 : Nat)) | none => false)
  let s := yes.foldl (fun s (x : Txn × Part) =>
    s.updPart x.1.id i fun p => { p with confirmed := true, reofferAt := none, unsyncedAt := none }) s
  let still := s.unmet.any fun (x : Txn × Part) => x.2.slot == i && x.2.unsyncedAt.isNone
  let s := if (s.lease i).unsynced && !yes.isEmpty && !still then s.setLease i { s.lease i with unsynced := false } else s
  let s := no.foldl (fun s (x : Txn × Part) => s.reoffer x.1 x.2) s
  s.settleTxns

/-! ### Handovers -/

/-- A report that shows a handover complete (R269): the robot has applied it and blends no more, or shows the mode handed over
to. One that ended on disagreement is reported (R270). -/
def Dev.handoverReport (s : Dev) (i : Nat) (r : Report) : Dev :=
  let n := 24 + 2 * i
  let l := s.loop n
  if l.st ≠ .handover || r.steer = 2 then s
  else
    let mode := decide (r.steer = 1)
    if !(r.applied.contains l.hoTxn || mode == l.want) then s
    else
      let s := [n, n + 1].foldl (fun s m => s.setLoop m { s.loop m with st := .closed, steer := mode, hoTxn := 0 }) s
      if !r.disagree then s
      else (((s.cntSat (0xA024, 0, 16)).raise 0x72).event 0x0A01 (leBytes i 1 ++ leBytes r.steer 1)).note 0x456 i (leBytes i 1 ++ leBytes r.steer 1)

/-! ### The row -/

/-- A counted report's block (R21, R328). -/
def Dev.takeReport (s : Dev) (i : Nat) (rx : NT) (r : Report) : Dev :=
  let l := s.lease i
  let s := s.setLease i { l with report := some r, repRx := rx, confirmed := l.confirmed || (r.cfgVer != 0 && r.cfgVer == l.cfgVer) }
  let s := s.confirmCfg (robotAddr i) r.cfgVer
  let s := s.confirmParts i rx r
  (s.takeMark i r).handoverReport i r

/-- REPORT (R21, R328): the next waiting report. That of a `RAW_OBS` frame was counted with the frame's observations. -/
def execReport (dt : Nat) (s : State) : Host.Outcome State Fault Refusal := s.act fun s =>
  let s := s.tick dt
  match s.takeItem fun (x : RxItem) => x.q == 25 && frType x.frame != 9 with
  | none => s
  | some (m, s) =>
    match s.robotOf (frSrc m.frame) with
    | none => s
    | some i =>
      let ep := frEpoch m.frame
      let own : Bool := frType m.frame == 3
      if s.older i ep then (if own then s.zombieFrame i m.frame else s)
      else if !s.counts i ep then s
      else match frameReport m.frame with
        | some r => (if own then s.countReport i m.rx true else s).takeReport i m.rx r
        | none => s

end Sys2Proof.Machine
end

