-- ==== Sys2Proof/Machine/Rootstock.lean ====
section
/-! DEFINITION. The rows of Rootstock and the stop path (R414-R429): latches and their release, dark pulses, fleet stop and
resume, the release from SAFE, the watchdog on the planning cores. -/
namespace Sys2Proof.Machine

/-! ### The stop path (R418-R423) -/

/-- `STOP_OUT` of either channel by R419, but for a dark pulse: both outputs have the same terms. -/
def Dev.stopOut (s : Dev) : Bool :=
  s.saf.inA && s.saf.inB && !s.saf.latchA && !s.saf.latchB && !s.saf.safeForce &&
    !(s.saf.run == .fleetStop && s.flag (0x11018, 16, 1))

/-- The pin `STOP_OUT` of a channel (R419): its dark pulse holds it low. -/
def Dev.stopPin (s : Dev) (chB : Bool) : Bool := s.stopOut && !(s.saf.dpRun.isSome && s.saf.dpNextB == chB)

/-- A latch sets (R420): axes are inhibited, the latch is reported and freezes the box, its source rises, the fleet stops. -/
def Dev.setLatch (s : Dev) (chB : Bool) : Dev :=
  let other := if chB then s.saf.latchA else s.saf.latchB
  let s := { s with saf := { s.saf with latchA := s.saf.latchA || !chB, latchB := s.saf.latchB || chB
                                        loneAt := if other then none else some s.up
                                        dpRun := s.saf.dpRun.map fun (t : Bool × Bool) => (t.1, true) } }
  let s := s.cntSat (0x11030, 0, 16)
  if s.saf.run = .boot || s.saf.run = .off then s
  else
    let ch := leBytes (1 + b2n chB) 1
    let s := ((s.axesTrip.note 0x0C1 (1 + b2n chB) ch).event 0x1102 ch).freeze 4
    (s.raiseLevel (if chB then 0xB1 else 0xB0)).push (.stop 1 2 0)

/-- STOP_IN_FALL (R418, R420): a low pulse of `lowPs` ps. Below 1 ns the filter rejects it, from 2 ns it latches, and what
happens between is open. The input is low until both inputs are seen high again (STOP_INPUTS_CLEAN). -/
def execStopInFall (dt : Nat) (chB : Bool) (lowPs : Nat) (s : State) : Host.Outcome State Fault Refusal := s.act fun s =>
  let s := s.tick dt
  if lowPs < 1000 then s
  else
    let (free, s) := if lowPs < 2000 then s.draw 1 else (1, s)
    if free = 0 then s
    else
      let s := { s with saf := { s.saf with clean := false, inA := s.saf.inA && chB, inB := s.saf.inB && !chB } };
      (if (if chB then s.saf.latchB else s.saf.latchA) then s else s.setLatch chB)

/-- STOP_DISCREPANCY (R421): `DISC_TIME` after one channel latched alone. -/
def execStopDiscrepancy (s : State) : Host.Outcome State Fault Refusal := s.act fun s =>
  match s.saf.loneAt with
  | none => s.begin
  | some t =>
    let s := s.tickUp (t + 10 * cycMs * s.fld (0x11018, 8, 8));
    ({ s with saf := { s.saf with loneAt := none } }).raise 0xB2

/-- STOP_INPUTS_CLEAN (R422): both inputs have been high for 50 ms. -/
def execStopInputsClean (dt : Nat) (s : State) : Host.Outcome State Fault Refusal := s.act fun s =>
  let s := s.tick dt;
  { s with saf := { s.saf with inA := true, inB := true, clean := true } }

/-- A write of the release path is refused (R422, R428): counted, and source 0xBC. -/
def Dev.refuseRelease (s : Dev) : Dev := (s.cntSat (0x11030, 16, 16)).raise 0xBC

/-- SAF_STOP_CLR (R422). -/
def execSafStopClr (dt : Nat) (v : Reg) (s : State) : Host.Outcome State Fault Refusal := s.act fun s =>
  let s := s.tick dt
  if v.toNat = 0xC1EA && s.saf.clean && (s.src 0xB2).st != .active then
    let was := s.saf.latchA || s.saf.latchB
    let s := { s with saf := { s.saf with latchA := false, latchB := false, loneAt := none } }
    let s := (s.fallLevel 0xB0).fallLevel 0xB1;
    (if was then (s.note 0x0C2 0 []).event 0x1103 [] else s)
  else s.refuseRelease

/-- A dark-pulse test is over (R423): the other output's test begins half a period after this one did, `began`. -/
def Dev.nextDark (s : Dev) (began : Nat) : Dev :=
  { s with saf := { s.saf with dpRun := none, dpNextB := !s.saf.dpNextB, dpAt := began + s.fld (0x11018, 0, 8) * (cycHz / 2) } }

/-- DARK_PULSE (R423, R440): the next edge of the test of an output. `ok` is its read-back: low within 20 us of the first edge, high
within 20 us of the second, 200 us later. A test that finds the output low is skipped; one during which a stop input tripped is
discarded; and one whose output another term of R419 holds low is judged by the first edge alone. DESIGN CHOICE (log entry 118): the
first test after a reset is that of A, one `DP_PERIOD` later. -/
def execDarkPulse (ok : Bool) (s : State) : Host.Outcome State Fault Refusal := s.act fun s =>
  if s.saf.run = .off then s.begin
  else
    let s := s.tickUp s.saf.dpAt
    let b := s.saf.dpNextB
    match s.saf.dpRun with
    | none =>
      if !s.stopOut then (s.nextDark s.saf.dpAt).cntSat (0x11038, 16, 16)
      else { s with saf := { s.saf with dpRun := some (ok, false), dpAt := s.saf.dpAt + cycHz / 5000 } }
    | some (low, void) =>
      let bad := !low || (s.stopOut && !ok)
      let s := s.nextDark (s.saf.dpAt - cycHz / 5000)
      if void then s
      else
        let s := { s with saf := { s.saf with dpFailA := if b then s.saf.dpFailA else bad
                                              dpFailB := if b then bad else s.saf.dpFailB } };
        (if bad then s.raise (if b then 0xB4 else 0xB3) else s.cntWrap (0x11038, 0, 16))

/-! ### Fleet stop and resume (R424-R426) -/

/-- FLEET_STOP (R424). -/
def execFleetStop (h : Nat) (s : State) : Host.Outcome State Fault Refusal := s.act fun s =>
  s.command h 0x90 fun l s =>
    let reason := l.p 0 4
    match s.saf.run with
    | .run | .updatePause => (((s.note 0x0C9 (reason % 65536) []).takeStop 2 1 reason).done h stOK [])
    | .fleetStop | .safe => ((s.note 0x0C9 (reason % 65536) []).cancelResume stStopped).done h stOK []
    | _ => s.refuse h stBusy none

/-- The first source of at least a class that is ACTIVE. -/
def Dev.firstActive (s : Dev) (cls : Nat) : Option Nat :=
  (s.flt.srcs.find? fun p => p.2.st == .active && decide (cls ≤ s.fld (srcCls p.1))).map (·.1)

/-- Why a resume is blocked (R426): the reason and its detail. -/
def Dev.resumeBlocked (s : Dev) : Option (Nat × Nat) :=
  if s.saf.latchA || s.saf.latchB then some (1, 0)
  else match s.firstActive 2 with
    | some n => some (2, n)
    | none =>
      if !s.tim.ntValid then some (3, 0)
      else (s.txu.leases.find? fun p => p.2.unplaced).map fun p => (4, p.1)

/-- FLEET_RESUME_REQUEST (R426). -/
def execFleetResumeRequest (h : Nat) (s : State) : Host.Outcome State Fault Refusal := s.act fun s =>
  s.command h 0x91 fun _ s =>
    match s.saf.run with
    | .run => s.done h stOK []
    | .safe => s.refuse h stSafe none
    | .fleetStop =>
      match s.resumeBlocked with
      | some (r, d) => s.done h 0x0A01 (leBytes r 1 ++ leBytes d 1)
      | none =>
        { s with saf := { s.saf with resume := s.saf.resume ++
            [{ handle := h, at_ := slotframeAtOrAfter (ntAdd s.nt (msTicks 2)) }] } }
    | _ => s.refuse h stBusy none

/-- RESUME_BOUNDARY (R426): at its boundary an accepted resume makes the run state RUN, and completes; within an activation pause RUN
is the state that follows it (R485). -/
def execResumeBoundary (s : State) : Host.Outcome State Fault Refusal := s.act fun s =>
  match s.saf.resume with
  | [] => s.begin
  | r :: rest =>
    let s := s.tickTo r.at_
    let s := { s with saf := { s.saf with resume := rest } };
    (if s.saf.run = .fleetStop then (s.setRun .run 5 0).askReplan
      else if s.saf.run = .updatePause && s.saf.pausedFrom = some .fleetStop then { s with saf := { s.saf with pausedFrom := some .run } }
      else s).done r.handle stOK []

/-! ### Release from SAFE (R428) -/

/-- A write of the release sequence that does not count: void, a new nonce, counted. -/
def Dev.voidRelease (s : Dev) : Dev := s.drawNonce.refuseRelease

/-- SAFE_RELEASE_FIRST (R428): the step key with the nonce, while no sequence is open. -/
def execSafeReleaseFirst (dt : Nat) (v : Reg) (s : State) : Host.Outcome State Fault Refusal := s.act fun s =>
  let s := s.tick dt
  if fieldOf v 16 16 = 0x5AFE && fieldOf v 0 16 = s.saf.nonce && s.saf.relAt.isNone then
    { s with saf := { s.saf with relAt := some s.up } }
  else s.voidRelease

/-- SAFE_RELEASE_SECOND (R428): 10 ms to 1 s after the first, in SAFE with no SAFE-class source ACTIVE. -/
def execSafeReleaseSecond (dt : Nat) (v : Reg) (s : State) : Host.Outcome State Fault Refusal := s.act fun s =>
  let s := s.tick dt
  let inTime := match s.saf.relAt with
    | some t => decide (t + 10 * cycMs ≤ s.up ∧ s.up ≤ t + cycHz)
    | none => false
  if fieldOf v 16 16 = 0xA0E5 && fieldOf v 0 16 = s.saf.nonce ^^^ 0xFFFF && inTime && s.saf.run == .safe &&
      s.saf.safeForce && (s.firstActive 3).isNone then
    { s with saf := { s.saf with relAt := none, safeForce := false, relDone := true } }
  else s.voidRelease

/-- SAFE_RELEASE_WINDOW_EXPIRY (R428): no second write within 1 s of the first. No write is refused, so none is counted. -/
def execSafeReleaseWindowExpiry (s : State) : Host.Outcome State Fault Refusal := s.act fun s =>
  match s.saf.relAt with
  | none => s.begin
  | some t => (s.tickUp (t + cycHz + 1)).drawNonce

/-- SAFE_RELEASE_BOUNDARY (R428): the slot boundary after the release. -/
def execSafeReleaseBoundary (s : State) : Host.Outcome State Fault Refusal := s.act fun s =>
  if !(s.saf.relDone && s.saf.run == .safe) then s.begin
  else
    let s := s.tickTo (nextSlot s.nt)
    let s := { s with saf := { s.saf with relDone := false } }
    let s := s.setRun (if s.par.role = .standby then .standby else .fleetStop) 4 0;
    (s.note 0x0C4 0 []).event 0x1105 []

/-! ### Rootstock itself (R414, R417) -/

/-- LOCKSTEP_MISMATCH (R414): source 0xB5 drives the safe state, and Rootstock restarts. -/
def execLockstepMismatch (dt : Nat) (s : State) : Host.Outcome State Fault Refusal := s.act fun s =>
  let s := s.tick dt;
  ({ s with saf := { s.saf with restarting := true } }).raise 0xB5

/-- SAF_SRAM_UE (R414): source 0xB9 drives the safe state, and Rootstock restarts. -/
def execSafSramUe (dt : Nat) (s : State) : Host.Outcome State Fault Refusal := s.act fun s =>
  let s := s.tick dt;
  ({ s with saf := { s.saf with restarting := true } }).raise 0xB9

/-- ROOTSTOCK_RESTART (R414): the restart has ended, and beacons go on. -/
def execRootstockRestart (dt : Nat) (s : State) : Host.Outcome State Fault Refusal := s.act fun s =>
  let s := s.tick dt;
  { s with saf := { s.saf with restarting := false } }

/-- PLANNING_HEARTBEAT (R417). -/
def execPlanningHeartbeat (dt core : Nat) (s : State) : Host.Outcome State Fault Refusal := s.act fun s =>
  let s := s.tick dt;
  { s with saf := { s.saf with beats := s.saf.beats.set core true } }

/-- PLAN_WATCHDOG (R417): a planning epoch ends; a core without heartbeat in two consecutive epochs raises 0xB6. The
watchdog keeps its count through an activation pause, which is shorter than two epochs. -/
def execPlanWatchdog (dt : Nat) (s : State) : Host.Outcome State Fault Refusal := s.act fun s =>
  let s := s.tick dt
  let beats := s.saf.beats
  let missed := (s.saf.missed.zip beats).map fun p => if p.2 then 0 else p.1 + 1
  let last := (beats.zipIdx.map fun p => if p.1 then 2 ^ p.2 else 0).foldl (· + ·) 0
  let s := { s with saf := { s.saf with missed, lastBeats := last, beats := [false, false, false, false] } };
  (missed.filter fun m => decide (2 ≤ m)).foldl (fun s _ => s.raise 0xB6) s

end Sys2Proof.Machine
end

