-- ==== Sys2Proof/Machine/TimeStep.lean ====
section
/-! DEFINITION. The step of time (R54): what it shifts, what it ends, and its row; the measurements of R49 and the loss and the
return of `REF_IN` (R46). -/
namespace Sys2Proof.Machine

/-! ### Every NT value in live state, moved by `d` ticks (R54, item 2) -/

/-- A slotframe number moved with the instant at which its slotframe began. -/
def moveSf (d : Int) (sf : Nat) : Nat := slotframeOf (ntAdd (BitVec.ofNat 64 (slotStart (50 * sf))) d).toNat

/-- An NT value that may be absent. -/
def moveOpt (d : Int) (t : Option NT) : Option NT := t.map fun x => ntAdd x d

/-- Time, capture inputs, rings, Rootstock, leaves, the pair. -/
def Dev.moveBase (s : Dev) (d : Int) : Dev :=
  let m : NT → NT := fun t => ntAdd t d
  let tim := { s.tim with lastMeas := m s.tim.lastMeas, ppsLast := moveOpt d s.tim.ppsLast, secAt := m s.tim.secAt
                          model := s.tim.model.map fun (h : HoldModel) => { h with start := m h.start, lastAt := m h.lastAt }
                          ppsChange := s.tim.ppsChange.map fun (c : PpsChange) => { c with at_ := secondAtOrAfter (m c.at_) } }
  let cap : Nat → CapInput → CapInput := fun _ c => { c with last := c.last.map fun x => (m x.1, x.2) }
  let cq : Nat → Cq → Cq := fun _ q => if q.unsig = 0 then q else { q with firstAt := m q.firstAt }
  let mir : Nat → MirrorLease → MirrorLease := fun _ x => if x.st = 0 then x else { x with rx := m x.rx }
  let k := slotOf (m s.nt).toNat + 1
  let k := if k % 50 = 0 then k + 1 else k
  let saf := { s.saf with resume := s.saf.resume.map fun (r : Resume) => { r with at_ := m r.at_ }
                          burst := s.saf.burst.map fun (b : StopBurst) => { b with at_ := m b.at_, lanes := b.lanes.map fun x => (x.1, k, x.2.2) }
                          mirror := Tab.mapListed (fun _ => {}) mir s.saf.mirror, slotAt := m s.saf.slotAt }
  let gov := { s.gov with reqs := s.gov.reqs.map fun (r : LeaveReq) => { r with asked := m r.asked, dead := m r.dead }
                          grants := s.gov.grants.map fun (g : Grant) => { g with until_ := m g.until_ } }
  let par := { s.par with hand := moveOpt d s.par.hand, take := s.par.take.map fun (t : Takeover) => { t with decided := m t.decided } }
  let ben := { s.ben with apply_ := s.ben.apply_.map fun (a : BenchApply) => { a with at_ := m a.at_ } }
  let upd := { s.upd with pauseAt := m s.upd.pauseAt, act := s.upd.act.map fun (a : Activation) => { a with at_ := m a.at_ } }
  { s with tim, caps := Tab.mapListed (fun _ => {}) cap s.caps, hif := { s.hif with cqs := Tab.mapListed (fun _ => {}) cq s.hif.cqs }
           saf, gov, par, ben, upd }

/-- A position record. -/
def PosRec.move (d : Int) (p : PosRec) : PosRec := { p with tObs := ntAdd p.tObs d, tPub := ntAdd p.tPub d }

/-- GNSS, snapshots and fleet RTK. -/
def Dev.moveGnss (s : Dev) (d : Int) : Dev :=
  let m : NT → NT := fun t => ntAdd t d
  let integ : Integ → Integ := fun x => { x with since := m x.since, badAt := m x.badAt, failAt := m x.failAt }
  let gns := { s.gns with chans := s.gns.chans.map fun (c : Chan) => { c with lock := moveOpt d c.lock }
                          calib := s.gns.calib.map fun (c : Calib) => if c.stage = 0 then c else { c with start := m c.start }
                          adoptAt := moveOpt d s.gns.adoptAt, capAt := moveOpt d s.gns.capAt
                          blSince := s.gns.blSince.map fun x => (m x.1, x.2)
                          survey := s.gns.survey.map fun (v : Survey) => { v with start := m v.start, nextAt := m v.nextAt }
                          capture := s.gns.capture.map fun (c : RawCap) => { c with at_ := m c.at_ }
                          sigs := Tab.mapListed (fun _ => {}) (fun _ x => integ x) s.gns.sigs, sta := integ s.gns.sta, held := []
                          epochAt := m s.gns.epochAt }
  let rov : Nat → Rover → Rover := fun _ r =>
    { r with at_ := moveOpt d r.at_, asked := moveOpt d r.asked, audited := moveOpt d r.audited
             pos := r.pos.map fun (p : SnapPos) => { p with t := m p.t } }
  let snp := { s.snp with rovers := Tab.mapListed (fun _ => {}) rov s.snp.rovers, localAt := moveOpt d s.snp.localAt
                          cmds := s.snp.cmds.map fun (c : SnapCmd) => { c with tStart := m c.tStart }
                          asked := s.snp.asked.map fun x => (m x.1, x.2) }
  let slot : Nat → FrkSlot → FrkSlot := fun _ x =>
    { x with newest := moveOpt d x.newest, rec_ := x.rec_.map (PosRec.move d), pos := x.pos.map (PosRec.move d)
             aid := x.aid.map (PosRec.move d), filt := { x.filt with lastProc := moveOpt d x.filt.lastProc }
             noLeaveAt := moveOpt d x.noLeaveAt, obs := x.obs.map fun o => (m o.1, o.2)
             reset := x.reset.map fun (r : RtkReset) => { r with until_ := m r.until_, nextProg := m r.nextProg }
             search := match x.search with | .running e t dr => .running e (m t) dr | y => y }
  let frk := { s.frk with slots := Tab.mapListed (fun _ => {}) slot s.frk.slots, lastWait := m s.frk.lastWait
                          queue := (s.frk.queue.filter fun (q : FrkEpoch) => q.eng.isSome).map fun q =>
                            { q with tObs := m q.tObs, rx := m q.rx, at_ := m q.at_, grid := m q.grid
                                     kept := q.kept.map fun (f : Filt) => { f with lastProc := moveOpt d f.lastProc } } }
  { s with gns, snp, frk }

/-- The Trellis, leases, transactions, control and the radio. -/
def Dev.moveFleet (s : Dev) (d : Int) : Dev :=
  let m : NT → NT := fun t => ntAdd t d
  let rob : Nat → TrlRobot → TrlRobot := fun _ r =>
    { r with proj := r.proj.map fun (p : Proj) => { p with tObs := m p.tObs }
             plan := r.plan.map fun (p : PlanStep) => { p with sf := moveSf d p.sf }
             deps := r.deps.map fun x => (x.1, moveSf d x.2), evalAt := m r.evalAt }
  let trl := { s.trl with resv := s.trl.resv.map fun (r : Resv) => { r with tin := m r.tin, tout := m r.tout, step := moveSf d r.step }
                          robots := Tab.mapListed (fun _ => {}) rob s.trl.robots, epoch := m s.trl.epoch }
  let lease : Nat → Lease → Lease := fun _ l =>
    { l with since := m l.since, rx := m l.rx, repRx := m l.repRx, zRx := m l.zRx, sentAt := m l.sentAt }
  let part : Part → Part := fun p =>
    { p with reofferAt := moveOpt d p.reofferAt, reofferApply := moveOpt d p.reofferApply, unsyncedAt := moveOpt d p.unsyncedAt }
  let txn : Txn → Txn := fun t =>
    { t with applyAt := moveOpt d t.applyAt, cNt := m t.cNt, received := m t.received, parts := t.parts.map part }
  let txu := { s.txu with leases := Tab.mapListed (fun _ => {}) lease s.txu.leases, txns := s.txu.txns.map txn, lists := []
                          round := s.txu.round.map fun (r : Round) => { r with startAt := m r.startAt } }
  let ctl := { s.ctl with sent := s.ctl.sent.map fun p => (p.1, p.2.map fun (x : SetPt) => { x with t := m x.t })
                          zeroSince := s.ctl.zeroSince.map fun p => (p.1, m p.2) }
  let mac := { s.mac with txq := s.mac.txq.map fun (f : TxFrame) => { f with from_ := m f.from_, until_ := moveOpt d f.until_ }
                          inbox := s.mac.inbox.map fun (x : RxItem) => { x with rx := m x.rx, sfd := m x.sfd }
                          changes := s.mac.changes.map fun (c : RouteChange) => { c with applyAt := m c.applyAt }
                          sends := s.mac.sends.map fun x => (x.1, m x.2) }
  { s with trl, txu, ctl, mac }

/-! ### What ends at a step -/

/-- Uncommitted transactions, a patch, armed captures and outputs, the Bench's apply, snapshots, queued epochs and searches,
queued frames but stops, and the queues of R357. -/
def Dev.stepEnds (s : Dev) : Dev :=
  let s := (s.txu.txns.filter fun (t : Txn) => t.phase = .waiting || t.phase = .staged || t.phase = .offered || t.phase = .listed).foldl
    (fun s (t : Txn) => s.abortTxn t stDeadline 0xFF true) s
  let s := s.trl.patches.foldl (fun s p => s.abortPatch p stDeadline 0xFF true) s
  let s := (s.caps.map (·.1)).foldl (fun s n => s.endCap n stTimeStepped) s
  let s := (List.range 4).foldl (fun s n => if s.flag (fOutArm n) then (s.outDisarm n).setFld (fOutCtrl n, 6, 1) 1 else s) s
  let s := (s.benchStepped).snapStepped
  let s := (s.frk.slots.map (·.1)).foldl (fun s i =>
    let x := s.frkSlot i
    let s := match x.search with
      | .asked => s.dropLeave (.largeSearch i)
      | .granted => s.returnLeave (.largeSearch i)
      | _ => s
    s.setFrkSlot i { x with search := x.search.discard, hunt := none }) s
  let s := { s with mac := { s.mac with txq := s.mac.txq.filter fun (f : TxFrame) => f.type_ == 1 } }
  ([8, 9, 10, 11, 12, 13, 16, 17, 18, 19, 20, 21, 40, 41, 42]).foldl (fun s q => s.flushQueue q) s

/-- TIME_STEP (R49, R54): at its boundary a step that is certain moves NT and everything that lives by it. -/
def execTimeStep (s : State) : Host.Outcome State Fault Refusal := s.act fun s =>
  match s.tim.step with
  | none => s.begin
  | some p =>
    let s := s.tickTo p.at_
    let d := p.delta
    let new := ntAdd p.at_ d
    let s := s.stepEnds
    let s := ((s.moveBase d).moveGnss d).moveFleet d
    let s := { s with clk := { s.clk with acc := s.clk.acc + BitVec.ofInt 96 (d * 4294967296), trim := 0, slewLeft := 0, hold := false } }
    let first := slotframeAtOrAfter (ntAdd new (msTicks 2 : Nat))
    let lane : Nat → Lane → Lane := fun _ l => { l with lastSlot := 0, beaconSf := none, startSf := none }
    let s := { s with tim := { s.tim with step := none, ntValid := true, stepAt := some new, stepBeacon := some first }
                      mac := { s.mac with silentUntil := some first, stepBeacons := 3, stepDelta := d
                                          lanes := Tab.mapListed (fun _ => {}) lane s.mac.lanes } }
    let s := ((s.setTime .acquiring).endModel).judgeQual
    let us := d.natAbs * 1000000 / tickHz;
    (s.note 0x0C5 (sat 16 us) (leBytes p.at_.toNat 8)).doneOpt p.handle stOK []

/-! ### Measurements and the reference -/

/-- TIME_MEASUREMENT (R47, R49): an offset from GNSS (0) or the partner (2), in ns. That of a `PPS_IN` edge is its own row. -/
def execTimeMeasurement (dt src : Nat) (offset : Int) (s : State) : Host.Outcome State Fault Refusal := s.act fun s =>
  let s := s.tick dt;
  (if src = 0 || src = 2 then s.measure src offset (s.station = 0) else s)

/-- REF_IN_LOSS (R46, R83): the TIME PLL holds, the correlators stop, and the source of time is lost. -/
def execRefInLoss (dt : Nat) (s : State) : Host.Outcome State Fault Refusal := s.act fun s =>
  let s := s.tick dt
  if !s.pll.refOk then s
  else
    let s := ({ s with pll := { s.pll with refOk := false, time := false, hold := true } }).corrLost;
    (s.sourceLost.rebase true).raiseLevel 0x04

/-- REF_IN_RETURN (R46): the PLL relocks, and the model's own frequency term returns. -/
def execRefInReturn (dt : Nat) (s : State) : Host.Outcome State Fault Refusal := s.act fun s =>
  let s := s.tick dt
  if s.pll.refOk then s
  else (({ s with pll := { s.pll with refOk := true, time := true, hold := false } }).rebase false).fallLevel 0x04

end Sys2Proof.Machine
end

