-- ==== Sys2Proof/Machine/Upd.lean ====
section
/-! DEFINITION. The rows of the update engine (R471-R495): headers and pieces from the host and from the air, their writing to
flash, verification, activation and its pause, confirmation and revert. -/
namespace Sys2Proof.Machine

/-! ### Headers and pieces from the host -/

/-- A header is refused: event 0x1402 tells its source, 1 host and 2 air (R478, R493). -/
def Dev.hdrRefused (s : Dev) (src code : Nat) : Dev := s.event 0x1402 (leBytes src 1 ++ [0] ++ leBytes code 2)

/-- UPD_HEADER (R478-R480), in every run state. -/
def execUpdHeader (h : Nat) (data : Option (List Byte)) (s : State) : Host.Outcome State Fault Refusal := s.act fun s =>
  s.command h 0xB0 fun l s =>
    match data with
    | none => s.refuse h stDma none
    | some b =>
      match s.hdrBad b with
      | some (code, o) =>
        let s := s.hdrRefused 1 code
        match o with | some o => s.refuse h code (some o) | none => s.done h code []
      | none =>
        let x := readHdr b
        match s.hdrVerdict x (bitAt (l.p 0 1) 0) with
        | .refused code res => (s.hdrRefused 1 code).done h code res
        | v => s.acceptHdr x none (some h) v

/-- One record of `UPD_PIECES` (R481). -/
def Dev.pieceRec (s : Dev) (b : List Byte) : PieceRes × Dev :=
  s.piece (leAt b 8 4) (leAt b 0 4) (leAt b 4 4) (leAt b 12 4 == 0) (b.drop 16)

/-- UPD_PIECES (R481, R482): it never fails on a single record. -/
def execUpdPieces (h : Nat) (data : Option (List Byte)) (s : State) : Host.Outcome State Fault Refusal := s.act fun s =>
  s.command h 0xB1 fun l s =>
    match s.download with
    | none => s.done h stNoDownload []
    | some d =>
      let n := l.p 0 2
      let k := 16 + d.hdr.psize
      if l.len ≠ n * k then s.refuse h stBadLen (some 16)
      else match data with
        | none => s.refuse h stDma none
        | some b =>
          let (rs, s) := (List.range n).foldl (fun (a : List PieceRes × Dev) j =>
            let (r, s) := a.2.pieceRec (slice (b.drop (k * j)) 0 k)
            (r :: a.1, s)) ([], s)
          let num (r : PieceRes) : List Byte := leBytes (rs.filter (· == r)).length 2
          s.askSectors.done h stOK (num .new_ ++ num .dup ++ num .bad ++ num .stale ++ num .conflict)

/-! ### From the air (R483) -/

/-- A complete header from a gateway. -/
def Dev.airHeader (s : Dev) (gw : Nat) (b : List Byte) : Dev :=
  let refuse : Nat → Dev := fun code =>
    let s := s.hdrRefused 2 code
    if s.download.isSome then s.putUpd { s.upd with needNow := some gw } else s
  match s.hdrBad b with
  | some (code, _) => refuse code
  | none =>
    let x := readHdr b
    match s.hdrVerdict x (s.flag (0x14014, 28, 1)) with
    | .refused code _ => refuse code
    | v => s.acceptHdr x (some gw) none v

/-- A header part; a part that differs from one held voids the assembly. -/
def Dev.headerPart (s : Dev) (gw tag off : Nat) (b : List Byte) : Dev :=
  if 512 < off + b.length then s
  else
    let old := match s.upd.hasm with | some a => if a.tag = tag then a.parts else [] | none => []
    if old.any (partsDiffer (off, b)) then s.putUpd { s.upd with hasm := none }
    else
      let parts := (off, b) :: old
      let whole := joinParts parts
      if 512 ≤ whole.length then ({ s with upd := { s.upd with hasm := none } }).airHeader gw whole
      else s.putUpd { s.upd with hasm := some { tag, parts } }

/-- A piece part: the piece is judged by R482 once every byte has come. -/
def Dev.piecePart (s : Dev) (tag idx off crc : Nat) (b : List Byte) : Dev :=
  match s.download with
  | none => s
  | some d =>
    if tag ≠ d.hdr.tag then s
    else if d.hdr.count ≤ idx || d.hdr.psize < off + b.length then s.cntSat (0x14058, 16, 16)
    else
      let rest := s.upd.asm_.filter fun a => a.idx != idx
      let old : List PieceAsm := s.upd.asm_.filter fun a => a.idx == idx
      let parts := old.flatMap (·.parts)
      if (old.any fun a => a.crc != crc) || parts.any (partsDiffer (off, b)) then s.putUpd { s.upd with asm_ := rest }
      else
        let parts := (off, b) :: parts
        let whole := joinParts parts
        if d.hdr.psize ≤ whole.length then ((s.putUpd { s.upd with asm_ := rest }).piece tag idx crc true whole).2.askSectors
        else s.putUpd { s.upd with asm_ := rest ++ [{ idx, crc, parts }] }

/-- CUTTING (R483): the next waiting frame of a gateway. A payload that breaks R483 is ignored. -/
def execCutting (dt : Nat) (s : State) : Host.Outcome State Fault Refusal := s.act fun s =>
  let s := s.tick dt
  match s.takeItem fun (x : RxItem) => x.q == 27 with
  | none => s
  | some (m, s) =>
    let p := slice (m.frame.drop 22) 0 (frLen m.frame)
    let n := leAt p 14 2
    let b := p.drop 20
    let kind := leAt p 0 1 / 16
    if !s.isGateway (frSrc m.frame) || leAt p 0 1 % 16 ≠ 1 || leAt p 1 3 ≠ 0 || n = 0 || 346 < n || b.length ≠ n then s
    else if kind = 1 then s.headerPart (frSrc m.frame) (leAt p 4 4) (leAt p 12 2) b
    else if kind = 2 then s.piecePart (leAt p 4 4) (leAt p 8 4) (leAt p 12 2) (leAt p 16 4) b
    else s

/-- Ranges of pieces not yet committed, in ascending order (R483). -/
def FlashDl.ranges (d : FlashDl) : List (Nat × Nat) :=
  let todo := (List.range d.hdr.sectors).filter fun n => !d.sectors.contains n
  (todo.foldl (fun (acc : List (Nat × Nat)) n =>
    let (f, k) := d.hdr.piecesOf n
    match acc with
    | (g, c) :: t => if g + c = f then (g, c + k) :: t else (f, k) :: acc
    | [] => [(f, k)]) []).reverse

/-- A need list to a gateway (R483), unless nothing is needed. -/
def Dev.sendNeed (s : Dev) (gw : Nat) (d : FlashDl) : Dev :=
  let l := d.ranges.take 42
  if l.isEmpty then s
  else
    let body := leBytes (1 + 16 * 3) 1 ++ [0, 0, 0] ++ leBytes d.hdr.tag 4 ++ leBytes 0 4 ++ leBytes 0 2 ++ leBytes l.length 2 ++
      leBytes 0 4 ++ l.flatMap fun r => leBytes r.1 4 ++ leBytes r.2 4
    s.queueTo gw { type_ := 10, dst := gw, body, lane := 0, prio := 5 }

/-- NEED_LIST (R483): every `NEED_PERIOD` of an air download, and within 1 s of a refusal. -/
def execNeedList (dt : Nat) (s : State) : Host.Outcome State Fault Refusal := s.act fun s =>
  match s.upd.needNow, s.download with
  | some gw, some d =>
    let s := s.tick dt;
    (s.putUpd { s.upd with needNow := none }).sendNeed gw d
  | _, some d =>
    match d.air with
    | none => s.begin
    | some gw =>
      let s := s.tickUp (s.upd.needAt + s.fld (0x14014, 12, 8) * cycHz);
      (s.putUpd { s.upd with needAt := s.up }).sendNeed gw d
  | _, none => (s.putUpd { s.upd with needNow := none }).begin

/-! ### Flash (R480) -/

/-- HEADER_STORED (R480): sector 0 of the bank that does not run is erased and the header written; `ok` false: it fails twice,
and the spec gives its command no status (a free value). -/
def execHeaderStored (dt : Nat) (ok : Bool) (s : State) : Host.Outcome State Fault Refusal := s.act fun s =>
  let s := s.tick dt
  match s.upd.wait with
  | none => s
  | some w =>
    if !w.granted || s.dry.pfw then s
    else
      let s := (s.putUpd { s.upd with wait := none }).returnLeave .flashHeader
      let b := w.hdr.sub
      if (s.sel b).trial then w.handles.foldl (fun s h => s.done h stTrialPending []) s
      else
        let k := 1 - (s.sel b).bank
        let s := ((s.dropDownload).setDownload none).setBank b k { hdr := w.hdr, whole := false }
        if !ok then
          let (code, s) := s.draw 16
          w.handles.foldl (fun s h => s.done h code []) (s.failDownload w.hdr k)
        else
          let s := s.setDownload (some { hdr := w.hdr, bank := k, air := w.air })
          let s := s.putUpd { s.upd with failed := none, ended := false, lastPiece := s.up, needAt := s.up }
          w.handles.foldl (fun s h => s.done h stOK []) s

/-- SECTOR_COMMIT_DONE (R480): the sector whose leave runs longest; `fails` counts the failures, of which one is retried. -/
def execSectorCommitDone (dt fails : Nat) (s : State) : Host.Outcome State Fault Refusal := s.act fun s =>
  let s := s.tick dt
  match s.upd.running, s.download with
  | n :: rest, some d =>
    if s.dry.pfw then s
    else
      let s := (s.putUpd { s.upd with running := rest }).returnLeave (.flashSector n)
      let s := if 0 < fails then s.cntSat (0x1405C, 16, 16) else s
      if 2 ≤ fails then s.failDownload d.hdr d.bank
      else
        let (f, k) := d.hdr.piecesOf n
        let mine : Nat × List Byte → Bool := fun p => decide (f ≤ p.1 ∧ p.1 < f + k)
        let d := { d with sectors := d.sectors ++ [n], pieces := d.pieces ++ s.upd.held.filter mine }
        let s := (s.putUpd { s.upd with held := s.upd.held.filter fun p => !mine p }).setDownload (some d);
        (if d.complete then s.event 0x1401 (leBytes d.hdr.sub 1 ++ [0, 0, 0] ++ leBytes d.hdr.ver 4) else s)
  | _, _ => s

/-! ### Verification (R484) -/

/-- UPD_VERIFY (R484). -/
def execUpdVerify (h : Nat) (s : State) : Host.Outcome State Fault Refusal := s.act fun s =>
  s.command h 0xB2 fun l s =>
    if s.upd.verify.isSome then s.refuse h stBusy none
    else match s.download with
      | none => s.done h stNoDownload []
      | some d =>
        if d.hdr.sub ≠ l.p 0 1 then s.done h stNoDownload []
        else if !d.complete then s.done h stIncomplete []
        else s.putUpd { s.upd with verify := some h }

/-- VERIFY_DONE (R484): `sound` false where flash does not read back as it was written. -/
def execVerifyDone (dt : Nat) (sound : Bool) (s : State) : Host.Outcome State Fault Refusal := s.act fun s =>
  let s := s.tick dt
  match s.upd.verify, s.download with
  | some h, some d =>
    let s := s.putUpd { s.upd with verify := none }
    if sound && sha256 d.body == d.hdr.hash then (s.setDownload (some { d with verified := true })).done h stOK []
    else ({ s.dropDownload with upd := { s.dropDownload.upd with ended := true } }).done h stImgHash []
  | _, _ => s

/-! ### Activation (R485, R486) -/

/-- Run states in which an activation is accepted (R485). -/
def Dev.activates (s : Dev) (b : Nat) : Bool :=
  match s.saf.run with
  | .fleetStop | .standby => true
  | .boot => s.upd.hold
  | .run | .safe => b != 5
  | _ => false

/-- UPD_ACTIVATE (R485): the body is loaded and its hash checked again (`ok`: flash reads back as it was written), the selector written, and the pause waits for its
alignment point. In boot hold the boot starts again. -/
def execUpdActivate (h : Nat) (ok : Bool) (s : State) : Host.Outcome State Fault Refusal := s.act fun s =>
  s.command h 0xB3 fun l s =>
    let b := l.p 0 1
    if !s.activates b || s.upd.act.isSome then s.refuse h stBusy none
    else match s.download.filter fun (d : FlashDl) => d.hdr.sub == b && d.verified with
      | none => s.done h stNotVerified []
      | some d =>
        if !(ok && sha256 d.body == d.hdr.hash) then s.done h stImgHash []
        else
          let old := (s.sel b).bank
          let s := s.setBank b d.bank { hdr := d.hdr }
          let s := s.setSel b { bank := d.bank, trial := true, rejOther := (s.bank b old).rejected, ver := d.hdr.ver }
          if s.saf.run = .boot then
            (s.bootImages (s.upd.bad.filter fun x => x != (b, d.bank))).done h stOK []
          else s.putUpd { s.upd with act := some { sub := b, handle := some h, revert := false, bank := d.bank, ver := d.hdr.ver, at_ := s.nt }
                                     armed := some b }

/-- The alignment point of a pause (R486), the first one from now on. The planning pause is that of an epoch that begins after
the activation was accepted. -/
def Dev.alignAt (s : Dev) (a : Activation) : NT :=
  match a.sub with
  | 1 =>
    let from_ := if ntAfter (nextSlotframe a.at_) s.nt then nextSlotframe a.at_ else s.nt
    let c : NT := BitVec.ofNat 64 (slotStart (50 * slotframeOf from_.toNat))
    let p := ntAdd c (usTicks 1500 : Nat)
    if ntReached p from_ then p else ntAdd (nextSlotframe from_) (usTicks 1500 : Nat)
  | 2 => nextEpoch s.epochHz s.nt
  | 3 =>
    let k := slotOf s.nt.toNat
    BitVec.ofNat 64 (slotStart (if k % 50 < 3 then k - k % 50 + 3 else k - k % 50 + 53))
  | 4 => nextSlot s.nt
  | _ => nextSlotframe s.nt

/-- ACTIVATION_PAUSE_START (R486, R487): at its alignment point; in RUN and FLEET_STOP the run state becomes UPDATE_PAUSE. -/
def execActivationPauseStart (s : State) : Host.Outcome State Fault Refusal := s.act fun s =>
  let s := s.begin.tryRevert
  match s.upd.act, s.upd.pause with
  | some a, none =>
    let t := s.alignAt a
    let o := s.out
    let s := { s.tickTo t with out := o }
    let s := s.putUpd { s.upd with pause := some a.sub, armed := none, pauseAt := s.nt, pauseUp := s.up };
    (if s.saf.run = .run || s.saf.run = .fleetStop then s.setRun .updatePause 1 0 else s)
  | _, _ => s

/-- The pause ends: the new image runs, the run state returns, what the pause held goes on (R392, R401, R509), and
fault windows frozen by it run on (R440). -/
def Dev.endPause (s : Dev) (a : Activation) : Dev :=
  let s := s.runImage a.sub
  let d := s.up - s.upd.pauseUp
  let thaw : Nat → Src → Src := fun _ x => { x with times := x.times.map (· + d) }
  let s := if s.upd.pause = some 5 then { s with flt := { s.flt with srcs := Tab.mapListed (fun _ => {}) thaw s.flt.srcs } } else s
  let s := s.putUpd { s.upd with pause := none, act := none }
  let s := match s.saf.run, s.saf.pausedFrom with
    | .updatePause, some r => let s := s.setRun r 1 0; if r = RunState.run then s.askReplan else s
    | _, _ => s
  (s.judgeHeld.benchAfterPause).judgeTake

/-- ACTIVATION_PAUSE_END (R485, R486). -/
def execActivationPauseEnd (dt : Nat) (s : State) : Host.Outcome State Fault Refusal := s.act fun s =>
  let s := s.tick dt
  match s.upd.act, s.upd.pause with
  | some a, some _ =>
    let us := ntSince s.nt s.upd.pauseAt * 1000000 / tickHz
    let s := s.endPause a
    if a.revert then s.tryRevert
    else
      let mine := match s.nv.upd.dl with | some d => d.hdr.sub == a.sub && d.bank == a.bank | none => false
      let s := if mine then s.dropDownload.setDownload none else s
      let s := s.putUpd { s.upd with pauses := Tab.set (fun _ => 0) s.upd.pauses a.sub (sat 8 (us / 100)) }
      let s := (s.doneOpt a.handle stOK []).event 0x1404 (leBytes a.sub 1 ++ [0, 0, 0] ++ leBytes us 4)
      s.tryRevert
  | _, _ => s

/-! ### Trials (R487, R488) -/

/-- A trial that counts: its subsystem and the `up` at which it runs out. -/
def Dev.trials (s : Dev) : List (Nat × Nat) :=
  ([1, 2, 3, 4, 5].filter fun b => (s.sel b).trial && !s.upd.due.contains b &&
      (Tab.get (fun _ => (0, 0)) s.upd.running_ b).1 == (s.sel b).bank && (match s.upd.act with | some a => a.sub != b | none => true)).map fun b =>
    (b, Tab.get (fun _ => 0) s.upd.since b + 600 * cycHz * s.fld (0x14014, 0, 12))

/-- TRIAL_TIME_EXPIRY (R487): the trial that runs out first; 0 disables the limit. Its revert begins at once or waits. -/
def execTrialTimeExpiry (s : State) : Host.Outcome State Fault Refusal := s.act fun s =>
  if s.fld (0x14014, 0, 12) = 0 then s.begin
  else match s.trials with
    | [] => s.begin
    | x :: t =>
      let m := t.foldl (fun (a b : Nat × Nat) => if b.2 < a.2 then b else a) x
      let s := (s.tickUp m.2).raise 0x26;
      (s.putUpd { s.upd with due := s.upd.due ++ [m.1] }).tryRevert

/-- UPD_CONFIRM (R487, R488): the trial ends well, the rollback floor rises, and the keys the image names are revoked. -/
def execUpdConfirm (h : Nat) (s : State) : Host.Outcome State Fault Refusal := s.act fun s =>
  s.command h 0xB4 fun l s =>
    let b := l.p 0 1
    let x := s.sel b
    if !x.trial || s.upd.due.contains b then s.done h stOK []
    else
      let i := s.bank b x.bank
      let s := s.setSel b { x with trial := false, boots := 0 }
      let s := s.putFlash { s.nv.upd with floors := Tab.set (fun _ => 0) s.nv.upd.floors b (max (s.floorOf b) i.hdr.sec) }
      let s := { s with fuse := { s.fuse with keys := s.fuse.keys ||| (16 * (i.hdr.revoke % 16)) } }
      s.done h stOK []

/-- The download state of R491. -/
def Dev.dlState (s : Dev) : Nat :=
  if s.upd.failed.isSome then 4
  else match s.download with
    | none => 0
    | some d => if d.verified then 3 else if d.complete then 2 else 1

/-- UPD_STATUS (R491). -/
def execUpdStatus (h : Nat) (s : State) : Host.Outcome State Fault Refusal := s.act fun s =>
  s.command h 0xB5 fun l s =>
    let b := l.p 0 1
    let x := s.sel b
    let r := Tab.get (fun _ => (0, 0)) s.upd.running_ b
    let hdr := s.upd.failed.or (s.download.map (·.hdr))
    s.done h stOK (leBytes s.dlState 1 ++ leBytes (match hdr with | some d => d.sub | none => 0) 1 ++
      leBytes (r.1 + 2 * b2n x.trial + 4 * b2n x.rejOther) 1 ++ leBytes x.boots 1 ++ leBytes r.2 4 ++
      leBytes (match hdr with | some d => d.ver | none => 0) 4 ++ leBytes (match s.download with | some d => d.left | none => 0) 4)

end Sys2Proof.Machine
end

