-- ==== Sys2Proof/Machine/System.lean ====
section
/-! DEFINITION. Power, reset and boot (R26-R28, R429, R460, R475, R476, R519-R522), and the resets of the host interface (R367). -/
namespace Sys2Proof.Machine

/-! ### Resets of the host interface (R367) -/

/-- Does a command that has not begun need host memory? -/
def needsHost (l : Live) : Bool := !l.started && (match catalog l.op with | some c => c.d0 != .none | none => false)

/-- What ends with the host memory it reads or writes: streams, armed captures, raw captures, a survey's output, snapshot
submissions, and commands whose data has not been read. Everything else runs on without a voice. -/
def Dev.hostLost (s : Dev) : Dev :=
  let s := s.resetHif
  let cap : Nat → CapInput → CapInput := fun _ c => { c with arm := none, buf := [] }
  let ofHost : Snap → Bool := fun x => match x.src with | .host _ _ => true | _ => false
  let batches := (s.snp.batches.map fun (b : Batch) => { b with snaps := b.snaps.filter fun x => !ofHost x }).filter fun (b : Batch) => !b.snaps.isEmpty
  let gone : Work → Bool := fun w => match w with
    | .snpBatch id => !(batches.any fun (b : Batch) => b.id == id)
    | _ => false
  let gns := { s.gns with stream := none, streamNext := none, capture := none
                          survey := s.gns.survey.filter fun (v : Survey) => !v.out }
  let s := { s with caps := Tab.mapListed (fun _ => {}) cap s.caps, gns, snp := { s.snp with batches, cmds := [], demand := s.snp.demand.filter fun d => match d with | .snap x => !ofHost x | _ => true }
                    gov := { s.gov with reqs := s.gov.reqs.filter fun r => !gone r.work, grants := s.gov.grants.filter fun g => !gone g.work } }
  s.setLive (s.hif.live.filter fun l => !needsHost l)

/-- LINK_DOWN (R367). -/
def execLinkDown (dt : Nat) (s : State) : Host.Outcome State Fault Refusal := s.act fun s =>
  let s := s.tick dt;
  { s.hostLost with hif := { s.hostLost.hif with linkUp := false } }

/-- FUNCTION_LEVEL_RESET (R367). -/
def execFunctionLevelReset (dt : Nat) (s : State) : Host.Outcome State Fault Refusal := s.act fun s => (s.tick dt).hostLost

/-- PE_PERST_N (R367). -/
def execPePerstN (dt : Nat) (s : State) : Host.Outcome State Fault Refusal := s.act fun s =>
  let s := s.tick dt;
  { s.hostLost with hif := { s.hostLost.hif with linkUp := false } }

/-- D3HOT_ENTRY (R367). -/
def execD3hotEntry (dt : Nat) (s : State) : Host.Outcome State Fault Refusal := s.act fun s =>
  let s := s.tick dt;
  { s.hostLost with hif := { s.hostLost.hif with d0 := false } }

/-! ### Reset and power -/

/-- The levels that reset leaves as they are: pins that others drive. -/
def Axis.pins (a : Axis) : Axis := { inP := a.inP, inN := a.inN, inH := a.inH }

/-- Every domain but AON at its reset values (R522): what outlives it is flash, the fuses, the operating time, the last-word
registers, and the parts retired until power-on. `power` ends those too. -/
def Dev.afterReset (s : Dev) (power : Bool) : Dev :=
  let keep : Rank → Rank := fun r => { retired := r.retired && !power }
  let dry : Dry := { sound0 := power || s.dry.sound0, sound1 := power || s.dry.sound1, lws := s.dry.lws, lwNext := s.dry.lwNext
                     lwSeq := s.dry.lwSeq, seq := if power then 0 else s.dry.seq }
  let tdc : Tdc := if power then {} else { failed := s.tdc.failed, uncal := s.tdc.uncal }
  { fuse := s.fuse, clk := { up := s.clk.up, aon := s.clk.aon }, tdc, regs := Tab.set resetReg [] 0x13018 (s.reg 0x13018)
    saf := { inA := s.saf.inA, inB := s.saf.inB, dpAt := s.clk.up + 10 * cycHz }, dry, par := { tokenIn := s.par.tokenIn }
    mem := { rank0 := keep s.mem.rank0, rank1 := keep s.mem.rank1 }, axes := Tab.mapListed (fun _ => {}) (fun _ a => a.pins) s.axes
    nv := s.nv, free := s.free }

/-- What the stop outputs pass where `VDD_SAF` rises before `VDDIO_B5` is in range (R520): on each a high pulse of 0 to 5 us, whose
length is open. -/
def Dev.stopGlitch (s : Dev) : Dev :=
  let (a, s) := s.draw 32
  let (b, s) := s.draw 32
  let put (ch : Bool) (ns : Nat) (s : Dev) : Dev := if ns = 0 then s else s.emit (.stopPulse ch ns)
  put true (b % 5001) (put false (a % 5001) s)

/-- POWER_ON (R26, R448, R519, R520): the power-cycle count rises when `VDD_AON` had been lost. `safFirst` tells that `VDD_SAF` rose
through 0.4 V before `VDDIO_B5` was in range. -/
def execPowerOn (safFirst : Bool) (s : State) : Host.Outcome State Fault Refusal := s.act fun s =>
  let s := s.begin
  if s.saf.run ≠ .off then s
  else
    let s := s.afterReset true
    let s := if safFirst then s.stopGlitch else s
    if s.clk.aon then s
    else
      let n := (s.nv.pcycle + 1) % 2 ^ 32
      let s := { s with clk := { aon := true }, nv := { s.nv with pcycle := n } }
      s.setReg 0x13018 (BitVec.ofNat 32 n)

/-- POWER_REMOVED (R26, R462): OFF; the loss of `VDD_AON` also clears the last-word registers. -/
def execPowerRemoved (aonLost : Bool) (s : State) : Host.Outcome State Fault Refusal := s.act fun s =>
  let s := s.afterReset true
  let s := { s with saf := { s.saf with run := .off } }
  if !aonLost then s
  else ({ s with clk := { aon := false }, dry := { s.dry with lws := [], lwNext := 0, lwSeq := 0 } }).setReg 0x13018 0

/-- RST_N_ASSERT (R522): a low pulse shorter than 100 ns is ignored, one of 1 us resets, and what one between does is open. -/
def execRstNAssert (dt lowNs : Nat) (s : State) : Host.Outcome State Fault Refusal := s.act fun s =>
  let s := s.tick dt
  if s.saf.run = .off || lowNs < 100 then s
  else
    let (free, s) := if lowNs < 1000 then s.draw 1 else (1, s)
    if free = 0 then s else s.afterReset false

/-- A slot comes up as its disposition says (R28), under the epoch last issued (R14). DESIGN CHOICE (log entry 106): the record keeps
no class, key index, report interval or area, so a re-admission offer to a zombie of this lease (R24) names class 0, key 0,
200 ms and the area (0, 0, 0). -/
def Dev.bootLease (s : Dev) (i : Nat) (d : Disp) : Dev :=
  let l : Lease := { st := if d.kind = 0 then .unknown else .released, epoch := d.epoch, uid := d.uid, bound := d.kind != 0
                     parked := d.kind == 2, unplaced := d.kind == 3 }
  let s := s.setLease i l
  if d.kind ≠ 2 then s
  else { s with trl := { s.trl with pendingFp := s.trl.pendingFp ++ [{ slot := i, graphId := d.graphId, ents := d.ents }] } }

/-- A rank is trained, or left out as if retired (R512). -/
def bootRank (r : Rank) (there trained : Bool) (blocks used : Nat) : Rank :=
  if !there then r else if trained then { r with present := true, blocks, used } else { r with present := true, retired := true, blocks }

/-- RST_N_RELEASE (R475): NT is 0, the PLLs lock, the ROM chooses the images, and the diary, the role, the leases and the frame
counter come back from flash. -/
def execRstNRelease (dt : Nat) (boot : BootFacts) (s : State) : Host.Outcome State Fault Refusal := s.act fun s =>
  let s := s.tick dt
  if s.saf.run ≠ .boot || s.saf.released then s
  else
    let pll : Pll := { core := true, corr := true, time := true, saf := true, dram := true, pcie := true, sgmii := true, refOk := true }
    let dry := loadDiary s.nv.dry s.dry (s.dry.sound0 && boot.region0) (s.dry.sound1 && boot.region1) boot.badRecs s.up
    let pc := (s.reg 0x13018).toNat
    let first := s.nv.dry.caps.any fun p => p.1 == 0 && p.2.at_.pc == pc
    let fcnt := match s.nv.fcnt with | some m => (m + 0x100000) % 2 ^ 48 | none => 0
    let s := { s with clk := { up := s.clk.up, aon := s.clk.aon }, tdc := { s.tdc with since := s.clk.up }, pll, dry, saf := { s.saf with released := true }
                      mem := { s.mem with rank0 := bootRank s.mem.rank0 true boot.rank0 boot.blocks boot.used0
                                          rank1 := bootRank s.mem.rank1 (decide (boot.ranks = 2)) boot.rank1 boot.blocks boot.used1, patrol := true, patrolAt := s.clk.up }
                      gns := { s.gns with capNext := if first then 1 else 0, engine := 1 }, mac := { s.mac with fcnt }
                      par := { s.par with role := s.nv.role } }
    let s := s.nv.disp.foldl (fun s p => s.bootLease p.1 p.2) s
    s.bootImages boot.badImages

/-- BOOT_END (R419, R427, R429, R475, R497): the collector is initialised, with the power-on latches as its first causes; the device
enters SAFE, STANDBY or FLEET_STOP. In boot hold it accepts the commands of R476 and stays. -/
def execBootEnd (dt : Nat) (s : State) : Host.Outcome State Fault Refusal := s.act fun s =>
  let s := s.tick dt
  if s.saf.run ≠ .boot || !s.saf.released then s
  else
    let s := { s with hif := { s.hif with ready := true, fed := s.up } }
    if s.upd.hold then s
    else
      let cause := s.saf.bootSafe
      let s := { s with saf := { s.saf with initDone := true, bootSafe := none } }
      let s := match cause with
        | some (src, direct) => s.enterSafe src direct 6
        | none => s.setRun (if s.par.role = Role.standby then RunState.standby else RunState.fleetStop) 6 0
      let s := if s.saf.latchA then s.raiseLevel 0xB0 else s;
      (if s.saf.latchB then s.raiseLevel 0xB1 else s)

end Sys2Proof.Machine
end

