-- ==== Sys2Proof/Machine/Dispatch.lean ====
section
/-! DEFINITION. The dispatch: one arm per command, each a direct call of its meaning. -/
namespace Sys2Proof.Machine

/-- The effect of one command on everything but the queue. -/
def exec (i : Instr) (s : State) : Host.Outcome State Fault Refusal :=
  match i with
  | .powerOn safFirst => Sys2Proof.Machine.execPowerOn safFirst s
  | .rstNAssert dt lowNs => Sys2Proof.Machine.execRstNAssert dt lowNs s
  | .rstNRelease dt boot => Sys2Proof.Machine.execRstNRelease dt boot s
  | .bootEnd dt => Sys2Proof.Machine.execBootEnd dt s
  | .slotBoundary => Sys2Proof.Machine.execSlotBoundary s
  | .wholeNtSecond dac => Sys2Proof.Machine.execWholeNtSecond dac s
  | .timeMeasurement dt src offset => Sys2Proof.Machine.execTimeMeasurement dt src offset s
  | .lossTimeExpiry => Sys2Proof.Machine.execLossTimeExpiry s
  | .refInLoss dt => Sys2Proof.Machine.execRefInLoss dt s
  | .refInReturn dt => Sys2Proof.Machine.execRefInReturn dt s
  | .timeStep => Sys2Proof.Machine.execTimeStep s
  | .ppsInEdge dt sub rising => Sys2Proof.Machine.execPpsInEdge dt sub rising s
  | .leapSecond => Sys2Proof.Machine.execLeapSecond s
  | .tdcRecalibration ok => Sys2Proof.Machine.execTdcRecalibration ok s
  | .tdcColdCalDone dt => Sys2Proof.Machine.execTdcColdCalDone dt s
  | .ppsPulse => Sys2Proof.Machine.execPpsPulse s
  | .ppsEnWrite dt v => Sys2Proof.Machine.execPpsEnWrite dt v s
  | .ppsChange => Sys2Proof.Machine.execPpsChange s
  | .timeCaptureEdge dt input sub rising => Sys2Proof.Machine.execTimeCaptureEdge dt input sub rising s
  | .captureStart input => Sys2Proof.Machine.execCaptureStart input s
  | .captureEnd input => Sys2Proof.Machine.execCaptureEnd input s
  | .timCapnLoRead n => Sys2Proof.Machine.execTimCapnLoRead n s
  | .timNtLoRead => Sys2Proof.Machine.execTimNtLoRead s
  | .bar4NtRead => Sys2Proof.Machine.execBar4NtRead s
  | .outputArm dt n v => Sys2Proof.Machine.execOutputArm dt n v s
  | .outputCancel dt n v => Sys2Proof.Machine.execOutputCancel dt n v s
  | .timedOutputFire n => Sys2Proof.Machine.execTimedOutputFire n s
  | .spClkLoss dt p => Sys2Proof.Machine.execSpClkLoss dt p s
  | .spClkReturn dt p => Sys2Proof.Machine.execSpClkReturn dt p s
  | .spClkCheck dt p ppb toggled hist => Sys2Proof.Machine.execSpClkCheck dt p ppb toggled hist s
  | .spStuck dt p => Sys2Proof.Machine.execSpStuck dt p s
  | .feSpiGo dt v => Sys2Proof.Machine.execFeSpiGo dt v s
  | .feSpiDone dt v => Sys2Proof.Machine.execFeSpiDone dt v s
  | .feSpiTimeout dt => Sys2Proof.Machine.execFeSpiTimeout dt s
  | .gnssEpoch f => Sys2Proof.Machine.execGnssEpoch f s
  | .calibrationDue => Sys2Proof.Machine.execCalibrationDue s
  | .calNow dt v => Sys2Proof.Machine.execCalNow dt v s
  | .calibrationDone dt res => Sys2Proof.Machine.execCalibrationDone dt res s
  | .grpRetire dt v => Sys2Proof.Machine.execGrpRetire dt v s
  | .correlatorParityError dt g => Sys2Proof.Machine.execCorrelatorParityError dt g s
  | .corrRelock dt => Sys2Proof.Machine.execCorrRelock dt s
  | .surveyProgress werr => Sys2Proof.Machine.execSurveyProgress werr s
  | .surveyTimeout => Sys2Proof.Machine.execSurveyTimeout s
  | .rawCaptureStart => Sys2Proof.Machine.execRawCaptureStart s
  | .rawCaptureDone samples werr => Sys2Proof.Machine.execRawCaptureDone samples werr s
  | .localSnapshot samples => Sys2Proof.Machine.execLocalSnapshot samples s
  | .snapshotPiece dt => Sys2Proof.Machine.execSnapshotPiece dt s
  | .snapshotIncomplete => Sys2Proof.Machine.execSnapshotIncomplete s
  | .batchClose => Sys2Proof.Machine.execBatchClose s
  | .snapshotResult dt f werr => Sys2Proof.Machine.execSnapshotResult dt f werr s
  | .auditRequest => Sys2Proof.Machine.execAuditRequest s
  | .recheckRequest rb => Sys2Proof.Machine.execRecheckRequest rb s
  | .rawObs dt => Sys2Proof.Machine.execRawObs dt s
  | .engineDispatch dt => Sys2Proof.Machine.execEngineDispatch dt s
  | .positionRecord dt eng => Sys2Proof.Machine.execPositionRecord dt eng s
  | .epochSkip => Sys2Proof.Machine.execEpochSkip s
  | .overloadEnd => Sys2Proof.Machine.execOverloadEnd s
  | .largeSearchDone dt eng => Sys2Proof.Machine.execLargeSearchDone dt eng s
  | .largeSearchAbandon eng => Sys2Proof.Machine.execLargeSearchAbandon eng s
  | .engineFault dt eng => Sys2Proof.Machine.execEngineFault dt eng s
  | .frkRetire dt v => Sys2Proof.Machine.execFrkRetire dt v s
  | .rtkResetProgress rb => Sys2Proof.Machine.execRtkResetProgress rb s
  | .rtkResetTimeout rb => Sys2Proof.Machine.execRtkResetTimeout rb s
  | .planningEpoch work served late => Sys2Proof.Machine.execPlanningEpoch work served late s
  | .handOff => Sys2Proof.Machine.execHandOff s
  | .planDeadline => Sys2Proof.Machine.execPlanDeadline s
  | .graphLoadDone dt => Sys2Proof.Machine.execGraphLoadDone dt s
  | .patchValidationEnd dt => Sys2Proof.Machine.execPatchValidationEnd dt s
  | .patchApply => Sys2Proof.Machine.execPatchApply s
  | .report dt => Sys2Proof.Machine.execReport dt s
  | .leaseSuspect rb => Sys2Proof.Machine.execLeaseSuspect rb s
  | .leaseDead rb => Sys2Proof.Machine.execLeaseDead rb s
  | .tStopped rb => Sys2Proof.Machine.execTStopped rb s
  | .admitTimeout rb => Sys2Proof.Machine.execAdmitTimeout rb s
  | .zombieSilence rb => Sys2Proof.Machine.execZombieSilence rb s
  | .admitOfferRepeat rb => Sys2Proof.Machine.execAdmitOfferRepeat rb s
  | .confirmRepeat rb => Sys2Proof.Machine.execConfirmRepeat rb s
  | .claim dt => Sys2Proof.Machine.execClaim dt s
  | .cfgAck dt => Sys2Proof.Machine.execCfgAck dt s
  | .txnValidationEnd dt payloads => Sys2Proof.Machine.execTxnValidationEnd dt payloads s
  | .offerDeadline => Sys2Proof.Machine.execOfferDeadline s
  | .cutOff late => Sys2Proof.Machine.execCutOff late s
  | .txnApply => Sys2Proof.Machine.execTxnApply s
  | .reoffer => Sys2Proof.Machine.execReoffer s
  | .unsynced => Sys2Proof.Machine.execUnsynced s
  | .roundMsExpiry made => Sys2Proof.Machine.execRoundMsExpiry made s
  | .robotPairComputation dt rb => Sys2Proof.Machine.execRobotPairComputation dt rb s
  | .axisLoopSample dt axis cnt => Sys2Proof.Machine.execAxisLoopSample dt axis cnt s
  | .deadlineMiss dt loop => Sys2Proof.Machine.execDeadlineMiss dt loop s
  | .limitTrip dt axis neg => Sys2Proof.Machine.execLimitTrip dt axis neg s
  | .latchRelease dt axis neg => Sys2Proof.Machine.execLatchRelease dt axis neg s
  | .homeEvent dt axis cnt => Sys2Proof.Machine.execHomeEvent dt axis cnt s
  | .homingPhaseEnd dt axis => Sys2Proof.Machine.execHomingPhaseEnd dt axis s
  | .homeNotFound axis => Sys2Proof.Machine.execHomeNotFound axis s
  | .encoderError dt axis => Sys2Proof.Machine.execEncoderError dt axis s
  | .targetReached axis => Sys2Proof.Machine.execTargetReached axis s
  | .rampStopEnd axis => Sys2Proof.Machine.execRampStopEnd axis s
  | .hedgeEdge dt axis => Sys2Proof.Machine.execHedgeEdge dt axis s
  | .standstill axis => Sys2Proof.Machine.execStandstill axis s
  | .enDelayEnd axis => Sys2Proof.Machine.execEnDelayEnd axis s
  | .axisEnable dt axis v => Sys2Proof.Machine.execAxisEnable dt axis v s
  | .beacon => Sys2Proof.Machine.execBeacon s
  | .allStopRepeat => Sys2Proof.Machine.execAllStopRepeat s
  | .frameTransmit lane sfd acked => Sys2Proof.Machine.execFrameTransmit lane sfd acked s
  | .frameReceive dt lane len age psdu => Sys2Proof.Machine.execFrameReceive dt lane len age psdu s
  | .dataFrame dt => Sys2Proof.Machine.execDataFrame dt s
  | .routeApply => Sys2Proof.Machine.execRouteApply s
  | .laneRetireComplete => Sys2Proof.Machine.execLaneRetireComplete s
  | .keyWrite dt k w v => Sys2Proof.Machine.execKeyWrite dt k w v s
  | .macSendDeadline h => Sys2Proof.Machine.execMacSendDeadline h s
  | .queuePush dt q w words pop => Sys2Proof.Machine.execQueuePush dt q w words pop s
  | .queuePop dt q ecc => Sys2Proof.Machine.execQueuePop dt q ecc s
  | .spillRefill dt q => Sys2Proof.Machine.execSpillRefill dt q s
  | .queFlush dt v => Sys2Proof.Machine.execQueFlush dt v s
  | .qfcMinAssertExpiry p => Sys2Proof.Machine.execQfcMinAssertExpiry p s
  | .directWrite dt off v => Sys2Proof.Machine.execDirectWrite dt off v s
  | .benchCheckDone dt => Sys2Proof.Machine.execBenchCheckDone dt s
  | .benchCutOff domainDown parity => Sys2Proof.Machine.execBenchCutOff domainDown parity s
  | .benchApplyStrobe => Sys2Proof.Machine.execBenchApplyStrobe s
  | .governorDecision dt pmeas => Sys2Proof.Machine.execGovernorDecision dt pmeas s
  | .leaveDeadline => Sys2Proof.Machine.execLeaveDeadline s
  | .leaveDurationEnd => Sys2Proof.Machine.execLeaveDurationEnd s
  | .govOverBudget dt pmeas => Sys2Proof.Machine.execGovOverBudget dt pmeas s
  | .monitorSelfCheckFail dt grp pmeas => Sys2Proof.Machine.execMonitorSelfCheckFail dt grp pmeas s
  | .monitorRecalibration dt grp pmeas => Sys2Proof.Machine.execMonitorRecalibration dt grp pmeas s
  | .stopInFall dt chB lowPs => Sys2Proof.Machine.execStopInFall dt chB lowPs s
  | .stopDiscrepancy => Sys2Proof.Machine.execStopDiscrepancy s
  | .stopInputsClean dt => Sys2Proof.Machine.execStopInputsClean dt s
  | .safStopClr dt v => Sys2Proof.Machine.execSafStopClr dt v s
  | .darkPulse ok => Sys2Proof.Machine.execDarkPulse ok s
  | .resumeBoundary => Sys2Proof.Machine.execResumeBoundary s
  | .safeReleaseFirst dt v => Sys2Proof.Machine.execSafeReleaseFirst dt v s
  | .safeReleaseSecond dt v => Sys2Proof.Machine.execSafeReleaseSecond dt v s
  | .safeReleaseWindowExpiry => Sys2Proof.Machine.execSafeReleaseWindowExpiry s
  | .safeReleaseBoundary => Sys2Proof.Machine.execSafeReleaseBoundary s
  | .lockstepMismatch dt => Sys2Proof.Machine.execLockstepMismatch dt s
  | .safSramUe dt => Sys2Proof.Machine.execSafSramUe dt s
  | .rootstockRestart dt => Sys2Proof.Machine.execRootstockRestart dt s
  | .planningHeartbeat dt core => Sys2Proof.Machine.execPlanningHeartbeat dt core s
  | .planWatchdog dt => Sys2Proof.Machine.execPlanWatchdog dt s
  | .faultEvent dt src => Sys2Proof.Machine.execFaultEvent dt src s
  | .faultLevelClear dt src => Sys2Proof.Machine.execFaultLevelClear dt src s
  | .windowExpiry src => Sys2Proof.Machine.execWindowExpiry src s
  | .quietExpiry src => Sys2Proof.Machine.execQuietExpiry src s
  | .injectionCheck src found => Sys2Proof.Machine.execInjectionCheck src found s
  | .forcePulse src => Sys2Proof.Machine.execForcePulse src s
  | .fltForceWrite dt m v => Sys2Proof.Machine.execFltForceWrite dt m v s
  | .collectorParityError dt recOk => Sys2Proof.Machine.execCollectorParityError dt recOk s
  | .frozenImagePersisted dt => Sys2Proof.Machine.execFrozenImagePersisted dt s
  | .blackboxThaw dt => Sys2Proof.Machine.execBlackboxThaw dt s
  | .diarySnapshot => Sys2Proof.Machine.execDiarySnapshot s
  | .diarySnapshotDone dt => Sys2Proof.Machine.execDiarySnapshotDone dt s
  | .persistLate => Sys2Proof.Machine.execPersistLate s
  | .capturePersisted dt slot => Sys2Proof.Machine.execCapturePersisted dt slot s
  | .pfwNQualified dt recs => Sys2Proof.Machine.execPfwNQualified dt recs s
  | .pfwNReturn dt => Sys2Proof.Machine.execPfwNReturn dt s
  | .regionFail dt region cause code value => Sys2Proof.Machine.execRegionFail dt region cause code value s
  | .dryClear dt v => Sys2Proof.Machine.execDryClear dt v s
  | .lwClr dt v => Sys2Proof.Machine.execLwClr dt v s
  | .cutting dt => Sys2Proof.Machine.execCutting dt s
  | .needList dt => Sys2Proof.Machine.execNeedList dt s
  | .headerStored dt ok => Sys2Proof.Machine.execHeaderStored dt ok s
  | .sectorCommitDone dt fails => Sys2Proof.Machine.execSectorCommitDone dt fails s
  | .verifyDone dt sound => Sys2Proof.Machine.execVerifyDone dt sound s
  | .activationPauseStart => Sys2Proof.Machine.execActivationPauseStart s
  | .activationPauseEnd dt => Sys2Proof.Machine.execActivationPauseEnd dt s
  | .trialTimeExpiry => Sys2Proof.Machine.execTrialTimeExpiry s
  | .aliveLoss dt => Sys2Proof.Machine.execAliveLoss dt s
  | .pairLinkLoss dt => Sys2Proof.Machine.execPairLinkLoss dt s
  | .tokenTake dt => Sys2Proof.Machine.execTokenTake dt s
  | .tokenConfirm tin => Sys2Proof.Machine.execTokenConfirm tin s
  | .tokenConflict dt => Sys2Proof.Machine.execTokenConflict dt s
  | .promotion dt => Sys2Proof.Machine.execPromotion dt s
  | .mirrorFrame dt ok p lag d => Sys2Proof.Machine.execMirrorFrame dt ok p lag d s
  | .bulkCopyDone dt => Sys2Proof.Machine.execBulkCopyDone dt s
  | .pairLinkUp dt p mib => Sys2Proof.Machine.execPairLinkUp dt p mib s
  | .plannedHandoverStop b => Sys2Proof.Machine.execPlannedHandoverStop b s
  | .finalDelta => Sys2Proof.Machine.execFinalDelta s
  | .patrolScrubPass dt => Sys2Proof.Machine.execPatrolScrubPass dt s
  | .dramScrubLate dt => Sys2Proof.Machine.execDramScrubLate dt s
  | .scrubNow dt v => Sys2Proof.Machine.execScrubNow dt v s
  | .memRetire dt v => Sys2Proof.Machine.execMemRetire dt v s
  | .dramCe dt r => Sys2Proof.Machine.execDramCe dt r s
  | .dramUe dt r addr => Sys2Proof.Machine.execDramUe dt r addr s
  | .rankMigrationDone dt r => Sys2Proof.Machine.execRankMigrationDone dt r s
  | .fullScrubDone dt corrected => Sys2Proof.Machine.execFullScrubDone dt corrected s
  | .railOutOfRange dt rail => Sys2Proof.Machine.execRailOutOfRange dt rail s
  | .temperatureThreshold dt sensor halfDeg => Sys2Proof.Machine.execTemperatureThreshold dt sensor halfDeg s
  | .pllUnlock dt pll => Sys2Proof.Machine.execPllUnlock dt pll s
  | .safClkCheck dt ppm => Sys2Proof.Machine.execSafClkCheck dt ppm s
  | .sramEccError dt uncorrectable => Sys2Proof.Machine.execSramEccError dt uncorrectable s
  | .sqTail dt r v => Sys2Proof.Machine.execSqTail dt r v s
  | .cqHead dt r v => Sys2Proof.Machine.execCqHead dt r v s
  | .submissionFetch dt sq entry sges sges2 => Sys2Proof.Machine.execSubmissionFetch dt sq entry sges sges2 s
  | .holdBufferDrain cq => Sys2Proof.Machine.execHoldBufferDrain cq s
  | .msiXCoalesce cq => Sys2Proof.Machine.execMsiXCoalesce cq s
  | .hostSilent => Sys2Proof.Machine.execHostSilent s
  | .hifHeartbeat dt v => Sys2Proof.Machine.execHifHeartbeat dt v s
  | .linkDown dt => Sys2Proof.Machine.execLinkDown dt s
  | .functionLevelReset dt => Sys2Proof.Machine.execFunctionLevelReset dt s
  | .pePerstN dt => Sys2Proof.Machine.execPePerstN dt s
  | .d3hotEntry dt => Sys2Proof.Machine.execD3hotEntry dt s
  | .hostReturn dt speed lanes => Sys2Proof.Machine.execHostReturn dt speed lanes s
  | .sqEnSet dt r v => Sys2Proof.Machine.execSqEnSet dt r v s
  | .sqEnClear dt r v => Sys2Proof.Machine.execSqEnClear dt r v s
  | .cqEnSet dt r v => Sys2Proof.Machine.execCqEnSet dt r v s
  | .cqEnClear dt r v => Sys2Proof.Machine.execCqEnClear dt r v s
  | .nop h => Sys2Proof.Machine.execNop h s
  | .fence h => Sys2Proof.Machine.execFence h s
  | .timeAcceptJump h => Sys2Proof.Machine.execTimeAcceptJump h s
  | .timeSetPps h => Sys2Proof.Machine.execTimeSetPps h s
  | .timeCaptureArm h => Sys2Proof.Machine.execTimeCaptureArm h s
  | .gnssSurveyStart h => Sys2Proof.Machine.execGnssSurveyStart h s
  | .gnssSetBase h data => Sys2Proof.Machine.execGnssSetBase h data s
  | .gnssRawCapture h => Sys2Proof.Machine.execGnssRawCapture h s
  | .corrStreamCfg h => Sys2Proof.Machine.execCorrStreamCfg h s
  | .snapSubmit h data => Sys2Proof.Machine.execSnapSubmit h data s
  | .rtkAdmitRover h => Sys2Proof.Machine.execRtkAdmitRover h s
  | .rtkResetRover h => Sys2Proof.Machine.execRtkResetRover h s
  | .trlLoadGraph h data => Sys2Proof.Machine.execTrlLoadGraph h data s
  | .trlPatchGraph h data => Sys2Proof.Machine.execTrlPatchGraph h data s
  | .trlQuery h werr => Sys2Proof.Machine.execTrlQuery h werr s
  | .txnSubmit h data => Sys2Proof.Machine.execTxnSubmit h data s
  | .txnCancel h => Sys2Proof.Machine.execTxnCancel h s
  | .taskAllot h data late => Sys2Proof.Machine.execTaskAllot h data late s
  | .taskWithdraw h werr => Sys2Proof.Machine.execTaskWithdraw h werr s
  | .graft h => Sys2Proof.Machine.execGraft h s
  | .loopOpen h => Sys2Proof.Machine.execLoopOpen h s
  | .loopClose h => Sys2Proof.Machine.execLoopClose h s
  | .loopHandover h => Sys2Proof.Machine.execLoopHandover h s
  | .axisMove h => Sys2Proof.Machine.execAxisMove h s
  | .axisHome h seen => Sys2Proof.Machine.execAxisHome h seen s
  | .axisStop h => Sys2Proof.Machine.execAxisStop h s
  | .macFrameSend h data => Sys2Proof.Machine.execMacFrameSend h data s
  | .macRouteSet h data werr => Sys2Proof.Machine.execMacRouteSet h data werr s
  | .macLaneRetire h data => Sys2Proof.Machine.execMacLaneRetire h data s
  | .robotAdmit h data => Sys2Proof.Machine.execRobotAdmit h data s
  | .robotRelease h => Sys2Proof.Machine.execRobotRelease h s
  | .benchStage h data => Sys2Proof.Machine.execBenchStage h data s
  | .benchCheck h => Sys2Proof.Machine.execBenchCheck h s
  | .benchApply h => Sys2Proof.Machine.execBenchApply h s
  | .benchDiscard h => Sys2Proof.Machine.execBenchDiscard h s
  | .leavePolicy h => Sys2Proof.Machine.execLeavePolicy h s
  | .fleetStop h => Sys2Proof.Machine.execFleetStop h s
  | .fleetResumeRequest h => Sys2Proof.Machine.execFleetResumeRequest h s
  | .faultInject h => Sys2Proof.Machine.execFaultInject h s
  | .faultClear h => Sys2Proof.Machine.execFaultClear h s
  | .diaryRead h werr => Sys2Proof.Machine.execDiaryRead h werr s
  | .blackboxFreeze h => Sys2Proof.Machine.execBlackboxFreeze h s
  | .blackboxRead h werr => Sys2Proof.Machine.execBlackboxRead h werr s
  | .updHeader h data => Sys2Proof.Machine.execUpdHeader h data s
  | .updPieces h data => Sys2Proof.Machine.execUpdPieces h data s
  | .updVerify h => Sys2Proof.Machine.execUpdVerify h s
  | .updActivate h ok => Sys2Proof.Machine.execUpdActivate h ok s
  | .updConfirm h => Sys2Proof.Machine.execUpdConfirm h s
  | .updStatus h => Sys2Proof.Machine.execUpdStatus h s
  | .pairJoin h => Sys2Proof.Machine.execPairJoin h s
  | .pairTakeover h => Sys2Proof.Machine.execPairTakeover h s
  | .powerRemoved aonLost => Sys2Proof.Machine.execPowerRemoved aonLost s
  | .hostLocalSnapshot h samples werr => Sys2Proof.Machine.execHostLocalSnapshot h samples werr s
  | .msixVectorUnmask dt vec => Sys2Proof.Machine.execMsixVectorUnmask dt vec s

end Sys2Proof.Machine
end

