-- ==== Sys2Proof/Machine/View.lean ====
section
/-! DEFINITION. What a read of BAR0 returns (R4, R6, R365, R550; reads are single words, R552): the stored settings and counters, and for the read-only fields
what the rules of each window make them show. A read of a split value that latches its partner has a row of its own (R62,
R66); here stands what such a pair shows before it. The pins of R429 and R434 stand at the end. -/
namespace Sys2Proof.Machine

/-- Lay fields side by side: each with its lowest bit and its width. -/
def packBits (l : List (Nat × Nat × Nat)) : Nat := l.foldl (fun a p => a ||| (p.2.2 % 2 ^ p.2.1) * 2 ^ p.1) 0

/-- A one-bit field. -/
def packBit (lo : Nat) (b : Bool) : Nat × Nat × Nat := (lo, 1, b2n b)

/-- The two words of a 64-bit value. -/
def wordOf (v k : Nat) : Nat := v / 2 ^ (32 * k) % 2 ^ 32

/-- How many items of a list satisfy a test. -/
def countIf {α : Type} (p : α → Bool) (l : List α) : Nat := (l.filter p).length

/-- Position in an array of registers, where an offset lies in it. -/
def arrIdx (base stride count off : Nat) : Option Nat :=
  if base ≤ off ∧ (off - base) % stride = 0 ∧ (off - base) / stride < count then some ((off - base) / stride) else none

/-! ### Window by window: the read-only part of a register, 0 where it has none -/

/-- `CLK` (R2, R69) and `PAD` (R547). -/
def Dev.viewClk (s : Dev) (off : Nat) : Nat :=
  if off = 0x0008 then
    packBits [(0, 8, 0xA1), (8, 4, if s.fuse.big then 1 else 2), (12, 3, s.nLanes), packBit 16 s.fuse.big, (24, 8, 0x45)]
  else if off = 0x0010 then
    packBits [packBit 0 s.pll.core, packBit 1 s.pll.corr, packBit 2 s.pll.time, packBit 3 s.pll.saf, packBit 4 s.pll.dram,
      packBit 5 s.pll.pcie, packBit 6 s.pll.sgmii, packBit 7 s.pll.refOk, packBit 8 s.pll.hold]
  else if off = 0x1010 then packBits (s.pad.banks.zipIdx.map fun p => (2 * p.2, 2, p.1))
  else if off = 0x1014 then packBits [(0, 10, unsigned 10 s.pad.tj), (10, 3, s.pad.tjIdx)]
  else 0

/-- `HIF` (R388). -/
def Dev.viewHif (s : Dev) (off : Nat) : Nat :=
  if off = 0x2010 then
    packBits [packBit 0 s.hif.linkUp, packBit 1 s.hif.ready, packBit 2 s.hif.bme, (3, 2, s.hif.speed), (5, 3, s.hif.lanes),
      packBit 8 s.hif.silent]
  else match arrIdx 0x210C 0x20 32 off with
  | some r => packBits [(0, 14, (s.sq r).head), (16, 4, (s.sq r).err)]
  | none => match arrIdx 0x2110 0x20 32 off with
  | some r => (s.sq r).tail % 2 ^ 14
  | none => match arrIdx 0x250C 0x20 32 off with
  | some r => packBits [(0, 14, (s.cq r).tail), packBit 14 (s.cq r).phase, packBit 15 (s.cq r).badHead, (16, 16, (s.cq r).lost)]
  | none => match arrIdx 0x2510 0x20 32 off with
  | some r => (s.cq r).head % 2 ^ 14
  | none => 0

/-- `MEM` (R511, R512, R517). -/
def Dev.viewMem (s : Dev) (off : Nat) : Nat :=
  let x := s.mem.rank0
  let y := s.mem.rank1
  let live : Rank → Bool := fun r => r.present && !r.retired
  if off = 0x3010 then
    packBits [packBit 0 x.present, packBit 1 y.present, packBit 2 x.retired, packBit 3 y.retired, packBit 4 s.mem.patrol,
      packBit 5 s.mem.scrub, packBit 6 (x.migrating || y.migrating), packBit 7 s.mem.scrubWait]
  else if off = 0x3014 then
    let sum : (Rank → Nat) → Nat := fun f => (if live x then f x else 0) + (if live y then f y else 0)
    packBits [(0, 8, sum (·.blocks)), (8, 8, sum (·.used))]
  else if off = 0x3034 then wordOf s.mem.ueAddr 0
  else if off = 0x3038 then wordOf s.mem.ueAddr 1
  else match arrIdx 0x3020 4 2 off with
  | some r =>
    let k := s.rank r
    packBits [(0, 16, if k.hour = s.psec / 3600 then k.ce else 0), (16, 8, k.ue), packBit 24 k.retired, packBit 25 k.migrating]
  | none => 0

/-- `TIM` (R62, R66-R68). -/
def Dev.viewTim (s : Dev) (off : Nat) : Nat :=
  let t := s.tim
  if off = 0x4008 then
    packBits [(0, 3, t.st.code), packBit 3 t.ntValid, packBit 4 s.timeQual, packBit 5 t.tdcCal, packBit 6 t.ppsQual,
      packBit 7 (decide (s.clk.slewLeft ≠ 0)), (8, 2, t.srcActive)]
  else if off = 0x402C then satSigned 32 t.offset
  else if off = 0x4030 then sat 32 t.estErr
  else if off = 0x403C then unsigned 32 s.clk.trim
  else if off = 0x4040 then wordOf s.nt.toNat 0
  else if off = 0x4044 then t.ntHiLatch
  else match arrIdx 0x4100 0x10 9 off with
  | some n => wordOf (s.cap n).nt.toNat 0
  | none => match arrIdx 0x4104 0x10 9 off with
  | some n => (s.cap n).latHi
  | none => match arrIdx 0x4108 0x10 9 off with
  | some n => (s.cap n).latStat
  | none => 0

/-- `GNS` (R92, R107, R108, R110, R142). While a survey runs with a position in use, `BASE` shows that position (DESIGN CHOICE, log
entry 104); a group's delay register shows its delay in band G1 (DESIGN CHOICE, log entry 100). -/
def Dev.viewGns (s : Dev) (off : Nat) : Nat :=
  let g := s.gns
  let pos : Int × Int × Int := if g.base = 0 then (0, 0, 0) else g.pos
  if off = 0x5010 then
    packBits [(0, 2, g.engine), (2, 3, if g.survey.isSome && g.base = 0 then 1 else g.base), (5, 2, g.baseline), packBit 7 g.chShort,
      (8, 4, g.spare.getD 15), (12, 4, g.retired.length), (16, 8, g.baseSeq), (24, 1, g.refAnt)]
  else if off = 0x5044 then g.std % 2 ^ 32
  else if off = 0x5068 then
    g.retired.foldl (fun a k => a ||| 2 ^ k) 0 + 2 ^ 16 * (match g.calib with | some c => (if c.stage = 0 then 15 else c.grp) | none => 15)
  else if off = 0x5100 then packBits [packBit 15 g.fe.isSome]
  else if off = 0x5140 then packBits [(0, 2, s.station), (2, 2, g.sta.st), packBit 4 (decide (g.floor ≠ 0)), packBit 5 g.taOk]
  else if off = 0x5144 then packBits ((List.range 16).map fun n => (2 * n, 2, (s.sig n).st))
  else if off = 0x5148 then g.checks % 2 ^ 12
  else match arrIdx 0x5020 4 6 off with
  | some k => wordOf (unsigned 64 (if k < 2 then pos.1 else if k < 4 then pos.2.1 else pos.2.2)) (k % 2)
  | none => match arrIdx 0x5038 4 3 off with
  | some k => unsigned 32 (if k = 0 then g.bl.1 else if k = 1 then g.bl.2.1 else g.bl.2.2)
  | none => match arrIdx 0x5084 0x10 6 off with
  | some p =>
    let x := s.port p
    packBits [(0, 16, x.occ), packBit 16 x.clkOk, packBit 17 x.coherent, packBit 18 x.stuck]
  | none => match arrIdx 0x51C0 4 13 off with
  | some k => packBits [(0, 16, satSigned 16 (Tab.get (fun _ => (0, 0)) g.delays (3 * k)).1), (16, 8, Tab.get (fun _ => 0) g.calCnt k)]
  | none => match arrIdx 0x5170 4 6 off with
  | some p =>
    let x := s.port p
    packBits [(0, 16, satSigned 16 (x.learned.getD 0)), (16, 16, satSigned 16 (x.rise / 10))]
  | none => 0

/-- Age of an instant in units of `ms` milliseconds, `none` reading as all ones. -/
def Dev.ageOf (s : Dev) (t : Option NT) (ms : Nat) : Nat :=
  match t with
  | some t => sat 16 (ntSince s.nt t * 1000 / (ms * tickHz))
  | none => 0xFFFF

/-- `SNP` (R143, R144) and `FRK` (R171, R172). -/
def Dev.viewFrk (s : Dev) (off : Nat) : Nat :=
  if off = 0x6010 then
    packBits [(0, 7, sat 7 s.unitsAsked), packBit 7 (s.gov.grants.any fun g => g.work.isSnp), (8, 4, sat 4 s.snp.cmds.length)]
  else if off = 0x7010 then
    packBits [(0, 8, (List.range 8).foldl (fun a e => if s.frk.retired.contains e then a else a + 2 ^ e) 0), (8, 2, s.searches),
      packBit 10 s.frk.overload]
  else if off = 0x7068 then s.frk.retired.foldl (fun a e => a ||| 2 ^ e) 0
  else match arrIdx 0x6100 4 256 off with
  | some i =>
    let x := s.rover i
    packBits [(0, 2, x.rx), (2, 2, x.verdict), (4, 4, sat 4 x.run), (16, 16, s.ageOf x.at_ 1000)]
  | none => match arrIdx 0x7100 4 256 off with
  | some i =>
    let x := s.frkSlot i
    let (a, b, c) := match x.rec_ with | some r => (r.pub, r.comp, r.nfix) | none => (0, 0, 0)
    let wait := match x.search with | .asked | .granted | .running _ _ _ => true | _ => false
    packBits [(0, 3, x.st.code), (3, 3, a), (6, 3, b), (9, 6, sat 6 c), packBit 15 wait, (16, 16, s.ageOf (x.rec_.map (·.tObs)) 10)]
  | none => 0

/-- Along-route length of a robot's envelope, cm (R207): that of the evaluation it stands by, the summed lengths of its entries where no
evaluation on the route made them, and 0 without an ENVELOPE entry (DEDUCED, log entry 114). -/
def Dev.envLen (s : Dev) (i : Nat) : Nat :=
  let env := s.trl.resv.filter fun (r : Resv) => r.robot = i && r.kind = .envelope
  if env.isEmpty then 0
  else if (s.projected i).isSome && !(s.rob i).offRoute then (s.rob i).envLen
  else env.foldl (fun n r => n + (r.hi - r.lo)) 0

/-- The flags of a robot, its steps ahead and the length of its envelope (R207). -/
def Dev.viewRobot (s : Dev) (i : Nat) : Nat :=
  let x := s.rob i
  let mine := s.trl.resv.filter fun (r : Resv) => r.robot = i
  let now := slotframeOf s.trl.epoch.toNat
  packBits [packBit 0 x.clashed, packBit 1 x.offRoute, packBit 2 x.deviated, packBit 3 x.blocked,
    packBit 4 (mine.any fun r => r.frozen), packBit 5 (mine.any fun r => s.wide r),
    (8, 8, sat 8 (countIf (fun (p : PlanStep) => p.sf != now && sfReached p.sf now) x.plan)), (16, 16, sat 16 (s.envLen i))]

/-- `TRL` (R206, R207). -/
def Dev.viewTrl (s : Dev) (off : Nat) : Nat :=
  let t := s.trl
  if off = 0x8010 then
    packBits [(0, 2, if t.load.isSome then 1 else if t.graph.isSome then 2 else 0), packBit 2 (t.replanAsked || t.replanGranted),
      packBit 3 s.plans]
  else if off = 0x8024 then (match t.graph with | some g => g.id | none => 0)
  else if off = 0x8028 then t.ver
  else if off = 0x802C then (match t.graph with | some g => g.segs.length | none => 0)
  else if off = 0x8030 then
    (match t.graph with | some g => g.links.foldl (fun a (l : LinkRec) => a + (if l.kind = 1 || l.a ≠ l.b then 2 else 1)) 0 | none => 0)
  else if off = 0x8034 then sat 23 t.resv.length
  else if off = 0x803C then sat 17 s.specCount
  else if off = 0x8048 then sat 18 t.cache.length
  else match arrIdx 0x8200 4 256 off with
  | some i => s.viewRobot i
  | none => 0

/-- Has a transaction the robot as a participant that is not settled (R234)? -/
def Txn.unsettled (t : Txn) (i : Nat) : Bool := t.phase != .failed && t.parts.any fun p => p.slot = i && !p.confirmed && !p.ended

/-- `TXU` (R20, R248, R249). -/
def Dev.viewTxu (s : Dev) (off : Nat) : Nat :=
  if off = 0x9020 then
    packBits [(0, 16, s.inFlight), packBit 16 s.txu.round.isSome]
  else if off = 0x9034 then
    packBits [(0, 15, countIf (fun (p : Nat × Task) => decide (p.2.st ≠ .empty)) s.txu.tasks),
      (15, 15, countIf (fun (p : Nat × Task) => decide (p.2.st = .open_)) s.txu.tasks)]
  else if off = 0x9038 then s.txu.nextId
  else match arrIdx 0x9400 4 256 off with
  | some i =>
    let l := s.lease i
    packBits [(0, 4, l.st.code), (4, 4, l.cls), packBit 8 l.parked, packBit 9 l.unplaced,
      (16, 16, if l.st = .unknown then 0 else l.epoch)]
  | none => match arrIdx 0x9800 4 256 off with
  | some i =>
    let held := s.txu.tasks.filter fun p => p.2.holder = some i && (p.2.st = .held || (p.2.st = .pending && p.2.was = .held))
    packBits [(0, 14, match held with | p :: _ => p.1 | [] => 0), packBit 14 (!held.isEmpty), packBit 15 (s.lease i).unsynced,
      (16, 8, sat 8 (countIf (fun (t : Txn) => t.unsettled i) s.txu.txns))]
  | none => 0

/-- The phase of an axis profile (R283, R284), by its rate: 4 while it runs past a target behind, 5 on the way back. -/
def Dev.axPhase (s : Dev) (n : Nat) : Nat :=
  let a := s.axis n
  let k := a.prof (s.axNs a)
  if k.v = 0 ∧ k.a = 0 then 0
  else if a.behind then (if (s.axLeft n).length = 3 then 4 else 5)
  else if k.a = 0 then 2
  else if decide (0 < k.a) == decide (0 ≤ k.v) then 1 else 3

/-- The planned step and state of a robot now (R272). -/
def Dev.planNow (s : Dev) (i : Nat) : Option (PlanStep × Kin) :=
  let t := slotframeOf s.nt.toNat
  ((s.rob i).plan.find? fun q => q.sf == t).map fun q => (q, q.at_ (nsInto t s.nt))

/-- The phase of a robot's profile (R284). -/
def Dev.prfPhase (s : Dev) (i : Nat) : Nat :=
  match s.planNow i with
  | none => 0
  | some (q, k) =>
    let past : Bool := match q.back with | some t => decide (t * nmMm ≤ k.s) | none => false
    if k.v = 0 ∧ k.a = 0 then 0
    else if q.brk ≠ 0 then 6
    else if k.v < 0 then 5
    else if past then 4
    else if k.a = 0 then 2
    else if 0 < k.a then 1 else 3

/-- Distance to a robot's stop target (R284), cm: the one it has behind it, else the end of its route (DEDUCED, log entry 114). -/
def Dev.prfRemain (s : Dev) (i : Nat) : Nat :=
  let x := s.rob i
  match s.trl.graph, x.route, s.planNow i with
  | some g, some r, some (q, k) => ((q.back.getD (10 * g.hopsLen r.hops : Nat)) - k.sLo).natAbs / 10
  | _, _, _ => 0

/-- `CTL` and `PRF` (R280, R281, R283, R284). -/
def Dev.viewCtl (s : Dev) (off : Nat) : Nat :=
  if off = 0xA010 then
    packBits [(0, 10, countIf (fun (p : Nat × LoopSlot) => decide (p.2.st ≠ .open_)) s.ctl.loops), packBit 10 (s.upd.pause == some 4)]
  else if off = 0xA028 then s.ctl.margin
  else if off = 0xB010 then
    packBits [(0, 9, countIf (fun i => decide (s.prfPhase i ≠ 0)) (s.trl.robots.map (·.1))), (9, 5, countIf (fun n => decide (s.axPhase n ≠ 0)) axisList)]
  else match arrIdx 0xA500 4 536 off with
  | some n =>
    let l := s.loop n
    packBits [(16, 2, l.st.code), packBit 20 l.steer, packBit 21 l.sat, packBit 22 (s.benchHeld n)]
  | none => match arrIdx 0xB080 4 24 off with
  | some n => packBits [(0, 3, s.axPhase n), packBit 3 (s.axis n).behind]
  | none => match arrIdx 0xB100 4 256 off with
  | some i => let p := s.prf i; packBits [(0, 3, s.prfPhase i), packBit 3 p.behind, packBit 4 p.refused, (16, 16, sat 16 (s.prfRemain i))]
  | none => 0

/-- The code of an axis state (R288). -/
def AxState.code : AxState → Nat
  | .disabled => 0 | .idle => 1 | .homing => 2 | .moving => 3 | .stopping => 4 | .fault => 5

/-- `AXS` (R309, R312). -/
def Dev.viewAxs (s : Dev) (off : Nat) : Nat :=
  if off = 0xC010 then axisList.foldl (fun a n => if (s.axis n).atRest then a else a + 2 ^ n) 0
  else match arrIdx 0xC124 0x40 24 off with
  | some n =>
    let a := s.axis n
    packBits [(0, 3, if s.axEdging n then AxState.stopping.code else a.st.code), packBit 3 a.ref, packBit 4 a.latchP, packBit 5 a.latchN, packBit 6 a.inP, packBit 7 a.inN,
      packBit 8 a.inH, packBit 9 a.stand, packBit 10 a.chatter, (12, 4, a.lastStop)]
  | none => match arrIdx 0xC128 0x40 24 off with
  | some n => unsigned 32 (s.axPos n)
  | none => match arrIdx 0xC12C 0x40 16 off with
  | some n => unsigned 32 (s.axEncPos n)
  | none => match arrIdx 0xC130 0x40 24 off with
  | some n => unsigned 32 (s.axis n).origin
  | none => 0

/-- `MAC` (R316, R324, R346). -/
def Dev.viewMac (s : Dev) (off : Nat) : Nat :=
  let lanes : (LaneState → Bool) → Nat := fun p => (List.range 6).foldl (fun a n => if p (s.lane n).st then a + 2 ^ n else a) 0
  if off = 0xD010 then
    packBits [(0, 6, lanes fun x => x == .inService), (6, 6, lanes fun x => x == .retired || x == .failed), packBit 12 s.saf.burst.isSome,
      packBit 13 (s.upd.pause == some 3)]
  else if off = 0xD01C then wordOf s.mac.fcnt 0
  else if off = 0xD020 then wordOf s.mac.fcnt 1
  else match arrIdx 0xD104 0x40 6 off with
  | some n => packBits [(0, 2, (s.lane n).st.code), (2, 2, s.bond n), (16, 16, sat 16 (s.lane n).toAir)]
  | none => 0

/-- `QUE` (R353, R361-R363). -/
def Dev.viewQue (s : Dev) (off : Nat) : Nat :=
  if off = 0xE010 then
    packBits ([packBit 0 (!s.fuse.big)] ++ (List.range 8).map fun p => packBit (8 + p) (Tab.get (fun _ => ({} : Qfc)) s.que.pins p).on)
  else if off = 0xE014 then
    (List.range 128).foldl (fun a q => a + (max (s.queForce q).1 (s.queCfg q).1 - (if s.fuse.big then 0 else 16))) 0
  else if off = 0xE01C then packBits [packBit 1 s.que.refused]
  else match arrIdx 0xE808 0x10 128 off with
  | some q =>
    let x := s.queue q
    packBits [(0, 17, x.words.length), packBit 17 x.high, packBit 18 (decide (x.words.length = (s.queForce q).1)), packBit 19 x.open_,
      packBit 20 x.cut, packBit 21 x.begun, packBit 22 x.old.isSome]
  | none => match arrIdx 0xE80C 0x10 128 off with
  | some q => packBits [(0, 16, (s.queue q).full), (16, 16, (s.queue q).flushCut)]
  | none => 0

/-- `BEN` and `GOV` (R411, R412). -/
def Dev.viewBen (s : Dev) (off : Nat) : Nat :=
  let e : Option Staged := s.ben.ents[s.fld (0xF024, 0, 9)]?
  let field : (Staged → Nat) → Nat := fun f => match e with | some x => f x | none => 0
  if off = 0xF010 then
    packBits [(0, 2, match s.ben.st with | .empty => 0 | .staged => 1 | .checked => 2 | .applying => 3), (2, 10, s.ben.ents.length),
      packBit 12 (!s.ben.held.isEmpty)]
  else if off = 0xF028 then field (·.addr)
  else if off = 0xF02C then field (·.value)
  else if off = 0xF030 then field (·.mask)
  else if off = 0x10010 then
    packBits [packBit 0 s.gov.overBudget, packBit 1 s.gov.barrier, (2, 8, s.gov.grants.length), (10, 8, s.gov.reqs.length)]
  else if off = 0x10018 then sat 16 s.gov.pmeas
  else if off = 0x1001C then sat 16 s.gov.granted
  else 0

/-- The code of a source state (R447). -/
def SrcState.code : SrcState → Nat | .idle => 0 | .counting => 1 | .active => 2

/-- Sources that are ACTIVE, and the highest class among them. -/
def Dev.activeSrcs (s : Dev) : List Nat := (s.flt.srcs.filter fun p => p.2.st = .active).map (·.1)
def Dev.topClass (s : Dev) : Nat := s.activeSrcs.foldl (fun a n => max a (s.fld (srcCls n))) 0

/-- `ERR_N` (R429, R434): low until the collector has been initialised and while a source above INFO is ACTIVE. -/
def Dev.errN (s : Dev) : Bool := s.saf.initDone && s.topClass = 0

/-- `SAFE_N` (R427-R429, R434): it falls and rises with `SAFE_FORCE`, which a release clears one slot boundary before the run state
leaves SAFE (DEDUCED, log entry 118). -/
def Dev.safeN (s : Dev) : Bool := s.saf.initDone && !s.saf.safeForce

/-- `SAF` (R428, R443, R444) and `FLT` (R445, R447). -/
def Dev.viewSaf (s : Dev) (off : Nat) : Nat :=
  let f := s.saf
  if off = 0x11004 then f.run.code
  else if off = 0x11010 then
    packBits [packBit 0 f.inA, packBit 1 f.inB, packBit 2 f.latchA, packBit 3 f.latchB, packBit 4 (s.stopPin false), packBit 5 (s.stopPin true),
      packBit 6 f.clean, packBit 7 f.safeForce, packBit 8 (f.run == .fleetStop && s.flag (0x11018, 16, 1)), packBit 9 f.dpFailA,
      packBit 10 f.dpFailB]
  else if off = 0x11020 then f.nonce
  else if off = 0x11024 then (match f.safeCause with | some (n, d) => packBits [(0, 8, n), (8, 1, 1), packBit 9 d] | none => 0)
  else if off = 0x11028 then wordOf f.causeNt.toNat 0
  else if off = 0x1102C then wordOf f.causeNt.toNat 1
  else if off = 0x11034 then f.lastBeats
  else if off = 0x12010 then
    packBits [packBit 0 s.forceActive, packBit 1 (decide (s.topClass ≠ 0)), packBit 2 (!s.activeSrcs.isEmpty), (3, 8, sat 8 s.activeSrcs.length),
      (11, 2, s.topClass)]
  else match arrIdx 0x12104 8 192 off with
  | some n =>
    let x := s.src n
    let d := srcDefD n
    packBits [(0, 2, x.st.code), packBit 2 d.level, packBit 3 x.level, (4, 2, d.floor), packBit 6 d.fixed, packBit 7 (srcNative n),
      (8, 8, sat 8 (s.inWindow n x.times).length), (16, 16, x.recovery)]
  | none => 0

/-- `DRY` (R448, R462, R469, R470). -/
def Dev.viewDry (s : Dev) (off : Nat) : Nat :=
  let d := s.dry
  let lw : Nat → LastWord → Nat := fun k w =>
    wordOf (packBits [(0, 12, w.code), (12, 16, w.value), (28, 28, w.psec), (56, 3, w.seq), (63, 1, 1)]) k
  let word : Nat → Nat → Nat := fun n k => match d.lws.find? fun p => p.1 = n with | some p => lw k p.2 | none => 0
  if off = 0x13010 then
    packBits [(0, 2, if d.sound0 && d.sound1 then 0 else if d.sound0 || d.sound1 then 1 else 2), packBit 2 d.sound0, packBit 3 d.sound1,
      packBit 4 d.frozen, packBit 5 d.persisting, (6, 3, d.cause)]
  else if off = 0x1301C then s.psec % 2 ^ 32
  else if off = 0x13028 then d.box.length
  else if off = 0x13080 then packBits ((0, 3, d.lwNext) :: d.lws.map fun p => packBit (3 + p.1) p.2.parErr)
  else match arrIdx 0x13040 8 8 off with
  | some n => word n 0
  | none => match arrIdx 0x13044 8 8 off with
  | some n => word n 1
  | none => 0

/-- `UPD` (R495). -/
def Dev.viewUpd (s : Dev) (off : Nat) : Nat :=
  let hdr := s.upd.failed.or (s.download.map (·.hdr))
  let ofHdr : (ImgHdr → Nat) → Nat := fun f => match hdr with | some h => f h | none => 0
  if off = 0x14010 then
    packBits [(0, 3, s.dlState), (3, 3, ofHdr (·.sub)), packBit 6 s.upd.verify.isSome, packBit 7 (s.upd.act.isSome || s.upd.pause.isSome),
      packBit 8 s.upd.hold]
  else if off = 0x14018 then ofHdr (·.ver)
  else if off = 0x1401C then (match s.download with | some d => d.left | none => 0)
  else if off = 0x14050 then s.fuse.keys
  else if off = 0x14054 then s.nv.upd.seq
  else match arrIdx 0x14020 4 8 off with
  | some k => ofHdr fun h => leAt h.hash (4 * k) 4
  | none => match arrIdx 0x14040 4 4 off with
  | some k => s.fuse.dieId.getD k 0
  | none => match arrIdx 0x14108 8 5 off with
  | some k =>
    let b := k + 1
    let x := s.sel b
    packBits [(0, 1, (Tab.get (fun _ => (0, 0)) s.upd.running_ b).1), packBit 1 x.trial, packBit 2 x.rejOther, (3, 2, x.boots),
      (8, 8, Tab.get (fun _ => 0) s.upd.pauses b), (16, 16, s.floorOf b)]
  | none => match arrIdx 0x1410C 8 5 off with
  | some k => (Tab.get (fun _ => (0, 0)) s.upd.running_ (k + 1)).2
  | none => 0

/-- `PAR` (R516). -/
def Dev.viewPar (s : Dev) (off : Nat) : Nat :=
  let p := s.par
  if off = 0x15010 then
    packBits [(0, 2, p.role.code), (2, 2, p.mirror.code), packBit 4 p.token, packBit 5 p.tokenIn, packBit 6 p.aliveIn, packBit 7 p.linkUp,
      packBit 8 s.timeReady, packBit 9 (p.linkUp && p.partner.timeReady)]
  else if off = 0x15024 then satSigned 32 p.offset
  else if off = 0x15028 then wordOf p.takeNt.toNat 0
  else if off = 0x1502C then wordOf p.takeNt.toNat 1
  else if off = 0x15030 then sat 16 p.lag
  else 0

/-- The read-only fields of a register that are not stored in the register file. -/
def Dev.viewOf (s : Dev) (off : Nat) : Nat :=
  match off / 0x1000 with
  | 0x00 | 0x01 => s.viewClk off
  | 0x02 => s.viewHif off | 0x03 => s.viewMem off | 0x04 => s.viewTim off | 0x05 => s.viewGns off
  | 0x06 | 0x07 => s.viewFrk off
  | 0x08 => s.viewTrl off | 0x09 => s.viewTxu off | 0x0A | 0x0B => s.viewCtl off | 0x0C => s.viewAxs off
  | 0x0D => s.viewMac off | 0x0E => s.viewQue off | 0x0F | 0x10 => s.viewBen off | 0x11 | 0x12 => s.viewSaf off
  | 0x13 => s.viewDry off | 0x14 => s.viewUpd off | 0x15 => s.viewPar off
  | _ => 0

/-- Write-only words, which the spec gives no value to read (R7): 0. -/
def woReg (off : Nat) : Bool :=
  off == 0x2018 || off == 0x11014 || off == 0x1101C || off == 0x1302C || off == 0xE018 ||
    (within 0xD400 0x200 off && off % 0x20 != 0 && off % 0x20 ≤ 0x10)

/-- Registers of robot slots 64-255, which the MB7-64 lacks (R4). -/
def slotReg (off : Nat) : Bool :=
  [0x6100, 0x7100, 0x8200, 0x9400, 0x9800, 0xB100].any fun b => within (b + 256) 768 off

/-- A read of a BAR0 register: 0 where there is none (R365) or its resource is fused off (R4). -/
def Dev.readReg (s : Dev) (off : Nat) : Reg :=
  if off % 4 != 0 || fusedOff s.fuse.big off || (!s.fuse.big && slotReg off) || woReg off then 0
  else if decide (off < 0x16000) && off % 0x1000 == 0 then BitVec.ofNat 32 (0x100 + off / 0x1000)
  else if decide (off < 0x16000) && off % 0x1000 == 4 && off != 0x11004 then 0
  else if off = 0x13100 then 0
  else s.reg off ||| BitVec.ofNat 32 (s.viewOf off)

/-- BAR4 (R389): every word of the diagnostic window, without the latch of a read of 0x0000. -/
def Dev.readBar4 (s : Dev) (off : Nat) : Nat :=
  if off = 0x0000 then wordOf s.nt.toNat 0
  else if off = 0x0004 then s.tim.bar4Latch
  else if off = 0x0008 then s.saf.run.code
  else if off = 0x000C then s.viewTim 0x4008
  else if off = 0x0010 then
    let l := s.activeSrcs
    packBits [(0, 8, sat 8 l.length), (8, 8, if l.isEmpty then 0 else s.topClass + 1)]
  else match arrIdx 0x100 8 32 off with
  | some r => packBits [(0, 14, (s.sq r).head), (16, 14, (s.sq r).tail)]
  | none => match arrIdx 0x104 8 32 off with
  | some r => s.fld (sqEn r)
  | none => match arrIdx 0x200 8 32 off with
  | some r => packBits [(0, 14, (s.cq r).tail), (16, 14, (s.cq r).head)]
  | none => match arrIdx 0x204 8 32 off with
  | some r => (s.cq r).lost
  | none => 0

end Sys2Proof.Machine
end

