-- ==== Sys2Proof/Safety.lean ====
section
/-! DEFINITION. The terms claims are made in: the areas of the device and what a command leaves alone, a command that
completes, a device with nothing left to settle, and a host command that can run and the answer it gets. -/
namespace Sys2Proof.Machine

/-- The areas of the device: its blocks, its clock, and the model's own fields. -/
inductive Area where
  | fuse | clk | tim | tdc | pll | caps | regs | hif | saf | flt | dry | ben | gov | par | mem | pad | axes | nv
  | gns | snp | frk | trl | txu | ctl | mac | que | upd | free | todo | out
deriving DecidableEq, Repr

/-- Do two devices agree on an area? -/
def Dev.same (s t : Dev) : Area → Prop
  | .fuse => t.fuse = s.fuse | .clk => t.clk = s.clk | .tim => t.tim = s.tim | .tdc => t.tdc = s.tdc
  | .pll => t.pll = s.pll | .caps => t.caps = s.caps | .regs => t.regs = s.regs | .hif => t.hif = s.hif
  | .saf => t.saf = s.saf | .flt => t.flt = s.flt | .dry => t.dry = s.dry | .ben => t.ben = s.ben
  | .gov => t.gov = s.gov | .par => t.par = s.par | .mem => t.mem = s.mem | .pad => t.pad = s.pad
  | .axes => t.axes = s.axes | .nv => t.nv = s.nv | .gns => t.gns = s.gns | .snp => t.snp = s.snp
  | .frk => t.frk = s.frk | .trl => t.trl = s.trl | .txu => t.txu = s.txu | .ctl => t.ctl = s.ctl
  | .mac => t.mac = s.mac | .que => t.que = s.que | .upd => t.upd = s.upd | .free => t.free = s.free
  | .todo => t.todo = s.todo | .out => t.out = s.out

/-- What a change of the device leaves alone: every area but those named. -/
def Frame (changed : List Area) (s t : Dev) : Prop := ∀ p, p ∉ changed → s.same t p

/-- The areas that settling a fault, a stop or the safe state may change (R420, R427, R432, R455). -/
def settleParts : List Area :=
  [.regs, .hif, .saf, .flt, .dry, .axes, .nv, .trl, .txu, .ctl, .mac, .que, .free, .todo, .out]

/-- The command answers a next state, in which the queue is as it was and the device satisfies `P`. -/
def Completes (c : Instr) (s : State) (P : Dev → Prop) : Prop :=
  ∃ t, exec c s = .next t ∧ t.pending = s.pending ∧ P t.toDev

/-- The command answers a next state, in which the queue is as it was and the device is what settling makes of a device that
satisfies `P`: the command's own effect, before the faults, stops and safe reactions it left to settle (R432, R433). -/
def CompletesThen (c : Instr) (s : State) (P : Dev → Prop) : Prop :=
  ∃ t d, exec c s = .next t ∧ t.pending = s.pending ∧ t.toDev = settle d ∧ P d

/-- Nothing is left to settle: no occurrence, stop or safe reaction waits, and no freeze was asked for. -/
abbrev Dev.Settled (s : Dev) : Prop := s.todo = [] ∧ s.dry.freezeReq = none

/-- The registers of the register file other than those listed are as they were. -/
def RegsBut (offs : List Nat) (s t : Dev) : Prop := ∀ o, o ∉ offs → t.reg o = s.reg o

/-- A host command that can run now and be answered in its ring at once: accepted and not begun, behind no fence and no command
not yet begun of its own ring (R372, R379), of a host that has not been reset away (R367), its ring enabled and holding nothing back (R374). -/
abbrev Dev.Runs (s : Dev) (h op : Nat) (l : Live) : Prop :=
  s.startable h op = some l ∧ l.orphan = false ∧ s.flag (cqEn l.cq) = true ∧ (s.cq l.cq).hold = [] ∧ l.cq < 32

/-- A register written whole by a direct write, as the rules of R394 judge it. -/
abbrev wordEntry (off : Nat) (v : Reg) : Staged := { addr := off, value := v.toNat, mask := 0xFFFFFFFF }

/-- No rule of R394 refuses a direct write, and no planning pause holds it back (R392). -/
abbrev Dev.Allows (s : Dev) (off : Nat) (v : Reg) : Prop := s.upd.pause ≠ some 1 ∧ s.judgeSet [wordEntry off v] true 0 = []

/-- The parameters of an `AXIS_HOME` command are legal for an axis (R305). -/
abbrev Dev.HomeOk (s : Dev) (l : Live) (n : Nat) : Prop :=
  1 ≤ l.p 0 4 ∧ l.p 0 4 < 2 ^ 31 ∧ 1 ≤ l.p 4 4 ∧ l.p 4 4 ≤ s.fld (axF n 0xC 0 21) ∧ 1 ≤ l.p 8 4 ∧ l.p 8 4 ≤ l.p 4 4 ∧
    1 ≤ l.p 12 4 ∧ l.p 12 4 ≤ 1000000 ∧ l.p 21 1 ≤ 2 ∧ l.p 22 1 ≤ 1 ∧ (l.p 21 1 = 1 → l.p 22 1 = 1) ∧ (l.p 21 1 = 2 → l.p 22 1 = 0)

/-- The unit takes a motion command (R26, R224): it is in RUN and fewer than 256 transactions of the host are in flight. -/
abbrev Dev.TakesMotion (s : Dev) : Prop := s.saf.run = .run ∧ s.inFlight < 256

/-- The slotframe that NT stands in begins here (R42). -/
def Dev.frameStart (s : Dev) : NT := BitVec.ofNat 64 (slotStart (50 * slotframeOf s.nt.toNat))

/-- The instant of the next beacon (R325): this slotframe's, if its slot 0 has just begun and a lane has not sent its own, or
the next one's. -/
def Dev.beaconNt (s : Dev) : NT :=
  if decide (ntSince s.nt s.frameStart ≤ usTicks 40) && s.inService.any fun n =>
      (s.lane n).owesBeacon (slotframeOf s.frameStart.toNat)
  then s.frameStart else nextSlotframe s.nt

/-- A live command that waits and can be answered in its ring at once (there are 32 rings, R368). -/
abbrev Dev.Waits (s : Dev) (h : Nat) (l : Live) : Prop :=
  s.live? h = some l ∧ l.orphan = false ∧ s.flag (cqEn l.cq) = true ∧ (s.cq l.cq).hold = [] ∧ l.cq < 32

/-- The command's work has begun, and it is live and not yet answered. -/
def Dev.Begun (t : Dev) (l : Live) : Prop := t.live? l.handle = some { l with started := true }

/-- The command is answered (R373): its `DONE` stands in its ring with this status and result, and its handle is free. -/
def Dev.Answered (t : Dev) (l : Live) (code : Nat) (res : List Byte) : Prop :=
  t.live? l.handle = none ∧
    ∃ e ∈ (t.cq l.cq).ring, e.kind = .done ∧ e.op = l.op ∧ e.code = code ∧ e.handle = l.handle % 2 ^ 32 ∧
      e.mid = leBytes l.tag 8 ∧ e.result = res16 res

/-- A `PROGRESS` entry of the command stands in its ring (R373). -/
def Dev.Progressed (t : Dev) (l : Live) (code : Nat) (res : List Byte) : Prop :=
  ∃ e ∈ (t.cq l.cq).ring, e.kind = .progress ∧ e.op = l.op ∧ e.code = code ∧ e.handle = l.handle % 2 ^ 32 ∧
    e.result = res16 res

/-- A ring takes an entry at once (R374): it is enabled, the link takes writes, nothing is held, and a slot is free beyond
those held back for the `DONE` of live commands. -/
abbrev Dev.Room (s : Dev) (r : Nat) : Prop :=
  s.flag (cqEn r) = true ∧ s.hif.bme = true ∧ (s.cq r).hold = [] ∧ s.cqLive r < s.cqFree r

/-- An event of a code stands in the ring that receives its block's events (R382). -/
def Dev.Told (t : Dev) (r code : Nat) (res : List Byte) : Prop :=
  ∃ e ∈ (t.cq r).ring, e.kind = .event ∧ e.code = code ∧ e.result = res16 res

/-- A last-word register (R462). -/
def Dev.lastWordAt (s : Dev) (k : Nat) : LastWord := Tab.get (fun _ => { code := 0, value := 0, psec := 0, seq := 8 }) s.dry.lws k

/-- An event of a source now makes it enter ACTIVE (R432). -/
abbrev Dev.Enters (s : Dev) (n : Nat) : Prop :=
  (s.src n).st ≠ .active ∧ s.fld (srcN n) ≤ ((s.inWindow n (s.winNow :: (s.src n).times)).take 255).length

/-- What ends with the host's memory (R367): captures are disarmed, streams and the raw capture stop, and the snapshot submissions go. -/
abbrev Dev.Disarmed (t : Dev) : Prop :=
  (∀ n, (Tab.get (fun _ => {}) t.caps n : CapInput).arm = none) ∧ t.gns.stream = none ∧ t.gns.capture = none ∧ t.snp.cmds = []

/-- A host interface at reset (R367): the rings are empty and their registers at their reset values, Bus Master Enable is clear, and
every command still live has lost its voice. -/
abbrev Dev.Unhosted (t : Dev) : Prop :=
  t.hif.sqs = [] ∧ t.hif.cqs = [] ∧ t.hif.bme = false ∧ (∀ l ∈ t.hif.live, l.orphan = true) ∧
    ∀ r, r < 32 → ∀ o ∈ [0x2100, 0x2104, 0x2108, 0x2500, 0x2504, 0x2508], t.reg (o + 0x20 * r) = resetReg (o + 0x20 * r)

/-- The buffer of `GNSS_SET_BASE` breaks no rule of its layout (R93). -/
abbrev BaseLegal (b : List Byte) : Prop :=
  leAt b 26 1 ≤ 63 ∧ leAt b 27 1 < 4 ∧ zeros b 42 6 = true ∧
    (((b.drop 48).take 31).all (fun x => x.toNat < 128) = true ∧ leAt b 79 1 = 0) ∧
    (((b.drop 80).take 31).all (fun x => x.toNat < 128) = true ∧ leAt b 111 1 = 0) ∧ zeros b 112 16 = true

/-- What the records of a graph image give (R181): the graph without its derived links, and how many segments; or, of the first
record that is bad, its index, its reason, and the segments before it. -/
def Dev.loaded (s : Dev) (b : List Byte) : Option (Graph × Nat) :=
  match s.loadGo (imageRecs b) 0 { g := { id := leAt b 4 4 } } with
  | .ok a => some (a.g, a.segs)
  | .error _ => none
def Dev.loadFails (s : Dev) (b : List Byte) : Option (Nat × Nat × Nat) :=
  match s.loadGo (imageRecs b) 0 { g := { id := leAt b 4 4 } } with
  | .ok _ => none
  | .error e => some e

end Sys2Proof.Machine
end

