-- ==== Sys2Proof/Certificates/Slice0/Obligations.lean ====
section
/-! DEFINITION. The statements of the model, each from the spec's rules or from the model's own choices as its docstring says. -/
open Sys2Proof Sys2Proof.Machine

/-- A step of a state with a command at the front of its queue answers exactly what that command does to the state
with the rest of the queue. -/
def Obligations.StepRunsFrontCommand : Prop :=
  ∀ (s : State) (c : Instr) (rest : List Instr),
    step { s with pending := c :: rest } = exec c { s with pending := rest }

/-- A step on an empty queue answers the state itself (the model's choice, log entry 5). -/
def Obligations.EmptyQueueIdles : Prop :=
  (∀ (s : State), s.pending = [] →
      step s = .next s)

/-- Whatever the state and the operands, a command answers a next state, and the commands that wait are as they were:
no command faults or is refused. -/
def Obligations.EveryCommandKeepsTheQueue : Prop :=
  ∀ (c : Instr) (s : State), ∃ t, exec c s = .next t ∧ t.pending = s.pending

/-- If nothing was left to settle (no fault occurrence, stop or safe reaction waits and no freeze is asked for), then
after any step nothing is: every reaction of R427, R433 and R455 has been taken within the command that caused it. -/
def Obligations.NothingIsLeftToSettle : Prop :=
  ∀ s t : State, s.Settled → step s = .next t → t.Settled

/-- State.reset has nothing to settle and an empty queue, and reading it gives the values of the register summary: of
every register whose value is not 0 and that is no array, of the first of each array (and of the depot axes and the
slots of lane 0 the others that differ), and the block index in each BLK_ID. The fuses are the model's (an MB7-256).
-/
def Obligations.ResetIsSettledAndReadsItsResetValues : Prop :=
  State.reset.Settled ∧ State.reset.pending = [] ∧ (∀ k : Nat, k < 22 → State.reset.readReg (0x1000 * k) = BitVec.ofNat 32 (0x100 + k)) ∧
    (∀ p : Nat × Nat, p ∈ [
      (0x1018, 0x1110), (0x1100, 0x2), (0x2038, 0x8), (0x2108, 0x4), (0x2508, 0x1010004), (0x3018, 0x14018),
      (0x4024, 0xA03E8), (0x4028, 0x30A0032), (0x4034, 0x640064), (0x4038, 0x3E8), (0x4050, 0x910), (0x4054, 0x8000),
      (0x4060, 0x1), (0x4064, 0x186A0), (0x4208, 0x100), (0x5010, 0xC00), (0x5014, 0x1E0A05), (0x5018, 0xFFFF),
      (0x5060, 0x14000A01), (0x5068, 0xF0000), (0x5100, 0x90000), (0x5110, 0xA0A), (0x5114, 0xA539), (0x514C, 0x3C02),
      (0x5150, 0x6370A), (0x5154, 0xF06), (0x5158, 0xA000040), (0x515C, 0x5050F), (0x5160, 0xC80064),
      (0x5164, 0x3C001E), (0x5168, 0x3C1E0303), (0x6014, 0x302003C), (0x6018, 0x2A53096), (0x601C, 0x168FA064),
      (0x6100, 0xFFFF0000), (0x7010, 0xFF), (0x7014, 0x210061E), (0x7018, 0x1E1E), (0x701C, 0xA32),
      (0x7020, 0x3219003C), (0x7048, 0x6), (0x7054, 0x40), (0x7100, 0xFFFF0000), (0x8014, 0x641E), (0x8018, 0x280032),
      (0x801C, 0xA01F4), (0x8020, 0x1E1E3C20), (0x8100, 0x11F4032), (0x9010, 0x643E80C8), (0x9014, 0x1),
      (0x9018, 0x1E0005), (0x901C, 0xBB80064), (0x9024, 0x1E641E), (0x9028, 0x140004), (0x9038, 0x1),
      (0xA014, 0x431E01), (0xA018, 0x3E8), (0xA01C, 0x6406412C), (0xA028, 0xFFFF), (0xA500, 0x1000), (0xB014, 0x1414),
      (0xC100, 0xA141419), (0xC104, 0x1900A00), (0xC108, 0x271005), (0xC10C, 0x2710), (0xC110, 0x186A0), (0xC118, 0x1),
      (0xC11C, 0x10000), (0xC120, 0x32000064), (0xC138, 0x3E8), (0xC500, 0xA141411), (0xC504, 0x1900A00),
      (0xC508, 0x271005), (0xC50C, 0x2710), (0xC510, 0x186A0), (0xC518, 0x1), (0xC520, 0x32000064), (0xC538, 0x3E8),
      (0xD014, 0x2), (0xD100, 0x18), (0xD108, 0x600A8), (0xD10C, 0xC88235), (0xD110, 0x7D02EE0), (0xD800, 0x1),
      (0xD804, 0x2), (0xD808, 0x2), (0xD80C, 0x5), (0xD8C4, 0x4), (0xE014, 0x8000), (0xE800, 0x108), (0xE804, 0xC00040),
      (0x10014, 0x4650), (0x10104, 0x407D0), (0x10108, 0x607D0), (0x1010C, 0x504B0), (0x10110, 0x205DC),
      (0x10114, 0x103E8), (0x10118, 0x305DC), (0x1011C, 0x303E8), (0x11004, 0x1), (0x11010, 0xC), (0x11018, 0xA0A),
      (0x13010, 0xC), (0x13014, 0x6), (0x14014, 0x3C090), (0x15014, 0x6402), (0x15018, 0x140A)] →
      (State.reset.readReg p.1).toNat = p.2)

/-- SQ_TAIL of an enabled ring within its size becomes the ring's tail, and one outside it clears EN with ERR 3,
raises source 0x7C and writes event 0x0201; CQ_HEAD within the written range consumes the entries before it, and one
outside it sets BAD_HEAD and raises 0x7C. Each restarts the host watchdog. Everything else is as it was. (Parts of
R371 and R384.) -/
def Obligations.DoorbellsMoveTheirRings : Prop :=
  (∀ (s : State) (dt r : Nat) (v : Reg), s.Settled → r < 32 → s.flag (sqEn r) = true → v.toNat < s.sqSize r →
      Completes (.sqTail dt r v) s fun t => t.sq r = { s.sq r with tail := v.toNat } ∧ (∀ q, q ≠ r → t.sq q = s.sq q) ∧
        t.hif.live = s.hif.live ∧ t.hif.fed = t.up ∧ t.hif.silent = false ∧ Frame [.clk, .out, .hif, .flt] s.toDev t) ∧
  (∀ (s : State) (dt r : Nat) (v : Reg), r < 32 → s.flag (sqEn r) = true → s.sqSize r ≤ v.toNat → s.Room 0 →
      CompletesThen (.sqTail dt r v) s fun d => d.flag (sqEn r) = false ∧ d.sq r = { s.sq r with err := 3 } ∧
        d.todo = s.todo ++ [.fault 0x7C false] ∧ d.Told 0 0x0201 (leBytes r 1 ++ leBytes 3 1) ∧
        RegsBut [0x2108 + 0x20 * r, 0x2044] s.toDev d ∧ Frame [.clk, .out, .hif, .flt, .regs, .todo] s.toDev d) ∧
  (∀ (s : State) (dt r : Nat) (v : Reg), s.Settled → r < 32 → s.flag (cqEn r) = true → v.toNat < s.cqSize r →
      (v.toNat + s.cqSize r - (s.cq r).head) % s.cqSize r ≤ (s.cq r).ring.length →
      Completes (.cqHead dt r v) s fun t =>
        t.cq r = { s.cq r with head := v.toNat, ring := (s.cq r).ring.drop ((v.toNat + s.cqSize r - (s.cq r).head) % s.cqSize r) } ∧
        (∀ q, q ≠ r → t.cq q = s.cq q) ∧ t.hif.live = s.hif.live ∧ t.hif.fed = t.up ∧
        Frame [.clk, .out, .hif, .flt] s.toDev t) ∧
  (∀ (s : State) (dt r : Nat) (v : Reg), r < 32 → s.flag (cqEn r) = true →
      (s.cqSize r ≤ v.toNat ∨ (s.cq r).ring.length < (v.toNat + s.cqSize r - (s.cq r).head) % s.cqSize r) →
      CompletesThen (.cqHead dt r v) s fun d => d.cq r = { s.cq r with badHead := true } ∧
        d.todo = s.todo ++ [.fault 0x7C false] ∧ Frame [.clk, .out, .hif, .flt, .todo] s.toDev d)

/-- EN of a submission ring set with an aligned base, a LOG2 of 4 to 14 and an enabled completion ring clears ERR and
starts the ring empty; otherwise EN stays 0 and ERR holds the first cause (1 alignment, 5 size, 2 ring; the order is
the model's, log entry 13). EN of a completion ring set so starts it empty with PHASE 1. EN of a submission ring can
be cleared at any time; that of a completion ring only while no enabled submission ring names it. (Part of R368.) -/
def Obligations.RingsAreEnabledAndDisabled : Prop :=
  (∀ (s : State) (dt r : Nat) (v : Reg), s.Settled → r < 32 → s.flag (sqEn r) = false → fieldOf v 16 1 = 1 →
      Completes (.sqEnSet dt r v) s fun t =>
        let err := if (s.reg (0x2100 + 0x20 * r)).toNat % 4096 ≠ 0 then 1
          else if fieldOf v 0 4 < 4 ∨ 14 < fieldOf v 0 4 then 5 else if s.flag (cqEn (fieldOf v 8 5)) = false then 2 else 0
        (t.flag (sqEn r) = true ↔ err = 0) ∧ (t.sq r).err = err ∧ t.fld (sqLog2 r) = fieldOf v 0 4 ∧ t.fld (sqCq r) = fieldOf v 8 5 ∧
        (err = 0 → (t.sq r).head = 0 ∧ (t.sq r).tail = 0) ∧ (∀ q, q ≠ r → t.sq q = s.sq q) ∧
        RegsBut [0x2108 + 0x20 * r] s.toDev t ∧ Frame [.clk, .out, .regs, .hif] s.toDev t) ∧
  (∀ (s : State) (dt r : Nat) (v : Reg), s.Settled → r < 32 → fieldOf v 16 1 = 0 →
      Completes (.sqEnClear dt r v) s fun t => t.flag (sqEn r) = false ∧ t.fld (sqLog2 r) = s.fld (sqLog2 r) ∧
        t.fld (sqCq r) = s.fld (sqCq r) ∧ RegsBut [0x2108 + 0x20 * r] s.toDev t ∧ Frame [.clk, .out, .regs] s.toDev t) ∧
  (∀ (s : State) (dt r : Nat) (v : Reg), 
      s.Settled → r < 32 → s.flag (cqEn r) = false → fieldOf v 7 1 = 1 → (s.reg (0x2500 + 0x20 * r)).toNat % 4096 = 0 →
      4 ≤ fieldOf v 0 4 → fieldOf v 0 4 ≤ 14 →
      Completes (.cqEnSet dt r v) s fun t => t.flag (cqEn r) = true ∧ t.fld (cqLog2 r) = fieldOf v 0 4 ∧
        t.cq r = { s.cq r with head := 0, tail := 0, phase := true, ring := [], hold := [], unsig := 0 } ∧
        (∀ q, q ≠ r → t.cq q = s.cq q) ∧ RegsBut [0x2508 + 0x20 * r] s.toDev t ∧ Frame [.clk, .out, .regs, .hif] s.toDev t) ∧
  (∀ (s : State) (dt r : Nat) (v : Reg), s.Settled → r < 32 → s.flag (cqEn r) = false → fieldOf v 7 1 = 1 →
      ((s.reg (0x2500 + 0x20 * r)).toNat % 4096 ≠ 0 ∨ fieldOf v 0 4 < 4 ∨ 14 < fieldOf v 0 4) →
      Completes (.cqEnSet dt r v) s fun t => t.flag (cqEn r) = false ∧ RegsBut [0x2508 + 0x20 * r] s.toDev t ∧
        Frame [.clk, .out, .regs] s.toDev t) ∧
  (∀ (s : State) (dt r : Nat) (v : Reg), s.Settled → r < 32 → fieldOf v 7 1 = 0 →
      Completes (.cqEnClear dt r v) s fun t =>
        (t.flag (cqEn r) = true ↔ s.flag (cqEn r) = true ∧ ∃ q, q < 32 ∧ s.flag (sqEn q) = true ∧ s.fld (sqCq q) = r) ∧
        RegsBut [0x2508 + 0x20 * r] s.toDev t ∧ Frame [.clk, .out, .regs] s.toDev t)

/-- The entry of the ring whose turn it is becomes a live command with its tag, code and entry, an ACCEPT entry is
written to its completion ring, and the ring's head and the fetch count advance by one; an entry that the orders of
R377 refuse is answered with that code and offset; a PCI Express error stops the ring with ERR 4 and source 0x7C.
(Parts of R371 to R377.) -/
def Obligations.SubmissionsAreFetchedInTurn : Prop :=
  (∀ (s : State) (dt r : Nat) (e : List Byte) (a b : List (Nat × Nat)), 
      s.Settled → s.turn = some r → judgeEntry s.fuse.big (slice e 0 64) a b = none → s.par.hand = none →
      s.saf.run ≠ .boot →
      Completes (.submissionFetch dt r (some e) a b) s fun t => ∃ l ∈ t.hif.live, t.hif.live = s.hif.live ++ [l] ∧ l.sq = r ∧
        l.cq = s.fld (sqCq r) ∧ l.tag = leAt e 4 4 ∧ l.op = leAt e 0 1 ∧ l.entry = slice e 0 64 ∧ l.started = false ∧
        l.order = s.hif.nextOrder ∧ (t.sq r).head = ((s.sq r).head + 1) % s.sqSize r ∧
        (∃ x ∈ (t.cq l.cq).ring, x.kind = .accept ∧ x.handle = l.handle % 2 ^ 32 ∧ x.op = l.op) ∧
        t.fld (0x2044, 0, 16) = (s.fld (0x2044, 0, 16) + 1) % 2 ^ 16 ∧
        RegsBut [0x2044] s.toDev t ∧ Frame [.clk, .out, .hif, .regs] s.toDev t) ∧
  (∀ (s : State) (dt r : Nat) (e : List Byte) (a b : List (Nat × Nat)) (code off : Nat), 
      s.Settled → s.turn = some r → judgeEntry s.fuse.big (slice e 0 64) a b = some (code, off) →
      (s.cq (s.fld (sqCq r))).hold = [] →
      Completes (.submissionFetch dt r (some e) a b) s fun t => (∃ x ∈ (t.cq (s.fld (sqCq r))).ring, x.kind = .done ∧ x.code = code ∧
          x.op = leAt e 0 1 ∧ x.result = res16 (if code = stEmpty then [] else leBytes off 4)) ∧
        (t.sq r).head = ((s.sq r).head + 1) % s.sqSize r ∧ RegsBut [0x2044] s.toDev t ∧
        Frame [.clk, .out, .hif, .regs] s.toDev t) ∧
  (∀ (s : State) (dt r : Nat) (a b : List (Nat × Nat)), s.turn = some r → s.Room 0 →
      CompletesThen (.submissionFetch dt r none a b) s fun d => d.flag (sqEn r) = false ∧ d.sq r = { s.sq r with err := 4 } ∧
        d.todo = s.todo ++ [.fault 0x7C false] ∧ d.Told 0 0x0201 (leBytes r 1 ++ leBytes 4 1) ∧ d.hif.live = s.hif.live ∧
        Frame [.clk, .out, .hif, .regs, .todo] s.toDev d)

/-- A held PROGRESS or EVENT entry is written once its ring has a slot beyond those held back, a held DONE uses its
own slot and frees its handle, COAL_US after the first entry not yet signalled the ring's message is sent or, masked,
held pending, and a vector unmasked sends the message held. (Parts of R374 and R375.) -/
def Obligations.HeldEntriesAndMessagesAreDelivered : Prop :=
  (∀ (s : State) (r : Nat) (e : Entry) (rest : List Entry), 
      s.Settled → (s.cq r).hold = e :: rest → e.kind ≠ .done → s.flag (cqEn r) = true → s.hif.bme = true →
      s.cqLive r < s.cqFree r →
      Completes (.holdBufferDrain r) s fun t => (t.cq r).hold = rest ∧
        (t.cq r).ring = (s.cq r).ring ++ [{ e with phase := (s.cq r).phase, lost := (s.cq r).lostFlag, handle := e.handle % 2 ^ 32 }] ∧
        (∀ q, q ≠ r → t.cq q = s.cq q) ∧ t.hif.live = s.hif.live ∧ Frame [.out, .hif] s.toDev t) ∧
  (∀ (s : State) (r : Nat) (e : Entry) (rest : List Entry), 
      s.Settled → (s.cq r).hold = e :: rest → e.kind = .done → s.flag (cqEn r) = true → s.hif.bme = true →
      Completes (.holdBufferDrain r) s fun t => (t.cq r).hold = rest ∧ t.live? e.handle = none ∧
        (∃ x ∈ (t.cq r).ring, x.kind = .done ∧ x.code = e.code ∧ x.handle = e.handle % 2 ^ 32 ∧ x.result = e.result) ∧
        Frame [.out, .hif] s.toDev t) ∧
  (∀ (s : State) (r : Nat), s.Settled → (s.cq r).unsig ≠ 0 →
      Completes (.msiXCoalesce r) s fun t => (t.cq r).unsig = 0 ∧ (t.cq r).ring = (s.cq r).ring ∧
        (if s.flag (0x3E00C + 16 * s.fld (cqVec r), 0, 1) = true then s.fld (cqVec r) ∈ t.hif.msixPend ∧ t.out = []
         else t.out = [.msix (s.fld (cqVec r))] ∧ t.hif.msixPend = s.hif.msixPend) ∧
        s.up ≤ t.up ∧ Frame [.clk, .out, .hif] s.toDev t) ∧
  (∀ (s : State) (dt v : Nat), s.Settled → v < 64 →
      Completes (.msixVectorUnmask dt v) s fun t => t.flag (0x3E00C + 16 * v, 0, 1) = false ∧ ¬ v ∈ t.hif.msixPend ∧
        t.out = (if v ∈ s.hif.msixPend then [.msix v] else []) ∧ RegsBut [0x3E00C + 16 * v] s.toDev t ∧
        Frame [.clk, .out, .hif, .regs] s.toDev t)

/-- NOP is answered OK. A FENCE that nothing before it within its scope holds is answered OK; one that waits is begun
and stays live, and answers with the last command it waits for. (Part of R379.) -/
def Obligations.NopFenceAndFetchedResumeOfTheHost : Prop :=
  (∀ (s : State) (h : Nat) (l : Live), s.Settled → s.Runs h 0x01 l →
      Completes (.nop h) s fun t => t.Answered l stOK [] ∧ Frame [.out, .hif] s.toDev t) ∧
  (∀ (s : State) (h : Nat) (l : Live), s.Settled → s.Runs h 0x02 l → s.hif.live = [l] →
      Completes (.fence h) s fun t => t.Answered l stOK [] ∧ Frame [.out, .hif] s.toDev t) ∧
  (∀ (s : State) (h : Nat) (l m : Live), 
      s.Settled → s.Runs h 0x02 l → s.hif.live = [m, l] → m.op ≠ 2 → m.handle ≠ h → m.order < l.order →
      m.openEnded = false → m.orphan = false → m.sq = l.sq →
      Completes (.fence h) s fun t => t.live? h = some { l with started := true } ∧ t.hif.cqs = s.hif.cqs ∧
        Frame [.out, .hif] s.toDev t)

/-- LINK_DOWN, FUNCTION_LEVEL_RESET, PE_PERST_N and D3HOT_ENTRY disarm every capture, stop the streams, the raw
capture and the snapshot submissions, and leave every unit that is not the host interface or such a consumer to run on
(whatever the fault source 0x7F then brings). Where that source stands already, the rings are empty, Bus Master Enable
is clear, every register of the rings is at its reset value and every command still live has lost its voice.
HOST_RETURN sets the link, D0 and Bus Master Enable. (Part of R367.) -/
def Obligations.InterfaceResetsDropTheHost : Prop :=
  (∀ (s : State) (dt : Nat),
      Completes (.linkDown dt) s (fun t => t.Disarmed ∧ Frame (settleParts ++ [.clk, .caps, .gns, .snp, .gov]) s.toDev t) ∧
      Completes (.functionLevelReset dt) s (fun t => t.Disarmed ∧ Frame (settleParts ++ [.clk, .caps, .gns, .snp, .gov]) s.toDev t) ∧
      Completes (.pePerstN dt) s (fun t => t.Disarmed ∧ Frame (settleParts ++ [.clk, .caps, .gns, .snp, .gov]) s.toDev t) ∧
      Completes (.d3hotEntry dt) s (fun t => t.Disarmed ∧ Frame (settleParts ++ [.clk, .caps, .gns, .snp, .gov]) s.toDev t)) ∧
  (∀ (s : State) (dt : Nat), s.Settled → (s.src 0x7F).level = true →
      Completes (.linkDown dt) s fun t => t.Unhosted ∧ t.hif.linkUp = false ∧ t.hif.d0 = s.hif.d0 ∧ t.clk = s.clk.run dt ∧
        Frame [.clk, .out, .hif, .flt, .regs, .caps, .gns, .snp, .gov] s.toDev t) ∧
  (∀ (s : State) (dt : Nat), s.Settled → (s.src 0x7F).level = true →
      Completes (.functionLevelReset dt) s fun t => t.Unhosted ∧ t.hif.linkUp = s.hif.linkUp ∧ t.hif.d0 = s.hif.d0 ∧ t.clk = s.clk.run dt ∧
        Frame [.clk, .out, .hif, .flt, .regs, .caps, .gns, .snp, .gov] s.toDev t) ∧
  (∀ (s : State) (dt : Nat), s.Settled → (s.src 0x7F).level = true →
      Completes (.pePerstN dt) s fun t => t.Unhosted ∧ t.hif.linkUp = false ∧ t.hif.d0 = s.hif.d0 ∧ t.clk = s.clk.run dt ∧
        Frame [.clk, .out, .hif, .flt, .regs, .caps, .gns, .snp, .gov] s.toDev t) ∧
  (∀ (s : State) (dt : Nat), s.Settled → (s.src 0x7F).level = true →
      Completes (.d3hotEntry dt) s fun t => t.Unhosted ∧ t.hif.linkUp = s.hif.linkUp ∧ t.hif.d0 = false ∧ t.clk = s.clk.run dt ∧
        Frame [.clk, .out, .hif, .flt, .regs, .caps, .gns, .snp, .gov] s.toDev t) ∧
  (∀ (s : State) (dt speed lanes : Nat), s.Settled →
      Completes (.hostReturn dt speed lanes) s fun t =>
        t.hif = { s.hif with linkUp := true, d0 := true, bme := true, speed, lanes } ∧ Frame [.clk, .out, .hif, .flt] s.toDev t)

/-- With TIMEOUT non-zero, TIMEOUT ms after the last doorbell or heartbeat HOST_SILENT is set and source 0x7E is
raised (a level: its occurrence is counted where the level rises). With TIMEOUT 0 nothing happens. Any doorbell write,
of whatever value, and any HIF_HEARTBEAT write restarts the watchdog and clears HOST_SILENT. A write of HIF_WDOG with
TIMEOUT 0 or 10 to 60,000 sets it, and with any other value leaves it as it was. (R384, whole.) -/
def Obligations.TheHostWatchdogFollowsItsRule : Prop :=
  (∀ (s : State) (dt : Nat) (v : Reg), s.Settled →
      Completes (.hifHeartbeat dt v) s fun t => t.hif = { s.hif with fed := t.up, silent := false } ∧
        Frame [.clk, .out, .hif, .flt] s.toDev t) ∧
  (∀ (s : State), s.fld (0x2014, 0, 16) ≠ 0 → s.hif.silent = false →
      CompletesThen .hostSilent s fun d => d.hif = { s.hif with silent := true } ∧ (d.src 0x7E).level = true ∧
        d.up = max s.up (s.hif.fed + s.fld (0x2014, 0, 16) * cycMs) ∧
        d.todo = s.todo ++ (if (s.src 0x7E).level then [] else [.fault 0x7E false]) ∧
        Frame [.clk, .out, .hif, .flt, .todo] s.toDev d) ∧
  (∀ (s : State), s.Settled → s.fld (0x2014, 0, 16) = 0 →
      Completes .hostSilent s fun t => Frame [.out] s.toDev t) ∧
  (∀ (s : State) (dt r : Nat) (v : Reg),
      CompletesThen (.sqTail dt r v) s fun d => d.hif.silent = false ∧ d.hif.fed = d.up ∧ (d.src 0x7E).level = false) ∧
  (∀ (s : State) (dt r : Nat) (v : Reg),
      CompletesThen (.cqHead dt r v) s fun d => d.hif.silent = false ∧ d.hif.fed = d.up ∧ (d.src 0x7E).level = false) ∧
  (∀ (s : State) (dt : Nat) (v : Reg), s.Settled →
      Completes (.directWrite dt 0x2014 v) s fun t => t.fld (0x2014, 0, 16) =
          (if fieldOf v 0 16 = 0 ∨ (10 ≤ fieldOf v 0 16 ∧ fieldOf v 0 16 ≤ 60000) then fieldOf v 0 16 else s.fld (0x2014, 0, 16)) ∧
        RegsBut [0x2014] s.toDev t ∧ Frame [.clk, .out, .regs] s.toDev t)

/-- TIM_NT_LO and the BAR4 NT latch the high word of NT for their own window, and TIM_CAPn_LO latches the high word
and the status of the same edge. Nothing else changes. (Parts of R62, R66 and R389.) -/
def Obligations.ReadsOfTimeLatchTheirHighWords : Prop :=
  (∀ (s : State), s.Settled →
      Completes .timNtLoRead s fun t => t.tim = { s.tim with ntHiLatch := s.nt.toNat / 2 ^ 32 } ∧ Frame [.out, .tim] s.toDev t) ∧
  (∀ (s : State), s.Settled →
      Completes .bar4NtRead s fun t => t.tim = { s.tim with bar4Latch := s.nt.toNat / 2 ^ 32 } ∧ Frame [.out, .tim] s.toDev t) ∧
  (∀ (s : State) (n : Nat), s.Settled → n < 9 →
      Completes (.timCapnLoRead n) s fun t =>
        t.cap n = { s.cap n with latHi := (s.cap n).nt.toNat / 2 ^ 32, latStat := (s.cap n).frac + 256 * (s.cap n).flags } ∧
        (∀ m, m ≠ n → t.cap m = s.cap m) ∧ Frame [.out, .caps] s.toDev t)

/-- In LOCKED, a measurement of the source in use within LOCK_WINDOW keeps LOCKED and slews the offset off, and one
beyond STEP_THRESH enters JUMP_PENDING with source 0x05 and event 0x0401; after LOSS_TIME without a valid measurement
a unit that was locked enters HOLDOVER; the loss of REF_IN holds the TIME PLL, stops the GNSS engine, raises the level
of source 0x04 and loses the source; its return relocks the PLL; a labelled edge on PPS_IN is used up and measured; at
a whole second with EN and TDC_CAL set the pulse is qualified. (Parts of R46 to R49 and R56.) -/
def Obligations.TimeSourceMovesTheTimeState : Prop :=
  (∀ (s : State) (dt src : Nat) (off : Int), 
      s.Settled → (src = 0 ∨ src = 2) → s.sourceIn src = true → s.tim.step = none → s.pll.refOk = true →
      (src = 0 → s.station = 0) → s.tim.st = .locked → off.natAbs ≤ s.fld fLockWindow → off.natAbs ≤ s.fld fStepThresh →
      s.fld fSlewRate ≠ 0 →
      Completes (.timeMeasurement dt src off) s fun t => t.tim.st = .locked ∧ t.tim.offset = off ∧ t.tim.lastMeas = t.nt ∧
        t.tim.srcActive = src ∧ t.timeQual = true ∧ t.up = s.up + dt ∧
        t.clk.slewLeft = ceilDiv (off.natAbs * cycHz) (10 * s.fld fSlewRate) ∧ Frame [.clk, .out, .tim, .flt] s.toDev t) ∧
  (∀ (s : State) (dt src : Nat) (off : Int), 
      (src = 0 ∨ src = 2) → s.sourceIn src = true → s.tim.step = none → s.pll.refOk = true → (src = 0 → s.station = 0) →
      s.tim.st = .locked → s.fld fStepThresh < off.natAbs → s.Room (s.evtCq 0x0401) →
      CompletesThen (.timeMeasurement dt src off) s fun d => d.tim.st = .jumpPending ∧ d.tim.offset = off ∧ d.timeQual = false ∧
        .fault 0x05 false ∈ d.todo ∧ d.Told (s.evtCq 0x0401) 0x0401 (leBytes (unsigned 64 off) 8) ∧
        Frame [.clk, .out, .tim, .flt, .hif, .todo] s.toDev d) ∧
  (∀ (s : State) (u : Dev), u = s.tickTo (secondAtOrAfter (ntAdd s.tim.lastMeas ((s.fld fLossTime * tickHz : Nat) : Int))) →
      (s.tim.st = .locked ∨ s.tim.st = .acquiring) → s.tim.everLocked = true → s.tim.step = none →
      s.fld fLossTime * tickHz ≤ ntSince u.nt s.tim.lastMeas →
      CompletesThen .lossTimeExpiry s fun d => d.tim.st = .holdover ∧ d.nt = u.nt ∧ d.clk.slewLeft = 0 ∧
        Frame [.clk, .out, .tim, .flt, .todo] s.toDev d) ∧
  (∀ (s : State) (dt : Nat), s.pll.refOk = true →
      CompletesThen (.refInLoss dt) s fun d => d.pll = { s.pll with refOk := false, time := false, hold := true, corr := false } ∧
        d.gns = { s.gns with engine := 0 } ∧ (d.src 0x04).level = true ∧
        (s.tim.step = none → s.tim.st = .locked → s.tim.everLocked = true → d.tim.st = .holdover) ∧
        Frame [.clk, .out, .pll, .gns, .tim, .flt, .hif, .todo] s.toDev d) ∧
  (∀ (s : State) (dt : Nat), s.Settled → s.pll.refOk = false →
      Completes (.refInReturn dt) s fun t => t.pll = { s.pll with refOk := true, time := true, hold := false } ∧ t.tim.st = s.tim.st ∧
        t.clk = s.clk.run dt ∧ Frame [.clk, .out, .pll, .tim, .flt] s.toDev t) ∧
  (∀ (s : State) (dt sub : Nat), s.tim.labelled = true → s.fld fPpsinEdge = 0 →
      CompletesThen (.ppsInEdge dt sub true) s fun d => d.tim.labelled = false ∧
        (s.sourceIn 1 = true → (let sec := d.nt.toNat / tickHz
          d.tim.offset = edgeDiff (BitVec.ofInt 64 (((sec : Int) + signed 32 ((s.fld fPpsinSec + 2 ^ 32 - sec % 2 ^ 32) % 2 ^ 32)) *
            (tickHz : Int)), 0) (d.edgeAt (if s.tim.tdcCal = true ∧ ¬ 8 ∈ s.tdc.uncal then sub else 0)) * 1000000000 / ((256 * tickHz : Nat) : Int))) ∧
        Frame [.clk, .out, .tim, .flt, .hif, .todo, .caps] s.toDev d) ∧
  (∀ (s : State) (ask : Int), s.flag fPpsEn = true → s.tim.tdcCal = true →
      CompletesThen (.wholeNtSecond ask) s fun d => d.tim.ppsQual = true ∧ RegsBut [0x4054] s.toDev d ∧
        Frame [.clk, .out, .tim, .flt, .hif, .regs, .todo] s.toDev d)

/-- TIME_ACCEPT_JUMP in JUMP_PENDING, outside RUN and UPDATE_PAUSE, within its tolerance of the offset, makes a step
certain for the next slotframe boundary; in RUN or UPDATE_PAUSE it is refused busy, and with no jump pending it ends
with code 0x0101, an initial set that waits being none. TIME_STEP moves the accumulator by exactly the step, ends the
slew, makes NT valid and enters ACQUIRING. (Parts of R49 and R54.) -/
def Obligations.TimeStepsOnlyAtItsBoundary : Prop :=
  (∀ (s : State) (h : Nat) (l : Live), 
      s.Settled → s.Runs h 0x10 l → s.saf.run ≠ .run → s.saf.run ≠ .updatePause → s.tim.step = none →
      s.tim.st = .jumpPending → (s.tim.offset - l.ps 0 8).natAbs ≤ l.p 8 4 →
      Completes (.timeAcceptJump h) s fun t => t.Begun l ∧
        t.tim = { s.tim with
          step := some { delta := nsTicks s.tim.offset, at_ := nextSlotframe s.nt, handle := some h } } ∧
        Frame [.out, .hif, .tim] s.toDev t) ∧
  (∀ (s : State) (h : Nat) (l : Live), 
      s.Settled → s.Runs h 0x10 l → (s.saf.run = .run ∨ s.saf.run = .updatePause ∨ (s.tim.step.bind (·.handle)).isSome = true) →
      Completes (.timeAcceptJump h) s fun t => t.Answered l stBusy (offsetRes none) ∧ Frame [.out, .hif] s.toDev t) ∧
  (∀ (s : State) (h : Nat) (l : Live), 
      s.Settled → s.Runs h 0x10 l → s.saf.run ≠ .run → s.saf.run ≠ .updatePause → (s.tim.step.bind (·.handle)) = none →
      (s.tim.step.isSome = true ∨ s.tim.st ≠ .jumpPending) →
      Completes (.timeAcceptJump h) s fun t => t.Answered l 0x0101 [] ∧ Frame [.out, .hif] s.toDev t) ∧
  (∀ (s : State) (p : PendingStep), s.tim.step = some p →
      CompletesThen .timeStep s fun d => let c := s.clk.run (s.clk.cyclesTo p.at_)
        d.clk = { c with acc := c.acc + BitVec.ofInt 96 (p.delta * 4294967296), trim := 0, slewLeft := 0, hold := false } ∧ d.tim.st = .acquiring ∧
        d.tim.ntValid = true ∧ d.tim.step = none ∧ d.tim.stepAt = some (ntAdd p.at_ p.delta) ∧ d.saf.run = s.saf.run ∧
        Frame [.clk, .tim, .caps, .regs, .hif, .saf, .flt, .dry, .ben, .gov, .par, .gns, .snp, .frk, .trl, .txu, .ctl, .mac, .que, .upd,
          .free, .todo, .out] s.toDev d)

/-- A qualified pulse leaves on PPS_OUT at the next instant of its train; EN once written stays; TIME_SET_PPS sets a
change for its whole second, or ends with 0x0103 where it would change the polarity of a qualified pulse; the change
takes over at its second and answers its command; an announced leap second replaces the UTC offset; the cold
calibration sets TDC_CAL, no earlier than 2 s after the reset; every 10 minutes a recalibration moves to the next
unit, and a failed one retires it with source 0x07. (Parts of R39, R44, R56 to R58 and R69.) -/
def Obligations.TheTimePulseFollowsItsTrain : Prop :=
  (∀ (s : State), s.Settled → s.tim.ppsQual = true → s.tim.ppsRate ≠ 0 →
      Completes .ppsPulse s fun t => t.out = [.pulse 4 s.nextPps (1000 * s.tim.ppsWidth) (s.tim.ppsPol == 0)] ∧ t.tim = { s.tim with ppsLast := some s.nextPps } ∧
        Frame [.clk, .out, .tim] s.toDev t) ∧
  (∀ (s : State) (dt : Nat) (v : Reg), fieldOf v 11 1 = 1 → (s.tick dt).Allows 0x4060 v →
      CompletesThen (.ppsEnWrite dt v) s fun d => d.flag fPpsEn = true ∧
        (d.tim.ppsChange.map fun c => (c.rate, c.pol)) = some (fieldOf v 0 10, fieldOf v 10 1)) ∧
  (∀ (s : State) (h : Nat) (l : Live), s.Settled → s.Runs h 0x11 l → (s.tim.ppsQual = false ∨ l.p 2 1 = s.tim.ppsPol) →
      (s.tim.ppsChange.bind (·.handle)) = none →
      Completes (.timeSetPps h) s fun t => t.Begun l ∧
        t.tim = { s.tim with
          ppsChange := some { rate := l.p 0 2, pol := l.p 2 1, width := l.p 4 4, phase := l.p 8 4 % 2 ^ 20, at_ := s.ppsChangeAt, handle := some h } } ∧ Frame [.out, .hif, .tim] s.toDev t) ∧
  (∀ (s : State) (h : Nat) (l : Live), s.Settled → s.Runs h 0x11 l → s.tim.ppsQual = true → l.p 2 1 ≠ s.tim.ppsPol →
      Completes (.timeSetPps h) s fun t => t.Answered l 0x0103 [] ∧ Frame [.out, .hif] s.toDev t) ∧
  (∀ (s : State) (c : PpsChange) (h : Nat) (l : Live), s.Settled → s.tim.ppsChange = some c → c.handle = some h → s.Waits h l →
      Completes .ppsChange s fun t => t.Answered l stOK [] ∧ t.tim = { s.tim with
          ppsChange := none, ppsRate := c.rate, ppsPol := c.pol, ppsWidth := c.width, ppsPhase := signed 20 c.phase } ∧ t.fld fPpsRate = c.rate % 2 ^ 10 ∧ t.fld fPpsPol = c.pol % 2 ∧
        t.fld fPpsWidth = c.width % 2 ^ 20 ∧ RegsBut [0x4060, 0x4064, 0x4068] s.toDev t ∧
        Frame [.clk, .out, .hif, .tim, .regs] s.toDev t) ∧
  (∀ (s : State), s.Settled → s.flag (0x4048, 16, 1) = true →
      Completes .leapSecond s fun t => t.fld (0x4048, 0, 8) = s.fld (0x4048, 8, 8) ∧ t.flag (0x4048, 16, 1) = false ∧
        RegsBut [0x4048] s.toDev t ∧ Frame [.clk, .out, .regs] s.toDev t) ∧
  (∀ (s : State) (dt : Nat), s.Settled →
      Completes (.tdcColdCalDone dt) s fun t => t.tim = { s.tim with tdcCal := true } ∧ s.tdc.since + 2 * cycHz ≤ t.up ∧
        t.tdc = { s.tdc with calAt := t.up + 600 * cycHz } ∧ Frame [.clk, .out, .tim, .tdc] s.toDev t) ∧
  (∀ (s : State), s.Settled → s.tim.tdcCal = true →
      Completes (.tdcRecalibration true) s fun t => t.up = max s.up s.tdc.calAt ∧
        t.tdc = { s.tdc with next := (s.tdc.next + 1) % 15, calAt := s.tdc.calAt + 600 * cycHz } ∧ Frame [.clk, .out, .tdc] s.toDev t) ∧
  (∀ (s : State), s.tim.tdcCal = true → s.tdc.next ∉ s.tdc.failed →
      CompletesThen (.tdcRecalibration false) s fun d => d.tdc = { s.tdc with
          next := (s.tdc.next + 1) % 15
          calAt := s.tdc.calAt + 600 * cycHz
          failed := s.tdc.next :: s.tdc.failed
          uncal := if s.tdc.failed = [] then s.tdc.uncal else s.tdc.next :: s.tdc.uncal } ∧
        d.todo = s.todo ++ [.fault 0x07 false] ∧ Frame [.clk, .out, .tdc, .todo] s.toDev d)

/-- A rising edge on an input without an arm, not within 100 ns of the one recorded before, is written to the input's
registers with its instant, as its TDC unit resolves it (log entry 94), and one within 100 ns is lost; an edge an open
arm takes is also reported in a PROGRESS entry and counted, and the last one wanted ends the capture; TIME_CAPTURE_ARM
arms a free input, is refused busy where one is armed and ends with 0x0104 where its window is past; the window opens
at T_START and closes at T_END, which answers the command. (Parts of R60 to R62.) -/
def Obligations.CapturesRecordTheirEdges : Prop :=
  (∀ (s : State) (dt n sub : Nat) (e : NT × Nat), s.Settled → n < 9 → (s.cap n).arm = none →
      e = (s.tick dt).edgeAt (if s.tim.tdcCal = true ∧ ¬ n ∈ s.tdc.uncal then sub else 0) →
      (∀ l ∈ (s.cap n).last, edgeDiff e l < 0 ∨ 100 * 2 ^ 38 ≤ edgeDiff e l * 1000000000) →
      Completes (.timeCaptureEdge dt n sub true) s fun t => (t.cap n).nt = e.1 ∧ (t.cap n).frac = e.2 ∧
        (t.cap n).last = some e ∧ (t.cap n).lost = false ∧
        (t.cap n).flags = 1 + 2 * b2n (!s.tim.tdcCal || s.tdc.uncal.contains n) + 4 * b2n (s.cap n).lost + 8 * s.tim.st.code ∧
        (∀ m, m ≠ n → t.cap m = s.cap m) ∧ Frame [.clk, .out, .caps] s.toDev t) ∧
  (∀ (s : State) (dt n sub : Nat) (e l : NT × Nat), s.Settled → n < 9 → (s.cap n).arm = none → (s.cap n).last = some l →
      e = (s.tick dt).edgeAt (if s.tim.tdcCal = true ∧ ¬ n ∈ s.tdc.uncal then sub else 0) →
      0 ≤ edgeDiff e l → edgeDiff e l * 1000000000 < 100 * 2 ^ 38 →
      Completes (.timeCaptureEdge dt n sub true) s fun t => t.cap n = { s.cap n with lost := true } ∧
        (∀ m, m ≠ n → t.cap m = s.cap m) ∧ Frame [.clk, .out, .caps] s.toDev t) ∧
  (∀ (s : State) (dt n sub : Nat) (rising : Bool) (a : CapArm) (l : Live), 
      s.Settled → n < 9 → (s.cap n).arm = some a → a.begun = true → a.takes rising = true → a.made + 1 < a.count →
      (s.cap n).last = none → (s.cap n).buf = [] → s.live? a.handle = some l → l.orphan = false → s.Room l.cq →
      Completes (.timeCaptureEdge dt n sub rising) s fun t => (t.cap n).arm = some { a with made := a.made + 1 } ∧ (t.cap n).buf = [] ∧
        t.Progressed l 1 (capRecord (t.cap n).nt (t.cap n).frac n (t.cap n).flags (a.made + 1)) ∧
        ((t.cap n).nt, (t.cap n).frac) = (s.tick dt).edgeAt (if s.tim.tdcCal = true ∧ ¬ n ∈ s.tdc.uncal then sub else 0) ∧
        (∀ m, m ≠ n → t.cap m = s.cap m) ∧ Frame [.clk, .out, .caps, .hif] s.toDev t) ∧
  (∀ (s : State) (h : Nat) (l : Live), 
      s.Settled → s.Runs h 0x12 l → (s.cap (l.p 18 1)).arm = none → (l.p 8 8 = 0 ∨ ntReached s.nt (l.pNt 8) = false) →
      Completes (.timeCaptureArm h) s fun t => t.Begun l ∧ (t.cap (l.p 18 1)).arm = some {
          handle := h
          edge := l.p 19 1
          count := l.p 16 2
          tStart := l.pNt 0
          tEnd := if l.p 8 8 = 0 then none else some (l.pNt 8)
          begun := decide (l.p 0 8 = 0) || ntReached s.nt (l.pNt 0)
          made := 0 } ∧
        (∀ m, m ≠ l.p 18 1 → t.cap m = s.cap m) ∧ Frame [.out, .hif, .caps] s.toDev t) ∧
  (∀ (s : State) (h : Nat) (l : Live), s.Settled → s.Runs h 0x12 l → (s.cap (l.p 18 1)).arm.isSome = true →
      Completes (.timeCaptureArm h) s fun t => t.Answered l stBusy (offsetRes none) ∧ Frame [.out, .hif] s.toDev t) ∧
  (∀ (s : State) (h : Nat) (l : Live), 
      s.Settled → s.Runs h 0x12 l → (s.cap (l.p 18 1)).arm = none → l.p 8 8 ≠ 0 → ntReached s.nt (l.pNt 8) = true →
      Completes (.timeCaptureArm h) s fun t => t.Answered l 0x0104 [] ∧ Frame [.out, .hif] s.toDev t) ∧
  (∀ (s : State) (n : Nat) (a : CapArm), s.Settled → (s.cap n).arm = some a → a.begun = false →
      Completes (.captureStart n) s fun t => t.cap n = { s.cap n with arm := some { a with begun := true } } ∧
        (∀ m, m ≠ n → t.cap m = s.cap m) ∧ t.clk = s.clk.run (s.clk.cyclesTo a.tStart) ∧ Frame [.clk, .out, .caps] s.toDev t) ∧
  (∀ (s : State) (n : Nat) (a : CapArm) (e : NT) (l : Live), 
      s.Settled → (s.cap n).arm = some a → (s.cap n).buf = [] → a.tEnd = some e → s.Waits a.handle l →
      Completes (.captureEnd n) s fun t => t.Answered l stOK [] ∧ t.cap n = { s.cap n with arm := none } ∧
        (∀ m, m ≠ n → t.cap m = s.cap m) ∧ t.clk = s.clk.run (s.clk.cyclesTo e) ∧ Frame [.clk, .out, .caps, .hif] s.toDev t)

/-- ARM of an output with TDC_CAL set and T at least 10 us ahead sets ARMED, and with T nearer sets LATE and does not
arm; CANCEL disarms; at the launch time the output fires, sets FIRED, and except in periodic mode is disarmed. (Part
of R63.) -/
def Obligations.TimedOutputsFireAtTheirLaunchTime : Prop :=
  (∀ (s : State) (dt n : Nat) (v : Reg), 
      n < 4 → fieldOf v 2 1 = 1 → fieldOf v 3 1 = 0 → s.tim.tdcCal = true → s.flag (fOutArm n) = false →
      (usTicks 10 : Int) ≤ ntDiff (s.outT n) (s.tick dt).nt → (s.tick dt).Allows (fOutCtrl n) v →
      CompletesThen (.outputArm dt n v) s fun d => d.flag (fOutArm n) = true ∧ d.fld (fOutCtrl n, 0, 2) = fieldOf v 0 2 ∧ d.outT n = s.outT n) ∧
  (∀ (s : State) (dt n : Nat) (v : Reg), n < 4 → fieldOf v 2 1 = 1 → fieldOf v 3 1 = 0 → fieldOf v 4 1 = 0 → s.tim.tdcCal = true →
      s.flag (fOutArm n) = false → ntDiff (s.outT n) (s.tick dt).nt < (usTicks 10 : Int) →
      (s.tick dt).Allows (fOutCtrl n) v →
      CompletesThen (.outputArm dt n v) s fun d => d.flag (fOutArm n) = false ∧ d.flag (fOutCtrl n, 4, 1) = true) ∧
  (∀ (s : State) (dt n : Nat) (v : Reg), 
      n < 4 → fieldOf v 3 1 = 1 → ((s.tick dt).outDisarm n).Allows (fOutCtrl n) (withField (withField v 3 1 0) 2 1 0) →
      CompletesThen (.outputCancel dt n v) s fun d => d.flag (fOutArm n) = false ∧ d.tim.outNext = s.tim.outNext.set n none) ∧
  (∀ (s : State) (n : Nat), s.Settled → n < 4 → s.flag (fOutArm n) = true →
      Completes (.timedOutputFire n) s fun t => let at_ := (s.tim.outNext.getD n none).getD (s.outT n)
        t.out = [if s.fld (fOutCtrl n, 0, 2) = 0 ∨ s.fld (fOutCtrl n, 0, 2) = 3 then .pulse n at_ (4 * s.fld (fOutCtrl n, 8, 16)) true
          else .level n at_ (s.fld (fOutCtrl n, 0, 2) == 1)] ∧ t.flag (fOutCtrl n, 5, 1) = true ∧ (t.flag (fOutArm n) = true ↔ s.fld (fOutCtrl n, 0, 2) = 3) ∧
        t.fld (fOutCtrl n, 0, 2) = s.fld (fOutCtrl n, 0, 2) ∧ t.clk = s.clk.run (s.clk.cyclesTo at_) ∧
        RegsBut [fOutCtrl n] s.toDev t ∧ Frame [.clk, .out, .regs, .tim, .pad] s.toDev t)

/-- BENCH_STAGE of entries that can be staged and fit merges them into the set and makes it STAGED; a set over 512
entries is refused 0x0903 and unchanged; BENCH_CHECK begins a check of the set as it stands; a check that finds no
broken rule makes an unchanged set CHECKED, holds its loop slots and answers OK, and one that finds some answers
0x0901 with them and leaves it STAGED; BENCH_DISCARD empties the Bench, cancels an apply before its cut-off with
0x0906, and is too late (0x0907) after it. (Parts of R390, R391, R393 and R399.) -/
def Obligations.TheBenchStagesChecksAndDiscards : Prop :=
  (∀ (s : State) (h : Nat) (l : Live) (b : List Byte), 
      s.Settled → s.Runs h 0x80 l → s.ben.st ≠ .applying → l.len = 16 * l.p 0 2 → stagedBad b = none →
      ((stagedOf b).foldl mergeEntry s.ben.ents).length ≤ 512 →
      Completes (.benchStage h (some b)) s fun t => t.Answered l stOK [] ∧
        t.ben = { s.ben with ents := (stagedOf b).foldl mergeEntry s.ben.ents, st := .staged, check := staleChecks s.ben.check } ∧
        Frame [.out, .hif, .ben] s.toDev t) ∧
  (∀ (s : State) (h : Nat) (l : Live) (b : List Byte), 
      s.Settled → s.Runs h 0x80 l → s.ben.st ≠ .applying → l.len = 16 * l.p 0 2 → stagedBad b = none →
      512 < ((stagedOf b).foldl mergeEntry s.ben.ents).length →
      Completes (.benchStage h (some b)) s fun t => t.Answered l 0x0903 [] ∧ Frame [.out, .hif] s.toDev t) ∧
  (∀ (s : State) (h : Nat) (l : Live), s.Settled → s.Runs h 0x81 l → (s.ben.st = .staged ∨ s.ben.st = .checked) →
      Completes (.benchCheck h) s fun t => t.Begun l ∧
        t.ben = { s.ben with check := s.ben.check ++ [{ handle := h, ents := s.ben.ents }] } ∧
        Frame [.out, .hif, .ben] s.toDev t) ∧
  (∀ (s : State) (dt : Nat) (c : BenchCheck) (rest : List BenchCheck) (l : Live), 
      s.Settled → s.ben.check = c :: rest → s.Waits c.handle l → c.stale = false → s.ben.st = .staged →
      ((s.tick dt).setBen { s.ben with check := rest }).judgeSet c.ents false 0 = [] →
      Completes (.benchCheckDone dt) s fun t => t.Answered l stOK [] ∧ t.ben.st = .checked ∧ t.ben.ents = s.ben.ents ∧ t.ben.check = rest ∧
        t.ben.held = s.heldSlots c.ents ∧ Frame [.clk, .out, .hif, .ben] s.toDev t) ∧
  (∀ (s : State) (dt : Nat) (c : BenchCheck) (rest : List BenchCheck) (l : Live) (bad : List Broken), 
      s.Settled → s.ben.check = c :: rest → s.Waits c.handle l → c.stale = false → s.ben.st = .staged →
      ((s.tick dt).setBen { s.ben with check := rest }).judgeSet c.ents false 0 = bad → bad ≠ [] →
      Completes (.benchCheckDone dt) s fun t => t.Answered l 0x0901 (brokenRes bad) ∧ t.ben = { s.ben with st := .staged, check := rest } ∧
        t.fld (0xF01C, 16, 16) = satInc 16 (s.fld (0xF01C, 16, 16)) ∧
        (∀ k b, bad[k]? = some b → k < 8 → (t.reg (0xF040 + 4 * k)).toNat = (b.2 + 0x10000 * (b.1 % 1024)) % 2 ^ 32) ∧
        RegsBut (0xF01C :: (List.range 8).map fun k => 0xF040 + 4 * k) s.toDev t ∧ Frame [.clk, .out, .hif, .ben, .regs] s.toDev t) ∧
  (∀ (s : State) (h : Nat) (l : Live), s.Settled → s.Runs h 0x83 l → s.ben.apply_ = none →
      Completes (.benchDiscard h) s fun t => t.Answered l stOK [] ∧ t.ben = { s.ben with st := .empty, ents := [], check := staleChecks s.ben.check, held := [] } ∧
        Frame [.out, .hif, .ben] s.toDev t) ∧
  (∀ (s : State) (h : Nat) (l m : Live) (a : BenchApply), 
      s.Settled → s.Runs h 0x83 l → s.ben.apply_ = some a → s.cutPassed a = false → s.Waits a.handle m → a.handle ≠ h →
      Completes (.benchDiscard h) s fun t => t.Answered l stOK [] ∧ t.Answered m 0x0906 [] ∧ t.ben.st = .empty ∧ t.ben.ents = [] ∧
        t.ben.apply_ = none ∧ Frame [.out, .hif, .ben] s.toDev t) ∧
  (∀ (s : State) (h : Nat) (l : Live) (a : BenchApply), s.Settled → s.Runs h 0x83 l → s.ben.apply_ = some a → s.cutPassed a = true →
      Completes (.benchDiscard h) s fun t => t.Answered l 0x0907 [] ∧ Frame [.out, .hif] s.toDev t)

/-- BENCH_APPLY of a CHECKED set for an instant 2 ms to 60 s ahead, on a slot boundary where the set needs one, makes
the Bench APPLYING and shows the instant; a set that is not CHECKED is refused 0x0902; at the cut-off a set that
breaks no rule is cut, and one that does ends 0x0901 and STAGED; at the strobe the Bench empties, the apply is counted
and the command is answered with the instant. At the cut-off an absent clock cancels it with 0x0905, a shadow register
that fails parity cancels it with source 0x13 under a status the spec does not name (a free value, log entry 24), and
in a pause of the planning firmware one of MODE 2 waits and any other ends 0x0904: each leaves the entries. (Parts of
R390, R395 to R397, R401 and R410.) -/
def Obligations.TheBenchAppliesACheckedSetAtItsInstant : Prop :=
  (∀ (s : State) (h : Nat) (l : Live), s.Settled → s.Runs h 0x82 l → s.ben.st = .checked →
      (l.p 8 1 = 2 ∨ ((msTicks 2 : Int) ≤ ntDiff (l.pNt 0) s.nt ∧ ntDiff (l.pNt 0) s.nt ≤ ((60 * tickHz : Nat) : Int) ∧ (needsSlot s.ben.ents = false ∨ onSlot (l.pNt 0) = true))) →
      Completes (.benchApply h) s fun t => t.Begun l ∧ t.ben = { s.ben with
          st := .applying, apply_ := some { handle := h, mode := l.p 8 1, at_ := if l.p 8 1 = 2 then s.benchSlot else l.pNt 0, cut := false } } ∧
        (let at_ := if l.p 8 1 = 2 then s.benchSlot else l.pNt 0
         (t.reg 0xF014).toNat + 2 ^ 32 * (t.reg 0xF018).toNat = (s.clk.run (s.clk.cyclesTo at_)).nt.toNat) ∧
        RegsBut [0xF014, 0xF018] s.toDev t ∧ Frame [.out, .hif, .ben, .regs] s.toDev t) ∧
  (∀ (s : State) (h : Nat) (l : Live), s.Settled → s.Runs h 0x82 l → (s.ben.st = .staged ∨ s.ben.st = .empty) →
      Completes (.benchApply h) s fun t => t.Answered l 0x0902 [] ∧ Frame [.out, .hif] s.toDev t) ∧
  (∀ (s : State) (a : BenchApply), s.Settled → s.ben.apply_ = some a → a.cut = false → s.upd.pause ≠ some 1 →
      ((s.tickTo (ntAdd a.at_ (-(msTicks 2 : Nat)))).withCommitted a.at_).judgeSet s.ben.ents false 0 = [] →
      Completes (.benchCutOff false false) s fun t => t.ben = { s.ben with apply_ := some { a with cut := true } } ∧
        t.clk = s.clk.run (s.clk.cyclesTo (ntAdd a.at_ (-(msTicks 2 : Nat)))) ∧ Frame [.clk, .out, .ben] s.toDev t) ∧
  (∀ (s : State) (a : BenchApply) (l : Live) (down parity : Bool) (bad : List Broken), 
      s.Settled → s.ben.apply_ = some a → a.cut = false → s.upd.pause ≠ some 1 → s.Waits a.handle l →
      ((s.tickTo (ntAdd a.at_ (-(msTicks 2 : Nat)))).withCommitted a.at_).judgeSet s.ben.ents false 0 = bad → bad ≠ [] →
      Completes (.benchCutOff down parity) s fun t => t.Answered l 0x0901 (brokenRes bad) ∧
        t.ben = { s.ben with st := .staged, apply_ := none } ∧ t.fld (0xF020, 16, 16) = satInc 16 (s.fld (0xF020, 16, 16)) ∧
        Frame [.clk, .out, .ben, .regs, .hif] s.toDev t) ∧
  (∀ (s : State) (a : BenchApply) (l : Live), s.Settled → s.ben.apply_ = some a → a.cut = false → s.upd.pause ≠ some 1 → s.Waits a.handle l →
      ((s.tickTo (ntAdd a.at_ (-(msTicks 2 : Nat)))).withCommitted a.at_).judgeSet s.ben.ents false 0 = [] →
      Completes (.benchCutOff true false) s fun t => t.Answered l 0x0905 [] ∧ t.ben = { s.ben with st := .checked, apply_ := none } ∧
        t.fld (0xF020, 16, 16) = satInc 16 (s.fld (0xF020, 16, 16)) ∧ Frame [.clk, .out, .ben, .regs, .hif] s.toDev t) ∧
  (∀ (s : State) (a : BenchApply) (l : Live), s.ben.apply_ = some a → a.cut = false → s.upd.pause ≠ some 1 → s.Waits a.handle l →
      ((s.tickTo (ntAdd a.at_ (-(msTicks 2 : Nat)))).withCommitted a.at_).judgeSet s.ben.ents false 0 = [] →
      CompletesThen (.benchCutOff false true) s fun d => (∃ code, d.Answered l code []) ∧ d.ben = { s.ben with st := .checked, apply_ := none } ∧
        .fault 0x13 false ∈ d.todo ∧ d.fld (0xF020, 16, 16) = satInc 16 (s.fld (0xF020, 16, 16)) ∧
        Frame [.clk, .out, .ben, .regs, .hif, .free, .todo] s.toDev d) ∧
  (∀ (s : State) (a : BenchApply) (l : Live) (down parity : Bool), 
      s.Settled → s.ben.apply_ = some a → a.cut = false → s.upd.pause = some 1 → a.mode ≠ 2 → s.Waits a.handle l →
      Completes (.benchCutOff down parity) s fun t => t.Answered l 0x0904 [] ∧ t.ben = { s.ben with st := .checked, apply_ := none } ∧
        Frame [.clk, .out, .ben, .regs, .hif] s.toDev t) ∧
  (∀ (s : State) (a : BenchApply) (down parity : Bool), s.Settled → s.ben.apply_ = some a → a.cut = false → s.upd.pause = some 1 → a.mode = 2 →
      Completes (.benchCutOff down parity) s fun t => t.ben = s.ben ∧ t.clk = s.clk.run (s.clk.cyclesTo (ntAdd a.at_ (-(msTicks 2 : Nat)))) ∧
        Frame [.clk, .out] s.toDev t) ∧
  (∀ (s : State) (a : BenchApply) (l : Live), s.ben.apply_ = some a → a.cut = true → s.Waits a.handle l → s.ben.ents = [] →
      CompletesThen .benchApplyStrobe s fun d => d.Answered l stOK (leBytes d.nt.toNat 8) ∧ d.ben = { s.ben with
          st := .empty, ents := [], check := staleChecks s.ben.check, apply_ := none, held := [] } ∧
        d.fld (0xF01C, 0, 16) = (s.fld (0xF01C, 0, 16) + 1) % 2 ^ 16 ∧
        (d.reg 0xF014).toNat + 2 ^ 32 * (d.reg 0xF018).toNat = d.nt.toNat ∧ d.clk = s.clk.run (s.clk.cyclesTo a.at_)) ∧
  (∀ (s : State) (a : BenchApply) (e : Staged), 
      s.ben.apply_ = some a → a.cut = true → s.ben.ents = [e] → e.addr / 4096 = 0xB → s.live? a.handle = none →
      CompletesThen .benchApplyStrobe s fun d => d.reg e.addr = s.entryValue e ∧ d.ben.st = .empty ∧
        d.clk = s.clk.run (s.clk.cyclesTo a.at_))

/-- A word written to a register of the profile window takes the writable bits of the word; a write that a rule
refuses changes only the count and BEN's last ignored offset; FE_SPI_GO starts the transfer it describes; CAL_NOW of a
serving group with a spare asks its calibration; GRP_RETIRE and FRK_RETIRE retire what they name; SCRUB_NOW asks a
scrub; a retirement of a rank starts where the other has room; ENABLE takes an axis out of DISABLED. (Parts of R74,
R79, R80, R166, R310, R392 and R511.) -/
def Obligations.DirectWritesTakeEffectAtOnce : Prop :=
  (∀ (s : State) (dt off : Nat) (v : Reg), off / 4096 = 0xB → off % 4 = 0 → knownReg off = true → (s.tick dt).Allows off v →
      CompletesThen (.directWrite dt off v) s fun d => d.reg off = s.entryValue (wordEntry off v) ∧ RegsBut [off] s.toDev d ∧
        Frame [.clk, .out, .regs, .que] s.toDev d) ∧
  (∀ (s : State) (dt off : Nat) (v : Reg), 
      s.Settled → off / 4096 ∉ [0x2, 0xF, 0x3E] → off % 4 = 0 → ownRow off = false → isReg off = true →
      s.upd.pause ≠ some 1 → (s.tick dt).judgeSet [wordEntry off v] true 0 ≠ [] →
      Completes (.directWrite dt off v) s fun t => t.fld (0xF020, 0, 16) = satInc 16 (s.fld (0xF020, 0, 16)) ∧
        (t.reg 0xF034).toNat = off % 2 ^ 32 ∧ RegsBut [0xF020, 0xF034] s.toDev t ∧ Frame [.clk, .out, .regs] s.toDev t) ∧
  (∀ (s : State) (dt : Nat) (v : Reg), 
      fieldOf v 14 1 = 1 → (s.tick dt).Allows 0x5100 v → s.gns.fe = none → fieldOf v 0 3 < s.nPorts →
      CompletesThen (.feSpiGo dt v) s fun d => d.gns = { s.gns with fe := some (fieldOf v 0 3, fieldOf v 8 6) } ∧
        d.out = [.spi (fieldOf v 0 3) (msbFirst (fieldOf v 8 6) (s.reg 0x5104).toNat)]) ∧
  (∀ (s : State) (dt g : Nat) (v : Reg), 
      fieldOf v 0 4 = g → fieldOf v 4 1 = 1 → fieldOf v 5 1 = 0 → (s.tick dt).Allows 0x5064 v → s.gns.calib = none →
      s.gns.spare.isSome = true → s.grpServes g = true →
      CompletesThen (.calNow dt v) s fun d => d.gns = { s.gns with calib := some { grp := g } } ∧
        (∃ r ∈ d.gov.reqs, r.work = .calib g ∧ r.cls = 7 ∧ r.mw = 400)) ∧
  (∀ (s : State) (dt g : Nat) (v : Reg), 
      fieldOf v 0 4 = g → fieldOf v 4 1 = 0 → fieldOf v 5 1 = 1 → (s.tick dt).Allows 0x5064 v → s.grpThere g = true →
      g ∉ s.gns.retired →
      CompletesThen (.grpRetire dt v) s fun d => d.gns.retired = g :: s.gns.retired ∧ d.gns.spare = none ∧ .fault 0x43 false ∈ d.todo ∧
        (d.src 0x44).level = true) ∧
  (∀ (s : State) (dt : Nat) (v : Reg), (s.tick dt).Allows 0x7068 v →
      CompletesThen (.frkRetire dt v) s fun d => (∀ e, e < 8 → bitAt v.toNat e = true → e ∈ d.frk.retired) ∧
        (∀ e, e ∈ d.frk.retired → e ∈ s.frk.retired ∨ bitAt v.toNat e = true)) ∧
  (∀ (s : State) (dt : Nat) (v : Reg), fieldOf v 0 1 = 1 → fieldOf v 2 2 = 0 → (s.tick dt).Allows 0x301C v → s.mem.scrub = false →
      s.mem.scrubWait = false →
      CompletesThen (.scrubNow dt v) s fun d => d.mem = { s.mem with scrubWait := true } ∧ ∃ r ∈ d.gov.reqs, r.work = .scrub ∧ r.cls = 4) ∧
  (∀ (s : State) (dt : Nat) (v : Reg), 
      fieldOf v 0 1 = 0 → fieldOf v 2 2 = 1 → (s.tick dt).Allows 0x301C v → s.mem.rank0.present = true →
      s.mem.rank0.retired = false → s.mem.rank0.migrating = false → s.mem.rank1.present = true →
      s.mem.rank1.retired = false → s.mem.rank1.migrating = false →
      s.mem.rank1.used + s.mem.rank0.used ≤ s.mem.rank1.blocks →
      CompletesThen (.memRetire dt v) s fun d => d.mem = { s.mem with rank0 := { s.mem.rank0 with migrating := true, cause := 3 } } ∧
        ∃ r ∈ d.gov.reqs, r.work = .migrate 0) ∧
  (∀ (s : State) (dt n : Nat) (v : Reg), 
      n < 24 → fieldOf v 0 1 = 1 → (s.tick dt).Allows (0xC100 + 0x40 * n) v → (s.axis n).st = .disabled →
      fieldOf v 1 2 ≠ 3 →
      CompletesThen (.axisEnable dt n v) s fun d => (d.axis n).st = .idle ∧ (∀ m, m ≠ n → d.axis m = s.axis m) ∧ (d.axis n).ref = (s.axis n).ref)

/-- A qualified limit sets its latch, counts, and raises source 0xA0; an axis travelling toward it stops hard (ramping
where SERVICE asks it), ends its move with 0x0707 at the step count its profile (or its encoder) then has, and without
an encoder is LOST; homing that meets a limit not its reference ends 0x0705 and raises 0xA2; more than CHAT_N trips in
the window or both switches put the axis in FAULT and raise 0xA1 or 0xA5; a release clears the latch; an encoder error
puts the axis in FAULT with source 0xA4. Other axes are as they were. (Parts of R287, R293 to R298 and R306.) -/
def Obligations.ASwitchLatchesAndStopsItsAxis : Prop :=
  (∀ (s : State) (dt n : Nat) (neg : Bool), n < 24 → ((s.axis n).st ≠ .homing ∨ (s.axis n).isRef neg = false) →
      CompletesThen (.limitTrip dt n neg) s fun d => (if neg then (d.axis n).latchN else (d.axis n).latchP) = true ∧
        .fault 0xA0 false ∈ d.todo ∧ d.fld (axF n 0x34 0 16) = satInc 16 (s.fld (axF n 0x34 0 16)) ∧ (∀ m, m ≠ n → d.axis m = s.axis m) ∧
        RegsBut [0xC134 + 0x40 * n] s.toDev d ∧ Frame [.clk, .out, .regs, .axes, .hif, .todo] s.toDev d) ∧
  (∀ (s : State) (dt n h : Nat) (neg : Bool) (m : AxMove) (l : Live), 
      n < 24 → (s.axis n).st = .moving → (s.tick dt).axNeg n = neg →
      (if neg then (s.axis n).inP else (s.axis n).inN) = false →
      ((s.tick dt).chatTrips n (if neg then (s.axis n).tripsN else (s.axis n).tripsP)).length < s.fld (axF n 8 0 8) →
      (s.axMode n ≠ 0 ∨ s.flag (axF n 4 (if neg then 3 else 1) 1) = false) → (s.axis n).home = none →
      (s.axis n).move = some m → m.handle = some h → s.Waits h l →
      CompletesThen (.limitTrip dt n neg) s fun d => d.Answered l stAxsStopped (axRes (some m.txn) (d.axis n)) ∧
        (d.axis n).st = .idle ∧ (d.axis n).lastStop = 3 ∧ (d.axis n).move = none ∧ (d.axis n).legs = [] ∧
        (d.axis n).pos = (if s.axEnc n then s.axEncPos n else (s.tick dt).axPos n) ∧ (s.axEnc n = false → (d.axis n).ref = false) ∧
        (s.axEnc n = false → (s.axis n).ref = true → .fault 0xA6 false ∈ d.todo)) ∧
  (∀ (s : State) (dt n : Nat) (neg : Bool), n < 24 → (s.axis n).st = .moving → (s.tick dt).axNeg n = neg → (s.tick dt).axEdging n = false →
      (if neg then (s.axis n).inP else (s.axis n).inN) = false →
      ((s.tick dt).chatTrips n (if neg then (s.axis n).tripsN else (s.axis n).tripsP)).length < s.fld (axF n 8 0 8) →
      s.axMode n = 0 → s.flag (axF n 4 (if neg then 3 else 1) 1) = true →
      CompletesThen (.limitTrip dt n neg) s fun d => (d.axis n).st = .stopping ∧ (d.axis n).lastStop = 4 ∧
        (d.axis n).endWith = some stAxsStopped ∧ (d.axis n).move = (s.axis n).move ∧ (d.axis n).k = (s.tick dt).axKin n ∧
        (d.axis n).kAt = d.up ∧ (d.axis n).legs = haltLegs (s.fld (axF n 0x10 0 32)) 0 0) ∧
  (∀ (s : State) (dt n : Nat) (neg : Bool) (k : Homing) (l : Live), 
      n < 24 → (s.axis n).st = .homing → (s.tick dt).axNeg n = neg → (s.axis n).isRef neg = false →
      (if neg then (s.axis n).inP else (s.axis n).inN) = false →
      ((s.tick dt).chatTrips n (if neg then (s.axis n).tripsN else (s.axis n).tripsP)).length < s.fld (axF n 8 0 8) →
      (s.axis n).home = some k → s.Waits k.handle l →
      CompletesThen (.limitTrip dt n neg) s fun d => d.Answered l stHomeLimit (axRes none (d.axis n)) ∧
        (d.axis n).st = .idle ∧ (d.axis n).lastStop = 12 ∧ (d.axis n).ref = false ∧ (d.axis n).home = none ∧ .fault 0xA2 false ∈ d.todo) ∧
  (∀ (s : State) (dt n : Nat) (neg : Bool), 
      n < 24 → (s.axis n).st ≠ .homing → (if neg then (s.axis n).inP else (s.axis n).inN) = true →
      CompletesThen (.limitTrip dt n neg) s fun d => (d.axis n).st = .fault ∧ (d.axis n).lastStop = 14 ∧ .fault 0xA5 false ∈ d.todo) ∧
  (∀ (s : State) (dt n : Nat) (neg : Bool), 
      n < 24 → (s.axis n).st ≠ .homing → (if neg then (s.axis n).inP else (s.axis n).inN) = false →
      s.fld (axF n 8 0 8) ≤ ((s.tick dt).chatTrips n (if neg then (s.axis n).tripsN else (s.axis n).tripsP)).length →
      CompletesThen (.limitTrip dt n neg) s fun d => (d.axis n).st = .fault ∧ (d.axis n).chatter = true ∧ .fault 0xA1 false ∈ d.todo ∧
        d.fld (axF n 0x34 16 16) = satInc 16 (s.fld (axF n 0x34 16 16))) ∧
  (∀ (s : State) (dt n : Nat) (neg : Bool), s.Settled → n < 24 →
      Completes (.latchRelease dt n neg) s fun t => t.axis n = (if neg then { s.axis n with latchN := false, inN := false }
          else { s.axis n with latchP := false, inP := false }) ∧ (∀ m, m ≠ n → t.axis m = s.axis m) ∧ Frame [.clk, .out, .axes] s.toDev t) ∧
  (∀ (s : State) (dt n : Nat), s.axEnc n = true →
      CompletesThen (.encoderError dt n) s fun d => (d.axis n).st = .fault ∧ (d.axis n).lastStop = 13 ∧ (d.axis n).pos = s.axEncPos n ∧
        .fault 0xA4 false ∈ d.todo ∧
        (∀ m, m ≠ n → d.axis m = s.axis m) ∧ Frame [.clk, .out, .axes, .hif, .todo] s.toDev d)

/-- A move whose profile ends is IDLE at its target (and what the loop has corrected) and answered OK; a ramp that
ends is IDLE where its profile ends and answered with the status it was begun with; a velocity move that has come to
rest inside the Hedge window rests there and is answered 0x0703, and an axis outside the window stops hard with it;
homing goes from its search to its backoff and to its latch, takes OFFSET at the first asserted sample of the latch
phase, and ends REFERENCED and answered OK; a search that has travelled HOME_MAX ramps to rest, LOST, with source
0xA2. Other axes are as they were. (Parts of R272, R292, R297, R298, R300 and R305.) -/
def Obligations.AxesComeToRestAndAnswer : Prop :=
  (∀ (s : State) (n h : Nat) (m : AxMove) (l : Live) (u : Dev), u = s.tickUp (s.axis n).endUp →
      s.Settled → (s.axis n).st = .moving → m.mmode ≠ 3 → (s.axis n).home = none →
      (s.axis n).move = some m → m.handle = some h → s.Waits h l →
      Completes (.targetReached n) s fun t => t.Answered l stOK (axRes (some m.txn) (t.axis n)) ∧ t.clk = u.clk ∧
        t.axis n = { (s.axis n).still (Kin.steps { s := m.target * nmMm + (s.axis n).off + (s.axis n).cor * (4 * (u.up - (s.axis n).corAt) : Nat) / 1000000000, v := 0 }) with
          st := .idle, lastStop := 1, restAt := t.up, dir := u.axNeg n, waitEn := false, move := none, home := none, endWith := none } ∧
        (∀ m, m ≠ n → t.axis m = s.axis m) ∧ Frame [.clk, .out, .axes, .hif] s.toDev t) ∧
  (∀ (s : State) (n h : Nat) (m : AxMove) (l : Live) (u : Dev), u = s.tickUp (s.axis n).endUp →
      s.Settled → (s.axis n).st = .stopping → (s.axis n).home = none → (s.axis n).move = some m → m.handle = some h →
      s.Waits h l →
      Completes (.rampStopEnd n) s fun t =>
        t.Answered l ((s.axis n).endWith.getD stAxsStopped) (axRes (some m.txn) (t.axis n)) ∧ t.clk = u.clk ∧
        t.axis n = { (s.axis n).still (u.axPos n) with st := .idle, restAt := t.up, move := none, home := none, endWith := none } ∧
        (∀ m, m ≠ n → t.axis m = s.axis m) ∧ Frame [.clk, .out, .axes, .hif] s.toDev t) ∧
  (∀ (s : State) (dt n h : Nat) (m : AxMove) (l : Live) (w : Int × Int) (u : Dev), u = s.tick dt →
      s.Settled → (s.axis n).st = .moving → m.mmode = 3 → s.hedge n = some w → w.1 ≤ u.axPos n → u.axPos n ≤ w.2 → u.axOver n = true →
      (s.axis n).home = none → (s.axis n).move = some m → m.handle = some h → s.Waits h l →
      Completes (.hedgeEdge dt n) s fun t => t.Answered l stAxsHedge (axRes (some m.txn) (t.axis n)) ∧
        t.axis n = { (s.axis n).still (u.axPos n) with
          st := .idle, lastStop := 5, restAt := t.up, dir := u.axNeg n, waitEn := false, move := none, home := none, endWith := none } ∧
        (∀ m, m ≠ n → t.axis m = s.axis m) ∧ Frame [.clk, .out, .axes, .hif] s.toDev t) ∧
  (∀ (s : State) (dt n h : Nat) (m : AxMove) (l : Live) (w : Int × Int), 
      ((s.axis n).st = .moving ∨ (s.axis n).st = .stopping) → s.hedge n = some w → ((s.tick dt).axPos n < w.1 ∨ w.2 < (s.tick dt).axPos n) →
      (s.axis n).home = none → (s.axis n).move = some m → m.handle = some h → s.Waits h l →
      CompletesThen (.hedgeEdge dt n) s fun d => d.Answered l stAxsHedge (axRes (some m.txn) (d.axis n)) ∧
        (d.axis n).st = .idle ∧ (d.axis n).lastStop = 5 ∧ (s.axEnc n = false → (d.axis n).ref = false) ∧
        Frame [.clk, .out, .axes, .hif, .todo] s.toDev d) ∧
  (∀ (s : State) (dt n : Nat) (k : Homing) (u : Dev), u = s.tick dt →
      s.Settled → (s.axis n).st = .homing → (s.axis n).home = some k → (k.phase = 1 ∨ k.phase = 2) → k.found = false →
      (u.phaseRest n k).2 = true → (if (k.phase == 1) != k.neg then (s.axis n).latchN else (s.axis n).latchP) = false →
      Completes (.homingPhaseEnd dt n) s fun t => t.clk = u.clk ∧
        (t.axis n).st = .homing ∧ (t.axis n).home = some { k with phase := k.phase + 1 } ∧ (t.axis n).dir = ((k.phase == 1) != k.neg) ∧
        (if k.ref = 0 then (t.axis n).inH else if k.ref = 1 then (t.axis n).inN else (t.axis n).inP) = decide (k.phase = 1) ∧
        (t.axis n).en = true ∧ (t.axis n).short = false ∧ (t.axis n).ref = (s.axis n).ref ∧
        (t.axis n).pos = (if u.axOver n = true then u.axPos n else
          Kin.steps { s := (s.axis n).k.s + (if (k.phase == 2) != k.neg then -((u.phaseRest n k).1 : Int) else (u.phaseRest n k).1), v := 0 }) ∧
        (∀ m, m ≠ n → t.axis m = s.axis m) ∧ Frame [.clk, .out, .axes] s.toDev t) ∧
  (∀ (s : State) (dt n : Nat) (k : Homing) (l : Live) (u : Dev), u = s.tickUp (s.axis n).endUp →
      s.Settled → (s.axis n).st = .homing → k.phase = 3 → k.found = true → (s.axis n).home = some k →
      s.Waits k.handle l →
      Completes (.homingPhaseEnd dt n) s fun t => t.Answered l stOK (axRes none (t.axis n)) ∧ t.clk = u.clk ∧
        t.axis n = { (s.axis n).still (u.axPos n) with
          st := .idle, ref := true, lastStop := 1, restAt := t.up, move := none, home := none, endWith := none } ∧
        (∀ m, m ≠ n → t.axis m = s.axis m) ∧ Frame [.clk, .out, .axes, .hif] s.toDev t) ∧
  (∀ (s : State) (n : Nat) (k : Homing), (s.axis n).st = .homing → (s.axis n).home = some k → k.phase = 1 →
      CompletesThen (.homeNotFound n) s fun d => (d.axis n).st = .stopping ∧ (d.axis n).endWith = some stHomeNotFound ∧
        (d.axis n).ref = false ∧ (d.axis n).home = some k ∧ .fault 0xA2 false ∈ d.todo ∧
        d.up = max s.up ((s.axis n).kAt + ceilDiv (runNs k.vSearch (s.fld (axF n 0x10 0 32)) k.max_) 4) ∧
        (d.axis n).legs = haltLegs (s.fld (axF n 0x10 0 32)) 0 0 ∧ (∀ m, m ≠ n → d.axis m = s.axis m) ∧
        Frame [.clk, .out, .axes, .todo] s.toDev d) ∧
  (∀ (s : State) (dt n : Nat) (cnt : Int) (k : Homing) (u : Dev), u = s.tick dt →
      s.Settled → (s.axis n).st = .homing → (s.axis n).home = some k → k.phase = 3 → k.found = false → (s.axis n).kAt ≤ u.up →
      Completes (.homeEvent dt n cnt) s fun t => (t.axis n).ref = true ∧ t.clk = u.clk ∧
        (t.axis n).home = some { k with found := true } ∧ (t.axis n).st = .homing ∧
        (t.axis n).k = { u.axKin n with s := (u.axKin n).s + (k.offset - (s.axis n).posAt (u.up - 2 * s.fld (axF n 4 8 10) * 2500)) * nmMm } ∧
        (t.axis n).legs = haltLegs (s.fld (axF n 0x10 0 32)) 0 0 ∧
        (s.axEnc n = true → t.axEnc16 n = cnt * (s.fld (axF n 0x1C 0 32) : Nat) + k.offset * 65536) ∧
        (∀ m, m ≠ n → t.axis m = s.axis m) ∧ Frame [.clk, .out, .axes] s.toDev t)

/-- IDLE_DELAY after rest the action of IDLE_ACT is carried out; at the end of EN_DELAY the wait is over; AXIS_HOME of
an IDLE axis in RUN with legal parameters energises it and begins the search, or the back-off where the reference is
already asserted; in FLEET_STOP it is refused STOPPED and changes no axis; AXIS_STOP begins a ramp, stops hard, or
clears a FAULT whose cause is gone (parts of R26, R297, R299, R304 and R305). -/
def Obligations.AxesAreEnergisedHomedAndStopped : Prop :=
  (∀ (s : State) (n : Nat), s.Settled → n < 24 → (s.axis n).st = .idle → (s.axis n).stand = false →
      Completes (.standstill n) s fun t => t.axis n = { s.axis n with
          stand := true, en := (s.axis n).en && s.fld (axF n 0 4 2) == 0, short := decide (s.fld (axF n 0 4 2) = 2) } ∧
        t.up = max s.up ((s.axis n).restAt + s.fld (axF n 0x20 24 8) * 10 * cycMs) ∧ (∀ m, m ≠ n → t.axis m = s.axis m) ∧ Frame [.clk, .out, .axes] s.toDev t) ∧
  (∀ (s : State) (n : Nat), s.Settled → (s.axis n).waitEn = true →
      Completes (.enDelayEnd n) s fun t => t.axis n = { s.axis n with waitEn := false } ∧ (∀ m, m ≠ n → t.axis m = s.axis m) ∧
        t.up = max s.up ((s.axis n).enAt + s.fld (axF n 0 24 8) * cycMs) ∧ Frame [.clk, .out, .axes] s.toDev t) ∧
  (∀ (s : State) (h n : Nat) (seen : Bool) (l : Live), 
      s.Settled → s.Runs h 0x69 l → l.p 20 1 = n → s.HomeOk l n → s.saf.run = .run → (s.axis n).st = .idle →
      s.saf.latchA = false → s.saf.latchB = false →
      (if seen != decide (l.p 22 1 = 1) then (s.axis n).latchN else (s.axis n).latchP) = false →
      Completes (.axisHome h seen) s fun t => t.Begun l ∧ (t.axis n).st = .homing ∧ (t.axis n).dir = (seen != decide (l.p 22 1 = 1)) ∧
        (t.axis n).en = true ∧ (t.axis n).short = false ∧ (t.axis n).pos = (s.axis n).pos ∧
        (t.axis n).waitEn = ((s.axis n).waitEn || !((s.axis n).en && !(s.axis n).stand)) ∧ (t.axis n).home = some {
          handle := h, ref := l.p 21 1, neg := decide (l.p 22 1 = 1), vSearch := l.p 4 4, vLatch := l.p 8 4, backoff := l.p 12 4
          offset := l.ps 16 4, max_ := l.p 0 4, phase := if seen then 2 else 1 } ∧ (∀ m, m ≠ n → t.axis m = s.axis m) ∧ Frame [.out, .hif, .axes] s.toDev t) ∧
  (∀ (s : State) (h : Nat) (seen : Bool) (l : Live), 
      s.Settled → s.Runs h 0x69 l → s.HomeOk l (l.p 20 1) → (s.saf.run = .fleetStop ∨ s.saf.run = .safe) →
      Completes (.axisHome h seen) s fun t => t.Answered l (if s.saf.run = .safe then stSafe else stStopped) (offsetRes none) ∧
        Frame [.out, .hif] s.toDev t) ∧
  (∀ (s : State) (h n : Nat) (l : Live), s.Settled → s.Runs h 0x6A l → l.p 0 1 = n → l.p 1 1 = 1 →
      Completes (.axisStop h) s fun t => t.Answered l stOK [] ∧
        ((s.axis n).st = .moving ∧ s.axEdging n = false ∨ (s.axis n).st = .homing →
          t.axis n = { (s.axis n).drive (s.axKin n) s.up (haltLegs (s.fld (axF n 0x10 0 32)) 0 0) with
            st := .stopping, lastStop := 2, endWith := some stAxsStopped, dir := s.axNeg n, waitEn := false }) ∧
        (((s.axis n).st = .moving → s.axEdging n = true) → (s.axis n).st ≠ .homing → t.axis n = s.axis n) ∧ (∀ m, m ≠ n → t.axis m = s.axis m) ∧ Frame [.out, .hif, .axes] s.toDev t) ∧
  (∀ (s : State) (h n : Nat) (l : Live), s.Runs h 0x6A l → l.p 0 1 = n → l.p 1 1 = 2 → (s.axis n).atRest = false →
      (s.axis n).home.map (·.handle) ≠ some h → (s.axis n).move.bind (·.handle) ≠ some h →
      CompletesThen (.axisStop h) s fun d => d.Answered l stOK [] ∧ (d.axis n).st = .idle ∧ (d.axis n).lastStop = 2 ∧
        (d.axis n).move = none ∧ (d.axis n).home = none ∧ (∀ m, m ≠ n → d.axis m = s.axis m) ∧ Frame [.out, .hif, .axes, .todo] s.toDev d) ∧
  (∀ (s : State) (h n : Nat) (l : Live), s.Settled → s.Runs h 0x6A l → l.p 0 1 = n → l.p 1 1 = 3 →
      Completes (.axisStop h) s fun t =>
        ((s.axis n).st ≠ .fault → t.Answered l stAxsState [] ∧ t.axis n = s.axis n) ∧
        ((s.axis n).st = .fault → s.axFaultHolds n = true → t.Answered l stAxsFault [] ∧ t.axis n = s.axis n) ∧
        ((s.axis n).st = .fault → s.axFaultHolds n = false → t.Answered l stOK [] ∧ (t.axis n).st = .idle ∧ (t.axis n).chatter = false) ∧
        (∀ m, m ≠ n → t.axis m = s.axis m) ∧ Frame [.out, .hif, .axes] s.toDev t)

/-- A sample of an axis counts its encoder and computes its slot: an OPEN slot outputs the feed-forward of its profile
and its frozen integrator through the limits, and a CLOSED one the law of R252 of the error between profile and
encoder; a following error above FOLLOW_MAX stops the axis hard in FAULT with source 0xA3. A robot that is stopped
(another run state than RUN, a latch, or not ACTIVE) gets a longitudinal output and a set-point of 0, and in SAFE the
lateral output is 0 as well; otherwise the record holds the two outputs in mm/s and 1e-6 1/m, computed of the robot
predicted forward to the apply time of the batch that the computation is in time for. (Parts of R252 to R255, R264 to
R266 and R290.) -/
def Obligations.TheControlEngineComputesItsSlots : Prop :=
  (∀ (s : State) (dt n : Nat) (cnt : Int) (u : Dev) (v : F32), 
      (u = if s.axEnc n then (s.tick dt).setAxis n { s.axis n with encCnt := (s.axis n).encCnt + cnt } else s.tick dt) →
      s.Settled → n < 24 → s.upd.pause ≠ some 4 → (s.loop n).st = .open_ →
      (s.axEnc n = false ∨ (u.axPos n - u.axEncPos n).natAbs ≤ s.fld (axF n 0x20 0 24)) →
      v = fAdd (u.axIn n).2 (s.loop n).i → fFinite v = true → fFinite (u.axLimit n (s.loop n).u v) = true →
      Completes (.axisLoopSample dt n cnt) s fun t => t.clk = u.clk ∧ t.axPos n = u.axPos n ∧ t.axEnc16 n = u.axEnc16 n ∧
        (t.axis n).st = (s.axis n).st ∧ (t.axis n).cor = (if (s.axis n).legs = [] then (s.axis n).cor else 0) ∧
        t.loop n = { s.loop n with u := u.axLimit n (s.loop n).u v, ff := (u.axIn n).2, sat := !fEq (u.axLimit n (s.loop n).u v) v, misses := 0 } ∧
        (∀ m, m ≠ n → t.loop m = s.loop m ∧ t.axis m = s.axis m) ∧ Frame [.clk, .out, .axes, .ctl] s.toDev t) ∧
  (∀ (s : State) (dt n : Nat) (cnt : Int) (u : Dev) (x : LoopSlot × Nat), 
      u = (s.tick dt).setAxis n { s.axis n with encCnt := (s.axis n).encCnt + cnt } →
      s.Settled → s.axEnc n = true → s.upd.pause ≠ some 4 → (s.loop n).st = .closed →
      (u.axPos n - u.axEncPos n).natAbs ≤ s.fld (axF n 0x20 0 24) →
      (x = s.law n { s.loop n with misses := 0 } (u.axIn n).1 (u.axIn n).2 (u.axLimit n (s.loop n).u)) →
      x.1.finite = true → fFinite x.2 = true →
      Completes (.axisLoopSample dt n cnt) s fun t => t.clk = u.clk ∧ t.loop n = x.1 ∧ t.axEncPos n = u.axEncPos n ∧ t.axPos n = u.axPos n ∧
        (t.axis n).st = (s.axis n).st ∧
        ((s.axis n).st = .moving → (s.axis n).legs ≠ [] → (s.axis n).kAt ≤ u.up → (t.axis n).cor = fToInt x.1.u nmMm - (u.axRef n).v) ∧
        (∀ m, m ≠ n → t.loop m = s.loop m ∧ t.axis m = s.axis m) ∧ Frame [.clk, .out, .axes, .ctl] s.toDev t) ∧
  (∀ (s : State) (dt n : Nat) (cnt : Int) (u : Dev), u = (s.tick dt).setAxis n { s.axis n with encCnt := (s.axis n).encCnt + cnt } →
      s.axEnc n = true → s.upd.pause ≠ some 4 → (s.axis n).st ≠ .disabled → ((s.axis n).st = .fault → (s.axis n).faultBy ≠ 9) →
      s.fld (axF n 0x20 0 24) < (u.axPos n - u.axEncPos n).natAbs →
      CompletesThen (.axisLoopSample dt n cnt) s fun d => (d.axis n).st = .fault ∧ (d.axis n).lastStop = 9 ∧
        (d.axis n).pos = u.axEncPos n ∧ (d.axis n).move = none ∧ .fault 0xA3 false ∈ d.todo ∧ (∀ m, m ≠ n → d.axis m = s.axis m)) ∧
  (∀ (s : State) (dt i : Nat) (u : Dev) (due at_ : NT), u = s.tick dt →
      due = ntAdd u.nt u.packLead → at_ = u.setApply (u.batchSlots i due).2 →
      s.Settled → i < s.nSlots → s.getsSetpoints i = true → s.upd.pause ≠ some 4 → s.stoppedRobot i = true → s.saf.run = .safe →
      Completes (.robotPairComputation dt i) s fun t => t.clk = u.clk ∧ (t.loop (24 + 2 * i)).u = 0 ∧ (t.loop (25 + 2 * i)).u = 0 ∧
        ((Tab.get (fun _ => []) t.ctl.sent i).head? = some { t := at_, v := 0, k := 0 }) ∧
        (∀ m, m ≠ 24 + 2 * i → m ≠ 25 + 2 * i → t.loop m = s.loop m) ∧ Frame [.clk, .out, .ctl, .mac] s.toDev t) ∧
  (∀ (s : State) (dt i : Nat) (u : Dev) (due at_ : NT), u = s.tick dt →
      due = ntAdd u.nt u.packLead → at_ = u.setApply (u.batchSlots i due).2 →
      i < s.nSlots → s.getsSetpoints i = true → s.upd.pause ≠ some 4 → s.stoppedRobot i = true → s.saf.run ≠ .safe →
      CompletesThen (.robotPairComputation dt i) s fun d => (d.loop (25 + 2 * i)).u = 0 ∧
        ((Tab.get (fun _ => []) d.ctl.sent i).head? = some { t := at_, v := 0, k := fToInt (d.loop (24 + 2 * i)).u 1000000 }) ∧
        Frame [.clk, .out, .ctl, .regs, .mac, .todo] s.toDev d) ∧
  (∀ (s : State) (dt i : Nat) (u : Dev) (due at_ : NT) (p : PairIn) (x : LoopSlot × Nat), u = s.tick dt →
      due = ntAdd u.nt u.packLead → at_ = u.setApply (u.batchSlots i due).2 →
      (p = ((u.setLoop (24 + 2 * i) (rampRef (s.loop (24 + 2 * i)) (s.lease i).tRep)).setLoop (25 + 2 * i)
        (rampRef (s.loop (25 + 2 * i)) (s.lease i).tRep)).pairIn i at_) →
      i < s.nSlots → s.getsSetpoints i = true → s.upd.pause ≠ some 4 → s.stoppedRobot i = false → s.saf.run ≠ .safe →
      (s.loop (24 + 2 * i)).st = .closed →
      (x = s.law (24 + 2 * i) { rampRef (s.loop (24 + 2 * i)) (s.lease i).tRep with misses := 0 } p.latE p.latFf (s.limitOut (24 + 2 * i) (fun v => v) (s.loop (24 + 2 * i)).u)) →
      x.1.finite = true → fFinite x.2 = true →
      CompletesThen (.robotPairComputation dt i) s fun d => d.loop (24 + 2 * i) = x.1 ∧
        (Tab.get (fun _ => []) d.ctl.sent i).head? = some {
          t := at_, v := fToInt (d.loop (25 + 2 * i)).u 1000, k := fToInt x.1.u 1000000 } ∧ Frame [.clk, .out, .ctl, .regs, .mac, .todo] s.toDev d)

/-- A missed computation is counted and raises source 0x70; a CLOSED slot becomes HELD and MISSED is set; an axis that
has missed LAST_STOP of them in a row stops hard, with source 0x71; the record of a robot repeats its last set-point,
with speed 0 from N_HELD misses on or while the robot is stopped. (Parts of R259, R262 and R263.) -/
def Obligations.AMissedDeadlineHoldsItsSlot : Prop :=
  (∀ (s : State) (dt n : Nat), n < 24 → s.upd.pause ≠ some 4 → (s.loop n).st = .closed →
      CompletesThen (.deadlineMiss dt n) s fun d => d.loop n = { s.loop n with st := .held, from_ := .closed, misses := (s.loop n).misses + 1 } ∧
        (∀ m, m ≠ n → d.loop m = s.loop m) ∧ d.fld (lpMissed n) = 1 ∧ d.fld (0xA020, 0, 16) = satInc 16 (s.fld (0xA020, 0, 16)) ∧
        .fault 0x70 false ∈ d.todo ∧ ((s.loop n).misses + 1 = s.fld (0xA014, 20, 4) → .fault 0x71 false ∈ d.todo ∧
          ((s.axis n).atRest = false → (d.axis n).st = .idle ∧ (d.axis n).lastStop = 11)) ∧
        RegsBut [0xA500 + 4 * n, 0xA020] s.toDev d ∧ Frame [.clk, .out, .ctl, .regs, .axes, .hif, .todo] s.toDev d) ∧
  (∀ (s : State) (dt n i : Nat) (p : SetPt) (u : Dev), 
      u = s.tick dt → n < s.nLoops → loopRobot n = some i → s.upd.pause ≠ some 4 → s.getsSetpoints i = true →
      (s.loop (24 + 2 * i)).st = .closed → (s.loop (25 + 2 * i)).st = .closed →
      ((Tab.get (fun _ => []) s.ctl.sent i).head? = some p) →
      CompletesThen (.deadlineMiss dt n) s fun d => (d.loop (24 + 2 * i)).st = .held ∧ (d.loop (25 + 2 * i)).st = .held ∧
        (d.loop (25 + 2 * i)).misses = (s.loop (25 + 2 * i)).misses + 1 ∧ .fault 0x70 false ∈ d.todo ∧
        (Tab.get (fun _ => []) d.ctl.sent i).head? = some {
          t := u.setApply (u.batchSlots i (ntAdd u.nt 1)).2, k := p.k
          v := if s.stoppedRobot i ∨ s.fld (0xA014, 16, 4) ≤ (s.loop (25 + 2 * i)).misses + 1 then 0 else p.v } ∧
        d.fld (0xA020, 0, 16) = satInc 16 (s.fld (0xA020, 0, 16)) ∧ Frame [.clk, .out, .ctl, .regs, .mac, .todo] s.toDev d)

/-- TXN_SUBMIT, LOOP_OPEN, LOOP_CLOSE, LOOP_HANDOVER and AXIS_MOVE with legal parameters, in RUN and with fewer than
256 transactions of the host in flight, begin and stand in flight with their actions and their apply time; the 257th
is refused BUSY; in FLEET_STOP a move is refused STOPPED and a LOOP_OPEN, which is stop-safe, is taken. (Parts of R222
to R224, R260 and R300.) -/
def Obligations.MotionCommandsBecomeTransactions : Prop :=
  (∀ (s : State) (h : Nat) (l : Live) (b : List Byte), 
      s.Settled → s.Runs h 0x51 l → s.TakesMotion → s.applyTimeOk (l.pNt 0) = true → l.p 8 1 ≤ 64 → l.p 9 1 ≤ 1 →
      l.len = 32 * l.p 8 1 →
      Completes (.txnSubmit h (some b)) s fun t => t.Begun l ∧ t.txu = { s.txu with txns := s.txu.txns ++ [{
          handle := some h, host := true, received := s.nt, acts := (List.range (l.p 8 1)).map fun i => parseAct (slice b (32 * i) 32), applyAt := givenApply (l.pNt 0), doneAt := l.p 9 1 = 1
          stopSafe := ((List.range (l.p 8 1)).map fun i => parseAct (slice b (32 * i) 32)).all Action.stopSafe }] } ∧
        Frame [.out, .hif, .txu] s.toDev t) ∧
  (∀ (s : State) (h : Nat) (l : Live), 
      s.Settled → s.Runs h 0x60 l → (s.TakesMotion ∨ (s.saf.run = .fleetStop ∧ s.inFlight < 256)) →
      s.applyTimeOk (l.pNt 0) = true →
      Completes (.loopOpen h) s fun t => t.Begun l ∧ t.txu = { s.txu with txns := s.txu.txns ++ [{
          handle := some h, host := true, received := s.nt, acts := [.loopMode (l.p 8 2) 1 0 0 0], applyAt := givenApply (l.pNt 0), stopSafe := true }] } ∧
        Frame [.out, .hif, .txu] s.toDev t) ∧
  (∀ (s : State) (h : Nat) (l : Live), s.Settled → s.Runs h 0x61 l → s.TakesMotion → s.applyTimeOk (l.pNt 0) = true → l.p 10 1 ≤ 1 →
      Completes (.loopClose h) s fun t => t.Begun l ∧ t.txu = { s.txu with txns := s.txu.txns ++ [{
          handle := some h, host := true, received := s.nt, acts := [.loopMode (l.p 8 2) 2 (l.p 10 1) 0 0], applyAt := givenApply (l.pNt 0) }] } ∧
        Frame [.out, .hif, .txu] s.toDev t) ∧
  (∀ (s : State) (h : Nat) (l : Live), 
      s.Settled → s.Runs h 0x62 l → s.TakesMotion → s.applyTimeOk (l.pNt 0) = true → 24 ≤ l.p 8 2 → l.p 8 2 % 2 = 0 →
      (l.p 10 1 = 1 ∨ l.p 10 1 = 2) → 20 ≤ l.p 12 2 → l.p 12 2 ≤ 500 →
      Completes (.loopHandover h) s fun t => t.Begun l ∧ t.txu = { s.txu with txns := s.txu.txns ++ [{
          handle := some h, host := true, received := s.nt, acts := [.loopMode (l.p 8 2) 3 0 (l.p 10 1) (l.p 12 2)], applyAt := givenApply (l.pNt 0) }] } ∧
        Frame [.out, .hif, .txu] s.toDev t) ∧
  (∀ (s : State) (h : Nat) (l : Live), s.Settled → s.Runs h 0x68 l → s.TakesMotion → s.applyTimeOk (l.pNt 0) = true →
      moveBlockOk (slice l.entry 40 24) = true →
      Completes (.axisMove h) s fun t => t.Begun l ∧ t.txu = { s.txu with txns := s.txu.txns ++ [{
          handle := some h, host := true, received := s.nt, acts := [.axisMove (l.p 8 1) (slice l.entry 40 24)], applyAt := givenApply (l.pNt 0), move := true }] } ∧
        Frame [.out, .hif, .txu] s.toDev t) ∧
  (∀ (s : State) (h : Nat) (l : Live), s.Settled → s.Runs h 0x68 l → s.saf.run = .fleetStop → s.applyTimeOk (l.pNt 0) = true →
      moveBlockOk (slice l.entry 40 24) = true →
      Completes (.axisMove h) s fun t => t.Answered l stStopped (offsetRes none) ∧ Frame [.out, .hif] s.toDev t) ∧
  (∀ (s : State) (h : Nat) (l : Live), 
      s.Settled → s.Runs h 0x61 l → s.saf.run = .run → 256 ≤ s.inFlight → s.applyTimeOk (l.pNt 0) = true →
      l.p 10 1 ≤ 1 →
      Completes (.loopClose h) s fun t => t.Answered l stBusy (offsetRes none) ∧ Frame [.out, .hif] s.toDev t)

/-- The opening of an axis loop that is not OPEN, with no time given, is staged under the next id for the first slot
boundary 1 ms ahead or more, and PROGRESS 1 says so; one whose first action breaks R222 ends with BAD_ACTION and index
0 and is not counted as an abort; a fleet transaction with a given time that still waits at C less OFFER_LEAD ends
with DEADLINE and is counted. (Parts of R222, R225, R226 and R228.) -/
def Obligations.TransactionsAreValidatedInTurn : Prop :=
  (∀ (s : State) (dt n h set steer blend : Nat) (l : Live) (x : Txn), 
      s.Settled → (s.txu.txns.find? (fun y => y.phase == .waiting) = some x) → x.id = 0 → x.step = false →
      x.acts = [.loopMode n 1 set steer blend] → n < 24 → (s.loop n).st ≠ .open_ → x.applyAt = none → x.round = false →
      x.also = [] → x.handle = some h → s.Waits h l → s.Room l.cq → s.par.hand = none →
      (∀ r ∈ s.trl.resv, ¬ (r.txn = s.txu.nextId ∧ r.staged = true)) →
      Completes (.txnValidationEnd dt []) s fun t =>
        let a := slotAtOrAfter (ntAdd t.nt (msTicks 1))
        t.Progressed l 1 (validRes s.txu.nextId a) ∧ t.txu.nextId = (if s.txu.nextId = 0xFFFFFF then 1 else s.txu.nextId + 1) ∧
        (∃ y ∈ t.txu.txns, y.id = s.txu.nextId ∧ y.phase = .staged ∧ y.applyAt = some a ∧ y.acts = x.acts ∧ y.handle = x.handle ∧ y.parts = []) ∧
        t.clk = s.clk.run dt ∧ Frame [.clk, .out, .hif, .txu] s.toDev t) ∧
  (∀ (s : State) (dt h : Nat) (l : Live) (x : Txn) (rest : List Action), 
      s.Settled → (s.txu.txns.find? (fun y => y.phase == .waiting) = some x) → x.id = 0 → x.acts = .bad :: rest →
      x.tasks = [] → x.round = false → x.also = [] → x.handle = some h → s.Waits h l → s.par.hand = none →
      Completes (.txnValidationEnd dt []) s fun t => t.Answered l stBadAction (txnDone x 0) ∧
        t.txu = { s.txu with txns := s.txu.txns.filter fun y => !(y.id = 0 && y.received = x.received && y.handle = x.handle) } ∧
        Frame [.clk, .out, .hif, .txu] s.toDev t) ∧
  (∀ (s : State) (h : Nat) (l : Live) (x : Txn) (a : NT), 
      s.Settled → s.txu.txns = [x] → x.phase = .waiting → x.fleet = true → x.applyAt = some a → x.id = 0 →
      x.tasks = [] → x.round = false → x.also = [] → x.handle = some h → s.Waits h l →
      Completes .offerDeadline s fun t => t.Answered l stDeadline (txnDone x 0xFF) ∧ t.txu = { s.txu with txns := [] } ∧
        t.fld (0x902C, 16, 16) = satInc 16 (s.fld (0x902C, 16, 16)) ∧ RegsBut [0x902C] s.toDev t ∧
        t.clk = s.clk.run (s.clk.cyclesTo (ntAdd (commitOf a) (-(s.offerLead : Nat)))) ∧ Frame [.clk, .out, .hif, .txu, .regs] s.toDev t)

/-- At the cut-off a transaction that its re-check passes is listed; a fleet transaction joins the list of its beacon,
or raises 0xB8 where the list comes too late; one that fails ends CONFLICT with source 0x6C and its staged entries
leave. A beacon is sent on every lane in service that has begun and has sent none in this slotframe; it carries its
list, and a listed transaction commits: its entries are FIRM and it is counted. (Parts of R226, R228, R229, R325 and
R415.) -/
def Obligations.TransactionsPassTheirCutOffAndCommit : Prop :=
  (∀ (s : State) (late : Bool) (x : Txn) (a : NT), 
      s.Settled → s.txu.txns = [x] → x.phase = .staged → x.fleet = false → x.applyAt = some a → x.parts = [] →
      x.id ≠ 0 → (s.tickTo (ntAdd a (-(msTicks 1 : Nat)))).recheck x = none →
      Completes (.cutOff late) s fun t => t.txu = { s.txu with txns := [{ x with phase := .listed }] } ∧ t.clk = (s.tickTo (ntAdd a (-(msTicks 1 : Nat)))).clk ∧
        t.trl = { s.trl with cache := t.trl.cache } ∧ RegsBut [0x804C] s.toDev t ∧ Frame [.clk, .out, .txu, .trl, .regs] s.toDev t) ∧
  (∀ (s : State) (x : Txn) (a : NT), s.Settled → s.txu.txns = [x] → x.phase = .offered → x.fleet = true → a = x.cNt →
      ((x.parts.all fun p => p.reofferApply.isNone) = true) → x.id ≠ 0 →
      (s.tickTo (ntAdd a (-(msTicks 1 : Nat)))).recheck x = none →
      Completes (.cutOff false) s fun t => t.txu = { s.txu with
          txns := [{ x with phase := .listed }]
          lists := s.txu.lists ++ [{ c := ntAdd (ntAdd a (-(msTicks 1 : Nat))) (msTicks 1 : Nat), ids := [x.id] }] } ∧
        t.clk = (s.tickTo (ntAdd a (-(msTicks 1 : Nat)))).clk ∧ t.trl = { s.trl with cache := t.trl.cache } ∧ RegsBut [0x804C] s.toDev t ∧
        Frame [.clk, .out, .txu, .trl, .regs] s.toDev t) ∧
  (∀ (s : State) (x : Txn) (a : NT), s.txu.txns = [x] → x.phase = .offered → x.fleet = true → a = x.cNt →
      ((x.parts.all fun p => p.reofferApply.isNone) = true) → x.id ≠ 0 →
      (s.tickTo (ntAdd a (-(msTicks 1 : Nat)))).recheck x = none →
      CompletesThen (.cutOff true) s fun d => d.txu = { s.txu with txns := [{ x with phase := .listed }] } ∧ .fault 0xB8 false ∈ d.todo ∧
        d.clk = (s.tickTo (ntAdd a (-(msTicks 1 : Nat)))).clk ∧ d.trl = { s.trl with cache := d.trl.cache } ∧ RegsBut [0x804C] s.toDev d ∧
        Frame [.clk, .out, .txu, .trl, .regs, .todo] s.toDev d) ∧
  (∀ (s : State) (h : Nat) (late : Bool) (x : Txn) (a : NT) (l : Live), 
      s.txu.txns = [x] → x.phase = .staged → x.fleet = false → x.applyAt = some a → x.parts = [] → x.id ≠ 0 →
      (s.tickTo (ntAdd a (-(msTicks 1 : Nat)))).recheck x = some stConflict → x.tasks = [] → x.round = false →
      x.also = [] → x.handle = some h → s.Waits h l →
      CompletesThen (.cutOff late) s fun d => d.Answered l stConflict (txnDone x 0xFF) ∧ d.txu.txns = [] ∧ .fault 0x6C false ∈ d.todo ∧
        d.fld (0x902C, 16, 16) = satInc 16 (s.fld (0x902C, 16, 16)) ∧ (∀ r ∈ d.trl.resv, ¬ (r.txn = x.id ∧ r.staged = true))) ∧
  (∀ (s : State) (u : Dev) (ids : List Nat), 
      u = s.tickTo s.beaconNt → s.beaconing = true → u.holdsToken = true → s.saf.restarting = false →
      s.mac.silentUntil = none → s.upd.pause ≠ some 5 →
      (ids = ((s.txu.lists.find? fun x => x.c == u.frameStart).map (·.ids)).getD []) →
      CompletesThen .beacon s fun d => d.clk = u.clk ∧ (∀ n ∈ s.inService,
          (s.lane n).owesBeacon (slotframeOf u.frameStart.toNat) = true →
          (d.lane n).beaconSf = some (slotframeOf u.frameStart.toNat) ∧ .beacon n (s.saf.run == .run || (s.saf.run == .updatePause && s.saf.pausedFrom == some .run)) ids ∈ d.out ∧
          .frame n 0 0xFFFF (u.beaconBody u.frameStart ids) ∈ d.out) ∧
        (∀ x ∈ d.txu.lists, ntAfter x.c u.frameStart = true)) ∧
  (∀ (s : State) (u : Dev) (id : Nat) (x : Txn), 
      u = s.tickTo s.beaconNt → s.beaconing = true → u.holdsToken = true → s.saf.restarting = false →
      s.mac.silentUntil = none → s.upd.pause ≠ some 5 →
      ((s.txu.lists.find? fun y => y.c == u.frameStart).map (·.ids) = some [id]) → s.txn? id = some x →
      x.phase = .listed → x.doneAt = true →
      ((x.acts.all fun a => match a with | .setpoint .. => false | _ => true) = true) →
      CompletesThen .beacon s fun d => d.txn? id = some { x with phase := .committed } ∧
        d.fld (0x902C, 0, 16) = wrapInc 16 (s.fld (0x902C, 0, 16)) ∧ d.trl.resv = s.trl.resv.map fun r =>
          if r.txn = id && (r.kind = .offered || r.staged) then { r with kind := .firm, staged := false } else r)

/-- At its apply time the committed opening of an axis loop opens the loop and, having no participants, is answered OK
and leaves; an offer that failed leaves with its entries. REOFFER_GAP after the apply time an ACTIVE participant that
has not confirmed is offered again and counted, one that is not ACTIVE only waits on; CONFIRM_TIMEOUT after it the
participant is UNSYNCED, counted, with source 0x68. TXN_CANCEL ends an uncommitted transaction CANCELLED, answers
TOO_LATE from the cut-off on, and does not know an unknown id. (Parts of R226, R228, R234 to R236, R239 and R258.) -/
def Obligations.TransactionsApplySettleAndAreCancelled : Prop :=
  (∀ (s : State) (n h set steer blend : Nat) (x : Txn) (a : NT) (l : Live), 
      s.Settled → s.txu.txns = [x] → x.phase = .committed → x.applyAt = some a → x.id ≠ 0 →
      x.acts = [.loopMode n 1 set steer blend] → n < 24 → ((s.loop n).st = .closed ∨ (s.loop n).st = .held) →
      x.parts = [] → x.tasks = [] → x.behind = [] → x.move = false → s.trl.resv = [] → s.trl.high = false →
      x.round = false → x.also = [] → x.handle = some h → s.Waits h l →
      Completes .txnApply s fun t => t.Answered l stOK (txnDone x 0xFF) ∧ t.loop n = (s.loop n).opened ∧ (t.loop n).st = .open_ ∧
        (t.loop n).i = fSub (s.loop n).u (s.loop n).ff ∧ (∀ m, m ≠ n → t.loop m = s.loop m) ∧ t.txu = { s.txu with txns := [] } ∧
        t.clk = s.clk.run (s.clk.cyclesTo a) ∧ Frame [.clk, .out, .hif, .ctl, .txu] s.toDev t) ∧
  (∀ (s : State) (x : Txn) (a : NT), s.txu.txns = [x] → x.phase = .failed → x.applyAt = some a → x.grants = [] →
      CompletesThen .txnApply s fun d => d.txu = { s.txu with txns := [] } ∧
        (∀ r ∈ d.trl.resv, ¬ (r.txn = x.id ∧ (r.kind = .offered ∨ r.staged = true))) ∧ d.clk = s.clk.run (s.clk.cyclesTo a)) ∧
  (∀ (s : State) (x : Txn) (p : Part) (at_ : NT), 
      s.txu.txns = [x] → x.id ≠ 0 → x.phase = .applied → x.tasks = [] → x.parts = [p] → p.confirmed = false →
      p.ended = false → p.reofferAt = some at_ → (s.lease p.slot).st = .active →
      CompletesThen .reoffer s fun d => d.fld (0x9030, 0, 16) = satInc 16 (s.fld (0x9030, 0, 16)) ∧
        (∃ y, d.txn? x.id = some y ∧ ∃ q ∈ y.parts, q.slot = p.slot ∧ q.reoffered = true ∧ q.reofferAt = some (ntAdd d.nt (s.reofferGap : Nat)) ∧
          q.confirmed = false) ∧ d.clk = s.clk.run (s.clk.cyclesTo at_)) ∧
  (∀ (s : State) (x : Txn) (p : Part) (at_ : NT), 
      s.Settled → s.txu.txns = [x] → x.id ≠ 0 → x.phase = .applied → x.parts = [p] → p.confirmed = false →
      p.ended = false → p.reofferAt = some at_ → (s.lease p.slot).st ≠ .active →
      Completes .reoffer s fun t => t.txu = { s.txu with txns := [{ x with parts := [{ p with reofferAt := some (ntAdd t.nt (s.reofferGap : Nat)) }] }] } ∧
        t.clk = s.clk.run (s.clk.cyclesTo at_) ∧ Frame [.clk, .out, .txu] s.toDev t) ∧
  (∀ (s : State) (x : Txn) (p : Part) (at_ : NT), 
      s.txu.txns = [x] → x.id ≠ 0 → x.phase = .applied → x.parts = [p] → p.confirmed = false → p.ended = false →
      p.unsyncedAt = some at_ →
      CompletesThen .unsynced s fun d => d.lease p.slot = { s.lease p.slot with unsynced := true } ∧
        d.fld (0x9030, 16, 16) = (if (s.lease p.slot).unsynced then s.fld (0x9030, 16, 16) else satInc 16 (s.fld (0x9030, 16, 16))) ∧ .fault 0x68 false ∈ d.todo ∧
        d.txu.txns = [{ x with parts := [{ p with unsyncedAt := none }] }] ∧ d.clk = s.clk.run (s.clk.cyclesTo at_) ∧
        Frame [.clk, .out, .txu, .mac, .regs, .todo] s.toDev d) ∧
  (∀ (s : State) (h g : Nat) (l m : Live) (x : Txn), 
      s.Runs h 0x52 l → s.txu.txns = [x] → x.id = l.p 0 4 → x.id ≠ 0 → x.phase = .staged → x.open_ s.nt = true → x.tasks = [] →
      x.round = false → x.also = [] → x.handle = some g → g ≠ h → s.Waits g m →
      CompletesThen (.txnCancel h) s fun d => d.Answered l stOK [] ∧ d.Answered m stCancelled (txnDone x 0xFF) ∧ d.txu.txns = [] ∧
        d.fld (0x902C, 16, 16) = satInc 16 (s.fld (0x902C, 16, 16))) ∧
  (∀ (s : State) (h : Nat) (l : Live) (x : Txn), 
      s.Settled → s.Runs h 0x52 l → s.txn? (l.p 0 4) = some x → x.open_ s.nt = false → x.phase ≠ .failed → x.phase ≠ .applied →
      Completes (.txnCancel h) s fun t => t.Answered l stTooLate [] ∧ Frame [.out, .hif] s.toDev t) ∧
  (∀ (s : State) (h : Nat) (l : Live), s.Settled → s.Runs h 0x52 l → s.txn? (l.p 0 4) = none → (∀ p ∈ s.trl.patches, p.txn = 0 ∨ p.txn ≠ l.p 0 4) →
      Completes (.txnCancel h) s fun t => t.Answered l stTxnUnknown [] ∧ Frame [.out, .hif] s.toDev t)

/-- Every 10 minutes of powered time a record snapshot asks leave of the class UPD, and while DEAF source 0x24 is
raised instead; a snapshot that ends holds every record and is counted; 20 minutes without one raise 0x25 once; a
persisted capture is in flash. PFW_N raises the level of 0x0B and writes the 62 newest entries of the box, and its
return ends the level; the failure of a region is told, recorded and kept in the last words with the occurrence that
met it, and without a sound region the diary is DEAF and holds nothing. (Parts of R459 to R461, R465 and R521.) -/
def Obligations.TheDiaryIsKeptInFlash : Prop :=
  (∀ (s : State), s.Settled → s.deaf = false → s.dry.snapping = false →
      Completes .diarySnapshot s fun t => t.dry = { s.dry with snapping := true } ∧ t.up = (s.up / (600 * cycHz) + 1) * (600 * cycHz) ∧
        t.gov.reqs = s.gov.reqs ++ [{
          id := s.gov.nextId, cls := 5, mw := 150, dur := 3 * tickHz, asked := t.nt, dead := ntAdd t.nt ((300 * tickHz : Nat) : Int)
          work := .diarySnapshot }] ∧ Frame [.clk, .out, .dry, .gov] s.toDev t) ∧
  (∀ (s : State), s.deaf = true →
      CompletesThen .diarySnapshot s fun d => d.todo = s.todo ++ [.fault 0x24 false] ∧ Frame [.clk, .out, .todo] s.toDev d) ∧
  (∀ (s : State) (dt : Nat), s.Settled → s.dry.snapRun = true →
      Completes (.diarySnapshotDone dt) s fun t => t.nv.dry.snap = s.dry.recs ∧ t.nv.dry.pfwRecs = [] ∧ t.dry.recs = s.dry.recs ∧
        t.dry.snapping = false ∧ t.dry.snapRun = false ∧ t.dry.snapAt = t.up ∧ t.dry.late = false ∧
        t.fld (0x13020, 0, 16) = wrapInc 16 (s.fld (0x13020, 0, 16)) ∧ t.hasLeave .diarySnapshot = false ∧ RegsBut [0x13020] s.toDev t ∧
        Frame [.clk, .out, .dry, .nv, .gov, .regs] s.toDev t) ∧
  (∀ (s : State), s.dry.late = false →
      CompletesThen .persistLate s fun d => d.dry = { s.dry with late := true } ∧ d.todo = s.todo ++ [.fault 0x25 false] ∧
        d.up = max s.up (s.dry.snapAt + 1200 * cycHz) ∧ Frame [.clk, .out, .dry, .todo] s.toDev d) ∧
  (∀ (s : State) (dt slot : Nat) (c : Capture), 
      s.Settled → (s.dry.caps.find? (fun p => p.1 == slot) = some (slot, c)) → c.writing = true → s.dry.pfw = false →
      Completes (.capturePersisted dt slot) s fun t => t.nv.dry.caps.find? (fun p => p.1 == slot) = some (slot, { c with writing := false, persisted := true }) ∧
        t.dry.recs = s.dry.recs ∧ t.dry.box = s.dry.box ∧ t.hasLeave (.persistCapture slot) = false ∧ Frame [.clk, .out, .dry, .nv, .gov] s.toDev t) ∧
  (∀ (s : State) (dt recs : Nat), s.dry.pfw = false → s.deaf = false →
      CompletesThen (.pfwNQualified dt recs) s fun d => d.dry.pfw = true ∧ d.nv.dry.pfw = some (s.nv.dry.seq, 6, d.dry.box.take 62) ∧
        d.nv.dry.seq = s.nv.dry.seq + 1 ∧ d.dry.snapRun = false ∧ d.clk = s.clk.run dt) ∧
  (∀ (s : State) (dt : Nat), s.Settled → (s.src 0x0B).level = true → s.forced 0x0B = false →
      Completes (.pfwNReturn dt) s fun t => t.dry = { s.dry with pfw := false } ∧ (t.src 0x0B).level = false ∧
        Frame [.clk, .out, .dry, .flt] s.toDev t) ∧
  (∀ (s : State) (dt region cause code value : Nat), region < 2 → (if region = 0 then s.dry.sound0 else s.dry.sound1) = true →
      (if region = 0 then s.dry.sound1 else s.dry.sound0) = true → s.Room (s.evtCq 0x1301) → cause < 256 →
      CompletesThen (.regionFail dt region cause code value) s fun d => d.dry.sound0 = decide (region = 1) ∧ d.dry.sound1 = decide (region = 0) ∧
        d.deaf = false ∧ .fault 0x23 false ∈ d.todo ∧ d.Told (s.evtCq 0x1301) 0x1301 (leBytes region 1 ++ leBytes cause 1) ∧
        (d.lastWordAt s.dry.lwNext).code = 0x0C7 ∧ (d.lastWordAt s.dry.lwNext).value = 256 * region + cause ∧
        (d.lastWordAt ((s.dry.lwNext + 1) % 8)).code = code % 4096 ∧ (d.lastWordAt ((s.dry.lwNext + 1) % 8)).value = value % 65536 ∧
        (d.rec_ 0x0C7).lastVal = 256 * region + cause) ∧
  (∀ (s : State) (dt region cause code value : Nat), region < 2 → (if region = 0 then s.dry.sound0 else s.dry.sound1) = true →
      (if region = 0 then s.dry.sound1 else s.dry.sound0) = false → s.dry.waiters = [] →
      CompletesThen (.regionFail dt region cause code value) s fun d => d.deaf = true ∧ d.dry.recs = [] ∧ d.dry.box = [] ∧
        d.dry.frozen = false ∧ .fault 0x23 false ∈ d.todo ∧ .fault 0x24 false ∈ d.todo)

/-- BLACKBOX_FREEZE freezes the box, records 0x0C6 and begins the persist, and waits for it; of a frozen box it is
answered at once with FROZEN_ALREADY, and the box is as it was; while DEAF it is refused. When the persist ends the
image is in the older slot, event 0x1304 is written and the command that waited is answered; after THAW_DELAY in RUN,
the persist done, the box takes entries again and event 0x1305 is written. (Parts of R455, R456 and R464. That a
freeze is counted once is log entry 11's reading.) -/
def Obligations.TheBlackBoxFreezesPersistsAndThaws : Prop :=
  (∀ (s : State) (h : Nat) (l : Live), 
      s.Settled → s.Runs h 0xA1 l → s.deaf = false → s.dry.frozen = false → s.Room (s.evtCq 0x1303) →
      Completes (.blackboxFreeze h) s fun t => t.Begun l ∧ t.dry.frozen = true ∧ t.dry.cause = 5 ∧ t.dry.frozenAt = s.up ∧ t.dry.persisting = true ∧
        t.dry.img = s.dry.box ∧ t.dry.box = s.dry.box ∧ t.dry.waiters = s.dry.waiters ++ [h] ∧ (t.rec_ 0x0C6).lastVal = 5 ∧
        t.Told (s.evtCq 0x1303) 0x1303 (leBytes 5 4 ++ leBytes s.dry.box.length 2) ∧ Frame [.out, .hif, .dry] s.toDev t) ∧
  (∀ (s : State) (h : Nat) (l : Live), s.Settled → s.Runs h 0xA1 l → s.deaf = false → s.dry.frozen = true →
      Completes (.blackboxFreeze h) s fun t => t.Answered l stOK [0, 0, 0, 0, 1] ∧ t.dry.box = s.dry.box ∧ t.dry.frozen = true ∧ t.dry.cause = s.dry.cause ∧
        t.fld (0x13024, 16, 16) = satInc 16 (s.fld (0x13024, 16, 16)) ∧ RegsBut [0x13024] s.toDev t ∧ Frame [.out, .hif, .dry, .regs] s.toDev t) ∧
  (∀ (s : State) (h : Nat) (l : Live), s.Settled → s.Runs h 0xA1 l → s.deaf = true →
      Completes (.blackboxFreeze h) s fun t => t.Answered l stDeaf [] ∧ Frame [.out, .hif] s.toDev t) ∧
  (∀ (s : State) (dt h : Nat) (l : Live), 
      s.Settled → s.dry.persisting = true → s.dry.pfw = false → s.dry.waiters = [h] → s.Waits h l →
      s.Room (s.evtCq 0x1304) →
      Completes (.frozenImagePersisted dt) s fun t => t.Answered l stOK [] ∧ t.dry = { s.dry with persisting := false, waiters := [], img := [] } ∧
        t.nv.dry.seq = s.nv.dry.seq + 1 ∧
        (if s.nv.dry.olderB then t.nv.dry.img1 else t.nv.dry.img0) = some (s.nv.dry.seq, s.dry.cause, s.dry.img) ∧
        (if s.nv.dry.olderB then t.nv.dry.img0 = s.nv.dry.img0 else t.nv.dry.img1 = s.nv.dry.img1) ∧
        t.Told (s.evtCq 0x1304) 0x1304 (leBytes (b2n s.nv.dry.olderB) 1) ∧ Frame [.clk, .out, .hif, .dry, .nv] s.toDev t) ∧
  (∀ (s : State) (dt : Nat), s.Settled → s.dry.frozen = true → s.dry.persisting = false → s.saf.run = .run →
      s.dry.frozenAt + 10 * cycHz * s.fld (0x13014, 0, 8) ≤ s.up + dt → s.Room (s.evtCq 0x1305) →
      Completes (.blackboxThaw dt) s fun t => t.dry = { s.dry with frozen := false, cause := 0 } ∧ t.Told (s.evtCq 0x1305) 0x1305 [] ∧
        Frame [.clk, .out, .hif, .dry] s.toDev t)

/-- DIARY_READ of n codes puts their records of 160 bytes in the buffer and its length in DONE; BLACKBOX_READ puts
entries from the oldest of the box there, 0 beyond those held, with the numbers and the freeze in DONE; a length that
does not fit is refused BAD_LENGTH and a DEAF diary has nothing to read. DRY_CLEAR with its key clears the records, or
the box and its freeze; without it, nothing changes. LW_CLR clears the last words. (Parts of R463 to R465, R469 and
R470.) -/
def Obligations.TheDiaryIsReadAndCleared : Prop :=
  (∀ (s : State) (h : Nat) (l : Live) (b : List Byte), 
      s.Settled → s.Runs h 0xA0 l → l.p 4 1 = 1 → l.len = 160 * l.p 2 2 → s.deaf = false →
      (b = (List.range (l.p 2 2)).flatMap fun k => recBytes (l.p 0 2 + k) (s.rec_ (l.p 0 2 + k))) →
      Completes (.diaryRead h false) s fun t => t.Answered l stOK (leBytes b.length 4) ∧ .host h 0 0 b ∈ t.out ∧ Frame [.out, .hif] s.toDev t) ∧
  (∀ (s : State) (h : Nat) (werr : Bool) (l : Live), s.Settled → s.Runs h 0xA0 l → l.p 4 1 = 1 → l.len ≠ 160 * l.p 2 2 →
      Completes (.diaryRead h werr) s fun t => t.Answered l stBadLen (offsetRes (some 16)) ∧ Frame [.out, .hif] s.toDev t) ∧
  (∀ (s : State) (h : Nat) (l : Live) (b : List Byte), s.Settled → s.Runs h 0xA2 l → l.len = 32 * l.p 2 2 → s.deaf = false →
      b = slice (((s.dry.box.reverse.drop (l.p 0 2)).take (l.p 2 2)).flatMap boxBytes) 0 (32 * l.p 2 2) →
      Completes (.blackboxRead h false) s fun t => .host h 0 0 b ∈ t.out ∧ t.Answered l stOK (leBytes (min (l.p 2 2) (s.dry.box.length - l.p 0 2)) 2 ++
          leBytes s.dry.box.length 2 ++ leBytes (b2n s.dry.frozen) 1 ++ leBytes s.dry.cause 1) ∧ Frame [.out, .hif] s.toDev t) ∧
  (∀ (s : State) (h : Nat) (werr : Bool) (l : Live), s.Settled → s.Runs h 0xA2 l → l.len = 32 * l.p 2 2 → s.deaf = true →
      Completes (.blackboxRead h werr) s fun t => t.Answered l stDeaf [] ∧ Frame [.out, .hif] s.toDev t) ∧
  (∀ (s : State) (dt : Nat) (v : Reg), 
      s.Settled → v.toNat / 65536 = 0xCEA5 → (v.toNat % 65536 = 1 ∨ (v.toNat % 65536 ≤ 3 ∧ s.dry.frozen = false)) →
      Completes (.dryClear dt v) s fun t => t.dry = { s.dry with
          recs := if bitAt v.toNat 0 then [] else s.dry.recs, box := if bitAt v.toNat 1 then [] else s.dry.box } ∧ Frame [.clk, .out, .dry] s.toDev t) ∧
  (∀ (s : State) (dt : Nat) (v : Reg), 
      s.Settled → v.toNat / 65536 = 0xCEA5 → (v.toNat % 65536 = 2 ∨ v.toNat % 65536 = 3) → s.dry.frozen = true →
      s.Room (s.evtCq 0x1305) →
      Completes (.dryClear dt v) s fun t => t.dry.box = [] ∧ t.dry.frozen = false ∧ t.Told (s.evtCq 0x1305) 0x1305 [] ∧
        t.dry.recs = (if v.toNat % 65536 = 3 then [] else s.dry.recs) ∧ Frame [.clk, .out, .hif, .dry] s.toDev t) ∧
  (∀ (s : State) (dt : Nat) (v : Reg), s.Settled → (v.toNat / 65536 ≠ 0xCEA5 ∨ 3 < v.toNat % 65536) →
      Completes (.dryClear dt v) s fun t => Frame [.clk, .out] s.toDev t) ∧
  (∀ (s : State) (dt : Nat) (v : Reg), s.Settled →
      Completes (.lwClr dt v) s fun t => t.dry = (if fieldOf v 31 1 = 1 then { s.dry with lws := [], lwNext := 0 } else s.dry) ∧ Frame [.clk, .out, .dry] s.toDev t)

/-- A decision grants a waiting request that fits, counts it and begins its work; one that does not fit waits on, and
is a barrier once it has waited half its time. At its deadline a request is withdrawn and counted; a grant not
returned in its time is freed and counted and raises 0x11; consumption above the budget is timed, and after 100 ms
sets OVER, raises the level of 0x10 and writes event 0x1001; a monitor that fails its check raises 0x12 and counts at
its rating, as one under recalibration does for 2 s; LEAVE_POLICY sets cap and priority of a class. (Parts of R402 and
R404 to R408. The power read is the event's operand.) -/
def Obligations.LeaveIsGrantedWithdrawnAndReturned : Prop :=
  (∀ (s : State) (dt pmeas : Nat) (r : LeaveReq), 
      s.Settled → s.gov.reqs = [r] → r.work = .diarySnapshot → ((s.tick dt).readPower pmeas).leaveFits r = true →
      Completes (.governorDecision dt pmeas) s fun t => t.gov.reqs = [] ∧ t.gov.pmeas = pmeas ∧ t.gov.barrier = false ∧
        t.gov.grants = s.gov.grants ++ [{ id := r.id, cls := r.cls, mw := r.mw, until_ := ntAdd t.nt r.dur, work := r.work }] ∧
        t.dry.snapRun = true ∧ t.fld (0x10020, 0, 16) = wrapInc 16 (s.fld (0x10020, 0, 16)) ∧
        Frame [.clk, .out, .gov, .flt, .regs, .dry] s.toDev t) ∧
  (∀ (s : State) (dt pmeas : Nat) (r : LeaveReq), s.Settled → s.gov.reqs = [r] → ((s.tick dt).readPower pmeas).leaveFits r = false →
      Completes (.governorDecision dt pmeas) s fun t => t.gov.reqs = [r] ∧ t.gov.grants = s.gov.grants ∧
        t.gov.barrier = t.leaveHalf r ∧ Frame [.clk, .out, .gov, .flt] s.toDev t) ∧
  (∀ (s : State) (r : LeaveReq), s.Settled → s.gov.reqs = [r] → r.work = .scrub → ntReached (s.tickTo r.dead).nt r.dead = true →
      Completes .leaveDeadline s fun t => t.gov = { s.gov with reqs := [] } ∧ t.mem = { s.mem with scrubWait := false } ∧
        t.fld (0x10020, 16, 16) = satInc 16 (s.fld (0x10020, 16, 16)) ∧ t.clk = s.clk.run (s.clk.cyclesTo r.dead) ∧
        RegsBut [0x10020] s.toDev t ∧ Frame [.clk, .out, .gov, .mem, .regs] s.toDev t) ∧
  (∀ (s : State) (g : Grant), s.gov.grants = [g] → ntReached (s.tickTo g.until_).nt g.until_ = true →
      CompletesThen .leaveDurationEnd s fun d => d.gov = { s.gov with grants := [] } ∧ d.todo = s.todo ++ [.fault 0x11 false] ∧
        d.fld (0x10024, 0, 16) = satInc 16 (s.fld (0x10024, 0, 16)) ∧ d.clk = s.clk.run (s.clk.cyclesTo g.until_) ∧
        RegsBut [0x10024] s.toDev d ∧ Frame [.clk, .out, .gov, .regs, .todo] s.toDev d) ∧
  (∀ (s : State) (dt pmeas : Nat), s.Settled → 100 * s.fld fBudget < 105 * pmeas → s.gov.overBudget = false → s.gov.overSince = none →
      Completes (.govOverBudget dt pmeas) s fun t => t.gov.overBudget = false ∧ t.gov.pmeas = pmeas ∧ t.gov.overSince = some t.up ∧
        Frame [.clk, .out, .gov] s.toDev t) ∧
  (∀ (s : State) (dt pmeas a : Nat), 100 * s.fld fBudget < 105 * pmeas → s.gov.overBudget = false → s.gov.overSince = some a →
      a + 100 * cycMs ≤ s.up + dt → s.Room (s.evtCq 0x1001) →
      CompletesThen (.govOverBudget dt pmeas) s fun d => d.gov.overBudget = true ∧ d.gov.pmeas = pmeas ∧ (d.src 0x10).level = true ∧
        d.todo = s.todo ++ (if (s.src 0x10).level then [] else [.fault 0x10 false]) ∧ d.Told (s.evtCq 0x1001) 0x1001 (leBytes pmeas 4) ∧
        Frame [.clk, .out, .gov, .flt, .hif, .todo] s.toDev d) ∧
  (∀ (s : State) (dt grp pmeas : Nat), grp < 8 →
      CompletesThen (.monitorSelfCheckFail dt grp pmeas) s fun d => grp ∈ d.gov.failed ∧ (∀ g ∈ s.gov.failed, g ∈ d.gov.failed) ∧
        d.gov.pmeas = pmeas ∧ .fault 0x12 false ∈ d.todo ∧ Frame [.clk, .out, .gov, .flt, .todo] s.toDev d) ∧
  (∀ (s : State) (dt grp pmeas : Nat), s.Settled → grp < 8 →
      Completes (.monitorRecalibration dt grp pmeas) s fun t => t.gov.recal = some (grp, t.up + 2 * cycHz) ∧ t.gov.failed = s.gov.failed ∧
        t.gov.pmeas = pmeas ∧ Frame [.clk, .out, .gov, .flt] s.toDev t) ∧
  (∀ (s : State) (h : Nat) (l : Live), s.Settled → s.Runs h 0x88 l →
      Completes (.leavePolicy h) s fun t => t.Answered l stOK [] ∧ t.fld (fCap (l.p 4 1)) = l.p 0 4 % 65536 ∧ t.fld (fPrio (l.p 4 1)) = l.p 5 1 % 8 ∧
        RegsBut [0x10100 + 4 * l.p 4 1] s.toDev t ∧ Frame [.out, .hif, .regs] s.toDev t)

/-- In RUN, a fault event with which a source of class 3 enters ACTIVE leaves, in the same command, the run state SAFE
with the safe state forced, SAF_CAUSE naming the source, every axis DISABLED with EN low, and every loop OPEN with
output 0, whatever other faults its handling raises. (Parts of R298, R427, R432, R433 and R443.) -/
def Obligations.AFaultOfTheSafeClassEndsInSafe : Prop :=
  (∀ (s : State) (dt n : Nat) (sd : SrcDef), 
      s.Settled → srcDef n = some sd → (sd.level = true → (s.src n).level = false) → n ≠ 0xBA → (s.tick dt).Enters n →
      s.fld (srcCls n) = 3 → s.saf.run = .run →
      Completes (.faultEvent dt n) s fun t => t.saf.run = .safe ∧ t.saf.safeForce = true ∧ t.saf.safeCause = some (n, directSrc n) ∧
        (t.src n).st = .active ∧ (∀ k, k < 24 → (t.axis k).st = .disabled ∧ (t.axis k).en = false) ∧
        (∀ k, (t.loop k).st = .open_ ∧ (t.loop k).u = 0) ∧ t.stopOut = false)

/-- With which a source of class INFO or WARN enters ACTIVE, an event is recorded: the count of records grows and
event 0x1201 is written; one of class STOP ends its command in FLEET_STOP or SAFE. The end of a condition ends the
level of its source and restarts its quiet time; a COUNTING source whose window has passed is IDLE; QUIET after its
last event an ACTIVE one is IDLE, its recovery is counted and event 0x1202 is written; FAULT_CLEAR clears an ACTIVE
source without a level and refuses one with it (0x0A02). Source 0x50 stays ACTIVE while no engine of the RTK array
remains, which is the model's reading of R166 (log entry 69). (Parts of R432, R433, R435 and R442.) -/
def Obligations.FaultsAreCountedAndRecorded : Prop :=
  (∀ (s : State) (dt n : Nat) (sd : SrcDef), 
      s.Settled → srcDef n = some sd → (sd.level = true → (s.src n).level = false) → n ≠ 0xBA → (s.tick dt).Enters n →
      directSrc n = false → s.fld (srcCls n) < 2 → s.Room (s.evtCq 0x1201) →
      Completes (.faultEvent dt n) s fun t => (t.src n).st = .active ∧ (t.src n).level = ((s.src n).level || sd.level) ∧ (t.src n).quietAt = t.up ∧
        (∀ m, m ≠ n → t.src m = s.src m) ∧ t.fld (0x12014, 0, 16) = wrapInc 16 (s.fld (0x12014, 0, 16)) ∧ (s.deaf = false → (t.rec_ n).last = t.stamp) ∧
        t.Told (s.evtCq 0x1201) 0x1201 (leBytes n 1 ++ leBytes (s.fld (srcCls n)) 1 ++ leBytes (2 * b2n s.forceActive) 1 ++
          leBytes (sat 8 (t.src n).times.length) 1 ++ leBytes (s.src n).recovery 2) ∧
        Frame [.clk, .out, .hif, .flt, .dry, .regs] s.toDev t) ∧
  (∀ (s : State) (dt n : Nat) (sd : SrcDef), 
      s.Settled → srcDef n = some sd → (sd.level = true → (s.src n).level = false) → n ≠ 0xBA → (s.tick dt).Enters n →
      directSrc n = false → s.fld (srcCls n) = 2 → s.saf.run = .run →
      Completes (.faultEvent dt n) s fun t => (t.saf.run = .fleetStop ∨ t.saf.run = .safe) ∧ (t.src n).st = .active ∧
        (∀ k, k < 24 → (t.axis k).st ≠ .moving ∧ (t.axis k).st ≠ .homing)) ∧
  (∀ (s : State) (dt n : Nat), s.Settled → (s.src n).level = true → s.forced n = false →
      Completes (.faultLevelClear dt n) s fun t => t.src n = { s.src n with level := false, real := false, quietAt := t.up } ∧
        (∀ m, m ≠ n → t.src m = s.src m) ∧ (n = 0 → t.pll.core = true) ∧ (n = 1 → s.pll.refOk = true → t.pll.corr = true) ∧ (n = 2 → t.pll.dram = true) ∧
        (n ≠ 1 → t.gns = s.gns) ∧ t.clk = s.clk.run dt ∧ Frame [.clk, .out, .flt, .pll, .gns] s.toDev t) ∧
  (∀ (s : State) (n x : Nat) (rest : List Nat), 
      s.Settled → (s.src n).st = .counting → s.upd.pause ≠ some 5 → (s.src n).times = x :: rest →
      ((s.tickUp (x + s.windowCyc n)).inWindow n (x :: rest)) = [] →
      Completes (.windowExpiry n) s fun t => t.src n = { s.src n with st := .idle, times := [] } ∧ (∀ m, m ≠ n → t.src m = s.src m) ∧
        t.up = max s.up (x + s.windowCyc n) ∧ Frame [.clk, .out, .flt] s.toDev t) ∧
  (∀ (s : State) (n : Nat), s.Settled → (s.src n).st = .active → n ≠ 0xB2 → (s.src n).level = false → s.stays n = false →
      s.Room (s.evtCq 0x1202) →
      Completes (.quietExpiry n) s fun t => t.src n = { s.src n with st := .idle, times := [], recovery := satInc 16 (s.src n).recovery } ∧
        (∀ m, m ≠ n → t.src m = s.src m) ∧ t.up = max s.up ((s.src n).quietAt + s.quietCyc n) ∧
        t.Told (s.evtCq 0x1202) 0x1202 (leBytes n 1 ++ [0, 0, 0] ++ leBytes (satInc 16 (s.src n).recovery) 2) ∧
        Frame [.clk, .out, .hif, .flt] s.toDev t) ∧
  (∀ (s : State) (h n : Nat) (l : Live), 
      s.Settled → s.Runs h 0x99 l → l.p 1 1 = 0 → l.p 0 1 = n → (s.src n).st = .active → n ≠ 0xB2 →
      Completes (.faultClear h) s fun t => t.Answered l (if (s.src n).level || s.stays n then 0x0A02 else stOK) [] ∧
        t.src n = (if (s.src n).level || s.stays n then s.src n else { s.src n with st := .idle, times := [] }) ∧
        (∀ m, m ≠ n → t.src m = s.src m) ∧ Frame [.out, .hif, .flt] s.toDev t) ∧
  (∀ (s : State) (dt n : Nat) (rail : Rail), (n = match rail with | .core => 0x08 | .saf => 0x09 | .other => 0x0A) →
      CompletesThen (.railOutOfRange dt rail) s fun d => (d.src n).level = true ∧
        d.todo = s.todo ++ (if (s.src n).level then [] else [.fault n false]) ∧ Frame [.clk, .out, .flt, .todo] s.toDev d) ∧
  (∀ (s : State) (dt sensor : Nat) (v : Int),
      CompletesThen (.temperatureThreshold dt sensor v) s fun d => d.pad = { s.pad with tj := v, tjIdx := sensor % 8 } ∧
        (220 ≤ v → (d.src 0x0C).level = true ∧ ((s.src 0x0C).level = false → .fault 0x0C false ∈ d.todo)) ∧
        (v < 220 → s.forced 0x0C = false → (d.src 0x0C).level = false) ∧
        (236 ≤ v → (d.src 0x0D).level = true ∧ ((s.src 0x0D).level = false → .fault 0x0D false ∈ d.todo)) ∧
        (v < 236 → s.forced 0x0D = false → (d.src 0x0D).level = false) ∧ Frame [.clk, .out, .flt, .pad, .todo] s.toDev d) ∧
  (∀ (s : State) (dt n : Nat) (p : PllName), (n = match p with | .core => 0 | .corr => 1 | .dram => 2) →
      CompletesThen (.pllUnlock dt p) s fun d => (d.src n).level = true ∧ (p = .core → d.pll.core = false) ∧ (p = .corr → d.pll.corr = false) ∧
        (p = .dram → d.pll.dram = false) ∧ d.todo = s.todo ++ (if (s.src n).level then [] else [.fault n false]) ∧
        (d.gns = if p = .corr then { s.gns with engine := 0 } else s.gns) ∧ Frame [.clk, .out, .flt, .pll, .gns, .todo] s.toDev d) ∧
  (∀ (s : State) (dt : Nat) (ppm : Int),
      CompletesThen (.safClkCheck dt ppm) s fun d => d.todo = s.todo ++ (if 10000 < ppm.natAbs then [.fault 0x03 false] else []) ∧
        Frame [.clk, .out, .todo] s.toDev d) ∧
  (∀ (s : State) (dt : Nat) (ue : Bool),
      CompletesThen (.sramEccError dt ue) s fun d => d.todo = s.todo ++ [.fault (if ue then 0x21 else 0x20) false] ∧
        Frame [.clk, .out, .todo] s.toDev d)

/-- FAULT_INJECT of a defined source, where the guard of R438 allows it, begins; in RUN one that would count on a
source of class 2 or 3 is refused 0x0A04. Each check of an injection records once, and the last answers with the
records; each pulse of a force train sets and clears its bit, and the last answers. A write of FLT_FORCEm takes the
word, and a bit newly set on a level source holds its level. A parity error of the collector raises 0xBA, or, where
its record fails, is kept in the last words and drives the safe state with the configuration at its reset values.
(Parts of R436 to R439.) -/
def Obligations.FaultsAreInjectedAndForced : Prop :=
  (∀ (s : State) (h : Nat) (l : Live), s.Settled → s.Runs h 0x98 l → s.saf.run ∈ [.run, .fleetStop, .safe, .updatePause] →
      (srcDef (l.p 0 1)).isSome = true → (l.p 1 1 ≠ 1 ∨ srcNative (l.p 0 1) = true) →
      (s.saf.run ≠ .run ∨ s.fld (srcCls (l.p 0 1)) < 2 ∨ (l.p 1 1 ≠ 2 ∧ s.flag (srcCountInj (l.p 0 1)) = false)) →
      Completes (.faultInject h) s fun t => t.Begun l ∧ t.flt = { s.flt with
          inj := s.flt.inj ++ [{ handle := h, source := l.p 0 1, method := l.p 1 1, count := l.p 2 2, next := s.up }] } ∧
        Frame [.out, .hif, .flt] s.toDev t) ∧
  (∀ (s : State) (h : Nat) (l : Live), 
      s.Settled → s.Runs h 0x98 l → s.saf.run = .run → (srcDef (l.p 0 1)).isSome = true → l.p 1 1 = 2 →
      2 ≤ s.fld (srcCls (l.p 0 1)) →
      Completes (.faultInject h) s fun t => t.Answered l 0x0A04 [] ∧ Frame [.out, .hif] s.toDev t) ∧
  (∀ (s : State) (n : Nat) (x : Injection) (l : Live), 
      s.inj? n 1 = some x → x.count ≤ x.done + 1 → s.Waits x.handle l → s.Room (s.evtCq 0x1201) →
      CompletesThen (.injectionCheck n false) s fun d => d.Answered l stOK (leBytes (x.recs + 1) 2) ∧ (∀ y ∈ d.flt.inj, y.handle ≠ x.handle) ∧
        d.fld (0x12014, 0, 16) = wrapInc 16 (s.fld (0x12014, 0, 16)) ∧ d.fld (0x12014, 16, 16) = satInc 16 (s.fld (0x12014, 16, 16)) ∧
        d.up = max s.up x.next) ∧
  (∀ (s : State) (n : Nat) (found : Bool) (x : Injection), s.inj? n 1 = some x → x.done + 1 < x.count →
      CompletesThen (.injectionCheck n found) s fun d => d.flt.inj = (s.flt.inj.map fun y => if y.handle = x.handle then
          { x with done := x.done + 1, recs := x.recs + 1, next := x.next + cycMs } else y) ∧ d.up = max s.up x.next) ∧
  (∀ (s : State) (n : Nat) (x : Injection) (l : Live), 
      s.inj? n 2 = some x → x.high = false → x.count ≤ x.done + 1 → s.Waits x.handle l → s.Room (s.evtCq 0x1201) →
      CompletesThen (.forcePulse n) s fun d => n ∈ d.flt.pulse ∧ (∃ k, k < 2 ∧ d.Answered l stOK (leBytes (sat 16 (x.recs + k)) 2)) ∧
        (∀ y ∈ d.flt.inj, y.handle = x.handle → y.high = true ∧ y.done = x.done + 1) ∧ d.up = max s.up x.next) ∧
  (∀ (s : State) (n : Nat) (x : Injection), s.Settled → s.inj? n 2 = some x → x.high = true → s.flt.pulse = [n] →
      Completes (.forcePulse n) s fun t => t.flt.pulse = [] ∧ (∀ y ∈ t.flt.inj, y.handle = x.handle → y.high = false) ∧ t.up = max s.up x.next ∧
        Frame [.clk, .out, .flt] s.toDev t) ∧
  (∀ (s : State) (dt m : Nat) (v : Reg), m < 6 →
      CompletesThen (.fltForceWrite dt m v) s fun d => d.reg (0x12080 + 4 * m) = v ∧ (∀ k, k < 32 → s.forced (32 * m + k) = false →
          bitAt v.toNat k = true → ((srcDef (32 * m + k)).any (·.level)) = true → (d.src (32 * m + k)).level = true) ∧
        d.flt.pulse = s.flt.pulse ∧ d.flt.inj = s.flt.inj) ∧
  (∀ (s : State) (dt : Nat),
      CompletesThen (.collectorParityError dt true) s fun d => d.todo = s.todo ++ [.fault 0xBA false] ∧ Frame [.clk, .out, .todo] s.toDev d) ∧
  (∀ (s : State) (dt : Nat),
      CompletesThen (.collectorParityError dt false) s fun d => (d.src 0xBA).st = .active ∧ (d.lastWordAt s.dry.lwNext).code = 0xBA ∧
        .safe 0xBA true ∈ d.todo ∧ (∀ n, n < 192 → d.reg (0x12100 + 8 * n) = resetReg (0x12100 + 8 * n)) ∧
        (∀ n, n ≠ 0xBA → (d.src n).st = .idle ∧ (d.src n).level = (s.src n).level))

/-- In RUN, a low pulse of 2 ns or more on a stop input sets its latch, drives STOP_OUT low, counts the assertion,
leaves every axis at rest or in FAULT, and ends the same command in FLEET_STOP or SAFE, whatever other faults its
handling raises; one of less than 1 ns changes nothing. (Parts of R298, R418 to R420 and R424.) -/
def Obligations.AStopInputStopsTheFleet : Prop :=
  (∀ (s : State) (dt lowPs : Nat) (chB : Bool), 
      s.Settled → s.saf.run = .run → 2000 ≤ lowPs → (if chB then s.saf.latchB else s.saf.latchA) = false →
      Completes (.stopInFall dt chB lowPs) s fun t => (if chB then t.saf.latchB else t.saf.latchA) = true ∧ t.stopOut = false ∧
        (t.saf.run = .fleetStop ∨ t.saf.run = .safe) ∧ (∀ k, k < 24 → (t.axis k).atRest = true) ∧
        t.fld (0x11030, 0, 16) = satInc 16 (s.fld (0x11030, 0, 16)) ∧ (t.src (if chB then 0xB1 else 0xB0)).level = true) ∧
  (∀ (s : State) (dt lowPs : Nat) (chB : Bool), s.Settled → lowPs < 1000 →
      Completes (.stopInFall dt chB lowPs) s fun t => Frame [.clk, .out] s.toDev t)

/-- What a low pulse of 1 to 2 ns does is open: nothing, or the input is low and the latch sets, as a free value has
it. DISC_TIME after one latch alone, source 0xB2 is raised. After both inputs have been high for 50 ms they count as
clean; the key then clears both latches and ends their levels, and event 0x1103 is written if one was set; any other
write is refused, counted and raises 0xBC. A dark pulse holds its output low for 200 us; one that reads back right is
counted, one that does not fails its output and raises 0xB3 or 0xB4, one during which a stop input trips is discarded,
and with STOP_OUT low it is skipped; the other output's test follows half a DP_PERIOD later. (Parts of R418, R421 to
R423.) -/
def Obligations.TheStopPathIsTestedAndReleased : Prop :=
  (∀ (s : State) (dt lowPs : Nat) (chB : Bool), 1000 ≤ lowPs → lowPs < 2000 → (if chB then s.saf.latchB else s.saf.latchA) = true →
      CompletesThen (.stopInFall dt chB lowPs) s fun d => d.free = s.free + 1 ∧ Frame [.clk, .out, .free, .saf] s.toDev d ∧
        (d.saf = s.saf ∨ d.saf = { s.saf with clean := false, inA := s.saf.inA && chB, inB := s.saf.inB && !chB })) ∧
  (∀ (s : State) (t : Nat), s.saf.loneAt = some t →
      CompletesThen .stopDiscrepancy s fun d => d.saf = { s.saf with loneAt := none } ∧ d.todo = s.todo ++ [.fault 0xB2 false] ∧
        d.up = max s.up (t + 10 * cycMs * s.fld (0x11018, 8, 8)) ∧ Frame [.clk, .out, .saf, .todo] s.toDev d) ∧
  (∀ (s : State) (dt : Nat), s.Settled →
      Completes (.stopInputsClean dt) s fun t => t.saf = { s.saf with inA := true, inB := true, clean := true } ∧ Frame [.clk, .out, .saf] s.toDev t) ∧
  (∀ (s : State) (dt : Nat) (v : Reg), s.Settled → v.toNat = 0xC1EA → s.saf.clean = true → (s.src 0xB2).st ≠ .active →
      (s.saf.latchA = true ∨ s.saf.latchB = true) → s.Room (s.evtCq 0x1103) →
      Completes (.safStopClr dt v) s fun t => t.saf = { s.saf with latchA := false, latchB := false, loneAt := none } ∧
        (s.forced 0xB0 = false → (t.src 0xB0).level = false) ∧ (s.forced 0xB1 = false → (t.src 0xB1).level = false) ∧
        t.Told (s.evtCq 0x1103) 0x1103 [] ∧ Frame [.clk, .out, .hif, .saf, .flt, .dry, .regs] s.toDev t) ∧
  (∀ (s : State) (dt : Nat) (v : Reg), (v.toNat ≠ 0xC1EA ∨ s.saf.clean = false ∨ (s.src 0xB2).st = .active) →
      CompletesThen (.safStopClr dt v) s fun d => d.fld (0x11030, 16, 16) = satInc 16 (s.fld (0x11030, 16, 16)) ∧
        d.todo = s.todo ++ [.fault 0xBC false] ∧ RegsBut [0x11030] s.toDev d ∧ Frame [.clk, .out, .regs, .todo] s.toDev d) ∧
  (∀ (s : State) (ok : Bool), s.Settled → s.saf.run ≠ .off → s.saf.dpRun = none → s.stopOut = true →
      Completes (.darkPulse ok) s fun t => t.saf = { s.saf with dpRun := some (ok, false), dpAt := s.saf.dpAt + cycHz / 5000 } ∧
        t.up = max s.up s.saf.dpAt ∧ t.stopPin s.saf.dpNextB = false ∧ t.stopPin (!s.saf.dpNextB) = true ∧ Frame [.clk, .out, .saf] s.toDev t) ∧
  (∀ (s : State) (ok : Bool), s.Settled → s.saf.run ≠ .off → s.saf.dpRun = some (true, false) → (ok = true ∨ s.stopOut = false) →
      Completes (.darkPulse ok) s fun t => t.fld (0x11038, 0, 16) = wrapInc 16 (s.fld (0x11038, 0, 16)) ∧
        t.saf = { s.saf with
          dpRun := none, dpNextB := !s.saf.dpNextB, dpFailA := s.saf.dpFailA && s.saf.dpNextB, dpFailB := s.saf.dpFailB && !s.saf.dpNextB
          dpAt := s.saf.dpAt - cycHz / 5000 + s.fld (0x11018, 0, 8) * (cycHz / 2) } ∧
        t.up = max s.up s.saf.dpAt ∧ RegsBut [0x11038] s.toDev t ∧ Frame [.clk, .out, .saf, .regs] s.toDev t) ∧
  (∀ (s : State) (ok low : Bool), s.saf.run ≠ .off → s.saf.dpRun = some (low, false) → (low = false ∨ (s.stopOut = true ∧ ok = false)) →
      CompletesThen (.darkPulse ok) s fun d => d.todo = s.todo ++ [.fault (if s.saf.dpNextB then 0xB4 else 0xB3) false] ∧
        (if s.saf.dpNextB then d.saf.dpFailB else d.saf.dpFailA) = true ∧ d.saf.dpNextB = !s.saf.dpNextB ∧ d.saf.dpRun = none ∧
        Frame [.clk, .out, .saf, .todo] s.toDev d) ∧
  (∀ (s : State) (ok low : Bool), s.Settled → s.saf.run ≠ .off → s.saf.dpRun = some (low, true) →
      Completes (.darkPulse ok) s fun t => t.saf = { s.saf with
          dpRun := none, dpNextB := !s.saf.dpNextB, dpAt := s.saf.dpAt - cycHz / 5000 + s.fld (0x11018, 0, 8) * (cycHz / 2) } ∧
        Frame [.clk, .out, .saf] s.toDev t) ∧
  (∀ (s : State) (ok : Bool), s.Settled → s.saf.run ≠ .off → s.saf.dpRun = none → s.stopOut = false →
      Completes (.darkPulse ok) s fun t => t.fld (0x11038, 16, 16) = satInc 16 (s.fld (0x11038, 16, 16)) ∧
        t.saf = { s.saf with dpNextB := !s.saf.dpNextB, dpAt := s.saf.dpAt + s.fld (0x11018, 0, 8) * (cycHz / 2) } ∧
        RegsBut [0x11038] s.toDev t ∧ Frame [.clk, .out, .saf, .regs] s.toDev t)

/-- FLEET_STOP in RUN ends in FLEET_STOP, or SAFE, and is answered; in FLEET_STOP or SAFE it cancels waiting resumes.
A resume with nothing against it waits for the second next slotframe boundary at least 2 ms ahead, at which the unit
is in RUN and it is answered; with a latch set it is refused 0x0A01 with the reason. The first release write with the
key and the nonce opens the sequence; the second, 10 ms to 1 s later in SAFE with no ACTIVE source of class SAFE, ends
the forcing; any other is counted, raises 0xBC and draws a new nonce, as an expired window does; at the next slot
boundary the unit is in FLEET_STOP, or STANDBY on a standby. (Parts of R424, R426 and R428.) -/
def Obligations.TheFleetIsStoppedAndResumed : Prop :=
  (∀ (s : State) (h : Nat) (l : Live), 
      s.Settled → s.Runs h 0x90 l → s.saf.run = .run → (∀ x ∈ s.txu.txns, x.phase = .offered → x.id ≠ 0) →
      CompletesThen (.fleetStop h) s fun d => d.saf.run = .fleetStop ∧ d.live? h = none ∧
        (∀ k, k < 24 → (d.axis k).st ≠ .moving ∧ (d.axis k).st ≠ .homing) ∧
        (∀ x ∈ d.txu.txns, x.stopSafe = true ∨ (x.phase ≠ .waiting ∧ x.phase ≠ .staged ∧ x.phase ≠ .offered)) ∧
        (∀ r ∈ d.trl.resv, r.kind = .spec → r.staged = true)) ∧
  (∀ (s : State) (h : Nat) (l : Live), 
      s.Settled → s.Runs h 0x90 l → (s.saf.run = .fleetStop ∨ s.saf.run = .safe) → s.saf.resume = [] →
      Completes (.fleetStop h) s fun t => t.Answered l stOK [] ∧ (t.rec_ 0x0C9).lastVal = (if s.deaf then (s.rec_ 0x0C9).lastVal else l.p 0 4 % 65536) ∧
        Frame [.out, .hif, .dry, .regs] s.toDev t) ∧
  (∀ (s : State) (h : Nat) (l : Live), s.Settled → s.Runs h 0x91 l → s.saf.run = .fleetStop → s.resumeBlocked = none →
      Completes (.fleetResumeRequest h) s fun t => t.Begun l ∧ t.saf = { s.saf with
          resume := s.saf.resume ++ [{ handle := h, at_ := slotframeAtOrAfter (ntAdd s.nt (msTicks 2)) }] } ∧ Frame [.out, .hif, .saf] s.toDev t) ∧
  (∀ (s : State) (h : Nat) (l : Live), 
      s.Settled → s.Runs h 0x91 l → s.saf.run = .fleetStop → (s.saf.latchA = true ∨ s.saf.latchB = true) →
      Completes (.fleetResumeRequest h) s fun t => t.Answered l 0x0A01 [1, 0] ∧ Frame [.out, .hif] s.toDev t) ∧
  (∀ (s : State) (r : Resume) (rest : List Resume) (l : Live), 
      s.saf.resume = r :: rest → s.saf.run = .fleetStop → s.Waits r.handle l → s.Room (s.evtCq 0x1101) →
      CompletesThen .resumeBoundary s fun d => d.Answered l stOK [] ∧ d.saf.run = .run ∧ d.saf.resume = rest ∧ d.trl.replanAsked = true ∧
        d.clk = s.clk.run (s.clk.cyclesTo r.at_) ∧ d.Told (s.evtCq 0x1101) 0x1101 ([4, 3, 5, 0] ++ leBytes 0 4)) ∧
  (∀ (s : State) (dt : Nat) (v : Reg), s.Settled → fieldOf v 16 16 = 0x5AFE → fieldOf v 0 16 = s.saf.nonce → s.saf.relAt = none →
      Completes (.safeReleaseFirst dt v) s fun t => t.saf = { s.saf with relAt := some t.up } ∧ Frame [.clk, .out, .saf] s.toDev t) ∧
  (∀ (s : State) (dt : Nat) (v : Reg), (fieldOf v 16 16 ≠ 0x5AFE ∨ fieldOf v 0 16 ≠ s.saf.nonce ∨ s.saf.relAt ≠ none) →
      CompletesThen (.safeReleaseFirst dt v) s fun d => d.free = s.free + 1 ∧ d.saf = { s.saf with
          nonce := (Config.freeValue s.free).toNat % 2 ^ 16, relAt := none } ∧ d.todo = s.todo ++ [.fault 0xBC false] ∧
        d.fld (0x11030, 16, 16) = satInc 16 (s.fld (0x11030, 16, 16)) ∧ Frame [.clk, .out, .saf, .free, .regs, .todo] s.toDev d) ∧
  (∀ (s : State) (dt t : Nat) (v : Reg), 
      s.Settled → fieldOf v 16 16 = 0xA0E5 → fieldOf v 0 16 = s.saf.nonce ^^^ 0xFFFF → s.saf.relAt = some t →
      t + 10 * cycMs ≤ s.up + dt → s.up + dt ≤ t + cycHz → s.saf.run = .safe → s.saf.safeForce = true →
      s.firstActive 3 = none →
      Completes (.safeReleaseSecond dt v) s fun u => u.saf = { s.saf with relAt := none, safeForce := false, relDone := true } ∧
        Frame [.clk, .out, .saf] s.toDev u) ∧
  (∀ (s : State) (dt : Nat) (v : Reg), 
      (fieldOf v 16 16 ≠ 0xA0E5 ∨ s.saf.relAt = none ∨ s.saf.run ≠ .safe ∨ (s.firstActive 3).isSome = true) →
      CompletesThen (.safeReleaseSecond dt v) s fun d => d.free = s.free + 1 ∧ d.saf.relAt = none ∧ d.saf.safeForce = s.saf.safeForce ∧
        d.todo = s.todo ++ [.fault 0xBC false] ∧ d.fld (0x11030, 16, 16) = satInc 16 (s.fld (0x11030, 16, 16)) ∧
        Frame [.clk, .out, .saf, .free, .regs, .todo] s.toDev d) ∧
  (∀ (s : State) (t : Nat), s.Settled → s.saf.relAt = some t →
      Completes .safeReleaseWindowExpiry s fun u => u.free = s.free + 1 ∧ u.saf.relAt = none ∧ u.saf.safeForce = s.saf.safeForce ∧
        u.up = max s.up (t + cycHz + 1) ∧ Frame [.clk, .out, .saf, .free] s.toDev u) ∧
  (∀ (s : State), s.saf.relDone = true → s.saf.run = .safe →
      CompletesThen .safeReleaseBoundary s fun d => d.saf.run = (if s.par.role = .standby then .standby else .fleetStop) ∧ d.saf.relDone = false ∧
        d.saf.safeForce = s.saf.safeForce ∧ d.clk = s.clk.run (s.clk.cyclesTo (nextSlot s.nt)) ∧
        Frame [.clk, .out, .saf, .dry, .hif, .regs, .todo] s.toDev d)

/-- A lockstep mismatch or an uncorrectable error of its SRAM raises 0xB5 or 0xB9 and restarts Rootstock until the
restart ends; a heartbeat of a core counts for its epoch; at the end of an epoch each core that gave none has missed
one more and one that did none, and a core that has missed two in a row raises 0xB6. (Parts of R414 and R417.) -/
def Obligations.RootstockWatchesTheCores : Prop :=
  (∀ (s : State) (dt : Nat),
      CompletesThen (.lockstepMismatch dt) s fun d => d.saf = { s.saf with restarting := true } ∧ d.todo = s.todo ++ [.fault 0xB5 false] ∧
        Frame [.clk, .out, .saf, .todo] s.toDev d) ∧
  (∀ (s : State) (dt : Nat),
      CompletesThen (.safSramUe dt) s fun d => d.saf = { s.saf with restarting := true } ∧ d.todo = s.todo ++ [.fault 0xB9 false] ∧
        Frame [.clk, .out, .saf, .todo] s.toDev d) ∧
  (∀ (s : State) (dt : Nat), s.Settled →
      Completes (.rootstockRestart dt) s fun t => t.saf = { s.saf with restarting := false } ∧ Frame [.clk, .out, .saf] s.toDev t) ∧
  (∀ (s : State) (dt core : Nat), s.Settled → core < s.saf.beats.length →
      Completes (.planningHeartbeat dt core) s fun t => t.saf.beats[core]? = some true ∧ (∀ k, k ≠ core → t.saf.beats[k]? = s.saf.beats[k]?) ∧
        t.saf = { s.saf with beats := t.saf.beats } ∧ Frame [.clk, .out, .saf] s.toDev t) ∧
  (∀ (s : State) (dt : Nat),
      CompletesThen (.planWatchdog dt) s fun d => d.saf.beats = [false, false, false, false] ∧
        d.saf.missed = ((s.saf.missed.zip s.saf.beats).map fun p => if p.2 then 0 else p.1 + 1) ∧
        ((∃ m ∈ d.saf.missed, 2 ≤ m) → .fault 0xB6 false ∈ d.todo) ∧
        ((∀ m ∈ d.saf.missed, m < 2) → d.todo = s.todo) ∧ Frame [.clk, .out, .saf, .todo] s.toDev d)

/-- A port that loses its clock drops its channels and holds the level of 0x40; the clock may return; each second's
check within 100 ppb counts toward clean, one beyond leaves the port incoherent (0x41), one beyond 100 ppm loses the
clock; a stuck bit holds 0x42. A front-end transfer that ends gives its data, right-aligned, and one that does not
raises 0x48. The group whose turn falls due asks leave; a delay within 2 ns is applied and the group becomes the
spare; a larger one, or a parity error, retires the group with 0x43 and the level of 0x44. After a relock channels
reacquire and the next epoch carries GAP. (Parts of R72 to R74, R79 to R83 and R106.) -/
def Obligations.TheSampleInterfacesAreWatched : Prop :=
  (∀ (s : State) (dt p : Nat), s.portRuns p = true →
      CompletesThen (.spClkLoss dt p) s fun d => d.port p = { s.port p with clkOk := false, lost := true } ∧ (∀ q, q ≠ p → d.port q = s.port q) ∧
        (∀ c ∈ d.gns.chans, portOf c.ant c.sig ≠ p) ∧ (∀ c ∈ s.gns.chans, portOf c.ant c.sig ≠ p → c ∈ d.gns.chans) ∧
        (d.src 0x40).level = true ∧ ((s.src 0x40).level = false → .fault 0x40 false ∈ d.todo) ∧ Frame [.clk, .out, .gns, .flt, .todo] s.toDev d) ∧
  (∀ (s : State) (dt p : Nat), s.portUsed p = true → (s.port p).clkOk = false →
      CompletesThen (.spClkReturn dt p) s fun d => d.port p = { s.port p with clkOk := true, lost := false } ∧ (∀ q, q ≠ p → d.port q = s.port q) ∧ Frame [.clk, .out, .gns, .flt, .todo] s.toDev d) ∧
  (∀ (s : State) (dt p : Nat) (ppb : Int) (tog : Bool) (hist : List (Byte × Nat)), s.portRuns p = true → ppb.natAbs ≤ 100000 → (s.port p).stuck = false →
      CompletesThen (.spClkCheck dt p ppb tog hist) s fun d => d.port p = (if 100 < ppb.natAbs then { s.port p with occ := s.highOcc p hist, coherent := false, okSecs := 10 }
          else { s.port p with occ := s.highOcc p hist, coherent := true, okSecs := if (s.port p).coherent then (s.port p).okSecs - 1 else (s.port p).okSecs }) ∧
        (∀ q, q ≠ p → d.port q = s.port q) ∧ (100 < ppb.natAbs → (d.src 0x41).level = true) ∧ Frame [.clk, .out, .gns, .flt, .todo] s.toDev d) ∧
  (∀ (s : State) (dt p : Nat) (ppb : Int) (tog : Bool) (hist : List (Byte × Nat)), s.portRuns p = true → 100000 < ppb.natAbs →
      CompletesThen (.spClkCheck dt p ppb tog hist) s fun d => d.port p = { s.port p with clkOk := false, lost := true } ∧ (∀ q, q ≠ p → d.port q = s.port q) ∧
        (d.src 0x40).level = true ∧ Frame [.clk, .out, .gns, .flt, .todo] s.toDev d) ∧
  (∀ (s : State) (dt p : Nat), s.portRuns p = true →
      CompletesThen (.spStuck dt p) s fun d => d.port p = { s.port p with stuck := true, togSecs := 10 } ∧ (∀ q, q ≠ p → d.port q = s.port q) ∧ (d.src 0x42).level = true ∧ Frame [.clk, .out, .gns, .flt, .todo] s.toDev d) ∧
  (∀ (s : State) (dt cs n : Nat) (v : Reg), s.Settled → s.gns.fe = some (cs, n) →
      Completes (.feSpiDone dt v) s fun t => t.gns = { s.gns with fe := none } ∧
        (t.reg 0x5104).toNat = v.toNat % 2 ^ n % 2 ^ 32 ∧ RegsBut [0x5104] s.toDev t ∧ Frame [.clk, .out, .gns, .regs] s.toDev t) ∧
  (∀ (s : State) (dt cs n : Nat), s.gns.fe = some (cs, n) →
      CompletesThen (.feSpiTimeout dt) s fun d => d.gns = { s.gns with fe := none } ∧ d.todo = s.todo ++ [.fault 0x48 false] ∧
        Frame [.clk, .out, .gns, .todo] s.toDev d) ∧
  (∀ (s : State) (g p : Nat), s.Settled → s.flag (0x5060, 0, 1) = true → s.gns.spare = some p → s.gns.calib = none →
      s.nextTurn s.gns.nextGrp = some g →
      Completes .calibrationDue s fun t => t.gns = { s.gns with calib := some { grp := g }, nextGrp := (g + 1) % 13, calFrom := t.up } ∧
        t.up = max s.up (s.gns.calFrom + 60 * s.fld (0x5060, 8, 16) * cycHz) ∧ (∃ r ∈ t.gov.reqs, r.work = .calib g ∧ r.cls = 7 ∧ r.mw = 400) ∧
        Frame [.clk, .out, .gns, .gov] s.toDev t) ∧
  (∀ (s : State) (dt : Nat) (res : List (Int × Int)) (c : Calib), s.Settled → s.gns.calib = some c → c.stage = 2 → (∀ x ∈ res, x.1.natAbs ≤ 2000) →
      Completes (.calibrationDone dt res) s fun t => t.gns.calib = none ∧ t.gns.spare = some c.grp ∧
        (∀ b, b < 3 → Tab.get (fun _ => (0, 0)) t.gns.delays (3 * c.grp + b) = res.getD b (0, 0)) ∧
        t.gns.retired = s.gns.retired ∧ t.hasLeave (.calib c.grp) = false ∧ t.fld (0x506C, 16, 16) = satInc 16 (s.fld (0x506C, 16, 16)) ∧
        Frame [.clk, .out, .gns, .gov, .regs, .dry] s.toDev t) ∧
  (∀ (s : State) (dt : Nat) (res : List (Int × Int)) (c : Calib), 
      s.gns.calib = some c → c.stage = 2 → (∃ x ∈ res, 2000 < x.1.natAbs) → s.grpThere c.grp = true → c.grp ∉ s.gns.retired →
      CompletesThen (.calibrationDone dt res) s fun d => d.gns.calib = none ∧ d.gns.spare = none ∧ d.gns.retired = c.grp :: s.gns.retired ∧
        .fault 0x43 false ∈ d.todo ∧ (d.src 0x44).level = true) ∧
  (∀ (s : State) (dt g : Nat), s.grpThere g = true → g ∉ s.gns.retired →
      CompletesThen (.correlatorParityError dt g) s fun d => d.gns.retired = g :: s.gns.retired ∧ d.gns.spare = none ∧ d.gns.calib = none ∧
        .fault 0x43 false ∈ d.todo ∧ (d.src 0x44).level = true ∧ (s.gns.spare = none → ∀ c ∈ d.gns.chans, c.no / 32 ≠ g) ∧
        Frame [.clk, .out, .gns, .gov, .flt, .todo] s.toDev d) ∧
  (∀ (s : State) (dt : Nat), s.Settled → s.pll.refOk = true →
      Completes (.corrRelock dt) s fun t => t.gns = { s.gns with
          engine := 1, chans := s.gns.chans.map fun c => { c with lock := none, align := none, ralign := none }, gap := true, airGap := true } ∧
        t.pll = { s.pll with corr := true } ∧ (s.forced 0x01 = false → (t.src 0x01).level = false) ∧
        Frame [.clk, .out, .gns, .pll, .flt] s.toDev t)

/-- An epoch is published at its tick with NT valid and the engine running: the engine tracks, GAP ends, the live
solution is held, and with FORCE_DENIED every signal is DENIED; in a pause of its firmware it is not, GAP and 0x47 say
so. A position that waits is adopted at an epoch boundary with the next BASE_SEQ, and its command answered. A survey
reports every 10 s and ends at its time with 0x0202; a base position far from the live solution is refused 0x0201;
streams take over at the next epoch; a raw capture starts at its time and ends with its bytes. (Parts of R83 to R85,
R90 to R93, R97, R105 and R121. What the sky and the front-ends give is the event's operand.) -/
def Obligations.TheReferenceStationPublishesAndSurveys : Prop :=
  (∀ (s : State) (f : SkyFacts) (e : NT), e = s.nextDue (nextEpoch s.epochHz) s.gns.epochAt →
      s.epochHz ≠ 0 → s.upd.pause ≠ some 2 → s.gns.engine ≠ 0 → s.tim.ntValid = true → s.gns.adopt = none →
      s.gns.streamNext = none → s.fld (0x5014, 24, 1) = s.gns.refAnt →
      CompletesThen (.gnssEpoch f) s fun d => d.clk.acc = (s.clk.run (s.clk.cyclesTo e)).acc ∧ d.up = (s.clk.run (s.clk.cyclesTo e)).up ∧ d.gns.engine = 2 ∧ d.gns.gap = false ∧
        d.gns.live = f.live ∧ d.gns.clk = some (f.bias, f.drift) ∧ d.gns.held.getLast?.map (·.t) = some e ∧ d.gns.epochAt = e ∧
        (s.flag (0x514C, 0, 1) = true → (∀ n, n < 16 → (d.sig n).st = 2) ∧ d.station = 2)) ∧
  (∀ (s : State) (f : SkyFacts) (e : NT), e = s.nextDue (nextEpoch s.epochHz) s.gns.epochAt → s.epochHz ≠ 0 → s.upd.pause = some 2 →
      CompletesThen (.gnssEpoch f) s fun d => d.clk = s.clk.run (s.clk.cyclesTo e) ∧ d.gns = { s.gns with gap := true, airGap := true, epochAt := e } ∧
        d.todo = s.todo ++ (if s.gns.base ≠ 0 then [.fault 0x47 false] else []) ∧ Frame [.clk, .out, .gns, .todo] s.toDev d) ∧
  (∀ (s : State) (f : SkyFacts) (a : Adoption) (l : Live) (h : Nat) (e : NT), e = s.nextDue (nextEpoch s.epochHz) s.gns.epochAt →
      s.epochHz ≠ 0 → s.upd.pause ≠ some 2 → s.gns.engine = 0 → s.gns.adopt = some a → a.handle = some h → s.Waits h l →
      s.gns.streamNext = none → s.fld (0x5014, 24, 1) = s.gns.refAnt →
      CompletesThen (.gnssEpoch f) s fun d => d.Answered l stOK [] ∧ d.gns.base = a.kind ∧ d.gns.pos = a.pos ∧ d.gns.adopt = none ∧
        d.gns.baseSeq = (if s.gns.baseSeq = 255 then 1 else s.gns.baseSeq + 1) ∧ (∀ q ∈ d.frk.queue, q ∈ s.frk.queue ∨ q.kept.isSome = true) ∧
        (∀ q ∈ d.frk.queue, q.eng = none → ntAfter e q.tObs = false) ∧
        d.clk = s.clk.run (s.clk.cyclesTo e)) ∧
  (∀ (s : State) (werr : Bool) (v : Survey) (l : Live), 
      s.Settled → s.gns.survey = some v → v.out = false → s.Waits v.handle l → s.Room l.cq →
      Completes (.surveyProgress werr) s fun t => t.Progressed l 1 (leBytes (v.used / 20) 4 ++ leBytes (v.std.getD 0xFFFFFFFF) 4 ++ leBytes v.nsat 1) ∧
        t.gns = { s.gns with survey := some { v with nextAt := ntAdd v.nextAt ((10 * tickHz : Nat) : Int) } } ∧
        t.clk = s.clk.run (s.clk.cyclesTo v.nextAt) ∧ Frame [.clk, .out, .hif, .gns] s.toDev t) ∧
  (∀ (s : State) (v : Survey) (l : Live), s.Settled → s.gns.survey = some v → v.maxS ≠ 0 → s.Waits v.handle l →
      Completes .surveyTimeout s fun t => t.Answered l stSurveyTimeout [] ∧ t.gns = { s.gns with survey := none } ∧
        t.clk = s.clk.run (s.clk.cyclesTo (ntAdd v.start ((v.maxS * tickHz : Nat) : Int))) ∧ Frame [.clk, .out, .hif, .gns] s.toDev t) ∧
  (∀ (s : State) (h : Nat) (l : Live) (b : List Byte) (p : Int × Int × Int), 
      s.Settled → s.Runs h 0x21 l → BaseLegal b → s.baseMayMove = true → s.gns.adopt = none → s.gns.live = some p →
      (bitAt (leAt b 27 1) 0 = true → s.antB = true) → bitAt (leAt b 27 1) 1 = false → implausible p (leAtS b 0 8, leAtS b 8 8, leAtS b 16 8) = true →
      Completes (.gnssSetBase h (some b)) s fun t => t.Answered l stBaseMismatch [] ∧ Frame [.out, .hif] s.toDev t) ∧
  (∀ (s : State) (h : Nat) (l : Live), 
      s.Settled → s.Runs h 0x23 l → streamStop l.entry = false → 65536 ≤ l.len → s.gns.streamNext = none →
      Completes (.corrStreamCfg h) s fun t => t.Begun l ∧ t.gns = { s.gns with streamNext := some {
          handle := h, msm := l.p 0 1, div := l.p 1 1, arp := l.p 2 2, ant := l.p 4 2, len := l.len, nlen := l.p 16 4 } } ∧
        Frame [.out, .hif, .gns] s.toDev t) ∧
  (∀ (s : State) (h : Nat) (l : Live), 
      s.Settled → s.Runs h 0x22 l → capBytes (l.p 8 1) (l.p 10 2) 1 ≤ l.len →
      (∀ p, p < 6 → bitAt (l.p 8 1) p = true → s.portUsed p = true) → s.gns.capture = none →
      Completes (.gnssRawCapture h) s fun t => t.Begun l ∧ t.gns = { s.gns with capture := some {
          handle := h, ports := l.p 8 1, ms := l.p 10 2, at_ := if l.pNt 0 = 0 ∨ ntReached s.nt (l.pNt 0) = true then s.nt else l.pNt 0
          running := decide (l.pNt 0 = 0) || ntReached s.nt (l.pNt 0) } } ∧ Frame [.out, .hif, .gns] s.toDev t) ∧
  (∀ (s : State) (c : RawCap), s.Settled → s.gns.capture = some c → c.running = false →
      Completes .rawCaptureStart s fun t => t.gns = { s.gns with capture := some { c with running := true } } ∧
        t.clk = s.clk.run (s.clk.cyclesTo c.at_) ∧ Frame [.clk, .out, .gns] s.toDev t) ∧
  (∀ (s : State) (b : List (List Byte)) (c : RawCap) (l : Live), 
      s.Settled → s.gns.capture = some c → c.running = true → s.Waits c.handle l →
      Completes (.rawCaptureDone b false) s fun t => t.Answered l stOK (leBytes (capBytes c.ports c.ms 1) 4) ∧ .host c.handle 0 0 (capBlocks c.ports c.at_ c.ms 1 b) ∈ t.out ∧
        t.gns = { s.gns with capture := none } ∧ t.clk = s.clk.run (s.clk.cyclesTo (ntAdd c.at_ (msTicks c.ms))) ∧
        Frame [.clk, .out, .hif, .gns] s.toDev t)

/-- In FLEET_STOP, SAFE, STANDBY and BOOT a GNSS_SURVEY_START with no buffer or one of at least 32 bytes begins a
survey while none runs, and a GNSS_SET_BASE with a legal buffer, whose baseline if it gives one is in range, that the
live solution does not contradict, waits to be adopted while nothing else does; each is begun, and nothing else
changes. In RUN and UPDATE_PAUSE each completes REFUSED_BUSY and changes nothing. (R91.) -/
def Obligations.TheBaseMovesOnlyUnderAStandingFleet : Prop :=
  (∀ (s : State) (h : Nat) (l : Live), s.Settled → s.Runs h 0x20 l → (l.len = 0 ∨ 32 ≤ l.len) →
      (s.saf.run = .fleetStop ∨ s.saf.run = .safe ∨ s.saf.run = .standby ∨ s.saf.run = .boot) → s.gns.survey = none →
      Completes (.gnssSurveyStart h) s fun t => t.Begun l ∧ t.gns = { s.gns with
          std := 0xFFFFFFFF, survey := some { handle := h, start := s.nt, minS := l.p 0 4, acc := l.p 4 4, maxS := l.p 8 4, out := l.len != 0
                                              nextAt := ntAdd s.nt ((10 * tickHz : Nat) : Int) } } ∧ Frame [.out, .hif, .gns] s.toDev t) ∧
  (∀ (s : State) (h : Nat) (l : Live), 
      s.Settled → s.Runs h 0x20 l → (l.len = 0 ∨ 32 ≤ l.len) → (s.saf.run = .run ∨ s.saf.run = .updatePause) →
      Completes (.gnssSurveyStart h) s fun t => t.Answered l stBusy (offsetRes none) ∧ Frame [.out, .hif] s.toDev t) ∧
  (∀ (s : State) (h : Nat) (l : Live) (b : List Byte), s.Settled → s.Runs h 0x21 l → BaseLegal b →
      (bitAt (leAt b 27 1) 0 = false ∨ s.antB = true ∧ baselineOk (leAtS b 28 4, leAtS b 32 4, leAtS b 36 4) = true) →
      (s.saf.run = .fleetStop ∨ s.saf.run = .safe ∨ s.saf.run = .standby ∨ s.saf.run = .boot) → s.gns.adopt = none →
      s.gns.survey = none →
      (s.gns.live.all (fun p => bitAt (leAt b 27 1) 1 || !implausible p (leAtS b 0 8, leAtS b 8 8, leAtS b 16 8)) = true) →
      Completes (.gnssSetBase h (some b)) s fun t => t.Begun l ∧ t.gns = { s.gns with
          adopt := some { handle := some h, kind := 3, pos := (leAtS b 0 8, leAtS b 8 8, leAtS b 16 8), bl := if bitAt (leAt b 27 1) 0 then some (leAtS b 28 4, leAtS b 32 4, leAtS b 36 4) else none
                          arp := some (leAt b 24 2, leAt b 40 2 + 65536 * leAt b 26 1, slice b 48 64)
                          check := s.gns.live.isNone && !bitAt (leAt b 27 1) 1 } } ∧ Frame [.out, .hif, .gns] s.toDev t) ∧
  (∀ (s : State) (h : Nat) (l : Live) (b : List Byte), 
      s.Settled → s.Runs h 0x21 l → BaseLegal b → (bitAt (leAt b 27 1) 0 = true → s.antB = true) → (s.saf.run = .run ∨ s.saf.run = .updatePause) →
      Completes (.gnssSetBase h (some b)) s fun t => t.Answered l stBusy (offsetRes none) ∧ Frame [.out, .hif] s.toDev t)

/-- A RAW_OBS frame that counts for its lease renews it; one that R149 accepts is queued as an epoch with the base
epoch of its grid instant, and one whose body is malformed is counted as discarded. The epoch that has waited longest
goes to a free engine; with none free after 1 ms one is skipped, OVERLOAD is set with the level of 0x51 and event
0x0701, and it ends 10 s after the last long wait; a solved epoch leaves the queue and its record is the slot's,
numbered in FRK_POS_SEQ. A large search that is found waits for the next epoch, an abandoned one is gone, and both
return their leave; a faulty engine retires with 0x50. (Parts of R21, R149, R152, R156, R158, R159, R163, R165 and
R166.) -/
def Obligations.TheRtkArrayServesItsEpochs : Prop :=
  (∀ (s : State) (dt i : Nat) (m : RxItem), 
      s.mac.inbox = [m] → m.q = 24 → s.robotOf (frSrc m.frame) = some i → s.older i (frEpoch m.frame) = false →
      s.counts i (frEpoch m.frame) = true →
      parseRawObs (slice m.frame 22 (frLen m.frame - (if frRep m.frame then 46 else 0))) = none →
      CompletesThen (.rawObs dt) s fun d => d.mac.inbox = [] ∧ (d.lease i).rx = m.rx ∧ (d.lease i).reported = true ∧
        (d.lease i).st = (if (s.lease i).st = .suspect then .active else (s.lease i).st) ∧ d.frk = s.frk ∧
        d.fld (0x705C, 0, 8) = satInc 8 (s.fld (0x705C, 0, 8)) ∧ d.clk = s.clk.run dt) ∧
  (∀ (s : State) (dt i short : Nat) (m : RxItem) (cells : List RawCell) (odo : Int) (t g : NT) (e : HeldEpoch), 
      s.mac.inbox = [m] → m.q = 24 → s.robotOf (frSrc m.frame) = some i → s.older i (frEpoch m.frame) = false →
      s.counts i (frEpoch m.frame) = true →
      parseRawObs (slice m.frame 22 (frLen m.frame - (if frRep m.frame then 46 else 0))) = some (cells, short, odo) →
      t = expandNt m.rx short → g = gridNear (s.lease i).tRep t → ((s.frkSlot i).newest.all fun n => ntAfter t n) = true →
      ntSince t g ≤ fullTicks 1 1000 → ntSince g t ≤ fullTicks 1 1000 → ntSince t m.rx ≤ fullTicks 2 1000 → ntSince m.rx t ≤ tickHz →
      (s.tim.stepBeacon.all fun a => !ntAfter a t) = true →
      s.gns.held.find? (fun x => x.t == g && decide (ntSince (s.tick dt).nt x.t ≤ 2 * tickHz)) = some e →
      CompletesThen (.rawObs dt) s fun d => d.mac.inbox = [] ∧ (d.lease i).rx = m.rx ∧ (d.lease i).reported = true ∧
        (d.lease i).st = (if (s.lease i).st = .suspect then .active else (s.lease i).st) ∧ d.clk = s.clk.run dt ∧
        (d.frkSlot i).newest = some t ∧ (∃ q, d.frk.queue = s.frk.queue ++ [q] ∧ q.slot = i ∧ q.tObs = t ∧ q.rx = m.rx ∧ q.at_ = d.nt ∧
          q.odo = odo ∧ q.cells = cells ∧ q.base = e.cells ∧ q.eng = none)) ∧
  (∀ (s : State) (dt e : Nat) (q : FrkEpoch), 
      s.Settled → (s.frk.queue.find? (fun y => y.eng.isNone) = some q) → s.freeEng = some e →
      (s.frkSlot q.slot).reset = none →
      Completes (.engineDispatch dt) s fun t => t.frk = { s.frk with
          queue := s.frk.queue.map fun y => if y = q then { y with eng := some e } else y
          lastWait := if fullTicks 500 1000000 < ntSince t.nt q.at_ then t.nt else s.frk.lastWait } ∧ t.clk = s.clk.run dt ∧
        Frame [.clk, .out, .frk] s.toDev t) ∧
  (∀ (s : State) (q : FrkEpoch), 
      (s.frk.queue.find? (fun y => y.eng.isNone && !y.late) = some q) → s.freeEng = none → s.frk.overload = false →
      s.Room (s.evtCq 0x0701) →
      CompletesThen .epochSkip s fun d => d.frk.overload = true ∧ d.frk.lastWait = d.nt ∧ (d.src 0x51).level = true ∧
        d.Told (s.evtCq 0x0701) 0x0701 (leBytes (d.fld (0x7060, 0, 16)) 4) ∧ d.clk = s.clk.run (s.clk.cyclesTo (ntAdd q.at_ (msTicks 1))) ∧
        Frame [.clk, .out, .frk, .flt, .hif, .regs, .todo] s.toDev d) ∧
  (∀ (s : State), s.Settled → s.frk.overload = true →
      Completes .overloadEnd s fun t => t.frk = { s.frk with overload := false } ∧ (s.forced 0x51 = false → (t.src 0x51).level = false) ∧
        t.clk = s.clk.run (s.clk.cyclesTo (ntAdd s.frk.lastWait ((10 * tickHz : Nat) : Int))) ∧ Frame [.clk, .out, .frk, .flt] s.toDev t) ∧
  (∀ (s : State) (dt e : Nat) (q : FrkEpoch), (s.frk.queue.find? (fun y => y.eng == some e) = some q) →
      CompletesThen (.positionRecord dt e) s fun d => q ∉ d.frk.queue ∧ d.reg 0x7058 = s.reg 0x7058 + 1 ∧
        (d.frkSlot q.slot).rec_.map (fun r => (r.slot, r.tObs, r.baseSeq, r.tPub)) =
          some (q.slot, q.tObs, q.baseSeq, d.nt) ∧ (d.frkSlot q.slot).skipped = false ∧
        (q.kept = none → (d.frkSlot q.slot).filt.lastProc = some q.tObs) ∧ d.clk = s.clk.run dt) ∧
  (∀ (s : State) (dt e i : Nat) (at_ : NT) (gone : Bool), s.searchOn e = some (i, at_, gone) →
      CompletesThen (.largeSearchDone dt e) s fun d => (d.frkSlot i).search = (if gone then .none_ else .found) ∧ d.hasLeave (.largeSearch i) = false ∧
        d.frk.queue = s.frk.queue ∧ Frame [.clk, .out, .frk, .gov, .regs] s.toDev d) ∧
  (∀ (s : State) (e i : Nat) (at_ : NT) (gone : Bool), s.searchOn e = some (i, at_, gone) →
      CompletesThen (.largeSearchAbandon e) s fun d => (d.frkSlot i).search = .none_ ∧ d.hasLeave (.largeSearch i) = false ∧ d.frk.queue = s.frk.queue ∧
        d.clk = s.clk.run (s.clk.cyclesTo (ntAdd at_ (msTicks (s.fld (0x7020, 16, 8))))) ∧ Frame [.clk, .out, .frk, .gov, .regs] s.toDev d) ∧
  (∀ (s : State) (dt e : Nat), e < 8 → e ∉ s.frk.retired →
      CompletesThen (.engineFault dt e) s fun d => d.frk.retired = e :: s.frk.retired ∧ (∀ q ∈ d.frk.queue, q.eng ≠ some e) ∧ d.searchOn e = none ∧
        d.todo = s.todo ++ [.fault 0x50 false] ∧ Frame [.clk, .out, .frk, .gov, .regs, .todo] s.toDev d) ∧
  (∀ (s : State) (i : Nat) (r : RtkReset) (l : Live), 
      s.Settled → (s.frkSlot i).reset = some r → r.wait ≠ 0 → s.Waits r.handle l → s.Room l.cq →
      Completes (.rtkResetProgress i) s fun t => t.Progressed l 1 (match (s.frkSlot i).rec_ with
          | some c => leBytes c.pub 1 ++ [0] ++ leBytes c.prot 2 | none => [0, 0, 0, 0]) ∧
        (t.frkSlot i).reset = some { r with nextProg := ntAdd r.nextProg (tickHz : Nat) } ∧ t.clk = s.clk.run (s.clk.cyclesTo r.nextProg) ∧
        Frame [.clk, .out, .hif, .frk] s.toDev t) ∧
  (∀ (s : State) (i : Nat) (r : RtkReset) (l : Live), s.Settled → (s.frkSlot i).reset = some r → r.wait ≠ 0 → s.Waits r.handle l →
      Completes (.rtkResetTimeout i) s fun t => t.Answered l stConverge [] ∧ t.frkSlot i = { s.frkSlot i with reset := none } ∧
        (∀ j, j ≠ i → t.frkSlot j = s.frkSlot j) ∧ t.clk = s.clk.run (s.clk.cyclesTo r.until_) ∧ Frame [.clk, .out, .hif, .frk] s.toDev t) ∧
  (∀ (s : State) (h i : Nat) (l : Live), 
      s.Settled → s.Runs h 0x30 l → l.p 8 1 = i → l.p 0 2 ≠ 0 → l.p 2 2 ≤ 2000 → 50 ≤ l.p 4 2 → l.p 4 2 ≤ 5000 →
      10 ≤ l.p 6 2 → l.p 6 2 ≤ 2000 → 1 ≤ l.p 9 1 → l.p 9 1 ≤ 3 →
      ((s.lease i).st = .released ∨ (s.lease i).st = .unknown) →
      Completes (.rtkAdmitRover h) s fun t => t.Answered l stOK [] ∧ t.frkSlot i = { s.frkSlot i with profNext := some {
          antH := l.p 2 2, accH := l.p 4 2, accV := l.p 6 2, mask := some (l.p 0 2), fixMode := l.p 9 1 } } ∧
        (∀ j, j ≠ i → t.frkSlot j = s.frkSlot j) ∧ Frame [.out, .hif, .frk] s.toDev t) ∧
  (∀ (s : State) (h i : Nat) (l : Live), 
      s.Settled → s.Runs h 0x30 l → l.p 8 1 = i → l.p 0 2 ≠ 0 → l.p 2 2 ≤ 2000 → 50 ≤ l.p 4 2 → l.p 4 2 ≤ 5000 →
      10 ≤ l.p 6 2 → l.p 6 2 ≤ 2000 → 1 ≤ l.p 9 1 → l.p 9 1 ≤ 3 →
      ((s.lease i).st = .active ∨ (s.lease i).st = .suspect) →
      Completes (.rtkAdmitRover h) s fun t => t.Answered l stSlotLive [] ∧ Frame [.out, .hif] s.toDev t) ∧
  (∀ (s : State) (h i : Nat) (l : Live), s.Settled → s.Runs h 0x31 l → l.p 0 1 = i → (l.p 1 1 = 1 ∨ l.p 1 1 = 2) → l.p 2 1 ≤ 2 →
      (l.p 2 1 = 0 ∨ (1 ≤ l.p 4 2 ∧ l.p 4 2 ≤ 600)) →
      ((s.lease i).st = .admitting ∨ (s.lease i).st = .active ∨ (s.lease i).st = .suspect) →
      (s.frkSlot i).reset = none →
      Completes (.rtkResetRover h) s fun t => t.Begun l ∧ t.frkSlot i = { s.frkSlot i with reset := some {
          handle := h, scope := l.p 1 1, wait := l.p 2 1, until_ := ntAdd s.nt ((l.p 4 2 * tickHz : Nat) : Int)
          nextProg := ntAdd s.nt (tickHz : Nat) } } ∧ (∀ j, j ≠ i → t.frkSlot j = s.frkSlot j) ∧
        t.frk.queue = s.frk.queue.filter (fun q => !(q.slot == i && q.eng.isSome)) ∧ Frame [.out, .hif, .frk] s.toDev t)

/-- A push of the next word of an item, or of the first of a new one, into a queue in use with room puts it behind the
words held, and a pop in the same cycle gives the oldest visible word first; into a full queue it is dropped and
counted at the queue; a frame without room at a lane receive queue is dropped whole and counted. A pop gives the
oldest visible word, or, where none is visible, nothing; a word whose check fails is given with ERR, counted, and
raises 0x21. A refill of the spill organisation moves words and loses none. A flush in FLEET_STOP or SAFE empties a
queue whose consumer has begun no item; else REFUSED is set. A flow-control pin that is not wanted drops after
MIN_ASSERT. (Parts of R347, R350, R353 to R356, R360 and R362.) -/
def Obligations.QueuesTakeGiveAndFlushWords : Prop :=
  (∀ (s : State) (dt q words : Nat) (w : QWord), 
      s.Settled → s.queueUsed q = true → w.sop = !(s.queue q).open_ → ((s.queue q).cut = false ∨ w.sop = true) →
      (s.queue q).words.length < (s.queForce q).1 →
      (q < 8 → w.sop = true → (s.queue q).words.length + words ≤ (s.queForce q).1) →
      (s.fuse.big = true ∨ (s.queue q).tail ≠ 8) →
      Completes (.queuePush dt q w words false) s fun t => (t.queue q).words = (s.queue q).words ++ [w] ∧ (t.queue q).open_ = !w.eop ∧
        (∀ k, k ≠ q → t.queue k = s.queue k) ∧ t.out = [] ∧ Frame [.clk, .out, .que, .regs] s.toDev t ∧ (∀ o, o ≠ 0xE020 → t.reg o = s.reg o)) ∧
  (∀ (s : State) (dt q words : Nat) (w a : QWord) (rest : List QWord), 
      s.Settled → s.queueUsed q = true → (s.queue q).visible (s.queForce q).2 ≠ 0 → (s.queue q).words = a :: rest →
      w.sop = !(s.queue q).open_ → (s.queue q).cut = false → (s.queue q).words.length < (s.queForce q).1 → 8 ≤ q →
      (s.fuse.big = true ∨ (s.queue q).tail ≠ 8) →
      Completes (.queuePush dt q w words true) s fun t => (t.queue q).words = rest ++ [w] ∧ t.out = [.word q (some a)] ∧
        (∀ k, k ≠ q → t.queue k = s.queue k)) ∧
  (∀ (s : State) (dt q words : Nat) (w : QWord), 
      s.Settled → s.queueUsed q = true → (s.queForce q).1 ≤ (s.queue q).words.length → (8 ≤ q ∨ w.sop = false) →
      Completes (.queuePush dt q w words false) s fun t => (t.queue q).words = (s.queue q).words ∧ (t.queue q).full = satInc 16 (s.queue q).full ∧
        (∀ k, k ≠ q → t.queue k = s.queue k) ∧ Frame [.clk, .out, .que] s.toDev t) ∧
  (∀ (s : State) (dt q words : Nat) (w : QWord), 
      s.Settled → s.queueUsed q = true → q < 8 → w.sop = true → (s.queForce q).1 < (s.queue q).words.length + words →
      Completes (.queuePush dt q w words false) s fun t => (t.queue q).words = (s.queue q).words ∧
        t.fld (0xE024, 0, 16) = satInc 16 (s.fld (0xE024, 0, 16)) ∧ RegsBut [0xE024] s.toDev t ∧ (∀ k, k ≠ q → t.queue k = s.queue k) ∧
        Frame [.clk, .out, .que, .regs] s.toDev t) ∧
  (∀ (s : State) (dt q : Nat) (a : QWord) (rest : List QWord), 
      s.Settled → s.queueUsed q = true → (s.queue q).visible (s.queForce q).2 ≠ 0 → (s.queue q).words = a :: rest →
      Completes (.queuePop dt q false) s fun t => t.out = [.word q (some a)] ∧ (t.queue q).words = rest ∧ (t.queue q).begun = !a.eop ∧
        (∀ k, k ≠ q → t.queue k = s.queue k) ∧ Frame [.clk, .out, .que] s.toDev t) ∧
  (∀ (s : State) (dt q : Nat) (ecc : Bool), s.Settled → s.queueUsed q = true → (s.queue q).visible (s.queForce q).2 = 0 →
      Completes (.queuePop dt q ecc) s fun t => t.out = [.word q none] ∧ (t.queue q).words = (s.queue q).words ∧
        (∀ k, k ≠ q → t.queue k = s.queue k) ∧ Frame [.clk, .out, .que] s.toDev t) ∧
  (∀ (s : State) (dt q : Nat) (a : QWord) (rest : List QWord), 
      s.queueUsed q = true → (s.queue q).visible (s.queForce q).2 ≠ 0 → (s.queue q).words = a :: rest →
      CompletesThen (.queuePop dt q true) s fun d => d.out = [.word q (some { a with err := true })] ∧ (d.queue q).words = rest ∧
        d.todo = s.todo ++ [.fault 0x21 false] ∧ d.fld (0xE020, 16, 16) = satInc 16 (s.fld (0xE020, 16, 16)) ∧
        RegsBut [0xE020] s.toDev d ∧ Frame [.clk, .out, .que, .regs, .todo] s.toDev d) ∧
  (∀ (s : State) (dt q words : Nat) (w : QWord), 
      s.Settled → s.queueUsed q = true → w.sop = false → ((s.queue q).cut = true ∨ (s.queue q).open_ = false) →
      (s.queue q).words.length < (s.queForce q).1 → (s.fuse.big = true ∨ (s.queue q).tail ≠ 8) →
      Completes (.queuePush dt q w words false) s fun t => (t.queue q).words = (s.queue q).words ∧
        t.fld (0xE020, 0, 16) = (if (s.queue q).cut then s.fld (0xE020, 0, 16) else satInc 16 (s.fld (0xE020, 0, 16))) ∧
        RegsBut [0xE020] s.toDev t ∧ (∀ k, k ≠ q → t.queue k = s.queue k) ∧ Frame [.clk, .out, .que, .regs] s.toDev t) ∧
  (∀ (s : State) (dt q words : Nat) (w : QWord) (pop : Bool), s.Settled → s.queueUsed q = false →
      Completes (.queuePush dt q w words pop) s fun t => Frame [.clk, .out] s.toDev t) ∧
  (∀ (s : State) (dt q : Nat), s.Settled → s.queueUsed q = true → s.fuse.big = false →
      Completes (.spillRefill dt q) s fun t => (t.queue q).words = (s.queue q).words ∧ (t.queue q).open_ = (s.queue q).open_ ∧
        ((s.queue q).words.length ≤ (s.queue q).head + (s.queue q).tail → (t.queue q).head = (s.queue q).head + min (8 - (s.queue q).head) (s.queue q).tail) ∧
        ((s.queue q).head + (s.queue q).tail < (s.queue q).words.length → (t.queue q).head =
          (s.queue q).head + min (8 - (s.queue q).head) ((s.queue q).words.length - (s.queue q).head - (s.queue q).tail)) ∧
        (∀ k, k ≠ q → t.queue k = s.queue k) ∧ Frame [.clk, .out, .que] s.toDev t) ∧
  (∀ (s : State) (dt q : Nat) (v : Reg), 
      s.Settled → fieldOf v 8 1 = 1 → fieldOf v 0 7 = q → (s.saf.run = .fleetStop ∨ s.saf.run = .safe) →
      (s.queue q).begun = false →
      Completes (.queFlush dt v) s fun t => (t.queue q).words = [] ∧ (t.queue q).open_ = false ∧ t.que.refused = s.que.refused ∧
        (t.queue q).flushCut = (if (s.queue q).open_ then satInc 16 (s.queue q).flushCut else (s.queue q).flushCut) ∧
        (∀ k, k ≠ q → t.queue k = s.queue k) ∧
        t.mac = { s.mac with
          txq := s.mac.txq.filter fun f => !(f.type_ != 1 && q == (if f.pslot then 16 else 8) + f.lane), inbox := s.mac.inbox.filter fun x => x.q != q } ∧
        Frame [.clk, .out, .que, .mac] s.toDev t) ∧
  (∀ (s : State) (dt : Nat) (v : Reg), s.Settled → fieldOf v 8 1 = 0 →
      Completes (.queFlush dt v) s fun t => Frame [.clk, .out] s.toDev t) ∧
  (∀ (s : State) (dt : Nat) (v : Reg), s.Settled → fieldOf v 8 1 = 1 → s.saf.run ≠ .fleetStop → s.saf.run ≠ .safe →
      Completes (.queFlush dt v) s fun t => t.que = { s.que with refused := true } ∧ Frame [.clk, .out, .que] s.toDev t) ∧
  (∀ (s : State) (p : Nat) (x : Qfc), s.Settled → p < 8 → (Tab.get (fun _ => {}) s.que.pins p = x) → x.on = true →
      Completes (.qfcMinAssertExpiry p) s fun t => Tab.get (fun _ => {}) t.que.pins p = { x with on := s.qfcWants p } ∧
        t.que.queues = s.que.queues ∧ t.up = max s.up (x.at_ + 250 * s.fld (0xE100 + 0x20 * p, 8, 8)) ∧
        (∀ k, k ≠ p → Tab.get (fun _ => ({} : Qfc)) t.que.pins k = Tab.get (fun _ => {}) s.que.pins k) ∧ Frame [.clk, .out, .que] s.toDev t)

/-- Power-on from OFF is BOOT with both stop latches set, every register of the file but DRY_PCYCLE at its reset value
and flash as it was; a loss of VDD_AON counts one power cycle more; where VDD_SAF rises first each stop output may
pass one high pulse of at most 5 us, and passes nothing else. Removal of power is OFF; the loss of VDD_AON also clears
the last words. A low of RST_N shorter than 100 ns changes nothing, one of 1 us or more resets all but flash, fuses,
operating time and last words, and what one between does is open. At its release NT is 0, the PLLs lock, the role and
the frame counter come back from flash, and each slot as its disposition says. The end of BOOT takes a SAFE reaction
of BOOT, or enters FLEET_STOP, or STANDBY on a standby; in boot hold it stays. (Parts of R26 to R28, R49, R419, R429,
R448, R462, R475, R497, R519, R520 and R522.) -/
def Obligations.PowerAndResetBringTheDeviceBack : Prop :=
  (∀ (s : State) (safFirst : Bool), s.saf.run = .off → s.clk.aon = true →
      Completes (.powerOn safFirst) s fun t => t.saf.run = .boot ∧ t.saf.latchA = true ∧ t.saf.latchB = true ∧ t.saf.released = false ∧
        (∀ o, o ≠ 0x13018 → t.reg o = resetReg o) ∧ t.reg 0x13018 = s.reg 0x13018 ∧ t.fuse = s.fuse ∧ t.nv = s.nv ∧
        t.dry.lws = s.dry.lws ∧ t.clk.acc = 0 ∧ t.clk.up = s.clk.up ∧ t.gns.engine = 0 ∧
        (safFirst = false → t.out = [] ∧ t.free = s.free) ∧
        (safFirst = true → t.free = s.free + 2 ∧ t.out.length ≤ 2 ∧ ∀ e ∈ t.out, ∃ chB ns, e = .stopPulse chB ns ∧ 0 < ns ∧ ns ≤ 5000)) ∧
  (∀ (s : State) (safFirst : Bool), s.saf.run = .off → s.clk.aon = false →
      Completes (.powerOn safFirst) s fun t => t.saf.run = .boot ∧ t.saf.latchA = true ∧ t.saf.latchB = true ∧
        (∀ o, o ≠ 0x13018 → t.reg o = resetReg o) ∧ (t.reg 0x13018).toNat = (s.nv.pcycle + 1) % 2 ^ 32 ∧
        t.nv = { s.nv with pcycle := (s.nv.pcycle + 1) % 2 ^ 32 } ∧ t.clk.aon = true ∧ t.clk.up = 0 ∧ t.dry.seq = 0) ∧
  (∀ (s : State) (aonLost : Bool),
      Completes (.powerRemoved aonLost) s fun t => t.saf.run = .off ∧ t.nv = s.nv ∧ t.fuse = s.fuse ∧ t.par.token = false ∧
        (∀ o, o ≠ 0x13018 → t.reg o = resetReg o) ∧ t.dry.lws = (if aonLost then [] else s.dry.lws) ∧
        t.clk.aon = (s.clk.aon && !aonLost) ∧ (∀ k, (t.axis k).en = false)) ∧
  (∀ (s : State) (dt lowNs : Nat), s.Settled → lowNs < 100 →
      Completes (.rstNAssert dt lowNs) s fun t => t.clk = s.clk.run dt ∧ Frame [.clk, .out] s.toDev t) ∧
  (∀ (s : State) (dt lowNs : Nat), 1000 ≤ lowNs → s.saf.run ≠ .off →
      Completes (.rstNAssert dt lowNs) s fun t => t.saf = { inA := s.saf.inA, inB := s.saf.inB, dpAt := t.clk.up + 10 * cycHz } ∧ t.nv = s.nv ∧ t.fuse = s.fuse ∧
        t.dry.lws = s.dry.lws ∧ t.dry.seq = s.dry.seq ∧ t.tdc = { failed := s.tdc.failed, uncal := s.tdc.uncal } ∧
        t.clk.up = s.clk.up + dt ∧ t.par.token = false ∧ (∀ o, o ≠ 0x13018 → t.reg o = resetReg o) ∧
        t.reg 0x13018 = s.reg 0x13018 ∧ (∀ k, (t.axis k).en = false ∧ (t.axis k).inH = (s.axis k).inH) ∧ (∀ n, t.src n = {}) ∧ t.hif = {}) ∧
  (∀ (s : State) (dt lowNs : Nat), s.Settled → 100 ≤ lowNs → lowNs < 1000 → s.saf.run ≠ .off →
      Completes (.rstNAssert dt lowNs) s fun t => t.free = s.free + 1 ∧
        ((t.saf.run = .boot ∧ t.clk.acc = 0 ∧ t.hif = {} ∧ t.nv = s.nv) ∨ Frame [.clk, .out, .free] s.toDev t)) ∧
  (∀ (s : State) (dt : Nat) (boot : BootFacts) (i : Nat) (x : Disp), 
      s.saf.run = .boot → s.saf.released = false → s.nv.disp = [(i, x)] →
      CompletesThen (.rstNRelease dt boot) s fun d => d.nt = 0 ∧ d.clk.up = s.clk.up + dt ∧ d.saf = { s.saf with released := true } ∧ d.gns.engine = 1 ∧ d.tdc.since = s.clk.up + dt ∧
        d.pll.core = true ∧ d.pll.time = true ∧ d.pll.saf = true ∧ d.par.role = s.nv.role ∧
        d.mac.fcnt = (match s.nv.fcnt with | some m => (m + 0x100000) % 2 ^ 48 | none => 0) ∧
        (d.lease i).st = (if x.kind = 0 then .unknown else .released) ∧ (d.lease i).epoch = x.epoch ∧ (d.lease i).parked = (x.kind == 2) ∧
        (d.lease i).unplaced = (x.kind == 3) ∧ (∀ j, j ≠ i → d.lease j = s.lease j) ∧ (∀ o, d.reg o = s.reg o)) ∧
  (∀ (s : State) (dt : Nat), s.saf.run = .boot → s.saf.released = true → s.upd.hold = false → s.saf.bootSafe = none →
      CompletesThen (.bootEnd dt) s fun d => d.saf.run = (if s.par.role = .standby then .standby else .fleetStop) ∧ d.saf.initDone = true ∧
        d.hif.ready = true ∧ (s.saf.latchA = true → (d.src 0xB0).level = true ∧ ((s.src 0xB0).level = false → .fault 0xB0 false ∈ d.todo)) ∧
        (s.saf.latchB = true → (d.src 0xB1).level = true) ∧ d.clk = s.clk.run dt) ∧
  (∀ (s : State) (dt src : Nat) (direct : Bool), 
      s.saf.run = .boot → s.saf.released = true → s.upd.hold = false → s.saf.bootSafe = some (src, direct) →
      CompletesThen (.bootEnd dt) s fun d => d.saf.run = .safe ∧ d.saf.initDone = true ∧ d.saf.safeForce = true ∧ d.saf.bootSafe = none ∧
        d.saf.safeCause = some (src, direct) ∧ d.hif.ready = true) ∧
  (∀ (s : State) (dt : Nat), s.Settled → s.saf.run = .boot → s.saf.released = true → s.upd.hold = true →
      Completes (.bootEnd dt) s fun t => t.hif = { s.hif with ready := true, fed := t.up } ∧ Frame [.clk, .out, .hif] s.toDev t)

/-- The loss of the alive wire raises 0x39 and that of the link 0x38, and a mirror in SYNC or JOINING goes
OUT_OF_SYNC; a standby with AUTO_TAKEOVER whose partner is silent on both and holds no token, and whose mirror was in
SYNC, decides a takeover, and one whose mirror was not raises 0x3D. A unit that wants the token takes it once the
partner's is low, and a standby whose takeover only the partner's token held back decides it then; if the partner's is
high at the confirmation, unit 0 keeps it, unit 1 drops it, and the conflict is counted and told; both high for longer
raise 0x3B. With the token confirmed the unit is promoted to ACTIVE: in RUN if it was in SYNC with no latch set, else
in FLEET_STOP; the frame counter leaps by 2^20, epochs in progress are dropped, and after a planned handover over a
link that is up its own mirror begins again, else it is ALONE. (Parts of R497, R498, R501, R505 and R506.) -/
def Obligations.AStandbyTakesOverFromASilentPartner : Prop :=
  (∀ (s : State) (dt : Nat), s.par.aliveIn = true → s.par.role ≠ .none →
      CompletesThen (.aliveLoss dt) s fun d => d.par.aliveIn = false ∧ .fault 0x39 false ∈ d.todo ∧ (s.par.take ≠ none → d.par.take = s.par.take) ∧
        Frame [.clk, .out, .par, .todo] s.toDev d) ∧
  (∀ (s : State) (dt : Nat), s.par.aliveIn = true → s.par.role = .standby → s.saf.run = .standby → s.flag (0x15014, 1, 1) = true →
      s.par.linkUp = false → s.par.tokenIn = false → s.par.take = none →
      CompletesThen (.aliveLoss dt) s fun d => d.par = { s.par with
          aliveIn := false, take := if s.par.wasSync then some { mode := 0, handle := none, decided := d.nt, toRun := true } else none } ∧
        d.todo = s.todo ++ .fault 0x39 false :: (if s.par.wasSync then [] else [.fault 0x3D false]) ∧
        Frame [.clk, .out, .par, .todo] s.toDev d) ∧
  (∀ (s : State) (dt : Nat), s.par.linkUp = true → s.par.role ≠ .none →
      CompletesThen (.pairLinkLoss dt) s fun d => d.par.linkUp = false ∧ d.par.wasSync = (decide (s.par.mirror = .sync) && s.timeReady) ∧
        .fault 0x38 false ∈ d.todo ∧ d.par.mirror = (if s.par.mirror = .sync ∨ s.par.mirror = .joining then .outOfSync else s.par.mirror) ∧
        (s.par.mirror = .sync ∨ s.par.mirror = .joining → .fault 0x3A false ∈ d.todo) ∧ d.par.role = s.par.role ∧
        (s.par.mirror = .joining → d.par.bulk = 0 ∧ d.hasLeave .bulkCopy = false ∧ d.asksLeave .bulkCopy = false) ∧
        (s.par.mirror ≠ .joining → d.gov = s.gov) ∧ Frame [.clk, .out, .par, .hif, .gov, .todo] s.toDev d) ∧
  (∀ (s : State) (dt h u : Nat) (l : Live), 
      s.Settled → s.par.linkUp = false → s.par.join = some (h, u) → u + 5 * cycHz ≤ s.up + dt → s.Waits h l →
      Completes (.pairLinkLoss dt) s fun t => t.Answered l 0x0D05 [] ∧ t.par = { s.par with join := none } ∧ Frame [.clk, .out, .par, .hif] s.toDev t) ∧
  (∀ (s : State) (dt : Nat), s.Settled → s.par.token = false →
      (s.par.take ≠ none ∨ (s.par.role ≠ .standby ∧ s.par.hand = none ∧ s.saf.run ∈ [.run, .fleetStop, .safe, .updatePause])) →
      Completes (.tokenTake dt) s fun t => t.par = { s.par with tokenIn := false, token := true, taking := some t.up, since := t.up } ∧
        t.up = s.up + dt ∧ Frame [.clk, .out, .par] s.toDev t) ∧
  (∀ (s : State) (dt : Nat), s.par.token = false → s.par.tokenIn = true → s.par.aliveIn = false → s.par.linkUp = false → s.par.role = .standby →
      s.saf.run = .standby → s.flag (0x15014, 1, 1) = true → s.par.take = none →
      CompletesThen (.tokenTake dt) s fun d => d.par = (if s.par.wasSync then { s.par with
          tokenIn := false, token := true, taking := some d.up, since := d.up
          take := some { mode := 0, handle := none, decided := d.nt, toRun := true } } else { s.par with tokenIn := false }) ∧
        d.todo = s.todo ++ (if s.par.wasSync then [] else [.fault 0x3D false]) ∧ Frame [.clk, .out, .par, .todo] s.toDev d) ∧
  (∀ (s : State) (u : Nat), s.Settled → s.par.taking = some u →
      Completes (.tokenConfirm false) s fun t => t.par = { s.par with taking := none, tokenIn := false } ∧ t.up = max s.up (u + 2500) ∧
        Frame [.clk, .out, .par] s.toDev t) ∧
  (∀ (s : State) (u : Nat), s.Settled → s.par.taking = some u → s.Room (s.evtCq 0x1503) →
      Completes (.tokenConfirm true) s fun t => t.par = { s.par with taking := none, tokenIn := true, token := decide (s.fld (0x15014, 0, 1) = 0) } ∧
        t.up = max s.up (u + 2500) ∧ t.fld (0x15020, 16, 16) = satInc 16 (s.fld (0x15020, 16, 16)) ∧
        t.Told (s.evtCq 0x1503) 0x1503 [0] ∧ RegsBut [0x15020] s.toDev t ∧ Frame [.clk, .out, .par, .regs, .hif] s.toDev t) ∧
  (∀ (s : State) (dt : Nat), s.par.token = true →
      CompletesThen (.tokenConflict dt) s fun d => d.par = { s.par with tokenIn := true } ∧ d.todo = s.todo ++ [.fault 0x3B false] ∧
        d.fld (0x15020, 16, 16) = satInc 16 (s.fld (0x15020, 16, 16)) ∧ RegsBut [0x15020] s.toDev d ∧
        Frame [.clk, .out, .par, .regs, .todo] s.toDev d) ∧
  (∀ (s : State) (dt : Nat) (k : Takeover), s.par.take = some k → k.promoted = false → s.par.token = true → s.par.taking = none →
      s.par.since + 25000 ≤ s.up + dt → s.saf.run = .standby →
      CompletesThen (.promotion dt) s fun d => d.par.role = .active ∧ d.nv.role = .active ∧ d.par.take = some { k with promoted := true } ∧
        d.saf.run = (if k.toRun && (decide (s.par.mirror = .sync) || s.par.wasSync) && !s.saf.latchA && !s.saf.latchB then .run else .fleetStop) ∧
        d.par.mirror = (if k.mode = 1 ∧ s.par.linkUp = true then .joining else .alone) ∧
        (k.mode = 1 → s.par.linkUp = true → s.par.mirror ≠ .joining → d.par.bulk = 1 ∧ d.par.bulkDone = false ∧ d.asksLeave .bulkCopy = true) ∧ d.par.token = true ∧
        d.mac.fcnt = (s.mac.fcnt + 0x100000) % 2 ^ 48 ∧ d.frk.queue = [] ∧ d.trl.replanAsked = true ∧ d.clk = s.clk.run dt)

/-- A unit that joins takes the role asked for, a standby drops its token and enters STANDBY, and mirroring begins
over a link that is up: JOINING, with a bulk copy that asks leave on the active unit; what stands in the way is told
in its status. After the bulk copy the first frame in order makes the mirror SYNC and answers the join; a standby
applies each frame it carries; a lost frame is counted and puts the mirror OUT_OF_SYNC, which ends a bulk copy.
PAIR_TAKEOVER in STANDBY decides a planned or a forced takeover, or is refused 0x0D01, 0x0D02 or 0x0D04. The active
unit stops 50 ms before the boundary; 40 ms before it its live commands end 0x0D07, it drops the token and enters
STANDBY and JOINING. (Parts of R498, R501, R502, R504 and R508.) -/
def Obligations.ThePairJoinsMirrorsAndHandsOver : Prop :=
  (∀ (s : State) (dt mib : Nat) (p : PartnerFacts), 
      s.par.role = .standby → (s.par.mirror = .alone ∨ s.par.mirror = .outOfSync) → (s.meet p).partnerBad = none →
      CompletesThen (.pairLinkUp dt p mib) s fun d => d.par = { s.par with
          partner := p, tokenIn := p.token, aliveIn := p.alive, linkUp := true, mib := mib, bulkDone := false, mirror := .joining } ∧
        (s.Room (s.evtCq 0x1501) → d.Told (s.evtCq 0x1501) 0x1501 [BitVec.ofNat 8 s.par.mirror.code, 1]) ∧ Frame [.clk, .out, .par, .hif, .todo] s.toDev d) ∧
  (∀ (s : State) (dt mib : Nat) (p : PartnerFacts), 
      s.par.role = .active → (s.par.mirror = .alone ∨ s.par.mirror = .outOfSync) → (s.meet p).partnerBad = none →
      CompletesThen (.pairLinkUp dt p mib) s fun d => d.par.mirror = .joining ∧ d.par.linkUp = true ∧ d.par.bulk = 1 ∧
        d.gov.reqs = s.gov.reqs ++ [{ id := s.gov.nextId, cls := 6, mw := 1200, dur := msTicks (20 + 4 * mib), asked := d.nt
                                      dead := ntAdd d.nt ((10 * tickHz : Nat) : Int), work := .bulkCopy }] ∧
        Frame [.clk, .out, .par, .hif, .gov, .todo] s.toDev d) ∧
  (∀ (s : State) (dt mib h u code : Nat) (p : PartnerFacts) (l : Live), 
      s.Settled → s.par.role ≠ .none → s.par.mirror = .alone → (s.meet p).partnerBad = some code →
      s.par.join = some (h, u) → s.Waits h l →
      Completes (.pairLinkUp dt p mib) s fun t => t.Answered l code [] ∧ t.par.mirror = .alone ∧ t.par.join = none ∧ t.par.linkUp = true ∧
        Frame [.clk, .out, .par, .hif] s.toDev t) ∧
  (∀ (s : State) (dt : Nat), s.Settled → s.par.mirror = .joining → (s.par.role = .active → s.par.bulk = 2) → s.par.join = none →
      Completes (.bulkCopyDone dt) s fun t => t.par = { s.par with bulkDone := true, bulk := 0 } ∧ t.hasLeave .bulkCopy = false ∧
        Frame [.clk, .out, .par, .gov] s.toDev t) ∧
  (∀ (s : State) (dt lag : Nat) (p : PartnerFacts) (d : MirrorDelta) (h u : Nat) (l : Live), 
      s.par.mirror = .joining → s.par.bulkDone = true → s.par.role = .active → s.par.join = some (h, u) → s.Waits h l →
      CompletesThen (.mirrorFrame dt true p lag d) s fun x => x.par.mirror = .sync ∧ x.par.join = none ∧ x.live? h = none ∧ x.par.lag = sat 16 lag ∧
        x.par.seq = s.par.seq + 1 ∧ x.fld (0x1501C, 0, 16) = wrapInc 16 (s.fld (0x1501C, 0, 16)) ∧ RegsBut [0x1501C] s.toDev x ∧
        Frame [.clk, .out, .par, .hif, .gov, .regs, .todo] s.toDev x) ∧
  (∀ (s : State) (dt lag v i n : Nat) (p : PartnerFacts) (d : MirrorDelta) (g : Option Graph) (x : Lease), 
      s.par.mirror = .sync → s.par.role = .standby → d.regs = [] → d.graph = some (v, g) → d.leases = [(i, x)] →
      d.resv = none → d.fcnt = some n →
      CompletesThen (.mirrorFrame dt true p lag d) s fun t => t.trl.graph = g ∧ t.trl.ver = v ∧ t.lease i = { x with handle := none } ∧
        (∀ j, j ≠ i → t.lease j = s.lease j) ∧ t.mac.fcnt = n ∧ t.nv.fcnt = some n ∧ t.par.mirror = .sync ∧ t.par.seq = s.par.seq + 1) ∧
  (∀ (s : State) (dt lag : Nat) (p : PartnerFacts) (d : MirrorDelta), (s.par.mirror = .joining ∨ s.par.mirror = .sync) →
      CompletesThen (.mirrorFrame dt false p lag d) s fun x => x.par.mirror = .outOfSync ∧ .fault 0x3A false ∈ x.todo ∧
        x.fld (0x1501C, 16, 16) = satInc 16 (s.fld (0x1501C, 16, 16)) ∧ RegsBut [0x1501C] s.toDev x ∧
        (s.par.mirror = .joining → x.par.bulk = 0 ∧ x.hasLeave .bulkCopy = false) ∧ (s.par.mirror = .sync → x.gov = s.gov) ∧
        Frame [.clk, .out, .par, .hif, .gov, .regs, .todo] s.toDev x) ∧
  (∀ (s : State) (b : NT), s.Settled → s.par.role = .active → (s.saf.run = .run ∨ s.saf.run = .fleetStop) → onSlotframe b = true →
      Completes (.plannedHandoverStop b) s fun t => t.par = { s.par with hand := some b } ∧
        t.clk = s.clk.run (s.clk.cyclesTo (ntAdd b (-(msTicks 50 : Int)))) ∧ Frame [.clk, .out, .par] s.toDev t) ∧
  (∀ (s : State) (b : NT) (l : Live), s.par.hand = some b → s.hif.live = [l] → l.orphan = false → s.saf.run ≠ .standby →
      CompletesThen .finalDelta s fun d => d.saf.run = .standby ∧ d.par.role = .standby ∧ d.nv.role = .standby ∧ d.par.token = false ∧
        d.par.taking = none ∧ d.par.hand = none ∧ d.par.mirror = .joining ∧ d.mac.txq = [] ∧ d.saf.burst = none ∧ d.saf.resume = [] ∧
        .mirror s.par.seq ∈ d.out ∧ d.clk = s.clk.run (s.clk.cyclesTo (ntAdd b (-(msTicks 40 : Int))))) ∧
  (∀ (s : State) (h : Nat) (l : Live), 
      s.Settled → s.Runs h 0xC0 l → l.p 0 1 = 1 → s.par.role = .none → (s.saf.run = .run ∨ s.saf.run = .fleetStop) →
      s.par.linkUp = false → s.par.join = none →
      Completes (.pairJoin h) s fun t => t.Begun l ∧ t.par = { s.par with role := .active, join := some (h, s.up), mirror := .alone } ∧
        t.nv = { s.nv with role := .active } ∧ Frame [.out, .hif, .par, .nv] s.toDev t) ∧
  (∀ (s : State) (h : Nat) (l : Live), 
      s.Runs h 0xC0 l → l.p 0 1 ≠ 1 → s.par.role = .none → s.saf.run = .fleetStop → s.txu.leases = [] →
      s.par.linkUp = false → s.par.join = none →
      CompletesThen (.pairJoin h) s fun d => d.Begun l ∧ d.par = { s.par with
          role := .standby, join := some (h, s.up), mirror := .alone, token := false, taking := none } ∧
        d.nv = { s.nv with role := .standby } ∧ d.saf.run = .standby ∧ Frame [.out, .hif, .par, .nv, .saf, .dry, .regs, .todo] s.toDev d) ∧
  (∀ (s : State) (h : Nat) (l : Live), 
      s.Settled → s.Runs h 0xC0 l → l.p 0 1 ≠ 1 → (s.par.role = .none ∨ s.par.role = .active) → s.saf.run ≠ .fleetStop →
      Completes (.pairJoin h) s fun t => t.Answered l 0x0D04 [] ∧ Frame [.out, .hif] s.toDev t) ∧
  (∀ (s : State) (h : Nat) (l : Live), s.Settled → s.Runs h 0xC1 l → s.saf.run = .standby → s.par.take = none →
      ((l.p 0 1 = 1 ∧ s.par.mirror = .sync ∧ s.timeReady = true) ∨ (l.p 0 1 ≠ 1 ∧ s.par.tokenIn = false)) →
      Completes (.pairTakeover h) s fun t => t.Begun l ∧ t.par = { s.par with
          take := some { mode := l.p 0 1, handle := some h, decided := s.nt, toRun := decide (l.p 0 1 = 1) } } ∧ Frame [.out, .hif, .par] s.toDev t) ∧
  (∀ (s : State) (h : Nat) (l : Live), s.Settled → s.Runs h 0xC1 l → (s.saf.run ≠ .standby ∨ s.par.take = none) →
      Completes (.pairTakeover h) s fun t => (s.saf.run ≠ .standby → t.Answered l 0x0D04 [] ∧ Frame [.out, .hif] s.toDev t) ∧
        (s.saf.run = .standby → l.p 0 1 = 1 → s.par.mirror ≠ .sync → t.Answered l 0x0D01 [] ∧ Frame [.out, .hif] s.toDev t) ∧
        (s.saf.run = .standby → l.p 0 1 ≠ 1 → s.par.tokenIn = true → t.Answered l 0x0D02 [] ∧ Frame [.out, .hif] s.toDev t))

/-- A patrol pass is counted; one that is 25 % late raises 0x2D, once. A correctable error counts within the powered
hour and raises 0x28, and the one that reaches CE_LIMIT raises 0x2A and, with AUTO_RETIRE, begins the retirement of
its rank; an uncorrectable one counts, raises 0x29, records its address and asks a full scrub. A rank whose blocks
have moved is retired until power-on, its blocks are in use on the other rank, 0x2B is raised and event 0x0301 tells
it; the end of a full scrub is counted, its leave returned, and event 0x0302 tells the words corrected. (Parts of
R511, R514 and R515.) -/
def Obligations.TheDramIsScrubbedAndItsRanksRetire : Prop :=
  (∀ (s : State) (dt : Nat), s.Settled →
      Completes (.patrolScrubPass dt) s fun t => t.fld (0x3030, 0, 16) = wrapInc 16 (s.fld (0x3030, 0, 16)) ∧ RegsBut [0x3030] s.toDev t ∧
        t.mem = { s.mem with patrolAt := t.up, late := false } ∧ t.up = s.up + dt ∧ Frame [.clk, .out, .regs, .mem] s.toDev t) ∧
  (∀ (s : State) (dt : Nat), s.mem.patrol = true → s.mem.late = false → s.mem.patrolAt + 4500 * s.fld (0x3018, 0, 8) * cycHz ≤ s.up + dt →
      CompletesThen (.dramScrubLate dt) s fun d => d.todo = s.todo ++ [.fault 0x2D false] ∧ d.mem = { s.mem with late := true } ∧ d.clk = s.clk.run dt ∧
        Frame [.clk, .out, .mem, .todo] s.toDev d) ∧
  (∀ (s : State) (dt r n : Nat), r < 2 → (s.rank r).present = true →
      n = satInc 16 (if (s.rank r).hour = (s.up + dt) / cycHz / 3600 then (s.rank r).ce else 0) →
      n ≠ s.fld (0x3018, 8, 8) →
      CompletesThen (.dramCe dt r) s fun d => d.rank r = { s.rank r with ce := n, hour := (s.up + dt) / cycHz / 3600 } ∧ d.rank (1 - r) = s.rank (1 - r) ∧
        d.todo = s.todo ++ [.fault 0x28 false] ∧ Frame [.clk, .out, .mem, .todo] s.toDev d) ∧
  (∀ (s : State) (dt r n : Nat), r < 2 → (s.rank r).present = true →
      n = satInc 16 (if (s.rank r).hour = (s.up + dt) / cycHz / 3600 then (s.rank r).ce else 0) →
      n = s.fld (0x3018, 8, 8) → s.flag (0x3018, 16, 1) = true → (s.rank r).retired = false →
      (s.rank r).migrating = false → (s.rank (1 - r)).present = true → (s.rank (1 - r)).retired = false →
      (s.rank (1 - r)).migrating = false → (s.rank (1 - r)).used + (s.rank r).used ≤ (s.rank (1 - r)).blocks →
      CompletesThen (.dramCe dt r) s fun d => d.rank r = { s.rank r with ce := n, hour := (s.up + dt) / cycHz / 3600, migrating := true, cause := 1 } ∧
        d.rank (1 - r) = s.rank (1 - r) ∧ d.todo = s.todo ++ [.fault 0x28 false, .fault 0x2A false] ∧ d.asksLeave (.migrate r) = true ∧
        Frame [.clk, .out, .mem, .gov, .todo] s.toDev d) ∧
  (∀ (s : State) (dt r addr : Nat), r < 2 → (s.rank r).present = true → s.flag (0x3018, 16, 1) = false → s.mem.scrub = false →
      s.mem.scrubWait = false →
      CompletesThen (.dramUe dt r addr) s fun d => d.rank r = { s.rank r with ue := satInc 8 (s.rank r).ue } ∧ d.rank (1 - r) = s.rank (1 - r) ∧
        d.mem.ueAddr = addr % 2 ^ 64 ∧ d.mem.scrubWait = true ∧ d.asksLeave .scrub = true ∧ d.todo = s.todo ++ [.fault 0x29 false] ∧
        Frame [.clk, .out, .mem, .gov, .todo] s.toDev d) ∧
  (∀ (s : State) (dt r : Nat), r < 2 → (s.rank r).migrating = true → s.asksLeave (.migrate r) = false → s.Room (s.evtCq 0x0301) →
      CompletesThen (.rankMigrationDone dt r) s fun d => d.rank r = { s.rank r with migrating := false, retired := true, used := 0 } ∧
        d.rank (1 - r) = { s.rank (1 - r) with used := (s.rank (1 - r)).used + (s.rank r).used } ∧ d.hasLeave (.migrate r) = false ∧
        d.todo = s.todo ++ [.fault 0x2B false] ∧ d.Told (s.evtCq 0x0301) 0x0301 (leBytes r 1 ++ leBytes (s.rank r).cause 1) ∧
        Frame [.clk, .out, .mem, .gov, .hif, .todo] s.toDev d) ∧
  (∀ (s : State) (dt corrected : Nat), s.Settled → s.mem.scrub = true → s.Room (s.evtCq 0x0302) →
      Completes (.fullScrubDone dt corrected) s fun t => t.mem = { s.mem with scrub := false } ∧ t.hasLeave .scrub = false ∧
        t.fld (0x3030, 16, 16) = satInc 16 (s.fld (0x3030, 16, 16)) ∧ t.Told (s.evtCq 0x0302) 0x0302 (leBytes corrected 4) ∧
        RegsBut [0x3030] s.toDev t ∧ Frame [.clk, .out, .mem, .gov, .regs, .hif] s.toDev t)

/-- A repeat of a fleet-wide stop goes out with its number and the burst goes on or ends; the frame a lane sends next
is loaded with its header, protection and FCS and launched at its instant under the next frame counter: acknowledged
it is gone and its command answered, else it is tried again while retries remain; the third transmission without SFD
fails the lane and raises 0x80. A received frame with a bad FCS or format is counted; one that is not authentic is
counted and raises 0x83, one without a route raises 0x86; a report that passes reaches its queue in clear with
DUP_HINT and the time of its SFD; the third bad length in a row fails the lane. A DATA frame is written to the host
buffer, or counted as dropped. A key word is written only while its entry is not VALID. (Parts of R316 to R318, R323,
R324, R327, R334, R338 and R383.) -/
def Obligations.FramesGoOutAndComeIn : Prop :=
  (∀ (s : State) (b : StopBurst) (n k rep : Nat), 
      s.Settled → s.saf.burst = some b → b.lanes = [(n, k, rep)] → (s.lane n).st = .inService →
      (s.tickTo (BitVec.ofNat 64 (slotStart k + usTicks 40))).holdsToken = true →
      Completes .allStopRepeat s fun t => t.out = [.radio n (s.template 0 ++ s.psdu (stopFrame rep b.cause b.at_)), .txgo n (s.launchAt n k)] ++
          (if s.template 3 = [] then [] else [.radio n (s.template 3)]) ++ [.allStop n b.cause rep] ∧ t.mac.fcnt = (s.mac.fcnt + 1) % 2 ^ 48 ∧
        t.lane n = { s.lane n with lastSlot := k } ∧ t.saf = { s.saf with
          burst := if rep = 3 then none else some { b with lanes := [(n, if (k + 1) % 50 = 0 then k + 2 else k + 1, rep + 1)] } } ∧
        t.clk = s.clk.run (s.clk.cyclesTo (BitVec.ofNat 64 (slotStart k + usTicks 40))) ∧
        RegsBut [0xD030, 0xD118 + 0x40 * n] s.toDev t ∧ Frame [.clk, .out, .mac, .nv, .regs, .saf] s.toDev t) ∧
  (∀ (s : State) (n k h : Nat) (f : TxFrame) (l : Live), 
      s.Settled → (s.lane n).st = .inService → s.beaconing = true → s.holdsToken = true → s.mac.txq = [f] → f.lane = n →
      f.handle = some h → s.nextSend n = some (k, f) → f.batch = [] → f.type_ = 12 → s.Waits h l →
      Completes (.frameTransmit n true true) s fun t => .frame n 12 f.dst f.body ∈ t.out ∧ .radio n (s.template 0 ++ s.psdu f) ∈ t.out ∧
        .txgo n (s.launchAt n k) ∈ t.out ∧ t.mac.txq = [] ∧ t.mac.fcnt = (s.mac.fcnt + 1) % 2 ^ 48 ∧
        t.Answered l stOK (leBytes f.tries 1) ∧ (t.lane n).noSfd = 0 ∧ (t.lane n).lastSlot = s.lastOf n k ∧
        t.clk = s.clk.run (s.clk.cyclesTo (s.launchAt n k)) ∧ Frame [.clk, .out, .hif, .mac, .nv, .regs] s.toDev t) ∧
  (∀ (s : State) (n k h : Nat) (f : TxFrame), 
      s.Settled → (s.lane n).st = .inService → s.beaconing = true → s.holdsToken = true → s.mac.txq = [f] → f.lane = n →
      f.handle = some h → s.nextSend n = some (k, f) → f.batch = [] → f.type_ = 12 → f.dst ≠ 0xFFFF →
      f.tries < s.fld (0xD014, 0, 2) →
      Completes (.frameTransmit n true false) s fun t => t.out = [.radio n (s.template 0 ++ s.psdu f), .txgo n (s.launchAt n k)] ++
          (if s.template 3 = [] then [] else [.radio n (s.template 3)]) ++ [.frame n 12 f.dst f.body] ∧ t.mac.txq = [{ f with tries := f.tries + 1 }] ∧
        t.mac.sends = s.mac.sends ∧ t.clk = s.clk.run (s.clk.cyclesTo (s.launchAt n k)) ∧ Frame [.clk, .out, .mac, .nv, .regs] s.toDev t) ∧
  (∀ (s : State) (n k h : Nat) (f : TxFrame), 
      (s.lane n).st = .inService → s.beaconing = true → s.holdsToken = true → s.mac.txq = [f] → f.lane = n →
      f.handle = some h → s.nextSend n = some (k, f) → f.batch = [] → f.type_ = 12 → (s.lane n).noSfd = 2 →
      CompletesThen (.frameTransmit n false false) s fun d => (d.lane n).st = .failed ∧ .fault 0x80 false ∈ d.todo ∧
        (∀ m, m ≠ n → d.lane m = s.lane m) ∧ (∀ x ∈ d.mac.txq, x.lane ≠ n)) ∧
  (∀ (s : State) (dt n len age : Nat) (b f : List Byte), s.Settled →
      (s.lane n).st = .inService → s.saf.run ≠ .boot → s.saf.run ≠ .off → 4 ≤ len → len ≤ 511 → f = slice b 0 len →
      fcs32 (f.take (len - 4)) ≠ leAt f (len - 4) 4 →
      Completes (.frameReceive dt n len age b) s fun t => t.mac = { s.mac with lanes := t.mac.lanes } ∧ t.lane n = { s.lane n with badRd := 0 } ∧
        t.fld (0xD114 + 0x40 * n, 16, 16) = satInc 16 (s.fld (0xD114 + 0x40 * n, 16, 16)) ∧
        t.fld (0xD114 + 0x40 * n, 0, 16) = wrapInc 16 (s.fld (0xD114 + 0x40 * n, 0, 16)) ∧ RegsBut [0xD114 + 0x40 * n] s.toDev t ∧
        Frame [.clk, .out, .mac, .regs] s.toDev t) ∧
  (∀ (s : State) (dt n len age : Nat) (b f : List Byte), s.Settled →
      (s.lane n).st = .inService → s.saf.run ≠ .boot → s.saf.run ≠ .off → 4 ≤ len → len ≤ 511 → f = slice b 0 len →
      fcs32 (f.take (len - 4)) = leAt f (len - 4) 4 → frameOk len f = false →
      Completes (.frameReceive dt n len age b) s fun t => t.mac = { s.mac with lanes := t.mac.lanes } ∧
        t.fld (0xD030, 16, 16) = satInc 16 (s.fld (0xD030, 16, 16)) ∧ RegsBut [0xD030, 0xD114 + 0x40 * n] s.toDev t ∧
        Frame [.clk, .out, .mac, .regs] s.toDev t) ∧
  (∀ (s : State) (dt n len age : Nat) (b f c : List Byte), s.Settled →
      (s.lane n).st = .inService → s.saf.run ≠ .boot → s.saf.run ≠ .off → 4 ≤ len → len ≤ 511 → f = slice b 0 len →
      fcs32 (f.take (len - 4)) = leAt f (len - 4) 4 → frameOk len f = true → frType f = 3 → frSrc f ≠ 1 → frSrc f ≠ 2 →
      s.openFrame f = some c → (s.routeTo (frSrc f)).isSome = true → s.saf.run ≠ .standby →
      Completes (.frameReceive dt n len age b) s fun t => t.mac.inbox = s.mac.inbox ++ [{
          q := 25, lane := n, rx := t.nt, frame := c, dup := (Tab.get (fun _ => []) s.mac.seen (frSrc f)).contains (frCnt f)
          sfd := ntAdd t.nt (-(age : Int) - nsTicks (s.fld (lnTSfd n))) }] ∧
        t.mac.txq = s.mac.txq ∧ t.clk = s.clk.run dt ∧ RegsBut [0xD034, 0xD114 + 0x40 * n] s.toDev t ∧ Frame [.clk, .out, .mac, .regs] s.toDev t) ∧
  (∀ (s : State) (dt n len age : Nat) (b f : List Byte),
      (s.lane n).st = .inService → s.saf.run ≠ .boot → s.saf.run ≠ .off → 4 ≤ len → len ≤ 511 → f = slice b 0 len →
      fcs32 (f.take (len - 4)) = leAt f (len - 4) 4 → frameOk len f = true → frType f = 3 → frSrc f ≠ 1 → frSrc f ≠ 2 → s.openFrame f = none →
      CompletesThen (.frameReceive dt n len age b) s fun d => d.mac = { s.mac with lanes := d.mac.lanes } ∧ .fault 0x83 false ∈ d.todo ∧
        d.fld (0xD034, 0, 16) = satInc 16 (s.fld (0xD034, 0, 16)) ∧ Frame [.clk, .out, .mac, .regs, .dry, .todo] s.toDev d) ∧
  (∀ (s : State) (dt n len age : Nat) (b f c : List Byte),
      (s.lane n).st = .inService → s.saf.run ≠ .boot → s.saf.run ≠ .off → 4 ≤ len → len ≤ 511 → f = slice b 0 len →
      fcs32 (f.take (len - 4)) = leAt f (len - 4) 4 → frameOk len f = true → frType f = 3 → frSrc f ≠ 1 → frSrc f ≠ 2 →
      s.openFrame f = some c → s.routeTo (frSrc f) = none →
      CompletesThen (.frameReceive dt n len age b) s fun d => d.mac.inbox = s.mac.inbox ∧ .fault 0x86 false ∈ d.todo ∧
        d.fld (0xD03C, 16, 16) = satInc 16 (s.fld (0xD03C, 16, 16)) ∧ Frame [.clk, .out, .mac, .regs, .todo] s.toDev d) ∧
  (∀ (s : State) (dt n len age : Nat) (b : List Byte),
      (s.lane n).st = .inService → s.saf.run ≠ .boot → s.saf.run ≠ .off → (len < 4 ∨ 511 < len) → (s.lane n).badRd = 2 →
      CompletesThen (.frameReceive dt n len age b) s fun d => (d.lane n).st = .failed ∧ d.todo = s.todo ++ [.fault 0x80 false] ∧
        (∀ m, m ≠ n → d.lane m = s.lane m) ∧ Frame [.clk, .out, .mac, .que, .todo] s.toDev d) ∧
  (∀ (s : State) (dt : Nat) (m : RxItem), 
      s.Settled → s.mac.inbox = [m] → m.q = 28 → frType m.frame = 12 → s.flag (0x2038, 31, 1) = true →
      Completes (.dataFrame dt) s fun t => t.mac.inbox = [] ∧ t.reg 0x203C = s.reg 0x203C + 1 ∧
        t.out.head? = some (.stream 0
          ((s.reg 0x2030).toNat + 4294967296 * (s.reg 0x2034).toNat + 384 * ((s.reg 0x203C).toNat % 2 ^ s.fld (0x2038, 0, 4)))
          (slice (leBytes (frSrc m.frame) 2 ++ leBytes (frLen m.frame) 2 ++ leBytes (b2n m.dup) 1 ++ leBytes m.lane 1 ++ leBytes 0 2 ++
            leBytes m.sfd.toNat 8 ++ leBytes 0 16 ++ slice (m.frame.drop 22) 0 (frLen m.frame)) 0 384)) ∧
        t.fld (0x2048, 0, 16) = (if 2 ^ s.fld (0x2038, 0, 4) ≤ ((s.reg 0x203C).toNat + 2 ^ 32 - (s.reg 0x2040).toNat) % 2 ^ 32
          then satInc 16 (s.fld (0x2048, 0, 16)) else s.fld (0x2048, 0, 16)) ∧
        RegsBut [0x203C, 0x2048] s.toDev t ∧ Frame [.clk, .out, .mac, .regs, .hif] s.toDev t) ∧
  (∀ (s : State) (dt : Nat) (m : RxItem), 
      s.Settled → s.mac.inbox = [m] → m.q = 28 → frType m.frame = 12 → s.flag (0x2038, 31, 1) = false →
      Completes (.dataFrame dt) s fun t => t.mac.inbox = [] ∧ t.out = [] ∧ t.fld (0x2048, 16, 16) = satInc 16 (s.fld (0x2048, 16, 16)) ∧
        RegsBut [0x2048] s.toDev t ∧ Frame [.clk, .out, .mac, .regs] s.toDev t) ∧
  (∀ (s : State) (dt k w : Nat) (v : Reg), s.Settled → k < 16 → w < 4 →
      Completes (.keyWrite dt k w v) s fun t => Tab.get (fun _ => 0) t.mac.keys (4 * k + w) =
          (if s.keyValid k then Tab.get (fun _ => 0) s.mac.keys (4 * k + w) else v) ∧
        (∀ j, j ≠ 4 * k + w → Tab.get (fun _ => 0) t.mac.keys j = Tab.get (fun _ => 0) s.mac.keys j) ∧ Frame [.clk, .out, .mac] s.toDev t)

/-- MAC_FRAME_SEND of data, or of a stop to a robot, queues its frame on the route with its deadline, and answers
0x0803 without a route; at the deadline the send ends 0x0804 and its frames are gone. MAC_ROUTE_SET judges the routes
it is given: legal ones become a change that applies at the first slotframe 1 s on, at which the routes are set and
the nodes unconfirmed are told; others answer 0x0802; a read answers OK with the entries. MAC_LANE_RETIRE moves a lane
to leave service or brings a retired or failed one back, 0x0801 otherwise; a lane that no node keeps is RETIRED and
its frames gone, and one retired by FORCE with nodes left raises 0x87. (Parts of R332, R333, R340, R344 and R356.) -/
def Obligations.TheHostSendsFramesAndSetsRoutes : Prop :=
  (∀ (s : State) (h : Nat) (l : Live) (b : List Byte) (r : RouteEnt), 
      s.Settled → s.Runs h 0x70 l → 10 ≤ l.p 0 4 → l.p 0 4 ≤ 600000 → l.p 6 1 = 12 → l.len ≤ 352 → s.beaconing = true →
      l.p 4 2 ≠ 0xFFFF → s.routeTo (l.p 4 2) = some r →
      Completes (.macFrameSend h (some b)) s fun t => t.Begun l ∧ t.mac.sends = s.mac.sends ++ [(h, ntAdd s.nt (msTicks (l.p 0 4) : Nat))] ∧
        t.mac.txq.dropLast = s.mac.txq ∧ t.mac.txq.getLast?.map (fun f => (f.type_, f.dst, f.body, f.lane)) = some (12, l.p 4 2, slice b 0 l.len, r.lane) ∧
        t.mac.txq.getLast?.map (fun f => (f.handle, f.until_)) = some (some h, some (ntAdd s.nt (msTicks (l.p 0 4) : Nat))) ∧ Frame [.out, .hif, .mac] s.toDev t) ∧
  (∀ (s : State) (h i : Nat) (l : Live) (r : RouteEnt), 
      s.Settled → s.Runs h 0x70 l → 10 ≤ l.p 0 4 → l.p 0 4 ≤ 600000 → l.p 6 1 = 1 → s.robotOf (l.p 4 2) = some i →
      s.routeTo (l.p 4 2) = some r →
      Completes (.macFrameSend h none) s fun t => t.Begun l ∧ t.mac.sends = s.mac.sends ++ [(h, ntAdd s.nt (msTicks (l.p 0 4) : Nat))] ∧
        t.mac.txq.dropLast = s.mac.txq ∧ t.mac.txq.getLast?.map (fun f => (f.type_, f.dst, f.epoch, f.body)) =
          some (1, l.p 4 2, (s.lease i).epoch, stopBody false 0 9 s.nt) ∧ Frame [.out, .hif, .mac] s.toDev t) ∧
  (∀ (s : State) (h : Nat) (l : Live) (b : List Byte), 
      s.Settled → s.Runs h 0x70 l → 10 ≤ l.p 0 4 → l.p 0 4 ≤ 600000 → l.p 6 1 = 12 → l.len ≤ 352 → s.beaconing = true →
      l.p 4 2 ≠ 0xFFFF → s.routeTo (l.p 4 2) = none →
      Completes (.macFrameSend h (some b)) s fun t => t.Answered l 0x0803 [] ∧ Frame [.out, .hif] s.toDev t) ∧
  (∀ (s : State) (h i : Nat) (l : Live), 
      s.Settled → s.Runs h 0x70 l → 10 ≤ l.p 0 4 → l.p 0 4 ≤ 600000 → l.p 6 1 = 1 → s.robotOf (l.p 4 2) = some i →
      s.routeTo (l.p 4 2) = none →
      Completes (.macFrameSend h none) s fun t => t.Answered l 0x0803 [] ∧ Frame [.out, .hif] s.toDev t) ∧
  (∀ (s : State) (h : Nat) (u : NT) (l : Live), s.Settled → s.mac.sends = [(h, u)] → s.Waits h l →
      Completes (.macSendDeadline h) s fun t => t.Answered l 0x0804 (leBytes (((s.mac.txq.filter fun f => f.handle == some h).map (·.tries)).foldl max 0) 1) ∧
        t.mac = { s.mac with sends := [], txq := s.mac.txq.filter fun f => f.handle != some h } ∧
        t.clk = s.clk.run (s.clk.cyclesTo u) ∧ Frame [.clk, .out, .hif, .mac] s.toDev t) ∧
  (∀ (s : State) (h : Nat) (l : Live) (b : List Byte) (rs : List RouteEnt), 
      s.Settled → s.Runs h 0x71 l → l.p 0 1 = 1 → l.p 2 2 ≤ 512 → l.len = 32 * l.p 2 2 →
      s.parseRoutes b (l.p 2 2) = some rs →
      Completes (.macRouteSet h (some b) false) s fun t => if s.routesOk s.mac.routes rs [] then t.Begun l ∧ t.mac.routes = s.mac.routes ∧
          t.mac.changes.dropLast = s.mac.changes ∧ t.mac.changes.getLast?.map (fun c => (c.handle, c.sets, c.dels, c.applyAt)) =
            some (h, rs, [], slotframeAtOrAfter (ntAdd s.nt tickHz)) ∧ Frame [.out, .hif, .mac, .txu] s.toDev t
        else t.Answered l 0x0802 [] ∧ Frame [.out, .hif] s.toDev t) ∧
  (∀ (s : State) (h : Nat) (l : Live) (b : List Byte) (rs : List RouteEnt), 
      s.Settled → s.Runs h 0x71 l → l.p 0 1 = 3 → l.p 2 2 ≤ 512 → l.len = 32 * l.p 2 2 →
      (((List.range (l.p 2 2)).map fun k => leAt b (32 * k) 2).mapM (fun d => s.routeTo d) = some rs) →
      Completes (.macRouteSet h (some b) false) s fun t => t.Answered l stOK [] ∧ .host h 0 0 (rs.flatMap RouteEnt.bytes) ∈ t.out ∧
        Frame [.out, .hif] s.toDev t) ∧
  (∀ (s : State) (c : RouteChange) (l : Live), 
      s.Settled → s.mac.changes = [c] → c.applied = false → c.retire = none → s.Waits c.handle l →
      Completes .routeApply s fun t => t.Answered l stOK (unconfirmedRes c.waiting) ∧ t.mac.routes = setRoutes s.mac.routes c.sets c.dels ∧
        t.mac.changes = [] ∧ (∀ i, c.sets.all (fun r => s.robotOf r.dest != some i) = true → t.lease i = s.lease i) ∧
        (∀ r ∈ c.sets, ∀ i, s.robotOf r.dest = some i → (t.lease i).cfgVer = c.cfgVer) ∧
        t.clk = s.clk.run (s.clk.cyclesTo c.applyAt) ∧ Frame [.clk, .out, .hif, .mac, .txu] s.toDev t) ∧
  (∀ (s : State) (c : RouteChange) (n : Nat) (force : Bool) (l : Live), 
      s.mac.changes = [c] → c.applied = true → c.retire = some (n, force) → (force = true ∨ s.keepLane c = []) →
      s.Waits c.handle l →
      CompletesThen .laneRetireComplete s fun d => d.Answered l stOK (unconfirmedRes (s.keepLane c)) ∧ (d.lane n).st = .retired ∧
        (∀ m, m ≠ n → d.lane m = s.lane m) ∧ (∀ f ∈ d.mac.txq, f.lane ≠ n) ∧ d.mac.changes = [] ∧
        d.todo = s.todo ++ (if s.keepLane c = [] then [] else [.fault 0x87 false]) ∧ Frame [.out, .hif, .mac, .que, .todo] s.toDev d) ∧
  (∀ (s : State) (h n : Nat) (l : Live), s.Settled → s.Runs h 0x72 l → l.p 0 1 = n → l.p 1 1 = 2 → l.p 2 1 ≤ 1 → l.p 4 2 = 0 →
      Completes (.macLaneRetire h none) s fun t => if (s.lane n).st = .retired ∨ (s.lane n).st = .failed
        then t.Answered l stOK [] ∧ t.lane n = { st := .inService, startSf := some (sfNext (slotframeOf s.nt.toNat)) } ∧
          (∀ m, m ≠ n → t.lane m = s.lane m) ∧ Frame [.out, .hif, .mac] s.toDev t
        else t.Answered l 0x0801 [] ∧ Frame [.out, .hif] s.toDev t) ∧
  (∀ (s : State) (h n : Nat) (l : Live), 
      s.Settled → s.Runs h 0x72 l → l.p 0 1 = n → l.p 1 1 = 1 → l.p 2 1 ≤ 1 → l.p 4 2 = 0 → l.len = 0 →
      (s.lane n).st = .inService → (s.lane n).moving = false → (s.mac.routes.all (fun r => r.lane != n) = true) →
      Completes (.macLaneRetire h none) s fun t => if s.routesOk s.mac.routes [] [] then t.Begun l ∧ t.lane n = { s.lane n with moving := true } ∧
        (∀ m, m ≠ n → t.lane m = s.lane m) ∧ t.mac.changes = s.mac.changes ++ [{
          handle := h, sets := [], dels := []
          applyAt := slotframeAtOrAfter (ntAdd s.nt tickHz), cfgVer := (s.txu.lastCfg + 1) % 65536, waiting := []
          retire := some (n, decide (l.p 2 1 = 1)) }] ∧ Frame [.out, .hif, .mac, .txu] s.toDev t
        else t.Answered l 0x0802 [] ∧ Frame [.out, .hif] s.toDev t)

/-- At a slot boundary lapsed entries leave, Rootstock copies or judges each lease, and a disagreement that outlasts
two boundaries raises 0xB7. An ACTIVE lease past three report intervals since the last report heard is SUSPECT and its
entries are frozen; one past LEASE_TIMEOUT is DEAD, and three slotframes of directed stops are queued on every lane in
service; once it has stopped its ground is its frozen envelope alone. An admission not answered in ADMIT_TIMEOUT is
RELEASED with PARKED and ends 0x050D; a silent ZOMBIE returns to the state it came from, which the diary notes under
its code with a value that is the model's free one (log entry 105); an ADMIT OFFER and a CONFIRM are sent again while
they are not answered. (Parts of R20 to R23, R35, R331 and R416.) -/
def Obligations.LeasesAgeAtSlotBoundaries : Prop :=
  (∀ (s : State) (i : Nat) (l : Lease), s.txu.leases = [(i, l)] → l.st = .active → s.par.linkUp = false → s.snp.demand = [] →
      ntSince (s.tickTo (s.nextDue nextSlot s.saf.slotAt)).nt (s.lastHeard i) ≤ msTicks (300 * l.tRep) →
      ntSince (s.tickTo (s.nextDue nextSlot s.saf.slotAt)).nt (s.lastHeard i) ≤ msTicks (10 * s.fld (0x9010, 0, 12)) →
      ((Tab.get (fun _ => {}) s.saf.mirror i).st ≠ 4) →
      CompletesThen .slotBoundary s fun d => Tab.get (fun _ => {}) d.saf.mirror i = { st := 2, epoch := l.epoch, cls := l.cls, rx := l.rx } ∧
        d.saf.disagree = 0 ∧ d.saf.slotAt = s.nextDue nextSlot s.saf.slotAt ∧ (∀ r ∈ d.trl.resv, r.openEnd = true ∨ ntReached d.nt r.tout = false) ∧ d.txu = s.txu ∧
        d.clk = s.clk.run (s.clk.cyclesTo (s.nextDue nextSlot s.saf.slotAt)) ∧ Frame [.clk, .out, .trl, .regs, .saf, .todo] s.toDev d) ∧
  (∀ (s : State) (i : Nat) (l : Lease) (m : MirrorLease), 
      s.txu.leases = [(i, l)] → l.st = .active → (Tab.get (fun _ => {}) s.saf.mirror i = m) → m.st = 4 →
      m.epoch = l.epoch → s.saf.disagree = 2 →
      CompletesThen .slotBoundary s fun d => .fault 0xB7 false ∈ d.todo ∧ d.saf.disagree = 3 ∧ (Tab.get (fun _ => ({} : MirrorLease)) d.saf.mirror i).st = 4) ∧
  (∀ (s : State) (i : Nat), (s.lease i).st = .active →
      CompletesThen (.leaseSuspect i) s fun d => (d.lease i) = { s.lease i with st := .suspect } ∧ (∀ j, j ≠ i → d.lease j = s.lease j) ∧
        (∀ r ∈ d.trl.resv, r.robot = i → r.frozen = true) ∧ (Tab.get (fun _ => ({} : Disp)) d.nv.disp i).kind = 3 ∧
        d.clk = s.clk.run (s.clk.cyclesTo (s.ageBoundary (s.lastHeard i) (300 * (s.lease i).tRep))) ∧ Frame [.clk, .out, .trl, .txu, .mac, .que, .hif, .regs, .dry, .gov, .nv, .frk, .todo] s.toDev d) ∧
  (∀ (s : State) (i : Nat), ((s.lease i).st = .active ∨ (s.lease i).st = .suspect) →
      CompletesThen (.leaseDead i) s fun d => (d.lease i) = { s.lease i with st := .dead, stopped := false, unsynced := false } ∧
        (∀ j, j ≠ i → d.lease j = s.lease j) ∧ (∀ r ∈ d.trl.resv, r.robot = i → r.frozen = true) ∧
        (∀ n ∈ s.inService, 3 ≤ (d.mac.txq.filter fun f => f.lane == n && f.type_ == 1 && f.dst == robotAddr i && f.epoch == (s.lease i).epoch).length) ∧
        (s.txu.txns = [] → ∀ k ∈ (s.taskOf i).toList, (d.task k).st = .orphaned) ∧
        d.clk = s.clk.run (s.clk.cyclesTo (s.ageBoundary (s.lastHeard i) (10 * s.fld (0x9010, 0, 12)))) ∧ Frame [.clk, .out, .trl, .txu, .mac, .que, .hif, .regs, .dry, .gov, .nv, .frk, .todo] s.toDev d) ∧
  (∀ (s : State) (i : Nat), 
      ((s.lease i).st = .dead ∨ ((s.lease i).st = .zombie ∧ (s.lease i).from_ = .dead)) → (s.lease i).stopped = false →
      CompletesThen (.tStopped i) s fun d => (d.lease i) = { s.lease i with stopped := true } ∧ (∀ j, j ≠ i → d.lease j = s.lease j) ∧
        (∀ r ∈ d.trl.resv, r.robot = i → r.frozen = true ∧ r.kind = .envelope) ∧
        d.clk = s.clk.run (s.clk.cyclesTo (slotAtOrAfter (s.tStopped i))) ∧ Frame [.clk, .out, .trl, .txu, .mac, .que, .hif, .regs, .dry, .gov, .nv, .frk, .todo] s.toDev d) ∧
  (∀ (s : State) (i h : Nat) (c : Live), (s.lease i).st = .admitting → (s.lease i).handle = some h → s.Waits h c →
      CompletesThen (.admitTimeout i) s fun d => (d.lease i).st = .released ∧ (d.lease i).parked = true ∧ (d.lease i).epoch = (s.lease i).epoch ∧
        (∀ r ∈ d.trl.resv, r.robot = i → r.frozen = true) ∧ d.live? h = none ∧ (∀ j, j ≠ i → d.lease j = s.lease j) ∧
        (s.txu.txns = [] → (s.frkSlot i).reset = none → d.Answered c 0x050D []) ∧ (d.loop (24 + 2 * i)).u = 0 ∧ (d.loop (25 + 2 * i)).u = 0 ∧
        d.clk = s.clk.run (s.clk.cyclesTo (slotAtOrAfter (ntAdd (s.lease i).since (msTicks (100 * s.fld (0x9010, 24, 8)) : Nat))))) ∧
  (∀ (s : State) (i : Nat), s.Settled → (s.lease i).st = .zombie →
      Completes (.zombieSilence i) s fun t => t.lease i = { s.lease i with st := (s.lease i).from_ } ∧ (∀ j, j ≠ i → t.lease j = s.lease j) ∧
        t.clk = s.clk.run (s.clk.cyclesTo (s.ageBoundary (s.lease i).zRx (10 * s.fld (0x9010, 0, 12)))) ∧ Frame [.clk, .out, .txu, .nv, .free, .dry, .regs] s.toDev t) ∧
  (∀ (s : State) (i : Nat) (r : RouteEnt), 
      s.Settled → (s.lease i).st = .admitting → (s.lease i).reported = false → s.routeTo (robotAddr i) = some r →
      Completes (.admitOfferRepeat i) s fun t => t.lease i = { s.lease i with sentAt := t.nt } ∧ (∀ j, j ≠ i → t.lease j = s.lease j) ∧
        t.mac.txq.dropLast = s.mac.txq ∧ t.mac.txq.getLast?.map (fun f => (f.type_, f.dst, f.epoch, f.lane)) =
          some (9, 0xFFFF, (s.lease i).epoch, r.lane) ∧ t.mac.txq.getLast?.map (fun f => slice f.body 0 11) =
          some (leBytes 17 1 ++ [0] ++ leBytes (s.lease i).uid 8 ++ leBytes i 1) ∧
        t.clk = s.clk.run (s.clk.cyclesTo (ntAdd (s.lease i).sentAt (msTicks 500 : Nat))) ∧ Frame [.clk, .out, .txu, .mac] s.toDev t) ∧
  (∀ (s : State) (i : Nat) (r : RouteEnt), 
      s.Settled → ((s.lease i).st = .active ∨ (s.lease i).st = .suspect) → (s.lease i).confirmed = false →
      s.routeTo (robotAddr i) = some r →
      Completes (.confirmRepeat i) s fun t => t.lease i = { s.lease i with sentAt := t.nt } ∧ (∀ j, j ≠ i → t.lease j = s.lease j) ∧
        t.mac.txq.dropLast = s.mac.txq ∧ t.mac.txq.getLast?.map (fun f => (f.type_, f.dst, f.epoch, f.lane)) =
          some (9, robotAddr i, (s.lease i).epoch, r.lane) ∧ t.mac.txq.getLast?.map (fun f => f.body) =
          some (leBytes 49 1 ++ [0] ++ leBytes (s.lease i).uid 8 ++ leBytes (s.lease i).cfgVer 2) ∧
        t.clk = s.clk.run (s.clk.cyclesTo (ntAdd (s.lease i).sentAt (msTicks 200 : Nat))) ∧ Frame [.clk, .out, .txu, .mac] s.toDev t)

/-- ROBOT_ADMIT of a legal robot to a slot without a live lease and held for no other makes the lease ADMITTING under
the next epoch, with the UID and class given and only its standing envelope reserved, its filter slot fresh, and its
loops OPEN at 0; a claim reaches the host as event 0x0D01 and admits nothing; CFG_ACK confirms the sender for its
configuration. A report under the lease's epoch renews it, makes a SUSPECT lease ACTIVE, and is kept; one under an
epoch that is over makes the slot ZOMBIE, told in event 0x0901 the first time. ROBOT_RELEASE of a stopped ACTIVE robot
that holds no OFFERED entry releases the slot, with or without PARKED, and one of a DEAD robot that has stopped its
ground, both with the loops open at 0; of an UNKNOWN slot it answers LEASE_STALE, and a live robot that moves BUSY.
(Parts of R14, R16, R20, R21, R24, R25, R328, R331, R333 and R336.) -/
def Obligations.RobotsAreAdmittedReportAndLeave : Prop :=
  (∀ (s : State) (h i : Nat) (l : Live) (b : List Byte) (g : Graph) (x : SegRec) (r : RouteEnt), 
      s.Runs h 0x73 l → s.paused = false → i = leAt b 8 1 → i < s.nSlots → leAt b 9 1 < 16 →
      (leAt b 10 1 = 1 ∨ leAt b 10 1 = 2) → leAt b 11 1 < 16 → leAt b 12 4 < 2 ^ 20 → leAt b 16 2 ≤ leAt b 18 2 →
      zeros b 20 12 = true → (s.cls (leAt b 9 1)).valid = true → 10 / leAt b 10 1 ≤ s.epochHz → s.saf.run ≠ .standby →
      s.saf.run ≠ .boot → s.trl.graph = some g → g.seg? (leAt b 12 4) = some x → leAt b 18 2 ≤ x.len →
      (s.lease i).st ≠ .admitting → (s.lease i).st ≠ .active → (s.lease i).st ≠ .suspect →
      ((s.lease i).bound = true → (s.lease i).uid = leAt b 0 8) → s.ratedLoad i + 10 / leAt b 10 1 ≤ (if s.fuse.big then 1280 else 640) →
      s.parseRoute (slice b 32 32) = some r → r.dest = robotAddr i → (s.lane r.lane).st = .inService →
      r.sleepy = false → s.routesBreak (setRoutes s.mac.routes [r] []) r.lane = false →
      CompletesThen (.robotAdmit h (some b)) s fun d => (d.lease i).st = .admitting ∧ (d.lease i).epoch = nextVer (s.lease i).epoch ∧
        (d.lease i).uid = leAt b 0 8 ∧ (d.lease i).cls = leAt b 9 1 ∧ (d.lease i).handle = some h ∧ (d.lease i).reported = false ∧
        (Tab.get (fun _ => ({} : Disp)) d.nv.disp i).epoch = nextVer (s.lease i).epoch ∧ (∀ j, j ≠ i → d.lease j = s.lease j) ∧
        (∀ q ∈ d.trl.resv, q.robot = i → q.kind = .envelope ∧ q.openEnd = true) ∧ d.mac.routes = setRoutes s.mac.routes [r] [] ∧
        (d.frkSlot i).st = .waiting ∧ (d.loop (24 + 2 * i)).st = .open_ ∧ (d.loop (25 + 2 * i)).u = 0) ∧
  (∀ (s : State) (dt : Nat) (m : RxItem), s.Settled → s.mac.inbox = [m] → m.q = 28 → frType m.frame = 9 → s.Room (s.evtCq 0x0D01) →
      Completes (.claim dt) s fun t => t.mac.inbox = [] ∧ t.txu = s.txu ∧
        t.Told (s.evtCq 0x0D01) 0x0D01 (slice m.frame 24 8 ++ leBytes m.lane 1 ++ leBytes (s.slotOfSfd m.lane m.sfd % 50) 1) ∧
        Frame [.clk, .out, .mac, .hif] s.toDev t) ∧
  (∀ (s : State) (dt : Nat) (m : RxItem) (c : RouteChange), 
      s.Settled → s.mac.inbox = [m] → m.q = 25 → frType m.frame = 9 → s.mac.changes = [c] →
      Completes (.cfgAck dt) s fun t => t.mac = { s.mac with
          inbox := [], changes := [if c.cfgVer = leAt m.frame 32 2 then { c with waiting := c.waiting.filter (· != frSrc m.frame) } else c] } ∧
        Frame [.clk, .out, .mac] s.toDev t) ∧
  (∀ (s : State) (dt i : Nat) (m : RxItem), 
      s.mac.inbox = [m] → m.q = 25 → frType m.frame = 3 → s.robotOf (frSrc m.frame) = some i →
      s.older i (frEpoch m.frame) = false → s.counts i (frEpoch m.frame) = true →
      CompletesThen (.report dt) s fun d => (d.lease i).rx = m.rx ∧ (d.lease i).reported = true ∧ (d.lease i).epoch = (s.lease i).epoch ∧
        (d.lease i).report = some (readReport (slice m.frame 22 46)) ∧ (d.lease i).repRx = m.rx ∧
        (d.lease i).st = (if (s.lease i).st = .suspect then .active else (s.lease i).st) ∧ d.mac.inbox = [] ∧ d.clk = s.clk.run dt) ∧
  (∀ (s : State) (dt i : Nat) (m : RxItem), 
      s.mac.inbox = [m] → m.q = 25 → frType m.frame = 3 → s.robotOf (frSrc m.frame) = some i →
      s.older i (frEpoch m.frame) = true → s.flag (0x9014, 0, 1) = false →
      (readReport (slice m.frame 22 46)).task = none → (s.lease i).st ≠ .zombie → s.Room (s.evtCq 0x0901) →
      CompletesThen (.report dt) s fun d => d.lease i = { s.lease i with
          st := .zombie, from_ := (s.lease i).st, zRx := d.nt } ∧ (∀ j, j ≠ i → d.lease j = s.lease j) ∧
        d.Told (s.evtCq 0x0901) 0x0901 (leBytes i 1 ++ [0] ++ leBytes (frEpoch m.frame) 2 ++ leBytes (s.lease i).uid 4) ∧
        d.mac.txq.length = s.mac.txq.length + s.inService.length ∧ d.trl = s.trl ∧ d.clk = s.clk.run dt ∧
        Frame [.clk, .out, .mac, .txu, .nv, .hif, .dry, .regs, .todo] s.toDev d) ∧
  (∀ (s : State) (h i : Nat) (l : Live) (r : Report), 
      s.Runs h 0x74 l → s.paused = false → l.p 0 1 = i → s.saf.run ≠ .standby → s.saf.run ≠ .boot →
      (s.lease i).st = .active → (s.lease i).report = some r → r.vMeas = 0 → s.holdsOffered i = false →
      CompletesThen (.robotRelease h) s fun d => (d.lease i).st = .released ∧ (d.lease i).parked = decide (l.p 1 1 = 1) ∧ d.live? h = none ∧
        (l.p 1 1 ≠ 1 → ∀ q ∈ d.trl.resv, q.robot ≠ i) ∧ (l.p 1 1 = 1 → ∀ q ∈ d.trl.resv, q.robot = i → q.kind = .envelope ∧ q.frozen = true) ∧
        (∀ j, j ≠ i → d.lease j = s.lease j) ∧ (d.loop (24 + 2 * i)).st = .open_ ∧ (d.loop (25 + 2 * i)).u = 0 ∧
        (s.txu.txns = [] → (s.frkSlot i).reset = none → d.Answered l stOK [])) ∧
  (∀ (s : State) (h i : Nat) (l : Live), 
      s.Runs h 0x74 l → s.paused = false → l.p 0 1 = i → l.p 1 1 = 0 → s.saf.run ≠ .standby → s.saf.run ≠ .boot →
      (s.lease i).st = .dead → (s.lease i).stopped = true →
      CompletesThen (.robotRelease h) s fun d => (d.lease i).st = .released ∧ (d.lease i).parked = false ∧ d.live? h = none ∧
        (∀ q ∈ d.trl.resv, q.robot ≠ i) ∧ (∀ j, j ≠ i → d.lease j = s.lease j) ∧ (d.loop (24 + 2 * i)).u = 0 ∧ (d.loop (25 + 2 * i)).u = 0 ∧
        (s.txu.txns = [] → (s.frkSlot i).reset = none → d.Answered l stOK [])) ∧
  (∀ (s : State) (h i : Nat) (l : Live), 
      s.Settled → s.Runs h 0x74 l → s.paused = false → l.p 0 1 = i → s.saf.run ≠ .standby → s.saf.run ≠ .boot →
      ((s.lease i).st = .unknown ∨ (s.lease i).st = .suspect ∨ (s.lease i).st = .zombie ∨ (s.lease i).st = .active) →
      ((s.lease i).st = .active → s.holdsOffered i = true) →
      Completes (.robotRelease h) s fun t => t.Answered l (if (s.lease i).st = .unknown then stStale else stBusy) (offsetRes (some 24)) ∧
        Frame [.out, .hif] s.toDev t)

/-- TRL_LOAD_GRAPH of an image whose header and length agree asks leave where the fleet stands and nothing is
reserved, and is refused 0x0402 elsewhere; when its work ends a graph whose records are well formed and that fits
replaces the old one whole as version 1, and one with a bad record is refused 0x0403 with its index and reason and
changes nothing. TRL_PATCH_GRAPH of the present version begins, of another is refused 0x0406; validation edits a copy,
gives it an id and a time and reports them, or ends 0x0403 with the index of the item that fails; at its instant the
graph is the edited one under the next version, and a full re-plan is requested, at a boundary whose planning epoch is
still to come in that epoch. TRL_QUERY of a node answers its record, or 0x0407, and of a segment how many reservations
meet the window. (Parts of R173, R181 to R184 and R203.) -/
def Obligations.TheTrackGraphIsLoadedPatchedAndRead : Prop :=
  (∀ (s : State) (h : Nat) (l : Live) (b : List Byte), 
      s.Settled → s.Runs h 0x40 l → l.len = b.length → leAt b 0 1 = 1 → leAt b 1 1 = 0 →
      zeros b 2 2 = true → 0 < leAt b 8 4 → leAt b 8 4 ≤ 1048576 → 0 < leAt b 12 4 → leAt b 12 4 ≤ 1048576 →
      leAt b 16 4 = 0 → zeros b 20 44 = true → b.length = 64 + 32 * leAt b 8 4 + 256 * leAt b 12 4 → s.trl.load = none →
      Completes (.trlLoadGraph h (some b)) s fun t => if s.mayReplace then t.Begun l ∧ t.trl = { s.trl with load := some { handle := h, image := b } } ∧
          t.asksLeave .graphLoad = true ∧ t.gov.grants = s.gov.grants ∧ Frame [.out, .hif, .trl, .gov] s.toDev t
        else t.Answered l 0x0402 [] ∧ Frame [.out, .hif] s.toDev t) ∧
  (∀ (s : State) (dt n : Nat) (x : GraphLoad) (g : Graph) (l : Live), 
      s.Settled → s.trl.load = some x → x.granted = true → s.loaded x.image = some (g, n) → n < 65536 →
      (s.derived g).fits = true → s.mayReplace = true → s.trl.patches = [] → s.trl.pendingFp = [] → s.Waits x.handle l →
      Completes (.graphLoadDone dt) s fun t => t.Answered l stOK [] ∧ t.trl = { s.trl with load := none, graph := some (s.derived g), ver := 1, cache := [] } ∧
        t.hasLeave .graphLoad = false ∧ t.clk = s.clk.run dt ∧ Frame [.clk, .out, .hif, .trl, .gov] s.toDev t) ∧
  (∀ (s : State) (dt i r n : Nat) (x : GraphLoad) (l : Live), 
      s.Settled → s.trl.load = some x → x.granted = true → s.loadFails x.image = some (i, r, n) → n < 65536 →
      s.Waits x.handle l →
      Completes (.graphLoadDone dt) s fun t => t.Answered l 0x0403 (leBytes i 4 ++ leBytes r 1) ∧ t.trl = { s.trl with load := none } ∧
        t.hasLeave .graphLoad = false ∧ Frame [.clk, .out, .hif, .trl, .gov] s.toDev t) ∧
  (∀ (s : State) (h n : Nat) (l : Live) (b : List Byte) (items : List (Nat × List Byte)), 
      s.Settled → s.Runs h 0x41 l → s.paused = false → s.applyTimeOk (l.pNt 0) = true → n = l.p 10 2 → n ≤ 256 →
      ((match patchItems b n 0 with | .ok r => some r | .error _ => none) = some (items, l.len)) → b.length = l.len →
      (s.saf.run = .run ∨ s.saf.run = .fleetStop) → s.inFlight < 256 → s.trl.graph.isSome = true →
      Completes (.trlPatchGraph h (some b)) s fun t => if l.p 8 2 = s.trl.ver
        then t.Begun l ∧ t.trl = { s.trl with patches := s.trl.patches ++ [{
            handle := h, ver := l.p 8 2, items, applyAt := givenApply (l.pNt 0) }] } ∧ Frame [.out, .hif, .trl] s.toDev t
        else t.Answered l 0x0406 [] ∧ Frame [.out, .hif] s.toDev t) ∧
  (∀ (s : State) (dt : Nat) (p : Patch) (g new : Graph) (l : Live), 
      s.Settled → s.par.hand = none → s.trl.patches = [p] → p.txn = 0 → p.ver = s.trl.ver → p.applyAt = none → s.trl.graph = some g →
      ((match g.editAll p.items 0 with | .ok n => some n | .error _ => none) = some new) →
      p.items.all (s.itemOk (s.rederive g new)) = true →
      (p.items.any (s.itemRefused g) = false) →
      (s.rederive g new).box.ok = true → (s.rederive g new).fits = true →
      ntAfter (slotAtOrAfter (ntAdd (s.tick dt).nt (msTicks 10 : Nat))) (s.tick dt).nt = true → s.Waits p.handle l →
      s.Room l.cq →
      Completes (.patchValidationEnd dt) s fun t =>
        let a := slotAtOrAfter (ntAdd t.nt (msTicks 10 : Nat))
        t.Progressed l 1 (validRes s.txu.nextId a) ∧ t.txu = { s.txu with nextId := if s.txu.nextId = 0xFFFFFF then 1 else s.txu.nextId + 1 } ∧
        t.trl = { s.trl with patches := [{ p with
          txn := s.txu.nextId, applyAt := some a, graph := s.rederive g new
          dels := (p.items.map (s.itemHits g)).flatMap (·.1), chgs := (p.items.map (s.itemHits g)).flatMap (·.2) }] } ∧
        t.clk = s.clk.run dt ∧ Frame [.clk, .out, .hif, .trl, .txu] s.toDev t) ∧
  (∀ (s : State) (dt i : Nat) (p : Patch) (g : Graph) (l : Live), 
      s.Settled → s.par.hand = none → s.trl.patches = [p] → p.txn = 0 → p.ver = s.trl.ver → p.far = false → s.trl.graph = some g →
      ((match g.editAll p.items 0 with | .ok _ => none | .error i => some i) = some i) → s.Waits p.handle l →
      Completes (.patchValidationEnd dt) s fun t => t.Answered l 0x0403 (txnDone { id := 0 } i) ∧ t.trl = { s.trl with patches := [] } ∧
        t.clk = s.clk.run dt ∧ Frame [.clk, .out, .hif, .trl] s.toDev t) ∧
  (∀ (s : State) (p : Patch) (a : NT) (l : Live), s.trl.patches = [p] → p.applyAt = some a → p.txn ≠ 0 →
      p.ver = s.trl.ver → p.far = false → (p.items.any (s.itemRefused (s.trl.graph.getD {})) = false) → s.Waits p.handle l → s.Room l.cq →
      CompletesThen .patchApply s fun d => d.Answered l stOK (txnDone { id := p.txn } 0xFF) ∧ d.Progressed l 2 (leBytes p.txn 3) ∧ d.trl.patches = [] ∧
        d.trl.graph = some p.graph ∧ d.trl.ver = (if s.trl.ver = 0xFFFF then 1 else s.trl.ver + 1) ∧
        d.fld (0x902C, 0, 16) = wrapInc 16 (s.fld (0x902C, 0, 16)) ∧ (if s.beaconing = true ∧ a = slotframeAtOrAfter a ∧ a ≠ s.trl.epoch
          then d.trl.replanDue = true else d.trl.replanAsked = true) ∧
        d.clk = s.clk.run (s.clk.cyclesTo a)) ∧
  (∀ (s : State) (h : Nat) (l : Live) (g : Graph), 
      s.Settled → s.Runs h 0x42 l → l.p 30 1 = 2 → 1 ≤ l.p 31 1 → l.p 31 1 ≤ 15 → s.trl.graph = some g → 32 ≤ l.len →
      l.len < 64 →
      Completes (.trlQuery h false) s fun t => (g.node? (l.p 24 4) = none → t.Answered l 0x0407 []) ∧
        (∀ n ∈ (g.node? (l.p 24 4)).toList, t.Answered l stOK (leBytes 1 4 ++ leBytes 1 4) ∧ .host h 0 0 n.bytes ∈ t.out) ∧ Frame [.out, .hif] s.toDev t) ∧
  (∀ (s : State) (h : Nat) (l : Live) (g : Graph), s.Settled → s.Runs h 0x42 l → l.p 30 1 = 2 → 1 ≤ l.p 31 1 → l.p 31 1 ≤ 15 →
      s.trl.graph = some g → (g.node? (l.p 24 4)).isSome = true →
      Completes (.trlQuery h true) s fun t => t.Answered l stDma (offsetRes none) ∧ Frame [.out, .hif] s.toDev t) ∧
  (∀ (s : State) (h k : Nat) (l : Live) (g : Graph), 
      s.Settled → s.Runs h 0x42 l → l.p 30 1 = 3 → l.p 31 1 = 15 → s.trl.graph = some g →
      (g.seg? (l.p 24 4)).isSome = true →
      (k = (s.trl.resv.filter fun r => r.seg == l.p 24 4 && r.meets (l.pNt 0) (l.pNt 8)).length) →
      Completes (.trlQuery h false) s fun t => t.Answered l stOK (leBytes (min (l.len / 32) k) 4 ++ leBytes k 4) ∧ Frame [.out, .hif] s.toDev t)

/-- A step the planner takes goes on from where the last one ended within the limits of the robot's class, no faster
than the limits allow; its entries conflict with no reservation held and lie on no segment a patch holds back, and it
ends at rest on no NO_HOLD node. A planning epoch in a state that plans takes the boundary as its own, leaves a
hand-off due, and counts its work; one that does not plan leaves none due. The hand-off offers a step transaction
under the next id to the robots that have steps to give, and their granted route ends where those steps end; work not
done by the deadline is abandoned, counted, and raises 0x63. (Parts of R191, R194, R195, R197, R202 and R237.) -/
def Obligations.ThePlannerPlansWithoutConflict : Prop :=
  (∀ (s : Dev) (i : Nat) (x : Start) (q : PlanStep) (es : List Resv), (s.tryStep i x).1 = some (q, es) →
      (∀ e ∈ es, ∀ r ∈ s.trl.resv, s.conflicts e r = false) ∧ (∀ e ∈ es, s.heldSeg e.seg = false) ∧ es = s.stepEntries i q ∧
        q.sf = x.sf ∧ q.k0 = x.k ∧ q.k1 = q.at_ stepNs ∧ q.acc ≤ (s.cls (s.lease i).cls).aMax ∧ q.jerk ≤ (s.cls (s.lease i).cls).jMax ∧
        q.goal.natAbs ≤ (s.fastest i x).2 ∧ (q.k1.v = 0 → q.k1.a = 0 → s.coversNoHold i q.k1.sLo = false)) ∧
  (∀ (s : State) (work : Nat) (served : Option Nat) (late : Bool), 
      s.saf.run = .run → s.upd.armed ≠ some 1 → s.trl.patches = [] →
      (s.trl.taskChange = false ∨ s.flag (0x9028, 8, 1) = false) →
      s.trl.epoch ≠ BitVec.ofNat 64 (slotStart (50 * slotframeOf s.nt.toNat)) →
      ntSince s.nt (BitVec.ofNat 64 (slotStart (50 * slotframeOf s.nt.toNat))) ≤ usTicks 40 →
      CompletesThen (.planningEpoch work served late) s fun d => d.trl.epoch = BitVec.ofNat 64 (slotStart (50 * slotframeOf s.nt.toNat)) ∧
        d.trl.handOffDue = true ∧ d.trl.unfinished = served.isSome ∧ d.fld (0x8044, 16, 8) = max (s.fld (0x8044, 16, 8)) (sat 8 work) ∧
        (s.trl.replanDue = true → d.trl.replanDue = false) ∧ d.trl.graph = s.trl.graph ∧ d.saf = s.saf ∧ d.txu.leases = s.txu.leases) ∧
  (∀ (s : State) (work : Nat) (served : Option Nat) (late : Bool), s.saf.run = .fleetStop → s.trl.patches = [] →
      CompletesThen (.planningEpoch work served late) s fun d => d.trl.handOffDue = false ∧ d.trl.unfinished = false ∧
        d.fld (0x8044, 16, 8) = s.fld (0x8044, 16, 8) ∧ d.trl.graph = s.trl.graph ∧ d.saf = s.saf) ∧
  (∀ (s : State) (i : Nat) (x : TrlRobot) (q : PlanStep), 
      s.trl.handOffDue = true → s.plans = true → s.trl.robots = [(i, x)] → s.plannable i = true →
      (s.handSteps i).getLast? = some q →
      CompletesThen .handOff s fun d => d.trl.handOffDue = false ∧ d.txu.nextId = (if s.txu.nextId = 0xFFFFFF then 1 else s.txu.nextId + 1) ∧
        d.txu.txns.dropLast = s.txu.txns ∧ d.txu.txns.getLast?.map (fun t => (t.id, t.step)) = some (s.txu.nextId, true) ∧
        d.txu.txns.getLast?.map (fun t => (t.phase, t.parts.map (·.slot))) = some (.offered, [i]) ∧ (d.rob i).sGrant = some q.end_ ∧
        (d.trl.resv.all fun r => !(decide (r.kind = .spec) && r.robot == i && !r.host && !r.staged && (s.handSteps i).any fun p => p.sf == r.step)) = true ∧
        d.clk = s.clk.run (s.clk.cyclesTo (ntAdd s.trl.epoch (msTicks 60 : Nat)))) ∧
  (∀ (s : State), s.trl.unfinished = true →
      CompletesThen .planDeadline s fun d => d.trl = { s.trl with unfinished := false } ∧ d.todo = s.todo ++ [.fault 0x63 false] ∧
        d.fld (0x8044, 0, 16) = satInc 16 (s.fld (0x8044, 0, 16)) ∧ RegsBut [0x8044] s.toDev d ∧
        d.clk = s.clk.run (s.clk.cyclesTo (ntAdd s.trl.epoch (msTicks 95 : Nat))) ∧ Frame [.clk, .out, .trl, .regs, .todo] s.toDev d)

/-- A TASK_ALLOT buffer that is right in every part, and asks for no round, makes its definitions the tasks, or
changes the pins, forbids and priorities it names, and answers OK; one that is not changes nothing. A round that ends
with no assignment answers its commands OK; one with an assignment in RUN becomes a transaction of the device that
gives the task, told in PROGRESS 3. TASK_WITHDRAW of an OPEN or ORPHANED task makes it WITHDRAWN, of a HELD one a
transaction; of an unknown one it answers 0x0508, of one that is over 0x0509. A legal GRAFT in RUN becomes a
transaction that gives the task to the robot named. (Parts of R215 to R219 and R242.) -/
def Obligations.TasksAreDefinedAllottedAndWithdrawn : Prop :=
  (∀ (s : State) (h k : Nat) (l : Live) (b : List Byte) (late : Bool) (x : Task), 
      s.Settled → s.Runs h 0x58 l → bitAt (leAt b 0 1) 7 = false → b.length = l.len →
      ((match s.readAllot b with | .ok p => some p | .error _ => none) = some ([(k, x)], [])) →
      Completes (.taskAllot h (some b) late) s fun t => t.Answered l stOK [] ∧ t.task k = x ∧ (∀ j, j ≠ k → t.task j = s.task j) ∧
        t.trl = { s.trl with taskChange := true } ∧ Frame [.out, .hif, .txu, .trl] s.toDev t) ∧
  (∀ (s : State) (h : Nat) (l : Live) (b : List Byte) (late : Bool) (r : TaskRec), 
      s.Settled → s.Runs h 0x58 l → bitAt (leAt b 0 1) 7 = false → b.length = l.len →
      ((match s.readAllot b with | .ok p => some p | .error _ => none) = some ([], [r])) →
      Completes (.taskAllot h (some b) late) s fun t => t.Answered l stOK [] ∧ t.task r.task = r.apply (s.task r.task) ∧
        (∀ j, j ≠ r.task → t.task j = s.task j) ∧ Frame [.out, .hif, .txu] s.toDev t) ∧
  (∀ (s : State) (h code : Nat) (l : Live) (b : List Byte) (late : Bool) (o : Option Nat), 
      s.Settled → s.Runs h 0x58 l → bitAt (leAt b 0 1) 7 = false → b.length = l.len →
      ((match s.readAllot b with | .ok _ => none | .error e => some e) = some (code, o)) →
      Completes (.taskAllot h (some b) late) s fun t => t.Answered l code (if code < 0x100 then offsetRes o else []) ∧ Frame [.out, .hif] s.toDev t) ∧
  (∀ (s : State) (made h : Nat) (l : Live) (r : Round), 
      s.Settled → s.txu.round = some r → r.pairs = [] → r.handles = [h] → s.Waits h l →
      Completes (.roundMsExpiry made) s fun t => t.Answered l stOK [] ∧ t.txu = { s.txu with round := none } ∧
        t.clk = s.clk.run (s.clk.cyclesTo (ntAdd r.startAt (msTicks (s.fld (0x9028, 16, 8)) : Nat))) ∧ Frame [.clk, .out, .hif, .txu] s.toDev t) ∧
  (∀ (s : State) (made h : Nat) (l : Live) (r : Round) (a : Assign), 
      s.Settled → s.txu.round = some r → r.pairs = [a] → r.handles = [h] → r.auto = false → s.saf.run = .run →
      s.Waits h l → s.Room l.cq →
      Completes (.roundMsExpiry made) s fun t => t.Progressed l 3 (a.bytes s.txu.nextId) ∧ t.txu = { s.txu with
          round := none, nextId := if s.txu.nextId = 0xFFFFFF then 1 else s.txu.nextId + 1
          txns := s.txu.txns ++ [{
            id := s.txu.nextId, handle := some h, round := true, received := t.nt, acts := [.taskSet a.task a.slot 3 (s.task a.task).start] }] } ∧
        Frame [.clk, .out, .hif, .txu] s.toDev t) ∧
  (∀ (s : State) (h k : Nat) (l : Live), s.Settled → s.Runs h 0x59 l → l.p 0 2 = k → k < 16384 → l.p 2 1 = 1 → l.len = 0 →
      ((s.task k).st = .open_ ∨ (s.task k).st = .orphaned) →
      Completes (.taskWithdraw h false) s fun t => t.Answered l stOK [] ∧ (t.task k).st = .withdrawn ∧ (t.task k).holder = none ∧
        (t.task k).gens.all (fun g => !g.current) = true ∧ (∀ j, j ≠ k → t.task j = s.task j) ∧ Frame [.out, .hif, .txu] s.toDev t) ∧
  (∀ (s : State) (h k : Nat) (l : Live), 
      s.Settled → s.Runs h 0x59 l → s.paused = false → l.p 0 2 = k → k < 16384 → l.p 2 1 = 1 → l.len = 0 →
      (s.task k).st = .held → (s.saf.run = .run ∨ s.saf.run = .fleetStop) →
      Completes (.taskWithdraw h false) s fun t => t.Begun l ∧ t.txu = { s.txu with txns := s.txu.txns ++ [{
          handle := some h, acts := [.taskSet k ((s.task k).holder.getD 0) 6 0], stopSafe := true, received := s.nt }] } ∧
        Frame [.out, .hif, .txu] s.toDev t) ∧
  (∀ (s : State) (h k : Nat) (l : Live), s.Settled → s.Runs h 0x59 l → l.p 0 2 = k → k < 16384 → l.p 2 1 = 1 → l.len = 0 →
      ((s.task k).st = .empty ∨ (s.task k).st = .done ∨ (s.task k).st = .withdrawn) →
      Completes (.taskWithdraw h false) s fun t => t.Answered l (if (s.task k).st = .empty then 0x0508 else 0x0509) [] ∧ Frame [.out, .hif] s.toDev t) ∧
  (∀ (s : State) (h k i : Nat) (l : Live), 
      s.Settled → s.Runs h 0x5A l → s.TakesMotion → s.applyTimeOk (l.pNt 0) = true → l.p 12 2 = k → k < 16384 →
      l.p 14 1 = i → i < s.nSlots → l.p 15 1 = 1 → (s.task k).st = .orphaned → (s.task k).holder = none →
      (s.lease i).st = .active → (s.lease i).unsynced = false → bitAt (s.task k).mask (s.lease i).cls = true →
      s.taskOf i = none → (s.task k).gens.length < 8 →
      Completes (.graft h) s fun t => t.Begun l ∧ t.txu = { s.txu with txns := s.txu.txns ++ [{
          handle := some h, host := true, received := s.nt, acts := [.taskSet k i 3 (l.p 8 4)], applyAt := givenApply (l.pNt 0), graft := true, fromLast := true }] } ∧
        Frame [.out, .hif, .txu] s.toDev t)

/-- An audit or a recheck that finds capacity asks its robot; a SUSPECT station takes one of its own, which waits
where capacity is short. The first piece of a requested snapshot opens its assembly, one not requested that finds no
capacity is counted with 0x4F; the last piece completes it, counts it and puts it in a batch; one incomplete after 1 s
is dropped and counted with 0x4F. A batch closes after BATCH_WAIT and asks leave. Of the running batch the next
snapshot is searched and ends: a mismatch of a robot with observations makes its receiver SUSPECT, raises 0x4E and
writes event 0x0601; the last of a submission is written to its buffer and answers it. SNAP_SUBMIT of legal records
puts them in a batch, of a bad one names its first bad field, and of the own port waits for its start, at which each
is written and batched. (Parts of R120, R129 to R140.) -/
def Obligations.SnapshotsAreAssembledBatchedAndJudged : Prop :=
  (∀ (s : State) (samples : List Byte) (x : Snap), s.Settled → s.station = 1 → s.snp.localAt = none → s.snp.batches = [] → s.snp.demand = [] →
      x = s.localSnap .local_ samples →
      Completes (.localSnapshot samples) s fun t => (if s.unitsFit x.units
        then t.snp = { s.snp with
            localAt := some s.nt, localPend := true, localVerdict := 0, asked := t.snp.asked, nextBatch := s.snp.nextBatch + 1
            batches := [{ id := s.snp.nextBatch, opened := s.nt, snaps := [x] }] } ∧ t.snp.asked.head? = some (s.nt, x.units)
        else t.snp = { s.snp with localAt := some s.nt, localPend := true, localVerdict := 0, demand := [.snap x] }) ∧ Frame [.out, .snp] s.toDev t) ∧
  (∀ (s : State) (dt i : Nat) (m : RxItem) (b : List Byte), 
      s.Settled → s.mac.inbox = [m] → m.q = 26 → b = slice m.frame 22 (frLen m.frame) → pieceOk b = true →
      s.robotOf (frSrc m.frame) = some i → s.counts i (frEpoch m.frame) = true → s.snp.asm_ = [] → s.tim.stepAt = none →
      bitAt (leAt b 0 1) 4 = true →
      Completes (.snapshotPiece dt) s fun t => t.mac.inbox = [] ∧ t.snp = { s.snp with asm_ := [{
          slot := i, epoch := frEpoch m.frame, id := leAt b 2 1, t0 := expandNt t.nt (leAt b 4 6), cold := bitAt (leAt b 0 1) 5
          requested := true, first := t.nt, pieces := [(leAt b 1 1, b)] }] } ∧ t.clk = s.clk.run dt ∧ Frame [.clk, .out, .mac, .snp] s.toDev t) ∧
  (∀ (s : State) (dt i : Nat) (m : RxItem) (b : List Byte), 
      s.mac.inbox = [m] → m.q = 26 → b = slice m.frame 22 (frLen m.frame) → pieceOk b = true →
      s.robotOf (frSrc m.frame) = some i → s.counts i (frEpoch m.frame) = true → s.snp.asm_ = [] → s.tim.stepAt = none →
      bitAt (leAt b 0 1) 4 = false → (s.tick dt).unitsFit (if bitAt (leAt b 0 1) 5 then 4 else 1) = false →
      CompletesThen (.snapshotPiece dt) s fun d => d.mac.inbox = [] ∧ d.snp = s.snp ∧ d.todo = s.todo ++ [.fault 0x4F false] ∧
        d.fld (0x6020, 16, 16) = satInc 16 (s.fld (0x6020, 16, 16)) ∧ RegsBut [0x6020] s.toDev d ∧ Frame [.clk, .out, .mac, .regs, .todo] s.toDev d) ∧
  (∀ (s : State) (dt i : Nat) (m : RxItem) (b : List Byte) (a : SnapAsm), 
      s.Settled → s.mac.inbox = [m] → m.q = 26 → b = slice m.frame 22 (frLen m.frame) → pieceOk b = true →
      s.robotOf (frSrc m.frame) = some i → s.counts i (frEpoch m.frame) = true → s.snp.asm_ = [a] → a.slot = i →
      a.epoch = frEpoch m.frame → a.id = leAt b 2 1 → a.t0 = expandNt (s.tick dt).nt (leAt b 4 6) →
      a.pieces.length = 3 → a.late (s.tick dt).nt = false → (a.pieces.all (fun p => p.1 != leAt b 1 1) = true) → s.snp.batches = [] →
      Completes (.snapshotPiece dt) s fun t => t.mac.inbox = [] ∧ t.snp = { s.snp with
          asm_ := [], nextBatch := s.snp.nextBatch + 1, batches := [{ id := s.snp.nextBatch, opened := t.nt, snaps := [a.whole (a.pieces ++ [(leAt b 1 1, b)])] }] } ∧ t.fld (0x6020, 0, 16) = wrapInc 16 (s.fld (0x6020, 0, 16)) ∧
        RegsBut [0x6020] s.toDev t ∧ Frame [.clk, .out, .mac, .snp, .regs] s.toDev t) ∧
  (∀ (s : State) (a : SnapAsm), s.snp.asm_ = [a] →
      CompletesThen .snapshotIncomplete s fun d => d.snp = { s.snp with asm_ := [] } ∧ d.todo = s.todo ++ [.fault 0x4F false] ∧
        d.fld (0x6024, 0, 16) = satInc 16 (s.fld (0x6024, 0, 16)) ∧ d.clk = s.clk.run (s.clk.cyclesTo (ntAdd a.first (tickHz : Nat))) ∧
        RegsBut [0x6024] s.toDev d ∧ Frame [.clk, .out, .snp, .regs, .todo] s.toDev d) ∧
  (∀ (s : State) (b : Batch), s.Settled → s.snp.batches = [b] → b.closed = false →
      Completes .batchClose s fun t => t.snp = { s.snp with batches := [{ b with closed := true }] } ∧ t.asksLeave (.snpBatch b.id) = true ∧
        t.gov.grants = s.gov.grants ∧ t.gov.reqs.dropLast = s.gov.reqs ∧
        t.gov.reqs.getLast?.map (fun r => (r.cls, r.mw, r.dur)) = some (1, 10 * s.fld (0x601C, 21, 11), msTicks (10 * b.units + 5)) ∧
        t.clk = s.clk.run (s.clk.cyclesTo (ntAdd b.opened (msTicks (s.fld (0x601C, 0, 8))))) ∧ Frame [.clk, .out, .snp, .gov] s.toDev t) ∧
  (∀ (s : State) (dt : Nat) (f : SnapFacts) (werr : Bool) (b : Batch) (x : Snap), 
      s.Settled → s.snp.batches = [b] → b.running = true → b.snaps = [x] → x.src = .local_ →
      Completes (.snapshotResult dt f werr) s fun t => t.snp = { s.snp with
          batches := [], localPend := false
          localVerdict := if 2 ≤ ((s.search x f.sats).filter (·.multi)).length ∨ s.fld (0x6018, 12, 4) ≤ s.offChans (s.search x f.sats) f.chans
            then 2 else 0 } ∧ t.hasLeave (.snpBatch b.id) = false ∧ Frame [.clk, .out, .snp, .gov] s.toDev t) ∧
  (∀ (s : State) (dt i e ncmp nmis v : Nat) (f : SnapFacts) (werr : Bool) (b : Batch) (x : Snap), 
      s.snp.batches = [b] → b.running = true → b.snaps = [x] → x.src = .robot i e → (s.lease i).epoch = e →
      s.hasObs i x.t0 = true → s.compare i x.t0 (s.search x f.sats) = (ncmp, nmis) → v = s.snapVerdict ncmp nmis → (s.rover i).rx ≠ 2 →
      s.Room (s.evtCq 0x0601) →
      CompletesThen (.snapshotResult dt f werr) s fun d => (d.rover i).verdict = v ∧ (d.rover i).at_ = some d.nt ∧
        (d.rover i).rx = (if v = 3 then (s.rover i).rx else v) ∧
        (d.rover i).result = some (if 5 ≤ (hitsOf (s.search x f.sats)).length then 0 else 1) ∧
        (∀ j, j ≠ i → d.rover j = s.rover j) ∧ d.snp.batches = [] ∧ d.hasLeave (.snpBatch b.id) = false ∧
        (v = 2 → (d.rover i).asked = some d.nt ∧ .fault 0x4E false ∈ d.todo ∧ d.Told (s.evtCq 0x0601) 0x0601 (leBytes i 1 ++ leBytes nmis 1)) ∧ Frame [.clk, .out, .snp, .gov, .hif, .todo] s.toDev d) ∧
  (∀ (s : State) (dt h n : Nat) (f : SnapFacts) (b : Batch) (x : Snap) (c : SnapCmd) (l : Live) (hits : List SnapHit) (p : Int × Vec3 × Nat), 
      s.Settled → s.snp.batches = [b] → b.running = true → b.snaps = [x] → x.src = .host h n → s.snp.cmds = [c] →
      c.handle = h → c.mode = 1 → c.results + 1 = c.count → c.noLeave = 0 → hits = s.search x f.sats →
      p = s.coarse x hits → s.Waits h l → s.Room l.cq →
      Completes (.snapshotResult dt f false) s fun t => t.Answered l stOK [] ∧ t.Progressed l 1 (leBytes n 1) ∧
        .host h 1 (48 * n) (SnapRes.bytes (if 5 ≤ (hitsOf hits).length
          then { code := 0, ndet := (hitsOf hits).length, nmulti := (hits.filter (·.multi)).length, dt := p.1, pos := p.2.1, herr := p.2.2 }
          else { code := 1, ndet := (hitsOf hits).length, nmulti := (hits.filter (·.multi)).length }) n) ∈ t.out ∧
        t.snp = { s.snp with batches := [], cmds := [] } ∧
        t.hasLeave (.snpBatch b.id) = false ∧ Frame [.clk, .out, .snp, .gov, .hif] s.toDev t) ∧
  (∀ (s : State) (dt h n : Nat) (f : SnapFacts) (b : Batch) (x : Snap) (c : SnapCmd) (l : Live), 
      s.Settled → s.snp.batches = [b] → b.running = true → b.snaps = [x] → x.src = .host h n → s.snp.cmds = [c] → c.handle = h → s.Waits h l →
      Completes (.snapshotResult dt f true) s fun t => t.Answered l stDma (offsetRes none) ∧ t.snp = { s.snp with batches := [], cmds := [] } ∧
        t.hasLeave (.snpBatch b.id) = false ∧ Frame [.clk, .out, .snp, .gov, .hif] s.toDev t) ∧
  (∀ (s : State) (i : Nat), s.Settled → s.nextAudited = some i → s.fld (0x6014, 0, 16) ≠ 0 → (s.rover i).audited = none →
      s.snp.demand = [] → s.unitsFit 1 = true →
      Completes .auditRequest s fun t => t.rover i = { s.rover i with wantSnap := true, audited := some s.nt } ∧ (∀ j, j ≠ i → t.rover j = s.rover j) ∧
        t.snp.nextAudit = (i + 1) % s.nSlots ∧ t.snp.asked.head? = some (s.nt, 1) ∧ Frame [.out, .snp] s.toDev t) ∧
  (∀ (s : State) (i : Nat) (u : NT), s.Settled → (s.rover i).rx = 2 → (s.rover i).asked = some u →
      ((s.lease i).st = .active ∨ (s.lease i).st = .suspect ∨ (s.lease i).st = .admitting) → s.snp.demand = [] →
      (s.tickTo (ntAdd u ((s.fld (0x6014, 16, 8) * tickHz : Nat) : Int))).unitsFit 1 = true →
      Completes (.recheckRequest i) s fun t => t.rover i = { s.rover i with wantSnap := true, asked := some t.nt } ∧ (∀ j, j ≠ i → t.rover j = s.rover j) ∧
        t.clk = s.clk.run (s.clk.cyclesTo (ntAdd u ((s.fld (0x6014, 16, 8) * tickHz : Nat) : Int))) ∧ Frame [.clk, .out, .snp] s.toDev t) ∧
  (∀ (s : State) (h : Nat) (l : Live) (b : List Byte) (x : Snap), 
      s.Settled → s.Runs h 0x28 l → l.p 8 1 = 1 → l.p 10 1 = 1 → l.len = 1072 → 48 ≤ l.p 24 4 → s.snp.cmds.length < 4 →
      snapRecBad (slice b 0 1072) = none → x = hostSnap h 0 (slice b 0 1072) → s.tim.stepAt = none → s.snp.batches = [] → s.snp.demand = [] →
      s.unitsFit x.units = true →
      Completes (.snapSubmit h (some b)) s fun t => t.Begun l ∧ t.snp.cmds.getLast?.map (fun c => (c.handle, c.mode, c.count, c.taken)) = some (h, 1, 1, 1) ∧
        t.snp.batches = [{ id := s.snp.nextBatch, opened := s.nt, snaps := [x] }] ∧ Frame [.out, .hif, .snp] s.toDev t) ∧
  (∀ (s : State) (h o : Nat) (l : Live) (b : List Byte), 
      s.Settled → s.Runs h 0x28 l → l.p 8 1 = 1 → l.p 10 1 = 1 → l.len = 1072 → 48 ≤ l.p 24 4 → s.snp.cmds.length < 4 →
      snapRecBad (slice b 0 1072) = some o →
      Completes (.snapSubmit h (some b)) s fun t => t.Answered l stBadDesc (offsetRes (some (64 + o))) ∧ Frame [.out, .hif] s.toDev t) ∧
  (∀ (s : State) (h n : Nat) (l : Live) (b : Option (List Byte)), 
      s.Settled → s.Runs h 0x28 l → l.p 8 1 = 3 → l.p 10 1 = n → l.len = 1072 * n → 48 * n ≤ l.p 24 4 →
      s.snp.cmds.length < 4 → s.portRuns (portOf s.gns.refAnt 0) = true →
      Completes (.snapSubmit h b) s fun t => t.Begun l ∧ t.snp.batches = s.snp.batches ∧ t.snp.cmds.getLast? = some {
          handle := h, mode := 3, robot := l.p 9 1, count := n, tStart := if l.pNt 0 = 0 then nextSlotframe s.nt else l.pNt 0 } ∧
        Frame [.out, .hif, .snp] s.toDev t) ∧
  (∀ (s : State) (h : Nat) (r : List Byte) (c : SnapCmd) (x : Snap), 
      s.Settled → s.snp.cmds = [c] → c.handle = h → c.mode = 3 → c.taken < c.count → s.snp.batches = [] → s.snp.demand = [] →
      x = (s.tickTo (ntAdd c.tStart (msTicks (100 * c.taken)))).localSnap (.host h c.taken) r →
      (s.tickTo (ntAdd c.tStart (msTicks (100 * c.taken)))).unitsFit x.units = true →
      Completes (.hostLocalSnapshot h r false) s fun t => t.out = [.host h 0 (1072 * c.taken) x.record] ∧
        t.snp.cmds = [{ c with taken := c.taken + 1 }] ∧ t.snp.batches = [{ id := s.snp.nextBatch, opened := t.nt, snaps := [x] }] ∧
        t.clk = s.clk.run (s.clk.cyclesTo (ntAdd c.tStart (msTicks (100 * c.taken)))) ∧ Frame [.clk, .out, .snp] s.toDev t) ∧
  (∀ (s : State) (h : Nat) (r : List Byte) (c : SnapCmd) (l : Live), 
      s.Settled → s.snp.cmds = [c] → c.handle = h → c.mode = 3 → c.taken < c.count → s.Waits h l →
      Completes (.hostLocalSnapshot h r true) s fun t => t.Answered l stDma (offsetRes none) ∧ t.snp = { s.snp with cmds := [] } ∧
        t.clk = s.clk.run (s.clk.cyclesTo (ntAdd c.tStart (msTicks (100 * c.taken)))) ∧ Frame [.clk, .out, .hif, .snp] s.toDev t)

/-- A sound header with none in progress waits for leave; one of the same identity joins and is answered OK; one that
breaks a rule or that another stands in the way of is refused and event 0x1402 tells it. The header written starts the
download in the bank that does not run and answers its commands, and one that flash does not take fails it with 0x27
and a status that is open (log entry 24). A piece of the host is judged by R482, held if new, and the command is
answered with the counts; a whole piece part from a gateway is judged alike, and a first header part opens an
assembly. A need list goes to the gateway every NEED_PERIOD. A sector committed moves its pieces to flash, the last
with event 0x1401; a second failure fails the download with 0x27. UPD_VERIFY of a complete download begins, and ends
OK with VERIFIED, or with IMAGE_HASH_MISMATCH and no download. (Parts of R477 to R484, R491, R493.) -/
def Obligations.DownloadsAreAcceptedFilledAndVerified : Prop :=
  (∀ (s : State) (h : Nat) (l : Live) (b : List Byte), 
      s.Settled → s.Runs h 0xB0 l → s.hdrBad b = none → s.upd.wait = none → s.download = none →
      (s.sel (leAt b 5 1)).trial = false →
      Completes (.updHeader h (some b)) s fun t => t.Begun l ∧ t.upd = { s.upd with wait := some { hdr := readHdr b, air := none, handles := [h] } } ∧
        t.asksLeave .flashHeader = true ∧ t.gov.grants = s.gov.grants ∧ t.gov.reqs.dropLast = s.gov.reqs ∧ t.gov.reqs.getLast?.map (fun r => (r.cls, r.mw, r.dur)) = some (5, 250, tickHz) ∧
        Frame [.out, .hif, .upd, .gov] s.toDev t) ∧
  (∀ (s : State) (h : Nat) (l : Live) (b : List Byte) (d : FlashDl), 
      s.Settled → s.Runs h 0xB0 l → s.hdrBad b = none → s.upd.wait = none → s.download = some d →
      d.hdr.same (readHdr b) = true → (s.sel (leAt b 5 1)).trial = false →
      Completes (.updHeader h (some b)) s fun t => t.Answered l stOK [] ∧ t.upd = s.upd ∧ Frame [.out, .hif] s.toDev t) ∧
  (∀ (s : State) (h code : Nat) (o : Option Nat) (l : Live) (b : List Byte), 
      s.Settled → s.Runs h 0xB0 l → s.hdrBad b = some (code, o) → s.Room (s.evtCq 0x1402) →
      Completes (.updHeader h (some b)) s fun t => t.Answered l code (if o.isSome then offsetRes o else []) ∧
        t.Told (s.evtCq 0x1402) 0x1402 ([1, 0] ++ leBytes code 2) ∧ Frame [.out, .hif] s.toDev t) ∧
  (∀ (s : State) (h code : Nat) (res : List Byte) (l : Live) (b : List Byte), 
      s.Settled → s.Runs h 0xB0 l → s.hdrBad b = none → s.hdrVerdict (readHdr b) (bitAt (l.p 0 1) 0) = .refused code res →
      s.Room (s.evtCq 0x1402) →
      Completes (.updHeader h (some b)) s fun t => t.Answered l code res ∧ t.Told (s.evtCq 0x1402) 0x1402 ([1, 0] ++ leBytes code 2) ∧
        Frame [.out, .hif] s.toDev t) ∧
  (∀ (s : State) (dt h : Nat) (l : Live) (w : HdrWait), 
      s.Settled → s.upd.wait = some w → w.granted = true → s.dry.pfw = false → (s.sel w.hdr.sub).trial = false →
      s.download = none → s.upd.verify = none → w.handles = [h] → s.Waits h l →
      Completes (.headerStored dt true) s fun t => t.Answered l stOK [] ∧ t.nv.upd.dl = some {
          hdr := w.hdr, bank := 1 - (s.sel w.hdr.sub).bank, air := w.air } ∧
        t.bank w.hdr.sub (1 - (s.sel w.hdr.sub).bank) = { hdr := w.hdr, whole := false } ∧
        t.nv.upd.sels = s.nv.upd.sels ∧ t.hasLeave .flashHeader = false ∧ t.upd.wait = none ∧ t.upd.held = [] ∧
        Frame [.clk, .out, .hif, .upd, .gov, .nv] s.toDev t) ∧
  (∀ (s : State) (dt h : Nat) (l : Live) (w : HdrWait), 
      s.upd.wait = some w → w.granted = true → s.dry.pfw = false → (s.sel w.hdr.sub).trial = false →
      s.upd.verify = none → w.handles = [h] → s.Waits h l → s.Room (s.evtCq 0x1405) →
      CompletesThen (.headerStored dt false) s fun d => d.live? h = none ∧ d.download = none ∧ d.upd.failed = some w.hdr ∧ d.upd.wait = none ∧
        d.hasLeave .flashHeader = false ∧ .fault 0x27 false ∈ d.todo ∧ d.free = s.free + 1 ∧
        d.Told (s.evtCq 0x1405) 0x1405 (leBytes w.hdr.sub 1 ++ leBytes (1 - (s.sel w.hdr.sub).bank) 1) ∧
        Frame [.clk, .out, .hif, .upd, .gov, .nv, .free, .todo] s.toDev d) ∧
  (∀ (s : State) (h : Nat) (l : Live) (b : List Byte) (d : FlashDl), 
      s.Settled → s.Runs h 0xB1 l → s.download = some d → l.p 0 2 = 1 → l.len = 16 + d.hdr.psize → b.length = l.len →
      leAt b 8 4 = d.hdr.tag → leAt b 0 4 < d.hdr.count → leAt b 12 4 = 0 → crc32c (b.drop 16) = leAt b 4 4 →
      ((s.upd.held ++ d.pieces).all (fun p => p.1 != leAt b 0 4) = true) → 2 ≤ d.hdr.per → 2 ≤ (d.hdr.piecesOf 0).2 →
      s.upd.held = [] → d.hdr.sectors ≤ 1 →
      Completes (.updPieces h (some b)) s fun t => t.Answered l stOK ([1, 0] ++ leBytes 0 8) ∧ t.upd = { s.upd with held := [(leAt b 0 4, b.drop 16)], lastPiece := s.up } ∧
        t.fld (0x14058, 0, 16) = wrapInc 16 (s.fld (0x14058, 0, 16)) ∧ RegsBut [0x14058] s.toDev t ∧ Frame [.out, .hif, .upd, .regs] s.toDev t) ∧
  (∀ (s : State) (h : Nat) (l : Live) (b : List Byte) (d : FlashDl) (p : Nat × List Byte), 
      s.Settled → s.Runs h 0xB1 l → s.download = some d → l.p 0 2 = 1 → l.len = 16 + d.hdr.psize → b.length = l.len →
      leAt b 8 4 = d.hdr.tag → leAt b 0 4 < d.hdr.count → leAt b 12 4 = 0 → crc32c (b.drop 16) = leAt b 4 4 →
      s.upd.held = [p] → p.1 = leAt b 0 4 → p.2 ≠ b.drop 16 → 2 ≤ (d.hdr.piecesOf 0).2 → d.hdr.sectors ≤ 1 →
      Completes (.updPieces h (some b)) s fun t => t.Answered l stOK (leBytes 0 8 ++ [1, 0]) ∧ t.upd = { s.upd with lastPiece := s.up } ∧
        t.fld (0x1405C, 0, 16) = satInc 16 (s.fld (0x1405C, 0, 16)) ∧ RegsBut [0x1405C] s.toDev t ∧ Frame [.out, .hif, .upd, .regs] s.toDev t) ∧
  (∀ (s : State) (h : Nat) (l : Live) (x : Option (List Byte)), s.Settled → s.Runs h 0xB1 l → s.download = none →
      Completes (.updPieces h x) s fun t => t.Answered l stNoDownload [] ∧ Frame [.out, .hif] s.toDev t) ∧
  (∀ (s : State) (dt : Nat) (m : RxItem) (b : List Byte) (d : FlashDl), 
      s.Settled → s.mac.inbox = [m] → m.q = 27 → s.isGateway (frSrc m.frame) = true →
      b = slice m.frame 22 (frLen m.frame) → leAt b 0 1 = 0x21 → leAt b 1 3 = 0 → 1 ≤ leAt b 14 2 → leAt b 14 2 ≤ 346 →
      b.length = 20 + leAt b 14 2 → s.download = some d → leAt b 4 4 = d.hdr.tag → leAt b 8 4 < d.hdr.count →
      leAt b 12 2 = 0 → leAt b 14 2 = d.hdr.psize → crc32c (b.drop 20) = leAt b 16 4 →
      ((s.upd.held ++ d.pieces).all (fun p => p.1 != leAt b 8 4) = true) → s.upd.held = [] → s.upd.asm_ = [] →
      2 ≤ (d.hdr.piecesOf 0).2 → d.hdr.sectors ≤ 1 →
      Completes (.cutting dt) s fun t => t.mac.inbox = [] ∧ t.upd = { s.upd with held := [(leAt b 8 4, b.drop 20)], lastPiece := t.up } ∧
        t.fld (0x14058, 0, 16) = wrapInc 16 (s.fld (0x14058, 0, 16)) ∧ RegsBut [0x14058] s.toDev t ∧ Frame [.clk, .out, .mac, .upd, .regs] s.toDev t) ∧
  (∀ (s : State) (dt : Nat) (m : RxItem) (b : List Byte), 
      s.Settled → s.mac.inbox = [m] → m.q = 27 → s.isGateway (frSrc m.frame) = true →
      b = slice m.frame 22 (frLen m.frame) → leAt b 0 1 = 0x11 → leAt b 1 3 = 0 → 1 ≤ leAt b 14 2 → leAt b 14 2 ≤ 346 →
      b.length = 20 + leAt b 14 2 → leAt b 12 2 + leAt b 14 2 < 512 → s.upd.hasm = none →
      Completes (.cutting dt) s fun t => t.mac.inbox = [] ∧ t.upd = { s.upd with hasm := some { tag := leAt b 4 4, parts := [(leAt b 12 2, b.drop 20)] } } ∧
        Frame [.clk, .out, .mac, .upd] s.toDev t) ∧
  (∀ (s : State) (dt : Nat) (gw : Nat) (d : FlashDl) (r : RouteEnt), 
      s.Settled → s.upd.needNow = none → s.download = some d → d.air = some gw → d.ranges ≠ [] →
      s.routeTo gw = some r →
      Completes (.needList dt) s fun t => t.upd = { s.upd with needAt := t.up } ∧ t.up = max s.up (s.upd.needAt + s.fld (0x14014, 12, 8) * cycHz) ∧
        t.mac.txq.dropLast = s.mac.txq ∧ t.mac.txq.getLast?.map (fun f => (f.type_, f.dst, f.lane, f.body)) = some (10, gw, r.lane,
          [0x31, 0, 0, 0] ++ leBytes d.hdr.tag 4 ++ leBytes 0 6 ++ leBytes (min 42 d.ranges.length) 2 ++ leBytes 0 4 ++ (d.ranges.take 42).flatMap fun x => leBytes x.1 4 ++ leBytes x.2 4) ∧
        Frame [.clk, .out, .mac, .upd] s.toDev t) ∧
  (∀ (s : State) (dt n : Nat) (d : FlashDl), 
      s.Settled → s.upd.running = [n] → s.download = some d → s.dry.pfw = false → d.sectors = [] → n = 0 →
      d.hdr.sectors = 1 → s.Room (s.evtCq 0x1401) →
      Completes (.sectorCommitDone dt 0) s fun t => t.Told (s.evtCq 0x1401) 0x1401 (leBytes d.hdr.sub 1 ++ [0, 0, 0] ++ leBytes d.hdr.ver 4) ∧
        t.nv.upd.dl = some { d with
          sectors := [0], pieces := d.pieces ++ s.upd.held.filter fun p => decide ((d.hdr.piecesOf 0).1 ≤ p.1 ∧ p.1 < (d.hdr.piecesOf 0).1 + (d.hdr.piecesOf 0).2) } ∧
        t.upd.running = [] ∧ t.hasLeave (.flashSector 0) = false ∧ Frame [.clk, .out, .hif, .upd, .gov, .nv] s.toDev t) ∧
  (∀ (s : State) (dt n fails : Nat) (d : FlashDl), 
      s.upd.running = [n] → s.download = some d → s.dry.pfw = false → 2 ≤ fails → s.upd.verify = none →
      s.Room (s.evtCq 0x1405) →
      CompletesThen (.sectorCommitDone dt fails) s fun d' => d'.Told (s.evtCq 0x1405) 0x1405 (leBytes d.hdr.sub 1 ++ leBytes d.bank 1) ∧ .fault 0x27 false ∈ d'.todo ∧
        d'.upd.failed = some d.hdr ∧ d'.download = none ∧ d'.upd.held = [] ∧ d'.fld (0x1405C, 16, 16) = satInc 16 (s.fld (0x1405C, 16, 16)) ∧
        Frame [.clk, .out, .hif, .upd, .gov, .regs, .todo] s.toDev d') ∧
  (∀ (s : State) (h : Nat) (l : Live) (d : FlashDl), 
      s.Settled → s.Runs h 0xB2 l → s.upd.verify = none → s.download = some d → d.hdr.sub = l.p 0 1 →
      d.complete = true →
      Completes (.updVerify h) s fun t => t.Begun l ∧ t.upd = { s.upd with verify := some h } ∧ Frame [.out, .hif, .upd] s.toDev t) ∧
  (∀ (s : State) (h : Nat) (l : Live) (d : FlashDl), s.Settled → s.Runs h 0xB2 l → s.upd.verify = none → s.download = some d →
      (d.hdr.sub ≠ l.p 0 1 ∨ d.complete = false) →
      Completes (.updVerify h) s fun t => t.Answered l (if d.hdr.sub ≠ l.p 0 1 then stNoDownload else stIncomplete) [] ∧ Frame [.out, .hif] s.toDev t) ∧
  (∀ (s : State) (dt h : Nat) (l : Live) (d : FlashDl), 
      s.Settled → s.upd.verify = some h → s.download = some d → sha256 d.body = d.hdr.hash → s.Waits h l →
      Completes (.verifyDone dt true) s fun t => t.Answered l stOK [] ∧ t.nv.upd.dl = some { d with verified := true } ∧ t.upd = { s.upd with verify := none } ∧
        Frame [.clk, .out, .hif, .upd, .nv] s.toDev t) ∧
  (∀ (s : State) (dt h : Nat) (ok : Bool) (l : Live) (d : FlashDl), 
      s.Settled → s.upd.verify = some h → s.download = some d → (ok = false ∨ sha256 d.body ≠ d.hdr.hash) →
      s.Waits h l →
      Completes (.verifyDone dt ok) s fun t => t.Answered l stImgHash [] ∧ t.download = none ∧ t.upd.verify = none ∧ t.nv = s.nv ∧
        Frame [.clk, .out, .hif, .upd, .gov] s.toDev t)

/-- UPD_ACTIVATE of a verified download selects its bank in trial and waits for the pause; without one it is refused.
The pause begins at its alignment point, in RUN as UPDATE_PAUSE, in SAFE with the run state as it was; at its end the
new image runs, the run state returns, and the command is answered with event 0x1404. A trial confirmed leaves TRIAL,
raises the rollback floor to the image's security version and revokes the keys the image names; outside a trial
UPD_CONFIRM changes nothing. A trial whose time runs out raises 0x26, its bank is rejected and the other one selected.
UPD_STATUS answers the download, the running image and the pieces left. (Parts of R485 to R488, R491, R493.) -/
def Obligations.ActivationsPauseTrialsEndAndKeysAreRevoked : Prop :=
  (∀ (s : State) (h : Nat) (l : Live) (d : FlashDl), s.Settled → s.Runs h 0xB3 l →
      (s.saf.run = .run ∨ s.saf.run = .fleetStop ∨ s.saf.run = .safe ∨ s.saf.run = .standby) → l.p 0 1 = 1 →
      s.upd.act = none → s.download = some d → d.hdr.sub = 1 → d.verified = true → sha256 d.body = d.hdr.hash →
      d.bank ≠ (s.sel 1).bank →
      Completes (.updActivate h true) s fun t => t.Begun l ∧ t.sel 1 = {
          bank := d.bank, trial := true, rejOther := (s.bank 1 (s.sel 1).bank).rejected, ver := d.hdr.ver } ∧ t.bank 1 d.bank = { hdr := d.hdr } ∧ (∀ b, b ≠ 1 → t.sel b = s.sel b) ∧
        t.nv.upd.seq = (s.nv.upd.seq + 1) % 2 ^ 32 ∧ t.upd = { s.upd with
          act := some { sub := 1, handle := some h, revert := false, bank := d.bank, ver := d.hdr.ver, at_ := s.nt }, armed := some 1 } ∧
        Frame [.out, .hif, .upd, .nv] s.toDev t) ∧
  (∀ (s : State) (h : Nat) (ok : Bool) (l : Live) (d : FlashDl), s.Settled → s.Runs h 0xB3 l →
      (s.saf.run = .fleetStop ∨ s.saf.run = .standby) → s.upd.act = none → s.download = some d → d.hdr.sub = l.p 0 1 → d.verified = true →
      (ok = false ∨ sha256 d.body ≠ d.hdr.hash) →
      Completes (.updActivate h ok) s fun t => t.Answered l stImgHash [] ∧ Frame [.out, .hif] s.toDev t) ∧
  (∀ (s : State) (h : Nat) (ok : Bool) (l : Live), s.Settled → s.Runs h 0xB3 l → s.saf.run = .fleetStop → s.upd.act = none →
      (s.download.all (fun d => d.hdr.sub != l.p 0 1 || !d.verified) = true) →
      Completes (.updActivate h ok) s fun t => t.Answered l stNotVerified [] ∧ Frame [.out, .hif] s.toDev t) ∧
  (∀ (s : State) (h : Nat) (ok : Bool) (l : Live), s.Settled → s.Runs h 0xB3 l → s.saf.run = .run → l.p 0 1 = 5 →
      Completes (.updActivate h ok) s fun t => t.Answered l stBusy (offsetRes none) ∧ Frame [.out, .hif] s.toDev t) ∧
  (∀ (s : State) (a : Activation), s.Settled → s.upd.act = some a → s.upd.pause = none → s.saf.run = .run → s.dry.frozen = false →
      s.Room (s.evtCq 0x1101) →
      Completes .activationPauseStart s fun t => t.upd = { s.upd with pause := some a.sub, armed := none, pauseAt := t.nt, pauseUp := t.up } ∧
        t.saf = { s.saf with run := .updatePause, pausedFrom := some .run } ∧ t.clk = s.clk.run (s.clk.cyclesTo (s.alignAt a)) ∧
        Frame [.clk, .out, .hif, .saf, .upd, .dry] s.toDev t) ∧
  (∀ (s : State) (a : Activation), s.Settled → s.upd.act = some a → s.upd.pause = none → s.saf.run = .safe →
      Completes .activationPauseStart s fun t => t.upd = { s.upd with pause := some a.sub, armed := none, pauseAt := t.nt, pauseUp := t.up } ∧
        t.clk = s.clk.run (s.clk.cyclesTo (s.alignAt a)) ∧ Frame [.clk, .out, .upd] s.toDev t) ∧
  (∀ (s : State) (dt p h : Nat) (a : Activation) (l : Live), 
      s.todo = [] → s.upd.act = some a → s.upd.pause = some p → a.revert = false → a.handle = some h → a.sub = 4 →
      p = 4 → s.upd.due = [] → s.saf.run = .safe → s.nv.upd.dl = none → s.Waits h l → s.ben.apply_ = none →
      s.ben.heldWrites = [] → s.par.role ≠ .standby → s.Room (s.evtCq 0x1404) →
      CompletesThen (.activationPauseEnd dt) s fun t => t.Answered l stOK [] ∧
        t.Told (s.evtCq 0x1404) 0x1404 ([4, 0, 0, 0] ++ leBytes (ntSince t.nt s.upd.pauseAt * 1000000 / tickHz) 4) ∧
        t.upd = { s.upd with
          pause := none, act := none, running_ := Tab.set (fun _ => (0, 0)) s.upd.running_ 4 ((s.sel 4).bank, (s.sel 4).ver)
          since := Tab.set (fun _ => 0) s.upd.since 4 t.up, pauses := t.upd.pauses } ∧ t.saf = s.saf ∧ t.nv = s.nv) ∧
  (∀ (s : State) (h : Nat) (l : Live), s.Settled → s.Runs h 0xB4 l → (s.sel (l.p 0 1)).trial = true → s.upd.due = [] →
      Completes (.updConfirm h) s fun t => t.Answered l stOK [] ∧ t.sel (l.p 0 1) = { s.sel (l.p 0 1) with trial := false, boots := 0 } ∧
        (∀ b, b ≠ l.p 0 1 → t.sel b = s.sel b ∧ t.floorOf b = s.floorOf b) ∧
        t.floorOf (l.p 0 1) = max (s.floorOf (l.p 0 1)) (s.bank (l.p 0 1) (s.sel (l.p 0 1)).bank).hdr.sec ∧
        (∀ k, k < 4 → bitAt t.fuse.keys (4 + k) = (bitAt s.fuse.keys (4 + k) || bitAt (s.bank (l.p 0 1) (s.sel (l.p 0 1)).bank).hdr.revoke k)) ∧
        Frame [.out, .hif, .nv, .fuse] s.toDev t) ∧
  (∀ (s : State) (h : Nat) (l : Live), s.Settled → s.Runs h 0xB4 l → (s.sel (l.p 0 1)).trial = false →
      Completes (.updConfirm h) s fun t => t.Answered l stOK [] ∧ Frame [.out, .hif] s.toDev t) ∧
  (∀ (s : State) (b u : Nat), 
      s.fld (0x14014, 0, 12) ≠ 0 → s.trials = [(b, u)] → b ≠ 5 → s.upd.act = none → s.upd.due = [] → s.saf.run ≠ .boot →
      s.saf.run ≠ .off → s.Room (s.evtCq 0x1403) →
      CompletesThen .trialTimeExpiry s fun d => .fault 0x26 false ∈ d.todo ∧ d.Told (s.evtCq 0x1403) 0x1403 (leBytes b 1 ++ [2]) ∧
        d.sel b = { bank := 1 - (s.sel b).bank, rejOther := true, ver := (s.bank b (1 - (s.sel b).bank)).hdr.ver } ∧ (d.bank b (s.sel b).bank).rejected = true ∧
        d.upd = { s.upd with
          act := some { sub := b, handle := none, revert := true, bank := 1 - (s.sel b).bank, ver := (s.bank b (1 - (s.sel b).bank)).hdr.ver, at_ := d.nt }
          armed := some b } ∧ d.up = max s.up u ∧ Frame [.clk, .out, .hif, .upd, .nv, .todo] s.toDev d) ∧
  (∀ (s : State) (h : Nat) (l : Live) (d : FlashDl), s.Settled → s.Runs h 0xB5 l → s.upd.failed = none → s.download = some d →
      Completes (.updStatus h) s fun t => t.Answered l stOK (leBytes (if d.verified then 3 else if d.complete then 2 else 1) 1 ++ leBytes d.hdr.sub 1 ++
          leBytes ((Tab.get (fun _ => (0, 0)) s.upd.running_ (l.p 0 1)).1 + (if (s.sel (l.p 0 1)).trial then 2 else 0) + (if (s.sel (l.p 0 1)).rejOther then 4 else 0)) 1 ++
          leBytes (s.sel (l.p 0 1)).boots 1 ++ leBytes (Tab.get (fun _ => (0, 0)) s.upd.running_ (l.p 0 1)).2 4 ++ leBytes d.hdr.ver 4 ++ leBytes d.left 4) ∧
        Frame [.out, .hif] s.toDev t) ∧
  (∀ (s : State) (h : Nat) (l : Live), s.Settled → s.Runs h 0xB5 l → s.upd.failed = none → s.download = none →
      Completes (.updStatus h) s fun t => t.Answered l stOK ([0, 0] ++
          leBytes ((Tab.get (fun _ => (0, 0)) s.upd.running_ (l.p 0 1)).1 + (if (s.sel (l.p 0 1)).trial then 2 else 0) + (if (s.sel (l.p 0 1)).rejOther then 4 else 0)) 1 ++
          leBytes (s.sel (l.p 0 1)).boots 1 ++ leBytes (Tab.get (fun _ => (0, 0)) s.upd.running_ (l.p 0 1)).2 4 ++ leBytes 0 8) ∧
        Frame [.out, .hif] s.toDev t)
end

