-- ==== Sys2Proof/Laws/Tab.lean ====
section
/-! SUPPORT. Laws of the sparse tables and of bit fields: a read after a write, on any table; the canonical form is kept. -/
namespace Sys2Proof.Machine

theorem Tab.get_ins_self {α : Type} (d : Nat → α) (i : Nat) (v : α) (t : Tab α) (h : ∀ p ∈ t, p.1 ≠ i) :
    Tab.get d (Tab.ins i v t) i = v := by
  induction t with
  | nil => simp [Tab.ins, Tab.get]
  | cons p t ih =>
    obtain ⟨j, w⟩ := p
    have hj : j ≠ i := h (j, w) (by simp)
    unfold Tab.ins
    split
    · simp [Tab.get]
    · simp only [Tab.get, hj, if_false]
      exact ih fun q hq => h q (by simp [hq])

theorem Tab.get_ins_ne {α : Type} (d : Nat → α) (i j : Nat) (v : α) (t : Tab α) (h : j ≠ i) :
    Tab.get d (Tab.ins i v t) j = Tab.get d t j := by
  induction t with
  | nil => simp [Tab.ins, Tab.get, Ne.symm h]
  | cons p t ih =>
    obtain ⟨k, w⟩ := p
    unfold Tab.ins
    split
    · simp [Tab.get, Ne.symm h]
    · simp only [Tab.get]; split <;> [rfl; exact ih]

theorem Tab.get_filter_ne {α : Type} (d : Nat → α) (i j : Nat) (t : Tab α) (h : j ≠ i) :
    Tab.get d (t.filter fun p => p.1 != i) j = Tab.get d t j := by
  induction t with
  | nil => rfl
  | cons p t ih =>
    obtain ⟨k, w⟩ := p
    by_cases hk : k = i
    · subst hk; simp [Tab.get, Ne.symm h, ih]
    · simp only [List.filter_cons, bne_iff_ne, ne_eq, hk, not_false_eq_true, if_true, Tab.get, ih]

theorem Tab.get_filter_self {α : Type} (d : Nat → α) (i : Nat) (t : Tab α) :
    Tab.get d (t.filter fun p => p.1 != i) i = d i := by
  induction t with
  | nil => rfl
  | cons p t ih =>
    obtain ⟨k, w⟩ := p
    by_cases hk : k = i
    · subst hk; simp [ih]
    · simp [hk, Tab.get, ih]

/-- A read after a write of the same index gives what was written. -/
@[simp] theorem Tab.get_set_self {α : Type} [DecidableEq α] (d : Nat → α) (t : Tab α) (i : Nat) (v : α) :
    Tab.get d (Tab.set d t i v) i = v := by
  unfold Tab.set
  split
  · next h => rw [Tab.get_filter_self, h]
  · exact Tab.get_ins_self d i v _ fun p hp => by simpa using (List.mem_filter.1 hp).2

/-- A write leaves every other index alone. -/
theorem Tab.get_set_ne {α : Type} [DecidableEq α] (d : Nat → α) (t : Tab α) (i j : Nat) (v : α) (h : j ≠ i) :
    Tab.get d (Tab.set d t i v) j = Tab.get d t j := by
  unfold Tab.set
  split
  · exact Tab.get_filter_ne d i j t h
  · rw [Tab.get_ins_ne d i j v _ h, Tab.get_filter_ne d i j t h]

/-- A read after a write, whichever index. -/
theorem Tab.get_set {α : Type} [DecidableEq α] (d : Nat → α) (t : Tab α) (i j : Nat) (v : α) :
    Tab.get d (Tab.set d t i v) j = if j = i then v else Tab.get d t j := by
  split
  · next h => subst h; simp
  · next h => exact Tab.get_set_ne d t i j v h

@[simp] theorem Tab.get_nil {α : Type} (d : Nat → α) (i : Nat) : Tab.get d [] i = d i := rfl

theorem Tab.wfFrom_mono {α : Type} [DecidableEq α] (d : Nat → α) (t : Tab α) (a b : Nat) (hab : a ≤ b)
    (h : Tab.wfFrom d b t = true) : Tab.wfFrom d a t = true := by
  cases t with
  | nil => rfl
  | cons p t =>
    obtain ⟨j, v⟩ := p
    simp only [Tab.wfFrom, Bool.and_eq_true, decide_eq_true_eq] at h ⊢
    exact ⟨⟨by omega, h.1.2⟩, h.2⟩

theorem Tab.wfFrom_filter {α : Type} [DecidableEq α] (d : Nat → α) (i : Nat) (t : Tab α) :
    ∀ a, Tab.wfFrom d a t = true → Tab.wfFrom d a (t.filter fun p => p.1 != i) = true := by
  induction t with
  | nil => intro a _; rfl
  | cons p t ih =>
    obtain ⟨j, v⟩ := p
    intro a h
    simp only [Tab.wfFrom, Bool.and_eq_true, decide_eq_true_eq] at h
    by_cases hj : j = i
    · have : ((j, v) :: t).filter (fun p => p.1 != i) = t.filter fun p => p.1 != i := by simp [hj]
      rw [this]
      exact Tab.wfFrom_mono d _ a (j + 1) (by omega) (ih _ h.2)
    · have : ((j, v) :: t).filter (fun p => p.1 != i) = (j, v) :: t.filter fun p => p.1 != i := by simp [hj]
      rw [this]
      simp only [Tab.wfFrom, Bool.and_eq_true, decide_eq_true_eq]
      exact ⟨h.1, ih _ h.2⟩

theorem Tab.wfFrom_ins {α : Type} [DecidableEq α] (d : Nat → α) (i : Nat) (v : α) (hv : v ≠ d i) (t : Tab α) :
    ∀ a, a ≤ i → (∀ p ∈ t, p.1 ≠ i) → Tab.wfFrom d a t = true → Tab.wfFrom d a (Tab.ins i v t) = true := by
  induction t with
  | nil => intro a ha _ _; simp [Tab.ins, Tab.wfFrom, ha, hv]
  | cons p t ih =>
    obtain ⟨j, w⟩ := p
    intro a ha hne h
    have hj : j ≠ i := hne (j, w) (by simp)
    simp only [Tab.wfFrom, Bool.and_eq_true, decide_eq_true_eq] at h
    unfold Tab.ins
    split
    · simp only [Tab.wfFrom, Bool.and_eq_true, decide_eq_true_eq]
      exact ⟨⟨ha, hv⟩, ⟨by omega, h.1.2⟩, h.2⟩
    · simp only [Tab.wfFrom, Bool.and_eq_true, decide_eq_true_eq]
      exact ⟨h.1, ih _ (by omega) (fun q hq => hne q (by simp [hq])) h.2⟩

/-- A write keeps the canonical form. -/
theorem Tab.wf_set {α : Type} [DecidableEq α] (d : Nat → α) (t : Tab α) (i : Nat) (v : α) (h : Tab.wf d t = true) :
    Tab.wf d (Tab.set d t i v) = true := by
  have hf := Tab.wfFrom_filter d i t 0 h
  unfold Tab.set Tab.wf
  split
  · exact hf
  · next hv =>
    exact Tab.wfFrom_ins d i v hv _ 0 (by omega) (fun p hp => by simpa using (List.mem_filter.1 hp).2) hf

/-! ### Bit fields -/

theorem bits_eq (v lo w : Nat) : bits v lo w = v / 2 ^ lo % 2 ^ w := by
  simp [bits, Nat.shiftRight_eq_div_pow]

theorem bits_lt (v lo w : Nat) : bits v lo w < 2 ^ w := Nat.mod_lt _ (Nat.two_pow_pos w)

theorem bits_split (v lo w : Nat) : v = v / 2 ^ (lo + w) * 2 ^ (lo + w) + bits v lo w * 2 ^ lo + v % 2 ^ lo := by
  have h1 := Nat.div_add_mod v (2 ^ lo)
  have h2 := Nat.div_add_mod (v / 2 ^ lo) (2 ^ w)
  rw [Nat.div_div_eq_div_mul, ← pow_add] at h2
  rw [bits_eq]
  calc v = 2 ^ lo * (v / 2 ^ lo) + v % 2 ^ lo := h1.symm
    _ = 2 ^ lo * (2 ^ w * (v / 2 ^ (lo + w)) + v / 2 ^ lo % 2 ^ w) + v % 2 ^ lo := by rw [h2]
    _ = _ := by rw [pow_add]; ring

theorem putBits_eq (v lo w x : Nat) :
    putBits v lo w x = v / 2 ^ (lo + w) * 2 ^ (lo + w) + x % 2 ^ w * 2 ^ lo + v % 2 ^ lo := by
  have h := bits_split v lo w
  unfold putBits
  omega

theorem bits_putBits (v lo w x : Nat) : bits (putBits v lo w x) lo w = x % 2 ^ w := by
  rw [bits_eq, putBits_eq]
  have h : v / 2 ^ (lo + w) * 2 ^ (lo + w) + x % 2 ^ w * 2 ^ lo + v % 2 ^ lo
      = 2 ^ lo * (2 ^ w * (v / 2 ^ (lo + w)) + x % 2 ^ w) + v % 2 ^ lo := by rw [pow_add]; ring
  rw [h, Nat.mul_add_div (Nat.two_pow_pos lo), Nat.div_eq_of_lt (Nat.mod_lt _ (Nat.two_pow_pos lo)), Nat.add_zero,
    Nat.mul_add_mod, Nat.mod_mod]

/-- Bits outside a field are as they were: below it. -/
theorem bits_putBits_below (v lo w x l k : Nat) (h : l + k ≤ lo) : bits (putBits v lo w x) l k = bits v l k := by
  have e : ∀ n : Nat, bits n l k = n % 2 ^ lo / 2 ^ l % 2 ^ k := fun n => by
    rw [bits_eq]
    obtain ⟨d, hd⟩ := Nat.exists_eq_add_of_le (by omega : l ≤ lo)
    obtain ⟨c, hc⟩ := Nat.exists_eq_add_of_le (by omega : k ≤ d)
    rw [hd, pow_add, Nat.mod_mul_right_div_self, hc, pow_add, Nat.mod_mul_right_mod]
  rw [e, e v, putBits_eq]
  congr 2
  have : v / 2 ^ (lo + w) * 2 ^ (lo + w) + x % 2 ^ w * 2 ^ lo + v % 2 ^ lo
      = 2 ^ lo * (v / 2 ^ (lo + w) * 2 ^ w + x % 2 ^ w) + v % 2 ^ lo := by rw [pow_add]; ring
  rw [this, Nat.mul_add_mod, Nat.mod_mod]

/-- Bits outside a field are as they were: above it. -/
theorem bits_putBits_above (v lo w x l k : Nat) (h : lo + w ≤ l) : bits (putBits v lo w x) l k = bits v l k := by
  have e : ∀ n : Nat, bits n l k = n / 2 ^ (lo + w) / 2 ^ (l - (lo + w)) % 2 ^ k := fun n => by
    rw [bits_eq, Nat.div_div_eq_div_mul, ← pow_add]; congr 3; omega
  rw [e, e v, putBits_eq]
  congr 2
  have hx : x % 2 ^ w * 2 ^ lo + v % 2 ^ lo < 2 ^ (lo + w) := by
    have h1 := Nat.mod_lt x (Nat.two_pow_pos w)
    have h2 := Nat.mod_lt v (Nat.two_pow_pos lo)
    calc x % 2 ^ w * 2 ^ lo + v % 2 ^ lo < x % 2 ^ w * 2 ^ lo + 2 ^ lo := by omega
      _ = (x % 2 ^ w + 1) * 2 ^ lo := by ring
      _ ≤ 2 ^ w * 2 ^ lo := Nat.mul_le_mul_right _ h1
      _ = 2 ^ (lo + w) := by rw [pow_add]; ring
  rw [Nat.add_assoc, Nat.mul_comm, Nat.mul_add_div (Nat.two_pow_pos _), Nat.div_eq_of_lt hx, Nat.add_zero]

theorem putBits_lt (v lo w x : Nat) (hv : v < 2 ^ 32) (h : lo + w ≤ 32) : putBits v lo w x < 2 ^ 32 := by
  rw [putBits_eq]
  have h1 := Nat.mod_lt x (Nat.two_pow_pos w)
  have h2 := Nat.mod_lt v (Nat.two_pow_pos lo)
  obtain ⟨c, hc⟩ := Nat.exists_eq_add_of_le h
  have hq : v / 2 ^ (lo + w) < 2 ^ c := by
    rw [Nat.div_lt_iff_lt_mul (Nat.two_pow_pos _), ← pow_add, Nat.add_comm c, ← hc]; exact hv
  have hx : x % 2 ^ w * 2 ^ lo + v % 2 ^ lo < 2 ^ (lo + w) := by
    calc x % 2 ^ w * 2 ^ lo + v % 2 ^ lo < x % 2 ^ w * 2 ^ lo + 2 ^ lo := by omega
      _ = (x % 2 ^ w + 1) * 2 ^ lo := by ring
      _ ≤ 2 ^ w * 2 ^ lo := Nat.mul_le_mul_right _ h1
      _ = 2 ^ (lo + w) := by rw [pow_add]; ring
  calc _ < v / 2 ^ (lo + w) * 2 ^ (lo + w) + 2 ^ (lo + w) := by omega
    _ = (v / 2 ^ (lo + w) + 1) * 2 ^ (lo + w) := by ring
    _ ≤ 2 ^ c * 2 ^ (lo + w) := Nat.mul_le_mul_right _ hq
    _ = 2 ^ 32 := by rw [← pow_add, Nat.add_comm c, ← hc]

theorem withField_toNat (r : Reg) (lo w v : Nat) (h : lo + w ≤ 32) :
    (withField r lo w v).toNat = putBits r.toNat lo w v := by
  rw [withField, BitVec.toNat_ofNat, Nat.mod_eq_of_lt (putBits_lt _ _ _ _ r.isLt h)]

/-- What was written in a field is read back, as far as the field is wide. -/
theorem fieldOf_withField (r : Reg) (lo w v : Nat) (h : lo + w ≤ 32) :
    fieldOf (withField r lo w v) lo w = v % 2 ^ w := by
  rw [fieldOf, withField_toNat r lo w v h, bits_putBits]

/-- A write of a field leaves a field below or above it alone. -/
theorem fieldOf_withField_other (r : Reg) (lo w v l k : Nat) (h : lo + w ≤ 32) (hd : l + k ≤ lo ∨ lo + w ≤ l) :
    fieldOf (withField r lo w v) l k = fieldOf r l k := by
  rw [fieldOf, withField_toNat r lo w v h, fieldOf]
  exact hd.elim (fun h => bits_putBits_below _ _ _ _ _ _ h) (fun h => bits_putBits_above _ _ _ _ _ _ h)

theorem fieldOf_lt (r : Reg) (lo w : Nat) : fieldOf r lo w < 2 ^ w := bits_lt _ _ _

end Sys2Proof.Machine
end

