-- ==== Sys2Proof/Laws/State.lean ====
section
/-! SUPPORT. Laws of State: what each plain update of the device leaves of every field, and what the reads of an updated
table give. -/
namespace Sys2Proof.Machine

@[simp] theorem Dev.setReg_fuse (s : Dev) (o : Nat) (v : Reg) : (s.setReg o v).fuse = s.fuse := rfl
@[simp] theorem Dev.setReg_clk (s : Dev) (o : Nat) (v : Reg) : (s.setReg o v).clk = s.clk := rfl
@[simp] theorem Dev.setReg_tim (s : Dev) (o : Nat) (v : Reg) : (s.setReg o v).tim = s.tim := rfl
@[simp] theorem Dev.setReg_tdc (s : Dev) (o : Nat) (v : Reg) : (s.setReg o v).tdc = s.tdc := rfl
@[simp] theorem Dev.setReg_pll (s : Dev) (o : Nat) (v : Reg) : (s.setReg o v).pll = s.pll := rfl
@[simp] theorem Dev.setReg_caps (s : Dev) (o : Nat) (v : Reg) : (s.setReg o v).caps = s.caps := rfl
@[simp] theorem Dev.setReg_hif (s : Dev) (o : Nat) (v : Reg) : (s.setReg o v).hif = s.hif := rfl
@[simp] theorem Dev.setReg_saf (s : Dev) (o : Nat) (v : Reg) : (s.setReg o v).saf = s.saf := rfl
@[simp] theorem Dev.setReg_flt (s : Dev) (o : Nat) (v : Reg) : (s.setReg o v).flt = s.flt := rfl
@[simp] theorem Dev.setReg_dry (s : Dev) (o : Nat) (v : Reg) : (s.setReg o v).dry = s.dry := rfl
@[simp] theorem Dev.setReg_ben (s : Dev) (o : Nat) (v : Reg) : (s.setReg o v).ben = s.ben := rfl
@[simp] theorem Dev.setReg_gov (s : Dev) (o : Nat) (v : Reg) : (s.setReg o v).gov = s.gov := rfl
@[simp] theorem Dev.setReg_par (s : Dev) (o : Nat) (v : Reg) : (s.setReg o v).par = s.par := rfl
@[simp] theorem Dev.setReg_mem (s : Dev) (o : Nat) (v : Reg) : (s.setReg o v).mem = s.mem := rfl
@[simp] theorem Dev.setReg_pad (s : Dev) (o : Nat) (v : Reg) : (s.setReg o v).pad = s.pad := rfl
@[simp] theorem Dev.setReg_axes (s : Dev) (o : Nat) (v : Reg) : (s.setReg o v).axes = s.axes := rfl
@[simp] theorem Dev.setReg_nv (s : Dev) (o : Nat) (v : Reg) : (s.setReg o v).nv = s.nv := rfl
@[simp] theorem Dev.setReg_gns (s : Dev) (o : Nat) (v : Reg) : (s.setReg o v).gns = s.gns := rfl
@[simp] theorem Dev.setReg_snp (s : Dev) (o : Nat) (v : Reg) : (s.setReg o v).snp = s.snp := rfl
@[simp] theorem Dev.setReg_frk (s : Dev) (o : Nat) (v : Reg) : (s.setReg o v).frk = s.frk := rfl
@[simp] theorem Dev.setReg_trl (s : Dev) (o : Nat) (v : Reg) : (s.setReg o v).trl = s.trl := rfl
@[simp] theorem Dev.setReg_txu (s : Dev) (o : Nat) (v : Reg) : (s.setReg o v).txu = s.txu := rfl
@[simp] theorem Dev.setReg_ctl (s : Dev) (o : Nat) (v : Reg) : (s.setReg o v).ctl = s.ctl := rfl
@[simp] theorem Dev.setReg_mac (s : Dev) (o : Nat) (v : Reg) : (s.setReg o v).mac = s.mac := rfl
@[simp] theorem Dev.setReg_que (s : Dev) (o : Nat) (v : Reg) : (s.setReg o v).que = s.que := rfl
@[simp] theorem Dev.setReg_upd (s : Dev) (o : Nat) (v : Reg) : (s.setReg o v).upd = s.upd := rfl
@[simp] theorem Dev.setReg_free (s : Dev) (o : Nat) (v : Reg) : (s.setReg o v).free = s.free := rfl
@[simp] theorem Dev.setReg_todo (s : Dev) (o : Nat) (v : Reg) : (s.setReg o v).todo = s.todo := rfl
@[simp] theorem Dev.setReg_out (s : Dev) (o : Nat) (v : Reg) : (s.setReg o v).out = s.out := rfl

@[simp] theorem Dev.setFld_fuse (s : Dev) (f : Fld) (v : Nat) : (s.setFld f v).fuse = s.fuse := rfl
@[simp] theorem Dev.setFld_clk (s : Dev) (f : Fld) (v : Nat) : (s.setFld f v).clk = s.clk := rfl
@[simp] theorem Dev.setFld_tim (s : Dev) (f : Fld) (v : Nat) : (s.setFld f v).tim = s.tim := rfl
@[simp] theorem Dev.setFld_tdc (s : Dev) (f : Fld) (v : Nat) : (s.setFld f v).tdc = s.tdc := rfl
@[simp] theorem Dev.setFld_pll (s : Dev) (f : Fld) (v : Nat) : (s.setFld f v).pll = s.pll := rfl
@[simp] theorem Dev.setFld_caps (s : Dev) (f : Fld) (v : Nat) : (s.setFld f v).caps = s.caps := rfl
@[simp] theorem Dev.setFld_hif (s : Dev) (f : Fld) (v : Nat) : (s.setFld f v).hif = s.hif := rfl
@[simp] theorem Dev.setFld_saf (s : Dev) (f : Fld) (v : Nat) : (s.setFld f v).saf = s.saf := rfl
@[simp] theorem Dev.setFld_flt (s : Dev) (f : Fld) (v : Nat) : (s.setFld f v).flt = s.flt := rfl
@[simp] theorem Dev.setFld_dry (s : Dev) (f : Fld) (v : Nat) : (s.setFld f v).dry = s.dry := rfl
@[simp] theorem Dev.setFld_ben (s : Dev) (f : Fld) (v : Nat) : (s.setFld f v).ben = s.ben := rfl
@[simp] theorem Dev.setFld_gov (s : Dev) (f : Fld) (v : Nat) : (s.setFld f v).gov = s.gov := rfl
@[simp] theorem Dev.setFld_par (s : Dev) (f : Fld) (v : Nat) : (s.setFld f v).par = s.par := rfl
@[simp] theorem Dev.setFld_mem (s : Dev) (f : Fld) (v : Nat) : (s.setFld f v).mem = s.mem := rfl
@[simp] theorem Dev.setFld_pad (s : Dev) (f : Fld) (v : Nat) : (s.setFld f v).pad = s.pad := rfl
@[simp] theorem Dev.setFld_axes (s : Dev) (f : Fld) (v : Nat) : (s.setFld f v).axes = s.axes := rfl
@[simp] theorem Dev.setFld_nv (s : Dev) (f : Fld) (v : Nat) : (s.setFld f v).nv = s.nv := rfl
@[simp] theorem Dev.setFld_gns (s : Dev) (f : Fld) (v : Nat) : (s.setFld f v).gns = s.gns := rfl
@[simp] theorem Dev.setFld_snp (s : Dev) (f : Fld) (v : Nat) : (s.setFld f v).snp = s.snp := rfl
@[simp] theorem Dev.setFld_frk (s : Dev) (f : Fld) (v : Nat) : (s.setFld f v).frk = s.frk := rfl
@[simp] theorem Dev.setFld_trl (s : Dev) (f : Fld) (v : Nat) : (s.setFld f v).trl = s.trl := rfl
@[simp] theorem Dev.setFld_txu (s : Dev) (f : Fld) (v : Nat) : (s.setFld f v).txu = s.txu := rfl
@[simp] theorem Dev.setFld_ctl (s : Dev) (f : Fld) (v : Nat) : (s.setFld f v).ctl = s.ctl := rfl
@[simp] theorem Dev.setFld_mac (s : Dev) (f : Fld) (v : Nat) : (s.setFld f v).mac = s.mac := rfl
@[simp] theorem Dev.setFld_que (s : Dev) (f : Fld) (v : Nat) : (s.setFld f v).que = s.que := rfl
@[simp] theorem Dev.setFld_upd (s : Dev) (f : Fld) (v : Nat) : (s.setFld f v).upd = s.upd := rfl
@[simp] theorem Dev.setFld_free (s : Dev) (f : Fld) (v : Nat) : (s.setFld f v).free = s.free := rfl
@[simp] theorem Dev.setFld_todo (s : Dev) (f : Fld) (v : Nat) : (s.setFld f v).todo = s.todo := rfl
@[simp] theorem Dev.setFld_out (s : Dev) (f : Fld) (v : Nat) : (s.setFld f v).out = s.out := rfl

@[simp] theorem Dev.cntSat_fuse (s : Dev) (f : Fld) : (s.cntSat f).fuse = s.fuse := rfl
@[simp] theorem Dev.cntSat_clk (s : Dev) (f : Fld) : (s.cntSat f).clk = s.clk := rfl
@[simp] theorem Dev.cntSat_tim (s : Dev) (f : Fld) : (s.cntSat f).tim = s.tim := rfl
@[simp] theorem Dev.cntSat_tdc (s : Dev) (f : Fld) : (s.cntSat f).tdc = s.tdc := rfl
@[simp] theorem Dev.cntSat_pll (s : Dev) (f : Fld) : (s.cntSat f).pll = s.pll := rfl
@[simp] theorem Dev.cntSat_caps (s : Dev) (f : Fld) : (s.cntSat f).caps = s.caps := rfl
@[simp] theorem Dev.cntSat_hif (s : Dev) (f : Fld) : (s.cntSat f).hif = s.hif := rfl
@[simp] theorem Dev.cntSat_saf (s : Dev) (f : Fld) : (s.cntSat f).saf = s.saf := rfl
@[simp] theorem Dev.cntSat_flt (s : Dev) (f : Fld) : (s.cntSat f).flt = s.flt := rfl
@[simp] theorem Dev.cntSat_dry (s : Dev) (f : Fld) : (s.cntSat f).dry = s.dry := rfl
@[simp] theorem Dev.cntSat_ben (s : Dev) (f : Fld) : (s.cntSat f).ben = s.ben := rfl
@[simp] theorem Dev.cntSat_gov (s : Dev) (f : Fld) : (s.cntSat f).gov = s.gov := rfl
@[simp] theorem Dev.cntSat_par (s : Dev) (f : Fld) : (s.cntSat f).par = s.par := rfl
@[simp] theorem Dev.cntSat_mem (s : Dev) (f : Fld) : (s.cntSat f).mem = s.mem := rfl
@[simp] theorem Dev.cntSat_pad (s : Dev) (f : Fld) : (s.cntSat f).pad = s.pad := rfl
@[simp] theorem Dev.cntSat_axes (s : Dev) (f : Fld) : (s.cntSat f).axes = s.axes := rfl
@[simp] theorem Dev.cntSat_nv (s : Dev) (f : Fld) : (s.cntSat f).nv = s.nv := rfl
@[simp] theorem Dev.cntSat_gns (s : Dev) (f : Fld) : (s.cntSat f).gns = s.gns := rfl
@[simp] theorem Dev.cntSat_snp (s : Dev) (f : Fld) : (s.cntSat f).snp = s.snp := rfl
@[simp] theorem Dev.cntSat_frk (s : Dev) (f : Fld) : (s.cntSat f).frk = s.frk := rfl
@[simp] theorem Dev.cntSat_trl (s : Dev) (f : Fld) : (s.cntSat f).trl = s.trl := rfl
@[simp] theorem Dev.cntSat_txu (s : Dev) (f : Fld) : (s.cntSat f).txu = s.txu := rfl
@[simp] theorem Dev.cntSat_ctl (s : Dev) (f : Fld) : (s.cntSat f).ctl = s.ctl := rfl
@[simp] theorem Dev.cntSat_mac (s : Dev) (f : Fld) : (s.cntSat f).mac = s.mac := rfl
@[simp] theorem Dev.cntSat_que (s : Dev) (f : Fld) : (s.cntSat f).que = s.que := rfl
@[simp] theorem Dev.cntSat_upd (s : Dev) (f : Fld) : (s.cntSat f).upd = s.upd := rfl
@[simp] theorem Dev.cntSat_free (s : Dev) (f : Fld) : (s.cntSat f).free = s.free := rfl
@[simp] theorem Dev.cntSat_todo (s : Dev) (f : Fld) : (s.cntSat f).todo = s.todo := rfl
@[simp] theorem Dev.cntSat_out (s : Dev) (f : Fld) : (s.cntSat f).out = s.out := rfl

@[simp] theorem Dev.cntWrap_fuse (s : Dev) (f : Fld) : (s.cntWrap f).fuse = s.fuse := rfl
@[simp] theorem Dev.cntWrap_clk (s : Dev) (f : Fld) : (s.cntWrap f).clk = s.clk := rfl
@[simp] theorem Dev.cntWrap_tim (s : Dev) (f : Fld) : (s.cntWrap f).tim = s.tim := rfl
@[simp] theorem Dev.cntWrap_tdc (s : Dev) (f : Fld) : (s.cntWrap f).tdc = s.tdc := rfl
@[simp] theorem Dev.cntWrap_pll (s : Dev) (f : Fld) : (s.cntWrap f).pll = s.pll := rfl
@[simp] theorem Dev.cntWrap_caps (s : Dev) (f : Fld) : (s.cntWrap f).caps = s.caps := rfl
@[simp] theorem Dev.cntWrap_hif (s : Dev) (f : Fld) : (s.cntWrap f).hif = s.hif := rfl
@[simp] theorem Dev.cntWrap_saf (s : Dev) (f : Fld) : (s.cntWrap f).saf = s.saf := rfl
@[simp] theorem Dev.cntWrap_flt (s : Dev) (f : Fld) : (s.cntWrap f).flt = s.flt := rfl
@[simp] theorem Dev.cntWrap_dry (s : Dev) (f : Fld) : (s.cntWrap f).dry = s.dry := rfl
@[simp] theorem Dev.cntWrap_ben (s : Dev) (f : Fld) : (s.cntWrap f).ben = s.ben := rfl
@[simp] theorem Dev.cntWrap_gov (s : Dev) (f : Fld) : (s.cntWrap f).gov = s.gov := rfl
@[simp] theorem Dev.cntWrap_par (s : Dev) (f : Fld) : (s.cntWrap f).par = s.par := rfl
@[simp] theorem Dev.cntWrap_mem (s : Dev) (f : Fld) : (s.cntWrap f).mem = s.mem := rfl
@[simp] theorem Dev.cntWrap_pad (s : Dev) (f : Fld) : (s.cntWrap f).pad = s.pad := rfl
@[simp] theorem Dev.cntWrap_axes (s : Dev) (f : Fld) : (s.cntWrap f).axes = s.axes := rfl
@[simp] theorem Dev.cntWrap_nv (s : Dev) (f : Fld) : (s.cntWrap f).nv = s.nv := rfl
@[simp] theorem Dev.cntWrap_gns (s : Dev) (f : Fld) : (s.cntWrap f).gns = s.gns := rfl
@[simp] theorem Dev.cntWrap_snp (s : Dev) (f : Fld) : (s.cntWrap f).snp = s.snp := rfl
@[simp] theorem Dev.cntWrap_frk (s : Dev) (f : Fld) : (s.cntWrap f).frk = s.frk := rfl
@[simp] theorem Dev.cntWrap_trl (s : Dev) (f : Fld) : (s.cntWrap f).trl = s.trl := rfl
@[simp] theorem Dev.cntWrap_txu (s : Dev) (f : Fld) : (s.cntWrap f).txu = s.txu := rfl
@[simp] theorem Dev.cntWrap_ctl (s : Dev) (f : Fld) : (s.cntWrap f).ctl = s.ctl := rfl
@[simp] theorem Dev.cntWrap_mac (s : Dev) (f : Fld) : (s.cntWrap f).mac = s.mac := rfl
@[simp] theorem Dev.cntWrap_que (s : Dev) (f : Fld) : (s.cntWrap f).que = s.que := rfl
@[simp] theorem Dev.cntWrap_upd (s : Dev) (f : Fld) : (s.cntWrap f).upd = s.upd := rfl
@[simp] theorem Dev.cntWrap_free (s : Dev) (f : Fld) : (s.cntWrap f).free = s.free := rfl
@[simp] theorem Dev.cntWrap_todo (s : Dev) (f : Fld) : (s.cntWrap f).todo = s.todo := rfl
@[simp] theorem Dev.cntWrap_out (s : Dev) (f : Fld) : (s.cntWrap f).out = s.out := rfl

@[simp] theorem Dev.cntSatN_fuse (s : Dev) (f : Fld) (n : Nat) : (s.cntSatN f n).fuse = s.fuse := rfl
@[simp] theorem Dev.cntSatN_clk (s : Dev) (f : Fld) (n : Nat) : (s.cntSatN f n).clk = s.clk := rfl
@[simp] theorem Dev.cntSatN_tim (s : Dev) (f : Fld) (n : Nat) : (s.cntSatN f n).tim = s.tim := rfl
@[simp] theorem Dev.cntSatN_tdc (s : Dev) (f : Fld) (n : Nat) : (s.cntSatN f n).tdc = s.tdc := rfl
@[simp] theorem Dev.cntSatN_pll (s : Dev) (f : Fld) (n : Nat) : (s.cntSatN f n).pll = s.pll := rfl
@[simp] theorem Dev.cntSatN_caps (s : Dev) (f : Fld) (n : Nat) : (s.cntSatN f n).caps = s.caps := rfl
@[simp] theorem Dev.cntSatN_hif (s : Dev) (f : Fld) (n : Nat) : (s.cntSatN f n).hif = s.hif := rfl
@[simp] theorem Dev.cntSatN_saf (s : Dev) (f : Fld) (n : Nat) : (s.cntSatN f n).saf = s.saf := rfl
@[simp] theorem Dev.cntSatN_flt (s : Dev) (f : Fld) (n : Nat) : (s.cntSatN f n).flt = s.flt := rfl
@[simp] theorem Dev.cntSatN_dry (s : Dev) (f : Fld) (n : Nat) : (s.cntSatN f n).dry = s.dry := rfl
@[simp] theorem Dev.cntSatN_ben (s : Dev) (f : Fld) (n : Nat) : (s.cntSatN f n).ben = s.ben := rfl
@[simp] theorem Dev.cntSatN_gov (s : Dev) (f : Fld) (n : Nat) : (s.cntSatN f n).gov = s.gov := rfl
@[simp] theorem Dev.cntSatN_par (s : Dev) (f : Fld) (n : Nat) : (s.cntSatN f n).par = s.par := rfl
@[simp] theorem Dev.cntSatN_mem (s : Dev) (f : Fld) (n : Nat) : (s.cntSatN f n).mem = s.mem := rfl
@[simp] theorem Dev.cntSatN_pad (s : Dev) (f : Fld) (n : Nat) : (s.cntSatN f n).pad = s.pad := rfl
@[simp] theorem Dev.cntSatN_axes (s : Dev) (f : Fld) (n : Nat) : (s.cntSatN f n).axes = s.axes := rfl
@[simp] theorem Dev.cntSatN_nv (s : Dev) (f : Fld) (n : Nat) : (s.cntSatN f n).nv = s.nv := rfl
@[simp] theorem Dev.cntSatN_gns (s : Dev) (f : Fld) (n : Nat) : (s.cntSatN f n).gns = s.gns := rfl
@[simp] theorem Dev.cntSatN_snp (s : Dev) (f : Fld) (n : Nat) : (s.cntSatN f n).snp = s.snp := rfl
@[simp] theorem Dev.cntSatN_frk (s : Dev) (f : Fld) (n : Nat) : (s.cntSatN f n).frk = s.frk := rfl
@[simp] theorem Dev.cntSatN_trl (s : Dev) (f : Fld) (n : Nat) : (s.cntSatN f n).trl = s.trl := rfl
@[simp] theorem Dev.cntSatN_txu (s : Dev) (f : Fld) (n : Nat) : (s.cntSatN f n).txu = s.txu := rfl
@[simp] theorem Dev.cntSatN_ctl (s : Dev) (f : Fld) (n : Nat) : (s.cntSatN f n).ctl = s.ctl := rfl
@[simp] theorem Dev.cntSatN_mac (s : Dev) (f : Fld) (n : Nat) : (s.cntSatN f n).mac = s.mac := rfl
@[simp] theorem Dev.cntSatN_que (s : Dev) (f : Fld) (n : Nat) : (s.cntSatN f n).que = s.que := rfl
@[simp] theorem Dev.cntSatN_upd (s : Dev) (f : Fld) (n : Nat) : (s.cntSatN f n).upd = s.upd := rfl
@[simp] theorem Dev.cntSatN_free (s : Dev) (f : Fld) (n : Nat) : (s.cntSatN f n).free = s.free := rfl
@[simp] theorem Dev.cntSatN_todo (s : Dev) (f : Fld) (n : Nat) : (s.cntSatN f n).todo = s.todo := rfl
@[simp] theorem Dev.cntSatN_out (s : Dev) (f : Fld) (n : Nat) : (s.cntSatN f n).out = s.out := rfl

@[simp] theorem Dev.begin_fuse (s : Dev) : s.begin.fuse = s.fuse := rfl
@[simp] theorem Dev.begin_clk (s : Dev) : s.begin.clk = s.clk := rfl
@[simp] theorem Dev.begin_tim (s : Dev) : s.begin.tim = s.tim := rfl
@[simp] theorem Dev.begin_tdc (s : Dev) : s.begin.tdc = s.tdc := rfl
@[simp] theorem Dev.begin_pll (s : Dev) : s.begin.pll = s.pll := rfl
@[simp] theorem Dev.begin_caps (s : Dev) : s.begin.caps = s.caps := rfl
@[simp] theorem Dev.begin_regs (s : Dev) : s.begin.regs = s.regs := rfl
@[simp] theorem Dev.begin_hif (s : Dev) : s.begin.hif = s.hif := rfl
@[simp] theorem Dev.begin_saf (s : Dev) : s.begin.saf = s.saf := rfl
@[simp] theorem Dev.begin_flt (s : Dev) : s.begin.flt = s.flt := rfl
@[simp] theorem Dev.begin_dry (s : Dev) : s.begin.dry = s.dry := rfl
@[simp] theorem Dev.begin_ben (s : Dev) : s.begin.ben = s.ben := rfl
@[simp] theorem Dev.begin_gov (s : Dev) : s.begin.gov = s.gov := rfl
@[simp] theorem Dev.begin_par (s : Dev) : s.begin.par = s.par := rfl
@[simp] theorem Dev.begin_mem (s : Dev) : s.begin.mem = s.mem := rfl
@[simp] theorem Dev.begin_pad (s : Dev) : s.begin.pad = s.pad := rfl
@[simp] theorem Dev.begin_axes (s : Dev) : s.begin.axes = s.axes := rfl
@[simp] theorem Dev.begin_nv (s : Dev) : s.begin.nv = s.nv := rfl
@[simp] theorem Dev.begin_gns (s : Dev) : s.begin.gns = s.gns := rfl
@[simp] theorem Dev.begin_snp (s : Dev) : s.begin.snp = s.snp := rfl
@[simp] theorem Dev.begin_frk (s : Dev) : s.begin.frk = s.frk := rfl
@[simp] theorem Dev.begin_trl (s : Dev) : s.begin.trl = s.trl := rfl
@[simp] theorem Dev.begin_txu (s : Dev) : s.begin.txu = s.txu := rfl
@[simp] theorem Dev.begin_ctl (s : Dev) : s.begin.ctl = s.ctl := rfl
@[simp] theorem Dev.begin_mac (s : Dev) : s.begin.mac = s.mac := rfl
@[simp] theorem Dev.begin_que (s : Dev) : s.begin.que = s.que := rfl
@[simp] theorem Dev.begin_upd (s : Dev) : s.begin.upd = s.upd := rfl
@[simp] theorem Dev.begin_free (s : Dev) : s.begin.free = s.free := rfl
@[simp] theorem Dev.begin_todo (s : Dev) : s.begin.todo = s.todo := rfl

@[simp] theorem Dev.atClk_fuse (s : Dev) (c : Clock) : (s.atClk c).fuse = s.fuse := rfl
@[simp] theorem Dev.atClk_tim (s : Dev) (c : Clock) : (s.atClk c).tim = s.tim := rfl
@[simp] theorem Dev.atClk_tdc (s : Dev) (c : Clock) : (s.atClk c).tdc = s.tdc := rfl
@[simp] theorem Dev.atClk_pll (s : Dev) (c : Clock) : (s.atClk c).pll = s.pll := rfl
@[simp] theorem Dev.atClk_caps (s : Dev) (c : Clock) : (s.atClk c).caps = s.caps := rfl
@[simp] theorem Dev.atClk_regs (s : Dev) (c : Clock) : (s.atClk c).regs = s.regs := rfl
@[simp] theorem Dev.atClk_hif (s : Dev) (c : Clock) : (s.atClk c).hif = s.hif := rfl
@[simp] theorem Dev.atClk_saf (s : Dev) (c : Clock) : (s.atClk c).saf = s.saf := rfl
@[simp] theorem Dev.atClk_flt (s : Dev) (c : Clock) : (s.atClk c).flt = s.flt := rfl
@[simp] theorem Dev.atClk_dry (s : Dev) (c : Clock) : (s.atClk c).dry = s.dry := rfl
@[simp] theorem Dev.atClk_ben (s : Dev) (c : Clock) : (s.atClk c).ben = s.ben := rfl
@[simp] theorem Dev.atClk_gov (s : Dev) (c : Clock) : (s.atClk c).gov = s.gov := rfl
@[simp] theorem Dev.atClk_par (s : Dev) (c : Clock) : (s.atClk c).par = s.par := rfl
@[simp] theorem Dev.atClk_mem (s : Dev) (c : Clock) : (s.atClk c).mem = s.mem := rfl
@[simp] theorem Dev.atClk_pad (s : Dev) (c : Clock) : (s.atClk c).pad = s.pad := rfl
@[simp] theorem Dev.atClk_axes (s : Dev) (c : Clock) : (s.atClk c).axes = s.axes := rfl
@[simp] theorem Dev.atClk_nv (s : Dev) (c : Clock) : (s.atClk c).nv = s.nv := rfl
@[simp] theorem Dev.atClk_gns (s : Dev) (c : Clock) : (s.atClk c).gns = s.gns := rfl
@[simp] theorem Dev.atClk_snp (s : Dev) (c : Clock) : (s.atClk c).snp = s.snp := rfl
@[simp] theorem Dev.atClk_frk (s : Dev) (c : Clock) : (s.atClk c).frk = s.frk := rfl
@[simp] theorem Dev.atClk_trl (s : Dev) (c : Clock) : (s.atClk c).trl = s.trl := rfl
@[simp] theorem Dev.atClk_txu (s : Dev) (c : Clock) : (s.atClk c).txu = s.txu := rfl
@[simp] theorem Dev.atClk_ctl (s : Dev) (c : Clock) : (s.atClk c).ctl = s.ctl := rfl
@[simp] theorem Dev.atClk_mac (s : Dev) (c : Clock) : (s.atClk c).mac = s.mac := rfl
@[simp] theorem Dev.atClk_que (s : Dev) (c : Clock) : (s.atClk c).que = s.que := rfl
@[simp] theorem Dev.atClk_upd (s : Dev) (c : Clock) : (s.atClk c).upd = s.upd := rfl
@[simp] theorem Dev.atClk_free (s : Dev) (c : Clock) : (s.atClk c).free = s.free := rfl
@[simp] theorem Dev.atClk_todo (s : Dev) (c : Clock) : (s.atClk c).todo = s.todo := rfl

@[simp] theorem Dev.tick_fuse (s : Dev) (n : Nat) : (s.tick n).fuse = s.fuse := Dev.atClk_fuse s _
@[simp] theorem Dev.tick_tim (s : Dev) (n : Nat) : (s.tick n).tim = s.tim := Dev.atClk_tim s _
@[simp] theorem Dev.tick_tdc (s : Dev) (n : Nat) : (s.tick n).tdc = s.tdc := Dev.atClk_tdc s _
@[simp] theorem Dev.tick_pll (s : Dev) (n : Nat) : (s.tick n).pll = s.pll := Dev.atClk_pll s _
@[simp] theorem Dev.tick_caps (s : Dev) (n : Nat) : (s.tick n).caps = s.caps := Dev.atClk_caps s _
@[simp] theorem Dev.tick_regs (s : Dev) (n : Nat) : (s.tick n).regs = s.regs := Dev.atClk_regs s _
@[simp] theorem Dev.tick_hif (s : Dev) (n : Nat) : (s.tick n).hif = s.hif := Dev.atClk_hif s _
@[simp] theorem Dev.tick_saf (s : Dev) (n : Nat) : (s.tick n).saf = s.saf := Dev.atClk_saf s _
@[simp] theorem Dev.tick_flt (s : Dev) (n : Nat) : (s.tick n).flt = s.flt := Dev.atClk_flt s _
@[simp] theorem Dev.tick_dry (s : Dev) (n : Nat) : (s.tick n).dry = s.dry := Dev.atClk_dry s _
@[simp] theorem Dev.tick_ben (s : Dev) (n : Nat) : (s.tick n).ben = s.ben := Dev.atClk_ben s _
@[simp] theorem Dev.tick_gov (s : Dev) (n : Nat) : (s.tick n).gov = s.gov := Dev.atClk_gov s _
@[simp] theorem Dev.tick_par (s : Dev) (n : Nat) : (s.tick n).par = s.par := Dev.atClk_par s _
@[simp] theorem Dev.tick_mem (s : Dev) (n : Nat) : (s.tick n).mem = s.mem := Dev.atClk_mem s _
@[simp] theorem Dev.tick_pad (s : Dev) (n : Nat) : (s.tick n).pad = s.pad := Dev.atClk_pad s _
@[simp] theorem Dev.tick_axes (s : Dev) (n : Nat) : (s.tick n).axes = s.axes := Dev.atClk_axes s _
@[simp] theorem Dev.tick_nv (s : Dev) (n : Nat) : (s.tick n).nv = s.nv := Dev.atClk_nv s _
@[simp] theorem Dev.tick_gns (s : Dev) (n : Nat) : (s.tick n).gns = s.gns := Dev.atClk_gns s _
@[simp] theorem Dev.tick_snp (s : Dev) (n : Nat) : (s.tick n).snp = s.snp := Dev.atClk_snp s _
@[simp] theorem Dev.tick_frk (s : Dev) (n : Nat) : (s.tick n).frk = s.frk := Dev.atClk_frk s _
@[simp] theorem Dev.tick_trl (s : Dev) (n : Nat) : (s.tick n).trl = s.trl := Dev.atClk_trl s _
@[simp] theorem Dev.tick_txu (s : Dev) (n : Nat) : (s.tick n).txu = s.txu := Dev.atClk_txu s _
@[simp] theorem Dev.tick_ctl (s : Dev) (n : Nat) : (s.tick n).ctl = s.ctl := Dev.atClk_ctl s _
@[simp] theorem Dev.tick_mac (s : Dev) (n : Nat) : (s.tick n).mac = s.mac := Dev.atClk_mac s _
@[simp] theorem Dev.tick_que (s : Dev) (n : Nat) : (s.tick n).que = s.que := Dev.atClk_que s _
@[simp] theorem Dev.tick_upd (s : Dev) (n : Nat) : (s.tick n).upd = s.upd := Dev.atClk_upd s _
@[simp] theorem Dev.tick_free (s : Dev) (n : Nat) : (s.tick n).free = s.free := Dev.atClk_free s _
@[simp] theorem Dev.tick_todo (s : Dev) (n : Nat) : (s.tick n).todo = s.todo := Dev.atClk_todo s _

@[simp] theorem Dev.emit_fuse (s : Dev) (o : Out) : (s.emit o).fuse = s.fuse := rfl
@[simp] theorem Dev.emit_clk (s : Dev) (o : Out) : (s.emit o).clk = s.clk := rfl
@[simp] theorem Dev.emit_tim (s : Dev) (o : Out) : (s.emit o).tim = s.tim := rfl
@[simp] theorem Dev.emit_tdc (s : Dev) (o : Out) : (s.emit o).tdc = s.tdc := rfl
@[simp] theorem Dev.emit_pll (s : Dev) (o : Out) : (s.emit o).pll = s.pll := rfl
@[simp] theorem Dev.emit_caps (s : Dev) (o : Out) : (s.emit o).caps = s.caps := rfl
@[simp] theorem Dev.emit_regs (s : Dev) (o : Out) : (s.emit o).regs = s.regs := rfl
@[simp] theorem Dev.emit_hif (s : Dev) (o : Out) : (s.emit o).hif = s.hif := rfl
@[simp] theorem Dev.emit_saf (s : Dev) (o : Out) : (s.emit o).saf = s.saf := rfl
@[simp] theorem Dev.emit_flt (s : Dev) (o : Out) : (s.emit o).flt = s.flt := rfl
@[simp] theorem Dev.emit_dry (s : Dev) (o : Out) : (s.emit o).dry = s.dry := rfl
@[simp] theorem Dev.emit_ben (s : Dev) (o : Out) : (s.emit o).ben = s.ben := rfl
@[simp] theorem Dev.emit_gov (s : Dev) (o : Out) : (s.emit o).gov = s.gov := rfl
@[simp] theorem Dev.emit_par (s : Dev) (o : Out) : (s.emit o).par = s.par := rfl
@[simp] theorem Dev.emit_mem (s : Dev) (o : Out) : (s.emit o).mem = s.mem := rfl
@[simp] theorem Dev.emit_pad (s : Dev) (o : Out) : (s.emit o).pad = s.pad := rfl
@[simp] theorem Dev.emit_axes (s : Dev) (o : Out) : (s.emit o).axes = s.axes := rfl
@[simp] theorem Dev.emit_nv (s : Dev) (o : Out) : (s.emit o).nv = s.nv := rfl
@[simp] theorem Dev.emit_gns (s : Dev) (o : Out) : (s.emit o).gns = s.gns := rfl
@[simp] theorem Dev.emit_snp (s : Dev) (o : Out) : (s.emit o).snp = s.snp := rfl
@[simp] theorem Dev.emit_frk (s : Dev) (o : Out) : (s.emit o).frk = s.frk := rfl
@[simp] theorem Dev.emit_trl (s : Dev) (o : Out) : (s.emit o).trl = s.trl := rfl
@[simp] theorem Dev.emit_txu (s : Dev) (o : Out) : (s.emit o).txu = s.txu := rfl
@[simp] theorem Dev.emit_ctl (s : Dev) (o : Out) : (s.emit o).ctl = s.ctl := rfl
@[simp] theorem Dev.emit_mac (s : Dev) (o : Out) : (s.emit o).mac = s.mac := rfl
@[simp] theorem Dev.emit_que (s : Dev) (o : Out) : (s.emit o).que = s.que := rfl
@[simp] theorem Dev.emit_upd (s : Dev) (o : Out) : (s.emit o).upd = s.upd := rfl
@[simp] theorem Dev.emit_free (s : Dev) (o : Out) : (s.emit o).free = s.free := rfl
@[simp] theorem Dev.emit_todo (s : Dev) (o : Out) : (s.emit o).todo = s.todo := rfl

@[simp] theorem Dev.push_fuse (s : Dev) (x : Todo) : (s.push x).fuse = s.fuse := rfl
@[simp] theorem Dev.push_clk (s : Dev) (x : Todo) : (s.push x).clk = s.clk := rfl
@[simp] theorem Dev.push_tim (s : Dev) (x : Todo) : (s.push x).tim = s.tim := rfl
@[simp] theorem Dev.push_tdc (s : Dev) (x : Todo) : (s.push x).tdc = s.tdc := rfl
@[simp] theorem Dev.push_pll (s : Dev) (x : Todo) : (s.push x).pll = s.pll := rfl
@[simp] theorem Dev.push_caps (s : Dev) (x : Todo) : (s.push x).caps = s.caps := rfl
@[simp] theorem Dev.push_regs (s : Dev) (x : Todo) : (s.push x).regs = s.regs := rfl
@[simp] theorem Dev.push_hif (s : Dev) (x : Todo) : (s.push x).hif = s.hif := rfl
@[simp] theorem Dev.push_saf (s : Dev) (x : Todo) : (s.push x).saf = s.saf := rfl
@[simp] theorem Dev.push_flt (s : Dev) (x : Todo) : (s.push x).flt = s.flt := rfl
@[simp] theorem Dev.push_dry (s : Dev) (x : Todo) : (s.push x).dry = s.dry := rfl
@[simp] theorem Dev.push_ben (s : Dev) (x : Todo) : (s.push x).ben = s.ben := rfl
@[simp] theorem Dev.push_gov (s : Dev) (x : Todo) : (s.push x).gov = s.gov := rfl
@[simp] theorem Dev.push_par (s : Dev) (x : Todo) : (s.push x).par = s.par := rfl
@[simp] theorem Dev.push_mem (s : Dev) (x : Todo) : (s.push x).mem = s.mem := rfl
@[simp] theorem Dev.push_pad (s : Dev) (x : Todo) : (s.push x).pad = s.pad := rfl
@[simp] theorem Dev.push_axes (s : Dev) (x : Todo) : (s.push x).axes = s.axes := rfl
@[simp] theorem Dev.push_nv (s : Dev) (x : Todo) : (s.push x).nv = s.nv := rfl
@[simp] theorem Dev.push_gns (s : Dev) (x : Todo) : (s.push x).gns = s.gns := rfl
@[simp] theorem Dev.push_snp (s : Dev) (x : Todo) : (s.push x).snp = s.snp := rfl
@[simp] theorem Dev.push_frk (s : Dev) (x : Todo) : (s.push x).frk = s.frk := rfl
@[simp] theorem Dev.push_trl (s : Dev) (x : Todo) : (s.push x).trl = s.trl := rfl
@[simp] theorem Dev.push_txu (s : Dev) (x : Todo) : (s.push x).txu = s.txu := rfl
@[simp] theorem Dev.push_ctl (s : Dev) (x : Todo) : (s.push x).ctl = s.ctl := rfl
@[simp] theorem Dev.push_mac (s : Dev) (x : Todo) : (s.push x).mac = s.mac := rfl
@[simp] theorem Dev.push_que (s : Dev) (x : Todo) : (s.push x).que = s.que := rfl
@[simp] theorem Dev.push_upd (s : Dev) (x : Todo) : (s.push x).upd = s.upd := rfl
@[simp] theorem Dev.push_free (s : Dev) (x : Todo) : (s.push x).free = s.free := rfl
@[simp] theorem Dev.push_out (s : Dev) (x : Todo) : (s.push x).out = s.out := rfl

@[simp] theorem Dev.raise_fuse (s : Dev) (n : Nat) : (s.raise n).fuse = s.fuse := rfl
@[simp] theorem Dev.raise_clk (s : Dev) (n : Nat) : (s.raise n).clk = s.clk := rfl
@[simp] theorem Dev.raise_tim (s : Dev) (n : Nat) : (s.raise n).tim = s.tim := rfl
@[simp] theorem Dev.raise_tdc (s : Dev) (n : Nat) : (s.raise n).tdc = s.tdc := rfl
@[simp] theorem Dev.raise_pll (s : Dev) (n : Nat) : (s.raise n).pll = s.pll := rfl
@[simp] theorem Dev.raise_caps (s : Dev) (n : Nat) : (s.raise n).caps = s.caps := rfl
@[simp] theorem Dev.raise_regs (s : Dev) (n : Nat) : (s.raise n).regs = s.regs := rfl
@[simp] theorem Dev.raise_hif (s : Dev) (n : Nat) : (s.raise n).hif = s.hif := rfl
@[simp] theorem Dev.raise_saf (s : Dev) (n : Nat) : (s.raise n).saf = s.saf := rfl
@[simp] theorem Dev.raise_flt (s : Dev) (n : Nat) : (s.raise n).flt = s.flt := rfl
@[simp] theorem Dev.raise_dry (s : Dev) (n : Nat) : (s.raise n).dry = s.dry := rfl
@[simp] theorem Dev.raise_ben (s : Dev) (n : Nat) : (s.raise n).ben = s.ben := rfl
@[simp] theorem Dev.raise_gov (s : Dev) (n : Nat) : (s.raise n).gov = s.gov := rfl
@[simp] theorem Dev.raise_par (s : Dev) (n : Nat) : (s.raise n).par = s.par := rfl
@[simp] theorem Dev.raise_mem (s : Dev) (n : Nat) : (s.raise n).mem = s.mem := rfl
@[simp] theorem Dev.raise_pad (s : Dev) (n : Nat) : (s.raise n).pad = s.pad := rfl
@[simp] theorem Dev.raise_axes (s : Dev) (n : Nat) : (s.raise n).axes = s.axes := rfl
@[simp] theorem Dev.raise_nv (s : Dev) (n : Nat) : (s.raise n).nv = s.nv := rfl
@[simp] theorem Dev.raise_gns (s : Dev) (n : Nat) : (s.raise n).gns = s.gns := rfl
@[simp] theorem Dev.raise_snp (s : Dev) (n : Nat) : (s.raise n).snp = s.snp := rfl
@[simp] theorem Dev.raise_frk (s : Dev) (n : Nat) : (s.raise n).frk = s.frk := rfl
@[simp] theorem Dev.raise_trl (s : Dev) (n : Nat) : (s.raise n).trl = s.trl := rfl
@[simp] theorem Dev.raise_txu (s : Dev) (n : Nat) : (s.raise n).txu = s.txu := rfl
@[simp] theorem Dev.raise_ctl (s : Dev) (n : Nat) : (s.raise n).ctl = s.ctl := rfl
@[simp] theorem Dev.raise_mac (s : Dev) (n : Nat) : (s.raise n).mac = s.mac := rfl
@[simp] theorem Dev.raise_que (s : Dev) (n : Nat) : (s.raise n).que = s.que := rfl
@[simp] theorem Dev.raise_upd (s : Dev) (n : Nat) : (s.raise n).upd = s.upd := rfl
@[simp] theorem Dev.raise_free (s : Dev) (n : Nat) : (s.raise n).free = s.free := rfl
@[simp] theorem Dev.raise_out (s : Dev) (n : Nat) : (s.raise n).out = s.out := rfl

@[simp] theorem Dev.setSrc_fuse (s : Dev) (n : Nat) (x : Src) : (s.setSrc n x).fuse = s.fuse := rfl
@[simp] theorem Dev.setSrc_clk (s : Dev) (n : Nat) (x : Src) : (s.setSrc n x).clk = s.clk := rfl
@[simp] theorem Dev.setSrc_tim (s : Dev) (n : Nat) (x : Src) : (s.setSrc n x).tim = s.tim := rfl
@[simp] theorem Dev.setSrc_tdc (s : Dev) (n : Nat) (x : Src) : (s.setSrc n x).tdc = s.tdc := rfl
@[simp] theorem Dev.setSrc_pll (s : Dev) (n : Nat) (x : Src) : (s.setSrc n x).pll = s.pll := rfl
@[simp] theorem Dev.setSrc_caps (s : Dev) (n : Nat) (x : Src) : (s.setSrc n x).caps = s.caps := rfl
@[simp] theorem Dev.setSrc_regs (s : Dev) (n : Nat) (x : Src) : (s.setSrc n x).regs = s.regs := rfl
@[simp] theorem Dev.setSrc_hif (s : Dev) (n : Nat) (x : Src) : (s.setSrc n x).hif = s.hif := rfl
@[simp] theorem Dev.setSrc_saf (s : Dev) (n : Nat) (x : Src) : (s.setSrc n x).saf = s.saf := rfl
@[simp] theorem Dev.setSrc_dry (s : Dev) (n : Nat) (x : Src) : (s.setSrc n x).dry = s.dry := rfl
@[simp] theorem Dev.setSrc_ben (s : Dev) (n : Nat) (x : Src) : (s.setSrc n x).ben = s.ben := rfl
@[simp] theorem Dev.setSrc_gov (s : Dev) (n : Nat) (x : Src) : (s.setSrc n x).gov = s.gov := rfl
@[simp] theorem Dev.setSrc_par (s : Dev) (n : Nat) (x : Src) : (s.setSrc n x).par = s.par := rfl
@[simp] theorem Dev.setSrc_mem (s : Dev) (n : Nat) (x : Src) : (s.setSrc n x).mem = s.mem := rfl
@[simp] theorem Dev.setSrc_pad (s : Dev) (n : Nat) (x : Src) : (s.setSrc n x).pad = s.pad := rfl
@[simp] theorem Dev.setSrc_axes (s : Dev) (n : Nat) (x : Src) : (s.setSrc n x).axes = s.axes := rfl
@[simp] theorem Dev.setSrc_nv (s : Dev) (n : Nat) (x : Src) : (s.setSrc n x).nv = s.nv := rfl
@[simp] theorem Dev.setSrc_gns (s : Dev) (n : Nat) (x : Src) : (s.setSrc n x).gns = s.gns := rfl
@[simp] theorem Dev.setSrc_snp (s : Dev) (n : Nat) (x : Src) : (s.setSrc n x).snp = s.snp := rfl
@[simp] theorem Dev.setSrc_frk (s : Dev) (n : Nat) (x : Src) : (s.setSrc n x).frk = s.frk := rfl
@[simp] theorem Dev.setSrc_trl (s : Dev) (n : Nat) (x : Src) : (s.setSrc n x).trl = s.trl := rfl
@[simp] theorem Dev.setSrc_txu (s : Dev) (n : Nat) (x : Src) : (s.setSrc n x).txu = s.txu := rfl
@[simp] theorem Dev.setSrc_ctl (s : Dev) (n : Nat) (x : Src) : (s.setSrc n x).ctl = s.ctl := rfl
@[simp] theorem Dev.setSrc_mac (s : Dev) (n : Nat) (x : Src) : (s.setSrc n x).mac = s.mac := rfl
@[simp] theorem Dev.setSrc_que (s : Dev) (n : Nat) (x : Src) : (s.setSrc n x).que = s.que := rfl
@[simp] theorem Dev.setSrc_upd (s : Dev) (n : Nat) (x : Src) : (s.setSrc n x).upd = s.upd := rfl
@[simp] theorem Dev.setSrc_free (s : Dev) (n : Nat) (x : Src) : (s.setSrc n x).free = s.free := rfl
@[simp] theorem Dev.setSrc_todo (s : Dev) (n : Nat) (x : Src) : (s.setSrc n x).todo = s.todo := rfl
@[simp] theorem Dev.setSrc_out (s : Dev) (n : Nat) (x : Src) : (s.setSrc n x).out = s.out := rfl

@[simp] theorem Dev.setSq_fuse (s : Dev) (r : Nat) (q : Sq) : (s.setSq r q).fuse = s.fuse := rfl
@[simp] theorem Dev.setSq_clk (s : Dev) (r : Nat) (q : Sq) : (s.setSq r q).clk = s.clk := rfl
@[simp] theorem Dev.setSq_tim (s : Dev) (r : Nat) (q : Sq) : (s.setSq r q).tim = s.tim := rfl
@[simp] theorem Dev.setSq_tdc (s : Dev) (r : Nat) (q : Sq) : (s.setSq r q).tdc = s.tdc := rfl
@[simp] theorem Dev.setSq_pll (s : Dev) (r : Nat) (q : Sq) : (s.setSq r q).pll = s.pll := rfl
@[simp] theorem Dev.setSq_caps (s : Dev) (r : Nat) (q : Sq) : (s.setSq r q).caps = s.caps := rfl
@[simp] theorem Dev.setSq_regs (s : Dev) (r : Nat) (q : Sq) : (s.setSq r q).regs = s.regs := rfl
@[simp] theorem Dev.setSq_saf (s : Dev) (r : Nat) (q : Sq) : (s.setSq r q).saf = s.saf := rfl
@[simp] theorem Dev.setSq_flt (s : Dev) (r : Nat) (q : Sq) : (s.setSq r q).flt = s.flt := rfl
@[simp] theorem Dev.setSq_dry (s : Dev) (r : Nat) (q : Sq) : (s.setSq r q).dry = s.dry := rfl
@[simp] theorem Dev.setSq_ben (s : Dev) (r : Nat) (q : Sq) : (s.setSq r q).ben = s.ben := rfl
@[simp] theorem Dev.setSq_gov (s : Dev) (r : Nat) (q : Sq) : (s.setSq r q).gov = s.gov := rfl
@[simp] theorem Dev.setSq_par (s : Dev) (r : Nat) (q : Sq) : (s.setSq r q).par = s.par := rfl
@[simp] theorem Dev.setSq_mem (s : Dev) (r : Nat) (q : Sq) : (s.setSq r q).mem = s.mem := rfl
@[simp] theorem Dev.setSq_pad (s : Dev) (r : Nat) (q : Sq) : (s.setSq r q).pad = s.pad := rfl
@[simp] theorem Dev.setSq_axes (s : Dev) (r : Nat) (q : Sq) : (s.setSq r q).axes = s.axes := rfl
@[simp] theorem Dev.setSq_nv (s : Dev) (r : Nat) (q : Sq) : (s.setSq r q).nv = s.nv := rfl
@[simp] theorem Dev.setSq_gns (s : Dev) (r : Nat) (q : Sq) : (s.setSq r q).gns = s.gns := rfl
@[simp] theorem Dev.setSq_snp (s : Dev) (r : Nat) (q : Sq) : (s.setSq r q).snp = s.snp := rfl
@[simp] theorem Dev.setSq_frk (s : Dev) (r : Nat) (q : Sq) : (s.setSq r q).frk = s.frk := rfl
@[simp] theorem Dev.setSq_trl (s : Dev) (r : Nat) (q : Sq) : (s.setSq r q).trl = s.trl := rfl
@[simp] theorem Dev.setSq_txu (s : Dev) (r : Nat) (q : Sq) : (s.setSq r q).txu = s.txu := rfl
@[simp] theorem Dev.setSq_ctl (s : Dev) (r : Nat) (q : Sq) : (s.setSq r q).ctl = s.ctl := rfl
@[simp] theorem Dev.setSq_mac (s : Dev) (r : Nat) (q : Sq) : (s.setSq r q).mac = s.mac := rfl
@[simp] theorem Dev.setSq_que (s : Dev) (r : Nat) (q : Sq) : (s.setSq r q).que = s.que := rfl
@[simp] theorem Dev.setSq_upd (s : Dev) (r : Nat) (q : Sq) : (s.setSq r q).upd = s.upd := rfl
@[simp] theorem Dev.setSq_free (s : Dev) (r : Nat) (q : Sq) : (s.setSq r q).free = s.free := rfl
@[simp] theorem Dev.setSq_todo (s : Dev) (r : Nat) (q : Sq) : (s.setSq r q).todo = s.todo := rfl
@[simp] theorem Dev.setSq_out (s : Dev) (r : Nat) (q : Sq) : (s.setSq r q).out = s.out := rfl

@[simp] theorem Dev.setCq_fuse (s : Dev) (r : Nat) (q : Cq) : (s.setCq r q).fuse = s.fuse := rfl
@[simp] theorem Dev.setCq_clk (s : Dev) (r : Nat) (q : Cq) : (s.setCq r q).clk = s.clk := rfl
@[simp] theorem Dev.setCq_tim (s : Dev) (r : Nat) (q : Cq) : (s.setCq r q).tim = s.tim := rfl
@[simp] theorem Dev.setCq_tdc (s : Dev) (r : Nat) (q : Cq) : (s.setCq r q).tdc = s.tdc := rfl
@[simp] theorem Dev.setCq_pll (s : Dev) (r : Nat) (q : Cq) : (s.setCq r q).pll = s.pll := rfl
@[simp] theorem Dev.setCq_caps (s : Dev) (r : Nat) (q : Cq) : (s.setCq r q).caps = s.caps := rfl
@[simp] theorem Dev.setCq_regs (s : Dev) (r : Nat) (q : Cq) : (s.setCq r q).regs = s.regs := rfl
@[simp] theorem Dev.setCq_saf (s : Dev) (r : Nat) (q : Cq) : (s.setCq r q).saf = s.saf := rfl
@[simp] theorem Dev.setCq_flt (s : Dev) (r : Nat) (q : Cq) : (s.setCq r q).flt = s.flt := rfl
@[simp] theorem Dev.setCq_dry (s : Dev) (r : Nat) (q : Cq) : (s.setCq r q).dry = s.dry := rfl
@[simp] theorem Dev.setCq_ben (s : Dev) (r : Nat) (q : Cq) : (s.setCq r q).ben = s.ben := rfl
@[simp] theorem Dev.setCq_gov (s : Dev) (r : Nat) (q : Cq) : (s.setCq r q).gov = s.gov := rfl
@[simp] theorem Dev.setCq_par (s : Dev) (r : Nat) (q : Cq) : (s.setCq r q).par = s.par := rfl
@[simp] theorem Dev.setCq_mem (s : Dev) (r : Nat) (q : Cq) : (s.setCq r q).mem = s.mem := rfl
@[simp] theorem Dev.setCq_pad (s : Dev) (r : Nat) (q : Cq) : (s.setCq r q).pad = s.pad := rfl
@[simp] theorem Dev.setCq_axes (s : Dev) (r : Nat) (q : Cq) : (s.setCq r q).axes = s.axes := rfl
@[simp] theorem Dev.setCq_nv (s : Dev) (r : Nat) (q : Cq) : (s.setCq r q).nv = s.nv := rfl
@[simp] theorem Dev.setCq_gns (s : Dev) (r : Nat) (q : Cq) : (s.setCq r q).gns = s.gns := rfl
@[simp] theorem Dev.setCq_snp (s : Dev) (r : Nat) (q : Cq) : (s.setCq r q).snp = s.snp := rfl
@[simp] theorem Dev.setCq_frk (s : Dev) (r : Nat) (q : Cq) : (s.setCq r q).frk = s.frk := rfl
@[simp] theorem Dev.setCq_trl (s : Dev) (r : Nat) (q : Cq) : (s.setCq r q).trl = s.trl := rfl
@[simp] theorem Dev.setCq_txu (s : Dev) (r : Nat) (q : Cq) : (s.setCq r q).txu = s.txu := rfl
@[simp] theorem Dev.setCq_ctl (s : Dev) (r : Nat) (q : Cq) : (s.setCq r q).ctl = s.ctl := rfl
@[simp] theorem Dev.setCq_mac (s : Dev) (r : Nat) (q : Cq) : (s.setCq r q).mac = s.mac := rfl
@[simp] theorem Dev.setCq_que (s : Dev) (r : Nat) (q : Cq) : (s.setCq r q).que = s.que := rfl
@[simp] theorem Dev.setCq_upd (s : Dev) (r : Nat) (q : Cq) : (s.setCq r q).upd = s.upd := rfl
@[simp] theorem Dev.setCq_free (s : Dev) (r : Nat) (q : Cq) : (s.setCq r q).free = s.free := rfl
@[simp] theorem Dev.setCq_todo (s : Dev) (r : Nat) (q : Cq) : (s.setCq r q).todo = s.todo := rfl
@[simp] theorem Dev.setCq_out (s : Dev) (r : Nat) (q : Cq) : (s.setCq r q).out = s.out := rfl

@[simp] theorem Dev.setLive_fuse (s : Dev) (l : List Live) : (s.setLive l).fuse = s.fuse := rfl
@[simp] theorem Dev.setLive_clk (s : Dev) (l : List Live) : (s.setLive l).clk = s.clk := rfl
@[simp] theorem Dev.setLive_tim (s : Dev) (l : List Live) : (s.setLive l).tim = s.tim := rfl
@[simp] theorem Dev.setLive_tdc (s : Dev) (l : List Live) : (s.setLive l).tdc = s.tdc := rfl
@[simp] theorem Dev.setLive_pll (s : Dev) (l : List Live) : (s.setLive l).pll = s.pll := rfl
@[simp] theorem Dev.setLive_caps (s : Dev) (l : List Live) : (s.setLive l).caps = s.caps := rfl
@[simp] theorem Dev.setLive_regs (s : Dev) (l : List Live) : (s.setLive l).regs = s.regs := rfl
@[simp] theorem Dev.setLive_saf (s : Dev) (l : List Live) : (s.setLive l).saf = s.saf := rfl
@[simp] theorem Dev.setLive_flt (s : Dev) (l : List Live) : (s.setLive l).flt = s.flt := rfl
@[simp] theorem Dev.setLive_dry (s : Dev) (l : List Live) : (s.setLive l).dry = s.dry := rfl
@[simp] theorem Dev.setLive_ben (s : Dev) (l : List Live) : (s.setLive l).ben = s.ben := rfl
@[simp] theorem Dev.setLive_gov (s : Dev) (l : List Live) : (s.setLive l).gov = s.gov := rfl
@[simp] theorem Dev.setLive_par (s : Dev) (l : List Live) : (s.setLive l).par = s.par := rfl
@[simp] theorem Dev.setLive_mem (s : Dev) (l : List Live) : (s.setLive l).mem = s.mem := rfl
@[simp] theorem Dev.setLive_pad (s : Dev) (l : List Live) : (s.setLive l).pad = s.pad := rfl
@[simp] theorem Dev.setLive_axes (s : Dev) (l : List Live) : (s.setLive l).axes = s.axes := rfl
@[simp] theorem Dev.setLive_nv (s : Dev) (l : List Live) : (s.setLive l).nv = s.nv := rfl
@[simp] theorem Dev.setLive_gns (s : Dev) (l : List Live) : (s.setLive l).gns = s.gns := rfl
@[simp] theorem Dev.setLive_snp (s : Dev) (l : List Live) : (s.setLive l).snp = s.snp := rfl
@[simp] theorem Dev.setLive_frk (s : Dev) (l : List Live) : (s.setLive l).frk = s.frk := rfl
@[simp] theorem Dev.setLive_trl (s : Dev) (l : List Live) : (s.setLive l).trl = s.trl := rfl
@[simp] theorem Dev.setLive_txu (s : Dev) (l : List Live) : (s.setLive l).txu = s.txu := rfl
@[simp] theorem Dev.setLive_ctl (s : Dev) (l : List Live) : (s.setLive l).ctl = s.ctl := rfl
@[simp] theorem Dev.setLive_mac (s : Dev) (l : List Live) : (s.setLive l).mac = s.mac := rfl
@[simp] theorem Dev.setLive_que (s : Dev) (l : List Live) : (s.setLive l).que = s.que := rfl
@[simp] theorem Dev.setLive_upd (s : Dev) (l : List Live) : (s.setLive l).upd = s.upd := rfl
@[simp] theorem Dev.setLive_free (s : Dev) (l : List Live) : (s.setLive l).free = s.free := rfl
@[simp] theorem Dev.setLive_todo (s : Dev) (l : List Live) : (s.setLive l).todo = s.todo := rfl
@[simp] theorem Dev.setLive_out (s : Dev) (l : List Live) : (s.setLive l).out = s.out := rfl

@[simp] theorem Dev.setAxis_fuse (s : Dev) (n : Nat) (a : Axis) : (s.setAxis n a).fuse = s.fuse := rfl
@[simp] theorem Dev.setAxis_clk (s : Dev) (n : Nat) (a : Axis) : (s.setAxis n a).clk = s.clk := rfl
@[simp] theorem Dev.setAxis_tim (s : Dev) (n : Nat) (a : Axis) : (s.setAxis n a).tim = s.tim := rfl
@[simp] theorem Dev.setAxis_tdc (s : Dev) (n : Nat) (a : Axis) : (s.setAxis n a).tdc = s.tdc := rfl
@[simp] theorem Dev.setAxis_pll (s : Dev) (n : Nat) (a : Axis) : (s.setAxis n a).pll = s.pll := rfl
@[simp] theorem Dev.setAxis_caps (s : Dev) (n : Nat) (a : Axis) : (s.setAxis n a).caps = s.caps := rfl
@[simp] theorem Dev.setAxis_regs (s : Dev) (n : Nat) (a : Axis) : (s.setAxis n a).regs = s.regs := rfl
@[simp] theorem Dev.setAxis_hif (s : Dev) (n : Nat) (a : Axis) : (s.setAxis n a).hif = s.hif := rfl
@[simp] theorem Dev.setAxis_saf (s : Dev) (n : Nat) (a : Axis) : (s.setAxis n a).saf = s.saf := rfl
@[simp] theorem Dev.setAxis_flt (s : Dev) (n : Nat) (a : Axis) : (s.setAxis n a).flt = s.flt := rfl
@[simp] theorem Dev.setAxis_dry (s : Dev) (n : Nat) (a : Axis) : (s.setAxis n a).dry = s.dry := rfl
@[simp] theorem Dev.setAxis_ben (s : Dev) (n : Nat) (a : Axis) : (s.setAxis n a).ben = s.ben := rfl
@[simp] theorem Dev.setAxis_gov (s : Dev) (n : Nat) (a : Axis) : (s.setAxis n a).gov = s.gov := rfl
@[simp] theorem Dev.setAxis_par (s : Dev) (n : Nat) (a : Axis) : (s.setAxis n a).par = s.par := rfl
@[simp] theorem Dev.setAxis_mem (s : Dev) (n : Nat) (a : Axis) : (s.setAxis n a).mem = s.mem := rfl
@[simp] theorem Dev.setAxis_pad (s : Dev) (n : Nat) (a : Axis) : (s.setAxis n a).pad = s.pad := rfl
@[simp] theorem Dev.setAxis_nv (s : Dev) (n : Nat) (a : Axis) : (s.setAxis n a).nv = s.nv := rfl
@[simp] theorem Dev.setAxis_gns (s : Dev) (n : Nat) (a : Axis) : (s.setAxis n a).gns = s.gns := rfl
@[simp] theorem Dev.setAxis_snp (s : Dev) (n : Nat) (a : Axis) : (s.setAxis n a).snp = s.snp := rfl
@[simp] theorem Dev.setAxis_frk (s : Dev) (n : Nat) (a : Axis) : (s.setAxis n a).frk = s.frk := rfl
@[simp] theorem Dev.setAxis_trl (s : Dev) (n : Nat) (a : Axis) : (s.setAxis n a).trl = s.trl := rfl
@[simp] theorem Dev.setAxis_txu (s : Dev) (n : Nat) (a : Axis) : (s.setAxis n a).txu = s.txu := rfl
@[simp] theorem Dev.setAxis_ctl (s : Dev) (n : Nat) (a : Axis) : (s.setAxis n a).ctl = s.ctl := rfl
@[simp] theorem Dev.setAxis_mac (s : Dev) (n : Nat) (a : Axis) : (s.setAxis n a).mac = s.mac := rfl
@[simp] theorem Dev.setAxis_que (s : Dev) (n : Nat) (a : Axis) : (s.setAxis n a).que = s.que := rfl
@[simp] theorem Dev.setAxis_upd (s : Dev) (n : Nat) (a : Axis) : (s.setAxis n a).upd = s.upd := rfl
@[simp] theorem Dev.setAxis_free (s : Dev) (n : Nat) (a : Axis) : (s.setAxis n a).free = s.free := rfl
@[simp] theorem Dev.setAxis_todo (s : Dev) (n : Nat) (a : Axis) : (s.setAxis n a).todo = s.todo := rfl
@[simp] theorem Dev.setAxis_out (s : Dev) (n : Nat) (a : Axis) : (s.setAxis n a).out = s.out := rfl

@[simp] theorem Dev.setRec_fuse (s : Dev) (c : Nat) (r : Rec) : (s.setRec c r).fuse = s.fuse := rfl
@[simp] theorem Dev.setRec_clk (s : Dev) (c : Nat) (r : Rec) : (s.setRec c r).clk = s.clk := rfl
@[simp] theorem Dev.setRec_tim (s : Dev) (c : Nat) (r : Rec) : (s.setRec c r).tim = s.tim := rfl
@[simp] theorem Dev.setRec_tdc (s : Dev) (c : Nat) (r : Rec) : (s.setRec c r).tdc = s.tdc := rfl
@[simp] theorem Dev.setRec_pll (s : Dev) (c : Nat) (r : Rec) : (s.setRec c r).pll = s.pll := rfl
@[simp] theorem Dev.setRec_caps (s : Dev) (c : Nat) (r : Rec) : (s.setRec c r).caps = s.caps := rfl
@[simp] theorem Dev.setRec_regs (s : Dev) (c : Nat) (r : Rec) : (s.setRec c r).regs = s.regs := rfl
@[simp] theorem Dev.setRec_hif (s : Dev) (c : Nat) (r : Rec) : (s.setRec c r).hif = s.hif := rfl
@[simp] theorem Dev.setRec_saf (s : Dev) (c : Nat) (r : Rec) : (s.setRec c r).saf = s.saf := rfl
@[simp] theorem Dev.setRec_flt (s : Dev) (c : Nat) (r : Rec) : (s.setRec c r).flt = s.flt := rfl
@[simp] theorem Dev.setRec_ben (s : Dev) (c : Nat) (r : Rec) : (s.setRec c r).ben = s.ben := rfl
@[simp] theorem Dev.setRec_gov (s : Dev) (c : Nat) (r : Rec) : (s.setRec c r).gov = s.gov := rfl
@[simp] theorem Dev.setRec_par (s : Dev) (c : Nat) (r : Rec) : (s.setRec c r).par = s.par := rfl
@[simp] theorem Dev.setRec_mem (s : Dev) (c : Nat) (r : Rec) : (s.setRec c r).mem = s.mem := rfl
@[simp] theorem Dev.setRec_pad (s : Dev) (c : Nat) (r : Rec) : (s.setRec c r).pad = s.pad := rfl
@[simp] theorem Dev.setRec_axes (s : Dev) (c : Nat) (r : Rec) : (s.setRec c r).axes = s.axes := rfl
@[simp] theorem Dev.setRec_nv (s : Dev) (c : Nat) (r : Rec) : (s.setRec c r).nv = s.nv := rfl
@[simp] theorem Dev.setRec_gns (s : Dev) (c : Nat) (r : Rec) : (s.setRec c r).gns = s.gns := rfl
@[simp] theorem Dev.setRec_snp (s : Dev) (c : Nat) (r : Rec) : (s.setRec c r).snp = s.snp := rfl
@[simp] theorem Dev.setRec_frk (s : Dev) (c : Nat) (r : Rec) : (s.setRec c r).frk = s.frk := rfl
@[simp] theorem Dev.setRec_trl (s : Dev) (c : Nat) (r : Rec) : (s.setRec c r).trl = s.trl := rfl
@[simp] theorem Dev.setRec_txu (s : Dev) (c : Nat) (r : Rec) : (s.setRec c r).txu = s.txu := rfl
@[simp] theorem Dev.setRec_ctl (s : Dev) (c : Nat) (r : Rec) : (s.setRec c r).ctl = s.ctl := rfl
@[simp] theorem Dev.setRec_mac (s : Dev) (c : Nat) (r : Rec) : (s.setRec c r).mac = s.mac := rfl
@[simp] theorem Dev.setRec_que (s : Dev) (c : Nat) (r : Rec) : (s.setRec c r).que = s.que := rfl
@[simp] theorem Dev.setRec_upd (s : Dev) (c : Nat) (r : Rec) : (s.setRec c r).upd = s.upd := rfl
@[simp] theorem Dev.setRec_free (s : Dev) (c : Nat) (r : Rec) : (s.setRec c r).free = s.free := rfl
@[simp] theorem Dev.setRec_todo (s : Dev) (c : Nat) (r : Rec) : (s.setRec c r).todo = s.todo := rfl
@[simp] theorem Dev.setRec_out (s : Dev) (c : Nat) (r : Rec) : (s.setRec c r).out = s.out := rfl

@[simp] theorem Dev.setLoop_fuse (s : Dev) (n : Nat) (l : LoopSlot) : (s.setLoop n l).fuse = s.fuse := rfl
@[simp] theorem Dev.setLoop_clk (s : Dev) (n : Nat) (l : LoopSlot) : (s.setLoop n l).clk = s.clk := rfl
@[simp] theorem Dev.setLoop_tim (s : Dev) (n : Nat) (l : LoopSlot) : (s.setLoop n l).tim = s.tim := rfl
@[simp] theorem Dev.setLoop_tdc (s : Dev) (n : Nat) (l : LoopSlot) : (s.setLoop n l).tdc = s.tdc := rfl
@[simp] theorem Dev.setLoop_pll (s : Dev) (n : Nat) (l : LoopSlot) : (s.setLoop n l).pll = s.pll := rfl
@[simp] theorem Dev.setLoop_caps (s : Dev) (n : Nat) (l : LoopSlot) : (s.setLoop n l).caps = s.caps := rfl
@[simp] theorem Dev.setLoop_regs (s : Dev) (n : Nat) (l : LoopSlot) : (s.setLoop n l).regs = s.regs := rfl
@[simp] theorem Dev.setLoop_hif (s : Dev) (n : Nat) (l : LoopSlot) : (s.setLoop n l).hif = s.hif := rfl
@[simp] theorem Dev.setLoop_saf (s : Dev) (n : Nat) (l : LoopSlot) : (s.setLoop n l).saf = s.saf := rfl
@[simp] theorem Dev.setLoop_flt (s : Dev) (n : Nat) (l : LoopSlot) : (s.setLoop n l).flt = s.flt := rfl
@[simp] theorem Dev.setLoop_dry (s : Dev) (n : Nat) (l : LoopSlot) : (s.setLoop n l).dry = s.dry := rfl
@[simp] theorem Dev.setLoop_ben (s : Dev) (n : Nat) (l : LoopSlot) : (s.setLoop n l).ben = s.ben := rfl
@[simp] theorem Dev.setLoop_gov (s : Dev) (n : Nat) (l : LoopSlot) : (s.setLoop n l).gov = s.gov := rfl
@[simp] theorem Dev.setLoop_par (s : Dev) (n : Nat) (l : LoopSlot) : (s.setLoop n l).par = s.par := rfl
@[simp] theorem Dev.setLoop_mem (s : Dev) (n : Nat) (l : LoopSlot) : (s.setLoop n l).mem = s.mem := rfl
@[simp] theorem Dev.setLoop_pad (s : Dev) (n : Nat) (l : LoopSlot) : (s.setLoop n l).pad = s.pad := rfl
@[simp] theorem Dev.setLoop_axes (s : Dev) (n : Nat) (l : LoopSlot) : (s.setLoop n l).axes = s.axes := rfl
@[simp] theorem Dev.setLoop_nv (s : Dev) (n : Nat) (l : LoopSlot) : (s.setLoop n l).nv = s.nv := rfl
@[simp] theorem Dev.setLoop_gns (s : Dev) (n : Nat) (l : LoopSlot) : (s.setLoop n l).gns = s.gns := rfl
@[simp] theorem Dev.setLoop_snp (s : Dev) (n : Nat) (l : LoopSlot) : (s.setLoop n l).snp = s.snp := rfl
@[simp] theorem Dev.setLoop_frk (s : Dev) (n : Nat) (l : LoopSlot) : (s.setLoop n l).frk = s.frk := rfl
@[simp] theorem Dev.setLoop_trl (s : Dev) (n : Nat) (l : LoopSlot) : (s.setLoop n l).trl = s.trl := rfl
@[simp] theorem Dev.setLoop_txu (s : Dev) (n : Nat) (l : LoopSlot) : (s.setLoop n l).txu = s.txu := rfl
@[simp] theorem Dev.setLoop_mac (s : Dev) (n : Nat) (l : LoopSlot) : (s.setLoop n l).mac = s.mac := rfl
@[simp] theorem Dev.setLoop_que (s : Dev) (n : Nat) (l : LoopSlot) : (s.setLoop n l).que = s.que := rfl
@[simp] theorem Dev.setLoop_upd (s : Dev) (n : Nat) (l : LoopSlot) : (s.setLoop n l).upd = s.upd := rfl
@[simp] theorem Dev.setLoop_free (s : Dev) (n : Nat) (l : LoopSlot) : (s.setLoop n l).free = s.free := rfl
@[simp] theorem Dev.setLoop_todo (s : Dev) (n : Nat) (l : LoopSlot) : (s.setLoop n l).todo = s.todo := rfl
@[simp] theorem Dev.setLoop_out (s : Dev) (n : Nat) (l : LoopSlot) : (s.setLoop n l).out = s.out := rfl

@[simp] theorem Dev.setLease_fuse (s : Dev) (i : Nat) (l : Lease) : (s.setLease i l).fuse = s.fuse := rfl
@[simp] theorem Dev.setLease_clk (s : Dev) (i : Nat) (l : Lease) : (s.setLease i l).clk = s.clk := rfl
@[simp] theorem Dev.setLease_tim (s : Dev) (i : Nat) (l : Lease) : (s.setLease i l).tim = s.tim := rfl
@[simp] theorem Dev.setLease_tdc (s : Dev) (i : Nat) (l : Lease) : (s.setLease i l).tdc = s.tdc := rfl
@[simp] theorem Dev.setLease_pll (s : Dev) (i : Nat) (l : Lease) : (s.setLease i l).pll = s.pll := rfl
@[simp] theorem Dev.setLease_caps (s : Dev) (i : Nat) (l : Lease) : (s.setLease i l).caps = s.caps := rfl
@[simp] theorem Dev.setLease_regs (s : Dev) (i : Nat) (l : Lease) : (s.setLease i l).regs = s.regs := rfl
@[simp] theorem Dev.setLease_hif (s : Dev) (i : Nat) (l : Lease) : (s.setLease i l).hif = s.hif := rfl
@[simp] theorem Dev.setLease_saf (s : Dev) (i : Nat) (l : Lease) : (s.setLease i l).saf = s.saf := rfl
@[simp] theorem Dev.setLease_flt (s : Dev) (i : Nat) (l : Lease) : (s.setLease i l).flt = s.flt := rfl
@[simp] theorem Dev.setLease_dry (s : Dev) (i : Nat) (l : Lease) : (s.setLease i l).dry = s.dry := rfl
@[simp] theorem Dev.setLease_ben (s : Dev) (i : Nat) (l : Lease) : (s.setLease i l).ben = s.ben := rfl
@[simp] theorem Dev.setLease_gov (s : Dev) (i : Nat) (l : Lease) : (s.setLease i l).gov = s.gov := rfl
@[simp] theorem Dev.setLease_par (s : Dev) (i : Nat) (l : Lease) : (s.setLease i l).par = s.par := rfl
@[simp] theorem Dev.setLease_mem (s : Dev) (i : Nat) (l : Lease) : (s.setLease i l).mem = s.mem := rfl
@[simp] theorem Dev.setLease_pad (s : Dev) (i : Nat) (l : Lease) : (s.setLease i l).pad = s.pad := rfl
@[simp] theorem Dev.setLease_axes (s : Dev) (i : Nat) (l : Lease) : (s.setLease i l).axes = s.axes := rfl
@[simp] theorem Dev.setLease_nv (s : Dev) (i : Nat) (l : Lease) : (s.setLease i l).nv = s.nv := rfl
@[simp] theorem Dev.setLease_gns (s : Dev) (i : Nat) (l : Lease) : (s.setLease i l).gns = s.gns := rfl
@[simp] theorem Dev.setLease_snp (s : Dev) (i : Nat) (l : Lease) : (s.setLease i l).snp = s.snp := rfl
@[simp] theorem Dev.setLease_frk (s : Dev) (i : Nat) (l : Lease) : (s.setLease i l).frk = s.frk := rfl
@[simp] theorem Dev.setLease_trl (s : Dev) (i : Nat) (l : Lease) : (s.setLease i l).trl = s.trl := rfl
@[simp] theorem Dev.setLease_ctl (s : Dev) (i : Nat) (l : Lease) : (s.setLease i l).ctl = s.ctl := rfl
@[simp] theorem Dev.setLease_mac (s : Dev) (i : Nat) (l : Lease) : (s.setLease i l).mac = s.mac := rfl
@[simp] theorem Dev.setLease_que (s : Dev) (i : Nat) (l : Lease) : (s.setLease i l).que = s.que := rfl
@[simp] theorem Dev.setLease_upd (s : Dev) (i : Nat) (l : Lease) : (s.setLease i l).upd = s.upd := rfl
@[simp] theorem Dev.setLease_free (s : Dev) (i : Nat) (l : Lease) : (s.setLease i l).free = s.free := rfl
@[simp] theorem Dev.setLease_todo (s : Dev) (i : Nat) (l : Lease) : (s.setLease i l).todo = s.todo := rfl
@[simp] theorem Dev.setLease_out (s : Dev) (i : Nat) (l : Lease) : (s.setLease i l).out = s.out := rfl

@[simp] theorem Dev.setRob_fuse (s : Dev) (i : Nat) (r : TrlRobot) : (s.setRob i r).fuse = s.fuse := rfl
@[simp] theorem Dev.setRob_clk (s : Dev) (i : Nat) (r : TrlRobot) : (s.setRob i r).clk = s.clk := rfl
@[simp] theorem Dev.setRob_tim (s : Dev) (i : Nat) (r : TrlRobot) : (s.setRob i r).tim = s.tim := rfl
@[simp] theorem Dev.setRob_tdc (s : Dev) (i : Nat) (r : TrlRobot) : (s.setRob i r).tdc = s.tdc := rfl
@[simp] theorem Dev.setRob_pll (s : Dev) (i : Nat) (r : TrlRobot) : (s.setRob i r).pll = s.pll := rfl
@[simp] theorem Dev.setRob_caps (s : Dev) (i : Nat) (r : TrlRobot) : (s.setRob i r).caps = s.caps := rfl
@[simp] theorem Dev.setRob_regs (s : Dev) (i : Nat) (r : TrlRobot) : (s.setRob i r).regs = s.regs := rfl
@[simp] theorem Dev.setRob_hif (s : Dev) (i : Nat) (r : TrlRobot) : (s.setRob i r).hif = s.hif := rfl
@[simp] theorem Dev.setRob_saf (s : Dev) (i : Nat) (r : TrlRobot) : (s.setRob i r).saf = s.saf := rfl
@[simp] theorem Dev.setRob_flt (s : Dev) (i : Nat) (r : TrlRobot) : (s.setRob i r).flt = s.flt := rfl
@[simp] theorem Dev.setRob_dry (s : Dev) (i : Nat) (r : TrlRobot) : (s.setRob i r).dry = s.dry := rfl
@[simp] theorem Dev.setRob_ben (s : Dev) (i : Nat) (r : TrlRobot) : (s.setRob i r).ben = s.ben := rfl
@[simp] theorem Dev.setRob_gov (s : Dev) (i : Nat) (r : TrlRobot) : (s.setRob i r).gov = s.gov := rfl
@[simp] theorem Dev.setRob_par (s : Dev) (i : Nat) (r : TrlRobot) : (s.setRob i r).par = s.par := rfl
@[simp] theorem Dev.setRob_mem (s : Dev) (i : Nat) (r : TrlRobot) : (s.setRob i r).mem = s.mem := rfl
@[simp] theorem Dev.setRob_pad (s : Dev) (i : Nat) (r : TrlRobot) : (s.setRob i r).pad = s.pad := rfl
@[simp] theorem Dev.setRob_axes (s : Dev) (i : Nat) (r : TrlRobot) : (s.setRob i r).axes = s.axes := rfl
@[simp] theorem Dev.setRob_nv (s : Dev) (i : Nat) (r : TrlRobot) : (s.setRob i r).nv = s.nv := rfl
@[simp] theorem Dev.setRob_gns (s : Dev) (i : Nat) (r : TrlRobot) : (s.setRob i r).gns = s.gns := rfl
@[simp] theorem Dev.setRob_snp (s : Dev) (i : Nat) (r : TrlRobot) : (s.setRob i r).snp = s.snp := rfl
@[simp] theorem Dev.setRob_frk (s : Dev) (i : Nat) (r : TrlRobot) : (s.setRob i r).frk = s.frk := rfl
@[simp] theorem Dev.setRob_txu (s : Dev) (i : Nat) (r : TrlRobot) : (s.setRob i r).txu = s.txu := rfl
@[simp] theorem Dev.setRob_ctl (s : Dev) (i : Nat) (r : TrlRobot) : (s.setRob i r).ctl = s.ctl := rfl
@[simp] theorem Dev.setRob_mac (s : Dev) (i : Nat) (r : TrlRobot) : (s.setRob i r).mac = s.mac := rfl
@[simp] theorem Dev.setRob_que (s : Dev) (i : Nat) (r : TrlRobot) : (s.setRob i r).que = s.que := rfl
@[simp] theorem Dev.setRob_upd (s : Dev) (i : Nat) (r : TrlRobot) : (s.setRob i r).upd = s.upd := rfl
@[simp] theorem Dev.setRob_free (s : Dev) (i : Nat) (r : TrlRobot) : (s.setRob i r).free = s.free := rfl
@[simp] theorem Dev.setRob_todo (s : Dev) (i : Nat) (r : TrlRobot) : (s.setRob i r).todo = s.todo := rfl
@[simp] theorem Dev.setRob_out (s : Dev) (i : Nat) (r : TrlRobot) : (s.setRob i r).out = s.out := rfl

@[simp] theorem Dev.setTask_fuse (s : Dev) (i : Nat) (k : Task) : (s.setTask i k).fuse = s.fuse := rfl
@[simp] theorem Dev.setTask_clk (s : Dev) (i : Nat) (k : Task) : (s.setTask i k).clk = s.clk := rfl
@[simp] theorem Dev.setTask_tim (s : Dev) (i : Nat) (k : Task) : (s.setTask i k).tim = s.tim := rfl
@[simp] theorem Dev.setTask_tdc (s : Dev) (i : Nat) (k : Task) : (s.setTask i k).tdc = s.tdc := rfl
@[simp] theorem Dev.setTask_pll (s : Dev) (i : Nat) (k : Task) : (s.setTask i k).pll = s.pll := rfl
@[simp] theorem Dev.setTask_caps (s : Dev) (i : Nat) (k : Task) : (s.setTask i k).caps = s.caps := rfl
@[simp] theorem Dev.setTask_regs (s : Dev) (i : Nat) (k : Task) : (s.setTask i k).regs = s.regs := rfl
@[simp] theorem Dev.setTask_hif (s : Dev) (i : Nat) (k : Task) : (s.setTask i k).hif = s.hif := rfl
@[simp] theorem Dev.setTask_saf (s : Dev) (i : Nat) (k : Task) : (s.setTask i k).saf = s.saf := rfl
@[simp] theorem Dev.setTask_flt (s : Dev) (i : Nat) (k : Task) : (s.setTask i k).flt = s.flt := rfl
@[simp] theorem Dev.setTask_dry (s : Dev) (i : Nat) (k : Task) : (s.setTask i k).dry = s.dry := rfl
@[simp] theorem Dev.setTask_ben (s : Dev) (i : Nat) (k : Task) : (s.setTask i k).ben = s.ben := rfl
@[simp] theorem Dev.setTask_gov (s : Dev) (i : Nat) (k : Task) : (s.setTask i k).gov = s.gov := rfl
@[simp] theorem Dev.setTask_par (s : Dev) (i : Nat) (k : Task) : (s.setTask i k).par = s.par := rfl
@[simp] theorem Dev.setTask_mem (s : Dev) (i : Nat) (k : Task) : (s.setTask i k).mem = s.mem := rfl
@[simp] theorem Dev.setTask_pad (s : Dev) (i : Nat) (k : Task) : (s.setTask i k).pad = s.pad := rfl
@[simp] theorem Dev.setTask_axes (s : Dev) (i : Nat) (k : Task) : (s.setTask i k).axes = s.axes := rfl
@[simp] theorem Dev.setTask_nv (s : Dev) (i : Nat) (k : Task) : (s.setTask i k).nv = s.nv := rfl
@[simp] theorem Dev.setTask_gns (s : Dev) (i : Nat) (k : Task) : (s.setTask i k).gns = s.gns := rfl
@[simp] theorem Dev.setTask_snp (s : Dev) (i : Nat) (k : Task) : (s.setTask i k).snp = s.snp := rfl
@[simp] theorem Dev.setTask_frk (s : Dev) (i : Nat) (k : Task) : (s.setTask i k).frk = s.frk := rfl
@[simp] theorem Dev.setTask_trl (s : Dev) (i : Nat) (k : Task) : (s.setTask i k).trl = s.trl := rfl
@[simp] theorem Dev.setTask_ctl (s : Dev) (i : Nat) (k : Task) : (s.setTask i k).ctl = s.ctl := rfl
@[simp] theorem Dev.setTask_mac (s : Dev) (i : Nat) (k : Task) : (s.setTask i k).mac = s.mac := rfl
@[simp] theorem Dev.setTask_que (s : Dev) (i : Nat) (k : Task) : (s.setTask i k).que = s.que := rfl
@[simp] theorem Dev.setTask_upd (s : Dev) (i : Nat) (k : Task) : (s.setTask i k).upd = s.upd := rfl
@[simp] theorem Dev.setTask_free (s : Dev) (i : Nat) (k : Task) : (s.setTask i k).free = s.free := rfl
@[simp] theorem Dev.setTask_todo (s : Dev) (i : Nat) (k : Task) : (s.setTask i k).todo = s.todo := rfl
@[simp] theorem Dev.setTask_out (s : Dev) (i : Nat) (k : Task) : (s.setTask i k).out = s.out := rfl

@[simp] theorem Dev.setTxn_fuse (s : Dev) (x : Txn) : (s.setTxn x).fuse = s.fuse := rfl
@[simp] theorem Dev.setTxn_clk (s : Dev) (x : Txn) : (s.setTxn x).clk = s.clk := rfl
@[simp] theorem Dev.setTxn_tim (s : Dev) (x : Txn) : (s.setTxn x).tim = s.tim := rfl
@[simp] theorem Dev.setTxn_tdc (s : Dev) (x : Txn) : (s.setTxn x).tdc = s.tdc := rfl
@[simp] theorem Dev.setTxn_pll (s : Dev) (x : Txn) : (s.setTxn x).pll = s.pll := rfl
@[simp] theorem Dev.setTxn_caps (s : Dev) (x : Txn) : (s.setTxn x).caps = s.caps := rfl
@[simp] theorem Dev.setTxn_regs (s : Dev) (x : Txn) : (s.setTxn x).regs = s.regs := rfl
@[simp] theorem Dev.setTxn_hif (s : Dev) (x : Txn) : (s.setTxn x).hif = s.hif := rfl
@[simp] theorem Dev.setTxn_saf (s : Dev) (x : Txn) : (s.setTxn x).saf = s.saf := rfl
@[simp] theorem Dev.setTxn_flt (s : Dev) (x : Txn) : (s.setTxn x).flt = s.flt := rfl
@[simp] theorem Dev.setTxn_dry (s : Dev) (x : Txn) : (s.setTxn x).dry = s.dry := rfl
@[simp] theorem Dev.setTxn_ben (s : Dev) (x : Txn) : (s.setTxn x).ben = s.ben := rfl
@[simp] theorem Dev.setTxn_gov (s : Dev) (x : Txn) : (s.setTxn x).gov = s.gov := rfl
@[simp] theorem Dev.setTxn_par (s : Dev) (x : Txn) : (s.setTxn x).par = s.par := rfl
@[simp] theorem Dev.setTxn_mem (s : Dev) (x : Txn) : (s.setTxn x).mem = s.mem := rfl
@[simp] theorem Dev.setTxn_pad (s : Dev) (x : Txn) : (s.setTxn x).pad = s.pad := rfl
@[simp] theorem Dev.setTxn_axes (s : Dev) (x : Txn) : (s.setTxn x).axes = s.axes := rfl
@[simp] theorem Dev.setTxn_nv (s : Dev) (x : Txn) : (s.setTxn x).nv = s.nv := rfl
@[simp] theorem Dev.setTxn_gns (s : Dev) (x : Txn) : (s.setTxn x).gns = s.gns := rfl
@[simp] theorem Dev.setTxn_snp (s : Dev) (x : Txn) : (s.setTxn x).snp = s.snp := rfl
@[simp] theorem Dev.setTxn_frk (s : Dev) (x : Txn) : (s.setTxn x).frk = s.frk := rfl
@[simp] theorem Dev.setTxn_trl (s : Dev) (x : Txn) : (s.setTxn x).trl = s.trl := rfl
@[simp] theorem Dev.setTxn_ctl (s : Dev) (x : Txn) : (s.setTxn x).ctl = s.ctl := rfl
@[simp] theorem Dev.setTxn_mac (s : Dev) (x : Txn) : (s.setTxn x).mac = s.mac := rfl
@[simp] theorem Dev.setTxn_que (s : Dev) (x : Txn) : (s.setTxn x).que = s.que := rfl
@[simp] theorem Dev.setTxn_upd (s : Dev) (x : Txn) : (s.setTxn x).upd = s.upd := rfl
@[simp] theorem Dev.setTxn_free (s : Dev) (x : Txn) : (s.setTxn x).free = s.free := rfl
@[simp] theorem Dev.setTxn_todo (s : Dev) (x : Txn) : (s.setTxn x).todo = s.todo := rfl
@[simp] theorem Dev.setTxn_out (s : Dev) (x : Txn) : (s.setTxn x).out = s.out := rfl

@[simp] theorem Dev.setLane_fuse (s : Dev) (n : Nat) (l : Lane) : (s.setLane n l).fuse = s.fuse := rfl
@[simp] theorem Dev.setLane_clk (s : Dev) (n : Nat) (l : Lane) : (s.setLane n l).clk = s.clk := rfl
@[simp] theorem Dev.setLane_tim (s : Dev) (n : Nat) (l : Lane) : (s.setLane n l).tim = s.tim := rfl
@[simp] theorem Dev.setLane_tdc (s : Dev) (n : Nat) (l : Lane) : (s.setLane n l).tdc = s.tdc := rfl
@[simp] theorem Dev.setLane_pll (s : Dev) (n : Nat) (l : Lane) : (s.setLane n l).pll = s.pll := rfl
@[simp] theorem Dev.setLane_caps (s : Dev) (n : Nat) (l : Lane) : (s.setLane n l).caps = s.caps := rfl
@[simp] theorem Dev.setLane_regs (s : Dev) (n : Nat) (l : Lane) : (s.setLane n l).regs = s.regs := rfl
@[simp] theorem Dev.setLane_hif (s : Dev) (n : Nat) (l : Lane) : (s.setLane n l).hif = s.hif := rfl
@[simp] theorem Dev.setLane_saf (s : Dev) (n : Nat) (l : Lane) : (s.setLane n l).saf = s.saf := rfl
@[simp] theorem Dev.setLane_flt (s : Dev) (n : Nat) (l : Lane) : (s.setLane n l).flt = s.flt := rfl
@[simp] theorem Dev.setLane_dry (s : Dev) (n : Nat) (l : Lane) : (s.setLane n l).dry = s.dry := rfl
@[simp] theorem Dev.setLane_ben (s : Dev) (n : Nat) (l : Lane) : (s.setLane n l).ben = s.ben := rfl
@[simp] theorem Dev.setLane_gov (s : Dev) (n : Nat) (l : Lane) : (s.setLane n l).gov = s.gov := rfl
@[simp] theorem Dev.setLane_par (s : Dev) (n : Nat) (l : Lane) : (s.setLane n l).par = s.par := rfl
@[simp] theorem Dev.setLane_mem (s : Dev) (n : Nat) (l : Lane) : (s.setLane n l).mem = s.mem := rfl
@[simp] theorem Dev.setLane_pad (s : Dev) (n : Nat) (l : Lane) : (s.setLane n l).pad = s.pad := rfl
@[simp] theorem Dev.setLane_axes (s : Dev) (n : Nat) (l : Lane) : (s.setLane n l).axes = s.axes := rfl
@[simp] theorem Dev.setLane_nv (s : Dev) (n : Nat) (l : Lane) : (s.setLane n l).nv = s.nv := rfl
@[simp] theorem Dev.setLane_gns (s : Dev) (n : Nat) (l : Lane) : (s.setLane n l).gns = s.gns := rfl
@[simp] theorem Dev.setLane_snp (s : Dev) (n : Nat) (l : Lane) : (s.setLane n l).snp = s.snp := rfl
@[simp] theorem Dev.setLane_frk (s : Dev) (n : Nat) (l : Lane) : (s.setLane n l).frk = s.frk := rfl
@[simp] theorem Dev.setLane_trl (s : Dev) (n : Nat) (l : Lane) : (s.setLane n l).trl = s.trl := rfl
@[simp] theorem Dev.setLane_txu (s : Dev) (n : Nat) (l : Lane) : (s.setLane n l).txu = s.txu := rfl
@[simp] theorem Dev.setLane_ctl (s : Dev) (n : Nat) (l : Lane) : (s.setLane n l).ctl = s.ctl := rfl
@[simp] theorem Dev.setLane_que (s : Dev) (n : Nat) (l : Lane) : (s.setLane n l).que = s.que := rfl
@[simp] theorem Dev.setLane_upd (s : Dev) (n : Nat) (l : Lane) : (s.setLane n l).upd = s.upd := rfl
@[simp] theorem Dev.setLane_free (s : Dev) (n : Nat) (l : Lane) : (s.setLane n l).free = s.free := rfl
@[simp] theorem Dev.setLane_todo (s : Dev) (n : Nat) (l : Lane) : (s.setLane n l).todo = s.todo := rfl
@[simp] theorem Dev.setLane_out (s : Dev) (n : Nat) (l : Lane) : (s.setLane n l).out = s.out := rfl

@[simp] theorem Dev.putQueue_fuse (s : Dev) (q : Nat) (x : Queue) : (s.putQueue q x).fuse = s.fuse := rfl
@[simp] theorem Dev.putQueue_clk (s : Dev) (q : Nat) (x : Queue) : (s.putQueue q x).clk = s.clk := rfl
@[simp] theorem Dev.putQueue_tim (s : Dev) (q : Nat) (x : Queue) : (s.putQueue q x).tim = s.tim := rfl
@[simp] theorem Dev.putQueue_tdc (s : Dev) (q : Nat) (x : Queue) : (s.putQueue q x).tdc = s.tdc := rfl
@[simp] theorem Dev.putQueue_pll (s : Dev) (q : Nat) (x : Queue) : (s.putQueue q x).pll = s.pll := rfl
@[simp] theorem Dev.putQueue_caps (s : Dev) (q : Nat) (x : Queue) : (s.putQueue q x).caps = s.caps := rfl
@[simp] theorem Dev.putQueue_regs (s : Dev) (q : Nat) (x : Queue) : (s.putQueue q x).regs = s.regs := rfl
@[simp] theorem Dev.putQueue_hif (s : Dev) (q : Nat) (x : Queue) : (s.putQueue q x).hif = s.hif := rfl
@[simp] theorem Dev.putQueue_saf (s : Dev) (q : Nat) (x : Queue) : (s.putQueue q x).saf = s.saf := rfl
@[simp] theorem Dev.putQueue_flt (s : Dev) (q : Nat) (x : Queue) : (s.putQueue q x).flt = s.flt := rfl
@[simp] theorem Dev.putQueue_dry (s : Dev) (q : Nat) (x : Queue) : (s.putQueue q x).dry = s.dry := rfl
@[simp] theorem Dev.putQueue_ben (s : Dev) (q : Nat) (x : Queue) : (s.putQueue q x).ben = s.ben := rfl
@[simp] theorem Dev.putQueue_gov (s : Dev) (q : Nat) (x : Queue) : (s.putQueue q x).gov = s.gov := rfl
@[simp] theorem Dev.putQueue_par (s : Dev) (q : Nat) (x : Queue) : (s.putQueue q x).par = s.par := rfl
@[simp] theorem Dev.putQueue_mem (s : Dev) (q : Nat) (x : Queue) : (s.putQueue q x).mem = s.mem := rfl
@[simp] theorem Dev.putQueue_pad (s : Dev) (q : Nat) (x : Queue) : (s.putQueue q x).pad = s.pad := rfl
@[simp] theorem Dev.putQueue_axes (s : Dev) (q : Nat) (x : Queue) : (s.putQueue q x).axes = s.axes := rfl
@[simp] theorem Dev.putQueue_nv (s : Dev) (q : Nat) (x : Queue) : (s.putQueue q x).nv = s.nv := rfl
@[simp] theorem Dev.putQueue_gns (s : Dev) (q : Nat) (x : Queue) : (s.putQueue q x).gns = s.gns := rfl
@[simp] theorem Dev.putQueue_snp (s : Dev) (q : Nat) (x : Queue) : (s.putQueue q x).snp = s.snp := rfl
@[simp] theorem Dev.putQueue_frk (s : Dev) (q : Nat) (x : Queue) : (s.putQueue q x).frk = s.frk := rfl
@[simp] theorem Dev.putQueue_trl (s : Dev) (q : Nat) (x : Queue) : (s.putQueue q x).trl = s.trl := rfl
@[simp] theorem Dev.putQueue_txu (s : Dev) (q : Nat) (x : Queue) : (s.putQueue q x).txu = s.txu := rfl
@[simp] theorem Dev.putQueue_ctl (s : Dev) (q : Nat) (x : Queue) : (s.putQueue q x).ctl = s.ctl := rfl
@[simp] theorem Dev.putQueue_mac (s : Dev) (q : Nat) (x : Queue) : (s.putQueue q x).mac = s.mac := rfl
@[simp] theorem Dev.putQueue_upd (s : Dev) (q : Nat) (x : Queue) : (s.putQueue q x).upd = s.upd := rfl
@[simp] theorem Dev.putQueue_free (s : Dev) (q : Nat) (x : Queue) : (s.putQueue q x).free = s.free := rfl
@[simp] theorem Dev.putQueue_todo (s : Dev) (q : Nat) (x : Queue) : (s.putQueue q x).todo = s.todo := rfl
@[simp] theorem Dev.putQueue_out (s : Dev) (q : Nat) (x : Queue) : (s.putQueue q x).out = s.out := rfl

@[simp] theorem Dev.setFrkSlot_fuse (s : Dev) (i : Nat) (x : FrkSlot) : (s.setFrkSlot i x).fuse = s.fuse := rfl
@[simp] theorem Dev.setFrkSlot_clk (s : Dev) (i : Nat) (x : FrkSlot) : (s.setFrkSlot i x).clk = s.clk := rfl
@[simp] theorem Dev.setFrkSlot_tim (s : Dev) (i : Nat) (x : FrkSlot) : (s.setFrkSlot i x).tim = s.tim := rfl
@[simp] theorem Dev.setFrkSlot_tdc (s : Dev) (i : Nat) (x : FrkSlot) : (s.setFrkSlot i x).tdc = s.tdc := rfl
@[simp] theorem Dev.setFrkSlot_pll (s : Dev) (i : Nat) (x : FrkSlot) : (s.setFrkSlot i x).pll = s.pll := rfl
@[simp] theorem Dev.setFrkSlot_caps (s : Dev) (i : Nat) (x : FrkSlot) : (s.setFrkSlot i x).caps = s.caps := rfl
@[simp] theorem Dev.setFrkSlot_regs (s : Dev) (i : Nat) (x : FrkSlot) : (s.setFrkSlot i x).regs = s.regs := rfl
@[simp] theorem Dev.setFrkSlot_hif (s : Dev) (i : Nat) (x : FrkSlot) : (s.setFrkSlot i x).hif = s.hif := rfl
@[simp] theorem Dev.setFrkSlot_saf (s : Dev) (i : Nat) (x : FrkSlot) : (s.setFrkSlot i x).saf = s.saf := rfl
@[simp] theorem Dev.setFrkSlot_flt (s : Dev) (i : Nat) (x : FrkSlot) : (s.setFrkSlot i x).flt = s.flt := rfl
@[simp] theorem Dev.setFrkSlot_dry (s : Dev) (i : Nat) (x : FrkSlot) : (s.setFrkSlot i x).dry = s.dry := rfl
@[simp] theorem Dev.setFrkSlot_ben (s : Dev) (i : Nat) (x : FrkSlot) : (s.setFrkSlot i x).ben = s.ben := rfl
@[simp] theorem Dev.setFrkSlot_gov (s : Dev) (i : Nat) (x : FrkSlot) : (s.setFrkSlot i x).gov = s.gov := rfl
@[simp] theorem Dev.setFrkSlot_par (s : Dev) (i : Nat) (x : FrkSlot) : (s.setFrkSlot i x).par = s.par := rfl
@[simp] theorem Dev.setFrkSlot_mem (s : Dev) (i : Nat) (x : FrkSlot) : (s.setFrkSlot i x).mem = s.mem := rfl
@[simp] theorem Dev.setFrkSlot_pad (s : Dev) (i : Nat) (x : FrkSlot) : (s.setFrkSlot i x).pad = s.pad := rfl
@[simp] theorem Dev.setFrkSlot_axes (s : Dev) (i : Nat) (x : FrkSlot) : (s.setFrkSlot i x).axes = s.axes := rfl
@[simp] theorem Dev.setFrkSlot_nv (s : Dev) (i : Nat) (x : FrkSlot) : (s.setFrkSlot i x).nv = s.nv := rfl
@[simp] theorem Dev.setFrkSlot_gns (s : Dev) (i : Nat) (x : FrkSlot) : (s.setFrkSlot i x).gns = s.gns := rfl
@[simp] theorem Dev.setFrkSlot_snp (s : Dev) (i : Nat) (x : FrkSlot) : (s.setFrkSlot i x).snp = s.snp := rfl
@[simp] theorem Dev.setFrkSlot_trl (s : Dev) (i : Nat) (x : FrkSlot) : (s.setFrkSlot i x).trl = s.trl := rfl
@[simp] theorem Dev.setFrkSlot_txu (s : Dev) (i : Nat) (x : FrkSlot) : (s.setFrkSlot i x).txu = s.txu := rfl
@[simp] theorem Dev.setFrkSlot_ctl (s : Dev) (i : Nat) (x : FrkSlot) : (s.setFrkSlot i x).ctl = s.ctl := rfl
@[simp] theorem Dev.setFrkSlot_mac (s : Dev) (i : Nat) (x : FrkSlot) : (s.setFrkSlot i x).mac = s.mac := rfl
@[simp] theorem Dev.setFrkSlot_que (s : Dev) (i : Nat) (x : FrkSlot) : (s.setFrkSlot i x).que = s.que := rfl
@[simp] theorem Dev.setFrkSlot_upd (s : Dev) (i : Nat) (x : FrkSlot) : (s.setFrkSlot i x).upd = s.upd := rfl
@[simp] theorem Dev.setFrkSlot_free (s : Dev) (i : Nat) (x : FrkSlot) : (s.setFrkSlot i x).free = s.free := rfl
@[simp] theorem Dev.setFrkSlot_todo (s : Dev) (i : Nat) (x : FrkSlot) : (s.setFrkSlot i x).todo = s.todo := rfl
@[simp] theorem Dev.setFrkSlot_out (s : Dev) (i : Nat) (x : FrkSlot) : (s.setFrkSlot i x).out = s.out := rfl

@[simp] theorem Dev.setRover_fuse (s : Dev) (i : Nat) (x : Rover) : (s.setRover i x).fuse = s.fuse := rfl
@[simp] theorem Dev.setRover_clk (s : Dev) (i : Nat) (x : Rover) : (s.setRover i x).clk = s.clk := rfl
@[simp] theorem Dev.setRover_tim (s : Dev) (i : Nat) (x : Rover) : (s.setRover i x).tim = s.tim := rfl
@[simp] theorem Dev.setRover_tdc (s : Dev) (i : Nat) (x : Rover) : (s.setRover i x).tdc = s.tdc := rfl
@[simp] theorem Dev.setRover_pll (s : Dev) (i : Nat) (x : Rover) : (s.setRover i x).pll = s.pll := rfl
@[simp] theorem Dev.setRover_caps (s : Dev) (i : Nat) (x : Rover) : (s.setRover i x).caps = s.caps := rfl
@[simp] theorem Dev.setRover_regs (s : Dev) (i : Nat) (x : Rover) : (s.setRover i x).regs = s.regs := rfl
@[simp] theorem Dev.setRover_hif (s : Dev) (i : Nat) (x : Rover) : (s.setRover i x).hif = s.hif := rfl
@[simp] theorem Dev.setRover_saf (s : Dev) (i : Nat) (x : Rover) : (s.setRover i x).saf = s.saf := rfl
@[simp] theorem Dev.setRover_flt (s : Dev) (i : Nat) (x : Rover) : (s.setRover i x).flt = s.flt := rfl
@[simp] theorem Dev.setRover_dry (s : Dev) (i : Nat) (x : Rover) : (s.setRover i x).dry = s.dry := rfl
@[simp] theorem Dev.setRover_ben (s : Dev) (i : Nat) (x : Rover) : (s.setRover i x).ben = s.ben := rfl
@[simp] theorem Dev.setRover_gov (s : Dev) (i : Nat) (x : Rover) : (s.setRover i x).gov = s.gov := rfl
@[simp] theorem Dev.setRover_par (s : Dev) (i : Nat) (x : Rover) : (s.setRover i x).par = s.par := rfl
@[simp] theorem Dev.setRover_mem (s : Dev) (i : Nat) (x : Rover) : (s.setRover i x).mem = s.mem := rfl
@[simp] theorem Dev.setRover_pad (s : Dev) (i : Nat) (x : Rover) : (s.setRover i x).pad = s.pad := rfl
@[simp] theorem Dev.setRover_axes (s : Dev) (i : Nat) (x : Rover) : (s.setRover i x).axes = s.axes := rfl
@[simp] theorem Dev.setRover_nv (s : Dev) (i : Nat) (x : Rover) : (s.setRover i x).nv = s.nv := rfl
@[simp] theorem Dev.setRover_gns (s : Dev) (i : Nat) (x : Rover) : (s.setRover i x).gns = s.gns := rfl
@[simp] theorem Dev.setRover_frk (s : Dev) (i : Nat) (x : Rover) : (s.setRover i x).frk = s.frk := rfl
@[simp] theorem Dev.setRover_trl (s : Dev) (i : Nat) (x : Rover) : (s.setRover i x).trl = s.trl := rfl
@[simp] theorem Dev.setRover_txu (s : Dev) (i : Nat) (x : Rover) : (s.setRover i x).txu = s.txu := rfl
@[simp] theorem Dev.setRover_ctl (s : Dev) (i : Nat) (x : Rover) : (s.setRover i x).ctl = s.ctl := rfl
@[simp] theorem Dev.setRover_mac (s : Dev) (i : Nat) (x : Rover) : (s.setRover i x).mac = s.mac := rfl
@[simp] theorem Dev.setRover_que (s : Dev) (i : Nat) (x : Rover) : (s.setRover i x).que = s.que := rfl
@[simp] theorem Dev.setRover_upd (s : Dev) (i : Nat) (x : Rover) : (s.setRover i x).upd = s.upd := rfl
@[simp] theorem Dev.setRover_free (s : Dev) (i : Nat) (x : Rover) : (s.setRover i x).free = s.free := rfl
@[simp] theorem Dev.setRover_todo (s : Dev) (i : Nat) (x : Rover) : (s.setRover i x).todo = s.todo := rfl
@[simp] theorem Dev.setRover_out (s : Dev) (i : Nat) (x : Rover) : (s.setRover i x).out = s.out := rfl

@[simp] theorem Dev.setPort_fuse (s : Dev) (p : Nat) (x : Port) : (s.setPort p x).fuse = s.fuse := rfl
@[simp] theorem Dev.setPort_clk (s : Dev) (p : Nat) (x : Port) : (s.setPort p x).clk = s.clk := rfl
@[simp] theorem Dev.setPort_tim (s : Dev) (p : Nat) (x : Port) : (s.setPort p x).tim = s.tim := rfl
@[simp] theorem Dev.setPort_tdc (s : Dev) (p : Nat) (x : Port) : (s.setPort p x).tdc = s.tdc := rfl
@[simp] theorem Dev.setPort_pll (s : Dev) (p : Nat) (x : Port) : (s.setPort p x).pll = s.pll := rfl
@[simp] theorem Dev.setPort_caps (s : Dev) (p : Nat) (x : Port) : (s.setPort p x).caps = s.caps := rfl
@[simp] theorem Dev.setPort_regs (s : Dev) (p : Nat) (x : Port) : (s.setPort p x).regs = s.regs := rfl
@[simp] theorem Dev.setPort_hif (s : Dev) (p : Nat) (x : Port) : (s.setPort p x).hif = s.hif := rfl
@[simp] theorem Dev.setPort_saf (s : Dev) (p : Nat) (x : Port) : (s.setPort p x).saf = s.saf := rfl
@[simp] theorem Dev.setPort_flt (s : Dev) (p : Nat) (x : Port) : (s.setPort p x).flt = s.flt := rfl
@[simp] theorem Dev.setPort_dry (s : Dev) (p : Nat) (x : Port) : (s.setPort p x).dry = s.dry := rfl
@[simp] theorem Dev.setPort_ben (s : Dev) (p : Nat) (x : Port) : (s.setPort p x).ben = s.ben := rfl
@[simp] theorem Dev.setPort_gov (s : Dev) (p : Nat) (x : Port) : (s.setPort p x).gov = s.gov := rfl
@[simp] theorem Dev.setPort_par (s : Dev) (p : Nat) (x : Port) : (s.setPort p x).par = s.par := rfl
@[simp] theorem Dev.setPort_mem (s : Dev) (p : Nat) (x : Port) : (s.setPort p x).mem = s.mem := rfl
@[simp] theorem Dev.setPort_pad (s : Dev) (p : Nat) (x : Port) : (s.setPort p x).pad = s.pad := rfl
@[simp] theorem Dev.setPort_axes (s : Dev) (p : Nat) (x : Port) : (s.setPort p x).axes = s.axes := rfl
@[simp] theorem Dev.setPort_nv (s : Dev) (p : Nat) (x : Port) : (s.setPort p x).nv = s.nv := rfl
@[simp] theorem Dev.setPort_snp (s : Dev) (p : Nat) (x : Port) : (s.setPort p x).snp = s.snp := rfl
@[simp] theorem Dev.setPort_frk (s : Dev) (p : Nat) (x : Port) : (s.setPort p x).frk = s.frk := rfl
@[simp] theorem Dev.setPort_trl (s : Dev) (p : Nat) (x : Port) : (s.setPort p x).trl = s.trl := rfl
@[simp] theorem Dev.setPort_txu (s : Dev) (p : Nat) (x : Port) : (s.setPort p x).txu = s.txu := rfl
@[simp] theorem Dev.setPort_ctl (s : Dev) (p : Nat) (x : Port) : (s.setPort p x).ctl = s.ctl := rfl
@[simp] theorem Dev.setPort_mac (s : Dev) (p : Nat) (x : Port) : (s.setPort p x).mac = s.mac := rfl
@[simp] theorem Dev.setPort_que (s : Dev) (p : Nat) (x : Port) : (s.setPort p x).que = s.que := rfl
@[simp] theorem Dev.setPort_upd (s : Dev) (p : Nat) (x : Port) : (s.setPort p x).upd = s.upd := rfl
@[simp] theorem Dev.setPort_free (s : Dev) (p : Nat) (x : Port) : (s.setPort p x).free = s.free := rfl
@[simp] theorem Dev.setPort_todo (s : Dev) (p : Nat) (x : Port) : (s.setPort p x).todo = s.todo := rfl
@[simp] theorem Dev.setPort_out (s : Dev) (p : Nat) (x : Port) : (s.setPort p x).out = s.out := rfl

@[simp] theorem Dev.setCap_fuse (s : Dev) (n : Nat) (c : CapInput) : (s.setCap n c).fuse = s.fuse := rfl
@[simp] theorem Dev.setCap_clk (s : Dev) (n : Nat) (c : CapInput) : (s.setCap n c).clk = s.clk := rfl
@[simp] theorem Dev.setCap_tim (s : Dev) (n : Nat) (c : CapInput) : (s.setCap n c).tim = s.tim := rfl
@[simp] theorem Dev.setCap_tdc (s : Dev) (n : Nat) (c : CapInput) : (s.setCap n c).tdc = s.tdc := rfl
@[simp] theorem Dev.setCap_pll (s : Dev) (n : Nat) (c : CapInput) : (s.setCap n c).pll = s.pll := rfl
@[simp] theorem Dev.setCap_regs (s : Dev) (n : Nat) (c : CapInput) : (s.setCap n c).regs = s.regs := rfl
@[simp] theorem Dev.setCap_hif (s : Dev) (n : Nat) (c : CapInput) : (s.setCap n c).hif = s.hif := rfl
@[simp] theorem Dev.setCap_saf (s : Dev) (n : Nat) (c : CapInput) : (s.setCap n c).saf = s.saf := rfl
@[simp] theorem Dev.setCap_flt (s : Dev) (n : Nat) (c : CapInput) : (s.setCap n c).flt = s.flt := rfl
@[simp] theorem Dev.setCap_dry (s : Dev) (n : Nat) (c : CapInput) : (s.setCap n c).dry = s.dry := rfl
@[simp] theorem Dev.setCap_ben (s : Dev) (n : Nat) (c : CapInput) : (s.setCap n c).ben = s.ben := rfl
@[simp] theorem Dev.setCap_gov (s : Dev) (n : Nat) (c : CapInput) : (s.setCap n c).gov = s.gov := rfl
@[simp] theorem Dev.setCap_par (s : Dev) (n : Nat) (c : CapInput) : (s.setCap n c).par = s.par := rfl
@[simp] theorem Dev.setCap_mem (s : Dev) (n : Nat) (c : CapInput) : (s.setCap n c).mem = s.mem := rfl
@[simp] theorem Dev.setCap_pad (s : Dev) (n : Nat) (c : CapInput) : (s.setCap n c).pad = s.pad := rfl
@[simp] theorem Dev.setCap_axes (s : Dev) (n : Nat) (c : CapInput) : (s.setCap n c).axes = s.axes := rfl
@[simp] theorem Dev.setCap_nv (s : Dev) (n : Nat) (c : CapInput) : (s.setCap n c).nv = s.nv := rfl
@[simp] theorem Dev.setCap_gns (s : Dev) (n : Nat) (c : CapInput) : (s.setCap n c).gns = s.gns := rfl
@[simp] theorem Dev.setCap_snp (s : Dev) (n : Nat) (c : CapInput) : (s.setCap n c).snp = s.snp := rfl
@[simp] theorem Dev.setCap_frk (s : Dev) (n : Nat) (c : CapInput) : (s.setCap n c).frk = s.frk := rfl
@[simp] theorem Dev.setCap_trl (s : Dev) (n : Nat) (c : CapInput) : (s.setCap n c).trl = s.trl := rfl
@[simp] theorem Dev.setCap_txu (s : Dev) (n : Nat) (c : CapInput) : (s.setCap n c).txu = s.txu := rfl
@[simp] theorem Dev.setCap_ctl (s : Dev) (n : Nat) (c : CapInput) : (s.setCap n c).ctl = s.ctl := rfl
@[simp] theorem Dev.setCap_mac (s : Dev) (n : Nat) (c : CapInput) : (s.setCap n c).mac = s.mac := rfl
@[simp] theorem Dev.setCap_que (s : Dev) (n : Nat) (c : CapInput) : (s.setCap n c).que = s.que := rfl
@[simp] theorem Dev.setCap_upd (s : Dev) (n : Nat) (c : CapInput) : (s.setCap n c).upd = s.upd := rfl
@[simp] theorem Dev.setCap_free (s : Dev) (n : Nat) (c : CapInput) : (s.setCap n c).free = s.free := rfl
@[simp] theorem Dev.setCap_todo (s : Dev) (n : Nat) (c : CapInput) : (s.setCap n c).todo = s.todo := rfl
@[simp] theorem Dev.setCap_out (s : Dev) (n : Nat) (c : CapInput) : (s.setCap n c).out = s.out := rfl

@[simp] theorem Dev.setBen_fuse (s : Dev) (b : Ben) : (s.setBen b).fuse = s.fuse := rfl
@[simp] theorem Dev.setBen_clk (s : Dev) (b : Ben) : (s.setBen b).clk = s.clk := rfl
@[simp] theorem Dev.setBen_tim (s : Dev) (b : Ben) : (s.setBen b).tim = s.tim := rfl
@[simp] theorem Dev.setBen_tdc (s : Dev) (b : Ben) : (s.setBen b).tdc = s.tdc := rfl
@[simp] theorem Dev.setBen_pll (s : Dev) (b : Ben) : (s.setBen b).pll = s.pll := rfl
@[simp] theorem Dev.setBen_caps (s : Dev) (b : Ben) : (s.setBen b).caps = s.caps := rfl
@[simp] theorem Dev.setBen_regs (s : Dev) (b : Ben) : (s.setBen b).regs = s.regs := rfl
@[simp] theorem Dev.setBen_hif (s : Dev) (b : Ben) : (s.setBen b).hif = s.hif := rfl
@[simp] theorem Dev.setBen_saf (s : Dev) (b : Ben) : (s.setBen b).saf = s.saf := rfl
@[simp] theorem Dev.setBen_flt (s : Dev) (b : Ben) : (s.setBen b).flt = s.flt := rfl
@[simp] theorem Dev.setBen_dry (s : Dev) (b : Ben) : (s.setBen b).dry = s.dry := rfl
@[simp] theorem Dev.setBen_gov (s : Dev) (b : Ben) : (s.setBen b).gov = s.gov := rfl
@[simp] theorem Dev.setBen_par (s : Dev) (b : Ben) : (s.setBen b).par = s.par := rfl
@[simp] theorem Dev.setBen_mem (s : Dev) (b : Ben) : (s.setBen b).mem = s.mem := rfl
@[simp] theorem Dev.setBen_pad (s : Dev) (b : Ben) : (s.setBen b).pad = s.pad := rfl
@[simp] theorem Dev.setBen_axes (s : Dev) (b : Ben) : (s.setBen b).axes = s.axes := rfl
@[simp] theorem Dev.setBen_nv (s : Dev) (b : Ben) : (s.setBen b).nv = s.nv := rfl
@[simp] theorem Dev.setBen_gns (s : Dev) (b : Ben) : (s.setBen b).gns = s.gns := rfl
@[simp] theorem Dev.setBen_snp (s : Dev) (b : Ben) : (s.setBen b).snp = s.snp := rfl
@[simp] theorem Dev.setBen_frk (s : Dev) (b : Ben) : (s.setBen b).frk = s.frk := rfl
@[simp] theorem Dev.setBen_trl (s : Dev) (b : Ben) : (s.setBen b).trl = s.trl := rfl
@[simp] theorem Dev.setBen_txu (s : Dev) (b : Ben) : (s.setBen b).txu = s.txu := rfl
@[simp] theorem Dev.setBen_ctl (s : Dev) (b : Ben) : (s.setBen b).ctl = s.ctl := rfl
@[simp] theorem Dev.setBen_mac (s : Dev) (b : Ben) : (s.setBen b).mac = s.mac := rfl
@[simp] theorem Dev.setBen_que (s : Dev) (b : Ben) : (s.setBen b).que = s.que := rfl
@[simp] theorem Dev.setBen_upd (s : Dev) (b : Ben) : (s.setBen b).upd = s.upd := rfl
@[simp] theorem Dev.setBen_free (s : Dev) (b : Ben) : (s.setBen b).free = s.free := rfl
@[simp] theorem Dev.setBen_todo (s : Dev) (b : Ben) : (s.setBen b).todo = s.todo := rfl
@[simp] theorem Dev.setBen_out (s : Dev) (b : Ben) : (s.setBen b).out = s.out := rfl

@[simp] theorem Dev.setPrf_fuse (s : Dev) (i : Nat) (x : PrfRobot) : (s.setPrf i x).fuse = s.fuse := rfl
@[simp] theorem Dev.setPrf_clk (s : Dev) (i : Nat) (x : PrfRobot) : (s.setPrf i x).clk = s.clk := rfl
@[simp] theorem Dev.setPrf_tim (s : Dev) (i : Nat) (x : PrfRobot) : (s.setPrf i x).tim = s.tim := rfl
@[simp] theorem Dev.setPrf_tdc (s : Dev) (i : Nat) (x : PrfRobot) : (s.setPrf i x).tdc = s.tdc := rfl
@[simp] theorem Dev.setPrf_pll (s : Dev) (i : Nat) (x : PrfRobot) : (s.setPrf i x).pll = s.pll := rfl
@[simp] theorem Dev.setPrf_caps (s : Dev) (i : Nat) (x : PrfRobot) : (s.setPrf i x).caps = s.caps := rfl
@[simp] theorem Dev.setPrf_regs (s : Dev) (i : Nat) (x : PrfRobot) : (s.setPrf i x).regs = s.regs := rfl
@[simp] theorem Dev.setPrf_hif (s : Dev) (i : Nat) (x : PrfRobot) : (s.setPrf i x).hif = s.hif := rfl
@[simp] theorem Dev.setPrf_saf (s : Dev) (i : Nat) (x : PrfRobot) : (s.setPrf i x).saf = s.saf := rfl
@[simp] theorem Dev.setPrf_flt (s : Dev) (i : Nat) (x : PrfRobot) : (s.setPrf i x).flt = s.flt := rfl
@[simp] theorem Dev.setPrf_dry (s : Dev) (i : Nat) (x : PrfRobot) : (s.setPrf i x).dry = s.dry := rfl
@[simp] theorem Dev.setPrf_ben (s : Dev) (i : Nat) (x : PrfRobot) : (s.setPrf i x).ben = s.ben := rfl
@[simp] theorem Dev.setPrf_gov (s : Dev) (i : Nat) (x : PrfRobot) : (s.setPrf i x).gov = s.gov := rfl
@[simp] theorem Dev.setPrf_par (s : Dev) (i : Nat) (x : PrfRobot) : (s.setPrf i x).par = s.par := rfl
@[simp] theorem Dev.setPrf_mem (s : Dev) (i : Nat) (x : PrfRobot) : (s.setPrf i x).mem = s.mem := rfl
@[simp] theorem Dev.setPrf_pad (s : Dev) (i : Nat) (x : PrfRobot) : (s.setPrf i x).pad = s.pad := rfl
@[simp] theorem Dev.setPrf_axes (s : Dev) (i : Nat) (x : PrfRobot) : (s.setPrf i x).axes = s.axes := rfl
@[simp] theorem Dev.setPrf_nv (s : Dev) (i : Nat) (x : PrfRobot) : (s.setPrf i x).nv = s.nv := rfl
@[simp] theorem Dev.setPrf_gns (s : Dev) (i : Nat) (x : PrfRobot) : (s.setPrf i x).gns = s.gns := rfl
@[simp] theorem Dev.setPrf_snp (s : Dev) (i : Nat) (x : PrfRobot) : (s.setPrf i x).snp = s.snp := rfl
@[simp] theorem Dev.setPrf_frk (s : Dev) (i : Nat) (x : PrfRobot) : (s.setPrf i x).frk = s.frk := rfl
@[simp] theorem Dev.setPrf_trl (s : Dev) (i : Nat) (x : PrfRobot) : (s.setPrf i x).trl = s.trl := rfl
@[simp] theorem Dev.setPrf_txu (s : Dev) (i : Nat) (x : PrfRobot) : (s.setPrf i x).txu = s.txu := rfl
@[simp] theorem Dev.setPrf_mac (s : Dev) (i : Nat) (x : PrfRobot) : (s.setPrf i x).mac = s.mac := rfl
@[simp] theorem Dev.setPrf_que (s : Dev) (i : Nat) (x : PrfRobot) : (s.setPrf i x).que = s.que := rfl
@[simp] theorem Dev.setPrf_upd (s : Dev) (i : Nat) (x : PrfRobot) : (s.setPrf i x).upd = s.upd := rfl
@[simp] theorem Dev.setPrf_free (s : Dev) (i : Nat) (x : PrfRobot) : (s.setPrf i x).free = s.free := rfl
@[simp] theorem Dev.setPrf_todo (s : Dev) (i : Nat) (x : PrfRobot) : (s.setPrf i x).todo = s.todo := rfl
@[simp] theorem Dev.setPrf_out (s : Dev) (i : Nat) (x : PrfRobot) : (s.setPrf i x).out = s.out := rfl

/-! ### Reads after writes -/

@[simp] theorem Dev.atClk_clk (s : Dev) (c : Clock) : (s.atClk c).clk = c := rfl
@[simp] theorem Dev.atClk_out (s : Dev) (c : Clock) : (s.atClk c).out = [] := rfl
@[simp] theorem Dev.tick_clk (s : Dev) (n : Nat) : (s.tick n).clk = s.clk.run n := rfl
@[simp] theorem Dev.tick_out (s : Dev) (n : Nat) : (s.tick n).out = [] := rfl
@[simp] theorem Dev.begin_out (s : Dev) : s.begin.out = [] := rfl


@[simp] theorem Dev.reg_setReg (s : Dev) (o o' : Nat) (v : Reg) :
    (s.setReg o v).reg o' = if o' = o then v else s.reg o' := Tab.get_set _ _ _ _ _
theorem Dev.reg_setFld (s : Dev) (f : Fld) (v o : Nat) :
    (s.setFld f v).reg o = if o = f.1 then withField (s.reg f.1) f.2.1 f.2.2 v else s.reg o := Tab.get_set _ _ _ _ _
theorem Dev.reg_setFld_ne (s : Dev) (f : Fld) (v o : Nat) (h : o ≠ f.1) : (s.setFld f v).reg o = s.reg o :=
  Tab.get_set_ne _ _ _ _ _ h

/-- A field read after it was written. -/
theorem Dev.fld_setFld (s : Dev) (f : Fld) (v : Nat) (h : f.2.1 + f.2.2 ≤ 32) : (s.setFld f v).fld f = v % 2 ^ f.2.2 := by
  rw [Dev.fld, Dev.reg_setFld, if_pos rfl, fieldOf_withField _ _ _ _ h]

/-- A field read after a field of another register was written. -/
theorem Dev.fld_setFld_ne (s : Dev) (f g : Fld) (v : Nat) (h : g.1 ≠ f.1) : (s.setFld f v).fld g = s.fld g := by
  rw [Dev.fld, Dev.reg_setFld_ne _ _ _ _ h, Dev.fld]

/-- A field read after another field of the same register was written. -/
theorem Dev.fld_setFld_other (s : Dev) (f g : Fld) (v : Nat) (h : f.2.1 + f.2.2 ≤ 32)
    (hd : g.2.1 + g.2.2 ≤ f.2.1 ∨ f.2.1 + f.2.2 ≤ g.2.1) : (s.setFld f v).fld g = s.fld g := by
  by_cases e : g.1 = f.1
  · rw [Dev.fld, Dev.reg_setFld, if_pos e, fieldOf_withField_other _ _ _ _ _ _ h hd, Dev.fld, e]
  · exact Dev.fld_setFld_ne s f g v e

theorem Dev.fld_lt (s : Dev) (f : Fld) : s.fld f < 2 ^ f.2.2 := fieldOf_lt _ _ _

@[simp] theorem Clock.run_up (c : Clock) (n : Nat) : (c.run n).up = c.up + n := by
  by_cases h : c.hold = true <;> simp [Clock.run, h]
@[simp] theorem Dev.tick_up (s : Dev) (n : Nat) : (s.tick n).up = s.up + n := Clock.run_up s.clk n
@[simp] theorem Dev.reg_tick (s : Dev) (n o : Nat) : (s.tick n).reg o = s.reg o := rfl
@[simp] theorem Dev.fld_tick (s : Dev) (n : Nat) (f : Fld) : (s.tick n).fld f = s.fld f := rfl
@[simp] theorem Dev.flag_tick (s : Dev) (n : Nat) (f : Fld) : (s.tick n).flag f = s.flag f := rfl
@[simp] theorem Dev.reg_begin (s : Dev) (o : Nat) : s.begin.reg o = s.reg o := rfl
@[simp] theorem Dev.fld_begin (s : Dev) (f : Fld) : s.begin.fld f = s.fld f := rfl
@[simp] theorem Dev.flag_begin (s : Dev) (f : Fld) : s.begin.flag f = s.flag f := rfl

@[simp] theorem Dev.cq_setCq (s : Dev) (r r' : Nat) (q : Cq) : (s.setCq r q).cq r' = if r' = r then q else s.cq r' :=
  Tab.get_set _ _ _ _ _
@[simp] theorem Dev.sq_setSq (s : Dev) (r r' : Nat) (q : Sq) : (s.setSq r q).sq r' = if r' = r then q else s.sq r' :=
  Tab.get_set _ _ _ _ _
@[simp] theorem Dev.src_setSrc (s : Dev) (n m : Nat) (x : Src) : (s.setSrc n x).src m = if m = n then x else s.src m :=
  Tab.get_set _ _ _ _ _
@[simp] theorem Dev.axis_setAxis (s : Dev) (n m : Nat) (a : Axis) : (s.setAxis n a).axis m = if m = n then a else s.axis m :=
  Tab.get_set _ _ _ _ _
@[simp] theorem Dev.rec_setRec (s : Dev) (n m : Nat) (r : Rec) : (s.setRec n r).rec_ m = if m = n then r else s.rec_ m :=
  Tab.get_set _ _ _ _ _
@[simp] theorem Dev.loop_setLoop (s : Dev) (n m : Nat) (l : LoopSlot) : (s.setLoop n l).loop m = if m = n then l else s.loop m :=
  Tab.get_set _ _ _ _ _
@[simp] theorem Dev.lease_setLease (s : Dev) (n m : Nat) (l : Lease) :
    (s.setLease n l).lease m = if m = n then l else s.lease m := Tab.get_set _ _ _ _ _
@[simp] theorem Dev.rob_setRob (s : Dev) (n m : Nat) (l : TrlRobot) : (s.setRob n l).rob m = if m = n then l else s.rob m :=
  Tab.get_set _ _ _ _ _
@[simp] theorem Dev.task_setTask (s : Dev) (n m : Nat) (k : Task) : (s.setTask n k).task m = if m = n then k else s.task m :=
  Tab.get_set _ _ _ _ _
@[simp] theorem Dev.queue_putQueue (s : Dev) (n m : Nat) (x : Queue) :
    (s.putQueue n x).queue m = if m = n then x else s.queue m := Tab.get_set _ _ _ _ _

end Sys2Proof.Machine
end

