-- ==== Sys2Proof/Laws/Frame.lean ====
section
/-! SUPPORT. The frame of each shared operation: the areas it may change. The last one says what settling may change. -/
namespace Sys2Proof.Machine

theorem Frame.refl (c : List Area) (s : Dev) : Frame c s s := fun p _ => by cases p <;> rfl

theorem Frame.trans {c : List Area} {s t u : Dev} (h : Frame c s t) (k : Frame c t u) : Frame c s u := fun p hp => by
  have a := h p hp
  have b := k p hp
  cases p <;> exact Eq.trans b a

theorem Frame.mono {c d : List Area} {s t : Dev} (h : Frame c s t) (hc : c ⊆ d) : Frame d s t :=
  fun p hp => h p fun hm => hp (hc hm)

theorem Frame.foldl {α : Type} {c : List Area} (f : Dev → α → Dev) (h : ∀ s a, Frame c s (f s a)) (l : List α) :
    ∀ s, Frame c s (l.foldl f s) := by
  induction l with
  | nil => exact fun s => .refl c s
  | cons a l ih => exact fun s => (h s a).trans (ih (f s a))

theorem Frame.two {a b c : List Area} {s t u : Dev} (ha : a ⊆ c) (hb : b ⊆ c) (h : Frame a s t) (k : Frame b t u) :
    Frame c s u := (h.mono ha).trans (k.mono hb)

/-! ### Plain updates -/

theorem frame_setFld (s : Dev) (f : Fld) (v : Nat) : Frame [.regs] s (s.setFld f v) := fun p hp => by
  cases p <;> first | exact absurd (by decide) hp | rfl
theorem frame_setReg (s : Dev) (o : Nat) (v : Reg) : Frame [.regs] s (s.setReg o v) := fun p hp => by
  cases p <;> first | exact absurd (by decide) hp | rfl
theorem frame_push (s : Dev) (x : Todo) : Frame [.todo] s (s.push x) := fun p hp => by
  cases p <;> first | exact absurd (by decide) hp | rfl
theorem frame_emit (s : Dev) (o : Out) : Frame [.out] s (s.emit o) := fun p hp => by
  cases p <;> first | exact absurd (by decide) hp | rfl
theorem frame_setCq (s : Dev) (r : Nat) (q : Cq) : Frame [.hif] s (s.setCq r q) := fun p hp => by
  cases p <;> first | exact absurd (by decide) hp | rfl
theorem frame_setLive (s : Dev) (l : List Live) : Frame [.hif] s (s.setLive l) := fun p hp => by
  cases p <;> first | exact absurd (by decide) hp | rfl
/-! ### Rings -/

/-- What writing to the rings may change. -/
abbrev ringAreas : List Area := [.hif, .out, .todo]

theorem frame_sendMsix (s : Dev) (v : Nat) : Frame [.hif, .out] s (s.sendMsix v) := by
  unfold Dev.sendMsix; split
  · exact fun p hp => by cases p <;> first | exact absurd (by decide) hp | rfl
  · exact (frame_emit s _).mono (by decide)

theorem frame_coalesce (s : Dev) (r : Nat) : Frame [.hif, .out] s (s.coalesce r) := by
  unfold Dev.coalesce; dsimp only; split
  · exact ((frame_setCq s r _).mono (by decide)).trans (frame_sendMsix _ _)
  · exact (frame_setCq s r _).mono (by decide)

theorem frame_cqWrite (s : Dev) (r : Nat) (e : Entry) : Frame [.hif, .out] s (s.cqWrite r e) :=
  ((frame_setCq s r _).mono (by decide)).trans (frame_coalesce _ _)

theorem frame_cqLose (s : Dev) (r : Nat) : Frame [.hif] s (s.cqLose r) := frame_setCq s r _

theorem frame_cqOffer (s : Dev) (r : Nat) (e : Entry) : Frame [.hif, .out] s (s.cqOffer r e).1 := by
  unfold Dev.cqOffer; dsimp only; repeat' split
  · exact (frame_cqLose s r).mono (by decide)
  · exact frame_cqWrite s r e
  · exact (frame_setCq s r _).mono (by decide)
  · exact (frame_cqLose s r).mono (by decide)

theorem frame_raise (s : Dev) (n : Nat) : Frame [.todo] s (s.raise n) := frame_push s _

theorem frame_event (s : Dev) (c : Nat) (b : List Byte) : Frame ringAreas s (s.event c b) := by
  have h := frame_cqOffer s (s.evtCq c) (eventEntry s.nt c b)
  unfold Dev.event
  generalize s.cqOffer (s.evtCq c) (eventEntry s.nt c b) = x at h ⊢
  obtain ⟨t, l⟩ := x
  dsimp only at h ⊢; split
  · exact .two (by decide) (by decide) h (frame_raise _ _)
  · exact h.mono (by decide)

theorem frame_progress (s : Dev) (h c : Nat) (b : List Byte) : Frame ringAreas s (s.progress h c b) := by
  unfold Dev.progress; split
  · next l _ =>
    have hf := frame_cqOffer s l.cq (cmdEntry .progress l c b)
    split
    · exact .refl _ _
    · generalize s.cqOffer l.cq (cmdEntry .progress l c b) = x at hf ⊢
      obtain ⟨t, k⟩ := x
      dsimp only at hf ⊢; split
      · exact .two (by decide) (by decide) hf (frame_raise _ _)
      · exact hf.mono (by decide)
  · exact .refl _ _

theorem frame_doneRaw (s : Dev) (h c : Nat) (b : List Byte) : Frame [.hif, .out] s (s.doneRaw h c b) := by
  unfold Dev.doneRaw; dsimp only; repeat' split
  · exact (frame_setLive s _).mono (by decide)
  · exact (frame_setCq s _ _).mono (by decide)
  · exact ((frame_setLive s _).mono (by decide)).trans (frame_cqWrite _ _ _)
  · exact .two (by decide) (by decide) (frame_setLive s _) (frame_cqLose _ _)
  · exact .refl _ _

theorem frame_settleFences (n : Nat) : ∀ s : Dev, Frame [.hif, .out] s (s.settleFences n) := by
  induction n with
  | zero => exact fun s => .refl _ s
  | succ n ih =>
    intro s
    unfold Dev.settleFences
    split
    · exact (frame_doneRaw s _ _ _).trans (ih _)
    · exact .refl _ s

/-- A `DONE` changes the host interface and what left the device, nothing else. -/
theorem frame_done (s : Dev) (h c : Nat) (b : List Byte) : Frame [.hif, .out] s (s.done h c b) :=
  (frame_doneRaw s h c b).trans (frame_settleFences _ _)

theorem frame_doneOpt (s : Dev) (h : Option Nat) (c : Nat) (b : List Byte) : Frame [.hif, .out] s (s.doneOpt h c b) := by
  cases h with
  | none => exact .refl _ s
  | some h => exact frame_done s h c b

/-! ### The diary -/

theorem frame_withDry (s : Dev) (d : Dry) : Frame [.dry] s { s with dry := d } := fun p hp => by
  cases p <;> first | exact absurd (by decide) hp | rfl

theorem frame_bucket (s : Dev) (c d : Nat) : Frame [.dry] s (s.bucket c d).2 := by
  unfold Dev.bucket; split
  · exact .refl _ s
  · exact frame_withDry s _

theorem frame_setRec (s : Dev) (c : Nat) (r : Rec) : Frame [.dry] s (s.setRec c r) := frame_withDry s _

theorem frame_boxEntry (s : Dev) (c v : Nat) (i f : Bool) (d : List Byte) : Frame [.regs, .dry] s (s.boxEntry c v i f d) := by
  unfold Dev.boxEntry; split
  · exact (frame_setFld s _ _).mono (by decide)
  · exact (frame_withDry s _).mono (by decide)

theorem frame_occur (s : Dev) (c v : Nat) (i f b : Bool) (d : List Byte) : Frame [.regs, .dry] s (s.occur c v i f b d) := by
  unfold Dev.occur; split
  · exact .refl _ s
  · next k _ =>
    dsimp only; split
    · split
      · exact (frame_withDry s _).mono (by decide)
      · exact .refl _ s
    · have h := frame_bucket s k c
      generalize s.bucket k c = x at h ⊢
      obtain ⟨o, t⟩ := x
      dsimp only at h ⊢
      split
      · exact .two (b := [.regs, .dry]) (by decide) (by decide) h
          (.two (by decide) (by decide) (frame_setRec _ _ _) (frame_boxEntry _ _ _ _ _ _))
      · exact .two (by decide) (by decide) h (frame_setRec _ _ _)

theorem frame_note (s : Dev) (c v : Nat) (d : List Byte) : Frame [.regs, .dry] s (s.note c v d) := frame_occur s c v _ _ _ d

theorem frame_freeze (s : Dev) (c : Nat) : Frame [.regs, .dry] s (s.freeze c) := by
  unfold Dev.freeze; repeat' split
  · exact .two (by decide) (by decide) (frame_occur s _ _ _ _ _ _) (frame_setFld _ _ _)
  · exact .refl _ s
  · exact (frame_withDry s _).mono (by decide)

theorem frame_takeFreeze (s : Dev) : Frame [.regs, .dry, .hif, .out, .todo] s s.takeFreeze := by
  unfold Dev.takeFreeze; split
  · exact .refl _ s
  · split
    · exact (frame_withDry s _).mono (by decide)
    · exact .two (a := [.regs, .dry]) (by decide) (by decide)
        (.two (by decide) (by decide) (frame_withDry s _) (frame_occur _ _ _ _ _ _ _)) (frame_event _ _ _)

/-! ### Axes -/

theorem frame_setAxis (s : Dev) (n : Nat) (a : Axis) : Frame [.axes] s (s.setAxis n a) := fun p hp => by
  cases p <;> first | exact absurd (by decide) hp | rfl

theorem frame_axEnd (s : Dev) (n c : Nat) : Frame [.axes, .hif, .out] s (s.axEnd n c) := by
  unfold Dev.axEnd; dsimp only; split
  · exact .two (by decide) (by decide) (frame_setAxis s _ _) (frame_done _ _ _ _)
  · exact .two (by decide) (by decide) (frame_setAxis s _ _) (frame_doneOpt _ _ _ _)
  · exact (frame_setAxis s _ _).mono (by decide)

theorem frame_axLose (s : Dev) (n : Nat) : Frame [.axes, .todo] s (s.axLose n) := by
  unfold Dev.axLose; dsimp only; split
  · exact .two (by decide) (by decide) (frame_setAxis s _ _) (frame_raise _ _)
  · exact .refl _ s

theorem frame_axHard (s : Dev) (n w c : Nat) (x : AxState) : Frame [.axes, .hif, .out, .todo] s (s.axHard n w c x) := by
  have key : ∀ a : Axis, Frame [.axes, .hif, .out, .todo] s
      ((if (s.setAxis n a).axEnc n = true then s.setAxis n a else (s.setAxis n a).axLose n).axEnd n c) := fun a => by
    split
    · exact .two (by decide) (by decide) (frame_setAxis s _ _) (frame_axEnd _ _ _)
    · exact .two (a := [.axes, .todo]) (by decide) (by decide)
        (.two (by decide) (by decide) (frame_setAxis s _ _) (frame_axLose _ _)) (frame_axEnd _ _ _)
  exact key _

theorem frame_axRamp (s : Dev) (n w c : Nat) : Frame [.axes] s (s.axRamp n w c) := by
  unfold Dev.axRamp; dsimp only; split
  · exact frame_setAxis s _ _
  · exact .refl _ s

theorem frame_axSafe (s : Dev) (n : Nat) : Frame [.axes, .hif, .out, .todo] s (s.axSafe n) := by
  unfold Dev.axSafe; dsimp only; split
  · exact (frame_setAxis s _ _).mono (by decide)
  · exact frame_axHard s _ _ _ _

/-! ### The stop on air -/

theorem frame_setLane (s : Dev) (n : Nat) (l : Lane) : Frame [.mac] s (s.setLane n l) := fun p hp => by
  cases p <;> first | exact absurd (by decide) hp | rfl

theorem frame_takeFcnt (s : Dev) : Frame [.mac, .nv] s s.takeFcnt := fun p hp => by
  cases p <;> first | exact absurd (by decide) hp | rfl

theorem frame_countSent (s : Dev) (n : Nat) : Frame [.mac, .nv, .regs] s (s.countSent n) :=
  .two (by decide) (by decide) (frame_takeFcnt s)
    (.two (b := [.regs]) (c := [.regs]) (by decide) (by decide) (frame_setFld _ _ _) (frame_setFld _ _ _))

theorem frame_radio (s : Dev) (n : Nat) (l : List Byte) : Frame [.out] s (s.radio n l) := by
  unfold Dev.radio; split
  · exact .refl _ s
  · exact frame_emit s _

theorem frame_launch (s : Dev) (n : Nat) (t : NT) (f : TxFrame) : Frame [.mac, .nv, .regs, .out] s (s.launch n t f) :=
  .two (b := [.mac, .nv, .regs, .out]) (by decide) (by decide) (frame_radio s n _) <|
  .two (b := [.mac, .nv, .regs, .out]) (by decide) (by decide) (frame_emit _ _) <|
  .two (by decide) (by decide) (frame_countSent _ n) (frame_radio _ n _)

/-- A lane given way to a stop: its record, what goes on air, and the counts. -/
theorem frame_preemptLane (s : Dev) (c n : Nat) : Frame [.mac, .nv, .regs, .dry, .out, .todo] s (s.preemptLane c n) := by
  have h (l : Lane) (go : NT) (f : TxFrame) (v : Nat) (o : List Byte) : Frame [.mac, .nv, .regs, .dry, .out, .todo] s
      ((((((s.setLane n l).radio n o).launch n go f).emit (.allStop n c 0)).cntSat (0xD03C, 0, 16)).note (0x440 + n) v []) :=
    .two (b := [.mac, .nv, .regs, .dry, .out]) (by decide) (by decide) (frame_setLane s n l) <|
    .two (b := [.mac, .nv, .regs, .dry, .out]) (by decide) (by decide) (frame_radio _ n o) <|
    .two (b := [.mac, .nv, .regs, .dry, .out]) (by decide) (by decide) (frame_launch _ n go f) <|
    .two (b := [.regs, .dry]) (by decide) (by decide) (frame_emit _ _) <|
    .two (by decide) (by decide) (frame_setFld _ _ _) (frame_note _ _ _ _)
  unfold Dev.preemptLane
  simp only []
  split
  · exact .two (by decide) (by decide) (h _ _ _ _ _) (frame_raise _ _)
  · exact h _ _ _ _ _

theorem frame_setBurst (s : Dev) (b : Option StopBurst) : Frame [.saf] s (s.setBurst b) := fun p hp => by
  cases p <;> first | exact absurd (by decide) hp | rfl

theorem frame_preempt (s : Dev) (c : Nat) : Frame [.mac, .nv, .regs, .dry, .out, .todo, .saf] s (s.preempt c) :=
  .two (by decide) (by decide) (Frame.foldl (fun s n => s.preemptLane c n) (fun s n => frame_preemptLane s c n) _ s)
    (frame_setBurst _ _)

/-! ### Queues, reservations and transactions -/

theorem frame_putQueue (s : Dev) (q : Nat) (x : Queue) : Frame [.que] s (s.putQueue q x) := fun p hp => by
  cases p <;> first | exact absurd (by decide) hp | rfl

theorem frame_withQue (s : Dev) (q : Que) : Frame [.que] s { s with que := q } := fun p hp => by
  cases p <;> first | exact absurd (by decide) hp | rfl

theorem frame_updPin (s : Dev) (p : Nat) : Frame [.que] s (s.updPin p) := frame_withQue s _

theorem frame_updPins (s : Dev) : Frame [.que] s s.updPins := Frame.foldl _ (fun s p => frame_updPin s p) _ s

theorem frame_setQueue (s : Dev) (q : Nat) (x : Queue) : Frame [.que] s (s.setQueue q x) :=
  (frame_putQueue s q _).trans (frame_updPins _)

theorem frame_withMac (s : Dev) (m : Mac) : Frame [.mac] s { s with mac := m } := fun p hp => by
  cases p <;> first | exact absurd (by decide) hp | rfl

theorem frame_purgeTxn (s : Dev) (id : Nat) : Frame [.mac, .que] s (s.purgeTxn id) := by
  unfold Dev.purgeTxn; split
  · exact .refl _ s
  · exact .two (by decide) (by decide) (frame_withMac s _) (Frame.foldl _ (fun s q => frame_setQueue s q _) _ _)

theorem frame_withTrl (s : Dev) (x : Trl) : Frame [.trl] s { s with trl := x } := fun p hp => by
  cases p <;> first | exact absurd (by decide) hp | rfl

theorem frame_withTxu (s : Dev) (x : Txu) : Frame [.txu] s { s with txu := x } := fun p hp => by
  cases p <;> first | exact absurd (by decide) hp | rfl

theorem frame_setResv (s : Dev) (l : List Resv) : Frame [.trl, .regs, .todo] s (s.setResv l) := by
  unfold Dev.setResv; dsimp only
  have h : Frame [.trl, .regs] s (if Dev.fld { s with trl := { s.trl with resv := l } } (0x8038, 0, 23) < l.length
      then Dev.setFld { s with trl := { s.trl with resv := l } } (0x8038, 0, 23) (sat 23 l.length)
      else { s with trl := { s.trl with resv := l } }) := by
    split
    · exact .two (by decide) (by decide) (frame_withTrl s _) (frame_setFld _ _ _)
    · exact (frame_withTrl s _).mono (by decide)
  revert h
  generalize (if Dev.fld { s with trl := { s.trl with resv := l } } (0x8038, 0, 23) < l.length
      then Dev.setFld { s with trl := { s.trl with resv := l } } (0x8038, 0, 23) (sat 23 l.length)
      else { s with trl := { s.trl with resv := l } }) = t
  intro h
  split
  · exact .two (b := [.trl, .todo]) (by decide) (by decide) h (.two (by decide) (by decide) (frame_withTrl t _) (frame_raise _ _))
  · exact .two (by decide) (by decide) h (frame_withTrl t _)

theorem frame_setTask (s : Dev) (i : Nat) (k : Task) : Frame [.txu] s (s.setTask i k) := frame_withTxu s _

theorem frame_unpend (s : Dev) (t : Txn) : Frame [.txu, .trl] s (s.unpend t) :=
  Frame.foldl _ (fun s c => by
    simp only []; split
    · split
      · exact .two (by decide) (by decide) (frame_setTask s _ _) (frame_withTrl _ _)
      · exact (frame_setTask s _ _).mono (by decide)
    · exact .refl _ s) _ s

theorem frame_doneTxn (s : Dev) (t : Txn) (c i : Nat) : Frame [.hif, .out] s (s.doneTxn t c i) :=
  (frame_doneOpt s _ _ _).trans (Frame.foldl _ (fun s h => frame_done s h _ _) _ _)

theorem frame_updTxn (s : Dev) (id : Nat) (f : Txn → Txn) : Frame [.txu] s (s.updTxn id f) := by
  unfold Dev.updTxn; split
  · exact .refl _ s
  · exact frame_withTxu s _

/-- An abort changes the transaction, its entries, frames and queue items, its commands' answers and a count. -/
theorem frame_abortTxn (s : Dev) (t : Txn) (c i : Nat) (n : Bool) :
    Frame [.regs, .txu, .mac, .que, .trl, .todo, .hif, .out] s (s.abortTxn t c i n) := by
  unfold Dev.abortTxn; dsimp only
  have h1 : Frame [.regs] s (if n = true then s.cntSat (0x902C, 16, 16) else s) := by
    split
    · exact frame_setFld s _ _
    · exact .refl _ s
  generalize (if n = true then s.cntSat (0x902C, 16, 16) else s) = s1 at h1 ⊢
  have h2 : Frame [.regs, .txu, .mac, .que, .trl] s ((s1.unpend t).purgeTxn t.id) :=
    .two (by decide) (by decide) h1
      (.two (c := [.txu, .mac, .que, .trl]) (by decide) (by decide) (frame_unpend s1 t) (frame_purgeTxn _ _))
  generalize (s1.unpend t).purgeTxn t.id = s2 at h2 ⊢
  have h3 : Frame [.regs, .txu, .mac, .que, .trl, .todo] s
      (if t.id = 0 then s2 else s2.setResv (clearUnion t.id (s2.trl.resv.filter fun r => !(r.txn = t.id && r.staged)))) := by
    split
    · exact h2.mono (by decide)
    · exact .two (by decide) (by decide) h2 (frame_setResv _ _)
  generalize (if t.id = 0 then s2 else s2.setResv (clearUnion t.id (s2.trl.resv.filter fun r => !(r.txn = t.id && r.staged))))
    = s3 at h3 ⊢
  have h4 : Frame [.regs, .txu, .mac, .que, .trl, .todo, .hif, .out] s (s3.doneTxn t c i) :=
    .two (by decide) (by decide) h3 (frame_doneTxn _ _ _ _)
  split
  · exact .two (by decide) (by decide) h4 (frame_updTxn _ _ _)
  · exact .two (by decide) (by decide) h4 (frame_withTxu _ _)

theorem frame_abortPatch (s : Dev) (p : Patch) (c i : Nat) (n : Bool) : Frame [.trl, .regs, .hif, .out] s (s.abortPatch p c i n) := by
  unfold Dev.abortPatch; simp only []; split
  · exact .two (a := [.trl, .regs]) (by decide) (by decide)
      (.two (by decide) (by decide) (frame_withTrl s _) (frame_setFld _ _ _)) (frame_doneOpt _ _ _ _)
  · exact .two (by decide) (by decide) (frame_withTrl s _) (frame_doneOpt _ _ _ _)

theorem frame_countPrune (s : Dev) (n : Nat) : Frame [.regs, .dry] s (s.countPrune n) :=
  .two (by decide) (by decide) (.two (c := [.regs, .dry]) (by decide) (by decide) (frame_setFld s _ _) (frame_note _ _ _ _)) (frame_setFld _ _ _)

theorem frame_pruneHit (s : Dev) (hit : Resv → Bool) :
    Frame [.regs, .txu, .mac, .que, .trl, .todo, .hif, .out, .dry] s (s.pruneHit hit) := by
  have h : Frame [.regs, .txu, .mac, .que, .trl, .todo, .hif, .out] s (s.abortOwners hit) :=
    Frame.foldl (fun s id => match s.txn? id with | some t => s.abortTxn t 0x0501 0xFF true | none => s)
      (fun s id => by split; exacts [frame_abortTxn s _ _ _ _, .refl _ s]) _ s
  exact .two (b := [.trl, .regs, .todo, .dry]) (by decide) (by decide) h
    (.two (by decide) (by decide) (frame_setResv _ _) (frame_countPrune _ _))

theorem frame_stopMotion (s : Dev) (safe : Bool) :
    Frame [.regs, .txu, .mac, .que, .trl, .todo, .hif, .out, .dry] s (s.stopMotion safe) := by
  unfold Dev.stopMotion
  have h1 (l : List Txn) : Frame [.regs, .txu, .mac, .que, .trl, .todo, .hif, .out] s
      (l.foldl (fun s t => s.abortTxn t (if safe then stSafe else stStopped) 0xFF true) s) :=
    Frame.foldl _ (fun s t => frame_abortTxn s t _ _ _) _ s
  have h2 (u : Dev) (l : List Patch) : Frame [.trl, .regs, .hif, .out] u (l.foldl (fun s p => s.abortPatch p stSafe 0xFF true) u) :=
    Frame.foldl _ (fun s p => frame_abortPatch s p _ _ _) _ u
  have h3 (u : Dev) : Frame [.regs, .txu, .mac, .que, .trl, .todo, .hif, .out, .dry] u
      ((u.pruneHit fun r => r.kind = .spec && !r.staged).dropPlans) :=
    .two (by decide) (by decide) (frame_pruneHit u _) (frame_withTrl _ _)
  simp only []
  cases safe
  · exact .two (by decide) (by decide) (h1 _) (h3 _)
  · exact .two (b := [.regs, .txu, .mac, .que, .trl, .todo, .hif, .out, .dry]) (by decide) (by decide) (h1 _)
      (.two (by decide) (by decide) (h2 _ _) (h3 _))

/-! ### The run state, the safe state and the fault record -/

theorem frame_withSaf (s : Dev) (x : Saf) : Frame [.saf] s { s with saf := x } := fun p hp => by
  cases p <;> first | exact absurd (by decide) hp | rfl

theorem frame_setRun (s : Dev) (r : RunState) (w x : Nat) :
    Frame [.saf, .regs, .dry, .hif, .out, .todo] s (s.setRun r w x) := by
  unfold Dev.setRun; split
  · exact .refl _ s
  · exact .two (a := [.saf, .regs, .dry]) (by decide) (by decide)
      (.two (by decide) (by decide) (frame_withSaf s _) (frame_note _ _ _ _)) (frame_event _ _ _)

theorem frame_cancelResume (s : Dev) (c : Nat) : Frame [.saf, .hif, .out] s (s.cancelResume c) :=
  .two (by decide) (by decide) (frame_withSaf s _) (Frame.foldl _ (fun s h => frame_done s h _ _) _ _)

theorem frame_takeStop (s : Dev) (c w r : Nat) :
    Frame settleParts s (s.takeStop c w r) := by
  unfold Dev.takeStop
  have hm : ∀ s : Dev, Frame settleParts s (((((s.cancelResume stStopped).preempt c).setRun .fleetStop w r).axesFleetStop).stopMotion false) := fun s =>
    .two (b := settleParts) (by decide) (by decide) (frame_cancelResume s _) <|
    .two (b := settleParts) (by decide) (by decide) (frame_preempt _ c) <|
    .two (b := settleParts) (by decide) (by decide) (frame_setRun _ _ _ _) <|
    .two (by decide) (by decide) (Frame.foldl _ (fun s n => frame_axRamp s n _ _) _ _) (frame_stopMotion _ _)
  have hc : ∀ s : Dev, Frame settleParts s (s.cancelResume stStopped) := fun s => (frame_cancelResume s _).mono (by decide)
  have hp : ∀ s : Dev, Frame settleParts s (s.preempt 1) := fun s => (frame_preempt s _).mono (by decide)
  split
  · exact hm s
  · exact hm s
  · split
    · exact (hc s).trans (hp _)
    · exact hc s
  · split
    · exact hp s
    · exact .refl _ s
  · exact .refl _ s

theorem frame_drawNonce (s : Dev) : Frame [.saf, .free] s s.drawNonce := fun p hp => by
  cases p <;> first | exact absurd (by decide) hp | rfl

theorem frame_safeGate (s : Dev) : Frame [.saf, .axes, .hif, .out, .todo] s s.safeGate :=
  .two (by decide) (by decide) (frame_withSaf s _) (Frame.foldl _ (fun s n => frame_axSafe s n) _ _)

theorem frame_loopsSafe (s : Dev) : Frame [.ctl] s s.loopsSafe := fun p hp => by
  cases p <;> first | exact absurd (by decide) hp | rfl

theorem frame_markSafe (s : Dev) (n : Nat) (d : Bool) : Frame [.saf] s (s.markSafe n d) := frame_withSaf s _

theorem frame_enterSafe (s : Dev) (n : Nat) (d : Bool) (w : Nat) : Frame settleParts s (s.enterSafe n d w) := by
  unfold Dev.enterSafe; dsimp only
  have h1 : Frame settleParts s (if s.beaconing = true then s.safeGate.preempt 4 else s.safeGate) := by
    split
    · exact .two (by decide) (by decide) (frame_safeGate s) (frame_preempt _ _)
    · exact (frame_safeGate s).mono (by decide)
  generalize (if s.beaconing = true then s.safeGate.preempt 4 else s.safeGate) = s1 at h1 ⊢
  refine h1.trans ?_
  refine .two (b := settleParts) (by decide) (by decide) (frame_cancelResume s1 stSafe) ?_
  refine .two (b := settleParts) (by decide) (by decide) (frame_setRun _ .safe w 0) ?_
  refine .two (b := settleParts) (by decide) (by decide) (frame_stopMotion _ true) ?_
  refine .two (b := settleParts) (by decide) (by decide) (frame_loopsSafe _) ?_
  refine .two (b := settleParts) (by decide) (by decide) (frame_markSafe _ n d) ?_
  refine .two (b := settleParts) (by decide) (by decide) (frame_note _ 0x0C3 n (leBytes n 1 ++ leBytes (b2n d) 1)) ?_
  refine .two (b := settleParts) (by decide) (by decide) (frame_event _ 0x1104 (leBytes n 1 ++ leBytes (b2n d) 1)) ?_
  exact .two (by decide) (by decide) (frame_freeze _ 1) (frame_drawNonce _)

theorem frame_takeSafe (s : Dev) (n : Nat) (d : Bool) : Frame settleParts s (s.takeSafe n d) := by
  unfold Dev.takeSafe; split
  · exact .refl _ s
  · exact .two (by decide) (by decide) (frame_safeGate s) (frame_withSaf _ _)
  · split
    · dsimp only
      have h : Frame settleParts s (if s.beaconing = true then s.preempt 4 else s) := by
        split
        · exact (frame_preempt s 4).mono (by decide)
        · exact .refl _ s
      generalize (if s.beaconing = true then s.preempt 4 else s) = t at h ⊢
      split
      · exact .two (b := [.saf, .free]) (by decide) (by decide) h (frame_drawNonce t)
      · exact h
    · exact frame_enterSafe s n d 3
  · exact frame_enterSafe s n d 3

theorem frame_setSrc (s : Dev) (n : Nat) (x : Src) : Frame [.flt] s (s.setSrc n x) := fun p hp => by
  cases p <;> first | exact absurd (by decide) hp | rfl

theorem frame_recordFault (s : Dev) (n : Nat) (i : Bool) : Frame [.regs, .dry, .hif, .out, .todo] s (s.recordFault n i) := by
  unfold Dev.recordFault; dsimp only
  have h1 : Frame [.regs] s (s.cntWrap (0x12014, 0, 16)) := frame_setFld s _ _
  generalize s.cntWrap (0x12014, 0, 16) = s1 at h1 ⊢
  have h2 : Frame [.regs] s (if i = true then s1.cntSat (0x12014, 16, 16) else s1) := by
    split
    · exact h1.trans (frame_setFld s1 _ _)
    · exact h1
  generalize (if i = true then s1.cntSat (0x12014, 16, 16) else s1) = s2 at h2 ⊢
  have h3 : Frame [.regs] s (if s.forceActive = true then s2.cntSat (0x12018, 0, 16) else s2) := by
    split
    · exact h2.trans (frame_setFld s2 _ _)
    · exact h2
  generalize (if s.forceActive = true then s2.cntSat (0x12018, 0, 16) else s2) = s3 at h3 ⊢
  have h4 := h3.mono (d := [.regs, .dry, .hif, .out, .todo]) (by decide)
  refine h4.trans ?_
  have key : ∀ (s : Dev) (r : Nat) (e : Entry), Frame [.hif, .out, .todo] s
      (if ((s.cqOffer r e).2 && n != 0x7D) = true then (s.cqOffer r e).1.raise 0x7D else (s.cqOffer r e).1) := fun s r e => by
    have h := frame_cqOffer s r e
    split
    · exact .two (by decide) (by decide) h (frame_raise _ _)
    · exact h.mono (by decide)
  exact .two (a := [.regs, .dry]) (b := [.hif, .out, .todo]) (by decide) (by decide)
    (frame_occur s3 n (sat 8 (s.src n).times.length) i s.forceActive true
      (leBytes (s.fld (srcCls n)) 1 ++ leBytes (sat 8 (s.src n).times.length) 1 ++ leBytes (s.src n).recovery 2)) (key _ _ _)

theorem frame_react (s : Dev) (n c : Nat) : Frame [.regs, .dry, .todo] s (s.react n c) := by
  unfold Dev.react; split
  · exact .two (by decide) (by decide) (frame_freeze s _) (frame_push _ _)
  · exact .two (by decide) (by decide) (frame_freeze s _) (frame_push _ _)
  · exact .refl _ s

theorem frame_withFlt (s : Dev) (x : Flt) : Frame [.flt] s { s with flt := x } := fun p hp => by
  cases p <;> first | exact absurd (by decide) hp | rfl

theorem frame_collectorReset (s : Dev) : Frame [.regs, .flt] s s.collectorReset :=
  .two (by decide) (by decide) (Frame.foldl (fun s n => s.setReg (0x12100 + 8 * n) (resetReg (0x12100 + 8 * n)))
    (fun s n => frame_setReg s _ _) (List.range 192) s) (frame_withFlt _ _)

theorem frame_takeFault (s : Dev) (n : Nat) (i : Bool) : Frame settleParts s (s.takeFault n i) := by
  have key : ∀ (s : Dev) (x : Src), Frame settleParts s ((((s.setSrc n x).recordFault n i).freeze 2).push (.safe n true)) :=
    fun s x => .two (b := settleParts) (by decide) (by decide) (frame_setSrc s n x) <|
      .two (b := settleParts) (by decide) (by decide) (frame_recordFault _ n i) <|
      .two (by decide) (by decide) (frame_freeze _ 2) (frame_push _ _)
  unfold Dev.takeFault; dsimp only
  split
  · exact (frame_recordFault s n i).mono (by decide)
  · split
    · refine .two (b := settleParts) (by decide) (by decide) (frame_collectorReset s) (key _ _)
    · generalize hx : ({ s.src n with st := _, times := _, quietAt := _ } : Src) = x
      have h : Frame settleParts s ((s.setSrc n x).recordFault n i) :=
        .two (by decide) (by decide) (frame_setSrc s _ _) (frame_recordFault _ _ _)
      split
      · exact .two (by decide) (by decide) h (frame_react _ _ _)
      · split
        · exact .two (by decide) (by decide) h (frame_push _ _)
        · exact h

/-! ### Settling -/

theorem frame_settleOne (s : Dev) (t : Todo) : Frame settleParts s (s.settleOne t) := by
  cases t with
  | fault n i => exact frame_takeFault s n i
  | stop c w r => exact frame_takeStop s c w r
  | safe n d => exact frame_takeSafe s n d

theorem frame_withTodo (s : Dev) (l : List Todo) : Frame [.todo] s { s with todo := l } := fun p hp => by
  cases p <;> first | exact absurd (by decide) hp | rfl

theorem frame_settleAll (k : Nat) : ∀ s : Dev, Frame settleParts s (s.settleAll k) := by
  induction k with
  | zero => exact fun s => (frame_withTodo s _).mono (by decide)
  | succ k ih =>
    intro s
    unfold Dev.settleAll
    split
    · exact .refl _ s
    · exact .two (b := settleParts) (by decide) (by decide) (frame_withTodo s _) ((frame_settleOne _ _).trans (ih _))

/-- Settling leaves the clock, the fuses, the queues of the host's commands and every unit outside `settleParts` alone. -/
theorem frame_settle (s : Dev) : Frame settleParts s (settle s) :=
  (frame_settleAll _ s).trans (.two (by decide) (by decide) (frame_takeFreeze _) (frame_settleAll _ _))

/-- With nothing left to settle, settling changes nothing. -/
theorem settle_of_settled (s : Dev) (h : s.Settled) : settle s = s := by
  have e : ∀ (k : Nat) (s : Dev), s.todo = [] → s.settleAll (k + 1) = s := fun k s h => by
    unfold Dev.settleAll; rw [h]
  unfold settle
  rw [e 4095 s h.1]
  unfold Dev.takeFreeze; rw [h.2]
  exact e 4095 s h.1

end Sys2Proof.Machine
end

