-- ==== Sys2Proof/Laws/Rings.lean ====
section
/-! SUPPORT. Laws of the completion rings: an entry written stays, a `DONE` stands in its ring and frees its handle, an event
that finds room stands in its ring. -/
namespace Sys2Proof.Machine

@[simp] theorem Dev.cq_emit (s : Dev) (o : Out) (r : Nat) : (s.emit o).cq r = s.cq r := rfl
@[simp] theorem Dev.cq_raise (s : Dev) (n r : Nat) : (s.raise n).cq r = s.cq r := rfl
@[simp] theorem Dev.cq_setLive (s : Dev) (l : List Live) (r : Nat) : (s.setLive l).cq r = s.cq r := rfl
@[simp] theorem Dev.live_setCq (s : Dev) (r : Nat) (q : Cq) : (s.setCq r q).hif.live = s.hif.live := rfl
@[simp] theorem Dev.live_setLive (s : Dev) (l : List Live) : (s.setLive l).hif.live = l := rfl

@[simp] theorem Dev.cq_sendMsix (s : Dev) (v r : Nat) : (s.sendMsix v).cq r = s.cq r := by
  unfold Dev.sendMsix; split <;> rfl
@[simp] theorem Dev.live_sendMsix (s : Dev) (v : Nat) : (s.sendMsix v).hif.live = s.hif.live := by
  unfold Dev.sendMsix; split <;> rfl

theorem Dev.ring_coalesce (s : Dev) (r r' : Nat) : ((s.coalesce r).cq r').ring = (s.cq r').ring := by
  unfold Dev.coalesce; dsimp only; split <;> simp only [Dev.cq_sendMsix, Dev.cq_setCq] <;> split <;> simp_all
@[simp] theorem Dev.live_coalesce (s : Dev) (r : Nat) : (s.coalesce r).hif.live = s.hif.live := by
  unfold Dev.coalesce; dsimp only; split <;> simp

/-- What a ring holds after an entry was written. -/
theorem Dev.ring_cqWrite (s : Dev) (r r' : Nat) (e : Entry) :
    ((s.cqWrite r e).cq r').ring = if r' = r then
      (s.cq r).ring ++ [{ e with phase := (s.cq r).phase, lost := (s.cq r).lostFlag, handle := e.handle % 2 ^ 32 }]
    else (s.cq r').ring := by
  unfold Dev.cqWrite; dsimp only
  rw [Dev.ring_coalesce, Dev.cq_setCq]; split <;> rfl
@[simp] theorem Dev.live_cqWrite (s : Dev) (r : Nat) (e : Entry) : (s.cqWrite r e).hif.live = s.hif.live := by
  unfold Dev.cqWrite; dsimp only; rw [Dev.live_coalesce]; rfl

@[simp] theorem Dev.ring_cqLose (s : Dev) (r r' : Nat) : ((s.cqLose r).cq r').ring = (s.cq r').ring := by
  unfold Dev.cqLose; dsimp only; rw [Dev.cq_setCq]; split <;> simp_all
@[simp] theorem Dev.live_cqLose (s : Dev) (r : Nat) : (s.cqLose r).hif.live = s.hif.live := rfl

theorem Dev.mem_cqWrite {s : Dev} {r r' : Nat} {e x : Entry} (h : x ∈ (s.cq r').ring) : x ∈ ((s.cqWrite r e).cq r').ring := by
  rw [Dev.ring_cqWrite]; split
  · next hr => subst hr; exact List.mem_append_left _ h
  · exact h

theorem Dev.mem_cqOffer {s : Dev} {r r' : Nat} {e x : Entry} (h : x ∈ (s.cq r').ring) :
    x ∈ ((s.cqOffer r e).1.cq r').ring := by
  unfold Dev.cqOffer; dsimp only; repeat' split
  · simpa using h
  · exact Dev.mem_cqWrite h
  · rw [Dev.cq_setCq]; split
    · next hr => subst hr; exact h
    · exact h
  · simpa using h

theorem Dev.mem_event {s : Dev} {c r' : Nat} {b : List Byte} {x : Entry} (h : x ∈ (s.cq r').ring) :
    x ∈ ((s.event c b).cq r').ring := by
  have hm := Dev.mem_cqOffer (r := s.evtCq c) (e := eventEntry s.nt c b) h
  unfold Dev.event
  generalize s.cqOffer (s.evtCq c) (eventEntry s.nt c b) = y at hm ⊢
  obtain ⟨t, l⟩ := y
  dsimp only at hm ⊢; split
  · exact hm
  · exact hm

theorem Dev.mem_doneRaw {s : Dev} {h c r' : Nat} {b : List Byte} {x : Entry} (hx : x ∈ (s.cq r').ring) :
    x ∈ ((s.doneRaw h c b).cq r').ring := by
  unfold Dev.doneRaw; dsimp only; repeat' split
  · exact hx
  · rw [Dev.cq_setCq]; split
    · next hr => subst hr; exact hx
    · exact hx
  · exact Dev.mem_cqWrite (by simpa using hx)
  · simpa using hx
  · exact hx

theorem Dev.live_doneRaw_sub (s : Dev) (h c : Nat) (b : List Byte) : ∀ l ∈ (s.doneRaw h c b).hif.live, l ∈ s.hif.live := by
  unfold Dev.doneRaw; dsimp only; repeat' split
  · intro l hl; exact (List.mem_filter.1 hl).1
  · exact fun l hl => hl
  · intro l hl; rw [Dev.live_cqWrite] at hl; exact (List.mem_filter.1 hl).1
  · intro l hl; exact (List.mem_filter.1 hl).1
  · exact fun l hl => hl

theorem Dev.mem_settleFences (n : Nat) : ∀ {s : Dev} {r' : Nat} {x : Entry}, x ∈ (s.cq r').ring →
    x ∈ ((s.settleFences n).cq r').ring := by
  induction n with
  | zero => exact fun h => h
  | succ n ih =>
    intro s r' x h
    unfold Dev.settleFences; split
    · exact ih (Dev.mem_doneRaw h)
    · exact h

theorem Dev.live_settleFences_sub (n : Nat) : ∀ s : Dev, ∀ l ∈ (s.settleFences n).hif.live, l ∈ s.hif.live := by
  induction n with
  | zero => exact fun s l h => h
  | succ n ih =>
    intro s l h
    unfold Dev.settleFences at h; split at h
    · exact Dev.live_doneRaw_sub _ _ _ _ l (ih _ l h)
    · exact h

/-- An entry of a ring stays through a `DONE`. -/
theorem Dev.mem_done {s : Dev} {h c r' : Nat} {b : List Byte} {x : Entry} (hx : x ∈ (s.cq r').ring) :
    x ∈ ((s.done h c b).cq r').ring := Dev.mem_settleFences _ (Dev.mem_doneRaw hx)

theorem Dev.live?_handle {s : Dev} {h : Nat} {l : Live} (hl : s.live? h = some l) : l.handle = h := by
  have := List.find?_some hl; simpa using this

/-- A command completed while its ring is enabled and holds nothing back is answered. -/
theorem Dev.done_answered {s : Dev} {h : Nat} {l : Live} (code : Nat) (res : List Byte) (hl : s.live? h = some l)
    (ho : l.orphan = false) (he : s.flag (cqEn l.cq) = true) (hh : (s.cq l.cq).hold = []) :
    (s.done h code res).Answered l code res := by
  have hd := Dev.live?_handle hl
  have hraw : s.doneRaw h code res =
      (s.setLive (s.hif.live.filter fun x => x.handle != h)).cqWrite l.cq (cmdEntry .done l code res) := by
    unfold Dev.doneRaw; simp only [hl, ho, hh, he]; simp
  constructor
  · unfold Dev.done
    rw [Dev.live?, List.find?_eq_none]
    intro x hx hc
    have hx := Dev.live_settleFences_sub _ _ x hx
    rw [hraw, Dev.live_cqWrite, Dev.live_setLive, List.mem_filter] at hx
    simp only [beq_iff_eq] at hc
    rw [hc, hd] at hx
    simp at hx
  · refine ⟨{ cmdEntry .done l code res with phase := (s.cq l.cq).phase, lost := (s.cq l.cq).lostFlag
                                             handle := l.handle % 2 ^ 32 }, Dev.mem_settleFences _ ?_, rfl, rfl, rfl, rfl, rfl, rfl⟩
    rw [hraw, Dev.ring_cqWrite, if_pos rfl]
    simp [cmdEntry]

/-- A startable command is live. -/
theorem Dev.startable_live {s : Dev} {h op : Nat} {l : Live} (hs : s.startable h op = some l) :
    s.live? h = some l ∧ l.op = op ∧ l.started = false := by
  unfold Dev.startable at hs
  split at hs
  · next l' hl =>
    split at hs
    · next hc =>
      obtain rfl := Option.some.inj hs
      simp only [Bool.and_eq_true, beq_iff_eq, Bool.not_eq_true'] at hc
      exact ⟨hl, hc.1.1, hc.1.2⟩
    · cases hs
  · cases hs

theorem find?_mapWhere {α : Type} (p q : α → Bool) (f : α → α) (hf : ∀ x, q (f x) = q x) (l : List α) :
    (mapWhere p f l).find? q = (l.find? q).map fun x => if p x then f x else x := by
  induction l with
  | nil => rfl
  | cons a l ih =>
    have hq : q (if p a = true then f a else a) = q a := by split <;> simp [hf]
    simp only [mapWhere, List.map_cons, List.find?_cons, hq] at ih ⊢
    cases q a
    · exact ih
    · rfl

/-- The command is still live once it is marked begun. -/
theorem Dev.live?_markStarted {s : Dev} {h : Nat} {l : Live} (hl : s.live? h = some l) :
    (s.begin.markStarted h).live? h = some { l with started := true } := by
  have hd := Dev.live?_handle hl
  show (mapWhere (fun l => l.handle == h) (fun l => { l with started := true }) s.hif.live).find? (fun l => l.handle == h) = _
  rw [find?_mapWhere (fun l : Live => l.handle == h) (fun l : Live => l.handle == h) (fun l : Live => { l with started := true })
    (fun _ => rfl)]
  rw [Dev.live?] at hl
  rw [hl]; simp [hd]

/-- A host command that can run is run. -/
theorem Dev.command_eq {s : Dev} {h op : Nat} {l : Live} (k : Live → Dev → Dev) (hr : s.Runs h op l) :
    s.command h op k = k l (s.begin.markStarted h) := by
  unfold Dev.command; rw [hr.1]

/-- Inside a command that runs, a `DONE` answers it. -/
theorem Dev.run_done {s : Dev} {h op : Nat} {l : Live} (code : Nat) (res : List Byte) (hr : s.Runs h op l) :
    ((s.begin.markStarted h).done h code res).Answered l code res := by
  obtain ⟨hs, ho, he, hh, _⟩ := hr
  have hl := Dev.live?_markStarted (Dev.startable_live hs).1
  exact Dev.done_answered (l := { l with started := true }) code res hl ho he hh

/-- An event that finds room stands in its ring. -/
theorem Dev.event_told {s : Dev} {c : Nat} (b : List Byte) (h : s.Room (s.evtCq c)) :
    (s.event c b).Told (s.evtCq c) c b ∧ (s.event c b).todo = s.todo := by
  obtain ⟨he, hb, hh, hf⟩ := h
  have ho : s.cqOffer (s.evtCq c) (eventEntry s.nt c b) = (s.cqWrite (s.evtCq c) (eventEntry s.nt c b), false) := by
    unfold Dev.cqOffer; simp [he, hb, hh, hf]
  have hev : s.event c b = s.cqWrite (s.evtCq c) (eventEntry s.nt c b) := by
    unfold Dev.event; rw [ho]; rfl
  rw [hev]
  refine ⟨⟨{ eventEntry s.nt c b with phase := (s.cq (s.evtCq c)).phase, lost := (s.cq (s.evtCq c)).lostFlag
                                      handle := (eventEntry s.nt c b).handle % 2 ^ 32 }, ?_, rfl, rfl, rfl⟩,
    frame_cqWrite _ _ _ .todo (by decide)⟩
  rw [Dev.ring_cqWrite, if_pos rfl]
  simp

/-! ### The outcome of a command -/

theorem State.act_eq (s : State) (f : Dev → Dev) : s.act f = .next { toDev := settle (f s.toDev), pending := s.pending } := rfl

end Sys2Proof.Machine
end

