-- ==== Sys2Proof/Machine/Pins.lean ====
section
/-! DEFINITION. The levels of the output pins, and what configuration space says of the part. A pin is at the level that R525 gives it
until the end of BOOT, and then at the one its owning chapter gives; a data line between transfers has an open level. The edges the
device places (steps, frames, pulses) are in `Out`. -/
namespace Sys2Proof.Machine

/-- The output pins that hold a level (R5, R63, R74, R304, R360, R419, R434, R498, R499, R525, R528). -/
inductive Pin where
  | stopOutA | stopOutB | errN | safeN | timeQual | ppsOut | timeOut (n : Nat)
  | axisEn (n : Nat) | axisShort (n : Nat) | axisDir (n : Nat) | axisStep (n : Nat) | qfc (p : Nat)
  | tokenOut | laneRstN (n : Nat) | laneCsN (n : Nat) | laneMosi (n : Nat) | laneSck (n : Nat) | laneTxGo (n : Nat)
  | feCsN (n : Nat) | feSck | feMosi | tuneCsN | tuneSck | tuneSdo | xsCsN (n : Nat) | xsResetN (n : Nat) | peWakeN
deriving DecidableEq, Repr

/-- BOOT has ended: the owning chapters drive the pins (R525). -/
def Dev.booted (s : Dev) : Bool := s.saf.run != .boot && s.saf.run != .off

/-- Is `AXn_STEP` high (R286)? A step has been put out within the last `PW`. -/
def Dev.stepHigh (s : Dev) (n : Nat) : Bool :=
  let a := s.axis n
  !a.legs.isEmpty && a.posAt s.up != a.posAt (max a.kAt (s.up - s.fld (axF n 0 8 8) * 5 / 2))

/-- A pin's level, true = high, between the edges the device places. -/
def Dev.pin (s : Dev) : Pin → Bool
  | .stopOutA => s.stopPin false
  | .stopOutB => s.stopPin true
  | .errN => s.errN
  | .safeN => s.safeN
  | .timeQual => s.booted && s.timeQual
  | .ppsOut => s.booted && s.tim.ppsPol == 1
  | .timeOut n => s.booted && s.pad.timeOut.getD n false
  | .axisEn n => s.booted && (s.axis n).en
  | .axisShort n => s.booted && (s.axis n).short
  | .axisDir n => s.booted && ((!s.axNeg n) != s.flag (axF n 0 6 1))
  | .axisStep n => s.booted && s.stepHigh n
  | .qfc p => s.booted && ((Tab.get (fun _ => ({} : Qfc)) s.que.pins p).on != s.flag (0xE100 + 0x20 * p, 0, 1))
  | .tokenOut => s.booted && s.par.token
  | .laneRstN n => s.booted && decide ((s.lane n).st = .inService)
  | .laneCsN _ => true
  | .laneMosi n => s.booted && decide (n < s.nLanes) && Config.pinOpen n s.clk.up
  | .laneSck _ => false
  | .laneTxGo _ => false
  | .feCsN n => !(s.booted && (match s.gns.fe with | some (cs, _) => cs == n | none => false))
  | .feSck | .tuneSck => false
  | .feMosi => s.booted && Config.pinOpen 6 s.clk.up
  | .tuneSdo => s.booted && Config.pinOpen 7 s.clk.up
  | .tuneCsN => true
  | .xsCsN _ => true
  | .xsResetN _ => s.booted || s.saf.released
  | .peWakeN => true

/-- Cells that are observe-only in the boundary-scan chain (R529). -/
def Pin.observeOnly : Pin → Bool
  | .stopOutA | .stopOutB | .errN | .safeN => true
  | _ => false

/-- A pin's level under an instruction of the boundary-scan chain that drives the pins as `drive` gives, `none` where it drives none
(R529): the stop outputs, `ERR_N` and `SAFE_N` are held low whatever the chain holds. Debug access is locked, and nothing else of
the device is reached through the test port. -/
def Dev.pinScan (s : Dev) (drive : Pin → Option Bool) (p : Pin) : Bool :=
  if p.observeOnly then false else (drive p).getD (s.pin p)

/-- Does `PAIR_ALIVE_OUT` carry its square wave of 1 kHz (R499)? Else it is low. -/
def Dev.aliveOut (s : Dev) : Bool := s.booted && s.saf.run != .safe

/-- The identity in configuration space (R1): vendor, device, revision, subsystem vendor and subsystem. -/
def Dev.pciIds (s : Dev) : Nat × Nat × Nat × Nat × Nat := (0x1F3D, 0x0B70, 0xA1, 0x1F3D, if s.fuse.big then 0x0256 else 0x0064)

end Sys2Proof.Machine
end

