-- ==== Sys2Proof/WellFormed.lean ====
section
/-! DEFINITION. When a command is well formed: every operand that numbers something (a robot slot, an axis, a lane, a ring, a
register) is a number the larger variant has (R2, R4), and every operand that stands for something of a fixed form has it. A
command that is not well formed still answers a next state: what it names does not exist, and its row does not take place. -/
namespace Sys2Proof

/-- Is a command well formed? Robots, axes and loop slots are those of R2; inputs and outputs those of R62 and R63; sample
ports of R71, engines of R163; queues of R347 and pins of R360; rings of R368; sources of R431 and force words of R437; lanes
of R314 and key words of R323; an entry has 64 bytes (R369), a frame is no longer than R318 lets a length word say. -/
def Instr.wf : Instr → Bool
  | .powerOn _ => true
  | .rstNAssert _ _ => true
  | .rstNRelease _ boot => (boot.ranks == 1 || boot.ranks == 2) && decide (boot.used0 ≤ boot.blocks) && decide (boot.used1 ≤ boot.blocks)
  | .bootEnd _ => true
  | .slotBoundary => true
  | .wholeNtSecond _ => true
  | .timeMeasurement _ src _ => (src == 0 || src == 2)
  | .lossTimeExpiry => true
  | .refInLoss _ => true
  | .refInReturn _ => true
  | .timeStep => true
  | .ppsInEdge _ sub _ => decide (sub < 1100)
  | .leapSecond => true
  | .tdcRecalibration _ => true
  | .tdcColdCalDone _ => true
  | .ppsPulse => true
  | .ppsEnWrite _ _ => true
  | .ppsChange => true
  | .timeCaptureEdge _ input sub _ => decide (input < 9) && decide (sub < 1100)
  | .captureStart input => decide (input < 9)
  | .captureEnd input => decide (input < 9)
  | .timCapnLoRead n => decide (n < 9)
  | .timNtLoRead => true
  | .bar4NtRead => true
  | .outputArm _ n _ => decide (n < 4)
  | .outputCancel _ n _ => decide (n < 4)
  | .timedOutputFire n => decide (n < 4)
  | .spClkLoss _ p => decide (p < 6)
  | .spClkReturn _ p => decide (p < 6)
  | .spClkCheck _ p _ _ _ => decide (p < 6)
  | .spStuck _ p => decide (p < 6)
  | .feSpiGo _ _ => true
  | .feSpiDone _ _ => true
  | .feSpiTimeout _ => true
  | .gnssEpoch _ => true
  | .calibrationDue => true
  | .calNow _ _ => true
  | .calibrationDone _ res => res.length == 3
  | .grpRetire _ _ => true
  | .correlatorParityError _ g => decide (g < 13)
  | .corrRelock _ => true
  | .surveyProgress _ => true
  | .surveyTimeout => true
  | .rawCaptureStart => true
  | .rawCaptureDone _ _ => true
  | .localSnapshot samples => samples.length == 40920
  | .snapshotPiece _ => true
  | .snapshotIncomplete => true
  | .batchClose => true
  | .snapshotResult _ _ _ => true
  | .auditRequest => true
  | .recheckRequest rb => decide (rb < 256)
  | .rawObs _ => true
  | .engineDispatch _ => true
  | .positionRecord _ eng => decide (eng < 8)
  | .epochSkip => true
  | .overloadEnd => true
  | .largeSearchDone _ eng => decide (eng < 8)
  | .largeSearchAbandon eng => decide (eng < 8)
  | .engineFault _ eng => decide (eng < 8)
  | .frkRetire _ _ => true
  | .rtkResetProgress rb => decide (rb < 256)
  | .rtkResetTimeout rb => decide (rb < 256)
  | .planningEpoch _ _ _ => true
  | .handOff => true
  | .planDeadline => true
  | .graphLoadDone _ => true
  | .patchValidationEnd _ => true
  | .patchApply => true
  | .report _ => true
  | .leaseSuspect rb => decide (rb < 256)
  | .leaseDead rb => decide (rb < 256)
  | .tStopped rb => decide (rb < 256)
  | .admitTimeout rb => decide (rb < 256)
  | .zombieSilence rb => decide (rb < 256)
  | .admitOfferRepeat rb => decide (rb < 256)
  | .confirmRepeat rb => decide (rb < 256)
  | .claim _ => true
  | .cfgAck _ => true
  | .txnValidationEnd _ _ => true
  | .offerDeadline => true
  | .cutOff _ => true
  | .txnApply => true
  | .reoffer => true
  | .unsynced => true
  | .roundMsExpiry _ => true
  | .robotPairComputation _ rb => decide (rb < 256)
  | .axisLoopSample _ axis _ => decide (axis < 24)
  | .deadlineMiss _ loop => decide (loop < 536)
  | .limitTrip _ axis _ => decide (axis < 24)
  | .latchRelease _ axis _ => decide (axis < 24)
  | .homeEvent _ axis _ => decide (axis < 24)
  | .homingPhaseEnd _ axis => decide (axis < 24)
  | .homeNotFound axis => decide (axis < 24)
  | .encoderError _ axis => decide (axis < 24)
  | .targetReached axis => decide (axis < 24)
  | .rampStopEnd axis => decide (axis < 24)
  | .hedgeEdge _ axis => decide (axis < 24)
  | .standstill axis => decide (axis < 24)
  | .enDelayEnd axis => decide (axis < 24)
  | .axisEnable _ axis _ => decide (axis < 24)
  | .beacon => true
  | .allStopRepeat => true
  | .frameTransmit lane _ _ => decide (lane < 6)
  | .frameReceive _ lane len _ psdu => decide (lane < 6) && psdu.length == (if 4 ≤ len && len ≤ 511 then len else 0)
  | .dataFrame _ => true
  | .routeApply => true
  | .laneRetireComplete => true
  | .keyWrite _ k w _ => decide (k < 16) && decide (w < 4)
  | .macSendDeadline _ => true
  | .queuePush _ q w _ _ => decide (q < 128) && decide (w.data < 2 ^ 64) && decide (w.type_ < 16)
  | .queuePop _ q _ => decide (q < 128)
  | .spillRefill _ q => decide (q < 128)
  | .queFlush _ _ => true
  | .qfcMinAssertExpiry p => decide (p < 8)
  | .directWrite _ off _ => off % 4 == 0 && decide (off < 0x40000)
  | .benchCheckDone _ => true
  | .benchCutOff _ _ => true
  | .benchApplyStrobe => true
  | .governorDecision _ _ => true
  | .leaveDeadline => true
  | .leaveDurationEnd => true
  | .govOverBudget _ _ => true
  | .monitorSelfCheckFail _ grp _ => decide (grp < 8)
  | .monitorRecalibration _ grp _ => decide (grp < 8)
  | .stopInFall _ _ _ => true
  | .stopDiscrepancy => true
  | .stopInputsClean _ => true
  | .safStopClr _ _ => true
  | .darkPulse _ => true
  | .resumeBoundary => true
  | .safeReleaseFirst _ _ => true
  | .safeReleaseSecond _ _ => true
  | .safeReleaseWindowExpiry => true
  | .safeReleaseBoundary => true
  | .lockstepMismatch _ => true
  | .safSramUe _ => true
  | .rootstockRestart _ => true
  | .planningHeartbeat _ core => decide (core < 4)
  | .planWatchdog _ => true
  | .faultEvent _ src => decide (src < 192)
  | .faultLevelClear _ src => decide (src < 192)
  | .windowExpiry src => decide (src < 192)
  | .quietExpiry src => decide (src < 192)
  | .injectionCheck src _ => decide (src < 192)
  | .forcePulse src => decide (src < 192)
  | .fltForceWrite _ m _ => decide (m < 6)
  | .collectorParityError _ _ => true
  | .frozenImagePersisted _ => true
  | .blackboxThaw _ => true
  | .diarySnapshot => true
  | .diarySnapshotDone _ => true
  | .persistLate => true
  | .capturePersisted _ _ => true
  | .pfwNQualified _ _ => true
  | .pfwNReturn _ => true
  | .regionFail _ region _ _ _ => decide (region < 2)
  | .dryClear _ _ => true
  | .lwClr _ _ => true
  | .cutting _ => true
  | .needList _ => true
  | .headerStored _ _ => true
  | .sectorCommitDone _ _ => true
  | .verifyDone _ _ => true
  | .activationPauseStart => true
  | .activationPauseEnd _ => true
  | .trialTimeExpiry => true
  | .aliveLoss _ => true
  | .pairLinkLoss _ => true
  | .tokenTake _ => true
  | .tokenConfirm _ => true
  | .tokenConflict _ => true
  | .promotion _ => true
  | .mirrorFrame _ _ _ _ _ => true
  | .bulkCopyDone _ => true
  | .pairLinkUp _ _ _ => true
  | .plannedHandoverStop _ => true
  | .finalDelta => true
  | .patrolScrubPass _ => true
  | .dramScrubLate _ => true
  | .scrubNow _ _ => true
  | .memRetire _ _ => true
  | .dramCe _ r => decide (r < 2)
  | .dramUe _ r _ => decide (r < 2)
  | .rankMigrationDone _ r => decide (r < 2)
  | .fullScrubDone _ _ => true
  | .railOutOfRange _ _ => true
  | .temperatureThreshold _ sensor _ => decide (sensor < 8)
  | .pllUnlock _ _ => true
  | .safClkCheck _ _ => true
  | .sramEccError _ _ => true
  | .sqTail _ r _ => decide (r < 32)
  | .cqHead _ r _ => decide (r < 32)
  | .submissionFetch _ sq entry _ _ => decide (sq < 32) && entry.all (fun e => e.length == 64)
  | .holdBufferDrain cq => decide (cq < 32)
  | .msiXCoalesce cq => decide (cq < 32)
  | .hostSilent => true
  | .hifHeartbeat _ _ => true
  | .linkDown _ => true
  | .functionLevelReset _ => true
  | .pePerstN _ => true
  | .d3hotEntry _ => true
  | .hostReturn _ speed lanes => decide (1 ≤ speed) && decide (speed ≤ 3) && (lanes == 1 || lanes == 2 || lanes == 4)
  | .sqEnSet _ r _ => decide (r < 32)
  | .sqEnClear _ r _ => decide (r < 32)
  | .cqEnSet _ r _ => decide (r < 32)
  | .cqEnClear _ r _ => decide (r < 32)
  | .nop _ => true
  | .fence _ => true
  | .timeAcceptJump _ => true
  | .timeSetPps _ => true
  | .timeCaptureArm _ => true
  | .gnssSurveyStart _ => true
  | .gnssSetBase _ _ => true
  | .gnssRawCapture _ => true
  | .corrStreamCfg _ => true
  | .snapSubmit _ _ => true
  | .rtkAdmitRover _ => true
  | .rtkResetRover _ => true
  | .trlLoadGraph _ _ => true
  | .trlPatchGraph _ _ => true
  | .trlQuery _ _ => true
  | .txnSubmit _ _ => true
  | .txnCancel _ => true
  | .taskAllot _ _ _ => true
  | .taskWithdraw _ _ => true
  | .graft _ => true
  | .loopOpen _ => true
  | .loopClose _ => true
  | .loopHandover _ => true
  | .axisMove _ => true
  | .axisHome _ _ => true
  | .axisStop _ => true
  | .macFrameSend _ _ => true
  | .macRouteSet _ _ _ => true
  | .macLaneRetire _ _ => true
  | .robotAdmit _ _ => true
  | .robotRelease _ => true
  | .benchStage _ _ => true
  | .benchCheck _ => true
  | .benchApply _ => true
  | .benchDiscard _ => true
  | .leavePolicy _ => true
  | .fleetStop _ => true
  | .fleetResumeRequest _ => true
  | .faultInject _ => true
  | .faultClear _ => true
  | .diaryRead _ _ => true
  | .blackboxFreeze _ => true
  | .blackboxRead _ _ => true
  | .updHeader _ _ => true
  | .updPieces _ _ => true
  | .updVerify _ => true
  | .updActivate _ _ => true
  | .updConfirm _ => true
  | .updStatus _ => true
  | .pairJoin _ => true
  | .pairTakeover _ => true
  | .powerRemoved _ => true
  | .hostLocalSnapshot _ samples _ => samples.length == 40920
  | .msixVectorUnmask _ vec => decide (vec < 64)

end Sys2Proof
end

