-- ==== Sys2Proof/Tests/Slice0.lean ====
section
/-! SUPPORT. Own tests: ill-formed operands are refused, small facts of single commands, and a state with operands that meets the
hypotheses of each statement's clause. -/
namespace Sys2Proof.Tests
open Sys2Proof Sys2Proof.Machine

set_option Elab.async false

/-- A device that runs: in RUN with the latches clear, the host there. -/
def base : State :=
  { State.reset with
    saf := { run := .run, released := true, latchA := false, latchB := false, initDone := true, inA := true, inB := true, clean := true }
    hif := { linkUp := true, ready := true, bme := true, d0 := true, speed := 4, lanes := 4 }
    pll := { core := true, corr := true, time := true, saf := true, dram := true, pcie := true, sgmii := true, refOk := true }
    par := { token := true }
    clk := { acc := 0x1_0000_0000_0000_0000, up := 1_000_000_000 } }

/-- A register set. -/
def rg (s : State) (o : Nat) (v : Reg) : State := { s with toDev := s.toDev.setReg o v }

/-- A field set. -/
def fl (s : State) (f : Fld) (v : Nat) : State := { s with toDev := s.toDev.setFld f v }

/-- Ring 0 of each kind enabled, with 16 slots; every block's events go to it. -/
def rings (s : State) : State := fl (fl (fl (fl (fl s (cqLog2 0) 4) (cqEn 0) 1) (sqLog2 0) 4) (sqCq 0) 0) (sqEn 0) 1

/-- A command accepted and not begun: handle 7 of ring 0, with inline parameters from byte 24. -/
def lv (op : Nat) (p : List Byte) : Live :=
  { handle := 7, sq := 0, cq := 0, tag := 99, op, entry := leBytes op 24 ++ slice p 0 40, order := 0 }

/-- The running device with that command. -/
def host (op : Nat) (p : List Byte) : State :=
  { rings base with hif := { (rings base).hif with live := [lv op p], nextOrder := 1 } }

/-- A device whose time source has been silent. -/
def lossSt : State := { base with tim := { st := .locked, ntValid := true, everLocked := true, lastMeas := 0x1_0000_0000 } }

/-- An entry of the Bench. -/
def ent1 : Staged := { addr := 0xB014, value := 3, mask := 0xFF }

/-- The Bench in a state with one entry and a command that waits. -/
def bench (st : BenchState) (op : Nat) (p : List Byte) : State := { host op p with ben := { st, ents := [ent1] } }

/-- The running device with one axis, and handle 7 of ring 0 live for its motion. -/
def axSt (n : Nat) (a : Axis) : State :=
  { rings base with axes := [(n, a)], hif := { (rings base).hif with live := [{ lv 0x68 [] with started := true }] } }

/-- A move that a command waits for, and a homing. -/
def mv : AxMove := { handle := some 7, txn := 5, mmode := 1, neg := false, target := 900, v := 1000, a := 1000, j := 1000 }
def hm (phase : Nat) (found : Bool) : Homing :=
  { handle := 7, ref := 0, neg := true, vSearch := 100, vLatch := 50, backoff := 20, offset := 12, max_ := 5000, phase, found }

/-- A home command of axis 2 with legal operands. -/
def homeCmd : List Byte := leBytes 5000 4 ++ leBytes 0 12

/-- The running device with robot 0 in ACTIVE. -/
def robotSt : State := { rings base with txu := { leases := [(0, { st := .active, epoch := 3, uid := 9, tRep := 1 })] } }

/-- The running device with transactions in flight, and handle 7 of ring 0 live for one of them. -/
def txSt (l : List Txn) : State :=
  { rings base with txu := { txns := l, nextId := 6 }, hif := { (rings base).hif with live := [{ lv 0x51 [] with started := true }] } }

/-- A transaction of one action that handle 7 waits for. -/
def tx1 (id : Nat) (phase : TxPhase) (a : Action) : Txn := { id, handle := some 7, host := true, phase, acts := [a] }

/-- A black-box entry, and a code record. -/
def bx : BoxEntry := { nt := 5, code := 0x81, inj := false, forced := false, value := 3, seq := 1, pc := 1, ps := 9, detail := [] }
def rc : Rec := { valid := true, count := 2, min_ := 3, max_ := 4, lastVal := 4 }

/-- A capture held in the buffer, whose write to flash has leave. -/
def cpt : Capture := { trigger := 1, ports := 2, blocks := [1, 2, 3], at_ := {}, writing := true }

/-- A request for a record snapshot that waits. -/
def rq (w : Work) : LeaveReq := { id := 4, cls := 5, mw := 150, dur := 1000, asked := 0x1_0000_0000, dead := 0x1_2000_0000, work := w }

/-- The running device with one source. -/
def srcSt (n : Nat) (x : Src) : State := { rings base with flt := { srcs := [(n, x)] } }

/-- The running device with port 0 in use and its clock there. -/
def portSt (x : Port) : State := fl { base with gns := { engine := 2, ports := [(0, x)], chans := [{ no := 3, ant := 0, sys := 0, svid := 7, sig := 0 }] } } (spEn 0) 1

/-- A buffer that holds a legal base position. -/
def baseBuf : List Byte := slice (leBytes 1000 8 ++ leBytes 2000 8 ++ leBytes 3000 8) 0 128

/-- A queued epoch of slot 0, and the running device with robot 0 ACTIVE and that epoch, held by an engine or waiting. -/
def fep (e : Option Nat) : FrkEpoch := { slot := 0, tObs := 0x1_0000_0000, rx := 0x1_0001_0000, at_ := 0x1_0002_0000, odo := 0, eng := e }
def frkSt (e : Option Nat) (x : FrkSlot) : State := { robotSt with frk := { queue := [fep e], slots := [(0, x)] } }

/-- A report of robot 0 that waits, with a body of no observations. -/
def obsItem (q : Nat) (t : Nat) : RxItem :=
  { q, lane := 0, rx := 0x1_0000_0000, frame := slice (leBytes (t + 16) 2 ++ leBytes 0 2 ++ leBytes 0x1000 2 ++ leBytes 3 2 ++ leBytes 20 2) 0 44, dup := false }

/-- A queue of the running device. -/
def queSt (big : Bool) (q : Nat) (x : Queue) : State :=
  { fl (fl (fl base (0xE800 + 0x10 * q, 0, 5) 4) (0xE804 + 0x10 * q, 0, 16) 2) (0xE804 + 0x10 * q, 16, 16) 12 with
    fuse := { big }, que := { queues := [(q, x)] } }

/-- A whole item of one word. -/
def wd (d : Nat) : QWord := { data := d, sop := true, eop := true }

/-- A unit of a pair. -/
def pairSt (r : RunState) (p : Par) : State := { rings base with saf := { base.saf with run := r }, par := p }

/-- A takeover that was decided. -/
def tk (mode : Nat) (h : Option Nat) (toRun : Bool) : Takeover := { mode, handle := h, decided := 0x1_0000_0000, toRun }

/-- The running device with lane 0 in service, a route to robot 0 on it, and key 0 valid for both directions. -/
def rt0 : RouteEnt := { dest := 0x1000, nhops := 1, sleepy := false, rebcast := false, lane := 0, drift := 0, sleepN := 0, phase := 0, wake := 0, hops := [(0x1000, 255, 6)] }
def macSt (s : State) (m : Mac) : State :=
  { fl (fl (fl s (0xD400, 0, 2) 3) (planF 0 5 0 4) 5) (planF 0 6 0 4) 6 with
    mac := { m with lanes := [(0, { st := .inService, startSf := some 1 })], routes := [rt0] }, txu := { leases := [(0, { st := .active, epoch := 3, uid := 9, tRep := 1 })] } }

/-- A frame that robot 0 sent under its lease: header and payload. -/
def air (type len : Nat) : List Byte := slice (leBytes (type + 0x50) 2 ++ leBytes 0 2 ++ leBytes 0x1000 2 ++ leBytes 3 2 ++ leBytes len 2 ++ leBytes 77 6 ++ leBytes 0 4 ++ [1, 0]) 0 (22 + len)

/-- A frame of the host that waits for lane 0. -/
def txf : TxFrame := { type_ := 12, dst := 0x1000, epoch := 3, body := [1, 2], lane := 0, handle := some 7, prio := 5 }

/-- A straight segment of 10 m between two nodes. -/
def graph1 : Graph :=
  { id := 9, nodes := [{ id := 1, type_ := 0, noHold := false, e := 0, n := 0, u := 0, zone := 0 }, { id := 2, type_ := 0, noHold := false, e := 10000, n := 0, u := 0, zone := 0 }]
    segs := [{ id := 5, clear := 0, dir := 0, nodeA := 1, nodeB := 2, len := 1000, hw := 100, vlim := 2000, zone := 0, pts := [(0, 0, 0), (10000, 0, 0)] }] }

/-- A lease of slot 0, class 0 valid, on that graph; the radio as in `macSt`. -/
def leaseSt (s : State) (l : Lease) : State :=
  let s := rg (rg (rg (rg (rg (macSt s {}) 0x9100 2000) 0x9104 0x03E803E8) 0x9108 0x006403E8) 0x910C 0x01F401F4) 0x9110 0x2012C
  { s with txu := { leases := [(0, l)] }, trl := { graph := some graph1, ver := 1 } }

/-- A lease in a state, under epoch 3, last heard at 4 s. -/
def ls (st : LeaseState) : Lease := { st, epoch := 3, uid := 9, bound := true, tRep := 1, rx := 0x1_0000_0000, since := 0x1_0000_0000, area := (5, 200, 300) }

/-- A reservation of robot 0. -/
def rv (k : Kind) : Resv := { seg := 5, kind := k, robot := 0, epoch := 3, w := 40, tin := 0x1_0000_0000, tout := 0x1_1000_0000, lo := 100, hi := 300 }

/-- The parameters of an admission of slot 0. -/
def admB : List Byte := leBytes 9 8 ++ [0, 0, 1, 0] ++ leBytes 5 4 ++ leBytes 200 2 ++ leBytes 300 2 ++ leBytes 0 12 ++ rt0.bytes

/-- The image of `graph1`. -/
def img : List Byte := leBytes 1 4 ++ leBytes 9 4 ++ leBytes 2 4 ++ leBytes 1 4 ++ leBytes 0 48 ++ graph1.nodes.flatMap NodeRec.bytes ++
  graph1.segs.flatMap fun x => x.bytes 0 0 0 0

/-- A node record, as a patch adds it. -/
def node3 : NodeRec := { id := 3, type_ := 0, noHold := false, e := 500, n := 900, u := 0, zone := 0 }

/-- A patch of one item that adds it. -/
def pt (txn : Nat) (at_ : Option NT) : Patch := { handle := 7, ver := 1, txn, items := [(1, node3.bytes)], applyAt := at_, graph := { graph1 with nodes := graph1.nodes ++ [node3] } }

/-- A task on the segment of `graph1`. -/
def tsk (st : TaskState) : Task :=
  { st, prio := 3, mask := 1, hops := [(5, false)], spans := [{ lo := 0, hi := 5000, code := 1, vWork := 500 }], v := 1000, a := 500, j := 500 }

/-- Robot 0 planned on that graph: one step that is not yet handed off. -/
def planSt : State :=
  { leaseSt (rings base) (ls .active) with
    txu := { leases := [(0, ls .active)], tasks := [(0, { tsk .held with holder := some 0 })] }
    trl := { graph := some graph1, ver := 1, epoch := 0x1_0000_0000, handOffDue := true, unfinished := true
             resv := [{ rv .spec with step := 41 }]
             robots := [(0, { route := some { approach := 100000, hops := [(5, false)] }, proj := some { s := 2000, e := 0, v := 0, grade := 4, tObs := 0x1_0000_0000, pe := 2000, pn := 0, speed := 0 }
                              plan := [{ sf := 41, k0 := { s := 2000000000, v := 0 }, k1 := { s := 2100000000, v := 500000000 } }] })] } }

/-- A host command with that task as task 4. -/
def taskSt (op : Nat) (p : List Byte) (st : TaskState) : State :=
  { leaseSt (host op p) (ls .active) with txu := { leases := [(0, ls .active)], tasks := [(4, tsk st)], nextId := 6 } }

/-- A buffer that defines that task anew, and one that gives it priority 9. -/
def defB : List Byte := [1, 0, 1, 0] ++ leBytes 0 12 ++ leBytes 4 2 ++ [3, 0] ++ leBytes 1 2 ++ leBytes 1 2 ++ [1, 0] ++ leBytes 1000 2 ++ leBytes 500 2 ++
  leBytes 500 2 ++ leBytes 0 48 ++ leBytes 5 4 ++ leBytes 0 4 ++ leBytes 5000 4 ++ leBytes 1 2 ++ leBytes 500 2 ++ leBytes 0 4
def recB : List Byte := [8, 0] ++ leBytes 0 6 ++ leBytes 1 2 ++ leBytes 0 6 ++ leBytes (4 + 2 ^ 24 * 9) 4

/-- A snapshot piece of robot 0, and its payload. -/
def pcB (k : Nat) : List Byte := slice ([0x11, BitVec.ofNat 8 k, 5, 0] ++ leBytes 0x100000000 6 ++ [1, 0]) 0 (if k = 3 then 271 else 272)
def pcItem (k : Nat) : RxItem :=
  { q := 26, lane := 0, rx := 0x1_0000_0000, frame := leBytes 0x17 2 ++ leBytes 0 2 ++ leBytes 0x1000 2 ++ leBytes 3 2 ++ leBytes (pcB k).length 2 ++ leBytes 0 12 ++ pcB k, dup := false }

/-- A snapshot without samples, and a batch with it. -/
def snp (x : SnapFrom) : Snap := { src := x, t0 := 0x1_0000_0000, units := 1, tUnc := 1, fcOfs := 0, bits := [], aided := true, aid := none }
def bat (x : SnapFrom) (running : Bool) : Batch := { id := 2, opened := 0x1_0000_0000, snaps := [snp x], closed := running, running }

/-- A record of the host. -/
def recS : List Byte := slice (leBytes 0x100000000 8 ++ [1, 0, 0, 0, 1, 0, 1, 0]) 0 1072

/-- Headers of small images of subsystem 1: of no piece, and of two. -/
def hd0 : ImgHdr := { sub := 1, ver := 5, hash := sha256 [], psize := 128 }
def hd1 : ImgHdr := { sub := 1, ver := 5, len := 256, psize := 128, count := 2, hash := [1, 2, 3, 4] }

/-- A device with a download, its engine as given; with a subsystem's selector entry; with the latter in trial, its image of
security version 7 naming two keys to revoke. -/
def dlSt (s : State) (d : FlashDl) (u : Upd) : State := { s with nv := { s.nv with upd := { s.nv.upd with dl := some d } }, upd := u }
def selSt (s : State) (b : Nat) (x : Sel) : State := { s with nv := { s.nv with upd := { s.nv.upd with sels := [(b, x)] } } }
def triSt (s : State) : State :=
  { selSt s 1 { bank := 1, trial := true, boots := 2, ver := 5 } with
    nv := { s.nv with upd := { s.nv.upd with sels := [(1, { bank := 1, trial := true, boots := 2, ver := 5 })], banks := [(3, { hdr := { hd1 with sec := 7, revoke := 3 } })] } } }

/-- An activation of subsystem 1; a cutting of a gateway, with a payload. -/
def actA (rev : Bool) : Activation := { sub := 1, handle := some 7, revert := rev, bank := 1, ver := 5, at_ := 0x1_0000_0000 }
def cutItem (b : List Byte) : RxItem :=
  { q := 27, lane := 0, rx := 0x1_0000_0000, frame := leBytes 0x1A 2 ++ leBytes 0 2 ++ leBytes 0x2000 2 ++ leBytes 3 2 ++ leBytes b.length 2 ++ leBytes 0 12 ++ b, dup := false }
def cutB (kind idx off crc : Nat) (b : List Byte) : List Byte :=
  leBytes (1 + 16 * kind) 1 ++ [0, 0, 0, 1, 2, 3, 4] ++ leBytes idx 4 ++ leBytes off 2 ++ leBytes b.length 2 ++ leBytes crc 4 ++ b

/-- A device with a gateway, and the bytes of a good image header of subsystem 1, signed under the key of slot 0, and a piece's record. -/
def gwSt : State := fl (fl base (0xD024, 16, 1) 1) (0xD024, 0, 8) 0
def pubK : Nat := 0xb83155126486dc1d5f0da59b30d6e46799c04be718dd701dbe10cef3bf07a103
def hdrB : List Byte :=
  slice (leBytes 0x4854524D 4 ++ [1, 1, 0, 0] ++ leBytes 0x0B70 2 ++ [0xA, 0] ++ leBytes 0 16 ++ leBytes 5 4 ++ leBytes 0 4 ++ leBytes 256 4 ++
    leBytes 128 2 ++ [0, 0] ++ leBytes 2 4 ++ [1, 2, 3, 4] ++ leBytes 0 28 ++ leBytes pubK 32 ++ leBytes 0 336 ++
    leBytes 0x6312a04a35af67a3a21fbb9dc991c268d646e3f262687db6c7b21f2336169386e9c4f4a7d1242f80e3b028dc973bdcbd454b4c2b3557d511e3ad3cbde2877b8 64) 0 512
def keyed (s : State) : State := { s with fuse := { s.fuse with keys := 1, keyHash := [sha256 (leBytes pubK 32)] } }
def recP (tag : List Byte) (idx : Nat) (b : List Byte) : List Byte := leBytes idx 4 ++ leBytes (crc32c b) 4 ++ tag ++ [0, 0, 0, 0] ++ b
def pz : List Byte := List.replicate 128 0

/-- A protected frame of a clear one, as its sender seals it under key 0 of the device's table; with its FCS. -/
def sealed (s : State) (c : List Byte) : List Byte :=
  c.take 22 ++ ccmSeal (s.keyOctets 0) (s.nonce (frSrc c) (frCnt c)) (c.take 16) (c.drop 22)
def onAir (b : List Byte) : List Byte := b ++ leBytes (fcs32 b) 4

/-- A report of robot 0 with one signal of one satellite. -/
def rawB : List Byte := [1, 1, 1, 0] ++ leBytes 0x100000000 6 ++ [0, 0] ++ leBytes (7 * 4 + 70 * 256 + 2 ^ 24) 4 ++ leBytes (30 * 64) 6
def rawItem : RxItem := { obsItem 24 4 with frame := (obsItem 24 4).frame.take 8 ++ leBytes rawB.length 2 ++ leBytes 0 12 ++ rawB }

/-- The Bench with a set that waits for its instant, and a device whose PCIe fault stands. -/
def app (mode : Nat) : BenchApply := { handle := 7, mode, at_ := 0x1_2000_0000, cut := false }
def cutSt (m : Nat) (pause : Option Nat) : State :=
  { bench .applying 0x82 [] with
    hif := { (rings base).hif with live := [{ lv 0x82 [] with started := true }] }
    ben := { st := .applying, ents := [ent1], apply_ := some (app m) }, upd := { base.upd with pause } }
def offSt : State := srcSt 0x7F { level := true }

/-- A robot whose longitudinal loop is closed, and the axes with a loop. -/
def lonSt : State := { robotSt with ctl := { loops := [(24, { st := .closed })] } }
def safeSt : State := { robotSt with saf := { base.saf with run := .safe } }
def stopSt : State := { robotSt with saf := { base.saf with run := .fleetStop } }
def openSt : State := axSt 3 { st := .moving }
def encSt : State := fl { axSt 2 { st := .moving } with ctl := { loops := [(2, { st := .closed })] } } (axF 2 0 3 1) 1

/-- Robot 0 under way at 500 mm/s with a set-point of 1 m/s, and the step it plans. -/
def waySt : State := { planSt with ctl := { loops := [(25, { ref := 1000, refNow := 10000 })] } }
def way0 : Start := { sf := 42, k := { s := 2100000000, v := 500000000 } }
def way1 : PlanStep :=
  { sf := 42, k0 := { s := 2100000000, v := 500000000 }, k1 := { s := 2150166666, v := 505000000, a := 100000000 }, goal := 1000, acc := 1000, jerk := 1000 }

/-- A graph with a patch in validation, and with one that waits for its instant. -/
def patSt (g : Graph) (p : Patch) : State := { host 0x41 [] with trl := { graph := some g, ver := 1, patches := [p] } }

/-- A device with one batch that runs for a submission of the host, and a command whose parameters name a buffer. -/
def snpSt : State :=
  { host 0x28 [] with snp := { batches := [bat (.host 7 0) true], cmds := [{ handle := 7, mode := 1, robot := 0, count := 1, tStart := 0 }] } }
def lvLen (op len : Nat) (p : List Byte) : Live := { lv op p with entry := leBytes op 16 ++ leBytes len 8 ++ slice p 0 40 }
def hostLen (op len : Nat) (p : List Byte) : State := { rings base with hif := { (rings base).hif with live := [lvLen op len p] } }
def subP : List Byte := leBytes 0 8 ++ [1, 0, 1] ++ leBytes 0 13 ++ leBytes 48 4

/-- What its signature, its key and its fields are. -/
theorem hdrB_signature : edVerify (slice hdrB 80 32) (slice hdrB 0 448) (slice hdrB 448 64) = true := by decide +kernel
theorem hdrB_key : sha256 (leBytes pubK 32) = sha256 (slice hdrB 80 32) ∧ leAt hdrB 112 1 = 0 := by decide +kernel
theorem hdrB_fields : readHdr hdrB = { hd1 with hash := [1, 2, 3, 4] ++ leBytes 0 28 } ∧ leAt hdrB 0 4 = 0x4854524D ∧ leAt hdrB 4 1 = 1 ∧ leAt hdrB 8 2 = 0x0B70 ∧
    leAt hdrB 10 1 = 0xA ∧ leAt hdrB 11 1 = 0 ∧ ((([6, 7, 42, 43] ++ (List.range 334).map (114 + ·)).filter fun o => !(leAt hdrB o 1 == 0)) = []) := by decide +kernel
/-- The header of `hdrB` passes on a device that has its key and no floor for its subsystem. -/
theorem hdrB_good (s : Dev) (h : s.fuse.keys = 1 ∧ s.fuse.keyHash = [sha256 (leBytes pubK 32)] ∧ s.floorOf 1 = 0) : s.hdrBad hdrB = none := by
  obtain ⟨hk, hh, hf⟩ := h
  obtain ⟨f0, f1, f2, f3, f4, f5, f6⟩ := hdrB_fields
  have sg : s.hdrSigned hdrB = true := by
    simp [Dev.hdrSigned, Dev.keyUsable, hdrB_key.2, hk, hh, hdrB_signature, ← hdrB_key.1, bitAt]
  unfold Dev.hdrBad
  simp only [f0, f1, f2, f3, f4, f5, f6, sg, hd1, hf]
  simp [pieceSizeOk, ceilDiv, bankBytes]

/-- A witness of clause 1 of EmptyQueueIdles. -/
theorem meets_EmptyQueueIdles_1 :
    (fun (s : State) =>
      (s.pending = []))
      State.reset := by decide +kernel

/-- A witness of clause 1 of NothingIsLeftToSettle. -/
theorem meets_NothingIsLeftToSettle_1 :
    (fun (s t : State) =>
      (s.Settled) ∧ (step s = .next t))
      State.reset State.reset := by exact ⟨by decide +kernel, rfl⟩

/-- A witness of clause 2 of ResetIsSettledAndReadsItsResetValues. -/
theorem meets_ResetIsSettledAndReadsItsResetValues_2 :
    (fun (p : Nat × Nat) =>
      (p ∈ [ (0x1018, 0x1110), (0x1100, 0x2), (0x2038, 0x8), (0x2108, 0x4), (0x2508, 0x1010004), (0x3018, 0x14018), (0x4024,
      0xA03E8), (0x4028, 0x30A0032), (0x4034, 0x640064), (0x4038, 0x3E8), (0x4050, 0x910), (0x4054, 0x8000), (0x4060, 0x1),
      (0x4064, 0x186A0), (0x4208, 0x100), (0x5010, 0xC00), (0x5014, 0x1E0A05), (0x5018, 0xFFFF), (0x5060, 0x14000A01), (0x5068,
      0xF0000), (0x5100, 0x90000), (0x5110, 0xA0A), (0x5114, 0xA539), (0x514C, 0x3C02), (0x5150, 0x6370A), (0x5154, 0xF06),
      (0x5158, 0xA000040), (0x515C, 0x5050F), (0x5160, 0xC80064), (0x5164, 0x3C001E), (0x5168, 0x3C1E0303), (0x6014, 0x302003C),
      (0x6018, 0x2A53096), (0x601C, 0x168FA064), (0x6100, 0xFFFF0000), (0x7010, 0xFF), (0x7014, 0x210061E), (0x7018, 0x1E1E),
      (0x701C, 0xA32), (0x7020, 0x3219003C), (0x7048, 0x6), (0x7054, 0x40), (0x7100, 0xFFFF0000), (0x8014, 0x641E), (0x8018,
      0x280032), (0x801C, 0xA01F4), (0x8020, 0x1E1E3C20), (0x8100, 0x11F4032), (0x9010, 0x643E80C8), (0x9014, 0x1), (0x9018,
      0x1E0005), (0x901C, 0xBB80064), (0x9024, 0x1E641E), (0x9028, 0x140004), (0x9038, 0x1), (0xA014, 0x431E01), (0xA018,
      0x3E8), (0xA01C, 0x6406412C), (0xA028, 0xFFFF), (0xA500, 0x1000), (0xB014, 0x1414), (0xC100, 0xA141419), (0xC104,
      0x1900A00), (0xC108, 0x271005), (0xC10C, 0x2710), (0xC110, 0x186A0), (0xC118, 0x1), (0xC11C, 0x10000), (0xC120,
      0x32000064), (0xC138, 0x3E8), (0xC500, 0xA141411), (0xC504, 0x1900A00), (0xC508, 0x271005), (0xC50C, 0x2710), (0xC510,
      0x186A0), (0xC518, 0x1), (0xC520, 0x32000064), (0xC538, 0x3E8), (0xD014, 0x2), (0xD100, 0x18), (0xD108, 0x600A8), (0xD10C,
      0xC88235), (0xD110, 0x7D02EE0), (0xD800, 0x1), (0xD804, 0x2), (0xD808, 0x2), (0xD80C, 0x5), (0xD8C4, 0x4), (0xE014,
      0x8000), (0xE800, 0x108), (0xE804, 0xC00040), (0x10014, 0x4650), (0x10104, 0x407D0), (0x10108, 0x607D0), (0x1010C,
      0x504B0), (0x10110, 0x205DC), (0x10114, 0x103E8), (0x10118, 0x305DC), (0x1011C, 0x303E8), (0x11004, 0x1), (0x11010, 0xC),
      (0x11018, 0xA0A), (0x13010, 0xC), (0x13014, 0x6), (0x14014, 0x3C090), (0x15014, 0x6402), (0x15018, 0x140A)]))
      (0x1018, 0x1110) := by decide +kernel

/-- A witness of clause 1 of DoorbellsMoveTheirRings. -/
theorem meets_DoorbellsMoveTheirRings_1 :
    (fun (s : State) (_dt r : Nat) (v : Reg) =>
      (s.Settled) ∧ (r < 32) ∧ (s.flag (sqEn r) = true) ∧ (v.toNat < s.sqSize r))
      (rings base) 5 0 9 := by decide +kernel

/-- A witness of clause 2 of DoorbellsMoveTheirRings. -/
theorem meets_DoorbellsMoveTheirRings_2 :
    (fun (s : State) (_dt r : Nat) (v : Reg) =>
      (r < 32) ∧ (s.flag (sqEn r) = true) ∧ (s.sqSize r ≤ v.toNat) ∧ (s.Room 0))
      (rings base) 5 0 16 := by decide +kernel

/-- A witness of clause 3 of DoorbellsMoveTheirRings. -/
theorem meets_DoorbellsMoveTheirRings_3 :
    (fun (s : State) (_dt r : Nat) (v : Reg) =>
      (s.Settled) ∧ (r < 32) ∧ (s.flag (cqEn r) = true) ∧ (v.toNat < s.cqSize r) ∧ ((v.toNat + s.cqSize r - (s.cq r).head) %
      s.cqSize r ≤ (s.cq r).ring.length))
      { rings base with hif := { base.hif with cqs := [(0, { ring := [{ kind := .done }, { kind := .event }] })] } } 5 0 1 := by decide +kernel

/-- A witness of clause 4 of DoorbellsMoveTheirRings. -/
theorem meets_DoorbellsMoveTheirRings_4 :
    (fun (s : State) (_dt r : Nat) (v : Reg) =>
      (r < 32) ∧ (s.flag (cqEn r) = true) ∧ (s.cqSize r ≤ v.toNat ∨ (s.cq r).ring.length < (v.toNat + s.cqSize r - (s.cq
      r).head) % s.cqSize r))
      (rings base) 5 0 1 := by decide +kernel

/-- A witness of clause 1 of RingsAreEnabledAndDisabled. -/
theorem meets_RingsAreEnabledAndDisabled_1 :
    (fun (s : State) (_dt r : Nat) (v : Reg) =>
      (s.Settled) ∧ (r < 32) ∧ (s.flag (sqEn r) = false) ∧ (fieldOf v 16 1 = 1))
      (rings base) 5 3 0x10005 := by decide +kernel

/-- A witness of clause 2 of RingsAreEnabledAndDisabled. -/
theorem meets_RingsAreEnabledAndDisabled_2 :
    (fun (s : State) (_dt r : Nat) (v : Reg) =>
      (s.Settled) ∧ (r < 32) ∧ (fieldOf v 16 1 = 0))
      (rings base) 5 0 0 := by decide +kernel

/-- A witness of clause 3 of RingsAreEnabledAndDisabled. -/
theorem meets_RingsAreEnabledAndDisabled_3 :
    (fun (s : State) (_dt r : Nat) (v : Reg) =>
      (s.Settled) ∧ (r < 32) ∧ (s.flag (cqEn r) = false) ∧ (fieldOf v 7 1 = 1) ∧ ((s.reg (0x2500 + 0x20 * r)).toNat % 4096 = 0)
      ∧ (4 ≤ fieldOf v 0 4) ∧ (fieldOf v 0 4 ≤ 14))
      (rings base) 5 1 0x86 := by decide +kernel

/-- A witness of clause 4 of RingsAreEnabledAndDisabled. -/
theorem meets_RingsAreEnabledAndDisabled_4 :
    (fun (s : State) (_dt r : Nat) (v : Reg) =>
      (s.Settled) ∧ (r < 32) ∧ (s.flag (cqEn r) = false) ∧ (fieldOf v 7 1 = 1) ∧ ((s.reg (0x2500 + 0x20 * r)).toNat % 4096 ≠ 0 ∨
      fieldOf v 0 4 < 4 ∨ 14 < fieldOf v 0 4))
      (rings base) 5 1 0x83 := by decide +kernel

/-- A witness of clause 5 of RingsAreEnabledAndDisabled. -/
theorem meets_RingsAreEnabledAndDisabled_5 :
    (fun (s : State) (_dt r : Nat) (v : Reg) =>
      (s.Settled) ∧ (r < 32) ∧ (fieldOf v 7 1 = 0))
      (rings base) 5 0 0 := by decide +kernel

/-- A witness of clause 1 of SubmissionsAreFetchedInTurn. -/
theorem meets_SubmissionsAreFetchedInTurn_1 :
    (fun (s : State) (_dt r : Nat) (e : List Byte) (a b : List (Nat × Nat)) =>
      (s.Settled) ∧ (s.turn = some r) ∧ (judgeEntry s.fuse.big (slice e 0 64) a b = none) ∧ (s.par.hand = none) ∧ (s.saf.run ≠
      .boot))
      { rings base with hif := { base.hif with sqs := [(0, { tail := 3 })] } } 5 0 ([0x01, 0, 0, 0, 0x55, 0, 0, 0] ++ List.replicate 56 0) [] [] := by decide +kernel

/-- A witness of clause 2 of SubmissionsAreFetchedInTurn. -/
theorem meets_SubmissionsAreFetchedInTurn_2 :
    (fun (s : State) (_dt r : Nat) (e : List Byte) (a b : List (Nat × Nat)) (code off : Nat) =>
      (s.Settled) ∧ (s.turn = some r) ∧ (judgeEntry s.fuse.big (slice e 0 64) a b = some (code, off)) ∧ ((s.cq (s.fld (sqCq
      r))).hold = []))
      { rings base with hif := { base.hif with sqs := [(0, { tail := 3 })] } } 5 0 [0xEE, 0, 0, 0, 0x55, 0, 0, 0] [] [] 0x0020 0 := by decide +kernel

/-- A witness of clause 3 of SubmissionsAreFetchedInTurn. -/
theorem meets_SubmissionsAreFetchedInTurn_3 :
    (fun (s : State) (_dt r : Nat) (_a _b : List (Nat × Nat)) =>
      (s.turn = some r) ∧ (s.Room 0))
      { rings base with hif := { base.hif with sqs := [(0, { tail := 3 })] } } 5 0 [] [] := by decide +kernel

/-- A witness of clause 1 of HeldEntriesAndMessagesAreDelivered. -/
theorem meets_HeldEntriesAndMessagesAreDelivered_1 :
    (fun (s : State) (r : Nat) (e : Entry) (rest : List Entry) =>
      (s.Settled) ∧ ((s.cq r).hold = e :: rest) ∧ (e.kind ≠ .done) ∧ (s.flag (cqEn r) = true) ∧ (s.hif.bme = true) ∧ (s.cqLive r
      < s.cqFree r))
      { rings base with hif := { base.hif with cqs := [(0, { hold := [{ kind := .event, code := 5 }, { kind := .progress }] })] } } 0 { kind := .event, code := 5 } [{ kind := .progress }] := by decide +kernel

/-- A witness of clause 2 of HeldEntriesAndMessagesAreDelivered. -/
theorem meets_HeldEntriesAndMessagesAreDelivered_2 :
    (fun (s : State) (r : Nat) (e : Entry) (rest : List Entry) =>
      (s.Settled) ∧ ((s.cq r).hold = e :: rest) ∧ (e.kind = .done) ∧ (s.flag (cqEn r) = true) ∧ (s.hif.bme = true))
      { host 1 [] with hif := { (host 1 []).hif with cqs := [(0, { hold := [{ kind := .done, code := 5, handle := 7 }] })] } } 0 { kind := .done, code := 5, handle := 7 } [] := by decide +kernel

/-- A witness of clause 3 of HeldEntriesAndMessagesAreDelivered. -/
theorem meets_HeldEntriesAndMessagesAreDelivered_3 :
    (fun (s : State) (r : Nat) =>
      (s.Settled) ∧ ((s.cq r).unsig ≠ 0))
      { rings base with hif := { base.hif with cqs := [(0, { unsig := 2, firstAt := 5 })] } } 0 := by decide +kernel

/-- A witness of clause 4 of HeldEntriesAndMessagesAreDelivered. -/
theorem meets_HeldEntriesAndMessagesAreDelivered_4 :
    (fun (s : State) (_dt v : Nat) =>
      (s.Settled) ∧ (v < 64))
      { base with hif := { base.hif with msixPend := [3] } } 5 3 := by decide +kernel

/-- A witness of clause 1 of NopFenceAndFetchedResumeOfTheHost. -/
theorem meets_NopFenceAndFetchedResumeOfTheHost_1 :
    (fun (s : State) (h : Nat) (l : Live) =>
      (s.Settled) ∧ (s.Runs h 0x01 l))
      (host 1 []) 7 (lv 1 []) := by decide +kernel

/-- A witness of clause 2 of NopFenceAndFetchedResumeOfTheHost. -/
theorem meets_NopFenceAndFetchedResumeOfTheHost_2 :
    (fun (s : State) (h : Nat) (l : Live) =>
      (s.Settled) ∧ (s.Runs h 0x02 l) ∧ (s.hif.live = [l]))
      (host 2 []) 7 (lv 2 []) := by decide +kernel

/-- A witness of clause 3 of NopFenceAndFetchedResumeOfTheHost. -/
theorem meets_NopFenceAndFetchedResumeOfTheHost_3 :
    (fun (s : State) (h : Nat) (l m : Live) =>
      (s.Settled) ∧ (s.Runs h 0x02 l) ∧ (s.hif.live = [m, l]) ∧ (m.op ≠ 2) ∧ (m.handle ≠ h) ∧ (m.order < l.order) ∧ (m.openEnded
      = false) ∧ (m.orphan = false) ∧ (m.sq = l.sq))
      { host 2 [] with hif := { (host 2 []).hif with live := [{ lv 1 [] with handle := 3, started := true }, { lv 2 [] with order := 4 }] } } 7 { lv 2 [] with order := 4 } { lv 1 [] with handle := 3, started := true } := by decide +kernel

/-- A witness of clause 2 of InterfaceResetsDropTheHost. -/
theorem meets_InterfaceResetsDropTheHost_2 :
    (fun (s : State) (_dt : Nat) =>
      (s.Settled) ∧ ((s.src 0x7F).level = true))
      offSt 5 := by decide +kernel

/-- A witness of clause 3 of InterfaceResetsDropTheHost. -/
theorem meets_InterfaceResetsDropTheHost_3 :
    (fun (s : State) (_dt : Nat) =>
      (s.Settled) ∧ ((s.src 0x7F).level = true))
      offSt 5 := by decide +kernel

/-- A witness of clause 4 of InterfaceResetsDropTheHost. -/
theorem meets_InterfaceResetsDropTheHost_4 :
    (fun (s : State) (_dt : Nat) =>
      (s.Settled) ∧ ((s.src 0x7F).level = true))
      offSt 5 := by decide +kernel

/-- A witness of clause 5 of InterfaceResetsDropTheHost. -/
theorem meets_InterfaceResetsDropTheHost_5 :
    (fun (s : State) (_dt : Nat) =>
      (s.Settled) ∧ ((s.src 0x7F).level = true))
      offSt 5 := by decide +kernel

/-- A witness of clause 6 of InterfaceResetsDropTheHost. -/
theorem meets_InterfaceResetsDropTheHost_6 :
    (fun (s : State) (_dt _speed _lanes : Nat) =>
      (s.Settled))
      base 5 4 8 := by decide +kernel

/-- A witness of clause 1 of TheHostWatchdogFollowsItsRule. -/
theorem meets_TheHostWatchdogFollowsItsRule_1 :
    (fun (s : State) (_dt : Nat) (_v : Reg) =>
      (s.Settled))
      (rings base) 5 0 := by decide +kernel

/-- A witness of clause 2 of TheHostWatchdogFollowsItsRule. -/
theorem meets_TheHostWatchdogFollowsItsRule_2 :
    (fun (s : State) =>
      (s.fld (0x2014, 0, 16) ≠ 0) ∧ (s.hif.silent = false))
      (fl base (0x2014, 0, 16) 5) := by decide +kernel

/-- A witness of clause 3 of TheHostWatchdogFollowsItsRule. -/
theorem meets_TheHostWatchdogFollowsItsRule_3 :
    (fun (s : State) =>
      (s.Settled) ∧ (s.fld (0x2014, 0, 16) = 0))
      (rings base) := by decide +kernel

/-- A witness of clause 6 of TheHostWatchdogFollowsItsRule. -/
theorem meets_TheHostWatchdogFollowsItsRule_6 :
    (fun (s : State) (_dt : Nat) (_v : Reg) =>
      (s.Settled))
      (rings base) 5 9 := by decide +kernel

/-- A witness of clause 1 of ReadsOfTimeLatchTheirHighWords. -/
theorem meets_ReadsOfTimeLatchTheirHighWords_1 :
    (fun (s : State) =>
      (s.Settled))
      base := by decide +kernel

/-- A witness of clause 2 of ReadsOfTimeLatchTheirHighWords. -/
theorem meets_ReadsOfTimeLatchTheirHighWords_2 :
    (fun (s : State) =>
      (s.Settled))
      base := by decide +kernel

/-- A witness of clause 3 of ReadsOfTimeLatchTheirHighWords. -/
theorem meets_ReadsOfTimeLatchTheirHighWords_3 :
    (fun (s : State) (n : Nat) =>
      (s.Settled) ∧ (n < 9))
      { base with caps := [(8, { nt := 0x5_0000_0001, frac := 3, flags := 1 })] } 8 := by decide +kernel

/-- A witness of clause 1 of TimeSourceMovesTheTimeState. -/
theorem meets_TimeSourceMovesTheTimeState_1 :
    (fun (s : State) (_dt src : Nat) (off : Int) =>
      (s.Settled) ∧ (src = 0 ∨ src = 2) ∧ (s.sourceIn src = true) ∧ (s.tim.step = none) ∧ (s.pll.refOk = true) ∧ (src = 0 →
      s.station = 0) ∧ (s.tim.st = .locked) ∧ (off.natAbs ≤ s.fld fLockWindow) ∧ (off.natAbs ≤ s.fld fStepThresh) ∧ (s.fld
      fSlewRate ≠ 0))
      { fl base fSrc 0 with tim := { st := .locked, ntValid := true, everLocked := true } } 5 0 40 := by decide +kernel

/-- A witness of clause 2 of TimeSourceMovesTheTimeState. -/
theorem meets_TimeSourceMovesTheTimeState_2 :
    (fun (s : State) (_dt src : Nat) (off : Int) =>
      (src = 0 ∨ src = 2) ∧ (s.sourceIn src = true) ∧ (s.tim.step = none) ∧ (s.pll.refOk = true) ∧ (src = 0 → s.station = 0) ∧
      (s.tim.st = .locked) ∧ (s.fld fStepThresh < off.natAbs) ∧ (s.Room (s.evtCq 0x0401)))
      { rings base with tim := { st := .locked, ntValid := true, everLocked := true } } 5 0 (-4000000000) := by decide +kernel

/-- A witness of clause 3 of TimeSourceMovesTheTimeState. -/
theorem meets_TimeSourceMovesTheTimeState_3 :
    (fun (s : State) (u : Dev) =>
      (u = s.tickTo (secondAtOrAfter (ntAdd s.tim.lastMeas ((s.fld fLossTime * tickHz : Nat) : Int)))) ∧ (s.tim.st = .locked ∨
      s.tim.st = .acquiring) ∧ (s.tim.everLocked = true) ∧ (s.tim.step = none) ∧ (s.fld fLossTime * tickHz ≤ ntSince u.nt
      s.tim.lastMeas))
      lossSt (lossSt.tickTo (secondAtOrAfter (ntAdd 0x1_0000_0000 ((base.fld fLossTime * tickHz : Nat) : Int)))) := by decide +kernel

/-- A witness of clause 4 of TimeSourceMovesTheTimeState. -/
theorem meets_TimeSourceMovesTheTimeState_4 :
    (fun (s : State) (_dt : Nat) =>
      (s.pll.refOk = true))
      { base with tim := { st := .locked, everLocked := true } } 5 := by decide +kernel

/-- A witness of clause 5 of TimeSourceMovesTheTimeState. -/
theorem meets_TimeSourceMovesTheTimeState_5 :
    (fun (s : State) (_dt : Nat) =>
      (s.Settled) ∧ (s.pll.refOk = false))
      { base with pll := {} } 5 := by decide +kernel

/-- A witness of clause 6 of TimeSourceMovesTheTimeState. -/
theorem meets_TimeSourceMovesTheTimeState_6 :
    (fun (s : State) (_dt _sub : Nat) =>
      (s.tim.labelled = true) ∧ (s.fld fPpsinEdge = 0))
      { fl (fl base fSrc 1) fPpsinSec 4 with tim := { labelled := true } } 5 7 := by decide +kernel

/-- A witness of clause 7 of TimeSourceMovesTheTimeState. -/
theorem meets_TimeSourceMovesTheTimeState_7 :
    (fun (s : State) (_ask : Int) =>
      (s.flag fPpsEn = true) ∧ (s.tim.tdcCal = true))
      { fl base fPpsEn 1 with tim := { tdcCal := true } } 5 := by decide +kernel

/-- A witness of clause 1 of TimeStepsOnlyAtItsBoundary. -/
theorem meets_TimeStepsOnlyAtItsBoundary_1 :
    (fun (s : State) (h : Nat) (l : Live) =>
      (s.Settled) ∧ (s.Runs h 0x10 l) ∧ (s.saf.run ≠ .run) ∧ (s.saf.run ≠ .updatePause) ∧ (s.tim.step = none) ∧ (s.tim.st =
      .jumpPending) ∧ ((s.tim.offset - l.ps 0 8).natAbs ≤ l.p 8 4))
      { host 0x10 (leBytes 5000 8 ++ leBytes 10 4) with saf := { base.saf with run := .fleetStop }, tim := { st := .jumpPending, offset := 5004 } } 7 (lv 0x10 (leBytes 5000 8 ++ leBytes 10 4)) := by decide +kernel

/-- A witness of clause 2 of TimeStepsOnlyAtItsBoundary. -/
theorem meets_TimeStepsOnlyAtItsBoundary_2 :
    (fun (s : State) (h : Nat) (l : Live) =>
      (s.Settled) ∧ (s.Runs h 0x10 l) ∧ (s.saf.run = .run ∨ s.saf.run = .updatePause ∨ (s.tim.step.bind (·.handle)).isSome =
      true))
      (host 0x10 []) 7 (lv 0x10 []) := by decide +kernel

/-- A witness of clause 3 of TimeStepsOnlyAtItsBoundary. -/
theorem meets_TimeStepsOnlyAtItsBoundary_3 :
    (fun (s : State) (h : Nat) (l : Live) =>
      (s.Settled) ∧ (s.Runs h 0x10 l) ∧ (s.saf.run ≠ .run) ∧ (s.saf.run ≠ .updatePause) ∧ ((s.tim.step.bind (·.handle)) = none)
      ∧ (s.tim.step.isSome = true ∨ s.tim.st ≠ .jumpPending))
      { host 0x10 [] with saf := { base.saf with run := .fleetStop } } 7 (lv 0x10 []) := by decide +kernel

/-- A witness of clause 4 of TimeStepsOnlyAtItsBoundary. -/
theorem meets_TimeStepsOnlyAtItsBoundary_4 :
    (fun (s : State) (p : PendingStep) =>
      (s.tim.step = some p))
      { rings base with tim := { step := some { delta := 100000, at_ := nextSlotframe base.nt, handle := none } } } { delta := 100000, at_ := nextSlotframe base.nt, handle := none } := by decide +kernel

/-- A witness of clause 1 of TheTimePulseFollowsItsTrain. -/
theorem meets_TheTimePulseFollowsItsTrain_1 :
    (fun (s : State) =>
      (s.Settled) ∧ (s.tim.ppsQual = true) ∧ (s.tim.ppsRate ≠ 0))
      { base with tim := { ppsQual := true } } := by decide +kernel

/-- A witness of clause 2 of TheTimePulseFollowsItsTrain. -/
theorem meets_TheTimePulseFollowsItsTrain_2 :
    (fun (s : State) (dt : Nat) (v : Reg) =>
      (fieldOf v 11 1 = 1) ∧ ((s.tick dt).Allows 0x4060 v))
      base 5 0x801 := by decide +kernel

/-- A witness of clause 3 of TheTimePulseFollowsItsTrain. -/
theorem meets_TheTimePulseFollowsItsTrain_3 :
    (fun (s : State) (h : Nat) (l : Live) =>
      (s.Settled) ∧ (s.Runs h 0x11 l) ∧ (s.tim.ppsQual = false ∨ l.p 2 1 = s.tim.ppsPol) ∧ ((s.tim.ppsChange.bind (·.handle)) =
      none))
      (host 0x11 (leBytes 10 2 ++ [0, 0] ++ leBytes 500 4)) 7 (lv 0x11 (leBytes 10 2 ++ [0, 0] ++ leBytes 500 4)) := by decide +kernel

/-- A witness of clause 4 of TheTimePulseFollowsItsTrain. -/
theorem meets_TheTimePulseFollowsItsTrain_4 :
    (fun (s : State) (h : Nat) (l : Live) =>
      (s.Settled) ∧ (s.Runs h 0x11 l) ∧ (s.tim.ppsQual = true) ∧ (l.p 2 1 ≠ s.tim.ppsPol))
      { host 0x11 (leBytes 10 2 ++ [1, 0] ++ leBytes 500 4) with tim := { ppsQual := true } } 7 (lv 0x11 (leBytes 10 2 ++ [1, 0] ++ leBytes 500 4)) := by decide +kernel

/-- A witness of clause 5 of TheTimePulseFollowsItsTrain. -/
theorem meets_TheTimePulseFollowsItsTrain_5 :
    (fun (s : State) (c : PpsChange) (h : Nat) (l : Live) =>
      (s.Settled) ∧ (s.tim.ppsChange = some c) ∧ (c.handle = some h) ∧ (s.Waits h l))
      { host 0x11 [] with tim := { ppsChange := some { rate := 10, pol := 1, width := 700, phase := 5, at_ := 0x1_4000_0000, handle := some 7 } } } { rate := 10, pol := 1, width := 700, phase := 5, at_ := 0x1_4000_0000, handle := some 7 } 7 (lv 0x11 []) := by decide +kernel

/-- A witness of clause 6 of TheTimePulseFollowsItsTrain. -/
theorem meets_TheTimePulseFollowsItsTrain_6 :
    (fun (s : State) =>
      (s.Settled) ∧ (s.flag (0x4048, 16, 1) = true))
      (rg base 0x4048 0x11312) := by decide +kernel

/-- A witness of clause 7 of TheTimePulseFollowsItsTrain. -/
theorem meets_TheTimePulseFollowsItsTrain_7 :
    (fun (s : State) (_dt : Nat) =>
      (s.Settled))
      base 5 := by decide +kernel

/-- A witness of clause 8 of TheTimePulseFollowsItsTrain. -/
theorem meets_TheTimePulseFollowsItsTrain_8 :
    (fun (s : State) =>
      (s.Settled) ∧ (s.tim.tdcCal = true))
      { base with tim := { tdcCal := true } } := by decide +kernel

/-- A witness of clause 9 of TheTimePulseFollowsItsTrain. -/
theorem meets_TheTimePulseFollowsItsTrain_9 :
    (fun (s : State) =>
      (s.tim.tdcCal = true) ∧ (s.tdc.next ∉ s.tdc.failed))
      { base with tim := { tdcCal := true } } := by decide +kernel

/-- A witness of clause 1 of CapturesRecordTheirEdges. -/
theorem meets_CapturesRecordTheirEdges_1 :
    (fun (s : State) (dt n sub : Nat) (e : NT × Nat) =>
      (s.Settled) ∧ (n < 9) ∧ ((s.cap n).arm = none) ∧ (e = (s.tick dt).edgeAt (if s.tim.tdcCal = true ∧ ¬ n ∈ s.tdc.uncal then
      sub else 0)) ∧ (∀ l ∈ (s.cap n).last, edgeDiff e l < 0 ∨ 100 * 2 ^ 38 ≤ edgeDiff e l * 1000000000))
      base 5 3 300 ((base.tick 5).edgeAt 0) := by decide +kernel

/-- A witness of clause 2 of CapturesRecordTheirEdges. -/
theorem meets_CapturesRecordTheirEdges_2 :
    (fun (s : State) (dt n sub : Nat) (e l : NT × Nat) =>
      (s.Settled) ∧ (n < 9) ∧ ((s.cap n).arm = none) ∧ ((s.cap n).last = some l) ∧ (e = (s.tick dt).edgeAt (if s.tim.tdcCal =
      true ∧ ¬ n ∈ s.tdc.uncal then sub else 0)) ∧ (0 ≤ edgeDiff e l) ∧ (edgeDiff e l * 1000000000 < 100 * 2 ^ 38))
      { base with caps := [(3, { last := some ((base.tick 4).edgeAt 0) })] } 5 3 300 ((base.tick 5).edgeAt 0) ((base.tick 4).edgeAt 0) := by decide +kernel

/-- A witness of clause 3 of CapturesRecordTheirEdges. -/
theorem meets_CapturesRecordTheirEdges_3 :
    (fun (s : State) (_dt n _sub : Nat) (rising : Bool) (a : CapArm) (l : Live) =>
      (s.Settled) ∧ (n < 9) ∧ ((s.cap n).arm = some a) ∧ (a.begun = true) ∧ (a.takes rising = true) ∧ (a.made + 1 < a.count) ∧
      ((s.cap n).last = none) ∧ ((s.cap n).buf = []) ∧ (s.live? a.handle = some l) ∧ (l.orphan = false) ∧ (s.Room l.cq))
      { host 0x12 [] with caps := [(2, { arm := some { handle := 7, edge := 3, count := 5, tStart := 0, tEnd := none, begun := true, made := 1 } })] } 5 2 3 false { handle := 7, edge := 3, count := 5, tStart := 0, tEnd := none, begun := true, made := 1 } (lv 0x12 []) := by decide +kernel

/-- A witness of clause 4 of CapturesRecordTheirEdges. -/
theorem meets_CapturesRecordTheirEdges_4 :
    (fun (s : State) (h : Nat) (l : Live) =>
      (s.Settled) ∧ (s.Runs h 0x12 l) ∧ ((s.cap (l.p 18 1)).arm = none) ∧ (l.p 8 8 = 0 ∨ ntReached s.nt (l.pNt 8) = false))
      (host 0x12 (leBytes 0x2_0000_0000 8 ++ leBytes 0x3_0000_0000 8 ++ leBytes 3 2 ++ [4, 1])) 7 (lv 0x12 (leBytes 0x2_0000_0000 8 ++ leBytes 0x3_0000_0000 8 ++ leBytes 3 2 ++ [4, 1])) := by decide +kernel

/-- A witness of clause 5 of CapturesRecordTheirEdges. -/
theorem meets_CapturesRecordTheirEdges_5 :
    (fun (s : State) (h : Nat) (l : Live) =>
      (s.Settled) ∧ (s.Runs h 0x12 l) ∧ ((s.cap (l.p 18 1)).arm.isSome = true))
      { host 0x12 (List.replicate 18 0 ++ [2, 3]) with caps := [(2, { arm := some { handle := 7, edge := 3, count := 5, tStart := 0, tEnd := none, begun := true, made := 1 } })] } 7 (lv 0x12 (List.replicate 18 0 ++ [2, 3])) := by decide +kernel

/-- A witness of clause 6 of CapturesRecordTheirEdges. -/
theorem meets_CapturesRecordTheirEdges_6 :
    (fun (s : State) (h : Nat) (l : Live) =>
      (s.Settled) ∧ (s.Runs h 0x12 l) ∧ ((s.cap (l.p 18 1)).arm = none) ∧ (l.p 8 8 ≠ 0) ∧ (ntReached s.nt (l.pNt 8) = true))
      (host 0x12 (leBytes 1 8 ++ leBytes 2 8 ++ [1, 0, 2, 3])) 7 (lv 0x12 (leBytes 1 8 ++ leBytes 2 8 ++ [1, 0, 2, 3])) := by decide +kernel

/-- A witness of clause 7 of CapturesRecordTheirEdges. -/
theorem meets_CapturesRecordTheirEdges_7 :
    (fun (s : State) (n : Nat) (a : CapArm) =>
      (s.Settled) ∧ ((s.cap n).arm = some a) ∧ (a.begun = false))
      { base with caps := [(2, { arm := some { handle := 7, edge := 3, count := 5, tStart := 0x1_2000_0000, tEnd := none, begun := false, made := 0 } })] } 2 { handle := 7, edge := 3, count := 5, tStart := 0x1_2000_0000, tEnd := none, begun := false, made := 0 } := by decide +kernel

/-- A witness of clause 8 of CapturesRecordTheirEdges. -/
theorem meets_CapturesRecordTheirEdges_8 :
    (fun (s : State) (n : Nat) (a : CapArm) (e : NT) (l : Live) =>
      (s.Settled) ∧ ((s.cap n).arm = some a) ∧ ((s.cap n).buf = []) ∧ (a.tEnd = some e) ∧ (s.Waits a.handle l))
      { host 0x12 [] with caps := [(2, { arm := some { handle := 7, edge := 3, count := 5, tStart := 0, tEnd := some 0x1_2000_0000, begun := true, made := 1 } })] } 2 { handle := 7, edge := 3, count := 5, tStart := 0, tEnd := some 0x1_2000_0000, begun := true, made := 1 } 0x1_2000_0000 (lv 0x12 []) := by decide +kernel

/-- A witness of clause 1 of TimedOutputsFireAtTheirLaunchTime. -/
theorem meets_TimedOutputsFireAtTheirLaunchTime_1 :
    (fun (s : State) (dt n : Nat) (v : Reg) =>
      (n < 4) ∧ (fieldOf v 2 1 = 1) ∧ (fieldOf v 3 1 = 0) ∧ (s.tim.tdcCal = true) ∧ (s.flag (fOutArm n) = false) ∧ ((usTicks 10
      : Int) ≤ ntDiff (s.outT n) (s.tick dt).nt) ∧ ((s.tick dt).Allows (fOutCtrl n) v))
      { rg (rg base 0x4210 0) 0x4214 0x9 with tim := { tdcCal := true } } 5 1 0x105 := by decide +kernel

/-- A witness of clause 2 of TimedOutputsFireAtTheirLaunchTime. -/
theorem meets_TimedOutputsFireAtTheirLaunchTime_2 :
    (fun (s : State) (dt n : Nat) (v : Reg) =>
      (n < 4) ∧ (fieldOf v 2 1 = 1) ∧ (fieldOf v 3 1 = 0) ∧ (fieldOf v 4 1 = 0) ∧ (s.tim.tdcCal = true) ∧ (s.flag (fOutArm n) =
      false) ∧ (ntDiff (s.outT n) (s.tick dt).nt < (usTicks 10 : Int)) ∧ ((s.tick dt).Allows (fOutCtrl n) v))
      { base with tim := { tdcCal := true } } 5 1 0x105 := by decide +kernel

/-- A witness of clause 3 of TimedOutputsFireAtTheirLaunchTime. -/
theorem meets_TimedOutputsFireAtTheirLaunchTime_3 :
    (fun (s : State) (dt n : Nat) (v : Reg) =>
      (n < 4) ∧ (fieldOf v 3 1 = 1) ∧ (((s.tick dt).outDisarm n).Allows (fOutCtrl n) (withField (withField v 3 1 0) 2 1 0)))
      { rg base 0x4218 0x5 with tim := { tdcCal := true, outNext := [none, some 5, none, none] } } 5 1 0x109 := by decide +kernel

/-- A witness of clause 4 of TimedOutputsFireAtTheirLaunchTime. -/
theorem meets_TimedOutputsFireAtTheirLaunchTime_4 :
    (fun (s : State) (n : Nat) =>
      (s.Settled) ∧ (n < 4) ∧ (s.flag (fOutArm n) = true))
      { rg base 0x4218 0x5 with tim := { tdcCal := true, outNext := [none, some 0x1_1000_0000, none, none] } } 1 := by decide +kernel

/-- A witness of clause 1 of TheBenchStagesChecksAndDiscards. -/
theorem meets_TheBenchStagesChecksAndDiscards_1 :
    (fun (s : State) (h : Nat) (l : Live) (b : List Byte) =>
      (s.Settled) ∧ (s.Runs h 0x80 l) ∧ (s.ben.st ≠ .applying) ∧ (l.len = 16 * l.p 0 2) ∧ (stagedBad b = none) ∧ (((stagedOf
      b).foldl mergeEntry s.ben.ents).length ≤ 512))
      { rings base with hif := { (rings base).hif with live := [{ lv 0x80 [1, 0] with entry := leBytes 0x80 16 ++ leBytes 16 8 ++ slice [1, 0] 0 40 }] } } 7 { lv 0x80 [1, 0] with entry := leBytes 0x80 16 ++ leBytes 16 8 ++ slice [1, 0] 0 40 } (leBytes 0x4034 4 ++ leBytes 700 4 ++ leBytes 0xFFFF 4 ++ leBytes 0 4) := by decide +kernel

/-- A witness of clause 2 of TheBenchStagesChecksAndDiscards. -/
theorem meets_TheBenchStagesChecksAndDiscards_2 :
    (fun (s : State) (h : Nat) (l : Live) (b : List Byte) =>
      (s.Settled) ∧ (s.Runs h 0x80 l) ∧ (s.ben.st ≠ .applying) ∧ (l.len = 16 * l.p 0 2) ∧ (stagedBad b = none) ∧ (512 <
      ((stagedOf b).foldl mergeEntry s.ben.ents).length))
      { rings base with hif := { (rings base).hif with live := [{ lv 0x80 [1, 0] with entry := leBytes 0x80 16 ++ leBytes 16 8 ++ slice [1, 0] 0 40 }] }, ben := { st := .staged, ents := (List.range 512).map fun k => { addr := 0x20000 + 4 * k, value := 0, mask := 1 } } } 7 { lv 0x80 [1, 0] with entry := leBytes 0x80 16 ++ leBytes 16 8 ++ slice [1, 0] 0 40 } (leBytes 0x4034 4 ++ leBytes 700 4 ++ leBytes 0xFFFF 4 ++ leBytes 0 4) := by decide +kernel

/-- A witness of clause 3 of TheBenchStagesChecksAndDiscards. -/
theorem meets_TheBenchStagesChecksAndDiscards_3 :
    (fun (s : State) (h : Nat) (l : Live) =>
      (s.Settled) ∧ (s.Runs h 0x81 l) ∧ (s.ben.st = .staged ∨ s.ben.st = .checked))
      (bench .staged 0x81 []) 7 (lv 0x81 []) := by decide +kernel

/-- A witness of clause 4 of TheBenchStagesChecksAndDiscards. -/
theorem meets_TheBenchStagesChecksAndDiscards_4 :
    (fun (s : State) (dt : Nat) (c : BenchCheck) (rest : List BenchCheck) (l : Live) =>
      (s.Settled) ∧ (s.ben.check = c :: rest) ∧ (s.Waits c.handle l) ∧ (c.stale = false) ∧ (s.ben.st = .staged) ∧ (((s.tick
      dt).setBen { s.ben with check := rest }).judgeSet c.ents false 0 = []))
      { bench .staged 0x81 [] with ben := { st := .staged, ents := [ent1], check := [{ handle := 7, ents := [ent1] }] } } 5 { handle := 7, ents := [ent1] } [] (lv 0x81 []) := by decide +kernel

/-- A witness of clause 5 of TheBenchStagesChecksAndDiscards. -/
theorem meets_TheBenchStagesChecksAndDiscards_5 :
    (fun (s : State) (dt : Nat) (c : BenchCheck) (rest : List BenchCheck) (l : Live) (bad : List Broken) =>
      (s.Settled) ∧ (s.ben.check = c :: rest) ∧ (s.Waits c.handle l) ∧ (c.stale = false) ∧ (s.ben.st = .staged) ∧ (((s.tick
      dt).setBen { s.ben with check := rest }).judgeSet c.ents false 0 = bad) ∧ (bad ≠ []))
      { bench .staged 0x81 [] with ben := { st := .staged, ents := [{ addr := 0x4024, value := 0, mask := 0xFFFFFFFF }], check := [{ handle := 7, ents := [{ addr := 0x4208, value := 0, mask := 0xFFFFF }] }] } } 5 { handle := 7, ents := [{ addr := 0x4208, value := 0, mask := 0xFFFFF }] } [] (lv 0x81 []) [(0, 1), (0, 3)] := by decide +kernel

/-- A witness of clause 6 of TheBenchStagesChecksAndDiscards. -/
theorem meets_TheBenchStagesChecksAndDiscards_6 :
    (fun (s : State) (h : Nat) (l : Live) =>
      (s.Settled) ∧ (s.Runs h 0x83 l) ∧ (s.ben.apply_ = none))
      (bench .checked 0x83 []) 7 (lv 0x83 []) := by decide +kernel

/-- A witness of clause 7 of TheBenchStagesChecksAndDiscards. -/
theorem meets_TheBenchStagesChecksAndDiscards_7 :
    (fun (s : State) (h : Nat) (l m : Live) (a : BenchApply) =>
      (s.Settled) ∧ (s.Runs h 0x83 l) ∧ (s.ben.apply_ = some a) ∧ (s.cutPassed a = false) ∧ (s.Waits a.handle m) ∧ (a.handle ≠
      h))
      { rings base with hif := { (rings base).hif with live := [{ lv 0x82 [] with handle := 3, started := true }, lv 0x83 []] }, ben := { st := .applying, ents := [ent1], apply_ := some { handle := 3, mode := 0, at_ := 0x1_2000_0000, cut := false } } } 7 (lv 0x83 []) { lv 0x82 [] with handle := 3, started := true } { handle := 3, mode := 0, at_ := 0x1_2000_0000, cut := false } := by decide +kernel

/-- A witness of clause 8 of TheBenchStagesChecksAndDiscards. -/
theorem meets_TheBenchStagesChecksAndDiscards_8 :
    (fun (s : State) (h : Nat) (l : Live) (a : BenchApply) =>
      (s.Settled) ∧ (s.Runs h 0x83 l) ∧ (s.ben.apply_ = some a) ∧ (s.cutPassed a = true))
      { bench .applying 0x83 [] with ben := { st := .applying, ents := [ent1], apply_ := some { handle := 3, mode := 0, at_ := 0x1_2000_0000, cut := true } } } 7 (lv 0x83 []) { handle := 3, mode := 0, at_ := 0x1_2000_0000, cut := true } := by decide +kernel

/-- A witness of clause 1 of TheBenchAppliesACheckedSetAtItsInstant. -/
theorem meets_TheBenchAppliesACheckedSetAtItsInstant_1 :
    (fun (s : State) (h : Nat) (l : Live) =>
      (s.Settled) ∧ (s.Runs h 0x82 l) ∧ (s.ben.st = .checked) ∧ (l.p 8 1 = 2 ∨ ((msTicks 2 : Int) ≤ ntDiff (l.pNt 0) s.nt ∧
      ntDiff (l.pNt 0) s.nt ≤ ((60 * tickHz : Nat) : Int) ∧ (needsSlot s.ben.ents = false ∨ onSlot (l.pNt 0) = true))))
      (bench .checked 0x82 (leBytes 0 8 ++ [2])) 7 (lv 0x82 (leBytes 0 8 ++ [2])) := by decide +kernel

/-- A witness of clause 2 of TheBenchAppliesACheckedSetAtItsInstant. -/
theorem meets_TheBenchAppliesACheckedSetAtItsInstant_2 :
    (fun (s : State) (h : Nat) (l : Live) =>
      (s.Settled) ∧ (s.Runs h 0x82 l) ∧ (s.ben.st = .staged ∨ s.ben.st = .empty))
      (bench .staged 0x82 []) 7 (lv 0x82 []) := by decide +kernel

/-- A witness of clause 3 of TheBenchAppliesACheckedSetAtItsInstant. -/
theorem meets_TheBenchAppliesACheckedSetAtItsInstant_3 :
    (fun (s : State) (a : BenchApply) =>
      (s.Settled) ∧ (s.ben.apply_ = some a) ∧ (a.cut = false) ∧ (s.upd.pause ≠ some 1) ∧ (((s.tickTo (ntAdd a.at_ (-(msTicks 2 :
      Nat)))).withCommitted a.at_).judgeSet s.ben.ents false 0 = []))
      { bench .applying 0x82 [] with ben := { st := .applying, ents := [ent1], apply_ := some { handle := 3, mode := 0, at_ := 0x1_2000_0000, cut := false } } } { handle := 3, mode := 0, at_ := 0x1_2000_0000, cut := false } := by decide +kernel

/-- A witness of clause 4 of TheBenchAppliesACheckedSetAtItsInstant. -/
theorem meets_TheBenchAppliesACheckedSetAtItsInstant_4 :
    (fun (s : State) (a : BenchApply) (l : Live) (_down _parity : Bool) (bad : List Broken) =>
      (s.Settled) ∧ (s.ben.apply_ = some a) ∧ (a.cut = false) ∧ (s.upd.pause ≠ some 1) ∧ (s.Waits a.handle l) ∧ (((s.tickTo
      (ntAdd a.at_ (-(msTicks 2 : Nat)))).withCommitted a.at_).judgeSet s.ben.ents false 0 = bad) ∧ (bad ≠ []))
      { bench .applying 0x82 [] with ben := { st := .applying, ents := [{ addr := 0x4208, value := 0, mask := 0xFFFFF }], apply_ := some { handle := 7, mode := 0, at_ := 0x1_2000_0000, cut := false } } } { handle := 7, mode := 0, at_ := 0x1_2000_0000, cut := false } (lv 0x82 []) true false [(0, 1), (0, 3)] := by decide +kernel

/-- A witness of clause 5 of TheBenchAppliesACheckedSetAtItsInstant. -/
theorem meets_TheBenchAppliesACheckedSetAtItsInstant_5 :
    (fun (s : State) (a : BenchApply) (l : Live) =>
      (s.Settled) ∧ (s.ben.apply_ = some a) ∧ (a.cut = false) ∧ (s.upd.pause ≠ some 1) ∧ (s.Waits a.handle l) ∧ (((s.tickTo
      (ntAdd a.at_ (-(msTicks 2 : Nat)))).withCommitted a.at_).judgeSet s.ben.ents false 0 = []))
      (cutSt 0 none) (app 0) { lv 0x82 [] with started := true } := by decide +kernel

/-- A witness of clause 6 of TheBenchAppliesACheckedSetAtItsInstant. -/
theorem meets_TheBenchAppliesACheckedSetAtItsInstant_6 :
    (fun (s : State) (a : BenchApply) (l : Live) =>
      (s.ben.apply_ = some a) ∧ (a.cut = false) ∧ (s.upd.pause ≠ some 1) ∧ (s.Waits a.handle l) ∧ (((s.tickTo (ntAdd a.at_
      (-(msTicks 2 : Nat)))).withCommitted a.at_).judgeSet s.ben.ents false 0 = []))
      (cutSt 0 none) (app 0) { lv 0x82 [] with started := true } := by decide +kernel

/-- A witness of clause 7 of TheBenchAppliesACheckedSetAtItsInstant. -/
theorem meets_TheBenchAppliesACheckedSetAtItsInstant_7 :
    (fun (s : State) (a : BenchApply) (l : Live) (_down _parity : Bool) =>
      (s.Settled) ∧ (s.ben.apply_ = some a) ∧ (a.cut = false) ∧ (s.upd.pause = some 1) ∧ (a.mode ≠ 2) ∧ (s.Waits a.handle l))
      (cutSt 0 (some 1)) (app 0) { lv 0x82 [] with started := true } true false := by decide +kernel

/-- A witness of clause 8 of TheBenchAppliesACheckedSetAtItsInstant. -/
theorem meets_TheBenchAppliesACheckedSetAtItsInstant_8 :
    (fun (s : State) (a : BenchApply) (_down _parity : Bool) =>
      (s.Settled) ∧ (s.ben.apply_ = some a) ∧ (a.cut = false) ∧ (s.upd.pause = some 1) ∧ (a.mode = 2))
      (cutSt 2 (some 1)) (app 2) true false := by decide +kernel

/-- A witness of clause 9 of TheBenchAppliesACheckedSetAtItsInstant. -/
theorem meets_TheBenchAppliesACheckedSetAtItsInstant_9 :
    (fun (s : State) (a : BenchApply) (l : Live) =>
      (s.ben.apply_ = some a) ∧ (a.cut = true) ∧ (s.Waits a.handle l) ∧ (s.ben.ents = []))
      { bench .applying 0x82 [] with ben := { st := .applying, ents := [], apply_ := some { handle := 7, mode := 0, at_ := 0x1_2000_0000, cut := true } } } { handle := 7, mode := 0, at_ := 0x1_2000_0000, cut := true } (lv 0x82 []) := by decide +kernel

/-- A witness of clause 10 of TheBenchAppliesACheckedSetAtItsInstant. -/
theorem meets_TheBenchAppliesACheckedSetAtItsInstant_10 :
    (fun (s : State) (a : BenchApply) (e : Staged) =>
      (s.ben.apply_ = some a) ∧ (a.cut = true) ∧ (s.ben.ents = [e]) ∧ (e.addr / 4096 = 0xB) ∧ (s.live? a.handle = none))
      { bench .applying 0x82 [] with ben := { st := .applying, ents := [ent1], apply_ := some { handle := 3, mode := 0, at_ := 0x1_2000_0000, cut := true } } } { handle := 3, mode := 0, at_ := 0x1_2000_0000, cut := true } ent1 := by decide +kernel

/-- A witness of clause 1 of DirectWritesTakeEffectAtOnce. -/
theorem meets_DirectWritesTakeEffectAtOnce_1 :
    (fun (s : State) (dt off : Nat) (v : Reg) =>
      (off / 4096 = 0xB) ∧ (off % 4 = 0) ∧ (knownReg off = true) ∧ ((s.tick dt).Allows off v))
      base 5 0xB014 0x1403 := by decide +kernel

/-- A witness of clause 2 of DirectWritesTakeEffectAtOnce. -/
theorem meets_DirectWritesTakeEffectAtOnce_2 :
    (fun (s : State) (dt off : Nat) (v : Reg) =>
      (s.Settled) ∧ (off / 4096 ∉ [0x2, 0xF, 0x3E]) ∧ (off % 4 = 0) ∧ (ownRow off = false) ∧ (isReg off = true) ∧ (s.upd.pause ≠
      some 1) ∧ ((s.tick dt).judgeSet [wordEntry off v] true 0 ≠ []))
      base 5 0x4208 0 := by decide +kernel

/-- A witness of clause 3 of DirectWritesTakeEffectAtOnce. -/
theorem meets_DirectWritesTakeEffectAtOnce_3 :
    (fun (s : State) (dt : Nat) (v : Reg) =>
      (fieldOf v 14 1 = 1) ∧ ((s.tick dt).Allows 0x5100 v) ∧ (s.gns.fe = none) ∧ (fieldOf v 0 3 < s.nPorts))
      base 5 0x94801 := by decide +kernel

/-- A witness of clause 4 of DirectWritesTakeEffectAtOnce. -/
theorem meets_DirectWritesTakeEffectAtOnce_4 :
    (fun (s : State) (dt g : Nat) (v : Reg) =>
      (fieldOf v 0 4 = g) ∧ (fieldOf v 4 1 = 1) ∧ (fieldOf v 5 1 = 0) ∧ ((s.tick dt).Allows 0x5064 v) ∧ (s.gns.calib = none) ∧
      (s.gns.spare.isSome = true) ∧ (s.grpServes g = true))
      base 5 3 0x13 := by decide +kernel

/-- A witness of clause 5 of DirectWritesTakeEffectAtOnce. -/
theorem meets_DirectWritesTakeEffectAtOnce_5 :
    (fun (s : State) (dt g : Nat) (v : Reg) =>
      (fieldOf v 0 4 = g) ∧ (fieldOf v 4 1 = 0) ∧ (fieldOf v 5 1 = 1) ∧ ((s.tick dt).Allows 0x5064 v) ∧ (s.grpThere g = true) ∧
      (g ∉ s.gns.retired))
      base 5 3 0x23 := by decide +kernel

/-- A witness of clause 6 of DirectWritesTakeEffectAtOnce. -/
theorem meets_DirectWritesTakeEffectAtOnce_6 :
    (fun (s : State) (dt : Nat) (v : Reg) =>
      ((s.tick dt).Allows 0x7068 v))
      base 5 0x81 := by decide +kernel

/-- A witness of clause 7 of DirectWritesTakeEffectAtOnce. -/
theorem meets_DirectWritesTakeEffectAtOnce_7 :
    (fun (s : State) (dt : Nat) (v : Reg) =>
      (fieldOf v 0 1 = 1) ∧ (fieldOf v 2 2 = 0) ∧ ((s.tick dt).Allows 0x301C v) ∧ (s.mem.scrub = false) ∧ (s.mem.scrubWait =
      false))
      base 5 1 := by decide +kernel

/-- A witness of clause 8 of DirectWritesTakeEffectAtOnce. -/
theorem meets_DirectWritesTakeEffectAtOnce_8 :
    (fun (s : State) (dt : Nat) (v : Reg) =>
      (fieldOf v 0 1 = 0) ∧ (fieldOf v 2 2 = 1) ∧ ((s.tick dt).Allows 0x301C v) ∧ (s.mem.rank0.present = true) ∧
      (s.mem.rank0.retired = false) ∧ (s.mem.rank0.migrating = false) ∧ (s.mem.rank1.present = true) ∧ (s.mem.rank1.retired =
      false) ∧ (s.mem.rank1.migrating = false) ∧ (s.mem.rank1.used + s.mem.rank0.used ≤ s.mem.rank1.blocks))
      { base with mem := { rank0 := { present := true, blocks := 20, used := 5 }, rank1 := { present := true, blocks := 20, used := 5 } } } 5 4 := by decide +kernel

/-- A witness of clause 9 of DirectWritesTakeEffectAtOnce. -/
theorem meets_DirectWritesTakeEffectAtOnce_9 :
    (fun (s : State) (dt n : Nat) (v : Reg) =>
      (n < 24) ∧ (fieldOf v 0 1 = 1) ∧ ((s.tick dt).Allows (0xC100 + 0x40 * n) v) ∧ ((s.axis n).st = .disabled) ∧ (fieldOf v 1 2
      ≠ 3))
      base 5 3 0x0A141401 := by decide +kernel

/-- A witness of clause 1 of ASwitchLatchesAndStopsItsAxis. -/
theorem meets_ASwitchLatchesAndStopsItsAxis_1 :
    (fun (s : State) (_dt n : Nat) (neg : Bool) =>
      (n < 24) ∧ ((s.axis n).st ≠ .homing ∨ (s.axis n).isRef neg = false))
      (axSt 2 { st := .idle }) 5 2 true := by decide +kernel

/-- A witness of clause 2 of ASwitchLatchesAndStopsItsAxis. -/
theorem meets_ASwitchLatchesAndStopsItsAxis_2 :
    (fun (s : State) (dt n h : Nat) (neg : Bool) (m : AxMove) (l : Live) =>
      (n < 24) ∧ ((s.axis n).st = .moving) ∧ ((s.tick dt).axNeg n = neg) ∧ ((if neg then (s.axis n).inP else (s.axis n).inN) =
      false) ∧ (((s.tick dt).chatTrips n (if neg then (s.axis n).tripsN else (s.axis n).tripsP)).length < s.fld (axF n 8 0 8)) ∧
      (s.axMode n ≠ 0 ∨ s.flag (axF n 4 (if neg then 3 else 1) 1) = false) ∧ ((s.axis n).home = none) ∧ ((s.axis n).move = some
      m) ∧ (m.handle = some h) ∧ (s.Waits h l))
      (axSt 2 { st := .moving, dir := true, move := some mv, ref := true }) 5 2 7 true mv { lv 0x68 [] with started := true } := by decide +kernel

/-- A witness of clause 3 of ASwitchLatchesAndStopsItsAxis. -/
theorem meets_ASwitchLatchesAndStopsItsAxis_3 :
    (fun (s : State) (dt n : Nat) (neg : Bool) =>
      (n < 24) ∧ ((s.axis n).st = .moving) ∧ ((s.tick dt).axNeg n = neg) ∧ ((s.tick dt).axEdging n = false) ∧ ((if neg then
      (s.axis n).inP else (s.axis n).inN) = false) ∧ (((s.tick dt).chatTrips n (if neg then (s.axis n).tripsN else (s.axis
      n).tripsP)).length < s.fld (axF n 8 0 8)) ∧ (s.axMode n = 0) ∧ (s.flag (axF n 4 (if neg then 3 else 1) 1) = true))
      (fl (fl (axSt 2 { st := .moving, dir := true, move := some mv, ref := true }) (axF 2 0 1 2) 0) (axF 2 4 3 1) 1) 5 2 true := by decide +kernel

/-- A witness of clause 4 of ASwitchLatchesAndStopsItsAxis. -/
theorem meets_ASwitchLatchesAndStopsItsAxis_4 :
    (fun (s : State) (dt n : Nat) (neg : Bool) (k : Homing) (l : Live) =>
      (n < 24) ∧ ((s.axis n).st = .homing) ∧ ((s.tick dt).axNeg n = neg) ∧ ((s.axis n).isRef neg = false) ∧ ((if neg then
      (s.axis n).inP else (s.axis n).inN) = false) ∧ (((s.tick dt).chatTrips n (if neg then (s.axis n).tripsN else (s.axis
      n).tripsP)).length < s.fld (axF n 8 0 8)) ∧ ((s.axis n).home = some k) ∧ (s.Waits k.handle l))
      (axSt 2 { st := .homing, dir := true, home := some (hm 1 false) }) 5 2 true (hm 1 false) { lv 0x68 [] with started := true } := by decide +kernel

/-- A witness of clause 5 of ASwitchLatchesAndStopsItsAxis. -/
theorem meets_ASwitchLatchesAndStopsItsAxis_5 :
    (fun (s : State) (_dt n : Nat) (neg : Bool) =>
      (n < 24) ∧ ((s.axis n).st ≠ .homing) ∧ ((if neg then (s.axis n).inP else (s.axis n).inN) = true))
      (axSt 2 { st := .idle, inP := true }) 5 2 true := by decide +kernel

/-- A witness of clause 6 of ASwitchLatchesAndStopsItsAxis. -/
theorem meets_ASwitchLatchesAndStopsItsAxis_6 :
    (fun (s : State) (dt n : Nat) (neg : Bool) =>
      (n < 24) ∧ ((s.axis n).st ≠ .homing) ∧ ((if neg then (s.axis n).inP else (s.axis n).inN) = false) ∧ (s.fld (axF n 8 0 8) ≤
      ((s.tick dt).chatTrips n (if neg then (s.axis n).tripsN else (s.axis n).tripsP)).length))
      (fl (fl (axSt 2 { st := .idle, tripsN := [1_000_000_000, 1_000_000_001] }) (axF 2 8 0 8) 2) (axF 2 8 8 16) 100) 5 2 true := by decide +kernel

/-- A witness of clause 7 of ASwitchLatchesAndStopsItsAxis. -/
theorem meets_ASwitchLatchesAndStopsItsAxis_7 :
    (fun (s : State) (_dt n : Nat) (_neg : Bool) =>
      (s.Settled) ∧ (n < 24))
      (axSt 2 { st := .idle, latchN := true, inN := true }) 5 2 true := by decide +kernel

/-- A witness of clause 8 of ASwitchLatchesAndStopsItsAxis. -/
theorem meets_ASwitchLatchesAndStopsItsAxis_8 :
    (fun (s : State) (_dt n : Nat) =>
      (s.axEnc n = true))
      (fl (axSt 2 { st := .moving, dir := true, move := some mv, ref := true }) (axF 2 0 3 1) 1) 5 2 := by decide +kernel

/-- A witness of clause 1 of AxesComeToRestAndAnswer. -/
theorem meets_AxesComeToRestAndAnswer_1 :
    (fun (s : State) (n h : Nat) (m : AxMove) (l : Live) (u : Dev) =>
      (u = s.tickUp (s.axis n).endUp) ∧ (s.Settled) ∧ ((s.axis n).st = .moving) ∧ (m.mmode ≠ 3) ∧ ((s.axis n).home = none) ∧
      ((s.axis n).move = some m) ∧ (m.handle = some h) ∧ (s.Waits h l))
      (axSt 2 { st := .moving, move := some mv, ref := true }) 2 7 mv { lv 0x68 [] with started := true } ((axSt 2 { st := .moving, move := some mv, ref := true }).tickUp ((axSt 2 { st := .moving, move := some mv, ref := true }).axis 2).endUp) := by decide +kernel

/-- A witness of clause 2 of AxesComeToRestAndAnswer. -/
theorem meets_AxesComeToRestAndAnswer_2 :
    (fun (s : State) (n h : Nat) (m : AxMove) (l : Live) (u : Dev) =>
      (u = s.tickUp (s.axis n).endUp) ∧ (s.Settled) ∧ ((s.axis n).st = .stopping) ∧ ((s.axis n).home = none) ∧ ((s.axis n).move
      = some m) ∧ (m.handle = some h) ∧ (s.Waits h l))
      (axSt 2 { st := .stopping, move := some mv, ref := true, endWith := some 0x0707 }) 2 7 mv { lv 0x68 [] with started := true } ((axSt 2 { st := .stopping, move := some mv, ref := true, endWith := some 0x0707 }).tickUp ((axSt 2 { st := .stopping, move := some mv, ref := true, endWith := some 0x0707 }).axis 2).endUp) := by decide +kernel

/-- A witness of clause 3 of AxesComeToRestAndAnswer. -/
theorem meets_AxesComeToRestAndAnswer_3 :
    (fun (s : State) (dt n h : Nat) (m : AxMove) (l : Live) (w : Int × Int) (u : Dev) =>
      (u = s.tick dt) ∧ (s.Settled) ∧ ((s.axis n).st = .moving) ∧ (m.mmode = 3) ∧ (s.hedge n = some w) ∧ (w.1 ≤ u.axPos n) ∧
      (u.axPos n ≤ w.2) ∧ (u.axOver n = true) ∧ ((s.axis n).home = none) ∧ ((s.axis n).move = some m) ∧ (m.handle = some h) ∧
      (s.Waits h l))
      (fl (axSt 2 { st := .moving, move := some { mv with mmode := 3 }, ref := true }) (axF 2 0 1 2) 1) 5 2 7 { mv with mmode := 3 } { lv 0x68 [] with started := true } (0, 1) ((fl (axSt 2 { st := .moving, move := some { mv with mmode := 3 }, ref := true }) (axF 2 0 1 2) 1).tick 5) := by decide +kernel

/-- A witness of clause 4 of AxesComeToRestAndAnswer. -/
theorem meets_AxesComeToRestAndAnswer_4 :
    (fun (s : State) (dt n h : Nat) (m : AxMove) (l : Live) (w : Int × Int) =>
      ((s.axis n).st = .moving ∨ (s.axis n).st = .stopping) ∧ (s.hedge n = some w) ∧ ((s.tick dt).axPos n < w.1 ∨ w.2 < (s.tick
      dt).axPos n) ∧ ((s.axis n).home = none) ∧ ((s.axis n).move = some m) ∧ (m.handle = some h) ∧ (s.Waits h l))
      (fl (axSt 2 { st := .moving, move := some mv, ref := true, pos := 40 }) (axF 2 0 1 2) 1) 5 2 7 mv { lv 0x68 [] with started := true } (0, 1) := by decide +kernel

/-- A witness of clause 5 of AxesComeToRestAndAnswer. -/
theorem meets_AxesComeToRestAndAnswer_5 :
    (fun (s : State) (dt n : Nat) (k : Homing) (u : Dev) =>
      (u = s.tick dt) ∧ (s.Settled) ∧ ((s.axis n).st = .homing) ∧ ((s.axis n).home = some k) ∧ (k.phase = 1 ∨ k.phase = 2) ∧
      (k.found = false) ∧ ((u.phaseRest n k).2 = true) ∧ ((if (k.phase == 1) != k.neg then (s.axis n).latchN else (s.axis
      n).latchP) = false))
      (axSt 2 { st := .homing, home := some (hm 1 false), dir := true }) 5 2 (hm 1 false) ((axSt 2 { st := .homing, home := some (hm 1 false), dir := true }).tick 5) := by decide +kernel

/-- A witness of clause 6 of AxesComeToRestAndAnswer. -/
theorem meets_AxesComeToRestAndAnswer_6 :
    (fun (s : State) (_dt n : Nat) (k : Homing) (l : Live) (u : Dev) =>
      (u = s.tickUp (s.axis n).endUp) ∧ (s.Settled) ∧ ((s.axis n).st = .homing) ∧ (k.phase = 3) ∧ (k.found = true) ∧ ((s.axis
      n).home = some k) ∧ (s.Waits k.handle l))
      (axSt 2 { st := .homing, home := some (hm 3 true) }) 5 2 (hm 3 true) { lv 0x68 [] with started := true } ((axSt 2 { st := .homing, home := some (hm 3 true) }).tickUp ((axSt 2 { st := .homing, home := some (hm 3 true) }).axis 2).endUp) := by decide +kernel

/-- A witness of clause 7 of AxesComeToRestAndAnswer. -/
theorem meets_AxesComeToRestAndAnswer_7 :
    (fun (s : State) (n : Nat) (k : Homing) =>
      ((s.axis n).st = .homing) ∧ ((s.axis n).home = some k) ∧ (k.phase = 1))
      (axSt 2 { st := .homing, ref := true, home := some (hm 1 false) }) 2 (hm 1 false) := by decide +kernel

/-- A witness of clause 8 of AxesComeToRestAndAnswer. -/
theorem meets_AxesComeToRestAndAnswer_8 :
    (fun (s : State) (dt n : Nat) (_cnt : Int) (k : Homing) (u : Dev) =>
      (u = s.tick dt) ∧ (s.Settled) ∧ ((s.axis n).st = .homing) ∧ ((s.axis n).home = some k) ∧ (k.phase = 3) ∧ (k.found = false)
      ∧ ((s.axis n).kAt ≤ u.up))
      (axSt 2 { st := .homing, home := some (hm 3 false) }) 5 2 70 (hm 3 false) ((axSt 2 { st := .homing, home := some (hm 3 false) }).tick 5) := by decide +kernel

/-- A witness of clause 1 of AxesAreEnergisedHomedAndStopped. -/
theorem meets_AxesAreEnergisedHomedAndStopped_1 :
    (fun (s : State) (n : Nat) =>
      (s.Settled) ∧ (n < 24) ∧ ((s.axis n).st = .idle) ∧ ((s.axis n).stand = false))
      (axSt 2 { st := .idle, en := true }) 2 := by decide +kernel

/-- A witness of clause 2 of AxesAreEnergisedHomedAndStopped. -/
theorem meets_AxesAreEnergisedHomedAndStopped_2 :
    (fun (s : State) (n : Nat) =>
      (s.Settled) ∧ ((s.axis n).waitEn = true))
      (axSt 2 { st := .idle, waitEn := true }) 2 := by decide +kernel

/-- A witness of clause 3 of AxesAreEnergisedHomedAndStopped. -/
theorem meets_AxesAreEnergisedHomedAndStopped_3 :
    (fun (s : State) (h n : Nat) (seen : Bool) (l : Live) =>
      (s.Settled) ∧ (s.Runs h 0x69 l) ∧ (l.p 20 1 = n) ∧ (s.HomeOk l n) ∧ (s.saf.run = .run) ∧ ((s.axis n).st = .idle) ∧
      (s.saf.latchA = false) ∧ (s.saf.latchB = false) ∧ ((if seen != decide (l.p 22 1 = 1) then (s.axis n).latchN else (s.axis
      n).latchP) = false))
      { fl (host 0x69 (leBytes 5000 4 ++ leBytes 100 4 ++ leBytes 50 4 ++ leBytes 20 4 ++ leBytes 12 4 ++ [2, 0, 1])) (axF 2 0xC 0 21) 500 with axes := [(2, { st := .idle })] } 7 2 false (lv 0x69 (leBytes 5000 4 ++ leBytes 100 4 ++ leBytes 50 4 ++ leBytes 20 4 ++ leBytes 12 4 ++ [2, 0, 1])) := by decide +kernel

/-- A witness of clause 4 of AxesAreEnergisedHomedAndStopped. -/
theorem meets_AxesAreEnergisedHomedAndStopped_4 :
    (fun (s : State) (h : Nat) (_seen : Bool) (l : Live) =>
      (s.Settled) ∧ (s.Runs h 0x69 l) ∧ (s.HomeOk l (l.p 20 1)) ∧ (s.saf.run = .fleetStop ∨ s.saf.run = .safe))
      { fl (host 0x69 (leBytes 5000 4 ++ leBytes 100 4 ++ leBytes 50 4 ++ leBytes 20 4 ++ leBytes 12 4 ++ [2, 0, 1])) (axF 2 0xC 0 21) 500 with saf := { base.saf with run := .fleetStop } } 7 false (lv 0x69 (leBytes 5000 4 ++ leBytes 100 4 ++ leBytes 50 4 ++ leBytes 20 4 ++ leBytes 12 4 ++ [2, 0, 1])) := by decide +kernel

/-- A witness of clause 5 of AxesAreEnergisedHomedAndStopped. -/
theorem meets_AxesAreEnergisedHomedAndStopped_5 :
    (fun (s : State) (h n : Nat) (l : Live) =>
      (s.Settled) ∧ (s.Runs h 0x6A l) ∧ (l.p 0 1 = n) ∧ (l.p 1 1 = 1))
      { host 0x6A [2, 1] with axes := [(2, { st := .moving })] } 7 2 (lv 0x6A [2, 1]) := by decide +kernel

/-- A witness of clause 6 of AxesAreEnergisedHomedAndStopped. -/
theorem meets_AxesAreEnergisedHomedAndStopped_6 :
    (fun (s : State) (h n : Nat) (l : Live) =>
      (s.Runs h 0x6A l) ∧ (l.p 0 1 = n) ∧ (l.p 1 1 = 2) ∧ ((s.axis n).atRest = false) ∧ ((s.axis n).home.map (·.handle) ≠ some
      h) ∧ ((s.axis n).move.bind (·.handle) ≠ some h))
      { host 0x6A [2, 2] with axes := [(2, { st := .moving, ref := true, move := some { mv with handle := none } })] } 7 2 (lv 0x6A [2, 2]) := by decide +kernel

/-- A witness of clause 7 of AxesAreEnergisedHomedAndStopped. -/
theorem meets_AxesAreEnergisedHomedAndStopped_7 :
    (fun (s : State) (h n : Nat) (l : Live) =>
      (s.Settled) ∧ (s.Runs h 0x6A l) ∧ (l.p 0 1 = n) ∧ (l.p 1 1 = 3))
      { host 0x6A [2, 3] with axes := [(2, { st := .fault, latchP := true, faultBy := 14 })] } 7 2 (lv 0x6A [2, 3]) := by decide +kernel

/-- A witness of clause 1 of TheControlEngineComputesItsSlots. -/
theorem meets_TheControlEngineComputesItsSlots_1 :
    (fun (s : State) (dt n : Nat) (cnt : Int) (u : Dev) (v : F32) =>
      (u = if s.axEnc n then (s.tick dt).setAxis n { s.axis n with encCnt := (s.axis n).encCnt + cnt } else s.tick dt) ∧
      (s.Settled) ∧ (n < 24) ∧ (s.upd.pause ≠ some 4) ∧ ((s.loop n).st = .open_) ∧ (s.axEnc n = false ∨ (u.axPos n - u.axEncPos
      n).natAbs ≤ s.fld (axF n 0x20 0 24)) ∧ (v = fAdd (u.axIn n).2 (s.loop n).i) ∧ (fFinite v = true) ∧ (fFinite (u.axLimit n
      (s.loop n).u v) = true))
      openSt 5 3 0 ((openSt.tick 5).setAxis 3 (openSt.axis 3)) (fAdd (((openSt.tick 5).setAxis 3 (openSt.axis 3)).axIn 3).2 (openSt.loop 3).i) := by decide +kernel

/-- A witness of clause 2 of TheControlEngineComputesItsSlots. -/
theorem meets_TheControlEngineComputesItsSlots_2 :
    (fun (s : State) (dt n : Nat) (cnt : Int) (u : Dev) (x : LoopSlot × Nat) =>
      (u = (s.tick dt).setAxis n { s.axis n with encCnt := (s.axis n).encCnt + cnt }) ∧ (s.Settled) ∧ (s.axEnc n = true) ∧
      (s.upd.pause ≠ some 4) ∧ ((s.loop n).st = .closed) ∧ ((u.axPos n - u.axEncPos n).natAbs ≤ s.fld (axF n 0x20 0 24)) ∧ (x =
      s.law n { s.loop n with misses := 0 } (u.axIn n).1 (u.axIn n).2 (u.axLimit n (s.loop n).u)) ∧ (x.1.finite = true) ∧
      (fFinite x.2 = true))
      encSt 5 2 0 ((encSt.tick 5).setAxis 2 (encSt.axis 2)) (encSt.law 2 { encSt.loop 2 with misses := 0 } (((encSt.tick 5).setAxis 2 (encSt.axis 2)).axIn 2).1 (((encSt.tick 5).setAxis 2 (encSt.axis 2)).axIn 2).2 (((encSt.tick 5).setAxis 2 (encSt.axis 2)).axLimit 2 (encSt.loop 2).u)) := by decide +kernel

/-- A witness of clause 3 of TheControlEngineComputesItsSlots. -/
theorem meets_TheControlEngineComputesItsSlots_3 :
    (fun (s : State) (dt n : Nat) (cnt : Int) (u : Dev) =>
      (u = (s.tick dt).setAxis n { s.axis n with encCnt := (s.axis n).encCnt + cnt }) ∧ (s.axEnc n = true) ∧ (s.upd.pause ≠ some
      4) ∧ ((s.axis n).st ≠ .disabled) ∧ ((s.axis n).st = .fault → (s.axis n).faultBy ≠ 9) ∧ (s.fld (axF n 0x20 0 24) < (u.axPos
      n - u.axEncPos n).natAbs))
      { fl (fl (axSt 2 { st := .moving, ref := true, pos := 40 }) (axF 2 0 3 1) 1) (axF 2 0x20 0 24) 10 with pending := [] } 5 2 0 (({ fl (fl (axSt 2 { st := .moving, ref := true, pos := 40 }) (axF 2 0 3 1) 1) (axF 2 0x20 0 24) 10 with pending := [] }.toDev.tick 5).setAxis 2 ({ fl (fl (axSt 2 { st := .moving, ref := true, pos := 40 }) (axF 2 0 3 1) 1) (axF 2 0x20 0 24) 10 with pending := [] }.axis 2)) := by decide +kernel

/-- A witness of clause 4 of TheControlEngineComputesItsSlots. -/
theorem meets_TheControlEngineComputesItsSlots_4 :
    (fun (s : State) (dt i : Nat) (u : Dev) (due at_ : NT) =>
      (u = s.tick dt) ∧ (due = ntAdd u.nt u.packLead) ∧ (at_ = u.setApply (u.batchSlots i due).2) ∧ (s.Settled) ∧ (i < s.nSlots)
      ∧ (s.getsSetpoints i = true) ∧ (s.upd.pause ≠ some 4) ∧ (s.stoppedRobot i = true) ∧ (s.saf.run = .safe))
      safeSt 5 0 (safeSt.tick 5) (ntAdd (safeSt.tick 5).nt (safeSt.tick 5).packLead) ((safeSt.tick 5).setApply ((safeSt.tick 5).batchSlots 0 (ntAdd (safeSt.tick 5).nt (safeSt.tick 5).packLead)).2) := by decide +kernel

/-- A witness of clause 5 of TheControlEngineComputesItsSlots. -/
theorem meets_TheControlEngineComputesItsSlots_5 :
    (fun (s : State) (dt i : Nat) (u : Dev) (due at_ : NT) =>
      (u = s.tick dt) ∧ (due = ntAdd u.nt u.packLead) ∧ (at_ = u.setApply (u.batchSlots i due).2) ∧ (i < s.nSlots) ∧
      (s.getsSetpoints i = true) ∧ (s.upd.pause ≠ some 4) ∧ (s.stoppedRobot i = true) ∧ (s.saf.run ≠ .safe))
      { robotSt with saf := { base.saf with run := .fleetStop } } 5 0 (stopSt.tick 5) (ntAdd (stopSt.tick 5).nt (stopSt.tick 5).packLead) ((stopSt.tick 5).setApply ((stopSt.tick 5).batchSlots 0 (ntAdd (stopSt.tick 5).nt (stopSt.tick 5).packLead)).2) := by decide +kernel

/-- A witness of clause 6 of TheControlEngineComputesItsSlots. -/
theorem meets_TheControlEngineComputesItsSlots_6 :
    (fun (s : State) (dt i : Nat) (u : Dev) (due at_ : NT) (p : PairIn) (x : LoopSlot × Nat) =>
      (u = s.tick dt) ∧ (due = ntAdd u.nt u.packLead) ∧ (at_ = u.setApply (u.batchSlots i due).2) ∧ (p = ((u.setLoop (24 + 2 *
      i) (rampRef (s.loop (24 + 2 * i)) (s.lease i).tRep)).setLoop (25 + 2 * i) (rampRef (s.loop (25 + 2 * i)) (s.lease
      i).tRep)).pairIn i at_) ∧ (i < s.nSlots) ∧ (s.getsSetpoints i = true) ∧ (s.upd.pause ≠ some 4) ∧ (s.stoppedRobot i =
      false) ∧ (s.saf.run ≠ .safe) ∧ ((s.loop (24 + 2 * i)).st = .closed) ∧ (x = s.law (24 + 2 * i) { rampRef (s.loop (24 + 2 *
      i)) (s.lease i).tRep with misses := 0 } p.latE p.latFf (s.limitOut (24 + 2 * i) (fun v => v) (s.loop (24 + 2 * i)).u)) ∧
      (x.1.finite = true) ∧ (fFinite x.2 = true))
      lonSt 5 0 (lonSt.tick 5) (ntAdd (lonSt.tick 5).nt (lonSt.tick 5).packLead) ((lonSt.tick 5).setApply ((lonSt.tick 5).batchSlots 0 (ntAdd (lonSt.tick 5).nt (lonSt.tick 5).packLead)).2) ((((lonSt.tick 5).setLoop 24 (rampRef (lonSt.loop 24) 1)).setLoop 25 (rampRef (lonSt.loop 25) 1)).pairIn 0 ((lonSt.tick 5).setApply ((lonSt.tick 5).batchSlots 0 (ntAdd (lonSt.tick 5).nt (lonSt.tick 5).packLead)).2)) (lonSt.law 24 { rampRef (lonSt.loop 24) 1 with misses := 0 } ((((lonSt.tick 5).setLoop 24 (rampRef (lonSt.loop 24) 1)).setLoop 25 (rampRef (lonSt.loop 25) 1)).pairIn 0 ((lonSt.tick 5).setApply ((lonSt.tick 5).batchSlots 0 (ntAdd (lonSt.tick 5).nt (lonSt.tick 5).packLead)).2)).latE ((((lonSt.tick 5).setLoop 24 (rampRef (lonSt.loop 24) 1)).setLoop 25 (rampRef (lonSt.loop 25) 1)).pairIn 0 ((lonSt.tick 5).setApply ((lonSt.tick 5).batchSlots 0 (ntAdd (lonSt.tick 5).nt (lonSt.tick 5).packLead)).2)).latFf (lonSt.limitOut 24 (fun v => v) (lonSt.loop 24).u)) := by decide +kernel

/-- A witness of clause 1 of AMissedDeadlineHoldsItsSlot. -/
theorem meets_AMissedDeadlineHoldsItsSlot_1 :
    (fun (s : State) (_dt n : Nat) =>
      (n < 24) ∧ (s.upd.pause ≠ some 4) ∧ ((s.loop n).st = .closed))
      (fl { axSt 3 { st := .moving } with ctl := { loops := [(3, { st := .closed, misses := 2 })] } } (0xA014, 20, 4) 3) 5 3 := by decide +kernel

/-- A witness of clause 2 of AMissedDeadlineHoldsItsSlot. -/
theorem meets_AMissedDeadlineHoldsItsSlot_2 :
    (fun (s : State) (dt n i : Nat) (p : SetPt) (u : Dev) =>
      (u = s.tick dt) ∧ (n < s.nLoops) ∧ (loopRobot n = some i) ∧ (s.upd.pause ≠ some 4) ∧ (s.getsSetpoints i = true) ∧ ((s.loop
      (24 + 2 * i)).st = .closed) ∧ ((s.loop (25 + 2 * i)).st = .closed) ∧ ((Tab.get (fun _ => []) s.ctl.sent i).head? = some p))
      { robotSt with ctl := { loops := [(24, { st := .closed }), (25, { st := .closed })], sent := [(0, [{ t := 77, v := 500, k := 3 }])] } } 5 25 0 { t := 77, v := 500, k := 3 } (({ robotSt with ctl := { loops := [(24, { st := .closed }), (25, { st := .closed })], sent := [(0, [{ t := 77, v := 500, k := 3 }])] } } : State).tick 5) := by decide +kernel

/-- A witness of clause 1 of MotionCommandsBecomeTransactions. -/
theorem meets_MotionCommandsBecomeTransactions_1 :
    (fun (s : State) (h : Nat) (l : Live) (_b : List Byte) =>
      (s.Settled) ∧ (s.Runs h 0x51 l) ∧ (s.TakesMotion) ∧ (s.applyTimeOk (l.pNt 0) = true) ∧ (l.p 8 1 ≤ 64) ∧ (l.p 9 1 ≤ 1) ∧
      (l.len = 32 * l.p 8 1))
      { host 0x51 (leBytes 0 8 ++ [1, 1]) with hif := { (rings base).hif with live := [{ lv 0x51 (leBytes 0 8 ++ [1, 1]) with entry := leBytes 0x51 16 ++ leBytes 32 8 ++ slice (leBytes 0 8 ++ [1, 1]) 0 40 }] } } 7 { lv 0x51 (leBytes 0 8 ++ [1, 1]) with entry := leBytes 0x51 16 ++ leBytes 32 8 ++ slice (leBytes 0 8 ++ [1, 1]) 0 40 } (leBytes 3 32) := by decide +kernel

/-- A witness of clause 2 of MotionCommandsBecomeTransactions. -/
theorem meets_MotionCommandsBecomeTransactions_2 :
    (fun (s : State) (h : Nat) (l : Live) =>
      (s.Settled) ∧ (s.Runs h 0x60 l) ∧ (s.TakesMotion ∨ (s.saf.run = .fleetStop ∧ s.inFlight < 256)) ∧ (s.applyTimeOk (l.pNt 0)
      = true))
      (host 0x60 (leBytes 0 8 ++ leBytes 3 2)) 7 (lv 0x60 (leBytes 0 8 ++ leBytes 3 2)) := by decide +kernel

/-- A witness of clause 3 of MotionCommandsBecomeTransactions. -/
theorem meets_MotionCommandsBecomeTransactions_3 :
    (fun (s : State) (h : Nat) (l : Live) =>
      (s.Settled) ∧ (s.Runs h 0x61 l) ∧ (s.TakesMotion) ∧ (s.applyTimeOk (l.pNt 0) = true) ∧ (l.p 10 1 ≤ 1))
      (host 0x61 (leBytes 0 8 ++ leBytes 3 2 ++ [1])) 7 (lv 0x61 (leBytes 0 8 ++ leBytes 3 2 ++ [1])) := by decide +kernel

/-- A witness of clause 4 of MotionCommandsBecomeTransactions. -/
theorem meets_MotionCommandsBecomeTransactions_4 :
    (fun (s : State) (h : Nat) (l : Live) =>
      (s.Settled) ∧ (s.Runs h 0x62 l) ∧ (s.TakesMotion) ∧ (s.applyTimeOk (l.pNt 0) = true) ∧ (24 ≤ l.p 8 2) ∧ (l.p 8 2 % 2 = 0)
      ∧ (l.p 10 1 = 1 ∨ l.p 10 1 = 2) ∧ (20 ≤ l.p 12 2) ∧ (l.p 12 2 ≤ 500))
      (host 0x62 (leBytes 0 8 ++ leBytes 24 2 ++ [1, 0] ++ leBytes 100 2)) 7 (lv 0x62 (leBytes 0 8 ++ leBytes 24 2 ++ [1, 0] ++ leBytes 100 2)) := by decide +kernel

/-- A witness of clause 5 of MotionCommandsBecomeTransactions. -/
theorem meets_MotionCommandsBecomeTransactions_5 :
    (fun (s : State) (h : Nat) (l : Live) =>
      (s.Settled) ∧ (s.Runs h 0x68 l) ∧ (s.TakesMotion) ∧ (s.applyTimeOk (l.pNt 0) = true) ∧ (moveBlockOk (slice l.entry 40 24)
      = true))
      (host 0x68 (leBytes 0 8 ++ [2] ++ leBytes 0 7 ++ [1] ++ leBytes 0 3 ++ leBytes 900 4 ++ leBytes 1000 4 ++ leBytes 1000 4 ++ leBytes 1000 4 ++ leBytes 0 4)) 7 (lv 0x68 (leBytes 0 8 ++ [2] ++ leBytes 0 7 ++ [1] ++ leBytes 0 3 ++ leBytes 900 4 ++ leBytes 1000 4 ++ leBytes 1000 4 ++ leBytes 1000 4 ++ leBytes 0 4)) := by decide +kernel

/-- A witness of clause 6 of MotionCommandsBecomeTransactions. -/
theorem meets_MotionCommandsBecomeTransactions_6 :
    (fun (s : State) (h : Nat) (l : Live) =>
      (s.Settled) ∧ (s.Runs h 0x68 l) ∧ (s.saf.run = .fleetStop) ∧ (s.applyTimeOk (l.pNt 0) = true) ∧ (moveBlockOk (slice
      l.entry 40 24) = true))
      { host 0x68 (leBytes 0 8 ++ [2] ++ leBytes 0 7 ++ [1] ++ leBytes 0 3 ++ leBytes 900 4 ++ leBytes 1000 4 ++ leBytes 1000 4 ++ leBytes 1000 4 ++ leBytes 0 4) with saf := { base.saf with run := .fleetStop } } 7 (lv 0x68 (leBytes 0 8 ++ [2] ++ leBytes 0 7 ++ [1] ++ leBytes 0 3 ++ leBytes 900 4 ++ leBytes 1000 4 ++ leBytes 1000 4 ++ leBytes 1000 4 ++ leBytes 0 4)) := by decide +kernel

/-- A witness of clause 7 of MotionCommandsBecomeTransactions. -/
theorem meets_MotionCommandsBecomeTransactions_7 :
    (fun (s : State) (h : Nat) (l : Live) =>
      (s.Settled) ∧ (s.Runs h 0x61 l) ∧ (s.saf.run = .run) ∧ (256 ≤ s.inFlight) ∧ (s.applyTimeOk (l.pNt 0) = true) ∧ (l.p 10 1 ≤
      1))
      { host 0x61 (leBytes 0 8 ++ leBytes 3 2 ++ [1]) with txu := { txns := List.replicate 256 (tx1 0 .waiting .bad) } } 7 (lv 0x61 (leBytes 0 8 ++ leBytes 3 2 ++ [1])) := by decide +kernel

/-- A witness of clause 1 of TransactionsAreValidatedInTurn. -/
theorem meets_TransactionsAreValidatedInTurn_1 :
    (fun (s : State) (_dt n h set steer blend : Nat) (l : Live) (x : Txn) =>
      (s.Settled) ∧ (s.txu.txns.find? (fun y => y.phase == .waiting) = some x) ∧ (x.id = 0) ∧ (x.step = false) ∧ (x.acts =
      [.loopMode n 1 set steer blend]) ∧ (n < 24) ∧ ((s.loop n).st ≠ .open_) ∧ (x.applyAt = none) ∧ (x.round = false) ∧ (x.also
      = []) ∧ (x.handle = some h) ∧ (s.Waits h l) ∧ (s.Room l.cq) ∧ (s.par.hand = none) ∧ (∀ r ∈ s.trl.resv, ¬ (r.txn =
      s.txu.nextId ∧ r.staged = true)))
      { txSt [tx1 0 .waiting (.loopMode 3 1 0 0 0)] with ctl := { loops := [(3, { st := .closed })] } } 5 3 7 0 0 0 { lv 0x51 [] with started := true } (tx1 0 .waiting (.loopMode 3 1 0 0 0)) := by decide +kernel

/-- A witness of clause 2 of TransactionsAreValidatedInTurn. -/
theorem meets_TransactionsAreValidatedInTurn_2 :
    (fun (s : State) (_dt h : Nat) (l : Live) (x : Txn) (rest : List Action) =>
      (s.Settled) ∧ (s.txu.txns.find? (fun y => y.phase == .waiting) = some x) ∧ (x.id = 0) ∧ (x.acts = .bad :: rest) ∧ (x.tasks
      = []) ∧ (x.round = false) ∧ (x.also = []) ∧ (x.handle = some h) ∧ (s.Waits h l) ∧ (s.par.hand = none))
      (txSt [tx1 0 .waiting .bad]) 5 7 { lv 0x51 [] with started := true } (tx1 0 .waiting .bad) [] := by decide +kernel

/-- A witness of clause 3 of TransactionsAreValidatedInTurn. -/
theorem meets_TransactionsAreValidatedInTurn_3 :
    (fun (s : State) (h : Nat) (l : Live) (x : Txn) (a : NT) =>
      (s.Settled) ∧ (s.txu.txns = [x]) ∧ (x.phase = .waiting) ∧ (x.fleet = true) ∧ (x.applyAt = some a) ∧ (x.id = 0) ∧ (x.tasks
      = []) ∧ (x.round = false) ∧ (x.also = []) ∧ (x.handle = some h) ∧ (s.Waits h l))
      (txSt [{ tx1 0 .waiting (.taskSet 1 0 1 0) with applyAt := some 0x1_0800_0000 }]) 7 { lv 0x51 [] with started := true } { tx1 0 .waiting (.taskSet 1 0 1 0) with applyAt := some 0x1_0800_0000 } 0x1_0800_0000 := by decide +kernel

/-- A witness of clause 1 of TransactionsPassTheirCutOffAndCommit. -/
theorem meets_TransactionsPassTheirCutOffAndCommit_1 :
    (fun (s : State) (_late : Bool) (x : Txn) (a : NT) =>
      (s.Settled) ∧ (s.txu.txns = [x]) ∧ (x.phase = .staged) ∧ (x.fleet = false) ∧ (x.applyAt = some a) ∧ (x.parts = []) ∧ (x.id
      ≠ 0) ∧ ((s.tickTo (ntAdd a (-(msTicks 1 : Nat)))).recheck x = none))
      (txSt [{ tx1 5 .staged (.loopMode 3 1 0 0 0) with applyAt := some 0x1_0800_0000 }]) false { tx1 5 .staged (.loopMode 3 1 0 0 0) with applyAt := some 0x1_0800_0000 } 0x1_0800_0000 := by decide +kernel

/-- A witness of clause 2 of TransactionsPassTheirCutOffAndCommit. -/
theorem meets_TransactionsPassTheirCutOffAndCommit_2 :
    (fun (s : State) (x : Txn) (a : NT) =>
      (s.Settled) ∧ (s.txu.txns = [x]) ∧ (x.phase = .offered) ∧ (x.fleet = true) ∧ (a = x.cNt) ∧ ((x.parts.all fun p =>
      p.reofferApply.isNone) = true) ∧ (x.id ≠ 0) ∧ ((s.tickTo (ntAdd a (-(msTicks 1 : Nat)))).recheck x = none))
      (txSt [{ tx1 5 .offered (.loopMode 24 1 0 0 0) with applyAt := some 0x1_1000_0000, cNt := 0x1_0800_0000 }]) { tx1 5 .offered (.loopMode 24 1 0 0 0) with applyAt := some 0x1_1000_0000, cNt := 0x1_0800_0000 } 0x1_0800_0000 := by decide +kernel

/-- A witness of clause 3 of TransactionsPassTheirCutOffAndCommit. -/
theorem meets_TransactionsPassTheirCutOffAndCommit_3 :
    (fun (s : State) (x : Txn) (a : NT) =>
      (s.txu.txns = [x]) ∧ (x.phase = .offered) ∧ (x.fleet = true) ∧ (a = x.cNt) ∧ ((x.parts.all fun p => p.reofferApply.isNone)
      = true) ∧ (x.id ≠ 0) ∧ ((s.tickTo (ntAdd a (-(msTicks 1 : Nat)))).recheck x = none))
      (txSt [{ tx1 5 .offered (.loopMode 24 1 0 0 0) with applyAt := some 0x1_1000_0000, cNt := 0x1_0800_0000 }]) { tx1 5 .offered (.loopMode 24 1 0 0 0) with applyAt := some 0x1_1000_0000, cNt := 0x1_0800_0000 } 0x1_0800_0000 := by decide +kernel

/-- A witness of clause 4 of TransactionsPassTheirCutOffAndCommit. -/
theorem meets_TransactionsPassTheirCutOffAndCommit_4 :
    (fun (s : State) (h : Nat) (_late : Bool) (x : Txn) (a : NT) (l : Live) =>
      (s.txu.txns = [x]) ∧ (x.phase = .staged) ∧ (x.fleet = false) ∧ (x.applyAt = some a) ∧ (x.parts = []) ∧ (x.id ≠ 0) ∧
      ((s.tickTo (ntAdd a (-(msTicks 1 : Nat)))).recheck x = some stConflict) ∧ (x.tasks = []) ∧ (x.round = false) ∧ (x.also =
      []) ∧ (x.handle = some h) ∧ (s.Waits h l))
      (txSt [{ tx1 5 .staged (.loopMode 3 7 0 0 0) with applyAt := some 0x1_0800_0000 }]) 7 false { tx1 5 .staged (.loopMode 3 7 0 0 0) with applyAt := some 0x1_0800_0000 } 0x1_0800_0000 { lv 0x51 [] with started := true } := by decide +kernel

/-- A witness of clause 5 of TransactionsPassTheirCutOffAndCommit. -/
theorem meets_TransactionsPassTheirCutOffAndCommit_5 :
    (fun (s : State) (u : Dev) (ids : List Nat) =>
      (u = s.tickTo s.beaconNt) ∧ (s.beaconing = true) ∧ (u.holdsToken = true) ∧ (s.saf.restarting = false) ∧ (s.mac.silentUntil
      = none) ∧ (s.upd.pause ≠ some 5) ∧ (ids = ((s.txu.lists.find? fun x => x.c == u.frameStart).map (·.ids)).getD []))
      { base with mac := { lanes := [(0, { st := .inService })] } } ({ base with mac := { lanes := [(0, { st := .inService })] } }.tickTo { base with mac := { lanes := [(0, { st := .inService })] } }.beaconNt) [] := by decide +kernel

/-- A witness of clause 6 of TransactionsPassTheirCutOffAndCommit. -/
theorem meets_TransactionsPassTheirCutOffAndCommit_6 :
    (fun (s : State) (u : Dev) (id : Nat) (x : Txn) =>
      (u = s.tickTo s.beaconNt) ∧ (s.beaconing = true) ∧ (u.holdsToken = true) ∧ (s.saf.restarting = false) ∧ (s.mac.silentUntil = none) ∧ (s.upd.pause ≠ some 5) ∧ ((s.txu.lists.find? fun y => y.c == u.frameStart).map (·.ids) = some [id]) ∧ (s.txn? id = some x) ∧ (x.phase = .listed) ∧ (x.doneAt = true) ∧ ((x.acts.all fun a => match a with | .setpoint .. => false | _ => true) = true))
      { txSt [{ tx1 5 .listed (.loopMode 24 1 0 0 0) with applyAt := some 0x1_1000_0000 }] with txu := { txns := [{ tx1 5 .listed (.loopMode 24 1 0 0 0) with applyAt := some 0x1_1000_0000 }], lists := [{ c := (base.tickTo base.beaconNt).frameStart, ids := [5] }] } } ({ txSt [{ tx1 5 .listed (.loopMode 24 1 0 0 0) with applyAt := some 0x1_1000_0000 }] with txu := { txns := [{ tx1 5 .listed (.loopMode 24 1 0 0 0) with applyAt := some 0x1_1000_0000 }], lists := [{ c := (base.tickTo base.beaconNt).frameStart, ids := [5] }] } }.tickTo base.beaconNt) 5 { tx1 5 .listed (.loopMode 24 1 0 0 0) with applyAt := some 0x1_1000_0000 } := by decide +kernel

/-- A witness of clause 1 of TransactionsApplySettleAndAreCancelled. -/
theorem meets_TransactionsApplySettleAndAreCancelled_1 :
    (fun (s : State) (n h set steer blend : Nat) (x : Txn) (a : NT) (l : Live) =>
      (s.Settled) ∧ (s.txu.txns = [x]) ∧ (x.phase = .committed) ∧ (x.applyAt = some a) ∧ (x.id ≠ 0) ∧ (x.acts = [.loopMode n 1
      set steer blend]) ∧ (n < 24) ∧ ((s.loop n).st = .closed ∨ (s.loop n).st = .held) ∧ (x.parts = []) ∧ (x.tasks = []) ∧
      (x.behind = []) ∧ (x.move = false) ∧ (s.trl.resv = []) ∧ (s.trl.high = false) ∧ (x.round = false) ∧ (x.also = []) ∧
      (x.handle = some h) ∧ (s.Waits h l))
      { txSt [{ tx1 5 .committed (.loopMode 3 1 0 0 0) with applyAt := some 0x1_0800_0000 }] with ctl := { loops := [(3, { st := .closed, u := 0x42C80000 })] } } 3 7 0 0 0 { tx1 5 .committed (.loopMode 3 1 0 0 0) with applyAt := some 0x1_0800_0000 } 0x1_0800_0000 { lv 0x51 [] with started := true } := by decide +kernel

/-- A witness of clause 2 of TransactionsApplySettleAndAreCancelled. -/
theorem meets_TransactionsApplySettleAndAreCancelled_2 :
    (fun (s : State) (x : Txn) (a : NT) =>
      (s.txu.txns = [x]) ∧ (x.phase = .failed) ∧ (x.applyAt = some a) ∧ (x.grants = []))
      (txSt [{ tx1 5 .failed (.loopMode 3 1 0 0 0) with applyAt := some 0x1_0800_0000 }]) { tx1 5 .failed (.loopMode 3 1 0 0 0) with applyAt := some 0x1_0800_0000 } 0x1_0800_0000 := by decide +kernel

/-- A witness of clause 3 of TransactionsApplySettleAndAreCancelled. -/
theorem meets_TransactionsApplySettleAndAreCancelled_3 :
    (fun (s : State) (x : Txn) (p : Part) (at_ : NT) =>
      (s.txu.txns = [x]) ∧ (x.id ≠ 0) ∧ (x.phase = .applied) ∧ (x.tasks = []) ∧ (x.parts = [p]) ∧ (p.confirmed = false) ∧
      (p.ended = false) ∧ (p.reofferAt = some at_) ∧ ((s.lease p.slot).st = .active))
      { txSt [{ tx1 5 .applied (.loopMode 24 1 0 0 0) with parts := [{ slot := 0, epoch := 3, recs := [], reofferAt := some 0x1_0800_0000, unsyncedAt := some 0x1_0900_0000 }] }] with txu := { txns := [{ tx1 5 .applied (.loopMode 24 1 0 0 0) with parts := [{ slot := 0, epoch := 3, recs := [], reofferAt := some 0x1_0800_0000, unsyncedAt := some 0x1_0900_0000 }] }], leases := [(0, { st := .active, epoch := 3 })] } } { tx1 5 .applied (.loopMode 24 1 0 0 0) with parts := [{ slot := 0, epoch := 3, recs := [], reofferAt := some 0x1_0800_0000, unsyncedAt := some 0x1_0900_0000 }] } { slot := 0, epoch := 3, recs := [], reofferAt := some 0x1_0800_0000, unsyncedAt := some 0x1_0900_0000 } 0x1_0800_0000 := by decide +kernel

/-- A witness of clause 4 of TransactionsApplySettleAndAreCancelled. -/
theorem meets_TransactionsApplySettleAndAreCancelled_4 :
    (fun (s : State) (x : Txn) (p : Part) (at_ : NT) =>
      (s.Settled) ∧ (s.txu.txns = [x]) ∧ (x.id ≠ 0) ∧ (x.phase = .applied) ∧ (x.parts = [p]) ∧ (p.confirmed = false) ∧ (p.ended
      = false) ∧ (p.reofferAt = some at_) ∧ ((s.lease p.slot).st ≠ .active))
      (txSt [{ tx1 5 .applied (.loopMode 24 1 0 0 0) with parts := [{ slot := 0, epoch := 3, recs := [], reofferAt := some 0x1_0800_0000, unsyncedAt := some 0x1_0900_0000 }] }]) { tx1 5 .applied (.loopMode 24 1 0 0 0) with parts := [{ slot := 0, epoch := 3, recs := [], reofferAt := some 0x1_0800_0000, unsyncedAt := some 0x1_0900_0000 }] } { slot := 0, epoch := 3, recs := [], reofferAt := some 0x1_0800_0000, unsyncedAt := some 0x1_0900_0000 } 0x1_0800_0000 := by decide +kernel

/-- A witness of clause 5 of TransactionsApplySettleAndAreCancelled. -/
theorem meets_TransactionsApplySettleAndAreCancelled_5 :
    (fun (s : State) (x : Txn) (p : Part) (at_ : NT) =>
      (s.txu.txns = [x]) ∧ (x.id ≠ 0) ∧ (x.phase = .applied) ∧ (x.parts = [p]) ∧ (p.confirmed = false) ∧ (p.ended = false) ∧
      (p.unsyncedAt = some at_))
      (txSt [{ tx1 5 .applied (.loopMode 24 1 0 0 0) with parts := [{ slot := 0, epoch := 3, recs := [], reofferAt := some 0x1_0800_0000, unsyncedAt := some 0x1_0900_0000 }] }]) { tx1 5 .applied (.loopMode 24 1 0 0 0) with parts := [{ slot := 0, epoch := 3, recs := [], reofferAt := some 0x1_0800_0000, unsyncedAt := some 0x1_0900_0000 }] } { slot := 0, epoch := 3, recs := [], reofferAt := some 0x1_0800_0000, unsyncedAt := some 0x1_0900_0000 } 0x1_0900_0000 := by decide +kernel

/-- A witness of clause 6 of TransactionsApplySettleAndAreCancelled. -/
theorem meets_TransactionsApplySettleAndAreCancelled_6 :
    (fun (s : State) (h g : Nat) (l m : Live) (x : Txn) =>
      (s.Runs h 0x52 l) ∧ (s.txu.txns = [x]) ∧ (x.id = l.p 0 4) ∧ (x.id ≠ 0) ∧ (x.phase = .staged) ∧ (x.open_ s.nt = true) ∧
      (x.tasks = []) ∧ (x.round = false) ∧ (x.also = []) ∧ (x.handle = some g) ∧ (g ≠ h) ∧ (s.Waits g m))
      { host 0x52 [5] with txu := { txns := [{ { tx1 5 .staged (.loopMode 3 1 0 0 0) with applyAt := some 0x1_0800_0000 } with handle := some 3 }] }, hif := { (rings base).hif with live := [{ lv 0x51 [] with handle := 3, started := true }, lv 0x52 [5]] } } 7 3 (lv 0x52 [5]) { lv 0x51 [] with handle := 3, started := true } { { tx1 5 .staged (.loopMode 3 1 0 0 0) with applyAt := some 0x1_0800_0000 } with handle := some 3 } := by decide +kernel

/-- A witness of clause 7 of TransactionsApplySettleAndAreCancelled. -/
theorem meets_TransactionsApplySettleAndAreCancelled_7 :
    (fun (s : State) (h : Nat) (l : Live) (x : Txn) =>
      (s.Settled) ∧ (s.Runs h 0x52 l) ∧ (s.txn? (l.p 0 4) = some x) ∧ (x.open_ s.nt = false) ∧ (x.phase ≠ .failed) ∧ (x.phase ≠
      .applied))
      { host 0x52 [5] with txu := { txns := [{ tx1 5 .committed (.loopMode 3 1 0 0 0) with applyAt := some 0x1_0800_0000 }] } } 7 (lv 0x52 [5]) { tx1 5 .committed (.loopMode 3 1 0 0 0) with applyAt := some 0x1_0800_0000 } := by decide +kernel

/-- A witness of clause 8 of TransactionsApplySettleAndAreCancelled. -/
theorem meets_TransactionsApplySettleAndAreCancelled_8 :
    (fun (s : State) (h : Nat) (l : Live) =>
      (s.Settled) ∧ (s.Runs h 0x52 l) ∧ (s.txn? (l.p 0 4) = none) ∧ (∀ p ∈ s.trl.patches, p.txn = 0 ∨ p.txn ≠ l.p 0 4))
      (host 0x52 [5]) 7 (lv 0x52 [5]) := by decide +kernel

/-- A witness of clause 1 of TheDiaryIsKeptInFlash. -/
theorem meets_TheDiaryIsKeptInFlash_1 :
    (fun (s : State) =>
      (s.Settled) ∧ (s.deaf = false) ∧ (s.dry.snapping = false))
      base := by decide +kernel

/-- A witness of clause 2 of TheDiaryIsKeptInFlash. -/
theorem meets_TheDiaryIsKeptInFlash_2 :
    (fun (s : State) =>
      (s.deaf = true))
      { base with dry := { sound0 := false, sound1 := false } } := by decide +kernel

/-- A witness of clause 3 of TheDiaryIsKeptInFlash. -/
theorem meets_TheDiaryIsKeptInFlash_3 :
    (fun (s : State) (_dt : Nat) =>
      (s.Settled) ∧ (s.dry.snapRun = true))
      { base with dry := { snapping := true, snapRun := true, recs := [(0x81, rc)] } } 5 := by decide +kernel

/-- A witness of clause 4 of TheDiaryIsKeptInFlash. -/
theorem meets_TheDiaryIsKeptInFlash_4 :
    (fun (s : State) =>
      (s.dry.late = false))
      base := by decide +kernel

/-- A witness of clause 5 of TheDiaryIsKeptInFlash. -/
theorem meets_TheDiaryIsKeptInFlash_5 :
    (fun (s : State) (_dt slot : Nat) (c : Capture) =>
      (s.Settled) ∧ (s.dry.caps.find? (fun p => p.1 == slot) = some (slot, c)) ∧ (c.writing = true) ∧ (s.dry.pfw = false))
      { base with dry := { caps := [(1, cpt)] } } 5 1 cpt := by decide +kernel

/-- A witness of clause 6 of TheDiaryIsKeptInFlash. -/
theorem meets_TheDiaryIsKeptInFlash_6 :
    (fun (s : State) (_dt _recs : Nat) =>
      (s.dry.pfw = false) ∧ (s.deaf = false))
      { base with dry := { box := [bx], recs := [(0x81, rc)], snapRun := true } } 5 1 := by decide +kernel

/-- A witness of clause 7 of TheDiaryIsKeptInFlash. -/
theorem meets_TheDiaryIsKeptInFlash_7 :
    (fun (s : State) (_dt : Nat) =>
      (s.Settled) ∧ ((s.src 0x0B).level = true) ∧ (s.forced 0x0B = false))
      { base with dry := { pfw := true }, flt := { srcs := [(0x0B, { level := true, real := true })] } } 5 := by decide +kernel

/-- A witness of clause 8 of TheDiaryIsKeptInFlash. -/
theorem meets_TheDiaryIsKeptInFlash_8 :
    (fun (s : State) (_dt region cause _code _value : Nat) =>
      (region < 2) ∧ ((if region = 0 then s.dry.sound0 else s.dry.sound1) = true) ∧ ((if region = 0 then s.dry.sound1 else
      s.dry.sound0) = true) ∧ (s.Room (s.evtCq 0x1301)) ∧ (cause < 256))
      (rings base) 5 1 3 0x81 7 := by decide +kernel

/-- A witness of clause 9 of TheDiaryIsKeptInFlash. -/
theorem meets_TheDiaryIsKeptInFlash_9 :
    (fun (s : State) (_dt region _cause _code _value : Nat) =>
      (region < 2) ∧ ((if region = 0 then s.dry.sound0 else s.dry.sound1) = true) ∧ ((if region = 0 then s.dry.sound1 else
      s.dry.sound0) = false) ∧ (s.dry.waiters = []))
      { rings base with dry := { sound0 := false, box := [bx] } } 5 1 3 0x81 7 := by decide +kernel

/-- A witness of clause 1 of TheBlackBoxFreezesPersistsAndThaws. -/
theorem meets_TheBlackBoxFreezesPersistsAndThaws_1 :
    (fun (s : State) (h : Nat) (l : Live) =>
      (s.Settled) ∧ (s.Runs h 0xA1 l) ∧ (s.deaf = false) ∧ (s.dry.frozen = false) ∧ (s.Room (s.evtCq 0x1303)))
      { host 0xA1 [] with dry := { box := [bx] } } 7 (lv 0xA1 []) := by decide +kernel

/-- A witness of clause 2 of TheBlackBoxFreezesPersistsAndThaws. -/
theorem meets_TheBlackBoxFreezesPersistsAndThaws_2 :
    (fun (s : State) (h : Nat) (l : Live) =>
      (s.Settled) ∧ (s.Runs h 0xA1 l) ∧ (s.deaf = false) ∧ (s.dry.frozen = true))
      { host 0xA1 [] with dry := { box := [bx], frozen := true, cause := 3 } } 7 (lv 0xA1 []) := by decide +kernel

/-- A witness of clause 3 of TheBlackBoxFreezesPersistsAndThaws. -/
theorem meets_TheBlackBoxFreezesPersistsAndThaws_3 :
    (fun (s : State) (h : Nat) (l : Live) =>
      (s.Settled) ∧ (s.Runs h 0xA1 l) ∧ (s.deaf = true))
      { host 0xA1 [] with dry := { sound0 := false, sound1 := false } } 7 (lv 0xA1 []) := by decide +kernel

/-- A witness of clause 4 of TheBlackBoxFreezesPersistsAndThaws. -/
theorem meets_TheBlackBoxFreezesPersistsAndThaws_4 :
    (fun (s : State) (_dt h : Nat) (l : Live) =>
      (s.Settled) ∧ (s.dry.persisting = true) ∧ (s.dry.pfw = false) ∧ (s.dry.waiters = [h]) ∧ (s.Waits h l) ∧ (s.Room (s.evtCq
      0x1304)))
      { rings base with dry := { box := [bx], frozen := true, cause := 3, img := [bx], persisting := true, waiters := [7] }, hif := { (rings base).hif with live := [{ lv 0xA1 [] with started := true }] } } 5 7 { lv 0xA1 [] with started := true } := by decide +kernel

/-- A witness of clause 5 of TheBlackBoxFreezesPersistsAndThaws. -/
theorem meets_TheBlackBoxFreezesPersistsAndThaws_5 :
    (fun (s : State) (dt : Nat) =>
      (s.Settled) ∧ (s.dry.frozen = true) ∧ (s.dry.persisting = false) ∧ (s.saf.run = .run) ∧ (s.dry.frozenAt + 10 * cycHz *
      s.fld (0x13014, 0, 8) ≤ s.up + dt) ∧ (s.Room (s.evtCq 0x1305)))
      { rings base with dry := { box := [bx], frozen := true, cause := 3 } } 500_000_000_000 := by decide +kernel

/-- A witness of clause 1 of TheDiaryIsReadAndCleared. -/
theorem meets_TheDiaryIsReadAndCleared_1 :
    (fun (s : State) (h : Nat) (l : Live) (b : List Byte) =>
      (s.Settled) ∧ (s.Runs h 0xA0 l) ∧ (l.p 4 1 = 1) ∧ (l.len = 160 * l.p 2 2) ∧ (s.deaf = false) ∧ (b = (List.range (l.p 2
      2)).flatMap fun k => recBytes (l.p 0 2 + k) (s.rec_ (l.p 0 2 + k))))
      { rings base with hif := { (rings base).hif with live := [{ lv 0xA0 [0x81, 0, 1, 0, 1] with entry := leBytes 0xA0 16 ++ leBytes 160 8 ++ slice [0x81, 0, 1, 0, 1] 0 40 }] } } 7 { lv 0xA0 [0x81, 0, 1, 0, 1] with entry := leBytes 0xA0 16 ++ leBytes 160 8 ++ slice [0x81, 0, 1, 0, 1] 0 40 } (recBytes 0x81 {}) := by decide +kernel

/-- A witness of clause 2 of TheDiaryIsReadAndCleared. -/
theorem meets_TheDiaryIsReadAndCleared_2 :
    (fun (s : State) (h : Nat) (_werr : Bool) (l : Live) =>
      (s.Settled) ∧ (s.Runs h 0xA0 l) ∧ (l.p 4 1 = 1) ∧ (l.len ≠ 160 * l.p 2 2))
      { rings base with hif := { (rings base).hif with live := [{ lv 0xA0 [0x81, 0, 1, 0, 1] with entry := leBytes 0xA0 16 ++ leBytes 161 8 ++ slice [0x81, 0, 1, 0, 1] 0 40 }] } } 7 true { lv 0xA0 [0x81, 0, 1, 0, 1] with entry := leBytes 0xA0 16 ++ leBytes 161 8 ++ slice [0x81, 0, 1, 0, 1] 0 40 } := by decide +kernel

/-- A witness of clause 3 of TheDiaryIsReadAndCleared. -/
theorem meets_TheDiaryIsReadAndCleared_3 :
    (fun (s : State) (h : Nat) (l : Live) (b : List Byte) =>
      (s.Settled) ∧ (s.Runs h 0xA2 l) ∧ (l.len = 32 * l.p 2 2) ∧ (s.deaf = false) ∧ (b = slice (((s.dry.box.reverse.drop (l.p 0
      2)).take (l.p 2 2)).flatMap boxBytes) 0 (32 * l.p 2 2)))
      { rings base with hif := { (rings base).hif with live := [{ lv 0xA2 [0, 0, 2, 0] with entry := leBytes 0xA2 16 ++ leBytes 64 8 ++ slice [0, 0, 2, 0] 0 40 }] }, dry := { box := [bx] } } 7 { lv 0xA2 [0, 0, 2, 0] with entry := leBytes 0xA2 16 ++ leBytes 64 8 ++ slice [0, 0, 2, 0] 0 40 } (boxBytes bx ++ leBytes 0 32) := by decide +kernel

/-- A witness of clause 4 of TheDiaryIsReadAndCleared. -/
theorem meets_TheDiaryIsReadAndCleared_4 :
    (fun (s : State) (h : Nat) (_werr : Bool) (l : Live) =>
      (s.Settled) ∧ (s.Runs h 0xA2 l) ∧ (l.len = 32 * l.p 2 2) ∧ (s.deaf = true))
      { rings base with hif := { (rings base).hif with live := [{ lv 0xA2 [0, 0, 2, 0] with entry := leBytes 0xA2 16 ++ leBytes 64 8 ++ slice [0, 0, 2, 0] 0 40 }] }, dry := { sound0 := false, sound1 := false } } 7 true { lv 0xA2 [0, 0, 2, 0] with entry := leBytes 0xA2 16 ++ leBytes 64 8 ++ slice [0, 0, 2, 0] 0 40 } := by decide +kernel

/-- A witness of clause 5 of TheDiaryIsReadAndCleared. -/
theorem meets_TheDiaryIsReadAndCleared_5 :
    (fun (s : State) (_dt : Nat) (v : Reg) =>
      (s.Settled) ∧ (v.toNat / 65536 = 0xCEA5) ∧ (v.toNat % 65536 = 1 ∨ (v.toNat % 65536 ≤ 3 ∧ s.dry.frozen = false)))
      { base with dry := { box := [bx], recs := [(0x81, rc)] } } 5 0xCEA50003 := by decide +kernel

/-- A witness of clause 6 of TheDiaryIsReadAndCleared. -/
theorem meets_TheDiaryIsReadAndCleared_6 :
    (fun (s : State) (_dt : Nat) (v : Reg) =>
      (s.Settled) ∧ (v.toNat / 65536 = 0xCEA5) ∧ (v.toNat % 65536 = 2 ∨ v.toNat % 65536 = 3) ∧ (s.dry.frozen = true) ∧ (s.Room
      (s.evtCq 0x1305)))
      { rings base with dry := { box := [bx], frozen := true } } 5 0xCEA50002 := by decide +kernel

/-- A witness of clause 7 of TheDiaryIsReadAndCleared. -/
theorem meets_TheDiaryIsReadAndCleared_7 :
    (fun (s : State) (_dt : Nat) (v : Reg) =>
      (s.Settled) ∧ (v.toNat / 65536 ≠ 0xCEA5 ∨ 3 < v.toNat % 65536))
      base 5 0x12340003 := by decide +kernel

/-- A witness of clause 8 of TheDiaryIsReadAndCleared. -/
theorem meets_TheDiaryIsReadAndCleared_8 :
    (fun (s : State) (_dt : Nat) (_v : Reg) =>
      (s.Settled))
      base 5 0x80000000 := by decide +kernel

/-- A witness of clause 1 of LeaveIsGrantedWithdrawnAndReturned. -/
theorem meets_LeaveIsGrantedWithdrawnAndReturned_1 :
    (fun (s : State) (dt pmeas : Nat) (r : LeaveReq) =>
      (s.Settled) ∧ (s.gov.reqs = [r]) ∧ (r.work = .diarySnapshot) ∧ (((s.tick dt).readPower pmeas).leaveFits r = true))
      { base with gov := { reqs := [rq .diarySnapshot] } } 5 100 (rq .diarySnapshot) := by decide +kernel

/-- A witness of clause 2 of LeaveIsGrantedWithdrawnAndReturned. -/
theorem meets_LeaveIsGrantedWithdrawnAndReturned_2 :
    (fun (s : State) (dt pmeas : Nat) (r : LeaveReq) =>
      (s.Settled) ∧ (s.gov.reqs = [r]) ∧ (((s.tick dt).readPower pmeas).leaveFits r = false))
      { base with gov := { reqs := [rq .diarySnapshot] } } 5 60000 (rq .diarySnapshot) := by decide +kernel

/-- A witness of clause 3 of LeaveIsGrantedWithdrawnAndReturned. -/
theorem meets_LeaveIsGrantedWithdrawnAndReturned_3 :
    (fun (s : State) (r : LeaveReq) =>
      (s.Settled) ∧ (s.gov.reqs = [r]) ∧ (r.work = .scrub) ∧ (ntReached (s.tickTo r.dead).nt r.dead = true))
      { base with gov := { reqs := [rq .scrub] }, mem := { scrubWait := true } } (rq .scrub) := by decide +kernel

/-- A witness of clause 4 of LeaveIsGrantedWithdrawnAndReturned. -/
theorem meets_LeaveIsGrantedWithdrawnAndReturned_4 :
    (fun (s : State) (g : Grant) =>
      (s.gov.grants = [g]) ∧ (ntReached (s.tickTo g.until_).nt g.until_ = true))
      { base with gov := { grants := [{ id := 1, cls := 5, mw := 150, until_ := 0x1_2000_0000, work := .scrub }] } } { id := 1, cls := 5, mw := 150, until_ := 0x1_2000_0000, work := .scrub } := by decide +kernel

/-- A witness of clause 5 of LeaveIsGrantedWithdrawnAndReturned. -/
theorem meets_LeaveIsGrantedWithdrawnAndReturned_5 :
    (fun (s : State) (_dt pmeas : Nat) =>
      (s.Settled) ∧ (100 * s.fld fBudget < 105 * pmeas) ∧ (s.gov.overBudget = false) ∧ (s.gov.overSince = none))
      (rings base) 5 60000 := by decide +kernel

/-- A witness of clause 6 of LeaveIsGrantedWithdrawnAndReturned. -/
theorem meets_LeaveIsGrantedWithdrawnAndReturned_6 :
    (fun (s : State) (dt pmeas a : Nat) =>
      (100 * s.fld fBudget < 105 * pmeas) ∧ (s.gov.overBudget = false) ∧ (s.gov.overSince = some a) ∧ (a + 100 * cycMs ≤ s.up +
      dt) ∧ (s.Room (s.evtCq 0x1001)))
      { rings base with gov := { overSince := some 900000000 } } 5 60000 900000000 := by decide +kernel

/-- A witness of clause 7 of LeaveIsGrantedWithdrawnAndReturned. -/
theorem meets_LeaveIsGrantedWithdrawnAndReturned_7 :
    (fun (_s : State) (_dt grp _pmeas : Nat) =>
      (grp < 8))
      base 5 2 3000 := by decide +kernel

/-- A witness of clause 8 of LeaveIsGrantedWithdrawnAndReturned. -/
theorem meets_LeaveIsGrantedWithdrawnAndReturned_8 :
    (fun (s : State) (_dt grp _pmeas : Nat) =>
      (s.Settled) ∧ (grp < 8))
      base 5 2 3000 := by decide +kernel

/-- A witness of clause 9 of LeaveIsGrantedWithdrawnAndReturned. -/
theorem meets_LeaveIsGrantedWithdrawnAndReturned_9 :
    (fun (s : State) (h : Nat) (l : Live) =>
      (s.Settled) ∧ (s.Runs h 0x88 l))
      (host 0x88 (leBytes 900 4 ++ [3, 2])) 7 (lv 0x88 (leBytes 900 4 ++ [3, 2])) := by decide +kernel

/-- A witness of clause 1 of AFaultOfTheSafeClassEndsInSafe. -/
theorem meets_AFaultOfTheSafeClassEndsInSafe_1 :
    (fun (s : State) (dt n : Nat) (sd : SrcDef) =>
      (s.Settled) ∧ (srcDef n = some sd) ∧ (sd.level = true → (s.src n).level = false) ∧ (n ≠ 0xBA) ∧ ((s.tick dt).Enters n) ∧
      (s.fld (srcCls n) = 3) ∧ (s.saf.run = .run))
      { rings base with axes := [(3, { st := .moving, en := true })], ctl := { loops := [(3, { st := .closed, u := 5 })] } } 5 0x13 { cls := 3 } := by decide +kernel

/-- A witness of clause 1 of FaultsAreCountedAndRecorded. -/
theorem meets_FaultsAreCountedAndRecorded_1 :
    (fun (s : State) (dt n : Nat) (sd : SrcDef) =>
      (s.Settled) ∧ (srcDef n = some sd) ∧ (sd.level = true → (s.src n).level = false) ∧ (n ≠ 0xBA) ∧ ((s.tick dt).Enters n) ∧
      (directSrc n = false) ∧ (s.fld (srcCls n) < 2) ∧ (s.Room (s.evtCq 0x1201)))
      (rings base) 5 0x81 { cls := 1 } := by decide +kernel

/-- A witness of clause 2 of FaultsAreCountedAndRecorded. -/
theorem meets_FaultsAreCountedAndRecorded_2 :
    (fun (s : State) (dt n : Nat) (sd : SrcDef) =>
      (s.Settled) ∧ (srcDef n = some sd) ∧ (sd.level = true → (s.src n).level = false) ∧ (n ≠ 0xBA) ∧ ((s.tick dt).Enters n) ∧
      (directSrc n = false) ∧ (s.fld (srcCls n) = 2) ∧ (s.saf.run = .run))
      { rings base with axes := [(3, { st := .moving, en := true })] } 5 0x21 { cls := 2 } := by decide +kernel

/-- A witness of clause 3 of FaultsAreCountedAndRecorded. -/
theorem meets_FaultsAreCountedAndRecorded_3 :
    (fun (s : State) (_dt n : Nat) =>
      (s.Settled) ∧ ((s.src n).level = true) ∧ (s.forced n = false))
      (srcSt 1 { st := .active, level := true, real := true }) 5 1 := by decide +kernel

/-- A witness of clause 4 of FaultsAreCountedAndRecorded. -/
theorem meets_FaultsAreCountedAndRecorded_4 :
    (fun (s : State) (n x : Nat) (rest : List Nat) =>
      (s.Settled) ∧ ((s.src n).st = .counting) ∧ (s.upd.pause ≠ some 5) ∧ ((s.src n).times = x :: rest) ∧ (((s.tickUp (x +
      s.windowCyc n)).inWindow n (x :: rest)) = []))
      (srcSt 0x81 { st := .counting, times := [1_000_000_000] }) 0x81 1_000_000_000 [] := by decide +kernel

/-- A witness of clause 5 of FaultsAreCountedAndRecorded. -/
theorem meets_FaultsAreCountedAndRecorded_5 :
    (fun (s : State) (n : Nat) =>
      (s.Settled) ∧ ((s.src n).st = .active) ∧ (n ≠ 0xB2) ∧ ((s.src n).level = false) ∧ (s.stays n = false) ∧ (s.Room (s.evtCq
      0x1202)))
      (srcSt 0x81 { st := .active, quietAt := 1_000_000_000 }) 0x81 := by decide +kernel

/-- A witness of clause 6 of FaultsAreCountedAndRecorded. -/
theorem meets_FaultsAreCountedAndRecorded_6 :
    (fun (s : State) (h n : Nat) (l : Live) =>
      (s.Settled) ∧ (s.Runs h 0x99 l) ∧ (l.p 1 1 = 0) ∧ (l.p 0 1 = n) ∧ ((s.src n).st = .active) ∧ (n ≠ 0xB2))
      { host 0x99 [0x81, 0] with flt := { srcs := [(0x81, { st := .active, level := true })] } } 7 0x81 (lv 0x99 [0x81, 0]) := by decide +kernel

/-- A witness of clause 7 of FaultsAreCountedAndRecorded. -/
theorem meets_FaultsAreCountedAndRecorded_7 :
    (fun (_s : State) (_dt n : Nat) (rail : Rail) =>
      (n = match rail with | .core => 0x08 | .saf => 0x09 | .other => 0x0A))
      base 5 9 .saf := by decide +kernel

/-- A witness of clause 9 of FaultsAreCountedAndRecorded. -/
theorem meets_FaultsAreCountedAndRecorded_9 :
    (fun (_s : State) (_dt n : Nat) (p : PllName) =>
      (n = match p with | .core => 0 | .corr => 1 | .dram => 2))
      base 5 1 .corr := by decide +kernel

/-- A witness of clause 1 of FaultsAreInjectedAndForced. -/
theorem meets_FaultsAreInjectedAndForced_1 :
    (fun (s : State) (h : Nat) (l : Live) =>
      (s.Settled) ∧ (s.Runs h 0x98 l) ∧ (s.saf.run ∈ [.run, .fleetStop, .safe, .updatePause]) ∧ ((srcDef (l.p 0 1)).isSome =
      true) ∧ (l.p 1 1 ≠ 1 ∨ srcNative (l.p 0 1) = true) ∧ (s.saf.run ≠ .run ∨ s.fld (srcCls (l.p 0 1)) < 2 ∨ (l.p 1 1 ≠ 2 ∧
      s.flag (srcCountInj (l.p 0 1)) = false)))
      (host 0x98 [0x20, 1, 3]) 7 (lv 0x98 [0x20, 1, 3]) := by decide +kernel

/-- A witness of clause 2 of FaultsAreInjectedAndForced. -/
theorem meets_FaultsAreInjectedAndForced_2 :
    (fun (s : State) (h : Nat) (l : Live) =>
      (s.Settled) ∧ (s.Runs h 0x98 l) ∧ (s.saf.run = .run) ∧ ((srcDef (l.p 0 1)).isSome = true) ∧ (l.p 1 1 = 2) ∧ (2 ≤ s.fld
      (srcCls (l.p 0 1))))
      (host 0x98 [0x21, 2, 3]) 7 (lv 0x98 [0x21, 2, 3]) := by decide +kernel

/-- A witness of clause 3 of FaultsAreInjectedAndForced. -/
theorem meets_FaultsAreInjectedAndForced_3 :
    (fun (s : State) (n : Nat) (x : Injection) (l : Live) =>
      (s.inj? n 1 = some x) ∧ (x.count ≤ x.done + 1) ∧ (s.Waits x.handle l) ∧ (s.Room (s.evtCq 0x1201)))
      { rings base with flt := { inj := [{ handle := 7, source := 0x81, method := 1, count := 2, done := 1, recs := 1, next := 1_000_001_000 }] }, hif := { (rings base).hif with live := [{ lv 0x98 [] with started := true }] } } 0x81 ({ handle := 7, source := 0x81, method := 1, count := 2, done := 1, recs := 1, next := 1_000_001_000 }) { lv 0x98 [] with started := true } := by decide +kernel

/-- A witness of clause 4 of FaultsAreInjectedAndForced. -/
theorem meets_FaultsAreInjectedAndForced_4 :
    (fun (s : State) (n : Nat) (_found : Bool) (x : Injection) =>
      (s.inj? n 1 = some x) ∧ (x.done + 1 < x.count))
      { rings base with flt := { inj := [{ handle := 7, source := 0x81, method := 1, count := 5, done := 1, recs := 1, next := 1_000_001_000 }] }, hif := { (rings base).hif with live := [{ lv 0x98 [] with started := true }] } } 0x81 false ({ handle := 7, source := 0x81, method := 1, count := 5, done := 1, recs := 1, next := 1_000_001_000 }) := by decide +kernel

/-- A witness of clause 5 of FaultsAreInjectedAndForced. -/
theorem meets_FaultsAreInjectedAndForced_5 :
    (fun (s : State) (n : Nat) (x : Injection) (l : Live) =>
      (s.inj? n 2 = some x) ∧ (x.high = false) ∧ (x.count ≤ x.done + 1) ∧ (s.Waits x.handle l) ∧ (s.Room (s.evtCq 0x1201)))
      { rings base with flt := { inj := [{ handle := 7, source := 0x81, method := 2, count := 2, done := 1, recs := 1, next := 1_000_001_000 }] }, hif := { (rings base).hif with live := [{ lv 0x98 [] with started := true }] } } 0x81 ({ handle := 7, source := 0x81, method := 2, count := 2, done := 1, recs := 1, next := 1_000_001_000 }) { lv 0x98 [] with started := true } := by decide +kernel

/-- A witness of clause 6 of FaultsAreInjectedAndForced. -/
theorem meets_FaultsAreInjectedAndForced_6 :
    (fun (s : State) (n : Nat) (x : Injection) =>
      (s.Settled) ∧ (s.inj? n 2 = some x) ∧ (x.high = true) ∧ (s.flt.pulse = [n]))
      { ({ rings base with flt := { inj := [{ handle := 7, source := 0x81, method := 2, count := 5, done := 1, recs := 1, next := 1_000_001_000 }] }, hif := { (rings base).hif with live := [{ lv 0x98 [] with started := true }] } } : State) with flt := { inj := [{ ({ handle := 7, source := 0x81, method := 2, count := 5, done := 1, recs := 1, next := 1_000_001_000 } : Injection) with high := true }], pulse := [0x81] } } 0x81 { ({ handle := 7, source := 0x81, method := 2, count := 5, done := 1, recs := 1, next := 1_000_001_000 } : Injection) with high := true } := by decide +kernel

/-- A witness of clause 7 of FaultsAreInjectedAndForced. -/
theorem meets_FaultsAreInjectedAndForced_7 :
    (fun (_s : State) (_dt m : Nat) (_v : Reg) =>
      (m < 6))
      base 5 0 3 := by decide +kernel

/-- A witness of clause 1 of AStopInputStopsTheFleet. -/
theorem meets_AStopInputStopsTheFleet_1 :
    (fun (s : State) (_dt lowPs : Nat) (chB : Bool) =>
      (s.Settled) ∧ (s.saf.run = .run) ∧ (2000 ≤ lowPs) ∧ ((if chB then s.saf.latchB else s.saf.latchA) = false))
      { rings base with axes := [(3, { st := .moving, en := true })] } 5 2000 true := by decide +kernel

/-- A witness of clause 2 of AStopInputStopsTheFleet. -/
theorem meets_AStopInputStopsTheFleet_2 :
    (fun (s : State) (_dt lowPs : Nat) (_chB : Bool) =>
      (s.Settled) ∧ (lowPs < 1000))
      base 5 999 true := by decide +kernel

/-- A witness of clause 1 of TheStopPathIsTestedAndReleased. -/
theorem meets_TheStopPathIsTestedAndReleased_1 :
    (fun (s : State) (_dt lowPs : Nat) (chB : Bool) =>
      (1000 ≤ lowPs) ∧ (lowPs < 2000) ∧ ((if chB then s.saf.latchB else s.saf.latchA) = true))
      { base with saf := { base.saf with latchA := true } } 5 1500 false := by decide +kernel

/-- A witness of clause 2 of TheStopPathIsTestedAndReleased. -/
theorem meets_TheStopPathIsTestedAndReleased_2 :
    (fun (s : State) (t : Nat) =>
      (s.saf.loneAt = some t))
      { base with saf := { base.saf with loneAt := some 1_000_000_000 } } 1_000_000_000 := by decide +kernel

/-- A witness of clause 3 of TheStopPathIsTestedAndReleased. -/
theorem meets_TheStopPathIsTestedAndReleased_3 :
    (fun (s : State) (_dt : Nat) =>
      (s.Settled))
      base 5 := by decide +kernel

/-- A witness of clause 4 of TheStopPathIsTestedAndReleased. -/
theorem meets_TheStopPathIsTestedAndReleased_4 :
    (fun (s : State) (_dt : Nat) (v : Reg) =>
      (s.Settled) ∧ (v.toNat = 0xC1EA) ∧ (s.saf.clean = true) ∧ ((s.src 0xB2).st ≠ .active) ∧ (s.saf.latchA = true ∨
      s.saf.latchB = true) ∧ (s.Room (s.evtCq 0x1103)))
      { rings base with saf := { base.saf with latchA := true }, flt := { srcs := [(0xB0, { level := true, real := true })] } } 5 0xC1EA := by decide +kernel

/-- A witness of clause 5 of TheStopPathIsTestedAndReleased. -/
theorem meets_TheStopPathIsTestedAndReleased_5 :
    (fun (s : State) (_dt : Nat) (v : Reg) =>
      (v.toNat ≠ 0xC1EA ∨ s.saf.clean = false ∨ (s.src 0xB2).st = .active))
      base 5 0xC1EB := by decide +kernel

/-- A witness of clause 6 of TheStopPathIsTestedAndReleased. -/
theorem meets_TheStopPathIsTestedAndReleased_6 :
    (fun (s : State) (_ok : Bool) =>
      (s.Settled) ∧ (s.saf.run ≠ .off) ∧ (s.saf.dpRun = none) ∧ (s.stopOut = true))
      base true := by decide +kernel

/-- A witness of clause 7 of TheStopPathIsTestedAndReleased. -/
theorem meets_TheStopPathIsTestedAndReleased_7 :
    (fun (s : State) (ok : Bool) =>
      (s.Settled) ∧ (s.saf.run ≠ .off) ∧ (s.saf.dpRun = some (true, false)) ∧ (ok = true ∨ s.stopOut = false))
      { base with saf := { base.saf with dpRun := some (true, false) } } true := by decide +kernel

/-- A witness of clause 8 of TheStopPathIsTestedAndReleased. -/
theorem meets_TheStopPathIsTestedAndReleased_8 :
    (fun (s : State) (ok low : Bool) =>
      (s.saf.run ≠ .off) ∧ (s.saf.dpRun = some (low, false)) ∧ (low = false ∨ (s.stopOut = true ∧ ok = false)))
      { base with saf := { base.saf with dpRun := some (true, false) } } false true := by decide +kernel

/-- A witness of clause 9 of TheStopPathIsTestedAndReleased. -/
theorem meets_TheStopPathIsTestedAndReleased_9 :
    (fun (s : State) (_ok low : Bool) =>
      (s.Settled) ∧ (s.saf.run ≠ .off) ∧ (s.saf.dpRun = some (low, true)))
      { base with saf := { base.saf with dpRun := some (true, true) } } false true := by decide +kernel

/-- A witness of clause 10 of TheStopPathIsTestedAndReleased. -/
theorem meets_TheStopPathIsTestedAndReleased_10 :
    (fun (s : State) (_ok : Bool) =>
      (s.Settled) ∧ (s.saf.run ≠ .off) ∧ (s.saf.dpRun = none) ∧ (s.stopOut = false))
      { base with saf := { base.saf with latchA := true } } true := by decide +kernel

/-- A witness of clause 1 of TheFleetIsStoppedAndResumed. -/
theorem meets_TheFleetIsStoppedAndResumed_1 :
    (fun (s : State) (h : Nat) (l : Live) =>
      (s.Settled) ∧ (s.Runs h 0x90 l) ∧ (s.saf.run = .run) ∧ (∀ x ∈ s.txu.txns, x.phase = .offered → x.id ≠ 0))
      { host 0x90 [1] with axes := [(3, { st := .moving, en := true })], txu := { txns := [tx1 0 .waiting .bad] } } 7 (lv 0x90 [1]) := by decide +kernel

/-- A witness of clause 2 of TheFleetIsStoppedAndResumed. -/
theorem meets_TheFleetIsStoppedAndResumed_2 :
    (fun (s : State) (h : Nat) (l : Live) =>
      (s.Settled) ∧ (s.Runs h 0x90 l) ∧ (s.saf.run = .fleetStop ∨ s.saf.run = .safe) ∧ (s.saf.resume = []))
      { host 0x90 [1] with saf := { base.saf with run := .fleetStop } } 7 (lv 0x90 [1]) := by decide +kernel

/-- A witness of clause 3 of TheFleetIsStoppedAndResumed. -/
theorem meets_TheFleetIsStoppedAndResumed_3 :
    (fun (s : State) (h : Nat) (l : Live) =>
      (s.Settled) ∧ (s.Runs h 0x91 l) ∧ (s.saf.run = .fleetStop) ∧ (s.resumeBlocked = none))
      { host 0x91 [] with saf := { base.saf with run := .fleetStop }, tim := { ntValid := true } } 7 (lv 0x91 []) := by decide +kernel

/-- A witness of clause 4 of TheFleetIsStoppedAndResumed. -/
theorem meets_TheFleetIsStoppedAndResumed_4 :
    (fun (s : State) (h : Nat) (l : Live) =>
      (s.Settled) ∧ (s.Runs h 0x91 l) ∧ (s.saf.run = .fleetStop) ∧ (s.saf.latchA = true ∨ s.saf.latchB = true))
      { host 0x91 [] with saf := { base.saf with run := .fleetStop, latchB := true } } 7 (lv 0x91 []) := by decide +kernel

/-- A witness of clause 5 of TheFleetIsStoppedAndResumed. -/
theorem meets_TheFleetIsStoppedAndResumed_5 :
    (fun (s : State) (r : Resume) (rest : List Resume) (l : Live) =>
      (s.saf.resume = r :: rest) ∧ (s.saf.run = .fleetStop) ∧ (s.Waits r.handle l) ∧ (s.Room (s.evtCq 0x1101)))
      { host 0x91 [] with saf := { base.saf with run := .fleetStop, resume := [{ handle := 7, at_ := 0x1_1000_0000 }] } } { handle := 7, at_ := 0x1_1000_0000 } [] (lv 0x91 []) := by decide +kernel

/-- A witness of clause 6 of TheFleetIsStoppedAndResumed. -/
theorem meets_TheFleetIsStoppedAndResumed_6 :
    (fun (s : State) (_dt : Nat) (v : Reg) =>
      (s.Settled) ∧ (fieldOf v 16 16 = 0x5AFE) ∧ (fieldOf v 0 16 = s.saf.nonce) ∧ (s.saf.relAt = none))
      { base with saf := { base.saf with run := .safe, safeForce := true, nonce := 0x1234 } } 5 0x5AFE1234 := by decide +kernel

/-- A witness of clause 7 of TheFleetIsStoppedAndResumed. -/
theorem meets_TheFleetIsStoppedAndResumed_7 :
    (fun (s : State) (_dt : Nat) (v : Reg) =>
      (fieldOf v 16 16 ≠ 0x5AFE ∨ fieldOf v 0 16 ≠ s.saf.nonce ∨ s.saf.relAt ≠ none))
      { rings base with saf := { base.saf with run := .safe, safeForce := true, nonce := 0x1234, relAt := some 999_000_000 } } 5 0x5AFE1234 := by decide +kernel

/-- A witness of clause 8 of TheFleetIsStoppedAndResumed. -/
theorem meets_TheFleetIsStoppedAndResumed_8 :
    (fun (s : State) (dt t : Nat) (v : Reg) =>
      (s.Settled) ∧ (fieldOf v 16 16 = 0xA0E5) ∧ (fieldOf v 0 16 = s.saf.nonce ^^^ 0xFFFF) ∧ (s.saf.relAt = some t) ∧ (t + 10 *
      cycMs ≤ s.up + dt) ∧ (s.up + dt ≤ t + cycHz) ∧ (s.saf.run = .safe) ∧ (s.saf.safeForce = true) ∧ (s.firstActive 3 = none))
      { rings base with saf := { base.saf with run := .safe, safeForce := true, nonce := 0x1234, relAt := some 999_000_000 } } 2_000_000 999_000_000 0xA0E5EDCB := by decide +kernel

/-- A witness of clause 9 of TheFleetIsStoppedAndResumed. -/
theorem meets_TheFleetIsStoppedAndResumed_9 :
    (fun (s : State) (_dt : Nat) (v : Reg) =>
      (fieldOf v 16 16 ≠ 0xA0E5 ∨ s.saf.relAt = none ∨ s.saf.run ≠ .safe ∨ (s.firstActive 3).isSome = true))
      base 5 0xA0E5EDCB := by decide +kernel

/-- A witness of clause 10 of TheFleetIsStoppedAndResumed. -/
theorem meets_TheFleetIsStoppedAndResumed_10 :
    (fun (s : State) (t : Nat) =>
      (s.Settled) ∧ (s.saf.relAt = some t))
      { rings base with saf := { base.saf with run := .safe, safeForce := true, nonce := 0x1234, relAt := some 999_000_000 } } 999_000_000 := by decide +kernel

/-- A witness of clause 11 of TheFleetIsStoppedAndResumed. -/
theorem meets_TheFleetIsStoppedAndResumed_11 :
    (fun (s : State) =>
      (s.saf.relDone = true) ∧ (s.saf.run = .safe))
      { rings base with saf := { base.saf with run := .safe, relDone := true } } := by decide +kernel

/-- A witness of clause 3 of RootstockWatchesTheCores. -/
theorem meets_RootstockWatchesTheCores_3 :
    (fun (s : State) (_dt : Nat) =>
      (s.Settled))
      base 5 := by decide +kernel

/-- A witness of clause 4 of RootstockWatchesTheCores. -/
theorem meets_RootstockWatchesTheCores_4 :
    (fun (s : State) (_dt core : Nat) =>
      (s.Settled) ∧ (core < s.saf.beats.length))
      base 5 2 := by decide +kernel

/-- A witness of clause 1 of TheSampleInterfacesAreWatched. -/
theorem meets_TheSampleInterfacesAreWatched_1 :
    (fun (s : State) (_dt p : Nat) =>
      (s.portRuns p = true))
      (portSt { clkOk := true }) 5 0 := by decide +kernel

/-- A witness of clause 2 of TheSampleInterfacesAreWatched. -/
theorem meets_TheSampleInterfacesAreWatched_2 :
    (fun (s : State) (_dt p : Nat) =>
      (s.portUsed p = true) ∧ ((s.port p).clkOk = false))
      (portSt { lost := true }) 5 0 := by decide +kernel

/-- A witness of clause 3 of TheSampleInterfacesAreWatched. -/
theorem meets_TheSampleInterfacesAreWatched_3 :
    (fun (s : State) (_dt p : Nat) (ppb : Int) (_tog : Bool) (_hist : List (Byte × Nat)) =>
      (s.portRuns p = true) ∧ (ppb.natAbs ≤ 100000) ∧ ((s.port p).stuck = false))
      (portSt { clkOk := true, okSecs := 4 }) 5 0 90 true [(0x55, 70), (0xFF, 30)] := by decide +kernel

/-- A witness of clause 4 of TheSampleInterfacesAreWatched. -/
theorem meets_TheSampleInterfacesAreWatched_4 :
    (fun (s : State) (_dt p : Nat) (ppb : Int) (_tog : Bool) (_hist : List (Byte × Nat)) =>
      (s.portRuns p = true) ∧ (100000 < ppb.natAbs))
      (portSt { clkOk := true }) 5 0 (-100001) true [] := by decide +kernel

/-- A witness of clause 5 of TheSampleInterfacesAreWatched. -/
theorem meets_TheSampleInterfacesAreWatched_5 :
    (fun (s : State) (_dt p : Nat) =>
      (s.portRuns p = true))
      (portSt { clkOk := true }) 5 0 := by decide +kernel

/-- A witness of clause 6 of TheSampleInterfacesAreWatched. -/
theorem meets_TheSampleInterfacesAreWatched_6 :
    (fun (s : State) (_dt cs n : Nat) (_v : Reg) =>
      (s.Settled) ∧ (s.gns.fe = some (cs, n)))
      { fl base (0x5100, 8, 6) 8 with gns := { fe := some (1, 9) } } 5 1 9 0x1FF := by decide +kernel

/-- A witness of clause 7 of TheSampleInterfacesAreWatched. -/
theorem meets_TheSampleInterfacesAreWatched_7 :
    (fun (s : State) (_dt cs n : Nat) =>
      (s.gns.fe = some (cs, n)))
      { base with gns := { fe := some (1, 9) } } 5 1 9 := by decide +kernel

/-- A witness of clause 8 of TheSampleInterfacesAreWatched. -/
theorem meets_TheSampleInterfacesAreWatched_8 :
    (fun (s : State) (g p : Nat) =>
      (s.Settled) ∧ (s.flag (0x5060, 0, 1) = true) ∧ (s.gns.spare = some p) ∧ (s.gns.calib = none) ∧ (s.nextTurn s.gns.nextGrp =
      some g))
      (fl base (0x5060, 0, 1) 1) 0 12 := by decide +kernel

/-- A witness of clause 9 of TheSampleInterfacesAreWatched. -/
theorem meets_TheSampleInterfacesAreWatched_9 :
    (fun (s : State) (_dt : Nat) (res : List (Int × Int)) (c : Calib) =>
      (s.Settled) ∧ (s.gns.calib = some c) ∧ (c.stage = 2) ∧ (∀ x ∈ res, x.1.natAbs ≤ 2000))
      { base with gns := { calib := some { grp := 2, stage := 2 } } } 5 [(700, 3), (-2000, 0)] { grp := 2, stage := 2 } := by decide +kernel

/-- A witness of clause 10 of TheSampleInterfacesAreWatched. -/
theorem meets_TheSampleInterfacesAreWatched_10 :
    (fun (s : State) (_dt : Nat) (res : List (Int × Int)) (c : Calib) =>
      (s.gns.calib = some c) ∧ (c.stage = 2) ∧ (∃ x ∈ res, 2000 < x.1.natAbs) ∧ (s.grpThere c.grp = true) ∧ (c.grp ∉
      s.gns.retired))
      { base with gns := { calib := some { grp := 2, stage := 2 } } } 5 [(700, 3), (-2001, 0)] { grp := 2, stage := 2 } := by decide +kernel

/-- A witness of clause 11 of TheSampleInterfacesAreWatched. -/
theorem meets_TheSampleInterfacesAreWatched_11 :
    (fun (s : State) (_dt g : Nat) =>
      (s.grpThere g = true) ∧ (g ∉ s.gns.retired))
      base 5 3 := by decide +kernel

/-- A witness of clause 12 of TheSampleInterfacesAreWatched. -/
theorem meets_TheSampleInterfacesAreWatched_12 :
    (fun (s : State) (_dt : Nat) =>
      (s.Settled) ∧ (s.pll.refOk = true))
      (portSt { clkOk := true }) 5 := by decide +kernel

/-- A witness of clause 1 of TheReferenceStationPublishesAndSurveys. -/
theorem meets_TheReferenceStationPublishesAndSurveys_1 :
    (fun (s : State) (_f : SkyFacts) (e : NT) =>
      (e = s.nextDue (nextEpoch s.epochHz) s.gns.epochAt) ∧ (s.epochHz ≠ 0) ∧ (s.upd.pause ≠ some 2) ∧ (s.gns.engine ≠ 0) ∧
      (s.tim.ntValid = true) ∧ (s.gns.adopt = none) ∧ (s.gns.streamNext = none) ∧ (s.fld (0x5014, 24, 1) = s.gns.refAnt))
      { fl (portSt { clkOk := true }) (0x514C, 0, 1) 1 with tim := { ntValid := true } } {} (({ fl (portSt { clkOk := true }) (0x514C, 0, 1) 1 with tim := { ntValid := true } } : State).nextDue (nextEpoch 10) 0) := by decide +kernel

/-- A witness of clause 2 of TheReferenceStationPublishesAndSurveys. -/
theorem meets_TheReferenceStationPublishesAndSurveys_2 :
    (fun (s : State) (_f : SkyFacts) (e : NT) =>
      (e = s.nextDue (nextEpoch s.epochHz) s.gns.epochAt) ∧ (s.epochHz ≠ 0) ∧ (s.upd.pause = some 2))
      { portSt { clkOk := true } with upd := { base.upd with pause := some 2 } } {} (({ portSt { clkOk := true } with upd := { base.upd with pause := some 2 } } : State).nextDue (nextEpoch 10) 0) := by decide +kernel

/-- A witness of clause 3 of TheReferenceStationPublishesAndSurveys. -/
theorem meets_TheReferenceStationPublishesAndSurveys_3 :
    (fun (s : State) (_f : SkyFacts) (a : Adoption) (l : Live) (h : Nat) (e : NT) =>
      (e = s.nextDue (nextEpoch s.epochHz) s.gns.epochAt) ∧ (s.epochHz ≠ 0) ∧ (s.upd.pause ≠ some 2) ∧ (s.gns.engine = 0) ∧
      (s.gns.adopt = some a) ∧ (a.handle = some h) ∧ (s.Waits h l) ∧ (s.gns.streamNext = none) ∧ (s.fld (0x5014, 24, 1) =
      s.gns.refAnt))
      { rings base with gns := { adopt := some { handle := some 7, kind := 3, pos := (1, 2, 3) } }, hif := { (rings base).hif with live := [{ lv 0x20 [] with started := true }] } } {} { handle := some 7, kind := 3, pos := (1, 2, 3) } { lv 0x20 [] with started := true } 7 (({ rings base with gns := { adopt := some { handle := some 7, kind := 3, pos := (1, 2, 3) } }, hif := { (rings base).hif with live := [{ lv 0x20 [] with started := true }] } } : State).nextDue (nextEpoch 10) 0) := by decide +kernel

/-- A witness of clause 4 of TheReferenceStationPublishesAndSurveys. -/
theorem meets_TheReferenceStationPublishesAndSurveys_4 :
    (fun (s : State) (_werr : Bool) (v : Survey) (l : Live) =>
      (s.Settled) ∧ (s.gns.survey = some v) ∧ (v.out = false) ∧ (s.Waits v.handle l) ∧ (s.Room l.cq))
      { rings base with gns := { survey := some { handle := 7, start := 0x1_0000_0000, minS := 60, acc := 20, maxS := 600, out := false, nextAt := 0x1_4000_0000 } }, hif := { (rings base).hif with live := [{ lv 0x20 [] with started := true }] } } false { handle := 7, start := 0x1_0000_0000, minS := 60, acc := 20, maxS := 600, out := false, nextAt := 0x1_4000_0000 } { lv 0x20 [] with started := true } := by decide +kernel

/-- A witness of clause 5 of TheReferenceStationPublishesAndSurveys. -/
theorem meets_TheReferenceStationPublishesAndSurveys_5 :
    (fun (s : State) (v : Survey) (l : Live) =>
      (s.Settled) ∧ (s.gns.survey = some v) ∧ (v.maxS ≠ 0) ∧ (s.Waits v.handle l))
      { rings base with gns := { survey := some { handle := 7, start := 0x1_0000_0000, minS := 60, acc := 20, maxS := 600, out := false, nextAt := 0x1_4000_0000 } }, hif := { (rings base).hif with live := [{ lv 0x20 [] with started := true }] } } { handle := 7, start := 0x1_0000_0000, minS := 60, acc := 20, maxS := 600, out := false, nextAt := 0x1_4000_0000 } { lv 0x20 [] with started := true } := by decide +kernel

/-- A witness of clause 6 of TheReferenceStationPublishesAndSurveys. -/
theorem meets_TheReferenceStationPublishesAndSurveys_6 :
    (fun (s : State) (h : Nat) (l : Live) (b : List Byte) (p : Int × Int × Int) =>
      (s.Settled) ∧ (s.Runs h 0x21 l) ∧ (BaseLegal b) ∧ (s.baseMayMove = true) ∧ (s.gns.adopt = none) ∧ (s.gns.live = some p) ∧
      (bitAt (leAt b 27 1) 0 = true → s.antB = true) ∧ (bitAt (leAt b 27 1) 1 = false) ∧ (implausible p (leAtS b 0 8, leAtS b 8
      8, leAtS b 16 8) = true))
      { host 0x21 [] with saf := { base.saf with run := .fleetStop }, gns := { live := some (600000, 0, 0) } } 7 (lv 0x21 []) baseBuf (600000, 0, 0) := by decide +kernel

/-- A witness of clause 7 of TheReferenceStationPublishesAndSurveys. -/
theorem meets_TheReferenceStationPublishesAndSurveys_7 :
    (fun (s : State) (h : Nat) (l : Live) =>
      (s.Settled) ∧ (s.Runs h 0x23 l) ∧ (streamStop l.entry = false) ∧ (65536 ≤ l.len) ∧ (s.gns.streamNext = none))
      { rings base with hif := { (rings base).hif with live := [{ lv 0x23 [1, 1, 10] with entry := leBytes 0x23 16 ++ leBytes 65536 8 ++ slice [1, 1, 10] 0 40 }] } } 7 { lv 0x23 [1, 1, 10] with entry := leBytes 0x23 16 ++ leBytes 65536 8 ++ slice [1, 1, 10] 0 40 } := by decide +kernel

/-- A witness of clause 8 of TheReferenceStationPublishesAndSurveys. -/
theorem meets_TheReferenceStationPublishesAndSurveys_8 :
    (fun (s : State) (h : Nat) (l : Live) =>
      (s.Settled) ∧ (s.Runs h 0x22 l) ∧ (capBytes (l.p 8 1) (l.p 10 2) 1 ≤ l.len) ∧ (∀ p, p < 6 → bitAt (l.p 8 1) p = true →
      s.portUsed p = true) ∧ (s.gns.capture = none))
      { fl (host 0x22 []) (spEn 0) 1 with hif := { (rings base).hif with live := [{ lv 0x22 (leBytes 0 8 ++ [1, 0, 1, 0]) with entry := leBytes 0x22 16 ++ leBytes 50000 8 ++ slice (leBytes 0 8 ++ [1, 0, 1, 0]) 0 40 }] } } 7 { lv 0x22 (leBytes 0 8 ++ [1, 0, 1, 0]) with entry := leBytes 0x22 16 ++ leBytes 50000 8 ++ slice (leBytes 0 8 ++ [1, 0, 1, 0]) 0 40 } := by decide +kernel

/-- A witness of clause 9 of TheReferenceStationPublishesAndSurveys. -/
theorem meets_TheReferenceStationPublishesAndSurveys_9 :
    (fun (s : State) (c : RawCap) =>
      (s.Settled) ∧ (s.gns.capture = some c) ∧ (c.running = false))
      { rings base with gns := { capture := some { ({ handle := 7, ports := 1, ms := 1, at_ := 0x1_0100_0000, running := true } : RawCap) with running := false } }, hif := { (rings base).hif with live := [{ lv 0x20 [] with started := true }] } } { ({ handle := 7, ports := 1, ms := 1, at_ := 0x1_0100_0000, running := true } : RawCap) with running := false } := by decide +kernel

/-- A witness of clause 10 of TheReferenceStationPublishesAndSurveys. -/
theorem meets_TheReferenceStationPublishesAndSurveys_10 :
    (fun (s : State) (_b : List (List Byte)) (c : RawCap) (l : Live) =>
      (s.Settled) ∧ (s.gns.capture = some c) ∧ (c.running = true) ∧ (s.Waits c.handle l))
      { rings base with gns := { capture := some { ({ handle := 7, ports := 1, ms := 1, at_ := 0x1_0100_0000, running := true } : RawCap) with ms := 0 } }, hif := { (rings base).hif with live := [{ lv 0x20 [] with started := true }] } } [[1, 2]] { ({ handle := 7, ports := 1, ms := 1, at_ := 0x1_0100_0000, running := true } : RawCap) with ms := 0 } { lv 0x20 [] with started := true } := by decide +kernel

/-- A witness of clause 1 of TheBaseMovesOnlyUnderAStandingFleet. -/
theorem meets_TheBaseMovesOnlyUnderAStandingFleet_1 :
    (fun (s : State) (h : Nat) (l : Live) =>
      (s.Settled) ∧ (s.Runs h 0x20 l) ∧ (l.len = 0 ∨ 32 ≤ l.len) ∧ (s.saf.run = .fleetStop ∨ s.saf.run = .safe ∨ s.saf.run =
      .standby ∨ s.saf.run = .boot) ∧ (s.gns.survey = none))
      { host 0x20 (leBytes 60 4 ++ leBytes 20 4) with saf := { base.saf with run := .fleetStop } } 7 (lv 0x20 (leBytes 60 4 ++ leBytes 20 4)) := by decide +kernel

/-- A witness of clause 2 of TheBaseMovesOnlyUnderAStandingFleet. -/
theorem meets_TheBaseMovesOnlyUnderAStandingFleet_2 :
    (fun (s : State) (h : Nat) (l : Live) =>
      (s.Settled) ∧ (s.Runs h 0x20 l) ∧ (l.len = 0 ∨ 32 ≤ l.len) ∧ (s.saf.run = .run ∨ s.saf.run = .updatePause))
      { host 0x20 (leBytes 60 4 ++ leBytes 20 4) with saf := { base.saf with run := .run } } 7 (lv 0x20 (leBytes 60 4 ++ leBytes 20 4)) := by decide +kernel

/-- A witness of clause 3 of TheBaseMovesOnlyUnderAStandingFleet. -/
theorem meets_TheBaseMovesOnlyUnderAStandingFleet_3 :
    (fun (s : State) (h : Nat) (l : Live) (b : List Byte) =>
      (s.Settled) ∧ (s.Runs h 0x21 l) ∧ (BaseLegal b) ∧ (bitAt (leAt b 27 1) 0 = false ∨ s.antB = true ∧ baselineOk (leAtS b 28 4, leAtS b 32 4, leAtS b 36 4) = true) ∧ (s.saf.run = .fleetStop ∨ s.saf.run = .safe ∨ s.saf.run = .standby ∨ s.saf.run = .boot) ∧ (s.gns.adopt = none) ∧ (s.gns.survey = none) ∧ (s.gns.live.all (fun p => bitAt (leAt b 27 1) 1 || !implausible p (leAtS b 0 8, leAtS b 8 8, leAtS b 16 8)) = true))
      { host 0x21 [] with saf := { base.saf with run := .fleetStop } } 7 (lv 0x21 []) baseBuf := by decide +kernel

/-- A witness of clause 4 of TheBaseMovesOnlyUnderAStandingFleet. -/
theorem meets_TheBaseMovesOnlyUnderAStandingFleet_4 :
    (fun (s : State) (h : Nat) (l : Live) (b : List Byte) =>
      (s.Settled) ∧ (s.Runs h 0x21 l) ∧ (BaseLegal b) ∧ (bitAt (leAt b 27 1) 0 = true → s.antB = true) ∧ (s.saf.run = .run ∨
      s.saf.run = .updatePause))
      { host 0x21 [] with saf := { base.saf with run := .run } } 7 (lv 0x21 []) baseBuf := by decide +kernel

/-- A witness of clause 1 of TheRtkArrayServesItsEpochs. -/
theorem meets_TheRtkArrayServesItsEpochs_1 :
    (fun (s : State) (_dt i : Nat) (m : RxItem) =>
      (s.mac.inbox = [m]) ∧ (m.q = 24) ∧ (s.robotOf (frSrc m.frame) = some i) ∧ (s.older i (frEpoch m.frame) = false) ∧
      (s.counts i (frEpoch m.frame) = true) ∧ (parseRawObs (slice m.frame 22 (frLen m.frame - (if frRep m.frame then 46 else
      0))) = none))
      { robotSt with mac := { inbox := [obsItem 24 4] } } 5 0 (obsItem 24 4) := by decide +kernel

/-- A witness of clause 2 of TheRtkArrayServesItsEpochs. -/
theorem meets_TheRtkArrayServesItsEpochs_2 :
    (fun (s : State) (dt i short : Nat) (m : RxItem) (cells : List RawCell) (odo : Int) (t g : NT) (e : HeldEpoch) =>
      (s.mac.inbox = [m]) ∧ (m.q = 24) ∧ (s.robotOf (frSrc m.frame) = some i) ∧ (s.older i (frEpoch m.frame) = false) ∧
      (s.counts i (frEpoch m.frame) = true) ∧ (parseRawObs (slice m.frame 22 (frLen m.frame - (if frRep m.frame then 46 else
      0))) = some (cells, short, odo)) ∧ (t = expandNt m.rx short) ∧ (g = gridNear (s.lease i).tRep t) ∧ (((s.frkSlot
      i).newest.all fun n => ntAfter t n) = true) ∧ (ntSince t g ≤ fullTicks 1 1000) ∧ (ntSince g t ≤ fullTicks 1 1000) ∧
      (ntSince t m.rx ≤ fullTicks 2 1000) ∧ (ntSince m.rx t ≤ tickHz) ∧ ((s.tim.stepBeacon.all fun a => !ntAfter a t) = true) ∧
      (s.gns.held.find? (fun x => x.t == g && decide (ntSince (s.tick dt).nt x.t ≤ 2 * tickHz)) = some e))
      { robotSt with mac := { inbox := [rawItem] }, gns := { held := [{ t := 0x1_0000_0000, cells := [], slips := [] }] } } 5 0 0x1_0000_0000 rawItem [rawCell 0 7 70 (30 * 64)] 0 0x1_0000_0000 0x1_0000_0000 { t := 0x1_0000_0000, cells := [], slips := [] } := by decide +kernel

/-- A witness of clause 3 of TheRtkArrayServesItsEpochs. -/
theorem meets_TheRtkArrayServesItsEpochs_3 :
    (fun (s : State) (_dt e : Nat) (q : FrkEpoch) =>
      (s.Settled) ∧ (s.frk.queue.find? (fun y => y.eng.isNone) = some q) ∧ (s.freeEng = some e) ∧ ((s.frkSlot q.slot).reset =
      none))
      (frkSt none {}) 5 0 (fep none) := by decide +kernel

/-- A witness of clause 4 of TheRtkArrayServesItsEpochs. -/
theorem meets_TheRtkArrayServesItsEpochs_4 :
    (fun (s : State) (q : FrkEpoch) =>
      (s.frk.queue.find? (fun y => y.eng.isNone && !y.late) = some q) ∧ (s.freeEng = none) ∧ (s.frk.overload = false) ∧ (s.Room
      (s.evtCq 0x0701)))
      { rings robotSt with frk := { queue := [fep none], retired := [0, 1, 2, 3, 4, 5, 6, 7] } } (fep none) := by decide +kernel

/-- A witness of clause 5 of TheRtkArrayServesItsEpochs. -/
theorem meets_TheRtkArrayServesItsEpochs_5 :
    (fun (s : State) =>
      (s.Settled) ∧ (s.frk.overload = true))
      { base with frk := { overload := true, lastWait := 0x1_0000_0000 }, flt := { srcs := [(0x51, { level := true })] } } := by decide +kernel

/-- A witness of clause 6 of TheRtkArrayServesItsEpochs. -/
theorem meets_TheRtkArrayServesItsEpochs_6 :
    (fun (s : State) (_dt e : Nat) (q : FrkEpoch) =>
      (s.frk.queue.find? (fun y => y.eng == some e) = some q))
      (frkSt (some 2) { st := .running }) 5 2 (fep (some 2)) := by decide +kernel

/-- A witness of clause 7 of TheRtkArrayServesItsEpochs. -/
theorem meets_TheRtkArrayServesItsEpochs_7 :
    (fun (s : State) (_dt e i : Nat) (at_ : NT) (gone : Bool) =>
      (s.searchOn e = some (i, at_, gone)))
      (frkSt none { search := .running 3 0x1_0000_0000 false }) 5 3 0 0x1_0000_0000 false := by decide +kernel

/-- A witness of clause 8 of TheRtkArrayServesItsEpochs. -/
theorem meets_TheRtkArrayServesItsEpochs_8 :
    (fun (s : State) (e i : Nat) (at_ : NT) (gone : Bool) =>
      (s.searchOn e = some (i, at_, gone)))
      (frkSt none { search := .running 3 0x1_0000_0000 false }) 3 0 0x1_0000_0000 false := by decide +kernel

/-- A witness of clause 9 of TheRtkArrayServesItsEpochs. -/
theorem meets_TheRtkArrayServesItsEpochs_9 :
    (fun (s : State) (_dt e : Nat) =>
      (e < 8) ∧ (e ∉ s.frk.retired))
      (frkSt (some 3) {}) 5 3 := by decide +kernel

/-- A witness of clause 10 of TheRtkArrayServesItsEpochs. -/
theorem meets_TheRtkArrayServesItsEpochs_10 :
    (fun (s : State) (i : Nat) (r : RtkReset) (l : Live) =>
      (s.Settled) ∧ ((s.frkSlot i).reset = some r) ∧ (r.wait ≠ 0) ∧ (s.Waits r.handle l) ∧ (s.Room l.cq))
      { robotSt with frk := { slots := [(0, { reset := some { handle := 7, scope := 1, wait := 1, until_ := 0x1_4000_0000, nextProg := 0x1_2000_0000 } })] }, hif := { (rings base).hif with live := [{ lv 0x20 [] with started := true }] } } 0 { handle := 7, scope := 1, wait := 1, until_ := 0x1_4000_0000, nextProg := 0x1_2000_0000 } { lv 0x20 [] with started := true } := by decide +kernel

/-- A witness of clause 11 of TheRtkArrayServesItsEpochs. -/
theorem meets_TheRtkArrayServesItsEpochs_11 :
    (fun (s : State) (i : Nat) (r : RtkReset) (l : Live) =>
      (s.Settled) ∧ ((s.frkSlot i).reset = some r) ∧ (r.wait ≠ 0) ∧ (s.Waits r.handle l))
      { robotSt with frk := { slots := [(0, { reset := some { handle := 7, scope := 1, wait := 1, until_ := 0x1_4000_0000, nextProg := 0x1_2000_0000 } })] }, hif := { (rings base).hif with live := [{ lv 0x20 [] with started := true }] } } 0 { handle := 7, scope := 1, wait := 1, until_ := 0x1_4000_0000, nextProg := 0x1_2000_0000 } { lv 0x20 [] with started := true } := by decide +kernel

/-- A witness of clause 12 of TheRtkArrayServesItsEpochs. -/
theorem meets_TheRtkArrayServesItsEpochs_12 :
    (fun (s : State) (h i : Nat) (l : Live) =>
      (s.Settled) ∧ (s.Runs h 0x30 l) ∧ (l.p 8 1 = i) ∧ (l.p 0 2 ≠ 0) ∧ (l.p 2 2 ≤ 2000) ∧ (50 ≤ l.p 4 2) ∧ (l.p 4 2 ≤ 5000) ∧
      (10 ≤ l.p 6 2) ∧ (l.p 6 2 ≤ 2000) ∧ (1 ≤ l.p 9 1) ∧ (l.p 9 1 ≤ 3) ∧ ((s.lease i).st = .released ∨ (s.lease i).st =
      .unknown))
      (host 0x30 (leBytes 1 2 ++ leBytes 100 2 ++ leBytes 100 2 ++ leBytes 50 2 ++ [4, 2])) 7 4 (lv 0x30 (leBytes 1 2 ++ leBytes 100 2 ++ leBytes 100 2 ++ leBytes 50 2 ++ [4, 2])) := by decide +kernel

/-- A witness of clause 13 of TheRtkArrayServesItsEpochs. -/
theorem meets_TheRtkArrayServesItsEpochs_13 :
    (fun (s : State) (h i : Nat) (l : Live) =>
      (s.Settled) ∧ (s.Runs h 0x30 l) ∧ (l.p 8 1 = i) ∧ (l.p 0 2 ≠ 0) ∧ (l.p 2 2 ≤ 2000) ∧ (50 ≤ l.p 4 2) ∧ (l.p 4 2 ≤ 5000) ∧
      (10 ≤ l.p 6 2) ∧ (l.p 6 2 ≤ 2000) ∧ (1 ≤ l.p 9 1) ∧ (l.p 9 1 ≤ 3) ∧ ((s.lease i).st = .active ∨ (s.lease i).st = .suspect))
      { host 0x30 (leBytes 1 2 ++ leBytes 100 2 ++ leBytes 100 2 ++ leBytes 50 2 ++ [0, 2]) with txu := robotSt.txu } 7 0 (lv 0x30 (leBytes 1 2 ++ leBytes 100 2 ++ leBytes 100 2 ++ leBytes 50 2 ++ [0, 2])) := by decide +kernel

/-- A witness of clause 14 of TheRtkArrayServesItsEpochs. -/
theorem meets_TheRtkArrayServesItsEpochs_14 :
    (fun (s : State) (h i : Nat) (l : Live) =>
      (s.Settled) ∧ (s.Runs h 0x31 l) ∧ (l.p 0 1 = i) ∧ (l.p 1 1 = 1 ∨ l.p 1 1 = 2) ∧ (l.p 2 1 ≤ 2) ∧ (l.p 2 1 = 0 ∨ (1 ≤ l.p 4
      2 ∧ l.p 4 2 ≤ 600)) ∧ ((s.lease i).st = .admitting ∨ (s.lease i).st = .active ∨ (s.lease i).st = .suspect) ∧ ((s.frkSlot
      i).reset = none))
      { host 0x31 [0, 1, 1, 0, 60] with txu := robotSt.txu } 7 0 (lv 0x31 [0, 1, 1, 0, 60]) := by decide +kernel

/-- A witness of clause 1 of QueuesTakeGiveAndFlushWords. -/
theorem meets_QueuesTakeGiveAndFlushWords_1 :
    (fun (s : State) (_dt q words : Nat) (w : QWord) =>
      (s.Settled) ∧ (s.queueUsed q = true) ∧ (w.sop = !(s.queue q).open_) ∧ ((s.queue q).cut = false ∨ w.sop = true) ∧ ((s.queue
      q).words.length < (s.queForce q).1) ∧ (q < 8 → w.sop = true → (s.queue q).words.length + words ≤ (s.queForce q).1) ∧
      (s.fuse.big = true ∨ (s.queue q).tail ≠ 8))
      (queSt true 24 { words := [wd 5] }) 5 24 1 (wd 6) := by decide +kernel

/-- A witness of clause 2 of QueuesTakeGiveAndFlushWords. -/
theorem meets_QueuesTakeGiveAndFlushWords_2 :
    (fun (s : State) (_dt q _words : Nat) (w a : QWord) (rest : List QWord) =>
      (s.Settled) ∧ (s.queueUsed q = true) ∧ ((s.queue q).visible (s.queForce q).2 ≠ 0) ∧ ((s.queue q).words = a :: rest) ∧
      (w.sop = !(s.queue q).open_) ∧ ((s.queue q).cut = false) ∧ ((s.queue q).words.length < (s.queForce q).1) ∧ (8 ≤ q) ∧
      (s.fuse.big = true ∨ (s.queue q).tail ≠ 8))
      (queSt true 24 { words := [wd 5, wd 7] }) 5 24 1 (wd 6) (wd 5) [wd 7] := by decide +kernel

/-- A witness of clause 3 of QueuesTakeGiveAndFlushWords. -/
theorem meets_QueuesTakeGiveAndFlushWords_3 :
    (fun (s : State) (_dt q _words : Nat) (w : QWord) =>
      (s.Settled) ∧ (s.queueUsed q = true) ∧ ((s.queForce q).1 ≤ (s.queue q).words.length) ∧ (8 ≤ q ∨ w.sop = false))
      (queSt true 24 { words := (List.range 16).map wd }) 5 24 1 (wd 6) := by decide +kernel

/-- A witness of clause 4 of QueuesTakeGiveAndFlushWords. -/
theorem meets_QueuesTakeGiveAndFlushWords_4 :
    (fun (s : State) (_dt q words : Nat) (w : QWord) =>
      (s.Settled) ∧ (s.queueUsed q = true) ∧ (q < 8) ∧ (w.sop = true) ∧ ((s.queForce q).1 < (s.queue q).words.length + words))
      (queSt true 1 { words := (List.range 10).map wd }) 5 1 7 { data := 0, sop := true, eop := false } := by decide +kernel

/-- A witness of clause 5 of QueuesTakeGiveAndFlushWords. -/
theorem meets_QueuesTakeGiveAndFlushWords_5 :
    (fun (s : State) (_dt q : Nat) (a : QWord) (rest : List QWord) =>
      (s.Settled) ∧ (s.queueUsed q = true) ∧ ((s.queue q).visible (s.queForce q).2 ≠ 0) ∧ ((s.queue q).words = a :: rest))
      (queSt true 24 { words := [wd 5, wd 7] }) 5 24 (wd 5) [wd 7] := by decide +kernel

/-- A witness of clause 6 of QueuesTakeGiveAndFlushWords. -/
theorem meets_QueuesTakeGiveAndFlushWords_6 :
    (fun (s : State) (_dt q : Nat) (_ecc : Bool) =>
      (s.Settled) ∧ (s.queueUsed q = true) ∧ ((s.queue q).visible (s.queForce q).2 = 0))
      (queSt true 24 {}) 5 24 false := by decide +kernel

/-- A witness of clause 7 of QueuesTakeGiveAndFlushWords. -/
theorem meets_QueuesTakeGiveAndFlushWords_7 :
    (fun (s : State) (_dt q : Nat) (a : QWord) (rest : List QWord) =>
      (s.queueUsed q = true) ∧ ((s.queue q).visible (s.queForce q).2 ≠ 0) ∧ ((s.queue q).words = a :: rest))
      (queSt true 24 { words := [wd 5, wd 7] }) 5 24 (wd 5) [wd 7] := by decide +kernel

/-- A witness of clause 8 of QueuesTakeGiveAndFlushWords. -/
theorem meets_QueuesTakeGiveAndFlushWords_8 :
    (fun (s : State) (_dt q _words : Nat) (w : QWord) =>
      (s.Settled) ∧ (s.queueUsed q = true) ∧ (w.sop = false) ∧ ((s.queue q).cut = true ∨ (s.queue q).open_ = false) ∧ ((s.queue
      q).words.length < (s.queForce q).1) ∧ (s.fuse.big = true ∨ (s.queue q).tail ≠ 8))
      (queSt true 3 { cut := true }) 5 3 0 { data := 5, sop := false, eop := true } := by decide +kernel

/-- A witness of clause 9 of QueuesTakeGiveAndFlushWords. -/
theorem meets_QueuesTakeGiveAndFlushWords_9 :
    (fun (s : State) (_dt q _words : Nat) (_w : QWord) (_pop : Bool) =>
      (s.Settled) ∧ (s.queueUsed q = false))
      (queSt false 31 {}) 5 31 0 (wd 5) true := by decide +kernel

/-- A witness of clause 10 of QueuesTakeGiveAndFlushWords. -/
theorem meets_QueuesTakeGiveAndFlushWords_10 :
    (fun (s : State) (_dt q : Nat) =>
      (s.Settled) ∧ (s.queueUsed q = true) ∧ (s.fuse.big = false))
      (queSt false 24 { words := (List.range 14).map wd, head := 2, tail := 5 }) 5 24 := by decide +kernel

/-- A witness of clause 11 of QueuesTakeGiveAndFlushWords. -/
theorem meets_QueuesTakeGiveAndFlushWords_11 :
    (fun (s : State) (_dt q : Nat) (v : Reg) =>
      (s.Settled) ∧ (fieldOf v 8 1 = 1) ∧ (fieldOf v 0 7 = q) ∧ (s.saf.run = .fleetStop ∨ s.saf.run = .safe) ∧ ((s.queue
      q).begun = false))
      { queSt true 24 { words := [wd 5, wd 7] } with saf := { base.saf with run := .safe } } 5 24 0x118 := by decide +kernel

/-- A witness of clause 12 of QueuesTakeGiveAndFlushWords. -/
theorem meets_QueuesTakeGiveAndFlushWords_12 :
    (fun (s : State) (_dt : Nat) (v : Reg) =>
      (s.Settled) ∧ (fieldOf v 8 1 = 0))
      base 5 3 := by decide +kernel

/-- A witness of clause 13 of QueuesTakeGiveAndFlushWords. -/
theorem meets_QueuesTakeGiveAndFlushWords_13 :
    (fun (s : State) (_dt : Nat) (v : Reg) =>
      (s.Settled) ∧ (fieldOf v 8 1 = 1) ∧ (s.saf.run ≠ .fleetStop) ∧ (s.saf.run ≠ .safe))
      base 5 0x118 := by decide +kernel

/-- A witness of clause 14 of QueuesTakeGiveAndFlushWords. -/
theorem meets_QueuesTakeGiveAndFlushWords_14 :
    (fun (s : State) (p : Nat) (x : Qfc) =>
      (s.Settled) ∧ (p < 8) ∧ (Tab.get (fun _ => {}) s.que.pins p = x) ∧ (x.on = true))
      { base with que := { pins := [(2, { on := true, at_ := 1_000_000_100 })] } } 2 { on := true, at_ := 1_000_000_100 } := by decide +kernel

/-- A witness of clause 1 of PowerAndResetBringTheDeviceBack. -/
theorem meets_PowerAndResetBringTheDeviceBack_1 :
    (fun (s : State) (_safFirst : Bool) =>
      (s.saf.run = .off) ∧ (s.clk.aon = true))
      { rg base 0x13018 5 with saf := { run := .off } } true := by decide +kernel

/-- A witness of clause 2 of PowerAndResetBringTheDeviceBack. -/
theorem meets_PowerAndResetBringTheDeviceBack_2 :
    (fun (s : State) (_safFirst : Bool) =>
      (s.saf.run = .off) ∧ (s.clk.aon = false))
      { base with saf := { run := .off }, clk := { aon := false }, nv := { pcycle := 6 } } false := by decide +kernel

/-- A witness of clause 4 of PowerAndResetBringTheDeviceBack. -/
theorem meets_PowerAndResetBringTheDeviceBack_4 :
    (fun (s : State) (_dt lowNs : Nat) =>
      (s.Settled) ∧ (lowNs < 100))
      base 5 99 := by decide +kernel

/-- A witness of clause 5 of PowerAndResetBringTheDeviceBack. -/
theorem meets_PowerAndResetBringTheDeviceBack_5 :
    (fun (s : State) (_dt lowNs : Nat) =>
      (1000 ≤ lowNs) ∧ (s.saf.run ≠ .off))
      { base with axes := [(3, { st := .moving, en := true, inH := true })] } 5 1000 := by decide +kernel

/-- A witness of clause 6 of PowerAndResetBringTheDeviceBack. -/
theorem meets_PowerAndResetBringTheDeviceBack_6 :
    (fun (s : State) (_dt lowNs : Nat) =>
      (s.Settled) ∧ (100 ≤ lowNs) ∧ (lowNs < 1000) ∧ (s.saf.run ≠ .off))
      base 5 500 := by decide +kernel

/-- A witness of clause 7 of PowerAndResetBringTheDeviceBack. -/
theorem meets_PowerAndResetBringTheDeviceBack_7 :
    (fun (s : State) (_dt : Nat) (_boot : BootFacts) (i : Nat) (x : Disp) =>
      (s.saf.run = .boot) ∧ (s.saf.released = false) ∧ (s.nv.disp = [(i, x)]))
      { State.reset with nv := { disp := [(3, { kind := 2, epoch := 9, uid := 77 })], fcnt := some 0x300000, role := .standby } } 5 {} 3 { kind := 2, epoch := 9, uid := 77 } := by decide +kernel

/-- A witness of clause 8 of PowerAndResetBringTheDeviceBack. -/
theorem meets_PowerAndResetBringTheDeviceBack_8 :
    (fun (s : State) (_dt : Nat) =>
      (s.saf.run = .boot) ∧ (s.saf.released = true) ∧ (s.upd.hold = false) ∧ (s.saf.bootSafe = none))
      { State.reset with saf := { released := true } } 5 := by decide +kernel

/-- A witness of clause 9 of PowerAndResetBringTheDeviceBack. -/
theorem meets_PowerAndResetBringTheDeviceBack_9 :
    (fun (s : State) (_dt src : Nat) (direct : Bool) =>
      (s.saf.run = .boot) ∧ (s.saf.released = true) ∧ (s.upd.hold = false) ∧ (s.saf.bootSafe = some (src, direct)))
      { State.reset with saf := { released := true, bootSafe := some (9, true) } } 5 9 true := by decide +kernel

/-- A witness of clause 10 of PowerAndResetBringTheDeviceBack. -/
theorem meets_PowerAndResetBringTheDeviceBack_10 :
    (fun (s : State) (_dt : Nat) =>
      (s.Settled) ∧ (s.saf.run = .boot) ∧ (s.saf.released = true) ∧ (s.upd.hold = true))
      { State.reset with saf := { released := true }, upd := { hold := true } } 5 := by decide +kernel

/-- A witness of clause 1 of AStandbyTakesOverFromASilentPartner. -/
theorem meets_AStandbyTakesOverFromASilentPartner_1 :
    (fun (s : State) (_dt : Nat) =>
      (s.par.aliveIn = true) ∧ (s.par.role ≠ .none))
      (pairSt .run { role := .active, aliveIn := true, token := true }) 5 := by decide +kernel

/-- A witness of clause 2 of AStandbyTakesOverFromASilentPartner. -/
theorem meets_AStandbyTakesOverFromASilentPartner_2 :
    (fun (s : State) (_dt : Nat) =>
      (s.par.aliveIn = true) ∧ (s.par.role = .standby) ∧ (s.saf.run = .standby) ∧ (s.flag (0x15014, 1, 1) = true) ∧
      (s.par.linkUp = false) ∧ (s.par.tokenIn = false) ∧ (s.par.take = none))
      (fl (pairSt .standby { role := .standby, aliveIn := true, wasSync := true }) (0x15014, 1, 1) 1) 5 := by decide +kernel

/-- A witness of clause 3 of AStandbyTakesOverFromASilentPartner. -/
theorem meets_AStandbyTakesOverFromASilentPartner_3 :
    (fun (s : State) (_dt : Nat) =>
      (s.par.linkUp = true) ∧ (s.par.role ≠ .none))
      (pairSt .standby { role := .standby, mirror := .sync, linkUp := true, aliveIn := true }) 5 := by decide +kernel

/-- A witness of clause 4 of AStandbyTakesOverFromASilentPartner. -/
theorem meets_AStandbyTakesOverFromASilentPartner_4 :
    (fun (s : State) (dt h u : Nat) (l : Live) =>
      (s.Settled) ∧ (s.par.linkUp = false) ∧ (s.par.join = some (h, u)) ∧ (u + 5 * cycHz ≤ s.up + dt) ∧ (s.Waits h l))
      { host 0xC0 [] with par := { join := some (7, 0) } } 300_000_000 7 0 (lv 0xC0 []) := by decide +kernel

/-- A witness of clause 5 of AStandbyTakesOverFromASilentPartner. -/
theorem meets_AStandbyTakesOverFromASilentPartner_5 :
    (fun (s : State) (_dt : Nat) =>
      (s.Settled) ∧ (s.par.token = false) ∧ (s.par.take ≠ none ∨ (s.par.role ≠ .standby ∧ s.par.hand = none ∧ s.saf.run ∈ [.run,
      .fleetStop, .safe, .updatePause])))
      (pairSt .standby { role := .standby, tokenIn := true, take := some (tk 0 none true) }) 5 := by decide +kernel

/-- A witness of clause 6 of AStandbyTakesOverFromASilentPartner. -/
theorem meets_AStandbyTakesOverFromASilentPartner_6 :
    (fun (s : State) (_dt : Nat) =>
      (s.par.token = false) ∧ (s.par.tokenIn = true) ∧ (s.par.aliveIn = false) ∧ (s.par.linkUp = false) ∧ (s.par.role =
      .standby) ∧ (s.saf.run = .standby) ∧ (s.flag (0x15014, 1, 1) = true) ∧ (s.par.take = none))
      (fl (pairSt .standby { role := .standby, tokenIn := true, wasSync := true }) (0x15014, 1, 1) 1) 5 := by decide +kernel

/-- A witness of clause 7 of AStandbyTakesOverFromASilentPartner. -/
theorem meets_AStandbyTakesOverFromASilentPartner_7 :
    (fun (s : State) (u : Nat) =>
      (s.Settled) ∧ (s.par.taking = some u))
      (pairSt .standby { token := true, taking := some 1_000_000_000 }) 1_000_000_000 := by decide +kernel

/-- A witness of clause 8 of AStandbyTakesOverFromASilentPartner. -/
theorem meets_AStandbyTakesOverFromASilentPartner_8 :
    (fun (s : State) (u : Nat) =>
      (s.Settled) ∧ (s.par.taking = some u) ∧ (s.Room (s.evtCq 0x1503)))
      (pairSt .standby { token := true, taking := some 1_000_000_000 }) 1_000_000_000 := by decide +kernel

/-- A witness of clause 9 of AStandbyTakesOverFromASilentPartner. -/
theorem meets_AStandbyTakesOverFromASilentPartner_9 :
    (fun (s : State) (_dt : Nat) =>
      (s.par.token = true))
      base 5 := by decide +kernel

/-- A witness of clause 10 of AStandbyTakesOverFromASilentPartner. -/
theorem meets_AStandbyTakesOverFromASilentPartner_10 :
    (fun (s : State) (dt : Nat) (k : Takeover) =>
      (s.par.take = some k) ∧ (k.promoted = false) ∧ (s.par.token = true) ∧ (s.par.taking = none) ∧ (s.par.since + 25000 ≤ s.up
      + dt) ∧ (s.saf.run = .standby))
      (pairSt .standby { role := .standby, token := true, wasSync := true, take := some (tk 0 none true) }) 5 (tk 0 none true) := by decide +kernel

/-- A witness of clause 1 of ThePairJoinsMirrorsAndHandsOver. -/
theorem meets_ThePairJoinsMirrorsAndHandsOver_1 :
    (fun (s : State) (_dt _mib : Nat) (p : PartnerFacts) =>
      (s.par.role = .standby) ∧ (s.par.mirror = .alone ∨ s.par.mirror = .outOfSync) ∧ ((s.meet p).partnerBad = none))
      (pairSt .standby { role := .standby }) 5 40 { unit := 1, role := 1 } := by decide +kernel

/-- A witness of clause 2 of ThePairJoinsMirrorsAndHandsOver. -/
theorem meets_ThePairJoinsMirrorsAndHandsOver_2 :
    (fun (s : State) (_dt _mib : Nat) (p : PartnerFacts) =>
      (s.par.role = .active) ∧ (s.par.mirror = .alone ∨ s.par.mirror = .outOfSync) ∧ ((s.meet p).partnerBad = none))
      (pairSt .run { role := .active, token := true }) 5 40 { unit := 1, role := 2 } := by decide +kernel

/-- A witness of clause 3 of ThePairJoinsMirrorsAndHandsOver. -/
theorem meets_ThePairJoinsMirrorsAndHandsOver_3 :
    (fun (s : State) (_dt _mib h u code : Nat) (p : PartnerFacts) (l : Live) =>
      (s.Settled) ∧ (s.par.role ≠ .none) ∧ (s.par.mirror = .alone) ∧ ((s.meet p).partnerBad = some code) ∧ (s.par.join = some
      (h, u)) ∧ (s.Waits h l))
      { host 0xC0 [] with par := { role := .active, token := true, join := some (7, 0) } } 5 40 7 0 0x0D04 { unit := 1, role := 1 } (lv 0xC0 []) := by decide +kernel

/-- A witness of clause 4 of ThePairJoinsMirrorsAndHandsOver. -/
theorem meets_ThePairJoinsMirrorsAndHandsOver_4 :
    (fun (s : State) (_dt : Nat) =>
      (s.Settled) ∧ (s.par.mirror = .joining) ∧ (s.par.role = .active → s.par.bulk = 2) ∧ (s.par.join = none))
      (pairSt .run { role := .active, mirror := .joining, bulk := 2 }) 5 := by decide +kernel

/-- A witness of clause 5 of ThePairJoinsMirrorsAndHandsOver. -/
theorem meets_ThePairJoinsMirrorsAndHandsOver_5 :
    (fun (s : State) (_dt _lag : Nat) (_p : PartnerFacts) (_d : MirrorDelta) (h u : Nat) (l : Live) =>
      (s.par.mirror = .joining) ∧ (s.par.bulkDone = true) ∧ (s.par.role = .active) ∧ (s.par.join = some (h, u)) ∧ (s.Waits h l))
      { host 0xC0 [] with par := { role := .active, mirror := .joining, bulkDone := true, join := some (7, 0) } } 5 3 {} {} 7 0 (lv 0xC0 []) := by decide +kernel

/-- A witness of clause 6 of ThePairJoinsMirrorsAndHandsOver. -/
theorem meets_ThePairJoinsMirrorsAndHandsOver_6 :
    (fun (s : State) (_dt _lag v i n : Nat) (_p : PartnerFacts) (d : MirrorDelta) (g : Option Graph) (x : Lease) =>
      (s.par.mirror = .sync) ∧ (s.par.role = .standby) ∧ (d.regs = []) ∧ (d.graph = some (v, g)) ∧ (d.leases = [(i, x)]) ∧
      (d.resv = none) ∧ (d.fcnt = some n))
      (pairSt .standby { role := .standby, mirror := .sync, linkUp := true }) 5 3 3 2 0x700000 {} ({ graph := some (3, none), fcnt := some 0x700000, leases := [(2, { st := .active, epoch := 5 })] }) none { st := .active, epoch := 5 } := by decide +kernel

/-- A witness of clause 7 of ThePairJoinsMirrorsAndHandsOver. -/
theorem meets_ThePairJoinsMirrorsAndHandsOver_7 :
    (fun (s : State) (_dt _lag : Nat) (_p : PartnerFacts) (_d : MirrorDelta) =>
      (s.par.mirror = .joining ∨ s.par.mirror = .sync))
      (pairSt .standby { role := .standby, mirror := .sync, linkUp := true }) 5 3 {} {} := by decide +kernel

/-- A witness of clause 8 of ThePairJoinsMirrorsAndHandsOver. -/
theorem meets_ThePairJoinsMirrorsAndHandsOver_8 :
    (fun (s : State) (b : NT) =>
      (s.Settled) ∧ (s.par.role = .active) ∧ (s.saf.run = .run ∨ s.saf.run = .fleetStop) ∧ (onSlotframe b = true))
      (pairSt .run { role := .active, token := true }) 0x1_8000_0000 := by decide +kernel

/-- A witness of clause 9 of ThePairJoinsMirrorsAndHandsOver. -/
theorem meets_ThePairJoinsMirrorsAndHandsOver_9 :
    (fun (s : State) (b : NT) (l : Live) =>
      (s.par.hand = some b) ∧ (s.hif.live = [l]) ∧ (l.orphan = false) ∧ (s.saf.run ≠ .standby))
      { host 0x80 [] with par := { role := .active, token := true, mirror := .sync, linkUp := true, hand := some 0x1_8000_0000 } } 0x1_8000_0000 (lv 0x80 []) := by decide +kernel

/-- A witness of clause 10 of ThePairJoinsMirrorsAndHandsOver. -/
theorem meets_ThePairJoinsMirrorsAndHandsOver_10 :
    (fun (s : State) (h : Nat) (l : Live) =>
      (s.Settled) ∧ (s.Runs h 0xC0 l) ∧ (l.p 0 1 = 1) ∧ (s.par.role = .none) ∧ (s.saf.run = .run ∨ s.saf.run = .fleetStop) ∧
      (s.par.linkUp = false) ∧ (s.par.join = none))
      (host 0xC0 [1]) 7 (lv 0xC0 [1]) := by decide +kernel

/-- A witness of clause 11 of ThePairJoinsMirrorsAndHandsOver. -/
theorem meets_ThePairJoinsMirrorsAndHandsOver_11 :
    (fun (s : State) (h : Nat) (l : Live) =>
      (s.Runs h 0xC0 l) ∧ (l.p 0 1 ≠ 1) ∧ (s.par.role = .none) ∧ (s.saf.run = .fleetStop) ∧ (s.txu.leases = []) ∧ (s.par.linkUp
      = false) ∧ (s.par.join = none))
      { host 0xC0 [2] with saf := { base.saf with run := .fleetStop } } 7 (lv 0xC0 [2]) := by decide +kernel

/-- A witness of clause 12 of ThePairJoinsMirrorsAndHandsOver. -/
theorem meets_ThePairJoinsMirrorsAndHandsOver_12 :
    (fun (s : State) (h : Nat) (l : Live) =>
      (s.Settled) ∧ (s.Runs h 0xC0 l) ∧ (l.p 0 1 ≠ 1) ∧ (s.par.role = .none ∨ s.par.role = .active) ∧ (s.saf.run ≠ .fleetStop))
      (host 0xC0 [2]) 7 (lv 0xC0 [2]) := by decide +kernel

/-- A witness of clause 13 of ThePairJoinsMirrorsAndHandsOver. -/
theorem meets_ThePairJoinsMirrorsAndHandsOver_13 :
    (fun (s : State) (h : Nat) (l : Live) =>
      (s.Settled) ∧ (s.Runs h 0xC1 l) ∧ (s.saf.run = .standby) ∧ (s.par.take = none) ∧ ((l.p 0 1 = 1 ∧ s.par.mirror = .sync ∧
      s.timeReady = true) ∨ (l.p 0 1 ≠ 1 ∧ s.par.tokenIn = false)))
      { host 0xC1 [2] with saf := { base.saf with run := .standby } } 7 (lv 0xC1 [2]) := by decide +kernel

/-- A witness of clause 14 of ThePairJoinsMirrorsAndHandsOver. -/
theorem meets_ThePairJoinsMirrorsAndHandsOver_14 :
    (fun (s : State) (h : Nat) (l : Live) =>
      (s.Settled) ∧ (s.Runs h 0xC1 l) ∧ (s.saf.run ≠ .standby ∨ s.par.take = none))
      (host 0xC1 [2]) 7 (lv 0xC1 [2]) := by decide +kernel

/-- A witness of clause 1 of TheDramIsScrubbedAndItsRanksRetire. -/
theorem meets_TheDramIsScrubbedAndItsRanksRetire_1 :
    (fun (s : State) (_dt : Nat) =>
      (s.Settled))
      base 5 := by decide +kernel

/-- A witness of clause 2 of TheDramIsScrubbedAndItsRanksRetire. -/
theorem meets_TheDramIsScrubbedAndItsRanksRetire_2 :
    (fun (s : State) (dt : Nat) =>
      (s.mem.patrol = true) ∧ (s.mem.late = false) ∧ (s.mem.patrolAt + 4500 * s.fld (0x3018, 0, 8) * cycHz ≤ s.up + dt))
      { base with mem := { patrol := true } } 27000000000000 := by decide +kernel

/-- A witness of clause 3 of TheDramIsScrubbedAndItsRanksRetire. -/
theorem meets_TheDramIsScrubbedAndItsRanksRetire_3 :
    (fun (s : State) (dt r n : Nat) =>
      (r < 2) ∧ ((s.rank r).present = true) ∧ (n = satInc 16 (if (s.rank r).hour = (s.up + dt) / cycHz / 3600 then (s.rank r).ce
      else 0)) ∧ (n ≠ s.fld (0x3018, 8, 8)))
      { rings base with mem := { rank0 := { present := true, blocks := 28, used := 4 }, rank1 := { present := true, blocks := 28, used := 4 } } } 5 1 1 := by decide +kernel

/-- A witness of clause 4 of TheDramIsScrubbedAndItsRanksRetire. -/
theorem meets_TheDramIsScrubbedAndItsRanksRetire_4 :
    (fun (s : State) (dt r n : Nat) =>
      (r < 2) ∧ ((s.rank r).present = true) ∧ (n = satInc 16 (if (s.rank r).hour = (s.up + dt) / cycHz / 3600 then (s.rank r).ce
      else 0)) ∧ (n = s.fld (0x3018, 8, 8)) ∧ (s.flag (0x3018, 16, 1) = true) ∧ ((s.rank r).retired = false) ∧ ((s.rank
      r).migrating = false) ∧ ((s.rank (1 - r)).present = true) ∧ ((s.rank (1 - r)).retired = false) ∧ ((s.rank (1 -
      r)).migrating = false) ∧ ((s.rank (1 - r)).used + (s.rank r).used ≤ (s.rank (1 - r)).blocks))
      (fl (fl ({ rings base with mem := { rank0 := { present := true, blocks := 28, used := 4 }, rank1 := { present := true, blocks := 28, used := 4 } } }) (0x3018, 8, 8) 1) (0x3018, 16, 1) 1) 5 1 1 := by decide +kernel

/-- A witness of clause 5 of TheDramIsScrubbedAndItsRanksRetire. -/
theorem meets_TheDramIsScrubbedAndItsRanksRetire_5 :
    (fun (s : State) (_dt r _addr : Nat) =>
      (r < 2) ∧ ((s.rank r).present = true) ∧ (s.flag (0x3018, 16, 1) = false) ∧ (s.mem.scrub = false) ∧ (s.mem.scrubWait =
      false))
      (fl ({ rings base with mem := { rank0 := { present := true, blocks := 28, used := 4 }, rank1 := { present := true, blocks := 28, used := 4 } } }) (0x3018, 16, 1) 0) 5 1 0x1234 := by decide +kernel

/-- A witness of clause 6 of TheDramIsScrubbedAndItsRanksRetire. -/
theorem meets_TheDramIsScrubbedAndItsRanksRetire_6 :
    (fun (s : State) (_dt r : Nat) =>
      (r < 2) ∧ ((s.rank r).migrating = true) ∧ (s.asksLeave (.migrate r) = false) ∧ (s.Room (s.evtCq 0x0301)))
      { rings base with mem := { rank0 := { present := true, blocks := 28, used := 4 }, rank1 := { present := true, blocks := 28, used := 4, migrating := true, cause := 2 } } } 5 1 := by decide +kernel

/-- A witness of clause 7 of TheDramIsScrubbedAndItsRanksRetire. -/
theorem meets_TheDramIsScrubbedAndItsRanksRetire_7 :
    (fun (s : State) (_dt _corrected : Nat) =>
      (s.Settled) ∧ (s.mem.scrub = true) ∧ (s.Room (s.evtCq 0x0302)))
      { rings base with mem := { scrub := true } } 5 12 := by decide +kernel

/-- A witness of clause 1 of FramesGoOutAndComeIn. -/
theorem meets_FramesGoOutAndComeIn_1 :
    (fun (s : State) (b : StopBurst) (n k rep : Nat) =>
      (s.Settled) ∧ (s.saf.burst = some b) ∧ (b.lanes = [(n, k, rep)]) ∧ ((s.lane n).st = .inService) ∧ ((s.tickTo (BitVec.ofNat
      64 (slotStart k + usTicks 40))).holdsToken = true))
      { macSt base {} with saf := { base.saf with burst := some { cause := 1, at_ := 0x1_0000_0000, lanes := [(0, 2002, 2)] } } } { cause := 1, at_ := 0x1_0000_0000, lanes := [(0, 2002, 2)] } 0 2002 2 := by decide +kernel

/-- A witness of clause 2 of FramesGoOutAndComeIn. -/
theorem meets_FramesGoOutAndComeIn_2 :
    (fun (s : State) (n k h : Nat) (f : TxFrame) (l : Live) =>
      (s.Settled) ∧ ((s.lane n).st = .inService) ∧ (s.beaconing = true) ∧ (s.holdsToken = true) ∧ (s.mac.txq = [f]) ∧ (f.lane =
      n) ∧ (f.handle = some h) ∧ (s.nextSend n = some (k, f)) ∧ (f.batch = []) ∧ (f.type_ = 12) ∧ (s.Waits h l))
      (macSt (host 0x70 []) { txq := [txf] }) 0 2003 7 txf (lv 0x70 []) := by decide +kernel

/-- A witness of clause 3 of FramesGoOutAndComeIn. -/
theorem meets_FramesGoOutAndComeIn_3 :
    (fun (s : State) (n k h : Nat) (f : TxFrame) =>
      (s.Settled) ∧ ((s.lane n).st = .inService) ∧ (s.beaconing = true) ∧ (s.holdsToken = true) ∧ (s.mac.txq = [f]) ∧ (f.lane =
      n) ∧ (f.handle = some h) ∧ (s.nextSend n = some (k, f)) ∧ (f.batch = []) ∧ (f.type_ = 12) ∧ (f.dst ≠ 0xFFFF) ∧ (f.tries <
      s.fld (0xD014, 0, 2)))
      (macSt (host 0x70 []) { txq := [txf] }) 0 2003 7 txf := by decide +kernel

/-- A witness of clause 4 of FramesGoOutAndComeIn. -/
theorem meets_FramesGoOutAndComeIn_4 :
    (fun (s : State) (n k h : Nat) (f : TxFrame) =>
      ((s.lane n).st = .inService) ∧ (s.beaconing = true) ∧ (s.holdsToken = true) ∧ (s.mac.txq = [f]) ∧ (f.lane = n) ∧ (f.handle
      = some h) ∧ (s.nextSend n = some (k, f)) ∧ (f.batch = []) ∧ (f.type_ = 12) ∧ ((s.lane n).noSfd = 2))
      { macSt (host 0x70 []) {} with mac := { lanes := [(0, { st := .inService, startSf := some 1, noSfd := 2 })], routes := [rt0], txq := [txf] } } 0 2003 7 txf := by decide +kernel

/-- A witness of clause 5 of FramesGoOutAndComeIn. -/
theorem meets_FramesGoOutAndComeIn_5 :
    (fun (s : State) (_dt n len _age : Nat) (b f : List Byte) =>
      (s.Settled) ∧ ((s.lane n).st = .inService) ∧ (s.saf.run ≠ .boot) ∧ (s.saf.run ≠ .off) ∧ (4 ≤ len) ∧ (len ≤ 511) ∧ (f =
      slice b 0 len) ∧ (fcs32 (f.take (len - 4)) ≠ leAt f (len - 4) 4))
      (macSt base {}) 5 0 80 9 (air 3 68) (slice (air 3 68) 0 80) := by decide +kernel

/-- A witness of clause 6 of FramesGoOutAndComeIn. -/
theorem meets_FramesGoOutAndComeIn_6 :
    (fun (s : State) (_dt n len _age : Nat) (b f : List Byte) =>
      (s.Settled) ∧ ((s.lane n).st = .inService) ∧ (s.saf.run ≠ .boot) ∧ (s.saf.run ≠ .off) ∧ (4 ≤ len) ∧ (len ≤ 511) ∧ (f =
      slice b 0 len) ∧ (fcs32 (f.take (len - 4)) = leAt f (len - 4) 4) ∧ (frameOk len f = false))
      (macSt base {}) 5 0 34 9 (onAir (List.replicate 30 0)) (slice (onAir (List.replicate 30 0)) 0 34) := by decide +kernel

/-- A witness of clause 7 of FramesGoOutAndComeIn. -/
theorem meets_FramesGoOutAndComeIn_7 :
    (fun (s : State) (_dt n len _age : Nat) (b f c : List Byte) =>
      (s.Settled) ∧ ((s.lane n).st = .inService) ∧ (s.saf.run ≠ .boot) ∧ (s.saf.run ≠ .off) ∧ (4 ≤ len) ∧ (len ≤ 511) ∧ (f =
      slice b 0 len) ∧ (fcs32 (f.take (len - 4)) = leAt f (len - 4) 4) ∧ (frameOk len f = true) ∧ (frType f = 3) ∧ (frSrc f ≠ 1)
      ∧ (frSrc f ≠ 2) ∧ (s.openFrame f = some c) ∧ ((s.routeTo (frSrc f)).isSome = true) ∧ (s.saf.run ≠ .standby))
      (macSt base {}) 5 0 80 9 (onAir (sealed (macSt base {}) (air 3 46))) (slice (onAir (sealed (macSt base {}) (air 3 46))) 0 80) (air 3 46) := by decide +kernel

/-- A witness of clause 8 of FramesGoOutAndComeIn. -/
theorem meets_FramesGoOutAndComeIn_8 :
    (fun (s : State) (_dt n len _age : Nat) (b f : List Byte) =>
      ((s.lane n).st = .inService) ∧ (s.saf.run ≠ .boot) ∧ (s.saf.run ≠ .off) ∧ (4 ≤ len) ∧ (len ≤ 511) ∧ (f = slice b 0 len) ∧
      (fcs32 (f.take (len - 4)) = leAt f (len - 4) 4) ∧ (frameOk len f = true) ∧ (frType f = 3) ∧ (frSrc f ≠ 1) ∧ (frSrc f ≠ 2)
      ∧ (s.openFrame f = none))
      (macSt base {}) 5 0 80 9 (onAir (air 3 46 ++ leBytes 0 8)) (slice (onAir (air 3 46 ++ leBytes 0 8)) 0 80) := by decide +kernel

/-- A witness of clause 9 of FramesGoOutAndComeIn. -/
theorem meets_FramesGoOutAndComeIn_9 :
    (fun (s : State) (_dt n len _age : Nat) (b f c : List Byte) =>
      ((s.lane n).st = .inService) ∧ (s.saf.run ≠ .boot) ∧ (s.saf.run ≠ .off) ∧ (4 ≤ len) ∧ (len ≤ 511) ∧ (f = slice b 0 len) ∧
      (fcs32 (f.take (len - 4)) = leAt f (len - 4) 4) ∧ (frameOk len f = true) ∧ (frType f = 3) ∧ (frSrc f ≠ 1) ∧ (frSrc f ≠ 2)
      ∧ (s.openFrame f = some c) ∧ (s.routeTo (frSrc f) = none))
      { macSt base {} with mac := { lanes := [(0, { st := .inService, startSf := some 1 })] } } 5 0 80 9 (onAir (sealed (macSt base {}) (air 3 46))) (slice (onAir (sealed (macSt base {}) (air 3 46))) 0 80) (air 3 46) := by decide +kernel

/-- A witness of clause 10 of FramesGoOutAndComeIn. -/
theorem meets_FramesGoOutAndComeIn_10 :
    (fun (s : State) (_dt n len _age : Nat) (_b : List Byte) =>
      ((s.lane n).st = .inService) ∧ (s.saf.run ≠ .boot) ∧ (s.saf.run ≠ .off) ∧ (len < 4 ∨ 511 < len) ∧ ((s.lane n).badRd = 2))
      { macSt base {} with mac := { lanes := [(0, { st := .inService, startSf := some 1, badRd := 2 })] } } 5 0 600 9 [] := by decide +kernel

/-- A witness of clause 11 of FramesGoOutAndComeIn. -/
theorem meets_FramesGoOutAndComeIn_11 :
    (fun (s : State) (_dt : Nat) (m : RxItem) =>
      (s.Settled) ∧ (s.mac.inbox = [m]) ∧ (m.q = 28) ∧ (frType m.frame = 12) ∧ (s.flag (0x2038, 31, 1) = true))
      (rg (macSt base { inbox := [obsItem 28 12] }) 0x2038 0x80000008) 5 (obsItem 28 12) := by decide +kernel

/-- A witness of clause 12 of FramesGoOutAndComeIn. -/
theorem meets_FramesGoOutAndComeIn_12 :
    (fun (s : State) (_dt : Nat) (m : RxItem) =>
      (s.Settled) ∧ (s.mac.inbox = [m]) ∧ (m.q = 28) ∧ (frType m.frame = 12) ∧ (s.flag (0x2038, 31, 1) = false))
      (macSt base { inbox := [obsItem 28 12] }) 5 (obsItem 28 12) := by decide +kernel

/-- A witness of clause 13 of FramesGoOutAndComeIn. -/
theorem meets_FramesGoOutAndComeIn_13 :
    (fun (s : State) (_dt k w : Nat) (_v : Reg) =>
      (s.Settled) ∧ (k < 16) ∧ (w < 4))
      (macSt base {}) 5 3 2 0x1234 := by decide +kernel

/-- A witness of clause 1 of TheHostSendsFramesAndSetsRoutes. -/
theorem meets_TheHostSendsFramesAndSetsRoutes_1 :
    (fun (s : State) (h : Nat) (l : Live) (_b : List Byte) (r : RouteEnt) =>
      (s.Settled) ∧ (s.Runs h 0x70 l) ∧ (10 ≤ l.p 0 4) ∧ (l.p 0 4 ≤ 600000) ∧ (l.p 6 1 = 12) ∧ (l.len ≤ 352) ∧ (s.beaconing =
      true) ∧ (l.p 4 2 ≠ 0xFFFF) ∧ (s.routeTo (l.p 4 2) = some r))
      ({ macSt (rings base) {} with hif := { (rings base).hif with live := [{ lv 0x70 (leBytes 1000 4 ++ leBytes 0x1000 2 ++ [12]) with entry := leBytes 0x70 16 ++ leBytes 8 8 ++ slice (leBytes 1000 4 ++ leBytes 0x1000 2 ++ [12]) 0 40 }] } }) 7 { lv 0x70 (leBytes 1000 4 ++ leBytes 0x1000 2 ++ [12]) with entry := leBytes 0x70 16 ++ leBytes 8 8 ++ slice (leBytes 1000 4 ++ leBytes 0x1000 2 ++ [12]) 0 40 } [1, 2, 3, 4, 5, 6, 7, 8] rt0 := by decide +kernel

/-- A witness of clause 2 of TheHostSendsFramesAndSetsRoutes. -/
theorem meets_TheHostSendsFramesAndSetsRoutes_2 :
    (fun (s : State) (h i : Nat) (l : Live) (r : RouteEnt) =>
      (s.Settled) ∧ (s.Runs h 0x70 l) ∧ (10 ≤ l.p 0 4) ∧ (l.p 0 4 ≤ 600000) ∧ (l.p 6 1 = 1) ∧ (s.robotOf (l.p 4 2) = some i) ∧
      (s.routeTo (l.p 4 2) = some r))
      ({ macSt (rings base) {} with hif := { (rings base).hif with live := [{ lv 0x70 (leBytes 1000 4 ++ leBytes 0x1000 2 ++ [1]) with entry := leBytes 0x70 16 ++ leBytes 0 8 ++ slice (leBytes 1000 4 ++ leBytes 0x1000 2 ++ [1]) 0 40 }] } }) 7 0 { lv 0x70 (leBytes 1000 4 ++ leBytes 0x1000 2 ++ [1]) with entry := leBytes 0x70 16 ++ leBytes 0 8 ++ slice (leBytes 1000 4 ++ leBytes 0x1000 2 ++ [1]) 0 40 } rt0 := by decide +kernel

/-- A witness of clause 3 of TheHostSendsFramesAndSetsRoutes. -/
theorem meets_TheHostSendsFramesAndSetsRoutes_3 :
    (fun (s : State) (h : Nat) (l : Live) (_b : List Byte) =>
      (s.Settled) ∧ (s.Runs h 0x70 l) ∧ (10 ≤ l.p 0 4) ∧ (l.p 0 4 ≤ 600000) ∧ (l.p 6 1 = 12) ∧ (l.len ≤ 352) ∧ (s.beaconing =
      true) ∧ (l.p 4 2 ≠ 0xFFFF) ∧ (s.routeTo (l.p 4 2) = none))
      { ({ macSt (rings base) {} with hif := { (rings base).hif with live := [{ lv 0x70 (leBytes 1000 4 ++ leBytes 0x1000 2 ++ [12]) with entry := leBytes 0x70 16 ++ leBytes 8 8 ++ slice (leBytes 1000 4 ++ leBytes 0x1000 2 ++ [12]) 0 40 }] } } : State) with mac := {} } 7 { lv 0x70 (leBytes 1000 4 ++ leBytes 0x1000 2 ++ [12]) with entry := leBytes 0x70 16 ++ leBytes 8 8 ++ slice (leBytes 1000 4 ++ leBytes 0x1000 2 ++ [12]) 0 40 } [] := by decide +kernel

/-- A witness of clause 4 of TheHostSendsFramesAndSetsRoutes. -/
theorem meets_TheHostSendsFramesAndSetsRoutes_4 :
    (fun (s : State) (h i : Nat) (l : Live) =>
      (s.Settled) ∧ (s.Runs h 0x70 l) ∧ (10 ≤ l.p 0 4) ∧ (l.p 0 4 ≤ 600000) ∧ (l.p 6 1 = 1) ∧ (s.robotOf (l.p 4 2) = some i) ∧
      (s.routeTo (l.p 4 2) = none))
      { ({ macSt (rings base) {} with hif := { (rings base).hif with live := [{ lv 0x70 (leBytes 1000 4 ++ leBytes 0x1000 2 ++ [1]) with entry := leBytes 0x70 16 ++ leBytes 0 8 ++ slice (leBytes 1000 4 ++ leBytes 0x1000 2 ++ [1]) 0 40 }] } } : State) with mac := {} } 7 0 { lv 0x70 (leBytes 1000 4 ++ leBytes 0x1000 2 ++ [1]) with entry := leBytes 0x70 16 ++ leBytes 0 8 ++ slice (leBytes 1000 4 ++ leBytes 0x1000 2 ++ [1]) 0 40 } := by decide +kernel

/-- A witness of clause 5 of TheHostSendsFramesAndSetsRoutes. -/
theorem meets_TheHostSendsFramesAndSetsRoutes_5 :
    (fun (s : State) (h : Nat) (u : NT) (l : Live) =>
      (s.Settled) ∧ (s.mac.sends = [(h, u)]) ∧ (s.Waits h l))
      (macSt (host 0x70 []) { txq := [txf], sends := [(7, 0x1_1000_0000)] }) 7 0x1_1000_0000 (lv 0x70 []) := by decide +kernel

/-- A witness of clause 6 of TheHostSendsFramesAndSetsRoutes. -/
theorem meets_TheHostSendsFramesAndSetsRoutes_6 :
    (fun (s : State) (h : Nat) (l : Live) (b : List Byte) (rs : List RouteEnt) =>
      (s.Settled) ∧ (s.Runs h 0x71 l) ∧ (l.p 0 1 = 1) ∧ (l.p 2 2 ≤ 512) ∧ (l.len = 32 * l.p 2 2) ∧ (s.parseRoutes b (l.p 2 2) =
      some rs))
      ({ macSt (rings base) {} with hif := { (rings base).hif with live := [{ lv 0x71 [1, 0, 1, 0] with entry := leBytes 0x71 16 ++ leBytes 32 8 ++ slice [1, 0, 1, 0] 0 40 }] } }) 7 { lv 0x71 [1, 0, 1, 0] with entry := leBytes 0x71 16 ++ leBytes 32 8 ++ slice [1, 0, 1, 0] 0 40 } (leBytes 0x1000 2 ++ [1, 0] ++ leBytes 0 12 ++ leBytes 0x1000 2 ++ [255, 6] ++ leBytes 0 12) [rt0] := by decide +kernel

/-- A witness of clause 7 of TheHostSendsFramesAndSetsRoutes. -/
theorem meets_TheHostSendsFramesAndSetsRoutes_7 :
    (fun (s : State) (h : Nat) (l : Live) (b : List Byte) (rs : List RouteEnt) =>
      (s.Settled) ∧ (s.Runs h 0x71 l) ∧ (l.p 0 1 = 3) ∧ (l.p 2 2 ≤ 512) ∧ (l.len = 32 * l.p 2 2) ∧ (((List.range (l.p 2 2)).map
      fun k => leAt b (32 * k) 2).mapM (fun d => s.routeTo d) = some rs))
      ({ macSt (rings base) {} with hif := { (rings base).hif with live := [{ lv 0x71 [3, 0, 1, 0] with entry := leBytes 0x71 16 ++ leBytes 32 8 ++ slice [3, 0, 1, 0] 0 40 }] } }) 7 { lv 0x71 [3, 0, 1, 0] with entry := leBytes 0x71 16 ++ leBytes 32 8 ++ slice [3, 0, 1, 0] 0 40 } (leBytes 0x1000 2 ++ [1, 0] ++ leBytes 0 12 ++ leBytes 0x1000 2 ++ [255, 6] ++ leBytes 0 12) [rt0] := by decide +kernel

/-- A witness of clause 8 of TheHostSendsFramesAndSetsRoutes. -/
theorem meets_TheHostSendsFramesAndSetsRoutes_8 :
    (fun (s : State) (c : RouteChange) (l : Live) =>
      (s.Settled) ∧ (s.mac.changes = [c]) ∧ (c.applied = false) ∧ (c.retire = none) ∧ (s.Waits c.handle l))
      (macSt (host 0x71 []) { changes := [{ handle := 7, sets := [rt0], dels := [0x1004], applyAt := 0x1_2000_0000, cfgVer := 4, waiting := [0x2003] }] }) ({ handle := 7, sets := [rt0], dels := [0x1004], applyAt := 0x1_2000_0000, cfgVer := 4, waiting := [0x2003] }) (lv 0x71 []) := by decide +kernel

/-- A witness of clause 9 of TheHostSendsFramesAndSetsRoutes. -/
theorem meets_TheHostSendsFramesAndSetsRoutes_9 :
    (fun (s : State) (c : RouteChange) (n : Nat) (force : Bool) (l : Live) =>
      (s.mac.changes = [c]) ∧ (c.applied = true) ∧ (c.retire = some (n, force)) ∧ (force = true ∨ s.keepLane c = []) ∧ (s.Waits
      c.handle l))
      (macSt (host 0x72 []) { changes := [{ handle := 7, sets := [rt0], dels := [0x1004], applyAt := 0x1_2000_0000, cfgVer := 4, waiting := [0x2003], retire := some (0, true), applied := true }] }) ({ handle := 7, sets := [rt0], dels := [0x1004], applyAt := 0x1_2000_0000, cfgVer := 4, waiting := [0x2003], retire := some (0, true), applied := true }) 0 true (lv 0x72 []) := by decide +kernel

/-- A witness of clause 10 of TheHostSendsFramesAndSetsRoutes. -/
theorem meets_TheHostSendsFramesAndSetsRoutes_10 :
    (fun (s : State) (h n : Nat) (l : Live) =>
      (s.Settled) ∧ (s.Runs h 0x72 l) ∧ (l.p 0 1 = n) ∧ (l.p 1 1 = 2) ∧ (l.p 2 1 ≤ 1) ∧ (l.p 4 2 = 0))
      { host 0x72 [2, 2] with mac := { lanes := [(2, { st := .retired })] } } 7 2 (lv 0x72 [2, 2]) := by decide +kernel

/-- A witness of clause 11 of TheHostSendsFramesAndSetsRoutes. -/
theorem meets_TheHostSendsFramesAndSetsRoutes_11 :
    (fun (s : State) (h n : Nat) (l : Live) =>
      (s.Settled) ∧ (s.Runs h 0x72 l) ∧ (l.p 0 1 = n) ∧ (l.p 1 1 = 1) ∧ (l.p 2 1 ≤ 1) ∧ (l.p 4 2 = 0) ∧ (l.len = 0) ∧ ((s.lane
      n).st = .inService) ∧ ((s.lane n).moving = false) ∧ (s.mac.routes.all (fun r => r.lane != n) = true))
      { host 0x72 [2, 1] with mac := { lanes := [(2, { st := .inService })] } } 7 2 (lv 0x72 [2, 1]) := by decide +kernel

/-- A witness of clause 1 of LeasesAgeAtSlotBoundaries. -/
theorem meets_LeasesAgeAtSlotBoundaries_1 :
    (fun (s : State) (i : Nat) (l : Lease) =>
      (s.txu.leases = [(i, l)]) ∧ (l.st = .active) ∧ (s.par.linkUp = false) ∧ (s.snp.demand = []) ∧ (ntSince (s.tickTo
      (s.nextDue nextSlot s.saf.slotAt)).nt (s.lastHeard i) ≤ msTicks (300 * l.tRep)) ∧ (ntSince (s.tickTo (s.nextDue nextSlot
      s.saf.slotAt)).nt (s.lastHeard i) ≤ msTicks (10 * s.fld (0x9010, 0, 12))) ∧ ((Tab.get (fun _ => {}) s.saf.mirror i).st ≠
      4))
      ({ leaseSt (rings base) (ls .active) with trl := { graph := some graph1, ver := 1, resv := [rv .spec, rv .firm] } }) 0 (ls .active) := by decide +kernel

/-- A witness of clause 2 of LeasesAgeAtSlotBoundaries. -/
theorem meets_LeasesAgeAtSlotBoundaries_2 :
    (fun (s : State) (i : Nat) (l : Lease) (m : MirrorLease) =>
      (s.txu.leases = [(i, l)]) ∧ (l.st = .active) ∧ (Tab.get (fun _ => {}) s.saf.mirror i = m) ∧ (m.st = 4) ∧ (m.epoch =
      l.epoch) ∧ (s.saf.disagree = 2))
      { leaseSt base (ls .active) with saf := { base.saf with mirror := [(0, { st := 4, epoch := 3 })], disagree := 2 } } 0 (ls .active) { st := 4, epoch := 3 } := by decide +kernel

/-- A witness of clause 3 of LeasesAgeAtSlotBoundaries. -/
theorem meets_LeasesAgeAtSlotBoundaries_3 :
    (fun (s : State) (i : Nat) =>
      ((s.lease i).st = .active))
      ({ leaseSt (rings base) (ls .active) with trl := { graph := some graph1, ver := 1, resv := [rv .spec, rv .firm] } }) 0 := by decide +kernel

/-- A witness of clause 4 of LeasesAgeAtSlotBoundaries. -/
theorem meets_LeasesAgeAtSlotBoundaries_4 :
    (fun (s : State) (i : Nat) =>
      ((s.lease i).st = .active ∨ (s.lease i).st = .suspect))
      ({ leaseSt (rings base) (ls .suspect) with trl := { graph := some graph1, ver := 1, resv := [rv .spec, rv .firm] } }) 0 := by decide +kernel

/-- A witness of clause 5 of LeasesAgeAtSlotBoundaries. -/
theorem meets_LeasesAgeAtSlotBoundaries_5 :
    (fun (s : State) (i : Nat) =>
      ((s.lease i).st = .dead ∨ ((s.lease i).st = .zombie ∧ (s.lease i).from_ = .dead)) ∧ ((s.lease i).stopped = false))
      ({ leaseSt (rings base) (ls .dead) with trl := { graph := some graph1, ver := 1, resv := [rv .spec, rv .firm] } }) 0 := by decide +kernel

/-- A witness of clause 6 of LeasesAgeAtSlotBoundaries. -/
theorem meets_LeasesAgeAtSlotBoundaries_6 :
    (fun (s : State) (i h : Nat) (c : Live) =>
      ((s.lease i).st = .admitting) ∧ ((s.lease i).handle = some h) ∧ (s.Waits h c))
      (leaseSt (host 0x73 []) { ls .admitting with handle := some 7 }) 0 7 (lv 0x73 []) := by decide +kernel

/-- A witness of clause 7 of LeasesAgeAtSlotBoundaries. -/
theorem meets_LeasesAgeAtSlotBoundaries_7 :
    (fun (s : State) (i : Nat) =>
      (s.Settled) ∧ ((s.lease i).st = .zombie))
      (leaseSt base { ls .zombie with from_ := .dead }) 0 := by decide +kernel

/-- A witness of clause 8 of LeasesAgeAtSlotBoundaries. -/
theorem meets_LeasesAgeAtSlotBoundaries_8 :
    (fun (s : State) (i : Nat) (r : RouteEnt) =>
      (s.Settled) ∧ ((s.lease i).st = .admitting) ∧ ((s.lease i).reported = false) ∧ (s.routeTo (robotAddr i) = some r))
      (leaseSt base (ls .admitting)) 0 rt0 := by decide +kernel

/-- A witness of clause 9 of LeasesAgeAtSlotBoundaries. -/
theorem meets_LeasesAgeAtSlotBoundaries_9 :
    (fun (s : State) (i : Nat) (r : RouteEnt) =>
      (s.Settled) ∧ ((s.lease i).st = .active ∨ (s.lease i).st = .suspect) ∧ ((s.lease i).confirmed = false) ∧ (s.routeTo
      (robotAddr i) = some r))
      (leaseSt base (ls .active)) 0 rt0 := by decide +kernel

/-- A witness of clause 1 of RobotsAreAdmittedReportAndLeave. -/
theorem meets_RobotsAreAdmittedReportAndLeave_1 :
    (fun (s : State) (h i : Nat) (l : Live) (b : List Byte) (g : Graph) (x : SegRec) (r : RouteEnt) =>
      (s.Runs h 0x73 l) ∧ (s.paused = false) ∧ (i = leAt b 8 1) ∧ (i < s.nSlots) ∧ (leAt b 9 1 < 16) ∧ (leAt b 10 1 = 1 ∨ leAt b
      10 1 = 2) ∧ (leAt b 11 1 < 16) ∧ (leAt b 12 4 < 2 ^ 20) ∧ (leAt b 16 2 ≤ leAt b 18 2) ∧ (zeros b 20 12 = true) ∧ ((s.cls
      (leAt b 9 1)).valid = true) ∧ (10 / leAt b 10 1 ≤ s.epochHz) ∧ (s.saf.run ≠ .standby) ∧ (s.saf.run ≠ .boot) ∧ (s.trl.graph
      = some g) ∧ (g.seg? (leAt b 12 4) = some x) ∧ (leAt b 18 2 ≤ x.len) ∧ ((s.lease i).st ≠ .admitting) ∧ ((s.lease i).st ≠
      .active) ∧ ((s.lease i).st ≠ .suspect) ∧ ((s.lease i).bound = true → (s.lease i).uid = leAt b 0 8) ∧ (s.ratedLoad i + 10 /
      leAt b 10 1 ≤ (if s.fuse.big then 1280 else 640)) ∧ (s.parseRoute (slice b 32 32) = some r) ∧ (r.dest = robotAddr i) ∧
      ((s.lane r.lane).st = .inService) ∧ (r.sleepy = false) ∧ (s.routesBreak (setRoutes s.mac.routes [r] []) r.lane = false))
      ({ leaseSt (host 0x73 []) { st := .unknown, epoch := 3 } with trl := { graph := some graph1, ver := 1 } }) 7 0 (lv 0x73 []) admB graph1 { id := 5, clear := 0, dir := 0, nodeA := 1, nodeB := 2, len := 1000, hw := 100, vlim := 2000, zone := 0, pts := [(0, 0, 0), (10000, 0, 0)] } rt0 := by decide +kernel

/-- A witness of clause 2 of RobotsAreAdmittedReportAndLeave. -/
theorem meets_RobotsAreAdmittedReportAndLeave_2 :
    (fun (s : State) (_dt : Nat) (m : RxItem) =>
      (s.Settled) ∧ (s.mac.inbox = [m]) ∧ (m.q = 28) ∧ (frType m.frame = 9) ∧ (s.Room (s.evtCq 0x0D01)))
      { robotSt with mac := { inbox := [obsItem 28 9] } } 5 (obsItem 28 9) := by decide +kernel

/-- A witness of clause 3 of RobotsAreAdmittedReportAndLeave. -/
theorem meets_RobotsAreAdmittedReportAndLeave_3 :
    (fun (s : State) (_dt : Nat) (m : RxItem) (c : RouteChange) =>
      (s.Settled) ∧ (s.mac.inbox = [m]) ∧ (m.q = 25) ∧ (frType m.frame = 9) ∧ (s.mac.changes = [c]))
      { robotSt with mac := { inbox := [obsItem 25 9], changes := [{ handle := 7, sets := [], dels := [], applyAt := 0x1_2000_0000, cfgVer := 0, waiting := [0x1000, 0x2001] }] } } 5 (obsItem 25 9) { handle := 7, sets := [], dels := [], applyAt := 0x1_2000_0000, cfgVer := 0, waiting := [0x1000, 0x2001] } := by decide +kernel

/-- A witness of clause 4 of RobotsAreAdmittedReportAndLeave. -/
theorem meets_RobotsAreAdmittedReportAndLeave_4 :
    (fun (s : State) (_dt i : Nat) (m : RxItem) =>
      (s.mac.inbox = [m]) ∧ (m.q = 25) ∧ (frType m.frame = 3) ∧ (s.robotOf (frSrc m.frame) = some i) ∧ (s.older i (frEpoch
      m.frame) = false) ∧ (s.counts i (frEpoch m.frame) = true))
      { robotSt with mac := { inbox := [obsItem 25 3] } } 5 0 (obsItem 25 3) := by decide +kernel

/-- A witness of clause 5 of RobotsAreAdmittedReportAndLeave. -/
theorem meets_RobotsAreAdmittedReportAndLeave_5 :
    (fun (s : State) (_dt i : Nat) (m : RxItem) =>
      (s.mac.inbox = [m]) ∧ (m.q = 25) ∧ (frType m.frame = 3) ∧ (s.robotOf (frSrc m.frame) = some i) ∧ (s.older i (frEpoch
      m.frame) = true) ∧ (s.flag (0x9014, 0, 1) = false) ∧ ((readReport (slice m.frame 22 46)).task = none) ∧ ((s.lease i).st ≠
      .zombie) ∧ (s.Room (s.evtCq 0x0901)))
      { fl (leaseSt (rings base) (ls .dead)) (0x9014, 0, 1) 0 with mac := { inbox := [obsItem 25 3], lanes := [(0, { st := .inService })] } } 5 0 (obsItem 25 3) := by decide +kernel

/-- A witness of clause 6 of RobotsAreAdmittedReportAndLeave. -/
theorem meets_RobotsAreAdmittedReportAndLeave_6 :
    (fun (s : State) (h i : Nat) (l : Live) (r : Report) =>
      (s.Runs h 0x74 l) ∧ (s.paused = false) ∧ (l.p 0 1 = i) ∧ (s.saf.run ≠ .standby) ∧ (s.saf.run ≠ .boot) ∧ ((s.lease i).st =
      .active) ∧ ((s.lease i).report = some r) ∧ (r.vMeas = 0) ∧ (s.holdsOffered i = false))
      (leaseSt (host 0x74 [0, 1]) { ls .active with report := some (readReport []) }) 7 0 (lv 0x74 [0, 1]) (readReport []) := by decide +kernel

/-- A witness of clause 7 of RobotsAreAdmittedReportAndLeave. -/
theorem meets_RobotsAreAdmittedReportAndLeave_7 :
    (fun (s : State) (h i : Nat) (l : Live) =>
      (s.Runs h 0x74 l) ∧ (s.paused = false) ∧ (l.p 0 1 = i) ∧ (l.p 1 1 = 0) ∧ (s.saf.run ≠ .standby) ∧ (s.saf.run ≠ .boot) ∧
      ((s.lease i).st = .dead) ∧ ((s.lease i).stopped = true))
      { leaseSt (host 0x74 [0, 0]) (ls .dead) with txu := { leases := [(0, { ls .dead with stopped := true })] } } 7 0 (lv 0x74 [0, 0]) := by decide +kernel

/-- A witness of clause 8 of RobotsAreAdmittedReportAndLeave. -/
theorem meets_RobotsAreAdmittedReportAndLeave_8 :
    (fun (s : State) (h i : Nat) (l : Live) =>
      (s.Settled) ∧ (s.Runs h 0x74 l) ∧ (s.paused = false) ∧ (l.p 0 1 = i) ∧ (s.saf.run ≠ .standby) ∧ (s.saf.run ≠ .boot) ∧
      ((s.lease i).st = .unknown ∨ (s.lease i).st = .suspect ∨ (s.lease i).st = .zombie ∨ (s.lease i).st = .active) ∧ ((s.lease
      i).st = .active → s.holdsOffered i = true))
      (leaseSt (host 0x74 [0, 1]) (ls .suspect)) 7 0 (lv 0x74 [0, 1]) := by decide +kernel

/-- A witness of clause 1 of TheTrackGraphIsLoadedPatchedAndRead. -/
theorem meets_TheTrackGraphIsLoadedPatchedAndRead_1 :
    (fun (s : State) (h : Nat) (l : Live) (b : List Byte) =>
      (s.Settled) ∧ (s.Runs h 0x40 l) ∧ (l.len = b.length) ∧ (leAt b 0 1 = 1) ∧ (leAt b 1 1 = 0) ∧ (zeros b 2 2 = true) ∧ (0 <
      leAt b 8 4) ∧ (leAt b 8 4 ≤ 1048576) ∧ (0 < leAt b 12 4) ∧ (leAt b 12 4 ≤ 1048576) ∧ (leAt b 16 4 = 0) ∧ (zeros b 20 44 =
      true) ∧ (b.length = 64 + 32 * leAt b 8 4 + 256 * leAt b 12 4) ∧ (s.trl.load = none))
      ({ ({ rings base with hif := { (rings base).hif with live := [{ lv 0x40 [] with entry := leBytes 0x40 16 ++ leBytes img.length 8 ++ slice [] 0 40 }] } } : State) with saf := { base.saf with run := .fleetStop } }) 7 { lv 0x40 [] with entry := leBytes 0x40 16 ++ leBytes img.length 8 ++ slice [] 0 40 } img := by decide +kernel

/-- A witness of clause 2 of TheTrackGraphIsLoadedPatchedAndRead. -/
theorem meets_TheTrackGraphIsLoadedPatchedAndRead_2 :
    (fun (s : State) (_dt n : Nat) (x : GraphLoad) (g : Graph) (l : Live) =>
      (s.Settled) ∧ (s.trl.load = some x) ∧ (x.granted = true) ∧ (s.loaded x.image = some (g, n)) ∧ (n < 65536) ∧ ((s.derived
      g).fits = true) ∧ (s.mayReplace = true) ∧ (s.trl.patches = []) ∧ (s.trl.pendingFp = []) ∧ (s.Waits x.handle l))
      ({ fl (host 0x40 []) (0x8100, 24, 1) 1 with saf := { base.saf with run := .fleetStop }, trl := { load := some { handle := 7, image := img, granted := true } }, gov := { grants := [{ id := 1, cls := 2, mw := 5, until_ := 0x1_2000_0000, work := .graphLoad }] } }) 5 1 { handle := 7, image := img, granted := true } graph1 (lv 0x40 []) := by decide +kernel

/-- A witness of clause 3 of TheTrackGraphIsLoadedPatchedAndRead. -/
theorem meets_TheTrackGraphIsLoadedPatchedAndRead_3 :
    (fun (s : State) (_dt i r n : Nat) (x : GraphLoad) (l : Live) =>
      (s.Settled) ∧ (s.trl.load = some x) ∧ (x.granted = true) ∧ (s.loadFails x.image = some (i, r, n)) ∧ (n < 65536) ∧ (s.Waits
      x.handle l))
      ({ fl (host 0x40 []) (0x8100, 24, 1) 1 with saf := { base.saf with run := .fleetStop }, trl := { load := some { handle := 7, image := img.set 142 1, granted := true } }, gov := { grants := [{ id := 1, cls := 2, mw := 5, until_ := 0x1_2000_0000, work := .graphLoad }] } }) 5 2 6 0 { handle := 7, image := img.set 142 1, granted := true } (lv 0x40 []) := by decide +kernel

/-- A witness of clause 4 of TheTrackGraphIsLoadedPatchedAndRead. -/
theorem meets_TheTrackGraphIsLoadedPatchedAndRead_4 :
    (fun (s : State) (h n : Nat) (l : Live) (b : List Byte) (items : List (Nat × List Byte)) =>
      (s.Settled) ∧ (s.Runs h 0x41 l) ∧ (s.paused = false) ∧ (s.applyTimeOk (l.pNt 0) = true) ∧ (n = l.p 10 2) ∧ (n ≤ 256) ∧ ((match patchItems b n 0 with | .ok r => some r | .error _ => none) = some (items, l.len)) ∧ (b.length = l.len) ∧ (s.saf.run = .run ∨ s.saf.run = .fleetStop) ∧ (s.inFlight < 256) ∧ (s.trl.graph.isSome = true))
      { ({ rings base with hif := { (rings base).hif with live := [{ lv 0x41 (leBytes 0 8 ++ [1, 0, 1, 0]) with entry := leBytes 0x41 16 ++ leBytes 40 8 ++ slice (leBytes 0 8 ++ [1, 0, 1, 0]) 0 40 }] } } : State) with trl := { graph := some graph1, ver := 1 } } 7 1 { lv 0x41 (leBytes 0 8 ++ [1, 0, 1, 0]) with entry := leBytes 0x41 16 ++ leBytes 40 8 ++ slice (leBytes 0 8 ++ [1, 0, 1, 0]) 0 40 } ([1] ++ leBytes 0 7 ++ node3.bytes) [(1, node3.bytes)] := by decide +kernel

/-- A witness of clause 5 of TheTrackGraphIsLoadedPatchedAndRead. -/
theorem meets_TheTrackGraphIsLoadedPatchedAndRead_5 :
    (fun (s : State) (dt : Nat) (p : Patch) (g new : Graph) (l : Live) =>
      (s.Settled) ∧ (s.par.hand = none) ∧ (s.trl.patches = [p]) ∧ (p.txn = 0) ∧ (p.ver = s.trl.ver) ∧ (p.applyAt = none) ∧ (s.trl.graph = some g) ∧ ((match g.editAll p.items 0 with | .ok n => some n | .error _ => none) = some new) ∧ (p.items.all (s.itemOk (s.rederive g new)) = true) ∧ (p.items.any (s.itemRefused g) = false) ∧ ((s.rederive g new).box.ok = true) ∧ ((s.rederive g new).fits = true) ∧ (ntAfter (slotAtOrAfter (ntAdd (s.tick dt).nt (msTicks 10 : Nat))) (s.tick dt).nt = true) ∧ (s.Waits p.handle l) ∧ (s.Room l.cq))
      (patSt graph1 (pt 0 none)) 5 (pt 0 none) graph1 { graph1 with nodes := graph1.nodes ++ [node3] } (lv 0x41 []) := by decide +kernel

/-- A witness of clause 6 of TheTrackGraphIsLoadedPatchedAndRead. -/
theorem meets_TheTrackGraphIsLoadedPatchedAndRead_6 :
    (fun (s : State) (_dt i : Nat) (p : Patch) (g : Graph) (l : Live) =>
      (s.Settled) ∧ (s.par.hand = none) ∧ (s.trl.patches = [p]) ∧ (p.txn = 0) ∧ (p.ver = s.trl.ver) ∧ (p.far = false) ∧ (s.trl.graph = some g) ∧ ((match g.editAll p.items 0 with | .ok _ => none | .error i => some i) = some i) ∧ (s.Waits p.handle l))
      (patSt { graph1 with nodes := [node3] } (pt 0 none)) 5 0 (pt 0 none) { graph1 with nodes := [node3] } (lv 0x41 []) := by decide +kernel

/-- A witness of clause 7 of TheTrackGraphIsLoadedPatchedAndRead. -/
theorem meets_TheTrackGraphIsLoadedPatchedAndRead_7 :
    (fun (s : State) (p : Patch) (a : NT) (l : Live) =>
      (s.trl.patches = [p]) ∧ (p.applyAt = some a) ∧ (p.txn ≠ 0) ∧ (p.ver = s.trl.ver) ∧ (p.far = false) ∧ (p.items.any
      (s.itemRefused (s.trl.graph.getD {})) = false) ∧ (s.Waits p.handle l) ∧ (s.Room l.cq))
      (patSt graph1 (pt 5 (some 0x1_0800_0000))) (pt 5 (some 0x1_0800_0000)) 0x1_0800_0000 (lv 0x41 []) := by decide +kernel

/-- A witness of clause 8 of TheTrackGraphIsLoadedPatchedAndRead. -/
theorem meets_TheTrackGraphIsLoadedPatchedAndRead_8 :
    (fun (s : State) (h : Nat) (l : Live) (g : Graph) =>
      (s.Settled) ∧ (s.Runs h 0x42 l) ∧ (l.p 30 1 = 2) ∧ (1 ≤ l.p 31 1) ∧ (l.p 31 1 ≤ 15) ∧ (s.trl.graph = some g) ∧ (32 ≤
      l.len) ∧ (l.len < 64))
      { ({ rings base with hif := { (rings base).hif with live := [{ lv 0x42 (leBytes 0 24 ++ leBytes 2 4 ++ [0, 0, 2, 15]) with entry := leBytes 0x42 16 ++ leBytes 32 8 ++ slice (leBytes 0 24 ++ leBytes 2 4 ++ [0, 0, 2, 15]) 0 40 }] } } : State) with trl := { graph := some graph1, ver := 1 } } 7 { lv 0x42 (leBytes 0 24 ++ leBytes 2 4 ++ [0, 0, 2, 15]) with entry := leBytes 0x42 16 ++ leBytes 32 8 ++ slice (leBytes 0 24 ++ leBytes 2 4 ++ [0, 0, 2, 15]) 0 40 } graph1 := by decide +kernel

/-- A witness of clause 9 of TheTrackGraphIsLoadedPatchedAndRead. -/
theorem meets_TheTrackGraphIsLoadedPatchedAndRead_9 :
    (fun (s : State) (h : Nat) (l : Live) (g : Graph) =>
      (s.Settled) ∧ (s.Runs h 0x42 l) ∧ (l.p 30 1 = 2) ∧ (1 ≤ l.p 31 1) ∧ (l.p 31 1 ≤ 15) ∧ (s.trl.graph = some g) ∧ ((g.node?
      (l.p 24 4)).isSome = true))
      { host 0x42 (leBytes 0 24 ++ leBytes 1 4 ++ [0, 0, 2, 3]) with trl := { graph := some graph1 } } 7 (lv 0x42 (leBytes 0 24 ++ leBytes 1 4 ++ [0, 0, 2, 3])) graph1 := by decide +kernel

/-- A witness of clause 10 of TheTrackGraphIsLoadedPatchedAndRead. -/
theorem meets_TheTrackGraphIsLoadedPatchedAndRead_10 :
    (fun (s : State) (h k : Nat) (l : Live) (g : Graph) =>
      (s.Settled) ∧ (s.Runs h 0x42 l) ∧ (l.p 30 1 = 3) ∧ (l.p 31 1 = 15) ∧ (s.trl.graph = some g) ∧ ((g.seg? (l.p 24 4)).isSome
      = true) ∧ (k = (s.trl.resv.filter fun r => r.seg == l.p 24 4 && r.meets (l.pNt 0) (l.pNt 8)).length))
      { ({ rings base with hif := { (rings base).hif with live := [{ lv 0x42 (leBytes 0 24 ++ leBytes 5 4 ++ [0, 0, 3, 15]) with entry := leBytes 0x42 16 ++ leBytes 32 8 ++ slice (leBytes 0 24 ++ leBytes 5 4 ++ [0, 0, 3, 15]) 0 40 }] } } : State) with trl := { graph := some graph1, ver := 1, resv := [rv .firm, rv .spec] } } 7 2 { lv 0x42 (leBytes 0 24 ++ leBytes 5 4 ++ [0, 0, 3, 15]) with entry := leBytes 0x42 16 ++ leBytes 32 8 ++ slice (leBytes 0 24 ++ leBytes 5 4 ++ [0, 0, 3, 15]) 0 40 } graph1 := by decide +kernel

/-- A witness of clause 1 of ThePlannerPlansWithoutConflict. -/
theorem meets_ThePlannerPlansWithoutConflict_1 :
    (fun (s : Dev) (i : Nat) (x : Start) (q : PlanStep) (es : List Resv) =>
      ((s.tryStep i x).1 = some (q, es)))
      waySt.toDev 0 way0 way1 (waySt.toDev.stepEntries 0 way1) := by decide +kernel

/-- A witness of clause 2 of ThePlannerPlansWithoutConflict. -/
theorem meets_ThePlannerPlansWithoutConflict_2 :
    (fun (s : State) (_work : Nat) (_served : Option Nat) (_late : Bool) =>
      (s.saf.run = .run) ∧ (s.upd.armed ≠ some 1) ∧ (s.trl.patches = []) ∧ (s.trl.taskChange = false ∨ s.flag (0x9028, 8, 1) =
      false) ∧ (s.trl.epoch ≠ BitVec.ofNat 64 (slotStart (50 * slotframeOf s.nt.toNat))) ∧ (ntSince s.nt (BitVec.ofNat 64
      (slotStart (50 * slotframeOf s.nt.toNat))) ≤ usTicks 40))
      { planSt with trl := { planSt.trl with epoch := 0 } } 30 none false := by decide +kernel

/-- A witness of clause 3 of ThePlannerPlansWithoutConflict. -/
theorem meets_ThePlannerPlansWithoutConflict_3 :
    (fun (s : State) (_work : Nat) (_served : Option Nat) (_late : Bool) =>
      (s.saf.run = .fleetStop) ∧ (s.trl.patches = []))
      { planSt with saf := { base.saf with run := .fleetStop } } 30 (some 0) false := by decide +kernel

/-- A witness of clause 4 of ThePlannerPlansWithoutConflict. -/
theorem meets_ThePlannerPlansWithoutConflict_4 :
    (fun (s : State) (i : Nat) (x : TrlRobot) (q : PlanStep) =>
      (s.trl.handOffDue = true) ∧ (s.plans = true) ∧ (s.trl.robots = [(i, x)]) ∧ (s.plannable i = true) ∧ ((s.handSteps
      i).getLast? = some q))
      planSt 0 (planSt.rob 0) { sf := 41, k0 := { s := 2000000000, v := 0 }, k1 := { s := 2100000000, v := 500000000 } } := by decide +kernel

/-- A witness of clause 5 of ThePlannerPlansWithoutConflict. -/
theorem meets_ThePlannerPlansWithoutConflict_5 :
    (fun (s : State) =>
      (s.trl.unfinished = true))
      planSt := by decide +kernel

/-- A witness of clause 1 of TasksAreDefinedAllottedAndWithdrawn. -/
theorem meets_TasksAreDefinedAllottedAndWithdrawn_1 :
    (fun (s : State) (h k : Nat) (l : Live) (b : List Byte) (_late : Bool) (x : Task) =>
      (s.Settled) ∧ (s.Runs h 0x58 l) ∧ (bitAt (leAt b 0 1) 7 = false) ∧ (b.length = l.len) ∧ ((match s.readAllot b with | .ok p => some p | .error _ => none) = some ([(k, x)], [])))
      ({ taskSt 0x58 [] .open_ with hif := { (rings base).hif with live := [{ lv 0x58 [] with entry := leBytes 0x58 16 ++ leBytes defB.length 8 ++ slice [] 0 40 }] } }) 7 4 { lv 0x58 [] with entry := leBytes 0x58 16 ++ leBytes defB.length 8 ++ slice [] 0 40 } defB false (tsk .open_) := by decide +kernel

/-- A witness of clause 2 of TasksAreDefinedAllottedAndWithdrawn. -/
theorem meets_TasksAreDefinedAllottedAndWithdrawn_2 :
    (fun (s : State) (h : Nat) (l : Live) (b : List Byte) (_late : Bool) (r : TaskRec) =>
      (s.Settled) ∧ (s.Runs h 0x58 l) ∧ (bitAt (leAt b 0 1) 7 = false) ∧ (b.length = l.len) ∧ ((match s.readAllot b with | .ok p => some p | .error _ => none) = some ([], [r])))
      ({ taskSt 0x58 [] .held with hif := { (rings base).hif with live := [{ lv 0x58 [] with entry := leBytes 0x58 16 ++ leBytes recB.length 8 ++ slice [] 0 40 }] } }) 7 { lv 0x58 [] with entry := leBytes 0x58 16 ++ leBytes recB.length 8 ++ slice [] 0 40 } recB false { sec := 3, task := 4, slot := 0, prio := 9, clear := false } := by decide +kernel

/-- A witness of clause 3 of TasksAreDefinedAllottedAndWithdrawn. -/
theorem meets_TasksAreDefinedAllottedAndWithdrawn_3 :
    (fun (s : State) (h code : Nat) (l : Live) (b : List Byte) (_late : Bool) (o : Option Nat) =>
      (s.Settled) ∧ (s.Runs h 0x58 l) ∧ (bitAt (leAt b 0 1) 7 = false) ∧ (b.length = l.len) ∧ ((match s.readAllot b with | .ok _ => none | .error e => some e) = some (code, o)))
      ({ taskSt 0x58 [] .held with hif := { (rings base).hif with live := [{ lv 0x58 [] with entry := leBytes 0x58 16 ++ leBytes defB.length 8 ++ slice [] 0 40 }] } }) 7 0x0509 { lv 0x58 [] with entry := leBytes 0x58 16 ++ leBytes defB.length 8 ++ slice [] 0 40 } defB false none := by decide +kernel

/-- A witness of clause 4 of TasksAreDefinedAllottedAndWithdrawn. -/
theorem meets_TasksAreDefinedAllottedAndWithdrawn_4 :
    (fun (s : State) (_made h : Nat) (l : Live) (r : Round) =>
      (s.Settled) ∧ (s.txu.round = some r) ∧ (r.pairs = []) ∧ (r.handles = [h]) ∧ (s.Waits h l))
      { host 0x58 [] with txu := { round := some { handles := [7], auto := false, startAt := 0x1_0000_0000, costs := [], pairs := [] } } } 3 7 (lv 0x58 []) { handles := [7], auto := false, startAt := 0x1_0000_0000, costs := [], pairs := [] } := by decide +kernel

/-- A witness of clause 5 of TasksAreDefinedAllottedAndWithdrawn. -/
theorem meets_TasksAreDefinedAllottedAndWithdrawn_5 :
    (fun (s : State) (_made h : Nat) (l : Live) (r : Round) (a : Assign) =>
      (s.Settled) ∧ (s.txu.round = some r) ∧ (r.pairs = [a]) ∧ (r.handles = [h]) ∧ (r.auto = false) ∧ (s.saf.run = .run) ∧
      (s.Waits h l) ∧ (s.Room l.cq))
      { host 0x58 [] with txu := { round := some { handles := [7], auto := false, startAt := 0x1_0000_0000, costs := [], pairs := [{ task := 4, slot := 0, cost := 9, prio := 3 }] }, nextId := 6 } } 3 7 (lv 0x58 []) { handles := [7], auto := false, startAt := 0x1_0000_0000, costs := [], pairs := [{ task := 4, slot := 0, cost := 9, prio := 3 }] } { task := 4, slot := 0, cost := 9, prio := 3 } := by decide +kernel

/-- A witness of clause 6 of TasksAreDefinedAllottedAndWithdrawn. -/
theorem meets_TasksAreDefinedAllottedAndWithdrawn_6 :
    (fun (s : State) (h k : Nat) (l : Live) =>
      (s.Settled) ∧ (s.Runs h 0x59 l) ∧ (l.p 0 2 = k) ∧ (k < 16384) ∧ (l.p 2 1 = 1) ∧ (l.len = 0) ∧ ((s.task k).st = .open_ ∨
      (s.task k).st = .orphaned))
      (taskSt 0x59 [4, 0, 1] .open_) 7 4 (lv 0x59 [4, 0, 1]) := by decide +kernel

/-- A witness of clause 7 of TasksAreDefinedAllottedAndWithdrawn. -/
theorem meets_TasksAreDefinedAllottedAndWithdrawn_7 :
    (fun (s : State) (h k : Nat) (l : Live) =>
      (s.Settled) ∧ (s.Runs h 0x59 l) ∧ (s.paused = false) ∧ (l.p 0 2 = k) ∧ (k < 16384) ∧ (l.p 2 1 = 1) ∧ (l.len = 0) ∧
      ((s.task k).st = .held) ∧ (s.saf.run = .run ∨ s.saf.run = .fleetStop))
      (taskSt 0x59 [4, 0, 1] .held) 7 4 (lv 0x59 [4, 0, 1]) := by decide +kernel

/-- A witness of clause 8 of TasksAreDefinedAllottedAndWithdrawn. -/
theorem meets_TasksAreDefinedAllottedAndWithdrawn_8 :
    (fun (s : State) (h k : Nat) (l : Live) =>
      (s.Settled) ∧ (s.Runs h 0x59 l) ∧ (l.p 0 2 = k) ∧ (k < 16384) ∧ (l.p 2 1 = 1) ∧ (l.len = 0) ∧ ((s.task k).st = .empty ∨
      (s.task k).st = .done ∨ (s.task k).st = .withdrawn))
      (taskSt 0x59 [4, 0, 1] .done) 7 4 (lv 0x59 [4, 0, 1]) := by decide +kernel

/-- A witness of clause 9 of TasksAreDefinedAllottedAndWithdrawn. -/
theorem meets_TasksAreDefinedAllottedAndWithdrawn_9 :
    (fun (s : State) (h k i : Nat) (l : Live) =>
      (s.Settled) ∧ (s.Runs h 0x5A l) ∧ (s.TakesMotion) ∧ (s.applyTimeOk (l.pNt 0) = true) ∧ (l.p 12 2 = k) ∧ (k < 16384) ∧ (l.p
      14 1 = i) ∧ (i < s.nSlots) ∧ (l.p 15 1 = 1) ∧ ((s.task k).st = .orphaned) ∧ ((s.task k).holder = none) ∧ ((s.lease i).st =
      .active) ∧ ((s.lease i).unsynced = false) ∧ (bitAt (s.task k).mask (s.lease i).cls = true) ∧ (s.taskOf i = none) ∧
      ((s.task k).gens.length < 8))
      (taskSt 0x5A (leBytes 0 12 ++ [4, 0, 0, 1]) .orphaned) 7 4 0 (lv 0x5A (leBytes 0 12 ++ [4, 0, 0, 1])) := by decide +kernel

/-- A witness of clause 1 of SnapshotsAreAssembledBatchedAndJudged. -/
theorem meets_SnapshotsAreAssembledBatchedAndJudged_1 :
    (fun (s : State) (samples : List Byte) (x : Snap) =>
      (s.Settled) ∧ (s.station = 1) ∧ (s.snp.localAt = none) ∧ (s.snp.batches = []) ∧ (s.snp.demand = []) ∧ (x = s.localSnap
      .local_ samples))
      { base with gns := { sta := { st := 1 } } } [] (({ base with gns := { sta := { st := 1 } } } : State).localSnap .local_ []) := by exact ⟨by decide +kernel, by decide +kernel, by decide +kernel, by decide +kernel, by decide +kernel, rfl⟩

/-- A witness of clause 2 of SnapshotsAreAssembledBatchedAndJudged. -/
theorem meets_SnapshotsAreAssembledBatchedAndJudged_2 :
    (fun (s : State) (_dt i : Nat) (m : RxItem) (b : List Byte) =>
      (s.Settled) ∧ (s.mac.inbox = [m]) ∧ (m.q = 26) ∧ (b = slice m.frame 22 (frLen m.frame)) ∧ (pieceOk b = true) ∧ (s.robotOf
      (frSrc m.frame) = some i) ∧ (s.counts i (frEpoch m.frame) = true) ∧ (s.snp.asm_ = []) ∧ (s.tim.stepAt = none) ∧ (bitAt
      (leAt b 0 1) 4 = true))
      { robotSt with mac := { inbox := [pcItem 0] } } 5 0 (pcItem 0) (pcB 0) := by decide +kernel

/-- A witness of clause 3 of SnapshotsAreAssembledBatchedAndJudged. -/
theorem meets_SnapshotsAreAssembledBatchedAndJudged_3 :
    (fun (s : State) (dt i : Nat) (m : RxItem) (b : List Byte) =>
      (s.mac.inbox = [m]) ∧ (m.q = 26) ∧ (b = slice m.frame 22 (frLen m.frame)) ∧ (pieceOk b = true) ∧ (s.robotOf (frSrc
      m.frame) = some i) ∧ (s.counts i (frEpoch m.frame) = true) ∧ (s.snp.asm_ = []) ∧ (s.tim.stepAt = none) ∧ (bitAt (leAt b 0
      1) 4 = false) ∧ ((s.tick dt).unitsFit (if bitAt (leAt b 0 1) 5 then 4 else 1) = false))
      { robotSt with mac := { inbox := [{ pcItem 0 with frame := (pcItem 0).frame.set 22 1 }] }, snp := { asked := [(0x1_0000_0000, 64)] } } 5 0 { pcItem 0 with frame := (pcItem 0).frame.set 22 1 } ((pcB 0).set 0 1) := by decide +kernel

/-- A witness of clause 4 of SnapshotsAreAssembledBatchedAndJudged. -/
theorem meets_SnapshotsAreAssembledBatchedAndJudged_4 :
    (fun (s : State) (dt i : Nat) (m : RxItem) (b : List Byte) (a : SnapAsm) =>
      (s.Settled) ∧ (s.mac.inbox = [m]) ∧ (m.q = 26) ∧ (b = slice m.frame 22 (frLen m.frame)) ∧ (pieceOk b = true) ∧ (s.robotOf
      (frSrc m.frame) = some i) ∧ (s.counts i (frEpoch m.frame) = true) ∧ (s.snp.asm_ = [a]) ∧ (a.slot = i) ∧ (a.epoch = frEpoch
      m.frame) ∧ (a.id = leAt b 2 1) ∧ (a.t0 = expandNt (s.tick dt).nt (leAt b 4 6)) ∧ (a.pieces.length = 3) ∧ (a.late (s.tick
      dt).nt = false) ∧ (a.pieces.all (fun p => p.1 != leAt b 1 1) = true) ∧ (s.snp.batches = []))
      { robotSt with mac := { inbox := [pcItem 3] }, snp := { asm_ := [{ slot := 0, epoch := 3, id := 5, t0 := 0x1_0000_0000, cold := false, requested := true, first := 0x1_0000_0000, pieces := [(0, pcB 0), (1, pcB 1), (2, pcB 2)] }] } } 5 0 (pcItem 3) (pcB 3) ({ slot := 0, epoch := 3, id := 5, t0 := 0x1_0000_0000, cold := false, requested := true, first := 0x1_0000_0000, pieces := [(0, pcB 0), (1, pcB 1), (2, pcB 2)] }) := by decide +kernel

/-- A witness of clause 5 of SnapshotsAreAssembledBatchedAndJudged. -/
theorem meets_SnapshotsAreAssembledBatchedAndJudged_5 :
    (fun (s : State) (a : SnapAsm) =>
      (s.snp.asm_ = [a]))
      { base with snp := { asm_ := [{ slot := 0, epoch := 3, id := 5, t0 := 0x1_0000_0000, cold := false, requested := true, first := 0x1_0000_0000, pieces := [(0, pcB 0), (1, pcB 1), (2, pcB 2)] }] } } ({ slot := 0, epoch := 3, id := 5, t0 := 0x1_0000_0000, cold := false, requested := true, first := 0x1_0000_0000, pieces := [(0, pcB 0), (1, pcB 1), (2, pcB 2)] }) := by decide +kernel

/-- A witness of clause 6 of SnapshotsAreAssembledBatchedAndJudged. -/
theorem meets_SnapshotsAreAssembledBatchedAndJudged_6 :
    (fun (s : State) (b : Batch) =>
      (s.Settled) ∧ (s.snp.batches = [b]) ∧ (b.closed = false))
      { base with snp := { batches := [bat .local_ false] } } (bat .local_ false) := by decide +kernel

/-- A witness of clause 7 of SnapshotsAreAssembledBatchedAndJudged. -/
theorem meets_SnapshotsAreAssembledBatchedAndJudged_7 :
    (fun (s : State) (_dt : Nat) (_f : SnapFacts) (_werr : Bool) (b : Batch) (x : Snap) =>
      (s.Settled) ∧ (s.snp.batches = [b]) ∧ (b.running = true) ∧ (b.snaps = [x]) ∧ (x.src = .local_))
      { base with snp := { batches := [bat .local_ true], localPend := true } } 5 {} false (bat .local_ true) (snp .local_) := by decide +kernel

/-- A witness of clause 8 of SnapshotsAreAssembledBatchedAndJudged. -/
theorem meets_SnapshotsAreAssembledBatchedAndJudged_8 :
    (fun (s : State) (_dt i e ncmp nmis v : Nat) (f : SnapFacts) (_werr : Bool) (b : Batch) (x : Snap) =>
      (s.snp.batches = [b]) ∧ (b.running = true) ∧ (b.snaps = [x]) ∧ (x.src = .robot i e) ∧ ((s.lease i).epoch = e) ∧ (s.hasObs
      i x.t0 = true) ∧ (s.compare i x.t0 (s.search x f.sats) = (ncmp, nmis)) ∧ (v = s.snapVerdict ncmp nmis) ∧ ((s.rover i).rx ≠
      2) ∧ (s.Room (s.evtCq 0x0601)))
      { robotSt with snp := { batches := [bat (.robot 0 3) true] }, frk := { slots := [(0, { obs := [(0x1_0000_0000, [])] })] } } 5 0 3 0 0 3 {} false (bat (.robot 0 3) true) (snp (.robot 0 3)) := by decide +kernel

/-- A witness of clause 9 of SnapshotsAreAssembledBatchedAndJudged. -/
theorem meets_SnapshotsAreAssembledBatchedAndJudged_9 :
    (fun (s : State) (_dt h n : Nat) (f : SnapFacts) (b : Batch) (x : Snap) (c : SnapCmd) (l : Live) (hits : List SnapHit) (p : Int × Vec3 × Nat) =>
      (s.Settled) ∧ (s.snp.batches = [b]) ∧ (b.running = true) ∧ (b.snaps = [x]) ∧ (x.src = .host h n) ∧ (s.snp.cmds = [c]) ∧
      (c.handle = h) ∧ (c.mode = 1) ∧ (c.results + 1 = c.count) ∧ (c.noLeave = 0) ∧ (hits = s.search x f.sats) ∧ (p = s.coarse x
      hits) ∧ (s.Waits h l) ∧ (s.Room l.cq))
      snpSt 5 7 0 {} (bat (.host 7 0) true) (snp (.host 7 0)) { handle := 7, mode := 1, robot := 0, count := 1, tStart := 0 } (lv 0x28 []) [] (snpSt.coarse (snp (.host 7 0)) []) := by exact ⟨by decide +kernel, by decide +kernel, by decide +kernel, by decide +kernel, by decide +kernel, by decide +kernel, by decide +kernel, by decide +kernel, by decide +kernel, by decide +kernel, by decide +kernel, rfl, by decide +kernel, by decide +kernel⟩

/-- A witness of clause 10 of SnapshotsAreAssembledBatchedAndJudged. -/
theorem meets_SnapshotsAreAssembledBatchedAndJudged_10 :
    (fun (s : State) (_dt h n : Nat) (_f : SnapFacts) (b : Batch) (x : Snap) (c : SnapCmd) (l : Live) =>
      (s.Settled) ∧ (s.snp.batches = [b]) ∧ (b.running = true) ∧ (b.snaps = [x]) ∧ (x.src = .host h n) ∧ (s.snp.cmds = [c]) ∧
      (c.handle = h) ∧ (s.Waits h l))
      snpSt 5 7 0 {} (bat (.host 7 0) true) (snp (.host 7 0)) { handle := 7, mode := 1, robot := 0, count := 1, tStart := 0 } (lv 0x28 []) := by decide +kernel

/-- A witness of clause 11 of SnapshotsAreAssembledBatchedAndJudged. -/
theorem meets_SnapshotsAreAssembledBatchedAndJudged_11 :
    (fun (s : State) (i : Nat) =>
      (s.Settled) ∧ (s.nextAudited = some i) ∧ (s.fld (0x6014, 0, 16) ≠ 0) ∧ ((s.rover i).audited = none) ∧ (s.snp.demand = [])
      ∧ (s.unitsFit 1 = true))
      robotSt 0 := by decide +kernel

/-- A witness of clause 12 of SnapshotsAreAssembledBatchedAndJudged. -/
theorem meets_SnapshotsAreAssembledBatchedAndJudged_12 :
    (fun (s : State) (i : Nat) (u : NT) =>
      (s.Settled) ∧ ((s.rover i).rx = 2) ∧ ((s.rover i).asked = some u) ∧ ((s.lease i).st = .active ∨ (s.lease i).st = .suspect
      ∨ (s.lease i).st = .admitting) ∧ (s.snp.demand = []) ∧ ((s.tickTo (ntAdd u ((s.fld (0x6014, 16, 8) * tickHz : Nat) :
      Int))).unitsFit 1 = true))
      { robotSt with snp := { rovers := [(0, { rx := 2, asked := some 0x1_0000_0000 })] } } 0 0x1_0000_0000 := by decide +kernel

/-- A witness of clause 13 of SnapshotsAreAssembledBatchedAndJudged. -/
theorem meets_SnapshotsAreAssembledBatchedAndJudged_13 :
    (fun (s : State) (h : Nat) (l : Live) (b : List Byte) (x : Snap) =>
      (s.Settled) ∧ (s.Runs h 0x28 l) ∧ (l.p 8 1 = 1) ∧ (l.p 10 1 = 1) ∧ (l.len = 1072) ∧ (48 ≤ l.p 24 4) ∧ (s.snp.cmds.length <
      4) ∧ (snapRecBad (slice b 0 1072) = none) ∧ (x = hostSnap h 0 (slice b 0 1072)) ∧ (s.tim.stepAt = none) ∧ (s.snp.batches =
      []) ∧ (s.snp.demand = []) ∧ (s.unitsFit x.units = true))
      (hostLen 0x28 1072 subP) 7 (lvLen 0x28 1072 subP) recS (hostSnap 7 0 (slice recS 0 1072)) := by decide +kernel

/-- A witness of clause 14 of SnapshotsAreAssembledBatchedAndJudged. -/
theorem meets_SnapshotsAreAssembledBatchedAndJudged_14 :
    (fun (s : State) (h o : Nat) (l : Live) (b : List Byte) =>
      (s.Settled) ∧ (s.Runs h 0x28 l) ∧ (l.p 8 1 = 1) ∧ (l.p 10 1 = 1) ∧ (l.len = 1072) ∧ (48 ≤ l.p 24 4) ∧ (s.snp.cmds.length <
      4) ∧ (snapRecBad (slice b 0 1072) = some o))
      (hostLen 0x28 1072 subP) 7 8 (lvLen 0x28 1072 subP) [] := by decide +kernel

/-- A witness of clause 15 of SnapshotsAreAssembledBatchedAndJudged. -/
theorem meets_SnapshotsAreAssembledBatchedAndJudged_15 :
    (fun (s : State) (h n : Nat) (l : Live) (_b : Option (List Byte)) =>
      (s.Settled) ∧ (s.Runs h 0x28 l) ∧ (l.p 8 1 = 3) ∧ (l.p 10 1 = n) ∧ (l.len = 1072 * n) ∧ (48 * n ≤ l.p 24 4) ∧
      (s.snp.cmds.length < 4) ∧ (s.portRuns (portOf s.gns.refAnt 0) = true))
      { ({ rings base with hif := { (rings base).hif with live := [{ lv 0x28 (leBytes 0 8 ++ [3, 0, 1] ++ leBytes 0 13 ++ leBytes 48 4) with entry := leBytes 0x28 16 ++ leBytes 1072 8 ++ slice (leBytes 0 8 ++ [3, 0, 1] ++ leBytes 0 13 ++ leBytes 48 4) 0 40 }] } } : State) with regs := (fl base (spEn (portOf 0 0)) 1).regs ++ (rings base).regs, gns := { ports := [(0, { clkOk := true })] } } 7 1 { lv 0x28 (leBytes 0 8 ++ [3, 0, 1] ++ leBytes 0 13 ++ leBytes 48 4) with entry := leBytes 0x28 16 ++ leBytes 1072 8 ++ slice (leBytes 0 8 ++ [3, 0, 1] ++ leBytes 0 13 ++ leBytes 48 4) 0 40 } none := by decide +kernel

/-- A witness of clause 16 of SnapshotsAreAssembledBatchedAndJudged. -/
theorem meets_SnapshotsAreAssembledBatchedAndJudged_16 :
    (fun (s : State) (h : Nat) (r : List Byte) (c : SnapCmd) (x : Snap) =>
      (s.Settled) ∧ (s.snp.cmds = [c]) ∧ (c.handle = h) ∧ (c.mode = 3) ∧ (c.taken < c.count) ∧ (s.snp.batches = []) ∧
      (s.snp.demand = []) ∧ (x = (s.tickTo (ntAdd c.tStart (msTicks (100 * c.taken)))).localSnap (.host h c.taken) r) ∧
      ((s.tickTo (ntAdd c.tStart (msTicks (100 * c.taken)))).unitsFit x.units = true))
      { base with snp := { cmds := [{ handle := 7, mode := 3, robot := 0, count := 2, tStart := 0x1_1000_0000 }] } } 7 [] { handle := 7, mode := 3, robot := 0, count := 2, tStart := 0x1_1000_0000 } (((base.tickTo (ntAdd 0x1_1000_0000 0))).localSnap (.host 7 0) []) := by exact ⟨by decide +kernel, by decide +kernel, by decide +kernel, by decide +kernel, by decide +kernel, by decide +kernel, by decide +kernel, rfl, by decide +kernel⟩

/-- A witness of clause 17 of SnapshotsAreAssembledBatchedAndJudged. -/
theorem meets_SnapshotsAreAssembledBatchedAndJudged_17 :
    (fun (s : State) (h : Nat) (_r : List Byte) (c : SnapCmd) (l : Live) =>
      (s.Settled) ∧ (s.snp.cmds = [c]) ∧ (c.handle = h) ∧ (c.mode = 3) ∧ (c.taken < c.count) ∧ (s.Waits h l))
      { host 0x28 [] with snp := { cmds := [{ handle := 7, mode := 3, robot := 0, count := 2, tStart := 0x1_1000_0000 }] } } 7 [] { handle := 7, mode := 3, robot := 0, count := 2, tStart := 0x1_1000_0000 } (lv 0x28 []) := by decide +kernel

/-- A witness of clause 1 of DownloadsAreAcceptedFilledAndVerified. -/
theorem meets_DownloadsAreAcceptedFilledAndVerified_1 :
    (fun (s : State) (h : Nat) (l : Live) (b : List Byte) =>
      (s.Settled) ∧ (s.Runs h 0xB0 l) ∧ (s.hdrBad b = none) ∧ (s.upd.wait = none) ∧ (s.download = none) ∧ ((s.sel (leAt b 5
      1)).trial = false))
      (keyed (hostLen 0xB0 512 [])) 7 (lvLen 0xB0 512 []) hdrB := by exact ⟨by decide +kernel, by decide +kernel, hdrB_good _ (by decide +kernel), by decide +kernel, by decide +kernel, by decide +kernel⟩

/-- A witness of clause 2 of DownloadsAreAcceptedFilledAndVerified. -/
theorem meets_DownloadsAreAcceptedFilledAndVerified_2 :
    (fun (s : State) (h : Nat) (l : Live) (b : List Byte) (d : FlashDl) =>
      (s.Settled) ∧ (s.Runs h 0xB0 l) ∧ (s.hdrBad b = none) ∧ (s.upd.wait = none) ∧ (s.download = some d) ∧ (d.hdr.same (readHdr
      b) = true) ∧ ((s.sel (leAt b 5 1)).trial = false))
      (dlSt (keyed (hostLen 0xB0 512 [])) { hdr := readHdr hdrB, bank := 1 } {}) 7 (lvLen 0xB0 512 []) hdrB { hdr := readHdr hdrB, bank := 1 } := by exact ⟨by decide +kernel, by decide +kernel, hdrB_good _ (by decide +kernel), by decide +kernel, by decide +kernel, by decide +kernel, by decide +kernel⟩

/-- A witness of clause 3 of DownloadsAreAcceptedFilledAndVerified. -/
theorem meets_DownloadsAreAcceptedFilledAndVerified_3 :
    (fun (s : State) (h code : Nat) (o : Option Nat) (l : Live) (b : List Byte) =>
      (s.Settled) ∧ (s.Runs h 0xB0 l) ∧ (s.hdrBad b = some (code, o)) ∧ (s.Room (s.evtCq 0x1402)))
      (keyed (hostLen 0xB0 512 [])) 7 0x0C01 none (lvLen 0xB0 512 []) [] := by decide +kernel

/-- A witness of clause 4 of DownloadsAreAcceptedFilledAndVerified. -/
theorem meets_DownloadsAreAcceptedFilledAndVerified_4 :
    (fun (s : State) (h code : Nat) (res : List Byte) (l : Live) (b : List Byte) =>
      (s.Settled) ∧ (s.Runs h 0xB0 l) ∧ (s.hdrBad b = none) ∧ (s.hdrVerdict (readHdr b) (bitAt (l.p 0 1) 0) = .refused code res)
      ∧ (s.Room (s.evtCq 0x1402)))
      (keyed (selSt (hostLen 0xB0 512 []) 1 { bank := 1, trial := true, boots := 2, ver := 5 })) 7 stTrialPending [] (lvLen 0xB0 512 []) hdrB := by exact ⟨by decide +kernel, by decide +kernel, hdrB_good _ (by decide +kernel), by decide +kernel, by decide +kernel⟩

/-- A witness of clause 5 of DownloadsAreAcceptedFilledAndVerified. -/
theorem meets_DownloadsAreAcceptedFilledAndVerified_5 :
    (fun (s : State) (_dt h : Nat) (l : Live) (w : HdrWait) =>
      (s.Settled) ∧ (s.upd.wait = some w) ∧ (w.granted = true) ∧ (s.dry.pfw = false) ∧ ((s.sel w.hdr.sub).trial = false) ∧
      (s.download = none) ∧ (s.upd.verify = none) ∧ (w.handles = [h]) ∧ (s.Waits h l))
      { host 0xB0 [] with upd := { wait := some { hdr := hd1, handles := [7], granted := true } } } 5 7 (lv 0xB0 []) { hdr := hd1, handles := [7], granted := true } := by decide +kernel

/-- A witness of clause 6 of DownloadsAreAcceptedFilledAndVerified. -/
theorem meets_DownloadsAreAcceptedFilledAndVerified_6 :
    (fun (s : State) (_dt h : Nat) (l : Live) (w : HdrWait) =>
      (s.upd.wait = some w) ∧ (w.granted = true) ∧ (s.dry.pfw = false) ∧ ((s.sel w.hdr.sub).trial = false) ∧ (s.upd.verify =
      none) ∧ (w.handles = [h]) ∧ (s.Waits h l) ∧ (s.Room (s.evtCq 0x1405)))
      { host 0xB0 [] with upd := { wait := some { hdr := hd1, handles := [7], granted := true } } } 5 7 (lv 0xB0 []) { hdr := hd1, handles := [7], granted := true } := by decide +kernel

/-- A witness of clause 7 of DownloadsAreAcceptedFilledAndVerified. -/
theorem meets_DownloadsAreAcceptedFilledAndVerified_7 :
    (fun (s : State) (h : Nat) (l : Live) (b : List Byte) (d : FlashDl) =>
      (s.Settled) ∧ (s.Runs h 0xB1 l) ∧ (s.download = some d) ∧ (l.p 0 2 = 1) ∧ (l.len = 16 + d.hdr.psize) ∧ (b.length = l.len)
      ∧ (leAt b 8 4 = d.hdr.tag) ∧ (leAt b 0 4 < d.hdr.count) ∧ (leAt b 12 4 = 0) ∧ (crc32c (b.drop 16) = leAt b 4 4) ∧
      ((s.upd.held ++ d.pieces).all (fun p => p.1 != leAt b 0 4) = true) ∧ (2 ≤ d.hdr.per) ∧ (2 ≤ (d.hdr.piecesOf 0).2) ∧
      (s.upd.held = []) ∧ (d.hdr.sectors ≤ 1))
      (dlSt ({ rings base with hif := { (rings base).hif with live := [{ lv 0xB1 [1, 0] with entry := leBytes 0xB1 16 ++ leBytes 144 8 ++ slice [1, 0] 0 40 }] } }) { hdr := hd1, bank := 1 } {}) 7 { lv 0xB1 [1, 0] with entry := leBytes 0xB1 16 ++ leBytes 144 8 ++ slice [1, 0] 0 40 } (recP [1, 2, 3, 4] 1 pz) { hdr := hd1, bank := 1 } := by decide +kernel

/-- A witness of clause 8 of DownloadsAreAcceptedFilledAndVerified. -/
theorem meets_DownloadsAreAcceptedFilledAndVerified_8 :
    (fun (s : State) (h : Nat) (l : Live) (b : List Byte) (d : FlashDl) (p : Nat × List Byte) =>
      (s.Settled) ∧ (s.Runs h 0xB1 l) ∧ (s.download = some d) ∧ (l.p 0 2 = 1) ∧ (l.len = 16 + d.hdr.psize) ∧ (b.length = l.len)
      ∧ (leAt b 8 4 = d.hdr.tag) ∧ (leAt b 0 4 < d.hdr.count) ∧ (leAt b 12 4 = 0) ∧ (crc32c (b.drop 16) = leAt b 4 4) ∧
      (s.upd.held = [p]) ∧ (p.1 = leAt b 0 4) ∧ (p.2 ≠ b.drop 16) ∧ (2 ≤ (d.hdr.piecesOf 0).2) ∧ (d.hdr.sectors ≤ 1))
      (dlSt ({ rings base with hif := { (rings base).hif with live := [{ lv 0xB1 [1, 0] with entry := leBytes 0xB1 16 ++ leBytes 144 8 ++ slice [1, 0] 0 40 }] } }) { hdr := hd1, bank := 1 } { held := [(1, [7])] }) 7 { lv 0xB1 [1, 0] with entry := leBytes 0xB1 16 ++ leBytes 144 8 ++ slice [1, 0] 0 40 } (recP [1, 2, 3, 4] 1 pz) { hdr := hd1, bank := 1 } (1, [7]) := by decide +kernel

/-- A witness of clause 9 of DownloadsAreAcceptedFilledAndVerified. -/
theorem meets_DownloadsAreAcceptedFilledAndVerified_9 :
    (fun (s : State) (h : Nat) (l : Live) (_x : Option (List Byte)) =>
      (s.Settled) ∧ (s.Runs h 0xB1 l) ∧ (s.download = none))
      ({ rings base with hif := { (rings base).hif with live := [{ lv 0xB1 [1, 0] with entry := leBytes 0xB1 16 ++ leBytes 144 8 ++ slice [1, 0] 0 40 }] } }) 7 { lv 0xB1 [1, 0] with entry := leBytes 0xB1 16 ++ leBytes 144 8 ++ slice [1, 0] 0 40 } none := by decide +kernel

/-- A witness of clause 10 of DownloadsAreAcceptedFilledAndVerified. -/
theorem meets_DownloadsAreAcceptedFilledAndVerified_10 :
    (fun (s : State) (_dt : Nat) (m : RxItem) (b : List Byte) (d : FlashDl) =>
      (s.Settled) ∧ (s.mac.inbox = [m]) ∧ (m.q = 27) ∧ (s.isGateway (frSrc m.frame) = true) ∧ (b = slice m.frame 22 (frLen
      m.frame)) ∧ (leAt b 0 1 = 0x21) ∧ (leAt b 1 3 = 0) ∧ (1 ≤ leAt b 14 2) ∧ (leAt b 14 2 ≤ 346) ∧ (b.length = 20 + leAt b 14
      2) ∧ (s.download = some d) ∧ (leAt b 4 4 = d.hdr.tag) ∧ (leAt b 8 4 < d.hdr.count) ∧ (leAt b 12 2 = 0) ∧ (leAt b 14 2 =
      d.hdr.psize) ∧ (crc32c (b.drop 20) = leAt b 16 4) ∧ ((s.upd.held ++ d.pieces).all (fun p => p.1 != leAt b 8 4) = true) ∧
      (s.upd.held = []) ∧ (s.upd.asm_ = []) ∧ (2 ≤ (d.hdr.piecesOf 0).2) ∧ (d.hdr.sectors ≤ 1))
      { dlSt gwSt { hdr := hd1, bank := 1 } {} with mac := { inbox := [cutItem (cutB 2 1 0 (crc32c pz) pz)] } } 5 (cutItem (cutB 2 1 0 (crc32c pz) pz)) (cutB 2 1 0 (crc32c pz) pz) { hdr := hd1, bank := 1 } := by decide +kernel

/-- A witness of clause 11 of DownloadsAreAcceptedFilledAndVerified. -/
theorem meets_DownloadsAreAcceptedFilledAndVerified_11 :
    (fun (s : State) (_dt : Nat) (m : RxItem) (b : List Byte) =>
      (s.Settled) ∧ (s.mac.inbox = [m]) ∧ (m.q = 27) ∧ (s.isGateway (frSrc m.frame) = true) ∧ (b = slice m.frame 22 (frLen
      m.frame)) ∧ (leAt b 0 1 = 0x11) ∧ (leAt b 1 3 = 0) ∧ (1 ≤ leAt b 14 2) ∧ (leAt b 14 2 ≤ 346) ∧ (b.length = 20 + leAt b 14
      2) ∧ (leAt b 12 2 + leAt b 14 2 < 512) ∧ (s.upd.hasm = none))
      { gwSt with mac := { inbox := [cutItem (cutB 1 0 0 0 pz)] } } 5 (cutItem (cutB 1 0 0 0 pz)) (cutB 1 0 0 0 pz) := by decide +kernel

/-- A witness of clause 12 of DownloadsAreAcceptedFilledAndVerified. -/
theorem meets_DownloadsAreAcceptedFilledAndVerified_12 :
    (fun (s : State) (_dt gw : Nat) (d : FlashDl) (r : RouteEnt) =>
      (s.Settled) ∧ (s.upd.needNow = none) ∧ (s.download = some d) ∧ (d.air = some gw) ∧ (d.ranges ≠ []) ∧ (s.routeTo gw = some
      r))
      { dlSt base { hdr := hd1, bank := 1, air := some 0x1000 } {} with mac := { lanes := [(0, { st := .inService, startSf := some 1 })], routes := [rt0] } } 5 0x1000 { hdr := hd1, bank := 1, air := some 0x1000 } rt0 := by decide +kernel

/-- A witness of clause 13 of DownloadsAreAcceptedFilledAndVerified. -/
theorem meets_DownloadsAreAcceptedFilledAndVerified_13 :
    (fun (s : State) (_dt n : Nat) (d : FlashDl) =>
      (s.Settled) ∧ (s.upd.running = [n]) ∧ (s.download = some d) ∧ (s.dry.pfw = false) ∧ (d.sectors = []) ∧ (n = 0) ∧
      (d.hdr.sectors = 1) ∧ (s.Room (s.evtCq 0x1401)))
      (dlSt (rings base) { hdr := hd1, bank := 1 } { running := [0], held := [(0, pz), (1, pz)] }) 5 0 { hdr := hd1, bank := 1 } := by decide +kernel

/-- A witness of clause 14 of DownloadsAreAcceptedFilledAndVerified. -/
theorem meets_DownloadsAreAcceptedFilledAndVerified_14 :
    (fun (s : State) (_dt n fails : Nat) (d : FlashDl) =>
      (s.upd.running = [n]) ∧ (s.download = some d) ∧ (s.dry.pfw = false) ∧ (2 ≤ fails) ∧ (s.upd.verify = none) ∧ (s.Room
      (s.evtCq 0x1405)))
      (dlSt (rings base) { hdr := hd1, bank := 1 } { running := [0], held := [(0, pz), (1, pz)] }) 5 0 2 { hdr := hd1, bank := 1 } := by decide +kernel

/-- A witness of clause 15 of DownloadsAreAcceptedFilledAndVerified. -/
theorem meets_DownloadsAreAcceptedFilledAndVerified_15 :
    (fun (s : State) (h : Nat) (l : Live) (d : FlashDl) =>
      (s.Settled) ∧ (s.Runs h 0xB2 l) ∧ (s.upd.verify = none) ∧ (s.download = some d) ∧ (d.hdr.sub = l.p 0 1) ∧ (d.complete =
      true))
      (dlSt ({ rings base with hif := { (rings base).hif with live := [{ lv 0xB2 ([1, 0, 0, 0]) with entry := leBytes 0xB2 16 ++ leBytes 0 8 ++ slice ([1, 0, 0, 0]) 0 40 }] } }) { hdr := hd0, bank := 1 } {}) 7 { lv 0xB2 ([1, 0, 0, 0]) with entry := leBytes 0xB2 16 ++ leBytes 0 8 ++ slice ([1, 0, 0, 0]) 0 40 } { hdr := hd0, bank := 1 } := by decide +kernel

/-- A witness of clause 16 of DownloadsAreAcceptedFilledAndVerified. -/
theorem meets_DownloadsAreAcceptedFilledAndVerified_16 :
    (fun (s : State) (h : Nat) (l : Live) (d : FlashDl) =>
      (s.Settled) ∧ (s.Runs h 0xB2 l) ∧ (s.upd.verify = none) ∧ (s.download = some d) ∧ (d.hdr.sub ≠ l.p 0 1 ∨ d.complete =
      false))
      (dlSt ({ rings base with hif := { (rings base).hif with live := [{ lv 0xB2 ([1, 0, 0, 0]) with entry := leBytes 0xB2 16 ++ leBytes 0 8 ++ slice ([1, 0, 0, 0]) 0 40 }] } }) { hdr := hd1, bank := 1 } {}) 7 { lv 0xB2 ([1, 0, 0, 0]) with entry := leBytes 0xB2 16 ++ leBytes 0 8 ++ slice ([1, 0, 0, 0]) 0 40 } { hdr := hd1, bank := 1 } := by decide +kernel

/-- A witness of clause 17 of DownloadsAreAcceptedFilledAndVerified. -/
theorem meets_DownloadsAreAcceptedFilledAndVerified_17 :
    (fun (s : State) (_dt h : Nat) (l : Live) (d : FlashDl) =>
      (s.Settled) ∧ (s.upd.verify = some h) ∧ (s.download = some d) ∧ (sha256 d.body = d.hdr.hash) ∧ (s.Waits h l))
      (dlSt (host 0xB2 []) { hdr := hd0, bank := 1 } { verify := some 7 }) 5 7 (lv 0xB2 []) { hdr := hd0, bank := 1 } := by decide +kernel

/-- A witness of clause 18 of DownloadsAreAcceptedFilledAndVerified. -/
theorem meets_DownloadsAreAcceptedFilledAndVerified_18 :
    (fun (s : State) (_dt h : Nat) (ok : Bool) (l : Live) (d : FlashDl) =>
      (s.Settled) ∧ (s.upd.verify = some h) ∧ (s.download = some d) ∧ (ok = false ∨ sha256 d.body ≠ d.hdr.hash) ∧ (s.Waits h l))
      (dlSt (host 0xB2 []) { hdr := hd0, bank := 1 } { verify := some 7 }) 5 7 false (lv 0xB2 []) { hdr := hd0, bank := 1 } := by decide +kernel

/-- A witness of clause 1 of ActivationsPauseTrialsEndAndKeysAreRevoked. -/
theorem meets_ActivationsPauseTrialsEndAndKeysAreRevoked_1 :
    (fun (s : State) (h : Nat) (l : Live) (d : FlashDl) =>
      (s.Settled) ∧ (s.Runs h 0xB3 l) ∧ (s.saf.run = .run ∨ s.saf.run = .fleetStop ∨ s.saf.run = .safe ∨ s.saf.run = .standby) ∧
      (l.p 0 1 = 1) ∧ (s.upd.act = none) ∧ (s.download = some d) ∧ (d.hdr.sub = 1) ∧ (d.verified = true) ∧ (sha256 d.body =
      d.hdr.hash) ∧ (d.bank ≠ (s.sel 1).bank))
      (dlSt ({ rings base with hif := { (rings base).hif with live := [{ lv 0xB3 ([1]) with entry := leBytes 0xB3 16 ++ leBytes 0 8 ++ slice ([1]) 0 40 }] } }) { hdr := hd0, bank := 1, verified := true } {}) 7 { lv 0xB3 ([1]) with entry := leBytes 0xB3 16 ++ leBytes 0 8 ++ slice ([1]) 0 40 } { hdr := hd0, bank := 1, verified := true } := by decide +kernel

/-- A witness of clause 2 of ActivationsPauseTrialsEndAndKeysAreRevoked. -/
theorem meets_ActivationsPauseTrialsEndAndKeysAreRevoked_2 :
    (fun (s : State) (h : Nat) (ok : Bool) (l : Live) (d : FlashDl) =>
      (s.Settled) ∧ (s.Runs h 0xB3 l) ∧ (s.saf.run = .fleetStop ∨ s.saf.run = .standby) ∧ (s.upd.act = none) ∧ (s.download =
      some d) ∧ (d.hdr.sub = l.p 0 1) ∧ (d.verified = true) ∧ (ok = false ∨ sha256 d.body ≠ d.hdr.hash))
      { dlSt (hostLen 0xB3 0 [1]) { hdr := hd0, bank := 1, verified := true } {} with saf := { base.saf with run := .fleetStop } } 7 false (lvLen 0xB3 0 [1]) { hdr := hd0, bank := 1, verified := true } := by decide +kernel

/-- A witness of clause 3 of ActivationsPauseTrialsEndAndKeysAreRevoked. -/
theorem meets_ActivationsPauseTrialsEndAndKeysAreRevoked_3 :
    (fun (s : State) (h : Nat) (_ok : Bool) (l : Live) =>
      (s.Settled) ∧ (s.Runs h 0xB3 l) ∧ (s.saf.run = .fleetStop) ∧ (s.upd.act = none) ∧ (s.download.all (fun d => d.hdr.sub !=
      l.p 0 1 || !d.verified) = true))
      { dlSt ({ rings base with hif := { (rings base).hif with live := [{ lv 0xB3 ([1]) with entry := leBytes 0xB3 16 ++ leBytes 0 8 ++ slice ([1]) 0 40 }] } }) { hdr := hd0, bank := 1 } {} with saf := { base.saf with run := .fleetStop } } 7 true { lv 0xB3 ([1]) with entry := leBytes 0xB3 16 ++ leBytes 0 8 ++ slice ([1]) 0 40 } := by decide +kernel

/-- A witness of clause 4 of ActivationsPauseTrialsEndAndKeysAreRevoked. -/
theorem meets_ActivationsPauseTrialsEndAndKeysAreRevoked_4 :
    (fun (s : State) (h : Nat) (_ok : Bool) (l : Live) =>
      (s.Settled) ∧ (s.Runs h 0xB3 l) ∧ (s.saf.run = .run) ∧ (l.p 0 1 = 5))
      ({ rings base with hif := { (rings base).hif with live := [{ lv 0xB3 ([5]) with entry := leBytes 0xB3 16 ++ leBytes 0 8 ++ slice ([5]) 0 40 }] } }) 7 true { lv 0xB3 ([5]) with entry := leBytes 0xB3 16 ++ leBytes 0 8 ++ slice ([5]) 0 40 } := by decide +kernel

/-- A witness of clause 5 of ActivationsPauseTrialsEndAndKeysAreRevoked. -/
theorem meets_ActivationsPauseTrialsEndAndKeysAreRevoked_5 :
    (fun (s : State) (a : Activation) =>
      (s.Settled) ∧ (s.upd.act = some a) ∧ (s.upd.pause = none) ∧ (s.saf.run = .run) ∧ (s.dry.frozen = false) ∧ (s.Room (s.evtCq
      0x1101)))
      { rings base with upd := { act := some (actA false), armed := some 1 } } (actA false) := by decide +kernel

/-- A witness of clause 6 of ActivationsPauseTrialsEndAndKeysAreRevoked. -/
theorem meets_ActivationsPauseTrialsEndAndKeysAreRevoked_6 :
    (fun (s : State) (a : Activation) =>
      (s.Settled) ∧ (s.upd.act = some a) ∧ (s.upd.pause = none) ∧ (s.saf.run = .safe))
      { base with saf := { base.saf with run := .safe }, upd := { act := some { actA false with sub := 4 } } } { actA false with sub := 4 } := by decide +kernel

/-- A witness of clause 7 of ActivationsPauseTrialsEndAndKeysAreRevoked. -/
theorem meets_ActivationsPauseTrialsEndAndKeysAreRevoked_7 :
    (fun (s : State) (_dt p h : Nat) (a : Activation) (l : Live) =>
      (s.todo = []) ∧ (s.upd.act = some a) ∧ (s.upd.pause = some p) ∧ (a.revert = false) ∧ (a.handle = some h) ∧ (a.sub = 4) ∧
      (p = 4) ∧ (s.upd.due = []) ∧ (s.saf.run = .safe) ∧ (s.nv.upd.dl = none) ∧ (s.Waits h l) ∧ (s.ben.apply_ = none) ∧
      (s.ben.heldWrites = []) ∧ (s.par.role ≠ .standby) ∧ (s.Room (s.evtCq 0x1404)))
      { host 0xB3 [] with saf := { base.saf with run := .safe }, upd := { act := some { actA false with sub := 4 }, pause := some 4, pauseAt := 0x1_0000_0000 } } 5 4 7 { actA false with sub := 4 } (lv 0xB3 []) := by decide +kernel

/-- A witness of clause 8 of ActivationsPauseTrialsEndAndKeysAreRevoked. -/
theorem meets_ActivationsPauseTrialsEndAndKeysAreRevoked_8 :
    (fun (s : State) (h : Nat) (l : Live) =>
      (s.Settled) ∧ (s.Runs h 0xB4 l) ∧ ((s.sel (l.p 0 1)).trial = true) ∧ (s.upd.due = []))
      (triSt ({ rings base with hif := { (rings base).hif with live := [{ lv 0xB4 ([1]) with entry := leBytes 0xB4 16 ++ leBytes 0 8 ++ slice ([1]) 0 40 }] } })) 7 { lv 0xB4 ([1]) with entry := leBytes 0xB4 16 ++ leBytes 0 8 ++ slice ([1]) 0 40 } := by decide +kernel

/-- A witness of clause 9 of ActivationsPauseTrialsEndAndKeysAreRevoked. -/
theorem meets_ActivationsPauseTrialsEndAndKeysAreRevoked_9 :
    (fun (s : State) (h : Nat) (l : Live) =>
      (s.Settled) ∧ (s.Runs h 0xB4 l) ∧ ((s.sel (l.p 0 1)).trial = false))
      ({ rings base with hif := { (rings base).hif with live := [{ lv 0xB4 ([1]) with entry := leBytes 0xB4 16 ++ leBytes 0 8 ++ slice ([1]) 0 40 }] } }) 7 { lv 0xB4 ([1]) with entry := leBytes 0xB4 16 ++ leBytes 0 8 ++ slice ([1]) 0 40 } := by decide +kernel

/-- A witness of clause 10 of ActivationsPauseTrialsEndAndKeysAreRevoked. -/
theorem meets_ActivationsPauseTrialsEndAndKeysAreRevoked_10 :
    (fun (s : State) (b u : Nat) =>
      (s.fld (0x14014, 0, 12) ≠ 0) ∧ (s.trials = [(b, u)]) ∧ (b ≠ 5) ∧ (s.upd.act = none) ∧ (s.upd.due = []) ∧ (s.saf.run ≠
      .boot) ∧ (s.saf.run ≠ .off) ∧ (s.Room (s.evtCq 0x1403)))
      { triSt (fl (rings base) (0x14014, 0, 12) 144) with upd := { running_ := [(1, (1, 5))] } } 1 (600 * cycHz * 144) := by decide +kernel

/-- A witness of clause 11 of ActivationsPauseTrialsEndAndKeysAreRevoked. -/
theorem meets_ActivationsPauseTrialsEndAndKeysAreRevoked_11 :
    (fun (s : State) (h : Nat) (l : Live) (d : FlashDl) =>
      (s.Settled) ∧ (s.Runs h 0xB5 l) ∧ (s.upd.failed = none) ∧ (s.download = some d))
      (dlSt ({ rings base with hif := { (rings base).hif with live := [{ lv 0xB5 ([1]) with entry := leBytes 0xB5 16 ++ leBytes 0 8 ++ slice ([1]) 0 40 }] } }) { hdr := hd1, bank := 1 } {}) 7 { lv 0xB5 ([1]) with entry := leBytes 0xB5 16 ++ leBytes 0 8 ++ slice ([1]) 0 40 } { hdr := hd1, bank := 1 } := by decide +kernel

/-- A witness of clause 12 of ActivationsPauseTrialsEndAndKeysAreRevoked. -/
theorem meets_ActivationsPauseTrialsEndAndKeysAreRevoked_12 :
    (fun (s : State) (h : Nat) (l : Live) =>
      (s.Settled) ∧ (s.Runs h 0xB5 l) ∧ (s.upd.failed = none) ∧ (s.download = none))
      ({ rings base with hif := { (rings base).hif with live := [{ lv 0xB5 ([1]) with entry := leBytes 0xB5 16 ++ leBytes 0 8 ++ slice ([1]) 0 40 }] } }) 7 { lv 0xB5 ([1]) with entry := leBytes 0xB5 16 ++ leBytes 0 8 ++ slice ([1]) 0 40 } := by decide +kernel

/-- Ill-formed commands, one for each check of `Instr.wf`, are refused by it. -/
theorem test_wf_refuses_1 : ([
    .rstNRelease 0 { ranks := 3 }, .rstNRelease 0 { blocks := 4, used0 := 5 }, .rstNRelease 0 { blocks := 4, used1 := 5 },
    .timeMeasurement 0 1 0, .ppsInEdge 0 1100 true, .timeCaptureEdge 0 9 0 true, .timeCaptureEdge 0 0 1100 true,
    .captureStart 9, .captureEnd 9, .timCapnLoRead 9, .outputArm 0 4 0, .outputCancel 0 4 0, .timedOutputFire 4,
    .spClkLoss 0 6, .spClkReturn 0 6, .spClkCheck 0 6 0 true [], .spStuck 0 6, .calibrationDone 0 [],
    .correlatorParityError 0 13, .localSnapshot [], .recheckRequest 256, .positionRecord 0 8, .largeSearchDone 0 8,
    .largeSearchAbandon 8, .engineFault 0 8, .rtkResetProgress 256, .rtkResetTimeout 256, .leaseSuspect 256, .leaseDead 256,
    .tStopped 256, .admitTimeout 256, .zombieSilence 256] : List Instr).all (fun i => !i.wf) = true := by decide +kernel

/-- Ill-formed commands, one for each check of `Instr.wf`, are refused by it. -/
theorem test_wf_refuses_2 : ([
    .admitOfferRepeat 256, .confirmRepeat 256, .robotPairComputation 0 256, .axisLoopSample 0 24 0, .deadlineMiss 0 536,
    .limitTrip 0 24 false, .latchRelease 0 24 false, .homeEvent 0 24 0, .homingPhaseEnd 0 24, .homeNotFound 24,
    .encoderError 0 24, .targetReached 24, .rampStopEnd 24, .hedgeEdge 0 24, .standstill 24, .enDelayEnd 24,
    .axisEnable 0 24 0, .frameTransmit 6 false false, .frameReceive 0 6 0 0 [], .frameReceive 0 0 5 0 [],
    .frameReceive 0 0 512 0 [0], .keyWrite 0 16 0 0, .keyWrite 0 0 4 0, .queuePush 0 128 (wd 0) 0 false,
    .queuePush 0 0 (wd (2 ^ 64)) 0 false, .queuePush 0 0 { wd 0 with type_ := 16 } 0 false, .queuePop 0 128 false,
    .spillRefill 0 128, .qfcMinAssertExpiry 8, .directWrite 0 2 0, .directWrite 0 0x40000 0, .monitorSelfCheckFail 0 8 0] : List Instr).all (fun i => !i.wf) = true := by decide +kernel

/-- Ill-formed commands, one for each check of `Instr.wf`, are refused by it. -/
theorem test_wf_refuses_3 : ([
    .monitorRecalibration 0 8 0, .planningHeartbeat 0 4, .faultEvent 0 192, .faultLevelClear 0 192, .windowExpiry 192,
    .quietExpiry 192, .injectionCheck 192 false, .forcePulse 192, .fltForceWrite 0 6 0, .regionFail 0 2 0 0 0, .dramCe 0 2,
    .dramUe 0 2 0, .rankMigrationDone 0 2, .temperatureThreshold 0 8 0, .sqTail 0 32 0, .cqHead 0 32 0,
    .submissionFetch 0 32 none [] [], .submissionFetch 0 0 (some []) [] [], .holdBufferDrain 32, .msiXCoalesce 32,
    .hostReturn 0 0 1, .hostReturn 0 4 1, .hostReturn 0 1 3, .sqEnSet 0 32 0, .sqEnClear 0 32 0, .cqEnSet 0 32 0,
    .cqEnClear 0 32 0, .hostLocalSnapshot 0 [] false, .msixVectorUnmask 0 64] : List Instr).all (fun i => !i.wf) = true := by decide +kernel

/-- The same commands with the largest good operands are well formed. -/
theorem test_wf_takes_0 : ([
    .rstNRelease 0 {}, .timeMeasurement 0 0 0, .timeMeasurement 0 2 0, .ppsInEdge 0 1099 false,
    .timeCaptureEdge 0 8 1099 false, .captureStart 8, .captureEnd 8, .timCapnLoRead 8, .outputArm 0 3 0, .outputCancel 0 3 0,
    .timedOutputFire 3, .spClkLoss 0 5, .spClkReturn 0 5, .spClkCheck 0 5 0 false [], .spStuck 0 5,
    .calibrationDone 0 [(0, 0), (1, 0), (0, 2)], .correlatorParityError 0 12, .recheckRequest 255, .positionRecord 0 7,
    .largeSearchDone 0 7, .largeSearchAbandon 7, .engineFault 0 7, .rtkResetProgress 255, .rtkResetTimeout 255,
    .leaseSuspect 255, .leaseDead 255, .tStopped 255, .admitTimeout 255, .zombieSilence 255, .admitOfferRepeat 255,
    .confirmRepeat 255, .robotPairComputation 0 255, .axisLoopSample 0 23 0, .deadlineMiss 0 535, .limitTrip 0 23 false,
    .latchRelease 0 23 false, .homeEvent 0 23 0, .homingPhaseEnd 0 23, .homeNotFound 23, .encoderError 0 23,
    .targetReached 23, .rampStopEnd 23] : List Instr).all Instr.wf = true := by decide +kernel

/-- The same commands with the largest good operands are well formed. -/
theorem test_wf_takes_1 : ([
    .hedgeEdge 0 23, .standstill 23, .enDelayEnd 23, .axisEnable 0 23 0, .frameTransmit 5 false false,
    .frameReceive 0 5 4 0 [0, 0, 0, 0], .frameReceive 0 5 512 0 [], .keyWrite 0 15 3 0,
    .queuePush 0 127 (wd (2 ^ 64 - 1)) 0 false, .queuePop 0 127 false, .spillRefill 0 127, .qfcMinAssertExpiry 7,
    .directWrite 0 0x3FFFC 0, .monitorSelfCheckFail 0 7 0, .monitorRecalibration 0 7 0, .planningHeartbeat 0 3,
    .faultEvent 0 191, .faultLevelClear 0 191, .windowExpiry 191, .quietExpiry 191, .injectionCheck 191 false,
    .forcePulse 191, .fltForceWrite 0 5 0, .regionFail 0 1 0 0 0, .dramCe 0 1, .dramUe 0 1 0, .rankMigrationDone 0 1,
    .temperatureThreshold 0 7 0, .sqTail 0 31 0, .cqHead 0 31 0, .submissionFetch 0 31 (some (List.replicate 64 0)) [] [],
    .holdBufferDrain 31, .msiXCoalesce 31, .hostReturn 0 3 2, .sqEnSet 0 31 0, .sqEnClear 0 31 0, .cqEnSet 0 31 0,
    .cqEnClear 0 31 0, .hostLocalSnapshot 0 (List.replicate 40920 0) false, .msixVectorUnmask 0 63] : List Instr).all Instr.wf = true := by decide +kernel

/-- CRC-32C of the nine digits, the check value that is published with the polynomial R473 names. -/
theorem test_crc32c : crc32c [0x31, 0x32, 0x33, 0x34, 0x35, 0x36, 0x37, 0x38, 0x39] = 0xE3069283 := by decide +kernel

/-- SHA-256 of the message abc, the first example of FIPS 180-4, which R475 names. -/
theorem test_sha256 : (sha256 [0x61, 0x62, 0x63]).take 8 = [0xBA, 0x78, 0x16, 0xBF, 0x8F, 0x01, 0xCF, 0xEA] := by decide +kernel

/-- Slot 2,000 begins at 4 s, and slotframe 40 with it; slot 1 begins at the first tick not before 2 ms (R42). -/
theorem test_slots : slotStart 2000 = 4 * 1073741824 ∧ slotframeOf (4 * 1073741824) = 40 ∧ slotStart 1 = 2147484 := by decide +kernel

/-- A short NT is expanded to the nearest full NT, forward and back over a wrap of its 48 bits (R40, R41). -/
theorem test_short_nt : expandNt 0x1_FFFF_FFFF_FFFF 5 = 0x2_0000_0000_0005 ∧ expandNt 0x2_0000_0000_0005 0xFFFF_FFFF_FFFF = 0x1_FFFF_FFFF_FFFF := by decide +kernel

/-- Power-on enters BOOT with NT at 0 and both latches set (R26, POWER_ON). -/
theorem test_power_on : (match step { State.reset with pending := [.powerOn false] } with
    | .next t => decide (t.saf.run = .boot ∧ t.nt = 0 ∧ t.saf.latchA = true ∧ t.saf.latchB = true ∧ t.pending = []) | _ => false) = true := by decide +kernel

/-- A submission ring whose base is not aligned stays disabled with ERR 1 (R368, R388). -/
theorem test_ring_misaligned : (match exec (.sqEnSet 0 3 0x10005) (rg (rings base) 0x2160 0x800) with
    | .next t => decide ((t.sq 3).err = 1 ∧ t.flag (sqEn 3) = false) | _ => false) = true := by decide +kernel

/-- A stop input that falls in RUN sets its latch and stops the fleet (R418, R420). -/
theorem test_stop_in : (match exec (.stopInFall 1 false 5000) base with
    | .next t => decide (t.saf.latchA = true ∧ t.saf.latchB = false ∧ t.saf.run = .fleetStop) | _ => false) = true := by decide +kernel

/-- The wrong key of SAF_STOP_CLR clears nothing, the right one both latches (R422). -/
theorem test_stop_clr : (match exec (.safStopClr 1 0xC1EB) { base with saf := { base.saf with run := .fleetStop, latchA := true, latchB := true } },
      exec (.safStopClr 1 0xC1EA) { base with saf := { base.saf with run := .fleetStop, latchA := true, latchB := true } } with
    | .next t, .next u => decide (t.saf.latchA = true ∧ t.saf.latchB = true ∧ u.saf.latchA = false ∧ u.saf.latchB = false) | _, _ => false) = true := by decide +kernel

/-- The example of FIPS 197 appendix B: one block of AES-128, on which R322's protection rests. -/
theorem test_aes : (aesBlock (roundKeys [0x2b, 0x7e, 0x15, 0x16, 0x28, 0xae, 0xd2, 0xa6, 0xab, 0xf7, 0x15, 0x88, 0x09, 0xcf, 0x4f, 0x3c])
    [0x32, 0x43, 0xf6, 0xa8, 0x88, 0x5a, 0x30, 0x8d, 0x31, 0x31, 0x98, 0xa2, 0xe0, 0x37, 0x07, 0x34]) =
    [0x39, 0x25, 0x84, 0x1d, 0x02, 0xdc, 0x09, 0xfb, 0xdc, 0x11, 0x85, 0x97, 0x19, 0x6a, 0x0b, 0x32] := by decide +kernel

end Sys2Proof.Tests
end

/-! ### Host commands that only begin, or are only refused -/
namespace Sys2Proof.Machine

/-- Marking a command begun changes the outputs, which start empty, and the host interface. -/
theorem frame_begin_markStarted (s : Dev) (h : Nat) : Frame [.out, .hif] s (s.begin.markStarted h) := fun p hp => by
  cases p <;> simp at hp <;> rfl

theorem frame_withGns (s : Dev) (g : Gns) : Frame [.gns] s { s with gns := g } := fun p hp => by
  cases p <;> simp at hp <;> rfl

/-- What changes neither the reactions that wait nor the diary leaves a settled device settled. -/
theorem Dev.Settled.of_frame {a : List Area} {s t : Dev} (hs : s.Settled) (hf : Frame a s t) (ht : .todo ∉ a)
    (hd : .dry ∉ a) : t.Settled := by
  have htodo : t.todo = s.todo := hf .todo ht
  have hdry : t.dry = s.dry := hf .dry hd
  exact ⟨htodo.trans hs.1, by rw [hdry]; exact hs.2⟩

/-- A command that runs carries the handle and the operation it was called with. -/
theorem Dev.Runs.handle_eq {s : Dev} {h op : Nat} {l : Live} (hr : s.Runs h op l) : l.handle = h :=
  Dev.live?_handle (Dev.startable_live hr.1).1

/-- Marking a command that runs begun begins it. -/
theorem Dev.Runs.begun {s : Dev} {h op : Nat} {l : Live} (hr : s.Runs h op l) : (s.begin.markStarted h).Begun l := by
  obtain rfl := hr.handle_eq
  exact Dev.live?_markStarted (Dev.startable_live hr.1).1

section Command
variable {c : Instr} {s : State} {h op : Nat} {l : Live} {k : Live → Dev → Dev}
  (he : exec c s = s.act fun d => d.command h op k) (hs : s.Settled) (hr : s.Runs h op l)
include he hs hr

/-- A host command that runs and leaves nothing to settle completes with its own effect. -/
theorem Completes.of_command {a : List Area} {u : Dev} {P : Dev → Prop} (hk : k l (s.begin.markStarted h) = u)
    (hf : Frame a s.toDev u) (ht : .todo ∉ a) (hd : .dry ∉ a) (hp : P u) : Completes c s P := by
  have hu : settle (s.command h op k) = u := by
    rw [Dev.command_eq k hr, hk, settle_of_settled u (Dev.Settled.of_frame hs hf ht hd)]
  exact ⟨{ toDev := u, pending := s.pending }, by rw [he, State.act_eq, hu], rfl, hp⟩

/-- A host command that only sets fields of the GNSS unit begins, and changes nothing else. -/
theorem Completes.begun_withGns {g : Gns} (hk : k l (s.begin.markStarted h) = { s.begin.markStarted h with gns := g }) :
    Completes c s fun t => t.Begun l ∧ t.gns = g ∧ Frame [.out, .hif, .gns] s.toDev t := by
  have hf : Frame [.out, .hif, .gns] s.toDev { s.begin.markStarted h with gns := g } :=
    .two (by decide) (by decide) (frame_begin_markStarted _ h) (frame_withGns _ g)
  exact .of_command he hs hr hk hf (by decide) (by decide) ⟨hr.begun, rfl, hf⟩

/-- A host command that is only refused is answered with the general code, and changes nothing. -/
theorem Completes.refused {code : Nat} {o : Option Nat}
    (hk : k l (s.begin.markStarted h) = (s.begin.markStarted h).refuse h code o) :
    Completes c s fun t => t.Answered l code (offsetRes o) ∧ Frame [.out, .hif] s.toDev t := by
  have hf : Frame [.out, .hif] s.toDev ((s.begin.markStarted h).refuse h code o) :=
    (frame_begin_markStarted _ h).trans ((frame_done _ h code _).mono (by decide))
  exact .of_command he hs hr hk hf (by decide) (by decide) ⟨Dev.run_done code _ hr, hf⟩

end Command

/-- No check of a list fails when all hold. -/
theorem firstBad_eq_none {l : List (Bool × Nat)} (h : ∀ p ∈ l, p.1 = true) : firstBad l = none := by
  have hnil : (l.filter fun p => !p.1) = [] := List.filter_eq_nil_iff.2 fun p hp => by simp [h p hp]
  simp [firstBad, hnil]

/-! ### Commands that move the base (R91, R93) -/

@[simp] theorem Dev.baseMayMove_begin_markStarted (s : Dev) (h : Nat) :
    (s.begin.markStarted h).baseMayMove = s.baseMayMove := rfl

@[simp] theorem Dev.antB_begin_markStarted (s : Dev) (h : Nat) : (s.begin.markStarted h).antB = s.antB := rfl

@[simp] theorem Dev.gns_begin_markStarted (s : Dev) (h : Nat) : (s.begin.markStarted h).gns = s.gns := rfl

theorem Dev.baseMayMove_of_standing {s : Dev}
    (h : s.saf.run = .fleetStop ∨ s.saf.run = .safe ∨ s.saf.run = .standby ∨ s.saf.run = .boot) : s.baseMayMove = true := by
  rcases h with h | h | h | h <;> simp [Dev.baseMayMove, h]

theorem Dev.baseMayMove_of_moving {s : Dev} (h : s.saf.run = .run ∨ s.saf.run = .updatePause) : s.baseMayMove = false := by
  rcases h with h | h <;> simp [Dev.baseMayMove, h]

/-- The optional data of a GNSS_SURVEY_START is long enough, so its length is not refused. -/
theorem surveyLen_ok {n : Nat} (h : n = 0 ∨ 32 ≤ n) : (decide (n ≠ 0) && decide (n < 32)) = false := by
  rcases h with rfl | h
  · rfl
  · simp [Nat.not_lt.2 h]

/-- A legal buffer passes every check of its layout, if it gives no baseline to a part without antenna B. -/
theorem BaseLegal.checks_pass {b : List Byte} (hb : BaseLegal b) {antB : Bool}
    (ha : bitAt (leAt b 27 1) 0 = true → antB = true) :
    firstBad [(decide (leAt b 26 1 ≤ 63), 90), (decide (leAt b 27 1 < 4), 91), (!bitAt (leAt b 27 1) 0 || antB, 91),
      (zeros b 42 6, 106), (((b.drop 48).take 31).all (fun x => decide (x.toNat < 128)) && leAt b 79 1 == 0, 112),
      (((b.drop 80).take 31).all (fun x => decide (x.toNat < 128)) && leAt b 111 1 == 0, 144), (zeros b 112 16, 176)] = none := by
  obtain ⟨hyear, hflags, hres, ⟨hdesc, hdescEnd⟩, ⟨hser, hserEnd⟩, htail⟩ := hb
  have hbl : (!bitAt (leAt b 27 1) 0 || antB) = true := by
    cases h : bitAt (leAt b 27 1) 0
    · rfl
    · exact ha h
  refine firstBad_eq_none fun p hp => ?_
  simp only [List.mem_cons, List.not_mem_nil, or_false] at hp
  rcases hp with rfl | rfl | rfl | rfl | rfl | rfl | rfl
  · exact decide_eq_true hyear
  · exact decide_eq_true hflags
  · exact hbl
  · exact hres
  · exact Bool.and_eq_true_iff.2 ⟨hdesc, beq_iff_eq.2 hdescEnd⟩
  · exact Bool.and_eq_true_iff.2 ⟨hser, beq_iff_eq.2 hserEnd⟩
  · exact htail

section Survey
variable {s : State} {h : Nat} {l : Live}

/-- While the fleet stands and no survey runs, GNSS_SURVEY_START begins one (R91, R92). -/
theorem gnssSurveyStart_begins (hs : s.Settled) (hr : s.Runs h 0x20 l) (hlen : l.len = 0 ∨ 32 ≤ l.len)
    (hrun : s.saf.run = .fleetStop ∨ s.saf.run = .safe ∨ s.saf.run = .standby ∨ s.saf.run = .boot)
    (hnone : s.gns.survey = none) :
    Completes (.gnssSurveyStart h) s fun t => t.Begun l ∧ t.gns = { s.gns with
        std := 0xFFFFFFFF
        survey := some { handle := h, start := s.nt, minS := l.p 0 4, acc := l.p 4 4, maxS := l.p 8 4, out := l.len != 0
                         nextAt := ntAdd s.nt ((10 * tickHz : Nat) : Int) } } ∧ Frame [.out, .hif, .gns] s.toDev t := by
  refine .begun_withGns rfl hs hr ?_
  simp only [surveyLen_ok hlen, Dev.baseMayMove_begin_markStarted, Dev.baseMayMove_of_standing hrun, Dev.gns_begin_markStarted,
    hnone, Bool.not_true, Option.isSome_none, Bool.or_false, Bool.false_eq_true, if_false]
  rfl

/-- In a run state in which the fleet may move, GNSS_SURVEY_START is refused (R91). -/
theorem gnssSurveyStart_busy (hs : s.Settled) (hr : s.Runs h 0x20 l) (hlen : l.len = 0 ∨ 32 ≤ l.len)
    (hrun : s.saf.run = .run ∨ s.saf.run = .updatePause) :
    Completes (.gnssSurveyStart h) s fun t => t.Answered l stBusy (offsetRes none) ∧ Frame [.out, .hif] s.toDev t := by
  refine .refused rfl hs hr ?_
  simp only [surveyLen_ok hlen, Dev.baseMayMove_begin_markStarted, Dev.baseMayMove_of_moving hrun, Bool.not_false,
    Bool.true_or, Bool.false_eq_true, if_false, if_true]

end Survey

section SetBase
variable {s : State} {h : Nat} {l : Live} {b : List Byte}

/-- While the fleet stands, GNSS_SET_BASE leaves a plausible position to be adopted (R91, R93). -/
theorem gnssSetBase_begins (hs : s.Settled) (hr : s.Runs h 0x21 l) (hb : BaseLegal b)
    (hbl : bitAt (leAt b 27 1) 0 = false ∨ s.antB = true ∧ baselineOk (leAtS b 28 4, leAtS b 32 4, leAtS b 36 4) = true)
    (hrun : s.saf.run = .fleetStop ∨ s.saf.run = .safe ∨ s.saf.run = .standby ∨ s.saf.run = .boot)
    (hadopt : s.gns.adopt = none) (hsurvey : s.gns.survey = none)
    (hlive : s.gns.live.all (fun p => bitAt (leAt b 27 1) 1 || !implausible p (leAtS b 0 8, leAtS b 8 8, leAtS b 16 8)) = true) :
    Completes (.gnssSetBase h (some b)) s fun t => t.Begun l ∧ t.gns = { s.gns with
        adopt := some { handle := some h, kind := 3, pos := (leAtS b 0 8, leAtS b 8 8, leAtS b 16 8)
                        bl := if bitAt (leAt b 27 1) 0 then some (leAtS b 28 4, leAtS b 32 4, leAtS b 36 4) else none
                        arp := some (leAt b 24 2, leAt b 40 2 + 65536 * leAt b 26 1, slice b 48 64)
                        check := s.gns.live.isNone && !bitAt (leAt b 27 1) 1 } } ∧ Frame [.out, .hif, .gns] s.toDev t := by
  have hantB : bitAt (leAt b 27 1) 0 = true → s.antB = true := fun hset =>
    hbl.elim (fun hclear => absurd hset (by simp [hclear])) And.left
  have hrange : (bitAt (leAt b 27 1) 0 && !baselineOk (leAtS b 28 4, leAtS b 32 4, leAtS b 36 4)) = false := by
    rcases hbl with hclear | ⟨_, hok⟩
    · simp [hclear]
    · simp [hok]
  refine .begun_withGns rfl hs hr ?_
  simp only [Dev.antB_begin_markStarted, hb.checks_pass hantB, Dev.baseMayMove_begin_markStarted,
    Dev.baseMayMove_of_standing hrun, Dev.gns_begin_markStarted, hadopt, hsurvey, hrange, Option.bind_none]
  cases hsol : s.gns.live with
  | none => simp
  | some p =>
    have hplausible : (!bitAt (leAt b 27 1) 1 && implausible p (leAtS b 0 8, leAtS b 8 8, leAtS b 16 8)) = false := by
      simpa [hsol, or_iff_not_imp_left] using hlive
    simp [hplausible]

/-- In a run state in which the fleet may move, GNSS_SET_BASE is refused (R91). -/
theorem gnssSetBase_busy (hs : s.Settled) (hr : s.Runs h 0x21 l) (hb : BaseLegal b)
    (hantB : bitAt (leAt b 27 1) 0 = true → s.antB = true) (hrun : s.saf.run = .run ∨ s.saf.run = .updatePause) :
    Completes (.gnssSetBase h (some b)) s fun t => t.Answered l stBusy (offsetRes none) ∧ Frame [.out, .hif] s.toDev t := by
  refine .refused rfl hs hr ?_
  simp only [Dev.antB_begin_markStarted, hb.checks_pass hantB, Dev.baseMayMove_begin_markStarted,
    Dev.baseMayMove_of_moving hrun, Bool.not_false, Bool.true_or, if_true]

end SetBase

/-- Settles O44: each command runs through its own checks, and the run state decides between begun and refused (R91). -/
theorem theBaseMovesOnlyUnderAStandingFleet : Obligations.TheBaseMovesOnlyUnderAStandingFleet :=
  ⟨fun _ _ _ => gnssSurveyStart_begins, fun _ _ _ => gnssSurveyStart_busy, fun _ _ _ _ => gnssSetBase_begins,
    fun _ _ _ _ => gnssSetBase_busy⟩

end Sys2Proof.Machine

/-! ### What settling leaves of the fault sources' levels -/
namespace Sys2Proof.Machine

theorem Frame.flt_eq {a : List Area} {s t : Dev} (h : Frame a s t) (ha : .flt ∉ a) : t.flt = s.flt := h .flt ha

@[simp] theorem Dev.preempt_flt (s : Dev) (c : Nat) : (s.preempt c).flt = s.flt := (frame_preempt s c).flt_eq (by decide)

@[simp] theorem Dev.cancelResume_flt (s : Dev) (c : Nat) : (s.cancelResume c).flt = s.flt :=
  (frame_cancelResume s c).flt_eq (by decide)

@[simp] theorem Dev.setRun_flt (s : Dev) (r : RunState) (w x : Nat) : (s.setRun r w x).flt = s.flt :=
  (frame_setRun s r w x).flt_eq (by decide)

@[simp] theorem Dev.axesFleetStop_flt (s : Dev) : s.axesFleetStop.flt = s.flt :=
  (Frame.foldl _ (fun s n => frame_axRamp s n _ _) _ s).flt_eq (by decide)

@[simp] theorem Dev.stopMotion_flt (s : Dev) (safe : Bool) : (s.stopMotion safe).flt = s.flt :=
  (frame_stopMotion s safe).flt_eq (by decide)

@[simp] theorem Dev.safeGate_flt (s : Dev) : s.safeGate.flt = s.flt := (frame_safeGate s).flt_eq (by decide)

@[simp] theorem Dev.loopsSafe_flt (s : Dev) : s.loopsSafe.flt = s.flt := (frame_loopsSafe s).flt_eq (by decide)

@[simp] theorem Dev.markSafe_flt (s : Dev) (n : Nat) (d : Bool) : (s.markSafe n d).flt = s.flt :=
  (frame_markSafe s n d).flt_eq (by decide)

@[simp] theorem Dev.drawNonce_flt (s : Dev) : s.drawNonce.flt = s.flt := (frame_drawNonce s).flt_eq (by decide)

@[simp] theorem Dev.note_flt (s : Dev) (c v : Nat) (b : List Byte) : (s.note c v b).flt = s.flt :=
  (frame_note s c v b).flt_eq (by decide)

@[simp] theorem Dev.event_flt (s : Dev) (c : Nat) (b : List Byte) : (s.event c b).flt = s.flt :=
  (frame_event s c b).flt_eq (by decide)

@[simp] theorem Dev.freeze_flt (s : Dev) (c : Nat) : (s.freeze c).flt = s.flt := (frame_freeze s c).flt_eq (by decide)

@[simp] theorem Dev.recordFault_flt (s : Dev) (n : Nat) (i : Bool) : (s.recordFault n i).flt = s.flt :=
  (frame_recordFault s n i).flt_eq (by decide)

@[simp] theorem Dev.react_flt (s : Dev) (n c : Nat) : (s.react n c).flt = s.flt := (frame_react s n c).flt_eq (by decide)

@[simp] theorem Dev.takeFreeze_flt (s : Dev) : s.takeFreeze.flt = s.flt := (frame_takeFreeze s).flt_eq (by decide)

/-- A fleet stop leaves the collector alone. -/
@[simp] theorem Dev.takeStop_flt (s : Dev) (c w r : Nat) : (s.takeStop c w r).flt = s.flt := by
  unfold Dev.takeStop
  split
  · simp
  · simp
  · split <;> simp
  · split <;> simp
  · rfl

/-- Entry to SAFE leaves the collector alone. -/
@[simp] theorem Dev.enterSafe_flt (s : Dev) (n : Nat) (d : Bool) (w : Nat) : (s.enterSafe n d w).flt = s.flt := by
  unfold Dev.enterSafe
  split <;> simp

/-- A SAFE reaction leaves the collector alone. -/
@[simp] theorem Dev.takeSafe_flt (s : Dev) (n : Nat) (d : Bool) : (s.takeSafe n d).flt = s.flt := by
  unfold Dev.takeSafe
  split
  · rfl
  · simp
  · split
    · dsimp only
      split <;> split <;> simp
    · simp
  · simp

theorem Dev.src_of_flt {s t : Dev} (h : t.flt = s.flt) (n : Nat) : t.src n = s.src n := by rw [Dev.src, h, Dev.src]

/-- Unless 0xBA is ACTIVE in `t`, it was not in `s` either, and every source has the level it had. A parity error of the
collector (0xBA) resets the sources (R439) and stays ACTIVE, so it is the one reaction that is left out. -/
def Dev.LevelsKept (s t : Dev) : Prop :=
  (t.src 0xBA).st ≠ .active → (s.src 0xBA).st ≠ .active ∧ ∀ n, (t.src n).level = (s.src n).level

theorem Dev.LevelsKept.of_flt {s t : Dev} (h : t.flt = s.flt) : s.LevelsKept t := fun hBA =>
  ⟨by rwa [← Dev.src_of_flt h], fun n => by rw [Dev.src_of_flt h]⟩

theorem Dev.LevelsKept.trans {s t u : Dev} (h : s.LevelsKept t) (k : t.LevelsKept u) : s.LevelsKept u := fun hBA =>
  have ⟨hBA', hk⟩ := k hBA
  have ⟨hBA'', hh⟩ := h hBA'
  ⟨hBA'', fun n => (hk n).trans (hh n)⟩

/-- Writing a source other than 0xBA with the level it has keeps the levels. -/
theorem Dev.LevelsKept.setSrc {s : Dev} {n : Nat} {x : Src} (hn : n ≠ 0xBA) (hx : x.level = (s.src n).level) :
    s.LevelsKept (s.setSrc n x) := fun hBA => by
  refine ⟨by simpa [hn.symm] using hBA, fun m => ?_⟩
  rw [Dev.src_setSrc]
  split
  · next h => rw [hx, h]
  · rfl

/-- One occurrence of a source changes no level, short of the reset of the collector (R432, R439). -/
theorem Dev.levelsKept_takeFault (s : Dev) (n : Nat) (i : Bool) : s.LevelsKept (s.takeFault n i) := by
  unfold Dev.takeFault
  dsimp only
  split
  · exact .of_flt (by simp)
  · split
    · next hn =>
      generalize hx : ({ s.collectorReset.src n with st := .active, times := _, quietAt := _ } : Src) = x
      refine fun hBA => absurd ?_ hBA
      rw [Dev.src_of_flt (s := s.collectorReset.setSrc n x) (by simp), Dev.src_setSrc, if_pos hn.symm, ← hx]
    · next hn =>
      generalize hx : ({ s.src n with st := _, times := _, quietAt := _ } : Src) = x
      refine (Dev.LevelsKept.setSrc hn (x := x) (by rw [← hx])).trans (.of_flt ?_)
      split
      · simp
      · split <;> simp

theorem Dev.levelsKept_settleOne (s : Dev) (t : Todo) : s.LevelsKept (s.settleOne t) := by
  cases t with
  | fault n i => exact s.levelsKept_takeFault n i
  | stop c w r => exact .of_flt (s.takeStop_flt c w r)
  | safe n d => exact .of_flt (s.takeSafe_flt n d)

theorem Dev.levelsKept_settleAll (k : Nat) (s : Dev) : s.LevelsKept (s.settleAll k) := by
  induction k generalizing s with
  | zero => exact .of_flt rfl
  | succ k ih =>
    unfold Dev.settleAll
    split
    · exact .of_flt rfl
    · next t rest _ =>
      have htodo : s.LevelsKept { s with todo := rest } := .of_flt rfl
      exact (htodo.trans (Dev.levelsKept_settleOne _ t)).trans (ih _)

/-- Settling changes no level, short of the reset of the collector: only the conditions of the sources and the force bits
move one (R432, R437). -/
theorem Dev.levelsKept_settle (s : Dev) : s.LevelsKept (settle s) :=
  (s.levelsKept_settleAll 4096).trans (.trans (.of_flt (Dev.takeFreeze_flt _)) (Dev.levelsKept_settleAll 4096 _))

/-! ### The host watchdog (R384) -/

/-- The device just reset, after a write of bit 30 of `FLT_FORCE3`, the force bit of source 0x7E (R437). -/
def State.hostSilentForced : State :=
  { toDev := settle ((State.reset.tick 0).setForce 3 0x40000000), pending := [] }

/-- One command leads from reset to this device. -/
theorem fltForceWrite_reset : exec (.fltForceWrite 0 3 0x40000000) .reset = .next .hostSilentForced := rfl

/-- A doorbell of a ring that is not enabled leaves this device as it is: the force bit keeps the level. -/
theorem sqTail_hostSilentForced : exec (.sqTail 0 0 0) .hostSilentForced = .next .hostSilentForced := by
  have hdoorbell : (State.hostSilentForced.tick 0).feedHost = State.hostSilentForced.toDev := by decide +kernel
  have hring : State.hostSilentForced.flag (sqEn 0) = false := by decide +kernel
  have hsettled : State.hostSilentForced.Settled := by decide +kernel
  show execSqTail 0 0 0 _ = _
  simp [execSqTail, State.act_eq, hdoorbell, hring, settle_of_settled _ hsettled]

/-- Refutes O12: in the clauses of the doorbells the level of 0x7E falls in every state, but a force bit of the source holds it
through the doorbell (R437), and settling does not lower it either. -/
theorem not_theHostWatchdogFollowsItsRule : ¬ Obligations.TheHostWatchdogFollowsItsRule := by
  rintro ⟨-, -, -, hsqTail, -, -⟩
  obtain ⟨t, d, hexec, -, ht, -, -, hfell⟩ := hsqTail .hostSilentForced 0 0 0
  obtain rfl : State.hostSilentForced = t := Host.Outcome.next.inj (sqTail_hostSilentForced.symm.trans hexec)
  have hkept := d.levelsKept_settle
  rw [← ht] at hkept
  have hheld : (d.src 0x7E).level = true := ((hkept (by decide +kernel)).2 0x7E).symm.trans (by decide +kernel)
  rw [hfell] at hheld
  cases hheld

end Sys2Proof.Machine

/-! ### What settling can do -/
namespace Sys2Proof.Machine

/-- Every command changes the device, and the device settles. -/
theorem exec_eq_settle (c : Instr) (s : State) : ∃ d, exec c s = .next { toDev := settle d, pending := s.pending } := by
  cases c <;> exact ⟨_, rfl⟩

/-- Settles O3: the device settles, and the queue is out of its reach. -/
theorem everyCommandKeepsTheQueue : Obligations.EveryCommandKeepsTheQueue := fun c s =>
  have ⟨_, hd⟩ := exec_eq_settle c s
  ⟨_, hd, rfl⟩

/-- Settles O1: a step takes the front command by definition. -/
theorem stepRunsFrontCommand : Obligations.StepRunsFrontCommand := fun _ _ _ => rfl

/-- Settles O2. -/
theorem emptyQueueIdles : Obligations.EmptyQueueIdles := fun s hs => by
  unfold step
  rw [hs]

/-- The areas that settling changes beside the registers, the diary and what is left to settle. -/
def settlePlain : List Area := [.hif, .saf, .flt, .axes, .trl, .txu, .ctl, .mac, .que, .free, .out]

/-- The registers that settling writes: counters, but for the configuration of the sources (R439). -/
def SettleReg (o : Nat) : Prop :=
  o ∈ [0x8038, 0x8040, 0x902C, 0xD030, 0xD03C, 0x12014, 0x12018, 0x13024] ∨ (∃ n, o = 0xD118 + 0x40 * n) ∨ ∃ n, n < 192 ∧ o = 0x12100 + 8 * n

/-- The single changes that settling is made of: it raises no parity error of the collector, and asks for a freeze only while the
box is not frozen. -/
inductive Dev.Settles : Dev → Dev → Prop
  | frame {a : List Area} {s t : Dev} (h : Frame a s t) (ha : a ⊆ settlePlain) : Settles s t
  | trans {s t u : Dev} (h : Settles s t) (k : Settles t u) : Settles s u
  | setReg (s : Dev) (o : Nat) (v : Reg) (ho : SettleReg o) : Settles s (s.setReg o v)
  | push (s : Dev) (x : Todo) (hx : ∀ i, x ≠ .fault 0xBA i) : Settles s (s.push x)
  | fcnt (s : Dev) : Settles s s.takeFcnt
  | dry (s : Dev) (d : Dry) (hf : d.frozen = s.dry.frozen) (hr : d.freezeReq = s.dry.freezeReq)
      (hk : d.pfw = s.dry.pfw ∧ d.sound0 = s.dry.sound0 ∧ d.sound1 = s.dry.sound1) : Settles s { s with dry := d }
  | ask (s : Dev) (c : Nat) (hf : s.dry.frozen = false) : Settles s { s with dry := { s.dry with freezeReq := some c } }

namespace Dev.Settles

theorem refl (s : Dev) : s.Settles s := .frame (Frame.refl [] s) (by decide)

theorem foldl {α : Type} {f : Dev → α → Dev} (h : ∀ (s : Dev) a, s.Settles (f s a)) (l : List α) : ∀ s : Dev, s.Settles (l.foldl f s) := by
  induction l with
  | nil => exact fun s => .refl s
  | cons a l ih => exact fun s => (h s a).trans (ih (f s a))

theorem setFld (s : Dev) (f : Fld) (v : Nat) (hf : SettleReg f.1) : s.Settles (s.setFld f v) := .setReg s _ _ hf

theorem raise (s : Dev) {n : Nat} (hn : n ≠ 0xBA) : s.Settles (s.raise n) := .push s _ fun i => by simp [hn]

theorem pushStop (s : Dev) (c w r : Nat) : s.Settles (s.push (.stop c w r)) := .push s _ (by simp)

theorem pushSafe (s : Dev) (n : Nat) (d : Bool) : s.Settles (s.push (.safe n d)) := .push s _ (by simp)

/-- A choice settles if both ways do. -/
theorem ite {s t u : Dev} {c : Prop} [Decidable c] (ht : s.Settles t) (hu : s.Settles u) : s.Settles (if c then t else u) := by
  split
  · exact ht
  · exact hu

theorem event (s : Dev) (c : Nat) (b : List Byte) : s.Settles (s.event c b) :=
  (frame (frame_cqOffer s _ _) (by decide)).trans (ite (raise _ (by decide)) (refl _))

theorem bucket (s : Dev) (k c : Nat) : s.Settles (s.bucket k c).2 := by
  unfold Dev.bucket
  split
  · exact refl s
  · exact dry s _ rfl rfl ⟨rfl, rfl, rfl⟩

theorem boxEntry (s : Dev) (c v : Nat) (i f : Bool) (d : List Byte) : s.Settles (s.boxEntry c v i f d) :=
  ite (setFld s _ _ (.inl (by decide))) (dry s _ rfl rfl ⟨rfl, rfl, rfl⟩)

theorem setRec (s : Dev) (c : Nat) (r : Rec) : s.Settles (s.setRec c r) := dry s _ rfl rfl ⟨rfl, rfl, rfl⟩

theorem occur (s : Dev) (c v : Nat) (i f b : Bool) (d : List Byte) : s.Settles (s.occur c v i f b d) := by
  unfold Dev.occur
  split
  · exact refl s
  · next k _ =>
    refine ite (ite (dry s _ rfl rfl ⟨rfl, rfl, rfl⟩) (refl s)) ?_
    have h := bucket s k c
    generalize s.bucket k c = x at h ⊢
    obtain ⟨ok, t⟩ := x
    exact h.trans ((setRec t _ _).trans (ite (boxEntry _ _ _ _ _ _) (refl _)))

theorem note (s : Dev) (c v : Nat) (d : List Byte) : s.Settles (s.note c v d) := occur s c v _ _ _ d

theorem freeze (s : Dev) (c : Nat) : s.Settles (s.freeze c) := by
  unfold Dev.freeze
  split
  · exact (occur s _ _ _ _ _ _).trans (setFld _ _ _ (.inl (by decide)))
  · next h => exact ite (refl s) (ask s c (by simpa using h))

/-! The stop on air -/

theorem launch (s : Dev) (n : Nat) (t : NT) (f : TxFrame) : s.Settles (s.launch n t f) :=
  ((frame (frame_radio s n _) (by decide)).trans ((frame (frame_emit _ _) (by decide)).trans
    ((fcnt _).trans ((setFld _ _ _ (.inl (by decide))).trans
      (setFld _ _ _ (.inr (.inl ⟨n, rfl⟩))))))).trans (frame (frame_radio _ n _) (by decide))

theorem preemptLane (s : Dev) (c n : Nat) : s.Settles (s.preemptLane c n) :=
  ((frame (frame_setLane s n _) (by decide)).trans ((frame (frame_radio _ n _) (by decide)).trans ((launch _ n _ _).trans
    ((frame (frame_emit _ _) (by decide)).trans ((setFld _ _ _ (.inl (by decide))).trans (note _ _ _ _)))))).trans
    (ite (raise _ (by decide)) (refl _))

theorem preempt (s : Dev) (c : Nat) : s.Settles (s.preempt c) :=
  (foldl (fun s n => preemptLane s c n) _ s).trans (frame (frame_setBurst _ _) (by decide))

/-! Transactions and reservations -/

theorem setResv (s : Dev) (l : List Resv) : s.Settles (s.setResv l) :=
  ((frame (frame_withTrl s _) (by decide)).trans (ite (setFld _ _ _ (.inl (by decide))) (refl _))).trans
    (ite ((frame (frame_withTrl _ _) (by decide)).trans (raise _ (by decide))) (frame (frame_withTrl _ _) (by decide)))

theorem abortTxn (s : Dev) (t : Txn) (c i : Nat) (n : Bool) : s.Settles (s.abortTxn t c i n) :=
  (ite (setFld s _ _ (.inl (by decide))) (refl s)).trans ((frame (frame_unpend _ t) (by decide)).trans
    ((frame (frame_purgeTxn _ _) (by decide)).trans ((ite (refl _) (setResv _ _)).trans
      ((frame (frame_doneTxn _ _ _ _) (by decide)).trans
        (ite (frame (frame_updTxn _ _ _) (by decide)) (frame (frame_withTxu _ _) (by decide)))))))

theorem abortPatch (s : Dev) (p : Patch) (c i : Nat) (n : Bool) : s.Settles (s.abortPatch p c i n) :=
  (frame (frame_withTrl s _) (by decide)).trans ((ite (setFld _ _ _ (.inl (by decide))) (refl _)).trans
    (frame (frame_doneOpt _ _ _ _) (by decide)))

theorem pruneHit (s : Dev) (hit : Resv → Bool) : s.Settles (s.pruneHit hit) :=
  (foldl (f := fun s id => match s.txn? id with | some t => s.abortTxn t 0x0501 0xFF true | none => s)
    (fun s id => by split; exacts [abortTxn s _ _ _ _, refl s]) _ s).trans ((setResv _ _).trans
    ((setFld _ _ _ (.inl (by decide))).trans ((note _ _ _ _).trans (setFld _ _ _ (.inl (by decide))))))

theorem stopMotion (s : Dev) (safe : Bool) : s.Settles (s.stopMotion safe) :=
  (foldl (fun s t => abortTxn s t _ _ _) _ s).trans
    ((ite (foldl (fun s p => abortPatch s p _ _ _) _ _) (refl _)).trans
      ((pruneHit _ _).trans (frame (frame_withTrl _ _) (by decide))))

/-! Axes -/

theorem axLose (s : Dev) (n : Nat) : s.Settles (s.axLose n) :=
  ite ((frame (frame_setAxis s _ _) (by decide)).trans (raise _ (by decide))) (refl s)

theorem axHard (s : Dev) (n w c : Nat) (x : AxState) : s.Settles (s.axHard n w c x) :=
  (frame (frame_setAxis s n _) (by decide)).trans ((ite (refl _) (axLose _ n)).trans (frame (frame_axEnd _ n c) (by decide)))

theorem axSafe (s : Dev) (n : Nat) : s.Settles (s.axSafe n) := ite (frame (frame_setAxis s n _) (by decide)) (axHard s n _ _ _)

/-! Stops, the safe state and faults -/

theorem setRun (s : Dev) (r : RunState) (w x : Nat) : s.Settles (s.setRun r w x) :=
  ite (refl s) ((frame (frame_withSaf s _) (by decide)).trans ((note _ _ _ _).trans (event _ _ _)))

theorem cancelResume (s : Dev) (c : Nat) : s.Settles (s.cancelResume c) := frame (frame_cancelResume s c) (by decide)

theorem takeStop (s : Dev) (c w r : Nat) : s.Settles (s.takeStop c w r) := by
  have hm : s.Settles (((((s.cancelResume stStopped).preempt c).setRun .fleetStop w r).axesFleetStop).stopMotion false) :=
    (cancelResume s _).trans ((preempt _ c).trans ((setRun _ _ _ _).trans
      ((foldl (fun s n => frame (frame_axRamp s n _ _) (by decide)) _ _).trans (stopMotion _ _))))
  unfold Dev.takeStop
  split
  · exact hm
  · exact hm
  · exact ite ((cancelResume s _).trans (preempt _ _)) (cancelResume s _)
  · exact ite (preempt s _) (refl s)
  · exact refl s

theorem safeGate (s : Dev) : s.Settles s.safeGate :=
  (frame (frame_withSaf s _) (by decide)).trans (foldl (fun s n => axSafe s n) _ _)

theorem enterSafe (s : Dev) (n : Nat) (d : Bool) (w : Nat) : s.Settles (s.enterSafe n d w) :=
  (ite ((safeGate s).trans (preempt _ _)) (safeGate s)).trans ((cancelResume _ _).trans ((setRun _ _ _ _).trans
    ((stopMotion _ _).trans ((frame (frame_loopsSafe _) (by decide)).trans ((frame (frame_markSafe _ _ _) (by decide)).trans
      ((note _ _ _ _).trans ((event _ _ _).trans ((freeze _ _).trans (frame (frame_drawNonce _) (by decide))))))))))

theorem takeSafe (s : Dev) (n : Nat) (d : Bool) : s.Settles (s.takeSafe n d) := by
  unfold Dev.takeSafe
  split
  · exact refl s
  · exact (safeGate s).trans (frame (frame_withSaf _ _) (by decide))
  · exact ite ((ite (preempt s _) (refl s)).trans (ite (frame (frame_drawNonce _) (by decide)) (refl _))) (enterSafe s n d _)
  · exact enterSafe s n d _

theorem recordFault (s : Dev) (n : Nat) (i : Bool) : s.Settles (s.recordFault n i) :=
  (setFld s _ _ (.inl (by decide))).trans ((ite (setFld _ _ _ (.inl (by decide))) (refl _)).trans
    ((ite (setFld _ _ _ (.inl (by decide))) (refl _)).trans ((occur _ _ _ _ _ _ _).trans
      ((frame (frame_cqOffer _ _ _) (by decide)).trans (ite (raise _ (by decide)) (refl _))))))

theorem react (s : Dev) (n c : Nat) : s.Settles (s.react n c) := by
  unfold Dev.react
  split
  · exact (freeze s _).trans (pushStop _ _ _ _)
  · exact (freeze s _).trans (pushSafe _ _ _)
  · exact refl s

theorem collectorReset (s : Dev) : s.Settles s.collectorReset := by
  have hfold : ∀ (l : List Nat) (u : Dev), (∀ n ∈ l, n < 192) →
      u.Settles (l.foldl (fun s n => s.setReg (0x12100 + 8 * n) (resetReg (0x12100 + 8 * n))) u) := fun l => by
    induction l with
    | nil => exact fun u _ => refl u
    | cons n l ih => exact fun u hl => (setReg u _ _ (.inr (.inr ⟨n, hl n (by simp), rfl⟩))).trans (ih _ fun m hm => hl m (by simp [hm]))
  exact (hfold (List.range 192) s fun n => List.mem_range.1).trans (frame (frame_withFlt _ _) (by decide))

theorem takeFault (s : Dev) (n : Nat) (i : Bool) : s.Settles (s.takeFault n i) :=
  ite (recordFault s n i) <| ite
    ((collectorReset s).trans ((frame (frame_setSrc _ _ _) (by decide)).trans ((recordFault _ _ _).trans
      ((freeze _ _).trans (pushSafe _ _ _)))))
    ((frame (frame_setSrc s _ _) (by decide)).trans ((recordFault _ _ _).trans
      (ite (react _ _ _) (ite (pushSafe _ _ _) (refl _)))))

theorem settleOne (s : Dev) (t : Todo) : s.Settles (s.settleOne t) := by
  cases t with
  | fault n i => exact takeFault s n i
  | stop c w r => exact takeStop s c w r
  | safe n d => exact takeSafe s n d

/-! What follows from it -/

/-- A frozen box stays frozen, and no freeze is asked for. -/
theorem boxed {s t : Dev} (h : s.Settles t) (hf : s.dry.frozen = true) (hr : s.dry.freezeReq = none) :
    t.dry.frozen = true ∧ t.dry.freezeReq = none := by
  induction h with
  | frame hfr hp =>
    have hd : _ = _ := hfr .dry fun hm => absurd (hp hm) (by decide)
    rw [hd]
    exact ⟨hf, hr⟩
  | trans _ _ ih ik => exact ik (ih hf hr).1 (ih hf hr).2
  | setReg s o v _ => exact ⟨hf, hr⟩
  | push s x _ => exact ⟨hf, hr⟩
  | fcnt s => exact ⟨hf, hr⟩
  | dry s d hf' hr' _ => exact ⟨hf'.trans hf, hr'.trans hr⟩
  | ask s c hf' => rw [hf'] at hf; cases hf

/-- What is left to settle is only added to, and never a parity error of the collector. -/
theorem todo_append {s t : Dev} (h : s.Settles t) : ∃ l, t.todo = s.todo ++ l ∧ ∀ i, .fault 0xBA i ∉ l := by
  induction h with
  | frame hfr hp =>
    have ht : _ = _ := hfr .todo fun hm => absurd (hp hm) (by decide)
    exact ⟨[], by rw [ht, List.append_nil], by simp⟩
  | trans _ _ ih ik =>
    obtain ⟨l, hl, hs⟩ := ih
    obtain ⟨m, hm, ht⟩ := ik
    exact ⟨l ++ m, by rw [hm, hl, List.append_assoc], fun i hi => (List.mem_append.1 hi).elim (hs i) (ht i)⟩
  | setReg s o v _ => exact ⟨[], by simp, by simp⟩
  | push s x hx => exact ⟨[x], rfl, fun i hi => hx i (List.mem_singleton.1 hi).symm⟩
  | fcnt s => exact ⟨[], by simp [Dev.takeFcnt], by simp⟩
  | dry s d _ _ _ => exact ⟨[], by simp, by simp⟩
  | ask s c _ => exact ⟨[], by simp, by simp⟩

/-- A register that settling does not write stays. -/
theorem reg_eq {s t : Dev} (h : s.Settles t) {o : Nat} (ho : ¬ SettleReg o) : t.reg o = s.reg o := by
  induction h with
  | frame hfr hp =>
    have hd : _ = _ := hfr .regs fun hm => absurd (hp hm) (by decide)
    rw [Dev.reg, hd, Dev.reg]
  | trans _ _ ih ik => exact ik.trans ih
  | setReg s o' v ho' => rw [Dev.reg_setReg, if_neg fun heq => ho (by rwa [heq])]
  | push s x _ => rfl
  | fcnt s => rfl
  | dry s d _ _ _ => rfl
  | ask s c _ => rfl

/-- The diary in flash, its power failure and the soundness of its regions stay. -/
theorem diary {s t : Dev} (h : s.Settles t) :
    t.nv.dry = s.nv.dry ∧ t.dry.pfw = s.dry.pfw ∧ t.dry.sound0 = s.dry.sound0 ∧ t.dry.sound1 = s.dry.sound1 := by
  induction h with
  | frame hfr hp =>
    have hn : _ = _ := hfr .nv fun hm => absurd (hp hm) (by decide)
    have hd : _ = _ := hfr .dry fun hm => absurd (hp hm) (by decide)
    rw [hn, hd]
    exact ⟨rfl, rfl, rfl, rfl⟩
  | trans _ _ ih ik =>
    obtain ⟨h1, h2, h3, h4⟩ := ih
    obtain ⟨k1, k2, k3, k4⟩ := ik
    exact ⟨k1.trans h1, k2.trans h2, k3.trans h3, k4.trans h4⟩
  | setReg s o v _ => exact ⟨rfl, rfl, rfl, rfl⟩
  | push s x _ => exact ⟨rfl, rfl, rfl, rfl⟩
  | fcnt s => exact ⟨rfl, rfl, rfl, rfl⟩
  | dry s d _ _ hk => exact ⟨rfl, hk⟩
  | ask s c _ => exact ⟨rfl, rfl, rfl, rfl⟩

end Dev.Settles

/-- Settling goes on until nothing waits, or drops what is left at its bound (log entry 86). -/
theorem Dev.todo_settleAll (k : Nat) (s : Dev) : (s.settleAll k).todo = [] := by
  induction k generalizing s with
  | zero => rfl
  | succ k ih =>
    unfold Dev.settleAll
    split
    · next h => exact h
    · exact ih _

theorem Dev.settleAll_of_todo {s : Dev} (h : s.todo = []) (k : Nat) : s.settleAll (k + 1) = s := by
  unfold Dev.settleAll
  rw [h]

/-- What holds while each thing is settled, whatever then waits, holds at the end. -/
theorem Dev.settleAll_induction {P : Dev → Prop} (htodo : ∀ (s : Dev) l, P s → P { s with todo := l })
    (hone : ∀ (s : Dev) t, P s → P (s.settleOne t)) (k : Nat) (s : Dev) (hs : P s) : P (s.settleAll k) := by
  induction k generalizing s with
  | zero => exact htodo s _ hs
  | succ k ih =>
    unfold Dev.settleAll
    split
    · exact hs
    · exact ih _ (hone _ _ (htodo _ _ hs))

/-- A frozen box stays frozen while all is settled, and no freeze is asked for. -/
theorem Dev.settleAll_boxed (k : Nat) (s : Dev) (h : s.dry.frozen = true ∧ s.dry.freezeReq = none) :
    (s.settleAll k).dry.frozen = true ∧ (s.settleAll k).dry.freezeReq = none :=
  Dev.settleAll_induction (P := fun s => s.dry.frozen = true ∧ s.dry.freezeReq = none) (fun _ _ h => h)
    (fun s t h => (Dev.Settles.settleOne s t).boxed h.1 h.2) k s h

/-- Taking a freeze freezes the box, or leaves what there was to settle and asks for no freeze. -/
theorem Dev.takeFreeze_cases (s : Dev) : (s.takeFreeze.dry.frozen = true ∧ s.takeFreeze.dry.freezeReq = none) ∨
    s.takeFreeze.todo = s.todo ∧ s.takeFreeze.dry.freezeReq = none := by
  unfold Dev.takeFreeze
  split
  · next h => exact .inr ⟨rfl, h⟩
  · split
    · exact .inr ⟨rfl, rfl⟩
    · exact .inl (((Dev.Settles.occur _ _ _ _ _ _ _).trans (.event _ _ _)).boxed rfl rfl)

/-- Settling leaves nothing to settle: the box that a freeze froze stays frozen, so no second freeze is asked for. -/
theorem settle_settled (d : Dev) : (settle d).Settled := by
  refine ⟨Dev.todo_settleAll _ _, ?_⟩
  rcases (d.settleAll 4096).takeFreeze_cases with hbox | ⟨htodo, hreq⟩
  · exact (Dev.settleAll_boxed 4096 _ hbox).2
  · unfold settle
    rw [Dev.settleAll_of_todo (htodo.trans (Dev.todo_settleAll _ _))]
    exact hreq

/-- Settles O4: a step that takes a command ends in settling, and one that idles keeps the state. -/
theorem nothingIsLeftToSettle : Obligations.NothingIsLeftToSettle := fun s t hs ht => by
  unfold step at ht
  split at ht
  · obtain rfl := Host.Outcome.next.inj ht
    exact hs
  · next c rest _ =>
    obtain ⟨d, hd⟩ := exec_eq_settle c { s with pending := rest }
    obtain rfl := Host.Outcome.next.inj (hd.symm.trans ht)
    exact settle_settled d

end Sys2Proof.Machine

namespace Sys2Proof.Machine

/-- Settles O5: reset holds nothing to settle and no command, and each read is evaluated. -/
theorem resetIsSettledAndReadsItsResetValues : Obligations.ResetIsSettledAndReadsItsResetValues := by
  unfold Obligations.ResetIsSettledAndReadsItsResetValues
  refine ⟨⟨rfl, rfl⟩, rfl, ?_, ?_⟩
  · decide +kernel
  · decide +kernel

end Sys2Proof.Machine

/-! ### An axis that already ramps to the edge of its window -/
namespace Sys2Proof.Machine

/-- A device in RUN whose axis 0 moves and already ramps at `DEC_LIM` to the edge of its Hedge window (R292): a fleet stop leaves
such a ramp to itself. -/
def State.edging : State :=
  { State.reset with saf := { run := .run }, axes := [(0, { st := .moving, legs := [{ goal := 0, acc := 1 }] })] }

/-- The run state and the state of axis 0 that a command leaves. -/
def State.afterStop (s : State) (c : Instr) : Option (RunState × AxState) :=
  match exec c s with
  | .next t => some (t.saf.run, (t.axis 0).st)
  | _ => none

/-- A source of class STOP ends its command in FLEET_STOP, and the axis still moves. -/
theorem faultEvent_edging : State.edging.afterStop (.faultEvent 0 0x21) = some (.fleetStop, .moving) := by decide +kernel

/-- Refutes O36: in the clause of class STOP an axis that ramps to the edge of its window is still MOVING after the command. -/
theorem not_faultsAreCountedAndRecorded : ¬ Obligations.FaultsAreCountedAndRecorded := by
  rintro ⟨-, hstop, -⟩
  obtain ⟨t, hexec, -, -, -, haxes⟩ := hstop .edging 0 0x21 { cls := 2 } ⟨rfl, rfl⟩ rfl (by decide) (by decide)
    (by decide +kernel) rfl (by decide +kernel) rfl
  have hmoves := faultEvent_edging
  rw [State.afterStop, hexec] at hmoves
  exact (haxes 0 (by decide)).1 (congrArg Prod.snd (Option.some.inj hmoves))

end Sys2Proof.Machine

/-! ### What settling does to axes, to the run state and to the sources -/
namespace Sys2Proof.Machine

/-! Axes only slow down -/

/-- What settling can do to an axis: leave its state and its `EN`, disable it, or let it ramp if it was in motion. -/
def Axis.Slows (a b : Axis) : Prop :=
  (b.st = a.st ∧ b.en = a.en) ∨ (b.st = .disabled ∧ b.en = false) ∨ (a.atRest = false ∧ b.st = .stopping)

theorem Axis.atRest_of_st {a b : Axis} (h : b.st = a.st) : b.atRest = a.atRest := by rw [atRest, atRest, h]

theorem Axis.Slows.trans {a b c : Axis} (h : a.Slows b) (k : b.Slows c) : a.Slows c := by
  rcases k with ⟨hst, hen⟩ | k | ⟨hb, hc⟩
  · rcases h with ⟨hst', hen'⟩ | ⟨hst', hen'⟩ | ⟨ha, hst'⟩
    · exact .inl ⟨hst.trans hst', hen.trans hen'⟩
    · exact .inr (.inl ⟨hst.trans hst', hen.trans hen'⟩)
    · exact .inr (.inr ⟨ha, hst.trans hst'⟩)
  · exact .inr (.inl k)
  · rcases h with ⟨hst', -⟩ | ⟨hst', -⟩ | ⟨ha, -⟩
    · exact .inr (.inr ⟨(Axis.atRest_of_st hst').symm.trans hb, hc⟩)
    · simp [Axis.atRest, hst'] at hb
    · exact .inr (.inr ⟨ha, hc⟩)

theorem Axis.Slows.atRest {a b : Axis} (h : a.Slows b) (ha : a.atRest = true) : b.atRest = true := by
  rcases h with ⟨hst, -⟩ | ⟨hst, -⟩ | ⟨ha', -⟩
  · rwa [Axis.atRest_of_st hst]
  · simp [Axis.atRest, hst]
  · rw [ha] at ha'; cases ha'

theorem Axis.Slows.disabled {a b : Axis} (h : a.Slows b) (ha : a.st = .disabled ∧ a.en = false) :
    b.st = .disabled ∧ b.en = false := by
  rcases h with ⟨hst, hen⟩ | h | ⟨ha', -⟩
  · exact ⟨hst.trans ha.1, hen.trans ha.2⟩
  · exact h
  · simp [Axis.atRest, ha.1] at ha'

theorem Axis.Slows.not_moving {a b : Axis} (h : a.Slows b) (ha : a.st ≠ .moving) : b.st ≠ .moving := by
  rcases h with ⟨hst, -⟩ | ⟨hst, -⟩ | ⟨-, hst⟩
  · rwa [hst]
  · simp [hst]
  · simp [hst]

/-- Every axis slows down or stays. -/
def Dev.AxesSlow (s t : Dev) : Prop := ∀ n, (s.axis n).Slows (t.axis n)

namespace Dev.AxesSlow

theorem of_axes {s t : Dev} (h : t.axes = s.axes) : s.AxesSlow t := fun n => .inl (by simp [Dev.axis, h])

theorem refl (s : Dev) : s.AxesSlow s := of_axes rfl

theorem of_frame {a : List Area} {s t : Dev} (h : Frame a s t) (ha : .axes ∉ a) : s.AxesSlow t := of_axes (h .axes ha)

theorem trans {s t u : Dev} (h : s.AxesSlow t) (k : t.AxesSlow u) : s.AxesSlow u := fun n => (h n).trans (k n)

theorem foldl {α : Type} {f : Dev → α → Dev} (h : ∀ (s : Dev) a, s.AxesSlow (f s a)) (l : List α) :
    ∀ s : Dev, s.AxesSlow (l.foldl f s) := by
  induction l with
  | nil => exact refl
  | cons a l ih => exact fun s => (h s a).trans (ih (f s a))

theorem setAxis {s : Dev} {n : Nat} {a : Axis} (h : (s.axis n).Slows a) : s.AxesSlow (s.setAxis n a) := fun m => by
  rw [Dev.axis_setAxis]
  split
  · next hm => rwa [hm]
  · exact .inl ⟨rfl, rfl⟩

theorem axRamp (s : Dev) (n w c : Nat) : s.AxesSlow (s.axRamp n w c) := by
  unfold Dev.axRamp
  dsimp only
  split
  · next h =>
    refine setAxis (.inr (.inr ⟨?_, rfl⟩))
    cases hst : (s.axis n).st <;> simp [hst, Axis.atRest] at h ⊢
  · exact refl s

end Dev.AxesSlow

/-- Every axis keeps its state and its `EN`. -/
def Dev.AxesStay (s t : Dev) : Prop := ∀ n, (t.axis n).st = (s.axis n).st ∧ (t.axis n).en = (s.axis n).en

namespace Dev.AxesStay

theorem trans {s t u : Dev} (h : s.AxesStay t) (k : t.AxesStay u) : s.AxesStay u := fun n =>
  ⟨(k n).1.trans (h n).1, (k n).2.trans (h n).2⟩

theorem of_axes {s t : Dev} (h : t.axes = s.axes) : s.AxesStay t := fun n => by simp [Dev.axis, h]

theorem of_frame {a : List Area} {s t : Dev} (h : Frame a s t) (ha : .axes ∉ a) : s.AxesStay t := of_axes (h .axes ha)

theorem setAxis {s : Dev} {n : Nat} {a : Axis} (hst : a.st = (s.axis n).st) (hen : a.en = (s.axis n).en) :
    s.AxesStay (s.setAxis n a) := fun m => by
  rw [Dev.axis_setAxis]
  split
  · next hm => rw [hm]; exact ⟨hst, hen⟩
  · exact ⟨rfl, rfl⟩

theorem slow {s t : Dev} (h : s.AxesStay t) : s.AxesSlow t := fun n => .inl (h n)

theorem axEnd (s : Dev) (n c : Nat) : s.AxesStay (s.axEnd n c) := by
  have hset : s.AxesStay (s.setAxis n { s.axis n with move := none, home := none, endWith := none }) := setAxis rfl rfl
  unfold Dev.axEnd
  dsimp only
  split
  · exact hset.trans (of_frame (frame_done _ _ _ _) (by decide))
  · exact hset.trans (of_frame (frame_doneOpt _ _ _ _) (by decide))
  · exact hset

theorem axLose (s : Dev) (n : Nat) : s.AxesStay (s.axLose n) := by
  have hset : s.AxesStay (s.setAxis n { s.axis n with ref := false }) := setAxis rfl rfl
  unfold Dev.axLose
  dsimp only
  split
  · exact hset.trans (of_frame (frame_raise _ _) (by decide))
  · exact of_axes rfl

/-- A hard stop writes one axis, with the state asked for and `EN` low unless that is IDLE. -/
theorem axHard (s : Dev) (n w c : Nat) (x : AxState) :
    ∃ a : Axis, a.st = x ∧ (x ≠ .idle → a.en = false) ∧ (s.setAxis n a).AxesStay (s.axHard n w c x) := by
  have key : ∀ u : Dev, u.AxesStay ((if u.axEnc n = true then u else u.axLose n).axEnd n c) := fun u => by
    split
    · exact axEnd u n c
    · exact (axLose u n).trans (axEnd _ n c)
  exact ⟨_, rfl, fun hx => if_neg (by simpa using hx), key _⟩

end Dev.AxesStay

/-- SAFE disables an axis with `EN` low, and touches no other. -/
theorem Dev.axSafe_setAxis (s : Dev) (n : Nat) :
    ∃ a : Axis, a.st = .disabled ∧ a.en = false ∧ (s.setAxis n a).AxesStay (s.axSafe n) := by
  unfold Dev.axSafe
  dsimp only
  split
  · exact ⟨_, rfl, rfl, .of_axes rfl⟩
  · obtain ⟨a, hst, hen, h⟩ := Dev.AxesStay.axHard s n 7 stAxsStopped .disabled
    exact ⟨a, hst, hen (by decide), h⟩

theorem Dev.axesSlow_axSafe (s : Dev) (n : Nat) : s.AxesSlow (s.axSafe n) := by
  obtain ⟨a, hst, hen, h⟩ := s.axSafe_setAxis n
  exact (Dev.AxesSlow.setAxis (.inr (.inl ⟨hst, hen⟩))).trans h.slow

theorem Dev.axSafe_disabled (s : Dev) (n : Nat) : ((s.axSafe n).axis n).st = .disabled ∧ ((s.axSafe n).axis n).en = false := by
  obtain ⟨a, hst, hen, h⟩ := s.axSafe_setAxis n
  have hn := h n
  rw [Dev.axis_setAxis, if_pos rfl] at hn
  exact ⟨hn.1.trans hst, hn.2.trans hen⟩

/-- A trip that stops an axis in motion hard leaves it at rest, and touches no other. -/
theorem Dev.axTrip_setAxis (s : Dev) (n w : Nat) :
    ∃ a : Axis, a.atRest = true ∧ (s.setAxis n a).AxesStay (s.axTrip n w) := by
  unfold Dev.axTrip
  split
  · next h =>
    refine ⟨s.axis n, h, fun m => ?_⟩
    rw [Dev.axis_setAxis]
    split
    · next hm => rw [hm]; exact ⟨rfl, rfl⟩
    · exact ⟨rfl, rfl⟩
  · obtain ⟨a, hst, -, h⟩ := Dev.AxesStay.axHard s n w stAxsStopped .idle
    exact ⟨a, by simp [Axis.atRest, hst], h⟩

/-- An operation on each axis that makes it satisfy `P`, and lets the others satisfy it still, makes all of a list satisfy it. -/
theorem Dev.foldl_axes {P : Axis → Prop} {f : Dev → Nat → Dev} (hown : ∀ (s : Dev) n, P ((f s n).axis n))
    (hother : ∀ (s : Dev) n m, P (s.axis m) → P ((f s n).axis m)) (l : List Nat) (s : Dev) :
    ∀ m, m ∈ l ∨ P (s.axis m) → P ((l.foldl f s).axis m) := by
  induction l generalizing s with
  | nil => exact fun m h => h.resolve_left (by simp)
  | cons n l ih =>
    intro m h
    refine ih _ m ?_
    by_cases hm : m = n
    · exact .inr (hm ▸ hown s n)
    · exact (h.imp (by simp [hm]) (hother s n m))

/-- SAFE leaves all 24 axes DISABLED with `EN` low. -/
theorem Dev.axesSafe_disabled (s : Dev) {k : Nat} (hk : k < 24) :
    (s.axesSafe.axis k).st = .disabled ∧ (s.axesSafe.axis k).en = false :=
  Dev.foldl_axes (P := fun a => a.st = .disabled ∧ a.en = false) Dev.axSafe_disabled
    (fun s n m h => (s.axesSlow_axSafe n m).disabled h) axisList s k (.inl (List.mem_range.2 hk))

/-- A stop-path trip leaves all 24 axes at rest. -/
theorem Dev.axesTrip_atRest (s : Dev) {k : Nat} (hk : k < 24) : (s.axesTrip.axis k).atRest = true := by
  refine Dev.foldl_axes (P := fun a => a.atRest = true) (f := fun s n => s.axTrip n 6) (fun s n => ?_) (fun s n m h => ?_)
    axisList s k (.inl (List.mem_range.2 hk)) <;> obtain ⟨a, ha, hs⟩ := s.axTrip_setAxis n 6
  · rw [Axis.atRest_of_st (hs n).1, Dev.axis_setAxis, if_pos rfl]
    exact ha
  · rw [Axis.atRest_of_st (hs m).1, Dev.axis_setAxis]
    split
    · exact ha
    · exact h

/-! Frames sharper than `settleParts` -/

/-- A fault that is recorded moves nothing but its source, the record of it, and what is left to settle. -/
theorem frame_takeFault_record (s : Dev) (n : Nat) (i : Bool) :
    Frame [.regs, .flt, .dry, .hif, .out, .todo] s (s.takeFault n i) := by
  have key : ∀ (s : Dev) (x : Src), Frame [.regs, .flt, .dry, .hif, .out, .todo] s
      ((((s.setSrc n x).recordFault n i).freeze 2).push (.safe n true)) := fun s x =>
    .two (b := [.regs, .flt, .dry, .hif, .out, .todo]) (by decide) (by decide) (frame_setSrc s n x) <|
      .two (b := [.regs, .flt, .dry, .hif, .out, .todo]) (by decide) (by decide) (frame_recordFault _ n i) <|
      .two (by decide) (by decide) (frame_freeze _ 2) (frame_push _ _)
  unfold Dev.takeFault
  dsimp only
  split
  · exact (frame_recordFault s n i).mono (by decide)
  · split
    · exact .two (by decide) (by decide) (frame_collectorReset s) (key _ _)
    · generalize hx : ({ s.src n with st := _, times := _, quietAt := _ } : Src) = x
      have h : Frame [.regs, .flt, .dry, .hif, .out, .todo] s ((s.setSrc n x).recordFault n i) :=
        .two (by decide) (by decide) (frame_setSrc s _ _) (frame_recordFault _ _ _)
      split
      · exact .two (by decide) (by decide) h (frame_react _ _ _)
      · split
        · exact .two (by decide) (by decide) h (frame_push _ _)
        · exact h

/-- A fleet stop only slows axes. -/
theorem Dev.axesSlow_takeStop (s : Dev) (c w r : Nat) : s.AxesSlow (s.takeStop c w r) := by
  have hcancel : ∀ u : Dev, u.AxesSlow (u.cancelResume stStopped) := fun u => .of_frame (frame_cancelResume u _) (by decide)
  have hair : ∀ (u : Dev) k, u.AxesSlow (u.preempt k) := fun u k => .of_frame (frame_preempt u k) (by decide)
  have hm : s.AxesSlow (((((s.cancelResume stStopped).preempt c).setRun .fleetStop w r).axesFleetStop).stopMotion false) :=
    (hcancel s).trans ((hair _ c).trans ((Dev.AxesSlow.of_frame (frame_setRun _ _ _ _) (by decide)).trans
      ((Dev.AxesSlow.foldl (fun s n => .axRamp s n _ _) _ _).trans (.of_frame (frame_stopMotion _ _) (by decide)))))
  unfold Dev.takeStop
  split
  · exact hm
  · exact hm
  · split
    · exact (hcancel s).trans (hair _ _)
    · exact hcancel s
  · split
    · exact hair s _
    · exact .refl s
  · exact .refl s

theorem Dev.axesSlow_safeGate (s : Dev) : s.AxesSlow s.safeGate :=
  (Dev.AxesSlow.of_frame (frame_withSaf s _) (by decide)).trans (.foldl Dev.axesSlow_axSafe _ _)

/-- What follows the hardware part of an entry to SAFE leaves the axes alone. -/
theorem Dev.axes_enterSafe (s : Dev) (n : Nat) (d : Bool) (w : Nat) : (s.enterSafe n d w).axes = s.safeGate.axes := by
  have hair : (if s.beaconing = true then s.safeGate.preempt 4 else s.safeGate).axes = s.safeGate.axes := by
    split
    · exact frame_preempt _ _ .axes (by decide)
    · rfl
  unfold Dev.enterSafe
  dsimp only
  generalize (if s.beaconing = true then s.safeGate.preempt 4 else s.safeGate) = t at hair ⊢
  have h : Frame [.saf, .regs, .dry, .hif, .out, .todo, .txu, .mac, .que, .trl, .ctl, .free] t
      ((((((((t.cancelResume stSafe).setRun .safe w 0).stopMotion true).loopsSafe).markSafe n d).note 0x0C3 n
        (leBytes n 1 ++ leBytes (b2n d) 1)).event 0x1104 (leBytes n 1 ++ leBytes (b2n d) 1)).freeze 1).drawNonce :=
    (((((((((frame_cancelResume t stSafe).mono (by decide)).trans ((frame_setRun _ _ _ _).mono (by decide))).trans
      ((frame_stopMotion _ _).mono (by decide))).trans ((frame_loopsSafe _).mono (by decide))).trans
      ((frame_markSafe _ _ _).mono (by decide))).trans ((frame_note _ _ _ _).mono (by decide))).trans
      ((frame_event _ _ _).mono (by decide))).trans ((frame_freeze _ _).mono (by decide))).trans
      ((frame_drawNonce _).mono (by decide))
  exact (h .axes (by decide)).trans hair

theorem Dev.axesSlow_enterSafe (s : Dev) (n : Nat) (d : Bool) (w : Nat) : s.AxesSlow (s.enterSafe n d w) :=
  s.axesSlow_safeGate.trans (.of_axes (s.axes_enterSafe n d w))

theorem Dev.axesSlow_takeSafe (s : Dev) (n : Nat) (d : Bool) : s.AxesSlow (s.takeSafe n d) := by
  unfold Dev.takeSafe
  split
  · exact .refl s
  · exact s.axesSlow_safeGate.trans (.of_frame (frame_withSaf _ _) (by decide))
  · split
    · have hair : s.AxesSlow (if s.beaconing = true then s.preempt 4 else s) := by
        split
        · exact .of_frame (frame_preempt s 4) (by decide)
        · exact .refl s
      dsimp only
      generalize (if s.beaconing = true then s.preempt 4 else s) = t at hair ⊢
      split
      · exact hair.trans (.of_frame (frame_drawNonce t) (by decide))
      · exact hair
    · exact s.axesSlow_enterSafe _ _ _
  · exact s.axesSlow_enterSafe _ _ _

/-- Settling only slows axes. -/
theorem Dev.axesSlow_settleOne (s : Dev) (t : Todo) : s.AxesSlow (s.settleOne t) := by
  cases t with
  | fault n i => exact .of_frame (frame_takeFault_record s n i) (by decide)
  | stop c w r => exact s.axesSlow_takeStop c w r
  | safe n d => exact s.axesSlow_takeSafe n d

/-! The stop path and the safe state -/

/-- The parts of the stop path that no reaction but a run-state change or an entry to SAFE moves. -/
def Saf.Stays (a b : Saf) : Prop :=
  b.run = a.run ∧ b.safeForce = a.safeForce ∧ b.safeCause = a.safeCause ∧ b.latchA = a.latchA ∧ b.latchB = a.latchB

theorem Saf.Stays.refl (a : Saf) : a.Stays a := ⟨rfl, rfl, rfl, rfl, rfl⟩

theorem Saf.Stays.of_eq {a b : Saf} (h : b = a) : a.Stays b := h ▸ .refl a

theorem Saf.Stays.of_frame {l : List Area} {s t : Dev} (h : Frame l s t) (ha : .saf ∉ l) : s.saf.Stays t.saf := .of_eq (h .saf ha)

theorem Saf.Stays.trans {a b c : Saf} (h : a.Stays b) (k : b.Stays c) : a.Stays c :=
  ⟨k.1.trans h.1, k.2.1.trans h.2.1, k.2.2.1.trans h.2.2.1, k.2.2.2.1.trans h.2.2.2.1, k.2.2.2.2.trans h.2.2.2.2⟩

theorem Dev.saf_preempt (s : Dev) (c : Nat) : s.saf.Stays (s.preempt c).saf := by
  have h : ∀ l : List Nat, (l.foldl (fun s n => s.preemptLane c n) s).saf = s.saf := fun l =>
    Frame.foldl (c := [.mac, .nv, .regs, .dry, .out, .todo]) _ (fun s n => frame_preemptLane s c n) l s .saf (by decide)
  exact (Saf.Stays.of_eq (h _)).trans ⟨rfl, rfl, rfl, rfl, rfl⟩

theorem Dev.saf_cancelResume (s : Dev) (c : Nat) : s.saf.Stays (s.cancelResume c).saf := by
  have h : ∀ (l : List Nat) (u : Dev), (l.foldl (fun s h => s.done h c []) u).saf = u.saf := fun l u =>
    Frame.foldl (c := [.hif, .out]) _ (fun s h => frame_done s h _ _) l u .saf (by decide)
  have hsaf : (s.cancelResume c).saf = { s.saf with resume := [] } := h _ { s with saf := { s.saf with resume := [] } }
  rw [hsaf]
  exact ⟨rfl, rfl, rfl, rfl, rfl⟩

/-- A run-state change, but for the state in which a pause began. -/
theorem Dev.saf_setRun (s : Dev) (r : RunState) (w x : Nat) : Saf.Stays { s.saf with run := r } (s.setRun r w x).saf := by
  unfold Dev.setRun
  split
  · next h => exact ⟨h, rfl, rfl, rfl, rfl⟩
  · exact Saf.Stays.trans ⟨rfl, rfl, rfl, rfl, rfl⟩
      (.of_frame (((frame_note _ _ _ _).mono (d := [.regs, .dry, .hif, .out, .todo]) (by decide)).trans
        ((frame_event _ _ _).mono (by decide))) (by decide))

theorem Saf.Stays.withRun {a b : Saf} (h : a.Stays b) (r : RunState) : Saf.Stays { a with run := r } { b with run := r } :=
  ⟨rfl, h.2⟩

theorem Dev.saf_axesSafe (s : Dev) : s.axesSafe.saf = s.saf :=
  Frame.foldl (c := [.axes, .hif, .out, .todo]) _ (fun s n => frame_axSafe s n) axisList s .saf (by decide)

theorem Dev.saf_safeGate (s : Dev) : s.safeGate.saf = { s.saf with safeForce := true } := Dev.saf_axesSafe _

/-- A fleet stop in RUN leads to FLEET_STOP. -/
theorem Dev.saf_takeStop_run {s : Dev} (h : s.saf.run = .run) (c w r : Nat) :
    Saf.Stays { s.saf with run := .fleetStop } (s.takeStop c w r).saf := by
  have heq : s.takeStop c w r =
      ((((s.cancelResume stStopped).preempt c).setRun .fleetStop w r).axesFleetStop).stopMotion false := by
    unfold Dev.takeStop
    rw [h]
  have hramps : ∀ u : Dev, u.saf.Stays u.axesFleetStop.saf := fun u =>
    .of_frame (Frame.foldl (c := [.axes]) _ (fun s n => frame_axRamp s n _ _) axisList u) (by decide)
  rw [heq]
  exact ((((s.saf_cancelResume _).trans (Dev.saf_preempt _ c)).withRun .fleetStop).trans (Dev.saf_setRun _ _ w r)).trans
    ((hramps _).trans (.of_frame (frame_stopMotion _ _) (by decide)))

/-- A fleet stop in FLEET_STOP or SAFE keeps the run state. -/
theorem Dev.saf_takeStop_stopped {s : Dev} (h : s.saf.run = .fleetStop ∨ s.saf.run = .safe) (c w r : Nat) :
    s.saf.Stays (s.takeStop c w r).saf := by
  unfold Dev.takeStop
  rcases h with h | h <;> rw [h] <;> dsimp only <;> split
  · exact (s.saf_cancelResume _).trans (Dev.saf_preempt _ _)
  · exact s.saf_cancelResume _
  · exact s.saf_preempt _
  · exact .refl _

/-- Entry to SAFE: the run state, the forcing and the cause. -/
theorem Dev.saf_enterSafe (s : Dev) (n : Nat) (d : Bool) (w : Nat) :
    Saf.Stays { s.saf with run := .safe, safeForce := true, safeCause := some (n, d) } (s.enterSafe n d w).saf := by
  have hair : Saf.Stays { s.saf with safeForce := true } (if s.beaconing = true then s.safeGate.preempt 4 else s.safeGate).saf := by
    split
    · exact (Saf.Stays.of_eq s.saf_safeGate).trans (Dev.saf_preempt _ _)
    · exact .of_eq s.saf_safeGate
  unfold Dev.enterSafe
  dsimp only
  generalize (if s.beaconing = true then s.safeGate.preempt 4 else s.safeGate) = t at hair ⊢
  have hstop : Saf.Stays { s.saf with run := .safe, safeForce := true }
      ((((t.cancelResume stSafe).setRun .safe w 0).stopMotion true).loopsSafe).saf :=
    (((hair.trans (t.saf_cancelResume _)).withRun .safe).trans (Dev.saf_setRun _ _ w 0)).trans
      ((Saf.Stays.of_frame (frame_stopMotion _ _) (by decide)).trans (.of_frame (frame_loopsSafe _) (by decide)))
  generalize (((t.cancelResume stSafe).setRun .safe w 0).stopMotion true).loopsSafe = u at hstop ⊢
  obtain ⟨hrun, hforce, -, hA, hB⟩ := hstop
  have hmark : Saf.Stays { s.saf with run := .safe, safeForce := true, safeCause := some (n, d) } (u.markSafe n d).saf :=
    ⟨hrun, hforce, rfl, hA, hB⟩
  exact hmark.trans ((Saf.Stays.of_frame (frame_note _ _ _ _) (by decide)).trans
    ((Saf.Stays.of_frame (frame_event _ _ _) (by decide)).trans
      ((Saf.Stays.of_frame (frame_freeze _ _) (by decide)).trans ⟨rfl, rfl, rfl, rfl, rfl⟩)))

/-- A SAFE reaction in RUN or FLEET_STOP enters SAFE. -/
theorem Dev.takeSafe_enters {s : Dev} (h : s.saf.run = .run ∨ s.saf.run = .fleetStop) (n : Nat) (d : Bool) :
    s.takeSafe n d = s.enterSafe n d 3 := by
  unfold Dev.takeSafe
  rcases h with h | h <;> rw [h]

/-- A SAFE reaction in a SAFE that is forced already leaves the cause and the forcing alone. -/
theorem Dev.takeSafe_forced {s : Dev} (h : s.saf.run = .safe) (hf : s.saf.safeForce = true) (n : Nat) (d : Bool) :
    s.saf.Stays (s.takeSafe n d).saf ∧ Frame [.mac, .nv, .regs, .dry, .out, .todo, .saf, .free] s (s.takeSafe n d) := by
  unfold Dev.takeSafe
  rw [h]
  dsimp only
  rw [if_pos hf]
  have hair : s.saf.Stays (if s.beaconing = true then s.preempt 4 else s).saf ∧
      Frame [.mac, .nv, .regs, .dry, .out, .todo, .saf, .free] s (if s.beaconing = true then s.preempt 4 else s) := by
    split
    · exact ⟨s.saf_preempt 4, (frame_preempt s 4).mono (by decide)⟩
    · exact ⟨.refl _, .refl _ s⟩
  generalize (if s.beaconing = true then s.preempt 4 else s) = t at hair ⊢
  split
  · exact ⟨hair.1.trans ⟨rfl, rfl, rfl, rfl, rfl⟩, hair.2.trans ((frame_drawNonce t).mono (by decide))⟩
  · exact hair

/-! The order of settling -/

/-- What holds while each thing is settled but a parity error of the collector, whatever then waits, holds at the end. -/
theorem Dev.settleAll_sound {P : Dev → Prop} (htodo : ∀ (s : Dev) l, P s → P { s with todo := l })
    (hone : ∀ (s : Dev) t, (∀ i, t ≠ .fault 0xBA i) → P s → P (s.settleOne t)) (k : Nat) (s : Dev)
    (hs : ∀ i, .fault 0xBA i ∉ s.todo) (hP : P s) : P (s.settleAll k) := by
  induction k generalizing s with
  | zero => exact htodo s _ hP
  | succ k ih =>
    unfold Dev.settleAll
    split
    · exact hP
    · next t rest h =>
      rw [h] at hs
      obtain ⟨l, hl, hsound⟩ := (Dev.Settles.settleOne { s with todo := rest } t).todo_append
      refine ih _ (fun i hi => ?_) (hone _ _ (fun i ht => hs i (by simp [ht])) (htodo _ _ hP))
      rw [hl] at hi
      exact (List.mem_append.1 hi).elim (fun hr => hs i (List.mem_cons_of_mem _ hr)) (hsound i)

/-- What waits is settled in its turn: `Q` holds at the end if it comes with one thing that waits, `P` lasts until then, and `Q`
from then on. -/
theorem Dev.settleAll_reaches {P Q : Dev → Prop} {x : Todo} (pre : List Todo) (hPt : ∀ (s : Dev) l, P s → P { s with todo := l })
    (hP : ∀ t ∈ pre, ∀ s : Dev, P s → P (s.settleOne t)) (hx : ∀ s : Dev, P s → Q (s.settleOne x))
    (hQt : ∀ (s : Dev) l, Q s → Q { s with todo := l })
    (hQ : ∀ (s : Dev) t, (∀ i, t ≠ .fault 0xBA i) → Q s → Q (s.settleOne t)) (k : Nat) (hk : pre.length < k) (s : Dev)
    (post : List Todo) (hs : s.todo = pre ++ x :: post) (hsound : ∀ i, .fault 0xBA i ∉ s.todo) (h : P s) : Q (s.settleAll k) := by
  induction pre generalizing k s post with
  | nil =>
    obtain ⟨k, rfl⟩ := Nat.exists_eq_succ_of_ne_zero (Nat.ne_of_gt hk)
    unfold Dev.settleAll
    rw [List.nil_append] at hs
    rw [hs] at hsound ⊢
    obtain ⟨l, hl, hls⟩ := (Dev.Settles.settleOne { s with todo := post } x).todo_append
    refine Dev.settleAll_sound hQt hQ k _ (fun i hi => ?_) (hx _ (hPt _ _ h))
    rw [hl] at hi
    exact (List.mem_append.1 hi).elim (fun hp => hsound i (List.mem_cons_of_mem _ hp)) (hls i)
  | cons t pre ih =>
    obtain ⟨k, rfl⟩ := Nat.exists_eq_succ_of_ne_zero (Nat.ne_of_gt (Nat.lt_of_le_of_lt (Nat.zero_le _) hk))
    unfold Dev.settleAll
    rw [List.cons_append] at hs
    rw [hs] at hsound ⊢
    obtain ⟨l, hl, hls⟩ := (Dev.Settles.settleOne { s with todo := pre ++ x :: post } t).todo_append
    refine ih (fun u hu => hP u (List.mem_cons_of_mem _ hu)) k (by simpa using hk) _ (post ++ l) ?_ (fun i hi => ?_)
      (hP t (by simp) _ (hPt _ _ h))
    · rw [hl]; simp
    · rw [hl] at hi
      exact (List.mem_append.1 hi).elim (fun hp => hsound i (List.mem_cons_of_mem _ hp)) (hls i)

/-- A freeze that is taken marks the box frozen, and does nothing that settling does not do. -/
theorem Dev.takeFreeze_settles (s : Dev) : ∃ d, Dev.Settles { s with dry := d } s.takeFreeze := by
  unfold Dev.takeFreeze
  split
  · exact ⟨s.dry, .refl s⟩
  · split
    · exact ⟨_, .refl _⟩
    · exact ⟨_, (Dev.Settles.occur _ _ _ _ _ _ _).trans (.event _ _ _)⟩

/-- What has come about once all that waits was settled holds at the end of the command, if what settles later keeps it. -/
theorem settle_of_settleAll {Q : Dev → Prop} (hQt : ∀ (s : Dev) l, Q s → Q { s with todo := l })
    (hQ : ∀ (s : Dev) t, (∀ i, t ≠ .fault 0xBA i) → Q s → Q (s.settleOne t)) (hQf : ∀ s : Dev, Q s → Q s.takeFreeze)
    {d : Dev} (h : Q (d.settleAll 4096)) : Q (settle d) := by
  refine Dev.settleAll_sound hQt hQ 4096 _ (fun i hi => ?_) (hQf _ h)
  obtain ⟨e, he⟩ := (d.settleAll 4096).takeFreeze_settles
  obtain ⟨l, hl, hls⟩ := he.todo_append
  rw [hl, show ({ d.settleAll 4096 with dry := e } : Dev).todo = [] from Dev.todo_settleAll 4096 d, List.nil_append] at hi
  exact hls i hi

end Sys2Proof.Machine

/-! ### A fault of class SAFE, and a stop input that falls -/
namespace Sys2Proof.Machine

/-! What a fault leaves of its source -/

/-- A fault of a source leaves the state of a source that is ACTIVE, and the level of every source, unless it is a parity error
of the collector. -/
theorem Dev.src_takeFault (s : Dev) {m : Nat} (hm : m ≠ 0xBA) (i : Bool) (n : Nat) :
    ((s.takeFault m i).src n).level = (s.src n).level ∧ ((s.src n).st = .active → ((s.takeFault m i).src n).st = .active) := by
  unfold Dev.takeFault
  dsimp only
  split
  · rw [Dev.src_of_flt (Dev.recordFault_flt s m i)]
    exact ⟨rfl, id⟩
  · generalize hx : ({ s.src m with st := _, times := _, quietAt := _ } : Src) = x
    have key : ∀ t : Dev, t.flt = (s.setSrc m x).flt →
        (t.src n).level = (s.src n).level ∧ ((s.src n).st = .active → (t.src n).st = .active) := fun t ht => by
      rw [Dev.src_of_flt ht, Dev.src_setSrc]
      split
      · next hn =>
        rw [← hx, hn]
        exact ⟨rfl, fun hact => by simp [hact]⟩
      · exact ⟨rfl, id⟩
    split
    · exact key _ (by simp)
    · split
      · exact key _ (by simp)
      · exact key _ (by simp)

/-- Everything settled but a parity error of the collector leaves every level, and an ACTIVE source ACTIVE. -/
theorem Dev.src_settleOne (s : Dev) {t : Todo} (ht : ∀ i, t ≠ .fault 0xBA i) (n : Nat) :
    ((s.settleOne t).src n).level = (s.src n).level ∧ ((s.src n).st = .active → ((s.settleOne t).src n).st = .active) := by
  cases t with
  | fault m i => exact s.src_takeFault (fun h => ht i (by rw [h])) i n
  | stop c w r => simp [Dev.settleOne, Dev.src_of_flt (s.takeStop_flt c w r)]
  | safe m d => simp [Dev.settleOne, Dev.src_of_flt (s.takeSafe_flt m d)]

/-- What holds of the default and of every entry holds of what is read. -/
theorem Tab.get_of_forall {α : Type} {P : α → Prop} {d : Nat → α} {i : Nat} (hd : P (d i)) {t : Tab α}
    (ht : ∀ p ∈ t, P p.2) : P (Tab.get d t i) := by
  induction t with
  | nil => exact hd
  | cons p t ih =>
    unfold Tab.get
    split
    · exact ht p (by simp)
    · exact ih fun q hq => ht q (List.mem_cons_of_mem _ hq)

/-- A loop slot is open with output 0 after an entry to SAFE (R264). -/
theorem Dev.loop_loopsSafe (s : Dev) (k : Nat) : (s.loopsSafe.loop k).st = .open_ ∧ (s.loopsSafe.loop k).u = 0 := by
  refine Tab.get_of_forall (P := fun l : LoopSlot => l.st = .open_ ∧ l.u = 0) ⟨rfl, rfl⟩ fun p hp => ?_
  obtain ⟨q, -, rfl⟩ := List.mem_map.1 (List.mem_filter.1 hp).1
  exact ⟨rfl, rfl⟩

theorem Dev.loop_of_ctl {s t : Dev} (h : t.ctl = s.ctl) (k : Nat) : t.loop k = s.loop k := by rw [Dev.loop, h, Dev.loop]

theorem Dev.axis_of_axes {s t : Dev} (h : t.axes = s.axes) (k : Nat) : t.axis k = s.axis k := by rw [Dev.axis, h, Dev.axis]

/-- Entry to SAFE disables every axis with `EN` low and opens every loop with output 0. -/
theorem Dev.enterSafe_rests (s : Dev) (n : Nat) (d : Bool) (w : Nat) :
    (∀ k, k < 24 → ((s.enterSafe n d w).axis k).st = .disabled ∧ ((s.enterSafe n d w).axis k).en = false) ∧
      ∀ k, ((s.enterSafe n d w).loop k).st = .open_ ∧ ((s.enterSafe n d w).loop k).u = 0 := by
  constructor
  · intro k hk
    rw [Dev.axis_of_axes (s.axes_enterSafe n d w)]
    exact Dev.axesSafe_disabled _ hk
  · intro k
    unfold Dev.enterSafe
    dsimp only
    generalize (Dev.cancelResume _ stSafe).setRun .safe w 0 = t
    have h : Frame [.saf, .regs, .dry, .hif, .out, .todo, .free] (t.stopMotion true).loopsSafe
        (((((((t.stopMotion true).loopsSafe).markSafe n d).note 0x0C3 n (leBytes n 1 ++ leBytes (b2n d) 1)).event 0x1104
          (leBytes n 1 ++ leBytes (b2n d) 1)).freeze 1).drawNonce) :=
      ((((frame_markSafe _ n d).mono (by decide)).trans ((frame_note _ _ _ _).mono (by decide))).trans
        ((frame_event _ _ _).mono (by decide))).trans (((frame_freeze _ _).mono (by decide)).trans
          ((frame_drawNonce _).mono (by decide)))
    rw [Dev.loop_of_ctl (h .ctl (by decide))]
    exact Dev.loop_loopsSafe _ k

/-- A device in the safe state that a source brought: it is ACTIVE, the axes are disabled and the loops open. -/
def Dev.InSafe (s : Dev) (n : Nat) (d : Bool) : Prop :=
  (s.saf.run = .safe ∧ s.saf.safeForce = true ∧ s.saf.safeCause = some (n, d)) ∧ (s.src n).st = .active ∧
    (∀ k, k < 24 → (s.axis k).st = .disabled ∧ (s.axis k).en = false) ∧ ∀ k, (s.loop k).st = .open_ ∧ (s.loop k).u = 0

/-- What leaves the stop path, an ACTIVE source and the loops, and only slows axes, leaves the device in the safe state. -/
theorem Dev.InSafe.mono {s t : Dev} {n : Nat} {d : Bool} (h : s.InSafe n d) (hsaf : s.saf.Stays t.saf)
    (hsrc : (s.src n).st = .active → (t.src n).st = .active) (hax : s.AxesSlow t) (hctl : t.ctl = s.ctl) : t.InSafe n d := by
  obtain ⟨⟨hrun, hforce, hcause⟩, hact, haxes, hloops⟩ := h
  exact ⟨⟨hsaf.1.trans hrun, hsaf.2.1.trans hforce, hsaf.2.2.1.trans hcause⟩, hsrc hact,
    fun k hk => (hax k).disabled (haxes k hk), fun k => by rw [Dev.loop_of_ctl hctl]; exact hloops k⟩

theorem Dev.InSafe.of_frame {a : List Area} {s t : Dev} {n : Nat} {d : Bool} (h : s.InSafe n d) (hf : Frame a s t)
    (hs : .saf ∉ a) (hflt : .flt ∉ a) (hx : .axes ∉ a) (hc : .ctl ∉ a) : t.InSafe n d :=
  h.mono (.of_frame hf hs) (by rw [Dev.src_of_flt (hf .flt hflt)]; exact id) (.of_frame hf hx) (hf .ctl hc)

/-- Whatever is settled later leaves the device in the safe state. -/
theorem Dev.InSafe.settleOne {s : Dev} {n : Nat} {d : Bool} (h : s.InSafe n d) {t : Todo} (ht : ∀ i, t ≠ .fault 0xBA i) :
    (s.settleOne t).InSafe n d := by
  have hsrc := (s.src_settleOne ht n).2
  have hax := s.axesSlow_settleOne t
  cases t with
  | fault m i =>
    have hf := frame_takeFault_record s m i
    exact h.mono (.of_frame hf (by decide)) hsrc hax (hf .ctl (by decide))
  | stop c w r =>
    refine h.mono (Dev.saf_takeStop_stopped (.inr h.1.1) c w r) hsrc hax ?_
    show (s.takeStop c w r).ctl = s.ctl
    unfold Dev.takeStop
    rw [h.1.1]
    dsimp only
    split
    · exact frame_preempt s 1 .ctl (by decide)
    · rfl
  | safe m e =>
    have hs := Dev.takeSafe_forced h.1.1 h.1.2.1 m e
    exact h.mono hs.1 hsrc hax (hs.2 .ctl (by decide))

/-- A recorded fault leaves at most the loss of its event to settle. -/
theorem Dev.todo_recordFault (s : Dev) (n : Nat) (i : Bool) :
    ∃ l, (s.recordFault n i).todo = s.todo ++ l ∧ (l = [] ∨ l = [.fault 0x7D false]) := by
  unfold Dev.recordFault
  dsimp only
  generalize hu : Dev.occur _ n _ i _ true _ = u
  have hut : u.todo = s.todo := by
    rw [← hu, frame_occur _ _ _ _ _ _ _ .todo (by decide)]
    split <;> split <;> rfl
  have hoffer : ∀ r e, (u.cqOffer r e).1.todo = s.todo := fun r e => (frame_cqOffer u r e .todo (by decide)).trans hut
  split
  · exact ⟨[.fault 0x7D false], congrArg (fun t => t ++ [Todo.fault 0x7D false]) (hoffer _ _), .inr rfl⟩
  · exact ⟨[], by rw [hoffer, List.append_nil], .inl rfl⟩

theorem Dev.InSafe.withTodo {s : Dev} {n : Nat} {d : Bool} (h : s.InSafe n d) (l : List Todo) : { s with todo := l }.InSafe n d := h

/-! Registers that the diary and the record of a fault leave alone -/

theorem Dev.reg_of_frame {a : List Area} {s t : Dev} (h : Frame a s t) (ha : .regs ∉ a) (o : Nat) : t.reg o = s.reg o := by
  rw [Dev.reg, show t.regs = s.regs from h .regs ha, Dev.reg]

theorem Dev.reg_cntSat_ne (s : Dev) {f : Fld} {o : Nat} (h : o ≠ f.1) : (s.cntSat f).reg o = s.reg o := Dev.reg_setFld_ne s f _ o h

theorem Dev.reg_cntWrap_ne (s : Dev) {f : Fld} {o : Nat} (h : o ≠ f.1) : (s.cntWrap f).reg o = s.reg o := Dev.reg_setFld_ne s f _ o h

/-- An occurrence counts at most an entry that the frozen box misses (R455). -/
theorem Dev.reg_occur (s : Dev) (c v : Nat) (i f b : Bool) (d : List Byte) {o : Nat} (ho : o ≠ 0x13024) :
    (s.occur c v i f b d).reg o = s.reg o := by
  have hbox : ∀ (u : Dev) v, (u.boxEntry c v i f d).reg o = u.reg o := fun u v => by
    unfold Dev.boxEntry
    split
    · exact u.reg_cntSat_ne ho
    · rfl
  unfold Dev.occur
  split
  · rfl
  · next k _ =>
    dsimp only
    split
    · split <;> rfl
    · have hbucket := Dev.reg_of_frame (frame_bucket s k c) (by decide) o
      generalize s.bucket k c = x at hbucket ⊢
      split
      · exact (hbox _ _).trans hbucket
      · exact hbucket

theorem Dev.reg_note (s : Dev) (c v : Nat) (d : List Byte) {o : Nat} (ho : o ≠ 0x13024) : (s.note c v d).reg o = s.reg o :=
  s.reg_occur c v _ _ _ d ho

/-- The record of a fault counts in the registers of R442 and in that of the frozen box. -/
theorem Dev.reg_recordFault (s : Dev) (n : Nat) (i : Bool) {o : Nat} (ho : o ∉ [0x12014, 0x12018, 0x13024]) :
    (s.recordFault n i).reg o = s.reg o := by
  simp only [List.mem_cons, List.not_mem_nil, or_false, not_or] at ho
  obtain ⟨hcnt, hforced, hbox⟩ := ho
  unfold Dev.recordFault
  dsimp only
  generalize hu : Dev.occur _ n _ i _ true _ = u
  have hreg : u.reg o = s.reg o := by
    rw [← hu, Dev.reg_occur _ _ _ _ _ _ _ hbox]
    split <;> split <;> simp [Dev.reg_cntSat_ne, Dev.reg_cntWrap_ne, hcnt, hforced]
  have hoffer : ∀ r e, (u.cqOffer r e).1.reg o = s.reg o := fun r e =>
    (Dev.reg_of_frame (frame_cqOffer u r e) (by decide) o).trans hreg
  split
  · exact hoffer _ _
  · exact hoffer _ _

theorem Dev.fld_of_reg {s t : Dev} {f : Fld} (h : t.reg f.1 = s.reg f.1) : t.fld f = s.fld f := by rw [Dev.fld, h, Dev.fld]

/-- The configuration of a source lies in none of the registers that the record of a fault counts in. -/
theorem srcCls_not_counted (n : Nat) : (srcCls n).1 ∉ [0x12014, 0x12018, 0x13024] := by
  simp only [srcCls, List.mem_cons, List.not_mem_nil, or_false, not_or]
  omega

/-- The occurrence with which a source enters ACTIVE: recorded, and the reaction of its class (R432, R433). -/
theorem Dev.takeFault_enters {s : Dev} {n : Nat} (hn : n ≠ 0xBA) (he : s.Enters n) :
    s.takeFault n false = ((s.setSrc n { s.src n with
      times := (s.inWindow n (s.winNow :: (s.src n).times)).take 255, st := .active, quietAt := s.up }).recordFault n false).react n
        (s.fld (srcCls n)) := by
  obtain ⟨hidle, htimes⟩ := he
  have henters : ((s.src n).st != .active && decide (s.fld (srcN n) ≤ ((s.inWindow n (s.winNow :: (s.src n).times)).take 255).length))
      = true := by rw [decide_eq_true htimes, Bool.and_true]; exact bne_iff_ne.2 hidle
  unfold Dev.takeFault
  simp only [henters, Bool.or_true, if_true, if_neg hn, Bool.not_false, Bool.true_or, Bool.not_true, Bool.false_eq_true, if_false]
  rw [Dev.fld_of_reg ((Dev.reg_recordFault _ n false (srcCls_not_counted n)).trans rfl)]
  rfl

/-- The occurrence with which a source of class SAFE enters ACTIVE: it is ACTIVE, and its reaction waits behind at most the loss of
its event. -/
theorem Dev.takeFault_safe {s : Dev} {n : Nat} (hn : n ≠ 0xBA) (he : s.Enters n) (hc : s.fld (srcCls n) = 3) :
    ((s.takeFault n false).src n).st = .active ∧
      ∃ l, (s.takeFault n false).todo = s.todo ++ l ++ [.safe n (directSrc n)] ∧ (l = [] ∨ l = [.fault 0x7D false]) := by
  rw [Dev.takeFault_enters hn he, hc]
  generalize hx : ({ s.src n with times := _, st := _, quietAt := _ } : Src) = x
  obtain ⟨l, hl, hl7D⟩ := (s.setSrc n x).todo_recordFault n false
  constructor
  · rw [Dev.src_of_flt (Dev.react_flt _ _ _), Dev.src_of_flt (Dev.recordFault_flt _ _ _), Dev.src_setSrc, if_pos rfl, ← hx]
  · refine ⟨l, ?_, hl7D⟩
    show ((((s.setSrc n x).recordFault n false).freeze 2).push (.safe n (directSrc n))).todo = _
    have hfreeze : ∀ u : Dev, (u.freeze 2).todo = u.todo := fun u => frame_freeze u 2 .todo (by decide)
    show (((s.setSrc n x).recordFault n false).freeze 2).todo ++ _ = _
    rw [hfreeze, hl]
    rfl

/-- An event of a source whose level does not stand yet is one occurrence; the source keeps what decides whether it enters ACTIVE. -/
theorem Dev.cause_raises {s : Dev} {n : Nat} {sd : SrcDef} (hdef : srcDef n = some sd)
    (hlevel : sd.level = true → (s.src n).level = false) :
    ∃ u : Dev, s.cause n = u.raise n ∧ Frame [.flt] s u ∧ (u.src n).st = (s.src n).st ∧ (u.src n).times = (s.src n).times := by
  unfold Dev.cause
  rw [hdef]
  dsimp only
  split
  · next h =>
    refine ⟨_, if_neg (by simp [hlevel h]), frame_setSrc _ _ _, ?_, ?_⟩ <;> rw [Dev.src_setSrc, if_pos rfl]
  · exact ⟨s, rfl, .refl _ s, rfl, rfl⟩

/-- Whether a source enters ACTIVE is a matter of its state, the events in its window, its configuration and the clocks. -/
theorem Dev.Enters.of_frame {a : List Area} {s t : Dev} {n : Nat} (he : s.Enters n) (hf : Frame a s t) (hr : .regs ∉ a)
    (hk : .clk ∉ a) (hu : .upd ∉ a) (hst : (t.src n).st = (s.src n).st) (ht : (t.src n).times = (s.src n).times) : t.Enters n := by
  have hfld : ∀ f, t.fld f = s.fld f := fun f => Dev.fld_of_reg (Dev.reg_of_frame hf hr _)
  have hnow : t.winNow = s.winNow := by
    rw [Dev.winNow, Dev.winNow, show t.upd = s.upd from hf .upd hu, Dev.up, show t.clk = s.clk from hf .clk hk, Dev.up]
  have hwin : ∀ l, t.inWindow n l = s.inWindow n l := fun l => by
    simp only [Dev.inWindow, hnow, Dev.windowCyc, Dev.flag, hfld]
    rfl
  obtain ⟨hidle, htimes⟩ := he
  exact ⟨by rwa [hst], by rwa [hfld, hwin, hnow, ht]⟩

/-- Settles O35: the occurrence is settled first and leaves the SAFE reaction to settle, before which at most the loss of an event
is settled; what is settled later leaves the device in the safe state. -/
theorem aFaultOfTheSafeClassEndsInSafe : Obligations.AFaultOfTheSafeClassEndsInSafe := by
  intro s dt n sd hs hdef hlevel hn henters hcls hrun
  obtain ⟨u, hcause, hu, hst, htimes⟩ := Dev.cause_raises (s := s.tick dt) hdef (by simpa [Dev.src] using hlevel)
  have htodo : u.todo = [] := (hu .todo (by decide)).trans hs.1
  have hsafe : (settle (u.raise n)).InSafe n (directSrc n) := by
    refine settle_of_settleAll (Q := fun v => v.InSafe n (directSrc n)) (fun _ l h => h.withTodo l) (fun _ _ ht h => h.settleOne ht)
      (fun v h => h.of_frame (frame_takeFreeze v) (by decide) (by decide) (by decide) (by decide)) ?_
    have hfirst : (u.raise n).settleAll 4096 = (u.takeFault n false).settleAll 4095 := by
      conv_lhs => unfold Dev.settleAll
      simp only [Dev.raise, Dev.push, htodo, List.nil_append, Dev.settleOne]
      rw [← htodo]
    obtain ⟨hact, l, hl, hl7D⟩ := Dev.takeFault_safe hn (henters.of_frame hu (by decide) (by decide) (by decide) hst htimes)
      ((Dev.fld_of_reg (Dev.reg_of_frame hu (by decide) _)).trans hcls)
    have hsaf : (u.takeFault n false).saf.run = .run := by
      rw [show (u.takeFault n false).saf = u.saf from frame_takeFault_record u n false .saf (by decide),
        show u.saf = s.saf from hu .saf (by decide), hrun]
    rw [hfirst]
    refine Dev.settleAll_reaches (Q := fun v => v.InSafe n (directSrc n)) (P := fun v => v.saf.run = .run ∧ (v.src n).st = .active) l (fun _ _ h => h) (fun t ht v h => ?_)
      (fun v h => ?_) (fun _ l h => h.withTodo l) (fun _ _ ht h => h.settleOne ht) 4095 ?_ _ [] (by rw [hl, htodo]; rfl)
      (fun i hi => ?_) ⟨hsaf, hact⟩
    · obtain rfl : t = .fault 0x7D false := by
        rcases hl7D with rfl | rfl
        · cases ht
        · exact List.mem_singleton.1 ht
      exact ⟨(congrArg Saf.run (frame_takeFault_record v 0x7D false .saf (by decide))).trans h.1,
        (v.src_takeFault (by decide) false n).2 h.2⟩
    · show (v.takeSafe n (directSrc n)).InSafe n (directSrc n)
      rw [Dev.takeSafe_enters (.inl h.1)]
      obtain ⟨hrun', hforce, hcause', -, -⟩ := v.saf_enterSafe n (directSrc n) 3
      refine ⟨⟨hrun', hforce, hcause'⟩, ?_, v.enterSafe_rests n _ 3⟩
      rw [Dev.src_of_flt (Dev.enterSafe_flt v n _ 3)]
      exact h.2
    · rcases hl7D with rfl | rfl <;> decide
    · rw [hl, htodo] at hi
      rcases hl7D with rfl | rfl <;> simp at hi
  refine ⟨{ toDev := settle (u.raise n), pending := s.pending }, ?_, rfl, ?_⟩
  · rw [← hcause]; rfl
  · obtain ⟨⟨hrun', hforce, hcause'⟩, hact, haxes, hloops⟩ := hsafe
    exact ⟨hrun', hforce, hcause', hact, haxes, hloops, by simp [Dev.stopOut, hforce]⟩

end Sys2Proof.Machine

/-! ### A stop input that falls -/
namespace Sys2Proof.Machine

theorem frame_tick (s : Dev) (n : Nat) : Frame [.clk, .out] s (s.tick n) := fun p hp => by
  cases p <;> simp at hp <;> rfl

theorem State.act_of_eq {s : State} {f : Dev → Dev} {u : Dev} (h : f s.toDev = u) :
    s.act f = .next { toDev := settle u, pending := s.pending } := by rw [State.act_eq, h]

theorem reg_settle {o : Nat} (ho : ¬ SettleReg o) (d : Dev) : (settle d).reg o = d.reg o := by
  have hone : ∀ (k : Nat) (u : Dev), (u.settleAll k).reg o = u.reg o := fun k u =>
    Dev.settleAll_induction (P := fun v => v.reg o = u.reg o) (fun _ _ h => h)
      (fun s t h => ((Dev.Settles.settleOne s t).reg_eq ho).trans h) k u rfl
  obtain ⟨e, he⟩ := (d.settleAll 4096).takeFreeze_settles
  exact (hone 4096 _).trans ((he.reg_eq ho).trans (hone 4096 d))

/-- The stop latch of a channel (R420). -/
def Saf.latched (a : Saf) (chB : Bool) : Bool := if chB then a.latchB else a.latchA

/-- The source that a stop input raises (R420). -/
def stopSrc (chB : Bool) : Nat := if chB then 0xB1 else 0xB0

theorem Saf.Stays.latched {a b : Saf} (h : a.Stays b) (chB : Bool) : b.latched chB = a.latched chB := by
  obtain ⟨-, -, -, hA, hB⟩ := h
  simp [Saf.latched, hA, hB]

/-- A latched stop input holds its source's level, with every axis at rest, in one of the run states listed. -/
def Dev.Tripped (s : Dev) (chB : Bool) (l : List RunState) : Prop :=
  s.saf.run ∈ l ∧ s.saf.latched chB = true ∧ (∀ k, k < 24 → (s.axis k).atRest = true) ∧ (s.src (stopSrc chB)).level = true

theorem Dev.Tripped.mono {s t : Dev} {chB : Bool} {l m : List RunState} (h : s.Tripped chB l) (hrun : t.saf.run ∈ m)
    (hlatch : t.saf.latched chB = s.saf.latched chB) (hax : s.AxesSlow t)
    (hsrc : (t.src (stopSrc chB)).level = (s.src (stopSrc chB)).level) : t.Tripped chB m := by
  obtain ⟨-, hl, ha, hs⟩ := h
  exact ⟨hrun, hlatch.trans hl, fun k hk => (hax k).atRest (ha k hk), hsrc.trans hs⟩

theorem Dev.Tripped.of_frame {a : List Area} {s t : Dev} {chB : Bool} {l : List RunState} (h : s.Tripped chB l) (hf : Frame a s t)
    (hs : .saf ∉ a) (hflt : .flt ∉ a) (hx : .axes ∉ a) : t.Tripped chB l :=
  have hsaf := Saf.Stays.of_frame hf hs
  h.mono (hsaf.1 ▸ h.1) (hsaf.latched chB) (.of_frame hf hx) (by rw [Dev.src_of_flt (hf .flt hflt)])

/-- A fleet stop leads from RUN to FLEET_STOP, keeps FLEET_STOP and SAFE, and leaves the latches. -/
theorem Dev.takeStop_stops {s : Dev} (h : s.saf.run ∈ [.run, .fleetStop, .safe]) (c w r : Nat) :
    (s.takeStop c w r).saf.run ∈ [RunState.fleetStop, .safe] ∧ ∀ chB, (s.takeStop c w r).saf.latched chB = s.saf.latched chB := by
  simp only [List.mem_cons, List.not_mem_nil, or_false] at h ⊢
  rcases h with h | h
  · have hst := Dev.saf_takeStop_run h c w r
    exact ⟨.inl hst.1, hst.latched⟩
  · have hst := Dev.saf_takeStop_stopped h c w r
    exact ⟨by rwa [hst.1], hst.latched⟩

/-- A SAFE reaction ends in SAFE, and leaves the latches. -/
theorem Dev.takeSafe_safe {s : Dev} (h : s.saf.run ∈ [.run, .fleetStop, .safe]) (n : Nat) (d : Bool) :
    (s.takeSafe n d).saf.run = .safe ∧ ∀ chB, (s.takeSafe n d).saf.latched chB = s.saf.latched chB := by
  have henter : (s.enterSafe n d 3).saf.run = .safe ∧ ∀ chB, (s.enterSafe n d 3).saf.latched chB = s.saf.latched chB :=
    have hst := s.saf_enterSafe n d 3
    ⟨hst.1, hst.latched⟩
  simp only [List.mem_cons, List.not_mem_nil, or_false] at h
  rcases h with h | h | h
  · rwa [Dev.takeSafe_enters (.inl h)]
  · rwa [Dev.takeSafe_enters (.inr h)]
  · by_cases hf : s.saf.safeForce = true
    · have hst := (Dev.takeSafe_forced h hf n d).1
      exact ⟨hst.1.trans h, hst.latched⟩
    · unfold Dev.takeSafe
      rw [h]
      dsimp only
      rwa [if_neg hf]

/-- Whatever is settled leaves a tripped device tripped, and leads from RUN only to FLEET_STOP or SAFE. -/
theorem Dev.Tripped.settleOne {s : Dev} {chB : Bool} {l : List RunState} (hl : l = [.run, .fleetStop, .safe] ∨ l = [.fleetStop, .safe])
    (h : s.Tripped chB l) {t : Todo} (ht : ∀ i, t ≠ .fault 0xBA i) : (s.settleOne t).Tripped chB l := by
  have hsrc := (s.src_settleOne ht (stopSrc chB)).1
  have hax := s.axesSlow_settleOne t
  have hawake : s.saf.run ∈ [RunState.run, .fleetStop, .safe] := by
    rcases hl with rfl | rfl
    · exact h.1
    · exact List.mem_cons_of_mem _ h.1
  have hstopped : ∀ {r : RunState}, r ∈ [RunState.fleetStop, .safe] → r ∈ l := fun hr => by
    rcases hl with rfl | rfl
    · exact List.mem_cons_of_mem _ hr
    · exact hr
  cases t with
  | fault n i =>
    have hsaf : (s.takeFault n i).saf = s.saf := frame_takeFault_record s n i .saf (by decide)
    exact h.mono (by show (s.takeFault n i).saf.run ∈ l; rw [hsaf]; exact h.1) (by rw [show (s.settleOne (.fault n i)).saf = s.saf from hsaf]) hax hsrc
  | stop c w r =>
    obtain ⟨hrun, hlatch⟩ := Dev.takeStop_stops hawake c w r
    exact h.mono (hstopped hrun) (hlatch chB) hax hsrc
  | safe n d =>
    obtain ⟨hrun, hlatch⟩ := Dev.takeSafe_safe hawake n d
    exact h.mono (hstopped (by rw [show (s.settleOne (.safe n d)).saf.run = .safe from hrun]; decide)) (hlatch chB) hax hsrc

/-- The fleet stop of a trip leaves RUN. -/
theorem Dev.Tripped.takeStop {s : Dev} {chB : Bool} (h : s.Tripped chB [.run, .fleetStop, .safe]) (c w r : Nat) :
    (s.takeStop c w r).Tripped chB [.fleetStop, .safe] :=
  have ⟨hrun, hlatch⟩ := Dev.takeStop_stops h.1 c w r
  h.mono hrun (hlatch chB) (s.axesSlow_takeStop c w r) (by rw [Dev.src_of_flt (s.takeStop_flt c w r)])

/-! What a trip leaves to settle before its fleet stop -/

/-- What `t` leaves to settle is what `s` does and at most `k` things more. -/
def Dev.Adds (k : Nat) (s t : Dev) : Prop := ∃ l, t.todo = s.todo ++ l ∧ l.length ≤ k

namespace Dev.Adds

theorem of_todo {s t : Dev} (h : t.todo = s.todo) : Adds 0 s t := ⟨[], by simp [h], le_refl _⟩

theorem of_frame {a : List Area} {s t : Dev} (h : Frame a s t) (ha : .todo ∉ a) : Adds 0 s t := of_todo (h .todo ha)

theorem push (s : Dev) (x : Todo) : Adds 1 s (s.push x) := ⟨[x], rfl, le_refl _⟩

theorem trans {j k : Nat} {s t u : Dev} (h : Adds j s t) (h' : Adds k t u) : Adds (j + k) s u := by
  obtain ⟨l, hl, hj⟩ := h
  obtain ⟨m, hm, hk⟩ := h'
  exact ⟨l ++ m, by rw [hm, hl, List.append_assoc], by rw [List.length_append]; omega⟩

theorem mono {j k : Nat} {s t : Dev} (h : Adds j s t) (hjk : j ≤ k) : Adds k s t :=
  h.imp fun _ hl => ⟨hl.1, hl.2.trans hjk⟩

theorem ite {k : Nat} {s t u : Dev} {c : Prop} [Decidable c] (ht : Adds k s t) (hu : Adds k s u) : Adds k s (if c then t else u) := by
  split
  · exact ht
  · exact hu

theorem event (s : Dev) (c : Nat) (b : List Byte) : Adds 1 s (s.event c b) :=
  (of_frame (frame_cqOffer s _ _) (by decide)).trans (ite (push _ _) ((of_todo rfl).mono (by decide)))

theorem raiseLevel (s : Dev) (n : Nat) : Adds 1 s (s.raiseLevel n) :=
  (of_frame (frame_setSrc s n _) (by decide)).trans (ite ((of_todo rfl).mono (by decide)) (push _ _))

theorem axTrip (s : Dev) (n w : Nat) : Adds 1 s (s.axTrip n w) := by
  have hlose : ∀ u : Dev, Adds 1 u (u.axLose n) := fun u =>
    ite ((of_frame (frame_setAxis u n _) (by decide)).trans (push _ _)) ((of_todo rfl).mono (by decide))
  refine ite ((of_todo rfl).mono (by decide)) ?_
  exact (of_frame (frame_setAxis s n _) (by decide)).trans
    ((ite ((of_todo rfl).mono (by decide)) (hlose _)).trans (of_frame (frame_axEnd _ _ _) (by decide)))

theorem foldl {α : Type} {f : Dev → α → Dev} (h : ∀ (s : Dev) a, Adds 1 s (f s a)) (l : List α) : ∀ s : Dev, Adds l.length s (l.foldl f s) := by
  induction l with
  | nil => exact fun s => of_todo rfl
  | cons a l ih => exact fun s => ((h s a).trans (ih _)).mono (by simp [Nat.add_comm])

end Dev.Adds

theorem Dev.Settles.axTrip (s : Dev) (n w : Nat) : s.Settles (s.axTrip n w) := .ite (.refl s) (.axHard s n _ _ _)

theorem Dev.Settles.axesTrip (s : Dev) : s.Settles s.axesTrip := .foldl (fun s n => .axTrip s n 6) axisList s

theorem Dev.Settles.raiseLevel (s : Dev) {n : Nat} (hn : n ≠ 0xBA) : s.Settles (s.raiseLevel n) :=
  (Dev.Settles.frame (frame_setSrc s n _) (by decide)).trans (.ite (.refl _) (.raise _ hn))

theorem Dev.src_raiseLevel (s : Dev) (n : Nat) : ((s.raiseLevel n).src n).level = true := by
  have hset : ((s.setSrc n { s.src n with level := true, real := true }).src n).level = true := by
    rw [Dev.src_setSrc, if_pos rfl]
  unfold Dev.raiseLevel
  dsimp only
  split
  · exact hset
  · exact hset

theorem frame_raiseLevel (s : Dev) (n : Nat) : Frame [.flt, .todo] s (s.raiseLevel n) := by
  unfold Dev.raiseLevel
  dsimp only
  split
  · exact (frame_setSrc s n _).mono (by decide)
  · exact ((frame_setSrc s n _).mono (by decide)).trans ((frame_raise _ n).mono (by decide))

theorem frame_axTrip (s : Dev) (n w : Nat) : Frame [.axes, .hif, .out, .todo] s (s.axTrip n w) := by
  unfold Dev.axTrip
  split
  · exact .refl _ s
  · exact frame_axHard s n _ _ _

/-- The device just before the fleet stop of a trip, from where its latch is set and counted. -/
def Dev.tripped (u : Dev) (chB : Bool) : Dev :=
  (((u.axesTrip.note 0x0C1 (1 + b2n chB) (leBytes (1 + b2n chB) 1)).event 0x1102 (leBytes (1 + b2n chB) 1)).freeze 4).raiseLevel
    (stopSrc chB)

theorem Dev.settles_tripped (u : Dev) (chB : Bool) : u.Settles (u.tripped chB) :=
  (Dev.Settles.axesTrip u).trans ((Dev.Settles.note _ _ _ _).trans ((Dev.Settles.event _ _ _).trans
    ((Dev.Settles.freeze _ _).trans (.raiseLevel _ (by cases chB <;> decide)))))

theorem Dev.adds_tripped (u : Dev) (chB : Bool) : Dev.Adds 26 u (u.tripped chB) :=
  (((((Dev.Adds.foldl (fun s n => .axTrip s n 6) axisList u).trans (.of_frame (frame_note _ _ _ _) (by decide))).trans
    (.event _ _ _)).trans (.of_frame (frame_freeze _ _) (by decide))).trans (.raiseLevel _ _)).mono (by decide)

theorem Dev.tripped_tripped {u : Dev} {chB : Bool} (hrun : u.saf.run = .run) (hlatch : u.saf.latched chB = true) :
    (u.tripped chB).Tripped chB [.run, .fleetStop, .safe] := by
  have hrecord : Frame [.regs, .dry, .hif, .out, .todo, .flt] u.axesTrip (u.tripped chB) :=
    ((frame_note _ _ _ _).mono (by decide)).trans (((frame_event _ _ _).mono (by decide)).trans
      (((frame_freeze _ _).mono (by decide)).trans ((frame_raiseLevel _ _).mono (by decide))))
  have hsaf : (u.tripped chB).saf = u.saf :=
    (hrecord .saf (by decide)).trans (Frame.foldl _ (fun s n => frame_axTrip s n 6) axisList u .saf (by decide))
  refine ⟨by rw [hsaf, hrun]; decide, by rw [hsaf]; exact hlatch, fun k hk => ?_, Dev.src_raiseLevel _ _⟩
  rw [Dev.axis_of_axes (hrecord .axes (by decide))]
  exact u.axesTrip_atRest hk

/-- A trip whose fleet stop is settled with nothing but its own faults before it stops the fleet. -/
theorem Dev.settle_tripped {u : Dev} {chB : Bool} (htodo : u.todo = []) (hrun : u.saf.run = .run) (hlatch : u.saf.latched chB = true) :
    (settle ((u.tripped chB).push (.stop 1 2 0))).Tripped chB [.fleetStop, .safe] := by
  obtain ⟨l, hl, hlen⟩ := u.adds_tripped chB
  obtain ⟨l', hl', hsound⟩ := (u.settles_tripped chB).todo_append
  obtain rfl : l' = l := List.append_cancel_left (hl'.symm.trans hl)
  rw [htodo, List.nil_append] at hl
  refine settle_of_settleAll (Q := fun v => v.Tripped chB [.fleetStop, .safe]) (fun _ _ h => h)
    (fun _ _ ht h => h.settleOne (.inr rfl) ht) (fun v h => h.of_frame (frame_takeFreeze v) (by decide) (by decide) (by decide)) ?_
  refine Dev.settleAll_reaches (P := fun v => v.Tripped chB [.run, .fleetStop, .safe])
    (Q := fun v => v.Tripped chB [.fleetStop, .safe]) (x := .stop 1 2 0) l' (fun _ _ h => h)
    (fun t ht v h => h.settleOne (.inl rfl) fun i hi => hsound i (hi ▸ ht)) (fun v h => h.takeStop 1 2 0) (fun _ _ h => h)
    (fun _ _ ht h => h.settleOne (.inr rfl) ht) 4096 (by omega) _ [] (by rw [← hl]; rfl) (fun i hi => ?_)
    (Dev.tripped_tripped hrun hlatch)
  rw [show ((u.tripped chB).push (.stop 1 2 0)).todo = l' ++ [.stop 1 2 0] by rw [← hl]; rfl] at hi
  exact (List.mem_append.1 hi).elim (hsound i) (by simp)

/-- The device in which a stop input is low (R418). -/
def Dev.inputLow (s : Dev) (chB : Bool) : Dev :=
  { s with saf := { s.saf with clean := false, inA := s.saf.inA && chB, inB := s.saf.inB && !chB } }

/-- The device in which a stop input has just latched and been counted (R420). -/
def Dev.latch (s : Dev) (chB : Bool) : Dev :=
  ({ s with saf := { s.saf with
      latchA := s.saf.latchA || !chB, latchB := s.saf.latchB || chB
      loneAt := if (if chB then s.saf.latchA else s.saf.latchB) then none else some s.up
      dpRun := s.saf.dpRun.map fun (t : Bool × Bool) => (t.1, true) } }).cntSat (0x11030, 0, 16)

/-- In RUN a latch that sets trips the device and stops the fleet. -/
theorem Dev.setLatch_run {s : Dev} (h : s.saf.run = .run) (chB : Bool) :
    s.setLatch chB = ((s.latch chB).tripped chB).push (.stop 1 2 0) := by
  have hawake : ∀ u : Dev, u.saf.run = .run → ¬ (decide (u.saf.run = .boot) || decide (u.saf.run = .off)) = true := fun u hu => by simp [hu]
  unfold Dev.setLatch
  dsimp only
  exact if_neg (hawake (s.latch chB) h)

/-- A low pulse of 2 ns or more on a stop input that is not latched sets its latch. -/
theorem exec_stopInFall_long (s : State) (dt : Nat) {lowPs : Nat} (hlow : 2000 ≤ lowPs) {chB : Bool}
    (hlatch : s.saf.latched chB = false) :
    exec (.stopInFall dt chB lowPs) s = .next { toDev := settle (((s.tick dt).inputLow chB).setLatch chB), pending := s.pending } := by
  have hlow' : ((s.tick dt).inputLow chB).saf.latched chB = false := hlatch
  show execStopInFall dt chB lowPs s = _
  refine State.act_of_eq ?_
  dsimp only
  rw [if_neg (by omega : ¬ lowPs < 1000), if_neg (by omega : ¬ lowPs < 2000), if_neg (by simp)]
  exact if_neg (c := ((s.tick dt).inputLow chB).saf.latched chB = true) (by rw [hlow']; decide)

theorem satInc_lt (w n : Nat) : satInc w n < 2 ^ w := by
  have := Nat.two_pow_pos w
  unfold satInc
  omega

theorem Dev.fld_cntSat (s : Dev) (f : Fld) (h : f.2.1 + f.2.2 ≤ 32) : (s.cntSat f).fld f = satInc f.2.2 (s.fld f) := by
  rw [Dev.cntSat, Dev.fld_setFld _ _ _ h, Nat.mod_eq_of_lt (satInc_lt _ _)]

theorem stopCount_not_settled : ¬ SettleReg 0x11030 := by
  rintro (h | ⟨n, h⟩ | ⟨n, hn, h⟩)
  · exact absurd h (by decide)
  · omega
  · omega

theorem Dev.stopOut_of_latched {s : Dev} {chB : Bool} (h : s.saf.latched chB = true) : s.stopOut = false := by
  cases chB <;> simp [Saf.latched] at h <;> simp [Dev.stopOut, h]

/-- Settles O38: what a trip leaves to settle before its fleet stop are faults, which keep what the trip did. -/
theorem aStopInputStopsTheFleet : Obligations.AStopInputStopsTheFleet := by
  refine ⟨fun s dt lowPs chB hs hrun hlow hlatch => ?_, fun s dt lowPs chB hs hlow => ?_⟩
  · have hset : (((s.tick dt).inputLow chB).latch chB).saf.latched chB = true := by
      cases chB <;> simp [Dev.latch, Saf.latched, Dev.cntSat]
    have hexec := exec_stopInFall_long s dt hlow hlatch
    rw [Dev.setLatch_run (s := (s.tick dt).inputLow chB) hrun] at hexec
    obtain ⟨hst, hl, hax, hlevel⟩ := Dev.settle_tripped (u := ((s.tick dt).inputLow chB).latch chB) hs.1 hrun hset
    refine ⟨_, hexec, rfl, hl, Dev.stopOut_of_latched hl, by simpa using hst, hax, ?_, hlevel⟩
    exact (Dev.fld_of_reg ((reg_settle stopCount_not_settled _).trans
      (((Dev.settles_tripped _ chB).trans (.pushStop _ _ _ _)).reg_eq stopCount_not_settled))).trans (Dev.fld_cntSat _ _ (by decide))
  · have hframe : Frame [.clk, .out] s.toDev (s.tick dt) := frame_tick s.toDev dt
    have hexec : exec (.stopInFall dt chB lowPs) s = .next { toDev := settle (s.tick dt), pending := s.pending } := by
      show execStopInFall dt chB lowPs s = _
      rw [execStopInFall, State.act_eq]
      simp only [hlow, if_true]
    refine ⟨_, hexec, rfl, ?_⟩
    rw [settle_of_settled _ (Dev.Settled.of_frame hs hframe (by decide) (by decide))]
    exact hframe

end Sys2Proof.Machine

/-! ### Commands, areas and fields: what the obligations' proofs share -/
namespace Sys2Proof.Machine

/-! Areas -/

/-- One change after another changes what either does. -/
theorem Frame.append {a b : List Area} {s t u : Dev} (h : Frame a s t) (k : Frame b t u) : Frame (a ++ b) s u :=
  .two (List.subset_append_left a b) (List.subset_append_right a b) h k

/-- A choice changes what either way does. -/
theorem Frame.ite {a : List Area} {s t u : Dev} {c : Prop} [Decidable c] (ht : Frame a s t) (hu : Frame a s u) :
    Frame a s (if c then t else u) := by
  split
  · exact ht
  · exact hu

theorem Frame.of_eq {a : List Area} {s t : Dev} (h : t = s) : Frame a s t := h ▸ .refl a s

theorem frame_begin (s : Dev) : Frame [.out] s s.begin := fun p hp => by cases p <;> simp at hp <;> rfl

theorem frame_withClk (s : Dev) (c : Clock) : Frame [.clk] s { s with clk := c } := fun p hp => by cases p <;> simp at hp <;> rfl

theorem frame_withTim (s : Dev) (x : Tim) : Frame [.tim] s { s with tim := x } := fun p hp => by cases p <;> simp at hp <;> rfl

theorem frame_withHif (s : Dev) (x : Hif) : Frame [.hif] s { s with hif := x } := fun p hp => by cases p <;> simp at hp <;> rfl

theorem frame_setCap (s : Dev) (n : Nat) (c : CapInput) : Frame [.caps] s (s.setCap n c) := fun p hp => by
  cases p <;> simp at hp <;> rfl

theorem frame_setSq (s : Dev) (r : Nat) (q : Sq) : Frame [.hif] s (s.setSq r q) := fun p hp => by cases p <;> simp at hp <;> rfl

theorem frame_cntSat (s : Dev) (f : Fld) : Frame [.regs] s (s.cntSat f) := frame_setFld s f _

theorem frame_cntWrap (s : Dev) (f : Fld) : Frame [.regs] s (s.cntWrap f) := frame_setFld s f _

theorem frame_fallLevel (s : Dev) (n : Nat) : Frame [.flt] s (s.fallLevel n) := by
  unfold Dev.fallLevel
  dsimp only
  split
  · exact .refl _ s
  · exact .ite (frame_setSrc s n _) (frame_setSrc s n _)

theorem Dev.tickUp_up (s : Dev) (u : Nat) : (s.tickUp u).up = max s.up u := by
  rw [Dev.tickUp, Dev.tick_up, Dev.up]
  omega

theorem Dev.tickTo_clk (s : Dev) (t : NT) : (s.tickTo t).clk = s.clk.run (s.clk.cyclesTo t) := rfl

theorem frame_tickTo (s : Dev) (t : NT) : Frame [.clk, .out] s (s.tickTo t) := frame_tick s _

theorem frame_tickUp (s : Dev) (u : Nat) : Frame [.clk, .out] s (s.tickUp u) := frame_tick s _

/-! Registers -/

theorem RegsBut.refl (l : List Nat) (s : Dev) : RegsBut l s s := fun _ _ => rfl

theorem RegsBut.trans {l : List Nat} {s t u : Dev} (h : RegsBut l s t) (k : RegsBut l t u) : RegsBut l s u :=
  fun o ho => (k o ho).trans (h o ho)

theorem RegsBut.of_frame {a : List Area} {l : List Nat} {s t : Dev} (h : Frame a s t) (ha : .regs ∉ a) : RegsBut l s t :=
  fun o _ => Dev.reg_of_frame h ha o

theorem RegsBut.setReg {l : List Nat} (s : Dev) {o : Nat} (v : Reg) (ho : o ∈ l) : RegsBut l s (s.setReg o v) := fun o' ho' => by
  rw [Dev.reg_setReg, if_neg fun h => ho' (by rwa [h])]

theorem RegsBut.setFld {l : List Nat} (s : Dev) {f : Fld} (v : Nat) (hf : f.1 ∈ l) : RegsBut l s (s.setFld f v) := .setReg s _ hf

theorem RegsBut.mono {l m : List Nat} {s t : Dev} (h : RegsBut l s t) (hlm : l ⊆ m) : RegsBut m s t :=
  fun o ho => h o fun hm => ho (hlm hm)

theorem RegsBut.fld_eq {l : List Nat} {s t : Dev} (h : RegsBut l s t) {f : Fld} (hf : f.1 ∉ l) : t.fld f = s.fld f :=
  Dev.fld_of_reg (h f.1 hf)

theorem RegsBut.flag_eq {l : List Nat} {s t : Dev} (h : RegsBut l s t) {f : Fld} (hf : f.1 ∉ l) : t.flag f = s.flag f := by
  rw [Dev.flag, h.fld_eq hf, Dev.flag]

theorem Dev.flag_of_reg {s t : Dev} {f : Fld} (h : t.reg f.1 = s.reg f.1) : t.flag f = s.flag f := by
  rw [Dev.flag, Dev.fld_of_reg h, Dev.flag]

theorem Dev.flag_eq_true {s : Dev} {f : Fld} : s.flag f = true ↔ s.fld f = 1 := by simp [Dev.flag]

theorem Dev.flag_setFld_ne (s : Dev) (f g : Fld) (v : Nat) (h : g.1 ≠ f.1) : (s.setFld f v).flag g = s.flag g := by
  rw [Dev.flag, Dev.fld_setFld_ne s f g v h, Dev.flag]

theorem Dev.flag_setFld_other (s : Dev) (f g : Fld) (v : Nat) (h : f.2.1 + f.2.2 ≤ 32)
    (hd : g.2.1 + g.2.2 ≤ f.2.1 ∨ f.2.1 + f.2.2 ≤ g.2.1) : (s.setFld f v).flag g = s.flag g := by
  rw [Dev.flag, Dev.fld_setFld_other s f g v h hd, Dev.flag]

/-! Outcomes -/

/-- What a command answers depends on its effect on the present device alone. -/
theorem State.act_congr {s : State} {f g : Dev → Dev} (h : f s.toDev = g s.toDev) : s.act f = s.act g := by
  rw [State.act_eq, State.act_eq, h]

/-- A command that leaves nothing to settle completes with its own effect. -/
theorem Completes.of_act {c : Instr} {s : State} {f : Dev → Dev} {u : Dev} {P : Dev → Prop} {a : List Area}
    (he : exec c s = s.act f) (hu : f s.toDev = u) (hs : s.Settled) (hf : Frame a s.toDev u) (ht : .todo ∉ a) (hd : .dry ∉ a)
    (hp : P u) : Completes c s P := by
  refine ⟨{ toDev := settle u, pending := s.pending }, by rw [he, State.act_of_eq hu], rfl, ?_⟩
  show P (settle u)
  rwa [settle_of_settled u (hs.of_frame hf ht hd)]

/-- A command whose effect is known, and leaves nothing to settle, completes with it. -/
theorem Completes.of_effect {c : Instr} {s : State} {u : Dev} {P : Dev → Prop} {a : List Area} (hs : s.Settled)
    (hf : Frame a s.toDev u) (he : exec c s = s.act fun _ => u) (ht : .todo ∉ a) (hd : .dry ∉ a) (hp : P u) : Completes c s P :=
  .of_act he rfl hs hf ht hd hp

/-- A command completes with its own effect, and then settles. -/
theorem CompletesThen.of_act {c : Instr} {s : State} {f : Dev → Dev} {u : Dev} {P : Dev → Prop} (he : exec c s = s.act f)
    (hu : f s.toDev = u) (hp : P u) : CompletesThen c s P :=
  ⟨_, u, he.trans (State.act_of_eq hu), rfl, rfl, hp⟩

/-- A host command that runs completes with its own effect, and then settles. -/
theorem CompletesThen.of_command {c : Instr} {s : State} {h op : Nat} {l : Live} {k : Live → Dev → Dev} {u : Dev} {P : Dev → Prop}
    (he : exec c s = s.act fun d => d.command h op k) (hr : s.Runs h op l) (hk : k l (s.begin.markStarted h) = u) (hp : P u) :
    CompletesThen c s P := .of_act he ((Dev.command_eq k hr).trans hk) hp

/-- A host command that is only answered changes nothing else. -/
theorem Completes.answered {c : Instr} {s : State} {h op : Nat} {l : Live} {k : Live → Dev → Dev} {code : Nat} {res : List Byte}
    (he : exec c s = s.act fun d => d.command h op k) (hs : s.Settled) (hr : s.Runs h op l)
    (hk : k l (s.begin.markStarted h) = (s.begin.markStarted h).done h code res) :
    Completes c s fun t => t.Answered l code res ∧ Frame [.out, .hif] s.toDev t :=
  have hf : Frame [.out, .hif] s.toDev ((s.begin.markStarted h).done h code res) :=
    (frame_begin_markStarted _ h).trans ((frame_done _ h code _).mono (by decide))
  .of_command he hs hr hk hf (by decide) (by decide) ⟨Dev.run_done code res hr, hf⟩

/-- A command that is live and can be answered in its ring stays so while rings, commands and registers of the rings stay. -/
theorem Dev.Waits.of_frame {a : List Area} {s t : Dev} {h : Nat} {l : Live} (hw : s.Waits h l) (hf : Frame a s t) (hh : .hif ∉ a)
    (hreg : t.reg (cqEn l.cq).1 = s.reg (cqEn l.cq).1) : t.Waits h l := by
  obtain ⟨hl, ho, he, hhold, hcq⟩ := hw
  have hhif : t.hif = s.hif := hf .hif hh
  refine ⟨?_, ho, ?_, ?_, hcq⟩
  · rw [Dev.live?, hhif]
    exact hl
  · rwa [Dev.flag_of_reg hreg]
  · rw [Dev.cq, hhif]
    exact hhold

/-- A `DONE` answers a command that waits. -/
theorem Dev.Waits.done {s : Dev} {h : Nat} {l : Live} (hw : s.Waits h l) (code : Nat) (res : List Byte) :
    (s.done h code res).Answered l code res :=
  have ⟨hl, ho, he, hh, _⟩ := hw
  Dev.done_answered code res hl ho he hh

/-- A command that runs has begun, and then waits. -/
theorem Dev.Runs.waits {s : Dev} {h op : Nat} {l : Live} (hr : s.Runs h op l) : (s.begin.markStarted h).Waits h { l with started := true } :=
  have ⟨hs, ho, he, hh, hcq⟩ := hr
  ⟨Dev.live?_markStarted (Dev.startable_live hs).1, ho, he, hh, hcq⟩

/-- The configuration of a completion ring lies in its own registers. -/
theorem cqEn_reg_ne {r o : Nat} (hr : r < 32) (ho : o < 0x2508 ∨ 0x28F0 ≤ o) : (cqEn r).1 ≠ o := by
  simp only [cqEn]
  omega

end Sys2Proof.Machine

/-! ### Reads of time, NOP and FENCE, and the rings of the host -/
namespace Sys2Proof.Machine

@[simp] theorem Dev.cap_setCap (s : Dev) (n m : Nat) (c : CapInput) : (s.setCap n c).cap m = if m = n then c else s.cap m :=
  Tab.get_set _ _ _ _ _

/-- Settles O13: each read sets its latch. -/
theorem readsOfTimeLatchTheirHighWords : Obligations.ReadsOfTimeLatchTheirHighWords := by
  refine ⟨fun s hs => ?_, fun s hs => ?_, fun s n hs hn => ?_⟩
  · have hf : Frame [.out, .tim] s.toDev _ := (frame_begin s.toDev).append (frame_withTim _ { s.tim with ntHiLatch := s.nt.toNat / 2 ^ 32 })
    exact .of_effect hs hf rfl (by decide) (by decide) ⟨rfl, hf⟩
  · have hf : Frame [.out, .tim] s.toDev _ := (frame_begin s.toDev).append (frame_withTim _ { s.tim with bar4Latch := s.nt.toNat / 2 ^ 32 })
    exact .of_effect hs hf rfl (by decide) (by decide) ⟨rfl, hf⟩
  · have hf : Frame [.out, .caps] s.toDev _ := (frame_begin s.toDev).append
      (frame_setCap _ n { s.cap n with latHi := (s.cap n).nt.toNat / 2 ^ 32, latStat := (s.cap n).frac + 256 * (s.cap n).flags })
    have he : execTimCapnLoRead n s = s.act fun _ => _ := State.act_congr (if_pos hn)
    refine .of_effect hs hf he (by decide) (by decide) ⟨?_, fun m hm => ?_, hf⟩
    · rw [Dev.cap_setCap, if_pos rfl]
    · rw [Dev.cap_setCap, if_neg hm]
      rfl

/-! NOP and FENCE (R379) -/

/-- The one live command is answered, and nothing is live then. -/
theorem Dev.doneRaw_only {s : Dev} {h : Nat} {l : Live} (hw : s.Waits h l) (hlive : s.hif.live = [l]) (code : Nat) (res : List Byte) :
    (s.doneRaw h code res).Answered l code res := by
  have hnone : (s.doneRaw h code res).hif.live = [] := by
    obtain ⟨hl, ho, he, hh, -⟩ := hw
    have hraw : s.doneRaw h code res =
        (s.setLive (s.hif.live.filter fun x => x.handle != h)).cqWrite l.cq (cmdEntry .done l code res) := by
      unfold Dev.doneRaw
      simp only [hl, ho, hh, he]
      simp
    rw [hraw, Dev.live_cqWrite, Dev.live_setLive, hlive]
    simp [Dev.live?_handle hl]
  have hdone := hw.done code res
  rwa [Dev.done, hnone] at hdone

/-- A fence with nothing else live is answered. -/
theorem Dev.settleFences_only {s : Dev} {h : Nat} {l : Live} (hw : s.Waits h l) (hlive : s.hif.live = [l]) (hop : l.op = 2)
    (hstarted : l.started = true) : (s.settleFences s.hif.live.length).Answered l stOK [] := by
  have hclear : s.hif.live.find? (fenceClear s.hif.live) = some l := by simp [hlive, fenceClear, hop, hstarted]
  have hstep : s.settleFences s.hif.live.length = s.doneRaw l.handle 0 [] := by
    rw [hlive, List.length_singleton]
    unfold Dev.settleFences
    rw [hclear]
    rfl
  rw [hstep, Dev.live?_handle hw.1]
  exact Dev.doneRaw_only hw hlive stOK []

/-- A fence waits while a command before it within its scope is live. -/
theorem Dev.settleFences_waits {s : Dev} {m f : Live} (hlive : s.hif.live = [m, f]) (hm : m.op ≠ 2) (hbefore : m.order < f.order)
    (hopen : m.openEnded = false) (horphan : m.orphan = f.orphan) (hsq : m.sq = f.sq) (n : Nat) : s.settleFences n = s := by
  have hnone : s.hif.live.find? (fenceClear s.hif.live) = none := by
    simp [hlive, fenceClear, hm, hbefore, hopen, horphan, hsq]
  cases n with
  | zero => rfl
  | succ n => unfold Dev.settleFences; rw [hnone]

theorem Dev.live_markStarted (s : Dev) (h : Nat) :
    (s.begin.markStarted h).hif.live = s.hif.live.map fun l => if l.handle = h then { l with started := true } else l := by
  show mapWhere _ _ s.hif.live = _
  simp [mapWhere]

/-- Settles O10: a fence looks at the commands live before it. -/
theorem nopFenceAndFetchedResumeOfTheHost : Obligations.NopFenceAndFetchedResumeOfTheHost := by
  refine ⟨fun s h l hs hr => .answered rfl hs hr rfl, fun s h l hs hr hlive => ?_, fun s h l m hs hr hlive hop hm hbefore hopen horphan hsq => ?_⟩
  · have hmarked : (s.begin.markStarted h).hif.live = [{ l with started := true }] := by simp [Dev.live_markStarted, hlive, hr.handle_eq]
    have hf : Frame [.out, .hif] s.toDev ((s.begin.markStarted h).settleFences (s.begin.markStarted h).hif.live.length) :=
      (frame_begin_markStarted _ h).trans ((frame_settleFences _ _).mono (by decide))
    exact .of_command rfl hs hr rfl hf (by decide) (by decide)
      ⟨Dev.settleFences_only hr.waits hmarked (Dev.startable_live hr.1).2.1 rfl, hf⟩
  · have hmarked : (s.begin.markStarted h).hif.live = [m, { l with started := true }] := by
      simp [Dev.live_markStarted, hlive, hr.handle_eq, hm]
    have hf := frame_begin_markStarted s.toDev h
    refine .of_command rfl hs hr (Dev.settleFences_waits hmarked hop hbefore hopen (by rw [horphan, hr.2.1]) hsq _) hf (by decide) (by decide)
      ⟨?_, rfl, hf⟩
    have hbegun := hr.begun
    rw [Dev.Begun, hr.handle_eq] at hbegun
    rwa [hr.handle_eq]

/-! Rings come and go (R368) -/

theorem sqLog2_le (r : Nat) : (sqLog2 r).2.1 + (sqLog2 r).2.2 ≤ 32 := by simp [sqLog2]
theorem sqCq_le (r : Nat) : (sqCq r).2.1 + (sqCq r).2.2 ≤ 32 := by simp [sqCq]
theorem sqEn_le (r : Nat) : (sqEn r).2.1 + (sqEn r).2.2 ≤ 32 := by simp [sqEn]
theorem cqLog2_le (r : Nat) : (cqLog2 r).2.1 + (cqLog2 r).2.2 ≤ 32 := by simp [cqLog2]
theorem cqVec_le (r : Nat) : (cqVec r).2.1 + (cqVec r).2.2 ≤ 32 := by simp [cqVec]
theorem cqCoalN_le (r : Nat) : (cqCoalN r).2.1 + (cqCoalN r).2.2 ≤ 32 := by simp [cqCoalN]
theorem cqCoalUs_le (r : Nat) : (cqCoalUs r).2.1 + (cqCoalUs r).2.2 ≤ 32 := by simp [cqCoalUs]
theorem cqEn_le (r : Nat) : (cqEn r).2.1 + (cqEn r).2.2 ≤ 32 := by simp [cqEn]

theorem Dev.flag_setFld (s : Dev) (f : Fld) (v : Nat) (h : f.2.1 + f.2.2 ≤ 32) : (s.setFld f v).flag f = decide (v % 2 ^ f.2.2 = 1) := by
  rw [Dev.flag, Dev.fld_setFld s f v h]

section RingFields
variable (s : Dev) (r n : Nat) (f : Fld)

@[simp] theorem Dev.fld_setSq (q : Sq) : (s.setSq r q).fld f = s.fld f := rfl
@[simp] theorem Dev.flag_setSq (q : Sq) : (s.setSq r q).flag f = s.flag f := rfl
@[simp] theorem Dev.fld_setCq (q : Cq) : (s.setCq r q).fld f = s.fld f := rfl
@[simp] theorem Dev.flag_setCq (q : Cq) : (s.setCq r q).flag f = s.flag f := rfl
@[simp] theorem Dev.sq_tick (q : Nat) : (s.tick n).sq q = s.sq q := rfl
@[simp] theorem Dev.cq_tick (q : Nat) : (s.tick n).cq q = s.cq q := rfl
@[simp] theorem Dev.sq_setFld (v q : Nat) : (s.setFld f v).sq q = s.sq q := rfl
@[simp] theorem Dev.cq_setFld (v q : Nat) : (s.setFld f v).cq q = s.cq q := rfl

end RingFields

/-- The configuration of a submission ring as a word writes it (R388). -/
def Dev.sqConfigured (s : Dev) (r : Nat) (v : Reg) : Dev := (s.setFld (sqLog2 r) (fieldOf v 0 4)).setFld (sqCq r) (fieldOf v 8 5)

/-- The first cause for which a submission ring is not enabled (R368, log entry 13). -/
def Dev.sqBad (s : Dev) (r : Nat) (v : Reg) : Nat :=
  if (s.reg (0x2100 + 0x20 * r)).toNat % 4096 ≠ 0 then 1
  else if fieldOf v 0 4 < 4 ∨ 14 < fieldOf v 0 4 then 5 else if s.flag (cqEn (fieldOf v 8 5)) = false then 2 else 0

section SqConfigured
variable (s : Dev) (r : Nat) (v : Reg)

theorem Dev.setFld_sqConfigured :
    (s.setFld (sqLog2 r) (fieldOf v 0 4)).setFld (sqCq r) (fieldOf v 8 5) = s.sqConfigured r v := rfl

theorem Dev.regsBut_sqConfigured : RegsBut [0x2108 + 0x20 * r] s (s.sqConfigured r v) :=
  (RegsBut.setFld s _ (by simp [sqLog2])).trans (.setFld _ _ (by simp [sqCq]))

theorem Dev.sqConfigured_log2 : (s.sqConfigured r v).fld (sqLog2 r) = fieldOf v 0 4 := by
  rw [Dev.sqConfigured, Dev.fld_setFld_other _ _ _ _ (sqCq_le r) (.inl (by simp [sqLog2, sqCq])), Dev.fld_setFld _ _ _ (sqLog2_le r)]
  exact Nat.mod_eq_of_lt (fieldOf_lt v 0 4)

theorem Dev.sqConfigured_cq : (s.sqConfigured r v).fld (sqCq r) = fieldOf v 8 5 := by
  rw [Dev.sqConfigured, Dev.fld_setFld _ _ _ (sqCq_le r)]
  exact Nat.mod_eq_of_lt (fieldOf_lt v 8 5)

theorem Dev.sqConfigured_en : (s.sqConfigured r v).flag (sqEn r) = s.flag (sqEn r) := by
  rw [Dev.sqConfigured, Dev.flag_setFld_other _ _ _ _ (sqCq_le r) (.inr (by simp [sqEn, sqCq])),
    Dev.flag_setFld_other _ _ _ _ (sqLog2_le r) (.inr (by simp [sqEn, sqLog2]))]

theorem Dev.frame_sqConfigured : Frame [.regs] s (s.sqConfigured r v) := (frame_setFld s _ _).trans (frame_setFld _ _ _)

end SqConfigured

/-- What a word that sets `EN` of a submission ring does. -/
theorem exec_sqEnSet (s : State) (dt : Nat) {r : Nat} {v : Reg} (hr : r < 32) (hen : s.flag (sqEn r) = false) (hv : fieldOf v 16 1 = 1) :
    exec (.sqEnSet dt r v) s = s.act fun s =>
      if (s.tick dt).sqBad r v = 0 then
        (((s.tick dt).sqConfigured r v).setFld (sqEn r) 1).setSq r { s.sq r with err := 0, head := 0, tail := 0 }
      else ((s.tick dt).sqConfigured r v).setSq r { s.sq r with err := (s.tick dt).sqBad r v } := by
  have hbase : ∀ u : Dev, (u.sqConfigured r v).reg (0x2100 + 0x20 * r) = u.reg (0x2100 + 0x20 * r) := fun u =>
    u.regsBut_sqConfigured r v _ (by simp)
  have hcq : ∀ u : Dev, (u.sqConfigured r v).flag (cqEn (fieldOf v 8 5)) = u.flag (cqEn (fieldOf v 8 5)) := fun u =>
    (u.regsBut_sqConfigured r v).flag_eq (by have := fieldOf_lt v 8 5; simp [cqEn]; omega)
  show execSqEnSet dt r v s = _
  unfold execSqEnSet
  rw [State.act_eq, State.act_eq]
  simp only [Dev.flag_tick, hen, hv, Nat.not_le.2 hr, decide_false, Bool.or_self, one_ne_zero, Bool.false_eq_true, if_false,
    Dev.setFld_sqConfigured, hbase, Dev.sqConfigured_log2, Dev.sqConfigured_cq, hcq, Bool.or_eq_true, decide_eq_true_eq,
    Bool.not_eq_true']
  rfl

/-- A word that configures a submission ring keeps its `EN`, or sets it where the ring is good (R368). -/
theorem Completes.sqEnSet (s : State) (dt : Nat) {r : Nat} {v : Reg} (hs : s.Settled) (hr : r < 32) (hen : s.flag (sqEn r) = false)
    (hv : fieldOf v 16 1 = 1) :
    Completes (.sqEnSet dt r v) s fun t =>
      (t.flag (sqEn r) = true ↔ s.sqBad r v = 0) ∧ (t.sq r).err = s.sqBad r v ∧ t.fld (sqLog2 r) = fieldOf v 0 4 ∧
        t.fld (sqCq r) = fieldOf v 8 5 ∧ (s.sqBad r v = 0 → (t.sq r).head = 0 ∧ (t.sq r).tail = 0) ∧ (∀ q, q ≠ r → t.sq q = s.sq q) ∧
        RegsBut [0x2108 + 0x20 * r] s.toDev t ∧ Frame [.clk, .out, .regs, .hif] s.toDev t := by
  have hbad : (s.tick dt).sqBad r v = s.sqBad r v := rfl
  have hreg : RegsBut [0x2108 + 0x20 * r] s.toDev ((s.tick dt).sqConfigured r v) :=
    (RegsBut.of_frame (frame_tick s.toDev dt) (by decide)).trans (Dev.regsBut_sqConfigured _ r v)
  have hframe : Frame [.clk, .out, .regs] s.toDev ((s.tick dt).sqConfigured r v) :=
    (frame_tick s.toDev dt).append (Dev.frame_sqConfigured _ r v)
  by_cases h0 : s.sqBad r v = 0
  · have hf : Frame [.clk, .out, .regs, .hif] s.toDev _ := (hframe.trans ((frame_setFld _ (sqEn r) 1).mono (by decide))).append
      (frame_setSq _ r { s.sq r with err := 0, head := 0, tail := 0 })
    refine .of_act (exec_sqEnSet s dt hr hen hv) (if_pos h0) hs hf (by decide) (by decide)
      ⟨⟨fun _ => h0, fun _ => ?_⟩, ?_, ?_, ?_, fun _ => ?_, fun q hq => ?_, hreg.trans ?_, hf⟩
    · rw [Dev.flag_setSq, Dev.flag_setFld _ _ _ (sqEn_le r)]
      simp [sqEn]
    · simp [h0]
    · rw [Dev.fld_setSq, Dev.fld_setFld_other _ _ _ _ (sqEn_le r) (.inl (by simp [sqEn, sqLog2]))]
      exact Dev.sqConfigured_log2 _ r v
    · rw [Dev.fld_setSq, Dev.fld_setFld_other _ _ _ _ (sqEn_le r) (.inl (by simp [sqEn, sqCq]))]
      exact Dev.sqConfigured_cq _ r v
    · simp
    · rw [Dev.sq_setSq, if_neg hq]
      rfl
    · exact (RegsBut.setFld _ 1 (by simp [sqEn])).trans (.of_frame (frame_setSq _ _ _) (by decide))
  · have hf : Frame [.clk, .out, .regs, .hif] s.toDev _ := hframe.append (frame_setSq _ r { s.sq r with err := s.sqBad r v })
    refine .of_act (exec_sqEnSet s dt hr hen hv) (if_neg h0) hs hf (by decide) (by decide)
      ⟨⟨fun h => ?_, fun h => absurd h h0⟩, ?_, ?_, ?_, fun h => absurd h h0, fun q hq => ?_,
        hreg.trans (.of_frame (frame_setSq _ _ _) (by decide)), hf⟩
    · have hoff : ((s.tick dt).sqConfigured r v).flag (sqEn r) = false := (Dev.sqConfigured_en _ r v).trans hen
      exact absurd (hoff.symm.trans h) (by decide)
    · simp [hbad]
    · exact Dev.sqConfigured_log2 _ r v
    · exact Dev.sqConfigured_cq _ r v
    · rw [Dev.sq_setSq, if_neg hq]
      rfl

theorem Completes.sqEnClear (s : State) (dt : Nat) {r : Nat} {v : Reg} (hs : s.Settled) (hr : r < 32) (hv : fieldOf v 16 1 = 0) :
    Completes (.sqEnClear dt r v) s fun t => t.flag (sqEn r) = false ∧ t.fld (sqLog2 r) = s.fld (sqLog2 r) ∧
      t.fld (sqCq r) = s.fld (sqCq r) ∧ RegsBut [0x2108 + 0x20 * r] s.toDev t ∧ Frame [.clk, .out, .regs] s.toDev t := by
  have hf : Frame [.clk, .out, .regs] s.toDev _ := (frame_tick s.toDev dt).append (frame_setFld _ (sqEn r) 0)
  have he : execSqEnClear dt r v s = s.act fun _ => _ := State.act_congr (if_neg (by simp [hr, hv]))
  refine .of_effect hs hf he (by decide) (by decide) ⟨?_, ?_, ?_, ?_, hf⟩
  · exact (Dev.flag_setFld _ _ 0 (sqEn_le r)).trans (by simp)
  · exact Dev.fld_setFld_other _ _ _ _ (sqEn_le r) (.inl (by simp [sqEn, sqLog2]))
  · exact Dev.fld_setFld_other _ _ _ _ (sqEn_le r) (.inl (by simp [sqEn, sqCq]))
  · exact (RegsBut.of_frame (frame_tick s.toDev dt) (by decide)).trans (.setFld _ 0 (by simp [sqEn]))

/-- A coalescing field a word leaves at 0 keeps its value (R374). -/
def keepField (x old : Nat) : Nat := if x = 0 then old else x

/-- The configuration of a completion ring as a word writes it (R388). -/
def Dev.cqConfigured (s : Dev) (r : Nat) (v : Reg) : Dev :=
  (((s.setFld (cqLog2 r) (fieldOf v 0 4)).setFld (cqVec r) (fieldOf v 8 6)).setFld (cqCoalN r)
    (keepField (fieldOf v 16 8) (((s.setFld (cqLog2 r) (fieldOf v 0 4)).setFld (cqVec r) (fieldOf v 8 6)).fld (cqCoalN r)))).setFld
    (cqCoalUs r) (keepField (fieldOf v 24 8) (((s.setFld (cqLog2 r) (fieldOf v 0 4)).setFld (cqVec r) (fieldOf v 8 6)).fld (cqCoalUs r)))

section CqConfigured
variable (s : Dev) (r : Nat) (v : Reg)

theorem Dev.regsBut_cqConfigured : RegsBut [0x2508 + 0x20 * r] s (s.cqConfigured r v) :=
  (((RegsBut.setFld s _ (by simp [cqLog2])).trans (.setFld _ _ (by simp [cqVec]))).trans (.setFld _ _ (by simp [cqCoalN]))).trans
    (.setFld _ _ (by simp [cqCoalUs]))

theorem Dev.cqConfigured_fld_low {f : Fld} (h : f.2.1 + f.2.2 ≤ 8) (hlog : (cqLog2 r).2.2 ≤ f.2.1) :
    (s.cqConfigured r v).fld f = s.fld f := by
  rw [Dev.cqConfigured, Dev.fld_setFld_other _ _ _ _ (cqCoalUs_le r) (.inl (h.trans (by simp [cqCoalUs]))),
    Dev.fld_setFld_other _ _ _ _ (cqCoalN_le r) (.inl (h.trans (by simp [cqCoalN]))),
    Dev.fld_setFld_other _ _ _ _ (cqVec_le r) (.inl (h.trans (by simp [cqVec]))),
    Dev.fld_setFld_other _ _ _ _ (cqLog2_le r) (.inr (by simpa [cqLog2] using hlog))]

theorem Dev.cqConfigured_log2 : (s.cqConfigured r v).fld (cqLog2 r) = fieldOf v 0 4 := by
  rw [Dev.cqConfigured, Dev.fld_setFld_other _ _ _ _ (cqCoalUs_le r) (.inl (by simp [cqCoalUs, cqLog2])),
    Dev.fld_setFld_other _ _ _ _ (cqCoalN_le r) (.inl (by simp [cqCoalN, cqLog2])),
    Dev.fld_setFld_other _ _ _ _ (cqVec_le r) (.inl (by simp [cqVec, cqLog2])), Dev.fld_setFld _ _ _ (cqLog2_le r)]
  exact Nat.mod_eq_of_lt (fieldOf_lt v 0 4)

theorem Dev.cqConfigured_en : (s.cqConfigured r v).flag (cqEn r) = s.flag (cqEn r) := by
  rw [Dev.flag, Dev.cqConfigured_fld_low s r v (by simp [cqEn]) (by simp [cqLog2, cqEn]), Dev.flag]

theorem Dev.frame_cqConfigured : Frame [.regs] s (s.cqConfigured r v) :=
  (((frame_setFld s _ _).trans (frame_setFld _ _ _)).trans (frame_setFld _ _ _)).trans (frame_setFld _ _ _)

theorem Dev.regsBut_tick_cqConfigured (dt : Nat) : RegsBut [0x2508 + 0x20 * r] s ((s.tick dt).cqConfigured r v) :=
  (RegsBut.of_frame (frame_tick s dt) (by decide)).trans (Dev.regsBut_cqConfigured _ r v)

theorem Dev.frame_tick_cqConfigured (dt : Nat) : Frame [.clk, .out, .regs] s ((s.tick dt).cqConfigured r v) :=
  (frame_tick s dt).append (Dev.frame_cqConfigured _ r v)

end CqConfigured

/-- A completion ring's base and size are legal (R368). -/
abbrev Dev.CqLegal (s : Dev) (r : Nat) (v : Reg) : Prop :=
  (s.reg (0x2500 + 0x20 * r)).toNat % 4096 = 0 ∧ 4 ≤ fieldOf v 0 4 ∧ fieldOf v 0 4 ≤ 14

/-- What a word that sets `EN` of a completion ring does. -/
theorem exec_cqEnSet (s : State) (dt : Nat) {r : Nat} {v : Reg} (hr : r < 32) (hen : s.flag (cqEn r) = false) (hv : fieldOf v 7 1 = 1) :
    exec (.cqEnSet dt r v) s = s.act fun s =>
      if s.CqLegal r v then
        (((s.tick dt).cqConfigured r v).setFld (cqEn r) 1).setCq r
          { s.cq r with head := 0, tail := 0, phase := true, ring := [], hold := [], unsig := 0 }
      else (s.tick dt).cqConfigured r v := by
  have hbase : ∀ u : Dev, (u.cqConfigured r v).reg (0x2500 + 0x20 * r) = u.reg (0x2500 + 0x20 * r) := fun u =>
    u.regsBut_cqConfigured r v _ (by simp)
  have hfold : ∀ u : Dev, (((u.setFld (cqLog2 r) (fieldOf v 0 4)).setFld (cqVec r) (fieldOf v 8 6)).setFld (cqCoalN r)
    (keepField (fieldOf v 16 8) (((u.setFld (cqLog2 r) (fieldOf v 0 4)).setFld (cqVec r) (fieldOf v 8 6)).fld (cqCoalN r)))).setFld
    (cqCoalUs r) (keepField (fieldOf v 24 8) (((u.setFld (cqLog2 r) (fieldOf v 0 4)).setFld (cqVec r) (fieldOf v 8 6)).fld (cqCoalUs r)))
      = u.cqConfigured r v := fun _ => rfl
  show execCqEnSet dt r v s = _
  refine State.act_congr ((if_neg (by simp [Dev.flag_tick, hen, hv, hr])).trans ?_)
  have hcq : ((s.tick dt).cqConfigured r v).cq r = s.cq r := rfl
  simp only [← keepField.eq_def, hfold, hbase, Dev.cqConfigured_log2, hcq, Dev.reg_tick]
  by_cases hl : s.CqLegal r v
  · rw [if_pos hl, if_neg]
    simpa [Dev.CqLegal, and_assoc] using hl
  · rw [if_neg hl, if_pos]
    simp
    omega

/-- Settles O7. -/
theorem ringsAreEnabledAndDisabled : Obligations.RingsAreEnabledAndDisabled := by
  refine ⟨fun s dt r v hs hr hen hv => .sqEnSet s dt hs hr hen hv, fun s dt r v hs hr hv => .sqEnClear s dt hs hr hv,
    fun s dt r v hs hr hen hv hbase hlo hhi => ?_, fun s dt r v hs hr hen hv hbad => ?_, fun s dt r v hs hr hv => ?_⟩
  · have hf : Frame [.clk, .out, .regs, .hif] s.toDev _ := ((Dev.frame_tick_cqConfigured s.toDev r v dt).trans ((frame_setFld _ (cqEn r) 1).mono (by decide))).append
      (frame_setCq _ r { s.cq r with head := 0, tail := 0, phase := true, ring := [], hold := [], unsig := 0 })
    refine .of_act (exec_cqEnSet s dt hr hen hv) (if_pos ⟨hbase, hlo, hhi⟩) hs hf (by decide) (by decide)
      ⟨?_, ?_, by simp, fun q hq => ?_, (Dev.regsBut_tick_cqConfigured s.toDev r v dt).trans ?_, hf⟩
    · rw [Dev.flag_setCq, Dev.flag_setFld _ _ _ (cqEn_le r)]
      simp [cqEn]
    · rw [Dev.fld_setCq, Dev.fld_setFld_other _ _ _ _ (cqEn_le r) (.inl (by simp [cqEn, cqLog2]))]
      exact Dev.cqConfigured_log2 _ r v
    · rw [Dev.cq_setCq, if_neg hq]
      rfl
    · exact (RegsBut.setFld _ 1 (by simp [cqEn])).trans (.of_frame (frame_setCq _ _ _) (by decide))
  · exact .of_act (exec_cqEnSet s dt hr hen hv) (if_neg (by omega)) hs (Dev.frame_tick_cqConfigured s.toDev r v dt) (by decide) (by decide)
      ⟨(Dev.cqConfigured_en _ r v).trans hen, Dev.regsBut_tick_cqConfigured s.toDev r v dt, Dev.frame_tick_cqConfigured s.toDev r v dt⟩
  · have htick := frame_tick s.toDev dt
    by_cases hq : ∃ q, q < 32 ∧ s.flag (sqEn q) = true ∧ s.fld (sqCq q) = r
    · have he : execCqEnClear dt r v s = s.act fun _ => s.tick dt :=
        State.act_congr ((if_neg (by simp [hr, hv])).trans (if_pos (by simp only [List.any_eq_true, List.mem_range, Bool.and_eq_true, decide_eq_true_eq]; exact hq)))
      exact .of_effect hs (a := [.clk, .out, .regs]) (htick.mono (by decide)) he (by decide) (by decide)
        ⟨⟨fun h => ⟨h, hq⟩, fun h => h.1⟩, .of_frame htick (by decide), htick.mono (by decide)⟩
    · have hf : Frame [.clk, .out, .regs] s.toDev _ := htick.append (frame_setFld _ (cqEn r) 0)
      have he : execCqEnClear dt r v s = s.act fun _ => _ :=
        State.act_congr ((if_neg (by simp [hr, hv])).trans (if_neg (by simp only [List.any_eq_true, List.mem_range, Bool.and_eq_true, decide_eq_true_eq]; exact hq)))
      refine .of_effect hs hf he (by decide) (by decide)
        ⟨⟨fun h => ?_, fun h => absurd h.2 hq⟩, (RegsBut.of_frame htick (by decide)).trans (.setFld _ 0 (by simp [cqEn])), hf⟩
      rw [Dev.flag_setFld _ _ _ (cqEn_le r)] at h
      simp at h

end Sys2Proof.Machine

/-! ### Doorbells of the host -/
namespace Sys2Proof.Machine

/-! Room in a ring (R374) -/

/-- Whether a ring has room depends on the rings, the live commands, Bus Master Enable and the ring's own registers. -/
theorem Dev.Room.of_same {s t : Dev} {r : Nat} (h : s.Room r) (hreg : t.reg (cqEn r).1 = s.reg (cqEn r).1)
    (hbme : t.hif.bme = s.hif.bme) (hcqs : t.hif.cqs = s.hif.cqs) (hlive : t.hif.live = s.hif.live) : t.Room r := by
  obtain ⟨he, hb, hh, hf⟩ := h
  have hcq : t.cq r = s.cq r := by rw [Dev.cq, hcqs]; rfl
  have hsize : t.cqSize r = s.cqSize r := by rw [Dev.cqSize, Dev.fld_of_reg (f := cqLog2 r) hreg]; rfl
  exact ⟨by rwa [Dev.flag_of_reg hreg], by rwa [hbme], by rwa [hcq], by rwa [Dev.cqLive, Dev.cqFree, hlive, hsize, hcq]⟩

/-- An entry for a ring with room is written at once (R374). -/
theorem Dev.cqOffer_room {s : Dev} {r : Nat} (e : Entry) (h : s.Room r) : s.cqOffer r e = (s.cqWrite r e, false) := by
  obtain ⟨he, hb, hh, hf⟩ := h
  unfold Dev.cqOffer
  simp [he, hb, hh, hf]

/-- An entry written stands in its ring. -/
theorem Dev.cqWrite_mem (s : Dev) (r : Nat) (e : Entry) :
    { e with phase := (s.cq r).phase, lost := (s.cq r).lostFlag, handle := e.handle % 2 ^ 32 } ∈ ((s.cqWrite r e).cq r).ring := by
  rw [Dev.ring_cqWrite, if_pos rfl]
  simp

@[simp] theorem Dev.sqs_sendMsix (s : Dev) (v : Nat) : (s.sendMsix v).hif.sqs = s.hif.sqs := by
  unfold Dev.sendMsix
  split <;> rfl

@[simp] theorem Dev.sqs_coalesce (s : Dev) (r : Nat) : (s.coalesce r).hif.sqs = s.hif.sqs := by
  unfold Dev.coalesce
  dsimp only
  split
  · exact Dev.sqs_sendMsix _ _
  · rfl

@[simp] theorem Dev.sqs_cqWrite (s : Dev) (r : Nat) (e : Entry) : (s.cqWrite r e).hif.sqs = s.hif.sqs := Dev.sqs_coalesce _ _

/-- An event for CQ 0 that finds room stands there, and no loss is raised. -/
theorem Dev.eventCq0_room {s : Dev} {code : Nat} (res : List Byte) (h : s.Room 0) :
    s.eventCq0 code res = s.cqWrite 0 (eventEntry s.nt code res) := by
  unfold Dev.eventCq0
  rw [Dev.cqOffer_room _ h]
  rfl

theorem Dev.told_cqWrite (s : Dev) (t : NT) (r code : Nat) (res : List Byte) : (s.cqWrite r (eventEntry t code res)).Told r code res :=
  ⟨_, Dev.cqWrite_mem s r _, rfl, rfl, rfl⟩

/-! Doorbells (R371, R384) -/

theorem frame_feedHost (s : Dev) : Frame [.hif, .flt] s s.feedHost :=
  (frame_withHif s { s.hif with fed := s.up, silent := false }).append (frame_fallLevel _ 0x7E)

theorem Dev.hif_fallLevel (s : Dev) (n : Nat) : (s.fallLevel n).hif = s.hif := frame_fallLevel s n .hif (by decide)

@[simp] theorem Dev.hif_feedHost (s : Dev) : s.feedHost.hif = { s.hif with fed := s.up, silent := false } := Dev.hif_fallLevel _ _

@[simp] theorem Dev.sq_feedHost (s : Dev) (r : Nat) : s.feedHost.sq r = s.sq r := by rw [Dev.sq, Dev.hif_feedHost]; rfl

@[simp] theorem Dev.cq_feedHost (s : Dev) (r : Nat) : s.feedHost.cq r = s.cq r := by rw [Dev.cq, Dev.hif_feedHost]; rfl

@[simp] theorem Dev.reg_feedHost (s : Dev) (o : Nat) : s.feedHost.reg o = s.reg o := Dev.reg_of_frame (frame_feedHost s) (by decide) o

@[simp] theorem Dev.fld_feedHost (s : Dev) (f : Fld) : s.feedHost.fld f = s.fld f := Dev.fld_of_reg (Dev.reg_feedHost s f.1)

@[simp] theorem Dev.flag_feedHost (s : Dev) (f : Fld) : s.feedHost.flag f = s.flag f := Dev.flag_of_reg (Dev.reg_feedHost s f.1)

@[simp] theorem Dev.up_feedHost (s : Dev) : s.feedHost.up = s.up := by
  rw [Dev.up, frame_feedHost s .clk (by decide), Dev.up]

/-- What a doorbell does before it is judged: time passes and the watchdog starts again. -/
abbrev Dev.rung (s : Dev) (dt : Nat) : Dev := (s.tick dt).feedHost

theorem frame_rung (s : Dev) (dt : Nat) : Frame [.clk, .out, .hif, .flt] s (s.rung dt) := (frame_tick s dt).append (frame_feedHost _)

theorem Dev.hif_rung (s : Dev) (dt : Nat) : (s.rung dt).hif = { s.hif with fed := (s.rung dt).up, silent := false } := by
  rw [Dev.up_feedHost, Dev.hif_feedHost]
  rfl

theorem exec_sqTail (s : State) (dt : Nat) {r : Nat} (v : Reg) (hr : r < 32) (hen : s.flag (sqEn r) = true) :
    exec (.sqTail dt r v) s = s.act fun s =>
      if s.sqSize r ≤ v.toNat then (s.rung dt).ringError r 3 else (s.rung dt).setSq r { s.sq r with tail := v.toNat } := by
  show execSqTail dt r v s = _
  refine State.act_congr ((if_neg (by simp [hr, hen])).trans ?_)
  simp only [Dev.sqSize, Dev.fld_feedHost, Dev.fld_tick, Dev.sq_feedHost, Dev.sq_tick]
  rfl

/-- A completion ring's entries up to a value of `CQ_HEAD`. -/
abbrev Dev.consumed (s : Dev) (r : Nat) (v : Reg) : Nat := (v.toNat + s.cqSize r - (s.cq r).head) % s.cqSize r

theorem exec_cqHead (s : State) (dt : Nat) {r : Nat} (v : Reg) (hr : r < 32) (hen : s.flag (cqEn r) = true) :
    exec (.cqHead dt r v) s = s.act fun s =>
      if s.cqSize r ≤ v.toNat ∨ (s.cq r).ring.length < s.consumed r v then ((s.rung dt).setCq r { s.cq r with badHead := true }).raise 0x7C
      else (s.rung dt).setCq r { s.cq r with head := v.toNat, ring := (s.cq r).ring.drop (s.consumed r v) } := by
  show execCqHead dt r v s = _
  refine State.act_congr ((if_neg (by simp [hr, hen])).trans ?_)
  simp only [Dev.cqSize, Dev.fld_feedHost, Dev.fld_tick, Dev.cq_feedHost, Dev.cq_tick, Bool.or_eq_true, decide_eq_true_eq]
  exact ite_congr rfl (fun _ => rfl) fun _ => rfl

/-- A submission ring stopped with an error, before the host is told (R371). -/
def Dev.ringStopped (s : Dev) (r err : Nat) : Dev :=
  (((s.setFld (sqEn r) 0).setSq r { s.sq r with err }).cntSat (0x2044, 16, 16)).raise 0x7C

theorem frame_ringStopped (s : Dev) (r err : Nat) : Frame [.regs, .hif, .todo] s (s.ringStopped r err) :=
  (((frame_setFld s _ 0).append (frame_setSq _ r _)).trans ((frame_cntSat _ _).mono (by decide))).append (frame_raise _ _)

theorem Dev.regsBut_ringStopped (s : Dev) (r err : Nat) : RegsBut [0x2108 + 0x20 * r, 0x2044] s (s.ringStopped r err) := by
  have hen : RegsBut [0x2108 + 0x20 * r, 0x2044] s (s.setFld (sqEn r) 0) := .setFld s _ (by simp [sqEn])
  have hcnt : RegsBut [0x2108 + 0x20 * r, 0x2044] ((s.setFld (sqEn r) 0).setSq r { s.sq r with err }) _ :=
    .setFld _ (f := (0x2044, 16, 16)) (satInc 16 (((s.setFld (sqEn r) 0).setSq r { s.sq r with err }).fld (0x2044, 16, 16))) (by simp)
  exact (hen.trans (.of_frame (frame_setSq _ r _) (by decide))).trans (hcnt.trans (.of_frame (frame_raise _ 0x7C) (by decide)))

theorem Dev.todo_raise (s : Dev) (n : Nat) : (s.raise n).todo = s.todo ++ [.fault n false] := rfl

theorem Dev.todo_ringStopped (s : Dev) (r err : Nat) : (s.ringStopped r err).todo = s.todo ++ [.fault 0x7C false] := by
  rw [Dev.ringStopped, Dev.todo_raise, frame_cntSat _ _ .todo (by decide), frame_setSq _ _ _ .todo (by decide),
    frame_setFld _ _ _ .todo (by decide)]

@[simp] theorem Dev.flag_raise (s : Dev) (n : Nat) (f : Fld) : (s.raise n).flag f = s.flag f := rfl
@[simp] theorem Dev.sq_raise (s : Dev) (n r : Nat) : (s.raise n).sq r = s.sq r := rfl

theorem Dev.flag_ringStopped (s : Dev) {r : Nat} (err : Nat) : (s.ringStopped r err).flag (sqEn r) = false := by
  have hne : (sqEn r).1 ≠ 0x2044 := by
    simp only [sqEn]
    omega
  rw [Dev.ringStopped, Dev.flag_raise, Dev.cntSat, Dev.flag_setFld_ne _ _ _ _ hne, Dev.flag_setSq, Dev.flag_setFld _ _ _ (sqEn_le r)]
  simp

theorem Dev.sq_ringStopped (s : Dev) (r err : Nat) : (s.ringStopped r err).sq r = { s.sq r with err } := by
  rw [Dev.ringStopped, Dev.sq_raise, Dev.cntSat, Dev.sq_setFld, Dev.sq_setSq, if_pos rfl]

/-- The registers of a submission ring and its error count are none of a completion ring's. -/
theorem Dev.Room.ringStopped {s : Dev} {q r : Nat} (h : s.Room q) (hr : r < 32) (err : Nat) : (s.ringStopped r err).Room q := by
  have hreg : (cqEn q).1 ∉ [0x2108 + 0x20 * r, 0x2044] := by
    simp only [cqEn, List.mem_cons, List.not_mem_nil, or_false]
    omega
  exact h.of_same (Dev.regsBut_ringStopped s r err _ hreg) rfl rfl rfl

theorem Dev.ringError_room {s : Dev} {r : Nat} (hr : r < 32) (err : Nat) (h : s.Room 0) :
    s.ringError r err = (s.ringStopped r err).cqWrite 0 (eventEntry s.nt 0x0201 (leBytes r 1 ++ leBytes err 1)) := by
  have hnt : (s.ringStopped r err).nt = s.nt := by rw [Dev.nt, frame_ringStopped s r err .clk (by decide), Dev.nt]
  rw [← hnt]
  exact Dev.eventCq0_room _ (h.ringStopped hr err)

/-- Settles O6. -/
theorem doorbellsMoveTheirRings : Obligations.DoorbellsMoveTheirRings := by
  refine ⟨fun s dt r v hs hr hen hv => ?_, fun s dt r v hr hen hv hroom => ?_, fun s dt r v hs hr hen hv hn => ?_, fun s dt r v hr hen hv => ?_⟩
  · have hf : Frame [.clk, .out, .hif, .flt] s.toDev _ := (frame_rung s.toDev dt).trans
      ((frame_setSq _ r { s.sq r with tail := v.toNat }).mono (by decide))
    refine .of_act (exec_sqTail s dt v hr hen) (if_neg (Nat.not_le.2 hv)) hs hf (by decide) (by decide)
      ⟨by simp, fun q hq => by simp [hq], ?_, ?_, ?_, hf⟩
    · exact (congrArg Hif.live (Dev.hif_rung s.toDev dt) :)
    · exact (congrArg Hif.fed (Dev.hif_rung s.toDev dt) :)
    · exact (congrArg Hif.silent (Dev.hif_rung s.toDev dt) :)
  · have hrung : (s.rung dt).Room 0 := hroom.of_same (Dev.reg_feedHost _ _) (by rw [Dev.hif_feedHost]; rfl)
      (by rw [Dev.hif_feedHost]; rfl) (by rw [Dev.hif_feedHost]; rfl)
    have hmark := frame_cqWrite ((s.rung dt).ringStopped r 3) 0 (eventEntry (s.rung dt).nt 0x0201 (leBytes r 1 ++ leBytes 3 1))
    refine .of_act (exec_sqTail s dt v hr hen) ((if_pos hv).trans (Dev.ringError_room hr 3 hrung)) ⟨?_, ?_, ?_, ?_, ?_, ?_⟩
    · rw [Dev.flag_of_reg (Dev.reg_of_frame hmark (by decide) _)]
      exact Dev.flag_ringStopped _ 3
    · rw [Dev.sq, Dev.sqs_cqWrite, ← Dev.sq, Dev.sq_ringStopped]
      simp
    · rw [hmark .todo (by decide), Dev.todo_ringStopped, frame_rung s.toDev dt .todo (by decide)]
    · exact Dev.told_cqWrite _ _ 0 0x0201 (leBytes r 1 ++ leBytes 3 1)
    · exact ((RegsBut.of_frame (frame_rung s.toDev dt) (by decide)).trans (Dev.regsBut_ringStopped _ r 3)).trans
        (.of_frame hmark (by decide))
    · exact ((frame_rung s.toDev dt).two (by decide) (by decide) (frame_ringStopped _ r 3)).trans (hmark.mono (by decide))
  · have hf : Frame [.clk, .out, .hif, .flt] s.toDev _ := (frame_rung s.toDev dt).trans
      ((frame_setCq _ r { s.cq r with head := v.toNat, ring := (s.cq r).ring.drop (s.consumed r v) }).mono (by decide))
    refine .of_act (exec_cqHead s dt v hr hen) (if_neg (by rintro (h | h); exacts [Nat.not_le.2 hv h, Nat.not_le.2 h hn])) hs hf (by decide) (by decide)
      ⟨by simp, fun q hq => by simp [hq], ?_, ?_, hf⟩
    · exact (congrArg Hif.live (Dev.hif_rung s.toDev dt) :)
    · exact (congrArg Hif.fed (Dev.hif_rung s.toDev dt) :)
  · have hf : Frame [.clk, .out, .hif, .flt, .todo] s.toDev _ := ((frame_rung s.toDev dt).trans
      ((frame_setCq _ r { s.cq r with badHead := true }).mono (by decide))).append (frame_raise _ 0x7C)
    refine .of_act (exec_cqHead s dt v hr hen) (if_pos hv) ⟨?_, ?_, hf⟩
    · simp
    · rw [Dev.todo_raise, frame_setCq _ _ _ .todo (by decide), frame_rung s.toDev dt .todo (by decide)]

end Sys2Proof.Machine

/-! ### Held entries and timed outputs: two statements that fail -/
namespace Sys2Proof.Machine

/-- The live command of the arm of `State.fullHold`. -/
def captureLive : Live := { handle := 5, sq := 0, cq := 0, tag := 0, op := 0x13, entry := [], order := 0, started := true }

/-- Completion ring 0 is enabled and empty, its hold buffer is full of 64 entries, and a record of capture input 0 waits in the
input's own buffer for room in it (R62, R374). -/
def State.fullHold : State :=
  { toDev := { State.reset.setReg 0x2508 0x84 with
      hif := { State.reset.hif with bme := true, live := [captureLive], cqs := [(0, { hold := List.replicate 64 { kind := .event } })] }
      caps := [(0, { arm := some { handle := 5, edge := 0, count := 2, tStart := 0, tEnd := none, begun := true, made := 1 }, buf := [[]] })] }
    pending := [] }

/-- What ring 0 holds back after a command. -/
def State.heldAfter (s : State) (c : Instr) : Option Nat :=
  match exec c s with
  | .next t => some (t.cq 0).hold.length
  | _ => none

/-- The room that the drain makes is taken at once by the record that waited for it. -/
theorem holdBufferDrain_fullHold : State.fullHold.heldAfter (.holdBufferDrain 0) = some 64 := by decide +kernel

/-- Refutes O9: a drain also hands on what a capture input kept back, so the hold buffer is not just one entry shorter. -/
theorem not_heldEntriesAndMessagesAreDelivered : ¬ Obligations.HeldEntriesAndMessagesAreDelivered := by
  rintro ⟨hdrain, -⟩
  obtain ⟨t, hexec, -, hhold, -⟩ := hdrain .fullHold 0 { kind := .event } (List.replicate 63 { kind := .event }) ⟨rfl, rfl⟩ rfl
    (by decide) (by decide +kernel) rfl (by decide +kernel)
  have hheld := holdBufferDrain_fullHold
  rw [State.heldAfter, hexec] at hheld
  have hlen : (t.cq 0).hold.length = 64 := Option.some.inj hheld
  rw [hhold] at hlen
  exact absurd hlen (by decide)

/-- `OUTPUT_ARM` is a direct write of the control register of its output (R63). -/
theorem exec_outputArm (s : State) (dt : Nat) (v : Reg) {n : Nat} (hn : n < 4) :
    exec (.outputArm dt n v) s = s.act fun s => (s.tick dt).directWrite (fOutCtrl n) v :=
  show execOutputArm dt n v s = _ from State.act_congr (if_neg (Nat.not_le.2 hn))

/-- A device with `TDC_CAL` and the launch time of output 0 far ahead, whose `PERIOD` is 0 (R63). -/
def State.outputAhead : State :=
  { toDev := { State.reset.setReg 0x4204 1 with tim := { State.reset.tim with tdcCal := true } }, pending := [] }

/-- The effect of a periodic arm whose `PERIOD` is 0, before settling: output 0 is not armed (log entry 97). -/
theorem directWrite_outputAhead : ((State.outputAhead.tick 0).directWrite (fOutCtrl 0) 0x107).flag (fOutArm 0) = false := by decide +kernel

theorem outCtrl_not_settled : ¬ SettleReg (fOutCtrl 0) := by
  rintro (h | ⟨n, h⟩ | ⟨n, hn, h⟩)
  · exact absurd h (by decide)
  · rw [fOutCtrl] at h
    omega
  · rw [fOutCtrl] at h
    omega

/-- Refutes O18: an arm in periodic mode is ignored while `PERIOD` stands at 0, so `ARMED` stays clear. -/
theorem not_timedOutputsFireAtTheirLaunchTime : ¬ Obligations.TimedOutputsFireAtTheirLaunchTime := by
  rintro ⟨harm, -⟩
  obtain ⟨t, d, hexec, -, hsettle, hflag, -⟩ := harm .outputAhead 0 0 0x107 (by decide) (by decide +kernel) (by decide +kernel) rfl
    (by decide +kernel) (by decide +kernel) (by decide +kernel)
  have hctrl : ∀ u : Dev, (settle u).flag (fOutArm 0) = u.flag (fOutArm 0) := fun u =>
    Dev.flag_of_reg (reg_settle outCtrl_not_settled u)
  have he := exec_outputArm .outputAhead 0 0x107 (n := 0) (by decide)
  rw [hexec, State.act_eq] at he
  have ht : t.toDev = settle ((State.outputAhead.tick 0).directWrite (fOutCtrl 0) 0x107) := by rw [Host.Outcome.next.inj he]
  rw [← hctrl, ← hsettle, ht, hctrl, directWrite_outputAhead] at hflag
  exact Bool.false_ne_true hflag

/-! A fleet stop and an axis at the edge of its Hedge window -/

/-- Settling starts no axis. -/
theorem Dev.axesSlow_settle (d : Dev) : d.AxesSlow (settle d) := by
  have hall : ∀ (k : Nat) (u : Dev), d.AxesSlow u → d.AxesSlow (u.settleAll k) := fun k u hu =>
    Dev.settleAll_induction (P := fun v => d.AxesSlow v) (fun _ _ h => h) (fun v x h => h.trans (Dev.axesSlow_settleOne v x)) k u hu
  exact hall _ _ ((hall _ d (.refl d)).trans (.of_frame (frame_takeFreeze _) (by decide)))

/-- `State.edging` with a fleet stop of the host that can run and be answered. -/
def State.edgingStop : State :=
  { toDev := { State.edging.setReg 0x2508 0x84 with
      hif := { State.edging.hif with bme := true, live := [{ handle := 5, sq := 0, cq := 0, tag := 0, op := 0x90, entry := [], order := 0 }] } }
    pending := [] }

/-- The state of axis 0 that a command leaves. -/
theorem fleetStop_edgingStop : State.edgingStop.afterStop (.fleetStop 5) = some (.fleetStop, .moving) := by decide +kernel

/-- Refutes O40: an axis that ramps to the edge of its window still moves after a fleet stop, and settling starts no axis. -/
theorem not_theFleetIsStoppedAndResumed : ¬ Obligations.TheFleetIsStoppedAndResumed := by
  rintro ⟨hstop, -⟩
  obtain ⟨t, d, hexec, -, hsettle, -, -, haxes, -⟩ := hstop .edgingStop 5
    { handle := 5, sq := 0, cq := 0, tag := 0, op := 0x90, entry := [], order := 0 } ⟨rfl, rfl⟩ (by decide +kernel) rfl (by decide)
  have hmoves := fleetStop_edgingStop
  rw [State.afterStop, hexec] at hmoves
  have haxis : (settle d).axis 0 = t.axis 0 := by rw [← hsettle]
  exact (Dev.axesSlow_settle d 0).not_moving (haxes 0 (by decide)).1 (haxis ▸ congrArg Prod.snd (Option.some.inj hmoves))

end Sys2Proof.Machine

/-! ### Queues, resets and the collector: three statements that fail -/
namespace Sys2Proof.Machine

/-! A push into a queue whose head is empty and whose tail holds more words than the queue (R353) -/

/-- A word that is an item of its own. -/
def itemWord : QWord := { data := 0, sop := true, eop := true }

/-- Queue 8 holds one word, and its tail counts 16. -/
def State.tailOver : State :=
  { toDev := { State.reset with fuse := { State.reset.fuse with big := false }
                                que := { State.reset.que with queues := [(8, { words := [itemWord], tail := 16 })] } }
    pending := [] }

/-- The words that queue 8 holds after a command. -/
def State.wordsAfter (s : State) (c : Instr) : Option (List QWord) :=
  match exec c s with
  | .next t => some (t.queue 8).words
  | _ => none

/-- The refill before the pop leaves a full tail, and the word pushed is dropped. -/
theorem queuePush_tailOver : State.tailOver.wordsAfter (.queuePush 0 8 itemWord 1 true) = some [] := by decide +kernel

/-- Refutes O46: a push with a pop in the same cycle can find the tail full after the refill, and then the word is dropped. -/
theorem not_queuesTakeGiveAndFlushWords : ¬ Obligations.QueuesTakeGiveAndFlushWords := by
  rintro ⟨-, hpush, -⟩
  obtain ⟨t, hexec, -, hwords, -⟩ := hpush .tailOver 0 8 1 itemWord itemWord [] ⟨rfl, rfl⟩ (by decide) (by decide +kernel) rfl rfl
    rfl (by decide +kernel) (by decide) (.inr (by decide))
  have hheld := queuePush_tailOver
  rw [State.wordsAfter, hexec] at hheld
  have hempty : (t.queue 8).words = [] := Option.some.inj hheld
  rw [hwords] at hempty
  exact absurd hempty (by decide)

/-! A reset of a table that lists an axis twice -/

/-- Axis 0 is listed twice, first with the record of a new axis and then with its home input high. -/
def State.twiceListed : State := { State.reset with axes := [(0, {}), (0, { inH := true })] }

/-- The home input of axis 0 after a command. -/
def State.homeAfter (s : State) (c : Instr) : Option Bool :=
  match exec c s with
  | .next t => some (t.axis 0).inH
  | _ => none

/-- The reset drops the first entry, whose record is that of a new axis, and the second shows. -/
theorem rstNAssert_twiceListed : State.twiceListed.homeAfter (.rstNAssert 0 1000) = some true := by decide +kernel

/-- Refutes O47: in a table that lists an axis twice a reset does not keep the home input that was read before it. -/
theorem not_powerAndResetBringTheDeviceBack : ¬ Obligations.PowerAndResetBringTheDeviceBack := by
  rintro ⟨-, -, -, -, hlow, -⟩
  obtain ⟨t, hexec, -, -, -, -, -, -, -, -, -, -, -, haxis, -⟩ := hlow .twiceListed 0 1000 le_rfl (by decide)
  have hhome := rstNAssert_twiceListed
  rw [State.homeAfter, hexec] at hhome
  have hin : (t.axis 0).inH = true := Option.some.inj hhome
  rw [(haxis 0).2] at hin
  exact absurd hin (by decide)

/-! A parity error of the collector in a pause of the safety island's firmware (R439, R440) -/

/-- The times of source 0xBA are one event now, or they and every level are as they were. -/
def Dev.ParityOrKept (s t : Dev) : Prop :=
  t.winNow = s.winNow ∧ ((t.src 0xBA).times = [t.winNow] ∨
    ((t.src 0xBA).times = (s.src 0xBA).times ∧ ∀ n, (t.src n).level = (s.src n).level))

theorem Dev.winNow_of_frame {a : List Area} {s t : Dev} (h : Frame a s t) (hc : .clk ∉ a) (hu : .upd ∉ a) : t.winNow = s.winNow := by
  have hclk : t.clk = s.clk := h .clk hc
  have hupd : t.upd = s.upd := h .upd hu
  rw [Dev.winNow, Dev.winNow, Dev.up, Dev.up, hclk, hupd]

theorem Dev.ParityOrKept.of_flt {a : List Area} {s t : Dev} (h : Frame a s t) (hc : .clk ∉ a) (hu : .upd ∉ a) (hf : t.flt = s.flt) :
    s.ParityOrKept t :=
  ⟨Dev.winNow_of_frame h hc hu, .inr ⟨by rw [Dev.src_of_flt hf], fun n => by rw [Dev.src_of_flt hf]⟩⟩

theorem Dev.ParityOrKept.trans {s t u : Dev} (h : s.ParityOrKept t) (k : t.ParityOrKept u) : s.ParityOrKept u := by
  obtain ⟨hnow, h⟩ := h
  obtain ⟨know, k⟩ := k
  refine ⟨know.trans hnow, ?_⟩
  obtain k | ⟨ktimes, klevel⟩ := k
  · exact .inl k
  · obtain h | ⟨htimes, hlevel⟩ := h
    · exact .inl (by rw [ktimes, h, know])
    · exact .inr ⟨ktimes.trans htimes, fun n => (klevel n).trans (hlevel n)⟩

/-- The record of a source other than 0xBA, written with the level it had. -/
theorem Dev.kept_of_setSrc {s t : Dev} {n : Nat} {x : Src} (hn : n ≠ 0xBA) (ht : t.flt = (s.setSrc n x).flt)
    (hx : x.level = (s.src n).level) :
    (t.src 0xBA).times = (s.src 0xBA).times ∧ ∀ m, (t.src m).level = (s.src m).level := by
  refine ⟨by rw [Dev.src_of_flt ht, Dev.src_setSrc, if_neg (Ne.symm hn)], fun m => ?_⟩
  rw [Dev.src_of_flt ht, Dev.src_setSrc]
  split
  · next h => rw [hx, h]
  · rfl

/-- One occurrence of a source: 0xBA has this one event, and any other keeps the levels and the times of 0xBA. -/
theorem Dev.parityOrKept_takeFault (s : Dev) (n : Nat) (i : Bool) : s.ParityOrKept (s.takeFault n i) := by
  refine ⟨Dev.winNow_of_frame (frame_takeFault s n i) (by decide) (by decide), ?_⟩
  unfold Dev.takeFault
  dsimp only
  split
  · exact .inr ⟨by rw [Dev.src_of_flt (s.recordFault_flt n i)], fun m => by rw [Dev.src_of_flt (s.recordFault_flt n i)]⟩
  · split
    · next hn =>
      generalize hx : ({ s.collectorReset.src n with st := .active, times := _, quietAt := _ } : Src) = x
      have hnow : ((((s.collectorReset.setSrc n x).recordFault n i).freeze 2).push (.safe n true)).winNow = s.collectorReset.winNow :=
        (Dev.winNow_of_frame (frame_push _ _) (by decide) (by decide)).trans <|
          (Dev.winNow_of_frame (frame_freeze _ 2) (by decide) (by decide)).trans <|
          (Dev.winNow_of_frame (frame_recordFault _ _ i) (by decide) (by decide)).trans <|
          Dev.winNow_of_frame (frame_setSrc _ _ _) (by decide) (by decide)
      left
      rw [Dev.src_of_flt (s := s.collectorReset.setSrc n x) (by simp), Dev.src_setSrc, if_pos hn.symm, hnow, ← hx]
    · next hn =>
      generalize hx : ({ s.src n with st := _, times := _, quietAt := _ } : Src) = x
      right
      refine Dev.kept_of_setSrc hn (x := x) ?_ (by rw [← hx])
      split
      · simp
      · split <;> simp

theorem Dev.parityOrKept_settleOne (s : Dev) (t : Todo) : s.ParityOrKept (s.settleOne t) := by
  cases t with
  | fault n i => exact s.parityOrKept_takeFault n i
  | stop c w r => exact .of_flt (frame_takeStop s c w r) (by decide) (by decide) (s.takeStop_flt c w r)
  | safe n d => exact .of_flt (frame_takeSafe s n d) (by decide) (by decide) (s.takeSafe_flt n d)

theorem Dev.parityOrKept_settle (s : Dev) : s.ParityOrKept (settle s) := by
  have htodo : ∀ (v : Dev) l, v.ParityOrKept { v with todo := l } := fun v l =>
    .of_flt (frame_withTodo v l) (by decide) (by decide) rfl
  have hall : ∀ (k : Nat) (u : Dev), s.ParityOrKept u → s.ParityOrKept (u.settleAll k) := fun k u hu =>
    Dev.settleAll_induction (P := fun v => s.ParityOrKept v) (fun v l h => h.trans (htodo v l))
      (fun v t h => h.trans (v.parityOrKept_settleOne t)) k u hu
  have hself : s.ParityOrKept s := ⟨rfl, .inr ⟨rfl, fun _ => rfl⟩⟩
  exact hall _ _ ((hall _ _ hself).trans (.of_flt (frame_takeFreeze _) (by decide) (by decide) (Dev.takeFreeze_flt _)))

/-- The table of the sources lists source 0 twice, ACTIVE and then with a level; the windows stand still in the pause of the safety
island, at an instant that is over. -/
def State.twiceSourced : State :=
  { State.reset with flt := { State.reset.flt with srcs := [(0, { st := .active }), (0, { level := true })] }
                     upd := { State.reset.upd with pause := some 5, pauseUp := 7 } }

/-- The times of 0xBA, the clock of the windows and the level of source 0 that a command leaves. -/
def State.parityAfter (s : State) (c : Instr) : Option (List Nat × Nat × Bool) :=
  match exec c s with
  | .next t => some ((t.src 0xBA).times, t.winNow, (t.src 0).level)
  | _ => none

theorem collectorParityError_twiceSourced :
    State.twiceSourced.parityAfter (.collectorParityError 0 false) = some ([0], 7, true) := by decide +kernel

/-- Refutes O37: in a table that lists a source twice the reset of the collector drops the entry that was read, and the level of the
other one shows; settling has not raised it. -/
theorem not_faultsAreInjectedAndForced : ¬ Obligations.FaultsAreInjectedAndForced := by
  rintro ⟨-, -, -, -, -, -, -, -, hparity⟩
  obtain ⟨t, d, hexec, -, hsettle, -, -, -, -, hlevels⟩ := hparity .twiceSourced 0
  have hafter := collectorParityError_twiceSourced
  rw [State.parityAfter, hexec] at hafter
  obtain ⟨htimes, hnow, hlevel⟩ : (t.src 0xBA).times = [0] ∧ t.winNow = 7 ∧ (t.src 0).level = true := by simpa using hafter
  obtain ⟨-, hnew | ⟨-, hkept⟩⟩ := d.parityOrKept_settle
  · rw [← hsettle, htimes, hnow] at hnew
    exact absurd hnew (by decide)
  · have h0 := (hkept 0).trans (hlevels 0 (by decide)).2
    rw [← hsettle, hlevel] at h0
    exact absurd h0 (by decide)

end Sys2Proof.Machine

/-! ### Rootstock and the DRAM -/
namespace Sys2Proof.Machine

theorem frame_withSafTodo (s : Dev) (x : Saf) (l : List Todo) : Frame [.saf, .todo] s { s with saf := x, todo := l } := fun p hp => by
  cases p <;> simp at hp <;> rfl

theorem frame_withMem (s : Dev) (x : Mem) : Frame [.mem] s { s with mem := x } := fun p hp => by cases p <;> simp at hp <;> rfl

theorem frame_withGov (s : Dev) (x : Gov) : Frame [.gov] s { s with gov := x } := fun p hp => by cases p <;> simp at hp <;> rfl

/-- A fault raised for each of a list of causes that wait to be settled. -/
theorem foldl_raise {α : Type} (n : Nat) (l : List α) (s : Dev) :
    l.foldl (fun s _ => s.raise n) s = { s with todo := s.todo ++ List.replicate l.length (.fault n false) } := by
  induction l generalizing s with
  | nil => simp
  | cons a l ih =>
    rw [List.foldl_cons, ih]
    simp [Dev.raise, Dev.push, List.replicate_succ]

/-- A command whose effect is known completes with it, and then settles. -/
theorem CompletesThen.of_effect {c : Instr} {s : State} {u : Dev} {P : Dev → Prop} (he : exec c s = s.act fun _ => u) (hp : P u) :
    CompletesThen c s P := .of_act he rfl hp

/-- Settles O41: what Rootstock's own errors and the planning cores' heartbeats do to its record. -/
theorem rootstockWatchesTheCores : Obligations.RootstockWatchesTheCores := by
  refine ⟨fun s dt => ?_, fun s dt => ?_, fun s dt hs => ?_, fun s dt core hs hcore => ?_, fun s dt => ?_⟩
  · exact .of_effect (u := ({ s.tick dt with saf := { s.saf with restarting := true } }).raise 0xB5) rfl
      ⟨rfl, rfl, (frame_tick s.toDev dt).append (frame_withSafTodo (s.tick dt) _ _)⟩
  · exact .of_effect (u := ({ s.tick dt with saf := { s.saf with restarting := true } }).raise 0xB9) rfl
      ⟨rfl, rfl, (frame_tick s.toDev dt).append (frame_withSafTodo (s.tick dt) _ _)⟩
  · have hf := (frame_tick s.toDev dt).append (frame_withSaf (s.tick dt) { s.saf with restarting := false })
    exact .of_effect hs hf rfl (by decide) (by decide) ⟨rfl, hf⟩
  · have hf := (frame_tick s.toDev dt).append (frame_withSaf (s.tick dt) { s.saf with beats := s.saf.beats.set core true })
    refine .of_effect hs hf rfl (by decide) (by decide) ⟨?_, fun k hk => ?_, rfl, hf⟩
    · exact List.getElem?_set_self hcore
    · exact List.getElem?_set_ne hk.symm
  · have he : execPlanWatchdog dt s = s.act fun _ => _ := State.act_congr (foldl_raise _ _ _)
    refine .of_effect he ⟨rfl, rfl, ?_, fun hfew => ?_, (frame_tick s.toDev dt).append (frame_withSafTodo (s.tick dt) _ _)⟩
    · rintro ⟨m, hm, hmany⟩
      refine List.mem_append_right _ (List.mem_replicate.2 ⟨fun h => ?_, rfl⟩)
      exact List.ne_nil_of_mem (List.mem_filter.2 ⟨hm, decide_eq_true hmany⟩) (List.length_eq_zero_iff.1 h)
    · have hnone := List.filter_eq_nil_iff (p := fun m => decide (2 ≤ m)) |>.2 fun m hm => by simpa using hfew m hm
      exact (congrArg (fun l : List Nat => s.todo ++ List.replicate l.length (Todo.fault 0xB6 false)) hnone).trans (List.append_nil _)

/-! Counters -/

theorem RegsBut.cntSat (s : Dev) (f : Fld) : RegsBut [f.1] s (s.cntSat f) := .setFld s _ (List.mem_singleton.2 rfl)

theorem RegsBut.cntWrap (s : Dev) (f : Fld) : RegsBut [f.1] s (s.cntWrap f) := .setFld s _ (List.mem_singleton.2 rfl)

theorem Dev.fld_cntWrap (s : Dev) (f : Fld) (h : f.2.1 + f.2.2 ≤ 32) : (s.cntWrap f).fld f = wrapInc f.2.2 (s.fld f) := by
  rw [Dev.cntWrap, Dev.fld_setFld _ _ _ h, wrapInc, Nat.mod_mod]

theorem Dev.fld_of_frame {a : List Area} {s t : Dev} (h : Frame a s t) (ha : .regs ∉ a) (f : Fld) : t.fld f = s.fld f :=
  Dev.fld_of_reg (Dev.reg_of_frame h ha f.1)

theorem Dev.flag_of_frame {a : List Area} {s t : Dev} (h : Frame a s t) (ha : .regs ∉ a) (f : Fld) : t.flag f = s.flag f :=
  Dev.flag_of_reg (Dev.reg_of_frame h ha f.1)

/-! The DRAM (R511-R515) -/

theorem Dev.rank_setRank (s : Dev) {r : Nat} (x : Rank) (hr : r < 2) :
    (s.setRank r x).rank r = x ∧ (s.setRank r x).rank (1 - r) = s.rank (1 - r) := by
  obtain rfl | rfl : r = 0 ∨ r = 1 := by omega
  · exact ⟨rfl, rfl⟩
  · exact ⟨rfl, rfl⟩

theorem frame_setRank (s : Dev) (r : Nat) (x : Rank) : Frame [.mem] s (s.setRank r x) := by
  unfold Dev.setRank
  exact .ite (frame_withMem s _) (frame_withMem s _)

theorem frame_askLeave (s : Dev) (cls mw dur : Nat) (dead : NT) (w : Work) : Frame [.gov] s (s.askLeave cls mw dur dead w) :=
  frame_withGov s _

theorem frame_returnLeave (s : Dev) (w : Work) : Frame [.gov] s (s.returnLeave w) := frame_withGov s _

theorem Dev.asksLeave_askLeave (s : Dev) (cls mw dur : Nat) (dead : NT) (w : Work) : (s.askLeave cls mw dur dead w).asksLeave w = true := by
  simp [Dev.askLeave, Dev.asksLeave]

theorem Dev.hasLeave_returnLeave (s : Dev) (w : Work) : (s.returnLeave w).hasLeave w = false := by
  simp [Dev.returnLeave, Dev.hasLeave]

theorem Dev.rank_of_mem {s t : Dev} (h : t.mem = s.mem) (r : Nat) : t.rank r = s.rank r := by rw [Dev.rank, h, Dev.rank]

/-- An event whose ring has room is written there, and nothing is lost. -/
theorem Dev.event_room {s : Dev} {code : Nat} (res : List Byte) (h : s.Room (s.evtCq code)) :
    s.event code res = s.cqWrite (s.evtCq code) (eventEntry s.nt code res) := by
  rw [Dev.event, Dev.cqOffer_room _ h]
  rfl

/-- Where the rings and their registers stand as in a device that has room, the ring of an event is told of it, and only rings
change. -/
theorem Dev.told_event {s u : Dev} {code : Nat} (res : List Byte) (h : s.Room (s.evtCq code)) (hc : code < 0x10000)
    (hhif : u.hif = s.hif) (hreg : ∀ o, 0x2000 ≤ o → o < 0x3000 → u.reg o = s.reg o) :
    (u.event code res).Told (s.evtCq code) code res ∧ Frame [.hif, .out] u (u.event code res) := by
  have hevt : u.evtCq code = s.evtCq code := Dev.fld_of_reg (hreg _ (by dsimp only; omega) (by dsimp only; omega))
  have hring : s.evtCq code < 32 := Dev.fld_lt s _
  have hroom : u.Room (u.evtCq code) := by
    rw [hevt]
    exact h.of_same (hreg _ (by simp only [cqEn]; omega) (by simp only [cqEn]; omega)) (by rw [hhif]) (by rw [hhif]) (by rw [hhif])
  rw [Dev.event_room res hroom, hevt]
  exact ⟨Dev.told_cqWrite _ _ _ _ _, frame_cqWrite _ _ _⟩

theorem Dev.patrolLate_tick (s : Dev) (dt : Nat) : (s.tick dt).patrolLate = s.patrolLate := rfl

/-- The correctable errors of a rank in the powered hour, with this one (R511). -/
def Dev.ceNow (s : Dev) (dt r : Nat) : Nat := satInc 16 (if (s.rank r).hour = (s.up + dt) / cycHz / 3600 then (s.rank r).ce else 0)

/-- The rank that had a correctable error, before its count is judged. -/
def Dev.ceCounted (s : Dev) (dt r : Nat) : Dev :=
  ((s.tick dt).setRank r { s.rank r with ce := s.ceNow dt r, hour := (s.up + dt) / cycHz / 3600 }).raise 0x28

theorem frame_ceCounted (s : Dev) (dt r : Nat) : Frame [.clk, .out, .mem, .todo] s (s.ceCounted dt r) :=
  (frame_tick s dt).append ((frame_setRank _ r _).append (frame_raise _ 0x28))

theorem Dev.todo_ceCounted (s : Dev) (dt r : Nat) : (s.ceCounted dt r).todo = s.todo ++ [.fault 0x28 false] :=
  congrArg (· ++ [Todo.fault 0x28 false]) (frame_setRank (s.tick dt) r _ .todo (by decide))

theorem exec_dramCe (s : State) (dt : Nat) {r : Nat} (hr : r < 2) (hp : (s.rank r).present = true) :
    exec (.dramCe dt r) s = s.act fun s => if s.ceNow dt r = s.fld (0x3018, 8, 8) then
      (if s.flag (0x3018, 16, 1) then ((s.ceCounted dt r).raise 0x2A).startRetire r 1 else (s.ceCounted dt r).raise 0x2A)
      else s.ceCounted dt r := by
  show execDramCe dt r s = _
  have hp' : ((s.tick dt).rank r).present = true := hp
  refine State.act_congr ((if_neg (by simp [hr, hp'])).trans ?_)
  have hup : (s.tick dt).psec = (s.up + dt) / cycHz := by rw [Dev.psec, ← Dev.up, Dev.tick_up]
  have hcounted : ∀ f : Fld, (s.ceCounted dt r).fld f = s.fld f := fun f =>
    Dev.fld_of_reg (Dev.reg_of_frame (frame_ceCounted s.toDev dt r) (by decide) _)
  simp only [hup]
  show (if s.ceNow dt r = (s.ceCounted dt r).fld (0x3018, 8, 8) then _ else s.ceCounted dt r) = _
  rw [hcounted]
  refine ite_congr rfl (fun _ => ?_) fun _ => rfl
  have hflag : ((s.ceCounted dt r).raise 0x2A).flag (0x3018, 16, 1) = s.flag (0x3018, 16, 1) := congrArg (· = 1) (hcounted _) |> decide_eq_decide.2 ∘ Iff.of_eq
  show (if ((s.ceCounted dt r).raise 0x2A).flag (0x3018, 16, 1) = true then ((s.ceCounted dt r).raise 0x2A).startRetire r 1 else (s.ceCounted dt r).raise 0x2A) = _
  rw [hflag]

/-- A rank whose retirement finds room asks leave to move (R511). -/
theorem Dev.startRetire_moves {s : Dev} {r cause : Nat} (hp : (s.rank r).present = true) (hret : (s.rank r).retired = false)
    (hmig : (s.rank r).migrating = false) (hp' : (s.rank (1 - r)).present = true) (hret' : (s.rank (1 - r)).retired = false)
    (hmig' : (s.rank (1 - r)).migrating = false) (hroom : (s.rank (1 - r)).used + (s.rank r).used ≤ (s.rank (1 - r)).blocks) :
    s.startRetire r cause = (s.setRank r { s.rank r with migrating := true, cause }).askLeave 4 800 (scrubTicks (s.rank r).used)
      (ntAdd s.nt ((60 * tickHz : Nat) : Int)) (.migrate r) := by
  unfold Dev.startRetire
  simp only
  rw [if_neg (by simp [hp, hret, hmig]), if_neg (by simp [hp', hret', hmig', hroom])]

/-- A full scrub that neither waits nor runs asks leave (R511). -/
theorem Dev.startScrub_asks {s : Dev} (hs : s.mem.scrub = false) (hw : s.mem.scrubWait = false) :
    ∃ dur, s.startScrub = ({ s with mem := { s.mem with scrubWait := true } }).askLeave 4 800 dur (ntAdd s.nt ((60 * tickHz : Nat) : Int)) .scrub := by
  unfold Dev.startScrub
  rw [if_neg (by simp [hs, hw])]
  exact ⟨_, rfl⟩

/-- The rank that had an uncorrectable error, before the full scrub it asks. -/
def Dev.ueCounted (s : Dev) (dt r addr : Nat) : Dev :=
  let u := ((s.tick dt).setRank r { s.rank r with ue := satInc 8 (s.rank r).ue }).raise 0x29
  { u with mem := { u.mem with ueAddr := addr % 2 ^ 64 } }

theorem frame_ueCounted (s : Dev) (dt r addr : Nat) : Frame [.clk, .out, .mem, .todo] s (s.ueCounted dt r addr) :=
  ((frame_tick s dt).append ((frame_setRank _ r _).append ((frame_raise _ 0x29).append (frame_withMem _ _)))).mono (by decide)

theorem Dev.todo_ueCounted (s : Dev) (dt r addr : Nat) : (s.ueCounted dt r addr).todo = s.todo ++ [.fault 0x29 false] :=
  congrArg (· ++ [Todo.fault 0x29 false]) (frame_setRank (s.tick dt) r _ .todo (by decide))

/-- The device that asks a full scrub after an uncorrectable error. -/
def Dev.ueScrubbed (s : Dev) (dt r addr : Nat) : Dev := (s.ueCounted dt r addr).startScrub

theorem frame_startScrub (s : Dev) : Frame [.mem, .gov] s s.startScrub := by
  unfold Dev.startScrub
  exact .ite (.refl _ s) ((frame_withMem s _).append (frame_askLeave _ _ _ _ _ _))

theorem frame_ueScrubbed (s : Dev) (dt r addr : Nat) : Frame [.clk, .out, .mem, .gov, .todo] s (s.ueScrubbed dt r addr) :=
  ((frame_ueCounted s dt r addr).append (frame_startScrub _)).mono (by decide)

theorem Dev.rank_ueScrubbed (s : Dev) (dt r addr k : Nat) :
    (s.ueScrubbed dt r addr).rank k = ((s.tick dt).setRank r { s.rank r with ue := satInc 8 (s.rank r).ue }).rank k := by
  have hscrub : ∀ u : Dev, u.startScrub.rank k = u.rank k := fun u => by
    unfold Dev.startScrub
    split
    · rfl
    · rfl
  exact hscrub _

theorem exec_dramUe (s : State) (dt addr : Nat) {r : Nat} (hr : r < 2) (hp : (s.rank r).present = true) :
    exec (.dramUe dt r addr) s = s.act fun s =>
      if s.flag (0x3018, 16, 1) then (s.ueScrubbed dt r addr).startRetire r 2 else s.ueScrubbed dt r addr := by
  show execDramUe dt r addr s = _
  have hp' : ((s.tick dt).rank r).present = true := hp
  refine State.act_congr ((if_neg (by simp [hr, hp'])).trans ?_)
  show (if (s.ueScrubbed dt r addr).flag (0x3018, 16, 1) = true then _ else s.ueScrubbed dt r addr) = _
  rw [Dev.flag_of_frame (frame_ueScrubbed s.toDev dt r addr) (by decide)]
  rfl

/-- The rank whose blocks have moved, before the host is told (R511). -/
def Dev.moved (s : Dev) (dt r : Nat) : Dev :=
  let u := (s.tick dt).setRank r { s.rank r with migrating := false, retired := true, used := 0 }
  ((u.setRank (1 - r) { s.rank (1 - r) with used := (s.rank (1 - r)).used + (s.rank r).used }).returnLeave (.migrate r)).raise 0x2B

theorem frame_moved (s : Dev) (dt r : Nat) : Frame [.clk, .out, .mem, .gov, .todo] s (s.moved dt r) :=
  ((frame_tick s dt).append ((frame_setRank _ r _).append ((frame_setRank _ (1 - r) _).append
    ((frame_returnLeave _ _).append (frame_raise _ 0x2B))))).mono (by decide)

/-- Settles O50: each clause follows its own command. -/
theorem theDramIsScrubbedAndItsRanksRetire : Obligations.TheDramIsScrubbedAndItsRanksRetire := by
  refine ⟨fun s dt hs => ?_, fun s dt hpatrol hlate hdue => ?_, fun s dt r n hr hp hn hne => ?_,
    fun s dt r n hr hp hn heq hauto hret hmig hp' hret' hmig' hroom => ?_, fun s dt r addr hr hp hauto hscrub hwait => ?_,
    fun s dt r hr hmig hask hroom => ?_, fun s dt corrected hs hscrub hroom => ?_⟩
  · have htick := frame_tick s.toDev dt
    have hmem := frame_withMem ((s.tick dt).cntWrap (0x3030, 0, 16)) { s.mem with patrolAt := (s.tick dt).up, late := false }
    have hf := htick.append ((frame_cntWrap (s.tick dt) (0x3030, 0, 16)).append hmem)
    exact .of_effect hs hf rfl (by decide) (by decide) ⟨(Dev.fld_of_frame hmem (by decide) _).trans (Dev.fld_cntWrap _ _ (by decide)),
      (RegsBut.of_frame htick (by decide)).trans ((RegsBut.cntWrap _ (0x3030, 0, 16)).trans (.of_frame hmem (by decide))),
      rfl, Dev.tick_up _ _, hf⟩
  · have he : execDramScrubLate dt s = s.act fun _ => ({ s.tick dt with mem := { s.mem with late := true } }).raise 0x2D :=
      State.act_congr (if_neg (by
        rw [Dev.patrolLate_tick, Dev.tick_up]
        simpa [hpatrol, hlate] using not_lt.1 (Nat.not_lt.2 (show s.patrolLate ≤ s.up + dt from hdue))))
    exact .of_effect he ⟨rfl, rfl, rfl, (frame_tick s.toDev dt).append ((frame_withMem _ _).append (frame_raise _ 0x2D))⟩
  · have hcount : s.ceNow dt r = n := hn.symm
    have he : exec (.dramCe dt r) s = s.act fun _ => _ :=
      (exec_dramCe s dt hr hp).trans (State.act_congr (if_neg (hcount ▸ hne)))
    have hrank := Dev.rank_setRank (s.tick dt) { s.rank r with ce := s.ceNow dt r, hour := (s.up + dt) / cycHz / 3600 } hr
    rw [hcount] at hrank
    exact .of_effect he ⟨by rw [Dev.ceCounted, hcount]; exact hrank.1, by rw [Dev.ceCounted, hcount]; exact hrank.2, Dev.todo_ceCounted _ _ _, frame_ceCounted _ _ _⟩
  · have hcount : s.ceNow dt r = n := hn.symm
    have hranks := Dev.rank_setRank (s.tick dt) { s.rank r with ce := n, hour := (s.up + dt) / cycHz / 3600 } hr
    have hcounted : s.ceCounted dt r = ((s.tick dt).setRank r { s.rank r with ce := n, hour := (s.up + dt) / cycHz / 3600 }).raise 0x28 := by
      rw [Dev.ceCounted, hcount]
    generalize hu : (s.ceCounted dt r).raise 0x2A = u
    have hur : u.rank r = { s.rank r with ce := n, hour := (s.up + dt) / cycHz / 3600 } := by rw [← hu, hcounted]; exact hranks.1
    have huo : u.rank (1 - r) = s.rank (1 - r) := by rw [← hu, hcounted]; exact hranks.2
    have hmoves := Dev.startRetire_moves (s := u) (r := r) (cause := 1) (by rw [hur]; exact hp) (by rw [hur]; exact hret)
      (by rw [hur]; exact hmig) (by rwa [huo]) (by rwa [huo]) (by rwa [huo]) (by rwa [huo, hur])
    have he : exec (.dramCe dt r) s = s.act fun _ => _ := (exec_dramCe s dt hr hp).trans
      (State.act_congr ((if_pos (hcount.trans heq)).trans ((if_pos hauto).trans ((congrArg (·.startRetire r 1) hu).trans hmoves))))
    have hfu : Frame [.clk, .out, .mem, .todo] s.toDev u := hu ▸ (frame_ceCounted _ _ _).trans ((frame_raise _ 0x2A).mono (by decide))
    have hrank' := Dev.rank_setRank u { u.rank r with migrating := true, cause := 1 } hr
    have htodo : u.todo = s.todo ++ [.fault 0x28 false, .fault 0x2A false] := by
      rw [← hu]
      show (s.ceCounted dt r).todo ++ _ = _
      rw [Dev.todo_ceCounted, List.append_assoc]
      rfl
    exact .of_effect he ⟨hrank'.1.trans (by rw [hur]), hrank'.2.trans huo,
      (frame_setRank u r _ .todo (by decide)).trans htodo, Dev.asksLeave_askLeave _ _ _ _ _ _,
      (hfu.append ((frame_setRank u r _).append (frame_askLeave _ _ _ _ _ _))).mono (by decide)⟩
  · have hranks := Dev.rank_setRank (s.tick dt) { s.rank r with ue := satInc 8 (s.rank r).ue } hr
    have hmem : (s.ueCounted dt r addr).mem.scrub = false ∧ (s.ueCounted dt r addr).mem.scrubWait = false := by
      obtain rfl | rfl : r = 0 ∨ r = 1 := by omega
      · exact ⟨hscrub, hwait⟩
      · exact ⟨hscrub, hwait⟩
    obtain ⟨dur, hasks⟩ := Dev.startScrub_asks hmem.1 hmem.2
    have he : exec (.dramUe dt r addr) s = s.act fun _ => _ :=
      (exec_dramUe s dt addr hr hp).trans (State.act_congr ((if_neg (by rw [hauto]; decide)).trans hasks))
    have hf := frame_ueScrubbed s.toDev dt r addr
    have hrank := fun k => Dev.rank_ueScrubbed s.toDev dt r addr k
    rw [Dev.ueScrubbed, hasks] at hf hrank
    exact .of_effect he ⟨(hrank r).trans hranks.1, (hrank (1 - r)).trans hranks.2, rfl, rfl, Dev.asksLeave_askLeave _ _ _ _ _ _, Dev.todo_ueCounted s.toDev dt r addr, hf⟩
  · have hp' : ((s.tick dt).rank r).migrating = true := hmig
    have hask' : (s.tick dt).asksLeave (.migrate r) = false := hask
    have he : execRankMigrationDone dt r s = s.act fun _ => (s.moved dt r).event 0x0301 (leBytes r 1 ++ leBytes (s.rank r).cause 1) :=
      State.act_congr (if_neg (by simp [hr, hp', hask']))
    have hf := frame_moved s.toDev dt r
    obtain ⟨htold, hring⟩ := Dev.told_event (u := s.moved dt r) (leBytes r 1 ++ leBytes (s.rank r).cause 1) hroom (by decide)
      (hf .hif (by decide)) fun o _ _ => Dev.reg_of_frame hf (by decide) o
    have hmem := Dev.rank_of_mem (hring .mem (by decide))
    have hgov : (s.moved dt r).hasLeave (.migrate r) = false := Dev.hasLeave_returnLeave _ _
    refine .of_effect he ⟨(hmem r).trans ?_, (hmem (1 - r)).trans ?_, ?_, (hring .todo (by decide)).trans ?_, htold,
      (hf.append hring).mono (by decide)⟩
    · obtain rfl | rfl : r = 0 ∨ r = 1 := by omega
      · rfl
      · rfl
    · obtain rfl | rfl : r = 0 ∨ r = 1 := by omega
      · rfl
      · rfl
    · rwa [Dev.hasLeave, hring .gov (by decide)]
    · obtain rfl | rfl : r = 0 ∨ r = 1 := by omega
      · rfl
      · rfl
  · generalize hv : (({ s.tick dt with mem := { s.mem with scrub := false } } : Dev).returnLeave .scrub) = v
    have hfv : Frame [.clk, .out, .mem, .gov] s.toDev v := hv ▸ (frame_tick s.toDev dt).append
      ((frame_withMem _ { s.mem with scrub := false }).append (frame_returnLeave _ _))
    have hf := hfv.append (frame_cntSat v (0x3030, 16, 16))
    have hregs : RegsBut [0x3030] s.toDev (v.cntSat (0x3030, 16, 16)) := (RegsBut.of_frame hfv (by decide)).trans (.cntSat v (0x3030, 16, 16))
    have he : execFullScrubDone dt corrected s = s.act fun _ => (v.cntSat (0x3030, 16, 16)).event 0x0302 (leBytes corrected 4) :=
      State.act_congr ((if_neg (by simp [hscrub])).trans (congrArg (fun v : Dev => (v.cntSat (0x3030, 16, 16)).event 0x0302 (leBytes corrected 4)) hv))
    obtain ⟨htold, hring⟩ := Dev.told_event (u := v.cntSat (0x3030, 16, 16)) (leBytes corrected 4) hroom (by decide)
      (hf .hif (by decide)) fun o _ ho => hregs o (by simp; omega)
    have hf' := hf.append hring
    refine .of_effect hs hf' he (by decide) (by decide) ⟨(hring .mem (by decide)).trans (by rw [← hv]; rfl), ?_, ?_, htold,
      hregs.trans (.of_frame hring (by decide)), hf'.mono (by decide)⟩
    · have hgov : v.hasLeave .scrub = false := hv ▸ Dev.hasLeave_returnLeave _ _
      rwa [Dev.hasLeave, hring .gov (by decide)]
    · rw [Dev.fld_of_frame hring (by decide), Dev.fld_cntSat _ _ (by decide), Dev.fld_of_frame hfv (by decide)]

end Sys2Proof.Machine

/-! ### The Field Diary: reads, freezes and thaws -/
namespace Sys2Proof.Machine

/-! What has left the device stays out -/

theorem Dev.mem_out_sendMsix {s : Dev} {o : Out} (v : Nat) (h : o ∈ s.out) : o ∈ (s.sendMsix v).out := by
  unfold Dev.sendMsix
  split
  · exact h
  · exact List.mem_append_left _ h

theorem Dev.mem_out_coalesce {s : Dev} {o : Out} (r : Nat) (h : o ∈ s.out) : o ∈ (s.coalesce r).out := by
  unfold Dev.coalesce
  dsimp only
  split
  · exact Dev.mem_out_sendMsix _ h
  · exact h

theorem Dev.mem_out_cqWrite {s : Dev} {o : Out} (r : Nat) (e : Entry) (h : o ∈ s.out) : o ∈ (s.cqWrite r e).out :=
  Dev.mem_out_coalesce r h

theorem Dev.mem_out_doneRaw {s : Dev} {o : Out} (h c : Nat) (b : List Byte) (ho : o ∈ s.out) : o ∈ (s.doneRaw h c b).out := by
  unfold Dev.doneRaw
  split
  · dsimp only
    split
    · exact ho
    · split
      · exact ho
      · split
        · exact Dev.mem_out_cqWrite _ _ ho
        · exact ho
  · exact ho

theorem Dev.mem_out_settleFences {o : Out} (n : Nat) : ∀ {s : Dev}, o ∈ s.out → o ∈ (s.settleFences n).out := by
  induction n with
  | zero => exact id
  | succ n ih =>
    intro s ho
    unfold Dev.settleFences
    split
    · exact ih (Dev.mem_out_doneRaw _ _ _ ho)
    · exact ho

theorem Dev.mem_out_done {s : Dev} {o : Out} (h c : Nat) (b : List Byte) (ho : o ∈ s.out) : o ∈ (s.done h c b).out :=
  Dev.mem_out_settleFences _ (Dev.mem_out_doneRaw h c b ho)

/-! Commands and areas -/

/-- A command that leaves nothing to settle completes with its own effect, whatever areas it changes. -/
theorem Completes.of_settled {c : Instr} {s : State} {u : Dev} {P : Dev → Prop} (he : exec c s = s.act fun _ => u) (hu : u.Settled)
    (hp : P u) : Completes c s P := by
  refine ⟨{ toDev := settle u, pending := s.pending }, he.trans (State.act_of_eq rfl), rfl, ?_⟩
  show P (settle u)
  rwa [settle_of_settled u hu]

/-- A command completes with what its own effect settles to. -/
theorem Completes.of_settle {c : Instr} {s : State} {u v : Dev} {P : Dev → Prop} (he : exec c s = s.act fun _ => u) (hu : settle u = v)
    (hp : P v) : Completes c s P := by
  subst hu
  exact ⟨{ toDev := settle u, pending := s.pending }, he.trans (State.act_of_eq rfl), rfl, hp⟩

/-- A host command that runs does what its own part says. -/
theorem State.command_act {c : Instr} {s : State} {h op : Nat} {l : Live} {k : Live → Dev → Dev} {u : Dev}
    (he : exec c s = s.act fun d => d.command h op k) (hr : s.Runs h op l) (hk : k l (s.begin.markStarted h) = u) :
    exec c s = s.act fun _ => u := he.trans (State.act_congr ((Dev.command_eq k hr).trans hk))

/-- A command that begins leaves each ring the room it had. -/
theorem Dev.Room.markStarted {s : Dev} {r : Nat} (h : s.Room r) (n : Nat) : (s.begin.markStarted n).Room r := by
  obtain ⟨he, hb, hh, hf⟩ := h
  refine ⟨he, hb, hh, ?_⟩
  have hlive : (s.begin.markStarted n).cqLive r = s.cqLive r := by
    show ((mapWhere (fun l : Live => l.handle == n) (fun l => { l with started := true }) s.hif.live).filter _).length = _
    unfold mapWhere
    rw [List.filter_map, List.length_map, Dev.cqLive]
    refine congrArg List.length (List.filter_congr fun l _ => ?_)
    dsimp only [Function.comp]
    split <;> rfl
  rw [hlive]
  exact hf

theorem frame_reply (s : Dev) (h : Nat) (b : List Byte) (w : Bool) (res : List Byte) : Frame [.hif, .out] s (s.reply h b w res) :=
  .ite (frame_done s h _ _) (((frame_emit s _).append (frame_done _ h _ _)).mono (by decide))

/-- A buffer written to the host is answered, and has left the device. -/
theorem Dev.reply_answered {s : Dev} {h : Nat} {l : Live} (hw : s.Waits h l) (b : List Byte) (res : List Byte) :
    (s.reply h b false res).Answered l stOK res ∧ .host h 0 0 b ∈ (s.reply h b false res).out := by
  have hw' : (s.emit (.host h 0 0 b)).Waits h l := hw
  exact ⟨hw'.done stOK res, Dev.mem_out_done _ _ _ (List.mem_append_right _ (List.mem_singleton.2 rfl))⟩

/-! Reads and clears (R463, R464, R465) -/

/-- The answer of a read that reaches the host. -/
theorem Completes.replied {c : Instr} {s : State} {h op : Nat} {l : Live} {k : Live → Dev → Dev} {b res : List Byte}
    (he : exec c s = s.act fun d => d.command h op k) (hs : s.Settled) (hr : s.Runs h op l)
    (hk : k l (s.begin.markStarted h) = (s.begin.markStarted h).reply h b false res) :
    Completes c s fun t => t.Answered l stOK res ∧ .host h 0 0 b ∈ t.out ∧ Frame [.out, .hif] s.toDev t := by
  have hf : Frame [.out, .hif] s.toDev ((s.begin.markStarted h).reply h b false res) :=
    (frame_begin_markStarted _ h).trans ((frame_reply _ h b false res).mono (by decide))
  obtain ⟨hans, hout⟩ := Dev.reply_answered hr.waits b res
  exact .of_command he hs hr hk hf (by decide) (by decide) ⟨hans, hout, hf⟩

/-- The diary with the records or the box that a keyed word names cleared (R465). -/
def Dev.dryCleared (s : Dev) (dt : Nat) (v : Reg) : Dev :=
  { s.tick dt with dry := { s.dry with recs := if bitAt v.toNat 0 then [] else s.dry.recs, box := if bitAt v.toNat 1 then [] else s.dry.box } }

theorem frame_dryCleared (s : Dev) (dt : Nat) (v : Reg) : Frame [.clk, .out, .dry] s (s.dryCleared dt v) :=
  (frame_tick s dt).append (frame_withDry _ _)

theorem exec_dryClear (s : State) (dt : Nat) {v : Reg} (hkey : v.toNat / 65536 = 0xCEA5) (hscope : v.toNat % 65536 ≤ 3) :
    exec (.dryClear dt v) s = s.act fun s =>
      if bitAt v.toNat 1 = true ∧ s.dry.frozen = true then (s.dryCleared dt v).thaw else s.dryCleared dt v := by
  show execDryClear dt v s = _
  refine State.act_congr ((if_neg (by simp [hkey, hscope])).trans ?_)
  unfold Dev.dryCleared
  generalize bitAt v.toNat 0 = recs
  cases bitAt v.toNat 1 with
  | false => cases recs <;> rfl
  | true =>
    have hfrozen : (true = true ∧ s.dry.frozen = true) ↔ s.dry.frozen = true := by simp
    rw [if_congr hfrozen rfl rfl]
    cases recs <;> rfl

/-- Settles O33: each clause follows its own command. -/
theorem theDiaryIsReadAndCleared : Obligations.TheDiaryIsReadAndCleared := by
  refine ⟨fun s h l b hs hr hsel hlen hdeaf hb => ?_, fun s h w l hs hr hsel hlen => ?_, fun s h l b hs hr hlen hdeaf hb => ?_,
    fun s h w l hs hr hlen hdeaf => ?_, fun s dt v hs hkey hscope => ?_, fun s dt v hs hkey hscope hfrozen hroom => ?_,
    fun s dt v hs hkey => ?_, fun s dt v hs => ?_⟩
  · subst hb
    refine .replied rfl hs hr ?_
    have hdeaf' : (s.begin.markStarted h).deaf = false := hdeaf
    simp only [hsel, hlen, hdeaf', if_true, ne_eq, not_true_eq_false, if_false]
    rfl
  · refine .answered rfl hs hr ?_
    simp only [hsel, if_true, if_pos hlen]
    rfl
  · have hdeaf' : (s.begin.markStarted h).deaf = false := hdeaf
    have hreply := Completes.replied (c := .blackboxRead h false) (s := s) (b := b) (res := leBytes (min (l.p 2 2) (s.dry.box.length - l.p 0 2)) 2 ++
      leBytes s.dry.box.length 2 ++ leBytes (b2n s.dry.frozen) 1 ++ leBytes s.dry.cause 1) rfl hs hr (by
        simp only [hlen, hdeaf', ne_eq, not_true_eq_false, if_false, hb]
        rfl)
    obtain ⟨t, hexec, hpend, hans, hout, hf⟩ := hreply
    exact ⟨t, hexec, hpend, hout, hans, hf⟩
  · refine .answered rfl hs hr ?_
    have hdeaf' : (s.begin.markStarted h).deaf = true := hdeaf
    simp only [hlen, hdeaf', ne_eq, not_true_eq_false, if_false, if_true]
  · have hthaw : ¬ (bitAt v.toNat 1 = true ∧ s.dry.frozen = true) := by
      rintro ⟨hbit, hfrozen⟩
      obtain hone | ⟨-, hnot⟩ := hscope
      · simp only [bitAt, Nat.shiftRight_eq_div_pow, decide_eq_true_eq] at hbit
        omega
      · rw [hfrozen] at hnot
        cases hnot
    have he : exec (.dryClear dt v) s = s.act fun _ => _ :=
      (exec_dryClear s dt hkey (by omega)).trans (State.act_congr (if_neg hthaw))
    exact .of_settled he ⟨hs.1, hs.2⟩ ⟨rfl, frame_dryCleared _ _ _⟩
  · have hbit : bitAt v.toNat 1 = true := by
      simp only [bitAt, Nat.shiftRight_eq_div_pow, decide_eq_true_eq]
      omega
    have he : exec (.dryClear dt v) s = s.act fun _ => _ :=
      (exec_dryClear s dt hkey (by omega)).trans (State.act_congr (if_pos ⟨hbit, hfrozen⟩))
    have hf := frame_dryCleared s.toDev dt v
    obtain ⟨htold, hring⟩ := Dev.told_event (u := { s.dryCleared dt v with dry := { (s.dryCleared dt v).dry with frozen := false, cause := 0 } })
      [] hroom (by decide) (hf .hif (by decide)) fun o _ _ => Dev.reg_of_frame hf (by decide) o
    have hdry := hring .dry (by decide)
    refine .of_settled he ⟨(hring .todo (by decide)).trans hs.1, (congrArg Dry.freezeReq hdry).trans hs.2⟩
      ⟨(congrArg Dry.box hdry).trans ?_, congrArg Dry.frozen hdry, htold, (congrArg Dry.recs hdry).trans ?_,
        ((hf.append (frame_withDry _ _)).append hring).mono (by decide)⟩
    · exact if_pos hbit
    · refine if_congr ?_ rfl rfl
      simp only [bitAt, Nat.shiftRight_zero, decide_eq_true_eq]
      omega
  · have hf := frame_tick s.toDev dt
    have he : execDryClear dt v s = s.act fun _ => s.tick dt := State.act_congr (if_pos (by simpa using hkey))
    exact .of_effect hs hf he (by decide) (by decide) hf
  · have he : execLwClr dt v s = s.act fun _ => { s.tick dt with dry := if fieldOf v 31 1 = 1 then { s.dry with lws := [], lwNext := 0 } else s.dry } :=
      State.act_congr (by dsimp only; split <;> rfl)
    refine .of_settled he ⟨hs.1, ?_⟩ ⟨rfl, (frame_tick s.toDev dt).append (frame_withDry _ _)⟩
    split
    · exact hs.2
    · exact hs.2

/-! The freeze of the black box and its image (R455, R456) -/

theorem Rec.lastVal_occur (r : Rec) (t : Stamp) (v b : Nat) (g : Bool) : (r.occur t v b g).lastVal = v := by
  unfold Rec.occur
  dsimp only
  split <;> rfl

/-- The record of a freeze is of the class that needs no token (R453), and enters no box. -/
theorem Dev.occur_freeze {s : Dev} (c : Nat) (h : s.deaf = false) :
    s.occur 0x0C6 c false false false [] = s.setRec 0x0C6 ((s.rec_ 0x0C6).occur s.stamp (sat 16 c) (s.bin 0 (sat 16 c)) true) := by
  unfold Dev.occur
  show (if s.deaf = true then _ else _) = _
  rw [h]
  rfl

/-- The box, frozen by a cause, with the freeze recorded; the host is not told yet. -/
def Dev.iced (s : Dev) (c : Nat) : Dev :=
  let u := { s with dry := { s.dry with freezeReq := none, frozen := true, cause := c, frozenAt := s.up, img := s.dry.box, persisting := true } }
  u.setRec 0x0C6 ((u.rec_ 0x0C6).occur u.stamp (sat 16 c) (u.bin 0 (sat 16 c)) true)

theorem frame_iced (s : Dev) (c : Nat) : Frame [.dry] s (s.iced c) := frame_withDry s _

theorem Dev.rec_iced (s : Dev) (c : Nat) : ((s.iced c).rec_ 0x0C6).lastVal = sat 16 c := by
  unfold Dev.iced
  dsimp only
  rw [Dev.rec_setRec, if_pos rfl, Rec.lastVal_occur]

/-- With nothing else to settle, a freeze that was asked for is taken (R455). -/
theorem settle_of_freeze {s : Dev} {c : Nat} (ht : s.todo = []) (hreq : s.dry.freezeReq = some c) (hdeaf : s.deaf = false)
    (hroom : s.Room (s.evtCq 0x1303)) :
    settle s = (s.iced c).event 0x1303 (leBytes c 4 ++ leBytes s.dry.box.length 2) := by
  have htake : s.takeFreeze = (s.iced c).event 0x1303 (leBytes c 4 ++ leBytes s.dry.box.length 2) := by
    unfold Dev.takeFreeze
    simp only [hreq, hdeaf]
    exact congrArg (fun u : Dev => u.event 0x1303 (leBytes c 4 ++ leBytes s.dry.box.length 2))
      (Dev.occur_freeze (s := { s with dry := { s.dry with freezeReq := none, frozen := true, cause := c, frozenAt := s.up, img := s.dry.box, persisting := true } }) c hdeaf)
  have hring := (Dev.told_event (u := s.iced c) (leBytes c 4 ++ leBytes s.dry.box.length 2) hroom (by decide) rfl fun _ _ _ => rfl).2
  rw [settle, Dev.settleAll_of_todo ht, htake, Dev.settleAll_of_todo]
  exact (hring .todo (by decide)).trans ht

theorem Dev.live_cqOffer (s : Dev) (r : Nat) (e : Entry) : (s.cqOffer r e).1.hif.live = s.hif.live := by
  unfold Dev.cqOffer
  split
  · rfl
  · dsimp only
    split
    · exact Dev.live_cqWrite _ _ _
    · split <;> rfl

theorem Dev.live_event (s : Dev) (c : Nat) (b : List Byte) : (s.event c b).hif.live = s.hif.live := by
  have h := Dev.live_cqOffer s (s.evtCq c) (eventEntry s.nt c b)
  unfold Dev.event
  generalize s.cqOffer (s.evtCq c) (eventEntry s.nt c b) = x at h ⊢
  dsimp only
  split
  · exact h
  · exact h

/-- A command that waits for the freeze it asked for. -/
def Dev.freezeAsked (s : Dev) (h : Nat) : Dev :=
  { s.begin.markStarted h with dry := { s.dry with waiters := s.dry.waiters ++ [h], freezeReq := some 5 } }

theorem frame_freezeAsked (s : Dev) (h : Nat) : Frame [.out, .hif, .dry] s (s.freezeAsked h) :=
  (frame_begin_markStarted s h).append (frame_withDry _ _)

theorem Dev.hold_setCq {s : Dev} {r : Nat} {q : Cq} (h : q.hold = (s.cq r).hold) (k : Nat) : ((s.setCq r q).cq k).hold = (s.cq k).hold := by
  rw [Dev.cq_setCq]
  split
  · next hk => rw [h, hk]
  · rfl

theorem Dev.hold_coalesce (s : Dev) (r k : Nat) : ((s.coalesce r).cq k).hold = (s.cq k).hold := by
  unfold Dev.coalesce
  dsimp only
  split
  · rw [Dev.cq_sendMsix, Dev.hold_setCq (by exact rfl)]
  · exact Dev.hold_setCq (by exact rfl) k

theorem Dev.hold_cqWrite (s : Dev) (r k : Nat) (e : Entry) : ((s.cqWrite r e).cq k).hold = (s.cq k).hold :=
  (Dev.hold_coalesce _ r k).trans (Dev.hold_setCq (by exact rfl) k)

/-- An event whose ring has room is held nowhere. -/
theorem Dev.hold_event {s : Dev} {code : Nat} {res : List Byte} (h : s.Room (s.evtCq code)) (k : Nat) :
    ((s.event code res).cq k).hold = (s.cq k).hold := by
  rw [Dev.event_room res h, Dev.hold_cqWrite]

/-- The device with the frozen image in the older slot of flash (R455), before the host is told. -/
def Dev.imaged (s : Dev) (dt : Nat) : Dev :=
  let n := s.nv.dry
  let img := some (n.seq, s.dry.cause, s.dry.img)
  { s.tick dt with dry := { s.dry with persisting := false, waiters := [], img := [] }
                   nv := { s.nv with dry := { n with seq := n.seq + 1, img0 := if n.olderB then n.img0 else img, img1 := if n.olderB then img else n.img1 } } }

theorem frame_withNv (s : Dev) (x : Nv) : Frame [.nv] s { s with nv := x } := fun p hp => by cases p <;> simp at hp <;> rfl

theorem frame_imaged (s : Dev) (dt : Nat) : Frame [.clk, .out, .dry, .nv] s (s.imaged dt) :=
  (frame_tick s dt).append ((frame_withDry (s.tick dt) { s.dry with persisting := false, waiters := [], img := [] }).append (frame_withNv _ _))

/-- Settles O32: a freeze is taken when its command settles. -/
theorem theBlackBoxFreezesPersistsAndThaws : Obligations.TheBlackBoxFreezesPersistsAndThaws := by
  refine ⟨fun s h l hs hr hdeaf hfrozen hroom => ?_, fun s h l hs hr hdeaf hfrozen => ?_, fun s h l hs hr hdeaf => ?_,
    fun s dt h l hs hpersist hpfw hwait hw hroom => ?_, fun s dt hs hfrozen hpersist hrun hdue hroom => ?_⟩
  · have he : exec (.blackboxFreeze h) s = s.act fun _ => s.freezeAsked h := by
      refine State.command_act rfl hr ?_
      have hdeaf' : (s.begin.markStarted h).deaf = false := hdeaf
      have hfrozen' : (s.begin.markStarted h).dry.frozen = false := hfrozen
      have hreq : (s.begin.markStarted h).dry.freezeReq = none := hs.2
      dsimp only
      rw [if_neg (by rw [hdeaf']; decide), if_neg (by rw [hfrozen']; decide), Dev.freeze, if_neg (by simp [hfrozen']), if_neg (by simp [hreq])]
      rfl
    have hsettle := settle_of_freeze (s := s.freezeAsked h) (c := 5) hs.1 rfl hdeaf (hroom.markStarted h)
    obtain ⟨htold, hring⟩ := Dev.told_event (u := (s.freezeAsked h).iced 5) (leBytes 5 4 ++ leBytes (s.freezeAsked h).dry.box.length 2) (hroom.markStarted h)
      (by decide) rfl fun _ _ _ => rfl
    have hdry := hring .dry (by decide)
    refine .of_settle he hsettle ⟨?_, (congrArg Dry.frozen hdry :), (congrArg Dry.cause hdry :), (congrArg Dry.frozenAt hdry :),
      (congrArg Dry.persisting hdry :), (congrArg Dry.img hdry :), (congrArg Dry.box hdry :), (congrArg Dry.waiters hdry :), ?_, htold, ?_⟩
    · rw [Dev.Begun, Dev.live?, Dev.live_event]
      exact hr.begun
    · rw [Dev.rec_, show Dev.dry (Dev.event _ _ _) = _ from hdry]
      exact Dev.rec_iced _ _
    · exact ((frame_freezeAsked s.toDev h).append ((frame_iced _ 5).append hring)).mono (by decide)
  · have hdeaf' : (s.begin.markStarted h).deaf = false := hdeaf
    have hfrozen' : (s.begin.markStarted h).dry.frozen = true := hfrozen
    generalize hm : s.begin.markStarted h = m at hdeaf' hfrozen'
    have hfm : Frame [.out, .hif] s.toDev m := hm ▸ frame_begin_markStarted s.toDev h
    generalize hv : m.occur 0x0C6 5 false false false [] = v
    have hv' := (Dev.occur_freeze (s := m) 5 hdeaf').symm.trans hv
    have hfv : Frame [.dry] m v := hv' ▸ frame_withDry m _
    have he : exec (.blackboxFreeze h) s = s.act fun _ => (v.cntSat (0x13024, 16, 16)).done h stOK [0, 0, 0, 0, 1] := by
      refine State.command_act rfl hr ?_
      rw [hm, ← hv]
      simp only [hdeaf', hfrozen', Dev.freeze]
      rfl
    have hf := (hfm.append hfv).append ((frame_cntSat v (0x13024, 16, 16)).append (frame_done _ h stOK [0, 0, 0, 0, 1]))
    have hdone := frame_done (v.cntSat (0x13024, 16, 16)) h stOK [0, 0, 0, 0, 1]
    have hregs : RegsBut [0x13024] s.toDev ((v.cntSat (0x13024, 16, 16)).done h stOK [0, 0, 0, 0, 1]) :=
      (RegsBut.of_frame (hfm.append hfv) (by decide)).trans ((RegsBut.cntSat v (0x13024, 16, 16)).trans (.of_frame hdone (by decide)))
    have hw : m.Waits h { l with started := true } := hm ▸ hr.waits
    have hw' : (v.cntSat (0x13024, 16, 16)).Waits h { l with started := true } :=
      hw.of_frame (hfv.append (frame_cntSat v _)) (by decide)
        (((RegsBut.of_frame hfv (by decide)).trans (RegsBut.cntSat v (0x13024, 16, 16))) _ (by simpa using cqEn_reg_ne hr.2.2.2.2 (by omega)))
    have hdry : ((v.cntSat (0x13024, 16, 16)).done h stOK [0, 0, 0, 0, 1]).dry = { s.dry with recs := v.dry.recs } := by
      rw [show ((v.cntSat (0x13024, 16, 16)).done h stOK [0, 0, 0, 0, 1]).dry = v.dry from hdone .dry (by decide), ← hv',
        ← show m.dry = s.dry from hfm .dry (by decide)]
      rfl
    refine .of_settled he ⟨(hf .todo (by decide)).trans hs.1, by rw [hdry]; exact hs.2⟩
      ⟨hw'.done stOK _, by rw [hdry], by rw [hdry]; exact hfrozen, by rw [hdry], ?_, hregs, hf.mono (by decide)⟩
    rw [Dev.fld_of_frame hdone (by decide), Dev.fld_cntSat _ _ (by decide), Dev.fld_of_frame (hfm.append hfv) (by decide)]
  · refine .answered rfl hs hr ?_
    have hdeaf' : (s.begin.markStarted h).deaf = true := hdeaf
    simp only [hdeaf', if_true]
  · have hf0 := frame_imaged s.toDev dt
    have he : execFrozenImagePersisted dt s = s.act fun _ =>
        ((s.imaged dt).event 0x1304 (leBytes (b2n s.nv.dry.olderB) 1)).done h stOK [] := by
      exact State.act_congr ((if_neg (by simp [hpersist, hpfw])).trans (congrArg (fun hs : List Nat => hs.foldl (fun s h => Dev.done s h stOK [])
        ((s.imaged dt).event 0x1304 (leBytes (b2n s.nv.dry.olderB) 1))) hwait))
    obtain ⟨htold, hring⟩ := Dev.told_event (u := s.imaged dt) (leBytes (b2n s.nv.dry.olderB) 1) hroom (by decide) rfl fun _ _ _ => rfl
    have hlive := Dev.live_event (s.imaged dt) 0x1304 (leBytes (b2n s.nv.dry.olderB) 1)
    have hhold := Dev.hold_event (res := leBytes (b2n s.nv.dry.olderB) 1) (hroom.of_same (t := s.imaged dt) rfl rfl rfl rfl)
    generalize (s.imaged dt).event 0x1304 (leBytes (b2n s.nv.dry.olderB) 1) = v at hring htold he hlive hhold
    have hdone := frame_done v h stOK []
    have hf := hf0.append (hring.append hdone)
    have hdry : (v.done h stOK []).dry = (s.imaged dt).dry := (hring.append hdone) .dry (by decide)
    have hnv : (v.done h stOK []).nv = (s.imaged dt).nv := (hring.append hdone) .nv (by decide)
    obtain ⟨hl, ho, hen, hh, hcq⟩ := hw
    have hwv : v.Waits h l := ⟨by rw [Dev.live?, hlive]; exact hl, ho, by rw [Dev.flag_of_frame hring (by decide)]; exact hen,
      (hhold _).trans hh, hcq⟩
    refine .of_settled he ⟨(hf .todo (by decide)).trans hs.1, (congrArg Dry.freezeReq hdry).trans hs.2⟩
      ⟨hwv.done stOK [], hdry, (congrArg (·.dry.seq) hnv :), ?_, ?_, ?_, hf.mono (by decide)⟩
    · rw [hnv]
      unfold Dev.imaged
      dsimp only
      split <;> rfl
    · rw [hnv]
      unfold Dev.imaged
      dsimp only
      split <;> rfl
    · obtain ⟨e, hmem, hfields⟩ := htold
      exact ⟨e, Dev.mem_done hmem, hfields⟩
  · have hdue' : s.dry.frozenAt + 10 * cycHz * s.fld (0x13014, 0, 8) ≤ (s.tick dt).up := by rwa [Dev.tick_up]
    have he : execBlackboxThaw dt s = s.act fun _ => (s.tick dt).thaw := State.act_congr (if_pos (by simpa [hfrozen, hpersist, hrun] using hdue'))
    have hf := frame_tick s.toDev dt
    obtain ⟨htold, hring⟩ := Dev.told_event (u := { s.tick dt with dry := { s.dry with frozen := false, cause := 0 } })
      [] hroom (by decide) rfl fun o _ _ => rfl
    have hdry := hring .dry (by decide)
    exact .of_settled he ⟨(hring .todo (by decide)).trans hs.1, (congrArg Dry.freezeReq hdry).trans hs.2⟩
      ⟨hdry, htold, ((hf.append (frame_withDry _ _)).append hring).mono (by decide)⟩

end Sys2Proof.Machine

/-! ### The Field Diary in flash -/
namespace Sys2Proof.Machine

/-- While all is settled, the diary in flash, its power failure and the soundness of its regions stay. -/
theorem Dev.settleAll_diary (k : Nat) (s : Dev) : (s.settleAll k).nv.dry = s.nv.dry ∧ (s.settleAll k).dry.pfw = s.dry.pfw ∧
    (s.settleAll k).deaf = s.deaf := by
  refine Dev.settleAll_induction (P := fun u => u.nv.dry = s.nv.dry ∧ u.dry.pfw = s.dry.pfw ∧ u.deaf = s.deaf) (fun _ _ h => h)
    (fun u t h => ?_) k s ⟨rfl, rfl, rfl⟩
  obtain ⟨hnv, hpfw, hdeaf⟩ := h
  obtain ⟨knv, kpfw, k0, k1⟩ := (Dev.Settles.settleOne u t).diary
  exact ⟨knv.trans hnv, kpfw.trans hpfw, by rw [← hdeaf, Dev.deaf, k0, k1, Dev.deaf]⟩

/-- The entry just written is the one found. -/
theorem Tab.find?_set {α : Type} [DecidableEq α] (d : Nat → α) (t : Tab α) (i : Nat) {v : α} (hv : v ≠ d i) :
    (Tab.set d t i v).find? (fun p => p.1 == i) = some (i, v) := by
  have hins : ∀ t : Tab α, (∀ p ∈ t, p.1 ≠ i) → (Tab.ins i v t).find? (fun p => p.1 == i) = some (i, v) := fun t => by
    induction t with
    | nil => simp [Tab.ins]
    | cons p t ih =>
      intro hp
      obtain ⟨j, w⟩ := p
      unfold Tab.ins
      split
      · simp
      · rw [List.find?_cons_of_neg (by simpa using hp (j, w) (by simp))]
        exact ih fun p h => hp p (by simp [h])
  unfold Tab.set
  dsimp only
  rw [if_neg hv]
  exact hins _ fun p hp => by simpa using (List.mem_filter.1 hp).2

/-- The end of a condition ends the level, unless a force bit holds it (R432, R437). -/
theorem Dev.level_fallLevel {s : Dev} {n : Nat} (h : s.forced n = false) : ((s.fallLevel n).src n).level = false := by
  unfold Dev.fallLevel
  dsimp only
  split
  · next hl => simpa using hl
  · rw [if_neg (by simp [h]), Dev.src_setSrc, if_pos rfl]

theorem frame_withDryNv (s : Dev) (x : Dry) (y : Nv) : Frame [.dry, .nv] s { s with dry := x, nv := y } := fun p hp => by
  cases p <;> simp at hp <;> rfl

/-- The capture of a slot that holds none. -/
def blankCapture : Nat → Capture := fun _ => { trigger := 0, ports := 0, blocks := [], at_ := {} }

/-- The writes of a power failure (R460, R521). -/
def Dev.powerFailing (s : Dev) (recs : Nat) : Dev :=
  let n := s.nv.dry
  let n := if !s.dry.persisting then n else if n.olderB then { n with img1 := none } else { n with img0 := none }
  let more := (s.changedRecs.take recs).foldl (fun t p => Tab.set (fun _ => ({} : Rec)) t p.1 p.2) n.pfwRecs
  let n := { n with seq := n.seq + 1, pfw := some (n.seq, 6, s.dry.box.take 62), pfwRecs := more }
  let s := if s.dry.snapRun then (s.cntSat (0x13020, 16, 16)).returnLeave .diarySnapshot else s
  let s := if s.dry.snapRun then { s with dry := { s.dry with snapping := false, snapRun := false } } else s;
  { s with dry := { s.dry with pfw := true }, nv := { s.nv with dry := n } }

theorem Dev.powerFailing_spec (s : Dev) (recs : Nat) : (s.powerFailing recs).dry.pfw = true ∧
    (s.powerFailing recs).nv.dry.pfw = some (s.nv.dry.seq, 6, (s.powerFailing recs).dry.box.take 62) ∧
    (s.powerFailing recs).nv.dry.seq = s.nv.dry.seq + 1 ∧ (s.powerFailing recs).dry.snapRun = false ∧
    (s.powerFailing recs).clk = s.clk := by
  have hseq : ∀ n : NvDry, (if !s.dry.persisting then n else if n.olderB then { n with img1 := none } else { n with img0 := none }).seq = n.seq :=
    fun n => by split <;> [rfl; (split <;> rfl)]
  unfold Dev.powerFailing
  dsimp only
  rw [hseq]
  cases hrun : s.dry.snapRun
  · simp [hrun]
  · have hrun' : ((s.cntSat (0x13020, 16, 16)).returnLeave .diarySnapshot).dry.snapRun = true := hrun
    simp only [if_true, hrun', true_and]
    exact ⟨rfl, rfl⟩

/-- What an occurrence leaves of the last words and the regions while the diary is not DEAF, and what its record then shows. -/
def Dev.Awake (s t : Dev) : Prop := t.dry.lws = s.dry.lws ∧ t.dry.sound0 = s.dry.sound0 ∧ t.dry.sound1 = s.dry.sound1

theorem Dev.bucket_eq (s : Dev) (k c : Nat) : ∃ x, (s.bucket k c).2 = { s with dry := { s.dry with buckets := x } } := by
  unfold Dev.bucket
  split
  · exact ⟨s.dry.buckets, rfl⟩
  · exact ⟨_, rfl⟩

theorem Dev.awake_bucket (s : Dev) (k c : Nat) : s.Awake (s.bucket k c).2 := by
  obtain ⟨x, hx⟩ := s.bucket_eq k c
  rw [hx]
  exact ⟨rfl, rfl, rfl⟩

theorem Dev.awake_boxEntry (s : Dev) (c v : Nat) (i f : Bool) (d : List Byte) :
    s.Awake (s.boxEntry c v i f d) ∧ (s.boxEntry c v i f d).dry.recs = s.dry.recs := by
  unfold Dev.boxEntry
  split
  · exact ⟨⟨rfl, rfl, rfl⟩, rfl⟩
  · exact ⟨⟨rfl, rfl, rfl⟩, rfl⟩

theorem Dev.awake_note {s : Dev} {c k : Nat} (v : Nat) (d : List Byte) (h : s.deaf = false) (hc : codeClass c = some k) :
    s.Awake (s.note c v d) ∧ ((s.note c v d).rec_ c).lastVal = sat 16 v := by
  unfold Dev.note Dev.occur
  rw [hc]
  dsimp only
  rw [if_neg (by simp [h])]
  have hbucket := Dev.awake_bucket s k c
  generalize s.bucket k c = x at hbucket
  obtain ⟨ok, t⟩ := x
  dsimp only
  generalize hr : (t.rec_ c).occur t.stamp (sat 16 v) (t.bin k (sat 16 v)) ok = r
  have hval : r.lastVal = sat 16 v := hr ▸ Rec.lastVal_occur _ _ _ _ _
  have hset : s.Awake (t.setRec c r) := hbucket
  have hrec : ((t.setRec c r).rec_ c).lastVal = sat 16 v := by rw [Dev.rec_setRec, if_pos rfl, hval]
  split
  · obtain ⟨⟨h1, h2, h3⟩, h4⟩ := Dev.awake_boxEntry (t.setRec c r) c (sat 16 v) false false d
    obtain ⟨k1, k2, k3⟩ := hset
    exact ⟨⟨h1.trans k1, h2.trans k2, h3.trans k3⟩, by rw [Dev.rec_, h4]; exact hrec⟩
  · exact ⟨hset, hrec⟩

/-- The last-word registers that two words fill, one after the other (R462). -/
theorem Dev.lastWordAt_two (s : Dev) (c v c' v' : Nat) :
    let d := (s.lastWord c v).lastWord c' v'
    ((d.lastWordAt s.dry.lwNext).code = c % 4096 ∧ (d.lastWordAt s.dry.lwNext).value = v % 65536) ∧
      (d.lastWordAt ((s.dry.lwNext + 1) % 8)).code = c' % 4096 ∧ (d.lastWordAt ((s.dry.lwNext + 1) % 8)).value = v' % 65536 := by
  have hne : s.dry.lwNext ≠ (s.dry.lwNext + 1) % 8 := by omega
  unfold Dev.lastWordAt Dev.lastWord
  dsimp only
  rw [Tab.get_set_ne _ _ _ _ _ hne, Tab.get_set_self, Tab.get_set_self]
  exact ⟨⟨rfl, rfl⟩, rfl, rfl⟩

/-- The device whose region of the diary has failed (R461), with the last words, before the host is told. -/
def Dev.regionFailing (s : Dev) (dt region cause code value : Nat) : Dev :=
  let u := ((s.tick dt).lastWord 0x0C7 (256 * region + cause)).lastWord code value
  ({ u with dry := { u.dry with sound0 := s.dry.sound0 && region != 0, sound1 := s.dry.sound1 && region != 1 } } : Dev).raise 0x23

/-- The device whose region of the diary has failed, told and recorded, before a diary without a sound region is emptied. -/
def Dev.regionFailed (s : Dev) (dt region cause code value : Nat) : Dev :=
  ((s.regionFailing dt region cause code value).event 0x1301 (leBytes region 1 ++ leBytes cause 1)).note 0x0C7 (256 * region + cause)
    (leBytes region 1 ++ leBytes cause 1)

theorem Dev.settles_regionFailed (s : Dev) (dt region cause code value : Nat) :
    (s.regionFailing dt region cause code value).Settles (s.regionFailed dt region cause code value) :=
  (Dev.Settles.event _ _ _).trans (.note _ _ _ _)

/-- A diary without a sound region is emptied (R461). -/
def Dev.emptied (v : Dev) : Dev :=
  let u := { v with dry := { v.dry with recs := [], box := [], img := [], frozen := false, persisting := false
                                        waiters := [], snapping := false, snapRun := false } }
  ((v.dry.waiters.foldl (fun s h => s.done h stDeaf []) u).raise 0x24).event 0x1302 []

theorem Dev.emptied_spec (v : Dev) : v.emptied.dry = { v.dry with
      recs := [], box := [], img := [], frozen := false, persisting := false, waiters := [], snapping := false, snapRun := false } ∧
    ∃ l, v.emptied.todo = v.todo ++ .fault 0x24 false :: l := by
  unfold Dev.emptied
  dsimp only
  generalize hu : ({ v with dry := { v.dry with
      recs := [], box := [], img := [], frozen := false, persisting := false, waiters := [], snapping := false, snapRun := false } } : Dev) = u
  have hdone := Frame.foldl (fun (s : Dev) h => s.done h stDeaf []) (fun s h => frame_done s h stDeaf []) v.dry.waiters u
  generalize v.dry.waiters.foldl (fun s h => s.done h stDeaf []) u = w at hdone
  have hevent := frame_event (w.raise 0x24) 0x1302 []
  obtain ⟨l, hl, -⟩ := (Dev.Settles.event (w.raise 0x24) 0x1302 []).todo_append
  have hdry : w.dry = u.dry := hdone .dry (by decide)
  have htodo : w.todo = u.todo := hdone .todo (by decide)
  refine ⟨((hevent .dry (by decide)).trans hdry).trans (by rw [← hu]), l, ?_⟩
  rw [hl, Dev.raise, Dev.push, htodo, ← hu, List.append_assoc]
  rfl

theorem exec_regionFail (s : State) (dt code value : Nat) {region cause : Nat} (hregion : region < 2)
    (hsound : (if region = 0 then s.dry.sound0 else s.dry.sound1) = true) :
    exec (.regionFail dt region cause code value) s = s.act fun s =>
      if (s.regionFailed dt region cause code value).deaf = true then (s.regionFailed dt region cause code value).emptied
      else s.regionFailed dt region cause code value := by
  show execRegionFail dt region cause code value s = _
  refine State.act_congr ((if_neg ?_).trans ?_)
  · have hs : (if region = 0 then (s.tick dt).dry.sound0 else (s.tick dt).dry.sound1) = true := hsound
    rw [hs]
    simpa using hregion
  · generalize hv : s.regionFailed dt region cause code value = v
    show (if (!(s.regionFailed dt region cause code value).deaf) = true then s.regionFailed dt region cause code value else (s.regionFailed dt region cause code value).emptied) = _
    rw [hv]
    cases v.deaf
    · rfl
    · rfl

theorem Dev.regionFailed_spec {s : Dev} (dt : Nat) {region cause : Nat} (code value : Nat) (hregion : region < 2)
    (hother : (if region = 0 then s.dry.sound1 else s.dry.sound0) = true) (hroom : s.Room (s.evtCq 0x1301)) (hcause : cause < 256) :
    let d := s.regionFailed dt region cause code value
    d.deaf = false ∧ .fault 0x23 false ∈ d.todo ∧ d.Told (s.evtCq 0x1301) 0x1301 (leBytes region 1 ++ leBytes cause 1) ∧
      ((d.lastWordAt s.dry.lwNext).code = 0x0C7 ∧ (d.lastWordAt s.dry.lwNext).value = 256 * region + cause) ∧
      ((d.lastWordAt ((s.dry.lwNext + 1) % 8)).code = code % 4096 ∧ (d.lastWordAt ((s.dry.lwNext + 1) % 8)).value = value % 65536) ∧
      (d.rec_ 0x0C7).lastVal = 256 * region + cause ∧ d.dry.sound0 = decide (region = 1) ∧ d.dry.sound1 = decide (region = 0) := by
  have hwords := Dev.lastWordAt_two (s.tick dt) 0x0C7 (256 * region + cause) code value
  generalize hu : { ((s.tick dt).lastWord 0x0C7 (256 * region + cause)).lastWord code value with
    dry := { (((s.tick dt).lastWord 0x0C7 (256 * region + cause)).lastWord code value).dry with
      sound0 := s.dry.sound0 && region != 0, sound1 := s.dry.sound1 && region != 1 } } = u
  have hlws : u.dry.lws = (((s.tick dt).lastWord 0x0C7 (256 * region + cause)).lastWord code value).dry.lws := hu ▸ rfl
  have hsound : u.dry.sound0 = decide (region = 1) ∧ u.dry.sound1 = decide (region = 0) := by
    rw [← hu]
    obtain rfl | rfl : region = 0 ∨ region = 1 := by omega
    · simpa using hother
    · simpa using hother
  generalize hres : leBytes region 1 ++ leBytes cause 1 = res
  obtain ⟨htold, hring⟩ := Dev.told_event (u := u.raise 0x23) res hroom (by decide) (hu ▸ rfl) fun o _ _ => hu ▸ rfl
  have hdry : ((u.raise 0x23).event 0x1301 res).dry = u.dry := hring .dry (by decide)
  have htodo : ((u.raise 0x23).event 0x1301 res).todo = u.todo ++ [.fault 0x23 false] := hring .todo (by decide)
  have hdeaf : ((u.raise 0x23).event 0x1301 res).deaf = false := by
    rw [Dev.deaf, hdry, hsound.1, hsound.2]
    obtain rfl | rfl : region = 0 ∨ region = 1 := by omega
    · rfl
    · rfl
  obtain ⟨⟨hl, h0, h1⟩, hval⟩ := Dev.awake_note (c := 0x0C7) (k := 0) (256 * region + cause) res hdeaf rfl
  have hnote := frame_note ((u.raise 0x23).event 0x1301 res) 0x0C7 (256 * region + cause) res
  have hd : s.regionFailed dt region cause code value = ((u.raise 0x23).event 0x1301 res).note 0x0C7 (256 * region + cause) res := by
    rw [← hres, ← hu]
    rfl
  dsimp only
  rw [hd]
  generalize ((u.raise 0x23).event 0x1301 res).note 0x0C7 (256 * region + cause) res = d at hl h0 h1 hval hnote
  rw [hdry] at hl h0 h1
  refine ⟨?_, ?_, ?_, ?_, ?_, ?_, h0.trans hsound.1, h1.trans hsound.2⟩
  · rw [Dev.deaf, h0, h1, ← hdry, ← Dev.deaf, hdeaf]
  · rw [show d.todo = _ from hnote .todo (by decide), htodo]
    exact List.mem_append_right _ (List.mem_singleton.2 rfl)
  · obtain ⟨e, he, hfields⟩ := htold
    exact ⟨e, by rw [Dev.cq, hnote .hif (by decide)]; exact he, hfields⟩
  · rw [Dev.lastWordAt, hl, hlws]
    obtain ⟨⟨hc, hv⟩, -⟩ := hwords
    exact ⟨hc, hv.trans (Nat.mod_eq_of_lt (by omega))⟩
  · rw [Dev.lastWordAt, hl, hlws]
    exact hwords.2
  · rw [hval, sat]
    omega

/-- Settles O31: each clause follows its own command. -/
theorem theDiaryIsKeptInFlash : Obligations.TheDiaryIsKeptInFlash := by
  refine ⟨fun s hs hdeaf hsnap => ?_, fun s hdeaf => ?_, fun s dt hs hrun => ?_, fun s hlate => ?_,
    fun s dt slot c hs hcap hwriting hpfw => ?_, fun s dt recs hpfw hdeaf => ?_, fun s dt hs hlevel hforced => ?_,
    fun s dt region cause code value hregion hsound hother hroom hcause => ?_,
    fun s dt region cause code value hregion hsound hother hwait => ?_⟩
  · have htick := frame_tickUp s.toDev ((s.up / tenMin + 1) * tenMin)
    have hup := Dev.tickUp_up s.toDev ((s.up / tenMin + 1) * tenMin)
    have hdue : s.up ≤ (s.up / tenMin + 1) * tenMin := by
      have hpos : 0 < tenMin := by decide
      rw [Nat.add_mul, Nat.one_mul]
      have := Nat.mod_lt s.up hpos
      have := Nat.div_add_mod' s.up tenMin
      omega
    have he : execDiarySnapshot s = s.act fun _ =>
        ({ s.tickUp ((s.up / tenMin + 1) * tenMin) with dry := { s.dry with snapping := true } } : Dev).askDiary .diarySnapshot := by
      refine State.act_congr ?_
      dsimp only
      rw [if_neg (by rw [Dev.deaf, htick .dry (by decide), ← Dev.deaf, hdeaf]; decide), if_neg (by rw [htick .dry (by decide), hsnap]; decide)]
      rfl
    exact .of_settled he hs ⟨rfl, hup.trans (max_eq_right hdue), rfl, htick.append ((frame_withDry _ { s.dry with snapping := true }).append
      (frame_askLeave _ _ _ _ _ _))⟩
  · have htick := frame_tickUp s.toDev ((s.up / tenMin + 1) * tenMin)
    have he : execDiarySnapshot s = s.act fun _ => (s.tickUp ((s.up / tenMin + 1) * tenMin)).raise 0x24 :=
      State.act_congr (if_pos hdeaf)
    exact .of_effect he ⟨rfl, htick.append (frame_raise _ 0x24)⟩
  · have htick := frame_tick s.toDev dt
    generalize hv : ({ s.tick dt with dry := { s.dry with snapping := false, snapRun := false, snapAt := (s.tick dt).up, late := false }
                                      nv := { s.nv with dry := { s.nv.dry with snap := s.dry.recs, pfwRecs := [] } } } : Dev) = v
    have hfv : Frame [.clk, .out, .dry, .nv] s.toDev v := hv ▸ htick.append ((frame_withDry (s.tick dt)
      { s.dry with snapping := false, snapRun := false, snapAt := (s.tick dt).up, late := false }).append (frame_withNv _ _))
    have he : execDiarySnapshotDone dt s = s.act fun _ => (v.cntWrap (0x13020, 0, 16)).returnLeave .diarySnapshot :=
      State.act_congr ((if_neg (by simp [hrun])).trans (congrArg (fun v : Dev => (v.cntWrap (0x13020, 0, 16)).returnLeave .diarySnapshot) hv))
    have hleave := frame_returnLeave (v.cntWrap (0x13020, 0, 16)) .diarySnapshot
    have hf := hfv.append ((frame_cntWrap v (0x13020, 0, 16)).append hleave)
    have hdry : ((v.cntWrap (0x13020, 0, 16)).returnLeave .diarySnapshot).dry = v.dry := rfl
    subst hv
    exact .of_settled he hs ⟨rfl, rfl, rfl, rfl, rfl, rfl, rfl,
      by rw [Dev.fld_of_frame hleave (by decide), Dev.fld_cntWrap _ _ (by decide), Dev.fld_of_frame hfv (by decide)],
      Dev.hasLeave_returnLeave _ _, (RegsBut.of_frame hfv (by decide)).trans ((RegsBut.cntWrap _ (0x13020, 0, 16)).trans (.of_frame hleave (by decide))),
      hf.mono (by decide)⟩
  · have hu := Dev.tickUp_up s.toDev (s.dry.snapAt + 2 * tenMin)
    have he : execPersistLate s = s.act fun _ => ({ s.tickUp (s.dry.snapAt + 2 * tenMin) with dry := { s.dry with late := true } } : Dev).raise 0x25 :=
      State.act_congr (if_neg (by rw [hlate]; decide))
    exact .of_effect he ⟨rfl, rfl, hu, (frame_tickUp _ _).append ((frame_withDry _ _).append (frame_raise _ 0x25))⟩
  · have he : execCapturePersisted dt slot s = s.act fun _ => ({ s.tick dt with
        dry := { s.dry with caps := Tab.set blankCapture s.dry.caps slot { c with writing := false, persisted := true } }
        nv := { s.nv with dry := { s.nv.dry with caps := Tab.set blankCapture s.nv.dry.caps slot { c with writing := false, persisted := true } } } } : Dev).returnLeave
          (.persistCapture slot) := by
      have hcap' : (s.tick dt).dry.caps.find? (fun p => p.1 == slot) = some (slot, c) := hcap
      refine State.act_congr ?_
      dsimp only
      rw [hcap']
      exact if_neg (by simp [hwriting, hpfw])
    exact .of_settled he hs ⟨Tab.find?_set _ _ _ (by simp [blankCapture]), rfl, rfl, Dev.hasLeave_returnLeave _ _,
      (frame_tick s.toDev dt).append ((frame_withDryNv (s.tick dt) _ _).append (frame_returnLeave _ _))⟩
  · have hdiary := Dev.settleAll_diary 4096 ((s.tick dt).raiseLevel 0x0B)
    have hlevel : ((s.tick dt).raiseLevel 0x0B).nv.dry = s.nv.dry ∧ ((s.tick dt).raiseLevel 0x0B).dry = s.dry :=
      have hf := frame_raiseLevel (s.tick dt) 0x0B
      ⟨congrArg Nv.dry (hf .nv (by decide)), hf .dry (by decide)⟩
    have hclk : (((s.tick dt).raiseLevel 0x0B).settleAll 4096).clk = s.clk.run dt :=
      (frame_settleAll 4096 _ .clk (by decide)).trans (frame_raiseLevel (s.tick dt) 0x0B .clk (by decide))
    generalize hu : ((s.tick dt).raiseLevel 0x0B).settleAll 4096 = u at hdiary hclk
    obtain ⟨hnv, hpfw', hdeaf'⟩ := hdiary
    rw [hlevel.1] at hnv
    rw [hlevel.2, hpfw] at hpfw'
    rw [Dev.deaf, Dev.deaf, hlevel.2, ← Dev.deaf, ← Dev.deaf, hdeaf] at hdeaf'
    have he : execPfwNQualified dt recs s = s.act fun _ => _ := State.act_congr ((congrArg (fun u => if u.dry.pfw || u.deaf then u else u.powerFailing recs) hu).trans
      (if_neg (by simp [hpfw', hdeaf'])))
    obtain ⟨h1, h2, h3, h4, h5⟩ := u.powerFailing_spec recs
    rw [hnv] at h2 h3
    exact .of_effect he ⟨h1, h2, h3, h4, h5.trans hclk⟩
  · have hf : Frame [.clk, .out, .dry, .flt] s.toDev (({ s.tick dt with dry := { s.dry with pfw := false } } : Dev).fallLevel 0x0B) :=
      (frame_tick s.toDev dt).append ((frame_withDry _ _).append (frame_fallLevel _ 0x0B))
    have hdry := frame_fallLevel ({ s.tick dt with dry := { s.dry with pfw := false } } : Dev) 0x0B .dry (by decide)
    exact .of_settled rfl ⟨(hf .todo (by decide)).trans hs.1, (congrArg Dry.freezeReq hdry).trans hs.2⟩
      ⟨hdry, Dev.level_fallLevel hforced, hf⟩
  · obtain ⟨hdeaf, htodo, htold, hlw, hlw', hrec, h0, h1⟩ : _ := Dev.regionFailed_spec (s := s.toDev) dt code value hregion hother hroom hcause
    have he : exec (.regionFail dt region cause code value) s = s.act fun _ => _ :=
      (exec_regionFail s dt code value hregion hsound).trans (State.act_congr (if_neg (ne_true_of_eq_false hdeaf)))
    exact .of_effect he ⟨h0, h1, hdeaf, htodo, htold, hlw.1, hlw.2, hlw'.1, hlw'.2, hrec⟩
  · have hsettles := Dev.settles_regionFailed s.toDev dt region cause code value
    have hdeaf : (s.regionFailed dt region cause code value).deaf = true := by
      obtain ⟨-, -, h0, h1⟩ := hsettles.diary
      rw [Dev.deaf, h0, h1]
      obtain rfl | rfl : region = 0 ∨ region = 1 := by omega
      · simpa [Dev.regionFailing] using hother
      · simpa [Dev.regionFailing] using hother
    obtain ⟨l, hl, -⟩ := hsettles.todo_append
    have he : exec (.regionFail dt region cause code value) s = s.act fun _ => _ :=
      (exec_regionFail s dt code value hregion hsound).trans (State.act_congr (if_pos hdeaf))
    generalize s.regionFailed dt region cause code value = v at hdeaf hl he
    obtain ⟨hdry, m, hm⟩ := v.emptied_spec
    refine .of_effect he ⟨?_, by rw [hdry], by rw [hdry], by rw [hdry], ?_, ?_⟩
    · rw [Dev.deaf, hdry]
      exact hdeaf
    · rw [hm, hl]
      exact List.mem_append_left _ (List.mem_append_left _ (List.mem_append_right _ (List.mem_singleton.2 rfl)))
    · rw [hm]
      simp

end Sys2Proof.Machine

/-! ### The leave governor -/
namespace Sys2Proof.Machine

/-! What an occurrence changes (R451-R454, R462) -/

/-- The parts of the diary that an occurrence writes; `DRY_STAT`'s count of entries missed is the one register. -/
def Dev.Noted (s t : Dev) : Prop :=
  (∃ recs buckets box seq lws lwNext lwSeq, t.dry = { s.dry with recs, buckets, box, seq, lws, lwNext, lwSeq }) ∧ RegsBut [0x13024] s t

theorem Dev.Noted.refl (s : Dev) : s.Noted s :=
  ⟨⟨s.dry.recs, s.dry.buckets, s.dry.box, s.dry.seq, s.dry.lws, s.dry.lwNext, s.dry.lwSeq, rfl⟩, .refl _ s⟩

theorem Dev.Noted.trans {s t u : Dev} (h : s.Noted t) (k : t.Noted u) : s.Noted u := by
  obtain ⟨⟨_, _, _, _, _, _, _, h⟩, hr⟩ := h
  obtain ⟨⟨r, b, x, q, l, n, m, k⟩, kr⟩ := k
  exact ⟨⟨r, b, x, q, l, n, m, by rw [k, h]⟩, hr.trans kr⟩

theorem Dev.noted_bucket (s : Dev) (k c : Nat) : s.Noted (s.bucket k c).2 := by
  obtain ⟨x, hx⟩ := s.bucket_eq k c
  rw [hx]
  exact ⟨⟨s.dry.recs, x, s.dry.box, s.dry.seq, s.dry.lws, s.dry.lwNext, s.dry.lwSeq, rfl⟩, fun _ _ => rfl⟩

theorem Dev.noted_setRec (s : Dev) (c : Nat) (r : Rec) : s.Noted (s.setRec c r) :=
  ⟨⟨_, s.dry.buckets, s.dry.box, s.dry.seq, s.dry.lws, s.dry.lwNext, s.dry.lwSeq, rfl⟩, fun _ _ => rfl⟩

theorem Dev.noted_lastWord (s : Dev) (c v : Nat) : s.Noted (s.lastWord c v) :=
  ⟨⟨s.dry.recs, s.dry.buckets, s.dry.box, s.dry.seq, _, _, _, rfl⟩, fun _ _ => rfl⟩

theorem Dev.noted_boxEntry (s : Dev) (c v : Nat) (i f : Bool) (d : List Byte) : s.Noted (s.boxEntry c v i f d) := by
  unfold Dev.boxEntry
  split
  · exact ⟨⟨s.dry.recs, s.dry.buckets, s.dry.box, s.dry.seq, s.dry.lws, s.dry.lwNext, s.dry.lwSeq, rfl⟩, .cntSat s (0x13024, 0, 16)⟩
  · exact ⟨⟨s.dry.recs, s.dry.buckets, _, _, s.dry.lws, s.dry.lwNext, s.dry.lwSeq, rfl⟩, fun _ _ => rfl⟩

theorem Dev.noted_occur (s : Dev) (c v : Nat) (i f b : Bool) (d : List Byte) : s.Noted (s.occur c v i f b d) := by
  unfold Dev.occur
  split
  · exact .refl s
  · next k _ =>
    dsimp only
    split
    · split
      · exact s.noted_lastWord _ _
      · exact .refl s
    · have hbucket := Dev.noted_bucket s k c
      generalize s.bucket k c = x at hbucket
      obtain ⟨ok, t⟩ := x
      dsimp only
      have hset := hbucket.trans (t.noted_setRec c ((t.rec_ c).occur t.stamp (sat 16 v) (t.bin k (sat 16 v)) ok))
      split
      · exact hset.trans (Dev.noted_boxEntry _ _ _ _ _ _)
      · exact hset

theorem Dev.noted_note (s : Dev) (c v : Nat) (d : List Byte) : s.Noted (s.note c v d) := s.noted_occur c v _ _ _ d

theorem Dev.Noted.freezeReq {s t : Dev} (h : s.Noted t) : t.dry.freezeReq = s.dry.freezeReq := by
  obtain ⟨⟨_, _, _, _, _, _, _, h⟩, -⟩ := h
  rw [h]

/-! The power read and a grant (R402, R408) -/

theorem frame_readPower (s : Dev) (p : Nat) : Frame [.gov, .flt] s (s.readPower p) := by
  unfold Dev.readPower
  dsimp only
  split
  · exact ((frame_withGov s _).append ((frame_withGov _ _).append (frame_fallLevel _ 0x10))).mono (by decide)
  · exact ((frame_withGov s _).append (frame_withGov _ _)).mono (by decide)

/-- The reading changes nothing of the requests and the grants. -/
theorem Dev.gov_readPower (s : Dev) (p : Nat) : (s.readPower p).gov.reqs = s.gov.reqs ∧ (s.readPower p).gov.grants = s.gov.grants ∧
    (s.readPower p).gov.pmeas = p ∧ (s.readPower p).gov.failed = s.gov.failed ∧
    (s.readPower p).gov.recal = s.gov.recal.filter fun r => decide (s.up < r.2) := by
  unfold Dev.readPower
  dsimp only
  split
  · have h := frame_fallLevel ({ s with gov := { s.gov with pmeas := p, recal := s.gov.recal.filter fun r => decide (s.up < r.2), overBudget := false, overSince := none } } : Dev) 0x10 .gov (by decide)
    exact ⟨(congrArg Gov.reqs h :), (congrArg Gov.grants h :), (congrArg Gov.pmeas h :), (congrArg Gov.failed h :), (congrArg Gov.recal h :)⟩
  · exact ⟨rfl, rfl, rfl, rfl, rfl⟩

/-- A reading above the budget is timed (R408). -/
theorem Dev.readPower_over {s : Dev} {p : Nat} (h : 100 * s.fld fBudget < 105 * p) : s.readPower p =
    { s with gov := { s.gov with pmeas := p, recal := s.gov.recal.filter fun r => decide (s.up < r.2), overSince := some (s.gov.overSince.getD s.up) } } :=
  if_neg (Nat.not_le.2 h)

/-- A device that grants a request: the grant, its counts and its note (R402). -/
theorem Dev.grantLeave_spec (s : Dev) (r : LeaveReq) : Frame [.gov, .regs, .dry] s (s.grantLeave r) ∧
    (s.grantLeave r).gov = { s.gov with reqs := s.gov.reqs.filter (fun x => x.id != r.id), grants := s.gov.grants ++
      [{ id := r.id, cls := r.cls, mw := r.mw, until_ := ntAdd s.nt r.dur, work := r.work }] } ∧
    (s.grantLeave r).dry.freezeReq = s.dry.freezeReq ∧
    (s.grantLeave r).fld (0x10020, 0, 16) = wrapInc 16 (s.fld (0x10020, 0, 16)) := by
  unfold Dev.grantLeave
  dsimp only
  generalize hu : ({ s with gov := { s.gov with reqs := s.gov.reqs.filter (fun x => x.id != r.id), grants := s.gov.grants ++
      [{ id := r.id, cls := r.cls, mw := r.mw, until_ := ntAdd s.nt r.dur, work := r.work }] } } : Dev) = u
  have hfu : Frame [.gov] s u := hu ▸ frame_withGov s _
  generalize hv : (u.cntWrap (0x10020, 0, 16)).setFld (0x10024, 16, 16) (max ((u.cntWrap (0x10020, 0, 16)).fld (0x10024, 16, 16)) (sat 16 (ntSince s.nt r.asked * 1000 / tickHz))) = v
  have hfv : Frame [.regs] u v := hv ▸ (frame_cntWrap u _).trans (frame_setFld _ _ _)
  have hnoted := v.noted_note 0x452 (ntSince s.nt r.asked * 1000 / tickHz) []
  have hnote := frame_note v 0x452 (ntSince s.nt r.asked * 1000 / tickHz) []
  refine ⟨((hfu.append hfv).append hnote).mono (by decide), ?_, ?_, ?_⟩
  · rw [hnote .gov (by decide), hfv .gov (by decide), ← hu]
  · rw [hnoted.freezeReq, hfv .dry (by decide), hfu .dry (by decide)]
  · rw [hnoted.2.fld_eq (f := (0x10020, 0, 16)) (by decide), ← hv, Dev.fld_setFld_ne _ _ _ _ (by decide), Dev.fld_cntWrap _ _ (by decide),
      Dev.fld_of_frame hfu (by decide)]

/-- With one request that waits and fits, a decision grants it. -/
theorem Dev.govScan_fits {s : Dev} {r : LeaveReq} (hreqs : s.gov.reqs = [r]) (h : s.leaveFits r = true) :
    Dev.govScan s.leaveOrder s =
      ({ s.grantLeave r with gov := { (s.grantLeave r).gov with barrier := false } }, [r.work]) := by
  rw [Dev.leaveOrder, hreqs]
  show Dev.govScan [r] s = _
  unfold Dev.govScan
  rw [if_pos h]
  rfl

/-- With one request that waits and does not fit, a decision only judges whether it is a barrier. -/
theorem Dev.govScan_waits {s : Dev} {r : LeaveReq} (hreqs : s.gov.reqs = [r]) (h : s.leaveFits r = false) :
    Dev.govScan s.leaveOrder s = ({ s with gov := { s.gov with barrier := s.leaveHalf r } }, []) := by
  rw [Dev.leaveOrder, hreqs]
  show Dev.govScan [r] s = _
  unfold Dev.govScan
  rw [if_neg (by simp [h])]
  cases s.leaveHalf r
  · rfl
  · rfl

theorem Dev.todo_raiseLevel (s : Dev) (n : Nat) :
    (s.raiseLevel n).todo = s.todo ++ if (s.src n).level then [] else [.fault n false] := by
  unfold Dev.raiseLevel
  dsimp only
  split
  · exact (List.append_nil _).symm
  · rfl

/-- Settles O34: each clause follows its own command. -/
theorem leaveIsGrantedWithdrawnAndReturned : Obligations.LeaveIsGrantedWithdrawnAndReturned := by
  refine ⟨fun s dt p r hs hreqs hwork hfits => ?_, fun s dt p r hs hreqs hfits => ?_, fun s r hs hreqs hwork hdue => ?_,
    fun s g hgrants hdue => ?_, fun s dt p hs hover hbudget hsince => ?_, fun s dt p a hover hbudget hsince hlong hroom => ?_,
    fun s dt grp p hgrp => ?_, fun s dt grp p hs hgrp => ?_, fun s h l hs hr => ?_⟩
  · obtain ⟨hreqs', hgrants', hpmeas', -⟩ := Dev.gov_readPower (s.tick dt) p
    have hfu : Frame [.clk, .out, .gov, .flt] s.toDev ((s.tick dt).readPower p) := (frame_tick s.toDev dt).append (frame_readPower _ p)
    generalize hu : (s.tick dt).readPower p = u at hfits hreqs' hgrants' hpmeas' hfu
    have hscan := Dev.govScan_fits (hreqs'.trans hreqs) hfits
    obtain ⟨hfv, hgov, hfreeze, hcount⟩ := Dev.grantLeave_spec u r
    have hnt : (u.grantLeave r).nt = u.nt := by rw [Dev.nt, hfv .clk (by decide), Dev.nt]
    have he : execGovernorDecision dt p s = s.act fun _ => { u.grantLeave r with
        gov := { (u.grantLeave r).gov with barrier := false }, dry := { (u.grantLeave r).dry with snapRun := true } } := by
      refine State.act_congr ?_
      dsimp only
      rw [hu, hscan, hwork]
      rfl
    generalize u.grantLeave r = v at hfv hgov hfreeze hcount he hnt
    have hf := (hfu.append hfv).append ((frame_withGov v { v.gov with barrier := false }).append
      (frame_withDry { v with gov := { v.gov with barrier := false } } { v.dry with snapRun := true }))
    refine .of_settled he ⟨(hf .todo (by decide)).trans hs.1, hfreeze.trans ((congrArg Dry.freezeReq (hfu .dry (by decide))).trans hs.2)⟩ ⟨?_, ?_, rfl, ?_, rfl, ?_, hf.mono (by decide)⟩
    · show v.gov.reqs = []
      rw [hgov, hreqs', Dev.tick_gov, hreqs]
      simp
    · show v.gov.pmeas = p
      rw [hgov, hpmeas']
    · show v.gov.grants = _
      rw [hgov, hgrants', Dev.tick_gov]
      show _ = s.gov.grants ++ [{ id := r.id, cls := r.cls, mw := r.mw, until_ := ntAdd v.nt r.dur, work := r.work }]
      rw [hnt]
    · exact hcount.trans (by rw [Dev.fld_of_frame hfu (by decide)])
  · obtain ⟨hreqs', hgrants', -⟩ := Dev.gov_readPower (s.tick dt) p
    have hfu : Frame [.clk, .out, .gov, .flt] s.toDev ((s.tick dt).readPower p) := (frame_tick s.toDev dt).append (frame_readPower _ p)
    generalize hu : (s.tick dt).readPower p = u at hfits hreqs' hgrants' hfu
    have hscan := Dev.govScan_waits (hreqs'.trans hreqs) hfits
    have he : execGovernorDecision dt p s = s.act fun _ => { u with gov := { u.gov with barrier := u.leaveHalf r } } := by
      refine State.act_congr ?_
      dsimp only
      rw [hu, hscan]
      rfl
    have hf := hfu.append (frame_withGov u { u.gov with barrier := u.leaveHalf r })
    exact .of_effect hs hf he (by decide) (by decide) ⟨hreqs'.trans hreqs, hgrants', rfl, hf.mono (by decide)⟩
  · generalize hv : s.tickTo r.dead = v at hdue
    have hfv : Frame [.clk, .out] s.toDev v := hv ▸ frame_tickTo s.toDev r.dead
    have hgov : v.gov = s.gov := hfv .gov (by decide)
    have he : execLeaveDeadline s = s.act fun _ =>
        ({ v with gov := { s.gov with reqs := [] } } : Dev).cntSat (0x10020, 16, 16) |>.noLeave .scrub := by
      refine State.act_congr ?_
      dsimp only
      rw [hreqs]
      dsimp only [List.foldl_nil]
      have hin : [r].filter (fun x : LeaveReq => ntReached v.nt x.dead) = [r] := by simp [hdue]
      have hout : [r].filter (fun x : LeaveReq => !ntReached v.nt x.dead) = [] := by simp [hdue]
      rw [hv, hgov, hreqs, hin, hout, ← hwork]
      rfl
    generalize hw : ({ v with gov := { s.gov with reqs := [] } } : Dev) = w at he
    have hfw : Frame [.clk, .out, .gov] s.toDev w := hw ▸ hfv.append (frame_withGov v { s.gov with reqs := [] })
    have hmem := frame_withMem (w.cntSat (0x10020, 16, 16)) { w.mem with scrubWait := false }
    have hf := hfw.append ((frame_cntSat w (0x10020, 16, 16)).append hmem)
    refine .of_effect hs hf he (by decide) (by decide) ⟨hw ▸ rfl, ?_, ?_, hw ▸ hv ▸ rfl, ?_, hf.mono (by decide)⟩
    · show { w.mem with scrubWait := false } = _
      rw [hfw .mem (by decide)]
    · exact (Dev.fld_cntSat w (0x10020, 16, 16) (by decide)).trans (by rw [Dev.fld_of_frame hfw (by decide)])
    · exact (RegsBut.of_frame hfw (by decide)).trans (RegsBut.cntSat w (0x10020, 16, 16))
  · generalize hv : s.tickTo g.until_ = v at hdue
    have hfv : Frame [.clk, .out] s.toDev v := hv ▸ frame_tickTo s.toDev g.until_
    have hgov : v.gov = s.gov := hfv .gov (by decide)
    have he : execLeaveDurationEnd s = s.act fun _ =>
        (({ v with gov := { s.gov with grants := [] } } : Dev).cntSat (0x10024, 0, 16)).raise 0x11 := by
      refine State.act_congr ?_
      dsimp only
      rw [hgrants]
      dsimp only [List.foldl_nil]
      have hin : [g].filter (fun x : Grant => ntReached v.nt x.until_) = [g] := by simp [hdue]
      have hout : [g].filter (fun x : Grant => !ntReached v.nt x.until_) = [] := by simp [hdue]
      rw [hv, hgov, hgrants, hin, hout]
      rfl
    have hfw := hfv.append (frame_withGov v { s.gov with grants := [] })
    refine .of_effect he ⟨rfl, congrArg (· ++ [Todo.fault 0x11 false]) (hfv .todo (by decide)), ?_, ?_, ?_,
      hfw.append ((frame_cntSat _ (0x10024, 0, 16)).append (frame_raise _ 0x11))⟩
    · exact (Dev.fld_cntSat _ (0x10024, 0, 16) (by decide)).trans (by rw [Dev.fld_of_frame hfw (by decide)])
    · exact hv ▸ rfl
    · exact (RegsBut.of_frame hfw (by decide)).trans (RegsBut.cntSat _ (0x10024, 0, 16))
  · have hover' : 100 * (s.tick dt).fld fBudget < 105 * p := hover
    have he : execGovOverBudget dt p s = s.act fun _ => (s.tick dt).readPower p := by
      refine State.act_congr (if_pos ?_)
      rw [Dev.readPower_over hover']
      simp only [Dev.tick_gov, hsince, Option.getD_none, Bool.or_eq_true, decide_eq_true_eq]
      exact .inr (Nat.lt_add_of_pos_right (by decide))
    rw [Dev.readPower_over hover'] at he
    have hf := (frame_tick s.toDev dt).append (frame_withGov (s.tick dt) { s.gov with pmeas := p, recal := s.gov.recal.filter fun r => decide ((s.tick dt).up < r.2), overSince := some (s.gov.overSince.getD (s.tick dt).up) })
    refine .of_effect hs hf he (by decide) (by decide) ⟨hbudget, rfl, ?_, hf⟩
    show some (s.gov.overSince.getD _) = _
    rw [hsince]
    rfl
  · have hover' : 100 * (s.tick dt).fld fBudget < 105 * p := hover
    have hread := Dev.readPower_over hover'
    generalize hu : ({ (s.tick dt).readPower p with gov := { ((s.tick dt).readPower p).gov with overBudget := true } } : Dev) = u
    have hfu : Frame [.clk, .out, .gov] s.toDev u := by
      rw [← hu, hread]
      exact (frame_tick s.toDev dt).append ((frame_withGov _ _).trans (frame_withGov _ _))
    have he : execGovOverBudget dt p s = s.act fun _ => (u.raiseLevel 0x10).event 0x1001 (leBytes p 4) := by
      refine State.act_congr ((if_neg ?_).trans (congrArg (fun u : Dev => (u.raiseLevel 0x10).event 0x1001 (leBytes p 4)) hu))
      have hlong' : a + 100 * cycMs ≤ (s.tick dt).up := by rwa [Dev.tick_up]
      rw [hread]
      simp only [Dev.tick_gov, hbudget, hsince, Option.getD_some, Bool.false_or, decide_eq_true_eq, Nat.not_lt]
      exact hlong'
    have hlevel := frame_raiseLevel u 0x10
    have hf := hfu.append hlevel
    obtain ⟨htold, hring⟩ := Dev.told_event (u := u.raiseLevel 0x10) (leBytes p 4) hroom (by decide) (hf .hif (by decide))
      fun o _ _ => Dev.reg_of_frame hf (by decide) o
    have hgov : ((u.raiseLevel 0x10).event 0x1001 (leBytes p 4)).gov = u.gov := (hlevel.append hring) .gov (by decide)
    refine .of_effect he ⟨?_, ?_, ?_, ?_, htold, (hf.append hring).mono (by decide)⟩
    · rw [hgov, ← hu]
    · rw [hgov, ← hu, hread]
    · rw [Dev.src, hring .flt (by decide), ← Dev.src, Dev.src_raiseLevel]
    · rw [show ((u.raiseLevel 0x10).event 0x1001 (leBytes p 4)).todo = _ from hring .todo (by decide), Dev.todo_raiseLevel,
        show u.todo = s.todo from hfu .todo (by decide), Dev.src_of_flt (show u.flt = s.flt from hfu .flt (by decide))]
  · have he : execMonitorSelfCheckFail dt grp p s = s.act fun _ => (({ s.tick dt with
        gov := { s.gov with failed := if s.gov.failed.contains grp then s.gov.failed else s.gov.failed ++ [grp] } } : Dev).readPower p).raise 0x12 :=
      State.act_congr (if_neg (Nat.not_le.2 hgrp))
    generalize hu : ({ s.tick dt with
      gov := { s.gov with failed := if s.gov.failed.contains grp then s.gov.failed else s.gov.failed ++ [grp] } } : Dev) = u at he
    obtain ⟨-, -, hp, hfailed, -⟩ := Dev.gov_readPower u p
    have hfailed' : ((u.readPower p).raise 0x12).gov.failed = if s.gov.failed.contains grp then s.gov.failed else s.gov.failed ++ [grp] :=
      hfailed.trans (hu ▸ rfl)
    refine .of_effect he ⟨?_, fun g hg => ?_, hp, ?_, ?_⟩
    · rw [hfailed']
      split
      · next h => simpa using h
      · simp
    · rw [hfailed']
      split
      · exact hg
      · exact List.mem_append_left _ hg
    · exact List.mem_append_right _ (List.mem_singleton.2 rfl)
    · exact hu ▸ ((frame_tick s.toDev dt).append ((frame_withGov _ _).append ((frame_readPower _ p).append (frame_raise _ 0x12)))).mono (by decide)
  · have he : execMonitorRecalibration dt grp p s = s.act fun _ =>
        ({ s.tick dt with gov := { s.gov with recal := some (grp, (s.tick dt).up + 2 * cycHz) } } : Dev).readPower p :=
      State.act_congr (if_neg (Nat.not_le.2 hgrp))
    have hread := frame_readPower ({ s.tick dt with gov := { s.gov with recal := some (grp, (s.tick dt).up + 2 * cycHz) } } : Dev) p
    obtain ⟨-, -, hp, hfailed, hrecal⟩ := Dev.gov_readPower ({ s.tick dt with gov := { s.gov with recal := some (grp, (s.tick dt).up + 2 * cycHz) } } : Dev) p
    have hf := ((frame_tick s.toDev dt).append (frame_withGov _ _)).append hread
    refine .of_effect hs hf he (by decide) (by decide) ⟨?_, hfailed, hp, hf.mono (by decide)⟩
    have hup : (s.tick dt).up = (({ s.tick dt with gov := { s.gov with recal := some (grp, (s.tick dt).up + 2 * cycHz) } } : Dev).readPower p).up :=
      congrArg Clock.up (hread .clk (by decide)).symm
    exact hrecal.trans ((if_pos (decide_eq_true (Nat.lt_add_of_pos_right (by decide)))).trans (congrArg (fun u => some (grp, u + 2 * cycHz)) hup))
  · generalize hm : s.begin.markStarted h = m
    have hfm : Frame [.out, .hif] s.toDev m := hm ▸ frame_begin_markStarted s.toDev h
    generalize hu : (m.setFld (fCap (l.p 4 1)) (l.p 0 4)).setFld (fPrio (l.p 4 1)) (l.p 5 1) = u
    have hfu : Frame [.regs] m u := hu ▸ (frame_setFld m _ _).trans (frame_setFld _ _ _)
    have he : exec (.leavePolicy h) s = s.act fun _ => u.done h stOK [] := by
      refine State.command_act rfl hr ?_
      rw [hm]
      exact congrArg (fun u : Dev => u.done h stOK []) hu
    have hregs : RegsBut [0x10100 + 4 * l.p 4 1] m u := hu ▸ (RegsBut.setFld m (f := fCap (l.p 4 1)) _ (by simp [fCap])).trans
      (RegsBut.setFld _ (f := fPrio (l.p 4 1)) _ (by simp [fPrio]))
    have hdone := frame_done u h stOK []
    have hw : u.Waits h { l with started := true } := (hm ▸ hr.waits : m.Waits h { l with started := true }).of_frame hfu (by decide)
      (hregs _ (by simpa using cqEn_reg_ne hr.2.2.2.2 (by omega)))
    have hf := hfm.append (hfu.append hdone)
    refine .of_effect hs hf he (by decide) (by decide) ⟨hw.done stOK [], ?_, ?_, (RegsBut.of_frame hfm (by decide)).trans
      (hregs.trans (.of_frame hdone (by decide))), hf.mono (by decide)⟩
    · rw [Dev.fld_of_frame hdone (by decide), ← hu, Dev.fld_setFld_other _ _ _ _ (by simp [fPrio]) (by simp [fPrio, fCap]), Dev.fld_setFld _ _ _ (by simp [fCap])]
      rfl
    · rw [Dev.fld_of_frame hdone (by decide), ← hu, Dev.fld_setFld _ _ _ (by simp [fPrio])]
      rfl

end Sys2Proof.Machine

/-! ### Resets of the host interface -/
namespace Sys2Proof.Machine

/-- What waits to be settled is no change where it stays. -/
theorem Frame.drop_todo {a b : List Area} {s t : Dev} (h : Frame a s t) (htodo : t.todo = s.todo) (hab : ∀ p ∈ a, p = .todo ∨ p ∈ b) :
    Frame b s t := fun p hp => by
  by_cases hpt : p = .todo
  · subst hpt
    exact htodo
  · exact h p fun hm => (hab p hm).elim hpt hp

/-! The registers of the rings (R367) -/

/-- Reset of a list of registers. -/
theorem Dev.reg_foldl_reset (l : List Nat) (s : Dev) (o : Nat) :
    (l.foldl (fun s o => s.setReg o (resetReg o)) s).reg o = if o ∈ l then resetReg o else s.reg o := by
  induction l generalizing s with
  | nil => simp
  | cons a l ih =>
    rw [List.foldl_cons, ih, Dev.reg_setReg]
    by_cases ho : o = a
    · simp [ho]
    · simp [ho]

/-- The registers of a ring that a reset writes. -/
def ringOffs : List Nat := [0x2100, 0x2104, 0x2108, 0x2500, 0x2504, 0x2508]

theorem Dev.reg_resetRing (s : Dev) (r o : Nat) :
    (s.resetRing r).reg o = if o ∈ ringOffs.map (· + 0x20 * r) then resetReg o else s.reg o := by
  rw [← Dev.reg_foldl_reset, List.foldl_map]
  rfl

theorem frame_resetRing (s : Dev) (r : Nat) : Frame [.regs] s (s.resetRing r) :=
  have h (l : List Nat) : Frame [.regs] s (l.foldl (fun s o => s.setReg (o + 0x20 * r) (resetReg (o + 0x20 * r))) s) :=
    Frame.foldl _ (fun s _ => frame_setReg s _ _) l s
  h _

theorem Dev.reg_resetRings (l : List Nat) {r o : Nat} (hr : r ∈ l) (ho : o ∈ ringOffs) (s : Dev) :
    (l.foldl (fun s r => s.resetRing r) s).reg (o + 0x20 * r) = resetReg (o + 0x20 * r) := by
  have hkeep : ∀ (l : List Nat) (s : Dev), s.reg (o + 0x20 * r) = resetReg (o + 0x20 * r) →
      (l.foldl (fun s r => s.resetRing r) s).reg (o + 0x20 * r) = resetReg (o + 0x20 * r) := fun l => by
    induction l with
    | nil => exact fun s h => h
    | cons a l ih =>
      intro s h
      rw [List.foldl_cons]
      refine ih _ ?_
      rw [Dev.reg_resetRing]
      split
      · rfl
      · exact h
  induction l generalizing s with
  | nil => cases hr
  | cons a l ih =>
    rw [List.foldl_cons]
    obtain rfl | hr := List.mem_cons.1 hr
    · exact hkeep l _ (by rw [Dev.reg_resetRing, if_pos (List.mem_map_of_mem ho)])
    · exact ih hr _

/-- The registers of the interface after its reset. -/
def Dev.ringsReset (s : Dev) : Dev :=
  (((List.range 32).foldl (fun s r => s.resetRing r) s).setFld (0x7048, 31, 1) 0).setFld (0x2038, 31, 1) 0

/-- The rings dropped and every command orphaned. -/
def Dev.unheard (s : Dev) : Dev :=
  { s with hif := { s.hif with bme := false, sqs := [], cqs := [], gen := s.hif.gen + 1
                               live := s.hif.live.map (fun (l : Live) => { l with orphan := true }) } }

/-- The interface after its reset, before source 0x7F is raised. -/
def Dev.unplugged (s : Dev) : Dev := s.ringsReset.unheard

theorem Dev.resetHif_eq (s : Dev) : s.resetHif = s.unplugged.raiseLevel 0x7F := rfl

theorem frame_ringsReset (s : Dev) : Frame [.regs] s s.ringsReset :=
  (Frame.foldl (fun s r => Dev.resetRing s r) (fun s r => frame_resetRing s r) _ s).trans ((frame_setFld _ (0x7048, 31, 1) 0).trans (frame_setFld _ (0x2038, 31, 1) 0))

theorem frame_unheard (s : Dev) : Frame [.hif] s s.unheard := frame_withHif s _

theorem frame_unplugged (s : Dev) : Frame [.regs, .hif] s s.unplugged := (frame_ringsReset s).append (frame_unheard _)

theorem frame_resetHif (s : Dev) : Frame [.regs, .hif, .flt, .todo] s s.resetHif :=
  ((frame_unplugged s).append (frame_raiseLevel _ 0x7F)).mono (by decide)

theorem Dev.reg_resetHif (s : Dev) {r o : Nat} (hr : r < 32) (ho : o ∈ ringOffs) : s.resetHif.reg (o + 0x20 * r) = resetReg (o + 0x20 * r) := by
  have hrange : 0x2100 ≤ o ∧ o ≤ 0x2508 := by
    simp only [ringOffs, List.mem_cons, List.not_mem_nil, or_false] at ho
    omega
  rw [Dev.resetHif_eq, Dev.reg_of_frame (frame_raiseLevel s.unplugged 0x7F) (by decide)]
  have hregs : s.unplugged.reg (o + 0x20 * r) = s.ringsReset.reg (o + 0x20 * r) :=
    Dev.reg_of_frame (frame_unheard s.ringsReset) (by decide) _
  have hne : o + 0x20 * r ≠ 0x2038 ∧ o + 0x20 * r ≠ 0x7048 := by omega
  rw [hregs]
  exact (Dev.reg_setFld_ne _ (0x2038, 31, 1) 0 _ hne.1).trans ((Dev.reg_setFld_ne _ (0x7048, 31, 1) 0 _ hne.2).trans
    (Dev.reg_resetRings _ (List.mem_range.2 hr) ho s))

/-! What ends with the host's memory (R367) -/

theorem frame_withLost (s : Dev) (c : Tab CapInput) (g : Gns) (n : Snp) (v : Gov) :
    Frame [.caps, .gns, .snp, .gov] s { s with caps := c, gns := g, snp := n, gov := v } := fun p hp => by
  cases p <;> simp at hp <;> rfl

/-- What a device drops with the memory of the host, its interface reset already. -/
def Dev.dropHost (s : Dev) : Dev :=
  let cap : Nat → CapInput → CapInput := fun _ c => { c with arm := none, buf := [] }
  let ofHost : Snap → Bool := fun x => match x.src with | .host _ _ => true | _ => false
  let batches := (s.snp.batches.map fun (b : Batch) => { b with snaps := b.snaps.filter fun x => !ofHost x }).filter fun (b : Batch) => !b.snaps.isEmpty
  let gone : Work → Bool := fun w => match w with
    | .snpBatch id => !(batches.any fun (b : Batch) => b.id == id)
    | _ => false
  let gns := { s.gns with stream := none, streamNext := none, capture := none
                          survey := s.gns.survey.filter fun (v : Survey) => !v.out }
  let s := { s with caps := Tab.mapListed (fun _ => {}) cap s.caps, gns, snp := { s.snp with batches, cmds := [], demand := s.snp.demand.filter fun d => match d with | .snap x => !ofHost x | _ => true }
                    gov := { s.gov with reqs := s.gov.reqs.filter fun r => !gone r.work, grants := s.gov.grants.filter fun g => !gone g.work } }
  s.setLive (s.hif.live.filter fun l => !needsHost l)

theorem Dev.hostLost_eq (s : Dev) : s.hostLost = s.resetHif.dropHost := rfl

theorem frame_dropHost (s : Dev) : Frame [.hif, .caps, .gns, .snp, .gov] s s.dropHost :=
  ((frame_withLost s _ _ _ _).append (frame_setLive _ _)).mono (by decide)

theorem Dev.hif_dropHost (s : Dev) : s.dropHost.hif = { s.hif with live := s.hif.live.filter fun l => !needsHost l } := rfl

theorem Dev.disarmed_dropHost (s : Dev) : s.dropHost.Disarmed := by
  refine ⟨fun n => ?_, rfl, rfl, rfl⟩
  refine Tab.get_of_forall (P := fun c : CapInput => c.arm = none) rfl fun p hp => ?_
  obtain ⟨q, -, rfl⟩ := List.mem_map.1 (List.mem_filter.1 hp).1
  rfl

theorem frame_hostLost (s : Dev) : Frame [.regs, .hif, .flt, .todo, .caps, .gns, .snp, .gov] s s.hostLost := by
  rw [Dev.hostLost_eq]
  exact ((frame_resetHif s).append (frame_dropHost _)).mono (by decide)

theorem Dev.Disarmed.of_frame {a : List Area} {s t : Dev} (h : s.Disarmed) (hf : Frame a s t) (hc : .caps ∉ a) (hg : .gns ∉ a)
    (hs : .snp ∉ a) : t.Disarmed := by
  obtain ⟨h1, h2, h3, h4⟩ := h
  have hcaps : t.caps = s.caps := hf .caps hc
  have hgns : t.gns = s.gns := hf .gns hg
  have hsnp : t.snp = s.snp := hf .snp hs
  exact ⟨by rwa [hcaps], by rwa [hgns], by rwa [hgns], by rwa [hsnp]⟩

/-- The fields of the interface after its reset, and of the commands that are live. -/
theorem Dev.hif_resetHif (s : Dev) : s.resetHif.hif = { s.hif with
    bme := false, sqs := [], cqs := [], gen := s.hif.gen + 1, live := s.hif.live.map fun (l : Live) => { l with orphan := true } } := by
  have hregs : s.ringsReset.hif = s.hif := frame_ringsReset s .hif (by decide)
  have hraise : s.resetHif.hif = s.unplugged.hif := frame_raiseLevel s.unplugged 0x7F .hif (by decide)
  rw [hraise, ← hregs]
  rfl

theorem Dev.hif_hostLost (s : Dev) : s.hostLost.hif = { s.hif with
    bme := false, sqs := [], cqs := [], gen := s.hif.gen + 1
    live := (s.hif.live.map fun (l : Live) => { l with orphan := true }).filter fun l => !needsHost l } := by
  rw [Dev.hostLost_eq, Dev.hif_dropHost, Dev.hif_resetHif]

theorem Dev.unhosted_hostLost (s : Dev) : s.hostLost.Unhosted := by
  have hhif := s.hif_hostLost
  have hreg : ∀ o, s.hostLost.reg o = s.resetHif.reg o := by
    rw [Dev.hostLost_eq]
    exact Dev.reg_of_frame (frame_dropHost _) (by decide)
  refine ⟨by rw [hhif], by rw [hhif], by rw [hhif], fun l hl => ?_, fun r hr o ho => (hreg _).trans (Dev.reg_resetHif s hr ho)⟩
  rw [hhif] at hl
  obtain ⟨l', -, rfl⟩ := List.mem_map.1 (List.mem_filter.1 hl).1
  rfl

/-- Where source 0x7F has its level already, a reset raises nothing. -/
theorem Dev.todo_hostLost {s : Dev} (h : (s.src 0x7F).level = true) : s.hostLost.todo = s.todo := by
  have hun := frame_unplugged s
  have hsrc : (s.unplugged.src 0x7F).level = true := by rwa [Dev.src_of_flt (hun .flt (by decide))]
  have hraise : s.resetHif.todo = s.unplugged.todo := by
    rw [Dev.resetHif_eq, Dev.todo_raiseLevel, if_pos hsrc, List.append_nil]
  rw [Dev.hostLost_eq]
  exact ((frame_dropHost _ .todo (by decide)).trans hraise).trans (hun .todo (by decide))

/-- The link and the power state of the interface written. -/
def Dev.linked (s : Dev) (link d0 : Bool) : Dev := { s with hif := { s.hif with linkUp := link, d0 := d0 } }

theorem frame_linked (s : Dev) (link d0 : Bool) : Frame [.hif] s (s.linked link d0) := frame_withHif s _

/-- The device after a reset of its interface, with the link and the power state of the reset. -/
def Dev.lostBy (s : Dev) (dt : Nat) (link d0 : Bool) : Dev := (s.tick dt).hostLost.linked link d0

theorem frame_lostBy (s : Dev) (dt : Nat) (link d0 : Bool) :
    Frame [.clk, .out, .regs, .hif, .flt, .todo, .caps, .gns, .snp, .gov] s (s.lostBy dt link d0) :=
  ((frame_tick s dt).append ((frame_hostLost _).append (frame_linked _ link d0))).mono (by decide)

theorem Dev.disarmed_lostBy (s : Dev) (dt : Nat) (link d0 : Bool) : (s.lostBy dt link d0).Disarmed := by
  have hd := Dev.disarmed_dropHost (s.tick dt).resetHif
  rw [← Dev.hostLost_eq] at hd
  exact hd.of_frame (frame_linked _ link d0) (by decide) (by decide) (by decide)

theorem Dev.hif_lostBy (s : Dev) (dt : Nat) : (s.tick dt).hostLost.hif.linkUp = s.hif.linkUp ∧ (s.tick dt).hostLost.hif.d0 = s.hif.d0 := by
  rw [Dev.hif_hostLost]
  exact ⟨rfl, rfl⟩

/-- A device with two fields of its interface written as they stand. -/
theorem Dev.withLink_self (u : Dev) {a b c d : Bool} (ha : u.hif.linkUp = a) (hb : u.hif.d0 = b) :
    ({ u with hif := { u.hif with linkUp := c } } : Dev) = u.linked c b ∧ ({ u with hif := { u.hif with d0 := d } } : Dev) = u.linked a d ∧
      u = u.linked a b := by
  subst ha
  subst hb
  exact ⟨rfl, rfl, rfl⟩

theorem exec_linkDown (s : State) (dt : Nat) : exec (.linkDown dt) s = s.act fun _ => s.lostBy dt false s.hif.d0 :=
  have ⟨ha, hb⟩ := s.toDev.hif_lostBy dt
  show execLinkDown dt s = _ from State.act_congr (Dev.withLink_self (d := true) _ ha hb).1

theorem exec_functionLevelReset (s : State) (dt : Nat) : exec (.functionLevelReset dt) s = s.act fun _ => s.lostBy dt s.hif.linkUp s.hif.d0 :=
  have ⟨ha, hb⟩ := s.toDev.hif_lostBy dt
  show execFunctionLevelReset dt s = _ from State.act_congr (Dev.withLink_self (c := true) (d := true) _ ha hb).2.2

theorem exec_pePerstN (s : State) (dt : Nat) : exec (.pePerstN dt) s = s.act fun _ => s.lostBy dt false s.hif.d0 :=
  have ⟨ha, hb⟩ := s.toDev.hif_lostBy dt
  show execPePerstN dt s = _ from State.act_congr (Dev.withLink_self (d := true) _ ha hb).1

theorem exec_d3hotEntry (s : State) (dt : Nat) : exec (.d3hotEntry dt) s = s.act fun _ => s.lostBy dt s.hif.linkUp false :=
  have ⟨ha, hb⟩ := s.toDev.hif_lostBy dt
  show execD3hotEntry dt s = _ from State.act_congr (Dev.withLink_self (c := true) _ ha hb).2.1

/-- Every reset of the interface disarms the captures and leaves the other units alone, whatever 0x7F then brings. -/
theorem Completes.lostBy {c : Instr} {s : State} {dt : Nat} {link d0 : Bool} (he : exec c s = s.act fun _ => s.lostBy dt link d0) :
    Completes c s fun t => t.Disarmed ∧ Frame (settleParts ++ [.clk, .caps, .gns, .snp, .gov]) s.toDev t := by
  have hdis := s.disarmed_lostBy dt link d0
  have hf := frame_lostBy s.toDev dt link d0
  generalize s.lostBy dt link d0 = u at he hdis hf
  have hsettle := frame_settle u
  exact .of_settle he rfl ⟨hdis.of_frame hsettle (by decide) (by decide) (by decide), (hf.append hsettle).mono (by decide)⟩

/-- What is left of the interface where the level of 0x7F stands already. -/
theorem Dev.lostBy_spec (s : Dev) (dt : Nat) (link d0 : Bool) (hlevel : (s.src 0x7F).level = true) :
    (s.lostBy dt link d0).Unhosted ∧ (s.lostBy dt link d0).hif.linkUp = link ∧ (s.lostBy dt link d0).hif.d0 = d0 ∧
      (s.lostBy dt link d0).clk = s.clk.run dt ∧ (s.lostBy dt link d0).todo = s.todo ∧
      Frame [.clk, .out, .hif, .flt, .regs, .caps, .gns, .snp, .gov] s (s.lostBy dt link d0) := by
  have hf := frame_lostBy s dt link d0
  have hlost : (s.tick dt).hostLost.todo = s.todo := Dev.todo_hostLost (s := s.tick dt) hlevel
  obtain ⟨h1, h2, h3, h4, h5⟩ := Dev.unhosted_hostLost (s.tick dt)
  have hclk := frame_hostLost (s.tick dt) .clk (by decide)
  unfold Dev.lostBy at hf ⊢
  generalize (s.tick dt).hostLost = v at hf hlost h1 h2 h3 h4 h5 hclk ⊢
  have hlink := frame_linked v link d0
  exact ⟨⟨h1, h2, h3, h4, fun r hr o ho => (Dev.reg_of_frame hlink (by decide) _).trans (h5 r hr o ho)⟩, rfl, rfl, hclk, hlost,
    hf.drop_todo hlost (by decide)⟩

/-- Where the level of 0x7F stands, a reset of the interface brings nothing more. -/
theorem Completes.lostBy_stands {c : Instr} {s : State} {dt : Nat} {link d0 : Bool} (hs : s.Settled) (hlevel : (s.src 0x7F).level = true)
    (he : exec c s = s.act fun _ => s.lostBy dt link d0) :
    Completes c s fun t => t.Unhosted ∧ t.hif.linkUp = link ∧ t.hif.d0 = d0 ∧ t.clk = s.clk.run dt ∧
      Frame [.clk, .out, .hif, .flt, .regs, .caps, .gns, .snp, .gov] s.toDev t := by
  obtain ⟨hun, hup, hd0, hclk, htodo, hf⟩ := s.lostBy_spec dt link d0 hlevel
  generalize s.lostBy dt link d0 = u at he hun hup hd0 hclk htodo hf
  have hdry : u.dry = s.dry := hf .dry (by decide)
  exact .of_settled he ⟨htodo.trans hs.1, (congrArg Dry.freezeReq hdry).trans hs.2⟩ ⟨hun, hup, hd0, hclk, hf⟩

/-- Settles O11: every reset of the interface is the same loss of the host; what it raises is settled elsewhere. -/
theorem interfaceResetsDropTheHost : Obligations.InterfaceResetsDropTheHost := by
  refine ⟨fun s dt => ⟨.lostBy (exec_linkDown s dt), .lostBy (exec_functionLevelReset s dt), .lostBy (exec_pePerstN s dt), .lostBy (exec_d3hotEntry s dt)⟩,
    fun s dt hs hl => .lostBy_stands hs hl (exec_linkDown s dt), fun s dt hs hl => .lostBy_stands hs hl (exec_functionLevelReset s dt),
    fun s dt hs hl => .lostBy_stands hs hl (exec_pePerstN s dt), fun s dt hs hl => .lostBy_stands hs hl (exec_d3hotEntry s dt),
    fun s dt speed lanes hs => ?_⟩
  have hfall := frame_fallLevel ({ s.tick dt with hif := { s.hif with linkUp := true, d0 := true, bme := true, speed, lanes } } : Dev) 0x7F
  have hf := ((frame_tick s.toDev dt).append (frame_withHif _ _)).append hfall
  exact .of_effect hs hf rfl (by decide) (by decide) ⟨hfall .hif (by decide), hf.mono (by decide)⟩

end Sys2Proof.Machine

/-! ### Sample ports, front-ends and correlator groups -/
namespace Sys2Proof.Machine

/-- A level set or ended as a condition asks it. -/
def Dev.levelTo (s : Dev) (n : Nat) (b : Bool) : Dev := if b then s.raiseLevel n else s.fallLevel n

theorem frame_levelTo (s : Dev) (n : Nat) (b : Bool) : Frame [.flt, .todo] s (s.levelTo n b) := by
  unfold Dev.levelTo
  cases b
  · exact (frame_fallLevel s n).mono (by decide)
  · exact frame_raiseLevel s n

theorem Dev.src_raise (s : Dev) (n m : Nat) : (s.raise n).src m = s.src m := rfl

theorem Dev.src_raiseLevel_ne (s : Dev) {n m : Nat} (h : m ≠ n) : (s.raiseLevel n).src m = s.src m := by
  have hset : (s.setSrc n { s.src n with level := true, real := true }).src m = s.src m := by rw [Dev.src_setSrc, if_neg h]
  simp only [Dev.raiseLevel]
  split
  · exact hset
  · rw [Dev.src_raise, hset]

theorem Dev.src_fallLevel_ne (s : Dev) {n m : Nat} (h : m ≠ n) : (s.fallLevel n).src m = s.src m := by
  simp only [Dev.fallLevel]
  split
  · rfl
  · split <;> rw [Dev.src_setSrc, if_neg h]

theorem Dev.src_levelTo_ne (s : Dev) {n m : Nat} (b : Bool) (h : m ≠ n) : (s.levelTo n b).src m = s.src m := by
  unfold Dev.levelTo
  split
  · exact s.src_raiseLevel_ne h
  · exact s.src_fallLevel_ne h

theorem Dev.level_levelTo {s : Dev} {n : Nat} {b : Bool} (h : b = true) : ((s.levelTo n b).src n).level = true := by
  subst h
  exact Dev.src_raiseLevel s n

theorem Dev.todo_levelTo (s : Dev) (n : Nat) (b : Bool) : ∃ l, (s.levelTo n b).todo = s.todo ++ l := by
  unfold Dev.levelTo
  split
  · exact ⟨_, s.todo_raiseLevel n⟩
  · exact ⟨[], (frame_fallLevel s n .todo (by decide)).trans (List.append_nil _).symm⟩

theorem Dev.fault_levelTo {s : Dev} {n : Nat} {b : Bool} (hb : b = true) (h : (s.src n).level = false) :
    .fault n false ∈ (s.levelTo n b).todo := by
  subst hb
  have htodo := s.todo_raiseLevel n
  rw [h] at htodo
  exact htodo ▸ List.mem_append_right _ (List.mem_singleton.2 rfl)

theorem Dev.mem_todo_levelTo {s : Dev} {x : Todo} (n : Nat) (b : Bool) (h : x ∈ s.todo) : x ∈ (s.levelTo n b).todo := by
  obtain ⟨l, hl⟩ := s.todo_levelTo n b
  exact hl ▸ List.mem_append_left _ h

/-- Does a port in use show a condition? -/
def Dev.portShows (s : Dev) (f : Port → Bool) : Bool := (List.range 6).any fun p => s.portUsed p && f (s.port p)

theorem Dev.portShows_of {s : Dev} {p : Nat} {f : Port → Bool} (hp : s.portUsed p = true) (hf : f (s.port p) = true) : s.portShows f = true := by
  have hlt : p < s.nPorts := by simp_all [Dev.portUsed]
  have hmem : p < 6 := by
    unfold Dev.nPorts at hlt
    split at hlt <;> omega
  exact List.any_eq_true.2 ⟨p, List.mem_range.2 hmem, by rw [hp, hf]; rfl⟩

theorem Dev.portLevels_eq (s : Dev) : s.portLevels = ((s.levelTo 0x40 (s.portShows fun (x : Port) => x.lost)).levelTo 0x41
    (s.portShows fun (x : Port) => x.clkOk && !x.coherent && x.okSecs != 0)).levelTo 0x42 (s.portShows fun (x : Port) => x.stuck) := rfl

theorem frame_portLevels (s : Dev) : Frame [.flt, .todo] s s.portLevels :=
  (frame_levelTo s _ _).trans ((frame_levelTo _ _ _).trans (frame_levelTo _ _ _))

/-- What the port sources show after a port in use has changed (R106). -/
theorem Dev.level_portLevels (s : Dev) :
    ((s.portShows fun (x : Port) => x.lost) = true → (s.portLevels.src 0x40).level = true ∧
      ((s.src 0x40).level = false → .fault 0x40 false ∈ s.portLevels.todo)) ∧
    ((s.portShows fun (x : Port) => x.clkOk && !x.coherent && x.okSecs != 0) = true → (s.portLevels.src 0x41).level = true) ∧
    ((s.portShows fun (x : Port) => x.stuck) = true → (s.portLevels.src 0x42).level = true) := by
  rw [Dev.portLevels_eq]
  generalize (s.portShows fun (x : Port) => x.lost) = a
  generalize (s.portShows fun (x : Port) => x.clkOk && !x.coherent && x.okSecs != 0) = b
  generalize (s.portShows fun (x : Port) => x.stuck) = c
  refine ⟨fun ha => ⟨?_, fun h => Dev.mem_todo_levelTo _ _ (Dev.mem_todo_levelTo _ _ (Dev.fault_levelTo ha h))⟩, fun hb => ?_, Dev.level_levelTo⟩
  · rw [Dev.src_levelTo_ne _ _ (by decide), Dev.src_levelTo_ne _ _ (by decide)]
    exact Dev.level_levelTo ha
  · rw [Dev.src_levelTo_ne _ _ (by decide)]
    exact Dev.level_levelTo hb

theorem frame_setPort (s : Dev) (p : Nat) (x : Port) : Frame [.gns] s (s.setPort p x) := frame_withGns s _

theorem Dev.port_setPort (s : Dev) (p : Nat) (x : Port) :
    (s.setPort p x).port p = x ∧ ∀ q, q ≠ p → (s.setPort p x).port q = s.port q :=
  ⟨Tab.get_set_self _ _ _ _, fun _ hq => Tab.get_set_ne _ _ _ _ _ hq⟩

theorem Dev.port_of_gns {s t : Dev} (h : t.gns = s.gns) (p : Nat) : t.port p = s.port p := by rw [Dev.port, h, Dev.port]

theorem Dev.portRuns_iff (s : Dev) (p : Nat) : s.portRuns p = true ↔ s.portUsed p = true ∧ (s.port p).clkOk = true := by
  simp [Dev.portRuns]

/-- A port written, and the levels of the port sources with it. -/
theorem Dev.portWritten (s : Dev) (p : Nat) (x : Port) :
    (s.setPort p x).portLevels.port p = x ∧ (∀ q, q ≠ p → (s.setPort p x).portLevels.port q = s.port q) ∧
      Frame [.gns, .flt, .todo] s (s.setPort p x).portLevels := by
  obtain ⟨hself, hne⟩ := s.port_setPort p x
  have hf := frame_portLevels (s.setPort p x)
  have hport := Dev.port_of_gns (hf .gns (by decide))
  exact ⟨(hport p).trans hself, fun q hq => (hport q).trans (hne q hq), (frame_setPort s p x).append hf⟩

/-- A port that loses its clock (R73). -/
theorem Dev.loseClock_spec {s : Dev} {p : Nat} (hp : s.portUsed p = true) :
    (s.loseClock p).port p = { s.port p with clkOk := false, lost := true } ∧ (∀ q, q ≠ p → (s.loseClock p).port q = s.port q) ∧
      (s.loseClock p).gns.chans = (s.gns.chans.filter fun (c : Chan) => portOf c.ant c.sig != p) ∧ ((s.loseClock p).src 0x40).level = true ∧
      ((s.src 0x40).level = false → .fault 0x40 false ∈ (s.loseClock p).todo) ∧ Frame [.gns, .flt, .todo] s (s.loseClock p) := by
  generalize hv : (s.setPort p { s.port p with clkOk := false, lost := true }).dropPort p = v
  have hl : s.loseClock p = v.portLevels := hv ▸ rfl
  have hself : v.port p = { s.port p with clkOk := false, lost := true } := hv ▸ (s.port_setPort p { s.port p with clkOk := false, lost := true }).1
  have hne : ∀ q, q ≠ p → v.port q = s.port q := hv ▸ (s.port_setPort p { s.port p with clkOk := false, lost := true }).2
  have hchans : v.gns.chans = s.gns.chans.filter fun (c : Chan) => portOf c.ant c.sig != p := hv ▸ rfl
  have hfv : Frame [.gns] s v := hv ▸ (frame_setPort s p _).trans (frame_withGns _ _)
  have hused : v.portUsed p = true := hv ▸ hp
  have hf := frame_portLevels v
  have hport := Dev.port_of_gns (hf .gns (by decide))
  obtain ⟨hlevel, hfault⟩ := v.level_portLevels.1 (Dev.portShows_of hused (by rw [hself]))
  rw [Dev.src_of_flt (hfv .flt (by decide))] at hfault
  rw [hl]
  exact ⟨(hport p).trans hself, fun q hq => (hport q).trans (hne q hq), (congrArg Gns.chans (hf .gns (by decide))).trans hchans, hlevel, hfault,
    hfv.append hf⟩

theorem exec_spClkLoss (s : State) (dt p : Nat) (hp : s.portRuns p = true) : exec (.spClkLoss dt p) s = s.act fun _ => (s.tick dt).loseClock p :=
  show execSpClkLoss dt p s = _ from State.act_congr (if_pos hp)

theorem exec_spClkCheck_lost (s : State) (dt p : Nat) {ppb : Int} (tog : Bool) (hist : List (Byte × Nat)) (hp : s.portRuns p = true)
    (h : 100000 < ppb.natAbs) : exec (.spClkCheck dt p ppb tog hist) s = s.act fun _ => (s.tick dt).loseClock p :=
  have hp' : (s.tick dt).portRuns p = true := hp
  show execSpClkCheck dt p ppb tog hist s = _ from State.act_congr ((if_neg (by simp [hp'])).trans (if_pos h))

/-- The state of a port after a check within 100 ppm (R72). -/
def Dev.portChecked (s : Dev) (p : Nat) (ppb : Int) (hist : List (Byte × Nat)) : Port :=
  if 100 < ppb.natAbs then { s.port p with occ := s.highOcc p hist, coherent := false, okSecs := 10 }
  else { s.port p with
    occ := s.highOcc p hist, coherent := true, okSecs := if (s.port p).coherent then (s.port p).okSecs - 1 else (s.port p).okSecs }

theorem exec_spClkCheck (s : State) (dt p : Nat) {ppb : Int} (tog : Bool) (hist : List (Byte × Nat)) (hp : s.portRuns p = true)
    (h : ppb.natAbs ≤ 100000) (hstuck : (s.port p).stuck = false) :
    exec (.spClkCheck dt p ppb tog hist) s = s.act fun _ => ((s.tick dt).setPort p (s.portChecked p ppb hist)).portLevels := by
  have hp' : (s.tick dt).portRuns p = true := hp
  show execSpClkCheck dt p ppb tog hist s = _
  refine State.act_congr ((if_neg (by simp [hp'])).trans ((if_neg (Nat.not_lt.2 h)).trans (congrArg (fun x => ((s.tick dt).setPort p x).portLevels) ?_)))
  have hport : (s.tick dt).port p = s.port p := rfl
  have hocc : (s.tick dt).highOcc p hist = s.highOcc p hist := rfl
  simp only [hport, hocc, Dev.portChecked]
  by_cases hppb : 100 < ppb.natAbs
  · simp [hppb, hstuck]
  · cases (s.port p).coherent
    · simp [hppb, hstuck]
    · simp [hppb, hstuck]

/-! Calibration and retirement of groups (R79 to R81) -/

theorem frame_dropLeave (s : Dev) (w : Work) : Frame [.gov] s (s.dropLeave w) := frame_withGov s _

theorem frame_endCalib (s : Dev) : Frame [.gns, .gov] s s.endCalib := by
  unfold Dev.endCalib
  split
  · exact (frame_withGns s _).append ((frame_returnLeave _ _).trans (frame_dropLeave _ _))
  · exact .refl _ s

theorem Dev.gns_endCalib (s : Dev) : s.endCalib.gns = { s.gns with calib := none } := by
  unfold Dev.endCalib
  split
  · rfl
  · next h => rw [← h]

theorem Dev.hasLeave_endCalib {s : Dev} {c : Calib} (h : s.gns.calib = some c) : s.endCalib.hasLeave (.calib c.grp) = false := by
  unfold Dev.endCalib
  rw [h]
  exact Dev.hasLeave_returnLeave _ _

/-- The results of a calibration written and counted, with the note of a group that drifted. -/
def Dev.calibrated (s : Dev) (g : Nat) (res : List (Int × Int)) : Dev :=
  let moved := (List.range 3).map fun b =>
    ((res.getD b (0, 0)).1 - (Tab.get (fun _ => (0, 0)) s.gns.delays (3 * g + b)).1).natAbs
  let most := moved.foldl max 0
  let s := s.setDelays g res
  let s := { s with gns := { s.gns with calCnt := Tab.upd (fun _ => 0) s.gns.calCnt g (fun n => wrapInc 8 n) } }
  let s := s.cntSat (0x506C, 16, 16)
  if 10 * s.fld (0x5060, 24, 8) < most then s.note (0x420 + g) most [] else s

/-- What a group that is calibrated within its limits leaves: the group as the spare. -/
def Dev.spared (s : Dev) (g : Nat) : Dev := { s.endCalib with gns := { s.endCalib.gns with spare := some g } }

theorem exec_calibrationDone (s : State) (dt : Nat) (res : List (Int × Int)) {c : Calib} (hc : s.gns.calib = some c) (hst : c.stage = 2) :
    exec (.calibrationDone dt res) s = s.act fun _ => if (res.any fun x => decide (2000 < x.1.natAbs)) = true
      then ((s.tick dt).calibrated c.grp res).retireGrp c.grp else ((s.tick dt).calibrated c.grp res).spared c.grp := by
  show execCalibrationDone dt res s = _
  unfold execCalibrationDone
  have hc' : (s.tick dt).gns.calib = some c := hc
  refine State.act_congr ?_
  simp only [hc']
  exact if_neg fun h => h hst

theorem Dev.get_setDelays (s : Dev) (g : Nat) (res : List (Int × Int)) {b : Nat} (hb : b < 3) :
    Tab.get (fun _ => (0, 0)) (s.setDelays g res).gns.delays (3 * g + b) = res.getD b (0, 0) := by
  have h : (s.setDelays g res).gns.delays = Tab.set (fun _ => (0, 0)) (Tab.set (fun _ => (0, 0)) (Tab.set (fun _ => (0, 0)) s.gns.delays
    (3 * g + 0) (res.getD 0 (0, 0))) (3 * g + 1) (res.getD 1 (0, 0))) (3 * g + 2) (res.getD 2 (0, 0)) := rfl
  rw [h]
  obtain rfl | rfl | rfl : b = 0 ∨ b = 1 ∨ b = 2 := by omega
  · rw [Tab.get_set_ne _ _ _ _ _ (by omega), Tab.get_set_ne _ _ _ _ _ (by omega), Tab.get_set_self]
  · rw [Tab.get_set_ne _ _ _ _ _ (by omega), Tab.get_set_self]
  · rw [Tab.get_set_self]

theorem Dev.calibrated_spec (s : Dev) (g : Nat) (res : List (Int × Int)) :
    (∀ b, b < 3 → Tab.get (fun _ => (0, 0)) (s.calibrated g res).gns.delays (3 * g + b) = res.getD b (0, 0)) ∧
      (s.calibrated g res).gns.retired = s.gns.retired ∧ (s.calibrated g res).gns.calib = s.gns.calib ∧
      (s.calibrated g res).fld (0x506C, 16, 16) = satInc 16 (s.fld (0x506C, 16, 16)) ∧
      (s.calibrated g res).dry.freezeReq = s.dry.freezeReq ∧ Frame [.gns, .regs, .dry] s (s.calibrated g res) := by
  generalize hu : ({ s.setDelays g res with gns := { (s.setDelays g res).gns with
    calCnt := Tab.upd (fun _ => 0) (s.setDelays g res).gns.calCnt g (fun n => wrapInc 8 n) } } : Dev) = u
  have hfu : Frame [.gns] s u := hu ▸ (frame_withGns s (s.setDelays g res).gns).trans (frame_withGns _ _)
  have hdelays : ∀ b, b < 3 → Tab.get (fun _ => (0, 0)) u.gns.delays (3 * g + b) = res.getD b (0, 0) :=
    fun b hb => hu ▸ Dev.get_setDelays s g res hb
  have hret : u.gns.retired = s.gns.retired := hu ▸ rfl
  have hcal : u.gns.calib = s.gns.calib := hu ▸ rfl
  obtain ⟨v, hv, hnoted, hfv⟩ : ∃ v, s.calibrated g res = v ∧ (u.cntSat (0x506C, 16, 16)).Noted v ∧
      Frame [.regs, .dry] (u.cntSat (0x506C, 16, 16)) v := by
    subst hu
    unfold Dev.calibrated
    refine ⟨_, rfl, ?_⟩
    dsimp only
    split
    · exact ⟨Dev.noted_note _ _ _ _, frame_note _ _ _ _⟩
    · exact ⟨Dev.Noted.refl _, .refl _ _⟩
  have hfc := frame_cntSat u (0x506C, 16, 16)
  have hgns : v.gns = u.gns := (hfv .gns (by decide)).trans (hfc .gns (by decide))
  have hreq : v.dry.freezeReq = s.dry.freezeReq :=
    hnoted.freezeReq.trans (congrArg Dry.freezeReq ((hfc .dry (by decide)).trans (hfu .dry (by decide))))
  have hfld : v.fld (0x506C, 16, 16) = satInc 16 (s.fld (0x506C, 16, 16)) := by
    rw [hnoted.2.fld_eq (by decide), Dev.fld_cntSat _ _ (by decide), Dev.fld_of_frame hfu (by decide)]
  rw [hv, hgns]
  exact ⟨hdelays, hret, hcal, hfld, hreq, (hfu.append (hfc.append hfv)).mono (by decide)⟩

/-- The end of a retirement: no calibration, no spare, and the sources that tell it. -/
def Dev.retireEnd (u : Dev) : Dev := (({ u.endCalib with gns := { u.endCalib.gns with spare := none } } : Dev).raise 0x43).raiseLevel 0x44

theorem Dev.retireEnd_spec (u : Dev) : u.retireEnd.gns = { u.gns with calib := none, spare := none } ∧ .fault 0x43 false ∈ u.retireEnd.todo ∧
    (u.retireEnd.src 0x44).level = true ∧ Frame [.gns, .gov, .flt, .todo] u u.retireEnd := by
  generalize hv : (({ u.endCalib with gns := { u.endCalib.gns with spare := none } } : Dev).raise 0x43) = v
  have he : u.retireEnd = v.raiseLevel 0x44 := hv ▸ rfl
  have hgns : v.gns = { u.gns with calib := none, spare := none } := by
    rw [← hv]
    exact congrArg (fun x : Gns => { x with spare := none }) u.gns_endCalib
  have hmem : .fault 0x43 false ∈ v.todo := hv ▸ List.mem_append_right _ (List.mem_singleton.2 rfl)
  have hfv : Frame [.gns, .gov, .todo] u v := hv ▸ ((frame_endCalib u).append ((frame_withGns _ _).append (frame_raise _ 0x43))).mono (by decide)
  have hr := frame_raiseLevel v 0x44
  rw [he]
  exact ⟨(hr .gns (by decide)).trans hgns, Dev.mem_todo_levelTo 0x44 true hmem, Dev.src_raiseLevel v _, (hfv.append hr).mono (by decide)⟩

theorem frame_moveGrp (s : Dev) (a b : Nat) (r : Bool) : Frame [.gns] s (s.moveGrp a b r) := frame_withGns s _

theorem Dev.dropGrp_none (s : Dev) (g : Nat) : ∀ c ∈ (s.dropGrp g).gns.chans, c.no / 32 ≠ g := fun c hc => by
  simpa using (List.mem_filter.1 hc).2

theorem Dev.retireGrp_spec {s : Dev} {g : Nat} (hthere : s.grpThere g = true) (hret : g ∉ s.gns.retired) :
    (s.retireGrp g).gns.retired = g :: s.gns.retired ∧ (s.retireGrp g).gns.spare = none ∧ (s.retireGrp g).gns.calib = none ∧
      .fault 0x43 false ∈ (s.retireGrp g).todo ∧ ((s.retireGrp g).src 0x44).level = true ∧
      (s.gns.spare = none → ∀ c ∈ (s.retireGrp g).gns.chans, c.no / 32 ≠ g) ∧ Frame [.gns, .gov, .flt, .todo] s (s.retireGrp g) := by
  obtain ⟨u, hu, hr, hch, hf⟩ : ∃ u : Dev, s.retireGrp g = u.retireEnd ∧ u.gns.retired = g :: s.gns.retired ∧
      (s.gns.spare = none → ∀ c ∈ u.gns.chans, c.no / 32 ≠ g) ∧ Frame [.gns] s u := by
    unfold Dev.retireGrp
    rw [if_neg (by simp [hthere, hret])]
    refine ⟨_, rfl, ?_⟩
    generalize hv : ({ s with gns := { s.gns with retired := g :: s.gns.retired } } : Dev) = v
    have hfv : Frame [.gns] s v := hv ▸ frame_withGns s _
    have hr : v.gns.retired = g :: s.gns.retired := hv ▸ rfl
    rw [← hr]
    cases hsp : s.gns.spare with
    | none =>
      cases hcal : s.gns.calib with
      | none => exact ⟨rfl, fun _ => v.dropGrp_none g, hfv.trans (frame_withGns v _)⟩
      | some c => exact ⟨rfl, fun _ => v.dropGrp_none g, hfv.trans (frame_withGns v _)⟩
    | some p =>
      cases hcal : s.gns.calib with
      | none =>
        dsimp only
        split
        · exact ⟨rfl, nofun, hfv⟩
        · exact ⟨rfl, nofun, hfv.trans (frame_moveGrp v _ _ _)⟩
      | some c =>
        dsimp only
        refine ⟨?_, nofun, hfv.trans ?_⟩
        · split_ifs <;> rfl
        · split_ifs
          · exact .refl _ v
          · exact frame_moveGrp v _ _ _
          · exact .refl _ v
          · exact frame_moveGrp v _ _ _
          · exact (frame_moveGrp v _ _ _).trans (frame_moveGrp _ _ _ _)
          · exact frame_moveGrp v _ _ _
  obtain ⟨hg, hfault, hlevel, hfe⟩ := u.retireEnd_spec
  rw [hu, hg]
  exact ⟨hr, rfl, rfl, hfault, hlevel, hch, (hf.append hfe).mono (by decide)⟩

theorem Dev.spared_spec {s : Dev} {c : Calib} (hc : s.gns.calib = some c) :
    (s.spared c.grp).gns = { s.gns with calib := none, spare := some c.grp } ∧ (s.spared c.grp).hasLeave (.calib c.grp) = false ∧
      Frame [.gns, .gov] s (s.spared c.grp) :=
  ⟨congrArg (fun x : Gns => { x with spare := some c.grp }) s.gns_endCalib, Dev.hasLeave_endCalib hc,
    ((frame_endCalib s).append (frame_withGns _ _)).mono (by decide)⟩

theorem exec_spClkReturn (s : State) (dt p : Nat) (hused : s.portUsed p = true) (hclk : (s.port p).clkOk = false) :
    exec (.spClkReturn dt p) s = s.act fun _ => ((s.tick dt).setPort p { s.port p with clkOk := true, lost := false }).portLevels :=
  have h : ((s.tick dt).portUsed p && !((s.tick dt).port p).clkOk) = true := by
    show (s.portUsed p && !(s.port p).clkOk) = true
    rw [hused, hclk]
    rfl
  show execSpClkReturn dt p s = _ from State.act_congr (if_pos h)

theorem exec_spStuck (s : State) (dt p : Nat) (hp : s.portRuns p = true) :
    exec (.spStuck dt p) s = s.act fun _ => ((s.tick dt).setPort p { s.port p with stuck := true, togSecs := 10 }).portLevels :=
  show execSpStuck dt p s = _ from State.act_congr (if_pos hp)

/-- A command that writes a port in use, and what its sources then show. -/
theorem CompletesThen.portWritten {c : Instr} {s : State} {dt p : Nat} {x : Port} {P : Dev → Prop}
    (he : exec c s = s.act fun _ => ((s.tick dt).setPort p x).portLevels) (hused : s.portUsed p = true)
    (hP : ∀ d : Dev, d.port p = x → (∀ q, q ≠ p → d.port q = s.port q) → ((x.clkOk && !x.coherent && x.okSecs != 0) = true → (d.src 0x41).level = true) →
      (x.stuck = true → (d.src 0x42).level = true) → Frame [.clk, .out, .gns, .flt, .todo] s.toDev d → P d) : CompletesThen c s P := by
  obtain ⟨hself, hne, hf⟩ := (s.tick dt).portWritten p x
  obtain ⟨-, h41, h42⟩ := ((s.tick dt).setPort p x).level_portLevels
  have hused' : ((s.tick dt).setPort p x).portUsed p = true := hused
  have hport : ((s.tick dt).setPort p x).port p = x := (Dev.port_setPort _ p x).1
  refine .of_effect he (hP _ hself hne (fun h => h41 (Dev.portShows_of hused' ?_)) (fun h => h42 (Dev.portShows_of hused' ?_))
    (((frame_tick s.toDev dt).append hf).mono (by decide)))
  · rwa [hport]
  · rwa [hport]

theorem exec_feSpiDone (s : State) (dt : Nat) (v : Reg) {cs n : Nat} (h : s.gns.fe = some (cs, n)) : exec (.feSpiDone dt v) s = s.act fun _ =>
    ({ s.tick dt with gns := { s.gns with fe := none } } : Dev).setReg 0x5104 (BitVec.ofNat 32 (bits v.toNat 0 n)) := by
  show execFeSpiDone dt v s = _
  have h' : (s.tick dt).gns.fe = some (cs, n) := h
  refine State.act_congr ?_
  simp only [h']
  rfl

/-- The unit after the turn of a calibration falls due (R79). -/
def Dev.calibTurn (s : Dev) (g : Nat) : Dev :=
  let t := s.tickUp (s.gns.calFrom + 60 * s.fld (0x5060, 8, 16) * cycHz)
  ({ t with gns := { s.gns with calFrom := t.up, nextGrp := (g + 1) % 13 } } : Dev).askCalib g

theorem exec_calibrationDue (s : State) {g p : Nat} (hen : s.flag (0x5060, 0, 1) = true) (hsp : s.gns.spare = some p) (hcal : s.gns.calib = none)
    (hturn : s.nextTurn s.gns.nextGrp = some g) : exec .calibrationDue s = s.act fun _ => s.calibTurn g := by
  show execCalibrationDue s = _
  refine State.act_congr ((if_neg (by simp [hen, hsp])).trans ?_)
  generalize ht : s.tickUp (s.gns.calFrom + 60 * s.fld (0x5060, 8, 16) * cycHz) = t
  have hgns : t.gns = s.gns := ht ▸ rfl
  have hturn' : ({ t with gns := { t.gns with calFrom := t.up } } : Dev).nextTurn t.gns.nextGrp = some g := by
    rw [← hturn, hgns, ← ht]
    rfl
  have hcal' : t.gns.calib = none := hgns ▸ hcal
  unfold Dev.calibTurn
  rw [ht, ← hgns]
  dsimp only
  split
  · next h => exact absurd (h.symm.trans hturn') (by simp)
  · next g' h =>
    obtain rfl : g' = g := Option.some.inj (h.symm.trans hturn')
    rw [hcal']

theorem Dev.calibTurn_spec (s : Dev) (g : Nat) :
    (s.calibTurn g).gns = { s.gns with calib := some { grp := g }, nextGrp := (g + 1) % 13, calFrom := (s.calibTurn g).up } ∧
      (s.calibTurn g).up = max s.up (s.gns.calFrom + 60 * s.fld (0x5060, 8, 16) * cycHz) ∧
      (∃ r ∈ (s.calibTurn g).gov.reqs, r.work = .calib g ∧ r.cls = 7 ∧ r.mw = 400) ∧ Frame [.clk, .out, .gns, .gov] s (s.calibTurn g) := by
  have hup := s.tickUp_up (s.gns.calFrom + 60 * s.fld (0x5060, 8, 16) * cycHz)
  have hft := frame_tickUp s (s.gns.calFrom + 60 * s.fld (0x5060, 8, 16) * cycHz)
  unfold Dev.calibTurn
  generalize s.tickUp (s.gns.calFrom + 60 * s.fld (0x5060, 8, 16) * cycHz) = t at hup hft ⊢
  exact ⟨rfl, hup, ⟨_, List.mem_append_right _ (List.mem_singleton.2 rfl), rfl, rfl, rfl⟩,
    (hft.append ((frame_withGns t _).append ((frame_withGns _ _).append (frame_askLeave _ _ _ _ _ _)))).mono (by decide)⟩

theorem frame_corrBack (s : Dev) : Frame [.pll, .gns] s s.corrBack := fun p hp => by cases p <;> simp at hp <;> rfl

theorem exec_corrRelock (s : State) (dt : Nat) (h : s.pll.refOk = true) : exec (.corrRelock dt) s = s.act fun _ => (s.tick dt).corrBack.fallLevel 0x01 :=
  show execCorrRelock dt s = _ from State.act_congr (if_pos h)

theorem exec_feSpiTimeout (s : State) (dt : Nat) {x : Nat × Nat} (h : s.gns.fe = some x) :
    exec (.feSpiTimeout dt) s = s.act fun _ => ({ s.tick dt with gns := { s.gns with fe := none } } : Dev).raise 0x48 :=
  have h' : (s.tick dt).gns.fe.isSome = true := by
    show s.gns.fe.isSome = true
    rw [h]
    rfl
  show execFeSpiTimeout dt s = _ from State.act_congr (if_pos h')

theorem any_drift {res : List (Int × Int)} : (res.any fun x => decide (2000 < x.1.natAbs)) = true ↔ ∃ x ∈ res, 2000 < x.1.natAbs := by
  simp [List.any_eq_true]

theorem CompletesThen.calibrationDone_retires {s : State} (dt : Nat) {res : List (Int × Int)} {c : Calib} (hc : s.gns.calib = some c)
    (hst : c.stage = 2) (hbad : ∃ x ∈ res, 2000 < x.1.natAbs) (hthere : s.grpThere c.grp = true) (hret : c.grp ∉ s.gns.retired) :
    CompletesThen (.calibrationDone dt res) s fun d => d.gns.calib = none ∧ d.gns.spare = none ∧ d.gns.retired = c.grp :: s.gns.retired ∧
      .fault 0x43 false ∈ d.todo ∧ (d.src 0x44).level = true := by
  have he : exec (.calibrationDone dt res) s = s.act fun _ => ((s.tick dt).calibrated c.grp res).retireGrp c.grp := by
    rw [exec_calibrationDone s dt res hc hst, if_pos (any_drift.2 hbad)]
  obtain ⟨-, hret', -, -, -, hf⟩ := (s.tick dt).calibrated_spec c.grp res
  have hfuse : ((s.tick dt).calibrated c.grp res).fuse = s.fuse := hf .fuse (by decide)
  have hthere' : ((s.tick dt).calibrated c.grp res).grpThere c.grp = true := by
    unfold Dev.grpThere at hthere ⊢
    rwa [hfuse]
  obtain ⟨h1, h2, h3, h4, h5, -, -⟩ := Dev.retireGrp_spec hthere' (hret'.symm ▸ hret)
  exact .of_effect he ⟨h3, h2, h1.trans (congrArg _ hret'), h4, h5⟩

theorem Completes.calibrationDone_spares {s : State} (hs : s.Settled) (dt : Nat) {res : List (Int × Int)} {c : Calib} (hc : s.gns.calib = some c)
    (hst : c.stage = 2) (hgood : ∀ x ∈ res, x.1.natAbs ≤ 2000) :
    Completes (.calibrationDone dt res) s fun t => t.gns.calib = none ∧ t.gns.spare = some c.grp ∧
      (∀ b, b < 3 → Tab.get (fun _ => (0, 0)) t.gns.delays (3 * c.grp + b) = res.getD b (0, 0)) ∧
      t.gns.retired = s.gns.retired ∧ t.hasLeave (.calib c.grp) = false ∧ t.fld (0x506C, 16, 16) = satInc 16 (s.fld (0x506C, 16, 16)) ∧
      Frame [.clk, .out, .gns, .gov, .regs, .dry] s.toDev t := by
  have hany : ¬ (res.any fun x => decide (2000 < x.1.natAbs)) = true := fun h => by
    obtain ⟨x, hx, h⟩ := any_drift.1 h
    exact absurd (hgood x hx) (Nat.not_le.2 h)
  have he : exec (.calibrationDone dt res) s = s.act fun _ => ((s.tick dt).calibrated c.grp res).spared c.grp := by
    rw [exec_calibrationDone s dt res hc hst, if_neg hany]
  obtain ⟨hdelays, hret, hcal, hfld, hreq, hf⟩ := (s.tick dt).calibrated_spec c.grp res
  generalize (s.tick dt).calibrated c.grp res = u at he hdelays hret hcal hfld hreq hf
  obtain ⟨hgns, hleave, hfs⟩ := Dev.spared_spec (hcal.trans hc)
  have hall := (frame_tick s.toDev dt).append (hf.append hfs)
  refine .of_settled he ⟨(hall .todo (by decide)).trans hs.1, ?_⟩ ?_
  · exact (congrArg Dry.freezeReq (hfs .dry (by decide))).trans (hreq.trans hs.2)
  · rw [hgns]
    exact ⟨rfl, rfl, hdelays, hret, hleave, (Dev.fld_of_frame hfs (by decide) _).trans hfld, hall.mono (by decide)⟩

/-- Settles O42: a port written, and the levels of its sources with it; a group retired or made the spare. -/
theorem theSampleInterfacesAreWatched : Obligations.TheSampleInterfacesAreWatched := by
  refine ⟨fun s dt p hp => ?_, fun s dt p hused hclk => ?_, fun s dt p ppb tog hist hp hppb hstuck => ?_, fun s dt p ppb tog hist hp hppb => ?_,
    fun s dt p hp => ?_, fun s dt cs n v hs hfe => ?_, fun s dt cs n hfe => ?_, fun s g p hs hen hsp hcal hturn => ?_,
    fun s dt res c hs hc hst hgood => .calibrationDone_spares hs dt hc hst hgood,
    fun s dt res c hc hst hbad hthere hret => .calibrationDone_retires dt hc hst hbad hthere hret, fun s dt g hthere hret => ?_, fun s dt hs href => ?_⟩
  · obtain ⟨hself, hne, hchans, hlevel, hfault, hf⟩ := Dev.loseClock_spec (s := s.tick dt) ((s.portRuns_iff p).1 hp).1
    refine .of_effect (exec_spClkLoss s dt p hp) ⟨hself, hne, fun c hc => ?_, fun c hc hport => ?_, hlevel, hfault,
      ((frame_tick s.toDev dt).append hf).mono (by decide)⟩
    · rw [hchans] at hc
      simpa using (List.mem_filter.1 hc).2
    · rw [hchans]
      exact List.mem_filter.2 ⟨hc, by simpa using hport⟩
  · exact .portWritten (exec_spClkReturn s dt p hused hclk) hused fun d hself hne _ _ hf => ⟨hself, hne, hf⟩
  · refine .portWritten (exec_spClkCheck s dt p tog hist hp hppb hstuck) ((s.portRuns_iff p).1 hp).1 fun d hself hne h41 _ hf =>
      ⟨hself, hne, fun h => h41 ?_, hf⟩
    have hclk : (s.port p).clkOk = true := ((s.portRuns_iff p).1 hp).2
    rw [Dev.portChecked, if_pos h]
    simp [hclk]
  · obtain ⟨hself, hne, -, hlevel, -, hf⟩ := Dev.loseClock_spec (s := s.tick dt) ((s.portRuns_iff p).1 hp).1
    exact .of_effect (exec_spClkCheck_lost s dt p tog hist hp hppb) ⟨hself, hne, hlevel, ((frame_tick s.toDev dt).append hf).mono (by decide)⟩
  · exact .portWritten (exec_spStuck s dt p hp) ((s.portRuns_iff p).1 hp).1 fun d hself hne _ h42 hf => ⟨hself, hne, h42 rfl, hf⟩
  · have hf := ((frame_tick s.toDev dt).append (frame_withGns _ { s.gns with fe := none })).append
      (frame_setReg ({ s.tick dt with gns := { s.gns with fe := none } } : Dev) 0x5104 (BitVec.ofNat 32 (bits v.toNat 0 n)))
    refine .of_effect hs hf (exec_feSpiDone s dt v hfe) (by decide) (by decide) ⟨rfl, ?_, .setReg _ _ (List.mem_singleton.2 rfl), hf.mono (by decide)⟩
    simp [bits]
  · exact .of_effect (exec_feSpiTimeout s dt hfe) ⟨rfl, rfl,
      ((frame_tick s.toDev dt).append ((frame_withGns _ _).append (frame_raise _ 0x48))).mono (by decide)⟩
  · obtain ⟨hgns, hup, hreq, hf⟩ := s.toDev.calibTurn_spec g
    exact .of_effect hs hf (exec_calibrationDue s hen hsp hcal hturn) (by decide) (by decide) ⟨hgns, hup, hreq, hf⟩
  · obtain ⟨h1, h2, h3, h4, h5, h6, hf⟩ := Dev.retireGrp_spec (s := s.tick dt) hthere hret
    exact .of_effect rfl ⟨h1, h2, h3, h4, h5, h6, ((frame_tick s.toDev dt).append hf).mono (by decide)⟩
  · have hfall := frame_fallLevel (s.tick dt).corrBack 0x01
    have hf := ((frame_tick s.toDev dt).append (frame_corrBack _)).append hfall
    exact .of_effect hs hf (exec_corrRelock s dt href) (by decide) (by decide)
      ⟨hfall .gns (by decide), hfall .pll (by decide), fun h => Dev.level_fallLevel h, hf.mono (by decide)⟩

end Sys2Proof.Machine

/-! ### The pair -/
namespace Sys2Proof.Machine

theorem frame_withPar (s : Dev) (x : Par) : Frame [.par] s { s with par := x } := fun p hp => by cases p <;> simp at hp <;> rfl
theorem frame_withParNv (s : Dev) (x : Par) (y : Nv) : Frame [.par, .nv] s { s with par := x, nv := y } := fun p hp => by
  cases p <;> simp at hp <;> rfl

/-! The mirror and its events (R501) -/

/-- The mirror leaves its state; a bulk copy ends with JOINING. -/
def Dev.mirrorLeft (s : Dev) : Dev :=
  if s.par.mirror = .joining then (({ s with par := { s.par with bulk := 0 } } : Dev).dropLeave .bulkCopy).returnLeave .bulkCopy else s

/-- The mirror in a new state. -/
def Dev.mirrorMoved (s : Dev) (m : Mirror) : Dev := { s.mirrorLeft with par := { s.mirrorLeft.par with mirror := m } }

/-- The mirror in a new state, told to the host. -/
def Dev.mirrorTold (s : Dev) (m : Mirror) : Dev :=
  (s.mirrorMoved m).event 0x1501 (leBytes s.par.mirror.code 1 ++ leBytes m.code 1)

theorem Dev.setMirror_joining {s : Dev} (h : s.par.mirror ≠ .joining) : s.setMirror .joining = s.mirrorTold .joining := by
  unfold Dev.setMirror
  rw [if_neg h]
  rfl

theorem Dev.setMirror_sync {s : Dev} (h : s.par.mirror ≠ .sync) : s.setMirror .sync = (s.mirrorTold .sync).endJoin stOK := by
  unfold Dev.setMirror
  rw [if_neg h]
  rfl

theorem Dev.setMirror_outOfSync {s : Dev} (h : s.par.mirror ≠ .outOfSync) : s.setMirror .outOfSync = (s.mirrorTold .outOfSync).raise 0x3A := by
  unfold Dev.setMirror
  rw [if_neg h]
  rfl

theorem Dev.mirrorLeft_spec (s : Dev) :
    s.mirrorLeft.par = { s.par with bulk := if s.par.mirror = .joining then 0 else s.par.bulk } ∧
      (s.par.mirror = .joining → s.mirrorLeft.hasLeave .bulkCopy = false) ∧ (s.par.mirror ≠ .joining → s.mirrorLeft.gov = s.gov) ∧
      Frame [.par, .gov] s s.mirrorLeft := by
  unfold Dev.mirrorLeft
  split
  · next h =>
    exact ⟨rfl, fun _ => Dev.hasLeave_returnLeave _ _, fun hne => absurd h hne,
      (frame_withPar s _).append ((frame_dropLeave _ _).trans (frame_returnLeave _ _))⟩
  · next h => exact ⟨rfl, fun hj => absurd hj h, fun _ => rfl, .refl _ s⟩

theorem Dev.mirrorMoved_spec (s : Dev) (m : Mirror) :
    (s.mirrorMoved m).par = { s.par with mirror := m, bulk := if s.par.mirror = .joining then 0 else s.par.bulk } ∧
      (s.par.mirror = .joining → (s.mirrorMoved m).hasLeave .bulkCopy = false) ∧
      (s.par.mirror ≠ .joining → (s.mirrorMoved m).gov = s.gov) ∧ Frame [.par, .gov] s (s.mirrorMoved m) := by
  obtain ⟨hpar, hleave, hgov, hf⟩ := s.mirrorLeft_spec
  exact ⟨congrArg (fun x : Par => { x with mirror := m }) hpar, hleave, hgov, hf.trans ((frame_withPar _ _).mono (by decide))⟩

theorem Dev.mirrorTold_spec (s : Dev) (m : Mirror) :
    (s.mirrorTold m).par = { s.par with mirror := m, bulk := if s.par.mirror = .joining then 0 else s.par.bulk } ∧
      (s.par.mirror = .joining → (s.mirrorTold m).hasLeave .bulkCopy = false) ∧
      (s.par.mirror ≠ .joining → (s.mirrorTold m).gov = s.gov) ∧ Frame [.par, .gov, .hif, .out, .todo] s (s.mirrorTold m) := by
  obtain ⟨hpar, hleave, hgov, hf⟩ := s.mirrorMoved_spec m
  have he := frame_event (s.mirrorMoved m) 0x1501 (leBytes s.par.mirror.code 1 ++ leBytes m.code 1)
  have hg : (s.mirrorTold m).gov = (s.mirrorMoved m).gov := he .gov (by decide)
  refine ⟨(he .par (by decide)).trans hpar, fun h => ?_, fun h => hg.trans (hgov h), (hf.append he).mono (by decide)⟩
  unfold Dev.hasLeave
  rw [hg]
  exact hleave h

/-- The event of a mirror that moves finds its ring as it was. -/
theorem Dev.mirrorTold_told {s u : Dev} (m : Mirror) {a : List Area} (hf : Frame a s u) (hh : .hif ∉ a) (hr : .regs ∉ a)
    (hroom : s.Room (s.evtCq 0x1501)) :
    (u.mirrorTold m).Told (s.evtCq 0x1501) 0x1501 (leBytes u.par.mirror.code 1 ++ leBytes m.code 1) := by
  obtain ⟨-, -, -, hm⟩ := u.mirrorMoved_spec m
  exact (Dev.told_event _ hroom (by decide) ((hm .hif (by decide)).trans (hf .hif hh)) fun o _ _ =>
    (Dev.reg_of_frame hm (by decide) o).trans (Dev.reg_of_frame hf hr o)).1

/-! A link that is up (R501, R504) -/

/-- The partner known and the link up. -/
def Dev.linkMet (s : Dev) (dt : Nat) (p : PartnerFacts) (mib : Nat) : Dev :=
  { s.tick dt with par := { s.par with partner := p, tokenIn := p.token, aliveIn := p.alive, linkUp := true, mib := mib } }

theorem exec_pairLinkUp (s : State) (dt : Nat) (p : PartnerFacts) (mib : Nat) :
    exec (.pairLinkUp dt p mib) s = s.act fun _ => (s.linkMet dt p mib).startMirror :=
  show execPairLinkUp dt p mib s = _ from State.act_congr rfl

theorem frame_linkMet (s : Dev) (dt : Nat) (p : PartnerFacts) (mib : Nat) : Frame [.clk, .out, .par] s (s.linkMet dt p mib) :=
  (frame_tick s dt).append (frame_withPar _ _)

/-- A mirror that begins, the bulk copy not yet done. -/
def Dev.unbulked (s : Dev) : Dev := { s with par := { s.par with bulkDone := false } }

theorem Dev.startMirror_idle {s : Dev} (h : s.par.role = .none ∨ s.par.linkUp = false) : s.startMirror = s := by
  unfold Dev.startMirror
  obtain h | h := h
  · simp [h]
  · simp [h]

theorem Dev.startMirror_bad {s : Dev} {code : Nat} (hrole : s.par.role ≠ .none) (hup : s.par.linkUp = true)
    (hm : s.par.mirror = .alone ∨ s.par.mirror = .outOfSync) (hbad : s.partnerBad = some code) : s.startMirror = s.endJoin code := by
  unfold Dev.startMirror
  rw [if_neg (by obtain hm | hm := hm <;> simp [hrole, hup, hm]), hbad]

theorem Dev.startMirror_good {s : Dev} (hrole : s.par.role ≠ .none) (hup : s.par.linkUp = true)
    (hm : s.par.mirror = .alone ∨ s.par.mirror = .outOfSync) (hbad : s.partnerBad = none) :
    s.startMirror = if (s.unbulked.mirrorTold .joining).par.role = .active then (s.unbulked.mirrorTold .joining).askBulk
      else s.unbulked.mirrorTold .joining := by
  have hset : s.unbulked.setMirror .joining = s.unbulked.mirrorTold .joining :=
    Dev.setMirror_joining (by obtain hm | hm := hm <;> simp [Dev.unbulked, hm])
  unfold Dev.startMirror
  rw [if_neg (by obtain hm | hm := hm <;> simp [hrole, hup, hm]), hbad, ← hset]
  rfl

/-! A command answered is live no longer (R373) -/

theorem Dev.live?_doneRaw {s : Dev} {h c : Nat} {l : Live} {b : List Byte} (hl : s.live? h = some l)
    (hhold : ∀ x ∈ (s.cq l.cq).hold, x.kind ≠ .progress) : ∀ x ∈ (s.doneRaw h c b).hif.live, x.handle ≠ h := by
  have hrest : ∀ x ∈ s.hif.live.filter (fun x => x.handle != h), x.handle ≠ h := fun x hx => by simpa using (List.mem_filter.1 hx).2
  have hany : ((s.cq l.cq).hold.any fun x => x.handle == h && x.kind == .progress) = false := by
    rw [List.any_eq_false]
    intro x hx
    simp [hhold x hx]
  unfold Dev.doneRaw
  simp only [hl, hany]
  split
  · exact hrest
  · rw [if_neg (by decide)]
    split
    · rw [Dev.live_cqWrite]
      exact hrest
    · exact hrest

theorem Dev.live?_done {s : Dev} {h c : Nat} {l : Live} {b : List Byte} (hl : s.live? h = some l)
    (hhold : ∀ x ∈ (s.cq l.cq).hold, x.kind ≠ .progress) : (s.done h c b).live? h = none := by
  rw [Dev.live?, List.find?_eq_none]
  intro x hx hh
  exact Dev.live?_doneRaw hl hhold x (Dev.live_settleFences_sub _ _ x hx) (by simpa using hh)

theorem Dev.hold_cqLose (s : Dev) (r k : Nat) : ((s.cqLose r).cq k).hold = (s.cq k).hold :=
  Dev.hold_setCq (q := { s.cq r with lost := satInc 16 (s.cq r).lost, lostFlag := true }) rfl k

theorem Dev.hold_cqOffer (s : Dev) (r k : Nat) {e x : Entry} (hx : x ∈ ((s.cqOffer r e).1.cq k).hold) : x ∈ (s.cq k).hold ∨ x = e := by
  unfold Dev.cqOffer at hx
  dsimp only at hx
  split at hx
  · rw [Dev.hold_cqLose] at hx
    exact .inl hx
  · split at hx
    · rw [Dev.hold_cqWrite] at hx
      exact .inl hx
    · split at hx
      · rw [Dev.cq_setCq] at hx
        split at hx
        · next hk =>
          subst hk
          simpa using hx
        · exact .inl hx
      · rw [Dev.hold_cqLose] at hx
        exact .inl hx

theorem Dev.mem_hold_event {s : Dev} {c k : Nat} {b : List Byte} {x : Entry} (hx : x ∈ ((s.event c b).cq k).hold) :
    x ∈ (s.cq k).hold ∨ x = eventEntry s.nt c b := by
  refine Dev.hold_cqOffer s (s.evtCq c) k ?_
  unfold Dev.event at hx
  generalize s.cqOffer (s.evtCq c) (eventEntry s.nt c b) = y at hx ⊢
  obtain ⟨t, l⟩ := y
  dsimp only at hx
  split at hx
  · exact hx
  · exact hx

/-! The frames of the mirror (R501, R502) -/

/-- A frame of the partner in order: counted, and its lag kept. -/
def Dev.mirrorHeard (s : Dev) (dt : Nat) (p : PartnerFacts) (lag : Nat) : Dev :=
  { (s.tick dt).cntWrap (0x1501C, 0, 16) with
    par := { s.par with partner := p, tokenIn := p.token, aliveIn := p.alive, lag := sat 16 lag, seq := s.par.seq + 1 } }

/-- A frame of the partner lost and counted. -/
def Dev.mirrorLost (s : Dev) (dt : Nat) (p : PartnerFacts) : Dev := ((s.tick dt).meet p).cntSat (0x1501C, 16, 16)

theorem Dev.mirrorLive (s : Dev) (hm : s.par.mirror = .joining ∨ s.par.mirror = .sync) :
    (decide (s.par.mirror = .joining) || decide (s.par.mirror = .sync)) = true := by
  obtain h | h := hm <;> rw [h] <;> rfl

theorem exec_mirrorFrame_lost (s : State) (dt lag : Nat) (p : PartnerFacts) (d : MirrorDelta) (hm : s.par.mirror = .joining ∨ s.par.mirror = .sync) :
    exec (.mirrorFrame dt false p lag d) s = s.act fun _ => ((s.mirrorLost dt p).mirrorTold .outOfSync).raise 0x3A := by
  have hne : (s.mirrorLost dt p).par.mirror ≠ .outOfSync := by
    show s.par.mirror ≠ .outOfSync
    obtain h | h := hm <;> rw [h] <;> decide
  have hlive : (decide (((s.tick dt).meet p).par.mirror = .joining) || decide (((s.tick dt).meet p).par.mirror = .sync)) = true :=
    s.toDev.mirrorLive hm
  show execMirrorFrame dt false p lag d s = _
  refine State.act_congr ?_
  rw [← Dev.setMirror_outOfSync hne]
  exact (if_pos rfl).trans (if_pos hlive)

theorem exec_mirrorFrame_heard (s : State) (dt lag : Nat) (p : PartnerFacts) (d : MirrorDelta) {u : Dev}
    (hm : s.par.mirror = .joining ∨ s.par.mirror = .sync)
    (hu : (if s.par.role = .standby then (s.mirrorHeard dt p lag).applyDelta d else s.mirrorHeard dt p lag) = u) :
    exec (.mirrorFrame dt true p lag d) s = s.act fun _ => if (u.par.mirror = .joining && u.par.bulkDone) = true then u.setMirror .sync else u := by
  subst hu
  show execMirrorFrame dt true p lag d s = _
  refine State.act_congr ?_
  have hlive : (decide (((s.tick dt).meet p).par.mirror = .joining) || decide (((s.tick dt).meet p).par.mirror = .sync)) = true :=
    s.toDev.mirrorLive hm
  exact (if_neg (by decide)).trans (if_neg (by rw [hlive]; decide))

theorem frame_mirrorHeard (s : Dev) (dt : Nat) (p : PartnerFacts) (lag : Nat) : Frame [.clk, .out, .par, .regs] s (s.mirrorHeard dt p lag) :=
  ((frame_tick s dt).append ((frame_cntWrap _ (0x1501C, 0, 16)).append (frame_withPar _ _))).mono (by decide)

theorem Dev.mirrorHeard_regs (s : Dev) (dt : Nat) (p : PartnerFacts) (lag : Nat) : RegsBut [0x1501C] s (s.mirrorHeard dt p lag) ∧
    (s.mirrorHeard dt p lag).fld (0x1501C, 0, 16) = wrapInc 16 (s.fld (0x1501C, 0, 16)) :=
  ⟨RegsBut.cntWrap (s.tick dt) (0x1501C, 0, 16), Dev.fld_cntWrap (s.tick dt) (0x1501C, 0, 16) (by decide)⟩

/-- What of a standby the rest of a delta leaves alone: the graph, the leases, the frame counter and the mirror. -/
def Dev.Held (s t : Dev) : Prop :=
  t.trl.graph = s.trl.graph ∧ t.trl.ver = s.trl.ver ∧ t.txu.leases = s.txu.leases ∧ t.mac.fcnt = s.mac.fcnt ∧ t.nv.fcnt = s.nv.fcnt ∧ t.par = s.par

theorem Dev.Held.refl (s : Dev) : s.Held s := ⟨rfl, rfl, rfl, rfl, rfl, rfl⟩

theorem Dev.Held.trans {s t u : Dev} (h : s.Held t) (k : t.Held u) : s.Held u := by
  obtain ⟨h1, h2, h3, h4, h5, h6⟩ := h
  obtain ⟨k1, k2, k3, k4, k5, k6⟩ := k
  exact ⟨k1.trans h1, k2.trans h2, k3.trans h3, k4.trans h4, k5.trans h5, k6.trans h6⟩

theorem Dev.Held.foldl {α : Type} {f : Dev → α → Dev} (h : ∀ (s : Dev) a, s.Held (f s a)) (l : List α) : ∀ s : Dev, s.Held (l.foldl f s) := by
  induction l with
  | nil => exact Dev.Held.refl
  | cons a l ih => exact fun s => (h s a).trans (ih _)

theorem Dev.Held.of_frame {a : List Area} {s t : Dev} (h : Frame a s t) (htrl : .trl ∉ a) (htxu : .txu ∉ a) (hmac : .mac ∉ a) (hnv : .nv ∉ a)
    (hpar : .par ∉ a) : s.Held t := by
  have h1 : t.trl = s.trl := h .trl htrl
  have h2 : t.txu = s.txu := h .txu htxu
  have h3 : t.mac = s.mac := h .mac hmac
  have h4 : t.nv = s.nv := h .nv hnv
  exact ⟨by rw [h1], by rw [h1], by rw [h2], by rw [h3], by rw [h4], h .par hpar⟩

/-- A lease written, and its record. -/
theorem Dev.putLease_spec (s : Dev) (i : Nat) (x : Lease) : (s.putLease i x).lease i = x ∧
    (∀ j, j ≠ i → (s.putLease i x).lease j = s.lease j) ∧ (s.putLease i x).trl = s.trl ∧ (s.putLease i x).par = s.par :=
  ⟨(s.lease_setLease i i x).trans (if_pos rfl), fun j hj => (s.lease_setLease i j x).trans (if_neg hj), rfl, rfl⟩

/-! The part of a delta beyond the graph and the leases -/

def Dev.applyPatches (s : Dev) (o : Option (List Patch)) : Dev := match o with
  | some l => { s with trl := { s.trl with patches := l.map fun (p : Patch) => { p with far := true } } }
  | none => s

def Dev.applyTxns (s : Dev) (d : MirrorDelta) : Dev :=
  let own : Txn → Txn := fun t => { t with handle := none }
  match d.txns with
  | some (t, l) => { s with txu := { s.txu with txns := t.map own, lists := l } }
  | none => s

def Dev.applyRoutes (s : Dev) (d : MirrorDelta) : Dev := match d.routes with
  | some r => { s with mac := { s.mac with routes := r } }
  | none => s

def Dev.applySent (s : Dev) (p : Nat × List SetPt) : Dev := { s with ctl := { s.ctl with sent := Tab.set (fun _ => []) s.ctl.sent p.1 p.2 } }

def Dev.applyPos (s : Dev) (m : MirrorPos) : Dev :=
  let i := m.rec_.slot
  s.setFrkSlot i (((s.frkSlot i).hold m.rec_ ((s.rover i).rx == 2)).mirrored m.fixes m.locks)

def Dev.applyMore (s : Dev) (d : MirrorDelta) : Dev :=
  d.pos.foldl Dev.applyPos (d.sent.foldl Dev.applySent (d.loops.foldl (fun s l => s.setLoop l.1 l.2)
    ((((d.tasks.foldl (fun s k => s.setTask k.1 k.2) s).applyPatches d.patches).applyTxns d).applyRoutes d)))

theorem Dev.held_applyPatches (s : Dev) (o : Option (List Patch)) : s.Held (s.applyPatches o) := by
  cases o <;> exact ⟨rfl, rfl, rfl, rfl, rfl, rfl⟩

theorem Dev.held_applyTxns (s : Dev) (d : MirrorDelta) : s.Held (s.applyTxns d) := by
  unfold Dev.applyTxns
  cases d.txns <;> exact ⟨rfl, rfl, rfl, rfl, rfl, rfl⟩

theorem Dev.held_applyRoutes (s : Dev) (d : MirrorDelta) : s.Held (s.applyRoutes d) := by
  unfold Dev.applyRoutes
  cases d.routes <;> exact ⟨rfl, rfl, rfl, rfl, rfl, rfl⟩

theorem Dev.held_applyMore (s : Dev) (d : MirrorDelta) : s.Held (s.applyMore d) :=
  have htasks := Dev.Held.foldl (f := fun (s : Dev) (k : Nat × Task) => s.setTask k.1 k.2) (fun _ _ => ⟨rfl, rfl, rfl, rfl, rfl, rfl⟩) d.tasks s
  have hmid := ((htasks.trans (Dev.held_applyPatches _ d.patches)).trans (Dev.held_applyTxns _ d)).trans (Dev.held_applyRoutes _ d)
  have hloops := hmid.trans (Dev.Held.foldl (f := fun (s : Dev) (l : Nat × LoopSlot) => s.setLoop l.1 l.2) (fun _ _ => ⟨rfl, rfl, rfl, rfl, rfl, rfl⟩) d.loops _)
  have hsent := hloops.trans (Dev.Held.foldl (f := Dev.applySent) (fun _ _ => ⟨rfl, rfl, rfl, rfl, rfl, rfl⟩) d.sent _)
  hsent.trans (Dev.Held.foldl (f := Dev.applyPos) (fun _ _ => ⟨rfl, rfl, rfl, rfl, rfl, rfl⟩) d.pos _)

/-- A delta with one lease and the frame counter, applied (R502). -/
theorem Dev.applyDelta_spec (s : Dev) {d : MirrorDelta} {v i n : Nat} {g : Option Graph} {x : Lease} (hregs : d.regs = [])
    (hgraph : d.graph = some (v, g)) (hleases : d.leases = [(i, x)]) (hresv : d.resv = none) (hfcnt : d.fcnt = some n) :
    (s.applyDelta d).trl.graph = g ∧ (s.applyDelta d).trl.ver = v ∧ (s.applyDelta d).lease i = { x with handle := none } ∧
      (∀ j, j ≠ i → (s.applyDelta d).lease j = s.lease j) ∧ (s.applyDelta d).mac.fcnt = n ∧ (s.applyDelta d).nv.fcnt = some n ∧
      (s.applyDelta d).par = s.par := by
  generalize hw : ({ s with trl := { s.trl with ver := v, graph := g } } : Dev).putLease i { x with handle := none } = w
  have hd : s.applyDelta d = d.rovers.foldl (fun s r => s.setRover r.1 r.2)
      ({ w.applyMore d with mac := { (w.applyMore d).mac with fcnt := n }, nv := { (w.applyMore d).nv with fcnt := some n } } : Dev) := by
    rw [← hw]
    unfold Dev.applyDelta
    simp only [hregs, hgraph, hleases, hresv, hfcnt]
    rfl
  obtain ⟨hown, hother, htrl, hpar⟩ := Dev.putLease_spec ({ s with trl := { s.trl with ver := v, graph := g } } : Dev) i { x with handle := none }
  rw [hw] at hown hother htrl hpar
  obtain ⟨m1, m2, m3, -, -, m6⟩ := w.held_applyMore d
  generalize w.applyMore d = u at hd m1 m2 m3 m6
  obtain ⟨r1, r2, r3, r4, r5, r6⟩ := Dev.Held.foldl (f := fun (s : Dev) (r : Nat × Rover) => s.setRover r.1 r.2) (fun s r => ⟨rfl, rfl, rfl, rfl, rfl, rfl⟩)
    d.rovers ({ u with mac := { u.mac with fcnt := n }, nv := { u.nv with fcnt := some n } } : Dev)
  rw [← hd] at r1 r2 r3 r4 r5 r6
  have hlease : ∀ j, (s.applyDelta d).lease j = w.lease j := fun j => by rw [Dev.lease, r3, m3, Dev.lease]
  exact ⟨(r1.trans m1).trans (congrArg Trl.graph htrl), (r2.trans m2).trans (congrArg Trl.ver htrl), (hlease i).trans hown,
    fun j hj => (hlease j).trans (hother j hj), r4, r5, (r6.trans m6).trans hpar⟩

/-! Handing over (R508) -/

/-- A change of the run state changes nothing else of the safety state. -/
theorem Dev.saf_setRun_ne {s : Dev} {r : RunState} (h : s.saf.run ≠ r) (hr : r ≠ .updatePause) (w x : Nat) :
    (s.setRun r w x).saf = { s.saf with run := r, pausedFrom := none } := by
  unfold Dev.setRun
  rw [if_neg h, if_neg hr]
  exact (frame_event _ _ _ .saf (by decide)).trans (frame_note _ _ _ _ .saf (by decide))

/-- The live commands of a device ended as of a unit that is demoted. -/
def Dev.demoted (s : Dev) : Dev :=
  ((s.hif.live.filter fun (l : Live) => !l.orphan).map (·.handle)).foldl (fun s h => s.done h stPairDemoted []) s

theorem frame_demoted (s : Dev) : Frame [.hif, .out] s s.demoted := Frame.foldl _ (fun s h => frame_done s h _ _) _ s

theorem Dev.mem_out_demoted {s : Dev} {o : Out} (h : o ∈ s.out) : o ∈ s.demoted.out := by
  unfold Dev.demoted
  generalize (s.hif.live.filter fun (l : Live) => !l.orphan).map (·.handle) = l
  induction l generalizing s with
  | nil => exact h
  | cons a l ih => exact ih (Dev.mem_out_done _ _ _ h)

/-- The unit that hands over, without its token: the standby to be. -/
def Dev.tokenless (s : Dev) : Dev :=
  { s with par := { s.par with role := .standby, hand := none, token := false, taking := none, bulkDone := false }
           nv := { s.nv with role := .standby }, mac := { s.mac with txq := [] }, saf := { s.saf with burst := none, resume := [] } }

/-- The unit that hands over, its last frame sent and its commands ended. -/
def Dev.handed (s : Dev) (b : NT) : Dev := ((s.tickTo (ntAdd b (-(msTicks 40 : Int)))).emit (.mirror s.par.seq)).demoted.tokenless

theorem exec_finalDelta (s : State) {b : NT} (h : s.par.hand = some b) :
    exec .finalDelta s = s.act fun _ => ((s.handed b).setRun .standby 1 0).setMirror .joining := by
  show execFinalDelta s = _
  refine State.act_congr ?_
  simp only [h]
  rfl

theorem Dev.mem_out_cqOffer {s : Dev} {o : Out} (r : Nat) (e : Entry) (h : o ∈ s.out) : o ∈ (s.cqOffer r e).1.out := by
  unfold Dev.cqOffer
  dsimp only
  split
  · exact h
  · split
    · exact Dev.mem_out_cqWrite r e h
    · split <;> exact h

theorem Dev.mem_out_event {s : Dev} {o : Out} (c : Nat) (b : List Byte) (h : o ∈ s.out) : o ∈ (s.event c b).out := by
  have hm := Dev.mem_out_cqOffer (s.evtCq c) (eventEntry s.nt c b) h
  unfold Dev.event
  generalize s.cqOffer (s.evtCq c) (eventEntry s.nt c b) = y at hm ⊢
  obtain ⟨t, l⟩ := y
  dsimp only at hm ⊢
  split <;> exact hm

theorem Dev.mem_out_setRun {s : Dev} {o : Out} (r : RunState) (w x : Nat) (h : o ∈ s.out) : o ∈ (s.setRun r w x).out := by
  unfold Dev.setRun
  split
  · exact h
  · have hn : ∀ (u : Dev) (c v : Nat) (b : List Byte), (u.note c v b).out = u.out := fun u c v b => frame_note u c v b .out (by decide)
    exact Dev.mem_out_event _ _ (by rw [hn]; exact h)

theorem Dev.mem_out_mirrorTold {s : Dev} {o : Out} (m : Mirror) (h : o ∈ s.out) : o ∈ (s.mirrorTold m).out := by
  obtain ⟨-, -, -, hf⟩ := s.mirrorMoved_spec m
  refine Dev.mem_out_event _ _ ?_
  rw [show (s.mirrorMoved m).out = s.out from hf .out (by decide)]
  exact h

theorem Dev.handed_spec (s : Dev) (b : NT) :
    (s.handed b).par = { s.par with role := .standby, hand := none, token := false, taking := none, bulkDone := false } ∧
      (s.handed b).nv.role = .standby ∧ (s.handed b).mac.txq = [] ∧ (s.handed b).saf = { s.saf with burst := none, resume := [] } ∧
      .mirror s.par.seq ∈ (s.handed b).out ∧ (s.handed b).clk = s.clk.run (s.clk.cyclesTo (ntAdd b (-(msTicks 40 : Int)))) := by
  have hmem : .mirror s.par.seq ∈ ((s.tickTo (ntAdd b (-(msTicks 40 : Int)))).emit (.mirror s.par.seq)).out := List.mem_append_right _ (List.mem_singleton.2 rfl)
  have hf := (frame_tickTo s (ntAdd b (-(msTicks 40 : Int)))).trans ((frame_emit _ (.mirror s.par.seq)).mono (by decide))
  have hclk : ((s.tickTo (ntAdd b (-(msTicks 40 : Int)))).emit (.mirror s.par.seq)).clk = _ := s.tickTo_clk (ntAdd b (-(msTicks 40 : Int)))
  unfold Dev.handed
  generalize (s.tickTo (ntAdd b (-(msTicks 40 : Int)))).emit (.mirror s.par.seq) = u at hmem hf hclk ⊢
  have hd := frame_demoted u
  have hout := Dev.mem_out_demoted hmem
  generalize u.demoted = v at hd hout ⊢
  have hpar : v.par = s.par := (hd .par (by decide)).trans (hf .par (by decide))
  have hsaf : v.saf = s.saf := (hd .saf (by decide)).trans (hf .saf (by decide))
  refine ⟨?_, rfl, rfl, ?_, hout, (hd .clk (by decide)).trans hclk⟩
  · rw [← hpar]
    rfl
  · rw [← hsaf]
    rfl

theorem CompletesThen.finalDelta {s : State} {b : NT} (hb : s.par.hand = some b) (hrun : s.saf.run ≠ .standby) :
    CompletesThen .finalDelta s fun d => d.saf.run = .standby ∧ d.par.role = .standby ∧ d.nv.role = .standby ∧ d.par.token = false ∧
      d.par.taking = none ∧ d.par.hand = none ∧ d.par.mirror = .joining ∧ d.mac.txq = [] ∧ d.saf.burst = none ∧ d.saf.resume = [] ∧
      .mirror s.par.seq ∈ d.out ∧ d.clk = s.clk.run (s.clk.cyclesTo (ntAdd b (-(msTicks 40 : Int)))) := by
  obtain ⟨hpar, hnv, hmac, hsaf, hout, hclk⟩ := s.handed_spec b
  have he := exec_finalDelta s hb
  generalize s.handed b = u at hpar hnv hmac hsaf hout hclk he
  have hf := frame_setRun u .standby 1 0
  have hs := Dev.saf_setRun_ne (s := u) (r := .standby) (by rw [hsaf]; exact hrun) (by decide) 1 0
  have hout' := Dev.mem_out_setRun .standby 1 0 hout
  generalize u.setRun .standby 1 0 = v at hf hs hout' he
  have hpar' : v.par = _ := (hf .par (by decide)).trans hpar
  have hall : (v.setMirror .joining).par = { v.par with mirror := .joining, bulk := (v.setMirror .joining).par.bulk } ∧
      .mirror s.par.seq ∈ (v.setMirror .joining).out ∧ Frame [.par, .gov, .hif, .out, .todo] v (v.setMirror .joining) := by
    by_cases hj : v.par.mirror = .joining
    · have hself : v.setMirror .joining = v := by
        unfold Dev.setMirror
        rw [if_pos hj]
      rw [hself]
      exact ⟨by rw [← hj], hout', .refl _ v⟩
    · rw [Dev.setMirror_joining hj]
      obtain ⟨hp, -, -, hfm⟩ := v.mirrorTold_spec .joining
      refine ⟨?_, Dev.mem_out_mirrorTold _ hout', hfm⟩
      rw [hp]
  obtain ⟨hp, ho, hfm⟩ := hall
  refine .of_effect he ?_
  rw [hp, hpar', show (v.setMirror .joining).saf = v.saf from hfm .saf (by decide), hs, hsaf,
    show (v.setMirror .joining).nv = u.nv from (hfm .nv (by decide)).trans (hf .nv (by decide)),
    show (v.setMirror .joining).mac = u.mac from (hfm .mac (by decide)).trans (hf .mac (by decide)),
    show (v.setMirror .joining).clk = u.clk from (hfm .clk (by decide)).trans (hf .clk (by decide))]
  exact ⟨rfl, rfl, hnv, rfl, rfl, rfl, rfl, hmac, rfl, rfl, ho, hclk⟩

theorem Dev.endJoin_none {s : Dev} (h : s.par.join = none) (code : Nat) : s.endJoin code = s := by
  unfold Dev.endJoin
  rw [h]

theorem Dev.endJoin_some {s : Dev} {h u : Nat} (hj : s.par.join = some (h, u)) (code : Nat) :
    s.endJoin code = ({ s with par := { s.par with join := none } } : Dev).done h code [] := by
  unfold Dev.endJoin
  rw [hj]

/-- A link that comes up between partners that agree (R501, R504). -/
theorem CompletesThen.pairLinkUp_good {s : State} {dt mib : Nat} {p : PartnerFacts} {P : Dev → Prop} (hrole : s.par.role ≠ .none)
    (hm : s.par.mirror = .alone ∨ s.par.mirror = .outOfSync) (hbad : (s.meet p).partnerBad = none)
    (hP : ∀ d : Dev, d.par = { s.par with
        partner := p, tokenIn := p.token, aliveIn := p.alive, linkUp := true, mib := mib, bulkDone := false, mirror := .joining } →
      (s.Room (s.evtCq 0x1501) → d.Told (s.evtCq 0x1501) 0x1501 (leBytes s.par.mirror.code 1 ++ leBytes Mirror.joining.code 1)) →
      d.gov = s.gov → Frame [.clk, .out, .par, .hif, .todo] s.toDev d →
      P (if s.par.role = .active then d.askBulk else d)) : CompletesThen (.pairLinkUp dt p mib) s P := by
  have hne : s.par.mirror ≠ .joining := by obtain h | h := hm <;> rw [h] <;> decide
  have hstart := Dev.startMirror_good (s := s.linkMet dt p mib) hrole rfl hm hbad
  have hf : Frame [.clk, .out, .par] s.toDev (s.linkMet dt p mib).unbulked := (frame_linkMet s.toDev dt p mib).trans ((frame_withPar _ _).mono (by decide))
  have hpar : (s.linkMet dt p mib).unbulked.par = { s.par with
      partner := p, tokenIn := p.token, aliveIn := p.alive, linkUp := true, mib := mib, bulkDone := false } := rfl
  have he := (exec_pairLinkUp s dt p mib).trans (State.act_congr (g := fun _ => _) hstart)
  generalize (s.linkMet dt p mib).unbulked = u at hf hpar he
  obtain ⟨hp, -, hgov, hfm⟩ := u.mirrorTold_spec .joining
  have htold := Dev.mirrorTold_told (s := s.toDev) (u := u) .joining hf (by decide) (by decide)
  have hmir : u.par.mirror = s.par.mirror := by rw [hpar]
  have hg : (u.mirrorTold .joining).gov = s.gov := (hgov (by rw [hmir]; exact hne)).trans (hf .gov (by decide))
  have hall : Frame [.clk, .out, .par, .hif, .todo] s.toDev (u.mirrorTold .joining) := by
    intro x hx
    by_cases hgx : x = .gov
    · subst hgx
      exact hg
    · exact (hf.append hfm) x (by revert hx hgx; cases x <;> decide)
  rw [hmir] at htold
  rw [hmir, if_neg hne, hpar] at hp
  have hrole' : (u.mirrorTold .joining).par.role = s.par.role := by rw [hp]
  refine .of_effect he ?_
  rw [hrole']
  exact hP _ hp htold hg hall

/-! Joining (R504) -/

/-- The role that a join asks for. -/
def joinRole (l : Live) : Role := if l.p 0 1 = 1 then .active else .standby

/-- Does the state of the unit allow the role? -/
def Dev.mayJoin (s : Dev) (want : Role) : Bool :=
  let leased := s.txu.leases.any fun p => p.2.st = .admitting || p.2.st = .active || p.2.st = .suspect || p.2.st = .dead
  if want = Role.active then s.saf.run = .run || s.saf.run = .fleetStop else s.saf.run = .fleetStop && !leased

/-- The role taken, and the join that waits for the mirror. -/
def Dev.roleTaken (s : Dev) (h : Nat) (want : Role) : Dev :=
  { (s.endJoin stPairRole).setRole want with
    par := { ((s.endJoin stPairRole).setRole want).par with join := some (h, (s.endJoin stPairRole).up), mirror := .alone } }

/-- A standby without its token. -/
def Dev.standingBy (s : Dev) : Dev := ({ s with par := { s.par with token := false, taking := none } } : Dev).setRun .standby 1 0

theorem exec_pairJoin {s : State} {h : Nat} {l : Live} (hr : s.Runs h 0xC0 l) :
    exec (.pairJoin h) s = s.act fun _ =>
      if s.par.role = joinRole l then (s.begin.markStarted h).done h stOK []
      else if !s.mayJoin (joinRole l) then (s.begin.markStarted h).done h stPairRole []
      else (if joinRole l = Role.standby then ((s.begin.markStarted h).roleTaken h (joinRole l)).standingBy
        else (s.begin.markStarted h).roleTaken h (joinRole l)).startMirror :=
  State.command_act rfl hr rfl

theorem Completes.pairJoin_role {s : State} {h : Nat} {l : Live} (hs : s.Settled) (hr : s.Runs h 0xC0 l) (hp : l.p 0 1 ≠ 1)
    (hrole : s.par.role = .none ∨ s.par.role = .active) (hrun : s.saf.run ≠ .fleetStop) :
    Completes (.pairJoin h) s fun t => t.Answered l 0x0D04 [] ∧ Frame [.out, .hif] s.toDev t := by
  have hwant : joinRole l = .standby := if_neg hp
  have hmay : s.mayJoin (joinRole l) = false := by simp [Dev.mayJoin, hwant, hrun]
  have he : exec (.pairJoin h) s = s.act fun _ => (s.begin.markStarted h).done h stPairRole [] := by
    rw [exec_pairJoin hr, if_neg (by rw [hwant]; obtain h | h := hrole <;> rw [h] <;> decide), if_pos (by rw [hmay]; rfl)]
  have hf : Frame [.out, .hif] s.toDev ((s.begin.markStarted h).done h stPairRole []) :=
    (frame_begin_markStarted _ h).trans ((frame_done _ h _ _).mono (by decide))
  exact .of_effect hs hf he (by decide) (by decide) ⟨Dev.run_done _ _ hr, hf⟩

theorem Dev.roleTaken_spec {s : Dev} (h : Nat) (want : Role) (hj : s.par.join = none) :
    (s.roleTaken h want).par = { s.par with role := want, join := some (h, s.up), mirror := .alone } ∧
      (s.roleTaken h want).nv = { s.nv with role := want } ∧ Frame [.par, .nv] s (s.roleTaken h want) := by
  unfold Dev.roleTaken
  rw [Dev.endJoin_none hj]
  exact ⟨rfl, rfl, frame_withParNv s _ _⟩

theorem Completes.pairJoin_active {s : State} {h : Nat} {l : Live} (hs : s.Settled) (hr : s.Runs h 0xC0 l) (hp : l.p 0 1 = 1)
    (hrole : s.par.role = .none) (hrun : s.saf.run = .run ∨ s.saf.run = .fleetStop) (hup : s.par.linkUp = false) (hj : s.par.join = none) :
    Completes (.pairJoin h) s fun t => t.Begun l ∧ t.par = { s.par with role := .active, join := some (h, s.up), mirror := .alone } ∧
      t.nv = { s.nv with role := .active } ∧ Frame [.out, .hif, .par, .nv] s.toDev t := by
  have hwant : joinRole l = .active := if_pos hp
  have hmay : s.mayJoin .active = true := by obtain h | h := hrun <;> simp [Dev.mayJoin, h]
  obtain ⟨hpar, hnv, hf⟩ := Dev.roleTaken_spec (s := s.begin.markStarted h) h .active hj
  have he : exec (.pairJoin h) s = s.act fun _ => (s.begin.markStarted h).roleTaken h .active := by
    rw [exec_pairJoin hr, hwant, if_neg (by rw [hrole]; decide), if_neg (by rw [hmay]; decide), if_neg (by decide),
      Dev.startMirror_idle (.inr (by rw [hpar]; exact hup))]
  have hall := (frame_begin_markStarted s.toDev h).append hf
  have hlive := Dev.Runs.begun hr
  unfold Dev.Begun Dev.live? at hlive
  refine .of_effect hs hall he (by decide) (by decide) ⟨?_, hpar, hnv, hall.mono (by decide)⟩
  rwa [Dev.Begun, Dev.live?, hf .hif (by decide)]

theorem Dev.live_setRun (s : Dev) (r : RunState) (w x : Nat) : (s.setRun r w x).hif.live = s.hif.live := by
  have hn : ∀ (u : Dev) (c v : Nat) (b : List Byte), (u.note c v b).hif = u.hif := fun u c v b => frame_note u c v b .hif (by decide)
  unfold Dev.setRun
  split
  · rfl
  · rw [Dev.live_event, hn]

theorem CompletesThen.pairJoin_standby {s : State} {h : Nat} {l : Live} (hr : s.Runs h 0xC0 l) (hp : l.p 0 1 ≠ 1)
    (hrole : s.par.role = .none) (hrun : s.saf.run = .fleetStop) (hleases : s.txu.leases = []) (hup : s.par.linkUp = false) (hj : s.par.join = none) :
    CompletesThen (.pairJoin h) s fun d => d.Begun l ∧ d.par = { s.par with
        role := .standby, join := some (h, s.up), mirror := .alone, token := false, taking := none } ∧
      d.nv = { s.nv with role := .standby } ∧ d.saf.run = .standby ∧ Frame [.out, .hif, .par, .nv, .saf, .dry, .regs, .todo] s.toDev d := by
  have hwant : joinRole l = .standby := if_neg hp
  have hmay : s.mayJoin .standby = true := by simp [Dev.mayJoin, hrun, hleases]
  obtain ⟨hpar, hnv, hf⟩ := Dev.roleTaken_spec (s := s.begin.markStarted h) h .standby hj
  have hall := (frame_begin_markStarted s.toDev h).append hf
  have hlive := Dev.Runs.begun hr
  unfold Dev.Begun Dev.live? at hlive
  generalize hu : ({ (s.begin.markStarted h).roleTaken h .standby with
    par := { ((s.begin.markStarted h).roleTaken h .standby).par with token := false, taking := none } } : Dev) = u
  have hfu : Frame [.par, .nv] (s.begin.markStarted h) u := hu ▸ (hf.trans ((frame_withPar _ _).mono (by decide)))
  have hupar : u.par = { s.par with role := .standby, join := some (h, s.up), mirror := .alone, token := false, taking := none } := by
    rw [← hu, hpar]
    rfl
  have hunv : u.nv = { s.nv with role := .standby } := hu ▸ hnv
  have hst : ((s.begin.markStarted h).roleTaken h .standby).standingBy = u.setRun .standby 1 0 := hu ▸ rfl
  have hfs := frame_setRun u .standby 1 0
  have hspar : (u.setRun .standby 1 0).par = u.par := hfs .par (by decide)
  have he : exec (.pairJoin h) s = s.act fun _ => u.setRun .standby 1 0 := by
    rw [exec_pairJoin hr, hwant, if_neg (by rw [hrole]; decide), if_neg (by rw [hmay]; decide), if_pos rfl, hst,
      Dev.startMirror_idle (.inr (by rw [hspar, hupar]; exact hup))]
  have husaf : u.saf = s.saf := hfu .saf (by decide)
  refine .of_effect he ⟨?_, hspar.trans hupar, (hfs .nv (by decide)).trans hunv, ?_,
    ((frame_begin_markStarted s.toDev h).append (hfu.append hfs)).mono (by decide)⟩
  · rwa [Dev.Begun, Dev.live?, Dev.live_setRun, hfu .hif (by decide)]
  · rw [Dev.saf_setRun_ne (by rw [husaf, hrun]; decide) (by decide)]

/-! Taking over on request (R508) -/

/-- A takeover decided. -/
def Dev.decided (s : Dev) (mode h : Nat) (toRun : Bool) : Dev :=
  { s with par := { s.par with take := some { mode, handle := some h, decided := s.nt, toRun } } }

theorem exec_pairTakeover {s : State} {h : Nat} {l : Live} (hr : s.Runs h 0xC1 l) :
    exec (.pairTakeover h) s = s.act fun _ =>
      let v := s.begin.markStarted h
      if s.saf.run != .standby then v.done h stPairRole []
      else if s.par.take.isSome then v.refuse h stBusy none
      else if l.p 0 1 = 1 then if s.par.mirror != .sync || !s.timeReady then v.done h stPairNotReady [] else v.decided (l.p 0 1) h true
      else if s.par.tokenIn then v.done h stPairToken []
      else v.decided (l.p 0 1) h false :=
  State.command_act rfl hr rfl

/-- What a takeover on request can do: answer at once with a status, or decide. -/
theorem Completes.pairTakeover_done {s : State} {h code : Nat} {l : Live} (hs : s.Settled) (hr : s.Runs h 0xC1 l)
    (he : exec (.pairTakeover h) s = s.act fun _ => (s.begin.markStarted h).done h code []) :
    Completes (.pairTakeover h) s fun t => t.Answered l code [] ∧ Frame [.out, .hif] s.toDev t :=
  have hf : Frame [.out, .hif] s.toDev ((s.begin.markStarted h).done h code []) :=
    (frame_begin_markStarted _ h).trans ((frame_done _ h _ _).mono (by decide))
  .of_effect hs hf he (by decide) (by decide) ⟨Dev.run_done _ _ hr, hf⟩

theorem Completes.pairTakeover_decided {s : State} {h mode : Nat} {b : Bool} {l : Live} (hs : s.Settled) (hr : s.Runs h 0xC1 l)
    (he : exec (.pairTakeover h) s = s.act fun _ => (s.begin.markStarted h).decided mode h b) :
    Completes (.pairTakeover h) s fun t => t.Begun l ∧ t.par = { s.par with
      take := some { mode, handle := some h, decided := s.nt, toRun := b } } ∧ Frame [.out, .hif, .par] s.toDev t :=
  have hf : Frame [.out, .hif, .par] s.toDev ((s.begin.markStarted h).decided mode h b) :=
    (frame_begin_markStarted _ h).append (frame_withPar _ _)
  .of_effect hs hf he (by decide) (by decide) ⟨hr.begun, rfl, hf⟩

theorem Completes.imp {c : Instr} {s : State} {P Q : Dev → Prop} (h : Completes c s P) (hpq : ∀ t, P t → Q t) : Completes c s Q := by
  obtain ⟨t, he, hp, ht⟩ := h
  exact ⟨t, he, hp, hpq _ ht⟩

theorem Completes.pairTakeover_refused {s : State} {h : Nat} {l : Live} (hs : s.Settled) (hr : s.Runs h 0xC1 l)
    (hst : s.saf.run ≠ .standby ∨ s.par.take = none) :
    Completes (.pairTakeover h) s fun t => (s.saf.run ≠ .standby → t.Answered l 0x0D04 [] ∧ Frame [.out, .hif] s.toDev t) ∧
      (s.saf.run = .standby → l.p 0 1 = 1 → s.par.mirror ≠ .sync → t.Answered l 0x0D01 [] ∧ Frame [.out, .hif] s.toDev t) ∧
      (s.saf.run = .standby → l.p 0 1 ≠ 1 → s.par.tokenIn = true → t.Answered l 0x0D02 [] ∧ Frame [.out, .hif] s.toDev t) := by
  have he := exec_pairTakeover hr
  by_cases hrun : s.saf.run = .standby
  · have htake : s.par.take = none := hst.resolve_left fun h => h hrun
    dsimp only at he
    rw [if_neg (by simp [hrun]), if_neg (by simp [htake])] at he
    by_cases hmode : l.p 0 1 = 1
    · rw [if_pos hmode] at he
      by_cases hready : (s.par.mirror != .sync || !s.timeReady) = true
      · rw [if_pos hready] at he
        exact (Completes.pairTakeover_done hs hr he).imp fun t ht => ⟨fun h => absurd hrun h, fun _ _ _ => ht, fun _ h => absurd hmode h⟩
      · rw [if_neg hready] at he
        refine (Completes.pairTakeover_decided hs hr he).imp fun t _ => ⟨fun h => absurd hrun h, fun _ _ h => ?_, fun _ h => absurd hmode h⟩
        exact absurd (by simp [h]) hready
    · rw [if_neg hmode] at he
      by_cases htoken : s.par.tokenIn = true
      · rw [if_pos htoken] at he
        exact (Completes.pairTakeover_done hs hr he).imp fun t ht => ⟨fun h => absurd hrun h, fun _ h => absurd h hmode, fun _ _ _ => ht⟩
      · rw [if_neg htoken] at he
        exact (Completes.pairTakeover_decided hs hr he).imp fun t _ =>
          ⟨fun h => absurd hrun h, fun _ h => absurd h hmode, fun _ _ h => absurd h htoken⟩
  · dsimp only at he
    rw [if_pos (by simp [hrun])] at he
    exact (Completes.pairTakeover_done hs hr he).imp fun t ht => ⟨fun _ => ht, fun h => absurd h hrun, fun h => absurd h hrun⟩

theorem Completes.pairTakeover_taken {s : State} {h : Nat} {l : Live} (hs : s.Settled) (hr : s.Runs h 0xC1 l) (hrun : s.saf.run = .standby)
    (htake : s.par.take = none) (hmode : (l.p 0 1 = 1 ∧ s.par.mirror = .sync ∧ s.timeReady = true) ∨ (l.p 0 1 ≠ 1 ∧ s.par.tokenIn = false)) :
    Completes (.pairTakeover h) s fun t => t.Begun l ∧ t.par = { s.par with
      take := some { mode := l.p 0 1, handle := some h, decided := s.nt, toRun := decide (l.p 0 1 = 1) } } ∧ Frame [.out, .hif, .par] s.toDev t := by
  have he := exec_pairTakeover hr
  dsimp only at he
  rw [if_neg (by simp [hrun]), if_neg (by simp [htake])] at he
  obtain ⟨hmode, hsync, hready⟩ | ⟨hmode, htoken⟩ := hmode
  · rw [if_pos hmode, if_neg (by simp [hsync, hready])] at he
    rw [decide_eq_true hmode]
    exact .pairTakeover_decided hs hr he
  · rw [if_neg hmode, if_neg (by simp [htoken])] at he
    rw [decide_eq_false hmode]
    exact .pairTakeover_decided hs hr he

/-! The mirror's own commands -/

theorem Completes.pairLinkUp_bad {s : State} {dt mib h u code : Nat} {p : PartnerFacts} {l : Live} (hs : s.Settled) (hrole : s.par.role ≠ .none)
    (hm : s.par.mirror = .alone) (hbad : (s.meet p).partnerBad = some code) (hj : s.par.join = some (h, u)) (hw : s.Waits h l) :
    Completes (.pairLinkUp dt p mib) s fun t => t.Answered l code [] ∧ t.par.mirror = .alone ∧ t.par.join = none ∧ t.par.linkUp = true ∧
      Frame [.clk, .out, .par, .hif] s.toDev t := by
  have he : exec (.pairLinkUp dt p mib) s = s.act fun _ => ({ s.linkMet dt p mib with par := { (s.linkMet dt p mib).par with join := none } } : Dev).done h code [] := by
    rw [exec_pairLinkUp, Dev.startMirror_bad (s := s.linkMet dt p mib) hrole rfl (.inl hm) hbad, Dev.endJoin_some (s := s.linkMet dt p mib) hj]
  have hf := (frame_linkMet s.toDev dt p mib).trans ((frame_withPar _ { (s.linkMet dt p mib).par with join := none }).mono (by decide))
  have hw' := hw.of_frame hf (by decide) rfl
  have hm' : (s.linkMet dt p mib).par.mirror = .alone := hm
  have hup : (s.linkMet dt p mib).par.linkUp = true := rfl
  generalize s.linkMet dt p mib = v at he hf hw' hm' hup
  have hd := frame_done ({ v with par := { v.par with join := none } } : Dev) h code []
  have hpar : (({ v with par := { v.par with join := none } } : Dev).done h code []).par = _ := hd .par (by decide)
  refine .of_effect hs (hf.append hd) he (by decide) (by decide) ⟨hw'.done code [], ?_, ?_, ?_, (hf.append hd).mono (by decide)⟩
  · rw [hpar]
    exact hm'
  · rw [hpar]
  · rw [hpar]
    exact hup

theorem CompletesThen.mirrorFrame_lost {s : State} (dt lag : Nat) (p : PartnerFacts) (d : MirrorDelta) (hm : s.par.mirror = .joining ∨ s.par.mirror = .sync) :
    CompletesThen (.mirrorFrame dt false p lag d) s fun x => x.par.mirror = .outOfSync ∧ .fault 0x3A false ∈ x.todo ∧
      x.fld (0x1501C, 16, 16) = satInc 16 (s.fld (0x1501C, 16, 16)) ∧ RegsBut [0x1501C] s.toDev x ∧
      (s.par.mirror = .joining → x.par.bulk = 0 ∧ x.hasLeave .bulkCopy = false) ∧ (s.par.mirror = .sync → x.gov = s.gov) ∧
      Frame [.clk, .out, .par, .hif, .gov, .regs, .todo] s.toDev x := by
  have he := exec_mirrorFrame_lost s dt lag p d hm
  have hregs : RegsBut [0x1501C] s.toDev (s.mirrorLost dt p) := RegsBut.cntSat ((s.tick dt).meet p) (0x1501C, 16, 16)
  have hfld : (s.mirrorLost dt p).fld (0x1501C, 16, 16) = satInc 16 (s.fld (0x1501C, 16, 16)) :=
    Dev.fld_cntSat ((s.tick dt).meet p) (0x1501C, 16, 16) (by decide)
  have hf : Frame ([.clk, .out] ++ ([.par] ++ [.regs])) s.toDev (s.mirrorLost dt p) :=
    (frame_tick s.toDev dt).append ((frame_withPar _ _).append (frame_cntSat ((s.tick dt).meet p) (0x1501C, 16, 16)))
  have hmir : (s.mirrorLost dt p).par.mirror = s.par.mirror := rfl
  generalize s.mirrorLost dt p = v at he hregs hfld hf hmir
  obtain ⟨hpar, hleave, hgov, hfm⟩ := v.mirrorTold_spec .outOfSync
  generalize v.mirrorTold .outOfSync = w at he hpar hleave hgov hfm
  have hg : w.gov = (w.raise 0x3A).gov := rfl
  refine .of_effect he ⟨?_, List.mem_append_right _ (List.mem_singleton.2 rfl), (Dev.fld_of_frame hfm (by decide) _).trans hfld,
    hregs.trans (RegsBut.of_frame (t := w) hfm (by decide)), fun h => ⟨?_, hleave (hmir.trans h)⟩, fun h => ?_,
    (hf.append (hfm.append (frame_raise w 0x3A))).mono (by decide)⟩
  · exact (congrArg Par.mirror hpar :)
  · exact (congrArg Par.bulk hpar :).trans (if_pos (hmir.trans h))
  · exact (hgov (by rw [hmir, h]; decide)).trans (hf .gov (by decide))

theorem CompletesThen.mirrorFrame_syncs {s : State} {dt lag h u : Nat} {p : PartnerFacts} {d : MirrorDelta} {l : Live} (hm : s.par.mirror = .joining)
    (hbulk : s.par.bulkDone = true) (hrole : s.par.role = .active) (hj : s.par.join = some (h, u)) (hw : s.Waits h l) :
    CompletesThen (.mirrorFrame dt true p lag d) s fun x => x.par.mirror = .sync ∧ x.par.join = none ∧ x.live? h = none ∧ x.par.lag = sat 16 lag ∧
      x.par.seq = s.par.seq + 1 ∧ x.fld (0x1501C, 0, 16) = wrapInc 16 (s.fld (0x1501C, 0, 16)) ∧ RegsBut [0x1501C] s.toDev x ∧
      Frame [.clk, .out, .par, .hif, .gov, .regs, .todo] s.toDev x := by
  have hf := frame_mirrorHeard s.toDev dt p lag
  obtain ⟨hregs, hfld⟩ := s.toDev.mirrorHeard_regs dt p lag
  have hpar : (s.mirrorHeard dt p lag).par = { s.par with
    partner := p, tokenIn := p.token, aliveIn := p.alive, lag := sat 16 lag, seq := s.par.seq + 1 } := rfl
  have hlive : (s.mirrorHeard dt p lag).live? h = some l := hw.1
  have hhold : ((s.mirrorHeard dt p lag).cq l.cq).hold = [] := hw.2.2.2.1
  have he := exec_mirrorFrame_heard s dt lag p d (.inl hm) (if_neg (by rw [hrole]; decide))
  generalize s.mirrorHeard dt p lag = v at he hf hregs hfld hpar hlive hhold
  have hvm : v.par.mirror = .joining := by rw [hpar]; exact hm
  have hvb : v.par.bulkDone = true := by rw [hpar]; exact hbulk
  obtain ⟨hp, -, -, hfm⟩ := v.mirrorTold_spec .sync
  obtain ⟨-, -, -, hmoved⟩ := v.mirrorMoved_spec .sync
  have hwj : (v.mirrorTold .sync).par.join = some (h, u) := by rw [hp, hpar]; exact hj
  have hwl : (v.mirrorTold .sync).live? h = some l := by
    have : (v.mirrorTold .sync).hif.live = v.hif.live := (Dev.live_event _ _ _).trans (congrArg Hif.live (hmoved .hif (by decide)))
    rwa [Dev.live?, this]
  have hwh : ∀ x ∈ ((v.mirrorTold .sync).cq l.cq).hold, x.kind ≠ .progress := fun x hx => by
    obtain hx | hx := Dev.mem_hold_event hx
    · have : ((v.mirrorMoved .sync).cq l.cq).hold = [] := by rwa [Dev.cq, hmoved .hif (by decide)]
      rw [this] at hx
      cases hx
    · rw [hx]
      nofun
  rw [if_pos (by simp [hvm, hvb]), Dev.setMirror_sync (by rw [hvm]; decide), Dev.endJoin_some hwj] at he
  generalize v.mirrorTold .sync = w at he hp hfm hwl hwh
  have hfj := frame_withPar w { w.par with join := none }
  have hd := frame_done ({ w with par := { w.par with join := none } } : Dev) h stOK []
  have hend : (({ w with par := { w.par with join := none } } : Dev).done h stOK []).live? h = none := Dev.live?_done hwl hwh
  have hxp : (({ w with par := { w.par with join := none } } : Dev).done h stOK []).par = { w.par with join := none } := hd .par (by decide)
  have hwreg := hfm.append (hfj.append hd)
  generalize ({ w with par := { w.par with join := none } } : Dev).done h stOK [] = x at he hend hxp hwreg
  rw [hp, hpar] at hxp
  refine .of_effect he ?_
  rw [hxp]
  exact ⟨rfl, rfl, hend, rfl, rfl, (Dev.fld_of_frame hwreg (by decide) _).trans hfld, hregs.trans (.of_frame hwreg (by decide)),
    (hf.append hwreg).mono (by decide)⟩

theorem CompletesThen.mirrorFrame_applies {s : State} {dt lag v i n : Nat} {p : PartnerFacts} {d : MirrorDelta} {g : Option Graph} {x : Lease}
    (hm : s.par.mirror = .sync) (hrole : s.par.role = .standby) (hregs : d.regs = []) (hgraph : d.graph = some (v, g)) (hleases : d.leases = [(i, x)])
    (hresv : d.resv = none) (hfcnt : d.fcnt = some n) :
    CompletesThen (.mirrorFrame dt true p lag d) s fun t => t.trl.graph = g ∧ t.trl.ver = v ∧ t.lease i = { x with handle := none } ∧
      (∀ j, j ≠ i → t.lease j = s.lease j) ∧ t.mac.fcnt = n ∧ t.nv.fcnt = some n ∧ t.par.mirror = .sync ∧ t.par.seq = s.par.seq + 1 := by
  have hf := frame_mirrorHeard s.toDev dt p lag
  have hpar : (s.mirrorHeard dt p lag).par = { s.par with
    partner := p, tokenIn := p.token, aliveIn := p.alive, lag := sat 16 lag, seq := s.par.seq + 1 } := rfl
  obtain ⟨h1, h2, h3, h4, h5, h6, h7⟩ := (s.mirrorHeard dt p lag).applyDelta_spec hregs hgraph hleases hresv hfcnt
  have he := exec_mirrorFrame_heard s dt lag p d (.inr hm) (if_pos hrole)
  generalize s.mirrorHeard dt p lag = w at he hf hpar h1 h2 h3 h4 h5 h6 h7
  generalize w.applyDelta d = t at he h1 h2 h3 h4 h5 h6 h7
  have hlease : ∀ j, w.lease j = s.lease j := fun j => by rw [Dev.lease, hf .txu (by decide), Dev.lease]
  have hmir : t.par.mirror = .sync := by rw [h7, hpar]; exact hm
  rw [if_neg (by simp [hmir])] at he
  exact .of_effect he ⟨h1, h2, h3, fun j hj => (h4 j hj).trans (hlease j), h5, h6, hmir, by rw [h7, hpar]⟩

theorem Completes.bulkCopyDone {s : State} (hs : s.Settled) (dt : Nat) (hm : s.par.mirror = .joining) (hb : s.par.role = .active → s.par.bulk = 2)
    (hj : s.par.join = none) :
    Completes (.bulkCopyDone dt) s fun t => t.par = { s.par with bulkDone := true, bulk := 0 } ∧ t.hasLeave .bulkCopy = false ∧
      Frame [.clk, .out, .par, .gov] s.toDev t := by
  have hf := ((frame_tick s.toDev dt).append (frame_withPar _ { s.par with bulkDone := true, bulk := 0 })).append (frame_returnLeave _ .bulkCopy)
  have hcond : ¬ ((s.tick dt).par.mirror != .joining || ((s.tick dt).par.role = .active && (s.tick dt).par.bulk ≠ 2)) = true := by
    show ¬ (s.par.mirror != .joining || (s.par.role = .active && s.par.bulk ≠ 2)) = true
    simpa [hm] using hb
  have he : exec (.bulkCopyDone dt) s = s.act fun _ =>
      ({ s.tick dt with par := { s.par with bulkDone := true, bulk := 0 } } : Dev).returnLeave .bulkCopy := by
    show execBulkCopyDone dt s = _
    refine State.act_congr ((if_neg hcond).trans ?_)
    dsimp only
    split
    · next h => exact absurd (h.symm.trans hj) (by simp)
    · rfl
  exact .of_effect hs hf he (by decide) (by decide) ⟨rfl, Dev.hasLeave_returnLeave _ _, hf.mono (by decide)⟩

theorem mirrorCode_bytes (m : Mirror) : leBytes m.code 1 ++ leBytes Mirror.joining.code 1 = [BitVec.ofNat 8 m.code, 1] := by
  cases m <;> rfl

/-- Settles O49: the mirror moves by `setMirror`, a join by `startMirror`, and a hand-over in one step. -/
theorem thePairJoinsMirrorsAndHandsOver : Obligations.ThePairJoinsMirrorsAndHandsOver := by
  refine ⟨fun s dt mib p hrole hm hbad => ?_, fun s dt mib p hrole hm hbad => ?_,
    fun s dt mib h u code p l hs hrole hm hbad hj hw => .pairLinkUp_bad hs hrole hm hbad hj hw,
    fun s dt hs hm hb hj => .bulkCopyDone hs dt hm hb hj,
    fun s dt lag p d h u l hm hbulk hrole hj hw => .mirrorFrame_syncs hm hbulk hrole hj hw,
    fun s dt lag v i n p d g x hm hrole hregs hgraph hleases hresv hfcnt => .mirrorFrame_applies hm hrole hregs hgraph hleases hresv hfcnt,
    fun s dt lag p d hm => .mirrorFrame_lost dt lag p d hm, fun s b hs hrole hrun hb => ?_, fun s b l hb _ _ hrun => .finalDelta hb hrun,
    fun s h l hs hr hp hrole hrun hup hj => .pairJoin_active hs hr hp hrole hrun hup hj,
    fun s h l hr hp hrole hrun hleases hup hj => .pairJoin_standby hr hp hrole hrun hleases hup hj,
    fun s h l hs hr hp hrole hrun => .pairJoin_role hs hr hp hrole hrun,
    fun s h l hs hr hrun htake hmode => .pairTakeover_taken hs hr hrun htake hmode,
    fun s h l hs hr hst => .pairTakeover_refused hs hr hst⟩
  · refine .pairLinkUp_good (by rw [hrole]; decide) hm hbad fun d hpar htold _ hf => ?_
    rw [if_neg (by rw [hrole]; decide)]
    rw [mirrorCode_bytes] at htold
    exact ⟨hpar, htold, hf⟩
  · refine .pairLinkUp_good (by rw [hrole]; decide) hm hbad fun d hpar _ hgov hf => ?_
    rw [if_pos hrole]
    have hb := (frame_withPar d { d.par with bulk := 1 }).append (frame_askLeave _ 6 1200 (msTicks (20 + 4 * d.par.mib)) (ntAdd d.nt ((10 * tickHz : Nat) : Int)) .bulkCopy)
    have hmib : d.par.mib = mib := by rw [hpar]
    refine ⟨(congrArg Par.mirror hpar :), (congrArg Par.linkUp hpar :), rfl, ?_, (hf.append hb).mono (by decide)⟩
    show d.gov.reqs ++ [_] = _
    rw [hgov, hmib]
    rfl
  · have hf := (frame_tickTo s.toDev (ntAdd b (-(msTicks 50 : Int)))).append (frame_withPar _ { s.par with hand := some b })
    have he : exec (.plannedHandoverStop b) s = s.act fun _ =>
        ({ s.tickTo (ntAdd b (-(msTicks 50 : Int))) with par := { s.par with hand := some b } } : Dev) :=
      show execPlannedHandoverStop b s = _ from State.act_congr (if_neg (by obtain h | h := hrun <;> simp [hrole, h, hb]))
    exact .of_effect hs hf he (by decide) (by decide) ⟨rfl, rfl, hf⟩

end Sys2Proof.Machine

/-! ### The stop path -/
namespace Sys2Proof.Machine

theorem frame_withFree (s : Dev) (n : Nat) : Frame [.free] s { s with free := n } := fun p hp => by cases p <;> simp at hp <;> rfl

/-! A pulse in between (R418) -/

/-- The device with one free value drawn. -/
def Dev.drawn (s : Dev) (dt : Nat) : Dev := { s.tick dt with free := s.free + 1 }

theorem exec_stopInFall_open (s : State) (dt lowPs : Nat) (chB : Bool) (hlo : 1000 ≤ lowPs) (hhi : lowPs < 2000)
    (hlatch : (if chB then s.saf.latchB else s.saf.latchA) = true) :
    exec (.stopInFall dt chB lowPs) s = s.act fun _ => if (Config.freeValue s.free).toNat % 2 ^ 1 = 0 then s.drawn dt
      else (s.drawn dt).inputLow chB := by
  have hdraw : (if lowPs < 2000 then (s.tick dt).draw 1 else (1, s.tick dt)) = ((Config.freeValue s.free).toNat % 2 ^ 1, s.drawn dt) := if_pos hhi
  show execStopInFall dt chB lowPs s = _
  refine State.act_congr ((if_neg (Nat.not_lt.2 hlo)).trans ?_)
  rw [hdraw]
  dsimp only
  split
  · rfl
  · exact if_pos hlatch

/-! The release of the latches (R422) -/

/-- The latches cleared and the levels of their sources ended. -/
def Dev.unlatched (s : Dev) (dt : Nat) : Dev :=
  (({ s.tick dt with saf := { s.saf with latchA := false, latchB := false, loneAt := none } } : Dev).fallLevel 0xB0).fallLevel 0xB1

theorem Dev.forced_fallLevel (s : Dev) (n m : Nat) : (s.fallLevel n).forced m = s.forced m := by
  have hpulse : (s.fallLevel n).flt.pulse = s.flt.pulse := by
    simp only [Dev.fallLevel]
    split
    · rfl
    · split <;> rfl
  rw [Dev.forced, hpulse, Dev.reg_of_frame (frame_fallLevel s n) (by decide), Dev.forced]

theorem Dev.unlatched_spec (s : Dev) (dt : Nat) :
    (s.unlatched dt).saf = { s.saf with latchA := false, latchB := false, loneAt := none } ∧
      (s.forced 0xB0 = false → ((s.unlatched dt).src 0xB0).level = false) ∧ (s.forced 0xB1 = false → ((s.unlatched dt).src 0xB1).level = false) ∧
      Frame [.clk, .out, .saf, .flt] s (s.unlatched dt) := by
  generalize hv : ({ s.tick dt with saf := { s.saf with latchA := false, latchB := false, loneAt := none } } : Dev) = v
  have hf : Frame [.clk, .out, .saf] s v := hv ▸ (frame_tick s dt).append (frame_withSaf _ _)
  have hsaf : v.saf = { s.saf with latchA := false, latchB := false, loneAt := none } := hv ▸ rfl
  have hforced : ∀ n, v.forced n = s.forced n := fun n => hv ▸ rfl
  have hu : s.unlatched dt = (v.fallLevel 0xB0).fallLevel 0xB1 := hv ▸ rfl
  have h0 := frame_fallLevel v 0xB0
  have h1 := frame_fallLevel (v.fallLevel 0xB0) 0xB1
  rw [hu]
  refine ⟨((h1 .saf (by decide)).trans (h0 .saf (by decide))).trans hsaf, fun h => ?_, fun h => ?_, (hf.append (h0.trans h1)).mono (by decide)⟩
  · rw [Dev.src_fallLevel_ne _ (by decide)]
    exact Dev.level_fallLevel ((hforced _).trans h)
  · exact Dev.level_fallLevel ((v.forced_fallLevel _ _).trans ((hforced _).trans h))

theorem Completes.safStopClr {s : State} (hs : s.Settled) (dt : Nat) {v : Reg} (hkey : v.toNat = 0xC1EA) (hclean : s.saf.clean = true)
    (hsrc : (s.src 0xB2).st ≠ .active) (hlatch : s.saf.latchA = true ∨ s.saf.latchB = true) (hroom : s.Room (s.evtCq 0x1103)) :
    Completes (.safStopClr dt v) s fun t => t.saf = { s.saf with latchA := false, latchB := false, loneAt := none } ∧
      (s.forced 0xB0 = false → (t.src 0xB0).level = false) ∧ (s.forced 0xB1 = false → (t.src 0xB1).level = false) ∧
      t.Told (s.evtCq 0x1103) 0x1103 [] ∧ Frame [.clk, .out, .hif, .saf, .flt, .dry, .regs] s.toDev t := by
  have hcond : (v.toNat = 0xC1EA && (s.tick dt).saf.clean && ((s.tick dt).src 0xB2).st != .active) = true := by
    show (v.toNat = 0xC1EA && s.saf.clean && (s.src 0xB2).st != .active) = true
    simp [hkey, hclean, hsrc]
  have hwas : (s.saf.latchA || s.saf.latchB) = true := by simpa using hlatch
  have he : exec (.safStopClr dt v) s = s.act fun _ => ((s.unlatched dt).note 0x0C2 0 []).event 0x1103 [] :=
    show execSafStopClr dt v s = _ from State.act_congr ((if_pos hcond).trans (if_pos hwas))
  obtain ⟨hsaf, h0, h1, hf⟩ := s.unlatched_spec dt
  generalize s.unlatched dt = u at he hsaf h0 h1 hf
  have hn := frame_note u 0x0C2 0 []
  have hnoted := u.noted_note 0x0C2 0 []
  generalize u.note 0x0C2 0 [] = w at he hn hnoted
  obtain ⟨htold, he'⟩ := Dev.told_event (u := w) [] hroom (by decide) ((hn .hif (by decide)).trans (hf .hif (by decide))) fun o _ ho =>
    (hnoted.2 o (by simp; omega)).trans (Dev.reg_of_frame hf (by decide) o)
  have hflt : (w.event 0x1103 []).flt = u.flt := (he' .flt (by decide)).trans (hn .flt (by decide))
  have hall := hf.append (hn.append he')
  have hreq : (w.event 0x1103 []).dry.freezeReq = none :=
    (congrArg Dry.freezeReq (he' .dry (by decide))).trans (hnoted.freezeReq.trans ((congrArg Dry.freezeReq (hf .dry (by decide))).trans hs.2))
  refine .of_settled he ⟨(hall .todo (by decide)).trans hs.1, hreq⟩
    ⟨((he' .saf (by decide)).trans (hn .saf (by decide))).trans hsaf, fun h => ?_, fun h => ?_, htold, hall.mono (by decide)⟩
  · rw [Dev.src_of_flt hflt]
    exact h0 h
  · rw [Dev.src_of_flt hflt]
    exact h1 h

/-! The dark pulses (R423) -/

/-- A dark pulse whose output is low: the test goes on. -/
def Dev.darkened (s : Dev) (ok : Bool) : Dev :=
  { s.tickUp s.saf.dpAt with saf := { s.saf with dpRun := some (ok, false), dpAt := s.saf.dpAt + cycHz / 5000 } }

/-- A dark pulse judged. -/
def Dev.darkJudged (s : Dev) (began : Nat) (bad : Bool) : Dev :=
  { s.nextDark began with saf := { (s.nextDark began).saf with
      dpFailA := (if s.saf.dpNextB then s.saf.dpFailA else bad), dpFailB := (if s.saf.dpNextB then bad else s.saf.dpFailB) } }

theorem exec_darkPulse_starts (s : State) (ok : Bool) (hrun : s.saf.run ≠ .off) (hdp : s.saf.dpRun = none) (hout : s.stopOut = true) :
    exec (.darkPulse ok) s = s.act fun _ => s.darkened ok := by
  have hdp' : (s.tickUp s.saf.dpAt).saf.dpRun = none := hdp
  have hout' : (s.tickUp s.saf.dpAt).stopOut = true := hout
  show execDarkPulse ok s = _
  refine State.act_congr ((if_neg hrun).trans ?_)
  simp only [hdp']
  exact if_neg (by rw [hout']; decide)

theorem exec_darkPulse_skipped (s : State) (ok : Bool) (hrun : s.saf.run ≠ .off) (hdp : s.saf.dpRun = none) (hout : s.stopOut = false) :
    exec (.darkPulse ok) s = s.act fun _ => ((s.tickUp s.saf.dpAt).nextDark s.saf.dpAt).cntSat (0x11038, 16, 16) := by
  have hdp' : (s.tickUp s.saf.dpAt).saf.dpRun = none := hdp
  have hout' : (s.tickUp s.saf.dpAt).stopOut = false := hout
  show execDarkPulse ok s = _
  refine State.act_congr ((if_neg hrun).trans ?_)
  simp only [hdp']
  exact if_pos (by rw [hout']; rfl)

theorem exec_darkPulse_void (s : State) (ok : Bool) {low : Bool} (hrun : s.saf.run ≠ .off) (hdp : s.saf.dpRun = some (low, true)) :
    exec (.darkPulse ok) s = s.act fun _ => (s.tickUp s.saf.dpAt).nextDark (s.saf.dpAt - cycHz / 5000) := by
  have hdp' : (s.tickUp s.saf.dpAt).saf.dpRun = some (low, true) := hdp
  show execDarkPulse ok s = _
  refine State.act_congr ((if_neg hrun).trans ?_)
  simp only [hdp']
  exact if_pos trivial

theorem exec_darkPulse_judged (s : State) (ok : Bool) {low : Bool} (hrun : s.saf.run ≠ .off) (hdp : s.saf.dpRun = some (low, false)) :
    exec (.darkPulse ok) s = s.act fun _ =>
      let u := (s.tickUp s.saf.dpAt).darkJudged (s.saf.dpAt - cycHz / 5000) (!low || (s.stopOut && !ok))
      if (!low || (s.stopOut && !ok)) = true then u.raise (if s.saf.dpNextB then 0xB4 else 0xB3) else u.cntWrap (0x11038, 0, 16) := by
  have hdp' : (s.tickUp s.saf.dpAt).saf.dpRun = some (low, false) := hdp
  show execDarkPulse ok s = _
  refine State.act_congr ((if_neg hrun).trans ?_)
  simp only [hdp']
  exact if_neg (Bool.false_ne_true)

theorem frame_nextDark (s : Dev) (n : Nat) : Frame [.saf] s (s.nextDark n) := frame_withSaf s _
theorem frame_darkJudged (s : Dev) (n : Nat) (b : Bool) : Frame [.saf] s (s.darkJudged n b) := (frame_nextDark s n).trans (frame_withSaf _ _)

theorem Dev.saf_darkJudged (s : Dev) (n : Nat) (b : Bool) : ((s.tickUp s.saf.dpAt).darkJudged n b).saf = { s.saf with
    dpRun := none, dpNextB := !s.saf.dpNextB, dpFailA := (if s.saf.dpNextB then s.saf.dpFailA else b)
    dpFailB := (if s.saf.dpNextB then b else s.saf.dpFailB), dpAt := n + s.fld (0x11018, 0, 8) * (cycHz / 2) } := rfl

/-- Settles O39: each edge of a test, a release and a pulse in between has its own effect. -/
theorem theStopPathIsTestedAndReleased : Obligations.TheStopPathIsTestedAndReleased := by
  refine ⟨fun s dt lowPs chB hlo hhi hlatch => ?_, fun s t ht => ?_, fun s dt hs => ?_,
    fun s dt v hs hkey hclean hsrc hlatch hroom => .safStopClr hs dt hkey hclean hsrc hlatch hroom, fun s dt v hbad => ?_,
    fun s ok hs hrun hdp hout => ?_, fun s ok hs hrun hdp hgood => ?_, fun s ok low hrun hdp hbad => ?_, fun s ok low hs hrun hdp => ?_,
    fun s ok hs hrun hdp hout => ?_⟩
  · have hf := (frame_tick s.toDev dt).append (frame_withFree (s.tick dt) (s.free + 1))
    have he := exec_stopInFall_open s dt lowPs chB hlo hhi hlatch
    split at he
    · exact .of_effect he ⟨rfl, hf.mono (by decide), .inl rfl⟩
    · exact .of_effect he ⟨rfl, (hf.append (frame_withSaf (s.drawn dt) _)).mono (by decide), .inr rfl⟩
  · have he : exec .stopDiscrepancy s = s.act fun _ =>
        ({ s.tickUp (t + 10 * cycMs * s.fld (0x11018, 8, 8)) with saf := { s.saf with loneAt := none } } : Dev).raise 0xB2 := by
      show execStopDiscrepancy s = _
      refine State.act_congr ?_
      simp only [ht]
      rfl
    exact .of_effect he ⟨rfl, rfl, s.tickUp_up _, ((frame_tickUp s.toDev _).append ((frame_withSaf _ _).append (frame_raise _ 0xB2))).mono (by decide)⟩
  · have hf := (frame_tick s.toDev dt).append (frame_withSaf (s.tick dt) { s.saf with inA := true, inB := true, clean := true })
    exact .of_effect hs hf rfl (by decide) (by decide) ⟨rfl, hf⟩
  · have hcond : ¬ (v.toNat = 0xC1EA && (s.tick dt).saf.clean && ((s.tick dt).src 0xB2).st != .active) = true := by
      show ¬ (v.toNat = 0xC1EA && s.saf.clean && (s.src 0xB2).st != .active) = true
      obtain h | h | h := hbad <;> simp [h]
    have he : exec (.safStopClr dt v) s = s.act fun _ => ((s.tick dt).cntSat (0x11030, 16, 16)).raise 0xBC :=
      show execSafStopClr dt v s = _ from State.act_congr (if_neg hcond)
    exact .of_effect he ⟨Dev.fld_cntSat (s.tick dt) _ (by decide), rfl, .cntSat (s.tick dt) (0x11030, 16, 16),
      ((frame_tick s.toDev dt).append ((frame_cntSat _ _).append (frame_raise _ 0xBC))).mono (by decide)⟩
  · have hf := (frame_tickUp s.toDev s.saf.dpAt).append
      (frame_withSaf (s.tickUp s.saf.dpAt) { s.saf with dpRun := some (ok, false), dpAt := s.saf.dpAt + cycHz / 5000 })
    have hout' : (s.darkened ok).stopOut = true := hout
    refine .of_effect hs hf (exec_darkPulse_starts s ok hrun hdp hout) (by decide) (by decide) ⟨rfl, s.tickUp_up _, ?_, ?_, hf⟩
    · show ((s.darkened ok).stopOut && !(true && s.saf.dpNextB == s.saf.dpNextB)) = false
      simp
    · show ((s.darkened ok).stopOut && !(true && s.saf.dpNextB == !s.saf.dpNextB)) = true
      rw [hout']
      cases s.saf.dpNextB <;> rfl
  · have hgood' : (!true || (s.stopOut && !ok)) = false := by obtain h | h := hgood <;> simp [h]
    have he := exec_darkPulse_judged s ok hrun hdp
    dsimp only at he
    rw [hgood', if_neg (by decide)] at he
    have hft := frame_tickUp s.toDev s.saf.dpAt
    have hup := s.tickUp_up s.saf.dpAt
    have hfj := frame_darkJudged (s.tickUp s.saf.dpAt) (s.saf.dpAt - cycHz / 5000) false
    have hsaf : ((s.tickUp s.saf.dpAt).darkJudged (s.saf.dpAt - cycHz / 5000) false).saf = { s.saf with
        dpRun := none, dpNextB := !s.saf.dpNextB, dpFailA := s.saf.dpFailA && s.saf.dpNextB, dpFailB := s.saf.dpFailB && !s.saf.dpNextB
        dpAt := s.saf.dpAt - cycHz / 5000 + s.fld (0x11018, 0, 8) * (cycHz / 2) } := by
      rw [Dev.saf_darkJudged]
      cases h : s.saf.dpNextB <;> simp
    have hclk : ((s.tickUp s.saf.dpAt).darkJudged (s.saf.dpAt - cycHz / 5000) false).up = max s.up s.saf.dpAt := hup
    have hfu := hft.append hfj
    generalize (s.tickUp s.saf.dpAt).darkJudged (s.saf.dpAt - cycHz / 5000) false = u at he hsaf hclk hfu
    have hf := hfu.append (frame_cntWrap u (0x11038, 0, 16))
    refine .of_effect hs hf he (by decide) (by decide) ⟨?_, hsaf, hclk, (RegsBut.of_frame hfu (by decide)).trans (.cntWrap u (0x11038, 0, 16)), hf.mono (by decide)⟩
    rw [Dev.fld_cntWrap _ _ (by decide), Dev.fld_of_frame hfu (by decide)]
  · have hbad' : (!low || (s.stopOut && !ok)) = true := by
      obtain h | ⟨h, h'⟩ := hbad
      · simp [h]
      · simp [h, h']
    have he := exec_darkPulse_judged s ok hrun hdp
    dsimp only at he
    rw [hbad', if_pos rfl] at he
    refine .of_effect he ⟨rfl, ?_, rfl, rfl,
      ((frame_tickUp s.toDev s.saf.dpAt).append ((frame_darkJudged _ _ true).append (frame_raise _ _))).mono (by decide)⟩
    show (if s.saf.dpNextB then (if s.saf.dpNextB then true else s.saf.dpFailB) else (if s.saf.dpNextB then s.saf.dpFailA else true)) = true
    cases s.saf.dpNextB <;> rfl
  · have hf := (frame_tickUp s.toDev s.saf.dpAt).append (frame_nextDark (s.tickUp s.saf.dpAt) (s.saf.dpAt - cycHz / 5000))
    exact .of_effect hs hf (exec_darkPulse_void s ok hrun hdp) (by decide) (by decide) ⟨rfl, hf⟩
  · have hfn := (frame_tickUp s.toDev s.saf.dpAt).append (frame_nextDark (s.tickUp s.saf.dpAt) s.saf.dpAt)
    have hf := hfn.append (frame_cntSat ((s.tickUp s.saf.dpAt).nextDark s.saf.dpAt) (0x11038, 16, 16))
    have hsaf : (((s.tickUp s.saf.dpAt).nextDark s.saf.dpAt).cntSat (0x11038, 16, 16)).saf =
        { s.saf with dpNextB := !s.saf.dpNextB, dpAt := s.saf.dpAt + s.fld (0x11018, 0, 8) * (cycHz / 2) } := by
      show ({ s.saf with dpRun := none, dpNextB := _, dpAt := _ } : Saf) = _
      rw [← hdp]
      rfl
    exact .of_effect hs hf (exec_darkPulse_skipped s ok hrun hdp hout) (by decide) (by decide)
      ⟨(Dev.fld_cntSat _ _ (by decide)).trans (by rw [Dev.fld_of_frame hfn (by decide)]), hsaf,
        (RegsBut.of_frame hfn (by decide)).trans (.cntSat _ (0x11038, 16, 16)), hf.mono (by decide)⟩

end Sys2Proof.Machine

/-! ### Captures -/
namespace Sys2Proof.Machine

/-- A `PROGRESS` entry that finds room stands in its ring, and nothing else changes. -/
theorem Dev.progress_room {s : Dev} {h : Nat} {l : Live} (c : Nat) (b : List Byte) (hl : s.live? h = some l) (ho : l.orphan = false)
    (hroom : s.Room l.cq) : (s.progress h c b).Progressed l c b ∧ (s.progress h c b).hif.live = s.hif.live ∧
      Frame [.hif, .out] s (s.progress h c b) := by
  obtain ⟨he, hb, hh, hf⟩ := hroom
  have hoffer : s.cqOffer l.cq (cmdEntry .progress l c b) = (s.cqWrite l.cq (cmdEntry .progress l c b), false) := by
    unfold Dev.cqOffer
    simp [he, hb, hh, hf]
  have hp : s.progress h c b = s.cqWrite l.cq (cmdEntry .progress l c b) := by
    unfold Dev.progress
    simp only [hl, ho, hoffer]
    rfl
  rw [hp]
  refine ⟨⟨{ cmdEntry .progress l c b with phase := (s.cq l.cq).phase, lost := (s.cq l.cq).lostFlag
                                           handle := (cmdEntry .progress l c b).handle % 2 ^ 32 }, ?_, rfl, rfl, rfl, rfl, rfl⟩,
    Dev.live_cqWrite _ _ _, frame_cqWrite _ _ _⟩
  rw [Dev.ring_cqWrite, if_pos rfl]
  exact List.mem_append_right _ (List.mem_singleton.2 rfl)

theorem Dev.takesEntry_of_room {s : Dev} {h : Nat} {l : Live} (hl : s.live? h = some l) (hroom : s.Room l.cq) : s.takesEntry h = true := by
  obtain ⟨he, hb, hh, hf⟩ := hroom
  unfold Dev.takesEntry Dev.cqTakes
  simp [hl, hb, hh, hf]

theorem Dev.cap_of_frame {a : List Area} {s t : Dev} (h : Frame a s t) (ha : .caps ∉ a) (n : Nat) : t.cap n = s.cap n := by
  rw [Dev.cap, h .caps ha, Dev.cap]

/-- Is an input without the fine resolution of its TDC unit (log entry 94)? -/
def Dev.coarseCap (s : Dev) (n : Nat) : Bool := !s.tim.tdcCal || s.tdc.uncal.contains n

theorem Dev.coarseCap_sub (s : Dev) (n sub : Nat) :
    (if s.coarseCap n then 0 else sub) = if s.tim.tdcCal = true ∧ ¬ n ∈ s.tdc.uncal then sub else 0 := by
  unfold Dev.coarseCap
  cases s.tim.tdcCal
  · simp
  · by_cases hn : n ∈ s.tdc.uncal <;> simp [hn]

/-- An input with an edge recorded. -/
def Dev.captured (s : Dev) (n : Nat) (e : NT × Nat) (rising : Bool) : CapInput :=
  { s.cap n with last := some e, lost := false, nt := e.1, frac := e.2
                 flags := b2n rising + 2 * b2n (s.coarseCap n) + 4 * b2n (s.cap n).lost + 8 * s.tim.st.code }

/-- Does an edge come closer than 100 ns after the last one recorded (R62)? -/
def CapInput.near (c : CapInput) (e : NT × Nat) : Bool :=
  match c.last with
  | some l => decide (0 ≤ edgeDiff e l ∧ edgeDiff e l * 1000000000 < 100 * 2 ^ 38)
  | none => false

theorem CapInput.near_false {c : CapInput} {e : NT × Nat} (h : ∀ l ∈ c.last, edgeDiff e l < 0 ∨ 100 * 2 ^ 38 ≤ edgeDiff e l * 1000000000) :
    c.near e = false := by
  unfold CapInput.near
  cases hl : c.last with
  | none => rfl
  | some l =>
    refine decide_eq_false fun ⟨h0, h1⟩ => ?_
    obtain h | h := h l hl
    · exact absurd h0 (not_le.2 h)
    · exact absurd h1 (not_lt.2 h)

theorem CapInput.near_true {c : CapInput} {e l : NT × Nat} (hl : c.last = some l) (h0 : 0 ≤ edgeDiff e l)
    (h1 : edgeDiff e l * 1000000000 < 100 * 2 ^ 38) : c.near e = true := by
  unfold CapInput.near
  rw [hl]
  exact decide_eq_true ⟨h0, h1⟩

/-- The instant of an edge as the TDC unit of its input resolves it. -/
def Dev.edgeOn (s : Dev) (n sub : Nat) : NT × Nat := s.edgeAt (if s.coarseCap n then 0 else sub)

/-- A rising edge on an input without an arm (R62). -/
theorem Dev.captureEdge_unarmed {s : Dev} {n : Nat} (harm : (s.cap n).arm = none) (sub : Nat) :
    s.captureEdge n sub true = if (s.cap n).near (s.edgeOn n sub) = true then s.setCap n { s.cap n with lost := true }
      else s.setCap n (s.captured n (s.edgeOn n sub) true) := by
  unfold Dev.captureEdge Dev.captured Dev.edgeOn
  generalize s.cap n = c at harm ⊢
  obtain ⟨arm, last, lost, buf, nt, frac, flags, latHi, latStat⟩ := c
  obtain rfl : arm = none := harm
  simp only [Bool.false_and, Bool.or_false]
  rfl

/-- The arm of an input with one record more. -/
def Dev.recorded (s : Dev) (n sub : Nat) (rising : Bool) (a : CapArm) : CapInput :=
  { s.captured n (s.edgeOn n sub) rising with
    arm := some { a with made := a.made + 1 }
    buf := [capRecord (s.captured n (s.edgeOn n sub) rising).nt (s.captured n (s.edgeOn n sub) rising).frac n
      (s.captured n (s.edgeOn n sub) rising).flags (a.made + 1)] }

/-- An edge that an open arm takes, on an input that holds nothing yet (R62). -/
theorem Dev.captureEdge_armed {s : Dev} {n : Nat} {rising : Bool} {a : CapArm} (harm : (s.cap n).arm = some a) (hbegun : a.begun = true)
    (htakes : a.takes rising = true) (hmade : a.made + 1 < a.count) (hlast : (s.cap n).last = none) (hbuf : (s.cap n).buf = []) (sub : Nat) :
    s.captureEdge n sub rising = (s.setCap n (s.recorded n sub rising a)).drainCap n 17 := by
  have hlt : a.made < a.count := by omega
  unfold Dev.captureEdge Dev.recorded Dev.captured Dev.edgeOn
  generalize s.cap n = c at harm hlast hbuf ⊢
  obtain ⟨arm, last, lost, buf, nt, frac, flags, latHi, latStat⟩ := c
  obtain rfl : arm = some a := harm
  obtain rfl : last = none := hlast
  obtain rfl : buf = [] := hbuf
  exact (if_neg (by simp [htakes, hlt])).trans ((if_neg (by simp)).trans (if_neg (by simp [hbegun])))

/-- A record that finds room leaves the buffer, and the arm waits for more. -/
theorem Dev.drainCap_one {s : Dev} {n k : Nat} {a : CapArm} {l : Live} {r : List Byte} (harm : (s.cap n).arm = some a) (hbuf : (s.cap n).buf = [r])
    (hmade : a.made < a.count) (hl : s.live? a.handle = some l) (hroom : s.Room l.cq) :
    s.drainCap n (k + 2) = (s.setCap n { s.cap n with buf := [] }).progress a.handle 1 r := by
  have htakes := Dev.takesEntry_of_room hl hroom
  have hcap : ((s.setCap n { s.cap n with buf := [] }).progress a.handle 1 r).cap n = { s.cap n with buf := [] } := by
    rw [Dev.cap_of_frame (frame_progress _ _ _ _) (by decide), Dev.cap_setCap, if_pos rfl]
  generalize hu : (s.setCap n { s.cap n with buf := [] }).progress a.handle 1 r = u at hcap ⊢
  have hend : u.drainCap n (k + 1) = u := by
    have harm' : (u.cap n).arm = some a := by rw [hcap]; exact harm
    have hbuf' : (u.cap n).buf = [] := by rw [hcap]
    unfold Dev.drainCap
    simp only [harm', hbuf']
    exact if_neg (Nat.not_le.2 hmade)
  unfold Dev.drainCap
  dsimp only
  split
  · next h => cases h.symm.trans harm
  · next a' h =>
    obtain rfl : a' = a := Option.some.inj (h.symm.trans harm)
    split
    · next h => cases h.symm.trans hbuf
    · next r' rest h =>
      obtain ⟨rfl, rfl⟩ := List.cons.inj (h.symm.trans hbuf)
      rw [if_pos htakes, hu, hend]

/-- An input written, and the commands left alone. -/
theorem Completes.capWritten {c : Instr} {s : State} {dt n : Nat} {x : CapInput} (hs : s.Settled)
    (he : exec c s = s.act fun _ => (s.tick dt).setCap n x) :
    Completes c s fun t => t.cap n = x ∧ (∀ m, m ≠ n → t.cap m = s.cap m) ∧ Frame [.clk, .out, .caps] s.toDev t := by
  have hf := (frame_tick s.toDev dt).append (frame_setCap (s.tick dt) n x)
  exact .of_effect hs hf he (by decide) (by decide)
    ⟨(Dev.cap_setCap _ n n x).trans (if_pos rfl), fun m hm => (Dev.cap_setCap _ n m x).trans (if_neg hm), hf⟩

theorem exec_timeCaptureEdge (s : State) (dt : Nat) {n : Nat} (sub : Nat) (rising : Bool) (hn : n < 9) :
    exec (.timeCaptureEdge dt n sub rising) s = s.act fun _ => (s.tick dt).captureEdge n sub rising :=
  show execTimeCaptureEdge dt n sub rising s = _ from State.act_congr (if_pos hn)

/-- The capture that a command arms. -/
def Dev.capArm (s : Dev) (h : Nat) (l : Live) : CapArm :=
  { handle := h, edge := l.p 19 1, count := l.p 16 2, tStart := l.pNt 0, tEnd := if l.p 8 8 = 0 then none else some (l.pNt 8)
    begun := decide (l.p 0 8 = 0) || ntReached s.nt (l.pNt 0), made := 0 }

/-- An input that is free and whose window is still open is armed (R60). -/
theorem Completes.timeCaptureArm_arms {s : State} {h : Nat} {l : Live} (hs : s.Settled) (hr : s.Runs h 0x12 l)
    (harm : (s.cap (l.p 18 1)).arm = none) (hwin : l.p 8 8 = 0 ∨ ntReached s.nt (l.pNt 8) = false) :
    Completes (.timeCaptureArm h) s fun t => t.Begun l ∧ (t.cap (l.p 18 1)).arm = some (s.capArm h l) ∧
      (∀ m, m ≠ l.p 18 1 → t.cap m = s.cap m) ∧ Frame [.out, .hif, .caps] s.toDev t := by
  have hb := frame_begin_markStarted s.toDev h
  have hf := hb.append (frame_setCap (s.begin.markStarted h) (l.p 18 1)
    { (s.begin.markStarted h).cap (l.p 18 1) with arm := some ((s.begin.markStarted h).capArm h l) })
  refine .of_command rfl hs hr ((if_neg (by rw [Dev.cap_of_frame hb (by decide), harm]; decide)).trans ((if_neg ?_).trans rfl)) hf (by decide) (by decide) ⟨hr.begun, ?_, fun m hm => ?_, hf⟩
  · by_cases hend : l.p 8 8 = 0
    · rw [if_pos hend]
      exact Bool.false_ne_true
    · rw [if_neg hend]
      exact ne_true_of_eq_false (hwin.resolve_left hend)
  · rw [Dev.cap_setCap, if_pos rfl]
    rfl
  · rw [Dev.cap_setCap, if_neg hm]
    rfl

theorem exec_captureStart (s : State) {n : Nat} {a : CapArm} (harm : (s.cap n).arm = some a) (hbegun : a.begun = false) :
    exec (.captureStart n) s = s.act fun _ => (s.tickTo a.tStart).setCap n { s.cap n with arm := some { a with begun := true } } := by
  show execCaptureStart n s = _
  refine State.act_congr ?_
  dsimp only
  split
  · next h => cases h.symm.trans harm
  · next a' h =>
    obtain rfl : a' = a := Option.some.inj (h.symm.trans harm)
    exact if_neg (by rw [hbegun]; decide)

theorem exec_captureEnd (s : State) {n : Nat} {a : CapArm} {e : NT} (harm : (s.cap n).arm = some a) (hend : a.tEnd = some e)
    (hbuf : (s.cap n).buf = []) :
    exec (.captureEnd n) s = s.act fun _ => ((s.tickTo e).setCap n { s.cap n with arm := none, buf := [] }).done a.handle stOK [] := by
  have hends : (s.tickTo e).endCap n stOK = ((s.tickTo e).setCap n { s.cap n with arm := none, buf := [] }).done a.handle stOK [] := by
    unfold Dev.endCap
    dsimp only
    split
    · next h => cases h.symm.trans harm
    · next a' h =>
      obtain rfl : a' = a := Option.some.inj (h.symm.trans harm)
      rw [show ((s.tickTo e).cap n).buf = [] from hbuf]
      rfl
  show execCaptureEnd n s = _
  refine State.act_congr ?_
  dsimp only
  split
  · next h => cases h.symm.trans harm
  · next a' h =>
    obtain rfl : a' = a := Option.some.inj (h.symm.trans harm)
    split
    · next h => cases h.symm.trans hend
    · next e' h =>
      obtain rfl : e' = e := Option.some.inj (h.symm.trans hend)
      exact hends

theorem Dev.edgeOn_eq (s : Dev) (n sub : Nat) :
    s.edgeOn n sub = s.edgeAt (if s.tim.tdcCal = true ∧ ¬ n ∈ s.tdc.uncal then sub else 0) := by
  rw [Dev.edgeOn, Dev.coarseCap_sub]

/-- An edge that an open arm takes (R62): recorded, and reported where the ring has room. -/
theorem Completes.captureEdge_reports {s : State} {dt n sub : Nat} {rising : Bool} {a : CapArm} {l : Live} (hs : s.Settled) (hn : n < 9)
    (harm : (s.cap n).arm = some a) (hbegun : a.begun = true) (htakes : a.takes rising = true) (hmade : a.made + 1 < a.count)
    (hlast : (s.cap n).last = none) (hbuf : (s.cap n).buf = []) (hl : s.live? a.handle = some l) (ho : l.orphan = false) (hroom : s.Room l.cq) :
    Completes (.timeCaptureEdge dt n sub rising) s fun t => (t.cap n).arm = some { a with made := a.made + 1 } ∧ (t.cap n).buf = [] ∧
      t.Progressed l 1 (capRecord (t.cap n).nt (t.cap n).frac n (t.cap n).flags (a.made + 1)) ∧
      ((t.cap n).nt, (t.cap n).frac) = (s.tick dt).edgeAt (if s.tim.tdcCal = true ∧ ¬ n ∈ s.tdc.uncal then sub else 0) ∧
      (∀ m, m ≠ n → t.cap m = s.cap m) ∧ Frame [.clk, .out, .caps, .hif] s.toDev t := by
  have hedge := Dev.captureEdge_armed (s := s.tick dt) harm hbegun htakes hmade hlast hbuf sub
  have he : exec (.timeCaptureEdge dt n sub rising) s = s.act fun _ => ((s.tick dt).setCap n ((s.tick dt).recorded n sub rising a)).drainCap n 17 :=
    (exec_timeCaptureEdge s dt sub rising hn).trans (State.act_congr hedge)
  generalize hc : (s.tick dt).recorded n sub rising a = c at he
  have hcarm : c.arm = some { a with made := a.made + 1 } := hc ▸ rfl
  have hcbuf : c.buf = [capRecord c.nt c.frac n c.flags (a.made + 1)] := hc ▸ rfl
  have hcnt : (c.nt, c.frac) = (s.tick dt).edgeAt (if s.tim.tdcCal = true ∧ ¬ n ∈ s.tdc.uncal then sub else 0) :=
    (hc ▸ rfl : (c.nt, c.frac) = (s.tick dt).edgeOn n sub).trans (Dev.edgeOn_eq _ n sub)
  have hu1 : ((s.tick dt).setCap n c).cap n = c := (Dev.cap_setCap _ n n c).trans (if_pos rfl)
  have hu2 : ∀ m, m ≠ n → ((s.tick dt).setCap n c).cap m = s.cap m := fun m hm => (Dev.cap_setCap _ n m c).trans (if_neg hm)
  have hfu := (frame_tick s.toDev dt).append (frame_setCap (s.tick dt) n c)
  have hul : ((s.tick dt).setCap n c).live? a.handle = some l := hl
  have huroom : ((s.tick dt).setCap n c).Room l.cq := hroom
  generalize (s.tick dt).setCap n c = u at he hu1 hu2 hfu hul huroom
  have hdrain := Dev.drainCap_one (s := u) (k := 15) (a := { a with made := a.made + 1 }) (by rw [hu1]; exact hcarm) (by rw [hu1]; exact hcbuf) hmade hul huroom
  rw [hdrain, hu1] at he
  obtain ⟨hprog, -, hfp⟩ := Dev.progress_room (s := u.setCap n { c with buf := [] }) 1 (capRecord c.nt c.frac n c.flags (a.made + 1)) hul ho huroom
  have hfs := frame_setCap u n { c with buf := [] }
  have hcap' := Dev.cap_of_frame hfp (by decide)
  have hown : (u.setCap n { c with buf := [] }).cap n = { c with buf := [] } := (Dev.cap_setCap _ n n _).trans (if_pos rfl)
  have hother : ∀ m, m ≠ n → (u.setCap n { c with buf := [] }).cap m = s.cap m := fun m hm => ((Dev.cap_setCap _ n m _).trans (if_neg hm)).trans (hu2 m hm)
  have hall := hfu.append (hfs.append hfp)
  refine .of_effect hs hall he (by decide) (by decide) ?_
  rw [hcap' n, hown]
  exact ⟨hcarm, rfl, hprog, hcnt, fun m hm => (hcap' m).trans (hother m hm), hall.mono (by decide)⟩

/-- Settles O17: an edge is lost, recorded, or recorded and reported; an arm opens and ends with its window. -/
theorem capturesRecordTheirEdges : Obligations.CapturesRecordTheirEdges := by
  refine ⟨fun s dt n sub e hs hn harm he hfar => ?_, fun s dt n sub e l hs hn harm hl he h0 h1 => ?_,
    fun s dt n sub rising a l hs hn harm hbegun htakes hmade hlast hbuf hl ho hroom => ?_, fun s h l hs hr harm hwin => ?_, fun s h l hs hr harm => ?_,
    fun s h l hs hr harm hend hpast => ?_, fun s n a hs harm hbegun => ?_, fun s n a e l hs harm hbuf hend hw => ?_⟩
  · have he' : (s.tick dt).edgeOn n sub = e := (Dev.edgeOn_eq _ n sub).trans he.symm
    have hedge : (s.tick dt).captureEdge n sub true = (s.tick dt).setCap n ((s.tick dt).captured n e true) := by
      rw [Dev.captureEdge_unarmed (s := s.tick dt) harm, he', if_neg]
      rw [CapInput.near_false (c := (s.tick dt).cap n) hfar]
      decide
    refine (Completes.capWritten hs ((exec_timeCaptureEdge s dt sub true hn).trans (State.act_congr (g := fun _ => _) hedge))).imp fun t ⟨hc, hm, hf⟩ => ?_
    rw [hc]
    exact ⟨rfl, rfl, rfl, rfl, rfl, hm, hf⟩
  · have he' : (s.tick dt).edgeOn n sub = e := (Dev.edgeOn_eq _ n sub).trans he.symm
    have hedge : (s.tick dt).captureEdge n sub true = (s.tick dt).setCap n { s.cap n with lost := true } := by
      rw [Dev.captureEdge_unarmed (s := s.tick dt) harm, he']
      exact if_pos (CapInput.near_true (c := s.cap n) hl h0 h1)
    exact Completes.capWritten hs ((exec_timeCaptureEdge s dt sub true hn).trans (State.act_congr (g := fun _ => _) hedge))
  · exact .captureEdge_reports hs hn harm hbegun htakes hmade hlast hbuf hl ho hroom
  · exact .timeCaptureArm_arms hs hr harm hwin
  · exact .refused rfl hs hr (if_pos (by rwa [Dev.cap_of_frame (frame_begin_markStarted _ h) (by decide)]))
  · refine .answered rfl hs hr ((if_neg (by rw [Dev.cap_of_frame (frame_begin_markStarted _ h) (by decide), harm]; decide)).trans (if_pos ?_))
    rw [if_neg hend]
    exact hpast
  · have hf := (frame_tickTo s.toDev a.tStart).append (frame_setCap (s.tickTo a.tStart) n { s.cap n with arm := some { a with begun := true } })
    exact .of_effect hs hf (exec_captureStart s harm hbegun) (by decide) (by decide)
      ⟨(Dev.cap_setCap _ n n _).trans (if_pos rfl), fun m hm => (Dev.cap_setCap _ n m _).trans (if_neg hm), rfl, hf⟩
  · have hfc := (frame_tickTo s.toDev e).append (frame_setCap (s.tickTo e) n { s.cap n with arm := none, buf := [] })
    have hw' := hw.of_frame hfc (by decide) rfl
    have hcap : ∀ m, ((s.tickTo e).setCap n { s.cap n with arm := none, buf := [] }).cap m = if m = n then { s.cap n with arm := none } else s.cap m :=
      fun m => (Dev.cap_setCap _ n m _).trans (by rw [← hbuf]; rfl)
    have hclk : ((s.tickTo e).setCap n { s.cap n with arm := none, buf := [] }).clk = s.clk.run (s.clk.cyclesTo e) := rfl
    have he := exec_captureEnd s harm hend hbuf
    generalize (s.tickTo e).setCap n { s.cap n with arm := none, buf := [] } = u at he hfc hw' hcap hclk
    have hd := frame_done u a.handle stOK []
    have hcap' := Dev.cap_of_frame hd (by decide)
    exact .of_effect hs (hfc.append hd) he (by decide) (by decide) ⟨hw'.done _ _, (hcap' n).trans ((hcap n).trans (if_pos rfl)),
      fun m hm => (hcap' m).trans ((hcap m).trans (if_neg hm)), (hd .clk (by decide)).trans hclk, (hfc.append hd).mono (by decide)⟩

end Sys2Proof.Machine

/-! ### Axes that stop -/
namespace Sys2Proof.Machine

/-- The axis after a hard stop (R297), before its reference is judged. -/
def Dev.hardAxis (s : Dev) (n why : Nat) (dest : AxState) : Axis :=
  let a := s.axis n
  let pos := if s.axEnc n then s.axEncPos n else s.axPos n
  { a.still pos with st := dest, lastStop := why, restAt := s.up, waitEn := false, dir := s.axNeg n,
                     en := if dest == .idle then a.en else false, short := if dest == .idle then a.short else false,
                     faultBy := if dest == .fault then why else a.faultBy }

/-- An axis whose move or homing is over. -/
def Axis.ended (a : Axis) : Axis := { a with move := none, home := none, endWith := none }

theorem Dev.axis_of_frame {a : List Area} {s t : Dev} (h : Frame a s t) (ha : .axes ∉ a) (n : Nat) : t.axis n = s.axis n := by
  rw [Dev.axis, h .axes ha, Dev.axis]

theorem Dev.axis_axEnd (s : Dev) (n code m : Nat) : (s.axEnd n code).axis m = if m = n then (s.axis n).ended else s.axis m := by
  refine Eq.trans ?_ (s.axis_setAxis n m (s.axis n).ended)
  unfold Dev.axEnd
  dsimp only
  split
  · exact Dev.axis_of_frame (frame_done _ _ _ _) (by decide) m
  · exact Dev.axis_of_frame (frame_doneOpt _ _ _ _) (by decide) m
  · rfl

theorem Dev.axis_axLose (s : Dev) (n m : Nat) : (s.axLose n).axis m = if m = n then { s.axis n with ref := false } else s.axis m := by
  have hlost : s.axLose n = if (s.axis n).ref then (s.setAxis n { s.axis n with ref := false }).raise 0xA6 else s := rfl
  rw [hlost]
  split
  · exact s.axis_setAxis n m { s.axis n with ref := false }
  · next href =>
    split
    · next h => rw [h, ← Bool.eq_false_iff.2 href]
    · rfl

theorem Dev.todo_axLose (s : Dev) (n : Nat) : (s.axLose n).todo = s.todo ++ if (s.axis n).ref then [.fault 0xA6 false] else [] := by
  have hlost : s.axLose n = if (s.axis n).ref then (s.setAxis n { s.axis n with ref := false }).raise 0xA6 else s := rfl
  rw [hlost]
  split
  · rfl
  · exact (List.append_nil _).symm

/-- The axis and its reference in a hard stop, its move not yet answered. -/
def Dev.axHalt (s : Dev) (n why : Nat) (dest : AxState) : Dev :=
  if s.axEnc n then s.setAxis n (s.hardAxis n why dest) else (s.setAxis n (s.hardAxis n why dest)).axLose n

theorem Dev.axHard_eq (s : Dev) (n why code : Nat) (dest : AxState) : s.axHard n why code dest = (s.axHalt n why dest).axEnd n code := rfl

theorem frame_axHalt (s : Dev) (n why : Nat) (dest : AxState) : Frame [.axes, .todo] s (s.axHalt n why dest) := by
  unfold Dev.axHalt
  split
  · exact (frame_setAxis s n _).mono (by decide)
  · exact ((frame_setAxis s n _).append (frame_axLose _ n)).mono (by decide)

theorem Dev.axis_axHalt (s : Dev) (n why : Nat) (dest : AxState) (m : Nat) : (s.axHalt n why dest).axis m =
    if m = n then { s.hardAxis n why dest with ref := s.axEnc n && (s.axis n).ref } else s.axis m := by
  unfold Dev.axHalt
  cases henc : s.axEnc n
  · rw [if_neg (by decide), Dev.axis_axLose, Dev.axis_setAxis, Dev.axis_setAxis, if_pos rfl]
    split <;> rfl
  · rw [if_pos rfl, Dev.axis_setAxis]
    split <;> rfl

theorem Dev.axis_axHard (s : Dev) (n why code : Nat) (dest : AxState) (m : Nat) : (s.axHard n why code dest).axis m =
    if m = n then { (s.hardAxis n why dest).ended with ref := s.axEnc n && (s.axis n).ref } else s.axis m := by
  rw [Dev.axHard_eq, Dev.axis_axEnd, Dev.axis_axHalt, Dev.axis_axHalt, if_pos rfl]
  split <;> rfl

theorem Dev.todo_axHalt (s : Dev) (n why : Nat) (dest : AxState) : (s.axHalt n why dest).todo =
    s.todo ++ if s.axEnc n = false ∧ (s.axis n).ref = true then [.fault 0xA6 false] else [] := by
  unfold Dev.axHalt
  cases henc : s.axEnc n
  · have href : (s.hardAxis n why dest).ref = (s.axis n).ref := rfl
    rw [if_neg (by decide), Dev.todo_axLose, Dev.axis_setAxis, if_pos rfl, href]
    simp
  · rw [if_pos rfl]
    simp

theorem Dev.todo_axHard (s : Dev) (n why code : Nat) (dest : AxState) : (s.axHard n why code dest).todo =
    s.todo ++ if s.axEnc n = false ∧ (s.axis n).ref = true then [.fault 0xA6 false] else [] := by
  rw [Dev.axHard_eq, ← Dev.todo_axHalt]
  exact frame_axEnd _ n code .todo (by decide)

/-- The command of a move answered where the axis ends it. -/
theorem Dev.axEnd_answers_move {s : Dev} {n h : Nat} {m : AxMove} {l : Live} (code : Nat) (hhome : (s.axis n).home = none)
    (hmove : (s.axis n).move = some m) (hm : m.handle = some h) (hw : s.Waits h l) :
    (s.axEnd n code).Answered l code (axRes (some m.txn) (s.axis n)) := by
  have hw' : (s.setAxis n (s.axis n).ended).Waits h l := hw
  have hend : s.axEnd n code = (s.setAxis n (s.axis n).ended).doneOpt m.handle code (axRes (some m.txn) (s.axis n)) := by
    unfold Dev.axEnd
    simp only [hhome, hmove]
    rfl
  rw [hend, hm]
  exact hw'.done code _

/-- The command of a homing answered where the axis ends it. -/
theorem Dev.axEnd_answers_home {s : Dev} {n : Nat} {k : Homing} {l : Live} (code : Nat) (hhome : (s.axis n).home = some k)
    (hw : s.Waits k.handle l) : (s.axEnd n code).Answered l code (axRes none (s.axis n)) := by
  have hw' : (s.setAxis n (s.axis n).ended).Waits k.handle l := hw
  have hend : s.axEnd n code = (s.setAxis n (s.axis n).ended).done k.handle code (axRes none (s.axis n)) := by
    unfold Dev.axEnd
    simp only [hhome]
    rfl
  rw [hend]
  exact hw'.done code _

/-- A hard stop answers the move of its axis with the place and the cause. -/
theorem Dev.axHard_answers_move {s : Dev} {n h : Nat} {m : AxMove} {l : Live} (why code : Nat) (dest : AxState) (hhome : (s.axis n).home = none)
    (hmove : (s.axis n).move = some m) (hm : m.handle = some h) (hw : s.Waits h l) :
    (s.axHard n why code dest).Answered l code (axRes (some m.txn) ((s.axHard n why code dest).axis n)) := by
  have hax := (s.axis_axHalt n why dest n).trans (if_pos rfl)
  have hh : ((s.axHalt n why dest).axis n).home = none := by rw [hax]; exact hhome
  have hmv : ((s.axHalt n why dest).axis n).move = some m := by rw [hax]; exact hmove
  have h := Dev.axEnd_answers_move code hh hmv hm (hw.of_frame (frame_axHalt s n why dest) (by decide) (Dev.reg_of_frame (frame_axHalt s n why dest) (by decide) _))
  rw [Dev.axis_axHard, if_pos rfl]
  rw [hax] at h
  exact h

theorem Dev.axHard_answers_home {s : Dev} {n : Nat} {k : Homing} {l : Live} (why code : Nat) (dest : AxState) (hhome : (s.axis n).home = some k)
    (hw : s.Waits k.handle l) :
    (s.axHard n why code dest).Answered l code (axRes none ((s.axHard n why code dest).axis n)) := by
  have hax := (s.axis_axHalt n why dest n).trans (if_pos rfl)
  have hh : ((s.axHalt n why dest).axis n).home = some k := by rw [hax]; exact hhome
  have h := Dev.axEnd_answers_home code hh (hw.of_frame (frame_axHalt s n why dest) (by decide) (Dev.reg_of_frame (frame_axHalt s n why dest) (by decide) _))
  rw [Dev.axis_axHard, if_pos rfl]
  rw [hax] at h
  exact h

/-- An answer stays where rings and commands stay. -/
theorem Dev.Answered.of_frame {a : List Area} {s t : Dev} {l : Live} {code : Nat} {res : List Byte} (h : s.Answered l code res) (hf : Frame a s t)
    (hh : .hif ∉ a) : t.Answered l code res := by
  have hhif : t.hif = s.hif := hf .hif hh
  unfold Dev.Answered Dev.live? Dev.cq at h ⊢
  rwa [hhif]

/-! A limit switch (R293 to R296) -/

/-- The axis with its switch latched. -/
def Dev.tripAxis (s : Dev) (n : Nat) (neg : Bool) : Axis :=
  let a := s.axis n
  let ts := s.up :: s.chatTrips n (if neg then a.tripsN else a.tripsP)
  { a with inP := a.inP || !neg, inN := a.inN || neg, latchP := a.latchP || !neg, latchN := a.latchN || neg
           tripsP := if neg then a.tripsP else ts, tripsN := if neg then ts else a.tripsN }

/-- A trip latched, counted and told. -/
def Dev.limitTold (s : Dev) (n : Nat) (neg : Bool) : Dev := ((s.setAxis n (s.tripAxis n neg)).cntSat (axF n 0x34 0 16)).raise 0xA0

/-- Too many trips in the window: a fault of its own (R296). -/
def Dev.chatters (s : Dev) (n : Nat) (neg : Bool) : Dev :=
  let s := (s.axHard n 10 stAxsStopped .fault).cntSat (axF n 0x34 16 16)
  (s.setAxis n { s.axis n with chatter := true, faultBy := if neg then 26 else 10 }).raise 0xA1

/-- Does a trip make too many in the window? -/
def Dev.tripsOver (s : Dev) (n : Nat) (neg : Bool) : Bool :=
  decide (s.fld (axF n 8 0 8) < (s.up :: s.chatTrips n (if neg then (s.axis n).tripsN else (s.axis n).tripsP)).length)

/-- Does a trip ramp the axis to rest, as SERVICE may ask? -/
def Dev.tripRamps (s : Dev) (n : Nat) (neg : Bool) : Bool := s.axMode n = 0 && s.flag (axF n 4 (if neg then 3 else 1) 1)

theorem exec_limitTrip (s : State) (dt : Nat) {n : Nat} {neg : Bool} (hn : n < 24) (href : (s.axis n).st ≠ .homing ∨ (s.axis n).isRef neg = false) :
    exec (.limitTrip dt n neg) s = s.act fun _ =>
      let v := s.tick dt
      let u := v.limitTold n neg
      if (v.tripAxis n neg).inP && (v.tripAxis n neg).inN then (u.axHard n 14 stAxsStopped .fault).raise 0xA5
      else if v.tripsOver n neg then u.chatters n neg
      else if !v.axToward n neg then u
      else if (v.axis n).st == .homing then ((u.axHard n 12 stHomeLimit .idle).axLose n).raise 0xA2
      else if v.tripRamps n neg then u.axRamp n 4 stAxsStopped
      else u.axHard n 3 stAxsStopped .idle := by
  have href' : ¬ (((s.tick dt).axis n).st == .homing && ((s.tick dt).axis n).isRef neg) = true := by
    show ¬ ((s.axis n).st == .homing && (s.axis n).isRef neg) = true
    obtain h | h := href <;> simp [h]
  exact show execLimitTrip dt n neg s = _ from State.act_congr ((if_neg (Nat.not_le.2 hn)).trans (if_neg href'))

/-! What a trip leaves (R293) -/

/-- What the reactions to a trip keep of it: the latches, what waits, the count, and the other axes. -/
def Dev.TripKept (n : Nat) (u t : Dev) : Prop :=
  (t.axis n).latchP = (u.axis n).latchP ∧ (t.axis n).latchN = (u.axis n).latchN ∧ (∀ x ∈ u.todo, x ∈ t.todo) ∧
    t.fld (axF n 0x34 0 16) = u.fld (axF n 0x34 0 16) ∧ (∀ m, m ≠ n → t.axis m = u.axis m) ∧ RegsBut [0xC134 + 0x40 * n] u t ∧
    Frame [.regs, .axes, .hif, .out, .todo] u t

theorem Dev.TripKept.refl (n : Nat) (u : Dev) : Dev.TripKept n u u := ⟨rfl, rfl, fun _ h => h, rfl, fun _ _ => rfl, .refl _ u, .refl _ u⟩

theorem Dev.TripKept.trans {n : Nat} {u v w : Dev} (h : Dev.TripKept n u v) (k : Dev.TripKept n v w) : Dev.TripKept n u w := by
  obtain ⟨h1, h2, h3, h4, h5, h6, h7⟩ := h
  obtain ⟨k1, k2, k3, k4, k5, k6, k7⟩ := k
  exact ⟨k1.trans h1, k2.trans h2, fun x hx => k3 x (h3 x hx), k4.trans h4, fun m hm => (k5 m hm).trans (h5 m hm), h6.trans k6, h7.trans k7⟩

theorem Dev.TripKept.raise (n : Nat) (u : Dev) (x : Nat) : Dev.TripKept n u (u.raise x) :=
  ⟨rfl, rfl, fun _ h => List.mem_append_left _ h, rfl, fun _ _ => rfl, .of_frame (frame_raise u x) (by decide), (frame_raise u x).mono (by decide)⟩

/-- An axis written with the latches it has. -/
theorem Dev.TripKept.setAxis {n : Nat} {u : Dev} {a : Axis} (hp : a.latchP = (u.axis n).latchP) (hn : a.latchN = (u.axis n).latchN) :
    Dev.TripKept n u (u.setAxis n a) := by
  have hself := (u.axis_setAxis n n a).trans (if_pos rfl)
  exact ⟨by rw [hself, hp], by rw [hself, hn], fun _ h => h, rfl, fun m hm => (u.axis_setAxis n m a).trans (if_neg hm),
    .of_frame (frame_setAxis u n a) (by decide), (frame_setAxis u n a).mono (by decide)⟩

theorem Dev.TripKept.axHard (n why code : Nat) (dest : AxState) (u : Dev) : Dev.TripKept n u (u.axHard n why code dest) := by
  have hself := (u.axis_axHard n why code dest n).trans (if_pos rfl)
  have hf := frame_axHard u n why code dest
  refine ⟨by rw [hself]; rfl, by rw [hself]; rfl, fun x hx => ?_, Dev.fld_of_frame hf (by decide) _,
    fun m hm => (u.axis_axHard n why code dest m).trans (if_neg hm), .of_frame hf (by decide), hf.mono (by decide)⟩
  rw [Dev.todo_axHard]
  exact List.mem_append_left _ hx

theorem Dev.TripKept.axLose (n : Nat) (u : Dev) : Dev.TripKept n u (u.axLose n) := by
  have hself := (u.axis_axLose n n).trans (if_pos rfl)
  have hf := frame_axLose u n
  refine ⟨by rw [hself], by rw [hself], fun x hx => ?_, Dev.fld_of_frame hf (by decide) _,
    fun m hm => (u.axis_axLose n m).trans (if_neg hm), .of_frame hf (by decide), hf.mono (by decide)⟩
  rw [Dev.todo_axLose]
  exact List.mem_append_left _ hx

theorem Dev.TripKept.axRamp (n why code : Nat) (u : Dev) : Dev.TripKept n u (u.axRamp n why code) := by
  unfold Dev.axRamp
  dsimp only
  split
  · exact .setAxis rfl rfl
  · exact .refl n u

theorem Dev.fld_cntSat_chatter (u : Dev) (n : Nat) : (u.cntSat (axF n 0x34 16 16)).fld (axF n 0x34 0 16) = u.fld (axF n 0x34 0 16) :=
  Dev.fld_setFld_other u (axF n 0x34 16 16) (axF n 0x34 0 16) _ (by simp [axF]) (Or.inl (by simp [axF]))

theorem Dev.TripKept.chatters (n : Nat) (u : Dev) (neg : Bool) : Dev.TripKept n u (u.chatters n neg) := by
  have hhard := Dev.TripKept.axHard n 10 stAxsStopped .fault u
  unfold Dev.chatters
  generalize u.axHard n 10 stAxsStopped .fault = v at hhard ⊢
  have hf := frame_cntSat v (axF n 0x34 16 16)
  have hax := Dev.axis_of_frame hf (by decide)
  have hcnt : Dev.TripKept n v (v.cntSat (axF n 0x34 16 16)) :=
    ⟨by rw [hax], by rw [hax], fun _ h => h, v.fld_cntSat_chatter n, fun m _ => hax m,
      (RegsBut.cntSat v (axF n 0x34 16 16)).mono (by intro x hx; simpa [axF, Nat.add_right_comm] using hx), hf.mono (by decide)⟩
  generalize v.cntSat (axF n 0x34 16 16) = w at hcnt ⊢
  have hset : Dev.TripKept n w (w.setAxis n { w.axis n with chatter := true, faultBy := if neg then 26 else 10 }) := .setAxis rfl rfl
  exact (hhard.trans hcnt).trans (hset.trans (.raise n _ 0xA1))

/-- What is known of an axis once its trip is told. -/
theorem Dev.limitTold_spec (s : Dev) (n : Nat) (neg : Bool) :
    (s.limitTold n neg).axis n = s.tripAxis n neg ∧ (∀ m, m ≠ n → (s.limitTold n neg).axis m = s.axis m) ∧
      (s.limitTold n neg).todo = s.todo ++ [.fault 0xA0 false] ∧
      (s.limitTold n neg).fld (axF n 0x34 0 16) = satInc 16 (s.fld (axF n 0x34 0 16)) ∧ RegsBut [0xC134 + 0x40 * n] s (s.limitTold n neg) ∧
      Frame [.axes, .regs, .todo] s (s.limitTold n neg) := by
  unfold Dev.limitTold
  generalize s.tripAxis n neg = a
  have hset := fun m => s.axis_setAxis n m a
  have hf := ((frame_setAxis s n a).append (frame_cntSat _ (axF n 0x34 0 16))).append (frame_raise _ 0xA0)
  refine ⟨(hset n).trans (if_pos rfl), fun m hm => (hset m).trans (if_neg hm), rfl, Dev.fld_cntSat (s.setAxis n a) _ (by simp [axF]), ?_, hf⟩
  exact (RegsBut.cntSat (s.setAxis n a) (axF n 0x34 0 16)).mono (by intro x hx; simpa [axF, Nat.add_right_comm] using hx)

/-- The registers of an axis but those of its counters are as they were when its trip is told. -/
theorem Dev.fld_limitTold (s : Dev) (n : Nat) (neg : Bool) {o lo w : Nat} (ho : o < 0x34) :
    (s.limitTold n neg).fld (axF n o lo w) = s.fld (axF n o lo w) := by
  obtain ⟨-, -, -, -, hregs, -⟩ := s.limitTold_spec n neg
  exact hregs.fld_eq (by simp [axF]; omega)

theorem Dev.axEnc_limitTold (s : Dev) (n : Nat) (neg : Bool) : (s.limitTold n neg).axEnc n = s.axEnc n := by
  rw [Dev.axEnc, Dev.flag, s.fld_limitTold n neg (by decide)]
  rfl

theorem Dev.axEncPos_limitTold (s : Dev) (n : Nat) (neg : Bool) : (s.limitTold n neg).axEncPos n = s.axEncPos n := by
  rw [Dev.axEncPos, Dev.axEnc16, s.fld_limitTold n neg (by decide), (s.limitTold_spec n neg).1]
  rfl

theorem Dev.axPos_limitTold (s : Dev) (n : Nat) (neg : Bool) : (s.limitTold n neg).axPos n = s.axPos n := by
  have hup : (s.limitTold n neg).up = s.up := rfl
  have hpos : ∀ t, (s.tripAxis n neg).posAt t = (s.axis n).posAt t := fun _ => rfl
  rw [Dev.axPos, (s.limitTold_spec n neg).1, hup, hpos, Dev.axPos]

theorem Dev.tripAxis_both (s : Dev) (n : Nat) (neg : Bool) :
    ((s.tripAxis n neg).inP && (s.tripAxis n neg).inN) = if neg then (s.axis n).inP else (s.axis n).inN := by
  show (((s.axis n).inP || !neg) && ((s.axis n).inN || neg)) = _
  cases neg <;> simp

theorem Dev.tripsOver_false {s : Dev} {n : Nat} {neg : Bool}
    (h : (s.chatTrips n (if neg then (s.axis n).tripsN else (s.axis n).tripsP)).length < s.fld (axF n 8 0 8)) : s.tripsOver n neg = false :=
  decide_eq_false (by rw [List.length_cons]; omega)

theorem Dev.tripsOver_true {s : Dev} {n : Nat} {neg : Bool}
    (h : s.fld (axF n 8 0 8) ≤ (s.chatTrips n (if neg then (s.axis n).tripsN else (s.axis n).tripsP)).length) : s.tripsOver n neg = true :=
  decide_eq_true (by rw [List.length_cons]; omega)

theorem Dev.axToward_of {s : Dev} {n : Nat} {neg : Bool} (hst : (s.axis n).st = .moving ∨ (s.axis n).st = .homing) (hneg : s.axNeg n = neg) :
    s.axToward n neg = true := by
  unfold Dev.axToward
  obtain h | h := hst <;> simp [h, hneg]

/-- Whatever a trip brings, it is latched, counted and told, and only its axis changes. -/
theorem CompletesThen.limitTrip_told {s : State} (dt : Nat) {n : Nat} {neg : Bool} (hn : n < 24)
    (href : (s.axis n).st ≠ .homing ∨ (s.axis n).isRef neg = false) :
    CompletesThen (.limitTrip dt n neg) s fun d => (if neg then (d.axis n).latchN else (d.axis n).latchP) = true ∧
      .fault 0xA0 false ∈ d.todo ∧ d.fld (axF n 0x34 0 16) = satInc 16 (s.fld (axF n 0x34 0 16)) ∧ (∀ m, m ≠ n → d.axis m = s.axis m) ∧
      RegsBut [0xC134 + 0x40 * n] s.toDev d ∧ Frame [.clk, .out, .regs, .axes, .hif, .todo] s.toDev d := by
  have he := exec_limitTrip s dt hn href
  obtain ⟨hax, hother, htodo, hfld, hregs, hf⟩ := (s.tick dt).limitTold_spec n neg
  have hP : ((s.tick dt).tripAxis n neg).latchP = ((s.axis n).latchP || !neg) := rfl
  have hN : ((s.tick dt).tripAxis n neg).latchN = ((s.axis n).latchN || neg) := rfl
  dsimp only at he
  generalize (s.tick dt).limitTold n neg = u at he hax hother htodo hfld hregs hf
  have hkept : ∀ d, Dev.TripKept n u d → (if neg then (d.axis n).latchN else (d.axis n).latchP) = true ∧
      .fault 0xA0 false ∈ d.todo ∧ d.fld (axF n 0x34 0 16) = satInc 16 (s.fld (axF n 0x34 0 16)) ∧ (∀ m, m ≠ n → d.axis m = s.axis m) ∧
      RegsBut [0xC134 + 0x40 * n] s.toDev d ∧ Frame [.clk, .out, .regs, .axes, .hif, .todo] s.toDev d := by
    rintro d ⟨h1, h2, h3, h4, h5, h6, h7⟩
    refine ⟨?_, h3 _ (htodo ▸ List.mem_append_right _ (List.mem_singleton.2 rfl)), h4.trans hfld, fun m hm => (h5 m hm).trans (hother m hm),
      RegsBut.trans (t := u) (fun o ho => hregs o ho) h6, ((frame_tick s.toDev dt).append (hf.append h7)).mono (by decide)⟩
    rw [h1, h2, hax, hP, hN]
    cases neg <;> simp
  split at he
  · exact .of_effect he (hkept _ ((Dev.TripKept.axHard n 14 stAxsStopped .fault u).trans (.raise n _ 0xA5)))
  · split at he
    · exact .of_effect he (hkept _ (.chatters n u neg))
    · split at he
      · exact .of_effect he (hkept _ (.refl n u))
      · split at he
        · exact .of_effect he (hkept _ (((Dev.TripKept.axHard n 12 stHomeLimit .idle u).trans (.axLose n _)).trans (.raise n _ 0xA2)))
        · split at he
          · exact .of_effect he (hkept _ (.axRamp n 4 stAxsStopped u))
          · exact .of_effect he (hkept _ (.axHard n 3 stAxsStopped .idle u))

/-- The effect of a trip of an axis that travels toward the switch, without a fault (R294). -/
theorem exec_limitTrip_toward {s : State} {dt n : Nat} {neg : Bool} (hn : n < 24) (href : (s.axis n).st ≠ .homing ∨ (s.axis n).isRef neg = false)
    (hst : (s.axis n).st = .moving ∨ (s.axis n).st = .homing) (hneg : (s.tick dt).axNeg n = neg)
    (hin : (if neg then (s.axis n).inP else (s.axis n).inN) = false)
    (hchat : ((s.tick dt).chatTrips n (if neg then (s.axis n).tripsN else (s.axis n).tripsP)).length < s.fld (axF n 8 0 8)) :
    exec (.limitTrip dt n neg) s = s.act fun _ =>
      let u := (s.tick dt).limitTold n neg
      if (s.axis n).st == .homing then ((u.axHard n 12 stHomeLimit .idle).axLose n).raise 0xA2
      else if s.tripRamps n neg then u.axRamp n 4 stAxsStopped
      else u.axHard n 3 stAxsStopped .idle := by
  have htoward : (s.tick dt).axToward n neg = true := Dev.axToward_of (s := s.tick dt) hst hneg
  have hover : (s.tick dt).tripsOver n neg = false := Dev.tripsOver_false (s := s.tick dt) hchat
  have hboth : (((s.tick dt).tripAxis n neg).inP && ((s.tick dt).tripAxis n neg).inN) = false := ((s.tick dt).tripAxis_both n neg).trans hin
  rw [exec_limitTrip s dt hn href]
  dsimp only
  rw [hboth, hover, htoward, if_neg (by decide), if_neg (by decide), if_neg (by decide)]
  rfl

/-- A moving axis that meets its switch stops hard, and its move is answered (R294, R297). -/
theorem CompletesThen.limitTrip_stops {s : State} {dt n h : Nat} {neg : Bool} {m : AxMove} {l : Live} (hn : n < 24) (hst : (s.axis n).st = .moving)
    (hneg : (s.tick dt).axNeg n = neg) (hin : (if neg then (s.axis n).inP else (s.axis n).inN) = false)
    (hchat : ((s.tick dt).chatTrips n (if neg then (s.axis n).tripsN else (s.axis n).tripsP)).length < s.fld (axF n 8 0 8))
    (hramp : s.axMode n ≠ 0 ∨ s.flag (axF n 4 (if neg then 3 else 1) 1) = false) (hhome : (s.axis n).home = none)
    (hmove : (s.axis n).move = some m) (hm : m.handle = some h) (hw : s.Waits h l) :
    CompletesThen (.limitTrip dt n neg) s fun d => d.Answered l stAxsStopped (axRes (some m.txn) (d.axis n)) ∧
      (d.axis n).st = .idle ∧ (d.axis n).lastStop = 3 ∧ (d.axis n).move = none ∧ (d.axis n).legs = [] ∧
      (d.axis n).pos = (if s.axEnc n then s.axEncPos n else (s.tick dt).axPos n) ∧ (s.axEnc n = false → (d.axis n).ref = false) ∧
      (s.axEnc n = false → (s.axis n).ref = true → .fault 0xA6 false ∈ d.todo) := by
  have he := exec_limitTrip_toward hn (.inl (by rw [hst]; decide)) (.inl hst) hneg hin hchat
  have hramps : s.tripRamps n neg = false := by
    unfold Dev.tripRamps
    obtain h | h := hramp <;> simp [h]
  dsimp only at he
  rw [if_neg (by rw [hst]; decide), hramps, if_neg (by decide)] at he
  obtain ⟨hax, -, -, -, hregs, hf⟩ := (s.tick dt).limitTold_spec n neg
  have hpos : ((s.tick dt).limitTold n neg).axPos n = (s.tick dt).axPos n := (s.tick dt).axPos_limitTold n neg
  have henc : ((s.tick dt).limitTold n neg).axEnc n = s.axEnc n := (s.tick dt).axEnc_limitTold n neg
  have hencPos : ((s.tick dt).limitTold n neg).axEncPos n = s.axEncPos n := (s.tick dt).axEncPos_limitTold n neg
  have hu : (((s.tick dt).limitTold n neg).axis n).home = none ∧ (((s.tick dt).limitTold n neg).axis n).move = some m ∧
      (((s.tick dt).limitTold n neg).axis n).ref = (s.axis n).ref := by
    rw [hax]
    exact ⟨hhome, hmove, rfl⟩
  generalize (s.tick dt).limitTold n neg = u at he hregs hf hpos henc hencPos hu
  obtain ⟨hh, hmv, href⟩ := hu
  have hw' : u.Waits h l := hw.of_frame ((frame_tick s.toDev dt).append hf) (by decide)
    (hregs _ (by have := hw.2.2.2.2; simp [cqEn]; omega))
  have hd := (u.axis_axHard n 3 stAxsStopped .idle n).trans (if_pos rfl)
  have hans := Dev.axHard_answers_move 3 stAxsStopped .idle hh hmv hm hw'
  have htodo := u.todo_axHard n 3 stAxsStopped .idle
  refine .of_effect he ⟨hans, by rw [hd]; rfl, by rw [hd]; rfl, by rw [hd]; rfl, by rw [hd]; rfl, ?_, fun h => ?_, fun h h' => ?_⟩
  · rw [hd, ← henc, ← hencPos, ← hpos]
    rfl
  · rw [hd]
    show (u.axEnc n && (u.axis n).ref) = false
    rw [henc, h]
    rfl
  · rw [htodo, if_pos ⟨henc.trans h, href.trans h'⟩]
    exact List.mem_append_right _ (List.mem_singleton.2 rfl)

/-- Homing that meets a limit that is not its reference ends (R306). -/
theorem CompletesThen.limitTrip_homing {s : State} {dt n : Nat} {neg : Bool} {k : Homing} {l : Live} (hn : n < 24) (hst : (s.axis n).st = .homing)
    (hneg : (s.tick dt).axNeg n = neg) (href : (s.axis n).isRef neg = false) (hin : (if neg then (s.axis n).inP else (s.axis n).inN) = false)
    (hchat : ((s.tick dt).chatTrips n (if neg then (s.axis n).tripsN else (s.axis n).tripsP)).length < s.fld (axF n 8 0 8))
    (hhome : (s.axis n).home = some k) (hw : s.Waits k.handle l) :
    CompletesThen (.limitTrip dt n neg) s fun d => d.Answered l stHomeLimit (axRes none (d.axis n)) ∧
      (d.axis n).st = .idle ∧ (d.axis n).lastStop = 12 ∧ (d.axis n).ref = false ∧ (d.axis n).home = none ∧ .fault 0xA2 false ∈ d.todo := by
  have he := exec_limitTrip_toward hn (.inr href) (.inr hst) hneg hin hchat
  dsimp only at he
  rw [if_pos (by rw [hst]; decide)] at he
  obtain ⟨hax, -, -, -, hregs, hf⟩ := (s.tick dt).limitTold_spec n neg
  have hh : (((s.tick dt).limitTold n neg).axis n).home = some k := by
    rw [hax]
    exact hhome
  generalize (s.tick dt).limitTold n neg = u at he hregs hf hh
  have hw' : u.Waits k.handle l := hw.of_frame ((frame_tick s.toDev dt).append hf) (by decide)
    (hregs _ (by have := hw.2.2.2.2; simp [cqEn]; omega))
  have hd := (u.axis_axHard n 12 stHomeLimit .idle n).trans (if_pos rfl)
  have hans := Dev.axHard_answers_home 12 stHomeLimit .idle hh hw'
  rw [hd] at hans
  generalize u.axHard n 12 stHomeLimit .idle = v at he hd hans
  have hl := ((v.axis_axLose n n).trans (if_pos rfl)).trans (by rw [hd])
  have hfl := (frame_axLose v n).append (frame_raise (v.axLose n) 0xA2)
  have hax' := Dev.axis_of_frame (frame_raise (v.axLose n) 0xA2) (by decide) n
  refine .of_effect he ?_
  rw [hax', hl]
  exact ⟨hans.of_frame hfl (by decide), rfl, rfl, rfl, rfl, List.mem_append_right _ (List.mem_singleton.2 rfl)⟩

/-- In SERVICE a trip may ramp the axis to rest, by its own limit (R294). -/
theorem CompletesThen.limitTrip_ramps {s : State} {dt n : Nat} {neg : Bool} (hn : n < 24) (hst : (s.axis n).st = .moving)
    (hneg : (s.tick dt).axNeg n = neg) (hedge : (s.tick dt).axEdging n = false) (hin : (if neg then (s.axis n).inP else (s.axis n).inN) = false)
    (hchat : ((s.tick dt).chatTrips n (if neg then (s.axis n).tripsN else (s.axis n).tripsP)).length < s.fld (axF n 8 0 8))
    (hmode : s.axMode n = 0) (hflag : s.flag (axF n 4 (if neg then 3 else 1) 1) = true) :
    CompletesThen (.limitTrip dt n neg) s fun d => (d.axis n).st = .stopping ∧ (d.axis n).lastStop = 4 ∧
      (d.axis n).endWith = some stAxsStopped ∧ (d.axis n).move = (s.axis n).move ∧ (d.axis n).k = (s.tick dt).axKin n ∧
      (d.axis n).kAt = d.up ∧ (d.axis n).legs = haltLegs (s.fld (axF n 0x10 0 32)) 0 0 := by
  have he := exec_limitTrip_toward hn (.inl (by rw [hst]; decide)) (.inl hst) hneg hin hchat
  have hramps : s.tripRamps n neg = true := by simp [Dev.tripRamps, hmode, hflag]
  dsimp only at he
  rw [if_neg (by rw [hst]; decide), hramps, if_pos rfl] at he
  have hax := ((s.tick dt).limitTold_spec n neg).1
  have hfld : ((s.tick dt).limitTold n neg).fld (axF n 0x10 0 32) = s.fld (axF n 0x10 0 32) := (s.tick dt).fld_limitTold n neg (by decide)
  have hup : ((s.tick dt).limitTold n neg).up = (s.tick dt).up := rfl
  have hkin : ((s.tick dt).limitTold n neg).axKin n = (s.tick dt).axKin n := by
    rw [Dev.axKin, hax, hup]
    rfl
  have hedge' : ((s.tick dt).limitTold n neg).axEdging n = false := by
    rw [← hedge]
    unfold Dev.axEdging Dev.axLeft
    rw [hax]
    rfl
  have hst' : (((s.tick dt).limitTold n neg).axis n).st = .moving := by
    rw [hax]
    exact hst
  have hmv : (((s.tick dt).limitTold n neg).axis n).move = (s.axis n).move := by
    rw [hax]
    rfl
  generalize (s.tick dt).limitTold n neg = u at he hfld hkin hedge' hst' hmv
  have hramp : u.axRamp n 4 stAxsStopped = u.setAxis n { (u.axis n).drive (u.axKin n) u.up (haltLegs (u.fld (axF n 0x10 0 32)) 0 0) with
      st := .stopping, lastStop := 4, endWith := some stAxsStopped, dir := u.axNeg n, waitEn := false } :=
    if_pos (by rw [hst', hedge']; rfl)
  rw [hramp] at he
  have hself := fun a => (u.axis_setAxis n n a).trans (if_pos rfl)
  refine .of_effect he ?_
  rw [hself]
  exact ⟨rfl, rfl, rfl, hmv, hkin, rfl, by rw [← hfld]; rfl⟩

/-- Both switches of an axis at once are a fault (R295). -/
theorem CompletesThen.limitTrip_both {s : State} (dt : Nat) {n : Nat} {neg : Bool} (hn : n < 24) (hst : (s.axis n).st ≠ .homing)
    (hin : (if neg then (s.axis n).inP else (s.axis n).inN) = true) :
    CompletesThen (.limitTrip dt n neg) s fun d => (d.axis n).st = .fault ∧ (d.axis n).lastStop = 14 ∧ .fault 0xA5 false ∈ d.todo := by
  have hboth : (((s.tick dt).tripAxis n neg).inP && ((s.tick dt).tripAxis n neg).inN) = true := ((s.tick dt).tripAxis_both n neg).trans hin
  have he : exec (.limitTrip dt n neg) s = s.act fun _ => (((s.tick dt).limitTold n neg).axHard n 14 stAxsStopped .fault).raise 0xA5 := by
    rw [exec_limitTrip s dt hn (.inl hst)]
    dsimp only
    rw [if_pos hboth]
  generalize (s.tick dt).limitTold n neg = u at he
  have hd := (u.axis_axHard n 14 stAxsStopped .fault n).trans (if_pos rfl)
  have hax := Dev.axis_of_frame (frame_raise (u.axHard n 14 stAxsStopped .fault) 0xA5) (by decide) n
  refine .of_effect he ?_
  rw [hax, hd]
  exact ⟨rfl, rfl, List.mem_append_right _ (List.mem_singleton.2 rfl)⟩

/-- Too many trips in the window are a fault (R296). -/
theorem CompletesThen.limitTrip_chatters {s : State} {dt n : Nat} {neg : Bool} (hn : n < 24) (hst : (s.axis n).st ≠ .homing)
    (hin : (if neg then (s.axis n).inP else (s.axis n).inN) = false)
    (hchat : s.fld (axF n 8 0 8) ≤ ((s.tick dt).chatTrips n (if neg then (s.axis n).tripsN else (s.axis n).tripsP)).length) :
    CompletesThen (.limitTrip dt n neg) s fun d => (d.axis n).st = .fault ∧ (d.axis n).chatter = true ∧ .fault 0xA1 false ∈ d.todo ∧
      d.fld (axF n 0x34 16 16) = satInc 16 (s.fld (axF n 0x34 16 16)) := by
  have hover : (s.tick dt).tripsOver n neg = true := Dev.tripsOver_true (s := s.tick dt) hchat
  have hboth : (((s.tick dt).tripAxis n neg).inP && ((s.tick dt).tripAxis n neg).inN) = false := ((s.tick dt).tripAxis_both n neg).trans hin
  have he : exec (.limitTrip dt n neg) s = s.act fun _ => ((s.tick dt).limitTold n neg).chatters n neg := by
    rw [exec_limitTrip s dt hn (.inl hst)]
    dsimp only
    rw [hboth, hover, if_neg (by decide), if_pos rfl]
  have hcnt : ((s.tick dt).limitTold n neg).fld (axF n 0x34 16 16) = s.fld (axF n 0x34 16 16) :=
    Dev.fld_setFld_other ((s.tick dt).setAxis n ((s.tick dt).tripAxis n neg)) (axF n 0x34 0 16) (axF n 0x34 16 16) _ (by simp [axF]) (Or.inr (by simp [axF]))
  generalize (s.tick dt).limitTold n neg = u at he hcnt
  have hd := (u.axis_axHard n 10 stAxsStopped .fault n).trans (if_pos rfl)
  have hf := frame_axHard u n 10 stAxsStopped .fault
  unfold Dev.chatters at he
  generalize u.axHard n 10 stAxsStopped .fault = v at he hd hf
  have hfld : (v.cntSat (axF n 0x34 16 16)).fld (axF n 0x34 16 16) = satInc 16 (s.fld (axF n 0x34 16 16)) :=
    (Dev.fld_cntSat _ _ (by simp [axF])).trans (by rw [Dev.fld_of_frame hf (by decide), hcnt]; rfl)
  have hst' : ((v.cntSat (axF n 0x34 16 16)).axis n).st = .fault := by
    rw [Dev.axis_of_frame (frame_cntSat v _) (by decide), hd]
    rfl
  generalize v.cntSat (axF n 0x34 16 16) = w at he hfld hst'
  have hax : ((w.setAxis n { w.axis n with chatter := true, faultBy := if neg then 26 else 10 }).raise 0xA1).axis n =
      { w.axis n with chatter := true, faultBy := if neg then 26 else 10 } := (w.axis_setAxis n n _).trans (if_pos rfl)
  refine .of_effect he ?_
  rw [hax]
  exact ⟨hst', rfl, List.mem_append_right _ (List.mem_singleton.2 rfl), hfld⟩

/-- Settles O22: a trip is told in every case; what it then does to its axis is a stop, a fault, or nothing. -/
theorem aSwitchLatchesAndStopsItsAxis : Obligations.ASwitchLatchesAndStopsItsAxis := by
  refine ⟨fun s dt n neg hn href => .limitTrip_told dt hn href,
    fun s dt n h neg m l hn hst hneg hin hchat hramp hhome hmove hm hw => .limitTrip_stops hn hst hneg hin hchat hramp hhome hmove hm hw,
    fun s dt n neg hn hst hneg hedge hin hchat hmode hflag => .limitTrip_ramps hn hst hneg hedge hin hchat hmode hflag,
    fun s dt n neg k l hn hst hneg href hin hchat hhome hw => .limitTrip_homing hn hst hneg href hin hchat hhome hw,
    fun s dt n neg hn hst hin => .limitTrip_both dt hn hst hin, fun s dt n neg hn hst hin hchat => .limitTrip_chatters hn hst hin hchat,
    fun s dt n neg hs hn => ?_, fun s dt n henc => ?_⟩
  · have he : exec (.latchRelease dt n neg) s = s.act fun _ => (s.tick dt).setAxis n
        (if neg then { s.axis n with latchN := false, inN := false } else { s.axis n with latchP := false, inP := false }) :=
      show execLatchRelease dt n neg s = _ from State.act_congr (if_neg (Nat.not_le.2 hn))
    have hset := fun a m => (s.tick dt).axis_setAxis n m a
    have hf := fun a => (frame_tick s.toDev dt).append (frame_setAxis (s.tick dt) n a)
    exact .of_effect hs (hf _) he (by decide) (by decide) ⟨(hset _ n).trans (if_pos rfl), fun m hm => (hset _ m).trans (if_neg hm), hf _⟩
  · have henc' : (s.tick dt).axEnc n = true := henc
    have he : exec (.encoderError dt n) s = s.act fun _ => ((s.tick dt).axHard n 13 stAxsStopped .fault).raise 0xA4 :=
      show execEncoderError dt n s = _ from State.act_congr (if_neg (by rw [henc']; decide))
    have hax := (s.tick dt).axis_axHard n 13 stAxsStopped .fault
    have hf := (frame_tick s.toDev dt).append (frame_axHard (s.tick dt) n 13 stAxsStopped .fault)
    have hpos : ((s.tick dt).hardAxis n 13 .fault).pos = s.axEncPos n := if_pos henc'
    generalize (s.tick dt).axHard n 13 stAxsStopped .fault = u at he hax hf
    have hraise := frame_raise u 0xA4
    have hax' := Dev.axis_of_frame hraise (by decide)
    refine .of_effect he ?_
    rw [hax' n, hax n, if_pos rfl]
    exact ⟨rfl, rfl, hpos, List.mem_append_right _ (List.mem_singleton.2 rfl), fun m hm => (hax' m).trans ((hax m).trans (if_neg hm)),
      (hf.append hraise).mono (by decide)⟩

end Sys2Proof.Machine

/-! ### Axes that come to rest -/
namespace Sys2Proof.Machine

/-- An axis at rest, its move or homing ended. -/
theorem Dev.setAxis_axEnd (u : Dev) (n code : Nat) (a : Axis) :
    ((u.setAxis n a).axEnd n code).axis n = a.ended ∧ (∀ m, m ≠ n → ((u.setAxis n a).axEnd n code).axis m = u.axis m) ∧
      Frame [.axes, .hif, .out] u ((u.setAxis n a).axEnd n code) := by
  have hset := fun m => u.axis_setAxis n m a
  have hend := (u.setAxis n a).axis_axEnd n code
  refine ⟨(hend n).trans ((if_pos rfl).trans (congrArg Axis.ended ((hset n).trans (if_pos rfl)))), fun m hm => (hend m).trans ((if_neg hm).trans ((hset m).trans (if_neg hm))),
    ((frame_setAxis u n a).append (frame_axEnd _ n code)).mono (by decide)⟩

/-- An axis that comes to rest answers its move with its place and cause. -/
theorem Completes.rests_move {c : Instr} {s : State} {n h code : Nat} {m : AxMove} {l : Live} {u : Dev} {a : Axis} (hs : s.Settled)
    (hu : Frame [.clk, .out] s.toDev u) (he : exec c s = s.act fun _ => (u.setAxis n a).axEnd n code) (hhome : a.home = none)
    (hmove : a.move = some m) (hm : m.handle = some h) (hw : s.Waits h l) :
    Completes c s fun t => t.Answered l code (axRes (some m.txn) (t.axis n)) ∧ t.clk = u.clk ∧ t.axis n = a.ended ∧
      (∀ k, k ≠ n → t.axis k = s.axis k) ∧ Frame [.clk, .out, .axes, .hif] s.toDev t := by
  obtain ⟨hself, hother, hf⟩ := u.setAxis_axEnd n code a
  have hax : (u.setAxis n a).axis n = a := (u.axis_setAxis n n a).trans (if_pos rfl)
  have hfu := hu.append (frame_setAxis u n a)
  have hans := Dev.axEnd_answers_move (s := u.setAxis n a) code (by rw [hax]; exact hhome) (by rw [hax]; exact hmove) hm
    (hw.of_frame hfu (by decide) (Dev.reg_of_frame hfu (by decide) _))
  rw [hax] at hans
  generalize (u.setAxis n a).axEnd n code = t at he hself hother hf hans
  refine .of_effect hs (hu.append hf) he (by decide) (by decide) ⟨?_, hf .clk (by decide), hself,
    fun k hk => (hother k hk).trans (Dev.axis_of_frame hu (by decide) k), (hu.append hf).mono (by decide)⟩
  rw [hself]
  exact hans

/-- An axis that comes to rest answers its homing. -/
theorem Completes.rests_home {c : Instr} {s : State} {n code : Nat} {k : Homing} {l : Live} {u : Dev} {a : Axis} (hs : s.Settled)
    (hu : Frame [.clk, .out] s.toDev u) (he : exec c s = s.act fun _ => (u.setAxis n a).axEnd n code) (hhome : a.home = some k)
    (hw : s.Waits k.handle l) :
    Completes c s fun t => t.Answered l code (axRes none (t.axis n)) ∧ t.clk = u.clk ∧ t.axis n = a.ended ∧
      (∀ m, m ≠ n → t.axis m = s.axis m) ∧ Frame [.clk, .out, .axes, .hif] s.toDev t := by
  obtain ⟨hself, hother, hf⟩ := u.setAxis_axEnd n code a
  have hax : (u.setAxis n a).axis n = a := (u.axis_setAxis n n a).trans (if_pos rfl)
  have hfu := hu.append (frame_setAxis u n a)
  have hans := Dev.axEnd_answers_home (s := u.setAxis n a) code (by rw [hax]; exact hhome)
    (hw.of_frame hfu (by decide) (Dev.reg_of_frame hfu (by decide) _))
  rw [hax] at hans
  generalize (u.setAxis n a).axEnd n code = t at he hself hother hf hans
  refine .of_effect hs (hu.append hf) he (by decide) (by decide) ⟨?_, hf .clk (by decide), hself,
    fun m hm => (hother m hm).trans (Dev.axis_of_frame hu (by decide) m), (hu.append hf).mono (by decide)⟩
  rw [hself]
  exact hans

/-! The end of a move and of a ramp (R298, R300) -/

/-- The step count at the end of a move: its target and what the loop has corrected. -/
def Axis.endSteps (a : Axis) (target : Int) (up : Nat) : Int :=
  Kin.steps { s := target * nmMm + a.off + a.cor * (4 * (up - a.corAt) : Nat) / 1000000000, v := 0 }

theorem exec_targetReached (s : State) {n : Nat} {m : AxMove} (hst : (s.axis n).st = .moving) (hmode : m.mmode ≠ 3) (hmove : (s.axis n).move = some m) :
    exec (.targetReached n) s = s.act fun _ =>
      let u := s.tickUp (s.axis n).endUp
      (u.setAxis n { (s.axis n).still ((s.axis n).endSteps m.target u.up) with
        st := .idle, lastStop := 1, restAt := u.up, dir := u.axNeg n, waitEn := false }).axEnd n stOK := by
  show execTargetReached n s = _
  refine State.act_congr ?_
  dsimp only
  split
  · next h => cases h.symm.trans hmove
  · next m' h =>
    obtain rfl : m' = m := Option.some.inj (h.symm.trans hmove)
    refine (if_neg (by simp [hst, hmode])).trans ?_
    generalize hu : s.tickUp (s.axis n).endUp = u
    have hax : u.axis n = s.axis n := hu ▸ rfl
    have hsteps : Kin.steps { u.axKin n with s := m'.target * nmMm + (u.axKin n).s - ((s.axis n).prof (u.axNs (s.axis n))).s } =
        (s.axis n).endSteps m'.target u.up := by
      unfold Axis.endSteps Kin.steps Dev.axKin
      rw [hax]
      have hs : ∀ p o c x : Int, x + (p + o + c) - p = x + o + c := fun p o c x => by omega
      exact congrArg (fun x : Int => (2 * x + nmMm) / (2 * nmMm)) (hs _ _ _ _)
    rw [hsteps]

theorem exec_rampStopEnd (s : State) {n : Nat} (hst : (s.axis n).st = .stopping) :
    exec (.rampStopEnd n) s = s.act fun _ =>
      let u := s.tickUp (s.axis n).endUp
      (u.setAxis n { (s.axis n).still (u.axPos n) with st := .idle, restAt := u.up }).axEnd n ((s.axis n).endWith.getD stAxsStopped) :=
  show execRampStopEnd n s = _ from State.act_congr (if_neg (by simp [hst]))

/-! The edge of the window (R292) -/

theorem exec_hedgeEdge (s : State) (dt : Nat) {n : Nat} {w : Int × Int} (hst : (s.axis n).st = .moving ∨ (s.axis n).st = .stopping)
    (hw : s.hedge n = some w) :
    exec (.hedgeEdge dt n) s = s.act fun _ =>
      let u := s.tick dt
      if u.axPos n < w.1 ∨ w.2 < u.axPos n then u.axHard n 5 stAxsHedge .idle
      else if u.axOver n && ((u.axis n).st == .moving && match (u.axis n).move with | some m => m.mmode == 3 | none => false) then
        (u.setAxis n { (u.axis n).still (u.axPos n) with st := .idle, lastStop := 5, restAt := u.up, dir := u.axNeg n, waitEn := false }).axEnd n stAxsHedge
      else u := by
  have hst' : ((s.tick dt).axis n).st = .moving ∨ ((s.tick dt).axis n).st = .stopping := hst
  have hhoming : (((s.tick dt).axis n).st == .homing) = false := by obtain h | h := hst' <;> rw [h] <;> rfl
  have hgo : ¬ (!(((s.tick dt).axis n).st == .moving || ((s.tick dt).axis n).st == .stopping || false)) = true := by obtain h | h := hst' <;> rw [h] <;> decide
  show execHedgeEdge dt n s = _
  refine State.act_congr ?_
  dsimp only
  split
  · next h => cases h.symm.trans hw
  · next lo hi h =>
    obtain rfl : (lo, hi) = w := Option.some.inj (h.symm.trans hw)
    rw [hhoming]
    simp only [Bool.false_and, Bool.false_or]
    exact if_neg hgo

theorem Completes.hedgeEdge_rests {s : State} {dt n h : Nat} {m : AxMove} {l : Live} {w : Int × Int} {u : Dev} (hu : u = s.tick dt) (hs : s.Settled)
    (hst : (s.axis n).st = .moving) (hmode : m.mmode = 3) (hw : s.hedge n = some w) (hlo : w.1 ≤ u.axPos n) (hhi : u.axPos n ≤ w.2)
    (hover : u.axOver n = true) (hhome : (s.axis n).home = none) (hmove : (s.axis n).move = some m) (hm : m.handle = some h) (hwait : s.Waits h l) :
    Completes (.hedgeEdge dt n) s fun t => t.Answered l stAxsHedge (axRes (some m.txn) (t.axis n)) ∧
      t.axis n = { (s.axis n).still (u.axPos n) with
        st := .idle, lastStop := 5, restAt := t.up, dir := u.axNeg n, waitEn := false, move := none, home := none, endWith := none } ∧
      (∀ m, m ≠ n → t.axis m = s.axis m) ∧ Frame [.clk, .out, .axes, .hif] s.toDev t := by
  have he := exec_hedgeEdge s dt (.inl hst) hw
  have hf := frame_tick s.toDev dt
  dsimp only at he
  rw [← hu] at he hf
  have hax : u.axis n = s.axis n := Dev.axis_of_frame hf (by decide) n
  rw [if_neg (by omega), if_pos (by rw [hax, hover, hst, hmove]; simp [hmode]), hax] at he
  refine (Completes.rests_move hs hf he hhome hmove hm hwait).imp fun t ⟨hans, hclk, hself, hother, hft⟩ => ⟨hans, hself.trans ?_, hother, hft⟩
  rw [show t.up = u.up from congrArg Clock.up hclk]
  rfl

theorem CompletesThen.hedgeEdge_stops {s : State} {dt n h : Nat} {m : AxMove} {l : Live} {w : Int × Int}
    (hst : (s.axis n).st = .moving ∨ (s.axis n).st = .stopping) (hw : s.hedge n = some w) (hout : (s.tick dt).axPos n < w.1 ∨ w.2 < (s.tick dt).axPos n)
    (hhome : (s.axis n).home = none) (hmove : (s.axis n).move = some m) (hm : m.handle = some h) (hwait : s.Waits h l) :
    CompletesThen (.hedgeEdge dt n) s fun d => d.Answered l stAxsHedge (axRes (some m.txn) (d.axis n)) ∧
      (d.axis n).st = .idle ∧ (d.axis n).lastStop = 5 ∧ (s.axEnc n = false → (d.axis n).ref = false) ∧
      Frame [.clk, .out, .axes, .hif, .todo] s.toDev d := by
  have he : exec (.hedgeEdge dt n) s = s.act fun _ => (s.tick dt).axHard n 5 stAxsHedge .idle := by
    rw [exec_hedgeEdge s dt hst hw]
    dsimp only
    rw [if_pos hout]
  have hans := Dev.axHard_answers_move (s := s.tick dt) 5 stAxsHedge .idle hhome hmove hm (hwait.of_frame (frame_tick s.toDev dt) (by decide) rfl)
  have hax := ((s.tick dt).axis_axHard n 5 stAxsHedge .idle n).trans (if_pos rfl)
  have hf := (frame_tick s.toDev dt).append (frame_axHard (s.tick dt) n 5 stAxsHedge .idle)
  have henc : (s.tick dt).axEnc n = s.axEnc n := rfl
  generalize (s.tick dt).axHard n 5 stAxsHedge .idle = d at he hans hax hf
  refine .of_effect he ⟨hans, by rw [hax]; rfl, by rw [hax]; rfl, fun h => ?_, hf.mono (by decide)⟩
  rw [hax, henc, h]
  rfl

/-! Homing (R305) -/

/-- The direction in which a phase goes. -/
def Homing.way (k : Homing) (phase : Nat) : Bool := if phase = 2 then !k.neg else k.neg

/-- Where a phase came to rest. -/
def Dev.restPos (s : Dev) (n : Nat) (k : Homing) : Int :=
  if s.axOver n then s.axPos n
  else Kin.steps { (s.axis n).k with s := (s.axis n).k.s + (if k.way k.phase then -((s.phaseRest n k).1 : Int) else (s.phaseRest n k).1) }

/-- The axis between two phases. -/
def Dev.betweenPhases (s : Dev) (n : Nat) (k : Homing) : Dev := s.setAxis n (((s.axis n).still (s.restPos n k)).level k.ref (k.phase == 1))

theorem exec_homingPhaseEnd_next (s : State) {dt n : Nat} {k : Homing} (hst : (s.axis n).st = .homing) (hhome : (s.axis n).home = some k)
    (hphase : k.phase = 1 ∨ k.phase = 2) (hfound : k.found = false) (hrest : ((s.tick dt).phaseRest n k).2 = true) :
    exec (.homingPhaseEnd dt n) s = s.act fun _ => ((s.tick dt).betweenPhases n k).homePhase n k (k.phase + 1) := by
  have hst' : ((s.tick dt).axis n).st = .homing := hst
  have hhome' : ((s.tick dt).axis n).home = some k := hhome
  have h3 : k.phase ≠ 3 := by omega
  show execHomingPhaseEnd dt n s = _
  refine State.act_congr ?_
  simp only [hhome, hfound, Bool.false_eq_true, if_false, hhome', hst', h3]
  exact (if_neg (by decide)).trans (if_neg (by rw [hrest]; decide))

theorem exec_homingPhaseEnd_done (s : State) (dt : Nat) {n : Nat} {k : Homing} (hst : (s.axis n).st = .homing) (hhome : (s.axis n).home = some k)
    (hphase : k.phase = 3) (hfound : k.found = true) :
    exec (.homingPhaseEnd dt n) s = s.act fun _ =>
      let u := s.tickUp (s.axis n).endUp
      (u.setAxis n { (s.axis n).still (u.axPos n) with st := .idle, ref := true, lastStop := 1, restAt := u.up }).axEnd n stOK := by
  generalize hu : s.tickUp (s.axis n).endUp = u
  have hax : u.axis n = s.axis n := hu ▸ rfl
  have hst' : (u.axis n).st = .homing := hax ▸ hst
  have hhome' : (u.axis n).home = some k := hax ▸ hhome
  show execHomingPhaseEnd dt n s = _
  refine State.act_congr ?_
  simp only [hhome, hfound, if_true, hu, hhome', hst']
  rw [← hax]
  exact (if_neg (by rw [hphase]; decide)).trans (if_pos hphase)

theorem Axis.level_fields (a : Axis) (ref : Nat) (on : Bool) : (a.level ref on).st = a.st ∧ (a.level ref on).home = a.home ∧
    (a.level ref on).latchP = a.latchP ∧ (a.level ref on).latchN = a.latchN ∧ (a.level ref on).ref = a.ref ∧ (a.level ref on).pos = a.pos ∧
    (if ref = 0 then (a.level ref on).inH else if ref = 1 then (a.level ref on).inN else (a.level ref on).inP) = on := by
  unfold Axis.level
  split_ifs <;> simp_all

/-- A phase of homing that begins with no limit latched ahead (R305). -/
theorem Dev.homePhase_begins {s : Dev} {n : Nat} {k : Homing} {phase : Nat}
    (hlatch : (if k.way phase then (s.axis n).latchN else (s.axis n).latchP) = false) :
    ((s.homePhase n k phase).axis n).st = .homing ∧ ((s.homePhase n k phase).axis n).home = some { k with phase } ∧
      ((s.homePhase n k phase).axis n).dir = k.way phase ∧ ((s.homePhase n k phase).axis n).inH = (s.axis n).inH ∧
      ((s.homePhase n k phase).axis n).inN = (s.axis n).inN ∧ ((s.homePhase n k phase).axis n).inP = (s.axis n).inP ∧
      ((s.homePhase n k phase).axis n).en = true ∧ ((s.homePhase n k phase).axis n).short = false ∧
      ((s.homePhase n k phase).axis n).ref = (s.axis n).ref ∧ ((s.homePhase n k phase).axis n).pos = (s.axis n).pos ∧
      ((s.homePhase n k phase).axis n).waitEn = ((s.axis n).waitEn || !((s.axis n).en && !(s.axis n).stand)) ∧
      (∀ m, m ≠ n → (s.homePhase n k phase).axis m = s.axis m) ∧ Frame [.axes] s (s.homePhase n k phase) := by
  generalize hv : s.energise n = v
  have hfv : Frame [.axes] s v := hv ▸ frame_setAxis s n _
  have hother : ∀ m, m ≠ n → v.axis m = s.axis m := fun m hm => hv ▸ (s.axis_setAxis n m _).trans (if_neg hm)
  have hself : (v.axis n).inH = (s.axis n).inH ∧ (v.axis n).inN = (s.axis n).inN ∧ (v.axis n).inP = (s.axis n).inP ∧ (v.axis n).en = true ∧
      (v.axis n).short = false ∧ (v.axis n).ref = (s.axis n).ref ∧ (v.axis n).pos = (s.axis n).pos ∧
      (v.axis n).waitEn = ((s.axis n).waitEn || !((s.axis n).en && !(s.axis n).stand)) := by
    rw [← hv]
    unfold Dev.energise
    rw [Dev.axis_setAxis, if_pos rfl]
    exact ⟨rfl, rfl, rfl, rfl, rfl, rfl, rfl, rfl⟩
  obtain ⟨kin, up, legs, hphase⟩ : ∃ kin up legs, s.homePhase n k phase =
      v.setAxis n { (v.axis n).drive kin up legs with home := some { k with phase }, dir := k.way phase, st := .homing } := by
    unfold Dev.homePhase
    exact ⟨_, _, _, (if_neg (ne_true_of_eq_false hlatch)).trans (by rw [hv]; rfl)⟩
  have hset := fun m a => v.axis_setAxis n m a
  rw [hphase, hset, if_pos rfl]
  obtain ⟨h1, h2, h3, h4, h5, h6, h7, h8⟩ := hself
  exact ⟨rfl, rfl, rfl, h1, h2, h3, h4, h5, h6, h7, h8, fun m hm => ((hset m _).trans (if_neg hm)).trans (hother m hm), hfv.trans (frame_setAxis v n _)⟩

theorem Homing.way_eq (k : Homing) (phase : Nat) : k.way phase = ((phase == 2) != k.neg) := by
  unfold Homing.way
  by_cases h : phase = 2
  · subst h
    cases k.neg <;> rfl
  · rw [if_neg h, beq_eq_false_iff_ne.2 h]
    cases k.neg <;> rfl

theorem Dev.restPos_eq (s : Dev) (n : Nat) (k : Homing) : s.restPos n k = if s.axOver n = true then s.axPos n else
    Kin.steps { s := (s.axis n).k.s + (if (k.phase == 2) != k.neg then -((s.phaseRest n k).1 : Int) else (s.phaseRest n k).1), v := 0 } := by
  unfold Dev.restPos
  rw [Homing.way_eq]
  rfl

theorem Completes.homingPhaseEnd_next {s : State} {dt n : Nat} {k : Homing} {u : Dev} (hu : u = s.tick dt) (hs : s.Settled)
    (hst : (s.axis n).st = .homing) (hhome : (s.axis n).home = some k) (hphase : k.phase = 1 ∨ k.phase = 2) (hfound : k.found = false)
    (hrest : (u.phaseRest n k).2 = true) (hlatch : (if (k.phase == 1) != k.neg then (s.axis n).latchN else (s.axis n).latchP) = false) :
    Completes (.homingPhaseEnd dt n) s fun t => t.clk = u.clk ∧
      (t.axis n).st = .homing ∧ (t.axis n).home = some { k with phase := k.phase + 1 } ∧ (t.axis n).dir = ((k.phase == 1) != k.neg) ∧
      (if k.ref = 0 then (t.axis n).inH else if k.ref = 1 then (t.axis n).inN else (t.axis n).inP) = decide (k.phase = 1) ∧
      (t.axis n).en = true ∧ (t.axis n).short = false ∧ (t.axis n).ref = (s.axis n).ref ∧
      (t.axis n).pos = (if u.axOver n = true then u.axPos n else
        Kin.steps { s := (s.axis n).k.s + (if (k.phase == 2) != k.neg then -((u.phaseRest n k).1 : Int) else (u.phaseRest n k).1), v := 0 }) ∧
      (∀ m, m ≠ n → t.axis m = s.axis m) ∧ Frame [.clk, .out, .axes] s.toDev t := by
  have hf := frame_tick s.toDev dt
  have he := exec_homingPhaseEnd_next s hst hhome hphase hfound (hu ▸ hrest)
  rw [← hu] at he hf
  have hax : ∀ m, u.axis m = s.axis m := Dev.axis_of_frame hf (by decide)
  have hway : k.way (k.phase + 1) = ((k.phase == 1) != k.neg) := by
    rw [Homing.way_eq]
    obtain h | h := hphase <;> rw [h] <;> rfl
  have hrestPos := (u.restPos_eq n k).symm
  rw [hax n] at hrestPos
  have hv : (u.betweenPhases n k).axis n = ((u.axis n).still (u.restPos n k)).level k.ref (k.phase == 1) := (u.axis_setAxis n n _).trans (if_pos rfl)
  have hvo : ∀ m, m ≠ n → (u.betweenPhases n k).axis m = s.axis m := fun m hm => ((u.axis_setAxis n m _).trans (if_neg hm)).trans (hax m)
  have hfv : Frame [.axes] u (u.betweenPhases n k) := frame_setAxis u n _
  obtain ⟨-, -, l3, l4, l5, l6, l7⟩ := ((u.axis n).still (u.restPos n k)).level_fields k.ref (k.phase == 1)
  rw [← hv] at l3 l4 l5 l6 l7
  generalize u.betweenPhases n k = v at he hvo hfv l3 l4 l5 l6 l7
  have hlatch' : (if k.way (k.phase + 1) then (v.axis n).latchN else (v.axis n).latchP) = false := by
    rw [hway, l3, l4, hax n]
    exact hlatch
  obtain ⟨p1, p2, p3, p4, p5, p6, p7, p8, p9, p10, -, p11, p12⟩ := Dev.homePhase_begins hlatch'
  have hall := hf.append (hfv.trans p12)
  refine .of_effect hs hall he (by decide) (by decide) ⟨(hfv.trans p12) .clk (by decide), p1, p2, p3.trans hway, ?_, p7, p8, ?_, ?_,
    fun m hm => (p11 m hm).trans (hvo m hm), hall⟩
  · rw [p4, p5, p6, l7]
    rfl
  · rw [p9, l5, hax n]
    rfl
  · rw [p10, l6, hrestPos]
    rfl

/-- The axis that ramps to rest where the search has found nothing, and LOST (R305). -/
theorem exec_homeNotFound (s : State) {n : Nat} {k : Homing} (hst : (s.axis n).st = .homing) (hhome : (s.axis n).home = some k) (hphase : k.phase = 1) :
    exec (.homeNotFound n) s = s.act fun _ =>
      let u := s.tickUp ((s.axis n).kAt + ceilDiv (runNs k.vSearch (s.fld (axF n 0x10 0 32)) k.max_) 4)
      ((u.setAxis n { (s.axis n).drive (u.axKin n) u.up (haltLegs (s.fld (axF n 0x10 0 32)) 0 0) with
        st := .stopping, endWith := some stHomeNotFound }).axLose n).raise 0xA2 := by
  show execHomeNotFound n s = _
  refine State.act_congr ?_
  dsimp only
  split
  · next h => cases h.symm.trans hhome
  · next k' h =>
    obtain rfl : k' = k := Option.some.inj (h.symm.trans hhome)
    exact if_neg (by simp [hst, hphase])

/-- The axis at the first asserted sample of its reference (R305). -/
def Dev.homeSeen (s : Dev) (n : Nat) (cnt : Int) (k : Homing) : Axis :=
  { ((s.axis n).level k.ref true).drive
      { s.axKin n with s := (s.axKin n).s + (k.offset - (s.axis n).posAt (s.up - 2 * s.fld (axF n 4 8 10) * 2500)) * nmMm } s.up
      (haltLegs (s.fld (axF n 0x10 0 32)) 0 0) with
    encCnt := if s.axEnc n then cnt else (s.axis n).encCnt, encOff := if s.axEnc n then k.offset * 65536 else (s.axis n).encOff
    ref := true, home := some { k with found := true } }

theorem exec_homeEvent (s : State) {dt n : Nat} {cnt : Int} {k : Homing} (hst : (s.axis n).st = .homing) (hhome : (s.axis n).home = some k)
    (hphase : k.phase = 3) (hfound : k.found = false) (hup : (s.axis n).kAt ≤ (s.tick dt).up) :
    exec (.homeEvent dt n cnt) s = s.act fun _ => (s.tick dt).setAxis n ((s.tick dt).homeSeen n cnt k) := by
  show execHomeEvent dt n cnt s = _
  refine State.act_congr ?_
  generalize hu : s.tick dt = u at hup
  have hax : u.axis n = s.axis n := hu ▸ rfl
  rw [← hax] at hst hhome hup
  dsimp only
  split
  · next h => cases h.symm.trans hhome
  · next k' h =>
    obtain rfl : k' = k := Option.some.inj (h.symm.trans hhome)
    exact if_neg (by simp [hst, hphase, hfound, hup])

/-- Settles O23: an axis comes to rest by one rule, and its move or homing is answered there. -/
theorem axesComeToRestAndAnswer : Obligations.AxesComeToRestAndAnswer := by
  refine ⟨fun s n h m l u hu hs hst hmode hhome hmove hm hw => ?_, fun s n h m l u hu hs hst hhome hmove hm hw => ?_,
    fun s dt n h m l w u hu hs hst hmode hw hlo hhi hover hhome hmove hm hwait => .hedgeEdge_rests hu hs hst hmode hw hlo hhi hover hhome hmove hm hwait,
    fun s dt n h m l w hst hw hout hhome hmove hm hwait => .hedgeEdge_stops hst hw hout hhome hmove hm hwait,
    fun s dt n k u hu hs hst hhome hphase hfound hrest hlatch => .homingPhaseEnd_next hu hs hst hhome hphase hfound hrest hlatch,
    fun s dt n k l u hu hs hst hphase hfound hhome hw => ?_, fun s n k hst hhome hphase => ?_, fun s dt n cnt k u hu hs hst hhome hphase hfound hup => ?_⟩
  · have hf := frame_tickUp s.toDev (s.axis n).endUp
    have he := exec_targetReached s hst hmode hmove
    dsimp only at he
    rw [← hu] at he hf
    refine (Completes.rests_move hs hf he hhome hmove hm hw).imp fun t ⟨hans, hclk, hself, hother, hft⟩ => ⟨hans, hclk, hself.trans ?_, hother, hft⟩
    rw [show t.up = u.up from congrArg Clock.up hclk]
    rfl
  · have hf := frame_tickUp s.toDev (s.axis n).endUp
    have he := exec_rampStopEnd s hst
    dsimp only at he
    rw [← hu] at he hf
    refine (Completes.rests_move hs hf he hhome hmove hm hw).imp fun t ⟨hans, hclk, hself, hother, hft⟩ => ⟨hans, hclk, hself.trans ?_, hother, hft⟩
    rw [show t.up = u.up from congrArg Clock.up hclk]
    rfl
  · have hf := frame_tickUp s.toDev (s.axis n).endUp
    have he := exec_homingPhaseEnd_done s dt hst hhome hphase hfound
    dsimp only at he
    rw [← hu] at he hf
    refine (Completes.rests_home hs hf he hhome hw).imp fun t ⟨hans, hclk, hself, hother, hft⟩ => ⟨hans, hclk, hself.trans ?_, hother, hft⟩
    rw [show t.up = u.up from congrArg Clock.up hclk]
    rfl
  · have hup := s.tickUp_up ((s.axis n).kAt + ceilDiv (runNs k.vSearch (s.fld (axF n 0x10 0 32)) k.max_) 4)
    have hf := frame_tickUp s.toDev ((s.axis n).kAt + ceilDiv (runNs k.vSearch (s.fld (axF n 0x10 0 32)) k.max_) 4)
    have he := exec_homeNotFound s hst hhome hphase
    dsimp only at he
    generalize s.tickUp ((s.axis n).kAt + ceilDiv (runNs k.vSearch (s.fld (axF n 0x10 0 32)) k.max_) 4) = u at he hup hf
    generalize ha : ({ (s.axis n).drive (u.axKin n) u.up (haltLegs (s.fld (axF n 0x10 0 32)) 0 0) with
      st := .stopping, endWith := some stHomeNotFound } : Axis) = a at he
    have hself : (u.setAxis n a).axis n = a := (u.axis_setAxis n n a).trans (if_pos rfl)
    have hother : ∀ m, m ≠ n → (u.setAxis n a).axis m = s.axis m := fun m hm =>
      ((u.axis_setAxis n m a).trans (if_neg hm)).trans (Dev.axis_of_frame hf (by decide) m)
    have hlose := (u.setAxis n a).axis_axLose n
    have hfl := (frame_setAxis u n a).append ((frame_axLose (u.setAxis n a) n).append (frame_raise _ 0xA2))
    have hax := Dev.axis_of_frame (frame_raise ((u.setAxis n a).axLose n) 0xA2) (by decide)
    have hl : ((u.setAxis n a).axLose n).axis n = { a with ref := false } := ((hlose n).trans (if_pos rfl)).trans (by rw [hself])
    refine .of_effect he ⟨?_, ?_, ?_, ?_, List.mem_append_right _ (List.mem_singleton.2 rfl), (congrArg Clock.up (hfl .clk (by decide))).trans hup, ?_,
      fun m hm => (hax m).trans (((hlose m).trans (if_neg hm)).trans (hother m hm)), (hf.append hfl).mono (by decide)⟩
    · rw [hax, hl, ← ha]
    · rw [hax, hl, ← ha]
    · rw [hax, hl]
    · rw [hax, hl, ← ha]
      exact hhome
    · rw [hax, hl, ← ha]
      rfl
  · have hf := frame_tick s.toDev dt
    have he := exec_homeEvent s (cnt := cnt) hst hhome hphase hfound (hu ▸ hup)
    have hfld : ∀ f, (s.tick dt).fld f = s.fld f := fun _ => rfl
    have henc : (s.tick dt).axEnc n = s.axEnc n := rfl
    rw [← hu] at he hf hfld henc
    have hax : ∀ m, u.axis m = s.axis m := Dev.axis_of_frame hf (by decide)
    have hset := fun m => u.axis_setAxis n m (u.homeSeen n cnt k)
    have hall := hf.append (frame_setAxis u n (u.homeSeen n cnt k))
    have hst' : (u.homeSeen n cnt k).st = .homing := ((u.axis n).level_fields k.ref true).1.trans (by rw [hax]; exact hst)
    refine .of_effect hs hall he (by decide) (by decide) ?_
    have hself : (u.setAxis n (u.homeSeen n cnt k)).axis n = u.homeSeen n cnt k := (hset n).trans (if_pos rfl)
    rw [Dev.axEnc16, hself]
    refine ⟨rfl, rfl, rfl, hst', ?_, ?_, fun h => ?_, fun m hm => ((hset m).trans (if_neg hm)).trans (hax m), hall⟩
    · rw [← hfld, ← hax n]
      rfl
    · rw [← hfld]
      rfl
    · show (if u.axEnc n then cnt else _) * _ + (if u.axEnc n then k.offset * 65536 else _) = _
      rw [henc, h, if_pos rfl, if_pos rfl, ← hfld]
      rfl

end Sys2Proof.Machine

/-! ### Axes by command -/
namespace Sys2Proof.Machine

/-! The end of another command (R373) leaves one that waits waiting, or answers it -/

theorem Dev.Waits.doneRaw_ne {s : Dev} {h h' : Nat} {l : Live} (hw : s.Waits h l) (hne : h' ≠ h) (code : Nat) (res : List Byte) :
    (s.doneRaw h' code res).Waits h l := by
  obtain ⟨hl, ho, he, hh, hcq⟩ := hw
  have hreg : (s.doneRaw h' code res).flag (cqEn l.cq) = true := by
    rw [Dev.flag_of_frame (frame_doneRaw s h' code res) (by decide)]
    exact he
  have hrest : (s.hif.live.filter fun x => x.handle != h').find? (fun x => x.handle == h) = some l := by
    rw [List.find?_filter]
    refine Eq.trans (congrArg (fun p => s.hif.live.find? p) (funext fun x => ?_)) hl
    by_cases hx : x.handle = h
    · simp [hx, Ne.symm hne]
    · simp [hx]
  suffices hsuff : (s.doneRaw h' code res).hif.live.find? (fun x => x.handle == h) = some l ∧ ((s.doneRaw h' code res).cq l.cq).hold = [] from
    ⟨hsuff.1, ho, hreg, hsuff.2, hcq⟩
  unfold Dev.doneRaw
  dsimp only
  split
  · next l' _ =>
    split
    · exact ⟨hrest, hh⟩
    · split
      · next hany =>
        refine ⟨hl, ?_⟩
        rw [Dev.cq_setCq]
        split
        · next heq =>
          rw [← heq, hh] at hany
          cases hany
        · exact hh
      · split
        · rw [Dev.live_cqWrite, Dev.hold_cqWrite]
          exact ⟨hrest, hh⟩
        · rw [Dev.live_cqLose, Dev.hold_cqLose]
          exact ⟨hrest, hh⟩
  · exact ⟨hl, hh⟩

/-- A command answered with nothing more to say stays answered. -/
theorem Dev.Answered.doneRaw {s : Dev} {l : Live} {code : Nat} {res : List Byte} (h : s.Answered l code res) (h' c : Nat) (b : List Byte) :
    (s.doneRaw h' c b).Answered l code res := by
  obtain ⟨hl, e, he, hrest⟩ := h
  refine ⟨?_, e, Dev.mem_doneRaw he, hrest⟩
  rw [Dev.live?, List.find?_eq_none] at hl ⊢
  exact fun x hx => hl x (Dev.live_doneRaw_sub _ _ _ _ x hx)

theorem Dev.Answered.settleFences (n : Nat) : ∀ {s : Dev} {l : Live} {code : Nat} {res : List Byte}, s.Answered l code res →
    (s.settleFences n).Answered l code res := by
  induction n with
  | zero => exact fun h => h
  | succ n ih =>
    intro s l code res h
    unfold Dev.settleFences
    split
    · exact ih (h.doneRaw _ _ _)
    · exact h

theorem Dev.Answered.done {s : Dev} {l : Live} {code : Nat} {res : List Byte} (h : s.Answered l code res) (h' c : Nat) (b : List Byte) :
    (s.done h' c b).Answered l code res := (h.doneRaw h' c b).settleFences _

theorem Dev.Waits.answeredRaw {s : Dev} {h : Nat} {l : Live} (hw : s.Waits h l) (code : Nat) (res : List Byte) :
    (s.doneRaw h code res).Answered l code res := by
  obtain ⟨hl, ho, he, hh, -⟩ := hw
  have hd := Dev.live?_handle hl
  have hraw : s.doneRaw h code res = (s.setLive (s.hif.live.filter fun x => x.handle != h)).cqWrite l.cq (cmdEntry .done l code res) := by
    unfold Dev.doneRaw
    simp [hl, ho, hh, he]
  refine ⟨?_, { cmdEntry .done l code res with phase := (s.cq l.cq).phase, lost := (s.cq l.cq).lostFlag, handle := l.handle % 2 ^ 32 }, ?_,
    rfl, rfl, rfl, rfl, rfl, rfl⟩
  · rw [Dev.live?, List.find?_eq_none]
    intro x hx
    have := Dev.live?_doneRaw hl (by rw [hh]; nofun) x hx
    simpa [hd] using this
  · rw [hraw, Dev.ring_cqWrite, if_pos rfl]
    exact List.mem_append_right _ (List.mem_singleton.2 rfl)

/-- Fences that end leave a command that waits waiting, or answer it as one of themselves. -/
theorem Dev.Waits.settleFences (n : Nat) : ∀ {s : Dev} {h : Nat} {l : Live}, s.Waits h l →
    (s.settleFences n).Waits h l ∨ (s.settleFences n).Answered l 0 [] := by
  induction n with
  | zero => exact fun hw => .inl hw
  | succ n ih =>
    intro s h l hw
    unfold Dev.settleFences
    split
    · next f _ =>
      by_cases hf : f.handle = h
      · rw [hf]
        exact .inr ((hw.answeredRaw 0 []).settleFences n)
      · exact ih (hw.doneRaw_ne hf 0 [])
    · exact .inl hw

/-- The end of another command, and then of this one with status OK. -/
theorem Dev.Waits.done_done {s : Dev} {h h' : Nat} {l : Live} (hw : s.Waits h l) (hne : h' ≠ h) (c : Nat) (b : List Byte) :
    (s.done h' c b).Waits h l ∨ (s.done h' c b).Answered l 0 [] := (hw.doneRaw_ne hne c b).settleFences _

/-- However the axis ends its own command, another is then answered OK. -/
theorem Dev.axEnd_then_done {s : Dev} {n h : Nat} {l : Live} (code : Nat) (hw : s.Waits h l) (hhome : (s.axis n).home.map (·.handle) ≠ some h)
    (hmove : (s.axis n).move.bind (·.handle) ≠ some h) : ((s.axEnd n code).done h stOK []).Answered l stOK [] := by
  have hw' : (s.setAxis n (s.axis n).ended).Waits h l := hw
  suffices hsuff : (s.axEnd n code).Waits h l ∨ (s.axEnd n code).Answered l 0 [] by
    obtain hw | ha := hsuff
    · exact hw.done stOK []
    · exact ha.done h stOK []
  unfold Dev.axEnd
  dsimp only
  split
  · next k hk =>
    rw [hk] at hhome
    exact hw'.done_done (fun h => hhome (congrArg some h)) _ _
  · next m _ hm =>
    rw [hm] at hmove
    cases hh : m.handle with
    | none => exact .inl hw'
    | some h' => exact hw'.done_done (fun h => hmove (hh.trans (congrArg some h))) _ _
  · exact .inl hw'

/-- A legal homing breaks no rule of its command (R305). -/
theorem homeOk_firstBad {s : Dev} {l : Live} {n : Nat} (h : s.HomeOk l n) :
    firstBad [(1 ≤ l.p 0 4 && l.p 0 4 < 2 ^ 31, 24), (1 ≤ l.p 4 4 && l.p 4 4 ≤ s.fld (axF n 0xC 0 21), 28),
      (1 ≤ l.p 8 4 && l.p 8 4 ≤ s.fld (axF n 0xC 0 21) && l.p 8 4 ≤ l.p 4 4, 32), (1 ≤ l.p 12 4 && l.p 12 4 ≤ 1000000, 36),
      (l.p 21 1 ≤ 2, 45), (l.p 22 1 ≤ 1 && !(l.p 21 1 == 1 && l.p 22 1 == 0) && !(l.p 21 1 == 2 && l.p 22 1 == 1), 46)] = none := by
  obtain ⟨h1, h2, h3, h4, h5, h6, h7, h8, h9, h10, h11, h12⟩ := h
  have h13 : l.p 8 4 ≤ s.fld (axF n 0xC 0 21) := h6.trans h4
  have hnot1 : (l.p 21 1 == 1 && l.p 22 1 == 0) = false := by
    rw [Bool.and_eq_false_iff]
    by_cases h : l.p 21 1 = 1
    · right
      simp [h11 h]
    · left
      simpa using h
  have hnot2 : (l.p 21 1 == 2 && l.p 22 1 == 1) = false := by
    rw [Bool.and_eq_false_iff]
    by_cases h : l.p 21 1 = 2
    · right
      simp [h12 h]
    · left
      simpa using h
  have h2' : l.p 0 4 < 2147483648 := h2
  unfold firstBad
  simp [h1, h2', h3, h4, h5, h6, h7, h8, h9, h10, h13, hnot1, hnot2]

theorem frame_refuse (s : Dev) (h code : Nat) (o : Option Nat) : Frame [.hif, .out] s (s.refuse h code o) := frame_done s h code _

/-- A homing in FLEET_STOP or SAFE is refused (R26). -/
theorem Completes.axisHome_refused {s : State} {h : Nat} {seen : Bool} {l : Live} (hs : s.Settled) (hr : s.Runs h 0x69 l) (hok : s.HomeOk l (l.p 20 1))
    (hrun : s.saf.run = .fleetStop ∨ s.saf.run = .safe) :
    Completes (.axisHome h seen) s fun t => t.Answered l (if s.saf.run = .safe then stSafe else stStopped) (offsetRes none) ∧
      Frame [.out, .hif] s.toDev t := by
  have hheld : s.motionHeld = false := by
    unfold Dev.motionHeld
    obtain h | h := hrun <;> rw [h] <;> rfl
  have href : (s.begin.markStarted h).motionRefusal = some (if s.saf.run = .safe then stSafe else stStopped) := by
    show s.motionRefusal = _
    unfold Dev.motionRefusal
    obtain h | h := hrun <;> rw [h] <;> rfl
  have hbad := homeOk_firstBad (s := s.begin.markStarted h) (n := l.p 20 1) hok
  have he : exec (.axisHome h seen) s = s.act fun _ => (s.begin.markStarted h).refuse h (if s.saf.run = .safe then stSafe else stStopped) none := by
    show execAxisHome h seen s = _
    refine State.act_congr ((if_neg (by rw [hheld]; decide)).trans ((Dev.command_eq _ hr).trans ?_))
    dsimp only
    rw [hbad, href]
  have hf : Frame [.out, .hif] s.toDev ((s.begin.markStarted h).refuse h (if s.saf.run = .safe then stSafe else stStopped) none) :=
    (frame_begin_markStarted _ h).trans ((frame_refuse _ h _ _).mono (by decide))
  exact .of_effect hs hf he (by decide) (by decide) ⟨Dev.run_done _ _ hr, hf⟩

/-- The homing that a command asks for. -/
def askedHoming (l : Live) (h : Nat) : Homing :=
  { handle := h, ref := l.p 21 1, neg := decide (l.p 22 1 = 1), vSearch := l.p 4 4, vLatch := l.p 8 4, backoff := l.p 12 4
    offset := l.ps 16 4, max_ := l.p 0 4, phase := 1 }

theorem exec_axisHome_begins {s : State} {h n : Nat} {seen : Bool} {l : Live} (hr : s.Runs h 0x69 l) (hn : l.p 20 1 = n) (hok : s.HomeOk l n)
    (hrun : s.saf.run = .run) (hst : (s.axis n).st = .idle) (hA : s.saf.latchA = false) (hB : s.saf.latchB = false) :
    exec (.axisHome h seen) s = s.act fun _ =>
      ((s.begin.markStarted h).setAxis n (((s.begin.markStarted h).axis n).level (l.p 21 1) seen)).homePhase n (askedHoming l h) (if seen then 2 else 1) := by
  subst hn
  have hheld : s.motionHeld = false := by
    unfold Dev.motionHeld
    rw [hrun]
    rfl
  have href : (s.begin.markStarted h).motionRefusal = none := by
    show s.motionRefusal = _
    unfold Dev.motionRefusal
    rw [hrun]
  have hbad := homeOk_firstBad (s := s.begin.markStarted h) (n := l.p 20 1) hok
  have hlatch : (s.begin.markStarted h).stopLatched = false := by
    show (s.saf.latchA || s.saf.latchB) = false
    rw [hA, hB]
    rfl
  have hidle : ((s.begin.markStarted h).axis (l.p 20 1)).st = .idle := hst
  show execAxisHome h seen s = _
  refine State.act_congr ((if_neg (by rw [hheld]; decide)).trans ((Dev.command_eq _ hr).trans ?_))
  dsimp only
  rw [hbad, href]
  exact (if_neg (by rw [hidle]; decide)).trans ((if_neg (by rw [hlatch]; decide)).trans rfl)

theorem Completes.axisHome_begins {s : State} {h n : Nat} {seen : Bool} {l : Live} (hs : s.Settled) (hr : s.Runs h 0x69 l) (hn : l.p 20 1 = n)
    (hok : s.HomeOk l n) (hrun : s.saf.run = .run) (hst : (s.axis n).st = .idle) (hA : s.saf.latchA = false) (hB : s.saf.latchB = false)
    (hlatch : (if seen != decide (l.p 22 1 = 1) then (s.axis n).latchN else (s.axis n).latchP) = false) :
    Completes (.axisHome h seen) s fun t => t.Begun l ∧ (t.axis n).st = .homing ∧ (t.axis n).dir = (seen != decide (l.p 22 1 = 1)) ∧
      (t.axis n).en = true ∧ (t.axis n).short = false ∧ (t.axis n).pos = (s.axis n).pos ∧
      (t.axis n).waitEn = ((s.axis n).waitEn || !((s.axis n).en && !(s.axis n).stand)) ∧
      (t.axis n).home = some { askedHoming l h with phase := if seen then 2 else 1 } ∧ (∀ m, m ≠ n → t.axis m = s.axis m) ∧
      Frame [.out, .hif, .axes] s.toDev t := by
  have he := exec_axisHome_begins (seen := seen) hr hn hok hrun hst hA hB
  have hway : (askedHoming l h).way (if seen then 2 else 1) = (seen != decide (l.p 22 1 = 1)) := by
    rw [Homing.way_eq]
    cases seen <;> rfl
  have hfb := frame_begin_markStarted s.toDev h
  have hbegun := hr.begun
  generalize s.begin.markStarted h = b at he hfb hbegun
  have hb : ∀ m, b.axis m = s.axis m := Dev.axis_of_frame hfb (by decide)
  have hset := fun m => b.axis_setAxis n m ((b.axis n).level (l.p 21 1) seen)
  have hfs := frame_setAxis b n ((b.axis n).level (l.p 21 1) seen)
  obtain ⟨-, -, l3, l4, l5, l6, -⟩ := (b.axis n).level_fields (l.p 21 1) seen
  have hlev : ((b.axis n).level (l.p 21 1) seen).waitEn = (b.axis n).waitEn ∧ ((b.axis n).level (l.p 21 1) seen).en = (b.axis n).en ∧
      ((b.axis n).level (l.p 21 1) seen).stand = (b.axis n).stand := by
    unfold Axis.level
    split_ifs <;> exact ⟨rfl, rfl, rfl⟩
  have hvn : (b.setAxis n ((b.axis n).level (l.p 21 1) seen)).axis n = (b.axis n).level (l.p 21 1) seen := (hset n).trans (if_pos rfl)
  have hvo : ∀ m, m ≠ n → (b.setAxis n ((b.axis n).level (l.p 21 1) seen)).axis m = s.axis m := fun m hm => ((hset m).trans (if_neg hm)).trans (hb m)
  rw [← hvn] at l3 l4 l6 hlev
  generalize b.setAxis n ((b.axis n).level (l.p 21 1) seen) = v at he hfs l3 l4 l6 hlev hvo
  obtain ⟨w1, w2, w3⟩ := hlev
  have hlatch' : (if (askedHoming l h).way (if seen then 2 else 1) then (v.axis n).latchN else (v.axis n).latchP) = false := by
    rw [hway, l3, l4, hb]
    exact hlatch
  obtain ⟨p1, p2, p3, -, -, -, p7, p8, -, p10, p11, p12, p13⟩ := Dev.homePhase_begins hlatch'
  have hall := hfb.append (hfs.trans p13)
  refine .of_effect hs hall he (by decide) (by decide) ⟨?_, p1, p3.trans hway, p7, p8, ?_, ?_, p2, fun m hm => (p12 m hm).trans (hvo m hm), hall⟩
  · unfold Dev.Begun Dev.live? at hbegun ⊢
    rwa [(hfs.trans p13) .hif (by decide)]
  · rw [p10, l6, hb]
  · rw [p11, w1, w2, w3, hb]

/-! Standstill and the wait of the enable (R304) -/

/-- One axis set after a tick of the clock. -/
theorem Completes.axisSet {c : Instr} {s : State} {n up : Nat} {a b : Axis} (hs : s.Settled) (hab : a = b)
    (he : exec c s = s.act fun _ => (s.tickUp up).setAxis n a) :
    Completes c s fun t => t.axis n = b ∧ t.up = max s.up up ∧ (∀ m, m ≠ n → t.axis m = s.axis m) ∧ Frame [.clk, .out, .axes] s.toDev t := by
  subst hab
  have hup := s.tickUp_up up
  have hfu := frame_tickUp s.toDev up
  generalize s.tickUp up = u at he hup hfu
  have hset := fun m => u.axis_setAxis n m a
  have hf := (hfu.append (frame_setAxis u n a)).mono (d := [.clk, .out, .axes]) (by decide)
  exact .of_effect hs hf he (by decide) (by decide) ⟨(hset n).trans (if_pos rfl), hup,
    fun m hm => ((hset m).trans (if_neg hm)).trans (Dev.axis_of_frame hfu (by decide) m), hf⟩

theorem Completes.standstill {s : State} {n : Nat} (hs : s.Settled) (hn : n < 24) (hst : (s.axis n).st = .idle) (hstand : (s.axis n).stand = false) :
    Completes (.standstill n) s fun t => t.axis n = { s.axis n with
          stand := true, en := (s.axis n).en && s.fld (axF n 0 4 2) == 0, short := decide (s.fld (axF n 0 4 2) = 2) } ∧
        t.up = max s.up ((s.axis n).restAt + s.fld (axF n 0x20 24 8) * 10 * cycMs) ∧ (∀ m, m ≠ n → t.axis m = s.axis m) ∧ Frame [.clk, .out, .axes] s.toDev t := by
  have he : exec (.standstill n) s = s.act fun _ => (s.tickUp ((s.axis n).restAt + s.fld (axF n 0x20 24 8) * 10 * cycMs)).setAxis n { s.axis n with
      stand := true, en := if s.fld (axF n 0 4 2) = 0 then (s.axis n).en else false, short := decide (s.fld (axF n 0 4 2) = 2) } :=
    show execStandstill n s = _ from State.act_congr (if_neg (by simp [hst, hstand, hn]))
  refine .axisSet hs ?_ he
  split
  · next h => simp [h]
  · next h => simp [h]

theorem Completes.enDelayEnd {s : State} {n : Nat} (hs : s.Settled) (hw : (s.axis n).waitEn = true) :
    Completes (.enDelayEnd n) s fun t => t.axis n = { s.axis n with waitEn := false } ∧ t.up = max s.up ((s.axis n).enAt + s.fld (axF n 0 24 8) * cycMs) ∧
      (∀ m, m ≠ n → t.axis m = s.axis m) ∧ Frame [.clk, .out, .axes] s.toDev t := by
  have he : exec (.enDelayEnd n) s = s.act fun _ => (s.tickUp ((s.axis n).enAt + s.fld (axF n 0 24 8) * cycMs)).setAxis n { s.axis n with waitEn := false } :=
    show execEnDelayEnd n s = _ from State.act_congr (if_pos hw)
  exact .axisSet hs rfl he

/-! AXIS_STOP (R299) -/

theorem Dev.axis_axRamp (s : Dev) (n why code : Nat) :
    ((s.axis n).st = .moving ∧ s.axEdging n = false ∨ (s.axis n).st = .homing → (s.axRamp n why code).axis n =
      { (s.axis n).drive (s.axKin n) s.up (haltLegs (s.fld (axF n 0x10 0 32)) 0 0) with
        st := .stopping, lastStop := why, endWith := some code, dir := s.axNeg n, waitEn := false }) ∧
      (((s.axis n).st = .moving → s.axEdging n = true) → (s.axis n).st ≠ .homing → (s.axRamp n why code).axis n = s.axis n) ∧
      (∀ m, m ≠ n → (s.axRamp n why code).axis m = s.axis m) := by
  unfold Dev.axRamp
  dsimp only
  refine ⟨fun h => ?_, fun h h' => ?_, fun m hm => ?_⟩
  · rw [if_pos (by obtain ⟨h, he⟩ | h := h <;> simp [*]), Dev.axis_setAxis, if_pos rfl]
  · rw [if_neg (by simpa [h'] using h)]
  · split
    · rw [Dev.axis_setAxis, if_neg hm]
    · rfl

theorem exec_axisStop {s : State} {h n : Nat} {l : Live} (hr : s.Runs h 0x6A l) (hn : l.p 0 1 = n) :
    (l.p 1 1 = 1 → exec (.axisStop h) s = s.act fun _ => ((s.begin.markStarted h).axRamp n 2 stAxsStopped).done h stOK []) ∧
    (l.p 1 1 = 2 → exec (.axisStop h) s = s.act fun _ =>
      (if (s.axis n).atRest then s.begin.markStarted h else (s.begin.markStarted h).axHard n 2 stAxsStopped .idle).done h stOK []) ∧
    (l.p 1 1 = 3 → exec (.axisStop h) s = s.act fun _ =>
      if (s.axis n).st != .fault then (s.begin.markStarted h).done h stAxsState []
      else if s.axFaultHolds n then (s.begin.markStarted h).done h stAxsFault []
      else ((s.begin.markStarted h).setAxis n { s.axis n with
        st := .idle, chatter := false, faultBy := 0, restAt := s.up, stand := false }).done h stOK []) := by
  subst hn
  refine ⟨fun hp => ?_, fun hp => ?_, fun hp => ?_⟩
  all_goals
    show execAxisStop h s = _
    refine State.act_congr ((Dev.command_eq _ hr).trans ?_)
    dsimp only
    rw [hp]
    rfl

theorem Completes.axisStop_ramps {s : State} {h n : Nat} {l : Live} (hs : s.Settled) (hr : s.Runs h 0x6A l) (hn : l.p 0 1 = n) (hp : l.p 1 1 = 1) :
    Completes (.axisStop h) s fun t => t.Answered l stOK [] ∧
        ((s.axis n).st = .moving ∧ s.axEdging n = false ∨ (s.axis n).st = .homing →
          t.axis n = { (s.axis n).drive (s.axKin n) s.up (haltLegs (s.fld (axF n 0x10 0 32)) 0 0) with
            st := .stopping, lastStop := 2, endWith := some stAxsStopped, dir := s.axNeg n, waitEn := false }) ∧
        (((s.axis n).st = .moving → s.axEdging n = true) → (s.axis n).st ≠ .homing → t.axis n = s.axis n) ∧ (∀ m, m ≠ n → t.axis m = s.axis m) ∧
        Frame [.out, .hif, .axes] s.toDev t := by
  have he := (exec_axisStop hr hn).1 hp
  have hfb := frame_begin_markStarted s.toDev h
  have hr1 := frame_axRamp (s.begin.markStarted h) n 2 stAxsStopped
  have hfr := hfb.append hr1
  obtain ⟨r1, r2, r3⟩ := Dev.axis_axRamp (s.begin.markStarted h) n 2 stAxsStopped
  have hw : ((s.begin.markStarted h).axRamp n 2 stAxsStopped).Waits h { l with started := true } := hr.waits.of_frame hr1 (by decide) (Dev.reg_of_frame hr1 (by decide) _)
  have hans := hw.done stOK []
  have hfd := frame_done ((s.begin.markStarted h).axRamp n 2 stAxsStopped) h stOK []
  have hax := Dev.axis_of_frame hfd (by decide)
  have hf := (hfr.append hfd).mono (d := [.out, .hif, .axes]) (by decide)
  exact .of_effect hs hf he (by decide) (by decide) ⟨hans, fun h => (hax n).trans (r1 h), fun h h' => (hax n).trans (r2 h h'),
    fun m hm => (hax m).trans (r3 m hm), hf⟩

theorem CompletesThen.axisStop_hard {s : State} {h n : Nat} {l : Live} (hr : s.Runs h 0x6A l) (hn : l.p 0 1 = n) (hp : l.p 1 1 = 2)
    (hmoves : (s.axis n).atRest = false) (hhome : (s.axis n).home.map (·.handle) ≠ some h) (hmove : (s.axis n).move.bind (·.handle) ≠ some h) :
    CompletesThen (.axisStop h) s fun d => d.Answered l stOK [] ∧ (d.axis n).st = .idle ∧ (d.axis n).lastStop = 2 ∧
        (d.axis n).move = none ∧ (d.axis n).home = none ∧ (∀ m, m ≠ n → d.axis m = s.axis m) ∧ Frame [.out, .hif, .axes, .todo] s.toDev d := by
  have he := ((exec_axisStop hr hn).2.1 hp).trans (congrArg (fun d : Dev => s.act fun _ => d.done h stOK []) (if_neg (by rw [hmoves]; decide)))
  have hfb := frame_begin_markStarted s.toDev h
  have hh1 := frame_axHalt (s.begin.markStarted h) n 2 .idle
  have hax1 := (s.begin.markStarted h).axis_axHalt n 2 .idle n
  rw [if_pos rfl] at hax1
  have hw : ((s.begin.markStarted h).axHalt n 2 .idle).Waits h { l with started := true } := hr.waits.of_frame hh1 (by decide) (Dev.reg_of_frame hh1 (by decide) _)
  have hans := Dev.axEnd_then_done stAxsStopped hw (by rw [hax1]; exact hhome) (by rw [hax1]; exact hmove)
  have hax2 := (s.begin.markStarted h).axis_axHard n 2 stAxsStopped .idle
  have hfe := frame_axEnd ((s.begin.markStarted h).axHalt n 2 .idle) n stAxsStopped
  rw [← Dev.axHard_eq] at hans hfe
  have hfd := frame_done ((s.begin.markStarted h).axHard n 2 stAxsStopped .idle) h stOK []
  have hax := fun m => (Dev.axis_of_frame hfd (by decide) m).trans (hax2 m)
  have hself := (hax n).trans (if_pos rfl)
  refine .of_effect he ⟨hans, ?_, ?_, ?_, ?_, fun m hm => (hax m).trans (if_neg hm), (((hfb.append hh1).append hfe).append hfd).mono (by decide)⟩
  all_goals
    rw [hself]
    rfl

theorem Completes.axisStop_clears {s : State} {h n : Nat} {l : Live} (hs : s.Settled) (hr : s.Runs h 0x6A l) (hn : l.p 0 1 = n) (hp : l.p 1 1 = 3) :
    Completes (.axisStop h) s fun t =>
        ((s.axis n).st ≠ .fault → t.Answered l stAxsState [] ∧ t.axis n = s.axis n) ∧
        ((s.axis n).st = .fault → s.axFaultHolds n = true → t.Answered l stAxsFault [] ∧ t.axis n = s.axis n) ∧
        ((s.axis n).st = .fault → s.axFaultHolds n = false → t.Answered l stOK [] ∧ (t.axis n).st = .idle ∧ (t.axis n).chatter = false) ∧
        (∀ m, m ≠ n → t.axis m = s.axis m) ∧ Frame [.out, .hif, .axes] s.toDev t := by
  have he := (exec_axisStop hr hn).2.2 hp
  have hfb := frame_begin_markStarted s.toDev h
  have hw := hr.waits
  have hb : ∀ m, (s.begin.markStarted h).axis m = s.axis m := Dev.axis_of_frame hfb (by decide)
  generalize s.begin.markStarted h = b at he hfb hw hb
  by_cases hst : (s.axis n).st = .fault
  · rw [if_neg (by simp [hst])] at he
    cases hh : s.axFaultHolds n
    · rw [if_neg (by rw [hh]; decide)] at he
      have hfs := frame_setAxis b n { s.axis n with st := .idle, chatter := false, faultBy := 0, restAt := s.up, stand := false }
      have hset := fun m => b.axis_setAxis n m { s.axis n with st := .idle, chatter := false, faultBy := 0, restAt := s.up, stand := false }
      have hw' := hw.of_frame hfs (by decide) (Dev.reg_of_frame hfs (by decide) _)
      generalize b.setAxis n { s.axis n with st := .idle, chatter := false, faultBy := 0, restAt := s.up, stand := false } = v at he hfs hset hw'
      have hfd := frame_done v h stOK []
      have hax := fun m => (Dev.axis_of_frame hfd (by decide) m).trans (hset m)
      have hf := ((hfb.append hfs).append hfd).mono (d := [.out, .hif, .axes]) (by decide)
      refine .of_effect hs hf he (by decide) (by decide) ⟨fun h => absurd hst h, fun _ h => Bool.noConfusion h, fun _ _ => ⟨hw'.done stOK [], ?_⟩,
        fun m hm => ((hax m).trans (if_neg hm)).trans (hb m), hf⟩
      rw [hax n, if_pos rfl]
      exact ⟨rfl, rfl⟩
    · rw [if_pos hh] at he
      have hfd := frame_done b h stAxsFault []
      have hax := fun m => (Dev.axis_of_frame hfd (by decide) m).trans (hb m)
      have hf := (hfb.append hfd).mono (d := [.out, .hif, .axes]) (by decide)
      exact .of_effect hs hf he (by decide) (by decide) ⟨fun h => absurd hst h, fun _ _ => ⟨hw.done stAxsFault [], hax n⟩, fun _ h => Bool.noConfusion h,
        fun m _ => hax m, hf⟩
  · rw [if_pos (by simpa using hst)] at he
    have hfd := frame_done b h stAxsState []
    have hax := fun m => (Dev.axis_of_frame hfd (by decide) m).trans (hb m)
    have hf := (hfb.append hfd).mono (d := [.out, .hif, .axes]) (by decide)
    exact .of_effect hs hf he (by decide) (by decide) ⟨fun _ => ⟨hw.done stAxsState [], hax n⟩, fun h => absurd h hst, fun h => absurd h hst,
      fun m _ => hax m, hf⟩

/-- Settles O24: the standstill action and the wait of the enable set one axis, a homing that is refused changes none and one that begins energises
its axis, and AXIS_STOP answers its own command whichever move or homing it ends. -/
theorem axesAreEnergisedHomedAndStopped : Obligations.AxesAreEnergisedHomedAndStopped := by
  refine ⟨fun _ _ => .standstill, ?_, fun _ _ _ _ _ => .axisHome_begins, fun _ _ _ _ => .axisHome_refused, fun _ _ _ _ => .axisStop_ramps,
    fun _ _ _ _ => .axisStop_hard, fun _ _ _ _ => .axisStop_clears⟩
  intro s n hs hw
  exact (Completes.enDelayEnd hs hw).imp fun t ⟨ha, hup, ho, hf⟩ => ⟨ha, ho, hup, hf⟩

end Sys2Proof.Machine

/-! ### Motion commands -/
namespace Sys2Proof.Machine

/-- Outside an activation pause a command that plans motion runs as any other (R26). -/
theorem act_fleetCommand {s : State} (hrun : s.saf.run ≠ .updatePause) (h op : Nat) (k : Live → Dev → Dev) :
    s.act (fun d => d.fleetCommand h op k) = s.act fun d => d.command h op k :=
  State.act_congr (if_neg (by simp [Dev.paused, hrun]))

/-- A command whose transaction is taken into flight begins, and adds it (R223, R224). -/
theorem Completes.submits {c : Instr} {s : State} {h op : Nat} {l : Live} {k : Live → Dev → Dev} {acts : List Action} {applyAt : Option NT}
    {doneAt move safe : Bool} (hs : s.Settled) (hr : s.Runs h op l) (hrun : s.saf.run ≠ .updatePause) (hsafe : acts.all Action.stopSafe = safe)
    (hcode : s.motionCode safe = stOK) (hfl : s.inFlight < 256) (he : exec c s = s.act fun d => d.fleetCommand h op k)
    (hk : k l (s.begin.markStarted h) = (s.begin.markStarted h).submitTxn h { acts, applyAt, doneAt, move }) :
    Completes c s fun t => t.Begun l ∧ t.txu = { s.txu with txns := s.txu.txns ++
      [{ handle := some h, host := true, received := s.nt, acts, applyAt, doneAt, move, stopSafe := safe }] } ∧ Frame [.out, .hif, .txu] s.toDev t := by
  subst hsafe
  have hu : (s.begin.markStarted h).submitTxn h { acts, applyAt, doneAt, move } = { s.begin.markStarted h with txu := { s.txu with txns := s.txu.txns ++
      [{ handle := some h, host := true, received := s.nt, acts, applyAt, doneAt, move, stopSafe := acts.all Action.stopSafe }] } } :=
    (if_neg (not_not_intro hcode)).trans (if_neg (Nat.not_le.2 hfl))
  have hf : Frame [.out, .hif, .txu] s.toDev { s.begin.markStarted h with txu := { s.txu with txns := s.txu.txns ++
      [{ handle := some h, host := true, received := s.nt, acts, applyAt, doneAt, move, stopSafe := acts.all Action.stopSafe }] } } :=
    .two (by decide) (by decide) (frame_begin_markStarted _ h) (frame_withTxu _ _)
  exact .of_command (he.trans (act_fleetCommand hrun h op k)) hs hr (hk.trans hu) hf (by decide) (by decide) ⟨hr.begun, rfl, hf⟩

theorem motionCode_run {s : Dev} (h : s.saf.run = .run) (safe : Bool) : s.motionCode safe = stOK := by
  rw [Dev.motionCode, h]

theorem Completes.txnSubmit {s : State} {h : Nat} {l : Live} {b : List Byte} (hs : s.Settled) (hr : s.Runs h 0x51 l) (ht : s.TakesMotion)
    (ha : s.applyTimeOk (l.pNt 0) = true) (hn : l.p 8 1 ≤ 64) (hd : l.p 9 1 ≤ 1) (hlen : l.len = 32 * l.p 8 1) :
    Completes (.txnSubmit h (some b)) s fun t => t.Begun l ∧ t.txu = { s.txu with txns := s.txu.txns ++ [{
          handle := some h, host := true, received := s.nt, acts := (List.range (l.p 8 1)).map fun i => parseAct (slice b (32 * i) 32), applyAt := givenApply (l.pNt 0), doneAt := l.p 9 1 = 1
          stopSafe := ((List.range (l.p 8 1)).map fun i => parseAct (slice b (32 * i) 32)).all Action.stopSafe }] } ∧
        Frame [.out, .hif, .txu] s.toDev t := by
  obtain ⟨hrun, hfl⟩ := ht
  have ha' : (s.begin.markStarted h).applyTimeOk (l.pNt 0) = true := ha
  exact .submits
    hs hr (by rw [hrun]; decide) rfl (motionCode_run hrun _) hfl rfl
    ((if_neg (by rw [ha']; decide)).trans ((if_neg (Nat.not_lt.2 hn)).trans ((if_neg (Nat.not_lt.2 hd)).trans (if_neg (not_not_intro hlen)))))

/-- LOOP_OPEN is stop-safe, and so is taken in FLEET_STOP as well. -/
theorem Completes.loopOpen {s : State} {h : Nat} {l : Live} (hs : s.Settled) (hr : s.Runs h 0x60 l)
    (ht : s.TakesMotion ∨ (s.saf.run = .fleetStop ∧ s.inFlight < 256)) (ha : s.applyTimeOk (l.pNt 0) = true) :
    Completes (.loopOpen h) s fun t => t.Begun l ∧ t.txu = { s.txu with txns := s.txu.txns ++ [{
          handle := some h, host := true, received := s.nt, acts := [.loopMode (l.p 8 2) 1 0 0 0], applyAt := givenApply (l.pNt 0), stopSafe := true }] } ∧
        Frame [.out, .hif, .txu] s.toDev t := by
  have ha' : (s.begin.markStarted h).applyTimeOk (l.pNt 0) = true := ha
  have hrun : s.saf.run = .run ∨ s.saf.run = .fleetStop := ht.imp (·.1) (·.1)
  have hfl : s.inFlight < 256 := ht.elim (·.2) (·.2)
  have hcode : s.motionCode true = stOK := by
    unfold Dev.motionCode
    obtain h | h := hrun
    · rw [h]
    · rw [h, if_pos rfl]
  exact .submits hs hr
    (by obtain h | h := hrun <;> (rw [h]; decide)) rfl hcode hfl rfl (if_neg (by rw [ha']; decide))

theorem Completes.loopClose {s : State} {h : Nat} {l : Live} (hs : s.Settled) (hr : s.Runs h 0x61 l) (ht : s.TakesMotion)
    (ha : s.applyTimeOk (l.pNt 0) = true) (hi : l.p 10 1 ≤ 1) :
    Completes (.loopClose h) s fun t => t.Begun l ∧ t.txu = { s.txu with txns := s.txu.txns ++ [{
          handle := some h, host := true, received := s.nt, acts := [.loopMode (l.p 8 2) 2 (l.p 10 1) 0 0], applyAt := givenApply (l.pNt 0) }] } ∧
        Frame [.out, .hif, .txu] s.toDev t := by
  obtain ⟨hrun, hfl⟩ := ht
  have ha' : (s.begin.markStarted h).applyTimeOk (l.pNt 0) = true := ha
  exact .submits hs hr
    (by rw [hrun]; decide) rfl (motionCode_run hrun _) hfl rfl ((if_neg (by rw [ha']; decide)).trans (if_neg (Nat.not_lt.2 hi)))

theorem Completes.loopHandover {s : State} {h : Nat} {l : Live} (hs : s.Settled) (hr : s.Runs h 0x62 l) (ht : s.TakesMotion)
    (ha : s.applyTimeOk (l.pNt 0) = true) (hlo : 24 ≤ l.p 8 2) (heven : l.p 8 2 % 2 = 0) (hto : l.p 10 1 = 1 ∨ l.p 10 1 = 2)
    (hmin : 20 ≤ l.p 12 2) (hmax : l.p 12 2 ≤ 500) :
    Completes (.loopHandover h) s fun t => t.Begun l ∧ t.txu = { s.txu with txns := s.txu.txns ++ [{
          handle := some h, host := true, received := s.nt, acts := [.loopMode (l.p 8 2) 3 0 (l.p 10 1) (l.p 12 2)], applyAt := givenApply (l.pNt 0) }] } ∧
        Frame [.out, .hif, .txu] s.toDev t := by
  obtain ⟨hrun, hfl⟩ := ht
  have ha' : (s.begin.markStarted h).applyTimeOk (l.pNt 0) = true := ha
  exact .submits hs hr
    (by rw [hrun]; decide) rfl (motionCode_run hrun _) hfl rfl
    ((if_neg (by rw [ha']; decide)).trans ((if_neg (by simp; omega)).trans ((if_neg (by simp; omega)).trans (if_neg (by simp; omega)))))

theorem Completes.axisMove {s : State} {h : Nat} {l : Live} (hs : s.Settled) (hr : s.Runs h 0x68 l) (ht : s.TakesMotion)
    (ha : s.applyTimeOk (l.pNt 0) = true) (hb : moveBlockOk (slice l.entry 40 24) = true) :
    Completes (.axisMove h) s fun t => t.Begun l ∧ t.txu = { s.txu with txns := s.txu.txns ++ [{
          handle := some h, host := true, received := s.nt, acts := [.axisMove (l.p 8 1) (slice l.entry 40 24)], applyAt := givenApply (l.pNt 0), move := true }] } ∧
        Frame [.out, .hif, .txu] s.toDev t := by
  obtain ⟨hrun, hfl⟩ := ht
  have ha' : (s.begin.markStarted h).applyTimeOk (l.pNt 0) = true := ha
  exact .submits hs hr
    (by rw [hrun]; decide) rfl (motionCode_run hrun _) hfl rfl ((if_neg (by rw [ha']; decide)).trans (if_neg (by rw [hb]; decide)))

/-- In FLEET_STOP a move is refused STOPPED (R223). -/
theorem Completes.axisMove_stopped {s : State} {h : Nat} {l : Live} (hs : s.Settled) (hr : s.Runs h 0x68 l) (hrun : s.saf.run = .fleetStop)
    (ha : s.applyTimeOk (l.pNt 0) = true) (hb : moveBlockOk (slice l.entry 40 24) = true) :
    Completes (.axisMove h) s fun t => t.Answered l stStopped (offsetRes none) ∧ Frame [.out, .hif] s.toDev t := by
  have ha' : (s.begin.markStarted h).applyTimeOk (l.pNt 0) = true := ha
  have hcode : (s.begin.markStarted h).motionCode false = stStopped := by
    show s.motionCode false = _
    rw [Dev.motionCode, hrun]
    rfl
  have he : exec (.axisMove h) s = _ := act_fleetCommand (by rw [hrun]; decide) _ _ _
  refine .refused he hs hr
    ((if_neg (by rw [ha']; decide)).trans ((if_neg (by rw [hb]; decide)).trans (Eq.trans (if_pos ?_) (congrArg (fun c => (s.begin.markStarted h).refuse h c none) hcode))))
  show (s.begin.markStarted h).motionCode false ≠ stOK
  rw [hcode]
  decide

/-- The 257th transaction in flight is refused BUSY (R224). -/
theorem Completes.loopClose_full {s : State} {h : Nat} {l : Live} (hs : s.Settled) (hr : s.Runs h 0x61 l) (hrun : s.saf.run = .run)
    (hfl : 256 ≤ s.inFlight) (ha : s.applyTimeOk (l.pNt 0) = true) (hi : l.p 10 1 ≤ 1) :
    Completes (.loopClose h) s fun t => t.Answered l stBusy (offsetRes none) ∧ Frame [.out, .hif] s.toDev t := by
  have ha' : (s.begin.markStarted h).applyTimeOk (l.pNt 0) = true := ha
  have he : exec (.loopClose h) s = _ := act_fleetCommand (by rw [hrun]; decide) _ _ _
  exact .refused he hs hr
    ((if_neg (by rw [ha']; decide)).trans ((if_neg (Nat.not_lt.2 hi)).trans ((if_neg (not_not_intro (motionCode_run hrun _))).trans (if_pos hfl))))

/-- Settles O27: each command that plans motion asks for one transaction, which the run state and the number in flight take or refuse. -/
theorem motionCommandsBecomeTransactions : Obligations.MotionCommandsBecomeTransactions :=
  ⟨fun _ _ _ _ => .txnSubmit, fun _ _ _ => .loopOpen, fun _ _ _ => .loopClose, fun _ _ _ => .loopHandover, fun _ _ _ => .axisMove,
    fun _ _ _ => .axisMove_stopped, fun _ _ _ => .loopClose_full⟩

end Sys2Proof.Machine

/-! ### Missed deadlines -/
namespace Sys2Proof.Machine

theorem frame_withCtl (s : Dev) (x : Ctl) : Frame [.ctl] s { s with ctl := x } := fun p hp => by
  cases p <;> simp at hp <;> rfl

theorem frame_setLoop (s : Dev) (n : Nat) (l : LoopSlot) : Frame [.ctl] s (s.setLoop n l) := frame_withCtl s _

theorem Dev.loop_of_frame {a : List Area} {s t : Dev} (h : Frame a s t) (ha : .ctl ∉ a) (n : Nat) : t.loop n = s.loop n := Dev.loop_of_ctl (h .ctl ha) n

/-- A slot that has missed its computation (R259, R263). -/
def LoopSlot.missed (l : LoopSlot) : LoopSlot :=
  { l with st := if l.st = .closed then .held else l.st, from_ := if l.st = .closed then l.st else l.from_, misses := l.misses + 1 }

theorem Dev.missSlot_eq (s : Dev) (n : Nat) : s.missSlot n = (s.setLoop n (s.loop n).missed).setFld (lpMissed n) 1 := by
  unfold Dev.missSlot LoopSlot.missed
  simp only

theorem Dev.loop_missSlot (s : Dev) (n m : Nat) : (s.missSlot n).loop m = if m = n then (s.loop n).missed else s.loop m := by
  rw [Dev.missSlot_eq, Dev.loop_of_frame (frame_setFld _ _ _) (by decide), Dev.loop_setLoop]

theorem frame_missSlot (s : Dev) (n : Nat) : Frame [.ctl, .regs] s (s.missSlot n) := by
  rw [Dev.missSlot_eq]
  exact (frame_setLoop s n _).append (frame_setFld _ _ _)

theorem Dev.regsBut_missSlot (s : Dev) (n : Nat) : RegsBut [0xA500 + 4 * n] s (s.missSlot n) := by
  rw [Dev.missSlot_eq]
  exact (RegsBut.of_frame (frame_setLoop s n _) (by decide)).trans (.setFld _ _ (List.mem_singleton.2 rfl))

theorem Dev.fld_missSlot (s : Dev) (n : Nat) : (s.missSlot n).fld (lpMissed n) = 1 := by
  rw [Dev.missSlot_eq]
  exact Dev.fld_setFld _ _ 1 (by simp [lpMissed])

/-- The count of missed computations, and its source (R263). -/
def Dev.missTold (s : Dev) : Dev := (s.cntSat (0xA020, 0, 16)).raise 0x70

theorem frame_missTold (s : Dev) : Frame [.regs, .todo] s s.missTold := (frame_cntSat s _).append (frame_raise _ _)

theorem Dev.regsBut_missTold (s : Dev) : RegsBut [0xA020] s s.missTold :=
  (RegsBut.cntSat s (0xA020, 0, 16)).trans (.of_frame (frame_raise _ _) (by decide))

theorem Dev.fld_missTold (s : Dev) : s.missTold.fld (0xA020, 0, 16) = satInc 16 (s.fld (0xA020, 0, 16)) :=
  (Dev.fld_of_frame (frame_raise _ _) (by decide) _).trans (Dev.fld_cntSat s _ (by decide))

theorem Dev.todo_missTold (s : Dev) : s.missTold.todo = s.todo ++ [.fault 0x70 false] := rfl

/-! An axis slot -/

/-- What an axis does when its slot has missed `LAST_STOP` computations in a row (R263). -/
def Dev.missStops (s : Dev) (n : Nat) : Dev :=
  if (s.loop n).misses = s.fld (0xA014, 20, 4) then (if (s.axis n).atRest then s else s.axHard n 11 stAxsStopped .idle).raise 0x71 else s

theorem exec_deadlineMiss_axis {s : State} (dt : Nat) {n : Nat} (hn : n < 24) (hp : s.upd.pause ≠ some 4) :
    exec (.deadlineMiss dt n) s = s.act fun _ => ((s.tick dt).missSlot n).missTold.missStops n := by
  have hbig : ¬ (s.tick dt).nLoops ≤ n := by
    unfold Dev.nLoops
    split <;> omega
  have hrob : loopRobot n = none := if_neg (by omega)
  show execDeadlineMiss dt n s = _
  refine State.act_congr ((if_neg (by simp [hbig, hp])).trans ?_)
  dsimp only
  rw [hrob]
  rfl

theorem frame_missStops (s : Dev) (n : Nat) : Frame [.axes, .hif, .out, .todo] s (s.missStops n) := by
  unfold Dev.missStops
  split
  · split
    · exact (frame_raise s _).mono (by decide)
    · exact ((frame_axHard s _ _ _ _).append (frame_raise _ _)).mono (by decide)
  · exact .refl _ _

theorem Dev.mem_todo_axHard {s : Dev} {x : Todo} (h : x ∈ s.todo) (n why code : Nat) (dest : AxState) : x ∈ (s.axHard n why code dest).todo := by
  rw [Dev.todo_axHard]
  exact List.mem_append_left _ h

theorem Dev.missStops_keeps {s : Dev} {x : Todo} (h : x ∈ s.todo) (n : Nat) : x ∈ (s.missStops n).todo := by
  unfold Dev.missStops
  split
  · rw [Dev.todo_raise]
    refine List.mem_append_left _ ?_
    split
    · exact h
    · exact Dev.mem_todo_axHard h _ _ _ _
  · exact h

theorem Dev.missStops_stops {s : Dev} {n : Nat} (h : (s.loop n).misses = s.fld (0xA014, 20, 4)) : .fault 0x71 false ∈ (s.missStops n).todo ∧
    ((s.axis n).atRest = false → ((s.missStops n).axis n).st = .idle ∧ ((s.missStops n).axis n).lastStop = 11) := by
  unfold Dev.missStops
  rw [if_pos h]
  refine ⟨by rw [Dev.todo_raise]; exact List.mem_append_right _ (List.mem_singleton.2 rfl), fun hrest => ?_⟩
  rw [if_neg (by rw [hrest]; decide)]
  have hax : ((s.axHard n 11 stAxsStopped .idle).raise 0x71).axis n = _ := (s.axis_axHard n 11 stAxsStopped .idle n).trans (if_pos rfl)
  rw [hax]
  exact ⟨rfl, rfl⟩

theorem CompletesThen.deadlineMiss_axis {s : State} {dt n : Nat} (hn : n < 24) (hp : s.upd.pause ≠ some 4) (hst : (s.loop n).st = .closed) :
    CompletesThen (.deadlineMiss dt n) s fun d => d.loop n = { s.loop n with st := .held, from_ := .closed, misses := (s.loop n).misses + 1 } ∧
        (∀ m, m ≠ n → d.loop m = s.loop m) ∧ d.fld (lpMissed n) = 1 ∧ d.fld (0xA020, 0, 16) = satInc 16 (s.fld (0xA020, 0, 16)) ∧
        .fault 0x70 false ∈ d.todo ∧ ((s.loop n).misses + 1 = s.fld (0xA014, 20, 4) → .fault 0x71 false ∈ d.todo ∧
          ((s.axis n).atRest = false → (d.axis n).st = .idle ∧ (d.axis n).lastStop = 11)) ∧
        RegsBut [0xA500 + 4 * n, 0xA020] s.toDev d ∧ Frame [.clk, .out, .ctl, .regs, .axes, .hif, .todo] s.toDev d := by
  have he := exec_deadlineMiss_axis dt hn hp
  have hu := frame_tick s.toDev dt
  generalize s.tick dt = u at he hu
  have hmiss := frame_missSlot u n
  have hloop := u.loop_missSlot n
  have hregs := u.regsBut_missSlot n
  have hmissed := u.fld_missSlot n
  generalize u.missSlot n = v at he hmiss hloop hregs hmissed
  have htold := frame_missTold v
  have hcount := v.fld_missTold
  have hregs' := v.regsBut_missTold
  have htodo := v.todo_missTold
  generalize v.missTold = w at he htold hcount hregs' htodo
  have hstop := frame_missStops w n
  have hlu := Dev.loop_of_frame hu (by decide)
  have hlw := Dev.loop_of_frame htold (by decide)
  have hown : (s.loop n).missed = { s.loop n with st := .held, from_ := .closed, misses := (s.loop n).misses + 1 } := by
    unfold LoopSlot.missed
    rw [if_pos hst, if_pos hst, hst]
  have hwn : w.loop n = (s.loop n).missed := (hlw n).trans ((hloop n).trans ((if_pos rfl).trans (congrArg LoopSlot.missed (hlu n))))
  have hwo : ∀ m, m ≠ n → w.loop m = s.loop m := fun m hm => (hlw m).trans ((hloop m).trans ((if_neg hm).trans (hlu m)))
  have hregsW : RegsBut [0xA500 + 4 * n, 0xA020] s.toDev w :=
    (RegsBut.of_frame hu (by decide)).trans ((hregs.mono (by simp)).trans (hregs'.mono (by simp)))
  have hregsD : RegsBut [0xA500 + 4 * n, 0xA020] s.toDev (w.missStops n) := hregsW.trans (.of_frame hstop (by decide))
  have hlast : w.fld (0xA014, 20, 4) = s.fld (0xA014, 20, 4) := hregsW.fld_eq (by simp; omega)
  have haxes : w.axis n = s.axis n := Dev.axis_of_frame ((hu.append hmiss).append htold) (by decide) n
  refine .of_effect he ⟨(Dev.loop_of_frame hstop (by decide) n).trans (hwn.trans hown), fun m hm => (Dev.loop_of_frame hstop (by decide) m).trans (hwo m hm),
    ?_, ?_, ?_, fun hm => ?_, hregsD, (((hu.append hmiss).append htold).append hstop).mono (by decide)⟩
  · rw [Dev.fld_of_frame hstop (by decide), hregs'.fld_eq (by simp [lpMissed]; omega), hmissed]
  · rw [Dev.fld_of_frame hstop (by decide), hcount, hregs.fld_eq (by simp; omega), Dev.fld_of_frame hu (by decide)]
  · exact Dev.missStops_keeps (by rw [htodo]; exact List.mem_append_right _ (List.mem_singleton.2 rfl)) n
  · rw [← haxes]
    refine Dev.missStops_stops (s := w) ?_
    rw [hwn, hlast, ← hm]
    rfl

/-! The apply time of a record (R266) reads no register below those of the lanes -/

/-- A device whose control slots and registers below the lanes' may differ. -/
structure Dev.SameLanes (s t : Dev) : Prop where
  frame : Frame [.ctl, .regs, .todo] s t
  reg : ∀ o, 0xD100 ≤ o → t.reg o = s.reg o

theorem Dev.SameLanes.fld {s t : Dev} (h : s.SameLanes t) {f : Fld} (hf : 0xD100 ≤ f.1) : t.fld f = s.fld f := Dev.fld_of_reg (h.reg _ hf)

theorem Dev.SameLanes.flag {s t : Dev} (h : s.SameLanes t) {f : Fld} (hf : 0xD100 ≤ f.1) : t.flag f = s.flag f := Dev.flag_of_reg (h.reg _ hf)

theorem lnTPre_lane (n : Nat) : 0xD100 ≤ (lnTPre n).1 := by simp only [lnTPre]; omega

theorem lnTOct_lane (n : Nat) : 0xD100 ≤ (lnTOct n).1 := by simp only [lnTOct]; omega

theorem lnTTa_lane (n : Nat) : 0xD100 ≤ (lnTTa n).1 := by simp only [lnTTa]; omega

theorem Dev.SameLanes.bond {s t : Dev} (h : s.SameLanes t) (n : Nat) : t.bond n = s.bond n := by
  unfold Dev.bond Dev.exchangeFits
  simp only [h.fld (lnTPre_lane n), h.fld (lnTOct_lane n), h.fld (lnTTa_lane n)]

theorem Dev.SameLanes.oneSlot {s t : Dev} (h : s.SameLanes t) (f : TxFrame) : t.oneSlot f = s.oneSlot f := by
  unfold Dev.oneSlot
  simp only [h.fld (lnTPre_lane f.lane), h.fld (lnTOct_lane f.lane), h.fld (lnTTa_lane f.lane)]

theorem Dev.SameLanes.maySend {s t : Dev} (h : s.SameLanes t) (f : TxFrame) (k : Nat) : t.maySend f k = s.maySend f k := by
  have hmac : t.mac = s.mac := h.frame .mac (by decide)
  have htxu : t.txu = s.txu := h.frame .txu (by decide)
  have hsaf : t.saf = s.saf := h.frame .saf (by decide)
  have hupd : t.upd = s.upd := h.frame .upd (by decide)
  have hword : t.reg (0xD800 + 0x100 * f.lane + 4 * (k % 50)) = s.reg (0xD800 + 0x100 * f.lane + 4 * (k % 50)) := h.reg _ (by omega)
  have hkey : t.keyTx f.key = s.keyTx f.key := by
    unfold Dev.keyTx Dev.keyValid
    rw [h.flag (by simp; omega), h.flag (by simp; omega)]
  unfold Dev.maySend Dev.shortLead Dev.routeTo Dev.lane Dev.slotStopped
  dsimp only
  rw [h.bond, h.oneSlot, hkey, hword, hmac, htxu, hsaf, hupd]

theorem Dev.SameLanes.planWords {s t : Dev} (h : s.SameLanes t) (n : Nat) : t.planWords n = s.planWords n :=
  List.map_congr_left fun k _ => congrArg BitVec.toNat (h.reg _ (by omega))

theorem Dev.lastHop_congr (s t : Dev) (words : List Nat) (l : List (Nat × Nat × Nat)) :
    ∀ prev k, t.lastHop words prev l k = s.lastHop words prev l k := by
  induction l with
  | nil => exact fun _ _ => rfl
  | cons x l ih => exact fun _ _ => ih _ _

theorem Dev.SameLanes.batchSlots {s t : Dev} (h : s.SameLanes t) (i : Nat) (x : NT) : t.batchSlots i x = s.batchSlots i x := by
  have hmac : t.mac = s.mac := h.frame .mac (by decide)
  have hfirst : ∀ r : RouteEnt, t.firstHop r x = s.firstHop r x := fun r => by
    unfold Dev.firstHop
    simp only [h.maySend]
  unfold Dev.batchSlots Dev.routeTo
  rw [hmac]
  split
  · next r _ =>
    dsimp only
    rw [hfirst, h.planWords]
    split
    · rw [Dev.lastHop_congr s t]
    · rfl
  · rfl

/-! A set-point (R266) -/

theorem frame_queueRecord (s : Dev) (i : Nat) (b : List Byte) : Frame [.mac] s (s.queueRecord i b) := by
  unfold Dev.queueRecord
  split
  · exact .refl _ _
  · dsimp only
    split
    · exact frame_withMac s _
    · split
      · exact frame_withMac s _
      · exact frame_withMac s _

theorem frame_sendSetpoint (s : Dev) (i : Nat) (t : NT) (held stopped : Bool) (v k : Int) : Frame [.ctl, .mac] s (s.sendSetpoint i t held stopped v k) := by
  unfold Dev.sendSetpoint
  exact (frame_withCtl s _).append (frame_queueRecord _ _ _)

/-- The record sent is the newest that is kept. -/
theorem Dev.sent_sendSetpoint (s : Dev) (i : Nat) (t : NT) (held stopped : Bool) (v k : Int) :
    (Tab.get (fun _ => []) (s.sendSetpoint i t held stopped v k).ctl.sent i).head? = some { t, v, k } := by
  unfold Dev.sendSetpoint
  rw [(frame_queueRecord _ _ _) .ctl (by decide), Tab.get_set, if_pos rfl]
  rfl

theorem Dev.loop_sendSetpoint (s : Dev) (i : Nat) (t : NT) (held stopped : Bool) (v k : Int) (n : Nat) :
    (s.sendSetpoint i t held stopped v k).loop n = s.loop n := by
  unfold Dev.sendSetpoint
  exact Dev.loop_of_frame (frame_queueRecord _ _ _) (by decide) n

/-! The slots of a robot -/

/-- The slots of a robot that miss, counted and told. -/
def Dev.pairTold (s : Dev) (i : Nat) : Dev := ((s.missSlot (24 + 2 * i)).missSlot (24 + 2 * i + 1)).missTold

/-- The source of misses in a row (R263). -/
def Dev.rowTold (s : Dev) (i : Nat) : Dev := if (s.loop (24 + 2 * i + 1)).misses = s.fld (0xA014, 16, 4) then s.raise 0x71 else s

theorem exec_deadlineMiss_robot {s : State} (dt : Nat) {n i : Nat} (hn : n < s.nLoops) (hi : loopRobot n = some i) (hp : s.upd.pause ≠ some 4)
    (hg : s.getsSetpoints i = true) : exec (.deadlineMiss dt n) s = s.act fun _ =>
      let v := (s.tick dt).pairTold i
      let w := v.rowTold i
      let last : SetPt := ((Tab.get (fun _ => []) w.ctl.sent i).head?).getD { t := 0, v := 0, k := 0 }
      w.sendSetpoint i (w.setApply (w.batchSlots i (ntAdd w.nt 1)).2) true (w.stoppedRobot i)
        (if w.stoppedRobot i || decide (v.fld (0xA014, 16, 4) ≤ (v.loop (24 + 2 * i + 1)).misses) then 0 else last.v) last.k := by
  have hbig : ¬ (s.tick dt).nLoops ≤ n := Nat.not_le.2 hn
  have hg' : (s.tick dt).getsSetpoints i = true := hg
  show execDeadlineMiss dt n s = _
  refine State.act_congr ((if_neg (by simp [hbig, hp])).trans ?_)
  dsimp only
  rw [hi]
  refine (if_neg (by rw [hg']; decide)).trans ?_
  unfold Dev.rowTold Dev.pairTold Dev.missTold
  rfl

theorem Dev.pairTold_frame (s : Dev) (i : Nat) : Frame [.ctl, .regs, .todo] s (s.pairTold i) :=
  (((frame_missSlot s (24 + 2 * i)).append (frame_missSlot _ (24 + 2 * i + 1))).append (frame_missTold _)).mono (by decide)

theorem Dev.pairTold_regs (s : Dev) (i : Nat) : RegsBut [0xA500 + 4 * (24 + 2 * i), 0xA500 + 4 * (24 + 2 * i + 1), 0xA020] s (s.pairTold i) ∧
    (s.pairTold i).fld (0xA020, 0, 16) = satInc 16 (s.fld (0xA020, 0, 16)) := by
  have h1 := s.regsBut_missSlot (24 + 2 * i)
  have h2 := (s.missSlot (24 + 2 * i)).regsBut_missSlot (24 + 2 * i + 1)
  have h3 := ((s.missSlot (24 + 2 * i)).missSlot (24 + 2 * i + 1)).regsBut_missTold
  have hc := ((s.missSlot (24 + 2 * i)).missSlot (24 + 2 * i + 1)).fld_missTold
  rw [h2.fld_eq (by simp; omega), h1.fld_eq (by simp; omega)] at hc
  exact ⟨((h1.mono (m := [0xA500 + 4 * (24 + 2 * i), 0xA500 + 4 * (24 + 2 * i + 1), 0xA020]) (by simp)).trans (h2.mono (by simp))).trans (h3.mono (by simp)), hc⟩

theorem Dev.pairTold_ctl (s : Dev) (i : Nat) : (s.pairTold i).loop (24 + 2 * i) = (s.loop (24 + 2 * i)).missed ∧
    (s.pairTold i).loop (24 + 2 * i + 1) = (s.loop (24 + 2 * i + 1)).missed ∧ .fault 0x70 false ∈ (s.pairTold i).todo := by
  have h1 := s.loop_missSlot (24 + 2 * i)
  have h2 := (s.missSlot (24 + 2 * i)).loop_missSlot (24 + 2 * i + 1)
  have h3 := Dev.loop_of_frame (frame_missTold ((s.missSlot (24 + 2 * i)).missSlot (24 + 2 * i + 1))) (by decide)
  refine ⟨(h3 _).trans ((h2 (24 + 2 * i)).trans ((if_neg (by omega)).trans ((h1 _).trans (if_pos rfl)))),
    (h3 _).trans ((h2 (24 + 2 * i + 1)).trans ((if_pos rfl).trans (congrArg LoopSlot.missed ((h1 _).trans (if_neg (by omega)))))), ?_⟩
  unfold Dev.pairTold
  rw [Dev.todo_missTold]
  exact List.mem_append_right _ (List.mem_singleton.2 rfl)

theorem Dev.sent_missSlot (s : Dev) (n : Nat) : (s.missSlot n).ctl.sent = s.ctl.sent := by
  rw [Dev.missSlot_eq, (frame_setFld _ _ _) .ctl (by decide)]
  rfl

theorem Dev.sent_pairTold (s : Dev) (i : Nat) : (s.pairTold i).ctl.sent = s.ctl.sent := by
  unfold Dev.pairTold
  rw [(frame_missTold _) .ctl (by decide), Dev.sent_missSlot, Dev.sent_missSlot]

theorem Dev.rowTold_frame (s : Dev) (i : Nat) : Frame [.todo] s (s.rowTold i) := by
  unfold Dev.rowTold
  split
  · exact frame_raise s _
  · exact .refl _ _

theorem Dev.rowTold_keeps {s : Dev} {x : Todo} (h : x ∈ s.todo) (i : Nat) : x ∈ (s.rowTold i).todo := by
  unfold Dev.rowTold
  split
  · rw [Dev.todo_raise]
    exact List.mem_append_left _ h
  · exact h

theorem nLoops_le (s : Dev) : s.nLoops ≤ 536 := by
  unfold Dev.nLoops
  split <;> omega

theorem CompletesThen.deadlineMiss_robot {s : State} {dt n i : Nat} {p : SetPt} (hn : n < s.nLoops) (hi : loopRobot n = some i)
    (hp : s.upd.pause ≠ some 4) (hg : s.getsSetpoints i = true) (hlat : (s.loop (24 + 2 * i)).st = .closed)
    (hlon : (s.loop (25 + 2 * i)).st = .closed) (hsent : (Tab.get (fun _ => []) s.ctl.sent i).head? = some p) :
    CompletesThen (.deadlineMiss dt n) s fun d => (d.loop (24 + 2 * i)).st = .held ∧ (d.loop (25 + 2 * i)).st = .held ∧
        (d.loop (25 + 2 * i)).misses = (s.loop (25 + 2 * i)).misses + 1 ∧ .fault 0x70 false ∈ d.todo ∧
        (Tab.get (fun _ => []) d.ctl.sent i).head? = some {
          t := (s.tick dt).setApply ((s.tick dt).batchSlots i (ntAdd (s.tick dt).nt 1)).2, k := p.k
          v := if s.stoppedRobot i ∨ s.fld (0xA014, 16, 4) ≤ (s.loop (25 + 2 * i)).misses + 1 then 0 else p.v } ∧
        d.fld (0xA020, 0, 16) = satInc 16 (s.fld (0xA020, 0, 16)) ∧ Frame [.clk, .out, .ctl, .regs, .mac, .todo] s.toDev d := by
  have he := exec_deadlineMiss_robot dt hn hi hp hg
  have hsmall : i < 256 := by
    have := nLoops_le s.toDev
    unfold loopRobot at hi
    split at hi
    · obtain rfl := Option.some.inj hi
      omega
    · cases hi
  have hstop : (s.tick dt).stoppedRobot i = s.stoppedRobot i := rfl
  have hu := frame_tick s.toDev dt
  have hidx : 25 + 2 * i = 24 + 2 * i + 1 := by omega
  rw [hidx] at hlon ⊢
  generalize s.tick dt = u at he hu hstop ⊢
  have hf := u.pairTold_frame i
  obtain ⟨hregs, hcount⟩ := u.pairTold_regs i
  obtain ⟨hl1, hl2, htodo⟩ := u.pairTold_ctl i
  have hs := u.sent_pairTold i
  generalize u.pairTold i = v at he hf hregs hcount hl1 hl2 hs htodo
  have hfr := v.rowTold_frame i
  have htodoW := Dev.rowTold_keeps htodo i
  have hloopW := Dev.loop_of_frame hfr (by decide)
  dsimp only at he
  generalize v.rowTold i = w at he hfr htodoW hloopW
  have hlanes : u.SameLanes w := ⟨(hf.append hfr).mono (by decide), fun o ho => (Dev.reg_of_frame hfr (by decide) o).trans (hregs o (by simp; omega))⟩
  have hslots := hlanes.batchSlots i
  have hcap : v.fld (0xA014, 16, 4) = s.fld (0xA014, 16, 4) := (hregs.fld_eq (by simp; omega)).trans (Dev.fld_of_frame hu (by decide) _)
  have happly : ∀ k, w.setApply k = u.setApply k := fun k => by
    unfold Dev.setApply
    rw [Dev.fld_of_frame hfr (by decide), hregs.fld_eq (by simp; omega)]
  have hnt : w.nt = u.nt := by
    unfold Dev.nt
    rw [((hf.append hfr) .clk (by decide) : w.clk = u.clk)]
  have hstopW : w.stoppedRobot i = s.stoppedRobot i := by
    rw [← hstop]
    unfold Dev.stoppedRobot Dev.lease
    rw [((hf.append hfr) .saf (by decide) : w.saf = u.saf), ((hf.append hfr) .txu (by decide) : w.txu = u.txu)]
  rw [Dev.loop_of_frame hu (by decide)] at hl1 hl2
  have hheld : ∀ {l : LoopSlot}, l.st = .closed → l.missed.st = .held := fun h => if_pos h
  have hlast : ((Tab.get (fun _ => []) w.ctl.sent i).head?).getD { t := 0, v := 0, k := 0 } = p := by
    rw [(hfr .ctl (by decide) : w.ctl = v.ctl), hs, (hu .ctl (by decide) : u.ctl = s.ctl), hsent]
    rfl
  rw [hlast, happly, hslots, hnt, hstopW, hcap, hl2] at he
  have hset := frame_sendSetpoint w i (u.setApply (u.batchSlots i (ntAdd u.nt 1)).2) true (s.stoppedRobot i)
    (if s.stoppedRobot i || decide (s.fld (0xA014, 16, 4) ≤ (s.loop (24 + 2 * i + 1)).missed.misses) then 0 else p.v) p.k
  refine .of_effect he ⟨?_, ?_, ?_, ?_, ?_, ?_, (((hu.append hf).append hfr).append hset).mono (by decide)⟩
  · rw [Dev.loop_sendSetpoint, hloopW, hl1, hheld hlat]
  · rw [Dev.loop_sendSetpoint, hloopW, hl2, hheld hlon]
  · rw [Dev.loop_sendSetpoint, hloopW, hl2]
    rfl
  · rw [(hset .todo (by decide) : _ = w.todo)]
    exact htodoW
  · rw [Dev.sent_sendSetpoint]
    refine congrArg (fun x : Int => some (⟨u.setApply (u.batchSlots i (ntAdd u.nt 1)).2, x, p.k⟩ : SetPt)) (if_congr ?_ rfl rfl)
    rw [Bool.or_eq_true, decide_eq_true_iff]
    exact Iff.rfl
  · rw [Dev.fld_of_frame hset (by decide), Dev.fld_of_frame hfr (by decide), hcount, Dev.fld_of_frame hu (by decide)]

/-- Settles O26: a slot that misses is told and counted whatever it was, and only a CLOSED one becomes HELD; the batch's slots read nothing that a
miss changes. -/
theorem aMissedDeadlineHoldsItsSlot : Obligations.AMissedDeadlineHoldsItsSlot := by
  refine ⟨fun _ _ _ => .deadlineMiss_axis, ?_⟩
  rintro s dt n i p _ rfl hn hi hp hg hlat hlon hsent
  exact .deadlineMiss_robot hn hi hp hg hlat hlon hsent

end Sys2Proof.Machine

/-! ### Computations of the control engine -/
namespace Sys2Proof.Machine

/-! What a computation reads -/

theorem Dev.reg_eq_of_frame {a : List Area} {s t : Dev} (h : Frame a s t) (ha : .regs ∉ a) : t.reg = s.reg := funext (Dev.reg_of_frame h ha)

theorem Dev.lease_of_frame {a : List Area} {s t : Dev} (h : Frame a s t) (ha : .txu ∉ a) (i : Nat) : t.lease i = s.lease i := by
  rw [Dev.lease, h .txu ha, Dev.lease]

theorem Dev.cls_of_frame {a : List Area} {s t : Dev} (h : Frame a s t) (ha : .regs ∉ a) (c : Nat) : t.cls c = s.cls c := by
  unfold Dev.cls Dev.flag
  simp only [Dev.fld_of_frame h ha]

theorem Dev.loopTs_of_frame {a : List Area} {s t : Dev} (h : Frame a s t) (hr : .regs ∉ a) (hx : .txu ∉ a) (n : Nat) : t.loopTs n = s.loopTs n := by
  unfold Dev.loopTs
  split
  · rw [Dev.lease_of_frame h hx]
  · rw [Dev.fld_of_frame h hr]

theorem Dev.law_of_frame {a : List Area} {s t : Dev} (h : Frame a s t) (hr : .regs ∉ a) (hx : .txu ∉ a) : t.law = s.law := by
  funext n l e ff limit
  have hg : t.loopGain n = s.loopGain n := by
    funext k
    rw [Dev.loopGain, Dev.reg_eq_of_frame h hr, Dev.loopGain]
  unfold Dev.law
  dsimp only
  rw [Dev.loopTs_of_frame h hr hx, hg]

theorem Dev.limitOut_of_frame {a : List Area} {s t : Dev} (h : Frame a s t) (hr : .regs ∉ a) (hx : .txu ∉ a) : t.limitOut = s.limitOut := by
  funext n inner prev v
  have hg : t.loopGain n = s.loopGain n := by
    funext k
    rw [Dev.loopGain, Dev.reg_eq_of_frame h hr, Dev.loopGain]
  have hacc : ∀ i, (t.cls (t.lease i).cls).aMax = (s.cls (s.lease i).cls).aMax := fun i => by
    rw [Dev.lease_of_frame h hx, Dev.cls_of_frame h hr]
  unfold Dev.limitOut
  simp only [Dev.loopTs_of_frame h hr hx, hg, Dev.reg_eq_of_frame h hr, hacc]

/-- Two devices that differ from one in the same areas differ from each other in these. -/
theorem Frame.between {c : List Area} {s t u : Dev} (h : Frame c u s) (k : Frame c u t) : Frame c s t := fun p hp => by
  have a := h p hp
  have b := k p hp
  cases p <;> exact Eq.trans b (Eq.symm a)

/-! One computation (R252, R253, R259) -/

theorem LoopSlot.onTime_of {l : LoopSlot} (h : l.st ≠ .held) : l.onTime = { l with misses := 0 } := if_neg h

theorem Dev.compute_open {s : Dev} {n : Nat} {e ff : F32} {limit : F32 → F32} (hst : (s.loop n).st = .open_)
    (hv : fFinite (fAdd ff (s.loop n).i) = true) (hu : fFinite (limit (fAdd ff (s.loop n).i)) = true) :
    s.compute n e ff limit = s.setLoop n { s.loop n with
      u := limit (fAdd ff (s.loop n).i), ff := ff, sat := !fEq (limit (fAdd ff (s.loop n).i)) (fAdd ff (s.loop n).i), misses := 0 } := by
  have hon : (s.loop n).onTime = { s.loop n with misses := 0 } := LoopSlot.onTime_of (by rw [hst]; decide)
  unfold Dev.compute
  rw [hon]
  dsimp only
  split
  · exact if_pos (by simp [hv, hu])
  · next hne => exact absurd hst hne

theorem Dev.compute_closed {s : Dev} {n : Nat} {e ff : F32} {limit : F32 → F32} {x : LoopSlot × Nat} (hst : (s.loop n).st = .closed)
    (hx : x = s.law n { s.loop n with misses := 0 } e ff limit) (hfin : x.1.finite = true) (hv : fFinite x.2 = true) :
    s.compute n e ff limit = s.setLoop n x.1 := by
  have hon : (s.loop n).onTime = { s.loop n with misses := 0 } := LoopSlot.onTime_of (by rw [hst]; decide)
  unfold Dev.compute
  rw [hon]
  dsimp only
  split
  · next hop => exact absurd (hst.symm.trans hop) (by decide)
  · rw [← hx]
    exact if_pos (by rw [hfin, hv]; decide)

theorem frame_numericFault (s : Dev) (n : Nat) (l : LoopSlot) (ff : F32) (limit : F32 → F32) : Frame [.ctl, .regs, .todo] s (s.numericFault n l ff limit) :=
  ((frame_setLoop s n _).append (frame_cntSat _ _)).append (frame_raise _ _)

theorem Dev.loop_numericFault_ne (s : Dev) {n m : Nat} (h : m ≠ n) (l : LoopSlot) (ff : F32) (limit : F32 → F32) :
    (s.numericFault n l ff limit).loop m = s.loop m := by
  unfold Dev.numericFault
  rw [Dev.loop_of_frame ((frame_cntSat _ _).append (frame_raise _ _)) (by decide), Dev.loop_setLoop, if_neg h]

theorem Dev.todo_numericFault (s : Dev) (n : Nat) (l : LoopSlot) (ff : F32) (limit : F32 → F32) :
    (s.numericFault n l ff limit).todo = s.todo ++ [.fault 0x75 false] := by
  unfold Dev.numericFault
  rw [Dev.todo_raise, Dev.cntSat_todo, (frame_setLoop _ _ _) .todo (by decide)]

/-- A computation sets its own slot, or finds a value that is not finite. -/
theorem Dev.compute_cases (s : Dev) (n : Nat) (e ff : F32) (limit : F32 → F32) :
    (∃ l, s.compute n e ff limit = s.setLoop n l) ∨ ∃ l, s.compute n e ff limit = s.numericFault n l ff limit := by
  unfold Dev.compute
  dsimp only
  split
  · split
    · exact .inl ⟨_, rfl⟩
    · exact .inr ⟨_, rfl⟩
  · split
    · exact .inl ⟨_, rfl⟩
    · exact .inr ⟨_, rfl⟩

theorem frame_compute (s : Dev) (n : Nat) (e ff : F32) (limit : F32 → F32) : Frame [.ctl, .regs, .todo] s (s.compute n e ff limit) := by
  obtain ⟨l, h⟩ | ⟨l, h⟩ := s.compute_cases n e ff limit
  · rw [h]
    exact (frame_setLoop s n l).mono (by decide)
  · rw [h]
    exact frame_numericFault _ _ _ _ _

theorem Dev.loop_compute_ne (s : Dev) {n m : Nat} (hm : m ≠ n) (e ff : F32) (limit : F32 → F32) : (s.compute n e ff limit).loop m = s.loop m := by
  obtain ⟨l, h⟩ | ⟨l, h⟩ := s.compute_cases n e ff limit
  · rw [h, Dev.loop_setLoop, if_neg hm]
  · rw [h, Dev.loop_numericFault_ne _ hm]

theorem Dev.mem_todo_compute {s : Dev} {x : Todo} (hx : x ∈ s.todo) (n : Nat) (e ff : F32) (limit : F32 → F32) : x ∈ (s.compute n e ff limit).todo := by
  obtain ⟨l, h⟩ | ⟨l, h⟩ := s.compute_cases n e ff limit
  · rw [h]
    exact hx
  · rw [h, Dev.todo_numericFault]
    exact List.mem_append_left _ hx

/-! The correction of an axis (R302) -/

/-- The axis on its corrected rate from an `up` on. -/
def Axis.corrected (a : Axis) (cor : Int) (up : Nat) : Axis :=
  { a with off := a.off + a.cor * (4 * (up - a.corAt) : Nat) / 1000000000, cor, corAt := up }

/-- A correction changes the rate, and not the place. -/
theorem Axis.posAt_corrected (a : Axis) (cor : Int) (up : Nat) : (a.corrected cor up).posAt up = a.posAt up := by
  unfold Axis.posAt Axis.kinAt Axis.corrected Axis.prof Kin.steps
  simp [Int.add_assoc]

/-- The rate that a loop's output adds. -/
def Dev.corRate (s : Dev) (n : Nat) : Int :=
  if (s.axis n).st == .moving && n < 16 && (s.loop n).st != .open_ && decide ((s.axis n).kAt ≤ s.up) then fToInt (s.loop n).u nmMm - (s.axRef n).v else 0

theorem Dev.axCorrect_eq (s : Dev) (n : Nat) :
    s.axCorrect n = if (s.axis n).legs.isEmpty then s else s.setAxis n ((s.axis n).corrected (s.corRate n) s.up) := rfl

theorem frame_axCorrect (s : Dev) (n : Nat) : Frame [.axes] s (s.axCorrect n) := by
  rw [Dev.axCorrect_eq]
  split
  · exact .refl _ _
  · exact frame_setAxis s n _

theorem Dev.axis_axCorrect (s : Dev) (n m : Nat) : (s.axCorrect n).axis m =
    if m = n ∧ (s.axis n).legs.isEmpty = false then (s.axis n).corrected (s.corRate n) s.up else s.axis m := by
  rw [Dev.axCorrect_eq]
  by_cases hl : (s.axis n).legs.isEmpty
  · rw [if_pos hl, if_neg (by simp [hl])]
  · rw [if_neg hl, Dev.axis_setAxis]
    simp [hl]

/-- An axis whose slot has computed, and is then corrected. -/
theorem Dev.axCorrect_setLoop (u : Dev) (n : Nat) (l : LoopSlot) :
    ((u.setLoop n l).axCorrect n).axPos n = u.axPos n ∧ ((u.setLoop n l).axCorrect n).axEnc16 n = u.axEnc16 n ∧
      (((u.setLoop n l).axCorrect n).axis n).st = (u.axis n).st ∧ ((u.setLoop n l).axCorrect n).loop n = l ∧
      (∀ m, m ≠ n → ((u.setLoop n l).axCorrect n).loop m = u.loop m ∧ ((u.setLoop n l).axCorrect n).axis m = u.axis m) ∧
      ((u.setLoop n l).axCorrect n).axis n =
        (if (u.axis n).legs.isEmpty = false then (u.axis n).corrected ((u.setLoop n l).corRate n) u.up else u.axis n) ∧
      Frame [.axes, .ctl] u ((u.setLoop n l).axCorrect n) := by
  have hf := frame_axCorrect (u.setLoop n l) n
  have hall : Frame [.axes, .ctl] u ((u.setLoop n l).axCorrect n) := ((frame_setLoop u n l).append hf).mono (by decide)
  have hloop := Dev.loop_of_frame hf (by decide)
  have hax : ((u.setLoop n l).axCorrect n).axis n =
      (if (u.axis n).legs.isEmpty = false then (u.axis n).corrected ((u.setLoop n l).corRate n) u.up else u.axis n) := by
    rw [Dev.axis_axCorrect]
    exact if_congr (and_iff_right rfl) rfl rfl
  have hup : ((u.setLoop n l).axCorrect n).up = u.up := congrArg Clock.up (hall .clk (by decide))
  have hfld : ((u.setLoop n l).axCorrect n).fld (axF n 0x1C 0 32) = u.fld (axF n 0x1C 0 32) := Dev.fld_of_frame hall (by decide) _
  refine ⟨?_, ?_, ?_, (hloop n).trans ((Dev.loop_setLoop u n n l).trans (if_pos rfl)),
    fun m hm => ⟨(hloop m).trans ((Dev.loop_setLoop u n m l).trans (if_neg hm)), ?_⟩, hax, hall⟩
  · unfold Dev.axPos
    rw [hax, hup]
    split
    · exact Axis.posAt_corrected _ _ _
    · rfl
  · unfold Dev.axEnc16
    rw [hax, hfld]
    split <;> rfl
  · rw [hax]
    split <;> rfl
  · rw [Dev.axis_axCorrect, if_neg fun h => hm h.1]
    rfl

/-! A sample of an axis (R290) -/

/-- The device at a sample: time gone on, and the encoder counted. -/
def Dev.sampled (s : Dev) (dt n : Nat) (cnt : Int) : Dev :=
  if s.axEnc n then (s.tick dt).setAxis n { s.axis n with encCnt := (s.axis n).encCnt + cnt } else s.tick dt

/-- Is the following error of an axis one that stops it (R290)? -/
def Dev.offTrack (u : Dev) (n : Nat) (enc : Bool) (a : Axis) : Bool :=
  enc && a.st != .disabled && decide (u.fld (axF n 0x20 0 24) < (u.axPos n - u.axEncPos n).natAbs) && !(a.st = .fault && a.faultBy = 9)

/-- A computation of an axis slot, and the correction it makes. -/
def Dev.axCompute (s : Dev) (n : Nat) : Dev := (s.compute n (s.axIn n).1 (s.axIn n).2 (s.axLimit n (s.loop n).u)).axCorrect n

theorem frame_sampled (s : Dev) (dt n : Nat) (cnt : Int) : Frame [.clk, .out, .axes] s (s.sampled dt n cnt) := by
  unfold Dev.sampled
  split
  · exact (frame_tick s dt).append (frame_setAxis _ _ _)
  · exact (frame_tick s dt).mono (by decide)

theorem Dev.axis_sampled (s : Dev) (dt n : Nat) (cnt : Int) : (∀ m, m ≠ n → (s.sampled dt n cnt).axis m = s.axis m) ∧
    ∃ c, (s.sampled dt n cnt).axis n = { s.axis n with encCnt := c } := by
  unfold Dev.sampled
  split
  · exact ⟨fun m hm => (Dev.axis_setAxis _ n m _).trans (if_neg hm), _, (Dev.axis_setAxis _ n n _).trans (if_pos rfl)⟩
  · exact ⟨fun _ _ => rfl, _, rfl⟩

theorem exec_axisLoopSample {s : State} (dt : Nat) {n : Nat} (cnt : Int) (hn : n < 24) (hp : s.upd.pause ≠ some 4) :
    exec (.axisLoopSample dt n cnt) s = s.act fun _ =>
      (if (s.sampled dt n cnt).offTrack n (s.axEnc n) (s.axis n) then ((s.sampled dt n cnt).axHard n 9 stAxsStopped .fault).raise 0xA3
        else s.sampled dt n cnt).axCompute n := by
  have hpu : (s.sampled dt n cnt).upd.pause ≠ some 4 := by
    rw [(frame_sampled s.toDev dt n cnt) .upd (by decide)]
    exact hp
  show execAxisLoopSample dt n cnt s = _
  refine State.act_congr ((if_neg (Nat.not_le.2 hn)).trans ((if_neg hpu).trans ?_))
  rfl

theorem Dev.sampled_enc {s : Dev} (dt : Nat) {n : Nat} (cnt : Int) (henc : s.axEnc n = true) :
    s.sampled dt n cnt = (s.tick dt).setAxis n { s.axis n with encCnt := (s.axis n).encCnt + cnt } := if_pos henc

theorem lt_of_axEnc {s : Dev} {n : Nat} (h : s.axEnc n = true) : n < 16 := of_decide_eq_true (Bool.and_eq_true_iff.1 h).1

/-- A sample of an axis that keeps near its profile (R252, R302). -/
theorem Completes.axisLoopSample {s : State} {dt n : Nat} {cnt : Int} {l : LoopSlot} {P : Dev → Prop} (hs : s.Settled) (hn : n < 24)
    (hp : s.upd.pause ≠ some 4)
    (hnear : s.axEnc n = false ∨ ((s.sampled dt n cnt).axPos n - (s.sampled dt n cnt).axEncPos n).natAbs ≤ s.fld (axF n 0x20 0 24))
    (hc : (s.sampled dt n cnt).compute n ((s.sampled dt n cnt).axIn n).1 ((s.sampled dt n cnt).axIn n).2
      ((s.sampled dt n cnt).axLimit n (s.loop n).u) = (s.sampled dt n cnt).setLoop n l)
    (hP : ∀ t, t.clk = (s.sampled dt n cnt).clk → t.axPos n = (s.sampled dt n cnt).axPos n → t.axEnc16 n = (s.sampled dt n cnt).axEnc16 n →
      (t.axis n).st = (s.axis n).st → t.loop n = l → (∀ m, m ≠ n → t.loop m = s.loop m ∧ t.axis m = s.axis m) →
      t.axis n = (if (s.axis n).legs.isEmpty = false then
        ((s.sampled dt n cnt).axis n).corrected (((s.sampled dt n cnt).setLoop n l).corRate n) (s.sampled dt n cnt).up else (s.sampled dt n cnt).axis n) →
      Frame [.clk, .out, .axes, .ctl] s.toDev t → P t) : Completes (.axisLoopSample dt n cnt) s P := by
  have he := exec_axisLoopSample dt cnt hn hp
  have hu := frame_sampled s.toDev dt n cnt
  obtain ⟨hother, c, hself⟩ := Dev.axis_sampled s.toDev dt n cnt
  have hloop := Dev.loop_of_frame hu (by decide)
  generalize s.sampled dt n cnt = u at he hu hother hself hloop hnear hc hP
  have hoff : u.offTrack n (s.axEnc n) (s.axis n) = false := by
    unfold Dev.offTrack
    obtain h | h := hnear
    · rw [h]
      rfl
    · rw [Dev.fld_of_frame hu (by decide)]
      simp [Nat.not_lt.2 h]
  rw [if_neg (by rw [hoff]; decide), Dev.axCompute, hloop n, hc] at he
  obtain ⟨h1, h2, h3, h4, h5, h6, h7⟩ := Dev.axCorrect_setLoop u n l
  generalize hw : (u.setLoop n l).corRate n = r at h6 hP
  generalize (u.setLoop n l).axCorrect n = t at he h1 h2 h3 h4 h5 h6 h7
  have hf := (hu.append h7).mono (d := [.clk, .out, .axes, .ctl]) (by decide)
  have hlegs : (u.axis n).legs = (s.axis n).legs := by rw [hself]
  refine .of_effect hs hf he (by decide) (by decide) (hP t (h7 .clk (by decide)) h1 h2 ?_ h4
    (fun m hm => ⟨(h5 m hm).1.trans (hloop m), (h5 m hm).2.trans (hother m hm)⟩) ?_ hf)
  · rw [h3, hself]
  · rw [h6, hlegs]

/-- An OPEN slot adds no rate. -/
theorem Dev.corRate_open (u : Dev) (n : Nat) {l : LoopSlot} (h : l.st = .open_) : (u.setLoop n l).corRate n = 0 := by
  unfold Dev.corRate
  rw [Dev.loop_setLoop, if_pos rfl, h]
  simp

theorem Completes.axisLoopSample_open {s : State} {dt n : Nat} {cnt : Int} {u : Dev} {v : F32} (hu : u = s.sampled dt n cnt) (hs : s.Settled) (hn : n < 24)
    (hp : s.upd.pause ≠ some 4) (hst : (s.loop n).st = .open_)
    (hnear : s.axEnc n = false ∨ (u.axPos n - u.axEncPos n).natAbs ≤ s.fld (axF n 0x20 0 24))
    (hv : v = fAdd (u.axIn n).2 (s.loop n).i) (hfin : fFinite v = true) (hlim : fFinite (u.axLimit n (s.loop n).u v) = true) :
    Completes (.axisLoopSample dt n cnt) s fun t => t.clk = u.clk ∧ t.axPos n = u.axPos n ∧ t.axEnc16 n = u.axEnc16 n ∧
      (t.axis n).st = (s.axis n).st ∧ (t.axis n).cor = (if (s.axis n).legs = [] then (s.axis n).cor else 0) ∧
      t.loop n = { s.loop n with u := u.axLimit n (s.loop n).u v, ff := (u.axIn n).2, sat := !fEq (u.axLimit n (s.loop n).u v) v, misses := 0 } ∧
      (∀ m, m ≠ n → t.loop m = s.loop m ∧ t.axis m = s.axis m) ∧ Frame [.clk, .out, .axes, .ctl] s.toDev t := by
  subst hv
  have hloop : u.loop n = s.loop n := by
    rw [hu]
    exact Dev.loop_of_frame (frame_sampled _ _ _ _) (by decide) n
  obtain ⟨-, c, hself⟩ := Dev.axis_sampled s.toDev dt n cnt
  have hc := Dev.compute_open (s := u) (n := n) (e := (u.axIn n).1) (ff := (u.axIn n).2) (limit := u.axLimit n (s.loop n).u) (by rw [hloop]; exact hst)
    (by rw [hloop]; exact hfin) (by rw [hloop]; exact hlim)
  rw [hloop] at hc
  subst hu
  refine .axisLoopSample hs hn hp hnear hc fun t h1 h2 h3 h4 h5 h6 h7 h8 => ⟨h1, h2, h3, h4, ?_, h5, h6, h8⟩
  rw [h7]
  cases hl : (s.axis n).legs with
  | nil =>
    rw [hself]
    rfl
  | cons x xs =>
    rw [if_pos (show (x :: xs).isEmpty = false from rfl), if_neg (List.cons_ne_nil x xs)]
    exact Dev.corRate_open _ _ hst

theorem Completes.axisLoopSample_closed {s : State} {dt n : Nat} {cnt : Int} {u : Dev} {x : LoopSlot × Nat} (hu : u = s.sampled dt n cnt)
    (hs : s.Settled) (henc : s.axEnc n = true) (hp : s.upd.pause ≠ some 4) (hst : (s.loop n).st = .closed)
    (hnear : (u.axPos n - u.axEncPos n).natAbs ≤ s.fld (axF n 0x20 0 24))
    (hx : x = s.law n { s.loop n with misses := 0 } (u.axIn n).1 (u.axIn n).2 (u.axLimit n (s.loop n).u)) (hfin : x.1.finite = true)
    (hv : fFinite x.2 = true) :
    Completes (.axisLoopSample dt n cnt) s fun t => t.clk = u.clk ∧ t.loop n = x.1 ∧ t.axEncPos n = u.axEncPos n ∧ t.axPos n = u.axPos n ∧
      (t.axis n).st = (s.axis n).st ∧
      ((s.axis n).st = .moving → (s.axis n).legs ≠ [] → (s.axis n).kAt ≤ u.up → (t.axis n).cor = fToInt x.1.u nmMm - (u.axRef n).v) ∧
      (∀ m, m ≠ n → t.loop m = s.loop m ∧ t.axis m = s.axis m) ∧ Frame [.clk, .out, .axes, .ctl] s.toDev t := by
  have hn := lt_of_axEnc henc
  have hf := frame_sampled s.toDev dt n cnt
  rw [← hu] at hf
  have hloop : u.loop n = s.loop n := Dev.loop_of_frame hf (by decide) n
  obtain ⟨-, c, hself⟩ := Dev.axis_sampled s.toDev dt n cnt
  rw [← hu] at hself
  have hclosed : x.1.st = .closed := by
    rw [hx]
    exact hst
  have hc := Dev.compute_closed (s := u) (n := n) (x := x) (e := (u.axIn n).1) (ff := (u.axIn n).2) (limit := u.axLimit n (s.loop n).u)
    (by rw [hloop]; exact hst) (by rw [hloop, Dev.law_of_frame hf (by decide) (by decide)]; exact hx) hfin hv
  have hrate : (s.axis n).st = .moving → (s.axis n).kAt ≤ u.up → (u.setLoop n x.1).corRate n = fToInt x.1.u nmMm - (u.axRef n).v := fun hm hk => by
    have hax : (u.setLoop n x.1).axis n = u.axis n := rfl
    unfold Dev.corRate
    rw [Dev.loop_setLoop, if_pos rfl, hax, hself, hclosed]
    exact if_pos (by simp [hm, hn, show (u.setLoop n x.1).up = u.up from rfl, hk])
  subst hu
  refine .axisLoopSample hs (by omega) hp (.inr hnear) hc fun t h1 h2 h3 h4 h5 h6 h7 h8 => ⟨h1, h5, ?_, h2, h4, fun hm hl hk => ?_, h6, h8⟩
  · rw [Dev.axEncPos, h3, Dev.axEncPos]
  · rw [h7, if_pos (by simpa using hl), ← hrate hm hk]
    rfl

theorem CompletesThen.axisLoopSample_far {s : State} {dt n : Nat} {cnt : Int} {u : Dev} (hu : u = s.sampled dt n cnt) (henc : s.axEnc n = true)
    (hp : s.upd.pause ≠ some 4) (hst : (s.axis n).st ≠ .disabled) (hby : (s.axis n).st = .fault → (s.axis n).faultBy ≠ 9)
    (hfar : s.fld (axF n 0x20 0 24) < (u.axPos n - u.axEncPos n).natAbs) :
    CompletesThen (.axisLoopSample dt n cnt) s fun d => (d.axis n).st = .fault ∧ (d.axis n).lastStop = 9 ∧
        (d.axis n).pos = u.axEncPos n ∧ (d.axis n).move = none ∧ .fault 0xA3 false ∈ d.todo ∧ (∀ m, m ≠ n → d.axis m = s.axis m) := by
  have hn := lt_of_axEnc henc
  have he := exec_axisLoopSample dt cnt (Nat.lt_trans hn (by decide)) hp
  have hf := frame_sampled s.toDev dt n cnt
  have hother := (Dev.axis_sampled s.toDev dt n cnt).1
  rw [← hu] at he hf hother
  have hencU : u.axEnc n = true := by
    unfold Dev.axEnc Dev.flag
    rw [Dev.fld_of_frame hf (by decide)]
    exact henc
  have hoff : u.offTrack n (s.axEnc n) (s.axis n) = true := by
    unfold Dev.offTrack
    rw [Dev.fld_of_frame hf (by decide), henc]
    simp only [hfar, decide_true, Bool.and_true, Bool.true_and]
    simpa [hst, imp_iff_not_or] using hby
  rw [if_pos hoff] at he
  have hax := u.axis_axHard n 9 stAxsStopped .fault
  have htodo : .fault 0xA3 false ∈ ((u.axHard n 9 stAxsStopped .fault).raise 0xA3).todo := by
    rw [Dev.todo_raise]
    exact List.mem_append_right _ (List.mem_singleton.2 rfl)
  have haxR : ∀ m, ((u.axHard n 9 stAxsStopped .fault).raise 0xA3).axis m = (u.axHard n 9 stAxsStopped .fault).axis m := fun _ => rfl
  generalize (u.axHard n 9 stAxsStopped .fault).raise 0xA3 = v at he htodo haxR
  have hc := frame_compute v n (v.axIn n).1 (v.axIn n).2 (v.axLimit n (v.loop n).u)
  have hkeep := Dev.mem_todo_compute htodo n (v.axIn n).1 (v.axIn n).2 (v.axLimit n (v.loop n).u)
  unfold Dev.axCompute at he
  generalize v.compute n (v.axIn n).1 (v.axIn n).2 (v.axLimit n (v.loop n).u) = w at he hc hkeep
  have haxW : ∀ m, w.axis m = (u.axHard n 9 stAxsStopped .fault).axis m := fun m => (Dev.axis_of_frame hc (by decide) m).trans (haxR m)
  have hrest : w.axCorrect n = w := by
    rw [Dev.axCorrect_eq, haxW, hax, if_pos rfl]
    rfl
  rw [hrest] at he
  refine .of_effect he ⟨?_, ?_, ?_, ?_, hkeep, fun m hm => ?_⟩
  · rw [haxW, hax, if_pos rfl]
    rfl
  · rw [haxW, hax, if_pos rfl]
    rfl
  · rw [haxW, hax, if_pos rfl]
    exact if_pos hencU
  · rw [haxW, hax, if_pos rfl]
    rfl
  · rw [haxW, hax, if_neg hm, hother m hm]

/-! The pair of a robot (R255, R262, R264 to R266) -/

/-- The inputs of a robot's loops read of the control engine its records and its slots alone. -/
theorem Dev.pairIn_of_frame {s t : Dev} (h : Frame [.ctl] s t) (hs : t.ctl.sent = s.ctl.sent) (hloop : ∀ k, t.loop k = s.loop k) (i : Nat) (x : NT) :
    t.pairIn i x = s.pairIn i x := by
  have hrob : ∀ k, t.rob k = s.rob k := fun k => by rw [Dev.rob, h .trl (by decide), Dev.rob]
  have hfrk : ∀ k, t.frkSlot k = s.frkSlot k := fun k => by rw [Dev.frkSlot, h .frk (by decide), Dev.frkSlot]
  have htrl : t.trl = s.trl := h .trl (by decide)
  have hnear : ∀ k p, t.routeNear k p = s.routeNear k p := fun k p => by
    unfold Dev.routeNear
    rw [hrob, htrl]
  have hpred : ∀ k q y, t.predict k q y = s.predict k q y := fun k q y => by
    unfold Dev.predict
    rw [hrob, hnear, hs, Dev.lease_of_frame h (by decide), Dev.cls_of_frame h (by decide)]
  unfold Dev.pairIn
  rw [hrob, hfrk]
  simp only [hpred, hnear, Dev.fld_of_frame h (by decide), hloop, htrl]

/-- A robot's slots before they compute: the margin of the batch noted, and the references ramped. -/
def Dev.pairReady (s : Dev) (i : Nat) : Dev :=
  let due := ntAdd s.nt s.packLead
  let left := ntSince (BitVec.ofNat 64 (slotStart (s.batchSlots i due).1)) due * 1000000 / tickHz
  let s := { s with ctl := { s.ctl with margin := min s.ctl.margin (sat 16 left) } }
  let t := (s.lease i).tRep
  let s := s.setLoop (24 + 2 * i) (rampRef (s.loop (24 + 2 * i)) t)
  s.setLoop (24 + 2 * i + 1) (rampRef (s.loop (24 + 2 * i + 1)) t)

/-- The lateral slot computes, or in SAFE gives 0. -/
def Dev.latDone (s : Dev) (i : Nat) (x : PairIn) : Dev :=
  if s.saf.run = .safe then s.setLoop (24 + 2 * i) { (s.loop (24 + 2 * i)).onTime with u := 0 }
  else s.compute (24 + 2 * i) x.latE x.latFf (s.limitOut (24 + 2 * i) (fun v => v) (s.loop (24 + 2 * i)).u)

/-- The longitudinal slot computes, or for a robot that is stopped gives 0. -/
def Dev.lonDone (s : Dev) (i : Nat) (stopped : Bool) (lon : LoopSlot) (x : PairIn) : Dev :=
  if stopped then s.setLoop (24 + 2 * i + 1) { lon.onTime with u := 0 }
  else s.compute (24 + 2 * i + 1) x.lonE x.lonFf (s.limitOut (24 + 2 * i + 1) (s.lonInner i lon.refNow x.sp) lon.u)

theorem exec_robotPairComputation {s : State} (dt : Nat) {i : Nat} (hi : i < s.nSlots) (hg : s.getsSetpoints i = true) (hp : s.upd.pause ≠ some 4) :
    exec (.robotPairComputation dt i) s = s.act fun _ =>
      let u := s.tick dt
      let r := u.pairReady i
      let at_ := r.setApply (u.batchSlots i (ntAdd u.nt u.packLead)).2
      let x := r.pairIn i at_
      let d := (r.latDone i x).lonDone i (r.stoppedRobot i) (r.loop (24 + 2 * i + 1)) x
      d.sendSetpoint i at_ false (r.stoppedRobot i) (fToInt (d.loop (24 + 2 * i + 1)).u 1000) (fToInt (d.loop (24 + 2 * i)).u 1000000) := by
  have hi' : ¬ (s.tick dt).nSlots ≤ i := Nat.not_le.2 hi
  have hg' : (s.tick dt).getsSetpoints i = true := hg
  show execRobotPairComputation dt i s = _
  refine State.act_congr ((if_neg (by simp [hi', hg', hp])).trans ?_)
  rfl

theorem Dev.pairReady_frame (s : Dev) (i : Nat) : Frame [.ctl] s (s.pairReady i) :=
  ((frame_withCtl s _).trans (frame_setLoop _ _ _)).trans (frame_setLoop _ _ _)

theorem Dev.sent_pairReady (s : Dev) (i : Nat) : (s.pairReady i).ctl.sent = s.ctl.sent := rfl

theorem Dev.loop_pairReady (s : Dev) (i : Nat) : (s.pairReady i).loop (24 + 2 * i) = rampRef (s.loop (24 + 2 * i)) (s.lease i).tRep ∧
    (s.pairReady i).loop (24 + 2 * i + 1) = rampRef (s.loop (24 + 2 * i + 1)) (s.lease i).tRep ∧
    (∀ m, m ≠ 24 + 2 * i → m ≠ 24 + 2 * i + 1 → (s.pairReady i).loop m = s.loop m) := by
  have hne : 24 + 2 * i + 1 ≠ 24 + 2 * i := by omega
  unfold Dev.pairReady
  refine ⟨?_, ?_, fun m h1 h2 => ?_⟩
  · rw [Dev.loop_setLoop, if_neg hne.symm, Dev.loop_setLoop, if_pos rfl]
    rfl
  · rw [Dev.loop_setLoop, if_pos rfl, Dev.loop_setLoop, if_neg hne]
    rfl
  · rw [Dev.loop_setLoop, if_neg h2, Dev.loop_setLoop, if_neg h1]
    rfl

/-- The inputs do not read the margin. -/
theorem Dev.pairIn_pairReady (u : Dev) (i : Nat) (x : NT) : (u.pairReady i).pairIn i x =
    ((u.setLoop (24 + 2 * i) (rampRef (u.loop (24 + 2 * i)) (u.lease i).tRep)).setLoop (24 + 2 * i + 1)
      (rampRef (u.loop (24 + 2 * i + 1)) (u.lease i).tRep)).pairIn i x := by
  obtain ⟨h1, h2, h3⟩ := u.loop_pairReady i
  have hsent := u.sent_pairReady i
  have hf := u.pairReady_frame i
  generalize u.pairReady i = r at h1 h2 h3 hsent hf
  have hg := (frame_setLoop u (24 + 2 * i) (rampRef (u.loop (24 + 2 * i)) (u.lease i).tRep)).trans
    (frame_setLoop _ (24 + 2 * i + 1) (rampRef (u.loop (24 + 2 * i + 1)) (u.lease i).tRep))
  refine Dev.pairIn_of_frame (Frame.between hg hf) hsent (fun k => ?_) i x
  rw [Dev.loop_setLoop, Dev.loop_setLoop]
  split
  · next hk => rw [hk, h2]
  · next hk =>
    split
    · next hk' => rw [hk', h1]
    · next hk' => exact h3 k hk' hk

theorem frame_latDone (s : Dev) (i : Nat) (x : PairIn) : Frame [.ctl, .regs, .todo] s (s.latDone i x) := by
  unfold Dev.latDone
  split
  · exact (frame_setLoop s _ _).mono (by decide)
  · exact frame_compute s _ _ _ _

theorem frame_lonDone (s : Dev) (i : Nat) (stopped : Bool) (lon : LoopSlot) (x : PairIn) : Frame [.ctl, .regs, .todo] s (s.lonDone i stopped lon x) := by
  unfold Dev.lonDone
  split
  · exact (frame_setLoop s _ _).mono (by decide)
  · exact frame_compute s _ _ _ _

theorem Dev.loop_lonDone_ne (s : Dev) {i m : Nat} (h : m ≠ 24 + 2 * i + 1) (stopped : Bool) (lon : LoopSlot) (x : PairIn) :
    (s.lonDone i stopped lon x).loop m = s.loop m := by
  unfold Dev.lonDone
  split
  · rw [Dev.loop_setLoop, if_neg h]
  · exact s.loop_compute_ne h _ _ _

theorem Dev.loop_lonDone_stopped (s : Dev) (i : Nat) (lon : LoopSlot) (x : PairIn) : ((s.lonDone i true lon x).loop (24 + 2 * i + 1)).u = 0 := by
  rw [Dev.lonDone, if_pos rfl, Dev.loop_setLoop, if_pos rfl]

/-- What a robot's computation leaves, and the set-point it sends. -/
theorem exec_robotPair_sends {s : State} {dt i : Nat} {u : Dev} {at_ : NT} (hu : u = s.tick dt) (hat : at_ = u.setApply (u.batchSlots i (ntAdd u.nt u.packLead)).2)
    (hi : i < s.nSlots) (hg : s.getsSetpoints i = true) (hp : s.upd.pause ≠ some 4) :
    ∃ d, d = ((u.pairReady i).latDone i ((u.pairReady i).pairIn i at_)).lonDone i (s.stoppedRobot i) ((u.pairReady i).loop (24 + 2 * i + 1))
        ((u.pairReady i).pairIn i at_) ∧
      exec (.robotPairComputation dt i) s = s.act fun _ => d.sendSetpoint i at_ false (s.stoppedRobot i)
        (fToInt (d.loop (24 + 2 * i + 1)).u 1000) (fToInt (d.loop (24 + 2 * i)).u 1000000) := by
  have he := exec_robotPairComputation dt hi hg hp
  have hstop : (u.pairReady i).stoppedRobot i = s.stoppedRobot i := by
    rw [hu]
    rfl
  have happly : ∀ k, (u.pairReady i).setApply k = u.setApply k := fun k => by
    unfold Dev.setApply
    rw [Dev.fld_of_frame (u.pairReady_frame i) (by decide)]
  dsimp only at he
  rw [← hu, hstop, happly, ← hat] at he
  exact ⟨_, rfl, he⟩

theorem CompletesThen.robotPair_stopped {s : State} {dt i : Nat} {u : Dev} {at_ : NT} (hu : u = s.tick dt)
    (hat : at_ = u.setApply (u.batchSlots i (ntAdd u.nt u.packLead)).2) (hi : i < s.nSlots) (hg : s.getsSetpoints i = true) (hp : s.upd.pause ≠ some 4)
    (hstop : s.stoppedRobot i = true) : CompletesThen (.robotPairComputation dt i) s fun d => (d.loop (24 + 2 * i + 1)).u = 0 ∧
        ((Tab.get (fun _ => []) d.ctl.sent i).head? = some { t := at_, v := 0, k := fToInt (d.loop (24 + 2 * i)).u 1000000 }) ∧
        Frame [.clk, .out, .ctl, .regs, .mac, .todo] s.toDev d := by
  obtain ⟨d, hd, he⟩ := exec_robotPair_sends hu hat hi hg hp
  have hfu : Frame [.clk, .out] s.toDev u := hu ▸ frame_tick s.toDev dt
  have hfr := u.pairReady_frame i
  rw [hstop] at hd he
  have hl := frame_latDone (u.pairReady i) i ((u.pairReady i).pairIn i at_)
  have hf := frame_lonDone ((u.pairReady i).latDone i ((u.pairReady i).pairIn i at_)) i true ((u.pairReady i).loop (24 + 2 * i + 1)) ((u.pairReady i).pairIn i at_)
  have hzero := Dev.loop_lonDone_stopped ((u.pairReady i).latDone i ((u.pairReady i).pairIn i at_)) i ((u.pairReady i).loop (24 + 2 * i + 1))
    ((u.pairReady i).pairIn i at_)
  rw [← hd] at hf hzero
  rw [hzero] at he
  have hv : fToInt 0 1000 = 0 := by decide
  rw [hv] at he
  refine .of_effect he ⟨?_, ?_, ((((hfu.append hfr).append hl).append hf).append (frame_sendSetpoint d i at_ false true 0 _)).mono (by decide)⟩
  · rw [Dev.loop_sendSetpoint]
    exact hzero
  · rw [Dev.sent_sendSetpoint, Dev.loop_sendSetpoint]

theorem Completes.robotPair_safe {s : State} {dt i : Nat} {u : Dev} {at_ : NT} (hu : u = s.tick dt)
    (hat : at_ = u.setApply (u.batchSlots i (ntAdd u.nt u.packLead)).2) (hs : s.Settled) (hi : i < s.nSlots) (hg : s.getsSetpoints i = true)
    (hp : s.upd.pause ≠ some 4) (hstop : s.stoppedRobot i = true) (hrun : s.saf.run = .safe) :
    Completes (.robotPairComputation dt i) s fun t => t.clk = u.clk ∧ (t.loop (24 + 2 * i)).u = 0 ∧ (t.loop (24 + 2 * i + 1)).u = 0 ∧
        ((Tab.get (fun _ => []) t.ctl.sent i).head? = some { t := at_, v := 0, k := 0 }) ∧
        (∀ m, m ≠ 24 + 2 * i → m ≠ 24 + 2 * i + 1 → t.loop m = s.loop m) ∧ Frame [.clk, .out, .ctl, .mac] s.toDev t := by
  obtain ⟨d, hd, he⟩ := exec_robotPair_sends hu hat hi hg hp
  have hfu : Frame [.clk, .out] s.toDev u := hu ▸ frame_tick s.toDev dt
  have hfr := u.pairReady_frame i
  obtain ⟨-, -, hother⟩ := u.loop_pairReady i
  have hrunR : (u.pairReady i).saf.run = .safe := by
    rw [hfr .saf (by decide), hfu .saf (by decide)]
    exact hrun
  rw [hstop] at hd he
  generalize (u.pairReady i).pairIn i at_ = x at hd
  generalize u.pairReady i = r at hd hfr hother hrunR
  unfold Dev.latDone Dev.lonDone at hd
  rw [if_pos hrunR, if_pos rfl] at hd
  have hf : Frame [.clk, .out, .ctl] s.toDev d := by
    rw [hd]
    exact ((hfu.append hfr).append ((frame_setLoop _ _ _).trans (frame_setLoop _ _ _))).mono (by decide)
  have hclk : d.clk = u.clk := by
    rw [hd]
    exact hfr .clk (by decide)
  have hne : 24 + 2 * i ≠ 24 + 2 * i + 1 := by omega
  have h1 : (d.loop (24 + 2 * i)).u = 0 := by rw [hd, Dev.loop_setLoop, if_neg hne, Dev.loop_setLoop, if_pos rfl]
  have h2 : (d.loop (24 + 2 * i + 1)).u = 0 := by rw [hd, Dev.loop_setLoop, if_pos rfl]
  have h3 : ∀ m, m ≠ 24 + 2 * i → m ≠ 24 + 2 * i + 1 → d.loop m = s.loop m := fun m hm hm' => by
    rw [hd, Dev.loop_setLoop, if_neg hm', Dev.loop_setLoop, if_neg hm, hother m hm hm', Dev.loop_of_frame hfu (by decide)]
  have hv : fToInt 0 1000 = 0 := by decide
  have hk : fToInt 0 1000000 = 0 := by decide
  rw [h1, h2, hv, hk] at he
  have hset := frame_sendSetpoint d i at_ false true 0 0
  have hall := (hf.append hset).mono (d := [.clk, .out, .ctl, .mac]) (by decide)
  refine .of_effect hs hall he (by decide) (by decide) ⟨(hset .clk (by decide)).trans hclk, ?_, ?_, Dev.sent_sendSetpoint _ _ _ _ _ _ _, fun m hm hm' => ?_, hall⟩
  · rw [Dev.loop_sendSetpoint, h1]
  · rw [Dev.loop_sendSetpoint, h2]
  · rw [Dev.loop_sendSetpoint, h3 m hm hm']

theorem CompletesThen.robotPair_closed {s : State} {dt i : Nat} {u : Dev} {at_ : NT} {p : PairIn} {x : LoopSlot × Nat} (hu : u = s.tick dt)
    (hat : at_ = u.setApply (u.batchSlots i (ntAdd u.nt u.packLead)).2)
    (hpair : p = ((u.setLoop (24 + 2 * i) (rampRef (s.loop (24 + 2 * i)) (s.lease i).tRep)).setLoop (24 + 2 * i + 1)
        (rampRef (s.loop (24 + 2 * i + 1)) (s.lease i).tRep)).pairIn i at_)
    (hi : i < s.nSlots) (hg : s.getsSetpoints i = true) (hp : s.upd.pause ≠ some 4) (hrun : s.saf.run ≠ .safe) (hst : (s.loop (24 + 2 * i)).st = .closed)
    (hx : x = s.law (24 + 2 * i) { rampRef (s.loop (24 + 2 * i)) (s.lease i).tRep with misses := 0 } p.latE p.latFf
      (s.limitOut (24 + 2 * i) (fun v => v) (s.loop (24 + 2 * i)).u)) (hfin : x.1.finite = true) (hv : fFinite x.2 = true) :
    CompletesThen (.robotPairComputation dt i) s fun d => d.loop (24 + 2 * i) = x.1 ∧
        (Tab.get (fun _ => []) d.ctl.sent i).head? = some {
          t := at_, v := fToInt (d.loop (24 + 2 * i + 1)).u 1000, k := fToInt x.1.u 1000000 } ∧ Frame [.clk, .out, .ctl, .regs, .mac, .todo] s.toDev d := by
  obtain ⟨d, hd, he⟩ := exec_robotPair_sends hu hat hi hg hp
  have hfu : Frame [.clk, .out] s.toDev u := hu ▸ frame_tick s.toDev dt
  have hfr := u.pairReady_frame i
  have hsu := hfu.append hfr
  have hloopU := Dev.loop_of_frame hfu (by decide)
  obtain ⟨hlat, -, -⟩ := u.loop_pairReady i
  have hpair' : (u.pairReady i).pairIn i at_ = p := by
    rw [hpair, ← hloopU, ← hloopU, ← Dev.lease_of_frame hfu (by decide)]
    exact u.pairIn_pairReady i at_
  rw [hpair'] at hd
  rw [hloopU, Dev.lease_of_frame hfu (by decide)] at hlat
  generalize u.pairReady i = r at hd hfr hsu hlat
  have hrunR : r.saf.run ≠ .safe := by
    rw [hsu .saf (by decide)]
    exact hrun
  have hstR : (r.loop (24 + 2 * i)).st = .closed := by
    rw [hlat]
    exact hst
  have huR : (r.loop (24 + 2 * i)).u = (s.loop (24 + 2 * i)).u := by
    rw [hlat]
    rfl
  have hlatDone : r.latDone i p = r.setLoop (24 + 2 * i) x.1 := by
    unfold Dev.latDone
    rw [if_neg hrunR]
    refine Dev.compute_closed hstR ?_ hfin hv
    rw [huR, hlat, Dev.law_of_frame hsu (by decide) (by decide), Dev.limitOut_of_frame hsu (by decide) (by decide)]
    exact hx
  rw [hlatDone] at hd
  have hf := frame_lonDone (r.setLoop (24 + 2 * i) x.1) i (s.stoppedRobot i) (r.loop (24 + 2 * i + 1)) p
  have hown := Dev.loop_lonDone_ne (r.setLoop (24 + 2 * i) x.1) (i := i) (m := 24 + 2 * i) (by omega) (s.stoppedRobot i) (r.loop (24 + 2 * i + 1)) p
  rw [Dev.loop_setLoop, if_pos rfl] at hown
  rw [← hd] at hf hown
  rw [hown] at he
  have hset := frame_sendSetpoint d i at_ false (s.stoppedRobot i) (fToInt (d.loop (24 + 2 * i + 1)).u 1000) (fToInt x.1.u 1000000)
  refine .of_effect he ⟨?_, ?_, (((hsu.append (frame_setLoop r _ _)).append hf).append hset).mono (by decide)⟩
  · rw [Dev.loop_sendSetpoint, hown]
  · rw [Dev.sent_sendSetpoint, Dev.loop_sendSetpoint]

/-- Settles O25: a computation sets its own slot by the law of its inputs, and what it changes of axis or robot is the correction or the set-point. -/
theorem theControlEngineComputesItsSlots : Obligations.TheControlEngineComputesItsSlots := by
  refine ⟨?_, ?_, ?_, ?_, ?_, ?_⟩
  · intro s dt n cnt u v hu
    exact .axisLoopSample_open hu
  · intro s dt n cnt u x hu hs henc
    exact .axisLoopSample_closed (hu.trans (Dev.sampled_enc dt cnt henc).symm) hs henc
  · intro s dt n cnt u hu henc
    exact .axisLoopSample_far (hu.trans (Dev.sampled_enc dt cnt henc).symm) henc
  · intro s dt i u due at_ hu hdue hat
    rw [show 25 + 2 * i = 24 + 2 * i + 1 by omega]
    exact .robotPair_safe hu (hdue ▸ hat)
  · intro s dt i u due at_ hu hdue hat hi hg hp hstop _
    rw [show 25 + 2 * i = 24 + 2 * i + 1 by omega]
    exact .robotPair_stopped hu (hdue ▸ hat) hi hg hp hstop
  · intro s dt i u due at_ p x hu hdue hat hpair hi hg hp _ hrun
    rw [show 25 + 2 * i = 24 + 2 * i + 1 by omega] at hpair ⊢
    exact .robotPair_closed hu (hdue ▸ hat) hpair hi hg hp hrun

end Sys2Proof.Machine

/-! ### Transactions validated -/
namespace Sys2Proof.Machine

/-- The opening of an axis slot that is not OPEN, validated for the first slot boundary 1 ms ahead or more (R225, R226). -/
def Txn.openingAt (x : Txn) (id : Nat) (a : NT) : Txn :=
  { x with id, phase := .staged, applyAt := some a, cNt := commitOf a, parts := [], tasks := [], overs := [], behind := [], stuck := [], payloads := [] }

theorem Txn.fleet_opening {x : Txn} {n set steer blend : Nat} (hstep : x.step = false) (hacts : x.acts = [.loopMode n 1 set steer blend]) (hn : n < 24) :
    x.fleet = false := by
  unfold Txn.fleet
  rw [hstep, hacts]
  simp [Action.fleet, Nat.not_le.2 hn]

theorem Dev.loopJudge_open {u : Dev} {n : Nat} (hn : n < 24) (set steer blend : Nat) :
    u.loopJudge n 1 set steer blend = (stOK, (u.loop n).st != .open_) := by
  have hbig : ¬ u.nLoops ≤ n := by
    unfold Dev.nLoops
    split <;> omega
  exact if_neg hbig

/-- The judgement of the opening of an axis slot leaves no trace. -/
theorem Val.judge_opening (t : Txn) (a : NT) {v : Val} {n : Nat} (hn : n < 24) (set steer blend : Nat) (herr : v.err = none) (hparts : v.parts = []) (i : Nat) :
    Val.judge t a v (.loopMode n 1 set steer blend, i) = v := by
  have hact : Val.act t a v (.loopMode n 1 set steer blend, i) = v := by
    unfold Val.act
    simp only [herr, Dev.loopJudge_open hn, show loopRobot n = none from if_neg (by omega)]
    rfl
  unfold Val.judge
  rw [hact]
  simp [hparts]

theorem Dev.chooseApply_opening {u : Dev} {x : Txn} (hf : x.fleet = false) (ha : x.applyAt = none) :
    u.chooseApply x = (stOK, slotAtOrAfter (ntAdd u.nt (msTicks 1 : Nat)), commitOf (slotAtOrAfter (ntAdd u.nt (msTicks 1 : Nat))), false) := by
  unfold Dev.chooseApply
  rw [ha]
  simp [hf]

theorem Dev.recsMeet_nothing (u : Dev) (t : Txn) {v : Val} (hparts : v.parts = []) (htasks : v.tasks = []) : u.recsMeet t v = false := by
  unfold Dev.recsMeet
  rw [hparts, htasks]
  simp only [List.flatMap_nil, List.eraseDups_nil, List.map_nil, List.length_nil, bne_self_eq_false, Bool.false_or, List.contains_nil, List.any_eq_false,
    List.mem_filter]
  intro y _
  simp only [Bool.not_eq_true]
  simp
  intro p _ r _
  split <;> rfl

/-- A transaction in flight that takes the place of the one as it waited. -/
def Dev.stageTxn (u : Dev) (x y : Txn) : Dev :=
  { u with txu := { u.txu with
    nextId := if u.txu.nextId = 0xFFFFFF then 1 else u.txu.nextId + 1
    txns := u.txu.txns.map fun z => if z.id = x.id ∧ z.handle = x.handle ∧ z.received = x.received then y else z } }

theorem Dev.validate_opening {u : Dev} {x : Txn} {n set steer blend : Nat} {a : NT} (hid : x.id = 0) (hstep : x.step = false)
    (hacts : x.acts = [.loopMode n 1 set steer blend]) (hn : n < 24) (hst : (u.loop n).st ≠ .open_) (happly : x.applyAt = none)
    (hfree : ∀ r ∈ u.trl.resv, ¬ (r.txn = u.txu.nextId ∧ r.staged = true)) (ha : a = slotAtOrAfter (ntAdd u.nt (msTicks 1 : Nat))) :
    u.validate x [] = (u.stageTxn x (x.openingAt u.txu.nextId a)).progressTxn x 1 (validRes u.txu.nextId a) := by
  have hf := Txn.fleet_opening hstep hacts hn
  have hfilter : (u.trl.resv.filter fun r => r.txn = u.txu.nextId && r.staged) = [] :=
    List.filter_eq_nil_iff.2 fun r hr => by simpa using hfree r hr
  have hbench : x.benchSet = [] := by
    unfold Txn.benchSet
    rw [hacts]
    rfl
  have hquiet : (u.loop n).st != .open_ := by simpa using hst
  have hjudge := fun t (v : Val) herr hparts => Val.judge_opening t a (v := v) hn set steer blend herr hparts 0
  unfold Dev.validate
  rw [Dev.chooseApply_opening hf happly, ← ha]
  simp only [hid, hacts, hbench, List.zipIdx_cons, List.zipIdx_nil, List.foldl_cons, List.foldl_nil, hjudge, if_true]
  refine (if_neg (by simp [Dev.loopJudge_open hn, hst])).trans ((if_neg (by simp)).trans ((if_neg (by simp)).trans
    ((if_neg (by simp [Dev.recsMeet_nothing])).trans ((if_neg (by simp)).trans ?_))))
  rw [hfilter]
  dsimp only [List.length_nil, decide_true]
  refine (if_neg (by simp [Txn.fleet, hstep, Action.fleet, Nat.not_le.2 hn])).trans ?_
  unfold Dev.stageTxn Txn.openingAt
  simp only [hid, hacts]
  rfl

theorem exec_txnValidationEnd {s : State} (dt : Nat) {x : Txn} (pays : List (Option (List Byte))) (hhand : s.par.hand = none)
    (hx : s.txu.txns.find? (fun y => y.phase == .waiting) = some x) :
    exec (.txnValidationEnd dt pays) s = s.act fun _ => (s.tick dt).validate x pays := by
  have hfind : (if (s.tick dt).par.hand.isSome then none else (s.tick dt).txu.txns.find? fun (t : Txn) => t.phase = .waiting) = some x := by
    have h : (fun (t : Txn) => decide (t.phase = .waiting)) = fun y => y.phase == .waiting := by
      funext t
      rw [Bool.eq_iff_iff]
      simp
    rw [if_neg (by rw [show (s.tick dt).par.hand = none from hhand]; decide), h]
    exact hx
  show execTxnValidationEnd dt pays s = _
  refine State.act_congr ?_
  dsimp only
  split
  · next y hy =>
    obtain rfl := Option.some.inj (hy.symm.trans hfind)
    rfl
  · next hy => cases hy.symm.trans hfind

theorem frame_stageTxn (u : Dev) (x y : Txn) : Frame [.txu] u (u.stageTxn x y) := frame_withTxu u _

theorem Completes.txnValidationEnd_opens {s : State} {dt n h set steer blend : Nat} {l : Live} {x : Txn} (hs : s.Settled)
    (hx : s.txu.txns.find? (fun y => y.phase == .waiting) = some x) (hid : x.id = 0) (hstep : x.step = false)
    (hacts : x.acts = [.loopMode n 1 set steer blend]) (hn : n < 24) (hst : (s.loop n).st ≠ .open_) (happly : x.applyAt = none)
    (hround : x.round = false) (hh : x.handle = some h) (hw : s.Waits h l) (hroom : s.Room l.cq) (hhand : s.par.hand = none)
    (hfree : ∀ r ∈ s.trl.resv, ¬ (r.txn = s.txu.nextId ∧ r.staged = true)) :
    Completes (.txnValidationEnd dt []) s fun t =>
      let a := slotAtOrAfter (ntAdd t.nt (msTicks 1))
      t.Progressed l 1 (validRes s.txu.nextId a) ∧ t.txu.nextId = (if s.txu.nextId = 0xFFFFFF then 1 else s.txu.nextId + 1) ∧
      (∃ y ∈ t.txu.txns, y.id = s.txu.nextId ∧ y.phase = .staged ∧ y.applyAt = some a ∧ y.acts = x.acts ∧ y.handle = x.handle ∧ y.parts = []) ∧
      t.clk = s.clk.run dt ∧ Frame [.clk, .out, .hif, .txu] s.toDev t := by
  have he := (exec_txnValidationEnd dt [] hhand hx).trans
    (congrArg (fun d : Dev => s.act fun _ => d) (Dev.validate_opening (u := s.tick dt) hid hstep hacts hn hst happly hfree rfl))
  have hu := frame_tick s.toDev dt
  have hclk : (s.tick dt).clk = s.clk.run dt := rfl
  have htxu : (s.tick dt).txu = s.txu := rfl
  generalize s.tick dt = u at he hu hclk htxu
  rw [htxu] at he
  generalize ha : slotAtOrAfter (ntAdd u.nt (msTicks 1 : Nat)) = a at he
  have hprog : (u.stageTxn x (x.openingAt s.txu.nextId a)).progressTxn x 1 (validRes s.txu.nextId a) =
      (u.stageTxn x (x.openingAt s.txu.nextId a)).progress h 1 (validRes s.txu.nextId a) := by
    unfold Dev.progressTxn
    rw [hh]
    exact if_neg (by rw [hround]; decide)
  rw [hprog] at he
  have hv := frame_stageTxn u x (x.openingAt s.txu.nextId a)
  have hvtxu : (u.stageTxn x (x.openingAt s.txu.nextId a)).txu = { s.txu with
      nextId := if s.txu.nextId = 0xFFFFFF then 1 else s.txu.nextId + 1
      txns := s.txu.txns.map fun z => if z.id = x.id ∧ z.handle = x.handle ∧ z.received = x.received then x.openingAt s.txu.nextId a else z } := by
    rw [← htxu]
    rfl
  generalize u.stageTxn x (x.openingAt s.txu.nextId a) = v at he hv hvtxu
  have hsv := hu.append hv
  have hwv := hw.of_frame hsv (by decide) (Dev.reg_of_frame hsv (by decide) _)
  have hhif : v.hif = s.hif := hsv .hif (by decide)
  have hroomV : v.Room l.cq := hroom.of_same (Dev.reg_of_frame hsv (by decide) _) (congrArg Hif.bme hhif) (congrArg Hif.cqs hhif) (congrArg Hif.live hhif)
  obtain ⟨hl, ho, -⟩ := hwv
  obtain ⟨hp, -, hf⟩ := Dev.progress_room 1 (validRes s.txu.nextId a) hl ho hroomV
  have hclkT : (v.progress h 1 (validRes s.txu.nextId a)).clk = u.clk := (hf .clk (by decide)).trans (hv .clk (by decide))
  have htxuT : (v.progress h 1 (validRes s.txu.nextId a)).txu = v.txu := hf .txu (by decide)
  have hall := (hsv.append hf).mono (d := [.clk, .out, .hif, .txu]) (by decide)
  generalize v.progress h 1 (validRes s.txu.nextId a) = t at he hp hf hclkT htxuT hall
  have hnt : t.nt = u.nt := by
    unfold Dev.nt
    rw [hclkT]
  refine .of_effect hs hall he (by decide) (by decide) ?_
  dsimp only
  rw [hnt, ha]
  refine ⟨hp, by rw [htxuT, hvtxu], ⟨x.openingAt s.txu.nextId a, ?_, rfl, rfl, rfl, rfl, rfl, rfl⟩, hclkT.trans hclk, hall⟩
  rw [htxuT, hvtxu]
  exact List.mem_map.2 ⟨x, List.mem_of_find?_eq_some hx, if_pos ⟨rfl, rfl, rfl⟩⟩

/-! A transaction that ends before it has an id -/

theorem Dev.purgeTxn_zero (s : Dev) : s.purgeTxn 0 = s := if_pos rfl

theorem Dev.unpend_nothing (s : Dev) {x : Txn} (h : x.tasks = []) : s.unpend x = s := by
  unfold Dev.unpend
  rw [h]
  rfl

theorem Dev.doneTxn_host (s : Dev) {x : Txn} {h : Nat} (hh : x.handle = some h) (hround : x.round = false) (halso : x.also = []) (code idx : Nat) :
    s.doneTxn x code idx = s.done h code (txnDone x idx) := by
  unfold Dev.doneTxn
  rw [halso, hh, if_neg (by rw [hround]; decide)]
  rfl

theorem Dev.abortTxn_unnamed (s : Dev) {x : Txn} {h : Nat} (hid : x.id = 0) (htasks : x.tasks = []) (hph : x.phase = .waiting) (hh : x.handle = some h)
    (hround : x.round = false) (halso : x.also = []) (code idx : Nat) (count : Bool) :
    s.abortTxn x code idx count = ((if count then s.cntSat (0x902C, 16, 16) else s).done h code (txnDone x idx)).dropTxn x := by
  unfold Dev.abortTxn
  simp only [Dev.unpend_nothing _ htasks]
  rw [hid, Dev.purgeTxn_zero, if_pos rfl, Dev.doneTxn_host _ hh hround halso]
  exact if_neg (by rw [hph]; decide)

/-- Once an action has failed no later one is judged. -/
theorem Val.judge_failed (t : Txn) (a : NT) {v : Val} {e : Nat × Nat} (herr : v.err = some e) (p : Action × Nat) : Val.judge t a v p = v := by
  have hact : Val.act t a v p = v := by
    unfold Val.act
    exact if_pos (by rw [herr]; rfl)
  unfold Val.judge
  rw [hact]
  exact if_neg (by rw [herr]; simp)

theorem Val.foldl_judge_failed (t : Txn) (a : NT) {e : Nat × Nat} (l : List (Action × Nat)) : ∀ {v : Val}, v.err = some e →
    l.foldl (Val.judge t a) v = v := by
  induction l with
  | nil => exact fun _ => rfl
  | cons p l ih =>
    intro v h
    rw [List.foldl_cons, Val.judge_failed t a h]
    exact ih h

/-- A first action that breaks R222 ends the transaction, whatever follows. -/
theorem Dev.validate_bad {u : Dev} {x : Txn} {rest : List Action} (hacts : x.acts = .bad :: rest) : u.validate x [] = u.refuseTxn x stBadAction 0 := by
  have hbad : ∀ (t : Txn) (a : NT), Val.judge t a { s := u, left := [] } (.bad, 0) = Val.fail { s := u, left := [] } stBadAction 0 := fun _ _ => rfl
  unfold Dev.validate
  simp only [hacts, List.zipIdx_cons, List.foldl_cons, hbad, Val.foldl_judge_failed _ _ _ (show (Val.fail { s := u, left := [] } stBadAction 0).err = some (stBadAction, 0) from rfl)]
  rfl

theorem frame_dropTxn (s : Dev) (x : Txn) : Frame [.txu] s (s.dropTxn x) := frame_withTxu s _

theorem Completes.txnValidationEnd_bad {s : State} {dt h : Nat} {l : Live} {x : Txn} {rest : List Action} (hs : s.Settled)
    (hx : s.txu.txns.find? (fun y => y.phase == .waiting) = some x) (hid : x.id = 0) (hacts : x.acts = .bad :: rest) (htasks : x.tasks = [])
    (hround : x.round = false) (halso : x.also = []) (hh : x.handle = some h) (hw : s.Waits h l) (hhand : s.par.hand = none) :
    Completes (.txnValidationEnd dt []) s fun t => t.Answered l stBadAction (txnDone x 0) ∧
        t.txu = { s.txu with txns := s.txu.txns.filter fun y => !(y.id = 0 && y.received = x.received && y.handle = x.handle) } ∧
        Frame [.clk, .out, .hif, .txu] s.toDev t := by
  have hph : x.phase = .waiting := by simpa using List.find?_some hx
  have hval : (s.tick dt).validate x [] = ((s.tick dt).done h stBadAction (txnDone x 0)).dropTxn x :=
    (Dev.validate_bad hacts).trans (Dev.abortTxn_unnamed _ hid htasks hph hh hround halso _ _ _)
  have he := (exec_txnValidationEnd dt [] hhand hx).trans (congrArg (fun d : Dev => s.act fun _ => d) hval)
  have hu := frame_tick s.toDev dt
  have hwu := hw.of_frame hu (by decide) (Dev.reg_of_frame hu (by decide) _)
  have hd := frame_done (s.tick dt) h stBadAction (txnDone x 0)
  have hans := hwu.done stBadAction (txnDone x 0)
  have hud := hu.append hd
  generalize (s.tick dt).done h stBadAction (txnDone x 0) = v at he hd hans hud
  have hdrop := frame_dropTxn v x
  have hall := (hud.append hdrop).mono (d := [.clk, .out, .hif, .txu]) (by decide)
  refine .of_effect hs hall he (by decide) (by decide) ⟨hans.of_frame hdrop (by decide), ?_, hall⟩
  unfold Dev.dropTxn
  rw [(hud .txu (by decide) : v.txu = s.txu), hid]

/-! The deadline of an offer (R228) -/

theorem Completes.offerDeadline {s : State} {h : Nat} {l : Live} {x : Txn} {a : NT} (hs : s.Settled) (hx : s.txu.txns = [x]) (hph : x.phase = .waiting)
    (hfleet : x.fleet = true) (happly : x.applyAt = some a) (hid : x.id = 0) (htasks : x.tasks = []) (hround : x.round = false) (halso : x.also = [])
    (hh : x.handle = some h) (hw : s.Waits h l) :
    Completes .offerDeadline s fun t => t.Answered l stDeadline (txnDone x 0xFF) ∧ t.txu = { s.txu with txns := [] } ∧
      t.fld (0x902C, 16, 16) = satInc 16 (s.fld (0x902C, 16, 16)) ∧ RegsBut [0x902C] s.toDev t ∧
      t.clk = s.clk.run (s.clk.cyclesTo (ntAdd (commitOf a) (-(s.offerLead : Nat)))) ∧ Frame [.clk, .out, .hif, .txu, .regs] s.toDev t := by
  have hdue : (s.txu.txns.filterMap fun (t : Txn) =>
      if t.phase = .waiting ∧ t.fleet then t.applyAt.map fun a => (t, ntAdd (commitOf a) (-(s.offerLead : Nat))) else none) =
      [(x, ntAdd (commitOf a) (-(s.offerLead : Nat)))] := by
    rw [hx]
    simp [hph, hfleet, happly]
  generalize ntAdd (commitOf a) (-(s.offerLead : Nat)) = at_ at hdue ⊢
  have he : exec .offerDeadline s = s.act fun _ => (((s.tickTo at_).cntSat (0x902C, 16, 16)).done h stDeadline (txnDone x 0xFF)).dropTxn x := by
    show execOfferDeadline s = _
    refine State.act_congr ?_
    dsimp only
    rw [hdue]
    have hfilter : ([(x, at_)].filter fun p => p.2 == at_) = [(x, at_)] := by simp
    show ([(x, at_)].filter fun p => p.2 == at_).foldl (fun s p => s.abortTxn p.1 stDeadline 0xFF true) (s.tickTo at_) = _
    rw [hfilter]
    exact Dev.abortTxn_unnamed _ hid htasks hph hh hround halso _ _ _
  have hu := frame_tickTo s.toDev at_
  have hclk := s.toDev.tickTo_clk at_
  generalize s.tickTo at_ = u at he hu hclk
  have hc := frame_cntSat u (0x902C, 16, 16)
  have hcount := u.fld_cntSat (0x902C, 16, 16) (by decide)
  have hregs := RegsBut.cntSat u (0x902C, 16, 16)
  generalize u.cntSat (0x902C, 16, 16) = v at he hc hcount hregs
  have huv := hu.append hc
  have hcqreg : v.reg (cqEn l.cq).1 = s.reg (cqEn l.cq).1 := by
    have ⟨_, _, _, _, hcq⟩ := hw
    exact (hregs _ (by simp [cqEn]; omega)).trans (Dev.reg_of_frame hu (by decide) _)
  have hans := (hw.of_frame huv (by decide) hcqreg).done stDeadline (txnDone x 0xFF)
  have hd := frame_done v h stDeadline (txnDone x 0xFF)
  generalize v.done h stDeadline (txnDone x 0xFF) = w at he hans hd
  have hdrop := frame_dropTxn w x
  have hall := ((huv.append hd).append hdrop).mono (d := [.clk, .out, .hif, .txu, .regs]) (by decide)
  have hvt := hd.append hdrop
  refine .of_effect hs hall he (by decide) (by decide) ⟨hans.of_frame hdrop (by decide), ?_, ?_, ?_, ?_, hall⟩
  · unfold Dev.dropTxn
    rw [((huv.append hd) .txu (by decide) : w.txu = s.txu), hx]
    simp
  · rw [Dev.fld_of_frame hvt (by decide), hcount, Dev.fld_of_frame hu (by decide)]
  · exact ((RegsBut.of_frame hu (by decide)).trans hregs).trans (.of_frame hvt (by decide))
  · exact ((hvt .clk (by decide)).trans (hc .clk (by decide))).trans hclk

/-- Settles O28: the opening of an axis slot takes the next id and the first boundary, a bad first action ends its transaction, and so does the
offer deadline, which counts. -/
theorem transactionsAreValidatedInTurn : Obligations.TransactionsAreValidatedInTurn := by
  refine ⟨?_, fun _ _ _ _ _ _ => .txnValidationEnd_bad, fun _ _ _ _ _ => .offerDeadline⟩
  intro s dt n h set steer blend l x hs hx hid hstep hacts hn hst happly hround _ hh hw hroom hhand hfree
  exact .txnValidationEnd_opens hs hx hid hstep hacts hn hst happly hround hh hw hroom hhand hfree

end Sys2Proof.Machine

/-! ### Transactions applied, offered again and cancelled -/
namespace Sys2Proof.Machine

/-! Reservations written (R188) -/

theorem Dev.resv_setResv (s : Dev) (l : List Resv) : (s.setResv l).trl.resv = l := by
  unfold Dev.setResv
  dsimp only
  split <;> split <;> rfl

theorem Dev.setResv_empty {s : Dev} (hr : s.trl.resv = []) (hh : s.trl.high = false) : s.setResv [] = s := by
  have hs : { s with trl := { s.trl with resv := [], high := false } } = s := by
    rw [← hr, ← hh]
  unfold Dev.setResv
  simp only [List.length_nil, Nat.not_lt_zero, if_false, Nat.mul_zero, Nat.reduceMul, Nat.le_zero_eq, OfNat.ofNat_ne_zero, decide_false, Bool.false_and]
  exact hs

/-- The reservations written, and their high-water mark. -/
def Dev.resvCounted (s : Dev) (l : List Resv) : Dev :=
  let s := { s with trl := { s.trl with resv := l } }
  if s.fld (0x8038, 0, 23) < l.length then s.setFld (0x8038, 0, 23) (sat 23 l.length) else s

theorem Dev.setResv_eq (s : Dev) (l : List Resv) : s.setResv l =
    if decide (9 * 4194304 ≤ 10 * l.length) && !(s.resvCounted l).trl.high then
      ({ s.resvCounted l with trl := { (s.resvCounted l).trl with high := decide (9 * 4194304 ≤ 10 * l.length) } }).raise 0x65
    else { s.resvCounted l with trl := { (s.resvCounted l).trl with high := decide (9 * 4194304 ≤ 10 * l.length) } } := rfl

theorem Dev.regsBut_setResv (s : Dev) (l : List Resv) : RegsBut [0x8038] s (s.setResv l) := by
  have hreg : RegsBut [0x8038] s (s.resvCounted l) := by
    unfold Dev.resvCounted
    dsimp only
    split
    · exact (RegsBut.of_frame (frame_withTrl s _) (by decide)).trans (.setFld _ _ (List.mem_singleton.2 rfl))
    · exact .of_frame (frame_withTrl s _) (by decide)
  rw [Dev.setResv_eq]
  generalize s.resvCounted l = v at hreg ⊢
  split
  · exact hreg.trans (.of_frame ((frame_withTrl v _).append (frame_raise _ 0x65)) (by decide))
  · exact hreg.trans (.of_frame (frame_withTrl v _) (by decide))

/-! The one transaction in flight -/

theorem Dev.txn?_only {s : Dev} {x : Txn} (h : s.txu.txns = [x]) (hid : x.id ≠ 0) : s.txn? x.id = some x := by
  unfold Dev.txn?
  rw [if_neg hid, h]
  simp

theorem Dev.updTxn_only {s : Dev} {x : Txn} (h : s.txu.txns = [x]) (hid : x.id ≠ 0) (f : Txn → Txn) :
    s.updTxn x.id f = { s with txu := { s.txu with txns := [f x] } } := by
  unfold Dev.updTxn
  rw [if_neg hid, h]
  simp [mapWhere]

theorem Dev.dropTxn_only {s : Dev} {x : Txn} (h : s.txu.txns = [x]) : s.dropTxn x = { s with txu := { s.txu with txns := [] } } := by
  unfold Dev.dropTxn
  rw [h]
  simp

/-! The apply time of the opening of an axis slot (R226, R234, R258) -/

theorem Dev.loopAct_open {s : Dev} {n : Nat} (h : (s.loop n).st ≠ .handover) (id set steer : Nat) : s.loopAct id n 1 set steer = s.setLoop n (s.loop n).opened := by
  unfold Dev.loopAct
  dsimp only
  rw [if_pos (by simpa using h)]
  rfl

theorem Dev.applyTxn_opening {s : Dev} {x : Txn} {n set steer blend : Nat} (hacts : x.acts = [.loopMode n 1 set steer blend]) (hn : n < 24)
    (hst : (s.loop n).st = .closed ∨ (s.loop n).st = .held) (hparts : x.parts = []) (htasks : x.tasks = []) (hbehind : x.behind = []) :
    s.applyTxn x = s.setLoop n (s.loop n).opened := by
  have hbench : x.benchSet = [] := by
    unfold Txn.benchSet
    rw [hacts]
    rfl
  have hact := Dev.loopAct_open (s := s) (n := n) (by obtain h | h := hst <;> (rw [h]; decide)) x.id set steer
  have heff : (s.loopJudge n 1 set steer 100).2 = true := by
    rw [Dev.loopJudge_open hn]
    obtain h | h := hst <;> (rw [h]; rfl)
  unfold Dev.applyTxn
  simp only [hbench, htasks, hparts, hbehind, hacts, List.filter_nil, List.foldl_nil, List.foldl_cons, List.isEmpty_nil, if_true, heff]
  exact hact

/-- A transaction at its apply time. -/
def Txn.appliedAt (x : Txn) (gap late : NT) : Txn :=
  { x with phase := .applied, handle := if x.move then none else x.handle,
           parts := x.parts.map fun (p : Part) => { p with reofferAt := some gap, unsyncedAt := some late } }

theorem exec_txnApply_committed {s : State} {x : Txn} {a : NT} (hx : s.txu.txns = [x]) (hph : x.phase = .committed) (ha : x.applyAt = some a) (hid : x.id ≠ 0) :
    exec .txnApply s = s.act fun _ => (((s.tickTo a).applyTxn x).updTxn x.id fun t => t.appliedAt (ntAdd a (((s.tickTo a).applyTxn x).reofferGap : Nat))
      (ntAdd a (((s.tickTo a).applyTxn x).confirmTimeout : Nat))).settleTxn x.id := by
  have hfirst : firstNt ((s.txu.txns.filter fun t => t.phase = .listed || t.phase = .failed || t.phase = .committed).filterMap fun (t : Txn) => t.applyAt) = some a := by
    rw [hx]
    simp [hph, ha, firstNt]
  have hfind : ((s.tickTo a).txu.txns.find? fun (t : Txn) => (t.phase = .listed || t.phase = .failed || t.phase = .committed) && t.applyAt == some a) = some x := by
    rw [show (s.tickTo a).txu.txns = s.txu.txns from rfl, hx]
    simp [hph, ha]
  have htxn : (s.tickTo a).txn? x.id = some x := Dev.txn?_only (s := s.tickTo a) hx hid
  show execTxnApply s = _
  refine State.act_congr ?_
  dsimp only
  rw [hfirst]
  dsimp only
  rw [hfind]
  dsimp only
  rw [if_neg (by rw [hph]; decide), if_neg (by simp [hph]), if_neg (by rw [hph]; decide), htxn]
  rfl

theorem exec_txnApply_failed {s : State} {x : Txn} {a : NT} (hx : s.txu.txns = [x]) (hph : x.phase = .failed) (ha : x.applyAt = some a) :
    exec .txnApply s = s.act fun _ => (s.tickTo a).expireOffer x := by
  have hfirst : firstNt ((s.txu.txns.filter fun t => t.phase = .listed || t.phase = .failed || t.phase = .committed).filterMap fun (t : Txn) => t.applyAt) = some a := by
    rw [hx]
    simp [hph, ha, firstNt]
  have hfind : ((s.tickTo a).txu.txns.find? fun (t : Txn) => (t.phase = .listed || t.phase = .failed || t.phase = .committed) && t.applyAt == some a) = some x := by
    rw [show (s.tickTo a).txu.txns = s.txu.txns from rfl, hx]
    simp [hph, ha]
  show execTxnApply s = _
  refine State.act_congr ?_
  dsimp only
  rw [hfirst]
  dsimp only
  rw [hfind]
  exact if_pos hph

/-- An applied transaction without participants is answered and leaves. -/
theorem Dev.settleTxn_alone {s : Dev} {x : Txn} {h : Nat} (hx : s.txu.txns = [x]) (hid : x.id ≠ 0) (hph : x.phase = .applied) (hparts : x.parts = [])
    (hresv : s.trl.resv = []) (hhigh : s.trl.high = false) (hh : x.handle = some h) (hround : x.round = false) (halso : x.also = []) :
    s.settleTxn x.id = (s.done h stOK (txnDone x 0xFF)).dropTxn x := by
  unfold Dev.settleTxn
  rw [Dev.txn?_only hx hid]
  dsimp only
  rw [if_pos (by rw [hph, hparts]; rfl), hresv, List.filter_nil]
  rw [show clearUnion x.id [] = [] from rfl, Dev.setResv_empty hresv hhigh, Dev.doneTxn_host _ hh hround halso]

theorem Completes.txnApply_opens {s : State} {n h set steer blend : Nat} {x : Txn} {a : NT} {l : Live} (hs : s.Settled) (hx : s.txu.txns = [x])
    (hph : x.phase = .committed) (ha : x.applyAt = some a) (hid : x.id ≠ 0) (hacts : x.acts = [.loopMode n 1 set steer blend]) (hn : n < 24)
    (hst : (s.loop n).st = .closed ∨ (s.loop n).st = .held) (hparts : x.parts = []) (htasks : x.tasks = []) (hbehind : x.behind = [])
    (hmove : x.move = false) (hresv : s.trl.resv = []) (hhigh : s.trl.high = false) (hround : x.round = false) (halso : x.also = [])
    (hh : x.handle = some h) (hw : s.Waits h l) :
    Completes .txnApply s fun t => t.Answered l stOK (txnDone x 0xFF) ∧ t.loop n = (s.loop n).opened ∧ (t.loop n).st = .open_ ∧
      (t.loop n).i = fSub (s.loop n).u (s.loop n).ff ∧ (∀ m, m ≠ n → t.loop m = s.loop m) ∧ t.txu = { s.txu with txns := [] } ∧
      t.clk = s.clk.run (s.clk.cyclesTo a) ∧ Frame [.clk, .out, .hif, .ctl, .txu] s.toDev t := by
  have he := exec_txnApply_committed hx hph ha hid
  rw [Dev.applyTxn_opening (s := s.tickTo a) hacts hn hst hparts htasks hbehind] at he
  have hu := frame_tickTo s.toDev a
  have hclk := s.toDev.tickTo_clk a
  generalize s.tickTo a = u at he hu hclk
  have hloopU := Dev.loop_of_frame hu (by decide)
  rw [hloopU] at he
  have hv := hu.append (frame_setLoop u n (s.loop n).opened)
  have hloopV : ∀ m, (u.setLoop n (s.loop n).opened).loop m = if m = n then (s.loop n).opened else u.loop m := fun m => Dev.loop_setLoop u n m _
  have hclkV : (u.setLoop n (s.loop n).opened).clk = u.clk := rfl
  generalize u.setLoop n (s.loop n).opened = v at he hv hloopV hclkV
  have htxuV : v.txu = s.txu := hv .txu (by decide)
  generalize ntAdd a (v.reofferGap : Nat) = gap at he
  generalize ntAdd a (v.confirmTimeout : Nat) = late at he
  have hxV : v.txu.txns = [x] := by rw [htxuV, hx]
  rw [Dev.updTxn_only hxV hid] at he
  have hw1 : Frame [.txu] v { v with txu := { v.txu with txns := [x.appliedAt gap late] } } := frame_withTxu v _
  have hw2 : ({ v with txu := { v.txu with txns := [x.appliedAt gap late] } } : Dev).txu = { s.txu with txns := [x.appliedAt gap late] } := by rw [← htxuV]
  generalize { v with txu := { v.txu with txns := [x.appliedAt gap late] } } = w at he hw1 hw2
  have hsw := hv.append hw1
  have htrl : w.trl = s.trl := hsw .trl (by decide)
  have happ : (x.appliedAt gap late).parts = [] := by
    unfold Txn.appliedAt
    rw [hparts]
    rfl
  have hhand : (x.appliedAt gap late).handle = some h := by
    unfold Txn.appliedAt
    rw [if_neg (by rw [hmove]; decide)]
    exact hh
  have hres : txnDone (x.appliedAt gap late) 0xFF = txnDone x 0xFF := by
    unfold txnDone
    rw [happ, hparts]
    rfl
  rw [show x.id = (x.appliedAt gap late).id from rfl, Dev.settleTxn_alone (s := w) (x := x.appliedAt gap late) (h := h) (by rw [hw2]) hid rfl happ (by rw [htrl, hresv]) (by rw [htrl, hhigh])
    hhand hround halso, hres] at he
  have hans := (hw.of_frame hsw (by decide) (Dev.reg_of_frame hsw (by decide) _)).done stOK (txnDone x 0xFF)
  have hd := frame_done w h stOK (txnDone x 0xFF)
  have hsd := hsw.append hd
  have hxd : (w.done h stOK (txnDone x 0xFF)).txu = { s.txu with txns := [x.appliedAt gap late] } := (hd .txu (by decide)).trans hw2
  have hloopD := Dev.loop_of_frame (hw1.append hd) (by decide)
  have hclkD : (w.done h stOK (txnDone x 0xFF)).clk = v.clk := (hw1.append hd) .clk (by decide)
  generalize w.done h stOK (txnDone x 0xFF) = d at he hans hsd hxd hloopD hclkD
  have hdrop := frame_dropTxn d (x.appliedAt gap late)
  have hall := (hsd.append hdrop).mono (d := [.clk, .out, .hif, .ctl, .txu]) (by decide)
  have hloop : ∀ m, (d.dropTxn (x.appliedAt gap late)).loop m = if m = n then (s.loop n).opened else u.loop m := fun m =>
    (Dev.loop_of_frame hdrop (by decide) m).trans ((hloopD m).trans (hloopV m))
  have hself := (hloop n).trans (if_pos rfl)
  have hopen : (s.loop n).opened = { s.loop n with st := .open_, i := fSub (s.loop n).u (s.loop n).ff, misses := 0 } :=
    if_neg (by obtain h | h := hst <;> (rw [h]; decide))
  refine .of_effect hs hall he (by decide) (by decide) ⟨hans.of_frame hdrop (by decide), hself, ?_, ?_, fun m hm => ?_, ?_, ?_, hall⟩
  · rw [hself, hopen]
  · rw [hself, hopen]
  · rw [hloop m, if_neg hm, hloopU]
  · rw [Dev.dropTxn_only (by rw [hxd]), hxd]
  · exact (hdrop .clk (by decide)).trans (hclkD.trans (hclkV.trans hclk))

/-- An offer that failed leaves with its entries (R35). -/
theorem CompletesThen.txnApply_failed {s : State} {x : Txn} {a : NT} (hx : s.txu.txns = [x]) (hph : x.phase = .failed) (ha : x.applyAt = some a)
    (hgrants : x.grants = []) : CompletesThen .txnApply s fun d => d.txu = { s.txu with txns := [] } ∧
        (∀ r ∈ d.trl.resv, ¬ (r.txn = x.id ∧ (r.kind = .offered ∨ r.staged = true))) ∧ d.clk = s.clk.run (s.clk.cyclesTo a) := by
  have he := exec_txnApply_failed hx hph ha
  have hu := frame_tickTo s.toDev a
  have hclk := s.toDev.tickTo_clk a
  generalize s.tickTo a = u at he hu hclk
  have hexp : u.expireOffer x = (u.setResv (clearUnion x.id (u.trl.resv.filter fun r => !(r.txn = x.id && (r.kind = .offered || r.staged))))).dropTxn x := by
    unfold Dev.expireOffer
    rw [hgrants]
    rfl
  rw [hexp] at he
  have hr := frame_setResv u (clearUnion x.id (u.trl.resv.filter fun r => !(r.txn = x.id && (r.kind = .offered || r.staged))))
  have hresv := u.resv_setResv (clearUnion x.id (u.trl.resv.filter fun r => !(r.txn = x.id && (r.kind = .offered || r.staged))))
  generalize u.setResv (clearUnion x.id (u.trl.resv.filter fun r => !(r.txn = x.id && (r.kind = .offered || r.staged)))) = v at he hr hresv
  have htxu : v.txu = s.txu := (hu.append hr) .txu (by decide)
  have hdrop := frame_dropTxn v x
  refine .of_effect he ⟨?_, fun r hrm => ?_, ((hr.append hdrop) .clk (by decide)).trans hclk⟩
  · rw [Dev.dropTxn_only (by rw [htxu, hx]), htxu]
  · rw [(hdrop .trl (by decide) : (v.dropTxn x).trl = v.trl), hresv] at hrm
    obtain ⟨q, hq, rfl⟩ := List.mem_map.1 hrm
    have hq' := (List.mem_filter.1 hq).2
    have hkeep : ∀ r : Resv, (let r := if r.relBy = x.id then { r with relBy := 0, uOld := false } else r
        if r.txn = x.id then { r with uNew := false } else r).txn = r.txn ∧ (let r := if r.relBy = x.id then { r with relBy := 0, uOld := false } else r
        if r.txn = x.id then { r with uNew := false } else r).kind = r.kind ∧ (let r := if r.relBy = x.id then { r with relBy := 0, uOld := false } else r
        if r.txn = x.id then { r with uNew := false } else r).staged = r.staged := fun r => by
      dsimp only
      split_ifs <;> exact ⟨rfl, rfl, rfl⟩
    obtain ⟨h1, h2, h3⟩ := hkeep q
    dsimp only at h1 h2 h3 ⊢
    rw [h1, h2, h3]
    simpa [imp_iff_not_or] using hq'

/-! A participant that has not confirmed (R235, R236) -/

theorem Dev.unmet_only {s : Dev} {x : Txn} {p : Part} (hx : s.txu.txns = [x]) (hph : x.phase = .applied) (hparts : x.parts = [p])
    (hc : p.confirmed = false) (he : p.ended = false) : s.unmet = [(x, p)] := by
  unfold Dev.unmet
  rw [hx]
  simp [hph, hparts, hc, he]

theorem Dev.updPart_only {s : Dev} {x : Txn} {p : Part} (hx : s.txu.txns = [x]) (hid : x.id ≠ 0) (hparts : x.parts = [p]) (f : Part → Part) :
    s.updPart x.id p.slot f = { s with txu := { s.txu with txns := [{ x with parts := [f p] }] } } := by
  unfold Dev.updPart
  rw [Dev.updTxn_only hx hid, hparts]
  simp [mapWhere]

theorem exec_reoffer {s : State} {x : Txn} {p : Part} {at_ : NT} (hx : s.txu.txns = [x]) (hph : x.phase = .applied) (hparts : x.parts = [p])
    (hc : p.confirmed = false) (he : p.ended = false) (ha : p.reofferAt = some at_) : exec .reoffer s = s.act fun _ => (s.tickTo at_).reoffer x p := by
  have hfirst : firstNt (s.unmet.filterMap fun (x : Txn × Part) => x.2.reofferAt) = some at_ := by
    rw [Dev.unmet_only hx hph hparts hc he]
    simp [ha, firstNt]
  have hfind : (s.tickTo at_).unmet.find? (fun (x : Txn × Part) => x.2.reofferAt == some at_) = some (x, p) := by
    rw [Dev.unmet_only (s := s.tickTo at_) hx hph hparts hc he]
    simp [ha]
  show execReoffer s = _
  refine State.act_congr ?_
  dsimp only
  rw [hfirst]
  dsimp only
  rw [hfind]

theorem exec_unsynced {s : State} {x : Txn} {p : Part} {at_ : NT} (hx : s.txu.txns = [x]) (hph : x.phase = .applied) (hparts : x.parts = [p])
    (hc : p.confirmed = false) (he : p.ended = false) (ha : p.unsyncedAt = some at_) : exec .unsynced s = s.act fun _ =>
      let u := s.tickTo at_
      let l := u.lease p.slot
      let v := (u.updPart x.id p.slot fun p => { p with unsyncedAt := none }).setLease p.slot { l with unsynced := true }
      let w := if l.unsynced then v else v.cntSat (0x9030, 16, 16)
      (w.directedStop (robotAddr p.slot) l.epoch 8 w.nt).raise 0x68 := by
  have hfirst : firstNt (s.unmet.filterMap fun (x : Txn × Part) => x.2.unsyncedAt) = some at_ := by
    rw [Dev.unmet_only hx hph hparts hc he]
    simp [ha, firstNt]
  have hfind : (s.tickTo at_).unmet.find? (fun (x : Txn × Part) => x.2.unsyncedAt == some at_) = some (x, p) := by
    rw [Dev.unmet_only (s := s.tickTo at_) hx hph hparts hc he]
    simp [ha]
  show execUnsynced s = _
  refine State.act_congr ?_
  dsimp only
  rw [hfirst]
  dsimp only
  rw [hfind]

theorem Completes.reoffer_waits {s : State} {x : Txn} {p : Part} {at_ : NT} (hs : s.Settled) (hx : s.txu.txns = [x]) (hid : x.id ≠ 0)
    (hph : x.phase = .applied) (hparts : x.parts = [p]) (hc : p.confirmed = false) (hend : p.ended = false) (ha : p.reofferAt = some at_)
    (hst : (s.lease p.slot).st ≠ .active) :
    Completes .reoffer s fun t => t.txu = { s.txu with txns := [{ x with parts := [{ p with reofferAt := some (ntAdd t.nt (s.reofferGap : Nat)) }] }] } ∧
      t.clk = s.clk.run (s.clk.cyclesTo at_) ∧ Frame [.clk, .out, .txu] s.toDev t := by
  have he := exec_reoffer hx hph hparts hc hend ha
  have hu := frame_tickTo s.toDev at_
  have hclk := s.toDev.tickTo_clk at_
  generalize s.tickTo at_ = u at he hu hclk
  have hgap : u.reofferGap = s.reofferGap := by
    unfold Dev.reofferGap
    rw [Dev.fld_of_frame hu (by decide)]
  have htxu : u.txu = s.txu := hu .txu (by decide)
  have hre : u.reoffer x p = { u with txu := { s.txu with txns := [{ x with parts := [{ p with reofferAt := some (ntAdd u.nt (s.reofferGap : Nat)) }] }] } } := by
    unfold Dev.reoffer
    dsimp only
    rw [if_pos (by rw [Dev.lease_of_frame hu (by decide)]; exact hst), Dev.updPart_only (by rw [htxu, hx]) hid hparts, hgap, htxu]
  rw [hre] at he
  have hf := hu.append (frame_withTxu u { s.txu with txns := [{ x with parts := [{ p with reofferAt := some (ntAdd u.nt (s.reofferGap : Nat)) }] }] })
  have hall := hf.mono (d := [.clk, .out, .txu]) (by decide)
  exact .of_effect hs hall he (by decide) (by decide) ⟨rfl, hclk, hall⟩

theorem frame_queueFrame (s : Dev) (f : TxFrame) : Frame [.mac] s (s.queueFrame f) := frame_withMac s _

theorem frame_sendOffers (s : Dev) (t : Txn) (parts : List Part) (a : NT) (again : Bool) : Frame [.mac] s (s.sendOffers t parts a again) :=
  Frame.foldl _ (fun s _ => Frame.foldl _ (fun s _ => frame_queueFrame s _) _ s) _ s

theorem frame_queueAll (s : Dev) (f : TxFrame) : Frame [.mac] s (s.queueAll f) := Frame.foldl _ (fun s _ => frame_queueFrame s _) _ s

theorem frame_directedStop (s : Dev) (dst epoch cause : Nat) (t : NT) : Frame [.mac] s (s.directedStop dst epoch cause t) := frame_queueAll s _

/-- The records of a participant that are offered again (R235). -/
def Dev.unmetRecs (s : Dev) (t : Txn) (p : Part) : List ORec := p.recs.filter fun (r : ORec) => !(r.kind == 1 && s.superseded t p.slot) && !s.hasMet t p.slot r

/-- What a re-offer sends and counts, before its participant is marked. -/
def Dev.offersAgain (s : Dev) (t : Txn) (p : Part) : Dev :=
  let u := if s.earliestBeacon.2 then s.raise 0x6A else s
  (if (s.unmetRecs t p).isEmpty then u else u.sendOffers t [{ p with recs := s.unmetRecs t p }] (applyOf s.earliestBeacon.1) true).cntSat (0x9030, 0, 16)

theorem frame_offersAgain (s : Dev) (t : Txn) (p : Part) : Frame [.todo, .mac, .regs] s (s.offersAgain t p) := by
  have h1 : Frame [.todo] s (if s.earliestBeacon.2 then s.raise 0x6A else s) := by
    split
    · exact frame_raise s _
    · exact .refl _ _
  unfold Dev.offersAgain
  dsimp only
  split
  · exact (h1.append (frame_cntSat _ _)).mono (by decide)
  · exact ((h1.append (frame_sendOffers _ _ _ _ _)).append (frame_cntSat _ _)).mono (by decide)

theorem Dev.fld_offersAgain (s : Dev) (t : Txn) (p : Part) : (s.offersAgain t p).fld (0x9030, 0, 16) = satInc 16 (s.fld (0x9030, 0, 16)) := by
  have h1 : Frame [.todo] s (if s.earliestBeacon.2 then s.raise 0x6A else s) := by
    split
    · exact frame_raise s _
    · exact .refl _ _
  unfold Dev.offersAgain
  dsimp only
  rw [Dev.fld_cntSat _ _ (by decide)]
  split
  · rw [Dev.fld_of_frame h1 (by decide)]
  · rw [Dev.fld_of_frame (h1.append (frame_sendOffers _ _ _ _ _)) (by decide)]

theorem Dev.reoffer_active {s : Dev} {x : Txn} {p : Part} (htasks : x.tasks = []) (hst : (s.lease p.slot).st = .active) :
    s.reoffer x p = (s.offersAgain x p).updPart x.id p.slot fun p =>
      { p with reofferAt := some (ntAdd s.nt (s.reofferGap : Nat)), reofferApply := some (applyOf s.earliestBeacon.1), reoffered := true } := by
  unfold Dev.reoffer
  simp only [htasks, List.foldl_nil]
  exact if_neg (not_not_intro hst)

theorem CompletesThen.reoffer_again {s : State} {x : Txn} {p : Part} {at_ : NT} (hx : s.txu.txns = [x]) (hid : x.id ≠ 0) (hph : x.phase = .applied)
    (htasks : x.tasks = []) (hparts : x.parts = [p]) (hc : p.confirmed = false) (hend : p.ended = false) (ha : p.reofferAt = some at_)
    (hst : (s.lease p.slot).st = .active) :
    CompletesThen .reoffer s fun d => d.fld (0x9030, 0, 16) = satInc 16 (s.fld (0x9030, 0, 16)) ∧
        (∃ y, d.txn? x.id = some y ∧ ∃ q ∈ y.parts, q.slot = p.slot ∧ q.reoffered = true ∧ q.reofferAt = some (ntAdd d.nt (s.reofferGap : Nat)) ∧
          q.confirmed = false) ∧ d.clk = s.clk.run (s.clk.cyclesTo at_) := by
  have he := exec_reoffer hx hph hparts hc hend ha
  have hu := frame_tickTo s.toDev at_
  have hclk := s.toDev.tickTo_clk at_
  generalize s.tickTo at_ = u at he hu hclk
  have hgap : u.reofferGap = s.reofferGap := by
    unfold Dev.reofferGap
    rw [Dev.fld_of_frame hu (by decide)]
  rw [Dev.reoffer_active htasks (by rw [Dev.lease_of_frame hu (by decide)]; exact hst), hgap] at he
  have hv := frame_offersAgain u x p
  have hcount := u.fld_offersAgain x p
  generalize u.offersAgain x p = v at he hv hcount
  have htxu : v.txu = s.txu := (hu.append hv) .txu (by decide)
  have hxV : v.txu.txns = [x] := by rw [htxu, hx]
  rw [Dev.updPart_only hxV hid hparts] at he
  generalize hq : ({ p with reofferAt := some (ntAdd u.nt (s.reofferGap : Nat)), reofferApply := some (applyOf u.earliestBeacon.1), reoffered := true } : Part) = q at he
  have hw : Frame [.txu] v { v with txu := { v.txu with txns := [{ x with parts := [q] }] } } := frame_withTxu v _
  have htxn := Dev.txn?_only (s := { v with txu := { v.txu with txns := [{ x with parts := [q] }] } }) (x := { x with parts := [q] }) rfl hid
  generalize ({ v with txu := { v.txu with txns := [{ x with parts := [q] }] } } : Dev) = w at he hw htxn
  have hclkW : w.clk = u.clk := (hv.append hw) .clk (by decide)
  have hnt : w.nt = u.nt := by
    unfold Dev.nt
    rw [hclkW]
  refine .of_effect he ⟨?_, ⟨_, htxn, q, List.mem_singleton.2 rfl, ?_, ?_, ?_, ?_⟩, hclkW.trans hclk⟩
  · rw [Dev.fld_of_frame hw (by decide), hcount, Dev.fld_of_frame hu (by decide)]
  · rw [← hq]
  · rw [← hq]
  · rw [← hq, hnt]
  · rw [← hq]
    exact hc

theorem CompletesThen.unsynced {s : State} {x : Txn} {p : Part} {at_ : NT} (hx : s.txu.txns = [x]) (hid : x.id ≠ 0) (hph : x.phase = .applied)
    (hparts : x.parts = [p]) (hc : p.confirmed = false) (hend : p.ended = false) (ha : p.unsyncedAt = some at_) :
    CompletesThen .unsynced s fun d => d.lease p.slot = { s.lease p.slot with unsynced := true } ∧
        d.fld (0x9030, 16, 16) = (if (s.lease p.slot).unsynced then s.fld (0x9030, 16, 16) else satInc 16 (s.fld (0x9030, 16, 16))) ∧ .fault 0x68 false ∈ d.todo ∧
        d.txu.txns = [{ x with parts := [{ p with unsyncedAt := none }] }] ∧ d.clk = s.clk.run (s.clk.cyclesTo at_) ∧
        Frame [.clk, .out, .txu, .mac, .regs, .todo] s.toDev d := by
  have he := exec_unsynced hx hph hparts hc hend ha
  have hu := frame_tickTo s.toDev at_
  have hclk := s.toDev.tickTo_clk at_
  dsimp only at he
  generalize s.tickTo at_ = u at he hu hclk
  have htxu : u.txu = s.txu := hu .txu (by decide)
  rw [Dev.updPart_only (by rw [htxu, hx]) hid hparts, Dev.lease_of_frame hu (by decide)] at he
  have hv1 : Frame [.txu] u (({ u with txu := { u.txu with txns := [{ x with parts := [{ p with unsyncedAt := none }] }] } } : Dev).setLease p.slot
      { s.lease p.slot with unsynced := true }) := (frame_withTxu u _).trans (frame_withTxu _ _)
  have hv2 : (({ u with txu := { u.txu with txns := [{ x with parts := [{ p with unsyncedAt := none }] }] } } : Dev).setLease p.slot
      { s.lease p.slot with unsynced := true }).txu.txns = [{ x with parts := [{ p with unsyncedAt := none }] }] := rfl
  have hv3 : (({ u with txu := { u.txu with txns := [{ x with parts := [{ p with unsyncedAt := none }] }] } } : Dev).setLease p.slot
      { s.lease p.slot with unsynced := true }).lease p.slot = { s.lease p.slot with unsynced := true } := Tab.get_set_self _ _ _ _
  generalize (({ u with txu := { u.txu with txns := [{ x with parts := [{ p with unsyncedAt := none }] }] } } : Dev).setLease p.slot
      { s.lease p.slot with unsynced := true }) = v at he hv1 hv2 hv3
  have hw1 : Frame [.regs] v (if (s.lease p.slot).unsynced then v else v.cntSat (0x9030, 16, 16)) := by
    split
    · exact .refl _ _
    · exact frame_cntSat v _
  have hw2 : (if (s.lease p.slot).unsynced then v else v.cntSat (0x9030, 16, 16)).fld (0x9030, 16, 16) =
      if (s.lease p.slot).unsynced then v.fld (0x9030, 16, 16) else satInc 16 (v.fld (0x9030, 16, 16)) := by
    split
    · rfl
    · exact Dev.fld_cntSat v _ (by decide)
  generalize (if (s.lease p.slot).unsynced then v else v.cntSat (0x9030, 16, 16)) = w at he hw1 hw2
  have hd1 := frame_directedStop w (robotAddr p.slot) (s.lease p.slot).epoch 8 w.nt
  generalize w.directedStop (robotAddr p.slot) (s.lease p.slot).epoch 8 w.nt = d at he hd1
  have hd2 := frame_raise d 0x68
  have hwd := hd1.append hd2
  have hvd := hw1.append hwd
  have hall := ((hu.append hv1).append hvd).mono (d := [.clk, .out, .txu, .mac, .regs, .todo]) (by decide)
  refine .of_effect he ⟨?_, ?_, ?_, ?_, ?_, hall⟩
  · rw [Dev.lease_of_frame hvd (by decide), hv3]
  · rw [Dev.fld_of_frame hwd (by decide), hw2, Dev.fld_of_frame (hu.append hv1) (by decide)]
  · rw [Dev.todo_raise]
    exact List.mem_append_right _ (List.mem_singleton.2 rfl)
  · rw [hvd .txu (by decide), hv2]
  · exact ((hv1.append hvd) .clk (by decide)).trans hclk

/-! TXN_CANCEL (R239) -/

/-- Another command that waits goes on waiting when one begins. -/
theorem Dev.Waits.markStarted {s : Dev} {g h : Nat} {m : Live} (hw : s.Waits g m) (hne : g ≠ h) : (s.begin.markStarted h).Waits g m := by
  obtain ⟨hl, ho, he, hh, hcq⟩ := hw
  have hd := Dev.live?_handle hl
  refine ⟨?_, ho, he, hh, hcq⟩
  show (mapWhere (fun l : Live => l.handle == h) (fun l : Live => { l with started := true }) s.hif.live).find? (fun l => l.handle == g) = some m
  rw [Dev.live?] at hl
  rw [find?_mapWhere (fun l : Live => l.handle == h) (fun l : Live => l.handle == g) (fun l : Live => { l with started := true }) (fun _ => rfl), hl]
  simp [hd, hne]

/-- What an abort takes back before its commands are answered (R238). -/
def Dev.abortTaken (s : Dev) (t : Txn) : Dev :=
  let u := (s.cntSat (0x902C, 16, 16)).purgeTxn t.id
  u.setResv (clearUnion t.id (u.trl.resv.filter fun r => !(r.txn = t.id && r.staged)))

theorem frame_abortTaken (s : Dev) (t : Txn) : Frame [.regs, .mac, .que, .trl, .todo] s (s.abortTaken t) :=
  (((frame_cntSat s _).append (frame_purgeTxn _ _)).append (frame_setResv _ _)).mono (by decide)

theorem Dev.abortTaken_regs (s : Dev) (t : Txn) : RegsBut [0x902C, 0x8038] s (s.abortTaken t) ∧
    (s.abortTaken t).fld (0x902C, 16, 16) = satInc 16 (s.fld (0x902C, 16, 16)) := by
  unfold Dev.abortTaken
  dsimp only
  have h1 := RegsBut.cntSat s (0x902C, 16, 16)
  have hc := s.fld_cntSat (0x902C, 16, 16) (by decide)
  generalize s.cntSat (0x902C, 16, 16) = u at h1 hc ⊢
  have hp := frame_purgeTxn u t.id
  generalize u.purgeTxn t.id = v at hp ⊢
  have hr := v.regsBut_setResv (clearUnion t.id (v.trl.resv.filter fun r => !(r.txn = t.id && r.staged)))
  refine ⟨((h1.mono (by simp)).trans (.of_frame hp (by decide))).trans (hr.mono (by simp)), ?_⟩
  rw [hr.fld_eq (by decide), Dev.fld_of_frame hp (by decide), hc]

/-- The reservations that an abort leaves hold no staged entry of it. -/
theorem Dev.resv_abortTaken (s : Dev) (t : Txn) : ∀ r ∈ (s.abortTaken t).trl.resv, ¬ (r.txn = t.id ∧ r.staged = true) := by
  unfold Dev.abortTaken
  dsimp only
  rw [Dev.resv_setResv]
  intro r hr
  obtain ⟨q, hq, rfl⟩ := List.mem_map.1 hr
  have hq' := (List.mem_filter.1 hq).2
  dsimp only
  split_ifs <;> simpa [imp_iff_not_or] using hq'

/-- The abort of a staged transaction of the host that is judged counts, takes back its entries and answers its command. -/
theorem Dev.abortTxn_staged {s : Dev} {x : Txn} {h : Nat} (hid : x.id ≠ 0) (htasks : x.tasks = []) (hph : x.phase = .staged) (hh : x.handle = some h)
    (hround : x.round = false) (halso : x.also = []) (code idx : Nat) :
    s.abortTxn x code idx true = ((s.abortTaken x).done h code (txnDone x idx)).dropTxn x := by
  unfold Dev.abortTxn
  simp only [Dev.unpend_nothing _ htasks, if_true]
  rw [if_neg hid, Dev.doneTxn_host _ hh hround halso]
  exact if_neg (by rw [hph]; decide)

theorem cqEn_ne {r o : Nat} (hr : r < 32) (ho : 0x2908 ≤ o) : (cqEn r).1 ≠ o := by
  simp only [cqEn]
  omega

theorem CompletesThen.txnCancel_staged {s : State} {h g : Nat} {l m : Live} {x : Txn} (hr : s.Runs h 0x52 l) (hx : s.txu.txns = [x]) (hxl : x.id = l.p 0 4)
    (hid : x.id ≠ 0) (hph : x.phase = .staged) (hopen : x.open_ s.nt = true) (htasks : x.tasks = []) (hround : x.round = false) (halso : x.also = [])
    (hh : x.handle = some g) (hne : g ≠ h) (hw : s.Waits g m) :
    CompletesThen (.txnCancel h) s fun d => d.Answered l stOK [] ∧ d.Answered m stCancelled (txnDone x 0xFF) ∧ d.txu.txns = [] ∧
        d.fld (0x902C, 16, 16) = satInc 16 (s.fld (0x902C, 16, 16)) := by
  have htxn : (s.begin.markStarted h).txn? (l.p 0 4) = some x := hxl ▸ Dev.txn?_only (s := s.begin.markStarted h) hx hid
  have hopen' : x.open_ (s.begin.markStarted h).nt = true := hopen
  have he : exec (.txnCancel h) s = s.act fun _ => ((s.begin.markStarted h).abortTxn x stCancelled 0xFF true).done h stOK [] := by
    show execTxnCancel h s = _
    refine State.act_congr ((Dev.command_eq _ hr).trans ?_)
    rw [htxn]
    exact if_pos hopen'
  rw [Dev.abortTxn_staged hid htasks hph hh hround halso] at he
  have hfb := frame_begin_markStarted s.toDev h
  have hwl := hr.waits
  have hwm := hw.markStarted hne
  generalize s.begin.markStarted h = b at he hfb hwl hwm
  have hv := frame_abortTaken b x
  obtain ⟨hregs, hcount⟩ := b.abortTaken_regs x
  generalize b.abortTaken x = v at he hv hregs hcount
  have hkeep : ∀ {r : Nat}, r < 32 → v.reg (cqEn r).1 = b.reg (cqEn r).1 := fun hr => hregs _ (by
    simp only [List.mem_cons, List.not_mem_nil, or_false]
    exact not_or.2 ⟨cqEn_ne hr (by decide), cqEn_ne hr (by decide)⟩)
  have hcqm : m.cq < 32 := have ⟨_, _, _, _, hcq⟩ := hw; hcq
  have hcql : l.cq < 32 := have ⟨_, _, _, _, hcq⟩ := hwl; hcq
  have hwm' := hwm.of_frame hv (by decide) (hkeep hcqm)
  have hwl' := hwl.of_frame hv (by decide) (hkeep hcql)
  have hansM := hwm'.done stCancelled (txnDone x 0xFF)
  have hansL := hwl'.done_done hne stCancelled (txnDone x 0xFF)
  have hd := frame_done v g stCancelled (txnDone x 0xFF)
  generalize v.done g stCancelled (txnDone x 0xFF) = w at he hansM hansL hd
  have htxu : w.txu = s.txu := ((hfb.append hv).append hd) .txu (by decide)
  have hdrop := frame_dropTxn w x
  have hcqw : ∀ r, (w.dropTxn x).reg (cqEn r).1 = w.reg (cqEn r).1 := fun r => Dev.reg_of_frame hdrop (by decide) _
  have hend := frame_done (w.dropTxn x) h stOK []
  refine .of_effect he ⟨?_, (hansM.of_frame hdrop (by decide)).done h stOK [], ?_, ?_⟩
  · obtain hwl | ha := hansL
    · exact (hwl.of_frame hdrop (by decide) (hcqw _)).done stOK []
    · exact Dev.Answered.done (Dev.Answered.of_frame (l := l) ha hdrop (by decide)) h stOK []
  · rw [hend .txu (by decide), Dev.dropTxn_only (by rw [htxu, hx])]
  · rw [Dev.fld_of_frame (hdrop.append hend) (by decide), Dev.fld_of_frame hd (by decide), hcount, Dev.fld_of_frame hfb (by decide)]

theorem Completes.txnCancel_tooLate {s : State} {h : Nat} {l : Live} {x : Txn} (hs : s.Settled) (hr : s.Runs h 0x52 l) (hx : s.txn? (l.p 0 4) = some x)
    (hopen : x.open_ s.nt = false) (hf : x.phase ≠ .failed) (ha : x.phase ≠ .applied) :
    Completes (.txnCancel h) s fun t => t.Answered l stTooLate [] ∧ Frame [.out, .hif] s.toDev t := by
  have htxn : (s.begin.markStarted h).txn? (l.p 0 4) = some x := hx
  have hopen' : x.open_ (s.begin.markStarted h).nt = false := hopen
  refine .answered rfl hs hr ?_
  rw [htxn]
  exact (if_neg (by rw [hopen']; decide)).trans ((if_neg hf).trans (if_neg (by simp [ha])))

theorem Completes.txnCancel_unknown {s : State} {h : Nat} {l : Live} (hs : s.Settled) (hr : s.Runs h 0x52 l) (hx : s.txn? (l.p 0 4) = none)
    (hp : ∀ p ∈ s.trl.patches, p.txn = 0 ∨ p.txn ≠ l.p 0 4) :
    Completes (.txnCancel h) s fun t => t.Answered l stTxnUnknown [] ∧ Frame [.out, .hif] s.toDev t := by
  have htxn : (s.begin.markStarted h).txn? (l.p 0 4) = none := hx
  have hfind : (s.begin.markStarted h).trl.patches.find? (fun (p : Patch) => p.txn != 0 && p.txn == l.p 0 4) = none :=
    List.find?_eq_none.2 fun p hm => by
      have := hp p hm
      simpa [imp_iff_not_or, or_comm] using this
  refine .answered rfl hs hr ?_
  rw [htxn]
  dsimp only
  rw [hfind]

/-- Settles O30: each row finds the one transaction whose time has come, and changes of it and of the unit what that phase names. -/
theorem transactionsApplySettleAndAreCancelled : Obligations.TransactionsApplySettleAndAreCancelled := by
  refine ⟨?_, fun _ _ _ => .txnApply_failed, ?_, ?_, fun _ _ _ _ => .unsynced, fun _ _ _ _ _ _ => .txnCancel_staged, fun _ _ _ _ => .txnCancel_tooLate,
    fun _ _ _ => .txnCancel_unknown⟩
  · intro s n h set steer blend x a l hs hx hph ha hid hacts hn hst hparts htasks hbehind hmove hresv hhigh hround halso hh hw
    exact .txnApply_opens hs hx hph ha hid hacts hn hst hparts htasks hbehind hmove hresv hhigh hround halso hh hw
  · intro s x p at_ hx hid hph htasks hparts hc hend ha hst
    exact .reoffer_again hx hid hph htasks hparts hc hend ha hst
  · intro s x p at_ hs hx hid hph hparts hc hend ha hst
    exact .reoffer_waits hs hx hid hph hparts hc hend ha hst

end Sys2Proof.Machine

/-! ### One word applied (R392)

A direct write applies a set of one entry. Each window then acts on the registers of that window alone, so the parts of
`Dev.applyEnts` that speak of other windows leave the device as it is. -/
namespace Sys2Proof.Machine

theorem foldl_keeps {α β : Type} {f : β → α → β} {l : List α} {s : β} (h : ∀ a ∈ l, f s a = s) : l.foldl f s = s := by
  induction l with
  | nil => rfl
  | cons a l ih =>
    rw [List.foldl_cons, h a List.mem_cons_self]
    exact ih fun b hb => h b (List.mem_cons_of_mem _ hb)

/-- A fold over distinct members in which one alone acts. -/
theorem foldl_acts_once {α β : Type} [DecidableEq α] {f : β → α → β} {l : List α} (hd : l.Nodup) {a : α} (ha : a ∈ l) {s : β}
    (hne : ∀ b ∈ l, b ≠ a → ∀ t, t = s ∨ t = f s a → f t b = t) : l.foldl f s = f s a := by
  obtain ⟨p, q, rfl⟩ := List.append_of_mem ha
  have hp : a ∉ p := fun hm => List.disjoint_of_nodup_append hd hm List.mem_cons_self
  have hq : a ∉ q := (List.nodup_cons.1 (List.nodup_append.1 hd).2.1).1
  rw [List.foldl_append, List.foldl_cons,
    foldl_keeps fun b hb => hne b (List.mem_append_left _ hb) (fun e => hp (e ▸ hb)) s (.inl rfl)]
  exact foldl_keeps fun b hb => hne b (List.mem_append_right _ (List.mem_cons_of_mem _ hb)) (fun e => hq (e ▸ hb)) _ (.inr rfl)

/-! #### The entry of a word -/

theorem touches_word (off : Nat) (v : Reg) (f : Fld) : touches [wordEntry off v] f = (off == f.1 && bits 0xFFFFFFFF f.2.1 f.2.2 != 0) :=
  Bool.or_false _

theorem touches_word_ne {off : Nat} {v : Reg} {f : Fld} (h : off ≠ f.1) : touches [wordEntry off v] f = false := by
  rw [touches_word, beq_eq_false_iff_ne.2 h]
  rfl

theorem ones_word_ne {off : Nat} {v : Reg} {f : Fld} (h : off ≠ f.1) : ones [wordEntry off v] f = 0 := if_neg h

theorem ones_word (off : Nat) (v : Reg) (lo w : Nat) : ones [wordEntry off v] (off, lo, w) = fieldOf v lo w := by
  show (if off = off then bits (0xFFFFFFFF &&& v.toNat) lo w else 0) = _
  rw [if_pos rfl, Nat.and_comm, show (0xFFFFFFFF : Nat) = 2 ^ 32 - 1 by decide, Nat.and_two_pow_sub_one_eq_mod, Nat.mod_eq_of_lt v.isLt]
  rfl

/-- A field whose bits are all writable takes the bits of the word written. -/
theorem Dev.fieldOf_entryValue (s : Dev) (off : Nat) (v : Reg) {lo w : Nat} (hw : lo + w ≤ 32) (hm : bits (rwMask off) lo w = 2 ^ w - 1) :
    fieldOf (s.entryValue (wordEntry off v)) lo w = fieldOf v lo w := by
  refine Nat.eq_of_testBit_eq fun i => ?_
  by_cases hi : i < w
  · have hbit : (rwMask off).testBit (lo + i) = true := by
      have := congrArg (fun n : Nat => n.testBit i) hm
      simpa [bits, Nat.testBit_mod_two_pow, Nat.testBit_shiftRight, Nat.testBit_two_pow_sub_one, hi] using this
    have hone : (0xFFFFFFFF : Nat).testBit (lo + i) = true := by
      rw [show (0xFFFFFFFF : Nat) = 2 ^ 32 - 1 by decide, Nat.testBit_two_pow_sub_one]
      exact decide_eq_true (by omega)
    have hlt : lo + i < 32 := by omega
    have hmask : (BitVec.ofNat 32 (rwMask off &&& 0xFFFFFFFF))[lo + i] = true := by
      rw [← BitVec.getLsbD_eq_getElem, BitVec.getLsbD_ofNat, Nat.testBit_and, hbit, hone, decide_eq_true hlt]
      rfl
    rw [fieldOf, fieldOf, bits, bits, Nat.testBit_mod_two_pow, Nat.testBit_mod_two_pow, Nat.testBit_shiftRight, Nat.testBit_shiftRight,
      BitVec.testBit_toNat, BitVec.testBit_toNat, BitVec.getLsbD_eq_getElem hlt, BitVec.getLsbD_eq_getElem hlt]
    simp only [Dev.entryValue, BitVec.getElem_or, BitVec.getElem_and, BitVec.getElem_not, hmask, BitVec.ofNat_toNat, BitVec.setWidth_eq]
    simp
  · simp [fieldOf, bits, Nat.testBit_mod_two_pow, hi]

/-- A device after a word has taken its value, and nothing else. -/
def Dev.worded (s : Dev) (off : Nat) (v : Reg) : Dev := s.setReg off (s.entryValue (wordEntry off v))

theorem frame_worded (s : Dev) (off : Nat) (v : Reg) : Frame [.regs] s (s.worded off v) := frame_setReg s _ _

theorem Dev.reg_worded (s : Dev) (off : Nat) (v : Reg) : (s.worded off v).reg off = s.entryValue (wordEntry off v) :=
  (Dev.reg_setReg s _ _ _).trans (if_pos rfl)

theorem Dev.regsBut_worded (s : Dev) (off : Nat) (v : Reg) : RegsBut [off] s (s.worded off v) := .setReg s _ List.mem_cons_self

theorem Dev.fld_worded (s : Dev) (off : Nat) (v : Reg) {lo w : Nat} (hw : lo + w ≤ 32) (hm : bits (rwMask off) lo w = 2 ^ w - 1) :
    (s.worded off v).fld (off, lo, w) = fieldOf v lo w := by
  show fieldOf ((s.worded off v).reg off) lo w = _
  rw [s.reg_worded, s.fieldOf_entryValue off v hw hm]

/-! #### What each window leaves alone -/

/-- Two devices whose registers of a window agree. -/
def Dev.SameWin (s o : Dev) (w : Nat) : Prop := ∀ a, a / 4096 = w → s.reg a = o.reg a

theorem Dev.sameWin_worded (s : Dev) {off w : Nat} (v : Reg) (h : off / 4096 ≠ w) : (s.worded off v).SameWin s w := fun a ha =>
  s.regsBut_worded off v a fun hm => h ((List.mem_singleton.1 hm) ▸ ha)

theorem Dev.SameWin.fld {s o : Dev} {w : Nat} (h : s.SameWin o w) {f : Fld} (hf : f.1 / 4096 = w) : s.fld f = o.fld f := Dev.fld_of_reg (h _ hf)

theorem Dev.SameWin.flag {s o : Dev} {w : Nat} (h : s.SameWin o w) {f : Fld} (hf : f.1 / 4096 = w) : s.flag f = o.flag f :=
  Dev.flag_of_reg (h _ hf)

variable {off : Nat} (v : Reg)

/-- `TIM` does nothing for a word of another window. -/
theorem Dev.applyTim_other (s o : Dev) (h : off / 4096 ≠ 4) : s.applyTim o [wordEntry off v] false = s := by
  have ht {f : Fld} (hf : f.1 / 4096 = 4) : touches [wordEntry off v] f = false := touches_word_ne fun e => h (e ▸ hf)
  have h1 {f : Fld} (hf : f.1 / 4096 = 4) : ones [wordEntry off v] f = 0 := ones_word_ne fun e => h (e ▸ hf)
  have hout (n : Nat) (hn : n < 4) (b w : Nat) : ones [wordEntry off v] (fOutCtrl n, b, w) = 0 := h1 (by simp only [fOutCtrl]; omega)
  simp only [Dev.applyTim, ht (f := (0x4048, 0, 18)) rfl, ht (f := fPpsinSec) rfl, ht (f := fPpsRate) rfl, ht (f := fPpsPol) rfl,
    ht (f := fPpsWidth) rfl, ht (f := fPpsPhase) rfl, h1 (f := fPpsEn) rfl, Bool.false_and, Bool.or_self, Bool.false_eq_true, if_false,
    Nat.zero_ne_one]
  refine foldl_keeps fun n hn => ?_
  have hn := List.mem_range.1 hn
  rw [foldl_keeps fun b _ => if_neg (by rw [hout n hn]; decide), hout n hn, show ones [wordEntry off v] (fOutArm n) = 0 from hout n hn _ _]
  rfl

/-- `AXS` does nothing for a word of another window. -/
theorem Dev.applyAxs_other {s o : Dev} (h : off / 4096 ≠ 0xC) (hs : s.SameWin o 0xC) : s.applyAxs o [wordEntry off v] = s := by
  refine foldl_keeps fun n hn => ?_
  have hn : n < 24 := List.mem_range.1 hn
  have hwin : (axF n 0 0 1).1 / 4096 = 0xC := by simp only [axF]; omega
  have ht : touches [wordEntry off v] (axF n 0 0 1) = false := touches_word_ne fun e => h (by rw [e]; exact hwin)
  have hm : s.axMode n = o.axMode n := hs.fld (f := axF n 0 1 2) hwin
  simp [ht, hm]

/-- `GNS` does nothing for a word of another window. -/
theorem Dev.applyGns_other {s o : Dev} (h : off / 4096 ≠ 5) (hs : s.SameWin o 5) : s.applyGns o [wordEntry off v] = s := by
  have h1 {f : Fld} (hf : f.1 / 4096 = 5) : ones [wordEntry off v] f = 0 := ones_word_ne fun e => h (e ▸ hf)
  have hp : (List.range 6).foldl (fun s p => if o.fld (spEn p) != s.fld (spEn p) then s.portEn p else s) s = s :=
    foldl_keeps fun p hp => if_neg (by
      rw [hs.fld (f := spEn p) (by have := List.mem_range.1 hp; simp only [spEn]; omega)]
      simp)
  have hf : (!o.flag (0x5060, 0, 1) && s.flag (0x5060, 0, 1)) = false := by
    rw [hs.flag (f := (0x5060, 0, 1)) rfl, Bool.not_and_self]
  simp only [Dev.applyGns, hp, hf, h1 (f := (0x5064, 4, 1)) rfl, h1 (f := (0x5064, 5, 1)) rfl, h1 (f := (0x5100, 14, 1)) rfl,
    Bool.false_eq_true, if_false, Nat.zero_ne_one]

/-- `FRK` and `MEM` do nothing for a word of another window. -/
theorem Dev.applyFrkMem_other (s : Dev) (h7 : off ≠ 0x7068) (h3 : off ≠ 0x301C) : s.applyFrkMem [wordEntry off v] = s := by
  unfold Dev.applyFrkMem
  rw [ones_word_ne (f := (0x7068, 0, 8)) h7, ones_word_ne (f := (0x301C, 0, 1)) h3, ones_word_ne (f := (0x301C, 2, 2)) h3]
  exact foldl_keeps fun e _ => if_neg (by simp [bitAt])

/-- `MAC` and `CTL` do nothing for a word of another window. -/
theorem Dev.applyMacCtl_other {s o : Dev} (hA : off / 4096 ≠ 0xA) (hs : s.SameWin o 0xD) : s.applyMacCtl o [wordEntry off v] = s := by
  have hno : [wordEntry off v].filter (fun e => within 0xA500 (4 * 536) e.addr) = [] :=
    List.filter_eq_nil_iff.2 fun e he => by
      obtain rfl := List.mem_singleton.1 he
      simp only [within, decide_eq_true_eq]
      omega
  unfold Dev.applyMacCtl
  rw [hno]
  show (List.range 6).foldl (fun s n => s.laneEn n (o.flag (lnEn n)) (s.flag (lnEn n))) s = s
  refine foldl_keeps fun n hn => if_pos ?_
  rw [hs.flag (f := lnEn n) (by have := List.mem_range.1 hn; simp only [lnEn]; omega)]
  simp

/-- `QUE` brings its pins up to date for a word of another window. -/
theorem Dev.applyQue_other (s o : Dev) (h : off / 4096 ≠ 0xE) : s.applyQue o [wordEntry off v] false = s.updPins := by
  have h1 : ones [wordEntry off v] (0xE01C, 1, 1) = 0 := ones_word_ne fun e => h (by rw [e]; rfl)
  simp only [Dev.applyQue, h1, Nat.zero_ne_one, Bool.false_eq_true, if_false]
  refine congrArg Dev.updPins (foldl_keeps fun q hq => if_neg ?_)
  have := List.mem_range.1 hq
  simp
  omega

/-- `FLT` and `DRY` do nothing for a word of another window. -/
theorem Dev.applyFltDry_other {s o : Dev} (h : off / 4096 ≠ 0x12) (hs : s.SameWin o 0x13) : s.applyFltDry o [wordEntry off v] = s := by
  unfold Dev.applyFltDry
  rw [foldl_keeps (l := List.range 6) fun m hm => if_neg (by have := List.mem_range.1 hm; simp; omega)]
  dsimp only
  rw [foldl_keeps (l := List.range 192) fun n hn => if_neg (by have := List.mem_range.1 hn; simp; omega)]
  refine foldl_keeps fun c hc => if_neg ?_
  have hc := List.mem_range.1 hc
  simp only [List.any_eq_true, not_exists, not_and, bne_iff_ne, ne_eq, Decidable.not_not]
  exact fun m hm => (hs _ (by have := List.mem_range.1 hm; omega)).symm

/-- No entry of a word outside `TIM` is an armed output's. -/
theorem Dev.dropArmed_other (s : Dev) (h : off < 0x4200 ∨ 0x4240 ≤ off) : s.dropArmed [wordEntry off v] = [wordEntry off v] := by
  refine List.filter_eq_self.2 fun e he => ?_
  obtain rfl := List.mem_singleton.1 he
  rw [Bool.not_eq_true', List.any_eq_false]
  intro n hn
  have := List.mem_range.1 hn
  simp
  omega

/-- A word that is applied and that no part from `MAC` on acts on: what the parts before make of the device, with its pins up to date. -/
theorem Dev.applyEnts_word {s x : Dev} {off : Nat} {v : Reg} (hd : off < 0x4200 ∨ 0x4240 ≤ off) (hA : off / 4096 ∉ [0xA, 0xE, 0x12])
    (hx : ((((s.worded off v).applyTim s [wordEntry off v] false).applyAxs s [wordEntry off v]).applyGns s [wordEntry off v]).applyFrkMem
      [wordEntry off v] = x) (hD : x.SameWin s 0xD) (h13 : x.SameWin s 0x13) :
    s.applyEnts [wordEntry off v] false = x.updPins := by
  simp only [List.mem_cons, List.not_mem_nil, or_false, not_or] at hA
  have hq : x.updPins.SameWin s 0x13 := fun a ha => (Dev.reg_of_frame (frame_updPins x) (by decide) a).trans (h13 a ha)
  unfold Dev.applyEnts
  rw [s.dropArmed_other v hd]
  show (((_ : Dev).applyMacCtl s _).applyQue s _ false).applyFltDry s _ = _
  rw [show s.withEntries [wordEntry off v] = s.worded off v from rfl, hx, Dev.applyMacCtl_other v hA.1 hD, Dev.applyQue_other v x s hA.2.1,
    Dev.applyFltDry_other v hA.2.2 hq]

/-- A direct write that the rules allow applies its word. -/
theorem Dev.directWrite_allowed {s : Dev} {off : Nat} {v : Reg} (h : s.Allows off v) : s.directWrite off v = s.applyEnts [wordEntry off v] false := by
  have hp : (s.upd.pause == some 1 && firmwareReg off) = false := by
    rw [beq_eq_false_iff_ne.2 h.1]
    rfl
  unfold Dev.directWrite Dev.judgeDirect
  simp only [hp, Bool.false_eq_true, if_false, h.2, List.isEmpty_nil, if_true]

theorem Dev.SameWin.of_frame {c : List Area} {s t o : Dev} {w : Nat} (h : s.SameWin o w) (hf : Frame c s t) (hc : .regs ∉ c) : t.SameWin o w :=
  fun a ha => (Dev.reg_of_frame hf hc a).trans (h a ha)

theorem Dev.SameWin.of_regsBut {l : List Nat} {s t o : Dev} {w : Nat} (h : s.SameWin o w) (hr : RegsBut l s t) (hl : ∀ a ∈ l, a / 4096 ≠ w) :
    t.SameWin o w := fun a ha => (hr a fun hm => hl a hm ha).trans (h a ha)

end Sys2Proof.Machine

/-! ### The time pulse and the TDC (R39, R44, R56-R58, R69) -/
namespace Sys2Proof.Machine

theorem frame_withTdc (s : Dev) (x : Tdc) : Frame [.tdc] s { s with tdc := x } := fun p hp => by cases p <;> simp at hp <;> rfl

theorem frame_withTimTdc (s : Dev) (x : Tim) (y : Tdc) : Frame [.tim, .tdc] s { s with tim := x, tdc := y } :=
  fun p hp => by cases p <;> simp at hp <;> rfl

/-! #### `EN` of the pulse is written -/

/-- What `TIM` makes of a word of `TIM_PPS_CTRL` that sets `EN`: a change of the pulse is set, and `EN` stands. -/
theorem Dev.applyTim_pps (s o : Dev) {v : Reg} (hv : fieldOf v 11 1 = 1) : ∃ w p a h,
    s.applyTim o [wordEntry 0x4060 v] false = ({ s with tim := { s.tim with
      ppsChange := some { rate := s.fld fPpsRate, pol := s.fld fPpsPol, width := w, phase := p, at_ := a, handle := h } } } : Dev).setFld fPpsEn 1 := by
  have hones : ones [wordEntry 0x4060 v] fPpsEn = 1 := (ones_word 0x4060 v 11 1).trans hv
  have hr : touches [wordEntry 0x4060 v] fPpsRate = true := by rw [touches_word]; decide
  have hp : touches [wordEntry 0x4060 v] fPpsPol = true := by rw [touches_word]; decide
  have hw : touches [wordEntry 0x4060 v] fPpsWidth = false := touches_word_ne (by decide)
  have hph : touches [wordEntry 0x4060 v] fPpsPhase = false := touches_word_ne (by decide)
  have hout (n : Nat) (b w : Nat) : ones [wordEntry 0x4060 v] (fOutCtrl n, b, w) = 0 := ones_word_ne (by simp only [fOutCtrl]; omega)
  unfold Dev.applyTim
  simp only [touches_word_ne (off := 0x4060) (v := v) (f := (0x4048, 0, 18)) (by decide), touches_word_ne (off := 0x4060) (v := v) (f := fPpsinSec) (by decide),
    hones, hr, hp, hw, hph, Bool.false_and, Bool.or_false, Bool.false_eq_true, if_false, if_true]
  refine ⟨_, _, _, _, foldl_keeps fun n _ => ?_⟩
  rw [foldl_keeps fun b _ => if_neg (by rw [hout]; decide), hout, show ones [wordEntry 0x4060 v] (fOutArm n) = 0 from hout n _ _]
  rfl

theorem CompletesThen.ppsEnWrite {s : State} {dt : Nat} {v : Reg} (hv : fieldOf v 11 1 = 1) (ha : (s.tick dt).Allows 0x4060 v) :
    CompletesThen (.ppsEnWrite dt v) s fun d => d.flag fPpsEn = true ∧
      (d.tim.ppsChange.map fun c => (c.rate, c.pol)) = some (fieldOf v 0 10, fieldOf v 10 1) := by
  obtain ⟨w, p, a, h, htim⟩ := ((s.tick dt).worded 0x4060 v).applyTim_pps (s.tick dt) hv
  have hr : ((s.tick dt).worded 0x4060 v).fld fPpsRate = fieldOf v 0 10 := Dev.fld_worded _ _ _ (by decide) (by decide +kernel)
  have hp : ((s.tick dt).worded 0x4060 v).fld fPpsPol = fieldOf v 10 1 := Dev.fld_worded _ _ _ (by decide) (by decide +kernel)
  rw [hr, hp] at htim
  generalize hu : Dev.setFld _ fPpsEn 1 = u at htim
  have hregs : RegsBut [0x4060] (s.tick dt) u := by
    rw [← hu]
    exact ((s.tick dt).regsBut_worded 0x4060 v).trans
      ((RegsBut.of_frame (frame_withTim _ _) (by decide)).trans (.setFld _ _ List.mem_cons_self))
  have hwin {k : Nat} (hk : k ≠ 4) : u.SameWin (s.tick dt) k := Dev.SameWin.of_regsBut (fun _ _ => rfl) hregs fun a ha => by
    rw [List.mem_singleton.1 ha]
    exact fun e => hk e.symm
  have hall : (s.tick dt).directWrite 0x4060 v = u.updPins := by
    rw [Dev.directWrite_allowed ha]
    refine Dev.applyEnts_word (.inl (by decide)) (by decide) ?_ (hwin (by decide)) (hwin (by decide))
    rw [htim, Dev.applyAxs_other v (by decide) (hwin (by decide)), Dev.applyGns_other v (by decide) (hwin (by decide)),
      Dev.applyFrkMem_other v u (by decide) (by decide)]
  have he : exec (.ppsEnWrite dt v) s = s.act fun d => (d.tick dt).directWrite 0x4060 v := rfl
  refine .of_act he hall ⟨?_, ?_⟩
  · rw [Dev.flag_of_frame (frame_updPins u) (by decide), ← hu, Dev.flag_setFld _ _ _ (by decide)]
    rfl
  · rw [frame_updPins u .tim (by decide), ← hu]
    rfl

/-! #### The change of the train -/

/-- The train of a change taken over: its fields and what the unit follows. -/
def Dev.ppsTaken (s : Dev) (c : PpsChange) : Dev :=
  let t := (((s.setFld fPpsRate c.rate).setFld fPpsPol c.pol).setFld fPpsWidth c.width).setFld fPpsPhase c.phase
  { t with tim := { t.tim with ppsChange := none, ppsRate := c.rate, ppsPol := c.pol, ppsWidth := c.width, ppsPhase := signed 20 c.phase } }

theorem exec_ppsChange {s : State} {c : PpsChange} (hc : s.tim.ppsChange = some c) :
    exec .ppsChange s = s.act fun _ => ((s.tickTo c.at_).ppsTaken c).doneOpt c.handle stOK [] := by
  show execPpsChange s = _
  refine State.act_congr ?_
  dsimp only
  rw [hc]
  rfl

theorem frame_ppsTaken (s : Dev) (c : PpsChange) : Frame [.regs, .tim] s (s.ppsTaken c) :=
  ((((frame_setFld s _ _).trans (frame_setFld _ _ _)).trans (frame_setFld _ _ _)).trans (frame_setFld _ _ _)).append (frame_withTim _ _)

theorem Dev.ppsTaken_regs (s : Dev) (c : PpsChange) : RegsBut [0x4060, 0x4064, 0x4068] s (s.ppsTaken c) :=
  ((((RegsBut.setFld s _ (by decide)).trans (.setFld _ _ (by decide))).trans (.setFld _ _ (by decide))).trans (.setFld _ _ (by decide))).trans
    (.of_frame (frame_withTim _ _) (by decide))

theorem Dev.ppsTaken_fields (s : Dev) (c : PpsChange) : (s.ppsTaken c).fld fPpsRate = c.rate % 2 ^ 10 ∧ (s.ppsTaken c).fld fPpsPol = c.pol % 2 ∧
    (s.ppsTaken c).fld fPpsWidth = c.width % 2 ^ 20 := by
  have hfld (f : Fld) : (s.ppsTaken c).fld f =
      ((((s.setFld fPpsRate c.rate).setFld fPpsPol c.pol).setFld fPpsWidth c.width).setFld fPpsPhase c.phase).fld f := rfl
  refine ⟨?_, ?_, ?_⟩
  · rw [hfld, Dev.fld_setFld_ne _ _ _ _ (by decide), Dev.fld_setFld_ne _ _ _ _ (by decide), Dev.fld_setFld_other _ _ _ _ (by decide) (by decide)]
    exact Dev.fld_setFld _ _ _ (by decide)
  · rw [hfld, Dev.fld_setFld_ne _ _ _ _ (by decide), Dev.fld_setFld_ne _ _ _ _ (by decide)]
    exact Dev.fld_setFld _ _ _ (by decide)
  · rw [hfld, Dev.fld_setFld_ne _ _ _ _ (by decide)]
    exact Dev.fld_setFld _ _ _ (by decide)

theorem Completes.ppsChange {s : State} {c : PpsChange} {h : Nat} {l : Live} (hs : s.Settled) (hc : s.tim.ppsChange = some c)
    (hh : c.handle = some h) (hw : s.Waits h l) :
    Completes .ppsChange s fun t => t.Answered l stOK [] ∧ t.tim = { s.tim with
        ppsChange := none, ppsRate := c.rate, ppsPol := c.pol, ppsWidth := c.width, ppsPhase := signed 20 c.phase } ∧
      t.fld fPpsRate = c.rate % 2 ^ 10 ∧ t.fld fPpsPol = c.pol % 2 ∧ t.fld fPpsWidth = c.width % 2 ^ 20 ∧
      RegsBut [0x4060, 0x4064, 0x4068] s.toDev t ∧ Frame [.clk, .out, .hif, .tim, .regs] s.toDev t := by
  have he := exec_ppsChange hc
  rw [hh] at he
  have htim : ((s.tickTo c.at_).ppsTaken c).tim = { s.tim with
      ppsChange := none, ppsRate := c.rate, ppsPol := c.pol, ppsWidth := c.width, ppsPhase := signed 20 c.phase } := rfl
  have hregs : RegsBut [0x4060, 0x4064, 0x4068] s.toDev ((s.tickTo c.at_).ppsTaken c) :=
    (RegsBut.of_frame (frame_tickTo _ _) (by decide)).trans (Dev.ppsTaken_regs _ c)
  have hfr : Frame [.clk, .out, .regs, .tim] s.toDev ((s.tickTo c.at_).ppsTaken c) := (frame_tickTo _ _).append (frame_ppsTaken _ c)
  have hfld := (s.tickTo c.at_).ppsTaken_fields c
  generalize (s.tickTo c.at_).ppsTaken c = u at he htim hregs hfr hfld
  have hd := frame_done u h stOK []
  have hall : Frame [.clk, .out, .hif, .tim, .regs] s.toDev (u.done h stOK []) := (hfr.append hd).mono (by decide)
  obtain ⟨hr, hp, hwd⟩ := hfld
  have hkeep (f : Fld) : (u.done h stOK []).fld f = u.fld f := Dev.fld_of_frame hd (by decide) f
  have hu : u.Waits h l := hw.of_frame hfr (by decide) (hregs _ (by
    have := hw.2.2.2.2
    simp only [cqEn, List.mem_cons, List.not_mem_nil, or_false]
    omega))
  refine .of_effect hs hall he (by decide) (by decide) ⟨hu.done stOK [], ?_, ?_, ?_, ?_, hregs.trans (.of_frame hd (by decide)), hall⟩
  · rw [hd .tim (by decide), htim]
  · rw [hkeep, hr]
  · rw [hkeep, hp]
  · rw [hkeep, hwd]

/-! #### The rest -/

/-- The announced second (R39): the next one whose low 32 bits are those of the register. -/
def Dev.leapAt (s : Dev) : NT :=
  BitVec.ofInt 64 (((s.nt.toNat / tickHz : Nat) + max (signed 32 ((s.fld fLeapSec + 2 ^ 32 - s.nt.toNat / tickHz % 2 ^ 32) % 2 ^ 32)) 0) * (tickHz : Int))

theorem exec_leapSecond {s : State} (hf : s.flag (0x4048, 16, 1) = true) :
    exec .leapSecond s = s.act fun _ => ((s.tickTo s.leapAt).setFld (0x4048, 0, 8) (s.fld (0x4048, 8, 8))).setFld (0x4048, 16, 1) 0 := by
  show execLeapSecond s = _
  refine State.act_congr ?_
  dsimp only
  rw [hf]
  rfl

theorem Completes.leapSecond {s : State} (hs : s.Settled) (hf : s.flag (0x4048, 16, 1) = true) :
    Completes .leapSecond s fun t => t.fld (0x4048, 0, 8) = s.fld (0x4048, 8, 8) ∧ t.flag (0x4048, 16, 1) = false ∧
      RegsBut [0x4048] s.toDev t ∧ Frame [.clk, .out, .regs] s.toDev t := by
  have he := exec_leapSecond hf
  generalize s.leapAt = t at he
  have hall : Frame [.clk, .out, .regs] s.toDev (((s.tickTo t).setFld (0x4048, 0, 8) (s.fld (0x4048, 8, 8))).setFld (0x4048, 16, 1) 0) :=
    ((frame_tickTo _ t).append (frame_setFld _ _ _)).trans ((frame_setFld _ _ _).mono (by decide))
  refine .of_effect hs hall he (by decide) (by decide) ⟨?_, ?_, ?_, hall⟩
  · rw [Dev.fld_setFld_other _ _ _ _ (by decide) (by decide), Dev.fld_setFld _ _ _ (by decide)]
    exact Nat.mod_eq_of_lt (Dev.fld_lt _ _)
  · rw [Dev.flag_setFld _ _ _ (by decide)]
    rfl
  · exact (RegsBut.of_frame (frame_tickTo _ t) (by decide)).trans (.trans (.setFld _ _ (by decide)) (.setFld _ _ (by decide)))

/-- The pulse of the train due at `e` has left. -/
def Dev.pulsed (s : Dev) (e : NT) : Dev :=
  ({ s with tim := { s.tim with ppsLast := some e } } : Dev).emit (.pulse 4 e (1000 * s.tim.ppsWidth) (s.tim.ppsPol == 0))

theorem Completes.ppsPulse {s : State} (hs : s.Settled) (hq : s.tim.ppsQual = true) (hr : s.tim.ppsRate ≠ 0) :
    Completes .ppsPulse s fun t => t.out = [.pulse 4 s.nextPps (1000 * s.tim.ppsWidth) (s.tim.ppsPol == 0)] ∧
      t.tim = { s.tim with ppsLast := some s.nextPps } ∧ Frame [.clk, .out, .tim] s.toDev t := by
  have he : exec .ppsPulse s = s.act fun _ => (s.tickTo s.nextPps).pulsed s.nextPps := by
    show execPpsPulse s = _
    refine State.act_congr ?_
    dsimp only
    rw [hq]
    exact if_neg (by simpa using hr)
  have hall : Frame [.clk, .out, .tim] s.toDev ((s.tickTo s.nextPps).pulsed s.nextPps) :=
    ((frame_tickTo _ _).append ((frame_withTim _ _).append (frame_emit _ _))).mono (by decide)
  exact .of_effect hs hall he (by decide) (by decide) ⟨rfl, rfl, hall⟩

theorem Completes.tdcColdCalDone {s : State} (hs : s.Settled) (dt : Nat) :
    Completes (.tdcColdCalDone dt) s fun t => t.tim = { s.tim with tdcCal := true } ∧ s.tdc.since + 2 * cycHz ≤ t.up ∧
      t.tdc = { s.tdc with calAt := t.up + 600 * cycHz } ∧ Frame [.clk, .out, .tim, .tdc] s.toDev t := by
  have hup : s.tdc.since + 2 * cycHz ≤ (s.tick (max dt (s.tdc.since + 2 * cycHz - s.up))).up := by
    rw [Dev.tick_up]
    omega
  generalize hn : max dt (s.tdc.since + 2 * cycHz - s.up) = n at hup
  have he : exec (.tdcColdCalDone dt) s = s.act fun _ =>
      { s.tick n with tim := { s.tim with tdcCal := true }, tdc := { s.tdc with calAt := (s.tick n).up + 600 * cycHz } } := by
    show execTdcColdCalDone dt s = _
    refine State.act_congr ?_
    dsimp only
    rw [hn]
    rfl
  have hall : Frame [.clk, .out, .tim, .tdc] s.toDev
      { s.tick n with tim := { s.tim with tdcCal := true }, tdc := { s.tdc with calAt := (s.tick n).up + 600 * cycHz } } :=
    (frame_tick _ n).append (frame_withTimTdc _ _ _)
  exact .of_effect hs hall he (by decide) (by decide) ⟨rfl, hup, rfl, hall⟩

/-- A recalibration has come to its unit, and the turn goes to the next one. -/
def Dev.tdcTurned (s : Dev) : Dev := { s.tickUp s.tdc.calAt with tdc := { s.tdc with next := (s.tdc.next + 1) % 15, calAt := s.tdc.calAt + 600 * cycHz } }

theorem Completes.tdcRecalibration {s : State} (hs : s.Settled) (hc : s.tim.tdcCal = true) :
    Completes (.tdcRecalibration true) s fun t => t.up = max s.up s.tdc.calAt ∧
      t.tdc = { s.tdc with next := (s.tdc.next + 1) % 15, calAt := s.tdc.calAt + 600 * cycHz } ∧ Frame [.clk, .out, .tdc] s.toDev t := by
  have he : exec (.tdcRecalibration true) s = s.act fun _ => s.tdcTurned := by
    show execTdcRecalibration true s = _
    refine State.act_congr ?_
    dsimp only
    rw [hc]
    rfl
  have hall : Frame [.clk, .out, .tdc] s.toDev s.tdcTurned := (frame_tickUp _ _).append (frame_withTdc _ _)
  exact .of_effect hs hall he (by decide) (by decide) ⟨Dev.tickUp_up _ _, rfl, hall⟩

theorem CompletesThen.tdcRecalibration_fails {s : State} (hc : s.tim.tdcCal = true) (hn : s.tdc.next ∉ s.tdc.failed) :
    CompletesThen (.tdcRecalibration false) s fun d => d.tdc = { s.tdc with
        next := (s.tdc.next + 1) % 15
        calAt := s.tdc.calAt + 600 * cycHz
        failed := s.tdc.next :: s.tdc.failed
        uncal := if s.tdc.failed = [] then s.tdc.uncal else s.tdc.next :: s.tdc.uncal } ∧
      d.todo = s.todo ++ [.fault 0x07 false] ∧ Frame [.clk, .out, .tdc, .todo] s.toDev d := by
  have hcon : (s.tdc.failed.contains s.tdc.next) = false := by simpa using hn
  let x : Tdc := { s.tdcTurned.tdc with
    failed := s.tdc.next :: s.tdc.failed, uncal := if s.tdc.failed = [] then s.tdc.uncal else s.tdc.next :: s.tdc.uncal }
  have he : exec (.tdcRecalibration false) s = s.act fun _ => ({ s.tdcTurned with tdc := x } : Dev).raise 0x07 := by
    show execTdcRecalibration false s = _
    refine State.act_congr ?_
    dsimp only
    rw [hc]
    refine (if_neg (by decide)).trans ((if_neg (Bool.eq_false_iff.1 (hcon : (false || _) = false))).trans ?_)
    refine congrArg (fun y : Tdc => ({ s.tdcTurned with tdc := y } : Dev).raise 0x07) ?_
    refine congrArg (fun y : List Nat => ({ s.tdcTurned.tdc with failed := s.tdc.next :: s.tdc.failed, uncal := y } : Tdc)) ?_
    show (if s.tdc.failed.isEmpty = true then s.tdc.uncal else s.tdc.next :: s.tdc.uncal) = _
    simp only [List.isEmpty_iff]
  have hall : Frame [.clk, .out, .tdc, .todo] s.toDev (({ s.tdcTurned with tdc := x } : Dev).raise 0x07) :=
    ((((frame_tickUp _ _).append (frame_withTdc _ _)).trans ((frame_withTdc _ _).mono (by decide))).append (frame_raise _ _)).mono (by decide)
  exact .of_effect he ⟨rfl, rfl, hall⟩

theorem Completes.timeSetPps {s : State} {h : Nat} {l : Live} (hs : s.Settled) (hr : s.Runs h 0x11 l)
    (hpol : s.tim.ppsQual = false ∨ l.p 2 1 = s.tim.ppsPol) (hfree : (s.tim.ppsChange.bind (·.handle)) = none) :
    Completes (.timeSetPps h) s fun t => t.Begun l ∧ t.tim = { s.tim with
        ppsChange := some { rate := l.p 0 2, pol := l.p 2 1, width := l.p 4 4, phase := l.p 8 4 % 2 ^ 20, at_ := s.ppsChangeAt, handle := some h } } ∧
      Frame [.out, .hif, .tim] s.toDev t := by
  let x : Tim := { s.tim with
    ppsChange := some { rate := l.p 0 2, pol := l.p 2 1, width := l.p 4 4, phase := l.p 8 4 % 2 ^ 20, at_ := s.ppsChangeAt, handle := some h } }
  have hbegun := hr.begun
  have hf : Frame [.out, .hif, .tim] s.toDev { s.begin.markStarted h with tim := x } := (frame_begin_markStarted _ h).append (frame_withTim _ x)
  refine .of_command rfl hs hr (u := { s.begin.markStarted h with tim := x }) ?_ hf (by decide) (by decide) ⟨hbegun, rfl, hf⟩
  have h1 : ¬(s.tim.ppsQual && decide (l.p 2 1 ≠ s.tim.ppsPol)) = true := by
    rcases hpol with hq | hp
    · simp [hq]
    · simp [hp]
  exact (if_neg h1).trans (if_neg (by rw [show (s.begin.markStarted h).tim = s.tim from rfl, hfree]; decide))

/-- Settles O16. -/
theorem theTimePulseFollowsItsTrain : Obligations.TheTimePulseFollowsItsTrain := by
  refine ⟨fun s hs => .ppsPulse hs, fun s dt v => .ppsEnWrite, fun s h l hs => .timeSetPps hs, fun s h l hs hr hq hne => ?_,
    fun s c h l hs => .ppsChange hs, fun s hs => .leapSecond hs, fun s dt hs => .tdcColdCalDone hs dt, fun s hs => .tdcRecalibration hs,
    fun s => .tdcRecalibration_fails⟩
  refine .answered rfl hs hr (if_pos ?_)
  show (s.tim.ppsQual && decide (l.p 2 1 ≠ s.tim.ppsPol)) = true
  simp [hq, hne]

end Sys2Proof.Machine

/-! ### Direct writes (R392): the rows that act at once -/
namespace Sys2Proof.Machine

/-- A direct write that is allowed leaves what its window makes of it, with the pins up to date. -/
theorem CompletesThen.worded {c : Instr} {s : State} {dt off : Nat} {v : Reg} {x : Dev} {P : Dev → Prop}
    (he : exec c s = s.act fun d => (d.tick dt).directWrite off v) (ha : (s.tick dt).Allows off v)
    (hx : (s.tick dt).applyEnts [wordEntry off v] false = x.updPins) (hp : P x.updPins) : CompletesThen c s P :=
  .of_act he ((Dev.directWrite_allowed ha).trans hx) hp

theorem Dev.entryValue_tick (s : Dev) (dt : Nat) (e : Staged) : (s.tick dt).entryValue e = s.entryValue e := by
  unfold Dev.entryValue
  rw [Dev.reg_of_frame (frame_tick s dt) (by decide)]

theorem isReg_of_known {off : Nat} (h : knownReg off = true) : isReg off = true := by
  unfold isReg
  rw [h]
  rfl

/-- A direct write outside `HIF`, `BEN` and the MSI-X table of a register without a row of its own is judged by the table. -/
theorem exec_directWrite {s : State} (dt : Nat) {off : Nat} (v : Reg) (hoff : off % 4 = 0) (hown : ownRow off = false) (hreg : isReg off = true)
    (hwin : off / 4096 ∉ [0x2, 0xF, 0x3E]) : exec (.directWrite dt off v) s = s.act fun d => (d.tick dt).directWrite off v := by
  show execDirectWrite dt off v s = _
  refine State.act_congr ?_
  dsimp only
  simp only [List.mem_cons, List.not_mem_nil, or_false, not_or] at hwin
  have hplain : (within 0x2000 0x1000 off || within 0xF000 0x1000 off || within 0x3E000 0x400 off) = false := by
    simp only [within, Bool.or_eq_false_iff, decide_eq_false_iff_not]
    omega
  rw [if_neg (by simp [hoff, hown]), hplain, hreg]
  rfl

/-! #### A setting of the profiles -/

theorem CompletesThen.directWrite_prf {s : State} {dt off : Nat} {v : Reg} (hwin : off / 4096 = 0xB) (hoff : off % 4 = 0) (hk : knownReg off = true)
    (ha : (s.tick dt).Allows off v) :
    CompletesThen (.directWrite dt off v) s fun d => d.reg off = s.entryValue (wordEntry off v) ∧ RegsBut [off] s.toDev d ∧
      Frame [.clk, .out, .regs, .que] s.toDev d := by
  have hown : ownRow off = false := by
    simp only [ownRow, within, Bool.or_eq_false_iff, Bool.and_eq_false_iff, beq_eq_false_iff_ne, decide_eq_false_iff_not]
    omega
  have he := exec_directWrite (s := s) dt v hoff hown (isReg_of_known hk) (by rw [hwin]; decide)
  have hsame {w : Nat} (hw : w ≠ 0xB) : ((s.tick dt).worded off v).SameWin (s.tick dt) w := Dev.sameWin_worded _ v (by rw [hwin]; exact fun e => hw e.symm)
  have hx : (s.tick dt).applyEnts [wordEntry off v] false = ((s.tick dt).worded off v).updPins := by
    refine Dev.applyEnts_word (by omega) (by rw [hwin]; decide) ?_ (hsame (by decide)) (hsame (by decide))
    rw [Dev.applyTim_other v _ _ (by rw [hwin]; decide), Dev.applyAxs_other v (by rw [hwin]; decide) (hsame (by decide)),
      Dev.applyGns_other v (by rw [hwin]; decide) (hsame (by decide)), Dev.applyFrkMem_other v _ (by omega) (by omega)]
  refine .worded he ha hx ⟨?_, ?_, ?_⟩
  · rw [Dev.reg_of_frame (frame_updPins _) (by decide), Dev.reg_worded, Dev.entryValue_tick]
  · exact (RegsBut.of_frame (frame_tick _ dt) (by decide)).trans ((Dev.regsBut_worded _ off v).trans (.of_frame (frame_updPins _) (by decide)))
  · exact ((frame_tick _ dt).append ((frame_worded _ off v).append (frame_updPins _)))

/-! #### A write that a rule refuses -/

theorem Completes.directWrite_ignored {s : State} {dt off : Nat} {v : Reg} (hs : s.Settled) (hwin : off / 4096 ∉ [0x2, 0xF, 0x3E]) (hoff : off % 4 = 0)
    (hown : ownRow off = false) (hreg : isReg off = true) (hp : s.upd.pause ≠ some 1) (hj : (s.tick dt).judgeSet [wordEntry off v] true 0 ≠ []) :
    Completes (.directWrite dt off v) s fun t => t.fld (0xF020, 0, 16) = satInc 16 (s.fld (0xF020, 0, 16)) ∧
      (t.reg 0xF034).toNat = off % 2 ^ 32 ∧ RegsBut [0xF020, 0xF034] s.toDev t ∧ Frame [.clk, .out, .regs] s.toDev t := by
  have hpause : ((s.tick dt).upd.pause == some 1 && firmwareReg off) = false := by
    rw [Dev.tick_upd, beq_eq_false_iff_ne.2 hp]
    rfl
  have hu : (s.tick dt).directWrite off v = ((s.tick dt).cntSat (0xF020, 0, 16)).setReg 0xF034 (BitVec.ofNat 32 off) := by
    unfold Dev.directWrite Dev.judgeDirect
    simp only [hpause, Bool.false_eq_true, if_false]
    exact if_neg fun h => hj (List.isEmpty_iff.1 h)
  have hf : Frame [.clk, .out, .regs] s.toDev (((s.tick dt).cntSat (0xF020, 0, 16)).setReg 0xF034 (BitVec.ofNat 32 off)) :=
    (frame_tick _ dt).append ((frame_cntSat _ _).trans (frame_setReg _ _ _))
  refine .of_act (exec_directWrite dt v hoff hown hreg hwin) hu hs hf (by decide) (by decide) ⟨?_, ?_, ?_, hf⟩
  · rw [Dev.fld_of_reg (t := Dev.setReg _ 0xF034 _) ((Dev.reg_setReg _ _ _ _).trans (if_neg (by decide))), Dev.fld_cntSat _ _ (by decide), Dev.fld_of_frame (frame_tick _ dt) (by decide)]
  · rw [Dev.reg_setReg, if_pos rfl, BitVec.toNat_ofNat]
  · exact (RegsBut.of_frame (frame_tick _ dt) (by decide)).trans (((RegsBut.cntSat _ _).mono (by decide)).trans (.setReg _ _ (by decide)))

/-! #### `GNS`: a front-end transfer, a calibration, a retirement -/

/-- A word of `GNS` that changes no port and not the rotation: what its commands make of the device. -/
theorem Dev.applyEnts_gns {s x y : Dev} {off : Nat} {v : Reg} (hoff : off = 0x5100 ∨ off = 0x5064) (hy : s.worded off v = y)
    (hx : y.applyGns s [wordEntry off v] = x) (hf : x.reg = y.reg) : s.applyEnts [wordEntry off v] false = x.updPins := by
  subst hy
  have hsame {w : Nat} (hw : w ≠ 5) : (s.worded off v).SameWin s w := Dev.sameWin_worded s v (by omega)
  have hx' {w : Nat} (hw : w ≠ 5) : x.SameWin s w := fun a ha => (congrFun hf a).trans (hsame hw a ha)
  refine Dev.applyEnts_word (by omega) (by rcases hoff with rfl | rfl <;> decide) ?_ (hx' (by decide)) (hx' (by decide))
  rw [Dev.applyTim_other v _ _ (by omega), Dev.applyAxs_other v (by omega) (hsame (by decide)), hx, Dev.applyFrkMem_other v _ (by omega) (by omega)]

/-- The ports and the rotation stand where no word of theirs is written. -/
theorem Dev.applyGns_commands {s o : Dev} {off : Nat} {v : Reg} (hp : ∀ p, p < 6 → s.fld (spEn p) = o.fld (spEn p))
    (hrot : s.flag (0x5060, 0, 1) = o.flag (0x5060, 0, 1)) : s.applyGns o [wordEntry off v] =
      let t := if ones [wordEntry off v] (0x5064, 4, 1) = 1 then s.calNow (s.fld (0x5064, 0, 4)) else s
      let t := if ones [wordEntry off v] (0x5064, 5, 1) = 1 then t.retireGrp (t.fld (0x5064, 0, 4)) else t
      if ones [wordEntry off v] (0x5100, 14, 1) = 1 then t.feGo else t := by
  have hports : (List.range 6).foldl (fun s p => if o.fld (spEn p) != s.fld (spEn p) then s.portEn p else s) s = s :=
    foldl_keeps fun p hp' => if_neg (by simp [hp p (List.mem_range.1 hp')])
  have hf : (!o.flag (0x5060, 0, 1) && s.flag (0x5060, 0, 1)) = false := by rw [hrot, Bool.not_and_self]
  unfold Dev.applyGns
  simp only [hports, hf, Bool.false_eq_true, if_false]

theorem Dev.worded_gns (s : Dev) {off : Nat} (v : Reg) (hoff : off = 0x5100 ∨ off = 0x5064) :
    (∀ p, p < 6 → (s.worded off v).fld (spEn p) = s.fld (spEn p)) ∧ (s.worded off v).flag (0x5060, 0, 1) = s.flag (0x5060, 0, 1) := by
  refine ⟨fun p hp => (s.regsBut_worded off v).fld_eq ?_, (s.regsBut_worded off v).flag_eq ?_⟩
  · simp only [spEn, List.mem_singleton]
    omega
  · rw [List.mem_singleton]
    omega

theorem CompletesThen.feSpiGo {s : State} {dt : Nat} {v : Reg} (hv : fieldOf v 14 1 = 1) (ha : (s.tick dt).Allows 0x5100 v) (hfe : s.gns.fe = none)
    (hcs : fieldOf v 0 3 < s.nPorts) :
    CompletesThen (.feSpiGo dt v) s fun d => d.gns = { s.gns with fe := some (fieldOf v 0 3, fieldOf v 8 6) } ∧
      d.out = [.spi (fieldOf v 0 3) (msbFirst (fieldOf v 8 6) (s.reg 0x5104).toNat)] := by
  have h0 : ((s.tick dt).worded 0x5100 v).fld (0x5100, 0, 3) = fieldOf v 0 3 := Dev.fld_worded _ _ _ (by decide) (by decide +kernel)
  have h8 : ((s.tick dt).worded 0x5100 v).fld (0x5100, 8, 6) = fieldOf v 8 6 := Dev.fld_worded _ _ _ (by decide) (by decide +kernel)
  have hdata : ((s.tick dt).worded 0x5100 v).reg 0x5104 = s.reg 0x5104 :=
    (Dev.regsBut_worded _ 0x5100 v 0x5104 (by decide)).trans (Dev.reg_of_frame (frame_tick _ dt) (by decide) _)
  have hgns : ((s.tick dt).worded 0x5100 v).gns = s.gns := rfl
  have hout : ((s.tick dt).worded 0x5100 v).out = [] := rfl
  have hnp : ((s.tick dt).worded 0x5100 v).nPorts = s.nPorts := rfl
  obtain ⟨hp, hrot⟩ := (s.tick dt).worded_gns v (.inl rfl : 0x5100 = 0x5100 ∨ 0x5100 = 0x5064)
  generalize hy : (s.tick dt).worded 0x5100 v = y at h0 h8 hdata hgns hout hnp hp hrot
  have hgo : y.feGo = ({ y with gns := { y.gns with fe := some (fieldOf v 0 3, fieldOf v 8 6) } } : Dev).emit
      (.spi (fieldOf v 0 3) (msbFirst (fieldOf v 8 6) (y.reg 0x5104).toNat)) := by
    unfold Dev.feGo
    simp only [h0, h8]
    exact if_neg (by simp [hgns, hfe, hnp, hcs])
  have hx : y.applyGns (s.tick dt) [wordEntry 0x5100 v] = y.feGo := by
    rw [Dev.applyGns_commands hp hrot, ones_word_ne (f := (0x5064, 4, 1)) (by decide), ones_word_ne (f := (0x5064, 5, 1)) (by decide),
      ones_word 0x5100 v 14 1, hv]
    rfl
  have he : exec (.feSpiGo dt v) s = s.act fun d => (d.tick dt).directWrite 0x5100 v := rfl
  refine .worded he ha (Dev.applyEnts_gns (.inl rfl) hy hx (by rw [hgo]; rfl)) ⟨?_, ?_⟩
  · rw [frame_updPins _ .gns (by decide), hgo, ← hgns]
    rfl
  · rw [frame_updPins _ .out (by decide), hgo, ← hdata]
    show y.out ++ _ = _
    rw [hout]
    rfl

theorem Dev.grpServes_of_same {s t : Dev} (hg : t.gns = s.gns) (hf : t.fuse = s.fuse) (g : Nat) : t.grpServes g = s.grpServes g := by
  unfold Dev.grpServes Dev.grpThere
  rw [hg, hf]

/-- The group that a word of the calibration register names. -/
theorem Dev.worded_group (s : Dev) (v : Reg) : (s.worded 0x5064 v).fld (0x5064, 0, 4) = fieldOf v 0 4 :=
  Dev.fld_worded _ _ _ (by decide) (by decide +kernel)

theorem CompletesThen.calNow {s : State} {dt g : Nat} {v : Reg} (hg : fieldOf v 0 4 = g) (h4 : fieldOf v 4 1 = 1) (h5 : fieldOf v 5 1 = 0)
    (ha : (s.tick dt).Allows 0x5064 v) (hcal : s.gns.calib = none) (hsp : s.gns.spare.isSome = true) (hserves : s.grpServes g = true) :
    CompletesThen (.calNow dt v) s fun d => d.gns = { s.gns with calib := some { grp := g } } ∧
      (∃ r ∈ d.gov.reqs, r.work = .calib g ∧ r.cls = 7 ∧ r.mw = 400) := by
  have h0 := (s.tick dt).worded_group v
  have hgns : ((s.tick dt).worded 0x5064 v).gns = s.gns := rfl
  have hfuse : ((s.tick dt).worded 0x5064 v).fuse = s.fuse := rfl
  obtain ⟨hp, hrot⟩ := (s.tick dt).worded_gns v (.inr rfl : 0x5064 = 0x5100 ∨ 0x5064 = 0x5064)
  rw [hg] at h0
  generalize hy : (s.tick dt).worded 0x5064 v = y at h0 hgns hfuse hp hrot
  have hsv : y.grpServes g = true := (Dev.grpServes_of_same hgns hfuse g).trans hserves
  have hnow : y.calNow g = y.askCalib g := by
    unfold Dev.calNow
    refine if_neg ?_
    rw [hgns, hcal, hsv, ← Option.not_isSome, hsp]
    decide
  have hx : y.applyGns (s.tick dt) [wordEntry 0x5064 v] = y.askCalib g := by
    rw [Dev.applyGns_commands hp hrot, ones_word 0x5064 v 4 1, ones_word 0x5064 v 5 1, ones_word_ne (f := (0x5100, 14, 1)) (by decide), h4, h5,
      h0, hnow]
    rfl
  have he : exec (.calNow dt v) s = s.act fun d => (d.tick dt).directWrite 0x5064 v := rfl
  refine .worded he ha (Dev.applyEnts_gns (.inr rfl) hy hx rfl) ⟨?_, ?_⟩
  · rw [frame_updPins _ .gns (by decide), ← hgns]
    rfl
  · rw [frame_updPins _ .gov (by decide)]
    exact ⟨_, List.mem_append_right _ List.mem_cons_self, rfl, rfl, rfl⟩

/-! Retirement of a group -/

theorem frame_dropGrp (s : Dev) (g : Nat) : Frame [.gns] s (s.dropGrp g) := frame_withGns s _

theorem Dev.retired_endCalib (s : Dev) : s.endCalib.gns.retired = s.gns.retired := by
  unfold Dev.endCalib
  split <;> rfl

/-- The assignments as a retirement of `g` leaves them, before the calibration ends. -/
def Dev.reassigned (s : Dev) (g : Nat) : Dev :=
  match s.gns.calib, s.gns.spare with
  | some c, some p =>
    if c.stage = 2 then
      if g = c.grp then s else s.moveGrp g c.grp true
    else if g = p then s
    else if c.stage = 1 then
      if g = c.grp then s.moveGrp g p false else (s.moveGrp c.grp p false).moveGrp g c.grp true
    else s.moveGrp g p true
  | none, some p => if g = p then s else s.moveGrp g p true
  | _, none => s.dropGrp g

theorem Dev.reassigned_keeps (s : Dev) (g : Nat) : Frame [.gns] s (s.reassigned g) ∧ (s.reassigned g).gns.retired = s.gns.retired := by
  have hmove (t : Dev) (a b : Nat) (r : Bool) : Frame [.gns] t (t.moveGrp a b r) ∧ (t.moveGrp a b r).gns.retired = t.gns.retired := ⟨frame_moveGrp t a b r, rfl⟩
  unfold Dev.reassigned
  split
  · split_ifs
    · exact ⟨.refl _ s, rfl⟩
    · exact hmove s _ _ _
    · exact ⟨.refl _ s, rfl⟩
    · exact hmove s _ _ _
    · exact ⟨(frame_moveGrp s _ _ _).trans (frame_moveGrp _ _ _ _), rfl⟩
    · exact hmove s _ _ _
  · split_ifs
    · exact ⟨.refl _ s, rfl⟩
    · exact hmove s _ _ _
  · exact ⟨frame_dropGrp s g, rfl⟩

theorem Dev.retireGrp_sound {s : Dev} {g : Nat} (hthere : s.grpThere g = true) (hg : g ∉ s.gns.retired) : ∃ u : Dev,
    s.retireGrp g = (({ u with gns := { u.gns with spare := none } } : Dev).raise 0x43).raiseLevel 0x44 ∧
      Frame [.gns, .gov] s u ∧ u.gns.retired = g :: s.gns.retired := by
  let t : Dev := { s with gns := { s.gns with retired := g :: s.gns.retired } }
  obtain ⟨hf, hr⟩ := t.reassigned_keeps g
  refine ⟨(t.reassigned g).endCalib, ?_, ?_, ?_⟩
  · unfold Dev.retireGrp
    exact if_neg (by simp [hthere, hg])
  · exact (((frame_withGns s _).trans hf).append (frame_endCalib _)).mono (by decide)
  · rw [Dev.retired_endCalib, hr]

theorem CompletesThen.grpRetire {s : State} {dt g : Nat} {v : Reg} (hg : fieldOf v 0 4 = g) (h4 : fieldOf v 4 1 = 0) (h5 : fieldOf v 5 1 = 1)
    (ha : (s.tick dt).Allows 0x5064 v) (hthere : s.grpThere g = true) (hret : g ∉ s.gns.retired) :
    CompletesThen (.grpRetire dt v) s fun d => d.gns.retired = g :: s.gns.retired ∧ d.gns.spare = none ∧ .fault 0x43 false ∈ d.todo ∧
      (d.src 0x44).level = true := by
  have h0 := (s.tick dt).worded_group v
  have hgns : ((s.tick dt).worded 0x5064 v).gns = s.gns := rfl
  have hfuse : ((s.tick dt).worded 0x5064 v).fuse = s.fuse := rfl
  obtain ⟨hp, hrot⟩ := (s.tick dt).worded_gns v (.inr rfl : 0x5064 = 0x5100 ∨ 0x5064 = 0x5064)
  rw [hg] at h0
  generalize hy : (s.tick dt).worded 0x5064 v = y at h0 hgns hfuse hp hrot
  have hth : y.grpThere g = true := by
    unfold Dev.grpThere
    rw [hfuse]
    exact hthere
  obtain ⟨u, hu, huf, hur⟩ := Dev.retireGrp_sound hth (by rw [hgns]; exact hret)
  have hx : y.applyGns (s.tick dt) [wordEntry 0x5064 v] = y.retireGrp g := by
    rw [Dev.applyGns_commands hp hrot, ones_word 0x5064 v 4 1, ones_word 0x5064 v 5 1, ones_word_ne (f := (0x5100, 14, 1)) (by decide), h4, h5, ← h0]
    rfl
  rw [hu] at hx
  have hfr : Frame [.gns, .gov, .flt, .todo] y ((({ u with gns := { u.gns with spare := none } } : Dev).raise 0x43).raiseLevel 0x44) :=
    ((huf.append (frame_withGns _ _)).append ((frame_raise _ _).append (frame_raiseLevel _ _))).mono (by decide)
  have he : exec (.grpRetire dt v) s = s.act fun d => (d.tick dt).directWrite 0x5064 v := rfl
  refine .worded he ha (Dev.applyEnts_gns (.inr rfl) hy hx (Dev.reg_eq_of_frame hfr (by decide))) ⟨?_, ?_, ?_, ?_⟩
  · rw [frame_updPins _ .gns (by decide), frame_raiseLevel _ _ .gns (by decide)]
    exact hur.trans (by rw [hgns])
  · rw [frame_updPins _ .gns (by decide), frame_raiseLevel _ _ .gns (by decide)]
    rfl
  · rw [frame_updPins _ .todo (by decide), Dev.todo_raiseLevel, Dev.todo_raise]
    exact List.mem_append_left _ (List.mem_append_right _ List.mem_cons_self)
  · rw [Dev.src, frame_updPins _ .flt (by decide)]
    exact Dev.src_raiseLevel _ 0x44

/-! #### `FRK` and `MEM`: engines, a scrub and a rank -/

/-- A word of `FRK` or `MEM`: what its commands make of the device. -/
theorem Dev.applyEnts_frkMem {s x y : Dev} {off : Nat} {v : Reg} (hoff : off = 0x7068 ∨ off = 0x301C) (hy : s.worded off v = y)
    (hx : y.applyFrkMem [wordEntry off v] = x) (hr : RegsBut [0x7060] y x) : s.applyEnts [wordEntry off v] false = x.updPins := by
  subst hy
  have hsame {w : Nat} (h7 : w ≠ 7) (h3 : w ≠ 3) : (s.worded off v).SameWin s w := Dev.sameWin_worded s v (by omega)
  have hx' {w : Nat} (h7 : w ≠ 7) (h3 : w ≠ 3) : x.SameWin s w := (hsame h7 h3).of_regsBut hr fun a ha => by
    rw [List.mem_singleton.1 ha]
    exact fun e => h7 e.symm
  refine Dev.applyEnts_word (by omega) (by rcases hoff with rfl | rfl <;> decide) ?_ (hx' (by decide) (by decide)) (hx' (by decide) (by decide))
  rw [Dev.applyTim_other v _ _ (by omega), Dev.applyAxs_other v (by omega) (hsame (by decide) (by decide)),
    Dev.applyGns_other v (by omega) (hsame (by decide) (by decide)), hx]

/-- What retiring engines keeps: the list of those retired, and all registers but the count of skipped epochs. -/
def Dev.EngKept (s t : Dev) : Prop := t.frk.retired = s.frk.retired ∧ RegsBut [0x7060] s t

theorem Dev.EngKept.refl (s : Dev) : s.EngKept s := ⟨rfl, .refl _ s⟩

theorem Dev.EngKept.trans {s t u : Dev} (h : s.EngKept t) (k : t.EngKept u) : s.EngKept u := ⟨k.1.trans h.1, h.2.trans k.2⟩

theorem Dev.EngKept.foldl {α : Type} {f : Dev → α → Dev} (h : ∀ (s : Dev) a, s.EngKept (f s a)) (l : List α) : ∀ s : Dev, s.EngKept (l.foldl f s) := by
  induction l with
  | nil => exact fun s => .refl s
  | cons a l ih => exact fun s => (h s a).trans (ih _)

theorem Dev.EngKept.setFrkSlot (s : Dev) (i : Nat) (x : FrkSlot) : s.EngKept (s.setFrkSlot i x) := ⟨rfl, fun _ _ => rfl⟩

theorem Dev.EngKept.frkServed (s : Dev) (i : Nat) : s.EngKept (s.frkServed i) := by
  unfold Dev.frkServed
  dsimp only
  split
  · exact .setFrkSlot s i _
  · exact .refl s

theorem Dev.EngKept.skipEpoch (s : Dev) (q : FrkEpoch) : s.EngKept (s.skipEpoch q) := by
  let t : Dev := { s with frk := { s.frk with queue := s.frk.queue.filter fun (x : FrkEpoch) => x != q } }
  have h : s.EngKept (t.setFrkSlot q.slot { t.frkSlot q.slot with skipped := true, prevDone := false }) := ⟨rfl, fun _ _ => rfl⟩
  exact (h.trans (.frkServed _ q.slot)).trans ⟨rfl, .cntSat _ (0x7060, 0, 16)⟩

theorem Dev.retireEng_spec (s : Dev) (e : Nat) : RegsBut [0x7060] s (s.retireEng e) ∧
    (s.retireEng e).frk.retired = if e < 8 ∧ e ∉ s.frk.retired then e :: s.frk.retired else s.frk.retired := by
  unfold Dev.retireEng
  by_cases h : e < 8 ∧ e ∉ s.frk.retired
  · obtain ⟨h8, hn⟩ := h
    rw [if_neg (by simp [hn]; omega), if_pos ⟨h8, hn⟩]
    let t : Dev := { s with frk := { s.frk with retired := e :: s.frk.retired } }
    have ht : RegsBut [0x7060] s t := fun _ _ => rfl
    have h1 : t.EngKept ((t.frk.queue.filter fun (q : FrkEpoch) => q.eng == some e).foldl (fun s q => s.skipEpoch q) t) := .foldl (fun s q => .skipEpoch s q) _ t
    have h2 (u : Dev) (l : List Nat) : u.EngKept (l.foldl (fun s i =>
        let x := s.frkSlot i
        match x.search with
        | .running k _ _ =>
          if k = e then (s.setFrkSlot i { x with search := .none_, hunt := none, noLeaveAt := some s.nt }).returnLeave (.largeSearch i) else s
        | _ => s) u) := by
      refine .foldl (fun s i => ?_) l u
      dsimp only
      split
      · split
        · exact ⟨rfl, fun _ _ => rfl⟩
        · exact .refl s
      · exact .refl s
    obtain ⟨hr, hb⟩ := h1.trans (h2 _ _)
    exact ⟨(ht.trans hb).trans (.of_frame (frame_raise _ _) (by decide)), hr⟩
  · rw [if_pos (by simp only [Bool.or_eq_true, decide_eq_true_eq, List.contains_iff_mem]; by_contra hc; exact h (by push Not at hc; omega)), if_neg h]
    exact ⟨.refl _ s, rfl⟩

/-- Engines named by a mask retire, and no other. -/
theorem Dev.foldl_retireEng (m : Nat) (l : List Nat) : ∀ s : Dev,
    let t := l.foldl (fun s e => if bitAt m e then s.retireEng e else s) s
    RegsBut [0x7060] s t ∧ (∀ e ∈ s.frk.retired, e ∈ t.frk.retired) ∧ (∀ e ∈ l, e < 8 → bitAt m e = true → e ∈ t.frk.retired) ∧
      ∀ e ∈ t.frk.retired, e ∈ s.frk.retired ∨ (e ∈ l ∧ bitAt m e = true) := by
  induction l with
  | nil => exact fun s => ⟨.refl _ s, fun _ h => h, fun _ h => absurd h List.not_mem_nil, fun _ h => .inl h⟩
  | cons a l ih =>
    intro s
    rw [List.foldl_cons]
    obtain ⟨hr, hkeep, hin, hout⟩ := ih (if bitAt m a then s.retireEng a else s)
    by_cases hb : bitAt m a = true
    · rw [if_pos hb] at hr hkeep hin hout ⊢
      obtain ⟨hra, hea⟩ := s.retireEng_spec a
      have hsub : ∀ e ∈ s.frk.retired, e ∈ (s.retireEng a).frk.retired := fun e he => by
        rw [hea]
        split
        · exact List.mem_cons_of_mem _ he
        · exact he
      refine ⟨hra.trans hr, fun e he => hkeep e (hsub e he), fun e he h8 hbe => ?_, fun e he => ?_⟩
      · rcases List.mem_cons.1 he with rfl | he
        · refine hkeep e ?_
          rw [hea]
          split
          · exact List.mem_cons_self
          · rename_i hno
            exact Decidable.not_not.1 fun hn => hno ⟨h8, hn⟩
        · exact hin e he h8 hbe
      · rcases hout e he with h | ⟨hl, hbe⟩
        · rw [hea] at h
          split at h
          · rcases List.mem_cons.1 h with rfl | h
            · exact .inr ⟨List.mem_cons_self, hb⟩
            · exact .inl h
          · exact .inl h
        · exact .inr ⟨List.mem_cons_of_mem _ hl, hbe⟩
    · rw [if_neg hb] at hr hkeep hin hout ⊢
      refine ⟨hr, hkeep, fun e he h8 hbe => ?_, fun e he => (hout e he).imp_right fun ⟨hl, hbe⟩ => ⟨List.mem_cons_of_mem _ hl, hbe⟩⟩
      rcases List.mem_cons.1 he with rfl | he
      · exact absurd hbe hb
      · exact hin e he h8 hbe

theorem bitAt_fieldOf (v : Reg) {w e : Nat} (he : e < w) : bitAt (fieldOf v 0 w) e = bitAt v.toNat e := by
  have h : ((fieldOf v 0 w) >>> e) % 2 = (v.toNat >>> e) % 2 := by
    have := congrArg Bool.toNat (Nat.testBit_mod_two_pow v.toNat w e)
    simp only [he, decide_true, Bool.true_and, Nat.toNat_testBit] at this
    rw [Nat.shiftRight_eq_div_pow, Nat.shiftRight_eq_div_pow]
    exact this
  unfold bitAt
  rw [h]

theorem CompletesThen.frkRetire {s : State} {dt : Nat} {v : Reg} (ha : (s.tick dt).Allows 0x7068 v) :
    CompletesThen (.frkRetire dt v) s fun d => (∀ e, e < 8 → bitAt v.toNat e = true → e ∈ d.frk.retired) ∧
      (∀ e, e ∈ d.frk.retired → e ∈ s.frk.retired ∨ bitAt v.toNat e = true) := by
  have hfrk : ((s.tick dt).worded 0x7068 v).frk = s.frk := rfl
  generalize hy : (s.tick dt).worded 0x7068 v = y at hfrk
  have hx : y.applyFrkMem [wordEntry 0x7068 v] = (List.range 8).foldl (fun s e => if bitAt (fieldOf v 0 8) e then s.retireEng e else s) y := by
    unfold Dev.applyFrkMem
    rw [ones_word 0x7068 v 0 8, ones_word_ne (f := (0x301C, 0, 1)) (by decide), ones_word_ne (f := (0x301C, 2, 2)) (by decide)]
    rfl
  obtain ⟨hr, -, hin, hout⟩ := Dev.foldl_retireEng (fieldOf v 0 8) (List.range 8) y
  have he : exec (.frkRetire dt v) s = s.act fun d => (d.tick dt).directWrite 0x7068 v := rfl
  refine .worded he ha (Dev.applyEnts_frkMem (.inl rfl) hy hx hr) ⟨fun e h8 hb => ?_, fun e hm => ?_⟩
  · rw [frame_updPins _ .frk (by decide)]
    exact hin e (List.mem_range.2 h8) h8 (by rw [bitAt_fieldOf v h8, hb])
  · rw [frame_updPins _ .frk (by decide)] at hm
    rcases hout e hm with h | ⟨hl, hb⟩
    · exact .inl (hfrk ▸ h)
    · exact .inr (by rwa [bitAt_fieldOf v (List.mem_range.1 hl)] at hb)

/-- What a word of `MEM_CTRL` commands. -/
theorem Dev.applyFrkMem_mem (s : Dev) (v : Reg) : s.applyFrkMem [wordEntry 0x301C v] =
    let t := if fieldOf v 0 1 = 1 then s.startScrub else s
    let t := if bitAt (fieldOf v 2 2) 0 then t.startRetire 0 3 else t
    if bitAt (fieldOf v 2 2) 1 then t.startRetire 1 3 else t := by
  unfold Dev.applyFrkMem
  rw [ones_word_ne (f := (0x7068, 0, 8)) (by decide), ones_word 0x301C v 0 1, ones_word 0x301C v 2 2]
  dsimp only
  rw [foldl_keeps (l := List.range 8) fun e _ => if_neg (by simp [bitAt])]

theorem CompletesThen.scrubNow {s : State} {dt : Nat} {v : Reg} (h0 : fieldOf v 0 1 = 1) (h2 : fieldOf v 2 2 = 0) (ha : (s.tick dt).Allows 0x301C v)
    (hs : s.mem.scrub = false) (hw : s.mem.scrubWait = false) :
    CompletesThen (.scrubNow dt v) s fun d => d.mem = { s.mem with scrubWait := true } ∧ ∃ r ∈ d.gov.reqs, r.work = .scrub ∧ r.cls = 4 := by
  have hmem : ((s.tick dt).worded 0x301C v).mem = s.mem := rfl
  generalize hy : (s.tick dt).worded 0x301C v = y at hmem
  obtain ⟨dur, hask⟩ := Dev.startScrub_asks (s := y) (by rw [hmem, hs]) (by rw [hmem, hw])
  have hx : y.applyFrkMem [wordEntry 0x301C v] = y.startScrub := by
    rw [Dev.applyFrkMem_mem, h0, h2]
    rfl
  rw [hask] at hx
  have he : exec (.scrubNow dt v) s = s.act fun d => (d.tick dt).directWrite 0x301C v := rfl
  refine .worded he ha (Dev.applyEnts_frkMem (.inr rfl) hy hx fun _ _ => rfl) ⟨?_, ?_⟩
  · rw [frame_updPins _ .mem (by decide), ← hmem]
    rfl
  · rw [frame_updPins _ .gov (by decide)]
    exact ⟨_, List.mem_append_right _ List.mem_cons_self, rfl, rfl⟩

theorem CompletesThen.memRetire {s : State} {dt : Nat} {v : Reg} (h0 : fieldOf v 0 1 = 0) (h2 : fieldOf v 2 2 = 1) (ha : (s.tick dt).Allows 0x301C v)
    (hp : s.mem.rank0.present = true) (hret : s.mem.rank0.retired = false) (hmig : s.mem.rank0.migrating = false)
    (hp' : s.mem.rank1.present = true) (hret' : s.mem.rank1.retired = false) (hmig' : s.mem.rank1.migrating = false)
    (hroom : s.mem.rank1.used + s.mem.rank0.used ≤ s.mem.rank1.blocks) :
    CompletesThen (.memRetire dt v) s fun d => d.mem = { s.mem with rank0 := { s.mem.rank0 with migrating := true, cause := 3 } } ∧
      ∃ r ∈ d.gov.reqs, r.work = .migrate 0 := by
  have hmem : ((s.tick dt).worded 0x301C v).mem = s.mem := rfl
  generalize hy : (s.tick dt).worded 0x301C v = y at hmem
  have hr0 : y.rank 0 = s.mem.rank0 := by
    rw [← hmem]
    rfl
  have hr1 : y.rank (1 - 0) = s.mem.rank1 := by
    rw [← hmem]
    rfl
  have hmove := Dev.startRetire_moves (s := y) (r := 0) (cause := 3) (by rw [hr0, hp]) (by rw [hr0, hret]) (by rw [hr0, hmig]) (by rw [hr1, hp'])
    (by rw [hr1, hret']) (by rw [hr1, hmig']) (by rw [hr0, hr1]; exact hroom)
  have hx : y.applyFrkMem [wordEntry 0x301C v] = y.startRetire 0 3 := by
    rw [Dev.applyFrkMem_mem, h0, h2]
    rfl
  rw [hmove] at hx
  have he : exec (.memRetire dt v) s = s.act fun d => (d.tick dt).directWrite 0x301C v := rfl
  refine .worded he ha (Dev.applyEnts_frkMem (.inr rfl) hy hx fun _ _ => rfl) ⟨?_, ?_⟩
  · rw [frame_updPins _ .mem (by decide), ← hmem]
    rfl
  · rw [frame_updPins _ .gov (by decide)]
    exact ⟨_, List.mem_append_right _ List.mem_cons_self, rfl⟩

/-! #### `AXS`: an axis enabled -/

theorem rwMask_axis : ∀ n, n < 24 → bits (rwMask (0xC100 + 0x40 * n)) 0 1 = 2 ^ 1 - 1 ∧ bits (rwMask (0xC100 + 0x40 * n)) 1 2 = 2 ^ 2 - 1 := by
  decide +kernel

theorem CompletesThen.axisEnable {s : State} {dt n : Nat} {v : Reg} (hn : n < 24) (hv : fieldOf v 0 1 = 1)
    (ha : (s.tick dt).Allows (0xC100 + 0x40 * n) v) (hst : (s.axis n).st = .disabled) (hmode : fieldOf v 1 2 ≠ 3) :
    CompletesThen (.axisEnable dt n v) s fun d =>
      (d.axis n).st = .idle ∧ (∀ m, m ≠ n → d.axis m = s.axis m) ∧ (d.axis n).ref = (s.axis n).ref := by
  obtain ⟨hm0, hm1⟩ := rwMask_axis n hn
  have hen : ((s.tick dt).worded (0xC100 + 0x40 * n) v).fld (axF n 0 0 1) = 1 := ((s.tick dt).fld_worded (0xC100 + 0x40 * n) v (by decide) hm0).trans hv
  have hmd : ((s.tick dt).worded (0xC100 + 0x40 * n) v).fld (axF n 0 1 2) = fieldOf v 1 2 := (s.tick dt).fld_worded (0xC100 + 0x40 * n) v (by decide) hm1
  have haxis (m : Nat) : ((s.tick dt).worded (0xC100 + 0x40 * n) v).axis m = s.axis m := rfl
  have hregs := (s.tick dt).regsBut_worded (0xC100 + 0x40 * n) v
  generalize hy : (s.tick dt).worded (0xC100 + 0x40 * n) v = y at hen hmd haxis hregs
  let x : Dev := y.setAxis n { y.axis n with st := .idle, restAt := y.up, stand := false }
  have hacts : (let t := if y.axMode n = 3 && (s.tick dt).axMode n != 3 then y.setAxis n { y.axis n with origin := y.axPos n } else y
      if touches [wordEntry (0xC100 + 0x40 * n) v] (axF n 0 0 1) then t.axEnable n (t.flag (axF n 0 0 1)) else t) = x := by
    have hmd' : y.axMode n = fieldOf v 1 2 := hmd
    have hfl : y.flag (axF n 0 0 1) = true := Dev.flag_eq_true.2 hen
    have htch : touches [wordEntry (0xC100 + 0x40 * n) v] (axF n 0 0 1) = true := by
      rw [touches_word]
      simp [axF, bits]
    simp only [hmd', hmode, decide_false, Bool.false_and, Bool.false_eq_true, if_false, htch, if_true, hfl]
    exact if_pos (by rw [haxis, hst]; rfl)
  have hown : y.applyAxs (s.tick dt) [wordEntry (0xC100 + 0x40 * n) v] = x := by
    refine (foldl_acts_once (a := n) List.nodup_range (List.mem_range.2 hn) fun b hb hbn t ht => ?_).trans hacts
    have htr : t.reg = y.reg := by
      rcases ht with rfl | rfl
      · rfl
      · exact (congrArg Dev.reg hacts).trans rfl
    have hne : 0xC100 + 0x40 * n ≠ (axF b 0 0 1).1 := by
      simp only [axF]
      omega
    have hkeep : t.axMode b = (s.tick dt).axMode b := (Dev.fld_of_reg (congrFun htr _)).trans
      (hregs.fld_eq (f := axF b 0 1 2) fun hm => hne (List.mem_singleton.1 hm).symm)
    simp [touches_word_ne hne, hkeep]
  have hx : (s.tick dt).applyEnts [wordEntry (0xC100 + 0x40 * n) v] false = x.updPins := by
    have hsame {w : Nat} (hw : w ≠ 0xC) : x.SameWin (s.tick dt) w := fun a ha' => hregs a fun hm => by
      rw [List.mem_singleton.1 hm] at ha'
      omega
    refine Dev.applyEnts_word (by omega) (by simp only [List.mem_cons, List.not_mem_nil, or_false]; omega) ?_ (hsame (by decide)) (hsame (by decide))
    rw [hy, Dev.applyTim_other v _ _ (by omega), hown, Dev.applyGns_other v (by omega) (hsame (by decide)), Dev.applyFrkMem_other v _ (by omega) (by omega)]
  have he : exec (.axisEnable dt n v) s = s.act fun d => (d.tick dt).directWrite (0xC100 + 0x40 * n) v := by
    show execAxisEnable dt n v s = _
    refine State.act_congr ?_
    exact if_neg (by omega)
  have hax (m : Nat) : x.updPins.axis m = x.axis m := Dev.axis_of_frame (frame_updPins x) (by decide) m
  refine .worded he ha hx ⟨?_, fun m hmn => ?_, ?_⟩
  · rw [hax, Dev.axis_setAxis, if_pos rfl]
  · rw [hax, Dev.axis_setAxis, if_neg hmn, haxis]
  · rw [hax, Dev.axis_setAxis, if_pos rfl, haxis]

/-- Settles O21: each row is a word applied, and the window it lies in is the only one that acts. -/
theorem directWritesTakeEffectAtOnce : Obligations.DirectWritesTakeEffectAtOnce :=
  ⟨fun _ _ _ _ => .directWrite_prf, fun _ _ _ _ => .directWrite_ignored, fun _ _ _ => .feSpiGo, fun _ _ _ _ => .calNow, fun _ _ _ _ => .grpRetire,
    fun _ _ _ => .frkRetire, fun _ _ _ => .scrubNow, fun _ _ _ => .memRetire, fun _ _ _ _ => .axisEnable⟩

end Sys2Proof.Machine

/-! ### A step of time (R49, R54) -/
namespace Sys2Proof.Machine

/-! #### The parts of the time state -/

theorem frame_setTime (s : Dev) (t : TimeState) : Frame [.tim] s (s.setTime t) := frame_withTim s _
theorem frame_endModel (s : Dev) : Frame [.tim] s s.endModel := frame_withTim s _

theorem frame_judgeQual (s : Dev) : Frame [.tim, .flt, .todo] s s.judgeQual := by
  have hfall (t : Tim) : Frame [.tim, .flt, .todo] s (({ s with tim := t } : Dev).fallLevel 0x06) :=
    ((frame_withTim s t).append (frame_fallLevel _ _)).mono (by decide)
  unfold Dev.judgeQual
  dsimp only
  split
  · exact hfall _
  · exact hfall _
  · exact hfall _
  all_goals
    split
    · exact .refl _ s
    · split
      · exact (frame_withTim s _).append (frame_raiseLevel _ _)
      · exact hfall _

/-- What a judgement of the estimate leaves of the time state. -/
theorem Dev.tim_judgeQual (s : Dev) : ∃ e q, s.judgeQual.tim = { s.tim with estErr := e, qual := q } := by
  have hfall (t : Dev) (n : Nat) : (t.fallLevel n).tim = t.tim := frame_fallLevel t n .tim (by decide)
  have hraise (t : Dev) (n : Nat) : (t.raiseLevel n).tim = t.tim := frame_raiseLevel t n .tim (by decide)
  unfold Dev.judgeQual
  dsimp only
  split
  · exact ⟨s.tim.estErr, false, hfall _ _⟩
  · exact ⟨s.tim.estErr, true, hfall _ _⟩
  · exact ⟨s.tim.estErr, s.timeQual, hfall _ _⟩
  all_goals
    split
    · exact ⟨s.tim.estErr, s.tim.qual, rfl⟩
    · split
      · exact ⟨_, _, hraise _ _⟩
      · exact ⟨_, _, hfall _ _⟩

/-! #### What ends at a step -/

/-- What the work that ends at a step can change. -/
def endAreas : List Area := [.regs, .txu, .mac, .que, .trl, .todo, .hif, .out, .caps, .tim, .ben, .snp, .gov, .frk]

theorem frame_withSnp (s : Dev) (x : Snp) : Frame [.snp] s { s with snp := x } := fun p hp => by cases p <;> simp at hp <;> rfl
theorem frame_withBen (s : Dev) (x : Ben) : Frame [.ben] s { s with ben := x } := fun p hp => by cases p <;> simp at hp <;> rfl
theorem frame_withFrk (s : Dev) (x : Frk) : Frame [.frk] s { s with frk := x } := fun p hp => by cases p <;> simp at hp <;> rfl

theorem frame_endCap (s : Dev) (n code : Nat) : Frame [.caps, .hif, .todo, .out] s (s.endCap n code) := by
  unfold Dev.endCap
  dsimp only
  split
  · exact .refl _ s
  · exact (((frame_setCap s _ _).append (Frame.foldl _ (fun s r => frame_progress s _ 1 r) _ _)).append (frame_done _ _ _ _)).mono (by decide)

theorem frame_outDisarm (s : Dev) (n : Nat) : Frame [.regs, .tim] s (s.outDisarm n) := (frame_setFld s _ _).append (frame_withTim _ _)

theorem frame_benchStepped (s : Dev) : Frame [.ben, .hif, .out] s s.benchStepped := by
  unfold Dev.benchStepped Dev.benchFail
  split
  · split
    · exact .refl _ s
    · exact (frame_withBen s _).append (frame_done _ _ _ _)
  · exact .refl _ s

theorem frame_setSnapCmd (s : Dev) (h : Nat) (c : Option SnapCmd) : Frame [.snp] s (s.setSnapCmd h c) := frame_withSnp s _

theorem frame_hostResult (s : Dev) (h idx : Nat) (x : SnapRes) (werr : Bool) : Frame [.snp, .hif, .todo, .out] s (s.hostResult h idx x werr) := by
  unfold Dev.hostResult
  split
  · exact .refl _ s
  · split
    · exact ((frame_setSnapCmd s h none).append (frame_refuse _ _ _ _)).mono (by decide)
    · dsimp only
      have hp : Frame [.snp, .hif, .todo, .out] s ((s.emit (.host h 1 (48 * idx) (x.bytes idx))).progress h 1 (leBytes idx 1)) :=
        ((frame_emit s _).append (frame_progress _ _ _ _)).mono (by decide)
      split
      · exact (hp.append ((frame_setSnapCmd _ h none).append (frame_done _ _ _ _))).mono (by decide)
      · exact (hp.append (frame_setSnapCmd _ h _)).mono (by decide)

theorem frame_snapEnds (s : Dev) (code : Nat) (x : Snap) : Frame [.snp, .regs, .hif, .todo, .out] s (s.snapEnds code x) := by
  unfold Dev.snapEnds
  dsimp only
  have h1 : Frame [.snp, .regs, .hif, .todo, .out] s (if code = 3 then s.raise 0x4F else s) := .ite ((frame_raise s _).mono (by decide)) (.refl _ s)
  generalize (if code = 3 then s.raise 0x4F else s) = t at h1
  refine h1.trans ?_
  split
  · have h2 (i epoch : Nat) : Frame [.snp] t (if (t.lease i).epoch = epoch then t.setRover i { t.rover i with result := some code } else t) :=
      .ite (frame_withSnp t _) (.refl _ t)
    refine .trans ((h2 _ _).mono (by decide)) (.ite ((frame_cntSat _ _).mono (by decide)) (.refl _ _))
  · exact (frame_withSnp t _).mono (by decide)
  · exact (frame_hostResult t _ _ _ _).mono (by decide)

theorem frame_snapStepped (s : Dev) : Frame [.gov, .snp, .regs, .hif, .todo, .out] s s.snapStepped := by
  have hends {α : Type} (f : α → Snap) (l : List α) (t : Dev) : Frame [.snp, .regs, .hif, .todo, .out] t (l.foldl (fun s a => s.snapEnds 4 (f a)) t) :=
    .foldl _ (fun s a => frame_snapEnds s 4 (f a)) l t
  have hleave (l : List Batch) : Frame [.gov] s (l.foldl (fun s (b : Batch) => (s.dropLeave (.snpBatch b.id)).returnLeave (.snpBatch b.id)) s) :=
    .foldl _ (fun s b => (frame_dropLeave s _).trans (frame_returnLeave _ _)) l s
  unfold Dev.snapStepped
  exact ((((hleave _).append (frame_withSnp _ _)).append (hends _ _ _)).append (hends _ _ _)).mono (by decide)

/-- What the engine of a slot's search gives up at a step. -/
def Dev.searchEnds (s : Dev) (i : Nat) : Dev :=
  let x := s.frkSlot i
  let s := match x.search with
    | .asked => s.dropLeave (.largeSearch i)
    | .granted => s.returnLeave (.largeSearch i)
    | _ => s
  s.setFrkSlot i { x with search := x.search.discard, hunt := none }

theorem frame_searchEnds (s : Dev) (i : Nat) : Frame [.gov, .frk] s (s.searchEnds i) := by
  unfold Dev.searchEnds
  dsimp only
  split
  · exact (frame_dropLeave s _).append (frame_withFrk _ _)
  · exact (frame_returnLeave s _).append (frame_withFrk _ _)
  · exact (frame_withFrk s _).mono (by decide)

theorem frame_stepEnds (s : Dev) : Frame endAreas s s.stepEnds := by
  have h1 (l : List Txn) (t : Dev) : Frame endAreas t (l.foldl (fun s (x : Txn) => s.abortTxn x stDeadline 0xFF true) t) :=
    .foldl _ (fun s x => (frame_abortTxn s x _ _ _).mono (by decide)) l t
  have h2 (l : List Patch) (t : Dev) : Frame endAreas t (l.foldl (fun s p => s.abortPatch p stDeadline 0xFF true) t) :=
    .foldl _ (fun s p => (frame_abortPatch s p _ _ _).mono (by decide)) l t
  have h3 (l : List Nat) (t : Dev) : Frame endAreas t (l.foldl (fun s n => s.endCap n stTimeStepped) t) :=
    .foldl _ (fun s n => (frame_endCap s n _).mono (by decide)) l t
  have h4 (l : List Nat) (t : Dev) : Frame endAreas t (l.foldl (fun s n => if s.flag (fOutArm n) then (s.outDisarm n).setFld (fOutCtrl n, 6, 1) 1 else s) t) :=
    .foldl _ (fun s n => .ite (((frame_outDisarm s n).append (frame_setFld _ _ _)).mono (by decide)) (.refl _ s)) l t
  have h5 (t : Dev) : Frame endAreas t t.benchStepped.snapStepped := ((frame_benchStepped t).append (frame_snapStepped _)).mono (by decide)
  have h6 (l : List Nat) (t : Dev) : Frame endAreas t (l.foldl (fun s i => s.searchEnds i) t) :=
    .foldl _ (fun s i => (frame_searchEnds s i).mono (by decide)) l t
  have h7 (x : Mac) (t : Dev) : Frame endAreas t { t with mac := x } := (frame_withMac t x).mono (by decide)
  have h8 (l : List Nat) (t : Dev) : Frame endAreas t (l.foldl (fun s q => s.flushQueue q) t) :=
    .foldl _ (fun s q => (frame_setQueue s q _).mono (by decide)) l t
  unfold Dev.stepEnds
  exact (h1 _ s).trans ((h2 _ _).trans ((h3 _ _).trans ((h4 _ _).trans ((h5 _).trans ((h6 _ _).trans ((h7 _ _).trans (h8 _ _)))))))

/-! #### Every NT value moves -/

theorem frame_moveBase (s : Dev) (d : Int) : Frame [.tim, .caps, .hif, .saf, .gov, .par, .ben, .upd] s (s.moveBase d) := fun p hp => by
  cases p <;> simp at hp <;> rfl

theorem frame_moveGnss (s : Dev) (d : Int) : Frame [.gns, .snp, .frk] s (s.moveGnss d) := fun p hp => by cases p <;> simp at hp <;> rfl

theorem frame_moveFleet (s : Dev) (d : Int) : Frame [.trl, .txu, .ctl, .mac] s (s.moveFleet d) := fun p hp => by cases p <;> simp at hp <;> rfl

theorem Dev.run_moved (s : Dev) (d : Int) : (((s.moveBase d).moveGnss d).moveFleet d).saf.run = s.saf.run := by
  rw [frame_moveFleet _ d .saf (by decide), frame_moveGnss _ d .saf (by decide)]
  rfl

theorem frame_withTimMac (s : Dev) (x : Tim) (y : Mac) : Frame [.tim, .mac] s { s with tim := x, mac := y } :=
  fun p hp => by cases p <;> simp at hp <;> rfl

/-- The device after a step that is certain. -/
def Dev.timeStepped (s : Dev) (p : PendingStep) : Dev :=
  let s := s.tickTo p.at_
  let d := p.delta
  let new := ntAdd p.at_ d
  let s := s.stepEnds
  let s := ((s.moveBase d).moveGnss d).moveFleet d
  let s := { s with clk := { s.clk with acc := s.clk.acc + BitVec.ofInt 96 (d * 4294967296), trim := 0, slewLeft := 0, hold := false } }
  let first := slotframeAtOrAfter (ntAdd new (msTicks 2 : Nat))
  let lane : Nat → Lane → Lane := fun _ l => { l with lastSlot := 0, beaconSf := none, startSf := none }
  let s := { s with tim := { s.tim with step := none, ntValid := true, stepAt := some new, stepBeacon := some first }
                    mac := { s.mac with silentUntil := some first, stepBeacons := 3, stepDelta := d
                                        lanes := Tab.mapListed (fun _ => {}) lane s.mac.lanes } }
  let s := ((s.setTime .acquiring).endModel).judgeQual
  let us := d.natAbs * 1000000 / tickHz
  (s.note 0x0C5 (sat 16 us) (leBytes p.at_.toNat 8)).doneOpt p.handle stOK []

theorem exec_timeStep {s : State} {p : PendingStep} (hp : s.tim.step = some p) : exec .timeStep s = s.act fun _ => s.timeStepped p := by
  have key (k : PendingStep → Dev) : ∀ o : Option PendingStep, o = some p → (match o with | none => s.begin | some p => k p) = k p := by
    rintro _ rfl
    rfl
  show execTimeStep s = _
  refine State.act_congr ?_
  exact key s.timeStepped s.tim.step hp

/-- What moves with a step: the clock alone by its delta, the state of time to ACQUIRING, and all that lives by NT. -/
theorem Dev.timeStepped_spec {s d : Dev} {p : PendingStep} (hd : d = s.timeStepped p) : let c := s.clk.run (s.clk.cyclesTo p.at_)
    d.clk = { c with acc := c.acc + BitVec.ofInt 96 (p.delta * 4294967296), trim := 0, slewLeft := 0, hold := false } ∧ d.tim.st = .acquiring ∧
      d.tim.ntValid = true ∧ d.tim.step = none ∧ d.tim.stepAt = some (ntAdd p.at_ p.delta) ∧ d.saf.run = s.saf.run ∧
      Frame [.clk, .tim, .caps, .regs, .hif, .saf, .flt, .dry, .ben, .gov, .par, .gns, .snp, .frk, .trl, .txu, .ctl, .mac, .que, .upd,
        .free, .todo, .out] s d := by
  unfold Dev.timeStepped at hd
  extract_lets s1 dt new s2 s3 c3 s4 first lane t4 m4 s5 s6 us at hd
  have h2 : Frame endAreas s1 s2 := frame_stepEnds s1
  have h12 : Frame (.clk :: endAreas) s s2 := ((frame_tickTo s p.at_).append h2).mono (by decide)
  have hclk2 : s2.clk = s.clk.run (s.clk.cyclesTo p.at_) := (h2 .clk (by decide)).trans (Dev.tickTo_clk s p.at_)
  have hsaf2 : s2.saf = s.saf := h12 .saf (by decide)
  clear_value s2
  have h3 : Frame [.tim, .caps, .hif, .saf, .gov, .par, .ben, .upd, .gns, .snp, .frk, .trl, .txu, .ctl, .mac] s2 s3 :=
    (frame_moveBase s2 dt).append ((frame_moveGnss _ dt).append (frame_moveFleet _ dt))
  have hrun3 : s3.saf.run = s2.saf.run := s2.run_moved dt
  have hclk3 : s3.clk = s2.clk := h3 .clk (by decide)
  clear_value s3
  have h4 : Frame [.clk] s3 s4 := frame_withClk s3 _
  have hclk4 : s4.clk = { s3.clk with acc := s3.clk.acc + BitVec.ofInt 96 (p.delta * 4294967296), trim := 0, slewLeft := 0, hold := false } := rfl
  clear_value s4
  have h5 : Frame [.tim, .mac] s4 s5 := frame_withTimMac s4 _ _
  have htim5 : s5.tim.ntValid = true ∧ s5.tim.step = none ∧ s5.tim.stepAt = some (ntAdd p.at_ p.delta) := ⟨rfl, rfl, rfl⟩
  clear_value s5
  have h6 : Frame [.tim, .flt, .todo] s5 s6 :=
    (((frame_setTime s5 _).trans (frame_endModel _)).append (frame_judgeQual _)).mono (by decide)
  obtain ⟨e, q, htim6⟩ : ∃ e q, s6.tim = { (s5.setTime .acquiring).endModel.tim with estErr := e, qual := q } := Dev.tim_judgeQual _
  clear_value s6
  have h7 : Frame [.regs, .dry, .hif, .out] s6 d := by
    rw [hd]
    exact (frame_note _ _ _ _).append (frame_doneOpt _ _ _ _)
  have htim : d.tim = { (s5.setTime .acquiring).endModel.tim with estErr := e, qual := q } := (h7 .tim (by decide)).trans htim6
  have h47 := h5.append (h6.append h7)
  obtain ⟨hnt, hstep, hat⟩ := htim5
  refine ⟨?_, congrArg Tim.st htim, (congrArg Tim.ntValid htim).trans hnt, (congrArg Tim.step htim).trans hstep,
    (congrArg Tim.stepAt htim).trans hat, ?_, ?_⟩
  · rw [h47 .clk (by decide), hclk4, hclk3, hclk2]
  · rw [h47 .saf (by decide), h4 .saf (by decide), hrun3, hsaf2]
  · exact (h12.append (h3.append (h4.append h47))).mono (by decide)

theorem CompletesThen.timeStep {s : State} {p : PendingStep} (hp : s.tim.step = some p) :
    CompletesThen .timeStep s fun d => let c := s.clk.run (s.clk.cyclesTo p.at_)
      d.clk = { c with acc := c.acc + BitVec.ofInt 96 (p.delta * 4294967296), trim := 0, slewLeft := 0, hold := false } ∧ d.tim.st = .acquiring ∧
      d.tim.ntValid = true ∧ d.tim.step = none ∧ d.tim.stepAt = some (ntAdd p.at_ p.delta) ∧ d.saf.run = s.saf.run ∧
      Frame [.clk, .tim, .caps, .regs, .hif, .saf, .flt, .dry, .ben, .gov, .par, .gns, .snp, .frk, .trl, .txu, .ctl, .mac, .que, .upd,
        .free, .todo, .out] s.toDev d :=
  .of_effect (exec_timeStep hp) (Dev.timeStepped_spec rfl)

/-! #### The command -/

theorem exec_timeAcceptJump (h : Nat) (s : State) : exec (.timeAcceptJump h) s = s.act fun d => d.command h 0x10 fun l s =>
    if s.saf.run = .run || s.saf.run = .updatePause then s.refuse h stBusy none
    else if (s.tim.step.bind (·.handle)).isSome then s.refuse h stBusy none
    else if s.tim.step.isSome || s.tim.st ≠ .jumpPending || l.p 8 4 < (s.tim.offset - l.ps 0 8).natAbs then s.done h stJumpRefused []
    else { s with tim := { s.tim with step := some { delta := nsTicks s.tim.offset, at_ := nextSlotframe s.nt, handle := some h } } } := rfl

theorem Completes.timeAcceptJump {s : State} {h : Nat} {l : Live} (hs : s.Settled) (hr : s.Runs h 0x10 l) (hrun : s.saf.run ≠ .run)
    (hup : s.saf.run ≠ .updatePause) (hstep : s.tim.step = none) (hst : s.tim.st = .jumpPending) (htol : (s.tim.offset - l.ps 0 8).natAbs ≤ l.p 8 4) :
    Completes (.timeAcceptJump h) s fun t => t.Begun l ∧
      t.tim = { s.tim with step := some { delta := nsTicks s.tim.offset, at_ := nextSlotframe s.nt, handle := some h } } ∧
      Frame [.out, .hif, .tim] s.toDev t := by
  let x : Tim := { s.tim with step := some { delta := nsTicks s.tim.offset, at_ := nextSlotframe s.nt, handle := some h } }
  have hf : Frame [.out, .hif, .tim] s.toDev { s.begin.markStarted h with tim := x } := (frame_begin_markStarted _ h).append (frame_withTim _ x)
  have htim : (s.begin.markStarted h).tim = s.tim := rfl
  have hsaf : (s.begin.markStarted h).saf = s.saf := rfl
  refine .of_command (exec_timeAcceptJump h s) hs hr (u := { s.begin.markStarted h with tim := x }) ?_ hf (by decide) (by decide) ⟨hr.begun, rfl, hf⟩
  rw [hsaf, htim, if_neg (by simp [hrun, hup]), if_neg (by simp [hstep]), if_neg (by simp [hstep, hst]; omega)]
  rfl

/-- Settles O15: the command makes a step certain, and the step moves the clock whatever else it moves. -/
theorem timeStepsOnlyAtItsBoundary : Obligations.TimeStepsOnlyAtItsBoundary := by
  refine ⟨fun s h l hs => .timeAcceptJump hs, fun s h l hs hr hbusy => ?_, fun s h l hs hr hrun hup hnone hno => ?_, fun s p => .timeStep⟩
  · refine .answered (exec_timeAcceptJump h s) hs hr ?_
    have htim : (s.begin.markStarted h).tim = s.tim := rfl
    have hsaf : (s.begin.markStarted h).saf = s.saf := rfl
    rw [hsaf, htim]
    by_cases hrun : s.saf.run = .run ∨ s.saf.run = .updatePause
    · exact if_pos (by simpa using hrun)
    · rw [if_neg (by simpa using hrun)]
      push Not at hrun
      exact if_pos ((hbusy.resolve_left hrun.1).resolve_left hrun.2)
  · refine .answered (exec_timeAcceptJump h s) hs hr ?_
    have htim : (s.begin.markStarted h).tim = s.tim := rfl
    have hsaf : (s.begin.markStarted h).saf = s.saf := rfl
    rw [hsaf, htim, if_neg (by simp [hrun, hup]), if_neg (by rw [hnone]; decide)]
    exact if_pos (by rcases hno with h | h <;> simp [h])

end Sys2Proof.Machine

/-! ### The sources of time (R46-R49, R56) -/
namespace Sys2Proof.Machine

theorem frame_withPll (s : Dev) (x : Pll) : Frame [.pll] s { s with pll := x } := fun p hp => by cases p <;> simp at hp <;> rfl

theorem frame_withClkTim (s : Dev) (x : Clock) (y : Tim) : Frame [.clk, .tim] s { s with clk := x, tim := y } :=
  fun p hp => by cases p <;> simp at hp <;> rfl

/-! #### What a judgement of time leaves -/

/-- What the parts of a judgement of time keep: the accumulator, the offset shown, the label, the step and the calibration of the TDC. -/
def Dev.TimeJudged (s t : Dev) : Prop :=
  t.clk.acc = s.clk.acc ∧ t.tim.offset = s.tim.offset ∧ t.tim.labelled = s.tim.labelled ∧ t.tim.tdcCal = s.tim.tdcCal ∧
    Frame [.clk, .out, .tim, .flt, .hif, .todo] s t

namespace Dev.TimeJudged

theorem refl (s : Dev) : s.TimeJudged s := ⟨rfl, rfl, rfl, rfl, .refl _ s⟩

theorem trans {s t u : Dev} (h : s.TimeJudged t) (k : t.TimeJudged u) : s.TimeJudged u := by
  obtain ⟨h1, h2, h3, h4, h5⟩ := h
  obtain ⟨k1, k2, k3, k4, k5⟩ := k
  exact ⟨k1.trans h1, k2.trans h2, k3.trans h3, k4.trans h4, h5.trans k5⟩

theorem of_frame {s t : Dev} (h : Frame [.out, .flt, .hif, .todo] s t) : s.TimeJudged t := by
  have ht : t.tim = s.tim := h .tim (by decide)
  have hc : t.clk = s.clk := h .clk (by decide)
  exact ⟨by rw [hc], by rw [ht], by rw [ht], by rw [ht], h.mono (by decide)⟩

theorem ite {s t u : Dev} {c : Prop} [Decidable c] (ht : s.TimeJudged t) (hu : s.TimeJudged u) : s.TimeJudged (if c then t else u) := by
  split
  · exact ht
  · exact hu

theorem setTime (s : Dev) (t : TimeState) : s.TimeJudged (s.setTime t) := ⟨rfl, rfl, rfl, rfl, (frame_setTime s t).mono (by decide)⟩

theorem endModel (s : Dev) : s.TimeJudged s.endModel := ⟨rfl, rfl, rfl, rfl, (frame_endModel s).mono (by decide)⟩

theorem lockCnt (s : Dev) (n : Nat) : s.TimeJudged { s with tim := { s.tim with lockCnt := n } } :=
  ⟨rfl, rfl, rfl, rfl, (frame_withTim s _).mono (by decide)⟩

theorem setStep (s : Dev) (p : Option PendingStep) : s.TimeJudged { s.stopSlew with tim := { s.stopSlew.tim with step := p } } :=
  ⟨rfl, rfl, rfl, rfl, (frame_withClkTim s _ _).mono (by decide)⟩

theorem slew (s : Dev) (off : Int) : s.TimeJudged (s.slew off) := ⟨rfl, rfl, rfl, rfl, (frame_withClkTim s _ _).mono (by decide)⟩

theorem stopSlew (s : Dev) : s.TimeJudged s.stopSlew := ⟨rfl, rfl, rfl, rfl, (frame_withClk s _).mono (by decide)⟩

theorem holdTrim (s : Dev) : s.TimeJudged s.holdTrim := ⟨rfl, rfl, rfl, rfl, (frame_withClk s _).mono (by decide)⟩

theorem startModel (s : Dev) : s.TimeJudged s.startModel := by
  unfold Dev.startModel
  split
  · exact .refl s
  · exact ⟨rfl, rfl, rfl, rfl, (frame_withTim s _).mono (by decide)⟩

theorem judgeQual (s : Dev) : s.TimeJudged s.judgeQual := by
  obtain ⟨e, q, ht⟩ := s.tim_judgeQual
  have hf := frame_judgeQual s
  exact ⟨by rw [hf .clk (by decide)], by rw [ht], by rw [ht], by rw [ht], hf.mono (by decide)⟩

theorem raise (s : Dev) (n : Nat) : s.TimeJudged (s.raise n) := .of_frame ((frame_raise s n).mono (by decide))

theorem event (s : Dev) (c : Nat) (b : List Byte) : s.TimeJudged (s.event c b) := .of_frame ((frame_event s c b).mono (by decide))

theorem jump (s : Dev) (off : Int) :
    s.TimeJudged ((((s.holdTrim.startModel).setTime .jumpPending).judgeQual.raise 0x05).event 0x0401 (offRes off)) :=
  (holdTrim s).trans ((startModel _).trans ((setTime _ _).trans ((judgeQual _).trans ((raise _ _).trans (event _ _ _)))))

theorem settled (s : Dev) : s.TimeJudged s.endModel.judgeQual := (endModel s).trans (judgeQual _)

theorem judgeOffset (s : Dev) (off : Int) : s.TimeJudged (s.judgeOffset off) := by
  have hslew (t : TimeState) : s.TimeJudged ((s.setTime t).slew off) := (setTime s t).trans (slew _ off)
  unfold Dev.judgeOffset
  dsimp only
  split
  · split_ifs
    · exact (setStep s _).trans ((setTime _ _).trans (settled _))
    · exact (hslew _).trans ((lockCnt _ _).trans (settled _))
    · exact jump s off
  · split_ifs
    · exact (setStep s _).trans ((setTime _ _).trans (settled _))
    · exact (hslew _).trans ((lockCnt _ _).trans (settled _))
    · exact jump s off
  · exact ite (jump s off) (ite ((slew s off).trans ((setTime _ _).trans (settled _))) ((slew s off).trans ((lockCnt _ _).trans (settled _))))
  · split_ifs
    · exact jump s off
    · exact (slew s off).trans (settled _)
    · exact (hslew _).trans (settled _)
  · split_ifs
    · exact judgeQual s
    · exact (hslew _).trans ((lockCnt _ _).trans ((settled _).trans (event _ _ _)))

theorem sourceLost (s : Dev) : s.TimeJudged s.sourceLost := by
  unfold Dev.sourceLost
  have hlost : s.TimeJudged (if s.tim.everLocked then ((s.holdTrim.startModel).setTime .holdover).judgeQual else (s.stopSlew.setTime .freeRun).judgeQual) := by
    split
    · exact (holdTrim s).trans ((startModel _).trans ((setTime _ _).trans (judgeQual _)))
    · exact (stopSlew s).trans ((setTime _ _).trans (judgeQual _))
  split
  · exact .refl s
  · split
    · exact hlost
    · exact hlost
    · exact (setTime s _).trans ((judgeQual _).trans (event _ _ _))
    · exact .refl s

theorem judgeLoss (s : Dev) : s.TimeJudged s.judgeLoss := by
  unfold Dev.judgeLoss
  split
  · exact sourceLost s
  · exact refl s

theorem rebase (s : Dev) (b : Bool) : s.TimeJudged (s.rebase b) := by
  unfold Dev.rebase
  split
  · exact refl s
  · exact ⟨rfl, rfl, rfl, rfl, (frame_withTim s _).mono (by decide)⟩

theorem nt {s t : Dev} (h : s.TimeJudged t) : t.nt = s.nt := by
  show accNt t.clk.acc = accNt s.clk.acc
  rw [h.1]

theorem edgeAt {s t : Dev} (h : s.TimeJudged t) (sub : Nat) : t.edgeAt sub = s.edgeAt sub := by
  unfold Dev.edgeAt
  rw [h.1]

end Dev.TimeJudged

/-! #### A measurement -/

/-- A measurement that counts, before its offset is judged. -/
def Dev.measured (s : Dev) (src : Nat) (off : Int) : Dev := { s with tim := { s.tim with offset := off, lastMeas := s.nt, srcActive := src } }

theorem Dev.measure_counts {s : Dev} {src : Nat} {off : Int} {nominal : Bool} (hin : s.sourceIn src = true) (hstep : s.tim.step = none)
    (href : s.pll.refOk = true) (hnom : src = 0 → nominal = true) : s.measure src off nominal = (s.measured src off).judgeOffset off := by
  have h0 : (src == 0 && !nominal) = false := by
    by_cases h : src = 0
    · simp [hnom h]
    · simp [h]
  unfold Dev.measure
  rw [if_neg (by simp [hin])]
  dsimp only
  rw [if_neg (by simp [hstep, href, h0])]
  rfl

theorem exec_timeMeasurement {s : State} (dt : Nat) {src : Nat} (off : Int) (hsrc : src = 0 ∨ src = 2) (hin : s.sourceIn src = true)
    (hstep : s.tim.step = none) (href : s.pll.refOk = true) (hst : src = 0 → s.station = 0) :
    exec (.timeMeasurement dt src off) s = s.act fun _ => ((s.tick dt).measured src off).judgeOffset off := by
  show execTimeMeasurement dt src off s = _
  refine State.act_congr ?_
  refine (if_pos (by simpa using hsrc)).trans ?_
  exact Dev.measure_counts hin hstep href fun h => decide_eq_true (hst h)

theorem Dev.judgeQual_locked {s : Dev} (h : s.tim.st = .locked) : s.judgeQual = ({ s with tim := { s.tim with qual := true } } : Dev).fallLevel 0x06 := by
  unfold Dev.judgeQual
  rw [h]

theorem Completes.timeMeasurement {s : State} {dt src : Nat} {off : Int} (hs : s.Settled) (hsrc : src = 0 ∨ src = 2) (hin : s.sourceIn src = true)
    (hstep : s.tim.step = none) (href : s.pll.refOk = true) (hst : src = 0 → s.station = 0) (hlock : s.tim.st = .locked)
    (hwin : off.natAbs ≤ s.fld fLockWindow) (hthr : off.natAbs ≤ s.fld fStepThresh) (hrate : s.fld fSlewRate ≠ 0) :
    Completes (.timeMeasurement dt src off) s fun t => t.tim.st = .locked ∧ t.tim.offset = off ∧ t.tim.lastMeas = t.nt ∧
      t.tim.srcActive = src ∧ t.timeQual = true ∧ t.up = s.up + dt ∧
      t.clk.slewLeft = ceilDiv (off.natAbs * cycHz) (10 * s.fld fSlewRate) ∧ Frame [.clk, .out, .tim, .flt] s.toDev t := by
  have he := exec_timeMeasurement dt off hsrc hin hstep href hst
  have hfld (f : Fld) : ((s.tick dt).measured src off).fld f = s.fld f := rfl
  have hup : ((s.tick dt).measured src off).up = s.up + dt := Dev.tick_up _ _
  have hm : ((s.tick dt).measured src off).tim.st = .locked ∧ ((s.tick dt).measured src off).tim.offset = off ∧
      ((s.tick dt).measured src off).tim.lastMeas = ((s.tick dt).measured src off).nt ∧ ((s.tick dt).measured src off).tim.srcActive = src :=
    ⟨hlock, rfl, rfl, rfl⟩
  have hf : Frame [.clk, .out, .tim] s.toDev ((s.tick dt).measured src off) := (frame_tick _ dt).append (frame_withTim _ _)
  generalize (s.tick dt).measured src off = u at he hfld hup hm hf
  obtain ⟨hlk, hoff, hlast, hact⟩ := hm
  have hj : u.judgeOffset off = (u.slew off).endModel.judgeQual := by
    unfold Dev.judgeOffset
    simp only [hlk, hfld]
    rw [if_neg (by omega), if_pos (decide_eq_true hwin)]
  have hslew : (u.slew off).clk.slewLeft = ceilDiv (off.natAbs * cycHz) (10 * s.fld fSlewRate) := by
    show (if 10 * u.fld fSlewRate = 0 then 0 else ceilDiv (off.natAbs * cycHz) (10 * u.fld fSlewRate)) = _
    rw [hfld, if_neg (by omega)]
  have htim : (u.slew off).endModel.tim.st = .locked ∧ (u.slew off).endModel.tim.offset = off ∧ (u.slew off).endModel.tim.lastMeas = u.nt ∧
      (u.slew off).endModel.tim.srcActive = src := ⟨hlk, hoff, hlast, hact⟩
  have hclk : (u.slew off).endModel.clk = (u.slew off).clk := rfl
  have hw : Frame [.clk, .tim] u (u.slew off).endModel := (frame_withClkTim u _ _).trans ((frame_endModel _).mono (by decide))
  have hnt : (u.slew off).clk.acc = u.clk.acc ∧ (u.slew off).clk.up = u.clk.up := ⟨rfl, rfl⟩
  generalize (u.slew off).endModel = w at hj htim hclk hw
  generalize (u.slew off).clk = c at hslew hclk hnt
  obtain ⟨hst', hoff', hlast', hact'⟩ := htim
  rw [Dev.judgeQual_locked hst'] at hj
  rw [hj] at he
  have hfall := frame_fallLevel ({ w with tim := { w.tim with qual := true } } : Dev) 0x06
  have hall : Frame [.clk, .out, .tim, .flt] s.toDev (({ w with tim := { w.tim with qual := true } } : Dev).fallLevel 0x06) :=
    (((hf.append hw).append (frame_withTim w _)).append hfall).mono (by decide)
  have ht := hfall .tim (by decide)
  have hc : (({ w with tim := { w.tim with qual := true } } : Dev).fallLevel 0x06).clk = c := (hfall .clk (by decide)).trans hclk
  refine .of_effect hs hall he (by decide) (by decide) ⟨?_, ?_, ?_, ?_, ?_, ?_, ?_, hall⟩
  · rw [ht]
    exact hst'
  · rw [ht]
    exact hoff'
  · rw [ht]
    refine hlast'.trans ?_
    show accNt u.clk.acc = accNt (Dev.clk _).acc
    rw [hc, hnt.1]
  · rw [ht]
    exact hact'
  · rw [Dev.timeQual, ht, hst']
  · rw [Dev.up, hc, hnt.2]
    exact hup
  · rw [hc, hslew]

/-- The unit has seen a jump: the trim is held, the model runs, and the state is JUMP_PENDING. -/
def Dev.jumped (s : Dev) : Dev := ((s.holdTrim.startModel).setTime .jumpPending).judgeQual.raise 0x05

theorem Dev.tim_startModel (s : Dev) : ∃ m, s.startModel.tim = { s.tim with model := m } := by
  unfold Dev.startModel
  split
  · exact ⟨s.tim.model, rfl⟩
  · exact ⟨_, rfl⟩

theorem frame_startModel (s : Dev) : Frame [.tim] s s.startModel := by
  unfold Dev.startModel
  split
  · exact .refl _ s
  · exact frame_withTim s _

theorem Dev.tim_jumped (s : Dev) : s.jumped.tim.st = .jumpPending ∧ s.jumped.tim.offset = s.tim.offset := by
  obtain ⟨m, hm⟩ := s.holdTrim.tim_startModel
  obtain ⟨e, q, ht⟩ := (s.holdTrim.startModel.setTime .jumpPending).tim_judgeQual
  have hj : s.jumped.tim = (s.holdTrim.startModel.setTime .jumpPending).judgeQual.tim := frame_raise _ _ .tim (by decide)
  refine ⟨by rw [hj, ht]; rfl, ?_⟩
  rw [hj, ht]
  show s.holdTrim.startModel.tim.offset = s.tim.offset
  rw [hm]
  rfl

theorem frame_jumped (s : Dev) : Frame [.clk, .tim, .flt, .todo] s s.jumped :=
  ((((frame_withClk s _).append (frame_startModel _)).append (frame_setTime _ _)).append ((frame_judgeQual _).append (frame_raise _ _))).mono (by decide)

theorem CompletesThen.timeMeasurement_jumps {s : State} {dt src : Nat} {off : Int} (hsrc : src = 0 ∨ src = 2) (hin : s.sourceIn src = true)
    (hstep : s.tim.step = none) (href : s.pll.refOk = true) (hst : src = 0 → s.station = 0) (hlock : s.tim.st = .locked)
    (hthr : s.fld fStepThresh < off.natAbs) (hroom : s.Room (s.evtCq 0x0401)) :
    CompletesThen (.timeMeasurement dt src off) s fun d => d.tim.st = .jumpPending ∧ d.tim.offset = off ∧ d.timeQual = false ∧
      .fault 0x05 false ∈ d.todo ∧ d.Told (s.evtCq 0x0401) 0x0401 (leBytes (unsigned 64 off) 8) ∧
      Frame [.clk, .out, .tim, .flt, .hif, .todo] s.toDev d := by
  have he := exec_timeMeasurement dt off hsrc hin hstep href hst
  have hfld (f : Fld) : ((s.tick dt).measured src off).fld f = s.fld f := rfl
  have hlk : ((s.tick dt).measured src off).tim.st = .locked := hlock
  have hoff : ((s.tick dt).measured src off).tim.offset = off := rfl
  have hf : Frame [.clk, .out, .tim] s.toDev ((s.tick dt).measured src off) := (frame_tick _ dt).append (frame_withTim _ _)
  generalize (s.tick dt).measured src off = u at he hfld hlk hoff hf
  have hj : u.judgeOffset off = u.jumped.event 0x0401 (offRes off) := by
    unfold Dev.judgeOffset
    simp only [hlk, hfld]
    exact if_pos hthr
  rw [hj] at he
  obtain ⟨hst', hoff'⟩ := u.tim_jumped
  have hw := hf.append (frame_jumped u)
  have htodo : Todo.fault 0x05 false ∈ u.jumped.todo := by
    unfold Dev.jumped
    rw [Dev.todo_raise]
    exact List.mem_append_right _ List.mem_cons_self
  generalize u.jumped = w at he hst' hoff' hw htodo
  obtain ⟨htold, hev⟩ := Dev.told_event (offRes off) hroom (by decide) (hw .hif (by decide)) fun o _ _ => Dev.reg_of_frame hw (by decide) o
  have ht := hev .tim (by decide)
  refine .of_effect he ⟨?_, ?_, ?_, ?_, htold, (hw.append hev).mono (by decide)⟩
  · rw [ht, hst']
  · rw [ht, hoff', hoff]
  · rw [Dev.timeQual, ht, hst']
  · rwa [hev .todo (by decide)]

/-! #### The source is lost -/

/-- The unit holds over: the trim is held, the model runs. -/
def Dev.heldOver (s : Dev) : Dev := ((s.holdTrim.startModel).setTime .holdover).judgeQual

theorem Dev.sourceLost_locked {s : Dev} (hst : s.tim.st = .locked ∨ s.tim.st = .acquiring) (hever : s.tim.everLocked = true)
    (hstep : s.tim.step = none) : s.sourceLost = s.heldOver := by
  unfold Dev.sourceLost
  rw [if_neg (by simp [hstep])]
  rcases hst with h | h
  · rw [h]
    exact if_pos hever
  · rw [h]
    exact if_pos hever

theorem frame_heldOver (s : Dev) : Frame [.clk, .tim, .flt, .todo] s s.heldOver :=
  ((((frame_withClk s _).append (frame_startModel _)).append (frame_setTime _ _)).append (frame_judgeQual _)).mono (by decide)

theorem Dev.heldOver_spec (s : Dev) : s.heldOver.tim.st = .holdover ∧ s.heldOver.nt = s.nt ∧ s.heldOver.clk.slewLeft = 0 := by
  obtain ⟨e, q, ht⟩ := (s.holdTrim.startModel.setTime .holdover).tim_judgeQual
  have hclk : s.heldOver.clk = s.holdTrim.clk := (((frame_startModel s.holdTrim).trans (frame_setTime _ .holdover)).append (frame_judgeQual _)) .clk (by decide)
  refine ⟨congrArg Tim.st ht, ?_, by rw [hclk]; rfl⟩
  rw [Dev.nt, hclk]
  rfl

theorem exec_lossTimeExpiry {s : State} (hst : s.tim.st = .locked ∨ s.tim.st = .acquiring) : exec .lossTimeExpiry s =
    s.act fun _ => (s.tickTo (secondAtOrAfter (ntAdd s.tim.lastMeas ((s.fld fLossTime * tickHz : Nat) : Int)))).judgeLoss := by
  show execLossTimeExpiry s = _
  refine State.act_congr ?_
  rcases hst with h | h
  · rw [h]
  · rw [h]

theorem CompletesThen.lossTimeExpiry {s : State} {u : Dev} (hu : u = s.tickTo (secondAtOrAfter (ntAdd s.tim.lastMeas ((s.fld fLossTime * tickHz : Nat) : Int))))
    (hst : s.tim.st = .locked ∨ s.tim.st = .acquiring) (hever : s.tim.everLocked = true) (hstep : s.tim.step = none)
    (hlong : s.fld fLossTime * tickHz ≤ ntSince u.nt s.tim.lastMeas) :
    CompletesThen .lossTimeExpiry s fun d => d.tim.st = .holdover ∧ d.nt = u.nt ∧ d.clk.slewLeft = 0 ∧ Frame [.clk, .out, .tim, .flt, .todo] s.toDev d := by
  have he := exec_lossTimeExpiry hst
  rw [← hu] at he
  have hf : Frame [.clk, .out] s.toDev u := hu ▸ frame_tickTo _ _
  have htim : u.tim = s.tim := hf .tim (by decide)
  have hj : u.judgeLoss = u.heldOver := by
    unfold Dev.judgeLoss
    rw [if_pos (by rw [Dev.fld_of_frame hf (by decide), htim]; exact hlong)]
    exact Dev.sourceLost_locked (by rw [htim]; exact hst) (by rw [htim]; exact hever) (by rw [htim]; exact hstep)
  rw [hj] at he
  obtain ⟨h1, h2, h3⟩ := u.heldOver_spec
  exact .of_effect he ⟨h1, h2, h3, (hf.append (frame_heldOver u)).mono (by decide)⟩

/-- `REF_IN` is gone: the TIME PLL holds and the correlators stop. -/
def Dev.refGone (s : Dev) : Dev := ({ s with pll := { s.pll with refOk := false, time := false, hold := true } } : Dev).corrLost

theorem exec_refInLoss {s : State} (dt : Nat) (href : s.pll.refOk = true) :
    exec (.refInLoss dt) s = s.act fun _ => (((s.tick dt).refGone.sourceLost).rebase true).raiseLevel 0x04 := by
  show execRefInLoss dt s = _
  refine State.act_congr ?_
  refine if_neg ?_
  rw [show (s.tick dt).pll = s.pll from rfl, href]
  decide

theorem Dev.st_rebase (s : Dev) (b : Bool) : (s.rebase b).tim.st = s.tim.st := by
  unfold Dev.rebase
  split <;> rfl

theorem CompletesThen.refInLoss {s : State} {dt : Nat} (href : s.pll.refOk = true) :
    CompletesThen (.refInLoss dt) s fun d => d.pll = { s.pll with refOk := false, time := false, hold := true, corr := false } ∧
      d.gns = { s.gns with engine := 0 } ∧ (d.src 0x04).level = true ∧
      (s.tim.step = none → s.tim.st = .locked → s.tim.everLocked = true → d.tim.st = .holdover) ∧
      Frame [.clk, .out, .pll, .gns, .tim, .flt, .hif, .todo] s.toDev d := by
  have he := exec_refInLoss dt href
  have hpll : (s.tick dt).refGone.pll = { s.pll with refOk := false, time := false, hold := true, corr := false } := rfl
  have hgns : (s.tick dt).refGone.gns = { s.gns with engine := 0 } := rfl
  have htim : (s.tick dt).refGone.tim = s.tim := rfl
  have hf : Frame [.clk, .out, .pll, .gns] s.toDev (s.tick dt).refGone :=
    (frame_tick _ dt).append (fun p hp => by cases p <;> simp at hp <;> rfl : Frame [.pll, .gns] (s.tick dt) (s.tick dt).refGone)
  generalize (s.tick dt).refGone = u at he hpll hgns htim hf
  have hk := (Dev.TimeJudged.sourceLost u).trans (.rebase u.sourceLost true)
  obtain ⟨-, -, -, -, hkf⟩ := hk
  have hr := frame_raiseLevel (u.sourceLost.rebase true) 0x04
  have hall := hkf.append hr
  refine .of_effect he ⟨?_, ?_, Dev.src_raiseLevel _ _, fun hstep hlock hever => ?_, (hf.append hall).mono (by decide)⟩
  · rw [hall .pll (by decide), hpll]
  · rw [hall .gns (by decide), hgns]
  · rw [hr .tim (by decide), Dev.st_rebase, Dev.sourceLost_locked (by rw [htim]; exact .inl hlock) (by rw [htim]; exact hever) (by rw [htim]; exact hstep)]
    exact u.heldOver_spec.1

theorem Completes.refInReturn {s : State} {dt : Nat} (hs : s.Settled) (href : s.pll.refOk = false) :
    Completes (.refInReturn dt) s fun t => t.pll = { s.pll with refOk := true, time := true, hold := false } ∧ t.tim.st = s.tim.st ∧
      t.clk = s.clk.run dt ∧ Frame [.clk, .out, .pll, .tim, .flt] s.toDev t := by
  let u : Dev := { s.tick dt with pll := { s.pll with refOk := true, time := true, hold := false } }
  have he : exec (.refInReturn dt) s = s.act fun _ => (u.rebase false).fallLevel 0x04 := by
    show execRefInReturn dt s = _
    refine State.act_congr ?_
    refine if_neg ?_
    rw [show (s.tick dt).pll = s.pll from rfl, href]
    decide
  have hb : Frame [.tim] u (u.rebase false) := by
    unfold Dev.rebase
    split
    · exact .refl _ u
    · exact frame_withTim u _
  have hfall := frame_fallLevel (u.rebase false) 0x04
  have hbf := hb.append hfall
  have hall : Frame [.clk, .out, .pll, .tim, .flt] s.toDev ((u.rebase false).fallLevel 0x04) :=
    (((frame_tick _ dt).append (frame_withPll _ _)).append hbf).mono (by decide)
  refine .of_effect hs hall he (by decide) (by decide) ⟨hbf .pll (by decide), ?_, hbf .clk (by decide), hall⟩
  rw [hfall .tim (by decide), Dev.st_rebase]
  rfl

/-! #### A labelled edge of `PPS_IN` -/

theorem frame_drainCap (n k : Nat) : ∀ s : Dev, Frame [.caps, .hif, .todo, .out] s (s.drainCap n k) := by
  induction k with
  | zero => exact fun s => .refl _ s
  | succ k ih =>
    intro s
    unfold Dev.drainCap
    dsimp only
    split
    · exact .refl _ s
    · split
      · exact .ite (((frame_setCap s _ _).append (frame_done _ _ _ _)).mono (by decide)) (.refl _ s)
      · exact .ite ((((frame_setCap s _ _).append (frame_progress _ _ _ _)).mono (by decide)).trans (ih _)) (.refl _ s)

theorem frame_captureEdge (s : Dev) (n sub : Nat) (rising : Bool) : Frame [.caps, .hif, .todo, .out] s (s.captureEdge n sub rising) := by
  have hset (c : CapInput) : Frame [.caps, .hif, .todo, .out] s (s.setCap n c) := (frame_setCap s n c).mono (by decide)
  have htake (x : CapInput) (o : Option CapArm) (y : CapArm → CapInput) : Frame [.caps, .hif, .todo, .out] s
      (match o with | none => s.setCap n x | some a => if !a.begun then s.setCap n x else (s.setCap n (y a)).drainCap n 17) := by
    cases o with
    | none => exact hset _
    | some a => exact .ite (hset _) ((hset _).trans (frame_drainCap n 17 _))
  unfold Dev.captureEdge
  dsimp only
  exact .ite (.refl _ s) (.ite (hset _) (htake _ _ _))

/-- The instant of a label (R47): the second nearest to now whose low 32 bits are those of the register. -/
def Dev.labelAt (s : Dev) : NT :=
  let sec := s.nt.toNat / tickHz
  BitVec.ofInt 64 (((sec : Int) + signed 32 ((s.fld fPpsinSec + 2 ^ 32 - sec % 2 ^ 32) % 2 ^ 32)) * (tickHz : Int))

/-- The offset that a labelled edge measures. -/
def Dev.edgeOff (s : Dev) (sub : Nat) : Int :=
  edgeDiff (s.labelAt, 0) (s.edgeAt (if !s.tim.tdcCal || s.tdc.uncal.contains 8 then 0 else sub)) * 1000000000 / ((256 * tickHz : Nat) : Int)

theorem exec_ppsInEdge {s : State} (dt sub : Nat) (hlab : s.tim.labelled = true) (hedge : s.fld fPpsinEdge = 0) :
    let u := (s.tick dt).captureEdge 8 sub true
    exec (.ppsInEdge dt sub true) s = s.act fun _ => ({ u with tim := { u.tim with labelled := false } } : Dev).measure 1 (u.edgeOff sub) true := by
  dsimp only
  have hf := (frame_tick s.toDev dt).append (frame_captureEdge (s.tick dt) 8 sub true)
  show execPpsInEdge dt sub true s = _
  refine State.act_congr ?_
  refine if_neg ?_
  rw [Dev.flag, Dev.fld_of_frame hf (by decide), hf .tim (by decide), hlab, hedge]
  decide

/-- A measurement of a source in use shows its offset, whatever it then does. -/
theorem Dev.measure_judged (s : Dev) (src : Nat) (off : Int) (nominal : Bool) :
    (s.measure src off nominal).clk.acc = s.clk.acc ∧ (s.measure src off nominal).tim.labelled = s.tim.labelled ∧
      (s.sourceIn src = true → (s.measure src off nominal).tim.offset = off) ∧
      Frame [.clk, .out, .tim, .flt, .hif, .todo] s (s.measure src off nominal) := by
  unfold Dev.measure
  dsimp only
  split_ifs with h1 h2
  · refine ⟨rfl, rfl, fun h => ?_, .refl _ s⟩
    simp [h] at h1
  · exact ⟨rfl, rfl, fun _ => rfl, (frame_withTim s _).mono (by decide)⟩
  · obtain ⟨hacc, hoff, hlab, -, hf⟩ := Dev.TimeJudged.judgeOffset (s.measured src off) off
    exact ⟨hacc, hlab, fun _ => hoff, ((frame_withTim s _).append hf).mono (by decide)⟩

theorem Dev.sourceIn_of_frame {a : List Area} {s t : Dev} (h : Frame a s t) (hsaf : .saf ∉ a) (hregs : .regs ∉ a) (hpar : .par ∉ a) (src : Nat) :
    t.sourceIn src = s.sourceIn src := by
  unfold Dev.sourceIn
  rw [h .saf hsaf, Dev.fld_of_frame h hregs, h .par hpar]

theorem CompletesThen.ppsInEdge {s : State} {dt sub : Nat} (hlab : s.tim.labelled = true) (hedge : s.fld fPpsinEdge = 0) :
    CompletesThen (.ppsInEdge dt sub true) s fun d => d.tim.labelled = false ∧
      (s.sourceIn 1 = true → (let sec := d.nt.toNat / tickHz
        d.tim.offset = edgeDiff (BitVec.ofInt 64 (((sec : Int) + signed 32 ((s.fld fPpsinSec + 2 ^ 32 - sec % 2 ^ 32) % 2 ^ 32)) *
          (tickHz : Int)), 0) (d.edgeAt (if s.tim.tdcCal = true ∧ ¬ 8 ∈ s.tdc.uncal then sub else 0)) * 1000000000 / ((256 * tickHz : Nat) : Int))) ∧
      Frame [.clk, .out, .tim, .flt, .hif, .todo, .caps] s.toDev d := by
  have he := exec_ppsInEdge dt sub hlab hedge
  have hf := (frame_tick s.toDev dt).append (frame_captureEdge (s.tick dt) 8 sub true)
  dsimp only at he
  generalize (s.tick dt).captureEdge 8 sub true = u at he hf
  have htim : u.tim = s.tim := hf .tim (by decide)
  have htdc : u.tdc = s.tdc := hf .tdc (by decide)
  obtain ⟨hacc, hl, hoff, hm⟩ := ({ u with tim := { u.tim with labelled := false } } : Dev).measure_judged 1 (u.edgeOff sub) true
  rw [Dev.sourceIn_of_frame (hf.append (frame_withTim u { u.tim with labelled := false })) (by decide) (by decide) (by decide)] at hoff
  have hframe := (hf.append (frame_withTim u { u.tim with labelled := false })).append hm
  generalize ({ u with tim := { u.tim with labelled := false } } : Dev).measure 1 (u.edgeOff sub) true = d at he hacc hl hoff hframe
  have hnt : d.nt = u.nt := by
    show accNt d.clk.acc = accNt u.clk.acc
    rw [hacc]
  have hsub : (if (!s.tim.tdcCal || s.tdc.uncal.contains 8) = true then 0 else sub) = if s.tim.tdcCal = true ∧ ¬ 8 ∈ s.tdc.uncal then sub else 0 := by
    by_cases h1 : s.tim.tdcCal = true <;> by_cases h2 : 8 ∈ s.tdc.uncal <;> simp [h1, h2]
  refine .of_effect he ⟨hl, fun hin => (hoff hin).trans ?_, hframe.mono (by decide)⟩
  unfold Dev.edgeOff Dev.labelAt
  rw [Dev.fld_of_frame hf (by decide), htim, htdc, hsub, hnt]
  unfold Dev.edgeAt
  rw [hacc]

/-! #### A whole second -/

theorem Dev.steer_spec (s : Dev) (ask : Int) : RegsBut [0x4054] s (s.steer ask) ∧ Frame [.regs, .out] s (s.steer ask) := by
  unfold Dev.steer
  dsimp only
  split
  · exact ⟨.refl _ s, .refl _ s⟩
  · exact ⟨(RegsBut.setFld s _ (by decide)).trans (.of_frame (frame_emit _ _) (by decide)), (frame_setFld s _ _).append (frame_emit _ _)⟩

/-- The whole second has come, and is judged. -/
def Dev.secondJudged (s : Dev) (t : NT) : Dev :=
  ({ s.tickTo t with tim := { (s.tickTo t).tim with secAt := t } } : Dev).judgeLoss.judgeQual

theorem Dev.secondJudged_spec (s : Dev) (t : NT) : (s.secondJudged t).tim.tdcCal = s.tim.tdcCal ∧
    Frame [.clk, .out, .tim, .flt, .hif, .todo] s (s.secondJudged t) := by
  obtain ⟨-, -, -, hcal, hf⟩ := (Dev.TimeJudged.judgeLoss { s.tickTo t with tim := { (s.tickTo t).tim with secAt := t } }).trans (.judgeQual _)
  exact ⟨hcal, (((frame_tickTo s t).append (frame_withTim _ _)).append hf).mono (by decide)⟩

theorem CompletesThen.wholeNtSecond {s : State} {ask : Int} (hen : s.flag fPpsEn = true) (hcal : s.tim.tdcCal = true) :
    CompletesThen (.wholeNtSecond ask) s fun d => d.tim.ppsQual = true ∧ RegsBut [0x4054] s.toDev d ∧
      Frame [.clk, .out, .tim, .flt, .hif, .regs, .todo] s.toDev d := by
  obtain ⟨hc, hf⟩ := s.secondJudged_spec (s.nextDue nextSecond s.tim.secAt)
  obtain ⟨hregs, hst⟩ := (s.secondJudged (s.nextDue nextSecond s.tim.secAt)).steer_spec ask
  have hr : RegsBut [0x4054] s.toDev ((s.secondJudged (s.nextDue nextSecond s.tim.secAt)).steer ask) := (RegsBut.of_frame hf (by decide)).trans hregs
  have hq : (((s.secondJudged (s.nextDue nextSecond s.tim.secAt)).steer ask).flag fPpsEn &&
      ((s.secondJudged (s.nextDue nextSecond s.tim.secAt)).steer ask).tim.tdcCal) = true := by
    rw [hr.flag_eq (by decide), hen, hst .tim (by decide), hc, hcal]
    rfl
  have he : exec (.wholeNtSecond ask) s = s.act fun _ => { (s.secondJudged (s.nextDue nextSecond s.tim.secAt)).steer ask with
      tim := { ((s.secondJudged (s.nextDue nextSecond s.tim.secAt)).steer ask).tim with ppsQual := true } } := by
    show execWholeNtSecond ask s = _
    exact State.act_congr (if_pos hq)
  have hall : Frame [.clk, .out, .tim, .flt, .hif, .regs, .todo] s.toDev ((s.secondJudged (s.nextDue nextSecond s.tim.secAt)).steer ask) :=
    (hf.append hst).mono (by decide)
  generalize (s.secondJudged (s.nextDue nextSecond s.tim.secAt)).steer ask = u at he hr hall
  exact .of_effect he ⟨rfl, hr.trans (.of_frame (frame_withTim u _) (by decide)), hall.trans ((frame_withTim u _).mono (by decide))⟩

/-- Settles O14: each row through what it does to the clock, the state of time and what is told of it. -/
theorem timeSourceMovesTheTimeState : Obligations.TimeSourceMovesTheTimeState :=
  ⟨fun _ _ _ _ => .timeMeasurement, fun _ _ _ _ => .timeMeasurement_jumps, fun _ _ => .lossTimeExpiry, fun _ _ => .refInLoss, fun _ _ => .refInReturn,
    fun _ _ _ => .ppsInEdge, fun _ _ => .wholeNtSecond⟩

end Sys2Proof.Machine

/-! ### The Bench is staged, checked and discarded (R390, R391, R393, R399) -/
namespace Sys2Proof.Machine

theorem frame_setBen (s : Dev) (b : Ben) : Frame [.ben] s (s.setBen b) := frame_withBen s b

theorem frame_benchEmpty (s : Dev) : Frame [.ben] s s.benchEmpty := frame_setBen s _

/-- A command that puts the Bench in a new form is answered and changes nothing else. -/
theorem Completes.benched {c : Instr} {s : State} {h op code : Nat} {l : Live} {k : Live → Dev → Dev} {b : Ben}
    (he : exec c s = s.act fun d => d.command h op k) (hs : s.Settled) (hr : s.Runs h op l)
    (hk : k l (s.begin.markStarted h) = ((s.begin.markStarted h).setBen b).done h code []) :
    Completes c s fun t => t.Answered l code [] ∧ t.ben = b ∧ Frame [.out, .hif, .ben] s.toDev t := by
  have hw : ((s.begin.markStarted h).setBen b).Waits h { l with started := true } := hr.waits
  have hf := (frame_begin_markStarted s.toDev h).append (frame_setBen (s.begin.markStarted h) b)
  have hans := hw.done code []
  generalize hu : (s.begin.markStarted h).setBen b = u at hk hans hf
  have hben : u.ben = b := by
    rw [← hu]
    rfl
  have hd := frame_done u h code []
  have hall : Frame [.out, .hif, .ben] s.toDev (u.done h code []) := (hf.append hd).mono (by decide)
  exact .of_command he hs hr hk hall (by decide) (by decide) ⟨hans, (hd .ben (by decide)).trans hben, hall⟩

/-! #### Staging -/

theorem exec_benchStage {s : State} {h : Nat} {l : Live} {b : List Byte} (hst : s.ben.st ≠ .applying) (hlen : l.len = 16 * l.p 0 2) (hbad : stagedBad b = none) :
    ∃ k : Live → Dev → Dev, (exec (.benchStage h (some b)) s = s.act fun d => d.command h 0x80 k) ∧
      k l (s.begin.markStarted h) = if 512 < ((stagedOf b).foldl mergeEntry s.ben.ents).length then (s.begin.markStarted h).done h stBenchFull []
        else ((s.begin.markStarted h).setBen { s.ben with ents := (stagedOf b).foldl mergeEntry s.ben.ents, st := .staged, check := staleChecks s.ben.check }).done h stOK [] := by
  refine ⟨_, rfl, ?_⟩
  have hben : (s.begin.markStarted h).ben = s.ben := rfl
  dsimp only
  rw [if_neg (by simpa using hlen), hben, if_neg hst, hbad]

/-! #### A check ends -/

theorem Dev.reg_foldl_setReg (f : Nat → Reg) (a n : Nat) (s : Dev) :
    (∀ k, k < n → ((List.range n).foldl (fun s k => s.setReg (a + 4 * k) (f k)) s).reg (a + 4 * k) = f k) ∧
      RegsBut ((List.range n).map fun k => a + 4 * k) s ((List.range n).foldl (fun s k => s.setReg (a + 4 * k) (f k)) s) ∧
      Frame [.regs] s ((List.range n).foldl (fun s k => s.setReg (a + 4 * k) (f k)) s) := by
  induction n with
  | zero => exact ⟨fun k hk => absurd hk (Nat.not_lt_zero k), .refl _ s, .refl _ s⟩
  | succ n ih =>
    obtain ⟨hset, hbut, hf⟩ := ih
    rw [List.range_succ, List.foldl_append, List.map_append]
    refine ⟨fun k hk => ?_, ?_, hf.trans (frame_setReg _ _ _)⟩
    · rw [List.foldl_cons, List.foldl_nil, Dev.reg_setReg]
      by_cases hkn : k = n
      · rw [if_pos (by rw [hkn]), hkn]
      · rw [if_neg (by omega)]
        exact hset k (by omega)
    · exact (hbut.mono (List.subset_append_left _ _)).trans (.setReg _ _ (List.mem_append_right _ List.mem_cons_self))

/-- The word of `BEN_FAILk` for a broken rule. -/
def failWord (l : List Broken) (k : Nat) : Nat := match l[k]? with | some b => b.2 + 0x10000 * (b.1 % 1024) | none => 0

theorem Dev.recordFails_spec (s : Dev) (l : List Broken) : (s.recordFails l).fld (0xF01C, 16, 16) = satInc 16 (s.fld (0xF01C, 16, 16)) ∧
    (∀ k, k < 8 → (s.recordFails l).reg (0xF040 + 4 * k) = BitVec.ofNat 32 (failWord l k)) ∧
    RegsBut (0xF01C :: (List.range 8).map fun k => 0xF040 + 4 * k) s (s.recordFails l) ∧ Frame [.regs] s (s.recordFails l) := by
  obtain ⟨hset, hbut, hf⟩ := (s.cntSat (0xF01C, 16, 16)).reg_foldl_setReg (fun k => BitVec.ofNat 32 (failWord l k)) 0xF040 8
  refine ⟨(hbut.fld_eq (by decide)).trans (s.fld_cntSat _ (by decide)), hset, ?_, (frame_cntSat s _).trans hf⟩
  exact ((RegsBut.cntSat s _).mono (by decide)).trans (hbut.mono (by decide))

theorem exec_benchCheckDone {s : State} (dt : Nat) {c : BenchCheck} {rest : List BenchCheck} (hc : s.ben.check = c :: rest) (hstale : c.stale = false)
    (hst : s.ben.st = .staged) : let u := (s.tick dt).setBen { s.ben with check := rest }
    exec (.benchCheckDone dt) s = s.act fun _ => if u.judgeSet c.ents false 0 = [] then
      (u.setBen { u.ben with st := .checked, held := u.heldSlots c.ents }).done c.handle stOK []
    else ((u.setBen { u.ben with st := .staged }).recordFails (u.judgeSet c.ents false 0)).done c.handle stBenchFailed (brokenRes (u.judgeSet c.ents false 0)) := by
  have hben : (s.tick dt).ben = s.ben := rfl
  have hsame : (!c.stale && ((s.tick dt).setBen { s.ben with check := rest }).ben.st != .empty &&
      ((s.tick dt).setBen { s.ben with check := rest }).ben.st != .applying) = true := by
    rw [hstale, show ((s.tick dt).setBen { s.ben with check := rest }).ben.st = .staged from hst]
    rfl
  intro u
  show execBenchCheckDone dt s = _
  refine State.act_congr ?_
  dsimp only
  rw [hben, hc]
  dsimp only
  rw [hsame]
  simp only [List.isEmpty_iff, if_true]
  rfl

/-- The command of a check is answered when the check ends. -/
theorem Dev.Waits.checked {s : State} {dt h : Nat} {l : Live} {b : Ben} (hw : s.Waits h l) : ((s.tick dt).setBen b).Waits h l := hw

theorem Completes.benchCheckDone_passes {s : State} {dt : Nat} {c : BenchCheck} {rest : List BenchCheck} {l : Live} (hs : s.Settled)
    (hc : s.ben.check = c :: rest) (hw : s.Waits c.handle l) (hstale : c.stale = false) (hst : s.ben.st = .staged)
    (hj : ((s.tick dt).setBen { s.ben with check := rest }).judgeSet c.ents false 0 = []) :
    Completes (.benchCheckDone dt) s fun t => t.Answered l stOK [] ∧ t.ben.st = .checked ∧ t.ben.ents = s.ben.ents ∧ t.ben.check = rest ∧
      t.ben.held = s.heldSlots c.ents ∧ Frame [.clk, .out, .hif, .ben] s.toDev t := by
  have he := exec_benchCheckDone dt hc hstale hst
  dsimp only at he
  rw [if_pos hj] at he
  let u : Dev := (s.tick dt).setBen { s.ben with check := rest }
  let w : Dev := u.setBen { u.ben with st := .checked, held := u.heldSlots c.ents }
  have hw' : w.Waits c.handle l := hw
  have hben : w.ben.st = .checked ∧ w.ben.ents = s.ben.ents ∧ w.ben.check = rest ∧ w.ben.held = s.heldSlots c.ents := ⟨rfl, rfl, rfl, rfl⟩
  have hf : Frame [.clk, .out, .ben] s.toDev w := (frame_tick _ dt).append ((frame_setBen _ _).trans (frame_setBen _ _))
  change exec (.benchCheckDone dt) s = s.act fun _ => w.done c.handle stOK [] at he
  generalize w = w at he hw' hben hf
  obtain ⟨h1, h2, h3, h4⟩ := hben
  have hd := frame_done w c.handle stOK []
  have hb := hd .ben (by decide)
  have hall : Frame [.clk, .out, .hif, .ben] s.toDev (w.done c.handle stOK []) := (hf.append hd).mono (by decide)
  refine .of_effect hs hall he (by decide) (by decide) ⟨hw'.done stOK [], ?_, ?_, ?_, ?_, hall⟩
  · rw [hb, h1]
  · rw [hb, h2]
  · rw [hb, h3]
  · rw [hb, h4]

theorem Completes.benchCheckDone_fails {s : State} {dt : Nat} {c : BenchCheck} {rest : List BenchCheck} {l : Live} {bad : List Broken} (hs : s.Settled)
    (hc : s.ben.check = c :: rest) (hw : s.Waits c.handle l) (hstale : c.stale = false) (hst : s.ben.st = .staged)
    (hj : ((s.tick dt).setBen { s.ben with check := rest }).judgeSet c.ents false 0 = bad) (hbad : bad ≠ []) :
    Completes (.benchCheckDone dt) s fun t => t.Answered l 0x0901 (brokenRes bad) ∧ t.ben = { s.ben with st := .staged, check := rest } ∧
      t.fld (0xF01C, 16, 16) = satInc 16 (s.fld (0xF01C, 16, 16)) ∧
      (∀ k b, bad[k]? = some b → k < 8 → (t.reg (0xF040 + 4 * k)).toNat = (b.2 + 0x10000 * (b.1 % 1024)) % 2 ^ 32) ∧
      RegsBut (0xF01C :: (List.range 8).map fun k => 0xF040 + 4 * k) s.toDev t ∧ Frame [.clk, .out, .hif, .ben, .regs] s.toDev t := by
  have he := exec_benchCheckDone dt hc hstale hst
  dsimp only at he
  rw [hj, if_neg hbad] at he
  let w : Dev := ((s.tick dt).setBen { s.ben with check := rest }).setBen { s.ben with st := .staged, check := rest }
  have hw' : w.Waits c.handle l := hw
  have hben : w.ben = { s.ben with st := .staged, check := rest } := rfl
  have hf : Frame [.clk, .out, .ben] s.toDev w := (frame_tick _ dt).append ((frame_setBen _ _).trans (frame_setBen _ _))
  change exec (.benchCheckDone dt) s = s.act fun _ => (w.recordFails bad).done c.handle stBenchFailed (brokenRes bad) at he
  have hfld : w.fld (0xF01C, 16, 16) = s.fld (0xF01C, 16, 16) := Dev.fld_of_frame hf (by decide) _
  generalize w = w at he hw' hben hf hfld
  obtain ⟨hcnt, hset, hbut, hrf⟩ := w.recordFails_spec bad
  generalize w.recordFails bad = x at he hcnt hset hbut hrf
  have hx : x.Waits c.handle l := hw'.of_frame hrf (by decide) (hbut _ fun hm => by
    obtain h0 | ⟨k, hk⟩ := (List.mem_cons.1 hm).imp_right List.mem_map.1
    · exact cqEn_reg_ne hw.2.2.2.2 (.inr (by decide)) h0
    · exact cqEn_reg_ne hw.2.2.2.2 (.inr (by omega)) hk.2.symm)
  have hd := frame_done x c.handle stBenchFailed (brokenRes bad)
  have hall : Frame [.clk, .out, .hif, .ben, .regs] s.toDev (x.done c.handle stBenchFailed (brokenRes bad)) := ((hf.append hrf).append hd).mono (by decide)
  have hreg := Dev.reg_of_frame hd (by decide)
  refine .of_effect hs hall he (by decide) (by decide) ⟨hx.done stBenchFailed (brokenRes bad), ?_, ?_, fun k b hb hk => ?_, ?_, hall⟩
  · rw [hd .ben (by decide), hrf .ben (by decide), hben]
  · rw [Dev.fld_of_frame hd (by decide), hcnt, hfld]
  · rw [hreg, hset k hk, failWord, hb, BitVec.toNat_ofNat]
  · exact ((RegsBut.of_frame hf (by decide)).trans hbut).trans (.of_frame hd (by decide))

/-! #### A discard -/

theorem exec_benchDiscard (h : Nat) (s : State) : ∃ k : Live → Dev → Dev, (exec (.benchDiscard h) s = s.act fun d => d.command h 0x83 k) ∧
    ∀ l, k l (s.begin.markStarted h) = match s.ben.apply_ with
      | none => (s.begin.markStarted h).benchEmpty.done h stOK []
      | some a => if s.cutPassed a then (s.begin.markStarted h).done h stBenchLate []
        else ((s.begin.markStarted h).benchEmpty.done a.handle stBenchDiscarded []).done h stOK [] := ⟨_, rfl, fun _ => rfl⟩

theorem Completes.benchDiscard_cancels {s : State} {h : Nat} {l m : Live} {a : BenchApply} (hs : s.Settled) (hr : s.Runs h 0x83 l)
    (hap : s.ben.apply_ = some a) (hcut : s.cutPassed a = false) (hw : s.Waits a.handle m) (hne : a.handle ≠ h) :
    Completes (.benchDiscard h) s fun t => t.Answered l stOK [] ∧ t.Answered m 0x0906 [] ∧ t.ben.st = .empty ∧ t.ben.ents = [] ∧
      t.ben.apply_ = none ∧ Frame [.out, .hif, .ben] s.toDev t := by
  obtain ⟨k, he, hk⟩ := exec_benchDiscard h s
  have hkl := hk l
  rw [hap] at hkl
  dsimp only at hkl
  rw [if_neg (by rw [hcut]; decide)] at hkl
  have hwm : (s.begin.markStarted h).benchEmpty.Waits a.handle m := hw.markStarted hne
  have hwl : (s.begin.markStarted h).benchEmpty.Waits h { l with started := true } := hr.waits
  have hben : (s.begin.markStarted h).benchEmpty.ben.st = .empty ∧ (s.begin.markStarted h).benchEmpty.ben.ents = [] ∧
      (s.begin.markStarted h).benchEmpty.ben.apply_ = none := ⟨rfl, rfl, rfl⟩
  have hf := (frame_begin_markStarted s.toDev h).append (frame_benchEmpty (s.begin.markStarted h))
  generalize (s.begin.markStarted h).benchEmpty = u at hkl hwm hwl hben hf
  have h1 := frame_done u a.handle stBenchDiscarded []
  have h2 := frame_done (u.done a.handle stBenchDiscarded []) h stOK []
  have hans : ((u.done a.handle stBenchDiscarded []).done h stOK []).Answered { l with started := true } stOK [] := by
    rcases hwl.done_done hne stBenchDiscarded [] with hstill | hdone
    · exact hstill.done stOK []
    · exact hdone.done h stOK []
  have hall : Frame [.out, .hif, .ben] s.toDev ((u.done a.handle stBenchDiscarded []).done h stOK []) := ((hf.append h1).append h2).mono (by decide)
  have hb : ((u.done a.handle stBenchDiscarded []).done h stOK []).ben = u.ben := (h1.trans h2) .ben (by decide)
  obtain ⟨hst, hents, hnone⟩ := hben
  refine .of_command he hs hr hkl hall (by decide) (by decide) ⟨hans, (hwm.done stBenchDiscarded []).done h stOK [], ?_, ?_, ?_, hall⟩
  · rw [hb, hst]
  · rw [hb, hents]
  · rw [hb, hnone]

/-- Settles O19: each command and the end of a check through the form in which it leaves the Bench. -/
theorem theBenchStagesChecksAndDiscards : Obligations.TheBenchStagesChecksAndDiscards := by
  refine ⟨fun s h l b hs hr hst hlen hbad hfit => ?_, fun s h l b hs hr hst hlen hbad hfull => ?_, fun s h l hs hr hst => ?_,
    fun _ _ _ _ _ => .benchCheckDone_passes, fun _ _ _ _ _ _ => .benchCheckDone_fails, fun s h l hs hr hnone => ?_,
    fun _ _ _ _ _ => .benchDiscard_cancels, fun s h l a hs hr hap hcut => ?_⟩
  · obtain ⟨k, he, hk⟩ := exec_benchStage (h := h) hst hlen hbad
    exact .benched he hs hr (hk.trans (if_neg (by omega)))
  · obtain ⟨k, he, hk⟩ := exec_benchStage (h := h) hst hlen hbad
    exact .answered he hs hr (hk.trans (if_pos hfull))
  · let b : Ben := { s.ben with check := s.ben.check ++ [{ handle := h, ents := s.ben.ents }] }
    have hf : Frame [.out, .hif, .ben] s.toDev ((s.begin.markStarted h).setBen b) := (frame_begin_markStarted s.toDev h).append (frame_setBen _ b)
    refine .of_command rfl hs hr (u := (s.begin.markStarted h).setBen b) ?_ hf (by decide) (by decide) ⟨hr.begun, rfl, hf⟩
    have hben : (s.begin.markStarted h).ben = s.ben := rfl
    rw [hben]
    rcases hst with h | h <;> rw [h]
  · obtain ⟨k, he, hk⟩ := exec_benchDiscard h s
    have hkl := hk l
    rw [hnone] at hkl
    refine (Completes.benched he hs hr hkl).imp fun t ⟨hans, hben, hf⟩ => ⟨hans, hben.trans ?_, hf⟩
    rw [← hnone]
    rfl
  · obtain ⟨k, he, hk⟩ := exec_benchDiscard h s
    have hkl := hk l
    rw [hap] at hkl
    exact .answered he hs hr (hkl.trans (if_pos hcut))

end Sys2Proof.Machine

/-! ### Sends, routes and lanes of the host (R332, R333, R340, R344, R356) -/
namespace Sys2Proof.Machine

theorem firstBad_nil {l : List (Bool × Nat)} (h : ∀ p ∈ l, p.1 = true) : firstBad l = none := by
  have hf : (l.filter fun p => !p.1) = [] := List.filter_eq_nil_iff.2 fun p hp => by simp [h p hp]
  unfold firstBad
  rw [hf]
  rfl

theorem Dev.lane_setLane (s : Dev) (n m : Nat) (l : Lane) : (s.setLane n l).lane m = if m = n then l else s.lane m := Tab.get_set _ _ _ _ _

theorem Dev.lane_of_frame {a : List Area} {s t : Dev} (h : Frame a s t) (ha : .mac ∉ a) (n : Nat) : t.lane n = s.lane n := by
  rw [Dev.lane, h .mac ha, Dev.lane]

/-! #### Frames of the host -/

/-- The frame of a send, with the deadline of its command. -/
def Dev.hostSend (s : Dev) (h : Nat) (until_ : NT) (f : TxFrame) : Dev :=
  ({ s with mac := { s.mac with sends := s.mac.sends ++ [(h, until_)] } } : Dev).queueFrame f

theorem frame_hostSend (s : Dev) (h : Nat) (u : NT) (f : TxFrame) : Frame [.mac] s (s.hostSend h u f) := (frame_withMac s _).trans (frame_queueFrame _ _)

theorem Dev.mac_hostSend (s : Dev) (h : Nat) (u : NT) (f : TxFrame) : (s.hostSend h u f).mac.sends = s.mac.sends ++ [(h, u)] ∧
    (s.hostSend h u f).mac.txq = s.mac.txq ++ [{ f with order := s.mac.order }] := ⟨rfl, rfl⟩

/-- A send that finds its route begins and waits for its frame. -/
theorem Completes.sends {c : Instr} {s : State} {h op : Nat} {l : Live} {k : Live → Dev → Dev} {u : NT} {f : TxFrame} (he : exec c s = s.act fun d => d.command h op k)
    (hs : s.Settled) (hr : s.Runs h op l) (hk : k l (s.begin.markStarted h) = (s.begin.markStarted h).hostSend h u f) :
    Completes c s fun t => t.Begun l ∧ t.mac.sends = s.mac.sends ++ [(h, u)] ∧ t.mac.txq = s.mac.txq ++ [{ f with order := s.mac.order }] ∧
      Frame [.out, .hif, .mac] s.toDev t := by
  have hf : Frame [.out, .hif, .mac] s.toDev ((s.begin.markStarted h).hostSend h u f) := (frame_begin_markStarted _ h).append (frame_hostSend _ h u f)
  obtain ⟨h1, h2⟩ := (s.begin.markStarted h).mac_hostSend h u f
  exact .of_command he hs hr hk hf (by decide) (by decide) ⟨hr.begun, h1, h2, hf⟩

theorem sendEnc_data {slots : Nat} {l : Live} (h1 : 10 ≤ l.p 0 4) (h2 : l.p 0 4 ≤ 600000) (h3 : l.p 6 1 = 12) : firstBad (sendEnc slots l.p) = none :=
  firstBad_nil fun p hp => by
    simp only [sendEnc, List.mem_cons, List.not_mem_nil, or_false] at hp
    rcases hp with rfl | rfl | rfl <;> simp [h1, h2, h3]

theorem sendEnc_stop {s : Dev} {l : Live} {i : Nat} (h1 : 10 ≤ l.p 0 4) (h2 : l.p 0 4 ≤ 600000) (h3 : l.p 6 1 = 1) (hi : s.robotOf (l.p 4 2) = some i) :
    firstBad (sendEnc s.nSlots l.p) = none := by
  have hrange : 0x1000 ≤ l.p 4 2 ∧ l.p 4 2 < 0x1000 + s.nSlots := by
    unfold Dev.robotOf at hi
    split at hi
    · assumption
    · exact absurd hi (by simp)
  refine firstBad_nil fun p hp => ?_
  simp only [sendEnc, List.mem_cons, List.not_mem_nil, or_false] at hp
  rcases hp with rfl | rfl | rfl
  · simp [h1, h2]
  · simp [hrange.1, hrange.2]
  · simp [h3]

/-- The data frame of a send (R344). -/
def Dev.dataSend (s : Dev) (h : Nat) (l : Live) (b : List Byte) (r : RouteEnt) : TxFrame :=
  { type_ := 12, dst := l.p 4 2, epoch := match s.robotOf (l.p 4 2) with | some i => (s.lease i).epoch | none => 0
    body := slice b 0 l.len, lane := r.lane, key := match s.robotOf (l.p 4 2) with | some i => (s.lease i).keyIdx | none => 0
    handle := some h, prio := 5, until_ := some (ntAdd s.nt (msTicks (l.p 0 4) : Nat)), rx := (r.hops.headD (l.p 4 2, 0, 0)).1 }

theorem Dev.queueTo_found {s : Dev} {dest : Nat} {f : TxFrame} {r : RouteEnt} (h : s.routeTo dest = some r) :
    s.queueTo dest f = s.queueFrame { f with dst := dest, lane := r.lane, rx := (r.hops.headD (dest, 0, 0)).1 } := by
  unfold Dev.queueTo
  rw [h]

theorem exec_macFrameSend_data {s : State} {h : Nat} {l : Live} {b : List Byte} (h1 : 10 ≤ l.p 0 4) (h2 : l.p 0 4 ≤ 600000) (h3 : l.p 6 1 = 12)
    (hlen : l.len ≤ 352) (hb : s.beaconing = true) (hd : l.p 4 2 ≠ 0xFFFF) :
    ∃ k : Live → Dev → Dev, (exec (.macFrameSend h (some b)) s = s.act fun d => d.command h 0x70 k) ∧
      k l (s.begin.markStarted h) = match s.routeTo (l.p 4 2) with
        | some r => (s.begin.markStarted h).hostSend h (ntAdd s.nt (msTicks (l.p 0 4) : Nat)) (s.dataSend h l b r)
        | none => (s.begin.markStarted h).done h 0x0803 [] := by
  refine ⟨_, rfl, ?_⟩
  dsimp only
  have henc : firstBad (sendEnc (s.begin.markStarted h).nSlots l.p) = none := sendEnc_data h1 h2 h3
  have hb' : (s.begin.markStarted h).beaconing = true := hb
  have hroute : (s.begin.markStarted h).routeTo (l.p 4 2) = s.routeTo (l.p 4 2) := rfl
  rw [henc]
  dsimp only
  rw [if_neg (by omega), if_neg (by omega), hb', if_neg (by decide), if_neg hd, hroute]
  cases hrt : s.routeTo (l.p 4 2) with
  | none => rfl
  | some r => exact (Dev.queueTo_found (by exact hrt)).trans rfl

/-- The stop that a send carries to a robot (R344). -/
def Dev.stopSend (s : Dev) (h i : Nat) (l : Live) (r : RouteEnt) : TxFrame :=
  { type_ := 1, dst := l.p 4 2, epoch := (s.lease i).epoch, body := stopBody false 0 9 s.nt, lane := r.lane, key := (s.lease i).keyIdx, pslot := true
    handle := some h, from_ := s.nt, until_ := some (ntAdd s.nt (msTicks (l.p 0 4) : Nat)) }

theorem exec_macFrameSend_stop {s : State} {h i : Nat} {l : Live} (h1 : 10 ≤ l.p 0 4) (h2 : l.p 0 4 ≤ 600000) (h3 : l.p 6 1 = 1)
    (hi : s.robotOf (l.p 4 2) = some i) :
    ∃ k : Live → Dev → Dev, (exec (.macFrameSend h none) s = s.act fun d => d.command h 0x70 k) ∧
      k l (s.begin.markStarted h) = match s.routeTo (l.p 4 2) with
        | some r => (s.begin.markStarted h).hostSend h (ntAdd s.nt (msTicks (l.p 0 4) : Nat)) (s.stopSend h i l r)
        | none => (s.begin.markStarted h).done h 0x0803 [] := by
  refine ⟨_, rfl, ?_⟩
  dsimp only
  have henc : firstBad (sendEnc (s.begin.markStarted h).nSlots l.p) = none := sendEnc_stop (s := s.toDev) h1 h2 h3 hi
  have hroute : (s.begin.markStarted h).routeTo (l.p 4 2) = s.routeTo (l.p 4 2) := rfl
  have hrob : (s.begin.markStarted h).robotOf (l.p 4 2) = some i := hi
  rw [henc]
  dsimp only
  rw [if_pos h3, hroute, hrob]
  cases s.routeTo (l.p 4 2) with
  | none => rfl
  | some r => rfl

theorem Completes.macSendDeadline {s : State} {h : Nat} {u : NT} {l : Live} (hs : s.Settled) (hsend : s.mac.sends = [(h, u)]) (hw : s.Waits h l) :
    Completes (.macSendDeadline h) s fun t => t.Answered l 0x0804 (leBytes (((s.mac.txq.filter fun f => f.handle == some h).map (·.tries)).foldl max 0) 1) ∧
      t.mac = { s.mac with sends := [], txq := s.mac.txq.filter fun f => f.handle != some h } ∧
      t.clk = s.clk.run (s.clk.cyclesTo u) ∧ Frame [.clk, .out, .hif, .mac] s.toDev t := by
  let m : Mac := { s.mac with sends := [], txq := s.mac.txq.filter fun f => f.handle != some h }
  let res : List Byte := leBytes (((s.mac.txq.filter fun f => f.handle == some h).map (·.tries)).foldl max 0) 1
  have he : exec (.macSendDeadline h) s = s.act fun _ => ({ s.tickTo u with mac := m } : Dev).done h 0x0804 res := by
    show execMacSendDeadline h s = _
    refine State.act_congr ?_
    dsimp only
    rw [hsend]
    have hfind : [(h, u)].find? (fun x => x.1 == h) = some (h, u) := by simp
    rw [hfind]
    dsimp only
    unfold Dev.sendDone
    rw [show (s.tickTo u).mac = s.mac from rfl, hsend]
    have hgone : [(h, u)].filter (fun x => x.1 != h) = [] := by simp
    rw [hgone]
  have hwu : ({ s.tickTo u with mac := m } : Dev).Waits h l := hw
  have hf : Frame [.clk, .out, .mac] s.toDev { s.tickTo u with mac := m } := (frame_tickTo _ u).append (frame_withMac _ m)
  have hd := frame_done ({ s.tickTo u with mac := m } : Dev) h 0x0804 res
  have hall : Frame [.clk, .out, .hif, .mac] s.toDev (({ s.tickTo u with mac := m } : Dev).done h 0x0804 res) := (hf.append hd).mono (by decide)
  exact .of_effect hs hall he (by decide) (by decide)
    ⟨hwu.done _ _, hd .mac (by decide), (hd .clk (by decide)).trans (Dev.tickTo_clk s.toDev u), hall⟩

/-! #### Route changes -/

/-- What queueing a frame leaves of the radio: its queue and the order of its frames alone change. -/
def Dev.MacQueued (s t : Dev) : Prop :=
  t.mac.routes = s.mac.routes ∧ t.mac.changes = s.mac.changes ∧ t.mac.lanes = s.mac.lanes ∧ Frame [.mac] s t

theorem Dev.MacQueued.refl (s : Dev) : s.MacQueued s := ⟨rfl, rfl, rfl, .refl _ s⟩

theorem Dev.MacQueued.trans {s t u : Dev} (h : s.MacQueued t) (k : t.MacQueued u) : s.MacQueued u := by
  obtain ⟨h1, h2, h3, h4⟩ := h
  obtain ⟨k1, k2, k3, k4⟩ := k
  exact ⟨k1.trans h1, k2.trans h2, k3.trans h3, h4.trans k4⟩

theorem Dev.MacQueued.queueTo (s : Dev) (dest : Nat) (f : TxFrame) : s.MacQueued (s.queueTo dest f) := by
  unfold Dev.queueTo
  split
  · exact ⟨rfl, rfl, rfl, frame_queueFrame s _⟩
  · exact .refl s

theorem Dev.MacQueued.sendConfigs (c : RouteChange) (l : List Nat) : ∀ s : Dev, s.MacQueued (l.foldl (fun s d => s.sendConfig c d) s) := by
  induction l with
  | nil => exact fun s => .refl s
  | cons d l ih => exact fun s => (Dev.MacQueued.queueTo s d _).trans (ih _)

/-- The change that a command begins. -/
def Dev.changeOf (s : Dev) (h : Nat) (sets : List RouteEnt) (dels : List Nat) (retire : Option (Nat × Bool)) : RouteChange :=
  { handle := h, sets, dels, applyAt := slotframeAtOrAfter (ntAdd s.nt tickHz), cfgVer := (s.txu.lastCfg + 1) % 65536
    waiting := ((sets.map (·.dest)) ++ dels).eraseDups.filter fun d => s.mustConfirm d, retire }

theorem Dev.beginChange_spec (s : Dev) (h : Nat) (sets : List RouteEnt) (dels : List Nat) (retire : Option (Nat × Bool)) :
    (s.beginChange h sets dels retire).mac.routes = s.mac.routes ∧
      (s.beginChange h sets dels retire).mac.changes = s.mac.changes ++ [s.changeOf h sets dels retire] ∧
      (s.beginChange h sets dels retire).mac.lanes = s.mac.lanes ∧ Frame [.mac, .txu] s (s.beginChange h sets dels retire) := by
  let t : Dev := { s with txu := { s.txu with lastCfg := (s.txu.lastCfg + 1) % 65536 }
                          mac := { s.mac with changes := s.mac.changes ++ [s.changeOf h sets dels retire] } }
  obtain ⟨h1, h2, h3, h4⟩ := Dev.MacQueued.sendConfigs (s.changeOf h sets dels retire) (s.changeOf h sets dels retire).waiting t
  have hf : Frame [.mac, .txu] s t := fun p hp => by cases p <;> simp at hp <;> rfl
  exact ⟨h1, h2, h3, hf.trans (h4.mono (by decide))⟩

theorem Dev.begun_of_frame {s t : Dev} {l : Live} {a : List Area} (hb : s.Begun l) (h : Frame a s t) (ha : .hif ∉ a) : t.Begun l := by
  unfold Dev.Begun at hb ⊢
  rw [Dev.live?, h .hif ha]
  exact hb

theorem Completes.macRouteSet_sets {s : State} {h : Nat} {l : Live} {b : List Byte} {rs : List RouteEnt} (hs : s.Settled) (hr : s.Runs h 0x71 l)
    (hop : l.p 0 1 = 1) (hn : l.p 2 2 ≤ 512) (hlen : l.len = 32 * l.p 2 2) (hparse : s.parseRoutes b (l.p 2 2) = some rs) :
    Completes (.macRouteSet h (some b) false) s fun t => if s.routesOk s.mac.routes rs [] then t.Begun l ∧ t.mac.routes = s.mac.routes ∧
        t.mac.changes.dropLast = s.mac.changes ∧ t.mac.changes.getLast?.map (fun c => (c.handle, c.sets, c.dels, c.applyAt)) =
          some (h, rs, [], slotframeAtOrAfter (ntAdd s.nt tickHz)) ∧ Frame [.out, .hif, .mac, .txu] s.toDev t
      else t.Answered l 0x0802 [] ∧ Frame [.out, .hif] s.toDev t := by
  have henc : firstBad (routeEnc l.p) = none := firstBad_nil fun p hp => by
    simp only [routeEnc, List.mem_cons, List.not_mem_nil, or_false] at hp
    rcases hp with rfl | rfl
    · simp [hop]
    · simpa using hn
  obtain ⟨k, he, hk⟩ : ∃ k : Live → Dev → Dev, (exec (.macRouteSet h (some b) false) s = s.act fun d => d.command h 0x71 k) ∧
      k l (s.begin.markStarted h) = if s.routesOk s.mac.routes rs [] then (s.begin.markStarted h).beginChange h rs [] none
        else (s.begin.markStarted h).done h 0x0802 [] := by
    refine ⟨_, rfl, ?_⟩
    dsimp only
    have hp : (s.begin.markStarted h).parseRoutes b (l.p 2 2) = some rs := hparse
    have hok : (s.begin.markStarted h).routesOk (s.begin.markStarted h).mac.routes rs [] = s.routesOk s.mac.routes rs [] := rfl
    rw [henc]
    dsimp only
    rw [if_neg (by omega), if_neg (by omega), if_neg (by omega), hp]
    dsimp only
    rw [hok]
  by_cases hok : s.routesOk s.mac.routes rs [] = true
  · rw [if_pos hok] at hk
    obtain ⟨h1, h2, -, h4⟩ := (s.begin.markStarted h).beginChange_spec h rs [] none
    have hf : Frame [.out, .hif, .mac, .txu] s.toDev ((s.begin.markStarted h).beginChange h rs [] none) := (frame_begin_markStarted _ h).append h4
    have hb := Dev.begun_of_frame hr.begun h4 (by decide)
    refine .of_command he hs hr hk hf (by decide) (by decide) ?_
    rw [if_pos hok]
    refine ⟨hb, h1, ?_, ?_, hf⟩
    · rw [h2, List.dropLast_concat]
      rfl
    · rw [h2, List.getLast?_concat]
      rfl
  · rw [if_neg hok] at hk
    simp only [if_neg hok]
    exact .answered he hs hr hk

theorem Completes.macRouteSet_reads {s : State} {h : Nat} {l : Live} {b : List Byte} {rs : List RouteEnt} (hs : s.Settled) (hr : s.Runs h 0x71 l)
    (hop : l.p 0 1 = 3) (hn : l.p 2 2 ≤ 512) (hlen : l.len = 32 * l.p 2 2)
    (hrs : ((List.range (l.p 2 2)).map fun k => leAt b (32 * k) 2).mapM (fun d => s.routeTo d) = some rs) :
    Completes (.macRouteSet h (some b) false) s fun t => t.Answered l stOK [] ∧ .host h 0 0 (rs.flatMap RouteEnt.bytes) ∈ t.out ∧
      Frame [.out, .hif] s.toDev t := by
  have henc : firstBad (routeEnc l.p) = none := firstBad_nil fun p hp => by
    simp only [routeEnc, List.mem_cons, List.not_mem_nil, or_false] at hp
    rcases hp with rfl | rfl
    · simp [hop]
    · simpa using hn
  let w : Dev := (s.begin.markStarted h).emit (.host h 0 0 (rs.flatMap RouteEnt.bytes))
  obtain ⟨k, he, hk⟩ : ∃ k : Live → Dev → Dev, (exec (.macRouteSet h (some b) false) s = s.act fun d => d.command h 0x71 k) ∧
      k l (s.begin.markStarted h) = w.done h stOK [] := by
    refine ⟨_, rfl, ?_⟩
    dsimp only
    have hr' : ((List.range (l.p 2 2)).map fun k => leAt b (32 * k) 2).mapM (fun d => (s.begin.markStarted h).routeTo d) = some rs := hrs
    rw [henc]
    dsimp only
    rw [if_neg (by omega), if_pos hop, hr']
    rfl
  have hw : w.Waits h { l with started := true } := hr.waits
  have hout : .host h 0 0 (rs.flatMap RouteEnt.bytes) ∈ w.out := List.mem_append_right _ List.mem_cons_self
  have hf : Frame [.out, .hif] s.toDev w := (frame_begin_markStarted _ h).trans ((frame_emit _ _).mono (by decide))
  have hall : Frame [.out, .hif] s.toDev (w.done h stOK []) := hf.trans ((frame_done w h stOK []).mono (by decide))
  exact .of_command he hs hr hk hall (by decide) (by decide) ⟨hw.done stOK [], Dev.mem_out_done h stOK [] hout, hall⟩

/-! #### A change applies -/

/-- The leases of the nodes of a change take its configuration. -/
def Dev.configured (c : RouteChange) (s : Dev) (r : RouteEnt) : Dev :=
  match s.robotOf r.dest with
  | some i => s.setLease i { s.lease i with cfgVer := c.cfgVer }
  | none => s

theorem frame_configured (c : RouteChange) (s : Dev) (r : RouteEnt) : Frame [.txu] s (s.configured c r) := by
  unfold Dev.configured
  split
  · exact frame_withTxu s _
  · exact .refl _ s

theorem Dev.robotOf_configured (c : RouteChange) (s : Dev) (r : RouteEnt) (a : Nat) : (s.configured c r).robotOf a = s.robotOf a := by
  unfold Dev.configured
  split <;> rfl

theorem Dev.lease_configured (c : RouteChange) (s : Dev) (r : RouteEnt) (i : Nat) :
    (s.configured c r).lease i = if s.robotOf r.dest = some i then { s.lease i with cfgVer := c.cfgVer } else s.lease i := by
  unfold Dev.configured
  split
  · next j hj =>
    rw [Dev.lease_setLease, hj]
    by_cases hij : i = j
    · rw [if_pos hij, if_pos (by rw [hij]), hij]
    · rw [if_neg hij, if_neg fun e => hij (Option.some.inj e).symm]
  · next hj => rw [hj, if_neg (by simp)]

theorem Dev.foldl_configured (c : RouteChange) (l : List RouteEnt) : ∀ s : Dev, Frame [.txu] s (l.foldl (Dev.configured c) s) ∧
    (∀ i, (∀ r ∈ l, s.robotOf r.dest ≠ some i) → (l.foldl (Dev.configured c) s).lease i = s.lease i) ∧
    ∀ i, (∃ r ∈ l, s.robotOf r.dest = some i) ∨ (s.lease i).cfgVer = c.cfgVer → ((l.foldl (Dev.configured c) s).lease i).cfgVer = c.cfgVer := by
  induction l with
  | nil => exact fun s => ⟨.refl _ s, fun _ _ => rfl, fun i h => h.resolve_left (by simp)⟩
  | cons r l ih =>
    intro s
    rw [List.foldl_cons]
    obtain ⟨hf, hkeep, hset⟩ := ih (s.configured c r)
    refine ⟨(frame_configured c s r).trans hf, fun i hi => ?_, fun i hi => hset i ?_⟩
    · rw [hkeep i fun x hx => by rw [Dev.robotOf_configured]; exact hi x (List.mem_cons_of_mem _ hx), Dev.lease_configured,
        if_neg (hi r List.mem_cons_self)]
    · rw [Dev.lease_configured]
      by_cases hri : s.robotOf r.dest = some i
      · rw [if_pos hri]
        exact .inr rfl
      · rw [if_neg hri]
        refine hi.imp_left fun ⟨x, hx, hxi⟩ => ⟨x, (List.mem_cons.1 hx).resolve_left fun e => hri (e ▸ hxi), ?_⟩
        rw [Dev.robotOf_configured]
        exact hxi

theorem Completes.routeApply {s : State} {c : RouteChange} {l : Live} (hs : s.Settled) (hc : s.mac.changes = [c]) (hap : c.applied = false)
    (hret : c.retire = none) (hw : s.Waits c.handle l) :
    Completes .routeApply s fun t => t.Answered l stOK (unconfirmedRes c.waiting) ∧ t.mac.routes = setRoutes s.mac.routes c.sets c.dels ∧
      t.mac.changes = [] ∧ (∀ i, c.sets.all (fun r => s.robotOf r.dest != some i) = true → t.lease i = s.lease i) ∧
      (∀ r ∈ c.sets, ∀ i, s.robotOf r.dest = some i → (t.lease i).cfgVer = c.cfgVer) ∧
      t.clk = s.clk.run (s.clk.cyclesTo c.applyAt) ∧ Frame [.clk, .out, .hif, .mac, .txu] s.toDev t := by
  let v : Dev := { s.tickTo c.applyAt with mac := { s.mac with
    routes := setRoutes s.mac.routes c.sets c.dels
    changes := mapWhere (fun (x : RouteChange) => x.handle == c.handle) (fun (x : RouteChange) => { x with applied := true }) s.mac.changes
    txq := s.mac.txq.filter fun f => !(isConfig f && leAt f.body 10 2 == c.cfgVer) } }
  have hsw : (s.tickTo c.applyAt).switchRoutes c = c.sets.foldl (Dev.configured c) v := rfl
  obtain ⟨hf, hkeep, hset⟩ := Dev.foldl_configured c c.sets v
  have hv : Frame [.clk, .out, .mac] s.toDev v := (frame_tickTo _ _).append (frame_withMac _ _)
  have hclk : v.clk = s.clk.run (s.clk.cyclesTo c.applyAt) := Dev.tickTo_clk s.toDev c.applyAt
  have hroutes : v.mac.routes = setRoutes s.mac.routes c.sets c.dels := rfl
  have hchg : v.mac.changes.filter (fun x => x.handle != c.handle) = [] := by
    show (mapWhere (fun (x : RouteChange) => x.handle == c.handle) (fun (x : RouteChange) => { x with applied := true }) s.mac.changes).filter _ = []
    rw [hc]
    simp [mapWhere]
  have hrob (a : Nat) : v.robotOf a = s.robotOf a := rfl
  have hlease (i : Nat) : v.lease i = s.lease i := rfl
  let w : Dev := { c.sets.foldl (Dev.configured c) v with mac := { (c.sets.foldl (Dev.configured c) v).mac with
    changes := (c.sets.foldl (Dev.configured c) v).mac.changes.filter fun x => x.handle != c.handle } }
  have he : exec .routeApply s = s.act fun _ => w.done c.handle stOK (unconfirmedRes c.waiting) := by
    show execRouteApply s = _
    refine State.act_congr ?_
    dsimp only
    rw [hc]
    have hpend : [c].filter (fun c => !c.applied) = [c] := by simp [hap]
    rw [hpend]
    dsimp only [List.foldl_nil]
    exact if_neg (by rw [hret]; decide)
  have hmac : (c.sets.foldl (Dev.configured c) v).mac = v.mac := hf .mac (by decide)
  have hwf : Frame [.clk, .out, .mac, .txu] s.toDev w := ((hv.append hf).append (frame_withMac _ _)).mono (by decide)
  have hww : w.Waits c.handle l := hw.of_frame hwf (by decide) (Dev.reg_of_frame hwf (by decide) _)
  have hwroutes : w.mac.routes = setRoutes s.mac.routes c.sets c.dels := (congrArg Mac.routes hmac).trans hroutes
  have hwchg : w.mac.changes = [] := by
    show (c.sets.foldl (Dev.configured c) v).mac.changes.filter _ = []
    rw [hmac, hchg]
  have hwlease (i : Nat) : w.lease i = (c.sets.foldl (Dev.configured c) v).lease i := rfl
  have hwclk : w.clk = s.clk.run (s.clk.cyclesTo c.applyAt) := (hf .clk (by decide)).trans hclk
  generalize w = w at he hwf hww hwroutes hwchg hwlease hwclk
  have hd := frame_done w c.handle stOK (unconfirmedRes c.waiting)
  have hmac' := hd .mac (by decide)
  have hall : Frame [.clk, .out, .hif, .mac, .txu] s.toDev (w.done c.handle stOK (unconfirmedRes c.waiting)) := (hwf.append hd).mono (by decide)
  refine .of_effect hs hall he (by decide) (by decide) ⟨hww.done _ _, ?_, ?_, fun i hi => ?_, fun r hr i hi => ?_, ?_, hall⟩
  · rw [hmac', hwroutes]
  · rw [hmac', hwchg]
  · rw [Dev.lease_of_frame hd (by decide), hwlease, hkeep i fun r hr => by simpa [hrob] using List.all_eq_true.1 hi r hr, hlease]
  · rw [Dev.lease_of_frame hd (by decide), hwlease, hset i (.inl ⟨r, hr, hi⟩)]
  · rw [hd .clk (by decide), hwclk]

/-! #### Lanes leave and come back -/

theorem frame_flushQueues (l : List Nat) (s : Dev) : Frame [.que] s (l.foldl (fun s q => s.flushQueue q) s) :=
  Frame.foldl _ (fun s q => frame_setQueue s q (s.queue q).flush) l s

/-- The radio without the frames of a lane. -/
def Dev.unqueued (s : Dev) (n : Nat) : Dev := { s with mac := { s.mac with txq := s.mac.txq.filter fun f => f.lane != n } }

theorem Dev.dropLane_eq (s : Dev) (n : Nat) : s.dropLane n = [n, 8 + n, 16 + n].foldl (fun s q => s.flushQueue q) (s.unqueued n) := rfl

theorem frame_dropLane (s : Dev) (n : Nat) : Frame [.mac, .que] s (s.dropLane n) := by
  rw [s.dropLane_eq]
  exact (frame_withMac s _).append (frame_flushQueues _ (s.unqueued n))

theorem Dev.mac_dropLane (s : Dev) (n : Nat) : (s.dropLane n).mac = { s.mac with txq := s.mac.txq.filter fun f => f.lane != n } := by
  rw [s.dropLane_eq]
  exact frame_flushQueues [n, 8 + n, 16 + n] (s.unqueued n) .mac (by decide)

/-- A lane that no node keeps is out of service, and its frames are gone. -/
def Dev.laneRetired (s : Dev) (c : RouteChange) (n : Nat) : Dev :=
  let s := { s with mac := { s.mac with changes := s.mac.changes.filter fun x => x.handle != c.handle } }
  (s.setLane n { s.lane n with st := .retired, moving := false, noSfd := 0, badRd := 0 }).dropLane n

theorem frame_laneRetired (s : Dev) (c : RouteChange) (n : Nat) : Frame [.mac, .que] s (s.laneRetired c n) := by
  unfold Dev.laneRetired
  exact (frame_withMac s _).append ((frame_setLane _ n _).append (frame_dropLane _ n)) |>.mono (by decide)

theorem Dev.mac_laneRetired (s : Dev) (c : RouteChange) (n : Nat) : ((s.laneRetired c n).lane n).st = .retired ∧
    (∀ m, m ≠ n → (s.laneRetired c n).lane m = s.lane m) ∧ (∀ f ∈ (s.laneRetired c n).mac.txq, f.lane ≠ n) ∧
    (s.laneRetired c n).mac.changes = s.mac.changes.filter fun x => x.handle != c.handle := by
  let t : Dev := { s with mac := { s.mac with changes := s.mac.changes.filter fun x => x.handle != c.handle } }
  let x : Lane := { s.lane n with st := .retired, moving := false, noSfd := 0, badRd := 0 }
  have hm : (s.laneRetired c n).mac = { (t.setLane n x).mac with txq := (t.setLane n x).mac.txq.filter fun f => f.lane != n } := (t.setLane n x).mac_dropLane n
  have hl (m : Nat) : (s.laneRetired c n).lane m = if m = n then x else s.lane m :=
    (congrArg (fun y : Mac => Tab.get (fun _ => ({} : Lane)) y.lanes m) hm).trans (Dev.lane_setLane t n m x)
  refine ⟨by rw [hl, if_pos rfl], fun m hmn => by rw [hl, if_neg hmn], fun f hf => ?_, by rw [hm]; rfl⟩
  rw [hm] at hf
  simpa using (List.mem_filter.1 hf).2

theorem CompletesThen.laneRetireComplete {s : State} {c : RouteChange} {n : Nat} {force : Bool} {l : Live} (hc : s.mac.changes = [c]) (hap : c.applied = true)
    (hret : c.retire = some (n, force)) (hleft : force = true ∨ s.keepLane c = []) (hw : s.Waits c.handle l) :
    CompletesThen .laneRetireComplete s fun d => d.Answered l stOK (unconfirmedRes (s.keepLane c)) ∧ (d.lane n).st = .retired ∧
      (∀ m, m ≠ n → d.lane m = s.lane m) ∧ (∀ f ∈ d.mac.txq, f.lane ≠ n) ∧ d.mac.changes = [] ∧
      d.todo = s.todo ++ (if s.keepLane c = [] then [] else [.fault 0x87 false]) ∧ Frame [.out, .hif, .mac, .que, .todo] s.toDev d := by
  have he : exec .laneRetireComplete s = s.act fun _ => (if force && !(s.keepLane c).isEmpty then (s.begin.laneRetired c n).raise 0x87
      else s.begin.laneRetired c n).done c.handle stOK (unconfirmedRes (s.keepLane c)) := by
    show execLaneRetireComplete s = _
    refine State.act_congr ?_
    dsimp only
    have hkeep : s.begin.keepLane c = s.keepLane c := rfl
    have hdue : (c.applied && (force || (s.keepLane c).isEmpty)) = true := by
      rcases hleft with h | h <;> simp [hap, h]
    rw [show s.begin.mac.changes = [c] from hc, List.find?_cons, hret]
    dsimp only
    rw [hkeep, hdue]
    dsimp only
    rw [hret]
    unfold Dev.laneRetired
    rw [show s.begin.mac.changes = [c] from hc]
    rfl
  obtain ⟨h1, h2, h3, h4⟩ := s.begin.mac_laneRetired c n
  have hf : Frame [.out, .mac, .que] s.toDev (s.begin.laneRetired c n) := (frame_begin s.toDev).append (frame_laneRetired _ c n)
  have hwu : (s.begin.laneRetired c n).Waits c.handle l := hw.of_frame hf (by decide) (Dev.reg_of_frame hf (by decide) _)
  have hchg : (s.begin.laneRetired c n).mac.changes = [] := by
    rw [h4, show s.begin.mac.changes = [c] from hc]
    simp
  have hlane (m : Nat) : s.begin.lane m = s.lane m := rfl
  have htodo : (s.begin.laneRetired c n).todo = s.todo := hf .todo (by decide)
  generalize s.begin.laneRetired c n = u at he h1 h2 h3 hf hwu hchg htodo
  have hrf : Frame [.todo] u (if (force && !(s.keepLane c).isEmpty) = true then u.raise 0x87 else u) := .ite (frame_raise u _) (.refl _ u)
  have hrt : (if (force && !(s.keepLane c).isEmpty) = true then u.raise 0x87 else u).todo = s.todo ++ if s.keepLane c = [] then [] else [.fault 0x87 false] := by
    by_cases hk : s.keepLane c = []
    · rw [if_neg (by simp [hk]), if_pos hk, htodo, List.append_nil]
    · rw [if_pos (by simp [hk, hleft.resolve_right hk]), if_neg hk, Dev.todo_raise, htodo]
  generalize (if (force && !(s.keepLane c).isEmpty) = true then u.raise 0x87 else u) = x at he hrf hrt
  have hx : x.Waits c.handle l := hwu.of_frame hrf (by decide) (Dev.reg_of_frame hrf (by decide) _)
  have hd := frame_done x c.handle stOK (unconfirmedRes (s.keepLane c))
  have hm := (hrf.append hd) .mac (by decide)
  have hl (m : Nat) : (x.done c.handle stOK (unconfirmedRes (s.keepLane c))).lane m = u.lane m := by rw [Dev.lane, hm, Dev.lane]
  refine .of_effect he ⟨hx.done _ _, ?_, fun m hmn => ?_, ?_, ?_, ?_, ((hf.append hrf).append hd).mono (by decide)⟩
  · rw [hl, h1]
  · rw [hl, h2 m hmn, hlane]
  · rw [hm]
    exact h3
  · rw [hm, hchg]
  · rw [hd .todo (by decide), hrt]

theorem retireEnc_ok {l : Live} (h1 : l.p 1 1 = 1 ∨ l.p 1 1 = 2) (h2 : l.p 2 1 ≤ 1) (h4 : l.p 4 2 = 0) : firstBad (retireEnc l.p) = none :=
  firstBad_nil fun p hp => by
    simp only [retireEnc, List.mem_cons, List.not_mem_nil, or_false] at hp
    rcases hp with rfl | rfl | rfl
    · simpa using h1
    · simpa using h2
    · simp [h4]

theorem frame_laneUp (s : Dev) (n : Nat) : Frame [.mac, .out] s (s.laneUp n) :=
  (frame_setLane s n _).append (Frame.foldl _ (fun s _ => frame_radio s n _) _ _)

theorem Dev.lane_laneUp (s : Dev) (n m : Nat) : (s.laneUp n).lane m =
    if m = n then { st := .inService, startSf := some (sfNext (slotframeOf s.nt.toNat)) } else s.lane m := by
  have hf : Frame [.out] (s.setLane n { st := .inService, startSf := some (sfNext (slotframeOf s.nt.toNat)) }) (s.laneUp n) :=
    Frame.foldl _ (fun s _ => frame_radio s n _) _ _
  rw [Dev.lane_of_frame hf (by decide), Dev.lane_setLane]

theorem Completes.macLaneRetire_back {s : State} {h n : Nat} {l : Live} (hs : s.Settled) (hr : s.Runs h 0x72 l) (hn : l.p 0 1 = n) (hop : l.p 1 1 = 2)
    (hforce : l.p 2 1 ≤ 1) (hne : l.p 4 2 = 0) :
    Completes (.macLaneRetire h none) s fun t => if (s.lane n).st = .retired ∨ (s.lane n).st = .failed
      then t.Answered l stOK [] ∧ t.lane n = { st := .inService, startSf := some (sfNext (slotframeOf s.nt.toNat)) } ∧
        (∀ m, m ≠ n → t.lane m = s.lane m) ∧ Frame [.out, .hif, .mac] s.toDev t
      else t.Answered l 0x0801 [] ∧ Frame [.out, .hif] s.toDev t := by
  obtain ⟨k, he, hk⟩ : ∃ k : Live → Dev → Dev, (exec (.macLaneRetire h none) s = s.act fun d => d.command h 0x72 k) ∧
      k l (s.begin.markStarted h) = if (s.lane n).st != .retired && (s.lane n).st != .failed then (s.begin.markStarted h).done h 0x0801 []
        else ((s.begin.markStarted h).laneUp n).done h stOK [] := by
    refine ⟨_, rfl, ?_⟩
    dsimp only
    rw [retireEnc_ok (.inr hop) hforce hne, hn]
    dsimp only
    rw [if_pos hop]
    rfl
  by_cases hst : (s.lane n).st = .retired ∨ (s.lane n).st = .failed
  · rw [if_neg (by rcases hst with h | h <;> simp [h])] at hk
    simp only [if_pos hst]
    have hu := frame_laneUp (s.begin.markStarted h) n
    have hl := (s.begin.markStarted h).lane_laneUp n
    have hw : ((s.begin.markStarted h).laneUp n).Waits h { l with started := true } := hr.waits.of_frame hu (by decide) (Dev.reg_of_frame hu (by decide) _)
    have hf := (frame_begin_markStarted s.toDev h).append hu
    have hnt : (s.begin.markStarted h).nt = s.nt := rfl
    have hlane (m : Nat) : (s.begin.markStarted h).lane m = s.lane m := rfl
    rw [hnt] at hl
    generalize (s.begin.markStarted h).laneUp n = u at hk hl hw hf
    have hd := frame_done u h stOK []
    have hall : Frame [.out, .hif, .mac] s.toDev (u.done h stOK []) := (hf.append hd).mono (by decide)
    refine .of_command he hs hr hk hall (by decide) (by decide) ⟨hw.done stOK [], ?_, fun m hm => ?_, hall⟩
    · rw [Dev.lane_of_frame hd (by decide), hl, if_pos rfl]
    · rw [Dev.lane_of_frame hd (by decide), hl, if_neg hm, hlane]
  · push Not at hst
    rw [if_pos (by simp [hst.1, hst.2])] at hk
    simp only [hst.1, hst.2, or_self, if_false]
    exact .answered he hs hr hk

theorem Completes.macLaneRetire_moves {s : State} {h n : Nat} {l : Live} (hs : s.Settled) (hr : s.Runs h 0x72 l) (hn : l.p 0 1 = n) (hop : l.p 1 1 = 1)
    (hforce : l.p 2 1 ≤ 1) (hne : l.p 4 2 = 0) (hlen : l.len = 0) (hst : (s.lane n).st = .inService) (hmv : (s.lane n).moving = false)
    (husers : s.mac.routes.all (fun r => r.lane != n) = true) :
    Completes (.macLaneRetire h none) s fun t => if s.routesOk s.mac.routes [] [] then t.Begun l ∧ t.lane n = { s.lane n with moving := true } ∧
        (∀ m, m ≠ n → t.lane m = s.lane m) ∧ t.mac.changes = s.mac.changes ++ [{
          handle := h, sets := [], dels := []
          applyAt := slotframeAtOrAfter (ntAdd s.nt tickHz), cfgVer := (s.txu.lastCfg + 1) % 65536, waiting := []
          retire := some (n, decide (l.p 2 1 = 1)) }] ∧ Frame [.out, .hif, .mac, .txu] s.toDev t
      else t.Answered l 0x0802 [] ∧ Frame [.out, .hif] s.toDev t := by
  have hno : (s.mac.routes.filter fun r => r.lane == n) = [] := List.filter_eq_nil_iff.2 fun r hr' => by
    have := List.all_eq_true.1 husers r hr'
    simpa using this
  obtain ⟨k, he, hk⟩ : ∃ k : Live → Dev → Dev, (exec (.macLaneRetire h none) s = s.act fun d => d.command h 0x72 k) ∧
      k l (s.begin.markStarted h) = if s.routesOk s.mac.routes [] [] then
        ((s.begin.markStarted h).setLane n { s.lane n with moving := true }).beginChange h [] [] (some (n, decide (l.p 2 1 = 1)))
        else (s.begin.markStarted h).done h 0x0802 [] := by
    refine ⟨_, rfl, ?_⟩
    dsimp only
    have hlane : (s.begin.markStarted h).lane n = s.lane n := rfl
    have hroutes : (s.begin.markStarted h).mac.routes = s.mac.routes := rfl
    have hok : (s.begin.markStarted h).routesOk s.mac.routes [] [] = s.routesOk s.mac.routes [] [] := rfl
    have hparse : (s.begin.markStarted h).parseRoutes [] 0 = some [] := rfl
    rw [retireEnc_ok (.inl hop) hforce hne, hn]
    dsimp only
    rw [if_neg (by omega), if_neg (by omega), hlane, hroutes, hno, if_neg (by simp [hst, hmv]), if_neg (by simp), if_pos hne]
    dsimp only
    rw [hne, hparse]
    dsimp only
    rw [hok]
    cases s.routesOk s.mac.routes [] [] with
    | true => exact if_neg (by simp)
    | false => exact if_pos (by simp)
  by_cases hok : s.routesOk s.mac.routes [] [] = true
  · rw [if_pos hok] at hk
    simp only [if_pos hok]
    have h0 := frame_setLane (s.begin.markStarted h) n { s.lane n with moving := true }
    obtain ⟨-, h2, h3, h4⟩ := ((s.begin.markStarted h).setLane n { s.lane n with moving := true }).beginChange_spec h [] [] (some (n, decide (l.p 2 1 = 1)))
    have hl (m : Nat) : (((s.begin.markStarted h).setLane n { s.lane n with moving := true }).beginChange h [] [] (some (n, decide (l.p 2 1 = 1)))).lane m =
        if m = n then { s.lane n with moving := true } else s.lane m := by
      rw [Dev.lane, h3]
      exact Dev.lane_setLane (s.begin.markStarted h) n m _
    have hf : Frame [.out, .hif, .mac, .txu] s.toDev (((s.begin.markStarted h).setLane n { s.lane n with moving := true }).beginChange h [] []
        (some (n, decide (l.p 2 1 = 1)))) := ((frame_begin_markStarted _ h).append (h0.append h4)).mono (by decide)
    have hb := Dev.begun_of_frame hr.begun (h0.append h4) (by decide)
    exact .of_command he hs hr hk hf (by decide) (by decide) ⟨hb, (hl n).trans (if_pos rfl), fun m hm => (hl m).trans (if_neg hm), h2, hf⟩
  · rw [if_neg hok] at hk
    simp only [if_neg hok]
    exact .answered he hs hr hk

/-- Settles O52: sends, changes of the routes and lanes, each through what it puts in the radio's state. -/
theorem theHostSendsFramesAndSetsRoutes : Obligations.TheHostSendsFramesAndSetsRoutes := by
  refine ⟨fun s h l b r hs hr h1 h2 h3 hlen hb hd hrt => ?_, fun s h i l r hs hr h1 h2 h3 hi hrt => ?_, fun s h l b hs hr h1 h2 h3 hlen hb hd hrt => ?_,
    fun s h i l hs hr h1 h2 h3 hi hrt => ?_, fun _ _ _ _ => .macSendDeadline, fun _ _ _ _ _ => .macRouteSet_sets, fun _ _ _ _ _ => .macRouteSet_reads,
    fun _ _ _ => .routeApply, fun _ _ _ _ _ => .laneRetireComplete, fun _ _ _ _ => .macLaneRetire_back, fun _ _ _ _ => .macLaneRetire_moves⟩
  · obtain ⟨k, he, hk⟩ := exec_macFrameSend_data (h := h) (b := b) h1 h2 h3 hlen hb hd
    rw [hrt] at hk
    refine (Completes.sends he hs hr hk).imp fun t ⟨hbeg, hsends, hq, hf⟩ => ⟨hbeg, hsends, ?_, ?_, ?_, hf⟩
    · rw [hq, List.dropLast_concat]
    · rw [hq, List.getLast?_concat]
      rfl
    · rw [hq, List.getLast?_concat]
      rfl
  · obtain ⟨k, he, hk⟩ := exec_macFrameSend_stop (h := h) h1 h2 h3 hi
    rw [hrt] at hk
    refine (Completes.sends he hs hr hk).imp fun t ⟨hbeg, hsends, hq, hf⟩ => ⟨hbeg, hsends, ?_, ?_, hf⟩
    · rw [hq, List.dropLast_concat]
    · rw [hq, List.getLast?_concat]
      rfl
  · obtain ⟨k, he, hk⟩ := exec_macFrameSend_data (h := h) (b := b) h1 h2 h3 hlen hb hd
    rw [hrt] at hk
    exact .answered he hs hr hk
  · obtain ⟨k, he, hk⟩ := exec_macFrameSend_stop (h := h) h1 h2 h3 hi
    rw [hrt] at hk
    exact .answered he hs hr hk

end Sys2Proof.Machine

/-! ### The reference station (R83-R85, R90-R93, R97, R105, R121) -/
namespace Sys2Proof.Machine

/-! #### Surveys, base positions, streams and raw captures -/

theorem Completes.surveyProgress {s : State} {v : Survey} {l : Live} (werr : Bool) (hs : s.Settled) (hv : s.gns.survey = some v)
    (hout : v.out = false) (hw : s.Waits v.handle l) (hroom : s.Room l.cq) :
    Completes (.surveyProgress werr) s fun t =>
      t.Progressed l 1 (leBytes (v.used / 20) 4 ++ leBytes (v.std.getD 0xFFFFFFFF) 4 ++ leBytes v.nsat 1) ∧
        t.gns = { s.gns with survey := some { v with nextAt := ntAdd v.nextAt ((10 * tickHz : Nat) : Int) } } ∧
        t.clk = s.clk.run (s.clk.cyclesTo v.nextAt) ∧ Frame [.clk, .out, .hif, .gns] s.toDev t := by
  let g : Gns := { s.gns with survey := some { v with nextAt := ntAdd v.nextAt ((10 * tickHz : Nat) : Int) } }
  let u : Dev := { s.tickTo v.nextAt with gns := g }
  let res : List Byte := leBytes (v.used / 20) 4 ++ leBytes (v.std.getD 0xFFFFFFFF) 4 ++ leBytes v.nsat 1
  have he : exec (.surveyProgress werr) s = s.act fun _ => u.progress v.handle 1 res := by
    show execSurveyProgress werr s = _
    refine State.act_congr ?_
    dsimp only
    rw [hv]
    dsimp only
    have hnot : ¬ v.out = true := hout ▸ Bool.false_ne_true
    rw [if_neg fun h => hnot (Bool.and_eq_true_iff.1 h).1, if_neg hnot]
    rfl
  have hu : Frame [.clk, .out, .gns] s.toDev u := (frame_tickTo s.toDev v.nextAt).append (frame_withGns (s.tickTo v.nextAt) g)
  obtain ⟨hlive, ho, -⟩ := hw
  obtain ⟨hprog, -, hfp⟩ := Dev.progress_room (s := u) 1 res hlive ho (hroom.of_same rfl rfl rfl rfl)
  have hall : Frame [.clk, .out, .hif, .gns] s.toDev (u.progress v.handle 1 res) := (hu.append hfp).mono (by decide)
  exact .of_effect hs hall he (by decide) (by decide) ⟨hprog, hfp .gns (by decide), hfp .clk (by decide), hall⟩

theorem Completes.surveyTimeout {s : State} {v : Survey} {l : Live} (hs : s.Settled) (hv : s.gns.survey = some v) (hmax : v.maxS ≠ 0)
    (hw : s.Waits v.handle l) :
    Completes .surveyTimeout s fun t => t.Answered l stSurveyTimeout [] ∧ t.gns = { s.gns with survey := none } ∧
        t.clk = s.clk.run (s.clk.cyclesTo (ntAdd v.start ((v.maxS * tickHz : Nat) : Int))) ∧ Frame [.clk, .out, .hif, .gns] s.toDev t := by
  let e : NT := ntAdd v.start ((v.maxS * tickHz : Nat) : Int)
  let g : Gns := { s.gns with survey := none }
  let u : Dev := { s.tickTo e with gns := g }
  have he : exec .surveyTimeout s = s.act fun _ => u.done v.handle stSurveyTimeout [] := by
    show execSurveyTimeout s = _
    refine State.act_congr ?_
    dsimp only
    rw [hv]
    exact if_neg hmax
  have hu : Frame [.clk, .out, .gns] s.toDev u := (frame_tickTo s.toDev e).append (frame_withGns (s.tickTo e) g)
  have hd := frame_done u v.handle stSurveyTimeout []
  have hall : Frame [.clk, .out, .hif, .gns] s.toDev (u.done v.handle stSurveyTimeout []) := (hu.append hd).mono (by decide)
  exact .of_effect hs hall he (by decide) (by decide)
    ⟨(hw.of_frame hu (by decide) rfl).done _ _, hd .gns (by decide), hd .clk (by decide), hall⟩

theorem Completes.gnssSetBase_mismatch {s : State} {h : Nat} {l : Live} {b : List Byte} {p : Int × Int × Int} (hs : s.Settled)
    (hr : s.Runs h 0x21 l) (hlegal : BaseLegal b) (hmay : s.baseMayMove = true) (hadopt : s.gns.adopt = none) (hlive : s.gns.live = some p)
    (hant : bitAt (leAt b 27 1) 0 = true → s.antB = true) (hforce : bitAt (leAt b 27 1) 1 = false)
    (hfar : implausible p (leAtS b 0 8, leAtS b 8 8, leAtS b 16 8) = true) :
    Completes (.gnssSetBase h (some b)) s fun t => t.Answered l stBaseMismatch [] ∧ Frame [.out, .hif] s.toDev t := by
  obtain ⟨h1, h2, h3, ⟨h4, h5⟩, ⟨h6, h7⟩, h8⟩ := hlegal
  have hfields : firstBad [(decide (leAt b 26 1 ≤ 63), 90), (decide (leAt b 27 1 < 4), 91), (!(bitAt (leAt b 27 1) 0) || s.antB, 91),
      (zeros b 42 6, 106), (((b.drop 48).take 31).all (fun x => x.toNat < 128) && leAt b 79 1 == 0, 112),
      (((b.drop 80).take 31).all (fun x => x.toNat < 128) && leAt b 111 1 == 0, 144), (zeros b 112 16, 176)] = none := by
    refine firstBad_nil fun q hq => ?_
    simp only [List.mem_cons, List.not_mem_nil, or_false] at hq
    rcases hq with rfl | rfl | rfl | rfl | rfl | rfl | rfl
    · exact decide_eq_true h1
    · exact decide_eq_true h2
    · cases hb : bitAt (leAt b 27 1) 0
      · rfl
      · exact hant hb
    · exact h3
    · simp only [h4, h5, beq_self_eq_true, Bool.and_self]
    · simp only [h6, h7, beq_self_eq_true, Bool.and_self]
    · exact h8
  have hmay' : (s.begin.markStarted h).baseMayMove = true := hmay
  have hadopt' : (s.begin.markStarted h).gns.adopt = none := hadopt
  have hlive' : (s.begin.markStarted h).gns.live = some p := hlive
  have hfields' : firstBad [(decide (leAt b 26 1 ≤ 63), 90), (decide (leAt b 27 1 < 4), 91),
      (!(bitAt (leAt b 27 1) 0) || (s.begin.markStarted h).antB, 91),
      (zeros b 42 6, 106), (((b.drop 48).take 31).all (fun x => x.toNat < 128) && leAt b 79 1 == 0, 112),
      (((b.drop 80).take 31).all (fun x => x.toNat < 128) && leAt b 111 1 == 0, 144), (zeros b 112 16, 176)] = none := hfields
  obtain ⟨k, he, hk⟩ : ∃ k : Live → Dev → Dev, (exec (.gnssSetBase h (some b)) s = s.act fun d => d.command h 0x21 k) ∧
      k l (s.begin.markStarted h) = (s.begin.markStarted h).done h stBaseMismatch [] := by
    refine ⟨_, rfl, ?_⟩
    dsimp only
    rw [hfields']
    dsimp only
    rw [hmay', hadopt', hlive', hforce]
    exact (if_neg (by decide)).trans (if_pos hfar)
  exact .answered he hs hr hk

theorem Completes.corrStreamCfg {s : State} {h : Nat} {l : Live} (hs : s.Settled) (hr : s.Runs h 0x23 l) (hstop : streamStop l.entry = false)
    (hlen : 65536 ≤ l.len) (hnext : s.gns.streamNext = none) :
    Completes (.corrStreamCfg h) s fun t => t.Begun l ∧ t.gns = { s.gns with streamNext := some {
          handle := h, msm := l.p 0 1, div := l.p 1 1, arp := l.p 2 2, ant := l.p 4 2, len := l.len, nlen := l.p 16 4 } } ∧
        Frame [.out, .hif, .gns] s.toDev t := by
  let g : Gns := { s.gns with streamNext := some {
          handle := h, msm := l.p 0 1, div := l.p 1 1, arp := l.p 2 2, ant := l.p 4 2, len := l.len, nlen := l.p 16 4 } }
  have hnext' : (s.begin.markStarted h).gns.streamNext = none := hnext
  obtain ⟨k, he, hk⟩ : ∃ k : Live → Dev → Dev, (exec (.corrStreamCfg h) s = s.act fun d => d.command h 0x23 k) ∧
      k l (s.begin.markStarted h) = { s.begin.markStarted h with gns := g } := by
    refine ⟨_, rfl, ?_⟩
    dsimp only
    rw [hstop, if_neg (by simpa using hlen), hnext']
    rfl
  have hf : Frame [.out, .hif, .gns] s.toDev { s.begin.markStarted h with gns := g } :=
    (frame_begin_markStarted _ h).append (frame_withGns _ g)
  exact .of_command he hs hr hk hf (by decide) (by decide) ⟨hr.begun, rfl, hf⟩

theorem Completes.gnssRawCapture {s : State} {h : Nat} {l : Live} (hs : s.Settled) (hr : s.Runs h 0x22 l)
    (hlen : capBytes (l.p 8 1) (l.p 10 2) 1 ≤ l.len) (hports : ∀ p, p < 6 → bitAt (l.p 8 1) p = true → s.portUsed p = true)
    (hfree : s.gns.capture = none) :
    Completes (.gnssRawCapture h) s fun t => t.Begun l ∧ t.gns = { s.gns with capture := some {
          handle := h, ports := l.p 8 1, ms := l.p 10 2, at_ := if l.pNt 0 = 0 ∨ ntReached s.nt (l.pNt 0) = true then s.nt else l.pNt 0
          running := decide (l.pNt 0 = 0) || ntReached s.nt (l.pNt 0) } } ∧ Frame [.out, .hif, .gns] s.toDev t := by
  let g : Gns := { s.gns with capture := some {
          handle := h, ports := l.p 8 1, ms := l.p 10 2, at_ := if l.pNt 0 = 0 ∨ ntReached s.nt (l.pNt 0) = true then s.nt else l.pNt 0
          running := decide (l.pNt 0 = 0) || ntReached s.nt (l.pNt 0) } }
  have hfree' : (s.begin.markStarted h).gns.capture = none := hfree
  have hused : ((List.range 6).any fun p => bitAt (l.p 8 1) p && !(s.begin.markStarted h).portUsed p) = false := by
    refine List.any_eq_false.2 fun p hp => ?_
    cases hb : bitAt (l.p 8 1) p
    · simp
    · have : (s.begin.markStarted h).portUsed p = true := hports p (List.mem_range.1 hp) hb
      simp [this]
  obtain ⟨k, he, hk⟩ : ∃ k : Live → Dev → Dev, (exec (.gnssRawCapture h) s = s.act fun d => d.command h 0x22 k) ∧
      k l (s.begin.markStarted h) = { s.begin.markStarted h with gns := g } := by
    refine ⟨_, rfl, ?_⟩
    dsimp only
    rw [if_neg (by omega), hused, hfree']
    simp only [Bool.false_eq_true, if_false, Option.isSome_none]
    have hnow : (l.pNt 0 == 0 || ntReached (s.begin.markStarted h).nt (l.pNt 0)) = true ↔ (l.pNt 0 = 0 ∨ ntReached s.nt (l.pNt 0) = true) := by
      rw [Bool.or_eq_true, beq_iff_eq]
      exact Iff.rfl
    simp only [hnow]
    rfl
  have hf : Frame [.out, .hif, .gns] s.toDev { s.begin.markStarted h with gns := g } :=
    (frame_begin_markStarted _ h).append (frame_withGns _ g)
  exact .of_command he hs hr hk hf (by decide) (by decide) ⟨hr.begun, rfl, hf⟩

theorem Completes.rawCaptureStart {s : State} {c : RawCap} (hs : s.Settled) (hc : s.gns.capture = some c) (hrun : c.running = false) :
    Completes .rawCaptureStart s fun t => t.gns = { s.gns with capture := some { c with running := true } } ∧
        t.clk = s.clk.run (s.clk.cyclesTo c.at_) ∧ Frame [.clk, .out, .gns] s.toDev t := by
  let g : Gns := { s.gns with capture := some { c with running := true } }
  have he : exec .rawCaptureStart s = s.act fun _ => { s.tickTo c.at_ with gns := g } := by
    show execRawCaptureStart s = _
    refine State.act_congr ?_
    dsimp only
    rw [hc]
    dsimp only
    rw [hrun]
    rfl
  have hf : Frame [.clk, .out, .gns] s.toDev { s.tickTo c.at_ with gns := g } := (frame_tickTo s.toDev c.at_).append (frame_withGns _ g)
  exact .of_effect hs hf he (by decide) (by decide) ⟨rfl, rfl, hf⟩

theorem Completes.rawCaptureDone {s : State} {b : List (List Byte)} {c : RawCap} {l : Live} (hs : s.Settled) (hc : s.gns.capture = some c)
    (hrun : c.running = true) (hw : s.Waits c.handle l) :
    Completes (.rawCaptureDone b false) s fun t => t.Answered l stOK (leBytes (capBytes c.ports c.ms 1) 4) ∧
        .host c.handle 0 0 (capBlocks c.ports c.at_ c.ms 1 b) ∈ t.out ∧
        t.gns = { s.gns with capture := none } ∧ t.clk = s.clk.run (s.clk.cyclesTo (ntAdd c.at_ (msTicks c.ms))) ∧
        Frame [.clk, .out, .hif, .gns] s.toDev t := by
  let e : NT := ntAdd c.at_ (msTicks c.ms)
  let g : Gns := { s.gns with capture := none }
  let w : Dev := { s.tickTo e with gns := g }
  let o : Out := .host c.handle 0 0 (capBlocks c.ports c.at_ c.ms 1 b)
  let res : List Byte := leBytes (capBytes c.ports c.ms 1) 4
  have he : exec (.rawCaptureDone b false) s = s.act fun _ => (w.emit o).done c.handle stOK res := by
    show execRawCaptureDone b false s = _
    refine State.act_congr ?_
    dsimp only
    rw [hc]
    dsimp only
    rw [hrun]
    rfl
  have hu : Frame [.clk, .out, .gns] s.toDev (w.emit o) :=
    (((frame_tickTo s.toDev e).append (frame_withGns (s.tickTo e) g)).append (frame_emit w o)).mono (by decide)
  have hd := frame_done (w.emit o) c.handle stOK res
  have hall : Frame [.clk, .out, .hif, .gns] s.toDev ((w.emit o).done c.handle stOK res) := (hu.append hd).mono (by decide)
  exact .of_effect hs hall he (by decide) (by decide)
    ⟨(hw.of_frame hu (by decide) rfl).done _ _, Dev.mem_out_done _ _ _ (List.mem_append_right _ List.mem_cons_self),
      hd .gns (by decide), hd .clk (by decide), hall⟩

end Sys2Proof.Machine

/-! ### The epoch (R83-R85, R89-R91, R121) -/
namespace Sys2Proof.Machine

/-- The device at an epoch tick, before anything takes hold at it. -/
def Dev.atEpoch (s : Dev) (t : NT) : Dev := { s.tickTo t with gns := { s.gns with epochAt := t } }

/-- An epoch that is not published (R84, R89). -/
def Dev.epochMissed (s : Dev) : Dev :=
  let s := { s with gns := { s.gns with gap := true, airGap := true } }
  if s.gns.base ≠ 0 then s.raise 0x47 else s

/-- What an epoch boundary brings before the engine measures. -/
def Dev.epochReady (s : Dev) (t : NT) (f : SkyFacts) : Dev := (s.epochBoundary t).takeUtc f.utc

/-- The channels of an epoch and what they measured: the swap of a calibration, the assignment and the measurements. -/
def Dev.epochMeasured (s : Dev) (t : NT) (f : SkyFacts) : Dev := (((s.calSwap t).1.assign f.svs).observe t f.meas).1

def Dev.epochObs (s : Dev) (t : NT) (f : SkyFacts) : List Obs := (((s.calSwap t).1.assign f.svs).observe t f.meas).2

theorem exec_gnssEpoch_paused {s : State} {e : NT} (f : SkyFacts) (he : e = s.nextDue (nextEpoch s.epochHz) s.gns.epochAt)
    (hz : s.epochHz ≠ 0) (hp : s.upd.pause = some 2) : exec (.gnssEpoch f) s = s.act fun _ => (s.atEpoch e).epochMissed := by
  subst he
  show execGnssEpoch f s = _
  unfold execGnssEpoch
  refine State.act_congr ?_
  dsimp -zeta only
  rw [if_neg hz]
  extract_lets t s1 g s2 paused s3 missed
  have hpaused : paused = true := by
    show (s.upd.pause == some 2) = true
    rw [hp]
    rfl
  have h3 : s3 = s2 := if_pos hpaused
  rw [if_pos (by rw [hpaused]; rfl), h3]
  rfl

theorem exec_gnssEpoch_stopped {s : State} {e : NT} (f : SkyFacts) (he : e = s.nextDue (nextEpoch s.epochHz) s.gns.epochAt)
    (hz : s.epochHz ≠ 0) (hp : s.upd.pause ≠ some 2) (hen : ((s.atEpoch e).epochReady e f).gns.engine = 0) :
    exec (.gnssEpoch f) s = s.act fun _ => ((s.atEpoch e).epochReady e f).epochMissed := by
  subst he
  show execGnssEpoch f s = _
  unfold execGnssEpoch
  refine State.act_congr ?_
  dsimp -zeta only
  rw [if_neg hz]
  extract_lets t s1 g s2 paused s3 missed
  have hpaused : ¬ paused = true := fun h => hp (eq_of_beq (show (s.upd.pause == some 2) = true from h))
  have h3 : s3 = (s.atEpoch t).epochReady t f := if_neg hpaused
  rw [if_pos (by rw [h3, Bool.or_eq_true]; exact .inr (decide_eq_true hen)), h3]
  rfl

theorem exec_gnssEpoch_published {s : State} {e : NT} (f : SkyFacts) (he : e = s.nextDue (nextEpoch s.epochHz) s.gns.epochAt)
    (hz : s.epochHz ≠ 0) (hp : s.upd.pause ≠ some 2) (hen : ((s.atEpoch e).epochReady e f).gns.engine ≠ 0)
    (hnt : (((s.atEpoch e).epochReady e f).epochMeasured e f).tim.ntValid = true) :
    exec (.gnssEpoch f) s = s.act fun _ => (((s.atEpoch e).epochReady e f).epochMeasured e f).publish e s.epochHz f
      (((s.atEpoch e).epochReady e f).calSwap e).2 (((s.atEpoch e).epochReady e f).epochObs e f) := by
  subst he
  show execGnssEpoch f s = _
  unfold execGnssEpoch
  refine State.act_congr ?_
  dsimp -zeta only
  rw [if_neg hz]
  extract_lets t s1 g s2 paused s3 missed s4
  have hpaused : paused = false := Bool.eq_false_iff.2 fun h => hp (eq_of_beq (show (s.upd.pause == some 2) = true from h))
  have h3 : s3 = (s.atEpoch t).epochReady t f := if_neg (by rw [hpaused]; exact Bool.false_ne_true)
  have h4 : s4 = ((((s.atEpoch t).epochReady t f).calSwap t).1.assign f.svs) := by
    show (s3.calSwap t).1.assign f.svs = _
    rw [h3]
  rw [if_neg (by rw [h3, hpaused, Bool.false_or]; exact fun h => hen (of_decide_eq_true h)), h4, h3]
  exact if_pos hnt

/-! #### The fleet array at a new base position -/

theorem frame_setFrkSlot (s : Dev) (i : Nat) (x : FrkSlot) : Frame [.frk] s (s.setFrkSlot i x) := frame_withFrk s _

/-- What a reset of a slot makes of an epoch that waits or runs. -/
def FrkEpoch.keptFor (q : FrkEpoch) (i : Nat) (f : Filt) : FrkEpoch :=
  if q.slot = i && q.eng.isSome && q.kept.isNone then { q with kept := some f } else q

/-- A slot's leave goes when it is reset. -/
def Dev.frkLeave (s : Dev) (i : Nat) : Dev :=
  if (s.frkSlot i).search = .asked then s.dropLeave (.largeSearch i)
  else if (s.frkSlot i).search = .granted then s.returnLeave (.largeSearch i) else s

theorem frame_frkLeave (s : Dev) (i : Nat) : Frame [.gov] s (s.frkLeave i) :=
  .ite (frame_dropLeave s _) (.ite (frame_returnLeave s _) (.refl _ s))

theorem Dev.frkReset_eq (s : Dev) (i : Nat) (st : FrkState) :
    s.frkReset i st = { s.frkLeave i with frk := { (s.frkLeave i).frk with
      queue := (s.frkLeave i).frk.queue.map fun q : FrkEpoch => q.keptFor i (s.frkSlot i).filt } }.setFrkSlot i
        { s.frkSlot i with st, filt := {}, odoRun := 0, search := (s.frkSlot i).search.discard, hunt := none } := rfl

theorem frame_frkReset (s : Dev) (i : Nat) (st : FrkState) : Frame [.gov, .frk] s (s.frkReset i st) := by
  rw [Dev.frkReset_eq]
  exact ((frame_frkLeave s i).append ((frame_withFrk (s.frkLeave i) _).append (frame_setFrkSlot _ i _))).mono (by decide)

theorem Dev.queue_frkReset (s : Dev) (i : Nat) (st : FrkState) :
    (s.frkReset i st).frk.queue = s.frk.queue.map (·.keptFor i (s.frkSlot i).filt) := by
  rw [Dev.frkReset_eq]
  show (s.frkLeave i).frk.queue.map _ = _
  rw [frame_frkLeave s i .frk (by decide)]

/-- A slot that waits or runs starts anew at a new base position, and one that is frozen stays so (R90). -/
def Dev.frkRestart (s : Dev) (i : Nat) : Dev :=
  match (s.frkSlot i).st with
  | .waiting | .running => s.frkReset i .waiting
  | .frozen => s.frkReset i .frozen
  | .empty => s

theorem frame_frkRestart (s : Dev) (i : Nat) : Frame [.gov, .frk] s (s.frkRestart i) := by
  unfold Dev.frkRestart
  split
  · exact frame_frkReset s i _
  · exact frame_frkReset s i _
  · exact frame_frkReset s i _
  · exact .refl _ s

/-- The queue that stays at a new base position: without the epochs that wait and are observed before it. -/
def Dev.frkPruned (s : Dev) (t : NT) : Dev :=
  let old (q : FrkEpoch) : Bool := q.eng.isNone && ntAfter t q.tObs
  { s with frk := { s.frk with queue := s.frk.queue.filter fun q => !old q } }.setFld (0x705C, 24, 8)
    (sat 8 (s.fld (0x705C, 24, 8) + (s.frk.queue.filter old).length))

theorem Dev.frkRebase_eq (s : Dev) (t : NT) :
    s.frkRebase t = ((s.frkPruned t).frk.slots.map (·.1)).foldl Dev.frkRestart (s.frkPruned t) := by
  unfold Dev.frkRebase Dev.frkRestart
  rfl

theorem frame_frkRebase (s : Dev) (t : NT) : Frame [.frk, .regs, .gov] s (s.frkRebase t) := by
  rw [Dev.frkRebase_eq]
  have hprune : Frame [.frk, .regs] s (s.frkPruned t) := (frame_withFrk s _).append (frame_setFld _ _ _)
  exact (hprune.append (Frame.foldl (c := [.gov, .frk]) Dev.frkRestart frame_frkRestart _ _)).mono (by decide)

/-- What every epoch of a queue satisfies, where a filter kept for its slot changes nothing of it, holds after resets as well. -/
theorem Dev.queue_foldl_frkRestart {P : FrkEpoch → Prop} (hP : ∀ q i f, P q → P (q.keptFor i f)) (l : List Nat) :
    ∀ s : Dev, (∀ q ∈ s.frk.queue, P q) → ∀ q ∈ (l.foldl Dev.frkRestart s).frk.queue, P q := by
  induction l with
  | nil => exact fun s h => h
  | cons i l ih =>
    intro s h
    refine ih _ ?_
    have hreset (st : FrkState) : ∀ q ∈ (s.frkReset i st).frk.queue, P q := by
      rw [Dev.queue_frkReset]
      intro q hq
      obtain ⟨q', hq', rfl⟩ := List.mem_map.1 hq
      exact hP q' i _ (h q' hq')
    unfold Dev.frkRestart
    split
    · exact hreset _
    · exact hreset _
    · exact hreset _
    · exact h

theorem FrkEpoch.eng_keptFor (q : FrkEpoch) (i : Nat) (f : Filt) : (q.keptFor i f).eng = q.eng ∧ (q.keptFor i f).tObs = q.tObs := by
  unfold FrkEpoch.keptFor
  split
  · exact ⟨rfl, rfl⟩
  · exact ⟨rfl, rfl⟩

theorem FrkEpoch.keptFor_or (q : FrkEpoch) (i : Nat) (f : Filt) : q.keptFor i f = q ∨ (q.keptFor i f).kept.isSome = true := by
  unfold FrkEpoch.keptFor
  split
  · exact .inr rfl
  · exact .inl rfl

theorem Dev.regsBut_frkRebase (s : Dev) (t : NT) : RegsBut [0x705C] s (s.frkRebase t) := by
  rw [Dev.frkRebase_eq]
  have hprune : RegsBut [0x705C] s (s.frkPruned t) := (RegsBut.of_frame (frame_withFrk s _) (by decide)).trans (.setFld _ _ (by decide))
  exact hprune.trans (.of_frame (Frame.foldl (c := [.gov, .frk]) Dev.frkRestart frame_frkRestart _ _) (by decide))

theorem Dev.queue_frkRebase (s : Dev) (t : NT) : (∀ q ∈ (s.frkRebase t).frk.queue, q ∈ s.frk.queue ∨ q.kept.isSome = true) ∧
    ∀ q ∈ (s.frkRebase t).frk.queue, q.eng = none → ntAfter t q.tObs = false := by
  rw [Dev.frkRebase_eq]
  constructor
  · refine Dev.queue_foldl_frkRestart (fun q i f h => ?_) _ _ fun q hq => .inl (List.mem_filter.1 hq).1
    rcases q.keptFor_or i f with hsame | hkept
    · rwa [hsame]
    · exact .inr hkept
  · refine Dev.queue_foldl_frkRestart (fun q i f h => ?_) _ _ fun q hq hnone => ?_
    · rw [(q.eng_keptFor i f).1, (q.eng_keptFor i f).2]
      exact h
    · have hstays := (List.mem_filter.1 hq).2
      simpa [hnone] using hstays

/-! #### What an epoch's consumers leave -/

/-- What the consumers of an epoch keep: the clock's accumulator and its powered time, the machines of R121 and the floor, and what the
engine keeps of the epoch itself. -/
def Dev.EpochKept (s t : Dev) : Prop :=
  t.clk.acc = s.clk.acc ∧ t.clk.up = s.clk.up ∧ (t.gns.sigs, t.gns.sta, t.gns.floor) = (s.gns.sigs, s.gns.sta, s.gns.floor) ∧
    t.gns.clk = s.gns.clk ∧ t.gns.epochAt = s.gns.epochAt ∧ t.gns.live = s.gns.live

namespace Dev.EpochKept

theorem refl (s : Dev) : s.EpochKept s := ⟨rfl, rfl, rfl, rfl, rfl, rfl⟩

theorem trans {s t u : Dev} (h : s.EpochKept t) (k : t.EpochKept u) : s.EpochKept u := by
  obtain ⟨h1, h2, h3, h4, h5, h6⟩ := h
  obtain ⟨k1, k2, k3, k4, k5, k6⟩ := k
  exact ⟨k1.trans h1, k2.trans h2, k3.trans h3, k4.trans h4, k5.trans h5, k6.trans h6⟩

theorem of_frame {a : List Area} {s t : Dev} (h : Frame a s t) (hc : .clk ∉ a) (hg : .gns ∉ a) : s.EpochKept t := by
  have hclk : t.clk = s.clk := h .clk hc
  have hgns : t.gns = s.gns := h .gns hg
  exact ⟨by rw [hclk], by rw [hclk], by rw [hgns], by rw [hgns], by rw [hgns], by rw [hgns]⟩

theorem ite {s t u : Dev} {c : Prop} [Decidable c] (ht : s.EpochKept t) (hu : s.EpochKept u) : s.EpochKept (if c then t else u) := by
  split
  · exact ht
  · exact hu

theorem foldl {α : Type} {f : Dev → α → Dev} (h : ∀ (s : Dev) a, s.EpochKept (f s a)) (l : List α) : ∀ s : Dev, s.EpochKept (l.foldl f s) := by
  induction l with
  | nil => exact fun s => .refl s
  | cons a l ih => exact fun s => (h s a).trans (ih _)

theorem station {s t : Dev} (h : s.EpochKept t) : t.station = s.station := by
  obtain ⟨-, -, h3, -⟩ := h
  rw [Prod.mk.injEq, Prod.mk.injEq] at h3
  rw [Dev.station, h3.2.1, h3.2.2]
  rfl

theorem sig {s t : Dev} (h : s.EpochKept t) (n : Nat) : t.sig n = s.sig n := by
  obtain ⟨-, -, h3, -⟩ := h
  rw [Prod.mk.injEq] at h3
  rw [Dev.sig, h3.1]
  rfl

theorem sourceLost (s : Dev) : s.EpochKept s.sourceLost := by
  have hup : s.sourceLost.clk.up = s.clk.up := by
    unfold Dev.sourceLost
    have hjudge (t : Dev) : t.judgeQual.clk = t.clk := frame_judgeQual t .clk (by decide)
    have hmodel (t : Dev) : t.startModel.clk = t.clk := frame_startModel t .clk (by decide)
    have hlost : (if s.tim.everLocked then ((s.holdTrim.startModel).setTime .holdover).judgeQual
        else (s.stopSlew.setTime .freeRun).judgeQual).clk.up = s.clk.up := by
      split
      · rw [hjudge, frame_setTime _ _ .clk (by decide), hmodel]
        rfl
      · rw [hjudge, frame_setTime _ _ .clk (by decide)]
        rfl
    split
    · rfl
    · split
      · exact hlost
      · exact hlost
      · rw [frame_event _ _ _ .clk (by decide), hjudge, frame_setTime _ _ .clk (by decide)]
      · rfl
  obtain ⟨hacc, -, -, -, hf⟩ := Dev.TimeJudged.sourceLost s
  have hg : s.sourceLost.gns = s.gns := hf .gns (by decide)
  exact ⟨hacc, hup, by rw [hg], by rw [hg], by rw [hg], by rw [hg]⟩

theorem integChange (s : Dev) (i o n c : Nat) : s.EpochKept (s.integChange i o n c) := by
  unfold Dev.integChange
  dsimp only
  have hnote (res : List Byte) (a b : Nat) : s.EpochKept ((s.event 0x0501 res).note a b res) :=
    .of_frame ((frame_event s _ _).append (frame_note _ _ _ _)) (by decide) (by decide)
  have hraise (t : Dev) (n : Nat) : t.EpochKept (t.raise n) := .of_frame (frame_raise t n) (by decide) (by decide)
  exact .ite (.refl s) (.ite ((hnote _ _ _).trans (hraise _ _)) (.ite ((hnote _ _ _).trans (hraise _ _)) (hnote _ _ _)))

theorem deviceHandover (s : Dev) : s.EpochKept s.deviceHandover :=
  foldl (fun s i => .of_frame ((frame_withTxu s _).append (frame_event _ _ _)) (by decide) (by decide)) _ s

theorem cutCapture (s : Dev) (t : NT) (b : List (List Byte)) : s.EpochKept (s.cutCapture t b) := by
  unfold Dev.cutCapture
  split
  · next c _ =>
    have h1 : s.EpochKept { s with gns := { s.gns with capture := none } } := ⟨rfl, rfl, rfl, rfl, rfl, rfl⟩
    exact ite (.refl s) (h1.trans (.of_frame ((frame_emit _ _).append (frame_done _ _ _ _)) (by decide) (by decide)))
  · exact .refl s

theorem autoCapture (s : Dev) (t : NT) (g : Nat) (b c : List (List Byte)) : s.EpochKept (s.autoCapture t g b c) := by
  unfold Dev.autoCapture
  extract_lets hold due s1 slot ports cap g2 d2 s2 s3
  refine ite (.refl s) ?_
  have h2 : s.EpochKept s2 := (cutCapture s t c).trans ⟨rfl, rfl, rfl, rfl, rfl, rfl⟩
  have h3 : s.EpochKept s3 := h2.trans (.of_frame (frame_note s2 _ _ _) (by decide) (by decide))
  exact ite h3 (h3.trans (.of_frame (frame_askLeave s3 _ _ _ _ _) (by decide) (by decide)))

theorem learnXc (s : Dev) (w : Nat) (l : List ClockTerm) : s.EpochKept (s.learnXc w l) := by
  unfold Dev.learnXc
  split
  · exact .refl s
  · exact ite ⟨rfl, rfl, rfl, rfl, rfl, rfl⟩ (.refl s)

theorem surveyBaseline (s : Dev) (t : NT) (b : Option (Int × Int × Int)) : s.EpochKept (s.surveyBaseline t b) := by
  have hgns (g : Gns) (h : (g.sigs, g.sta, g.floor) = (s.gns.sigs, s.gns.sta, s.gns.floor)) (hc : g.clk = s.gns.clk)
      (he : g.epochAt = s.gns.epochAt) (hl : g.live = s.gns.live) : s.EpochKept { s with gns := g } := ⟨rfl, rfl, h, hc, he, hl⟩
  unfold Dev.surveyBaseline
  refine ite (.refl s) ?_
  split
  · exact hgns _ rfl rfl rfl rfl
  · next x =>
    split
    · exact ite (hgns _ rfl rfl rfl rfl) (ite (.refl s) (ite (hgns _ rfl rfl rfl rfl)
        ((hgns { s.gns with baseline := 3, blSince := none } rfl rfl rfl rfl).trans (.of_frame (frame_raise _ _) (by decide) (by decide)))))
    · exact hgns _ rfl rfl rfl rfl

theorem adoptBase (s : Dev) (t : NT) (a : Adoption) : s.EpochKept (s.adoptBase t a) := by
  have h1 : s.EpochKept (s.bumpBase t) :=
    trans (t := { s with gns := { s.gns with baseSeq := if s.gns.baseSeq = 255 then 1 else s.gns.baseSeq + 1, held := [] } })
      ⟨rfl, rfl, rfl, rfl, rfl, rfl⟩ (.of_frame (frame_frkRebase _ t) (by decide) (by decide))
  have h2 (u : Dev) (g : Gns) (k : (g.sigs, g.sta, g.floor) = (u.gns.sigs, u.gns.sta, u.gns.floor)) (hc : g.clk = u.gns.clk)
      (he : g.epochAt = u.gns.epochAt) (hl : g.live = u.gns.live) : u.EpochKept (({ u with gns := g }).doneOpt a.handle stOK []) :=
    trans (t := { u with gns := g }) ⟨rfl, rfl, k, hc, he, hl⟩ (.of_frame (frame_doneOpt _ _ _ _) (by decide) (by decide))
  unfold Dev.adoptBase
  refine h1.trans ?_
  cases a.bl with
  | some b => exact h2 _ _ rfl rfl rfl rfl
  | none =>
    dsimp only
    split
    · exact h2 _ _ rfl rfl rfl rfl
    · exact h2 _ _ rfl rfl rfl rfl

theorem surveyEpoch (s : Dev) (t : NT) (w : Nat) (f : SkyFacts) : s.EpochKept (s.surveyEpoch t w f) := by
  unfold Dev.surveyEpoch
  split
  · exact .refl s
  · extract_lets v std g1 s1 g2 s2
    have h1 : s.EpochKept s1 := ⟨rfl, rfl, rfl, rfl, rfl, rfl⟩
    clear_value std
    cases std with
    | none => exact h1
    | some d => exact ite ((h1.trans (t := s1) (u := s2) ⟨rfl, rfl, rfl, rfl, rfl, rfl⟩).trans (adoptBase s2 t _)) h1

theorem rtcmEpoch (s : Dev) (t : NT) (k : Nat) (e : Bool) (n : List Byte) (p : List Obs) : s.EpochKept (s.rtcmEpoch t k e n p) := by
  have hemit (d : Dev) (o : Out) : d.EpochKept (d.emit o) := .of_frame (frame_emit d o) (by decide) (by decide)
  have hstream (d : Dev) (x : Option Stream) : d.EpochKept { d with gns := { d.gns with stream := x } } := ⟨rfl, rfl, rfl, rfl, rfl, rfl⟩
  have halign (d : Dev) (l : List Chan) (put : Chan → Chan → Chan) : d.EpochKept (d.keepAlign l put) := ⟨rfl, rfl, rfl, rfl, rfl, rfl⟩
  have hfld (d : Dev) (f : Fld) (v : Nat) : d.EpochKept (d.setFld f v) := .of_frame (frame_setFld d f v) (by decide) (by decide)
  unfold Dev.rtcmEpoch
  split
  · exact .refl s
  · next st _ =>
    refine ite (.refl s) (ite ((hstream s none).trans (.of_frame (frame_refuse _ _ _ _) (by decide) (by decide))) ?_)
    generalize s.rtcmMsms t k st p = m
    obtain ⟨msms, aligned, left⟩ := m
    dsimp -zeta only
    extract_lets frames bytes s1 s2 s3 s4 s5 st' g s6
    have h3 : s.EpochKept s3 := ((hfld s _ _).trans (hfld s1 _ _)).trans (halign s2 _ _)
    have h4 : s.EpochKept s4 := ite h3 (h3.trans (hemit s3 _))
    have h5 : s.EpochKept s5 := ite h4 (h4.trans (hemit s4 _))
    exact (h5.trans (hstream s5 _)).trans (.of_frame (frame_progress s6 _ _ _) (by decide) (by decide))

theorem airSet (s : Dev) (t : NT) (k : Nat) (p : List Obs) : s.EpochKept (s.airSet t k p) := by
  unfold Dev.airSet
  extract_lets div dnu air sats recent hasBase pieces pos head s1 g s2
  have h2 : s.EpochKept s2 := ⟨rfl, rfl, rfl, rfl, rfl, rfl⟩
  exact ite (.refl s) (h2.trans (foldl (fun d q => .of_frame (frame_queueAll d _) (by decide) (by decide)) _ s2))

theorem liveEpoch (s : Dev) (p : Option (Int × Int × Int)) : Dev.EpochKept { s with gns := { s.gns with live := p } } (s.liveEpoch p) := by
  cases p with
  | none => exact .refl _
  | some x =>
    have hcheck : Dev.EpochKept { s with gns := { s.gns with live := some x } }
        { s with gns := { s.gns with live := some x, unchecked := false } } := ⟨rfl, rfl, rfl, rfl, rfl, rfl⟩
    exact ite (hcheck.trans (ite (.of_frame (frame_raise _ _) (by decide) (by decide)) (.refl _))) (.refl _)

theorem measurePorts (w : Nat) (l : List (Int × Nat)) (s : Dev) : s.EpochKept (l.foldl (fun s p => s.measurePort w p.2 p.1) s) :=
  foldl (f := fun s p => s.measurePort w p.2 p.1) (fun _ _ => ⟨rfl, rfl, rfl, rfl, rfl, rfl⟩) l s

end Dev.EpochKept

/-! #### Integrity (R121, R122) -/

theorem Integ.st_step_forced (x : Integ) (t : NT) (v a b c d : Nat) (w : Bool) : (x.step t v a b c d true w).st = 2 := by
  unfold Integ.step
  dsimp only
  rw [if_pos rfl]
  split
  · assumption
  · rfl

theorem Dev.st_stepInteg_forced {s : Dev} (h : s.flag (0x514C, 0, 1) = true) (t : NT) (x : Integ) (v : Nat) : (s.stepInteg t x v).st = 2 := by
  unfold Dev.stepInteg
  rw [h]
  exact Integ.st_step_forced _ _ _ _ _ _ _ _

theorem Dev.judgeFloor_le (s : Dev) (svs : List SkySv) (obs : List Obs) : s.judgeFloor svs obs ≤ 2 := by
  unfold Dev.judgeFloor
  dsimp only
  split_ifs <;> omega

/-- An entry written to a table by a run of writes holds what one of them wrote. -/
theorem Tab.get_foldl_set {α β : Type} [DecidableEq α] {d : Nat → α} {P : α → Prop} (i : β → Nat) (v : β → α) (hv : ∀ b, P (v b)) (n : Nat)
    (l : List β) : ∀ t : Tab α, (P (Tab.get d t n) ∨ n ∈ l.map i) → P (Tab.get d (l.foldl (fun t b => Tab.set d t (i b) (v b)) t) n) := by
  induction l with
  | nil => exact fun t h => h.elim id fun hn => absurd hn (by simp)
  | cons b l ih =>
    intro t h
    refine ih _ ?_
    rw [Tab.get_set]
    by_cases hn : n = i b
    · rw [if_pos hn]
      exact .inl (hv b)
    · rw [if_neg hn]
      rw [List.map_cons, List.mem_cons] at h
      exact h.imp id fun hm => hm.resolve_left hn

theorem Dev.judgeEpoch_spec (s : Dev) (t : NT) (hz : Nat) (f : SkyFacts) (obs : List Obs) :
    (s.judgeEpoch t hz f obs).clk.acc = s.clk.acc ∧ (s.judgeEpoch t hz f obs).clk.up = s.clk.up ∧
      (s.judgeEpoch t hz f obs).gns.clk = some (f.bias, f.drift) ∧ (s.judgeEpoch t hz f obs).gns.epochAt = s.gns.epochAt ∧
      (s.flag (0x514C, 0, 1) = true → (∀ n, n < 16 → ((s.judgeEpoch t hz f obs).sig n).st = 2) ∧ (s.judgeEpoch t hz f obs).station = 2) := by
  unfold Dev.judgeEpoch
  extract_lets ids devs vs clk xcs loc worst checks old oldSta sigs sta g1 s1 g2 s2 news nowSta s3 s4 s5 s6 trig
  have hforced (h : s.flag (0x514C, 0, 1) = true) : (∀ n, n < 16 → (s2.sig n).st = 2) ∧ s2.station = 2 := by
    constructor
    · intro n hn
      refine Tab.get_foldl_set (P := fun x : Integ => x.st = 2) (fun p : Nat × Nat × Nat × Nat × Nat => p.1)
        (fun p => s.stepInteg t (s.sig p.1) (max (max p.2.1 p.2.2.1) (max p.2.2.2.1 p.2.2.2.2)))
        (fun p => Dev.st_stepInteg_forced h t _ _) n (ids.zip vs) s.gns.sigs (.inr ?_)
      have hfst : (ids.zip vs).map (·.1) = ids := List.map_fst_zip (by rw [List.length_map])
      rw [hfst]
      exact List.mem_range.2 hn
    · have hsta : sta.st = 2 := Dev.st_stepInteg_forced h t _ _
      have hle : s1.judgeFloor f.svs obs ≤ 2 := Dev.judgeFloor_le _ _ _
      show max sta.st (s1.judgeFloor f.svs obs) = 2
      omega
  have hraised : s2.EpochKept s4 :=
    (Dev.EpochKept.foldl (f := fun (d : Dev) (p : Nat × Nat × Nat) => d.integChange p.1 p.2.1 p.2.2 checks)
      (fun d p => .integChange d _ _ _ _) _ s2).trans (.integChange s3 _ _ _ _)
  have h5 : s2.EpochKept s5 := hraised.trans (.ite (.sourceLost s4) (.refl s4))
  have h6 : s2.EpochKept s6 := h5.trans (.ite (.deviceHandover s5) (.refl s5))
  have hspec (u : Dev) (hu : s2.EpochKept u) : u.clk.acc = s.clk.acc ∧ u.clk.up = s.clk.up ∧ u.gns.clk = some (f.bias, f.drift) ∧
      u.gns.epochAt = s.gns.epochAt ∧ (s.flag (0x514C, 0, 1) = true → (∀ n, n < 16 → (u.sig n).st = 2) ∧ u.station = 2) := by
    obtain ⟨hacc, hup, -, hclk, hat, -⟩ := id hu
    refine ⟨hacc, hup, hclk, hat, fun h => ⟨fun n hn => ?_, ?_⟩⟩
    · rw [hu.sig]
      exact (hforced h).1 n hn
    · rw [hu.station]
      exact (hforced h).2
  split
  · exact hspec _ (h6.trans (.autoCapture s6 _ _ _ _))
  · exact hspec _ h6

/-- A published epoch: its consumers keep the clock and the machines of R121, and the engine tracks with the epoch held. -/
theorem Dev.publish_spec (s : Dev) (t : NT) (hz : Nat) (f : SkyFacts) (swap : Bool) (obs : List Obs) :
    let d := s.publish t hz f swap obs
    d.clk.acc = s.clk.acc ∧ d.clk.up = s.clk.up ∧ d.gns.engine = 2 ∧ d.gns.gap = false ∧ d.gns.live = f.live ∧
      d.gns.clk = some (f.bias, f.drift) ∧ d.gns.held.getLast?.map (·.t) = some t ∧ d.gns.epochAt = s.gns.epochAt ∧
      (s.flag (0x514C, 0, 1) = true → (∀ n, n < 16 → (d.sig n).st = 2) ∧ d.station = 2) := by
  unfold Dev.publish
  extract_lets k w s1 s2 native passing s3 cells slips keep g d
  let ports : List (Int × Nat) := f.ports.zip (List.range s.nPorts)
  let m : Dev := ports.foldl (fun s p => s.measurePort w p.2 p.1) s
  have hm : s.EpochKept m := .measurePorts w ports s
  have hregs : m.regs = s.regs := 
    Frame.foldl (c := [.gns]) (fun (s : Dev) (p : Int × Nat) => s.measurePort w p.2 p.1) (fun d _ => frame_setPort d _ _) ports s .regs (by decide)
  obtain ⟨macc, mup, -, -, mat, -⟩ := hm
  obtain ⟨jacc, jup, jclk, jat, jst⟩ := Dev.judgeEpoch_spec m t hz f obs
  have hflag : s.flag (0x514C, 0, 1) = true → m.flag (0x514C, 0, 1) = true := fun h => by
    rw [← h]
    exact Dev.flag_of_reg (by rw [Dev.reg, hregs]; rfl)
  let j : Dev := s1.learnXc w f.clocks
  have hj : s1.EpochKept j := .learnXc s1 w f.clocks
  let lv : Dev := { j with gns := { j.gns with live := f.live } }
  have hlive : lv.EpochKept (j.liveEpoch f.live) := .liveEpoch j f.live
  have h3 : lv.EpochKept s3 := hlive.trans ((Dev.EpochKept.surveyBaseline _ t f.base).trans ((Dev.EpochKept.surveyEpoch _ t w f).trans
    ((Dev.EpochKept.rtcmEpoch s2 t k f.werr native passing).trans (.airSet _ t k passing))))
  have hd : s3.sig = d.sig ∧ s3.station = d.station := ⟨rfl, rfl⟩
  have hlsig (n : Nat) : lv.sig n = s1.sig n := hj.sig n
  have hlsta : lv.station = s1.station := hj.station
  obtain ⟨h3acc, h3up, -, h3clk, h3at, h3live⟩ := id h3
  obtain ⟨hjacc, hjup, -, hjclk, hjat, -⟩ := hj
  refine ⟨h3acc.trans (hjacc.trans (jacc.trans macc)), h3up.trans (hjup.trans (jup.trans mup)), rfl, rfl, h3live,
    h3clk.trans (hjclk.trans jclk), ?_, h3at.trans (hjat.trans (jat.trans mat)), fun h => ⟨fun n hn => ?_, ?_⟩⟩
  · show ((keep ++ [({ t, cells, slips } : HeldEpoch)]).getLast?).map HeldEpoch.t = some t
    rw [List.getLast?_concat]
    rfl
  · rw [← hd.1, h3.sig, hlsig]
    exact (jst (hflag h)).1 n hn
  · rw [← hd.2, h3.station, hlsta]
    exact (jst (hflag h)).2

/-! #### Before the measurements -/

theorem frame_atEpoch (s : Dev) (t : NT) : Frame [.clk, .out, .gns] s (s.atEpoch t) := (frame_tickTo s t).append (frame_withGns (s.tickTo t) _)

theorem Dev.takeUtc_spec (s : Dev) (u : Option UtcFacts) : RegsBut [0x4048, fLeapSec.1] s (s.takeUtc u) ∧ Frame [.regs] s (s.takeUtc u) := by
  unfold Dev.takeUtc
  cases u with
  | none => exact ⟨.refl _ s, .refl _ s⟩
  | some x =>
    have hstep {d : Dev} (h : RegsBut [0x4048, fLeapSec.1] s d ∧ Frame [.regs] s d) (g : Fld) (v : Nat) (hg : g.1 ∈ [0x4048, fLeapSec.1]) :
        RegsBut [0x4048, fLeapSec.1] s (d.setFld g v) ∧ Frame [.regs] s (d.setFld g v) :=
      ⟨h.1.trans (.setFld d v hg), h.2.trans (frame_setFld d g v)⟩
    have h0 : RegsBut [0x4048, fLeapSec.1] s s ∧ Frame [.regs] s s := ⟨.refl _ s, .refl _ s⟩
    exact hstep (hstep (hstep (hstep (hstep h0 _ _ (by decide)) _ _ (by decide)) _ _ (by decide)) _ _ (by decide)) _ _ (by decide)

theorem frame_calSwap (s : Dev) (t : NT) : Frame [.gns] s (s.calSwap t).1 := by
  unfold Dev.calSwap
  split
  · split
    · exact (frame_moveGrp s _ _ _).trans (frame_withGns _ _)
    · exact frame_withGns s _
  · exact frame_withGns s _

theorem frame_assign (s : Dev) (svs : List SkySv) : Frame [.gns, .flt, .todo] s (s.assign svs) := by
  unfold Dev.assign
  extract_lets g s1 r g2 s2
  have h2 : Frame [.gns] s s2 := (frame_withGns s _).trans (frame_withGns s1 _)
  exact .ite (h2.append (frame_raiseLevel s2 _)) ((h2.append (frame_fallLevel s2 _)).mono (by decide))

theorem frame_observe (s : Dev) (t : NT) (ms : List Meas) : Frame [.gns] s (s.observe t ms).1 := frame_withGns s _

theorem frame_epochMeasured (s : Dev) (t : NT) (f : SkyFacts) : Frame [.gns, .flt, .todo] s (s.epochMeasured t f) :=
  (((frame_calSwap s t).append (frame_assign _ f.svs)).append (frame_observe _ t f.meas)).mono (by decide)

theorem Dev.epochAt_calSwap (s : Dev) (t : NT) : (s.calSwap t).1.gns.epochAt = s.gns.epochAt := by
  unfold Dev.calSwap
  split
  · split
    · rfl
    · rfl
  · rfl

theorem Dev.epochAt_assign (s : Dev) (svs : List SkySv) : (s.assign svs).gns.epochAt = s.gns.epochAt := by
  unfold Dev.assign
  extract_lets g s1 r g2 s2
  split
  · rw [frame_raiseLevel s2 _ .gns (by decide)]
  · rw [frame_fallLevel s2 _ .gns (by decide)]

theorem Dev.epochAt_epochMeasured (s : Dev) (t : NT) (f : SkyFacts) : (s.epochMeasured t f).gns.epochAt = s.gns.epochAt :=
  (Dev.epochAt_assign (s.calSwap t).1 f.svs).trans (Dev.epochAt_calSwap s t)

/-- With nothing that waits for it, an epoch boundary changes nothing (R90, R95, R97). -/
theorem Dev.epochBoundary_quiet {s : Dev} (t : NT) (ha : s.gns.adopt = none) (hn : s.gns.streamNext = none)
    (hr : s.fld (0x5014, 24, 1) = s.gns.refAnt) : s.epochBoundary t = s := by
  unfold Dev.epochBoundary
  rw [ha]
  dsimp only
  rw [if_neg (fun h => h hr), hn]

theorem CompletesThen.gnssEpoch_published {s : State} (f : SkyFacts) {e : NT} (he : e = s.nextDue (nextEpoch s.epochHz) s.gns.epochAt)
    (hz : s.epochHz ≠ 0) (hp : s.upd.pause ≠ some 2) (hen : s.gns.engine ≠ 0) (hnt : s.tim.ntValid = true) (ha : s.gns.adopt = none)
    (hn : s.gns.streamNext = none) (hr : s.fld (0x5014, 24, 1) = s.gns.refAnt) :
    CompletesThen (.gnssEpoch f) s fun d => d.clk.acc = (s.clk.run (s.clk.cyclesTo e)).acc ∧ d.up = (s.clk.run (s.clk.cyclesTo e)).up ∧
      d.gns.engine = 2 ∧ d.gns.gap = false ∧ d.gns.live = f.live ∧ d.gns.clk = some (f.bias, f.drift) ∧
      d.gns.held.getLast?.map (·.t) = some e ∧ d.gns.epochAt = e ∧
      (s.flag (0x514C, 0, 1) = true → (∀ n, n < 16 → (d.sig n).st = 2) ∧ d.station = 2) := by
  let u : Dev := (s.atEpoch e).epochReady e f
  let m : Dev := u.epochMeasured e f
  have hquiet : u = (s.atEpoch e).takeUtc f.utc := by
    show ((s.atEpoch e).epochBoundary e).takeUtc f.utc = _
    rw [Dev.epochBoundary_quiet e (s := s.atEpoch e) ha hn hr]
  obtain ⟨hregs, hutc⟩ := Dev.takeUtc_spec (s.atEpoch e) f.utc
  rw [← hquiet] at hregs hutc
  have hgns : u.gns = (s.atEpoch e).gns := hutc .gns (by decide)
  have hm : Frame [.gns, .flt, .todo] u m := frame_epochMeasured u e f
  have hclk : m.clk = s.clk.run (s.clk.cyclesTo e) := (hm .clk (by decide)).trans (hutc .clk (by decide))
  have htim : m.tim = s.tim := (hm .tim (by decide)).trans (hutc .tim (by decide))
  have hreg : m.reg 0x514C = s.reg 0x514C := (congrArg (Tab.get _ · 0x514C) (hm .regs (by decide))).trans (hregs 0x514C (by decide))
  have hat : m.gns.epochAt = e := (Dev.epochAt_epochMeasured u e f).trans (by rw [hgns]; rfl)
  have heff := exec_gnssEpoch_published f he hz hp (by rw [show ((s.atEpoch e).epochReady e f).gns = _ from hgns]; exact hen)
    (by rw [show (((s.atEpoch e).epochReady e f).epochMeasured e f).tim = _ from htim]; exact hnt)
  obtain ⟨h1, h2, h3, h4, h5, h6, h7, h8, h9⟩ := Dev.publish_spec m e s.epochHz f (u.calSwap e).2 (u.epochObs e f)
  exact .of_effect heff ⟨h1.trans (by rw [hclk]), h2.trans (by rw [hclk]), h3, h4, h5, h6, h7, h8.trans hat,
    fun hforce => h9 ((Dev.flag_of_reg (f := (0x514C, 0, 1)) hreg).trans hforce)⟩

/-! #### Epochs that are not published -/

theorem Dev.epochMissed_spec (s : Dev) : s.epochMissed.gns = { s.gns with gap := true, airGap := true } ∧
    s.epochMissed.todo = s.todo ++ (if s.gns.base ≠ 0 then [.fault 0x47 false] else []) ∧ Frame [.gns, .todo] s s.epochMissed := by
  unfold Dev.epochMissed
  dsimp only
  have hg := frame_withGns s { s.gns with gap := true, airGap := true }
  split
  · exact ⟨rfl, rfl, hg.append (frame_raise _ _)⟩
  · exact ⟨rfl, (List.append_nil _).symm, hg.mono (by decide)⟩

theorem CompletesThen.gnssEpoch_paused {s : State} (f : SkyFacts) {e : NT} (he : e = s.nextDue (nextEpoch s.epochHz) s.gns.epochAt)
    (hz : s.epochHz ≠ 0) (hp : s.upd.pause = some 2) :
    CompletesThen (.gnssEpoch f) s fun d => d.clk = s.clk.run (s.clk.cyclesTo e) ∧
      d.gns = { s.gns with gap := true, airGap := true, epochAt := e } ∧
      d.todo = s.todo ++ (if s.gns.base ≠ 0 then [.fault 0x47 false] else []) ∧ Frame [.clk, .out, .gns, .todo] s.toDev d := by
  obtain ⟨hg, ht, hf⟩ := Dev.epochMissed_spec (s.atEpoch e)
  exact .of_effect (exec_gnssEpoch_paused f he hz hp) ⟨hf .clk (by decide), hg, ht, ((frame_atEpoch s.toDev _).append hf).mono (by decide)⟩

/-- The device with an adopted position in its fields, before its command is answered (R90). -/
def Dev.adopted (s : Dev) (t : NT) (a : Adoption) : Dev :=
  let s := s.bumpBase t
  let arp := a.arp.getD (s.gns.antHeight, s.gns.antData.1, s.gns.antData.2)
  let g := { s.gns with base := a.kind, pos := a.pos, antHeight := arp.1, antData := arp.2, adopt := none,
                        adoptAt := some t, unchecked := a.check, blSince := none }
  let g := match a.bl with
    | some b => { g with baseline := 2, bl := b }
    | none => if s.antB then { g with baseline := 1, bl := (0, 0, 0) } else g
  { s with gns := g }

theorem Dev.adopted_spec (s : Dev) (t : NT) (a : Adoption) :
    (s.adopted t a).gns.base = a.kind ∧ (s.adopted t a).gns.pos = a.pos ∧ (s.adopted t a).gns.adopt = none ∧
      (s.adopted t a).gns.engine = s.gns.engine ∧ (s.adopted t a).gns.streamNext = s.gns.streamNext ∧
      (s.adopted t a).gns.refAnt = s.gns.refAnt ∧
      (s.adopted t a).gns.baseSeq = (if s.gns.baseSeq = 255 then 1 else s.gns.baseSeq + 1) ∧
      (s.adopted t a).frk = (Dev.frkRebase { s with gns := { s.gns with baseSeq := if s.gns.baseSeq = 255 then 1 else s.gns.baseSeq + 1, held := [] } } t).frk ∧
      Frame [.gns, .frk, .regs, .gov] s (s.adopted t a) := by
  let w : Dev := { s with gns := { s.gns with baseSeq := if s.gns.baseSeq = 255 then 1 else s.gns.baseSeq + 1, held := [] } }
  have hw : Frame [.gns, .frk, .regs, .gov] s (w.frkRebase t) := ((frame_withGns s _).append (frame_frkRebase w t)).mono (by decide)
  have hg : (w.frkRebase t).gns = w.gns := frame_frkRebase w t .gns (by decide)
  have hgns (d : Dev) (g : Gns) : Frame [.gns, .frk, .regs, .gov] d { d with gns := g } := (frame_withGns d g).mono (by decide)
  have heng : (w.frkRebase t).gns.engine = s.gns.engine := by rw [hg]
  have hnext : (w.frkRebase t).gns.streamNext = s.gns.streamNext := by rw [hg]
  have href : (w.frkRebase t).gns.refAnt = s.gns.refAnt := by rw [hg]
  have hseq : (w.frkRebase t).gns.baseSeq = w.gns.baseSeq := by rw [hg]
  unfold Dev.adopted
  cases a.bl with
  | some b => exact ⟨rfl, rfl, rfl, heng, hnext, href, hseq, rfl, hw.trans (hgns _ _)⟩
  | none =>
    dsimp only
    split
    · exact ⟨rfl, rfl, rfl, heng, hnext, href, hseq, rfl, hw.trans (hgns _ _)⟩
    · exact ⟨rfl, rfl, rfl, heng, hnext, href, hseq, rfl, hw.trans (hgns _ _)⟩

theorem Dev.regsBut_adopted (s : Dev) (t : NT) (a : Adoption) : RegsBut [0x705C] s (s.adopted t a) :=
  let w : Dev := { s with gns := { s.gns with baseSeq := if s.gns.baseSeq = 255 then 1 else s.gns.baseSeq + 1, held := [] } }
  ((RegsBut.of_frame (frame_withGns s _) (by decide)).trans (Dev.regsBut_frkRebase w t)).trans (.of_frame (frame_withGns (w.frkRebase t) _) (by decide))

/-- A position that waits is adopted at an epoch boundary (R90). -/
theorem Dev.epochBoundary_adopts {s : Dev} (t : NT) {a : Adoption} (ha : s.gns.adopt = some a) (hn : s.gns.streamNext = none)
    (hr : s.fld (0x5014, 24, 1) = s.gns.refAnt) : s.epochBoundary t = (s.adopted t a).doneOpt a.handle stOK [] := by
  obtain ⟨-, -, -, -, hnext, href, -⟩ := Dev.adopted_spec s t a
  have hf := frame_doneOpt (s.adopted t a) a.handle stOK []
  have hg : (s.adoptBase t a).gns = (s.adopted t a).gns := hf .gns (by decide)
  have hfld : (s.adoptBase t a).fld (0x5014, 24, 1) = s.fld (0x5014, 24, 1) :=
    (Dev.fld_of_reg (Dev.reg_of_frame hf (by decide) _)).trans ((Dev.regsBut_adopted s t a).fld_eq (by decide))
  have hif : (if (s.adoptBase t a).fld (0x5014, 24, 1) ≠ (s.adoptBase t a).gns.refAnt then
      Dev.bumpBase { s.adoptBase t a with gns := { (s.adoptBase t a).gns with refAnt := (s.adoptBase t a).fld (0x5014, 24, 1) } } t
      else s.adoptBase t a) = s.adoptBase t a := if_neg fun h => h (by rw [hfld, hg, href, hr])
  unfold Dev.epochBoundary
  rw [ha]
  dsimp only
  rw [hif, hg, hnext, hn]
  rfl

theorem CompletesThen.gnssEpoch_adopts {s : State} (f : SkyFacts) {a : Adoption} {l : Live} {h : Nat} {e : NT}
    (he : e = s.nextDue (nextEpoch s.epochHz) s.gns.epochAt) (hz : s.epochHz ≠ 0) (hp : s.upd.pause ≠ some 2) (hen : s.gns.engine = 0)
    (ha : s.gns.adopt = some a) (hh : a.handle = some h) (hw : s.Waits h l) (hn : s.gns.streamNext = none)
    (hr : s.fld (0x5014, 24, 1) = s.gns.refAnt) :
    CompletesThen (.gnssEpoch f) s fun d => d.Answered l stOK [] ∧ d.gns.base = a.kind ∧ d.gns.pos = a.pos ∧ d.gns.adopt = none ∧
        d.gns.baseSeq = (if s.gns.baseSeq = 255 then 1 else s.gns.baseSeq + 1) ∧ (∀ q ∈ d.frk.queue, q ∈ s.frk.queue ∨ q.kept.isSome = true) ∧
        (∀ q ∈ d.frk.queue, q.eng = none → ntAfter e q.tObs = false) ∧ d.clk = s.clk.run (s.clk.cyclesTo e) := by
  obtain ⟨hbase, hpos, hadopt, heng, -, -, hseq, hfrk, hf1⟩ := Dev.adopted_spec (s.atEpoch e) e a
  have hregs := (RegsBut.of_frame (frame_atEpoch s.toDev e) (by decide)).trans (Dev.regsBut_adopted (s.atEpoch e) e a)
  have hq := Dev.queue_frkRebase { s.atEpoch e with gns := { (s.atEpoch e).gns with
    baseSeq := if (s.atEpoch e).gns.baseSeq = 255 then 1 else (s.atEpoch e).gns.baseSeq + 1, held := [] } } e
  rw [← hfrk] at hq
  have hready : (s.atEpoch e).epochReady e f = (((s.atEpoch e).adopted e a).done h stOK []).takeUtc f.utc := by
    show ((s.atEpoch e).epochBoundary e).takeUtc f.utc = _
    rw [Dev.epochBoundary_adopts e (s := s.atEpoch e) ha hn hr, hh]
    rfl
  have hall := (frame_atEpoch s.toDev e).append hf1
  generalize (s.atEpoch e).adopted e a = u at *
  obtain ⟨-, hutc⟩ := Dev.takeUtc_spec (u.done h stOK []) f.utc
  obtain ⟨-, -, -, -, hring⟩ := id hw
  have hcq : u.reg (cqEn l.cq).1 = s.reg (cqEn l.cq).1 := hregs _ (by
    rw [List.mem_singleton]
    exact cqEn_ne hring (by decide))
  have hans : (u.done h stOK []).Answered l stOK [] := (hw.of_frame hall (by decide) hcq).done _ _
  have hrest := (frame_done u h stOK []).append hutc
  generalize hv : (u.done h stOK []).takeUtc f.utc = v at *
  obtain ⟨hvg, -, hvf⟩ := Dev.epochMissed_spec v
  have hvgns : v.gns = u.gns := hrest .gns (by decide)
  have hvfrk : v.epochMissed.frk = u.frk := (hvf .frk (by decide)).trans (hrest .frk (by decide))
  have hclk : v.epochMissed.clk = s.clk.run (s.clk.cyclesTo e) :=
    (hvf .clk (by decide)).trans ((hrest .clk (by decide)).trans (hf1 .clk (by decide)))
  have heff := exec_gnssEpoch_stopped f he hz hp (by rw [hready, hvgns, heng]; exact hen)
  rw [hready] at heff
  refine .of_effect heff ⟨(hans.of_frame hutc (by decide)).of_frame hvf (by decide), ?_, ?_, ?_, ?_, ?_, ?_, hclk⟩
  · rw [hvg, hvgns]
    exact hbase
  · rw [hvg, hvgns]
    exact hpos
  · rw [hvg, hvgns]
    exact hadopt
  · rw [hvg, hvgns]
    exact hseq
  · rw [hvfrk]
    exact hq.1
  · rw [hvfrk]
    exact hq.2

/-- Settles O43: epochs, surveys, base positions, streams and raw captures of the reference station, a lemma for each. -/
theorem theReferenceStationPublishesAndSurveys : Obligations.TheReferenceStationPublishesAndSurveys :=
  ⟨fun _ f _ he hz hp hen hnt ha hn hr => .gnssEpoch_published f he hz hp hen hnt ha hn hr, fun _ f _ he hz hp => .gnssEpoch_paused f he hz hp,
    fun _ f _ _ _ _ he hz hp hen ha hh hw hn hr => .gnssEpoch_adopts f he hz hp hen ha hh hw hn hr,
    fun _ werr _ _ hs hv hout hw hroom => .surveyProgress werr hs hv hout hw hroom, fun _ _ _ hs hv hm hw => .surveyTimeout hs hv hm hw,
    fun _ _ _ _ _ hs hr hlegal hmay ha hl hant hforce hfar => .gnssSetBase_mismatch hs hr hlegal hmay ha hl hant hforce hfar,
    fun _ _ _ hs hr hstop hlen hnext => .corrStreamCfg hs hr hstop hlen hnext,
    fun _ _ _ hs hr hlen hports hfree => .gnssRawCapture hs hr hlen hports hfree, fun _ _ hs hc hrun => .rawCaptureStart hs hc hrun,
    fun _ _ _ _ hs hc hrun hw => .rawCaptureDone hs hc hrun hw⟩

end Sys2Proof.Machine

/-! ### Frames that go out (R316, R317, R324, R327, R334) -/
namespace Sys2Proof.Machine

/-! #### A launch -/

/-- What a launch gives: the frame with its header and protection, `TXGO`, and the listen template (R313, R314, R317). -/
def Dev.launchOut (s : Dev) (n : Nat) (t : NT) (f : TxFrame) : List Out :=
  [Out.radio n (s.template 0 ++ s.psdu f), Out.txgo n t] ++ (if s.template 3 = [] then [] else [Out.radio n (s.template 3)])

/-- What a launch is made of depends on the registers, the frame counter and the keys alone. -/
structure Dev.SameRadio (s t : Dev) : Prop where
  regs : t.regs = s.regs
  fcnt : t.mac.fcnt = s.mac.fcnt
  keys : t.mac.keys = s.mac.keys

theorem Dev.SameRadio.reg {s t : Dev} (h : s.SameRadio t) (o : Nat) : t.reg o = s.reg o := by rw [Dev.reg, h.regs, Dev.reg]

theorem Dev.SameRadio.template {s t : Dev} (h : s.SameRadio t) (k : Nat) : t.template k = s.template k := by
  have hlen : t.cmdLen k = s.cmdLen k := Dev.fld_of_reg (h.reg _)
  rw [Dev.template, h.reg, h.reg, hlen, Dev.template]

theorem Dev.SameRadio.psdu {s t : Dev} (h : s.SameRadio t) (f : TxFrame) : t.psdu f = s.psdu f := by
  have hkey : t.keyOctets f.key = s.keyOctets f.key := by rw [Dev.keyOctets, h.keys, Dev.keyOctets]
  have hnonce (c : Nat) : t.nonce 1 c = s.nonce 1 c := by rw [Dev.nonce, h.reg, Dev.nonce]
  rw [Dev.psdu, h.fcnt, hkey, hnonce, Dev.psdu]

theorem Dev.SameRadio.launchOut {s t : Dev} (h : s.SameRadio t) (n : Nat) (e : NT) (f : TxFrame) : t.launchOut n e f = s.launchOut n e f := by
  rw [Dev.launchOut, h.template, h.template, h.psdu, Dev.launchOut]

theorem Dev.SameRadio.launchAt {s t : Dev} (h : s.SameRadio t) (n k : Nat) : t.launchAt n k = s.launchAt n k := by
  rw [Dev.launchAt, Dev.fld_of_reg (h.reg _), Dev.launchAt]

theorem Dev.SameRadio.withClk (s : Dev) (c : Clock) : s.SameRadio { s with clk := c } := ⟨rfl, rfl, rfl⟩

theorem Dev.psdu_ne_nil (s : Dev) (f : TxFrame) : (s.psdu f).isEmpty = false := rfl

theorem Dev.out_radio (s : Dev) (n : Nat) (b : List Byte) : (s.radio n b).out = s.out ++ (if b = [] then [] else [.radio n b]) := by
  unfold Dev.radio
  cases b with
  | nil => exact (List.append_nil _).symm
  | cons x b => rfl

theorem Dev.regsBut_countSent (s : Dev) (n : Nat) : RegsBut [0xD030, 0xD118 + 0x40 * n] s (s.countSent n) :=
  ((RegsBut.of_frame (frame_takeFcnt s) (by decide)).trans (.setFld s.takeFcnt _ (by simp))).trans (.setFld _ _ (by simp))

theorem Dev.mac_countSent (s : Dev) (n : Nat) : (s.countSent n).mac = { s.mac with fcnt := (s.mac.fcnt + 1) % 2 ^ 48 } := rfl

theorem Dev.regsBut_launch (s : Dev) (n : Nat) (t : NT) (f : TxFrame) : RegsBut [0xD030, 0xD118 + 0x40 * n] s (s.launch n t f) :=
  let u : Dev := (s.radio n (s.template 0 ++ s.psdu f)).emit (.txgo n t)
  ((RegsBut.of_frame ((frame_radio s n _).trans (frame_emit _ _)) (by decide)).trans (u.regsBut_countSent n)).trans
    (.of_frame (frame_radio (u.countSent n) n (s.template 3)) (by decide))

/-- A launch takes the next frame counter (R324). -/
theorem Dev.mac_launch (s : Dev) (n : Nat) (t : NT) (f : TxFrame) : (s.launch n t f).mac = { s.mac with fcnt := (s.mac.fcnt + 1) % 2 ^ 48 } := by
  let u : Dev := (s.radio n (s.template 0 ++ s.psdu f)).emit (.txgo n t)
  have hu : u.mac = s.mac := ((frame_radio s n _).trans (frame_emit _ _)) .mac (by decide)
  have h : (s.launch n t f).mac = (u.countSent n).mac := frame_radio (u.countSent n) n (s.template 3) .mac (by decide)
  rw [h, Dev.mac_countSent, hu]

theorem Dev.lane_launch (s : Dev) (n m : Nat) (t : NT) (f : TxFrame) : (s.launch n t f).lane m = s.lane m := by
  rw [Dev.lane, s.mac_launch n t f]
  rfl

theorem Dev.out_launch (s : Dev) (n : Nat) (t : NT) (f : TxFrame) : (s.launch n t f).out = s.out ++ s.launchOut n t f := by
  let u : Dev := (s.radio n (s.template 0 ++ s.psdu f)).emit (.txgo n t)
  have hne : s.template 0 ++ s.psdu f ≠ [] := fun h => by
    have h2 := (List.append_eq_nil_iff.1 h).2
    have h3 := s.psdu_ne_nil f
    rw [h2] at h3
    exact absurd h3 (by decide)
  have hu : u.out = s.out ++ [Out.radio n (s.template 0 ++ s.psdu f), Out.txgo n t] := by
    show (s.radio n (s.template 0 ++ s.psdu f)).out ++ [Out.txgo n t] = _
    rw [Dev.out_radio, if_neg hne, List.append_assoc]
    rfl
  show ((u.countSent n).radio n (s.template 3)).out = _
  rw [Dev.out_radio, show (u.countSent n).out = u.out from rfl, hu, List.append_assoc, Dev.launchOut]

/-! #### The repeats of a fleet-wide stop (R327) -/

/-- One repeat on one lane: the slot is its last, and the stop goes out with its number. -/
def Dev.stopRepeated (s : Dev) (n k rep : Nat) (b : StopBurst) : Dev :=
  let s := s.setLane n { s.lane n with lastSlot := k }
  (s.launch n (s.launchAt n k) (stopFrame rep b.cause b.at_)).emit (.allStop n b.cause rep)

/-- The burst after a repeat. -/
def StopBurst.after (b : StopBurst) (n k rep : Nat) : Option StopBurst :=
  if rep = 3 then none else some { b with lanes := [(n, if (k + 1) % 50 = 0 then k + 2 else k + 1, rep + 1)] }

theorem exec_allStopRepeat {s : State} {b : StopBurst} {n k rep : Nat} {e : NT} (hb : s.saf.burst = some b) (hl : b.lanes = [(n, k, rep)])
    (hst : (s.lane n).st = .inService) (he : e = BitVec.ofNat 64 (slotStart k + usTicks 40)) (htok : (s.tickTo e).holdsToken = true) :
    exec .allStopRepeat s = s.act fun _ => { (s.tickTo e).stopRepeated n k rep b with
      saf := { ((s.tickTo e).stopRepeated n k rep b).saf with burst := b.after n k rep } } := by
  subst he
  show execAllStopRepeat s = _
  unfold execAllStopRepeat
  refine State.act_congr ?_
  rw [hb]
  dsimp -zeta only
  have hmin : (b.lanes.map (·.2.1)).min? = some k := by rw [hl]; rfl
  rw [hmin]
  dsimp -zeta only
  extract_lets s1 due s2 next lanes g
  have hdue : due = [(n, k, rep)] := by
    show b.lanes.filter _ = _
    have hst' : (s1.lane n).st = .inService := hst
    have htok' : s1.holdsToken = true := htok
    rw [hl]
    simp [hst', htok']
  have hlanes : lanes = if rep = 3 then [] else [(n, next, rep + 1)] := by
    show b.lanes.filterMap _ = _
    rw [hl]
    by_cases h3 : rep = 3 <;> simp [h3]
  have h2 : s2 = s1.stopRepeated n k rep b := by
    show due.foldl _ s1 = _
    rw [hdue]
    rfl
  have hg : g = (s1.stopRepeated n k rep b).saf := by
    show s2.saf = _
    rw [h2]
  have hburst : (if lanes.isEmpty then none else some { b with lanes }) = b.after n k rep := by
    rw [hlanes]
    unfold StopBurst.after
    by_cases h3 : rep = 3
    · rw [if_pos h3, if_pos h3]
      rfl
    · rw [if_neg h3, if_neg h3]
      rfl
  rw [h2, hburst, hg]

theorem frame_stopRepeated (s : Dev) (n k rep : Nat) (b : StopBurst) : Frame [.mac, .nv, .regs, .out] s (s.stopRepeated n k rep b) :=
  let u := s.setLane n { s.lane n with lastSlot := k }
  ((frame_setLane s n _).append ((frame_launch u n (u.launchAt n k) (stopFrame rep b.cause b.at_)).append (frame_emit _ _))).mono (by decide)

theorem Dev.stopRepeated_spec (s : Dev) (n k rep : Nat) (b : StopBurst) :
    (s.stopRepeated n k rep b).out = s.out ++ s.launchOut n (s.launchAt n k) (stopFrame rep b.cause b.at_) ++ [Out.allStop n b.cause rep] ∧
      (s.stopRepeated n k rep b).mac.fcnt = (s.mac.fcnt + 1) % 2 ^ 48 ∧ (s.stopRepeated n k rep b).lane n = { s.lane n with lastSlot := k } ∧
      RegsBut [0xD030, 0xD118 + 0x40 * n] s (s.stopRepeated n k rep b) := by
  let u := s.setLane n { s.lane n with lastSlot := k }
  let f := stopFrame rep b.cause b.at_
  have hsame : s.SameRadio u := ⟨rfl, rfl, rfl⟩
  have hl := u.out_launch n (u.launchAt n k) f
  rw [hsame.launchOut, hsame.launchAt] at hl
  have hm := u.mac_launch n (u.launchAt n k) f
  have hlane := u.lane_launch n n (u.launchAt n k) f
  have hregs : RegsBut [0xD030, 0xD118 + 0x40 * n] s (u.launch n (u.launchAt n k) f) :=
    (RegsBut.of_frame (frame_setLane s n _) (by decide)).trans (u.regsBut_launch n _ f)
  have heq : s.stopRepeated n k rep b = (u.launch n (u.launchAt n k) f).emit (.allStop n b.cause rep) := rfl
  rw [hsame.launchAt] at hm hlane hregs heq
  rw [heq]
  generalize u.launch n (s.launchAt n k) f = w at *
  exact ⟨congrArg (· ++ [Out.allStop n b.cause rep]) hl, congrArg Mac.fcnt hm, hlane.trans ((Dev.lane_setLane s n n _).trans (if_pos rfl)), hregs⟩

theorem Completes.allStopRepeat {s : State} {b : StopBurst} {n k rep : Nat} (hs : s.Settled) (hb : s.saf.burst = some b)
    (hl : b.lanes = [(n, k, rep)]) (hst : (s.lane n).st = .inService)
    (htok : (s.tickTo (BitVec.ofNat 64 (slotStart k + usTicks 40))).holdsToken = true) :
    Completes .allStopRepeat s fun t => t.out = s.launchOut n (s.launchAt n k) (stopFrame rep b.cause b.at_) ++ [Out.allStop n b.cause rep] ∧
      t.mac.fcnt = (s.mac.fcnt + 1) % 2 ^ 48 ∧
      t.lane n = { s.lane n with lastSlot := k } ∧ t.saf = { s.saf with
        burst := if rep = 3 then none else some { b with lanes := [(n, if (k + 1) % 50 = 0 then k + 2 else k + 1, rep + 1)] } } ∧
      t.clk = s.clk.run (s.clk.cyclesTo (BitVec.ofNat 64 (slotStart k + usTicks 40))) ∧
      RegsBut [0xD030, 0xD118 + 0x40 * n] s.toDev t ∧ Frame [.clk, .out, .mac, .nv, .regs, .saf] s.toDev t := by
  obtain ⟨e, he⟩ : ∃ e : NT, e = BitVec.ofNat 64 (slotStart k + usTicks 40) := ⟨_, rfl⟩
  rw [← he] at htok ⊢
  have heff := exec_allStopRepeat hb hl hst he htok
  have hsame : s.SameRadio (s.tickTo e) := ⟨rfl, rfl, rfl⟩
  obtain ⟨hout, hfcnt, hlane, hregs⟩ := Dev.stopRepeated_spec (s.tickTo e) n k rep b
  rw [hsame.launchOut, hsame.launchAt] at hout
  have hw := frame_stopRepeated (s.tickTo e) n k rep b
  generalize (s.tickTo e).stopRepeated n k rep b = w at *
  have htick := frame_tickTo s.toDev e
  have hsaf : w.saf = s.saf := (hw .saf (by decide)).trans (htick .saf (by decide))
  have hrest := frame_withSaf w { w.saf with burst := b.after n k rep }
  have hall := ((htick.append hw).append hrest).mono (d := [.clk, .out, .mac, .nv, .regs, .saf]) (by decide)
  refine .of_effect hs hall heff (by decide) (by decide) ⟨hout, hfcnt, hlane, ?_, hw .clk (by decide),
    ((RegsBut.of_frame htick (by decide)).trans hregs).trans (.of_frame hrest (by decide)), hall⟩
  rw [hsaf]
  rfl

/-! #### A frame of the host and its acknowledgement (R316, R317, R334) -/

/-- The launch of a frame in slot `k` of a lane, with what the `SFD` edge tells. -/
def Dev.txSent (s : Dev) (n k : Nat) (f : TxFrame) (sfd : Bool) : Dev :=
  let s := s.launch n (s.launchAt n k) f
  let l := s.lane n
  let s := s.setLane n { l with lastSlot := s.lastOf n k, noSfd := if sfd then 0 else l.noSfd + 1 }
  if sfd then s.emit (.frame n f.type_ f.dst f.body) else s.cntSat (0xD118 + 0x40 * n, 16, 16)

/-- A device after its lane `n` has sent a frame in slot `k`. -/
def Dev.txLaunched (s : Dev) (n k : Nat) (f : TxFrame) (sfd : Bool) : Dev :=
  Dev.txSent { s with clk := s.clk.run (s.clk.cyclesTo (s.launchAt n k)) } n k f sfd

/-- Frames of the host's commands are not late here: their own deadline ends them (R344). -/
theorem Dev.dropLate_sends {s : Dev} (n : Nat) (h : ∀ f ∈ s.mac.txq, f.handle.isNone = false) : s.dropLate n = s := by
  let late : TxFrame → Bool := fun f =>
    f.lane == n && f.handle.isNone && (match f.until_ with | some t => ntReached s.nt t | none => false)
  have hlate : ∀ f ∈ s.mac.txq, late f = false := fun f hf => by
    show (f.lane == n && f.handle.isNone && _) = false
    rw [h f hf, Bool.and_false, Bool.false_and]
  have hnone : s.mac.txq.filter late = [] := List.filter_eq_nil_iff.2 fun f hf => by rw [hlate f hf]; exact Bool.false_ne_true
  have hall : (s.mac.txq.filter fun f => !late f) = s.mac.txq := List.filter_eq_self.2 fun f hf => by rw [hlate f hf]; rfl
  show (List.range (s.mac.txq.filter late).length).foldl (fun s _ => (s.cntSat (0xD038, 16, 16)).raise 0x85)
    { s with mac := { s.mac with txq := s.mac.txq.filter fun f => !late f } } = s
  rw [hnone, hall]
  rfl

theorem exec_frameTransmit {s : State} {n k h : Nat} {f : TxFrame} (sfd acked : Bool) (hst : (s.lane n).st = .inService)
    (hbc : s.beaconing = true) (htok : s.holdsToken = true) (hq : s.mac.txq = [f]) (hh : f.handle = some h)
    (hnext : s.nextSend n = some (k, f)) (hty : f.type_ = 12) :
    exec (.frameTransmit n sfd acked) s = s.act fun _ => ((s.begin.txLaunched n k f sfd).afterSend f (sfd && acked)).checkSfd n := by
  have hlate : s.begin.dropLate n = s.begin := Dev.dropLate_sends n fun g hg => by
    have hg' : g ∈ s.mac.txq := hg
    rw [hq, List.mem_singleton] at hg'
    rw [hg', hh]
    rfl
  show execFrameTransmit n sfd acked s = _
  unfold execFrameTransmit
  refine State.act_congr ?_
  rw [if_neg (by rw [hst, hbc, htok]; decide), hlate]
  extract_lets s0
  rw [show s0.nextSend n = some (k, f) from hnext]
  dsimp -zeta only
  extract_lets s1 f1
  have hf1 : f1 = f := if_neg (by rw [hty]; decide)
  show ((s1.txSent n k f1 sfd).afterSend f1 (sfd && acked)).checkSfd n = _
  rw [hf1]
  rfl

theorem frame_txSent (s : Dev) (n k : Nat) (f : TxFrame) (sfd : Bool) : Frame [.out, .mac, .nv, .regs] s (s.txSent n k f sfd) := by
  let u := s.launch n (s.launchAt n k) f
  have hu : Frame [.mac, .nv, .regs, .out] s u := frame_launch s n _ f
  unfold Dev.txSent
  exact .ite (((hu.append (frame_setLane u n _)).append (frame_emit _ _)).mono (by decide))
    (((hu.append (frame_setLane u n _)).append (frame_cntSat _ _)).mono (by decide))

theorem frame_txLaunched (s : Dev) (n k : Nat) (f : TxFrame) (sfd : Bool) : Frame [.clk, .out, .mac, .nv, .regs] s (s.txLaunched n k f sfd) :=
  (frame_withClk s _).append (frame_txSent _ n k f sfd)

theorem Dev.regsBut_txLaunched (s : Dev) (n k : Nat) (f : TxFrame) (sfd : Bool) : RegsBut [0xD030, 0xD118 + 0x40 * n] s (s.txLaunched n k f sfd) := by
  let w : Dev := { s with clk := s.clk.run (s.clk.cyclesTo (s.launchAt n k)) }
  let u := w.launch n (w.launchAt n k) f
  have hu : RegsBut [0xD030, 0xD118 + 0x40 * n] s u :=
    (RegsBut.of_frame (frame_withClk s _) (by decide)).trans (w.regsBut_launch n _ f)
  have hl : RegsBut [0xD030, 0xD118 + 0x40 * n] u (u.setLane n { u.lane n with lastSlot := u.lastOf n k, noSfd := if sfd then 0 else (u.lane n).noSfd + 1 }) :=
    .of_frame (frame_setLane u n _) (by decide)
  unfold Dev.txLaunched Dev.txSent
  dsimp only
  split
  · exact hu.trans hl
  · exact (hu.trans hl).trans (.setFld _ _ (by simp))

/-- The plan words are not among the counters of a launch. -/
theorem Dev.lastOf_of_regsBut {s t : Dev} {n : Nat} (h : RegsBut [0xD030, 0xD118 + 0x40 * n] s t) (k : Nat) : t.lastOf n k = s.lastOf n k := by
  have hreg (j : Nat) : t.reg (0xD800 + 0x100 * n + 4 * j) = s.reg (0xD800 + 0x100 * n + 4 * j) :=
    h _ (by simp only [List.mem_cons, List.not_mem_nil, or_false]; omega)
  unfold Dev.lastOf
  simp only [hreg]

theorem Dev.mac_setLane (s : Dev) (n : Nat) (l : Lane) :
    (s.setLane n l).mac = { s.mac with lanes := Tab.set (fun _ => {}) s.mac.lanes n l } := rfl

/-- What a frame sent leaves in the MAC: the lane with its last slot and its missed edges, and the next frame counter. -/
theorem Dev.mac_txLaunched (s : Dev) (n k : Nat) (f : TxFrame) (sfd : Bool) :
    (s.txLaunched n k f sfd).mac = { s.mac with
        fcnt := (s.mac.fcnt + 1) % 2 ^ 48
        lanes := Tab.set (fun _ => {}) s.mac.lanes n { s.lane n with lastSlot := s.lastOf n k, noSfd := if sfd then 0 else (s.lane n).noSfd + 1 } } := by
  let w : Dev := { s with clk := s.clk.run (s.clk.cyclesTo (s.launchAt n k)) }
  let u := w.launch n (w.launchAt n k) f
  have hm : u.mac = { s.mac with fcnt := (s.mac.fcnt + 1) % 2 ^ 48 } := w.mac_launch n _ f
  have hlane : u.lane n = s.lane n := w.lane_launch n n _ f
  have hlast : u.lastOf n k = s.lastOf n k := Dev.lastOf_of_regsBut (s := s) (w.regsBut_launch n _ f) k
  have hset : (u.setLane n { u.lane n with lastSlot := u.lastOf n k, noSfd := if sfd then 0 else (u.lane n).noSfd + 1 }).mac = { s.mac with
        fcnt := (s.mac.fcnt + 1) % 2 ^ 48
        lanes := Tab.set (fun _ => {}) s.mac.lanes n { s.lane n with lastSlot := s.lastOf n k, noSfd := if sfd then 0 else (s.lane n).noSfd + 1 } } := by
    rw [hlane, hlast, Dev.mac_setLane, hm]
  unfold Dev.txLaunched Dev.txSent
  dsimp only
  split
  · next hsfd =>
    rw [hsfd] at hset
    exact hset
  · next hsfd =>
    rw [Bool.eq_false_iff.2 hsfd] at hset
    exact hset

/-- What a frame sent gives (R314, R316, R317). -/
theorem Dev.out_txLaunched (s : Dev) (n k : Nat) (f : TxFrame) :
    (s.txLaunched n k f true).out = s.out ++ s.launchOut n (s.launchAt n k) f ++ [Out.frame n f.type_ f.dst f.body] := by
  have hsame := Dev.SameRadio.withClk s (s.clk.run (s.clk.cyclesTo (s.launchAt n k)))
  have hl := Dev.out_launch { s with clk := s.clk.run (s.clk.cyclesTo (s.launchAt n k)) } n (s.launchAt n k) f
  rw [hsame.launchOut] at hl
  unfold Dev.txLaunched Dev.txSent
  rw [hsame.launchAt]
  exact congrArg (· ++ [Out.frame n f.type_ f.dst f.body]) hl

end Sys2Proof.Machine

/-! ### Acknowledged, tried again, and a lane that fails (R316, R334) -/
namespace Sys2Proof.Machine

/-- A device whose one frame of a send is gone, before the command is answered. -/
def Dev.sentAll (s : Dev) (h : Nat) : Dev := { s with mac := { s.mac with sends := s.mac.sends.filter (fun x => x.1 != h), txq := [] } }

theorem filter_order_self (f : TxFrame) : ([f].filter fun x => x.order != f.order) = [] := by simp

/-- A data frame of a send that is acknowledged ends its send where it is its last (R334, R344). -/
theorem Dev.afterSend_acked {s : Dev} {f : TxFrame} {h : Nat} (hb : f.batch = []) (hty : f.type_ = 12) (hh : f.handle = some h)
    (hq : s.mac.txq = [f]) : s.afterSend f true = (s.sentAll h).done h stOK (leBytes f.tries 1) := by
  have hcfg : isConfig f = false := by rw [isConfig, hty]; rfl
  have hdrop : (s.dropFrame f).mac.txq = [] := by
    show s.mac.txq.filter _ = []
    rw [hq, filter_order_self]
  have hdone : s.frameDone f = (s.sentAll h).done h stOK (leBytes f.tries 1) := by
    unfold Dev.frameDone
    rw [hh]
    dsimp only
    rw [hdrop]
    refine (if_neg (by simp)).trans ?_
    unfold Dev.sendDone
    rw [hdrop]
    rfl
  unfold Dev.afterSend
  rw [hb, List.foldl_nil, if_neg (by rw [hcfg]; exact Bool.false_ne_true)]
  exact (if_pos (Bool.or_true _)).trans hdone

/-- A data frame without its acknowledgement stands for another try while tries remain (R334). -/
theorem Dev.afterSend_retried {s : Dev} {f : TxFrame} (hb : f.batch = []) (hty : f.type_ = 12) (hdst : f.dst ≠ 0xFFFF)
    (htry : f.tries < s.fld (0xD014, 0, 2)) (hq : s.mac.txq = [f]) :
    s.afterSend f false = { s with mac := { s.mac with txq := [{ f with tries := f.tries + 1 }] } } := by
  have hcfg : isConfig f = false := by rw [isConfig, hty]; rfl
  have hmap : mapWhere (fun x => x.order == f.order) (fun x => { x with tries := x.tries + 1 }) s.mac.txq = [{ f with tries := f.tries + 1 }] := by
    rw [hq]
    simp [mapWhere]
  unfold Dev.afterSend
  rw [hb, List.foldl_nil, if_neg (by rw [hcfg]; exact Bool.false_ne_true)]
  dsimp only
  rw [if_neg (by simp [hty, hdst]), if_neg (by rw [hty]; decide), if_pos htry, hmap, hb]

theorem Dev.checkSfd_few {s : Dev} {n : Nat} (h : (s.lane n).noSfd < 3) : s.checkSfd n = s := if_neg (by omega)

theorem Dev.lane_txLaunched (s : Dev) (n k m : Nat) (f : TxFrame) (sfd : Bool) : (s.txLaunched n k f sfd).lane m =
    if m = n then { s.lane n with lastSlot := s.lastOf n k, noSfd := if sfd then 0 else (s.lane n).noSfd + 1 } else s.lane m := by
  rw [Dev.lane, Dev.mac_txLaunched]
  exact Tab.get_set _ _ _ _ _

theorem Dev.txq_txLaunched (s : Dev) (n k : Nat) (f : TxFrame) (sfd : Bool) : (s.txLaunched n k f sfd).mac.txq = s.mac.txq := by
  rw [Dev.mac_txLaunched]

theorem Completes.frameTransmit_acked {s : State} {n k h : Nat} {f : TxFrame} {l : Live} (hs : s.Settled) (hst : (s.lane n).st = .inService)
    (hbc : s.beaconing = true) (htok : s.holdsToken = true) (hq : s.mac.txq = [f]) (hh : f.handle = some h)
    (hnext : s.nextSend n = some (k, f)) (hb : f.batch = []) (hty : f.type_ = 12) (hw : s.Waits h l) :
    Completes (.frameTransmit n true true) s fun t => .frame n 12 f.dst f.body ∈ t.out ∧ .radio n (s.template 0 ++ s.psdu f) ∈ t.out ∧
        .txgo n (s.launchAt n k) ∈ t.out ∧ t.mac.txq = [] ∧ t.mac.fcnt = (s.mac.fcnt + 1) % 2 ^ 48 ∧
        t.Answered l stOK (leBytes f.tries 1) ∧ (t.lane n).noSfd = 0 ∧ (t.lane n).lastSlot = s.lastOf n k ∧
        t.clk = s.clk.run (s.clk.cyclesTo (s.launchAt n k)) ∧ Frame [.clk, .out, .hif, .mac, .nv, .regs] s.toDev t := by
  have heff := exec_frameTransmit true true hst hbc htok hq hh hnext hty
  have hlane := s.begin.lane_txLaunched n k n f true
  rw [if_pos rfl] at hlane
  have hmac := s.begin.mac_txLaunched n k f true
  have hout := s.begin.out_txLaunched n k f
  have hregs := s.begin.regsBut_txLaunched n k f true
  have hf := (frame_begin s.toDev).append (frame_txLaunched s.begin n k f true)
  have hclk : (s.begin.txLaunched n k f true).clk = s.clk.run (s.clk.cyclesTo (s.launchAt n k)) :=
    frame_txSent { s.begin with clk := s.clk.run (s.clk.cyclesTo (s.launchAt n k)) } n k f true .clk (by decide)
  rw [Bool.and_self, Dev.afterSend_acked hb hty hh ((s.begin.txq_txLaunched n k f true).trans hq)] at heff
  generalize s.begin.txLaunched n k f true = u at *
  have hdone := frame_done (u.sentAll h) h stOK (leBytes f.tries 1)
  have hz : Frame [.mac] u (u.sentAll h) := frame_withMac u _
  have hdl : ((u.sentAll h).done h stOK (leBytes f.tries 1)).lane n = { s.lane n with lastSlot := s.lastOf n k, noSfd := 0 } :=
    (Dev.lane_of_frame hdone (by decide) n).trans hlane
  rw [Dev.checkSfd_few (by rw [hdl]; exact Nat.zero_lt_succ 2)] at heff
  have hmem {o : Out} (ho : o ∈ s.launchOut n (s.launchAt n k) f ++ [Out.frame n f.type_ f.dst f.body]) :
      o ∈ ((u.sentAll h).done h stOK (leBytes f.tries 1)).out := by
    refine Dev.mem_out_done h stOK _ ?_
    show o ∈ u.out
    rw [hout]
    exact ho
  have hcq : (u.sentAll h).reg (cqEn l.cq).1 = s.reg (cqEn l.cq).1 := by
    obtain ⟨-, -, -, -, hring⟩ := hw
    refine hregs _ ?_
    simp only [List.mem_cons, List.not_mem_nil, or_false, cqEn]
    omega
  have hall := ((hf.append hz).append hdone).mono (d := [.clk, .out, .hif, .mac, .nv, .regs]) (by decide)
  refine .of_effect hs hall heff (by decide) (by decide) ⟨?_, ?_, ?_, ?_, ?_, ?_, ?_, ?_, ?_, hall⟩
  · refine hmem (List.mem_append_right _ ?_)
    rw [hty]
    exact List.mem_cons_self
  · exact hmem (List.mem_append_left _ (List.mem_append_left _ List.mem_cons_self))
  · exact hmem (List.mem_append_left _ (List.mem_append_left _ (List.mem_cons_of_mem _ List.mem_cons_self)))
  · rw [hdone .mac (by decide)]
    rfl
  · rw [hdone .mac (by decide)]
    show u.mac.fcnt = _
    rw [hmac]
    rfl
  · exact (hw.of_frame (hf.append hz) (by decide) hcq).done _ _
  · rw [hdl]
  · rw [hdl]
  · exact (hdone .clk (by decide)).trans hclk

theorem Completes.frameTransmit_retried {s : State} {n k h : Nat} {f : TxFrame} (hs : s.Settled) (hst : (s.lane n).st = .inService)
    (hbc : s.beaconing = true) (htok : s.holdsToken = true) (hq : s.mac.txq = [f]) (hh : f.handle = some h)
    (hnext : s.nextSend n = some (k, f)) (hb : f.batch = []) (hty : f.type_ = 12) (hdst : f.dst ≠ 0xFFFF) (htry : f.tries < s.fld (0xD014, 0, 2)) :
    Completes (.frameTransmit n true false) s fun t => t.out = s.launchOut n (s.launchAt n k) f ++ [Out.frame n f.type_ f.dst f.body] ∧
        t.mac.txq = [{ f with tries := f.tries + 1 }] ∧ t.mac.sends = s.mac.sends ∧
        t.clk = s.clk.run (s.clk.cyclesTo (s.launchAt n k)) ∧ Frame [.clk, .out, .mac, .nv, .regs] s.toDev t := by
  have heff := exec_frameTransmit true false hst hbc htok hq hh hnext hty
  have hlane := s.begin.lane_txLaunched n k n f true
  rw [if_pos rfl] at hlane
  have hmac := s.begin.mac_txLaunched n k f true
  have hout := s.begin.out_txLaunched n k f
  have hregs := s.begin.regsBut_txLaunched n k f true
  have hf := (frame_begin s.toDev).append (frame_txLaunched s.begin n k f true)
  have hclk : (s.begin.txLaunched n k f true).clk = s.clk.run (s.clk.cyclesTo (s.launchAt n k)) :=
    frame_txSent { s.begin with clk := s.clk.run (s.clk.cyclesTo (s.launchAt n k)) } n k f true .clk (by decide)
  have htry' : f.tries < (s.begin.txLaunched n k f true).fld (0xD014, 0, 2) := by
    rw [hregs.fld_eq (by simp only [List.mem_cons, List.not_mem_nil, or_false]; omega)]
    exact htry
  rw [Bool.and_false, Dev.afterSend_retried hb hty hdst htry' ((s.begin.txq_txLaunched n k f true).trans hq)] at heff
  generalize s.begin.txLaunched n k f true = u at *
  have hz := frame_withMac u { u.mac with txq := [{ f with tries := f.tries + 1 }] }
  rw [Dev.checkSfd_few (s := { u with mac := { u.mac with txq := [{ f with tries := f.tries + 1 }] } })
    (by rw [show Dev.lane { u with mac := { u.mac with txq := [{ f with tries := f.tries + 1 }] } } n = _ from hlane]; exact Nat.zero_lt_succ 2)] at heff
  have hall := (hf.append hz).mono (d := [.clk, .out, .mac, .nv, .regs]) (by decide)
  exact .of_effect hs hall heff (by decide) (by decide) ⟨hout, rfl, by rw [hmac]; rfl, hclk, hall⟩

/-- The end of a send touches no lane. -/
theorem Dev.lanes_sendDone (s : Dev) (h code r : Nat) : (s.sendDone h code r).mac.lanes = s.mac.lanes := by
  unfold Dev.sendDone
  rw [frame_done _ h code _ .mac (by decide)]

theorem Dev.lanes_frameDone (s : Dev) (f : TxFrame) : (s.frameDone f).mac.lanes = s.mac.lanes := by
  unfold Dev.frameDone
  dsimp only
  split
  · split
    · rfl
    · exact Dev.lanes_sendDone _ _ _ _
  · rfl

theorem Dev.lanes_afterSend {s : Dev} {f : TxFrame} (hb : f.batch = []) (b : Bool) : (s.afterSend f b).mac.lanes = s.mac.lanes := by
  unfold Dev.afterSend
  rw [hb, List.foldl_nil]
  dsimp only
  split
  · split
    · rfl
    · rfl
  · split
    · exact Dev.lanes_frameDone s f
    · split
      · rfl
      · split
        · rfl
        · split
          · exact Dev.lanes_sendDone _ _ _ _
          · rfl

theorem Dev.lane_failLane (s : Dev) (n m : Nat) :
    (s.failLane n).lane m = if m = n then { s.lane n with st := .failed, noSfd := 0, badRd := 0 } else s.lane m := by
  rw [← Dev.lane_setLane]
  unfold Dev.failLane
  rw [Dev.lane_of_frame (frame_raise _ 0x80) (by decide), Dev.lane, Dev.mac_dropLane]
  rfl

theorem Dev.txq_failLane (s : Dev) (n : Nat) : ∀ x ∈ (s.failLane n).mac.txq, x.lane ≠ n := by
  intro x hx
  unfold Dev.failLane at hx
  rw [frame_raise _ 0x80 .mac (by decide), Dev.mac_dropLane] at hx
  simpa using (List.mem_filter.1 hx).2

theorem Dev.todo_failLane (s : Dev) (n : Nat) : (s.failLane n).todo = s.todo ++ [.fault 0x80 false] := by
  show (Dev.dropLane _ n).todo ++ [Todo.fault 0x80 false] = _
  rw [frame_dropLane _ n .todo (by decide)]
  rfl

theorem frame_failLane (s : Dev) (n : Nat) : Frame [.mac, .que, .todo] s (s.failLane n) :=
  ((frame_setLane s n _).append ((frame_dropLane _ n).append (frame_raise _ 0x80))).mono (by decide)

theorem CompletesThen.frameTransmit_fails {s : State} {n k h : Nat} {f : TxFrame} (hst : (s.lane n).st = .inService)
    (hbc : s.beaconing = true) (htok : s.holdsToken = true) (hq : s.mac.txq = [f]) (hh : f.handle = some h)
    (hnext : s.nextSend n = some (k, f)) (hb : f.batch = []) (hty : f.type_ = 12) (hsfd : (s.lane n).noSfd = 2) :
    CompletesThen (.frameTransmit n false false) s fun d => (d.lane n).st = .failed ∧ .fault 0x80 false ∈ d.todo ∧
        (∀ m, m ≠ n → d.lane m = s.lane m) ∧ (∀ x ∈ d.mac.txq, x.lane ≠ n) := by
  have heff := exec_frameTransmit false false hst hbc htok hq hh hnext hty
  have hlane (m : Nat) : ((s.begin.txLaunched n k f false).afterSend f (false && false)).lane m =
      if m = n then { s.lane n with lastSlot := s.lastOf n k, noSfd := (s.lane n).noSfd + 1 } else s.lane m := by
    rw [Dev.lane, Dev.lanes_afterSend hb]
    exact s.begin.lane_txLaunched n k m f false
  generalize (s.begin.txLaunched n k f false).afterSend f (false && false) = u at *
  have hfail : u.checkSfd n = u.failLane n := if_pos (by
    rw [hlane, if_pos rfl]
    show 3 ≤ (s.lane n).noSfd + 1
    omega)
  rw [hfail] at heff
  refine .of_effect heff ⟨by rw [Dev.lane_failLane, if_pos rfl], ?_, fun m hm => ?_, u.txq_failLane n⟩
  · rw [Dev.todo_failLane]
    exact List.mem_append_right _ List.mem_cons_self
  · rw [Dev.lane_failLane, if_neg hm, hlane, if_neg hm]

end Sys2Proof.Machine

/-! ### Frames that come in (R316, R321, R338) -/
namespace Sys2Proof.Machine

/-- A lane's engine reads a frame out and listens again (R314). -/
def Dev.rxListens (s : Dev) (n : Nat) : Dev := (s.radio n (s.template 1)).radio n (s.template 3)

/-- A device that has read a frame of a good length. -/
def Dev.rxRead (s : Dev) (n : Nat) : Dev :=
  ((s.rxListens n).setLane n { s.lane n with badRd := 0 }).cntWrap (0xD114 + 0x40 * n, 0, 16)

/-- The instant of a frame's `SFD` edge at the antenna (R64, R313). -/
def Dev.rxSfd (s : Dev) (n age : Nat) : NT := ntAdd s.nt (-(age : Int) - nsTicks (s.fld (lnTSfd n)))

theorem frame_rxListens (s : Dev) (n : Nat) : Frame [.out] s (s.rxListens n) := (frame_radio s n _).trans (frame_radio _ n _)

theorem frame_rxRead (s : Dev) (n : Nat) : Frame [.out, .mac, .regs] s (s.rxRead n) :=
  ((frame_rxListens s n).append ((frame_setLane _ n _).append (frame_cntWrap _ _))).mono (by decide)

theorem Dev.regsBut_rxRead (s : Dev) (n : Nat) : RegsBut [0xD114 + 0x40 * n] s (s.rxRead n) :=
  (RegsBut.of_frame ((frame_rxListens s n).append (frame_setLane _ n _)) (by decide)).trans
    (.cntWrap _ (0xD114 + 0x40 * n, 0, 16))

theorem Dev.mac_rxRead (s : Dev) (n : Nat) : (s.rxRead n).mac = { s.mac with lanes := (s.rxRead n).mac.lanes } ∧
    (s.rxRead n).lane n = { s.lane n with badRd := 0 } := by
  have hm : (s.rxRead n).mac = ((s.rxListens n).setLane n { s.lane n with badRd := 0 }).mac := rfl
  have hl : (s.rxListens n).mac = s.mac := frame_rxListens s n .mac (by decide)
  rw [Dev.lane, hm, Dev.mac_setLane, hl]
  exact ⟨rfl, Tab.get_set_self _ _ _ _⟩

theorem Dev.fld_rxRead (s : Dev) (n : Nat) :
    (s.rxRead n).fld (0xD114 + 0x40 * n, 0, 16) = wrapInc 16 (s.fld (0xD114 + 0x40 * n, 0, 16)) :=
  (Dev.fld_cntWrap _ _ (by simp)).trans
    (congrArg (wrapInc 16) (Dev.fld_of_frame ((frame_rxListens s n).append (frame_setLane _ n _)) (by decide) _))

/-- What is made of a frame read (R321, R338). -/
def Dev.rxJudged (s : Dev) (n len : Nat) (sfd : NT) (f : List Byte) : Dev :=
  if fcs32 (f.take (len - 4)) ≠ leAt f (len - 4) 4 then s.cntSat (0xD114 + 0x40 * n, 16, 16)
  else if !frameOk len f then s.cntSat (0xD030, 16, 16)
  else (s.sendAck n sfd f).judgeFrame n sfd f

theorem exec_frameReceive_read {s : State} {dt n len age : Nat} {b f : List Byte} (hst : (s.lane n).st = .inService) (hboot : s.saf.run ≠ .boot)
    (hoff : s.saf.run ≠ .off) (h4 : 4 ≤ len) (h511 : len ≤ 511) (hf : f = slice b 0 len) :
    exec (.frameReceive dt n len age b) s =
      s.act fun _ => ((s.tick dt).rxRead n).rxJudged n len (((s.tick dt).rxRead n).rxSfd n age) f := by
  subst hf
  show execFrameReceive dt n len age b s = _
  unfold execFrameReceive
  refine State.act_congr ?_
  extract_lets s1 l
  have hl : l.st = .inService := hst
  have hrun : s1.saf.run = s.saf.run := rfl
  rw [if_neg (by rw [hl, hrun]; simp [hboot, hoff])]
  exact if_neg (by simp; omega)

/-- A device whose lane has read a bad length. -/
def Dev.rxBad (s : Dev) (n : Nat) : Dev := (s.rxListens n).setLane n { s.lane n with badRd := (s.lane n).badRd + 1 }

theorem exec_frameReceive_bad {s : State} {dt n len age : Nat} {b : List Byte} (hst : (s.lane n).st = .inService) (hboot : s.saf.run ≠ .boot)
    (hoff : s.saf.run ≠ .off) (hlen : len < 4 ∨ 511 < len) (hbad : (s.lane n).badRd = 2) :
    exec (.frameReceive dt n len age b) s = s.act fun _ => ((s.tick dt).rxBad n).failLane n := by
  show execFrameReceive dt n len age b s = _
  unfold execFrameReceive
  refine State.act_congr ?_
  extract_lets s1 l
  have hl : l.st = .inService := hst
  have hrun : s1.saf.run = s.saf.run := rfl
  rw [if_neg (by rw [hl, hrun]; simp [hboot, hoff])]
  rw [if_pos (by simpa using hlen)]
  exact if_pos hbad

theorem CompletesThen.frameReceive_fails {s : State} (dt : Nat) {n len : Nat} (age : Nat) (b : List Byte) (hst : (s.lane n).st = .inService)
    (hboot : s.saf.run ≠ .boot) (hoff : s.saf.run ≠ .off) (hlen : len < 4 ∨ 511 < len) (hbad : (s.lane n).badRd = 2) :
    CompletesThen (.frameReceive dt n len age b) s fun d => (d.lane n).st = .failed ∧ d.todo = s.todo ++ [.fault 0x80 false] ∧
        (∀ m, m ≠ n → d.lane m = s.lane m) ∧ Frame [.clk, .out, .mac, .que, .todo] s.toDev d := by
  have heff := exec_frameReceive_bad (dt := dt) (age := age) (b := b) hst hboot hoff hlen hbad
  have hl := (frame_tick s.toDev dt).append (frame_rxListens (s.tick dt) n)
  have hf : Frame [.clk, .out, .mac] s.toDev ((s.tick dt).rxBad n) :=
    (hl.append (frame_setLane _ n _)).mono (by decide)
  have hlane (m : Nat) (hm : m ≠ n) : ((s.tick dt).rxBad n).lane m = s.lane m :=
    ((Dev.lane_setLane _ _ _ _).trans (if_neg hm)).trans (Dev.lane_of_frame hl (by decide) m)
  generalize (s.tick dt).rxBad n = u at *
  refine .of_effect heff ⟨by rw [Dev.lane_failLane, if_pos rfl], ?_, fun m hm => ?_, (hf.append (frame_failLane u n)).mono (by decide)⟩
  · rw [Dev.todo_failLane, hf .todo (by decide)]
  · rw [Dev.lane_failLane, if_neg hm, hlane m hm]

/-! #### A frame that is not sound -/

theorem Completes.frameReceive_badFcs {s : State} (dt : Nat) {n len : Nat} (age : Nat) {b f : List Byte} (hs : s.Settled) (hst : (s.lane n).st = .inService)
    (hboot : s.saf.run ≠ .boot) (hoff : s.saf.run ≠ .off) (h4 : 4 ≤ len) (h511 : len ≤ 511) (hf : f = slice b 0 len)
    (hfcs : fcs32 (f.take (len - 4)) ≠ leAt f (len - 4) 4) :
    Completes (.frameReceive dt n len age b) s fun t => t.mac = { s.mac with lanes := t.mac.lanes } ∧ t.lane n = { s.lane n with badRd := 0 } ∧
        t.fld (0xD114 + 0x40 * n, 16, 16) = satInc 16 (s.fld (0xD114 + 0x40 * n, 16, 16)) ∧
        t.fld (0xD114 + 0x40 * n, 0, 16) = wrapInc 16 (s.fld (0xD114 + 0x40 * n, 0, 16)) ∧ RegsBut [0xD114 + 0x40 * n] s.toDev t ∧
        Frame [.clk, .out, .mac, .regs] s.toDev t := by
  have heff := exec_frameReceive_read (age := age) (dt := dt) hst hboot hoff h4 h511 hf
  rw [Dev.rxJudged, if_pos hfcs] at heff
  obtain ⟨hmac, hlane⟩ := (s.tick dt).mac_rxRead n
  have hfld := (s.tick dt).fld_rxRead n
  have hother : ((s.tick dt).rxRead n).fld (0xD114 + 0x40 * n, 16, 16) = s.fld (0xD114 + 0x40 * n, 16, 16) :=
    (Dev.fld_setFld_other _ (0xD114 + 0x40 * n, 0, 16) (0xD114 + 0x40 * n, 16, 16) _ (by simp) (by simp)).trans
      (Dev.fld_of_frame ((frame_rxListens (s.tick dt) n).append (frame_setLane _ n _)) (by decide) _)
  have hregs := (s.tick dt).regsBut_rxRead n
  have hfr := (frame_tick s.toDev dt).append (frame_rxRead (s.tick dt) n)
  generalize (s.tick dt).rxRead n = u at *
  have hall := (hfr.append (frame_cntSat u (0xD114 + 0x40 * n, 16, 16))).mono (d := [.clk, .out, .mac, .regs]) (by decide)
  refine .of_effect hs hall heff (by decide) (by decide) ⟨hmac, hlane, ?_, ?_, ?_, hall⟩
  · rw [Dev.fld_cntSat _ _ (by simp), hother]
  · exact (Dev.fld_setFld_other _ (0xD114 + 0x40 * n, 16, 16) (0xD114 + 0x40 * n, 0, 16) _ (by simp) (by simp)).trans hfld
  · exact ((RegsBut.of_frame (frame_tick s.toDev dt) (by decide)).trans hregs).trans (.cntSat u (0xD114 + 0x40 * n, 16, 16))

theorem Completes.frameReceive_badFormat {s : State} (dt : Nat) {n len : Nat} (age : Nat) {b f : List Byte} (hs : s.Settled) (hst : (s.lane n).st = .inService)
    (hboot : s.saf.run ≠ .boot) (hoff : s.saf.run ≠ .off) (h4 : 4 ≤ len) (h511 : len ≤ 511) (hf : f = slice b 0 len)
    (hfcs : fcs32 (f.take (len - 4)) = leAt f (len - 4) 4) (hok : frameOk len f = false) :
    Completes (.frameReceive dt n len age b) s fun t => t.mac = { s.mac with lanes := t.mac.lanes } ∧
        t.fld (0xD030, 16, 16) = satInc 16 (s.fld (0xD030, 16, 16)) ∧ RegsBut [0xD030, 0xD114 + 0x40 * n] s.toDev t ∧
        Frame [.clk, .out, .mac, .regs] s.toDev t := by
  have heff := exec_frameReceive_read (age := age) (dt := dt) hst hboot hoff h4 h511 hf
  rw [Dev.rxJudged, if_neg (fun h => h hfcs), hok] at heff
  obtain ⟨hmac, -⟩ := (s.tick dt).mac_rxRead n
  have hregs := (RegsBut.of_frame (frame_tick s.toDev dt) (by decide)).trans ((s.tick dt).regsBut_rxRead n)
  have hfr := (frame_tick s.toDev dt).append (frame_rxRead (s.tick dt) n)
  generalize (s.tick dt).rxRead n = u at *
  have hfld : u.fld (0xD030, 16, 16) = s.fld (0xD030, 16, 16) := hregs.fld_eq (by simp only [List.mem_singleton]; omega)
  have hall := (hfr.append (frame_cntSat u (0xD030, 16, 16))).mono (d := [.clk, .out, .mac, .regs]) (by decide)
  refine .of_effect hs hall heff (by decide) (by decide) ⟨hmac, ?_, ?_, hall⟩
  · exact (Dev.fld_cntSat _ _ (by decide)).trans (by rw [hfld])
  · exact (hregs.mono (by simp)).trans ((RegsBut.cntSat u (0xD030, 16, 16)).mono (by simp))

end Sys2Proof.Machine

/-! ### Reports, the host's buffer and the keys (R323, R338, R383) -/
namespace Sys2Proof.Machine

theorem frame_sendAck (s : Dev) (n : Nat) (sfd : NT) (f : List Byte) : Frame [.out] s (s.sendAck n sfd f) := by
  unfold Dev.sendAck
  dsimp only
  refine .ite (.refl _ s) ?_
  exact ((((frame_radio s n _).trans (frame_emit _ _)).trans (frame_emit _ _)).trans (frame_radio _ n _))

/-- Whether a frame opens depends on the keys and the registers of the keys and the nonce. -/
theorem Dev.openFrame_congr {s t : Dev} (f : List Byte) (hkeys : t.mac.keys = s.mac.keys) (hnonce : t.reg 0xD018 = s.reg 0xD018)
    (hvalid : ∀ k, t.reg (0xD400 + 0x20 * k) = s.reg (0xD400 + 0x20 * k)) : t.openFrame f = s.openFrame f := by
  have hk (k : Nat) : t.keyOctets k = s.keyOctets k := by rw [Dev.keyOctets, hkeys, Dev.keyOctets]
  have hn (a c : Nat) : t.nonce a c = s.nonce a c := by rw [Dev.nonce, hnonce, Dev.nonce]
  have hv (k : Nat) : t.keyValid k = s.keyValid k := Dev.flag_of_reg (f := (0xD400 + 0x20 * k, 0, 1)) (hvalid k)
  unfold Dev.openFrame
  dsimp only
  rw [hv, hk, hn]

/-- An opened frame keeps its header. -/
theorem Dev.openFrame_header {s : Dev} {f c : List Byte} (h : s.openFrame f = some c) : ∃ r, c = f.take 22 ++ r := by
  unfold Dev.openFrame at h
  dsimp only at h
  split at h
  · split at h
    · obtain ⟨r, -, hr⟩ := Option.map_eq_some_iff.1 h
      exact ⟨r, hr.symm⟩
    · exact absurd h (by simp)
  · split at h
    · exact ⟨_, (Option.some.inj h).symm⟩
    · exact absurd h (by simp)

theorem frType_header {f c r : List Byte} (h : c = f.take 22 ++ r) (ht : frType f ≠ 0) : frType c = frType f := by
  subst h
  cases f with
  | nil => exact absurd rfl ht
  | cons x f => rfl

/-- A report opens only with its protection (R338). -/
theorem Dev.frSec_of_report {s : Dev} {f c : List Byte} (h : s.openFrame f = some c) (ht : frType f = 3) : frSec f = true := by
  by_contra hsec
  unfold Dev.openFrame at h
  dsimp only at h
  rw [if_neg hsec, if_neg (by simp [ht, isClaim])] at h
  exact absurd h (by simp)

/-- The item of a report for the host (R338). -/
def Dev.reportItem (s : Dev) (n : Nat) (sfd : NT) (c : List Byte) (dup : Bool) : RxItem := { q := 25, lane := n, rx := s.nt, frame := c, dup, sfd }

/-- A report is delivered to queue 25 and renews nothing by itself (R338, R347). -/
theorem Dev.deliver_report (s : Dev) (n : Nat) (sfd : NT) {c : List Byte} (dup : Bool) (h : frType c = 3) :
    s.deliver n sfd c dup =
      if dup then Dev.cntSat { s with mac := { s.mac with inbox := s.mac.inbox ++ [s.reportItem n sfd c dup] } } (0xD034, 16, 16)
      else { s with mac := { s.mac with inbox := s.mac.inbox ++ [s.reportItem n sfd c dup] } } := by
  have hcons : s.consumers c = [25] := by
    unfold Dev.consumers
    rw [h]
    rfl
  unfold Dev.deliver
  rw [hcons]
  dsimp only
  have hid (d : Dev) : (match d.robotOf (frSrc c) with
      | some i => if !(frType c = 3 || frType c = 4) && d.older i (frEpoch c) then d.zombie i (frEpoch c) (frType c) else d
      | none => d) = d := by
    split
    · exact if_neg (by simp [h])
    · rfl
  refine (hid _).trans ?_
  rw [show (dup && !(List.map (fun q => ({ q, lane := n, rx := s.nt, frame := c, dup, sfd } : RxItem)) [25]).isEmpty) = dup from Bool.and_true dup]
  rfl

/-- A device that remembers the counter of an originator (R338). -/
def Dev.remembered (s : Dev) (src cnt : Nat) : Dev := (s.remember src cnt).2

theorem Dev.judgeFrame_report {s : Dev} (n : Nat) (sfd : NT) {f c : List Byte} (ht : frType f = 3) (h1 : frSrc f ≠ 1) (h2 : frSrc f ≠ 2)
    (hopen : s.openFrame f = some c) : s.judgeFrame n sfd f =
      if (s.routeTo (frSrc f)).isSome = false then ((s.remembered (frSrc f) (frCnt f)).cntSat (0xD03C, 16, 16)).raise 0x86
      else if s.saf.run = .standby then (s.remembered (frSrc f) (frCnt f)).standbyReceipt c
      else (s.remembered (frSrc f) (frCnt f)).deliver n sfd c ((Tab.get (fun _ => []) s.mac.seen (frSrc f)).contains (frCnt f)) := by
  have hsec := Dev.frSec_of_report hopen ht
  have hclaim : isClaim f = false := by simp [isClaim, ht]
  unfold Dev.judgeFrame
  extract_lets src
  rw [if_neg (by simp [src, h1, h2, ht, downlink]), hopen]
  dsimp only
  rw [if_pos hsec, hclaim]
  rw [Bool.false_and, Bool.false_or]
  have hroute : (s.remembered (frSrc f) (frCnt f)).routeTo (frSrc f) = s.routeTo (frSrc f) := rfl
  cases hr : (s.routeTo (frSrc f)).isSome with
  | true =>
    rw [if_neg (by rw [show (s.remember src (frCnt f)).2.routeTo src = s.routeTo (frSrc f) from hroute, hr]; decide)]
    exact (if_neg (show ¬ true = false by decide)).symm
  | false =>
    rw [if_pos (by rw [show (s.remember src (frCnt f)).2.routeTo src = s.routeTo (frSrc f) from hroute, hr]; rfl), if_pos rfl]
    rfl

/-- What holds of a device that has read a sound frame and acknowledged it. -/
structure Dev.Sounded (s v : Dev) (n dt : Nat) : Prop where
  frame : Frame [.clk, .out, .mac, .regs] s v
  clk : v.clk = s.clk.run dt
  mac : v.mac = { s.mac with lanes := v.mac.lanes }
  regs : RegsBut [0xD114 + 0x40 * n] s v

theorem Dev.sounded (s : Dev) (n dt : Nat) (sfd : NT) (f : List Byte) : s.Sounded (((s.tick dt).rxRead n).sendAck n sfd f) n dt := by
  obtain ⟨hmac, -⟩ := (s.tick dt).mac_rxRead n
  have hregs := (RegsBut.of_frame (frame_tick s dt) (by decide)).trans ((s.tick dt).regsBut_rxRead n)
  have hfr := frame_rxRead (s.tick dt) n
  have hread := (frame_tick s dt).append hfr
  have hclk : ((s.tick dt).rxRead n).clk = s.clk.run dt := hfr .clk (by decide)
  generalize (s.tick dt).rxRead n = u at *
  have hack := frame_sendAck u n sfd f
  have hm : (u.sendAck n sfd f).mac = u.mac := hack .mac (by decide)
  exact ⟨(hread.append hack).mono (by decide), (hack .clk (by decide)).trans hclk, by rw [hm]; exact hmac,
    hregs.trans (.of_frame hack (by decide))⟩

theorem Dev.Sounded.openFrame {s v : Dev} {n dt : Nat} (h : s.Sounded v n dt) (f : List Byte) : v.openFrame f = s.openFrame f :=
  Dev.openFrame_congr f (by rw [h.mac]) (h.regs _ (by simp only [List.mem_singleton]; omega))
    fun k => h.regs _ (by simp only [List.mem_singleton]; omega)

theorem Dev.Sounded.routeTo {s v : Dev} {n dt : Nat} (h : s.Sounded v n dt) (a : Nat) : v.routeTo a = s.routeTo a := by
  rw [Dev.routeTo, h.mac, Dev.routeTo]

/-- A sound frame is judged by its origin and its protection (R338). -/
theorem exec_frameReceive_sound {s : State} {dt n len age : Nat} {b f : List Byte} (hst : (s.lane n).st = .inService) (hboot : s.saf.run ≠ .boot)
    (hoff : s.saf.run ≠ .off) (h4 : 4 ≤ len) (h511 : len ≤ 511) (hf : f = slice b 0 len)
    (hfcs : fcs32 (f.take (len - 4)) = leAt f (len - 4) 4) (hok : frameOk len f = true) :
    ∃ v, s.Sounded v n dt ∧ exec (.frameReceive dt n len age b) s =
      s.act fun _ => v.judgeFrame n (ntAdd (s.tick dt).nt (-(age : Int) - nsTicks (s.fld (lnTSfd n)))) f := by
  have heff := exec_frameReceive_read (age := age) (dt := dt) hst hboot hoff h4 h511 hf
  have hsfd : ((s.tick dt).rxRead n).rxSfd n age = ntAdd (s.tick dt).nt (-(age : Int) - nsTicks (s.fld (lnTSfd n))) := by
    have hfld : ((s.tick dt).rxRead n).fld (lnTSfd n) = s.fld (lnTSfd n) :=
      ((s.tick dt).regsBut_rxRead n).fld_eq (by simp only [List.mem_singleton, lnTSfd]; omega)
    have hnt : ((s.tick dt).rxRead n).nt = (s.tick dt).nt := by rw [Dev.nt, frame_rxRead (s.tick dt) n .clk (by decide), Dev.nt]
    rw [Dev.rxSfd, hfld, hnt]
  rw [Dev.rxJudged, if_neg (fun h => h hfcs), hok, hsfd] at heff
  exact ⟨_, s.toDev.sounded n dt _ f, heff⟩

theorem Completes.frameReceive_report {s : State} {dt n len age : Nat} {b f c : List Byte} (hs : s.Settled) (hst : (s.lane n).st = .inService)
    (hboot : s.saf.run ≠ .boot) (hoff : s.saf.run ≠ .off) (h4 : 4 ≤ len) (h511 : len ≤ 511) (hf : f = slice b 0 len)
    (hfcs : fcs32 (f.take (len - 4)) = leAt f (len - 4) 4) (hok : frameOk len f = true) (ht : frType f = 3) (h1 : frSrc f ≠ 1) (h2 : frSrc f ≠ 2)
    (hopen : s.openFrame f = some c) (hroute : (s.routeTo (frSrc f)).isSome = true) (hstand : s.saf.run ≠ .standby) :
    Completes (.frameReceive dt n len age b) s fun t => t.mac.inbox = s.mac.inbox ++ [{
        q := 25, lane := n, rx := t.nt, frame := c, dup := (Tab.get (fun _ => []) s.mac.seen (frSrc f)).contains (frCnt f)
        sfd := ntAdd t.nt (-(age : Int) - nsTicks (s.fld (lnTSfd n))) }] ∧
      t.mac.txq = s.mac.txq ∧ t.clk = s.clk.run dt ∧ RegsBut [0xD034, 0xD114 + 0x40 * n] s.toDev t ∧ Frame [.clk, .out, .mac, .regs] s.toDev t := by
  obtain ⟨v, hv, heff⟩ := exec_frameReceive_sound (age := age) (dt := dt) hst hboot hoff h4 h511 hf hfcs hok
  have hrun : v.saf.run = s.saf.run := by rw [hv.frame .saf (by decide)]
  have hseen : v.mac.seen = s.mac.seen := by rw [hv.mac]
  obtain ⟨r, hr⟩ := Dev.openFrame_header hopen
  have hct : frType c = 3 := (frType_header hr (by omega)).trans ht
  rw [Dev.judgeFrame_report n _ ht h1 h2 ((hv.openFrame f).trans hopen), hv.routeTo, if_neg (by simp [hroute]), if_neg (by rwa [hrun]),
    Dev.deliver_report _ _ _ _ hct, hseen] at heff
  generalize hdup : (Tab.get (fun _ => []) s.mac.seen (frSrc f)).contains (frCnt f) = dup at heff ⊢
  let w := v.remembered (frSrc f) (frCnt f)
  let sfd : NT := ntAdd (s.tick dt).nt (-(age : Int) - nsTicks (s.fld (lnTSfd n)))
  let z : Dev := { w with mac := { w.mac with inbox := w.mac.inbox ++ [w.reportItem n sfd c dup] } }
  have hz : Frame [.mac] v z := (frame_withMac v _).trans (frame_withMac w _)
  have hnt : v.nt = (s.tick dt).nt := by
    rw [Dev.nt, hv.clk]
    rfl
  have hinbox : z.mac.inbox = s.mac.inbox ++ [{ q := 25, lane := n, rx := v.nt, frame := c, dup
                                                sfd := ntAdd v.nt (-(age : Int) - nsTicks (s.fld (lnTSfd n))) }] := by
    rw [hnt]
    show v.mac.inbox ++ [v.reportItem n sfd c dup] = _
    rw [Dev.reportItem, hnt, hv.mac]
  have htxq : z.mac.txq = s.mac.txq := by
    show v.mac.txq = _
    rw [hv.mac]
  have hfz : Frame [.clk, .out, .mac, .regs] s.toDev z := (hv.frame.append hz).mono (by decide)
  have hrz : RegsBut [0xD034, 0xD114 + 0x40 * n] s.toDev z := (hv.regs.mono (by simp)).trans (.of_frame hz (by decide))
  have hclk : z.clk = s.clk.run dt := hv.clk
  cases dup with
  | true =>
    have hcount := frame_cntSat z (0xD034, 16, 16)
    have hall := (hfz.append hcount).mono (d := [.clk, .out, .mac, .regs]) (by decide)
    exact .of_effect hs hall heff (by decide) (by decide)
      ⟨hinbox, htxq, hclk, hrz.trans ((RegsBut.cntSat z (0xD034, 16, 16)).mono (by simp)), hall⟩
  | false => exact .of_effect hs hfz heff (by decide) (by decide) ⟨hinbox, htxq, hclk, hrz, hfz⟩

theorem CompletesThen.frameReceive_forged {s : State} {dt n len age : Nat} {b f : List Byte} (hst : (s.lane n).st = .inService)
    (hboot : s.saf.run ≠ .boot) (hoff : s.saf.run ≠ .off) (h4 : 4 ≤ len) (h511 : len ≤ 511) (hf : f = slice b 0 len)
    (hfcs : fcs32 (f.take (len - 4)) = leAt f (len - 4) 4) (hok : frameOk len f = true) (ht : frType f = 3) (h1 : frSrc f ≠ 1) (h2 : frSrc f ≠ 2)
    (hopen : s.openFrame f = none) :
    CompletesThen (.frameReceive dt n len age b) s fun d => d.mac = { s.mac with lanes := d.mac.lanes } ∧ .fault 0x83 false ∈ d.todo ∧
        d.fld (0xD034, 0, 16) = satInc 16 (s.fld (0xD034, 0, 16)) ∧ Frame [.clk, .out, .mac, .regs, .dry, .todo] s.toDev d := by
  obtain ⟨v, hv, heff⟩ := exec_frameReceive_sound (age := age) (dt := dt) hst hboot hoff h4 h511 hf hfcs hok
  obtain ⟨w, hw, hwreg, hjudge⟩ : ∃ w, Frame [.regs, .dry] v w ∧ w.reg 0xD034 = v.reg 0xD034 ∧
      ∀ sfd, v.judgeFrame n sfd f = (w.cntSat (0xD034, 0, 16)).raise 0x83 := by
    refine ⟨match v.robotOf (frSrc f) with | some i => v.note (0x300 + i) (frType f) [] | none => v, ?_, ?_, fun sfd => ?_⟩
    · split
      · exact frame_note v _ _ _
      · exact .refl _ v
    · split
      · exact Dev.reg_note v _ _ _ (by decide)
      · rfl
    · unfold Dev.judgeFrame
      extract_lets src
      rw [if_neg (by simp [src, h1, h2, ht, downlink]), (hv.openFrame f).trans hopen] <;> rfl
  rw [hjudge] at heff
  have hcount := frame_cntSat w (0xD034, 0, 16)
  have hraise := frame_raise (w.cntSat (0xD034, 0, 16)) 0x83
  have hmac : ((w.cntSat (0xD034, 0, 16)).raise 0x83).mac = v.mac := hw .mac (by decide)
  refine .of_effect heff ⟨?_, List.mem_append_right _ List.mem_cons_self, ?_, ((hv.frame.append hw).append (hcount.append hraise)).mono (by decide)⟩
  · rw [hmac]
    exact hv.mac
  · have hfld : w.fld (0xD034, 0, 16) = s.fld (0xD034, 0, 16) :=
      (Dev.fld_of_reg (f := (0xD034, 0, 16)) hwreg).trans (hv.regs.fld_eq (by simp only [List.mem_singleton]; omega))
    exact (Dev.fld_cntSat w (0xD034, 0, 16) (by decide)).trans (by rw [hfld])

theorem CompletesThen.frameReceive_unrouted {s : State} {dt n len age : Nat} {b f c : List Byte} (hst : (s.lane n).st = .inService)
    (hboot : s.saf.run ≠ .boot) (hoff : s.saf.run ≠ .off) (h4 : 4 ≤ len) (h511 : len ≤ 511) (hf : f = slice b 0 len)
    (hfcs : fcs32 (f.take (len - 4)) = leAt f (len - 4) 4) (hok : frameOk len f = true) (ht : frType f = 3) (h1 : frSrc f ≠ 1) (h2 : frSrc f ≠ 2)
    (hopen : s.openFrame f = some c) (hroute : s.routeTo (frSrc f) = none) :
    CompletesThen (.frameReceive dt n len age b) s fun d => d.mac.inbox = s.mac.inbox ∧ .fault 0x86 false ∈ d.todo ∧
        d.fld (0xD03C, 16, 16) = satInc 16 (s.fld (0xD03C, 16, 16)) ∧ Frame [.clk, .out, .mac, .regs, .todo] s.toDev d := by
  obtain ⟨v, hv, heff⟩ := exec_frameReceive_sound (age := age) (dt := dt) hst hboot hoff h4 h511 hf hfcs hok
  rw [Dev.judgeFrame_report n _ ht h1 h2 ((hv.openFrame f).trans hopen), hv.routeTo, if_pos (by rw [hroute]; rfl)] at heff
  let w := v.remembered (frSrc f) (frCnt f)
  have hw : Frame [.mac] v w := frame_withMac v _
  have hfld : w.fld (0xD03C, 16, 16) = s.fld (0xD03C, 16, 16) := hv.regs.fld_eq (f := (0xD03C, 16, 16)) (by simp only [List.mem_singleton]; omega)
  have hinbox : w.mac.inbox = s.mac.inbox := by
    show v.mac.inbox = _
    rw [hv.mac]
  have hrest := (frame_cntSat w (0xD03C, 16, 16)).append (frame_raise (w.cntSat (0xD03C, 16, 16)) 0x86)
  exact .of_effect heff ⟨hinbox, List.mem_append_right _ List.mem_cons_self,
    (Dev.fld_cntSat w (0xD03C, 16, 16) (by decide)).trans (by rw [hfld]), ((hv.frame.append hw).append hrest).mono (by decide)⟩

end Sys2Proof.Machine

/-! ### Data frames and keys (R323, R383) -/
namespace Sys2Proof.Machine

/-- The device with the one waiting item taken. -/
def Dev.itemTaken (s : Dev) (dt : Nat) : Dev := { s.tick dt with mac := { s.mac with inbox := [] } }

theorem Dev.takeItem_one {s : Dev} {m : RxItem} {p : RxItem → Bool} (h : s.mac.inbox = [m]) (hp : p m = true) :
    s.takeItem p = some (m, { s with mac := { s.mac with inbox := [] } }) := by
  have hidx : [m].findIdx? p = some 0 := by simp [List.findIdx?_cons, hp]
  unfold Dev.takeItem
  rw [h, hidx]
  rfl

theorem frame_itemTaken (s : Dev) (dt : Nat) : Frame [.clk, .out, .mac] s (s.itemTaken dt) := (frame_tick s dt).append (frame_withMac _ _)

/-- A record of the host's frame buffer (R383). -/
def RxItem.record (x : RxItem) : List Byte :=
  leBytes (frSrc x.frame) 2 ++ leBytes (frLen x.frame) 2 ++ leBytes (b2n x.dup) 1 ++ leBytes x.lane 1 ++
    leBytes 0 2 ++ leBytes x.sfd.toNat 8 ++ leBytes 0 16 ++ slice (x.frame.drop 22) 0 (frLen x.frame)

/-- Where the next record goes (R383). -/
def Dev.recordAt (s : Dev) : Nat :=
  (s.reg 0x2030).toNat + 4294967296 * (s.reg 0x2034).toNat + 384 * ((s.reg 0x203C).toNat % 2 ^ s.fld (0x2038, 0, 4))

/-- Is the buffer full (R383)? -/
def Dev.recordsFull (s : Dev) : Bool :=
  decide (2 ^ s.fld (0x2038, 0, 4) ≤ ((s.reg 0x203C).toNat + 2 ^ 32 - (s.reg 0x2040).toNat) % 2 ^ 32)

/-- A buffer that is full counts an overrun. -/
def Dev.bufferCounted (s : Dev) : Dev := if s.recordsFull then s.cntSat (0x2048, 0, 16) else s

/-- The record is written, and the write index moves on. -/
def Dev.buffered (s : Dev) (m : RxItem) : Dev :=
  (s.bufferCounted.emit (.stream 0 s.recordAt (slice m.record 0 384))).setReg 0x203C (BitVec.ofNat 32 ((s.reg 0x203C).toNat + 1))

theorem exec_dataFrame {s : State} (dt : Nat) {m : RxItem} (hm : s.mac.inbox = [m]) (hq : m.q = 28) (ht : frType m.frame = 12) :
    exec (.dataFrame dt) s = s.act fun _ => if s.flag (0x2038, 31, 1) = true then
        ((s.itemTaken dt).buffered m).sendMsix (s.fld (0x2038, 8, 6)) else (s.itemTaken dt).cntSat (0x2048, 16, 16) := by
  show execDataFrame dt s = _
  unfold execDataFrame
  refine State.act_congr ?_
  extract_lets s1
  have htake : s1.takeItem (fun x => x.q = 28 && frType x.frame = 12) = some (m, s.itemTaken dt) :=
    Dev.takeItem_one (s := s1) hm (by simp [hq, ht])
  rw [htake]
  dsimp -zeta only
  by_cases hen : s.flag (0x2038, 31, 1) = true
  · have hen' : (s.itemTaken dt).flag (0x2038, 31, 1) = true := hen
    rw [if_pos hen, if_neg (by rw [hen']; decide)]
    have hover : (if (s.itemTaken dt).recordsFull then (s.itemTaken dt).cntSat (0x2048, 0, 16) else s.itemTaken dt) = (s.itemTaken dt).bufferCounted := rfl
    have hreg (o : Nat) (ho : o ≠ 0x2048) : (s.itemTaken dt).bufferCounted.reg o = s.reg o := by
      unfold Dev.bufferCounted
      split
      · exact Dev.reg_setFld_ne _ _ _ _ ho
      · rfl
    have hat : ((s.itemTaken dt).bufferCounted.reg 0x2030).toNat + 4294967296 * ((s.itemTaken dt).bufferCounted.reg 0x2034).toNat +
        384 * (((s.itemTaken dt).reg 0x203C).toNat % 2 ^ (s.itemTaken dt).bufferCounted.fld (0x2038, 0, 4)) = (s.itemTaken dt).recordAt := by
      rw [hreg _ (by decide), hreg _ (by decide), Dev.fld_of_reg (f := (0x2038, 0, 4)) (hreg 0x2038 (by decide))]
      rfl
    have hvec : (s.itemTaken dt).bufferCounted.fld (0x2038, 8, 6) = s.fld (0x2038, 8, 6) := Dev.fld_of_reg (f := (0x2038, 8, 6)) (hreg 0x2038 (by decide))
    extract_lets wr full s2 rec_ base s3
    show (s3.setReg 0x203C (BitVec.ofNat 32 (wr + 1))).sendMsix ((s.itemTaken dt).bufferCounted.fld (0x2038, 8, 6)) = _
    have h3 : s3 = (s.itemTaken dt).bufferCounted.emit (.stream 0 (s.itemTaken dt).recordAt (slice m.record 0 384)) := by
      rw [← hat]
      rfl
    rw [hvec, h3]
    rfl
  · have hen' : (s.itemTaken dt).flag (0x2038, 31, 1) = false := Bool.eq_false_iff.2 hen
    rw [if_neg hen, if_pos (by rw [hen']; rfl)]

theorem frame_bufferCounted (s : Dev) : Frame [.regs] s s.bufferCounted := .ite (frame_cntSat s _) (.refl _ s)

theorem Dev.fld_bufferCounted (s : Dev) : s.bufferCounted.fld (0x2048, 0, 16) =
    if s.recordsFull then satInc 16 (s.fld (0x2048, 0, 16)) else s.fld (0x2048, 0, 16) := by
  unfold Dev.bufferCounted
  split
  · exact Dev.fld_cntSat _ _ (by decide)
  · rfl

theorem Dev.regsBut_bufferCounted (s : Dev) : RegsBut [0x2048] s s.bufferCounted := by
  unfold Dev.bufferCounted
  split
  · exact .cntSat s (0x2048, 0, 16)
  · exact .refl _ s

theorem frame_buffered (s : Dev) (m : RxItem) : Frame [.regs, .out] s (s.buffered m) :=
  ((frame_bufferCounted s).append ((frame_emit _ _).append (frame_setReg _ _ _))).mono (by decide)

theorem Dev.buffered_spec (s : Dev) (m : RxItem) : (s.buffered m).out = s.out ++ [.stream 0 s.recordAt (slice m.record 0 384)] ∧
    (s.buffered m).reg 0x203C = s.reg 0x203C + 1 ∧ (s.buffered m).fld (0x2048, 0, 16) = s.bufferCounted.fld (0x2048, 0, 16) ∧
      RegsBut [0x203C, 0x2048] s (s.buffered m) := by
  have hout : s.bufferCounted.out = s.out := frame_bufferCounted s .out (by decide)
  refine ⟨?_, ?_, Dev.fld_of_reg (f := (0x2048, 0, 16)) ?_, ?_⟩
  · show s.bufferCounted.out ++ _ = _
    rw [hout]
  · refine (Dev.reg_setReg _ _ _ _).trans ((if_pos rfl).trans ?_)
    rw [BitVec.ofNat_add, BitVec.ofNat_toNat, BitVec.setWidth_eq]
    rfl
  · exact (Dev.reg_setReg _ _ _ _).trans (if_neg (by decide))
  · exact ((Dev.regsBut_bufferCounted s).mono (by decide)).trans
      ((RegsBut.of_frame (frame_emit s.bufferCounted _) (by decide)).trans (.setReg _ _ (by decide)))

theorem Dev.head_sendMsix {s : Dev} {o : Out} (v : Nat) (h : s.out.head? = some o) : (s.sendMsix v).out.head? = some o := by
  unfold Dev.sendMsix
  split
  · exact h
  · show (s.out ++ _).head? = _
    rw [List.head?_append, h]
    rfl

theorem Completes.dataFrame_buffers {s : State} (dt : Nat) {m : RxItem} (hs : s.Settled) (hm : s.mac.inbox = [m]) (hq : m.q = 28)
    (ht : frType m.frame = 12) (hen : s.flag (0x2038, 31, 1) = true) :
    Completes (.dataFrame dt) s fun t => t.mac.inbox = [] ∧ t.reg 0x203C = s.reg 0x203C + 1 ∧
        t.out.head? = some (.stream 0 s.recordAt (slice m.record 0 384)) ∧
        t.fld (0x2048, 0, 16) = (if s.recordsFull then satInc 16 (s.fld (0x2048, 0, 16)) else s.fld (0x2048, 0, 16)) ∧
        RegsBut [0x203C, 0x2048] s.toDev t ∧ Frame [.clk, .out, .mac, .regs, .hif] s.toDev t := by
  have heff := exec_dataFrame dt hm hq ht
  rw [if_pos hen] at heff
  obtain ⟨hout, hidx, hfld, hregs⟩ := (s.itemTaken dt).buffered_spec m
  rw [Dev.fld_bufferCounted] at hfld
  have hb := (frame_itemTaken s.toDev dt).append (frame_buffered (s.itemTaken dt) m)
  have hinbox : ((s.itemTaken dt).buffered m).mac.inbox = [] := congrArg Mac.inbox (frame_buffered (s.itemTaken dt) m .mac (by decide))
  have hregs' : RegsBut [0x203C, 0x2048] s.toDev ((s.itemTaken dt).buffered m) := (RegsBut.of_frame (frame_itemTaken s.toDev dt) (by decide)).trans hregs
  generalize (s.itemTaken dt).buffered m = u at *
  have hmsix := frame_sendMsix u (s.fld (0x2038, 8, 6))
  have hall := (hb.append hmsix).mono (d := [.clk, .out, .mac, .regs, .hif]) (by decide)
  refine .of_effect hs hall heff (by decide) (by decide) ⟨?_, ?_, Dev.head_sendMsix _ ?_, ?_, hregs'.trans (.of_frame hmsix (by decide)), hall⟩
  · rw [hmsix .mac (by decide)]
    exact hinbox
  · exact (Dev.reg_of_frame hmsix (by decide) _).trans hidx
  · rw [hout]
    rfl
  · exact (Dev.fld_of_frame hmsix (by decide) _).trans hfld

theorem Completes.dataFrame_drops {s : State} (dt : Nat) {m : RxItem} (hs : s.Settled) (hm : s.mac.inbox = [m]) (hq : m.q = 28)
    (ht : frType m.frame = 12) (hen : s.flag (0x2038, 31, 1) = false) :
    Completes (.dataFrame dt) s fun t => t.mac.inbox = [] ∧ t.out = [] ∧ t.fld (0x2048, 16, 16) = satInc 16 (s.fld (0x2048, 16, 16)) ∧
        RegsBut [0x2048] s.toDev t ∧ Frame [.clk, .out, .mac, .regs] s.toDev t := by
  have heff := exec_dataFrame dt hm hq ht
  rw [if_neg (by rw [hen]; decide)] at heff
  have hall := (frame_itemTaken s.toDev dt).append (frame_cntSat (s.itemTaken dt) (0x2048, 16, 16))
  exact .of_effect hs hall heff (by decide) (by decide) ⟨rfl, rfl, Dev.fld_cntSat (s.itemTaken dt) _ (by decide),
    (RegsBut.of_frame (frame_itemTaken s.toDev dt) (by decide)).trans (.cntSat _ (0x2048, 16, 16)), hall⟩

theorem Completes.keyWrite {s : State} (dt : Nat) {k w : Nat} (v : Reg) (hs : s.Settled) (hk : k < 16) (hw : w < 4) :
    Completes (.keyWrite dt k w v) s fun t => Tab.get (fun _ => 0) t.mac.keys (4 * k + w) =
          (if s.keyValid k then Tab.get (fun _ => 0) s.mac.keys (4 * k + w) else v) ∧
        (∀ j, j ≠ 4 * k + w → Tab.get (fun _ => 0) t.mac.keys j = Tab.get (fun _ => 0) s.mac.keys j) ∧ Frame [.clk, .out, .mac] s.toDev t := by
  have htick := frame_tick s.toDev dt
  cases hvalid : s.keyValid k with
  | true =>
    have he : exec (.keyWrite dt k w v) s = s.act fun _ => s.tick dt :=
      State.act_congr (f := fun d => if 16 ≤ k || 4 ≤ w || (d.tick dt).keyValid k then d.tick dt else
        { d.tick dt with mac := { (d.tick dt).mac with keys := Tab.set (fun _ => 0) (d.tick dt).mac.keys (4 * k + w) v } })
        (if_pos (by rw [show (s.tick dt).keyValid k = true from hvalid, Bool.or_true]))
    exact .of_effect hs (htick.mono (d := [.clk, .out, .mac]) (by decide)) he (by decide) (by decide) ⟨rfl, fun _ _ => rfl, htick.mono (by decide)⟩
  | false =>
    let u : Dev := { s.tick dt with mac := { s.mac with keys := Tab.set (fun _ => 0) s.mac.keys (4 * k + w) v } }
    have he : exec (.keyWrite dt k w v) s = s.act fun _ => u :=
      State.act_congr (f := fun d => if 16 ≤ k || 4 ≤ w || (d.tick dt).keyValid k then d.tick dt else
        { d.tick dt with mac := { (d.tick dt).mac with keys := Tab.set (fun _ => 0) (d.tick dt).mac.keys (4 * k + w) v } })
        (if_neg (by rw [show (s.tick dt).keyValid k = false from hvalid, Bool.or_false, Bool.or_eq_true, decide_eq_true_eq, decide_eq_true_eq]; omega))
    have hall : Frame [.clk, .out, .mac] s.toDev u := htick.append (frame_withMac (s.tick dt) _)
    exact .of_effect hs hall he (by decide) (by decide) ⟨Tab.get_set_self _ _ _ _, fun j hj => Tab.get_set_ne _ _ _ _ _ hj, hall⟩

/-- Settles O51: what lanes send and read, what the host's buffer takes and what a key word does, a lemma for each. -/
theorem framesGoOutAndComeIn : Obligations.FramesGoOutAndComeIn := by
  refine ⟨fun s b n k rep hs hb hl hst htok => .allStopRepeat hs hb hl hst htok,
    fun s n k h f l hs hst hbc htok hq _ hh hnext hb hty hw => .frameTransmit_acked hs hst hbc htok hq hh hnext hb hty hw,
    fun s n k h f hs hst hbc htok hq _ hh hnext hb hty hdst htry => ?_,
    fun s n k h f hst hbc htok hq _ hh hnext hb hty hsfd => .frameTransmit_fails hst hbc htok hq hh hnext hb hty hsfd,
    fun s dt n len age b f hs hst hboot hoff h4 h511 hf hfcs => .frameReceive_badFcs dt age hs hst hboot hoff h4 h511 hf hfcs,
    fun s dt n len age b f hs hst hboot hoff h4 h511 hf hfcs hok => .frameReceive_badFormat dt age hs hst hboot hoff h4 h511 hf hfcs hok,
    fun s dt n len age b f c hs hst hboot hoff h4 h511 hf hfcs hok ht h1 h2 hopen hroute hstand =>
      .frameReceive_report hs hst hboot hoff h4 h511 hf hfcs hok ht h1 h2 hopen hroute hstand,
    fun s dt n len age b f hst hboot hoff h4 h511 hf hfcs hok ht h1 h2 hopen =>
      .frameReceive_forged hst hboot hoff h4 h511 hf hfcs hok ht h1 h2 hopen,
    fun s dt n len age b f c hst hboot hoff h4 h511 hf hfcs hok ht h1 h2 hopen hroute =>
      .frameReceive_unrouted hst hboot hoff h4 h511 hf hfcs hok ht h1 h2 hopen hroute,
    fun s dt n len age b hst hboot hoff hlen hbad => .frameReceive_fails dt age b hst hboot hoff hlen hbad,
    fun s dt m hs hm hq ht hen => ?_, fun s dt m hs hm hq ht hen => .dataFrame_drops dt hs hm hq ht hen,
    fun s dt k w v hs hk hw => .keyWrite dt v hs hk hw⟩
  · refine (Completes.frameTransmit_retried hs hst hbc htok hq hh hnext hb hty hdst htry).imp fun t ⟨hout, hrest⟩ => ⟨?_, hrest⟩
    rw [hout, hty]
    rfl
  · refine (Completes.dataFrame_buffers dt hs hm hq ht hen).imp fun t ⟨hin, hidx, hout, hfld, hrest⟩ => ⟨hin, hidx, hout, ?_, hrest⟩
    rw [hfld, Dev.recordsFull]
    simp only [decide_eq_true_eq]

end Sys2Proof.Machine

/-! ### What aborts, prunes and settlements leave (R199, R234, R241) -/
namespace Sys2Proof.Machine

/-- A command is gone, or still waits. -/
def Dev.Freed (s : Dev) (h : Nat) (c : Live) : Prop := s.live? h = none ∨ s.Waits h c

theorem Dev.live?_none_doneRaw {s : Dev} {h : Nat} (hn : s.live? h = none) (h' c : Nat) (b : List Byte) : (s.doneRaw h' c b).live? h = none := by
  rw [Dev.live?, List.find?_eq_none] at hn ⊢
  exact fun x hx => hn x (Dev.live_doneRaw_sub _ _ _ _ x hx)

theorem Dev.live?_none_settleFences (n : Nat) : ∀ {s : Dev} {h : Nat}, s.live? h = none → (s.settleFences n).live? h = none := by
  induction n with
  | zero => exact fun hn => hn
  | succ n ih =>
    intro s h hn
    unfold Dev.settleFences
    split
    · exact ih (Dev.live?_none_doneRaw hn _ _ _)
    · exact hn

theorem Dev.Freed.done {s : Dev} {h : Nat} {l : Live} (hs : s.Freed h l) (h' c : Nat) (b : List Byte) : (s.done h' c b).Freed h l := by
  rcases hs with hn | hw
  · exact .inl (Dev.live?_none_settleFences _ (Dev.live?_none_doneRaw hn h' c b))
  · obtain ⟨hlive, -⟩ := id hw
    have hd := Dev.live?_handle hlive
    have hgone {d : Dev} {code : Nat} {res : List Byte} (ha : d.Answered l code res) : d.Freed h l := .inl (by rw [← hd]; exact ha.1)
    by_cases hne : h' = h
    · subst hne
      exact hgone (hw.done c b)
    · rcases hw.done_done hne c b with hw' | ha
      · exact .inr hw'
      · exact hgone ha

theorem Dev.Freed.of_frame {a : List Area} {s t : Dev} {h : Nat} {l : Live} (hs : s.Freed h l) (hf : Frame a s t) (hh : .hif ∉ a)
    (hreg : ∀ o, o < 0x8000 → t.reg o = s.reg o) : t.Freed h l := by
  rcases hs with hn | hw
  · left
    rw [Dev.live?, hf .hif hh]
    exact hn
  · obtain ⟨-, -, -, -, hring⟩ := id hw
    exact .inr (hw.of_frame hf hh (hreg _ (by simp only [cqEn]; omega)))

/-- What is said of every entry stays said where the marks of a release go. -/
def MarkFree (P : Resv → Prop) : Prop := ∀ (r : Resv) (a : Nat) (b c : Bool), P r → P { r with relBy := a, uOld := b, uNew := c }

theorem Dev.Progressed.done {s : Dev} {l : Live} {code : Nat} {res : List Byte} (h : s.Progressed l code res) (h' c : Nat) (b : List Byte) :
    (s.done h' c b).Progressed l code res := by
  obtain ⟨e, he, hrest⟩ := h
  exact ⟨e, Dev.mem_done he, hrest⟩

/-- What the Trellis has in hand: the patches in flight, and the planning epoch with what it still owes. -/
def Trl.work (x : Trl) : List Patch × NT × Bool × Bool × Bool := (x.patches, x.epoch, x.handOffDue, x.unfinished, x.replanDue)

/-- What aborts, prunes and settlements keep of what has been told: the graph and its version, the work in hand, the changes that
have taken effect, the time planning has taken, and what stands in a ring. -/
structure Dev.ToldKept (s t : Dev) : Prop where
  track : t.trl.graph = s.trl.graph ∧ t.trl.ver = s.trl.ver ∧ t.trl.work = s.trl.work
  applied : t.fld (0x902C, 0, 16) = s.fld (0x902C, 0, 16)
  planned : t.reg 0x8044 = s.reg 0x8044
  answered : ∀ l c b, s.Answered l c b → t.Answered l c b
  progressed : ∀ l c b, s.Progressed l c b → t.Progressed l c b

theorem Dev.ToldKept.trans {s t u : Dev} (h : s.ToldKept t) (k : t.ToldKept u) : s.ToldKept u := by
  obtain ⟨hg, hv, hp⟩ := h.track
  obtain ⟨kg, kv, kp⟩ := k.track
  exact ⟨⟨kg.trans hg, kv.trans hv, kp.trans hp⟩, k.applied.trans h.applied, k.planned.trans h.planned, fun l c b x => k.answered l c b (h.answered l c b x),
    fun l c b x => k.progressed l c b (h.progressed l c b x)⟩

/-- Where the host interface stands, so do the answers. -/
theorem Dev.ToldKept.of_hif {s t : Dev} (hh : t.hif = s.hif)
    (ht : t.trl.graph = s.trl.graph ∧ t.trl.ver = s.trl.ver ∧ t.trl.work = s.trl.work) (hr : t.fld (0x902C, 0, 16) = s.fld (0x902C, 0, 16))
    (hq : t.reg 0x8044 = s.reg 0x8044) : s.ToldKept t := by
  refine ⟨ht, hr, hq, fun l c b x => ?_, fun l c b x => ?_⟩
  · rw [Dev.Answered, Dev.live?, Dev.cq, hh]
    exact x
  · rw [Dev.Progressed, Dev.cq, hh]
    exact x

theorem Dev.ToldKept.of_frame {a : List Area} {s t : Dev} (hf : Frame a s t) (hh : .hif ∉ a) (ht : .trl ∉ a)
    (hr : ∀ o ∈ [0x902C, 0x8044], t.reg o = s.reg o) : s.ToldKept t :=
  .of_hif (hf .hif hh) (by rw [hf .trl ht]; exact ⟨rfl, rfl, rfl⟩) (Dev.fld_of_reg (f := (0x902C, 0, 16)) (hr _ (by decide))) (hr _ (by decide))

theorem Dev.ToldKept.done (s : Dev) (h c : Nat) (b : List Byte) : s.ToldKept (s.done h c b) := by
  have hf := frame_done s h c b
  exact ⟨by rw [hf .trl (by decide)]; exact ⟨rfl, rfl, rfl⟩, Dev.fld_of_frame hf (by decide) _, Dev.reg_of_frame hf (by decide) _,
    fun l _ _ x => x.done h c b, fun l _ _ x => Dev.Progressed.done x h c b⟩

/-- What aborts, prunes and settlements keep: leases, lanes, routes, what waits in the radio, the registers below the Trellis's, what is said of every entry, and a command
that waits or is gone. -/
structure Dev.GroundKept (s t : Dev) : Prop where
  frame : Frame [.regs, .txu, .mac, .que, .trl, .todo, .hif, .out, .dry, .gov, .frk] s t
  leases : t.txu.leases = s.txu.leases
  lanes : t.mac.lanes = s.mac.lanes
  routes : t.mac.routes = s.mac.routes
  inbox : t.mac.inbox = s.mac.inbox
  regs : ∀ o, o < 0x8000 → t.reg o = s.reg o
  ents : ∀ P, MarkFree P → (∀ r ∈ s.trl.resv, P r) → ∀ r ∈ t.trl.resv, P r
  freed : ∀ h l, s.Freed h l → t.Freed h l
  told : s.ToldKept t
  lists : t.txu.lists = s.txu.lists
  out : ∀ o ∈ s.out, o ∈ t.out

namespace Dev.GroundKept

theorem refl (s : Dev) : s.GroundKept s := ⟨.refl _ s, rfl, rfl, rfl, rfl, fun _ _ => rfl, fun _ _ h => h, fun _ _ h => h,
  .of_hif rfl ⟨rfl, rfl, rfl⟩ rfl rfl, rfl, fun _ h => h⟩

theorem trans {s t u : Dev} (h : s.GroundKept t) (k : t.GroundKept u) : s.GroundKept u :=
  ⟨h.frame.trans k.frame, k.leases.trans h.leases, k.lanes.trans h.lanes, k.routes.trans h.routes, k.inbox.trans h.inbox,
    fun o ho => (k.regs o ho).trans (h.regs o ho),
    fun P hP hs => k.ents P hP (h.ents P hP hs), fun x l hx => k.freed x l (h.freed x l hx),
    h.told.trans k.told, k.lists.trans h.lists, fun o ho => k.out o (h.out o ho)⟩

theorem ite {s t u : Dev} {c : Prop} [Decidable c] (ht : s.GroundKept t) (hu : s.GroundKept u) : s.GroundKept (if c then t else u) := by
  split
  · exact ht
  · exact hu

theorem foldl {α : Type} {f : Dev → α → Dev} (h : ∀ (s : Dev) a, s.GroundKept (f s a)) (l : List α) : ∀ s : Dev, s.GroundKept (l.foldl f s) := by
  induction l with
  | nil => exact fun s => .refl s
  | cons a l ih => exact fun s => (h s a).trans (ih _)

/-- A change of areas that none of this lies in. -/
theorem of_frame {a : List Area} {s t : Dev} (h : Frame a s t) (ha : a ⊆ [.que, .todo, .dry, .gov, .frk]) : s.GroundKept t := by
  have hm := h.mono ha
  have hregs : ∀ o, o < 0x8000 → t.reg o = s.reg o := fun o _ => Dev.reg_of_frame hm (by decide) o
  refine ⟨hm.mono (by decide), by rw [hm .txu (by decide)], by rw [hm .mac (by decide)], by rw [hm .mac (by decide)],
    by rw [hm .mac (by decide)], hregs, fun P _ hP => ?_,
    fun x l hx => hx.of_frame hm (by decide) hregs, .of_frame hm (by decide) (by decide) fun o _ => Dev.reg_of_frame hm (by decide) o,
    by rw [hm .txu (by decide)], fun o ho => by rwa [hm .out (by decide)]⟩
  rw [hm .trl (by decide)]
  exact hP

theorem setFld (s : Dev) (f : Fld) (v : Nat) (h : 0x8000 ≤ f.1) (hw : f.2.1 + f.2.2 ≤ 32) (hd : f.1 ≠ 0x8044 ∧ (f.1 ≠ 0x902C ∨ 16 ≤ f.2.1)) :
    s.GroundKept (s.setFld f v) := by
  have hf := frame_setFld s f v
  have hregs : ∀ o, o < 0x8000 → (s.setFld f v).reg o = s.reg o := fun o ho => Dev.reg_setFld_ne _ _ _ _ (by omega)
  have happ : (s.setFld f v).fld (0x902C, 0, 16) = s.fld (0x902C, 0, 16) := by
    rcases hd.2 with hne | hlow
    · exact Dev.fld_setFld_ne _ _ _ _ (Ne.symm hne)
    · exact Dev.fld_setFld_other _ _ _ _ hw (.inl (by simpa using hlow))
  exact ⟨hf.mono (by decide), rfl, rfl, rfl, rfl, hregs, fun _ _ hP => hP, fun x l hx => hx.of_frame hf (by decide) hregs,
    .of_hif rfl ⟨rfl, rfl, rfl⟩ happ (Dev.reg_setFld_ne _ _ _ _ (Ne.symm hd.1)), rfl, fun _ ho => ho⟩

theorem cntSat (s : Dev) (f : Fld) (h : 0x8000 ≤ f.1) (hw : f.2.1 + f.2.2 ≤ 32) (hd : f.1 ≠ 0x8044 ∧ (f.1 ≠ 0x902C ∨ 16 ≤ f.2.1)) : s.GroundKept (s.cntSat f) :=
  setFld s f _ h hw hd

theorem raise (s : Dev) (n : Nat) : s.GroundKept (s.raise n) := of_frame (frame_raise s n) (by decide)

theorem note (s : Dev) (c v : Nat) (d : List Byte) : s.GroundKept (s.note c v d) := by
  have hf := frame_note s c v d
  have hregs : ∀ o, o < 0x8000 → (s.note c v d).reg o = s.reg o := fun o ho => Dev.reg_note s c v d (by omega)
  refine ⟨hf.mono (by decide), by rw [hf .txu (by decide)], by rw [hf .mac (by decide)], by rw [hf .mac (by decide)],
    by rw [hf .mac (by decide)], hregs, fun _ _ hP => ?_,
    fun x l hx => hx.of_frame hf (by decide) hregs, .of_frame hf (by decide) (by decide) (List.forall_mem_cons.2 ⟨Dev.reg_note s c v d (by decide), List.forall_mem_singleton.2 (Dev.reg_note s c v d (by decide))⟩),
    by rw [hf .txu (by decide)], fun o ho => by rwa [hf .out (by decide)]⟩
  rw [hf .trl (by decide)]
  exact hP

/-- The Trellis but for its entries. -/
theorem withTrl (s : Dev) (x : Trl) (h : x.resv = s.trl.resv)
    (hx : x.graph = s.trl.graph ∧ x.ver = s.trl.ver ∧ x.work = s.trl.work) : s.GroundKept { s with trl := x } := by
  have hf := frame_withTrl s x
  refine ⟨hf.mono (by decide), rfl, rfl, rfl, rfl, fun _ _ => rfl, fun _ _ hP => ?_, fun y l hy => hy.of_frame hf (by decide) fun _ _ => rfl,
    .of_hif rfl hx rfl rfl, rfl, fun _ ho => ho⟩
  show ∀ r ∈ x.resv, _
  rw [h]
  exact hP

theorem withTxu (s : Dev) (x : Txu) (h : x.leases = s.txu.leases) (hl : x.lists = s.txu.lists) : s.GroundKept { s with txu := x } := by
  have hf := frame_withTxu s x
  exact ⟨hf.mono (by decide), h, rfl, rfl, rfl, fun _ _ => rfl, fun _ _ hP => hP, fun y l hy => hy.of_frame hf (by decide) fun _ _ => rfl,
    .of_frame hf (by decide) (by decide) fun _ _ => rfl, hl, fun _ ho => ho⟩

theorem withMac (s : Dev) (x : Mac) (h : x.lanes = s.mac.lanes) (hr : x.routes = s.mac.routes) (hi : x.inbox = s.mac.inbox) : s.GroundKept { s with mac := x } := by
  have hf := frame_withMac s x
  exact ⟨hf.mono (by decide), rfl, h, hr, hi, fun _ _ => rfl, fun _ _ hP => hP, fun y l hy => hy.of_frame hf (by decide) fun _ _ => rfl,
    .of_frame hf (by decide) (by decide) fun _ _ => rfl, rfl, fun _ ho => ho⟩

theorem done (s : Dev) (h c : Nat) (b : List Byte) : s.GroundKept (s.done h c b) := by
  have hf := frame_done s h c b
  refine ⟨hf.mono (by decide), by rw [hf .txu (by decide)], by rw [hf .mac (by decide)], by rw [hf .mac (by decide)],
    by rw [hf .mac (by decide)], fun o _ => Dev.reg_of_frame hf (by decide) o, fun _ _ hP => ?_,
    fun x l hx => hx.done h c b, .done s h c b, by rw [hf .txu (by decide)], fun _ ho => Dev.mem_out_done h c b ho⟩
  rw [hf .trl (by decide)]
  exact hP

theorem doneOpt (s : Dev) (h : Option Nat) (c : Nat) (b : List Byte) : s.GroundKept (s.doneOpt h c b) := by
  unfold Dev.doneOpt
  split
  · exact done s _ c b
  · exact refl s

theorem doneTxn (s : Dev) (t : Txn) (c i : Nat) : s.GroundKept (s.doneTxn t c i) :=
  (doneOpt s _ _ _).trans (foldl (f := fun s h => s.done h c []) (fun s h => done s h c []) _ _)

end Dev.GroundKept

theorem Dev.reg_setResv (s : Dev) (l : List Resv) {o : Nat} (ho : o ≠ 0x8038) : (s.setResv l).reg o = s.reg o := by
  unfold Dev.setResv
  extract_lets n x s1 s2 high
  have h2 : s2.reg o = s.reg o := by
    show (if s1.fld (0x8038, 0, 23) < n then s1.setFld (0x8038, 0, 23) (sat 23 n) else s1).reg o = _
    split
    · exact Dev.reg_setFld_ne s1 _ _ _ ho
    · rfl
  clear_value s2
  split
  · exact h2
  · exact h2

theorem Dev.track_setResv (s : Dev) (l : List Resv) :
    (s.setResv l).trl.graph = s.trl.graph ∧ (s.setResv l).trl.ver = s.trl.ver ∧ (s.setResv l).trl.work = s.trl.work := by
  unfold Dev.setResv
  extract_lets n x s1 s2 high
  have h2 : s2.trl = s1.trl := by
    show (if s1.fld (0x8038, 0, 23) < n then s1.setFld (0x8038, 0, 23) (sat 23 n) else s1).trl = _
    split
    · rfl
    · rfl
  have h1 : s1.trl.graph = s.trl.graph ∧ s1.trl.ver = s.trl.ver ∧ s1.trl.work = s.trl.work := ⟨rfl, rfl, rfl⟩
  rw [← h2] at h1
  clear_value s2
  split
  · exact h1
  · exact h1

namespace Dev.GroundKept

theorem setResv (s : Dev) (l : List Resv) (h : ∀ P, MarkFree P → (∀ r ∈ s.trl.resv, P r) → ∀ r ∈ l, P r) : s.GroundKept (s.setResv l) := by
  have hf := frame_setResv s l
  have hregs : ∀ o, o < 0x8000 → (s.setResv l).reg o = s.reg o := fun o ho => Dev.reg_setResv s l (by omega)
  refine ⟨hf.mono (by decide), by rw [hf .txu (by decide)], by rw [hf .mac (by decide)], by rw [hf .mac (by decide)],
    by rw [hf .mac (by decide)], hregs, fun P hP hs => ?_,
    fun y x hy => hy.of_frame hf (by decide) hregs, .of_hif (hf .hif (by decide)) (Dev.track_setResv s l)
      (Dev.fld_of_reg (f := (0x902C, 0, 16)) (Dev.reg_setResv s l (by decide)))
      (Dev.reg_setResv s l (by decide)), by rw [hf .txu (by decide)], fun o ho => by rwa [hf .out (by decide)]⟩
  rw [Dev.resv_setResv]
  exact h P hP hs

theorem setResv_filter (s : Dev) (p : Resv → Bool) : s.GroundKept (s.setResv (s.trl.resv.filter p)) :=
  setResv s _ fun _ _ hs r hr => hs r (List.mem_filter.1 hr).1

end Dev.GroundKept

/-- The marks of a release cleared leave the rest of an entry. -/
theorem clearUnion_all {P : Resv → Prop} (hP : MarkFree P) (id : Nat) {l : List Resv} (h : ∀ r ∈ l, P r) : ∀ r ∈ clearUnion id l, P r := by
  intro r hr
  obtain ⟨x, hx, rfl⟩ := List.mem_map.1 hr
  dsimp only
  have hx' : P (if x.relBy = id then { x with relBy := 0, uOld := false } else x) := by
    split
    · exact hP x 0 false x.uNew (h x hx)
    · exact h x hx
  generalize (if x.relBy = id then { x with relBy := 0, uOld := false } else x) = y at hx'
  split
  · exact hP y y.relBy y.uOld false hx'
  · exact hx'

namespace Dev.GroundKept

theorem setResv_clear (s : Dev) (id : Nat) (p : Resv → Bool) : s.GroundKept (s.setResv (clearUnion id (s.trl.resv.filter p))) :=
  setResv s _ fun _ hP hs => clearUnion_all hP id fun r hr => hs r (List.mem_filter.1 hr).1

theorem setTask (s : Dev) (i : Nat) (k : Task) : s.GroundKept (s.setTask i k) := withTxu s _ rfl rfl

theorem unpend (s : Dev) (t : Txn) : s.GroundKept (s.unpend t) :=
  foldl (fun s c => by
    dsimp only
    split
    · split
      · exact (setTask s _ _).trans (withTrl _ _ rfl ⟨rfl, rfl, rfl⟩)
      · exact setTask s _ _
    · exact refl s) _ s

theorem purgeTxn (s : Dev) (id : Nat) : s.GroundKept (s.purgeTxn id) := by
  unfold Dev.purgeTxn
  refine ite (refl s) ?_
  extract_lets m t
  have ht : s.GroundKept t := withMac s _ rfl rfl rfl
  exact ht.trans (foldl (fun d q => of_frame (frame_setQueue d q _) (by decide)) _ t)

theorem updTxn (s : Dev) (id : Nat) (f : Txn → Txn) : s.GroundKept (s.updTxn id f) := ite (refl s) (withTxu s _ rfl rfl)

theorem dropTxn (s : Dev) (t : Txn) : s.GroundKept (s.dropTxn t) := withTxu s _ rfl rfl

theorem abortTxn (s : Dev) (t : Txn) (c i : Nat) (n : Bool) : s.GroundKept (s.abortTxn t c i n) := by
  unfold Dev.abortTxn
  extract_lets s1 s2 s3 s4
  have h1 : s.GroundKept s1 := ite (cntSat s _ (by decide) (by decide) (by decide)) (refl s)
  have h2 : s1.GroundKept s2 := (unpend s1 t).trans (purgeTxn _ _)
  have h3 : s2.GroundKept s3 := ite (refl s2) (setResv_clear s2 _ _)
  have h4 : s3.GroundKept s4 := doneTxn s3 t c i
  exact (h1.trans (h2.trans (h3.trans h4))).trans (ite (updTxn s4 _ _) (dropTxn s4 t))

theorem abortParts (s : Dev) (i c : Nat) : s.GroundKept (s.abortParts i c) := foldl (fun s t => abortTxn s t c 0xFF true) _ s

theorem abortOwners (s : Dev) (hit : Resv → Bool) : s.GroundKept (s.abortOwners hit) :=
  foldl (fun s id => by
    split
    · exact abortTxn s _ _ _ _
    · exact refl s) _ s

theorem countPrune (s : Dev) (n : Nat) : s.GroundKept (s.countPrune n) :=
  ((setFld s (0x8040, 0, 16) _ (by decide) (by decide) (by decide)).trans (note _ _ _ _)).trans
    (setFld _ (0x8040, 16, 16) _ (by decide) (by decide) (by decide))

theorem pruneHit (s : Dev) (hit : Resv → Bool) : s.GroundKept (s.pruneHit hit) :=
  (abortOwners s hit).trans ((setResv_filter _ _).trans (countPrune _ _))

theorem setRob (s : Dev) (i : Nat) (r : TrlRobot) : s.GroundKept (s.setRob i r) := withTrl s _ rfl ⟨rfl, rfl, rfl⟩

theorem askReplan (s : Dev) : s.GroundKept s.askReplan := by
  unfold Dev.askReplan
  extract_lets t
  have ht : s.GroundKept t := (pruneHit s _).trans (withTrl _ _ rfl ⟨rfl, rfl, rfl⟩)
  refine ite ht (ht.trans ?_)
  exact trans (t := { t with trl := { t.trl with replanAsked := true } }) (withTrl t _ rfl ⟨rfl, rfl, rfl⟩) (of_frame (frame_askLeave _ _ _ _ _ _) (by decide))

theorem prune (s : Dev) (start : List (Nat × Nat)) : s.GroundKept (s.prune start) := by
  unfold Dev.prune
  extract_lets deps aff s1 s2
  have h2 : s.GroundKept s2 := (pruneHit s _).trans (foldl (fun d a => setRob d _ _) aff s1)
  exact ite (h2.trans (askReplan s2)) h2

theorem pruneAll (s : Dev) (i : Nat) : s.GroundKept (s.pruneAll i) := prune s _

theorem settleTxn (s : Dev) (id : Nat) : s.GroundKept (s.settleTxn id) := by
  unfold Dev.settleTxn
  split
  · exact refl s
  · exact ite ((setResv_clear s _ _).trans ((doneTxn _ _ _ _).trans (dropTxn _ _))) (refl s)

theorem endParts (s : Dev) (i : Nat) : s.GroundKept (s.endParts i) := by
  unfold Dev.endParts
  extract_lets f
  exact trans (t := { s with txu := { s.txu with txns := s.txu.txns.map f } }) (withTxu s _ rfl rfl) (foldl settleTxn _ _)

theorem orphanTasks (s : Dev) (i : Nat) (dead : Bool) : s.GroundKept (s.orphanTasks i dead) := by
  unfold Dev.orphanTasks
  split
  · exact refl s
  · exact (setTask s _ _).trans (withTrl _ _ rfl ⟨rfl, rfl, rfl⟩)

theorem frkFreeze (s : Dev) (i : Nat) : s.GroundKept (s.frkFreeze i) := by
  have hset (d : Dev) (x : FrkSlot) : d.GroundKept (d.setFrkSlot i x) := of_frame (frame_setFrkSlot d i x) (by decide)
  have hreset : s.GroundKept (s.staleReset i) := by
    unfold Dev.staleReset Dev.endReset
    split
    · exact (hset s _).trans (done _ _ _ _)
    · exact refl s
  unfold Dev.frkFreeze
  extract_lets t x fr u
  have hu : s.GroundKept u := hreset.trans (of_frame (frame_withFrk t _) (by decide))
  exact ite (hu.trans (hset u _)) hu

theorem lease {s t : Dev} (h : s.GroundKept t) (j : Nat) : t.lease j = s.lease j := by
  rw [Dev.lease, h.leases, Dev.lease]

end Dev.GroundKept

end Sys2Proof.Machine

/-! ### Leases that age (R20-R23, R35, R331) -/
namespace Sys2Proof.Machine

theorem frame_setLease (s : Dev) (i : Nat) (l : Lease) : Frame [.txu] s (s.setLease i l) := frame_withTxu s _

theorem frame_persist (s : Dev) (i : Nat) : Frame [.nv] s (s.persist i) := frame_withNv s _

/-- The disposition of a slot that is in doubt asks for its ground at the next power-on (R28). -/
theorem Dev.kind_persist {s : Dev} {i : Nat} (h : (s.lease i).st = .suspect) :
    (Tab.get (fun _ => ({} : Disp)) (s.persist i).nv.disp i).kind = 3 := by
  unfold Dev.persist
  dsimp only
  rw [Tab.get_set_self, h]
  split
  · rfl
  · rfl

/-- Every entry of a robot is held where it is. -/
def Dev.Frozen (s : Dev) (i : Nat) : Prop := ∀ r ∈ s.trl.resv, r.robot = i → r.frozen = true

theorem markFree_frozen (i : Nat) : MarkFree fun r => r.robot = i → r.frozen = true := fun _ _ _ _ h => h

theorem Dev.GroundKept.frozen {s t : Dev} (h : s.GroundKept t) {i : Nat} (hs : s.Frozen i) : t.Frozen i := h.ents _ (markFree_frozen i) hs

theorem Dev.frozen_freezeEntries (s : Dev) (i : Nat) : (s.freezeEntries i).Frozen i := by
  unfold Dev.Frozen Dev.freezeEntries
  rw [Dev.resv_setResv]
  intro r hr hi
  obtain ⟨x, -, rfl⟩ := List.mem_map.1 hr
  by_cases hx : x.robot = i
  · rw [if_pos hx]
    split
    · rfl
    · rfl
  · rw [if_neg hx] at hi
    exact absurd hi hx

theorem frame_freezeEntries (s : Dev) (i : Nat) : Frame [.trl, .regs, .todo] s (s.freezeEntries i) := frame_setResv s _

theorem Dev.lease_of_txu {a : List Area} {s t : Dev} (h : Frame a s t) (ha : .txu ∉ a) (j : Nat) : t.lease j = s.lease j := by
  rw [Dev.lease, h .txu ha, Dev.lease]

/-- The areas that the end or the doubt of a lease reaches. -/
abbrev leaseAreas : List Area := [.clk, .out, .trl, .txu, .mac, .que, .hif, .regs, .dry, .gov, .nv, .frk, .todo]

theorem Dev.toSuspect_spec (s : Dev) (i : Nat) :
    (∀ j, (s.toSuspect i).lease j = if j = i then { s.lease i with st := .suspect } else s.lease j) ∧ (s.toSuspect i).Frozen i ∧
      (Tab.get (fun _ => ({} : Disp)) (s.toSuspect i).nv.disp i).kind = 3 ∧
      Frame [.out, .trl, .txu, .mac, .que, .hif, .regs, .dry, .gov, .nv, .frk, .todo] s (s.toSuspect i) := by
  unfold Dev.toSuspect
  extract_lets u1 u2 x u3
  have h1 : Frame [.trl, .regs, .todo] s u1 := frame_freezeEntries s i
  have hz : u1.Frozen i := Dev.frozen_freezeEntries s i
  have h2 : u1.GroundKept u2 := .abortParts u1 i 0x0501
  have h3 : Frame [.txu] u2 u3 := frame_setLease u2 i { u2.lease i with st := .suspect }
  have hl3 (j : Nat) : u3.lease j = if j = i then { u2.lease i with st := .suspect } else u2.lease j := Dev.lease_setLease u2 i j _
  have hz3 : u3.trl = u2.trl := rfl
  have h4 : u3.GroundKept (u3.pruneAll i) := .pruneAll u3 i
  generalize u3.pruneAll i = u4 at *
  clear_value u1 u2 u3
  have hl (j : Nat) : u4.lease j = if j = i then { s.lease i with st := .suspect } else s.lease j := by
    have hu2 (k : Nat) : u2.lease k = s.lease k := (h2.lease k).trans (Dev.lease_of_txu h1 (by decide) k)
    rw [h4.lease, hl3, hu2, hu2]
  have hzz : u3.Frozen i := by
    have := h2.frozen hz
    rwa [Dev.Frozen, ← hz3] at this
  refine ⟨hl, h4.frozen hzz, Dev.kind_persist ?_, ((((h1.append h2.frame).append h3).append h4.frame).append (frame_persist u4 i)).mono (by decide)⟩
  rw [hl, if_pos rfl]

theorem CompletesThen.leaseSuspect {s : State} {i : Nat} (hst : (s.lease i).st = .active) :
    CompletesThen (.leaseSuspect i) s fun d => (d.lease i) = { s.lease i with st := .suspect } ∧ (∀ j, j ≠ i → d.lease j = s.lease j) ∧
        (∀ r ∈ d.trl.resv, r.robot = i → r.frozen = true) ∧ (Tab.get (fun _ => ({} : Disp)) d.nv.disp i).kind = 3 ∧
        d.clk = s.clk.run (s.clk.cyclesTo (s.ageBoundary (s.lastHeard i) (300 * (s.lease i).tRep))) ∧ Frame leaseAreas s.toDev d := by
  obtain ⟨e, he⟩ : ∃ e : NT, e = s.ageBoundary (s.lastHeard i) (300 * (s.lease i).tRep) := ⟨_, rfl⟩
  have heff : exec (.leaseSuspect i) s = s.act fun _ => (s.tickTo e).toSuspect i := by
    subst he
    show execLeaseSuspect i s = _
    exact State.act_congr (if_neg (by rw [hst]; decide))
  rw [← he]
  obtain ⟨hl, hz, hk, hf⟩ := (s.tickTo e).toSuspect_spec i
  generalize (s.tickTo e).toSuspect i = d at *
  exact .of_effect heff ⟨(hl i).trans (if_pos rfl), fun j hj => (hl j).trans (if_neg hj), hz, hk, hf .clk (by decide),
    ((frame_tickTo s.toDev e).append hf).mono (by decide)⟩

/-! #### The end of a lease by its age (R23) -/

/-- The stops to a node that wait for a lane. -/
def Dev.stopsFor (s : Dev) (n dst epoch : Nat) : Nat :=
  (s.mac.txq.filter fun f => f.lane == n && f.type_ == 1 && f.dst == dst && f.epoch == epoch).length

theorem Dev.stopsFor_queueFrame (s : Dev) (f : TxFrame) (n dst epoch : Nat) : (s.queueFrame f).stopsFor n dst epoch =
    s.stopsFor n dst epoch + if f.lane == n && f.type_ == 1 && f.dst == dst && f.epoch == epoch then 1 else 0 := by
  show ((s.mac.txq ++ [{ f with order := s.mac.order }]).filter _).length = _
  rw [List.filter_append, List.length_append, List.filter_singleton]
  congr 1
  split <;> rename_i h <;> simp [h]

theorem Dev.stopsFor_foldl_queueFrame {f : TxFrame} {dst epoch : Nat} (ht : f.type_ = 1) (hd : f.dst = dst) (he : f.epoch = epoch) (n : Nat)
    (l : List Nat) : ∀ s : Dev, s.stopsFor n dst epoch + l.count n ≤ (l.foldl (fun s m => s.queueFrame { f with lane := m }) s).stopsFor n dst epoch := by
  induction l with
  | nil => exact fun s => by simp
  | cons m l ih =>
    intro s
    refine le_trans ?_ (ih _)
    rw [Dev.stopsFor_queueFrame, List.count_cons]
    simp only [ht, hd, he, beq_self_eq_true, Bool.and_true]
    omega

/-- A directed stop goes to every lane in service (R23, R326). -/
theorem Dev.stopsFor_directedStop (s : Dev) {n : Nat} (hn : n ∈ s.inService) (dst epoch cause : Nat) (t : NT) :
    s.stopsFor n dst epoch + 1 ≤ (s.directedStop dst epoch cause t).stopsFor n dst epoch := by
  refine le_trans (Nat.add_le_add_left (List.one_le_count_iff.2 hn) _) ?_
  let key := (Tab.get (fun _ => ({} : Lease)) s.txu.leases (dst - 0x1000)).keyIdx
  exact Dev.stopsFor_foldl_queueFrame (f := { type_ := 1, dst, epoch, body := stopBody false 0 cause s.nt, lane := 0, key, pslot := true, prio := 0, from_ := t })
    rfl rfl rfl n s.inService s

theorem Dev.lanes_queueAll (s : Dev) (f : TxFrame) : (s.queueAll f).mac.lanes = s.mac.lanes := by
  unfold Dev.queueAll
  generalize s.inService = l
  induction l generalizing s with
  | nil => rfl
  | cons n l ih => exact ih _

theorem Dev.inService_of_lanes {s t : Dev} (hl : t.mac.lanes = s.mac.lanes) (hf : t.fuse = s.fuse) : t.inService = s.inService := by
  unfold Dev.inService Dev.lane Dev.nLanes
  rw [hl, hf]

/-- The stops of three slotframes (R23). -/
def Dev.deadStops (s : Dev) (i epoch : Nat) : Dev :=
  let b := nextSlotframe s.nt
  [b, nextSlotframe b, nextSlotframe (nextSlotframe b)].foldl (fun s t => s.directedStop (robotAddr i) epoch 5 t) s

theorem frame_deadStops (s : Dev) (i epoch : Nat) : Frame [.mac] s (s.deadStops i epoch) :=
  Frame.foldl (fun (s : Dev) t => s.directedStop (robotAddr i) epoch 5 t) (fun s t => frame_directedStop s _ _ _ t) _ s

theorem Dev.stopsFor_deadStops (s : Dev) {n : Nat} (hn : n ∈ s.inService) (i epoch : Nat) : 3 ≤ (s.deadStops i epoch).stopsFor n (robotAddr i) epoch := by
  have hkeep (d : Dev) (t : NT) (hd : n ∈ d.inService) : n ∈ (d.directedStop (robotAddr i) epoch 5 t).inService := by
    have hlanes : (d.directedStop (robotAddr i) epoch 5 t).mac.lanes = d.mac.lanes := Dev.lanes_queueAll d _
    rwa [Dev.inService_of_lanes hlanes (frame_directedStop d _ _ _ t .fuse (by decide))]
  unfold Dev.deadStops
  extract_lets b
  rw [List.foldl_cons, List.foldl_cons, List.foldl_cons, List.foldl_nil]
  have h1 := s.stopsFor_directedStop hn (robotAddr i) epoch 5 b
  have hn1 := hkeep s b hn
  generalize s.directedStop (robotAddr i) epoch 5 b = s1 at *
  have h2 := s1.stopsFor_directedStop hn1 (robotAddr i) epoch 5 (nextSlotframe b)
  have hn2 := hkeep s1 (nextSlotframe b) hn1
  generalize s1.directedStop (robotAddr i) epoch 5 (nextSlotframe b) = s2 at *
  have h3 := s2.stopsFor_directedStop hn2 (robotAddr i) epoch 5 (nextSlotframe (nextSlotframe b))
  omega

theorem Dev.abortParts_idle {s : Dev} (h : s.txu.txns = []) (i c : Nat) : s.abortParts i c = s := by
  unfold Dev.abortParts
  rw [h]
  rfl

theorem Dev.task_orphanTasks {s : Dev} {i k : Nat} (h : s.taskOf i = some k) (dead : Bool) : ((s.orphanTasks i dead).task k).st = .orphaned := by
  have heq : (s.orphanTasks i dead).txu = (s.setTask k ((s.task k).orphan dead)).txu := by
    unfold Dev.orphanTasks
    rw [h]
  rw [Dev.task, heq, ← Dev.task, Dev.task_setTask, if_pos rfl]
  rfl

theorem frame_frkFreeze (s : Dev) (i : Nat) : Frame [.frk, .hif, .out] s (s.frkFreeze i) := by
  have hreset : Frame [.frk, .hif, .out] s (s.staleReset i) := by
    unfold Dev.staleReset Dev.endReset
    split
    · exact (frame_setFrkSlot s i _).append (frame_done _ _ _ _)
    · exact .refl _ s
  unfold Dev.frkFreeze
  extract_lets t x fr u
  have hu : Frame [.frk, .hif, .out] s u := (hreset.append (frame_withFrk t _)).mono (by decide)
  exact .ite ((hu.append (frame_setFrkSlot u i _)).mono (by decide)) hu

theorem Dev.toDead_spec (s : Dev) (i : Nat) :
    (∀ j, (s.toDead i).lease j = if j = i then { s.lease i with st := .dead, stopped := false, unsynced := false } else s.lease j) ∧
      (s.toDead i).Frozen i ∧ (∀ n ∈ s.inService, 3 ≤ (s.toDead i).stopsFor n (robotAddr i) (s.lease i).epoch) ∧
      (s.txu.txns = [] → ∀ k ∈ (s.taskOf i).toList, ((s.toDead i).task k).st = .orphaned) ∧
      Frame [.out, .trl, .txu, .mac, .que, .hif, .regs, .dry, .gov, .nv, .frk, .todo] s (s.toDead i) := by
  let l := s.lease i
  let u1 := s.freezeEntries i
  let u2 := u1.abortParts i 0x0501
  let x : Lease := { l with st := .dead, stopped := false, unsynced := false }
  let u3 := u2.setLease i x
  let u4 := u3.orphanTasks i true
  let u5 := u4.frkFreeze i
  have heq : s.toDead i = (u5.deadStops i l.epoch).persist i := rfl
  have h1 : Frame [.trl, .regs, .todo] s u1 := frame_freezeEntries s i
  have hz : u1.Frozen i := Dev.frozen_freezeEntries s i
  have h2 : u1.GroundKept u2 := .abortParts u1 i 0x0501
  have h3 : Frame [.txu] u2 u3 := frame_setLease u2 i x
  have hl3 (j : Nat) : u3.lease j = if j = i then x else u2.lease j := Dev.lease_setLease u2 i j x
  have hz3 : u3.trl = u2.trl := rfl
  have hlanes3 : u3.mac = u2.mac := rfl
  have hidle : s.txu.txns = [] → u3.txu.tasks = s.txu.tasks := fun h => by
    have htxu : u1.txu = s.txu := h1 .txu (by decide)
    have h21 : u2 = u1 := Dev.abortParts_idle (by rw [htxu]; exact h) i 0x0501
    show u2.txu.tasks = _
    rw [h21, htxu]
  have h4 : u3.GroundKept u4 := .orphanTasks u3 i true
  have htask : ∀ k ∈ (u3.taskOf i).toList, (u4.task k).st = .orphaned := fun k hk => by
    exact Dev.task_orphanTasks (Option.mem_toList.1 hk) true
  have h5 : u4.GroundKept u5 := .frkFreeze u4 i
  have ht5 : u5.txu = u4.txu := frame_frkFreeze u4 i .txu (by decide)
  rw [heq]
  clear heq
  have hx : x = { s.lease i with st := .dead, stopped := false, unsynced := false } := rfl
  have hle : l.epoch = (s.lease i).epoch := rfl
  clear_value u1 u2 u3 u4 u5
  have h6 := frame_deadStops u5 i l.epoch
  have h7 := frame_persist (u5.deadStops i l.epoch) i
  have hend := h6.append h7
  have hstop {n : Nat} (hn : n ∈ u5.inService) := Dev.stopsFor_deadStops u5 hn i l.epoch
  have hmac : ((u5.deadStops i l.epoch).persist i).mac = (u5.deadStops i l.epoch).mac := h7 .mac (by decide)
  have hnt : ((u5.deadStops i l.epoch).persist i).txu = u4.txu := (hend .txu (by decide)).trans ht5
  have htrl : ((u5.deadStops i l.epoch).persist i).trl = u5.trl := hend .trl (by decide)
  generalize (u5.deadStops i l.epoch).persist i = d at *
  have hlease (j : Nat) : d.lease j = if j = i then x else s.lease j := by
    rw [Dev.lease, hnt, ← Dev.lease, h4.lease, hl3, h2.lease, Dev.lease_of_txu h1 (by decide)]
  have hfz : u5.Frozen i := by
    refine h5.frozen (h4.frozen ?_)
    rw [Dev.Frozen, hz3]
    exact h2.frozen hz
  refine ⟨fun j => by rw [hlease, hx], ?_, fun n hn => ?_, fun hq k hk => ?_,
    (((((h1.append h2.frame).append h3).append h4.frame).append h5.frame).append hend).mono (by decide)⟩
  · rw [Dev.Frozen, htrl]
    exact hfz
  · rw [← hle, Dev.stopsFor, hmac]
    refine hstop ?_
    have hlanes : u5.mac.lanes = s.mac.lanes := by
      rw [h5.lanes, h4.lanes, hlanes3, h2.lanes, h1 .mac (by decide)]
    have hfuse : u5.fuse = s.fuse := by
      rw [h5.frame .fuse (by decide), h4.frame .fuse (by decide), h3 .fuse (by decide), h2.frame .fuse (by decide), h1 .fuse (by decide)]
    rwa [Dev.inService_of_lanes hlanes hfuse]
  · rw [Dev.task, hnt, ← Dev.task]
    refine htask k ?_
    have htaskOf : u3.taskOf i = s.taskOf i := by rw [Dev.taskOf, hidle hq, ← Dev.taskOf]
    rwa [htaskOf]

theorem CompletesThen.leaseDead {s : State} {i : Nat} (hst : (s.lease i).st = .active ∨ (s.lease i).st = .suspect) :
    CompletesThen (.leaseDead i) s fun d => (d.lease i) = { s.lease i with st := .dead, stopped := false, unsynced := false } ∧
        (∀ j, j ≠ i → d.lease j = s.lease j) ∧ (∀ r ∈ d.trl.resv, r.robot = i → r.frozen = true) ∧
        (∀ n ∈ s.inService, 3 ≤ (d.mac.txq.filter fun f => f.lane == n && f.type_ == 1 && f.dst == robotAddr i && f.epoch == (s.lease i).epoch).length) ∧
        (s.txu.txns = [] → ∀ k ∈ (s.taskOf i).toList, (d.task k).st = .orphaned) ∧
        d.clk = s.clk.run (s.clk.cyclesTo (s.ageBoundary (s.lastHeard i) (10 * s.fld (0x9010, 0, 12)))) ∧ Frame leaseAreas s.toDev d := by
  obtain ⟨e, he⟩ : ∃ e : NT, e = s.ageBoundary (s.lastHeard i) (10 * s.fld (0x9010, 0, 12)) := ⟨_, rfl⟩
  have heff : exec (.leaseDead i) s = s.act fun _ => (s.tickTo e).toDead i := by
    subst he
    show execLeaseDead i s = _
    refine State.act_congr (if_neg ?_)
    rcases hst with h | h
    · rw [h]
      decide
    · rw [h]
      decide
  rw [← he]
  obtain ⟨hl, hz, hstops, htasks, hf⟩ := (s.tickTo e).toDead_spec i
  generalize (s.tickTo e).toDead i = d at *
  exact .of_effect heff ⟨(hl i).trans (if_pos rfl), fun j hj => (hl j).trans (if_neg hj), hz, hstops, htasks, hf .clk (by decide),
    ((frame_tickTo s.toDev e).append hf).mono (by decide)⟩

end Sys2Proof.Machine

/-! ### Ground that stands, admissions that time out, offers and confirmations (R21, R23, R331) -/
namespace Sys2Proof.Machine

theorem frame_setRob (s : Dev) (i : Nat) (r : TrlRobot) : Frame [.trl] s (s.setRob i r) := frame_withTrl s _

theorem frame_useView (s : Dev) (id : Nat) : Frame [.trl, .regs] s (s.useView id) := by
  unfold Dev.useView
  extract_lets c t0 t c1 c2
  exact .ite ((frame_withTrl s _).mono (by decide)) (((frame_cntWrap s _).append (frame_withTrl t _)).mono (by decide))

theorem frame_useViews (s : Dev) (l : List Resv) : Frame [.trl, .regs] s (s.useViews l) := by
  unfold Dev.useViews
  split
  · exact .refl _ s
  · exact Frame.foldl _ (fun d r => Frame.foldl (fun (d : Dev) id => d.useView id) (fun d id => frame_useView d id) _ d) _ s

theorem frame_putEnv (s : Dev) (i : Nat) (es : List Resv) : Frame [.trl, .regs, .todo] s (s.putEnv i es) :=
  ((frame_useViews s es).append (frame_setResv _ _)).mono (by decide)

theorem Dev.resv_putEnv (s : Dev) (i : Nat) (es : List Resv) : (s.putEnv i es).trl.resv = dropEnv s.trl.resv i ++ es := Dev.resv_setResv _ _

theorem frame_envelope (s : Dev) (i : Nat) (t : NT) (b : Bool) : Frame [.trl, .regs, .todo] s (s.envelope i t b) := by
  unfold Dev.envelope
  split
  · exact .ite (frame_putEnv s i _) (.refl _ s)
  · dsimp only
    split
    · exact .refl _ s
    · exact ((frame_setRob s i _).append (frame_putEnv _ i _)).mono (by decide)

/-- The entries of a robot are envelope alone. -/
def Dev.Enveloped (s : Dev) (i : Nat) : Prop := ∀ r ∈ s.trl.resv, r.robot = i → r.kind = .envelope

theorem Dev.enveloped_putEnv {s : Dev} {i : Nat} (h : s.Enveloped i) {es : List Resv} (hes : ∀ e ∈ es, e.kind = .envelope) :
    (s.putEnv i es).Enveloped i := by
  unfold Dev.Enveloped
  rw [Dev.resv_putEnv]
  intro r hr hi
  rcases List.mem_append.1 hr with h1 | h2
  · exact h r (List.mem_filter.1 h1).1 hi
  · exact hes r h2

theorem kind_envResv {s : Dev} {i w : Nat} {l : List (Nat × Nat × Nat)} {t u : NT} {b : Bool} {e : Resv}
    (h : e ∈ l.map fun r => envResv s i w r t u b) : e.kind = .envelope := by
  obtain ⟨r, -, rfl⟩ := List.mem_map.1 h
  rfl

theorem Dev.enveloped_envelope {s : Dev} {i : Nat} (h : s.Enveloped i) (t : NT) (b : Bool) : (s.envelope i t b).Enveloped i := by
  unfold Dev.envelope
  split
  · split
    · refine Dev.enveloped_putEnv h fun e he => ?_
      unfold Dev.areaEnvelope at he
      split at he
      · exact absurd he List.not_mem_nil
      · exact kind_envResv he
    · exact h
  · dsimp only
    split
    · exact h
    · exact Dev.enveloped_putEnv (s := s.setRob i _) h fun e he => kind_envResv he

/-- The entries, those of a robot made to stand. -/
def freezeAll (i : Nat) (l : List Resv) : List Resv := l.map fun r => if r.robot = i then { r with frozen := true } else r

theorem mem_freezeAll {i : Nat} {l : List Resv} {r : Resv} (h : r ∈ freezeAll i l) (hi : r.robot = i) :
    r.frozen = true ∧ ∃ x ∈ l, x.robot = i ∧ x.kind = r.kind := by
  obtain ⟨x, hx, rfl⟩ := List.mem_map.1 h
  by_cases hxi : x.robot = i
  · rw [if_pos hxi]
    exact ⟨rfl, x, hx, hxi, rfl⟩
  · rw [if_neg hxi] at hi
    exact absurd hi hxi

theorem Dev.placeFoot_spec (s : Dev) (i : Nat) :
    (∀ j, (s.placeFoot i).lease j = if j = i then { s.lease i with stopped := true } else s.lease j) ∧
      (∀ r ∈ (s.placeFoot i).trl.resv, r.robot = i → r.frozen = true ∧ r.kind = .envelope) ∧
      Frame [.out, .trl, .txu, .mac, .que, .hif, .regs, .dry, .gov, .nv, .frk, .todo] s (s.placeFoot i) := by
  unfold Dev.placeFoot
  extract_lets l u1 u2 u3 u4
  have h1 : Frame [.txu] s u1 := frame_setLease s i { s.lease i with stopped := true }
  have hl1 (j : Nat) : u1.lease j = if j = i then { s.lease i with stopped := true } else s.lease j := Dev.lease_setLease s i j _
  have h2 : Frame [.trl, .regs, .todo] u1 u2 := frame_setResv u1 _
  have he2 : u2.Enveloped i := by
    have hr : u2.trl.resv = u1.trl.resv.filter fun r => !(r.robot = i && r.kind != .envelope) := Dev.resv_setResv _ _
    unfold Dev.Enveloped
    rw [hr]
    intro r hr hi
    simpa [hi] using (List.mem_filter.1 hr).2
  have h3 : Frame [.trl, .regs, .todo] u2 u3 := frame_envelope u2 i _ true
  have he3 : u3.Enveloped i := Dev.enveloped_envelope he2 _ true
  have h4 : Frame [.trl, .regs, .todo] u3 u4 := frame_setResv u3 _
  have hr4 : u4.trl.resv = freezeAll i u3.trl.resv := Dev.resv_setResv _ _
  have h5 : u4.GroundKept (u4.endParts i) := .endParts u4 i
  clear_value u1 u2 u3 u4
  have h14 := ((h1.append h2).append h3).append h4
  have hl4 (j : Nat) : u4.lease j = if j = i then { s.lease i with stopped := true } else s.lease j :=
    (Dev.lease_of_txu ((h2.append h3).append h4) (by decide) j).trans (hl1 j)
  refine ⟨fun j => (h5.lease j).trans (hl4 j), ?_, ((h14.append h5.frame).append (frame_persist _ i)).mono (by decide)⟩
  refine h5.ents (fun r => r.robot = i → r.frozen = true ∧ r.kind = .envelope) (fun _ _ _ _ h => h) ?_
  rw [hr4]
  intro r hr hi
  obtain ⟨hz, x, hx, hxi, hk⟩ := mem_freezeAll hr hi
  exact ⟨hz, hk ▸ he3 x hx hxi⟩

theorem CompletesThen.tStopped {s : State} {i : Nat} (hst : (s.lease i).st = .dead ∨ ((s.lease i).st = .zombie ∧ (s.lease i).from_ = .dead))
    (hstop : (s.lease i).stopped = false) :
    CompletesThen (.tStopped i) s fun d => (d.lease i) = { s.lease i with stopped := true } ∧ (∀ j, j ≠ i → d.lease j = s.lease j) ∧
        (∀ r ∈ d.trl.resv, r.robot = i → r.frozen = true ∧ r.kind = .envelope) ∧
        d.clk = s.clk.run (s.clk.cyclesTo (slotAtOrAfter (s.tStopped i))) ∧ Frame leaseAreas s.toDev d := by
  obtain ⟨e, he⟩ : ∃ e : NT, e = slotAtOrAfter (s.tStopped i) := ⟨_, rfl⟩
  have heff : exec (.tStopped i) s = s.act fun _ => (s.tickTo e).placeFoot i := by
    subst he
    show execTStopped i s = _
    refine State.act_congr (if_neg ?_)
    rcases hst with h | ⟨h, hfrom⟩
    · simp [hstop, h]
    · simp [hstop, h, hfrom]
  rw [← he]
  obtain ⟨hl, hz, hf⟩ := (s.tickTo e).placeFoot_spec i
  generalize (s.tickTo e).placeFoot i = d at *
  exact .of_effect heff ⟨(hl i).trans (if_pos rfl), fun j hj => (hl j).trans (if_neg hj), hz, hf .clk (by decide),
    ((frame_tickTo s.toDev e).append hf).mono (by decide)⟩

/-! #### An admission that times out -/

theorem Dev.abortOwners_idle {s : Dev} (h : s.txu.txns = []) (hit : Resv → Bool) : s.abortOwners hit = s :=
  foldl_keeps fun id _ => by
    have hnone : s.txn? id = none := by
      unfold Dev.txn?
      rw [h]
      split
      · rfl
      · rfl
    rw [hnone]

theorem frame_pruneHit_idle {s : Dev} (h : s.txu.txns = []) (hit : Resv → Bool) : Frame [.trl, .regs, .todo, .dry] s (s.pruneHit hit) := by
  unfold Dev.pruneHit
  rw [Dev.abortOwners_idle h]
  exact ((frame_setResv s _).append (frame_countPrune _ _)).mono (by decide)

/-- With no transaction in flight a prune ends no command. -/
theorem frame_prune_idle {s : Dev} (h : s.txu.txns = []) (start : List (Nat × Nat)) : Frame [.trl, .regs, .todo, .dry, .gov] s (s.prune start) := by
  unfold Dev.prune
  extract_lets deps aff s1 s2
  have h1 : Frame [.trl, .regs, .todo, .dry] s s1 := frame_pruneHit_idle h _
  have h12 : Frame [.trl] s1 s2 := Frame.foldl _ (fun d a => frame_setRob d _ _) aff s1
  have h2 : Frame [.trl, .regs, .todo, .dry] s s2 := (h1.append h12).mono (by decide)
  have htxns : s2.txu.txns = [] := by rw [h2 .txu (by decide)]; exact h
  refine .ite ?_ (h2.mono (by decide))
  unfold Dev.askReplan
  extract_lets t
  have ht : Frame [.trl, .regs, .todo, .dry] s t := (h2.append ((frame_pruneHit_idle htxns _).append (frame_withTrl _ _))).mono (by decide)
  exact .ite (ht.mono (by decide)) ((ht.append ((frame_withTrl t _).append (frame_askLeave _ _ _ _ _ _))).mono (by decide))

theorem frame_zeroLoops (s : Dev) (i : Nat) (b : Bool) : Frame [.ctl] s (s.zeroLoops i b) := (frame_setLoop s _ _).trans (frame_setLoop _ _ _)

/-- A loop that is open with output 0. -/
def LoopSlot.Zeroed (l : LoopSlot) : Prop := l.st = .open_ ∧ l.u = 0

theorem Dev.loop_zeroLoops (s : Dev) (i : Nat) (b : Bool) :
    ((s.zeroLoops i b).loop (24 + 2 * i)).Zeroed ∧ ((s.zeroLoops i b).loop (25 + 2 * i)).Zeroed := by
  unfold Dev.zeroLoops
  extract_lets z t
  have h1 (x : LoopSlot) : (t.setLoop (25 + 2 * i) x).loop (24 + 2 * i) = t.loop (24 + 2 * i) := (Dev.loop_setLoop _ _ _ _).trans (if_neg (by omega))
  have h2 (x : LoopSlot) : (t.setLoop (25 + 2 * i) x).loop (25 + 2 * i) = x := (Dev.loop_setLoop _ _ _ _).trans (if_pos rfl)
  have h3 : t.loop (24 + 2 * i) = z (s.loop (24 + 2 * i)) 0 := (Dev.loop_setLoop _ _ _ _).trans (if_pos rfl)
  rw [h1, h2, h3]
  exact ⟨⟨rfl, rfl⟩, ⟨rfl, rfl⟩⟩

theorem Dev.endParts_idle {s : Dev} (h : s.txu.txns = []) (i : Nat) : Frame [.txu] s (s.endParts i) := by
  unfold Dev.endParts
  extract_lets f
  have hset := frame_withTxu s { s.txu with txns := s.txu.txns.map f }
  have hnone : ({ s with txu := { s.txu with txns := s.txu.txns.map f } } : Dev).txu.txns = [] := by
    show s.txu.txns.map f = []
    rw [h]
    rfl
  unfold Dev.settleTxns
  rw [hnone]
  exact hset

theorem frame_orphanTasks (s : Dev) (i : Nat) (dead : Bool) : Frame [.txu, .trl] s (s.orphanTasks i dead) := by
  unfold Dev.orphanTasks
  split
  · exact .refl _ s
  · exact (frame_withTxu s _).append (frame_withTrl _ _)

theorem Dev.txns_orphanTasks (s : Dev) (i : Nat) (dead : Bool) : (s.orphanTasks i dead).txu.txns = s.txu.txns := by
  unfold Dev.orphanTasks
  split
  · rfl
  · rfl

theorem frame_frkFreeze_unasked {s : Dev} {i : Nat} (h : (s.frkSlot i).reset = none) : Frame [.frk] s (s.frkFreeze i) := by
  have hreset : s.staleReset i = s := by
    unfold Dev.staleReset Dev.endReset
    rw [h]
  unfold Dev.frkFreeze
  rw [hreset]
  extract_lets t x fr u
  have hu : Frame [.frk] s u := frame_withFrk s _
  exact .ite (hu.trans (frame_setFrkSlot u i _)) hu

/-- What the end of a lease leaves: the lease, the entries, a command that waits or is gone, and the outputs of the two loops; with nothing
in flight it ends no command. -/
theorem Dev.endLease_spec (s : Dev) (i : Nat) (l : Lease) :
    (∀ j, (s.endLease i l).lease j =
        if j = i then { l with st := .released, handle := none, unsynced := false, unplaced := false } else s.lease j) ∧
      (∀ P, MarkFree P → (∀ r ∈ s.trl.resv, P r) → ∀ r ∈ (s.endLease i l).trl.resv, P r) ∧
      (∀ h c, s.Freed h c → (s.endLease i l).Freed h c) ∧
      (s.txu.txns = [] → (s.frkSlot i).reset = none → (s.endLease i l).hif = s.hif) ∧
      ((s.endLease i l).loop (24 + 2 * i)).Zeroed ∧ ((s.endLease i l).loop (25 + 2 * i)).Zeroed ∧
      Frame [.regs, .txu, .mac, .que, .trl, .todo, .hif, .out, .dry, .gov, .frk, .ctl] s (s.endLease i l) := by
  unfold Dev.endLease
  extract_lets u1 u2 u3
  obtain ⟨x, hx⟩ : ∃ x : Lease, x = { l with st := .released, handle := none, unsynced := false, unplaced := false } := ⟨_, rfl⟩
  have h1 : s.GroundKept u1 := ((Dev.GroundKept.abortParts s i 0x0501).trans (.pruneAll _ i)).trans (.orphanTasks _ i false)
  have hf : u1.GroundKept (u1.frkFreeze i) := .frkFreeze u1 i
  have hz : Frame [.ctl] (u1.frkFreeze i) u2 := frame_zeroLoops _ i false
  have hloop : (u2.loop (24 + 2 * i)).Zeroed ∧ (u2.loop (25 + 2 * i)).Zeroed := Dev.loop_zeroLoops _ i false
  have hidle2 : s.txu.txns = [] → (s.frkSlot i).reset = none → u2.hif = s.hif ∧ u2.txu.txns = [] := fun hq hr => by
    have ha : s.abortParts i 0x0501 = s := Dev.abortParts_idle hq i 0x0501
    have hp : Frame [.trl, .regs, .todo, .dry, .gov] s (s.pruneAll i) := frame_prune_idle hq _
    have ho : Frame [.txu, .trl] (s.pruneAll i) ((s.pruneAll i).orphanTasks i false) := frame_orphanTasks _ i false
    have htx : ((s.pruneAll i).orphanTasks i false).txu.txns = s.txu.txns := by
      rw [Dev.txns_orphanTasks, hp .txu (by decide)]
    have hu1 : u1 = (s.pruneAll i).orphanTasks i false := by
      show ((s.abortParts i 0x0501).pruneAll i).orphanTasks i false = _
      rw [ha]
    clear_value u1
    subst hu1
    have hreset : (((s.pruneAll i).orphanTasks i false).frkSlot i).reset = none := by
      rw [Dev.frkSlot, ho .frk (by decide), hp .frk (by decide)]
      exact hr
    have hfr := frame_frkFreeze_unasked hreset
    constructor
    · rw [hz .hif (by decide), hfr .hif (by decide), ho .hif (by decide), hp .hif (by decide)]
    · rw [hz .txu (by decide), hfr .txu (by decide), htx, hq]
  clear_value u1 u2
  have hs : Frame [.txu] u2 u3 := frame_setLease u2 i _
  have hl3 (j : Nat) : u3.lease j = if j = i then x else u2.lease j := hx ▸ Dev.lease_setLease u2 i j _
  have htxns : u3.txu.txns = u2.txu.txns := rfl
  rw [← hx]
  clear_value u3
  have h4 : u3.GroundKept (u3.endParts i) := .endParts u3 i
  have hend (hq : u3.txu.txns = []) : Frame [.txu] u3 (u3.endParts i) := Dev.endParts_idle hq i
  generalize u3.endParts i = u4 at *
  have hctl : u4.ctl = u2.ctl := (h4.frame .ctl (by decide)).trans (hs .ctl (by decide))
  have hmid : Frame [.ctl, .txu] (u1.frkFreeze i) u3 := hz.append hs
  generalize u1.frkFreeze i = g at *
  have hregs (o : Nat) : u3.reg o = g.reg o := Dev.reg_of_frame hmid (by decide) o
  refine ⟨fun j => ?_, fun P hP hall => ?_, fun h c hc => ?_, fun hq hr => ?_, ?_, ?_,
    ((((h1.frame).append hf.frame).append hmid).append h4.frame).mono (by decide)⟩
  · rw [h4.lease, hl3, Dev.lease_of_txu hz (by decide), hf.lease, h1.lease]
  · refine h4.ents P hP ?_
    rw [hmid .trl (by decide)]
    exact hf.ents P hP (h1.ents P hP hall)
  · exact h4.freed h c ((hf.freed h c (h1.freed h c hc)).of_frame hmid (by decide) fun o _ => hregs o)
  · obtain ⟨hhif, hnone⟩ := hidle2 hq hr
    rw [hend (htxns.trans hnone) .hif (by decide), hs .hif (by decide), hhif]
  · rw [Dev.loop, hctl]
    exact hloop.1
  · rw [Dev.loop, hctl]
    exact hloop.2

/-- Every entry of a robot made to stand. -/
def Dev.standEntries (s : Dev) (i : Nat) : Dev := s.setResv (s.trl.resv.map fun r => if r.robot = i then { r with frozen := true } else r)

theorem frame_standEntries (s : Dev) (i : Nat) : Frame [.trl, .regs, .todo] s (s.standEntries i) := frame_setResv s _

theorem Dev.frozen_standEntries (s : Dev) (i : Nat) : (s.standEntries i).Frozen i := by
  have hr : (s.standEntries i).trl.resv = freezeAll i s.trl.resv := Dev.resv_setResv _ _
  intro r h hi
  rw [hr] at h
  exact (mem_freezeAll h hi).1

theorem Dev.regs_standEntries (s : Dev) (i : Nat) {o : Nat} (ho : o < 0x8000) : (s.standEntries i).reg o = s.reg o :=
  Dev.reg_setResv s _ (by omega)

/-- The end of an admission: the lease is over, its entries stand, and its command is answered. -/
def Dev.admissionOver (s : Dev) (i : Nat) (l : Lease) : Dev :=
  (((s.endLease i { l with parked := true }).standEntries i).persist i).doneOpt l.handle 0x050D []

/-- A lease that has ended and whose command is then answered: the lease, the entries, the command, and the outputs of the two loops. -/
theorem Dev.leaseOver_spec {s g : Dev} {i h : Nat} {c : Live} {l : Lease} (hw : s.Waits h c) (hg : Frame [.trl, .regs, .todo] (s.endLease i l) g)
    (hregs : ∀ o, o < 0x8000 → g.reg o = (s.endLease i l).reg o) (code : Nat) (res : List Byte) :
    (∀ j, ((g.persist i).done h code res).lease j =
        if j = i then { l with st := .released, handle := none, unsynced := false, unplaced := false } else s.lease j) ∧
      ((g.persist i).done h code res).trl = g.trl ∧ ((g.persist i).done h code res).live? h = none ∧
      (s.txu.txns = [] → (s.frkSlot i).reset = none → ((g.persist i).done h code res).Answered c code res) ∧
      (((g.persist i).done h code res).loop (24 + 2 * i)).Zeroed ∧ (((g.persist i).done h code res).loop (25 + 2 * i)).Zeroed ∧
      ((g.persist i).done h code res).clk = s.clk := by
  obtain ⟨hl, -, hfree, hidle, hu0, hu1, hf⟩ := s.endLease_spec i l
  generalize s.endLease i l = e at *
  have h3 : Frame [.nv] g (g.persist i) := frame_persist g i
  have h23 := hg.append h3
  have hfr3 : (g.persist i).Freed h c := (hfree h c (.inr hw)).of_frame h23 (by decide) fun o ho =>
    (Dev.reg_of_frame h3 (by decide) o).trans (hregs o ho)
  have htrl3 : (g.persist i).trl = g.trl := rfl
  generalize g.persist i = p at *
  have h4 := frame_done p h code res
  have h24 := h23.append h4
  have hctl : (p.done h code res).ctl = e.ctl := h24 .ctl (by decide)
  refine ⟨fun j => (Dev.lease_of_txu h24 (by decide) j).trans (hl j), (h4 .trl (by decide)).trans htrl3, ?_, fun hq hr => ?_, ?_, ?_, ?_⟩
  · rcases hfr3 with hn | hw3
    · exact Dev.live?_none_settleFences _ (Dev.live?_none_doneRaw hn h code res)
    · have ha := (hw3.done code res).1
      rwa [Dev.live?_handle hw3.1] at ha
  · rcases hfr3 with hn | hw3
    · have hhif : p.hif = s.hif := (h23 .hif (by decide)).trans (hidle hq hr)
      have hlive : p.live? h = s.live? h := by rw [Dev.live?, hhif, ← Dev.live?]
      exact absurd (hlive ▸ hn : s.live? h = none) (by simp [hw.1])
    · exact hw3.done code res
  · rw [Dev.loop, hctl]
    exact hu0
  · rw [Dev.loop, hctl]
    exact hu1
  · rw [h24 .clk (by decide), hf .clk (by decide)]

theorem Dev.admissionOver_spec (s : Dev) (i : Nat) {h : Nat} {c : Live} {l : Lease} (hh : l.handle = some h) (hw : s.Waits h c) :
    ((s.admissionOver i l).lease i).st = .released ∧ ((s.admissionOver i l).lease i).parked = true ∧
      ((s.admissionOver i l).lease i).epoch = l.epoch ∧ (s.admissionOver i l).Frozen i ∧ (s.admissionOver i l).live? h = none ∧
      (∀ j, j ≠ i → (s.admissionOver i l).lease j = s.lease j) ∧
      (s.txu.txns = [] → (s.frkSlot i).reset = none → (s.admissionOver i l).Answered c 0x050D []) ∧
      ((s.admissionOver i l).loop (24 + 2 * i)).u = 0 ∧ ((s.admissionOver i l).loop (25 + 2 * i)).u = 0 ∧ (s.admissionOver i l).clk = s.clk := by
  have heq : s.admissionOver i l = (((s.endLease i { l with parked := true }).standEntries i).persist i).done h 0x050D [] := by
    rw [Dev.admissionOver, hh, Dev.doneOpt]
  rw [heq]
  clear heq
  obtain ⟨hl, htrl, hlive, hans, hu0, hu1, hclk⟩ := Dev.leaseOver_spec (i := i) (l := { l with parked := true }) hw (frame_standEntries _ i)
    (fun o ho => Dev.regs_standEntries _ i ho) 0x050D []
  have hz := Dev.frozen_standEntries (s.endLease i { l with parked := true }) i
  generalize (((s.endLease i { l with parked := true }).standEntries i).persist i).done h 0x050D [] = d at *
  refine ⟨?_, ?_, ?_, ?_, hlive, fun j hj => (hl j).trans (if_neg hj), hans, hu0.2, hu1.2, hclk⟩
  · rw [hl, if_pos rfl]
  · rw [hl, if_pos rfl]
  · rw [hl, if_pos rfl]
  · rw [Dev.Frozen, htrl]
    exact hz

theorem CompletesThen.admitTimeout {s : State} {i h : Nat} {c : Live} (hst : (s.lease i).st = .admitting) (hh : (s.lease i).handle = some h)
    (hw : s.Waits h c) :
    CompletesThen (.admitTimeout i) s fun d => (d.lease i).st = .released ∧ (d.lease i).parked = true ∧ (d.lease i).epoch = (s.lease i).epoch ∧
        (∀ r ∈ d.trl.resv, r.robot = i → r.frozen = true) ∧ d.live? h = none ∧ (∀ j, j ≠ i → d.lease j = s.lease j) ∧
        (s.txu.txns = [] → (s.frkSlot i).reset = none → d.Answered c 0x050D []) ∧ (d.loop (24 + 2 * i)).u = 0 ∧ (d.loop (25 + 2 * i)).u = 0 ∧
        d.clk = s.clk.run (s.clk.cyclesTo (slotAtOrAfter (ntAdd (s.lease i).since (msTicks (100 * s.fld (0x9010, 24, 8)) : Nat)))) := by
  obtain ⟨e, he⟩ : ∃ e : NT, e = slotAtOrAfter (ntAdd (s.lease i).since (msTicks (100 * s.fld (0x9010, 24, 8)) : Nat)) := ⟨_, rfl⟩
  have heff : exec (.admitTimeout i) s = s.act fun _ => (s.tickTo e).admissionOver i (s.lease i) := by
    subst he
    show execAdmitTimeout i s = _
    unfold Dev.admissionOver Dev.standEntries
    exact State.act_congr (if_neg (by rw [hst]; decide))
  rw [← he]
  have hspec := (s.tickTo e).admissionOver_spec i hh hw
  exact .of_effect heff hspec

end Sys2Proof.Machine

/-! ### Leases and Rootstock's copy of them at a slot boundary, and what the radio repeats (R20, R21, R331, R416) -/
namespace Sys2Proof.Machine

/-! #### A ZOMBIE that has fallen silent -/

theorem Completes.zombieSilence {s : State} {i : Nat} (hs : s.Settled) (hst : (s.lease i).st = .zombie) :
    Completes (.zombieSilence i) s fun t => t.lease i = { s.lease i with st := (s.lease i).from_ } ∧ (∀ j, j ≠ i → t.lease j = s.lease j) ∧
        t.clk = s.clk.run (s.clk.cyclesTo (s.ageBoundary (s.lease i).zRx (10 * s.fld (0x9010, 0, 12)))) ∧
        Frame [.clk, .out, .txu, .nv, .free, .dry, .regs] s.toDev t := by
  obtain ⟨e, he⟩ : ∃ e : NT, e = s.ageBoundary (s.lease i).zRx (10 * s.fld (0x9010, 0, 12)) := ⟨_, rfl⟩
  obtain ⟨l, hl⟩ : ∃ l : Lease, l = { s.lease i with st := (s.lease i).from_ } := ⟨_, rfl⟩
  have heff : exec (.zombieSilence i) s =
      s.act fun _ => (((s.tickTo e).draw 4).2.putLease i l).note (0x300 + i) ((s.tickTo e).draw 4).1 [] := by
    subst he hl
    show execZombieSilence i s = _
    exact State.act_congr (if_neg (by rw [hst]; decide))
  rw [← he, ← hl]
  have h1 : Frame [.clk, .out, .free] s.toDev ((s.tickTo e).draw 4).2 := (frame_tickTo s.toDev e).append (frame_withFree _ _)
  have hclk : ((s.tickTo e).draw 4).2.clk = s.clk.run (s.clk.cyclesTo e) := Dev.tickTo_clk s.toDev e
  generalize ((s.tickTo e).draw 4).1 = v at *
  generalize ((s.tickTo e).draw 4).2 = u at *
  have h2 : Frame [.txu, .nv] u (u.putLease i l) := (frame_setLease u i l).append (frame_persist _ i)
  have hl2 (j : Nat) : (u.putLease i l).lease j = if j = i then l else u.lease j :=
    (Dev.lease_of_txu (frame_persist _ i) (by decide) j).trans (Dev.lease_setLease u i j l)
  generalize u.putLease i l = w at *
  have h3 := frame_note w (0x300 + i) v []
  have hn := Dev.noted_note w (0x300 + i) v []
  have h12 := h1.append h2
  have hlease (j : Nat) : (w.note (0x300 + i) v []).lease j = if j = i then l else s.lease j := by
    rw [Dev.lease_of_txu h3 (by decide), hl2, Dev.lease_of_txu h1 (by decide)]
  refine .of_settled heff ⟨?_, ?_⟩ ⟨(hlease i).trans (if_pos rfl), fun j hj => (hlease j).trans (if_neg hj), ?_, (h12.append h3).mono (by decide)⟩
  · rw [h3 .todo (by decide), h12 .todo (by decide)]
    exact hs.1
  · rw [hn.freezeReq, h12 .dry (by decide)]
    exact hs.2
  · rw [h3 .clk (by decide), h2 .clk (by decide), hclk]

/-! #### Offers and confirmations sent again -/

/-- A frame is queued for a robot and the lease notes the time it was sent. -/
def Dev.resent (s : Dev) (i : Nat) (f : TxFrame) : Dev := (s.queueFrame f).setLease i { s.lease i with sentAt := s.nt }

theorem Completes.of_resent {c : Instr} {s : State} {i : Nat} {e : NT} {f : TxFrame} (hs : s.Settled)
    (he : exec c s = s.act fun _ => (s.tickTo e).resent i f) :
    Completes c s fun t => t.lease i = { s.lease i with sentAt := t.nt } ∧ (∀ j, j ≠ i → t.lease j = s.lease j) ∧
        t.mac.txq = s.mac.txq ++ [{ f with order := s.mac.order }] ∧ t.clk = s.clk.run (s.clk.cyclesTo e) ∧ Frame [.clk, .out, .txu, .mac] s.toDev t := by
  have hl (j : Nat) : ((s.tickTo e).resent i f).lease j = if j = i then { s.lease i with sentAt := (s.tickTo e).nt } else s.lease j :=
    Dev.lease_setLease _ i j _
  have hq : ((s.tickTo e).resent i f).mac.txq = s.mac.txq ++ [{ f with order := s.mac.order }] := rfl
  have hall : Frame [.clk, .out, .txu, .mac] s.toDev ((s.tickTo e).resent i f) :=
    ((frame_tickTo s.toDev e).append ((frame_queueFrame _ f).append (frame_setLease _ i _))).mono (by decide)
  exact .of_effect hs hall he (by decide) (by decide)
    ⟨(hl i).trans (if_pos rfl), fun j hj => (hl j).trans (if_neg hj), hq, Dev.tickTo_clk s.toDev e, hall⟩

theorem slice_offerBody {a b c : Nat} {x1 x3 x4 x5 x6 x7 x8 x9 x10 x11 : List Byte} :
    slice (leBytes a 1 ++ [0] ++ leBytes b 8 ++ leBytes c 1 ++ x1 ++ x3 ++ x4 ++ x5 ++ x6 ++ x7 ++ x8 ++ x9 ++ x10 ++ x11) 0 11 =
      leBytes a 1 ++ [0] ++ leBytes b 8 ++ leBytes c 1 := by
  simp [slice, leBytes]

theorem Dev.sendOffer_routed {s : Dev} {i : Nat} {r : RouteEnt} (h : s.routeTo (robotAddr i) = some r) :
    ∃ f : TxFrame, s.sendOffer i = s.resent i f ∧ (f.type_, f.dst, f.epoch, f.lane) = (9, 0xFFFF, (s.lease i).epoch, r.lane) ∧
      slice f.body 0 11 = leBytes 17 1 ++ [0] ++ leBytes (s.lease i).uid 8 ++ leBytes i 1 := by
  unfold Dev.sendOffer
  extract_lets l route body f t
  have ht : t = s.queueFrame { f with lane := r.lane } := by
    show (match s.routeTo (robotAddr i) with | some r => s.queueFrame { f with lane := r.lane } | none => s.queueAll f) = _
    rw [h]
  refine ⟨{ f with lane := r.lane }, ?_, rfl, ?_⟩
  · show t.setLease i { t.lease i with sentAt := t.nt } = _
    rw [ht]
    rfl
  · show slice body 0 11 = _
    exact slice_offerBody

/-- The confirmation of an admission (R331). -/
def confirmFrame (i : Nat) (l : Lease) (r : RouteEnt) : TxFrame :=
  { type_ := 9, dst := robotAddr i, epoch := l.epoch, body := leBytes (1 + 48) 1 ++ [0] ++ leBytes l.uid 8 ++ leBytes l.cfgVer 2,
    lane := r.lane, key := l.keyIdx, pslot := true, prio := 2, rx := (r.hops.headD (robotAddr i, 0, 0)).1 }

theorem Dev.sendConfirm_routed {s : Dev} {i : Nat} {r : RouteEnt} (h : s.routeTo (robotAddr i) = some r) :
    s.sendConfirm i = s.resent i (confirmFrame i (s.lease i) r) := by
  have hq (f : TxFrame) : s.queueTo (robotAddr i) f =
      s.queueFrame { f with dst := robotAddr i, lane := r.lane, rx := (r.hops.headD (robotAddr i, 0, 0)).1 } := by
    unfold Dev.queueTo
    rw [h]
  unfold Dev.sendConfirm
  extract_lets l body t
  have ht : t = s.queueFrame (confirmFrame i l r) := hq _
  show t.setLease i { t.lease i with sentAt := t.nt } = _
  rw [ht]
  rfl

theorem Completes.admitOfferRepeat {s : State} {i : Nat} {r : RouteEnt} (hs : s.Settled) (hst : (s.lease i).st = .admitting)
    (hrep : (s.lease i).reported = false) (hr : s.routeTo (robotAddr i) = some r) :
    Completes (.admitOfferRepeat i) s fun t => t.lease i = { s.lease i with sentAt := t.nt } ∧ (∀ j, j ≠ i → t.lease j = s.lease j) ∧
        t.mac.txq.dropLast = s.mac.txq ∧ t.mac.txq.getLast?.map (fun f => (f.type_, f.dst, f.epoch, f.lane)) =
          some (9, 0xFFFF, (s.lease i).epoch, r.lane) ∧ t.mac.txq.getLast?.map (fun f => slice f.body 0 11) =
          some (leBytes 17 1 ++ [0] ++ leBytes (s.lease i).uid 8 ++ leBytes i 1) ∧
        t.clk = s.clk.run (s.clk.cyclesTo (ntAdd (s.lease i).sentAt (msTicks 500 : Nat))) ∧ Frame [.clk, .out, .txu, .mac] s.toDev t := by
  obtain ⟨e, he⟩ : ∃ e : NT, e = ntAdd (s.lease i).sentAt (msTicks 500 : Nat) := ⟨_, rfl⟩
  obtain ⟨f, hf, hhead, hbody⟩ := Dev.sendOffer_routed (s := s.tickTo e) hr
  have heff : exec (.admitOfferRepeat i) s = s.act fun _ => (s.tickTo e).resent i f := by
    rw [← hf]
    subst he
    show execAdmitOfferRepeat i s = _
    exact State.act_congr (if_neg (by rw [hst, hrep]; decide))
  rw [← he]
  refine (Completes.of_resent hs heff).imp fun t ⟨hl, ho, hq, hclk, hall⟩ => ⟨hl, ho, ?_, ?_, ?_, hclk, hall⟩
  · rw [hq, List.dropLast_concat]
  · rw [hq, List.getLast?_concat]
    exact congrArg some hhead
  · rw [hq, List.getLast?_concat]
    exact congrArg some hbody

theorem Completes.confirmRepeat {s : State} {i : Nat} {r : RouteEnt} (hs : s.Settled) (hst : (s.lease i).st = .active ∨ (s.lease i).st = .suspect)
    (hc : (s.lease i).confirmed = false) (hr : s.routeTo (robotAddr i) = some r) :
    Completes (.confirmRepeat i) s fun t => t.lease i = { s.lease i with sentAt := t.nt } ∧ (∀ j, j ≠ i → t.lease j = s.lease j) ∧
        t.mac.txq.dropLast = s.mac.txq ∧ t.mac.txq.getLast?.map (fun f => (f.type_, f.dst, f.epoch, f.lane)) =
          some (9, robotAddr i, (s.lease i).epoch, r.lane) ∧ t.mac.txq.getLast?.map (fun f => f.body) =
          some (leBytes 49 1 ++ [0] ++ leBytes (s.lease i).uid 8 ++ leBytes (s.lease i).cfgVer 2) ∧
        t.clk = s.clk.run (s.clk.cyclesTo (ntAdd (s.lease i).sentAt (msTicks 200 : Nat))) ∧ Frame [.clk, .out, .txu, .mac] s.toDev t := by
  obtain ⟨e, he⟩ : ∃ e : NT, e = ntAdd (s.lease i).sentAt (msTicks 200 : Nat) := ⟨_, rfl⟩
  have hf := Dev.sendConfirm_routed (s := s.tickTo e) hr
  have heff : exec (.confirmRepeat i) s = s.act fun _ => (s.tickTo e).resent i (confirmFrame i (s.lease i) r) := by
    have hact : exec (.confirmRepeat i) s = s.act fun _ => (s.tickTo e).sendConfirm i := by
      subst he
      show execConfirmRepeat i s = _
      refine State.act_congr (if_neg ?_)
      rcases hst with h | h
      · rw [h, hc]
        decide
      · rw [h, hc]
        decide
    rw [hact, hf]
    rfl
  rw [← he]
  refine (Completes.of_resent hs heff).imp fun t ⟨hl, ho, hq, hclk, hall⟩ => ⟨hl, ho, ?_, ?_, ?_, hclk, hall⟩
  · rw [hq, List.dropLast_concat]
  · rw [hq, List.getLast?_concat]
    rfl
  · rw [hq, List.getLast?_concat]
    rfl

end Sys2Proof.Machine

/-! ### A slot boundary: lapsed entries leave, and Rootstock judges its own copy (R20, R416) -/
namespace Sys2Proof.Machine

theorem frame_setRover (s : Dev) (i : Nat) (r : Rover) : Frame [.snp] s (s.setRover i r) := frame_withSnp s _

theorem frame_askUnits (s : Dev) (u : Nat) : Frame [.snp] s (s.askUnits u) := frame_withSnp s _

theorem frame_askSnap (s : Dev) (i : Nat) : Frame [.snp] s (s.askSnap i) := (frame_setRover s i _).trans (frame_askUnits _ _)

theorem frame_closeBatch (s : Dev) (b : Batch) : Frame [.snp, .gov] s (s.closeBatch b) := (frame_withSnp s _).append (frame_askLeave _ _ _ _ _ _)

theorem frame_joinBatch (s : Dev) (x : Snap) : Frame [.snp, .gov] s (s.joinBatch x) := by
  unfold Dev.joinBatch
  extract_lets fits opened
  have hopen (d : Dev) : Frame [.snp, .gov] d (opened d) := (frame_withSnp d _).mono (by decide)
  split
  next b =>
    refine .ite ?_ (hopen s)
    extract_lets b' t
    have ht : Frame [.snp, .gov] s t := (frame_withSnp s _).mono (by decide)
    exact .ite (ht.trans (frame_closeBatch t b')) ht
  next => exact hopen s

theorem frame_serve (s : Dev) (d : Demand) : Frame [.snp, .gov] s (s.serve d) := by
  cases d with
  | recheck i => exact (frame_askSnap s i).mono (by decide)
  | snap x => exact ((frame_askUnits s _).append (frame_joinBatch _ x)).mono (by decide)
  | audit i => exact (((frame_setRover s i _).append (frame_withSnp _ _)).append (frame_askSnap _ i)).mono (by decide)

theorem frame_serveGo (n : Nat) : ∀ s : Dev, Frame [.snp, .gov] s (s.serveGo n) := by
  induction n with
  | zero => exact fun s => .refl _ s
  | succ n ih =>
    intro s
    unfold Dev.serveGo
    dsimp only
    split
    · exact .refl _ s
    · exact .ite ((((frame_withSnp s _).append (frame_serve _ _)).mono (by decide)).trans (ih _)) (.refl _ s)

theorem frame_serveDemand (s : Dev) : Frame [.snp, .gov] s s.serveDemand := ((frame_withSnp s _).append (frame_serveGo _ _)).mono (by decide)

theorem Dev.serveDemand_idle {s : Dev} (h : s.snp.demand = []) : s.serveDemand = s := by
  have hs : ({ s with snp := { s.snp with demand := s.snp.demand.filter s.wanted } } : Dev) = s := by rw [h, List.filter_nil, ← h]
  unfold Dev.serveDemand
  rw [hs]
  show s.serveGo s.snp.demand.length = s
  rw [h]
  rfl

theorem frame_expire (s : Dev) : Frame [.trl, .regs, .todo] s s.expire := .ite (frame_setResv s _) (.refl _ s)

theorem Dev.resv_expire (s : Dev) : ∀ r ∈ s.expire.trl.resv, r.openEnd = true ∨ ntReached s.nt r.tout = false := by
  unfold Dev.expire
  extract_lets lapsed
  intro r hr
  have hstays : lapsed r = false := by
    split at hr
    · rw [Dev.resv_setResv] at hr
      simpa using (List.mem_filter.1 hr).2
    next hnone =>
      simp only [List.any_eq_true, not_exists, not_and, Bool.not_eq_true] at hnone
      exact hnone r hr
  simp only [lapsed, Bool.and_eq_false_iff, Bool.not_eq_false'] at hstays
  exact hstays

theorem Dev.reg_expire (s : Dev) {o : Nat} (ho : o ≠ 0x8038) : s.expire.reg o = s.reg o := by
  unfold Dev.expire
  dsimp only
  split
  · exact Dev.reg_setResv s _ ho
  · rfl

/-- The work of a slot boundary once lapsed entries have left and demands have been served. -/
def Dev.boundaryWork (s : Dev) (t : NT) : Dev :=
  let s := { s with saf := { s.saf with slotAt := t } }
  let idx := s.txu.leases.map (·.1)
  let mir := idx.foldl (fun m i =>
    Tab.set (fun _ => {}) m i (s.mirrorJudge i (Tab.get (fun _ => {}) m i))) s.saf.mirror
  let bad := idx.any fun i => (Tab.get (fun _ => {}) mir i).st != (s.lease i).st.code
  let n : Nat := if bad then s.saf.disagree + 1 else 0
  let s := { s with saf := { s.saf with mirror := mir, disagree := n } }
  let s := if n = 3 then s.raise 0xB7 else s
  if s.par.role = .active && s.par.linkUp && (s.par.mirror = .sync || s.par.mirror = .joining) then
    ({ s with par := { s.par with seq := s.par.seq + 1 } }).emit (.mirror s.par.seq)
  else s

theorem exec_slotBoundary (s : State) : exec .slotBoundary s =
    s.act fun _ => (s.tickTo (s.nextDue nextSlot s.saf.slotAt)).expire.serveDemand.boundaryWork (s.nextDue nextSlot s.saf.slotAt) := by
  show execSlotBoundary s = _
  refine State.act_congr ?_
  extract_lets t u
  show _ = u.boundaryWork t
  clear_value u
  rfl

/-- Rootstock's record after it has judged the one lease. -/
def Dev.judgedSaf (s : Dev) (t : NT) (i : Nat) : Saf :=
  { s.saf with
    slotAt := t, mirror := Tab.set (fun _ => {}) s.saf.mirror i (s.mirrorJudge i (Tab.get (fun _ => {}) s.saf.mirror i)),
    disagree := if (s.mirrorJudge i (Tab.get (fun _ => {}) s.saf.mirror i)).st != (s.lease i).st.code then s.saf.disagree + 1 else 0 }

theorem Dev.boundaryWork_one {s : Dev} {t : NT} {i : Nat} {l : Lease} (h : s.txu.leases = [(i, l)]) :
    (s.boundaryWork t).saf = s.judgedSaf t i ∧ ((s.judgedSaf t i).disagree = 3 → .fault 0xB7 false ∈ (s.boundaryWork t).todo) ∧
      ((s.judgedSaf t i).disagree ≠ 3 → s.par.linkUp = false → Frame [.saf] s (s.boundaryWork t)) := by
  unfold Dev.boundaryWork
  extract_lets x1 s1 idx mir bad n x2 s2 s3 s4
  have hidx : idx = [i] := by
    show s.txu.leases.map (·.1) = _
    rw [h]
    rfl
  have hmir : mir = (s.judgedSaf t i).mirror := by
    show idx.foldl _ _ = _
    rw [hidx]
    rfl
  have hget : Tab.get (fun _ => ({} : MirrorLease)) mir i = s.mirrorJudge i (Tab.get (fun _ => {}) s.saf.mirror i) := by
    rw [hmir]
    exact Tab.get_set_self _ _ _ _
  have hn : n = (s.judgedSaf t i).disagree := by
    show (if (idx.any fun i => (Tab.get (fun _ => {}) mir i).st != (s.lease i).st.code) then s.saf.disagree + 1 else 0) = _
    rw [hidx, List.any_cons, List.any_nil, Bool.or_false, hget]
    rfl
  have hsaf : s2.saf = s.judgedSaf t i := by
    show ({ s.saf with slotAt := t, mirror := mir, disagree := n } : Saf) = _
    rw [hmir, hn]
    rfl
  have hf2 : Frame [.saf] s s2 := frame_withSaf s _
  have hpar : s2.par = s.par := rfl
  have h3 : s3.saf = s2.saf ∧ (n = 3 → .fault 0xB7 false ∈ s3.todo) ∧ (n ≠ 3 → s3 = s2) := by
    by_cases h3 : n = 3
    · have hs3 : s3 = s2.raise 0xB7 := if_pos h3
      rw [hs3]
      exact ⟨rfl, fun _ => List.mem_concat_self, fun hne => absurd h3 hne⟩
    · have hs3 : s3 = s2 := if_neg h3
      rw [hs3]
      exact ⟨rfl, fun he => absurd he h3, fun _ => rfl⟩
  obtain ⟨hsaf3, hraise, hquiet⟩ := h3
  clear_value mir n s2 s3
  rw [← hn]
  split
  next hup =>
    refine ⟨hsaf3.trans hsaf, hraise, fun hne hdown => absurd hup ?_⟩
    rw [hquiet hne, hpar, hdown]
    simp
  next =>
    refine ⟨hsaf3.trans hsaf, hraise, fun hne _ => ?_⟩
    rw [hquiet hne]
    exact hf2

theorem Dev.mirrorJudge_fresh {s : Dev} {i : Nat} {m : MirrorLease} (hst : (s.lease i).st = .active)
    (hrep : ntSince s.nt (s.lastHeard i) ≤ msTicks (300 * (s.lease i).tRep))
    (hdead : ntSince s.nt (s.lastHeard i) ≤ msTicks (10 * s.fld (0x9010, 0, 12))) (hm : m.st ≠ 4) :
    s.mirrorJudge i m = { st := 2, epoch := (s.lease i).epoch, cls := (s.lease i).cls, rx := (s.lease i).rx } := by
  unfold Dev.mirrorJudge
  extract_lets l live copy age
  have hcopy : copy = { st := 2, epoch := (s.lease i).epoch, cls := (s.lease i).cls, rx := (s.lease i).rx } := by
    show ({ st := l.st.code, epoch := l.epoch, cls := l.cls, rx := l.rx } : MirrorLease) = _
    rw [show l.st = .active from hst]
    rfl
  split
  · show ({ copy with
      st := if m.st = 4 then 4 else if msTicks (10 * s.fld (0x9010, 0, 12)) < age then 4 else if msTicks (300 * l.tRep) < age then 3 else 2 } :
      MirrorLease) = _
    rw [if_neg hm, if_neg (Nat.not_lt.2 hdead), if_neg (Nat.not_lt.2 hrep), hcopy]
  · exact hcopy

theorem Dev.mirrorJudge_dead {s : Dev} {i : Nat} {m : MirrorLease} (hst : (s.lease i).st = .active) (hm : m.st = 4)
    (he : m.epoch = (s.lease i).epoch) : (s.mirrorJudge i m).st = 4 := by
  unfold Dev.mirrorJudge
  extract_lets l live copy age
  rw [if_pos (by simp [live, hm, show l.st = .active from hst, show l.epoch = (s.lease i).epoch from rfl, he])]
  exact if_pos hm

theorem Dev.lease_one {s : Dev} {i : Nat} {l : Lease} (h : s.txu.leases = [(i, l)]) : s.lease i = l := by
  rw [Dev.lease, h]
  exact if_pos rfl

/-- What the lapsed entries and the demands leave of the unit before Rootstock judges. -/
def Dev.lapsed (s : State) : Dev := (s.tickTo (s.nextDue nextSlot s.saf.slotAt)).expire.serveDemand

theorem frame_lapsed (s : State) : Frame [.clk, .out, .trl, .regs, .todo, .snp, .gov] s.toDev (Dev.lapsed s) :=
  (((frame_tickTo s.toDev _).append (frame_expire _)).append (frame_serveDemand _)).mono (by decide)

theorem CompletesThen.slotBoundary_fresh {s : State} {i : Nat} {l : Lease} (hl : s.txu.leases = [(i, l)]) (hst : l.st = .active)
    (hlink : s.par.linkUp = false) (hdem : s.snp.demand = [])
    (hrep : ntSince (s.tickTo (s.nextDue nextSlot s.saf.slotAt)).nt (s.lastHeard i) ≤ msTicks (300 * l.tRep))
    (hdead : ntSince (s.tickTo (s.nextDue nextSlot s.saf.slotAt)).nt (s.lastHeard i) ≤ msTicks (10 * s.fld (0x9010, 0, 12)))
    (hm : (Tab.get (fun _ => {}) s.saf.mirror i).st ≠ 4) :
    CompletesThen .slotBoundary s fun d => Tab.get (fun _ => {}) d.saf.mirror i = { st := 2, epoch := l.epoch, cls := l.cls, rx := l.rx } ∧
        d.saf.disagree = 0 ∧ d.saf.slotAt = s.nextDue nextSlot s.saf.slotAt ∧ (∀ r ∈ d.trl.resv, r.openEnd = true ∨ ntReached d.nt r.tout = false) ∧ d.txu = s.txu ∧
        d.clk = s.clk.run (s.clk.cyclesTo (s.nextDue nextSlot s.saf.slotAt)) ∧ Frame [.clk, .out, .trl, .regs, .saf, .todo] s.toDev d := by
  have heff := exec_slotBoundary s
  obtain ⟨t, ht⟩ : ∃ t : NT, t = s.nextDue nextSlot s.saf.slotAt := ⟨_, rfl⟩
  rw [← ht] at heff hrep hdead ⊢
  have h1 := frame_tickTo s.toDev t
  have h2 := frame_expire (s.tickTo t)
  have hresv := Dev.resv_expire (s.tickTo t)
  have hclk := Dev.tickTo_clk s.toDev t
  have hreg : (s.tickTo t).expire.reg 0x9010 = (s.tickTo t).reg 0x9010 := Dev.reg_expire _ (by decide)
  rw [Dev.serveDemand_idle (by rw [h2 .snp (by decide), h1 .snp (by decide)]; exact hdem)] at heff
  have h12 := h1.append h2
  generalize hu : (s.tickTo t).expire = u at *
  have hnt : u.nt = (s.tickTo t).nt := by rw [Dev.nt, h2 .clk (by decide), ← Dev.nt]
  have htxu : u.txu = s.txu := h12 .txu (by decide)
  have hleases : u.txu.leases = [(i, l)] := htxu ▸ hl
  have hlease : u.lease i = l := Dev.lease_one hleases
  have hheard : u.lastHeard i = s.lastHeard i := by
    unfold Dev.lastHeard
    rw [Dev.lease, htxu, h12 .mac (by decide), ← Dev.lease]
  have hfld : u.fld (0x9010, 0, 12) = s.fld (0x9010, 0, 12) := by
    show fieldOf (u.reg 0x9010) _ _ = fieldOf (s.reg 0x9010) _ _
    rw [hreg, Dev.reg_of_frame h1 (by decide)]
  have hsaf0 : u.saf = s.saf := h12 .saf (by decide)
  have hj : u.mirrorJudge i (Tab.get (fun _ => {}) u.saf.mirror i) = { st := 2, epoch := l.epoch, cls := l.cls, rx := l.rx } := by
    rw [← hlease]
    refine Dev.mirrorJudge_fresh (by rw [hlease]; exact hst) (by rw [hnt, hheard, hlease]; exact hrep) (by rw [hnt, hheard, hfld]; exact hdead) ?_
    rw [hsaf0]
    exact hm
  have hdis : (u.judgedSaf t i).disagree = 0 := by
    show (if (u.mirrorJudge i (Tab.get (fun _ => {}) u.saf.mirror i)).st != (u.lease i).st.code then u.saf.disagree + 1 else 0) = 0
    rw [hj, hlease, hst]
    rfl
  obtain ⟨hsaf, -, hf⟩ := Dev.boundaryWork_one (t := t) hleases
  have hf := hf (by rw [hdis]; decide) (by rw [h12 .par (by decide)]; exact hlink)
  generalize u.boundaryWork t = d at *
  have hdnt : d.nt = (s.tickTo t).nt := by rw [Dev.nt, hf .clk (by decide), ← Dev.nt, hnt]
  refine .of_effect heff ⟨?_, by rw [hsaf, hdis], by rw [hsaf]; rfl, ?_, (hf .txu (by decide)).trans htxu, ?_, (h12.append hf).mono (by decide)⟩
  · rw [hsaf]
    exact (Tab.get_set_self _ _ _ _).trans hj
  · rw [hf .trl (by decide), hdnt]
    exact hresv
  · rw [hf .clk (by decide), h2 .clk (by decide), hclk]

theorem CompletesThen.slotBoundary_disagrees {s : State} {i : Nat} {l : Lease} {m : MirrorLease} (hl : s.txu.leases = [(i, l)]) (hst : l.st = .active)
    (hm : Tab.get (fun _ => {}) s.saf.mirror i = m) (hmst : m.st = 4) (hme : m.epoch = l.epoch) (hdis : s.saf.disagree = 2) :
    CompletesThen .slotBoundary s fun d => .fault 0xB7 false ∈ d.todo ∧ d.saf.disagree = 3 ∧
      (Tab.get (fun _ => ({} : MirrorLease)) d.saf.mirror i).st = 4 := by
  have heff := exec_slotBoundary s
  have hf := frame_lapsed s
  obtain ⟨t, ht⟩ : ∃ t : NT, t = s.nextDue nextSlot s.saf.slotAt := ⟨_, rfl⟩
  unfold Dev.lapsed at hf
  rw [← ht] at heff hf
  generalize (s.tickTo t).expire.serveDemand = u at *
  have hleases : u.txu.leases = [(i, l)] := by rw [hf .txu (by decide), hl]
  have hlease : u.lease i = l := Dev.lease_one hleases
  have hsaf0 : u.saf = s.saf := hf .saf (by decide)
  have hj : (u.mirrorJudge i (Tab.get (fun _ => {}) u.saf.mirror i)).st = 4 := by
    rw [hsaf0, hm]
    exact Dev.mirrorJudge_dead (by rw [hlease]; exact hst) hmst (by rw [hlease]; exact hme)
  have hd3 : (u.judgedSaf t i).disagree = 3 := by
    show (if (u.mirrorJudge i (Tab.get (fun _ => {}) u.saf.mirror i)).st != (u.lease i).st.code then u.saf.disagree + 1 else 0) = 3
    rw [hj, hlease, hst, hsaf0, hdis]
    rfl
  obtain ⟨hsaf, hraise, -⟩ := Dev.boundaryWork_one (t := t) hleases
  refine .of_effect heff ⟨hraise hd3, by rw [hsaf, hd3], ?_⟩
  rw [hsaf]
  exact (congrArg MirrorLease.st (Tab.get_set_self _ _ _ _)).trans hj

/-- Settles O53: leases age at the slot boundaries, one report, one clause of R20 to R23 at a time, and Rootstock judges its own copy. -/
theorem leasesAgeAtSlotBoundaries : Obligations.LeasesAgeAtSlotBoundaries :=
  ⟨fun _ _ _ hl hst hlink hdem hrep hdead hm => .slotBoundary_fresh hl hst hlink hdem hrep hdead hm,
    fun _ _ _ _ hl hst hm hmst hme hdis => .slotBoundary_disagrees hl hst hm hmst hme hdis,
    fun _ _ hst => .leaseSuspect hst, fun _ _ hst => .leaseDead hst, fun _ _ hst hstop => .tStopped hst hstop,
    fun _ _ _ _ hst hh hw => .admitTimeout hst hh hw, fun _ _ hs hst => .zombieSilence hs hst,
    fun _ _ _ hs hst hrep hr => .admitOfferRepeat hs hst hrep hr, fun _ _ _ hs hst hc hr => .confirmRepeat hs hst hc hr⟩

end Sys2Proof.Machine

/-! ### Claims, configurations, reports and the frames of a zombie (R20, R21, R328, R331, R333) -/
namespace Sys2Proof.Machine

/-! #### A claim, and a configuration confirmed -/

theorem Completes.claim {s : State} {dt : Nat} {m : RxItem} (hs : s.Settled) (hm : s.mac.inbox = [m]) (hq : m.q = 28) (ht : frType m.frame = 9)
    (hroom : s.Room (s.evtCq 0x0D01)) :
    Completes (.claim dt) s fun t => t.mac.inbox = [] ∧ t.txu = s.txu ∧
        t.Told (s.evtCq 0x0D01) 0x0D01 (slice m.frame 24 8 ++ leBytes m.lane 1 ++ leBytes (s.slotOfSfd m.lane m.sfd % 50) 1) ∧
        Frame [.clk, .out, .mac, .hif] s.toDev t := by
  obtain ⟨res, hres⟩ : ∃ res, res = slice m.frame 24 8 ++ leBytes m.lane 1 ++ leBytes (s.slotOfSfd m.lane m.sfd % 50) 1 := ⟨_, rfl⟩
  have he : exec (.claim dt) s = s.act fun _ => (s.itemTaken dt).event 0x0D01 res := by
    show execClaim dt s = _
    refine State.act_congr ?_
    dsimp only
    rw [Dev.takeItem_one (s := s.tick dt) hm (by simp [hq, ht]), hres]
    rfl
  rw [← hres]
  have h1 := frame_itemTaken s.toDev dt
  have hinbox : (s.itemTaken dt).mac.inbox = [] := rfl
  generalize s.itemTaken dt = u at *
  obtain ⟨htold, hev⟩ := Dev.told_event (u := u) res hroom (by decide) (h1 .hif (by decide)) fun o _ _ => Dev.reg_of_frame h1 (by decide) o
  have hall : Frame [.clk, .out, .mac, .hif] s.toDev (u.event 0x0D01 res) := (h1.append hev).mono (by decide)
  exact .of_effect hs hall he (by decide) (by decide) ⟨by rw [hev .mac (by decide), hinbox], hall .txu (by decide), htold, hall⟩

theorem Completes.cfgAck {s : State} {dt : Nat} {m : RxItem} {c : RouteChange} (hs : s.Settled) (hm : s.mac.inbox = [m]) (hq : m.q = 25)
    (ht : frType m.frame = 9) (hc : s.mac.changes = [c]) :
    Completes (.cfgAck dt) s fun t => t.mac = { s.mac with
          inbox := [], changes := [if c.cfgVer = leAt m.frame 32 2 then { c with waiting := c.waiting.filter (· != frSrc m.frame) } else c] } ∧
        Frame [.clk, .out, .mac] s.toDev t := by
  have he : exec (.cfgAck dt) s = s.act fun _ => (s.itemTaken dt).confirmCfg (frSrc m.frame) (leAt m.frame 32 2) := by
    show execCfgAck dt s = _
    refine State.act_congr ?_
    dsimp only
    rw [Dev.takeItem_one (s := s.tick dt) hm (by simp [hq, ht])]
    rfl
  have hall : Frame [.clk, .out, .mac] s.toDev ((s.itemTaken dt).confirmCfg (frSrc m.frame) (leAt m.frame 32 2)) :=
    ((frame_itemTaken s.toDev dt).append (frame_withMac _ _)).mono (by decide)
  refine .of_effect hs hall he (by decide) (by decide) ⟨?_, hall⟩
  show ({ s.mac with inbox := [], changes := s.mac.changes.map _ } : Mac) = _
  rw [hc]
  rfl

/-! #### A robot that may not leave yet -/

theorem Completes.robotRelease_refused {s : State} {h i : Nat} {l : Live} (hs : s.Settled) (hr : s.Runs h 0x74 l) (hp : s.paused = false)
    (hi : l.p 0 1 = i) (hsb : s.saf.run ≠ .standby) (hb : s.saf.run ≠ .boot)
    (hst : (s.lease i).st = .unknown ∨ (s.lease i).st = .suspect ∨ (s.lease i).st = .zombie ∨ (s.lease i).st = .active)
    (hoff : (s.lease i).st = .active → s.holdsOffered i = true) :
    Completes (.robotRelease h) s fun t => t.Answered l (if (s.lease i).st = .unknown then stStale else stBusy) (offsetRes (some 24)) ∧
        Frame [.out, .hif] s.toDev t := by
  subst hi
  have hlease : (s.begin.markStarted h).lease (l.p 0 1) = s.lease (l.p 0 1) := rfl
  have hhold : (s.begin.markStarted h).holdsOffered (l.p 0 1) = s.holdsOffered (l.p 0 1) := rfl
  have he : exec (.robotRelease h) s = _ := act_fleetCommand (by simpa [Dev.paused] using hp) _ _ _
  refine .refused he hs hr ?_
  dsimp only
  rw [if_neg (by simp [show (s.begin.markStarted h).saf = s.saf from rfl, hsb, hb]), hlease]
  rcases hst with h1 | h1 | h1 | h1
  · rw [if_pos h1, h1]
  · rw [if_neg (show ¬(s.lease (l.p 0 1)).st = .unknown by rw [h1]; decide), h1]
  · rw [if_neg (show ¬(s.lease (l.p 0 1)).st = .unknown by rw [h1]; decide), h1]
  · rw [if_neg (show ¬(s.lease (l.p 0 1)).st = .unknown by rw [h1]; decide), h1]
    exact if_pos (by rw [hhold, hoff h1, Bool.or_true])

/-! #### The frames of a zombie -/

theorem Dev.lateResult_idle {s : Dev} {i e : Nat} {r : Report} (h : r.task = none) : s.lateResult i e r = s := by
  unfold Dev.lateResult
  rw [h]

theorem Dev.txq_queueAll (s : Dev) (f : TxFrame) : (s.queueAll f).mac.txq.length = s.mac.txq.length + s.inService.length := by
  unfold Dev.queueAll
  generalize s.inService = l
  induction l generalizing s with
  | nil => rfl
  | cons n l ih =>
    rw [List.foldl_cons, ih, List.length_cons]
    show (s.mac.txq ++ [_]).length + _ = _
    rw [List.length_append, List.length_singleton]
    omega

theorem Dev.Told.of_frame {a : List Area} {s t : Dev} {r code : Nat} {res : List Byte} (h : s.Told r code res) (hf : Frame a s t) (hh : .hif ∉ a) :
    t.Told r code res := by
  rw [Dev.Told, Dev.cq, hf .hif hh]
  exact h

/-- The lease of a robot that reports under an epoch that is over, and the note of it. -/
def Dev.zombieLease (s : Dev) (i type : Nat) : Dev :=
  ((s.note (0x300 + i) type []).setLease i { s.lease i with st := .zombie, from_ := (s.lease i).st, zRx := s.nt }).persist i

/-- A frame under an epoch that is over makes the slot a zombie: its lease, the event that tells it and the stops that answer it. -/
def Dev.zombied (s : Dev) (i epoch type : Nat) : Dev :=
  let l := s.lease i
  let s := (s.zombieLease i type).event 0x0901 (leBytes i 1 ++ [0] ++ leBytes epoch 2 ++ leBytes l.uid 4)
  s.directedStop (robotAddr i) epoch 5 s.nt

theorem Dev.zombie_first {s : Dev} {i epoch type : Nat} (hst : (s.lease i).st ≠ .zombie)
    (hflag : (s.zombied i epoch type).flag (0x9014, 0, 1) = false) : s.zombie i epoch type = s.zombied i epoch type := by
  unfold Dev.zombie
  extract_lets l first u1 u2 u3 u4 u5
  have hfirst : first = true := by simp [first, l, hst]
  have hnt : u1.nt = s.nt := by rw [Dev.nt, frame_note s _ _ _ .clk (by decide), ← Dev.nt]
  have h3 : u3 = s.zombieLease i type := by
    show (u1.setLease i { l with st := .zombie, from_ := if first then l.st else l.from_, zRx := u1.nt }).persist i = _
    rw [hfirst, if_pos rfl, hnt]
    rfl
  have h5 : u5 = s.zombied i epoch type := by
    show (if first then u3.event 0x0901 _ else u3).directedStop (robotAddr i) epoch 5 (if first then u3.event 0x0901 _ else u3).nt = _
    rw [hfirst, if_pos rfl, h3]
    rfl
  clear_value u5
  rw [h5, hflag]
  rfl

theorem Dev.zombieLease_spec (s : Dev) (i type : Nat) :
    (∀ j, (s.zombieLease i type).lease j = if j = i then { s.lease i with st := .zombie, from_ := (s.lease i).st, zRx := s.nt } else s.lease j) ∧
      (∀ o, o < 0x13000 → (s.zombieLease i type).reg o = s.reg o) ∧ Frame [.regs, .dry, .txu, .nv] s (s.zombieLease i type) := by
  have h1 := frame_note s (0x300 + i) type []
  have hr1 (o : Nat) (ho : o < 0x13000) : (s.note (0x300 + i) type []).reg o = s.reg o := Dev.reg_note s _ _ _ (by omega)
  unfold Dev.zombieLease
  generalize s.note (0x300 + i) type [] = u at *
  have h2 := frame_setLease u i { s.lease i with st := .zombie, from_ := (s.lease i).st, zRx := s.nt }
  have hl (j : Nat) := Dev.lease_setLease u i j { s.lease i with st := .zombie, from_ := (s.lease i).st, zRx := s.nt }
  generalize u.setLease i { s.lease i with st := .zombie, from_ := (s.lease i).st, zRx := s.nt } = v at *
  have h3 := frame_persist v i
  have h23 := h2.append h3
  refine ⟨fun j => ?_, fun o ho => ?_, (h1.append h23).mono (by decide)⟩
  · rw [Dev.lease_of_txu h3 (by decide), hl, Dev.lease_of_txu h1 (by decide)]
  · rw [Dev.reg_of_frame h23 (by decide), hr1 o ho]

theorem Dev.zombie_spec {s : Dev} {i epoch type : Nat} (hst : (s.lease i).st ≠ .zombie) (hflag : s.flag (0x9014, 0, 1) = false)
    (hroom : s.Room (s.evtCq 0x0901)) :
    (∀ j, (s.zombie i epoch type).lease j = if j = i then { s.lease i with st := .zombie, from_ := (s.lease i).st, zRx := s.nt } else s.lease j) ∧
      (s.zombie i epoch type).Told (s.evtCq 0x0901) 0x0901 (leBytes i 1 ++ [0] ++ leBytes epoch 2 ++ leBytes (s.lease i).uid 4) ∧
      (s.zombie i epoch type).mac.txq.length = s.mac.txq.length + s.inService.length ∧
      Frame [.out, .mac, .txu, .nv, .hif, .dry, .regs] s (s.zombie i epoch type) := by
  obtain ⟨res, hres⟩ : ∃ res, res = leBytes i 1 ++ [0] ++ leBytes epoch 2 ++ leBytes (s.lease i).uid 4 := ⟨_, rfl⟩
  obtain ⟨hl1, hr1, h1⟩ := s.zombieLease_spec i type
  have hz : s.zombied i epoch type = ((s.zombieLease i type).event 0x0901 res).directedStop (robotAddr i) epoch 5
      ((s.zombieLease i type).event 0x0901 res).nt := by rw [hres]; rfl
  have hfirst := Dev.zombie_first (epoch := epoch) (type := type) hst
  rw [← hres]
  rw [hz] at hfirst
  clear hz hres
  generalize s.zombieLease i type = u at *
  obtain ⟨htold, hev⟩ := Dev.told_event (u := u) res hroom (by decide) (h1 .hif (by decide)) fun o _ ho => hr1 o (by omega)
  generalize u.event 0x0901 res = w at *
  have hstop := frame_directedStop w (robotAddr i) epoch 5 w.nt
  have hq : (w.directedStop (robotAddr i) epoch 5 w.nt).mac.txq.length = w.mac.txq.length + w.inService.length := Dev.txq_queueAll w _
  generalize w.directedStop (robotAddr i) epoch 5 w.nt = t at *
  have hevs := hev.append hstop
  have hall := h1.append hevs
  rw [hfirst (by rw [Dev.flag, Dev.fld_of_reg (f := (0x9014, 0, 1)) ((Dev.reg_of_frame hevs (by decide) _).trans (hr1 _ (by decide))), ← Dev.flag]; exact hflag)]
  have hmac : w.mac = s.mac := (hev .mac (by decide)).trans (h1 .mac (by decide))
  refine ⟨fun j => (Dev.lease_of_txu hevs (by decide) j).trans (hl1 j), Dev.Told.of_frame htold hstop (by decide), ?_, hall.mono (by decide)⟩
  rw [hq, hmac, Dev.inService_of_lanes (congrArg Mac.lanes hmac) ((hev .fuse (by decide)).trans (h1 .fuse (by decide)))]

theorem CompletesThen.report_zombie {s : State} {dt i : Nat} {m : RxItem} (hm : s.mac.inbox = [m]) (hq : m.q = 25) (ht : frType m.frame = 3)
    (hrob : s.robotOf (frSrc m.frame) = some i) (hold : s.older i (frEpoch m.frame) = true) (hflag : s.flag (0x9014, 0, 1) = false)
    (htask : (readReport (slice m.frame 22 46)).task = none) (hst : (s.lease i).st ≠ .zombie) (hroom : s.Room (s.evtCq 0x0901)) :
    CompletesThen (.report dt) s fun d => d.lease i = { s.lease i with
          st := .zombie, from_ := (s.lease i).st, zRx := d.nt } ∧ (∀ j, j ≠ i → d.lease j = s.lease j) ∧
        d.Told (s.evtCq 0x0901) 0x0901 (leBytes i 1 ++ [0] ++ leBytes (frEpoch m.frame) 2 ++ leBytes (s.lease i).uid 4) ∧
        d.mac.txq.length = s.mac.txq.length + s.inService.length ∧ d.trl = s.trl ∧ d.clk = s.clk.run dt ∧
        Frame [.clk, .out, .mac, .txu, .nv, .hif, .dry, .regs, .todo] s.toDev d := by
  have he : exec (.report dt) s = s.act fun _ => (s.itemTaken dt).zombie i (frEpoch m.frame) 3 := by
    show execReport dt s = _
    refine State.act_congr ?_
    dsimp only
    have htake : (s.tick dt).takeItem (fun (x : RxItem) => x.q == 25 && frType x.frame != 9) = some (m, s.itemTaken dt) :=
      Dev.takeItem_one (s := s.tick dt) hm (by simp [hq, ht])
    rw [htake]
    dsimp only
    rw [show (s.itemTaken dt).robotOf (frSrc m.frame) = some i from hrob]
    dsimp only
    rw [if_pos (show (s.itemTaken dt).older i (frEpoch m.frame) = true from hold), if_pos (by rw [ht]; rfl)]
    unfold Dev.zombieFrame frameReport
    rw [if_pos ht, ht]
    dsimp only
    rw [Dev.lateResult_idle htask]
  have h1 := frame_itemTaken s.toDev dt
  have hclk : (s.itemTaken dt).clk = s.clk.run dt := rfl
  have hspec := Dev.zombie_spec (s := s.itemTaken dt) (i := i) (epoch := frEpoch m.frame) (type := 3) hst hflag hroom
  have hsame : (s.itemTaken dt).lease i = s.lease i ∧ (∀ j, (s.itemTaken dt).lease j = s.lease j) ∧ (s.itemTaken dt).evtCq 0x0901 = s.evtCq 0x0901 ∧
      (s.itemTaken dt).mac.txq = s.mac.txq ∧ (s.itemTaken dt).inService = s.inService := ⟨rfl, fun _ => rfl, rfl, rfl, rfl⟩
  generalize s.itemTaken dt = u at *
  obtain ⟨hli, hlj, hcq, htxq, hserv⟩ := hsame
  rw [hli, hcq, htxq, hserv] at hspec
  obtain ⟨hl, htold, hlen, h2⟩ := hspec
  generalize u.zombie i (frEpoch m.frame) 3 = d at *
  have hnt : d.nt = u.nt := by rw [Dev.nt, h2 .clk (by decide), ← Dev.nt]
  exact .of_effect he ⟨by rw [hl, if_pos rfl, hnt], fun j hj => ((hl j).trans (if_neg hj)).trans (hlj j), htold, hlen,
    (h2 .trl (by decide)).trans (h1 .trl (by decide)), (h2 .clk (by decide)).trans hclk, (h1.append h2).mono (by decide)⟩

end Sys2Proof.Machine

/-! ### A report renews its lease (R20, R233, R328) -/
namespace Sys2Proof.Machine

/-- What a report's part in transactions, tasks and handovers keeps: the lease but for its mark of an unconfirmed transaction, what waits
in the radio, and the clock. -/
structure Dev.ReportHeld (i : Nat) (s t : Dev) : Prop where
  lease : t.lease i = { s.lease i with unsynced := (t.lease i).unsynced }
  inbox : t.mac.inbox = s.mac.inbox
  clk : t.clk = s.clk

namespace Dev.ReportHeld

theorem of_lease {i : Nat} {s t : Dev} (hl : t.lease i = s.lease i) (hi : t.mac.inbox = s.mac.inbox) (hc : t.clk = s.clk) : s.ReportHeld i t :=
  ⟨by rw [hl], hi, hc⟩

theorem refl (i : Nat) (s : Dev) : s.ReportHeld i s := of_lease rfl rfl rfl

theorem trans {i : Nat} {s t u : Dev} (h : s.ReportHeld i t) (k : t.ReportHeld i u) : s.ReportHeld i u :=
  ⟨by rw [k.lease, h.lease], k.inbox.trans h.inbox, k.clk.trans h.clk⟩

theorem ite {i : Nat} {s t u : Dev} {c : Prop} [Decidable c] (ht : s.ReportHeld i t) (hu : s.ReportHeld i u) :
    s.ReportHeld i (if c then t else u) := by
  split
  · exact ht
  · exact hu

theorem foldl {α : Type} {i : Nat} {f : Dev → α → Dev} (h : ∀ (s : Dev) a, s.ReportHeld i (f s a)) (l : List α) :
    ∀ s : Dev, s.ReportHeld i (l.foldl f s) := by
  induction l with
  | nil => exact fun s => refl i s
  | cons a l ih => exact fun s => (h s a).trans (ih _)

theorem of_frame {a : List Area} {i : Nat} {s t : Dev} (h : Frame a s t) (ht : .txu ∉ a) (hm : .mac ∉ a) (hc : .clk ∉ a) : s.ReportHeld i t :=
  of_lease (Dev.lease_of_txu h ht i) (by rw [h .mac hm]) (h .clk hc)

theorem of_ground {i : Nat} {s t : Dev} (h : s.GroundKept t) : s.ReportHeld i t := of_lease (h.lease i) h.inbox (h.frame .clk (by decide))

theorem queueFrame (i : Nat) (s : Dev) (f : TxFrame) : s.ReportHeld i (s.queueFrame f) := of_lease rfl rfl rfl

theorem queueTo (i : Nat) (s : Dev) (dest : Nat) (f : TxFrame) : s.ReportHeld i (s.queueTo dest f) := by
  unfold Dev.queueTo
  split
  · exact queueFrame i s _
  · exact refl i s

theorem event (i : Nat) (s : Dev) (c : Nat) (b : List Byte) : s.ReportHeld i (s.event c b) :=
  of_frame (frame_event s c b) (by decide) (by decide) (by decide)

theorem raise (i : Nat) (s : Dev) (n : Nat) : s.ReportHeld i (s.raise n) := of_ground (.raise s n)

theorem updPart (i : Nat) (s : Dev) (id slot : Nat) (f : Part → Part) : s.ReportHeld i (s.updPart id slot f) := of_ground (.updTxn s id _)

theorem sendOffers (i : Nat) (s : Dev) (t : Txn) (parts : List Part) (a : NT) (again : Bool) : s.ReportHeld i (s.sendOffers t parts a again) :=
  foldl (fun s _ => foldl (fun s _ => queueFrame i s _) _ s) _ s

theorem sendRoute (i : Nat) (s : Dev) (txn k : Nat) (bodies : List (List Byte)) : s.ReportHeld i (s.sendRoute txn k bodies) :=
  foldl (fun s _ => queueTo i s _ _) _ s

theorem reoffer (i : Nat) (s : Dev) (t : Txn) (p : Part) : s.ReportHeld i (s.reoffer t p) := by
  unfold Dev.reoffer
  extract_lets next recs
  refine ite (updPart i s _ _ _) ?_
  split
  next c late _ =>
    extract_lets u1 u2 u3 u4
    have h1 : s.ReportHeld i u1 := ite (raise i s 0x6A) (refl i s)
    have h2 : u1.ReportHeld i u2 := foldl (fun d x => by
      refine ite ?_ (refl i d)
      dsimp only
      split
      · exact sendRoute i d _ _ _
      · exact refl i d) _ u1
    have h3 : u2.ReportHeld i u3 := ite (refl i u2) (sendOffers i u2 _ _ _ _)
    have h4 : u3.ReportHeld i u4 := of_ground (.cntSat u3 _ (by decide) (by decide) (by decide))
    exact (((h1.trans h2).trans h3).trans h4).trans (updPart i u4 _ _ _)

theorem settleTxns (i : Nat) (s : Dev) : s.ReportHeld i s.settleTxns := foldl (fun d id => of_ground (.settleTxn d id)) _ s

theorem confirmParts (i : Nat) (s : Dev) (rx : NT) (r : Report) : s.ReportHeld i (s.confirmParts i rx r) := by
  unfold Dev.confirmParts
  extract_lets mine yes no u1 still l u2 u3
  have h1 : s.ReportHeld i u1 := foldl (fun d x => updPart i d _ _ _) _ s
  have h2 : u1.ReportHeld i u2 := by
    refine ite ⟨?_, rfl, rfl⟩ (refl i u1)
    rw [Dev.lease_setLease, if_pos rfl]
  have h3 : u2.ReportHeld i u3 := foldl (fun d x => reoffer i d _ _) _ u2
  exact ((h1.trans h2).trans h3).trans (settleTxns i u3)

theorem taskDone (i : Nat) (s : Dev) (id : Nat) : s.ReportHeld i (s.taskDone id) := by
  unfold Dev.taskDone
  extract_lets k got all u x
  have hu : s.ReportHeld i u := of_ground (.setTask s _ _)
  have ht : s.ReportHeld i { u with trl := { u.trl with taskChange := true } } := hu.trans (of_ground (.withTrl u _ rfl ⟨rfl, rfl, rfl⟩))
  exact ht.trans (event i _ _ _)

theorem takeMark (i : Nat) (s : Dev) (r : Report) : s.ReportHeld i (s.takeMark i r) := by
  unfold Dev.takeMark
  split
  · exact refl i s
  next id _ =>
    extract_lets k at_ m0 top beyond mark u1 u2 last
    refine ite (refl i s) ?_
    have h1 : s.ReportHeld i u1 := ite (raise i s 0x6B) (refl i s)
    have h2 : u1.ReportHeld i u2 := of_ground (.setTask u1 _ _)
    exact ite h1 ((h1.trans h2).trans (ite (taskDone i u2 id) (refl i u2)))

theorem handoverReport (i : Nat) (s : Dev) (r : Report) : s.ReportHeld i (s.handoverReport i r) := by
  unfold Dev.handoverReport
  extract_lets n l mode u
  have hu : s.ReportHeld i u := foldl (fun d m => of_frame (frame_setLoop d _ _) (by decide) (by decide) (by decide)) _ s
  have hend : u.ReportHeld i ((((u.cntSat (0xA024, 0, 16)).raise 0x72).event 0x0A01 (leBytes i 1 ++ leBytes r.steer 1)).note 0x456 i (leBytes i 1 ++ leBytes r.steer 1)) :=
    (((of_ground (.cntSat u _ (by decide) (by decide) (by decide))).trans (raise i _ _)).trans (event i _ _ _)).trans (of_ground (.note _ _ _ _))
  exact ite (refl i s) (ite (refl i s) (ite hu (hu.trans hend)))

end Dev.ReportHeld

/-- A lease a report has renewed. -/
def Lease.renewed (l : Lease) (rx : NT) : Lease := { l with rx, reported := true, st := if l.st = .suspect then .active else l.st }

theorem Dev.countReport_spec (s : Dev) (i : Nat) (rx : NT) : (s.countReport i rx true).lease i = (s.lease i).renewed rx ∧
      Frame [.regs, .dry, .txu, .trl, .todo, .nv] s (s.countReport i rx true) := by
  unfold Dev.countReport
  extract_lets l age u1 u2 u3
  have h1 : Frame [.regs, .dry] s u1 := frame_note s _ _ _
  have h2 : Frame [.txu] u1 u2 := frame_setLease u1 i _
  have hl2 : u2.lease i = (s.lease i).renewed rx :=
    (Dev.lease_setLease u1 i i _).trans (if_pos rfl)
  have h3 : Frame [.trl, .regs, .todo] u2 u3 := frame_setResv u2 _
  clear_value u1 u2 u3
  have h4 := frame_envelope u3 i u3.nt false
  have h5 := frame_persist (u3.envelope i u3.nt false) i
  have h35 := (h3.append h4).append h5
  have h12 := h1.append h2
  split
  · exact ⟨(Dev.lease_of_txu h35 (by decide) i).trans hl2, (h12.append h35).mono (by decide)⟩
  · exact ⟨hl2, h12.mono (by decide)⟩

theorem Dev.takeReport_spec (s : Dev) (i : Nat) (rx : NT) (r : Report) :
    ∃ c u, (s.takeReport i rx r).lease i = { s.lease i with report := some r, repRx := rx, confirmed := c, unsynced := u } ∧
      (s.takeReport i rx r).mac.inbox = s.mac.inbox ∧ (s.takeReport i rx r).clk = s.clk := by
  unfold Dev.takeReport
  extract_lets l u1 u2 u3
  have hl1 : u1.lease i = { s.lease i with report := some r, repRx := rx, confirmed := l.confirmed || (r.cfgVer != 0 && r.cfgVer == l.cfgVer) } :=
    (Dev.lease_setLease s i i _).trans (if_pos rfl)
  have h1 : u1.mac.inbox = s.mac.inbox ∧ u1.clk = s.clk := ⟨rfl, rfl⟩
  have h2 : u1.ReportHeld i u2 := .of_lease rfl rfl rfl
  have h3 : u2.ReportHeld i u3 := .confirmParts i u2 rx r
  have h := ((h2.trans h3).trans (.takeMark i u3 r)).trans (.handoverReport i _ r)
  exact ⟨_, _, by rw [h.lease, hl1], h.inbox.trans h1.1, h.clk.trans h1.2⟩

theorem CompletesThen.report_renews {s : State} {dt i : Nat} {m : RxItem} (hm : s.mac.inbox = [m]) (hq : m.q = 25) (ht : frType m.frame = 3)
    (hrob : s.robotOf (frSrc m.frame) = some i) (hold : s.older i (frEpoch m.frame) = false) (hcounts : s.counts i (frEpoch m.frame) = true) :
    CompletesThen (.report dt) s fun d => (d.lease i).rx = m.rx ∧ (d.lease i).reported = true ∧ (d.lease i).epoch = (s.lease i).epoch ∧
        (d.lease i).report = some (readReport (slice m.frame 22 46)) ∧ (d.lease i).repRx = m.rx ∧
        (d.lease i).st = (if (s.lease i).st = .suspect then .active else (s.lease i).st) ∧ d.mac.inbox = [] ∧ d.clk = s.clk.run dt := by
  have he : exec (.report dt) s =
      s.act fun _ => ((s.itemTaken dt).countReport i m.rx true).takeReport i m.rx (readReport (slice m.frame 22 46)) := by
    show execReport dt s = _
    refine State.act_congr ?_
    dsimp only
    have htake : (s.tick dt).takeItem (fun (x : RxItem) => x.q == 25 && frType x.frame != 9) = some (m, s.itemTaken dt) :=
      Dev.takeItem_one (s := s.tick dt) hm (by simp [hq, ht])
    rw [htake]
    dsimp only
    rw [show (s.itemTaken dt).robotOf (frSrc m.frame) = some i from hrob]
    dsimp only
    rw [if_neg (by rw [show (s.itemTaken dt).older i (frEpoch m.frame) = false from hold]; decide),
      if_neg (by rw [show (s.itemTaken dt).counts i (frEpoch m.frame) = true from hcounts]; decide)]
    unfold frameReport
    rw [if_pos ht, ht]
    rfl
  have hu : (s.itemTaken dt).lease i = s.lease i ∧ (s.itemTaken dt).mac.inbox = [] ∧ (s.itemTaken dt).clk = s.clk.run dt := ⟨rfl, rfl, rfl⟩
  generalize s.itemTaken dt = u at *
  obtain ⟨hl, hinbox, hclk⟩ := hu
  obtain ⟨hc, hcf⟩ := u.countReport_spec i m.rx
  generalize u.countReport i m.rx true = v at *
  obtain ⟨c, x, hlease, hbox, hv⟩ := v.takeReport_spec i m.rx (readReport (slice m.frame 22 46))
  generalize v.takeReport i m.rx (readReport (slice m.frame 22 46)) = d at *
  rw [hc, hl] at hlease
  refine .of_effect he ⟨?_, ?_, ?_, ?_, ?_, ?_, ?_, (hv.trans (hcf .clk (by decide))).trans hclk⟩
  · exact congrArg Lease.rx hlease
  · exact congrArg Lease.reported hlease
  · exact (congrArg Lease.epoch hlease).trans rfl
  · exact congrArg Lease.report hlease
  · exact congrArg Lease.repRx hlease
  · exact congrArg Lease.st hlease
  · rw [hbox, hcf .mac (by decide), hinbox]

end Sys2Proof.Machine

/-! ### A robot is released (R24, R25) -/
namespace Sys2Proof.Machine

/-! #### What an envelope leaves of the registers below the Trellis's -/

theorem Dev.reg_useView (s : Dev) (id : Nat) {o : Nat} (ho : o ≠ 0x804C) : (s.useView id).reg o = s.reg o := by
  unfold Dev.useView
  dsimp only
  split
  · rfl
  · exact Dev.reg_setFld_ne s _ _ _ ho

theorem Dev.reg_foldl {α : Type} {f : Dev → α → Dev} {o : Nat} (h : ∀ s a, (f s a).reg o = s.reg o) (l : List α) :
    ∀ s : Dev, (l.foldl f s).reg o = s.reg o := by
  induction l with
  | nil => exact fun _ => rfl
  | cons x l ih => exact fun s => (ih _).trans (h s x)

theorem Dev.reg_useViews (s : Dev) (l : List Resv) {o : Nat} (ho : o ≠ 0x804C) : (s.useViews l).reg o = s.reg o := by
  unfold Dev.useViews
  split
  · rfl
  · exact Dev.reg_foldl (fun d r => Dev.reg_foldl (fun d id => Dev.reg_useView d id ho) _ d) l s

theorem Dev.reg_putEnv (s : Dev) (i : Nat) (es : List Resv) {o : Nat} (ho : o < 0x8000) : (s.putEnv i es).reg o = s.reg o :=
  (Dev.reg_setResv _ _ (by omega)).trans (Dev.reg_useViews s es (by omega))

theorem Dev.reg_envelope (s : Dev) (i : Nat) (t : NT) (b : Bool) {o : Nat} (ho : o < 0x8000) : (s.envelope i t b).reg o = s.reg o := by
  unfold Dev.envelope
  split
  · split
    · exact Dev.reg_putEnv s i _ ho
    · rfl
  · dsimp only
    split
    · rfl
    · exact (Dev.reg_putEnv _ i _ ho).trans rfl

/-! #### The ground of a robot that leaves -/

/-- No entry of a robot is left. -/
def Dev.cleared (s : Dev) (i : Nat) : Dev := s.setResv (s.trl.resv.filter fun r => r.robot != i)

/-- A robot that parks leaves a standing envelope alone. -/
def Dev.parkedGround (s : Dev) (i : Nat) : Dev :=
  let s := s.setResv (s.trl.resv.filter fun r => !(r.robot = i && r.kind != .envelope))
  (s.envelope i s.nt true).standEntries i

theorem Dev.cleared_spec (s : Dev) (i : Nat) : (∀ q ∈ (s.cleared i).trl.resv, q.robot ≠ i) ∧ Frame [.trl, .regs, .todo] s (s.cleared i) ∧
    ∀ o, o < 0x8000 → (s.cleared i).reg o = s.reg o := by
  refine ⟨fun q hq => ?_, frame_setResv s _, fun o ho => Dev.reg_setResv s _ (by omega)⟩
  have hr : (s.cleared i).trl.resv = s.trl.resv.filter fun r => r.robot != i := Dev.resv_setResv _ _
  rw [hr] at hq
  simpa using (List.mem_filter.1 hq).2

theorem Dev.parkedGround_spec (s : Dev) (i : Nat) : (∀ q ∈ (s.parkedGround i).trl.resv, q.robot = i → q.kind = .envelope ∧ q.frozen = true) ∧
    Frame [.trl, .regs, .todo] s (s.parkedGround i) ∧ ∀ o, o < 0x8000 → (s.parkedGround i).reg o = s.reg o := by
  unfold Dev.parkedGround
  extract_lets u
  have h1 : Frame [.trl, .regs, .todo] s u := frame_setResv s _
  have hr1 (o : Nat) (ho : o < 0x8000) : u.reg o = s.reg o := Dev.reg_setResv s _ (by omega)
  have he1 : u.Enveloped i := by
    have hr : u.trl.resv = s.trl.resv.filter fun r => !(r.robot = i && r.kind != .envelope) := Dev.resv_setResv _ _
    unfold Dev.Enveloped
    rw [hr]
    intro r hr hi
    simpa [hi] using (List.mem_filter.1 hr).2
  clear_value u
  have h2 := frame_envelope u i u.nt true
  have hr2 (o : Nat) (ho : o < 0x8000) : (u.envelope i u.nt true).reg o = u.reg o := Dev.reg_envelope u i _ _ ho
  have he2 := Dev.enveloped_envelope he1 u.nt true
  generalize u.envelope i u.nt true = v at *
  have hr : (v.standEntries i).trl.resv = freezeAll i v.trl.resv := Dev.resv_setResv _ _
  refine ⟨fun q hq hi => ?_, ((h1.append h2).append (frame_standEntries v i)).mono (by decide), fun o ho => ?_⟩
  · rw [hr] at hq
    obtain ⟨hz, x, hx, hxi, hk⟩ := mem_freezeAll hq hi
    exact ⟨hk ▸ he2 x hx hxi, hz⟩
  · rw [Dev.regs_standEntries v i ho, hr2 o ho, hr1 o ho]

/-! #### The command -/

theorem CompletesThen.imp {c : Instr} {s : State} {P Q : Dev → Prop} (h : CompletesThen c s P) (hpq : ∀ d, P d → Q d) : CompletesThen c s Q :=
  have ⟨t, d, ht, hd, hs, hp⟩ := h
  ⟨t, d, ht, hd, hs, hpq d hp⟩

/-- The ground of a robot after its release, parked or not. -/
def Dev.leftGround (s : Dev) (i : Nat) (park : Bool) : Dev := if park then s.parkedGround i else s.cleared i

theorem Dev.leftGround_spec (s : Dev) (i : Nat) (park : Bool) :
    (park = false → ∀ q ∈ (s.leftGround i park).trl.resv, q.robot ≠ i) ∧
      (park = true → ∀ q ∈ (s.leftGround i park).trl.resv, q.robot = i → q.kind = .envelope ∧ q.frozen = true) ∧
      Frame [.trl, .regs, .todo] s (s.leftGround i park) ∧ ∀ o, o < 0x8000 → (s.leftGround i park).reg o = s.reg o := by
  cases park with
  | true =>
    rw [show s.leftGround i true = s.parkedGround i from if_pos rfl]
    obtain ⟨hq, hf, hr⟩ := s.parkedGround_spec i
    exact ⟨fun h => Bool.noConfusion h, fun _ => hq, hf, hr⟩
  | false =>
    rw [show s.leftGround i false = s.cleared i from if_neg Bool.false_ne_true]
    obtain ⟨hq, hf, hr⟩ := s.cleared_spec i
    exact ⟨fun _ => hq, fun h => Bool.noConfusion h, hf, hr⟩

/-- The release of a robot, its command answered. -/
def Dev.leaves (s : Dev) (h i : Nat) (park : Bool) : Dev :=
  (((s.endLease i { s.lease i with parked := park }).leftGround i park).persist i).done h stOK []

theorem CompletesThen.robotLeaves {s : State} {h i : Nat} {l : Live} {park : Bool} (hr : s.Runs h 0x74 l)
    (he : exec (.robotRelease h) s = s.act fun _ => (s.begin.markStarted h).leaves h i park) :
    CompletesThen (.robotRelease h) s fun d => (d.lease i).st = .released ∧ (d.lease i).parked = park ∧ d.live? h = none ∧
        (park = false → ∀ q ∈ d.trl.resv, q.robot ≠ i) ∧ (park = true → ∀ q ∈ d.trl.resv, q.robot = i → q.kind = .envelope ∧ q.frozen = true) ∧
        (∀ j, j ≠ i → d.lease j = s.lease j) ∧ (d.loop (24 + 2 * i)).Zeroed ∧ (d.loop (25 + 2 * i)).Zeroed ∧
        (s.txu.txns = [] → (s.frkSlot i).reset = none → d.Answered l stOK []) := by
  obtain ⟨hfree, hpark, hf, hregs⟩ := ((s.begin.markStarted h).endLease i { s.lease i with parked := park }).leftGround_spec i park
  obtain ⟨hl, htrl, hlive, hans, hu0, hu1, -⟩ := Dev.leaseOver_spec (i := i) (l := { s.lease i with parked := park }) hr.waits hf hregs stOK []
  have hsame : (s.begin.markStarted h).txu = s.txu ∧ (s.begin.markStarted h).frk = s.frk := ⟨rfl, rfl⟩
  have hle : (s.begin.markStarted h).leaves h i park =
      ((((s.begin.markStarted h).endLease i { s.lease i with parked := park }).leftGround i park).persist i).done h stOK [] := rfl
  rw [hle] at he
  clear hle
  generalize (((s.begin.markStarted h).endLease i { s.lease i with parked := park }).leftGround i park) = g at *
  generalize (g.persist i).done h stOK [] = d at *
  generalize s.begin.markStarted h = b at *
  obtain ⟨htxu, hfrk⟩ := hsame
  have hlease (j : Nat) : b.lease j = s.lease j := by rw [Dev.lease, htxu, ← Dev.lease]
  refine .of_effect he ⟨by rw [hl, if_pos rfl], by rw [hl, if_pos rfl], hlive, ?_, ?_, fun j hj => ?_, hu0, hu1, fun hq hreset => ?_⟩
  · rw [htrl]
    exact hfree
  · rw [htrl]
    exact hpark
  · rw [hl, if_neg hj, hlease]
  · exact hans (htxu ▸ hq) (by rw [Dev.frkSlot, hfrk]; exact hreset)

theorem CompletesThen.robotRelease_active {s : State} {h i : Nat} {l : Live} {r : Report} (hr : s.Runs h 0x74 l) (hp : s.paused = false)
    (hi : l.p 0 1 = i) (hsb : s.saf.run ≠ .standby) (hb : s.saf.run ≠ .boot) (hst : (s.lease i).st = .active)
    (hrep : (s.lease i).report = some r) (hv : r.vMeas = 0) (hoff : s.holdsOffered i = false) :
    CompletesThen (.robotRelease h) s fun d => (d.lease i).st = .released ∧ (d.lease i).parked = decide (l.p 1 1 = 1) ∧ d.live? h = none ∧
        (l.p 1 1 ≠ 1 → ∀ q ∈ d.trl.resv, q.robot ≠ i) ∧ (l.p 1 1 = 1 → ∀ q ∈ d.trl.resv, q.robot = i → q.kind = .envelope ∧ q.frozen = true) ∧
        (∀ j, j ≠ i → d.lease j = s.lease j) ∧ (d.loop (24 + 2 * i)).st = .open_ ∧ (d.loop (25 + 2 * i)).u = 0 ∧
        (s.txu.txns = [] → (s.frkSlot i).reset = none → d.Answered l stOK []) := by
  subst hi
  have he : exec (.robotRelease h) s = s.act fun _ => (s.begin.markStarted h).leaves h (l.p 0 1) (l.p 1 1 == 1) := by
    have h1 : exec (.robotRelease h) s = _ := act_fleetCommand (by simpa [Dev.paused] using hp) _ _ _
    rw [h1]
    refine State.act_congr ((Dev.command_eq _ hr).trans ?_)
    have hlease : (s.begin.markStarted h).lease (l.p 0 1) = s.lease (l.p 0 1) := rfl
    have hsaf : (s.begin.markStarted h).saf = s.saf := rfl
    have hhold : (s.begin.markStarted h).holdsOffered (l.p 0 1) = false := hoff
    unfold Dev.leaves Dev.leftGround Dev.cleared Dev.parkedGround Dev.standEntries
    generalize s.begin.markStarted h = b at *
    dsimp only
    rw [if_neg (by simp [hsaf, hsb, hb]), hlease, hst, hrep, hhold]
    dsimp only
    rw [if_neg (by simp [hv])]
  refine (CompletesThen.robotLeaves hr he).imp fun d ⟨hs, hpk, hlive, hfree, hpark, hoth, hu0, hu1, hans⟩ =>
    ⟨hs, hpk.trans (beq_eq_decide ..), hlive, fun hne => hfree (by simpa using hne), fun heq => hpark (by simpa using heq), hoth, hu0.1, hu1.2, hans⟩

theorem CompletesThen.robotRelease_dead {s : State} {h i : Nat} {l : Live} (hr : s.Runs h 0x74 l) (hp : s.paused = false) (hi : l.p 0 1 = i)
    (hpk : l.p 1 1 = 0) (hsb : s.saf.run ≠ .standby) (hb : s.saf.run ≠ .boot) (hst : (s.lease i).st = .dead) (hstop : (s.lease i).stopped = true) :
    CompletesThen (.robotRelease h) s fun d => (d.lease i).st = .released ∧ (d.lease i).parked = false ∧ d.live? h = none ∧
        (∀ q ∈ d.trl.resv, q.robot ≠ i) ∧ (∀ j, j ≠ i → d.lease j = s.lease j) ∧ (d.loop (24 + 2 * i)).u = 0 ∧ (d.loop (25 + 2 * i)).u = 0 ∧
        (s.txu.txns = [] → (s.frkSlot i).reset = none → d.Answered l stOK []) := by
  subst hi
  have he : exec (.robotRelease h) s = s.act fun _ => (s.begin.markStarted h).leaves h (l.p 0 1) false := by
    have h1 : exec (.robotRelease h) s = _ := act_fleetCommand (by simpa [Dev.paused] using hp) _ _ _
    rw [h1]
    refine State.act_congr ((Dev.command_eq _ hr).trans ?_)
    have hlease : (s.begin.markStarted h).lease (l.p 0 1) = s.lease (l.p 0 1) := rfl
    have hsaf : (s.begin.markStarted h).saf = s.saf := rfl
    unfold Dev.leaves Dev.leftGround Dev.cleared
    rw [if_neg Bool.false_ne_true]
    generalize s.begin.markStarted h = b at *
    dsimp only
    rw [if_neg (by simp [hsaf, hsb, hb]), hlease, hst]
    dsimp only
    rw [if_neg (by simp [hpk, hstop])]
  refine (CompletesThen.robotLeaves hr he).imp fun d ⟨hs, hpk, hlive, hfree, _, hoth, hu0, hu1, hans⟩ =>
    ⟨hs, hpk, hlive, hfree rfl, hoth, hu0.2, hu1.2, hans⟩

end Sys2Proof.Machine

/-! ### A robot is admitted under a new epoch (R14, R16, R20, R21) -/
namespace Sys2Proof.Machine

/-! #### The steps of an admission -/

theorem Dev.frkSlot_setFrkSlot_self (s : Dev) (i : Nat) (x : FrkSlot) : (s.setFrkSlot i x).frkSlot i = x := Tab.get_set_self _ _ _ _

theorem Dev.frkAdmit_spec (s : Dev) (i : Nat) :
    ((s.frkAdmit i).frkSlot i).st = .waiting ∧ Frame [.frk, .hif, .out, .gov, .snp] s (s.frkAdmit i) := by
  unfold Dev.frkAdmit
  extract_lets q u1 u2 x u3
  have h1 : Frame [.frk] s u1 := frame_withFrk s _
  have hreset : Frame [.frk, .hif, .out] u1 (u1.staleReset i) := by
    unfold Dev.staleReset Dev.endReset
    split
    · exact (frame_setFrkSlot u1 i _).append (frame_done _ _ _ _)
    · exact .refl _ u1
  have h2 := hreset.append (frame_frkReset (u1.staleReset i) i .waiting)
  have hst2 : (u2.frkSlot i).st = .waiting := congrArg FrkSlot.st (Dev.frkSlot_setFrkSlot_self _ _ _)
  clear_value u1
  have h3 : Frame [.frk] u2 u3 := frame_setFrkSlot u2 i _
  have hst3 : (u3.frkSlot i).st = .waiting := (congrArg FrkSlot.st (Dev.frkSlot_setFrkSlot_self _ _ _)).trans hst2
  refine ⟨hst3, (((h1.append h2).append h3).append (frame_setRover u3 i {})).mono (by decide)⟩

theorem Dev.disp_persist (s : Dev) (i : Nat) : (Tab.get (fun _ => ({} : Disp)) (s.persist i).nv.disp i).epoch = (s.lease i).epoch := by
  have hget : Tab.get (fun _ => ({} : Disp)) (s.persist i).nv.disp i = _ := Tab.get_set_self _ _ _ _
  rw [hget]
  split
  · rfl
  · rfl

theorem Dev.routes_queueAll (s : Dev) (f : TxFrame) : (s.queueAll f).mac.routes = s.mac.routes := by
  unfold Dev.queueAll
  generalize s.inService = l
  induction l generalizing s with
  | nil => rfl
  | cons n l ih => exact (ih _).trans rfl

theorem Dev.sendOffer_spec (s : Dev) (i : Nat) :
    (∃ x : NT, ∀ j, (s.sendOffer i).lease j = if j = i then { s.lease i with sentAt := x } else s.lease j) ∧
      (s.sendOffer i).mac.routes = s.mac.routes ∧ Frame [.mac, .txu] s (s.sendOffer i) := by
  unfold Dev.sendOffer
  extract_lets l route body f t x
  have ht : t.mac.routes = s.mac.routes ∧ Frame [.mac] s t := by
    cases hr : s.routeTo (robotAddr i) with
    | some r =>
      have heq : t = s.queueFrame { f with lane := r.lane } := by
        show (match s.routeTo (robotAddr i) with | some r => s.queueFrame { f with lane := r.lane } | none => s.queueAll f) = _
        rw [hr]
      rw [heq]
      exact ⟨rfl, frame_queueFrame s _⟩
    | none =>
      have heq : t = s.queueAll f := by
        show (match s.routeTo (robotAddr i) with | some r => s.queueFrame { f with lane := r.lane } | none => s.queueAll f) = _
        rw [hr]
      rw [heq]
      exact ⟨s.routes_queueAll f, frame_queueAll s f⟩
  obtain ⟨hroutes, hf⟩ := ht
  have hx : x = s.lease i := Dev.lease_of_txu hf (by decide) i
  clear_value t x
  subst hx
  refine ⟨⟨t.nt, fun j => ?_⟩, hroutes, hf.append (frame_setLease t i _)⟩
  exact (Dev.lease_setLease t i j _).trans (by rw [Dev.lease_of_txu hf (by decide)])

theorem Dev.areaEnvelope_stands (s : Dev) (i : Nat) : ∀ q ∈ s.areaEnvelope i, q.kind = .envelope ∧ q.openEnd = true := by
  intro q hq
  unfold Dev.areaEnvelope at hq
  split at hq
  · exact absurd hq List.not_mem_nil
  · obtain ⟨r, -, rfl⟩ := List.mem_map.1 hq
    exact ⟨rfl, rfl⟩

/-- The ground of a robot that is admitted: its admission area alone. -/
theorem Dev.resv_admitted {s : Dev} {i : Nat} (h : ∀ q ∈ s.trl.resv, q.robot ≠ i) :
    ∀ q ∈ (s.putEnv i (s.areaEnvelope i)).trl.resv, q.robot = i → q.kind = .envelope ∧ q.openEnd = true := by
  rw [Dev.resv_putEnv]
  intro q hq hi
  rcases List.mem_append.1 hq with h1 | h2
  · exact absurd hi (h q (List.mem_filter.1 h1).1)
  · exact s.areaEnvelope_stands i q h2

/-- A lease that takes a robot in under an epoch, with the rest as it was asked for. -/
def Lease.TakenIn (x l : Lease) (epoch : Nat) : Prop :=
  x.st = .admitting ∧ x.epoch = epoch ∧ x.uid = l.uid ∧ x.cls = l.cls ∧ x.handle = l.handle ∧ x.reported = false

theorem Dev.takeIn_spec (s : Dev) (i : Nat) (l : Lease) :
    ((s.takeIn i l).lease i).TakenIn l (nextVer (s.lease i).epoch) ∧ (∀ j, j ≠ i → (s.takeIn i l).lease j = s.lease j) ∧
      (Tab.get (fun _ => ({} : Disp)) (s.takeIn i l).nv.disp i).epoch = nextVer (s.lease i).epoch ∧
      (∀ q ∈ (s.takeIn i l).trl.resv, q.robot = i → q.kind = .envelope ∧ q.openEnd = true) ∧
      (s.takeIn i l).mac.routes = s.mac.routes ∧ ((s.takeIn i l).frkSlot i).st = .waiting ∧
      ((s.takeIn i l).loop (24 + 2 * i)).Zeroed ∧ ((s.takeIn i l).loop (25 + 2 * i)).Zeroed := by
  unfold Dev.takeIn
  extract_lets old epoch u1 u2 cfg x1 u3 olds u4 u5 x2 u6 u7 u8
  have h1 : s.GroundKept u1 := ((Dev.GroundKept.abortParts s i 0x0501).trans (.orphanTasks _ i false)).trans (.endParts _ i)
  obtain ⟨hst, h2⟩ : (u2.frkSlot i).st = .waiting ∧ Frame [.frk, .hif, .out, .gov, .snp] u1 u2 := u1.frkAdmit_spec i
  clear_value u1 u2
  have hl3 (j : Nat) : u3.lease j = u2.lease j := rfl
  have h3 : Frame [.txu] u2 u3 := frame_withTxu u2 _
  have h4 : Frame [.txu] u3 u4 := frame_setLease u3 i _
  have ht4 : (u4.lease i).TakenIn l epoch := by
    rw [show u4.lease i = _ from (Dev.lease_setLease u3 i i _).trans (if_pos rfl)]
    exact ⟨rfl, rfl, rfl, rfl, rfl, rfl⟩
  have hl4 (j : Nat) (hj : j ≠ i) : u4.lease j = u3.lease j := (Dev.lease_setLease u3 i j _).trans (if_neg hj)
  clear_value u3 u4
  have h5 : Frame [.trl] u4 u5 := frame_setRob u4 i {}
  have h6 : Frame [.trl] u5 u6 := frame_withTrl u5 _
  have h7 : Frame [.trl, .regs, .todo] u6 (u6.cleared i) := (u6.cleared_spec i).2.1
  have hfree : ∀ q ∈ (u6.cleared i).trl.resv, q.robot ≠ i := (u6.cleared_spec i).1
  have h8 : Frame [.ctl] (u6.cleared i) u7 := frame_zeroLoops (u6.cleared i) i true
  have hz7 : (u7.loop (24 + 2 * i)).Zeroed ∧ (u7.loop (25 + 2 * i)).Zeroed := Dev.loop_zeroLoops (u6.cleared i) i true
  have h9 : Frame [.trl, .regs, .todo] u7 (u7.putEnv i (u7.areaEnvelope i)) := frame_putEnv u7 i _
  have hresv : ∀ q ∈ (u7.putEnv i (u7.areaEnvelope i)).trl.resv, q.robot = i → q.kind = .envelope ∧ q.openEnd = true :=
    Dev.resv_admitted (by rw [h8 .trl (by decide)]; exact hfree)
  have h10 : Frame [.nv] (u7.putEnv i (u7.areaEnvelope i)) u8 := frame_persist _ i
  have hdisp : (Tab.get (fun _ => ({} : Disp)) u8.nv.disp i).epoch = ((u7.putEnv i (u7.areaEnvelope i)).lease i).epoch := Dev.disp_persist _ i
  obtain ⟨⟨at_, hl⟩, hroutes, h11⟩ := u8.sendOffer_spec i
  clear_value u5 u6 u7 u8
  generalize u6.cleared i = v at *
  generalize u7.putEnv i (u7.areaEnvelope i) = w at *
  generalize u8.sendOffer i = d at *
  have h48 := (((((h5.append h6).append h7).append h8).append h9).append h10)
  have hlease (j : Nat) : u8.lease j = u4.lease j := Dev.lease_of_txu h48 (by decide) j
  have hw (j : Nat) : w.lease j = u4.lease j := Dev.lease_of_txu ((((h5.append h6).append h7).append h8).append h9) (by decide) j
  obtain ⟨hsa, hep, huid, hcls, hhan, hrep⟩ := ht4
  refine ⟨?_, fun j hj => ?_, ?_, ?_, ?_, ?_, ?_, ?_⟩
  · rw [hl, if_pos rfl, hlease]
    exact ⟨hsa, hep, huid, hcls, hhan, hrep⟩
  · rw [hl, if_neg hj, hlease, hl4 j hj, hl3, Dev.lease_of_txu h2 (by decide), h1.lease]
  · rw [h11 .nv (by decide), hdisp, hw, hep]
  · rw [h11 .trl (by decide), h10 .trl (by decide)]
    exact hresv
  · rw [hroutes, h48 .mac (by decide), h4 .mac (by decide), h3 .mac (by decide), h2 .mac (by decide), h1.routes]
  · rw [Dev.frkSlot, h11 .frk (by decide), h48 .frk (by decide), h4 .frk (by decide), h3 .frk (by decide)]
    exact hst
  · rw [Dev.loop, h11 .ctl (by decide), h10 .ctl (by decide), h9 .ctl (by decide)]
    exact hz7.1
  · rw [Dev.loop, h11 .ctl (by decide), h10 .ctl (by decide), h9 .ctl (by decide)]
    exact hz7.2

/-! #### The command -/

theorem CompletesThen.robotAdmit {s : State} {h i : Nat} {l : Live} {b : List Byte} {g : Graph} {x : SegRec} {r : RouteEnt}
    (hr : s.Runs h 0x73 l) (hp : s.paused = false) (hi : i = leAt b 8 1) (hin : i < s.nSlots) (hcls : leAt b 9 1 < 16)
    (htr : leAt b 10 1 = 1 ∨ leAt b 10 1 = 2) (hkey : leAt b 11 1 < 16) (hseg : leAt b 12 4 < 2 ^ 20) (hlo : leAt b 16 2 ≤ leAt b 18 2)
    (hz : zeros b 20 12 = true) (hval : (s.cls (leAt b 9 1)).valid = true) (hhz : 10 / leAt b 10 1 ≤ s.epochHz) (hsb : s.saf.run ≠ .standby)
    (hb : s.saf.run ≠ .boot) (hg : s.trl.graph = some g) (hx : g.seg? (leAt b 12 4) = some x) (hlen : leAt b 18 2 ≤ x.len)
    (hna : (s.lease i).st ≠ .admitting) (hnc : (s.lease i).st ≠ .active) (hns : (s.lease i).st ≠ .suspect)
    (hbound : (s.lease i).bound = true → (s.lease i).uid = leAt b 0 8)
    (hload : s.ratedLoad i + 10 / leAt b 10 1 ≤ (if s.fuse.big then 1280 else 640)) (hroute : s.parseRoute (slice b 32 32) = some r)
    (hdest : r.dest = robotAddr i) (hlane : (s.lane r.lane).st = .inService) (hsl : r.sleepy = false)
    (hbreak : s.routesBreak (setRoutes s.mac.routes [r] []) r.lane = false) :
    CompletesThen (.robotAdmit h (some b)) s fun d => (d.lease i).st = .admitting ∧ (d.lease i).epoch = nextVer (s.lease i).epoch ∧
        (d.lease i).uid = leAt b 0 8 ∧ (d.lease i).cls = leAt b 9 1 ∧ (d.lease i).handle = some h ∧ (d.lease i).reported = false ∧
        (Tab.get (fun _ => ({} : Disp)) d.nv.disp i).epoch = nextVer (s.lease i).epoch ∧ (∀ j, j ≠ i → d.lease j = s.lease j) ∧
        (∀ q ∈ d.trl.resv, q.robot = i → q.kind = .envelope ∧ q.openEnd = true) ∧ d.mac.routes = setRoutes s.mac.routes [r] [] ∧
        (d.frkSlot i).st = .waiting ∧ (d.loop (24 + 2 * i)).st = .open_ ∧ (d.loop (25 + 2 * i)).u = 0 := by
  have he : exec (.robotAdmit h (some b)) s = s.act fun _ =>
      ({ s.begin.markStarted h with mac := { s.mac with routes := setRoutes s.mac.routes [r] [] } } : Dev).takeIn i
        { s.lease i with uid := leAt b 0 8, cls := leAt b 9 1, tRep := leAt b 10 1, keyIdx := leAt b 11 1
                         area := (leAt b 12 4, leAt b 16 2, leAt b 18 2), padded := 0, handle := some h } := by
    have h1 : exec (.robotAdmit h (some b)) s = _ := act_fleetCommand (by simpa [Dev.paused] using hp) _ _ _
    rw [h1]
    refine State.act_congr ((Dev.command_eq _ hr).trans ?_)
    have hslots : (s.begin.markStarted h).nSlots = s.nSlots := rfl
    have hlease : (s.begin.markStarted h).lease i = s.lease i := rfl
    have hsaf : (s.begin.markStarted h).saf = s.saf := rfl
    have hcv : ((s.begin.markStarted h).cls (leAt b 9 1)).valid = true := hval
    have hep : (s.begin.markStarted h).epochHz = s.epochHz := rfl
    have hgr : (s.begin.markStarted h).trl.graph = some g := hg
    have hld : (s.begin.markStarted h).ratedLoad i = s.ratedLoad i := rfl
    have hfu : (s.begin.markStarted h).fuse = s.fuse := rfl
    have hpr : (s.begin.markStarted h).parseRoute (slice b 32 32) = some r := hroute
    have hln : ((s.begin.markStarted h).lane r.lane).st = .inService := hlane
    have hmac : (s.begin.markStarted h).mac = s.mac := rfl
    have hbr : (s.begin.markStarted h).routesBreak (setRoutes s.mac.routes [r] []) r.lane = false := hbreak
    subst hi
    generalize s.begin.markStarted h = d at *
    have hbad : firstBad [(leAt b 8 1 < d.nSlots, 72), (leAt b 9 1 < 16, 73), (leAt b 10 1 == 1 || leAt b 10 1 == 2, 74), (leAt b 11 1 < 16, 75),
        (leAt b 12 4 < 2 ^ 20, 76), (leAt b 16 2 ≤ leAt b 18 2, 80), (zeros b 20 12, 84)] = none := by
      refine firstBad_nil ?_
      rw [hslots]
      have hseg' : leAt b 12 4 < 1048576 := hseg
      rcases htr with h1 | h1
      · simp [hin, hcls, hkey, hseg', hlo, hz, h1]
      · simp [hin, hcls, hkey, hseg', hlo, hz, h1]
    have hother : ((s.lease (leAt b 8 1)).bound && (s.lease (leAt b 8 1)).uid != leAt b 0 8) = false := by
      cases hbd : (s.lease (leAt b 8 1)).bound with
      | false => rfl
      | true => simp [hbound hbd]
    dsimp only
    rw [hbad, hlease, hother]
    dsimp only
    rw [if_neg (by simp [hsaf, hsb, hb]), if_neg (by simp [hna, hnc, hns]), if_neg (by simp [hcv]), if_neg (by rw [hep]; omega), hgr]
    dsimp only
    rw [hx]
    dsimp only
    rw [if_neg (by omega), if_neg (by rw [hfu, hld]; omega), hpr]
    dsimp only
    rw [hmac, if_neg (by simp [hdest, hln, hsl, hbr])]
  obtain ⟨⟨hst, hep, huid, hcl, hhan, hrep⟩, hoth, hdisp, hresv, hroutes, hfrk, hu0, hu1⟩ := Dev.takeIn_spec
    { s.begin.markStarted h with mac := { s.mac with routes := setRoutes s.mac.routes [r] [] } } i
    { s.lease i with uid := leAt b 0 8, cls := leAt b 9 1, tRep := leAt b 10 1, keyIdx := leAt b 11 1
                     area := (leAt b 12 4, leAt b 16 2, leAt b 18 2), padded := 0, handle := some h }
  exact .of_effect he ⟨hst, hep, huid, hcl, hhan, hrep, hdisp, hoth, hresv, hroutes, hfrk, hu0.1, hu1.2⟩

/-- Settles O54: admission, claims, confirmations, reports under the lease's epoch and under one that is over, and releases. -/
theorem robotsAreAdmittedReportAndLeave : Obligations.RobotsAreAdmittedReportAndLeave :=
  ⟨fun _ _ _ _ _ _ _ _ hr hp hi hin hcls htr hkey hseg hlo hz hval hhz hsb hb hg hx hlen hna hnc hns hbound hload hroute hdest hlane hsl hbreak =>
      .robotAdmit hr hp hi hin hcls htr hkey hseg hlo hz hval hhz hsb hb hg hx hlen hna hnc hns hbound hload hroute hdest hlane hsl hbreak,
    fun _ _ _ hs hm hq ht hroom => .claim hs hm hq ht hroom, fun _ _ _ _ hs hm hq ht hc => .cfgAck hs hm hq ht hc,
    fun _ _ _ _ hm hq ht hrob hold hcounts => .report_renews hm hq ht hrob hold hcounts,
    fun _ _ _ _ hm hq ht hrob hold hflag htask hst hroom => .report_zombie hm hq ht hrob hold hflag htask hst hroom,
    fun _ _ _ _ _ hr hp hi hsb hb hst hrep hv hoff => .robotRelease_active hr hp hi hsb hb hst hrep hv hoff,
    fun _ _ _ _ hr hp hi hpk hsb hb hst hstop => .robotRelease_dead hr hp hi hpk hsb hb hst hstop,
    fun _ _ _ _ hs hr hp hi hsb hb hst hoff => .robotRelease_refused hs hr hp hi hsb hb hst hoff⟩

end Sys2Proof.Machine

/-! ### The track graph: loads (R181) and queries (R203) -/
namespace Sys2Proof.Machine

/-! #### A load is asked for -/

/-- The leave a load of a graph asks for. -/
def Dev.loadAsked (s : Dev) (h ns : Nat) (b : List Byte) : Dev :=
  ({ s with trl := { s.trl with load := some { handle := h, image := b } } }).askLeave 2 (50 * s.fld (0x8020, 24, 8))
    (msTicks 20 + usTicks (6 * ns)) (ntAdd s.nt (msTicks 1000 : Nat)) .graphLoad

theorem exec_trlLoadGraph {s : State} {h : Nat} {l : Live} {b : List Byte} (hr : s.Runs h 0x40 l) (hlen : l.len = b.length) (h0 : leAt b 0 1 = 1)
    (h1 : leAt b 1 1 = 0) (hz2 : zeros b 2 2 = true) (hn0 : 0 < leAt b 8 4) (hn : leAt b 8 4 ≤ 1048576) (hs0 : 0 < leAt b 12 4)
    (hs : leAt b 12 4 ≤ 1048576) (hl0 : leAt b 16 4 = 0) (hz : zeros b 20 44 = true)
    (hb : b.length = 64 + 32 * leAt b 8 4 + 256 * leAt b 12 4) (hload : s.trl.load = none) :
    exec (.trlLoadGraph h (some b)) s = s.act fun _ => if s.mayReplace then (s.begin.markStarted h).loadAsked h (leAt b 12 4) b
      else (s.begin.markStarted h).done h stGraphInUse [] := by
  show execTrlLoadGraph h (some b) s = _
  unfold execTrlLoadGraph
  refine State.act_congr ((Dev.command_eq _ hr).trans ?_)
  have hbl : (s.begin.markStarted h).trl.load = none := hload
  have hmay : (s.begin.markStarted h).mayReplace = s.mayReplace := rfl
  unfold Dev.loadAsked
  generalize s.begin.markStarted h = d at *
  dsimp only
  rw [if_neg (by simp [hlen]; omega), if_neg (by simp [h0]), if_neg (by simp [h1]), if_neg (by simp [hz2]), if_neg (by omega), if_neg (by omega),
    if_neg (by simp [hl0]), if_neg (by simp [hz]), if_neg (by omega), hbl, if_neg (by simp), if_neg (by omega), if_neg (by omega),
    if_neg (by simp [h1, bitAt]), hmay]
  cases s.mayReplace with
  | true => rfl
  | false => rfl

theorem Completes.trlLoadGraph {s : State} {h : Nat} {l : Live} {b : List Byte} (hset : s.Settled) (hr : s.Runs h 0x40 l) (hlen : l.len = b.length)
    (h0 : leAt b 0 1 = 1) (h1 : leAt b 1 1 = 0) (hz2 : zeros b 2 2 = true) (hn0 : 0 < leAt b 8 4) (hn : leAt b 8 4 ≤ 1048576) (hs0 : 0 < leAt b 12 4)
    (hs : leAt b 12 4 ≤ 1048576) (hl0 : leAt b 16 4 = 0) (hz : zeros b 20 44 = true)
    (hb : b.length = 64 + 32 * leAt b 8 4 + 256 * leAt b 12 4) (hload : s.trl.load = none) :
    Completes (.trlLoadGraph h (some b)) s fun t => if s.mayReplace then t.Begun l ∧ t.trl = { s.trl with load := some { handle := h, image := b } } ∧
          t.asksLeave .graphLoad = true ∧ t.gov.grants = s.gov.grants ∧ Frame [.out, .hif, .trl, .gov] s.toDev t
        else t.Answered l 0x0402 [] ∧ Frame [.out, .hif] s.toDev t := by
  have he := exec_trlLoadGraph hr hlen h0 h1 hz2 hn0 hn hs0 hs hl0 hz hb hload
  cases hmay : s.mayReplace with
  | true =>
    rw [hmay, if_pos rfl] at he
    have hall : Frame [.out, .hif, .trl, .gov] s.toDev ((s.begin.markStarted h).loadAsked h (leAt b 12 4) b) :=
      ((frame_begin_markStarted _ h).append ((frame_withTrl _ _).append (frame_askLeave _ _ _ _ _ _))).mono (by decide)
    exact .of_effect hset hall he (by decide) (by decide) ⟨hr.begun, rfl, Dev.asksLeave_askLeave _ _ _ _ _ _, rfl, hall⟩
  | false =>
    rw [hmay, if_neg Bool.false_ne_true] at he
    have hall : Frame [.out, .hif] s.toDev ((s.begin.markStarted h).done h stGraphInUse []) :=
      (frame_begin_markStarted _ h).trans ((frame_done _ h _ _).mono (by decide))
    exact .of_effect hset hall he (by decide) (by decide) ⟨Dev.run_done _ _ hr, hall⟩

/-! #### A load ends -/

theorem Dev.loadProgress_none (s : Dev) (h : Nat) {n : Nat} (hn : n < 65536) : s.loadProgress h n = s := by
  unfold Dev.loadProgress
  rw [Nat.div_eq_of_lt hn]
  rfl

/-- A load that has leave ends, and its leave is returned. -/
def Dev.loadEnded (s : Dev) (dt : Nat) : Dev := ({ s.tick dt with trl := { s.trl with load := none } }).returnLeave .graphLoad

theorem Dev.loadEnded_spec (s : Dev) (dt : Nat) : (s.loadEnded dt).trl = { s.trl with load := none } ∧ (s.loadEnded dt).hasLeave .graphLoad = false ∧
    (s.loadEnded dt).clk = s.clk.run dt ∧ Frame [.clk, .out, .trl, .gov] s (s.loadEnded dt) :=
  ⟨rfl, Dev.hasLeave_returnLeave _ _, rfl, ((frame_tick s dt).append ((frame_withTrl _ _).append (frame_returnLeave _ _))).mono (by decide)⟩

theorem Dev.segReason_of_frame {a : List Area} {s t : Dev} (hf : Frame a s t) (hr : .regs ∉ a) : t.segReason = s.segReason := by
  funext g b
  unfold Dev.segReason
  dsimp only
  rw [Dev.flag, Dev.fld_of_frame hf hr, ← Dev.flag]

theorem Dev.loadGo_of_frame {a : List Area} {s t : Dev} (hf : Frame a s t) (hr : .regs ∉ a) (l : List (Nat × List Byte)) :
    ∀ i x, t.loadGo l i x = s.loadGo l i x := by
  have hrec (x : LoadAcc) (k : Nat) (b : List Byte) : t.loadRec x k b = s.loadRec x k b := by
    unfold Dev.loadRec
    rw [Dev.segReason_of_frame hf hr]
  induction l with
  | nil => exact fun _ _ => rfl
  | cons p l ih =>
    intro i x
    unfold Dev.loadGo
    rw [hrec]
    split
    · rfl
    · exact ih _ _

theorem Dev.derived_of_frame {a : List Area} {s t : Dev} (hf : Frame a s t) (hr : .regs ∉ a) (g : Graph) : t.derived g = s.derived g := by
  unfold Dev.derived Dev.linkRange
  rw [Dev.fld_of_frame hf hr]

/-- What the records of a load's image decide, once its leave is returned. -/
def Dev.loadJudged (s : Dev) (x : GraphLoad) : Dev :=
  match s.loadGo (imageRecs x.image) 0 { g := { id := leAt x.image 4 4 } } with
  | .error (i, r, n) => (s.loadProgress x.handle n).done x.handle stGraphInvalid (leBytes i 4 ++ leBytes r 1)
  | .ok a =>
    let g := s.derived a.g
    let s := s.loadProgress x.handle a.segs
    if !g.fits then s.done x.handle stGraphCapacity []
    else if !s.mayReplace then s.done x.handle stGraphInUse []
    else
      let s := s.trl.patches.foldl (fun s p => s.abortPatch p stConflict 0xFF true) s
      let s := { s with trl := { s.trl with graph := some g, ver := 1, cache := [] } };
      (s.installFeet g).done x.handle stOK []

theorem exec_graphLoadDone {s : State} {x : GraphLoad} (dt : Nat) (hx : s.trl.load = some x) (hg : x.granted = true) :
    exec (.graphLoadDone dt) s = s.act fun _ => (s.loadEnded dt).loadJudged x := by
  show execGraphLoadDone dt s = _
  unfold execGraphLoadDone
  refine State.act_congr ?_
  extract_lets u
  rw [show u.trl.load = some x from hx]
  dsimp -zeta only
  rw [if_neg (by simp [hg])]
  rename_i v
  have hv : v = s.loadEnded dt := rfl
  clear_value v
  subst hv
  unfold Dev.loadJudged
  cases (s.loadEnded dt).loadGo (imageRecs x.image) 0 { g := { id := leAt x.image 4 4 } } with
  | error e => rfl
  | ok a => rfl

theorem Dev.installFeet_none {s : Dev} (h : s.trl.pendingFp = []) (g : Graph) : s.installFeet g = s := by
  have hs : ({ s with trl := { s.trl with pendingFp := [] } } : Dev) = s := by rw [← h]
  unfold Dev.installFeet
  rw [h]
  exact hs

theorem Dev.loadJudged_replaces {s : Dev} {x : GraphLoad} {a : LoadAcc} (ha : s.loadGo (imageRecs x.image) 0 { g := { id := leAt x.image 4 4 } } = .ok a)
    (hn : a.segs < 65536) (hfits : (s.derived a.g).fits = true) (hmay : s.mayReplace = true) (hpat : s.trl.patches = []) (hfp : s.trl.pendingFp = []) :
    s.loadJudged x = ({ s with trl := { s.trl with graph := some (s.derived a.g), ver := 1, cache := [] } } : Dev).done x.handle stOK [] := by
  unfold Dev.loadJudged
  rw [ha]
  dsimp only
  rw [Dev.loadProgress_none s _ hn, hfits, hmay, show s.trl.patches.foldl (fun s p => s.abortPatch p stConflict 0xFF true) s = s by rw [hpat]; rfl]
  rw [if_neg (by decide), if_neg (by decide)]
  exact congrArg (fun d : Dev => d.done x.handle stOK []) (Dev.installFeet_none (by exact hfp) _)

theorem Dev.loadJudged_fails {s : Dev} {x : GraphLoad} {i r n : Nat}
    (ha : s.loadGo (imageRecs x.image) 0 { g := { id := leAt x.image 4 4 } } = .error (i, r, n)) (hn : n < 65536) :
    s.loadJudged x = s.done x.handle stGraphInvalid (leBytes i 4 ++ leBytes r 1) := by
  unfold Dev.loadJudged
  rw [ha]
  dsimp only
  rw [Dev.loadProgress_none s _ hn]

theorem Completes.graphLoadDone {s : State} {dt n : Nat} {x : GraphLoad} {g : Graph} {l : Live} (hset : s.Settled) (hx : s.trl.load = some x)
    (hg : x.granted = true) (hld : s.loaded x.image = some (g, n)) (hn : n < 65536) (hfits : (s.derived g).fits = true) (hmay : s.mayReplace = true)
    (hpat : s.trl.patches = []) (hfp : s.trl.pendingFp = []) (hw : s.Waits x.handle l) :
    Completes (.graphLoadDone dt) s fun t => t.Answered l stOK [] ∧ t.trl = { s.trl with load := none, graph := some (s.derived g), ver := 1, cache := [] } ∧
        t.hasLeave .graphLoad = false ∧ t.clk = s.clk.run dt ∧ Frame [.clk, .out, .hif, .trl, .gov] s.toDev t := by
  have he := exec_graphLoadDone dt hx hg
  obtain ⟨htrl, hleave, hclk, hf⟩ := s.loadEnded_spec dt
  generalize s.loadEnded dt = u at *
  obtain ⟨a, ha, rfl, rfl⟩ : ∃ a, s.loadGo (imageRecs x.image) 0 { g := { id := leAt x.image 4 4 } } = .ok a ∧ a.g = g ∧ a.segs = n := by
    unfold Dev.loaded at hld
    split at hld
    next a ha =>
      simp only [Option.some.injEq, Prod.mk.injEq] at hld
      exact ⟨a, ha, hld⟩
    · cases hld
  have hder := Dev.derived_of_frame hf (by decide) a.g
  have hmay' : u.mayReplace = true := by
    rw [Dev.mayReplace, hf .saf (by decide), htrl]
    exact hmay
  rw [Dev.loadJudged_replaces (by rw [Dev.loadGo_of_frame hf (by decide)]; exact ha) hn (by rw [hder]; exact hfits) hmay' (by rw [htrl]; exact hpat)
    (by rw [htrl]; exact hfp), hder] at he
  have h2 := frame_withTrl u { u.trl with graph := some (s.derived a.g), ver := 1, cache := [] }
  have hwu := (hw.of_frame hf (by decide) (Dev.reg_of_frame hf (by decide) _)).of_frame h2 (by decide) rfl
  have htrl2 : ({ u with trl := { u.trl with graph := some (s.derived a.g), ver := 1, cache := [] } } : Dev).trl =
      { s.trl with load := none, graph := some (s.derived a.g), ver := 1, cache := [] } := by rw [htrl]
  generalize ({ u with trl := { u.trl with graph := some (s.derived a.g), ver := 1, cache := [] } } : Dev) = v at *
  have h3 := frame_done v x.handle stOK []
  have h23 := h2.append h3
  have hall : Frame [.clk, .out, .hif, .trl, .gov] s.toDev (v.done x.handle stOK []) := (hf.append h23).mono (by decide)
  refine .of_effect hset hall he (by decide) (by decide) ⟨hwu.done _ _, (h3 .trl (by decide)).trans htrl2, ?_, (h23 .clk (by decide)).trans hclk, hall⟩
  rw [Dev.hasLeave, h23 .gov (by decide)]
  exact hleave

theorem Completes.graphLoadDone_fails {s : State} {dt i r n : Nat} {x : GraphLoad} {l : Live} (hset : s.Settled) (hx : s.trl.load = some x)
    (hg : x.granted = true) (hld : s.loadFails x.image = some (i, r, n)) (hn : n < 65536) (hw : s.Waits x.handle l) :
    Completes (.graphLoadDone dt) s fun t => t.Answered l 0x0403 (leBytes i 4 ++ leBytes r 1) ∧ t.trl = { s.trl with load := none } ∧
        t.hasLeave .graphLoad = false ∧ Frame [.clk, .out, .hif, .trl, .gov] s.toDev t := by
  have he := exec_graphLoadDone dt hx hg
  obtain ⟨htrl, hleave, -, hf⟩ := s.loadEnded_spec dt
  generalize s.loadEnded dt = u at *
  have ha : s.loadGo (imageRecs x.image) 0 { g := { id := leAt x.image 4 4 } } = .error (i, r, n) := by
    unfold Dev.loadFails at hld
    split at hld
    · cases hld
    next e ha => rw [ha, Option.some.inj hld]
  rw [Dev.loadJudged_fails (by rw [Dev.loadGo_of_frame hf (by decide)]; exact ha) hn] at he
  have hwu := hw.of_frame hf (by decide) (Dev.reg_of_frame hf (by decide) _)
  have h3 := frame_done u x.handle stGraphInvalid (leBytes i 4 ++ leBytes r 1)
  have hall : Frame [.clk, .out, .hif, .trl, .gov] s.toDev (u.done x.handle stGraphInvalid (leBytes i 4 ++ leBytes r 1)) := (hf.append h3).mono (by decide)
  refine .of_effect hset hall he (by decide) (by decide) ⟨hwu.done _ _, (h3 .trl (by decide)).trans htrl, ?_, hall⟩
  rw [Dev.hasLeave, h3 .gov (by decide)]
  exact hleave

/-! #### Queries -/

theorem Dev.queryFind_node {s : Dev} {l : Live} {g : Graph} (hq : l.p 30 1 = 2) :
    s.queryFind l g = ((g.node? (l.p 24 4)).elim (stUnknownId, [], 32) fun n => (stOK, [n.bytes], 32)) := by
  unfold Dev.queryFind
  dsimp only
  rw [hq]
  cases g.node? (l.p 24 4) with
  | none => rfl
  | some n => rfl

/-- The answer to a query whose fields are in their ranges. -/
def Dev.queryAnswered (s : Dev) (h : Nat) (l : Live) (werr : Bool) (r : Nat × List (List Byte) × Nat) : Dev :=
  if r.1 ≠ stOK then s.done h r.1 []
  else if werr then s.refuse h stDma none
  else
    let out := r.2.1.take (l.len / r.2.2)
    let s := if out.isEmpty then s else s.emit (.host h 0 0 (out.flatMap id))
    s.done h stOK (leBytes out.length 4 ++ leBytes r.2.1.length 4)

theorem exec_trlQuery {s : State} {h : Nat} {werr : Bool} {l : Live} {g : Graph} (hr : s.Runs h 0x42 l) (hq0 : 1 ≤ l.p 30 1) (hq : l.p 30 1 ≤ 5)
    (h1 : 1 ≤ l.p 31 1) (h15 : l.p 31 1 ≤ 15) (hg : s.trl.graph = some g) :
    exec (.trlQuery h werr) s = s.act fun _ =>
      (s.begin.markStarted h).queryAnswered h l werr ((s.begin.markStarted h).queryFind l g) := by
  show execTrlQuery h werr s = _
  unfold execTrlQuery
  refine State.act_congr ((Dev.command_eq _ hr).trans ?_)
  have hgr : (s.begin.markStarted h).trl.graph = some g := hg
  generalize s.begin.markStarted h = d at *
  dsimp only
  rw [if_neg (by simp; omega), if_neg (by simp; omega), if_neg (by simp; omega), hgr]
  rfl

theorem Completes.trlQuery_dma {s : State} {h : Nat} {l : Live} {g : Graph} (hset : s.Settled) (hr : s.Runs h 0x42 l) (hq : l.p 30 1 = 2)
    (h1 : 1 ≤ l.p 31 1) (h15 : l.p 31 1 ≤ 15) (hg : s.trl.graph = some g) (hn : (g.node? (l.p 24 4)).isSome = true) :
    Completes (.trlQuery h true) s fun t => t.Answered l stDma (offsetRes none) ∧ Frame [.out, .hif] s.toDev t := by
  obtain ⟨n, hn⟩ := Option.isSome_iff_exists.1 hn
  have he := exec_trlQuery (werr := true) hr (by omega) (by omega) h1 h15 hg
  rw [Dev.queryFind_node hq, hn] at he
  have hall : Frame [.out, .hif] s.toDev ((s.begin.markStarted h).refuse h stDma none) :=
    (frame_begin_markStarted _ h).trans ((frame_refuse _ h _ _).mono (by decide))
  exact .of_effect hset hall he (by decide) (by decide) ⟨Dev.run_done _ _ hr, hall⟩

theorem Completes.trlQuery_node {s : State} {h : Nat} {l : Live} {g : Graph} (hset : s.Settled) (hr : s.Runs h 0x42 l) (hq : l.p 30 1 = 2)
    (h1 : 1 ≤ l.p 31 1) (h15 : l.p 31 1 ≤ 15) (hg : s.trl.graph = some g) (hl32 : 32 ≤ l.len) (hl64 : l.len < 64) :
    Completes (.trlQuery h false) s fun t => (g.node? (l.p 24 4) = none → t.Answered l 0x0407 []) ∧
        (∀ n ∈ (g.node? (l.p 24 4)).toList, t.Answered l stOK (leBytes 1 4 ++ leBytes 1 4) ∧ .host h 0 0 n.bytes ∈ t.out) ∧ Frame [.out, .hif] s.toDev t := by
  have he := exec_trlQuery (werr := false) hr (by omega) (by omega) h1 h15 hg
  rw [Dev.queryFind_node hq] at he
  cases hn : g.node? (l.p 24 4) with
  | none =>
    rw [hn] at he
    have hall : Frame [.out, .hif] s.toDev ((s.begin.markStarted h).done h stUnknownId []) :=
      (frame_begin_markStarted _ h).trans ((frame_done _ h _ _).mono (by decide))
    exact .of_effect hset hall he (by decide) (by decide)
      ⟨fun _ => Dev.run_done _ _ hr, fun n hmem => absurd hmem List.not_mem_nil, hall⟩
  | some n =>
    have hone : l.len / 32 = 1 := by omega
    have heq : (s.begin.markStarted h).queryAnswered h l false (stOK, [n.bytes], 32) =
        ((s.begin.markStarted h).emit (.host h 0 0 n.bytes)).done h stOK (leBytes 1 4 ++ leBytes 1 4) := by
      unfold Dev.queryAnswered
      dsimp only
      rw [hone, if_neg (by decide), if_neg (by decide)]
      simp
    rw [hn, Option.elim_some, heq] at he
    have hemit := frame_emit (s.begin.markStarted h) (.host h 0 0 n.bytes)
    have hw := hr.waits.of_frame hemit (by decide) rfl
    have hall : Frame [.out, .hif] s.toDev (((s.begin.markStarted h).emit (.host h 0 0 n.bytes)).done h stOK (leBytes 1 4 ++ leBytes 1 4)) :=
      ((frame_begin_markStarted _ h).append (hemit.append (frame_done _ h _ _))).mono (by decide)
    refine .of_effect hset hall he (by decide) (by decide) ⟨nofun, fun m hmem => ?_, hall⟩
    obtain rfl : m = n := by simpa using hmem
    exact ⟨hw.done _ _, Dev.mem_out_done h stOK _ (List.mem_append_right _ List.mem_cons_self)⟩

theorem Dev.queryFind_segment {s : Dev} {l : Live} {g : Graph} (hq : l.p 30 1 = 3) (h15 : l.p 31 1 = 15) (hx : (g.seg? (l.p 24 4)).isSome = true) :
    s.queryFind l g = (stOK, (s.trl.resv.filter fun r => r.seg == l.p 24 4 && r.meets (l.pNt 0) (l.pNt 8)).map Resv.bytes, 32) := by
  unfold Dev.queryFind
  dsimp only
  rw [hq]
  rw [if_neg (by rw [Option.isNone_eq_false_iff.2 hx]; decide)]
  refine congrArg (fun p => (stOK, (s.trl.resv.filter p).map Resv.bytes, 32)) (funext fun r => ?_)
  have hbits : bitAt 15 0 = true ∧ bitAt 15 1 = true ∧ bitAt 15 2 = true ∧ bitAt 15 3 = true := by decide
  obtain ⟨h0, h1, h2, h3⟩ := hbits
  rw [h15]
  cases r.kind with
  | firm => rw [h0, Bool.and_true]
  | offered => rw [h1, Bool.and_true]
  | spec => rw [h2, Bool.and_true]
  | envelope => rw [h3, Bool.and_true]

theorem Completes.trlQuery_segment {s : State} {h k : Nat} {l : Live} {g : Graph} (hset : s.Settled) (hr : s.Runs h 0x42 l) (hq : l.p 30 1 = 3)
    (h15 : l.p 31 1 = 15) (hg : s.trl.graph = some g) (hx : (g.seg? (l.p 24 4)).isSome = true)
    (hk : k = (s.trl.resv.filter fun r => r.seg == l.p 24 4 && r.meets (l.pNt 0) (l.pNt 8)).length) :
    Completes (.trlQuery h false) s fun t => t.Answered l stOK (leBytes (min (l.len / 32) k) 4 ++ leBytes k 4) ∧ Frame [.out, .hif] s.toDev t := by
  have he := exec_trlQuery (werr := false) hr (by omega) (by omega) (by omega) (by omega) hg
  obtain ⟨recs, hfind, hrecs⟩ : ∃ recs, (s.begin.markStarted h).queryFind l g = (stOK, recs, 32) ∧ recs.length = k :=
    ⟨_, Dev.queryFind_segment hq h15 hx, by rw [List.length_map, hk]; rfl⟩
  rw [hfind] at he
  obtain ⟨u, hu, hf⟩ : ∃ u, (s.begin.markStarted h).queryAnswered h l false (stOK, recs, 32) =
      u.done h stOK (leBytes (min (l.len / 32) k) 4 ++ leBytes k 4) ∧ Frame [.out] (s.begin.markStarted h) u := by
    refine ⟨if (recs.take (l.len / 32)).isEmpty then s.begin.markStarted h
      else (s.begin.markStarted h).emit (.host h 0 0 ((recs.take (l.len / 32)).flatMap id)), ?_, .ite (.refl _ _) (frame_emit _ _)⟩
    unfold Dev.queryAnswered
    dsimp only
    rw [if_neg (by decide), if_neg (by decide), List.length_take, hrecs]
  rw [hu] at he
  have hw := hr.waits.of_frame hf (by decide) (Dev.reg_of_frame hf (by decide) _)
  have hall : Frame [.out, .hif] s.toDev (u.done h stOK (leBytes (min (l.len / 32) k) 4 ++ leBytes k 4)) :=
    ((frame_begin_markStarted _ h).append (hf.append (frame_done _ h _ _))).mono (by decide)
  exact .of_effect hset hall he (by decide) (by decide) ⟨hw.done _ _, hall⟩

end Sys2Proof.Machine

/-! ### Patches of the track graph (R182 to R184) -/
namespace Sys2Proof.Machine

/-! #### A patch is submitted -/

/-- A patch as its command gives it. -/
def Live.patch (l : Live) (h : Nat) (items : List (Nat × List Byte)) : Patch :=
  { handle := h, ver := l.p 8 2, items, applyAt := givenApply (l.pNt 0) }

theorem exec_trlPatchGraph {s : State} {h n : Nat} {l : Live} {b : List Byte} {items : List (Nat × List Byte)} (hr : s.Runs h 0x41 l)
    (hp : s.paused = false) (ha : s.applyTimeOk (l.pNt 0) = true) (hn : n = l.p 10 2) (hn256 : n ≤ 256)
    (hit : ((match patchItems b n 0 with | .ok r => some r | .error _ => none) = some (items, l.len))) (hb : b.length = l.len)
    (hrun : s.saf.run = .run ∨ s.saf.run = .fleetStop) (hfl : s.inFlight < 256) (hg : s.trl.graph.isSome = true) :
    exec (.trlPatchGraph h (some b)) s = s.act fun _ => if l.p 8 2 ≠ s.trl.ver then (s.begin.markStarted h).done h stPatchVersion []
      else { s.begin.markStarted h with trl := { s.trl with patches := s.trl.patches ++ [l.patch h items] } } := by
  have h1 : exec (.trlPatchGraph h (some b)) s = _ := act_fleetCommand (by simpa [Dev.paused] using hp) _ _ _
  rw [h1]
  refine State.act_congr ((Dev.command_eq _ hr).trans ?_)
  have hitems : patchItems b n 0 = .ok (items, l.len) := by
    split at hit
    next r hr => rw [hr, Option.some.inj hit]
    · cases hit
  have hcode : (s.begin.markStarted h).motionCode true = stOK := by
    rcases hrun with h | h
    · rw [Dev.motionCode, show (s.begin.markStarted _).saf.run = s.saf.run from rfl, h]
    · rw [Dev.motionCode, show (s.begin.markStarted _).saf.run = s.saf.run from rfl, h]
      rfl
  have hat : (s.begin.markStarted h).applyTimeOk (l.pNt 0) = true := ha
  have hfl' : (s.begin.markStarted h).inFlight = s.inFlight := rfl
  have htrl : (s.begin.markStarted h).trl = s.trl := rfl
  generalize s.begin.markStarted h = d at *
  subst hn
  dsimp only
  rw [if_neg (by simp [hat]), if_neg (by omega), hitems]
  dsimp only
  rw [if_neg (by simp [hb]), hcode, if_neg (by simp), hfl', if_neg (by omega), htrl, if_neg (by rw [Option.isNone_eq_false_iff.2 hg]; decide)]
  rfl

theorem Completes.trlPatchGraph {s : State} {h n : Nat} {l : Live} {b : List Byte} {items : List (Nat × List Byte)} (hs : s.Settled)
    (hr : s.Runs h 0x41 l) (hp : s.paused = false) (ha : s.applyTimeOk (l.pNt 0) = true) (hn : n = l.p 10 2) (hn256 : n ≤ 256)
    (hit : ((match patchItems b n 0 with | .ok r => some r | .error _ => none) = some (items, l.len))) (hb : b.length = l.len)
    (hrun : s.saf.run = .run ∨ s.saf.run = .fleetStop) (hfl : s.inFlight < 256) (hg : s.trl.graph.isSome = true) :
    Completes (.trlPatchGraph h (some b)) s fun t => if l.p 8 2 = s.trl.ver
        then t.Begun l ∧ t.trl = { s.trl with patches := s.trl.patches ++ [{
            handle := h, ver := l.p 8 2, items, applyAt := givenApply (l.pNt 0) }] } ∧ Frame [.out, .hif, .trl] s.toDev t
        else t.Answered l 0x0406 [] ∧ Frame [.out, .hif] s.toDev t := by
  have he := exec_trlPatchGraph hr hp ha hn hn256 hit hb hrun hfl hg
  by_cases hv : l.p 8 2 = s.trl.ver
  · simp only [if_pos hv]
    rw [if_neg (not_not_intro hv)] at he
    have hall : Frame [.out, .hif, .trl] s.toDev { s.begin.markStarted h with trl := { s.trl with patches := s.trl.patches ++ [l.patch h items] } } :=
      ((frame_begin_markStarted _ h).append (frame_withTrl _ _)).mono (by decide)
    exact .of_effect hs hall he (by decide) (by decide) ⟨hr.begun, rfl, hall⟩
  · simp only [if_neg hv]
    rw [if_pos hv] at he
    have hall : Frame [.out, .hif] s.toDev ((s.begin.markStarted h).done h stPatchVersion []) :=
      (frame_begin_markStarted _ h).trans ((frame_done _ h _ _).mono (by decide))
    exact .of_effect hs hall he (by decide) (by decide) ⟨Dev.run_done _ _ hr, hall⟩

/-! #### A patch is validated -/

/-- What the validation of a patch decides. -/
def Dev.patchJudged (s : Dev) (p : Patch) (g : Graph) : Dev :=
  match s.patchCheck p g with
  | .error (st, i) => s.abortPatch p st i false
  | .ok new =>
    let hits := p.items.map (s.itemHits g)
    let id := s.txu.nextId
    let at_ := p.applyAt.getD (slotAtOrAfter (ntAdd s.nt (msTicks 10 : Nat)))
    if !ntAfter at_ s.nt then s.abortPatch p stDeadline 0xFF true
    else
      let p : Patch := { p with txn := id, applyAt := some at_, graph := new, dels := hits.flatMap (·.1), chgs := hits.flatMap (·.2) }
      let s := { s with txu := { s.txu with nextId := if id = 0xFFFFFF then 1 else id + 1 } };
      (s.setPatch p).progress p.handle 1 (validRes id at_)

theorem exec_patchValidationEnd {s : State} {p : Patch} {g : Graph} (dt : Nat) (hh : s.par.hand = none) (hp : s.trl.patches = [p]) (ht : p.txn = 0)
    (hv : p.ver = s.trl.ver) (hg : s.trl.graph = some g) :
    exec (.patchValidationEnd dt) s = s.act fun _ => (s.tick dt).patchJudged p g := by
  show execPatchValidationEnd dt s = _
  unfold execPatchValidationEnd
  refine State.act_congr ?_
  extract_lets u
  have hfind : (if u.par.hand.isSome then none else u.trl.patches.find? fun (p : Patch) => p.txn == 0) = some p := by
    rw [show u.par.hand = none from hh, show u.trl.patches = [p] from hp]
    simp [ht]
  rw [hfind, show u.trl.graph = some g from hg]
  dsimp -zeta only
  rw [if_neg (show ¬p.ver ≠ u.trl.ver from not_not_intro hv)]
  show _ = u.patchJudged p g
  unfold Dev.patchJudged
  cases u.patchCheck p g with
  | error e => rfl
  | ok new => rfl

theorem Dev.patchCheck_error {s : Dev} {p : Patch} {g : Graph} {i : Nat} (h : g.editAll p.items 0 = .error i) :
    s.patchCheck p g = .error (stGraphInvalid, i) := by
  unfold Dev.patchCheck
  rw [h]

theorem Dev.patchCheck_ok {s : Dev} {p : Patch} {g new : Graph} (h : g.editAll p.items 0 = .ok new)
    (hok : p.items.all (s.itemOk (s.rederive g new)) = true) (href : p.items.any (s.itemRefused g) = false)
    (hbox : (s.rederive g new).box.ok = true) (hfits : (s.rederive g new).fits = true) : s.patchCheck p g = .ok (s.rederive g new) := by
  have h1 : firstIdx (fun it => !s.itemOk (s.rederive g new) it) p.items = none :=
    List.findIdx?_eq_none_iff.2 fun x hx => by simp [List.all_eq_true.1 hok x hx]
  have h2 : firstIdx (s.itemRefused g) p.items = none :=
    List.findIdx?_eq_none_iff.2 fun x hx => by simpa using List.any_eq_false.1 href x hx
  unfold Dev.patchCheck
  rw [h]
  dsimp only
  rw [h1, h2, hbox, hfits]
  rfl

theorem Dev.rederive_of_frame {a : List Area} {s t : Dev} (hf : Frame a s t) (hr : .regs ∉ a) : t.rederive = s.rederive := by
  funext old new
  unfold Dev.rederive Dev.linkRange
  rw [Dev.fld_of_frame hf hr]

theorem Dev.itemOk_of_frame {a : List Area} {s t : Dev} (hf : Frame a s t) (hr : .regs ∉ a) : t.itemOk = s.itemOk := by
  funext g p
  unfold Dev.itemOk
  rw [Dev.segReason_of_frame hf hr]

theorem Dev.clear_of_frame {a : List Area} {s t : Dev} (hf : Frame a s t) (hr : .regs ∉ a) : t.dClear = s.dClear ∧ t.tClear = s.tClear := by
  constructor
  · funext c
    unfold Dev.dClear
    rw [Dev.fld_of_frame hf hr]
  · funext c
    unfold Dev.tClear
    rw [Dev.fld_of_frame hf hr]

theorem Dev.itemRefused_of_frame {a : List Area} {s t : Dev} (hf : Frame a s t) (hr : .regs ∉ a) (ht : t.trl.resv = s.trl.resv) :
    t.itemRefused = s.itemRefused := by
  obtain ⟨hd, hc⟩ := Dev.clear_of_frame hf hr
  funext g p
  unfold Dev.itemRefused Dev.changeOk Dev.resvN
  rw [hd, hc, ht]

theorem Dev.itemHits_of_frame {a : List Area} {s t : Dev} (hf : Frame a s t) (hr : .regs ∉ a) : t.itemHits = s.itemHits := by
  obtain ⟨hd, hc⟩ := Dev.clear_of_frame hf hr
  funext g p
  unfold Dev.itemHits Dev.restricts Dev.changeOk
  rw [hd, hc]

/-- A patch that validation has passed, under its id and for its instant. -/
def Dev.readied (s : Dev) (p : Patch) (g new : Graph) (a : NT) : Patch :=
  { p with
    txn := s.txu.nextId, applyAt := some a, graph := new
    dels := (p.items.map (s.itemHits g)).flatMap (·.1), chgs := (p.items.map (s.itemHits g)).flatMap (·.2) }

/-- The device with the patch readied, before it is told. -/
def Dev.patchReady (s : Dev) (p : Patch) (g new : Graph) (a : NT) : Dev :=
  { s with
    txu := { s.txu with nextId := if s.txu.nextId = 0xFFFFFF then 1 else s.txu.nextId + 1 }
    trl := { s.trl with patches := [s.readied p g new a] } }

theorem frame_patchReady (s : Dev) (p : Patch) (g new : Graph) (a : NT) : Frame [.txu, .trl] s (s.patchReady p g new a) :=
  (frame_withTxu s { s.txu with nextId := if s.txu.nextId = 0xFFFFFF then 1 else s.txu.nextId + 1 }).append
    (frame_withTrl { s with txu := { s.txu with nextId := if s.txu.nextId = 0xFFFFFF then 1 else s.txu.nextId + 1 } }
      { s.trl with patches := [s.readied p g new a] })

theorem Dev.patchJudged_ready {s : Dev} {p : Patch} {g new : Graph} {a : NT} (hp : s.trl.patches = [p]) (hc : s.patchCheck p g = .ok new)
    (ha : p.applyAt.getD (slotAtOrAfter (ntAdd s.nt (msTicks 10 : Nat))) = a) (hnt : ntAfter a s.nt = true) :
    s.patchJudged p g = (s.patchReady p g new a).progress p.handle 1 (validRes s.txu.nextId a) := by
  have hset : mapWhere (fun (x : Patch) => x.is (s.readied p g new a)) (fun _ => s.readied p g new a) s.trl.patches = [s.readied p g new a] := by
    rw [hp]
    simp [mapWhere, Patch.is, Dev.readied]
  unfold Dev.patchJudged
  rw [hc]
  dsimp -zeta only
  extract_lets hits id at_ q x t
  have hat : at_ = a := ha
  rw [hat, if_neg (by rw [hnt]; decide)]
  have hq : q = s.readied p g new a := by
    show ({ p with txn := id, applyAt := some at_, graph := new, dels := _, chgs := _ } : Patch) = _
    rw [hat]
    rfl
  refine congrArg (fun d : Dev => d.progress p.handle 1 (validRes id a)) ?_
  unfold Dev.setPatch
  rw [hq, show t.trl.patches = s.trl.patches from rfl, hset]
  rfl

theorem Completes.patchValidationEnd {s : State} {dt : Nat} {p : Patch} {g new : Graph} {l : Live} (hs : s.Settled) (hh : s.par.hand = none)
    (hp : s.trl.patches = [p]) (ht : p.txn = 0) (hv : p.ver = s.trl.ver) (happ : p.applyAt = none) (hg : s.trl.graph = some g)
    (hnew : ((match g.editAll p.items 0 with | .ok n => some n | .error _ => none) = some new))
    (hok : p.items.all (s.itemOk (s.rederive g new)) = true) (href : p.items.any (s.itemRefused g) = false)
    (hbox : (s.rederive g new).box.ok = true) (hfits : (s.rederive g new).fits = true)
    (hnt : ntAfter (slotAtOrAfter (ntAdd (s.tick dt).nt (msTicks 10 : Nat))) (s.tick dt).nt = true) (hw : s.Waits p.handle l) (hroom : s.Room l.cq) :
    Completes (.patchValidationEnd dt) s fun t =>
        let a := slotAtOrAfter (ntAdd t.nt (msTicks 10 : Nat))
        t.Progressed l 1 (validRes s.txu.nextId a) ∧ t.txu = { s.txu with nextId := if s.txu.nextId = 0xFFFFFF then 1 else s.txu.nextId + 1 } ∧
        t.trl = { s.trl with patches := [{ p with
          txn := s.txu.nextId, applyAt := some a, graph := s.rederive g new
          dels := (p.items.map (s.itemHits g)).flatMap (·.1), chgs := (p.items.map (s.itemHits g)).flatMap (·.2) }] } ∧
        t.clk = s.clk.run dt ∧ Frame [.clk, .out, .hif, .trl, .txu] s.toDev t := by
  have he := exec_patchValidationEnd dt hh hp ht hv hg
  have hedit : g.editAll p.items 0 = .ok new := by
    split at hnew
    next n hn => rw [hn, Option.some.inj hnew]
    · cases hnew
  have h0 := frame_tick s.toDev dt
  have hclk := Dev.tick_clk s.toDev dt
  generalize s.tick dt = u at *
  obtain ⟨a, ha⟩ : ∃ a, a = slotAtOrAfter (ntAdd u.nt (msTicks 10 : Nat)) := ⟨_, rfl⟩
  have htrl0 : u.trl = s.trl := h0 .trl (by decide)
  have htxu0 : u.txu = s.txu := h0 .txu (by decide)
  rw [← ha] at hnt
  rw [← Dev.rederive_of_frame h0 (by decide)] at hok hbox hfits ⊢
  rw [← Dev.itemOk_of_frame h0 (by decide)] at hok
  rw [← Dev.itemRefused_of_frame h0 (by decide) (congrArg Trl.resv htrl0)] at href
  rw [← Dev.itemHits_of_frame h0 (by decide)]
  rw [Dev.patchJudged_ready (by rw [htrl0, hp]) (Dev.patchCheck_ok hedit hok href hbox hfits) (by rw [happ, Option.getD_none, ha]) hnt] at he
  have h1 : Frame [.clk, .out, .txu, .trl] s.toDev (u.patchReady p g (u.rederive g new) a) := (h0.append (frame_patchReady _ _ _ _ _)).mono (by decide)
  have htxu : (u.patchReady p g (u.rederive g new) a).txu = { u.txu with nextId := if u.txu.nextId = 0xFFFFFF then 1 else u.txu.nextId + 1 } := rfl
  have htrl : (u.patchReady p g (u.rederive g new) a).trl = { u.trl with patches := [u.readied p g (u.rederive g new) a] } := rfl
  have hclk1 : (u.patchReady p g (u.rederive g new) a).clk = u.clk := rfl
  rw [← htrl0, ← htxu0]
  generalize u.patchReady p g (u.rederive g new) a = v at *
  have hwv := hw.of_frame h1 (by decide) (Dev.reg_of_frame h1 (by decide) _)
  have hroomv : v.Room l.cq := hroom.of_same (Dev.reg_of_frame h1 (by decide) _) (by rw [h1 .hif (by decide)]) (by rw [h1 .hif (by decide)]) (by rw [h1 .hif (by decide)])
  obtain ⟨hprog, -, hf⟩ := Dev.progress_room 1 (validRes u.txu.nextId a) hwv.1 hwv.2.1 hroomv
  have hall : Frame [.clk, .out, .hif, .trl, .txu] s.toDev (v.progress p.handle 1 (validRes u.txu.nextId a)) := (h1.append hf).mono (by decide)
  have hat : slotAtOrAfter (ntAdd (v.progress p.handle 1 (validRes u.txu.nextId a)).nt (msTicks 10 : Nat)) = a := by
    rw [Dev.nt, hf .clk (by decide), hclk1, ← Dev.nt, ha]
  have hpost := And.intro hprog (And.intro ((hf .txu (by decide)).trans htxu) ((hf .trl (by decide)).trans htrl))
  generalize v.progress p.handle 1 (validRes u.txu.nextId a) = d at *
  subst hat
  exact .of_effect hs hall he (by decide) (by decide) ⟨hpost.1, hpost.2.1, hpost.2.2, ((hf .clk (by decide)).trans hclk1).trans hclk, hall⟩

theorem Completes.patchValidationEnd_fails {s : State} {dt i : Nat} {p : Patch} {g : Graph} {l : Live} (hs : s.Settled) (hh : s.par.hand = none)
    (hp : s.trl.patches = [p]) (ht : p.txn = 0) (hv : p.ver = s.trl.ver) (hfar : p.far = false) (hg : s.trl.graph = some g)
    (hi : ((match g.editAll p.items 0 with | .ok _ => none | .error i => some i) = some i)) (hw : s.Waits p.handle l) :
    Completes (.patchValidationEnd dt) s fun t => t.Answered l 0x0403 (txnDone { id := 0 } i) ∧ t.trl = { s.trl with patches := [] } ∧
        t.clk = s.clk.run dt ∧ Frame [.clk, .out, .hif, .trl] s.toDev t := by
  have he := exec_patchValidationEnd dt hh hp ht hv hg
  have hedit : g.editAll p.items 0 = .error i := by
    split at hi
    · cases hi
    next n hn => rw [hn, Option.some.inj hi]
  have habort : (s.tick dt).abortPatch p stGraphInvalid i false =
      ({ s.tick dt with trl := { s.trl with patches := [] } } : Dev).done p.handle stGraphInvalid (txnDone { id := 0 } i) := by
    unfold Dev.abortPatch
    rw [show (s.tick dt).trl.patches = [p] from hp, Patch.cmd, hfar, ht]
    simp [Patch.is, Dev.doneOpt]
  have hjudge : (s.tick dt).patchJudged p g = (s.tick dt).abortPatch p stGraphInvalid i false := by
    unfold Dev.patchJudged
    rw [Dev.patchCheck_error hedit]
  rw [hjudge, habort] at he
  have h1 : Frame [.clk, .out, .trl] s.toDev { s.tick dt with trl := { s.trl with patches := [] } } := (frame_tick s.toDev dt).append (frame_withTrl _ _)
  have h2 := frame_done ({ s.tick dt with trl := { s.trl with patches := [] } } : Dev) p.handle stGraphInvalid (txnDone { id := 0 } i)
  have hall : Frame [.clk, .out, .hif, .trl] s.toDev (({ s.tick dt with trl := { s.trl with patches := [] } } : Dev).done p.handle stGraphInvalid (txnDone { id := 0 } i)) :=
    (h1.append h2).mono (by decide)
  exact .of_effect hs hall he (by decide) (by decide)
    ⟨(hw.of_frame h1 (by decide) rfl).done _ _, h2 .trl (by decide), h2 .clk (by decide), hall⟩

/-! #### A patch takes effect -/

/-- The device with a patch in effect, before its command is answered. -/
def Dev.patched (s : Dev) (p : Patch) : Dev :=
  ({ s with trl := { s.trl with
      patches := s.trl.patches.filter fun (x : Patch) => !x.is p, graph := some p.graph
      ver := if s.trl.ver = 0xFFFF then 1 else s.trl.ver + 1, cache := s.trl.cache.filter fun id => !p.dels.contains id } }).cntWrap (0x902C, 0, 16)

theorem Dev.applyPatch_near {s : Dev} {p : Patch} (ht : p.txn ≠ 0) (hv : p.ver = s.trl.ver) (hfar : p.far = false)
    (href : p.items.any (s.itemRefused (s.trl.graph.getD {})) = false) :
    s.applyPatch p = (((s.patched p).progress p.handle 2 (leBytes p.txn 3)).done p.handle stOK (txnDone { id := p.txn } 0xFF), true) := by
  unfold Dev.applyPatch
  rw [if_neg ht, if_neg (not_not_intro hv), if_neg (by rw [href]; decide), Patch.cmd, hfar, if_neg Bool.false_ne_true]
  rfl

theorem Dev.applyDue_one {s : Dev} {p : Patch} {a : NT} (hp : s.trl.patches = [p]) (ha : p.applyAt = some a) : s.applyDue a = ((s.applyPatch p).1, (s.applyPatch p).2) := by
  unfold Dev.applyDue
  rw [hp]
  simp [ha]

theorem Dev.patched_spec {s : Dev} {p : Patch} (hp : s.trl.patches = [p]) :
    (s.patched p).trl.patches = [] ∧ (s.patched p).trl.graph = some p.graph ∧
      (s.patched p).trl.ver = (if s.trl.ver = 0xFFFF then 1 else s.trl.ver + 1) ∧ (s.patched p).trl.epoch = s.trl.epoch ∧
      (s.patched p).fld (0x902C, 0, 16) = wrapInc 16 (s.fld (0x902C, 0, 16)) ∧ (∀ o, o ≠ 0x902C → (s.patched p).reg o = s.reg o) ∧
      Frame [.trl, .regs] s (s.patched p) := by
  have hnone : s.trl.patches.filter (fun (x : Patch) => !x.is p) = [] := by
    rw [hp]
    simp [Patch.is]
  exact ⟨hnone, rfl, rfl, rfl, Dev.fld_cntWrap _ _ (by decide), fun o ho => Dev.reg_setFld_ne _ _ _ _ ho,
    (frame_withTrl s _).append (frame_cntWrap _ _)⟩

/-- The full re-plan that follows a patch is asked for at once, or at its boundary. -/
def Dev.replanNext (s : Dev) (a : NT) : Dev :=
  if s.beaconing && a == slotframeAtOrAfter a && a != s.trl.epoch then { s with trl := { s.trl with replanDue := true } } else s.askReplan

theorem Dev.replanNext_spec (s : Dev) (a : NT) :
    (if s.beaconing = true ∧ a = slotframeAtOrAfter a ∧ a ≠ s.trl.epoch then (s.replanNext a).trl.replanDue = true
      else (s.replanNext a).trl.replanAsked = true) ∧
      ∃ b, ({ s with trl := { s.trl with replanDue := b } } : Dev).GroundKept (s.replanNext a) := by
  unfold Dev.replanNext
  by_cases h : s.beaconing = true ∧ a = slotframeAtOrAfter a ∧ a ≠ s.trl.epoch
  · obtain ⟨h1, h2, h3⟩ := id h
    rw [if_pos h, if_pos (by simp [h1, ← h2, h3])]
    exact ⟨rfl, true, .refl _⟩
  · rw [if_neg h, if_neg (by simpa using h)]
    refine ⟨?_, s.trl.replanDue, .askReplan s⟩
    unfold Dev.askReplan
    extract_lets t
    split
    next hask => exact hask
    next => rfl

theorem Dev.progress_eq {s : Dev} {h c : Nat} {l : Live} {b : List Byte} (hl : s.live? h = some l) (ho : l.orphan = false) (hroom : s.Room l.cq) :
    s.progress h c b = s.cqWrite l.cq (cmdEntry .progress l c b) := by
  obtain ⟨he, hb, hh, hf⟩ := hroom
  unfold Dev.progress
  simp [hl, ho, Dev.cqOffer, he, hb, hh, hf]

/-- A command that is told its progress still waits. -/
theorem Dev.Waits.progress {s : Dev} {h : Nat} {l : Live} (hw : s.Waits h l) (hroom : s.Room l.cq) (c : Nat) (b : List Byte) :
    (s.progress h c b).Waits h l := by
  obtain ⟨hl, ho, he, hh, hcq⟩ := hw
  obtain ⟨-, hlive, hf⟩ := Dev.progress_room c b hl ho hroom
  refine ⟨?_, ho, ?_, ?_, hcq⟩
  · rw [Dev.live?, hlive]
    exact hl
  · rw [Dev.flag, Dev.fld_of_frame hf (by decide), ← Dev.flag]
    exact he
  · rw [Dev.progress_eq hl ho hroom, Dev.hold_cqWrite]
    exact hh

theorem CompletesThen.patchApply {s : State} {p : Patch} {a : NT} {l : Live} (hp : s.trl.patches = [p]) (ha : p.applyAt = some a) (ht : p.txn ≠ 0)
    (hv : p.ver = s.trl.ver) (hfar : p.far = false) (href : p.items.any (s.itemRefused (s.trl.graph.getD {})) = false) (hw : s.Waits p.handle l)
    (hroom : s.Room l.cq) :
    CompletesThen .patchApply s fun d => d.Answered l stOK (txnDone { id := p.txn } 0xFF) ∧ d.Progressed l 2 (leBytes p.txn 3) ∧ d.trl.patches = [] ∧
        d.trl.graph = some p.graph ∧ d.trl.ver = (if s.trl.ver = 0xFFFF then 1 else s.trl.ver + 1) ∧
        d.fld (0x902C, 0, 16) = wrapInc 16 (s.fld (0x902C, 0, 16)) ∧ (if s.beaconing = true ∧ a = slotframeAtOrAfter a ∧ a ≠ s.trl.epoch
          then d.trl.replanDue = true else d.trl.replanAsked = true) ∧
        d.clk = s.clk.run (s.clk.cyclesTo a) := by
  have he : exec .patchApply s = s.act fun _ =>
      if !((s.tickTo a).applyDue a).2 then ((s.tickTo a).applyDue a).1 else ((s.tickTo a).applyDue a).1.replanNext a := by
    show execPatchApply s = _
    refine State.act_congr ?_
    rw [show firstNt (s.trl.patches.filterMap fun (p : Patch) => p.applyAt) = some a by rw [hp]; simp [ha, firstNt]]
    rfl
  have h0 := frame_tickTo s.toDev a
  have hclk := Dev.tickTo_clk s.toDev a
  generalize s.tickTo a = u at *
  have htrl0 : u.trl = s.trl := h0 .trl (by decide)
  have hpu : u.trl.patches = [p] := by rw [htrl0, hp]
  rw [Dev.applyDue_one hpu ha, Dev.applyPatch_near ht (by rw [hv, htrl0]) hfar
    (by rw [Dev.itemRefused_of_frame h0 (by decide) (congrArg Trl.resv htrl0), htrl0]; exact href)] at he
  dsimp only at he
  rw [if_neg (by decide)] at he
  obtain ⟨hpat, hgr, hver, hep, hcnt, hreg, h1⟩ := Dev.patched_spec hpu
  generalize u.patched p = v at *
  have h01 := h0.append h1
  have hregs {o : Nat} (ho : o ≠ 0x902C) : v.reg o = s.reg o := (hreg o ho).trans (Dev.reg_of_frame h0 (by decide) o)
  have hcq := hw.2.2.2.2
  have hne : (cqEn l.cq).1 ≠ 0x902C := by simp only [cqEn]; omega
  have hwv := hw.of_frame h01 (by decide) (hregs hne)
  have hroomv : v.Room l.cq := hroom.of_same (hregs hne) (by rw [h01 .hif (by decide)]) (by rw [h01 .hif (by decide)]) (by rw [h01 .hif (by decide)])
  obtain ⟨hprog, hlive, h2⟩ := Dev.progress_room 2 (leBytes p.txn 3) hwv.1 hwv.2.1 hroomv
  have hwait : (v.progress p.handle 2 (leBytes p.txn 3)).Waits p.handle l := hwv.progress hroomv 2 _
  generalize v.progress p.handle 2 (leBytes p.txn 3) = w at *
  have h3 := frame_done w p.handle stOK (txnDone { id := p.txn } 0xFF)
  have hans := hwait.done stOK (txnDone { id := p.txn } 0xFF)
  have hprog3 := Dev.Progressed.done hprog p.handle stOK (txnDone { id := p.txn } 0xFF)
  generalize w.done p.handle stOK (txnDone { id := p.txn } 0xFF) = x at *
  have h23 := h2.append h3
  have htrl : x.trl = v.trl := h23 .trl (by decide)
  obtain ⟨hnext, due, hk⟩ := x.replanNext_spec a
  obtain ⟨hkg, hkv, hkw⟩ := hk.told.track
  have hkp : (x.replanNext a).trl.patches = x.trl.patches := congrArg Prod.fst hkw
  have happl : (x.replanNext a).fld (0x902C, 0, 16) = x.fld (0x902C, 0, 16) := hk.told.applied
  have hbeacon : x.beaconing = s.beaconing := by
    rw [Dev.beaconing, h23 .saf (by decide), h23 .par (by decide), h01 .saf (by decide), h01 .par (by decide), ← Dev.beaconing]
  rw [hbeacon, htrl, hep, htrl0] at hnext
  refine .of_effect he ⟨hk.told.answered _ _ _ hans, hk.told.progressed _ _ _ hprog3, ?_, ?_, ?_, ?_, hnext, ?_⟩
  · rw [hkp, htrl, hpat]
  · rw [hkg, htrl, hgr]
  · rw [hkv, htrl, hver, htrl0]
  · rw [happl, Dev.fld_of_frame h23 (by decide), hcnt, Dev.fld_of_frame h0 (by decide)]
  · rw [hk.frame .clk (by decide), h23 .clk (by decide), h1 .clk (by decide), hclk]

/-- Settles O55: the graph is loaded, patched and read, one clause of the statement at a time. -/
theorem theTrackGraphIsLoadedPatchedAndRead : Obligations.TheTrackGraphIsLoadedPatchedAndRead :=
  ⟨fun _ _ _ _ hs hr hlen h0 h1 hz2 hn0 hn hs0 hs1 hl0 hz hb hload => .trlLoadGraph hs hr hlen h0 h1 hz2 hn0 hn hs0 hs1 hl0 hz hb hload,
    fun _ _ _ _ _ _ hs hx hg hld hn hfits hmay hpat hfp hw => .graphLoadDone hs hx hg hld hn hfits hmay hpat hfp hw,
    fun _ _ _ _ _ _ _ hs hx hg hld hn hw => .graphLoadDone_fails hs hx hg hld hn hw,
    fun _ _ _ _ _ _ hs hr hp ha hn hn256 hit hb hrun hfl hg => .trlPatchGraph hs hr hp ha hn hn256 hit hb hrun hfl hg,
    fun _ _ _ _ _ _ hs hh hp ht hv happ hg hnew hok href hbox hfits hnt hw hroom =>
      .patchValidationEnd hs hh hp ht hv happ hg hnew hok href hbox hfits hnt hw hroom,
    fun _ _ _ _ _ _ hs hh hp ht hv hfar hg hi hw => .patchValidationEnd_fails hs hh hp ht hv hfar hg hi hw,
    fun _ _ _ _ hp ha ht hv hfar href hw hroom => .patchApply hp ha ht hv hfar href hw hroom,
    fun _ _ _ _ hs hr hq h1 h15 hg hl32 hl64 => .trlQuery_node hs hr hq h1 h15 hg hl32 hl64,
    fun _ _ _ _ hs hr hq h1 h15 hg hn => .trlQuery_dma hs hr hq h1 h15 hg hn,
    fun _ _ _ _ _ hs hr hq h15 hg hx hk => .trlQuery_segment hs hr hq h15 hg hx hk⟩

end Sys2Proof.Machine

/-! ### Tasks (R215 to R219, R242) -/
namespace Sys2Proof.Machine

/-! #### Definitions, pins, forbids and priorities -/

theorem exec_taskAllot {s : State} {h : Nat} {l : Live} {b : List Byte} (late : Bool) (hr : s.Runs h 0x58 l) (hbit : bitAt (leAt b 0 1) 7 = false)
    (hb : b.length = l.len) : exec (.taskAllot h (some b) late) s = s.act fun _ => (s.begin.markStarted h).allot h b late := by
  show execTaskAllot h (some b) late s = _
  unfold execTaskAllot
  refine State.act_congr ?_
  dsimp only
  rw [if_neg (by rw [hbit]; decide), Dev.command_eq _ hr, if_neg (not_not_intro hb)]

/-- The unit with the definitions and the records of an allotment taken in (R215). -/
def Dev.allotted (s : Dev) (defs : List (Nat × Task)) (recs : List TaskRec) : Dev :=
  let u := recs.foldl (fun s (r : TaskRec) => s.setTask r.task (r.apply (s.task r.task))) (defs.foldl (fun s p => s.setTask p.1 p.2) s)
  if defs.isEmpty then u else { u with trl := { u.trl with taskChange := true } }

theorem Dev.allot_plain {s : Dev} {h : Nat} {b : List Byte} {late : Bool} {defs : List (Nat × Task)} {recs : List TaskRec}
    (hbit : bitAt (leAt b 0 1) 7 = false) (hread : s.readAllot b = .ok (defs, recs)) :
    s.allot h b late = (s.allotted defs recs).done h stOK [] := by
  unfold Dev.allot
  rw [hread, hbit]
  rfl

theorem Dev.readDefs_of_trl {s t : Dev} (h : t.trl = s.trl) (b : List Byte) (l : List Nat) : ∀ old, t.readDefs b l old = s.readDefs b l old := by
  have hdef (o : Nat) (old : Nat → Task) : t.readDef b o old = s.readDef b o old := by
    unfold Dev.readDef
    rw [h]
  induction l with
  | nil => exact fun _ => rfl
  | cons o l ih =>
    intro old
    unfold Dev.readDefs
    rw [hdef]
    split
    · rfl
    · rw [ih]

theorem Dev.readAllot_of_frame {s t : Dev} {a : List Area} (hf : Frame a s t) (ht : .trl ∉ a) (hx : .txu ∉ a) (hu : .fuse ∉ a) (b : List Byte) :
    t.readAllot b = s.readAllot b := by
  have htask : t.task = s.task := funext fun k => by rw [Dev.task, hf .txu hx, ← Dev.task]
  have hbad : t.recBad = s.recBad := by
    funext known p
    unfold Dev.recBad Dev.nSlots
    rw [hf .fuse hu]
  unfold Dev.readAllot
  rw [htask, hbad]
  simp only [Dev.readDefs_of_trl (hf .trl ht)]

/-- A buffer that is right in every part, and asks for no round, takes effect and is answered. -/
theorem Completes.taskAllot {s : State} {h : Nat} {l : Live} {b : List Byte} {late : Bool} {defs : List (Nat × Task)} {recs : List TaskRec} {u : Dev}
    {P : Dev → Prop} (hs : s.Settled) (hr : s.Runs h 0x58 l) (hbit : bitAt (leAt b 0 1) 7 = false) (hb : b.length = l.len)
    (hread : ((match s.readAllot b with | .ok p => some p | .error _ => none) = some (defs, recs)))
    (hu : (s.begin.markStarted h).allotted defs recs = u)
    (hf : Frame [.txu, .trl] (s.begin.markStarted h) u)
    (hp : (u.done h stOK []).Answered l stOK [] → Frame [.out, .hif] u (u.done h stOK []) → P (u.done h stOK [])) :
    Completes (.taskAllot h (some b) late) s P := by
  have hok : s.readAllot b = .ok (defs, recs) := by
    split at hread
    next p hp => rw [hp, Option.some.inj hread]
    · cases hread
  have he := exec_taskAllot late hr hbit hb
  have h0 := frame_begin_markStarted s.toDev h
  rw [Dev.allot_plain hbit ((Dev.readAllot_of_frame h0 (by decide) (by decide) (by decide) b).trans hok), hu] at he
  have hw := hr.waits.of_frame hf (by decide) (Dev.reg_of_frame hf (by decide) _)
  have h1 : Frame [.out, .hif] u (u.done h stOK []) := (frame_done u h _ _).mono (by decide)
  exact .of_effect hs (h0.append (hf.append h1)) he (by decide) (by decide) (hp (hw.done _ _) h1)

theorem Dev.task_of_frame {s t : Dev} {a : List Area} (hf : Frame a s t) (hx : .txu ∉ a) (k : Nat) : t.task k = s.task k := by
  rw [Dev.task, hf .txu hx, ← Dev.task]

theorem Completes.taskAllot_defines {s : State} {h k : Nat} {l : Live} {b : List Byte} {late : Bool} {x : Task} (hs : s.Settled) (hr : s.Runs h 0x58 l)
    (hbit : bitAt (leAt b 0 1) 7 = false) (hb : b.length = l.len)
    (hread : ((match s.readAllot b with | .ok p => some p | .error _ => none) = some ([(k, x)], []))) :
    Completes (.taskAllot h (some b) late) s fun t => t.Answered l stOK [] ∧ t.task k = x ∧ (∀ j, j ≠ k → t.task j = s.task j) ∧
        t.trl = { s.trl with taskChange := true } ∧ Frame [.out, .hif, .txu, .trl] s.toDev t := by
  have h0 := frame_begin_markStarted s.toDev h
  have htask (j : Nat) : ((s.begin.markStarted h).setTask k x).task j = if j = k then x else s.task j := Dev.task_setTask _ k j x
  have hf : Frame [.txu, .trl] (s.begin.markStarted h)
      { (s.begin.markStarted h).setTask k x with trl := { s.trl with taskChange := true } } := (frame_withTxu _ _).append (frame_withTrl _ _)
  refine .taskAllot (u := { (s.begin.markStarted h).setTask k x with trl := { s.trl with taskChange := true } }) hs hr hbit hb hread rfl hf
    fun hans h1 => ⟨hans, ?_, fun j hj => ?_, h1 .trl (by decide), (h0.append (hf.append h1)).mono (by decide)⟩
  · exact (Dev.task_of_frame h1 (by decide) k).trans ((htask k).trans (if_pos rfl))
  · exact (Dev.task_of_frame h1 (by decide) j).trans ((htask j).trans (if_neg hj))

theorem Completes.taskAllot_records {s : State} {h : Nat} {l : Live} {b : List Byte} {late : Bool} {r : TaskRec} (hs : s.Settled) (hr : s.Runs h 0x58 l)
    (hbit : bitAt (leAt b 0 1) 7 = false) (hb : b.length = l.len)
    (hread : ((match s.readAllot b with | .ok p => some p | .error _ => none) = some ([], [r]))) :
    Completes (.taskAllot h (some b) late) s fun t => t.Answered l stOK [] ∧ t.task r.task = r.apply (s.task r.task) ∧
        (∀ j, j ≠ r.task → t.task j = s.task j) ∧ Frame [.out, .hif, .txu] s.toDev t := by
  have h0 := frame_begin_markStarted s.toDev h
  have htask (j : Nat) : ((s.begin.markStarted h).setTask r.task (r.apply (s.task r.task))).task j =
      if j = r.task then r.apply (s.task r.task) else s.task j := Dev.task_setTask _ r.task j _
  have hf : Frame [.txu] (s.begin.markStarted h) ((s.begin.markStarted h).setTask r.task (r.apply (s.task r.task))) := frame_withTxu _ _
  refine .taskAllot (u := (s.begin.markStarted h).setTask r.task (r.apply (s.task r.task))) hs hr hbit hb hread rfl (hf.mono (by decide))
    fun hans h1 => ⟨hans, ?_, fun j hj => ?_, (h0.append (hf.append h1)).mono (by decide)⟩
  · exact (Dev.task_of_frame h1 (by decide) _).trans ((htask _).trans (if_pos rfl))
  · exact (Dev.task_of_frame h1 (by decide) j).trans ((htask j).trans (if_neg hj))

theorem Completes.taskAllot_refused {s : State} {h code : Nat} {l : Live} {b : List Byte} {late : Bool} {o : Option Nat} (hs : s.Settled)
    (hr : s.Runs h 0x58 l) (hbit : bitAt (leAt b 0 1) 7 = false) (hb : b.length = l.len)
    (hread : ((match s.readAllot b with | .ok _ => none | .error e => some e) = some (code, o))) :
    Completes (.taskAllot h (some b) late) s fun t => t.Answered l code (if code < 0x100 then offsetRes o else []) ∧ Frame [.out, .hif] s.toDev t := by
  have herr : s.readAllot b = .error (code, o) := by
    split at hread
    · cases hread
    next e hp => rw [hp, Option.some.inj hread]
  have he := exec_taskAllot late hr hbit hb
  have h0 := frame_begin_markStarted s.toDev h
  have hallot : (s.begin.markStarted h).allot h b late = (s.begin.markStarted h).done h code (if code < 0x100 then offsetRes o else []) := by
    unfold Dev.allot
    rw [Dev.readAllot_of_frame h0 (by decide) (by decide) (by decide) b, herr, hbit]
    dsimp only
    rw [if_neg (by simp)]
    by_cases hc : code < 0x100
    · rw [if_pos hc, if_pos hc]
      rfl
    · rw [if_neg hc, if_neg hc]
  rw [hallot] at he
  have hall : Frame [.out, .hif] s.toDev ((s.begin.markStarted h).done h code (if code < 0x100 then offsetRes o else [])) :=
    h0.trans ((frame_done _ h _ _).mono (by decide))
  exact .of_effect hs hall he (by decide) (by decide) ⟨Dev.run_done _ _ hr, hall⟩

/-! #### Rounds -/

/-- Fewer than two assignments leave nothing to exchange (R217). -/
theorem swaps_of_pass {costs : List (Nat × Nat × Nat)} {as : List Assign} (h : ∀ left, swapPass costs as left = (as, left)) (n left : Nat) :
    swaps costs n as left = as := by
  cases n with
  | zero => rfl
  | succ n =>
    unfold swaps
    rw [h]
    exact if_pos rfl

theorem swaps_one (costs : List (Nat × Nat × Nat)) (n : Nat) (a : Assign) (left : Nat) : swaps costs n [a] left = [a] :=
  swaps_of_pass (fun _ => rfl) n left

/-- The unit once its round is over and gives one task: the transaction of the device that gives it (R217). -/
def Dev.allots (s : Dev) (h : Nat) (a : Assign) : Dev :=
  { s with txu := { s.txu with
      round := none, nextId := if s.txu.nextId = 0xFFFFFF then 1 else s.txu.nextId + 1
      txns := s.txu.txns ++ [{
        id := s.txu.nextId, handle := some h, round := true, received := s.nt, acts := [.taskSet a.task a.slot 3 (s.task a.task).start] }] } }

theorem Dev.endRound_empty {s : Dev} {r : Round} {n h : Nat} (hp : r.pairs = []) (hh : r.handles = [h]) :
    s.endRound r n = ({ s with txu := { s.txu with round := none } } : Dev).done h stOK [] := by
  unfold Dev.endRound
  rw [hp, hh]
  extract_lets _ _ as
  have has : as = [] := swaps_of_pass (fun _ => rfl) _ _
  rw [has]
  rfl

theorem Dev.endRound_one {s : Dev} {r : Round} {n h : Nat} {a : Assign} (hp : r.pairs = [a]) (hh : r.handles = [h]) (ha : r.auto = false)
    (hrun : s.saf.run = .run) : s.endRound r n = (s.allots h a).progress h 3 (a.bytes s.txu.nextId) := by
  have hcode : (if s.saf.run = .updatePause then stOK else ({ s with txu := { s.txu with round := none } } : Dev).motionCode false) = stOK := by
    rw [if_neg (by rw [hrun]; decide)]
    exact motionCode_run hrun false
  unfold Dev.endRound
  rw [hp, hh, ha]
  extract_lets _ _ as code
  have has : as = [a] := swaps_one _ _ a _
  have hok : code = stOK := hcode
  clear_value as
  subst has
  refine (if_neg Bool.false_ne_true).trans ((if_neg (not_not_intro hok)).trans ?_)
  rfl

theorem exec_roundMsExpiry {s : State} {made : Nat} {r : Round} (hround : s.txu.round = some r) :
    exec (.roundMsExpiry made) s = s.act fun _ => (s.tickTo (ntAdd r.startAt (msTicks (s.fld (0x9028, 16, 8)) : Nat))).endRound r made := by
  show execRoundMsExpiry made s = _
  unfold execRoundMsExpiry
  exact State.act_congr (by rw [hround])

/-- A round with no assignment answers its commands (R218). -/
theorem Completes.round_empty {s : State} {made h : Nat} {l : Live} {r : Round} (hs : s.Settled) (hround : s.txu.round = some r) (hp : r.pairs = [])
    (hh : r.handles = [h]) (hw : s.Waits h l) :
    Completes (.roundMsExpiry made) s fun t => t.Answered l stOK [] ∧ t.txu = { s.txu with round := none } ∧
        t.clk = s.clk.run (s.clk.cyclesTo (ntAdd r.startAt (msTicks (s.fld (0x9028, 16, 8)) : Nat))) ∧ Frame [.clk, .out, .hif, .txu] s.toDev t := by
  have he := exec_roundMsExpiry (made := made) hround
  generalize ntAdd r.startAt (msTicks (s.fld (0x9028, 16, 8)) : Nat) = e at *
  rw [Dev.endRound_empty hp hh] at he
  have h0 := frame_tickTo s.toDev e
  have hclk := Dev.tickTo_clk s.toDev e
  generalize s.tickTo e = u at *
  have h1 := h0.append (frame_withTxu u { u.txu with round := none })
  have hv : ({ u with txu := { u.txu with round := none } } : Dev).txu = { s.txu with round := none } := by rw [← h0 .txu (by decide)]
  have hvc : ({ u with txu := { u.txu with round := none } } : Dev).clk = u.clk := rfl
  generalize ({ u with txu := { u.txu with round := none } } : Dev) = v at *
  have hd := frame_done v h stOK []
  have hall : Frame [.clk, .out, .hif, .txu] s.toDev (v.done h stOK []) := (h1.append hd).mono (by decide)
  exact .of_effect hs hall he (by decide) (by decide)
    ⟨(hw.of_frame h1 (by decide) (Dev.reg_of_frame h1 (by decide) _)).done _ _, (hd .txu (by decide)).trans hv,
      ((hd .clk (by decide)).trans hvc).trans hclk, hall⟩

/-- In RUN a round with an assignment becomes a transaction of the device, told in PROGRESS 3 (R217, R218). -/
theorem Completes.round_one {s : State} {made h : Nat} {l : Live} {r : Round} {a : Assign} (hs : s.Settled) (hround : s.txu.round = some r)
    (hp : r.pairs = [a]) (hh : r.handles = [h]) (ha : r.auto = false) (hrun : s.saf.run = .run) (hw : s.Waits h l) (hroom : s.Room l.cq) :
    Completes (.roundMsExpiry made) s fun t => t.Progressed l 3 (a.bytes s.txu.nextId) ∧ t.txu = { s.txu with
          round := none, nextId := if s.txu.nextId = 0xFFFFFF then 1 else s.txu.nextId + 1
          txns := s.txu.txns ++ [{
            id := s.txu.nextId, handle := some h, round := true, received := t.nt, acts := [.taskSet a.task a.slot 3 (s.task a.task).start] }] } ∧
        Frame [.clk, .out, .hif, .txu] s.toDev t := by
  have he := exec_roundMsExpiry (made := made) hround
  generalize ntAdd r.startAt (msTicks (s.fld (0x9028, 16, 8)) : Nat) = e at *
  have h0 := frame_tickTo s.toDev e
  generalize s.tickTo e = u at *
  have hsaf : u.saf = s.saf := h0 .saf (by decide)
  have htxu : u.txu = s.txu := h0 .txu (by decide)
  have htask : u.task a.task = s.task a.task := Dev.task_of_frame h0 (by decide) _
  rw [Dev.endRound_one hp hh ha (by rw [hsaf]; exact hrun)] at he
  have h1 : Frame ([.clk, .out] ++ [.txu]) s.toDev (u.allots h a) := h0.append (frame_withTxu u _)
  have hv : (u.allots h a).txu = { u.txu with
      round := none, nextId := if u.txu.nextId = 0xFFFFFF then 1 else u.txu.nextId + 1
      txns := u.txu.txns ++ [{
        id := u.txu.nextId, handle := some h, round := true, received := u.nt, acts := [.taskSet a.task a.slot 3 (u.task a.task).start] }] } := rfl
  have hnt : (u.allots h a).nt = u.nt := rfl
  rw [htxu, htask] at hv
  rw [htxu] at he
  generalize u.allots h a = v at *
  have hwv := hw.of_frame h1 (by decide) (Dev.reg_of_frame h1 (by decide) _)
  have hroomv : v.Room l.cq := hroom.of_same (Dev.reg_of_frame h1 (by decide) _) (by rw [h1 .hif (by decide)]) (by rw [h1 .hif (by decide)]) (by rw [h1 .hif (by decide)])
  obtain ⟨hprog, -, hf⟩ := Dev.progress_room 3 (a.bytes s.txu.nextId) hwv.1 hwv.2.1 hroomv
  have hall : Frame [.clk, .out, .hif, .txu] s.toDev (v.progress h 3 (a.bytes s.txu.nextId)) := (h1.append hf).mono (by decide)
  have hnow : (v.progress h 3 (a.bytes s.txu.nextId)).nt = u.nt := by rw [Dev.nt, hf .clk (by decide), ← Dev.nt, hnt]
  refine .of_effect hs hall he (by decide) (by decide) ⟨hprog, ?_, hall⟩
  rw [hnow]
  exact (hf .txu (by decide)).trans hv

/-! #### Withdrawal and grafts -/

/-- A task withdrawn: no robot holds it and no path of it is current (R219). -/
def Task.withdraw (k : Task) : Task :=
  { k with st := .withdrawn, holder := none, pin := none, forbid := [], gens := k.gens.map fun (g : Gen) => { g with current := false } }

/-- What TASK_WITHDRAW in mode 1 without a read-out does with a task (R219). -/
def Dev.taskWithdrawn (s : Dev) (h k : Nat) : Dev :=
  if (s.task k).st = .empty then s.done h stTaskUnknown []
  else if (s.task k).st = .pending then s.refuse h stBusy none
  else if (s.task k).st = .done ∨ (s.task k).st = .withdrawn then s.done h stTaskState []
  else if (s.task k).st = .held then
    if s.motionCode true = stOK then { s with txu := { s.txu with txns := s.txu.txns ++ [{
      handle := some h, acts := [.taskSet k ((s.task k).holder.getD 0) 6 0], stopSafe := true, received := s.nt }] } }
    else s.refuse h (s.motionCode true) none
  else (s.setTask k (s.task k).withdraw).done h stOK []

theorem exec_taskWithdraw {s : State} {h k : Nat} {l : Live} (hr : s.Runs h 0x59 l) (hk : l.p 0 2 = k) (hlt : k < 16384) (hmode : l.p 2 1 = 1)
    (hlen : l.len = 0) (hp : (s.task k).st = .held → s.paused = false) :
    exec (.taskWithdraw h false) s = s.act fun _ => (s.begin.markStarted h).taskWithdrawn h k := by
  show execTaskWithdraw h false s = _
  unfold execTaskWithdraw
  refine State.act_congr ?_
  extract_lets go held
  have hgo : go l (s.begin.markStarted h) = (s.begin.markStarted h).taskWithdrawn h k := by
    generalize s.begin.markStarted h = d
    unfold Dev.taskWithdrawn
    simp only [hk, hmode, hlen, go]
    generalize hx : d.task k = x
    rw [if_neg (by omega), if_neg (by simp), if_neg (by simp)]
    cases hst : x.st <;> simp [Task.withdraw]
  have hcmd (hx : held = true → s.paused = false) : (if held = true then s.fleetCommand h 0x59 go else s.command h 0x59 go) = s.command h 0x59 go := by
    split
    next hh => exact if_neg (by rw [hx hh]; decide)
    · rfl
  refine (hcmd fun hh => hp ?_).trans ((Dev.command_eq _ hr).trans hgo)
  unfold held at hh
  rw [(Dev.startable_live hr.1).1] at hh
  simpa [hk, hmode] using hh

/-- An OPEN or ORPHANED task is withdrawn at once (R219). -/
theorem Completes.taskWithdraw_open {s : State} {h k : Nat} {l : Live} (hs : s.Settled) (hr : s.Runs h 0x59 l) (hk : l.p 0 2 = k) (hlt : k < 16384)
    (hmode : l.p 2 1 = 1) (hlen : l.len = 0) (hst : (s.task k).st = .open_ ∨ (s.task k).st = .orphaned) :
    Completes (.taskWithdraw h false) s fun t => t.Answered l stOK [] ∧ (t.task k).st = .withdrawn ∧ (t.task k).holder = none ∧
        (t.task k).gens.all (fun g => !g.current) = true ∧ (∀ j, j ≠ k → t.task j = s.task j) ∧ Frame [.out, .hif, .txu] s.toDev t := by
  have he := exec_taskWithdraw hr hk hlt hmode hlen fun hx => by rw [hx] at hst; simp at hst
  have hgo : (s.begin.markStarted h).taskWithdrawn h k = ((s.begin.markStarted h).setTask k (s.task k).withdraw).done h stOK [] := by
    have hst' : ((s.begin.markStarted h).task k).st = .open_ ∨ ((s.begin.markStarted h).task k).st = .orphaned := hst
    unfold Dev.taskWithdrawn
    obtain hx | hx := hst' <;> (rw [hx]; rfl)
  rw [hgo] at he
  have h0 := frame_begin_markStarted s.toDev h
  have htask (j : Nat) : ((s.begin.markStarted h).setTask k (s.task k).withdraw).task j = if j = k then (s.task k).withdraw else s.task j :=
    Dev.task_setTask _ k j _
  have hf : Frame [.txu] (s.begin.markStarted h) ((s.begin.markStarted h).setTask k (s.task k).withdraw) := frame_withTxu _ _
  have hw := hr.waits.of_frame hf (by decide) (Dev.reg_of_frame hf (by decide) _)
  generalize (s.begin.markStarted h).setTask k (s.task k).withdraw = v at *
  have h1 := frame_done v h stOK []
  have hall : Frame [.out, .hif, .txu] s.toDev (v.done h stOK []) := (h0.append (hf.append h1)).mono (by decide)
  have htask' (j : Nat) : (v.done h stOK []).task j = if j = k then (s.task k).withdraw else s.task j :=
    (Dev.task_of_frame h1 (by decide) j).trans (htask j)
  have hself := (htask' k).trans (if_pos rfl)
  refine .of_effect hs hall he (by decide) (by decide) ⟨hw.done _ _, ?_, ?_, ?_, fun j hj => (htask' j).trans (if_neg hj), hall⟩
  · rw [hself]; rfl
  · rw [hself]; rfl
  · rw [hself]
    simp [Task.withdraw]

/-- A HELD task is withdrawn by a transaction (R219). -/
theorem Completes.taskWithdraw_held {s : State} {h k : Nat} {l : Live} (hs : s.Settled) (hr : s.Runs h 0x59 l) (hp : s.paused = false) (hk : l.p 0 2 = k)
    (hlt : k < 16384) (hmode : l.p 2 1 = 1) (hlen : l.len = 0) (hst : (s.task k).st = .held) (hrun : s.saf.run = .run ∨ s.saf.run = .fleetStop) :
    Completes (.taskWithdraw h false) s fun t => t.Begun l ∧ t.txu = { s.txu with txns := s.txu.txns ++ [{
          handle := some h, acts := [.taskSet k ((s.task k).holder.getD 0) 6 0], stopSafe := true, received := s.nt }] } ∧
        Frame [.out, .hif, .txu] s.toDev t := by
  have he := exec_taskWithdraw hr hk hlt hmode hlen fun _ => hp
  have hcode : s.motionCode true = stOK := by
    obtain h | h := hrun
    · exact motionCode_run h _
    · rw [Dev.motionCode, h, if_pos rfl]
  have hgo : (s.begin.markStarted h).taskWithdrawn h k = { s.begin.markStarted h with txu := { s.txu with txns := s.txu.txns ++ [{
          handle := some h, acts := [.taskSet k ((s.task k).holder.getD 0) 6 0], stopSafe := true, received := s.nt }] } } := by
    have hst' : ((s.begin.markStarted h).task k).st = .held := hst
    unfold Dev.taskWithdrawn
    rw [hst']
    exact if_pos hcode
  rw [hgo] at he
  have hf : Frame [.out, .hif, .txu] s.toDev { s.begin.markStarted h with txu := { s.txu with txns := s.txu.txns ++ [{
      handle := some h, acts := [.taskSet k ((s.task k).holder.getD 0) 6 0], stopSafe := true, received := s.nt }] } } :=
    .two (by decide) (by decide) (frame_begin_markStarted _ h) (frame_withTxu _ _)
  exact .of_effect hs hf he (by decide) (by decide) ⟨hr.begun, rfl, hf⟩

/-- Of an unknown task a withdrawal answers 0x0508, of one that is over 0x0509 (R219). -/
theorem Completes.taskWithdraw_over {s : State} {h k : Nat} {l : Live} (hs : s.Settled) (hr : s.Runs h 0x59 l) (hk : l.p 0 2 = k) (hlt : k < 16384)
    (hmode : l.p 2 1 = 1) (hlen : l.len = 0) (hst : (s.task k).st = .empty ∨ (s.task k).st = .done ∨ (s.task k).st = .withdrawn) :
    Completes (.taskWithdraw h false) s fun t => t.Answered l (if (s.task k).st = .empty then 0x0508 else 0x0509) [] ∧ Frame [.out, .hif] s.toDev t := by
  have he := exec_taskWithdraw hr hk hlt hmode hlen fun hx => by rw [hx] at hst; simp at hst
  have hgo : (s.begin.markStarted h).taskWithdrawn h k = (s.begin.markStarted h).done h (if (s.task k).st = .empty then 0x0508 else 0x0509) [] := by
    have hst' : ((s.begin.markStarted h).task k).st = (s.task k).st := rfl
    unfold Dev.taskWithdrawn
    rw [hst']
    obtain hx | hx | hx := hst <;> (rw [hx]; rfl)
  rw [hgo] at he
  have hall : Frame [.out, .hif] s.toDev ((s.begin.markStarted h).done h (if (s.task k).st = .empty then 0x0508 else 0x0509) []) :=
    (frame_begin_markStarted _ h).trans ((frame_done _ h _ _).mono (by decide))
  exact .of_effect hs hall he (by decide) (by decide) ⟨Dev.run_done _ _ hr, hall⟩

/-- A transaction that the run state allows, and for which there is room, is taken into flight (R223, R224). -/
theorem Dev.submitTxn_taken {s : Dev} {h : Nat} {t : Txn} (hcode : s.motionCode (t.acts.all Action.stopSafe) = stOK) (hfl : s.inFlight < 256) :
    s.submitTxn h t = { s with txu := { s.txu with txns := s.txu.txns ++
      [{ t with handle := some h, host := true, stopSafe := t.acts.all Action.stopSafe, received := s.nt }] } } := by
  unfold Dev.submitTxn
  exact (if_neg (not_not_intro hcode)).trans (if_neg (Nat.not_le.2 hfl))

/-- Giving a task to a robot is not stop-safe (R223). -/
theorem stopSafe_taskGiven (k i c : Nat) : [Action.taskSet k i 3 c].all Action.stopSafe = false := rfl

/-- A legal GRAFT in RUN becomes a transaction that gives the task to the robot named (R242). -/
theorem Completes.graft {s : State} {h k i : Nat} {l : Live} (hs : s.Settled) (hr : s.Runs h 0x5A l) (ht : s.TakesMotion)
    (happ : s.applyTimeOk (l.pNt 0) = true) (hk : l.p 12 2 = k) (hlt : k < 16384) (hi : l.p 14 1 = i) (hslot : i < s.nSlots) (hlast : l.p 15 1 = 1)
    (hst : (s.task k).st = .orphaned) (hhold : (s.task k).holder = none) (hact : (s.lease i).st = .active) (huns : (s.lease i).unsynced = false)
    (hmask : bitAt (s.task k).mask (s.lease i).cls = true) (hfree : s.taskOf i = none) (hgens : (s.task k).gens.length < 8) :
    Completes (.graft h) s fun t => t.Begun l ∧ t.txu = { s.txu with txns := s.txu.txns ++ [{
          handle := some h, host := true, received := s.nt, acts := [.taskSet k i 3 (l.p 8 4)], applyAt := givenApply (l.pNt 0), graft := true, fromLast := true }] } ∧
        Frame [.out, .hif, .txu] s.toDev t := by
  obtain ⟨hrun, hfl⟩ := ht
  have hf : Frame [.out, .hif, .txu] s.toDev { s.begin.markStarted h with txu := { s.txu with txns := s.txu.txns ++ [{
      handle := some h, host := true, received := s.nt, acts := [.taskSet k i 3 (l.p 8 4)], applyAt := givenApply (l.pNt 0), graft := true, fromLast := true }] } } :=
    .two (by decide) (by decide) (frame_begin_markStarted _ h) (frame_withTxu _ _)
  have he : exec (.graft h) s = _ := act_fleetCommand (by rw [hrun]; decide) _ _ _
  refine .of_command he hs hr ?_ hf (by decide) (by decide) ⟨hr.begun, rfl, hf⟩
  have hcode : s.motionCode false = stOK := motionCode_run hrun _
  have htxu : (s.begin.markStarted h).txu = s.txu := rfl
  have hnt : (s.begin.markStarted h).nt = s.nt := rfl
  have hfl' : (s.begin.markStarted h).inFlight < 256 := hfl
  have happ' : (s.begin.markStarted h).applyTimeOk (l.pNt 0) = true := happ
  subst hk hi
  have hlast' : decide (l.p 15 1 = 1) = true := decide_eq_true hlast
  have hst' : ((s.begin.markStarted h).task (l.p 12 2)).st = .orphaned := hst
  have hlease : ((s.begin.markStarted h).lease (l.p 14 1)) = s.lease (l.p 14 1) := rfl
  have htask : (s.begin.markStarted h).task (l.p 12 2) = s.task (l.p 12 2) := rfl
  have hfree' : (s.begin.markStarted h).taskOf (l.p 14 1) = none := hfree
  have hcode' : (s.begin.markStarted h).motionCode false = stOK := hcode
  have hslot' : l.p 14 1 < (s.begin.markStarted h).nSlots := hslot
  generalize s.begin.markStarted h = d at *
  dsimp only
  rw [if_neg (by simp [happ']), if_neg (Nat.not_le.2 hlt), if_neg (Nat.not_le.2 hslot'), if_neg (by omega), if_neg (by simp [hlast]),
    if_neg (not_not_intro hcode'), if_neg (by simp [hst']), if_neg (by simp [hst']), if_neg (by simp [hst']),
    if_neg (by simp [hlease, htask, hact, huns, hmask]), if_neg (by simp [hfree']), if_neg (by rw [htask]; omega), hlast', Dev.submitTxn_taken hcode' hfl', htxu, hnt]
  dsimp only
  rw [stopSafe_taskGiven]

/-- Settles O57: each part of the TASK_ALLOT buffer, each end of a round and each state of a task named takes its own way. -/
theorem tasksAreDefinedAllottedAndWithdrawn : Obligations.TasksAreDefinedAllottedAndWithdrawn :=
  ⟨fun _ _ _ _ _ _ _ => .taskAllot_defines, fun _ _ _ _ _ _ => .taskAllot_records, fun _ _ _ _ _ _ _ => .taskAllot_refused,
    fun _ _ _ _ _ => .round_empty, fun _ _ _ _ _ _ => .round_one, fun _ _ _ _ => .taskWithdraw_open, fun _ _ _ _ => .taskWithdraw_held,
    fun _ _ _ _ => .taskWithdraw_over, fun _ _ _ _ _ => .graft⟩

end Sys2Proof.Machine

/-! ### The steps of the planner (R191, R195) -/
namespace Sys2Proof.Machine

/-- A search for the largest passing number answers where it began, or one that passes. -/
theorem largest_start_or_passes (p : Nat → Bool) : ∀ k n, largest p k n = n ∨ p (largest p k n) = true := by
  intro k
  induction k with
  | zero => exact fun n => .inl rfl
  | succ k ih =>
    intro n
    unfold largest
    split
    next hp =>
      obtain h | h := ih (n + 2 ^ k)
      · exact .inr (by rw [h]; exact hp)
      · exact .inr h
    · exact ih n

/-- A step toward a goal goes on from its start under the limits of the robot's class. -/
theorem Dev.stepTo_spec (s : Dev) (i : Nat) (x : Start) (rev : Bool) (goal : Nat) :
    (s.stepTo i x rev goal).sf = x.sf ∧ (s.stepTo i x rev goal).k0 = x.k ∧ (s.stepTo i x rev goal).k1 = (s.stepTo i x rev goal).at_ stepNs ∧
      (s.stepTo i x rev goal).acc ≤ (s.cls (s.lease i).cls).aMax ∧ (s.stepTo i x rev goal).jerk ≤ (s.cls (s.lease i).cls).jMax ∧
      (s.stepTo i x rev goal).goal.natAbs = goal := by
  unfold Dev.stepTo
  extract_lets c r k within q k1 still was rest there
  have hmin (b : Bool) (m n : Nat) : (if b then min m n else m) ≤ m := by
    split
    · exact Nat.min_le_left _ _
    · exact Nat.le_refl _
  refine ⟨rfl, rfl, rfl, hmin _ _ _, hmin _ _ _, ?_⟩
  show (if rev = true then -(goal : Int) else goal).natAbs = goal
  split <;> simp

/-- The entries of a free step conflict with no reservation and lie on no segment held back. -/
theorem Dev.stepFree_spec {s : Dev} {es : List Resv} (h : s.stepFree es = true) :
    (∀ e ∈ es, ∀ r ∈ s.trl.resv, s.conflicts e r = false) ∧ ∀ e ∈ es, s.heldSeg e.seg = false := by
  unfold Dev.stepFree Dev.stepHits at h
  obtain ⟨hheld, hhits⟩ := Bool.and_eq_true_iff.1 h
  have hnone : ((s.trl.resv.filter fun r => es.any fun e => s.conflicts e r).map (·.robot)) = [] := by
    cases hl : (s.trl.resv.filter fun r => es.any fun e => s.conflicts e r).map (·.robot) with
    | nil => rfl
    | cons a l =>
      rw [hl, List.eraseDups_cons] at hhits
      cases hhits
  refine ⟨fun e he r hr => ?_, fun e he => ?_⟩
  · have := List.filter_eq_nil_iff.1 (List.map_eq_nil_iff.1 hnone) r hr
    simpa using fun hc => this (List.any_eq_true.2 ⟨e, he, hc⟩)
  · simp at hheld
    exact hheld e he

/-- A step the planner takes is one toward a goal no faster than the limits allow, free, and at rest on no node without hold. -/
theorem Dev.tryStep_some {s : Dev} {i : Nat} {x : Start} {q : PlanStep} {es : List Resv} (h : (s.tryStep i x).1 = some (q, es)) :
    (∃ goal, goal ≤ (s.fastest i x).2 ∧ q = s.stepTo i x (s.fastest i x).1 goal) ∧ es = s.stepEntries i q ∧ s.stepFree es = true ∧
      (q.k1.v = 0 → q.k1.a = 0 → s.coversNoHold i q.k1.sLo = false) := by
  unfold Dev.tryStep at h
  generalize s.fastest i x = f at h ⊢
  obtain ⟨rev, top⟩ := f
  dsimp only at h
  obtain ⟨g, hg, hpick⟩ : ∃ g, g ≤ top ∧ (if s.stepFree (s.stepEntries i (s.stepTo i x rev top)) = true then
      (s.stepTo i x rev top, s.stepEntries i (s.stepTo i x rev top))
    else (s.stepTo i x rev (largest (fun g => decide (g < top) && s.stepFree (s.stepEntries i (s.stepTo i x rev g))) 14 0),
      s.stepEntries i (s.stepTo i x rev (largest (fun g => decide (g < top) && s.stepFree (s.stepEntries i (s.stepTo i x rev g))) 14 0)))) =
      (s.stepTo i x rev g, s.stepEntries i (s.stepTo i x rev g)) := by
    split
    · exact ⟨top, Nat.le_refl _, rfl⟩
    · refine ⟨_, ?_, rfl⟩
      obtain h0 | hp := largest_start_or_passes (fun g => decide (g < top) && s.stepFree (s.stepEntries i (s.stepTo i x rev g))) 14 0
      · rw [h0]
        exact Nat.zero_le _
      · exact Nat.le_of_lt (of_decide_eq_true (Bool.and_eq_true_iff.1 hp).1)
  rw [hpick] at h
  split at h
  next hok =>
    obtain ⟨hfree, hrest⟩ := Bool.and_eq_true_iff.1 hok
    obtain ⟨rfl, rfl⟩ := Prod.mk.inj (Option.some.inj h)
    refine ⟨⟨g, hg, rfl⟩, rfl, hfree, fun hv ha => ?_⟩
    simpa [hv, ha] using hrest
  · cases h

/-! #### What the work of a planning epoch keeps -/

/-- What the work of a planning epoch leaves as it was: leases, the graph, the work in hand and the time planning has taken. -/
structure Dev.PlanKept (s t : Dev) : Prop where
  frame : Frame [.regs, .txu, .mac, .que, .trl, .todo, .hif, .out, .dry, .gov, .frk] s t
  leases : t.txu.leases = s.txu.leases
  graph : t.trl.graph = s.trl.graph
  work : t.trl.work = s.trl.work
  planned : t.reg 0x8044 = s.reg 0x8044

namespace Dev.PlanKept

theorem refl (s : Dev) : s.PlanKept s := ⟨.refl _ s, rfl, rfl, rfl, rfl⟩

theorem trans {s t u : Dev} (h : s.PlanKept t) (k : t.PlanKept u) : s.PlanKept u :=
  ⟨h.frame.trans k.frame, k.leases.trans h.leases, k.graph.trans h.graph, k.work.trans h.work, k.planned.trans h.planned⟩

theorem ite {s t u : Dev} {c : Prop} [Decidable c] (ht : s.PlanKept t) (hu : s.PlanKept u) : s.PlanKept (if c then t else u) := by
  split
  · exact ht
  · exact hu

theorem foldl {α : Type} {f : Dev → α → Dev} (h : ∀ (s : Dev) a, s.PlanKept (f s a)) (l : List α) : ∀ s : Dev, s.PlanKept (l.foldl f s) := by
  induction l with
  | nil => exact fun s => .refl s
  | cons a l ih => exact fun s => (h s a).trans (ih _)

theorem of_ground {s t : Dev} (h : s.GroundKept t) : s.PlanKept t := by
  obtain ⟨hg, -, hw⟩ := h.told.track
  exact ⟨h.frame, h.leases, hg, hw, h.told.planned⟩

/-- A change of areas that none of this lies in. -/
theorem of_frame {a : List Area} {s t : Dev} (h : Frame a s t) (ha : a ⊆ [.mac, .que, .todo, .hif, .out, .dry, .gov, .frk]) : s.PlanKept t := by
  have hm := h.mono ha
  refine ⟨hm.mono (by decide), by rw [hm .txu (by decide)], ?_, ?_, Dev.reg_of_frame hm (by decide) _⟩
  · rw [hm .trl (by decide)]
  · rw [hm .trl (by decide)]

theorem withTrl (s : Dev) (x : Trl) (hg : x.graph = s.trl.graph) (hw : x.work = s.trl.work) : s.PlanKept { s with trl := x } :=
  ⟨(frame_withTrl s x).mono (by decide), rfl, hg, hw, rfl⟩

theorem setFld (s : Dev) (f : Fld) (v : Nat) (h : f.1 ≠ 0x8044) : s.PlanKept (s.setFld f v) :=
  ⟨(frame_setFld s f v).mono (by decide), rfl, rfl, rfl, Dev.reg_setFld_ne _ _ _ _ h.symm⟩

theorem setResv (s : Dev) (l : List Resv) : s.PlanKept (s.setResv l) := by
  have hf := frame_setResv s l
  obtain ⟨hg, -, hw⟩ := Dev.track_setResv s l
  exact ⟨hf.mono (by decide), by rw [hf .txu (by decide)], hg, hw, Dev.reg_setResv s l (by decide)⟩

theorem setRob (s : Dev) (i : Nat) (r : TrlRobot) : s.PlanKept (s.setRob i r) := withTrl s _ rfl rfl

theorem useView (s : Dev) (id : Nat) : s.PlanKept (s.useView id) := by
  unfold Dev.useView
  extract_lets c t0 t c1 c2
  exact ite (withTrl s _ rfl rfl) ((setFld s _ _ (by decide)).trans (withTrl t _ rfl rfl))

theorem useViews (s : Dev) (l : List Resv) : s.PlanKept (s.useViews l) := by
  unfold Dev.useViews
  split
  · exact refl s
  · exact foldl (fun d r => foldl (fun d id => useView d id) _ d) l s

theorem putEnv (s : Dev) (i : Nat) (es : List Resv) : s.PlanKept (s.putEnv i es) := (useViews s es).trans (setResv _ _)

theorem envelope (s : Dev) (i : Nat) (t : NT) (b : Bool) : s.PlanKept (s.envelope i t b) := by
  unfold Dev.envelope
  split
  · exact ite (putEnv s i _) (refl s)
  · dsimp only
    split
    · exact refl s
    · exact (setRob s i _).trans (putEnv _ i _)

theorem expire (s : Dev) : s.PlanKept s.expire := ite (setResv s _) (refl s)

theorem judgeClash (s : Dev) : s.PlanKept s.judgeClash := by
  unfold Dev.judgeClash
  extract_lets pairs fresh x s1 robots s2 s3
  have h1 : s.PlanKept s1 := withTrl s _ rfl rfl
  have h2 : s1.PlanKept s2 := foldl (fun d i => by
    dsimp only
    exact (ite (refl d) ((setRob d i _).trans (of_ground (.pruneAll _ i)))).trans (of_frame (frame_directedStop _ _ _ _ _) (by decide))) robots s1
  have h3 : s2.PlanKept s3 := foldl (fun d _ => of_ground (.raise d _)) fresh s2
  exact (h1.trans (h2.trans h3)).trans (foldl (fun d i => setRob d i _) _ s3)

theorem noteDeps (s : Dev) (i sf : Nat) (why : List Nat) : s.PlanKept (s.noteDeps i sf why) := setRob s i _

theorem planSteps (i : Nat) : ∀ (n : Nat) (x : Start) (s : Dev), s.PlanKept (Dev.planSteps i n x s) := by
  intro n
  induction n with
  | zero => exact fun _ s => refl s
  | succ n ih =>
    intro x s
    unfold Dev.planSteps
    generalize s.tryStep i x = r
    obtain ⟨pick, why, views⟩ := r
    dsimp only
    have h1 : s.PlanKept ((s.useViews views).noteDeps i x.sf why) := (useViews s views).trans (noteDeps _ i _ _)
    generalize (s.useViews views).noteDeps i x.sf why = u at h1
    cases pick with
    | none => exact h1.trans (setRob u i _)
    | some p => exact h1.trans (ite (setFld u _ _ (by decide)) (((setResv u _).trans (setRob _ i _)).trans (ih _ _)))

theorem planRobot (s : Dev) (i : Nat) (whole : Bool) : s.PlanKept (s.planRobot i whole) := by
  have hlive : s.PlanKept (s.livePlan i whole) := setRob s i _
  exact (hlive.trans (setRob _ i _)).trans (planSteps i _ _ _)

theorem planAll (s : Dev) (served : Option Nat) : s.PlanKept (s.planAll served) := by
  unfold Dev.planAll
  extract_lets order full again work n s1 s2
  have h1 : s.PlanKept s1 := foldl (fun d (w : Nat × Bool) => planRobot d w.1 w.2) _ s
  have h2 : s1.PlanKept s2 := foldl (fun d (w : Nat × Bool) => setRob d w.1 _) _ s1
  refine (h1.trans h2).trans (ite ?_ (refl s2))
  exact trans (t := { s2 with trl := { s2.trl with replanAsked := false, replanGranted := false } }) (withTrl s2 _ rfl rfl)
    (of_frame (frame_returnLeave _ _) (by decide))

theorem endRound (s : Dev) (r : Round) (n : Nat) : s.PlanKept (s.endRound r n) := by
  have htxu (d : Dev) (x : Txu) (h : x.leases = d.txu.leases) (hl : x.lists = d.txu.lists) : d.PlanKept { d with txu := x } := of_ground (.withTxu d x h hl)
  unfold Dev.endRound
  extract_lets _ s1 as code id t _ s2
  have h1 : s.PlanKept s1 := htxu s _ rfl rfl
  have h2 : s1.PlanKept s2 := htxu s1 _ rfl rfl
  refine ite (h1.trans (foldl (fun d h => of_ground (.done d h _ _)) _ s1)) (ite (h1.trans (foldl (fun d h => of_ground (.done d h _ _)) _ s1)) ?_)
  refine (h1.trans h2).trans (foldl (fun d a => ?_) as s2)
  have hp : d.PlanKept (r.handles.foldl (fun s h => s.progress h 3 (a.bytes id)) d) :=
    foldl (fun d h => of_frame (frame_progress d h _ _) (by decide)) _ d
  exact hp.trans (ite (of_frame (frame_event _ _ _) (by decide)) (refl _))

theorem askRound (s : Dev) (h : Option Nat) (late : Bool) : s.PlanKept (s.askRound h late) := by
  unfold Dev.askRound
  split
  · exact of_ground (.withTxu s _ rfl rfl)
  · exact ite (of_ground (.withTxu s _ rfl rfl)) (endRound s _ _)

end Dev.PlanKept

/-! #### The planning epoch and its deadline (R194) -/

/-- A unit whose boundary has been taken: lapsed entries leave, patches apply, and envelopes and clashes are judged (R191, R193). -/
def Dev.epochOpened (s : Dev) (b : NT) : Dev :=
  let p := s.expire.applyDue b
  let s := ((p.1.txu.leases.map (·.1)).filter p.1.keepsEnvelope).foldl (fun s i => s.envelope i b false) p.1
  let s := s.judgeClash
  if p.2 || s.trl.replanDue then ({ s with trl := { s.trl with replanDue := false } }).askReplan else s

/-- The planning itself (R194, R195). -/
def Dev.epochPlanned (s : Dev) (work : Nat) (served : Option Nat) (late : Bool) : Dev :=
  let auto := s.trl.taskChange && s.flag (0x9028, 8, 1)
  let s := { s with trl := { s.trl with taskChange := false, handOffDue := true, unfinished := served.isSome } }
  let s := if auto then s.askRound none late else s
  let s := (s.planAll served).note 0x451 work []
  s.setFld (0x8044, 16, 8) (max (s.fld (0x8044, 16, 8)) (sat 8 work))

/-- An epoch is planned where the unit plans, and else only says whether its hand-off is due (R194, R486). -/
def Dev.epochServed (s : Dev) (work : Nat) (served : Option Nat) (late : Bool) : Dev :=
  if !s.plans || s.upd.armed = some 1 then { s with trl := { s.trl with handOffDue := s.plans, unfinished := false } }
  else s.epochPlanned work served late

/-- The epoch taken at a boundary: nothing but the clock moves where no beacon is sent (R194). -/
def Dev.epochTaken (s : Dev) (b : NT) (work : Nat) (served : Option Nat) (late : Bool) : Dev :=
  if !s.beaconing then s else (s.epochOpened b).epochServed work served late

/-- The boundary a planning epoch takes: the one just passed, where it is new, or the next. -/
def Dev.epochAt (s : Dev) : NT :=
  let c : NT := BitVec.ofNat 64 (slotStart (50 * slotframeOf s.nt.toNat))
  let fresh : Bool := c != s.trl.epoch && decide (ntSince s.nt c ≤ usTicks 40)
  if fresh then c else nextSlotframe s.nt

/-- A device whose planning epoch is that of a boundary. -/
def Dev.withEpoch (s : Dev) (b : NT) : Dev := { s with trl := { s.trl with epoch := b } }

theorem exec_planningEpoch {s : State} {work : Nat} {served : Option Nat} {late : Bool} :
    exec (.planningEpoch work served late) s = s.act fun _ =>
      ((s.tickTo s.epochAt).withEpoch s.epochAt).epochTaken s.epochAt work served late := by
  show execPlanningEpoch work served late s = _
  unfold execPlanningEpoch
  refine State.act_congr ?_
  extract_lets c fresh b t x u
  have hb : s.epochAt = b := rfl
  rw [hb]
  clear_value b
  have hu : (s.tickTo b).withEpoch b = u := rfl
  rw [hu]
  clear_value u
  unfold Dev.epochTaken
  split
  · rfl
  · cases hp : u.expire.applyDue b with | mk p1 p2 =>
    dsimp -zeta only
    extract_lets e1 e2 _ v
    have hv : u.epochOpened b = v := by
      unfold Dev.epochOpened
      rw [hp]
    rw [hv]
    clear_value v
    rfl

/-- A device with the re-plan that a patch left due, or without it. -/
def Dev.withDue (s : Dev) (due : Bool) : Dev := { s with trl := { s.trl with replanDue := due } }

theorem Dev.PlanKept.withDue {s t : Dev} (h : s.PlanKept t) (b : Bool) : (s.withDue b).PlanKept (t.withDue b) := by
  have hw := h.work
  unfold Trl.work at hw
  obtain ⟨hp, hw⟩ := Prod.mk.inj hw
  obtain ⟨he, hw⟩ := Prod.mk.inj hw
  obtain ⟨ho, hw⟩ := Prod.mk.inj hw
  obtain ⟨hu, -⟩ := Prod.mk.inj hw
  have hwork : (t.withDue b).trl.work = (s.withDue b).trl.work := by
    show (t.trl.patches, t.trl.epoch, t.trl.handOffDue, t.trl.unfinished, b) = (s.trl.patches, s.trl.epoch, s.trl.handOffDue, s.trl.unfinished, b)
    rw [hp, he, ho, hu]
  have hs : Frame [.trl] (s.withDue b) s := frame_withTrl (s.withDue b) s.trl
  have ht : Frame [.trl] t (t.withDue b) := frame_withTrl t _
  exact ⟨((hs.append h.frame).append ht).mono (by decide), h.leases, h.graph, hwork, h.planned⟩

/-- Where no patch is in flight, what opens an epoch keeps the work in hand but for a re-plan left due, which is asked for. -/
theorem Dev.epochOpened_kept {s : Dev} {b : NT} (hp : s.trl.patches = []) :
    ∃ due, (s.withDue due).PlanKept (s.epochOpened b) ∧ (s.trl.replanDue = true → due = false) := by
  have hexp : s.expire.applyDue b = (s.expire, false) := by
    have hpat : s.expire.trl.patches = [] := (congrArg Prod.fst (Dev.PlanKept.expire s).work).trans hp
    unfold Dev.applyDue
    rw [hpat]
    rfl
  unfold Dev.epochOpened
  rw [hexp]
  extract_lets p s1 s2
  have h2 : s.PlanKept s2 := (Dev.PlanKept.expire s).trans ((Dev.PlanKept.foldl (fun d i => .envelope d i b false) _ _).trans (.judgeClash s1))
  clear_value s2
  have hdue : s2.trl.replanDue = s.trl.replanDue := congrArg (fun w => w.2.2.2.2) h2.work
  by_cases hd : s.trl.replanDue = true
  · rw [if_pos (by rw [hdue, hd]; rfl)]
    exact ⟨false, (h2.withDue false).trans (.of_ground (.askReplan _)), fun _ => rfl⟩
  · rw [if_neg (by rw [hdue]; simpa using hd)]
    exact ⟨s.trl.replanDue, h2, fun h => absurd h hd⟩

theorem Dev.epochPlanned_spec (s : Dev) (work : Nat) (served : Option Nat) (late : Bool) :
    (s.epochPlanned work served late).trl.epoch = s.trl.epoch ∧ (s.epochPlanned work served late).trl.handOffDue = true ∧
      (s.epochPlanned work served late).trl.unfinished = served.isSome ∧ (s.epochPlanned work served late).trl.replanDue = s.trl.replanDue ∧
      (s.epochPlanned work served late).trl.graph = s.trl.graph ∧ (s.epochPlanned work served late).txu.leases = s.txu.leases ∧
      (s.epochPlanned work served late).saf = s.saf ∧
      (s.epochPlanned work served late).fld (0x8044, 16, 8) = max (s.fld (0x8044, 16, 8)) (sat 8 work) := by
  unfold Dev.epochPlanned
  extract_lets auto _ s1 s2 s3
  have hw1 : s1.trl.work = (s.trl.patches, s.trl.epoch, true, served.isSome, s.trl.replanDue) := rfl
  have hr1 : s1.trl.graph = s.trl.graph ∧ s1.txu.leases = s.txu.leases ∧ s1.saf = s.saf ∧ s1.reg 0x8044 = s.reg 0x8044 := ⟨rfl, rfl, rfl, rfl⟩
  have h12 : s1.PlanKept s2 := .ite (.askRound s1 none late) (.refl s1)
  have h23 : s2.PlanKept s3 := (Dev.PlanKept.planAll s2 served).trans (.of_ground (.note _ 0x451 work []))
  obtain ⟨hg1, hl1, hs1, hq1⟩ := hr1
  clear_value s1 s2 s3
  have h13 := h12.trans h23
  have hwork := h13.work.trans hw1
  unfold Trl.work at hwork
  obtain ⟨-, hwork⟩ := Prod.mk.inj hwork
  obtain ⟨hep, hwork⟩ := Prod.mk.inj hwork
  obtain ⟨hoff, hwork⟩ := Prod.mk.inj hwork
  obtain ⟨hun, hdue⟩ := Prod.mk.inj hwork
  have hfld : s3.fld (0x8044, 16, 8) = s.fld (0x8044, 16, 8) := Dev.fld_of_reg (f := (0x8044, 16, 8)) (h13.planned.trans hq1)
  refine ⟨hep, hoff, hun, hdue, h13.graph.trans hg1, h13.leases.trans hl1, (h13.frame .saf (by decide)).trans hs1, ?_⟩
  have hlt : max (s.fld (0x8044, 16, 8)) (sat 8 work) < 2 ^ 8 :=
    Nat.max_lt.2 ⟨s.fld_lt (0x8044, 16, 8), Nat.lt_of_le_of_lt (Nat.min_le_right _ _) (by decide)⟩
  rw [Dev.fld_setFld _ _ _ (by decide), hfld]
  exact Nat.mod_eq_of_lt hlt

/-- What an epoch taken at a boundary finds, where no patch is in flight: the leases, graph, registers and run state as they were. -/
theorem Dev.epoch_spec {s : Dev} {b : NT} (hp : s.trl.patches = []) :
    ∃ due, (((s.tickTo b).withEpoch b).withDue due).PlanKept (((s.tickTo b).withEpoch b).epochOpened b) ∧ (s.trl.replanDue = true → due = false) ∧
      Frame [.clk, .out, .trl] s (((s.tickTo b).withEpoch b).withDue due) ∧ (((s.tickTo b).withEpoch b).withDue due).trl.graph = s.trl.graph ∧
      (((s.tickTo b).withEpoch b).withDue due).trl.epoch = b ∧ (((s.tickTo b).withEpoch b).withDue due).trl.replanDue = due ∧
      ((s.tickTo b).withEpoch b).beaconing = s.beaconing := by
  have h0 := frame_tickTo s b
  generalize s.tickTo b = u at *
  have htrl : u.trl = s.trl := h0 .trl (by decide)
  obtain ⟨due, hk, hd⟩ := Dev.epochOpened_kept (s := u.withEpoch b) (b := b) (by show u.trl.patches = []; rw [htrl]; exact hp)
  have hd' : s.trl.replanDue = true → due = false := by
    rw [← htrl]
    exact hd
  refine ⟨due, hk, hd', (h0.append (frame_withTrl u { u.trl with epoch := b, replanDue := due })).mono (by decide), ?_, rfl, rfl, ?_⟩
  · show u.trl.graph = _
    rw [htrl]
  · show u.beaconing = _
    rw [Dev.beaconing, h0 .saf (by decide), h0 .par (by decide), ← Dev.beaconing]

/-- In FLEET_STOP an epoch plans nothing and leaves no hand-off due (R194). -/
theorem CompletesThen.planningEpoch_stopped {s : State} {work : Nat} {served : Option Nat} {late : Bool} (hrun : s.saf.run = .fleetStop)
    (hp : s.trl.patches = []) :
    CompletesThen (.planningEpoch work served late) s fun d => d.trl.handOffDue = false ∧ d.trl.unfinished = false ∧
        d.fld (0x8044, 16, 8) = s.fld (0x8044, 16, 8) ∧ d.trl.graph = s.trl.graph ∧ d.saf = s.saf := by
  have he := exec_planningEpoch (s := s) (work := work) (served := served) (late := late)
  generalize s.toDev.epochAt = b at he
  obtain ⟨due, hk, -, hf, hg, -, -, hb⟩ := Dev.epoch_spec (s := s.toDev) (b := b) hp
  have hbeacon : s.beaconing = true := by rw [Dev.beaconing, hrun]
  unfold Dev.epochTaken at he
  rw [hb, hbeacon, if_neg (by decide)] at he
  generalize ((s.tickTo b).withEpoch b).withDue due = u at *
  generalize ((s.tickTo b).withEpoch b).epochOpened b = v at *
  have hsaf : v.saf = s.saf := (hk.frame .saf (by decide)).trans (hf .saf (by decide))
  have hplans : v.plans = false := by
    unfold Dev.plans
    rw [hsaf, hrun]
    rfl
  unfold Dev.epochServed at he
  rw [hplans, if_pos (by simp)] at he
  have hfld : v.fld (0x8044, 16, 8) = s.fld (0x8044, 16, 8) := Dev.fld_of_reg (f := (0x8044, 16, 8)) (hk.planned.trans (Dev.reg_of_frame hf (by decide) _))
  exact .of_effect he ⟨rfl, rfl, hfld, hk.graph.trans hg, hsaf⟩

/-- In RUN an epoch takes its boundary, leaves a hand-off due and counts its work (R194, R202). -/
theorem CompletesThen.planningEpoch_runs {s : State} {work : Nat} {served : Option Nat} {late : Bool} (hrun : s.saf.run = .run)
    (harm : s.upd.armed ≠ some 1) (hp : s.trl.patches = []) (hnew : s.trl.epoch ≠ BitVec.ofNat 64 (slotStart (50 * slotframeOf s.nt.toNat)))
    (hnear : ntSince s.nt (BitVec.ofNat 64 (slotStart (50 * slotframeOf s.nt.toNat))) ≤ usTicks 40) :
    CompletesThen (.planningEpoch work served late) s fun d => d.trl.epoch = BitVec.ofNat 64 (slotStart (50 * slotframeOf s.nt.toNat)) ∧
        d.trl.handOffDue = true ∧ d.trl.unfinished = served.isSome ∧ d.fld (0x8044, 16, 8) = max (s.fld (0x8044, 16, 8)) (sat 8 work) ∧
        (s.trl.replanDue = true → d.trl.replanDue = false) ∧ d.trl.graph = s.trl.graph ∧ d.saf = s.saf ∧ d.txu.leases = s.txu.leases := by
  have he := exec_planningEpoch (s := s) (work := work) (served := served) (late := late)
  have hat : s.toDev.epochAt = BitVec.ofNat 64 (slotStart (50 * slotframeOf s.nt.toNat)) :=
    if_pos (by rw [decide_eq_true hnear, Bool.and_true]; exact bne_iff_ne.2 (Ne.symm hnew))
  rw [hat] at he
  clear hat hnew hnear
  generalize BitVec.ofNat 64 (slotStart (50 * slotframeOf s.nt.toNat)) = b at *
  obtain ⟨due, hk, hdue, hf, hg, hep, hdu, hb⟩ := Dev.epoch_spec (s := s.toDev) (b := b) hp
  have hbeacon : s.beaconing = true := by rw [Dev.beaconing, hrun]
  unfold Dev.epochTaken at he
  rw [hb, hbeacon, if_neg (by decide)] at he
  generalize ((s.tickTo b).withEpoch b).withDue due = u at *
  generalize ((s.tickTo b).withEpoch b).epochOpened b = v at *
  have hsaf : v.saf = s.saf := (hk.frame .saf (by decide)).trans (hf .saf (by decide))
  have hupd : v.upd = s.upd := (hk.frame .upd (by decide)).trans (hf .upd (by decide))
  have hplans : v.plans = true := by
    unfold Dev.plans
    rw [hsaf, hrun]
    rfl
  unfold Dev.epochServed at he
  rw [hplans, if_neg (by rw [hupd]; simpa using harm)] at he
  have hfld : v.fld (0x8044, 16, 8) = s.fld (0x8044, 16, 8) := Dev.fld_of_reg (f := (0x8044, 16, 8)) (hk.planned.trans (Dev.reg_of_frame hf (by decide) _))
  obtain ⟨he1, hw2, hw3, hw4, hg1, hl1, hs1, hf1⟩ := v.epochPlanned_spec work served late
  have hwork := hk.work
  unfold Trl.work at hwork
  obtain ⟨-, hwork⟩ := Prod.mk.inj hwork
  obtain ⟨he2, hwork⟩ := Prod.mk.inj hwork
  obtain ⟨-, hwork⟩ := Prod.mk.inj hwork
  obtain ⟨-, hdue2⟩ := Prod.mk.inj hwork
  have hleases : u.txu.leases = s.txu.leases := by rw [hf .txu (by decide)]
  refine .of_effect he ⟨he1.trans (he2.trans hep), hw2, hw3, by rw [hf1, hfld], fun hd => ?_, hg1.trans (hk.graph.trans hg), hs1.trans hsaf,
    hl1.trans (hk.leases.trans hleases)⟩
  rw [hw4, hdue2, hdu, hdue hd]

/-- Work not done by the deadline is abandoned, counted and told (R194). -/
theorem CompletesThen.planDeadline {s : State} (hun : s.trl.unfinished = true) :
    CompletesThen .planDeadline s fun d => d.trl = { s.trl with unfinished := false } ∧ d.todo = s.todo ++ [.fault 0x63 false] ∧
        d.fld (0x8044, 0, 16) = satInc 16 (s.fld (0x8044, 0, 16)) ∧ RegsBut [0x8044] s.toDev d ∧
        d.clk = s.clk.run (s.clk.cyclesTo (ntAdd s.trl.epoch (msTicks 95 : Nat))) ∧ Frame [.clk, .out, .trl, .regs, .todo] s.toDev d := by
  generalize ha : ntAdd s.trl.epoch (msTicks 95 : Nat) = a
  have h0 := frame_tickTo s.toDev a
  have hclk := Dev.tickTo_clk s.toDev a
  have htrl : (s.tickTo a).trl = s.trl := h0 .trl (by decide)
  have he : exec .planDeadline s = s.act fun _ =>
      (({ s.tickTo a with trl := { (s.tickTo a).trl with unfinished := false } } : Dev).cntSat (0x8044, 0, 16)).raise 0x63 := by
    show execPlanDeadline s = _
    unfold execPlanDeadline
    refine State.act_congr ?_
    rw [ha]
    exact if_neg (by rw [htrl, hun]; decide)
  generalize s.tickTo a = u at *
  have h1 : Frame [.trl] u { u with trl := { u.trl with unfinished := false } } := frame_withTrl u _
  have hv : ({ u with trl := { u.trl with unfinished := false } } : Dev).trl = { s.trl with unfinished := false } := by rw [← htrl]
  generalize ({ u with trl := { u.trl with unfinished := false } } : Dev) = v at *
  have h01 := h0.append h1
  have h2 := frame_cntSat v (0x8044, 0, 16)
  have hcount := v.fld_cntSat (0x8044, 0, 16) (by decide)
  have hregs := RegsBut.cntSat v (0x8044, 0, 16)
  generalize v.cntSat (0x8044, 0, 16) = w at *
  have h012 := h01.append h2
  have htodo : w.todo = s.todo := h012 .todo (by decide)
  refine .of_effect he ⟨(h2 .trl (by decide)).trans hv, ?_, ?_, ?_, ?_, (h012.append (frame_raise w 0x63)).mono (by decide)⟩
  · show w.todo ++ [.fault 0x63 false] = _
    rw [htodo]
  · exact hcount.trans (by rw [Dev.fld_of_frame h01 (by decide)])
  · exact fun o ho => (hregs o ho).trans (Dev.reg_of_frame h01 (by decide) o)
  · exact ((h2 .clk (by decide)).trans (h1 .clk (by decide))).trans hclk

end Sys2Proof.Machine

/-! ### The hand-off of planned steps (R197, R237) -/
namespace Sys2Proof.Machine

theorem Dev.plannable_of_same {s t : Dev} (hr : t.trl.robots = s.trl.robots) (hx : t.txu = s.txu) (i : Nat) : t.plannable i = s.plannable i := by
  unfold Dev.plannable Dev.rob Dev.task Dev.lease Dev.leftOut
  rw [hr, hx]

theorem Dev.handSteps_of_same {s t : Dev} (hr : t.trl.robots = s.trl.robots) (he : t.trl.epoch = s.trl.epoch) (hq : t.reg 0x8014 = s.reg 0x8014) (i : Nat) :
    t.handSteps i = s.handSteps i := by
  unfold Dev.handSteps Dev.rob Dev.fld
  rw [hr, he, hq]

theorem Dev.plans_of_frame {s t : Dev} {a : List Area} (hf : Frame a s t) (hs : .saf ∉ a) (hu : .upd ∉ a) : t.plans = s.plans := by
  unfold Dev.plans
  rw [hf .saf hs, hf .upd hu]

theorem Dev.rob_setResv (s : Dev) (l : List Resv) (i : Nat) : (s.setResv l).rob i = s.rob i := by
  have h : (s.setResv l).trl.robots = s.trl.robots := by
    unfold Dev.setResv
    extract_lets n x s1 s2 high
    have h2 : s2.trl.robots = s1.trl.robots := by
      show (if s1.fld (0x8038, 0, 23) < n then s1.setFld (0x8038, 0, 23) (sat 23 n) else s1).trl.robots = _
      split <;> rfl
    have h1 : s2.trl.robots = s.trl.robots := h2
    clear_value s2
    split
    · exact h1
    · exact h1
  rw [Dev.rob, h, ← Dev.rob]

/-- The transaction by which steps are handed to robots (R237). -/
def Dev.stepTxn (s : Dev) (robots : List Nat) : Txn :=
  let c := slotframeAtOrAfter (ntAdd s.nt (s.offerLead : Nat))
  let parts : List Part := robots.map fun i =>
    let ver := match (s.rob i).route with | some r => r.tver | none => 0
    let top := match (s.handSteps i).getLast? with | some q => q.end_ | none => 0
    { slot := i, epoch := (s.lease i).epoch, recs := [grantRec ver top] }
  let grants := robots.map fun i => (i, (s.rob i).sGrant)
  { id := s.txu.nextId, step := true, phase := .offered, applyAt := some (applyOf c), cNt := c, parts, grants, received := s.nt }

/-- The entries of the steps handed over are offered under the next id (R237). -/
def Dev.stepResv (s : Dev) (robots : List Nat) : List Resv :=
  let taken : Resv → Bool := fun r => r.kind = .spec && !r.host && !r.staged && robots.contains r.robot &&
    (s.handSteps r.robot).any fun q => q.sf == r.step
  s.trl.resv.map fun r => if taken r then { r with kind := .offered, txn := s.txu.nextId, uNew := true } else r

/-- No entry of a step handed over stays SPECULATIVE. -/
theorem Dev.stepResv_one (s : Dev) (i : Nat) : ∀ r ∈ s.stepResv [i],
    (!(decide (r.kind = .spec) && r.robot == i && !r.host && !r.staged && (s.handSteps i).any fun p => p.sf == r.step)) = true := by
  intro r hr
  obtain ⟨y, -, rfl⟩ := List.mem_map.1 hr
  dsimp only
  split
  · rfl
  next hnot =>
    rw [Bool.not_eq_true']
    refine Bool.eq_false_iff.2 fun hall => hnot ?_
    simp only [Bool.and_eq_true, decide_eq_true_eq, beq_iff_eq] at hall
    obtain ⟨⟨⟨⟨hk, rfl⟩, hh⟩, hs⟩, hany⟩ := hall
    simp [hk, hh, hs, hany]

/-- A robot whose steps are handed over: its granted route ends where they end (R197). -/
def Dev.handTo (s : Dev) (i : Nat) : Dev :=
  let x := s.rob i
  let hs := s.handSteps i
  let top := hs.getLast?.map PlanStep.end_
  s.setRob i { x with sGrant := top.or x.sGrant, plan := x.plan.map fun q => if hs.contains q then { q with handed := true } else q }

/-- A device whose next transaction is taken into flight under its id. -/
def Dev.withTxn (s : Dev) (t : Txn) : Dev :=
  { s with txu := { s.txu with nextId := if s.txu.nextId = 0xFFFFFF then 1 else s.txu.nextId + 1, txns := s.txu.txns ++ [t] } }

theorem exec_handOff {s : State} {i : Nat} {x : TrlRobot} {u : Dev} (hdue : s.trl.handOffDue = true)
    (hu : u = { s.tickTo (ntAdd s.trl.epoch (msTicks 60 : Nat)) with
      trl := { (s.tickTo (ntAdd s.trl.epoch (msTicks 60 : Nat))).trl with handOffDue := false } })
    (hplans : u.plans = true) (hrob : u.trl.robots = [(i, x)]) (hplan : u.plannable i = true) (hsteps : u.handSteps i ≠ []) :
    exec .handOff s = s.act fun _ => (((u.handTo i).withTxn (u.stepTxn [i])).setResv (u.stepResv [i])).sendOffers (u.stepTxn [i]) (u.stepTxn [i]).parts
      (applyOf (slotframeAtOrAfter (ntAdd u.nt (u.offerLead : Nat)))) false := by
  show execHandOff s = _
  unfold execHandOff
  refine State.act_congr ?_
  rw [if_neg (by rw [hdue]; decide)]
  extract_lets t x v robots id c parts grants tx taken l w
  have hv : v = u := hu.symm
  clear_value v
  subst hv
  have hrobots : robots = [i] := by
    show (v.trl.robots.map (·.1)).filter _ = _
    rw [hrob]
    simp [hplan, hsteps]
  clear_value robots
  subst hrobots
  refine (if_neg (by simp [hplans])).trans ?_
  rfl

/-- At `B` + 60 ms the steps a robot has to give are offered under the next id, and its granted route ends where they end (R197, R237). -/
theorem CompletesThen.handOff {s : State} {i : Nat} {x : TrlRobot} {q : PlanStep} (hdue : s.trl.handOffDue = true) (hplans : s.plans = true)
    (hrob : s.trl.robots = [(i, x)]) (hplan : s.plannable i = true) (hlast : (s.handSteps i).getLast? = some q) :
    CompletesThen .handOff s fun d => d.trl.handOffDue = false ∧ d.txu.nextId = (if s.txu.nextId = 0xFFFFFF then 1 else s.txu.nextId + 1) ∧
        d.txu.txns.dropLast = s.txu.txns ∧ d.txu.txns.getLast?.map (fun t => (t.id, t.step)) = some (s.txu.nextId, true) ∧
        d.txu.txns.getLast?.map (fun t => (t.phase, t.parts.map (·.slot))) = some (.offered, [i]) ∧ (d.rob i).sGrant = some q.end_ ∧
        (d.trl.resv.all fun r => !(decide (r.kind = .spec) && r.robot == i && !r.host && !r.staged && (s.handSteps i).any fun p => p.sf == r.step)) = true ∧
        d.clk = s.clk.run (s.clk.cyclesTo (ntAdd s.trl.epoch (msTicks 60 : Nat))) := by
  have h0 := frame_tickTo s.toDev (ntAdd s.trl.epoch (msTicks 60 : Nat))
  have hclk := Dev.tickTo_clk s.toDev (ntAdd s.trl.epoch (msTicks 60 : Nat))
  obtain ⟨u, hu⟩ : ∃ u : Dev, u = { s.tickTo (ntAdd s.trl.epoch (msTicks 60 : Nat)) with
      trl := { (s.tickTo (ntAdd s.trl.epoch (msTicks 60 : Nat))).trl with handOffDue := false } } := ⟨_, rfl⟩
  have he := exec_handOff (s := s) (i := i) (x := x) hdue hu
  generalize ntAdd s.trl.epoch (msTicks 60 : Nat) = a at *
  generalize s.tickTo a = v at *
  have h1 : Frame ([.clk, .out] ++ [.trl]) s.toDev u := by
    rw [hu]
    exact h0.append (frame_withTrl v _)
  have hvt : v.trl = s.trl := h0 .trl (by decide)
  have hut : u.trl = { s.trl with handOffDue := false } := by rw [hu, ← hvt]
  have huc : u.clk = v.clk := by rw [hu]
  have hux : u.txu = s.txu := h1 .txu (by decide)
  have hrobots : u.trl.robots = s.trl.robots := by rw [hut]
  have hsteps : u.handSteps i = s.handSteps i := Dev.handSteps_of_same hrobots (by rw [hut]) (Dev.reg_of_frame h1 (by decide) _) i
  have hresv : u.trl.resv = s.trl.resv := by rw [hut]
  have hoff : u.trl.handOffDue = false := by rw [hut]
  have he := he ((Dev.plans_of_frame h1 (by decide) (by decide)).trans hplans) (by rw [hrobots, hrob]) ((Dev.plannable_of_same hrobots hux i).trans hplan)
    (by rw [hsteps]; intro hn; rw [hn] at hlast; cases hlast)
  clear hu
  have h2 := frame_sendOffers (((u.handTo i).withTxn (u.stepTxn [i])).setResv (u.stepResv [i])) (u.stepTxn [i]) (u.stepTxn [i]).parts
    (applyOf (slotframeAtOrAfter (ntAdd u.nt (u.offerLead : Nat)))) false
  generalize (((u.handTo i).withTxn (u.stepTxn [i])).setResv (u.stepResv [i])).sendOffers (u.stepTxn [i]) (u.stepTxn [i]).parts
    (applyOf (slotframeAtOrAfter (ntAdd u.nt (u.offerLead : Nat)))) false = d at he h2
  have h3 := frame_setResv ((u.handTo i).withTxn (u.stepTxn [i])) (u.stepResv [i])
  have h32 := h3.append h2
  have hwork := (Dev.track_setResv ((u.handTo i).withTxn (u.stepTxn [i])) (u.stepResv [i])).2.2
  have hdt := h2 .trl (by decide)
  have hdx : d.txu = ((u.handTo i).withTxn (u.stepTxn [i])).txu := h32 .txu (by decide)
  have hdr := Dev.resv_setResv ((u.handTo i).withTxn (u.stepTxn [i])) (u.stepResv [i])
  have hrobd := Dev.rob_setResv ((u.handTo i).withTxn (u.stepTxn [i])) (u.stepResv [i]) i
  refine .of_effect he ⟨?_, ?_, ?_, ?_, ?_, ?_, ?_, ((h32 .clk (by decide)).trans huc).trans hclk⟩
  · rw [hdt]
    exact (congrArg (fun w => w.2.2.1) hwork).trans hoff
  · rw [hdx]
    show (if u.txu.nextId = 0xFFFFFF then 1 else u.txu.nextId + 1) = _
    rw [hux]
  · rw [hdx]
    show (u.txu.txns ++ [u.stepTxn [i]]).dropLast = _
    rw [List.dropLast_concat, hux]
  · rw [hdx]
    show (u.txu.txns ++ [u.stepTxn [i]]).getLast?.map _ = _
    rw [List.getLast?_concat, ← hux]
    rfl
  · rw [hdx]
    show (u.txu.txns ++ [u.stepTxn [i]]).getLast?.map _ = _
    rw [List.getLast?_concat]
    rfl
  · rw [Dev.rob, hdt, ← Dev.rob, hrobd]
    show ((u.handTo i).rob i).sGrant = _
    unfold Dev.handTo
    rw [Dev.rob_setRob, if_pos rfl]
    show ((u.handSteps i).getLast?.map PlanStep.end_).or _ = _
    rw [hsteps, hlast]
    rfl
  · rw [hdt, hdr, ← hsteps]
    exact List.all_eq_true.2 (Dev.stepResv_one u i)

/-- Settles O56: a step that the planner takes is free as its search checks it, and the rest of an epoch keeps what is in hand. -/
theorem thePlannerPlansWithoutConflict : Obligations.ThePlannerPlansWithoutConflict := by
  refine ⟨fun s i x q es h => ?_, fun _ _ _ _ hrun harm hp _ => .planningEpoch_runs hrun harm hp, fun _ _ _ _ => .planningEpoch_stopped,
    fun _ _ _ _ => .handOff, fun _ => .planDeadline⟩
  obtain ⟨⟨g, hg, rfl⟩, hes, hfree, hhold⟩ := Dev.tryStep_some h
  obtain ⟨hconf, hheld⟩ := Dev.stepFree_spec hfree
  obtain ⟨hsf, hk0, hk1, hacc, hjerk, hgoal⟩ := s.stepTo_spec i x (s.fastest i x).1 g
  exact ⟨hconf, hheld, hes, hsf, hk0, hk1, hacc, hjerk, by rw [hgoal]; exact hg, hhold⟩

end Sys2Proof.Machine

/-! ### Demands for snapshots (R120, R129, R134 to R136, R139) -/
namespace Sys2Proof.Machine

/-- A device whose demands for snapshots are those given. -/
def Dev.withDemand (s : Dev) (l : List Demand) : Dev := { s with snp := { s.snp with demand := l } }

theorem Dev.withDemand_of_eq {s : Dev} {l : List Demand} (h : s.snp.demand = l) : s.withDemand l = s := by
  subst h
  rfl

theorem Dev.unitsFit_of_same {s t : Dev} {u : Nat} (hc : t.clk = s.clk) (hq : t.snp.asked = s.snp.asked) (hb : t.snp.batches = s.snp.batches)
    (ha : t.snp.asm_ = s.snp.asm_) : t.unitsFit u = s.unitsFit u := by
  unfold Dev.unitsFit Dev.unitsAsked Dev.unitsPending Dev.nt
  rw [hc, hq, hb, ha]

/-- The only demand, where it still stands: it is served if its units fit, and else waits (R136). -/
theorem Dev.demand_one {s : Dev} {d : Demand} (hd : s.snp.demand = []) (hw : (s.withDemand [d]).wanted d = true) :
    s.demand d = if s.unitsFit d.units then s.serve d else s.withDemand [d] := by
  have hnew : (if s.snp.demand.contains d then s else { s with snp := { s.snp with demand := s.snp.demand ++ [d] } }) = s.withDemand [d] := by
    rw [hd]
    rfl
  have hfit : (s.withDemand [d]).unitsFit d.units = s.unitsFit d.units := Dev.unitsFit_of_same rfl rfl rfl rfl
  have hlist : (s.withDemand [d]).snp.demand.filter (s.withDemand [d]).wanted = [d] := by
    show [d].filter _ = _
    simp [hw]
  unfold Dev.demand
  rw [hnew]
  unfold Dev.serveDemand
  rw [hlist]
  show (s.withDemand [d]).serveGo 1 = _
  unfold Dev.serveGo
  show (if (s.withDemand [d]).unitsFit d.units = true then ((s.withDemand ([d].erase d)).serve d).serveGo 0 else s.withDemand [d]) = _
  rw [hfit]
  congr 1
  rw [List.erase_cons_head, Dev.withDemand_of_eq hd]
  rfl

/-- A snapshot where no batch stands opens the next one (R137). -/
theorem Dev.joinBatch_first {s : Dev} (x : Snap) (hb : s.snp.batches = []) :
    s.joinBatch x = { s with snp := { s.snp with
      batches := [{ id := s.snp.nextBatch, opened := s.nt, snaps := [x] }], nextBatch := s.snp.nextBatch + 1 } } := by
  unfold Dev.joinBatch
  rw [hb]
  exact congrArg (fun l => ({ s with snp := { s.snp with
    batches := l ++ [{ id := s.snp.nextBatch, opened := s.nt, snaps := [x] }], nextBatch := s.snp.nextBatch + 1 } } : Dev)) hb

/-- A demand of a snapshot taken, where no other demand and no batch stands. -/
theorem Dev.demand_snap {s : Dev} {x : Snap} (hd : s.snp.demand = []) (hb : s.snp.batches = []) :
    s.demand (.snap x) = if s.unitsFit x.units
      then { s.askUnits x.units with snp := { (s.askUnits x.units).snp with
        batches := [{ id := s.snp.nextBatch, opened := s.nt, snaps := [x] }], nextBatch := s.snp.nextBatch + 1 } }
      else s.withDemand [.snap x] := by
  rw [Dev.demand_one hd rfl]
  congr 1
  exact Dev.joinBatch_first x hb

/-! #### The local snapshot, audits and rechecks -/

/-- Every 10 s of a SUSPECT station a snapshot of its own is taken, which waits where capacity is short (R120). -/
theorem Completes.localSnapshot {s : State} {samples : List Byte} {x : Snap} (hs : s.Settled) (hst : s.station = 1) (hat : s.snp.localAt = none)
    (hb : s.snp.batches = []) (hd : s.snp.demand = []) (hx : x = s.localSnap .local_ samples) :
    Completes (.localSnapshot samples) s fun t => (if s.unitsFit x.units
        then t.snp = { s.snp with
            localAt := some s.nt, localPend := true, localVerdict := 0, asked := t.snp.asked, nextBatch := s.snp.nextBatch + 1
            batches := [{ id := s.snp.nextBatch, opened := s.nt, snaps := [x] }] } ∧ t.snp.asked.head? = some (s.nt, x.units)
        else t.snp = { s.snp with localAt := some s.nt, localPend := true, localVerdict := 0, demand := [.snap x] }) ∧ Frame [.out, .snp] s.toDev t := by
  subst hx
  obtain ⟨u, hu⟩ : ∃ u : Dev, u = { s.begin with snp := { s.snp with localAt := some s.nt, localPend := true, localVerdict := 0 } } := ⟨_, rfl⟩
  have he : exec (.localSnapshot samples) s = s.act fun _ => u.demand (.snap (s.localSnap .local_ samples)) := by
    subst hu
    show execLocalSnapshot samples s = _
    unfold execLocalSnapshot
    refine State.act_congr ?_
    rw [if_neg (not_not_intro hst), hat]
    rfl
  have h0 : Frame [.out, .snp] s.toDev u := by
    subst hu
    exact (frame_begin s.toDev).append (frame_withSnp _ _)
  have hsnp : u.snp = { s.snp with localAt := some s.nt, localPend := true, localVerdict := 0 } := by rw [hu]
  have hnt : u.nt = s.nt := by rw [hu]; rfl
  clear hu
  have hfit : u.unitsFit (s.localSnap .local_ samples).units = s.unitsFit (s.localSnap .local_ samples).units :=
    Dev.unitsFit_of_same (h0 .clk (by decide)) (by rw [hsnp]) (by rw [hsnp]) (by rw [hsnp])
  rw [Dev.demand_snap (by rw [hsnp]; exact hd) (by rw [hsnp]; exact hb), hfit] at he
  generalize s.localSnap .local_ samples = x at *
  by_cases hf : s.unitsFit x.units = true
  · rw [if_pos hf] at he
    have hall : Frame [.out, .snp] s.toDev { u.askUnits x.units with snp := { (u.askUnits x.units).snp with
        batches := [{ id := u.snp.nextBatch, opened := u.nt, snaps := [x] }], nextBatch := u.snp.nextBatch + 1 } } :=
      ((h0.append (frame_askUnits u x.units)).append (frame_withSnp _ _)).mono (by decide)
    refine .of_effect hs hall he (by decide) (by decide) ⟨?_, hall⟩
    rw [if_pos hf, hnt]
    refine ⟨?_, ?_⟩
    · show ({ u.snp with asked := _, nextBatch := _, batches := _ } : Snp) = _
      rw [hsnp]
    · show some (u.nt, x.units) = _
      rw [hnt]
  · rw [if_neg hf] at he
    have hall : Frame [.out, .snp] s.toDev (u.withDemand [.snap x]) := (h0.append (frame_withSnp u _)).mono (by decide)
    refine .of_effect hs hall he (by decide) (by decide) ⟨?_, hall⟩
    rw [if_neg hf]
    show ({ u.snp with demand := _ } : Snp) = _
    rw [hsnp]

theorem Dev.rover_setRover (s : Dev) (i j : Nat) (x : Rover) : (s.setRover i x).rover j = if j = i then x else s.rover j := Tab.get_set _ _ _ _ _

theorem Dev.rover_of_frame {s t : Dev} {a : List Area} (hf : Frame a s t) (h : .snp ∉ a) (j : Nat) : t.rover j = s.rover j := by
  rw [Dev.rover, hf .snp h, ← Dev.rover]

/-- Asking a robot for a snapshot (R129): what it holds of others stands. -/
theorem Dev.rover_askSnap (s : Dev) (i j : Nat) : (s.askSnap i).rover j = if j = i then { s.rover i with wantSnap := true } else s.rover j :=
  Dev.rover_setRover s i j _

/-- The next robot of the audit cycle is ACTIVE. -/
theorem Dev.active_of_nextAudited {s : Dev} {i : Nat} (h : s.nextAudited = some i) : (s.lease i).st = .active := by
  have := List.find?_some h
  simpa using this

/-- An audit that finds capacity asks its robot (R135). -/
theorem Completes.auditRequest {s : State} {i : Nat} (hs : s.Settled) (hi : s.nextAudited = some i) (hp : s.fld (0x6014, 0, 16) ≠ 0)
    (ha : (s.rover i).audited = none) (hd : s.snp.demand = []) (hfit : s.unitsFit 1 = true) :
    Completes .auditRequest s fun t => t.rover i = { s.rover i with wantSnap := true, audited := some s.nt } ∧ (∀ j, j ≠ i → t.rover j = s.rover j) ∧
        t.snp.nextAudit = (i + 1) % s.nSlots ∧ t.snp.asked.head? = some (s.nt, 1) ∧ Frame [.out, .snp] s.toDev t := by
  have he : exec .auditRequest s = s.act fun _ => s.begin.demand (.audit i) := by
    show execAuditRequest s = _
    unfold execAuditRequest
    refine State.act_congr ?_
    extract_lets p
    rw [hi]
    dsimp only
    rw [if_neg hp, ha]
  have h0 := frame_begin s.toDev
  have hact : (s.begin.lease i).st = .active := Dev.active_of_nextAudited hi
  have hwant : (s.begin.withDemand [.audit i]).wanted (.audit i) = true := decide_eq_true hact
  have hfit' : s.begin.unitsFit (Demand.audit i).units = true := hfit
  have hd' : s.begin.snp.demand = [] := hd
  rw [Dev.demand_one hd' hwant, if_pos hfit'] at he
  have hnt : s.begin.nt = s.nt := rfl
  have hrov : s.begin.rover = s.rover := rfl
  have hslots : s.begin.nSlots = s.nSlots := rfl
  generalize s.begin = u at *
  have h1 := frame_setRover u i { u.rover i with audited := some u.nt }
  have hr1 := fun j => Dev.rover_setRover u i j { u.rover i with audited := some u.nt }
  have hall : Frame [.out, .snp] s.toDev (u.serve (.audit i)) :=
    (h0.append ((h1.append (frame_withSnp _ _)).append (frame_askSnap _ i))).mono (by decide)
  have hr (j : Nat) : (u.serve (.audit i)).rover j = if j = i then { s.rover i with wantSnap := true, audited := some s.nt } else s.rover j := by
    refine (Dev.rover_askSnap _ i j).trans ?_
    have hself : (u.setRover i { u.rover i with audited := some u.nt }).rover i = { s.rover i with audited := some s.nt } := by
      rw [hr1, if_pos rfl, hrov, hnt]
    by_cases hj : j = i
    · rw [if_pos hj, if_pos hj]
      exact congrArg (fun r : Rover => { r with wantSnap := true }) hself
    · rw [if_neg hj, if_neg hj]
      exact (hr1 j).trans ((if_neg hj).trans (by rw [hrov]))
  refine .of_effect hs hall he (by decide) (by decide) ⟨(hr i).trans (if_pos rfl), fun j hj => (hr j).trans (if_neg hj), ?_, ?_, hall⟩
  · show (i + 1) % u.nSlots = _
    rw [hslots]
  · show some (u.nt, 1) = _
    rw [hnt]

/-- A recheck that finds capacity asks its robot again (R134). -/
theorem Completes.recheckRequest {s : State} {i : Nat} {u : NT} (hs : s.Settled) (hrx : (s.rover i).rx = 2) (hask : (s.rover i).asked = some u)
    (hl : (s.lease i).st = .active ∨ (s.lease i).st = .suspect ∨ (s.lease i).st = .admitting) (hd : s.snp.demand = [])
    (hfit : (s.tickTo (ntAdd u ((s.fld (0x6014, 16, 8) * tickHz : Nat) : Int))).unitsFit 1 = true) :
    Completes (.recheckRequest i) s fun t => t.rover i = { s.rover i with wantSnap := true, asked := some t.nt } ∧ (∀ j, j ≠ i → t.rover j = s.rover j) ∧
        t.clk = s.clk.run (s.clk.cyclesTo (ntAdd u ((s.fld (0x6014, 16, 8) * tickHz : Nat) : Int))) ∧ Frame [.clk, .out, .snp] s.toDev t := by
  have hlive : (decide ((s.lease i).st = .admitting) || decide ((s.lease i).st = .active) || decide ((s.lease i).st = .suspect)) = true := by
    obtain h | h | h := hl <;> rw [h] <;> rfl
  have he : exec (.recheckRequest i) s = s.act fun _ =>
      let v := s.tickTo (ntAdd u ((s.fld (0x6014, 16, 8) * tickHz : Nat) : Int))
      (v.setRover i { s.rover i with asked := some v.nt }).demand (.recheck i) := by
    show execRecheckRequest i s = _
    unfold execRecheckRequest
    refine State.act_congr ?_
    extract_lets x live
    rw [hask]
    dsimp only
    exact if_neg (by simp only [x, live]; rw [hlive, hrx]; decide)
  generalize ntAdd u ((s.fld (0x6014, 16, 8) * tickHz : Nat) : Int) = a at *
  have h0 := frame_tickTo s.toDev a
  have hclk := Dev.tickTo_clk s.toDev a
  dsimp only at he
  generalize s.tickTo a = v at *
  have h1 := frame_setRover v i { s.rover i with asked := some v.nt }
  have hr1 (j : Nat) : (v.setRover i { s.rover i with asked := some v.nt }).rover j = if j = i then { s.rover i with asked := some v.nt } else s.rover j := by
    rw [Dev.rover_setRover, Dev.rover_of_frame h0 (by decide)]
  have hdem : (v.setRover i { s.rover i with asked := some v.nt }).snp.demand = [] := by
    show v.snp.demand = []
    rw [h0 .snp (by decide)]
    exact hd
  have hfit1 : (v.setRover i { s.rover i with asked := some v.nt }).unitsFit 1 = v.unitsFit 1 := Dev.unitsFit_of_same rfl rfl rfl rfl
  have hnt : (v.setRover i { s.rover i with asked := some v.nt }).nt = v.nt := rfl
  have h01 := h0.append h1
  have hclk1 : (v.setRover i { s.rover i with asked := some v.nt }).clk = v.clk := rfl
  generalize v.setRover i { s.rover i with asked := some v.nt } = w at *
  have hlease : w.lease i = s.lease i := by rw [Dev.lease, h01 .txu (by decide), ← Dev.lease]
  have hrx1 : (w.rover i).rx = 2 := by rw [hr1, if_pos rfl]; exact hrx
  have hwant : (w.withDemand [.recheck i]).wanted (.recheck i) = true := by
    show (decide ((w.rover i).rx = 2) && (decide ((w.lease i).st = .admitting) || decide ((w.lease i).st = .active) || decide ((w.lease i).st = .suspect))) = true
    rw [hrx1, hlease, hlive]
    rfl
  have hfit2 : w.unitsFit (Demand.recheck i).units = true := hfit1.trans hfit
  rw [Dev.demand_one hdem hwant, if_pos hfit2] at he
  have hall : Frame [.clk, .out, .snp] s.toDev (w.serve (.recheck i)) := (h01.append (frame_askSnap w i)).mono (by decide)
  have hr (j : Nat) : (w.serve (.recheck i)).rover j = if j = i then { s.rover i with wantSnap := true, asked := some v.nt } else s.rover j := by
    refine (Dev.rover_askSnap w i j).trans ?_
    rw [hr1, hr1, if_pos rfl]
    split <;> rfl
  have hnow : (w.serve (.recheck i)).nt = v.nt := by
    have hc : (w.serve (.recheck i)).clk = v.clk := (frame_askSnap w i .clk (by decide)).trans hclk1
    rw [Dev.nt, hc, ← Dev.nt]
  refine .of_effect hs hall he (by decide) (by decide) ⟨?_, fun j hj => (hr j).trans (if_neg hj), ?_, hall⟩
  · rw [hnow]
    exact (hr i).trans (if_pos rfl)
  · exact ((frame_askSnap w i .clk (by decide)).trans hclk1).trans hclk

/-! #### Submissions of the host (R139) -/

theorem frame_setSnapCmd_begin (s : Dev) (h : Nat) (c : Option SnapCmd) : Frame [.out, .hif, .snp] s ((s.begin.markStarted h).setSnapCmd h c) :=
  (frame_begin_markStarted s h).append (frame_setSnapCmd _ h c)

/-- What SNAP_SUBMIT judges of a submission before its records (R139). -/
structure Dev.SubmitOk (s : Dev) (l : Live) (mode n : Nat) : Prop where
  mode : l.p 8 1 = mode
  count : l.p 10 1 = n
  len : l.len = 1072 * n
  room : 48 * n ≤ l.p 24 4
  free : s.snp.cmds.length < 4

/-- The submission as it stands before its first snapshot. -/
def Dev.submission (s : Dev) (h mode n : Nat) (l : Live) : SnapCmd :=
  { handle := h, mode, robot := l.p 9 1, count := n, tStart := if l.pNt 0 = 0 then nextSlotframe s.nt else l.pNt 0 }

/-- The records of a submission: the first bad one refuses it, and else each is demanded (R139). -/
def Dev.submits (s : Dev) (h n : Nat) (c : SnapCmd) (b : List Byte) : Dev :=
  match (List.range n).findSome? fun k => (snapRecBad (slice b (1072 * k) 1072)).map fun o => 64 + 1072 * k + o with
  | some o => s.refuse h stBadDesc (some o)
  | none =>
    (List.range n).foldl (fun s k =>
      let x := hostSnap h k (slice b (1072 * k) 1072)
      let old := match s.tim.stepAt with | some a => ntAfter a x.t0 | none => false
      if old then s.snapEnds 4 x else s.demand (.snap x)) (s.setSnapCmd h (some { c with taken := n }))

theorem exec_snapSubmit_records {s : State} {h n : Nat} {l : Live} {b : List Byte} (hr : s.Runs h 0x28 l) (hok : s.SubmitOk l 1 n) :
    exec (.snapSubmit h (some b)) s = s.act fun _ => (s.begin.markStarted h).submits h n (s.submission h 1 n l) b := by
  obtain ⟨hm, hn, hlen, hroom, hfree⟩ := hok
  have hsub : (s.begin.markStarted h).submission h 1 n l = s.submission h 1 n l := rfl
  have hfree' : (s.begin.markStarted h).snp.cmds.length < 4 := hfree
  show execSnapSubmit h (some b) s = _
  unfold execSnapSubmit
  refine State.act_congr ((Dev.command_eq _ hr).trans ?_)
  generalize s.begin.markStarted h = d at *
  dsimp -zeta only
  rw [hm, hn, ← hsub]
  extract_lets mode _ _ _ live
  rw [if_neg (not_not_intro hlen), if_neg (Nat.not_lt.2 hroom), if_neg (by simp [mode]), if_neg (Nat.not_le.2 hfree'), if_neg (by simp [mode])]
  rfl

/-- Where no step of time has been taken, one record that is legal is demanded. -/
theorem Dev.submits_one {s : Dev} {h : Nat} {c : SnapCmd} {b : List Byte} (hrec : snapRecBad (slice b 0 1072) = none) (hstep : s.tim.stepAt = none) :
    s.submits h 1 c b = (s.setSnapCmd h (some { c with taken := 1 })).demand (.snap (hostSnap h 0 (slice b 0 1072))) := by
  have hok : ((List.range 1).findSome? fun k => (snapRecBad (slice b (1072 * k) 1072)).map fun o => 64 + 1072 * k + o) = none := by
    simp [hrec]
  have hstep' : (s.setSnapCmd h (some { c with taken := 1 })).tim.stepAt = none := hstep
  unfold Dev.submits
  rw [hok]
  generalize s.setSnapCmd h (some { c with taken := 1 }) = u at *
  show (if (match u.tim.stepAt with | some a => ntAfter a _ | none => false) = true then _ else _) = _
  cases hx : u.tim.stepAt with
  | none => rfl
  | some a => rw [hx] at hstep'; cases hstep'

theorem Completes.snapSubmit {s : State} {h : Nat} {l : Live} {b : List Byte} {x : Snap} (hs : s.Settled) (hr : s.Runs h 0x28 l) (hm : l.p 8 1 = 1)
    (hn : l.p 10 1 = 1) (hlen : l.len = 1072) (hroom : 48 ≤ l.p 24 4) (hfree : s.snp.cmds.length < 4) (hrec : snapRecBad (slice b 0 1072) = none)
    (hx : x = hostSnap h 0 (slice b 0 1072)) (hstep : s.tim.stepAt = none) (hb : s.snp.batches = []) (hd : s.snp.demand = [])
    (hfit : s.unitsFit x.units = true) :
    Completes (.snapSubmit h (some b)) s fun t => t.Begun l ∧ t.snp.cmds.getLast?.map (fun c => (c.handle, c.mode, c.count, c.taken)) = some (h, 1, 1, 1) ∧
        t.snp.batches = [{ id := s.snp.nextBatch, opened := s.nt, snaps := [x] }] ∧ Frame [.out, .hif, .snp] s.toDev t := by
  have he := exec_snapSubmit_records (b := b) hr (n := 1) ⟨hm, hn, hlen, hroom, hfree⟩
  have hstep' : (s.begin.markStarted h).tim.stepAt = none := hstep
  rw [Dev.submits_one hrec hstep', ← hx] at he
  clear hx hrec
  have hf := frame_setSnapCmd_begin s.toDev h (some { s.submission h 1 1 l with taken := 1 })
  have hbegun : ((s.begin.markStarted h).setSnapCmd h (some { s.submission h 1 1 l with taken := 1 })).Begun l := hr.begun
  have hcmds : ((s.begin.markStarted h).setSnapCmd h (some { s.submission h 1 1 l with taken := 1 })).snp.cmds.getLast?.map
      (fun c => (c.handle, c.mode, c.count, c.taken)) = some (h, 1, 1, 1) := by
    show (_ ++ [{ s.submission h 1 1 l with taken := 1 }]).getLast?.map _ = _
    rw [List.getLast?_concat]
    rfl
  have hnt : ((s.begin.markStarted h).setSnapCmd h (some { s.submission h 1 1 l with taken := 1 })).nt = s.nt := rfl
  have hnext : ((s.begin.markStarted h).setSnapCmd h (some { s.submission h 1 1 l with taken := 1 })).snp.nextBatch = s.snp.nextBatch := rfl
  have hfit' : ((s.begin.markStarted h).setSnapCmd h (some { s.submission h 1 1 l with taken := 1 })).unitsFit x.units = true :=
    (Dev.unitsFit_of_same rfl rfl rfl rfl).trans hfit
  have hd' : ((s.begin.markStarted h).setSnapCmd h (some { s.submission h 1 1 l with taken := 1 })).snp.demand = [] := hd
  have hb' : ((s.begin.markStarted h).setSnapCmd h (some { s.submission h 1 1 l with taken := 1 })).snp.batches = [] := hb
  generalize (s.begin.markStarted h).setSnapCmd h (some { s.submission h 1 1 l with taken := 1 }) = u at *
  rw [Dev.demand_snap hd' hb', if_pos hfit'] at he
  have hall : Frame [.out, .hif, .snp] s.toDev { u.askUnits x.units with snp := { (u.askUnits x.units).snp with
      batches := [{ id := u.snp.nextBatch, opened := u.nt, snaps := [x] }], nextBatch := u.snp.nextBatch + 1 } } :=
    ((hf.append (frame_askUnits u x.units)).append (frame_withSnp _ _)).mono (by decide)
  refine .of_effect hs hall he (by decide) (by decide) ⟨hbegun, hcmds, ?_, hall⟩
  rw [hnt, hnext]

theorem Completes.snapSubmit_bad {s : State} {h o : Nat} {l : Live} {b : List Byte} (hs : s.Settled) (hr : s.Runs h 0x28 l) (hm : l.p 8 1 = 1)
    (hn : l.p 10 1 = 1) (hlen : l.len = 1072) (hroom : 48 ≤ l.p 24 4) (hfree : s.snp.cmds.length < 4) (hrec : snapRecBad (slice b 0 1072) = some o) :
    Completes (.snapSubmit h (some b)) s fun t => t.Answered l stBadDesc (offsetRes (some (64 + o))) ∧ Frame [.out, .hif] s.toDev t := by
  have he := exec_snapSubmit_records (b := b) hr (n := 1) ⟨hm, hn, hlen, hroom, hfree⟩
  have hbad : ((List.range 1).findSome? fun k => (snapRecBad (slice b (1072 * k) 1072)).map fun o => 64 + 1072 * k + o) = some (64 + o) := by
    simp [hrec]
  unfold Dev.submits at he
  rw [hbad] at he
  have hf : Frame [.out, .hif] s.toDev ((s.begin.markStarted h).refuse h stBadDesc (some (64 + o))) :=
    (frame_begin_markStarted _ h).trans ((frame_refuse _ h _ _).mono (by decide))
  exact .of_effect hs hf he (by decide) (by decide) ⟨Dev.run_done _ _ hr, hf⟩

/-- A submission of the unit's own port waits for its start (R139). -/
theorem Completes.snapSubmit_port {s : State} {h n : Nat} {l : Live} {b : Option (List Byte)} (hs : s.Settled) (hr : s.Runs h 0x28 l)
    (hm : l.p 8 1 = 3) (hn : l.p 10 1 = n) (hlen : l.len = 1072 * n) (hroom : 48 * n ≤ l.p 24 4) (hfree : s.snp.cmds.length < 4)
    (hport : s.portRuns (portOf s.gns.refAnt 0) = true) :
    Completes (.snapSubmit h b) s fun t => t.Begun l ∧ t.snp.batches = s.snp.batches ∧ t.snp.cmds.getLast? = some {
          handle := h, mode := 3, robot := l.p 9 1, count := n, tStart := if l.pNt 0 = 0 then nextSlotframe s.nt else l.pNt 0 } ∧
        Frame [.out, .hif, .snp] s.toDev t := by
  have hf := frame_setSnapCmd_begin s.toDev h (some (s.submission h 3 n l))
  have hcmds : ((s.begin.markStarted h).setSnapCmd h (some (s.submission h 3 n l))).snp.cmds.getLast? = some (s.submission h 3 n l) :=
    List.getLast?_concat
  have he : exec (.snapSubmit h b) s = s.act fun d => d.command h 0x28 _ := rfl
  refine .of_command he hs hr ?_ hf (by decide) (by decide) ⟨hr.begun, rfl, hcmds, hf⟩
  have hsub : (s.begin.markStarted h).submission h 3 n l = s.submission h 3 n l := rfl
  have hfree' : (s.begin.markStarted h).snp.cmds.length < 4 := hfree
  have hport' : (s.begin.markStarted h).portRuns (portOf (s.begin.markStarted h).gns.refAnt 0) = true := hport
  generalize s.begin.markStarted h = d at *
  rw [hm, hn, ← hsub]
  extract_lets mode _ _ _ live pidx
  rw [if_neg (not_not_intro hlen), if_neg (Nat.not_lt.2 hroom), if_neg (by simp [mode]), if_neg (Nat.not_le.2 hfree'), if_neg (by simp [pidx, hport'])]
  exact if_pos rfl

/-- The instant at which a submission of the own port takes its next snapshot (R139). -/
def SnapCmd.nextAt (c : SnapCmd) : NT := ntAdd c.tStart (msTicks (100 * c.taken))

theorem Dev.snapCmd_one {s : Dev} {c : SnapCmd} {h : Nat} (hc : s.snp.cmds = [c]) (hh : c.handle = h) : s.snapCmd h = some c := by
  unfold Dev.snapCmd
  rw [hc]
  simp [hh]

theorem Dev.cmds_setSnapCmd_one {s : Dev} {c : SnapCmd} {h : Nat} (hc : s.snp.cmds = [c]) (hh : c.handle = h) (x : Option SnapCmd) :
    (s.setSnapCmd h x).snp = { s.snp with cmds := x.toList } := by
  have : s.snp.cmds.filter (fun (y : SnapCmd) => y.handle != h) = [] := by
    rw [hc]
    simp [hh]
  unfold Dev.setSnapCmd
  dsimp only
  rw [this]
  rfl

theorem exec_hostLocalSnapshot {s : State} {h : Nat} {r : List Byte} {werr : Bool} {c : SnapCmd} (hc : s.snp.cmds = [c]) (hh : c.handle = h)
    (hm : c.mode = 3) (ht : c.taken < c.count) :
    exec (.hostLocalSnapshot h r werr) s = s.act fun _ =>
      if werr then ((s.tickTo c.nextAt).setSnapCmd h none).refuse h stDma none
      else
        (((s.tickTo c.nextAt).emit (.host h 0 (1072 * c.taken) ((s.tickTo c.nextAt).localSnap (.host h c.taken) r).record)).setSnapCmd h
          (some { c with taken := c.taken + 1 })).demand (.snap ((s.tickTo c.nextAt).localSnap (.host h c.taken) r)) := by
  show execHostLocalSnapshot h r werr s = _
  unfold execHostLocalSnapshot
  refine State.act_congr ?_
  rw [Dev.snapCmd_one hc hh]
  exact if_neg (by simp [hm, ht])

/-- A snapshot of the own port is written and batched at its instant (R139). -/
theorem Completes.hostLocalSnapshot {s : State} {h : Nat} {r : List Byte} {c : SnapCmd} {x : Snap} (hs : s.Settled) (hc : s.snp.cmds = [c])
    (hh : c.handle = h) (hm : c.mode = 3) (ht : c.taken < c.count) (hb : s.snp.batches = []) (hd : s.snp.demand = [])
    (hx : x = (s.tickTo (ntAdd c.tStart (msTicks (100 * c.taken)))).localSnap (.host h c.taken) r)
    (hfit : (s.tickTo (ntAdd c.tStart (msTicks (100 * c.taken)))).unitsFit x.units = true) :
    Completes (.hostLocalSnapshot h r false) s fun t => t.out = [.host h 0 (1072 * c.taken) x.record] ∧
        t.snp.cmds = [{ c with taken := c.taken + 1 }] ∧ t.snp.batches = [{ id := s.snp.nextBatch, opened := t.nt, snaps := [x] }] ∧
        t.clk = s.clk.run (s.clk.cyclesTo (ntAdd c.tStart (msTicks (100 * c.taken)))) ∧ Frame [.clk, .out, .snp] s.toDev t := by
  have he := exec_hostLocalSnapshot (r := r) (werr := false) hc hh hm ht
  rw [show ntAdd c.tStart (msTicks (100 * c.taken)) = c.nextAt from rfl] at *
  rw [if_neg (by decide)] at he
  have h0 := frame_tickTo s.toDev c.nextAt
  have hclk := Dev.tickTo_clk s.toDev c.nextAt
  have hout : (s.tickTo c.nextAt).out = [] := rfl
  generalize c.nextAt = a at *
  generalize s.tickTo a = u at *
  rw [← hx] at he
  clear hx
  have husnp : u.snp = s.snp := h0 .snp (by decide)
  have h1 : Frame [.clk, .out] s.toDev (u.emit (.host h 0 (1072 * c.taken) x.record)) := h0.trans ((frame_emit _ _).mono (by decide))
  have hout1 : (u.emit (.host h 0 (1072 * c.taken) x.record)).out = [.host h 0 (1072 * c.taken) x.record] := by
    show u.out ++ [_] = _
    rw [hout]
    rfl
  have hclk1 : (u.emit (.host h 0 (1072 * c.taken) x.record)).clk = u.clk := rfl
  have hsnp1 : (u.emit (.host h 0 (1072 * c.taken) x.record)).snp = s.snp := husnp
  generalize u.emit (.host h 0 (1072 * c.taken) x.record) = v at *
  have h2 := h1.append (frame_setSnapCmd v h (some { c with taken := c.taken + 1 }))
  have hsnp2 := Dev.cmds_setSnapCmd_one (s := v) (by rw [hsnp1]; exact hc) hh (some { c with taken := c.taken + 1 })
  have hout2 : (v.setSnapCmd h (some { c with taken := c.taken + 1 })).out = v.out := rfl
  have hclk2 : (v.setSnapCmd h (some { c with taken := c.taken + 1 })).clk = v.clk := rfl
  rw [hsnp1] at hsnp2
  generalize v.setSnapCmd h (some { c with taken := c.taken + 1 }) = w at *
  have hfit2 : w.unitsFit x.units = true := by
    rw [← hfit]
    exact Dev.unitsFit_of_same (hclk2.trans hclk1) (by rw [hsnp2, husnp]) (by rw [hsnp2, husnp]) (by rw [hsnp2, husnp])
  rw [Dev.demand_snap (by rw [hsnp2]; exact hd) (by rw [hsnp2]; exact hb), if_pos hfit2] at he
  have hall : Frame [.clk, .out, .snp] s.toDev { w.askUnits x.units with snp := { (w.askUnits x.units).snp with
      batches := [{ id := w.snp.nextBatch, opened := w.nt, snaps := [x] }], nextBatch := w.snp.nextBatch + 1 } } :=
    ((h2.append (frame_askUnits w x.units)).append (frame_withSnp _ _)).mono (by decide)
  refine .of_effect hs hall he (by decide) (by decide) ⟨hout2.trans hout1, ?_, ?_, (hclk2.trans hclk1).trans hclk, hall⟩
  · show w.snp.cmds = _
    rw [hsnp2]
    rfl
  · show [_] = [_]
    rw [hsnp2]
    rfl

theorem Completes.hostLocalSnapshot_fails {s : State} {h : Nat} {r : List Byte} {c : SnapCmd} {l : Live} (hs : s.Settled) (hc : s.snp.cmds = [c])
    (hh : c.handle = h) (hm : c.mode = 3) (ht : c.taken < c.count) (hw : s.Waits h l) :
    Completes (.hostLocalSnapshot h r true) s fun t => t.Answered l stDma (offsetRes none) ∧ t.snp = { s.snp with cmds := [] } ∧
        t.clk = s.clk.run (s.clk.cyclesTo (ntAdd c.tStart (msTicks (100 * c.taken)))) ∧ Frame [.clk, .out, .hif, .snp] s.toDev t := by
  have he := exec_hostLocalSnapshot (r := r) (werr := true) hc hh hm ht
  rw [show ntAdd c.tStart (msTicks (100 * c.taken)) = c.nextAt from rfl] at *
  rw [if_pos rfl] at he
  have h0 := frame_tickTo s.toDev c.nextAt
  have hclk := Dev.tickTo_clk s.toDev c.nextAt
  generalize c.nextAt = a at *
  generalize s.tickTo a = u at *
  have husnp : u.snp = s.snp := h0 .snp (by decide)
  have h1 := h0.append (frame_setSnapCmd u h none)
  have hsnp := Dev.cmds_setSnapCmd_one (s := u) (by rw [husnp]; exact hc) hh none
  have hclk1 : (u.setSnapCmd h none).clk = u.clk := rfl
  rw [husnp] at hsnp
  generalize u.setSnapCmd h none = v at *
  have hd := frame_refuse v h stDma none
  have hall : Frame [.clk, .out, .hif, .snp] s.toDev (v.refuse h stDma none) := (h1.append hd).mono (by decide)
  exact .of_effect hs hall he (by decide) (by decide)
    ⟨(hw.of_frame h1 (by decide) (Dev.reg_of_frame h1 (by decide) _)).done _ _, (hd .snp (by decide)).trans hsnp,
      ((hd .clk (by decide)).trans hclk1).trans hclk, hall⟩

end Sys2Proof.Machine

/-! ### The assembly of snapshots, and the closing of a batch (R128 to R130, R137) -/
namespace Sys2Proof.Machine

theorem Dev.robotOf_of_frame {s t : Dev} {a : List Area} (hf : Frame a s t) (h : .fuse ∉ a) (x : Nat) : t.robotOf x = s.robotOf x := by
  unfold Dev.robotOf Dev.nSlots
  rw [hf .fuse h]

theorem Dev.counts_of_frame {s t : Dev} {a : List Area} (hf : Frame a s t) (h : .txu ∉ a) (i e : Nat) : t.counts i e = s.counts i e := by
  unfold Dev.counts
  rw [hf .txu h]

/-- A waiting frame of a snapshot piece that counts for a robot is taken out and judged (R130). -/
theorem exec_snapshotPiece {s : State} {dt i : Nat} {m : RxItem} {b : List Byte} (hm : s.mac.inbox = [m]) (hq : m.q = 26)
    (hb : b = slice m.frame 22 (frLen m.frame)) (hok : pieceOk b = true) (hi : s.robotOf (frSrc m.frame) = some i)
    (hc : s.counts i (frEpoch m.frame) = true) :
    exec (.snapshotPiece dt) s = s.act fun _ => (s.itemTaken dt).takePiece i (frEpoch m.frame) b := by
  subst hb
  have hf := frame_itemTaken s.toDev dt
  have hi' : (s.itemTaken dt).robotOf (frSrc m.frame) = some i := (Dev.robotOf_of_frame hf (by decide) _).trans hi
  have hc' : (s.itemTaken dt).counts i (frEpoch m.frame) = true := (Dev.counts_of_frame hf (by decide) _ _).trans hc
  have htake : (s.tick dt).takeItem (fun x => x.q == 26) = some (m, s.itemTaken dt) := Dev.takeItem_one (s := s.tick dt) hm (by simp [hq])
  show execSnapshotPiece dt s = _
  unfold execSnapshotPiece
  refine State.act_congr ?_
  extract_lets u
  rw [htake]
  dsimp -zeta only
  extract_lets b
  rw [hi']
  dsimp only
  exact if_pos (by rw [hc']; exact hok)

/-- What is lost is counted, and source 0x4F raised (R141, R143). -/
theorem Dev.snpLost_spec (s : Dev) {f : Fld} (hw : f.2.1 + f.2.2 ≤ 32) :
    (s.snpLost f).todo = s.todo ++ [.fault 0x4F false] ∧ (s.snpLost f).fld f = satInc f.2.2 (s.fld f) ∧ RegsBut [f.1] s (s.snpLost f) ∧
      (s.snpLost f).clk = s.clk ∧ (s.snpLost f).snp = s.snp ∧ Frame [.regs, .todo] s (s.snpLost f) := by
  have h1 := frame_cntSat s f
  have hcount := s.fld_cntSat f hw
  have hregs := RegsBut.cntSat s f
  unfold Dev.snpLost
  generalize s.cntSat f = u at *
  have h2 := frame_raise u 0x4F
  have htodo : (u.raise 0x4F).todo = s.todo ++ [.fault 0x4F false] := by
    show u.todo ++ _ = _
    rw [h1 .todo (by decide)]
  exact ⟨htodo, hcount, hregs, h1 .clk (by decide), h1 .snp (by decide), h1.append h2⟩

/-- Where no assembly stands, an unrequested piece that finds no capacity is lost, and any other of the present time opens one (R130). -/
theorem Dev.takePiece_first {s : Dev} {i e : Nat} {b : List Byte} (ha : s.snp.asm_ = []) (hst : s.tim.stepAt = none) :
    s.takePiece i e b =
      if !bitAt (leAt b 0 1) 4 && !s.unitsFit (if bitAt (leAt b 0 1) 5 then 4 else 1) then s.snpLost snpSkipped
      else
        let u := if bitAt (leAt b 0 1) 4 then s else s.askUnits (if bitAt (leAt b 0 1) 5 then 4 else 1)
        let a : SnapAsm := { slot := i, epoch := e, id := leAt b 2 1, t0 := expandNt s.nt (leAt b 4 6), cold := bitAt (leAt b 0 1) 5
                             requested := bitAt (leAt b 0 1) 4, first := u.nt, pieces := [(leAt b 1 1, b)] }
        u.setAsm a (some a) := by
  unfold Dev.takePiece
  extract_lets t0 id k req cold units stepped s1
  have hs1 : s1 = s := by
    show (s.snp.asm_.filter _).foldl Dev.asmOver s = s
    rw [ha]
    rfl
  have hno : stepped = false := by
    show (match s.tim.stepAt with | some a => ntAfter a t0 | none => false) = false
    rw [hst]
  clear_value s1
  subst hs1
  rw [ha, hno]
  rfl

/-- A device whose assemblies are those given. -/
def Dev.withAsm (s : Dev) (l : List SnapAsm) : Dev := { s with snp := { s.snp with asm_ := l } }

theorem Dev.setAsm_first {s : Dev} {a : SnapAsm} (h : s.snp.asm_ = []) : s.setAsm a (some a) = s.withAsm [a] := by
  unfold Dev.setAsm
  dsimp only
  rw [h]
  rfl

theorem Dev.setAsm_last {s : Dev} {a : SnapAsm} (h : s.snp.asm_ = [a]) : s.setAsm a none = s.withAsm [] := by
  unfold Dev.setAsm
  dsimp only
  rw [h]
  simp [Dev.withAsm]

/-- The last piece of the only assembly completes it (R130). -/
theorem Dev.takePiece_last {s : Dev} {i e : Nat} {b : List Byte} {a : SnapAsm} (ha : s.snp.asm_ = [a]) (hslot : a.slot = i) (hep : a.epoch = e)
    (hid : a.id = leAt b 2 1) (ht0 : a.t0 = expandNt s.nt (leAt b 4 6)) (hlen : a.pieces.length = 3) (hlate : a.late s.nt = false)
    (hnew : a.pieces.all (fun p => p.1 != leAt b 1 1) = true) :
    s.takePiece i e b = ((s.withAsm []).cntWrap (0x6020, 0, 16)).joinBatch (a.whole (a.pieces ++ [(leAt b 1 1, b)])) := by
  unfold Dev.takePiece
  extract_lets t0 id k req cold units stepped s1
  have hs1 : s1 = s := by
    show (s.snp.asm_.filter _).foldl Dev.asmOver s = s
    rw [ha]
    simp [hlate]
  have hfind : [a].find? (fun (x : SnapAsm) => x.slot == i && x.epoch == e && x.id == id && x.t0 == t0) = some a := by
    simp [hslot, hep, hid, ht0, id, t0]
  have hnone : a.pieces.find? (fun p => p.1 == k) = none := by
    rw [List.find?_eq_none]
    intro p hp
    simpa using List.all_eq_true.1 hnew p hp
  clear_value s1
  subst hs1
  rw [ha, hfind]
  dsimp -zeta only
  rw [hnone]
  dsimp -zeta only
  extract_lets pieces
  have hfour : pieces.length = 4 := by
    show (a.pieces ++ [_]).length = 4
    rw [List.length_append, hlen]
    rfl
  rw [if_neg (by omega), Dev.setAsm_last ha]

/-- The first piece of a requested snapshot opens its assembly (R130). -/
theorem Completes.snapshotPiece_requested {s : State} {dt i : Nat} {m : RxItem} {b : List Byte} (hs : s.Settled) (hm : s.mac.inbox = [m]) (hq : m.q = 26)
    (hb : b = slice m.frame 22 (frLen m.frame)) (hok : pieceOk b = true) (hi : s.robotOf (frSrc m.frame) = some i)
    (hc : s.counts i (frEpoch m.frame) = true) (ha : s.snp.asm_ = []) (hst : s.tim.stepAt = none) (hreq : bitAt (leAt b 0 1) 4 = true) :
    Completes (.snapshotPiece dt) s fun t => t.mac.inbox = [] ∧ t.snp = { s.snp with asm_ := [{
          slot := i, epoch := frEpoch m.frame, id := leAt b 2 1, t0 := expandNt t.nt (leAt b 4 6), cold := bitAt (leAt b 0 1) 5
          requested := true, first := t.nt, pieces := [(leAt b 1 1, b)] }] } ∧ t.clk = s.clk.run dt ∧ Frame [.clk, .out, .mac, .snp] s.toDev t := by
  have he := exec_snapshotPiece (dt := dt) hm hq hb hok hi hc
  clear hb hok
  have h0 := frame_itemTaken s.toDev dt
  have hin : (s.itemTaken dt).mac.inbox = [] := rfl
  have hclk : (s.itemTaken dt).clk = s.clk.run dt := Dev.tick_clk s.toDev dt
  generalize s.itemTaken dt = u at *
  have hsnp : u.snp = s.snp := h0 .snp (by decide)
  rw [Dev.takePiece_first (by rw [hsnp]; exact ha) (by rw [h0 .tim (by decide)]; exact hst), hreq, if_neg (by simp)] at he
  dsimp only at he
  rw [if_pos rfl] at he
  rw [Dev.setAsm_first (by rw [hsnp]; exact ha)] at he
  have hall := h0.append (frame_withSnp u { u.snp with asm_ := [{
    slot := i, epoch := frEpoch m.frame, id := leAt b 2 1, t0 := expandNt u.nt (leAt b 4 6), cold := bitAt (leAt b 0 1) 5
    requested := true, first := u.nt, pieces := [(leAt b 1 1, b)] }] })
  refine .of_effect hs hall he (by decide) (by decide) ⟨hin, ?_, hclk, hall⟩
  rw [← hsnp]
  rfl

/-- A piece not requested that finds no capacity is counted, with source 0x4F (R136, R141). -/
theorem CompletesThen.snapshotPiece_skipped {s : State} {dt i : Nat} {m : RxItem} {b : List Byte} (hm : s.mac.inbox = [m]) (hq : m.q = 26)
    (hb : b = slice m.frame 22 (frLen m.frame)) (hok : pieceOk b = true) (hi : s.robotOf (frSrc m.frame) = some i)
    (hc : s.counts i (frEpoch m.frame) = true) (ha : s.snp.asm_ = []) (hst : s.tim.stepAt = none) (hreq : bitAt (leAt b 0 1) 4 = false)
    (hfit : (s.tick dt).unitsFit (if bitAt (leAt b 0 1) 5 then 4 else 1) = false) :
    CompletesThen (.snapshotPiece dt) s fun d => d.mac.inbox = [] ∧ d.snp = s.snp ∧ d.todo = s.todo ++ [.fault 0x4F false] ∧
        d.fld (0x6020, 16, 16) = satInc 16 (s.fld (0x6020, 16, 16)) ∧ RegsBut [0x6020] s.toDev d ∧ Frame [.clk, .out, .mac, .regs, .todo] s.toDev d := by
  have he := exec_snapshotPiece (dt := dt) hm hq hb hok hi hc
  clear hb hok
  have h0 := frame_itemTaken s.toDev dt
  have hin : (s.itemTaken dt).mac.inbox = [] := rfl
  have hfit' : (s.itemTaken dt).unitsFit (if bitAt (leAt b 0 1) 5 then 4 else 1) = false := hfit
  generalize s.itemTaken dt = u at *
  have hsnp : u.snp = s.snp := h0 .snp (by decide)
  rw [Dev.takePiece_first (by rw [hsnp]; exact ha) (by rw [h0 .tim (by decide)]; exact hst), hreq, hfit', if_pos (by rfl)] at he
  obtain ⟨htodo, hcount, hregs, -, hsnp1, h1⟩ := u.snpLost_spec (f := snpSkipped) (by decide)
  generalize u.snpLost snpSkipped = v at *
  have hall := h0.append h1
  refine .of_effect he ⟨by rw [h1 .mac (by decide)]; exact hin, hsnp1.trans hsnp, by rw [htodo, h0 .todo (by decide)], ?_, ?_, hall⟩
  · exact hcount.trans (by rw [Dev.fld_of_frame h0 (by decide)]; rfl)
  · exact fun o ho => (hregs o ho).trans (Dev.reg_of_frame h0 (by decide) o)

/-- The last piece completes its snapshot, which is counted and put in a batch (R130, R137). -/
theorem Completes.snapshotPiece_last {s : State} {dt i : Nat} {m : RxItem} {b : List Byte} {a : SnapAsm} (hs : s.Settled) (hm : s.mac.inbox = [m])
    (hq : m.q = 26) (hb : b = slice m.frame 22 (frLen m.frame)) (hok : pieceOk b = true) (hi : s.robotOf (frSrc m.frame) = some i)
    (hc : s.counts i (frEpoch m.frame) = true) (ha : s.snp.asm_ = [a]) (hslot : a.slot = i) (hep : a.epoch = frEpoch m.frame) (hid : a.id = leAt b 2 1)
    (ht0 : a.t0 = expandNt (s.tick dt).nt (leAt b 4 6)) (hlen : a.pieces.length = 3) (hlate : a.late (s.tick dt).nt = false)
    (hnew : a.pieces.all (fun p => p.1 != leAt b 1 1) = true) (hbat : s.snp.batches = []) :
    Completes (.snapshotPiece dt) s fun t => t.mac.inbox = [] ∧ t.snp = { s.snp with
          asm_ := [], nextBatch := s.snp.nextBatch + 1, batches := [{ id := s.snp.nextBatch, opened := t.nt, snaps := [a.whole (a.pieces ++ [(leAt b 1 1, b)])] }] } ∧ t.fld (0x6020, 0, 16) = wrapInc 16 (s.fld (0x6020, 0, 16)) ∧
        RegsBut [0x6020] s.toDev t ∧ Frame [.clk, .out, .mac, .snp, .regs] s.toDev t := by
  have he := exec_snapshotPiece (dt := dt) hm hq hb hok hi hc
  clear hb hok
  have h0 := frame_itemTaken s.toDev dt
  have hin : (s.itemTaken dt).mac.inbox = [] := rfl
  have hnt : (s.tick dt).nt = (s.itemTaken dt).nt := rfl
  rw [hnt] at ht0 hlate
  generalize s.itemTaken dt = u at *
  have hsnp : u.snp = s.snp := h0 .snp (by decide)
  have hasm : u.snp.asm_ = [a] := by rw [hsnp]; exact ha
  rw [Dev.takePiece_last hasm hslot hep hid ht0 hlen hlate hnew] at he
  have h1 := h0.append (frame_withSnp u { u.snp with asm_ := [] })
  have hsnp1 : (u.withAsm []).snp = { s.snp with asm_ := [] } := by rw [← hsnp]; rfl
  have hin1 : (u.withAsm []).mac.inbox = [] := hin
  rw [show ({ u with snp := { u.snp with asm_ := [] } } : Dev) = u.withAsm [] from rfl] at h1
  generalize u.withAsm [] = v at *
  have h2 := frame_cntWrap v (0x6020, 0, 16)
  have hcount := Dev.fld_cntWrap v (0x6020, 0, 16) (by decide)
  have hregs : RegsBut [0x6020] v (v.cntWrap (0x6020, 0, 16)) := fun o ho => Dev.reg_setFld_ne _ _ _ _ (by simpa using ho)
  generalize v.cntWrap (0x6020, 0, 16) = w at *
  have hsnp2 : w.snp = { s.snp with asm_ := [] } := (h2 .snp (by decide)).trans hsnp1
  have h12 := h1.append h2
  rw [Dev.joinBatch_first _ (by rw [hsnp2]; exact hbat)] at he
  generalize a.whole (a.pieces ++ [(leAt b 1 1, b)]) = x at *
  have h3 := frame_withSnp w { w.snp with batches := [{ id := w.snp.nextBatch, opened := w.nt, snaps := [x] }], nextBatch := w.snp.nextBatch + 1 }
  have hall : Frame [.clk, .out, .mac, .snp, .regs] s.toDev { w with snp := { w.snp with
      batches := [{ id := w.snp.nextBatch, opened := w.nt, snaps := [x] }], nextBatch := w.snp.nextBatch + 1 } } := (h12.append h3).mono (by decide)
  refine .of_effect hs hall he (by decide) (by decide) ⟨?_, ?_, ?_, ?_, hall⟩
  · show w.mac.inbox = []
    rw [h2 .mac (by decide)]
    exact hin1
  · show ({ w.snp with batches := _, nextBatch := _ } : Snp) = _
    rw [hsnp2]
    rfl
  · exact hcount.trans (by rw [Dev.fld_of_frame h1 (by decide)])
  · exact fun o ho => (hregs o ho).trans (Dev.reg_of_frame h1 (by decide) o)

/-- An assembly not complete 1 s after its first piece is dropped and counted, with source 0x4F (R130, R141). -/
theorem CompletesThen.snapshotIncomplete {s : State} {a : SnapAsm} (ha : s.snp.asm_ = [a]) :
    CompletesThen .snapshotIncomplete s fun d => d.snp = { s.snp with asm_ := [] } ∧ d.todo = s.todo ++ [.fault 0x4F false] ∧
        d.fld (0x6024, 0, 16) = satInc 16 (s.fld (0x6024, 0, 16)) ∧ d.clk = s.clk.run (s.clk.cyclesTo (ntAdd a.first (tickHz : Nat))) ∧
        RegsBut [0x6024] s.toDev d ∧ Frame [.clk, .out, .snp, .regs, .todo] s.toDev d := by
  have he : exec .snapshotIncomplete s = s.act fun _ => (s.tickTo (ntAdd a.first (tickHz : Nat))).asmOver a := by
    show execSnapshotIncomplete s = _
    unfold execSnapshotIncomplete
    exact State.act_congr (by rw [ha]; rfl)
  generalize ntAdd a.first (tickHz : Nat) = e at *
  have h0 := frame_tickTo s.toDev e
  have hclk := Dev.tickTo_clk s.toDev e
  generalize s.tickTo e = u at *
  have hsnp : u.snp = s.snp := h0 .snp (by decide)
  unfold Dev.asmOver at he
  rw [Dev.setAsm_last (by rw [hsnp]; exact ha)] at he
  have h1 : Frame ([.clk, .out] ++ [.snp]) s.toDev (u.withAsm []) := h0.append (frame_withSnp u _)
  have hsnp1 : (u.withAsm []).snp = { s.snp with asm_ := [] } := by rw [← hsnp]; rfl
  have hclk1 : (u.withAsm []).clk = u.clk := rfl
  generalize u.withAsm [] = v at *
  obtain ⟨htodo, hcount, hregs, hc2, hsnp2, h2⟩ := v.snpLost_spec (f := (0x6024, 0, 16)) (by decide)
  generalize v.snpLost (0x6024, 0, 16) = w at *
  refine .of_effect he ⟨hsnp2.trans hsnp1, by rw [htodo, h1 .todo (by decide)], hcount.trans (by rw [Dev.fld_of_frame h1 (by decide)]),
    (hc2.trans hclk1).trans hclk, fun o ho => (hregs o ho).trans (Dev.reg_of_frame h1 (by decide) o), h1.append h2⟩

/-- A batch closes after BATCH_WAIT and asks leave (R137). -/
theorem Completes.batchClose {s : State} {b : Batch} (hs : s.Settled) (hb : s.snp.batches = [b]) (hc : b.closed = false) :
    Completes .batchClose s fun t => t.snp = { s.snp with batches := [{ b with closed := true }] } ∧ t.asksLeave (.snpBatch b.id) = true ∧
        t.gov.grants = s.gov.grants ∧ t.gov.reqs.dropLast = s.gov.reqs ∧
        t.gov.reqs.getLast?.map (fun r => (r.cls, r.mw, r.dur)) = some (1, 10 * s.fld (0x601C, 21, 11), msTicks (10 * b.units + 5)) ∧
        t.clk = s.clk.run (s.clk.cyclesTo (ntAdd b.opened (msTicks (s.fld (0x601C, 0, 8))))) ∧ Frame [.clk, .out, .snp, .gov] s.toDev t := by
  have he : exec .batchClose s = s.act fun _ => (s.tickTo (ntAdd b.opened (msTicks (s.fld (0x601C, 0, 8))))).closeBatch b := by
    show execBatchClose s = _
    unfold execBatchClose
    refine State.act_congr ?_
    have hfind : s.snp.batches.find? (fun (b : Batch) => !b.closed) = some b := by
      rw [hb]
      simp [hc]
    rw [hfind]
  generalize ntAdd b.opened (msTicks (s.fld (0x601C, 0, 8))) = e at *
  have h0 := frame_tickTo s.toDev e
  have hclk := Dev.tickTo_clk s.toDev e
  generalize s.tickTo e = u at *
  have hsnp : u.snp = s.snp := h0 .snp (by decide)
  have hgov : u.gov = s.gov := h0 .gov (by decide)
  have hfld := Dev.fld_of_frame h0 (by decide) (0x601C, 21, 11)
  have h1 := frame_closeBatch u b
  have hall : Frame [.clk, .out, .snp, .gov] s.toDev (u.closeBatch b) := h0.append h1
  refine .of_effect hs hall he (by decide) (by decide) ⟨?_, ?_, ?_, ?_, ?_, (h1 .clk (by decide)).trans hclk, hall⟩
  · show ({ u.snp with batches := mapWhere _ _ u.snp.batches } : Snp) = _
    rw [hsnp, hb]
    simp [mapWhere]
  · exact Dev.asksLeave_askLeave _ _ _ _ _ _
  · show u.gov.grants = _
    rw [hgov]
  · show (u.gov.reqs ++ [_]).dropLast = _
    rw [List.dropLast_concat, hgov]
  · show (u.gov.reqs ++ [_]).getLast?.map _ = _
    rw [List.getLast?_concat, ← hfld]
    rfl

end Sys2Proof.Machine

/-! ### Results of snapshots (R120, R131 to R134, R140) -/
namespace Sys2Proof.Machine

/-! #### What a search reads -/

section
variable {s t : Dev} (hf : Frame [.clk, .out, .snp, .gov] s t)
include hf

theorem Dev.gns_of_batches : t.gns = s.gns := hf .gns (by decide)

theorem Dev.siteOrigin_of_batches : t.siteOrigin = s.siteOrigin := by
  have hreg (o : Nat) : t.reg o = s.reg o := Dev.reg_of_frame hf (by decide) o
  have hflag : t.flag (0x7024, 0, 1) = s.flag (0x7024, 0, 1) := by rw [Dev.flag, Dev.fld_of_frame hf (by decide), ← Dev.flag]
  unfold Dev.siteOrigin
  rw [Dev.gns_of_batches hf, hflag]
  simp only [hreg]

theorem Dev.antPos_of_batches (a : Nat) : t.antPos a = s.antPos a := by
  unfold Dev.antPos
  rw [hf .gns (by decide)]

theorem Dev.areaCentre_of_batches (i : Nat) : t.areaCentre i = s.areaCentre i := by
  unfold Dev.areaCentre Dev.sitePoint
  rw [Dev.siteOrigin_of_batches hf, Dev.lease_of_frame hf (by decide), hf .trl (by decide)]

theorem Dev.frkSlot_of_batches (i : Nat) : t.frkSlot i = s.frkSlot i := by
  rw [Dev.frkSlot, hf .frk (by decide), ← Dev.frkSlot]

theorem Dev.aidOf_of_batches (x : Snap) : t.aidOf x = s.aidOf x := by
  unfold Dev.aidOf
  simp only [Dev.areaCentre_of_batches hf, Dev.frkSlot_of_batches hf, Dev.antPos_of_batches hf, Dev.gns_of_batches hf]

theorem Dev.search_of_batches (x : Snap) (l : List SnapSat) : t.search x l = s.search x l := by
  unfold Dev.search
  rw [Dev.aidOf_of_batches hf]

theorem Dev.coarse_of_batches (x : Snap) (l : List SnapHit) : t.coarse x l = s.coarse x l := by
  unfold Dev.coarse
  rw [Dev.aidOf_of_batches hf]

theorem Dev.overRes_of_batches : t.overRes = s.overRes := by
  funext ps
  unfold Dev.overRes
  rw [Dev.fld_of_frame hf (by decide)]

theorem Dev.obsNear_of_batches (i : Nat) (n : NT) : t.obsNear i n = s.obsNear i n := by
  unfold Dev.obsNear
  rw [Dev.frkSlot_of_batches hf]

theorem Dev.hasObs_of_batches (i : Nat) (n : NT) : t.hasObs i n = s.hasObs i n := by
  unfold Dev.hasObs
  rw [Dev.obsNear_of_batches hf]

theorem Dev.compare_of_batches (i : Nat) (n : NT) (l : List SnapHit) : t.compare i n l = s.compare i n l := by
  unfold Dev.compare
  simp only [Dev.obsNear_of_batches hf, Dev.overRes_of_batches hf, Dev.fld_of_frame hf (by decide)]

theorem Dev.snapVerdict_of_batches (m n : Nat) : t.snapVerdict m n = s.snapVerdict m n := by
  unfold Dev.snapVerdict
  simp only [Dev.fld_of_frame hf (by decide)]

theorem Dev.offChans_of_batches (l : List SnapHit) (c : List (Nat × Nat × Nat)) : t.offChans l c = s.offChans l c := by
  unfold Dev.offChans
  rw [Dev.overRes_of_batches hf]

end

/-! #### The last snapshot of a running batch -/

/-- The device when the last snapshot of its only batch is done: the batch and its leave are gone (R131, R137). -/
def Dev.batchSearched (s : Dev) (dt id : Nat) : Dev :=
  ({ s.tick dt with snp := { s.snp with batches := [] } } : Dev).returnLeave (.snpBatch id)

theorem exec_snapshotResult {s : State} {dt : Nat} {f : SnapFacts} {werr : Bool} {b : Batch} {x : Snap} (hb : s.snp.batches = [b])
    (hrun : b.running = true) (hx : b.snaps = [x]) :
    exec (.snapshotResult dt f werr) s = s.act fun _ => (s.batchSearched dt b.id).snapDone x f werr := by
  show execSnapshotResult dt f werr s = _
  unfold execSnapshotResult
  refine State.act_congr ?_
  have hsnp : (s.tick dt).snp = s.snp := rfl
  unfold Dev.batchSearched
  rw [← hsnp] at hb ⊢
  generalize s.tick dt = u at *
  have hfind : u.snp.batches.find? (fun (b : Batch) => b.running) = some b := by
    rw [hb]
    simp [hrun]
  dsimp only
  rw [hfind]
  dsimp only
  rw [hx]
  dsimp only
  have hl : u.snp.batches.filter (fun (y : Batch) => y.id != b.id) = [] := by
    rw [hb]
    simp
  show (({ u with snp := { u.snp with batches := u.snp.batches.filter fun (y : Batch) => y.id != b.id } } : Dev).returnLeave _).snapDone x f werr = _
  rw [hl]

theorem Dev.batchSearched_spec (s : Dev) (dt id : Nat) : Frame [.clk, .out, .snp, .gov] s (s.batchSearched dt id) ∧
    (s.batchSearched dt id).snp = { s.snp with batches := [] } ∧ (s.batchSearched dt id).hasLeave (.snpBatch id) = false := by
  have h0 := frame_tick s dt
  exact ⟨(h0.append ((frame_withSnp (s.tick dt) { s.snp with batches := [] }).append (frame_returnLeave _ _))).mono (by decide), rfl,
    Dev.hasLeave_returnLeave _ _⟩

/-- A local snapshot is judged by its multiple peaks and by its tracking channels (R120). -/
theorem Completes.snapshotResult_local {s : State} {dt : Nat} {f : SnapFacts} {werr : Bool} {b : Batch} {x : Snap} (hs : s.Settled)
    (hb : s.snp.batches = [b]) (hrun : b.running = true) (hx : b.snaps = [x]) (hsrc : x.src = .local_) :
    Completes (.snapshotResult dt f werr) s fun t => t.snp = { s.snp with
          batches := [], localPend := false
          localVerdict := if 2 ≤ ((s.search x f.sats).filter (·.multi)).length ∨ s.fld (0x6018, 12, 4) ≤ s.offChans (s.search x f.sats) f.chans
            then 2 else 0 } ∧ t.hasLeave (.snpBatch b.id) = false ∧ Frame [.clk, .out, .snp, .gov] s.toDev t := by
  have he := exec_snapshotResult (dt := dt) (f := f) (werr := werr) hb hrun hx
  obtain ⟨hf, hsnp, hleave⟩ := s.batchSearched_spec dt b.id
  have hsearch := Dev.search_of_batches hf x f.sats
  have hoff := Dev.offChans_of_batches hf (s.search x f.sats) f.chans
  have hfld := Dev.fld_of_frame hf (by decide) (0x6018, 12, 4)
  generalize s.batchSearched dt b.id = u at *
  unfold Dev.snapDone at he
  rw [hsrc] at he
  dsimp only at he
  rw [hsearch, hoff, hfld, hsnp] at he
  have hall : Frame [.clk, .out, .snp, .gov] s.toDev { u with snp := { s.snp with batches := [], localPend := false, localVerdict :=
      if (decide (2 ≤ ((s.search x f.sats).filter (·.multi)).length) || decide (s.fld (0x6018, 12, 4) ≤ s.offChans (s.search x f.sats) f.chans)) = true
      then 2 else 0 } } := hf.trans ((frame_withSnp u _).mono (by decide))
  refine .of_effect hs hall he (by decide) (by decide) ⟨?_, hleave, hall⟩
  simp only [Bool.or_eq_true, decide_eq_true_eq]

/-! #### The verdict on a robot (R132 to R134) -/

/-- What the verdict of a snapshot makes of a receiver that is not SUSPECT. -/
structure Dev.Judged (s : Dev) (i v nmis : Nat) (d : Dev) : Prop where
  frame : Frame [.snp, .todo, .hif, .out] s d
  batches : d.snp.batches = s.snp.batches
  verdict : (d.rover i).verdict = v
  at_ : (d.rover i).at_ = some s.nt
  rx : (d.rover i).rx = if v = 3 then (s.rover i).rx else v
  result : (d.rover i).result = (s.rover i).result
  others : ∀ j, j ≠ i → d.rover j = s.rover j
  mismatch : v = 2 → (d.rover i).asked = some s.nt ∧ .fault 0x4E false ∈ d.todo ∧ d.Told (s.evtCq 0x0601) 0x0601 (leBytes i 1 ++ leBytes nmis 1)

/-- A verdict that only changes the receiver's own entry. -/
theorem Dev.Judged.of_setRover {s : Dev} {i v nmis : Nat} {x : Rover} (hv : x.verdict = v) (ha : x.at_ = some s.nt)
    (hrx : x.rx = if v = 3 then (s.rover i).rx else v) (hr : x.result = (s.rover i).result) (h2 : v ≠ 2) :
    s.Judged i v nmis (s.setRover i x) := by
  have hself : (s.setRover i x).rover i = x := (Dev.rover_setRover s i i x).trans (if_pos rfl)
  exact ⟨(frame_setRover s i x).mono (by decide), rfl, by rw [hself]; exact hv, by rw [hself]; exact ha, by rw [hself]; exact hrx,
    by rw [hself]; exact hr, fun j hj => (Dev.rover_setRover s i j x).trans (if_neg hj), fun h => absurd h h2⟩

theorem Dev.judgeRover_spec {s : Dev} {i v nmis : Nat} (hrx : (s.rover i).rx ≠ 2) (hv : v = 1 ∨ v = 2 ∨ v = 3) (hroom : s.Room (s.evtCq 0x0601)) :
    s.Judged i v nmis (s.judgeRover i v nmis) := by
  obtain rfl | rfl | rfl := hv
  · have hd : s.judgeRover i 1 nmis = s.setRover i { s.rover i with verdict := 1, at_ := some s.nt, rx := 1 } := if_neg hrx
    rw [hd]
    exact .of_setRover rfl rfl rfl rfl (by decide)
  · have hd : s.judgeRover i 2 nmis = ((s.setRover i { s.rover i with verdict := 2, at_ := some s.nt, rx := 2, run := 0, asked := some s.nt }).raise
        0x4E).event 0x0601 (leBytes i 1 ++ leBytes nmis 1) := if_neg hrx
    rw [hd]
    obtain ⟨x, hx⟩ : ∃ x : Rover, x = { s.rover i with verdict := 2, at_ := some s.nt, rx := 2, run := 0, asked := some s.nt } := ⟨_, rfl⟩
    rw [← hx]
    have h1 := frame_setRover s i x
    have hself : (s.setRover i x).rover i = x := (Dev.rover_setRover s i i x).trans (if_pos rfl)
    have hother := fun j => Dev.rover_setRover s i j x
    have hbat : (s.setRover i x).snp.batches = s.snp.batches := rfl
    generalize s.setRover i x = u at *
    have h2 := frame_raise u 0x4E
    have htodo : .fault 0x4E false ∈ (u.raise 0x4E).todo := List.mem_append_right _ (List.mem_singleton.2 rfl)
    have h12 := h1.append h2
    obtain ⟨htold, h3⟩ := Dev.told_event (u := u.raise 0x4E) (leBytes i 1 ++ leBytes nmis 1) hroom (by decide) (h12 .hif (by decide))
      fun o _ _ => Dev.reg_of_frame h12 (by decide) o
    have h23 := h2.append h3
    have hrov (j : Nat) : ((u.raise 0x4E).event 0x0601 (leBytes i 1 ++ leBytes nmis 1)).rover j = u.rover j := Dev.rover_of_frame h23 (by decide) j
    refine ⟨(h1.append h23).mono (by decide), ?_, ?_, ?_, ?_, ?_, fun j hj => ((hrov j).trans (hother j)).trans (if_neg hj), fun _ => ⟨?_, ?_, htold⟩⟩
    · rw [h23 .snp (by decide)]
      exact hbat
    · rw [hrov, hself, hx]
    · rw [hrov, hself, hx]
    · rw [hrov, hself, hx]
      rfl
    · rw [hrov, hself, hx]
    · rw [hrov, hself, hx]
    · rw [h3 .todo (by decide)]
      exact htodo
  · exact .of_setRover rfl rfl rfl rfl (by decide)

theorem Dev.snapVerdict_cases (s : Dev) (m n : Nat) : s.snapVerdict m n = 1 ∨ s.snapVerdict m n = 2 ∨ s.snapVerdict m n = 3 := by
  unfold Dev.snapVerdict
  split
  · exact .inr (.inr rfl)
  · split
    · exact .inr (.inl rfl)
    · exact .inl rfl

/-- The snapshot of a robot whose own sets are at hand is judged by their comparison (R132, R133). -/
theorem Dev.snapDone_robot {s : Dev} {x : Snap} {f : SnapFacts} {werr : Bool} {i e ncmp nmis : Nat} (hsrc : x.src = .robot i e)
    (he : (s.lease i).epoch = e) (hobs : s.hasObs i x.t0 = true) (hcmp : s.compare i x.t0 (s.search x f.sats) = (ncmp, nmis)) :
    ∃ y : Rover, y.rx = (s.rover i).rx ∧ y.result = some (if 5 ≤ (hitsOf (s.search x f.sats)).length then 0 else 1) ∧
      s.snapDone x f werr = (s.setRover i y).judgeRover i ((s.setRover i y).snapVerdict ncmp nmis) nmis := by
  unfold Dev.snapDone
  extract_lets hits ndet enough fix
  rw [hsrc]
  refine ⟨if enough then { s.rover i with
      result := some (if !enough then 1 else if !true then 2 else 0)
      pos := some { t := ntAdd x.t0 (nsTicks fix.1), e := nearest (ecefToEnu s.siteOrigin (subPos fix.2.1 s.siteOrigin)).1 10
                    n := nearest (ecefToEnu s.siteOrigin (subPos fix.2.1 s.siteOrigin)).2.1 10
                    u := nearest (ecefToEnu s.siteOrigin (subPos fix.2.1 s.siteOrigin)).2.2 10, x := fix.2.1.1, y := fix.2.1.2.1, z := fix.2.1.2.2 } }
    else { s.rover i with result := some (if !enough then 1 else if !true then 2 else 0) }, ?_, ?_, ?_⟩
  · split <;> rfl
  · show _ = some (if 5 ≤ ndet then 0 else 1)
    by_cases h5 : 5 ≤ ndet
    · have hen : enough = true := decide_eq_true h5
      rw [hen, if_pos rfl, if_pos h5]
      rfl
    · have hen : enough = false := decide_eq_false h5
      rw [hen, if_neg (by decide), if_neg h5]
      rfl
  · dsimp -zeta only
    rw [if_neg (not_not_intro he), hcmp, hobs]
    rfl

/-- A mismatch makes a receiver SUSPECT; the verdict and the result are kept (R132 to R134). -/
theorem CompletesThen.snapshotResult_robot {s : State} {dt i e ncmp nmis v : Nat} {f : SnapFacts} {werr : Bool} {b : Batch} {x : Snap}
    (hb : s.snp.batches = [b]) (hrun : b.running = true) (hx : b.snaps = [x]) (hsrc : x.src = .robot i e) (hep : (s.lease i).epoch = e)
    (hobs : s.hasObs i x.t0 = true) (hcmp : s.compare i x.t0 (s.search x f.sats) = (ncmp, nmis)) (hv : v = s.snapVerdict ncmp nmis)
    (hrx : (s.rover i).rx ≠ 2) (hroom : s.Room (s.evtCq 0x0601)) :
    CompletesThen (.snapshotResult dt f werr) s fun d => (d.rover i).verdict = v ∧ (d.rover i).at_ = some d.nt ∧
        (d.rover i).rx = (if v = 3 then (s.rover i).rx else v) ∧
        (d.rover i).result = some (if 5 ≤ (hitsOf (s.search x f.sats)).length then 0 else 1) ∧
        (∀ j, j ≠ i → d.rover j = s.rover j) ∧ d.snp.batches = [] ∧ d.hasLeave (.snpBatch b.id) = false ∧
        (v = 2 → (d.rover i).asked = some d.nt ∧ .fault 0x4E false ∈ d.todo ∧ d.Told (s.evtCq 0x0601) 0x0601 (leBytes i 1 ++ leBytes nmis 1)) ∧ Frame [.clk, .out, .snp, .gov, .hif, .todo] s.toDev d := by
  have he := exec_snapshotResult (dt := dt) (f := f) (werr := werr) hb hrun hx
  obtain ⟨hf, hsnp, hleave⟩ := s.batchSearched_spec dt b.id
  have hsearch := Dev.search_of_batches hf x f.sats
  have hrov (j : Nat) : (s.batchSearched dt b.id).rover j = s.rover j := by rw [Dev.rover, hsnp]; rfl
  have hevt : (s.batchSearched dt b.id).evtCq 0x0601 = s.evtCq 0x0601 := Dev.fld_of_frame hf (by decide) _
  have hhif : (s.batchSearched dt b.id).hif = s.hif := hf .hif (by decide)
  have hroom' : (s.batchSearched dt b.id).Room ((s.batchSearched dt b.id).evtCq 0x0601) := by
    rw [hevt]
    exact hroom.of_same (Dev.reg_of_frame hf (by decide) _) (congrArg Hif.bme hhif) (congrArg Hif.cqs hhif) (congrArg Hif.live hhif)
  generalize s.batchSearched dt b.id = u at *
  obtain ⟨y, hyrx, hyres, hdone⟩ := Dev.snapDone_robot (s := u) (ncmp := ncmp) (nmis := nmis) (werr := werr) (f := f) hsrc (by rw [Dev.lease_of_frame hf (by decide)]; exact hep)
    (by rw [Dev.hasObs_of_batches hf]; exact hobs) (by rw [Dev.compare_of_batches hf, hsearch]; exact hcmp)
  rw [hdone] at he
  rw [hsearch] at hyres
  have hself : (u.setRover i y).rover i = y := (Dev.rover_setRover u i i y).trans (if_pos rfl)
  have hother (j : Nat) (hj : j ≠ i) : (u.setRover i y).rover j = s.rover j := ((Dev.rover_setRover u i j y).trans (if_neg hj)).trans (hrov j)
  have hleave1 : (u.setRover i y).hasLeave (.snpBatch b.id) = false := hleave
  have hbat1 : (u.setRover i y).snp.batches = [] := congrArg Snp.batches hsnp
  have hverd : (u.setRover i y).snapVerdict ncmp nmis = v := by
    rw [hv, ← Dev.snapVerdict_of_batches hf]
    rfl
  have hf1 : Frame [.clk, .out, .snp, .gov] s.toDev (u.setRover i y) := hf.trans ((frame_setRover u i y).mono (by decide))
  have hroom1 : (u.setRover i y).Room ((u.setRover i y).evtCq 0x0601) := hroom'
  have hevt1 : (u.setRover i y).evtCq 0x0601 = s.evtCq 0x0601 := hevt
  rw [hverd] at he
  generalize u.setRover i y = w at *
  have hcases : v = 1 ∨ v = 2 ∨ v = 3 := hv ▸ s.snapVerdict_cases ncmp nmis
  obtain ⟨hfj, hbj, hvj, haj, hrj, hresj, hoj, hmj⟩ := Dev.judgeRover_spec (s := w) (i := i) (nmis := nmis)
    (by rw [hself, hyrx, hrov]; exact hrx) hcases hroom1
  generalize w.judgeRover i v nmis = d at *
  have hnt : d.nt = w.nt := by rw [Dev.nt, hfj .clk (by decide), ← Dev.nt]
  refine .of_effect he ⟨hvj, by rw [hnt]; exact haj, ?_, ?_, fun j hj => (hoj j hj).trans (hother j hj), hbj.trans hbat1, ?_, ?_,
    (hf1.append hfj).mono (by decide)⟩
  · rw [hrj, hself, hyrx, hrov]
  · rw [hresj, hself, hyres]
  · rw [Dev.hasLeave, hfj .gov (by decide), ← Dev.hasLeave]
    exact hleave1
  · rw [hnt, ← hevt1]
    exact hmj

/-! #### Results of the host (R139, R140) -/

theorem Dev.snapDone_host {s : Dev} {x : Snap} {f : SnapFacts} {werr : Bool} {h n : Nat} {c : SnapCmd} (hsrc : x.src = .host h n)
    (hc : s.snp.cmds = [c]) (hh : c.handle = h) : ∃ y : SnapRes, s.snapDone x f werr = s.hostResult h n y werr ∧
      (c.mode = 1 → y = if 5 ≤ (hitsOf (s.search x f.sats)).length
          then { code := 0, ndet := (hitsOf (s.search x f.sats)).length, nmulti := ((s.search x f.sats).filter (·.multi)).length
                 dt := (s.coarse x (s.search x f.sats)).1, pos := (s.coarse x (s.search x f.sats)).2.1, herr := (s.coarse x (s.search x f.sats)).2.2 }
          else { code := 1, ndet := (hitsOf (s.search x f.sats)).length, nmulti := ((s.search x f.sats).filter (·.multi)).length }) := by
  unfold Dev.snapDone
  extract_lets hits ndet enough fix
  rw [hsrc]
  dsimp -zeta only
  rw [Dev.snapCmd_one hc hh]
  dsimp -zeta only
  extract_lets obs cmp code r
  refine ⟨_, rfl, fun hm => ?_⟩
  have hobs : obs = false := by
    show (decide (c.mode = 2) && _) = false
    rw [hm]
    rfl
  have hmode : (decide (c.mode = 2) && !obs) = false := by
    rw [hm]
    rfl
  have hcmp : cmp = (0, 0) := if_neg (by rw [hobs]; decide)
  have hr : r = { code := if enough then 0 else 1, ndet, nmulti := (hits.filter (·.multi)).length } := by
    show ({ code, verdict := if obs = true then s.snapVerdict cmp.1 cmp.2 else 0, ndet, ncmp := cmp.1, nmis := cmp.2
            nmulti := (hits.filter (·.multi)).length } : SnapRes) = _
    have hcode : code = if enough then 0 else 1 := by
      show (if !enough then 1 else if (decide (c.mode = 2) && !obs) = true then 2 else 0) = _
      rw [hmode]
      cases enough <;> rfl
    rw [hcode, hcmp, hobs]
    rfl
  clear_value r
  subst hr
  by_cases h5 : 5 ≤ ndet
  · have hen : enough = true := decide_eq_true h5
    rw [hen, if_pos rfl, if_pos rfl]
    exact (if_pos h5).symm
  · have hen : enough = false := decide_eq_false h5
    rw [hen, if_neg (by decide), if_neg (by decide)]
    exact (if_neg h5).symm

/-- The last result of a submission is written and told, and its command answered (R140). -/
theorem Completes.snapshotResult_host {s : State} {dt h n : Nat} {f : SnapFacts} {b : Batch} {x : Snap} {c : SnapCmd} {l : Live} {hits : List SnapHit}
    {p : Int × Vec3 × Nat} (hs : s.Settled) (hb : s.snp.batches = [b]) (hrun : b.running = true) (hx : b.snaps = [x]) (hsrc : x.src = .host h n)
    (hc : s.snp.cmds = [c]) (hh : c.handle = h) (hm : c.mode = 1) (hcount : c.results + 1 = c.count) (hno : c.noLeave = 0)
    (hhits : hits = s.search x f.sats) (hp : p = s.coarse x hits) (hw : s.Waits h l) (hroom : s.Room l.cq) :
    Completes (.snapshotResult dt f false) s fun t => t.Answered l stOK [] ∧ t.Progressed l 1 (leBytes n 1) ∧
        .host h 1 (48 * n) (SnapRes.bytes (if 5 ≤ (hitsOf hits).length
          then { code := 0, ndet := (hitsOf hits).length, nmulti := (hits.filter (·.multi)).length, dt := p.1, pos := p.2.1, herr := p.2.2 }
          else { code := 1, ndet := (hitsOf hits).length, nmulti := (hits.filter (·.multi)).length }) n) ∈ t.out ∧
        t.snp = { s.snp with batches := [], cmds := [] } ∧
        t.hasLeave (.snpBatch b.id) = false ∧ Frame [.clk, .out, .snp, .gov, .hif] s.toDev t := by
  have he := exec_snapshotResult (dt := dt) (f := f) (werr := false) hb hrun hx
  obtain ⟨hf, hsnp, hleave⟩ := s.batchSearched_spec dt b.id
  have hsearch := Dev.search_of_batches hf x f.sats
  have hcoarse := Dev.coarse_of_batches hf x (s.search x f.sats)
  generalize s.batchSearched dt b.id = u at *
  obtain ⟨y, hdone, hy⟩ := Dev.snapDone_host (s := u) (werr := false) (f := f) hsrc (by rw [hsnp]; exact hc) hh
  have hy := hy hm
  rw [hsearch, hcoarse, ← hhits, ← hp] at hy
  clear hhits hp hsearch hcoarse
  have hcode : y.code ≠ 3 := by
    rw [hy]
    split
    · exact Nat.zero_ne_add_one 2
    · exact (by decide : 1 ≠ 3)
  rw [← hy]
  clear hy
  rw [hdone] at he
  have he2 : u.hostResult h n y false = ((((u.emit (.host h 1 (48 * n) (y.bytes n))).progress h 1 (leBytes n 1)).setSnapCmd h none).done h stOK []) := by
    unfold Dev.hostResult
    rw [Dev.snapCmd_one (by rw [hsnp]; exact hc) hh]
    dsimp only
    rw [if_neg Bool.false_ne_true, if_pos hcount, if_neg (by rw [hno, decide_eq_false hcode]; show ¬ 0 = c.count; omega)]
  rw [he2] at he
  have h1 : Frame [.clk, .out, .snp, .gov] s.toDev (u.emit (.host h 1 (48 * n) (y.bytes n))) := hf.trans ((frame_emit _ _).mono (by decide))
  have hout1 : .host h 1 (48 * n) (y.bytes n) ∈ (u.emit (.host h 1 (48 * n) (y.bytes n))).out := List.mem_append_right _ (List.mem_singleton.2 rfl)
  have hsnp1 : (u.emit (.host h 1 (48 * n) (y.bytes n))).snp = u.snp := rfl
  have hgov1 : (u.emit (.host h 1 (48 * n) (y.bytes n))).gov = u.gov := rfl
  generalize Out.host h 1 (48 * n) (y.bytes n) = o at *
  generalize u.emit o = v at *
  have hwv := hw.of_frame h1 (by decide) (Dev.reg_of_frame h1 (by decide) _)
  have hhif : v.hif = s.hif := h1 .hif (by decide)
  have hroomv : v.Room l.cq := hroom.of_same (Dev.reg_of_frame h1 (by decide) _) (congrArg Hif.bme hhif) (congrArg Hif.cqs hhif) (congrArg Hif.live hhif)
  obtain ⟨hlive, horph, -⟩ := id hwv
  obtain ⟨hprog, -, h2⟩ := Dev.progress_room 1 (leBytes n 1) hlive horph hroomv
  have hout2 : o ∈ (v.progress h 1 (leBytes n 1)).out := by
    rw [Dev.progress_eq hlive horph hroomv]
    exact Dev.mem_out_cqWrite _ _ hout1
  have hw2 := hwv.progress hroomv 1 (leBytes n 1)
  generalize v.progress h 1 (leBytes n 1) = w at *
  have hsnp2 : w.snp = { s.snp with batches := [] } := (h2 .snp (by decide)).trans (hsnp1.trans hsnp)
  have h3 := frame_setSnapCmd w h none
  have hsnp3 := Dev.cmds_setSnapCmd_one (s := w) (by rw [hsnp2]; exact hc) hh none
  rw [hsnp2] at hsnp3
  have hw3 := hw2.of_frame h3 (by decide) (Dev.reg_of_frame h3 (by decide) _)
  have hprog3 : (w.setSnapCmd h none).Progressed l 1 (leBytes n 1) := hprog
  have hout3 : o ∈ (w.setSnapCmd h none).out := hout2
  generalize w.setSnapCmd h none = z at *
  have h4 := frame_done z h stOK []
  have hall : Frame [.clk, .out, .snp, .gov, .hif] s.toDev (z.done h stOK []) := (h1.append (h2.append (h3.append h4))).mono (by decide)
  refine .of_effect hs hall he (by decide) (by decide)
    ⟨hw3.done _ _, Dev.Progressed.done hprog3 h stOK [], Dev.mem_out_done _ _ _ hout3, (h4 .snp (by decide)).trans hsnp3, ?_, hall⟩
  rw [Dev.hasLeave, h4 .gov (by decide), h3 .gov (by decide), h2 .gov (by decide), hgov1, ← Dev.hasLeave]
  exact hleave

/-- A result that cannot be written ends its submission (R140). -/
theorem Completes.snapshotResult_hostFails {s : State} {dt h n : Nat} {f : SnapFacts} {b : Batch} {x : Snap} {c : SnapCmd} {l : Live} (hs : s.Settled)
    (hb : s.snp.batches = [b]) (hrun : b.running = true) (hx : b.snaps = [x]) (hsrc : x.src = .host h n) (hc : s.snp.cmds = [c]) (hh : c.handle = h)
    (hw : s.Waits h l) :
    Completes (.snapshotResult dt f true) s fun t => t.Answered l stDma (offsetRes none) ∧ t.snp = { s.snp with batches := [], cmds := [] } ∧
        t.hasLeave (.snpBatch b.id) = false ∧ Frame [.clk, .out, .snp, .gov, .hif] s.toDev t := by
  have he := exec_snapshotResult (dt := dt) (f := f) (werr := true) hb hrun hx
  obtain ⟨hf, hsnp, hleave⟩ := s.batchSearched_spec dt b.id
  generalize s.batchSearched dt b.id = u at *
  obtain ⟨y, hdone, -⟩ := Dev.snapDone_host (s := u) (werr := true) (f := f) hsrc (by rw [hsnp]; exact hc) hh
  rw [hdone] at he
  have he2 : u.hostResult h n y true = (u.setSnapCmd h none).refuse h stDma none := by
    unfold Dev.hostResult
    rw [Dev.snapCmd_one (by rw [hsnp]; exact hc) hh]
    exact if_pos rfl
  rw [he2] at he
  have h3 := frame_setSnapCmd u h none
  have hsnp3 := Dev.cmds_setSnapCmd_one (s := u) (by rw [hsnp]; exact hc) hh none
  rw [hsnp] at hsnp3
  have h13 := hf.append h3
  have hgov : (u.setSnapCmd h none).gov = u.gov := rfl
  generalize u.setSnapCmd h none = z at *
  have h4 := frame_refuse z h stDma none
  have hall : Frame [.clk, .out, .snp, .gov, .hif] s.toDev (z.refuse h stDma none) := (h13.append h4).mono (by decide)
  refine .of_effect hs hall he (by decide) (by decide)
    ⟨(hw.of_frame h13 (by decide) (Dev.reg_of_frame h13 (by decide) _)).done _ _, (h4 .snp (by decide)).trans hsnp3, ?_, hall⟩
  rw [Dev.hasLeave, h4 .gov (by decide), hgov, ← Dev.hasLeave]
  exact hleave

/-- Settles O58: each demand, piece, batch and result of a snapshot takes its own way. -/
theorem snapshotsAreAssembledBatchedAndJudged : Obligations.SnapshotsAreAssembledBatchedAndJudged :=
  ⟨fun _ _ _ => .localSnapshot, fun _ _ _ _ _ => .snapshotPiece_requested, fun _ _ _ _ _ => .snapshotPiece_skipped,
    fun _ _ _ _ _ _ => .snapshotPiece_last, fun _ _ => .snapshotIncomplete, fun _ _ => .batchClose, fun _ _ _ _ _ _ => .snapshotResult_local,
    fun _ _ _ _ _ _ _ _ _ _ _ => .snapshotResult_robot, fun _ _ _ _ _ _ _ _ _ _ _ => .snapshotResult_host,
    fun _ _ _ _ _ _ _ _ _ => .snapshotResult_hostFails, fun _ _ => .auditRequest, fun _ _ _ => .recheckRequest, fun _ _ _ _ _ => .snapSubmit,
    fun _ _ _ _ _ => .snapSubmit_bad, fun _ _ _ _ _ => .snapSubmit_port, fun _ _ _ _ _ => .hostLocalSnapshot,
    fun _ _ _ _ _ => .hostLocalSnapshot_fails⟩

end Sys2Proof.Machine

/-! ### Headers of downloads, and their verification (R477 to R480, R484, R493) -/
namespace Sys2Proof.Machine

theorem frame_putUpd (s : Dev) (u : Upd) : Frame [.upd] s (s.putUpd u) := fun p hp => by
  cases p <;> simp at hp <;> rfl

theorem frame_putFlash (s : Dev) (n : NvUpd) : Frame [.nv] s (s.putFlash n) := frame_withNv s _

theorem frame_setDownload (s : Dev) (d : Option FlashDl) : Frame [.nv] s (s.setDownload d) := frame_putFlash s _

/-- What a ring was told stays told when a command is answered. -/
theorem Dev.Told.done {s : Dev} {r code : Nat} {res : List Byte} (ht : s.Told r code res) (h c : Nat) (b : List Byte) :
    (s.done h c b).Told r code res := by
  obtain ⟨e, he, hkind, hcode, hres⟩ := ht
  exact ⟨e, Dev.mem_done he, hkind, hcode, hres⟩

/-- A command waits on when an event is told. -/
theorem Dev.Waits.event {s : Dev} {h : Nat} {l : Live} (hw : s.Waits h l) {code : Nat} (hroom : s.Room (s.evtCq code)) (res : List Byte) :
    (s.event code res).Waits h l := by
  obtain ⟨hl, ho, he, hh, hcq⟩ := hw
  have hf : Frame [.hif, .out] s (s.event code res) := by
    rw [Dev.event_room res hroom]
    exact frame_cqWrite _ _ _
  refine ⟨?_, ho, ?_, ?_, hcq⟩
  · rw [Dev.live?, Dev.event_room res hroom, Dev.live_cqWrite]
    exact hl
  · rw [Dev.flag, Dev.fld_of_frame hf (by decide), ← Dev.flag]
    exact he
  · rw [Dev.hold_event hroom]
    exact hh

/-! #### A header of the host -/

/-- A sound header of the host that is judged. -/
def Dev.headerJudged (s : Dev) (h : Nat) (x : ImgHdr) : HdrVerdict → Dev
  | .refused code res => (s.hdrRefused 1 code).done h code res
  | .joins => s.acceptHdr x none (some h) .joins
  | .fresh => s.acceptHdr x none (some h) .fresh

theorem exec_updHeader {s : State} {h : Nat} {b : List Byte} :
    ∃ k : Live → Dev → Dev, (exec (.updHeader h (some b)) s = s.act fun d => d.command h 0xB0 k) ∧
      (∀ l d, d.hdrBad b = none → k l d = d.headerJudged h (readHdr b) (d.hdrVerdict (readHdr b) (bitAt (l.p 0 1) 0))) ∧
      ∀ l d code o, d.hdrBad b = some (code, o) → k l d = (d.hdrRefused 1 code).done h code (if o.isSome then offsetRes o else []) := by
  refine ⟨_, rfl, fun l d hb => ?_, fun l d code o hb => ?_⟩
  · dsimp only
    rw [hb]
    dsimp only
    generalize d.hdrVerdict (readHdr b) (bitAt (l.p 0 1) 0) = v
    cases v <;> rfl
  · dsimp only
    rw [hb]
    cases o <;> rfl

/-- A header of the host waits for leave to be written. -/
def Dev.headerAsked (s : Dev) (x : ImgHdr) (h : Nat) : Dev :=
  (s.putUpd { s.upd with wait := some { hdr := x, air := none, handles := [h] } }).askLeave 5 250 tickHz (ntAdd s.nt ((60 * tickHz : Nat) : Int)) .flashHeader

theorem frame_headerAsked (s : Dev) (x : ImgHdr) (h : Nat) : Frame [.upd, .gov] s (s.headerAsked x h) := (frame_putUpd s _).append (frame_askLeave _ _ _ _ _ _)

theorem Dev.acceptHdr_fresh {s : Dev} {x : ImgHdr} {h : Nat} (hwait : s.upd.wait = none) : s.acceptHdr x none (some h) .fresh = s.headerAsked x h := by
  unfold Dev.acceptHdr
  rw [hwait]
  rfl

/-- A header that nothing stands in the way of waits for leave (R478, R480). -/
theorem Completes.updHeader_fresh {s : State} {h : Nat} {l : Live} {b : List Byte} (hs : s.Settled) (hr : s.Runs h 0xB0 l)
    (hbad : s.hdrBad b = none) (hwait : s.upd.wait = none) (hdl : s.download = none) (htrial : (s.sel (leAt b 5 1)).trial = false) :
    Completes (.updHeader h (some b)) s fun t => t.Begun l ∧ t.upd = { s.upd with wait := some { hdr := readHdr b, air := none, handles := [h] } } ∧
        t.asksLeave .flashHeader = true ∧ t.gov.grants = s.gov.grants ∧ t.gov.reqs.dropLast = s.gov.reqs ∧
        t.gov.reqs.getLast?.map (fun r => (r.cls, r.mw, r.dur)) = some (5, 250, tickHz) ∧ Frame [.out, .hif, .upd, .gov] s.toDev t := by
  obtain ⟨k, he, hk, -⟩ := exec_updHeader (s := s) (h := h) (b := b)
  have hf0 := frame_begin_markStarted s.toDev h
  have hbegun := hr.begun
  have htrial' : (s.sel (readHdr b).sub).trial = false := htrial
  have hv : (s.begin.markStarted h).hdrVerdict (readHdr b) (bitAt (l.p 0 1) 0) = .fresh := by
    show s.hdrVerdict (readHdr b) (bitAt (l.p 0 1) 0) = .fresh
    unfold Dev.hdrVerdict
    dsimp only
    rw [hwait, hdl, if_neg (ne_true_of_eq_false htrial')]
    rfl
  have hbad' : (s.begin.markStarted h).hdrBad b = none := hbad
  have hk' := hk l (s.begin.markStarted h) hbad'
  rw [hv, Dev.headerJudged, Dev.acceptHdr_fresh (show (s.begin.markStarted h).upd.wait = none from hwait)] at hk'
  have h1 := frame_headerAsked (s.begin.markStarted h) (readHdr b) h
  have hall := (hf0.append h1).mono (d := [.out, .hif, .upd, .gov]) (by decide)
  refine .of_command he hs hr hk' hall (by decide) (by decide) ⟨Dev.begun_of_frame hbegun h1 (by decide), rfl, Dev.asksLeave_askLeave _ _ _ _ _ _, rfl, ?_, ?_, hall⟩
  · show (s.gov.reqs ++ [_]).dropLast = _
    rw [List.dropLast_concat]
  · show ((s.gov.reqs ++ [_]).getLast?).map _ = _
    rw [List.getLast?_concat]
    rfl

/-- A header of the download in progress joins it (R479). -/
theorem Completes.updHeader_joins {s : State} {h : Nat} {l : Live} {b : List Byte} {d : FlashDl} (hs : s.Settled) (hr : s.Runs h 0xB0 l)
    (hbad : s.hdrBad b = none) (hwait : s.upd.wait = none) (hdl : s.download = some d) (hsame : d.hdr.same (readHdr b) = true)
    (htrial : (s.sel (leAt b 5 1)).trial = false) :
    Completes (.updHeader h (some b)) s fun t => t.Answered l stOK [] ∧ t.upd = s.upd ∧ Frame [.out, .hif] s.toDev t := by
  obtain ⟨k, he, hk, -⟩ := exec_updHeader (s := s) (h := h) (b := b)
  have htrial' : (s.sel (readHdr b).sub).trial = false := htrial
  have hv : (s.begin.markStarted h).hdrVerdict (readHdr b) (bitAt (l.p 0 1) 0) = .joins := by
    show s.hdrVerdict (readHdr b) (bitAt (l.p 0 1) 0) = .joins
    unfold Dev.hdrVerdict
    dsimp only
    rw [hwait, hdl, if_neg (ne_true_of_eq_false htrial')]
    exact if_pos hsame
  have hbad' : (s.begin.markStarted h).hdrBad b = none := hbad
  have hnv : s.nv.upd.dl = some d := by
    unfold Dev.download at hdl
    split at hdl
    · cases hdl
    · exact hdl
  have hk' := hk l (s.begin.markStarted h) hbad'
  rw [hv, Dev.headerJudged] at hk'
  have hacc : (s.begin.markStarted h).acceptHdr (readHdr b) none (some h) .joins = (s.begin.markStarted h).done h stOK [] := by
    have hstay : (s.begin.markStarted h).setDownload (s.nv.upd.dl.map fun (x : FlashDl) => { x with air := (none : Option Nat).or x.air }) = s.begin.markStarted h := by
      rw [hnv]
      show (s.begin.markStarted h).setDownload (some d) = _
      rw [← hnv]
      rfl
    have hupd : (s.begin.markStarted h).upd.wait = none := hwait
    unfold Dev.acceptHdr
    rw [hupd]
    exact congrArg (fun x : Dev => x.done h stOK []) hstay
  have hall := ((frame_begin_markStarted s.toDev h).append (frame_done (s.begin.markStarted h) h stOK [])).mono (d := [.out, .hif]) (by decide)
  exact .of_command he hs hr (hk'.trans hacc) hall (by decide) (by decide) ⟨Dev.run_done _ _ hr, hall .upd (by decide), hall⟩

/-- A header that is refused is answered with its code, and event 0x1402 tells it. -/
theorem Completes.updHeader_refused {s : State} {h code : Nat} {res : List Byte} {l : Live} {b : List Byte} (hs : s.Settled) (hr : s.Runs h 0xB0 l)
    (hroom : s.Room (s.evtCq 0x1402)) {k : Live → Dev → Dev} (he : exec (.updHeader h (some b)) s = s.act fun d => d.command h 0xB0 k)
    (hk : k l (s.begin.markStarted h) = ((s.begin.markStarted h).hdrRefused 1 code).done h code res) :
    Completes (.updHeader h (some b)) s fun t => t.Answered l code res ∧ t.Told (s.evtCq 0x1402) 0x1402 ([1, 0] ++ leBytes code 2) ∧
        Frame [.out, .hif] s.toDev t := by
  have hroom' : (s.begin.markStarted h).Room ((s.begin.markStarted h).evtCq 0x1402) := hroom.markStarted h
  have hf0 := frame_begin_markStarted s.toDev h
  have hw := (hr.waits).event hroom' (leBytes 1 1 ++ [0] ++ leBytes code 2)
  obtain ⟨htold, h1⟩ := Dev.told_event (u := s.begin.markStarted h) (leBytes 1 1 ++ [0] ++ leBytes code 2) hroom' (by decide) rfl fun _ _ _ => rfl
  have hk' : k l (s.begin.markStarted h) = ((s.begin.markStarted h).event 0x1402 (leBytes 1 1 ++ [0] ++ leBytes code 2)).done h code res := hk
  generalize (s.begin.markStarted h).event 0x1402 (leBytes 1 1 ++ [0] ++ leBytes code 2) = u at *
  have hall := ((hf0.append h1).append (frame_done u h code res)).mono (d := [.out, .hif]) (by decide)
  exact .of_command he hs hr hk' hall (by decide) (by decide) ⟨hw.done code res, Dev.Told.done htold h code res, hall⟩

/-- A header that breaks a rule is refused (R478). -/
theorem Completes.updHeader_bad {s : State} {h code : Nat} {o : Option Nat} {l : Live} {b : List Byte} (hs : s.Settled) (hr : s.Runs h 0xB0 l)
    (hbad : s.hdrBad b = some (code, o)) (hroom : s.Room (s.evtCq 0x1402)) :
    Completes (.updHeader h (some b)) s fun t => t.Answered l code (if o.isSome then offsetRes o else []) ∧
        t.Told (s.evtCq 0x1402) 0x1402 ([1, 0] ++ leBytes code 2) ∧ Frame [.out, .hif] s.toDev t := by
  obtain ⟨k, he, -, hk⟩ := exec_updHeader (s := s) (h := h) (b := b)
  have hbad' : (s.begin.markStarted h).hdrBad b = some (code, o) := hbad
  have hk' := hk l (s.begin.markStarted h) code o hbad'
  exact .updHeader_refused hs hr hroom he hk'

/-- A header that another stands in the way of is refused (R479). -/
theorem Completes.updHeader_other {s : State} {h code : Nat} {res : List Byte} {l : Live} {b : List Byte} (hs : s.Settled) (hr : s.Runs h 0xB0 l)
    (hbad : s.hdrBad b = none) (hv : s.hdrVerdict (readHdr b) (bitAt (l.p 0 1) 0) = .refused code res) (hroom : s.Room (s.evtCq 0x1402)) :
    Completes (.updHeader h (some b)) s fun t => t.Answered l code res ∧ t.Told (s.evtCq 0x1402) 0x1402 ([1, 0] ++ leBytes code 2) ∧
        Frame [.out, .hif] s.toDev t := by
  obtain ⟨k, he, hk, -⟩ := exec_updHeader (s := s) (h := h) (b := b)
  have hbad' : (s.begin.markStarted h).hdrBad b = none := hbad
  have hv' : (s.begin.markStarted h).hdrVerdict (readHdr b) (bitAt (l.p 0 1) 0) = .refused code res := hv
  have hk' := hk l (s.begin.markStarted h) hbad'
  rw [hv'] at hk'
  exact .updHeader_refused hs hr hroom he hk'

/-! #### Verification -/

theorem Dev.download_begin_markStarted (s : Dev) (h : Nat) : (s.begin.markStarted h).download = s.download := rfl

theorem Completes.updPieces_none {s : State} {h : Nat} {l : Live} {x : Option (List Byte)} (hs : s.Settled) (hr : s.Runs h 0xB1 l) (hdl : s.download = none) :
    Completes (.updPieces h x) s fun t => t.Answered l stNoDownload [] ∧ Frame [.out, .hif] s.toDev t := by
  have he : ∃ k : Live → Dev → Dev, (exec (.updPieces h x) s = s.act fun d => d.command h 0xB1 k) ∧
      k l (s.begin.markStarted h) = (s.begin.markStarted h).done h stNoDownload [] := by
    refine ⟨_, rfl, ?_⟩
    dsimp only
    rw [Dev.download_begin_markStarted, hdl]
  obtain ⟨k, he, hk⟩ := he
  have hall := ((frame_begin_markStarted s.toDev h).append (frame_done (s.begin.markStarted h) h stNoDownload [])).mono (d := [.out, .hif]) (by decide)
  exact .of_command he hs hr hk hall (by decide) (by decide) ⟨Dev.run_done _ _ hr, hall⟩

theorem exec_updVerify {s : State} {h : Nat} {l : Live} {d : FlashDl} (hv : s.upd.verify = none) (hdl : s.download = some d) :
    ∃ k : Live → Dev → Dev, (exec (.updVerify h) s = s.act fun d => d.command h 0xB2 k) ∧ k l (s.begin.markStarted h) =
      if d.hdr.sub ≠ l.p 0 1 then (s.begin.markStarted h).done h stNoDownload []
      else if d.complete = false then (s.begin.markStarted h).done h stIncomplete []
      else (s.begin.markStarted h).putUpd { s.upd with verify := some h } := by
  refine ⟨_, rfl, ?_⟩
  have hv' : (s.begin.markStarted h).upd.verify = none := hv
  dsimp only
  rw [Dev.download_begin_markStarted, hdl, hv', if_neg (by decide)]
  dsimp only
  cases d.complete
  · rfl
  · rfl

/-- A complete download is verified (R484). -/
theorem Completes.updVerify {s : State} {h : Nat} {l : Live} {d : FlashDl} (hs : s.Settled) (hr : s.Runs h 0xB2 l) (hv : s.upd.verify = none)
    (hdl : s.download = some d) (hsub : d.hdr.sub = l.p 0 1) (hc : d.complete = true) :
    Completes (.updVerify h) s fun t => t.Begun l ∧ t.upd = { s.upd with verify := some h } ∧ Frame [.out, .hif, .upd] s.toDev t := by
  obtain ⟨k, he, hk⟩ := exec_updVerify (h := h) (l := l) hv hdl
  rw [if_neg (by simpa using hsub), if_neg (by simp [hc])] at hk
  have hall := ((frame_begin_markStarted s.toDev h).append (frame_putUpd (s.begin.markStarted h) { s.upd with verify := some h })).mono (d := [.out, .hif, .upd]) (by decide)
  exact .of_command he hs hr hk hall (by decide) (by decide) ⟨hr.begun, rfl, hall⟩

/-- One of another subsystem, or one that is not complete, is refused (R484). -/
theorem Completes.updVerify_refused {s : State} {h : Nat} {l : Live} {d : FlashDl} (hs : s.Settled) (hr : s.Runs h 0xB2 l) (hv : s.upd.verify = none)
    (hdl : s.download = some d) (hor : d.hdr.sub ≠ l.p 0 1 ∨ d.complete = false) :
    Completes (.updVerify h) s fun t => t.Answered l (if d.hdr.sub ≠ l.p 0 1 then stNoDownload else stIncomplete) [] ∧ Frame [.out, .hif] s.toDev t := by
  obtain ⟨k, he, hk⟩ := exec_updVerify (h := h) (l := l) hv hdl
  have hk' : k l (s.begin.markStarted h) = (s.begin.markStarted h).done h (if d.hdr.sub ≠ l.p 0 1 then stNoDownload else stIncomplete) [] := by
    by_cases hsub : d.hdr.sub ≠ l.p 0 1
    · rw [hk, if_pos hsub, if_pos hsub]
    · rw [hk, if_neg hsub, if_pos (hor.resolve_left hsub), if_neg hsub]
  have hall := ((frame_begin_markStarted s.toDev h).append (frame_done (s.begin.markStarted h) h (if d.hdr.sub ≠ l.p 0 1 then stNoDownload else stIncomplete) [])).mono (d := [.out, .hif]) (by decide)
  exact .of_command he hs hr hk' hall (by decide) (by decide) ⟨Dev.run_done _ _ hr, hall⟩

/-- What a download leaves when it ends and no verification runs: no pieces and no leave for a sector. -/
def Dev.noDownload (s : Dev) : Dev :=
  { s with
    gov := { s.gov with
      reqs := s.gov.reqs.filter fun r => !(match r.work with | .flashSector _ => true | _ => false)
      grants := s.gov.grants.filter fun g => !(match g.work with | .flashSector _ => true | _ => false) }
    upd := { s.upd with held := [], running := [], asm_ := [], verify := none } }

theorem Dev.dropDownload_none {s : Dev} (hv : s.upd.verify = none) : s.dropDownload = s.noDownload := by
  unfold Dev.dropDownload
  rw [hv]
  rfl

theorem frame_noDownload (s : Dev) : Frame [.upd, .gov] s s.noDownload := fun p hp => by
  cases p <;> simp at hp <;> rfl

theorem exec_verifyDone {s : State} {dt h : Nat} {ok : Bool} {d : FlashDl} (hv : s.upd.verify = some h) (hdl : s.download = some d) :
    exec (.verifyDone dt ok) s = s.act fun _ => if (ok && sha256 d.body == d.hdr.hash) = true
      then (((s.tick dt).putUpd { s.upd with verify := none }).setDownload (some { d with verified := true })).done h stOK []
      else ((((s.tick dt).putUpd { s.upd with verify := none }).noDownload).putUpd
        { s.upd with held := [], running := [], asm_ := [], verify := none, ended := true }).done h stImgHash [] := by
  show execVerifyDone dt ok s = _
  unfold execVerifyDone
  refine State.act_congr ?_
  have hupd : (s.tick dt).upd = s.upd := rfl
  have hdl' : (s.tick dt).download = some d := hdl
  generalize s.tick dt = u at *
  dsimp only
  rw [hdl', hupd, hv]
  dsimp only
  rw [Dev.dropDownload_none (s := u.putUpd { s.upd with verify := none }) rfl]
  rfl

/-- A body that has its hash is verified (R484). -/
theorem Completes.verifyDone {s : State} {dt h : Nat} {l : Live} {d : FlashDl} (hs : s.Settled) (hv : s.upd.verify = some h) (hdl : s.download = some d)
    (hhash : sha256 d.body = d.hdr.hash) (hw : s.Waits h l) :
    Completes (.verifyDone dt true) s fun t => t.Answered l stOK [] ∧ t.nv.upd.dl = some { d with verified := true } ∧ t.upd = { s.upd with verify := none } ∧
        Frame [.clk, .out, .hif, .upd, .nv] s.toDev t := by
  have he := exec_verifyDone (dt := dt) (ok := true) hv hdl
  rw [if_pos (by simpa using hhash)] at he
  have h1 := frame_putUpd (s.tick dt) { s.upd with verify := none }
  have h2 := frame_setDownload ((s.tick dt).putUpd { s.upd with verify := none }) (some { d with verified := true })
  have hf := ((frame_tick s.toDev dt).append h1).append h2
  have hw' := hw.of_frame hf (by decide) (Dev.reg_of_frame hf (by decide) _)
  have hdl' : (((s.tick dt).putUpd { s.upd with verify := none }).setDownload (some { d with verified := true })).nv.upd.dl = some { d with verified := true } := rfl
  have hupd : (((s.tick dt).putUpd { s.upd with verify := none }).setDownload (some { d with verified := true })).upd = { s.upd with verify := none } := rfl
  generalize ((s.tick dt).putUpd { s.upd with verify := none }).setDownload (some { d with verified := true }) = u at *
  have hd := frame_done u h stOK []
  have hall := (hf.append hd).mono (d := [.clk, .out, .hif, .upd, .nv]) (by decide)
  refine .of_effect hs hall he (by decide) (by decide) ⟨hw'.done _ _, ?_, (hd .upd (by decide)).trans hupd, hall⟩
  rw [show (u.done h stOK []).nv = u.nv from hd .nv (by decide)]
  exact hdl'

/-- One that has not, or that flash does not read back, ends its download (R484). -/
theorem Completes.verifyDone_fails {s : State} {dt h : Nat} {ok : Bool} {l : Live} {d : FlashDl} (hs : s.Settled) (hv : s.upd.verify = some h)
    (hdl : s.download = some d) (hor : ok = false ∨ sha256 d.body ≠ d.hdr.hash) (hw : s.Waits h l) :
    Completes (.verifyDone dt ok) s fun t => t.Answered l stImgHash [] ∧ t.download = none ∧ t.upd.verify = none ∧ t.nv = s.nv ∧
        Frame [.clk, .out, .hif, .upd, .gov] s.toDev t := by
  have he := exec_verifyDone (dt := dt) (ok := ok) hv hdl
  rw [if_neg (by
    intro hc
    obtain ⟨hok, hhash⟩ := (Bool.and_eq_true _ _).mp hc
    rcases hor with hor | hor
    · rw [hor] at hok
      cases hok
    · exact hor (eq_of_beq hhash))] at he
  have h1 := frame_putUpd (s.tick dt) { s.upd with verify := none }
  have h2 := frame_noDownload ((s.tick dt).putUpd { s.upd with verify := none })
  have h3 := frame_putUpd ((s.tick dt).putUpd { s.upd with verify := none }).noDownload { s.upd with held := [], running := [], asm_ := [], verify := none, ended := true }
  have hf := ((frame_tick s.toDev dt).append h1).append (h2.append h3)
  generalize hu : (((s.tick dt).putUpd { s.upd with verify := none }).noDownload).putUpd { s.upd with held := [], running := [], asm_ := [], verify := none, ended := true } = u at *
  have hupd : u.upd = { s.upd with held := [], running := [], asm_ := [], verify := none, ended := true } := by
    rw [← hu]
    rfl
  have hd := frame_done u h stImgHash []
  have hupd' : (u.done h stImgHash []).upd = u.upd := hd .upd (by decide)
  have hall := (hf.append hd).mono (d := [.clk, .out, .hif, .upd, .gov]) (by decide)
  refine .of_effect hs hall he (by decide) (by decide) ⟨(hw.of_frame hf (by decide) (Dev.reg_of_frame hf (by decide) _)).done _ _, ?_, ?_, hall .nv (by decide), hall⟩
  · rw [Dev.download, hupd', hupd]
    rfl
  · rw [hupd', hupd]

end Sys2Proof.Machine

/-! ### Downloads are written to flash (R480) -/
namespace Sys2Proof.Machine

theorem frame_setBank (s : Dev) (b k : Nat) (x : BankImg) : Frame [.nv] s (s.setBank b k x) := frame_putFlash s _

theorem Dev.bank_setBank (s : Dev) (b k : Nat) (x : BankImg) : (s.setBank b k x).bank b k = x := Tab.get_set_self _ _ _ _

theorem frame_draw (s : Dev) (w : Nat) : Frame [.free] s (s.draw w).2 := fun p hp => by
  cases p <;> simp at hp <;> rfl

/-- No leave of a sector outlives its download. -/
theorem Dev.hasLeave_noDownload {s : Dev} {w : Work} (h : s.hasLeave w = false) : s.noDownload.hasLeave w = false := by
  unfold Dev.hasLeave at h ⊢
  rw [List.any_eq_false] at h ⊢
  exact fun g hg => h g (List.mem_filter.1 hg).1

/-- The download has failed: what it held is gone, and source 0x27 is raised. -/
def Dev.downloadFailed (s : Dev) (x : ImgHdr) : Dev :=
  (s.noDownload.putUpd { s.noDownload.upd with failed := some x, ended := true }).raise 0x27

theorem Dev.failDownload_none {s : Dev} (hv : s.upd.verify = none) (x : ImgHdr) (flash : Nat) :
    s.failDownload x flash = (s.downloadFailed x).event 0x1405 (leBytes x.sub 1 ++ leBytes flash 1) := by
  unfold Dev.failDownload
  rw [Dev.dropDownload_none hv]
  rfl

theorem frame_downloadFailed (s : Dev) (x : ImgHdr) : Frame [.upd, .gov, .todo] s (s.downloadFailed x) :=
  ((frame_noDownload s).append ((frame_putUpd _ _).append (frame_raise _ 0x27))).mono (by decide)

theorem Dev.download_ended {s : Dev} (h : s.upd.ended = true) : s.download = none := if_pos h

/-! #### The header is stored -/

/-- The bank that does not run has lost what it held, and its header is written. -/
def Dev.headerWritten (s : Dev) (dt : Nat) (w : HdrWait) : Dev :=
  ((((s.tick dt).putUpd { s.upd with wait := none }).returnLeave .flashHeader).noDownload.setDownload none).setBank w.hdr.sub (1 - (s.sel w.hdr.sub).bank)
    { hdr := w.hdr, whole := false }

/-- The download begins. -/
def Dev.downloadBegun (s : Dev) (dt : Nat) (w : HdrWait) : Dev :=
  ((s.headerWritten dt w).setDownload (some { hdr := w.hdr, bank := 1 - (s.sel w.hdr.sub).bank, air := w.air })).putUpd
    { (s.headerWritten dt w).upd with failed := none, ended := false, lastPiece := (s.headerWritten dt w).up, needAt := (s.headerWritten dt w).up }

theorem frame_headerWritten (s : Dev) (dt : Nat) (w : HdrWait) : Frame [.clk, .out, .upd, .gov, .nv] s (s.headerWritten dt w) := by
  have h1 := (frame_tick s dt).append (frame_putUpd (s.tick dt) { s.upd with wait := none })
  have h2 := (frame_returnLeave ((s.tick dt).putUpd { s.upd with wait := none }) .flashHeader).append (frame_noDownload _)
  exact ((h1.append h2).append ((frame_setDownload _ none).append (frame_setBank _ _ _ _))).mono (by decide)

theorem Dev.headerWritten_spec (s : Dev) (dt : Nat) (w : HdrWait) : (s.headerWritten dt w).upd = { s.upd with
      wait := none, held := [], running := [], asm_ := [], verify := none } ∧
    (s.headerWritten dt w).bank w.hdr.sub (1 - (s.sel w.hdr.sub).bank) = { hdr := w.hdr, whole := false } ∧
    (s.headerWritten dt w).nv.upd.sels = s.nv.upd.sels ∧ (s.headerWritten dt w).hasLeave .flashHeader = false := by
  refine ⟨rfl, Dev.bank_setBank _ _ _ _, rfl, ?_⟩
  show ((((s.tick dt).putUpd { s.upd with wait := none }).returnLeave .flashHeader).noDownload).hasLeave .flashHeader = false
  exact Dev.hasLeave_noDownload (Dev.hasLeave_returnLeave _ _)

theorem exec_headerStored {s : State} {dt h : Nat} {ok : Bool} {w : HdrWait} (hwait : s.upd.wait = some w) (hg : w.granted = true) (hpfw : s.dry.pfw = false)
    (htrial : (s.sel w.hdr.sub).trial = false) (hv : s.upd.verify = none) (hh : w.handles = [h]) :
    exec (.headerStored dt ok) s = s.act fun _ => if ok then (s.downloadBegun dt w).done h stOK [] else
      (((s.headerWritten dt w).draw 16).2.failDownload w.hdr (1 - (s.sel w.hdr.sub).bank)).done h ((s.headerWritten dt w).draw 16).1 [] := by
  show execHeaderStored dt ok s = _
  unfold execHeaderStored
  refine State.act_congr ?_
  have hupd : (s.tick dt).upd = s.upd := rfl
  have hpfw' : (s.tick dt).dry.pfw = false := hpfw
  dsimp only
  rw [hupd, hwait]
  dsimp only
  rw [if_neg (by rw [hg, hpfw']; decide)]
  rw [if_neg (by exact ne_true_of_eq_false htrial), hh, Dev.dropDownload_none (show ((((s.tick dt).putUpd { s.upd with wait := none }).returnLeave .flashHeader)).upd.verify = none from hv)]
  cases ok
  · rfl
  · rfl

/-- A header that is stored begins its download in the bank that does not run, and answers its command. -/
theorem Completes.headerStored {s : State} {dt h : Nat} {l : Live} {w : HdrWait} (hs : s.Settled) (hwait : s.upd.wait = some w) (hg : w.granted = true)
    (hpfw : s.dry.pfw = false) (htrial : (s.sel w.hdr.sub).trial = false) (hv : s.upd.verify = none) (hh : w.handles = [h]) (hw : s.Waits h l) :
    Completes (.headerStored dt true) s fun t => t.Answered l stOK [] ∧ t.nv.upd.dl = some {
          hdr := w.hdr, bank := 1 - (s.sel w.hdr.sub).bank, air := w.air } ∧
        t.bank w.hdr.sub (1 - (s.sel w.hdr.sub).bank) = { hdr := w.hdr, whole := false } ∧
        t.nv.upd.sels = s.nv.upd.sels ∧ t.hasLeave .flashHeader = false ∧ t.upd.wait = none ∧ t.upd.held = [] ∧
        Frame [.clk, .out, .hif, .upd, .gov, .nv] s.toDev t := by
  have he := exec_headerStored (dt := dt) (ok := true) hwait hg hpfw htrial hv hh
  rw [if_pos rfl] at he
  obtain ⟨hupd, hbank, hsels, hleave⟩ := s.headerWritten_spec dt w
  have h0 := frame_headerWritten s.toDev dt w
  unfold Dev.downloadBegun at he
  generalize s.headerWritten dt w = u at *
  have h1 := frame_setDownload u (some { hdr := w.hdr, bank := 1 - (s.sel w.hdr.sub).bank, air := w.air })
  have hdl : (u.setDownload (some { hdr := w.hdr, bank := 1 - (s.sel w.hdr.sub).bank, air := w.air })).nv.upd.dl =
    some { hdr := w.hdr, bank := 1 - (s.sel w.hdr.sub).bank, air := w.air } := rfl
  have hbank1 : (u.setDownload (some { hdr := w.hdr, bank := 1 - (s.sel w.hdr.sub).bank, air := w.air })).bank w.hdr.sub (1 - (s.sel w.hdr.sub).bank) =
    { hdr := w.hdr, whole := false } := hbank
  have hsels1 : (u.setDownload (some { hdr := w.hdr, bank := 1 - (s.sel w.hdr.sub).bank, air := w.air })).nv.upd.sels = s.nv.upd.sels := hsels
  have hleave1 : (u.setDownload (some { hdr := w.hdr, bank := 1 - (s.sel w.hdr.sub).bank, air := w.air })).hasLeave .flashHeader = false := hleave
  generalize u.setDownload (some { hdr := w.hdr, bank := 1 - (s.sel w.hdr.sub).bank, air := w.air }) = v at *
  have h2 := frame_putUpd v { u.upd with failed := none, ended := false, lastPiece := u.up, needAt := u.up }
  have hupd2 : (v.putUpd { u.upd with failed := none, ended := false, lastPiece := u.up, needAt := u.up }).upd =
    { u.upd with failed := none, ended := false, lastPiece := u.up, needAt := u.up } := rfl
  generalize v.putUpd { u.upd with failed := none, ended := false, lastPiece := u.up, needAt := u.up } = x at *
  have hf := (h0.append h1).append h2
  have hd := frame_done x h stOK []
  have hnv : (x.done h stOK []).nv = v.nv := (hd .nv (by decide)).trans (h2 .nv (by decide))
  have hall : Frame [.clk, .out, .hif, .upd, .gov, .nv] s.toDev (x.done h stOK []) := (hf.append hd).mono (by decide)
  refine .of_effect hs hall he (by decide) (by decide)
    ⟨(hw.of_frame hf (by decide) (Dev.reg_of_frame hf (by decide) _)).done _ _, ?_, ?_, ?_, ?_, ?_, ?_, hall⟩
  · rw [hnv]
    exact hdl
  · rw [Dev.bank, hnv]
    exact hbank1
  · rw [hnv]
    exact hsels1
  · rw [Dev.hasLeave, hd .gov (by decide), h2 .gov (by decide)]
    exact hleave1
  · rw [show (x.done h stOK []).upd = x.upd from hd .upd (by decide), hupd2, hupd]
  · rw [show (x.done h stOK []).upd = x.upd from hd .upd (by decide), hupd2, hupd]

/-- What a failed download leaves when its failure is told. -/
theorem Dev.failDownload_spec {s u : Dev} {x : ImgHdr} {flash : Nat} (hroom : s.Room (s.evtCq 0x1405)) (hv : u.upd.verify = none) (hhif : u.hif = s.hif)
    (hreg : ∀ o, 0x2000 ≤ o → o < 0x3000 → u.reg o = s.reg o) : let t := u.failDownload x flash
    Frame [.upd, .gov, .todo, .hif, .out] u t ∧ t.upd = { u.upd with held := [], running := [], asm_ := [], verify := none, failed := some x, ended := true } ∧
      .fault 0x27 false ∈ t.todo ∧ t.Told (s.evtCq 0x1405) 0x1405 (leBytes x.sub 1 ++ leBytes flash 1) ∧ (∀ w, u.hasLeave w = false → t.hasLeave w = false) ∧
      ∀ h l, s.Waits h l → t.Waits h l := by
  rw [Dev.failDownload_none hv]
  have h1 := frame_downloadFailed u x
  have hupd : (u.downloadFailed x).upd = { u.upd with held := [], running := [], asm_ := [], verify := none, failed := some x, ended := true } := rfl
  have htodo : Todo.fault 0x27 false ∈ (u.downloadFailed x).todo := List.mem_append_right _ (List.mem_singleton.2 rfl)
  have hleave (w : Work) (hl : u.hasLeave w = false) : (u.downloadFailed x).hasLeave w = false := Dev.hasLeave_noDownload hl
  generalize u.downloadFailed x = v at *
  have hhif' : v.hif = s.hif := (h1 .hif (by decide)).trans hhif
  have hreg' (o : Nat) (ho : 0x2000 ≤ o) (ho' : o < 0x3000) : v.reg o = s.reg o := (Dev.reg_of_frame h1 (by decide) o).trans (hreg o ho ho')
  obtain ⟨htold, h2⟩ := Dev.told_event (leBytes x.sub 1 ++ leBytes flash 1) hroom (by decide) hhif' hreg'
  have hevt : v.evtCq 0x1405 = s.evtCq 0x1405 := Dev.fld_of_reg (hreg' _ (by decide) (by decide))
  have hring : s.evtCq 0x1405 < 32 := Dev.fld_lt s _
  have hroom' : v.Room (v.evtCq 0x1405) := by
    rw [hevt]
    exact hroom.of_same (hreg' _ (by simp only [cqEn]; omega) (by simp only [cqEn]; omega)) (congrArg Hif.bme hhif') (congrArg Hif.cqs hhif') (congrArg Hif.live hhif')
  refine ⟨(h1.append h2).mono (by decide), (h2 .upd (by decide)).trans hupd, ?_, htold, fun w hl => ?_, fun h l hw => ?_⟩
  · rw [show (v.event 0x1405 (leBytes x.sub 1 ++ leBytes flash 1)).todo = v.todo from h2 .todo (by decide)]
    exact htodo
  · rw [Dev.hasLeave, h2 .gov (by decide)]
    exact hleave w hl
  · have hwv : v.Waits h l := by
      obtain ⟨hl, ho, hen, hh, hcq⟩ := hw
      refine ⟨?_, ho, ?_, ?_, hcq⟩
      · rw [Dev.live?, hhif']
        exact hl
      · rw [Dev.flag, Dev.fld_of_reg (hreg' _ (by simp only [cqEn]; omega) (by simp only [cqEn]; omega)), ← Dev.flag]
        exact hen
      · rw [Dev.cq, hhif']
        exact hh
    exact hwv.event hroom' _

/-- One that flash does not take fails its download; the status is open (log entry 24). -/
theorem CompletesThen.headerStored_fails {s : State} {dt h : Nat} {l : Live} {w : HdrWait} (hwait : s.upd.wait = some w) (hg : w.granted = true)
    (hpfw : s.dry.pfw = false) (htrial : (s.sel w.hdr.sub).trial = false) (hv : s.upd.verify = none) (hh : w.handles = [h]) (hw : s.Waits h l)
    (hroom : s.Room (s.evtCq 0x1405)) :
    CompletesThen (.headerStored dt false) s fun d => d.live? h = none ∧ d.download = none ∧ d.upd.failed = some w.hdr ∧ d.upd.wait = none ∧
        d.hasLeave .flashHeader = false ∧ .fault 0x27 false ∈ d.todo ∧ d.free = s.free + 1 ∧
        d.Told (s.evtCq 0x1405) 0x1405 (leBytes w.hdr.sub 1 ++ leBytes (1 - (s.sel w.hdr.sub).bank) 1) ∧
        Frame [.clk, .out, .hif, .upd, .gov, .nv, .free, .todo] s.toDev d := by
  have he := exec_headerStored (dt := dt) (ok := false) hwait hg hpfw htrial hv hh
  rw [if_neg Bool.false_ne_true] at he
  obtain ⟨hupd, -, -, hleave⟩ := s.headerWritten_spec dt w
  have h0 := frame_headerWritten s.toDev dt w
  have hfree0 : (s.headerWritten dt w).free = s.free := rfl
  generalize s.headerWritten dt w = u at *
  have h1 := frame_draw u 16
  have hupd1 : (u.draw 16).2.upd = u.upd := rfl
  have hleave1 : (u.draw 16).2.hasLeave .flashHeader = false := hleave
  have hfree : (u.draw 16).2.free = u.free + 1 := rfl
  generalize hx : u.draw 16 = x at *
  obtain ⟨c, v⟩ := x
  dsimp only at *
  have hf := h0.append h1
  obtain ⟨h2, hupd2, htodo, htold, hleave2, hwaits⟩ := Dev.failDownload_spec (x := w.hdr) (flash := 1 - (s.sel w.hdr.sub).bank) hroom
    (u := v) (by rw [hupd1, hupd]) (hf .hif (by decide)) fun o _ _ => Dev.reg_of_frame hf (by decide) o
  have hw2 := hwaits h l hw
  have hleave3 := hleave2 _ hleave1
  generalize v.failDownload w.hdr (1 - (s.sel w.hdr.sub).bank) = y at *
  have hd := frame_done y h c []
  have hlh : l.handle = h := Dev.live?_handle hw.1
  have hupd3 : (y.done h c []).upd = y.upd := hd .upd (by decide)
  have hans := hw2.done c []
  refine .of_effect he ⟨?_, ?_, ?_, ?_, ?_, ?_, ?_, Dev.Told.done htold h c [], ((hf.append h2).append hd).mono (by decide)⟩
  · rw [← hlh]
    obtain ⟨hnone, -⟩ := hans
    rw [hlh] at hnone ⊢
    exact hnone
  · exact Dev.download_ended (by rw [hupd3, hupd2])
  · rw [hupd3, hupd2]
  · rw [hupd3, hupd2, hupd1, hupd]
  · rw [Dev.hasLeave, hd .gov (by decide)]
    exact hleave3
  · rw [show (y.done h c []).todo = y.todo from hd .todo (by decide)]
    exact htodo
  · rw [show (y.done h c []).free = y.free from hd .free (by decide), show y.free = v.free from h2 .free (by decide), hfree, hfree0]

/-! #### A sector is committed -/

/-- The download with a sector committed. -/
def FlashDl.committed (d : FlashDl) (n : Nat) (held : List (Nat × List Byte)) : FlashDl :=
  { d with sectors := d.sectors ++ [n]
           pieces := d.pieces ++ held.filter fun p => decide ((d.hdr.piecesOf n).1 ≤ p.1 ∧ p.1 < (d.hdr.piecesOf n).1 + (d.hdr.piecesOf n).2) }

/-- The held pieces of other sectors. -/
def ImgHdr.beyond (x : ImgHdr) (n : Nat) (held : List (Nat × List Byte)) : List (Nat × List Byte) :=
  held.filter fun p => !decide ((x.piecesOf n).1 ≤ p.1 ∧ p.1 < (x.piecesOf n).1 + (x.piecesOf n).2)

/-- The device with the leave of a sector returned. -/
def Dev.sectorEnded (s : Dev) (dt n : Nat) (rest : List Nat) : Dev := ((s.tick dt).putUpd { s.upd with running := rest }).returnLeave (.flashSector n)

theorem frame_sectorEnded (s : Dev) (dt n : Nat) (rest : List Nat) : Frame [.clk, .out, .upd, .gov] s (s.sectorEnded dt n rest) :=
  (((frame_tick s dt).append (frame_putUpd (s.tick dt) { s.upd with running := rest })).append (frame_returnLeave _ _)).mono (by decide)

theorem exec_sectorCommitDone {s : State} {dt fails n : Nat} {rest : List Nat} {d : FlashDl} (hr : s.upd.running = n :: rest) (hdl : s.download = some d)
    (hpfw : s.dry.pfw = false) :
    exec (.sectorCommitDone dt fails) s = s.act fun _ =>
      let u := if 0 < fails then (s.sectorEnded dt n rest).cntSat (0x1405C, 16, 16) else s.sectorEnded dt n rest
      if 2 ≤ fails then u.failDownload d.hdr d.bank
      else
        let v := (u.putUpd { u.upd with held := d.hdr.beyond n u.upd.held }).setDownload (some (d.committed n u.upd.held))
        if (d.committed n u.upd.held).complete then v.event 0x1401 (leBytes d.hdr.sub 1 ++ [0, 0, 0] ++ leBytes d.hdr.ver 4) else v := by
  show execSectorCommitDone dt fails s = _
  unfold execSectorCommitDone
  refine State.act_congr ?_
  have hupd : (s.tick dt).upd = s.upd := rfl
  have hdl' : (s.tick dt).download = some d := hdl
  have hpfw' : (s.tick dt).dry.pfw = false := hpfw
  dsimp only
  rw [hdl', hupd, hr]
  dsimp only
  rw [hpfw', if_neg Bool.false_ne_true]
  rfl

/-- The commit of the one sector a download wants completes it. -/
theorem Completes.sectorCommitDone {s : State} {dt : Nat} {d : FlashDl} (hs : s.Settled) (hr : s.upd.running = [0]) (hdl : s.download = some d)
    (hpfw : s.dry.pfw = false) (hsec : d.sectors = []) (hone : d.hdr.sectors = 1) (hroom : s.Room (s.evtCq 0x1401)) :
    Completes (.sectorCommitDone dt 0) s fun t => t.Told (s.evtCq 0x1401) 0x1401 (leBytes d.hdr.sub 1 ++ [0, 0, 0] ++ leBytes d.hdr.ver 4) ∧
        t.nv.upd.dl = some { d with
          sectors := [0], pieces := d.pieces ++ s.upd.held.filter fun p => decide ((d.hdr.piecesOf 0).1 ≤ p.1 ∧ p.1 < (d.hdr.piecesOf 0).1 + (d.hdr.piecesOf 0).2) } ∧
        t.upd.running = [] ∧ t.hasLeave (.flashSector 0) = false ∧ Frame [.clk, .out, .hif, .upd, .gov, .nv] s.toDev t := by
  have he := exec_sectorCommitDone (dt := dt) (fails := 0) hr hdl hpfw
  have hheld : (s.sectorEnded dt 0 []).upd = { s.upd with running := [] } := rfl
  have hcomp : (d.committed 0 s.upd.held).complete = true := by
    have hc : (d.committed 0 s.upd.held).sectors = [0] := by
      show d.sectors ++ [0] = [0]
      rw [hsec]
      rfl
    have hn : (d.committed 0 s.upd.held).hdr.sectors = 1 := hone
    unfold FlashDl.complete
    rw [hc, hn]
    rfl
  dsimp only at he
  rw [if_neg (Nat.lt_irrefl 0), if_neg (by decide), hheld, if_pos hcomp] at he
  have h0 := frame_sectorEnded s.toDev dt 0 []
  have hleave : (s.sectorEnded dt 0 []).hasLeave (.flashSector 0) = false := Dev.hasLeave_returnLeave _ _
  generalize s.sectorEnded dt 0 [] = u at *
  have h1 := frame_putUpd u { s.upd with running := [], held := d.hdr.beyond 0 s.upd.held }
  have hleave1 : (u.putUpd { s.upd with running := [], held := d.hdr.beyond 0 s.upd.held }).hasLeave (.flashSector 0) = false := hleave
  have hrun1 : (u.putUpd { s.upd with running := [], held := d.hdr.beyond 0 s.upd.held }).upd.running = [] := rfl
  generalize u.putUpd { s.upd with running := [], held := d.hdr.beyond 0 s.upd.held } = v at *
  have h2 := frame_setDownload v (some (d.committed 0 s.upd.held))
  have hdl2 : (v.setDownload (some (d.committed 0 s.upd.held))).nv.upd.dl = some (d.committed 0 s.upd.held) := rfl
  generalize v.setDownload (some (d.committed 0 s.upd.held)) = x at *
  have hf := (h0.append h1).append h2
  obtain ⟨htold, h3⟩ := Dev.told_event (leBytes d.hdr.sub 1 ++ [0, 0, 0] ++ leBytes d.hdr.ver 4) hroom (by decide) (hf .hif (by decide))
    fun o _ _ => Dev.reg_of_frame hf (by decide) o
  generalize x.event 0x1401 (leBytes d.hdr.sub 1 ++ [0, 0, 0] ++ leBytes d.hdr.ver 4) = y at *
  have hall : Frame [.clk, .out, .hif, .upd, .gov, .nv] s.toDev y := (hf.append h3).mono (by decide)
  refine .of_effect hs hall he (by decide) (by decide) ⟨htold, ?_, ?_, ?_, hall⟩
  · rw [show y.nv = x.nv from h3 .nv (by decide), hdl2, FlashDl.committed, hsec]
    rfl
  · rw [show y.upd = x.upd from h3 .upd (by decide), show x.upd = v.upd from h2 .upd (by decide)]
    exact hrun1
  · rw [Dev.hasLeave, h3 .gov (by decide), h2 .gov (by decide)]
    exact hleave1

/-- A second failure fails the download. -/
theorem CompletesThen.sectorCommitDone_fails {s : State} {dt n fails : Nat} {d : FlashDl} (hr : s.upd.running = [n]) (hdl : s.download = some d)
    (hpfw : s.dry.pfw = false) (hfails : 2 ≤ fails) (hv : s.upd.verify = none) (hroom : s.Room (s.evtCq 0x1405)) :
    CompletesThen (.sectorCommitDone dt fails) s fun d' => d'.Told (s.evtCq 0x1405) 0x1405 (leBytes d.hdr.sub 1 ++ leBytes d.bank 1) ∧ .fault 0x27 false ∈ d'.todo ∧
        d'.upd.failed = some d.hdr ∧ d'.download = none ∧ d'.upd.held = [] ∧ d'.fld (0x1405C, 16, 16) = satInc 16 (s.fld (0x1405C, 16, 16)) ∧
        Frame [.clk, .out, .hif, .upd, .gov, .regs, .todo] s.toDev d' := by
  have he := exec_sectorCommitDone (dt := dt) (fails := fails) hr hdl hpfw
  dsimp only at he
  rw [if_pos hfails, if_pos (Nat.lt_of_lt_of_le Nat.two_pos hfails)] at he
  have h0 := frame_sectorEnded s.toDev dt n []
  have hupd : (s.sectorEnded dt n []).upd = { s.upd with running := [] } := rfl
  generalize s.sectorEnded dt n [] = u at *
  have h1 := frame_cntSat u (0x1405C, 16, 16)
  have hbut := RegsBut.cntSat u (0x1405C, 16, 16)
  have hfld : (u.cntSat (0x1405C, 16, 16)).fld (0x1405C, 16, 16) = satInc 16 (s.fld (0x1405C, 16, 16)) := by
    rw [Dev.fld_cntSat u _ (by decide), Dev.fld_of_frame h0 (by decide)]
  have hupd1 : (u.cntSat (0x1405C, 16, 16)).upd = u.upd := h1 .upd (by decide)
  generalize u.cntSat (0x1405C, 16, 16) = v at *
  have hf := h0.append h1
  obtain ⟨h2, hupd2, htodo, htold, -, -⟩ := Dev.failDownload_spec (x := d.hdr) (flash := d.bank) hroom (u := v) (by rw [hupd1, hupd]; exact hv) (hf .hif (by decide))
    fun o _ ho => (hbut o (by simp; omega)).trans (Dev.reg_of_frame h0 (by decide) o)
  generalize v.failDownload d.hdr d.bank = y at *
  refine .of_effect he ⟨htold, htodo, by rw [hupd2], Dev.download_ended (by rw [hupd2]), by rw [hupd2], ?_, (hf.append h2).mono (by decide)⟩
  rw [Dev.fld_of_frame h2 (by decide)]
  exact hfld

end Sys2Proof.Machine

/-! ### Pieces of downloads, and what is still needed (R480 to R483) -/
namespace Sys2Proof.Machine

theorem slice_self (b : List Byte) : slice b 0 b.length = b := by
  simp [slice]

/-! #### One piece -/

/-- A new piece is held. -/
def Dev.pieceHeld (s : Dev) (idx : Nat) (b : List Byte) : Dev :=
  (s.putUpd { s.upd with held := s.upd.held ++ [(idx, b)], lastPiece := s.up }).cntWrap (0x14058, 0, 16)

/-- A piece that differs from the one held is counted. -/
def Dev.pieceConflicts (s : Dev) : Dev := (s.putUpd { s.upd with lastPiece := s.up }).cntSat (0x1405C, 0, 16)

theorem Dev.piece_new {s : Dev} {d : FlashDl} {tag idx crc : Nat} {b : List Byte} (hdl : s.download = some d) (htag : tag = d.hdr.tag) (hidx : idx < d.hdr.count)
    (hcrc : crc32c b = crc) (hnew : (s.upd.held ++ d.pieces).all (fun p => p.1 != idx) = true) : s.piece tag idx crc true b = (.new_, s.pieceHeld idx b) := by
  have hfind : (s.upd.held ++ d.pieces).find? (fun p => p.1 == idx) = none := by
    rw [List.find?_eq_none]
    intro p hp
    simpa using List.all_eq_true.1 hnew p hp
  have hheld : (s.putUpd { s.upd with lastPiece := s.up }).upd.held = s.upd.held := rfl
  unfold Dev.piece
  rw [hdl]
  dsimp only
  rw [if_neg (by simpa using htag), if_neg (by simp [hcrc, hidx]), hheld, hfind]
  rfl

theorem Dev.piece_conflict {s : Dev} {d : FlashDl} {tag idx crc : Nat} {b : List Byte} {p : Nat × List Byte} (hdl : s.download = some d) (htag : tag = d.hdr.tag)
    (hidx : idx < d.hdr.count) (hcrc : crc32c b = crc) (hheld : s.upd.held = [p]) (hp : p.1 = idx) (hne : p.2 ≠ b) :
    s.piece tag idx crc true b = (.conflict, s.pieceConflicts) := by
  have hfind : (s.upd.held ++ d.pieces).find? (fun p => p.1 == idx) = some p := by
    rw [hheld, List.singleton_append, List.find?_cons_of_pos (by simpa using hp)]
  have hheld' : (s.putUpd { s.upd with lastPiece := s.up }).upd.held = s.upd.held := rfl
  unfold Dev.piece
  rw [hdl]
  dsimp only
  rw [if_neg (by simpa using htag), if_neg (by simp [hcrc, hidx]), hheld', hfind]
  exact if_neg (by simpa using hne)

/-- One piece of several completes no sector. -/
theorem Dev.askSectors_one {s : Dev} {d : FlashDl} {p : Nat × List Byte} (hdl : s.download = some d) (hheld : s.upd.held = [p])
    (hk : 2 ≤ (d.hdr.piecesOf 0).2) (hsec : d.hdr.sectors ≤ 1) : s.askSectors = s := by
  have hfull : ((List.range (d.hdr.piecesOf 0).2).all fun j => s.upd.held.any fun q => q.1 == (d.hdr.piecesOf 0).1 + j) = false := by
    by_contra hc
    have hall := List.all_eq_true.1 (eq_true_of_ne_false hc)
    have h0 := hall 0 (List.mem_range.2 (by omega))
    have h1 := hall 1 (List.mem_range.2 (by omega))
    rw [hheld] at h0 h1
    simp only [List.any_cons, List.any_nil, Bool.or_false, beq_iff_eq] at h0 h1
    omega
  unfold Dev.askSectors
  rw [hdl]
  dsimp only
  obtain h0 | h1 : d.hdr.sectors = 0 ∨ d.hdr.sectors = 1 := by omega
  · rw [h0]
    rfl
  · rw [h1]
    show (if _ then s else _) = s
    exact if_pos (by simp only [hfull, Bool.not_false, Bool.or_true, Bool.true_or])

theorem Dev.pieceHeld_spec (s : Dev) (idx : Nat) (b : List Byte) : Frame [.upd, .regs] s (s.pieceHeld idx b) ∧ RegsBut [0x14058] s (s.pieceHeld idx b) ∧
    (s.pieceHeld idx b).fld (0x14058, 0, 16) = wrapInc 16 (s.fld (0x14058, 0, 16)) ∧
    (s.pieceHeld idx b).upd = { s.upd with held := s.upd.held ++ [(idx, b)], lastPiece := s.up } ∧ (s.pieceHeld idx b).download = s.download := by
  have h1 := frame_putUpd s { s.upd with held := s.upd.held ++ [(idx, b)], lastPiece := s.up }
  have h2 := frame_cntWrap (s.putUpd { s.upd with held := s.upd.held ++ [(idx, b)], lastPiece := s.up }) (0x14058, 0, 16)
  exact ⟨h1.append h2, (RegsBut.of_frame h1 (by decide)).trans (RegsBut.cntWrap _ (0x14058, 0, 16)), Dev.fld_cntWrap _ _ (by decide), rfl, rfl⟩

theorem Dev.pieceConflicts_spec (s : Dev) : Frame [.upd, .regs] s s.pieceConflicts ∧ RegsBut [0x1405C] s s.pieceConflicts ∧
    s.pieceConflicts.fld (0x1405C, 0, 16) = satInc 16 (s.fld (0x1405C, 0, 16)) ∧
    s.pieceConflicts.upd = { s.upd with lastPiece := s.up } ∧ s.pieceConflicts.download = s.download := by
  have h1 := frame_putUpd s { s.upd with lastPiece := s.up }
  have h2 := frame_cntSat (s.putUpd { s.upd with lastPiece := s.up }) (0x1405C, 0, 16)
  exact ⟨h1.append h2, (RegsBut.of_frame h1 (by decide)).trans (RegsBut.cntSat _ (0x1405C, 0, 16)), Dev.fld_cntSat _ _ (by decide), rfl, rfl⟩

/-! #### Pieces of the host -/

/-- The counts that answer a buffer of one record. -/
def pieceCounts (r : PieceRes) : List Byte :=
  leBytes ([r].filter (· == .new_)).length 2 ++ leBytes ([r].filter (· == .dup)).length 2 ++ leBytes ([r].filter (· == .bad)).length 2 ++
    leBytes ([r].filter (· == .stale)).length 2 ++ leBytes ([r].filter (· == .conflict)).length 2

theorem exec_updPieces_one {s : State} {h : Nat} {l : Live} {b : List Byte} {d : FlashDl} (hdl : s.download = some d) (hn : l.p 0 2 = 1)
    (hlen : l.len = 16 + d.hdr.psize) (hb : b.length = l.len) {r : PieceRes} {u : Dev} (hp : (s.begin.markStarted h).pieceRec b = (r, u)) :
    ∃ k : Live → Dev → Dev, (exec (.updPieces h (some b)) s = s.act fun d => d.command h 0xB1 k) ∧
      k l (s.begin.markStarted h) = u.askSectors.done h stOK (pieceCounts r) := by
  refine ⟨_, rfl, ?_⟩
  have hslice : slice (b.drop ((16 + d.hdr.psize) * 0)) 0 (16 + d.hdr.psize) = b := by
    rw [Nat.mul_zero, List.drop_zero, ← hlen, ← hb, slice_self]
  dsimp only
  rw [Dev.download_begin_markStarted, hdl]
  dsimp only
  rw [hn, if_neg (by rw [Nat.one_mul]; simpa using hlen), show List.range 1 = [0] from rfl, List.foldl_cons, List.foldl_nil, hslice, hp]
  rfl

/-- What one record of the host makes of a settled device. -/
theorem Completes.updPieces_one {s : State} {h : Nat} {l : Live} {b : List Byte} {d : FlashDl} (hs : s.Settled) (hr : s.Runs h 0xB1 l)
    (hdl : s.download = some d) (hn : l.p 0 2 = 1) (hlen : l.len = 16 + d.hdr.psize) (hb : b.length = l.len) {r : PieceRes} {u : Dev} {f : Fld} {n : Nat} {x : Upd}
    (hcq : f.1 < 0x2000 ∨ 0x3000 ≤ f.1) (hp : (s.begin.markStarted h).pieceRec b = (r, u)) (hf : Frame [.upd, .regs] (s.begin.markStarted h) u)
    (hbut : RegsBut [f.1] (s.begin.markStarted h) u) (hfld : u.fld f = n) (hupd : u.upd = x) (hask : u.askSectors = u) :
    Completes (.updPieces h (some b)) s fun t => t.Answered l stOK (pieceCounts r) ∧ t.upd = x ∧ t.fld f = n ∧ RegsBut [f.1] s.toDev t ∧
        Frame [.out, .hif, .upd, .regs] s.toDev t := by
  obtain ⟨k, he, hk⟩ := exec_updPieces_one (h := h) hdl hn hlen hb hp
  rw [hask] at hk
  have h0 := frame_begin_markStarted s.toDev h
  have hw : u.Waits h { l with started := true } := (hr.waits).of_frame hf (by decide) (hbut _ (by
    have := hr.2.2.2.2
    simp only [cqEn, List.mem_singleton]
    omega))
  have hd := frame_done u h stOK (pieceCounts r)
  have hall := ((h0.append hf).append hd).mono (d := [.out, .hif, .upd, .regs]) (by decide)
  exact .of_command he hs hr hk hall (by decide) (by decide) ⟨hw.done _ _, (hd .upd (by decide)).trans hupd, (Dev.fld_of_frame hd (by decide) f).trans hfld,
    ((RegsBut.of_frame h0 (by decide)).trans hbut).trans (.of_frame hd (by decide)), hall⟩

/-- A new piece of the host is held and counted (R482). -/
theorem Completes.updPieces_new {s : State} {h : Nat} {l : Live} {b : List Byte} {d : FlashDl} (hs : s.Settled) (hr : s.Runs h 0xB1 l)
    (hdl : s.download = some d) (hn : l.p 0 2 = 1) (hlen : l.len = 16 + d.hdr.psize) (hb : b.length = l.len) (htag : leAt b 8 4 = d.hdr.tag)
    (hidx : leAt b 0 4 < d.hdr.count) (hres : leAt b 12 4 = 0) (hcrc : crc32c (b.drop 16) = leAt b 4 4)
    (hnew : (s.upd.held ++ d.pieces).all (fun p => p.1 != leAt b 0 4) = true) (hk : 2 ≤ (d.hdr.piecesOf 0).2) (hheld : s.upd.held = [])
    (hsec : d.hdr.sectors ≤ 1) :
    Completes (.updPieces h (some b)) s fun t => t.Answered l stOK ([1, 0] ++ leBytes 0 8) ∧ t.upd = { s.upd with held := [(leAt b 0 4, b.drop 16)], lastPiece := s.up } ∧
        t.fld (0x14058, 0, 16) = wrapInc 16 (s.fld (0x14058, 0, 16)) ∧ RegsBut [0x14058] s.toDev t ∧ Frame [.out, .hif, .upd, .regs] s.toDev t := by
  have hp : (s.begin.markStarted h).pieceRec b = (.new_, (s.begin.markStarted h).pieceHeld (leAt b 0 4) (b.drop 16)) := by
    unfold Dev.pieceRec
    rw [hres]
    exact Dev.piece_new hdl htag hidx hcrc hnew
  obtain ⟨hf, hbut, hfld, hupd, hdl'⟩ := Dev.pieceHeld_spec (s.begin.markStarted h) (leAt b 0 4) (b.drop 16)
  have hupd' : ((s.begin.markStarted h).pieceHeld (leAt b 0 4) (b.drop 16)).upd = { s.upd with held := [(leAt b 0 4, b.drop 16)], lastPiece := s.up } := by
    rw [hupd, show (s.begin.markStarted h).upd = s.upd from rfl, hheld]
    rfl
  exact .updPieces_one hs hr hdl hn hlen hb (f := (0x14058, 0, 16)) (by decide) hp hf hbut hfld hupd'
    (Dev.askSectors_one (hdl'.trans hdl) (by rw [hupd']) hk hsec)

/-- One that differs from the piece held is counted as a conflict (R482). -/
theorem Completes.updPieces_conflict {s : State} {h : Nat} {l : Live} {b : List Byte} {d : FlashDl} {p : Nat × List Byte} (hs : s.Settled) (hr : s.Runs h 0xB1 l)
    (hdl : s.download = some d) (hn : l.p 0 2 = 1) (hlen : l.len = 16 + d.hdr.psize) (hb : b.length = l.len) (htag : leAt b 8 4 = d.hdr.tag)
    (hidx : leAt b 0 4 < d.hdr.count) (hres : leAt b 12 4 = 0) (hcrc : crc32c (b.drop 16) = leAt b 4 4)
    (hheld : s.upd.held = [p]) (hpi : p.1 = leAt b 0 4) (hne : p.2 ≠ b.drop 16) (hk : 2 ≤ (d.hdr.piecesOf 0).2) (hsec : d.hdr.sectors ≤ 1) :
    Completes (.updPieces h (some b)) s fun t => t.Answered l stOK (leBytes 0 8 ++ [1, 0]) ∧ t.upd = { s.upd with lastPiece := s.up } ∧
        t.fld (0x1405C, 0, 16) = satInc 16 (s.fld (0x1405C, 0, 16)) ∧ RegsBut [0x1405C] s.toDev t ∧ Frame [.out, .hif, .upd, .regs] s.toDev t := by
  have hp : (s.begin.markStarted h).pieceRec b = (.conflict, (s.begin.markStarted h).pieceConflicts) := by
    unfold Dev.pieceRec
    rw [hres]
    exact Dev.piece_conflict hdl htag hidx hcrc hheld hpi hne
  obtain ⟨hf, hbut, hfld, hupd, hdl'⟩ := Dev.pieceConflicts_spec (s.begin.markStarted h)
  exact .updPieces_one hs hr hdl hn hlen hb (f := (0x1405C, 0, 16)) (by decide) hp hf hbut hfld hupd
    (Dev.askSectors_one (hdl'.trans hdl) (by rw [hupd]; exact hheld) hk hsec)

/-! #### Cuttings of a gateway -/

theorem exec_cutting {s : State} {dt : Nat} {m : RxItem} {b : List Byte} (hin : s.mac.inbox = [m]) (hq : m.q = 27) (hgw : s.isGateway (frSrc m.frame) = true)
    (hb : b = slice m.frame 22 (frLen m.frame)) (hkind : leAt b 0 1 % 16 = 1) (hres : leAt b 1 3 = 0) (hn : 1 ≤ leAt b 14 2) (hn' : leAt b 14 2 ≤ 346)
    (hlen : b.length = 20 + leAt b 14 2) :
    exec (.cutting dt) s = s.act fun _ =>
      if leAt b 0 1 / 16 = 1 then (s.itemTaken dt).headerPart (frSrc m.frame) (leAt b 4 4) (leAt b 12 2) (b.drop 20)
      else if leAt b 0 1 / 16 = 2 then (s.itemTaken dt).piecePart (leAt b 4 4) (leAt b 8 4) (leAt b 12 2) (leAt b 16 4) (b.drop 20)
      else s.itemTaken dt := by
  show execCutting dt s = _
  unfold execCutting
  refine State.act_congr ?_
  dsimp only
  have htake : ((s.tick dt).takeItem fun (x : RxItem) => x.q == 27) = some (m, s.itemTaken dt) := Dev.takeItem_one (s := s.tick dt) hin (by simpa using hq)
  rw [htake]
  dsimp only
  rw [show slice (m.frame.drop 22) 0 (frLen m.frame) = b from hb.symm]
  have hgw' : (s.itemTaken dt).isGateway (frSrc m.frame) = true := hgw
  have hdrop : (b.drop 20).length = leAt b 14 2 := by
    rw [List.length_drop, hlen]
    omega
  have hz : leAt b 14 2 ≠ 0 := by omega
  have hbig : ¬ 346 < leAt b 14 2 := by omega
  rw [if_neg (by simp [hgw', hkind, hres, hdrop, hz, hbig])]

theorem joinParts_one (off : Nat) (b : List Byte) : joinParts [(off, b)] = if off ≤ 0 then b.drop (0 - off) else [] := rfl

/-- A first part of a header opens an assembly (R483). -/
theorem Completes.cutting_header {s : State} {dt : Nat} {m : RxItem} {b : List Byte} (hs : s.Settled) (hin : s.mac.inbox = [m]) (hq : m.q = 27)
    (hgw : s.isGateway (frSrc m.frame) = true) (hb : b = slice m.frame 22 (frLen m.frame)) (hkind : leAt b 0 1 = 0x11) (hres : leAt b 1 3 = 0)
    (hn : 1 ≤ leAt b 14 2) (hn' : leAt b 14 2 ≤ 346) (hlen : b.length = 20 + leAt b 14 2) (hoff : leAt b 12 2 + leAt b 14 2 < 512) (hasm : s.upd.hasm = none) :
    Completes (.cutting dt) s fun t => t.mac.inbox = [] ∧ t.upd = { s.upd with hasm := some { tag := leAt b 4 4, parts := [(leAt b 12 2, b.drop 20)] } } ∧
        Frame [.clk, .out, .mac, .upd] s.toDev t := by
  have he := exec_cutting (dt := dt) hin hq hgw hb (by rw [hkind]) hres hn hn' hlen
  rw [hkind, if_pos (by decide)] at he
  have hdrop : (b.drop 20).length = leAt b 14 2 := by
    rw [List.length_drop, hlen]
    omega
  have hpart : (s.itemTaken dt).headerPart (frSrc m.frame) (leAt b 4 4) (leAt b 12 2) (b.drop 20) =
      (s.itemTaken dt).putUpd { s.upd with hasm := some { tag := leAt b 4 4, parts := [(leAt b 12 2, b.drop 20)] } } := by
    have hasm' : (s.itemTaken dt).upd.hasm = none := hasm
    have hshort : ¬ 512 ≤ (joinParts [(leAt b 12 2, b.drop 20)]).length := by
      rw [joinParts_one]
      split
      · rw [List.length_drop, hdrop]
        omega
      · exact Nat.not_succ_le_zero _
    unfold Dev.headerPart
    rw [if_neg (by omega), hasm']
    dsimp only
    rw [if_neg (by rw [List.any_nil]; decide), if_neg hshort]
    rfl
  rw [hpart] at he
  have hall : Frame [.clk, .out, .mac, .upd] s.toDev ((s.itemTaken dt).putUpd { s.upd with hasm := some { tag := leAt b 4 4, parts := [(leAt b 12 2, b.drop 20)] } }) :=
    (frame_itemTaken s.toDev dt).append (frame_putUpd _ _)
  exact .of_effect hs hall he (by decide) (by decide) ⟨rfl, rfl, hall⟩

/-- A piece that comes in one part is judged at once (R482, R483). -/
theorem Dev.piecePart_whole {s : Dev} {d : FlashDl} {tag idx crc : Nat} {b : List Byte} (hdl : s.download = some d) (htag : tag = d.hdr.tag) (hidx : idx < d.hdr.count)
    (hlen : b.length = d.hdr.psize) (hasm : s.upd.asm_ = []) : s.piecePart tag idx 0 crc b = (s.piece tag idx crc true b).2.askSectors := by
  have hstay : s.putUpd { s.upd with asm_ := [] } = s := by
    rw [← hasm]
    rfl
  unfold Dev.piecePart
  rw [hdl]
  dsimp only
  rw [if_neg (by simpa using htag), if_neg (by simp [hlen, hidx]), hasm]
  simp only [List.filter_nil, List.flatMap_nil, List.any_nil, Bool.or_self, Bool.false_eq_true, if_false]
  rw [hstay, joinParts_one, if_pos (Nat.le_refl 0), List.drop_zero, if_pos (by rw [hlen])]

/-- A new piece of a gateway is held and counted (R482, R483). -/
theorem Completes.cutting_piece {s : State} {dt : Nat} {m : RxItem} {b : List Byte} {d : FlashDl} (hs : s.Settled) (hin : s.mac.inbox = [m]) (hq : m.q = 27)
    (hgw : s.isGateway (frSrc m.frame) = true) (hb : b = slice m.frame 22 (frLen m.frame)) (hkind : leAt b 0 1 = 0x21) (hres : leAt b 1 3 = 0)
    (hn : 1 ≤ leAt b 14 2) (hn' : leAt b 14 2 ≤ 346) (hlen : b.length = 20 + leAt b 14 2) (hdl : s.download = some d) (htag : leAt b 4 4 = d.hdr.tag)
    (hidx : leAt b 8 4 < d.hdr.count) (hoff : leAt b 12 2 = 0) (hsize : leAt b 14 2 = d.hdr.psize) (hcrc : crc32c (b.drop 20) = leAt b 16 4)
    (hnew : (s.upd.held ++ d.pieces).all (fun p => p.1 != leAt b 8 4) = true) (hheld : s.upd.held = []) (hasm : s.upd.asm_ = [])
    (hk : 2 ≤ (d.hdr.piecesOf 0).2) (hsec : d.hdr.sectors ≤ 1) :
    Completes (.cutting dt) s fun t => t.mac.inbox = [] ∧ t.upd = { s.upd with held := [(leAt b 8 4, b.drop 20)], lastPiece := t.up } ∧
        t.fld (0x14058, 0, 16) = wrapInc 16 (s.fld (0x14058, 0, 16)) ∧ RegsBut [0x14058] s.toDev t ∧ Frame [.clk, .out, .mac, .upd, .regs] s.toDev t := by
  have he := exec_cutting (dt := dt) hin hq hgw hb (by rw [hkind]) hres hn hn' hlen
  have hdrop : (b.drop 20).length = d.hdr.psize := by
    rw [List.length_drop, hlen, ← hsize]
    omega
  have hdl' : (s.itemTaken dt).download = some d := hdl
  rw [hkind, if_neg (by decide), if_pos (by decide), hoff, Dev.piecePart_whole hdl' htag hidx hdrop hasm, Dev.piece_new hdl' htag hidx hcrc hnew] at he
  obtain ⟨hf, hbut, hfld, hupd, hdl2⟩ := Dev.pieceHeld_spec (s.itemTaken dt) (leAt b 8 4) (b.drop 20)
  have hupd' : ((s.itemTaken dt).pieceHeld (leAt b 8 4) (b.drop 20)).upd = { s.upd with held := [(leAt b 8 4, b.drop 20)], lastPiece := (s.itemTaken dt).up } := by
    rw [hupd, show (s.itemTaken dt).upd = s.upd from rfl, hheld]
    rfl
  dsimp only at he
  rw [Dev.askSectors_one (hdl2.trans hdl') (by rw [hupd']) hk hsec] at he
  have h0 := frame_itemTaken s.toDev dt
  have hin0 : (s.itemTaken dt).mac.inbox = [] := rfl
  have hfld0 := Dev.fld_of_frame h0 (by decide) (0x14058, 0, 16)
  generalize s.itemTaken dt = v at *
  generalize v.pieceHeld (leAt b 8 4) (b.drop 20) = u at *
  have hup : u.up = v.up := congrArg Clock.up (hf .clk (by decide))
  have hall : Frame [.clk, .out, .mac, .upd, .regs] s.toDev u := (h0.append hf).mono (by decide)
  refine .of_effect hs hall he (by decide) (by decide) ⟨?_, ?_, hfld.trans (congrArg (wrapInc 16) hfld0), (RegsBut.of_frame h0 (by decide)).trans hbut, hall⟩
  · rw [show u.mac = v.mac from hf .mac (by decide)]
    exact hin0
  · rw [hupd', hup]

/-! #### What is still needed -/

/-- The body of a need list (R483). -/
def FlashDl.needBody (d : FlashDl) : List Byte :=
  [0x31, 0, 0, 0] ++ leBytes d.hdr.tag 4 ++ leBytes 0 6 ++ leBytes (min 42 d.ranges.length) 2 ++ leBytes 0 4 ++
    (d.ranges.take 42).flatMap fun x => leBytes x.1 4 ++ leBytes x.2 4

theorem Dev.sendNeed_routed {s : Dev} {gw : Nat} {d : FlashDl} {r : RouteEnt} (hrng : d.ranges ≠ []) (hr : s.routeTo gw = some r) :
    s.sendNeed gw d = s.queueFrame { type_ := 10, dst := gw, body := d.needBody, lane := r.lane, prio := 5, rx := (r.hops.headD (gw, 0, 0)).1 } := by
  have hne : (d.ranges.take 42).isEmpty = false := by
    cases hd : d.ranges with
    | nil => exact absurd hd hrng
    | cons x xs => rfl
  have hbody : leBytes (1 + 16 * 3) 1 ++ [0, 0, 0] ++ leBytes d.hdr.tag 4 ++ leBytes 0 4 ++ leBytes 0 2 ++ leBytes (d.ranges.take 42).length 2 ++
      leBytes 0 4 ++ ((d.ranges.take 42).flatMap fun r => leBytes r.1 4 ++ leBytes r.2 4) = d.needBody := by
    rw [List.length_take, List.append_assoc _ (leBytes 0 4) (leBytes 0 2)]
    rfl
  unfold Dev.sendNeed
  dsimp only
  rw [hne, if_neg Bool.false_ne_true, hbody, Dev.queueTo_found hr]

theorem Completes.needList {s : State} {dt gw : Nat} {d : FlashDl} {r : RouteEnt} (hs : s.Settled) (hnow : s.upd.needNow = none) (hdl : s.download = some d)
    (hair : d.air = some gw) (hrng : d.ranges ≠ []) (hr : s.routeTo gw = some r) :
    Completes (.needList dt) s fun t => t.upd = { s.upd with needAt := t.up } ∧ t.up = max s.up (s.upd.needAt + s.fld (0x14014, 12, 8) * cycHz) ∧
        t.mac.txq.dropLast = s.mac.txq ∧ t.mac.txq.getLast?.map (fun f => (f.type_, f.dst, f.lane, f.body)) = some (10, gw, r.lane, d.needBody) ∧
        Frame [.clk, .out, .mac, .upd] s.toDev t := by
  have he : exec (.needList dt) s = s.act fun _ => ((s.tickUp (s.upd.needAt + s.fld (0x14014, 12, 8) * cycHz)).putUpd { s.upd with
      needAt := (s.tickUp (s.upd.needAt + s.fld (0x14014, 12, 8) * cycHz)).up }).queueFrame
        { type_ := 10, dst := gw, body := d.needBody, lane := r.lane, prio := 5, rx := (r.hops.headD (gw, 0, 0)).1 } := by
    show execNeedList dt s = _
    unfold execNeedList
    refine State.act_congr ?_
    rw [hnow, hdl]
    dsimp only
    rw [hair]
    exact Dev.sendNeed_routed (r := r) hrng hr
  have h0 := (frame_tick s.toDev (s.upd.needAt + s.fld (0x14014, 12, 8) * cycHz - s.clk.up)).append
    (frame_putUpd (s.tickUp (s.upd.needAt + s.fld (0x14014, 12, 8) * cycHz)) { s.upd with
      needAt := (s.tickUp (s.upd.needAt + s.fld (0x14014, 12, 8) * cycHz)).up })
  have hall := (h0.append (frame_queueFrame _ { type_ := 10, dst := gw, body := d.needBody, lane := r.lane, prio := 5, rx := (r.hops.headD (gw, 0, 0)).1 })).mono
    (d := [.clk, .out, .mac, .upd]) (by decide)
  refine .of_effect hs hall he (by decide) (by decide) ⟨rfl, Dev.tickUp_up s.toDev _, ?_, ?_, hall⟩
  · show (s.mac.txq ++ [_]).dropLast = _
    rw [List.dropLast_concat]
  · show ((s.mac.txq ++ [_]).getLast?).map _ = _
    rw [List.getLast?_concat]
    rfl

/-- Settles O59: each header, piece, sector and verification takes its own way. -/
theorem downloadsAreAcceptedFilledAndVerified : Obligations.DownloadsAreAcceptedFilledAndVerified :=
  ⟨fun _ _ _ _ => .updHeader_fresh, fun _ _ _ _ _ => .updHeader_joins, fun _ _ _ _ _ _ => .updHeader_bad, fun _ _ _ _ _ _ => .updHeader_other,
    fun _ _ _ _ _ hs hwait hg hpfw htrial _ => .headerStored hs hwait hg hpfw htrial, fun _ _ _ _ _ => .headerStored_fails,
    fun _ _ _ _ _ hs hr hdl hn hlen hb htag hidx hres hcrc hnew _ hk => .updPieces_new hs hr hdl hn hlen hb htag hidx hres hcrc hnew hk,
    fun _ _ _ _ _ _ => .updPieces_conflict, fun _ _ _ _ => .updPieces_none, fun _ _ _ _ _ => .cutting_piece, fun _ _ _ _ => .cutting_header,
    fun _ _ _ _ _ => .needList,
    fun _ _ _ _ hs hr hdl hpfw hsec hn hone hroom => .sectorCommitDone hs (by rw [hr, hn]) hdl hpfw hsec hone hroom,
    fun _ _ _ _ _ => .sectorCommitDone_fails, fun _ _ _ _ => .updVerify, fun _ _ _ _ => .updVerify_refused, fun _ _ _ _ _ => .verifyDone,
    fun _ _ _ _ _ _ => .verifyDone_fails⟩

end Sys2Proof.Machine

/-! ### Submissions: a statement that fails when no handle is free -/
namespace Sys2Proof.Machine

/-- A device whose submission ring 0 holds one entry for completion ring 0, with these live commands. -/
def State.crowded (live : List Live) : State :=
  { toDev := { (State.reset.setReg 0x2108 0x10004).setReg 0x2508 0x84 with
      hif := { State.reset.hif with bme := true, ready := true, live, sqs := [(0, { tail := 1 })] } }
    pending := [] }

/-- Live commands that a reset of the interface has left without a voice, one under each handle of ring 0 (R367, R376). -/
def voiceless : List Live :=
  (List.range 0x1000000).map fun n => { handle := n, sq := 0, cq := 1, tag := 0, op := 1, entry := [], order := 0, orphan := true }

/-- Every live command is without a voice and has not begun. -/
def AllOrphans (live : List Live) : Prop := ∀ l ∈ live, l.orphan = true ∧ l.started = false

theorem allOrphans_voiceless : AllOrphans voiceless := by
  intro l hl
  obtain ⟨n, -, rfl⟩ := List.mem_map.1 hl
  exact ⟨rfl, rfl⟩

theorem freeSeq_lt (live : List Live) (base : Nat) : ∀ k n, n < 0x1000000 → freeSeq live base k n < 0x1000000
  | 0, _, hn => hn
  | k + 1, n, hn => by
    unfold freeSeq
    split
    · apply freeSeq_lt live base k
      split <;> omega
    · exact hn

/-- A fence that has not begun ends nothing. -/
theorem Dev.settleFences_unstarted {s : Dev} (h : ∀ l ∈ s.hif.live, l.started = false) (n : Nat) : s.settleFences n = s := by
  have hnone : s.hif.live.find? (fenceClear s.hif.live) = none := by
    rw [List.find?_eq_none]
    intro l hl
    simp [fenceClear, h l hl]
  cases n with
  | zero => rfl
  | succ n =>
    unfold Dev.settleFences
    rw [hnone]

/-- The `DONE` of a command without a voice writes nothing. -/
theorem Dev.ring_done_orphan {s : Dev} {h c r : Nat} {b : List Byte} {l : Live} (hl : s.live? h = some l) (ho : l.orphan = true)
    (hst : ∀ l ∈ s.hif.live, l.started = false) : ((s.done h c b).cq r).ring = (s.cq r).ring := by
  have hraw : s.doneRaw h c b = s.setLive (s.hif.live.filter fun x => x.handle != h) := by
    unfold Dev.doneRaw
    rw [hl]
    exact if_pos ho
  unfold Dev.done
  rw [hraw, Dev.settleFences_unstarted fun x hx => hst x (List.mem_filter.1 hx).1]
  rfl

/-- The registers of `State.crowded`. -/
def ringsOn : Dev := (State.reset.setReg 0x2108 0x10004).setReg 0x2508 0x84

theorem fld_crowded (live : List Live) (f : Fld) : (State.crowded live).fld f = ringsOn.fld f := rfl

theorem turn_crowded {live : List Live} (h : AllOrphans live) : (State.crowded live).turn = some 0 := by
  have hnone : (State.crowded live).cqLive 0 = 0 := by
    have hf : live.filter (fun l => l.cq == 0 && !l.orphan) = [] := List.filter_eq_nil_iff.2 fun l hl => by simp [(h l hl).1]
    exact congrArg List.length hf
  have hcq : (State.crowded live).fld (sqCq 0) = 0 := (fld_crowded live _).trans (by decide +kernel)
  have hsize : ringsOn.fld (cqLog2 0) = 4 := by decide +kernel
  have hfree : (State.crowded live).cqFree 0 = 16 := by
    unfold Dev.cqFree Dev.cqSize
    rw [fld_crowded, hsize]
    rfl
  have hsq : (State.crowded live).flag (sqEn 0) = true := (show ringsOn.flag (sqEn 0) = true by decide +kernel)
  have hon : (State.crowded live).flag (cqEn 0) = true := (show ringsOn.flag (cqEn 0) = true by decide +kernel)
  have hfetch : (State.crowded live).fetchable 0 = true := by
    unfold Dev.fetchable
    rw [hcq, hnone, hfree, hsq, hon]
    rfl
  unfold Dev.turn
  exact List.find?_cons_of_pos hfetch

/-- The entry of ring 0, which is empty, names no command. -/
theorem judgeEntry_empty : judgeEntry true (slice [] 0 64) [] [] = some (stBadDesc, 0) := by decide +kernel

/-- An entry that takes a handle in use is answered for its owner, who has no voice: ring 0 holds no `DONE`. -/
theorem ring_accept_crowded {live : List Live} (h : AllOrphans live) (hall : ∀ n, n < 0x1000000 → ∃ l ∈ live, l.handle = n) :
    (((State.crowded live).tick 0).accept 0 [] [] []).Settled ∧ ∀ x ∈ ((((State.crowded live).tick 0).accept 0 [] [] []).cq 0).ring, x.kind = .accept := by
  have hj : judgeEntry ((State.crowded live).tick 0).fuse.big (slice [] 0 64) [] [] = some (stBadDesc, 0) := judgeEntry_empty
  have hcq : ((State.crowded live).tick 0).fld (sqCq 0) = 0 := (fld_crowded live _).trans (by decide +kernel)
  have hseq1 : (((State.crowded live).tick 0).sq 0).seq = 1 := rfl
  have hgen : ((State.crowded live).tick 0).hif.gen = 0 := rfl
  have hlive : ((State.crowded live).tick 0).hif.live = live := rfl
  have hring : (((State.crowded live).tick 0).cq 0).ring = [] := rfl
  have hset : ((State.crowded live).tick 0).Settled := ⟨rfl, rfl⟩
  generalize (State.crowded live).tick 0 = d at *
  unfold Dev.accept
  extract_lets q base seq n op c head l s1 hif s2 s3
  have hn : n < 0x1000000 := by
    have hbase : base = 0 := by simp only [base, hgen, Nat.zero_mul, Nat.add_zero]
    have hlt : seq < 0x1000000 := freeSeq_lt d.hif.live base _ q.seq (by simp only [q, hseq1]; omega)
    omega
  have hlive3 : s3.hif.live = live ++ [l] := by
    rw [← hlive]
    exact Dev.live_cqWrite _ _ _
  have hring3 : ∀ x ∈ (s3.cq 0).ring, x.kind = .accept := by
    intro x hx
    have hx' : x ∈ (((s2.cntWrap (0x2044, 0, 16)).cqWrite c _).cq 0).ring := hx
    rw [Dev.ring_cqWrite, if_pos hcq.symm] at hx'
    have hempty : ((s2.cntWrap (0x2044, 0, 16)).cq c).ring = [] := by
      rw [show c = 0 from hcq]
      exact hring
    rw [hempty] at hx'
    rw [List.mem_singleton.1 hx']
  have hst : ∀ x ∈ s3.hif.live, x.started = false := by
    rw [hlive3]
    intro x hx
    rcases List.mem_append.1 hx with hx | hx
    · exact (h x hx).2
    · rw [List.mem_singleton.1 hx]
  obtain ⟨m, hm, hmh⟩ := hall n hn
  obtain ⟨k, hk⟩ : ∃ k, live.find? (fun x => x.handle == n) = some k :=
    Option.isSome_iff_exists.1 (List.find?_isSome.2 ⟨m, hm, by simpa using hmh⟩)
  have hfound : s3.live? n = some k := by
    rw [Dev.live?, hlive3, List.find?_append, hk]
    rfl
  have hf : Frame [.regs, .hif, .out] s2 s3 := (frame_cntWrap s2 (0x2044, 0, 16)).append (frame_cqWrite _ _ _)
  have hbig : s3.fuse.big = d.fuse.big := congrArg Fuse.big (hf .fuse (by decide))
  have hset2 : s2.Settled := hset
  clear_value s3
  rw [hbig, hj]
  dsimp only
  refine ⟨hset2.of_frame (hf.append (frame_done s3 n _ _)) (by decide) (by decide), ?_⟩
  rw [Dev.ring_done_orphan hfound (h k (List.mem_of_find?_eq_some hk)).1 hst]
  exact hring3

theorem exec_submissionFetch_crowded {live : List Live} (h : AllOrphans live) :
    exec (.submissionFetch 0 0 (some []) [] []) (State.crowded live) = (State.crowded live).act fun d => (d.tick 0).accept 0 [] [] [] := by
  show execSubmissionFetch 0 0 (some []) [] [] (State.crowded live) = _
  unfold execSubmissionFetch
  refine State.act_congr ?_
  have hturn : ((State.crowded live).tick 0).turn = some 0 := turn_crowded h
  dsimp only
  rw [hturn]
  rfl

/-- Refutes O8: where every handle of the ring is live, a malformed entry takes one in use, and its `DONE` goes to its owner, whose interface was reset. -/
theorem not_submissionsAreFetchedInTurn : ¬ Obligations.SubmissionsAreFetchedInTurn := by
  rintro ⟨-, hbad, -⟩
  have hall (n : Nat) (hn : n < 0x1000000) : ∃ l ∈ voiceless, l.handle = n := ⟨_, List.mem_map_of_mem (List.mem_range.2 hn), rfl⟩
  have horph := allOrphans_voiceless
  generalize voiceless = live at *
  obtain ⟨t, hexec, -, ⟨x, hx, hkind, -⟩, -⟩ := hbad (.crowded live) 0 0 [] [] [] stBadDesc 0 ⟨rfl, rfl⟩ (turn_crowded horph) judgeEntry_empty rfl
  obtain ⟨hset, hring⟩ := ring_accept_crowded horph hall
  have he := exec_submissionFetch_crowded horph
  rw [hexec, State.act_eq, settle_of_settled _ hset] at he
  have hcq : (State.crowded live).fld (sqCq 0) = 0 := (fld_crowded live _).trans (by decide +kernel)
  rw [hcq, Host.Outcome.next.inj he] at hx
  have hacc := hring x hx
  rw [hkind] at hacc
  exact absurd hacc (by decide)

end Sys2Proof.Machine

/-! ### What a test of entries reads: no check view, and not their count (R180, R187) -/
namespace Sys2Proof.Machine

/-- A device with other registers and another hot cache. -/
def Dev.viewed (s : Dev) (R : Tab Reg) (c : List Nat) : Dev := { s with regs := R, trl := { s.trl with cache := c } }

/-- The registers differ at most in the count of misses. -/
def SameButMisses (s : Dev) (R : Tab Reg) : Prop := ∀ o, o ≠ 0x804C → Tab.get resetReg R o = s.reg o

section Parts
variable (s : Dev) (R : Tab Reg) (c : List Nat)

theorem Dev.fuse_viewed : (s.viewed R c).fuse = s.fuse := rfl
theorem Dev.saf_viewed : (s.viewed R c).saf = s.saf := rfl
theorem Dev.tim_viewed : (s.viewed R c).tim = s.tim := rfl
theorem Dev.gns_viewed : (s.viewed R c).gns = s.gns := rfl
theorem Dev.txu_viewed : (s.viewed R c).txu = s.txu := rfl
theorem Dev.ctl_viewed : (s.viewed R c).ctl = s.ctl := rfl
theorem Dev.mac_viewed : (s.viewed R c).mac = s.mac := rfl
theorem Dev.graph_viewed : (s.viewed R c).trl.graph = s.trl.graph := rfl
theorem Dev.resv_viewed : (s.viewed R c).trl.resv = s.trl.resv := rfl
theorem Dev.axis_viewed (n : Nat) : (s.viewed R c).axis n = s.axis n := rfl
theorem Dev.loop_viewed (n : Nat) : (s.viewed R c).loop n = s.loop n := rfl
theorem Dev.queue_viewed (n : Nat) : (s.viewed R c).queue n = s.queue n := rfl
theorem Dev.nLoops_viewed : (s.viewed R c).nLoops = s.nLoops := rfl
theorem Dev.nLanes_viewed : (s.viewed R c).nLanes = s.nLanes := rfl
theorem Dev.nSlots_viewed : (s.viewed R c).nSlots = s.nSlots := rfl
theorem Dev.station_viewed : (s.viewed R c).station = s.station := rfl
theorem Dev.benchHeld_viewed (n : Nat) : (s.viewed R c).benchHeld n = s.benchHeld n := rfl

end Parts

section Fields
variable {s : Dev} {R : Tab Reg} {c : List Nat} (h : SameButMisses s R)
include h

theorem Dev.reg_viewed {o : Nat} (ho : o ≠ 0x804C) : (s.viewed R c).reg o = s.reg o := h o ho

theorem Dev.fld_viewed {o lo w : Nat} (ho : o ≠ 0x804C) : (s.viewed R c).fld (o, lo, w) = s.fld (o, lo, w) :=
  congrArg (fun r : Reg => fieldOf r lo w) (h o ho)

theorem Dev.flag_viewed {o lo w : Nat} (ho : o ≠ 0x804C) : (s.viewed R c).flag (o, lo, w) = s.flag (o, lo, w) := by
  rw [Dev.flag, Dev.fld_viewed h ho, ← Dev.flag]

theorem Dev.axMode_viewed (n : Nat) : (s.viewed R c).axMode n = s.axMode n := Dev.fld_viewed h (by omega)
theorem Dev.hedgeLo_viewed (n : Nat) : (s.viewed R c).hedgeLo n = s.hedgeLo n := congrArg (signed 32) (Dev.fld_viewed h (by omega))
theorem Dev.hedgeHi_viewed (n : Nat) : (s.viewed R c).hedgeHi n = s.hedgeHi n := congrArg (signed 32) (Dev.fld_viewed h (by omega))
theorem Dev.dClear_viewed (n : Nat) : (s.viewed R c).dClear n = s.dClear n := Dev.fld_viewed h (by omega)
theorem Dev.tClear_viewed (n : Nat) : (s.viewed R c).tClear n = s.tClear n := Dev.fld_viewed h (by omega)
theorem Dev.edge_viewed (a k : Nat) : (s.viewed R c).edge a k = s.edge a k := Dev.fld_viewed h (by omega)

theorem Dev.queCfg_viewed (q : Nat) : (s.viewed R c).queCfg q = s.queCfg q := by
  simp (disch := omega) only [Dev.queCfg, Dev.fld_viewed h]

theorem Dev.queForce_viewed (q : Nat) : (s.viewed R c).queForce q = s.queForce q := by
  rw [Dev.queForce, Dev.queForce, Dev.queCfg_viewed h, Dev.queue_viewed]

theorem Dev.cls_viewed (n : Nat) : (s.viewed R c).cls n = s.cls n := by
  simp (disch := omega) only [Dev.cls, Dev.fld_viewed h, Dev.flag_viewed h]

theorem Dev.classWords_viewed (n : Nat) : (s.viewed R c).classWords n = s.classWords n := by
  simp (disch := omega) only [Dev.classWords, Dev.reg_viewed h]

theorem Dev.beaconFits_viewed (n : Nat) : (s.viewed R c).beaconFits n = s.beaconFits n := by
  simp (disch := omega) only [Dev.beaconFits, lnTPre, lnTOct, Dev.fld_viewed h] <;> rfl

theorem Dev.bond_viewed (n : Nat) : (s.viewed R c).bond n = s.bond n := by
  simp (disch := omega) only [Dev.bond, Dev.exchangeFits, lnTPre, lnTOct, lnTTa, Dev.fld_viewed h] <;> rfl

theorem Dev.stopToAir_viewed (n : Nat) : (s.viewed R c).stopToAir n = s.stopToAir n := by
  simp (disch := omega) only [Dev.stopToAir, Dev.spiNs, Dev.cmdLen, lnSck, lnTAbort, lnTxDly, Dev.fld_viewed h]

theorem Dev.routesBreak_viewed (l : List RouteEnt) (n : Nat) : (s.viewed R c).routesBreak l n = s.routesBreak l n := by
  simp (disch := omega) only [Dev.routesBreak, Dev.bondSlots, Dev.planWords, Dev.bond_viewed h, Dev.nSlots_viewed, Dev.reg_viewed h]

theorem loopRec_viewed (n k : Nat) : loopRec (s.viewed R c).reg n k = loopRec s.reg n k := by
  rw [loopRec, Dev.reg_viewed h (by omega), ← loopRec]

theorem loopSet_viewed (n : Nat) : loopSet (s.viewed R c).reg n = loopSet s.reg n := by
  rw [loopSet, Dev.reg_viewed h (by omega), ← loopSet]

theorem gainWord_viewed (n k : Nat) : gainWord (s.viewed R c).reg n k = gainWord s.reg n k := by
  rw [gainWord, Dev.reg_viewed h (by omega), ← gainWord]

theorem gainValid_viewed (n : Nat) : gainValid (s.viewed R c).reg n = gainValid s.reg n := by
  unfold gainValid
  rw [show gainWord (s.viewed R c).reg n = gainWord s.reg n from funext fun k => gainWord_viewed h n k]

theorem Dev.conflicts_viewed (x y : Resv) : (s.viewed R c).conflicts x y = s.conflicts x y := by
  simp (disch := omega) only [Dev.conflicts, Dev.linkHit, Dev.wide, Dev.dMax, Dev.graph_viewed, Dev.dClear_viewed h, Dev.tClear_viewed h, Dev.fld_viewed h] <;> rfl

theorem Dev.clashes_viewed (x : Resv) (p : Resv → Bool) : (s.viewed R c).clashes x p = s.clashes x p := by
  simp only [Dev.clashes, Dev.resv_viewed, Dev.conflicts_viewed h]

theorem Dev.loopJudge_viewed (n op set steer blend : Nat) : (s.viewed R c).loopJudge n op set steer blend = s.loopJudge n op set steer blend := by
  simp (disch := omega) only [Dev.loopJudge, Dev.loop_viewed, Dev.nLoops_viewed, Dev.benchHeld_viewed, gainValid_viewed h, loopRec_viewed h, loopSet_viewed h,
    Dev.station_viewed, Dev.fld_viewed h] <;> rfl

/-! #### The rules of the Bench -/

/-- The registers after a set differ where the registers before it did. -/
theorem SameButMisses.withEntries (ents : List Staged) : ∃ R', (s.viewed R c).withEntries ents = (s.withEntries ents).viewed R' c ∧
    SameButMisses (s.withEntries ents) R' := by
  induction ents generalizing s R with
  | nil => exact ⟨R, rfl, h⟩
  | cons e ents ih =>
    have hset : SameButMisses (s.setReg e.addr (s.entryValue e)) (Tab.set resetReg R e.addr ((s.viewed R c).entryValue e)) := by
      intro o ho
      show ((s.viewed R c).setReg e.addr _).reg o = _
      rw [Dev.reg_setReg, Dev.reg_setReg]
      split
      · next heq => rw [Dev.entryValue, Dev.reg_viewed h (heq ▸ ho), ← Dev.entryValue]
      · exact h o ho
    exact ih hset

end Fields

section Rules
variable {s t : Dev} {R R' : Tab Reg} {c c' : List Nat} (h : SameButMisses s R) (k : SameButMisses t R') (ents : List Staged)
include h k

theorem Dev.axisRules_viewed : (s.viewed R c).axisRules (t.viewed R' c') ents = s.axisRules t ents := by
  simp (disch := omega) only [Dev.axisRules, Dev.hedgeLo_viewed k, Dev.hedgeHi_viewed k, axF, Dev.fld_viewed k, Dev.axMode_viewed k, Dev.axMode_viewed h,
    Dev.axis_viewed, Dev.loop_viewed] <;> rfl

theorem Dev.queueRules_viewed : (s.viewed R c).queueRules (t.viewed R' c') ents = s.queueRules t ents := by
  simp (disch := omega) only [Dev.queueRules, Dev.queCfg_viewed k, Dev.queCfg_viewed h, Dev.queForce_viewed h, Dev.fld_viewed k, Dev.saf_viewed, Dev.fuse_viewed]

theorem Dev.timeRules_viewed : (s.viewed R c).timeRules (t.viewed R' c') ents = s.timeRules t ents := by
  simp (disch := omega) only [Dev.timeRules, Dev.fld_viewed k, Dev.fld_viewed h, Dev.flag_viewed k, Dev.tim_viewed]

theorem Dev.gnssRules_viewed : (s.viewed R c).gnssRules (t.viewed R' c') ents = s.gnssRules t ents := by
  simp (disch := omega) only [Dev.gnssRules, Dev.fld_viewed k, Dev.fld_viewed h, Dev.saf_viewed, Dev.fuse_viewed, Dev.gns_viewed, Dev.txu_viewed]

theorem Dev.loopRules_viewed : (s.viewed R c).loopRules (t.viewed R' c') ents = s.loopRules t ents := by
  simp (disch := omega) only [Dev.loopRules, Dev.ctl_viewed, loopRec_viewed h, loopRec_viewed k, loopSet_viewed h, loopSet_viewed k, gainWord_viewed h, gainWord_viewed k,
    gainValid_viewed k]

theorem Dev.leaseRules_viewed : (s.viewed R c).leaseRules (t.viewed R' c') ents = s.leaseRules t ents := by
  simp (disch := omega) only [Dev.leaseRules, Dev.txu_viewed, Dev.fld_viewed k, Dev.classWords_viewed h, Dev.classWords_viewed k, Dev.cls_viewed k]

theorem Dev.stateRules_viewed : (s.viewed R c).stateRules (t.viewed R' c') ents = s.stateRules t ents := by
  simp (disch := omega) only [Dev.stateRules, Dev.saf_viewed, Dev.fld_viewed k, Dev.fld_viewed h, Dev.reg_viewed k, Dev.reg_viewed h, Dev.graph_viewed,
    show List.range 6 = [0, 1, 2, 3, 4, 5] from rfl, List.any_cons, List.any_nil] <;> rfl

theorem Dev.rangeRules_viewed : (s.viewed R c).rangeRules (t.viewed R' c') ents = s.rangeRules t ents := by
  simp (disch := omega) only [Dev.rangeRules, Dev.cls_viewed k, Dev.fld_viewed k, Dev.flag_viewed k, Dev.flag_viewed h, Dev.dClear_viewed k, Dev.dClear_viewed h,
    Dev.tClear_viewed k, Dev.tClear_viewed h, Dev.graph_viewed, Dev.resv_viewed]

omit h in
theorem Dev.diaryRules_viewed : (t.viewed R' c').diaryRules ents = t.diaryRules ents := by
  have hwin : ((ents.filter fun e => within 0x12100 (8 * 192) e.addr && e.addr % 8 == 0).flatMap fun e =>
      broken ents 3 (fun o => o == e.addr) ((t.viewed R' c').flag (e.addr, 3, 1) && decide (3600 < (t.viewed R' c').fld (e.addr, 12, 12)))) =
    (ents.filter fun e => within 0x12100 (8 * 192) e.addr && e.addr % 8 == 0).flatMap fun e =>
      broken ents 3 (fun o => o == e.addr) (t.flag (e.addr, 3, 1) && decide (3600 < t.fld (e.addr, 12, 12))) := by
    refine List.flatMap_congr fun e he => ?_
    obtain ⟨-, hin⟩ := List.mem_filter.1 he
    simp only [within, Bool.and_eq_true, decide_eq_true_eq] at hin
    rw [Dev.flag_viewed k (by omega), Dev.fld_viewed k (by omega)]
  unfold Dev.diaryRules
  rw [hwin]
  simp only [Dev.edge_viewed k]

omit h in
theorem Dev.laneRules_viewed : (t.viewed R' c').laneRules ents = t.laneRules ents := by
  have hplan (n : Nat) : ((ents.filter fun e => within (0xD800 + 0x100 * n) 0x100 e.addr && bits e.mask 0 4 != 0 && decide (4 ≤ (t.viewed R' c').fld (e.addr, 0, 4))).flatMap
      fun e => broken ents 0x101 (fun o => o == e.addr) true) =
    (ents.filter fun e => within (0xD800 + 0x100 * n) 0x100 e.addr && bits e.mask 0 4 != 0 && decide (4 ≤ t.fld (e.addr, 0, 4))).flatMap
      fun e => broken ents 0x101 (fun o => o == e.addr) true := by
    congr 1
    refine List.filter_congr fun e _ => ?_
    by_cases hin : within (0xD800 + 0x100 * n) 0x100 e.addr = true
    · have hne : e.addr ≠ 0x804C := by
        simp only [within, decide_eq_true_eq] at hin
        omega
      rw [Dev.fld_viewed k hne]
    · simp only [hin, Bool.false_and]
  unfold Dev.laneRules
  refine List.flatMap_congr fun n _ => ?_
  dsimp only
  rw [hplan]
  simp (disch := omega) only [Dev.nLanes_viewed, lnEn, Dev.flag_viewed k, Dev.beaconFits_viewed k, Dev.bond_viewed k, Dev.stopToAir_viewed k, Dev.mac_viewed,
    Dev.routesBreak_viewed k] <;> rfl

omit h k in
/-- The count of misses holds no field of the host. -/
theorem fieldsAt_misses : ∀ p ∈ fieldsAt 0x804C, (p.1.acc == .rw) = false := by decide +kernel

theorem Dev.entryRules_viewed (direct : Bool) (i : Nat) (e : Staged) : (s.viewed R c).entryRules (t.viewed R' c') direct i e = s.entryRules t direct i e := by
  have hbad (p : FRow × Nat) (v : Nat) : (t.viewed R' c').fieldBad p.1 p.2 v = t.fieldBad p.1 p.2 v := rfl
  by_cases he : e.addr = 0x804C
  · obtain ⟨addr, value, mask⟩ := e
    obtain rfl : addr = 0x804C := he
    have hout : within 0x12100 (8 * 192) 0x804C = false := by decide
    have hnone (u : Dev) : ((fieldsAt 0x804C).filterMap fun p => if p.1.acc == .rw && !p.1.direct && bits mask p.1.lo p.1.w != 0 &&
        u.fieldBad p.1 p.2 (u.fld (0x804C, p.1.lo, p.1.w)) then some (i, p.1.rule) else none) = [] :=
      List.filterMap_eq_nil_iff.2 fun p hp => if_neg (by simp only [fieldsAt_misses p hp, Bool.false_and]; exact Bool.false_ne_true)
    unfold Dev.entryRules
    dsimp only
    rw [hnone, hnone]
    simp only [hout, Bool.false_and, Dev.fuse_viewed]
  · unfold Dev.entryRules
    simp only [hbad, Dev.fld_viewed k he, Dev.reg_viewed h he, Dev.fuse_viewed]

end Rules

section
variable {s : Dev} {R : Tab Reg} {c : List Nat} (h : SameButMisses s R)
include h

theorem Dev.judgeSet_viewed (ents : List Staged) (direct : Bool) (but : Nat) : (s.viewed R c).judgeSet ents direct but = s.judgeSet ents direct but := by
  obtain ⟨R', hset, k⟩ := h.withEntries (c := c) ents
  unfold Dev.judgeSet
  rw [hset]
  simp only [Dev.entryRules_viewed h k, Dev.axisRules_viewed h k, Dev.queueRules_viewed h k, Dev.timeRules_viewed h k, Dev.gnssRules_viewed h k,
    Dev.diaryRules_viewed k, Dev.laneRules_viewed k, Dev.loopRules_viewed h k, Dev.leaseRules_viewed h k, Dev.stateRules_viewed h k, Dev.rangeRules_viewed h k,
    show (s.viewed R c).txnRules ents but = s.txnRules ents but from rfl]

/-- A re-check reads no check view and not their count of misses. -/
theorem Dev.recheck_viewed (x : Txn) : (s.viewed R c).recheck x = s.recheck x := by
  unfold Dev.recheck
  simp only [Dev.resv_viewed, Dev.clashes_viewed h, Dev.loopJudge_viewed h, Dev.judgeSet_viewed h]

end

/-- Check views change the cache and the count of misses. -/
theorem Dev.useView_eq (s : Dev) (id : Nat) : ∃ R c, s.useView id = s.viewed R c ∧ SameButMisses s R := by
  unfold Dev.useView
  dsimp only
  split
  · exact ⟨s.regs, _, rfl, fun _ _ => rfl⟩
  · refine ⟨(s.cntWrap (0x804C, 0, 32)).regs, _, rfl, fun o ho => RegsBut.cntWrap s (0x804C, 0, 32) o (by simpa using ho)⟩

theorem Dev.viewed_trans {s t u : Dev} (h : ∃ R c, t = s.viewed R c ∧ SameButMisses s R) (k : ∃ R c, u = t.viewed R c ∧ SameButMisses t R) :
    ∃ R c, u = s.viewed R c ∧ SameButMisses s R := by
  obtain ⟨R, c, rfl, h⟩ := h
  obtain ⟨R', c', rfl, k⟩ := k
  exact ⟨R', c', rfl, fun o ho => (k o ho).trans (h o ho)⟩

theorem Dev.viewed_foldl {α : Type} {f : Dev → α → Dev} (hf : ∀ s a, ∃ R c, f s a = s.viewed R c ∧ SameButMisses s R) (l : List α) :
    ∀ s, ∃ R c, l.foldl f s = s.viewed R c ∧ SameButMisses s R := by
  induction l with
  | nil => exact fun s => ⟨s.regs, s.trl.cache, rfl, fun _ _ => rfl⟩
  | cons a l ih => exact fun s => Dev.viewed_trans (hf s a) (ih (f s a))

theorem Dev.useViews_eq (s : Dev) (l : List Resv) : ∃ R c, s.useViews l = s.viewed R c ∧ SameButMisses s R := by
  unfold Dev.useViews
  split
  · exact ⟨s.regs, s.trl.cache, rfl, fun _ _ => rfl⟩
  · exact Dev.viewed_foldl (fun s r => Dev.viewed_foldl (fun s id => s.useView_eq id) _ s) l s

theorem frame_viewed (s : Dev) (R : Tab Reg) (c : List Nat) : Frame [.regs, .trl] s (s.viewed R c) := fun p hp => by
  cases p <;> simp at hp <;> rfl

end Sys2Proof.Machine

/-! ### Transactions at their cut-off (R226, R228, R229, R415) -/
namespace Sys2Proof.Machine

/-- What the cut-off makes of each due transaction: its re-check's outcome. -/
def Dev.cutJudge (s : Dev) (t : Txn) : Dev :=
  match s.recheck t with
  | none => s.updTxn t.id fun t => { t with phase := .listed }
  | some 0x0901 => (s.benchFailTxn t (s.judgeSet t.benchSet false t.id)).raise 0x6C
  | some st => (s.abortTxn t st 0xFF true).raise 0x6C

/-- Re-offers handed over at an instant are over. -/
def Txn.handedOver (at_ : NT) (t : Txn) : Txn :=
  { t with parts := t.parts.map fun (p : Part) => match p.reofferApply with
      | some a => if ntAdd (commitOf a) (-(msTicks 1 : Nat)) == at_ then { p with reofferApply := none } else p
      | none => p }

/-- The ids that go to the commit list. -/
def Dev.cutIds (s : Dev) (again due : List Txn) : List Nat :=
  let passed := due.filter fun (t : Txn) => t.fleet && (match s.txn? t.id with | some x => x.phase = .listed | none => false)
  ((again ++ passed.filter (!·.step) ++ passed.filter (·.step)).map fun (t : Txn) => t.id).eraseDups

/-- The commit list is handed over, or comes too late (R415). -/
def Dev.cutList (s : Dev) (late : Bool) (at_ : NT) (ids : List Nat) : Dev :=
  let s := { s with txu := { s.txu with txns := s.txu.txns.map (Txn.handedOver at_) } }
  if ids.isEmpty then s
  else if late || 16 < ids.length then s.raise 0xB8
  else { s with txu := { s.txu with lists := s.txu.lists ++ [{ c := ntAdd at_ (msTicks 1 : Nat), ids }] } }

theorem Txn.reCuts_none {x : Txn} (h : (x.parts.all fun p => p.reofferApply.isNone) = true) : x.reCuts = [] := by
  unfold Txn.reCuts
  refine List.filterMap_eq_nil_iff.2 fun p hp => ?_
  rw [Option.isNone_iff_eq_none.1 (List.all_eq_true.1 h p hp)]
  rfl

theorem Txn.handedOver_none {x : Txn} (h : (x.parts.all fun p => p.reofferApply.isNone) = true) (at_ : NT) (ph : TxPhase) :
    Txn.handedOver at_ { x with phase := ph } = { x with phase := ph } := by
  have hparts : (x.parts.map fun (p : Part) => match p.reofferApply with
      | some a => if ntAdd (commitOf a) (-(msTicks 1 : Nat)) == at_ then { p with reofferApply := none } else p
      | none => p) = x.parts := by
    refine (List.map_congr_left fun p hp => ?_).trans (List.map_id _)
    rw [Option.isNone_iff_eq_none.1 (List.all_eq_true.1 h p hp)]
    rfl
  unfold Txn.handedOver
  rw [show ({ x with phase := ph } : Txn).parts = x.parts from rfl, hparts]

theorem Txn.cutAt_staged {x : Txn} {a : NT} (hph : x.phase = .staged) (hf : x.fleet = false) (ha : x.applyAt = some a) :
    x.cutAt = some (ntAdd a (-(msTicks 1 : Nat))) := by
  unfold Txn.cutAt
  rw [hph, hf, ha]
  rfl

theorem Txn.cutAt_offered {x : Txn} {a : NT} (hph : x.phase = .offered) (ha : a = x.cNt) : x.cutAt = some (ntAdd a (-(msTicks 1 : Nat))) := by
  rw [ha]
  exact if_pos hph

/-- The cut-off of the one transaction, which no re-offer accompanies. -/
theorem exec_cutOff {s : State} {late : Bool} {x : Txn} {at_ : NT} (hx : s.txu.txns = [x]) (hcut : x.cutAt = some at_)
    (hre : (x.parts.all fun p => p.reofferApply.isNone) = true) : ∃ R c, SameButMisses (s.tickTo at_) R ∧
    exec (.cutOff late) s = s.act fun _ => (((s.tickTo at_).viewed R c).cutJudge x).cutList late at_ ((((s.tickTo at_).viewed R c).cutJudge x).cutIds [] [x]) := by
  obtain ⟨R, c, hview, hsame⟩ := (s.tickTo at_).useViews_eq (s.trl.resv.filter fun r => (r.staged || r.kind = .offered) && [x].any fun (t : Txn) => t.id == r.txn)
  refine ⟨R, c, hsame, ?_⟩
  show execCutOff late s = _
  unfold execCutOff
  refine State.act_congr ?_
  have hfirst : firstNt (s.txu.txns.flatMap fun (t : Txn) => t.cutAt.toList ++ t.reCuts) = some at_ := by
    rw [hx, List.flatMap_cons, List.flatMap_nil, hcut, Txn.reCuts_none hre]
    rfl
  have hdue : ((s.tickTo at_).txu.txns.filter fun (t : Txn) => t.cutAt == some at_) = [x] := by
    rw [show (s.tickTo at_).txu.txns = [x] from hx]
    simp [hcut]
  rw [hfirst]
  dsimp only
  rw [hdue, show (s.tickTo at_).trl.resv = s.trl.resv from rfl, hview]
  have hagain : (((s.tickTo at_).viewed R c).txu.txns.filter fun (t : Txn) => t.reCuts.contains at_) = [] := by
    rw [show ((s.tickTo at_).viewed R c).txu.txns = [x] from hx]
    simp [Txn.reCuts_none hre]
  rw [hagain]
  rfl

/-- The transaction that its re-check passes is listed. -/
def Dev.txnListed (s : Dev) (x : Txn) : Dev := { s with txu := { s.txu with txns := [{ x with phase := .listed }] } }

theorem frame_txnListed (s : Dev) (x : Txn) : Frame [.txu] s (s.txnListed x) := frame_withTxu s _

theorem Dev.cutJudge_passes {s : Dev} {x : Txn} (hx : s.txu.txns = [x]) (hid : x.id ≠ 0) (h : s.recheck x = none) : s.cutJudge x = s.txnListed x := by
  unfold Dev.cutJudge
  rw [h]
  exact Dev.updTxn_only hx hid _

theorem Dev.cutIds_passed {s : Dev} {x : Txn} (hid : x.id ≠ 0) : (s.txnListed x).cutIds [] [x] = if x.fleet then [x.id] else [] := by
  have htxn : (s.txnListed x).txn? x.id = some { x with phase := .listed } := Dev.txn?_only (s := s.txnListed x) (x := { x with phase := .listed }) rfl hid
  unfold Dev.cutIds
  cases hf : x.fleet with
  | false => simp [hf]
  | true => cases hst : x.step <;> simp [hf, htxn, hst] <;> rfl

theorem Dev.cutList_passed {s : Dev} {x : Txn} {at_ : NT} (late : Bool) (hid : x.id ≠ 0) (hre : (x.parts.all fun p => p.reofferApply.isNone) = true) :
    (s.txnListed x).cutList late at_ ((s.txnListed x).cutIds [] [x]) =
      if x.fleet = false then s.txnListed x else if late then (s.txnListed x).raise 0xB8
      else { s.txnListed x with txu := { (s.txnListed x).txu with lists := s.txu.lists ++ [{ c := ntAdd at_ (msTicks 1 : Nat), ids := [x.id] }] } } := by
  have htxns : (s.txnListed x).txu.txns.map (Txn.handedOver at_) = (s.txnListed x).txu.txns := by
    show [Txn.handedOver at_ { x with phase := .listed }] = _
    rw [Txn.handedOver_none hre]
    rfl
  unfold Dev.cutList
  dsimp only
  rw [htxns, Dev.cutIds_passed hid]
  cases x.fleet <;> cases late <;> rfl

/-- What a cut-off that passes leaves, and what it changes. -/
theorem exec_cutOff_passes {s : State} {late : Bool} {x : Txn} {at_ : NT} (hx : s.txu.txns = [x]) (hcut : x.cutAt = some at_) (hid : x.id ≠ 0)
    (hre : (x.parts.all fun p => p.reofferApply.isNone) = true) (hrec : (s.tickTo at_).recheck x = none) : ∃ u : Dev,
    Frame [.clk, .out, .txu, .trl, .regs] s.toDev u ∧ RegsBut [0x804C] s.toDev u ∧ u.txu = { s.txu with txns := [{ x with phase := .listed }] } ∧
    u.clk = (s.tickTo at_).clk ∧ u.trl = { s.trl with cache := u.trl.cache } ∧
    exec (.cutOff late) s = s.act fun _ => if x.fleet = false then u else if late then u.raise 0xB8
      else { u with txu := { u.txu with lists := s.txu.lists ++ [{ c := ntAdd at_ (msTicks 1 : Nat), ids := [x.id] }] } } := by
  obtain ⟨R, c, hsame, he⟩ := exec_cutOff (late := late) hx hcut hre
  have hrec' : ((s.tickTo at_).viewed R c).recheck x = none := (Dev.recheck_viewed hsame x).trans hrec
  have hx' : ((s.tickTo at_).viewed R c).txu.txns = [x] := hx
  rw [Dev.cutJudge_passes hx' hid hrec', Dev.cutList_passed late hid hre] at he
  have h0 : Frame [.clk, .out] s.toDev (s.tickTo at_) := frame_tick s.toDev _
  have h1 := frame_viewed (s.tickTo at_) R c
  have h2 := frame_txnListed ((s.tickTo at_).viewed R c) x
  refine ⟨((s.tickTo at_).viewed R c).txnListed x, (h0.append (h1.append h2)).mono (by decide), fun o ho => ?_, rfl, rfl, rfl, he⟩
  exact hsame o (by simpa using ho)

/-- A transaction of the unit itself that its re-check passes is listed (R226). -/
theorem Completes.cutOff_staged {s : State} {late : Bool} {x : Txn} {a : NT} (hs : s.Settled) (hx : s.txu.txns = [x]) (hph : x.phase = .staged) (hf : x.fleet = false)
    (ha : x.applyAt = some a) (hparts : x.parts = []) (hid : x.id ≠ 0) (hrec : (s.tickTo (ntAdd a (-(msTicks 1 : Nat)))).recheck x = none) :
    Completes (.cutOff late) s fun t => t.txu = { s.txu with txns := [{ x with phase := .listed }] } ∧ t.clk = (s.tickTo (ntAdd a (-(msTicks 1 : Nat)))).clk ∧
        t.trl = { s.trl with cache := t.trl.cache } ∧ RegsBut [0x804C] s.toDev t ∧ Frame [.clk, .out, .txu, .trl, .regs] s.toDev t := by
  obtain ⟨u, hall, hbut, htxu, hclk, htrl, he⟩ := exec_cutOff_passes (late := late) hx (Txn.cutAt_staged hph hf ha) hid (by rw [hparts]; rfl) hrec
  rw [if_pos hf] at he
  exact .of_effect hs hall he (by decide) (by decide) ⟨htxu, hclk, htrl, hbut, hall⟩

/-- A fleet transaction that its re-check passes is listed, and joins the list of its beacon (R228, R229). -/
theorem Completes.cutOff_offered {s : State} {x : Txn} {a : NT} (hs : s.Settled) (hx : s.txu.txns = [x]) (hph : x.phase = .offered) (hf : x.fleet = true)
    (ha : a = x.cNt) (hre : (x.parts.all fun p => p.reofferApply.isNone) = true) (hid : x.id ≠ 0)
    (hrec : (s.tickTo (ntAdd a (-(msTicks 1 : Nat)))).recheck x = none) :
    Completes (.cutOff false) s fun t => t.txu = { s.txu with
          txns := [{ x with phase := .listed }]
          lists := s.txu.lists ++ [{ c := ntAdd (ntAdd a (-(msTicks 1 : Nat))) (msTicks 1 : Nat), ids := [x.id] }] } ∧
        t.clk = (s.tickTo (ntAdd a (-(msTicks 1 : Nat)))).clk ∧ t.trl = { s.trl with cache := t.trl.cache } ∧ RegsBut [0x804C] s.toDev t ∧
        Frame [.clk, .out, .txu, .trl, .regs] s.toDev t := by
  obtain ⟨u, hall, hbut, htxu, hclk, htrl, he⟩ := exec_cutOff_passes (late := false) hx (Txn.cutAt_offered hph ha) hid hre hrec
  rw [if_neg (by rw [hf]; decide), if_neg Bool.false_ne_true] at he
  have hend := frame_withTxu u { u.txu with lists := s.txu.lists ++ [{ c := ntAdd (ntAdd a (-(msTicks 1 : Nat))) (msTicks 1 : Nat), ids := [x.id] }] }
  have hall' := (hall.append hend).mono (d := [.clk, .out, .txu, .trl, .regs]) (by decide)
  refine .of_effect hs hall' he (by decide) (by decide) ⟨?_, hclk, htrl, hbut, hall'⟩
  rw [htxu]

/-- A list that comes too late is missed (R415). -/
theorem CompletesThen.cutOff_late {s : State} {x : Txn} {a : NT} (hx : s.txu.txns = [x]) (hph : x.phase = .offered) (hf : x.fleet = true)
    (ha : a = x.cNt) (hre : (x.parts.all fun p => p.reofferApply.isNone) = true) (hid : x.id ≠ 0)
    (hrec : (s.tickTo (ntAdd a (-(msTicks 1 : Nat)))).recheck x = none) :
    CompletesThen (.cutOff true) s fun d => d.txu = { s.txu with txns := [{ x with phase := .listed }] } ∧ .fault 0xB8 false ∈ d.todo ∧
        d.clk = (s.tickTo (ntAdd a (-(msTicks 1 : Nat)))).clk ∧ d.trl = { s.trl with cache := d.trl.cache } ∧ RegsBut [0x804C] s.toDev d ∧
        Frame [.clk, .out, .txu, .trl, .regs, .todo] s.toDev d := by
  obtain ⟨u, hall, hbut, htxu, hclk, htrl, he⟩ := exec_cutOff_passes (late := true) hx (Txn.cutAt_offered hph ha) hid hre hrec
  rw [if_neg (by rw [hf]; decide), if_pos rfl] at he
  exact .of_effect he ⟨htxu, List.mem_append_right _ (List.mem_singleton.2 rfl), hclk, htrl, hbut, (hall.append (frame_raise u 0xB8)).mono (by decide)⟩

/-- One that fails it ends CONFLICT, and its entries leave (R226, R228). -/
theorem CompletesThen.cutOff_conflict {s : State} {h : Nat} {late : Bool} {x : Txn} {a : NT} {l : Live} (hx : s.txu.txns = [x]) (hph : x.phase = .staged)
    (hf : x.fleet = false) (ha : x.applyAt = some a) (hparts : x.parts = []) (hid : x.id ≠ 0)
    (hrec : (s.tickTo (ntAdd a (-(msTicks 1 : Nat)))).recheck x = some stConflict) (htasks : x.tasks = []) (hround : x.round = false) (halso : x.also = [])
    (hh : x.handle = some h) (hw : s.Waits h l) :
    CompletesThen (.cutOff late) s fun d => d.Answered l stConflict (txnDone x 0xFF) ∧ d.txu.txns = [] ∧ .fault 0x6C false ∈ d.todo ∧
        d.fld (0x902C, 16, 16) = satInc 16 (s.fld (0x902C, 16, 16)) ∧ (∀ r ∈ d.trl.resv, ¬ (r.txn = x.id ∧ r.staged = true)) := by
  obtain ⟨R, c, hsame, he⟩ := exec_cutOff (late := late) hx (Txn.cutAt_staged hph hf ha) (by rw [hparts]; rfl)
  generalize ntAdd a (-(msTicks 1 : Nat)) = at_ at *
  have h0 : Frame [.clk, .out] s.toDev (s.tickTo at_) := frame_tick s.toDev _
  have h1 := frame_viewed (s.tickTo at_) R c
  have hrec' : ((s.tickTo at_).viewed R c).recheck x = some stConflict := (Dev.recheck_viewed hsame x).trans hrec
  have hregs : RegsBut [0x804C] s.toDev ((s.tickTo at_).viewed R c) := fun o ho => hsame o (by simpa using ho)
  generalize (s.tickTo at_).viewed R c = u at *
  have hu : Frame [.clk, .out, .regs, .trl] s.toDev u := h0.append h1
  have hcut : u.cutJudge x = (((u.abortTaken x).done h stConflict (txnDone x 0xFF)).dropTxn x).raise 0x6C := by
    rw [← Dev.abortTxn_staged hid htasks hph hh hround halso]
    unfold Dev.cutJudge
    rw [hrec']
    rfl
  have hids (v : Dev) : v.cutIds [] [x] = [] := by
    unfold Dev.cutIds
    simp [hf]
  rw [hids, hcut] at he
  have hv := frame_abortTaken u x
  obtain ⟨hregs2, hcount⟩ := u.abortTaken_regs x
  have hresv := u.resv_abortTaken x
  generalize u.abortTaken x = v at *
  have hcq : v.reg (cqEn l.cq).1 = s.reg (cqEn l.cq).1 := by
    obtain ⟨-, -, -, -, hcq⟩ := hw
    rw [hregs2 _ (by
      simp only [List.mem_cons, List.not_mem_nil, or_false]
      exact not_or.2 ⟨cqEn_ne hcq (by decide), cqEn_ne hcq (by decide)⟩)]
    exact hregs _ (by
      rw [List.mem_singleton]
      exact cqEn_ne hcq (by decide))
  have hans := (hw.of_frame (hu.append hv) (by decide) hcq).done stConflict (txnDone x 0xFF)
  have hd := frame_done v h stConflict (txnDone x 0xFF)
  generalize v.done h stConflict (txnDone x 0xFF) = w at *
  have htxu : w.txu = s.txu := ((hu.append hv).append hd) .txu (by decide)
  have hdrop := frame_dropTxn w x
  have hdropped : (w.dropTxn x).txu.txns = [] := by rw [Dev.dropTxn_only (by rw [htxu, hx])]
  generalize w.dropTxn x = y at *
  have hend : (y.raise 0x6C).cutList late at_ [] = { y.raise 0x6C with txu := { y.txu with txns := [] } } := by
    show { y.raise 0x6C with txu := { y.txu with txns := y.txu.txns.map (Txn.handedOver at_) } } = _
    rw [hdropped]
    rfl
  rw [hend] at he
  have hfy : Frame [.todo, .txu] y { y.raise 0x6C with txu := { y.txu with txns := [] } } := (frame_raise y 0x6C).append (frame_withTxu _ _)
  refine .of_effect he ⟨hans.of_frame (hdrop.append hfy) (by decide), rfl, List.mem_append_right _ (List.mem_singleton.2 rfl), ?_, ?_⟩
  · rw [Dev.fld_of_frame (hdrop.append hfy) (by decide), Dev.fld_of_frame hd (by decide), hcount, hregs.fld_eq (by decide)]
  · rw [(hd.append (hdrop.append hfy)) .trl (by decide)]
    exact hresv

end Sys2Proof.Machine

/-! ### Beacons and what they commit (R228, R325, R415) -/
namespace Sys2Proof.Machine

/-! #### What a commit keeps -/

/-- The clock and the lanes stand, no commit list comes or goes, and what was sent stays sent. -/
structure Dev.BeaconKept (s t : Dev) : Prop where
  clk : t.clk = s.clk
  lanes : t.mac.lanes = s.mac.lanes
  lists : t.txu.lists = s.txu.lists
  out : ∀ o ∈ s.out, o ∈ t.out

namespace Dev.BeaconKept

theorem refl (s : Dev) : s.BeaconKept s := ⟨rfl, rfl, rfl, fun _ h => h⟩

theorem trans {s t u : Dev} (h : s.BeaconKept t) (k : t.BeaconKept u) : s.BeaconKept u :=
  ⟨k.clk.trans h.clk, k.lanes.trans h.lanes, k.lists.trans h.lists, fun o ho => k.out o (h.out o ho)⟩

theorem foldl {α : Type} {f : Dev → α → Dev} (h : ∀ (s : Dev) a, s.BeaconKept (f s a)) (l : List α) : ∀ s : Dev, s.BeaconKept (l.foldl f s) := by
  induction l with
  | nil => exact fun s => .refl s
  | cons a l ih => exact fun s => (h s a).trans (ih _)

theorem of_ground {s t : Dev} (h : s.GroundKept t) : s.BeaconKept t := ⟨h.frame .clk (by decide), h.lanes, h.lists, h.out⟩

/-- A change of areas that none of this lies in, whose outputs stay. -/
theorem of_frame {a : List Area} {s t : Dev} (h : Frame a s t) (hc : .clk ∉ a) (hm : .mac ∉ a) (ht : .txu ∉ a) (ho : ∀ o ∈ s.out, o ∈ t.out) : s.BeaconKept t :=
  ⟨h .clk hc, by rw [h .mac hm], by rw [h .txu ht], ho⟩

theorem setResv (s : Dev) (l : List Resv) : s.BeaconKept (s.setResv l) := by
  have hf := frame_setResv s l
  exact of_frame hf (by decide) (by decide) (by decide) fun o ho => by rwa [hf .out (by decide)]

theorem cntWrap (s : Dev) (f : Fld) : s.BeaconKept (s.cntWrap f) := of_frame (frame_cntWrap s f) (by decide) (by decide) (by decide) fun _ ho => ho

theorem event (s : Dev) (c : Nat) (b : List Byte) : s.BeaconKept (s.event c b) :=
  of_frame (frame_event s c b) (by decide) (by decide) (by decide) fun _ ho => Dev.mem_out_event c b ho

theorem progress (s : Dev) (h c : Nat) (b : List Byte) : s.BeaconKept (s.progress h c b) := by
  refine of_frame (frame_progress s h c b) (by decide) (by decide) (by decide) fun o ho => ?_
  unfold Dev.progress
  split
  · next l _ =>
    split
    · exact ho
    · have hm := Dev.mem_out_cqOffer l.cq (cmdEntry .progress l c b) ho
      generalize s.cqOffer l.cq (cmdEntry .progress l c b) = y at hm ⊢
      obtain ⟨t, lost⟩ := y
      dsimp only at hm ⊢
      split
      · exact hm
      · exact hm
  · exact ho

theorem progressTxn (s : Dev) (t : Txn) (c : Nat) (b : List Byte) : s.BeaconKept (s.progressTxn t c b) := by
  unfold Dev.progressTxn
  split
  · split
    · exact refl s
    · exact progress s _ c b
  · exact refl s

theorem commitTxn (s : Dev) (t : Txn) : s.BeaconKept (s.commitTxn t) := by
  unfold Dev.commitTxn
  extract_lets s1 s2 s3 s4 sf s5
  have h1 : s.BeaconKept s1 := setResv s _
  have h2 : s1.BeaconKept s2 := cntWrap s1 _
  have h3 : s2.BeaconKept s3 := progressTxn s2 t _ _
  have h4 : s3.BeaconKept s4 := of_ground (.updTxn s3 _ _)
  have h5 : s4.BeaconKept s5 := foldl (fun d a => by
    split
    · split
      · exact of_ground (.prune d _)
      · exact refl d
    · exact refl d) _ s4
  have hall := (h1.trans h2).trans ((h3.trans h4).trans h5)
  clear_value s5
  split
  · exact hall
  · exact hall.trans (of_ground ((Dev.GroundKept.doneTxn s5 t _ _).trans (.updTxn _ _ _)))

theorem firstBeacon (s : Dev) : s.BeaconKept s.firstBeacon := by
  unfold Dev.firstBeacon
  split
  · split
    · exact refl s
    · extract_lets us p s1 s2
      have h1 : s.BeaconKept s1 := ⟨rfl, rfl, rfl, fun _ ho => ho⟩
      have h2 : s1.BeaconKept s2 := of_frame (((frame_cntSat s1 (0x15020, 0, 16)).append (frame_raise _ 0x3C)).append (frame_event _ _ _)) (by decide) (by decide) (by decide)
        fun o ho => Dev.mem_out_event _ _ ho
      exact (h1.trans h2).trans (of_ground (.doneOpt s2 _ _ _))
  · exact refl s

end Dev.BeaconKept

/-! #### The beacons of the lanes -/

/-- One lane sends its beacon. -/
def Dev.beaconLane (sf : Nat) (body : List Byte) (ids : List Nat) (s : Dev) (n : Nat) : Dev :=
  let s := (s.launch n (s.launchAt n (50 * sf)) { type_ := 0, dst := 0xFFFF, body, lane := n }).emit (.frame n 0 0xFFFF body)
  (s.setLane n { s.lane n with beaconSf := some sf }).emit (.beacon n s.runBit ids)

/-- What the beacons of some lanes change: the radio, its counts and the outputs. -/
structure Dev.LanesSent (sf : Nat) (s t : Dev) : Prop where
  frame : Frame [.mac, .nv, .regs, .out] s t
  regs : ∀ o, o < 0xD000 → t.reg o = s.reg o
  out : ∀ o ∈ s.out, o ∈ t.out
  lane : ∀ n, (s.lane n).beaconSf = some sf → (t.lane n).beaconSf = some sf

theorem Dev.LanesSent.refl (sf : Nat) (s : Dev) : s.LanesSent sf s := ⟨.refl _ s, fun _ _ => rfl, fun _ h => h, fun _ h => h⟩

theorem Dev.LanesSent.trans {sf : Nat} {s t u : Dev} (h : s.LanesSent sf t) (k : t.LanesSent sf u) : s.LanesSent sf u :=
  ⟨h.frame.trans k.frame, fun o ho => (k.regs o ho).trans (h.regs o ho), fun o ho => k.out o (h.out o ho), fun n hn => k.lane n (h.lane n hn)⟩

theorem Dev.beaconLane_spec (sf : Nat) (body : List Byte) (ids : List Nat) (s : Dev) (n : Nat) : s.LanesSent sf (s.beaconLane sf body ids n) ∧
    ((s.beaconLane sf body ids n).lane n).beaconSf = some sf ∧ .beacon n s.runBit ids ∈ (s.beaconLane sf body ids n).out ∧
    .frame n 0 0xFFFF body ∈ (s.beaconLane sf body ids n).out := by
  have h1 := frame_launch s n (s.launchAt n (50 * sf)) { type_ := 0, dst := 0xFFFF, body, lane := n }
  have hregs1 := Dev.regsBut_launch s n (s.launchAt n (50 * sf)) { type_ := 0, dst := 0xFFFF, body, lane := n }
  have hlane1 := fun m => Dev.lane_launch s n m (s.launchAt n (50 * sf)) { type_ := 0, dst := 0xFFFF, body, lane := n }
  have hout1 := Dev.out_launch s n (s.launchAt n (50 * sf)) { type_ := 0, dst := 0xFFFF, body, lane := n }
  unfold Dev.beaconLane
  dsimp only
  generalize s.launch n (s.launchAt n (50 * sf)) { type_ := 0, dst := 0xFFFF, body, lane := n } = t at *
  have h2 := frame_emit t (.frame n 0 0xFFFF body)
  have hrun : (t.emit (.frame n 0 0xFFFF body)).runBit = s.runBit := by
    rw [Dev.runBit, show (t.emit (.frame n 0 0xFFFF body)).saf = s.saf from (h1.append h2) .saf (by decide), ← Dev.runBit]
  have hlane2 (m : Nat) : (t.emit (.frame n 0 0xFFFF body)).lane m = s.lane m := hlane1 m
  have hout2 : (t.emit (.frame n 0 0xFFFF body)).out = t.out ++ [.frame n 0 0xFFFF body] := rfl
  have hreg2 (o : Nat) : (t.emit (.frame n 0 0xFFFF body)).reg o = t.reg o := rfl
  rw [hrun]
  generalize t.emit (.frame n 0 0xFFFF body) = v at *
  have h3 := (frame_setLane v n { v.lane n with beaconSf := some sf }).append (frame_emit (v.setLane n { v.lane n with beaconSf := some sf }) (.beacon n s.runBit ids))
  have hout3 : ((v.setLane n { v.lane n with beaconSf := some sf }).emit (.beacon n s.runBit ids)).out = v.out ++ [.beacon n s.runBit ids] := rfl
  have hlane3 (m : Nat) : ((v.setLane n { v.lane n with beaconSf := some sf }).emit (.beacon n s.runBit ids)).lane m =
    if m = n then { v.lane n with beaconSf := some sf } else v.lane m := Dev.lane_setLane v n m _
  refine ⟨⟨((h1.append h2).append h3).mono (by decide), fun o ho => ?_, fun o ho => ?_, fun m hm => ?_⟩, ?_, ?_, ?_⟩
  · exact (Dev.reg_of_frame h3 (by decide) o).trans ((hreg2 o).trans (hregs1 o (by
      simp only [List.mem_cons, List.not_mem_nil, or_false]
      omega)))
  · rw [hout3, hout2, hout1]
    exact List.mem_append_left _ (List.mem_append_left _ (List.mem_append_left _ ho))
  · rw [hlane3]
    split
    · rfl
    · rw [hlane2]
      exact hm
  · rw [hlane3, if_pos rfl]
  · rw [hout3]
    exact List.mem_append_right _ (List.mem_singleton.2 rfl)
  · rw [hout3, hout2]
    exact List.mem_append_left _ (List.mem_append_right _ (List.mem_singleton.2 rfl))

theorem Dev.beaconLanes_spec (sf : Nat) (body : List Byte) (ids : List Nat) (l : List Nat) : ∀ s : Dev,
    s.LanesSent sf (l.foldl (Dev.beaconLane sf body ids) s) ∧ ∀ n ∈ l, ((l.foldl (Dev.beaconLane sf body ids) s).lane n).beaconSf = some sf ∧
      .beacon n s.runBit ids ∈ (l.foldl (Dev.beaconLane sf body ids) s).out ∧ .frame n 0 0xFFFF body ∈ (l.foldl (Dev.beaconLane sf body ids) s).out := by
  induction l with
  | nil => exact fun s => ⟨.refl sf s, fun n hn => absurd hn List.not_mem_nil⟩
  | cons a l ih =>
    intro s
    rw [List.foldl_cons]
    obtain ⟨h1, hlane, hbeacon, hframe⟩ := s.beaconLane_spec sf body ids a
    obtain ⟨h2, hrest⟩ := ih (s.beaconLane sf body ids a)
    have hrun : (s.beaconLane sf body ids a).runBit = s.runBit := by
      rw [Dev.runBit, show (s.beaconLane sf body ids a).saf = s.saf from h1.frame .saf (by decide), ← Dev.runBit]
    rw [hrun] at hrest
    refine ⟨h1.trans h2, fun n hn => ?_⟩
    rcases List.mem_cons.1 hn with rfl | hn
    · exact ⟨h2.lane n hlane, h2.out _ hbeacon, h2.out _ hframe⟩
    · exact hrest n hn

/-! #### A beacon -/

/-- The commit lists up to a slotframe are done with. -/
def Dev.listsTaken (s : Dev) (c : NT) : Dev :=
  { s with mac := { s.mac with stepBeacons := s.mac.stepBeacons - 1 }
           txu := { s.txu with lists := s.txu.lists.filter fun (x : CommitList) => ntAfter x.c c } }

/-- The beacons of a slotframe are sent. -/
def Dev.beaconsSent (s : Dev) (ids : List Nat) : Dev :=
  ((s.inService.filter fun n => (s.lane n).owesBeacon (slotframeOf s.frameStart.toNat)).foldl
    (Dev.beaconLane (slotframeOf s.frameStart.toNat) (s.beaconBody s.frameStart ids) ids) s).listsTaken s.frameStart

/-- The transactions that a beacon lists commit (R228). -/
def Dev.commitListed (s : Dev) (id : Nat) : Dev :=
  match s.txn? id with
  | some t => if t.phase = .listed then s.commitTxn t else s
  | none => s

theorem exec_beacon {s : State} {u : Dev} {ids : List Nat} (hu : u = s.tickTo s.beaconNt) (hb : s.beaconing = true) (htok : u.holdsToken = true)
    (hrest : s.saf.restarting = false) (hsil : s.mac.silentUntil = none) (hpause : s.upd.pause ≠ some 5)
    (hids : ids = ((s.txu.lists.find? fun x => x.c == u.frameStart).map (·.ids)).getD []) :
    exec .beacon s = s.act fun _ => (ids.foldl Dev.commitListed (u.beaconsSent ids)).firstBeacon := by
  show execBeacon s = _
  unfold execBeacon
  refine State.act_congr ?_
  have hb' : u.beaconing = true := by
    rw [hu]
    exact hb
  have hrest' : u.saf.restarting = false := by
    rw [hu]
    exact hrest
  have hsil' : u.mac.silentUntil = none := by
    rw [hu]
    exact hsil
  have hpause' : u.upd.pause ≠ some 5 := by
    rw [hu]
    exact hpause
  have hlists : u.txu.lists = s.txu.lists := by
    rw [hu]
    rfl
  rw [← hlists] at hids
  extract_lets c0 sf0 fresh s1 c sf ids' body lanes s2 txu mac s3 s4
  have hs1 : s1 = u := hu.symm
  clear_value s1
  subst hs1
  rw [if_neg (by rw [hb', htok]; decide), if_neg (by rw [hrest', hsil']; exact Bool.false_ne_true)]
  have hids' : ids' = ids := by
    show (if s1.upd.pause = some 5 then [] else match s1.txu.lists.find? fun (x : CommitList) => x.c == c with | some x => x.ids | none => []) = ids
    rw [if_neg hpause', hids, show s1.frameStart = c from rfl]
    cases s1.txu.lists.find? fun (x : CommitList) => x.c == c with
    | none => rfl
    | some x => rfl
  clear_value ids'
  subst hids'
  rfl

theorem Dev.BeaconKept.commitListed (s : Dev) (id : Nat) : s.BeaconKept (s.commitListed id) := by
  unfold Dev.commitListed
  split
  · split
    · exact commitTxn s _
    · exact refl s
  · exact refl s

/-- Each lane in service that owes its beacon sends it, with the commit list of the slotframe (R325). -/
theorem CompletesThen.beacon {s : State} {u : Dev} {ids : List Nat} (hu : u = s.tickTo s.beaconNt) (hb : s.beaconing = true) (htok : u.holdsToken = true)
    (hrest : s.saf.restarting = false) (hsil : s.mac.silentUntil = none) (hpause : s.upd.pause ≠ some 5)
    (hids : ids = ((s.txu.lists.find? fun x => x.c == u.frameStart).map (·.ids)).getD []) :
    CompletesThen .beacon s fun d => d.clk = u.clk ∧ (∀ n ∈ s.inService,
          (s.lane n).owesBeacon (slotframeOf u.frameStart.toNat) = true →
          (d.lane n).beaconSf = some (slotframeOf u.frameStart.toNat) ∧ .beacon n (s.saf.run == .run || (s.saf.run == .updatePause && s.saf.pausedFrom == some .run)) ids ∈ d.out ∧
          .frame n 0 0xFFFF (u.beaconBody u.frameStart ids) ∈ d.out) ∧
        (∀ x ∈ d.txu.lists, ntAfter x.c u.frameStart = true) := by
  have he := exec_beacon hu hb htok hrest hsil hpause hids
  unfold Dev.beaconsSent at he
  obtain ⟨h1, hsent⟩ := Dev.beaconLanes_spec (slotframeOf u.frameStart.toNat) (u.beaconBody u.frameStart ids) ids
    (u.inService.filter fun n => (u.lane n).owesBeacon (slotframeOf u.frameStart.toNat)) u
  have hmem (n : Nat) (hn : n ∈ s.inService) (ho : (s.lane n).owesBeacon (slotframeOf u.frameStart.toNat) = true) :
      n ∈ u.inService.filter fun n => (u.lane n).owesBeacon (slotframeOf u.frameStart.toNat) := by
    rw [List.mem_filter, hu]
    rw [hu] at ho
    exact ⟨hn, ho⟩
  have hrun : u.runBit = (s.saf.run == .run || (s.saf.run == .updatePause && s.saf.pausedFrom == some .run)) := by
    rw [hu]
    rfl
  generalize (u.inService.filter fun n => (u.lane n).owesBeacon (slotframeOf u.frameStart.toNat)).foldl
    (Dev.beaconLane (slotframeOf u.frameStart.toNat) (u.beaconBody u.frameStart ids) ids) u = v at *
  have hlists : ∀ x ∈ (v.listsTaken u.frameStart).txu.lists, ntAfter x.c u.frameStart = true := fun x hx => (List.mem_filter.1 hx).2
  have hlanes : (v.listsTaken u.frameStart).mac.lanes = v.mac.lanes := rfl
  have hout : (v.listsTaken u.frameStart).out = v.out := rfl
  have hclk : (v.listsTaken u.frameStart).clk = v.clk := rfl
  generalize v.listsTaken u.frameStart = w at *
  have h2 : w.BeaconKept (ids.foldl Dev.commitListed w).firstBeacon := (Dev.BeaconKept.foldl Dev.BeaconKept.commitListed ids w).trans (.firstBeacon _)
  generalize (ids.foldl Dev.commitListed w).firstBeacon = d at *
  refine .of_effect he ⟨h2.clk.trans (hclk.trans (h1.frame .clk (by decide))), fun n hn ho => ?_, fun x hx => hlists x (h2.lists ▸ hx)⟩
  obtain ⟨hsf, hbeacon, hframe⟩ := hsent n (hmem n hn ho)
  refine ⟨?_, ?_, ?_⟩
  · rw [Dev.lane, h2.lanes, hlanes, ← Dev.lane]
    exact hsf
  · rw [← hrun]
    exact h2.out _ (hout ▸ hbeacon)
  · exact h2.out _ (hout ▸ hframe)

/-! #### A listed transaction commits -/

theorem frame_progressTxn (s : Dev) (t : Txn) (c : Nat) (b : List Byte) : Frame [.hif, .todo, .out] s (s.progressTxn t c b) := by
  unfold Dev.progressTxn
  split
  · split
    · exact .refl _ s
    · exact (frame_progress s _ c b).mono (by decide)
  · exact .refl _ s

/-- The first beacon after a takeover changes the pair, its register and the rings. -/
theorem Dev.firstBeacon_spec (s : Dev) : Frame [.par, .regs, .todo, .hif, .out] s s.firstBeacon ∧ RegsBut [0x15020] s s.firstBeacon := by
  unfold Dev.firstBeacon
  split
  · split
    · exact ⟨.refl _ s, .refl _ s⟩
    · extract_lets us p s1 s2
      have h1 : Frame [.par] s s1 := fun p hp => by
        cases p <;> simp at hp <;> rfl
      have h2 := frame_cntSat s1 (0x15020, 0, 16)
      have hc := RegsBut.cntSat s1 (0x15020, 0, 16)
      have h3 : Frame [.todo, .hif, .out] (s1.cntSat (0x15020, 0, 16)) s2 := ((frame_raise _ 0x3C).append (frame_event _ _ _)).mono (by decide)
      have h4 := frame_doneOpt s2 ‹Takeover›.handle stOK []
      exact ⟨((h1.append h2).append (h3.append h4)).mono (by decide),
        ((RegsBut.of_frame h1 (by decide)).trans hc).trans (.of_frame (h3.append h4) (by decide))⟩
  · exact ⟨.refl _ s, .refl _ s⟩

/-- Actions that set no set-point prune nothing. -/
theorem foldl_noSetpoint {f : Dev → Nat → Dev} {acts : List Action} (h : (acts.all fun a => match a with | .setpoint .. => false | _ => true) = true) (s : Dev) :
    acts.foldl (fun s a => match a with | .setpoint n _ _ => f s n | _ => s) s = s := by
  induction acts generalizing s with
  | nil => rfl
  | cons a l ih =>
    rw [List.all_cons, Bool.and_eq_true] at h
    obtain ⟨ha, hl⟩ := h
    rw [List.foldl_cons]
    cases a with
    | setpoint n p q => cases ha
    | _ => exact ih hl s

/-- The entries of a transaction that commits are FIRM. -/
def Dev.madeFirm (s : Dev) (id : Nat) : List Resv :=
  s.trl.resv.map fun r => if r.txn = id && (r.kind = .offered || r.staged) then { r with kind := .firm, staged := false } else r

theorem Dev.commitTxn_noSetpoint {s : Dev} {x : Txn} (hx : s.txn? x.id = some x) (hdone : x.doneAt = true)
    (hacts : (x.acts.all fun a => match a with | .setpoint .. => false | _ => true) = true) :
    (s.commitTxn x).txn? x.id = some { x with phase := .committed } ∧ (s.commitTxn x).fld (0x902C, 0, 16) = wrapInc 16 (s.fld (0x902C, 0, 16)) ∧
      (s.commitTxn x).trl.resv = s.madeFirm x.id := by
  unfold Dev.commitTxn
  extract_lets s1 s2 s3 s4 sf s5
  have h1 : Frame [.trl, .regs, .todo] s s1 := frame_setResv s _
  have hregs1 : s1.fld (0x902C, 0, 16) = s.fld (0x902C, 0, 16) := Dev.fld_of_reg (f := (0x902C, 0, 16)) (Dev.reg_setResv s _ (by decide))
  have hresv1 : s1.trl.resv = s.madeFirm x.id := Dev.resv_setResv s _
  have h2 : Frame [.regs] s1 s2 := frame_cntWrap s1 _
  have hfld2 : s2.fld (0x902C, 0, 16) = wrapInc 16 (s1.fld (0x902C, 0, 16)) := Dev.fld_cntWrap s1 _ (by decide)
  have h3 : Frame [.hif, .todo, .out] s2 s3 := frame_progressTxn s2 x 2 _
  have h4 : Frame [.txu] s3 s4 := frame_updTxn s3 _ _
  have htxu : s3.txu = s.txu := ((h1.append h2).append h3) .txu (by decide)
  have hid : x.id ≠ 0 := by
    intro h0
    rw [Dev.txn?, if_pos h0] at hx
    cases hx
  have htxn4 : s4.txn? x.id = some { x with phase := .committed } := by
    have hs4 : s4 = { s3 with txu := { s3.txu with txns := mapWhere (fun t => t.id == x.id) (fun t => { t with phase := .committed }) s3.txu.txns } } := if_neg hid
    rw [Dev.txn?, if_neg hid] at hx ⊢
    rw [hs4]
    dsimp only
    rw [htxu, find?_mapWhere (fun t : Txn => t.id == x.id) (fun t : Txn => t.id == x.id) (fun t : Txn => { t with phase := .committed }) (fun _ => rfl), hx]
    simp
  have h5 : s5 = s4 := foldl_noSetpoint (f := fun s n => if loopLon n then s.prune [((n - 24) / 2, sf)] else s) hacts s4
  clear_value s5
  subst h5
  rw [if_pos hdone]
  refine ⟨htxn4, ?_, ?_⟩
  · rw [Dev.fld_of_frame (h3.append h4) (by decide), hfld2, hregs1]
  · rw [(h2.append (h3.append h4)) .trl (by decide)]
    exact hresv1

/-- The transaction that a beacon lists commits (R228). -/
theorem CompletesThen.beacon_commits {s : State} {u : Dev} {id : Nat} {x : Txn} (hu : u = s.tickTo s.beaconNt) (hb : s.beaconing = true) (htok : u.holdsToken = true)
    (hrest : s.saf.restarting = false) (hsil : s.mac.silentUntil = none) (hpause : s.upd.pause ≠ some 5)
    (hids : (s.txu.lists.find? fun y => y.c == u.frameStart).map (·.ids) = some [id]) (hx : s.txn? id = some x) (hph : x.phase = .listed) (hdone : x.doneAt = true)
    (hacts : (x.acts.all fun a => match a with | .setpoint .. => false | _ => true) = true) :
    CompletesThen .beacon s fun d => d.txn? id = some { x with phase := .committed } ∧
        d.fld (0x902C, 0, 16) = wrapInc 16 (s.fld (0x902C, 0, 16)) ∧ d.trl.resv = s.trl.resv.map fun r =>
          if r.txn = id && (r.kind = .offered || r.staged) then { r with kind := .firm, staged := false } else r := by
  have he := exec_beacon (ids := [id]) hu hb htok hrest hsil hpause (by rw [hids]; rfl)
  unfold Dev.beaconsSent at he
  have h0 : Frame [.clk, .out] s.toDev u := by
    rw [hu]
    exact frame_tick s.toDev _
  obtain ⟨h1, -⟩ := Dev.beaconLanes_spec (slotframeOf u.frameStart.toNat) (u.beaconBody u.frameStart [id]) [id]
    (u.inService.filter fun n => (u.lane n).owesBeacon (slotframeOf u.frameStart.toNat)) u
  generalize (u.inService.filter fun n => (u.lane n).owesBeacon (slotframeOf u.frameStart.toNat)).foldl
    (Dev.beaconLane (slotframeOf u.frameStart.toNat) (u.beaconBody u.frameStart [id]) [id]) u = v at *
  have hfs := h0.append h1.frame
  have hfld : v.fld (0x902C, 0, 16) = s.fld (0x902C, 0, 16) :=
    (Dev.fld_of_reg (f := (0x902C, 0, 16)) (h1.regs _ (by decide))).trans (Dev.fld_of_frame h0 (by decide) _)
  have hxid : x.id = id := by
    unfold Dev.txn? at hx
    split at hx
    · cases hx
    · simpa using List.find?_some hx
  have htxn : (v.listsTaken u.frameStart).txn? x.id = some x := by
    have htxu : v.txu = s.txu := hfs .txu (by decide)
    have htxns : (v.listsTaken u.frameStart).txu.txns = s.txu.txns := htxu ▸ rfl
    rw [hxid, Dev.txn?, htxns, ← Dev.txn?]
    exact hx
  have hfldw : (v.listsTaken u.frameStart).fld (0x902C, 0, 16) = s.fld (0x902C, 0, 16) := hfld
  have hresv : (v.listsTaken u.frameStart).trl.resv = s.trl.resv := congrArg Trl.resv (hfs .trl (by decide) :)
  generalize v.listsTaken u.frameStart = w at *
  obtain ⟨htxn2, hfld2, hresv2⟩ := Dev.commitTxn_noSetpoint htxn hdone hacts
  have hcommit : [id].foldl Dev.commitListed w = w.commitTxn x := by
    rw [List.foldl_cons, List.foldl_nil, Dev.commitListed, ← hxid, htxn]
    exact if_pos hph
  rw [hcommit] at he
  obtain ⟨hend, hregs⟩ := (w.commitTxn x).firstBeacon_spec
  generalize w.commitTxn x = y at *
  refine .of_effect he ⟨?_, ?_, ?_⟩
  · rw [Dev.txn?, hend .txu (by decide), ← Dev.txn?, ← hxid]
    exact htxn2
  · rw [hregs.fld_eq (by decide), hfld2, hfldw]
  · rw [hend .trl (by decide), hresv2, Dev.madeFirm, hresv, hxid]

/-- Settles O29: each cut-off judges and lists, and each beacon sends and commits. -/
theorem transactionsPassTheirCutOffAndCommit : Obligations.TransactionsPassTheirCutOffAndCommit :=
  ⟨fun _ _ _ _ => .cutOff_staged, fun _ _ _ => .cutOff_offered, fun _ _ _ => .cutOff_late, fun _ _ _ _ _ _ => .cutOff_conflict,
    fun _ _ _ => .beacon, fun _ _ _ _ => .beacon_commits⟩

end Sys2Proof.Machine
